-- ==== Sys2Proof/Word.lean ====
section
/-! DEFINITION. The word types of the manual and their plainest arithmetic: bit 0 is the least significant bit and
multi-byte fields are little-endian (R5). -/

namespace Sys2Proof

abbrev Byte := BitVec 8
abbrev Half := BitVec 16
abbrev Word := BitVec 32
abbrev Word64 := BitVec 64

/-- A list in one canonical form: keys strictly rising, no entry equal to what an unlisted key reads as. -/
abbrev Store (α : Type) := List (Nat × α)

/-- Byte memory: a list of `Host.Cell`; an unlisted address reads zero. -/
abbrev Mem := List Host.Cell

/-- A set of numbers: strictly rising, no repeats. -/
abbrev NatSet := List Nat

end Sys2Proof
end

