-- ==== Sys2Proof/Event.lean ====
section
/-! DEFINITION. What commands carry besides numbers: accesses, findings of tests and sensors, and elapsed cycles. -/

namespace Sys2Proof

/-- The bank atomics of Table CORE.13. -/
inductive AtomicOp where
  | add32
  | add64
  | fadd32
  | swap32
  | swap64
  deriving DecidableEq, Repr

/-- A plain access at a bank port of the cluster shared SRAM: a read of `len` bytes, or a write of `data`. -/
structure SramAcc where
  off : Nat
  len : Nat
  data : Option (List Byte)
  deriving DecidableEq, Repr

/-- A command at work on a column, with the ACLK cycles that it waited on refresh (R162). -/
structure ColRun where
  col : Fin 8704
  stall : Nat
  deriving DecidableEq, Repr

/-- A row, request or response that leaves a crossing FIFO, and whether its entry shows a parity error there (R34): at a column, at
a core, and as the response of a transaction. -/
structure ColIn where
  col : Fin 8704
  parity : Bool
  deriving DecidableEq, Repr

structure CoreIn where
  core : Fin 4352
  parity : Bool
  deriving DecidableEq, Repr

structure RespIn where
  id : Nat
  parity : Bool
  deriving DecidableEq, Repr

/-- A target by its number, and the NCLK cycles since the last event that counts them. Time is the environment's. -/
structure TargetAt where
  key : Fin 30024
  nclk : Nat
  deriving DecidableEq, Repr

/-- An EMIT at work on a column, with the busy answers that each 64-byte block it writes at the chain's port B meets (R79). -/
structure EmitRun where
  col : Fin 8704
  busy : List Nat
  deriving DecidableEq, Repr

/-- Timing of an array command that only its surroundings fix (R107): the governor cycle in which it started, and the frozen cycles
of the causes drain, weight and feed. Time is the environment's, so the event carries them; the other counts follow. -/
structure MxeCycles where
  phase : Fin 16
  drn : Nat
  wgt : Nat
  feed : Nat
  deriving DecidableEq, Repr

/-- What a step's tile programs made of one length-table entry (R230, R235): the sampled token, and the flags that the final
records of its queries carry. -/
structure StepOut where
  token : Word
  mixed : Bool
  clamp : Bool
  fmt : Bool
  poison : Bool
  foreign : Bool
  item : Bool
  deriving DecidableEq, Repr

def StepOut.none : StepOut :=
  { token := 0, mixed := false, clamp := false, fmt := false, poison := false, foreign := false, item := false }

/-- The head map that DIR_REGISTER reads from host memory, and the layer of each layer-head, which the tile programs know and
R216 and R220 use. The spec names no source for it: the command carries it. DESIGN CHOICE (log entry 39). -/
structure HeadMap where
  words : List Word64
  layers : List Nat
  deriving DecidableEq, Repr

/-- What stage 1 reads (R354, R431, R435): whether the fuse bank reads without error, the life cycle, the SVN, the digests of
unrevoked vendor keys and the digest of the bank. -/
structure FuseBank where
  ok : Bool
  lc : Nat
  svn : Nat
  keys : List (List Byte)
  digest : List Byte
  deriving DecidableEq, Repr

/-- The defects found at manufacture as the fuses hold them (R354, R363): core sites, clusters, bond lanes as column · 134 +
group with lane and spare, bridge lanes as direction · 12 + group with lane and spare, repaired DRAM rows as column and row. -/
structure FuseMap where
  cores : List Nat
  clus : List Nat
  bond : List (Nat × Nat × Nat)
  brg : List (Nat × Nat × Nat)
  rows : List (Nat × Nat)
  deriving DecidableEq, Repr

def FuseMap.empty : FuseMap := { cores := [], clus := [], bond := [], brg := [], rows := [] }

/-- What the module's meters show at the 10 µs tick (R35): power of each tower with its memory part, and of the hubs' rails
VH_LOG and VM 0 to 3 and VOE, in 0.1 W. -/
structure Meters where
  tower : List (Nat × Nat)
  hub : List Nat
  deriving DecidableEq, Repr

/-- The capability structures of Table HOST.1's features, with those that a 64 GT/s link and these features need of PCIe. There is none
for ATS, PASID, PRI, L1 substates or CXL (R285). Their identifiers come from the PCIe specification. PRESUMED (log entry 205). -/
inductive CapKind where
  | pm | pcie | msix | aer | ari | sriov | doe | ide | secPcie | dlf | pl16 | pl32 | pl64 | dev3 | flit
  deriving DecidableEq, Repr, Inhabited

/-- What a configuration word beyond the header holds: nothing, a word whose bits no rule names, the first word of a
structure, or a register of Table HOST.1's features. -/
inductive CfgItem where
  | none
  | fixed
  | head (k : CapKind)
  | devCap | devCtl | linkCap | linkCtl | dev3Cap | pmCsr | msixTable | msixPba
  | sriovCtl | sriovVfs | sriovNum | sriovOff | sriovDev
  | sriovBar (i : Fin 6)
  | aerCorStat | aerCorMask
  deriving DecidableEq, Repr, Inhabited

/-- A configuration request: a register (dword index), and the word that a write stores. -/
structure CfgReq where
  reg : Fin 1024
  data : Option Word
  deriving DecidableEq, Repr

/-- Where a host read lands: an offset in BAR0 of a function, or one in BAR2 (R297). -/
inductive BarAddr where
  | bar0 (fn : Fin 65) (off : Fin (2 ^ 28))
  | bar2 (x : Fin (2 ^ 36))
  deriving DecidableEq, Repr

/-- Why a column retrains (R31, R364): the lanes that the tower manager finds failed in its suspect groups, as group and lane,
and the layers whose phase error lies beyond tracking. -/
structure ColFind where
  lanes : List (Nat × Nat)
  layers : List Nat
  deriving DecidableEq, Repr

/-- The boot images as stage 1 finds them (R350, R435): the factory image's SVN and digest, and whether the staged and the
previous image check. -/
structure BootImages where
  svn : Nat
  digest : List Byte
  stagedOk : Bool
  prevOk : Bool
  deriving DecidableEq, Repr

/-- A retention pause of stage 6 (R362): the tower, the background 0 to 7, the hottest layer temperature at its start and the most
that a layer moved meanwhile (0.25 °C), whether refresh stopped for P, 2P, 4P or 8P (0 to 3), and the rows that lost a bit, as
column and row. -/
structure Pause where
  tower : Nat
  bg : Nat
  temp : Int
  move : Nat
  mult : Nat
  lost : List (Nat × Nat)
  deriving DecidableEq, Repr

/-- What the tests of stages 4 to 6 find (R359 to R363): towers without root clock; bridge lanes that fail, as direction ·
12 + group with lane; bridge groups that keep showing errors; restarted directions; towers whose logic, mesh or tower manager
fails; clusters whose router or whose shared SRAM fails; core sites whose memories or whose engines fail; bond lanes that
fail, as column · 134 + group with lane; rows that fail the March test; the retention pauses; column and layer of phases that do
not train; and the time taken in µs. -/
structure TestFind where
  noRoot : List Nat
  brgLanes : List (Nat × Nat)
  brgDown : List Nat
  restarts : List Nat
  logic : List Nat
  routers : List Nat
  clus : List Nat
  mems : List Nat
  engines : List Nat
  bondLanes : List (Nat × Nat)
  rows : List (Nat × Nat)
  holds : List Pause
  phase : List (Nat × Nat)
  dur : Nat
  deriving DecidableEq, Repr

/-- What stage 8 or a retraining finds at one engine (Table FAB.5): vendor and device ID, whether the identity is in the
qualified table, the UCIe rate as FAB_PORT_STAT codes it, and the wavelengths that qualify for transmission and reception. -/
structure EngineFind where
  id : Word
  qualified : Bool
  ucie : Nat
  tx : Nat
  rx : Nat
  deriving DecidableEq, Repr

/-- A sensor's reading in its own unit (Table THM.1): 0.25 °C for diodes; the rising edges of the flow-pulse input by age in ns,
newest first; the voltage of a thermistor contact in µV (R460); neither when the channel reads open or short. -/
inductive Rd where
  | val (v : Int)
  | volt (uv : Nat)
  | edges (ages : List Nat)
  | cut
  deriving DecidableEq, Repr

end Sys2Proof
end

