-- ==== Sys2Proof/Syntax.lean ====
section
/-! DEFINITION. The block's commands: one constructor per row of the command table, named after it, with its operands. A
command is a write to the device, a pin or sensor event, a packet of a command window, or a step of one of the device's own
engines, named by the physical unit that takes it. -/

namespace Sys2Proof

/-- A command. Core c is 17 · cluster + site, cluster 16 · tower + number, bank column 2 · core + (0 A, 1 B), port 4 · hub +
number, windows 0 to 63 the physical function's and 64 + p virtual function p's; functions are 0 and p + 1. -/
inductive Instr where
  /-- REGISTER_WRITE (R7). -/
  | registerWrite (fn : Fin 65) (off : Fin (2 ^ 28)) (w : Word)
  /-- CONFIG_REQUEST (R288). -/
  | configRequest (fn : Fin 65) (reg : CfgReq)
  /-- BAR2_READ (R297). -/
  | bar2Read (x : BarAddr) (n : Fin 4097)
  /-- BAR2_WRITE (R295). -/
  | bar2Write (x : Fin (2 ^ 36)) (d : List Byte)
  /-- VAUX_UP (R36). -/
  | vauxUp
  /-- INPUT_SWITCH_CLOSE (R454). -/
  | inputSwitchClose
  /-- VIN_UNDERVOLTAGE (R37). -/
  | vinUndervoltage
  /-- VIN_RECOVER (R37). -/
  | vinRecover
  /-- VIN_COLLAPSE (R37). -/
  | vinCollapse
  /-- VIN_LOSS (R40). -/
  | vinLoss
  /-- REVERSE_CURRENT (R39). -/
  | reverseCurrent
  /-- REVERSE_INPUT (R455). -/
  | reverseInput
  /-- CLKMON_WINDOW (R32). -/
  | clkmonWindow (d : Fin 20) (counts : List Nat)
  /-- CLOCK_STOPPED (R32). -/
  | clockStopped (d : Fin 20) (c : Fin 11)
  /-- GOVERNOR_RISE_TICK (R43). -/
  | governorRiseTick (k : Fin 256)
  /-- GOVERNOR_FALL_TICK (R43). -/
  | governorFallTick (k : Fin 256)
  /-- POWER_LOOP_TICK (R45). -/
  | powerLoopTick (pk : Nat) (tw : Meters)
  /-- COMPARATOR_DECREMENT (R47). -/
  | comparatorDecrement (n : Fin 16) (p : Nat)
  /-- PBRK_ASSERT (R48). -/
  | pbrkAssert
  /-- PBRK_DEASSERT (R50). -/
  | pbrkDeassert
  /-- BRAKE_RELEASE (R49). -/
  | brakeRelease
  /-- BRAKE_FW_REQ (R49). -/
  | brakeFwReq (w : Word)
  /-- PKG_LIMIT_WRITE (R45). -/
  | pkgLimitWrite (w : Word)
  /-- TWR_LIMIT_WRITE (R45). -/
  | twrLimitWrite (n : Fin 16) (w : Word)
  /-- RAMP_CTL_WRITE (R44). -/
  | rampCtlWrite (w : Word)
  /-- SLOTMAP_WRITE (R58). -/
  | slotmapWrite (c : Fin 4352) (m : Fin 3) (w : Word)
  /-- PWR_PROFILE_WRITE (R63). -/
  | pwrProfileWrite (c : Fin 4352) (w : Word)
  /-- BANK_GROUP_READY (R63). -/
  | bankGroupReady (c : Fin 4352)
  /-- UNI_REGION_WRITE (R67). -/
  | uniRegionWrite (c : Fin 4352) (i : Fin 8) (w : Word)
  /-- UNIFIED_WRITE (R68). -/
  | unifiedWrite (c : Fin 4352) (v : Bool)
  /-- NARROW_WRITE_BACK (R61). -/
  | narrowWriteBack (c : Fin 4352)
  /-- CLUSTER_SRAM_ACCESS (R76). -/
  | clusterSramAccess (c : Fin 256) (a : Option SramAcc) (b : Option SramAcc) (heldA : Bool) (heldB : Bool)
  /-- BANK_ATOMIC (R77). -/
  | bankAtomic (c : Fin 256) (port : Fin 2) (off : Fin 4194304) (op : AtomicOp) (arg : Word64) (held : Bool)
  /-- QUEUED_ATOMIC (R78). -/
  | queuedAtomic (c : Fin 256) (bank : Fin 32)
  /-- WLOAD (R90). -/
  | wload (c : Fin 4352)
  /-- STREAM (R93). -/
  | stream (c : Fin 4352) (y : MxeCycles)
  /-- EWISE (R98). -/
  | ewise (c : Fin 4352) (y : MxeCycles)
  /-- ACCLOAD (R99). -/
  | accload (c : Fin 4352)
  /-- DRAIN (R99). -/
  | drain (c : Fin 4352)
  /-- MXE_COMMAND_START (R103). -/
  | mxeCommandStart (c : Fin 4352)
  /-- SHADOW_PROMOTE (R92). -/
  | shadowPromote (c : Fin 4352)
  /-- MXE_COMMAND_FINISH (R105). -/
  | mxeCommandFinish (c : Fin 4352) (i : Fin 8)
  /-- MXE_COMMAND_RETIRE (R103). -/
  | mxeCommandRetire (c : Fin 4352)
  /-- NOP (R111). -/
  | nop (c : Fin 4352)
  /-- HALT (R143). -/
  | halt (c : Fin 4352)
  /-- TRAP (R139). -/
  | trap (c : Fin 4352)
  /-- TRET (R141). -/
  | tret (c : Fin 4352)
  /-- TABORT (R141). -/
  | tabort (c : Fin 4352)
  /-- ADD (R111). -/
  | add (c : Fin 4352)
  /-- SUB (R111). -/
  | sub (c : Fin 4352)
  /-- AND (R111). -/
  | and (c : Fin 4352)
  /-- OR (R111). -/
  | or (c : Fin 4352)
  /-- XOR (R111). -/
  | xor (c : Fin 4352)
  /-- SHL (R111). -/
  | shl (c : Fin 4352)
  /-- SHR (R111). -/
  | shr (c : Fin 4352)
  /-- SRA (R111). -/
  | sra (c : Fin 4352)
  /-- MUL (R111). -/
  | mul (c : Fin 4352)
  /-- MIN (R111). -/
  | min (c : Fin 4352)
  /-- MAX (R111). -/
  | max (c : Fin 4352)
  /-- SLT (R111). -/
  | slt (c : Fin 4352)
  /-- SLTU (R111). -/
  | sltu (c : Fin 4352)
  /-- CEQ (R111). -/
  | ceq (c : Fin 4352)
  /-- ADDI (R111). -/
  | addi (c : Fin 4352)
  /-- ANDI (R111). -/
  | andi (c : Fin 4352)
  /-- ORI (R111). -/
  | ori (c : Fin 4352)
  /-- XORI (R111). -/
  | xori (c : Fin 4352)
  /-- SHLI (R111). -/
  | shli (c : Fin 4352)
  /-- SHRI (R111). -/
  | shri (c : Fin 4352)
  /-- SRAI (R111). -/
  | srai (c : Fin 4352)
  /-- CEQI (R111). -/
  | ceqi (c : Fin 4352)
  /-- LD (R113). -/
  | ld (c : Fin 4352)
  /-- ST (R113). -/
  | st (c : Fin 4352)
  /-- LDC (R114). -/
  | ldc (c : Fin 4352) (busy : Bool)
  /-- STC (R114). -/
  | stc (c : Fin 4352) (busy : Bool)
  /-- AADDC (R114). -/
  | aaddc (c : Fin 4352)
  /-- ASWPC (R114). -/
  | aswpc (c : Fin 4352)
  /-- AMOV (R111). -/
  | amov (c : Fin 4352)
  /-- AADD (R111). -/
  | aadd (c : Fin 4352)
  /-- AADDR (R111). -/
  | aaddr (c : Fin 4352)
  /-- AGET (R111). -/
  | aget (c : Fin 4352)
  /-- BEQ (R111). -/
  | beq (c : Fin 4352)
  /-- BNE (R111). -/
  | bne (c : Fin 4352)
  /-- BLT (R111). -/
  | blt (c : Fin 4352)
  /-- BGE (R111). -/
  | bge (c : Fin 4352)
  /-- BLTU (R111). -/
  | bltu (c : Fin 4352)
  /-- BGEU (R111). -/
  | bgeu (c : Fin 4352)
  /-- JMP (R111). -/
  | jmp (c : Fin 4352)
  /-- JAL (R111). -/
  | jal (c : Fin 4352)
  /-- JR (R111). -/
  | jr (c : Fin 4352)
  /-- BBUSY (R114). -/
  | bbusy (c : Fin 4352)
  /-- TKWAIT (R115). -/
  | tkwait (c : Fin 4352)
  /-- TKWAIT_SATISFIED (R115). -/
  | tkwaitSatisfied (c : Fin 4352)
  /-- TKADD (R115). -/
  | tkadd (c : Fin 4352)
  /-- TKSET (R115). -/
  | tkset (c : Fin 4352)
  /-- TKRD (R115). -/
  | tkrd (c : Fin 4352)
  /-- DISP (R118). -/
  | disp (c : Fin 4352)
  /-- MOVCLR (R135). -/
  | movclr (c : Fin 4352)
  /-- MOVST (R135). -/
  | movst (c : Fin 4352)
  /-- CBAR (R136). -/
  | cbar (c : Fin 4352)
  /-- CBAR_POLL (R136). -/
  | cbarPoll (c : Fin 4352)
  /-- GBAR (R137). -/
  | gbar (c : Fin 4352)
  /-- GBAR_RELEASE (R137). -/
  | gbarRelease (p : Fin 65) (g : Fin 16)
  /-- CSRR (R112). -/
  | csrr (c : Fin 4352)
  /-- CSRW (R112). -/
  | csrw (c : Fin 4352)
  /-- TRAP_TAKE (R140). -/
  | trapTake (c : Fin 4352)
  /-- WAIT_TIMEOUT (R142). -/
  | waitTimeout (c : Fin 4352)
  /-- CORE_HALTED (R143). -/
  | coreHalted (c : Fin 4352)
  /-- SEQ_START (R109). -/
  | seqStart (c : Fin 4352) (w : Word)
  /-- HALT_REQ (R143). -/
  | haltReq (c : Fin 4352) (w : Word)
  /-- LOAD_GO (R145). -/
  | loadGo (c : Fin 4352) (w : Word)
  /-- LOAD_PATH_DONE (R145). -/
  | loadPathDone (c : Fin 4352)
  /-- VLD (R122). -/
  | vld (c : Fin 4352)
  /-- VST (R122). -/
  | vst (c : Fin 4352)
  /-- VADD (R123). -/
  | vadd (c : Fin 4352)
  /-- VSUB (R123). -/
  | vsub (c : Fin 4352)
  /-- VMUL (R123). -/
  | vmul (c : Fin 4352)
  /-- VFMA (R123). -/
  | vfma (c : Fin 4352)
  /-- VMAX (R123). -/
  | vmax (c : Fin 4352)
  /-- VMIN (R123). -/
  | vmin (c : Fin 4352)
  /-- VCMPGT (R123). -/
  | vcmpgt (c : Fin 4352)
  /-- VSEL (R123). -/
  | vsel (c : Fin 4352)
  /-- VABS (R123). -/
  | vabs (c : Fin 4352)
  /-- VNEG (R123). -/
  | vneg (c : Fin 4352)
  /-- VMOVE (R123). -/
  | vmove (c : Fin 4352)
  /-- VEXP (R123). -/
  | vexp (c : Fin 4352)
  /-- VEXP2 (R123). -/
  | vexp2 (c : Fin 4352)
  /-- VRCP (R123). -/
  | vrcp (c : Fin 4352)
  /-- VRSQ (R123). -/
  | vrsq (c : Fin 4352)
  /-- RMAX (R124). -/
  | rmax (c : Fin 4352)
  /-- RSUM (R124). -/
  | rsum (c : Fin 4352)
  /-- ARGMAX (R124). -/
  | argmax (c : Fin 4352)
  /-- QMX (R125). -/
  | qmx (c : Fin 4352)
  /-- RNG (R126). -/
  | rng (c : Fin 4352)
  /-- VXE_COMMAND_RETIRE (R120). -/
  | vxeCommandRetire (c : Fin 4352)
  /-- MOV_COPY (R129). -/
  | movCopy (c : Fin 4352) (ch : Fin 8) (busy : List Nat)
  /-- MOV_FILL (R466). -/
  | movFill (c : Fin 4352) (ch : Fin 8) (busy : List Nat)
  /-- MOV_DESCRIPTOR_START (R131). -/
  | movDescriptorStart (c : Fin 4352) (ch : Fin 8)
  /-- MOV_DESCRIPTOR_RETIRE (R129). -/
  | movDescriptorRetire (c : Fin 4352) (ch : Fin 8)
  /-- MOV_CH_HALT_WRITE (R135). -/
  | movChHaltWrite (c : Fin 4352) (ch : Fin 8) (w : Word)
  /-- REMOTE_WRITE (R134). -/
  | remoteWrite (c : CoreIn)
  /-- REMOTE_REFUSAL (R134). -/
  | remoteRefusal (c : Fin 4352)
  /-- ROW_READ_ISSUE (R153). -/
  | rowReadIssue (col : Fin 8704) (k : Fin 16) (busy : BitVec 8)
  /-- ROW_READ_DELIVER (R151). -/
  | rowReadDeliver (col : ColIn)
  /-- WRITE_COMBINE_ACCEPT (R152). -/
  | writeCombineAccept (col : Fin 8704) (row : Fin 131072) (blk : Fin 16) (d : List Byte)
  /-- ROW_WRITE_ISSUE (R152). -/
  | rowWriteIssue (col : Fin 8704) (row : Fin 131072) (k : Fin 16) (busy : BitVec 8)
  /-- BOND_GROUP_SUSPECT (R159). -/
  | bondGroupSuspect (col : Fin 8704) (group : Fin 134) (octet : Fin 8)
  /-- MIGRATION_COMPLETE (R369). -/
  | migrationComplete (col : Fin 8704)
  /-- REFRESH_INTERVAL_TICK (R161). -/
  | refreshIntervalTick (col : Fin 8704)
  /-- REFRESH_ISSUE (R161). -/
  | refreshIssue (col : Fin 8704) (busy : BitVec 8)
  /-- REFRESH_CTL_WRITE (R161). -/
  | refreshCtlWrite (n : Fin 16) (w : Word)
  /-- QLOAD (R170). -/
  | qload (col : ColRun)
  /-- SCORE (R168). -/
  | score (col : Fin 8704) (busy : List Nat) (stall : Nat)
  /-- EMIT (R171). -/
  | emit (col : EmitRun)
  /-- NBU_COPY (R172). -/
  | nbuCopy (col : ColRun)
  /-- REQUANT (R172). -/
  | requant (col : ColRun)
  /-- NBU_COMMAND_START (R164). -/
  | nbuCommandStart (col : Fin 8704)
  /-- NBU_COMMAND_RETIRE (R164). -/
  | nbuCommandRetire (col : Fin 8704)
  /-- TIER1_ATOMIC (R175). -/
  | tier1Atomic (col : Fin 8704) (off : Fin 268435456) (op : AtomicOp) (arg : Word64)
  /-- CHAIN_WAIT_LIMIT (R173). -/
  | chainWaitLimit (col : Fin 8704)
  /-- CREATE (R195). -/
  | create (w : Fin 128) (stuck : Bool)
  /-- FORK (R192). -/
  | fork (w : Fin 128) (stuck : Bool)
  /-- RESERVE (R195). -/
  | reserve (w : Fin 128) (stuck : Bool)
  /-- TRUNCATE (R195). -/
  | truncate (w : Fin 128) (stuck : Bool)
  /-- RELEASE (R195). -/
  | release (w : Fin 128) (stuck : Bool)
  /-- SETPRIO (R195). -/
  | setprio (w : Fin 128) (stuck : Bool)
  /-- SETHEAD (R195). -/
  | sethead (w : Fin 128) (stuck : Bool)
  /-- COMMIT (R197). -/
  | commit (w : Fin 128)
  /-- SET_POLICY (R317). -/
  | setPolicy (w : Fin 128)
  /-- SWAP_IN (R250). -/
  | swapIn (w : Fin 128)
  /-- SEQ_QUERY (R317). -/
  | seqQuery (w : Fin 128)
  /-- GENERATION_SWITCH (R197). -/
  | generationSwitch (p : Fin 64)
  /-- PREEMPT_VICTIM (R206). -/
  | preemptVictim (p : Fin 64) (held : List (Fin 1048576))
  /-- PAGE_MOVE_OUT (R248). -/
  | pageMoveOut (p : Fin 64) (q : Fin 1048576) (lh : Fin 4096) (blk : Fin 65536)
  /-- STEP_START (R318). -/
  | stepStart (p : Fin 64)
  /-- WALK_SEGMENT_WRITE (R216). -/
  | walkSegmentWrite (p : Fin 64) (clu : Fin 256) (stop : Fin 32) (stuck : Bool)
  /-- STEP_RETIRE (R318). -/
  | stepRetire (p : Fin 64) (outs : List StepOut)
  /-- STEP_LIMIT_EXPIRY (R319). -/
  | stepLimitExpiry (p : Fin 64)
  /-- T2_ACCESS (R240). -/
  | t2Access (pair : Fin 48) (busy : BitVec 16) (err : Fin 4)
  /-- T2_DRIFT_CHECK (R241). -/
  | t2DriftCheck (pkg : Fin 24) (drift : List Nat)
  /-- REQUEST_ISSUE (R281). -/
  | requestIssue (q : Fin 4409) (p : Option (Fin 64)) (addr : Fin (2 ^ 48)) (len : Fin 257) (nclk : Nat) (data : Option (List Byte)) (atom : Option AtomicOp)
  /-- TARGET_ADMIT (R279). -/
  | targetAdmit (id : Nat) (full parity : Bool)
  /-- GRANT (R279). -/
  | grant (key : TargetAt)
  /-- GRANT_LAPSE (R279). -/
  | grantLapse (id : Nat)
  /-- RETRY_REISSUE (R279). -/
  | retryReissue (id : Nat)
  /-- ROUTE_TABLE_LOAD (R272). -/
  | routeTableLoad
  /-- MAP_COMMIT (R274). -/
  | mapCommit (q : Fin 4409)
  /-- CORE_OT_WRITE (R282). -/
  | coreOtWrite (c : Fin 4352) (w : Word)
  /-- COMMAND_WINDOW_WRITE (R301). -/
  | commandWindowWrite (w : Fin 128) (off : Fin 65536) (d : List Byte)
  /-- WINDOW_RESET (R302). -/
  | windowReset (w : Fin 128)
  /-- D3HOT_ENTRY (R289). -/
  | d3hotEntry (fn : Fin 65)
  /-- D0_ENTRY (R289). -/
  | d0Entry (fn : Fin 65)
  /-- VF_FLR (R290). -/
  | vfFlr (p : Fin 64)
  /-- PF_FLR (R290). -/
  | pfFlr
  /-- HOT_RESET (R290). -/
  | hotReset
  /-- LINK_DOWN (R290). -/
  | linkDown
  /-- DEVICE_STATUS (R308). -/
  | deviceStatus (w : Fin 128)
  /-- DEVICE_RESET (R311). -/
  | deviceReset (w : Fin 128)
  /-- SET_LIMITS (R311). -/
  | setLimits (w : Fin 128)
  /-- PART_CREATE (R312). -/
  | partCreate (w : Fin 128)
  /-- PART_RELEASE (R313). -/
  | partRelease (w : Fin 128)
  /-- PART_LOCK (R313). -/
  | partLock (w : Fin 128)
  /-- PART_QUERY (R310). -/
  | partQuery (w : Fin 128)
  /-- PART_READMIT (R313). -/
  | partReadmit (w : Fin 128)
  /-- MEM_WRITE (R314). -/
  | memWrite (w : Fin 128)
  /-- DMA_IN (R314). -/
  | dmaIn (w : Fin 128)
  /-- DMA_OUT (R314). -/
  | dmaOut (w : Fin 128)
  /-- MODEL_LOAD (R315). -/
  | modelLoad (w : Fin 128)
  /-- DIR_REGISTER (R316). -/
  | dirRegister (w : Fin 128) (heads : HeadMap)
  /-- DIR_WITHDRAW (R316). -/
  | dirWithdraw (w : Fin 128)
  /-- ATT_REGISTER (R214). -/
  | attRegister (w : Fin 128)
  /-- T2POOL_REGISTER (R245). -/
  | t2poolRegister (w : Fin 128)
  /-- T2POOL_WITHDRAW (R316). -/
  | t2poolWithdraw (w : Fin 128)
  /-- SWAP_REGISTER (R252). -/
  | swapRegister (w : Fin 128)
  /-- SWAP_WITHDRAW (R252). -/
  | swapWithdraw (w : Fin 128)
  /-- STEP_LAUNCH (R318). -/
  | stepLaunch (w : Fin 128)
  /-- STEP_CANCEL (R319). -/
  | stepCancel (w : Fin 128)
  /-- MNT_START (R394). -/
  | mntStart (w : Fin 128)
  /-- MNT_STOP (R397). -/
  | mntStop (w : Fin 128)
  /-- MNT_QUERY (R397). -/
  | mntQuery (w : Fin 128)
  /-- DIE_REJOIN (R412). -/
  | dieRejoin (w : Fin 128) (f : TestFind)
  /-- HUB_RESET (R413). -/
  | hubReset (w : Fin 128)
  /-- LOG_ACK (R407). -/
  | logAck (w : Fin 128)
  /-- SNAPSHOT (R446). -/
  | snapshot (w : Fin 128)
  /-- TELEM_CFG (R449). -/
  | telemCfg (w : Fin 128)
  /-- COUNTER_CFG (R441). -/
  | counterCfg (w : Fin 128)
  /-- KEY_ROTATE (R255). -/
  | keyRotate (w : Fin 128)
  /-- FW_STAGE (R435). -/
  | fwStage (w : Fin 128) (img : List Byte)
  /-- LIFECYCLE (R431). -/
  | lifecycle (w : Fin 128) (obj : List Byte)
  /-- ATTEST_GET (R437). -/
  | attestGet (w : Fin 128) (nonce : List Byte)
  /-- FAB_PORT (R334). -/
  | fabPort (w : Fin 128)
  /-- FAB_ROLE (R336). -/
  | fabRole (w : Fin 128)
  /-- FAB_ROUTE (R338). -/
  | fabRoute (w : Fin 128)
  /-- FAB_QUERY (R334). -/
  | fabQuery (w : Fin 128)
  /-- FLIT_RECEIVE (R328). -/
  | flitReceive (p : Fin 16) (b : List Byte) (fec : Bool) (poison : Bool)
  /-- PORT_RETRAIN (R334). -/
  | portRetrain (p : Fin 16)
  /-- PORT_RETRAIN_DONE (R334). -/
  | portRetrainDone (p : Fin 16) (tx : BitVec 8) (rx : BitVec 8)
  /-- WAVELENGTH_BER_CHECK (R334). -/
  | wavelengthBerCheck (p : Fin 16) (lane : Fin 8) (ber : Nat)
  /-- LOSS_OF_LIGHT (R335). -/
  | lossOfLight (p : Fin 16)
  /-- LIGHT_RESTORED (R335). -/
  | lightRestored (p : Fin 16)
  /-- LASER_CHECK_PULSE (R463). -/
  | laserCheckPulse (p : Fin 16)
  /-- HEARTBEAT_SEND (R337). -/
  | heartbeatSend
  /-- HEARTBEAT_ANSWER (R337). -/
  | heartbeatAnswer (src : Fin 17)
  /-- CHILD_LOST (R337). -/
  | childLost (level : Fin 4) (digit : Fin 64)
  /-- ORPHAN (R337). -/
  | orphan
  /-- FABRIC_MESSAGE_ROUTE (R339). -/
  | fabricMessageRoute (src : Fin 17)
  /-- CHANNEL_STALL (R329). -/
  | channelStall (p : Fin 16) (chan : Fin 8)
  /-- STREAM_NOTICE (R341). -/
  | streamNotice (k : Fin 256) (i : Fin 4)
  /-- STREAM_SEND (R342). -/
  | streamSend (k : Fin 256) (i : Fin 4)
  /-- PUT_DELIVER (R342). -/
  | putDeliver (src : Fin 17)
  /-- REDUCE_CONTRIBUTION (R344). -/
  | reduceContribution (src : Fin 17)
  /-- REDUCE_CONTEXT_TIMEOUT (R346). -/
  | reduceContextTimeout (group : Fin 768) (tag : Word)
  /-- STREAM_VALID_WRITE (R343). -/
  | streamValidWrite (k : Fin 256) (i : Fin 4) (w : Word)
  /-- RST_N_ASSERT (R458). -/
  | rstNAssert
  /-- RESET_APPLY (R458). -/
  | resetApply
  /-- RST_N_RELEASE (R347). -/
  | rstNRelease
  /-- STAGE_0 (R351). -/
  | stage0 (pll : Bool) (bad : List Nat) (dur : Nat)
  /-- STAGE_1 (R354). -/
  | stage1 (f : FuseBank) (im : BootImages) (recs : FuseMap) (lid : Bool) (dur : Nat)
  /-- STAGE_2 (R350). -/
  | stage2 (up : Bool) (speed : Nat) (width : Nat) (dur : Nat)
  /-- STAGE_3 (R350). -/
  | stage3 (bad : List Nat) (dur : Nat)
  /-- STAGE_4 (R359). -/
  | stage4 (f : TestFind)
  /-- STAGE_5 (R360). -/
  | stage5 (f : TestFind)
  /-- STAGE_6 (R361). -/
  | stage6 (f : TestFind)
  /-- STAGE_7 (R364). -/
  | stage7 (bad : List (Nat × Nat)) (dur : Nat)
  /-- STAGE_8 (R333). -/
  | stage8 (eng : List EngineFind) (dur : Nat)
  /-- STAGE_9 (R365). -/
  | stage9 (ok : Bool) (dur : Nat)
  /-- STAGE_TIME_LIMIT (R352). -/
  | stageTimeLimit (unit : Nat)
  /-- COLUMN_RETRAIN (R367). -/
  | columnRetrain (col : Fin 8704) (lanes : ColFind)
  /-- COLUMN_RETRAIN_DONE (R367). -/
  | columnRetrainDone (col : Fin 8704) (bad : List (Nat × Nat))
  /-- BRIDGE_LIVE_RETRAIN (R368). -/
  | bridgeLiveRetrain (d : Fin 88) (g : Fin 12)
  /-- BRIDGE_RETRAIN_DONE (R368). -/
  | bridgeRetrainDone (d : Fin 88) (lanes : List (Nat × Nat)) (down : List Nat)
  /-- HOTSPOT_SAMPLE (R374). -/
  | hotspotSample (rd : List (List Rd)) (stuck : List Nat)
  /-- HOUSEKEEPING_ROUND (R374). -/
  | housekeepingRound (rd : List (Nat × Rd)) (stuck : List Nat)
  /-- KILN_SITTER_TRIP (R383). -/
  | kilnSitterTrip (n : Fin 16) (layer : Bool) (src : Fin 32) (temp : Int)
  /-- KILN_LAST_CLEAR (R384). -/
  | kilnLastClear (w : Word)
  /-- CANARY_CHECK (R385). -/
  | canaryCheck (col : Fin 8704) (fail : BitVec 8)
  /-- RTH_WINDOW (R386). -/
  | rthWindow (n : Fin 16)
  /-- COOL_WARN_REPEAT (R387). -/
  | coolWarnRepeat
  /-- COOL_WARN_CLEAR (R387). -/
  | coolWarnClear
  /-- FLOW_LOST (R388). -/
  | flowLost (freq : List Nat) (noEdge : Bool)
  /-- FLOW_PRESENT (R388). -/
  | flowPresent (freq : List Nat)
  /-- PATROL_SCRUB_T1 (R401). -/
  | patrolScrubT1 (col : Fin 8704) (g : Fin 32768)
  /-- PATROL_SCRUB_T2 (R402). -/
  | patrolScrubT2 (u : Fin 402653184)
  /-- SP_TRANSPARENT_TEST (R398). -/
  | spTransparentTest (c : Fin 4352) (b : Fin 6144) (bad : Nat)
  /-- T1_TRANSPARENT_TEST (R399). -/
  | t1TransparentTest (col : Fin 8704) (g : Fin 32768) (bad : BitVec 4)
  /-- OPTICAL_RECALIBRATION (R393). -/
  | opticalRecalibration (p : Fin 16)
  /-- BOND_RECALIBRATION (R393). -/
  | bondRecalibration (col : Fin 8704) (lanes : List (Nat × Nat))
  /-- BRIDGE_RECALIBRATION (R393). -/
  | bridgeRecalibration (d : Fin 88)
  /-- SENSOR_CALIBRATION (R376). -/
  | sensorCalibration (ch : Fin 1060) (pass : Bool) (canary : Bool)
  /-- WEAR_TRACKING (R393). -/
  | wearTracking (h : Fin 4)
  /-- TELEMETRY_ROUND (R449). -/
  | telemetryRound
  /-- REKEY_SWEEP (R256). -/
  | rekeySweep (p : Fin 64) (q : Fin 1048576) (lh : Fin 4096) (blk : Fin 65536)
  /-- PARTITION_ZEROING (R403). -/
  | partitionZeroing (p : Fin 64)
  /-- FRAME_ZEROING (R403). -/
  | frameZeroing (k : Fin 256)
  /-- MAINT_PASS_LATE (R396). -/
  | maintPassLate (h : Fin 4) (kind : Fin 64)
  /-- MNT_PERIOD_WRITE (R396). -/
  | mntPeriodWrite (h : Fin 4) (w : Word)
  /-- TOWER_MANAGER_WATCHDOG (R410). -/
  | towerManagerWatchdog (n : Fin 16)
  /-- MP_WATCHDOG (R413). -/
  | mpWatchdog (h : Fin 4)
  /-- GET_VERSION (R422). -/
  | getVersion
  /-- GET_CAPABILITIES (R422). -/
  | getCapabilities
  /-- NEGOTIATE_ALGORITHMS (R422). -/
  | negotiateAlgorithms (falcon : Bool)
  /-- GET_DIGESTS (R422). -/
  | getDigests
  /-- GET_CERTIFICATE (R422). -/
  | getCertificate (slot : Fin 2) (off : Fin 65536) (len : Fin 65536)
  /-- CHALLENGE (R422). -/
  | challenge (slot : Fin 2) (nonce : List Byte)
  /-- GET_MEASUREMENTS (R422). -/
  | getMeasurements (index : Fin 256) (nonce : List Byte)
  /-- KEY_EXCHANGE (R422). -/
  | keyExchange (slot : Fin 2)
  /-- FINISH (R422). -/
  | finish (sid : Nat)
  /-- KEY_UPDATE (R422). -/
  | keyUpdate (sid : Nat)
  /-- HEARTBEAT (R422). -/
  | heartbeat (sid : Nat)
  /-- END_SESSION (R422). -/
  | endSession (sid : Nat)
  /-- IDE_KM (R423). -/
  | ideKm (sid : Nat) (stream : Fin 66) (set : Fin 2)
  /-- GET_DEVICE_INTERFACE_REPORT (R424). -/
  | getDeviceInterfaceReport (p : Fin 64)
  /-- LOCK_INTERFACE_REQUEST (R424). -/
  | lockInterfaceRequest (p : Fin 64)
  /-- START_INTERFACE_REQUEST (R424). -/
  | startInterfaceRequest (p : Fin 64)
  /-- STOP_INTERFACE_REQUEST (R426). -/
  | stopInterfaceRequest (p : Fin 64)
  /-- IDE_INTEGRITY_FAILURE (R423). -/
  | ideIntegrityFailure (stream : Fin 66)
  /-- TAMPER_EVENT (R434). -/
  | tamperEvent (src : Fin 3)
  /-- TAMPER_ZEROING_DONE (R434). -/
  | tamperZeroingDone
  /-- SNAPSHOT_SNAP (R446). -/
  | snapshotSnap
  /-- SNAPSHOT_FREEZE (R446). -/
  | snapshotFreeze
  /-- SNAPSHOT_UNFREEZE (R446). -/
  | snapshotUnfreeze
  /-- SNAPSHOT_LATCH (R446). -/
  | snapshotLatch (dies : List (Fin 20)) (late : Bool)
  /-- SNAPSHOT_COMPLETE (R446). -/
  | snapshotComplete
  /-- TELEM_HEAD_WRITE (R450). -/
  | telemHeadWrite (w : Word)
  /-- SMBUS_READ_BYTE (R461). -/
  | smbusReadByte (code : Fin 256)
  /-- SMBUS_BLOCK_READ (R461). -/
  | smbusBlockRead (code : Fin 256) (n : Fin 256)
  /-- SMBUS_WRITE (R461). -/
  | smbusWrite (code : Fin 256) (d : List Byte)
  /-- SMBUS_MIRROR_REFRESH (R461). -/
  | smbusMirrorRefresh
  /-- VAUX_DOWN (R384). -/
  | vauxDown
  /-- HOST_LINK_UP (R286). -/
  | hostLinkUp (speed : Nat) (width : Nat)
  /-- T2_REFRESH (R242). -/
  | t2Refresh (pair : Fin 48)
  /-- HUB_REJOIN (R413). -/
  | hubRejoin (h : Fin 4) (eng : List EngineFind)
  /-- RESPONSE_RECEIVE (R281). -/
  | responseReceive (id : RespIn)
  /-- HOST_READ_COMPLETION (R314). -/
  | hostReadCompletion (tag : Nat) (d : List Byte)
  deriving DecidableEq, Repr

end Sys2Proof
end

