-- ==== Sys2Proof/Decode.lean ====
section
/-! DEFINITION. The command that a table word spells. -/

namespace Sys2Proof

/-- No row of the command table gives its command bits, so no word spells one. -/
def decodeTableWord (_nbits _w : Nat) : Option Instr := none

end Sys2Proof
end

