-- ==== Sys2Proof/Config.lean ====
section
/-! DEFINITION. Values the manual leaves open, as constants with no body: no proof can see what they are. -/

namespace Sys2Proof.Config

/-- A value the manual leaves undefined, fresh at each use: the argument is the model's counter `State.fresh`. -/
opaque freeValue : Nat → Nat

/-- A choice the manual leaves open, fresh at each use. -/
opaque freeBool : Nat → Nat → Bool

/-- The choice among the results within the error bound of an SFU function, by function code and operand bits
(Table TILE.10: EXP2 and RCP 1 ulp, RSQ 2 ulp). -/
opaque sfuPick : Nat → Nat → Nat

/-- The sign and payload of a NaN that the vector engine computes, by operand bits (R123 leaves them open). -/
opaque vxeNan : Nat → Nat → Nat → Nat

/-- Which of two zeros of opposite sign MAX or MIN returns (R123 does not say). -/
opaque maxZero : Nat → Nat → Bool

/-- The WEIGHT in the configuration of a master port outside the cores, by its number (R277 names no register). -/
opaque portWeight : Nat → BitVec 2

/-- Which member of a port mask a message takes (R339): by source, destination and mask. -/
opaque portHash : Nat → Nat → Nat → Nat

/-- AES-256-GCM sealing of a page image by key, IV, associated data and image (R253): ciphertext, then tag. -/
opaque glazeSeal : Nat → Nat → List Byte → List Byte → List Byte

/-- AES-256-GCM opening by key, IV, associated data and ciphertext with tag: none where authentication fails (R253). -/
opaque glazeOpen : Nat → Nat → List Byte → List Byte → Option (List Byte)

/-- Whether a signature verifies over a message under a public-key digest (R431, R435). -/
opaque sigOk : List Byte → List Byte → List Byte → Bool

/-- The alias keys that stage 1 derives: by the fuse digest, the firmware digests of the four hubs and the life-cycle code, with the
device's secret (R436). -/
opaque aliasKey : List Byte → List Byte

/-- A signature with the alias keys over a message: Falcon-1024 where the first argument is true, else ECDSA P-384 (R422, R437). -/
opaque sign : Bool → List Byte → List Byte → List Byte

/-- SHAKE256 or another digest of bytes, as a byte list of the given length. -/
opaque digest : Nat → List Byte → List Byte

/-- The device identity Falcon-1024 public key (R436). -/
opaque identityKey : List Byte

/-- The payload of an SPDM or TDISP response whose bytes the published standard and the keys give. -/
opaque spdmBytes : Nat → List Byte → List Byte

/-- Fused thermal constants of physical tower n: R_0 in units of 0.001 °C/W (R386). -/
opaque fusedR0 : Nat → Nat

/-- Fused base-die time constant of a tower: the prediction gain, in units of 1/1 024 (R379). -/
opaque fusedTau : Nat → Nat

/-- Fused layer coupling of tower n, layer m, in units of 0.001 °C/W (R380). -/
opaque fusedKm : Nat → Nat → Nat

/-- The rated maximum temperature of optical engine e, in 0.25 °C (Table THM.4 leaves it to the engine). -/
opaque oeRated : Nat → Int

/-- The temperature in 0.25 °C that a thermistor contact's voltage in µV shows: the curve of R375 and R460, whose rounding no rule
gives. -/
opaque ntcTemp : Nat → Int

/-- The test-program version that a Relub image brings, by the digest of its body (R348). -/
opaque testVersion : List Byte → Nat

/-- The vendor ID assigned to Kyofiley Devices (Table HOST.2), the same for every function and every read. -/
opaque vendorId : BitVec 16

/-- What configuration register `reg` (dword index, from 16 on) holds, in the physical function or in a virtual one: R284 and R285
give the features and not where their structures lie. -/
opaque cfgPlace : Bool → Nat → CfgItem

/-- The bits of a configuration word that no rule names, in the physical function or in a virtual one. -/
opaque cfgFix : Bool → Nat → BitVec 32

/-- The fused 64-bit serial number (Table PKG.8). -/
opaque serial : BitVec 64

end Sys2Proof.Config
end

