-- ==== Sys2Proof/Machine/Bits.lean ====
section
/-! DEFINITION. Bit fields, little-endian bytes, saturating counts and the one canonical sparse store of the model. -/

namespace Sys2Proof.Machine

/-- Bits [hi:lo] of a number, both ends included (R5). -/
def fld (w hi lo : Nat) : Nat := (w >>> lo) % 2 ^ (hi + 1 - lo)

/-- The number with bits [hi:lo] replaced by the low bits of `v`. -/
def putFld (w hi lo v : Nat) : Nat :=
  w - fld w hi lo * 2 ^ lo + (v % 2 ^ (hi + 1 - lo)) * 2 ^ lo

/-- Bit `i` of a number. -/
def bitAt (w i : Nat) : Bool := (w >>> i) % 2 == 1

/-- Field [hi:lo] of a 32-bit register word. -/
def wFld (w : Word) (hi lo : Nat) : Nat := fld w.toNat hi lo

/-- A 32-bit register word with field [hi:lo] replaced. -/
def wPut (w : Word) (hi lo v : Nat) : Word := BitVec.ofNat 32 (putFld w.toNat hi lo v)

/-- One bit of a register word. -/
def wBit (w : Word) (i : Nat) : Bool := bitAt w.toNat i

/-- A truth value as a one-bit number. -/
def b2n (b : Bool) : Nat := if b then 1 else 0

/-- Adds `n` to field [hi:lo], saturating at the field's largest value. -/
def wSatAdd (w : Word) (hi lo n : Nat) : Word :=
  wPut w hi lo (min (wFld w hi lo + n) (2 ^ (hi + 1 - lo) - 1))

/-- Adds `n` to field [hi:lo], wrapping within the field. -/
def wWrapAdd (w : Word) (hi lo n : Nat) : Word := wPut w hi lo (wFld w hi lo + n)

/-- The two's-complement value of the low `n` bits of `v`. -/
def signed (n v : Nat) : Int :=
  if v % 2 ^ n < 2 ^ (n - 1) then ((v % 2 ^ n : Nat) : Int) else ((v % 2 ^ n : Nat) : Int) - ((2 ^ n : Nat) : Int)

/-- An integer as an `n`-bit two's-complement code. -/
def unsignedOf (n : Nat) (i : Int) : Nat := (i % ((2 ^ n : Nat) : Int)).toNat

/-- The `n` little-endian bytes of a number (R5). -/
def leBytes : Nat → Nat → List Byte
  | 0, _ => []
  | n + 1, v => BitVec.ofNat 8 v :: leBytes n (v / 256)

/-- The number that little-endian bytes spell (R5). -/
def leNat : List Byte → Nat
  | [] => 0
  | b :: bs => b.toNat + 256 * leNat bs

/-- Little-endian number at bytes `off` to `off + n - 1` of a byte list; bytes beyond the list read zero. -/
def leAt (bs : List Byte) (off n : Nat) : Nat := leNat ((bs.drop off).take n)

/-- Replaces the bytes of `bs` from `off` on by `v`, within the length of `bs`. -/
def putBytes (bs : List Byte) (off : Nat) (v : List Byte) : List Byte :=
  (bs.take off ++ v.take (bs.length - off) ++ bs.drop (off + v.length))

/-- `n` zero bytes. -/
def zeros (n : Nat) : List Byte := List.replicate n 0

/-- Pads with zero bytes to `n`, or cuts to `n`. -/
def fitBytes (n : Nat) (bs : List Byte) : List Byte := (bs ++ zeros (n - bs.length)).take n

/-- What a key of a store reads as: the first entry of that key, else the default of the key. -/
def stGet {α : Type} (d : Nat → α) : Store α → Nat → α
  | [], k => d k
  | (k', v) :: r, k => if k' = k then v else stGet d r k

/-- Places an entry before the first entry of a larger key. -/
def stIns {α : Type} (k : Nat) (v : α) : Store α → Store α
  | [] => [(k, v)]
  | (k', v') :: r => if k < k' then (k, v) :: (k', v') :: r else (k', v') :: stIns k v r

/-- Removes every entry of a key. -/
def stDel {α : Type} (st : Store α) (k : Nat) : Store α := st.filter (fun e => e.1 != k)

/-- Writes a key; writing the default of the key removes its entry. -/
def stSet {α : Type} [DecidableEq α] (d : Nat → α) (st : Store α) (k : Nat) (v : α) : Store α :=
  if v = d k then stDel st k else stIns k v (stDel st k)

/-- Removes every entry whose key lies in `lo ≤ k < lo + n`: those keys read their default again. -/
def stDrop {α : Type} (st : Store α) (lo n : Nat) : Store α :=
  st.filter (fun e => e.1 < lo || lo + n ≤ e.1)

/-- The canonical form of a store: keys strictly rising, no entry at the default of its key. -/
def stWf {α : Type} [DecidableEq α] (d : Nat → α) : Store α → Bool
  | [] => true
  | [(k, v)] => v != d k
  | (k, v) :: (k', v') :: r => v != d k && k < k' && stWf d ((k', v') :: r)

/-- The default of byte memory: an unlisted byte reads zero. -/
def zeroByte : Nat → Byte := fun _ => 0

/-- The canonical form of a byte memory. -/
abbrev memWf (m : Mem) : Bool := stWf zeroByte m

/-- One byte. -/
def memGet (m : Mem) (a : Nat) : Byte := stGet zeroByte m a

/-- Writes one byte. -/
def memSet (m : Mem) (a : Nat) (b : Byte) : Mem := stSet zeroByte m a b

/-- `n` bytes from address `a` up. -/
def memRead (m : Mem) (a : Nat) : Nat → List Byte
  | 0 => []
  | n + 1 => memGet m a :: memRead m (a + 1) n

/-- Writes bytes from address `a` up. -/
def memWrite (m : Mem) (a : Nat) : List Byte → Mem
  | [] => m
  | b :: bs => memWrite (memSet m a b) (a + 1) bs

/-- Zeroes `n` bytes from address `a` up. -/
def memZero (m : Mem) (a n : Nat) : Mem := stDrop m a n

/-- A set of numbers with `k` added. -/
def nsAdd : NatSet → Nat → NatSet
  | [], k => [k]
  | a :: r, k => if k < a then k :: a :: r else if k = a then a :: r else a :: nsAdd r k

/-- A set of numbers with `k` removed. -/
def nsDel (s : NatSet) (k : Nat) : NatSet := s.filter (fun a => a != k)

/-- A set of numbers without those in `lo ≤ k < lo + n`. -/
def nsDrop (s : NatSet) (lo n : Nat) : NatSet := s.filter (fun a => a < lo || lo + n ≤ a)

/-- Adds every `k` in `lo ≤ k < lo + n`. -/
def nsAddRange (s : NatSet) (lo : Nat) : Nat → NatSet
  | 0 => s
  | n + 1 => nsAddRange (nsAdd s (lo + n)) lo n

/-- Membership. -/
def nsHas (s : NatSet) (k : Nat) : Bool := s.contains k

/-- Replaces element `i` of a list. -/
def listPut {α : Type} (l : List α) (i : Nat) (v : α) : List α := l.set i v

/-- Element `i` of a list, or a default. -/
def listAt {α : Type} (l : List α) (i : Nat) (d : α) : α := l.getD i d

/-- The first index whose element satisfies `p`. -/
def findIdx? {α : Type} (p : α → Bool) : List α → Option Nat
  | [] => none
  | a :: r => if p a then some 0 else (findIdx? p r).map (· + 1)

/-- Runs `f` for i = 0 … n - 1 in order. -/
def iter {σ : Type} (n : Nat) (f : Nat → σ → σ) (s : σ) : σ :=
  (List.range n).foldl (fun s i => f i s) s

/-- The sum of a list of numbers. -/
def sumNat (l : List Nat) : Nat := l.foldl (· + ·) 0

/-- Rounding up division. -/
def ceilDiv (a b : Nat) : Nat := (a + b - 1) / b

end Sys2Proof.Machine
end

