-- ==== Sys2Proof/Machine/RegMap.lean ====
section
/-! DEFINITION. The register map: every register of the spec's register tables with its place, its reset value and
its access masks (Table SCP.4), and the decoding of a BAR0 offset of the physical function (Table HOST.4). -/

namespace Sys2Proof.Machine

/-- A row of the register map: first offset, number of copies, distance between copies, reset value, RW bits,
W1C bits, and RWL bits under the partition lock. RO and reserved bits are in no mask. -/
structure RegRow where
  name : String
  off : Nat
  count : Nat
  stride : Nat
  reset : Nat
  rw : Nat
  w1c : Nat
  rwl : Nat
  deriving DecidableEq, Repr

/-- Where a BAR0 offset lies: the owning unit (physical numbers) and the offset in its block. -/
inductive Loc where
  | glb (o : Nat)
  | win (w o : Nat)
  | errLog (h o : Nat)
  | fireLog (o : Nat)
  | thm (o : Nat)
  | snap (o : Nat)
  | sec (o : Nat)
  | tower (n o : Nat)
  | hub (h o : Nat)
  | core (c o : Nat)
  | clu (c o : Nat)
  | nbu (col o : Nat)
  | ctr (k o : Nat)
  | vf (p o : Nat)
  | none
  deriving DecidableEq, Repr

/-- Global identity, start-up, pin, host-port and aperture registers (BAR0 offset 0). -/
def globalRows : List RegRow :=
  [ ⟨"GLB_PART_ID", 0x0, 1, 4, 0xF0164102, 0x0, 0x0, 0x0⟩,
    ⟨"GLB_SERIAL_LO", 0x8, 1, 4, 0x0, 0x0, 0x0, 0x0⟩,
    ⟨"GLB_SERIAL_HI", 0xC, 1, 4, 0x0, 0x0, 0x0, 0x0⟩,
    ⟨"GLB_PKG_PRESENCE", 0x10, 1, 4, 0x0, 0x0, 0x0, 0x0⟩,
    ⟨"GLB_OE_PRESENT", 0x14, 1, 4, 0x0, 0x0, 0x0, 0x0⟩,
    ⟨"GLB_CORE_COUNT", 0x18, 1, 4, 0x0, 0x0, 0x0, 0x0⟩,
    ⟨"GLB_MAP_GEN", 0x1C, 1, 4, 0x0, 0x0, 0x0, 0x0⟩,
    ⟨"GLB_BOOT_STAT", 0x40, 1, 4, 0x0, 0x0, 0x0, 0x0⟩,
    ⟨"GLB_FIRE_HEAD", 0x44, 1, 4, 0x0, 0x0, 0x0, 0x0⟩,
    ⟨"GLB_TESTREC", 0x48, 1, 4, 0x0, 0x40000000, 0x0, 0x0⟩,
    ⟨"GLB_PIN_STAT", 0x50, 1, 4, 0x0, 0x0, 0x0, 0x0⟩,
    ⟨"HP_LINK", 0x100, 1, 4, 0x0, 0x0, 0x0, 0x0⟩,
    ⟨"HP_ACC", 0x104, 1, 4, 0x0, 0x0, 0x0, 0x0⟩,
    ⟨"HP_WIN_STAT", 0x1000, 64, 16, 0x0, 0x0, 0x0, 0x0⟩,
    ⟨"HP_WIN_CTL", 0x1004, 64, 16, 0x0, 0x0, 0x0, 0x0⟩,
    ⟨"HP_WIN_LAST", 0x1008, 64, 16, 0x0, 0x0, 0x0, 0x0⟩,
    ⟨"HP_APER_LO", 0x2000, 256, 8, 0x0, 0xF0000001, 0x0, 0x0⟩,
    ⟨"HP_APER_HI", 0x2004, 256, 8, 0x0, 0xFFFF, 0x0, 0x0⟩,
    ⟨"MSI-X table", 0x8000, 8192, 4, 0x0, 0xFFFFFFFF, 0x0, 0x0⟩,
    ⟨"MSI-X PBA", 0x10000, 64, 4, 0x0, 0x0, 0x0, 0x0⟩ ]

/-- Registers of a tower window. -/
def towerRows : List RegRow :=
  [ ⟨"TWR_ID", 0x0, 1, 4, 0x0, 0x0, 0x0, 0x0⟩,
    ⟨"TWR_EDGE_N", 0x10, 1, 4, 0x0, 0x0, 0x0, 0x0⟩,
    ⟨"TWR_EDGE_E", 0x14, 1, 4, 0x0, 0x0, 0x0, 0x0⟩,
    ⟨"TWR_EDGE_S", 0x18, 1, 4, 0x0, 0x0, 0x0, 0x0⟩,
    ⟨"TWR_EDGE_W", 0x1C, 1, 4, 0x0, 0x0, 0x0, 0x0⟩,
    ⟨"TWR_CLKMON", 0x20, 1, 4, 0x0, 0x0, 0x80, 0x0⟩,
    ⟨"NBU_REF_CTL", 0x100, 1, 4, 0x4, 0x7, 0x0, 0x0⟩,
    ⟨"TWR_BOND_SEL", 0x200, 1, 4, 0x0, 0x3FFFF, 0x0, 0x0⟩,
    ⟨"TWR_BOND_STAT", 0x204, 1, 4, 0x0, 0x0, 0x0, 0x0⟩,
    ⟨"TWR_BRG_SEL", 0x208, 1, 4, 0x0, 0xFE, 0x0, 0x0⟩,
    ⟨"TWR_BRG_STAT", 0x20C, 1, 4, 0x0, 0x0, 0x0, 0x0⟩ ]

/-- Registers of every hub window. -/
def hubRows : List RegRow :=
  [ ⟨"HUB_ID", 0x0, 1, 4, 0x0, 0x0, 0x0, 0x0⟩,
    ⟨"HUB_CLKMON", 0x20, 1, 4, 0x0, 0x0, 0x80, 0x0⟩,
    ⟨"HUB_BRG_SEL", 0x208, 1, 4, 0x0, 0xFE, 0x0, 0x0⟩,
    ⟨"HUB_BRG_STAT", 0x20C, 1, 4, 0x0, 0x0, 0x0, 0x0⟩,
    ⟨"HUB_T2_STAT", 0x10000, 1, 4, 0x3FFFF, 0x0, 0x0, 0x0⟩,
    ⟨"HUB_T2_ERR", 0x10004, 1, 4, 0x0, 0x0, 0x0, 0x0⟩,
    ⟨"HUB_T2P_BASE", 0x10100, 64, 16, 0x0, 0x0, 0x0, 0x0⟩,
    ⟨"HUB_T2P_SIZE", 0x10104, 64, 16, 0x0, 0x0, 0x0, 0x0⟩,
    ⟨"HUB_T2P_FREE", 0x10108, 64, 16, 0x0, 0x0, 0x0, 0x0⟩,
    ⟨"HUB_T2P_MARKS", 0x1010C, 64, 16, 0x0, 0x0, 0x0, 0x0⟩,
    ⟨"FAB_ID", 0x40000, 1, 4, 0x0, 0x0, 0x0, 0x0⟩,
    ⟨"FAB_PARENT", 0x40004, 1, 4, 0x0, 0x0, 0x0, 0x0⟩,
    ⟨"FAB_LOST_SEL", 0x40010, 1, 4, 0x0, 0x3, 0x0, 0x0⟩,
    ⟨"FAB_LOST_LO", 0x40014, 1, 4, 0x0, 0x0, 0x0, 0x0⟩,
    ⟨"FAB_LOST_HI", 0x40018, 1, 4, 0x0, 0x0, 0x0, 0x0⟩,
    ⟨"FAB_COLL_CTL", 0x40020, 1, 4, 0xA, 0xFFFF, 0x0, 0x0⟩,
    ⟨"FAB_COLL_STAT", 0x40024, 1, 4, 0x0, 0x0, 0x0, 0x0⟩,
    ⟨"FAB_PORT_STAT", 0x40100, 4, 16, 0x0, 0x0, 0x0, 0x0⟩,
    ⟨"FAB_PORT_ERR", 0x40104, 4, 16, 0x0, 0x0, 0x0, 0x0⟩,
    ⟨"FAB_OE_ID", 0x40108, 4, 16, 0x0, 0x0, 0x0, 0x0⟩,
    ⟨"HUB_ERR_STAT", 0x50000, 1, 4, 0x0, 0x0, 0x0, 0x0⟩,
    ⟨"HUB_ERR_NEXT", 0x50004, 1, 4, 0x0, 0x0, 0x0, 0x0⟩,
    ⟨"HUB_ERR_LAST", 0x50008, 1, 4, 0x0, 0x0, 0x0, 0x0⟩,
    ⟨"HUB_ERR_CTL", 0x5000C, 1, 4, 0x0, 0xC00007FF, 0x0, 0x0⟩,
    ⟨"MNT_SEL", 0x60000, 1, 4, 0x0, 0x3F, 0x0, 0x0⟩,
    ⟨"MNT_STAT", 0x60004, 1, 4, 0x0, 0x0, 0x0, 0x0⟩,
    ⟨"MNT_PERIOD", 0x60008, 1, 4, 0x0, 0xFFFF, 0x0, 0x0⟩ ]

/-- Registers of hub window H0 only. -/
def hub0Rows : List RegRow :=
  [ ⟨"HUB_GLZ_STATE", 0x20000, 64, 16, 0x0, 0x0, 0x0, 0x0⟩,
    ⟨"HUB_GLZ_CNT_CUR", 0x20004, 64, 16, 0x0, 0x0, 0x0, 0x0⟩,
    ⟨"HUB_GLZ_CNT_PREV", 0x20008, 64, 16, 0x0, 0x0, 0x0, 0x0⟩,
    ⟨"HUB_GLZ_FAIL", 0x2000C, 64, 16, 0x0, 0x0, 0x0, 0x0⟩,
    ⟨"NOC_PART_QT_LO", 0x30000, 64, 32, 0x0, 0x0, 0x0, 0x0⟩,
    ⟨"NOC_PART_QT_HI", 0x30004, 64, 32, 0x0, 0x0, 0x0, 0x0⟩,
    ⟨"NOC_PART_T2B0", 0x30008, 64, 32, 0x0, 0x0, 0x0, 0x0⟩,
    ⟨"NOC_PART_T2L0", 0x3000C, 64, 32, 0x0, 0x0, 0x0, 0x0⟩,
    ⟨"NOC_PART_T2B1", 0x30010, 64, 32, 0x0, 0x0, 0x0, 0x0⟩,
    ⟨"NOC_PART_T2L1", 0x30014, 64, 32, 0x0, 0x0, 0x0, 0x0⟩,
    ⟨"NOC_PART_CTL", 0x30018, 64, 32, 0x0, 0x0, 0x0, 0x0⟩,
    ⟨"NOC_ROUTE_STAT", 0x31000, 1, 4, 0x0, 0x0, 0x0, 0x0⟩,
    ⟨"NOC_ROUTE_XEDGE_LO", 0x31004, 1, 4, 0x0, 0x0, 0x0, 0x0⟩,
    ⟨"NOC_ROUTE_XEDGE_HI", 0x31008, 1, 4, 0x0, 0x0, 0x0, 0x0⟩ ]

/-- Thermal and power region. -/
def thmRows : List RegRow :=
  [ ⟨"THM_FUSE_CEIL", 0x0, 1, 4, 0x0, 0x0, 0x0, 0x0⟩,
    ⟨"THM_PKG_LIMIT", 0x4, 1, 4, 0x1518, 0x1FFF, 0x80000000, 0x0⟩,
    ⟨"THM_PKG_POWER", 0x8, 1, 4, 0x0, 0x0, 0x0, 0x0⟩,
    ⟨"THM_BRAKE", 0xC, 1, 4, 0x0, 0x10, 0x0, 0x0⟩,
    ⟨"THM_RAMP_CTL", 0x10, 1, 4, 0x348, 0x7FF, 0x0, 0x0⟩,
    ⟨"THM_TWR_LIMIT", 0x40, 16, 4, 0x140, 0x1FF, 0x80000000, 0x0⟩,
    ⟨"THM_TWR_STATE", 0x80, 16, 4, 0x0, 0x0, 0x0, 0x0⟩,
    ⟨"THM_TWR_TEMP", 0x100, 16, 4, 0x0, 0x0, 0x0, 0x0⟩,
    ⟨"THM_LAYER_SEL", 0x140, 1, 4, 0x0, 0x7F, 0x0, 0x0⟩,
    ⟨"THM_LAYER_STAT", 0x144, 1, 4, 0x0, 0x0, 0x0, 0x0⟩,
    ⟨"THM_COOL", 0x150, 1, 4, 0x0, 0x0, 0x0, 0x0⟩,
    ⟨"THM_PKG_EFF", 0x154, 1, 4, 0x0, 0x0, 0x0, 0x0⟩,
    ⟨"THM_FLOW", 0x158, 1, 4, 0x0, 0x0, 0x0, 0x0⟩,
    ⟨"THM_FLOW_CFG", 0x15C, 1, 4, 0x0, 0x8000FFFF, 0x0, 0x0⟩,
    ⟨"THM_RTH", 0x180, 16, 4, 0x0, 0x0, 0x0, 0x0⟩,
    ⟨"THM_EVENT", 0x1C0, 1, 4, 0x0, 0x0, 0x7F, 0x0⟩,
    ⟨"THM_KILN_LAST", 0x1C4, 1, 4, 0x0, 0x0, 0x80000000, 0x0⟩,
    ⟨"THM_CONE_SEL", 0x1D0, 1, 4, 0x0, 0x3F, 0x0, 0x0⟩,
    ⟨"THM_CONE_CNT", 0x1D4, 1, 4, 0x0, 0x0, 0x0, 0x0⟩,
    ⟨"THM_CONE_LIFE", 0x1D8, 1, 4, 0x0, 0x0, 0x0, 0x0⟩ ]

/-- Security mailbox. -/
def secRows : List RegRow :=
  [ ⟨"SEC_LC", 0x0, 1, 4, 0x0, 0x0, 0x0, 0x0⟩,
    ⟨"SEC_TAMPER", 0x4, 1, 4, 0x0, 0x0, 0x0, 0x0⟩,
    ⟨"SEC_FW_SVN", 0x8, 1, 4, 0x0, 0x0, 0x0, 0x0⟩,
    ⟨"SEC_AUTH_NONCE", 0x10, 8, 4, 0x0, 0x0, 0x0, 0x0⟩,
    ⟨"SEC_TDI", 0x100, 64, 4, 0x0, 0x0, 0x0, 0x0⟩ ]

/-- Snapshot and telemetry control registers. -/
def snapRows : List RegRow :=
  [ ⟨"CNT_SNAP_CTL", 0x0, 1, 4, 0x0, 0x0, 0x0, 0x0⟩,
    ⟨"CNT_SNAP_STAT", 0x4, 1, 4, 0x0, 0x0, 0x0, 0x0⟩,
    ⟨"CNT_SNAP_T_LO", 0x8, 1, 4, 0x0, 0x0, 0x0, 0x0⟩,
    ⟨"CNT_SNAP_T_HI", 0xC, 1, 4, 0x0, 0x0, 0x0, 0x0⟩,
    ⟨"CNT_TELEM_HEAD", 0x10, 1, 4, 0x0, 0xFFFFFFFF, 0x0, 0x0⟩,
    ⟨"CNT_TELEM_STAT", 0x14, 1, 4, 0x0, 0x0, 0x0, 0x0⟩ ]

/-- Core block of R52. -/
def coreRows : List RegRow :=
  [ ⟨"COR_CTRL", 0x0, 1, 4, 0x1, 0x2, 0x80, 0x0⟩,
    ⟨"COR_SLOTMAP_WSP", 0x10, 1, 4, 0x0, 0xFFFFFFFF, 0x0, 0x0⟩,
    ⟨"COR_SLOTMAP_ASP", 0x14, 1, 4, 0x0, 0xFFFFFFFF, 0x0, 0x0⟩,
    ⟨"COR_SLOTMAP_PSP", 0x18, 1, 4, 0x0, 0xFFFFFFFF, 0x0, 0x0⟩,
    ⟨"COR_PWR_PROFILE", 0x20, 1, 4, 0x0, 0xFFF, 0x0, 0x0⟩,
    ⟨"COR_SP_ERR", 0x30, 1, 4, 0x0, 0x0, 0x0, 0x0⟩,
    ⟨"COR_SP_LAST", 0x34, 1, 4, 0x0, 0x0, 0x80000000, 0x0⟩,
    ⟨"COR_UNI_REGION", 0x40, 8, 4, 0x0, 0xE3FFFFFF, 0x0, 0x0⟩,
    ⟨"COR_MXE_STAT", 0x100, 1, 4, 0x0, 0x0, 0x0, 0x0⟩,
    ⟨"COR_MXE_ADV", 0x104, 1, 4, 0x0, 0x0, 0x0, 0x0⟩,
    ⟨"COR_MXE_FRZ_PWR", 0x108, 1, 4, 0x0, 0x0, 0x0, 0x0⟩,
    ⟨"COR_MXE_FRZ_DRN", 0x10C, 1, 4, 0x0, 0x0, 0x0, 0x0⟩,
    ⟨"COR_MXE_FRZ_WGT", 0x110, 1, 4, 0x0, 0x0, 0x0, 0x0⟩,
    ⟨"COR_MXE_FRZ_FEED", 0x114, 1, 4, 0x0, 0x0, 0x0, 0x0⟩,
    ⟨"COR_MXE_NUM", 0x118, 1, 4, 0x0, 0x0, 0x0, 0x0⟩,
    ⟨"COR_SEQ_CTL", 0x200, 1, 4, 0x0, 0x7FFC, 0x0, 0x0⟩,
    ⟨"COR_SEQ_STAT", 0x204, 1, 4, 0x0, 0x0, 0x80000000, 0x0⟩,
    ⟨"COR_TRAP_VEC", 0x208, 1, 4, 0x0, 0x80001FFF, 0x0, 0x0⟩,
    ⟨"COR_WAIT_LIMIT", 0x20C, 1, 4, 0x0, 0xFFFFFFFF, 0x0, 0x0⟩,
    ⟨"COR_GBAR_MEMBER", 0x210, 1, 4, 0x0, 0xFFFF, 0x0, 0x0⟩,
    ⟨"COR_TRAP_REC", 0x220, 8, 4, 0x0, 0x0, 0x80000000, 0x0⟩,
    ⟨"COR_TICKET", 0x244, 15, 4, 0x0, 0xFFFF, 0x0, 0x0⟩,
    ⟨"COR_MOV_CH", 0x280, 8, 4, 0x0, 0x0, 0x8000, 0x0⟩,
    ⟨"COR_LOAD_SRC", 0x2A0, 1, 4, 0x0, 0xFFFFFFF, 0x0, 0x0⟩,
    ⟨"COR_LOAD_CTL", 0x2A4, 1, 4, 0x0, 0x23FF03FF, 0x0, 0x0⟩,
    ⟨"COR_VXE_NUM", 0x300, 1, 4, 0x0, 0x0, 0x0, 0x0⟩,
    ⟨"COR_MOV_NUM", 0x304, 1, 4, 0x0, 0x0, 0x0, 0x0⟩,
    ⟨"COR_XREG", 0x404, 31, 4, 0x0, 0xFFFFFFFF, 0x0, 0x0⟩ ]

/-- Cluster block of R52. -/
def cluRows : List RegRow :=
  [ ⟨"CLU_SRAM_STAT", 0x0, 1, 4, 0x0, 0x0, 0x0, 0x0⟩,
    ⟨"CLU_SRAM_ERR", 0x4, 1, 4, 0x0, 0x0, 0x0, 0x0⟩,
    ⟨"KVD_AREA", 0x100, 1, 4, 0x0, 0x0, 0x0, 0x0⟩,
    ⟨"KVD_CFG", 0x104, 1, 4, 0x0, 0x0, 0x0, 0x0⟩,
    ⟨"KVD_GEN", 0x108, 1, 4, 0x0, 0x0, 0x0, 0x0⟩,
    ⟨"KVD_GSTAT", 0x10C, 1, 4, 0x0, 0x0, 0x0, 0x0⟩,
    ⟨"KVD_POOL", 0x110, 1, 4, 0x0, 0x0, 0x0, 0x0⟩,
    ⟨"KVD_ZERO", 0x114, 1, 4, 0x0, 0x0, 0x0, 0x0⟩,
    ⟨"KVD_POLICY", 0x118, 1, 4, 0x0, 0x0, 0x0, 0x0⟩,
    ⟨"KVD_PRESS", 0x11C, 1, 4, 0x0, 0x0, 0x0, 0x0⟩,
    ⟨"KVD_STAT", 0x120, 1, 4, 0x0, 0x0, 0x0, 0x0⟩,
    ⟨"KVD_ITEMS", 0x124, 1, 4, 0x0, 0x0, 0x0, 0x0⟩,
    ⟨"KVD_ATT_AREA", 0x140, 1, 4, 0x0, 0x0, 0x0, 0x0⟩,
    ⟨"KVD_ATT_CFG", 0x144, 1, 4, 0x0, 0x0, 0x0, 0x0⟩,
    ⟨"KVD_ATT_QBUF", 0x148, 1, 4, 0x0, 0x0, 0x0, 0x0⟩,
    ⟨"KVD_ATT_STAT", 0x14C, 1, 4, 0x0, 0x0, 0x0, 0x0⟩,
    ⟨"NOC_CORE_OT", 0x200, 17, 4, 0x1200800, 0x0, 0x0, 0x3FFFF00⟩,
    ⟨"NOC_CLU_POOL", 0x250, 1, 4, 0x0, 0x0, 0x0, 0x0⟩,
    ⟨"NOC_CLU_STAT", 0x254, 1, 4, 0x0, 0x0, 0x0, 0x0⟩,
    ⟨"NOC_BND_LAST", 0x258, 1, 4, 0x0, 0x0, 0x80000000, 0x0⟩,
    ⟨"FAB_STRM_RING", 0x300, 4, 16, 0x0, 0x0, 0x0, 0xFFC0FFFF⟩,
    ⟨"FAB_STRM_DST", 0x304, 4, 16, 0x0, 0x0, 0x0, 0xFFFFFFF⟩,
    ⟨"FAB_STRM_WAKE", 0x308, 4, 16, 0x0, 0x0, 0x0, 0x1FF⟩,
    ⟨"FAB_STRM_STAT", 0x30C, 4, 16, 0x0, 0x0, 0x80000000, 0x0⟩ ]

/-- NBU block of a column. -/
def nbuRows : List RegRow :=
  [ ⟨"NBU_STAT", 0x0, 1, 4, 0x0, 0x0, 0x0, 0x0⟩,
    ⟨"NBU_EVT", 0x4, 1, 4, 0x0, 0x0, 0x0, 0x0⟩,
    ⟨"NBU_REF_STALL", 0x8, 1, 4, 0x0, 0x0, 0x0, 0x0⟩,
    ⟨"NBU_COL_WH", 0xC, 1, 4, 0x0, 0x0, 0x0, 0x0⟩,
    ⟨"NBU_ECC", 0x10, 1, 4, 0x0, 0x0, 0x0, 0x0⟩,
    ⟨"NBU_ECC_LAST", 0x14, 1, 4, 0x0, 0x0, 0x80000000, 0x0⟩,
    ⟨"NBU_REF_STAT", 0x18, 1, 4, 0x0, 0x0, 0x0, 0x0⟩,
    ⟨"NBU_FTAG_SEL", 0x20, 1, 4, 0x0, 0x1FFF, 0x0, 0x0⟩,
    ⟨"NBU_FTAG_LO", 0x24, 1, 4, 0x0, 0x0, 0x0, 0x0⟩,
    ⟨"NBU_FTAG_HI", 0x28, 1, 4, 0x0, 0x0, 0x0, 0x0⟩,
    ⟨"NBU_CHAIN_LIMIT", 0x2C, 1, 4, 0x0, 0xFFFFFFFF, 0x0, 0x0⟩ ]

/-- BAR0 of a virtual function (Table HOST.5): the window status pair, HP_PART_STAT, the MSI-X table and PBA. -/
def vfRows : List RegRow :=
  [ ⟨"HP_WIN_STAT", 0x10000, 1, 4, 0x0, 0x0, 0x0, 0x0⟩,
    ⟨"HP_WIN_CTL", 0x10004, 1, 4, 0x0, 0x0, 0x0, 0x0⟩,
    ⟨"HP_WIN_LAST", 0x10008, 1, 4, 0x0, 0x0, 0x0, 0x0⟩,
    ⟨"HP_PART_STAT", 0x10010, 1, 4, 0x0, 0x0, 0x0, 0x0⟩,
    ⟨"MSI-X table", 0x1E000, 128, 4, 0x0, 0xFFFFFFFF, 0x0, 0x0⟩,
    ⟨"MSI-X PBA", 0x1F000, 2, 4, 0x0, 0x0, 0x0, 0x0⟩ ]

/-- The row of a table that holds offset `o`. -/
def findRow (rows : List RegRow) (o : Nat) : Option RegRow :=
  rows.find? (fun r => r.off ≤ o && (o - r.off) % r.stride == 0 && (o - r.off) / r.stride < r.count)

/-- BAR0 base of a tower window (R23). -/
def towerBase (n : Nat) : Nat := 0x1000000 + n * 0x800000

/-- BAR0 base of a hub window (R23). -/
def hubBase (h : Nat) : Nat := 0x9000000 + h * 0x400000

/-- BAR0 base of the block of physical core `c` = 17 · (16 n + C) + K (R52). -/
def coreBase (c : Nat) : Nat :=
  towerBase (c / 272) + 0x100000 + (32 * (c / 17 % 16) + c % 17) * 0x800

/-- BAR0 base of the block of physical cluster 16 n + C (R52). -/
def cluBase (c : Nat) : Nat := towerBase (c / 16) + 0x300000 + (c % 16) * 0x1000

/-- BAR0 base of the NBU block of bank column 2 · core + (0 for A, 1 for B). -/
def nbuBase (col : Nat) : Nat := coreBase (col / 2) + 0x600 + (col % 2) * 0x100

def thmBase : Nat := 0x600000
def secBase : Nat := 0x800000
def snapBase : Nat := 0x700000

/-- Decodes an offset within a core block of 0x800 bytes: counters at 0x500, the NBU blocks at 0x600 and 0x700. -/
def locCore (c o : Nat) : Loc :=
  if o < 0x500 then .core c o
  else if o < 0x600 then .ctr (8 * c + (o - 0x500) / 32) (o % 32)
  else .nbu (2 * c + (o - 0x600) / 0x100) (o % 0x100)

/-- Decodes an offset within a cluster block: counters at 0x400 to 0x5FF. -/
def locClu (c o : Nat) : Loc :=
  if 0x400 ≤ o && o < 0x600 then .ctr (34816 + 16 * c + (o - 0x400) / 32) (o % 32) else .clu c o

/-- Decodes a BAR0 offset of the physical function (Table HOST.4, R52, Table CNT.1). -/
def locate (off : Nat) : Loc :=
  if off < 0x100000 then .glb off
  else if off < 0x500000 then .win ((off - 0x100000) / 0x10000) (off % 0x10000)
  else if off < 0x510000 then .errLog ((off - 0x500000) / 0x4000) (off % 0x4000)
  else if off < 0x580000 then .none
  else if off < 0x600000 then .fireLog (off - 0x580000)
  else if off < 0x700000 then .thm (off - 0x600000)
  else if off < 0x800000 then .snap (off - 0x700000)
  else if off < 0x1000000 then .sec (off - 0x800000)
  else if off < 0x9000000 then
    let n := (off - 0x1000000) / 0x800000
    let o := off % 0x800000
    if o < 0x100000 then .tower n o
    else if o < 0x200000 then
      let b := (o - 0x100000) / 0x800
      if b % 32 < 17 then locCore (17 * (16 * n + b / 32) + b % 32) (o % 0x800) else .none
    else if 0x300000 ≤ o && o < 0x310000 then locClu (16 * n + (o - 0x300000) / 0x1000) (o % 0x1000)
    else .none
  else if off < 0xA000000 then
    let h := (off - 0x9000000) / 0x400000
    let o := off % 0x400000
    if 0x70000 ≤ o && o < 0x70400 then .ctr (38912 + 32 * h + (o - 0x70000) / 32) (o % 32) else .hub h o
  else if 0x10000000 ≤ off && off < 0x10800000 then
    .vf ((off - 0x10000000) / 0x20000) (off % 0x20000)
  else .none

/-- The model's key of offset `o` in BAR0 of virtual function `p`: it stands above the 256 MiB of the physical
function's BAR0. -/
def vfKey (p o : Nat) : Nat := 0x10000000 + p * 0x20000 + o

/-- The map row of a register. -/
def regRow (off : Nat) : Option RegRow :=
  match locate off with
  | .glb o => findRow globalRows o
  | .thm o => findRow thmRows o
  | .snap o => findRow snapRows o
  | .sec o => findRow secRows o
  | .tower _ o => findRow towerRows o
  | .hub h o => (findRow hubRows o).orElse (fun _ => if h = 0 then findRow hub0Rows o else none)
  | .core _ o => findRow coreRows o
  | .clu _ o => findRow cluRows o
  | .nbu _ o => findRow nbuRows o
  | .vf _ o => findRow vfRows o
  | _ => none

/-- What an edge of a tower faces (Table PKG.5), edges N, E, S, W as 0 to 3: whether it is a hub, and its number. -/
def twPeer (n e : Nat) : Bool × Nat :=
  if e = 0 then (if n < 4 then (true, 0) else (false, n - 4))
  else if e = 1 then (if n % 4 = 3 then (true, 1) else (false, n + 1))
  else if e = 2 then (if 12 ≤ n then (true, 2) else (false, n + 4))
  else (if n % 4 = 0 then (true, 3) else (false, n - 1))

/-- Reset words of identity registers that differ from unit to unit (Tables PKG.13 to PKG.15). -/
def unitReset (off : Nat) : Option Nat :=
  match locate off with
  | .tower n o =>
    let facing (h : Nat) : Nat := if (List.range 4).any (fun e => twPeer n e == (true, h)) then 2 ^ (9 + h) else 0
    if o = 0 then some (n * 2 ^ 24 + n / 4 * 2 ^ 22 + n % 4 * 2 ^ 20 + facing 0 + facing 1 + facing 2 + facing 3)
    else if o = 0x10 || o = 0x14 || o = 0x18 || o = 0x1C then
      let q := twPeer n ((o - 0x10) / 4)
      some ((if q.1 then 2 ^ 30 else 0) + q.2 * 2 ^ 26)
    else none
  | .hub h o => if o = 0 then ([0x00270020, 0x08C80001, 0xE4000002, 0x13100003])[h]? else none
  | _ => none

/-- The value a register holds when the reset of its die is released (R9). An MSI-X vector control word
holds its mask bit, as the PCIe standard that governs the table has it. PRESUMED (log entry 7). -/
def regReset (off : Nat) : Word :=
  if off % 16 = 12 && ((0x8000 ≤ off && off < 0x10000) ||
      (0x10000000 ≤ off && 0x1E000 ≤ off % 0x20000 && off % 0x20000 < 0x1E200)) then 1
  else
    match unitReset off with
    | some v => BitVec.ofNat 32 v
    | none =>
      match regRow off with
      | some r => BitVec.ofNat 32 r.reset
      | none => 0

end Sys2Proof.Machine
end

