-- ==== Sys2Proof/Machine/State.lean ====
section
/-! DEFINITION. The block's state as plain data, the reasons a step can stop, and the state right after reset. -/

namespace Sys2Proof.Machine

/-- Why a step can stop with a fault. -/
inductive Fault where
  /-- Raised by the meanings of bank and memory accesses when a command names an offset beyond the memory it names.
  Safe: the hardware has no such address, so no access happens. -/
  | noSuchAddress
  deriving DecidableEq, Repr

/-- Why a step can refuse. -/
inductive Refusal where
  /-- A command the model gives no meaning. Safe: nothing is claimed about it. -/
  | notModelled (mnemonic : String)
  deriving DecidableEq, Repr

/-! ## A core (chapters 03 to 05) -/

/-- A weight tile in a weight register (R82, R90): raw cells per row and column, scale bytes, row poison marks. -/
structure Tile where
  fmt : Nat
  rows : Nat
  cols : Nat
  cells : List (List Nat)
  scales : List (List Nat)
  marks : List Bool
  deriving DecidableEq, Repr

/-- A command in the MXE queue (R101, R103). `refused` is 0 or the trap cause of Table MXE.9. -/
structure MxeCmd where
  w0 : Nat
  w1 : Nat
  pc : Nat
  started : Bool
  promoted : Bool
  performed : Bool
  finished : Bool
  poison : Bool
  refused : Nat
  waitDrn : Bool
  waitWgt : Bool
  deriving DecidableEq, Repr

/-- The matrix engine (R82, R97, R100): entry key (half · 128 + row) · 64 + column, row key half · 128 + row.
A tag is 0 untyped zero, 1 FP32, 2 INT32. `feed` holds blocks that the loader and the feeder have read and not yet used: the
feeder's prefetch buffer of Table MXE.1 and the loader's part of a tile. -/
structure MxeSt where
  active : Option Tile
  shadow : Option Tile
  shadowFull : Bool
  acc : Store Word
  tags : Store Nat
  marks : NatSet
  queue : List MxeCmd
  lastOp : Nat
  feed : List (Nat × Option (List Byte))
  deriving DecidableEq, Repr

/-- A command in the VXE queue. -/
structure VxeCmd where
  w0 : Nat
  w1 : Nat
  pc : Nat
  performed : Bool
  poison : Bool
  refused : Nat
  deriving DecidableEq, Repr

/-- The vector engine (R120, R128): register key v · 64 + lane. -/
structure VxeSt where
  v : Store Word
  marks : NatSet
  queue : List VxeCmd
  deriving DecidableEq, Repr

/-- A MOV descriptor (Table TILE.12). -/
structure MovDesc where
  w0 : Nat
  w1 : Nat
  w2 : Nat
  w3 : Nat
  pc : Nat
  deriving DecidableEq, Repr

/-- A MOV channel (R129, R135). `moved` says that the started descriptor has issued every write. -/
structure MovCh where
  queue : List MovDesc
  active : Option MovDesc
  moved : Bool
  status : Nat
  halted : Bool
  deriving DecidableEq, Repr

/-- A trap waiting to be taken (R140); sources are numbered as Table TILE.22 numbers them. -/
structure HeldTrap where
  src : Nat
  cause : Nat
  pc : Nat
  word : Nat
  detail : Nat
  detailHi : Nat
  deriving DecidableEq, Repr

/-- The sequencer (R109). `wait` is coded as COR_SEQ_STAT.WAIT; `stop` is 0 none, 1 HALT, 2 HALT_REQ, 3 abort;
`report` is the core's completion: 0 none, 1 halted, 2 aborted. A PC of 8 192 is sequential fetch past the end. -/
structure SeqSt where
  run : Bool
  pc : Nat
  ad : List (BitVec 48)
  epc : Nat
  inTrap : Bool
  curSrc : Nat
  busyFlag : Bool
  wait : Nat
  held : List HeldTrap
  stop : Nat
  report : Nat
  startPend : Bool
  loopBuf : List Nat
  deriving DecidableEq, Repr

/-- A narrow write waiting for its write-back (R61): the merged block, or stored poison. -/
structure Merge where
  blk : Nat
  data : List Byte
  poison : Bool
  deriving DecidableEq, Repr

/-- One physical core site. -/
structure CoreSt where
  halted : Bool
  unified : Bool
  mapErr : Bool
  ctlErr : Bool
  powering : List Nat
  loadBusy : Bool
  merges : List Merge
  seq : SeqSt
  mxe : MxeSt
  vxe : VxeSt
  mov : List MovCh
  deriving DecidableEq, Repr

/-- A kind-0x6 write on its way to its destination core (R134), with the nodes of its path out and back (R273) and whether it
travels on escape channels. -/
structure RemoteWr where
  src : Nat
  ch : Nat
  dst : Nat
  mem : Nat
  off : Nat
  data : List Byte
  path : List Nat
  esc : Bool
  deriving DecidableEq, Repr

/-- A refusal on its way back to the sender (R134). -/
structure RemoteRef where
  src : Nat
  ch : Nat
  status : Nat
  deriving DecidableEq, Repr

def SeqSt.reset : SeqSt :=
  { run := false, pc := 0, ad := List.replicate 8 0, epc := 0, inTrap := false, curSrc := 0, busyFlag := false,
    wait := 0, held := [], stop := 0, report := 0, startPend := false, loopBuf := [] }

def MxeSt.reset : MxeSt :=
  { active := none, shadow := none, shadowFull := false, acc := [], tags := [], marks := [], queue := [], lastOp := 0, feed := [] }

def VxeSt.reset : VxeSt := { v := [], marks := [], queue := [] }

def MovCh.reset : MovCh := { queue := [], active := none, moved := false, status := 0, halted := false }

def CoreSt.reset : CoreSt :=
  { halted := true, unified := false, mapErr := false, ctlErr := false, powering := [], loadBusy := false,
    merges := [], seq := SeqSt.reset, mxe := MxeSt.reset, vxe := VxeSt.reset,
    mov := List.replicate 8 MovCh.reset }

/-! ## Cluster shared SRAM (chapter 03) -/

/-- An atomic waiting in a bank's queue of two (R78). -/
structure QAtomic where
  clu : Nat
  bank : Nat
  port : Nat
  off : Nat
  op : AtomicOp
  arg : Nat
  deriving DecidableEq, Repr

/-- What a bank port last returned to its requester (R77 to R80). -/
structure PortResp where
  busy : Bool
  poison : Bool
  data : List Byte
  deriving DecidableEq, Repr

def PortResp.reset : PortResp := { busy := false, poison := false, data := [] }

/-- An NBU command in its queue of four (R164). `alone` says that its chain wait has ended (R173); `outcome` is 0 or the
trap cause it raises at retirement; `refused` is 0 or the trap cause of its refusal. -/
structure NbuCmd where
  w0 : Nat
  w1 : Nat
  pc : Nat
  started : Bool
  performed : Bool
  alone : Bool
  outcome : Nat
  refused : Nat
  deriving DecidableEq, Repr

/-! ## Errors, counters (chapters 15 and 17) -/

/-- An error record (Table RAS.4). -/
structure ErrRec where
  seq : Nat
  cls : Nat
  st : Nat
  part : Nat
  pvalid : Bool
  code : Nat
  time : Nat
  last : Nat
  source : Nat
  engine : Nat
  logical : Nat
  addr : Nat
  rep : Nat
  detail : Nat
  deriving DecidableEq, Repr

/-- A performance counter (R440, Table CNT.2). -/
structure Ctr where
  val : Nat
  ovf : Bool
  owner : Bool
  evt : Nat
  filt : Nat
  master : Nat
  abase : Nat
  alim : Nat
  hiLatch : Nat
  deriving DecidableEq, Repr

def Ctr.reset : Ctr :=
  { val := 0, ovf := false, owner := false, evt := 0, filt := 0, master := 0, abase := 0, alim := 0, hiLatch := 0 }

/-! ## A bank column and its NBU (chapter 06) -/

/-- One state record (R171): softmax maximum, sum, flags, query index and accumulator, FP32 codes. -/
structure StRec where
  m : Nat
  l : Nat
  flags : Nat
  q : Nat
  acc : List Nat
  deriving DecidableEq, Repr

/-- A query bank in flight on the chain: per query 128 BF16 codes, or none where it carries a poison mark. -/
abbrev QBank := List (Option (List Nat))

/-- A near-bank unit (Table SLICE.7): query key (bank · 32 + q) · 128 + d, state key bank · 32 + q. An unlisted state
entry is empty: m = −∞, l = 0, acc = 0, no flags. `pin` lists the pinned rows (R169). -/
structure NbuSt where
  q : Store (BitVec 16)
  qMark : NatSet
  qValid : NatSet
  m : Store Word
  l : Store Word
  flags : Store Nat
  acc : Store Word
  queue : List NbuCmd
  lastOp : Nat
  pin : NatSet
  chainQ : List QBank
  chainR : List (List StRec)
  deriving DecidableEq, Repr

/-- A request waiting for a row transfer (R153): its transaction, row (frame · 16 + frame row), how often it was passed, whether a
withheld slot was counted, its direction, and its requester: 0 MOV, 1 load path, 2 NBU, 3 network, 4 maintenance. -/
structure RowReq where
  id : Nat
  row : Nat
  passed : Nat
  counted : Bool
  write : Bool
  who : Nat
  deriving DecidableEq, Repr

def RowReq.none : RowReq := { id := 0, row := 0, passed := 0, counted := false, write := false, who := 0 }

/-- A row read in flight: the row's code words as they stood at the issue, and the blocks that a write-combining entry forwarded. -/
structure RowRead where
  id : Nat
  row : Nat
  data : List Byte
  chk : List Byte
  fwd : List Nat
  deriving DecidableEq, Repr

/-- A delivered row: each block, or none for poison. -/
structure RowOut where
  id : Nat
  row : Nat
  blocks : List (Option (List Byte))
  deriving DecidableEq, Repr

/-- A write-combining entry (R152): a row and its accepted blocks; `tally` says that its row write is not counted yet. -/
structure WcEntry where
  row : Nat
  blocks : List (Nat × List Byte)
  counted : Bool
  tally : Bool
  deriving DecidableEq, Repr

/-- A bank column. `state` is 0 in service, 1 at-risk, 2 retired (Table BOOT.12); `corr` lists, per lane group · 8 +
octet, the rows in which a symbol was corrected, with the time (R159). `forced` says that a preempting refresh sequence
runs (R161); `migrated` that every page of an at-risk column has moved (R369); `phaseOut` the layers whose phase trains (R31); `atmGap` the rows of
NBU commands since its last atomic, up to 64 (R283); `mntGap` the row transfers
issued since the last maintenance row, and `mntWait` the rows that a waiting maintenance step needs, 0 for none (R153). -/
structure ColSt where
  queue : List RowReq
  inFlight : List RowRead
  outRows : List RowOut
  wc : List WcEntry
  owed : Nat
  forced : Bool
  rate : Nat
  state : Nat
  retraining : Bool
  corr : Store (List (Nat × Nat))
  suspect : NatSet
  migrated : Bool
  phaseOut : NatSet
  atmGap : Nat
  mntGap : Nat
  mntWait : Nat
  nbu : NbuSt
  deriving DecidableEq, Repr

def NbuSt.reset : NbuSt :=
  { q := [], qMark := [], qValid := [], m := [], l := [], flags := [], acc := [], queue := [], lastOp := 0,
    pin := [], chainQ := [], chainR := [] }

def ColSt.reset : ColSt :=
  { queue := [], inFlight := [], outRows := [], wc := [], owed := 0, forced := false, rate := 0,
    state := 0, retraining := false, corr := [], suspect := [], migrated := false, phaseOut := [], atmGap := 0, mntGap := 0, mntWait := 0,
    nbu := NbuSt.reset }

/-- A telemetry record waiting for the ring (R450): type, device time, bytes 16 to 63. -/
structure TelRec where
  ty : Nat
  time : Nat
  body : List Byte
  deriving DecidableEq, Repr

/-- The telemetry ring (R449, R450): host address, record count N, period in ms, vector; and by partition the time of the last
message of a partition event, plus 1, with the partitions whose next message waits (R451); likewise for summaries (R449). -/
structure Telem where
  on : Bool
  ring : Nat
  n : Nat
  period : Nat
  vec : Nat
  tail : Nat
  head : Nat
  hold : List TelRec
  drop : Nat
  wdrop : Nat
  steps : Nat
  evAt : Store Nat
  evDue : NatSet
  sumAt : Nat
  sumDue : Bool
  deriving DecidableEq, Repr

def Telem.reset : Telem :=
  { on := false, ring := 0, n := 0, period := 0, vec := 0, tail := 0, head := 0, hold := [], drop := 0, wdrop := 0,
    steps := 0, evAt := [], evDue := [], sumAt := 0, sumDue := false }

/-- The log and unit state of a hub (chapters 09, 12, 15). `log` is slot and record, slots rising. `kept` says that an
absent hub's packages hold their contents in self-refresh, `pkts` which HUB_RESET packets wait for it. `noteAt` is the time of the last
message about the log, plus 1, and `noteDue` says that a further one waits (R409). -/
structure HubSt where
  lost : Bool
  kept : Bool
  pkts : List Nat
  log : List (Nat × ErrRec)
  nextSeq : Nat
  lastSlot : Option Nat
  dropped : Nat
  overwritten : Nat
  noteAt : Nat
  noteDue : Bool
  deriving DecidableEq, Repr

def HubSt.reset : HubSt :=
  { lost := false, kept := false, pkts := [], log := [], nextSeq := 0, lastSlot := none, dropped := 0, overwritten := 0,
    noteAt := 0, noteDue := false }

/-- A message the device sends to the host, in order: a posted memory write, or an MSI-X message of a function
(0 the physical function, p + 1 virtual function p) and vector, a read request, the completion of a host read (0 successful,
1 Unsupported Request, 2 Completer Abort, 3 no link), the answer to a configuration request (0 successful, 1 Request Retry
Status), an answer on SMBus, an SPDM or TDISP response of the DOE mailbox by its code, or an ERR_COR message of the physical
function. `ide` says that the message travels in an IDE stream, by its identifier (R306, R423). -/
inductive HostOut where
  | write (addr : Nat) (data : List Byte)
  | msix (fn vec : Nat)
  | read (tag addr len : Nat)
  | cpl (status : Nat) (ep : Bool) (data : List Byte)
  | cfg (status data : Nat)
  | smb (ack : Bool) (data : List Byte)
  | doe (code : Nat) (data : List Byte)
  | errCor
  | ide (stream : Nat) (m : HostOut)
  deriving DecidableEq, Repr

/-- The logical map (R4, R356): physical tower, cluster and core site to logical number plus 1; 0 unmapped. -/
structure LogMap where
  tw : Store Nat
  cl : Store Nat
  core : Store Nat
  deriving DecidableEq, Repr

/-! ## Command windows (chapter 11) -/

/-- An accepted packet that has not completed (R303): `id` is its place in the device's order of acceptance, `bytes` its
header and payload. `silent` says that a reset of its function lets it finish without a reply (R290). -/
structure Pkt where
  id : Nat
  win : Nat
  bytes : List Byte
  started : Bool
  silent : Bool
  deriving DecidableEq, Repr

/-- A command window (R299): windows 0 to 63 are the physical function's, 64 + p is virtual function p's. -/
structure WinSt where
  head : Nat
  stalled : Bool
  queue : List Pkt
  deriving DecidableEq, Repr

def WinSt.reset : WinSt := { head := 0, stalled := false, queue := [] }

/-- What a device read of host memory is for. -/
inductive ReadUse where
  | dmaIn (pkt dpa : Nat)
  | lenTab (part off : Nat)
  | swapImg (part job off : Nat)
  | swapRec (part job : Nat)
  | rekeyImg (part off : Nat)
  | rekeyRec (part : Nat)
  deriving DecidableEq, Repr

/-- An outstanding device read of host memory. -/
structure HostRead where
  tag : Nat
  addr : Nat
  len : Nat
  use : ReadUse
  deriving DecidableEq, Repr

/-- A DMA_IN that runs: how many of its reads are outstanding, and its first refusal with its byte offset. -/
structure DmaSt where
  pkt : Nat
  left : Nat
  bad : Option (Nat × Nat)
  deriving DecidableEq, Repr

/-! ## Directories, steps, swap (chapters 07 to 09) -/

/-- An entry that a generation drops: its page ID, its epoch and whether the page is a BF16 pair. -/
structure Drop where
  clu : Nat
  page : Nat
  epoch : Nat
  pair : Bool
  deriving DecidableEq, Repr

/-- A generation under construction (R196): per cluster · 65 536 + block, the blocks made for it and the blocks it
supersedes; per cluster · 2²⁰ + sequence index, the descriptor pointers it changes; what it drops (R194); and per
layer-head, STRICT · 16 + EXPFMT + 1 where it changes them. -/
structure GenSt where
  made : NatSet
  old : NatSet
  ptrs : Store Nat
  drops : List Drop
  heads : Store Nat
  deriving DecidableEq, Repr

def GenSt.empty : GenSt := { made := [], old := [], ptrs := [], drops := [], heads := [] }

/-- A partition's directory (R184 to R198): `g1` is the generation G + 1 under construction, `g2` is G + 2. The commit
packets are those that wait for the switch. `auto` says that the device commits the generation under construction as soon as no COMMIT
is pending (R249), `first` that a launch held for the current generation starts before the next switch (R197). `rot` and `t2rot` are
the allocation pointers of the shards (R191, R246). -/
structure DirSt where
  base : Nat
  limit : Nat
  kvFirst : Nat
  nlh : Nat
  seqBase : Nat
  maxSeq : Nat
  gen : Nat
  g1 : GenSt
  g2 : GenSt
  pend : Bool
  queued : Bool
  pkt1 : Option Nat
  pkt2 : Option Nat
  auto : Bool
  first : Bool
  rot : Store Nat
  t2rot : Store Nat
  layers : List Nat
  deriving DecidableEq, Repr

/-- A registered attention area (R214): `qcols` are the columns that hold the query buffers. By cluster · 32 + stop, `itemPos` is the
next item position in a stop's item ring and `inRing` where the items of the segments in its segment ring lie, oldest first (R216). -/
structure AttSt where
  base : Nat
  limit : Nat
  seglog : Nat
  itemblk : Nat
  qph : Nat
  qslots : Nat
  appblk : Nat
  qframe : Nat
  qcols : List Nat
  itemPos : Store Nat
  inRing : Store (List Nat)
  deriving DecidableEq, Repr

/-- A host swap area and the glaze state of a partition (R252, R254). -/
structure GlzSt where
  area : Bool
  dataBase : Nat
  metaBase : Nat
  nhs : Nat
  used : NatSet
  key0 : Option Nat
  key1 : Option Nat
  ctr0 : Nat
  ctr1 : Nat
  sweep : Bool
  deriving DecidableEq, Repr

def GlzSt.reset : GlzSt :=
  { area := false, dataBase := 0, metaBase := 0, nhs := 0, used := [], key0 := none, key1 := none, ctr0 := 0, ctr1 := 0,
    sweep := false }

/-- A loaded model (R315): its handle, the cores that hold a program, and its weight map. -/
structure ModelSt where
  handle : Nat
  cores : List Nat
  weights : List (Nat × Nat × Nat)
  deriving DecidableEq, Repr

/-- A MODEL_LOAD whose load paths run: its packet, the model, and the first image that delivered poison. -/
structure LoadSt where
  pkt : Nat
  model : ModelSt
  left : List Nat
  bad : Option Nat
  deriving DecidableEq, Repr

/-- A segment that the walker has still to write (R216): the stop, the entry without its ring offset, its items of 16
bytes, the length-table indices in its work and the layer-head. -/
structure WalkSeg where
  clu : Nat
  stop : Nat
  word : Nat
  items : List (List Byte)
  work : List Nat
  lh : Nat
  deriving DecidableEq, Repr

/-- The running step of a partition (R318): `phase` is 0 while the length table is read into `buf` (with `left` reads
outstanding), 1 while the cores run, 2 while they halt after an early end with `status` and `detail`. `table` holds the length-table entries, `faults` each entry's
sequence fault; `segs` are the segments still to write, in the order of the walk; `waits` the stops at which the walker waits. -/
structure StepSt where
  pkt : Nat
  phase : Nat
  status : Nat
  detail : Nat
  start : Nat
  buf : List Byte
  left : Nat
  table : List Nat
  faults : List Nat
  segs : List WalkSeg
  waits : NatSet
  deriving DecidableEq, Repr

/-- An image that a swap-in brings back (R250): shard, layer-head, block, its old entry, the page ID of the frame taken,
which image of a BF16 pair it is, and the glaze record and image bytes read so far. -/
structure SwapJob where
  clu : Nat
  lh : Nat
  blk : Nat
  entry : Nat
  frame : Nat
  half : Nat
  record : List Byte
  image : List (Nat × List Byte)
  done : Bool
  deriving DecidableEq, Repr

/-- The running swap-in of a partition. `save` holds the sequence's first failure: status, layer-head and block. -/
structure SwapSt where
  pkt : Nat
  seq : Nat
  jobs : List SwapJob
  fail : Option (Nat × Nat × Nat)
  deriving DecidableEq, Repr

/-- The page under re-key (R256): sequence, layer-head, block, which image of a BF16 pair, its entry, and what was read. -/
structure RekeySt where
  seq : Nat
  lh : Nat
  blk : Nat
  half : Nat
  entry : Nat
  record : List Byte
  image : List (Nat × List Byte)
  deriving DecidableEq, Repr

/-- Units that a partition's zeroing has still to write (R403): row groups `lo` to `hi` − 1 of a bank column, or 4 KiB
units of tier 2. -/
structure ZeroSpan where
  tier2 : Bool
  col : Nat
  lo : Nat
  hi : Nat
  deriving DecidableEq, Repr

/-- A partition (Table SEC.1): `state` is 0 absent, 1 created, 2 locked, 3 releasing, 4 faulted. `tdi` is 0
CONFIG_UNLOCKED, 1 CONFIG_LOCKED, 2 RUN, 3 ERROR; `zeroLeft` holds the units its zeroing has still to write; `relPkt` and
`stopReq` are the release and the STOP_INTERFACE_REQUEST that wait for it. `launches` holds the packets of the queued
launches; those in `held` wait for a generation switch (R197), those in `held2` for the one queued behind it. `loading`
is a MODEL_LOAD whose load paths run. `dropModel` says that the model goes when the running step ends (R370). -/
structure PartSt where
  state : Nat
  mask : Nat
  conf : Bool
  ucnt : Bool
  steps : Nat
  dir : Option DirSt
  att : Option AttSt
  glz : GlzSt
  model : Option ModelSt
  loading : Option LoadSt
  launches : List Nat
  held : List Nat
  held2 : List Nat
  step : Option StepSt
  swap : Option SwapSt
  rekey : Option RekeySt
  preempt : Bool
  stuck : Bool
  tdi : Nat
  ide : Bool
  ideSet : Nat
  ready : NatSet
  zeroLeft : List ZeroSpan
  relPkt : Option Nat
  stopReq : Bool
  dropModel : Bool
  deriving DecidableEq, Repr

def PartSt.reset : PartSt :=
  { state := 0, mask := 0, conf := false, ucnt := false, steps := 0, dir := none, att := none, glz := GlzSt.reset,
    model := none, loading := none, launches := [], held := [], held2 := [], step := none, swap := none, rekey := none, preempt := false,
    stuck := false, tdi := 0, ide := false, ideSet := 0, ready := [], zeroLeft := [], relPkt := none, stopReq := false, dropModel := false }

/-- A partition's tier-2 pool (R245): `used` lists the slots in use; `spill` says that the pool fell below T2LOW and has not
reached T2HIGH since, so that its pages move on to the host (R207). -/
structure Pool where
  slot0 : Nat
  nslot : Nat
  tagBase : Nat
  low : Nat
  high : Nat
  used : NatSet
  spill : Bool
  deriving DecidableEq, Repr

def Pool.reset : Pool := { slot0 := 0, nslot := 0, tagBase := 0, low := 0, high := 0, used := [], spill := false }

/-! ## Power and reset (chapters 02 and 18) -/

/-- Input power, rails, reset and the limit block. `rails` holds the rails that are on: 0 to 3 VH_LOG h, 4 + n VT_LOG n, 20 VM,
21 VOE, 23 VBUS, 24 + n VT_PP n, 40 + n VT_DRAM n (22, VAUX, is `vaux`). `vin` says that VIN is at 40 V or more. `rst` says that RST_N is low, `descend` that a reset is under way and the governors
descend, `inReset` that every die has been reset and RST_N is not yet released. `level` is the governor level per cluster;
`loopC`, `loopW` and `thermW` are the power loop's ceiling and withhold count and the thermal withhold count per tower.
`clkBad` counts consecutive bad windows by die · 16 + clock; `rootLost` holds the dies whose received root is lost (R26). `meas`
holds the power last measured on the rails of Table CLK.3, in 0.1 W: 0 the module input, 1 + n VT_LOG n, 17 + n VT_DRAM n with
VT_PP n, 33 + h VH_LOG h, 37 + h VM at hub h, 41 VOE. `phase` is the receive phase of each layer, in 1/64 of an MCLK period, by
8 · tower + layer (R30, R31); `powSum`, `powCnt` and `powCoarse` form the readings of R430. -/
structure PwrSt where
  vaux : Bool
  sw : Bool
  vin : Bool
  rev : Bool
  bleed : Bool
  kiln : Bool
  rails : NatSet
  rst : Bool
  descend : Bool
  inReset : Bool
  refOk : Bool
  lidOpen : Bool
  flowLvl : Bool
  level : Store Nat
  loopC : Store Nat
  loopW : Store Nat
  thermW : Store Nat
  clkBad : Store Nat
  rootLost : NatSet
  meas : Store Nat
  phase : Store Nat
  powSum : Store Nat
  powCnt : Nat
  powCoarse : Store Nat
  deriving DecidableEq, Repr

/-! ## Start-up and repair (chapter 13) -/

/-- A bond or bridge lane group (R355): spares in use with the lanes they replace, failed lanes without a spare, and spares
found bad. -/
structure LaneGrp where
  sp : List (Nat × Nat)
  bad : List Nat
  badSp : List Nat
  deriving DecidableEq, Repr

def LaneGrp.empty : LaneGrp := { sp := [], bad := [], badSp := [] }

/-- The test record of a unit (R348): whether it exists, the serial number, fuse digest and test-program version it was made with,
the device time of its full test in ns, whether a kiln-sitter trip followed it, and whether a start-up that uses it has not yet
completed stage 9. -/
structure TestRec where
  made : Bool
  serial : Nat
  digest : List Byte
  ver : Nat
  since : Nat
  tripped : Bool
  inUse : Bool
  deriving DecidableEq, Repr

def TestRec.none : TestRec :=
  { made := false, serial := 0, digest := [], ver := 0, since := 0, tripped := false, inUse := false }

/-- Start-up and yield. `next` is the stage that starts next; `full` forces every full test; `late` says that a stop of
stage 1 waits for stage 2; `fire` holds the bytes of the firing log. Units of `recs` and `reuse` are 0 to 15
towers and 16 + h the tier-2 quarter of hub h. Defect sets hold physical numbers; `bond` is keyed column · 134 + group and
`brg` direction · 12 + group. `retCol` holds the retired columns of the test record, `defRow` the rows that tests found bad, as
column and row, `spareRow` the spare rows in use by column · 8 + layer (R363). `retP` holds the retention references P of a
tower's eight backgrounds in µs, and `prof` by column · 131 072 + row the first pause P, 2P, 4P or 8P that the row did not hold, as
1 to 4 (R362). `phRec` holds the phase settings of the test record, as `PwrSt.phase` does the live ones. `cold` says that a
collapse of VIN requires a cold start (R37). `timed` holds the units that
exceeded the time limit of the stage that runs (R352), numbered as that stage numbers them. -/
structure BootSt where
  next : Option Nat
  full : Bool
  result : Nat
  warm : Bool
  stopped : Bool
  late : Bool
  run : Nat
  fire : Mem
  fireNext : Nat
  fireWrap : Bool
  recs : Store TestRec
  reuse : NatSet
  fuse : FuseMap
  defCore : NatSet
  defClu : NatSet
  defTw : NatSet
  defRow : List (Nat × Nat)
  retCol : NatSet
  spareRow : Store Nat
  retP : Store (List Nat)
  prof : Store Nat
  phRec : Store Nat
  pkgBad : NatSet
  bond : Store LaneGrp
  brg : Store LaneGrp
  brgUp : NatSet
  brgDue : NatSet
  brgTrain : NatSet
  oeHeld : NatSet
  timed : NatSet
  cold : Bool
  deriving DecidableEq, Repr

/-! ## Temperature (chapter 14) -/

/-- A tower's thermal state: the last 100 hottest readings, newest first (0.25 °C), the reading and its prediction
(10⁻⁶ °C), R_est (10⁻⁶ °C/W; 0 before the first window), the sum, number and least and largest power (0.1 W) of the window that
runs, canary derating steps and the device time of the last failing check, rounds at least 3 °C below 85 °C and below 95 °C,
turning points, newest first, cone counts and the life threshold last reported. -/
structure TwrTh where
  hist : List Int
  meas : Int
  pred : Int
  rEst : Nat
  rSum : Int
  rCnt : Nat
  pMin : Nat
  pMax : Nat
  derate : Nat
  lastFail : Nat
  cool85 : Nat
  cool95 : Nat
  turns : List Int
  cone : List Nat
  life : Nat
  deriving DecidableEq, Repr

def TwrTh.reset : TwrTh :=
  { hist := [], meas := 0, pred := 0, rEst := 0, rSum := 0, rCnt := 0, pMin := 0, pMax := 0, derate := 0, lastFail := 0,
    cool85 := 0, cool95 := 0, turns := [], cone := [0, 0, 0], life := 0 }

/-- A layer: its reading (0.25 °C), prediction (10⁻⁶ °C), the hottest hotspot at the round that read it, marks, and the
rounds in which reading and prediction disagreed. -/
structure LayerTh where
  meas : Int
  pred : Int
  base : Int
  hot : Bool
  suspect : Bool
  dis : Nat
  deriving DecidableEq, Repr

def LayerTh.reset : LayerTh := { meas := 0, pred := 0, base := 0, hot := false, suspect := false, dis := 0 }

/-- A run of samples of one code of a sensor channel, with the least and the largest power of the unit it guards during the run,
in 0.1 W (Table THM.2). -/
structure SameSt where
  n : Nat
  lo : Nat
  hi : Nat
  deriving DecidableEq, Repr

def SameSt.none : SameSt := { n := 0, lo := 0, hi := 0 }

/-- The thermal protection. `brk` holds the broken sensor channels, `cut` those that read open or short, both by channel
number; `last` the last good reading of each channel, `same` its run of one code. `clear` counts the 10 µs intervals in which every prediction stayed below
its target. `regLoss` is the allowance lost in W by tower, or 16 + hub. `oeHot` holds the engines above their rated maximum. `warn`
says that the cooling-degraded warning stands. `kilnNv`, `coneNv` and `spareNv` lie in the non-volatile stores: the trip record,
and per tower the cone counts with the life threshold reported, and the spares in use. -/
structure ThermSt where
  brk : NatSet
  cut : NatSet
  last : Store Int
  same : Store SameSt
  tw : Store TwrTh
  lay : Store LayerTh
  regLoss : Store Nat
  regHot : NatSet
  hubHot : Store Int
  oeHot : NatSet
  clear : Nat
  warn : Bool
  kilnNv : Word
  coneNv : Store (List Nat)
  spareNv : Store Nat
  deriving DecidableEq, Repr

/-! ## Maintenance (chapter 15) -/

/-- An activity that MNT_START started: `pos` counts the units of its range that are done; `state` is coded as MNT_QUERY
codes it. -/
structure MntJob where
  handle : Nat
  hub : Nat
  kind : Nat
  start : Nat
  extent : Nat
  pos : Nat
  faults : Nat
  state : Nat
  deriving DecidableEq, Repr

/-- The scheduler's view of one kind on one hub: steps done in the current pass, passes late, deferrals, and the period
written, 0 for the default. -/
structure MntKind where
  running : Bool
  done : Nat
  late : Nat
  defer : Nat
  period : Nat
  deriving DecidableEq, Repr

def MntKind.reset : MntKind := { running := false, done := 0, late := 0, defer := 0, period := 0 }

structure MntSt where
  jobs : List MntJob
  serial : Nat
  kinds : Store MntKind
  deriving DecidableEq, Repr

/-! ## Security (chapter 16) -/

/-- A Relub image: its SVN and the digest of its body. -/
structure FwImg where
  svn : Nat
  digest : List Byte
  deriving DecidableEq, Repr

/-- An SPDM secure session: its number, whether FINISH completed it, and how often its keys were updated. -/
structure Session where
  id : Nat
  done : Bool
  keys : Nat
  deriving DecidableEq, Repr

/-- The root of trust. `lcFuse` and `svnFuse` are fuses; `vendorKeys` the digests of the vendor keys whose revocation fuse
is intact. `ids` says that the identity keys are derived. `tamperNv` is the stored tamper record in the layout of SEC_TAMPER. `dirty`
holds the dirty quarter-towers and `dirtyT2` the dirty tier-2 windows (64 KiB units). `run` is the running image per hub. -/
structure SecSt where
  lcFuse : Nat
  svnFuse : Nat
  fuseDigest : List Byte
  vendorKeys : List (List Byte)
  debug : Bool
  pendDebug : Option Nat
  ids : Bool
  tamperNv : Word
  tampering : Bool
  dirty : NatSet
  dirtyT2 : List (Nat × Nat)
  staged : Store FwImg
  prev : Store FwImg
  run : Store FwImg
  version : Bool
  caps : Bool
  algs : Bool
  falcon : Bool
  sessions : List Session
  ideLink : Bool
  ideLinkSet : Nat
  idePf : Bool
  idePfSet : Nat
  nextSession : Nat
  deriving DecidableEq, Repr

/-! ## The network (chapter 10) -/

/-- A transaction of a master port (R281): `st` is 0 waiting for a slot, 1 sent, 2 queued at its target, 3 answered with a
retry, 4 retried and reserved, 5 granted, 6 answered. `slot` is 0 none, 1 floor, 2 pool; `entry` whether it holds an entry at its target, 1 floor, 2 shared. `part` is
the partition, 64 for the privileged marker; `atom` an atomic with its operand in `data`; `cls` the message class (Table NOC.3),
`weight` its WEIGHT, and `born` the NCLK cycle in which the port created it, from which AGE counts (R277). At issue the physical
target is fixed: `key` names it and `off` is the offset in its memory (R272, R274); with it the routes out and back, whether they
are escape routes, and in `mask` the towers that they cross (R273). A read gathers its bytes in `data`; `status` and `resp` are the
response, whose data is none for poison, and `ans` its place in the order of the targets' answers, 0 for one that the interface
gives; `poison` marks a request whose entry a crossing FIFO poisoned (R34). -/
structure NetTx where
  id : Nat
  port : Nat
  part : Nat
  addr : Nat
  len : Nat
  write : Bool
  atom : Option AtomicOp
  data : List Byte
  cls : Nat
  weight : Nat
  born : Nat
  st : Nat
  slot : Nat
  entry : Nat
  key : Nat
  off : Nat
  out : List Nat
  back : List Nat
  esc : Bool
  mask : Nat
  ans : Nat
  status : Nat
  resp : Option (List Byte)
  poison : Bool
  deriving DecidableEq, Repr

/-- The network: transactions in the order of their creation, the reservation lists by target key, oldest first, the exclusion
masks in force (`xPort` by 4 · edge + boundary port, ring links at 160 to 163), the maps before the changes whose commits some
interface still has to take, oldest first, and how many of these commits each master port has taken (R267, R274), the last response
received by each port, each hub's counts of lapses and refusals and its last refusal, laid out as Tables NOC.8 and NOC.9 (R276, R280,
R298), the NCLK cycles counted so far and the answers given so far, which order ages and responses (R269, R277), and for each target
the input port that its arbiter served last (R278). -/
structure NetSt where
  txs : List NetTx
  nextId : Nat
  resv : Store (List Nat)
  xHub : Nat
  xTwr : Nat
  xPort : NatSet
  oldMaps : List LogMap
  moved : Store Nat
  recv : Store (Nat × Option (List Byte))
  hubStat : Store Word
  hubBnd : Store Word
  now : Nat
  answers : Nat
  rr : Store Nat
  deriving DecidableEq, Repr

/-- A tier-2 access in a pair's queue (R240): sector offset, transaction, and what it writes. -/
structure T2Req where
  id : Nat
  off : Nat
  len : Nat
  data : Option (List Byte)
  deriving DecidableEq, Repr

/-- A sub-channel pair: its queue, open row with the sectors served in it, the bank refreshed next, the write drift since the
last training in 1/16 of a unit interval, and the link error that its next access outside the queue meets: 0 none, 1 corrected, 2 one
that persists, which is the model's own (log entry 201); `mntGap` its accesses since the last of maintenance and `mntWait` how many
maintenance waits for (R281). -/
structure T2Pair where
  queue : List T2Req
  row : Option Nat
  hits : Nat
  refBank : Nat
  drift : Nat
  link : Nat
  mntGap : Nat
  mntWait : Nat
  deriving DecidableEq, Repr

def T2Pair.reset : T2Pair := { queue := [], row := none, hits := 0, refBank := 0, drift := 0, link := 0, mntGap := 0, mntWait := 0 }

/-! ## The fabric (chapter 12) -/

/-- A message: its class, virtual channel, destination and source device, header and data, and the data blocks that carry
poison. `mask` names the ports a reduce message takes (R344); a message without it is routed by its destination. `entry` is the route
entry that its one look-up found (R338). -/
structure FMsg where
  cls : Nat
  vc : Nat
  dest : Nat
  src : Nat
  bytes : List Byte
  poison : List Nat
  mask : Option Nat
  entry : Nat
  deriving DecidableEq, Repr

/-- A flit: its bytes without sequence number, acknowledgement and CRC, its channel, whether its payload carries
poison, and the header of its message. -/
structure Flit where
  chan : Nat
  first : Bool
  last : Bool
  dest : Nat
  src : Nat
  payload : List Byte
  poison : Bool
  head : List Byte
  deriving DecidableEq, Repr

/-- The link layer of a port (R325 to R328): next sequence number to send and last received in order, the replay buffer of
numbered flits, flits waiting for credits, credits held and owed by channel, the places of the receive buffer that each channel has
been granted or fills, NAKs for one sequence number, flits of messages being received by channel with the route entry found at
the first, and the channels counted as stalled. `enabled` is FAB_PORT's setting; `due` says that a retraining is due; `pulses`
counts check pulses; `txOn` and `rxOn` are the wavelengths in use by direction (R323). -/
structure FPort where
  enabled : Bool
  due : Bool
  nextSeq : Nat
  rxSeq : Nat
  nakSent : Bool
  replay : List (Nat × Flit)
  waiting : List Flit
  cred : List Nat
  owed : List Nat
  places : List Nat
  nakSeq : Nat
  naks : Nat
  rx : Store (List Flit)
  look : Store Nat
  stalled : NatSet
  pulses : Nat
  txOn : List Nat
  rxOn : List Nat
  deriving DecidableEq, Repr

def FPort.reset : FPort :=
  { enabled := true, due := false, nextSeq := 0, rxSeq := 4095, nakSent := false, replay := [], waiting := [],
    cred := List.replicate 8 0, owed := List.replicate 8 0, places := List.replicate 8 0, nakSeq := 0, naks := 0, rx := [],
    look := [], stalled := [], pulses := 0, txOn := [], rxOn := [] }

/-- A reduce context (R344): its hub, group, tag, length and operation, COUNT, contributions from ports and whether a local
one is in, its value per block (none for poison; FP32 codes for a BF16 sum, else bytes), flags and opening time in ns. -/
structure RedCtx where
  hub : Nat
  group : Nat
  tag : Nat
  len : Nat
  op : Nat
  count : Nat
  kids : Nat
  loc : Bool
  val : List (Option (List Nat))
  part : Bool
  err : Bool
  opened : Nat
  deriving DecidableEq, Repr

/-- The fabric agents. `route` is the route table by index; `ports` by port; `strmCred` the credits of send streams,
`strmIdx` the next index of a send stream or the HEAD last granted of a receive stream, and
`strmPend` the streams with a notice, all by cluster · 4 + stream; `inbox` the messages that wait for routing and `held` those
that wait for their local agent, with their port (16: this device); `flits` the flits sent, with their port, as 256 bytes and
poison. `done` holds the group and tag of completed contexts. `live` and `lost` hold children as level · 64 + digit, `seen` when
each was last heard; `unanswered` counts heartbeats without an answer; `parentPort` is
FAB_ROLE's. -/
structure FabSt where
  route : Store Nat
  ports : Store FPort
  strmCred : Store Nat
  strmPend : NatSet
  strmIdx : Store Nat
  inbox : List (Nat × FMsg)
  held : List (Nat × FMsg)
  flits : List (Nat × List Byte × Bool)
  ctxs : List RedCtx
  done : List (Nat × Nat)
  live : NatSet
  lost : NatSet
  seen : Store Nat
  unanswered : Nat
  parentPort : Nat
  deriving DecidableEq, Repr

/-! ## Snapshots (chapter 17) -/

/-- What a snapshot holds: the value and OVF of every counter, by counter; its coarsened value where its unit was coarsened (R430);
the units coarsened and the units valid (cores, 4 352 + cluster, 4 608 + hub); and the dies that latched late (16 + hub). -/
structure SnapImg where
  vals : Store Nat
  low : Store Nat
  coarse : NatSet
  valid : NatSet
  late : NatSet
  deriving DecidableEq, Repr

def SnapImg.empty : SnapImg := { vals := [], low := [], coarse := [], valid := [], late := [] }

/-- What asks for a snapshot (R446): `mode` 0 snapshot, 1 freeze, 2 unfreeze; the SNAPSHOT packet that waits for it; and whether
a telemetry round does. -/
structure SnapReq where
  mode : Nat
  pkt : Option Nat
  round : Bool
  deriving DecidableEq, Repr

/-- The snapshot under way with its instant T, the dies that have not latched, what is latched, the request that waits, the
snapshot area, and the counters as coarsened reads show them. -/
structure SnapSt where
  run : Option SnapReq
  t : Nat
  wait : NatSet
  lat : SnapImg
  pend : Option SnapReq
  area : SnapImg
  coarse : Store Nat
  deriving DecidableEq, Repr

/-- The machine. `pending` is the queue of commands, first in, first out. `frozen` lists the dies whose counters are held (R446); `reload` lists tier-1 blocks, by core and slice offset, whose weights wait to be reloaded (R372). -/
structure State where
  pending : List Instr
  regs : Store Word
  cores : Store CoreSt
  cols : Store ColSt
  sp : Mem
  spChk : Mem
  spWr : NatSet
  csram : Mem
  csChk : Mem
  csWr : NatSet
  csQueue : List QAtomic
  portResp : Store PortResp
  t1 : Mem
  t1Chk : Mem
  ftag : Store Word64
  refRate : Store Nat
  t2 : Mem
  pools : Store Pool
  gbarArr : Store (List Nat)
  gbarEpoch : NatSet
  lostTw : NatSet
  remote : List RemoteWr
  remoteRef : List RemoteRef
  hubs : Store HubSt
  ctrs : Store Ctr
  frozen : NatSet
  telem : Telem
  map : LogMap
  parts : Store PartSt
  winMem : Mem
  wins : Store WinSt
  nextPkt : Nat
  d3 : NatSet
  cfg : Store Word
  reads : List HostRead
  nextTag : Nat
  dmas : List DmaSt
  zeroQ : Store (List Nat)
  noReuse : NatSet
  reload : List (Nat × Nat)
  stage : Nat
  booted : Bool
  ns : Nat
  fatal : Bool
  faultN : Bool
  hostOut : List HostOut
  fresh : Nat
  pwr : PwrSt
  boot : BootSt
  therm : ThermSt
  mnt : MntSt
  sec : SecSt
  net : NetSt
  t2q : Store T2Pair
  t2poison : NatSet
  fab : FabSt
  snap : SnapSt
  mirror : List Byte
  deriving DecidableEq, Repr

/-! ## Reset -/

def PwrSt.reset : PwrSt :=
  { vaux := true, sw := true, vin := true, rev := false, bleed := false, kiln := false, rails := [], rst := false, descend := false,
    inReset := false, refOk := true, lidOpen := false, flowLvl := false, level := [], loopC := [], loopW := [],
    thermW := [], clkBad := [], rootLost := [], meas := [], phase := [], powSum := [], powCnt := 0, powCoarse := [] }

def BootSt.reset : BootSt :=
  { next := some 0, full := false, result := 0, warm := false, stopped := false, late := false, run := 0, fire := [],
    fireNext := 0, fireWrap := false, recs := [], reuse := [], fuse := FuseMap.empty, defCore := [],
    defClu := [], defTw := [], defRow := [], retCol := [], spareRow := [], retP := [], prof := [], phRec := [], pkgBad := [], bond := [], brg := [], brgUp := [], brgDue := [], brgTrain := [],
    oeHeld := [], timed := [], cold := false }

def ThermSt.reset : ThermSt :=
  { brk := [], cut := [], last := [], same := [], tw := [], lay := [], regLoss := [], regHot := [], hubHot := [], oeHot := [], clear := 0,
    warn := false, kilnNv := 0, coneNv := [], spareNv := [] }

def MntSt.reset : MntSt := { jobs := [], serial := 0, kinds := [] }

def SecSt.reset : SecSt :=
  { lcFuse := 0, svnFuse := 0, fuseDigest := [], vendorKeys := [], debug := false, pendDebug := none, ids := false,
    tamperNv := 0, tampering := false, dirty := [], dirtyT2 := [], staged := [], prev := [], run := [],
    version := false, caps := false, algs := false, falcon := false, sessions := [], ideLink := false, ideLinkSet := 0,
    idePf := false, idePfSet := 0, nextSession := 0 }

def NetSt.reset : NetSt :=
  { txs := [], nextId := 0, resv := [], xHub := 0, xTwr := 0, xPort := [], oldMaps := [], moved := [], recv := [],
    hubStat := [], hubBnd := [], now := 0, answers := 0, rr := [] }

def FabSt.reset : FabSt :=
  { route := [], ports := [], strmCred := [], strmPend := [], strmIdx := [], inbox := [], held := [], flits := [],
    ctxs := [], done := [], live := [], lost := [], seen := [], unanswered := 0, parentPort := 0 }

def SnapSt.reset : SnapSt :=
  { run := none, t := 0, wait := [], lat := SnapImg.empty, pend := none, area := SnapImg.empty, coarse := [] }

/-- The machine right after power-on: the input switch is closed, VAUX is up, RST_N is released, and stage 0 of a cold
start-up is next (R9, R36, R347). Registers hold their reset values, and no memory is listed. -/
def State.reset : State :=
  { pending := [], regs := [], cores := [], cols := [], sp := [], spChk := [], spWr := [], csram := [], csChk := [], csWr := [],
    csQueue := [], portResp := [], t1 := [], t1Chk := [], ftag := [], refRate := [], t2 := [], pools := [], gbarArr := [],
    gbarEpoch := [], lostTw := [], remote := [], remoteRef := [], hubs := [], ctrs := [], frozen := [],
    telem := Telem.reset, map := { tw := [], cl := [], core := [] }, parts := [], winMem := [], wins := [], nextPkt := 0,
    d3 := [], cfg := [], reads := [], nextTag := 0, dmas := [], zeroQ := [], noReuse := [], reload := [], stage := 0, booted := false, ns := 0,
    fatal := false, faultN := false, hostOut := [], fresh := 0, pwr := PwrSt.reset, boot := BootSt.reset,
    therm := ThermSt.reset, mnt := MntSt.reset, sec := SecSt.reset, net := NetSt.reset, t2q := [], t2poison := [],
    fab := FabSt.reset, snap := SnapSt.reset, mirror := [] }

/-- What a meaning answers. -/
abbrev Res := Host.Outcome State Fault Refusal

end Sys2Proof.Machine
end

