-- ==== Sys2Proof/Machine/Ops.lean ====
section
/-! DEFINITION. The named operations over registers, units, free values, performance counters and the error log. -/

namespace Sys2Proof.Machine

/-! ## Physical numbers -/

def coreClu (c : Nat) : Nat := c / 17
def coreSite (c : Nat) : Nat := c % 17
def coreTower (c : Nat) : Nat := c / 272
def cluTower (c : Nat) : Nat := c / 16

/-- The home hub of a physical tower (Table PKG.6). -/
def homeHub (n : Nat) : Nat := listAt [0, 0, 0, 1, 3, 0, 1, 1, 3, 3, 2, 1, 3, 2, 2, 2] n 0

/-- A physical locator (Table BOOT.3) of a hub, LPDDR5X package, engine or rail. -/
def srcIndex (kind i : Nat) : Nat := kind * 2 ^ 28 + i * 2 ^ 20

/-- The locator of a tower, cluster, core site or bank column. -/
def srcTower (n : Nat) : Nat := 2 * 2 ^ 28 + n * 2 ^ 24
def srcClu (k c : Nat) : Nat := k * 2 ^ 28 + (c / 16) * 2 ^ 24 + (c % 16) * 2 ^ 20
def srcCore (c : Nat) : Nat := srcClu 4 (coreClu c) + coreSite c * 2 ^ 15
def srcCol (col : Nat) : Nat := srcClu 5 (coreClu (col / 2)) + coreSite (col / 2) * 2 ^ 15 + (col % 2) * 2 ^ 14

/-! ## Registers and units -/

/-- The stored word of a register. -/
def rget (s : State) (off : Nat) : Word := stGet regReset s.regs off

/-- Stores a register word. -/
def rset (off : Nat) (w : Word) (s : State) : State := { s with regs := stSet regReset s.regs off w }

/-- Changes a register word. -/
def rupd (off : Nat) (f : Word → Word) (s : State) : State := rset off (f (rget s off)) s

def cget (s : State) (c : Nat) : CoreSt := stGet (fun _ => CoreSt.reset) s.cores c
def cset (c : Nat) (v : CoreSt) (s : State) : State :=
  { s with cores := stSet (fun _ => CoreSt.reset) s.cores c v }
def cupd (c : Nat) (f : CoreSt → CoreSt) (s : State) : State := cset c (f (cget s c)) s

def colget (s : State) (k : Nat) : ColSt := stGet (fun _ => ColSt.reset) s.cols k
def colset (k : Nat) (v : ColSt) (s : State) : State :=
  { s with cols := stSet (fun _ => ColSt.reset) s.cols k v }
def colupd (k : Nat) (f : ColSt → ColSt) (s : State) : State := colset k (f (colget s k)) s

def hget (s : State) (h : Nat) : HubSt := stGet (fun _ => HubSt.reset) s.hubs h
def hset (h : Nat) (v : HubSt) (s : State) : State :=
  { s with hubs := stSet (fun _ => HubSt.reset) s.hubs h v }

/-- A register of a core block. -/
def corReg (s : State) (c o : Nat) : Word := rget s (coreBase c + o)
def corSet (c o : Nat) (w : Word) (s : State) : State := rset (coreBase c + o) w s
def corUpd (c o : Nat) (f : Word → Word) (s : State) : State := rupd (coreBase c + o) f s

/-- A register of a cluster block. -/
def cluReg (s : State) (c o : Nat) : Word := rget s (cluBase c + o)
def cluSet (c o : Nat) (w : Word) (s : State) : State := rset (cluBase c + o) w s
def cluUpd (c o : Nat) (f : Word → Word) (s : State) : State := rupd (cluBase c + o) f s

/-! ## Free values -/

/-- Takes a fresh free value: the manual leaves it open. -/
def takeFree (s : State) : Nat × State := (Config.freeValue s.fresh, { s with fresh := s.fresh + 1 })

/-- The level of a cluster, 0 to 16 (R42). -/
def levelOf (s : State) (k : Nat) : Nat := stGet (fun _ => 0) s.pwr.level k

/-- Whether the ACLK state of a core advances at all: at level 0 every cycle is held (R42). -/
def coreRuns (s : State) (c : Nat) : Bool := decide (0 < levelOf s (coreClu c))

/-! ## The logical map (R4) -/

def twLog (s : State) (n : Nat) : Option Nat :=
  let v := stGet (fun _ => 0) s.map.tw n
  if v = 0 then none else some (v - 1)
def clLog (s : State) (c : Nat) : Option Nat :=
  let v := stGet (fun _ => 0) s.map.cl c
  if v = 0 then none else some (v - 1)
def coLog (s : State) (c : Nat) : Option Nat :=
  let v := stGet (fun _ => 0) s.map.core c
  if v = 0 then none else some (v - 1)

/-- The logical name of a core: tower, cluster, core. -/
def coreName (s : State) (c : Nat) : Option (Nat × Nat × Nat) :=
  match twLog s (coreTower c), clLog s (coreClu c), coLog s c with
  | some t, some l, some k => some (t, l, k)
  | _, _, _ => none

/-- The key of a store whose value is `v`, if any. -/
def keyOf (st : Store Nat) (p : Nat → Bool) (v : Nat) : Option Nat :=
  (st.find? (fun e => p e.1 && e.2 == v)).map Prod.fst

/-- The physical tower of a logical tower. -/
def twPhys (s : State) (t : Nat) : Option Nat := keyOf s.map.tw (fun _ => true) (t + 1)

/-- The physical cluster of a logical tower and cluster. -/
def clPhys (s : State) (t c : Nat) : Option Nat :=
  (twPhys s t).bind (fun n => keyOf s.map.cl (fun k => k / 16 == n) (c + 1))

/-- The physical core of a logical tower, cluster and core. -/
def corePhys (s : State) (t c k : Nat) : Option Nat :=
  (clPhys s t c).bind (fun x => keyOf s.map.core (fun y => y / 17 == x) (k + 1))

/-- The LOGICAL field of an error record (Table RAS.4). -/
def logicalField (s : State) (c : Nat) : Nat :=
  match coreName s c with
  | some (t, l, k) => 0x8000 + t * 256 + l * 16 + k
  | none => 0

/-! ## Partitions -/

def pget (s : State) (p : Nat) : PartSt := stGet (fun _ => PartSt.reset) s.parts p
def pset (p : Nat) (v : PartSt) (s : State) : State :=
  { s with parts := stSet (fun _ => PartSt.reset) s.parts p v }
def pupd (p : Nat) (f : PartSt → PartSt) (s : State) : State := pset p (f (pget s p)) s

/-- The logical quarter-tower of a physical cluster: four logical clusters of one logical tower. -/
def cluQT (s : State) (c : Nat) : Option Nat :=
  match twLog s (cluTower c), clLog s c with
  | some t, some l => some (4 * t + l / 4)
  | _, _ => none

/-- The partition whose quarter-tower mask holds a physical cluster. -/
def cluPart (s : State) (c : Nat) : Option Nat :=
  (cluQT s c).bind (fun q => (s.parts.find? (fun e => e.2.state != 0 && bitAt e.2.mask q)).map Prod.fst)

def corePart (s : State) (c : Nat) : Option Nat := cluPart s (coreClu c)

/-- The logical cores of a partition, in ascending tower, cluster and core order: physical numbers (R315). -/
def partCores (s : State) (p : Nat) : List Nat :=
  (List.range 16).flatMap (fun t => (List.range 16).flatMap (fun l => (List.range 16).filterMap (fun k =>
    if bitAt (pget s p).mask (4 * t + l / 4) then corePhys s t l k else none)))

/-- Every core of a partition's model. -/
def modelCores (s : State) (p : Nat) : List Nat := ((pget s p).model.map (fun m => m.cores)).getD []

/-- The partition whose running step a core computes for: its cores have started and the step has not ended. -/
def stepOf (s : State) (c : Nat) : Option Nat :=
  (corePart s c).filter (fun p => (modelCores s p).contains c && (pget s p).step.any (fun st => st.phase == 1))

/-! ## Performance counters (chapter 17) -/

/-- What a counted transaction carries (R444): its origin and its target address. -/
structure Tx where
  part : Nat
  engine : Nat
  site : Nat
  level : Nat
  cls : Nat
  addr : Option Nat
  deriving DecidableEq, Repr

/-- The device physical address of a slice offset, and of a cluster-SRAM offset, for units in the map (Table HOST.7). -/
def dpaSlice (s : State) (c off : Nat) : Option Nat :=
  (coreName s c).map (fun n => n.1 * 2 ^ 40 + (16 * n.2.1 + n.2.2) * 2 ^ 32 + off)
def dpaSram (s : State) (clu off : Nat) : Option Nat :=
  match twLog s (cluTower clu), clLog s clu with
  | some t, some l => some (3 * 2 ^ 44 + t * 2 ^ 40 + l * 2 ^ 36 + off)
  | _, _ => none

/-- A transaction of a core's engine (codes of Table RAS.4): user level (Table CNT.4). -/
def coreTx (s : State) (c engine cls : Nat) (addr : Option Nat) : Option Tx :=
  some { part := (corePart s c).getD 0, engine := engine, site := coreSite c, level := 3, cls := cls, addr := addr }

/-- A transaction of the firmware, maintenance or the device's own engines. -/
def fwTx (engine cls : Nat) (addr : Option Nat) : Option Tx :=
  some { part := 0, engine := engine, site := 0, level := 0, cls := cls, addr := addr }

/-- Whether a transaction passes a counter's filters (Table CNT.5). -/
def ctrPass (k : Ctr) (tx : Option Tx) : Bool :=
  match tx with
  | none => true
  | some t =>
    bitAt (fld k.filt 19 16) t.cls && bitAt (fld k.filt 11 8) t.level &&
    (!bitAt k.filt 30 ||
      Nat.land (t.part * 2 ^ 10 + t.engine * 2 ^ 5 + t.site) (fld k.master 31 16) ==
        Nat.land (fld k.master 15 0) (fld k.master 31 16)) &&
    (!bitAt k.filt 31 ||
      match t.addr with
      | some a => k.abase ≤ a / 2 ^ 16 && a / 2 ^ 16 ≤ k.alim
      | none => false)

/-- Adds `n` events to a counter: 48 bits, wrapping sets OVF (R440). -/
def ctrAdd (n : Nat) (k : Ctr) : Ctr :=
  { k with val := (k.val + n) % 2 ^ 48, ovf := k.ovf || decide (2 ^ 48 ≤ k.val + n) }

/-- The die of a counter: 0 to 15 towers, 16 + h hubs. -/
def ctrDie (k : Nat) : Nat := if k < 34816 then k / 2176 else if k < 38912 then (k - 34816) / 256 else 16 + (k - 38912) / 32

/-- Counts an event in every counter of `sel` that is programmed for it. Frozen counters do not count (R446). -/
def tally (sel : Nat → Bool) (evt n : Nat) (tx : Option Tx) (s : State) : State :=
  if evt = 0 || n = 0 then s
  else { s with ctrs := s.ctrs.map (fun e =>
    if sel e.1 && e.2.evt == evt && !nsHas s.frozen (ctrDie e.1) && ctrPass e.2 tx then (e.1, ctrAdd n e.2) else e) }

/-- Counts a core event in the core's counters and its cluster's sum; a core outside the map does not count (R440). -/
def tallyCore (c evt n : Nat) (tx : Option Tx) (s : State) : State :=
  if (coreName s c).isNone then s
  else tally (fun k => (k < 34816 && k / 8 == c) || (34816 ≤ k && k < 38912 && (k - 34816) / 16 == coreClu c)) evt n tx s

/-- Counts a cluster event. -/
def tallyClu (c evt n : Nat) (tx : Option Tx) (s : State) : State :=
  tally (fun k => 34816 ≤ k && k < 38912 && (k - 34816) / 16 == c) evt n tx s

/-- Counts a hub event. -/
def tallyHub (h evt n : Nat) (tx : Option Tx) (s : State) : State :=
  tally (fun k => 38912 ≤ k && (k - 38912) / 32 == h) evt n tx s

/-! ## Messages to the host -/

/-- Queues a message to the host. -/
def hostSend (m : HostOut) (s : State) : State := { s with hostOut := s.hostOut ++ [m] }

/-- The model's key of an MSI-X table word: function 0 is the physical function, p + 1 virtual function p. -/
def msixKey (fn vec word : Nat) : Nat :=
  if fn = 0 then 0x8000 + 16 * vec + 4 * word else vfKey (fn - 1) (0x1E000 + 16 * vec + 4 * word)

/-- The vectors of a function (Table HOST.1). -/
def fnVectors (fn : Nat) : Nat := if fn = 0 then 2048 else 32

/-- Writable words of configuration space by function and index: BAR and SR-IOV registers, controls and AER state. Each is zero after a
function's reset, save that AER masks the advisory error, as the PCIe specification has it. PRESUMED (log entry 205). -/
def cfgInit (k : Nat) : Word := if k % 32 = 19 then 0x2000 else 0
def cfgGet (s : State) (fn i : Nat) : Word := stGet cfgInit s.cfg (fn * 32 + i)
def cfgSet (fn i : Nat) (w : Word) (s : State) : State := { s with cfg := stSet cfgInit s.cfg (fn * 32 + i) w }

/-- Whether the host has enabled MSI-X for a function and not masked it as a whole (R284). -/
def msixOn (s : State) (fn : Nat) : Bool := wBit (cfgGet s fn 9) 31 && !wBit (cfgGet s fn 9) 30

/-- A message of a function as it leaves: inside the function's selective IDE stream when one is established (R306, R423). That the
physical function's traffic uses stream 65 in the same way is read from R423. DEDUCED (log entry 206). -/
def onStream (s : State) (fn : Nat) (m : HostOut) : HostOut :=
  if fn = 0 then (if s.sec.idePf then .ide 65 m else m) else if (pget s (fn - 1)).ide then .ide fn m else m

/-- Queues a message of a function to the host. -/
def fnSend (fn : Nat) (m : HostOut) (s : State) : State := hostSend (onStream s fn m) s

/-- Sends an MSI-X vector of the function's table (R294); while the entry, the function's MSI-X as a whole or the capability is masked
(R451), or the function is in D3hot (R289), the message is held in the PBA. -/
def sendMsix (fn vec : Nat) (s : State) : State :=
  if fnVectors fn ≤ vec then s
  else if wBit (rget s (msixKey fn vec 3)) 0 || !msixOn s fn || nsHas s.d3 fn then
    rupd ((if fn = 0 then 0x10000 else vfKey (fn - 1) 0x1F000) + 4 * (vec / 32))
      (fun w => wPut w (vec % 32) (vec % 32) 1) s
  else fnSend fn (.msix fn vec) s

end Sys2Proof.Machine
end

