-- ==== Sys2Proof/Machine/Route.lean ====
section
/-! DEFINITION. Routes: the grid of clusters and the hub ring, normal routes, exclusions, escape routes, and the towers that a
route crosses (R260 to R264, R270, R271, R273). -/

namespace Sys2Proof.Machine

/-! ## Edges of towers (Tables PKG.5 and NOC.11) -/

/-- Edge e (N, E, S, W as 0 to 3) of tower n: its number in NOC_ROUTE_XEDGE, and whether the tower is the end that the
number names first. -/
def twEdge (n e : Nat) : Nat × Bool :=
  if e = 1 then (if n % 4 < 3 then (3 * (n / 4) + n % 4, true) else (28 + n / 4, false))
  else if e = 3 then (if 0 < n % 4 then (3 * (n / 4) + n % 4 - 1, false) else (36 + n / 4, false))
  else if e = 2 then (if n < 12 then (12 + n, true) else (32 + n % 4, false))
  else (if 4 ≤ n then (8 + n, false) else (24 + n, false))

/-! ## Nodes: 16 · Y + X for a grid node, 256 + h for a hub -/

/-- The node of a physical cluster (R260). -/
def cluNode (k : Nat) : Nat := 16 * (4 * (k / 64) + k % 16 / 4) + 4 * (k / 16 % 4) + k % 4

/-- The physical tower of a grid node. -/
def nodeTower (v : Nat) : Nat := 4 * (v / 64) + v % 16 / 4

/-- The neighbour of a grid node in direction N, E, S, W (0 to 3); beyond the grid lies the hub of that side (R261). -/
def gridStep (v e : Nat) : Nat :=
  let x := v % 16
  let y := v / 16
  if e = 0 then (if y = 0 then 256 else v - 16) else if e = 1 then (if x = 15 then 257 else v + 1)
  else if e = 2 then (if y = 15 then 258 else v + 16) else (if x = 0 then 259 else v - 1)

/-- The grid nodes that a hub meets. -/
def hubNodes (h : Nat) : List Nat :=
  (List.range 16).map (fun i => if h = 0 then i else if h = 1 then 16 * i + 15 else if h = 2 then 240 + i else 16 * i)

def neighbours (v : Nat) : List Nat :=
  if v < 256 then (List.range 4).map (gridStep v)
  else hubNodes (v - 256) ++ [256 + (v - 256 + 1) % 4, 256 + (v - 256 + 3) % 4]

/-- The direction from a grid node to a neighbour. -/
def dirOf (v u : Nat) : Nat := ((List.range 4).find? (fun e => gridStep v e == u)).getD 0

/-- The boundary port of the link between a grid node and the neighbour in direction `e`, where it leaves the tower: 4 · edge + j,
where j counts the boundary nodes of the edge from the west or north (R261). -/
def nodePort (v e : Nat) : Option Nat :=
  let lx := v % 4
  let ly := v / 16 % 4
  let out := if e = 0 then ly == 0 else if e = 1 then lx == 3 else if e = 2 then ly == 3 else lx == 0
  if out then some (4 * (twEdge (nodeTower v) e).1 + (if e % 2 = 0 then lx else ly)) else none

/-- The port of the link between two neighbours; none for a mesh link. -/
def linkPort (a b : Nat) : Option Nat :=
  if a < 256 then nodePort a (dirOf a b)
  else if b < 256 then nodePort b (dirOf b a)
  else if (a - 256 + 1) % 4 = b - 256 then some (160 + (a - 256)) else some (160 + (b - 256))

/-! ## Normal routes (R262 to R264) -/

/-- Steps in one direction until a node satisfies `stop`. -/
def walkTo (e : Nat) (stop : Nat → Bool) : Nat → Nat → List Nat
  | 0, v => [v]
  | n + 1, v => if 256 ≤ v || stop v then [v] else v :: walkTo e stop n (gridStep v e)

/-- Along X to a column. -/
def alongX (v x : Nat) : List Nat := walkTo (if v % 16 ≤ x then 1 else 3) (fun u => u % 16 == x) 16 v

/-- Along Y to a row. -/
def alongY (v y : Nat) : List Nat := walkTo (if v / 16 ≤ y then 2 else 0) (fun u => u / 16 == y) 16 v

/-- The ring from hub a to hub b in the shorter direction, clockwise between opposite hubs. -/
def ringPath (a b : Nat) : List Nat :=
  let d := (b + 4 - a) % 4
  if d = 3 then [256 + a, 256 + b] else (List.range (d + 1)).map (fun i => 256 + (a + i) % 4)

/-- The normal route between two nodes, ends included. -/
def normalRoute (a b : Nat) : List Nat :=
  if a < 256 && b < 256 then alongX a (b % 16) ++ (alongY (16 * (a / 16) + b % 16) (b / 16)).drop 1
  else if a < 256 then walkTo (b - 256) (fun _ => false) 17 a
  else if b < 256 then (walkTo (a - 256) (fun _ => false) 17 b).reverse
  else ringPath (a - 256) (b - 256)

/-! ## Exclusion (R270) -/

/-- Whether the masks in force exclude a node. -/
def nodeOut (s : State) (v : Nat) : Bool := if v < 256 then bitAt s.net.xTwr (nodeTower v) else bitAt s.net.xHub (v - 256)

/-- Whether the masks in force exclude a link. -/
def linkOut (s : State) (a b : Nat) : Bool := (linkPort a b).any (nsHas s.net.xPort)

/-- The links of a path. -/
def pathLinks (l : List Nat) : List (Nat × Nat) := l.zip (l.drop 1)

def pathOut (s : State) (l : List Nat) : Bool := l.any (nodeOut s) || (pathLinks l).any (fun e => linkOut s e.1 e.2)

/-! ## Escape routes (R271) -/

/-- The neighbours that the masks leave to a node. -/
def openNext (s : State) (v : Nat) : List Nat :=
  if nodeOut s v then [] else (neighbours v).filter (fun u => !nodeOut s u && !linkOut s v u)

/-- Breadth-first distances from a frontier, in layers: node and distance. -/
def bfs (next : Nat → List Nat) : Nat → Nat → List Nat → List (Nat × Nat) → List (Nat × Nat)
  | 0, _, _, seen => seen
  | n + 1, d, front, seen =>
    if front.isEmpty then seen
    else
      let new := ((front.flatMap next).filter (fun u => !seen.any (fun e => e.1 == u))).eraseDups
      bfs next n (d + 1) new (seen ++ new.map (fun u => (u, d + 1)))

def bfsFrom (next : Nat → List Nat) (l : List Nat) : List (Nat × Nat) := bfs next 600 0 l (l.map (fun u => (u, 0)))

def distOf (l : List (Nat × Nat)) (v : Nat) : Option Nat := (l.find? (fun e => e.1 == v)).map Prod.snd

/-- The order key of a node: hop distance from H0, then number. -/
def orderKey (hops : List (Nat × Nat)) (v : Nat) : Nat := (distOf hops v).getD 999 * 512 + v

/-- Distances to `b` of the states 2 · node (only down links may follow) and 2 · node + 1 (up links may still follow). -/
def escDist (s : State) (key : Nat → Nat) (b : Nat) : List (Nat × Nat) :=
  let prev (x : Nat) : List Nat :=
    let v := x / 2
    (openNext s v).flatMap (fun u =>
      if x % 2 = 0 then (if key u < key v then [2 * u, 2 * u + 1] else []) else (if key v < key u then [2 * u + 1] else []))
  bfsFrom prev [2 * b, 2 * b + 1]

/-- The remaining hops from a state: up links may be skipped. -/
def escLeft (ds : List (Nat × Nat)) (x : Nat) : Option Nat :=
  if x % 2 = 0 then distOf ds x
  else
    match distOf ds x, distOf ds (x - 1) with
    | some a, some b => some (min a b)
    | some a, none => some a
    | none, r => r

/-- Follows shortest escape hops; among equals the lowest key. -/
def escWalk (s : State) (key : Nat → Nat) (ds : List (Nat × Nat)) (b : Nat) : Nat → Nat → List Nat
  | 0, x => [x / 2]
  | n + 1, x =>
    if x / 2 = b then [b]
    else
      let v := x / 2
      let cands := (openNext s v).filterMap (fun u =>
        let y := if key v < key u then 2 * u else 2 * u + 1
        if x % 2 = 0 && key u < key v then none else (escLeft ds y).map (fun d => (d * 1000000 + key u, y)))
      match cands with
      | [] => [v]
      | c :: r => v :: escWalk s key ds b n ((r.foldl (fun m e => if e.1 < m.1 then e else m) c).2)

/-- The escape route between two nodes, if one reaches. -/
def escRoute (s : State) (a b : Nat) : Option (List Nat) :=
  if nodeOut s a || nodeOut s b then none
  else
    let key := orderKey (bfsFrom (openNext s) [256])
    let ds := escDist s key b
    if (escLeft ds (2 * a + 1)).isSome then some (escWalk s key ds b 600 (2 * a + 1)) else none

/-- The route that a packet takes when it is issued: the normal route, or the escape route where that touches an excluded
element. -/
def route (s : State) (a b : Nat) : Option (List Nat) :=
  let l := normalRoute a b
  if pathOut s l then escRoute s a b else some l

/-! ## Channels (R264, R266, R270, R271) -/

/-- Whether a ring link is the dateline of its direction: H3 → H0 clockwise, H1 → H0 counter-clockwise. -/
def dateline (a b : Nat) : Bool := b == 256 && (a == 259 || a == 257)

/-- The channels of its class on which a packet crosses the links of its route: 0 normal, 1 escape, and on ring links 2 D0 and 3 D1.
The dateline link itself is crossed on D1 (R268 cuts the graph of D0 there). DEDUCED (log entry 202). -/
def routeChans (esc : Bool) : Bool → List Nat → List (Nat × Nat × Nat)
  | crossed, a :: b :: l =>
    let ring := decide (256 ≤ a) && decide (256 ≤ b)
    let x := ring && (crossed || dateline a b)
    (a, b, if ring then (if x then 3 else 2) else b2n esc) :: routeChans esc x (b :: l)
  | _, _ => []

/-- Whether a route crosses a port. -/
def crossesPort (l : List Nat) (f : Nat → Bool) : Bool := (pathLinks l).any (fun e => (linkPort e.1 e.2).any f)

/-- The routes that a request and its response take at issue, and whether they are escape routes; none where no route reaches. -/
def netRoutes (s : State) (a b : Nat) : Option (List Nat × List Nat × Bool) :=
  match route s a b, route s b a with
  | some l, some m => some (l, m, l != normalRoute a b || m != normalRoute b a)
  | _, _ => none

/-- Whether a path crosses a lost tower that the masks in force do not exclude yet (R273). -/
def crossesLost (s : State) (l : List Nat) : Bool :=
  l.any (fun v => v < 256 && nsHas s.lostTw (nodeTower v) && !bitAt s.net.xTwr (nodeTower v))

/-- The towers that a path crosses, as a mask. -/
def pathTowers (l : List Nat) : Nat :=
  sumNat ((List.range 16).map (fun n => if l.any (fun v => v < 256 && nodeTower v == n) then 2 ^ n else 0))

end Sys2Proof.Machine
end

