-- ==== Sys2Proof/Machine/Ports.lean ====
section
/-! DEFINITION. The master ports of the networks: their nodes, their slots and the map that each interface holds (R274, R281, R282). -/

namespace Sys2Proof.Machine

/-! ## The slot registers of cores (Table NOC.6) -/

/-- The register NOC_CORE_OT of a core. -/
def otKey (c : Nat) : Nat := cluBase (coreClu c) + 0x200 + 4 * coreSite c

/-- Floor and maximum in force: a core outside every partition has none (R282). -/
def otFloor (s : State) (c : Nat) : Nat := if (corePart s c).isSome then wFld (rget s (otKey c)) 15 8 else 0
def otMax (s : State) (c : Nat) : Nat := if (corePart s c).isSome then wFld (rget s (otKey c)) 23 16 else 0

/-- The WEIGHT that a core's requests carry (R277). -/
def otWeight (s : State) (c : Nat) : Nat := wFld (rget s (otKey c)) 25 24

/-! ## Master ports

0 to 4 351 cores, 4 352 + n tower managers, 4 368 + 4 h + i management processors, 4 384 + h maintenance schedulers, 4 388 + h page
movers, 4 392 the host port, 4 393 + p fabric ports. -/

/-- The number of master ports. -/
def nPorts : Nat := 4409

/-- The node of a master port. -/
def portNode (q : Nat) : Nat :=
  if q < 4352 then cluNode (coreClu q)
  else if q < 4368 then cluNode (16 * (q - 4352))
  else if q < 4384 then 256 + (q - 4368) / 4
  else if q < 4388 then 256 + (q - 4384)
  else if q < 4392 then 256 + (q - 4388)
  else if q = 4392 then 256
  else 256 + (q - 4393) / 4

/-- The cluster in which a port's counts stand; none for a hub agent. A tower manager sits at the router of C0. -/
def portClu (q : Nat) : Option Nat := if q < 4352 then some (coreClu q) else if q < 4368 then some (16 * (q - 4352)) else none

/-- Whether a port draws on the pool of its hub (Table NOC.4). -/
def hubPool (q : Nat) : Option Nat := if 4368 ≤ q && q < 4392 then some (portNode q - 256) else none

/-- Floor and maximum of a port. -/
def portFloor (s : State) (q : Nat) : Nat :=
  if q < 4352 then otFloor s q else if q < 4368 then 8 else if q < 4384 then 4 else if q < 4388 then 8 else if q < 4392 then 16
  else if q = 4392 then 64 else 32
def portMax (s : State) (q : Nat) : Nat :=
  if q < 4352 then otMax s q else if q < 4368 then 32 else if q < 4384 then 16 else if q < 4388 then 32 else if q < 4392 then 64
  else if q = 4392 then 512 else 128

/-- Slots of a kind (1 floor, 2 pool) that a set of ports holds. -/
def slotsHeld (s : State) (sel : Nat → Bool) (kind : Nat) : Nat := (s.net.txs.filter (fun t => sel t.port && t.slot == kind)).length

/-- The size of a cluster's pool (R282). -/
def cluPool (s : State) (k : Nat) : Nat := 512 - sumNat ((List.range 17).map (fun i => otFloor s (17 * k + i)))

/-- Pool slots of a cluster that are free. -/
def cluPoolFree (s : State) (k : Nat) : Nat := cluPool s k - slotsHeld s (fun q => q < 4352 && coreClu q == k) 2

/-- Whether the pool of a port's domain has a free slot; a port with a pool of its own has what its maximum leaves. -/
def poolFree (s : State) (q : Nat) : Bool :=
  if q < 4352 then decide (0 < cluPoolFree s (coreClu q))
  else
    match hubPool q with
    | some h => decide (slotsHeld s (fun x => hubPool x == some h) 2 < 256)
    | none => true

/-- The slot that a port's next request takes: 1 floor, 2 pool, 0 none (R281). -/
def slotFor (s : State) (q : Nat) : Nat :=
  let f := slotsHeld s (fun x => x == q) 1
  let p := slotsHeld s (fun x => x == q) 2
  if f < portFloor s q then 1 else if f + p < portMax s q && poolFree s q then 2 else 0

/-! ## The map in an interface -/

/-- The map in a port's interface: that before the oldest change whose commit it has still to take (R274). -/
def ifaceState (s : State) (q : Nat) : State :=
  match s.net.oldMaps[stGet (fun _ => 0) s.net.moved q]? with
  | some m => { s with map := m }
  | none => s

end Sys2Proof.Machine
end

