-- ==== Sys2Proof/Machine/Trap.lean ====
section
/-! DEFINITION. Tickets, traps, aborts and halts of a core, shared by every engine: R115 to R117, R139 to R143, R319. -/

namespace Sys2Proof.Machine

/-! ## Scalar and address registers -/

/-- Scalar register Xi: X0 reads zero (R109). -/
def xGet (s : State) (c i : Nat) : Word := if i = 0 then 0 else corReg s c (0x400 + 4 * i)

/-- Writes Xi; a write to X0 is discarded (R109). -/
def xSet (c i : Nat) (w : Word) (s : State) : State := if i = 0 then s else corSet c (0x400 + 4 * i) w s

/-- Changes the sequencer of a core. -/
def squpd (c : Nat) (f : SeqSt → SeqSt) (s : State) : State :=
  cupd c (fun k => { k with seq := f k.seq }) s

def sq (s : State) (c : Nat) : SeqSt := (cget s c).seq

/-! ## Held traps -/

/-- Whether a trap from a source is held. -/
def srcHeld (q : SeqSt) (src : Nat) : Bool := q.held.any (fun t => t.src == src)

/-- Holds a trap; a source holds at most one, and a further cause from it is not taken (R140). -/
def holdTrap (c : Nat) (t : HeldTrap) (s : State) : State :=
  if srcHeld (sq s c) t.src then s else squpd c (fun q => { q with held := q.held ++ [t] }) s

/-- Whether an engine may start a command: no trap of its own is held or being handled (R139). -/
def engineFree (q : SeqSt) (src : Nat) : Bool := !(srcHeld q src) && !(q.inTrap && q.curSrc == src)

/-- The held trap that is taken first: the lowest source code, which is the order of R140. -/
def firstHeld (q : SeqSt) : Option HeldTrap :=
  q.held.foldl (fun acc t => match acc with
    | none => some t
    | some u => if t.src < u.src then some t else some u) none

/-- The HELD mask of a list of held traps. -/
def heldMask (l : List HeldTrap) : Nat := l.foldl (fun m t => Nat.lor m (2 ^ t.src)) 0

/-! ## Tickets -/

def tkKey (c t : Nat) : Nat := coreBase c + 0x240 + 4 * t

/-- Ticket t of a core. -/
def tkGet (s : State) (c t : Nat) : Nat := wFld (rget s (tkKey c t)) 15 0

def tkPut (c t v : Nat) (s : State) : State := rset (tkKey c t) (BitVec.ofNat 32 (v % 65536)) s

/-- Adds to a ticket: above 65 535 it stays there and the ticket unit holds a trap naming ticket and source (R117), with the PC and the
word W0 of the instruction or command that incremented it. -/
def tkAdd (c t n src pc word : Nat) (s : State) : State :=
  if t = 0 then s
  else if tkGet s c t + n ≤ 65535 then tkPut c t (tkGet s c t + n) s
  else holdTrap c { src := 6, cause := 0x12, pc := pc, word := word, detail := t, detailHi := src }
    (tkPut c t 65535 s)

/-- The TW ticket condition of a command (R115). -/
def tkReady (s : State) (c tw : Nat) : Bool := tw == 0 || decide (1 ≤ tkGet s c tw)

/-- Takes the TW ticket at a command's start. -/
def tkTake (c tw : Nat) (s : State) : State := if tw = 0 then s else tkPut c tw (tkGet s c tw - 1) s

/-- The TS and TW fields that every engine command carries (R119). -/
def cmdTS (w0 : Nat) : Nat := fld w0 11 8
def cmdTW (w0 : Nat) : Nat := fld w0 7 4
def cmdOP (w0 : Nat) : Nat := fld w0 3 0

/-! ## Discarding, aborting, halting -/

/-- Discards the unstarted descriptors of a MOV channel and clears its status and HALT bit (R135). -/
def movClear (m : MovCh) : MovCh := { m with queue := [], status := 0, halted := false }

/-- Discards the descriptors of a channel that have not started. -/
def movDiscard (m : MovCh) : MovCh := { m with queue := [] }

/-- What the loader and the feeder have read for commands that remain: tile blocks for a started WLOAD, vector blocks for the next
STREAM unless that was discarded (R103). -/
def feedKeep (m : MxeSt) : MxeSt :=
  { m with feed := m.feed.filter (fun e =>
      if e.1 < 3072 then m.queue.any (fun q => q.started && !q.performed && cmdOP q.w0 == 1)
      else m.queue.any (fun q => !q.performed && cmdOP q.w0 == 2)) }

/-- Discards every command that has not started, in every queue and every channel of a core (R141). -/
def discardUnstarted (c : Nat) (s : State) : State :=
  let nb (k : ColSt) : ColSt := { k with nbu := { k.nbu with queue := k.nbu.queue.filter (·.started) } }
  colupd (2 * c + 1) nb (colupd (2 * c) nb
    (cupd c (fun k => { k with
      mxe := feedKeep { k.mxe with queue := k.mxe.queue.filter (·.started) }
      vxe := { k.vxe with queue := k.vxe.queue.filter (·.performed) }
      mov := k.mov.map movDiscard }) s))

/-- Fills COR_TRAP_REC0–7 (Table TILE.22); HELD shows the traps still held. CYCLE_LO is a count of cycles, which
this model does not keep: the field takes a free value. -/
def fillRec (c : Nat) (t : HeldTrap) (s : State) : State :=
  let rest := (sq s c).held.filter (fun u => u.src != t.src)
  let (cyc, s) := takeFree s
  let r (i v : Nat) (s : State) : State := corSet c (0x220 + 4 * i) (BitVec.ofNat 32 v) s
  r 7 0 <| r 6 cyc <| r 5 t.detailHi <| r 4 t.detail <| r 3 (t.word / 2 ^ 32) <| r 2 t.word <|
    r 1 (t.pc % 8192) <| r 0 (2 ^ 31 + t.src * 2 ^ 16 + heldMask rest * 2 ^ 8 + t.cause) s

/-- A halt request (R143): issue stops, commands that have not started are discarded, started ones finish. A
core that is aborting goes on with that. On a halted core it withdraws a START that still waits. DEDUCED (log entry
179). -/
def haltReqCore (c : Nat) (s : State) : State :=
  if (cget s c).halted then
    if (sq s c).startPend then squpd c (fun q => { q with startPend := false }) s else s
  else squpd c (fun q => { q with run := false, wait := 0, stop := if q.stop = 3 then 3 else 2, startPend := false }) (discardUnstarted c s)

/-- The cause of the trap that aborted a core, from its trap record. -/
def abortCause (s : State) (c : Nat) : Nat := wFld (corReg s c 0x220) 7 0

/-- A core's abort ends the step it computes for (R319): the other cores are halted as HALT_REQ does, and the step completes with
0x0309 once every core has halted. DETAIL names the core's index in the partition and the trap cause. -/
def abortStep (c : Nat) (s : State) : State :=
  match stepOf s c with
  | none => s
  | some p =>
    let d := (partCores s p).idxOf c + abortCause s c * 2 ^ 16
    let cs := (modelCores s p).filter (fun k => k != c)
    cs.foldl (fun s k => haltReqCore k s) (pupd p (fun q => { q with
      step := q.step.map (fun st => { st with phase := 2, status := 0x0309, detail := d, segs := [] }) }) s)

/-- Aborts the program (R141): issue stops and unstarted commands are discarded; HALTED follows once every started
command is idle. -/
def abortCore (c : Nat) (s : State) : State :=
  abortStep c (squpd c (fun q => { q with run := false, wait := 0, held := [], stop := 3 }) (discardUnstarted c s))

/-- Takes a trap (R140): the record is filled, EPC and IN_TRAP are set and the handler is entered, or the program is
aborted. `epc` is the instruction not yet executed. A trap that can no longer be handled aborts (R143). -/
def takeTrap (c : Nat) (t : HeldTrap) (epc : Nat) (s : State) : State :=
  let q := sq s c
  let s1 := tallyCore c 0x0141 1 none (fillRec c t s)
  let bad := (t.src == 0 && q.inTrap) || t.cause == 0x09 || !wBit (corReg s c 0x208) 31 || q.stop != 0
  if bad then
    abortCore c (squpd c (fun q => { q with epc := epc % 8192, inTrap := true, curSrc := t.src }) s1)
  else
    squpd c (fun q => { q with
      held := q.held.filter (fun u => u.src != t.src)
      epc := epc % 8192, inTrap := true, curSrc := t.src, wait := 0
      pc := wFld (corReg s c 0x208) 12 0 }) s1

/-- A trap that SEQ's own instruction raises: it is taken before the instruction has any effect (R139). -/
def seqTrap (c cause word detail detailHi : Nat) (s : State) : State :=
  takeTrap c { src := 0, cause := cause, pc := (sq s c).pc, word := word, detail := detail, detailHi := detailHi }
    (sq s c).pc s

/-- Every core with state of its own receives a halt request. -/
def haltAll (s : State) : State :=
  s.cores.foldl (fun s e => haltReqCore e.1 s) s

end Sys2Proof.Machine
end

