-- ==== Sys2Proof/Machine/Telem.lean ====
section
/-! DEFINITION. Records to the fleet manager: the telemetry ring, its hold queue and partition events (R449 to R451). -/

namespace Sys2Proof.Machine

/-- The 64 bytes of a telemetry record (Table CNT.9). -/
def telBytes (num : Nat) (r : TelRec) : List Byte :=
  leBytes 4 (r.ty % 256) ++ leBytes 4 num ++ leBytes 8 r.time ++ fitBytes 48 r.body

/-- Whether the ring is full: TAIL − HEAD = N (R450). -/
def telFull (t : Telem) : Bool := (t.tail + 2 ^ 32 - t.head) % 2 ^ 32 == t.n

/-- Whether 100 µs have passed since a message, given its time plus 1, 0 for none. -/
def noteFree (s : State) (at' : Nat) : Bool := at' == 0 || decide (at' + 99999 ≤ s.ns)

/-- Sends the ring's vector for a summary, at most once per 100 µs (R449): one that comes sooner waits. DESIGN CHOICE (log entry
151). -/
def sumSignal (s : State) : State :=
  let t := s.telem
  if noteFree s t.sumAt then sendMsix 0 t.vec { s with telem := { t with sumAt := s.ns + 1, sumDue := false } }
  else { s with telem := { t with sumDue := true } }

/-- Writes a record and then TAIL, and sends the vector (R449). -/
def telPut (r : TelRec) (s : State) : State :=
  let t := s.telem
  let s := fnSend 0 (.write (t.ring + 64 + 64 * (t.tail % t.n)) (telBytes t.tail r)) s
  let t' := (t.tail + 1) % 2 ^ 32
  let s := fnSend 0 (.write t.ring (leBytes 4 t')) { s with telem := { t with tail := t' } }
  if r.ty = 1 then sumSignal s else sendMsix 0 t.vec s

/-- Emits a record: a summary is dropped on a full ring; any other waits in the hold queue of 32 (R450). -/
def telEmit (r : TelRec) (s : State) : State :=
  let t := s.telem
  if t.on && !(telFull t) then telPut r s
  else if r.ty = 1 then
    (if t.on then { s with telem := { t with drop := min (t.drop + 1) 65535 } } else s)
  else if t.hold.length < 32 then { s with telem := { t with hold := t.hold ++ [r] } }
  else { s with telem := { t with wdrop := min (t.wdrop + 1) 255 } }

/-- Drains held records, oldest first, while the ring has room. -/
def telDrain : Nat → State → State
  | 0, s => s
  | n + 1, s =>
    match s.telem.hold with
    | [] => s
    | r :: rest =>
      if s.telem.on && !(telFull s.telem) then
        telDrain n (telPut r { s with telem := { s.telem with hold := rest } })
      else s

/-- Sends vector 31 of a partition's virtual function, at most once per 100 µs (R451): one that comes sooner waits.
DESIGN CHOICE (log entry 151). -/
def evSignal (p : Nat) (s : State) : State :=
  let t := s.telem
  if noteFree s (stGet (fun _ => 0) t.evAt p) then
    sendMsix (p + 1) 31 { s with telem := { t with evAt := stSet (fun _ => 0) t.evAt p (s.ns + 1), evDue := nsDel t.evDue p } }
  else { s with telem := { t with evDue := nsAdd t.evDue p } }

/-- A partition event (R451): a type 0x07 record, and vector 31 of the partition's virtual function once its entry is
programmed. -/
def partEvent (p cls code seq hub : Nat) (s : State) : State :=
  let body := leBytes 1 p ++ leBytes 1 cls ++ leBytes 2 code ++ leBytes 4 seq ++ leBytes 1 hub
  let s := telEmit { ty := 7, time := s.ns, body := body } s
  if (List.range 3).any (fun i => rget s (msixKey (p + 1) 31 i) != 0) then evSignal p s else s

end Sys2Proof.Machine
end

