-- ==== Sys2Proof/Machine/ErrLog.lean ====
section
/-! DEFINITION. The hubs' error logs and the fatal state: R404 to R409. -/

namespace Sys2Proof.Machine

/-- An error to be logged: the logging hub, code, partition, physical source, engine, logical name, address, detail. -/
structure ErrEv where
  hub : Nat
  code : Nat
  part : Option Nat
  source : Nat
  engine : Nat
  logical : Nat
  addr : Nat
  detail : Nat
  deriving DecidableEq, Repr

/-- The class of an error code (Table RAS.6). -/
def errClass (code : Nat) : Nat :=
  if code ∈ [0x0102, 0x0111, 0x0113, 0x0121, 0x0122, 0x0201, 0x0502] then 1
  else if code ∈ [0x0130, 0x0301] then 2
  else if code ∈ [0x0304, 0x0601, 0x0602] then 3
  else 0

/-- The device enters the fatal state (R408): FAULT_N is asserted and every core is halted as HALT_REQ does. -/
def enterFatal (s : State) : State := haltAll { s with fatal := true, faultN := true }

def newRec (e : ErrEv) (seq ns : Nat) : ErrRec :=
  { seq := seq, cls := errClass e.code, st := 0, part := e.part.getD 0, pvalid := e.part.isSome, code := e.code,
    time := ns, last := ns, source := e.source, engine := e.engine, logical := e.logical, addr := e.addr, rep := 0,
    detail := e.detail }

/-- Rule 1: an open or handled-now record of the same SOURCE, ENGINE, CODE and PART. -/
def sameErr (e : ErrEv) (r : ErrRec) : Bool :=
  decide (r.st ≤ 1) && r.source == e.source && r.engine == e.engine && r.code == e.code &&
    r.part == e.part.getD 0 && r.pvalid == e.part.isSome

/-- The slot of the oldest record that satisfies `p`: the one whose SEQ lies furthest behind the next. -/
def oldestSlot (next : Nat) (p : ErrRec → Bool) (log : List (Nat × ErrRec)) : Option Nat :=
  ((log.filter (fun x => p x.2)).foldl (fun acc x => match acc with
    | none => some (x.1, (next + 2 ^ 32 - x.2.seq) % 2 ^ 32)
    | some (k, a) =>
      let b := (next + 2 ^ 32 - x.2.seq) % 2 ^ 32
      if a < b then some (x.1, b) else some (k, a)) none).map Prod.fst

/-- The lowest slot that holds no record. -/
def freeSlot (log : List (Nat × ErrRec)) : Option Nat :=
  (List.range 256).find? (fun k => !log.any (fun x => x.1 == k))

def putSlot (k : Nat) (r : ErrRec) (log : List (Nat × ErrRec)) : List (Nat × ErrRec) :=
  stIns k r (stDel log k)

/-- Applies the rules of R407 to one hub's log: the hub and whether an uncorrectable error found no room. -/
def logInto (e : ErrEv) (ns : Nat) (u : HubSt) : HubSt × Bool :=
  let fresh (k : Nat) (u : HubSt) : HubSt :=
    { u with log := putSlot k (newRec e u.nextSeq ns) u.log, nextSeq := (u.nextSeq + 1) % 2 ^ 32, lastSlot := some k }
  match u.log.find? (fun x => sameErr e x.2) with
  | some (k, r) =>
    ({ u with log := putSlot k { r with rep := min (r.rep + 1) (2 ^ 32 - 1), last := ns } u.log, lastSlot := some k },
      false)
  | none =>
    match freeSlot u.log with
    | some k => (fresh k u, false)
    | none =>
      match oldestSlot u.nextSeq (fun r => r.st == 3) u.log with
      | some k => (fresh k u, false)
      | none =>
        match oldestSlot u.nextSeq (fun r => r.cls == 0) u.log with
        | some k => ({ fresh k u with overwritten := min (u.overwritten + 1) 127 }, false)
        | none =>
          if errClass e.code = 0 then ({ u with dropped := min (u.dropped + 1) 127 }, false) else (u, true)

/-- Sends a hub's vector, at most once per 100 µs (R409): a message that comes sooner waits. DESIGN CHOICE (log entry 151). -/
def hubSignal (h : Nat) (s : State) : State :=
  let u := hget s h
  if noteFree s u.noteAt then
    sendMsix 0 (wFld (rget s (hubBase h + 0x5000C)) 10 0) (hset h { u with noteAt := s.ns + 1, noteDue := false } s)
  else hset h { u with noteDue := true } s

/-- Sends the messages that have waited for their 100 µs. -/
def sendNotes (s : State) : State :=
  let s := iter 4 (fun h s => if (hget s h).noteDue then hubSignal h s else s) s
  let s := if s.telem.sumDue then sumSignal s else s
  s.telem.evDue.foldl (fun s p => evSignal p s) s

/-- Whether a message waits for its 100 µs. -/
def notesDue (s : State) : Bool := (List.range 4).any (fun h => (hget s h).noteDue) || !s.telem.evDue.isEmpty || s.telem.sumDue

/-- The notice a log write sends (R409): the hub's vector when its class is enabled, and the partition's vector 31. -/
def errNotice (e : ErrEv) (s : State) : State :=
  let ctl := rget s (hubBase e.hub + 0x5000C)
  let on := if errClass e.code = 0 then wBit ctl 30 else wBit ctl 31
  let s := if on then hubSignal e.hub s else s
  let s := tallyHub e.hub 0x0540 1 none s
  let u := hget s e.hub
  match e.part with
  | some p =>
    let seq := match u.log.find? (fun x => some x.1 == u.lastSlot) with
      | some x => x.2.seq
      | none => 0
    partEvent p (errClass e.code) e.code seq e.hub s
  | none => s

/-- Logs an error (R407). An uncorrectable error that finds no room logs 0x0601 in H0 and the device becomes fatal.
H0 logs for an absent hub (R22). -/
def logErr (e : ErrEv) (s : State) : State :=
  let e := if (hget s e.hub).lost then { e with hub := 0 } else e
  let (u, full) := logInto e s.ns (hget s e.hub)
  if full then
    let e6 : ErrEv := { hub := 0, code := 0x0601, part := none, source := srcIndex 1 e.hub, engine := 18, logical := 0,
                        addr := 0, detail := 0 }
    enterFatal (errNotice e6 (hset 0 (logInto e6 s.ns (hget s 0)).1 s))
  else errNotice e (hset e.hub u s)

/-- An error of a core's own memories and engines. -/
def coreErr (c code engine detail : Nat) (part : Option Nat) (s : State) : State :=
  logErr { hub := homeHub (coreTower c), code := code, part := part, source := srcCore c, engine := engine,
           logical := logicalField s c, addr := 0, detail := detail } s

/-- A parity error at the reader of a crossing FIFO, logged as an error of the crossing's destination die (R34). -/
def crossErr (source hub : Nat) (part : Option Nat) (addr : Nat) (s : State) : State :=
  logErr { hub := hub, code := 0x0201, part := part, source := source, engine := 11, logical := 0, addr := addr, detail := 0 } s

end Sys2Proof.Machine
end

