-- ==== Sys2Proof/Machine/Num.lean ====
section
/-! DEFINITION. Numeric formats and exact arithmetic with one rounding: Tables MXE.2, MXE.4, TILE.8 to TILE.10. -/

namespace Sys2Proof.Machine

/-- A floating-point value, exactly: a finite one is (−1)^neg · m · 2^e and keeps the sign of a zero. -/
inductive Fl where
  | nan (neg : Bool)
  | inf (neg : Bool)
  | fin (neg : Bool) (m : Nat) (e : Int)
  deriving DecidableEq, Repr

/-- How a format uses its top codes: IEEE infinities and NaNs, the single E4M3 NaN, or none. -/
inductive Special where
  | ieee
  | e4m3
  | none
  deriving DecidableEq, Repr

/-- A floating-point format: exponent bits, mantissa bits, special codes. -/
structure FlFmt where
  eb : Nat
  mb : Nat
  sp : Special
  deriving DecidableEq, Repr

def fp32 : FlFmt := ⟨8, 23, .ieee⟩
def bf16 : FlFmt := ⟨8, 7, .ieee⟩
def fp16 : FlFmt := ⟨5, 10, .ieee⟩
def e4m3 : FlFmt := ⟨4, 3, .e4m3⟩
def e5m2 : FlFmt := ⟨5, 2, .ieee⟩
def e2m3 : FlFmt := ⟨2, 3, .none⟩
def e3m2 : FlFmt := ⟨3, 2, .none⟩
def e2m1 : FlFmt := ⟨2, 1, .none⟩

/-- The exponent of the format's least subnormal bit. -/
def FlFmt.emin (f : FlFmt) : Int := 2 - ((2 ^ (f.eb - 1) : Nat) : Int) - f.mb

/-- The largest finite magnitude code. -/
def FlFmt.maxCode (f : FlFmt) : Nat :=
  match f.sp with
  | .ieee => (2 ^ f.eb - 1) * 2 ^ f.mb - 1
  | .e4m3 => 2 ^ (f.eb + f.mb) - 2
  | .none => 2 ^ (f.eb + f.mb) - 1

/-- The code of an infinity, or the NaN of a format without one, less its sign. -/
def FlFmt.infCode (f : FlFmt) : Nat := f.maxCode + 1

/-- The canonical NaN code, less its sign (Table TILE.9). -/
def FlFmt.nanCode (f : FlFmt) : Nat :=
  match f.sp with
  | .ieee => f.maxCode + 1 + 2 ^ (f.mb - 1)
  | _ => f.maxCode + 1

/-- The value of a code. -/
def flDecode (f : FlFmt) (code : Nat) : Fl :=
  let neg := bitAt code (f.eb + f.mb)
  let c := code % 2 ^ (f.eb + f.mb)
  let ex := c / 2 ^ f.mb
  let man := c % 2 ^ f.mb
  if c > f.maxCode then
    (if f.sp = .ieee && man = 0 then .inf neg else .nan neg)
  else if ex = 0 then .fin neg man f.emin
  else .fin neg (man + 2 ^ f.mb) (f.emin + ((ex - 1 : Nat) : Int))

/-- `m / 2^sh`, rounded to nearest, ties to even. -/
def rneShift (m sh : Nat) : Nat :=
  let q := m >>> sh
  let r := m % 2 ^ sh
  if sh = 0 then m
  else if 2 * r > 2 ^ sh || (2 * r = 2 ^ sh && q % 2 = 1) then q + 1 else q

/-- Rounds m · 2^e to `p` significant bits and an exponent of at least `emin`, to nearest, ties to even. -/
def roundTo (p : Nat) (emin : Int) (m : Nat) (e : Int) : Nat × Int :=
  if m = 0 then (0, emin)
  else
    let e' := max (e + ((Nat.log2 m + 1 : Nat) : Int) - p) emin
    if e' ≤ e then (m <<< (e - e').toNat, e')
    else
      let q := rneShift m (e' - e).toNat
      if q = 2 ^ p then (2 ^ (p - 1), e' + 1) else (q, e')

/-- The magnitude code of m · 2^e in a format, unbounded above: rounding gives the code after overflow checks. -/
def magCode (f : FlFmt) (m : Nat) (e : Int) : Nat :=
  let (q, e') := roundTo (f.mb + 1) f.emin m e
  if q < 2 ^ f.mb then q
  else ((e' - f.emin).toNat + 1) * 2 ^ f.mb + (q - 2 ^ f.mb)

/-- Narrows a value to a format (Table TILE.9): the code, and whether the result saturated or overflowed. -/
def flEncode (f : FlFmt) (sat : Bool) (v : Fl) : Nat × Bool :=
  let sg (neg : Bool) := if neg then 2 ^ (f.eb + f.mb) else 0
  match v with
  | .nan neg => (sg neg + f.nanCode, false)
  | .inf neg =>
    if f.sp = .ieee then (sg neg + f.infCode, false)
    else if sat then (sg neg + f.maxCode, true)
    else (sg neg + f.infCode, true)
  | .fin neg m e =>
    let c := magCode f m e
    if c > f.maxCode then (sg neg + (if sat then f.maxCode else f.infCode), true)
    else (sg neg + c, false)

/-- The FP32 code of a value, one rounding; any NaN is 0x7FC0_0000 (R88). The flag reports a finite overflow. -/
def f32Code (v : Fl) : Nat × Bool :=
  match v with
  | .nan _ => (0x7FC00000, false)
  | v => flEncode fp32 false v

/-- The value of FP32 bits. -/
def f32 (w : Word) : Fl := flDecode fp32 w.toNat

/-- A value of a signed integer times 2^e. -/
def flOfInt (i : Int) (e : Int) : Fl := .fin (decide (i < 0)) i.natAbs e

def Fl.isNan : Fl → Bool
  | .nan _ => true
  | _ => false

def Fl.isZero : Fl → Bool
  | .fin _ 0 _ => true
  | _ => false

def Fl.neg : Fl → Bool
  | .nan n => n
  | .inf n => n
  | .fin n _ _ => n

def Fl.flip : Fl → Fl
  | .nan n => .nan (!n)
  | .inf n => .inf (!n)
  | .fin n m e => .fin (!n) m e

/-- An exact product; the flag reports a NaN made of non-NaN inputs (infinity times zero). -/
def flMul (a b : Fl) : Fl × Bool :=
  let n := a.neg != b.neg
  match a, b with
  | .nan _, _ => (.nan false, false)
  | _, .nan _ => (.nan false, false)
  | .inf _, x => if x.isZero then (.nan false, true) else (.inf n, false)
  | x, .inf _ => if x.isZero then (.nan false, true) else (.inf n, false)
  | .fin _ m e, .fin _ m' e' => (.fin n (m * m') (e + e'), false)

/-- A value times a power of two. -/
def flScale (v : Fl) (k : Int) : Fl :=
  match v with
  | .fin n m e => .fin n m (e + k)
  | v => v

/-- The least exponent among the finite terms. -/
def flMinExp (ts : List Fl) : Int :=
  ts.foldl (fun acc t => match t with
    | .fin _ m e => if m = 0 then acc else min acc e
    | _ => acc) 0

/-- A finite term as a multiple of 2^e0. -/
def flMant (e0 : Int) : Fl → Int
  | .fin n m e =>
    let k := ((m <<< (e - e0).toNat : Nat) : Int)
    if m = 0 then 0 else if n then -k else k
  | _ => 0

/-- The exact sum of terms. Zero results follow R88: −0 only when every term is a zero of negative sign. The flag
reports a NaN made of non-NaN inputs (infinities of opposite sign). -/
def flSum (ts : List Fl) : Fl × Bool :=
  if ts.any Fl.isNan then (.nan false, false)
  else if ts.any (· == .inf false) then
    (if ts.any (· == .inf true) then (.nan false, true) else (.inf false, false))
  else if ts.any (· == .inf true) then (.inf true, false)
  else
    let e0 := flMinExp ts
    let s := (ts.map (flMant e0)).foldl (· + ·) 0
    if s = 0 then (.fin (!ts.isEmpty && ts.all (fun t => t.isZero && t.neg)) 0 0, false)
    else (.fin (decide (s < 0)) s.natAbs e0, false)

/-- The exponent of the leading bit of a nonzero finite value. -/
def flTop : Fl → Option Int
  | .fin _ m e => if m = 0 then none else some (e + (Nat.log2 m : Nat))
  | _ => none

/-- Discards the magnitude bits of a term below 2^q (Table MXE.4, 16-bit formats). -/
def flTrunc (q : Int) : Fl → Fl
  | .fin n m e => if q ≤ e then .fin n m e else .fin n (m >>> (q - e).toNat) q
  | v => v

/-- The terms truncated below 2^(e_max − 48), e_max the largest exponent among them. -/
def flAlign (ts : List Fl) : List Fl :=
  match (ts.filterMap flTop) with
  | [] => ts
  | t :: r => ts.map (flTrunc ((r.foldl max t) - 48))

/-- Orders two non-NaN values: whether a > b. -/
def flGt (a b : Fl) : Bool :=
  match a, b with
  | .nan _, _ => false
  | _, .nan _ => false
  | .inf false, .inf false => false
  | .inf false, _ => true
  | _, .inf false => false
  | _, .inf true => !(a == .inf true)
  | .inf true, _ => false
  | a, b =>
    let e0 := flMinExp [a, b]
    decide (flMant e0 a > flMant e0 b)

/-! ## Conversions (Tables TILE.8, TILE.9) -/

/-- Container size in bytes of an element format of Table TILE.8. -/
def elemBytes (c : Nat) : Nat :=
  if c = 1 || c = 7 then 4 else if c = 2 || c = 3 then 2 else 1

/-- The float format of a Table TILE.8 code, if it is one. -/
def elemFl (c : Nat) : Option FlFmt :=
  if c = 1 then some fp32 else if c = 2 then some bf16 else if c = 3 then some fp16
  else if c = 4 then some e4m3 else if c = 5 then some e5m2 else none

/-- The integer width of a Table TILE.8 code. -/
def elemInt (c : Nat) : Nat := if c = 7 then 32 else 8

/-- A finite value rounded to an integer, to nearest, ties to even. -/
def flToInt (m : Nat) (e : Int) : Nat :=
  if 0 ≤ e then m <<< e.toNat else rneShift m (-e).toNat

/-- An integer saturated to `n` bits: the code and whether it saturated. -/
def satInt (n : Nat) (i : Int) : Nat × Bool :=
  let hi := ((2 ^ (n - 1) : Nat) : Int) - 1
  if i > hi then (unsignedOf n hi, true)
  else if i < -hi - 1 then (unsignedOf n (-hi - 1), true)
  else (unsignedOf n i, false)

/-- Converts one element (Table TILE.9): the code, the count for SAT, the count for CVT_NAN. -/
def convert (sf df : Nat) (sat : Bool) (code : Nat) : Nat × Nat × Nat :=
  if sf = df then (code, 0, 0)
  else
    match elemFl sf, elemFl df with
    | some f, some g =>
      let (c, o) := flEncode g sat (flDecode f code)
      (c, b2n o, 0)
    | some f, none =>
      (match flDecode f code with
       | .nan _ => (0, 0, 1)
       | .inf neg =>
         let hi : Int := ((2 ^ (elemInt df - 1) : Nat) : Int)
         (unsignedOf (elemInt df) (if neg then -hi else hi - 1), 1, 0)
       | .fin neg m e =>
         let k := ((flToInt m e : Nat) : Int)
         let (c, o) := satInt (elemInt df) (if neg then -k else k)
         (c, b2n o, 0))
    | none, some g =>
      let (c, o) := flEncode g sat (flOfInt (signed (elemInt sf) code) 0)
      (c, b2n o, 0)
    | none, none =>
      let (c, o) := satInt (elemInt df) (signed (elemInt sf) code)
      (c, b2n o, 0)

/-! ## FP32 operations of the vector engine and of atomics -/

/-- Rounds to FP32 bits and reports whether a finite result overflowed or a NaN came of non-NaN inputs. -/
def f32Round (r : Fl × Bool) : Nat × Bool :=
  let (c, o) := f32Code r.1
  (c, o || r.2)

/-- IEEE 754 addition, round to nearest even. -/
def f32Add (a b : Nat) : Nat × Bool := f32Round (flSum [flDecode fp32 a, flDecode fp32 b])

/-- IEEE 754 multiplication. -/
def f32Mul (a b : Nat) : Nat × Bool := f32Round (flMul (flDecode fp32 a) (flDecode fp32 b))

/-- Fused multiply-add with one rounding. -/
def f32Fma (a b c : Nat) : Nat × Bool :=
  let (p, made) := flMul (flDecode fp32 a) (flDecode fp32 b)
  let (s, made') := flSum [p, flDecode fp32 c]
  if (flDecode fp32 c).isNan then (0x7FC00000, false) else f32Round (s, made || made')

/-! ## The exponential (correctly rounded) and the bounded functions -/

/-- Fixed-point precision of the exponential: 2^-256. -/
def expBits : Nat := 256

/-- The natural logarithm of 2, as a multiple of 2^-256. -/
def ln2Fix : Int := 80260960185991308862233904206310070533990667611589946606122867505419956976171

/-- Taylor terms of e^x for a fixed-point x: the partial sum from term k on, `n` terms. -/
def expTaylor (x : Int) : Nat → Nat → Int → Int → Int
  | 0, _, _, acc => acc
  | n + 1, k, term, acc =>
    expTaylor x n (k + 1) ((term * x / ((2 ^ expBits : Nat) : Int)) / ((k + 1 : Nat) : Int)) (acc + term)

/-- Squares a fixed-point number `n` times. -/
def expSquare : Nat → Int → Int
  | 0, x => x
  | n + 1, x => expSquare n (x * x / ((2 ^ expBits : Nat) : Int))

/-- e^x in fixed point, for a fixed-point |x| below 2^7. -/
def expFix (x : Int) : Nat :=
  (expSquare 8 (expTaylor (x / 256) 60 0 ((2 ^ expBits : Nat) : Int) 0)).toNat

/-- A finite value as fixed point (exact for every FP32 value). -/
def toFix (neg : Bool) (m : Nat) (e : Int) : Int :=
  let k : Int := if 0 ≤ e + expBits then ((m <<< (e + expBits).toNat : Nat) : Int)
    else ((m >>> (-(e + expBits)).toNat : Nat) : Int)
  if neg then -k else k

/-- e^v, correctly rounded to FP32 (Table TILE.10, R226): the code, and whether it counts in COR_VXE_NUM. -/
def f32Exp (w : Nat) : Nat × Bool :=
  match flDecode fp32 w with
  | .nan _ => (0x7FC00000, false)
  | .inf true => (0, false)
  | .inf false => (0x7F800000, false)
  | .fin neg m e =>
    let x := toFix neg m e
    if x > 90 * ((2 ^ expBits : Nat) : Int) then (0x7F800000, true)
    else if x < -110 * ((2 ^ expBits : Nat) : Int) then (0, false)
    else if x = 0 then (0x3F800000, false)
    else f32Code (.fin false (expFix x) (-(expBits : Int)))

/-- A member of `lo, …, hi` chosen by an open choice. -/
def pickIn (lo hi k : Nat) : Nat := lo + k % (hi + 1 - lo)

/-- The largest FP32 magnitude code whose value does not exceed m · 2^e, with more bits below it or none. -/
def floorCode (m : Nat) (e : Int) : Nat :=
  if m = 0 then 0
  else
    let e' := max (e + ((Nat.log2 m + 1 : Nat) : Int) - 24) (-149)
    let q := if e' ≤ e then m <<< (e - e').toNat else m >>> (e' - e).toNat
    if q < 2 ^ 23 then q else ((e' + 149).toNat + 1) * 2 ^ 23 + (q - 2 ^ 23)

/-- A positive result within `u` units in the last place of m · 2^e; the open choice picks which. -/
def withinUlp (u : Nat) (exact : Bool) (m : Nat) (e : Int) (k : Nat) : Nat × Bool :=
  let t := floorCode m e
  if t ≥ 0x7F800000 then (0x7F800000, true)
  else
    let c := pickIn (if exact then t - u else t + 1 - u) (t + u) k
    if c ≥ 0x7F800000 then (0x7F800000, true) else (c, false)

/-- 2^v within 1 ulp. -/
def f32Exp2 (w : Nat) : Nat × Bool :=
  match flDecode fp32 w with
  | .nan _ => (0x7FC00000, false)
  | .inf true => (0, false)
  | .inf false => (0x7F800000, false)
  | .fin neg m e =>
    let x := toFix neg m e
    let one : Int := ((2 ^ expBits : Nat) : Int)
    if x ≥ 128 * one then (0x7F800000, true)
    else if x < -152 * one then (pickIn 0 1 (Config.sfuPick 1 w), false)
    else
      let ip := x / one
      let fp := x % one
      withinUlp 1 (fp = 0) (expFix (fp * ln2Fix / one)) (ip - expBits) (Config.sfuPick 1 w)

/-- 1 / v within 1 ulp. Results that overflow become +∞ (Table TILE.10's notes). -/
def f32Rcp (w : Nat) : Nat × Bool :=
  match flDecode fp32 w with
  | .nan _ => (0x7FC00000, false)
  | .inf neg => (if neg then 0x80000000 else 0, false)
  | .fin neg m e =>
    if m = 0 then (if neg then 0xFF800000 else 0x7F800000, false)
    else
      let q := 2 ^ 400 / m
      let (c, o) := withinUlp 1 (2 ^ 400 % m = 0) q (-e - 400) (Config.sfuPick 2 w)
      if o then (0x7F800000, true) else (c + (if neg then 0x80000000 else 0), false)

/-- The integer square root, bit by bit from bit `n - 1` down, above a partial root. -/
def isqrt : Nat → Nat → Nat → Nat
  | 0, _, r => r
  | n + 1, v, r => if (r + 2 ^ n) * (r + 2 ^ n) ≤ v then isqrt n v (r + 2 ^ n) else isqrt n v r

/-- 1 / √v within 2 ulp. The manual states no result for −0: that one value is open. -/
def f32Rsq (w : Nat) : Nat × Bool :=
  match flDecode fp32 w with
  | .nan _ => (0x7FC00000, false)
  | .inf neg => if neg then (0x7FC00000, true) else (0, false)
  | .fin neg m e =>
    if m = 0 then (if neg then Config.sfuPick 3 w % 2 ^ 32 else 0x7F800000, false)
    else if neg then (0x7FC00000, true)
    else
      let m' := if e % 2 = 0 then m else 2 * m
      let e' := if e % 2 = 0 then e else e - 1
      let q := isqrt 320 (2 ^ 600 / m') 0
      withinUlp 2 (q * q * m' = 2 ^ 600) q (-(e' / 2) - 300) (Config.sfuPick 3 w)

/-- A NaN of the vector engine: its sign and payload are open (R123 states only that it is a NaN). -/
def vxeNan (a b c : Nat) : Nat :=
  let k := Config.vxeNan a b c
  0x7F800001 + k % (2 ^ 23 - 1) + (k / 2 ^ 23 % 2) * 2 ^ 31

/-! ## Philox-4x32-10 (R126) -/

/-- One Philox round on counter words with a round key. -/
def philoxRound (c : Nat × Nat × Nat × Nat) (k0 k1 : Nat) : Nat × Nat × Nat × Nat :=
  let (c0, c1, c2, c3) := c
  let p0 := 0xD2511F53 * c0
  let p1 := 0xCD9E8D57 * c2
  (Nat.xor (Nat.xor (p1 / 2 ^ 32) c1) k0, p1 % 2 ^ 32, Nat.xor (Nat.xor (p0 / 2 ^ 32) c3) k1, p0 % 2 ^ 32)

/-- `n` Philox rounds with the key bumped by the Weyl constants between rounds. -/
def philox : Nat → Nat × Nat × Nat × Nat → Nat → Nat → Nat × Nat × Nat × Nat
  | 0, c, _, _ => c
  | n + 1, c, k0, k1 => philox n (philoxRound c k0 k1) ((k0 + 0x9E3779B9) % 2 ^ 32) ((k1 + 0xBB67AE85) % 2 ^ 32)

/-- The uniform value of one lane: (w >> 8) × 2^-24 of the first output word, as FP32 bits. -/
def rngLane (key ctr lane : Nat) : Nat :=
  let w := (philox 10 (ctr, lane, 0, 0) (key % 2 ^ 32) (key / 2 ^ 32 % 2 ^ 32)).1
  (f32Code (.fin false (w >>> 8) (-24))).1

end Sys2Proof.Machine
end

