-- ==== Sys2Proof/Machine/Sram.lean ====
section
/-! DEFINITION. Scratchpads, instruction memory and cluster shared SRAM: geometry, protection code, written bits, narrow
writes and bank atomics (R53 to R80). Memories are numbered 0 WSP, 1 ASP, 2 PSP, 3 IMEM. -/

namespace Sys2Proof.Machine

/-! ## Geometry -/

/-- Blocks of a memory (Table CORE.2, R75). -/
def memBlocks (m : Nat) : Nat := listAt [3072, 2048, 1024, 1024] m 0

/-- The first block of a memory in the core's block numbering: the unified order of Table CORE.7, then IMEM. -/
def memFirst (m : Nat) : Nat := listAt [0, 3072, 5120, 6144] m 0

/-- The memory that holds a block of the core's numbering, and the block's index in it. -/
def memOfBlk (b : Nat) : Nat × Nat :=
  if b < 3072 then (0, b) else if b < 5120 then (1, b - 3072) else if b < 6144 then (2, b - 5120) else (3, b - 6144)

def spKey (c b : Nat) : Nat := c * 2 ^ 19 + b * 64
def spChkKey (c b : Nat) : Nat := (c * 8192 + b) * 16
def spWrKey (c b : Nat) : Nat := c * 8192 + b

/-- Whether the bank group of a block is powered and usable (R62, R63); IMEM has no groups. -/
def groupOn (s : State) (c m b : Nat) : Bool :=
  m == 3 || wBit (corReg s c 0x20) (16 + 4 * m + b / (memBlocks m / 4))

/-- Whether a requester code owns a slot of a scratchpad (R57, R59). In unified mode the fixed map holds: SEQ and the test engine
own four slots each (R66). -/
def hasSlot (s : State) (c m code : Nat) : Bool :=
  m == 3 || if (cget s c).unified then code == 6 || code == 7 else (List.range 8).any (fun i => wFld (corReg s c (0x10 + 4 * m)) (4 * i + 3) (4 * i) == code)

/-! ## The protection code of R69 -/

/-- The parity of a byte. -/
def byteParity (b : Byte) : Nat := (List.range 8).foldl (fun p i => (p + (b.toNat >>> i)) % 2) 0

/-- Packs bits, lowest first, into bytes. -/
def packBits (n : Nat) (f : Nat → Nat) : List Byte :=
  (List.range n).map (fun i => BitVec.ofNat 8 ((List.range 8).foldl (fun a k => a + f (8 * i + k) * 2 ^ k) 0))

/-- Row parity: one even-parity bit over each byte of each word, which is each byte of the block. -/
def rowParity (d : List Byte) : List Byte := packBits 8 (fun i => byteParity (listAt d i 0))

/-- Column parity: the exclusive or of the eight words. -/
def colParity (d : List Byte) : List Byte :=
  (List.range 8).map (fun y => (List.range 8).foldl (fun x w => x ^^^ listAt d (8 * w + y) 0) 0)

/-- The 16 check bytes of a block. -/
def sramCheck (d : List Byte) : List Byte := rowParity d ++ colParity d

/-- The check bytes of stored poison: every row-parity bit inverted, the column parity correct (R70). -/
def poisonCheck (d : List Byte) : List Byte := (rowParity d).map (fun b => ~~~b) ++ colParity d

/-- The bit positions in which two byte lists differ. -/
def diffBits (a b : List Byte) : List Nat :=
  (List.range (8 * a.length)).filter (fun i =>
    bitAt (listAt a (i / 8) 0).toNat (i % 8) != bitAt (listAt b (i / 8) 0).toNat (i % 8))

/-- The outcome of decoding a block (Table CORE.9). -/
inductive Ecc where
  | clean (d : List Byte)
  | corrected (d : List Byte)
  | poison
  | bad
  deriving DecidableEq, Repr

/-- Inverts bit k of byte i. -/
def flipBit (d : List Byte) (i k : Nat) : List Byte := d.set i (listAt d i 0 ^^^ BitVec.ofNat 8 (2 ^ k))

/-- Decodes a block and its check bytes (Table CORE.9). -/
def eccDecode (d chk : List Byte) : Ecc :=
  let rows := diffBits (rowParity d) (chk.take 8)
  let cols := diffBits (colParity d) (chk.drop 8)
  match rows, cols with
  | [], [] => .clean d
  | [_], [] => .corrected d
  | [], [_] => .corrected d
  | [r], [j] => if j / 8 = r % 8 then .corrected (flipBit d r (j % 8)) else .bad
  | rows, [] => if rows.length = 64 then .poison else .bad
  | _, _ => .bad

/-! ## Scratchpad and IMEM blocks -/

/-- Whether a block has been written since allocation (R73). -/
def spWritten (s : State) (c b : Nat) : Bool := nsHas s.spWr (spWrKey c b)

/-- Records an event of COR_SP_LAST: kind 0 uncorrectable, 1 stored poison, 2 unwritten (Table CORE.12). -/
def spLast (c b kind : Nat) (s : State) : State :=
  let (m, i) := memOfBlk b
  corSet c 0x34 (BitVec.ofNat 32 (2 ^ 31 + m * 2 ^ 28 + kind * 2 ^ 26 + i)) s

/-- Reads a block as a reader receives it (R71, R72): a pending merge serves the read; an unwritten, poisoned or
uncorrectable block delivers none, and the counters and the log record the event. Poison served from a pending merge is no event of
COR_SP_LAST. DESIGN CHOICE (log entry 50). -/
def spRead (c b : Nat) (s : State) : Option (List Byte) × State :=
  match (cget s c).merges.reverse.find? (fun g => g.blk == b) with
  | some g => (if g.poison then none else some g.data, s)
  | none =>
    if !spWritten s c b then (none, spLast c b 2 (corUpd c 0x30 (fun w => wSatAdd w 23 16 1) s))
    else
      match eccDecode (memRead s.sp (spKey c b) 64) (memRead s.spChk (spChkKey c b) 16) with
      | .clean d => (some d, s)
      | .corrected d =>
        (some d, tallyCore c 0x0150 1 none
          (coreErr c 0x0101 0 b (corePart s c) (corUpd c 0x30 (fun w => wSatAdd w 15 0 1) s)))
      | .poison => (none, spLast c b 1 s)
      | .bad => (none, coreErr c 0x0102 0 b (corePart s c) (spLast c b 0 (corUpd c 0x30 (fun w => wSatAdd w 31 24 1) s)))

/-- Stores a block's bytes and check bytes and sets its written bit. -/
def spStore (c b : Nat) (d chk : List Byte) (s : State) : State :=
  { s with sp := memWrite s.sp (spKey c b) d
           spChk := memWrite s.spChk (spChkKey c b) chk
           spWr := nsAdd s.spWr (spWrKey c b) }

/-- Gives a full write's contents to the pending merges of its block (R61). -/
def mergeFull (c b : Nat) (d : List Byte) (poison : Bool) (s : State) : State :=
  cupd c (fun k => { k with merges := k.merges.map (fun g =>
    if g.blk == b then { g with data := d, poison := poison } else g) }) s

/-- A whole-block write (R61). -/
def spWrite (c b : Nat) (d : List Byte) (s : State) : State :=
  mergeFull c b d false (spStore c b d (sramCheck d) s)

/-- Writes a block as stored poison (R70). The data under it, which no reader receives, is zero. -/
def spPoison (c b : Nat) (s : State) : State :=
  mergeFull c b (zeros 64) true (spStore c b (zeros 64) (poisonCheck (zeros 64)) s)

/-- A write narrower than a block (R61, R74): merged and left pending, or, on an unwritten block, written at once with
zeros elsewhere. -/
def spNarrow (c b off : Nat) (v : List Byte) (s : State) : State :=
  if !spWritten s c b then spWrite c b (putBytes (zeros 64) off v) s
  else
    let (d, s) := spRead c b s
    let g : Merge := match d with
      | some d => { blk := b, data := putBytes d off v, poison := false }
      | none => { blk := b, data := zeros 64, poison := true }
    cupd c (fun k => { k with merges := k.merges ++ [g] }) s

/-- Whether some valid region lets a requester (0 SEQ, 1 test engine) reach a unified block (R67). -/
def uniAllows (s : State) (c owner b : Nat) (write : Bool) : Bool :=
  (List.range 8).any (fun i =>
    let w := corReg s c (0x40 + 4 * i)
    wBit w 31 && wFld w 30 30 == owner && (!write || wBit w 29) && decide (wFld w 12 0 ≤ b) && decide (b ≤ wFld w 25 13))

/-- A write to IMEM narrower than a block, or to cluster SRAM: an immediate read-modify-write. -/
def spNarrowNow (c b off : Nat) (v : List Byte) (s : State) : State :=
  if !spWritten s c b then spWrite c b (putBytes (zeros 64) off v) s
  else
    let (d, s) := spRead c b s
    match d with
    | some d => spWrite c b (putBytes d off v) s
    | none => spPoison c b s

/-- Writes the oldest pending merge of a core back with new check bits (R61). -/
def writeBack (c : Nat) (s : State) : State :=
  match (cget s c).merges with
  | [] => s
  | g :: rest =>
    let s := cupd c (fun k => { k with merges := rest }) s
    spStore c g.blk g.data (if g.poison then poisonCheck g.data else sramCheck g.data) s

/-- Writes bytes at a byte offset of a memory, block by block: whole blocks whole, the rest narrow. The fuel is the
number of blocks that can be touched. -/
def spWriteFrom (c m : Nat) : Nat → Nat → List Byte → State → State
  | 0, _, _, s => s
  | _, _, [], s => s
  | n + 1, off, v, s =>
    let b := memFirst m + off / 64
    let room := 64 - off % 64
    let part := v.take room
    let s := if part.length = 64 then spWrite c b part s
      else if m = 3 then spNarrowNow c b (off % 64) part s
      else spNarrow c b (off % 64) part s
    spWriteFrom c m n (off + part.length) (v.drop room) s

def spWriteBytes (c m off : Nat) (v : List Byte) (s : State) : State :=
  spWriteFrom c m (v.length / 64 + 2) off v s

/-- Reads consecutive blocks; each is its bytes or none for poison. -/
def spReadBlocks (c : Nat) : List Nat → State → List (Option (List Byte)) × State
  | [], s => ([], s)
  | b :: bs, s =>
    let (d, s) := spRead c b s
    let (r, s) := spReadBlocks c bs s
    (d :: r, s)

/-- Whether a block of the core's numbering lies in a powered group. -/
def blkOn (s : State) (c b : Nat) : Bool := groupOn s c (memOfBlk b).1 (memOfBlk b).2

/-- The block numbers, in the core's numbering, of bytes `off` to `off + n - 1` of a memory. -/
def blksOf (m off n : Nat) : List Nat :=
  if n = 0 then []
  else (List.range ((off + n - 1) / 64 - off / 64 + 1)).map (fun i => memFirst m + off / 64 + i)

/-- Bytes of a memory at a byte offset, or none if any block of them delivers poison. -/
def spReadBytes (c m off n : Nat) (s : State) : Option (List Byte) × State :=
  let (bs, s) := spReadBlocks c (blksOf m off n) s
  if bs.all Option.isSome then (some (((bs.map (fun b => b.getD [])).flatten.drop (off % 64)).take n), s) else (none, s)

/-- Clears the written bits of every block of a core (R73). -/
def spClearWritten (c : Nat) (s : State) : State := { s with spWr := nsDrop s.spWr (spWrKey c 0) 8192 }

/-! ## Cluster shared SRAM -/

def csKey (c off : Nat) : Nat := c * 2 ^ 22 + off
def csBlk (c b : Nat) : Nat := c * 65536 + b

/-- An error of a cluster's shared SRAM. -/
def csErr (c b code : Nat) (s : State) : State :=
  logErr { hub := homeHub (cluTower c), code := code, part := cluPart s c, source := srcClu 3 c, engine := 0,
           logical := 0, addr := 0, detail := b } s

/-- Reads a block of cluster SRAM, counting in CLU_SRAM_ERR (R76, Table CORE.16). -/
def csRead (c b : Nat) (s : State) : Option (List Byte) × State :=
  if !nsHas s.csWr (csBlk c b) then (none, cluUpd c 0x4 (fun w => wSatAdd w 7 0 1) s)
  else
    match eccDecode (memRead s.csram (csKey c (64 * b)) 64) (memRead s.csChk (csBlk c b * 16) 16) with
    | .clean d => (some d, s)
    | .corrected d => (some d, csErr c b 0x0101 (cluUpd c 0x4 (fun w => wSatAdd w 31 16 1) s))
    | .poison => (none, s)
    | .bad => (none, csErr c b 0x0102 (cluUpd c 0x4 (fun w => wSatAdd w 15 8 1) s))

def csStore (c b : Nat) (d chk : List Byte) (s : State) : State :=
  { s with csram := memWrite s.csram (csKey c (64 * b)) d
           csChk := memWrite s.csChk (csBlk c b * 16) chk
           csWr := nsAdd s.csWr (csBlk c b) }

def csWrite (c b : Nat) (d : List Byte) (s : State) : State := csStore c b d (sramCheck d) s

def csPoison (c b : Nat) (s : State) : State := csStore c b (zeros 64) (poisonCheck (zeros 64)) s

/-- Writes bytes within one block of cluster SRAM (R76, R74): a read-modify-write in the bank. -/
def csWriteIn (c b off : Nat) (v : List Byte) (s : State) : State :=
  if v.length = 64 then csWrite c b v s
  else if !nsHas s.csWr (csBlk c b) then csWrite c b (putBytes (zeros 64) off v) s
  else
    let (d, s) := csRead c b s
    match d with
    | some d => csWrite c b (putBytes d off v) s
    | none => csPoison c b s

def csWriteFrom (c : Nat) : Nat → Nat → List Byte → State → State
  | 0, _, _, s => s
  | _, _, [], s => s
  | n + 1, off, v, s =>
    let room := 64 - off % 64
    csWriteFrom c n (off + (v.take room).length) (v.drop room) (csWriteIn c (off / 64) (off % 64) (v.take room) s)

def csWriteBytes (c off : Nat) (v : List Byte) (s : State) : State := csWriteFrom c (v.length / 64 + 2) off v s

def csReadBlocks (c : Nat) : List Nat → State → List (Option (List Byte)) × State
  | [], s => ([], s)
  | b :: bs, s =>
    let (d, s) := csRead c b s
    let (r, s) := csReadBlocks c bs s
    (d :: r, s)

/-- Bytes of cluster SRAM, or none if any block delivers poison. -/
def csReadBytes (c off n : Nat) (s : State) : Option (List Byte) × State :=
  if n = 0 then (some [], s)
  else
    let (bs, s) := csReadBlocks c ((List.range ((off + n - 1) / 64 - off / 64 + 1)).map (fun i => off / 64 + i)) s
    if bs.all Option.isSome then (some (((bs.map (fun b => b.getD [])).flatten.drop (off % 64)).take n), s)
    else (none, s)

/-! ## Bank atomics (Table CORE.13) -/

/-- Width of an atomic in bytes. -/
def atomicBytes : AtomicOp → Nat
  | .add64 | .swap64 => 8
  | _ => 4

/-- The value an atomic stores. -/
def atomicNew (op : AtomicOp) (old arg : Nat) : Nat :=
  match op with
  | .add32 => (old + arg) % 2 ^ 32
  | .add64 => (old + arg) % 2 ^ 64
  | .fadd32 => (f32Add old (arg % 2 ^ 32)).1
  | .swap32 => arg % 2 ^ 32
  | .swap64 => arg % 2 ^ 64

/-- Performs an atomic on an aligned word of cluster SRAM: the old value, or none (refused, R80). -/
def csAtomic (c off : Nat) (op : AtomicOp) (arg : Nat) (tx : Option Tx) (s : State) : Option Nat × State :=
  let n := atomicBytes op
  let (d, s) := csRead c (off / 64) s
  match d with
  | none => (none, cluUpd c 0x0 (fun w => wSatAdd w 15 0 1) s)
  | some d =>
    let old := leAt d (off % 64) n
    (some old, tallyClu c 0x0303 1 tx
      (csWrite c (off / 64) (putBytes d (off % 64) (leBytes n (atomicNew op old arg))) s))

/-- Clears the written bits of a cluster's SRAM (R76). -/
def csClearWritten (c : Nat) (s : State) : State := { s with csWr := nsDrop s.csWr (csBlk c 0) 65536 }

end Sys2Proof.Machine
end

