-- ==== Sys2Proof/Machine/Tier1.lean ====
section
/-! DEFINITION. The tier-1 slice: geometry, the code over GF(2⁸), reads and writes through it, and frame tags
(R146 to R159, R174). -/

namespace Sys2Proof.Machine

/-! ## Geometry (R147, R148) -/

def offFrame (off : Nat) : Nat := fld off 27 15
def offCol (off : Nat) : Nat := fld off 14 14
def offRow (off : Nat) : Nat := fld off 13 10

/-- The bank column of a slice offset of a core. -/
def colOf (c off : Nat) : Nat := 2 * c + offCol off

/-- The row number frame · 16 + frame row of a slice offset, within its column. -/
def rowOf (off : Nat) : Nat := offFrame off * 16 + offRow off

/-- The slice offset of a row of a column. -/
def rowOff (col row : Nat) : Nat := row / 16 * 0x8000 + col % 2 * 0x4000 + row % 16 * 0x400

/-- The slice offset of a column-relative offset: the column's own rows in slice-offset order. -/
def colRel (col o : Nat) : Nat := o / 0x4000 * 0x8000 + col % 2 * 0x4000 + o % 0x4000

/-- The layer of row j of frame p (R148). -/
def rowLayer (row : Nat) : Nat := (row % 16 + 4 * (row % 16 / 8) + 4 * (row / 16 % 2)) % 8

/-- The bank row of a row (R148). -/
def rowBank (row : Nat) : Nat := 2 * (row / 16) + row % 16 / 8

/-! ## The code of R155 -/

/-- Multiplication by α = 2 modulo x⁸ + x⁴ + x³ + x² + 1. -/
def gfX (a : Nat) : Nat := if a < 128 then 2 * a else Nat.xor (2 * a) 0x11D

/-- Multiplication in GF(2⁸), over the low `n` bits of `b`. -/
def gfMulN : Nat → Nat → Nat → Nat
  | 0, _, _ => 0
  | n + 1, a, b => Nat.xor (if b % 2 = 1 then a else 0) (gfMulN n (gfX a) (b / 2))

def gfMul (a b : Nat) : Nat := gfMulN 8 a b

/-- α^e. -/
def gfPow : Nat → Nat
  | 0 => 1
  | e + 1 => gfX (gfPow e)

/-- The check symbols of data bytes: the remainder modulo g(x) = x³ + 7x² + 14x + 8. -/
def rsCheck (d : List Byte) : List Byte :=
  let r := d.foldl (fun (r : Nat × Nat × Nat) b =>
    let fb := Nat.xor b.toNat r.1
    (Nat.xor r.2.1 (gfMul fb 7), Nat.xor r.2.2 (gfMul fb 14), gfMul fb 8)) (0, 0, 0)
  [BitVec.ofNat 8 r.1, BitVec.ofNat 8 r.2.1, BitVec.ofNat 8 r.2.2]

/-- The syndrome C(α^k) of a code word. -/
def syndrome (k : Nat) (w : List Byte) : Nat :=
  w.foldl (fun acc b => Nat.xor (gfMul acc (gfPow k)) b.toNat) 0

/-- The check symbols of stored poison over data: symbols 64 and 66 inverted (R157). -/
def rsPoison (d : List Byte) : List Byte :=
  match rsCheck d with
  | [a, b, c] => [a ^^^ 0xFF, b, c ^^^ 0xFF]
  | l => l

/-- The outcome of decoding a code word (Table SLICE.5); a corrected one names its symbol. -/
inductive RsOut where
  | clean (d : List Byte)
  | corrected (d : List Byte) (symbol : Nat)
  | poison
  | bad
  deriving DecidableEq, Repr

def rsDecode (d chk : List Byte) : RsOut :=
  let w := d ++ chk
  let s0 := syndrome 0 w
  let s1 := syndrome 1 w
  let s2 := syndrome 2 w
  if s0 = 0 && s1 = 0 && s2 = 0 then .clean d
  else if s0 = 0 && s1 = Nat.xor (gfMul 0xFF (gfPow 2)) 0xFF && s2 = Nat.xor (gfMul 0xFF (gfPow 4)) 0xFF then .poison
  else if s0 ≠ 0 && s1 ≠ 0 && s2 ≠ 0 && gfMul s1 s1 = gfMul s0 s2 then
    match (List.range 67).find? (fun e => gfMul s0 (gfPow e) == s1) with
    | some e =>
      let sym := 66 - e
      .corrected (if sym < 64 then d.set sym (listAt d sym 0 ^^^ BitVec.ofNat 8 s0) else d) sym
    | none => .bad
  else .bad

/-! ## Access -/

def t1Key (c off : Nat) : Nat := c * 2 ^ 28 + off
def t1ChkKey (c off : Nat) : Nat := (c * 2 ^ 22 + off / 64) * 3

/-- Stores a code word. -/
def t1Store (c off : Nat) (d chk : List Byte) (s : State) : State :=
  { s with t1 := memWrite s.t1 (t1Key c off) d, t1Chk := memWrite s.t1Chk (t1ChkKey c off) chk }

/-- Records an event of NBU_ECC_LAST: kind 0 uncorrectable, 1 stored poison, 2 corrected (Table SLICE.17). -/
def eccLast (col row cw kind sym : Nat) (s : State) : State :=
  rset (nbuBase col + 0x14) (BitVec.ofNat 32
    (2 ^ 31 + kind * 2 ^ 29 + rowLayer row * 2 ^ 26 + cw * 2 ^ 22 + sym * 2 ^ 15 + rowBank row)) s

/-- An error of a bank column. -/
def colErr (col code detail : Nat) (s : State) : State :=
  logErr { hub := homeHub (coreTower (col / 2)), code := code, part := corePart s (col / 2), source := srcCol col,
           engine := 12, logical := logicalField s (col / 2), addr := 0, detail := detail } s

/-- Counts a corrected symbol for its lane group and octet: its row joins the list of rows (R156, R159). -/
def noteSymbol (col row cw sym : Nat) (s : State) : State :=
  let key := (2 * sym + cw / 8) * 8 + cw % 8
  colupd col (fun u =>
    let rows := (stGet (fun _ => []) u.corr key).filter (fun e => e.1 != row)
    { u with corr := stSet (fun _ => []) u.corr key (rows ++ [(row, s.ns)]) }) s

/-- The bytes that a write-combining entry holds for a block, if any (R152). -/
def wcBlock (s : State) (col row blk : Nat) : Option (List Byte) :=
  match (colget s col).wc.find? (fun e => e.row == row) with
  | some e => (e.blocks.find? (fun b => b.1 == blk)).map Prod.snd
  | none => none

/-! ## The vertical bus (R150, R156) -/

def bondGrp (s : State) (k : Nat) : LaneGrp := stGet (fun _ => LaneGrp.empty) s.boot.bond k

/-- The lane group and the lane on which bit k of symbol `sym` of code word w travels. -/
def busLane (w sym k : Nat) : Nat × Nat := (2 * sym + w / 8, 8 * (w % 8) + k)

/-- The failed lanes of a column that no spare replaces, as group and lane. -/
def deadLanes (s : State) (col : Nat) : List (Nat × Nat) :=
  (s.boot.bond.filter (fun e => e.1 / 134 == col && !e.2.bad.isEmpty)).flatMap (fun e => e.2.bad.map (fun l => (e.1 % 134, l)))

/-- A code word of a row crosses the bus, read or written: a bit on a failed lane without a spare arrives as anything. -/
def crossBus (col w : Nat) (d chk : List Byte) (s : State) : (List Byte × List Byte) × State :=
  let hit := (deadLanes s col).filter (fun e => busLane w (e.1 / 2) (e.2 % 8) == e)
  if hit.isEmpty then ((d, chk), s)
  else
    let word := hit.foldl (fun x e =>
      let m := BitVec.ofNat 8 (2 ^ (e.2 % 8))
      let b := listAt x (e.1 / 2) 0
      x.set (e.1 / 2) (if Config.freeBool s.fresh (64 * e.1 + e.2) then b ||| m else b &&& ~~~m)) (d ++ chk)
    ((word.take 64, word.drop 64), { s with fresh := s.fresh + 1 })

/-- Decodes a code word as a reader receives it (R157, R158). An uncorrectable code word is rewritten as stored poison if it still
stands in the bank as it was read (`same`), and waits for the reload of R372; its record names the code word, the bank row and the
layer in DETAIL [3:0], [17:4] and [20:18]. DESIGN CHOICE for those places (log entry 199). -/
def t1Decode (c off : Nat) (d chk : List Byte) (same : Bool) (s : State) : Option (List Byte) × State :=
  let col := colOf c off
  let row := rowOf off
  let cw := off / 64 % 16
  match rsDecode d chk with
  | .clean d => (some d, s)
  | .corrected d sym =>
    (some d, colErr col 0x0110 (cw * 128 + sym) (noteSymbol col row cw sym (eccLast col row cw 2 sym
      (rupd (nbuBase col + 0x10) (fun w => wSatAdd w 31 16 1) s))))
  | .poison => (none, eccLast col row cw 1 0 (rupd (nbuBase col + 0x10) (fun w => wSatAdd w 7 0 1) s))
  | .bad =>
    let s := if same then
      t1Store c off (zeros 64) (rsPoison (zeros 64)) { s with reload := s.reload ++ [(c, off)] } else s
    (none, colErr col 0x0111 (cw + 2 ^ 4 * rowBank row + 2 ^ 18 * rowLayer row) (eccLast col row cw 0 0 (rupd (nbuBase col + 0x10) (fun w => wSatAdd w 15 8 1) s)))

/-- Reads the block at a 64-byte-aligned slice offset: a write-combining entry forwards its blocks (R152). -/
def t1ReadBlk (c off : Nat) (s : State) : Option (List Byte) × State :=
  match wcBlock s (colOf c off) (rowOf off) (off / 64 % 16) with
  | some d => (some d, s)
  | none =>
    let (x, s) := crossBus (colOf c off) (off / 64 % 16) (memRead s.t1 (t1Key c off) 64) (memRead s.t1Chk (t1ChkKey c off) 3) s
    t1Decode c off x.1 x.2 true s

/-- Releases the pin when a pinned row is written (R169). -/
def unpin (col row : Nat) (s : State) : State :=
  if nsHas (colget s col).nbu.pin row then
    colupd col (fun u => { u with nbu := { u.nbu with pin := [] } }) s
  else s

/-- Counts rows of a core's slice read or written. -/
def rowTally (c n : Nat) (write : Bool) (tx : Option Tx) (s : State) : State :=
  tallyCore c (if write then 0x0201 else 0x0200) n tx s

/-- Stores a block that crosses the bus. -/
def t1Cross (c off : Nat) (d : List Byte) (s : State) : State :=
  let (x, s) := crossBus (colOf c off) (off / 64 % 16) d (rsCheck d) s
  t1Store c off x.1 x.2 s

/-- The write-combining entry at index `i` issues its row write under its code-word mask (R152). -/
def wcIssue (col i : Nat) (s : State) : State :=
  match (colget s col).wc[i]? with
  | none => s
  | some e =>
    let s := colupd col (fun u => { u with wc := u.wc.eraseIdx i }) s
    let s := if e.tally then rowTally (col / 2) 1 true (fwTx 12 0 none) s else s
    e.blocks.foldl (fun s b => t1Cross (col / 2) (rowOff col e.row + 64 * b.1) b.2 s) s

/-- A whole block joins the entry of its row or opens one; with four other rows held, the oldest entry issues first, and an entry of
16 blocks issues at once (R152). DEDUCED (log entry 199). -/
def wcPut (col row blk : Nat) (v : List Byte) (s : State) : State :=
  let d := fitBytes 64 v
  match findIdx? (fun e : WcEntry => e.row == row) (colget s col).wc with
  | some i =>
    let s := colupd col (fun u => { u with wc := u.wc.modify i (fun e =>
      { e with blocks := e.blocks.filter (fun b => b.1 != blk) ++ [(blk, d)] }) }) s
    if (((colget s col).wc[i]?).map (fun e => e.blocks.length)) = some 16 then wcIssue col i s else s
  | none =>
    let s := if 4 ≤ (colget s col).wc.length then wcIssue col 0 s else s
    colupd col (fun u => { u with wc := u.wc ++ [{ row := row, blocks := [(blk, d)], counted := false, tally := false }] }) s

/-- Drops the entries of rows that zeroing overwrites. -/
def wcForget (col : Nat) (f : Nat → Bool) (s : State) : State :=
  if (colget s col).wc.any (fun e => f e.row) then
    colupd col (fun u => { u with wc := u.wc.filter (fun e => !f e.row) }) s
  else s

/-- Drops a block from its write-combining entry. -/
def wcDrop (col row blk : Nat) (s : State) : State :=
  if (wcBlock s col row blk).isSome then
    colupd col (fun u => { u with wc := u.wc.map (fun e => if e.row == row then
      { e with blocks := e.blocks.filter (fun b => b.1 != blk) } else e) }) s
  else s

/-- Writes a whole block, which takes effect as its write-combining entry accepts it (R152, R174). -/
def t1WriteBlk (c off : Nat) (d : List Byte) (s : State) : State :=
  let col := colOf c off
  unpin col (rowOf off) (wcPut col (rowOf off) (off / 64 % 16) d s)

/-- Writes a block as stored poison. -/
def t1PoisonBlk (c off : Nat) (s : State) : State :=
  let col := colOf c off
  unpin col (rowOf off) (wcDrop col (rowOf off) (off / 64 % 16) (t1Store c off (zeros 64) (rsPoison (zeros 64)) s))

/-- Writes bytes within one block: a read-modify-write in the base die; a merge into a poisoned code word writes
stored poison (R152). -/
def t1WriteIn (c off : Nat) (v : List Byte) (s : State) : State :=
  let b := off / 64 * 64
  if v.length = 64 then t1WriteBlk c b v s
  else
    let (d, s) := t1ReadBlk c b s
    match d with
    | some d => t1WriteBlk c b (putBytes d (off % 64) v) s
    | none => t1PoisonBlk c b s

def t1WriteFrom (c : Nat) : Nat → Nat → List Byte → State → State
  | 0, _, _, s => s
  | _, _, [], s => s
  | n + 1, off, v, s =>
    let room := 64 - off % 64
    t1WriteFrom c n (off + (v.take room).length) (v.drop room) (t1WriteIn c off (v.take room) s)

/-- Writes bytes from a slice offset up. -/
def t1Write (c off : Nat) (v : List Byte) (s : State) : State := t1WriteFrom c (v.length / 64 + 2) off v s

/-- Reads blocks from a slice offset up, each or none for poison. -/
def t1ReadBlks (c : Nat) : Nat → Nat → State → List (Option (List Byte)) × State
  | 0, _, s => ([], s)
  | n + 1, off, s =>
    let (d, s) := t1ReadBlk c off s
    let (r, s) := t1ReadBlks c n (off + 64) s
    (d :: r, s)

/-- Reads bytes from a slice offset, or none if a block of them delivers poison. -/
def t1ReadBytes (c off n : Nat) (s : State) : Option (List Byte) × State :=
  if n = 0 then (some [], s)
  else
    let b := off / 64 * 64
    let (bs, s) := t1ReadBlks c ((off + n - 1) / 64 - off / 64 + 1) b s
    if bs.all Option.isSome then (some (((bs.map (fun b => b.getD [])).flatten.drop (off % 64)).take n), s) else (none, s)

/-! ## Slots and order (R153, R154, R161 to R163) -/

/-- The withhold count of a column's tower (R46, R154). -/
def withholdOf (s : State) (col : Nat) : Nat :=
  wFld (rget s (thmBase + 0x80 + 4 * coreTower (col / 2))) 15 12

/-- Whether slot k is withheld at count w (R154). -/
def slotWithheld (k w : Nat) : Bool := k * w % 16 < w

/-- Counts a request delayed by a withheld slot. -/
def countWithheld (col : Nat) (s : State) : State :=
  tallyCore (col / 2) 0x0206 1 none (rupd (nbuBase col + 0xC) (fun w => w + 1) s)

/-- Counts row transfers of a column that run inside one event, those of its NBU also since the last atomic (R283). While slots are withheld, a freely chosen number of them met a
withheld slot (R154). -/
def rowMeet (col n : Nat) (write : Bool) (tx : Option Tx) (s : State) : State :=
  let s := rowTally (col / 2) n write tx s
  let s := if tx.any (fun t => t.engine == 5 + col % 2) then colupd col (fun u => { u with atmGap := min 64 (u.atmGap + n) }) s else s
  if withholdOf s col = 0 then s
  else
    let (v, s) := takeFree s
    iter (v % (n + 1)) (fun _ s => countWithheld col s) s

/-- NBU_REF_CTL.POSTPONE of a column's tower. -/
def postponeOf (s : State) (col : Nat) : Nat := wFld (rget s (towerBase (coreTower (col / 2)) + 0x100)) 2 0

/-- Whether row transfers of a column stand still: its data lanes retrain, or refresh preempts (R161, R163). -/
def colBlocked (s : State) (col : Nat) : Bool := (colget s col).retraining || (colget s col).forced

/-- Whether the transfers of rows `f` may run now: the column moves rows, and no earlier request that they would have to follow
waits for one of the rows (R153). -/
def rowsClear (s : State) (col : Nat) (write : Bool) (f : Nat → Bool) : Bool :=
  !colBlocked s col && (colget s col).queue.all (fun r => !(f r.row && (write || r.write)))

/-- Whether maintenance may transfer `n` rows of a column now: none but it waits, or 15 other transfers have gone before each; never
while refresh preempts (R153, R161). -/
def mntSlot (s : State) (col n : Nat) : Bool :=
  let u := colget s col
  !u.forced && (u.queue.isEmpty || decide (15 * n ≤ u.mntGap))

/-- Maintenance waits for `n` rows of a column. -/
def mntAsk (col n : Nat) (s : State) : State := colupd col (fun u => { u with mntWait := n }) s

/-- Maintenance has its rows. -/
def mntTook (col : Nat) (s : State) : State := colupd col (fun u => { u with mntGap := 0, mntWait := 0 }) s

/-- Whether a network atomic that waits at a column is due before the next NBU command: 64 rows of such commands have passed since
the last (R283). -/
def atomDue (s : State) (col : Nat) : Bool :=
  decide (64 ≤ (colget s col).atmGap) && s.net.txs.any (fun t => t.st == 2 && t.key == col && t.atom.isSome)

/-- Removes the row requests and delivered rows of transactions that are answered. -/
def dropRows (f : Nat → Bool) (s : State) : State :=
  { s with cols := s.cols.map (fun e => (e.1, { e.2 with
      queue := e.2.queue.filter (fun r => !(r.who == 3 && f r.id))
      inFlight := e.2.inFlight.filter (fun r => !f r.id)
      outRows := e.2.outRows.filter (fun r => !f r.id) })) }

/-- Whether a no-yield window may open: fewer than POSTPONE refreshes are owed, or none is at POSTPONE 0 (R162). -/
def windowOk (s : State) (col : Nat) : Bool :=
  let p := postponeOf s col
  decide ((colget s col).owed < p) || (p == 0 && (colget s col).owed == 0)

/-- Whether a read-modify-write of a row may run now. -/
def rmwClear (s : State) (col row : Nat) : Bool := rowsClear s col true (fun r => r == row) && windowOk s col

/-- Whether the transfers of a range of slice bytes may run now, in each column that the range touches. `narrow` says that they need
no-yield windows. -/
def rangeClear (s : State) (c off n : Nat) (write narrow : Bool) : Bool :=
  [2 * c, 2 * c + 1].all (fun col =>
    (n ≤ 0x4000 && colOf c off != col && colOf c (off + n - 1) != col) ||
    (rowsClear s col write (fun r => decide (rowOff col r < off + n) && decide (off < rowOff col r + 1024)) &&
      (!narrow || windowOk s col)))

/-! ## Frame tags (R174) -/

def ftKey (col frame : Nat) : Nat := col * 8192 + frame

def ftGet (s : State) (col frame : Nat) : Word64 := stGet (fun _ => 0) s.ftag (ftKey col frame)

def ftSet (col frame : Nat) (w : Word64) (s : State) : State :=
  { s with ftag := stSet (fun _ => 0) s.ftag (ftKey col frame) w }

/-- VERSION rises by 1, modulo 256, for a command or atomic that writes the frame. -/
def ftBump (col frame : Nat) (s : State) : State :=
  let w := (ftGet s col frame).toNat
  ftSet col frame (BitVec.ofNat 64 (putFld w 7 0 (fld w 7 0 + 1))) s

/-- Gives a frame its KSCALE and VSCALE. -/
def ftScales (col frame k v : Nat) (s : State) : State :=
  let w := (ftGet s col frame).toNat
  ftSet col frame (BitVec.ofNat 64 (putFld (putFld w 31 16 k) 47 32 v)) s

/-- Zeroes a frame with valid check symbols and clears its tag (R403). -/
def zeroFrame (col frame : Nat) (s : State) : State :=
  let c := col / 2
  let off := rowOff col (frame * 16)
  iter 16 (fun i s => unpin col (16 * frame + i) s) (ftSet col frame 0 <| wcForget col (fun r => r / 16 == frame)
    { s with t1 := memZero s.t1 (t1Key c off) 0x4000, t1Chk := memZero s.t1Chk (t1ChkKey c off) 768 })

end Sys2Proof.Machine
end

