-- ==== Sys2Proof/Machine/Slice.lean ====
section
/-! DEFINITION. The bank column's controller: row transfers, write combining and refresh
(R151 to R163). -/

namespace Sys2Proof.Machine

/-- The queue position of the request that R153 issues: a request passed four times before all others, else the oldest
of the four oldest whose bank is free and that stands behind no request to its own row. -/
def rowPick (busy : BitVec 8) (q : List RowReq) : Option Nat :=
  match findIdx? (fun r : RowReq => 4 ≤ r.passed) q with
  | some i => if busy.getLsbD (rowLayer (listAt q i RowReq.none).row) then none else some i
  | none =>
    (List.range (min 4 q.length)).find? (fun i =>
      let r := listAt q i RowReq.none
      !busy.getLsbD (rowLayer r.row) && !(q.take i).any (fun e => e.row == r.row))

/-- The code words of a row as they stand, with the write-combining entries forwarded (R152). -/
def rowBytes (col row : Nat) (s : State) : List Byte × List Byte :=
  let c := col / 2
  let cws := (List.range 16).map (fun b =>
    match wcBlock s col row b with
    | some d => (d, rsCheck d)
    | none => (memRead s.t1 (t1Key c (rowOff col row + 64 * b)) 64, memRead s.t1Chk (t1ChkKey c (rowOff col row + 64 * b)) 3))
  ((cws.map Prod.fst).flatten, (cws.map Prod.snd).flatten)

/-- The blocks of a row that a write-combining entry forwards. -/
def rowFwd (col row : Nat) (s : State) : List Nat := (List.range 16).filter (fun b => (wcBlock s col row b).isSome)

/-- Whether the row-buffer file of a column has room for another row (Table SLICE.1). -/
def rowRoom (u : ColSt) : Bool := decide (u.inFlight.length + u.outRows.length < 32)

/-- Whether the next slot of a column is due to maintenance that waits: it gets one of every 64 (R153). -/
def mntDue (u : ColSt) : Bool := u.mntWait != 0 && decide (63 * u.mntWait ≤ u.mntGap)

/-- The controller issues the read that R153 picks in slot k of its column, with room in the row-buffer file. `busy` names the layers
whose bank is not free. A withheld slot issues nothing; a write waits for its data (GRANT). -/
def execRowReadIssue (col : Fin 8704) (k : Fin 16) (busy : BitVec 8) (s : State) : Res :=
  let u := colget s col
  if u.retraining || u.forced || mntDue u then .next s
  else
    match rowPick busy u.queue with
    | none => .next s
    | some i =>
      let r := listAt u.queue i RowReq.none
      if r.write || !rowRoom u then .next s
      else if slotWithheld k (withholdOf s col) then
        if r.counted then .next s
        else .next (countWithheld col (colset col { u with queue := u.queue.set i { r with counted := true } } s))
      else
        let (d, chk) := rowBytes col r.row s
        .next (rowTally (col / 2) 1 false (fwTx 12 0 none) (colset col { u with
          queue := (u.queue.take i).map (fun e => { e with passed := e.passed + 1 }) ++ u.queue.drop (i + 1)
          inFlight := u.inFlight ++ [{ id := r.id, row := r.row, data := d, chk := chk, fwd := rowFwd col r.row s }]
          mntGap := min 4096 (u.mntGap + 1) } s))

/-- Decodes the sixteen code words of a row read. -/
def rowDecode (col : Nat) (r : RowRead) : Nat → State → List (Option (List Byte)) × State
  | 0, s => ([], s)
  | n + 1, s =>
    let b := 15 - n
    let off := rowOff col r.row + 64 * b
    let d := (r.data.drop (64 * b)).take 64
    let chk := (r.chk.drop (3 * b)).take 3
    let (x, s) := if r.fwd.contains b then ((d, chk), s) else crossBus col b d chk s
    let same := decide (memRead s.t1 (t1Key (col / 2) off) 64 = d) && decide (memRead s.t1Chk (t1ChkKey (col / 2) off) 3 = chk)
    let (d, s) := t1Decode (col / 2) off x.1 x.2 same s
    let (ds, s) := rowDecode col r n s
    (d :: ds, s)

/-- After a row transfer a layer moves its sampling point by at most one step of 1/64 MCLK, while its phase is trained (R31). -/
def trackPhase (n m : Nat) (s : State) : State :=
  if !wBit (rget s (towerBase n + 0x20)) (16 + m) then s
  else
    let (v, s) := takeFree s
    let old := stGet (fun _ => 0) s.pwr.phase (8 * n + m)
    { s with pwr := { s.pwr with phase := stSet (fun _ => 0) s.pwr.phase (8 * n + m) ((old + 63 + v % 3) % 64) } }

/-- The oldest row read in flight of a column is decoded and delivered. A parity error where the row left the crossing from its layer
makes it poison (R34). -/
def deliverRow (col : Nat) (r : RowRead) (parity : Bool) (s : State) : State :=
  let n := coreTower (col / 2)
  let (bs, s) := if parity then (List.replicate 16 none, crossErr (srcTower n) (homeHub n) none 0 s) else rowDecode col r 16 s
  colupd col (fun u => { u with outRows := u.outRows ++ [{ id := r.id, row := r.row, blocks := bs }] }) s

/-- The oldest row read in flight arrives (R151, R157), and its layer tracks its phase. -/
def execRowReadDeliver (x : ColIn) (s : State) : Res :=
  match (colget s x.col).inFlight with
  | [] => .next s
  | r :: rest =>
    .next (trackPhase (coreTower (x.col / 2)) (rowLayer r.row)
      (deliverRow x.col r x.parity (colupd x.col (fun u => { u with inFlight := rest }) s)))

/-- Accepts a whole block into a write-combining entry, where it takes effect (R152). A fifth row waits. -/
def wcAccept (col row blk : Nat) (d : List Byte) (s : State) : State :=
  let u := colget s col
  match findIdx? (fun e : WcEntry => e.row == row) u.wc with
  | some i =>
    unpin col row (colset col { u with wc := u.wc.modify i (fun e =>
      { e with blocks := e.blocks.filter (fun b => b.1 != blk) ++ [(blk, d)], tally := true }) } s)
  | none =>
    if u.wc.length < 4 then
      unpin col row (colset col { u with wc := u.wc ++ [{ row := row, blocks := [(blk, d)], counted := false, tally := true }] } s)
    else s

def execWriteCombineAccept (col : Fin 8704) (row : Fin 131072) (blk : Fin 16) (d : List Byte) (s : State) : Res :=
  if d.length = 64 then .next (wcAccept col row blk d s) else .fault .noSuchAddress

/-- A write-combining entry issues its row write in slot k; a preempting refresh goes first (R152, R154, R161). -/
def execRowWriteIssue (col : Fin 8704) (row : Fin 131072) (k : Fin 16) (busy : BitVec 8) (s : State) : Res :=
  let u := colget s col
  match findIdx? (fun e : WcEntry => e.row == row.val) u.wc with
  | none => .next s
  | some i =>
    let e := listAt u.wc i { row := 0, blocks := [], counted := false, tally := false }
    if u.retraining || u.forced || busy.getLsbD (rowLayer row) then .next s
    else if slotWithheld k (withholdOf s col) then
      if e.counted then .next s
      else .next (countWithheld col (colset col { u with wc := u.wc.set i { e with counted := true } } s))
    else .next (wcIssue col i s)

/-! ## Refresh -/

/-- An interval expires: one more refresh is owed, at the rate the tower's temperature now asks for. Above POSTPONE a
preempting sequence begins (R160, R161). -/
def execRefreshIntervalTick (col : Fin 8704) (s : State) : Res :=
  let u := colget s col
  if 5 ≤ u.owed then .next s
  else
    let go := decide (u.owed + 1 > postponeOf s col) && !u.forced
    let s := colset col { u with owed := u.owed + 1, forced := u.forced || go
                                 rate := stGet (fun _ => 0) s.refRate (coreTower (col.val / 2)) } s
    .next (if go then rupd (nbuBase col + 0x18) (fun w => wSatAdd w 31 16 1) s else s)

/-- Whether a request of a column is ready to issue: a read or a write of its queue, or a write-combining entry. -/
def rowReady (busy : BitVec 8) (u : ColSt) : Bool :=
  (rowPick busy u.queue).isSome || u.wc.any (fun e => !busy.getLsbD (rowLayer e.row))

/-- An owed refresh issues at a row boundary with no ready request, or preempts (R161). -/
def execRefreshIssue (col : Fin 8704) (busy : BitVec 8) (s : State) : Res :=
  let u := colget s col
  if u.owed = 0 || (!u.forced && !u.retraining && rowReady busy u) then .next s
  else .next (colset col { u with owed := u.owed - 1, forced := u.forced && decide (1 < u.owed) } s)

/-- Refresh begins to preempt at a column whose debt exceeds POSTPONE (R161). -/
def startForced (col : Nat) (s : State) : State :=
  let u := colget s col
  if u.forced || decide (u.owed ≤ postponeOf s col) then s
  else rupd (nbuBase col + 0x18) (fun w => wSatAdd w 31 16 1) (colset col { u with forced := true } s)

/-- A write of NBU_REF_CTL; a value above 4 loads 4, and a column that owes more than the new value preempts (R161, Table SLICE.21). -/
def writeRefCtl (n : Nat) (w : Word) (s : State) : State :=
  let s := rset (towerBase n + 0x100) (BitVec.ofNat 32 (min (wFld w 2 0) 4)) s
  ((s.cols.map Prod.fst).filter (fun col => col / 544 == n)).foldl (fun s col => startForced col s) s

def execRefreshCtlWrite (n : Fin 16) (w : Word) (s : State) : Res := .next (writeRefCtl n w s)

end Sys2Proof.Machine
end

