-- ==== Sys2Proof/Machine/NbuNum.lean ====
section
/-! DEFINITION. The arithmetic of the near-bank unit: widening, the dot product, softmax updates, the rescaling merge and
REQUANT's conversion (R165, R166, R168, R172, R226). -/

namespace Sys2Proof.Machine

/-! ## FP32 operations. The manual states no NaN bits for this unit: they are open. -/

def isNan32 (w : Nat) : Bool := (flDecode fp32 w).isNan

/-- Replaces the code of a NaN result by an open NaN code, by its operands. -/
def nbNan (a b c r : Nat) : Nat := if isNan32 r then vxeNan (a + 2 ^ 32) b c else r

def nbAdd (a b : Nat) : Nat := nbNan a b 0 (f32Add a b).1
def nbSub (a b : Nat) : Nat := nbAdd a (Nat.xor b 0x80000000)
def nbMul (a b : Nat) : Nat := nbNan a b 1 (f32Mul a b).1
def nbFma (a b c : Nat) : Nat := nbNan a b c (f32Fma a b c).1

/-- e^x of R226. -/
def nbExp (a : Nat) : Nat := nbNan a 0 2 (f32Exp a).1

/-- The maximum; NaN if either is NaN (R226). -/
def nbMax (a b : Nat) : Nat :=
  if isNan32 a || isNan32 b then vxeNan (a + 2 ^ 32) b 3
  else if flGt (flDecode fp32 b) (flDecode fp32 a) then b
  else if flGt (flDecode fp32 a) (flDecode fp32 b) || a = b then a
  else if Config.maxZero a b then a else b

def negInf : Nat := 0xFF800000

/-! ## Widening (R166) -/

/-- Bits of an element container of a page format. -/
def tagBits (tag : Nat) : Nat := if tag = 1 then 16 else if tag = 5 then 4 else 8

/-- Positions per row (Table KV.1). -/
def tagPos (tag : Nat) : Nat := if tag = 1 then 4 else if tag = 5 then 16 else 8

/-- The largest BF16 magnitude, 0x7F7F. -/
def bf16Max (neg : Bool) : Fl := .fin neg 255 120

/-- Widens an element code to BF16: the value, and whether an MXFP4 value was clamped. -/
def kvWiden (tag code scale : Nat) : Fl × Bool :=
  if tag = 1 then (flDecode bf16 code, false)
  else if tag = 2 then (flDecode e4m3 code, false)
  else if tag = 3 then (flDecode e5m2 code, false)
  else if tag = 4 then (flOfInt (signed 8 code) 0, false)
  else if scale = 255 then (.nan false, false)
  else
    let v := flScale (flDecode e2m1 code) (((scale : Nat) : Int) - 127)
    if flGt v (bf16Max false) then (bf16Max false, true)
    else if flGt (bf16Max true) v then (bf16Max true, true)
    else (v, false)

/-- The element code of dimension d of position p within a row (R177). -/
def rowElem (tag : Nat) (row : List Byte) (p d : Nat) : Nat :=
  if tag = 5 then fld (leAt row (p * 64 + d / 2) 1) (4 * (d % 2) + 3) (4 * (d % 2))
  else leAt row ((p * 128 + d) * (tagBits tag / 8)) (tagBits tag / 8)

/-- The 128 widened elements of a position, with the number clamped. The scale row serves MXFP4 only (R178). -/
def kvVector (tag : Nat) (row : List Byte) (p : Nat) (scales : List Byte) (sbase : Nat) : List Fl × Nat :=
  let es := (List.range 128).map (fun d => kvWiden tag (rowElem tag row p d) (leAt scales (sbase + d / 32) 1))
  (es.map Prod.fst, (es.filter Prod.snd).length)

/-! ## The dot product (R165) -/

/-- One level of the pairwise tree: adjacent pairs, each sum rounded to FP32. -/
def pairLevel : List Fl → List Fl
  | a :: b :: r => flDecode fp32 (f32Round (flSum [a, b])).1 :: pairLevel r
  | l => l

/-- The dot product of 128 exact products, summed in a fixed pairwise order. -/
def nbDot (q k : List Fl) : Nat :=
  let t := (List.range 7).foldl (fun l _ => pairLevel l) ((q.zip k).map (fun e => (flMul e.1 e.2).1))
  (f32Code (listAt t 0 (.fin false 0 0))).1

/-! ## Softmax state (R168) -/

def emptyRec (q : Nat) : StRec := { m := negInf, l := 0, flags := 0, q := q, acc := List.replicate 128 0 }

/-- Processes one position block for a query: the widened keys and values of its unmasked positions. -/
def nbBlock (q : List Fl) (kscale vscale : Nat) (isInt : Bool) (kv : List (List Fl × List Fl)) (r : StRec) : StRec :=
  let sc := kv.map (fun e => let d := nbDot q e.1; if isInt then nbMul d kscale else d)
  let m' := sc.foldl nbMax r.m
  if kv.isEmpty || m' = negInf then r
  else
    let c := nbExp (nbSub r.m m')
    let ps := sc.map (fun x => nbExp (nbSub x m'))
    let start : StRec := { r with l := nbMul r.l c, acc := r.acc.map (fun a => nbMul a c), m := m' }
    (ps.zip kv).foldl (fun r e =>
      let w := if isInt then (flMul (flDecode fp32 e.1) (flDecode bf16 vscale)).1 else flDecode fp32 e.1
      let wf := flDecode bf16 (flEncode bf16 false w).1
      { r with l := nbAdd r.l e.1
               acc := (r.acc.zip e.2.2).map (fun av => nbFma (f32Code wf).1 (f32Code av.2).1 av.1) }) start

/-- The rescaling merge of R226: a is the record that arrives, b the unit's own. -/
def mergeRec (a b : StRec) : StRec :=
  let z (r : StRec) : Bool := r.m == negInf && r.l == 0 && r.flags == 0 && r.acc.all (· == 0)
  if z a then b
  else if z b then { a with q := b.q }
  else
    let m := nbMax a.m b.m
    let fl := Nat.lor a.flags b.flags
    if m = negInf then { emptyRec b.q with flags := fl }
    else
      let x := nbExp (nbSub a.m m)
      let y := nbExp (nbSub b.m m)
      { m := m, l := nbFma b.l y (nbMul a.l x), flags := fl, q := b.q
        acc := (a.acc.zip b.acc).map (fun e => nbFma e.2 y (nbMul e.1 x)) }

/-- The nine blocks of a record (R171). -/
def recBytes (r : StRec) : List Byte :=
  fitBytes 64 (leBytes 4 r.m ++ leBytes 4 r.l ++ leBytes 4 r.flags ++ leBytes 1 r.q) ++
    (r.acc.map (leBytes 4)).flatten

/-! ## REQUANT (R172) -/

/-- A quotient rounded to an integer, to nearest, ties to even. -/
def rneDiv (a b : Nat) : Nat :=
  let q := a / b
  let r := a % b
  if 2 * r > b || (2 * r = b && q % 2 = 1) then q + 1 else q

/-- The value m · 2^e as a multiple of 2^-200. -/
def fix200 (m : Nat) (e : Int) : Nat := if 0 ≤ e + 200 then m <<< (e + 200).toNat else m >>> (-(e + 200)).toNat

/-- The largest finite magnitude of a list, as a multiple of 2^-200. -/
def maxFinite (vs : List Fl) : Nat :=
  vs.foldl (fun a v => match v with
    | .fin _ m e => max a (fix200 m e)
    | _ => a) 0

/-- max / 127 rounded up to BF16: the least BF16 code of at least that value. -/
def int8Scale (mx : Nat) : Nat :=
  if mx = 0 then 0
  else
    let c := (flEncode bf16 false (.fin false (mx / 127) (-200))).1
    let ok (k : Nat) : Bool := match flDecode bf16 k with
      | .fin _ m e => decide (mx ≤ 127 * fix200 m e)
      | _ => true
    if 0 < c && ok (c - 1) then c - 1 else if ok c then c else c + 1

/-- An element divided by its scale, rounded to nearest even and saturated at ±127; NaN gives 0. -/
def int8Elem (scale : Nat) (v : Fl) : Nat :=
  match v, flDecode bf16 scale with
  | .nan _, _ => 0
  | .inf neg, _ => if scale = 0 then 0 else unsignedOf 8 (if neg then -127 else 127)
  | .fin neg m e, .fin _ ms es =>
    if scale = 0 then 0
    else
      let k := min 127 (rneDiv (fix200 m e) (fix200 ms es))
      unsignedOf 8 (if neg then -((k : Nat) : Int) else ((k : Nat) : Int))
  | _, _ => 0

end Sys2Proof.Machine
end

