-- ==== Sys2Proof/Machine/Scratch.lean ====
section
/-! DEFINITION. Commands of the scratchpads and the cluster shared SRAM: R56 to R80. -/

namespace Sys2Proof.Machine

/-- Sets COR_CTRL.MAP_ERR. -/
def setMapErr (c : Nat) (s : State) : State := cupd c (fun k => { k with mapErr := true }) s

/-- Sets COR_SEQ_STAT.CTL_ERR. -/
def setCtlErr (c : Nat) (s : State) : State := cupd c (fun k => { k with ctlErr := true }) s

/-- A slot map with its reserved codes loaded as idle (R58). -/
def slotMapClean (w : Word) : Word :=
  (List.range 8).foldl (fun w i => if wFld w (4 * i + 3) (4 * i) ≥ 8 then wPut w (4 * i + 3) (4 * i) 0 else w) w

/-- Writes a slot map of scratchpad `m` (R58). -/
def writeSlotMap (c m : Nat) (w : Word) (s : State) : State :=
  if !(cget s c).halted then setMapErr c s
  else
    let w' := slotMapClean w
    let s := corSet c (0x10 + 4 * m) w' s
    if w' = w then s else setMapErr c s

def execSlotmapWrite (c : Fin 4352) (m : Fin 3) (w : Word) (s : State) : Res := .next (writeSlotMap c m w s)

/-- The blocks of bank group 4 · m + g: first block in the core's numbering, and how many. -/
def groupBlks (g : Nat) : Nat × Nat :=
  let n := memBlocks (g / 4) / 4
  (memFirst (g / 4) + (g % 4) * n, n)

/-- Powers a bank group down: its contents and its pending write-backs are lost (R63). -/
def groupDown (c g : Nat) (s : State) : State :=
  let (b, n) := groupBlks g
  let s := corUpd c 0x20 (fun w => wPut w (16 + g) (16 + g) 0) s
  let s := cupd c (fun k => { k with merges := k.merges.filter (fun m => decide (m.blk < b) || decide (b + n ≤ m.blk)) }) s
  { s with sp := memZero s.sp (spKey c b) (64 * n), spChk := memZero s.spChk (spChkKey c b) (16 * n)
           spWr := nsDrop s.spWr (spWrKey c b) n }

/-- Writes COR_PWR_PROFILE (R63): groups no longer requested go down, and requested ones that are off start one at a
time, WSP, ASP, PSP, in ascending index. A core in no partition keeps every group down (R64). -/
def writeProfile (c : Nat) (w : Word) (s : State) : State :=
  if !(cget s c).halted then setMapErr c s
  else
    let on := wFld (corReg s c 0x20) 27 16
    let req := wFld w 11 0
    let s := corUpd c 0x20 (fun v => wPut v 11 0 req) s
    let s := iter 12 (fun g s => if bitAt on g && !bitAt req g then groupDown c g s else s) s
    cupd c (fun k =>
      let kept := k.powering.filter (fun g => bitAt req g)
      { k with powering := if (corePart s c).isNone then [] else
                 kept ++ (List.range 12).filter (fun g => bitAt req g && !bitAt on g && !kept.contains g) }) s

/-- A core that leaves its partition keeps no group powered (R64). -/
def coreOff (c : Nat) (s : State) : State :=
  let on := wFld (corReg s c 0x20) 27 16
  let s := iter 12 (fun g s => if bitAt on g then groupDown c g s else s) s
  cupd c (fun k => { k with powering := [] }) (corUpd c 0x20 (fun v => wPut v 11 0 0) s)

def execPwrProfileWrite (c : Fin 4352) (w : Word) (s : State) : Res := .next (writeProfile c w s)

/-- SEQ begins at ENTRY with the state of R109. -/
def seqBegin (c : Nat) (s : State) : State :=
  let entry := wFld (corReg s c 0x200) 14 2
  let s := iter 23 (fun i s => xSet c (i + 9) 0 s) s
  cupd c (fun k => { k with halted := false, seq :=
    { SeqSt.reset with run := true, pc := entry } }) s

/-- Lets a waiting START begin once the load path and the power changes are idle (R145). -/
def startIfIdle (c : Nat) (s : State) : State :=
  let k := cget s c
  if k.seq.startPend && k.powering.isEmpty && !k.loadBusy then seqBegin c s else s

/-- The bank group that is starting becomes usable, with its written bits cleared (R63). -/
def execBankGroupReady (c : Fin 4352) (s : State) : Res :=
  match (cget s c).powering with
  | [] => .next s
  | g :: rest =>
    let (b, n) := groupBlks g
    let s := cupd c (fun k => { k with powering := rest }) s
    let s := corUpd c 0x20 (fun w => wPut w (16 + g) (16 + g) 1) s
    .next (startIfIdle c { s with spWr := nsDrop s.spWr (spWrKey c b) n })

/-- The writable bits of COR_UNI_REGION (Table CORE.8). -/
def uniRegionMask : Word := 0xE3FFFFFF

def writeUniRegion (c i : Nat) (w : Word) (s : State) : State :=
  if !(cget s c).halted then setMapErr c s else corSet c (0x40 + 4 * i) (w &&& uniRegionMask) s

def execUniRegionWrite (c : Fin 4352) (i : Fin 8) (w : Word) (s : State) : Res := .next (writeUniRegion c i w s)

/-- A write of COR_CTRL.UNIFIED changes the mode only while the core is halted (R68); data and written bits stay. -/
def writeUnified (c : Nat) (v : Bool) (s : State) : State :=
  if (cget s c).halted then cupd c (fun k => { k with unified := v }) s else s

def execUnifiedWrite (c : Fin 4352) (v : Bool) (s : State) : Res := .next (writeUnified c v s)

def execNarrowWriteBack (c : Fin 4352) (s : State) : Res := .next (if coreRuns s c then writeBack c s else s)

/-! ## Cluster shared SRAM ports (R76 to R80) -/

def portKey (c port : Nat) : Nat := 2 * c + port

def setResp (c port : Nat) (r : PortResp) (s : State) : State :=
  { s with portResp := stSet (fun _ => PortResp.reset) s.portResp (portKey c port) r }

/-- Counts busy answers in CLU_SRAM_STAT.BUSY. -/
def csBusyN (c n : Nat) (tx : Option Tx) (s : State) : State :=
  if n = 0 then s else tallyClu c 0x0302 n tx (cluUpd c 0x0 (fun w => wSatAdd w 31 16 n) s)
def csBusy (c : Nat) (tx : Option Tx) (s : State) : State := csBusyN c 1 tx s

/-- The busy answers that an access which its requester reissues met: after the 65th it is given up (R79). -/
def busyAt (busy : List Nat) (k : Nat) : Nat := min 65 (listAt busy k 0)

/-- The first access that is given up, if any, among n. -/
def busyEnd (busy : List Nat) (n : Nat) : Option Nat := (List.range n).find? (fun k => busyAt busy k == 65)

/-- Counts an access at a port. -/
def csCount (c port : Nat) (tx : Option Tx) (s : State) : State :=
  tallyClu c (0x0300 + port) 1 (if port = 0 then tx else none) s

/-- Whether an access lies within one block of the memory. -/
def accOk (a : SramAcc) : Bool :=
  let n := match a.data with
    | some d => d.length
    | none => a.len
  decide (1 ≤ n) && decide (a.off % 64 + n ≤ 64) && decide (a.off + n ≤ 2 ^ 22)

/-- The 64-bit words an access touches. -/
def accWords (a : SramAcc) : List Nat :=
  let n := match a.data with
    | some d => d.length
    | none => a.len
  (List.range ((a.off + n - 1) / 8 - a.off / 8 + 1)).map (fun i => a.off / 8 + i)

/-- Whether two accesses meet on a word. -/
def accMeet (a b : SramAcc) : Bool := (accWords a).any (fun w => (accWords b).contains w)

/-- Whether an access is a narrow write, which holds its words as an atomic does (R76, R78). -/
def accNarrow (a : SramAcc) : Bool := a.data.any (fun d => d.length != 64)

/-- Performs one access at a port. -/
def csPort (c port : Nat) (a : SramAcc) (s : State) : State :=
  let s := csCount c port none s
  match a.data with
  | some d => setResp c port { busy := false, poison := false, data := [] } (csWriteIn c (a.off / 64) (a.off % 64) d s)
  | none =>
    let (d, s) := csRead c (a.off / 64) s
    setResp c port { busy := false, poison := d.isNone, data := ((d.getD []).drop (a.off % 64)).take a.len } s

/-- Answers a port's access with busy; a read's data is undefined, a free value. -/
def csPortBusy (c port : Nat) (a : SramAcc) (s : State) : State :=
  let (v, s) := takeFree s
  csBusy c none (setResp c port
    { busy := true, poison := false, data := if a.data.isSome then [] else leBytes a.len v } (csCount c port none s))

/-- The accesses of ports A and B in one bank in one NCLK (Table CORE.14). `heldA` and `heldB` say that the word of
that port's access is held by the other port's atomic or narrow write of an earlier cycle; a narrow write holds its words against
the plain access it meets too (R76). -/
def execClusterSramAccess (c : Fin 256) (a b : Option SramAcc) (heldA heldB : Bool) (s : State) : Res :=
  if !(a.all accOk && b.all accOk) then .fault .noSuchAddress
  else
    match a, b with
    | none, none => .next s
    | some x, none => .next (if heldA then csPortBusy c 0 x s else csPort c 0 x s)
    | none, some y => .next (if heldB then csPortBusy c 1 y s else csPort c 1 y s)
    | some x, some y =>
      if heldA || heldB then
        let s := if heldA then csPortBusy c 0 x s else csPort c 0 x s
        .next (if heldB then csPortBusy c 1 y s else csPort c 1 y s)
      else if accMeet x y && x.data.isSome && y.data.isNone then .next (csPortBusy c 1 y (csPort c 0 x s))
      else if accMeet x y && x.data.isNone && y.data.isSome then .next (csPortBusy c 0 x (csPort c 1 y s))
      else if accMeet x y && accNarrow x && !accNarrow y then .next (csPortBusy c 1 y (csPort c 0 x s))
      else if accMeet x y && !accNarrow x && accNarrow y then .next (csPortBusy c 0 x (csPort c 1 y s))
      else if x.data.isNone && y.data.isSome then .next (csPort c 0 x (csPort c 1 y s))
      else .next (csPort c 1 y (csPort c 0 x s))

/-- Performs an atomic at a port and returns the old value, or poison where R80 refuses it. -/
def csPortAtomic (c port off : Nat) (op : AtomicOp) (arg : Nat) (s : State) : State :=
  let (v, s) := csAtomic c off op arg none (csCount c port none s)
  setResp c port { busy := false, poison := v.isNone, data := leBytes (atomicBytes op) (v.getD 0) } s

/-- An atomic that reaches a bank (R77). While the other port's atomic holds the word it waits in the bank's queue of
two, and a full queue does not accept it (R78). -/
def execBankAtomic (c : Fin 256) (port : Fin 2) (off : Fin 4194304) (op : AtomicOp) (arg : Word64) (held : Bool)
    (s : State) : Res :=
  if off.val % atomicBytes op ≠ 0 then .fault .noSuchAddress
  else if held then
    let bank := off.val / 64 % 32
    if (s.csQueue.filter (fun q => q.clu == c.val && q.bank == bank)).length < 2 then
      .next { s with csQueue := s.csQueue ++ [{ clu := c, bank := bank, off := off, op := op, arg := arg.toNat,
                                                port := port }] }
    else .next s
  else .next (csPortAtomic c port off op arg.toNat s)

/-- The oldest atomic waiting at a bank is performed (R78). -/
def execQueuedAtomic (c : Fin 256) (bank : Fin 32) (s : State) : Res :=
  match findIdx? (fun q : QAtomic => q.clu == c.val && q.bank == bank.val) s.csQueue with
  | none => .next s
  | some i =>
    match s.csQueue[i]? with
    | none => .next s
    | some q => .next (csPortAtomic c q.port q.off q.op q.arg { s with csQueue := s.csQueue.eraseIdx i })

end Sys2Proof.Machine
end

