-- ==== Sys2Proof/Machine/Claim.lean ====
section
/-! DEFINITION. Which consumer a ticket is granted to (R115, R116): the wait of SEQ, which comes first, and the grant that every
engine's start tests against the claims of those before it. -/

namespace Sys2Proof.Machine

def inXA (w : Nat) : Nat := fld w 50 46
def inTK (w : Nat) : Nat := fld w 45 42
def inReg (w : Nat) : Bool := bitAt w 41
def inKeep (w : Nat) : Bool := bitAt w 40
def inCount (w : Nat) : Nat := fld w 15 0

/-- The instruction memory block of an instruction index, in the core's block numbering. -/
def imemBlk (pc : Nat) : Nat := memFirst 3 + pc / 8

/-- The operand of a ticket instruction. -/
def tkOperand (s : State) (c w : Nat) : Nat := if inReg w then (xGet s c (inXA w)).toNat else inCount w

/-- What a waiting TKWAIT of SEQ can take from ticket t now (R115). -/
def seqClaim (s : State) (c t : Nat) : Nat :=
  let q := sq s c
  if !(q.wait == 1 && q.run && q.stop == 0 && (q.inTrap || q.held.isEmpty)) then 0
  else
    match (spRead c (imemBlk q.pc) s).1 with
    | none => 0
    | some d =>
      let w := leAt d (8 * (q.pc % 8)) 8
      if inTK w = t && !inKeep w && decide (tkOperand s c w ≤ tkGet s c t) then tkOperand s c w else 0

/-- Whether the TW ticket of a command is granted: one is left beside what consumers earlier in the order of R116 can take. -/
def tkGrant (s : State) (c tw before : Nat) : Bool := tw == 0 || decide (before + 1 ≤ tkGet s c tw)

end Sys2Proof.Machine
end

