-- ==== Sys2Proof/Machine/MxeNum.lean ====
section
/-! DEFINITION. The matrix engine's operand formats and accumulation: Tables MXE.2 to MXE.4, R86 to R88. -/

namespace Sys2Proof.Machine

/-- Whether a format code is one of the MX formats. -/
def fmtMx (f : Nat) : Bool := 4 ≤ f && f ≤ 9

/-- Whether a weight format is of the 4-bit class. -/
def fmt4 (f : Nat) : Bool := f == 1 || f == 8

/-- Whether a format is of the 16-bit class. -/
def fmt16 (f : Nat) : Bool := f == 0xA || f == 0xB

/-- The group of R87: 0 integer, 1 float, 2 BF16, 3 FP16; 4 reserved. -/
def fmtGroup (f : Nat) : Nat :=
  if f ≤ 1 then 0 else if f ≤ 9 then 1 else if f = 0xA then 2 else if f = 0xB then 3 else 4

/-- Container bits of an operand format (Table MXE.2). -/
def fmtBits (f : Nat) : Nat := if fmt4 f then 4 else if fmt16 f then 16 else 8

/-- Elements along K per pass with a weight format (Table MXE.3). -/
def fmtK (f : Nat) : Nat := if fmt4 f then 64 else 32

/-- The integer value of an INT8 or INT4 code. -/
def intElem (f code : Nat) : Int := if f = 1 then signed 4 code else signed 8 code

/-- The value of a floating element code, its block scale not applied. -/
def flElem (f code : Nat) : Fl :=
  if f = 2 || f = 4 then flDecode e4m3 code
  else if f = 3 || f = 5 then flDecode e5m2 code
  else if f = 6 then flDecode e2m3 (code % 64)
  else if f = 7 then flDecode e3m2 (code % 64)
  else if f = 8 then flDecode e2m1 (code % 16)
  else if f = 9 then flOfInt (signed 8 code) (-6)
  else if f = 0xA then flDecode bf16 code
  else flDecode fp16 code

/-- Applies an E8M0 scale code; 0xFF makes the block NaN (R86, R88). -/
def e8m0 (code : Nat) (v : Fl) : Fl := if code = 255 then .nan false else flScale v ((code : Int) - 127)

/-- The result of one accumulation: FP32 or INT32 bits and the counts for NAN, OVF and SAT. -/
structure AccRes where
  bits : Nat
  nan : Nat
  ovf : Nat
  sat : Nat
  deriving DecidableEq, Repr

/-- Rounds an exact sum into an FP32 entry (R88). -/
def accRound (r : Fl × Bool) : AccRes :=
  let (c, o) := f32Code r.1
  { bits := c, nan := b2n r.2, ovf := b2n o, sat := 0 }

/-- One accumulation of the float and 16-bit groups: weight and activation values paired per enabled row, scales
applied, and the entry where the command does not replace it. -/
def accFloat (align : Bool) (pairs : List (Fl × Fl)) (entry : Option Fl) : AccRes :=
  let ps := pairs.map (fun p => flMul p.1 p.2)
  let made := ps.any Prod.snd
  let terms := ps.map Prod.fst ++ entry.toList
  let nanIn := pairs.any (fun p => p.1.isNan || p.2.isNan) || entry.toList.any Fl.isNan
  let r := flSum (if align && !terms.any Fl.isNan then flAlign terms else terms)
  if nanIn then { bits := 0x7FC00000, nan := 0, ovf := 0, sat := 0 }
  else if made then { bits := 0x7FC00000, nan := 1, ovf := 0, sat := 0 }
  else accRound r

/-- One accumulation of the integer group: exact, saturating into INT32. -/
def accInt (pairs : List (Int × Int)) (entry : Int) : AccRes :=
  let (c, o) := satInt 32 ((pairs.map (fun p => p.1 * p.2)).foldl (· + ·) entry)
  { bits := c, nan := 0, ovf := 0, sat := b2n o }

end Sys2Proof.Machine
end

