-- ==== Sys2Proof/Machine/Mxe.lean ====
section
/-! DEFINITION. The matrix engine: dispatch checks, start, the five commands, promotion, finish and retirement
(R82 to R107). -/

namespace Sys2Proof.Machine

/-! ## Fields of Tables MXE.7 and MXE.8 -/

def wlCols (w0 : Nat) : Nat := fld w0 50 45 + 1
def wlRows (w0 : Nat) : Nat := fld w0 44 40 + 1
def wlSbase (w0 : Nat) : Nat := fld w0 39 28
def wlBase (w0 : Nat) : Nat := fld w0 27 16
def mxFmt (w0 : Nat) : Nat := fld w0 15 12

def stAcc0 (w0 : Nat) : Nat := fld w0 54 48
def stSwap (w0 : Nat) : Bool := bitAt w0 47
def stInit (w0 : Nat) : Bool := bitAt w0 46
def stHalf (w0 : Nat) : Nat := fld w0 45 45
def stCount (w0 : Nat) : Nat := fld w0 44 37
def stGroups (w1 : Nat) : Nat := fld w1 27 22
def stTaps (w1 : Nat) : Nat := fld w1 21 17

/-- Whether a STREAM runs in window mode. -/
def stWindow (w1 : Nat) : Bool := 2 ≤ stTaps w1

def ewRows (w0 : Nat) : Nat := fld w0 55 48
def ewRow0 (w0 : Nat) : Nat := fld w0 47 41
def ewHalf (w0 : Nat) : Nat := fld w0 40 40
def ewU (w0 : Nat) : Nat := fld w0 39 28
def ewV (w0 : Nat) : Nat := fld w0 27 16

def drStride (w0 : Nat) : Nat := if fld w0 51 44 = 0 then 4 else fld w0 51 44
def drRows (w0 : Nat) : Nat := fld w0 43 36
def drRow0 (w0 : Nat) : Nat := fld w0 35 29
def drHalf (w0 : Nat) : Nat := fld w0 28 28
def drBase (w0 : Nat) : Nat := fld w0 27 16

/-- The execution unit of an opcode: 0 loader, 1 array, 2 drain unit (R101). -/
def mxUnit (op : Nat) : Nat := if op = 1 then 0 else if op ≤ 3 then 1 else 2

/-- The accumulator half a command uses. -/
def mxHalf (w0 : Nat) : Nat :=
  if cmdOP w0 = 2 then stHalf w0 else if cmdOP w0 = 3 then ewHalf w0 else drHalf w0

/-- Element blocks of a tile (Table MXE.5). -/
def tileBlocks (fmt rows : Nat) : Nat := if fmt16 fmt then 2 * rows else rows

/-- Scale blocks of a tile. -/
def tileScales (fmt : Nat) : Nat := if !fmtMx fmt then 0 else if fmt4 fmt then 2 else 1

/-- Blocks of the first EWISE operand. -/
def ewVBlocks (w0 : Nat) : Nat := if mxFmt w0 = 3 then ceilDiv (ewRows w0 + 1) 16 else 4

/-- The blocks, by memory and index, that a command other than a STREAM addresses. -/
def mxBlocks (w0 : Nat) : List (Nat × Nat) :=
  let op := cmdOP w0
  if op = 1 then
    (List.range (tileBlocks (mxFmt w0) (wlRows w0))).map (fun i => (0, wlBase w0 + i)) ++
      (List.range (tileScales (mxFmt w0))).map (fun i => (0, wlSbase w0 + i))
  else if op = 3 then
    (List.range (ewVBlocks w0)).map (fun i => (2, ewV w0 + i)) ++
      (if mxFmt w0 = 2 then (List.range 4).map (fun i => (2, ewU w0 + i)) else [])
  else if op = 5 || (op = 4 && mxFmt w0 != 0) then
    ((List.range (drRows w0 + 1)).map (fun r =>
      (List.range 4).map (fun j => (2, drBase w0 + r * drStride w0 + j)))).flatten
  else []

/-- Whether a nonzero reserved field or a reserved code stands in a command ("MXE field" at dispatch). -/
def mxFieldBad (w0 w1 : Nat) : Bool :=
  let op := cmdOP w0
  if op = 1 then fld w0 63 51 != 0 || w1 != 0 || mxFmt w0 > 0xB
  else if op = 2 then fld w0 63 55 != 0 || fld w1 63 28 != 0 || mxFmt w0 > 0xB ||
    (stWindow w1 && (stGroups w1 = 0 || stTaps w1 * stGroups w1 > 32))
  else if op = 3 then fld w0 63 56 != 0 || w1 != 0 || mxFmt w0 > 3
  else if op = 4 then fld w0 63 52 != 0 || w1 != 0 || mxFmt w0 > 2 || (1 ≤ fld w0 51 44 && fld w0 51 44 ≤ 3)
  else if op = 5 then fld w0 63 52 != 0 || w1 != 0 || mxFmt w0 != 0 || (1 ≤ fld w0 51 44 && fld w0 51 44 ≤ 3)
  else true

/-- Whether a command's accumulator rows run out of range. -/
def mxRowsBad (w0 w1 : Nat) : Bool :=
  let op := cmdOP w0
  if op = 2 then
    (if stWindow w1 then stCount w0 + 1 < stTaps w1 || stAcc0 w0 + stCount w0 - (stTaps w1 - 1) > 127
     else stAcc0 w0 + stCount w0 > 127)
  else if op = 3 then ewRow0 w0 + ewRows w0 > 127
  else if op = 4 || op = 5 then drRow0 w0 + drRows w0 > 127
  else false

/-- The dispatch checks of Table MXE.9 in the table's order: 0, or the trap cause. -/
def mxeDispCheck (s : State) (c w0 w1 : Nat) : Nat :=
  let op := cmdOP w0
  if mxFieldBad w0 w1 then 0x0C
  else if (mxBlocks w0).any (fun b => b.2 ≥ memBlocks b.1) || mxRowsBad w0 w1 then 0x0D
  else if op = 1 && !hasSlot s c 0 1 then 0x05
  else if op = 2 && !hasSlot s c 1 1 then 0x05
  else if (op = 3 || op = 5 || (op = 4 && mxFmt w0 != 0)) && !hasSlot s c 2 2 then 0x05
  else if (mxBlocks w0).any (fun b => !groupOn s c b.1 b.2) then 0x06
  else 0

/-! ## Start -/

/-- The weight format of the tile that the STREAM at queue index `i` will use: the tile of the latest earlier WLOAD
still queued, else the register's own. -/
def streamTileFmt (m : MxeSt) (i : Nat) (w0 : Nat) : Option Nat :=
  if stSwap w0 then
    match ((m.queue.take i).filter (fun k => cmdOP k.w0 == 1)).getLast? with
    | some k => some (mxFmt k.w0)
    | none => m.shadow.map (·.fmt)
  else
    match ((m.queue.take i).filter (fun k => cmdOP k.w0 == 2 && stSwap k.w0 && !k.promoted)).getLast? with
    | some _ =>
      match ((m.queue.take i).filter (fun k => cmdOP k.w0 == 1)).getLast? with
      | some k => some (mxFmt k.w0)
      | none => m.shadow.map (·.fmt)
    | none => m.active.map (·.fmt)

/-- Bytes of one activation vector (R93, R96). -/
def vecBytes (wf af w1 : Nat) : Nat :=
  if stWindow w1 then stGroups w1 * fmtBits af / 8 else fmtK wf * fmtBits af / 8

/-- Byte offset of vector m in ASP. -/
def vecOff (wf w0 w1 m : Nat) : Nat :=
  let st := if fld w0 36 29 = 0 then vecBytes wf (mxFmt w0) w1 else 16 * fld w0 36 29
  16 * fld w0 28 16 + m * st

/-- Byte offset of the scale bytes of vector m. -/
def sclOff (wf w1 m : Nat) : Nat := fld w1 16 0 + m * (fmtK wf / 32)

/-- The byte ranges of ASP that a STREAM reads, offset and length, in the order of their first use (R93). -/
def streamRanges (wf w0 w1 : Nat) : List (Nat × Nat) :=
  ((List.range (stCount w0 + 1)).map (fun m => (vecOff wf w0 w1 m, vecBytes wf (mxFmt w0) w1) ::
    (if fmtMx (mxFmt w0) then [(sclOff wf w1 m, fmtK wf / 32)] else []))).flatten

/-- The type tag a format group accumulates in. -/
def groupTag (f : Nat) : Nat := if fmtGroup f = 0 then 2 else 1

/-- The tag of an entry row. -/
def tagGet (m : MxeSt) (row : Nat) : Nat := stGet (fun _ => 0) m.tags row

/-- First entry and number of entries a STREAM accumulates into. -/
def streamRows (w0 w1 : Nat) : Nat × Nat :=
  (stHalf w0 * 128 + stAcc0 w0, if stWindow w1 then stCount w0 + 1 - (stTaps w1 - 1) else stCount w0 + 1)

/-- The start checks of a STREAM (Table MXE.9): 0, or the trap cause. -/
def streamStartCheck (s : State) (c i w0 w1 : Nat) : Nat :=
  let m := (cget s c).mxe
  let af := mxFmt w0
  match streamTileFmt m i w0 with
  | none => 0x0E
  | some wf =>
    if fmtGroup wf ≠ fmtGroup af then 0x0E
    else if (streamRanges wf w0 w1).any (fun r => r.1 + r.2 > 131072) then 0x0D
    else if (streamRanges wf w0 w1).any (fun r => (blksOf 1 r.1 r.2).any (fun b => !groupOn s c 1 (b - 3072))) then 0x06
    else if stWindow w1 && (fmt4 wf || fmtMx af || af = 1) then 0x0C
    else if !stInit w0 && (List.range (streamRows w0 w1).2).any (fun k =>
        let t := tagGet m ((streamRows w0 w1).1 + k)
        t ≠ 0 && t ≠ groupTag wf) then 0x0E
    else 0

/-- Whether the unit of a command is free: its loader or drain commands have finished, its array commands have
broadcast their last vector (R101, R103). -/
def unitFree (m : MxeSt) (u : Nat) : Bool :=
  m.queue.all (fun k => !k.started || mxUnit (cmdOP k.w0) != u || (if u = 1 then k.performed else k.finished))

/-- The start conditions of the command at queue index `i`, its ticket apart (R92, R101, R102). -/
def mxCanStart (m : MxeSt) (i : Nat) (k : MxeCmd) : Bool :=
  let op := cmdOP k.w0
  k.refused == 0 && unitFree m (mxUnit op) &&
  (op != 1 || (m.queue.take i).all (fun e => !(cmdOP e.w0 == 2 && stSwap e.w0) || e.promoted)) &&
  (op < 4 || (m.queue.take i).all (fun e =>
    !(cmdOP e.w0 == 2 || cmdOP e.w0 == 3) || mxHalf e.w0 != mxHalf k.w0 || e.finished))

def mxupd (c : Nat) (f : MxeSt → MxeSt) (s : State) : State := cupd c (fun k => { k with mxe := f k.mxe }) s

/-- Changes the command at queue index `i`. -/
def mxCmd (c i : Nat) (f : MxeCmd → MxeCmd) (s : State) : State :=
  mxupd c (fun m => { m with queue := m.queue.modify i f }) s

/-- Whether an earlier DRAIN or ACCLOAD still uses the half of the command at index `i` (R102). -/
def halfBusy (m : MxeSt) (i half : Nat) : Bool :=
  (m.queue.take i).any (fun e => cmdOP e.w0 ≥ 4 && mxHalf e.w0 == half && !e.finished)

/-- The command at queue index `i` as it starts, with the causes that freeze the array for it: "drain" while an earlier DRAIN or
ACCLOAD has its half, "weight" while a SWAP waits for an earlier WLOAD (R92, R102, R107). -/
def mxStarted (m : MxeSt) (i : Nat) (q : MxeCmd) : MxeCmd :=
  { q with
    started := true
    waitDrn := mxUnit (cmdOP q.w0) == 1 && halfBusy m i (mxHalf q.w0)
    waitWgt := cmdOP q.w0 == 2 && stSwap q.w0 && (m.queue.take i).any (fun e => cmdOP e.w0 == 1 && !e.finished) }

/-! ## Reading ahead -/

/-- The index of the oldest started command of an opcode that has not been performed. -/
def mxNext (m : MxeSt) (op : Nat) : Option Nat :=
  findIdx? (fun q : MxeCmd => q.started && !q.performed && cmdOP q.w0 == op) m.queue

/-- The same while the core advances (R42). -/
def mxRun (s : State) (c op : Nat) : Option Nat := if coreRuns s c then mxNext (cget s c).mxe op else none

/-- The blocks a STREAM reads, each once, in ascending order of first use. -/
def streamBlks (wf w0 w1 : Nat) : List Nat :=
  (((streamRanges wf w0 w1).map (fun r => blksOf 1 r.1 r.2)).flatten).foldl
    (fun acc b => if acc.contains b then acc else acc ++ [b]) []

/-- The blocks that the loader may have read by now: those of the WLOAD at work. -/
def loadAhead (m : MxeSt) : List Nat :=
  match (mxNext m 1).bind (fun i => m.queue[i]?) with
  | some q => (mxBlocks q.w0).map (·.2)
  | none => []

/-- The blocks that the feeder may have read by now: those of the STREAM at work, or the first 16 of the next STREAM while it waits
without a ticket condition (R103). -/
def streamAhead (m : MxeSt) : List Nat :=
  match findIdx? (fun q : MxeCmd => !q.performed && cmdOP q.w0 == 2) m.queue with
  | none => []
  | some i =>
    match m.queue[i]? with
    | none => []
    | some q =>
      match streamTileFmt m i q.w0 with
      | none => []
      | some wf =>
        if q.refused != 0 || (!q.started && cmdTW q.w0 != 0) then []
        else (streamBlks wf q.w0 q.w1).take (if q.started then 8192 else 16)

/-- The loader and the feeder read some of the blocks that they may read now (R95, R103): which ones is left open. -/
def feedAhead (c : Nat) (s : State) : State :=
  let bl := (loadAhead (cget s c).mxe ++ streamAhead (cget s c).mxe).filter (fun b => decide (b < 5120) && blkOn s c b &&
    !(cget s c).mxe.feed.any (fun e => e.1 == b))
  if bl.isEmpty then s
  else
    bl.foldl (fun r b =>
      if Config.freeBool s.fresh b then
        let (d, r) := spRead c b r
        mxupd c (fun m => { m with feed := m.feed ++ [(b, d)] }) r
      else r) { s with fresh := s.fresh + 1 }

/-- Reads blocks for the command at work: one read ahead delivers what it held then (R95). -/
def feedBlocks (c : Nat) : List Nat → State → List (Option (List Byte)) × State
  | [], s => ([], s)
  | b :: bs, s =>
    let (d, s) := match (cget s c).mxe.feed.find? (fun e => e.1 == b) with
      | some e => (e.2, s)
      | none => spRead c b s
    let (r, s) := feedBlocks c bs s
    (d :: r, s)

/-! ## Start of a command -/

/-- What the next MXE command can take from ticket t now (R116). -/
def mxeClaim (s : State) (c t : Nat) : Nat :=
  let k := cget s c
  match findIdx? (fun q : MxeCmd => !q.started) k.mxe.queue with
  | none => 0
  | some i =>
    match k.mxe.queue[i]? with
    | none => 0
    | some q => b2n (cmdTW q.w0 == t && engineFree k.seq 1 && mxCanStart k.mxe i q &&
        (cmdOP q.w0 != 2 || streamStartCheck s c i q.w0 q.w1 == 0))

/-- Whether the MXE is granted a ticket: SEQ alone comes before it (R116). -/
def mxeTicket (s : State) (c tw : Nat) : Bool := tkGrant s c tw (seqClaim s c tw)

/-- An MXE command starts when its unit is free, every earlier command has started and its ticket holds (R101, R103);
a command that a start check refuses leaves its ticket and raises the trap. -/
def execMxeCommandStart (c : Fin 4352) (s : State) : Res :=
  let k := cget s c
  match findIdx? (fun q : MxeCmd => !q.started) k.mxe.queue with
  | none => .next s
  | some i =>
    match k.mxe.queue[i]? with
    | none => .next s
    | some q =>
      if !(coreRuns s c && engineFree k.seq 1 && mxCanStart k.mxe i q && tkReady s c (cmdTW q.w0)) then .next s
      else
        let bad := if cmdOP q.w0 = 2 then streamStartCheck s c i q.w0 q.w1 else 0
        if bad ≠ 0 then
          .next (holdTrap c { src := 1, cause := bad, pc := q.pc, word := q.w0, detail := 0, detailHi := 0 }
            (mxCmd c i (fun q => { q with refused := bad }) s))
        else if !mxeTicket s c (cmdTW q.w0) then .next s
        else .next (feedAhead c (mxCmd c i (mxStarted k.mxe i) (tkTake c (cmdTW q.w0) s)))

/-! ## The accumulator file -/

def accKey (row col : Nat) : Nat := row * 64 + col

def accGet (m : MxeSt) (row col : Nat) : Word := stGet (fun _ => 0) m.acc (accKey row col)

def accPut (row col : Nat) (w : Word) (m : MxeSt) : MxeSt :=
  { m with acc := stSet (fun _ => 0) m.acc (accKey row col) w }

def tagPut (row t : Nat) (m : MxeSt) : MxeSt := { m with tags := stSet (fun _ => 0) m.tags row t }

def accMark (row col : Nat) (on : Bool) (m : MxeSt) : MxeSt :=
  { m with marks := if on then nsAdd m.marks (accKey row col) else nsDel m.marks (accKey row col) }

def accMarked (m : MxeSt) (row col : Nat) : Bool := nsHas m.marks (accKey row col)

/-- Adds counts to COR_MXE_NUM (Table MXE.14). -/
def mxNum (c nan ovf sat scaleNan : Nat) (s : State) : State :=
  corUpd c 0x118 (fun w => wSatAdd (wSatAdd (wSatAdd (wSatAdd w 31 24 nan) 23 16 ovf) 15 8 sat) 7 0 scaleNan) s

/-- Advancing cycles of an array command: a vector period for each vector of a STREAM, one for each row of an EWISE (R87, R98, R107).
DEDUCED (log entry 198). -/
def mxAdv (wf w0 : Nat) : Nat :=
  if cmdOP w0 = 2 then (stCount w0 + 1) * (if fmt16 wf then 4 else 1) else ewRows w0 + 1

/-- Cycles that the governor holds, at level `l` from its cycle `ph` on, until `n` further cycles have advanced: cycle i advances
where (i × l) mod 16 < l (R42). -/
def heldCycles (l ph n : Nat) : Nat :=
  if l = 0 || n = 0 then 0 else ceilDiv (16 * (ceilDiv (ph * l) 16 + n - 1)) l + 1 - ph - n

/-- Adds an array command's cycles to the counters of Table MXE.13 and to the events that follow them (R107). -/
def mxCycles (c : Nat) (y : MxeCycles) (wf : Nat) (q : MxeCmd) (s : State) : State :=
  let add (o n : Nat) (s : State) : State := corUpd c o (fun w => w + BitVec.ofNat 32 n) s
  let adv := mxAdv wf q.w0
  let drn := if q.waitDrn then y.drn else 0
  let wgt := if q.waitWgt then y.wgt else 0
  let pwr := heldCycles (levelOf s (coreClu c)) y.phase (adv + drn + wgt + y.feed)
  tallyCore c 0x0110 adv none (tallyCore c 0x0111 (pwr + drn + wgt + y.feed) none
    (add 0x104 adv (add 0x108 pwr (add 0x10C drn (add 0x110 wgt (add 0x114 y.feed s))))))

/-! ## WLOAD -/

/-- The raw cells of tile row r: one code per column, from the row's blocks (Table MXE.5). -/
def tileRow (fmt cols : Nat) (blks : List (Option (List Byte))) (r : Nat) : List Nat :=
  (List.range cols).map (fun col =>
    if fmt16 fmt then leAt ((listAt blks (2 * r + col / 32) none).getD []) (2 * (col % 32)) 2
    else leAt ((listAt blks r none).getD []) col 1)

/-- Whether a row read poison in its element blocks or in the scale block that covers it (R100). -/
def tileRowMark (fmt : Nat) (blks scl : List (Option (List Byte))) (r : Nat) : Bool :=
  (if fmt16 fmt then (listAt blks (2 * r) none).isNone || (listAt blks (2 * r + 1) none).isNone
   else (listAt blks r none).isNone) ||
  (fmtMx fmt && (listAt scl (if fmt4 fmt then r / 16 else 0) none).isNone)

/-- Scale bytes of 0xFF that a tile uses: one per enabled column and scale block that covers an enabled row (R88). Bytes of disabled
columns and of a scale block without enabled rows do not count. DESIGN CHOICE (log entry 188). -/
def tileScaleNan (t : Tile) : Nat :=
  sumNat ((List.range t.scales.length).map (fun b =>
    if b = 1 && t.rows ≤ 16 then 0
    else ((List.range t.cols).filter (fun col => listAt (listAt t.scales b []) col 0 == 255)).length))

/-- WLOAD loads a weight tile from WSP into the shadow register (R90, R100). -/
def execWload (c : Fin 4352) (s : State) : Res :=
  match mxRun s c 1 with
  | none => .next s
  | some i =>
    match (cget s c).mxe.queue[i]? with
    | none => .next s
    | some q =>
      let f := mxFmt q.w0
      let rows := wlRows q.w0
      let cols := wlCols q.w0
      let (blks, s) := feedBlocks c ((List.range (tileBlocks f rows)).map (fun k => wlBase q.w0 + k)) s
      let (scl, s) := feedBlocks c ((List.range (tileScales f)).map (fun k => wlSbase q.w0 + k)) s
      let t : Tile :=
        { fmt := f, rows := rows, cols := cols, cells := (List.range rows).map (tileRow f cols blks)
          scales := scl.map (fun b => (List.range cols).map (fun col => leAt (b.getD []) col 1))
          marks := (List.range rows).map (tileRowMark f blks scl) }
      .next (mxCmd c i (fun q => { q with performed := true })
        (mxupd c (fun m => { m with shadow := some t, shadowFull := false, feed := m.feed.filter (fun e => decide (3072 ≤ e.1)) })
          (mxNum c 0 0 0 (tileScaleNan t) s)))

/-! ## STREAM -/

/-- A byte of ASP among blocks read: none where its block delivered poison. -/
def aspByte (bs : List (Nat × Option (List Byte))) (off : Nat) : Option Nat :=
  match bs.find? (fun e => e.1 == 3072 + off / 64) with
  | some (_, some d) => some (listAt d (off % 64) 0).toNat
  | _ => none

/-- Element e of the vector at byte offset `off`: its code, or none for poison. -/
def vecElem (bs : List (Nat × Option (List Byte))) (af off e : Nat) : Option Nat :=
  if af = 1 || af = 8 then (aspByte bs (off + e / 2)).map (fun b => b / 16 ^ (e % 2) % 16)
  else if fmt16 af then
    match aspByte bs (off + 2 * e), aspByte bs (off + 2 * e + 1) with
    | some a, some b => some (a + 256 * b)
    | _, _ => none
  else aspByte bs (off + e)

/-- The operand that array row `r` takes in the vector period of entry `i`: vector number and element indices. -/
def rowOperand (wf w1 i r : Nat) : Option (Nat × List Nat) :=
  if stWindow w1 then
    let j := stTaps w1
    if r < j * stGroups w1 then some (i + r % j, [r / j]) else none
  else if fmt4 wf then some (i, [2 * r, 2 * r + 1])
  else some (i, [r])

/-- The weight codes of array row `r`, column `col`: one, or two in the 4-bit class. -/
def rowWeights (t : Tile) (r col : Nat) : List Nat :=
  let b := listAt (listAt t.cells r []) col 0
  if fmt4 t.fmt then [b % 16, b / 16 % 16] else [b]

/-- The rows of a tile that take part in entry `i` of a STREAM, with their operand. -/
def streamTerms (t : Tile) (w1 i : Nat) : List (Nat × Nat × List Nat) :=
  (List.range t.rows).filterMap (fun r => (rowOperand t.fmt w1 i r).map (fun o => (r, o.1, o.2)))

/-- The scale block along K of array row `r`. -/
def rowBlock (f r : Nat) : Nat := if fmt4 f then r / 16 else 0

/-- Whether entry `i` reads poison: a marked row, or an element or scale byte of a poisoned block. -/
def streamPoison (bs : List (Nat × Option (List Byte))) (t : Tile) (w0 w1 i : Nat) : Bool :=
  (streamTerms t w1 i).any (fun x =>
    listAt t.marks x.1 false ||
    x.2.2.any (fun e => (vecElem bs (mxFmt w0) (vecOff t.fmt w0 w1 x.2.1) e).isNone) ||
    (fmtMx (mxFmt w0) && (aspByte bs (sclOff t.fmt w1 x.2.1 + rowBlock t.fmt x.1)).isNone))

/-- One entry of a STREAM: the accumulation of column `col` of entry `i` onto the old entry (none where replaced). Poisoned operands
count as zero codes, in COR_MXE_NUM too (R100). DESIGN CHOICE (log entry 188). -/
def streamCell (bs : List (Nat × Option (List Byte))) (t : Tile) (w0 w1 i col : Nat) (old : Option Word) : AccRes :=
  let af := mxFmt w0
  let raw := (streamTerms t w1 i).map (fun x =>
    ((rowWeights t x.1 col).zip x.2.2).map (fun we =>
      (we.1, (vecElem bs af (vecOff t.fmt w0 w1 x.2.1) we.2).getD 0, x.1, x.2.1)))
  if fmtGroup t.fmt = 0 then
    accInt (raw.flatten.map (fun p => (intElem t.fmt p.1, intElem af p.2.1))) ((old.map BitVec.toInt).getD 0)
  else
    let pairs := raw.flatten.map (fun p =>
      let b := rowBlock t.fmt p.2.2.1
      let w := flElem t.fmt p.1
      let a := flElem af p.2.1
      (if fmtMx t.fmt then e8m0 (listAt (listAt t.scales b []) col 0) w else w,
       if fmtMx af then e8m0 ((aspByte bs (sclOff t.fmt w1 p.2.2.2 + b)).getD 0) a else a))
    accFloat (fmt16 t.fmt) pairs (old.map f32)

/-- Activation scale bytes of 0xFF that a STREAM uses, each counted once. -/
def streamScaleNan (bs : List (Nat × Option (List Byte))) (t : Tile) (w0 w1 : Nat) : Nat :=
  if !fmtMx (mxFmt w0) then 0
  else sumNat ((List.range (stCount w0 + 1)).map (fun m =>
    ((List.range (fmtK t.fmt / 32)).filter (fun b =>
      (b = 0 || t.rows > 16) && aspByte bs (sclOff t.fmt w1 m + b) == some 255)).length))

/-- Accumulates one entry row of a STREAM: the engine, the counts and whether a marked entry was written. -/
def streamRow (bs : List (Nat × Option (List Byte))) (t : Tile) (w0 w1 i : Nat) (acc : MxeSt × Nat × Nat × Nat × Bool) :
    MxeSt × Nat × Nat × Nat × Bool :=
  let row := (streamRows w0 w1).1 + i
  let bad := streamPoison bs t w0 w1 i
  let (m, n, o, sa, mk) := acc
  let (m, n, o, sa, mk) := (List.range t.cols).foldl (fun acc col =>
    let (m, n, o, sa, mk) := acc
    let r := streamCell bs t w0 w1 i col (if stInit w0 then none else some (accGet m row col))
    let marked := bad || (!stInit w0 && accMarked m row col)
    (accMark row col marked (accPut row col (BitVec.ofNat 32 r.bits) m), n + r.nan, o + r.ovf, sa + r.sat, mk || marked))
    (m, n, o, sa, mk)
  (tagPut row (groupTag t.fmt) m, n, o, sa, mk)

/-- STREAM broadcasts its vectors and accumulates into its entry rows (R83, R84, R93, R96, R97, R100); the feeder goes on to the next
one. -/
def execStream (c : Fin 4352) (y : MxeCycles) (s : State) : Res :=
  match mxRun s c 2 with
  | none => .next s
  | some i =>
    match (cget s c).mxe.queue[i]?, (cget s c).mxe.active with
    | some q, some t =>
      if halfBusy (cget s c).mxe i (stHalf q.w0) || (stSwap q.w0 && !q.promoted) then .next s
      else
        let bl := streamBlks t.fmt q.w0 q.w1
        let (ds, s) := feedBlocks c bl s
        let bs := bl.zip ds
        let (m, n, o, sa, mk) := (List.range (streamRows q.w0 q.w1).2).foldl
          (fun a k => streamRow bs t q.w0 q.w1 k a) ((cget s c).mxe, 0, 0, 0, false)
        .next (feedAhead c (mxCycles c y t.fmt q (mxNum c n o sa (streamScaleNan bs t q.w0 q.w1)
          (mxCmd c i (fun q => { q with performed := true, poison := mk })
            (mxupd c (fun _ => { m with feed := m.feed.filter (fun e => decide (e.1 < 3072)) }) s)))))
    | _, _ => .next s

/-! ## EWISE, ACCLOAD, DRAIN -/

/-- An FP32 operand of EWISE: value i of a vector that starts at the first of the blocks read. -/
def ewOperand (bs : List (Option (List Byte))) (i : Nat) : Option Nat :=
  (listAt bs (i / 16) none).map (fun d => leAt d (4 * (i % 16)) 4)

/-- An entry as FP32: an INT32 row converts, rounding to nearest even (R98). -/
def ewEntry (m : MxeSt) (row col : Nat) : Nat :=
  if tagGet m row = 2 then (f32Code (flOfInt (accGet m row col).toInt 0)).1 else (accGet m row col).toNat

/-- The element-wise operation on one entry: MUL, ADD, FMA or MULROW. -/
def ewOp (eop entry a b : Nat) : AccRes :=
  let x := flDecode fp32 entry
  let y := flDecode fp32 a
  let z := flDecode fp32 b
  let nanIn := x.isNan || y.isNan || (eop = 2 && z.isNan)
  let (p, made) := flMul x y
  let r := if eop = 1 then flSum [x, y] else if eop = 2 then flSum [p, z] else (p, made)
  if nanIn then { bits := 0x7FC00000, nan := 0, ovf := 0, sat := 0 }
  else if made && eop ≠ 1 then { bits := 0x7FC00000, nan := 1, ovf := 0, sat := 0 }
  else accRound r

/-- EWISE applies MUL, ADD, FMA or MULROW to a range of entry rows (R98, R100). -/
def execEwise (c : Fin 4352) (y : MxeCycles) (s : State) : Res :=
  match mxRun s c 3 with
  | none => .next s
  | some i =>
    match (cget s c).mxe.queue[i]? with
    | none => .next s
    | some q =>
      if halfBusy (cget s c).mxe i (ewHalf q.w0) then .next s
      else
        let eop := mxFmt q.w0
        let (av, s) := spReadBlocks c ((List.range (ewVBlocks q.w0)).map (fun k => 5120 + ewV q.w0 + k)) s
        let (bv, s) := spReadBlocks c
          (if eop = 2 then (List.range 4).map (fun k => 5120 + ewU q.w0 + k) else []) s
        let cell (rr col : Nat) (acc : MxeSt × Nat × Nat × Bool) : MxeSt × Nat × Nat × Bool :=
          let (m, n, o, mk) := acc
          let row := ewHalf q.w0 * 128 + ewRow0 q.w0 + rr
          let a := ewOperand av (if eop = 3 then rr else col)
          let b := if eop = 2 then ewOperand bv col else some 0
          let r := ewOp eop (ewEntry m row col) (a.getD 0) (b.getD 0)
          let marked := a.isNone || b.isNone || accMarked m row col
          (accMark row col marked (accPut row col (BitVec.ofNat 32 r.bits) m), n + r.nan, o + r.ovf, mk || marked)
        let (m, n, o, mk) := (List.range (ewRows q.w0 + 1)).foldl (fun acc rr =>
          let (m, n, o, mk) := (List.range 64).foldl (fun acc col => cell rr col acc) acc
          (tagPut (ewHalf q.w0 * 128 + ewRow0 q.w0 + rr) 1 m, n, o, mk)) ((cget s c).mxe, 0, 0, false)
        .next (mxCycles c y 0 q (mxNum c n o 0 0
          (mxCmd c i (fun q => { q with performed := true, poison := mk }) (mxupd c (fun _ => m) s))))

/-- Zeroes an entry row, removing its tag and marks (ACCLOAD MODE 0). -/
def zeroRow (row : Nat) (m : MxeSt) : MxeSt :=
  { m with acc := stDrop m.acc (row * 64) 64, tags := stDel m.tags row, marks := nsDrop m.marks (row * 64) 64 }

/-- Loads an entry row from its four PSP blocks; a poisoned block marks the row (R99, R100). -/
def loadRow (row mode : Nat) (bs : List (Option (List Byte))) (m : MxeSt) : MxeSt :=
  let bad := bs.any Option.isNone
  let m := (List.range 64).foldl (fun m col =>
    let w := BitVec.ofNat 32 ((ewOperand bs col).getD 0)
    let m := accPut row col w m
    if bad then accMark row col true m else m) m
  tagPut row mode m

/-- ACCLOAD loads entry rows from PSP, or zeroes them, and sets their type tag (R99). -/
def execAccload (c : Fin 4352) (s : State) : Res :=
  match mxRun s c 4 with
  | none => .next s
  | some i =>
    match (cget s c).mxe.queue[i]? with
    | none => .next s
    | some q =>
      let mode := mxFmt q.w0
      let row0 := drHalf q.w0 * 128 + drRow0 q.w0
      let (s, mk) := (List.range (drRows q.w0 + 1)).foldl (fun (acc : State × Bool) r =>
        if mode = 0 then (mxupd c (zeroRow (row0 + r)) acc.1, acc.2)
        else
          let (bs, s) := spReadBlocks c
            ((List.range 4).map (fun j => 5120 + drBase q.w0 + r * drStride q.w0 + j)) acc.1
          (mxupd c (loadRow (row0 + r) mode bs) s, acc.2 || bs.any Option.isNone)) (s, false)
      .next (mxCmd c i (fun q => { q with performed := true, poison := mk }) s)

/-- The 64 bytes of block j of an entry row: columns 16j to 16j + 15. -/
def drainBytes (m : MxeSt) (row j : Nat) : List Byte :=
  ((List.range 16).map (fun k => leBytes 4 (accGet m row (16 * j + k)).toNat)).flatten

/-- DRAIN writes entry rows to PSP; a block that holds a marked entry is written as stored poison (R99, R100). -/
def execDrain (c : Fin 4352) (s : State) : Res :=
  match mxRun s c 5 with
  | none => .next s
  | some i =>
    match (cget s c).mxe.queue[i]? with
    | none => .next s
    | some q =>
      let m := (cget s c).mxe
      let s := iter (drRows q.w0 + 1) (fun r s =>
        let row := drHalf q.w0 * 128 + drRow0 q.w0 + r
        iter 4 (fun j s =>
          let b := 5120 + drBase q.w0 + r * drStride q.w0 + j
          if (List.range 16).any (fun k => accMarked m row (16 * j + k)) then spPoison c b s
          else spWrite c b (drainBytes m row j) s) s) s
      .next (mxCmd c i (fun q => { q with performed := true }) s)

/-! ## Promotion, finish, retirement -/

/-- A started SWAP STREAM promotes the shadow tile once every earlier WLOAD has finished (R92). -/
def execShadowPromote (c : Fin 4352) (s : State) : Res :=
  let m := (cget s c).mxe
  match findIdx? (fun q : MxeCmd => q.started && !q.performed && cmdOP q.w0 == 2 && stSwap q.w0 && !q.promoted) m.queue with
  | none => .next s
  | some i =>
    if (m.queue.take i).any (fun e => cmdOP e.w0 == 1 && !e.finished) || !coreRuns s c then .next s
    else .next (mxCmd c i (fun q => { q with promoted := true })
      (mxupd c (fun m => { m with active := m.shadow, shadowFull := false }) s))

/-- The last pipeline write of the command at a queue position completes and it finishes; a finished WLOAD leaves the
shadow register complete (R91, R105). -/
def execMxeCommandFinish (c : Fin 4352) (i : Fin 8) (s : State) : Res :=
  match (cget s c).mxe.queue[i.val]? with
  | none => .next s
  | some q =>
    if !q.performed || q.finished || !coreRuns s c then .next s
    else .next (mxupd c (fun m => if cmdOP q.w0 = 1 then { m with shadowFull := true } else m)
      (mxCmd c i (fun q => { q with finished := true }) s))

/-- The oldest command retires once it has finished: its TS ticket is incremented, and a command that wrote a marked
entry traps with cause "operand poison" (R100, R103). It waits while the engine's trap of an earlier one is still held, since each
such command traps. DEDUCED (log entry 198). -/
def execMxeCommandRetire (c : Fin 4352) (s : State) : Res :=
  match (cget s c).mxe.queue with
  | [] => .next s
  | q :: rest =>
    if !q.finished || !coreRuns s c || (q.poison && srcHeld (sq s c) 1 && (sq s c).stop != 3) then .next s
    else
      let s := mxupd c (fun m => { m with queue := rest, lastOp := cmdOP q.w0 }) s
      let s := tallyCore c 0x0112 1 none (tkAdd c (cmdTS q.w0) 1 1 q.pc q.w0 s)
      .next (if q.poison then
        holdTrap c { src := 1, cause := 0x0B, pc := q.pc, word := q.w0, detail := 0, detailHi := 0 } s else s)

end Sys2Proof.Machine
end

