-- ==== Sys2Proof/Machine/Vxe.lean ====
section
/-! DEFINITION. The vector engine: fields, dispatch checks, every function, and retirement (R120 to R128). -/

namespace Sys2Proof.Machine

/-! ## Fields of Table TILE.7 -/

def vxSB (w0 : Nat) : Bool := bitAt w0 37
def vxBF (w0 : Nat) : Bool := bitAt w0 36
def vxVC (w0 : Nat) : Nat := fld w0 35 31
def vxVB (w0 : Nat) : Nat := fld w0 30 26
def vxVA (w0 : Nat) : Nat := fld w0 25 21
def vxVD (w0 : Nat) : Nat := fld w0 20 16
def vxFN (w0 : Nat) : Nat := fld w0 15 12
def vxSoff (w1 : Nat) : Nat := fld w1 47 30
def vxSat (w1 : Nat) : Bool := bitAt w1 24
def vxFmt (w1 : Nat) : Nat := fld w1 23 20
def vxSpace (w1 : Nat) : Nat := fld w1 19 18
def vxOff (w1 : Nat) : Nat := fld w1 17 0

/-- Elements of a VLD or VST. -/
def vxCount (w0 : Nat) : Nat := if vxBF w0 then 128 else 64

/-- Bytes of the element area of a VLD, VST or QMX. -/
def vxBytes (w0 w1 : Nat) : Nat :=
  if cmdOP w0 = 6 then (if vxFmt w1 = 8 then 32 else 64) else vxCount w0 * elemBytes (vxFmt w1)

/-- A reserved OP, FN or format code, a nonzero reserved field, or a mode the function does not have. BF of a QMX or RNG command is
not looked at (R125). DESIGN CHOICE (log entry 190). -/
def vxFieldBad (w0 w1 : Nat) : Bool :=
  let op := cmdOP w0
  let fn := vxFN w0
  fld w0 63 38 != 0 || op = 0 || op > 7 ||
  (op = 3 && fn > 0xA) || (op = 4 && fn > 3) || (op = 5 && (fn > 2 || vxBF w0)) ||
  ((op = 1 || op = 2 || op = 6 || op = 7) && fn != 0) ||
  ((op = 1 || op = 2 || op = 6) && (fld w1 63 48 != 0 || fld w1 29 25 != 0 || vxSpace w1 = 3)) ||
  ((op = 1 || op = 2) && (vxSoff w1 != 0 || vxFmt w1 = 0 || vxFmt w1 > 7 || vxOff w1 % 64 != 0 ||
    (vxBF w0 && !(vxFmt w1 = 2 || vxFmt w1 = 4 || vxFmt w1 = 5 || vxFmt w1 = 6)))) ||
  (op = 1 && vxSat w1) ||
  (op = 6 && (vxFmt w1 < 4 || vxFmt w1 > 9)) ||
  (op = 3 && (if vxSB w0 then fld w1 63 32 != 0 else w1 != 0)) ||
  ((op = 4 || op = 5) && w1 != 0)

/-- The byte ranges a VLD, VST or QMX touches. -/
def vxRanges (w0 w1 : Nat) : List (Nat × Nat) :=
  let op := cmdOP w0
  if op = 1 || op = 2 then [(vxOff w1, vxBytes w0 w1)]
  else if op = 6 then [(vxOff w1, vxBytes w0 w1), (vxSoff w1, 2)]
  else []

/-- The dispatch checks of R128: 0, or the trap cause. -/
def vxeDispCheck (s : State) (c w0 w1 : Nat) : Nat :=
  let m := vxSpace w1
  if vxFieldBad w0 w1 then 0x0F
  else if (vxRanges w0 w1).any (fun r => r.1 + r.2 > 64 * memBlocks m) then 0x10
  else if !(vxRanges w0 w1).isEmpty && !hasSlot s c m 3 then 0x05
  else if (vxRanges w0 w1).any (fun r => (blksOf m r.1 r.2).any (fun b => !groupOn s c m (b - memFirst m))) then 0x06
  else 0

/-! ## Registers -/

def vGet (v : VxeSt) (r lane : Nat) : Nat := (stGet (fun _ => 0) v.v (r * 64 + lane)).toNat

/-- Writes a lane with its poison mark. -/
def vPut (r lane w : Nat) (mark : Bool) (v : VxeSt) : VxeSt :=
  { v with v := stSet (fun _ => 0) v.v (r * 64 + lane) (BitVec.ofNat 32 w)
           marks := if mark then nsAdd v.marks (r * 64 + lane) else nsDel v.marks (r * 64 + lane) }

def vMarked (v : VxeSt) (r lane : Nat) : Bool := nsHas v.marks (r * 64 + lane)

/-- Writes all 64 lanes of a register from a function of the lane, the old registers being its source. -/
def vPutAll (r : Nat) (f : Nat → Nat × Bool) (v : VxeSt) : VxeSt :=
  (List.range 64).foldl (fun v i => vPut r i (f i).1 (f i).2 v) v

def vxupd (c : Nat) (f : VxeSt → VxeSt) (s : State) : State := cupd c (fun k => { k with vxe := f k.vxe }) s

/-- Adds counts to COR_VXE_NUM (Table TILE.27). -/
def vxNum (c nan sclamp sat cvt : Nat) (s : State) : State :=
  corUpd c 0x300 (fun w => wSatAdd (wSatAdd (wSatAdd (wSatAdd w 31 24 nan) 23 16 sclamp) 15 8 sat) 7 0 cvt) s

/-- The next VXE command and its index, if nothing but its ticket may keep it from starting. -/
def vxHead (s : State) (c : Nat) : Option (Nat × VxeCmd) :=
  let k := cget s c
  match findIdx? (fun q : VxeCmd => !q.performed) k.vxe.queue with
  | none => none
  | some i =>
    match k.vxe.queue[i]? with
    | none => none
    | some q => if q.refused = 0 && engineFree k.seq 2 then some (i, q) else none

/-- What the next VXE command can take from ticket t now (R116). -/
def vxeClaim (s : State) (c t : Nat) : Nat :=
  match vxHead s c with
  | some (_, q) => b2n (cmdTW q.w0 == t)
  | none => 0

/-- Whether the VXE is granted a ticket: SEQ and the MXE come before it (R116). -/
def vxeTicket (s : State) (c tw : Nat) : Bool := tkGrant s c tw (if tw = 0 then 0 else seqClaim s c tw + mxeClaim s c tw)

/-- The index of the command that issues next, when it is an `op` with function `fn` that may start. -/
def vxNext (s : State) (c op fn : Nat) : Option (Nat × VxeCmd) :=
  match vxHead s c with
  | none => none
  | some (i, q) =>
    if cmdOP q.w0 = op && vxFN q.w0 = fn && coreRuns s c && vxeTicket s c (cmdTW q.w0) then some (i, q) else none

/-- Marks a command performed and takes its ticket. -/
def vxDone (c i : Nat) (q : VxeCmd) (poison : Bool) (s : State) : State :=
  tkTake c (cmdTW q.w0)
    (vxupd c (fun v => { v with queue := v.queue.modify i (fun q => { q with performed := true, poison := poison }) }) s)

/-! ## Loads and stores -/

/-- VLD reads and widens elements into a register; poison marks the lanes it reaches (R122, R128). -/
def execVld (c : Fin 4352) (s : State) : Res :=
  match vxNext s c 1 0 with
  | none => .next s
  | some (i, q) =>
    let m := vxSpace q.w1
    let f := vxFmt q.w1
    let n := elemBytes f
    let (bs, s) := spReadBlocks c (blksOf m (vxOff q.w1) (vxBytes q.w0 q.w1)) s
    let elem (e : Nat) : Option Nat := (listAt bs (e * n / 64) none).map (fun d => leAt d (e * n % 64) n)
    let wide (e : Nat) : Nat := (convert f (if vxBF q.w0 then 2 else 1) false ((elem e).getD 0)).1
    let lane (k : Nat) : Nat × Bool :=
      if vxBF q.w0 then (wide (2 * k) + 65536 * wide (2 * k + 1), (elem (2 * k)).isNone || (elem (2 * k + 1)).isNone)
      else (wide k, (elem k).isNone)
    .next (vxDone c i q (bs.any Option.isNone) (vxupd c (vPutAll (vxVD q.w0) lane) s))

/-- The bytes a VST writes and the counts of its conversions. -/
def vstBytes (v : VxeSt) (w0 w1 : Nat) : List Byte × Nat × Nat :=
  let f := vxFmt w1
  (List.range (vxCount w0)).foldl (fun acc e =>
    let x := if vxBF w0 then fld (vGet v (vxVA w0) (e / 2)) (16 * (e % 2) + 15) (16 * (e % 2)) else vGet v (vxVA w0) e
    let (code, sat, cv) := convert (if vxBF w0 then 2 else 1) f (vxSat w1) x
    (acc.1 ++ leBytes (elemBytes f) code, acc.2.1 + sat, acc.2.2 + cv)) ([], 0, 0)

/-- VST narrows a register and writes it; a block that holds a marked lane is written as stored poison (R122, R128). -/
def execVst (c : Fin 4352) (s : State) : Res :=
  match vxNext s c 2 0 with
  | none => .next s
  | some (i, q) =>
    let m := vxSpace q.w1
    let v := (cget s c).vxe
    let (bytes, sat, cv) := vstBytes v q.w0 q.w1
    let per := 64 / elemBytes (vxFmt q.w1)
    let s := iter (bytes.length / 64) (fun b s =>
      let blk := memFirst m + vxOff q.w1 / 64 + b
      let bad := (List.range per).any (fun e =>
        vMarked v (vxVA q.w0) (if vxBF q.w0 then (b * per + e) / 2 else b * per + e))
      if bad then spPoison c blk s else spWrite c blk ((bytes.drop (64 * b)).take 64) s) s
    .next (vxDone c i q false (vxNum c 0 0 sat cv s))

/-! ## ALU and SFU -/

/-- The result of a lane operation: code, counts for NAN and SAT. -/
structure LaneRes where
  code : Nat
  nan : Nat
  sat : Nat
  deriving DecidableEq, Repr

/-- Rounds an exact result to a format; a NaN has open sign and payload. -/
def laneRound (f : FlFmt) (a b x : Nat) (nanIn : Bool) (r : Fl × Bool) : LaneRes :=
  let cut (w : Nat) : Nat := if f.mb = 23 then w else
    let h := w / 65536
    if h % 128 = 0 then h + 1 else h
  match r.1 with
  | .nan _ => { code := cut (vxeNan a b x), nan := b2n (!nanIn), sat := 0 }
  | v =>
    let (code, o) := flEncode f false v
    { code := code, nan := 0, sat := b2n o }

/-- The maximum or minimum of two codes: NaN when either is NaN. -/
def laneMax (f : FlFmt) (mn : Bool) (a b : Nat) : LaneRes :=
  let x := flDecode f a
  let y := flDecode f b
  if x.isNan || y.isNan then laneRound f a b 0 true (.nan false, false)
  else if x.isZero && y.isZero && x.neg != y.neg then
    { code := if Config.maxZero a b then a else b, nan := 0, sat := 0 }
  else
    let pickA := if mn then flGt y x else flGt x y
    { code := if pickA then a else b, nan := 0, sat := 0 }

/-- An ALU function on codes of a format (Table TILE.10). A BF16 result is the exact one rounded once (R123). DESIGN CHOICE (log
entry 190). -/
def laneAlu (f : FlFmt) (fn a b x : Nat) : LaneRes :=
  let u := flDecode f a
  let v := flDecode f b
  let w := flDecode f x
  let sign := 2 ^ (f.eb + f.mb)
  match fn with
  | 0 => laneRound f a b 0 (u.isNan || v.isNan) (flSum [u, v])
  | 1 => laneRound f a b 1 (u.isNan || v.isNan) (flSum [u, v.flip])
  | 2 => laneRound f a b 2 (u.isNan || v.isNan) (flMul u v)
  | 3 =>
    let (p, made) := flMul u v
    let (r, made') := flSum [p, w]
    laneRound f a b x (u.isNan || v.isNan || w.isNan) (r, made || made')
  | 4 => laneMax f false a b
  | 5 => laneMax f true a b
  | 6 => { code := if flGt u v then (2 ^ (f.eb - 1) - 1) * 2 ^ f.mb else 0, nan := 0, sat := 0 }
  | 7 => { code := if w.isZero then b else a, nan := 0, sat := 0 }
  | 8 => { code := a % sign, nan := 0, sat := 0 }
  | 9 => { code := (a + sign) % (2 * sign), nan := 0, sat := 0 }
  | _ => { code := b, nan := 0, sat := 0 }

/-- An SFU function on FP32 bits (Table TILE.10). -/
def laneSfu (fn a : Nat) : LaneRes :=
  let r := if fn = 0 then f32Exp a else if fn = 1 then f32Exp2 a else if fn = 2 then f32Rcp a else f32Rsq a
  if (flDecode fp32 r.1).isNan then
    { code := vxeNan a 0 (16 + fn), nan := b2n (!(flDecode fp32 a).isNan), sat := 0 }
  else { code := r.1, nan := 0, sat := b2n r.2 }

/-- An SFU function on a BF16 code: computed in FP32, rounded once to BF16. -/
def laneSfuBf (fn a : Nat) : LaneRes :=
  let r := laneSfu fn (a * 65536)
  if (flDecode fp32 r.code).isNan then
    { r with code := if r.code / 65536 % 128 = 0 then r.code / 65536 + 1 else r.code / 65536 }
  else
    let (code, o) := flEncode bf16 false (flDecode fp32 r.code)
    { code := code, nan := r.nan, sat := max r.sat (b2n o) }

/-- Applies a function to a lane: whole in FP32 mode, to each half in BF16 mode. -/
def onLane (bf : Bool) (f32f bff : Nat → Nat → Nat → LaneRes) (a b x : Nat) : LaneRes :=
  if bf then
    let l := bff (a % 65536) (b % 65536) (x % 65536)
    let h := bff (a / 65536) (b / 65536) (x / 65536)
    { code := l.code + 65536 * h.code, nan := l.nan + h.nan, sat := l.sat + h.sat }
  else f32f a b x

/-- Which of the sources VA, B and VC a function uses, for the propagation of marks (R128). -/
def vxUses (op fn : Nat) : Bool × Bool × Bool :=
  if op = 4 then (true, false, false)
  else if fn = 3 || fn = 7 then (true, true, true)
  else if fn = 8 || fn = 9 then (true, false, false)
  else if fn = 0xA then (false, true, false)
  else (true, true, false)

/-- Issues an ALU or SFU command: every lane, its marks, its counts. -/
def vxLanes (c op fn : Nat) (s : State) : State :=
  match vxNext s c op fn with
  | none => s
  | some (i, q) =>
    let v := (cget s c).vxe
    let u := vxUses op fn
    let b (k : Nat) : Nat := if vxSB q.w0 && op = 3 then fld q.w1 31 0 else vGet v (vxVB q.w0) k
    let res (k : Nat) : LaneRes :=
      if op = 3 then
        onLane (vxBF q.w0) (laneAlu fp32 fn) (laneAlu bf16 fn) (vGet v (vxVA q.w0) k) (b k) (vGet v (vxVC q.w0) k)
      else onLane (vxBF q.w0) (fun a _ _ => laneSfu fn a) (fun a _ _ => laneSfuBf fn a) (vGet v (vxVA q.w0) k) 0 0
    let mark (k : Nat) : Bool :=
      (u.1 && vMarked v (vxVA q.w0) k) || (u.2.1 && !vxSB q.w0 && vMarked v (vxVB q.w0) k) ||
        (u.2.2 && vMarked v (vxVC q.w0) k)
    let rs := (List.range 64).map res
    vxDone c i q false (vxNum c (sumNat (rs.map (·.nan))) 0 (sumNat (rs.map (·.sat))) 0
      (vxupd c (vPutAll (vxVD q.w0) (fun k => ((listAt rs k { code := 0, nan := 0, sat := 0 }).code, mark k))) s))

def execVadd (c : Fin 4352) (s : State) : Res := .next (vxLanes c 3 0 s)
def execVsub (c : Fin 4352) (s : State) : Res := .next (vxLanes c 3 1 s)
def execVmul (c : Fin 4352) (s : State) : Res := .next (vxLanes c 3 2 s)
def execVfma (c : Fin 4352) (s : State) : Res := .next (vxLanes c 3 3 s)
def execVmax (c : Fin 4352) (s : State) : Res := .next (vxLanes c 3 4 s)
def execVmin (c : Fin 4352) (s : State) : Res := .next (vxLanes c 3 5 s)
def execVcmpgt (c : Fin 4352) (s : State) : Res := .next (vxLanes c 3 6 s)
def execVsel (c : Fin 4352) (s : State) : Res := .next (vxLanes c 3 7 s)
def execVabs (c : Fin 4352) (s : State) : Res := .next (vxLanes c 3 8 s)
def execVneg (c : Fin 4352) (s : State) : Res := .next (vxLanes c 3 9 s)
def execVmove (c : Fin 4352) (s : State) : Res := .next (vxLanes c 3 0xA s)
def execVexp (c : Fin 4352) (s : State) : Res := .next (vxLanes c 4 0 s)
def execVexp2 (c : Fin 4352) (s : State) : Res := .next (vxLanes c 4 1 s)
def execVrcp (c : Fin 4352) (s : State) : Res := .next (vxLanes c 4 2 s)
def execVrsq (c : Fin 4352) (s : State) : Res := .next (vxLanes c 4 3 s)

/-! ## Reductions (R124) -/

/-- The maximum of lanes, NaN when any is NaN. -/
def redMax : List Nat → Nat
  | [] => 0
  | a :: r => r.foldl (fun m b => (laneMax fp32 false m b).code) a

/-- One level of the pairwise tree: sums and counts. -/
def redPairs : List Nat → List LaneRes
  | a :: b :: r => laneAlu fp32 0 a b 0 :: redPairs r
  | [a] => [{ code := a, nan := 0, sat := 0 }]
  | [] => []

/-- The pairwise tree of RSUM, `n` levels. -/
def redSum : Nat → List Nat → Nat → Nat → Nat × Nat × Nat
  | 0, l, nan, sat => (l.headD 0, nan, sat)
  | n + 1, l, nan, sat =>
    let r := redPairs l
    redSum n (r.map (·.code)) (nan + sumNat (r.map (·.nan))) (sat + sumNat (r.map (·.sat)))

/-- The lowest index that holds the maximum; NaN counts as greater than every number. -/
def redArg (l : List Nat) : Nat :=
  let gt (a b : Nat) : Bool :=
    let x := flDecode fp32 a
    let y := flDecode fp32 b
    if y.isNan then false else if x.isNan then true else flGt x y
  ((List.range l.length).foldl (fun best i => if gt (listAt l i 0) (listAt l best 0) then i else best) 0)

/-- Issues a reduction: the same value in every lane, marked when any source lane is. -/
def vxReduce (c fn : Nat) (f : List Nat → Nat × Nat × Nat) (s : State) : State :=
  match vxNext s c 5 fn with
  | none => s
  | some (i, q) =>
    let v := (cget s c).vxe
    let lanes := (List.range 64).map (vGet v (vxVA q.w0))
    let mark := (List.range 64).any (vMarked v (vxVA q.w0))
    let (code, nan, sat) := f lanes
    vxDone c i q false (vxNum c nan 0 sat 0 (vxupd c (vPutAll (vxVD q.w0) (fun _ => (code, mark))) s))

def execRmax (c : Fin 4352) (s : State) : Res := .next (vxReduce c 0 (fun l => (redMax l, 0, 0)) s)
def execRsum (c : Fin 4352) (s : State) : Res := .next (vxReduce c 1 (fun l => redSum 6 l 0 0) s)
def execArgmax (c : Fin 4352) (s : State) : Res :=
  .next (vxReduce c 2 (fun l => ((f32Code (.fin false (redArg l) 0)).1, 0, 0)) s)

/-! ## QMX (R125) and RNG (R126) -/

/-- The float format of an MX element code, none for MXINT8. -/
def mxElemFl (f : Nat) : Option FlFmt :=
  if f = 4 then some e4m3 else if f = 5 then some e5m2 else if f = 6 then some e2m3 else if f = 7 then some e3m2
  else if f = 8 then some e2m1 else none

/-- emax of R125. -/
def mxEmax (f : Nat) : Int := if f = 4 then 8 else if f = 5 then 15 else if f = 6 then 2 else if f = 7 then 4
  else if f = 8 then 2 else 0

/-- A quantised 32-element block: scale code, element codes, counts for NAN, SCLAMP and SAT. -/
structure MxBlock where
  scale : Nat
  elems : List Nat
  nan : Nat
  sclamp : Nat
  sat : Nat
  deriving DecidableEq, Repr

/-- An element divided by its scale 2^k, rounded and saturated at the largest magnitude: ±127 for MXINT8 (R125). DESIGN CHOICE (log
entry 190). -/
def mxElem (f : Nat) (k : Int) (v : Fl) : Nat × Bool :=
  match mxElemFl f, flScale v (-k) with
  | some g, v => flEncode g true v
  | none, .fin neg m e =>
    let i := flToInt m (e + 6)
    (unsignedOf 8 (if neg then -((min i 127 : Nat) : Int) else ((min i 127 : Nat) : Int)), decide (i > 127))
  | none, _ => (0, false)

/-- Quantises values into an MX block (R125). -/
def mxQuant (f : Nat) (vs : List Fl) : MxBlock :=
  if vs.any (fun v => match v with
    | .fin _ _ _ => false
    | _ => true) then
    { scale := 255, elems := vs.map (fun _ => 0), nan := 1, sclamp := 0, sat := 0 }
  else
    match vs.filterMap flTop with
    | [] => { scale := 0, elems := vs.map (fun v => (mxElem f 0 v).1), nan := 0, sclamp := 0, sat := 0 }
    | t :: r =>
      let k := r.foldl max t - mxEmax f
      let k' := max (-127) (min 127 k)
      let es := vs.map (mxElem f k')
      { scale := (k' + 127).toNat, elems := es.map Prod.fst, nan := 0, sclamp := b2n (k != k')
        sat := (es.filter Prod.snd).length }

/-- The bytes of element codes in the containers of Table MXE.2. -/
def mxPack (f : Nat) : List Nat → List Byte
  | a :: b :: r => if f = 8 then BitVec.ofNat 8 (a + 16 * b) :: mxPack f r
    else BitVec.ofNat 8 a :: BitVec.ofNat 8 b :: mxPack f r
  | [a] => [BitVec.ofNat 8 a]
  | [] => []

/-- Writes every scratchpad block that bytes `off` to `off + n - 1` touch as stored poison. -/
def spPoisonRange (c m off n : Nat) (s : State) : State :=
  (blksOf m off n).foldl (fun s b => spPoison c b s) s

/-- QMX quantises a register into two MX blocks with their scales. -/
def execQmx (c : Fin 4352) (s : State) : Res :=
  match vxNext s c 6 0 with
  | none => .next s
  | some (i, q) =>
    let v := (cget s c).vxe
    let f := vxFmt q.w1
    let m := vxSpace q.w1
    let blk (b : Nat) : MxBlock :=
      mxQuant f ((List.range 32).map (fun k => flDecode fp32 (vGet v (vxVA q.w0) (32 * b + k))))
    let marked (b : Nat) : Bool := (List.range 32).any (fun k => vMarked v (vxVA q.w0) (32 * b + k))
    let bs := [blk 0, blk 1]
    let per := if f = 8 then 16 else 32
    let s := spWriteBytes c m (vxOff q.w1) (mxPack f ((bs.map (·.elems)).flatten)) s
    let s := spWriteBytes c m (vxSoff q.w1) (bs.map (fun b => BitVec.ofNat 8 b.scale)) s
    let s := iter 2 (fun b s => if marked b then
      spPoisonRange c m (vxSoff q.w1 + b) 1 (spPoisonRange c m (vxOff q.w1 + b * per) per s) else s) s
    .next (vxDone c i q false
      (vxNum c (sumNat (bs.map (·.nan))) (sumNat (bs.map (·.sclamp))) (sumNat (bs.map (·.sat))) 0 s))

/-- RNG writes a Philox-derived uniform value into every lane. -/
def execRng (c : Fin 4352) (s : State) : Res :=
  match vxNext s c 7 0 with
  | none => .next s
  | some (i, q) =>
    let v := (cget s c).vxe
    .next (vxDone c i q false (vxupd c (vPutAll (vxVD q.w0) (fun k =>
      (rngLane q.w1 (vGet v (vxVA q.w0) k) k, vMarked v (vxVA q.w0) k))) s))

/-- The oldest performed command retires: TS is incremented, and a VLD that read poison traps (R128). Like an MXE command it waits while
its engine's trap is held. DEDUCED (log entry 198). -/
def execVxeCommandRetire (c : Fin 4352) (s : State) : Res :=
  match (cget s c).vxe.queue with
  | [] => .next s
  | q :: rest =>
    if !q.performed || !coreRuns s c || (q.poison && srcHeld (sq s c) 2 && (sq s c).stop != 3) then .next s
    else
      let s := vxupd c (fun v => { v with queue := rest }) s
      let s := tallyCore c 0x0120 1 none (tkAdd c (cmdTS q.w0) 1 2 q.pc q.w0 s)
      .next (if q.poison then
        holdTrap c { src := 2, cause := 0x0B, pc := q.pc, word := q.w0, detail := 0, detailHi := 0 } s else s)

end Sys2Proof.Machine
end

