-- ==== Sys2Proof/Machine/Nbu.lean ====
section
/-! DEFINITION. The near-bank unit: dispatch checks, start, QLOAD, SCORE, EMIT, COPY, REQUANT, retirement, tier-1
atomics and the chain (R164 to R176). -/

namespace Sys2Proof.Machine

/-! ## Fields of Table SLICE.10 -/

def nbQB (w0 : Nat) : Nat := fld w0 12 12
def nbNQ (w0 : Nat) : Nat := fld w0 17 13 + 1
def qlFwd (w0 : Nat) : Bool := bitAt w0 19
def qlSrc (w0 : Nat) : Bool := bitAt w0 18
def qlOff (w1 : Nat) : Nat := fld w1 27 0
def scWlist (w0 : Nat) : Nat := fld w0 53 32
def scExp (w0 : Nat) : Nat := fld w0 23 20
def scStrict (w0 : Nat) : Bool := bitAt w0 19
def scInit (w0 : Nat) : Bool := bitAt w0 18
def scItems (w1 : Nat) : Nat := fld w1 15 0 + 1
def emPsp (w0 : Nat) : Bool := bitAt w0 21
def emMode (w0 : Nat) : Nat := fld w0 20 18
def emDest (w1 : Nat) : Nat := fld w1 21 0
def cpN (w0 : Nat) : Nat := fld w0 63 56 + 1
def cpDst (w0 : Nat) : Nat := fld w0 55 34
def cpSrc (w0 : Nat) : Nat := fld w0 33 12
def rqDtag (w0 : Nat) : Nat := fld w0 45 42
def rqStag (w0 : Nat) : Nat := fld w0 41 38
def rqDst (w0 : Nat) : Nat := fld w0 37 25
def rqSrc (w0 : Nat) : Nat := fld w0 24 12

def tagReserved (t : Nat) : Bool := t == 0 || decide (6 ≤ t)

/-- Whether an EMIT writes the scratchpad. -/
def emScratch (w0 : Nat) : Bool := emMode w0 == 0 || emMode w0 == 3

/-- Column-relative byte offset of a QLOAD's OFFSET. -/
def qlRel (off : Nat) : Nat := off / 0x8000 * 0x4000 + off % 0x4000

/-- Reason 0x01 of Table SLICE.12. -/
def nbFieldBad (w0 w1 : Nat) : Bool :=
  let op := cmdOP w0
  if op = 1 then fld w0 63 20 != 0 || fld w1 63 28 != 0 || qlOff w1 % 256 != 0
  else if op = 2 then fld w0 63 54 != 0 || fld w0 31 24 != 0 || fld w1 63 16 != 0 || tagReserved (scExp w0) ||
    scWlist w0 % 64 != 0
  else if op = 3 then fld w0 63 22 != 0 || fld w1 63 22 != 0 || emMode w0 > 4 || emDest w1 % 64 != 0
  else if op = 4 then w1 != 0
  else if op = 5 then fld w0 63 46 != 0 || w1 != 0 || tagReserved (rqDtag w0) || tagReserved (rqStag w0)
  else true

/-- Reason 0x02. -/
def nbRangeBad (col w0 w1 : Nat) : Bool :=
  let op := cmdOP w0
  if op = 1 then !qlSrc w0 && (offCol (qlOff w1) != col % 2 || decide (qlRel (qlOff w1) + 256 * nbNQ w0 > 2 ^ 27))
  else if op = 2 then scWlist w0 + 16 * scItems w1 > 2 ^ 22
  else if op = 3 then emMode w0 == 4 && decide (emDest w1 + 576 * nbNQ w0 > 2 ^ 22)
  else if op = 4 then cpSrc w0 + cpN w0 > 2 ^ 21 || cpDst w0 + cpN w0 > 2 ^ 21
  else false

/-- The dispatch refusals of R176 in order: the trap cause and the reason. -/
def nbuDispCheck (s : State) (col w0 w1 : Nat) : Nat × Nat :=
  let c := col / 2
  let m := if emPsp w0 then 2 else 1
  let n := 576 * nbNQ w0
  let scratch := cmdOP w0 == 3 && emScratch w0
  if nbFieldBad w0 w1 then (0x11, 1)
  else if nbRangeBad col w0 w1 then (0x11, 2)
  else if scratch && emDest w1 + n > 64 * memBlocks m then (0x11, 3)
  else if (colget s col).state = 2 then (0x11, 4)
  else if cmdOP w0 == 5 && (rqStag w0 > 3 || rqStag w0 < 2 || rqDtag w0 < 2 || rqDtag w0 > 5) then (0x11, 5)
  else if scratch && !hasSlot s c m 5 then (0x05, 0)
  else if scratch && (blksOf m (emDest w1) n).any (fun b => !groupOn s c m (b - memFirst m)) then (0x06, 0)
  else (0, 0)

/-! ## Queue -/

def nbget (s : State) (col : Nat) : NbuSt := (colget s col).nbu
def nbupd (col : Nat) (f : NbuSt → NbuSt) (s : State) : State := colupd col (fun u => { u with nbu := f u.nbu }) s

/-- Changes the command at a queue position. -/
def nbCmd (col i : Nat) (f : NbuCmd → NbuCmd) (s : State) : State :=
  nbupd col (fun u => { u with queue := u.queue.modify i f }) s

/-- The trap source of a column's NBU: 4 NBU-A, 5 NBU-B. -/
def nbSrc (col : Nat) : Nat := 4 + col % 2

/-- Whether a command uses a query or state bank. -/
def usesBank (w0 : Nat) : Bool := cmdOP w0 == 1 || cmdOP w0 == 2 || cmdOP w0 == 3

/-- Whether a started command still holds the scorer: an EMIT of MODE 1 to 4 has left it to the chain port (R222). -/
def holdsScorer (q : NbuCmd) : Bool :=
  q.started && !q.performed && cmdOP q.w0 != 1 && !(cmdOP q.w0 == 3 && emMode q.w0 != 0)

/-- The queue position of the first command not started. -/
def nbNext (u : NbuSt) : Option Nat := findIdx? (fun q : NbuCmd => !q.started) u.queue

/-- Whether the unit of a command and the query bank that it uses are free of the commands before it (R164). -/
def nbUnitFree (earlier : List NbuCmd) (q : NbuCmd) : Bool :=
  !(usesBank q.w0 && earlier.any (fun e => usesBank e.w0 && nbQB e.w0 == nbQB q.w0 && !e.performed)) &&
  !(cmdOP q.w0 == 1 && earlier.any (fun e => e.started && !e.performed && cmdOP e.w0 == 1)) &&
  !(cmdOP q.w0 != 1 && earlier.any holdsScorer)

/-- Whether the row transfers of a command may run now (R153, R161, R163). -/
def nbClear (s : State) (col : Nat) (q : NbuCmd) : Bool :=
  let op := cmdOP q.w0
  let blks (b n r : Nat) : Bool := decide (b / 16 ≤ r) && decide (r ≤ (b + n - 1) / 16)
  if op = 1 then
    qlSrc q.w0 || rowsClear s col false (fun r => blks (qlRel (qlOff q.w1) / 64) (4 * nbNQ q.w0) r)
  else if op = 2 then rowsClear s col false (fun _ => true)
  else if op = 4 then
    rowsClear s col false (blks (cpSrc q.w0) (cpN q.w0)) && rowsClear s col true (blks (cpDst q.w0) (cpN q.w0))
  else if op = 5 then
    rowsClear s col false (fun r => r / 16 == rqSrc q.w0) && rowsClear s col true (fun r => r / 16 == rqDst q.w0)
  else true

/-- The oldest started, unperformed command, if it is an `op`, the core advances (R42), its row transfers may run and no network
atomic is due first (R283). -/
def nbRun (s : State) (col op : Nat) : Option (Nat × NbuCmd) :=
  let u := nbget s col
  if !coreRuns s (col / 2) then none
  else match findIdx? (fun q : NbuCmd => q.started && !q.performed && cmdOP q.w0 == op) u.queue with
  | none => none
  | some i =>
    match u.queue[i]? with
    | none => none
    | some q => if nbClear s col q && !atomDue s col then some (i, q) else none

/-- Ends a command with an outcome. -/
def nbDone (col i outcome : Nat) (s : State) : State :=
  nbCmd col i (fun q => { q with performed := true, outcome := if outcome = 0 then q.outcome else outcome }) s

/-! ## The chain (R173) -/

/-- The stops of a cluster's chain in logical order: columns of cores in the map that have not retired. -/
def chainStops (s : State) (clu : Nat) : List Nat :=
  (List.range 16).flatMap (fun k =>
    match keyOf s.map.core (fun y => y / 17 == clu) (k + 1) with
    | some c => [2 * c, 2 * c + 1].filter (fun col => (colget s col).state != 2)
    | none => [])

/-- The next stop downstream, if any. -/
def chainNext (s : State) (col : Nat) : Option Nat :=
  ((chainStops s (coreClu (col / 2))).dropWhile (fun x => x != col)).drop 1 |>.head?

/-- Sends a query bank downstream; past the last stop there is no reader. -/
def chainSendQ (col : Nat) (b : QBank) (s : State) : State :=
  match chainNext s col with
  | some d => nbupd d (fun u => { u with chainQ := u.chainQ ++ [b] }) s
  | none => s

/-- Sends records downstream. -/
def chainSendR (col : Nat) (rs : List StRec) (s : State) : State :=
  match chainNext s col with
  | some d => nbupd d (fun u => { u with chainR := u.chainR ++ [rs] }) s
  | none => s

/-! ## QLOAD (R170) -/

def qKey (bank q d : Nat) : Nat := (bank * 32 + q) * 128 + d

/-- Places one query, or its poison mark, in the query file. -/
def qPut (bank q : Nat) (v : Option (List Nat)) (u : NbuSt) : NbuSt :=
  match v with
  | some l =>
    { (List.range 128).foldl (fun u d => { u with q := stSet (fun _ => 0) u.q (qKey bank q d)
                                                      (BitVec.ofNat 16 (listAt l d 0)) }) u with
      qMark := nsDel u.qMark (bank * 32 + q) }
  | none => { u with qMark := nsAdd u.qMark (bank * 32 + q) }

/-- Loads a bank. -/
def qPutBank (bank : Nat) (b : QBank) (u : NbuSt) : NbuSt :=
  { (List.range b.length).foldl (fun u q => qPut bank q (listAt b q none) u) u with qValid := nsAdd u.qValid bank }

/-- The rows a column-relative byte range touches. -/
def relRows (o n : Nat) : List Nat := (List.range ((o + n - 1) / 1024 - o / 1024 + 1)).map (fun i => o / 1024 + i)

/-- Reads a whole row through the decoder: its bytes, or none if a block delivers poison. -/
def readRow (col row : Nat) (s : State) : Option (List Byte) × State :=
  let (bs, s) := t1ReadBlks (col / 2) 16 (rowOff col row) s
  let s := rowMeet col 1 false (coreTx s (col / 2) (5 + col % 2) 0 (dpaSlice s (col / 2) (rowOff col row))) s
  if bs.all Option.isSome then (some (bs.map (fun b => b.getD [])).flatten, s) else (none, s)

def readRows (col : Nat) : List Nat → State → List (Option (List Byte)) × State
  | [], s => ([], s)
  | r :: rs, s =>
    let (d, s) := readRow col r s
    let (ds, s) := readRows col rs s
    (d :: ds, s)

/-- The queries of an own-slice QLOAD: a query row that delivers poison marks each query it touches. -/
def qlBank (o n : Nat) (rows : List (Option (List Byte))) : QBank :=
  (List.range n).map (fun q =>
    let a := o + 256 * q
    (listAt rows (a / 1024 - o / 1024) none).map (fun r =>
      (List.range 128).map (fun d => leAt r (a % 1024 + 2 * d) 2)))

/-- Counts the ACLK cycles that a command waited on refresh (R162). -/
def nbStall (col n : Nat) (s : State) : State :=
  tallyCore (col / 2) 0x0205 n none (rupd (nbuBase col + 8) (fun w => w + BitVec.ofNat 32 n) s)

/-- QLOAD loads a query bank from the own slice, or takes the bank the upstream stop forwards; FWD forwards it. -/
def execQload (col : ColRun) (s : State) : Res :=
  let stall := col.stall
  let col : Nat := col.col
  match nbRun s col 1 with
  | none => .next s
  | some (i, q) =>
    let fin (b : QBank) (s : State) : State :=
      nbDone col i 0 (if qlFwd q.w0 then chainSendQ col b s else s)
    if qlSrc q.w0 then
      match (nbget s col).chainQ with
      | b :: rest =>
        let b := b.take (nbNQ q.w0)
        if q.alone then .next (nbDone col i 0 s)
        else .next (fin b (nbupd col (fun u => qPutBank (nbQB q.w0) b { u with chainQ := rest }) s))
      | [] => if q.alone then .next (nbDone col i 0 s) else .next s
    else
      let o := qlRel (qlOff q.w1)
      let (rows, s) := readRows col (relRows o (256 * nbNQ q.w0)) s
      let b := qlBank o (nbNQ q.w0) rows
      .next (fin b (nbupd col (qPutBank (nbQB q.w0) b) (nbStall col stall s)))

/-! ## State file -/

def stLoad (u : NbuSt) (bank q : Nat) : StRec :=
  let k := bank * 32 + q
  { m := (stGet (fun _ => BitVec.ofNat 32 negInf) u.m k).toNat, l := (stGet (fun _ => 0) u.l k).toNat
    flags := stGet (fun _ => 0) u.flags k, q := q
    acc := (List.range 128).map (fun d => (stGet (fun _ => 0) u.acc (k * 128 + d)).toNat) }

def stStore (bank q : Nat) (r : StRec) (u : NbuSt) : NbuSt :=
  let k := bank * 32 + q
  { u with m := stSet (fun _ => BitVec.ofNat 32 negInf) u.m k (BitVec.ofNat 32 r.m)
           l := stSet (fun _ => 0) u.l k (BitVec.ofNat 32 r.l)
           flags := stSet (fun _ => 0) u.flags k r.flags
           acc := (List.range 128).foldl (fun a d =>
             stSet (fun _ => 0) a (k * 128 + d) (BitVec.ofNat 32 (listAt r.acc d 0))) u.acc }

/-- Sets a flag of Table SLICE.11 on a set of queries. -/
def flagAll (bank bit : Nat) (qs : List Nat) (u : NbuSt) : NbuSt :=
  { u with flags := qs.foldl (fun f q =>
      stSet (fun _ => 0) f (bank * 32 + q) (Nat.lor (stGet (fun _ => 0) f (bank * 32 + q)) (2 ^ bit))) u.flags }

/-- Empties every state entry of queries 0 to n − 1. -/
def stInitN (bank n : Nat) (u : NbuSt) : NbuSt :=
  (List.range n).foldl (fun u q => stStore bank q (emptyRec q) u) u

/-! ## SCORE (R167 to R169) -/

/-- A work item (Table SLICE.9). -/
structure WorkItem where
  page : Nat
  qmask : Nat
  tokens : Nat
  tag : Nat
  bad : Bool
  deriving DecidableEq, Repr

def workItem (b : List Byte) : WorkItem :=
  let page := leAt b 0 4
  { page := page, qmask := leAt b 4 4, tokens := fld (leAt b 8 1) 6 0, tag := fld (leAt b 9 1) 3 0
    bad := fld (leAt b 8 1) 6 0 > 64 || bitAt (leAt b 8 1) 7 || fld (leAt b 9 1) 7 4 != 0 || leAt b 10 6 != 0 ||
      (fld page 31 30 == 0 && fld page 16 13 != 0) || (fld (leAt b 9 1) 3 0 == 1 && page % 2 == 1) }

/-- The page ID that names frame 0 of this column, or none for a core outside the map (Table KV.2). -/
def colPage (s : State) (col : Nat) : Option Nat :=
  (coreName s (col / 2)).map (fun n => n.1 * 2 ^ 26 + (16 * n.2.1 + n.2.2) * 2 ^ 18 + col % 2 * 2 ^ 17)

/-- The rows of one frame that an item reads, in the fetch order of R168 and R178: `n` valid positions, `p` per row. -/
def fetchRows (tag n : Nat) : List Nat :=
  let p := tagPos tag
  let nb := ceilDiv n p
  if nb = 0 then []
  else
    (if tag = 5 then [14] else []) ++ [0] ++
      ((List.range (nb - 1)).flatMap (fun i => [i + 1, 8 + i])) ++ [8 + (nb - 1)]

/-- Reads the rows of a frame, pinned rows from the pin, and pins them: pairs of row index and contents. -/
def scoreRows (col frame : Nat) : List Nat → State → List (Nat × Option (List Byte)) × State
  | [], s => ([], s)
  | r :: rs, s =>
    let row := 16 * frame + r
    let pinned := nsHas (nbget s col).pin row
    let (d, s') := readRow col row s
    let s := if pinned then tallyCore (col / 2) 0x0202 1 none s else s'
    let (ds, s) := scoreRows col frame rs s
    ((r, d) :: ds, s)

/-- The position blocks of 8, or of 4 for BF16, that rows of a frame carry: index and positions within the frame. -/
def posBlocks (tag n : Nat) : List (Nat × List Nat) :=
  let w := if tag = 1 then 4 else 8
  (List.range (ceilDiv n w)).map (fun i => (i, (List.range (min w (n - w * i))).map (fun t => w * i + t)))

/-- Scores one frame for the queries of an item. -/
def scoreFrame (col bank frame tag n : Nat) (qs : List Nat) (s : State) : State :=
  if n = 0 then s
  else
    let (rows, s) := scoreRows col frame (fetchRows tag n) s
    let pinned (p : NatSet) : NatSet :=
      rows.foldl (fun p r => nsAdd p (16 * frame + r.1)) (p.filter (fun x => x / 16 == frame))
    let s := nbupd col (fun u => { u with pin := pinned u.pin }) s
    let get (r : Nat) : Option (List Byte) := match rows.find? (fun e => e.1 == r) with
      | some e => e.2
      | none => none
    let scales := if tag = 5 then get 14 else some []
    let p := tagPos tag
    let ft := (ftGet s col frame).toNat
    let lane := (if tag = 5 then 2 else 1) * qs.length * (rows.filter (fun e => e.1 != 14)).length
    let s := tallyCore (col / 2) 0x0204 lane none s
    let blocks := (posBlocks tag n).map (fun b =>
      let r := listAt b.2 0 0 / p
      match get r, get (8 + r), scales with
      | some k, some v, some sc => some (b.2.map (fun t =>
          (kvVector tag k (t % p) sc (4 * t), kvVector tag v (t % p) sc (256 + 4 * t))))
      | _, _, _ => none)
    let clamps := sumNat (blocks.map (fun b => sumNat ((b.getD []).map (fun e => e.1.2 + e.2.2))))
    let s := rupd (nbuBase col + 4) (fun w => wSatAdd w 7 0 clamps) s
    nbupd col (fun u =>
      let u := if 0 < clamps then flagAll bank 5 qs u else u
      let u := if rows.any (fun e => e.2.isNone) then flagAll bank 1 qs u else u
      qs.foldl (fun u q =>
        if nsHas u.qMark (bank * 32 + q) then flagAll bank 1 [q] u
        else
          let qv := (List.range 128).map (fun d => flDecode bf16 (stGet (fun _ => 0) u.q (qKey bank q d)).toNat)
          stStore bank q (blocks.foldl (fun r b =>
            match b with
            | some kv => nbBlock qv ((fld ft 31 16) * 65536) (fld ft 47 32) (tag == 4) (kv.map (fun e => (e.1.1, e.2.1))) r
            | none => r) (stLoad u bank q)) u) u) s

/-- Processes one work item (R167, R168). One that names another frame than the pinned rows' releases them, whatever its checks find
(R169). -/
def scoreItem (col w0 : Nat) (it : WorkItem) (s : State) : State :=
  let bank := nbQB w0
  let qs := (List.range (nbNQ w0)).filter (fun q => bitAt it.qmask q)
  let frame := fld it.page 12 0
  let s := tallyCore (col / 2) 0x0203 1 none s
  let fmtFault := tagReserved it.tag || (it.tag != scExp w0 && scStrict w0)
  let held := ((nbget s col).pin.head?).map (· / 16)
  let own := some (it.page - frame) = colPage s col
  let same := own && (held == some frame || (it.tag == 1 && held == some (frame + 1)))
  let s := if same then s else nbupd col (fun u => { u with pin := [] }) s
  if it.bad then nbupd col (flagAll bank 3 qs) s
  else if !own then nbupd col (flagAll bank 2 qs) s
  else if fmtFault then
    rupd (nbuBase col + 4) (fun w => wSatAdd w 15 8 1) (nbupd col (flagAll bank 0 qs) s)
  else
    let s := if it.tag != scExp w0 then
      rupd (nbuBase col + 4) (fun w => wSatAdd w 31 16 1) (nbupd col (flagAll bank 4 qs) s) else s
    let s := nbupd col (fun u =>
      flagAll bank 1 (qs.filter (fun q => nsHas u.qMark (bank * 32 + q))) u) s
    if it.tag = 1 then
      let kept := (nbget s col).pin
      let s := scoreFrame col bank frame 1 (min 32 it.tokens) qs s
      if it.tokens ≤ 32 then s
      else
        let s := if held == some (frame + 1) then nbupd col (fun u => { u with pin := kept }) s else s
        scoreFrame col bank (frame + 1) 1 (it.tokens - 32) qs s
    else scoreFrame col bank frame it.tag it.tokens qs s

/-- Processes `n` items from item index k on; poison in an item block ends the list. -/
def scoreItems (col w0 : Nat) : Nat → Nat → State → Bool × State
  | 0, _, s => (true, s)
  | n + 1, k, s =>
    let clu := coreClu (col / 2)
    let a := scWlist w0 + 16 * k
    let fresh := k % 4 == 0
    let (d, s') := csRead clu (a / 64) s
    let s := if fresh then csCount clu 0 (coreTx s (col / 2) (5 + col % 2) 0 (dpaSram s clu a)) s' else s
    match d with
    | none => (false, s)
    | some b => scoreItems col w0 n (k + 1) (scoreItem col w0 (workItem ((b.drop (a % 64)).take 16)) s)

/-- Counts the busy answers that n accesses met, up to one that is given up. -/
def csBusies (clu : Nat) (busy : List Nat) (n : Nat) (tx : Option Tx) (s : State) : State :=
  csBusyN clu (sumNat ((List.range (((busyEnd busy n).map (· + 1)).getD n)).map (busyAt busy))) tx s

/-- The items that SCORE reads before an item block is given up. -/
def scoreLen (busy : List Nat) (items : Nat) : Nat :=
  match busyEnd busy (ceilDiv items 4) with
  | some b => 4 * b
  | none => items

/-- SCORE scores its work items in order (R168). `busy` gives the busy answers that each item block met (R79); `stall` is the ACLK
cycles the command waited on refresh (R162). -/
def execScore (col : Fin 8704) (busy : List Nat) (stall : Nat) (s : State) : Res :=
  match nbRun s col 2 with
  | none => .next s
  | some (i, q) =>
    let bank := nbQB q.w0
    let s := if scInit q.w0 then nbupd col (stInitN bank (nbNQ q.w0)) s else s
    let n := scoreLen busy (scItems q.w1)
    let s := csBusies (coreClu (col / 2)) busy (ceilDiv (scItems q.w1) 4) (coreTx s (col / 2) (5 + col % 2) 0 none) s
    let (ok, s) := scoreItems col q.w0 n 0 s
    let s := nbStall col stall s
    .next (nbDone col i (if ok && n = scItems q.w1 then 0 else 0x11) s)

/-! ## EMIT (R171) -/

/-- Writes records to their destination: the scratchpad, or cluster SRAM through port B, up to the block that is given up. -/
def emWrite (col w0 w1 : Nat) (busy : List Nat) (rs : List StRec) (s : State) : State :=
  let bytes := (rs.map recBytes).flatten
  if emScratch w0 then spWriteBytes (col / 2) (if emPsp w0 then 2 else 1) (emDest w1) bytes s
  else if emMode w0 = 4 then
    let clu := coreClu (col / 2)
    let n := (busyEnd busy (bytes.length / 64)).getD (bytes.length / 64)
    csBusies clu busy (bytes.length / 64) none
      (csWriteBytes clu (emDest w1) (bytes.take (64 * n)) (tallyClu clu 0x0301 n none s))
  else s

/-- The outcome of EMIT's writes: a block that port B answered with a 65th busy ends the command as a failed access of the chain
does (R79; log entry 186). -/
def emOutcome (w0 : Nat) (busy : List Nat) (n : Nat) : Nat :=
  if emMode w0 = 4 && (busyEnd busy (9 * n)).isSome then 0x11 else 0

/-- EMIT writes, sends or merges the state of a bank; the state stays as it was. -/
def execEmit (col : EmitRun) (s : State) : Res :=
  let busy := col.busy
  let col : Nat := col.col
  match nbRun s col 3 with
  | none => .next s
  | some (i, q) =>
    let u := nbget s col
    let own := (List.range (nbNQ q.w0)).map (fun k => stLoad u (nbQB q.w0) k)
    let fin (rs : List StRec) (s : State) : State :=
      nbDone col i (emOutcome q.w0 busy (nbNQ q.w0)) (emWrite col q.w0 q.w1 busy rs (if emMode q.w0 = 0 then s else chainSendR col rs s))
    if emMode q.w0 ≤ 1 then .next (fin own s)
    else if q.alone then .next (fin (own.map (fun r => { r with flags := Nat.lor r.flags 64 })) s)
    else
      match u.chainR with
      | [] => .next s
      | up :: rest =>
        let rs := (List.range (nbNQ q.w0)).map (fun k => mergeRec (listAt up k (emptyRec k)) (listAt own k (emptyRec k)))
        .next (fin rs (nbupd col (fun u => { u with chainR := rest }) s))

/-! ## COPY and REQUANT (R172) -/

/-- The slice offset of a column-relative block. -/
def blkOff (col b : Nat) : Nat := colRel col (64 * b)

/-- Releases the pin. -/
def dropPin (col : Nat) (s : State) : State := nbupd col (fun u => { u with pin := [] }) s

/-- Moves blocks one by one; where the ranges overlap, each source block may have been read before or after it was
written. -/
def copyBlks (col src dst : Nat) (old : List (Option (List Byte))) : Nat → Nat → State → Bool × State
  | 0, _, s => (true, s)
  | n + 1, k, s =>
    let (d, s) := t1ReadBlk (col / 2) (blkOff col (src + k)) s
    let early := Config.freeBool s.fresh k
    let meets := dst < src + k + 1 && src + k < dst + old.length
    let d := if meets && early then listAt old k none else d
    let s := match d with
      | some b => t1WriteBlk (col / 2) (blkOff col (dst + k)) b s
      | none => t1PoisonBlk (col / 2) (blkOff col (dst + k)) s
    let (ok, s) := copyBlks col src dst old n (k + 1) s
    (ok && d.isSome, s)

/-- COPY moves whole blocks within the column. -/
def execNbuCopy (col : ColRun) (s : State) : Res :=
  let stall := col.stall
  let col : Nat := col.col
  match nbRun s col 4 with
  | none => .next s
  | some (i, q) =>
    let n := cpN q.w0
    let old := (List.range n).map (fun k => (t1ReadBlk (col / 2) (blkOff col (cpSrc q.w0 + k)) s).1)
    let rows (b : Nat) : Nat := (b + n - 1) / 16 - b / 16 + 1
    let (ok, s) := copyBlks col (cpSrc q.w0) (cpDst q.w0) old n 0 (dropPin col s)
    let tx (b : Nat) := coreTx s (col / 2) (5 + col % 2) 0 (dpaSlice s (col / 2) (blkOff col b))
    let s := rowMeet col (rows (cpDst q.w0)) true (tx (cpDst q.w0)) (rowMeet col (rows (cpSrc q.w0)) false (tx (cpSrc q.w0)) s)
    let s := nbStall col stall s
    .next (nbDone col i (if ok then 0 else 0x0B) { s with fresh := s.fresh + 1 })

/-- The values of one kind (0 keys, 1 values) of an FP8 page, position by position; a poisoned code word reads zeros. -/
def fp8Values (stag : Nat) (blks : List (Option (List Byte))) (kind t : Nat) : List Fl :=
  let b := kind * 128 + t * 2
  let row := (listAt blks b none).getD (zeros 64) ++ (listAt blks (b + 1) none).getD (zeros 64)
  row.map (fun x => flDecode (if stag = 2 then e4m3 else e5m2) x.toNat)

/-- Values left out of the INT8 maxima: those of poisoned code words. -/
def cleanValues (stag : Nat) (blks : List (Option (List Byte))) (kind : Nat) : List Fl :=
  (List.range 64).flatMap (fun t =>
    let b := kind * 128 + t * 2
    let vs := fp8Values stag blks kind t
    (if (listAt blks b none).isSome then vs.take 64 else []) ++ (if (listAt blks (b + 1) none).isSome then vs.drop 64 else []))

/-- Whether a position of a kind has a poisoned source code word. -/
def posBad (blks : List (Option (List Byte))) (kind t : Nat) : Bool :=
  (listAt blks (kind * 128 + t * 2) none).isNone || (listAt blks (kind * 128 + t * 2 + 1) none).isNone

/-- Writes a destination block or its stored poison. -/
def rqPut (col frame b : Nat) (bad : Bool) (d : List Byte) (s : State) : State :=
  let off := blkOff col (frame * 256 + b)
  if bad then t1PoisonBlk (col / 2) off s else t1WriteBlk (col / 2) off d s

/-- Converts one position to the byte format of an FP8 or INT8 page. -/
def rqBytes (dtag scale : Nat) (vs : List Fl) : List Byte :=
  vs.map (fun v => BitVec.ofNat 8 (
    if dtag = 4 then int8Elem scale v else (flEncode (if dtag = 2 then e4m3 else e5m2) true v).1))

/-- The MX blocks of one position: four of 32 elements. -/
def rqMx (vs : List Fl) : List MxBlock := (List.range 4).map (fun g => mxQuant 8 ((vs.drop (32 * g)).take 32))

/-- Writes the destination page of REQUANT. -/
def rqWrite (col stag dtag frame : Nat) (blks : List (Option (List Byte))) (ks vsc : Nat) (s : State) : State :=
  if dtag ≠ 5 then
    iter 128 (fun p s =>
      let kind := p / 64
      let t := p % 64
      let d := rqBytes dtag (if kind = 0 then ks else vsc) (fp8Values stag blks kind t)
      let bad := posBad blks kind t
      rqPut col frame (kind * 128 + 2 * t + 1) bad (d.drop 64) (rqPut col frame (kind * 128 + 2 * t) bad (d.take 64) s)) s
  else
    let s := iter 128 (fun p s =>
      let kind := p / 64
      let t := p % 64
      let ms := rqMx (fp8Values stag blks kind t)
      rqPut col frame (kind * 128 + t) (posBad blks kind t) (mxPack 8 ((ms.map (·.elems)).flatten)) s) s
    let scales := ((List.range 128).flatMap (fun p =>
      (rqMx (fp8Values stag blks (p / 64) (p % 64))).map (fun m => BitVec.ofNat 8 m.scale)))
    iter 16 (fun b s =>
      let bad := decide (b < 8) && (List.range 16).any (fun t => posBad blks (b / 4) (16 * (b % 4) + t))
      rqPut col frame (14 * 16 + b) bad (fitBytes 64 (scales.drop (64 * b))) s) s

/-- REQUANT converts an FP8 page to another format. -/
def execRequant (col : ColRun) (s : State) : Res :=
  let stall := col.stall
  let col : Nat := col.col
  match nbRun s col 5 with
  | none => .next s
  | some (i, q) =>
    let (blks, s) := t1ReadBlks (col / 2) 256 (rowOff col (16 * rqSrc q.w0)) (dropPin col s)
    let ks := if rqDtag q.w0 = 4 then int8Scale (maxFinite (cleanValues (rqStag q.w0) blks 0)) else 0
    let vs := if rqDtag q.w0 = 4 then int8Scale (maxFinite (cleanValues (rqStag q.w0) blks 1)) else 0
    let s := ftScales col (rqDst q.w0) ks vs (rqWrite col (rqStag q.w0) (rqDtag q.w0) (rqDst q.w0) blks ks vs s)
    let tx (f : Nat) := coreTx s (col / 2) (5 + col % 2) 0 (dpaSlice s (col / 2) (rowOff col (16 * f)))
    let s := rowMeet col (if rqDtag q.w0 = 5 then 9 else 16) true (tx (rqDst q.w0)) (rowMeet col 16 false (tx (rqSrc q.w0)) s)
    .next (nbDone col i (if blks.all Option.isSome then 0 else 0x0B) (nbStall col stall s))

/-! ## Retirement, chain limit, atomics -/

/-- The frames a command writes (R174). -/
def nbFrames (w0 : Nat) : List Nat :=
  if cmdOP w0 = 5 then [rqDst w0]
  else if cmdOP w0 = 4 then
    (List.range ((cpDst w0 + cpN w0 - 1) / 256 - cpDst w0 / 256 + 1)).map (fun i => cpDst w0 / 256 + i)
  else []

/-- The oldest command retires: VERSION of each frame it wrote rises, TS is incremented, and a failed work-item read, a
chain limit or poison traps (R164, R168, R172 to R174). Like an MXE command it waits to trap while its engine's trap is held.
DEDUCED (log entry 198). -/
def execNbuCommandRetire (col : Fin 8704) (s : State) : Res :=
  match (nbget s col).queue with
  | [] => .next s
  | q :: rest =>
    let k := sq s (col.val / 2)
    if !q.performed || !coreRuns s (col.val / 2) || (q.outcome != 0 && srcHeld k (nbSrc col) && k.stop != 3) then .next s
    else
      let c := col.val / 2
      let s := nbupd col (fun u => { u with queue := rest, lastOp := cmdOP q.w0 }) s
      let s := (nbFrames q.w0).foldl (fun s f => ftBump col f s) s
      let s := tkAdd c (cmdTS q.w0) 1 (nbSrc col) q.pc q.w0 s
      .next (if q.outcome = 0 then s else
        holdTrap c { src := nbSrc col, cause := q.outcome, pc := q.pc, word := q.w0,
                     detail := if q.outcome = 0x11 then 6 else 0, detailHi := 0 } s)

/-- Performs an atomic on a word of a column: the old value, or none for poison, in which case the word stays as it was. -/
def t1Atomic (col off : Nat) (op : AtomicOp) (arg : Nat) (s : State) : Option Nat × State :=
  let c := col / 2
  let n := atomicBytes op
  let b := off / 64 * 64
  let (d, s) := t1ReadBlk c b s
  let tx := fwTx (5 + col % 2) 0 (dpaSlice s c off)
  let s := rowMeet col 1 false tx s
  let fresh (s : State) : State := colupd col (fun u => { u with atmGap := 0 }) s
  match d with
  | none => (none, fresh s)
  | some d =>
    let old := leAt d (off % 64) n
    let s := t1WriteBlk c b (putBytes d (off % 64) (leBytes n (atomicNew op old arg))) s
    (some old, fresh (rowMeet col 1 true tx (ftBump col (offFrame off) s)))

/-- The column's NBU performs an atomic on an aligned word of its column, in a no-yield window (R162, R175): the old value goes back
to the requester, or poison, in which case the word stays as it was. -/
def execTier1Atomic (col : Fin 8704) (off : Fin 268435456) (op : AtomicOp) (arg : Word64) (s : State) : Res :=
  if off.val % atomicBytes op ≠ 0 || offCol off ≠ col.val % 2 then .fault .noSuchAddress
  else if (colget s col).state = 2 || !coreRuns s (col.val / 2) || !rmwClear s col (rowOf off) then .next s
  else
    let (old, s) := t1Atomic col off op arg.toNat s
    let r : PortResp := match old with
      | none => { busy := false, poison := true, data := [] }
      | some v => { busy := false, poison := false, data := leBytes (atomicBytes op) v }
    .next { s with portResp := stSet (fun _ => PortResp.reset) s.portResp (1024 + col) r }

/-- A command that waits for upstream stops waiting when the wait reaches a nonzero NBU_CHAIN_LIMIT (R173). -/
def execChainWaitLimit (col : Fin 8704) (s : State) : Res :=
  let u := nbget s col
  let waits (q : NbuCmd) : Bool := q.started && !q.performed && !q.alone &&
    ((cmdOP q.w0 == 1 && qlSrc q.w0 && u.chainQ.isEmpty) || (cmdOP q.w0 == 3 && emMode q.w0 ≥ 2 && u.chainR.isEmpty))
  if rget s (nbuBase col + 0x2C) = 0 || !coreRuns s (col.val / 2) then .next s
  else
    match findIdx? waits u.queue with
    | none => .next s
    | some i => .next (nbCmd col i (fun q => { q with alone := true, outcome := 0x11 }) s)

/-- The assignment clear of R73 for an NBU: banks empty, state entries empty, the pin released. -/
def nbuClear (col : Nat) (s : State) : State :=
  rset (nbuBase col + 8) 0 (rset (nbuBase col + 4) 0
    (nbupd col (fun u => { NbuSt.reset with queue := u.queue, lastOp := u.lastOp }) s))

end Sys2Proof.Machine
end

