-- ==== Sys2Proof/Machine/Bounds.lean ====
section
/-! DEFINITION. The refusals of the network interfaces and the protected areas: R188, R245, R275, R276. -/

namespace Sys2Proof.Machine

/-- Whether a cluster-SRAM block lies in the registered directory area of an enabled directory (R188). -/
def inDirArea (s : State) (clu b : Nat) : Bool :=
  let a := cluReg s clu 0x100
  wBit (cluReg s clu 0x104) 31 && wFld a 15 0 != 0 && decide (wFld a 15 0 ≤ b) && decide (b ≤ wFld a 31 16)

/-- Whether a byte range of cluster SRAM touches the directory area. -/
def dirTouched (s : State) (clu off n : Nat) : Bool :=
  n != 0 && (List.range ((off + n - 1) / 64 - off / 64 + 1)).any (fun i => inDirArea s clu (off / 64 + i))

/-- Counts a write refused under R188. -/
def rawRefused (clu : Nat) (s : State) : State := cluUpd clu 0x120 (fun w => wSatAdd w 15 0 1) s

/-- The partition of a core's requests as its record shows it: number, and whether it carries the privileged marker. -/
def reqPart (s : State) (c : Nat) : Nat × Bool :=
  match corePart s c with
  | some p => (p, false)
  | none => (0, false)

/-- Records a refusal of R276 at a core's interface: NOC_CLU_STAT.BND and NOC_BND_LAST. -/
def bndRefuse (c reason engine : Nat) (addr : Option Nat) (s : State) : State :=
  let (p, priv) := reqPart s c
  tallyClu (coreClu c) 0x0402 1 (coreTx s c engine 0 addr)
    (cluSet (coreClu c) 0x258
      (BitVec.ofNat 32 (2 ^ 31 + reason * 2 ^ 28 + p * 2 ^ 22 + b2n priv * 2 ^ 21 + coreSite c * 2 ^ 16))
      (cluUpd (coreClu c) 0x254 (fun w => wSatAdd w 7 0 1) s))

/-- A partition's tier-2 windows in 64 KiB units: base and inclusive limit (R275). -/
def partWindows (s : State) (p : Nat) : List (Nat × Nat) :=
  let r (o : Nat) : Nat := wFld (rget s (hubBase 0 + 0x30000 + 32 * p + o)) 24 0
  [(r 0x08, r 0x0C), (r 0x10, r 0x14)]

/-- Whether a tier-2 byte range lies in a partition's windows. -/
def inWindows (s : State) (p off n : Nat) : Bool :=
  (partWindows s p).any (fun w => w.1 ≤ off / 65536 && (off + n - 1) / 65536 ≤ w.2)

/-- Whether a physical cluster belongs to a partition. -/
def cluIn (s : State) (p clu : Nat) : Bool := cluPart s clu == some p

/-- Whether a physical tower's die is fenced: lost and still in the logical map (R273, R410). -/
def fencedTw (s : State) (n : Nat) : Bool := nsHas s.lostTw n && (twLog s n).isSome

/-- Whether a partition is a confidential one whose interface is locked or running (R419, R420). -/
def confLocked (s : State) (p : Nat) : Bool :=
  let q := pget s p
  q.state ≠ 0 && q.conf && (q.tdi == 1 || q.tdi == 2)

end Sys2Proof.Machine
end

