-- ==== Sys2Proof/Machine/Seq.lean ====
section
/-! DEFINITION. The sequencer: fetch, decode, every instruction of Table TILE.4, traps, waits, halting and program loading
(R109 to R119, R136 to R145). -/

namespace Sys2Proof.Machine

/-! ## Fields of Table TILE.3 -/

def inOp (w : Nat) : Nat := fld w 63 56
def inXD (w : Nat) : Nat := fld w 55 51
def inXB (w : Nat) : Nat := fld w 45 41
def inImm (w : Nat) : Nat := fld w 31 0
def inAD (w : Nat) : Nat := fld w 50 48
def inSpace (w : Nat) : Nat := fld w 47 46
def inSize (w : Nat) : Nat := fld w 45 44
def inSX (w : Nat) : Bool := bitAt w 43
/-- The split atomic operand register of format M. -/
def inXBM (w : Nat) : Nat := fld w 42 41 * 8 + fld w 34 32
def inCode (w : Nat) : Nat := fld w 15 0

/-- The format of an opcode: 0 R, 1 I, 2 B, 3 M, 4 T, 5 D, 6 S; none for an opcode not listed. -/
def opFormat (op : Nat) : Option Nat :=
  if op ≤ 4 then some 6
  else if 0x08 ≤ op && op ≤ 0x15 then some 0
  else if 0x18 ≤ op && op ≤ 0x1F then some 1
  else if 0x20 ≤ op && op ≤ 0x25 then some 3
  else if op = 0x28 || op = 0x2A then some 0
  else if op = 0x29 || op = 0x2B then some 1
  else if 0x30 ≤ op && op ≤ 0x39 then some 2
  else if 0x40 ≤ op && op ≤ 0x43 then some 4
  else if op = 0x48 then some 5
  else if op = 0x4C || op = 0x4D || op = 0x51 || op = 0x58 || op = 0x59 then some 6
  else if op = 0x50 then some 3
  else none

/-- Whether the address of an M instruction lies in cluster SRAM, and whether its operand register is an atomic's. -/
def opCluster (op : Nat) : Bool := (0x22 ≤ op && op ≤ 0x25) || op == 0x50
def opAtomic (op : Nat) : Bool := op == 0x24 || op == 0x25 || op == 0x50

/-- Literal words of a DISP (Table TILE.6). -/
def engWords (eng : Nat) : Nat := if eng = 2 then 4 else 2

/-- Whether a nonzero reserved field, a reserved code or an unlisted CSR stands in an instruction (R112, R117, R118). AGET with an IMM
other than 0 and 1 (R111), CSRR of an unlisted number (R112), and PWA or PWB naming word 2 or 3 of a two-word command (R118) count
as reserved. DESIGN CHOICE (log entry 189). -/
def seqReserved (w : Nat) : Bool :=
  let op := inOp w
  match opFormat op with
  | some 0 => fld w 40 0 != 0
  | some 1 => fld w 45 32 != 0 || (op == 0x2B && decide (inImm w > 1))
  | some 2 => fld w 40 32 != 0 || (op != 0x37 && inXD w != 0)
  | some 3 => inSize w == 3 || inSpace w == 3 || (opCluster op && inSpace w != 0) || fld w 40 35 != 0 ||
      (!opAtomic op && (fld w 42 41 != 0 || fld w 34 32 != 0))
  | some 4 => fld w 39 16 != 0 || inTK w == 0
  | some 5 => fld w 26 0 != 0 || decide (fld w 55 53 > 4) || decide (fld w 30 29 ≥ engWords (fld w 55 53)) ||
      decide (fld w 28 27 ≥ engWords (fld w 55 53))
  | some 6 => fld w 40 16 != 0 ||
      (op == 0x58 && !(decide (inCode w ≤ 4) || (decide (0x10 ≤ inCode w) && decide (inCode w ≤ 0x17)))) ||
      (op == 0x59 && inCode w != 2)
  | _ => true

/-! ## Fetch -/

/-- Fetches the word at an instruction index: from the loop buffer of two blocks, else from instruction memory (R110). -/
def seqFetch (c pc : Nat) (s : State) : Option Nat × State :=
  let b := pc / 8
  let q := sq s c
  let hit := q.loopBuf.contains b
  let (d, s') := spRead c (imemBlk pc) s
  let s := if hit then s else squpd c (fun q => { q with loopBuf := (q.loopBuf ++ [b]).drop (q.loopBuf.length - 1) }) s'
  (d.map (fun d => leAt d (8 * (pc % 8)) 8), s)

/-- Continues at an instruction index. -/
def pcTo (c pc : Nat) (s : State) : State := squpd c (fun q => { q with pc := pc, wait := 0 }) s

/-- Counts an issued instruction and continues `n` words on. -/
def seqNext (c n : Nat) (s : State) : State := tallyCore c 0x0140 1 none (pcTo c ((sq s c).pc + n) s)

/-- Continues at a branch or jump target; one outside 0 to 8 191 traps (R112). -/
def seqJump (c w : Nat) (t : Int) (s : State) : State :=
  if 0 ≤ t && t ≤ 8191 then tallyCore c 0x0140 1 none (pcTo c t.toNat s) else seqTrap c 0x17 w 0 0 s

/-- Whether SEQ is at an instruction boundary and may issue, with a wait state in `ok`; at level 0 it holds (R42). -/
def seqReady (s : State) (c : Nat) (ok : List Nat) : Bool :=
  let q := sq s c
  q.run && q.stop == 0 && ok.contains q.wait && (q.inTrap || q.held.isEmpty) && !nsHas s.lostTw (coreTower c) && coreRuns s c

/-- Issues the instruction at PC if its opcode is `op`: the fetch, the refusals of R112 in order, then its action. -/
def seqStep (c op : Nat) (ok : List Nat) (act : Nat → State → State) (s : State) : State :=
  let pc := (sq s c).pc
  if !seqReady s c ok then s
  else if 8192 ≤ pc then seqTrap c 0x17 0 0 0 s
  else
    let (w, s') := seqFetch c pc s
    match w with
    | none => seqTrap c 0x09 0 (pc / 8) 0 s'
    | some w =>
      match opFormat (inOp w) with
      | none => seqTrap c 0x01 w 0 0 s'
      | some _ =>
        if inOp w ≠ op then s
        else if seqReserved w then seqTrap c 0x02 w 0 0 s'
        else act w s'

/-! ## Control -/

def execNop (c : Fin 4352) (s : State) : Res := .next (seqStep c 0x00 [0] (fun _ => seqNext c 1) s)

/-- HALT stops issue; queued commands still run (R143). -/
def execHalt (c : Fin 4352) (s : State) : Res :=
  .next (seqStep c 0x01 [0] (fun _ s => squpd c (fun q => { q with run := false, stop := 1 }) (seqNext c 1 s)) s)

/-- TRAP takes the software trap with its code as the detail. -/
def execTrap (c : Fin 4352) (s : State) : Res :=
  .next (seqStep c 0x02 [0] (fun w => seqTrap c 0x16 w (inCode w) 0) s)

/-- Re-runs the dispatch check of the refused commands of an engine: the first still refused holds its trap again, and
the others go on. -/
def recheckMxe (c : Nat) (s : State) : State :=
  match findIdx? (fun q : MxeCmd => q.refused != 0) (cget s c).mxe.queue with
  | none => s
  | some i =>
    match (cget s c).mxe.queue[i]? with
    | none => s
    | some q =>
      let r := mxeDispCheck s c q.w0 q.w1
      let s := cupd c (fun k => { k with mxe := { k.mxe with queue := k.mxe.queue.modify i (fun q => { q with refused := r }) } }) s
      if r = 0 then s
      else holdTrap c { src := 1, cause := r, pc := q.pc, word := q.w0, detail := 0, detailHi := 0 } s

def recheckVxe (c : Nat) (s : State) : State :=
  match findIdx? (fun q : VxeCmd => q.refused != 0) (cget s c).vxe.queue with
  | none => s
  | some i =>
    match (cget s c).vxe.queue[i]? with
    | none => s
    | some q =>
      let r := vxeDispCheck s c q.w0 q.w1
      let s := cupd c (fun k => { k with vxe := { k.vxe with queue := k.vxe.queue.modify i (fun q => { q with refused := r }) } }) s
      if r = 0 then s
      else holdTrap c { src := 2, cause := r, pc := q.pc, word := q.w0, detail := 0, detailHi := 0 } s

def recheckNbu (col : Nat) (s : State) : State :=
  match findIdx? (fun q : NbuCmd => q.refused != 0) (nbget s col).queue with
  | none => s
  | some i =>
    match (nbget s col).queue[i]? with
    | none => s
    | some q =>
      let (r, why) := nbuDispCheck s col q.w0 q.w1
      let s := nbCmd col i (fun q => { q with refused := r }) s
      if r = 0 then s
      else holdTrap (col / 2) { src := nbSrc col, cause := r, pc := q.pc, word := q.w0, detail := why, detailHi := 0 } s

/-- Discards the first refused command of an engine (R141). -/
def discardRefused (c src : Nat) (s : State) : State :=
  if src = 1 then cupd c (fun k => { k with mxe := feedKeep { k.mxe with queue := k.mxe.queue.eraseP (fun q => q.refused != 0) } }) s
  else if src = 2 then cupd c (fun k => { k with vxe := { k.vxe with queue := k.vxe.queue.eraseP (fun q => q.refused != 0) } }) s
  else if src = 4 || src = 5 then
    nbupd (2 * c + (src - 4)) (fun u => { u with queue := u.queue.eraseP (fun q => q.refused != 0) }) s
  else s

/-- Lets an engine go on after its trap. -/
def engineResume (c src : Nat) (s : State) : State :=
  if src = 1 then recheckMxe c s
  else if src = 2 then recheckVxe c s
  else if src = 4 || src = 5 then recheckNbu (2 * c + (src - 4)) s
  else s

/-- Words of the instruction at an index with its literal words. -/
def instWords (s : State) (c pc : Nat) : Nat :=
  match (seqFetch c pc s).1 with
  | some w => if inOp w = 0x48 then 1 + engWords (fld w 55 53) else 1
  | none => 1

/-- Whether the trap being handled came from a command at its retirement: "operand poison", or "NBU command" with reason
0x06 (R100, R128, R172, R176). There is then no refused command to discard. -/
def trapRetired (s : State) (c : Nat) : Bool :=
  abortCause s c == 0x0B || (abortCause s c == 0x11 && corReg s c 0x230 == 6)

/-- TRET returns to EPC and clears IN_TRAP; CODE bit 0 skips the refused item (R141). -/
def execTret (c : Fin 4352) (s : State) : Res :=
  .next (seqStep c 0x03 [0] (fun w s =>
    let q := sq s c
    let skip := bitAt (inCode w) 0
    let s := tallyCore c 0x0140 1 none s
    if !q.inTrap then pcTo c q.epc s
    else
      let s := squpd c (fun q => { q with inTrap := false }) s
      let s := if skip && !trapRetired s c then discardRefused c q.curSrc s else s
      engineResume c q.curSrc
        (pcTo c (if skip && q.curSrc == 0 then q.epc + instWords s c q.epc else q.epc) s)) s)

/-- TABORT aborts the program (R141). -/
def execTabort (c : Fin 4352) (s : State) : Res :=
  .next (seqStep c 0x04 [0] (fun _ s => abortCore c (seqNext c 1 s)) s)

/-! ## Arithmetic -/

/-- An instruction of format R: XD takes a function of XA and XB. -/
def seqR (c op : Nat) (f : Word → Word → Word) (s : State) : State :=
  seqStep c op [0] (fun w s => seqNext c 1 (xSet c (inXD w) (f (xGet s c (inXA w)) (xGet s c (inXB w))) s)) s

/-- An instruction of format I: XD takes a function of XA and IMM. -/
def seqI (c op : Nat) (f : Word → Word → Word) (s : State) : State :=
  seqStep c op [0] (fun w s =>
    seqNext c 1 (xSet c (inXD w) (f (xGet s c (inXA w)) (BitVec.ofNat 32 (inImm w))) s)) s

/-- A truth value as a register word. -/
def boolW (b : Bool) : Word := if b then 1 else 0

def shAmt (b : Word) : Nat := b.toNat % 32

def execAdd (c : Fin 4352) (s : State) : Res := .next (seqR c 0x08 (fun a b => a + b) s)
def execSub (c : Fin 4352) (s : State) : Res := .next (seqR c 0x09 (fun a b => a - b) s)
def execAnd (c : Fin 4352) (s : State) : Res := .next (seqR c 0x0A (fun a b => a &&& b) s)
def execOr (c : Fin 4352) (s : State) : Res := .next (seqR c 0x0B (fun a b => a ||| b) s)
def execXor (c : Fin 4352) (s : State) : Res := .next (seqR c 0x0C (fun a b => a ^^^ b) s)
def execShl (c : Fin 4352) (s : State) : Res := .next (seqR c 0x0D (fun a b => a <<< shAmt b) s)
def execShr (c : Fin 4352) (s : State) : Res := .next (seqR c 0x0E (fun a b => a >>> shAmt b) s)
def execSra (c : Fin 4352) (s : State) : Res := .next (seqR c 0x0F (fun a b => a.sshiftRight (shAmt b)) s)
def execMul (c : Fin 4352) (s : State) : Res := .next (seqR c 0x10 (fun a b => a * b) s)
def execMin (c : Fin 4352) (s : State) : Res := .next (seqR c 0x11 (fun a b => if a.slt b then a else b) s)
def execMax (c : Fin 4352) (s : State) : Res := .next (seqR c 0x12 (fun a b => if a.slt b then b else a) s)
def execSlt (c : Fin 4352) (s : State) : Res := .next (seqR c 0x13 (fun a b => boolW (a.slt b)) s)
def execSltu (c : Fin 4352) (s : State) : Res := .next (seqR c 0x14 (fun a b => boolW (a.ult b)) s)
def execCeq (c : Fin 4352) (s : State) : Res := .next (seqR c 0x15 (fun a b => boolW (a == b)) s)
def execAddi (c : Fin 4352) (s : State) : Res := .next (seqI c 0x18 (fun a b => a + b) s)
def execAndi (c : Fin 4352) (s : State) : Res := .next (seqI c 0x19 (fun a b => a &&& b) s)
def execOri (c : Fin 4352) (s : State) : Res := .next (seqI c 0x1A (fun a b => a ||| b) s)
def execXori (c : Fin 4352) (s : State) : Res := .next (seqI c 0x1B (fun a b => a ^^^ b) s)
def execShli (c : Fin 4352) (s : State) : Res := .next (seqI c 0x1C (fun a b => a <<< shAmt b) s)
def execShri (c : Fin 4352) (s : State) : Res := .next (seqI c 0x1D (fun a b => a >>> shAmt b) s)
def execSrai (c : Fin 4352) (s : State) : Res := .next (seqI c 0x1E (fun a b => a.sshiftRight (shAmt b)) s)
def execCeqi (c : Fin 4352) (s : State) : Res := .next (seqI c 0x1F (fun a b => boolW (a == b)) s)

/-! ## Scratchpad and cluster SRAM access (R113, R114) -/

def adGet (s : State) (c i : Nat) : BitVec 48 := (sq s c).ad.getD i 0
def adSet (c i : Nat) (v : BitVec 48) (s : State) : State := squpd c (fun q => { q with ad := q.ad.set i v }) s

/-- The byte offset AD + OFFSET modulo 2^48. -/
def memOff (s : State) (c w : Nat) : Nat :=
  (adGet s c (inAD w) + (BitVec.ofNat 32 (inImm w)).signExtend 48).toNat

/-- The checks of a scratchpad access in order: 0, or the trap cause; with the memory and the byte offset in it. -/
def lsCheck (s : State) (c w : Nat) (write : Bool) : Nat × Nat × Nat :=
  let n := 2 ^ inSize w
  let a := memOff s c w
  if a % n ≠ 0 then (0x03, 0, 0)
  else if (cget s c).unified then
    let (m, i) := memOfBlk (a / 64)
    if a / 64 ≥ 6144 || !uniAllows s c 0 (a / 64) write then (0x08, 0, 0)
    else if !groupOn s c m i then (0x06, 0, 0)
    else (0, m, 64 * i + a % 64)
  else
    let m := inSpace w
    if a + n > 64 * memBlocks m then (0x04, 0, 0)
    else if !hasSlot s c m 6 then (0x05, 0, 0)
    else if !groupOn s c m (a / 64) then (0x06, 0, 0)
    else (0, m, a)

/-- The loaded value, zero- or sign-extended to 32 bits. -/
def extend (w v : Nat) : Word :=
  let n := 8 * 2 ^ inSize w
  if inSX w then BitVec.ofNat 32 (unsignedOf 32 (signed n v)) else BitVec.ofNat 32 v

/-- LD reads a scratchpad; poison traps with the block as the detail. -/
def execLd (c : Fin 4352) (s : State) : Res :=
  .next (seqStep c 0x20 [0] (fun w s =>
    let (e, m, off) := lsCheck s c w false
    if e ≠ 0 then seqTrap c e w (memOff s c w) (memOff s c w / 2 ^ 32) s
    else
      let (d, s) := spReadBytes c m off (2 ^ inSize w) s
      match d with
      | none => seqTrap c 0x0A w (off / 64) 0 s
      | some d => seqNext c 1 (xSet c (inXD w) (extend w (leNat d)) s)) s)

/-- ST writes the low bytes of XD to a scratchpad. -/
def execSt (c : Fin 4352) (s : State) : Res :=
  .next (seqStep c 0x21 [0] (fun w s =>
    let (e, m, off) := lsCheck s c w true
    if e ≠ 0 then seqTrap c e w (memOff s c w) (memOff s c w / 2 ^ 32) s
    else seqNext c 1 (spWriteBytes c m off (leBytes (2 ^ inSize w) (xGet s c (inXD w)).toNat) s)) s)

/-- The checks of a cluster-SRAM access: 0, or the trap cause. A write or atomic into the directory area is refused. -/
def csCheck (s : State) (c w : Nat) (write : Bool) : Nat :=
  let a := memOff s c w
  if a % 4 ≠ 0 then 0x03
  else if a ≥ 0x400000 then 0x04
  else if write && inDirArea s (coreClu c) (a / 64) then 0x04
  else 0

/-- Traps on a refused cluster-SRAM access; one into the directory area counts (R188, R276). -/
def csRefuse (c w e : Nat) (s : State) : State :=
  let a := memOff s c w
  let s := if e = 0x04 && a < 0x400000 then rawRefused (coreClu c) (bndRefuse c 2 1 (dpaSram s (coreClu c) a) s) else s
  seqTrap c e w a (a / 2 ^ 32) s

/-- A cluster-SRAM transaction of SEQ. -/
def seqTx (s : State) (c off : Nat) : Option Tx := coreTx s c 1 0 (dpaSram s (coreClu c) off)

/-- Sets the busy flag for an access answered with busy, which counts (R78, R114). -/
def seqBusy (c off : Nat) (s : State) : State :=
  csBusy (coreClu c) (seqTx s c off) (squpd c (fun q => { q with busyFlag := true }) s)

/-- LDC reads 4 bytes of the cluster's SRAM; a busy answer leaves XD undefined, a free value, and sets the flag. -/
def execLdc (c : Fin 4352) (busy : Bool) (s : State) : Res :=
  .next (seqStep c 0x22 [0] (fun w s =>
    let e := csCheck s c w false
    let clu := coreClu c
    if e ≠ 0 then csRefuse c w e s
    else if busy then
      let (v, s) := takeFree s
      seqNext c 1 (xSet c (inXD w) (BitVec.ofNat 32 v) (seqBusy c (memOff s c w) (csCount clu 0 (seqTx s c (memOff s c w)) s)))
    else
      let (d, s) := csReadBytes clu (memOff s c w) 4 (csCount clu 0 (seqTx s c (memOff s c w)) s)
      match d with
      | none => seqTrap c 0x0A w (memOff s c w / 64) 0 s
      | some d => seqNext c 1 (xSet c (inXD w) (BitVec.ofNat 32 (leNat d)) s)) s)

/-- STC writes 4 bytes; one answered busy is not performed and sets the flag. -/
def execStc (c : Fin 4352) (busy : Bool) (s : State) : Res :=
  .next (seqStep c 0x23 [0] (fun w s =>
    let e := csCheck s c w true
    let clu := coreClu c
    if e ≠ 0 then csRefuse c w e s
    else if busy then seqNext c 1 (seqBusy c (memOff s c w) (csCount clu 0 (seqTx s c (memOff s c w)) s))
    else seqNext c 1 (csWriteBytes clu (memOff s c w) (leBytes 4 (xGet s c (inXD w)).toNat)
      (csCount clu 0 (seqTx s c (memOff s c w)) s))) s)

/-- A 32-bit atomic of SEQ: XD takes the old value; poison traps. -/
def seqAtomic (c opc : Nat) (op : AtomicOp) (s : State) : State :=
  seqStep c opc [0] (fun w s =>
    let e := csCheck s c w true
    if e ≠ 0 then csRefuse c w e s
    else
      let (v, s) := csAtomic (coreClu c) (memOff s c w) op (xGet s c (inXBM w)).toNat (seqTx s c (memOff s c w))
            (csCount (coreClu c) 0 (seqTx s c (memOff s c w)) s)
      match v with
      | none => seqTrap c 0x0A w (memOff s c w / 64) 0 s
      | some v => seqNext c 1 (xSet c (inXD w) (BitVec.ofNat 32 v) s)) s

def execAaddc (c : Fin 4352) (s : State) : Res := .next (seqAtomic c 0x24 .add32 s)
def execAswpc (c : Fin 4352) (s : State) : Res := .next (seqAtomic c 0x25 .swap32 s)

/-! ## Address registers -/

/-- The address register that the XD field names. -/
def inADX (w : Nat) : Nat := inXD w % 8

def execAmov (c : Fin 4352) (s : State) : Res :=
  .next (seqStep c 0x28 [0] (fun w s =>
    seqNext c 1 (adSet c (inADX w)
      (((xGet s c (inXA w)).setWidth 16 ++ xGet s c (inXB w) : BitVec 48)) s)) s)

def execAadd (c : Fin 4352) (s : State) : Res :=
  .next (seqStep c 0x29 [0] (fun w s =>
    seqNext c 1 (adSet c (inADX w) (adGet s c (inADX w) + (BitVec.ofNat 32 (inImm w)).signExtend 48) s)) s)

def execAaddr (c : Fin 4352) (s : State) : Res :=
  .next (seqStep c 0x2A [0] (fun w s =>
    seqNext c 1 (adSet c (inADX w) (adGet s c (inADX w) + (xGet s c (inXA w)).signExtend 48) s)) s)

def execAget (c : Fin 4352) (s : State) : Res :=
  .next (seqStep c 0x2B [0] (fun w s =>
    let a := adGet s c (inXA w % 8)
    seqNext c 1 (xSet c (inXD w) (if inImm w = 0 then a.setWidth 32 else (a >>> 32).setWidth 32) s)) s)

/-! ## Branches -/

/-- The target PC + OFFSET. -/
def relTarget (s : State) (c w : Nat) : Int := ((sq s c).pc : Int) + signed 32 (inImm w)

/-- A conditional branch on XA and XB. -/
def seqB (c op : Nat) (f : Word → Word → Bool) (s : State) : State :=
  seqStep c op [0] (fun w s =>
    if f (xGet s c (inXA w)) (xGet s c (inXB w)) then seqJump c w (relTarget s c w) s else seqNext c 1 s) s

def execBeq (c : Fin 4352) (s : State) : Res := .next (seqB c 0x30 (fun a b => a == b) s)
def execBne (c : Fin 4352) (s : State) : Res := .next (seqB c 0x31 (fun a b => a != b) s)
def execBlt (c : Fin 4352) (s : State) : Res := .next (seqB c 0x32 (fun a b => a.slt b) s)
def execBge (c : Fin 4352) (s : State) : Res := .next (seqB c 0x33 (fun a b => !a.slt b) s)
def execBltu (c : Fin 4352) (s : State) : Res := .next (seqB c 0x34 (fun a b => a.ult b) s)
def execBgeu (c : Fin 4352) (s : State) : Res := .next (seqB c 0x35 (fun a b => !a.ult b) s)
def execJmp (c : Fin 4352) (s : State) : Res :=
  .next (seqStep c 0x36 [0] (fun w s => seqJump c w (relTarget s c w) s) s)

/-- JAL links PC + 1 and jumps; a target out of range traps before it links. -/
def execJal (c : Fin 4352) (s : State) : Res :=
  .next (seqStep c 0x37 [0] (fun w s =>
    let t := relTarget s c w
    let link := BitVec.ofNat 32 ((sq s c).pc + 1)
    if 0 ≤ t && t ≤ 8191 then seqJump c w t (xSet c (inXD w) link s) else seqJump c w t s) s)

def execJr (c : Fin 4352) (s : State) : Res :=
  .next (seqStep c 0x38 [0] (fun w s => seqJump c w (((xGet s c (inXA w)).toNat % 8192 : Nat) : Int) s) s)

/-- BBUSY branches on the busy flag and clears it. -/
def execBbusy (c : Fin 4352) (s : State) : Res :=
  .next (seqStep c 0x39 [0] (fun w s =>
    let t := relTarget s c w
    if (sq s c).busyFlag then
      if 0 ≤ t && t ≤ 8191 then seqJump c w t (squpd c (fun q => { q with busyFlag := false }) s) else seqJump c w t s
    else seqNext c 1 s) s)

/-! ## Tickets (R115 to R117) -/

/-- Completes a ticket wait if the ticket reaches the operand. -/
def tkTryWait (c w : Nat) (s : State) : Option State :=
  let n := tkOperand s c w
  let t := inTK w
  if tkGet s c t ≥ n then
    some (pcTo c ((sq s c).pc + 1) (if inKeep w then s else tkPut c t (tkGet s c t - n) s))
  else none

/-- TKWAIT waits until the ticket reaches the operand and subtracts it unless KEEP is 1. -/
def execTkwait (c : Fin 4352) (s : State) : Res :=
  .next (seqStep c 0x40 [0] (fun w s =>
    let s := tallyCore c 0x0140 1 none s
    (tkTryWait c w s).getD (squpd c (fun q => { q with wait := 1 }) s)) s)

/-- A waiting TKWAIT completes once its ticket suffices. -/
def execTkwaitSatisfied (c : Fin 4352) (s : State) : Res :=
  .next (if (sq s c).wait = 1 then seqStep c 0x40 [1] (fun w s => (tkTryWait c w s).getD s) s else s)

def execTkadd (c : Fin 4352) (s : State) : Res :=
  .next (seqStep c 0x41 [0] (fun w s => seqNext c 1 (tkAdd c (inTK w) (tkOperand s c w) 0 (sq s c).pc w s)) s)

/-- TKSET loads the operand; the manual states no result for one above 65 535: that value is open. -/
def execTkset (c : Fin 4352) (s : State) : Res :=
  .next (seqStep c 0x42 [0] (fun w s =>
    let n := tkOperand s c w
    if n ≤ 65535 then seqNext c 1 (tkPut c (inTK w) n s)
    else
      let (v, s) := takeFree s
      seqNext c 1 (tkPut c (inTK w) v s)) s)

def execTkrd (c : Fin 4352) (s : State) : Res :=
  .next (seqStep c 0x43 [0] (fun w s =>
    seqNext c 1 (xSet c (inXD w) (BitVec.ofNat 32 (tkGet s c (inTK w))) s)) s)

/-! ## Dispatch (R118, R119) -/

/-- Fetches literal words; none if a block of them delivers poison. -/
def fetchWords (c : Nat) : Nat → Nat → State → Option (List Nat) × State
  | 0, _, s => (some [], s)
  | n + 1, pc, s =>
    let (w, s) := seqFetch c pc s
    let (r, s) := fetchWords c n (pc + 1) s
    ((match w, r with
      | some w, some r => some (w :: r)
      | _, _ => none), s)

/-- Adds a shifted register to a literal word, modulo 2^64. -/
def patchWord (ws : List Nat) (i x sh : Nat) : List Nat := ws.modify i (fun w => (w + x * 2 ^ sh) % 2 ^ 64)

/-- The command as dispatched: both patches applied. -/
def dispWords (s : State) (c w : Nat) (ws : List Nat) : List Nat :=
  patchWord (patchWord ws (fld w 30 29) (xGet s c (fld w 52 48)).toNat (fld w 47 42))
    (fld w 28 27) (xGet s c (fld w 41 37)).toNat (fld w 36 31)

/-- Fields of a MOV descriptor that DISP needs. -/
def mvCh (w0 : Nat) : Nat := fld w0 14 12

/-- Whether a MOV descriptor loads instruction memory from the unified space (R66). -/
def mvUniLoad (ws : List Nat) : Bool :=
  let w0 := listAt ws 0 0
  fld w0 19 16 == 8 && fld w0 23 20 == 6 && fld (listAt ws 2 0) 31 30 == 3

/-- Whether the target queue is full (Table TILE.6). A started command keeps its entry until it retires, in the VXE and NBU queues
as in that of the MXE (R118). DESIGN CHOICE (log entry 189). -/
def engFull (s : State) (c eng : Nat) (ws : List Nat) : Bool :=
  let k := cget s c
  if eng = 0 then 8 ≤ k.mxe.queue.length
  else if eng = 1 then 8 ≤ k.vxe.queue.length
  else if eng = 2 then
    let m := listAt k.mov (mvCh (listAt ws 0 0)) MovCh.reset
    4 ≤ m.queue.length + b2n m.active.isSome
  else 4 ≤ (nbget s (2 * c + (eng - 3))).queue.length

/-- Queues a command; one that its dispatch check refuses holds its engine's trap. -/
def engPut (c eng pc : Nat) (ws : List Nat) (s : State) : State :=
  let w0 := listAt ws 0 0
  let w1 := listAt ws 1 0
  if eng = 0 then
    let r := mxeDispCheck s c w0 w1
    let q : MxeCmd := { w0 := w0, w1 := w1, pc := pc, started := false, promoted := false, performed := false,
                        finished := false, poison := false, refused := r, waitDrn := false, waitWgt := false }
    let s := cupd c (fun k => { k with mxe := { k.mxe with queue := k.mxe.queue ++ [q] } }) s
    feedAhead c (if r = 0 then s else holdTrap c { src := 1, cause := r, pc := pc, word := w0, detail := 0, detailHi := 0 } s)
  else if eng = 1 then
    let r := vxeDispCheck s c w0 w1
    let q : VxeCmd := { w0 := w0, w1 := w1, pc := pc, performed := false, poison := false, refused := r }
    let s := cupd c (fun k => { k with vxe := { k.vxe with queue := k.vxe.queue ++ [q] } }) s
    if r = 0 then s else holdTrap c { src := 2, cause := r, pc := pc, word := w0, detail := 0, detailHi := 0 } s
  else if eng = 2 then
    let d : MovDesc := { w0 := w0, w1 := w1, w2 := listAt ws 2 0, w3 := listAt ws 3 0, pc := pc }
    cupd c (fun k => { k with mov := k.mov.modify (mvCh w0) (fun m => { m with queue := m.queue ++ [d] }) }) s
  else
    let col := 2 * c + (eng - 3)
    let (r, why) := nbuDispCheck s col w0 w1
    let q : NbuCmd := { w0 := w0, w1 := w1, pc := pc, started := false, performed := false, alone := false,
                        outcome := 0, refused := r }
    let s := nbupd col (fun u => { u with queue := u.queue ++ [q] }) s
    if r = 0 then s else holdTrap c { src := nbSrc col, cause := r, pc := pc, word := w0, detail := why, detailHi := 0 } s

/-- DISP queues the patched command at its engine; a full queue stalls. -/
def execDisp (c : Fin 4352) (s : State) : Res :=
  .next (seqStep c 0x48 [0, 4] (fun w s =>
    let pc := (sq s c).pc
    let eng := fld w 55 53
    let n := engWords eng
    if pc + n > 8191 then seqTrap c 0x17 w 0 0 s
    else
      let (ws, s) := fetchWords c n (pc + 1) s
      match ws with
      | none => seqTrap c 0x09 w ((pc + n) / 8) 0 s
      | some ws =>
        let ws := dispWords s c w ws
        if (cget s c).unified && !(eng == 2 && mvUniLoad ws) then seqTrap c 0x07 w 0 0 s
        else if engFull s c eng ws then squpd c (fun q => { q with wait := 4 }) s
        else engPut c eng pc ws (seqNext c (1 + n) s)) s)

/-- Clears a MOV channel as MOVCLR does (R135). -/
def movClr (c ch : Nat) (s : State) : State :=
  cupd c (fun k => { k with mov := k.mov.modify ch movClear }) s

def execMovclr (c : Fin 4352) (s : State) : Res :=
  .next (seqStep c 0x4C [0] (fun w s => seqNext c 1 (movClr c (inCode w % 8) s)) s)

/-- The word of COR_MOV_CH (Table TILE.24). -/
def movWord (m : MovCh) : Word :=
  BitVec.ofNat 32 (m.status * 2 ^ 16 + b2n m.halted * 2 ^ 15 + b2n m.active.isSome * 2 ^ 14 +
    (m.queue.length + b2n m.active.isSome) % 8 * 2 ^ 11)

def movGet (s : State) (c ch : Nat) : MovCh := listAt (cget s c).mov ch MovCh.reset

def execMovst (c : Fin 4352) (s : State) : Res :=
  .next (seqStep c 0x4D [0] (fun w s =>
    seqNext c 1 (xSet c (inXD w) (movWord (movGet s c (inCode w % 8))) s)) s)

/-! ## Barriers (R136 to R138) -/

/-- CBAR arrives with an atomic add of 1 and then waits. -/
def execCbar (c : Fin 4352) (s : State) : Res :=
  .next (seqStep c 0x50 [0] (fun w s =>
    let e := csCheck s c w true
    if e ≠ 0 then csRefuse c w e s
    else
      let (v, s) := csAtomic (coreClu c) (memOff s c w) .add32 1 (seqTx s c (memOff s c w))
            (csCount (coreClu c) 0 (seqTx s c (memOff s c w)) s)
      match v with
      | none => seqTrap c 0x0A w (memOff s c w / 64) 0 s
      | some _ => tallyCore c 0x0140 1 none (squpd c (fun q => { q with wait := 2 }) s)) s)

/-- A waiting CBAR polls with an atomic add of 0 and completes when counter − XB is zero or more. -/
def execCbarPoll (c : Fin 4352) (s : State) : Res :=
  .next (if (sq s c).wait ≠ 2 || !coreRuns s c then s
    else
      match (seqFetch c (sq s c).pc s).1 with
      | none => s
      | some w =>
        let (v, s) := csAtomic (coreClu c) (memOff s c w) .add32 0 (seqTx s c (memOff s c w))
            (csCount (coreClu c) 0 (seqTx s c (memOff s c w)) s)
        match v with
        | none => seqTrap c 0x0A w (memOff s c w / 64) 0 s
        | some v =>
          let d := BitVec.ofNat 32 v - xGet s c (inXBM w)
          if d.slt 0 then s else pcTo c ((sq s c).pc + 1) s)

/-- Takes back the arrival of a CBAR: its counter falls by 1 (R142). -/
def cbarUndo (c w : Nat) (s : State) : State :=
  (csAtomic (coreClu c) (memOff s c w) .add32 (2 ^ 32 - 1) (seqTx s c (memOff s c w)) s).2

/-- The key of barrier group g of partition p; 64 stands for no partition. -/
def gbarKey (p g : Nat) : Nat := p * 16 + g

def gbarPart (s : State) (c : Nat) : Nat := (corePart s c).getD 64

/-- GBAR arrives at its group and waits; a core outside the group traps (R137). -/
def execGbar (c : Fin 4352) (s : State) : Res :=
  .next (seqStep c 0x51 [0] (fun w s =>
    let g := inCode w % 16
    if !wBit (corReg s c 0x210) g then seqTrap c 0x18 w g 0 s
    else
      let k := gbarKey (gbarPart s c) g
      let s := { s with gbarArr := stSet (fun _ => []) s.gbarArr k (nsAdd (stGet (fun _ => []) s.gbarArr k) c) }
      tallyCore c 0x0140 1 none (squpd c (fun q => { q with wait := 3 }) s)) s)

/-- The member cores of a barrier group of a partition. -/
def gbarMembers (s : State) (p g : Nat) : List Nat :=
  s.regs.filterMap (fun e => match locate e.1 with
    | .core c 0x210 => if wBit e.2 g && gbarPart s c == p then some c else none
    | _ => none)

/-- Releases the waiting members of a group: each continues after its GBAR. -/
def gbarFree (p g : Nat) (s : State) : State :=
  let k := gbarKey p g
  let arr := stGet (fun _ => []) s.gbarArr k
  let s := arr.foldl (fun s c => if (sq s c).wait = 3 then pcTo c ((sq s c).pc + 1) s else s) s
  { s with gbarArr := stSet (fun _ => []) s.gbarArr k [] }

/-- The tower manager of the partition's lowest tower releases a group once every member has arrived; the group's epoch
changes (R137). -/
def execGbarRelease (p : Fin 65) (g : Fin 16) (s : State) : Res :=
  let arr := stGet (fun _ => []) s.gbarArr (gbarKey p g)
  if arr.isEmpty || !(gbarMembers s p g).all (fun c => arr.contains c) then .next s
  else
    let s := gbarFree p g s
    let k := gbarKey p g
    .next { s with gbarEpoch := if nsHas s.gbarEpoch k then nsDel s.gbarEpoch k else nsAdd s.gbarEpoch k }

/-- Every group that includes a core releases its waiting members with the broken indication: each traps with cause
"barrier broken" (R138). -/
def breakBarriers (c : Nat) (s : State) : State :=
  let p := gbarPart s c
  iter 16 (fun g s =>
    if !wBit (corReg s c 0x210) g then s
    else
      let arr := stGet (fun _ => []) s.gbarArr (gbarKey p g)
      let traps := arr.map (fun x => (x, (sq s x).pc, ((seqFetch x (sq s x).pc s).1).getD 0))
      traps.foldl (fun s e =>
        holdTrap e.1 { src := 7, cause := 0x14, pc := e.2.1, word := e.2.2, detail := g, detailHi := 0 } s) (gbarFree p g s)) s

/-! ## CSRs (Table TILE.5) -/

/-- The content of a CSR. The manual gives no LOGICAL_ID or PARTITION for a core outside the map or every partition, and
CYCLE counts cycles this model does not keep: those values are open. -/
def csrValue (s : State) (c n : Nat) : Option Nat :=
  if n = 2 then some (sq s c).epc
  else if n = 3 then (coreName s c).map (fun x => x.1 * 2 ^ 16 + x.2.1 * 2 ^ 8 + x.2.2)
  else if n = 4 then corePart s c
  else if 0x10 ≤ n then some (corReg s c (0x220 + 4 * (n - 0x10))).toNat
  else none

def execCsrr (c : Fin 4352) (s : State) : Res :=
  .next (seqStep c 0x58 [0] (fun w s =>
    match csrValue s c (inCode w) with
    | some v => seqNext c 1 (xSet c (inXD w) (BitVec.ofNat 32 v) s)
    | none =>
      let (v, s) := takeFree s
      seqNext c 1 (xSet c (inXD w) (BitVec.ofNat 32 v) s)) s)

/-- CSRW writes only EPC. -/
def execCsrw (c : Fin 4352) (s : State) : Res :=
  .next (seqStep c 0x59 [0] (fun w s =>
    let v := (xGet s c (inXA w)).toNat % 8192
    seqNext c 1 (squpd c (fun q => { q with epc := v }) s)) s)

/-! ## Traps, timeouts, halting -/

/-- A held trap is taken at an instruction boundary, in the order of R140; after HALT it aborts (R143). -/
def execTrapTake (c : Fin 4352) (s : State) : Res :=
  let q := sq s c
  match firstHeld q with
  | none => .next s
  | some t =>
    if !coreRuns s c then .next s
    else if q.stop ≠ 0 then
      .next (if q.stop = 3 then s else takeTrap c t q.pc s)
    else if !q.run || q.inTrap || q.wait = 2 || q.wait = 3 then .next s
    else .next (takeTrap c t q.pc s)

/-- A wait that has lasted LIMIT cycles traps; the instruction then has no effect, so that a GBAR's arrival and the 1 that a CBAR
added are taken back (R142). DEDUCED (log entry 65). -/
def execWaitTimeout (c : Fin 4352) (s : State) : Res :=
  let q := sq s c
  if corReg s c 0x20C = 0 || !(q.wait = 1 || q.wait = 2 || q.wait = 3) || !q.run || !coreRuns s c then .next s
  else
    let w := (seqFetch c q.pc s).1.getD 0
    let s := if q.wait = 3 then
      let k := gbarKey (gbarPart s c) (inCode w % 16)
      { s with gbarArr := stSet (fun _ => []) s.gbarArr k (nsDel (stGet (fun _ => []) s.gbarArr k) c) }
      else if q.wait = 2 then cbarUndo c w s else s
    .next (seqTrap c 0x13 w 0 0 s)

/-- Whether every started command and channel of a core is idle, and nothing queued can still start (R143). -/
def coreIdle (s : State) (c : Nat) : Bool :=
  let k := cget s c
  k.mxe.queue.isEmpty && k.vxe.queue.isEmpty &&
    k.mov.all (fun m => m.active.isNone && (m.halted || m.queue.isEmpty)) &&
    (nbget s (2 * c)).queue.isEmpty && (nbget s (2 * c + 1)).queue.isEmpty &&
    !s.remote.any (fun r => r.dst == c)

/-- HALTED becomes 1 once every started command and channel is idle, and the tower manager reports the completion. -/
def execCoreHalted (c : Fin 4352) (s : State) : Res :=
  let q := sq s c
  if q.stop = 0 || (q.stop ≠ 3 && !q.held.isEmpty) || !coreIdle s c || !coreRuns s c then .next s
  else
    let rep := if q.stop = 3 then 2 else 1
    let ended (q : SeqSt) : SeqSt := { q with stop := 0, run := false, wait := 0, held := [], report := rep }
    .next (cupd c (fun k => { k with halted := true, seq := ended k.seq }) s)

/-- A write of COR_SEQ_CTL (Table TILE.18). -/
def writeSeqCtl (c : Nat) (w : Word) (s : State) : State :=
  let h := (cget s c).halted
  let old := corReg s c 0x200
  let s := if h then corSet c 0x200 (wPut old 14 2 (wFld w 14 2)) s
    else if wFld w 14 2 ≠ wFld old 14 2 then setCtlErr c s else s
  let s := if wBit w 1 then haltReqCore c s else s
  if !wBit w 0 then s
  else if !h then setCtlErr c s
  else startIfIdle c (squpd c (fun q => { q with startPend := true }) s)

def execSeqStart (c : Fin 4352) (w : Word) (s : State) : Res := .next (writeSeqCtl c w s)

def execHaltReq (c : Fin 4352) (w : Word) (s : State) : Res := .next (writeSeqCtl c w s)

/-- A write of COR_LOAD_CTL: GO on a running core is ignored and sets CTL_ERR (R145). -/
def writeLoadCtl (c : Nat) (w : Word) (s : State) : State :=
  let s := corSet c 0x2A4 (w &&& 0x23FF03FF) s
  if !wBit w 30 then s
  else if !(cget s c).halted then setCtlErr c s
  else cupd c (fun k => { k with loadBusy := true }) s

def execLoadGo (c : Fin 4352) (w : Word) (s : State) : Res := .next (writeLoadCtl c w s)

/-- A block of the unified space as the load path receives it through the test engine's slots: a block that is not powered, or
that no region of the test engine covers, is not read (R66, R67). -/
def uniBlock (c b : Nat) (s : State) : Option (List Byte) × State :=
  if blkOn s c b && uniAllows s c 1 b false then spRead c b s else (none, s)
def uniBlocks (c : Nat) : List Nat → State → List (Option (List Byte)) × State
  | [], s => ([], s)
  | b :: bs, s =>
    let (d, s) := uniBlock c b s
    let (r, s) := uniBlocks c bs s
    (d :: r, s)

/-- The blocks the load path copies: from the slice, or from the unified space. -/
def loadBlocks (c n src : Nat) (uni : Bool) (s : State) : List (Option (List Byte)) × State :=
  if uni then
    (if src / 64 + n ≤ 6144 then uniBlocks c ((List.range n).map (fun i => src / 64 + i)) s
     else (List.replicate n none, s))
  else if src + 64 * n ≤ 2 ^ 28 then t1ReadBlks c n src s
  else (List.replicate n none, s)

/-- The load path ends: the image's code is in instruction memory, unless a block delivered poison (R145, R158), which
the second answer says. -/
def loadEnd (c : Nat) (s : State) : State × Bool :=
  if !(cget s c).loadBusy then (s, false)
  else
    let ctl := corReg s c 0x2A4
    let n := wFld ctl 9 0 + 1
    let (bs, s) := loadBlocks c n (wFld (corReg s c 0x2A0) 27 6 * 64) (wBit ctl 29) s
    let s := if bs.all Option.isSome then
      iter n (fun i s =>
        let b := wFld ctl 25 16 + i
        if b < 1024 then spWrite c (memFirst 3 + b) ((listAt bs i none).getD []) s else s) s
      else s
    (startIfIdle c (cupd c (fun k => { k with loadBusy := false, seq := { k.seq with loopBuf := [] } }) s),
      !bs.all Option.isSome)

end Sys2Proof.Machine
end

