-- ==== Sys2Proof/Machine/Dpa.lean ====
section
/-! DEFINITION. Device physical addresses and tier 2: where an address lies, which accesses the network interfaces refuse,
and the access itself (R237 to R239, R245, R276, R298). -/

namespace Sys2Proof.Machine

/-! ## Tier 2 -/

/-- The end of tier 2 (R237). -/
def t2End : Nat := 0x18000000000

/-- The hub of a tier-2 offset (R238). -/
def t2Hub (off : Nat) : Nat := off / 0x4000 % 4

/-- The 4 KiB unit within the hub, and from it the package, pair, bank group, bank and row (R238). -/
def t2Unit (off : Nat) : Nat := 4 * (off / 0x4000 / 4) + off / 4096 % 4
def t2Package (off : Nat) : Nat := 6 * t2Hub off + t2Unit off % 6
def t2Pair (off : Nat) : Nat := t2Unit off / 6 % 2
def t2Group (off : Nat) : Nat := t2Unit off / 6 / 2 % 4
def t2Bank (off : Nat) : Nat := t2Unit off / 6 / 8 % 4
def t2Row (off : Nat) : Nat := t2Unit off / 6 / 32

/-- Whether a hub is absent (R22, R413). -/
def hubAbsent (s : State) (h : Nat) : Bool := (hget s h).lost

/-- Whether a hub's quarter of tier 2 is absent: its hub is, or a package of it failed its start-up (R22, R239, R364). -/
def quarterAbsent (s : State) (h : Nat) : Bool :=
  hubAbsent s h || (List.range 6).any (fun k => nsHas s.boot.pkgBad (6 * h + k))

def poolGet (s : State) (p : Nat) : Pool := stGet (fun _ => Pool.reset) s.pools p
def poolSet (p : Nat) (v : Pool) (s : State) : State :=
  { s with pools := stSet (fun _ => Pool.reset) s.pools p v }

/-- A pool whose `spill` follows its marks: set below T2LOW, kept until T2HIGH (R207, R247). -/
def poolMark (q : Pool) : Pool :=
  let free := q.nslot - q.used.length
  { q with spill := decide (free < q.low * 1024) || (q.spill && decide (free < q.high * 1024)) }

/-- Whether a tier-2 byte range meets a registered pool or its tag table (R245). -/
def t2Protected (s : State) (off n : Nat) : Bool :=
  s.pools.any (fun e =>
    let q := e.2
    q.nslot != 0 &&
      ((decide (off < (q.slot0 + q.nslot) * 0x4000) && decide (q.slot0 * 0x4000 < off + n)) ||
       (decide (off < q.tagBase + 16 * q.nslot) && decide (q.tagBase < off + n))))

/-- The sub-channel pair of a tier-2 offset. -/
def t2Key (off : Nat) : Nat := 2 * t2Package off + t2Pair off
def pairGet (s : State) (k : Nat) : T2Pair := stGet (fun _ => T2Pair.reset) s.t2q k
def pairSet (k : Nat) (v : T2Pair) (s : State) : State := { s with t2q := stSet (fun _ => T2Pair.reset) s.t2q k v }

/-- Reads tier-2 bytes, counting sectors at their hub. -/
def t2Read (off n : Nat) (tx : Option Tx) (s : State) : List Byte × State :=
  (memRead s.t2 off n, tallyHub (t2Hub off) 0x0500 ((off + n + 63) / 64 - off / 64) tx s)

/-- Writes tier-2 bytes. A sector written whole no longer holds poison. -/
def t2Write (off : Nat) (v : List Byte) (tx : Option Tx) (s : State) : State :=
  let lo := (off + 63) / 64
  tallyHub (t2Hub off) 0x0501 ((off + v.length + 63) / 64 - off / 64) tx
    { s with t2 := memWrite s.t2 off v, t2poison := nsDrop s.t2poison lo ((off + v.length) / 64 - lo) }

/-- Whether a sector of a tier-2 byte range holds poison (R402). -/
def t2Bad (s : State) (off n : Nat) : Bool :=
  s.t2poison.any (fun i => decide (off < 64 * i + 64) && decide (64 * i < off + n))

/-- An access that completes with poison is counted and logged (R244). -/
def t2Poisoned (off : Nat) (part : Option Nat) (s : State) : State :=
  logErr { hub := t2Hub off, code := 0x0121, part := part, source := srcIndex 9 (t2Package off), engine := 13, logical := 0,
           addr := 2 ^ 44 + off, detail := 0 } (rupd (hubBase (t2Hub off) + 0x10004) (fun w => wSatAdd w 7 0 1) s)

/-- A corrected link error is counted and logged (R244). -/
def t2Corrected (off : Nat) (part : Option Nat) (s : State) : State :=
  logErr { hub := t2Hub off, code := 0x0120, part := part, source := srcIndex 9 (t2Package off), engine := 13, logical := 0,
           addr := 2 ^ 44 + off, detail := 0 } (rupd (hubBase (t2Hub off) + 0x10004) (fun w => wSatAdd w 31 16 1) s)

/-- The link errors that wait for an access of `n` bytes at the pairs it meets: corrected ones are counted, and of those that persist
the offsets are given (R244; log entry 201). -/
def t2Link (off n : Nat) (part : Option Nat) (s : State) : List Nat × State :=
  (List.range ((off + n + 4095) / 4096 - off / 4096)).foldl (fun a i =>
    let o := max off (4096 * (off / 4096 + i))
    let u := pairGet a.2 (t2Key o)
    if u.link = 0 then a
    else
      let s := pairSet (t2Key o) { u with link := 0 } a.2
      if u.link = 1 then (a.1, t2Corrected o part s) else (a.1 ++ [o], t2Poisoned o part s)) ([], s)

/-- A read outside the queues: the bytes, or none where a sector holds poison or a link error persists (R244). -/
def t2Load (off n : Nat) (tx : Option Tx) (s : State) : Option (List Byte) × State :=
  let part := tx.map (fun t => t.part)
  let (ue, s) := t2Link off n part s
  let (d, s) := t2Read off n tx s
  if t2Bad s off n then (none, t2Poisoned off part s) else if ue.isEmpty then (some d, s) else (none, s)

/-- A write outside the queues; a sector whose link error persists holds poison (R244). -/
def t2Store (off : Nat) (v : List Byte) (tx : Option Tx) (s : State) : State :=
  let (ue, s) := t2Link off v.length (tx.map (fun t => t.part)) s
  let s := t2Write off v tx s
  { s with t2poison := ue.foldl (fun l o => nsAdd l (o / 64)) s.t2poison }

/-! ## Device physical addresses (Table HOST.7) -/

/-- Where an address lies, or the reason of Table NOC.9 for refusing it. -/
inductive Tgt where
  | slice (c off : Nat)
  | tier2 (off : Nat)
  | sram (clu off : Nat)
  | reg (off : Nat)
  | bad (reason : Nat)
  deriving DecidableEq, Repr

def dpaTgt (s : State) (a : Nat) : Tgt :=
  let sp := fld a 47 44
  if 2 ^ 48 ≤ a then .bad 5
  else if sp = 0 then
    if fld a 31 28 ≠ 0 then .bad 5
    else
      match corePhys s (fld a 43 40) (fld a 39 36) (fld a 35 32) with
      | some c => .slice c (fld a 27 0)
      | none => .bad 4
  else if sp = 1 then
    if fld a 43 41 ≠ 0 then .bad 5 else if fld a 40 0 ≥ t2End then .bad 1 else .tier2 (fld a 40 0)
  else if sp = 3 then
    if fld a 35 22 ≠ 0 then .bad 5
    else
      match clPhys s (fld a 43 40) (fld a 39 36) with
      | some k => .sram k (fld a 21 0)
      | none => .bad 4
  else if sp = 15 then (if fld a 43 28 ≠ 0 then .bad 5 else .reg (fld a 27 0))
  else .bad 5

/-- Who makes a request: the partition it carries, or the privileged marker (R275). -/
inductive Who where
  | part (p : Nat)
  | priv
  | nobody
  deriving DecidableEq, Repr

/-- The requests of a core carry its partition; a core in none reaches nothing. -/
def coreWho (s : State) (c : Nat) : Who :=
  match corePart s c with
  | some p => .part p
  | none => .nobody

/-- Whether a byte range of a slice touches a retired column (R370). -/
def retiredIn (s : State) (c off n : Nat) : Bool :=
  let hit (o : Nat) : Bool := (colget s (colOf c o)).state == 2
  n != 0 && (hit off || hit (off + n - 1) || (decide (0x4000 < n) && (hit 0 || hit 0x4000)))

/-- Whether a tier-2 byte range meets a partition's windows. -/
def meetsWindows (s : State) (p off n : Nat) : Bool :=
  n != 0 && (partWindows s p).any (fun w => w.1 ≤ (off + n - 1) / 65536 && off / 65536 ≤ w.2 && w.1 ≤ w.2)

/-- The refusal of an access, if any: its status and reason (R239, R273, R276, R420). -/
def tgtRefusal (s : State) (w : Who) (t : Tgt) (n : Nat) (write : Bool) : Option (Nat × Nat) :=
  let own (clu : Nat) : Bool := match w with
    | .part p => cluIn s p clu
    | .priv => !((cluPart s clu).any (confLocked s))
    | .nobody => false
  match t with
  | .bad r => some (0x0401, r)
  | .reg _ => some (0x0401, 5)
  | .slice c off =>
    if off + n > 2 ^ 28 then some (0x0401, 5)
    else if !own (coreClu c) then some (0x0401, 0)
    else if retiredIn s c off n then some (0x0401, 3)
    else if nsHas s.lostTw (coreTower c) then some (0x0502, 0)
    else none
  | .sram k off =>
    if off + n > 2 ^ 22 then some (0x0401, 5)
    else if !own k then some (0x0401, 0)
    else if write && dirTouched s k off n then some (0x0401, 2)
    else if nsHas s.lostTw (cluTower k) then some (0x0502, 0)
    else none
  | .tier2 off =>
    let inW := match w with
      | .part p => inWindows s p off n
      | .priv => !s.parts.any (fun e => confLocked s e.1 && meetsWindows s e.1 off n)
      | .nobody => false
    if off + n > t2End || !inW then some (0x0401, 1)
    else if write && t2Protected s off n then some (0x0401, 2)
    else if quarterAbsent s (t2Hub off) || quarterAbsent s (t2Hub (off + n - 1)) then some (0x0502, 0)
    else none

/-- Reads through a target: the bytes, or none for poison. -/
def tgtRead (t : Tgt) (n : Nat) (tx : Option Tx) (s : State) : Option (List Byte) × State :=
  match t with
  | .slice c off => t1ReadBytes c off n s
  | .sram k off => csReadBytes k off n (csCount k 0 tx s)
  | .tier2 off => t2Load off n tx s
  | _ => (none, s)

/-- Writes through a target. -/
def tgtWrite (t : Tgt) (v : List Byte) (tx : Option Tx) (s : State) : State :=
  match t with
  | .slice c off => t1Write c off v s
  | .sram k off => csWriteBytes k off v (csCount k 0 tx s)
  | .tier2 off => t2Store off v tx s
  | _ => s

/-- Counts the writes refused into a directory area or a pool (R188, R245). -/
def countRaw (t : Tgt) (reason : Nat) (s : State) : State :=
  match t with
  | .sram k _ => if reason = 2 then rawRefused k s else s
  | _ => s

/-- The partition whose tier-2 pool or tag table holds a byte. -/
def poolOwner (s : State) (off : Nat) : Option Nat :=
  (s.pools.find? (fun e => t2Protected { s with pools := [e] } off 1)).map Prod.fst

/-- A host write refused into a protected area is counted, and logged as a correctable error of the area's partition (R188, R245).
The source is the cluster or the package that holds the area. DESIGN CHOICE (log entry 181). -/
def hostRaw (addr : Nat) (t : Tgt) (reason : Nat) (s : State) : State :=
  if reason ≠ 2 then s
  else
    let e : ErrEv := { hub := 0, code := 0x0131, part := none, source := 0, engine := 17, logical := 0, addr := addr, detail := 0 }
    match t with
    | .sram k _ =>
      logErr { e with hub := homeHub (cluTower k), part := cluPart s k, source := srcClu 3 k } (countRaw t reason s)
    | .tier2 off => logErr { e with hub := t2Hub off, part := poolOwner s off, source := srcIndex 9 (t2Package off) } s
    | _ => s

/-- A hub's counts of lapses and refusals, and its last refusal. The manual names them without an address; their layout is that of
Tables NOC.8 and NOC.9. PRESUMED (log entry 19). -/
def hubStat (s : State) (h : Nat) : Word := stGet (fun _ => 0) s.net.hubStat h
def hubBnd (s : State) (h : Nat) : Word := stGet (fun _ => 0) s.net.hubBnd h
def hubStatUpd (h : Nat) (f : Word → Word) (s : State) : State :=
  { s with net := { s.net with hubStat := stSet (fun _ => 0) s.net.hubStat h (f (hubStat s h)) } }

/-- The partition and the privileged marker that a request carries. -/
def whoBits (w : Who) : Nat × Bool := match w with
  | .part p => (p, false)
  | .priv => (0, true)
  | .nobody => (0, false)

/-- Records a refusal at a hub's interface (R276). -/
def hubRefused (h reason : Nat) (w : Who) (s : State) : State :=
  let s := hubStatUpd h (fun x => wSatAdd x 7 0 1) s
  let v := whoBits w
  { s with net := { s.net with hubBnd := stSet (fun _ => 0) s.net.hubBnd h
                                 (BitVec.ofNat 32 (2 ^ 31 + reason * 2 ^ 28 + v.1 * 2 ^ 22 + b2n v.2 * 2 ^ 21)) } }

/-- The record of a refusal with the host port, at H0, as its master (R298). -/
def hostRefused (w : Who) (r : Nat × Nat) (s : State) : State := if r.1 = 0x0401 then hubRefused 0 r.2 w s else s

end Sys2Proof.Machine
end

