-- ==== Sys2Proof/Machine/Host.lean ====
section
/-! DEFINITION. Relub packets: layout, command windows, acceptance checks, replies, and how a packet starts and completes
(R299 to R310). -/

namespace Sys2Proof.Machine

/-! ## The packet (R305) -/

/-- One step of CRC-32C over one bit. -/
def crcBit (c : Nat) : Nat := if c % 2 = 1 then Nat.xor (c / 2) 0x82F63B78 else c / 2

/-- CRC-32C over one byte. -/
def crcByte (c : Nat) (b : Byte) : Nat :=
  crcBit (crcBit (crcBit (crcBit (crcBit (crcBit (crcBit (crcBit (Nat.xor c b.toNat))))))))

/-- CRC-32C: Castagnoli, reflected, initial value and final XOR all ones (Table HOST.10). -/
def crc32c (bs : List Byte) : Nat := Nat.xor (bs.foldl crcByte 0xFFFFFFFF) 0xFFFFFFFF

/-! Header fields (Table HOST.9). -/

def hVersion (b : List Byte) : Nat := leAt b 0 1
def hFlags (b : List Byte) : Nat := leAt b 1 1
def hOp (b : List Byte) : Nat := leAt b 2 2
def hSeq (b : List Byte) : Nat := leAt b 4 4
def hPart (b : List Byte) : Nat := leAt b 8 2
def hPlen (b : List Byte) : Nat := leAt b 10 2
def hRslot (b : List Byte) : Nat := leAt b 12 4
def hRaddr (b : List Byte) : Nat := leAt b 16 8
def hRvec (b : List Byte) : Nat := leAt b 24 4

/-- A payload field: `n` bytes from payload byte `off`. -/
def payAt (b : List Byte) (off n : Nat) : Nat := leAt b (32 + off) n

/-! ## Opcodes (Table HOST.12) -/

/-- An opcode: its number, whether a virtual function may send it, and its payload bytes; none where the payload length
varies. -/
structure OpRow where
  op : Nat
  vf : Bool
  bytes : Option Nat
  deriving DecidableEq, Repr

def opRows : List OpRow :=
  [ ⟨0x0001, true, some 0⟩, ⟨0x0002, false, some 8⟩, ⟨0x0003, false, some 16⟩,
    ⟨0x0101, false, some 32⟩, ⟨0x0102, false, some 8⟩, ⟨0x0103, false, some 8⟩, ⟨0x0104, true, some 0⟩,
    ⟨0x0105, false, some 8⟩,
    ⟨0x0201, true, none⟩, ⟨0x0202, true, some 24⟩, ⟨0x0203, true, some 24⟩, ⟨0x0204, true, some 32⟩,
    ⟨0x0205, true, some 32⟩, ⟨0x0206, true, some 0⟩, ⟨0x0207, true, some 24⟩, ⟨0x0208, true, some 24⟩,
    ⟨0x0209, true, some 0⟩, ⟨0x020A, true, some 24⟩, ⟨0x020B, true, some 0⟩ ] ++
  [ ⟨0x0301, true, some 16⟩, ⟨0x0302, true, some 16⟩, ⟨0x0303, true, some 16⟩, ⟨0x0304, true, some 16⟩,
    ⟨0x0305, true, some 16⟩, ⟨0x0306, true, some 16⟩, ⟨0x0307, true, some 16⟩, ⟨0x0308, true, some 0⟩,
    ⟨0x0309, true, some 16⟩, ⟨0x030A, true, some 16⟩, ⟨0x030B, true, some 16⟩,
    ⟨0x0401, true, some 64⟩, ⟨0x0402, true, some 0⟩ ] ++
  [ ⟨0x0501, false, some 24⟩, ⟨0x0502, false, some 8⟩, ⟨0x0503, false, some 8⟩, ⟨0x0504, false, some 8⟩,
    ⟨0x0505, false, some 8⟩, ⟨0x0506, false, some 8⟩,
    ⟨0x0601, false, some 0⟩, ⟨0x0602, false, some 24⟩, ⟨0x0603, true, some 24⟩,
    ⟨0x0701, true, some 0⟩, ⟨0x0702, false, some 24⟩, ⟨0x0703, false, some 24⟩, ⟨0x0704, true, some 24⟩,
    ⟨0x0801, false, some 8⟩, ⟨0x0802, false, some 16⟩, ⟨0x0803, false, none⟩, ⟨0x0804, false, some 8⟩ ]

def opRow (op : Nat) : Option OpRow := opRows.find? (fun r => r.op == op)

/-- Whether an opcode is a device-level one (R309). -/
def opDevice (op : Nat) : Bool :=
  op ∈ [0x0001, 0x0002, 0x0003, 0x0501, 0x0502, 0x0503, 0x0504, 0x0505, 0x0506, 0x0601, 0x0602, 0x0702, 0x0703, 0x0801,
        0x0802, 0x0803, 0x0804]

/-- Opcodes that name a partition or the whole device: R314 and Table SEC.5 describe both. DEDUCED (log entry 20). -/
def opBoth (op : Nat) : Bool := op ∈ [0x0201, 0x0202, 0x0203, 0x0603, 0x0704]

/-- Whether PLEN matches the opcode. -/
def plenOk (b : List Byte) : Bool :=
  match (opRow (hOp b)).bind OpRow.bytes with
  | some n => 8 * hPlen b == n
  | none =>
    if hOp b = 0x0201 then hPlen b == 2 + ceilDiv (payAt b 8 4) 8 else hPlen b == 2 + payAt b 0 2

/-! ## Windows -/

def wget (s : State) (w : Nat) : WinSt := stGet (fun _ => WinSt.reset) s.wins w
def wset (w : Nat) (v : WinSt) (s : State) : State := { s with wins := stSet (fun _ => WinSt.reset) s.wins w v }
def wupd (w : Nat) (f : WinSt → WinSt) (s : State) : State := wset w (f (wget s w)) s

/-- The function of a window: 0 the physical function, p + 1 virtual function p. -/
def winFn (w : Nat) : Nat := if w < 64 then 0 else w - 63

/-- The register key of a window's HP_WIN_LAST. -/
def winLastKey (w : Nat) : Nat := if w < 64 then 0x1008 + 16 * w else vfKey (w - 64) 0x10008

/-- Bytes of a window, taken modulo its 64 KiB (R299). -/
def winBytes (s : State) (w off n : Nat) : List Byte :=
  (List.range n).map (fun i => memGet s.winMem (w * 65536 + (off + i) % 65536))

/-- Whether a packet opcode is one of DEVICE_STATUS and DEVICE_RESET, which the gates of R308 let pass. -/
def gateStatus (s : State) (op : Nat) : Nat :=
  if op = 0x0002 || op = 0x0001 then 0 else if s.fatal then 0x0506 else if s.booted then 0 else 0x0303

/-- Whether a window admits an opcode with its PARTITION (R309). -/
def winAdmits (w : Nat) (b : List Byte) : Bool :=
  let op := hOp b
  let p := hPart b
  let shape := if opBoth op then decide (p < 64) || p == 0xFFFF else if opDevice op then p == 0xFFFF else decide (p < 64)
  if w < 64 then shape
  else
    ((opRow op).map OpRow.vf).getD false &&
      (if op = 0x0001 then p == w - 64 || p == 0xFFFF else p == w - 64)

/-- The accepted, unstarted step launches of a partition. -/
def launchesOf (s : State) (p : Nat) : Nat :=
  sumNat (s.wins.map (fun e => (e.2.queue.filter (fun k =>
    hOp k.bytes == 0x0401 && hPart k.bytes == p &&
      (!k.started || ((pget s p).launches ++ (pget s p).held ++ (pget s p).held2).contains k.id))).length))

/-- The acceptance checks of Table HOST.8 after the reply address: the first status that applies, or 0. -/
def acceptStatus (s : State) (w : Nat) (b : List Byte) : Nat :=
  let op := hOp b
  if hFlags b / 8 ≠ 0 || hRvec b / 2 ^ 13 ≠ 0 || leAt b 28 4 ≠ 0 then 0x0101
  else if (opRow op).isNone then 0x0102
  else if gateStatus s op ≠ 0 then gateStatus s op
  else if !winAdmits w b then 0x0403
  else if !plenOk b then 0x0105
  else if hRvec b % 2 ^ 11 ≥ (if w < 64 then 2048 else 32) then 0x0107
  else if 64 ≤ (wget s w).queue.length then 0x0205
  else if op = 0x0401 && 16 ≤ launchesOf s (hPart b) then 0x0205
  else 0

/-! ## Replies (R306) -/

/-- The 32 bytes of a reply record (Table HOST.11). -/
def replyBytes (b : List Byte) (kind status result detail ns : Nat) : List Byte :=
  leBytes 2 status ++ leBytes 2 kind ++ leBytes 4 (hSeq b) ++ leBytes 4 (hRslot b) ++ leBytes 2 (hOp b) ++
    leBytes 2 (hPart b) ++ leBytes 8 result ++ leBytes 4 detail ++ leBytes 4 ns

/-- Writes a reply record and then, when RVEC bit `bit` asks for it, signals (R306). `rec` says whether the record is
written. -/
def reply (w : Nat) (b : List Byte) (kind status result detail bit : Nat) (record : Bool) (s : State) : State :=
  let s := if record && hRaddr b ≠ 0 then
    fnSend (winFn w) (.write (hRaddr b) (replyBytes b kind status result detail s.ns)) s else s
  if bitAt (hRvec b) bit then sendMsix (winFn w) (hRvec b % 2 ^ 11) s else s

/-- Records a rejection or a stall in HP_WIN_LAST (Table HOST.22). -/
def winLast (w status slot : Nat) (s : State) : State :=
  rupd (winLastKey w) (fun v => wPut (wPut v 31 16 status) 9 0 slot) s

/-- Takes a packet whose CRC has checked: accepts or rejects it and moves the head (R303). -/
def takePacket (w : Nat) (b : List Byte) (s : State) : State :=
  let u := wget s w
  let slot := u.head
  let s := wset w { u with head := (u.head + ceilDiv (40 + 8 * hPlen b) 64) % 1024 } s
  if hRaddr b % 32 ≠ 0 then winLast w 0x0106 slot s
  else
    let st := acceptStatus s w b
    if st ≠ 0 then reply w b 2 st 0 0 11 true (winLast w st slot s)
    else
      let k : Pkt := { id := s.nextPkt, win := w, bytes := b, started := false, silent := false }
      reply w b 0 0 0 0 11 (bitAt (hFlags b) 0) (tallyHub 0 0x0531 1 none
        (wupd w (fun u => { u with queue := u.queue ++ [k] }) { s with nextPkt := s.nextPkt + 1 }))

/-- Whether a write of `n` bytes at `off` touches one of the `m` bytes at `a`, all modulo 64 KiB. -/
def winTouch (off n a m : Nat) : Bool :=
  (List.range m).any (fun i => decide (((a + i) % 65536 + 65536 - off % 65536) % 65536 < n))

/-- Examines the packet at the head of a window after a write of `n` bytes at `off` (R301, R302). The same write may
complete several packets one after the other. -/
def examine (w off n : Nat) : Nat → State → State
  | 0, s => s
  | fuel + 1, s =>
    let u := wget s w
    if u.stalled then s
    else
      let h := u.head * 64
      let hd := winBytes s w h 32
      if hVersion hd ≠ 2 || hPlen hd > 507 then
        if winTouch off n (h + 31) 1 then
          winLast w (if hVersion hd ≠ 2 then 0x0104 else 0x0105) u.head (wset w { u with stalled := true } s)
        else s
      else
        let l := 32 + 8 * hPlen hd
        let tr := winBytes s w (h + l) 8
        if winTouch off n (h + l + 4) 4 && leAt tr 4 4 == 0xEE0D0000 + hSeq hd % 65536 then
          let b := winBytes s w h l
          if leAt tr 0 4 = crc32c b then examine w off n fuel (takePacket w b s)
          else rupd (winLastKey w) (fun v => wSatAdd v 15 10 1) s
        else s

/-- A write that lands in a command window. A function in D3hot accepts none (R289). -/
def writeWindow (w off : Nat) (d : List Byte) (s : State) : State :=
  if nsHas s.d3 (winFn w) then s
  else
    let s := { s with winMem := d.zipIdx.foldl (fun m e => memSet m (w * 65536 + (off + e.2) % 65536) e.1) s.winMem }
    examine w off d.length 64 s

/-- Whether the host's link carries a memory access to a function: the link is up, H0 is there, and the function is in D0
(R289, R414). -/
def hostReaches (s : State) (fn : Nat) : Bool := wBit (rget s 0x100) 10 && !hubAbsent s 0 && !nsHas s.d3 fn

/-- Counts a host memory request (HP_REQ): it carries its function's partition or the privileged marker. -/
def hostReq (fn : Nat) (addr : Option Nat) (s : State) : State :=
  tallyHub 0 0x0530 1 (some { part := fn - 1, engine := 17, site := 0, level := if fn = 0 then 1 else 2, cls := 0, addr := addr }) s

def execCommandWindowWrite (w : Fin 128) (off : Fin 65536) (d : List Byte) (s : State) : Res :=
  .next (if hostReaches s (winFn w) then writeWindow w off d (hostReq (winFn w) none s) else s)

/-- HP_WIN_CTL.RESET: the head and the state become 0 (R302). -/
def resetWindow (w : Nat) (s : State) : State := wupd w (fun u => { u with head := 0, stalled := false }) s

def execWindowReset (w : Fin 128) (s : State) : Res :=
  .next (if hostReaches s (winFn w) then resetWindow w (hostReq (winFn w) none s) else s)

/-! ## Starting and completing (R304) -/

/-- A packet of the device by its acceptance number. -/
def findPkt (s : State) (id : Nat) : Option Pkt :=
  s.wins.findSome? (fun e => e.2.queue.find? (fun k => k.id == id))

/-- Whether two opcodes are directory edits or COMMIT: those apply in acceptance order (R195, R304). -/
def opEdit (op : Nat) : Bool := decide (0x0301 ≤ op) && decide (op ≤ 0x0308)

/-- The packet that an opcode's command starts: the oldest unstarted packet of the window, when it has that opcode, its
fence is met, neither its function, nor the physical function, nor its partition's function is in D3hot (R289), and no
earlier edit or launch of the partition waits in another window (R304), nor an earlier PART_CREATE for LIFECYCLE (Table SEC.8). In the
fatal state only DEVICE_STATUS and DEVICE_RESET start, and
none waits there for a packet that can start no more, since DEVICE_STATUS completes in every state (R308). DEDUCED (log entry
207). -/
def startable (s : State) (w op : Nat) : Option Pkt :=
  if s.fatal then
    (if op = 0x0001 || op = 0x0002 then (wget s w).queue.find? (fun k => !k.started && hOp k.bytes == op) else none)
  else
  match (wget s w).queue.find? (fun k => !k.started) with
  | none => none
  | some k =>
    let fence := bitAt (hFlags k.bytes) 1 && !(wget s w).queue.head?.any (fun q => q.id == k.id)
    let asleep := nsHas s.d3 (winFn w) || nsHas s.d3 0 || (hPart k.bytes < 64 && nsHas s.d3 (hPart k.bytes + 1))
    let early := (opEdit op || op == 0x0401) && s.wins.any (fun e => e.2.queue.any (fun q =>
      !q.started && decide (q.id < k.id) && (if op = 0x0401 then hOp q.bytes == 0x0401 else opEdit (hOp q.bytes)) &&
        hPart q.bytes == hPart k.bytes))
    let late := op == 0x0703 && s.wins.any (fun e => e.2.queue.any (fun q =>
      !q.started && decide (q.id < k.id) && hOp q.bytes == 0x0101))
    if hOp k.bytes ≠ op || fence || asleep || early || late then none else some k

/-- Marks a packet as started. -/
def startPkt (k : Pkt) (s : State) : State :=
  wupd k.win (fun u => { u with queue := u.queue.map (fun q => if q.id == k.id then { q with started := true } else q) }) s

/-- Completes a packet: it leaves its window's queue, and its completion is written (R306). In the fatal state none is
written (R408), save that of DEVICE_STATUS. QUIET omits the record of a success. -/
def complete (id status result detail : Nat) (s : State) : State :=
  match findPkt s id with
  | none => s
  | some k =>
    let s := wupd k.win (fun u => { u with queue := u.queue.filter (fun q => q.id != id) }) s
    if k.silent || (s.fatal && hOp k.bytes ≠ 0x0001) then s
    else reply k.win k.bytes 1 status result detail 12 (status ≠ 0 || !bitAt (hFlags k.bytes) 2) s

/-- The refusals every command of a partition shares: its partition does not exist (R310), it is faulted or releasing
(R411, R417), or it is confidential and the packet comes through the physical function (R419). -/
def partGate (s : State) (w p op : Nat) : Nat :=
  if p = 0xFFFF || op = 0x0101 || op = 0x0001 then 0
  else
    let st := (pget s p).state
    if st = 0 then 0x0304
    else if st = 4 && !(op ∈ [0x0102, 0x0104, 0x0105]) then 0x0304
    else if st = 3 && op ≠ 0x0104 then 0x0304
    else if w < 64 && confLocked s p && !(op ∈ [0x0104, 0x0102, 0x0402]) then 0x0403
    else 0

/-- Starts the packet of an opcode. A nonzero reserved payload bit completes it with 0x0101 (R6), a refusal shared by
its partition's commands with that status; otherwise its own effect follows. -/
def runCmd (w op : Nat) (resv : List Byte → Bool) (body : Pkt → State → State) (s : State) : Res :=
  match startable s w op with
  | none => .next s
  | some k =>
    let s := startPkt k s
    if resv k.bytes then .next (complete k.id 0x0101 0 0 s)
    else
      let g := partGate s w (hPart k.bytes) op
      if g ≠ 0 then .next (complete k.id g 0 0 s) else .next (body k s)

/-- No reserved payload bit. -/
def noResv : List Byte → Bool := fun _ => false

/-- Whether any of `n` payload bytes from `off` is nonzero. -/
def payNZ (b : List Byte) (off n : Nat) : Bool := payAt b off n != 0

/-- Who the requests of a packet come from (R314). -/
def pktWho (b : List Byte) : Who := if hPart b = 0xFFFF then .priv else .part (hPart b)

/-- Issues a device read of host memory for a function. -/
def hostRead (fn addr len : Nat) (u : ReadUse) (s : State) : State :=
  fnSend fn (.read s.nextTag addr len)
    { s with reads := s.reads ++ [{ tag := s.nextTag, addr := addr, len := len, use := u }], nextTag := s.nextTag + 1 }

/-- Forgets outstanding reads: the data of a late completion is not used. -/
def dropReads (f : ReadUse → Bool) (s : State) : State := { s with reads := s.reads.filter (fun r => !f r.use) }

/-- Posted writes of at most 512 bytes (Table HOST.1). -/
def hostWrite (fn addr : Nat) : Nat → List Byte → State → State
  | 0, _, s => s
  | _, [], s => s
  | n + 1, d, s => hostWrite fn (addr + 512) n (d.drop 512) (fnSend fn (.write addr (d.take 512)) s)

/-- Sends bytes of a function to host memory. -/
def hostPut (fn addr : Nat) (d : List Byte) (s : State) : State := hostWrite fn addr (d.length / 512 + 1) d s

/-! ## DEVICE_STATUS and PART_QUERY -/

/-- Bit h says that hub h is present. -/
def hubMask (s : State) : Nat := sumNat ((List.range 4).map (fun h => if hubAbsent s h then 0 else 2 ^ h))

/-- The RESULT of DEVICE_STATUS (Table HOST.12): HUB_PRESENT as GLB_PKG_PRESENCE holds it. -/
def deviceStatus (s : State) : Nat :=
  min (s.boot.next.getD s.stage) 15 + b2n s.booted * 16 + b2n s.fatal * 32 + wFld (rget s 0x10) 15 12 * 256 +
    (rget s 0x1C).toNat * 2 ^ 32

def execDeviceStatus (w : Fin 128) (s : State) : Res :=
  runCmd w 0x0001 noResv (fun k s => complete k.id 0 (deviceStatus s) 0 s) s

/-- HP_PART_STAT (Table HOST.25). -/
def partStat (s : State) (p : Nat) : Nat :=
  let q := pget s p
  let running := match q.step with
    | some _ => true
    | none => false
  (if q.state = 0 then 0 else (partCores s p).length) + min (launchesOf s p) 16 * 2 ^ 22 + b2n running * 2 ^ 27 +
    b2n q.model.isSome * 2 ^ 28 + q.state * 2 ^ 29

def execPartQuery (w : Fin 128) (s : State) : Res :=
  runCmd w 0x0104 noResv (fun k s =>
    complete k.id 0 (partStat s (hPart k.bytes) + (pget s (hPart k.bytes)).steps % 2 ^ 32 * 2 ^ 32) 0 s) s

end Sys2Proof.Machine
end

