-- ==== Sys2Proof/Machine/KvEng.lean ====
section
/-! DEFINITION. The directory engine: the directory area, generations, the block tree, references and frames
(R177 to R191). -/

namespace Sys2Proof.Machine

/-- What a directory engine does: it changes the state, or stops with a status and changes nothing. -/
abbrev Eng := StateT State (Except Nat)

/-- Stops with a status. -/
def engFail {α : Type} (st : Nat) : Eng α := throw st

/-- Runs for every element. -/
def engEach {α : Type} (f : α → Eng Unit) : List α → Eng Unit
  | [] => pure ()
  | a :: r => do
    f a
    engEach f r

/-- Collects a result for every element. -/
def engMap {α β : Type} (f : α → Eng β) : List α → Eng (List β)
  | [] => pure []
  | a :: r => do
    let b ← f a
    let bs ← engMap f r
    pure (b :: bs)

/-! ## The partition's clusters -/

/-- The clusters of a partition in ascending order of the partition cluster index: physical numbers. -/
def partClus (s : State) (p : Nat) : List Nat :=
  (List.range 16).flatMap (fun t => (List.range 16).filterMap (fun l =>
    if bitAt (pget s p).mask (4 * t + l / 4) then clPhys s t l else none))

/-- Changes a KVD register in every cluster of a partition. -/
def kvAll (p o : Nat) (f : Word → Word) (s : State) : State := (partClus s p).foldl (fun s k => cluUpd k o f s) s

/-! ## Reads and writes of the engine, through port B (R189) -/

/-- Reads a number of `n` bytes within a block. A block that delivers poison ends the edit with a hardware fault. -/
def dRd (k off n : Nat) : Eng Nat := do
  let s ← get
  let (d, s) := csRead k (off / 64) (csCount k 1 none s)
  match d with
  | some b =>
    set s
    pure (leAt b (off % 64) n)
  | none => engFail 0x0503

/-- Writes a number of `n` bytes within a block. -/
def dWr (k off n v : Nat) : Eng Unit :=
  modify (fun s => csWriteIn k (off / 64) (off % 64) (leBytes n v) (csCount k 1 none s))

/-- Reads a block. -/
def dRdBlk (k b : Nat) : Eng (List Byte) := do
  let s ← get
  let (d, s) := csRead k b (csCount k 1 none s)
  match d with
  | some d =>
    set s
    pure d
  | none => engFail 0x0503

/-- Writes a block. -/
def dWrBlk (k b : Nat) (d : List Byte) : Eng Unit := modify (fun s => csWrite k b d (csCount k 1 none s))

/-- Adds to a refcount word (R190): the value it held. -/
def dAdd (k off : Nat) (v : Nat) : Eng Nat := do
  let s ← get
  let (o, s) := csAtomic k off .add32 v none (csCount k 1 none s)
  match o with
  | some o =>
    set s
    pure o
  | none => engFail 0x0503

/-- Blocks of zeros, all written: their words and check bytes are zero, which is a valid code word. -/
def csZeroBlks (k b n : Nat) (s : State) : State :=
  { s with csram := memZero s.csram (csKey k (64 * b)) (64 * n)
           csChk := memZero s.csChk (csBlk k b * 16) (16 * n)
           csWr := nsAddRange s.csWr (csBlk k b) n }

/-! ## The directory area (Table KV.5) -/

/-- Pool frames per column. -/
def poolFrames (d : DirSt) : Nat := 8192 - d.kvFirst

/-- First byte of each part of the area. -/
def offHead (d : DirSt) : Nat := 64 * d.base
def offSeq (d : DirSt) : Nat := offHead d + 64 * ceilDiv (8 * d.nlh) 64
def offRef (d : DirSt) : Nat := offSeq d + 64 * ceilDiv (4 * d.maxSeq) 64
def offFree (d : DirSt) : Nat := offRef d + 128 * poolFrames d
def offBmap (d : DirSt) : Nat := offFree d + 64 * ceilDiv (4 * poolFrames d) 64

/-- Blocks that remain for the directory-block bitmap and the pool, and the pool's blocks: one bitmap block serves 512.
DEDUCED (log entry 31). -/
def restBlks (d : DirSt) : Nat := d.limit + 1 - offBmap d / 64
def poolBlks (d : DirSt) : Nat := restBlks d - ceilDiv (restBlks d) 513
def poolFirst (d : DirSt) : Nat := d.limit + 1 - poolBlks d

/-- Word index of a pool frame: column position 2 · logical core + column, and frame (Table KV.5). -/
def frameIdx (d : DirSt) (colPos frame : Nat) : Nat := colPos * poolFrames d + frame - d.kvFirst

def refOff (d : DirSt) (idx : Nat) : Nat := offRef d + 4 * idx

/-- Reads one bit of a bitmap. -/
def bmGet (k off i : Nat) : Eng Bool := do
  let b ← dRd k (off + i / 8) 1
  pure (bitAt b (i % 8))

/-- Writes one bit of a bitmap: 1 is free. DESIGN CHOICE (log entry 31). -/
def bmPut (k off i : Nat) (v : Bool) : Eng Unit := do
  let b ← dRd k (off + i / 8) 1
  dWr k (off + i / 8) 1 (putFld b (i % 8) (i % 8) (b2n v))

/-- The free entries of a bitmap of `n` bits, one bitmap block at a time. -/
def bmFree (k off n : Nat) : Nat → Eng (List Nat)
  | 0 => pure []
  | m + 1 => do
    let i := ceilDiv n 512 - (m + 1)
    let b ← dRdBlk k (off / 64 + i)
    let here := (List.range 512).filter (fun j => decide (512 * i + j < n) && bitAt (listAt b (j / 8) 0).toNat (j % 8))
    let r ← bmFree k off n m
    pure (here.map (fun j => 512 * i + j) ++ r)

/-! ## Partitions and generations -/

/-- The directory of a partition; without one its edits fail with the state status. -/
def theDir (p : Nat) : Eng DirSt := do
  let s ← get
  match (pget s p).dir with
  | some d => pure d
  | none => engFail 0x0304

def setDir (p : Nat) (d : DirSt) : Eng Unit := modify (pupd p (fun q => { q with dir := some d }))

def updDir (p : Nat) (f : DirSt → DirSt) : Eng Unit := do
  let d ← theDir p
  setDir p (f d)

/-- The generation that edits build: G + 1, or G + 2 while a COMMIT waits (R196, R198). -/
def building (d : DirSt) : GenSt := if d.pend then d.g2 else d.g1
def setBuilding (d : DirSt) (g : GenSt) : DirSt := if d.pend then { d with g2 := g } else { d with g1 := g }

def updGen (p : Nat) (f : GenSt → GenSt) : Eng Unit := updDir p (fun d => setBuilding d (f (building d)))

/-- The number of the generation that edits build. -/
def buildNum (d : DirSt) : Nat := (d.gen + if d.pend then 2 else 1) % 2 ^ 32

def seqKey (k i : Nat) : Nat := k * 2 ^ 20 + i

/-- The descriptor pointer of a sequence index in a slot of the sequence table: 0 even, 1 odd generations (R186). -/
def slotPtr (d : DirSt) (k i parity : Nat) : Eng Nat := dRd k (offSeq d + 4 * i + 2 * parity) 2

/-- The descriptor pointer in the current generation. -/
def curPtr (d : DirSt) (k i : Nat) : Eng Nat := slotPtr d k i (d.gen % 2)

/-- The descriptor pointer in G + 1. -/
def nextPtr (d : DirSt) (k i : Nat) : Eng Nat := slotPtr d k i ((d.gen + 1) % 2)

/-- The descriptor pointer in the generation under construction; G + 2 keeps its changed pointers until its slot is
free. -/
def bldPtr (d : DirSt) (k i : Nat) : Eng Nat :=
  if d.pend && d.g2.ptrs.any (fun e => e.1 == seqKey k i) then pure (stGet (fun _ => 0) d.g2.ptrs (seqKey k i))
  else nextPtr d k i

/-- Sets the pointer in the generation under construction. -/
def setPtr (p k i v : Nat) : Eng Unit := do
  let d ← theDir p
  if !d.pend then dWr k (offSeq d + 4 * i + 2 * ((d.gen + 1) % 2)) 2 v
  updGen p (fun g => { g with ptrs := stIns (seqKey k i) v (stDel g.ptrs (seqKey k i)) })

/-! ## Directory blocks -/

/-- Which free directory block an allocation takes: the manual does not say. -/
def pickFree (l : List Nat) : Eng Nat :=
  match l with
  | [] => engFail 0x0204
  | [a] => pure a
  | a :: r => do
    let s ← get
    let (v, s) := takeFree s
    set s
    pure (listAt (a :: r) (v % (r.length + 1)) a)

/-- Allocates a directory block for the generation under construction. -/
def allocBlk (p k : Nat) : Eng Nat := do
  let d ← theDir p
  let free ← bmFree k (offBmap d) (poolBlks d) (ceilDiv (poolBlks d) 512)
  let i ← pickFree free
  bmPut k (offBmap d) i false
  let b := poolFirst d + i
  dWrBlk k b (zeros 64)
  updGen p (fun g => { g with made := nsAdd g.made (csBlk k b) })
  pure b

/-- Returns a directory block to the pool. -/
def freeBlk (d : DirSt) (k b : Nat) : Eng Unit := bmPut k (offBmap d) (b - poolFirst d) true

/-- A block that the generation under construction may write: itself when it was made for it, else a copy (R196). -/
def ownBlk (p k b : Nat) : Eng Nat := do
  let d ← theDir p
  if b = 0 then allocBlk p k
  else if nsHas (building d).made (csBlk k b) then pure b
  else do
    let c ← dRdBlk k b
    let n ← allocBlk p k
    dWrBlk k n c
    updGen p (fun g => { g with old := nsAdd g.old (csBlk k b) })
    pure n

/-- Gives a block up in the generation under construction. -/
def dropBlk (p k b : Nat) : Eng Unit :=
  if b = 0 then pure ()
  else do
    let d ← theDir p
    if nsHas (building d).made (csBlk k b) then do
      freeBlk d k b
      updGen p (fun g => { g with made := nsDel g.made (csBlk k b) })
    else updGen p (fun g => { g with old := nsAdd g.old (csBlk k b) })

/-! ## The tree of a sequence (R187) -/

/-- A 16-bit pointer of a block; a missing block reads as missing pointers. -/
def ptrIn (k b slot : Nat) : Eng Nat := if b = 0 then pure 0 else dRd k (64 * b + 2 * slot) 2

/-- The layer of a layer-head. Eight bits hold its number plus one (R220). -/
def layerOf (d : DirSt) (lh : Nat) : Nat := listAt d.layers lh 0 % 255

/-- The layers of a model, ascending, and the layer-heads of one, ascending (R216). -/
def layersOf (d : DirSt) : List Nat := (List.range 255).filter (fun l => (List.range d.nlh).any (fun lh => layerOf d lh == l))
def layerHeads (d : DirSt) (l : Nat) : List Nat := (List.range d.nlh).filter (fun lh => layerOf d lh == l)

/-- The list block of local layer-head i and local block j under a descriptor. -/
def listBlk (k desc i j : Nat) : Eng Nat := do
  let h ← ptrIn k desc (8 + i / 32)
  let x ← ptrIn k h (i % 32)
  ptrIn k x (j / 8)

/-- A page-table entry under a descriptor. -/
def pteAt (k desc i j : Nat) : Eng Nat := do
  let l ← listBlk k desc i j
  if l = 0 then pure 0 else dRd k (64 * l + 8 * (j % 8)) 8

/-- Makes the block at a pointer writable, and points the pointer at it. -/
def ownAt (p k b slot : Nat) : Eng Nat := do
  let o ← ptrIn k b slot
  let n ← ownBlk p k o
  if n ≠ o then dWr k (64 * b + 2 * slot) 2 n
  pure n

/-- The writable descriptor of a sequence index in the generation under construction. -/
def ownDesc (p k i : Nat) : Eng Nat := do
  let d ← theDir p
  let o ← bldPtr d k i
  let n ← ownBlk p k o
  if n ≠ o then setPtr p k i n
  pure n

/-- Writes a page-table entry in the generation under construction. -/
def putPte (p k seqI i j v : Nat) : Eng Unit := do
  let de ← ownDesc p k seqI
  let h ← ownAt p k de (8 + i / 32)
  let x ← ownAt p k h (i % 32)
  let l ← ownAt p k x (j / 8)
  dWr k (64 * l + 8 * (j % 8)) 8 v

/-! ## Head map (R184) -/

/-- A head-map entry. -/
structure HeadEnt where
  base : Nat
  spread : Nat
  expfmt : Nat
  strict : Bool
  deriving DecidableEq, Repr

def headEnt (w : Nat) : HeadEnt :=
  { base := fld w 7 0, spread := fld w 15 8 + 1, expfmt := fld w 19 16, strict := bitAt w 20 }

/-- The head map as a shard holds it. -/
def readHeads (d : DirSt) (k : Nat) : Eng (List HeadEnt) :=
  engMap (fun lh => do
    let w ← dRd k (offHead d + 8 * lh) 8
    pure (headEnt w)) (List.range d.nlh)

/-- The head map as the generation under construction has it. -/
def bldHeads (d : DirSt) (k : Nat) : Eng (List HeadEnt) := do
  let hs ← readHeads d k
  pure (hs.zipIdx.map (fun e =>
    let g1 := stGet (fun _ => 0) d.g1.heads e.2
    let g2 := if d.pend then stGet (fun _ => 0) d.g2.heads e.2 else 0
    let v := if g2 ≠ 0 then g2 else g1
    if v = 0 then e.1 else { e.1 with expfmt := (v - 1) % 16, strict := bitAt (v - 1) 4 }))

/-- Where block b of a layer-head lies: the partition cluster index and the local block. -/
def blkPlace (n : Nat) (h : HeadEnt) (b : Nat) : Nat × Nat := ((h.base + b % h.spread) % n, b / h.spread)

/-- Whether a shard lies in a layer-head's stripe. -/
def inStripe (n : Nat) (h : HeadEnt) (k : Nat) : Bool := decide ((k + n - h.base % n) % n < h.spread)

/-- The local number of layer-head lh in shard k. -/
def localLh (n : Nat) (hs : List HeadEnt) (k lh : Nat) : Nat := ((hs.take lh).filter (fun h => inStripe n h k)).length

/-! ## Page-table entries (Table KV.3) and page IDs (Table KV.2) -/

def pteValid (e : Nat) : Bool := bitAt e 63
def pteShared (e : Nat) : Bool := bitAt e 53
def pteEpoch (e : Nat) : Nat := fld e 52 51
def pteTag (e : Nat) : Nat := fld e 50 47
def pteTokens (e : Nat) : Nat := fld e 46 40
def pteVersion (e : Nat) : Nat := fld e 39 32
def ptePage (e : Nat) : Nat := fld e 31 0
def pteTier (e : Nat) : Nat := fld e 31 30

def mkPte (shared : Bool) (epoch tag tokens version page : Nat) : Nat :=
  2 ^ 63 + b2n shared * 2 ^ 53 + epoch * 2 ^ 51 + tag * 2 ^ 47 + tokens * 2 ^ 40 + version * 2 ^ 32 + page

/-- Whether an entry's page takes two frames or slots: a BF16 page is known by its tag. DEDUCED (log entry 33). -/
def ptePair (e : Nat) : Bool := pteTag e == 1

/-- The column of a tier-1 page ID and its frame. -/
def pageCol (s : State) (page : Nat) : Option (Nat × Nat) :=
  (corePhys s (fld page 29 26) (fld page 25 22) (fld page 21 18)).map (fun c => (2 * c + fld page 17 17, fld page 12 0))

/-- The page ID of a frame of a column, for a core in the map. -/
def colPageId (s : State) (col frame : Nat) : Nat := ((colPage s col).getD 0) + frame

/-- The column position within its cluster of a tier-1 page: 2 · logical core + column. -/
def pagePos (page : Nat) : Nat := 2 * fld page 21 18 + fld page 17 17

/-- The VERSION of a frame tag. -/
def frameVersion (s : State) (col frame : Nat) : Nat := fld (ftGet s col frame).toNat 7 0

/-- An entry with VERSION refreshed from the frame tag of a tier-1 page (R183). -/
def pteFresh (s : State) (e : Nat) : Nat :=
  if pteValid e && pteTier e == 0 then
    match pageCol s (ptePage e) with
    | some (col, f) => putFld e 39 32 (frameVersion s col f)
    | none => e
  else e

/-! ## Frames (R191, R194) -/

/-- The columns of a cluster in rotation order from position `r`: position and column, for those in
service; no page is allocated in an at-risk column (R369). -/
def rotCols (s : State) (k r : Nat) : List (Nat × Nat) :=
  (List.range 32).filterMap (fun i =>
    let pos := (r + i) % 32
    match keyOf s.map.core (fun y => y / 17 == k) (pos / 2 + 1) with
    | some c => if (colget s (2 * c + pos % 2)).state = 0 then some (pos, 2 * c + pos % 2) else none
    | none => none)

/-- The lowest free frame of a column, or the lowest free even pair. -/
def lowFrame (d : DirSt) (k pos : Nat) (pair : Bool) : Eng (Option Nat) := do
  let n := poolFrames d
  let free ← bmFree k (offFree d) (32 * n) (ceilDiv (32 * n) 512)
  let mine := (free.filter (fun i => decide (pos * n ≤ i) && decide (i < (pos + 1) * n))).map (fun i =>
    i - pos * n + d.kvFirst)
  pure (mine.find? (fun f => !pair || (f % 2 == 0 && mine.contains (f + 1))))

/-- Takes a frame of a column: its bits are cleared and its refcount is 1. -/
def takeFrame (d : DirSt) (k pos frame : Nat) (pair : Bool) : Eng Unit := do
  bmPut k (offFree d) (frameIdx d pos frame) false
  if pair then bmPut k (offFree d) (frameIdx d pos (frame + 1)) false
  dWr k (refOff d (frameIdx d pos frame)) 4 1
  modify (cluUpd k 0x110 (fun w => w - BitVec.ofNat 32 (if pair then 2 else 1)))

/-- The first column of a list with a frame to take. -/
def firstFrame (d : DirSt) (k : Nat) (pair : Bool) : List (Nat × Nat) → Eng (Nat × Nat × Nat)
  | [] => engFail 0x0204
  | (pos, col) :: r => do
    let f ← lowFrame d k pos pair
    match f with
    | some f => pure (pos, col, f)
    | none => firstFrame d k pair r

/-- Allocates a frame or pair under R191: the next column in rotation that has one, its lowest. Answers the column and
the frame. -/
def allocFrame (p k : Nat) (pair : Bool) : Eng (Nat × Nat) := do
  let d ← theDir p
  let s ← get
  let (pos, col, f) ← firstFrame d k pair (rotCols s k (stGet (fun _ => 0) d.rot k))
  updDir p (fun d => { d with rot := stSet (fun _ => 0) d.rot k ((pos + 1) % 32) })
  takeFrame d k pos f pair
  pure (col, f)

/-- Puts a frame, or a pair, into its cluster's zeroing queue. -/
def queueZero (k col frame : Nat) (pair : Bool) (s : State) : State :=
  let q := stGet (fun _ => []) s.zeroQ k ++ [ftKey col frame] ++ (if pair then [ftKey col (frame + 1)] else [])
  { s with zeroQ := stSet (fun _ => []) s.zeroQ k q }

/-- An edit that drops an entry lists it for the switch. -/
def dropEntry (p k e : Nat) : Eng Unit :=
  let x : Drop := { clu := k, page := ptePage e, epoch := pteEpoch e, pair := ptePair e }
  if pteValid e && pteTier e ≠ 3 then updGen p (fun g => { g with drops := g.drops ++ [x] }) else pure ()

end Sys2Proof.Machine
end

