-- ==== Sys2Proof/Machine/KvEdit.lean ====
section
/-! DEFINITION. Directory edits, commits, the generation switch, the policy and the sequence query (R192 to R199, R317). -/

namespace Sys2Proof.Machine

/-! ## Sequences -/

/-- The sequence index of an ID in the partition's range. -/
def seqIdx (d : DirSt) (q : Nat) : Option Nat :=
  if d.seqBase ≤ q && q < d.seqBase + d.maxSeq then some (q - d.seqBase) else none

/-- A descriptor's fields (Table KV.6). -/
structure Desc where
  seq : Nat
  state : Nat
  prio : Nat
  ctx : Nat
  last : Nat
  fault : Nat
  deriving DecidableEq, Repr

def descOf (b : List Byte) : Desc :=
  let w := leAt b 0 4
  { seq := fld w 19 0, state := fld w 23 20, prio := fld w 25 24, ctx := fld (leAt b 4 4) 21 0, last := leAt b 8 4,
    fault := leAt b 12 1 }

/-- The first 16 bytes of a descriptor. -/
def descBytes (x : Desc) : List Byte :=
  leBytes 4 (x.seq + x.state * 2 ^ 20 + x.prio * 2 ^ 24) ++ leBytes 4 x.ctx ++ leBytes 4 x.last ++ leBytes 4 x.fault

def readDesc (k b : Nat) : Eng Desc := do
  let c ← dRdBlk k b
  pure (descOf c)

/-- Rewrites the fields of a descriptor block, its pointers kept. -/
def writeDesc (k b : Nat) (f : Desc → Desc) : Eng Unit := do
  let c ← dRdBlk k b
  dWrBlk k b (putBytes c 0 (descBytes (f (descOf c))))

/-- Changes a sequence's descriptor in one shard, in the generation under construction. -/
def editDesc (p i : Nat) (f : Desc → Desc) (k : Nat) : Eng Unit := do
  let b ← ownDesc p k i
  writeDesc k b f

/-- The directory, the shards and the head map that an edit works with. -/
structure EditCtx where
  d : DirSt
  ks : List Nat
  hs : List HeadEnt
  n : Nat

def editCtx (p : Nat) : Eng EditCtx := do
  let d ← theDir p
  let s ← get
  let ks := partClus s p
  match ks with
  | [] => engFail 0x0304
  | k :: _ => do
    let hs ← bldHeads d k
    pure { d := d, ks := ks, hs := hs, n := ks.length }

/-- The shard of a position block: physical cluster, local layer-head and local block (R184). -/
def shardOf (x : EditCtx) (lh b : Nat) : Nat × Nat × Nat :=
  match x.hs[lh]? with
  | some h =>
    let (kk, j) := blkPlace x.n h b
    (listAt x.ks kk 0, localLh x.n x.hs kk lh, j)
  | none => (0, 0, 0)

/-- An entry in the generation under construction. -/
def getBld (p i : Nat) (x : EditCtx) (lh b : Nat) : Eng Nat := do
  let d ← theDir p
  let (k, li, j) := shardOf x lh b
  let de ← bldPtr d k i
  pteAt k de li j

/-- Writes an entry in the generation under construction. -/
def setBld (p i : Nat) (x : EditCtx) (lh b v : Nat) : Eng Unit := do
  let (k, li, j) := shardOf x lh b
  putPte p k i li j v

/-- Drops an entry. -/
def dropBld (p i : Nat) (x : EditCtx) (lh b : Nat) : Eng Unit := do
  let e ← getBld p i x lh b
  if pteValid e then do
    dropEntry p (shardOf x lh b).1 e
    setBld p i x lh b 0
  else pure ()

/-- The most local blocks of a layer-head: 256 · S blocks in all (R187). -/
def maxBlks (h : HeadEnt) : Nat := 256 * h.spread

/-- The sequence's descriptor in the generation under construction, read in the first shard. -/
def seqDesc (p : Nat) (x : EditCtx) (q : Nat) : Eng (Option (Nat × Desc)) := do
  match seqIdx x.d q with
  | none => pure none
  | some i => do
    let k := listAt x.ks 0 0
    let d ← theDir p
    let b ← bldPtr d k i
    if b = 0 then pure none
    else do
      let c ← readDesc k b
      pure (some (i, c))

/-- The sequence, or a refusal with the state status. -/
def needSeq (p : Nat) (x : EditCtx) (q : Nat) : Eng (Nat × Desc) := do
  let r ← seqDesc p x q
  match r with
  | some v => pure v
  | none => engFail 0x0304

/-- A new sequence index, or a refusal with the state status. -/
def needFree (p : Nat) (x : EditCtx) (q : Nat) : Eng Nat := do
  let r ← seqDesc p x q
  match seqIdx x.d q, r with
  | some i, none => pure i
  | _, _ => engFail 0x0304

/-- Creates a descriptor in every shard. -/
def newDesc (p i : Nat) (x : EditCtx) (v : Desc) : Eng Unit :=
  engEach (fun k => do
    let b ← allocBlk p k
    dWrBlk k b (fitBytes 64 (descBytes v))
    setPtr p k i b) x.ks

/-! ## Internal edits (R195, R199, R249) -/

/-- Requests the switch: the first COMMIT pends, a further one is queued. `pkt` is the packet that waits for it, none for
the device's own commit (R249). -/
def commitGen (d : DirSt) (pkt : Option Nat) : DirSt :=
  if d.pend then { d with queued := true, pkt2 := pkt, auto := false } else { d with pend := true, pkt1 := pkt, auto := false }

/-- The device commits the generation under construction itself, at once or after the switch that a pending COMMIT waits for (R249).
DEDUCED (log entry 200). -/
def autoCommit (p : Nat) : Eng Unit :=
  updDir p (fun d => if d.queued then d else if d.pend then { d with auto := true } else commitGen d none)

/-- Every descriptor block of a sequence in a shard: the current generation's and its shadow copies (R199). -/
def allDescs (p k i : Nat) : Eng (List Nat) := do
  let d ← theDir p
  let a ← curPtr d k i
  let b ← nextPtr d k i
  let c ← bldPtr d k i
  pure (([a, b, c].filter (fun x => x != 0)).eraseDups)

/-- Writes fields of a descriptor into the current generation and into every shadow copy, in every shard. -/
def descAll (p i : Nat) (f : Desc → Desc) : Eng Unit := do
  let s ← get
  engEach (fun k => do
    let bs ← allDescs p k i
    engEach (fun b => writeDesc k b f) bs) (partClus s p)

/-- Rewrites an entry in the current generation and in every shadow copy, where it is valid and satisfies a test (R199). -/
def pteAll (p i : Nat) (x : EditCtx) (lh blk : Nat) (same : Nat → Bool) (f : Nat → Nat) : Eng Unit := do
  let (k, li, j) := shardOf x lh blk
  let ds ← allDescs p k i
  let ls ← engMap (fun de => listBlk k de li j) ds
  engEach (fun l => do
    if l = 0 then pure ()
    else do
      let v ← dRd k (64 * l + 8 * (j % 8)) 8
      if pteValid v && same v then dWr k (64 * l + 8 * (j % 8)) 8 (f v)
      else pure ()) (ls.eraseDups)

/-- Makes an entry name no storage. -/
def toTier3 (e : Nat) : Nat := putFld (putFld e 52 51 0) 31 0 0xC0000000

/-- An entry comes to name no storage (tier 3), its page dropped. While a COMMIT is queued no generation is under construction, and
the entry itself is rewritten; its page is freed at the next switches. DESIGN CHOICE (log entry 200). -/
def losePage (p i : Nat) (x : EditCtx) (lh blk : Nat) : Eng Unit := do
  let e ← getBld p i x lh blk
  let d ← theDir p
  if pteValid e && pteTier e ≠ 3 then do
    dropEntry p (shardOf x lh blk).1 e
    if d.queued then pteAll p i x lh blk (fun v => ptePage v == ptePage e) toTier3 else setBld p i x lh blk (toTier3 e)
  else pure ()

/-- The entries of a sequence in the generation under construction that satisfy a test: layer-head and block. -/
def entriesWith (p i : Nat) (x : EditCtx) (f : Nat → Bool) : Eng (List (Nat × Nat)) := do
  let l ← engMap (fun lh => do
    match x.hs[lh]? with
    | none => pure []
    | some h => do
      let r ← engMap (fun b => do
        let e ← getBld p i x lh b
        pure (if f e then some (lh, b) else none)) (List.range (maxBlks h))
      pure (r.filterMap (fun v => v))) (List.range x.d.nlh)
  pure l.flatten

/-- A private page of tier 1. -/
def privT1 (e : Nat) : Bool := pteValid e && !pteShared e && pteTier e == 0

/-- A page of tier 2. -/
def inT2 (e : Nat) : Bool := pteValid e && pteTier e == 1

/-- Ends a victim whose private pages are out: its shadow descriptor takes STATE 4, and the device commits (R249). -/
def endVictim (p i : Nat) (x : EditCtx) : Eng Unit := do
  let l ← entriesWith p i x privT1
  if l.isEmpty then do
    engEach (editDesc p i (fun v => { v with state := 4 })) x.ks
    autoCommit p
  else pure ()

/-- Refuses an edit that needs a frame while preemption has stopped for want of a destination (R207). -/
def needFrames (p : Nat) : Eng Unit := do
  let s ← get
  if (pget s p).stuck then engFail 0x0204

/-! ## Page copies (R192) -/

/-- Copies the sixteen rows of a frame; stored poison is copied as stored poison. -/
def copyRows (col f col' f' : Nat) : Nat → State → State
  | 0, s => s
  | n + 1, s =>
    let o (c fr : Nat) := rowOff c (16 * fr) + 64 * n
    let (d, s) := t1ReadBlk (col / 2) (o col f) s
    copyRows col f col' f' n (match d with
      | some b => t1WriteBlk (col' / 2) (o col' f') b s
      | none => t1PoisonBlk (col' / 2) (o col' f') s)

/-- Copies a frame with its scales. Through the column's NBU the new frame's VERSION rises (R174, R192). -/
def copyFrame (col f col' f' : Nat) (nbu : Bool) (s : State) : State :=
  let t := (ftGet s col f).toNat
  let s := copyRows col f col' f' 256 s
  let s := ftScales col' f' (fld t 31 16) (fld t 47 32) s
  let s := rowMeet col' 16 true (fwTx 9 0 none) (rowMeet col 16 false (fwTx 9 0 none) s)
  if nbu then ftBump col' f' (dropPin col' s) else s

/-- Copies the page of an entry into a new frame of the same shard: the same column when it has a frame, else under
R191. Answers the new page's column and frame. -/
def copyPage (p k e : Nat) : Eng (Nat × Nat) := do
  let d ← theDir p
  let s ← get
  match pageCol s (ptePage e) with
  | none => engFail 0x0503
  | some (col, f) => do
    let pos := pagePos (ptePage e)
    let here ← if (colget s col).state = 0 then lowFrame d k pos (ptePair e) else pure none
    let (col', f') ← match here with
      | some g => do
        takeFrame d k pos g (ptePair e)
        pure (col, g)
      | none => allocFrame p k (ptePair e)
    let nbu := col' == col
    modify (fun s =>
      let s := copyFrame col f col' f' nbu s
      if ptePair e then copyFrame col (f + 1) col' (f' + 1) nbu s else s)
    pure (col', f')

/-- The entry that names a private copy of a page with `tokens` positions. -/
def copyEntry (p k e tokens : Nat) : Eng Nat := do
  needFrames p
  let (col, f) ← copyPage p k e
  let s ← get
  pure (mkPte false 0 (pteTag e) tokens (frameVersion s col f) (colPageId s col f))

/-! ## The edits (Table KV.7) -/

/-- CREATE: an empty descriptor in every shard. LAST is the partition's step count. DEDUCED (log entry 32). -/
def edCreate (p : Nat) (b : List Byte) : Eng Unit := do
  let x ← editCtx p
  let i ← needFree p x (fld (payAt b 0 8) 19 0)
  let s ← get
  newDesc p i x { seq := fld (payAt b 0 8) 19 0, state := 0, prio := fld (payAt b 0 8) 21 20, ctx := 0,
                  last := (pget s p).steps % 2 ^ 32, fault := 0 }

/-- Whether an entry names a tier-1 page that an edit may not install: its core has left the map or its column has retired
(R181). -/
def pageGone (s : State) (e : Nat) : Bool :=
  pteTier e == 0 && (match pageCol s (ptePage e) with
    | some (col, _) => (colget s col).state == 2
    | none => true)

/-- Gives dst one full block of src: shared, its refcount incremented (R192 step 1). A page that may not be installed refuses the
edit (R181, log entry 182). -/
def forkFull (p src dst : Nat) (x : EditCtx) (lh blk : Nat) : Eng Unit := do
  let e ← getBld p src x lh blk
  if !pteValid e then pure ()
  else do
    let s ← get
    if pageGone s e then engFail 0x0109
    let e' := if pteShared e then e else putFld (pteFresh s e) 53 53 1
    if pteShared e then pure () else setBld p src x lh blk e'
    let (k, _, _) := shardOf x lh blk
    if pteTier e = 0 then do
      let _ ← dAdd k (refOff x.d (frameIdx x.d (pagePos (ptePage e)) (fld (ptePage e) 12 0))) 1
      pure ()
    else pure ()
    setBld p dst x lh blk e'

/-- Gives dst its partial block (R192 step 2). -/
def forkPart (p src dst pos : Nat) (x : EditCtx) (lh : Nat) : Eng Unit := do
  let e ← getBld p src x lh (pos / 64)
  if pteValid e && pteTier e == 0 then do
    let e' ← copyEntry p (shardOf x lh (pos / 64)).1 e (pos % 64)
    setBld p dst x lh (pos / 64) e'
  else if pteValid e then setBld p dst x lh (pos / 64) (putFld e 46 40 (pos % 64))
  else pure ()

/-- FORK. -/
def edFork (p : Nat) (b : List Byte) : Eng Unit := do
  let x ← editCtx p
  let w := payAt b 0 8
  let pos := fld (payAt b 8 8) 21 0
  let (i, sd) ← needSeq p x (fld w 51 32)
  if sd.fault ≠ 0 || (3 ≤ sd.state && sd.state ≤ 5) then engFail 0x0304
  let j ← needFree p x (fld w 19 0)
  if pos > sd.ctx then engFail 0x0107
  let s ← get
  newDesc p j x { seq := fld w 19 0, state := 0, prio := fld w 21 20, ctx := pos, last := (pget s p).steps % 2 ^ 32,
                  fault := 0 }
  engEach (fun lh => do
    engEach (forkFull p i j x lh) (List.range (pos / 64))
    if pos % 64 ≠ 0 then forkPart p i j pos x lh) (List.range x.d.nlh)

/-- The number of blocks up to and with the last valid entry of a layer-head. -/
def validBlks (p i : Nat) (x : EditCtx) (lh : Nat) : Nat → Eng Nat
  | 0 => pure 0
  | n + 1 => do
    let e ← getBld p i x lh n
    if pteValid e then pure (n + 1) else validBlks p i x lh n

/-- A new page at a block (R191). -/
def newPage (p i : Nat) (x : EditCtx) (lh blk : Nat) : Eng Unit := do
  match x.hs[lh]? with
  | none => pure ()
  | some h => do
    needFrames p
    let k := (shardOf x lh blk).1
    let (col, f) ← allocFrame p k (h.expfmt == 1)
    let s ← get
    setBld p i x lh blk (mkPte false 0 h.expfmt 0 (frameVersion s col f) (colPageId s col f))

/-- RESERVE. -/
def edReserve (p : Nat) (b : List Byte) : Eng Unit := do
  let x ← editCtx p
  let (i, _) ← needSeq p x (fld (payAt b 0 8) 19 0)
  let n := fld (payAt b 8 8) 21 0
  engEach (fun lh => do
    match x.hs[lh]? with
    | none => pure ()
    | some h => do
      let v ← validBlks p i x lh (maxBlks h)
      if v + n > maxBlks h then engFail 0x0204
      engEach (fun m => newPage p i x lh (v + m)) (List.range n)) (List.range x.d.nlh)

/-- TRUNCATE's effect on one layer-head: later entries go, the kept one takes its TOKENS, and a shared partial page is
replaced by a copy. -/
def truncLh (p i pos : Nat) (x : EditCtx) (lh : Nat) : Eng Unit := do
  match x.hs[lh]? with
  | none => pure ()
  | some h => do
    engEach (fun m => dropBld p i x lh (pos / 64 + 1 + m)) (List.range (maxBlks h - (pos / 64 + 1)))
    if pos / 64 < maxBlks h then do
      let e ← getBld p i x lh (pos / 64)
      if !pteValid e then pure ()
      else if pteShared e && pos % 64 ≠ 0 && pteTier e = 0 then do
        let k := (shardOf x lh (pos / 64)).1
        let e' ← copyEntry p k e (pos % 64)
        dropEntry p k e
        setBld p i x lh (pos / 64) e'
      else do
        let s ← get
        setBld p i x lh (pos / 64) (putFld (pteFresh s e) 46 40 (pos % 64))
    else pure ()

/-- TRUNCATE. A victim that it leaves without private pages is out (R251). -/
def edTruncate (p : Nat) (b : List Byte) : Eng Unit := do
  let x ← editCtx p
  let pos := fld (payAt b 8 8) 21 0
  let (i, sd) ← needSeq p x (fld (payAt b 0 8) 19 0)
  if pos > sd.ctx then engFail 0x0107
  if sd.state = 1 || sd.state = 2 then engFail 0x0304
  engEach (truncLh p i pos x) (List.range x.d.nlh)
  engEach (editDesc p i (fun v => { v with ctx := pos, fault := 0 })) x.ks
  if sd.state = 3 then endVictim p i x

/-- Gives up the blocks of a sequence in one shard. -/
def dropTree (p i k : Nat) : Eng Unit := do
  let d ← theDir p
  let de ← bldPtr d k i
  engEach (fun a => do
    let h ← ptrIn k de (8 + a)
    if h = 0 then pure ()
    else do
      engEach (fun c => do
        let x ← ptrIn k h c
        if x = 0 then pure ()
        else do
          engEach (fun e => do
            let l ← ptrIn k x e
            dropBlk p k l) (List.range 32)
          dropBlk p k x) (List.range 32)
      dropBlk p k h) (List.range 8)
  dropBlk p k de
  setPtr p k i 0

/-- Lists every entry of a sequence as dropped. -/
def dropEntries (p i : Nat) (x : EditCtx) : Eng Unit :=
  engEach (fun lh => do
    match x.hs[lh]? with
    | none => pure ()
    | some h => engEach (fun b => do
        let e ← getBld p i x lh b
        dropEntry p (shardOf x lh b).1 e) (List.range (maxBlks h))) (List.range x.d.nlh)

/-- RELEASE. -/
def edRelease (p : Nat) (b : List Byte) : Eng Unit := do
  let x ← editCtx p
  let (i, sd) ← needSeq p x (fld (payAt b 0 8) 19 0)
  if sd.state = 1 || sd.state = 2 then engFail 0x0304
  dropEntries p i x
  engEach (dropTree p i) x.ks

/-- SETPRIO. -/
def edSetprio (p : Nat) (b : List Byte) : Eng Unit := do
  let x ← editCtx p
  let (i, _) ← needSeq p x (fld (payAt b 0 8) 19 0)
  engEach (editDesc p i (fun v => { v with prio := fld (payAt b 0 8) 21 20 })) x.ks

/-- SETHEAD: the layer-head takes its new EXPFMT and STRICT with the generation. -/
def edSethead (p : Nat) (b : List Byte) : Eng Unit := do
  let d ← theDir p
  let w := payAt b 8 8
  if fld w 11 0 ≥ d.nlh then engFail 0x0107
  updGen p (fun g => { g with heads := stSet (fun _ => 0) g.heads (fld w 11 0) (fld w 16 12 + 1) })

/-- Counts an edit in every shard (KVD_STAT.EDITS and event KVD_EDIT): an edit that a command brings, log entry 183. -/
def countEdit (p : Nat) (s : State) : State :=
  (partClus s p).foldl (fun s k => tallyClu k 0x0310 1 none s) (kvAll p 0x120 (fun w => wWrapAdd w 31 16 1) s)

/-- A swap-in that runs loses the copies of entries its sequence no longer names (R251): their frames are freed at the
switch. -/
def trimSwap (p : Nat) (s : State) : State :=
  let q := pget s p
  match q.swap, q.dir with
  | some w, some d =>
    let names (j : SwapJob) : Eng Bool := do
      let x ← editCtx p
      match seqIdx d w.seq with
      | none => pure false
      | some i => do
        let e ← getBld p i x j.lh j.blk
        pure (pteValid e && ptePage e == ptePage j.entry)
    let gone := w.jobs.filter (fun j => match (names j).run s with
      | .ok (v, _) => !v
      | .error _ => false)
    let drops := (gone.filter (fun j => j.half == 0)).map (fun j =>
      ({ clu := j.clu, page := j.frame, epoch := 0, pair := ptePair j.entry } : Drop))
    let d' := setBuilding d { building d with drops := (building d).drops ++ drops }
    pset p { q with dir := some d', swap := some { w with jobs := w.jobs.filter (fun j => !gone.contains j) } } s
  | _, _ => s

/-- Counts the 65 busy answers of an edit's access to the first cluster of the partition, and gives the edit up (R78, R79, R189;
log entry 186). -/
def editStuck (p : Nat) (s : State) : State :=
  match (partClus s p).head? with
  | some k => csBusyN k 65 none s
  | none => s

/-- Runs an edit: refused with the state status while a COMMIT is queued (R198), ended by a 65th busy with a
hardware-fault status (R189), else applied in every shard or refused. -/
def editCmd (w op : Nat) (stuck : Bool) (resv : List Byte → Bool) (e : Nat → List Byte → Eng Unit) (s : State) : Res :=
  runCmd w op resv (fun k s =>
    let p := hPart k.bytes
    match (pget s p).dir with
    | none => complete k.id 0x0304 0 0 s
    | some d =>
      if d.queued then complete k.id 0x0304 0 0 s
      else if stuck then complete k.id 0x0503 0 0 (editStuck p s)
      else
        match (e p k.bytes).run s with
        | .error st => complete k.id st 0 0 s
        | .ok (_, s') => complete k.id 0 (buildNum d) 0 (trimSwap p (countEdit p s'))) s

/-- Reserved bits of an edit's payload, given the masks of the bits listed in W0 and W1 (Table HOST.17). -/
def edResv (m0 m1 : Nat) (b : List Byte) : Bool :=
  payAt b 0 8 - Nat.land (payAt b 0 8) m0 != 0 || payAt b 8 8 - Nat.land (payAt b 8 8) m1 != 0

def execCreate (w : Fin 128) (stuck : Bool) (s : State) : Res :=
  editCmd w 0x0301 stuck (edResv 0x3FFFFF 0) edCreate s

def execFork (w : Fin 128) (stuck : Bool) (s : State) : Res :=
  editCmd w 0x0302 stuck (edResv 0xFFFFF003FFFFF 0x3FFFFF) edFork s

def execReserve (w : Fin 128) (stuck : Bool) (s : State) : Res :=
  editCmd w 0x0303 stuck (edResv 0xFFFFF 0x3FFFFF) edReserve s

def execTruncate (w : Fin 128) (stuck : Bool) (s : State) : Res :=
  editCmd w 0x0304 stuck (edResv 0xFFFFF 0x3FFFFF) edTruncate s

def execRelease (w : Fin 128) (stuck : Bool) (s : State) : Res :=
  editCmd w 0x0305 stuck (edResv 0xFFFFF 0) edRelease s

def execSetprio (w : Fin 128) (stuck : Bool) (s : State) : Res :=
  editCmd w 0x0306 stuck (edResv 0x3FFFFF 0) edSetprio s

def execSethead (w : Fin 128) (stuck : Bool) (s : State) : Res :=
  editCmd w 0x0307 stuck (edResv 0 0x1FFFF) edSethead s

/-! ## Commits and the switch (R197, R198) -/

def execCommit (w : Fin 128) (s : State) : Res :=
  runCmd w 0x0308 noResv (fun k s =>
    let p := hPart k.bytes
    match (pget s p).dir with
    | none => complete k.id 0x0304 0 0 s
    | some d =>
      if d.queued then complete k.id 0x0304 0 0 s
      else pupd p (fun q => { q with dir := some (commitGen d (some k.id)) }) s) s

/-- The tier-2 slots of a page. -/
def pageSlots (page : Nat) (pair : Bool) : List Nat :=
  if pair then [fld page 29 0, fld page 29 0 + 4] else [fld page 29 0]

/-- The host slots of a page. -/
def hostSlots (page : Nat) (pair : Bool) : List Nat :=
  if pair then [fld page 29 0, fld page 29 0 + 1] else [fld page 29 0]

/-- Register keys of a partition's glaze counts in H0 (R254). -/
def glzKey (p o : Nat) : Nat := hubBase 0 + 0x20000 + 16 * p + o

/-- Changes the count of host entries of an epoch by adding `v` modulo 2³⁰. -/
def glzCount (p epoch v : Nat) (s : State) : State :=
  let cur := wFld (rget s (glzKey p 0)) 25 24
  rupd (glzKey p (if epoch = cur then 4 else 8)) (fun w => wWrapAdd w 29 0 v) s

/-- Frees the host slots of a page, and uncounts them: one entry per page. A wipe of the saggar region has uncounted those of epoch 4
already (R259). -/
def freeHost (p page epoch : Nat) (pair : Bool) (s : State) : State :=
  (if epoch = 4 then id else glzCount p epoch (2 ^ 30 - 1)) (pupd p (fun q => { q with glz :=
    { q.glz with used := q.glz.used.filter (fun i => !(hostSlots page pair).contains i) } }) s)

/-- Frees the tier-2 slots of a page. -/
def freeT2 (p page : Nat) (pair : Bool) (s : State) : State :=
  let q := poolGet s p
  poolSet p (poolMark { q with used := q.used.filter (fun i => !(pageSlots page pair).contains i) }) s

/-- Logs a refcount decrement that returned 0 (R194), naming the frame. -/
def refError (p k page : Nat) (s : State) : State :=
  logErr { hub := homeHub (cluTower k), code := 0x0130, part := some p, source := srcClu 3 k, engine := 9, logical := 0,
           addr := 0, detail := page } s

/-- Takes a page out at the switch (R194, R246): a tier-1 page's refcount falls, and a page that nothing names goes to
zeroing; a tier-2 or host slot is freed. -/
def applyDrop (p : Nat) (d : DirSt) (x : Drop) (s : State) : State :=
  match fld x.page 31 30 with
  | 0 =>
    let off := refOff d (frameIdx d (pagePos x.page) (fld x.page 12 0))
    match (dAdd x.clu off (2 ^ 32 - 1)).run s with
    | .error _ => s
    | .ok (old, s') =>
      match pageCol s x.page with
      | none => s'
      | some (col, f) =>
        if old = 0 then
          let s := match (dAdd x.clu off 1).run s' with
            | .ok (_, s) => s
            | .error _ => s'
          refError p x.clu x.page { s with noReuse := nsAdd s.noReuse (ftKey col f) }
        else if old = 1 then queueZero x.clu col f x.pair s'
        else s'
  | 1 => freeT2 p x.page x.pair s
  | 2 => freeHost p x.page x.epoch x.pair s
  | _ => s

/-- Runs an engine action that cannot fail the command: on a failure the state stays. -/
def engRun (e : Eng Unit) (s : State) : State :=
  match e.run s with
  | .ok (_, s') => s'
  | .error _ => s

/-- The directory after the switch: a queued commit takes its place (R198), once a launch held before the switch has started; or the
device's own commit that waited for it (R249). -/
def nextDir (gen : Nat) (launches : Bool) (d : DirSt) : DirSt :=
  let d' := { d with gen := gen, g1 := d.g2, g2 := GenSt.empty, pend := d.queued, queued := false, pkt1 := d.pkt2, pkt2 := none,
                     first := d.queued && launches }
  if d.auto && !d'.pend then commitGen d' none else d'

/-- The switch of one partition: G + 1 becomes current (R197). -/
def switchGen (p : Nat) (s : State) : State :=
  match (pget s p).dir with
  | none => s
  | some d =>
    let par := (d.gen + 1) % 2
    let s := engRun (engEach (fun e =>
      dWr (e.1 / 2 ^ 20) (offSeq d + 4 * (e.1 % 2 ^ 20) + 2 * (1 - par)) 2 e.2) d.g1.ptrs) s
    let s := engRun (engEach (fun b => freeBlk d (b / 65536) (b % 65536)) d.g1.old) s
    let s := d.g1.drops.foldl (fun s x => applyDrop p d x s) s
    let s := engRun (engEach (fun e =>
      engEach (fun k => do
        let w ← dRd k (offHead d + 8 * e.1) 8
        dWr k (offHead d + 8 * e.1) 8 (putFld (putFld w 19 16 ((e.2 - 1) % 16)) 20 20 ((e.2 - 1) / 16)))
        (partClus s p)) d.g1.heads) s
    let s := engRun (engEach (fun e =>
      dWr (e.1 / 2 ^ 20) (offSeq d + 4 * (e.1 % 2 ^ 20) + 2 * (1 - par)) 2 e.2) d.g2.ptrs) s
    let gen := (d.gen + 1) % 2 ^ 32
    let s := pupd p (fun q => { q with
      dir := (q.dir).map (nextDir gen (!(q.launches ++ q.held).isEmpty))
      launches := q.launches ++ q.held, held := q.held2, held2 := [] }) s
    let s := kvAll p 0x108 (fun _ => BitVec.ofNat 32 gen) s
    match d.pkt1 with
    | some id => complete id 0 gen 0 s
    | none => s

/-- Whether nothing but a running step or a pending switch keeps a queued launch of a partition from starting. -/
def mayStart (s : State) (p : Nat) : Bool := !s.fatal && !nsHas s.d3 0 && !nsHas s.d3 (p + 1)

/-- The switch comes when a COMMIT waits and no walker of the generation is left, nor a launch that it let in last and that can start
now. -/
def switchDue (s : State) (p : Nat) : Bool :=
  match (pget s p).dir with
  | some d => d.pend && (pget s p).step.isNone && !(d.first && !(pget s p).launches.isEmpty && mayStart s p)
  | none => false

/-! ## SET_POLICY and SEQ_QUERY (R205, R317) -/

def execSetPolicy (w : Fin 128) (s : State) : Res :=
  runCmd w 0x0309 (edResv 0 0x3FFFFFFF) (fun k s =>
    let p := hPart k.bytes
    let v := payAt k.bytes 8 8
    let low := fld v 13 0
    let q := pget s p
    if q.dir.isNone then complete k.id 0x0304 0 0 s
    else if fld v 29 28 = 3 then complete k.id 0x0102 0 0 s
    else if fld v 29 28 = 2 && !q.glz.area then complete k.id 0x0304 0 0 s
    else
      complete k.id 0 0 0 (kvAll p 0x118 (fun _ =>
        BitVec.ofNat 32 (low + max (fld v 27 14) low * 2 ^ 14 + fld v 29 28 * 2 ^ 30)) s)) s

/-- The current-generation descriptor of a sequence, read in the first shard. -/
def curDesc (p q : Nat) : Eng (Option (Nat × Desc)) := do
  let d ← theDir p
  let s ← get
  match seqIdx d q, partClus s p with
  | some i, k :: _ => do
    let b ← curPtr d k i
    if b = 0 then pure none
    else do
      let c ← readDesc k b
      pure (some (i, c))
  | _, _ => pure none

def execSeqQuery (w : Fin 128) (s : State) : Res :=
  runCmd w 0x030B (edResv 0xFFFFF 0) (fun k s =>
    match (curDesc (hPart k.bytes) (fld (payAt k.bytes 0 8) 19 0)).run s with
    | .error st => complete k.id st 0 0 s
    | .ok (none, s') => complete k.id 0x0304 0 0 s'
    | .ok (some (_, v), s') =>
      complete k.id 0 (v.state + v.prio * 2 ^ 4 + v.fault * 2 ^ 8 + v.ctx * 2 ^ 32) 0 s') s

end Sys2Proof.Machine
end

