-- ==== Sys2Proof/Machine/Swap.lean ====
section
/-! DEFINITION. Tier-2 pools, the host swap area, the glaze, page moves, preemption and swap-in (R205 to R209, R244 to
R259). -/

namespace Sys2Proof.Machine

/-! ## Tier-2 slots (R245 to R247) -/

/-- The lowest slot from `i` in steps of 4 that satisfies a test, below `stop`. -/
def lowSlot (ok : Nat → Bool) (stop : Nat) : Nat → Nat → Option Nat
  | 0, _ => none
  | n + 1, i => if stop ≤ i then none else if ok i then some i else lowSlot ok stop n (i + 4)

/-- The lowest free slot, or pair of slots, of a pool in a hub. -/
def hubSlot (q : Pool) (h : Nat) (pair : Bool) : Option Nat :=
  let stop := q.slot0 + q.nslot
  let free (i : Nat) : Bool := decide (q.slot0 ≤ i) && decide (i < stop) && !nsHas q.used i
  lowSlot (fun i => free i && (!pair || (i / 4 % 2 == 0 && free (i + 4)))) stop (q.nslot / 4 + 1)
    (q.slot0 / 4 * 4 + h)

/-- Allocates a slot, or pair, for a shard: the hubs in rotation, absent and full ones skipped (R246). -/
def allocT2 (p k : Nat) (pair : Bool) : Eng (Option Nat) := do
  let d ← theDir p
  let s ← get
  let q := poolGet s p
  let r := stGet (fun _ => 0) d.t2rot k
  match (List.range 4).findSome? (fun i =>
      let h := (r + i) % 4
      if quarterAbsent s h then none else (hubSlot q h pair).map (fun x => (h, x))) with
  | none => pure none
  | some (h, x) => do
    updDir p (fun d => { d with t2rot := stSet (fun _ => 0) d.t2rot k ((h + 1) % 4) })
    modify (poolSet p (poolMark { q with used := (pageSlots x pair).foldl nsAdd q.used }))
    pure (some x)

/-- Free pool slots over all four quarters. -/
def t2Free (s : State) (p : Nat) : Nat := (poolGet s p).nslot - (poolGet s p).used.length

/-- Whether a partition is below its tier-2 low-water mark (R247). -/
def t2Low (s : State) (p : Nat) : Bool := decide (t2Free s p < (poolGet s p).low * 1024)

/-- The tag-table offset of a slot. -/
def tagOff (q : Pool) (slot : Nat) : Nat := q.tagBase + 16 * (slot - q.slot0)

/-- A tag-table entry (Table CAP.5). -/
def tagBytes (ftag crc : Nat) : List Byte := leBytes 8 ftag ++ leBytes 4 crc ++ [1, 0, 0, 0]

/-- Writes an image and its tag-table entry into a slot. -/
def t2Put (p slot ftag : Nat) (img : List Byte) (s : State) : State :=
  t2Store (tagOff (poolGet s p) slot) (tagBytes ftag (crc32c img)) (fwTx 14 0 none)
    (t2Store (0x4000 * slot) img (fwTx 14 0 none) s)

/-- Counts an authentication failure or a stale page (Table CAP.11). -/
def glzFail (p : Nat) (auth : Bool) (s : State) : State :=
  rupd (glzKey p 12) (fun w => if auth then wSatAdd w 31 16 1 else wSatAdd w 15 0 1) s

/-- Reads a slot under the checks of R244 and R258: the image and the frame tag, or the status that refuses it. -/
def t2Get (p slot version : Nat) (s : State) : Except Nat (List Byte × Nat) × State :=
  let q := poolGet s p
  let (tag, s) := t2Load (tagOff q slot) 16 (fwTx 14 0 none) s
  let (img, s) := t2Load (0x4000 * slot) 0x4000 (fwTx 14 0 none) s
  if quarterAbsent s (t2Hub (0x4000 * slot)) then (.error 0x0503, s)
  else
    match tag, img with
    | some tag, some img =>
      if leAt tag 12 1 % 2 = 0 || leAt tag 0 1 ≠ version then (.error 0x0306, glzFail p false s)
      else if leAt tag 8 4 ≠ crc32c img then
        let h := t2Hub (0x4000 * slot)
        let s := rupd (hubBase h + 0x10004) (fun w => wSatAdd w 15 8 1) s
        (.error 0x0503, logErr { hub := h, code := 0x0122, part := some p, source := srcIndex 1 h, engine := 14, logical := 0,
                                 addr := 2 ^ 44 + 0x4000 * slot, detail := slot } s)
      else (.ok (img, leAt tag 0 8), s)
    | _, _ => (.error 0x0503, s)

/-! ## Tier-2 pool commands (R245, R316) -/

/-- Whether two ranges of tier-2 bytes meet. -/
def rangesMeet (a n b m : Nat) : Bool := n != 0 && m != 0 && decide (a < b + m) && decide (b < a + n)

/-- The pool and the tag table of a pool, as byte ranges. -/
def poolRanges (q : Pool) : List (Nat × Nat) := [(q.slot0 * 0x4000, q.nslot * 0x4000), (q.tagBase, 16 * q.nslot)]

/-- The status that refuses a pool, or 0. -/
def poolStatus (s : State) (p : Nat) (q : Pool) : Nat :=
  let rs := poolRanges q
  if q.slot0 % 4 ≠ 0 || q.nslot % 4 ≠ 0 then 0x0107
  else if q.tagBase % 4096 ≠ 0 then 0x0106
  else if rs.any (fun r => r.2 != 0 && !inWindows s p r.1 r.2) then 0x0401
  else if rs.any (fun r => s.pools.any (fun e => e.2.nslot != 0 && (poolRanges e.2).any (fun t => rangesMeet r.1 r.2 t.1 t.2)))
  then 0x0204
  else if rangesMeet (q.slot0 * 0x4000) (q.nslot * 0x4000) q.tagBase (16 * q.nslot) then 0x0204
  else 0

def execT2poolRegister (w : Fin 128) (s : State) : Res :=
  runCmd w 0x0208 (fun b => payNZ b 20 4 || payAt b 0 4 / 2 ^ 30 != 0 || payAt b 4 4 / 2 ^ 30 != 0) (fun k s =>
    let b := k.bytes
    let p := hPart b
    let old := poolGet s p
    let low := payAt b 16 2
    let q : Pool := poolMark { slot0 := payAt b 0 4, nslot := payAt b 4 4, tagBase := payAt b 8 8, low := low,
                               high := max (payAt b 18 2) low, used := [], spill := false }
    if old.nslot ≠ 0 then
      if old.slot0 = q.slot0 && old.nslot = q.nslot && old.tagBase = q.tagBase then
        complete k.id 0 0 0 (poolSet p (poolMark { old with low := q.low, high := q.high }) s)
      else complete k.id 0x0304 0 0 s
    else
      let st := poolStatus s p q
      if st ≠ 0 then complete k.id st 0 0 s
      else complete k.id 0 0 0 { poolSet p q s with
        t2 := memZero s.t2 q.tagBase (16 * q.nslot), t2poison := nsDrop s.t2poison (q.tagBase / 64) (q.nslot / 4) }) s

def execT2poolWithdraw (w : Fin 128) (s : State) : Res :=
  runCmd w 0x0209 noResv (fun k s =>
    let p := hPart k.bytes
    let q := poolGet s p
    if q.nslot = 0 || !q.used.isEmpty then complete k.id 0x0304 0 0 s
    else complete k.id 0 0 0 (poolSet p Pool.reset s)) s

/-! ## Host swap area (R252, R316) -/

def execSwapRegister (w : Fin 128) (s : State) : Res :=
  runCmd w 0x020A (fun b => payNZ b 20 4) (fun k s =>
    let b := k.bytes
    let p := hPart b
    if (pget s p).glz.area then complete k.id 0x0304 0 0 s
    else if payAt b 0 8 % 65536 ≠ 0 || payAt b 8 8 % 4096 ≠ 0 then complete k.id 0x0106 0 0 s
    else
      let on (g : GlzSt) : GlzSt :=
        { g with area := true, dataBase := payAt b 0 8, metaBase := payAt b 8 8, nhs := payAt b 16 4, used := [] }
      complete k.id 0 0 0 (rupd (glzKey p 0) (fun v => wPut v 31 31 1) (pupd p (fun q => { q with glz := on q.glz }) s))) s

/-- KVD_POLICY.MODE of a partition, as its first cluster holds it. -/
def kvMode (s : State) (p : Nat) : Nat := wFld (cluReg s (listAt (partClus s p) 0 0) 0x118) 31 30
def kvLow (s : State) (p : Nat) : Nat := wFld (cluReg s (listAt (partClus s p) 0 0) 0x118) 13 0 * 16
def kvHigh (s : State) (p : Nat) : Nat := wFld (cluReg s (listAt (partClus s p) 0 0) 0x118) 27 14 * 16

def execSwapWithdraw (w : Fin 128) (s : State) : Res :=
  runCmd w 0x020B noResv (fun k s =>
    let p := hPart k.bytes
    let cnt (o : Nat) : Nat := wFld (rget s (glzKey p o)) 29 0
    if !(pget s p).glz.area || cnt 4 ≠ 0 || cnt 8 ≠ 0 || kvMode s p = 2 then complete k.id 0x0304 0 0 s
    else complete k.id 0 0 0 (rupd (glzKey p 0) (fun v => wPut v 31 31 0)
      (pupd p (fun q => { q with glz := { q.glz with area := false, dataBase := 0, metaBase := 0, nhs := 0 } }) s))) s

/-! ## The glaze (R253 to R258) -/

/-- The current epoch of a partition. -/
def glzEpoch (s : State) (p : Nat) : Nat := wFld (rget s (glzKey p 0)) 25 24

/-- The key of an epoch's slot, if one is loaded. -/
def glzKeyOf (g : GlzSt) (epoch : Nat) : Option Nat := if epoch % 2 = 0 then g.key0 else g.key1

/-- What a glaze record says of its page. -/
structure GlzPage where
  epoch : Nat
  tag : Nat
  tokens : Nat
  version : Nat
  part : Nat
  lh : Nat
  seq : Nat
  slot : Nat
  blk : Nat
  ks : Nat
  vs : Nat
  deriving DecidableEq, Repr

/-- Bytes 0 to 31 of the record (Table CAP.6). -/
def glzAad (g : GlzPage) : List Byte :=
  leBytes 4 0x474C5A31 ++ [1, BitVec.ofNat 8 g.epoch, BitVec.ofNat 8 g.tag, BitVec.ofNat 8 g.tokens,
    BitVec.ofNat 8 g.version, BitVec.ofNat 8 g.part] ++ leBytes 2 g.lh ++ leBytes 4 g.seq ++ leBytes 4 g.slot ++
    leBytes 2 g.blk ++ leBytes 2 0 ++ leBytes 2 g.ks ++ leBytes 2 g.vs ++ leBytes 4 0

/-- Seals an image under the current key into a host slot: the image, then its record, in posted writes. -/
def glzSealPut (p : Nat) (g : GlzPage) (img : List Byte) (s : State) : State :=
  let q := pget s p
  let z := q.glz
  match glzKeyOf z g.epoch with
  | none => s
  | some key =>
    let iv := if g.epoch % 2 = 0 then z.ctr0 else z.ctr1
    let out := Config.glazeSeal key iv (glzAad g) img
    let z' := if g.epoch % 2 = 0 then { z with ctr0 := iv + 1 } else { z with ctr1 := iv + 1 }
    let record := glzAad g ++ leBytes 8 iv ++ leBytes 8 0 ++ fitBytes 16 (out.drop 0x4000)
    tallyHub 0 0x0511 1 none <| hostPut (p + 1) (z.metaBase + 64 * g.slot) record
      (hostPut (p + 1) (z.dataBase + 0x4000 * g.slot) (fitBytes 0x4000 out) (pset p { q with glz := z' } s))

/-- Opens an image under the checks of R257 and R258, against the entry that names it: the image and its scales, or the
status that refuses it. The checks see the fields; a reserved bit of the record counts in its authentication. -/
def glzOpenPage (p : Nat) (want : GlzPage) (record img : List Byte) (s : State) :
    Except Nat (List Byte × Nat × Nat) × State :=
  let g : GlzPage :=
    { epoch := leAt record 5 1 % 4, tag := leAt record 6 1 % 16, tokens := leAt record 7 1 % 128, version := leAt record 8 1,
      part := leAt record 9 1 % 64, lh := leAt record 10 2 % 4096, seq := leAt record 12 4 % 2 ^ 20, slot := leAt record 16 4 % 2 ^ 30,
      blk := leAt record 20 2, ks := leAt record 24 2, vs := leAt record 26 2 }
  let e := glzEpoch s p
  if leAt record 0 4 ≠ 0x474C5A31 || leAt record 4 1 ≠ 1 || g.slot ≠ want.slot || g.part ≠ want.part || g.seq ≠ want.seq ||
      g.lh ≠ want.lh || g.blk ≠ want.blk || g.epoch ≠ want.epoch then (.error 0x0306, glzFail p false s)
  else if g.epoch ≠ e && g.epoch ≠ (e + 3) % 4 then (.error 0x0406, s)
  else
    match (glzKeyOf (pget s p).glz g.epoch).bind (fun key =>
        Config.glazeOpen key (leAt record 32 12) (record.take 32) (img ++ (record.drop 48).take 16)) with
    | none => (.error 0x0405, glzFail p true s)
    | some d =>
      let s := tallyHub 0 0x0512 1 none s
      if g.version ≠ want.version || g.tokens ≠ want.tokens then (.error 0x0306, glzFail p false s)
      else (.ok (fitBytes 0x4000 d, g.ks, g.vs), s)

/-- What the record of an image of an entry must say. -/
def wantPage (p seq lh blk half e : Nat) : GlzPage :=
  { epoch := pteEpoch e, tag := pteTag e, tokens := pteTokens e, version := pteVersion e, part := p, lh := lh, seq := seq,
    slot := fld (ptePage e) 29 0 + half, blk := blk, ks := 0, vs := 0 }

/-! ## Frames and images -/

/-- Reads the 256 blocks of a frame as one image; none where a block delivers poison. -/
def readImage (col f : Nat) (s : State) : Option (List Byte) × State :=
  let r := (List.range 256).foldl (fun (r : List (Option (List Byte)) × State) i =>
    let (d, s) := t1ReadBlk (col / 2) (rowOff col (16 * f) + 64 * i) r.2
    (d :: r.1, s)) ([], s)
  let s := rowMeet col 16 false (fwTx 14 0 none) r.2
  (if r.1.all Option.isSome then some (r.1.reverse.map (fun b => b.getD [])).flatten else none, s)

/-- Writes an image into a frame with its frame tag. -/
def writeImage (col f version ks vs : Nat) (img : List Byte) (s : State) : State :=
  let s := iter 256 (fun i s => t1WriteBlk (col / 2) (rowOff col (16 * f) + 64 * i) ((img.drop (64 * i)).take 64) s) s
  rowMeet col 16 true (fwTx 14 0 none)
    (ftSet col f (BitVec.ofNat 64 (version + ks * 2 ^ 16 + vs * 2 ^ 32)) s)

/-! ## Preemption (R205 to R207) -/

/-- The sequences of the current generation that the generation under construction still holds: index and descriptor. -/
def liveSeqs (p : Nat) : Eng (List (Nat × Desc)) := do
  let x ← editCtx p
  let k := listAt x.ks 0 0
  let l ← engMap (fun i => do
    let a ← curPtr x.d k i
    let b ← bldPtr x.d k i
    if a = 0 || b = 0 then pure none
    else do
      let v ← readDesc k a
      pure (some (i, v))) (List.range x.d.maxSeq)
  pure (l.filterMap (fun v => v))

/-- Whether a sequence is taken before another (R206). -/
def victimLt (a b : Desc) : Bool :=
  if a.prio ≠ b.prio then decide (a.prio < b.prio)
  else if a.last ≠ b.last then decide (a.last < b.last)
  else decide (b.seq < a.seq)

/-- The first of a list of sequences in victim order. -/
def firstVictim (l : List (Nat × Desc)) : Option (Nat × Desc) :=
  l.foldl (fun acc v => match acc with
    | none => some v
    | some u => if victimLt v.2 u.2 then some v else some u) none

/-- The free frames of every shard satisfy a bound. -/
def freeAll (s : State) (p n : Nat) : Bool := (partClus s p).all (fun k => decide (n ≤ wFld (cluReg s k 0x110) 18 0))

/-- Chooses the next victim (R205, R206). `held` lists the sequences in the length tables of held launches. -/
def preemptVictim (p : Nat) (held : List Nat) (s : State) : State :=
  let q := pget s p
  let go := kvMode s p != 0 && q.dir.isSome && (q.preempt || !freeAll s p (kvLow s p))
  if !go then (if q.stuck then pupd p (fun q => { q with stuck := false }) s else s)
  else if freeAll s p (kvHigh s p) then pupd p (fun q => { q with preempt := false, stuck := false }) s
  else
    match (liveSeqs p).run s with
    | .error _ => s
    | .ok (l, s) =>
      if l.any (fun v => v.2.state == 3) then s
      else
        match firstVictim (l.filter (fun v => v.2.state == 0 && decide (v.2.prio < 3) && !held.contains v.2.seq)) with
        | none => pupd p (fun q => { q with preempt := false }) s
        | some (i, _) =>
          let s := pupd p (fun q => { q with preempt := true, stuck := false }) s
          let s := kvAll p 0x11C (fun w => wSatAdd w 19 0 1) s
          let s := engRun (descAll p i (fun v => { v with state := 3 })) s
          engRun (do
            let x ← editCtx p
            if x.d.queued then pure () else endVictim p i x) s

def execPreemptVictim (p : Fin 64) (held : List (Fin 1048576)) (s : State) : Res :=
  .next (preemptVictim p (held.map Fin.val) s)

/-! ## Page moves (R207, R248) -/

/-- The lowest free host slot, or even pair. -/
def hostSlot (g : GlzSt) (pair : Bool) : Option Nat :=
  let free (i : Nat) : Bool := decide (i < g.nhs) && !nsHas g.used i
  (List.range g.nhs).find? (fun i => free i && (!pair || (i % 2 == 0 && free (i + 1))))

/-- Seals the images of a page into host slots and answers the page ID. -/
def moveHost (p seq lh blk e : Nat) (imgs : List (List Byte × Nat)) : Eng (Option Nat) := do
  let s ← get
  let z := (pget s p).glz
  if !z.area || kvMode s p ≠ 2 then pure none
  else
    match hostSlot z (ptePair e) with
    | none => pure none
    | some i => do
      let ep := glzEpoch s p
      modify (pupd p (fun q => { q with glz := { q.glz with used := (hostSlots i (ptePair e)).foldl nsAdd q.glz.used } }))
      modify (fun s => imgs.zipIdx.foldl (fun s m =>
        glzSealPut p { wantPage p seq lh blk m.2 e with
          epoch := ep, slot := i + m.2, ks := fld m.1.2 31 16, vs := fld m.1.2 47 32 } m.1.1 s) s)
      modify (fun s => tallyHub 0 0x0510 1 none (glzCount p ep 1 s))
      pure (some (2 ^ 31 + i))

/-- Writes the images of a page into tier-2 slots and answers the page ID. -/
def moveT2 (p k : Nat) (e : Nat) (imgs : List (List Byte × Nat)) : Eng (Option Nat) := do
  let s ← get
  if t2Low s p then pure none
  else do
    let r ← allocT2 p k (ptePair e)
    match r with
    | none => pure none
    | some i => do
      modify (fun s => tallyHub (i % 4) 0x0510 1 none
        (imgs.zipIdx.foldl (fun s m => t2Put p (i + 4 * m.2) m.1.2 m.1.1 s) s))
      pure (some (2 ^ 30 + i))

/-- The images of a tier-1 page with their frame tags; none where a block delivers poison. -/
def t1Images (e : Nat) : Eng (Option (List (List Byte × Nat))) := do
  let s ← get
  match pageCol s (ptePage e) with
  | none => pure none
  | some (col, f) => do
    let l ← engMap (fun h => do
      let s ← get
      let t := (ftGet s col (f + h)).toNat
      let (d, s) := readImage col (f + h) s
      set s
      pure (d.map (fun b => (b, t)))) (List.range (if ptePair e then 2 else 1))
    pure (if l.all Option.isSome then some (l.filterMap (fun v => v)) else none)

/-- The images of a tier-2 page, or the status that refuses one. -/
def t2Images (p e : Nat) : Eng (Except Nat (List (List Byte × Nat))) := do
  let l ← engMap (fun i => do
    let s ← get
    let (r, s) := t2Get p i (pteVersion e) s
    set s
    pure r) (pageSlots (ptePage e) (ptePair e))
  pure (l.foldr (fun r acc => match r, acc with
    | .ok v, .ok vs => .ok (v :: vs)
    | .error st, _ => .error st
    | .ok _, .error st => .error st) (.ok []))

/-- Preemption stops for want of a destination (R207); what has moved is committed (R249). -/
def moveStuck (p : Nat) : Eng Unit := do
  modify (pupd p (fun w => { w with stuck := true, preempt := false }))
  autoCommit p

/-- Points an entry at the page's new place. -/
def moveEntry (p i : Nat) (x : EditCtx) (lh blk e version pg : Nat) : Eng Unit := do
  let s ← get
  dropEntry p (shardOf x lh blk).1 e
  setBld p i x lh blk (mkPte false (if pg < 2 ^ 31 then 0 else glzEpoch s p) (pteTag e) (pteTokens e) version pg)
  modify (pupd p (fun w => { w with stuck := false }))

/-- A private tier-1 page of a victim moves out (R248), to tier 2 or to the host. -/
def moveVictim (p q i : Nat) (x : EditCtx) (lh blk e : Nat) : Eng Unit := do
  let s ← get
  let e1 := pteFresh s e
  let im ← t1Images e
  match im with
  | none => losePage p i x lh blk
  | some imgs => do
    let a ← moveT2 p (shardOf x lh blk).1 e imgs
    let b ← match a with
      | some v => pure (some v)
      | none => moveHost p q lh blk e1 imgs
    match b with
    | none => moveStuck p
    | some pg => moveEntry p i x lh blk e (pteVersion e1) pg

/-- A tier-2 page of a preempted sequence moves on to the host. One that its tag table refuses as stale stays. -/
def moveOn (p q i : Nat) (x : EditCtx) (lh blk e : Nat) : Eng Unit := do
  let im ← t2Images p e
  match im with
  | .error st => if st = 0x0306 then pure () else losePage p i x lh blk
  | .ok imgs => do
    let b ← moveHost p q lh blk e imgs
    match b with
    | none => moveStuck p
    | some pg => moveEntry p i x lh blk e (pteVersion e) pg
  let left ← entriesWith p i x inT2
  if left.isEmpty then autoCommit p else pure ()

/-- Moves one page of a sequence out (R248): a private tier-1 page of a victim, or, from the tier-2 low-water mark to the
high-water mark with MODE 2 (R207), a tier-2 page of the first preempted sequence in victim order. A page that cannot be
read is lost, but one in an absent quarter stays (R239). DESIGN CHOICE (log entry 35). -/
def movePage (p q lh blk : Nat) : Eng Unit := do
  let x ← editCtx p
  if x.d.queued then engFail 0
  let (i, v) ← needSeq p x q
  let e ← getBld p i x lh blk
  let s ← get
  if v.state = 3 then do
    if privT1 e then moveVictim p q i x lh blk e
    endVictim p i x
  else if v.state = 4 && inT2 e && (poolGet s p).spill && kvMode s p == 2 &&
      !quarterAbsent s (t2Hub (0x4000 * fld (ptePage e) 29 0)) then do
    let l ← liveSeqs p
    let holders ← engMap (fun c => do
      if c.2.state ≠ 4 then pure none
      else do
        let h ← entriesWith p c.1 x inT2
        pure (if h.isEmpty then none else some c)) l
    match firstVictim (holders.filterMap (fun c => c)) with
    | some (j, _) => if j = i then moveOn p q i x lh blk e else pure ()
    | none => pure ()
  else pure ()

def execPageMoveOut (p : Fin 64) (q : Fin 1048576) (lh : Fin 4096) (blk : Fin 65536) (s : State) : Res :=
  .next (engRun (movePage p q lh blk) s)

/-! ## Swap-in (R250, R251) -/

/-- The key by which a read of host memory names its image. -/
def jobKey (lh blk half : Nat) : Nat := (lh * 65536 + blk) * 2 + half

def swapKey (j : SwapJob) : Nat := jobKey j.lh j.blk j.half

/-- The frames a page takes. -/
def pageFrames (e : Nat) : Nat := if ptePair e then 2 else 1

/-- The column and frame of one image of a swap-in. -/
def jobFrame (s : State) (j : SwapJob) : Option (Nat × Nat) := (pageCol s j.frame).map (fun v => (v.1, v.2 + j.half))

/-- Changes an image of the running swap-in. -/
def jobSet (p key : Nat) (f : SwapJob → SwapJob) (s : State) : State :=
  pupd p (fun q => { q with swap := q.swap.map (fun w =>
    { w with jobs := w.jobs.map (fun j => if swapKey j == key then f j else j) }) }) s

/-- Records the first failure of a swap-in. -/
def swapFail (p st lh blk : Nat) (s : State) : State :=
  pupd p (fun q => { q with swap := q.swap.map (fun w =>
    { w with fail := w.fail.orElse (fun _ => some (st, lh, blk)) }) }) s

/-- An image has arrived: it goes into its frame, or its failure is noted. -/
def jobDone (p : Nat) (j : SwapJob) (r : Except Nat (List Byte × Nat × Nat)) (s : State) : State :=
  match r with
  | .error st => swapFail p st j.lh j.blk s
  | .ok (img, ks, vs) =>
    match jobFrame s j with
    | none => swapFail p 0x0503 j.lh j.blk s
    | some (col, f) => jobSet p (swapKey j) (fun j => { j with done := true }) (writeImage col f (pteVersion j.entry) ks vs img s)

/-- Starts an image: one from tier 2 is copied at once, one from the host is read with four requests and one for its
record. -/
def jobStart (p : Nat) (j : SwapJob) (s : State) : State :=
  if pteTier j.entry = 1 then
    let (r, s) := t2Get p (fld (ptePage j.entry) 29 0 + 4 * j.half) (pteVersion j.entry) s
    jobDone p j (match r with
      | .error st => .error st
      | .ok (img, t) => .ok (img, fld t 31 16, fld t 47 32)) s
  else
    let g := (pget s p).glz
    let slot := fld (ptePage j.entry) 29 0 + j.half
    iter 4 (fun i s => hostRead (p + 1) (g.dataBase + 0x4000 * slot + 4096 * i) 4096 (.swapImg p (swapKey j) (4096 * i)) s)
      (hostRead (p + 1) (g.metaBase + 64 * slot) 64 (.swapRec p (swapKey j)) s)

/-- Takes back a frame of a swap-in that failed: it goes to zeroing. -/
def jobUndo (d : DirSt) (j : SwapJob) (s : State) : State :=
  if j.half ≠ 0 then s
  else
    match pageCol s j.frame with
    | none => s
    | some (col, f) =>
      queueZero j.clu col f (ptePair j.entry)
        (engRun (dWr j.clu (refOff d (frameIdx d (pagePos j.frame) f)) 4 0) s)

/-- Points the entries of a finished swap-in, as they stand (R251), at the new frames; the sequence becomes ready at the switch. -/
def swapApply (p : Nat) (w : SwapSt) : Eng Unit := do
  let x ← editCtx p
  let (i, _) ← needSeq p x w.seq
  engEach (fun j => do
    if j.half ≠ 0 then pure ()
    else do
      let e ← getBld p i x j.lh j.blk
      dropEntry p j.clu e
      setBld p i x j.lh j.blk (mkPte false 0 (pteTag e) (pteTokens e) (pteVersion e) j.frame)) w.jobs
  engEach (editDesc p i (fun v => { v with state := 0 })) x.ks
  autoCommit p

/-- Ends a swap-in once it has failed, or once every image is in: all or nothing (R250). While a COMMIT is queued the
internal edits of its success wait for the switch. -/
def swapFinish (p : Nat) (s : State) : State :=
  let q := pget s p
  match q.swap, q.dir with
  | some w, some d =>
    match w.fail with
    | some (st, lh, blk) =>
      let s := w.jobs.foldl (fun s j => jobUndo d j s) s
      let s := match seqIdx d w.seq with
        | some i => engRun (descAll p i (fun v => if v.state = 5 then { v with state := 4 } else v)) s
        | none => s
      let s := if st = 0x0503 then engRun (do
        let x ← editCtx p
        let (i, _) ← needSeq p x w.seq
        losePage p i x lh blk
        autoCommit p) s else s
      complete w.pkt st blk lh (pupd p (fun q => { q with swap := none }) s)
    | none =>
      if w.jobs.all (fun j => j.done) && !d.queued then
        let s := engRun (swapApply p w) s
        complete w.pkt 0 (w.jobs.filter (fun j => j.half == 0)).length 0 (pupd p (fun q => { q with swap := none }) s)
      else s
  | _, _ => s

/-- Admits a swap-in: the checks of R250 and R239, STATE 5, and a frame for every page outside tier 1. Pages lost (tier 3)
stay so. DEDUCED (log entry 36). -/
def swapAdmit (p pkt q : Nat) : Eng Unit := do
  let x ← editCtx p
  let (i, v) ← needSeq p x q
  if v.state ≠ 4 then engFail 0x0304
  let l ← entriesWith p i x (fun e => pteValid e && (pteTier e == 1 || pteTier e == 2))
  let es ← engMap (fun a => do
    let e ← getBld p i x a.1 a.2
    pure (a.1, a.2, (shardOf x a.1 a.2).1, e)) l
  let s ← get
  if x.ks.any (fun k =>
      let need := sumNat ((es.filter (fun a => a.2.2.1 == k)).map (fun a => pageFrames a.2.2.2))
      decide (wFld (cluReg s k 0x110) 18 0 < need + kvLow s p)) then engFail 0x0204
  if es.any (fun a => pteTier a.2.2.2 == 1 && quarterAbsent s (t2Hub (0x4000 * fld (ptePage a.2.2.2) 29 0))) then engFail 0x0503
  let js ← engMap (fun a => do
    let (col, f) ← allocFrame p a.2.2.1 (ptePair a.2.2.2)
    let s ← get
    pure ((List.range (pageFrames a.2.2.2)).map (fun h =>
      SwapJob.mk a.2.2.1 a.1 a.2.1 a.2.2.2 (colPageId s col f) h [] [] false))) es
  descAll p i (fun v => { v with state := 5 })
  modify (pupd p (fun w => { w with swap := some { pkt := pkt, seq := q, jobs := js.flatten, fail := none } }))

/-- Starts the images of a swap-in one after the other; after a failure no further one starts. -/
def jobsStart (p : Nat) : List SwapJob → State → State
  | [], s => s
  | j :: r, s =>
    match (pget s p).swap with
    | some w => if w.fail.isSome then s else jobsStart p r (jobStart p j s)
    | none => s

/-- SWAP_IN. While another swap-in of the partition runs, or a page that it needs is under re-key (R256), it waits. -/
def execSwapIn (w : Fin 128) (s : State) : Res :=
  match startable s w 0x030A with
  | none => .next s
  | some k =>
    if (pget s (hPart k.bytes)).swap.isSome ||
        (pget s (hPart k.bytes)).rekey.any (fun r => r.seq == fld (payAt k.bytes 0 8) 19 0) then .next s
    else
      runCmd w 0x030A (edResv 0xFFFFF 0) (fun k s =>
        let p := hPart k.bytes
        match (swapAdmit p k.id (fld (payAt k.bytes 0 8) 19 0)).run s with
        | .error st => complete k.id st 0 0 s
        | .ok (_, s) =>
          match (pget s p).swap with
          | some v => swapFinish p (jobsStart p v.jobs (dropReads (fun u => match u with
            | .swapImg i _ _ => i == p
            | .swapRec i _ => i == p
            | _ => false) s))
          | none => s) s

/-! ## Re-key (R255, R256) -/

/-- KEY_ROTATE: refused while the previous epoch holds pages. -/
def execKeyRotate (w : Fin 128) (s : State) : Res :=
  runCmd w 0x0701 noResv (fun k s =>
    let p := hPart k.bytes
    if wFld (rget s (glzKey p 8)) 29 0 ≠ 0 then complete k.id 0x0404 0 0 s
    else
      let e := (glzEpoch s p + 1) % 4
      let (key, s) := takeFree s
      let load (g : GlzSt) : GlzSt :=
        if e % 2 = 0 then { g with key0 := some key, ctr0 := 0, sweep := true }
        else { g with key1 := some key, ctr1 := 0, sweep := true }
      let s := pupd p (fun q => { q with glz := load q.glz }) s
      let cur := wFld (rget s (glzKey p 4)) 29 0
      let s := rset (glzKey p 8) (BitVec.ofNat 32 cur) (rset (glzKey p 4) 0 s)
      let s := rupd (glzKey p 0) (fun v => wSatAdd (wPut (wPut v 25 24 e) 30 30 1) 15 0 1) s
      complete k.id 0 e 0 s) s

/-- Issues the reads of one image under re-key. -/
def rekeyReads (p slot : Nat) (s : State) : State :=
  let g := (pget s p).glz
  iter 4 (fun i s => hostRead (p + 1) (g.dataBase + 0x4000 * slot + 4096 * i) 4096 (.rekeyImg p (4096 * i)) s)
    (hostRead (p + 1) (g.metaBase + 64 * slot) 64 (.rekeyRec p) (dropReads (fun u => match u with
      | .rekeyImg i _ => i == p
      | .rekeyRec i => i == p
      | _ => false) s))

/-- A sweep step takes one host page of the previous epoch, unless its sequence is moving in; with none left the sweep
ends. -/
def rekeyStart (p q lh blk : Nat) (s : State) : State :=
  let u := pget s p
  if !u.glz.sweep || u.rekey.isSome then s
  else if wFld (rget s (glzKey p 8)) 29 0 = 0 then
    rupd (glzKey p 0) (fun v => wPut v 30 30 0) (pupd p (fun u => { u with glz := { u.glz with sweep := false } }) s)
  else
    match (do
      let x ← editCtx p
      let (i, v) ← needSeq p x q
      let e ← getBld p i x lh blk
      pure (v, e) : Eng (Desc × Nat)).run s with
    | .error _ => s
    | .ok ((v, e), s) =>
      if pteValid e && pteTier e == 2 && pteEpoch e == (glzEpoch s p + 3) % 4 && v.state != 5 then
        let r : RekeySt := { seq := q, lh := lh, blk := blk, half := 0, entry := e, record := [], image := [] }
        rekeyReads p (fld (ptePage e) 29 0) (pupd p (fun u => { u with rekey := some r }) s)
      else s

def execRekeySweep (p : Fin 64) (q : Fin 1048576) (lh : Fin 4096) (blk : Fin 65536) (s : State) : Res :=
  .next (rekeyStart p q lh blk s)

/-- Whether the entry of a page under re-key still names it: RELEASE and TRUNCATE may have dropped it (R256). -/
def rekeyKept (p : Nat) (r : RekeySt) (s : State) : Bool :=
  match (do
    let x ← editCtx p
    let (i, _) ← needSeq p x r.seq
    let e ← getBld p i x r.lh r.blk
    pure (pteValid e && ptePage e == ptePage r.entry) : Eng Bool).run s with
  | .ok (v, _) => v
  | .error _ => false

/-- Ends the re-key of a page: its EPOCH is rewritten and the counts move. -/
def rekeyEnd (p : Nat) (r : RekeySt) (s : State) : State :=
  let ep := glzEpoch s p
  let s := pupd p (fun u => { u with rekey := none }) s
  match (do
    let x ← editCtx p
    let (i, _) ← needSeq p x r.seq
    pteAll p i x r.lh r.blk (fun v => ptePage v == ptePage r.entry) (fun v => putFld v 52 51 ep) : Eng Unit).run s with
  | .error _ => s
  | .ok (_, s) => glzCount p ep 1 (glzCount p (pteEpoch r.entry) (2 ^ 30 - 1) s)

/-- A page that fails during the sweep becomes tier 3 by internal edit. -/
def rekeyLose (p : Nat) (r : RekeySt) (s : State) : State :=
  engRun (do
    let x ← editCtx p
    let (i, _) ← needSeq p x r.seq
    losePage p i x r.lh r.blk
    autoCommit p) (pupd p (fun u => { u with rekey := none }) s)

/-- The four parts of an image in order, once all are there. -/
def imageOf (l : List (Nat × List Byte)) : Option (List Byte) :=
  let part (i : Nat) : Option (List Byte) := (l.find? (fun e => e.1 == 4096 * i)).map (fun e => fitBytes 4096 e.2)
  match part 0, part 1, part 2, part 3 with
  | some a, some b, some c, some d => some (a ++ b ++ c ++ d)
  | _, _, _, _ => none

/-- The re-key goes on once record and image are there: opened, sealed again under E into the same slot. -/
def rekeyStep (p : Nat) (s : State) : State :=
  match (pget s p).rekey with
  | none => s
  | some r =>
    match imageOf r.image with
    | none => s
    | some img =>
      if r.record.isEmpty then s
      else if !rekeyKept p r s then pupd p (fun u => { u with rekey := none }) s
      else
        let want := wantPage p r.seq r.lh r.blk r.half r.entry
        match glzOpenPage p want r.record img s with
        | (.error _, s) => rekeyLose p r s
        | (.ok (d, ks, vs), s) =>
          let s := glzSealPut p { want with epoch := glzEpoch s p, ks := ks, vs := vs } d s
          if ptePair r.entry && r.half == 0 then
            rekeyReads p (fld (ptePage r.entry) 29 0 + 1)
              (pupd p (fun u => { u with rekey := some { r with half := 1, record := [], image := [] } }) s)
          else rekeyEnd p r s

/-- A swap-in's image goes on once its record and its four parts are there. -/
def swapStep (p key : Nat) (s : State) : State :=
  match (pget s p).swap with
  | none => s
  | some w =>
    match w.jobs.find? (fun j => swapKey j == key) with
    | none => swapFinish p s
    | some j =>
      match imageOf j.image with
      | none => s
      | some img =>
        if j.record.isEmpty || j.done then s
        else
          let (r, s) := glzOpenPage p (wantPage p w.seq j.lh j.blk j.half j.entry) j.record img s
          swapFinish p (jobDone p j r s)

end Sys2Proof.Machine
end

