-- ==== Sys2Proof/Machine/Launch.lean ====
section
/-! DEFINITION. Areas, models and steps: registration, MODEL_LOAD, launches, the walk, retirement and the ways a step ends
(R184 to R186, R199 to R204, R210 to R224, R315 to R319). -/

namespace Sys2Proof.Machine

/-! ## Directory and attention areas (R184 to R186, R214, R316) -/

/-- Whether two block ranges, both ends included, meet. -/
def blksMeet (a b c d : Nat) : Bool := decide (a ≤ d) && decide (c ≤ b)

/-- The largest number of local layer-heads of any shard (R184). -/
def maxLocal (n : Nat) (hs : List HeadEnt) : Nat :=
  ((List.range n).map (fun k => (hs.filter (fun h => inStripe n h k)).length)).foldl max 0

/-- The status that refuses a directory, or 0. -/
def dirStatus (s : State) (p n : Nat) (d : DirSt) (ws : List Nat) : Nat :=
  let hs := ws.map headEnt
  if d.base = 0 || d.limit < d.base || d.nlh = 0 || 4096 < d.nlh || d.maxSeq = 0 || 1048576 < d.seqBase + d.maxSeq then 0x0107
  else if ws.any (fun w => w / 2 ^ 21 != 0) then 0x0101
  else if hs.any (fun h => decide (n < h.spread) || decide (n ≤ h.base)) || 256 < maxLocal n hs then 0x0107
  else if 64 * (d.limit + 1) < offBmap d || poolBlks d = 0 then 0x0204
  else if (pget s p).att.any (fun a => blksMeet d.base d.limit a.base a.limit) then 0x0204
  else if s.parts.any (fun e => e.1 != p && e.2.dir.any (fun o =>
      decide (o.seqBase < d.seqBase + d.maxSeq) && decide (d.seqBase < o.seqBase + o.maxSeq))) then 0x0206
  else 0

/-- A bitmap of `n` bits as bytes. -/
def bitBytes (n : Nat) (f : Nat → Bool) : List Byte :=
  (List.range (ceilDiv n 8)).map (fun i => BitVec.ofNat 8
    (sumNat ((List.range 8).map (fun j => if 8 * i + j < n && f (8 * i + j) then 2 ^ j else 0))))

/-- Whether the frame of a word index of a shard is free when the directory is registered: its column is in service, and
it does not wait for zeroing. -/
def frameFree (s : State) (k : Nat) (d : DirSt) (i : Nat) : Bool :=
  let pos := i / poolFrames d
  let f := i % poolFrames d + d.kvFirst
  match keyOf s.map.core (fun y => y / 17 == k) (pos / 2 + 1) with
  | some c =>
    let col := 2 * c + pos % 2
    (colget s col).state == 0 && !(stGet (fun _ => []) s.zeroQ k).contains (ftKey col f) && !nsHas s.noReuse (ftKey col f)
  | none => false

/-- Writes the initial contents of the area in one shard (R185). -/
def dirInit (n : Nat) (d : DirSt) (ws : List Nat) (kk k : Nat) (s : State) : State :=
  let free := (List.range (32 * poolFrames d)).map (frameFree s k d)
  let s := csZeroBlks k d.base (d.limit + 1 - d.base) s
  let s := csWriteBytes k (offHead d) (ws.flatMap (leBytes 8)) s
  let s := csWriteBytes k (offFree d) (bitBytes (32 * poolFrames d) (fun i => listAt free i false)) s
  let s := csWriteBytes k (offBmap d) (bitBytes (poolBlks d) (fun _ => true)) s
  let nl := ((ws.map headEnt).filter (fun h => inStripe n h kk)).length
  cluSet k 0x110 (BitVec.ofNat 32 (free.filter (fun b => b)).length) <|
    cluSet k 0x108 (BitVec.ofNat 32 d.gen) <| cluSet k 0x104 (BitVec.ofNat 32 (2 ^ 31 + nl * 2 ^ 13 + d.kvFirst)) <|
    cluSet k 0x100 (BitVec.ofNat 32 (d.limit * 2 ^ 16 + d.base)) s

/-- DIR_REGISTER: `heads` is the head map that the device reads from host memory, with the layers of its layer-heads. -/
def execDirRegister (w : Fin 128) (heads : HeadMap) (s : State) : Res :=
  runCmd w 0x0205 (fun b => payNZ b 24 8 || payAt b 4 2 / 2 ^ 13 != 0 || payAt b 6 2 / 2 ^ 13 != 0 ||
      payAt b 8 4 / 2 ^ 20 != 0 || payAt b 12 4 / 2 ^ 21 != 0) (fun k s =>
    let b := k.bytes
    let p := hPart b
    let ks := partClus s p
    let d : DirSt := { base := payAt b 0 2, limit := payAt b 2 2, kvFirst := payAt b 4 2, nlh := payAt b 6 2,
                       seqBase := payAt b 8 4, maxSeq := payAt b 12 4, gen := 0, g1 := GenSt.empty, g2 := GenSt.empty,
                       pend := false, queued := false, pkt1 := none,
                       pkt2 := none, auto := false, first := false, rot := [], t2rot := [], layers := heads.layers }
    let ws := (List.range d.nlh).map (fun i => (listAt heads.words i 0).toNat)
    if (pget s p).dir.isSome then complete k.id 0x0304 0 0 s
    else
      let st := dirStatus s p ks.length d ws
      if st ≠ 0 then complete k.id st 0 0 s
      else
        let s := ks.zipIdx.foldl (fun s e => dirInit ks.length d ws e.2 e.1 s) s
        complete k.id 0 (poolBlks d) 0 (pupd p (fun q => { q with dir := some d }) s)) s

/-- Whether a sequence exists in the current generation or in one under construction. -/
def anySeq (p : Nat) (s : State) : Bool :=
  match (do
    let x ← editCtx p
    let k := listAt x.ks 0 0
    let l ← engMap (fun i => do
      let a ← curPtr x.d k i
      let c ← bldPtr x.d k i
      pure (a != 0 || c != 0)) (List.range x.d.maxSeq)
    pure (l.any (fun v => v)) : Eng Bool).run s with
  | .ok (v, _) => v
  | .error _ => true

/-- Takes a partition's directory away: its registers read zero. -/
def dirDrop (p : Nat) (s : State) : State :=
  [0x100, 0x104, 0x108, 0x110].foldl (fun s o => kvAll p o (fun _ => 0) s) (pupd p (fun q => { q with dir := none }) s)

def execDirWithdraw (w : Fin 128) (s : State) : Res :=
  runCmd w 0x0206 noResv (fun k s =>
    let p := hPart k.bytes
    let q := pget s p
    if q.dir.isNone || anySeq p s || launchesOf s p ≠ 0 || q.step.isSome then complete k.id 0x0304 0 0 s
    else complete k.id 0 0 0 (dirDrop p s)) s

/-- Block counts of the attention area before each ring (Table ATT.2). -/
def attSegBlk (a : AttSt) : Nat := a.base + 33 + 2 * a.qslots
def attItemBlk (a : AttSt) : Nat := attSegBlk a + 4 * 2 ^ a.seglog
def attAppBlk (a : AttSt) : Nat := attItemBlk a + 32 * a.itemblk

/-- The status that refuses an attention area, or 0. -/
def attStatus (s : State) (p : Nat) (a : AttSt) : Nat :=
  match (pget s p).dir with
  | none => 0x0304
  | some d =>
    if a.seglog < 4 || 11 < a.seglog || a.itemblk < 16 || a.qslots = 0 || a.base = 0 || d.kvFirst < a.qframe + a.qslots
    then 0x0107
    else if a.limit + 1 < attAppBlk a + a.appblk || blksMeet a.base a.limit d.base d.limit then 0x0204
    else 0

/-- A null item (R219). -/
def nullItem : List Byte := leBytes 4 0xC0000000 ++ leBytes 4 0 ++ [0, 2] ++ zeros 6

/-- The chain head's column of a cluster (R213). -/
def chainHead (s : State) (k : Nat) : Option Nat := (chainStops s k).head?

/-- ATT_REGISTER. An area whose query buffer lies in a column that has retired is registered again (R370). DEDUCED (log
entry 37). -/
def execAttRegister (w : Fin 128) (s : State) : Res :=
  runCmd w 0x0207 (fun b => payAt b 4 1 / 16 != 0 || payNZ b 5 1 || payAt b 6 2 / 2 ^ 10 != 0 || payAt b 8 1 / 32 != 0 ||
      payAt b 10 2 / 2 ^ 11 != 0 || payAt b 12 2 / 2 ^ 13 != 0 || payNZ b 14 10) (fun k s =>
    let b := k.bytes
    let p := hPart b
    let ks := partClus s p
    let a : AttSt := { base := payAt b 0 2, limit := payAt b 2 2, seglog := payAt b 4 1, itemblk := payAt b 6 2,
                       qph := payAt b 8 1 + 1, qslots := payAt b 9 1, appblk := payAt b 10 2, qframe := payAt b 12 2,
                       qcols := ks.filterMap (chainHead s), itemPos := [], inRing := [] }
    if (pget s p).att.any (fun o => !o.qcols.any (fun c => (colget s c).state == 2)) then complete k.id 0x0304 0 0 s
    else
      let st := attStatus s p a
      if st ≠ 0 then complete k.id st 0 0 s
      else
        let s := ks.foldl (fun s k =>
          csWriteBytes k (64 * a.base) (nullItem ++ nullItem ++ nullItem ++ nullItem)
            (csZeroBlks k a.base (a.limit + 1 - a.base) s)) s
        let s := kvAll p 0x140 (fun _ => BitVec.ofNat 32 (a.limit * 2 ^ 16 + a.base)) s
        let s := kvAll p 0x144 (fun _ =>
          BitVec.ofNat 32 (2 ^ 31 + a.seglog * 2 ^ 27 + a.itemblk * 2 ^ 17 + (a.qph - 1) * 2 ^ 12)) s
        let s := kvAll p 0x148 (fun _ => BitVec.ofNat 32 (a.qframe * 2 ^ 19 + a.qslots * 2 ^ 11 + a.appblk)) s
        complete k.id 0 0 0 (pupd p (fun q => { q with att := some a }) s)) s

/-! ## MODEL_LOAD (R144, R315) -/

/-- Reads device memory for a packet: the bytes, or the status that ends it. -/
def pktRead (who : Who) (a n : Nat) (s : State) : Except Nat (List Byte) × State :=
  let t := dpaTgt s a
  match tgtRefusal s who t n false with
  | some r => (.error r.1, hostRefused who r s)
  | none =>
    match tgtRead t n (fwTx 17 0 (some a)) s with
    | (some d, s) => (.ok d, s)
    | (none, s) => (.error 0x0504, s)

/-- Reads `n` entries of `len` bytes from `a` on. -/
def pktTable (who : Who) (a len : Nat) : Nat → State → Except Nat (List (List Byte)) × State
  | 0, s => (.ok [], s)
  | n + 1, s =>
    match pktRead who a len s with
    | (.error st, s) => (.error st, s)
    | (.ok d, s) =>
      match pktTable who (a + len) len n s with
      | (.error st, s) => (.error st, s)
      | (.ok r, s) => (.ok (d :: r), s)

/-- A program image header (Table TILE.16), or none where R144 refuses it. -/
def imageOk (h : List Byte) : Bool :=
  leAt h 0 4 == 0x54494B46 && leAt h 4 2 == 1 && decide (1 ≤ leAt h 6 2) && decide (leAt h 6 2 ≤ 8192)

/-- The images of a program table: index, core and slice offset of each program (R315). -/
def imagesOf (cores : List Nat) (ents : List (List Byte)) : List (Nat × Nat × Nat) :=
  ((cores.zip ents).zipIdx.filter (fun e => !bitAt (leNat e.1.2) 32)).map (fun e => (e.2, e.1.1, fld (leNat e.1.2) 27 0))

/-- Reads every header: the core index of the first bad one is the detail. -/
def readHeaders : List (Nat × Nat × Nat) → State → Except (Nat × Nat) (List (Nat × Nat × List Byte)) × State
  | [], s => (.ok [], s)
  | (i, c, off) :: r, s =>
    if off % 64 ≠ 0 || off + 64 > 2 ^ 28 || retiredIn s c off 64 then (.error (0x0108, i), s)
    else
      match t1ReadBytes c off 64 s with
      | (none, s) => (.error (0x0504, i), s)
      | (some h, s) =>
        if !imageOk h then (.error (0x0108, i), s)
        else
          match readHeaders r s with
          | (.error e, s) => (.error e, s)
          | (.ok l, s) => (.ok ((c, off, h) :: l), s)

/-- Loads one image under Table TILE.17 up to step 4. The manual names no source for the barrier membership: a free
value. -/
def loadImage (c off : Nat) (h : List Byte) (s : State) : State :=
  let w (o : Nat) : Word := BitVec.ofNat 32 (leAt h o 4)
  let s := writeProfile c (w 24) s
  let s := writeSlotMap c 2 (w 20) (writeSlotMap c 1 (w 16) (writeSlotMap c 0 (w 12) s))
  let s := corSet c 0x20C (w 32) (corSet c 0x208 (w 28 &&& 0x80001FFF) s)
  let (g, s) := takeFree s
  let s := corSet c 0x210 (BitVec.ofNat 32 (g % 65536)) s
  let s := iter 15 (fun i s => tkPut c (i + 1) 0 s) s
  let s := iter 8 (fun i s => movClr c i s) s
  let s := rset (nbuBase (2 * c) + 0x2C) 0 (rset (nbuBase (2 * c + 1) + 0x2C) 0 s)
  let s := writeSeqCtl c (BitVec.ofNat 32 (leAt h 8 2 % 8192 * 4)) s
  let s := corSet c 0x2A0 (BitVec.ofNat 32 (off + 64)) s
  writeLoadCtl c (BitVec.ofNat 32 (2 ^ 30 + (ceilDiv (leAt h 6 2) 8 - 1))) s

/-- A weight-map entry lies within the partition's bounds. -/
def weightOk (s : State) (who : Who) (e : Nat × Nat × Nat) : Bool :=
  (tgtRefusal s who (dpaTgt s e.1) e.2.2 false).isNone && (tgtRefusal s who (dpaTgt s e.2.1) e.2.2 true).isNone

/-- Ends a MODEL_LOAD once every load path is done. -/
def loadFinish (p : Nat) (s : State) : State :=
  match (pget s p).loading with
  | none => s
  | some l =>
    if !l.left.isEmpty then s
    else
      match l.bad with
      | some i => complete l.pkt 0x0504 0 i (pupd p (fun q => { q with loading := none, model := none }) s)
      | none => complete l.pkt 0 l.model.cores.length 0
          (pupd p (fun q => { q with loading := none, model := some l.model }) s)

def execModelLoad (w : Fin 128) (s : State) : Res :=
  runCmd w 0x0204 (fun b => payNZ b 22 10) (fun k s =>
    let b := k.bytes
    let p := hPart b
    let who := pktWho b
    let cores := partCores s p
    let stop (st det : Nat) (s : State) : State := complete k.id st 0 det s
    if payAt b 0 8 % 8 ≠ 0 then stop 0x0106 0 s
    else if (pget s p).loading.isSome || cores.any (fun c => !(cget s c).halted) then stop 0x0305 0 s
    else
      match pktTable who (payAt b 0 8) 8 cores.length s with
      | (.error st, s) => stop st 0 s
      | (.ok ents, s) =>
        if ents.any (fun e => fld (leNat e) 31 28 != 0 || leNat e / 2 ^ 33 != 0) then stop 0x0101 0 s
        else
          match pktTable who (payAt b 8 8) 24 (if payAt b 8 8 = 0 then 0 else payAt b 16 4) s with
          | (.error st, s) => stop st 0 s
          | (.ok wm, s) =>
            let ws := wm.map (fun e => (leAt e 0 8, leAt e 8 8, leAt e 16 4))
            if wm.any (fun e => leAt e 20 4 != 0) then stop 0x0101 0 s
            else if ws.any (fun e => !weightOk s who e) then stop 0x0401 0 s
            else
              match readHeaders (imagesOf cores ents) s with
              | (.error (st, i), s) => stop st i (pupd p (fun q => { q with model := none }) s)
              | (.ok imgs, s) =>
                let m : ModelSt := { handle := payAt b 20 2, cores := imgs.map (fun e => e.1), weights := ws }
                let l : LoadSt := { pkt := k.id, model := m, left := m.cores, bad := none }
                let s := imgs.foldl (fun s e => loadImage e.1 e.2.1 e.2.2 s) s
                loadFinish p (pupd p (fun q => { q with loading := some l, model := none }) s)) s

/-- The load path of a core ends; the MODEL_LOAD that waits for the last one completes. -/
def execLoadPathDone (c : Fin 4352) (s : State) : Res :=
  if !(cget s c).loadBusy || !coreRuns s c then .next s
  else
    let (s, bad) := loadEnd c s
    match corePart s c with
    | none => .next s
    | some p =>
      let note (l : LoadSt) : LoadSt :=
        { l with left := l.left.filter (fun x => x != c.val),
                 bad := if bad && l.left.contains c.val then l.bad.orElse (fun _ => some ((partCores s p).idxOf c.val))
                        else l.bad }
      .next (loadFinish p (pupd p (fun q => { q with loading := q.loading.map note }) s))

/-! ## Launches (R196, R197, R318) -/

def execStepLaunch (w : Fin 128) (s : State) : Res :=
  runCmd w 0x0401 (fun b => payAt b 8 4 / 2 ^ 16 != 0) (fun k s =>
    let b := k.bytes
    let p := hPart b
    let q := pget s p
    if q.model.isNone then complete k.id 0x0304 0 0 s
    else if payAt b 0 8 % 8 ≠ 0 || payAt b 16 8 % 8 ≠ 0 then complete k.id 0x0106 0 0 s
    else
      let pend := q.dir.any (fun d => d.pend)
      let queued := q.dir.any (fun d => d.queued)
      pset p (if queued then { q with held2 := q.held2 ++ [k.id] }
        else if pend then { q with held := q.held ++ [k.id] } else { q with launches := q.launches ++ [k.id] }) s) s

/-! ## The length table (R200 to R204) -/

def leSeq (e : Nat) : Nat := fld e 19 0
def leNew (e : Nat) : Nat := fld e 35 20
def leCtx (e : Nat) : Nat := fld e 61 40

/-- The entries of a length table. -/
def lenEntries : Nat → List Byte → List Nat
  | 0, _ => []
  | n + 1, b => leNat (b.take 8) :: lenEntries n (b.drop 8)

/-- An entry of the current generation. -/
def getCur (p i : Nat) (x : EditCtx) (lh b : Nat) : Eng Nat := do
  let d ← theDir p
  let (k, li, j) := shardOf x lh b
  let de ← curPtr d k i
  pteAt k de li j

/-- The positions that an entry of block b must show for a context. -/
def wantTokens (ctx b : Nat) : Nat := min 64 (ctx - 64 * b)

/-- The launch fault of one append entry (R193, R201): `first` is the block of the first append position. -/
def appendFault (e ctx b first : Nat) : Nat :=
  if !pteValid e then 0x07
  else if pteTier e ≠ 0 then 0x04
  else if b = first && pteShared e then 0x08
  else if pteTokens e ≠ wantTokens ctx b then 0x06
  else 0

/-- The first nonzero number that an action finds along a list. -/
def engFirst {α : Type} (f : α → Eng Nat) : List α → Eng Nat
  | [] => pure 0
  | a :: r => do
    let v ← f a
    if v ≠ 0 then pure v else engFirst f r

/-- The launch fault of one entry of the length table, in the order: empty, an earlier fault, which stays until TRUNCATE clears it
(R203), duplicate, unknown, not resident, length, context limit, append range. -/
def launchFault (p : Nat) (x : EditCtx) (tab : List Nat) (e : Nat) : Eng Nat := do
  let twice := decide (1 < (tab.filter (fun o => leSeq o == leSeq e)).length)
  if leNew e = 0 then pure 0x0D
  else do
    let r ← curDesc p (leSeq e)
    match r with
    | none => pure (if twice then 0x0A else 0x0B)
    | some (i, v) =>
      if v.fault ≠ 0 then pure v.fault
      else if twice then pure 0x0A
      else if 3 ≤ v.state then pure 0x04
      else if v.ctx ≠ leCtx e then pure 0x06
      else if x.hs.any (fun h => decide (16384 * h.spread < leCtx e + leNew e)) then pure 0x09
      else do
        let b0 := leCtx e / 64
        let b1 := (leCtx e + leNew e - 1) / 64
        engFirst (fun lh => engFirst (fun m => do
          let t ← getCur p i x lh (b0 + m)
          pure (appendFault t (leCtx e) (b0 + m) b0)) (List.range (b1 + 1 - b0))) (List.range x.d.nlh)

/-- Whether a launch fault is written into the descriptor: a sequence that is not resident is left untouched (R209), and
an empty entry shows in its token record only (R201). -/
def faultKept (f : Nat) (v : Desc) : Bool := f != 0 && f != 0x0D && !(f == 0x04 && decide (3 ≤ v.state))

/-- Writes the outcome of the launch checks into a sequence's descriptors: STATE 1, or the fault. -/
def launchMark (p steps : Nat) (e f : Nat) : Eng Unit := do
  let r ← curDesc p (leSeq e)
  match r with
  | none => pure ()
  | some (i, v) =>
    if f = 0 then descAll p i (fun v => { v with state := 1, last := steps })
    else if faultKept f v then descAll p i (fun v => { v with fault := f })
    else pure ()

/-! ## The append table (R224) -/

/-- The device physical address of a tier-1 page's first frame. -/
def pageDpa (page : Nat) : Nat :=
  fld page 29 26 * 2 ^ 40 + fld page 25 18 * 2 ^ 32 + fld page 12 0 * 0x8000 + fld page 17 17 * 0x4000

/-- An append entry (Table ATT.4). -/
def appendEntry (s : State) (t ctx : Nat) : List Byte :=
  let tag := match pageCol s (ptePage t) with
    | some (col, f) => (ftGet s col f).toNat
    | none => 0
  let w1 := if pteTag t = 4 then fld tag 31 16 + fld tag 47 32 * 2 ^ 16 else 0
  leBytes 8 (2 ^ 63 + ctx % 64 * 2 ^ 52 + pteTag t * 2 ^ 48 + pageDpa (ptePage t) / 2 ^ 14 * 2 ^ 14) ++ leBytes 8 w1

/-- The decode entries of a length table: length-table index and entry, in table order. -/
def decodeEnts (tab : List Nat) : List (Nat × Nat) :=
  (tab.zipIdx.filter (fun e => leNew e.1 == 1)).map (fun e => (e.2, e.1))

/-- Writes the append table of one shard. A faulted entry's row is not valid. -/
def appendTable (p : Nat) (x : EditCtx) (a : AttSt) (tab faults : List Nat) (kk k : Nat) : Eng Unit := do
  let ds := decodeEnts tab
  let lhs := (List.range x.d.nlh).filter (fun lh => match x.hs[lh]? with
    | some h => inStripe x.n h kk
    | none => false)
  engEach (fun u => engEach (fun e => do
    let ctx := leCtx e.1.2
    let b := ctx / 64
    let here := (shardOf x u.1 b).1 == k && listAt faults e.1.1 1 == 0
    let row ← if here then do
        match seqIdx x.d (leSeq e.1.2) with
        | none => pure (zeros 16)
        | some i => do
          let t ← getCur p i x u.1 b
          let s ← get
          pure (appendEntry s t ctx)
      else pure (zeros 16)
    modify (csWriteBytes k (64 * attAppBlk a + 16 * (u.2 * ds.length + e.2)) row)) ds.zipIdx) lhs.zipIdx

/-! ## The walk (R202, R216 to R219, R231) -/

/-- A page that a query group scores at one column: block, first query, page, mask, positions, tag, entries. -/
structure WalkItem where
  col : Nat
  grp : Nat
  blk : Nat
  first : Nat
  page : Nat
  mask : Nat
  tokens : Nat
  tag : Nat
  ents : List Nat
  deriving DecidableEq, Repr

/-- A chunk entry with its column (Table ATT.6). -/
structure ChunkItem where
  col : Nat
  ent : Nat
  bytes : List Byte
  deriving DecidableEq, Repr

/-- The fault of an entry that the walk reads (R202). -/
def walkFault (t ctx b : Nat) : Nat :=
  if !pteValid t then 0x05
  else if pteTier t = 3 then 0x03
  else if pteTier t ≠ 0 then 0x04
  else if pteTokens t ≠ wantTokens ctx b then 0x06
  else 0

/-- The decode items, chunk entries and faults that one layer-head's walk gives. -/
structure WalkOut where
  items : List WalkItem
  chunks : List ChunkItem
  faults : List Nat

/-- Adds an item: items that name one page and one bank merge (R202). -/
def addItem (l : List WalkItem) (v : WalkItem) : List WalkItem :=
  match findIdx? (fun o : WalkItem => o.col == v.col && o.grp == v.grp && o.page == v.page) l with
  | some i => l.modify i (fun o => { o with mask := Nat.lor o.mask v.mask, ents := o.ents ++ v.ents })
  | none => l ++ [v]

/-- Walks one block of one entry. `dec` is the entry's decode number, if it has one. -/
def walkBlk (p qph : Nat) (x : EditCtx) (lh i n e : Nat) (dec : Option Nat) (b : Nat) (o : WalkOut) : Eng WalkOut := do
  let t ← getCur p i x lh b
  let f := walkFault t (leCtx e) b
  let s ← get
  if f ≠ 0 then
    pure { o with faults := o.faults.modify n (fun g => if g = 0 then f else g) }
  else
    match pageCol s (ptePage t) with
    | none => pure { o with faults := o.faults.modify n (fun g => if g = 0 then 0x04 else g) }
    | some (col, _) =>
      let tok := min 64 (leCtx e + leNew e - 64 * b)
      match dec with
      | some m =>
        let j := m % (32 / qph)
        let v : WalkItem :=
          { col := col, grp := m / (32 / qph), blk := b, first := qph * j, page := ptePage t,
            mask := (2 ^ qph - 1) * 2 ^ (qph * j), tokens := tok, tag := pteTag t, ents := [n] }
        pure { o with items := addItem o.items v }
      | none =>
        let v : ChunkItem :=
          { col := col, ent := n, bytes := leBytes 4 (ptePage t) ++ leBytes 2 n ++ leBytes 2 b ++
              [BitVec.ofNat 8 tok, BitVec.ofNat 8 (pteTag t)] ++ leBytes 2 (64 * b - leCtx e) ++ leBytes 4 0 }
        pure { o with chunks := o.chunks ++ [v] }

/-- Runs an action along a list, its result carried on. -/
def engFold {α β : Type} (f : α → β → Eng β) : List α → β → Eng β
  | [], b => pure b
  | a :: r, b => do
    let b ← f a b
    engFold f r b

/-- Walks one layer-head: every real position of every entry not faulted before its layer (R202). -/
def walkLh (p qph : Nat) (x : EditCtx) (tab before faults : List Nat) (lh : Nat) : Eng WalkOut := do
  let decs := decodeEnts tab
  engFold (fun ne (o : WalkOut) => do
    let (e, n) := ne
    if listAt before n 1 ≠ 0 then pure o
    else
      match seqIdx x.d (leSeq e) with
      | none => pure o
      | some i =>
        engFold (walkBlk p qph x lh i n e (findIdx? (fun v : Nat × Nat => v.1 == n) decs))
          (List.range (ceilDiv (leCtx e + leNew e) 64)) o)
    tab.zipIdx { items := [], chunks := [], faults := faults }

/-! Segments (Table ATT.3). -/

def segWord (kind qb nq : Nat) (init strict : Bool) (expf mode : Nat) (space : Bool) (count : Nat) : Nat :=
  kind * 2 ^ 61 + qb * 2 ^ 60 + (nq - 1) * 2 ^ 55 + b2n init * 2 ^ 54 + b2n strict * 2 ^ 53 + expf * 2 ^ 49 + mode * 2 ^ 46 +
    b2n space * 2 ^ 45 + count * 2 ^ 22

/-- A work item's 16 bytes (Table SLICE.9). -/
def itemBytes (v : WalkItem) : List Byte :=
  leBytes 4 v.page ++ leBytes 4 v.mask ++ [BitVec.ofNat 8 v.tokens, BitVec.ofNat 8 v.tag] ++ zeros 6

/-- Inserts by ascending block, ties by the lower first query (R218). -/
def insItem (v : WalkItem) : List WalkItem → List WalkItem
  | [] => [v]
  | o :: r => if v.blk < o.blk || (v.blk == o.blk && v.first < o.first) then v :: o :: r else o :: insItem v r

def sortItems (l : List WalkItem) : List WalkItem := l.foldl (fun a v => insItem v a) []

/-- Cuts a list into parts of at most `n` (R216). -/
def cutList {α : Type} (n : Nat) : Nat → List α → List (List α)
  | 0, _ => []
  | _, [] => []
  | m + 1, l => l.take n :: cutList n m (l.drop n)

/-- One stop's part of a walk: cluster, stop, position on the chain (0 head, 1 middle, 2 last, 3 alone), column. -/
structure StopCtx where
  clu : Nat
  stop : Nat
  pos : Nat
  col : Nat

/-- What the script of a layer-head in a cluster needs: queries per group, registered area, head entry, layer-head, layer, and the
rank among the cluster's layer-heads of that layer. -/
structure ScriptCtx where
  att : AttSt
  h : HeadEnt
  lh : Nat
  layer : Nat
  rank : Nat
  nq : List Nat

/-- SCORE segments of a group over items: the first of the group at the stop carries INIT. -/
def scoreSegs (c : ScriptCtx) (t : StopCtx) (g : Nat) (init : Bool) (l : List WalkItem) : List WalkSeg :=
  (cutList (2 * c.att.itemblk) l.length l).zipIdx.map (fun e =>
    { clu := t.clu, stop := t.stop, lh := c.lh, items := e.1.map itemBytes, work := e.1.flatMap (fun v => v.ents)
      word := segWord 0 (g % 2) (listAt c.nq g 1) (init && e.2 == 0) c.h.strict c.h.expfmt 0 false (e.1.length - 1) })

/-- The LOAD segment of a group: its slot is rank · NG + g in the parity of the layer (R220). -/
def loadSeg (c : ScriptCtx) (t : StopCtx) (g : Nat) : WalkSeg :=
  let s' := c.layer % 2 * c.att.qslots + c.rank * c.nq.length + g
  let off := rowOff t.col ((c.att.qframe + s' / 2) * 16 + 8 * (s' % 2)) / 256
  { clu := t.clu, stop := t.stop, lh := c.lh, items := [], work := []
    word := segWord 1 (g % 2) (listAt c.nq g 1) false false 0 0 false 0 + (if t.pos = 0 || t.pos = 3 then off else 0) }

/-- The EMIT segment of a group. At a lone stop it writes the scratchpad at once (MODE 0). DEDUCED (log entry 38). -/
def emitSeg (c : ScriptCtx) (t : StopCtx) (g : Nat) : WalkSeg :=
  let mode := listAt [1, 2, 3, 0] t.pos 0
  let last := decide (2 ≤ t.pos)
  { clu := t.clu, stop := t.stop, lh := c.lh, items := [], work := []
    word := segWord 2 (g % 2) (listAt c.nq g 1) false false 0 mode last 0 + (if last && g % 2 = 1 then 0x4800 else 0) }

/-- The null SCORE of a group that has no item at a stop (R218, R219). -/
def nullSeg (c : ScriptCtx) (t : StopCtx) (g : Nat) : WalkSeg :=
  { clu := t.clu, stop := t.stop, lh := c.lh, items := [], work := []
    word := segWord 0 (g % 2) (listAt c.nq g 1) true c.h.strict c.h.expfmt 0 false 0 + 64 * c.att.base }

/-- The phases of the decode script (R218). `done` holds the items of this group that the phase before scored; `init`
says that the group has had its first SCORE. -/
def phases (c : ScriptCtx) (t : StopCtx) (items : List WalkItem) (ng : Nat) : Nat → Nat → List Nat → Bool → List WalkSeg
  | 0, _, _, _ => []
  | n + 1, g, done, init =>
    let mine := sortItems (items.filter (fun v => v.grp == g && !done.contains v.page))
    let next := items.filter (fun v => v.grp == g + 1)
    let both := mine.filter (fun v => next.any (fun o => o.page == v.page))
    let alone := mine.filter (fun v => !both.contains v)
    let nothing := !init && mine.isEmpty
    let a := if nothing then [nullSeg c t g] else scoreSegs c t g (!init) alone
    let b := both.zipIdx.flatMap (fun e =>
      scoreSegs c t g (!init && alone.isEmpty && e.2 == 0) [e.1] ++
        scoreSegs c t (g + 1) (e.2 == 0) (next.filter (fun o => o.page == e.1.page)))
    let more := if g + 2 < ng then [loadSeg c t (g + 2)] else []
    a ++ b ++ [emitSeg c t g] ++ more ++ phases c t items ng n (g + 1) (both.map (fun v => v.page)) (!both.isEmpty)

/-- All segments of a layer-head at one stop: the decode script, its CHUNK segments, one END (R216). -/
def stopSegs (c : ScriptCtx) (t : StopCtx) (o : WalkOut) : List WalkSeg :=
  let ng := c.nq.length
  let items := o.items.filter (fun v => v.col == t.col)
  let chunks := o.chunks.filter (fun v => v.col == t.col)
  let loads := (List.range (min 2 ng)).map (loadSeg c t)
  let script := loads ++ phases c t items ng ng 0 [] false
  let chunkSegs := (cutList (2 * c.att.itemblk) chunks.length chunks).map (fun e =>
    ({ clu := t.clu, stop := t.stop, lh := c.lh, items := e.map (fun v => v.bytes), work := e.map (fun v => v.ent)
       word := segWord 3 0 1 false false 0 0 false (e.length - 1) } : WalkSeg))
  let fin : WalkSeg := { clu := t.clu, stop := t.stop, lh := c.lh, items := [], work := []
                         word := segWord 4 0 1 false false 0 0 false c.layer }
  script ++ chunkSegs ++ [fin]

/-- The number of a stop: 2 · logical core + column. -/
def stopNum (s : State) (col : Nat) : Nat := 2 * ((coLog s (col / 2)).getD 0) + col % 2

/-- The stops of a cluster with their places on the chain. -/
def stopsOf (s : State) (k : Nat) : List StopCtx :=
  let l := chainStops s k
  l.zipIdx.map (fun e =>
    { clu := k, stop := stopNum s e.1, col := e.1
      pos := if l.length = 1 then 3 else if e.2 = 0 then 0 else if e.2 + 1 = l.length then 2 else 1 })

/-- NQ of every group (R212). -/
def groupNq (qph ents : Nat) : List Nat :=
  let g := 32 / qph
  (List.range (ceilDiv ents g)).map (fun i => qph * min g (ents - g * i))

/-- The local layer-heads of a layer in the shard with partition index kk, ascending. -/
def localHeads (x : EditCtx) (kk l : Nat) : List Nat :=
  (layerHeads x.d l).filter (fun lh => (x.hs[lh]?).any (fun h => inStripe x.n h kk))

/-- The segments of one layer-head in every cluster of its stripe, after those before it. -/
def walkHead (p : Nat) (x : EditCtx) (a : AttSt) (tab before : List Nat) (layer lh : Nat) (o : List WalkSeg × List Nat) :
    Eng (List WalkSeg × List Nat) := do
  let nq := groupNq a.qph (decodeEnts tab).length
  match x.hs[lh]? with
  | none => pure o
  | some h => do
    let r ← walkLh p a.qph x tab before o.2 lh
    let s ← get
    let segs := ((List.range x.n).filter (inStripe x.n h)).flatMap (fun kk =>
      let c : ScriptCtx := { att := a, h := h, lh := lh, layer := layer, rank := (localHeads x kk layer).idxOf lh, nq := nq }
      (stopsOf s (listAt x.ks kk 0)).flatMap (fun t => stopSegs c t r))
    pure (o.1 ++ segs, r.faults)

/-- The segments of the whole walk, layer by layer and in each layer-head by layer-head, and the faults it finds (R202, R216). -/
def walkAll (p : Nat) (x : EditCtx) (a : AttSt) (tab faults : List Nat) : Eng (List WalkSeg × List Nat) :=
  engFold (fun l (o : List WalkSeg × List Nat) =>
    engFold (fun lh (u : List WalkSeg × List Nat) => walkHead p x a tab o.2 l lh u) (layerHeads x.d l) o) (layersOf x.d) ([], faults)

/-! ## Starting a step (R318) -/

/-- Ends a step: its packet completes and the partition is free for the next. A model that a retired column has spoilt is
discarded (R370). -/
def stepDone (p : Nat) (st : StepSt) (status result detail : Nat) (s : State) : State :=
  complete st.pkt status result detail (pupd p (fun q => { q with
    step := none, model := if q.dropModel then none else q.model, dropModel := false }) s)

/-- The largest number of a cluster's local layer-heads in any one layer (R215). -/
def layerMost (x : EditCtx) (kk : Nat) : Nat := ((layersOf x.d).map (fun l => (localHeads x kk l).length)).foldl max 0

/-- The status of R215 that refuses a launch, or 0. -/
def attGate (s : State) (q : PartSt) (x : EditCtx) (tab : List Nat) : Nat :=
  match q.att with
  | none => 0x0204
  | some a =>
    let e := (decodeEnts tab).length
    let ng := (groupNq a.qph e).length
    let nl (kk : Nat) : Nat := (x.hs.filter (fun h => inStripe x.n h kk)).length
    if (List.range x.n).any (fun kk => decide (a.qslots < ng * layerMost x kk) || decide (4 * a.appblk < nl kk * e)) then 0x0204
    else if a.qcols.any (fun c => (colget s c).state == 2) then 0x0304
    else 0

/-- The context of the current generation's walkers: the head map without pending changes. -/
def curCtx (p : Nat) : Eng EditCtx := do
  let x ← editCtx p
  let hs ← readHeads x.d (listAt x.ks 0 0)
  pure { x with hs := hs }

/-- Checks, marks, append table and walk of a launch whose length table is read; a status refuses the launch. -/
def stepPrepare (p : Nat) (tab : List Nat) : Eng (List Nat × List WalkSeg) := do
  let s ← get
  let q := pget s p
  match q.att with
  | none => engFail 0x0204
  | some a => do
    let x ← curCtx p
    let g := attGate s q x tab
    if g ≠ 0 then engFail g
    let fs ← engMap (launchFault p x tab) tab
    engEach (fun e => launchMark p (q.steps % 2 ^ 32) e.1 e.2) (tab.zip fs)
    engEach (fun e => appendTable p x a tab fs e.2 e.1) x.ks.zipIdx
    modify (fun s => x.ks.foldl (fun s k => cluUpd k 0x14C (fun w => wPut w 31 24 0) s) s)
    let (segs, fs) ← walkAll p x a tab fs
    pure (fs, segs)

/-- Starts a core of the model: X1 to X8, then START at ENTRY (Table TILE.17 step 5). -/
def stepCore (b : List Byte) (c : Nat) (s : State) : State :=
  let s := iter 8 (fun i s => xSet c (i + 1) (BitVec.ofNat 32 (payAt b (32 + 4 * i) 4)) s) s
  writeSeqCtl c (BitVec.ofNat 32 (1 + wFld (corReg s c 0x200) 14 2 * 4)) s

/-- The length table is in: the checks, the walk, and every loaded core starts. -/
def stepBegin (p : Nat) (s : State) : State :=
  let q := pget s p
  match q.step with
  | none => s
  | some st =>
    match findPkt s st.pkt with
    | none => s
    | some k =>
      let tab := lenEntries (payAt k.bytes 8 2 + 1) st.buf
      if tab.any (fun e => fld e 63 62 != 0 || fld e 39 36 != 0) then stepDone p st 0x0101 0 0 s
      else
        match (stepPrepare p tab).run s with
        | .error e => stepDone p st e 0 0 s
        | .ok ((fs, segs), s) =>
          let st := { st with phase := 1, table := tab, faults := fs, segs := segs }
          let s := pupd p (fun q => { q with step := some st }) s
          ((pget s p).model.map (fun m => m.cores)).getD [] |>.foldl (fun s c => stepCore k.bytes c s) s

/-- Reads a length table with requests of at most 4 096 bytes. -/
def lenReads (fn p addr : Nat) : Nat → Nat → Nat → State → State
  | 0, _, _, s => s
  | n + 1, off, left, s =>
    if left = 0 then s
    else lenReads fn p addr n (off + 4096) (left - 4096) (hostRead fn (addr + off) (min left 4096) (.lenTab p off) s)

/-- A queued launch starts: one at a time, in acceptance order, once no generation switch is due. One launch held for a generation
starts before the next switch (R197, R198). -/
def stepStart (p : Nat) (s : State) : State :=
  let q := pget s p
  let due := q.dir.any (fun d => d.pend && !d.first)
  if q.step.isSome || due || !mayStart s p then s
  else
    match q.launches with
    | [] => s
    | id :: rest =>
      match findPkt s id with
      | none => pset p { q with launches := rest } s
      | some k =>
        if q.model.isNone then complete id 0x0304 0 0 (pset p { q with launches := rest } s)
        else
          let n := 8 * (payAt k.bytes 8 2 + 1)
          let st : StepSt := { pkt := id, phase := 0, status := 0, detail := 0, start := s.ns, buf := zeros n,
                               left := ceilDiv n 4096, table := [], faults := [], segs := [], waits := [] }
          lenReads (winFn k.win) p (payAt k.bytes 0 8) (ceilDiv n 4096) 0 n
            (dropReads (fun u => match u with
              | .lenTab i _ => i == p
              | _ => false) (pset p { q with
                launches := rest, steps := q.steps + 1, step := some st, dir := q.dir.map (fun d => { d with first := false }) } s))

def execStepStart (p : Fin 64) (s : State) : Res := .next (stepStart p s)

/-! ## WALK_SEGMENT_WRITE (R216) -/

/-- Segment-ring byte offset of entry `i` of a stop, and item-ring start. -/
def segOff (a : AttSt) (stop i : Nat) : Nat := 64 * attSegBlk a + (stop * 2 ^ a.seglog + i % 2 ^ a.seglog) * 8
def itemOff (a : AttSt) (stop : Nat) : Nat := 64 * (attItemBlk a + stop * a.itemblk)

/-- Where `n` items go in an item ring at position `pos`: at the next block, as SCORE's WLIST needs (R168), and at the start when they
would cross the end. -/
def itemPlace (a : AttSt) (pos n : Nat) : Nat :=
  let at' := ceilDiv pos 4 * 4
  if 4 * a.itemblk < at' + n then 0 else at'

/-- Whether items at [x, x + n) meet a region coded as start · 65 536 + length. -/
def regionMeets (x n r : Nat) : Bool :=
  n != 0 && r % 65536 != 0 && decide (x < r / 65536 + r % 65536) && decide (r / 65536 < x + n)

/-- Removes the first element that satisfies a test. -/
def dropFirst {α : Type} (f : α → Bool) : List α → List α
  | [] => []
  | a :: r => if f a then r else a :: dropFirst f r

/-- Writes one segment with its items into a stop's rings, once there is room. -/
def walkWrite (p : Nat) (a : AttSt) (st : StepSt) (g : WalkSeg) : Eng Unit := do
  let ctl := 64 * (a.base + 1 + g.stop)
  let wr ← dRd g.clu ctl 4
  let rd ← dRd g.clu (ctl + 4) 4
  let key := g.clu * 32 + g.stop
  let used := (wr + 2 ^ 32 - rd) % 2 ^ 32
  let live := ((stGet (fun _ => []) a.inRing key).reverse.take used).reverse
  let n := g.items.length
  let pos := itemPlace a (stGet (fun _ => 0) a.itemPos key) n
  if 2 ^ a.seglog ≤ used || live.any (regionMeets pos n) then
    modify (fun s =>
      let s := if nsHas st.waits key then s else cluUpd g.clu 0x14C (fun w => wSatAdd w 15 0 1) s
      pupd p (fun q => { q with step := q.step.map (fun st => { st with waits := nsAdd st.waits key }) }) s)
  else do
    modify (csWriteBytes g.clu (itemOff a g.stop + 16 * pos) g.items.flatten)
    dWr g.clu (segOff a g.stop wr) 8 (g.word + if n = 0 then 0 else itemOff a g.stop + 16 * pos)
    dWr g.clu ctl 4 ((wr + 1) % 2 ^ 32)
    let segs := dropFirst (fun o => o.clu == g.clu && o.stop == g.stop) st.segs
    modify (fun s =>
      let s := tallyClu g.clu 0x0311 n none (cluUpd g.clu 0x124 (fun w => w + BitVec.ofNat 32 n) s)
      let layer := fld g.word 37 22
      let ends (o : WalkSeg) : Bool := o.clu == g.clu && fld o.word 63 61 == 4 && fld o.word 37 22 == layer
      let s := if ends g && !segs.any ends then cluUpd g.clu 0x14C (fun w => wPut w 31 24 (layer + 1)) s else s
      let ring (a : AttSt) : AttSt :=
        { a with itemPos := stSet (fun _ => 0) a.itemPos key (if n = 0 then stGet (fun _ => 0) a.itemPos key else pos + n)
                 inRing := stSet (fun _ => []) a.inRing key (live ++ [pos * 65536 + n]) }
      pupd p (fun q => { q with
        step := q.step.map (fun st => { st with segs := segs, waits := nsDel st.waits key }), att := q.att.map ring }) s)

/-- Whether the walker of a cluster has come to a segment: every layer-head before its own is written there (R216). The stops of one
layer-head may take their segments in any order. DEDUCED (log entry 204). -/
def walkTurn (st : StepSt) (g : WalkSeg) : Bool := (st.segs.find? (fun o => o.clu == g.clu)).all (fun o => o.lh == g.lh)

/-- The walker writes the next segment of a stop. A walk that meets a 65th busy faults every sequence in its work with
"directory" (R189). -/
def execWalkSegmentWrite (p : Fin 64) (clu : Fin 256) (stop : Fin 32) (stuck : Bool) (s : State) : Res :=
  match (pget s p).step, (pget s p).att with
  | some st, some a =>
    match st.segs.find? (fun g => g.clu == clu.val && g.stop == stop.val) with
    | none => .next s
    | some g =>
      if st.phase ≠ 1 || !walkTurn st g then .next s
      else if stuck then
        let fs := g.work.foldl (fun fs n => fs.modify n (fun f => if f = 0 then 0x0C else f)) st.faults
        .next (pupd p (fun q => { q with step := some { st with faults := fs } }) (csBusyN clu 65 none s))
      else .next (engRun (walkWrite p a st g) s)
  | _, _ => .next s

/-! ## The end of a step (R199, R235, R318, R319) -/

/-- Writes CTX and the TOKENS of the append range of a sequence that the step advanced. -/
def advanceSeq (p : Nat) (x : EditCtx) (e : Nat) : Eng Unit := do
  match seqIdx x.d (leSeq e) with
  | none => pure ()
  | some i => do
    let ctx := leCtx e + leNew e
    let b0 := leCtx e / 64
    engEach (fun lh => engEach (fun m =>
      pteAll p i x lh (b0 + m) (fun _ => true) (fun v => putFld v 46 40 (wantTokens ctx (b0 + m))))
      (List.range ((ctx - 1) / 64 + 1 - b0))) (List.range x.d.nlh)
    descAll p i (fun v => { v with ctx := ctx, state := if v.state = 1 then 0 else v.state })

/-- Ends a sequence's part in a step without advancing it; a fault of the step stays in its descriptor (R203). -/
def restSeq (p : Nat) (x : EditCtx) (e f : Nat) : Eng Unit := do
  match seqIdx x.d (leSeq e) with
  | none => pure ()
  | some i => descAll p i (fun v =>
      if v.state = 1 then { v with state := 0, fault := if f = 0 then v.fault else f } else v)

/-- A token record (Table ATT.7). -/
def tokenRec (token fault : Nat) (mixed clamp : Bool) : List Byte :=
  leBytes 8 (token + fault * 2 ^ 32 + b2n mixed * 2 ^ 40 + b2n clamp * 2 ^ 41)

/-- The sequence fault that an owner finds in the flags of a sequence's queries, decode or chunk (R230, R233). -/
def ownerFault (o : StepOut) : Nat := if o.fmt then 0x01 else if o.poison then 0x02 else if o.foreign || o.item then 0x0C else 0

/-- The fault each entry ends with. -/
def finalFaults (st : StepSt) (outs : List StepOut) : List Nat :=
  st.faults.zipIdx.map (fun e => if e.1 ≠ 0 then e.1 else ownerFault (listAt outs e.2 StepOut.none))

/-- Sends the token table. -/
def tokenTable (s : State) (st : StepSt) (recs : List Byte) : State :=
  match findPkt s st.pkt with
  | some k => hostPut (winFn k.win) (payAt k.bytes 16 8) recs s
  | none => s

/-- The writes of R199, the token table and the completion of a step whose cores have all halted. -/
def stepRetire (p : Nat) (st : StepSt) (outs : List StepOut) (s : State) : State :=
  let fs := finalFaults st outs
  let s := engRun (do
    let x ← curCtx p
    engEach (fun e => if e.2 = 0 then advanceSeq p x e.1 else restSeq p x e.1 e.2) (st.table.zip fs)) s
  let recs := (fs.zipIdx.map (fun e =>
    let o := listAt outs e.2 StepOut.none
    tokenRec (if e.1 = 0 then o.token.toNat else 0xFFFFFFFF) e.1 o.mixed o.clamp)).flatten
  let s := tokenTable { s with telem := { s.telem with steps := s.telem.steps + 1 } } st recs
  stepDone p st 0 ((pget s p).steps % 2 ^ 32 + (fs.filter (fun f => f != 0)).length * 2 ^ 32) 0 s

/-- Sends the token table of a step that ended early: no token and no fault in any record (R319; R235). -/
def earlyTable (st : StepSt) (s : State) : State :=
  let n := match findPkt s st.pkt with
    | some k => payAt k.bytes 8 2 + 1
    | none => 0
  tokenTable s st ((List.replicate n (tokenRec 0xFFFFFFFF 0 false false)).flatten)

/-- A step that ended early completes once its cores have halted: its sequences keep CTX and TOKENS. -/
def stepClose (p : Nat) (st : StepSt) (s : State) : State :=
  let s := engRun (do
    let x ← curCtx p
    engEach (fun e => restSeq p x e 0) st.table) s
  stepDone p st st.status 0 st.detail (earlyTable st s)

/-- Ends the running step early: every core of the model is halted as HALT_REQ does. -/
def stepStop (p status detail : Nat) (s : State) : State :=
  match (pget s p).step with
  | none => s
  | some st =>
    if st.phase = 2 then s
    else
      let st := { st with phase := 2, status := status, detail := detail, segs := [] }
      let s := (modelCores s p).foldl (fun s c => haltReqCore c s) (pupd p (fun q => { q with step := some st }) s)
      if (modelCores s p).all (fun c => (cget s c).halted) then stepClose p st s else s

/-- Whether every core of a partition's model has halted, with no START that still waits (R145). -/
def stepHalted (s : State) (p : Nat) : Bool :=
  (modelCores s p).all (fun c => (cget s c).halted && !(sq s c).startPend)

/-- Every core has halted and the walk has written its last segment (R217): the step retires; a step that ended early, as when a core
aborted (R319), completes with its status. -/
def execStepRetire (p : Fin 64) (outs : List StepOut) (s : State) : Res :=
  match (pget s p).step with
  | none => .next s
  | some st =>
    if st.phase = 0 || !stepHalted s p then .next s
    else if st.phase = 2 then .next (stepClose p st s)
    else if !st.segs.isEmpty then .next s
    else .next (stepRetire p st outs s)

/-- A step exceeds its LIMIT (R319). -/
def execStepLimitExpiry (p : Fin 64) (s : State) : Res :=
  match (pget s p).step with
  | none => .next s
  | some st =>
    match findPkt s st.pkt with
    | none => .next s
    | some k =>
      let lim := payAt k.bytes 12 4
      .next (if lim = 0 || st.phase = 2 then s else stepStop p 0x0505 0 s)

/-- Completes every queued launch of a partition with a status. -/
def launchesEnd (p status : Nat) (s : State) : State :=
  let q := pget s p
  (q.launches ++ q.held ++ q.held2).foldl (fun s id => complete id status 0 0 s)
    (pset p { q with launches := [], held := [], held2 := [] } s)

/-- Cancels a partition's running and queued steps (R319): how many launches, and the state. -/
def cancelSteps (p : Nat) (s : State) : Nat × State :=
  let q := pget s p
  let n := (q.launches ++ q.held ++ q.held2).length
  let run := match q.step with
    | some st => if st.phase = 2 then 0 else 1
    | none => 0
  (n + run, launchesEnd p 0x0308 (stepStop p 0x0308 0 s))

def execStepCancel (w : Fin 128) (s : State) : Res :=
  runCmd w 0x0402 noResv (fun k s =>
    let (n, s) := cancelSteps (hPart k.bytes) s
    complete k.id 0 (n % 65536) 0 s) s

end Sys2Proof.Machine
end

