-- ==== Sys2Proof/Machine/Link.lean ====
section
/-! DEFINITION. The link layer of the fabric ports: flits, credits, replay, and what becomes of messages when a port goes down
(R325 to R329, R340, R343). -/

namespace Sys2Proof.Machine

/-! ## Ports -/

/-- Register of port P(4h + j). -/
def fportKey (p o : Nat) : Nat := hubBase (p / 4) + 0x40100 + 16 * (p % 4) + o

/-- FAB_PORT_STAT.STATE (Table FAB.13): 3 is up, 4 retraining. -/
def portState (s : State) (p : Nat) : Nat := wFld (rget s (fportKey p 0)) 31 29

/-- Shows a port's state in GLB_OE_PRESENT and HUB_ID. -/
def publishPort (p : Nat) (s : State) : State :=
  let up := b2n (portState s p == 3)
  rupd (hubBase (p / 4)) (fun w => wPut w (6 + p % 4) (6 + p % 4) up) (rupd 0x14 (fun w => wPut w p p up) s)

def setPortState (p st : Nat) (s : State) : State := publishPort p (rupd (fportKey p 0) (fun w => wPut w 31 29 st) s)

def fport (s : State) (p : Nat) : FPort := stGet (fun _ => FPort.reset) s.fab.ports p
def fportSet (p : Nat) (v : FPort) (s : State) : State :=
  { s with fab := { s.fab with ports := stSet (fun _ => FPort.reset) s.fab.ports p v } }
def fportUpd (p : Nat) (f : FPort → FPort) (s : State) : State := fportSet p (f (fport s p)) s

/-- A port whose link layer starts afresh grants the floor of every channel (R327). -/
def FPort.fresh : FPort := { FPort.reset with owed := List.replicate 8 128, places := List.replicate 8 128 }

/-- The free shared places of a receive buffer: 1 024 less what channels hold above their floor (R327). -/
def sharedFree (u : FPort) : Nat := 1024 - sumNat (u.places.map (fun n => n - 128))

/-- Grants `n` more places to a channel. -/
def addPlaces (c n : Nat) (u : FPort) : FPort :=
  { u with places := u.places.set c (listAt u.places c 0 + n), owed := u.owed.set c (listAt u.owed c 0 + n) }

/-- A flit on a channel lets the channel have every free shared place, so a single busy channel holds 1 152. R327 does not say to
which channel the shared places go. DESIGN CHOICE (log entry 208). -/
def takeShared (c : Nat) (u : FPort) : FPort := addPlaces c (sharedFree u) u

/-- Consumed flits leave their places: the channel keeps its floor, and what it held above it is shared again. -/
def leavePlaces (c n : Nat) (u : FPort) : FPort :=
  let left := listAt u.places c 0 - n
  addPlaces c (128 - left) { u with places := u.places.set c left }

/-- Restarts the link layer of a port; FAB_PORT's setting stays. -/
def portRestart (p : Nat) (s : State) : State :=
  fportUpd p (fun u => { FPort.fresh with enabled := u.enabled, pulses := u.pulses }) s

/-- The device's own ID (R336). -/
def myId (s : State) : Nat := wFld (rget s (hubBase 0 + 0x40000)) 17 0

/-! ## Flits (Table FAB.3) -/

/-- The first channel that can return credits, and how many units of 8 flits. -/
def creditPick (u : FPort) : Option (Nat × Nat) :=
  ((List.range 8).find? (fun c => 8 ≤ listAt u.owed c 0)).map (fun c => (c, min 7 (listAt u.owed c 0 / 8)))

/-- The 256 bytes of a flit sent now: none is an idle flit. -/
def flitBytes (u : FPort) (seq : Nat) (f : Option Flit) (nak : Bool) : List Byte :=
  let (crch, n) := (creditPick u).getD (0, 0)
  let g : Flit := f.getD { chan := 0, first := false, last := false, dest := 0, src := 0, payload := [], poison := false, head := [] }
  let b0 := b2n g.first + 2 * b2n g.last + 4 * (g.chan / 2 % 4) + 16 * (g.chan % 2) + 32 * crch
  let b1 := (g.payload.length + 7) / 8 + 32 * n
  let body := leBytes 1 b0 ++ leBytes 1 b1 ++ leBytes 3 (g.dest % 2 ^ 18) ++ leBytes 3 (g.src % 2 ^ 18) ++ fitBytes 240 g.payload ++
    leBytes 2 seq ++ leBytes 2 (u.rxSeq + b2n nak * 2 ^ 15)
  body ++ leBytes 4 (crc32c body)

/-- Sends one flit on the fibre of a port; the credits it returns are no longer owed. -/
def emitFlit (p seq : Nat) (f : Option Flit) (nak : Bool) (s : State) : State :=
  let u := fport s p
  let out := (p, flitBytes u seq f nak, f.any (fun g => g.poison))
  let u' := match creditPick u with
    | some (c, n) => { u with owed := u.owed.set c (listAt u.owed c 0 - 8 * n) }
    | none => u
  let s := fportSet p u' s
  let s := { s with fab := { s.fab with flits := s.fab.flits ++ [out] } }
  if f.isSome then tallyHub (p / 4) 0x0520 1 none s else s

/-- An idle flit: its FSEQ repeats that of the last flit sent. -/
def emitIdle (p : Nat) (nak : Bool) (s : State) : State := emitFlit p (((fport s p).nextSeq + 4095) % 4096) none nak s

/-- Returns the credits a port owes, in idle flits. -/
def grantAll (p : Nat) : Nat → State → State
  | 0, s => s
  | n + 1, s => if portState s p = 3 && (creditPick (fport s p)).isSome then grantAll p n (emitIdle p false s) else s

/-- Sends waiting flits while they hold credits and the replay buffer has room (R327, R328). -/
def pumpPort (p : Nat) : Nat → State → State
  | 0, s => s
  | n + 1, s =>
    let u := fport s p
    match findIdx? (fun f : Flit => 0 < listAt u.cred f.chan 0) u.waiting with
    | none => s
    | some i =>
      match u.waiting[i]? with
      | none => s
      | some f =>
        if portState s p ≠ 3 || 2048 ≤ u.replay.length then s
        else
          pumpPort p n (emitFlit p u.nextSeq (some f) false (fportSet p { u with
            waiting := u.waiting.eraseIdx i, nextSeq := (u.nextSeq + 1) % 4096
            replay := u.replay ++ [(u.nextSeq, f)], cred := u.cred.set f.chan (listAt u.cred f.chan 0 - 1) } s))

def pump (p : Nat) (s : State) : State := pumpPort p (fport s p).waiting.length s

/-- The flits of a message: 240 payload bytes each (R326). -/
def msgFlits (m : FMsg) : List Flit :=
  let n := max 1 ((m.bytes.length + 239) / 240)
  (List.range n).map (fun i =>
    { chan := 2 * m.cls + m.vc, first := i == 0, last := i == n - 1, dest := m.dest, src := m.src
      payload := (m.bytes.drop (240 * i)).take 240
      poison := m.poison.any (fun b => 240 * i < 32 + 64 * b + 64 && 32 + 64 * b < 240 * i + 240)
      head := m.bytes.take 32 })

/-- Queues a message on a port. -/
def sendOn (p : Nat) (m : FMsg) (s : State) : State :=
  pump p (fportUpd p (fun u => { u with waiting := u.waiting ++ msgFlits m }) s)

/-- The places of a consumed message in its port's receive buffer are granted again. -/
def freePlaces (p : Nat) (m : FMsg) (s : State) : State :=
  if 16 ≤ p then s
  else
    let c := 2 * m.cls + m.vc
    grantAll p 8 (fportUpd p (leavePlaces c (msgFlits m).length) s)

/-! ## Message headers (Table FAB.6) -/

def mLen (b : List Byte) : Nat := leAt b 0 2
def mKind (b : List Byte) : Bool := bitAt (leAt b 2 1) 0
def mOp (b : List Byte) : Nat := fld (leAt b 2 1) 2 1
def mPartial (b : List Byte) : Bool := bitAt (leAt b 2 1) 3
def mError (b : List Byte) : Bool := bitAt (leAt b 2 1) 4
def mGroup (b : List Byte) : Nat := leAt b 4 2 % 1024
def mTag (b : List Byte) : Nat := leAt b 8 4
def mCount (b : List Byte) : Nat := leAt b 12 4 % 2 ^ 18
def mDst (b : List Byte) : Nat := leAt b 20 2 % 1024
def mSrc (b : List Byte) : Nat := leAt b 22 2 % 1024
def mHops (b : List Byte) : Nat := leAt b 24 1 % 64

/-- A message header: length, flag byte, group, tag, COUNT, source device, streams. -/
def mkHead (len flags group tag count src dst sstr : Nat) : List Byte :=
  leBytes 2 len ++ leBytes 1 flags ++ leBytes 1 0 ++ leBytes 2 group ++ leBytes 2 0 ++ leBytes 4 tag ++ leBytes 4 count ++
    leBytes 4 src ++ leBytes 2 dst ++ leBytes 2 sstr ++ zeros 8

/-! ## Look-up (R338) -/

def routeEntry (s : State) (i : Nat) : Nat := stGet (fun _ => 0) s.fab.route i

/-- The unicast entry of a destination: digits are compared from the top. -/
def unicastIdx (me dest : Nat) : Nat :=
  if dest / 4096 ≠ me / 4096 then 128 + dest / 4096
  else if dest / 64 % 64 ≠ me / 64 % 64 then 64 + dest / 64 % 64 else dest % 64

/-- The entry that a message's first flit looks up, by class, header and destination. -/
def lookEntry (s : State) (cls dest : Nat) (head : List Byte) : Nat :=
  routeEntry s (if cls = 2 && mKind head then 256 + mGroup head else unicastIdx (myId s) dest)

/-- A message of this device with its look-up. -/
def looked (s : State) (m : FMsg) : FMsg := { m with entry := lookEntry s m.cls m.dest m.bytes }

/-- Puts a message of this device in its agent's queue. -/
def post (m : FMsg) (s : State) : State := { s with fab := { s.fab with inbox := s.fab.inbox ++ [(16, looked s m)] } }

/-- The up ports of a mask. -/
def maskPorts (s : State) (mask st : Nat) : List Nat := (List.range 16).filter (fun p => bitAt mask p && portState s p == st)

/-- The member of a port list that the hash of destination and source stream picks (R339). -/
def hashPick (l : List Nat) (mask src sstr dest : Nat) : Option Nat :=
  if l.isEmpty then none else l[Config.portHash (sstr + 1024 * src) dest mask % l.length]?

/-- A notice between stream agents, in the response class: a refusal with its status (kind 0) or credits with their number
(kind 1). The spec gives no layout for them. DESIGN CHOICE (log entry 41). -/
def streamNote (kind v dev dst sstr : Nat) (s : State) : State :=
  post { cls := 1, vc := 0, dest := dev, src := myId s, poison := [], mask := none, entry := 0
         bytes := mkHead 5 0 0 0 0 (myId s) dst sstr ++ leBytes 1 kind ++ leBytes 4 v } s

/-! ## Streams -/

/-- The physical cluster and stream that a stream name selects. -/
def streamOf (s : State) (d : Nat) : Option (Nat × Nat) := (clPhys s (fld d 7 4) (fld d 3 0)).map (fun k => (k, fld d 9 8))

/-- The name of a stream of a physical cluster. -/
def streamName (s : State) (k i : Nat) : Nat :=
  match twLog s (cluTower k), clLog s k with
  | some t, some l => i * 256 + t * 16 + l
  | _, _ => 0

def strmReg (s : State) (k i o : Nat) : Word := cluReg s k (0x300 + 16 * i + o)
def strmBase (s : State) (k i : Nat) : Nat := 64 * wFld (strmReg s k i 0) 15 0
def strmValid (s : State) (k i : Nat) : Bool := wBit (strmReg s k i 0) 31
def strmRecv (s : State) (k i : Nat) : Bool := wBit (strmReg s k i 0) 30

/-- The port whose hub's agent serves a stream: the one picked for its paired device (R341), else P0. -/
def strmPort (s : State) (k i : Nat) : Nat :=
  let dst := strmReg s k i 4
  let mask := fld (lookEntry s 0 (wFld dst 27 10) []) 15 0
  (hashPick (maskPorts s mask 3) mask (myId s) (streamName s k i) (wFld dst 27 10)).getD 0

/-- The refusal of an agent's access to a stream's SRAM: it carries the stream's partition (R276, R341). A cluster of no partition is
not checked. DESIGN CHOICE (log entry 209). -/
def agentRefusal (s : State) (k off n : Nat) (write : Bool) : Option (Nat × Nat) :=
  (cluPart s k).bind (fun p => tgtRefusal s (.part p) (.sram k off) n write)

/-- Counts and records a refused access of an agent at its hub's interface (R188, R276). -/
def agentRefuse (k i : Nat) (r : Nat × Nat) (s : State) : State :=
  if r.1 ≠ 0x0401 then s
  else hubRefused (strmPort s k i / 4) r.2 (((cluPart s k).map Who.part).getD .nobody) (countRaw (.sram k 0) r.2 s)

/-- A word of a control block: 0 TAIL, 1 HEAD, 2 STATUS. A word that is refused or delivers poison reads as zero. -/
def strmWord (k i w : Nat) (s : State) : Nat × State :=
  let off := strmBase s k i + 4 * w
  if 2 ^ 22 < off + 4 then (0, s)
  else
    match agentRefusal s k off 4 false with
    | some r => (0, agentRefuse k i r s)
    | none =>
      let (d, s) := csReadBytes k off 4 s
      (leNat (d.getD []), s)

def strmPut (k i w v : Nat) (s : State) : State :=
  let off := strmBase s k i + 4 * w
  if 2 ^ 22 < off + 4 then s
  else
    match agentRefusal s k off 4 true with
    | some r => agentRefuse k i r s
    | none => csWriteBytes k off (leBytes 4 v) s

/-- Writes the status of a failed message into the sender's STATUS word (R341, R343). -/
def strmFail (k i status : Nat) (s : State) : State :=
  if !strmValid s k i then s
  else
    let (w, s) := strmWord k i 2 s
    strmPut k i 2 (status % 65536 + (w / 65536 + 1) % 65536 * 65536) s

/-- A message that is not delivered: a put's sender learns the status (R339, R343). -/
def refusePut (head : List Byte) (cls src status : Nat) (s : State) : State :=
  if cls ≠ 0 || mKind head then s
  else if src = myId s then
    match streamOf s (mSrc head) with
    | some (k, i) => strmFail k i status s
    | none => s
  else streamNote 0 status src (mSrc head) (mDst head) s

/-- Drops a message at a hub's port (R339). -/
def dropMsg (p : Nat) (head : List Byte) (cls src : Nat) (s : State) : State :=
  refusePut head cls src 0x0502 (rupd (fportKey p 4) (fun w => wSatAdd w 9 4 1) s)

/-- A port goes down: the messages whose flits remain in its buffers are dropped (R328, R340), and its link layer restarts. -/
def portDown (p st : Nat) (s : State) : State :=
  let u := fport s p
  let gone := (u.replay.map Prod.snd ++ u.waiting).filter (fun f => f.last)
  portRestart p (gone.foldl (fun s f => dropMsg p f.head (f.chan / 2) f.src s) (setPortState p st s))

/-- An event of a fabric port in its hub's log. -/
def portErr (p code detail : Nat) (s : State) : State :=
  logErr { hub := p / 4, code := code, part := none, source := srcIndex 10 p, engine := 16, logical := 0, addr := 0,
           detail := detail } s

end Sys2Proof.Machine
end

