-- ==== Sys2Proof/Machine/Lost.lean ====
section
/-! DEFINITION. Losing things: changes of the logical map, die resets, the assignment clear, faulted partitions, TDI errors,
lost dies and lost hubs (R18 to R26, R73, R356, R357, R403, R410 to R414, R425, R426). -/

namespace Sys2Proof.Machine

/-! ## Edges and bridges (Tables PKG.5 and NOC.11) -/

/-- A direction of an edge: 2 · edge when its first-named end sends, else 2 · edge + 1. Hub edges name the hub first. -/
def dirSent (e : Nat × Bool) : Nat := 2 * e.1 + b2n !e.2
def dirRecv (e : Nat × Bool) : Nat := 2 * e.1 + b2n e.2

/-- How many lane groups of a direction are up. -/
def groupsUp (s : State) (d : Nat) : Nat := ((List.range 12).filter (fun g => nsHas s.boot.brgUp (12 * d + g))).length

/-- The towers at the ends of an edge. -/
def edgeTowers (i : Nat) : List Nat := (List.range 16).filter (fun n => (List.range 4).any (fun e => (twEdge n e).1 == i))

/-- The hubs at the ends of an edge. -/
def edgeHubs (i : Nat) : List Nat :=
  if i < 24 then [] else if i < 40 then [(i - 24) / 4] else [i - 40, (i - 39) % 4]

/-- Whether the dies of an edge are there: neither a lost tower nor an absent hub. -/
def edgeEnds (s : State) (i : Nat) : Bool :=
  !(edgeTowers i).any (fun n => nsHas s.lostTw n) && !(edgeHubs i).any (fun h => hubAbsent s h)

/-- An edge is up when both directions have a group up (R20, R359). -/
def edgeUp (s : State) (i : Nat) : Bool :=
  edgeEnds s i && decide (0 < groupsUp s (2 * i)) && decide (0 < groupsUp s (2 * i + 1))

/-- Whether a live retraining runs on a direction of an edge. -/
def edgeTraining (s : State) (i : Nat) : Bool := nsHas s.boot.brgTrain (2 * i) || nsHas s.boot.brgTrain (2 * i + 1)

/-- Whether an edge is to be excluded for a retraining that has not started (R272). -/
def edgeDue (s : State) (i : Nat) : Bool := nsHas s.boot.brgDue (2 * i) || nsHas s.boot.brgDue (2 * i + 1)

/-! ## The logical map (R25, R356, R357) -/

/-- The logical cores of a physical tower. -/
def towerCores (s : State) (n : Nat) : Nat :=
  ((List.range 272).filter (fun i => (coreName s (n * 272 + i)).isSome)).length

/-- Writes the identity registers of the map: TWR_ID, GLB_PKG_PRESENCE and GLB_CORE_COUNT (Tables PKG.9 to PKG.13). TWR_ID of a
lost tower keeps what it held, with LOG_VALID cleared (R24). -/
def publishMap (s : State) : State :=
  let s := iter 16 (fun n s => rupd (towerBase n) (fun w =>
    match twLog s n with
    | some t => wPut (wPut (wPut w 19 16 t) 15 15 1) 8 0 (towerCores s n)
    | none => if nsHas s.lostTw n then wPut w 15 15 0 else wPut (wPut w 15 15 0) 8 0 0) s) s
  let pres := sumNat ((List.range 16).map (fun n => if towerCores s n = 0 then 0 else 2 ^ n))
  rupd 0x18 (fun w => wPut w 12 0 (sumNat ((List.range 16).map (towerCores s))))
    (rupd 0x10 (fun w => wPut w 31 16 pres) s)

/-- A change of the logical map: registers and GLB_MAP_GEN change together, and its commit joins the queue of every network
interface, which still holds the map before it (R25, R274). -/
def mapChange (m : LogMap) (s : State) : State :=
  rupd 0x1C (fun w => w + 1) (publishMap { s with map := m, net := { s.net with oldMaps := s.net.oldMaps ++ [s.map] } })

/-- Removes a tower, its clusters and its cores from the map. -/
def mapNoTower (n : Nat) (m : LogMap) : LogMap :=
  { tw := stDel m.tw n, cl := stDrop m.cl (16 * n) 16, core := stDrop m.core (272 * n) 272 }

/-- Shows which hubs run in GLB_PKG_PRESENCE. -/
def publishHubs (s : State) : State := rupd 0x10 (fun w => wPut w 15 12 (hubMask s)) s

/-! ## Clears and resets -/

/-- The assignment clear of a core and its NBUs (R73, R85, R164, R428, R443). -/
def assignCore (c : Nat) (s : State) : State :=
  let s := spClearWritten c s
  let s := [0x30, 0x34, 0x104, 0x108, 0x10C, 0x110, 0x114, 0x118, 0x300, 0x304].foldl (fun s o => corSet c o 0 s) s
  let s := iter 31 (fun i s => corSet c (0x404 + 4 * i) 0 s) s
  let s := iter 15 (fun i s => corSet c (0x244 + 4 * i) 0 s) s
  let s := cupd c (fun k => { k with merges := [], seq := SeqSt.reset, mxe := MxeSt.reset, vxe := VxeSt.reset,
                                     mov := List.replicate 8 MovCh.reset }) s
  { nbuClear (2 * c + 1) (nbuClear (2 * c) s) with ctrs := stDrop s.ctrs (8 * c + 4) 4 }

/-- The assignment clear of a cluster (R76, Tables CORE.15, KV.17, NOC.8 and FAB.14). -/
def assignClu (k : Nat) (s : State) : State :=
  let s := csClearWritten k s
  let s := [0x0, 0x4, 0x120, 0x124, 0x14C, 0x254, 0x30C, 0x31C, 0x32C, 0x33C].foldl (fun s o => cluSet k o 0 s) s
  { s with ctrs := stDrop s.ctrs (34816 + 16 * k + 8) 8 }

/-- The physical core sites of a cluster that are in the map. -/
def cluCores (s : State) (k : Nat) : List Nat :=
  ((List.range 17).map (fun i => 17 * k + i)).filter (fun c => (coreName s c).isSome)

/-- Assigns clusters with their cores. -/
def assignAll (ks : List Nat) (s : State) : State :=
  ks.foldl (fun s k => (cluCores s k).foldl (fun s c => assignCore c s) (assignClu k s)) s

/-- The bank columns at risk (R369). -/
def riskCols (s : State) : List Nat := (s.cols.filter (fun e => e.2.state == 1)).map Prod.fst

/-- The reset of a tower's die with its layers (R9, R30, R81): registers, engines, columns, frame tags, written bits, receive
phases and counters. What repair decided stays in the test record, which takes a column at risk as retired (Table BOOT.8). -/
def towerReset (n : Nat) (s : State) : State :=
  let inTw (x : Nat) : Bool := x / 272 == n
  let s := { s with
    regs := stDrop s.regs (towerBase n) 0x800000
    cores := stDrop s.cores (272 * n) 272
    cols := stDrop s.cols (544 * n) 544
    ftag := stDrop s.ftag (ftKey (544 * n) 0) (544 * 8192)
    spWr := nsDrop s.spWr (spWrKey (272 * n) 0) (272 * 8192)
    csWr := nsDrop s.csWr (csBlk (16 * n) 0) (16 * 65536)
    csQueue := s.csQueue.filter (fun q => q.clu / 16 != n)
    portResp := stDrop s.portResp (32 * n) 32
    remote := s.remote.filter (fun r => !inTw r.src && !inTw r.dst)
    remoteRef := s.remoteRef.filter (fun r => !inTw r.src)
    ctrs := stDrop (stDrop s.ctrs (8 * 272 * n) (8 * 272)) (34816 + 256 * n) 256
    refRate := stDel s.refRate n
    frozen := nsDel s.frozen n
    zeroQ := stDrop s.zeroQ (16 * n) 16
    reload := s.reload.filter (fun e => !inTw e.1)
    boot := { s.boot with retCol := ((riskCols s).filter (fun col => col / 544 == n)).foldl nsAdd s.boot.retCol }
    pwr := { s.pwr with
      level := stDrop s.pwr.level (16 * n) 16, clkBad := stDrop s.pwr.clkBad (16 * n) 16
      phase := stDrop s.pwr.phase (8 * n) 8 } }
  s

/-- A tower's die goes into reset: its home hub keeps answering TWR_ID with the values held before and TWR_CLKMON with its clocks
(R24); its layers' phases are no longer trained. -/
def towerHold (n : Nat) (s : State) : State :=
  rset (towerBase n + 0x20) (wPut (rget s (towerBase n + 0x20)) 23 16 0)
    (rset (towerBase n) (rget s (towerBase n)) (towerReset n s))

/-! ## A faulted partition (R411) -/

/-- Whether the directory's free-frame bitmap holds a frame as free. -/
def frameListed (s : State) (k : Nat) (d : DirSt) (i : Nat) : Bool :=
  bitAt (memGet s.csram (csKey k (offFree d + i / 8))).toNat (i % 8)

/-- Queues every pool frame that a directory holds for zeroing (R403, R411). -/
def framesToZero (p : Nat) (d : DirSt) (s : State) : State :=
  (partClus s p).foldl (fun s k =>
    iter (32 * poolFrames d) (fun i s =>
      let f := i % poolFrames d + d.kvFirst
      let pos := i / poolFrames d
      match keyOf s.map.core (fun y => y / 17 == k) (pos / 2 + 1) with
      | some c =>
        let col := 2 * c + pos % 2
        if frameListed s k d i || (colget s col).state == 2 || (stGet (fun _ => []) s.zeroQ k).contains (ftKey col f) then s
        else queueZero k col f false s
      | none => s) s) s

/-- The pool slots in use become units to zero. -/
def slotSpans (q : Pool) : List ZeroSpan :=
  q.used.map (fun i => { tier2 := true, col := 0, lo := 4 * i, hi := 4 * i + 4 })

/-- Disables the streams of a partition's clusters and discards their contexts' local contributions (R411, R428). -/
def dropStreams (ks : List Nat) (s : State) : State :=
  let mine (x : Nat) : Bool := ks.contains (x / 4)
  let s := ks.foldl (fun s k => iter 4 (fun i s => cluUpd k (0x300 + 16 * i) (fun w => wPut w 31 31 0) s) s) s
  { s with fab := { s.fab with
      strmCred := s.fab.strmCred.filter (fun e => !mine e.1)
      strmIdx := s.fab.strmIdx.filter (fun e => !mine e.1)
      strmPend := s.fab.strmPend.filter (fun x => !mine x) } }

/-- Withdraws every area of a partition: directory, attention area, streams, tier-2 pool, swap area and model (R411). -/
def dropAreas (p : Nat) (s : State) : State :=
  let ks := partClus s p
  let q := pget s p
  let s := match q.dir with
    | some d => dirDrop p (framesToZero p d s)
    | none => s
  let s := [0x140, 0x144, 0x148].foldl (fun s o => kvAll p o (fun _ => 0) s) s
  let s := dropStreams ks s
  let spans := slotSpans (poolGet s p)
  let s := poolSet p Pool.reset s
  let s := rset (glzKey p 8) 0 (rset (glzKey p 4) 0 (rupd (glzKey p 0) (fun v => wPut v 31 30 0) s))
  pupd p (fun q => { q with
    att := none, model := none, loading := none, swap := none, rekey := none, preempt := false, stuck := false
    glz := { q.glz with area := false, dataBase := 0, metaBase := 0, nhs := 0, used := [], sweep := false }
    zeroLeft := q.zeroLeft ++ spans }) s

/-- The packets of a partition that wait for something its fault ends: a load, a swap-in, its COMMITs. -/
def stuckPkts (q : PartSt) : List Nat :=
  (match q.loading with
    | some l => [l.pkt]
    | none => []) ++
  (match q.swap with
    | some w => [w.pkt]
    | none => []) ++
  (match q.dir with
    | some d => d.pkt1.toList ++ d.pkt2.toList
    | none => [])

/-- Ends the running step at once: its cores halt, its token table holds no token (R235), and it completes with `status`, or with the
status of its earlier end. -/
def stepEndNow (p status : Nat) (s : State) : State :=
  match (pget s p).step with
  | none => s
  | some st =>
    let s := (modelCores s p).foldl (fun s c => haltReqCore c s) s
    stepDone p st (if st.phase = 2 then st.status else status) 0 (if st.phase = 2 then st.detail else 0) (earlyTable st s)

/-- A partition is faulted (R411). One that is absent or releasing stays as it is (Table SEC.1). -/
def faultPart (p : Nat) (s : State) : State :=
  let q := pget s p
  if q.state = 0 || q.state = 3 then s
  else
    let s := launchesEnd p 0x0308 (stepEndNow p 0x0502 s)
    let s := (stuckPkts q).foldl (fun s id => complete id 0x0502 0 0 s) s
    pupd p (fun q => { q with state := 4 }) (dropAreas p s)

/-! ## TDI errors (R425, R426) -/

/-- Row groups of a column, and the 4 KiB units of a tier-2 window in 64 KiB units. -/
def colSpan (col : Nat) : ZeroSpan := { tier2 := false, col := col, lo := 0, hi := 32768 }
def winSpan (w : Nat × Nat) : List ZeroSpan :=
  if w.1 ≤ w.2 then [{ tier2 := true, col := 0, lo := 16 * w.1, hi := 16 * (w.2 + 1) }] else []

/-- Everything a partition's zeroing writes (R403): every column of its quarter-towers in service or at risk, and both tier-2
windows. A tower that is lost is done by its rejoin. -/
def zeroSpans (s : State) (p : Nat) : List ZeroSpan :=
  ((partCores s p).flatMap (fun c => [2 * c, 2 * c + 1])).filterMap (fun col =>
    if (colget s col).state = 2 then none else some (colSpan col)) ++
  (if wBit (rget s (hubBase 0 + 0x30018 + 32 * p)) 31 then (partWindows s p).flatMap winSpan else [])

/-- The quarter-towers of a mask. -/
def maskQts (m : Nat) : List Nat := (List.range 64).filter (fun q => bitAt m q)

/-- Starts the zeroing of a partition and sets its dirty bits (R403, R416). -/
def startZeroing (p : Nat) (s : State) : State :=
  let q := pget s p
  let ws := (partWindows s p).filter (fun w => w.1 ≤ w.2)
  let s := pupd p (fun q => { q with zeroLeft := zeroSpans s p }) s
  { s with sec := { s.sec with
      dirty := (maskQts q.mask).foldl nsAdd s.sec.dirty
      dirtyT2 := s.sec.dirtyT2 ++ ws.filter (fun w => !s.sec.dirtyT2.contains w) } }

/-- A TDI enters ERROR (R426): its steps are cancelled, its partition is faulted, zeroing starts and the assignment clears
run. -/
def tdiError (p : Nat) (s : State) : State :=
  let q := pget s p
  if !(q.tdi = 1 || q.tdi = 2) then s
  else
    let s := faultPart p (stepEndNow p 0x0308 s)
    let s := pupd p (fun q => { q with tdi := 3 }) s
    let s := startZeroing p s
    assignAll (partClus s p) ((partCores s p).foldl (fun s c => cupd c (fun k => { k with halted := true }) s) s)

/-! ## Lost dies and hubs (R26, R410, R413, R414) -/

/-- The partitions that hold a quarter-tower with a cluster of a physical tower. -/
def towerParts (s : State) (n : Nat) : List Nat :=
  (s.parts.filter (fun e => e.2.state != 0 && (List.range 16).any (fun i => cluPart s (16 * n + i) == some e.1))).map Prod.fst

/-- Outstanding transactions whose paths cross a fenced die complete as Fenced, those among them whose response travels (R273). -/
def fenceTxs (n : Nat) (s : State) : State :=
  let cut (t : NetTx) : Bool := bitAt t.mask n && t.st != 0
  let dead := (s.net.txs.filter cut).map (·.id)
  let s := if dead.isEmpty then s else dropRows dead.contains s
  let s := if dead.isEmpty then s else
    s.t2q.foldl (fun s e => pairSet e.1 { e.2 with queue := e.2.queue.filter (fun r => !dead.contains r.id) } s) s
  { s with
    net := { s.net with
      txs := s.net.txs.map (fun t => if cut t then { t with st := 6, entry := 0, ans := 0, status := 0x0502, resp := none } else t)
      resv := if dead.isEmpty then s.net.resv else
        (s.net.resv.map (fun e => (e.1, e.2.filter (fun i => !dead.contains i)))).filter (fun e => !e.2.isEmpty) } }

/-- Remote writes of a surviving core whose path crosses the die come back as Fenced (R273). -/
def fenceRemote (n : Nat) (s : State) : State :=
  let cut (r : RemoteWr) : Bool := r.src / 272 == n || r.dst / 272 == n || bitAt (pathTowers r.path) n
  { s with
    remote := s.remote.filter (fun r => !cut r)
    remoteRef := s.remoteRef ++ (s.remote.filter (fun r => cut r && r.src / 272 != n)).map
      (fun r => { src := r.src, ch := r.ch, status := 0x0502 }) }

/-- One record of code 0x0301 for each faulted partition, or one with none (Tables RAS.6, RAS.7). -/
def lossRecords (n : Nat) (ps : List Nat) (s : State) : State :=
  let rec1 (p : Option Nat) (s : State) : State :=
    logErr { hub := homeHub n, code := 0x0301, part := p, source := srcTower n, engine := 0, logical := 0, addr := 0,
             detail := 0 } s
  if ps.isEmpty then rec1 none s else ps.foldl (fun s p => rec1 (some p) s) s

/-- A tower's die is lost (R410, Table RAS.7). -/
def loseTower (n : Nat) (s : State) : State :=
  if nsHas s.lostTw n then s
  else
    let s := rupd (towerBase n + 0x20) (fun w => wPut w 7 7 1) s
    let ps := towerParts s n
    let s := fenceRemote n (fenceTxs n { s with lostTw := nsAdd s.lostTw n })
    let s := iter 272 (fun i s => breakBarriers (272 * n + i) s) s
    let s := ps.foldl (fun s p => tdiError p s) s
    let s := ps.foldl (fun s p => faultPart p s) s
    let s := mapChange (mapNoTower n s.map) (towerHold n s)
    lossRecords n ps s

/-- Takes the ports of a hub away (R413). The messages whose flits a port still held are dropped (R340). -/
def portsGone (h : Nat) (s : State) : State :=
  iter 4 (fun j s =>
    let p := 4 * h + j
    let s := rset (fportKey p 0) 0 (portDown p 0 s)
    { s with fab := { s.fab with ports := stDel s.fab.ports p } }) s

/-- A hub H1 to H3 is lost (R413): H0 takes its duties, its packages, ports, contexts, maintenance and log are gone, and H0
logs code 0x0302 with the lost hub's UE_OPEN. `kept` says that its packages were placed in self-refresh. -/
def loseHub (h : Nat) (kept : Bool) (s : State) : State :=
  let u := hget s h
  if u.lost then s
  else
    let open' := (u.log.filter (fun e => (e.2.cls == 1 || e.2.cls == 2) && e.2.st != 3)).length
    let s := rupd (hubBase h + 0x20) (fun w => wPut w 7 7 1) s
    let s := if kept then hset h { u with lost := true, kept := true } s
      else hset h { HubSt.reset with lost := true } s
    let s := rupd (hubBase h) (fun w => wPut w 15 6 0) (portsGone h s)
    let s := { s with
      fab := { s.fab with ctxs := s.fab.ctxs.filter (fun x => x.hub != h) }
      mnt := { s.mnt with jobs := s.mnt.jobs.map (fun (j : MntJob) => if j.hub = h && j.state ≤ 1 then { j with state := 4 } else j) }
      t2q := s.t2q.filter (fun e => e.1 / 12 != h) }
    let s := { s with net := { s.net with txs := s.net.txs.map (fun (t : NetTx) =>
      if t.slot ≠ 0 && t.st ≠ 6 && 30000 ≤ t.key && t2Hub t.off = h then
        { t with st := 6, entry := 0, status := 0x0502, resp := none } else t) } }
    let s := publishHubs (rupd (hubBase 0) (fun w => wPut w (1 + h) (1 + h) 1) s)
    logErr { hub := 0, code := 0x0302, part := none, source := srcIndex 1 h, engine := 0, logical := 0, addr := 0,
             detail := open' } s

/-- H0 is lost (R414): FAULT_N is asserted, every die stops for want of a clock and the host link goes down. -/
def loseH0 (s : State) : State :=
  rupd 0x100 (fun w => wPut w 10 10 0) (hset 0 { hget s 0 with lost := true }
    { s with fatal := true, faultN := true, pwr := { s.pwr with level := [] } })

/-- A die by number: 0 to 15 towers, 16 + h hubs. -/
def loseDie (d : Nat) (s : State) : State :=
  if d < 16 then loseTower d s else if d = 16 then loseH0 s else loseHub (d - 16) false s

/-- The dies that lose their root when a die's repeater stops (R26). -/
def downstream (d : Nat) : List Nat :=
  if d = 17 then [18, 3, 6, 7, 11, 10, 13, 14, 15]
  else if d = 18 then [10, 13, 14, 15]
  else if d = 19 then [4, 8, 9, 12]
  else if d = 1 then [5] else if d = 7 then [6] else if d = 14 then [10] else if d = 8 then [9]
  else []

/-- The clock-monitor register of a die. -/
def monKey (d : Nat) : Nat := if d < 16 then towerBase d + 0x20 else hubBase (d - 16) + 0x20

/-- A die loses its root: with the root every clock divided from it goes, LOST is set, the die is lost, and so is every die
downstream of it, for its repeater stops (R26, R32, R413). -/
def loseRoot (d : Nat) (s : State) : State :=
  (d :: downstream d).foldl (fun s x => loseDie x (rupd (monKey x) (fun w => wPut (wPut w 7 7 1) 4 0 0) s))
    { s with pwr := { s.pwr with rootLost := nsAdd s.pwr.rootLost d } }

/-- Whether a die's logic rail is on: VT_LOG n or VH_LOG h. -/
def logicRail (s : State) (d : Nat) : Bool := nsHas s.pwr.rails (if d < 16 then 4 + d else d - 16)

/-- Whether no root reaches a die: it lost its own, or the repeater of a die upstream stopped with the root that die receives or
with its logic rail (R26). -/
def noRoot (s : State) (d : Nat) : Bool :=
  nsHas s.pwr.rootLost d ||
    (List.range 20).any (fun e => (downstream e).contains d && (nsHas s.pwr.rootLost e || !logicRail s e))

end Sys2Proof.Machine
end

