-- ==== Sys2Proof/Machine/Reset.lean ====
section
/-! DEFINITION. The reset of every die, the turn-off of the rails, and the beginning of a start-up (R9, R36, R37, R347, R349,
R353, R458). -/

namespace Sys2Proof.Machine

/-- Every die is reset with the rails up (R458). A column at risk retires at the restart from its record (Table BOOT.8). What lies on VAUX, in fuses, in non-volatile stores and in memories whose
zeroing start-up performs stays, and what repair decided stays in the test records; so do FORCE_FULL (Table BOOT.11) and FAULT_N (R459).
The brake is released, whatever its sources still assert. DESIGN CHOICE (log entry 187). -/
def deviceReset (s : State) : State :=
  let keepFull := wFld (rget s 0x48) 30 30
  let s' : State := { State.reset with
    pending := s.pending
    t1 := s.t1, t1Chk := s.t1Chk, t2 := s.t2, t2poison := s.t2poison
    sp := s.sp, spChk := s.spChk, csram := s.csram, csChk := s.csChk
    ns := s.ns, fresh := s.fresh, hostOut := s.hostOut, faultN := s.faultN, mirror := s.mirror
    nextPkt := s.nextPkt, nextTag := s.nextTag }
  let s' : State := { s' with
    pwr := { s.pwr with level := [], loopC := [], loopW := [], thermW := [], clkBad := [], rootLost := [], meas := [], phase := [], powSum := [], powCnt := 0,
                        powCoarse := [], descend := false }
    boot := { s.boot with next := none, stopped := false, late := false, result := 0, warm := false, brgUp := [],
                          brgDue := [], brgTrain := [], retCol := (riskCols s).foldl nsAdd s.boot.retCol }
    therm := { s.therm with same := [], tw := s.therm.tw.map (fun e =>
      (e.1, { TwrTh.reset with cone := e.2.cone, life := e.2.life, turns := e.2.turns })), clear := 0, warn := false }
    sec := { s.sec with version := false, caps := false, algs := false, falcon := false, sessions := [], ideLink := false,
                        ideLinkSet := 0, idePf := false, idePfSet := 0 } }
  rupd 0x48 (fun w => wPut w 30 30 keepFull) s'

/-- A start-up begins: a start-up clears GLB_BOOT_STAT.FATAL and with it FAULT_N (R347, R459). -/
def startBegin (full : Bool) (s : State) : State :=
  { s with
    fatal := false, faultN := false, stage := 0, booted := false
    boot := { s.boot with next := some 0, full := full || wBit (rget s 0x48) 30 || s.boot.cold, cold := false, run := (s.boot.run + 1) % 2 ^ 32,
                          stopped := false, late := false, result := 0, warm := false, reuse := [] } }

/-- The rails in the order in which stage 0 powers them (R36): VBUS, VH_LOG 0, VH_LOG 1 to 3, each tower's VT_LOG before its VT_PP
and VT_DRAM, VM, VOE. -/
def railOrder : List Nat :=
  [23, 0, 1, 2, 3] ++ (List.range 16).flatMap (fun n => [4 + n, 24 + n, 40 + n]) ++ [20, 21]

/-- The tower that a rail feeds, if any. -/
def railTower (r : Nat) : Option Nat :=
  if 4 ≤ r && r < 20 then some (r - 4) else if 24 ≤ r && r < 40 then some (r - 24)
  else if 40 ≤ r && r < 56 then some (r - 40) else none

/-- Whether a rail comes up where `bad` lists the rails out of range: the layers of a tower are powered up and down together with
their base die (R14). -/
def railOn (bad : List Nat) (r : Nat) : Bool :=
  match railTower r with
  | some n => !bad.contains (4 + n) && !bad.contains (24 + n) && !bad.contains (40 + n)
  | none => !bad.contains r

/-- The rails that are on after stage 0 has powered them in order. -/
def railsUp (bad : List Nat) : NatSet := (railOrder.filter (railOn bad)).foldl nsAdd []

/-- Every rail except VAUX turns off, in the reverse of that order within the one event, and FAULT_N is asserted (R36, R37, R383). No die holds state without its rail; the cone counts
are those last written to the non-volatile store (R391). -/
def railsOff (s : State) : State :=
  let s := deviceReset s
  { s with
    faultN := true
    pwr := { s.pwr with rails := [] }
    therm := { s.therm with
      tw := s.therm.coneNv.map (fun e => (e.1, { TwrTh.reset with cone := e.2.take 3, life := listAt e.2 3 0 })) } }

/-- Whether the limit block has power: it lies in H0 (Table PKG.3). -/
def limitOn (s : State) : Bool := nsHas s.pwr.rails 0 && !(hget s 0).lost

end Sys2Proof.Machine
end

