-- ==== Sys2Proof/Machine/Power.lean ====
section
/-! DEFINITION. Input power, clock monitors, ramp governors, the power loop, the comparator and the power brake
(R32, R36 to R50, R378 to R381, R386, R454, R455). -/

namespace Sys2Proof.Machine

/-! ## The thermal inputs of the limit block -/

def twTh (s : State) (n : Nat) : TwrTh := stGet (fun _ => TwrTh.reset) s.therm.tw n
def twThSet (n : Nat) (v : TwrTh) (s : State) : State :=
  { s with therm := { s.therm with tw := stSet (fun _ => TwrTh.reset) s.therm.tw n v } }
def layTh (s : State) (n m : Nat) : LayerTh := stGet (fun _ => LayerTh.reset) s.therm.lay (8 * n + m)
def layThSet (n m : Nat) (v : LayerTh) (s : State) : State :=
  { s with therm := { s.therm with lay := stSet (fun _ => LayerTh.reset) s.therm.lay (8 * n + m) v } }

/-- Sensor channels (Table THM.1): hotspot diode d of tower n, diode d of layer m. -/
def chHot (n d : Nat) : Nat := 16 * n + d
def chLay (n m d : Nat) : Nat := 256 + 32 * n + 4 * m + d

/-- How many hotspot diodes of a tower are broken. -/
def brokenHot (s : State) (n : Nat) : Nat := ((List.range 16).filter (fun d => nsHas s.therm.brk (chHot n d))).length

/-- Whether a tower's ceiling is held at level 0 by its broken sensors (Table THM.3). -/
def towerHeld (s : State) (n : Nat) : Bool :=
  decide (4 ≤ brokenHot s n) || (List.range 8).any (fun m => (List.range 4).all (fun d => nsHas s.therm.cut (chLay n m d)))

/-- An 11-bit temperature field as a number in 0.25 °C. -/
def tempFld (w : Word) (hi lo : Nat) : Int := signed (hi + 1 - lo) (wFld w hi lo)

/-- A temperature in 0.25 °C as an 11-bit field. -/
def tempBits (t : Int) : Nat := unsignedOf 11 t

/-- The coolant inlet temperature, 0.25 °C. -/
def inletT (s : State) : Int := tempFld (rget s (thmBase + 0x150)) 20 10

/-- R_0 of a tower, in 10⁻³ °C/W, as THM_RTH.BASE holds it; R_est in 10⁻⁶ °C/W (R386). -/
def rBase (s : State) (n : Nat) : Nat := wFld (rget s (thmBase + 0x180 + 4 * n)) 19 11
def rEst (s : State) (n : Nat) : Nat := if (twTh s n).rEst = 0 then 1000 * rBase s n else (twTh s n).rEst

/-- The slow allowance A_n in W (R386), lowered by a tenth for each failing canary check (R385) and floored at 40 W (R380). -/
def slowAllow (s : State) (n : Nat) : Nat :=
  let num : Int := (392 - inletT s) * 250000 * 9 ^ (twTh s n).derate
  max 40 ((num / ((rEst s n * 10 ^ (twTh s n).derate : Nat) : Int)).toNat)

/-- Measured power in 0.1 W: key 0 the module input, n + 1 tower n. -/
def powIn (s : State) : Nat := wFld (rget s (thmBase + 8)) 15 0
def powTw (s : State) (n : Nat) : Nat := wFld (rget s (thmBase + 0x80 + 4 * n)) 31 19

/-- A thermal allowance P + (target − T) / R in 0.1 W, rounded down, with T in 10⁻⁶ °C and R in 10⁻⁹ °C/W. -/
def heatAllow (p : Nat) (target : Nat) (t : Int) (r : Nat) : Int :=
  (p : Int) + (((target : Int) * 1000000 - t) * 10000) / (r : Int)

/-- The largest layer prediction of a tower. -/
def layPred (s : State) (n : Nat) : Int := (List.range 8).foldl (fun a m => max a (layTh s n m).pred) (layTh s n 0).pred

/-- The largest fused k_m of a tower, in 10⁻³. -/
def kMax (n : Nat) : Nat := (List.range 8).foldl (fun a m => max a (Config.fusedKm n m)) 0

/-- E_n without the slow allowance, in 0.1 W: the fused ceiling, THM_TWR_LIMIT and, from stage 5, the thermal allowances
(R45, R380, R390). -/
def otherLimits (s : State) (n : Nat) : Int :=
  let fused : Int := 10 * ((wFld (rget s thmBase) 15 0 : Nat) : Int)
  let lim : Int := 10 * ((wFld (rget s (thmBase + 0x40 + 4 * n)) 8 0 : Nat) : Int)
  if s.stage < 5 then min fused lim
  else
    let p := powTw s n
    let hot := max 400 (heatAllow p 100 (twTh s n).pred (1000 * rEst s n))
    let lay := max 400 (heatAllow p 95 (layPred s n) (kMax n * rEst s n))
    let reg : Int := 10 * ((stGet (fun _ => 0) s.therm.regLoss n : Nat) : Int)
    let e := min (min fused lim) (min hot lay)
    if reg = 0 then e else max 400 (e - reg)

/-- Whether the slow allowance limits a tower. -/
def slowBinds (s : State) (n : Nat) : Bool :=
  decide (5 ≤ s.stage) && decide (10 * ((slowAllow s n : Nat) : Int) < otherLimits s n)

/-- The effective limit E_n in 0.1 W. -/
def effLimit (s : State) (n : Nat) : Int :=
  if s.stage < 5 then otherLimits s n else min (otherLimits s n) (10 * ((slowAllow s n : Nat) : Int))

/-- THM_PKG_EFF.PKG_EFF in W (R386). -/
def pkgEff (s : State) : Nat :=
  if (List.range 16).any (slowBinds s) then
    (sumNat ((List.range 16).map (slowAllow s)) + 370) * 100 / 92 / 50 * 50
  else wFld (rget s (thmBase + 4)) 12 0

/-- The package limit that the loop holds, in 0.1 W, with the shares that hot hub regulators lose (Table THM.4). -/
def pkgHold (s : State) : Nat :=
  10 * min (min (wFld (rget s (thmBase + 4)) 12 0) (wFld (rget s thmBase) 31 16)) (pkgEff s) -
    10 * sumNat ((List.range 4).map (fun h => stGet (fun _ => 0) s.therm.regLoss (16 + h)))

/-! ## The brake (R48, R49) -/

def brakeOn (s : State) : Bool := wBit (rget s (thmBase + 0xC)) 0
def brakeSources (s : State) : Nat := wFld (rget s (thmBase + 0xC)) 4 1

/-- The ceiling applied to a tower's clusters: 0 while braking or held. -/
def ceilOf (s : State) (n : Nat) : Nat :=
  if brakeOn s || towerHeld s n then 0 else stGet (fun _ => 0) s.pwr.loopC n

/-- Writes CEIL_LEVEL, WITHHOLD and CAUSE of a tower; `cause` adds causes in force. CAUSE clears when nothing is reduced. -/
def twrPublish (n cause : Nat) (s : State) : State :=
  let lw := stGet (fun _ => 0) s.pwr.loopW n
  let tw := stGet (fun _ => 0) s.pwr.thermW n
  let full := stGet (fun _ => 0) s.pwr.loopC n == 16 && lw == 0 && tw == 0 && !brakeOn s && !towerHeld s n
  rupd (thmBase + 0x80 + 4 * n) (fun w =>
    let c := Nat.lor (Nat.lor (wFld w 18 16) cause) (Nat.lor (if lw < tw then 1 else 0) (if brakeOn s then 4 else 0))
    wPut (wPut (wPut w 18 16 (if full then 0 else c)) 15 12 (max lw tw)) 8 4 (ceilOf s n)) s

def publishAll (s : State) : State := iter 16 (fun n s => twrPublish n 0 s) s

/-- A brake source changes: bit 1 PBRK_N, 2 thermal, 3 undervoltage, 4 FW_REQ. Any source enters the brake state. -/
def brakeSource (i : Nat) (v : Bool) (s : State) : State :=
  let s := rupd (thmBase + 0xC) (fun w => wPut w i i (b2n v)) s
  if brakeSources s ≠ 0 && !brakeOn s then
    publishAll (rupd (thmBase + 0xC) (fun w => wPut (wSatAdd w 31 16 1) 0 0 1) s)
  else s

def execPbrkAssert (s : State) : Res := .next (if limitOn s then brakeSource 1 true s else s)
def execPbrkDeassert (s : State) : Res := .next (if limitOn s then brakeSource 1 false s else s)

/-- Every source has been clear for 10 µs (R49). -/
def execBrakeRelease (s : State) : Res :=
  if !limitOn s || !brakeOn s || brakeSources s ≠ 0 then .next s
  else .next (publishAll (rupd (thmBase + 0xC) (fun w => wPut w 0 0 0) s))

/-- A write of THM_BRAKE. -/
def writeBrake (w : Word) (s : State) : State := brakeSource 4 (wBit w 4) s
def execBrakeFwReq (w : Word) (s : State) : Res := .next (if limitOn s then writeBrake w s else s)

/-! ## Limits (R44, R45) -/

/-- Clamps a limit to its range: the value loaded and whether it was clamped. -/
def clampLimit (lo hi v : Nat) : Nat × Bool :=
  let x := max lo (min v hi)
  (x, x != v)

/-- Writes a limit register: a write of 1 to CLAMPED clears it, and a clamped value sets it. -/
def writeLimit (key fieldHi lo hi v : Nat) (w1c : Bool) (s : State) : State × Bool :=
  let (x, cl) := clampLimit lo hi v
  let set (w : Word) : Word :=
    let w := if w1c then wPut w 31 31 0 else w
    let w := wPut w fieldHi 0 x
    if cl then wPut w 31 31 1 else w
  (rupd key set s, cl)

def writePkgLimit (v : Nat) (w1c : Bool) (s : State) : State × Bool :=
  writeLimit (thmBase + 4) 12 1200 (wFld (rget s thmBase) 31 16) v w1c s
def writeTwrLimit (n v : Nat) (w1c : Bool) (s : State) : State × Bool :=
  writeLimit (thmBase + 0x40 + 4 * n) 8 40 (wFld (rget s thmBase) 15 0) v w1c s

def execPkgLimitWrite (w : Word) (s : State) : Res := .next (writePkgLimit (wFld w 12 0) (wBit w 31) s).1
def execTwrLimitWrite (n : Fin 16) (w : Word) (s : State) : Res := .next (writeTwrLimit n (wFld w 8 0) (wBit w 31) s).1

/-- A write of THM_RAMP_CTL: STEP_ACLK below 840 loads 840 (R44). -/
def writeRamp (w : Word) (s : State) : State := rset (thmBase + 0x10) (BitVec.ofNat 32 (max 840 (wFld w 10 0))) s
def execRampCtlWrite (w : Word) (s : State) : Res := .next (writeRamp w s)

/-! ## Governors (R42, R43, R458) -/

/-- Whether a cluster has work pending: a core that runs, loads or has a command, or a remote write on its way (R43, R267). -/
def cluWork (s : State) (k : Nat) : Bool :=
  (List.range 17).any (fun i =>
    let c := 17 * k + i
    let u := cget s c
    !u.halted || u.seq.startPend || u.loadBusy || !coreIdle s c)

def setLevel (k v : Nat) (s : State) : State :=
  { s with pwr := { s.pwr with level := stSet (fun _ => 0) s.pwr.level k v } }

/-- The level a governor steps toward: the smaller of its demand and its tower's ceiling; 0 while a reset is under way, and once H0,
whose PLL clocks every die, is lost (R414). -/
def levelTarget (s : State) (k : Nat) : Nat :=
  if s.pwr.descend || (hget s 0).lost || nsHas s.lostTw (k / 16) || !cluWork s k then 0 else ceilOf s (k / 16)

def execGovernorRiseTick (k : Fin 256) (s : State) : Res :=
  .next (if levelOf s k < levelTarget s k then setLevel k (levelOf s k + 1) s else s)

def execGovernorFallTick (k : Fin 256) (s : State) : Res :=
  .next (if levelTarget s k < levelOf s k then setLevel k (levelOf s k - 1) s else s)

/-! ## The power loop (R45) and the comparator (R47) -/

def setLoopC (n v : Nat) (s : State) : State := { s with pwr := { s.pwr with loopC := stSet (fun _ => 0) s.pwr.loopC n v } }
def setLoopW (n v : Nat) (s : State) : State := { s with pwr := { s.pwr with loopW := stSet (fun _ => 0) s.pwr.loopW n v } }
def loopCOf (s : State) (n : Nat) : Nat := stGet (fun _ => 0) s.pwr.loopC n
def loopWOf (s : State) (n : Nat) : Nat := stGet (fun _ => 0) s.pwr.loopW n

/-- Lowers a tower: one withheld slot where the memory rails draw more than 40 %, else one level. -/
def loopLower (n p dram cause : Nat) (s : State) : State :=
  if 10 * dram > 4 * p && loopWOf s n < 12 then twrPublish n cause (setLoopW n (loopWOf s n + 1) s)
  else if 0 < loopCOf s n then twrPublish n cause (setLoopC n (loopCOf s n - 1) s)
  else twrPublish n cause s

def loopRaise (n : Nat) (s : State) : State :=
  if 0 < loopWOf s n then twrPublish n 0 (setLoopW n (loopWOf s n - 1) s)
  else if loopCOf s n < 16 then twrPublish n 0 (setLoopC n (loopCOf s n + 1) s)
  else twrPublish n 0 s

/-- One tower's turn of the loop: `p` its power and `dram` its VT_DRAM and VT_PP part, in 0.1 W. -/
def loopTower (n p dram pk : Nat) (s : State) : State :=
  let e := effLimit s n
  if pk > pkgHold s && 0 < loopCOf s n then loopLower n p dram 2 s
  else if (p : Int) > e then loopLower n p dram 1 s
  else if (p : Int) + 300 ≤ e && pk + 900 ≤ pkgHold s then loopRaise n s
  else twrPublish n 0 s

/-- Adds the interval's powers to the 10 ms averages; after 1 000 intervals the coarsened readings refresh, to the nearest
5 W (R430). -/
def coarsePower (vals : List Nat) (s : State) : State :=
  let u := s.pwr
  let sums := vals.zipIdx.foldl (fun m e => stSet (fun _ => 0) m e.2 (stGet (fun _ => 0) m e.2 + e.1)) u.powSum
  if u.powCnt + 1 < 1000 then { s with pwr := { u with powSum := sums, powCnt := u.powCnt + 1 } }
  else
    let out := sums.map (fun e => (e.1, (2 * e.2 + 50000) / 100000 * 50))
    { s with pwr := { u with powSum := [], powCnt := 0, powCoarse := out.filter (fun e => e.2 != 0) } }

/-- A hot regulator costs its tower, or its hub's package share, 20 W in each interval while it is hot (Table THM.4). -/
def regulatorLoss (s : State) : State :=
  let unit (r : Nat) : Nat := if r < 32 then r % 16 else 16 + r % 4
  let loss := (List.range 20).foldl (fun m u =>
    if s.therm.regHot.any (fun r => unit r == u) then stSet (fun _ => 0) m u (stGet (fun _ => 0) m u + 20)
    else stSet (fun _ => 0) m u 0) s.therm.regLoss
  { s with therm := { s.therm with regLoss := loss } }

/-- The first `n` numbers of a list, zeros where it is shorter. -/
def fitNats (n : Nat) (l : List Nat) : List Nat := (List.range n).map (fun i => listAt l i 0)

/-- The measurements and the loop of one 10 µs interval: `pk` the module input power and `tw` per tower its power and the part
of its memory rails, `hub` VH_LOG and VM of each hub and then VOE, all in 0.1 W (R35). -/
def loopMeasure (pk : Nat) (p : Nat → Nat × Nat) (hub : List Nat) (s : State) : State :=
  let vals := [pk] ++ (List.range 16).map (fun n => (p n).1 - (p n).2) ++ (List.range 16).map (fun n => (p n).2) ++
    fitNats 9 hub
  let s := { s with pwr := { s.pwr with meas := (vals.zipIdx.map (fun e => (e.2, e.1))).filter (fun e => e.2 != 0) } }
  let s := rupd (thmBase + 8) (fun w => wPut w 15 0 (min pk 65535)) s
  let s := iter 16 (fun n s => rupd (thmBase + 0x80 + 4 * n) (fun w => wPut w 31 19 (min (p n).1 8191)) s) s
  regulatorLoss (coarsePower (pk :: (List.range 16).map (fun n => (p n).1)) s)

def loopAdjust (pk : Nat) (p : Nat → Nat × Nat) (s : State) : State :=
  let s := iter 16 (fun n s => loopTower n (p n).1 (p n).2 pk s) s
  let binds := (List.range 16).any (slowBinds s)
  let s := if binds then rupd (thmBase + 0x1C0) (fun w => wPut w 1 1 1) s else s
  iter 16 (fun n s => rupd (thmBase + 0x180 + 4 * n) (fun w => wPut w 8 0 (min 320 (slowAllow s n))) s) s

/-- While a tower draws more than 340 W, its ceiling drops by one level (R47): `p` is its power in 0.1 W. -/
def execComparatorDecrement (n : Fin 16) (p : Nat) (s : State) : Res :=
  if !limitOn s || p ≤ 3400 then .next s
  else .next (twrPublish n 4 (if 0 < loopCOf s n then setLoopC n (loopCOf s n - 1) s else s))

/-! ## Clock monitors (R32) -/

/-- Eight times the nominal count of a clock over 50 REF cycles: root, ACLK, NCLK, MCLK, HCLK, and WCK of LPDDR5X channel c − 5
(Table CLK.1). -/
def nominal8 (c : Nat) : Nat := listAt [33600, 4200, 5600, 525, 2100] c 16800

/-- Whether a count stays within 1 %, or within one count where that is larger. -/
def clockWithin (c n : Nat) : Bool :=
  let d := if 8 * n < nominal8 c then nominal8 c - 8 * n else 8 * n - nominal8 c
  decide (100 * d ≤ max (nominal8 c) 800)

/-- Whether a die has its logic rail and is not lost. -/
def dieOn (s : State) (d : Nat) : Bool :=
  logicRail s d && (if d < 16 then !nsHas s.lostTw d else !hubAbsent s (d - 16))

/-- Whether a die's clock monitor runs: it lies on VAUX, counts while the die's logic rail is up, and goes on when the die is lost
(R32, Table CLK.3). -/
def monOn (s : State) (d : Nat) : Bool := s.pwr.vaux && logicRail s d

/-- The clocks a die monitors with their bits: a hub's HCLK shows in bit 3, it has no ACLK or MCLK, and the WCK of its six
channels shows in LOST alone (Table CLK.2a). -/
def dieClocks (d : Nat) : List (Nat × Option Nat) :=
  if d < 16 then [(0, some 0), (1, some 1), (2, some 2), (3, some 3), (4, some 4)]
  else [(0, some 0), (2, some 2), (4, some 3)] ++ (List.range 6).map (fun k => (5 + k, none))

/-- Shows in a monitor register whether a clock is within limits. -/
def showClock (d : Nat) (bit : Option Nat) (ok : Bool) (s : State) : State :=
  match bit with
  | some b => rupd (monKey d) (fun w => wPut w b b (b2n ok)) s
  | none => s

/-- A clock of a die is declared lost: LOST is set and the die is lost, with every die downstream when it is the root. -/
def clockLost (d c : Nat) (s : State) : State :=
  let s := rupd (monKey d) (fun w => wPut w 7 7 1) s
  if c = 0 then loseRoot d s else loseDie d s

/-- One clock's count at the end of a window: its bit, and how many consecutive windows were bad. A root within limits is received
again. -/
def clockCount (d : Nat) (e : Nat × Option Nat) (ok : Bool) (s : State) : State :=
  let s := showClock d e.2 ok s
  let n := if ok then 0 else stGet (fun _ => 0) s.pwr.clkBad (16 * d + e.1) + 1
  { s with pwr := { s.pwr with
      clkBad := stSet (fun _ => 0) s.pwr.clkBad (16 * d + e.1) n
      rootLost := if ok && e.1 == 0 then nsDel s.pwr.rootLost d else s.pwr.rootLost } }

/-- The clocks of a die with whether the window's counts are within limits, in the order of `dieClocks`. -/
def windowClocks (d : Nat) (counts : List Nat) : List ((Nat × Option Nat) × Bool) :=
  (dieClocks d).zipIdx.map (fun e => (e.1, clockWithin e.1.1 (listAt counts e.2 0)))

/-- A monitor window ends on a die, with a count for each of its clocks: the second bad window in a row loses the clock. -/
def execClkmonWindow (d : Fin 20) (counts : List Nat) (s : State) : Res :=
  if !monOn s d then .next s
  else
    let res := windowClocks d counts
    let s1 := res.foldl (fun s r => clockCount d r.1 r.2 s) s
    match res.find? (fun r => !r.2 && decide (1 ≤ stGet (fun _ => 0) s.pwr.clkBad (16 * d + r.1.1))) with
    | some r => .next (clockLost d r.1.1 s1)
    | none => .next s1

/-- A clock of a die shows no edge for 16 REF cycles: clock numbers as `nominal8` numbers them. -/
def execClockStopped (d : Fin 20) (c : Fin 11) (s : State) : Res :=
  if !monOn s d then .next s
  else
    match (dieClocks d).find? (fun e => e.1 == c.val) with
    | some e => .next (clockLost d c (showClock d e.2 false s))
    | none => .next s

/-! ## Input power (R36 to R40, R454, R455) -/

/-- VIN rises above 36 V: VAUX comes up. VAUX stays down while the input is reversed, which such a VIN is not. -/
def execVauxUp (s : State) : Res :=
  .next { s with pwr := { s.pwr with vaux := true, rev := false, bleed := false } }

/-- VIN has stayed at 40 V or more for 10 ms: the input switch closes. Power-on causes a start-up, which waits for the release of
RST_N (R347). -/
def execInputSwitchClose (s : State) : Res :=
  if !s.pwr.vaux || s.pwr.rev then .next s
  else
    let s' := { s with pwr := { s.pwr with sw := true, vin := true, bleed := false } }
    .next (if s.pwr.rails.isEmpty && !s.pwr.kiln && !s.pwr.rst && s.boot.next.isNone then startBegin false s' else s')

/-- Whether a start-up can begin: VAUX is up, the input switch is closed with VIN at 40 V or more, and nothing holds the device in
reset or shut down (R347, R384). -/
def canStart (s : State) : Bool := s.pwr.vaux && s.pwr.sw && s.pwr.vin && !s.pwr.rst && !s.pwr.inReset && !s.pwr.kiln

/-- Whether a start-up waits for VIN: RST_N was released while VIN lay below 40 V (R347). -/
def startWaits (s : State) : Bool :=
  canStart s && s.boot.next.isNone && !s.booted && !s.boot.stopped && !s.fatal && !s.pwr.rails.isEmpty

def execVinUndervoltage (s : State) : Res :=
  let s := { s with pwr := { s.pwr with vin := false } }
  .next (if limitOn s then brakeSource 3 true s else s)

/-- VIN has stayed at 40 V or more for 1 ms; a start-up that waits for it begins. -/
def execVinRecover (s : State) : Res :=
  let s := { s with pwr := { s.pwr with vin := true } }
  let s := if limitOn s then brakeSource 3 false s else s
  .next (if startWaits s then startBegin false s else s)

/-- VIN falls below 34 V: every rail except VAUX turns off, FAULT_N asserts, and a cold start is required. While VAUX is down
FAULT_N is high impedance. -/
def execVinCollapse (s : State) : Res :=
  let s := railsOff s
  .next { s with faultN := s.pwr.vaux, boot := { s.boot with cold := true }, pwr := { s.pwr with vin := false } }

/-- VIN is lost: the bleeder engages. -/
def execVinLoss (s : State) : Res := .next { s with pwr := { s.pwr with bleed := true, vin := false } }

/-- The input switch blocks reverse current. -/
def execReverseCurrent (s : State) : Res := .next { s with pwr := { s.pwr with sw := false } }

/-- A reversed input is blocked by the input switch; the module stays unpowered and VAUX stays down. -/
def execReverseInput (s : State) : Res :=
  .next (if s.pwr.vaux then s else { s with pwr := { s.pwr with rev := true, sw := false } })

end Sys2Proof.Machine
end

