-- ==== Sys2Proof/Machine/Parts.lean ====
section
/-! DEFINITION. Partitions: creation, lock, release, zeroing's end, readmission, and the limits and restart commands
(R275, R282, R310 to R313, R415 to R421, R426, R427). -/

namespace Sys2Proof.Machine

/-! ## The bounds entry and the port slots of cores -/

/-- A register of a partition's bounds entry. -/
def boundsKey (p o : Nat) : Nat := hubBase 0 + 0x30000 + 32 * p + o

/-- The bounds entry of a partition, from PART_CREATE's payload. -/
def writeBounds (p mask b0 l0 b1 l1 : Nat) (s : State) : State :=
  let put (o v : Nat) (s : State) : State := rset (boundsKey p o) (BitVec.ofNat 32 v) s
  put 0x18 (2 ^ 31) (put 0x14 l1 (put 0x10 b1 (put 0xC l0 (put 0x8 b0 (put 0x4 (mask / 2 ^ 32) (put 0 (mask % 2 ^ 32) s))))))

def clearBounds (p : Nat) (s : State) : State :=
  [0, 4, 8, 0xC, 0x10, 0x14, 0x18].foldl (fun s o => rset (boundsKey p o) 0 s) s

/-- What a write of FLOOR, MAX and WEIGHT loads (R282). -/
def otWord (floor max' weight : Nat) : Nat :=
  let f := min floor 16
  weight % 4 * 2 ^ 24 + max (min max' 64) f * 2 ^ 16 + f * 2 ^ 8

/-- Writes NOC_CORE_OT of a core: INUSE stays a count of the interface. -/
def writeOt (c floor max' weight : Nat) (s : State) : State := rset (otKey c) (BitVec.ofNat 32 (otWord floor max' weight)) s

/-- Whether the partition lock over a cluster is closed (R8, R418). -/
def cluLocked (s : State) (k : Nat) : Bool := (cluPart s k).any (fun p => (pget s p).state == 2)

/-! ## PART_CREATE -/

/-- Whether two tier-2 windows, in 64 KiB units with inclusive limits, overlap. A limit below its base disables one. -/
def windowsMeet (a b : Nat × Nat) : Bool := a.1 ≤ a.2 && b.1 ≤ b.2 && a.1 ≤ b.2 && b.1 ≤ a.2

/-- Whether a logical quarter-tower has a logical core. -/
def qtHasCore (s : State) (q : Nat) : Bool :=
  (List.range 4).any (fun i => (List.range 16).any (fun k => (corePhys s (q / 4) (4 * (q % 4) + i) k).isSome))

/-- The logical cores of a mask: physical numbers. -/
def maskCores (s : State) (m : Nat) : List Nat :=
  (maskQts m).flatMap (fun q => (List.range 4).flatMap (fun i => (List.range 16).filterMap (fun k =>
    corePhys s (q / 4) (4 * (q % 4) + i) k)))

/-- PART_CREATE's fields: mask and windows. -/
def createMask (b : List Byte) : Nat := payAt b 0 8
def createWins (b : List Byte) : List (Nat × Nat) :=
  [(payAt b 8 4 % 2 ^ 25, payAt b 12 4 % 2 ^ 25), (payAt b 16 4 % 2 ^ 25, payAt b 20 4 % 2 ^ 25)]

/-- Whether the life cycle admits confidential partitions (R421, R434). -/
def confAllowed (s : State) : Bool :=
  let lc := wFld (rget s secBase) 7 0
  !s.sec.debug && (lc == 2 || lc == 3) && s.sec.ids

/-- The status that refuses a PART_CREATE, or 0 (R312, R416, R421; 0x0305 of Table HOST.13). -/
def createStatus (s : State) (b : List Byte) : Nat :=
  let p := hPart b
  let m := createMask b
  let ws := createWins b
  if (pget s p).state ≠ 0 then 0x0304
  else if m = 0 || ws.any (fun w => w.1 ≤ w.2 && decide (0x1800000 ≤ w.2)) then 0x0107
  else if (maskQts m).any (fun q => s.parts.any (fun e => e.2.state != 0 && bitAt e.2.mask q) || !qtHasCore s q ||
      nsHas s.sec.dirty q) ||
      ws.any (fun w => s.sec.dirtyT2.any (windowsMeet w) ||
        s.parts.any (fun e => e.2.state != 0 && (partWindows s e.1).any (windowsMeet w))) then 0x0206
  else if bitAt (payAt b 27 1) 1 && !confAllowed s then 0x0403
  else if (maskCores s m).any (fun c => !(cget s c).halted) then 0x0305
  else 0

/-- Creates the partition: assignment clears, bounds and port slots, glaze key (R312). -/
def createPart (b : List Byte) (s : State) : State :=
  let p := hPart b
  let old := pget s p
  let s := pset p { PartSt.reset with state := 1, mask := createMask b, conf := bitAt (payAt b 27 1) 1,
                                      ucnt := bitAt (payAt b 27 1) 0, ide := old.ide, ideSet := old.ideSet,
                                      ready := old.ready } s
  let s := assignAll (partClus s p) s
  let w0 := listAt (createWins b) 0 (0, 0)
  let w1 := listAt (createWins b) 1 (0, 0)
  let s := writeBounds p (createMask b) w0.1 w0.2 w1.1 w1.2 s
  let s := (partCores s p).foldl (fun s c => writeOt c (payAt b 24 1) (payAt b 25 1) (payAt b 26 1 % 4) s) s
  let s := [0, 4, 8, 0xC].foldl (fun s o => rset (glzKey p o) 0 s) s
  let (k, s) := takeFree s
  pupd p (fun q => { q with glz := { GlzSt.reset with key0 := some k } }) s

def execPartCreate (w : Fin 128) (s : State) : Res :=
  runCmd w 0x0101 (fun b => payAt b 26 1 / 4 != 0 || payAt b 27 1 / 4 != 0 || payNZ b 28 4 ||
      [8, 12, 16, 20].any (fun o => payAt b o 4 / 2 ^ 25 != 0)) (fun k s =>
    let st := createStatus s k.bytes
    if st ≠ 0 then complete k.id st 0 0 s
    else
      let s := createPart k.bytes s
      complete k.id 0 (partCores s (hPart k.bytes)).length 0 s) s

/-! ## The end of zeroing (R416, R417, R426) -/

/-- Clears the dirty bits of a partition's quarter-towers and windows. -/
def clearDirty (p : Nat) (s : State) : State :=
  let m := (pget s p).mask
  let ws := partWindows s p
  { s with sec := { s.sec with
      dirty := s.sec.dirty.filter (fun q => !bitAt m q)
      dirtyT2 := s.sec.dirtyT2.filter (fun w => !ws.contains w) } }

/-- Sends a TDISP response inside a VENDOR_DEFINED_RESPONSE (R422): its first byte is the message type. The type numbers are
those of the published standard. PRESUMED (log entry 40). -/
def tdispSend (ty : Nat) (d : List Byte) (s : State) : State := hostSend (.doe 0x7E (BitVec.ofNat 8 ty :: d)) s

/-- What follows once nothing of a partition is left to zero: a release ends, with the glaze keys erased and the bounds entry
cleared, and a waiting STOP_INTERFACE_REQUEST completes. -/
def zeroCheck (p : Nat) (s : State) : State :=
  let q := pget s p
  if !q.zeroLeft.isEmpty || !(q.state = 3 || q.tdi = 3) then s
  else
    let s := clearDirty p s
    if q.state = 3 then
      let s := (partCores s p).foldl (fun s c => coreOff c s) s
      let s := pset p { PartSt.reset with ide := q.ide, ideSet := q.ideSet, ready := q.ready } (clearBounds p s)
      let s := if q.stopReq then tdispSend 0x07 [] s else s
      match q.relPkt with
      | some id => complete id 0 0 0 s
      | none => s
    else if q.stopReq then
      tdispSend 0x07 [] (pset p { q with tdi := 0, state := 1, stopReq := false, model := none } s)
    else s

/-! ## PART_LOCK, PART_READMIT -/

def execPartLock (w : Fin 128) (s : State) : Res :=
  runCmd w 0x0103 (fun b => payNZ b 0 8) (fun k s =>
    let p := hPart k.bytes
    let q := pget s p
    if q.state ≠ 1 then complete k.id 0x0304 0 0 s
    else if q.conf then complete k.id 0x0403 0 0 s
    else complete k.id 0 0 0 (pset p { q with state := 2 } s)) s

/-- Whether every logical tower of a mask is in the map. -/
def maskMapped (s : State) (m : Nat) : Bool := (maskQts m).all (fun q => (twPhys s (q / 4)).isSome)

/-- The partition's clusters on a physical tower. -/
def clusOn (s : State) (p n : Nat) : List Nat := (partClus s p).filter (fun k => k / 16 == n)

def execPartReadmit (w : Fin 128) (s : State) : Res :=
  runCmd w 0x0105 (fun b => payAt b 0 1 / 16 != 0 || payNZ b 1 7) (fun k s =>
    let p := hPart k.bytes
    let n := payAt k.bytes 0 1
    let q := pget s p
    if q.state ≠ 4 then complete k.id 0x0304 0 0 s
    else if q.conf && q.tdi = 3 then complete k.id 0x0403 0 0 s
    else if (clusOn s p n).isEmpty || !maskMapped s q.mask then complete k.id 0x0304 0 0 s
    else
      let s := pset p { q with state := 1, model := none } (assignAll (clusOn s p n) s)
      complete k.id 0 (partCores s p).length 0 s) s

/-! ## SET_LIMITS and DEVICE_RESET (R311) -/

/-- Writes one limit to every masked tower: whether a value was clamped. -/
def setTowers (mask v : Nat) (s : State) : State × Bool :=
  (List.range 16).foldl (fun a n =>
    if bitAt mask n then
      let r := writeTwrLimit n v false a.1
      (r.1, a.2 || r.2)
    else a) (s, false)

def execSetLimits (w : Fin 128) (s : State) : Res :=
  runCmd w 0x0003 (fun b => payNZ b 6 10) (fun k s =>
    let pk := payAt k.bytes 0 2
    let tv := payAt k.bytes 2 2
    let m := payAt k.bytes 4 2
    let r1 := if pk = 0 then (s, false) else writePkgLimit pk false s
    let r2 := if tv = 0 then (r1.1, false) else setTowers m tv r1.1
    let tl := match (List.range 16).find? (fun n => bitAt m n) with
      | some n => wFld (rget r2.1 (thmBase + 0x40 + 4 * n)) 8 0
      | none => 0
    complete k.id 0 (wFld (rget r2.1 (thmBase + 4)) 12 0 + tl * 2 ^ 16 + b2n (r1.2 || r2.2) * 2 ^ 32) 0 r2.1) s

/-- A restart after the acceptance reply: KIND 0 warm, 1 cold with the full test. It writes no completion; a KIND that is not
assigned is refused. -/
def execDeviceReset (w : Fin 128) (s : State) : Res :=
  runCmd w 0x0002 (fun b => payAt b 0 1 / 4 != 0 || payNZ b 1 7) (fun k s =>
    let kind := payAt k.bytes 0 1
    if 1 < kind then complete k.id 0x0102 0 0 s else startBegin (kind = 1) (deviceReset s)) s

end Sys2Proof.Machine
end

