-- ==== Sys2Proof/Machine/Boot.lean ====
section
/-! DEFINITION. Start-up: the firing log, lane sparing, the logical map and the ten stages (R347 to R366, R458), and the reset
pin. -/

namespace Sys2Proof.Machine

/-! ## The firing log (R353) -/

/-- What a stage finds of one unit: RESULT, locator, detail, lane. -/
structure Found where
  result : Nat
  unit : Nat
  detail : Nat
  lane : Nat
  deriving DecidableEq, Repr

def found (result unit detail : Nat) : Found := { result := result, unit := unit, detail := detail, lane := 0xFFFF }

/-- Writes a firing-log record (Table BOOT.2). GLB_BOOT_STAT.RESULT is that of the last summary (Table BOOT.9). -/
def fireLog (stage : Nat) (f : Found) (summary rejoin : Bool) (dur count : Nat) (data : List Byte) (s : State) : State :=
  let b := s.boot
  let bytes := leBytes 1 stage ++ leBytes 1 f.result ++
    leBytes 1 (b2n summary + 2 * b2n b.warm + 4 * b2n rejoin) ++ [0] ++ leBytes 4 b.run ++ leBytes 8 s.ns ++
    leBytes 4 (min dur (2 ^ 32 - 1)) ++ leBytes 4 f.unit ++ leBytes 2 f.detail ++ leBytes 2 f.lane ++ leBytes 4 count ++
    fitBytes 32 data
  { s with boot := { b with fire := memWrite b.fire (64 * b.fireNext) bytes, fireNext := (b.fireNext + 1) % 8192,
                            fireWrap := b.fireWrap || b.fireNext == 8191, result := if summary then f.result else b.result } }

/-- RESULT of a summary: stop, degraded, held, repaired, reused or pass. -/
def sumResult (fs : List Found) (reused : Bool) : Nat :=
  if fs.any (fun f => f.result == 4) then 4 else if fs.any (fun f => f.result == 2) then 2 else if fs.any (fun f => f.result == 3) then 3
  else if fs.isEmpty then (if reused then 5 else 0) else 1

/-- LOG_CORES of every tower, as the summaries of stages 5 and 6 carry it. -/
def coreTable (s : State) : List Byte := (List.range 16).flatMap (fun n => leBytes 2 (towerCores s n))

/-- How many units findings name. -/
def unitCount (fs : List Found) : Nat := ((fs.map (fun f => f.unit)).eraseDups).length

/-- The summary of stages 5 and 6, which carries the exposed cores (R2). -/
def fireMap (stage result : Nat) (rejoin : Bool) (dur : Nat) (s : State) : State :=
  fireLog stage (found result 0 0) true rejoin dur (sumNat ((List.range 16).map (towerCores s))) (coreTable s) s

/-- Writes the records of a stage and its summary; `late` are the units that failed for time, whose records are written already. -/
def fireStage (stage : Nat) (fs late : List Found) (result : Nat) (rejoin : Bool) (dur : Nat) (s : State) : State :=
  let s := fs.foldl (fun s f => fireLog stage f false rejoin dur 0 [] s) s
  if stage = 5 || stage = 6 then fireMap stage result rejoin dur s
  else fireLog stage (found result 0 0) true rejoin dur (unitCount (fs ++ late)) [] s

/-- The tower that reports an edge, and its edge there (N, E, S, W as 0 to 3). -/
def edgeOwner (i : Nat) : Nat × Nat :=
  if i < 12 then (4 * (i / 3) + i % 3, 1)
  else if i < 24 then (i - 12, 2)
  else
    let h := (i - 24) / 4
    let j := (i - 24) % 4
    if h = 0 then (j, 0) else if h = 1 then (4 * j + 3, 1) else if h = 2 then (12 + j, 2) else (4 * j, 3)

/-- The locator of a bridge lane group. -/
def brgUnit (d g : Nat) : Nat :=
  let i := d / 2
  if 40 ≤ i then 7 * 2 ^ 28 + (i - 40) * 2 ^ 24 + d % 2 * 2 ^ 21 + g * 8 + 1
  else
    let o := edgeOwner i
    7 * 2 ^ 28 + o.1 * 2 ^ 24 + o.2 * 2 ^ 22 + (if i < 24 then d % 2 else 1 - d % 2) * 2 ^ 21 + g * 8

/-! ## Stages in order (R347, R350) -/

/-- Whether stage n can start: it is next, and the module is powered and out of reset. -/
def stageDue (s : State) (n : Nat) : Bool :=
  s.boot.next == some n && s.pwr.vaux && s.pwr.sw && !s.pwr.rst && !s.pwr.inReset && !s.pwr.kiln

/-- Start-up stops: the device is fatal. -/
def bootStop (s : State) : State :=
  { s with fatal := true, faultN := true, boot := { s.boot with next := none, stopped := true, late := false } }

/-- The locator of a unit of stage n as the stage numbers its units: bridge direction, tower, bank column, package, engine, or
the hub whose firmware starts. -/
def timeLoc (n unit : Nat) : Nat :=
  if n = 4 then brgUnit unit 0 else if n = 5 then srcTower unit else if n = 6 then srcCol unit else if n = 7 then srcIndex 9 unit
  else if n = 8 then srcIndex 10 unit else srcIndex 1 unit

/-- A unit that failed stage n for time (R352). -/
def foundLate (n unit : Nat) : Found := found 2 (timeLoc n unit) 0x0062

/-- Ends a stage: its records, its summary, and the next stage. -/
def stageEnd (n : Nat) (fs : List Found) (stop reused : Bool) (dur : Nat) (s : State) : State :=
  let late := s.boot.timed.map (foundLate n)
  let r := if stop then 4 else sumResult (fs ++ late) reused
  let s := fireStage n fs late r false dur s
  let s := { s with stage := n, boot := { s.boot with timed := [], next := if n < 9 then some (n + 1) else none } }
  if stop then bootStop s else s

/-- A unit of the running stage exceeds the stage's time limit (R352): a bridge direction, tower, bank column, package,
engine or the firmware of a hub, as the stage numbers its units. -/
def execStageTimeLimit (unit : Nat) (s : State) : Res :=
  match s.boot.next with
  | some n =>
    if n < 4 || !stageDue s n then .next s
    else .next (fireLog n (foundLate n unit) false false 0 0 [] { s with boot := { s.boot with timed := nsAdd s.boot.timed unit } })
  | none => .next s

/-- Whether the running stage counts a unit as failed for time. -/
def timedOut (s : State) (u : Nat) : Bool := nsHas s.boot.timed u

/-! ## Lanes and spares (R355) -/

def brgGrp (s : State) (k : Nat) : LaneGrp := stGet (fun _ => LaneGrp.empty) s.boot.brg k
def setBond (k : Nat) (g : LaneGrp) (s : State) : State :=
  { s with boot := { s.boot with bond := stSet (fun _ => LaneGrp.empty) s.boot.bond k g } }
def setBrg (k : Nat) (g : LaneGrp) (s : State) : State :=
  { s with boot := { s.boot with brg := stSet (fun _ => LaneGrp.empty) s.boot.brg k g } }

/-- The lowest-numbered spare of a group with `n` spares that is good and free. -/
def freeSpare (n : Nat) (g : LaneGrp) : Option Nat :=
  (List.range n).find? (fun i => !g.sp.any (fun e => e.1 == i) && !g.badSp.contains i)

/-- A lane of a group fails: lane 64 + i is spare i. A spare in use that fails is bad, and the lane that it replaced takes the
next one. Answers the group and the lane left without a spare, if any. -/
def failLane (n lane : Nat) (g : LaneGrp) : LaneGrp × Option Nat :=
  let hit := g.sp.find? (fun e => e.2 == lane || e.1 + 64 == lane)
  let g := match hit with
    | some e => { g with sp := g.sp.filter (fun x => x != e), badSp := nsAdd g.badSp e.1 }
    | none => if 64 ≤ lane then { g with badSp := nsAdd g.badSp (lane - 64) } else g
  let real := match hit with
    | some e => e.2
    | none => lane
  if 64 ≤ real then (g, none)
  else
    match freeSpare n g with
    | some i => ({ g with sp := g.sp ++ [(i, real)], bad := g.bad.filter (fun x => x != real) }, none)
    | none => ({ g with bad := nsAdd g.bad real }, some real)

/-- The locator of a bond lane group: group `g` of a bank column. -/
def bondUnit (col g : Nat) : Nat := srcCol col + 2 ^ 28 + g * 8

/-- The locator of the DRAM bank that holds a row of a column. -/
def bankUnit (col row : Nat) : Nat := srcCol col + 3 * 2 ^ 28 + rowLayer row * 2 ^ 11

/-! ## The runtime defect map (R354) -/

/-- The key of a row of a column in the retention profile. -/
def rowKey (e : Nat × Nat) : Nat := e.1 * 131072 + e.2

/-- Forgets what earlier tests found of a tower: its full test follows. Spare rows in use are one-time fuses (R363). -/
def forgetTower (n : Nat) (s : State) : State :=
  let brg := (List.range 40).filter (fun i => (edgeOwner i).1 == n)
  { s with
    cols := stDrop s.cols (544 * n) 544
    therm := { s.therm with lay := stDrop s.therm.lay (8 * n) 8 }
    boot := { s.boot with
      defCore := nsDrop s.boot.defCore (272 * n) 272
      defClu := nsDrop s.boot.defClu (16 * n) 16
      defRow := s.boot.defRow.filter (fun e => e.1 / 544 != n), retCol := nsDrop s.boot.retCol (544 * n) 544
      retP := stDel s.boot.retP n, prof := stDrop s.boot.prof (rowKey (544 * n, 0)) (544 * 131072)
      phRec := stDrop s.boot.phRec (8 * n) 8
      bond := stDrop s.boot.bond (544 * n * 134) (544 * 134)
      brg := brg.foldl (fun m i => stDrop m (24 * i) 24) s.boot.brg } }

/-- Copies the fused defects into the map: fused spares are in use, and a fused spare lane is bad. -/
def loadFuses (s : State) : State :=
  let f := s.boot.fuse
  let put (g : LaneGrp) (lane spare : Nat) : LaneGrp :=
    if 64 ≤ lane then { g with badSp := nsAdd g.badSp (lane - 64) }
    else if g.sp.any (fun e => e.2 == lane) then g else { g with sp := g.sp ++ [(spare, lane)] }
  let s := { s with boot := { s.boot with
    defCore := f.cores.foldl nsAdd s.boot.defCore, defClu := f.clus.foldl nsAdd s.boot.defClu } }
  let s := f.bond.foldl (fun s e => setBond e.1 (put (bondGrp s e.1) e.2.1 e.2.2) s) s
  f.brg.foldl (fun s e => setBrg e.1 (put (brgGrp s e.1) e.2.1 e.2.2) s) s

/-! ## The logical map (R356) -/

/-- Whether both columns of a core site have retired, as the test record holds it. -/
def bothRetired (s : State) (c : Nat) : Bool := nsHas s.boot.retCol (2 * c) && nsHas s.boot.retCol (2 * c + 1)

def siteUsable (s : State) (c : Nat) : Bool := !nsHas s.boot.defCore c && !bothRetired s c

def cluSites (s : State) (k : Nat) : List Nat := ((List.range 17).map (fun i => 17 * k + i)).filter (siteUsable s)

def cluUsable (s : State) (k : Nat) : Bool := !nsHas s.boot.defClu k && !(cluSites s k).isEmpty

/-- The four edges of a tower. -/
def towerEdges (n : Nat) : List Nat := (List.range 4).map (fun e => (twEdge n e).1)

def towerUsable (s : State) (n : Nat) : Bool :=
  nsHas s.pwr.rails (4 + n) && !nsHas s.lostTw n && !nsHas s.boot.defTw n && (towerEdges n).any (edgeUp s) &&
    (List.range 16).any (fun i => cluUsable s (16 * n + i))

/-- Adds a tower to a map under a logical number: its clusters and cores dense in physical order. -/
def mapTower (s : State) (n t : Nat) (m : LogMap) : LogMap :=
  let ks := ((List.range 16).map (fun i => 16 * n + i)).filter (cluUsable s)
  let m := { m with tw := stSet (fun _ => 0) m.tw n (t + 1) }
  ks.zipIdx.foldl (fun m e =>
    let m := { m with cl := stSet (fun _ => 0) m.cl e.1 (e.2 + 1) }
    ((cluSites s e.1).take 16).zipIdx.foldl (fun m x => { m with core := stSet (fun _ => 0) m.core x.1 (x.2 + 1) }) m) m

/-- The map of a start-up: usable towers dense in physical order. -/
def mapBuild (s : State) : LogMap :=
  ((List.range 16).filter (towerUsable s)).zipIdx.foldl (fun m e => mapTower s e.1 e.2 m) { tw := [], cl := [], core := [] }

/-- Puts a new map in force when it differs; LOG_TOWERS counts the numbers that start-up allocates. -/
def remap (m : LogMap) (s : State) : State :=
  if m = s.map then s else rupd 0x10 (fun w => wPut w 4 0 m.tw.length) (mapChange m s)

/-! ## Tests of towers: stages 4 to 6 -/

/-- Stage 4 on a set of edges (R359). -/
def trainEdges (edges : List Nat) (f : TestFind) (s : State) : List Found × State :=
  let dirs := edges.flatMap (fun i => [2 * i, 2 * i + 1])
  let (fs, s) := (f.brgLanes.filter (fun e => dirs.contains (e.1 / 12))).foldl (fun a e =>
    let r := failLane 4 e.2 (brgGrp a.2 e.1)
    let x : Found := { found 1 (brgUnit (e.1 / 12) (e.1 % 12)) 0x0010 with lane := e.2 }
    ((if r.2.isSome then a.1 else a.1 ++ [x]), setBrg e.1 r.1 a.2)) (([] : List Found), s)
  let fs := fs ++ (f.restarts.filter (fun d => dirs.contains d)).map (fun d => found 1 (brgUnit d 0) 0x0012)
  let dead (d : Nat) : Bool :=
    !edgeEnds s (d / 2) || (edgeTowers (d / 2)).any (fun n => f.noRoot.contains n || !nsHas s.pwr.rails (4 + n)) || timedOut s d
  let fails (d g : Nat) : Bool := !(brgGrp s (12 * d + g)).bad.isEmpty || f.brgDown.contains (12 * d + g)
  let fs := fs ++ dirs.flatMap (fun d => ((List.range 12).filter (fails d)).map (fun g => found 2 (brgUnit d g) 0x0011))
  let up := dirs.foldl (fun m d => (List.range 12).foldl (fun m g =>
    if dead d || fails d g then nsDel m (12 * d + g) else nsAdd m (12 * d + g)) m) s.boot.brgUp
  let s := { s with boot := { s.boot with brgUp := up, defTw := f.noRoot.foldl nsAdd s.boot.defTw } }
  let fs := fs ++ f.noRoot.flatMap (fun n => found 2 (srcTower n) 0x0014 ::
    (List.range 4).map (fun e => found 2 (7 * 2 ^ 28 + n * 2 ^ 24 + e * 2 ^ 22) 0x0013))
  let low := edges.filter (fun i => !edgeUp s i && edgeEnds s i && !(edgeTowers i).any (fun n => f.noRoot.contains n))
  (fs ++ low.map (fun i => found 2 (brgUnit (2 * i) 0) 0x0013), s)

/-- Stage 5 on a set of towers (R360): new defects. -/
def testTowers (ts : List Nat) (f : TestFind) (s : State) : List Found × State :=
  let fail (n : Nat) : Bool := f.logic.contains n || !nsHas s.pwr.rails (4 + n)
  let bad := ts.filter (fun n => fail n || timedOut s n)
  let rt := f.routers.filter (fun k => ts.contains (k / 16))
  let cl := f.clus.filter (fun k => ts.contains (k / 16))
  let me := f.mems.filter (fun c => ts.contains (c / 272))
  let en := f.engines.filter (fun c => ts.contains (c / 272))
  let fs := (bad.filter (fun n => fail n && !timedOut s n)).map (fun n => found 2 (srcTower n) 0x0020) ++ (rt ++ cl).map (fun k => found 2 (srcClu 3 k) 0x0023) ++
    me.map (fun c => found 1 (srcCore c) 0x0021) ++ en.map (fun c => found 1 (srcCore c) 0x0022)
  (fs, { s with boot := { s.boot with
    defTw := (bad ++ rt.map (fun k => k / 16)).foldl nsAdd s.boot.defTw
    defClu := cl.foldl nsAdd s.boot.defClu
    defCore := (me ++ en).foldl nsAdd s.boot.defCore } })

/-- The full test writes its backgrounds over every scratchpad, IMEM and cluster SRAM block of a tower (R360, R429). -/
def wipeSrams (n : Nat) (s : State) : State :=
  { s with
    sp := stDrop s.sp (spKey (272 * n) 0) (272 * 2 ^ 19), spChk := stDrop s.spChk (spChkKey (272 * n) 0) (272 * 8192 * 16)
    csram := stDrop s.csram (csKey (16 * n) 0) (16 * 2 ^ 22), csChk := stDrop s.csChk (csBlk (16 * n) 0 * 16) (16 * 65536 * 16) }

/-- Retires a column in the test record, and with it in service. -/
def markRetired (col : Nat) (s : State) : State :=
  let s := colupd col (fun u => { u with state := 2, migrated := false }) s
  { s with boot := { s.boot with retCol := nsAdd s.boot.retCol col } }

/-! ### Retention and row repair (R362, R363) -/

/-- The integer part of a k-th root below 2³². -/
def rootFloor (k n : Nat) : Nat :=
  (List.range 32).foldl (fun r i => if (r + 2 ^ (31 - i)) ^ k ≤ n then r + 2 ^ (31 - i) else r) 0

/-- The retention reference P = 32 ms · 2^((95 − T) / 10) in µs, rounded down, at T in 0.25 °C. -/
def retRef (t : Int) : Nat :=
  if t ≤ 380 then rootFloor 40 (32000 ^ 40 * 2 ^ (380 - t).toNat) else rootFloor 40 (32000 ^ 40 / 2 ^ (t - 380).toNat)

/-- The pauses of a tower that count: one during which a layer moved by more than 5 °C is repeated. -/
def pauses (f : TestFind) (n : Nat) : List Pause := f.holds.filter (fun h => h.tower == n && h.move ≤ 20)

/-- The first pause, P, 2P, 4P or 8P as 1 to 4, that a row did not hold; 0 when it held all. -/
def rowFail (hs : List Pause) (e : Nat × Nat) : Nat :=
  ((hs.filter (fun h => h.lost.contains e)).map (fun h => h.mult + 1)).foldl (fun a m => if a = 0 then m else min a m) 0

/-- Records the references and the retention profile of a tower. -/
def retentionTest (f : TestFind) (n : Nat) (s : State) : State :=
  let hs := pauses f n
  if hs.isEmpty then s
  else
    let p (b : Nat) : Nat := match hs.find? (fun h => h.bg == b) with
      | some h => retRef h.temp
      | none => 0
    let rows := (hs.flatMap (fun h => h.lost)).eraseDups
    { s with boot := { s.boot with
        retP := stSet (fun _ => []) s.boot.retP n ((List.range 8).map p)
        prof := rows.foldl (fun m e => stSet (fun _ => 0) m (rowKey e) (rowFail hs e)) s.boot.prof } }

/-- The spare rows in use in the bank of a row: those fused at manufacture and those that repair took since. -/
def bankKey (e : Nat × Nat) : Nat := e.1 * 8 + rowLayer e.2
def sparesTaken (s : State) (e : Nat × Nat) : Nat :=
  (s.boot.fuse.rows.filter (fun r => bankKey r == bankKey e)).length + stGet (fun _ => 0) s.boot.spareRow (bankKey e)

/-- Repairs a row with one of its bank's 16 spare rows. Without one, a weak row stays in service and is logged, and a defective
row retires its column. -/
def repairRow (weak : Bool) (a : List Found × State) (e : Nat × Nat) : List Found × State :=
  let s := a.2
  if sparesTaken s e < 16 then
    (a.1 ++ [found 1 (bankUnit e.1 e.2) 0x0032],
      { s with boot := { s.boot with
          spareRow := stSet (fun _ => 0) s.boot.spareRow (bankKey e) (stGet (fun _ => 0) s.boot.spareRow (bankKey e) + 1)
          defRow := s.boot.defRow.filter (fun x => x != e), prof := stDel s.boot.prof (rowKey e) } })
  else if weak then (a.1 ++ [found 1 (bankUnit e.1 e.2) 0], s)
  else (a.1 ++ [found 2 (srcCol e.1) 0x0033], markRetired e.1 s)

/-- The rows of towers that are defective, by the record, the March test or the loss of a bit within P, and those that are weak. -/
def rowsOf (s : State) (mine : Nat → Bool) (cls : Nat) : List (Nat × Nat) :=
  (s.boot.prof.filter (fun e => mine (e.1 / 131072) && e.2 == cls)).map (fun e => (e.1 / 131072, e.1 % 131072))
/-- The columns of the set whose tower held its rows in this test. -/
def held (mine : Nat → Bool) (f : TestFind) (col : Nat) : Bool := mine col && !(pauses f (col / 544)).isEmpty

def badRows (s : State) (mine : Nat → Bool) (f : TestFind) : List (Nat × Nat) :=
  (s.boot.defRow.filter (fun e => mine e.1) ++ f.rows.filter (fun e => mine e.1) ++ rowsOf s (held mine f) 1).eraseDups

/-- Defective rows are repaired first and weak rows next, by the pauses that ran. -/
def repairRows (mine : Nat → Bool) (f : TestFind) (s : State) : List Found × State :=
  let bad := badRows s mine f
  let r := bad.foldl (repairRow false) (([] : List Found), s)
  ((rowsOf r.2 (held mine f) 2).filter (fun e => !bad.contains e)).foldl (repairRow true) r

/-- The phases of a tower's layers (R31): a full test trains each, a warm start loads those of the record; `bad` names the layers
that do not train. -/
def trainPhases (n : Nat) (bad : List Nat) (s : State) : State :=
  if !nsHas s.pwr.rails (4 + n) || nsHas s.lostTw n || nsHas s.boot.defTw n then s
  else
    let s := iter 8 (fun m s =>
      if bad.contains m then s
      else
        let (v, s) := if nsHas s.boot.reuse n then (stGet (fun _ => 0) s.boot.phRec (8 * n + m), s) else takeFree s
        { s with
          pwr := { s.pwr with phase := stSet (fun _ => 0) s.pwr.phase (8 * n + m) (v % 64) }
          boot := { s.boot with phRec := stSet (fun _ => 0) s.boot.phRec (8 * n + m) (v % 64) } }) s
    rupd (towerBase n + 0x20) (fun w =>
      wPut w 23 16 (sumNat ((List.range 8).map (fun m => if bad.contains m then 0 else 2 ^ m)))) s

/-- Stage 6 on a set of towers, tests and repair (R361 to R363). Columns that the record holds as retired, or whose lanes have no
spare, retire again. -/
def testBonds (ts : List Nat) (f : TestFind) (s : State) : List Found × State :=
  let mine (col : Nat) : Bool := ts.contains (col / 544)
  let (fs, s) := (f.bondLanes.filter (fun e => mine (e.1 / 134))).foldl (fun a e =>
    let col := e.1 / 134
    let r := failLane 2 e.2 (bondGrp a.2 e.1)
    let out := r.2.isSome
    let x : Found := { found (if out then 2 else 1) (bondUnit col (e.1 % 134)) (if out then 0x0031 else 0x0030) with lane := e.2 }
    (a.1 ++ [x], (if out then markRetired col else id) (setBond e.1 r.1 a.2))) (([] : List Found), s)
  let spent := (s.boot.bond.filter (fun e => mine (e.1 / 134) && !e.2.bad.isEmpty)).map (fun e => e.1 / 134)
  let (rs, s) := repairRows mine f (ts.foldl (fun s n => retentionTest f n s) s)
  let ph := f.phase.filter (fun e => mine e.1)
  let s := (s.boot.retCol.filter mine ++ spent ++ ph.map (fun e => e.1) ++ s.boot.timed.filter mine).foldl
    (fun s c => markRetired c s) s
  (fs ++ rs ++ ph.map (fun e => found 2 (srcCol e.1) 0x0034),
    ts.foldl (fun s n => trainPhases n ((ph.filter (fun e => e.1 / 544 == n)).map (fun e => e.2)) s) s)

/-- Zeroes a tower's tier 1 with valid check symbols and clears its frame tags (R349, R403); what partitions had still to zero
there is done with it. -/
def zeroTower (n : Nat) (s : State) : State :=
  { s with
    t1 := stDrop s.t1 (t1Key (272 * n) 0) (272 * 2 ^ 28), t1Chk := stDrop s.t1Chk (t1ChkKey (272 * n) 0) (272 * 2 ^ 22 * 3)
    ftag := stDrop s.ftag (ftKey (544 * n) 0) (544 * 8192), noReuse := nsDrop s.noReuse (ftKey (544 * n) 0) (544 * 8192)
    zeroQ := stDrop s.zeroQ (16 * n) 16
    parts := s.parts.map (fun e => (e.1, { e.2 with zeroLeft := e.2.zeroLeft.filter (fun z => z.tier2 || z.col / 544 != n) })) }

/-! ## Test records (R348, R349) -/

def recOf (s : State) (u : Nat) : TestRec := stGet (fun _ => TestRec.none) s.boot.recs u
def setRec (u : Nat) (r : TestRec) (s : State) : State :=
  { s with boot := { s.boot with recs := stSet (fun _ => TestRec.none) s.boot.recs u r } }

/-- The test-program version of the authenticated Relub image. -/
def testVer (s : State) : Nat := Config.testVersion (((s.sec.run.find? (fun e => e.1 == 0)).map (fun e => e.2.digest)).getD [])

/-- Whether a unit's record is valid: it matches the device and the image, covers no more than 720 hours (2.592 × 10¹⁵ ns), no
kiln-sitter trip followed it, and the last start-up that used it completed. -/
def recValid (s : State) (u : Nat) : Bool :=
  let r := recOf s u
  r.made && !r.tripped && !r.inUse && !s.boot.full && decide (s.ns ≤ r.since + 2592000000000000) &&
    r.serial == Config.serial.toNat && r.digest == s.sec.fuseDigest && r.ver == testVer s

/-- The record that a full test writes, in use until stage 9 completes. -/
def freshRec (s : State) : TestRec :=
  { made := true, serial := Config.serial.toNat, digest := s.sec.fuseDigest, ver := testVer s, since := s.ns, tripped := false,
    inUse := true }

/-- Writes the records of units that a full test covered, in the stores of hubs that are present. -/
def writeRecs (us : List Nat) (s : State) : State :=
  (us.filter (fun u => !hubAbsent s (if u < 16 then homeHub u else u - 16))).foldl (fun s u => setRec u (freshRec s) s) s

/-- Units of the test records: 16 towers and 4 quarters. -/
def recUnits : List Nat := List.range 20

/-- Whether every tower reuses its record. -/
def towersReused (s : State) : Bool := (List.range 16).all (nsHas s.boot.reuse)

/-! ## Stages 0 to 3 -/

/-- The row of Table CLK.3 of a rail. -/
def railRow (r : Nat) : Nat :=
  if r < 4 then 6 else if r < 20 then 3 else if r = 20 then 7 else if r = 21 then 8 else if r = 22 then 1
  else if r = 23 then 2 else if r < 40 then 5 else 4

/-- Whether a rail out of range stops start-up: VAUX, H0's rail, or VBUS, from which H0's regulator takes it. -/
def railStops (r : Nat) : Bool := r == 0 || r == 22 || r == 23

/-- Stage 0: the rails come up in the order of R36, and the root PLL locks. `bad` lists rails out of range. -/
def execStage0 (pll : Bool) (bad : List Nat) (dur : Nat) (s : State) : Res :=
  if !stageDue s 0 then .next s
  else
    let stop := !pll || bad.any railStops
    let rails := if bad.any railStops then [] else if !pll then [0, 23] else railsUp bad
    let fs := (if pll then [] else [found 4 0 0x0001]) ++ bad.map (fun r =>
      found (if railStops r then 4 else 2) (srcIndex 11 (railRow r)) 0x0002)
    .next (stageEnd 0 fs stop false dur { s with pwr := { s.pwr with rails := rails } })

/-- Draws a fresh authorisation nonce (R432). -/
def freshNonce (s : State) : State :=
  iter 8 (fun i s =>
    let (v, s) := takeFree s
    rset (secBase + 0x10 + 4 * i) (BitVec.ofNat 32 v) s) s

/-- The image that stage 1 takes for a hub: the staged one when it checks, else the previous one (R350). -/
def bootImage (s : State) (im : BootImages) (h : Nat) : Option FwImg :=
  let fac : FwImg := { svn := im.svn, digest := im.digest }
  let ok (good : Bool) (x : FwImg) : Option FwImg := if good && decide (s.sec.svnFuse ≤ x.svn) then some x else none
  let get (st : Store FwImg) : FwImg := ((st.find? (fun e => e.1 == h)).map Prod.snd).getD fac
  (ok im.stagedOk (get s.sec.staged)).orElse (fun _ => ok im.prevOk (get s.sec.prev))

/-- Reads the fuses once: they never change but by burning. -/
def readFuses (f : FuseBank) (m : FuseMap) (s : State) : State :=
  if s.sec.lcFuse ≠ 0 then s
  else { s with
    sec := { s.sec with lcFuse := f.lc, svnFuse := f.svn, vendorKeys := f.keys, fuseDigest := f.digest }
    boot := { s.boot with fuse := m } }

/-- The life-cycle and debug state of a start-up (R431): a pending debug change takes effect at a cold start. -/
def bootDebug (s : State) : State :=
  let lc := s.sec.lcFuse
  let dbg := match s.sec.pendDebug with
    | some c => if s.boot.full then c == 0x80 else s.sec.debug
    | none => s.sec.debug
  let dbg := dbg && lc != 3 && lc != 5
  let pend := if s.boot.full then none else s.sec.pendDebug
  rset secBase (BitVec.ofNat 32 (lc + b2n dbg * 2 ^ 15 + b2n pend.isSome * 2 ^ 16))
    { s with sec := { s.sec with debug := dbg, pendDebug := pend } }

/-- Stage 1: fuses, life cycle, boot image, identity keys, fused limits and the runtime defect map. A failure stops start-up
after stage 2. `lid` says that the lid switch reads open. -/
def execStage1 (f : FuseBank) (im : BootImages) (recs : FuseMap) (lid : Bool) (dur : Nat) (s : State) : Res :=
  if !stageDue s 1 then .next s
  else
    let s := { s with pwr := { s.pwr with lidOpen := lid } }
    let bad (detail : Nat) (s : State) : Res :=
      let s := stageEnd 1 [found 4 0 detail] false false dur s
      .next { s with boot := { s.boot with late := true } }
    if !f.ok then bad 0x0003 s
    else
      let s := readFuses f recs s
      if s.sec.lcFuse = 5 then bad 0x0005 s
      else if (bootImage s im 0).isNone then bad 0x0004 s
      else
        let run := (List.range 4).filterMap (fun h => (bootImage s im h).map (fun x => (h, x)))
        let fac (st : Store FwImg) : Store FwImg :=
          (List.range 4).map (fun h => ((st.find? (fun e => e.1 == h)).getD (h, { svn := im.svn, digest := im.digest })))
        let s := { s with
          sec := { s.sec with run := run, staged := fac s.sec.staged, prev := fac s.sec.prev, ids := !s.pwr.lidOpen } }
        let s := freshNonce (bootDebug s)
        let svn := ((bootImage s im 0).map (fun x => x.svn)).getD 0
        let s := rset (secBase + 8) (BitVec.ofNat 32 (svn * 256 + s.sec.svnFuse)) s
        let s := rset thmBase (BitVec.ofNat 32 (6000 * 65536 + 320)) s
        let s := iter 16 (fun n s => rset (thmBase + 0x180 + 4 * n) (BitVec.ofNat 32 (1024 * 2 ^ 20 +
          Config.fusedR0 n % 512 * 2 ^ 11)) s) s
        let s := rset 0xC (Config.serial.extractLsb' 32 32) (rset 0x8 (Config.serial.extractLsb' 0 32) s)
        let reuse := recUnits.filter (recValid s)
        let s := { s with boot := { s.boot with reuse := reuse, warm := !reuse.isEmpty, defTw := [] } }
        let s := loadFuses (((List.range 16).filter (fun n => !reuse.contains n)).foldl (fun s n => forgetTower n s) s)
        let used := recUnits.filter (fun u => (recOf s u).made && !reuse.contains u)
        .next (stageEnd 1 (used.map (fun u => found 1 (if u < 16 then srcTower u else srcIndex 1 (u - 16)) 0x0060)) false false
          dur s)

/-- The word of HP_LINK for a trained link (R286): FLIT at 64 GT/s. -/
def linkWord (up : Bool) (speed width : Nat) : Nat :=
  if !up then 0
  else b2n (decide (speed < 5) || decide (width < 8)) * 2 ^ 12 + b2n (speed == 6) * 2 ^ 11 + 2 ^ 10 + width % 64 * 16 + speed % 16

/-- Stage 2: the host link. `speed` and `width` are those of HP_LINK. Start-up stops here for a failure of stage 1. -/
def execStage2 (up : Bool) (speed width dur : Nat) (s : State) : Res :=
  if !stageDue s 2 then .next s
  else
    let s := rset 0x100 (BitVec.ofNat 32 (linkWord up speed width)) s
    let s := rupd 0x14 (fun w => wPut w 16 16 (b2n up)) s
    let late := s.boot.late
    let s := stageEnd 2 (if up then [] else [found 2 (srcIndex 10 16) 0x0006]) false false dur s
    .next (if late then bootStop s else s)

/-- Stage 3: hub self-tests. `bad` lists the hubs that fail; a hub without its rail or its root fails too. The kiln-sitter and tamper records are loaded. -/
def execStage3 (bad : List Nat) (dur : Nat) (s : State) : Res :=
  if !stageDue s 3 then .next s
  else
    let fails := (List.range 4).filter (fun h =>
      bad.contains h || !nsHas s.pwr.rails h || noRoot s (16 + h) || hubAbsent s h)
    let s := fails.foldl (fun s h => if h = 0 then s else hset h { HubSt.reset with lost := true } s) s
    let s := rupd (hubBase 0) (fun w => wPut w 4 2 (sumNat ([1, 2, 3].map (fun h => if fails.contains h then 2 ^ (h - 1) else 0))))
      (publishHubs s)
    let s := rset (thmBase + 0x1C4) s.therm.kilnNv (rset (secBase + 4) s.sec.tamperNv s)
    let lost (u : Nat) : Bool := fails.contains (if u < 16 then homeHub u else u - 16)
    let drop := s.boot.reuse.filter lost
    let s := { s with boot := { s.boot with reuse := s.boot.reuse.filter (fun u => !lost u) } }
    let s := { s with boot := { s.boot with warm := !s.boot.reuse.isEmpty } }
    let s := loadFuses ((drop.filter (fun u => u < 16)).foldl (fun s n => forgetTower n s) s)
    let s := stageEnd 3 (fails.map (fun h => found (if h = 0 then 4 else 2) (srcIndex 1 h) 0x0007)) (fails.contains 0) false dur s
    .next (if wBit s.therm.kilnNv 31 then
      logErr { hub := 0, code := 0x0403, part := none, source := srcTower (wFld s.therm.kilnNv 29 26), engine := 19,
               logical := 0, addr := 0, detail := s.therm.kilnNv.toNat } s else s)

/-! ## Stages 4 to 9 -/

/-- The findings with the towers among `ts` that receive no root because a die upstream stopped (R26, R359). -/
def withRoots (ts : List Nat) (f : TestFind) (s : State) : TestFind :=
  { f with noRoot := f.noRoot ++ ts.filter (fun n => noRoot s n && !f.noRoot.contains n) }

/-- Stage 4: every bridge. From here on a reused record counts as in use until stage 9 completes. -/
def execStage4 (f : TestFind) (s : State) : Res :=
  if !stageDue s 4 then .next s
  else
    let s := s.boot.reuse.foldl (fun s u => setRec u { recOf s u with inUse := true } s) s
    let (fs, s) := trainEdges (List.range 44) (withRoots (List.range 16) f s) s
    .next (stageEnd 4 fs false false f.dur s)

/-- What the tests of stages 5 and 6 find of towers that get the full test: on a tower whose record is reused, the record stands
for memories, engines and retention (R360, R363). -/
def fullFind (s : State) (f : TestFind) : TestFind :=
  let full (n : Nat) : Bool := !nsHas s.boot.reuse n
  { f with clus := f.clus.filter (fun k => full (k / 16)), mems := f.mems.filter (fun c => full (c / 272)),
           engines := f.engines.filter (fun c => full (c / 272)), holds := f.holds.filter (fun h => full h.tower) }

/-- Stage 5: tower logic, cores and SRAMs, and the logical map. It stops start-up when no tower is usable. -/
def execStage5 (f : TestFind) (s : State) : Res :=
  if !stageDue s 5 then .next s
  else
    let (fs, s) := testTowers (List.range 16) (fullFind s f) s
    let s := ((List.range 16).filter (fun n => !nsHas s.boot.reuse n)).foldl (fun s n => wipeSrams n s) s
    let s := remap (mapBuild s) s
    .next (stageEnd 5 fs s.map.tw.isEmpty (towersReused s) f.dur s)

/-- Stage 6: bonds and tier 1. -/
def execStage6 (f : TestFind) (s : State) : Res :=
  if !stageDue s 6 then .next s
  else
    let (fs, s) := testBonds (List.range 16) (fullFind s f) s
    let s := remap (mapBuild s) { s with t1 := [], t1Chk := [], ftag := [], noReuse := [], zeroQ := [],
                                         sec := { s.sec with dirty := [] } }
    let s := writeRecs ((List.range 16).filter (fun n =>
      !nsHas s.boot.reuse n && nsHas s.pwr.rails (4 + n) && !nsHas s.lostTw n && !nsHas s.boot.defTw n)) s
    .next (stageEnd 6 fs false (towersReused s) f.dur s)

/-- Stage 7: tier 2. `bad` lists packages with their detail: 0x0040 and 0x0041 fail, 0x0032 is a repair (R364). -/
def execStage7 (bad : List (Nat × Nat)) (dur : Nat) (s : State) : Res :=
  if !stageDue s 7 then .next s
  else
    let rail := nsHas s.pwr.rails 20
    let fails (k : Nat) : Bool := bad.any (fun e => e.1 == k && e.2 != 0x0032) || !rail || timedOut s k || hubAbsent s (k / 6)
    let dead := ((List.range 24).filter (fun k => !rail && !hubAbsent s (k / 6))).map (fun k => found 2 (srcIndex 9 k) 0x0040)
    let fs := (if rail then bad.map (fun e => found (if e.2 = 0x0032 then 1 else 2) (srcIndex 9 e.1) e.2) else dead).filter
      (fun f => !s.boot.timed.any (fun k => srcIndex 9 k == f.unit))
    let s := iter 4 (fun h s => rupd (hubBase h) (fun w =>
      wPut w 15 10 (sumNat ((List.range 6).map (fun i => if fails (6 * h + i) then 0 else 2 ^ i)))) s) s
    let s := { s with
      t2 := [], t2poison := [], t2q := [], sec := { s.sec with dirtyT2 := [] }
      boot := { s.boot with pkgBad := (List.range 24).filter (fun k => fails k && !hubAbsent s (k / 6)) } }
    let s := writeRecs ((List.range 4).filterMap (fun h => if nsHas s.boot.reuse (16 + h) then none else some (16 + h))) s
    .next (stageEnd 7 fs false
      ((List.range 4).all (fun h => nsHas s.boot.reuse (16 + h))) dur s)

/-- The number of bits set among the low eight. -/
def pop8 (m : Nat) : Nat := ((List.range 8).filter (fun i => bitAt m i)).length

/-- The width of a port direction (R323, R332). -/
def portWidth (ucie good : Nat) : Nat :=
  let m := min (pop8 good) (if ucie = 3 then 8 else 4)
  if ucie = 0 then 0 else if 8 ≤ m then 8 else if 4 ≤ m then 4 else if 2 ≤ m then 2 else 0

/-- The wavelengths that a direction of a given width uses: the lowest-numbered that qualify (R323). -/
def lanesUsed (width good : Nat) : List Nat := ((List.range 8).filter (fun i => bitAt good i)).take width

/-- FAB_PORT_STAT of a port after stage 8 or a retraining. -/
def portWord (f : EngineFind) : Nat :=
  let t := portWidth f.ucie f.tx
  let r := portWidth f.ucie f.rx
  if !f.qualified then 6 * 2 ^ 29
  else (if t ≠ 0 && r ≠ 0 then 3 else 0) * 2 ^ 29 + f.ucie % 4 * 2 ^ 27 + t * 2 ^ 23 + r * 2 ^ 19 + Nat.land f.tx f.rx % 256 * 2 ^ 11

/-- The link layer of a port as training leaves it: fresh, with the wavelengths in use where it is up (R323). -/
def FPort.trained (f : EngineFind) : FPort :=
  let t := portWidth f.ucie f.tx
  let r := portWidth f.ucie f.rx
  if f.qualified && t != 0 && r != 0 then { FPort.fresh with txOn := lanesUsed t f.tx, rxOn := lanesUsed r f.rx } else FPort.fresh

/-- Stage 8: the optical engines, with the finding at each engine of a present hub. -/
def execStage8 (eng : List EngineFind) (dur : Nat) (s : State) : Res :=
  if !stageDue s 8 then .next s
  else
    let s0 := s
    let here (p : Nat) : Bool := !hubAbsent s (p / 4)
    let f (p : Nat) : EngineFind :=
      let e := listAt eng p { id := 0, qualified := true, ucie := 0, tx := 0, rx := 0 }
      if timedOut s p || !nsHas s.pwr.rails 21 then { e with ucie := 0, tx := 0, rx := 0 } else e
    let s := iter 16 (fun p s =>
      if !here p then s
      else
        let s := rset (fportKey p 0) (BitVec.ofNat 32 (portWord (f p))) (rset (fportKey p 8) (f p).id s)
        let s := { s with
          boot := { s.boot with oeHeld := if (f p).qualified then nsDel s.boot.oeHeld p else nsAdd s.boot.oeHeld p }
          fab := { s.fab with ports := stSet (fun _ => FPort.reset) s.fab.ports p (FPort.trained (f p)) } }
        grantAll p 32 (publishPort p s)) s
    let fs := ((List.range 16).filter here).filterMap (fun p =>
      if !(f p).qualified then some (found 3 (srcIndex 10 p) 0x0050)
      else if timedOut s0 p then none
      else if portState s p = 3 then none else some (found 2 (srcIndex 10 p) 0x0051))
    .next (stageEnd 8 fs false false dur s)

/-- The exclusion masks that are due (R270, R272): hubs, towers, and boundary ports by 4 · edge + port, with the ring
links at 160 to 163. -/
def dueHub (s : State) : Nat := sumNat ((List.range 4).map (fun h => if hubAbsent s h then 2 ^ h else 0))
def dueTwr (s : State) : Nat :=
  sumNat ((List.range 16).map (fun n => if nsHas s.lostTw n || (twLog s n).isNone then 2 ^ n else 0))
def edgePortUp (s : State) (i j : Nat) : Bool :=
  (List.range 3).any (fun g => nsHas s.boot.brgUp (24 * i + 3 * j + g)) &&
    (List.range 3).any (fun g => nsHas s.boot.brgUp (24 * i + 12 + 3 * j + g))
def duePort (s : State) : NatSet :=
  (List.range 164).filter (fun k =>
    let i := if k < 160 then k / 4 else k - 120
    !edgeUp s i || edgeTraining s i || edgeDue s i || (k < 160 && !edgePortUp s i (k % 4)))

/-- Loads escape tables and masks into every router and interface (R272). -/
def routeLoad (s : State) : State :=
  { s with net := { s.net with xHub := dueHub s, xTwr := dueTwr s, xPort := duePort s } }

/-- GLB_TESTREC at the end of a start-up. -/
def testRecWord (s : State) : Nat :=
  let ages := s.boot.reuse.map (fun u => (s.ns - (recOf s u).since) / 3600000000000)
  b2n (towersReused s) * 2 ^ 31 + min (ages.foldl max 0) 1023 * 2 ^ 16 +
    sumNat ((List.range 16).map (fun n => if nsHas s.boot.reuse n then 2 ^ n else 0))

/-- Stage 9: the main firmware starts, tables and map are loaded, test records close, and a newer SVN is burned. -/
def execStage9 (ok : Bool) (dur : Nat) (s : State) : Res :=
  if !stageDue s 9 then .next s
  else if !ok || timedOut s 0 then
    .next (stageEnd 9 (if timedOut s 0 then [] else [found 4 (srcIndex 1 0) 0x0061]) true false dur s)
  else
    let s := rset 0x48 (BitVec.ofNat 32 (testRecWord s)) s
    let s := recUnits.foldl (fun s u => setRec u { recOf s u with inUse := false } s) s
    let svn := max s.sec.svnFuse (wFld (rget s (secBase + 8)) 13 8)
    let s := rupd (secBase + 8) (fun w => wPut w 5 0 svn) { s with sec := { s.sec with svnFuse := svn } }
    let s := routeLoad { s with net := { s.net with oldMaps := [], moved := [] } }
    .next { stageEnd 9 [] false false dur s with booted := true }

/-! ## The reset pin (R347, R458) -/

def execRstNAssert (s : State) : Res := .next { s with pwr := { s.pwr with rst := true, descend := true } }

/-- 20 µs after the assertion every die is reset with the rails up, though RST_N may be high again (R458). -/
def execResetApply (s : State) : Res :=
  if !s.pwr.descend || s.pwr.inReset then .next s
  else
    let s := deviceReset s
    .next { s with pwr := { s.pwr with inReset := true } }

/-- RST_N is released. A release that follows the completed reset, or one with no rail up, begins a start-up where VIN is at 40 V or
more; one before it leaves the reset to complete, and the device in reset until the next release (R458). -/
def execRstNRelease (s : State) : Res :=
  if !s.pwr.rst then .next s
  else if !s.pwr.inReset && !s.pwr.rails.isEmpty then .next { s with pwr := { s.pwr with rst := false } }
  else
    let s := { s with pwr := { s.pwr with rst := false, inReset := false, descend := false } }
    .next (if canStart s then startBegin false s else s)

end Sys2Proof.Machine
end

