-- ==== Sys2Proof/Machine/Yield.lean ====
section
/-! DEFINITION. Repair and recovery in service: column retraining, migration and retirement, the generation switch, live
bridge retraining, route tables, and the rejoin of dies and hubs (R159, R197, R272, R358, R367 to R371, R411 to R413). -/

namespace Sys2Proof.Machine

/-! ## Retirement of a column (R370) -/

/-- A partition's model is discarded: at once, or when its running step ends. -/
def discardModel (p : Nat) (s : State) : State :=
  pupd p (fun q => if q.step.isSome then { q with dropModel := true } else { q with model := none }) s

/-- The free frames of a retired column leave its shard's pool. -/
def poolNoCol (p col : Nat) : Eng Unit := do
  let d ← theDir p
  let s ← get
  let k := coreClu (col / 2)
  match coLog s (col / 2) with
  | none => pure ()
  | some lc => do
    let base := (2 * lc + col % 2) * poolFrames d
    let free ← bmFree k (offFree d) (32 * poolFrames d) (ceilDiv (32 * poolFrames d) 512)
    let mine := free.filter (fun i => decide (base ≤ i) && decide (i < base + poolFrames d))
    engEach (fun i => bmPut k (offFree d) i false) mine
    modify (cluUpd k 0x110 (fun w => w - BitVec.ofNat 32 mine.length))

/-- Frames of a retired column wait for no zeroing: they leave every address space (R403). -/
def colNoZero (col : Nat) (s : State) : State :=
  { s with
    zeroQ := (s.zeroQ.map (fun e => (e.1, e.2.filter (fun f => f / 8192 != col)))).filter (fun e => !e.2.isEmpty)
    parts := s.parts.map (fun e => (e.1, { e.2 with zeroLeft := e.2.zeroLeft.filter (fun z => z.tier2 || z.col != col) })) }

/-- A core whose second column has retired leaves the logical map, its barriers break (R138, R357), and the firing log takes the
exposed count in a summary of stage 6 (R2). DEDUCED (log entry 185). -/
def withdrawCore (c : Nat) (s : State) : State :=
  let s := breakBarriers c s
  fireMap 6 2 false 0 (mapChange { s.map with core := stDel s.map.core c } (haltReqCore c s))

/-- A column retires. -/
def retireCol (col : Nat) (s : State) : State :=
  if (colget s col).state = 2 then s
  else
    let p := cluPart s (coreClu (col / 2))
    let s := match p with
      | some p => engRun (poolNoCol p col) (discardModel p s)
      | none => s
    let s := colNoZero col (colupd col (fun u => { u with retraining := false, phaseOut := [], queue := [] }) (markRetired col s))
    let s := logErr { hub := homeHub (coreTower (col / 2)), code := 0x0113, part := p, source := srcCol col, engine := 12,
                      logical := logicalField s (col / 2), addr := 0, detail := 0 } s
    if bothRetired s (col / 2) && (coLog s (col / 2)).isSome then withdrawCore (col / 2) s else s

/-! ## PART_RELEASE (R313) -/

/-- Migration of a released partition's pages stops, and its columns at risk retire at once (Table BOOT.8). -/
def retireRisk (p : Nat) (s : State) : State :=
  ((partCores s p).flatMap (fun c => [2 * c, 2 * c + 1])).foldl (fun s col =>
    if (colget s col).state = 1 then retireCol col s else s) s

/-- Releases a partition: its steps and waiting packets are cancelled, a locked confidential one goes through ERROR, its areas
are withdrawn and zeroing starts (R313, R411, R426, R427). Its columns at risk retire (Table BOOT.8). -/
def releasePart (p pkt : Nat) (s : State) : State :=
  let q := pget s p
  let s := launchesEnd p 0x0308 (stepEndNow p 0x0308 s)
  let s := (stuckPkts q).foldl (fun s id => complete id 0x0308 0 0 s) s
  let s := tdiError p s
  let running := decide ((pget s p).tdi = 3)
  let s := retireRisk p (if running then s else startZeroing p (dropAreas p s))
  zeroCheck p (pupd p (fun q => { q with state := 3, relPkt := some pkt }) s)

def execPartRelease (w : Fin 128) (s : State) : Res :=
  runCmd w 0x0102 (fun b => payAt b 0 1 / 2 != 0 || payNZ b 1 7) (fun k s =>
    let p := hPart k.bytes
    let busy := decide (launchesOf s p ≠ 0) || (pget s p).step.isSome
    if !bitAt (payAt k.bytes 0 1) 0 && busy then complete k.id 0x0304 0 0 s
    else releasePart p k.id s) s

/-! ## Column retraining (R367, R369, R371) -/

/-- Logs a suspect bond group: the detail holds group and lane. -/
def suspectErr (col g lane : Nat) (s : State) : State :=
  logErr { hub := homeHub (coreTower (col / 2)), code := 0x0112, part := cluPart s (coreClu (col / 2)), source := bondUnit col g,
           engine := 12, logical := logicalField s (col / 2), addr := 0, detail := g * 128 + lane } s

/-- Whether a suspect group of a column has no spare left (R369). -/
def spentSuspect (s : State) (col g : Nat) : Bool :=
  nsHas (colget s col).suspect g && (freeSpare 2 (bondGrp s (col * 134 + g))).isNone

/-- The groups of a column that hold a failed lane without a spare, or are suspect and have none left. -/
def spentGroups (s : State) (col : Nat) : List Nat :=
  (List.range 134).filter (fun g => !(bondGrp s (col * 134 + g)).bad.isEmpty || spentSuspect s col g)

/-- A column reports a lane group in which one octet corrected symbols in 8 different rows within 1 ms (R159). A group without a
spare makes the column at-risk, or, when another group has none either, retires it at once (R369, R371). A report for a retired
column is ignored and logged (Table BOOT.8). -/
def bondGroupSuspect (col g octet : Nat) (s : State) : State :=
  if (colget s col).state = 2 then suspectErr col g (8 * octet) s
  else
    let seen := nsHas (colget s col).suspect g
    let s := colupd col (fun u => { u with suspect := nsAdd u.suspect g }) s
    if (freeSpare 2 (bondGrp s (col * 134 + g))).isSome then s
    else
      let s := if seen then s else suspectErr col g (8 * octet) s
      if (spentGroups s col).any (fun h => h != g) then retireCol col s
      else if (colget s col).state = 0 then colupd col (fun u => { u with state := 1 }) s
      else s

def execBondGroupSuspect (col : Fin 8704) (group : Fin 134) (octet : Fin 8) (s : State) : Res :=
  let rows := stGet (fun _ => []) (colget s col).corr (group.val * 8 + octet)
  if (rows.filter (fun e => s.ns ≤ e.2 + 1000000)).length < 8 then .next s
  else .next (bondGroupSuspect col group octet s)

/-- A failed lane is spared, or its column turns at-risk, or, at-risk already in another group, retires at once. -/
def spareLane (col g lane : Nat) (s : State) : State :=
  let r := failLane 2 lane (bondGrp s (col * 134 + g))
  let told := r.2.isSome && nsHas (colget s col).suspect g
  let s := setBond (col * 134 + g) r.1 s
  let s := if told then s else suspectErr col g lane s
  if r.2.isNone then s
  else if 1 < (spentGroups s col).length then retireCol col s
  else if (colget s col).state = 0 then colupd col (fun u => { u with state := 1 }) s
  else s

/-- Clears LAYER_OK of layers of a tower (Table CLK.2a). -/
def layersOut (n : Nat) (ms : List Nat) (s : State) : State :=
  rupd (towerBase n + 0x20) (fun w => ms.foldl (fun w m => wPut w (16 + m) (16 + m) 0) w) s

/-- The layers whose phase a column trained track again, except those that another column of the tower still trains: each takes a
new sampling point. -/
def layersBack (col : Nat) (s : State) : State :=
  let n := col / 544
  let busy (m : Nat) : Bool :=
    (List.range 544).any (fun i => 544 * n + i != col && nsHas (colget s (544 * n + i)).phaseOut m)
  let s' := ((colget s col).phaseOut.filter (fun m => !busy m)).foldl (fun s m =>
    let (v, s) := takeFree s
    rupd (towerBase n + 0x20) (fun w => wPut w (16 + m) (16 + m) 1)
      { s with pwr := { s.pwr with phase := stSet (fun _ => 0) s.pwr.phase (8 * n + m) (v % 64) } }) s
  colupd col (fun u => { u with phaseOut := [] }) s'

/-- A column retrains. `lanes` are the lanes that the tower manager finds failed in its suspect groups, `layers` the layers whose
phase error lies beyond tracking (R31); neither is a recalibration. A report for a retired column is ignored and logged
(Table BOOT.8). -/
def columnRetrain (col : Nat) (lanes : List (Nat × Nat)) (layers : List Nat) (s : State) : State :=
  let ls := lanes.filter (fun e => e.1 < 134 && e.2 < 68)
  if (colget s col).state = 2 then ls.foldl (fun s e => suspectErr col e.1 e.2 s) (colupd col (fun u => { u with suspect := [] }) s)
  else
    let s := ls.foldl (fun s e => spareLane col e.1 e.2 s) s
    let ms := layers.filter (fun m => m < 8)
    let s := colupd col (fun u => { u with
      suspect := u.suspect.filter (fun g => !ls.any (fun e => e.1 == g)), retraining := u.state != 2
      phaseOut := if u.state = 2 then u.phaseOut else ms.foldl nsAdd u.phaseOut }) s
    if ms.isEmpty then s else layersOut (col / 544) ms s

def execColumnRetrain (col : Fin 8704) (lanes : ColFind) (s : State) : Res :=
  .next (columnRetrain col lanes.lanes lanes.layers s)

/-- The retraining ends: the new assignment takes effect and the queue resumes. `bad` are the lanes that failed its test twice:
each counts as failed, a new spare trains again, and a group without one retires the column (R355). -/
def execColumnRetrainDone (col : Fin 8704) (bad : List (Nat × Nat)) (s : State) : Res :=
  if !(colget s col).retraining then .next s
  else
    let ls := bad.filter (fun e => e.1 < 134 && e.2 < 68)
    let s := colupd col (fun u => { u with retraining := !ls.isEmpty }) s
    let s := if ls.isEmpty && !(colget s col).phaseOut.isEmpty then layersBack col s else s
    .next (ls.foldl (fun s e =>
      let r := failLane 2 e.2 (bondGrp s (col.val * 134 + e.1))
      let s := setBond (col.val * 134 + e.1) r.1 s
      if r.2.isSome then retireCol col s else s) s)

/-! ## Migration (R369 to R371) -/

/-- Whether a valid entry names a tier-1 page of a column. -/
def namesCol (s : State) (col e : Nat) : Bool :=
  pteValid e && pteTier e == 0 && (pageCol s (ptePage e)).any (fun x => x.1 == col)

/-- Every sequence of the generation under construction: its index. -/
def bldSeqs (p : Nat) : Eng (List Nat) := do
  let x ← editCtx p
  let k := listAt x.ks 0 0
  let l ← engMap (fun i => do
    let b ← bldPtr x.d k i
    pure (if b = 0 then none else some i)) (List.range x.d.maxSeq)
  pure (l.filterMap (fun v => v))

/-- The places of the generation under construction whose entries satisfy a test: sequence, layer-head, block. -/
def placesWith (p : Nat) (x : EditCtx) (f : Nat → Bool) : Eng (List (Nat × Nat × Nat)) := do
  let l ← bldSeqs p
  let r ← engMap (fun i => do
    let es ← entriesWith p i x f
    pure (es.map (fun a => (i, a.1, a.2)))) l
  pure r.flatten

/-- Moves one page of a column: a new frame of the shard takes its contents, tag and refcount, and every entry that names it is
rewritten. A page that cannot be read is lost. -/
def migratePage (p : Nat) (x : EditCtx) (page : Nat) (lose : Bool) (at' : List (Nat × Nat × Nat)) : Eng Unit := do
  match at' with
  | [] => pure ()
  | (i, lh, b) :: _ => do
    let e ← getBld p i x lh b
    let im ← t1Images e
    if lose || im.isNone then engEach (fun a => losePage p a.1 x a.2.1 a.2.2) at'
    else do
      let k := (shardOf x lh b).1
      let s ← get
      match pageCol s page with
      | none => pure ()
      | some (col, f) => do
        let (col', f') ← allocFrame p k (ptePair e)
        modify (fun s =>
          let s := copyFrame col f col' f' false s
          let s := if ptePair e then copyFrame col (f + 1) col' (f' + 1) false s else s
          ftSet col' f' (BitVec.ofNat 64 (putFld (ftGet s col' f').toNat 7 0 (frameVersion s col f))) s)
        let s ← get
        let new := colPageId s col' f'
        let _ ← dAdd k (refOff x.d (frameIdx x.d (pagePos new) f')) (at'.length - 1)
        engEach (fun a => do
          let o ← getBld p a.1 x a.2.1 a.2.2
          dropEntry p k o
          setBld p a.1 x a.2.1 a.2.2 (putFld (pteFresh s o) 31 0 new)) at'

/-- Every KV page of a column moves to other columns of its shard, by internal edit. -/
def migrateCol (p col : Nat) (lose : Bool) : Eng Unit := do
  let x ← editCtx p
  if x.d.queued then engFail 0x0304
  let s ← get
  let pl ← placesWith p x (namesCol s col)
  let tagged ← engMap (fun a => do
    let e ← getBld p a.1 x a.2.1 a.2.2
    pure (ptePage e, a)) pl
  engEach (fun g => migratePage p x g lose ((tagged.filter (fun t => t.1 == g)).map (fun t => t.2)))
    ((tagged.map (fun t => t.1)).eraseDups)
  autoCommit p

/-- Whether two spent groups of a column damage one code word of every row: group g carries symbols of code words
8 · (g mod 2) + octet (R156, R371). -/
def sharedDamage (s : State) (col : Nat) : Bool :=
  let octets (g : Nat) : List Nat :=
    let bad := (bondGrp s (col * 134 + g)).bad
    if bad.isEmpty then (List.range 8).filter (fun o => decide (8 ≤ (stGet (fun _ => []) (colget s col).corr (8 * g + o)).length))
    else bad.map (fun l => l / 8)
  let cw (g : Nat) : List Nat := (octets g).map (fun o => 8 * (g % 2) + o)
  let gs := spentGroups s col
  gs.any (fun g => gs.any (fun h => g != h && (cw g).any (fun c => (cw h).contains c)))

/-- The last page of a column has migrated and the device commits the generation; the column retires at the switch. A column
without a directory has no page, and retires. -/
def execMigrationComplete (col : Fin 8704) (s : State) : Res :=
  let u := colget s col
  if u.state = 0 || u.migrated then .next s
  else
    match (cluPart s (coreClu (col.val / 2))).bind (fun p => (pget s p).dir.map (fun _ => p)) with
    | none => .next (retireCol col s)
    | some p =>
      match (migrateCol p col (sharedDamage s col)).run s with
      | .error _ => .next s
      | .ok (_, s) => .next (if u.state = 1 then colupd col (fun u => { u with migrated := true }) s else s)

/-! ## The generation switch (R197, R370) -/

/-- Whether an entry of the current generation names a column. -/
def colNamed (p col : Nat) : Eng Bool := do
  let x ← curCtx p
  let s ← get
  let k := listAt x.ks 0 0
  let l ← engMap (fun i => do
    let b ← curPtr x.d k i
    if b = 0 then pure false
    else do
      let r ← engMap (fun lh => do
        match x.hs[lh]? with
        | none => pure false
        | some h => do
          let es ← engMap (fun b => getCur p i x lh b) (List.range (maxBlks h))
          pure (es.any (namesCol s col))) (List.range x.d.nlh)
      pure (r.any id)) (List.range x.d.maxSeq)
  pure (l.any id)

/-- The columns of a partition whose pages have all migrated retire at the switch. -/
def retireMigrated (p : Nat) (s : State) : State :=
  ((partCores s p).flatMap (fun c => [2 * c, 2 * c + 1])).foldl (fun s col =>
    if (colget s col).migrated then
      match (colNamed p col).run s with
      | .ok (false, s) => retireCol col s
      | _ => s
    else s) s

/-- Occurrences of a refcount error of a partition (code 0x0130, class 2). -/
def refErrs (s : State) (p : Nat) : Nat :=
  sumNat (s.hubs.map (fun e => sumNat (e.2.log.map (fun r =>
    if r.2.code == 0x0130 && r.2.pvalid && r.2.part == p then r.2.rep + 1 else 0))))

/-- No walker of the old generation remains, and the completed generation becomes current. A swap-in whose images are all in goes on.
A refcount error faults the partition, and its TDI enters ERROR (Table RAS.5, R425). -/
def generationSwitch (p : Nat) (s : State) : State :=
  if !switchDue s p then s
  else
    let n := refErrs s p
    let s := retireMigrated p (swapFinish p (switchGen p s))
    if n < refErrs s p then faultPart p (tdiError p s) else s

def execGenerationSwitch (p : Fin 64) (s : State) : Res := .next (generationSwitch p s)

/-! ## Live bridge retraining (R368) and route tables (R272) -/

/-- The die that receives a bridge direction: a tower, or 16 + hub. -/
def recvDie (d : Nat) : Nat :=
  let i := d / 2
  if i < 12 then edgeOwner i |>.1 |> (· + (if d % 2 = 0 then 1 else 0))
  else if i < 24 then i - 12 + (if d % 2 = 0 then 4 else 0)
  else if i < 40 then (if d % 2 = 0 then (edgeOwner i).1 else 16 + (i - 24) / 4)
  else 16 + (if d % 2 = 0 then (i - 39) % 4 else i - 40)

/-- The hub that logs for a die (R407). -/
def dieHub (d : Nat) : Nat := if d < 16 then homeHub d else d - 16

/-- An error of a bridge lane group, logged for the receiving die. -/
def brgErr (code d g detail : Nat) (s : State) : State :=
  logErr { hub := dieHub (recvDie d), code := code, part := none, source := brgUnit d g, engine := 11, logical := 0, addr := 0,
           detail := detail } s

/-- A tower none of whose edges carries traffic is a lost die (R368, Table BOOT.8). -/
def islandCheck (i : Nat) (s : State) : State :=
  (edgeTowers i).foldl (fun s n =>
    if (twLog s n).isSome && !(towerEdges n).any (fun e => edgeUp s e && !edgeTraining s e) then loseTower n s else s) s

/-- The exclusion ports of an edge: its four boundary ports, or a ring link (R270). -/
def edgePorts (i : Nat) : List Nat := if i < 40 then (List.range 4).map (fun j => 4 * i + j) else [120 + i]

/-- Whether a packet is still on its way on a normal channel across an edge (R272): a transaction until its response is received, a
remote write until it is performed. -/
def edgeCrossed (s : State) (i : Nat) : Bool :=
  let on (l : List Nat) : Bool := crossesPort l (fun k => (edgePorts i).contains k)
  s.net.txs.any (fun t => t.slot != 0 && !t.esc && (on t.out || on t.back)) || s.remote.any (fun r => !r.esc && on r.path)

/-- Whether a direction's asked retraining may start: its edge is excluded in the masks in force, and no packet on a normal channel
crosses it (R272). -/
def trainReady (s : State) (d : Nat) : Bool :=
  nsHas s.boot.brgDue d && (edgePorts (d / 2)).all (nsHas s.net.xPort) && !edgeCrossed s (d / 2)

/-- A direction whose retraining may start does. -/
def startTrain (d : Nat) (s : State) : State :=
  if !trainReady s d then s
  else islandCheck (d / 2) { s with boot := { s.boot with brgDue := nsDel s.boot.brgDue d, brgTrain := nsAdd s.boot.brgTrain d } }

/-- Every asked retraining that may start does. -/
def startTrains (s : State) : State := s.boot.brgDue.foldl (fun s d => startTrain d s) s

/-- A retraining of a direction is asked: its edge is to be excluded (R272). -/
def askTrain (d : Nat) (s : State) : State := { s with boot := { s.boot with brgDue := nsAdd s.boot.brgDue d } }

/-- Three poisoned crossing entries within 1 s: the edge of the direction is to be excluded, and the direction retrains live once
the masks are loaded and no packet on a normal channel crosses it (R272, R368). Performed again before that, the command starts a
retraining that has become possible. -/
def execBridgeLiveRetrain (d : Fin 88) (g : Fin 12) (s : State) : Res :=
  if !edgeUp s (d.val / 2) || nsHas s.boot.brgTrain d then .next s
  else if nsHas s.boot.brgDue d then .next (startTrain d s)
  else .next (askTrain d (iter 3 (fun _ s => brgErr 0x0201 d g 0 s) s))

/-- A group of a direction goes down. -/
def brgGroupDown (d g : Nat) (s : State) : State :=
  brgErr 0x0203 d g 0 { s with boot := { s.boot with brgUp := nsDel s.boot.brgUp (12 * d + g) } }

/-- A retrained direction qualifies: `lanes` were spared; `down` lists the groups that fail. -/
def bridgeDone (d : Nat) (lanes : List (Nat × Nat)) (down : List Nat) (s : State) : State :=
  let s := (lanes.filter (fun e => e.1 < 12 && e.2 < 68)).foldl (fun s e =>
    let r := failLane 4 e.2 (brgGrp s (12 * d + e.1))
    let s := setBrg (12 * d + e.1) r.1 s
    if r.2.isSome then brgGroupDown d e.1 s else brgErr 0x0202 d e.1 e.2 s) s
  let s := (down.filter (fun g => g < 12)).foldl (fun s g => brgGroupDown d g s) s
  let s := { s with boot := { s.boot with brgTrain := nsDel s.boot.brgTrain d } }
  islandCheck (d / 2) s

def execBridgeRetrainDone (d : Fin 88) (lanes : List (Nat × Nat)) (down : List Nat) (s : State) : Res :=
  .next (if nsHas s.boot.brgTrain d then bridgeDone d lanes down s else s)


/-! ## DIE_REJOIN (R358, R412) -/

/-- The logical number that a rejoining tower takes: its own, or the next for one that start-up never mapped. -/
def rejoinNum (s : State) (n : Nat) (lost : Bool) : Nat :=
  if lost then wFld (rget s (towerBase n)) 19 16 else wFld (rget s 0x10) 4 0

/-- The map with a tower under its number where it is usable. -/
def mapWith (s : State) (n t : Nat) : LogMap := if towerUsable s n then mapTower s n t (mapNoTower n s.map) else s.map

/-- Stages 4 to 6 on one die; its records carry REJOIN, and its summaries the cores that the die then exposes under number t. -/
def rejoinTests (n t : Nat) (f : TestFind) (s : State) : State :=
  let run (st : Nat) (r : List Found × State) : State :=
    { fireStage st r.1 [] (sumResult r.1 false) true f.dur (if st = 4 then r.2 else { r.2 with map := mapWith r.2 n t }) with
      map := r.2.map }
  let f : TestFind := { f with noRoot := f.noRoot.filter (fun x => x == n), logic := f.logic.filter (fun x => x == n) }
  let s := run 4 (trainEdges (towerEdges n) (withRoots [n] f s) s)
  let s := run 5 (testTowers [n] f s)
  zeroTower n (run 6 (testBonds [n] f s))

/-- Resets a die that is out of the map and brings it back. A die with no edge up, or that fails its tests, stays lost. -/
def dieRejoin (n : Nat) (f : TestFind) (s : State) : State × Bool :=
  let lost := nsHas s.lostTw n
  let t := rejoinNum s n lost
  let id := rget s (towerBase n)
  let s := towerReset n { s with
    lostTw := nsDel s.lostTw n
    pwr := { s.pwr with rootLost := nsDel s.pwr.rootLost n }
    boot := { s.boot with run := (s.boot.run + 1) % 2 ^ 32, defTw := nsDel s.boot.defTw n } }
  let s := rejoinTests n t f s
  let s := (List.range 64).foldl (fun s p => zeroCheck p s) s
  if !towerUsable s n then
    (if lost then rset (towerBase n) id { s with lostTw := nsAdd s.lostTw n } else s, false)
  else
    let s := mapChange (mapWith s n t) s
    let s := if lost then s else rupd 0x10 (fun w => wPut w 4 0 (t + 1)) s
    (logErr { hub := homeHub n, code := 0x0303, part := none, source := srcTower n, engine := 0, logical := 0, addr := 0,
              detail := 0 } s, true)

def execDieRejoin (w : Fin 128) (f : TestFind) (s : State) : Res :=
  runCmd w 0x0504 (fun b => payAt b 0 1 / 16 != 0 || payNZ b 1 7) (fun k s =>
    let n := payAt k.bytes 0 1
    if (twLog s n).isSome then complete k.id 0x0304 0 0 s
    else
      let r := dieRejoin n f s
      if r.2 then complete k.id 0 (towerCores r.1 n) 0 r.1 else complete k.id 0x0503 0 0 r.1) s

/-! ## HUB_RESET and HUB_REJOIN (R22, R239, R413) -/

/-- A requested reset first puts the hub's packages into self-refresh; its log survives. A request for a hub that is already absent
waits for the same rejoin (R320). -/
def execHubReset (w : Fin 128) (s : State) : Res :=
  runCmd w 0x0505 (fun b => payAt b 0 1 / 4 != 0 || payNZ b 1 7) (fun k s =>
    let h := payAt k.bytes 0 1
    if h = 0 then complete k.id 0x0107 0 0 s
    else
      let s := loseHub h true s
      hset h { hget s h with pkts := (hget s h).pkts ++ [k.id] } s) s

/-- Every page of a partition whose entry satisfies a test becomes tier 3 by internal edit. -/
def loseWhere (p : Nat) (f : Nat → Bool) : Eng Unit := do
  let x ← editCtx p
  let l ← placesWith p x f
  engEach (fun a => losePage p a.1 x a.2.1 a.2.2) l
  autoCommit p

/-- Whether an entry names a tier-2 slot of a hub's quarter. -/
def inQuarter (h e : Nat) : Bool := pteValid e && pteTier e == 1 && t2Hub (0x4000 * fld (ptePage e) 29 0) == h

/-- What a quarter that lost its contents holds is open: its written bytes take free values. -/
def scrambleQuarter (h : Nat) (s : State) : State :=
  (s.t2.filter (fun e => t2Hub e.1 == h)).foldl (fun s e =>
    let (v, s) := takeFree s
    { s with t2 := memSet s.t2 e.1 (BitVec.ofNat 8 v) }) s

/-- A reset hub rejoins, with the finding at each of its four engines. A quarter that lost its protection is taken as lost. -/
def hubRejoin (h : Nat) (eng : List EngineFind) (s : State) : State :=
  let u := hget s h
  let kept := u.kept
  let s := { s with regs := stDrop s.regs (hubBase h) 0x400000, ctrs := stDrop s.ctrs (38912 + 32 * h) 32,
                    frozen := nsDel s.frozen (16 + h)
                    mnt := { s.mnt with kinds := stDrop s.mnt.kinds (64 * h) 64 }
                    net := { s.net with hubStat := stDel s.net.hubStat h, hubBnd := stDel s.net.hubBnd h } }
  let s := hset h (if kept then { u with lost := false, kept := false, pkts := [] } else HubSt.reset) s
  let s := publishHubs (rupd (hubBase 0) (fun w => wPut w (1 + h) (1 + h) 0) s)
  let s := rupd (hubBase h) (fun w =>
    wPut w 15 10 (sumNat ((List.range 6).map (fun i => if nsHas s.boot.pkgBad (6 * h + i) then 0 else 2 ^ i)))) s
  let s := iter 4 (fun j s =>
    let f := listAt eng j { id := 0, qualified := true, ucie := 0, tx := 0, rx := 0 }
    let p := 4 * h + j
    let s := rset (fportKey p 0) (BitVec.ofNat 32 (portWord f)) (rset (fportKey p 8) f.id s)
    grantAll p 32 (publishPort p { s with
      boot := { s.boot with oeHeld := if f.qualified then nsDel s.boot.oeHeld p else nsAdd s.boot.oeHeld p }
      fab := { s.fab with ports := stSet (fun _ => FPort.reset) s.fab.ports p (FPort.trained f) } })) s
  let s := if kept then s
    else scrambleQuarter h ((s.parts.map Prod.fst).foldl (fun s p => engRun (loseWhere p (inQuarter h)) s) s)
  let s := logErr { hub := h, code := 0x0303, part := none, source := srcIndex 1 h, engine := 0, logical := 0, addr := 0,
                    detail := 0 } s
  u.pkts.foldl (fun s id => complete id 0 0 0 s) s

def execHubRejoin (h : Fin 4) (eng : List EngineFind) (s : State) : Res :=
  .next (if hubAbsent s h && !(hget s h).pkts.isEmpty && nsHas s.pwr.rails h then hubRejoin h eng s else s)

end Sys2Proof.Machine
end

