-- ==== Sys2Proof/Machine/Fabric.lean ====
section
/-! DEFINITION. The Yabri fabric: ports, roles, routing, streams and reduce-forward (R322 to R346, R463). -/

namespace Sys2Proof.Machine

/-! ## Retraining of ports (R334, R335) -/

/-- A port starts retraining; every route mask skips it from now on. -/
def portRetrain (p : Nat) (s : State) : State :=
  let s := setPortState p 4 (fportUpd p (fun u => { u with due := false }) s)
  portErr p 0x0210 4 (rupd (fportKey p 4) (fun w => wSatAdd w 15 10 1) s)

/-- A due retraining starts on a port that is up, or whose light has returned. -/
def execPortRetrain (p : Fin 16) (s : State) : Res :=
  .next (if (fport s p).due && (portState s p == 3 || portState s p == 5) then portRetrain p s else s)

/-- The widths after training: `tx` and `rx` are the wavelengths that qualify. The main band keeps its rate. -/
def trainedWord (s : State) (p tx rx : Nat) : Nat :=
  portWord { id := 0, qualified := true, ucie := wFld (rget s (fportKey p 0)) 28 27, tx := tx % 256, rx := rx % 256 }

/-- Replay resumes after a retraining (R328). -/
def replayAll (p : Nat) (s : State) : State :=
  (fport s p).replay.foldl (fun s e => emitFlit p e.1 (some e.2) false s) s

/-- A retraining or training ends. -/
def trainDone (p tx rx : Nat) (s : State) : State :=
  let w := trainedWord s p tx rx
  let up := fld w 31 29 == 3
  let s := fportUpd p (fun u => { u with txOn := lanesUsed (fld w 26 23) tx, rxOn := lanesUsed (fld w 22 19) rx }) s
  let s := rset (fportKey p 0) (BitVec.ofNat 32 w) s
  if up then grantAll p 32 (pump p (replayAll p (publishPort p s))) else portErr p 0x0210 0 (portDown p 0 s)

def execPortRetrainDone (p : Fin 16) (tx rx : BitVec 8) (s : State) : Res :=
  .next (if portState s p = 4 || portState s p = 2 then trainDone p tx.toNat rx.toNat s else s)

/-- Whether a wavelength of a port is in use in a direction, or has qualified in both. -/
def laneLive (s : State) (p lane : Nat) : Bool :=
  (fport s p).txOn.contains lane || (fport s p).rxOn.contains lane || wBit (rget s (fportKey p 0)) (11 + lane)

/-- A wavelength of an up port measured `ber` × 10⁻⁷ before FEC over 1 s: above 2.4 × 10⁻⁴ a retraining is due. -/
def execWavelengthBerCheck (p : Fin 16) (lane : Fin 8) (ber : Nat) (s : State) : Res :=
  .next (if portState s p = 3 && laneLive s p lane && decide (2400 < ber) then
    fportUpd p (fun u => { u with due := true }) s else s)

/-- Received light is lost on an active wavelength: the port goes down at once. -/
def execLossOfLight (p : Fin 16) (s : State) : Res :=
  .next (if portState s p = 3 || portState s p = 4 then portErr p 0x0210 5 (portDown p 5 s) else s)

def execLightRestored (p : Fin 16) (s : State) : Res :=
  .next (if portState s p = 5 then fportUpd p (fun u => { u with due := true }) s else s)

/-- Once per second an engine without received light sends a check pulse (R463). -/
def execLaserCheckPulse (p : Fin 16) (s : State) : Res :=
  .next (if portState s p = 5 then fportUpd p (fun u => { u with pulses := u.pulses + 1 }) s else s)

/-- A channel has held flits without a credit for 10 ms (R329). -/
def execChannelStall (p : Fin 16) (chan : Fin 8) (s : State) : Res :=
  let u := fport s p
  .next (if u.waiting.any (fun f => f.chan == chan.val) && listAt u.cred chan 0 == 0 && !nsHas u.stalled chan then
    rupd (fportKey p 4) (fun w => wSatAdd w 3 0 1) (fportSet p { u with stalled := nsAdd u.stalled chan } s) else s)

/-! ## Receiving flits (R328) -/

/-- Acknowledged flits leave the replay buffer; an ACK that names none leaves it as it is. -/
def ackThrough (ack : Nat) (l : List (Nat × Flit)) : List (Nat × Flit) :=
  match findIdx? (fun e : Nat × Flit => e.1 == ack) l with
  | some i => l.drop (i + 1)
  | none => l

/-- The acknowledgement and credit fields of a good flit. -/
def linkFields (p ack : Nat) (nak : Bool) (chan n : Nat) (s : State) : State :=
  let s := fportUpd p (fun u => { u with
    replay := ackThrough ack u.replay, cred := u.cred.set chan (listAt u.cred chan 0 + 8 * n)
    stalled := if n = 0 then u.stalled else nsDel u.stalled chan }) s
  if !nak then s
  else
    let u := fport s p
    let k := if u.nakSeq = ack && u.naks ≠ 0 then u.naks + 1 else 1
    let s := tallyHub (p / 4) 0x0522 1 none (rupd (fportKey p 4) (fun w => wSatAdd w 31 16 1) s)
    if k < 8 then replayAll p (fportSet p { u with nakSeq := ack, naks := k } s)
    else fportSet p { u with nakSeq := ack, naks := 0, due := true } s

/-- The message that a channel's flits spell, with the route entry that its first flit found. -/
def gather (fs : List Flit) (entry : Nat) : FMsg :=
  let f := listAt fs 0 { chan := 0, first := true, last := true, dest := 0, src := 0, payload := [], poison := false, head := [] }
  let bytes := (fs.map (fun f => f.payload)).flatten
  let bad := fs.zipIdx.flatMap (fun e => if e.1.poison then
    (List.range 64).filter (fun b => 240 * e.2 < 96 + 64 * b && 32 + 64 * b < 240 * e.2 + 240 && 64 * b < mLen bytes) else [])
  { cls := f.chan / 2, vc := f.chan % 2, dest := f.dest, src := f.src, poison := bad.eraseDups, mask := none, entry := entry
    bytes := bytes.take (32 + mLen bytes) }

/-- A flit in order joins its channel's message: the first one is looked up (R338), the last one completes it. -/
def takeFlit (p : Nat) (f : Flit) (s : State) : State :=
  let u := takeShared f.chan (fport s p)
  let fs := (if f.first then [] else stGet (fun _ => []) u.rx f.chan) ++ [f]
  let entry := if f.first then lookEntry s (f.chan / 2) f.dest f.payload else stGet (fun _ => 0) u.look f.chan
  if f.last then
    let s := fportSet p { u with rx := stDel u.rx f.chan, look := stDel u.look f.chan } s
    { s with fab := { s.fab with inbox := s.fab.inbox ++ [(p, gather fs entry)] } }
  else fportSet p { u with rx := stSet (fun _ => []) u.rx f.chan fs, look := stSet (fun _ => 0) u.look f.chan entry } s

/-- A flit of 256 bytes arrives: `fec` says that it holds an uncorrectable FEC code word, `poison` that its payload carries
poison. -/
def flitReceive (p : Nat) (b : List Byte) (fec poison : Bool) (s : State) : State :=
  if fec || crc32c (b.take 252) ≠ leAt b 252 4 then
    emitIdle p true (fportUpd p (fun u => { u with nakSent := true }) s)
  else
    let b0 := leAt b 0 1
    let nw := leAt b 1 1 % 32
    let seq := leAt b 248 2 % 4096
    let s := linkFields p (leAt b 250 2 % 4096) (bitAt (leAt b 250 2) 15) (fld b0 7 5) (leAt b 1 1 / 32) s
    let sent := s.fab.flits.length
    if fld b0 1 0 = 0 && nw = 0 then pump p s
    else
      let s := tallyHub (p / 4) 0x0521 1 none s
      let u := fport s p
      let s := if seq ≠ (u.rxSeq + 1) % 4096 then s
        else takeFlit p { chan := 2 * fld b0 3 2 + fld b0 4 4, first := bitAt b0 0, last := bitAt b0 1, dest := leAt b 2 3 % 2 ^ 18
                          src := leAt b 5 3 % 2 ^ 18, payload := (b.drop 8).take (min 240 (8 * nw)), poison := poison, head := [] }
          (fportSet p { u with rxSeq := seq, nakSent := false } s)
      let s := pump p s
      if s.fab.flits.length = sent then emitIdle p false s else s

def execFlitReceive (p : Fin 16) (b : List Byte) (fec poison : Bool) (s : State) : Res :=
  .next (if portState s p = 3 && b.length == 256 then flitReceive p b fec poison s else s)

/-! ## Routing (R338, R339) -/

/-- The outcome of a look-up: the message stays, is dropped, or leaves through a port. -/
inductive Hop where
  | wait
  | drop
  | go (p : Nat)
  deriving DecidableEq, Repr

/-- Chooses among the up ports of a mask by a hash of destination and source stream. -/
def choosePort (s : State) (mask : Nat) (m : FMsg) : Hop :=
  match hashPick (maskPorts s mask 3) mask m.src (mSrc m.bytes) m.dest with
  | some p => .go p
  | none => if (maskPorts s mask 4).isEmpty then .drop else .wait

/-- The hub of a group's reduce unit: g mod 4, or the next present hub in ring order. -/
def reduceHub (s : State) (g : Nat) : Nat :=
  ((List.range 4).find? (fun i => !hubAbsent s ((g + i) % 4))).map (fun i => (g + i) % 4) |>.getD (g % 4)

/-- The port in whose FAB_PORT_ERR a drop counts: the input port of a passing message; for one of this device, the first port of its
agent's hub, which is the reduce group's, or that of the mask's port which the hash picks. DESIGN CHOICE (log entry 210). -/
def dropPort (s : State) (src mask : Nat) (m : FMsg) : Nat :=
  if src < 16 then src
  else if m.cls = 2 && mKind m.bytes then 4 * reduceHub s (mGroup m.bytes)
  else (hashPick ((List.range 16).filter (fun p => bitAt mask p)) mask m.src (mSrc m.bytes) m.dest).getD 0 / 4 * 4

/-- Sends a message on through a mask, or drops it, or leaves it: `src` is its input port, 16 for this device. -/
def forward (src mask : Nat) (vcsw : Bool) (m : FMsg) (s : State) : Option State :=
  let hops := mHops m.bytes + (if src < 16 then 1 else 0)
  let dropAt := dropPort s src mask m
  if 63 ≤ hops then some (dropMsg dropAt m.bytes m.cls m.src s)
  else
    match choosePort s mask m with
    | .wait => none
    | .drop => some (dropMsg dropAt m.bytes m.cls m.src s)
    | .go p => some (sendOn p { m with vc := if vcsw then 1 else m.vc, mask := none
                                       bytes := putBytes m.bytes 24 (leBytes 1 (leAt m.bytes 24 1 / 64 * 64 + hops)) } s)

/-- Hands a message to its local agent. -/
def hold (src : Nat) (m : FMsg) (s : State) : State := { s with fab := { s.fab with held := s.fab.held ++ [(src, m)] } }

/-- A refusal or credits for a stream of this device (R342, R343). -/
def noteArrive (m : FMsg) (s : State) : State :=
  match streamOf s (mDst m.bytes) with
  | none => s
  | some (k, i) =>
    if leAt m.bytes 32 1 = 0 then strmFail k i (leAt m.bytes 33 4) s
    else { s with fab := { s.fab with strmCred := stSet (fun _ => 0) s.fab.strmCred (4 * k + i)
                                        (stGet (fun _ => 0) s.fab.strmCred (4 * k + i) + leAt m.bytes 33 4) } }

/-- An answer to this device's heartbeat (R337). -/
def answerArrive (s : State) : State :=
  let s := { s with fab := { s.fab with unanswered := 0 } }
  if wBit (rget s (hubBase 0 + 0x40000)) 30 then
    logErr { hub := 0, code := 0x0211, part := none, source := 0, engine := 16, logical := 0, addr := 0
             detail := wFld (rget s (hubBase 0 + 0x40004)) 17 0 } (rupd (hubBase 0 + 0x40000) (fun w => wPut w 30 30 0) s)
  else s

/-- Acts on a message's look-up: the state after it left, or none while it waits. -/
def routeMsg (src : Nat) (m : FMsg) (s : State) : Option State :=
  if m.cls = 2 && mKind m.bytes then
    let e := m.entry
    if 768 ≤ mGroup m.bytes || !bitAt e 16 || !bitAt e 18 then some (dropMsg (dropPort s src 0 m) m.bytes m.cls m.src s)
    else
      match m.mask with
      | some k => forward src k (bitAt e 17) m s
      | none =>
        if src = 16 && fld e 25 19 = 0 then forward src (fld e 15 0) (bitAt e 17) m s
        else if src < 16 && bitAt (fld e 15 0) src then some (hold src { m with mask := some 0 } s)
        else some (hold src m s)
  else if m.dest = myId s then
    if m.cls = 1 then some (noteArrive m s)
    else if m.cls = 3 && leAt m.bytes 32 1 = 2 then some (answerArrive s)
    else some (hold src m s)
  else
    let e := m.entry
    if !bitAt e 16 || bitAt e 18 then some (dropMsg (dropPort s src (fld e 15 0) m) m.bytes m.cls m.src s)
    else forward src (fld e 15 0) (bitAt e 17) m s

/-- The first entry of a list that comes from a port and satisfies a test. -/
def firstFrom (src : Nat) (f : FMsg → Bool) (l : List (Nat × FMsg)) : Option (Nat × FMsg) :=
  match findIdx? (fun e : Nat × FMsg => e.1 == src && f e.2) l with
  | some i => (l[i]?).map (fun e => (i, e.2))
  | none => none

/-- Whether a local agent keeps a message that has left the look-up. -/
def keepsPlaces (s s' : State) : Bool := decide (s.fab.held.length < s'.fab.held.length)

/-- The queue in which a message keeps its order: at a port its channel, so that no class blocks another (R267, R329); at this device
its stream, its reduce group or the management agent, since messages wait at the sending agent in order (R339). That streams and
groups wait apart is read from R339. DEDUCED (log entry 210). -/
def queueKey (src : Nat) (m : FMsg) : Nat :=
  if src < 16 then 2 * m.cls + m.vc
  else if m.cls = 2 && mKind m.bytes then 4096 + mGroup m.bytes
  else if m.cls = 3 then 8192 else 1024 * m.cls + mSrc m.bytes

/-- The messages of a source that are the oldest of their queue, with their places. -/
def heads (src : Nat) (l : List (Nat × FMsg)) : List (Nat × FMsg) :=
  (l.zipIdx.filter (fun e => e.1.1 == src &&
    !(l.take e.2).any (fun x => x.1 == src && queueKey src x.2 == queueKey src e.1.2))).map (fun e => (e.2, e.1.2))

/-- Takes the first of a list of messages that does not wait. -/
def routeFirst (src : Nat) : List (Nat × FMsg) → State → Option State
  | [], _ => none
  | (i, m) :: t, s =>
    let s0 := { s with fab := { s.fab with inbox := s.fab.inbox.eraseIdx i } }
    match routeMsg src m s0 with
    | none => routeFirst src t s
    | some s' => some (if keepsPlaces s0 s' then s' else freePlaces src m s')

/-- The oldest message of a queue of a port, or of this device (16), leaves: the first that does not wait. -/
def execFabricMessageRoute (src : Fin 17) (s : State) : Res :=
  .next ((routeFirst src (heads src s.fab.inbox) s).getD s)

/-! ## The management tree (R336, R337) -/

/-- The level and digit at which a device is a child of this one: level · 64 + digit. -/
def childKey (me dev : Nat) : Nat :=
  if dev / 4096 ≠ me / 4096 then 192 + dev / 4096
  else if dev / 64 % 64 ≠ me / 64 % 64 then 128 + dev / 64 % 64 else 64 + dev % 64

/-- A level's children as a 64-bit mask. -/
def childMask (l : NatSet) (level : Nat) : Nat := sumNat ((List.range 64).map (fun d => if nsHas l (64 * level + d) then 2 ^ d else 0))

/-- A management message: kind 1 a heartbeat with the lost children of each level, 2 an answer. The spec gives no layout.
DESIGN CHOICE (log entry 41). -/
def mgmtMsg (kind dest : Nat) (s : State) : FMsg :=
  let data := leBytes 1 kind ++ (if kind = 1 then [1, 2, 3].flatMap (fun l => leBytes 8 (childMask s.fab.lost l)) else [])
  { cls := 3, vc := 0, dest := dest, src := myId s, poison := [], mask := none, entry := 0
    bytes := mkHead data.length 0 0 0 0 (myId s) 0 0 ++ data }

def fabId (s : State) : Word := rget s (hubBase 0 + 0x40000)
def fabParent (s : State) : Nat := wFld (rget s (hubBase 0 + 0x40004)) 17 0

/-- Every 1 ms a device whose parent is not itself sends a heartbeat. -/
def execHeartbeatSend (s : State) : Res :=
  if !wBit (fabId s) 31 || fabParent s = myId s then .next s
  else .next { post (mgmtMsg 1 (fabParent s) s) s with
    fab := { (post (mgmtMsg 1 (fabParent s) s) s).fab with unanswered := s.fab.unanswered + 1 } }

/-- The peer log record of R337. -/
def peerErr (dev : Nat) (s : State) : State :=
  logErr { hub := 0, code := 0x0211, part := none, source := 0, engine := 16, logical := 0, addr := 0, detail := dev } s

/-- A heartbeat that reached its parent is answered, unless it comes from one child too many. -/
def execHeartbeatAnswer (src : Fin 17) (s : State) : Res :=
  match firstFrom src (fun m => m.cls == 3) s.fab.held with
  | none => .next s
  | some (i, m) =>
    let s := freePlaces src m { s with fab := { s.fab with held := s.fab.held.eraseIdx i } }
    let key := childKey (myId s) m.src
    if wFld (fabId s) 29 28 < key / 64 then .next s
    else if !nsHas s.fab.live key && decide (64 ≤ s.fab.live.length) then
      .next (rupd (hubBase 0 + 0x40010) (fun w => wSatAdd w 31 16 1) s)
    else
      let back := nsHas s.fab.lost key
      let s := { s with fab := { s.fab with live := nsAdd s.fab.live key, lost := nsDel s.fab.lost key
                                            seen := stSet (fun _ => 0) s.fab.seen key s.ns } }
      let s := if back then peerErr m.src s else s
      .next (post (mgmtMsg 2 m.src s) s)

/-- The device ID of a child by level and digit. -/
def childId (me level digit : Nat) : Nat :=
  if level = 1 then me / 64 * 64 + digit else if level = 2 then me / 4096 * 4096 + digit * 64 else digit * 4096

/-- No heartbeat from a live child for three periods. -/
def execChildLost (level : Fin 4) (digit : Fin 64) (s : State) : Res :=
  let key := 64 * level.val + digit
  if !nsHas s.fab.live key || s.ns < stGet (fun _ => 0) s.fab.seen key + 3000000 then .next s
  else
    .next (peerErr (childId (myId s) level digit) { s with
      fab := { s.fab with live := nsDel s.fab.live key, lost := nsAdd s.fab.lost key } })

/-- No answer for three periods. -/
def execOrphan (s : State) : Res :=
  if s.fab.unanswered < 3 || wBit (fabId s) 30 then .next s
  else .next (peerErr (fabParent s) (rupd (hubBase 0 + 0x40000) (fun w => wPut w 30 30 1) s))

/-! ## Streams (R341 to R343) -/

/-- The agent of a receive stream grants `n` credits to the paired sender. -/
def grantStream (k i n : Nat) (s : State) : State :=
  if n = 0 then s
  else streamNote 1 n (wFld (strmReg s k i 4) 27 10) (wFld (strmReg s k i 4) 9 0) (streamName s k i) s

def strmIdx (s : State) (k i : Nat) : Nat := stGet (fun _ => 0) s.fab.strmIdx (4 * k + i)
def setStrmIdx (k i v : Nat) (s : State) : State :=
  { s with fab := { s.fab with strmIdx := stSet (fun _ => 0) s.fab.strmIdx (4 * k + i) (v % 2 ^ 32) } }

/-- The agent of a stream that becomes valid starts at its HEAD; a receive stream grants its slots. -/
def strmOpen (k i : Nat) (s : State) : State :=
  let (h, s) := strmWord k i 1 s
  let s := setStrmIdx k i h s
  if strmRecv s k i then grantStream k i (2 ^ wFld (strmReg s k i 0) 25 22) s else s

/-- A write of FAB_STRM_RING (Table FAB.14): SLOTLOG outside 1 to 6 loads 6, NSLOTLOG above 10 loads 10, and in a confidential
partition VALID loads 0 and sets CFG_ERR. The partition lock closes the register. -/
def writeStrmRing (k i : Nat) (w : Word) (s : State) : State :=
  if cluLocked s k then s
  else
    let conf := (cluPart s k).any (fun p => (pget s p).conf)
    let sl := wFld w 29 26
    let nl := wFld w 25 22
    let v := wBit w 31
    let was := strmValid s k i
    let s := cluSet k (0x300 + 16 * i) (BitVec.ofNat 32 (b2n (v && !conf) * 2 ^ 31 + b2n (wBit w 30) * 2 ^ 30 +
      (if 1 ≤ sl && sl ≤ 6 then sl else 6) * 2 ^ 26 + min nl 10 * 2 ^ 22 + wFld w 15 0)) s
    let s := if v && conf then cluUpd k (0x30C + 16 * i) (fun x => wPut x 31 31 1) s else s
    if v && !conf && !was then strmOpen k i s else s

def execStreamValidWrite (k : Fin 256) (i : Fin 4) (w : Word) (s : State) : Res := .next (writeStrmRing k i w s)

/-- Whether the fabric port that serves a stream has a free slot of Table NOC.4 for its agent (R341). -/
def strmSlot (s : State) (k i : Nat) : Bool := slotFor s (4393 + strmPort s k i) != 0

/-- A write of TAIL of a send stream, or of HEAD of a receive stream, notifies the agent; a receive agent grants one credit for
each slot its HEAD advanced. -/
def execStreamNotice (k : Fin 256) (i : Fin 4) (s : State) : Res :=
  if !strmValid s k i then .next s
  else if strmRecv s k i then
    if !strmSlot s k i then .next s
    else
    let (h, s) := strmWord k i 1 s
    .next (grantStream k i ((h + 2 ^ 32 - strmIdx s k i) % 2 ^ 32) (setStrmIdx k i h s))
  else .next { s with fab := { s.fab with strmPend := nsAdd s.fab.strmPend (4 * k.val + i) } }

/-- The SRAM offset of slot `n`. -/
def slotOff (s : State) (k i n : Nat) : Nat :=
  strmBase s k i + 64 + n % 2 ^ wFld (strmReg s k i 0) 25 22 * (64 * 2 ^ wFld (strmReg s k i 0) 29 26)

/-- The data bytes a slot of a stream can hold. -/
def slotMax (s : State) (k i : Nat) : Nat := min 4032 (64 * 2 ^ wFld (strmReg s k i 0) 29 26 - 64)

/-- The status of a slot header that must not be sent (R343, Table FAB.9): 0 where it may. -/
def slotBad (s : State) (k i : Nat) (h : List Byte) : Nat :=
  let b2 := leAt h 2 1
  if 32 ≤ b2 || leAt h 3 1 ≠ 0 || 1024 ≤ leAt h 4 2 || leAt h 6 2 ≠ 0 || 2 ^ 18 ≤ leAt h 12 4 || 2 ^ 18 ≤ leAt h 16 4 ||
      (h.drop 20).any (fun b => b != 0) then 0x0101
  else if fld b2 2 1 = 3 then 0x0102
  else if bitAt b2 0 && 768 ≤ leAt h 4 2 then 0x0107
  else if slotMax s k i < leAt h 0 2 || (bitAt b2 0 && fld b2 2 1 == 2 && leAt h 0 2 % 576 != 0) then 0x0105
  else 0

/-- The data blocks of a slot and those that deliver poison. -/
def slotData (k off len : Nat) (s : State) : (List Byte × List Nat) × State :=
  let (bs, s) := csReadBlocks k ((List.range (ceilDiv len 64)).map (fun b => off / 64 + b)) s
  (((bs.map (fun b => b.getD (zeros 64))).flatten.take len, (List.range bs.length).filter (fun b => (listAt bs b none).isNone)), s)

/-- One more message sent or delivered. -/
def strmCount (k i : Nat) (s : State) : State := cluUpd k (0x30C + 16 * i) (fun w => wWrapAdd w 30 0 1) s

/-- HEAD passes a slot that has been read. -/
def strmNext (k i n : Nat) (s : State) : State := strmPut k i 1 ((n + 1) % 2 ^ 32) (setStrmIdx k i (n + 1) s)

/-- Reads one slot of a send stream and sends what it holds. A put waits for a credit. -/
def streamSend (k i : Nat) (s : State) : State :=
  let n := strmIdx s k i
  let (tail, s) := strmWord k i 0 s
  if tail = n then { s with fab := { s.fab with strmPend := nsDel s.fab.strmPend (4 * k + i) } }
  else
    let off := slotOff s k i n
    let len := 64 * 2 ^ wFld (strmReg s k i 0) 29 26
    if 2 ^ 22 < off + len then s
    else
    match agentRefusal s k off len false with
    | some r => agentRefuse k i r s
    | none =>
      let (h, s1) := csReadBytes k off 64 s
      match h with
      | none => strmNext k i n (strmFail k i 0x0503 s1)
      | some h =>
        let bad := slotBad s1 k i h
        if bad ≠ 0 then strmNext k i n (strmFail k i bad s1)
        else
          let red := bitAt (leAt h 2 1) 0
          let cred := stGet (fun _ => 0) s.fab.strmCred (4 * k + i)
          if !red && cred = 0 then s
          else
            let ((d, bad), s) := slotData k (off + 64) (leAt h 0 2) s1
            let dst := strmReg s k i 4
            let head := mkHead (leAt h 0 2) (leAt h 2 1) (leAt h 4 2) (leAt h 8 4) (b2n red) (myId s)
              (if red then 0 else wFld dst 9 0) (streamName s k i)
            let m : FMsg := { cls := if red then 2 else 0, vc := 0, dest := if red then myId s else wFld dst 27 10
                              src := myId s, bytes := head ++ d, poison := bad, mask := none, entry := 0 }
            let s := if red then s
              else { s with fab := { s.fab with strmCred := stSet (fun _ => 0) s.fab.strmCred (4 * k + i) (cred - 1) } }
            strmCount k i (post m (strmNext k i n s))

def execStreamSend (k : Fin 256) (i : Fin 4) (s : State) : Res :=
  .next (if strmValid s k i && !strmRecv s k i && nsHas s.fab.strmPend (4 * k.val + i) && strmSlot s k i then streamSend k i s
    else s)

/-- Writes data blocks into a slot; a poison block becomes stored poison. -/
def slotWrite (k off : Nat) (d : List Byte) (bad : List Nat) (s : State) : State :=
  iter (ceilDiv d.length 64) (fun b s =>
    if bad.contains b then csPoison k (off / 64 + b) s
    else csWriteBytes k (off + 64 * b) ((d.drop (64 * b)).take 64) s) s

/-- Writes a message into slot TAIL of a receive stream, then TAIL, then increments the wake ticket. -/
def slotDeliver (k i : Nat) (head d : List Byte) (bad : List Nat) (s : State) : State :=
  let (t, s) := strmWord k i 0 s
  let off := slotOff s k i t
  if 2 ^ 22 < off + 64 * 2 ^ wFld (strmReg s k i 0) 29 26 then s
  else
    let s := slotWrite k (off + 64) d bad (csWriteBytes k off (fitBytes 64 (head.take 20)) s)
    let s := strmCount k i (strmPut k i 0 ((t + 1) % 2 ^ 32) s)
    let wk := strmReg s k i 8
    if !wBit wk 8 then s
    else
      match keyOf s.map.core (fun y => y / 17 == k) (wFld wk 7 4 + 1) with
      | some c => tkAdd c (wFld wk 3 0) 1 3 (sq s c).pc 0 s
      | none => s

/-- The refusal of the writes of a delivery: of slot TAIL, or of the control block (R341). -/
def slotRefusal (s : State) (k i : Nat) : Option (Nat × Nat) :=
  let t := (strmWord k i 0 s).1
  (agentRefusal s k (slotOff s k i t) (64 * 2 ^ wFld (strmReg s k i 0) 29 26) true).or (agentRefusal s k (strmBase s k i) 64 true)

/-- The status with which a put is refused at its destination; 0 where it is delivered. -/
def putBad (s : State) (m : FMsg) : Nat :=
  match streamOf s (mDst m.bytes) with
  | none => 0x0402
  | some (k, i) =>
    let dst := strmReg s k i 4
    if !strmValid s k i || !strmRecv s k i || wFld dst 27 10 ≠ m.src || wFld dst 9 0 ≠ mSrc m.bytes then 0x0402
    else if slotMax s k i < mLen m.bytes then 0x0105 else ((slotRefusal s k i).map Prod.fst).getD 0

/-- Delivers a put to its stream, or a result to the group's local stream (R344). -/
def putDeliver (m : FMsg) (s : State) : State :=
  let d := (m.bytes.drop 32).take (mLen m.bytes)
  if m.cls = 0 then
    let bad := putBad s m
    if bad ≠ 0 then
      let s := match streamOf s (mDst m.bytes) with
        | some (k, i) => if bad = 0x0401 then agentRefuse k i (((slotRefusal s k i)).getD (0, 0)) s else s
        | none => s
      refusePut m.bytes 0 m.src bad s
    else
      match streamOf s (mDst m.bytes) with
      | some (k, i) => slotDeliver k i m.bytes d m.poison s
      | none => s
  else
    let e := m.entry
    match streamOf s (fld e 37 28) with
    | some (k, i) =>
      if bitAt e 27 && strmValid s k i && strmRecv s k i && decide (mLen m.bytes ≤ slotMax s k i) then
        match slotRefusal s k i with
        | some r => agentRefuse k i r s
        | none => slotDeliver k i m.bytes d m.poison s
      else s
    | none => s

/-- The stream into which a held message goes. -/
def putStream (s : State) (m : FMsg) : Option (Nat × Nat) := streamOf s (if m.cls = 0 then mDst m.bytes else fld m.entry 37 28)

def execPutDeliver (src : Fin 17) (s : State) : Res :=
  match firstFrom src (fun m => m.cls == 0 || (m.cls == 2 && m.mask.isSome)) s.fab.held with
  | none => .next s
  | some (i, m) =>
    if (putStream s m).any (fun x => !strmSlot s x.1 x.2) then .next s
    else
    let s := { s with fab := { s.fab with held := s.fab.held.eraseIdx i } }
    .next (putDeliver m (freePlaces src m s))

/-! ## Reduce-forward (R344 to R346) -/

/-- FAB_COLL_STAT.ACTIVE of a hub. -/
def publishCtxs (h : Nat) (s : State) : State :=
  rupd (hubBase h + 0x40024) (fun w => wPut w 31 19 ((s.fab.ctxs.filter (fun x => x.hub == h)).length)) s

/-- The elements of a block of bytes: 4-byte words, or BF16 codes widened for a BF16 sum. -/
def redVals (op : Nat) (d : List Byte) : List Nat :=
  if op = 1 then (List.range (d.length / 2)).map (fun i => leAt d (2 * i) 2 * 65536) else (List.range (ceilDiv d.length 4)).map (fun i => leAt d (4 * i) 4)

/-- The blocks of a contribution as values. -/
def redBlocks (op : Nat) (m : FMsg) : List (Option (List Nat)) :=
  let d := (m.bytes.drop 32).take (mLen m.bytes)
  (List.range (ceilDiv (mLen m.bytes) 64)).map (fun b =>
    if m.poison.contains b then none else some (redVals op ((d.drop (64 * b)).take 64)))

/-- A record from its nine blocks of words (R171). -/
def recOfWords (bs : List (List Nat)) : StRec :=
  let h := listAt bs 0 []
  { m := listAt h 0 0, l := listAt h 1 0, flags := listAt h 2 0, q := listAt h 3 0, acc := (bs.drop 1).flatten }

def wordsOfRec (r : StRec) : List (List Nat) :=
  ([r.m, r.l, r.flags, r.q] ++ List.replicate 12 0) :: (List.range 8).map (fun i => (r.acc.drop (16 * i)).take 16)

/-- Merges one record: poison in its first block spreads over it, else stays in its block. -/
def redMerge (a b : List (Option (List Nat))) : List (Option (List Nat)) :=
  let bad (l : List (Option (List Nat))) (i : Nat) : Bool := (listAt l i none).isNone
  if bad a 0 || bad b 0 then List.replicate a.length none
  else
    let fill (l : List (Option (List Nat))) : List (List Nat) := l.map (fun x => x.getD (List.replicate 16 0))
    ((wordsOfRec (mergeRec (recOfWords (fill a)) (recOfWords (fill b)))).zipIdx).map (fun e =>
      if bad a e.2 || bad b e.2 then none else some e.1)

/-- Combines what a context holds with a contribution. -/
def redCombine (op : Nat) (a b : List (Option (List Nat))) : List (Option (List Nat)) :=
  if op = 2 then (List.range (a.length / 9)).flatMap (fun r => redMerge ((a.drop (9 * r)).take 9) ((b.drop (9 * r)).take 9))
  else (a.zip b).map (fun e => match e with
    | (some x, some y) => some ((x.zip y).map (fun v => nbAdd v.1 v.2))
    | _ => none)

/-- The bytes of a context's value: a BF16 sum rounds once. -/
def redBytes (op : Nat) (v : List Nat) : List Byte :=
  if op = 1 then v.flatMap (fun w => leBytes 2 (flEncode bf16 false (flDecode fp32 w)).1) else v.flatMap (leBytes 4)

/-- Bytes of a length that is no multiple of the element: their sum is not stated, a free value. -/
def redTail (op len : Nat) (d : List Byte) (s : State) : List Byte × State :=
  let w := if op = 1 then 2 else 4
  if op = 2 || len % w = 0 then (d, s)
  else
    let (v, s) := takeFree s
    (fitBytes (len / w * w) d ++ leBytes (len % w) v, s)

/-- The value of a context as a message. -/
def redMsg (x : RedCtx) (s : State) : FMsg × State :=
  let d := (x.val.map (fun b => fitBytes (min 64 x.len) (redBytes x.op (b.getD [])))).flatten
  let (d, s) := redTail x.op x.len (fitBytes x.len d) s
  ({ cls := 2, vc := 0, dest := myId s, src := myId s, mask := none
     entry := routeEntry s (256 + x.group)
     poison := (List.range x.val.length).filter (fun b => (listAt x.val b none).isNone)
     bytes := mkHead x.len (1 + 2 * x.op + 8 * b2n x.part + 16 * b2n x.err) x.group x.tag x.count (myId s) 0 0 ++ d }, s)

/-- A context completes: its value goes up, to the local stream and through each port of DOWN. -/
def redDone (x : RedCtx) (s : State) : State :=
  let e := routeEntry s (256 + x.group)
  let s := { s with fab := { s.fab with
    ctxs := s.fab.ctxs.filter (fun y => y.group != x.group || y.tag != x.tag), done := s.fab.done ++ [(x.group, x.tag)] } }
  let (m, s) := redMsg x (publishCtxs x.hub (tallyHub x.hub 0x0523 1 none s))
  let s := if fld e 15 0 = 0 then s else post { m with mask := some (fld e 15 0) } s
  let s := if bitAt e 27 then hold 16 { m with mask := some 0 } s else s
  ((List.range 16).filter (fun p => bitAt (fld e 53 38) p)).foldl (fun s p => post { m with mask := some (2 ^ p) } s) s

/-- Whether a context holds every contribution it waits for. -/
def redFull (e : Nat) (x : RedCtx) : Bool := decide (fld e 25 19 ≤ x.kids) && (!bitAt e 26 || x.loc)

/-- A contribution is combined into its context; none while no context is free. -/
def contribute (src : Nat) (m : FMsg) (s : State) : Option State :=
  let g := mGroup m.bytes
  let tag := mTag m.bytes
  let e := m.entry
  let h := reduceHub s g
  let one := if src = 16 then 1 else mCount m.bytes
  if s.fab.done.contains (g, tag) then some (rupd (hubBase h + 0x40024) (fun w => wSatAdd w 11 6 1) s)
  else
    match s.fab.ctxs.find? (fun x => x.group == g && x.tag == tag) with
    | some x =>
      let odd := mLen m.bytes ≠ x.len || mOp m.bytes ≠ x.op
      let x' := if odd then { x with err := true }
        else { x with val := redCombine x.op x.val (redBlocks x.op m), count := (x.count + one) % 2 ^ 18
                      kids := x.kids + (if src = 16 then 0 else 1), loc := x.loc || src == 16
                      part := x.part || mPartial m.bytes, err := x.err || mError m.bytes }
      let s := { s with fab := { s.fab with ctxs := s.fab.ctxs.map (fun y => if y.group = g && y.tag = tag then x' else y) } }
      let s := if odd then rupd (hubBase x.hub + 0x40024) (fun w => wSatAdd w 5 0 1) s else s
      some (if redFull e x' then redDone x' s else s)
    | none =>
      if 4096 ≤ (s.fab.ctxs.filter (fun x => x.hub == h)).length then none
      else
        let x : RedCtx := { hub := h, group := g, tag := tag, len := mLen m.bytes, op := mOp m.bytes, count := one
                            kids := if src = 16 then 0 else 1, loc := src == 16, val := redBlocks (mOp m.bytes) m
                            part := mPartial m.bytes, err := mError m.bytes, opened := s.ns }
        let s := publishCtxs h { s with fab := { s.fab with ctxs := s.fab.ctxs ++ [x] } }
        some (if redFull e x then redDone x s else s)

def execReduceContribution (src : Fin 17) (s : State) : Res :=
  match firstFrom src (fun m => m.cls == 2 && m.mask.isNone) s.fab.held with
  | none => .next s
  | some (i, m) =>
    match contribute src m { s with fab := { s.fab with held := s.fab.held.eraseIdx i } } with
    | none => .next s
    | some s => .next (freePlaces src m s)

/-- A context that is not complete DEPTH × HOP_US µs after its first contribution completes with PARTIAL. -/
def execReduceContextTimeout (group : Fin 768) (tag : Word) (s : State) : Res :=
  match s.fab.ctxs.find? (fun x => x.group == group.val && x.tag == tag.toNat) with
  | none => .next s
  | some x =>
    let depth := max 1 (fld (routeEntry s (256 + group.val)) 56 54)
    if s.ns < x.opened + depth * wFld (rget s (hubBase 0 + 0x40020)) 15 0 * 1000 then .next s
    else .next (redDone { x with part := true } (rupd (hubBase x.hub + 0x40024) (fun w => wSatAdd w 18 12 1) s))

/-! ## FAB_PORT, FAB_ROLE, FAB_ROUTE and FAB_QUERY -/

/-- Whether a port is the only up port of an entry's mask. -/
def soleRoute (s : State) (p i : Nat) : Bool := bitAt (routeEntry s i) 16 && maskPorts s (fld (routeEntry s i) 15 0) 3 == [p]

/-- Whether a planned retraining of a port must wait (R334): it alone carries the route to the parent or to a live child. -/
def carriesTree (s : State) (p : Nat) : Bool :=
  (wBit (fabId s) 31 && fabParent s != myId s && soleRoute s p (unicastIdx (myId s) (fabParent s))) ||
    s.fab.live.any (fun k => soleRoute s p (64 * (k / 64 - 1) + k % 64))

/-- FAB_PORT. A port whose UCIe module did not train keeps disabled when it is enabled (R331). -/
def fabPort (k : Pkt) (s : State) : State :=
  let p := payAt k.bytes 0 1 % 16
  let act := payAt k.bytes 0 1 / 16
  if act = 3 then complete k.id 0x0102 0 0 s
  else if hubAbsent s (p / 4) then complete k.id 0x0502 0 0 s
  else if act = 0 then complete k.id 0 0 0 (fportUpd p (fun u => { u with enabled := false, due := false }) (portDown p 0 s))
  else if act = 1 then
    if nsHas s.boot.oeHeld p then complete k.id 0x0403 0 0 s
    else
      let s := fportUpd p (fun u => { u with enabled := true }) s
      complete k.id 0 0 0 (if portState s p = 0 && wFld (rget s (fportKey p 0)) 28 27 != 0 then setPortState p 2 s else s)
  else if portState s p ≠ 3 || carriesTree s p then complete k.id 0x0304 0 0 s
  else complete k.id 0 0 0 (portRetrain p s)

def execFabPort (w : Fin 128) (s : State) : Res :=
  runCmd w 0x0801 (fun b => payAt b 0 1 / 64 != 0 || payNZ b 1 7) fabPort s

def fabRole (k : Pkt) (s : State) : State :=
  let a := payAt k.bytes 0 8
  let b := payAt k.bytes 8 8
  let id := fld a 17 0
  let role := fld a 19 18
  let level := fld a 21 20
  let parent := fld b 17 0
  if 2 ≤ role then complete k.id 0x0102 0 0 s
  else if (role = 0 && level ≠ 0) || (role = 1 && level = 0) || (parent = id && level < 3) then complete k.id 0x0107 0 0 s
  else
    let s := rset (hubBase 0 + 0x40004) (BitVec.ofNat 32 parent)
      (rset (hubBase 0 + 0x40000) (BitVec.ofNat 32 (2 ^ 31 + level * 2 ^ 28 + id)) s)
    complete k.id 0 0 0 { s with fab := { s.fab with unanswered := 0, parentPort := fld b 21 18 } }

def execFabRole (w : Fin 128) (s : State) : Res :=
  runCmd w 0x0802 (fun b => payAt b 0 8 / 2 ^ 22 != 0 || payAt b 8 8 / 2 ^ 22 != 0) fabRole s

/-- Reserved bits of a route entry at an index (Table FAB.7). -/
def routeResv (i e : Nat) : Bool := if i < 256 then e / 2 ^ 19 != 0 else e / 2 ^ 57 != 0

def routeResvAny (b : List Byte) : Bool :=
  payNZ b 4 12 || (List.range (payAt b 0 2)).any (fun j => routeResv (payAt b 2 2 + j) (payAt b (16 + 8 * j) 8))

def fabRoute (k : Pkt) (s : State) : State :=
  let n := payAt k.bytes 0 2
  let first := payAt k.bytes 2 2
  let e (j : Nat) : Nat := payAt k.bytes (16 + 8 * j) 8
  if n = 0 || 505 < n || 1024 < first + n ||
      (List.range n).any (fun j => 256 ≤ first + j && 64 < fld (e j) 25 19) then complete k.id 0x0107 0 0 s
  else
    complete k.id 0 n 0 { s with fab := { s.fab with
      route := (List.range n).foldl (fun r j => stSet (fun _ => 0) r (first + j) (e j)) s.fab.route } }

def execFabRoute (w : Fin 128) (s : State) : Res := runCmd w 0x0803 routeResvAny fabRoute s

def fabQuery (k : Pkt) (s : State) : State :=
  let p := payAt k.bytes 0 1 % 16
  if hubAbsent s (p / 4) then complete k.id 0x0502 0 0 s
  else complete k.id 0 ((rget s (fportKey p 0)).toNat + (rget s (fportKey p 4)).toNat * 2 ^ 32) 0 s

def execFabQuery (w : Fin 128) (s : State) : Res :=
  runCmd w 0x0804 (fun b => payAt b 0 1 / 16 != 0 || payNZ b 1 7) fabQuery s

end Sys2Proof.Machine
end

