-- ==== Sys2Proof/Machine/Thermal.lean ====
section
/-! DEFINITION. Sensors, prediction, the thermal brake, the kiln-sitter, canaries, cooling and thermal life (R374 to R392). -/

namespace Sys2Proof.Machine

/-! ## Channels (Table THM.1)

Channels 0 to 255 are hotspot diodes, 256 to 767 layer diodes, 768 tower managers, 784 edge PHYs, 848 hub logic, 864 hub buffer
layers, 868 rails (voltage and current of VIN, VT_LOG, VT_DRAM, VH_LOG, VM, VOE), 952 VAUX, 953 regulators, 997 LPDDR5X packages,
1021 optical engines (die and laser), 1055 thermistors, 1059 flow. -/

/-- The tower of a channel, if it lies in one. -/
def chTower (ch : Nat) : Option Nat :=
  if ch < 256 then some (ch / 16)
  else if ch < 768 then some ((ch - 256) / 32)
  else if ch < 784 then some (ch - 768)
  else if ch < 848 then some ((ch - 784) / 4)
  else none

/-- The hub of a channel outside the towers, by its number. -/
def chOwnHub (ch : Nat) : Nat :=
  if ch < 864 then (ch - 848) / 4
  else if ch < 868 then ch - 864
  else if ch < 952 then
    let r := (ch - 868) / 2
    if r = 0 || r = 41 then 0 else if r < 33 then homeHub ((r - 1) % 16) else (r - 33) % 4
  else if ch < 953 then 0
  else if ch < 985 then homeHub ((ch - 953) % 16)
  else if ch < 997 then (ch - 985) % 4
  else if ch < 1021 then (ch - 997) / 6
  else if ch < 1053 then (ch - 1021) / 8
  else 0

def chHub (ch : Nat) : Nat := match chTower ch with
  | some n => homeHub n
  | none => chOwnHub ch

/-- The physical locator of the unit a channel guards (Table BOOT.3). -/
def chSource (ch : Nat) : Nat :=
  match chTower ch with
  | some n => srcTower n
  | none =>
    if ch < 868 then srcIndex 1 (chOwnHub ch)
    else if ch < 952 then
      let r := (ch - 868) / 2
      srcIndex 11 (if r = 0 then 0 else if r < 17 then 3 else if r < 33 then 4 else if r < 37 then 6 else if r < 41 then 7 else 8)
    else if ch < 953 then srcIndex 11 1
    else if ch < 997 then
      let r := ch - 953
      srcIndex 11 (if r < 16 then 3 else if r < 32 then 4 else if r < 36 then 6 else if r < 40 then 7 else 2)
    else if ch < 1021 then srcIndex 9 (ch - 997)
    else if ch < 1055 then srcIndex 10 ((ch - 1021) / 2)
    else srcIndex 1 0

/-- Whether a channel is there: not on a lost tower, and its own hub present (R374). -/
def chHere (s : State) (ch : Nat) : Bool := match chTower ch with
  | some n => dieOn s n
  | none => !hubAbsent s (chOwnHub ch)

/-- Whether a channel reads a temperature. -/
def chTemp (ch : Nat) : Bool :=
  decide (ch < 868) || (decide (953 ≤ ch) && decide (ch < 997)) || (decide (1021 ≤ ch) && decide (ch < 1059))

/-! ## Broken sensors (R376) -/

/-- Inserts into a rising list. -/
def sortIns (x : Int) : List Int → List Int
  | [] => [x]
  | y :: r => if x ≤ y then x :: y :: r else y :: sortIns x r

def sortInts (l : List Int) : List Int := l.foldl (fun a x => sortIns x a) []

/-- Twice the median of a list. -/
def median2 (l : List Int) : Int :=
  let t := sortInts l
  t.getD ((l.length - 1) / 2) 0 + t.getD (l.length / 2) 0

/-- Whether a reading is implausible: outside −20 °C to 150 °C, or more than 15 °C from the median of its group. -/
def implausible (v : Int) (group : List Int) : Bool :=
  decide (v < -80) || decide (600 < v) || (!group.isEmpty && decide (120 < (2 * v - median2 group).natAbs))

/-- Records a sensor as found good or bad; a new broken one sets SENSOR_BAD and is logged. A sensor that a start-up reads as good
is broken no longer. -/
def noteSensor (ch : Nat) (cut bad : Bool) (s : State) : State :=
  let s := { s with therm := { s.therm with cut := if cut then nsAdd s.therm.cut ch else nsDel s.therm.cut ch } }
  if !bad then (if s.booted then s else { s with therm := { s.therm with brk := nsDel s.therm.brk ch } })
  else if nsHas s.therm.brk ch then s
  else
    let s := rupd (thmBase + 0x1C0) (fun w => wPut w 3 3 1) { s with therm := { s.therm with brk := nsAdd s.therm.brk ch } }
    logErr { hub := chHub ch, code := 0x0401, part := none, source := chSource ch, engine := 19, logical := 0, addr := 0
             detail := ch } s

def chBroken (s : State) (ch : Nat) : Bool := nsHas s.therm.brk ch

/-- The power of the unit that a channel guards, in 0.1 W, as the last interval measured it (R35). -/
def guardPow (s : State) (ch : Nat) : Nat :=
  let m (k : Nat) : Nat := stGet (fun _ => 0) s.pwr.meas k
  match chTower ch with
  | some n => m (n + 1) + m (n + 17)
  | none =>
    if ch < 868 then m (33 + chOwnHub ch)
    else if ch < 952 then m ((ch - 868) / 2)
    else if ch < 953 then m 0
    else if ch < 993 then m (ch - 952)
    else if ch < 997 then m 0
    else if ch < 1021 then m (37 + (ch - 997) / 6)
    else if ch < 1055 then m 41
    else m 0

/-- Takes a sample into its channel's run of one code; `same` says that the sample before had its code. -/
def noteCode (ch : Nat) (same : Bool) (s : State) : State :=
  let p := guardPow s ch
  let u := stGet (fun _ => SameSt.none) s.therm.same ch
  let u : SameSt := if same && u.n != 0 then { n := u.n + 1, lo := min u.lo p, hi := max u.hi p } else { n := 1, lo := p, hi := p }
  { s with therm := { s.therm with same := stSet (fun _ => SameSt.none) s.therm.same ch u } }

/-- Whether a channel is stuck: 1 000 samples of a hotspot diode, or 60 rounds of another channel, in one code, while the power
changed by 20 % or more of its largest value. -/
def stuckNow (s : State) (ch : Nat) : Bool :=
  let u := stGet (fun _ => SameSt.none) s.therm.same ch
  decide ((if ch < 256 then 1000 else 60) ≤ u.n) && decide (u.lo < u.hi) && decide (u.hi ≤ 5 * (u.hi - u.lo))

/-- The last good reading of a channel. -/
def chLast (s : State) (ch : Nat) : Int := stGet (fun _ => 0) s.therm.last ch
def setLast (ch : Nat) (v : Int) (s : State) : State :=
  { s with therm := { s.therm with last := stSet (fun _ => 0) s.therm.last ch v } }

/-! ## The cooling warnings (R387, Table CNT.9) -/

def rRatio (s : State) (n : Nat) : Nat := wFld (rget s (thmBase + 0x180 + 4 * n)) 31 20
def outletBits (s : State) : Nat := unsignedOf 16 (tempFld (rget s (thmBase + 0x150)) 31 21)
def inletBits (s : State) : Nat := unsignedOf 16 (inletT s)
def flowHz (s : State) : Nat := wFld (rget s (thmBase + 0x158)) 15 0
def flowLost (s : State) : Bool := wBit (rget s (thmBase + 0x158)) 31
def minHz (s : State) : Nat := wFld (rget s (thmBase + 0x15C)) 15 0

def coolRecord (ty : Nat) (s : State) : State :=
  let body := (List.range 16).flatMap (fun n => leBytes 2 (rRatio s n)) ++ leBytes 2 (inletBits s) ++
    leBytes 2 (outletBits s) ++ leBytes 2 (flowHz s)
  telEmit { ty := ty, time := s.ns, body := body } s

/-- Sends the cooling-degraded warning. -/
def coolWarn (s : State) : State :=
  coolRecord 2 (rupd (thmBase + 0x1C0) (fun w => wPut w 0 0 1) { s with therm := { s.therm with warn := true } })

/-- Whether R_est of a tower is at least `pc` percent of R_0. -/
def ratioAtLeast (s : State) (pc n : Nat) : Bool := rBase s n != 0 && decide (pc * 1000 * rBase s n ≤ 100 * rEst s n)

def execCoolWarnRepeat (s : State) : Res :=
  .next (if s.therm.warn && (List.range 16).any (ratioAtLeast s 110) then coolWarn s else s)

def execCoolWarnClear (s : State) : Res :=
  .next (if s.therm.warn && !(List.range 16).any (ratioAtLeast s 110) then
    coolRecord 3 { s with therm := { s.therm with warn := false } } else s)

/-! ## Prediction (R379, R381, R382) -/

/-- The rise of a reading over 5 ms along the least-squares slope of the last samples, newest first, in 10⁻⁶ °C. -/
def slopeRise (h : List Int) : Int :=
  let n : Int := ((h.length : Nat) : Int)
  if n ≤ 1 then 0
  else
    let sum : Int := h.zipIdx.foldl (fun a e => a + (n - 1 - 2 * ((e.2 : Nat) : Int)) * e.1) 0
    sum * (6 * 250000 * 500) / (n * (n * n - 1))

/-- T_hot,pred of a tower. -/
def predictHot (s : State) (n : Nat) (h : List Int) (t : Int) : Int :=
  let tss : Int := inletT s * 250000 + ((rEst s n * powTw s n / 10 : Nat) : Int)
  max (t * 250000 + (tss - t * 250000) * ((Config.fusedTau n : Nat) : Int) / 1024) (t * 250000 + slopeRise h)

/-- T_Lm,pred of a layer. -/
def predictLayer (n m : Nat) (u : LayerTh) (pred : Int) : Int :=
  u.meas * 250000 + ((Config.fusedKm n m : Nat) : Int) * (pred - u.base) / 1000

/-- The thermal withhold count of a tower. -/
def thermWithhold (s : State) (n : Nat) : Nat :=
  let x : Int := 3 * (layPred s n - 92000000)
  min 12 ((x + 999999) / 1000000).toNat

/-- Publishes THM_TWR_TEMP of a tower. -/
def publishTemp (n : Nat) (s : State) : State :=
  let u := twTh s n
  rset (thmBase + 0x100 + 4 * n) (BitVec.ofNat 32
    (tempBits (u.pred / 250000) * 2 ^ 21 + tempBits u.meas * 2 ^ 10 + brokenHot s n)) s

/-- Adds a sample to the 1 s window of R_est. -/
def windowAdd (s : State) (n : Nat) (t : Int) (u : TwrTh) : TwrTh :=
  let p := powTw s n
  { u with rSum := if p = 0 then u.rSum else u.rSum + (t - inletT s) * 2500000 / ((p : Nat) : Int)
           rCnt := u.rCnt + 1, pMin := if u.rCnt = 0 then p else min u.pMin p, pMax := max u.pMax p }

/-- The temperature that a reading shows, if it is one. -/
def rdTemp (r : Rd) : Option Int := match r with
  | .val v => some v
  | .volt _ => none
  | .edges _ => none
  | .cut => none

/-- Samples one tower's sixteen hotspot diodes; a broken one reads 100 °C, and broken diodes may hold the tower. -/
def sampleTower (n : Nat) (l : List Rd) (stuck : List Nat) (s : State) : State :=
  if l.length ≠ 16 || !dieOn s n then s
  else
    let s := l.zipIdx.foldl (fun s e =>
      let ch := chHot n e.2
      let others := (l.zipIdx.filter (fun x => x.2 != e.2)).filterMap (fun x => rdTemp x.1)
      match rdTemp e.1 with
      | none => noteSensor ch true true s
      | some v =>
        let s := noteCode ch (stuck.contains ch) s
        noteSensor ch false (implausible v others || stuckNow s ch) s) s
    let rs := l.zipIdx.map (fun e => if chBroken s (chHot n e.2) then 400 else (rdTemp e.1).getD 400)
    let t := rs.foldl max (rs.getD 0 0)
    let u := twTh s n
    let s := twThSet n (windowAdd s n t { u with hist := (t :: u.hist).take 100, meas := t }) s
    publishTemp n (twrPublish n 0 s)

/-- Every 10 µs the hotspot diodes are sampled: their readings per tower, and the channels that read the code of the sample
before. -/
def execHotspotSample (rd : List (List Rd)) (stuck : List Nat) (s : State) : Res :=
  .next (iter 16 (fun n s => sampleTower n (listAt rd n []) stuck s) s)

/-- Predicts a tower's hotspot and layers 5 ms ahead, with its thermal withhold count (R379, R381). -/
def predictTower (n : Nat) (s : State) : State :=
  if !dieOn s n then s
  else if s.stage < 5 then { s with pwr := { s.pwr with thermW := stSet (fun _ => 0) s.pwr.thermW n 0 } }
  else
    let u := twTh s n
    let pred := predictHot s n u.hist u.meas
    let s := iter 8 (fun m s => layThSet n m { layTh s n m with pred := predictLayer n m (layTh s n m) pred } s)
      (twThSet n { u with pred := pred } s)
    publishTemp n { s with pwr := { s.pwr with thermW := stSet (fun _ => 0) s.pwr.thermW n (thermWithhold s n) } }

/-- The thermal source of the brake at the end of a 10 µs interval. -/
def thermBrake (s : State) : State :=
  if !limitOn s || s.stage < 5 then s
  else
    let ts := (List.range 16).filter (dieOn s)
    let hot := ts.any (fun n => decide (106000000 ≤ (twTh s n).pred) || decide (100000000 ≤ layPred s n)) || flowLost s
    let calm := ts.all (fun n => decide ((twTh s n).pred < 100000000) && decide (layPred s n < 95000000))
    let c := if calm then min 100 (s.therm.clear + 1) else 0
    let s := { s with therm := { s.therm with clear := c } }
    if hot then brakeSource 2 true s else if c = 100 then brakeSource 2 false s else s

/-- The limit block's 10 µs interval (R45, R379 to R382): the powers are measured, the temperatures predicted, the loop runs under
the allowances, and the thermal source of the brake is decided at the end. `pk` is the module input power and `tw` what the
other meters show. -/
def execPowerLoopTick (pk : Nat) (tw : Meters) (s : State) : Res :=
  if !limitOn s then .next s
  else
    let p (n : Nat) : Nat × Nat := if nsHas s.lostTw n then (0, 0) else listAt tw.tower n (0, 0)
    .next (thermBrake (loopAdjust pk p (iter 16 predictTower (loopMeasure pk p tw.hub s))))

/-! ## The housekeeping round -/

def rdAt (rd : List (Nat × Rd)) (ch : Nat) : Option Rd := (rd.find? (fun e => e.1 == ch)).map Prod.snd

/-- The frequency of the flow-pulse input in 0.1 Hz (R375): the rising edges of the last 50 ms over that gate where they are three
or more, else the reciprocal of the interval between the last two. Without two edges it is 0. -/
def edgeFreq (ages : List Nat) : Nat :=
  let c := (ages.filter (fun a => a ≤ 50000000)).length
  match ages with
  | a :: b :: _ => if 3 ≤ c then 200 * c else 10000000000 / (b - a)
  | _ => 0

/-- What a reading shows in its channel's unit. A thermistor contact above 1.700 V counts as open, one below 0.040 V as a short
(R460). -/
def rdVal (r : Rd) : Option Int := match r with
  | .val v => some v
  | .volt uv => if 1700000 < uv || uv < 40000 then none else some (Config.ntcTemp uv)
  | .edges l => some ((edgeFreq l : Nat) : Int)
  | .cut => none

/-- Reads one channel. A channel that the round does not read keeps its last good reading (R390). -/
def readChan (rd : List (Nat × Rd)) (stuck : List Nat) (ch : Nat) (s : State) : State :=
  match (rdAt rd ch).map rdVal with
  | none => s
  | some none => noteSensor ch true true s
  | some (some v) =>
    let others := if 256 ≤ ch && ch < 768 then
        (List.range 4).filterMap (fun d =>
          let c := (ch - 256) / 4 * 4 + 256 + d
          if c = ch then none else (rdAt rd c).bind rdTemp)
      else []
    let s := noteCode ch (stuck.contains ch) s
    let bad := stuckNow s ch || (chTemp ch && implausible v others)
    noteSensor ch false bad (if bad then s else setLast ch v s)

/-- A layer's diodes become suspect (R385): the layer reads 95 °C and refreshes at 256 MCLK. -/
def suspectLayer (n m bit : Nat) (hot : Bool) (s : State) : State :=
  let u := layTh s n m
  let s := layThSet n m { u with suspect := true, hot := u.hot || hot, meas := 380, dis := 0 } s
  let s := { s with refRate := stSet (fun _ => 0) s.refRate n 2 }
  logErr { hub := homeHub n, code := 0x0402, part := none, source := srcTower n, engine := 19, logical := 0, addr := 0, detail := m }
    (rupd (thmBase + 0x1C0) (fun w => wPut w bit bit 1) s)

/-- Takes over a layer's reading (R374, R377, R379, R385). -/
def roundLayer (rd : List (Nat × Rd)) (n m : Nat) (s : State) : State :=
  let u := layTh s n m
  let ds := List.range 4
  let broken := ds.any (fun d => chBroken s (chLay n m d))
  let sus := u.suspect || broken
  let good := (ds.filter (fun d => !chBroken s (chLay n m d))).map (fun d => chLast s (chLay n m d))
  let v := if sus || u.hot then 380 else good.foldl max (good.getD 0 0)
  let base := (twTh s n).meas * 250000
  let off := decide (5 ≤ s.stage) && !sus && ds.all (fun d => (rdAt rd (chLay n m d)).isSome) &&
    decide (8000000 < (v * 250000 - u.pred).natAbs)
  let dis := if off then u.dis + 1 else 0
  let u' := { u with meas := v, base := base, suspect := sus, dis := dis }
  let s := layThSet n m { u' with pred := predictLayer n m u' (twTh s n).pred } s
  if 10 ≤ dis then suspectLayer n m 5 false s else s

/-- The refresh rate of a tower (R160): it rises at once and falls back after ten rounds at least 3 °C below. -/
def roundRefresh (n : Nat) (s : State) : State :=
  let hot := (List.range 8).foldl (fun a m => max a (layTh s n m).meas) (layTh s n 0).meas
  let mark := (List.range 8).any (fun m => (layTh s n m).hot || (layTh s n m).suspect)
  let u := twTh s n
  let c85 := if hot ≤ 328 then min 10 (u.cool85 + 1) else 0
  let c95 := if hot ≤ 368 then min 10 (u.cool95 + 1) else 0
  let cur := stGet (fun _ => 0) s.refRate n
  let r := if mark || decide (380 < hot) || (cur == 2 && decide (c95 < 10)) then 2
    else if decide (340 < hot) || (decide (1 ≤ cur) && decide (c85 < 10)) then 1 else 0
  twThSet n { u with cool85 := c85, cool95 := c95 } { s with refRate := stSet (fun _ => 0) s.refRate n r }

/-- The refresh codes of a hub's packages (R242, Table CAP.3). -/
def roundPackages (rd : List (Nat × Rd)) (h : Nat) (s : State) : State :=
  iter 6 (fun k s =>
    let ch := 997 + 6 * h + k
    match rdAt rd ch with
    | none => s
    | some _ =>
      let code := if chBroken s ch then 6 else min 6 (chLast s ch).toNat
      rupd (hubBase h + 0x10000) (fun w => wPut (wPut w (3 * k + 2) (3 * k) code) (24 + k) (24 + k) (b2n (code == 6))) s) s

/-- The hottest logic diode of a hub; a broken one reads 100 °C. -/
def roundHub (h : Nat) (s : State) : State :=
  let vs := (List.range 4).map (fun d => if chBroken s (848 + 4 * h + d) then 400 else chLast s (848 + 4 * h + d))
  { s with therm := { s.therm with hubHot := stSet (fun _ => 0) s.therm.hubHot h (vs.foldl max (vs.getD 0 0)) } }

/-- Regulators above 125 °C cost allowance; one that reaches it sets REG_HOT. A broken one reads its limit (Table THM.3). -/
def roundRegulators (s : State) : State :=
  let v (r : Nat) : Int := if chBroken s (953 + r) then 500 else chLast s (953 + r)
  let s' := { s with therm := { s.therm with regHot := (List.range 44).filter (fun r => decide (500 < v r)) } }
  if (List.range 44).any (fun r => decide (500 ≤ v r)) then rupd (thmBase + 0x1C0) (fun w => wPut w 6 6 1) s' else s'

/-- An engine at its rated maximum loses its port; the port is tried again once the engine has cooled by 10 °C (Table THM.4). -/
def roundEngines (s : State) : State :=
  iter 16 (fun e s =>
    let t := max (chLast s (1021 + 2 * e)) (chLast s (1022 + 2 * e))
    if hubAbsent s (e / 4) then s
    else if nsHas s.therm.oeHot e then
      if t ≤ Config.oeRated e - 40 then
        let s := { s with therm := { s.therm with oeHot := nsDel s.therm.oeHot e } }
        if portState s e = 0 && (fport s e).enabled && !nsHas s.boot.oeHeld e then setPortState e 2 s else s
      else s
    else if Config.oeRated e ≤ t && portState s e ≠ 0 then
      portErr e 0x0210 0 (portDown e 0 { s with therm := { s.therm with oeHot := nsAdd s.therm.oeHot e } })
    else s) s

/-- The temperature of a thermistor pair (R375, Table THM.3): none where both are broken. -/
def pairTemp (s : State) (a b : Nat) : Option Int :=
  let x := chLast s a
  let y := chLast s b
  if chBroken s a && chBroken s b then none
  else if chBroken s a then some y
  else if chBroken s b then some x
  else if (x - y).natAbs ≤ 8 then some ((x + y) / 2) else some (max x y)

/-- The coolant inputs: THM_COOL and THM_FLOW.FREQ. An outlet both of whose thermistors are broken reads an unstated value. -/
def roundCoolant (rd : List (Nat × Rd)) (s : State) : State :=
  let inl := pairTemp s 1055 1056
  let (free, s) := takeFree s
  let out := match pairTemp s 1057 1058 with
    | some v => tempBits v
    | none => free % 2048
  let bad := sumNat ((List.range 4).map (fun i => if chBroken s (1055 + i) then 2 ^ i else 0))
  let s := rset (thmBase + 0x150) (BitVec.ofNat 32 (out * 2 ^ 21 + tempBits (inl.getD 180) * 2 ^ 10 + bad)) s
  let s := match (rdAt rd 1059).bind rdVal with
    | some v => rupd (thmBase + 0x158) (fun w => wPut w 15 0 (min v.toNat 65535)) s
    | _ => s
  if inl.isNone && !s.therm.warn then coolWarn s else s

/-- Counters as coarsened reads show them: rounded down to a multiple of 4 096 once per 1 ms (R430). -/
def coarseCounters (s : State) : State :=
  { s with snap := { s.snap with coarse :=
      (s.ctrs.map (fun e => (e.1, e.2.val / 4096 * 4096))).filter (fun e => e.2 != 0) } }

/-! ## The kiln-sitter (R383, R384) -/

/-- The cone counts, life thresholds and spares in use are written to the non-volatile stores (R391, R393). -/
def coneStore (s : State) : State :=
  { s with therm := { s.therm with
      coneNv := s.therm.tw.map (fun e => (e.1, e.2.cone ++ [e.2.life])) } }

/-- A second consecutive reading over its limit trips: `layer` selects a layer diode, else a hotspot diode; `src` is the diode 0
to 15, or 4 · layer + diode; `temp` the reading in 0.25 °C. -/
def kilnTrip (n : Nat) (layer : Bool) (src : Nat) (temp : Int) (s : State) : State :=
  let w := BitVec.ofNat 32 (2 ^ 31 + b2n layer * 2 ^ 30 + n * 2 ^ 26 + (if layer then src / 4 else src) * 2 ^ 22 + tempBits temp * 2 ^ 11)
  let s := coneStore { s with
    boot := { s.boot with recs := s.boot.recs.map (fun e => (e.1, { e.2 with tripped := true })) }
    therm := { s.therm with kilnNv := w }
    pwr := { s.pwr with kiln := true } }
  railsOff s

def execKilnSitterTrip (n : Fin 16) (layer : Bool) (src : Fin 32) (temp : Int) (s : State) : Res :=
  let ch := if layer then chLay n (src / 4) (src % 4) else chHot n src
  let above := if layer then decide (420 ≤ temp) else decide (460 ≤ temp) && decide (src.val < 16)
  .next (if s.pwr.vaux && !s.pwr.kiln && above && (layer || !nsHas s.therm.cut ch) then kilnTrip n layer src temp s else s)

/-- A write of THM_KILN_LAST: 1 to VALID clears the record and its stored copy. -/
def writeKilnLast (w : Word) (s : State) : State :=
  if wBit w 31 then rset (thmBase + 0x1C4) 0 { s with therm := { s.therm with kilnNv := 0 } } else s

def execKilnLastClear (w : Word) (s : State) : Res := .next (writeKilnLast w s)

/-! ## Canaries (R385) -/

/-- A canary of a layer differs: where its diodes read below 95 °C they are suspect and the layer is hot. -/
def canaryLayer (n m : Nat) (s : State) : State :=
  if (layTh s n m).meas < 380 then suspectLayer n m 4 true s else s

/-- A failing check is noted; on a tower that refreshes at 256 MCLK already it lowers the slow allowance. -/
def canaryFail (n : Nat) (s : State) : State :=
  let u := twTh s n
  twThSet n { u with derate := if stGet (fun _ => 0) s.refRate n = 2 then u.derate + 1 else u.derate, lastFail := s.ns } s

/-- A column reads its canary rows: `fail` names the layers whose canary differs. -/
def execCanaryCheck (col : Fin 8704) (fail : BitVec 8) (s : State) : Res :=
  let n := col.val / 544
  if (s.stage < 7 && !s.booted) || (colget s col).retraining || (colget s col).state = 2 || !dieOn s n then .next s
  else if fail = 0 then
    .next (if decide (0 < (twTh s n).derate) && decide ((twTh s n).lastFail + 1000000000 ≤ s.ns) then
      twThSet n { twTh s n with derate := 0 } s else s)
  else .next (iter 8 (fun m s => if fail.getLsbD m then canaryLayer n m s else s) (canaryFail n s))

/-! ## Cooling that fails slowly (R386), cone counts and thermal life (R391, R392) -/

/-- Takes a reading into the turning points, newest first; the newest is provisional. -/
def turnAdd (x : Int) : List Int → List Int
  | [] => [x]
  | [a] => if x = a then [a] else [x, a]
  | a :: b :: r => if x = a || (decide (b < a) == decide (a < x)) then x :: b :: r else x :: a :: b :: r

/-- The bin of a range in 0.25 °C: 0 for 20 to 40 °C, 1 to 60 °C, 2 above. -/
def coneBin (r : Nat) : Option Nat := if r < 80 then none else if r ≤ 160 then some 0 else if r ≤ 240 then some 1 else some 2

def coneAdd (r halves : Nat) (c : List Nat) : List Nat :=
  match coneBin r with
  | some i => c.set i (min (listAt c i 0 + halves) (2 ^ 32 - 1))
  | none => c

/-- Rainflow over the confirmed turning points, newest first: a range that a later one covers closes a cycle, and a range from
the first point counts a half cycle. -/
def rainflow : Nat → List Int → List Nat → List Int × List Nat
  | 0, l, c => (l, c)
  | n + 1, l, c =>
    match l with
    | p0 :: p1 :: p2 :: r =>
      let x := (p0 - p1).natAbs
      let y := (p1 - p2).natAbs
      if x < y then (l, c)
      else if r.isEmpty then rainflow n [p0, p1] (coneAdd y 1 c)
      else rainflow n (p0 :: r) (coneAdd y 2 c)
    | _ => (l, c)

/-- Consumed life in parts per million. -/
def lifePpm (c : List Nat) : Nat := listAt c 0 0 / 2 + 5 * listAt c 1 0 + 50 * listAt c 2 0

def lifeRecord (n thr : Nat) (s : State) : State :=
  telEmit { ty := 6, time := s.ns, body := leBytes 1 n ++ leBytes 1 thr ++ leBytes 2 0 ++ leBytes 4 (lifePpm (twTh s n).cone) } s

/-- One point of the 1 ms series of a tower's hottest hotspot. -/
def coneStep (n : Nat) (s : State) : State :=
  let u := twTh s n
  let t := turnAdd u.meas u.turns
  let (l, c) := rainflow t.length (t.drop 1) u.cone
  let s := twThSet n { u with turns := t.take 1 ++ l, cone := c } s
  [50, 80, 100].foldl (fun s thr =>
    if (twTh s n).life < thr && thr * 10000 ≤ lifePpm (twTh s n).cone then
      lifeRecord n thr (twThSet n { twTh s n with life := thr } s)
    else s) s

/-- Every 1 ms every other channel is read: the readings by channel, and the channels that read the code of the round before. The round also
gives the next point of each tower's hotspot series (R391). -/
def execHousekeepingRound (rd : List (Nat × Rd)) (stuck : List Nat) (s : State) : Res :=
  if s.stage < 3 then .next s
  else
    let rd := rd.filter (fun e => decide (256 ≤ e.1) && decide (e.1 < 1060) && chHere s e.1)
    let s := rd.foldl (fun s e => readChan rd stuck e.1 s) s
    let s := ((List.range 16).filter (dieOn s)).foldl (fun s n =>
      roundRefresh n (iter 8 (fun m s => roundLayer rd n m s) s)) s
    let s := ((List.range 4).filter (fun h => !hubAbsent s h)).foldl (fun s h => roundHub h (roundPackages rd h s)) s
    let s := ((List.range 16).filter (dieOn s)).foldl (fun s n => coneStep n s) s
    .next (coarseCounters (roundCoolant rd (roundEngines (roundRegulators s))))

/-- A 1 s window of a tower ends. R_est is the window's mean where the power stayed at 100 W or more and varied by less than
10 % of its largest value. -/
def windowEnd (n : Nat) (s : State) : State :=
  let u := twTh s n
  let ok := decide (0 < u.rCnt) && decide (1000 ≤ u.pMin) && decide (10 * (u.pMax - u.pMin) < u.pMax)
  let r := max 1 (u.rSum / ((u.rCnt : Nat) : Int)).toNat
  let s := twThSet n { u with rEst := if ok then r else u.rEst, rSum := 0, rCnt := 0, pMin := 0, pMax := 0 } s
  if ok && rBase s n ≠ 0 then
    rupd (thmBase + 0x180 + 4 * n) (fun w => wPut (wPut w 31 20 (min 4095 ((2 * 1024 * r + 1000 * rBase s n) / (2000 * rBase s n))))
      8 0 (min 320 (slowAllow s n))) s
  else s

def execRthWindow (n : Fin 16) (s : State) : Res :=
  if !dieOn s n || !limitOn s then .next s
  else
    let s := windowEnd n s
    .next (if ratioAtLeast s 115 n && !s.therm.warn then coolWarn s else s)

/-! ## Cooling that stops (R388) -/

def flowRecord (ty : Nat) (s : State) : State :=
  telEmit { ty := ty, time := s.ns, body := leBytes 2 (flowHz s) ++ leBytes 2 (minHz s) ++ leBytes 2 (inletBits s) } s

def flowOn (s : State) : Bool := wBit (rget s (thmBase + 0x15C)) 31

/-- Whether no edge has arrived for the longer of 50 ms and 2 / MIN_HZ; without any edge, as `noEdge` says. -/
def flowQuiet (s : State) (ages : List Nat) (noEdge : Bool) : Bool := match ages with
  | a :: _ => decide (50000000 ≤ a) && decide (20000000000 ≤ a * minHz s)
  | [] => noEdge

/-- The flow input has the edges `freq`, by age: their frequency lies below MIN_HZ, or no edge has arrived in time, or the input is
broken. -/
def execFlowLost (freq : List Nat) (noEdge : Bool) (s : State) : Res :=
  if !limitOn s || !flowOn s || flowLost s || !(decide (edgeFreq freq < minHz s) || flowQuiet s freq noEdge || chBroken s 1059) then
    .next s
  else
    let s := rupd (thmBase + 0x158) (fun w => wPut (wPut w 15 0 (min (edgeFreq freq) 65535)) 31 31 1) s
    let s := rupd (thmBase + 0x1C0) (fun w => wPut w 2 2 1) s
    .next (flowRecord 4 (brakeSource 2 true s))

/-- The frequency has stayed at or above MIN_HZ for 1 s. -/
def execFlowPresent (freq : List Nat) (s : State) : Res :=
  if !limitOn s || !flowLost s || edgeFreq freq < minHz s then .next s
  else .next (flowRecord 5 (rupd (thmBase + 0x158) (fun w => wPut (wPut w 15 0 (min (edgeFreq freq) 65535)) 31 31 0) s))

end Sys2Proof.Machine
end

