-- ==== Sys2Proof/Machine/Maint.lean ====
section
/-! DEFINITION. The maintenance scheduler, its activities, zeroing, watchdogs and LOG_ACK (R376, R391 to R403, R407, R410, R413). -/

namespace Sys2Proof.Machine

/-! ## Kinds and units

A step's unit is numbered physically: kinds 1 and 4 column · 32 768 + row group; 2 tier-2 offset / 4 096; 3 core · 6 144 + block;
5 port; 6 column; 7 bridge direction; 8 sensor channel. MNT_START names the same units by logical numbers (R3): logical core
256 · tower + 16 · cluster + core in place of the physical core. DESIGN CHOICE (log entry 42). -/

/-- The default period in minutes (Table RAS.1); 0 for a kind without one. -/
def mntDefault (kind : Nat) : Nat := listAt [0, 1440, 1440, 1440, 10080, 10, 60, 1440, 60] kind 0

/-- How many units the device has of a kind. -/
def mntUnits (kind : Nat) : Nat :=
  listAt [0, 8704 * 32768, t2End / 4096, 4352 * 6144, 8704 * 32768, 16, 8704, 88, 1060] kind 0

/-- The tower or the hub that owns a unit. -/
def mntOwner (kind u : Nat) : Nat ⊕ Nat :=
  if kind = 1 || kind = 4 then .inl (u / 32768 / 544)
  else if kind = 2 then .inr (u / 4 % 4)
  else if kind = 3 then .inl (u / 6144 / 272)
  else if kind = 5 then .inr (u / 4)
  else if kind = 6 then .inl (u / 544)
  else if kind = 7 then (if recvDie u < 16 then .inl (recvDie u) else .inr (recvDie u - 16))
  else match chTower u with
    | some n => .inl n
    | none => .inr (chOwnHub u)

/-- The hub whose scheduler owns a unit: the home hub, or H0 for an absent one (R394). -/
def mntHub (s : State) (kind u : Nat) : Nat :=
  let h := match mntOwner kind u with
    | .inl n => homeHub n
    | .inr h => h
  if hubAbsent s h then 0 else h

/-- How many units of a kind belong to one core; 0 for a kind whose units lie in no core. -/
def perCore (kind : Nat) : Nat := if kind = 1 || kind = 4 then 65536 else if kind = 3 then 6144 else if kind = 6 then 2 else 0

/-- How many units MNT_START can name. -/
def cmdUnits (kind : Nat) : Nat := if perCore kind = 0 then mntUnits kind else 4096 * perCore kind

/-- The physical core of a logical core number. -/
def cmdCore (s : State) (i : Nat) : Option Nat := corePhys s (i / 256) (i / 16 % 16) (i % 16)

/-- The physical unit that MNT_START names by a number (R3). -/
def cmdUnit (s : State) (kind u : Nat) : Option Nat :=
  let n := perCore kind
  if n = 0 then some u else (cmdCore s (u / n)).map (fun c => c * n + u % n)

/-- The hub whose scheduler owns a unit that MNT_START names; none where no core has the number. -/
def cmdHub (s : State) (kind u : Nat) : Option Nat := (cmdUnit s kind u).map (mntHub s kind)

/-- How many of a kind's units belong to one hub: its share of the device's, for PCT. -/
def mntShare (kind : Nat) : Nat := if kind = 9 then 1 else mntUnits kind / 4

/-- How many row groups and tier-2 units of a span belong to a hub: a column's to its tower's home hub, tier-2 units by their
offset. -/
def spanUnits (s : State) (h : Nat) (z : ZeroSpan) : Nat :=
  let below (x : Nat) : Nat := 4 * (x / 16) + min 4 (x % 16 - 4 * h)
  if z.tier2 then below z.hi - below z.lo else if mntHub s 6 z.col = h then z.hi - z.lo else 0

/-- What the scheduler holds of a kind on a hub. The device-started kinds run while they have something to do: H0 runs 0x0B while a
partition's re-key sweep runs (R255), and a hub 0x0C and 0x0D while units or freed frames of its domain wait to be zeroed. -/
def mntKind (s : State) (h kind : Nat) : MntKind :=
  let u := stGet (fun _ => MntKind.reset) s.mnt.kinds (64 * h + kind)
  if kind = 11 && h = 0 then { u with running := s.parts.any (fun e => e.2.glz.sweep) }
  else if kind = 12 then { u with running := s.parts.any (fun e => e.2.zeroLeft.any (fun z => spanUnits s h z != 0)) }
  else if kind = 13 then { u with running := s.zeroQ.any (fun e => mntHub s 6 (34 * e.1) == h && !e.2.isEmpty) }
  else u
def mntSet (h kind : Nat) (v : MntKind) (s : State) : State :=
  { s with mnt := { s.mnt with kinds := stSet (fun _ => MntKind.reset) s.mnt.kinds (64 * h + kind) v } }

/-- A wait or deferral counts (R394, R396). -/
def mntDefer (h kind : Nat) (s : State) : State :=
  mntSet h kind { mntKind s h kind with defer := min 65535 ((mntKind s h kind).defer + 1) } s

/-- A step of a periodic pass: the pass ends with its last unit. -/
def mntPass (h kind : Nat) (s : State) : State :=
  let u := mntKind s h kind
  if mntShare kind ≤ u.done + 1 then mntSet h kind { u with running := false, done := 0 } s
  else mntSet h kind { u with running := true, done := u.done + 1 } s

/-- Whether a job's next unit is the physical unit `u`. -/
def jobDue (s : State) (kind u : Nat) (j : MntJob) : Bool :=
  j.kind == kind && decide (j.state ≤ 1) && cmdUnit s kind (j.start + j.pos) == some u

/-- Accounts for a step on unit `u`: in every host-started activity that it serves, or else in the periodic pass. -/
def mntStep (kind u faults : Nat) (s : State) : State :=
  if s.mnt.jobs.any (jobDue s kind u) then
    { s with mnt := { s.mnt with jobs := s.mnt.jobs.map (fun j => if jobDue s kind u j then
        { j with pos := j.pos + 1, faults := j.faults + faults, state := if j.extent ≤ j.pos + 1 then 2 else 1 } else j) } }
  else mntPass (mntHub s kind u) kind s

/-! ## MNT_START, MNT_STOP, MNT_QUERY (R394, R397, R320) -/

/-- The dies whose power step a recalibration claims: the hub of a port, the dies at the ends of a bridge. -/
def powerDies (k u : Nat) : List Nat :=
  if k = 5 then [16 + u / 4] else if k = 7 then edgeTowers (u / 2) ++ (edgeHubs (u / 2)).map (fun h => 16 + h) else []

/-- The power steps of a range of units. -/
def rangeDies (k lo hi : Nat) : List Nat :=
  if k = 5 || k = 7 then (List.range (hi + 1 - lo)).flatMap (fun i => powerDies k (lo + i)) else []

/-- Whether two activities claim one resource (R320): units of one kind that meet, or a power step of one die. Scrub and transparent
test of one region wait for each other's step instead (Table RAS.2). -/
def jobsMeet (k1 lo1 hi1 k2 lo2 hi2 : Nat) : Bool :=
  (k1 == k2 && decide (lo1 ≤ hi2) && decide (lo2 ≤ hi1)) ||
    (rangeDies k1 lo1 hi1).any (fun d => (rangeDies k2 lo2 hi2).contains d)

/-- Whether a unit's own retraining already runs, or its planned retraining may not start (R334, R368). -/
def bridgeMay (s : State) (d : Nat) : Bool :=
  (edgeTowers (d / 2)).all (fun n => (towerEdges n).all (fun e => e == d / 2 || (edgeUp s e && !edgeTraining s e && !edgeDue s e)))

def unitBusy (s : State) (kind u : Nat) : Bool :=
  if kind = 5 then portState s u == 4 || carriesTree s u
  else if kind = 6 then (colget s u).retraining
  else if kind = 7 then nsHas s.boot.brgTrain u || nsHas s.boot.brgDue u || !bridgeMay s u
  else false

def mntStart (k : Pkt) (s : State) : State :=
  let kind := payAt k.bytes 0 2
  let lo := payAt k.bytes 8 8
  let n := payAt k.bytes 16 8
  if kind = 0 || 13 < kind then complete k.id 0x0102 0 0 s
  else if 8 < kind || n = 0 || cmdUnits kind < lo + n then complete k.id 0x0107 0 0 s
  else
    let per := perCore kind
    let h := (cmdHub s kind lo).getD 0
    let one := if kind = 2 then decide (lo % 4 + n ≤ 4)
      else if 0 < per then
        (List.range ((lo + n - 1) / per + 1 - lo / per)).all (fun i => cmdHub s kind ((lo / per + i) * per) == some h)
      else (List.range n).all (fun i => cmdHub s kind (lo + i) == some h)
    if !one then complete k.id 0x0107 0 0 s
    else
      match s.mnt.jobs.find? (fun j => decide (j.state ≤ 1) && jobsMeet kind lo (lo + n - 1) j.kind (j.start + j.pos) (j.start + j.extent - 1)) with
      | some j => complete k.id 0x0307 0 j.handle s
      | none =>
        if 5 ≤ kind && kind ≤ 7 && (List.range n).any (fun i => (cmdUnit s kind (lo + i)).any (unitBusy s kind)) then complete k.id 0x0307 0 0 s
        else
          let ser := s.mnt.serial % (2 ^ 24 - 1) + 1
          let hd := h * 2 ^ 30 + kind * 2 ^ 24 + ser
          let j : MntJob := { handle := hd, hub := h, kind := kind, start := lo, extent := n, pos := 0, faults := 0, state := 1 }
          complete k.id 0 hd 0 { s with mnt := { s.mnt with jobs := s.mnt.jobs ++ [j], serial := s.mnt.serial + 1 } }

def execMntStart (w : Fin 128) (s : State) : Res := runCmd w 0x0501 (fun b => payNZ b 2 6) mntStart s

/-- A handle of a periodic or device-started activity: serial 0. -/
def deviceHandle (hd : Nat) : Bool := decide (hd % 2 ^ 24 = 0) && decide (1 ≤ hd / 2 ^ 24 % 64) && decide (hd / 2 ^ 24 % 64 ≤ 13)

def mntStop (k : Pkt) (s : State) : State :=
  let hd := payAt k.bytes 0 4
  if deviceHandle hd then complete k.id 0x0403 0 0 s
  else if !s.mnt.jobs.any (fun j => j.handle == hd) then complete k.id 0x0107 0 0 s
  else
    complete k.id 0 0 0 { s with mnt := { s.mnt with jobs := s.mnt.jobs.map (fun j =>
      if j.handle = hd && j.state ≤ 1 then { j with state := 3 } else j) } }

def execMntStop (w : Fin 128) (s : State) : Res := runCmd w 0x0502 (fun b => payNZ b 4 4) mntStop s

/-- The percentage done of a hub's pass: of the sweeping partitions' host pages, those under the current key (R255); of what the
partitions that are zeroed have on the hub, what is no longer left. -/
def mntPct (s : State) (h kind : Nat) : Nat :=
  let ps := (s.parts.filter (fun e => e.2.glz.sweep)).map Prod.fst
  let n (o : Nat) : Nat := sumNat (ps.map (fun p => wFld (rget s (glzKey p o)) 29 0))
  let units (l : List ZeroSpan) : Nat := sumNat (l.map (spanUnits s h))
  let zs := s.parts.filter (fun e => !e.2.zeroLeft.isEmpty)
  let all := sumNat (zs.map (fun e => units (zeroSpans s e.1)))
  if kind = 11 then (if h = 0 then n 4 * 100 / max 1 (n 4 + n 8) else 0)
  else if kind = 12 then (all - sumNat (zs.map (fun e => units e.2.zeroLeft))) * 100 / max 1 all
  else (mntKind s h kind).done * 100 / max 1 (mntShare kind)

def mntQuery (k : Pkt) (s : State) : State :=
  let hd := payAt k.bytes 0 4
  if deviceHandle hd then
    let h := hd / 2 ^ 30
    let kind := hd / 2 ^ 24 % 64
    complete k.id 0 (b2n (mntKind s h kind).running + mntPct s h kind * 256) 0 s
  else
    match s.mnt.jobs.find? (fun j => j.handle == hd) with
    | none => complete k.id 0x0107 0 0 s
    | some j => complete k.id 0 (j.state + j.pos * 100 / max 1 j.extent * 256 + j.faults % 2 ^ 32 * 2 ^ 32) 0 s

def execMntQuery (w : Fin 128) (s : State) : Res := runCmd w 0x0503 (fun b => payNZ b 4 4) mntQuery s

/-! ## LOG_ACK (R407) -/

/-- Whether a record's SEQ precedes or equals `seq`, within the 2³¹ numbers before the next. -/
def ackCovers (next seq x : Nat) : Bool :=
  let a := (next + 2 ^ 32 - seq) % 2 ^ 32
  let b := (next + 2 ^ 32 - x) % 2 ^ 32
  decide (1 ≤ a) && decide (a ≤ b) && decide (b ≤ 2 ^ 31)

def logAck (k : Pkt) (s : State) : State :=
  let h := payAt k.bytes 0 1 % 4
  if hubAbsent s h then complete k.id 0x0502 0 0 s
  else
    let u := hget s h
    complete k.id 0 0 0 (hset h { u with log := u.log.map (fun e =>
      if ackCovers u.nextSeq (payAt k.bytes 4 4) e.2.seq && e.2.st != 1 then (e.1, { e.2 with st := 3 }) else e) } s)

def execLogAck (w : Fin 128) (s : State) : Res :=
  runCmd w 0x0506 (fun b => payAt b 0 1 / 4 != 0 || payNZ b 1 3) logAck s

/-! ## Row groups (R398 to R401) -/

/-- The four rows of a row group: 4 consecutive bank rows of one bank. Group 4 096 · layer + i holds bank rows 4i to 4i + 3. -/
def groupRows (g : Nat) : List Nat :=
  let layer := g / 4096
  (List.range 4).map (fun i =>
    let br := 4 * (g % 4096) + i
    16 * (br / 2) + 8 * (br % 2) + (layer + 16 - 4 * (br % 2) - 4 * (br / 2 % 2)) % 8)

/-- Reads a block through the decoder and rewrites it when it was corrected; an uncorrectable one is handled by the decoder. -/
def scrubBlock (c off : Nat) (s : State) : State :=
  let d := memRead s.t1 (t1Key c off) 64
  let chk := memRead s.t1Chk (t1ChkKey c off) 3
  if (wcBlock s (colOf c off) (rowOf off) (off / 64 % 16)).isSome then s
  else
    let (w, s) := crossBus (colOf c off) (off / 64 % 16) d chk s
    let (r, s) := t1Decode c off w.1 w.2 true s
    match r, rsDecode w.1 w.2 with
    | some x, .corrected _ _ => t1Cross c off x s
    | _, _ => s

/-- Scrubs the rows of a group that no zeroing frame holds. -/
def scrubGroup (col g : Nat) (s : State) : State :=
  let q := stGet (fun _ => []) s.zeroQ (coreClu (col / 2))
  ((groupRows g).filter (fun r => !q.contains (ftKey col (r / 16)))).foldl (fun s r =>
    rowMeet col 1 false (fwTx 7 0 none) (iter 16 (fun b s => scrubBlock (col / 2) (rowOff col r + 64 * b) s) s)) s

/-- Whether maintenance of a column can step now: its tower is there and no retraining runs. A retired column is skipped. -/
def colReady (s : State) (col : Nat) : Bool := dieOn s (col / 544) && !(colget s col).retraining

/-- Whether a zeroing partition has a row group still to zero: scrub skips it (Table RAS.2). -/
def spanHolds (s : State) (col g : Nat) : Bool :=
  s.parts.any (fun e => e.2.zeroLeft.any (fun z => !z.tier2 && z.col == col && z.lo ≤ g && g < z.hi))

/-- A tier-1 scrub step (R401). -/
def execPatrolScrubT1 (col : Fin 8704) (g : Fin 32768) (s : State) : Res :=
  let u := col.val * 32768 + g
  if !dieOn s (col.val / 544) then .next s
  else if (colget s col).retraining then .next (mntDefer (mntHub s 1 u) 1 s)
  else if (colget s col).state = 2 || spanHolds s col g then .next (mntStep 1 u 0 s)
  else if !mntSlot s col 4 then .next (mntAsk col 4 s)
  else .next (mntStep 1 u 0 (scrubGroup col g (mntTook col s)))

/-- A tier-2 scrub step: every sector of a 4 KiB unit is read and rewritten as it read. Poison stays, logged once per pass
(R402); a sector read with a link error that persists is rewritten as the poison it delivered. -/
def scrubUnit (u : Nat) (s : State) : State :=
  let h := t2Hub (4096 * u)
  let (ue, s) := t2Link (4096 * u) 4096 none s
  let s := { s with t2poison := ue.foldl (fun l o => nsAdd l (o / 64)) s.t2poison }
  let bad := (List.range 64).filter (fun i => nsHas s.t2poison (64 * u + i) && !ue.contains (64 * (64 * u + i)))
  let s := bad.foldl (fun s i =>
    logErr { hub := h, code := 0x0121, part := none, source := srcIndex 9 (t2Package (4096 * u)), engine := 13, logical := 0
             addr := 2 ^ 44 + 4096 * u + 64 * i, detail := 0 } s) s
  tallyHub h 0x0501 64 (fwTx 13 0 (some (2 ^ 44 + 4096 * u))) (tallyHub h 0x0500 64 (fwTx 13 0 (some (2 ^ 44 + 4096 * u))) s)

/-- Whether a hub's logic is above 100 °C: its scrub, page mover and re-key sweep pause (Table THM.4). -/
def hubPaused (s : State) (h : Nat) : Bool := decide (400 < stGet (fun _ => 0) s.therm.hubHot h)

/-- Whether maintenance may have `n` accesses of a 4 KiB unit's pair now: no request waits there, or seven others have gone before
each (R281). -/
def t2Slot (s : State) (u n : Nat) : Bool :=
  let p := pairGet s (t2Key (4096 * u))
  p.queue.isEmpty || decide (7 * n ≤ p.mntGap)

/-- Maintenance waits for `n` accesses of a unit's pair, or has them. -/
def t2Ask (u n : Nat) (s : State) : State :=
  pairSet (t2Key (4096 * u)) { pairGet s (t2Key (4096 * u)) with mntWait := n } s
def t2Took (u : Nat) (s : State) : State :=
  pairSet (t2Key (4096 * u)) { pairGet s (t2Key (4096 * u)) with mntGap := 0, mntWait := 0 } s

/-- A tier-2 scrub step: 64 sectors are read and rewritten in the slots that the pair gives maintenance. -/
def execPatrolScrubT2 (u : Fin 402653184) (s : State) : Res :=
  let h := t2Hub (4096 * u)
  if quarterAbsent s h then .next s
  else if hubPaused s h then .next (mntDefer h 2 s)
  else if !t2Slot s u 128 then .next (t2Ask u 128 s)
  else .next (mntStep 2 u 0 (scrubUnit u (t2Took u s)))

/-! ## Transparent tests (R398 to R400) -/

/-- The scratchpad of a block below IMEM, and its block in it. -/
def spTestMem (b : Nat) : Nat := (memOfBlk b).1

/-- A written block is restored with fresh check bits; one that delivers poison stays as it is. -/
def spRestore (c b : Nat) (s : State) : State :=
  if !spWritten s c b then s
  else
    let (d, s) := spRead c b s
    match d with
    | some d => spStore c b d (sramCheck d) s
    | none => s

/-- What a scratchpad test with `bad` failing bits leads to. -/
def spTestErr (c bad : Nat) (s : State) : State :=
  if bad = 0 then s
  else if bad = 1 then coreErr c 0x0501 7 0 (corePart s c) s
  else coreErr c 0x0502 7 0 (corePart s c) { s with boot := { s.boot with defCore := nsAdd s.boot.defCore c } }

/-- A scratchpad block is tested through the slot coded 7, in unified mode through the test engine's own. Without one, or in unified
mode without a region that permits the test engine's writes, the test is deferred (R60, R66, R67, R396; log entry 186). -/
def execSpTransparentTest (c : Fin 4352) (b : Fin 6144) (bad : Nat) (s : State) : Res :=
  let m := spTestMem b
  let u := c.val * 6144 + b
  if !dieOn s (coreTower c) then .next s
  else if !hasSlot s c m 7 || !groupOn s c m (b - memFirst m) || ((cget s c).unified && !uniAllows s c 1 b true) then .next (mntDefer (mntHub s 3 u) 3 s)
  else .next (mntStep 3 u (if bad = 0 then 0 else 1) (spTestErr c bad (spRestore c b s)))

/-- Whether an entry names a page whose frames hold frame `f` of a column. -/
def namesFrame (s : State) (col f e : Nat) : Bool :=
  pteValid e && pteTier e == 0 && (pageCol s (ptePage e)).any (fun x => x.1 == col && (x.2 == f || (ptePair e && x.2 + 1 == f)))

/-- The page that holds a failing frame migrates by internal edit. -/
def migrateFrame (p col f : Nat) : Eng Unit := do
  let x ← editCtx p
  if x.d.queued then engFail 0x0304
  let s ← get
  let pl ← placesWith p x (namesFrame s col f)
  let tagged ← engMap (fun a => do
    let e ← getBld p a.1 x a.2.1 a.2.2
    pure (ptePage e, a)) pl
  engEach (fun g => migratePage p x g false ((tagged.filter (fun t => t.1 == g)).map (fun t => t.2)))
    ((tagged.map (fun t => t.1)).eraseDups)
  if pl.isEmpty then pure () else autoCommit p

/-- A withheld frame that is free leaves its shard's pool (R400). -/
def withholdFrame (p col f : Nat) : Eng Unit := do
  let d ← theDir p
  let s ← get
  let k := coreClu (col / 2)
  match coLog s (col / 2) with
  | none => pure ()
  | some lc => do
    let i := frameIdx d (2 * lc + col % 2) f
    let free ← bmGet k (offFree d) i
    if free then do
      bmPut k (offFree d) i false
      modify (cluUpd k 0x110 (fun w => w - 1))
    else pure ()

/-- A failing row waits for repair at the next start-up; a KV pool frame that holds it is withheld and its page migrates. -/
def rowFails (col row : Nat) (s : State) : State :=
  let f := row / 16
  let p := cluPart s (coreClu (col / 2))
  let kv := p.any (fun p => match (pget s p).dir with
    | some d => decide (d.kvFirst ≤ f)
    | none => false)
  let s := { s with boot := { s.boot with defRow := if s.boot.defRow.contains (col, row) then s.boot.defRow else s.boot.defRow ++ [(col, row)] } }
  let s := colErr col 0x0503 row s
  if !kv then s
  else
    match p with
    | some p => engRun (migrateFrame p col f) <| engRun (withholdFrame p col f) { s with noReuse := nsAdd s.noReuse (ftKey col f) }
    | none => s

/-- Whether a zeroing frame or span holds rows of a group (Table RAS.2): the test skips the region. -/
def zeroMeets (s : State) (col g : Nat) : Bool :=
  (groupRows g).any (fun r => (stGet (fun _ => []) s.zeroQ (coreClu (col / 2))).contains (ftKey col (r / 16))) || spanHolds s col g

/-- A row group is tested; `bad` names the rows of the group that fail. -/
def execT1TransparentTest (col : Fin 8704) (g : Fin 32768) (bad : BitVec 4) (s : State) : Res :=
  let u := col.val * 32768 + g
  if !dieOn s (col.val / 544) then .next s
  else if (colget s col).retraining then .next (mntDefer (mntHub s 4 u) 4 s)
  else if (colget s col).state = 2 || zeroMeets s col g then .next (mntStep 4 u 0 s)
  else if !mntSlot s col 4 then .next (mntAsk col 4 s)
  else
    let s := scrubGroup col g (mntTook col s)
    let s := ((groupRows g).zipIdx.filter (fun e => bad.getLsbD e.2)).foldl (fun s e => rowFails col e.1 s) s
    .next (mntStep 4 u (if bad = 0 then 0 else 1) s)

/-! ## Recalibrations (R393) -/

def execOpticalRecalibration (p : Fin 16) (s : State) : Res :=
  if hubAbsent s (p / 4) then .next s
  else if portState s p = 4 then .next (mntStep 5 p 0 s)
  else if portState s p ≠ 3 then .next s
  else if carriesTree s p then .next (mntDefer (p / 4) 5 s)
  else .next (mntStep 5 p 0 (portRetrain p s))

/-- A suspect report joins the recalibration, whose procedure is that of R367. -/
def execBondRecalibration (col : Fin 8704) (lanes : List (Nat × Nat)) (s : State) : Res :=
  if !dieOn s (col.val / 544) || (colget s col).state = 2 then .next s
  else if (colget s col).retraining then .next (mntDefer (mntHub s 6 col) 6 s)
  else .next (mntStep 6 col 0 (columnRetrain col (lanes.filter (fun e => nsHas (colget s col).suspect e.1)) [] s))

def execBridgeRecalibration (d : Fin 88) (s : State) : Res :=
  if !edgeUp s (d.val / 2) || nsHas s.boot.brgTrain d || nsHas s.boot.brgDue d then .next s
  else if !bridgeMay s d then .next (mntDefer (mntHub s 7 d) 7 s)
  else .next (mntStep 7 d 0 (askTrain d s))

/-! ## Sensor calibration (R376, R385) -/

/-- Clears the marks of a channel found plausible for one hour; a layer's marks clear together once none of its diodes is broken
and its canaries passed throughout. -/
def calibrate (ch : Nat) (canary : Bool) (s : State) : State :=
  let s := { s with therm := { s.therm with brk := nsDel s.therm.brk ch, cut := nsDel s.therm.cut ch } }
  if ch < 256 then publishTemp (ch / 16) (twrPublish (ch / 16) 0 s)
  else if ch < 768 then
    let n := (ch - 256) / 32
    let m := (ch - 256) / 4 % 8
    if canary && !(List.range 4).any (fun d => chBroken s (chLay n m d)) then
      layThSet n m { layTh s n m with hot := false, suspect := false } s
    else s
  else s

def execSensorCalibration (ch : Fin 1060) (pass canary : Bool) (s : State) : Res :=
  if !chHere s ch then .next s
  else .next (mntStep 8 ch (if pass then 0 else 1) (if pass then calibrate ch canary s else s))

/-! ## Wear tracking (R391, R393) -/

/-- The spares in use on a tower: bond and bridge lane groups. -/
def sparesUsed (s : State) (n : Nat) : Nat :=
  sumNat ((s.boot.bond.filter (fun e => e.1 / 134 / 544 == n)).map (fun e => e.2.sp.length)) +
    sumNat ((s.boot.brg.filter (fun e => (edgeTowers (e.1 / 24)).contains n)).map (fun e => e.2.sp.length))

/-- The cone counts and the summary of spare use of a hub's home towers are written to the non-volatile store; H0 does so for the
towers of absent hubs too (R22). -/
def wearWrite (h : Nat) (s : State) : State :=
  ((List.range 16).filter (fun n => homeHub n == h || (h == 0 && hubAbsent s (homeHub n)))).foldl (fun s n =>
    let u := twTh s n
    let nv := if u.cone = [0, 0, 0] && u.life = 0 then stDel s.therm.coneNv n
      else stSet (fun _ => []) s.therm.coneNv n (u.cone ++ [u.life])
    { s with therm := { s.therm with coneNv := nv, spareNv := stSet (fun _ => 0) s.therm.spareNv n (sparesUsed s n) } }) s

def execWearTracking (h : Fin 4) (s : State) : Res :=
  .next (if hubAbsent s h then s else mntPass h 9 (wearWrite h s))

/-! ## Zeroing (R403) -/

/-- A freed frame that has been zeroed returns to the free-frame bitmap, unless it is withheld (R194, R400). -/
def frameBack (k col f : Nat) (s : State) : State :=
  match cluPart s k, coLog s (col / 2) with
  | some p, some lc =>
    match (pget s p).dir with
    | some d =>
      if f < d.kvFirst || nsHas s.noReuse (ftKey col f) || (colget s col).state = 2 then s
      else
        engRun (do
          bmPut k (offFree d) (frameIdx d (2 * lc + col % 2) f) true
          modify (cluUpd k 0x110 (fun w => w + 1))) s
    | none => s
  | _, _ => s

/-- The oldest frame of a cluster's zeroing queue is zeroed, its tag cleared, and returned. -/
def execFrameZeroing (k : Fin 256) (s : State) : Res :=
  match stGet (fun _ => []) s.zeroQ k with
  | [] => .next s
  | key :: rest =>
    let col := key / 8192
    if !colReady s col then .next s
    else if !mntSlot s col 16 then .next (mntAsk col 16 s)
    else
      let s := mntTook col s
      let s := { s with zeroQ := stSet (fun _ => []) s.zeroQ k rest }
      .next (mntPass (if hubAbsent s (homeHub (cluTower k)) then 0 else homeHub (cluTower k)) 0xD
        (frameBack k col (key % 8192) (zeroFrame col (key % 8192) s)))

/-- Zeroes one row of a column with valid check symbols, and the tag of its frame. -/
def zeroBankRow (col row : Nat) (s : State) : State :=
  let c := col / 2
  let off := rowOff col row
  unpin col row (ftSet col (row / 16) 0 <| wcForget col (fun r => r == row)
    { s with t1 := memZero s.t1 (t1Key c off) 1024, t1Chk := memZero s.t1Chk (t1ChkKey c off) 48 })

/-- Zeroes a 4 KiB unit of tier 2. -/
def zeroUnit (u : Nat) (s : State) : State :=
  { s with t2 := memZero s.t2 (4096 * u) 4096, t2poison := nsDrop s.t2poison (64 * u) 64 }

/-- Whether a span's next unit can be zeroed now. -/
def spanReady (s : State) (z : ZeroSpan) : Bool :=
  if z.tier2 then !quarterAbsent s (t2Hub (4096 * z.lo)) && t2Slot s z.lo 64 else colReady s z.col && mntSlot s z.col 4

/-- One step of a span. -/
def spanStep (z : ZeroSpan) (s : State) : State :=
  if z.tier2 then zeroUnit z.lo (t2Took z.lo s) else (groupRows z.lo).foldl (fun s r => zeroBankRow z.col r s) (mntTook z.col s)

/-- The first span that waits for the slots of its column or pair asks for them. -/
def spanAsk (l : List ZeroSpan) (s : State) : State :=
  match l.find? (fun z => if z.tier2 then !quarterAbsent s (t2Hub (4096 * z.lo)) else colReady s z.col) with
  | some z => if z.tier2 then t2Ask z.lo 64 s else mntAsk z.col 4 s
  | none => s

/-- A zeroing step of a partition: the first span that can go on zeroes its next row group or unit. -/
def execPartitionZeroing (p : Fin 64) (s : State) : Res :=
  let l := (pget s p).zeroLeft
  match findIdx? (spanReady s) l with
  | none => .next (zeroCheck p (spanAsk l s))
  | some i =>
    match l[i]? with
    | none => .next s
    | some z =>
      let s := if z.lo < z.hi then spanStep z s else s
      let l' := if z.lo + 1 < z.hi then l.set i { z with lo := z.lo + 1 } else l.eraseIdx i
      .next (zeroCheck p (pupd p (fun q => { q with zeroLeft := l' }) s))

/-! ## Passes, periods and watchdogs -/

/-- A periodic pass misses its period (R396). -/
def execMaintPassLate (h : Fin 4) (kind : Fin 64) (s : State) : Res :=
  if hubAbsent s h || mntDefault kind = 0 then .next s
  else .next (mntSet h kind { mntKind s h kind with late := min 255 ((mntKind s h kind).late + 1), running := true } s)

/-- A write of MNT_PERIOD: 0, or more than the default, loads the default; kinds without a period ignore it (Table RAS.11). -/
def writePeriod (h : Nat) (w : Word) (s : State) : State :=
  let kind := wFld (rget s (hubBase h + 0x60000)) 5 0
  let v := wFld w 15 0
  if mntDefault kind = 0 then s
  else mntSet h kind { mntKind s h kind with period := if v = 0 || mntDefault kind ≤ v then 0 else v } s

def execMntPeriodWrite (h : Fin 4) (w : Word) (s : State) : Res := .next (writePeriod h w s)

/-- A tower manager's watchdog expires: its home hub resets the die as lost (R410). -/
def execTowerManagerWatchdog (n : Fin 16) (s : State) : Res :=
  .next (if dieOn s n && (twLog s n).isSome then loseTower n s else s)

/-- A management processor's watchdog expires: H1 to H3 are lost (R413), H0 makes the device fatal (R408). -/
def execMpWatchdog (h : Fin 4) (s : State) : Res :=
  .next (if hubAbsent s h then s else if h = 0 then enterFatal s else loseHub h false s)

/-! ## Reload of weights (R372) -/

/-- Reloads the part of a poisoned block's row that lies in one range of the weight map. A source that delivers poison leaves the
block poisoned and the model is discarded. -/
def reloadRange (p c off : Nat) (wt : Nat × Nat × Nat) (s : State) : State :=
  match dpaTgt s wt.2.1, dpaTgt s wt.1 with
  | .slice c' d, .tier2 t =>
    if c' ≠ c || off + 64 ≤ d || d + wt.2.2 ≤ off then s
    else
      let row := off / 1024 * 1024
      let lo := max row d
      let hi := min (row + 1024) (d + wt.2.2)
      let src := t + (lo - d)
      if quarterAbsent s (t2Hub src) then discardModel p s
      else
        match t2Load src (hi - lo) (fwTx 18 0 none) s with
        | (some d, s) => t1Write c lo d s
        | (none, s) => discardModel p s
  | _, _ => s

/-- The tower manager reloads the oldest block that waits. -/
def reloadStep (s : State) : State :=
  match s.reload with
  | [] => s
  | (c, off) :: rest =>
    let s := { s with reload := rest }
    match corePart s c with
    | none => s
    | some p =>
      match (pget s p).model with
      | none => s
      | some m => m.weights.foldl (fun s wt => reloadRange p c off wt s) s

end Sys2Proof.Machine
end

