-- ==== Sys2Proof/Machine/Sec.lean ====
section
/-! DEFINITION. The root of trust: firmware staging, the life cycle, the attestation report, SPDM, IDE_KM and TDISP, IDE
integrity, and the tamper response (R422 to R437). -/

namespace Sys2Proof.Machine

/-! ## The saggar region (R259, R433) -/

/-- Whether an entry names a host page. -/
def inHost (e : Nat) : Bool := pteValid e && pteTier e == 2

/-- R259: every host entry of a partition becomes tier 3 and its epoch counts become zero; what the switch frees is counted no more. -/
def hostPagesLost (p : Nat) (s : State) : State :=
  let s := engRun (loseWhere p inHost) s
  let gone (g : GenSt) : GenSt := { g with drops := g.drops.map (fun x => if fld x.page 31 30 = 2 then { x with epoch := 4 } else x) }
  let s := pupd p (fun q => { q with dir := q.dir.map (fun d => { d with g1 := gone d.g1, g2 := gone d.g2 }) }) s
  rset (glzKey p 8) 0 (rset (glzKey p 4) 0 s)

/-- What the saggar region holds of a partition: its glaze keys, seal counters and IDE keys. -/
def forgetKeys (q : PartSt) : PartSt :=
  { q with ide := false, ideSet := 0, glz := { q.glz with key0 := none, key1 := none, ctr0 := 0, ctr1 := 0 } }

/-- Wipes the saggar region: identity keys, glaze keys, sessions, IDE keys and the pending debug change; every host page is
lost. -/
def wipeSaggar (s : State) : State :=
  let ps := s.parts.map Prod.fst
  let s := ps.foldl (fun s p => pupd p forgetKeys (hostPagesLost p s)) s
  rupd secBase (fun w => wPut w 16 16 0) { s with sec := { s.sec with
    ids := false, sessions := [], ideLink := false, ideLinkSet := 0, idePf := false, idePfSet := 0, pendDebug := none } }

/-! ## FW_STAGE (R435) -/

/-- Why an image is not staged, or 0. `img` is the image as the host holds it. -/
def imageStatus (s : State) (len : Nat) (img : List Byte) : Nat :=
  let key := (img.drop 80).take 1793
  let body := img.drop 4096
  if len ≠ 4096 + leAt img 8 4 || img.length ≠ len then 0x0107
  else if !s.sec.vendorKeys.contains (Config.digest 64 key) ||
      !Config.sigOk (Config.digest 64 key) (Config.digest 64 (img.take 1920)) ((img.drop 1920).take 1280) ||
      Config.digest 64 body ≠ (img.drop 16).take 64 || decide (leAt img 12 1 % 64 < s.sec.svnFuse) then 0x0407
  else 0

/-- What a hub's image store holds. -/
def imgOf (st : Store FwImg) (h : Nat) : Option FwImg := (st.find? (fun e => e.1 == h)).map Prod.snd

/-- Stages an image for a hub: the running image becomes the previous one. -/
def stageImage (h : Nat) (x : FwImg) (s : State) : State :=
  let prev := match imgOf s.sec.run h with
    | some r => stIns h r (stDel s.sec.prev h)
    | none => s.sec.prev
  { s with sec := { s.sec with prev := prev, staged := stIns h x (stDel s.sec.staged h) } }

/-- FW_STAGE. `img` is what the host holds at the address. -/
def execFwStage (w : Fin 128) (img : List Byte) (s : State) : Res :=
  runCmd w 0x0702 (fun b => payAt b 12 1 / 16 != 0 || payNZ b 13 11) (fun k s =>
    let st := imageStatus s (payAt k.bytes 8 4) img
    if st ≠ 0 then complete k.id st 0 0 s
    else
      let x : FwImg := { svn := leAt img 12 1 % 64, digest := (img.drop 16).take 64 }
      complete k.id 0 0 0 ((List.range 4).foldl (fun s h =>
        if bitAt (payAt k.bytes 12 1) h then stageImage h x s else s) s)) s

/-! ## LIFECYCLE (R431, R432) -/

/-- Whether Table SEC.4 lists a change from life cycle `lc`, and whether it needs an authorisation. -/
def lcChange (lc target : Nat) : Option Bool :=
  if lc = 1 && target = 2 then some true
  else if lc = 2 && target = 3 then some false
  else if lc = 3 && target = 4 then some true
  else if target = 5 then (if lc = 5 then none else some false)
  else if target = 0x80 then (if lc = 1 || lc = 2 || lc = 4 then some true else none)
  else if target = 0x81 then some false
  else none

/-- The current authorisation nonce. -/
def nonceBytes (s : State) : List Byte := (List.range 8).flatMap (fun i => leBytes 4 (rget s (secBase + 0x10 + 4 * i)).toNat)

/-- Whether an authorisation object checks (R432): layout, target, serial number, nonce and signature under a vendor key. -/
def authOk (s : State) (target : Nat) (o : List Byte) : Bool :=
  leAt o 0 4 == 0x41555448 && leAt o 4 1 == 1 && leAt o 5 1 == target && leAt o 6 2 == 0 &&
    leAt o 8 8 == Config.serial.toNat && (o.drop 16).take 32 == nonceBytes s && leAt o 48 16 == 0 &&
    s.sec.vendorKeys.any (fun k => Config.sigOk k (Config.digest 64 (o.take 64)) (o.drop 64))

/-- The status that refuses a LIFECYCLE, or 0. -/
def lifecycleStatus (s : State) (b obj : List Byte) : Nat :=
  let target := payAt b 0 1
  if s.parts.any (fun e => e.2.state != 0) then 0x0304
  else
    match lcChange s.sec.lcFuse target with
    | none => 0x0403
    | some false => 0
    | some true =>
      if payAt b 16 4 ≠ 1344 || obj.length ≠ 1344 then 0x0107 else if authOk s target obj then 0 else 0x0407

/-- What an authorised command does after its completion: the wipe, the fuse or the pending debug change, and a restart with
the full test. A life-cycle change clears the tamper record (R434). -/
def lifecycleApply (target : Nat) (s : State) : State :=
  let s := wipeSaggar s
  let s := if 0x80 ≤ target then { s with sec := { s.sec with pendDebug := some target } }
    else { s with sec := { s.sec with lcFuse := target, tamperNv := 0 } }
  startBegin true (deviceReset (rupd 0x48 (fun w => wPut w 30 30 1) s))

/-- LIFECYCLE. `obj` is the authorisation object as the host holds it. During a tamper response the command is abandoned. -/
def execLifecycle (w : Fin 128) (obj : List Byte) (s : State) : Res :=
  runCmd w 0x0703 (fun b => payNZ b 1 7 || payNZ b 20 4) (fun k s =>
    if s.sec.tampering then s
    else
      let target := payAt k.bytes 0 1
      let st := lifecycleStatus s k.bytes obj
      let s := freshNonce s
      if st ≠ 0 then complete k.id st 0 0 s
      else
        let lc := if 0x80 ≤ target then s.sec.lcFuse else target
        lifecycleApply target (complete k.id 0 lc 0 s)) s

/-! ## The attestation report (Table SEC.5) -/

/-- A layout entry in full. -/
def layoutEntry (s : State) (p : Nat) : List Byte :=
  let q := pget s p
  if q.state = 0 then zeros 8 ++ [0, BitVec.ofNat 8 (p + 1)] ++ zeros 6
  else leBytes 8 q.mask ++
    [BitVec.ofNat 8 (1 + q.state * 2 + b2n q.conf * 16 + b2n q.ucnt * 32 + q.tdi * 64), BitVec.ofNat 8 (p + 1)] ++ zeros 6

/-- An IDE entry. -/
def ideEntry (est : Bool) (set id : Nat) : List Byte := leBytes 4 (b2n est + set % 2 * 2 + id * 256)

/-- Bytes 0 to 1 791. `req` is the partition whose virtual function asks; none stands for the physical function or SPDM. -/
def reportBody (req : Option Nat) (nonce : List Byte) (s : State) : List Byte :=
  let mine (p : Nat) : Bool := match req with
    | some r => p == r
    | none => true
  let fw (h : Nat) : List Byte := if hubAbsent s h then zeros 64 else fitBytes 64 (((imgOf s.sec.run h).map (fun x => x.digest)).getD [])
  let lay (p : Nat) : List Byte :=
    if mine p then layoutEntry s p else zeros 8 ++ [BitVec.ofNat 8 (b2n ((pget s p).state != 0))] ++ zeros 7
  let ide (p : Nat) : List Byte := if mine p then ideEntry (pget s p).ide (pget s p).ideSet (p + 1) else zeros 4
  let head := leBytes 4 0x41545354 ++ leBytes 2 1 ++ leBytes 2 3072 ++ leBytes 2 (req.getD 0xFFFF) ++
    leBytes 1 (wFld (rget s secBase) 7 0) ++ leBytes 1 (b2n s.sec.debug + b2n (s.sec.tamperNv != 0) * 2) ++
    leBytes 4 (rget s 0).toNat ++ leBytes 8 Config.serial.toNat ++ leBytes 1 (wFld (rget s (secBase + 8)) 5 0) ++
    leBytes 1 (wFld (rget s (secBase + 8)) 13 8) ++ zeros 6
  head ++ fitBytes 64 (Config.digest 64 Config.identityKey) ++ fitBytes 64 s.sec.fuseDigest ++ (List.range 4).flatMap fw ++
    (List.range 64).flatMap lay ++ ideEntry s.sec.ideLink s.sec.ideLinkSet 0 ++ (List.range 64).flatMap ide ++
    ideEntry s.sec.idePf s.sec.idePfSet 65 ++ zeros 8 ++ fitBytes 32 nonce ++ leBytes 8 s.ns ++
    leBytes 4 (rget s 0x1C).toNat ++ zeros 36

/-- The alias keys of the running device: any change of fuses, firmware or life cycle changes them (R436). -/
def aliasOf (s : State) : List Byte :=
  Config.aliasKey (fitBytes 64 s.sec.fuseDigest ++
    (List.range 4).flatMap (fun h => fitBytes 64 (((imgOf s.sec.run h).map (fun x => x.digest)).getD [])) ++ leBytes 1 s.sec.lcFuse)

/-- The report: its body and the alias Falcon key's signature. -/
def report (req : Option Nat) (nonce : List Byte) (s : State) : List Byte :=
  let b := reportBody req nonce s
  b ++ fitBytes 1280 (Config.sign true (aliasOf s) (Config.digest 64 b))

/-- ATTEST_GET. `nonce` is what the host holds at the nonce address. -/
def execAttestGet (w : Fin 128) (nonce : List Byte) (s : State) : Res :=
  runCmd w 0x0704 (fun b => payNZ b 12 4) (fun k s =>
    if !s.sec.ids then complete k.id 0x0403 0 0 s
    else if payAt k.bytes 8 4 < 3072 then complete k.id 0x0107 0 0 s
    else
      let req := if w < 64 then none else some (w.val - 64)
      complete k.id 0 3072 0 (hostPut (winFn k.win) (payAt k.bytes 0 8) (report req nonce s) s)) s

/-! ## SPDM (R422)

A request is answered over the DOE mailbox while the host link is up. Response codes are those of the published standard.
PRESUMED (log entry 40). -/

/-- Whether the DOE mailbox answers. -/
def doeOn (s : State) : Bool := wBit (rget s 0x100) 10 && !(hget s 0).lost

/-- Answers an SPDM request: `ok` says that the protocol admits it; else the answer is ERROR. -/
def spdm (ok : State → Bool) (code : Nat) (data : List Byte) (f : State → State) (s : State) : State :=
  if !doeOn s then s else if ok s then hostSend (.doe code data) (f s) else hostSend (.doe 0x7F []) s

/-- What a response's payload is where the published standard and the keys give it. -/
def spdmData (code : Nat) (args : List Byte) : List Byte := Config.spdmBytes code args

def setSec (f : SecSt → SecSt) (s : State) : State := { s with sec := f s.sec }

/-- GET_VERSION restarts the negotiation. -/
def execGetVersion (s : State) : Res :=
  .next (spdm (fun _ => true) 0x04 (spdmData 0x04 [])
    (setSec (fun x => { x with version := true, caps := false, algs := false, falcon := false })) s)

def execGetCapabilities (s : State) : Res :=
  .next (spdm (fun s => s.sec.version) 0x61 (spdmData 0x61 []) (setSec (fun x => { x with caps := true })) s)

/-- NEGOTIATE_ALGORITHMS: `falcon` says that the requester takes the extended algorithm. -/
def execNegotiateAlgorithms (falcon : Bool) (s : State) : Res :=
  .next (spdm (fun s => s.sec.caps) 0x63 (spdmData 0x63 [BitVec.ofNat 8 (b2n falcon)])
    (setSec (fun x => { x with algs := true, falcon := falcon })) s)

/-- Whether the device can sign: algorithms are negotiated and the identity keys are derived. -/
def canSign (s : State) : Bool := s.sec.algs && s.sec.ids

/-- Whether a requester may use a certificate slot: slot 0 holds the Falcon-1024 chain, slot 1 the ECDSA P-384 chain. -/
def slotOk (s : State) (slot : Nat) : Bool := canSign s && (slot == 1 || s.sec.falcon)

/-- GET_DIGESTS: the digests of both certificate chains, which end in the alias keys. -/
def execGetDigests (s : State) : Res := .next (spdm canSign 0x01 (spdmData 0x01 (aliasOf s)) id s)

/-- GET_CERTIFICATE of a slot, a piece at an offset. -/
def execGetCertificate (slot : Fin 2) (off len : Fin 65536) (s : State) : Res :=
  .next (spdm canSign 0x02 (spdmData 0x02 (leBytes 1 slot ++ leBytes 2 off ++ leBytes 2 len ++ aliasOf s)) id s)

def execChallenge (slot : Fin 2) (nonce : List Byte) (s : State) : Res :=
  .next (spdm (fun s => slotOk s slot) 0x03 (leBytes 1 slot ++ fitBytes 32 nonce ++
    Config.sign (slot == 0) (aliasOf s) (leBytes 1 slot ++ fitBytes 32 nonce)) id s)

/-- A measurement (Table SEC.2): index 1 to 4 the firmware digest of H0 to H3, index 16 the report built with the request's
nonce. -/
def measurement (i : Nat) (nonce : List Byte) (s : State) : List Byte :=
  if i = 16 then report none nonce s
  else if hubAbsent s (i - 1) then zeros 64
  else fitBytes 64 (((imgOf s.sec.run (i - 1)).map (fun x => x.digest)).getD [])

/-- The measurements of an index: 0xFF asks for all, 0 for their number. -/
def measurements (i : Nat) (nonce : List Byte) (s : State) : Option (List Byte) :=
  let one (j : Nat) : List Byte := leBytes 1 j ++ measurement j nonce s
  if i = 0 then some [5]
  else if i = 0xFF then some ([1, 2, 3, 4, 16].flatMap one)
  else if (decide (1 ≤ i) && decide (i ≤ 4)) || i = 16 then some (one i) else none

def execGetMeasurements (index : Fin 256) (nonce : List Byte) (s : State) : Res :=
  let d := (measurements index nonce s).getD []
  .next (spdm (fun s => canSign s && (measurements index nonce s).isSome) 0x60 (d ++ Config.sign s.sec.falcon (aliasOf s) d) id s)

/-- KEY_EXCHANGE starts a secure session; the device keeps up to four. -/
def execKeyExchange (slot : Fin 2) (s : State) : Res :=
  .next (spdm (fun s => slotOk s slot && decide (s.sec.sessions.length < 4)) 0x64 (spdmData 0x64 (leBytes 4 s.sec.nextSession))
    (setSec (fun x => { x with sessions := x.sessions ++ [{ id := x.nextSession, done := false, keys := 0 }],
                               nextSession := x.nextSession + 1 })) s)

/-- Whether a session exists in a given condition. -/
def hasSession (s : State) (id : Nat) (done : Bool) : Bool := s.sec.sessions.any (fun x => x.id == id && x.done == done)

def sesUpd (id : Nat) (f : Session → Session) : State → State :=
  setSec (fun x => { x with sessions := x.sessions.map (fun (y : Session) => if y.id = id then f y else y) })

def execFinish (sid : Nat) (s : State) : Res :=
  .next (spdm (fun s => hasSession s sid false) 0x65 (spdmData 0x65 (leBytes 4 sid)) (sesUpd sid (fun y => { y with done := true })) s)

def execKeyUpdate (sid : Nat) (s : State) : Res :=
  .next (spdm (fun s => hasSession s sid true) 0x69 [] (sesUpd sid (fun y => { y with keys := y.keys + 1 })) s)

def execHeartbeat (sid : Nat) (s : State) : Res := .next (spdm (fun s => hasSession s sid true) 0x68 [] id s)

def execEndSession (sid : Nat) (s : State) : Res :=
  .next (spdm (fun s => hasSession s sid true) 0x6C []
    (setSec (fun x => { x with sessions := x.sessions.filter (fun y => y.id != sid) })) s)

/-! ## IDE (R423) -/

/-- Programs a stream: 0 the link stream, p + 1 the selective stream of partition p, 65 that of the physical function. -/
def setStream (n : Nat) (est : Bool) (set : Nat) (s : State) : State :=
  if n = 0 then setSec (fun x => { x with ideLink := est, ideLinkSet := set }) s
  else if n = 65 then setSec (fun x => { x with idePf := est, idePfSet := set }) s
  else pupd (n - 1) (fun q => { q with ide := est, ideSet := set }) s

def streamUp (s : State) (n : Nat) : Bool :=
  if n = 0 then s.sec.ideLink else if n = 65 then s.sec.idePf else (pget s (n - 1)).ide

/-- IDE_KM programs a key set of a stream inside a secure session; the stream is then established with that set in use. -/
def execIdeKm (sid : Nat) (stream : Fin 66) (set : Fin 2) (s : State) : Res :=
  .next (spdm (fun s => hasSession s sid true) 0x7E [3, BitVec.ofNat 8 stream, BitVec.ofNat 8 set] (setStream stream true set) s)

/-- An integrity check fails on an established stream: every TDI that it carries enters ERROR, and the stream is no longer
established. The link stream carries every TDI. -/
def execIdeIntegrityFailure (stream : Fin 66) (s : State) : Res :=
  .next (if !streamUp s stream then s
    else
      let ps := if stream.val = 0 then s.parts.map Prod.fst else if stream.val = 65 then [] else [stream.val - 1]
      setStream stream false 0 (ps.foldl (fun s p => tdiError p s) s))

/-! ## TDISP (R424, R426) -/

/-- The interface report of a virtual function: its two MMIO ranges within VF BAR0 by first byte and length, the command
window, then the status block with the MSI-X table. -/
def ifReport : List Byte := leBytes 4 2 ++ leBytes 4 0 ++ leBytes 4 0x10000 ++ leBytes 4 0x10000 ++ leBytes 4 0x10000

def execGetDeviceInterfaceReport (_p : Fin 64) (s : State) : Res := .next (if doeOn s then tdispSend 0x04 ifReport s else s)

/-- Whether LOCK_INTERFACE_REQUEST succeeds. -/
def lockable (s : State) (p : Nat) : Bool :=
  let q := pget s p
  q.conf && q.state == 1 && q.tdi == 0 && q.step.isNone && launchesOf s p == 0 && q.ide

def execLockInterfaceRequest (p : Fin 64) (s : State) : Res :=
  .next (if !doeOn s then s
    else if lockable s p then tdispSend 0x03 [] (pupd p (fun q => { q with tdi := 1, state := 2 }) s)
    else tdispSend 0x7F [] s)

def execStartInterfaceRequest (p : Fin 64) (s : State) : Res :=
  .next (if !doeOn s then s
    else if (pget s p).tdi = 1 then tdispSend 0x06 [] (pupd p (fun q => { q with tdi := 2 }) s)
    else tdispSend 0x7F [] s)

/-- STOP_INTERFACE_REQUEST: from ERROR it completes once zeroing has. A locked partition leaves its state only as Table SEC.1
says, so that from CONFIG_LOCKED and RUN it is answered with a TDISP error. -/
def execStopInterfaceRequest (p : Fin 64) (s : State) : Res :=
  .next (if !doeOn s then s
    else if (pget s p).tdi = 3 then zeroCheck p (pupd p (fun q => { q with stopReq := true }) s)
    else if (pget s p).tdi = 0 then tdispSend 0x07 [] s
    else tdispSend 0x7F [] s)

/-! ## Tamper (R434) -/

/-- The tamper record with an event of source 0 lid, 1 voltage, 2 clock added (Table SEC.10). -/
def tamperMark (src : Nat) (w : Word) : Word := wSatAdd (wPut w (28 + src) (28 + src) 1) 15 0 1

/-- Steps 1 to 3 of Table SEC.6: the source is latched and stored, the saggar region is wiped, every TDI enters ERROR and every
partition is faulted. Zeroing follows where the device has power. -/
def tamper (src : Nat) (s : State) : State :=
  let on := nsHas s.pwr.rails 0
  let s := { s with
    pwr := { s.pwr with lidOpen := s.pwr.lidOpen || src == 0 }
    sec := { s.sec with tamperNv := tamperMark src s.sec.tamperNv, tampering := s.sec.tampering || on } }
  let s := wipeSaggar (if on then rupd (secBase + 4) (tamperMark src) s else s)
  let ps := s.parts.map Prod.fst
  ps.foldl (fun s p => faultPart p s) (ps.foldl (fun s p => tdiError p s) s)

/-- The detectors run on VAUX. -/
def execTamperEvent (src : Fin 3) (s : State) : Res := .next (if s.pwr.vaux then tamper src s else s)

/-- Steps 4 and 5: all of tier 1 and tier 2 are zero, and the device is fatal. -/
def execTamperZeroingDone (s : State) : Res :=
  .next (if !s.sec.tampering then s
    else
      let s := setSec (fun x => { x with tampering := false }) (enterFatal s)
      { s with
        t1 := [], t1Chk := [], ftag := [], noReuse := [], zeroQ := [], t2 := [], t2poison := []
        parts := s.parts.map (fun e => (e.1, { e.2 with zeroLeft := [] })) })

end Sys2Proof.Machine
end

