-- ==== Sys2Proof/Machine/Count.lean ====
section
/-! DEFINITION. Programming counters, snapshots, and the telemetry ring (R440 to R451). -/

namespace Sys2Proof.Machine

/-! ## Counters -/

def ctrGet (s : State) (k : Nat) : Ctr := stGet (fun _ => Ctr.reset) s.ctrs k
def ctrSet (k : Nat) (v : Ctr) (s : State) : State := { s with ctrs := stSet (fun _ => Ctr.reset) s.ctrs k v }

/-- The unit of a counter: a core, 4 352 + a cluster, or 4 608 + a hub. -/
def ctrUnit (k : Nat) : Nat := if k < 34816 then k / 8 else if k < 38912 then 4352 + (k - 34816) / 16 else 4608 + (k - 38912) / 32

/-- The partition whose quarter-towers hold the unit of a counter. -/
def unitPart (s : State) (u : Nat) : Option Nat := if u < 4352 then corePart s u else if u < 4608 then cluPart s (u - 4352) else none

/-- Whether R430 coarsens the readings of a partition's units: from its lock until release or recovery completes. -/
def coarseP (s : State) (p : Nat) : Bool := (pget s p).conf && (pget s p).tdi != 0

/-- Whether any partition is coarsened. -/
def coarseAny (s : State) : Bool := s.parts.any (fun e => coarseP s e.1)

def coarseUnit (s : State) (u : Nat) : Bool := (unitPart s u).any (coarseP s)

/-! ## COUNTER_CFG (R441 to R443) -/

/-- Levels of an event (Table CNT.3), as bits core, cluster, hub; and whether it counts transactions. -/
def evtLevels (e : Nat) : Nat :=
  if e ∈ [0x0100, 0x0101, 0x0110, 0x0111, 0x0112, 0x0120, 0x0130, 0x0131, 0x0140, 0x0141, 0x0150] ||
      (decide (0x0200 ≤ e) && decide (e ≤ 0x0206)) then 3
  else if (decide (0x0300 ≤ e) && decide (e ≤ 0x0303)) || e ∈ [0x0310, 0x0311, 0x0320] ||
      (decide (0x0400 ≤ e) && decide (e ≤ 0x0404)) then 2
  else if (decide (0x0500 ≤ e) && decide (e ≤ 0x0503)) || (decide (0x0510 ≤ e) && decide (e ≤ 0x0512)) ||
      (decide (0x0520 ≤ e) && decide (e ≤ 0x0523)) || e ∈ [0x0530, 0x0531, 0x0540] then 4
  else 0
def evtTx (e : Nat) : Bool :=
  e ∈ [0x0130, 0x0200, 0x0201, 0x0300, 0x0302, 0x0303, 0x0400, 0x0401, 0x0402, 0x0404, 0x0500, 0x0501, 0x0530]

/-- The filter word after loading: a zero CLASS or PRIV loads 0xF (Table CNT.5). -/
def loadFilt (w : Nat) : Nat :=
  let w := if fld w 19 16 = 0 then putFld w 19 16 15 else w
  if fld w 11 8 = 0 then putFld w 11 8 15 else w

/-- COUNTER_CFG's fields: level, unit, counter, event. -/
def cfgLevel (b : List Byte) : Nat := fld (payAt b 0 2) 15 12
def cfgUnit (b : List Byte) : Nat := fld (payAt b 0 2) 11 0
def cfgNum (b : List Byte) : Nat := payAt b 2 1
def cfgEvt (b : List Byte) : Nat := payAt b 4 4

/-- Whether a logical tower belongs to a die that is fenced. -/
def towerFenced (s : State) (t : Nat) : Bool :=
  (twPhys s t).isNone && s.lostTw.any (fun n => wFld (rget s (towerBase n)) 19 16 == t)

/-- The counter that COUNTER_CFG names, or the status that refuses its unit. -/
def cfgKey (s : State) (b : List Byte) : Except Nat Nat :=
  let u := cfgUnit b
  let n := cfgNum b
  if cfgLevel b = 0 then
    if 8 ≤ n then .error 0x0107
    else
      match corePhys s (u / 256) (u / 16 % 16) (u % 16) with
      | some c => .ok (8 * c + n)
      | none => .error (if towerFenced s (u / 256) then 0x0502 else 0x0107)
  else if cfgLevel b = 1 then
    if 256 ≤ u || 16 ≤ n then .error 0x0107
    else
      match clPhys s (u / 16) (u % 16) with
      | some k => .ok (34816 + 16 * k + n)
      | none => .error (if towerFenced s (u / 16) then 0x0502 else 0x0107)
  else if cfgLevel b = 2 then
    if 4 ≤ u || 32 ≤ n then .error 0x0107
    else if hubAbsent s u then .error 0x0502 else .ok (38912 + 32 * u + n)
  else .error 0x0107

/-- Whether a counter lies in the partition half of Table CNT.1. -/
def partHalf (k : Nat) : Bool := if k < 34816 then decide (4 ≤ k % 8) else decide (k < 38912) && decide (8 ≤ (k - 34816) % 16)

/-- Whether the sender may not program a counter (R443). -/
def cfgDenied (s : State) (w k : Nat) : Bool :=
  let own := unitPart s (ctrUnit k)
  if w < 64 then partHalf k && own.any (fun p => (pget s p).ucnt)
  else !partHalf k || own != some (w - 64)

/-- The status that refuses a COUNTER_CFG, or the counter. -/
def cfgCheck (s : State) (w : Nat) (b : List Byte) : Except Nat Nat :=
  let e := cfgEvt b
  let f := loadFilt (payAt b 8 4)
  if 64 ≤ w && (!(pget s (w - 64)).ucnt || cfgLevel b == 2) then .error 0x0403
  else
    match cfgKey s b with
    | .error st => .error st
    | .ok k =>
      if e ≠ 0 && !bitAt (evtLevels e) (cfgLevel b) then .error 0x0107
      else if e ≠ 0 && !evtTx e && (fld f 19 16 ≠ 15 || fld f 11 8 ≠ 15 || fld f 31 30 ≠ 0) then .error 0x0107
      else if cfgDenied s w k then .error 0x0403
      else .ok k

/-- What COUNTER_CFG loads; event 0 stops the counter and leaves its value. From a virtual function MEN, the partition's number
and the levels runtime and user are forced. -/
def ctrLoad (w : Nat) (b : List Byte) (k : Ctr) : Ctr :=
  if cfgEvt b = 0 then { k with evt := 0 }
  else
    let f := loadFilt (payAt b 8 4)
    let m := payAt b 12 4
    let vf := decide (64 ≤ w)
    { val := 0, ovf := false, owner := vf, evt := cfgEvt b
      filt := if vf then putFld (putFld f 11 8 (Nat.land (fld f 11 8) 12)) 30 30 1 else f
      master := if vf then putFld (putFld m 31 26 63) 15 10 (w - 64) else m
      abase := payAt b 16 4, alim := payAt b 20 4, hiLatch := 0 }

def execCounterCfg (w : Fin 128) (s : State) : Res :=
  runCmd w 0x0603 (fun b => payNZ b 3 1 || fld (payAt b 8 4) 29 20 != 0 || fld (payAt b 8 4) 15 12 != 0 ||
      fld (payAt b 8 4) 7 0 != 0) (fun k s =>
    match cfgCheck s w k.bytes with
    | .error st => complete k.id st 0 0 s
    | .ok c => complete k.id 0 0 0 (ctrSet c (ctrLoad w k.bytes (ctrGet s c)) s)) s

/-! ## Snapshots (R446, R447, Table CNT.10) -/

/-- Shows a snapshot's state in CNT_SNAP_STAT. -/
def snapShow (s : State) : State :=
  rupd (snapBase + 4) (fun w => wPut (wPut (wPut w 31 31 (b2n s.snap.run.isSome)) 30 30 (b2n (!s.frozen.isEmpty)))
    29 29 (b2n s.snap.pend.isSome)) s

/-- The dies that answer: neither lost towers nor absent hubs. -/
def liveDies (s : State) : NatSet :=
  (List.range 20).filter (fun d => if d < 16 then !nsHas s.lostTw d else !hubAbsent s (d - 16))

/-- Step 1: T is 5 µs ahead, rounded to 10 ns. -/
def snapBegin (r : SnapReq) (s : State) : State :=
  snapShow { s with snap := { s.snap with run := some r, t := (s.ns + 5005) / 10 * 10, wait := liveDies s, lat := SnapImg.empty } }

/-- Takes a request: while a snapshot runs, one waits. Answers whether it was taken; a further round is merged into the one
that waits. -/
def snapAsk (r : SnapReq) (s : State) : Bool × State :=
  if s.snap.run.isNone then (true, snapBegin r s)
  else
    match s.snap.pend with
    | none => (true, snapShow { s with snap := { s.snap with pend := some r } })
    | some q =>
      if r.round then (true, { s with snap := { s.snap with pend := some { q with round := true } } }) else (false, s)

/-- Latches one counter. -/
def latchCtr (e : Nat × Ctr) (s : State) (m : SnapImg) : SnapImg :=
  let low := stGet (fun _ => 0) s.snap.coarse e.1
  let put (st : Store Nat) (v : Nat) : Store Nat := if v = 0 then st else stIns e.1 v (stDel st e.1)
  { m with vals := put m.vals (e.2.val + b2n e.2.ovf * 2 ^ 48), low := put m.low (low + b2n e.2.ovf * 2 ^ 48) }

/-- The units of a die. -/
def dieUnits (d : Nat) : List Nat :=
  if d < 16 then (List.range 272).map (fun i => 272 * d + i) ++ (List.range 16).map (fun i => 4352 + 16 * d + i) else [4592 + d]

/-- Step 3 on one die: every counter latches, and in freeze mode it is held, in unfreeze mode it resumes. -/
def latchDie (mode : Nat) (late : Bool) (d : Nat) (s : State) : State :=
  let m := (s.ctrs.filter (fun e => ctrDie e.1 == d)).foldl (fun m e => latchCtr e s m) s.snap.lat
  let m := { m with coarse := ((dieUnits d).filter (coarseUnit s)).foldl nsAdd m.coarse
                    late := if late then nsAdd m.late d else m.late }
  { s with
    frozen := if mode = 1 then nsAdd s.frozen d else if mode = 2 then nsDel s.frozen d else s.frozen
    snap := { s.snap with lat := m, wait := nsDel s.snap.wait d } }

/-- At T every die latches whose order has arrived; each die of `dies` latches here. `late` says that the instant has passed
and these orders arrive late. -/
def execSnapshotLatch (dies : List (Fin 20)) (late : Bool) (s : State) : Res :=
  match s.snap.run with
  | none => .next s
  | some r => .next (snapShow (((dies.map Fin.val).filter (fun d => nsHas s.snap.wait d)).foldl (fun s d => latchDie r.mode late d s) s))

/-- Whether the entries of a unit are valid: its hub is present, its die is not fenced, its core site is mapped. -/
def unitValid (s : State) (u : Nat) : Bool :=
  if u < 4352 then (coreName s u).isSome && !nsHas s.lostTw (coreTower u)
  else if u < 4608 then (twLog s (cluTower (u - 4352))).isSome && (clLog s (u - 4352)).isSome && !nsHas s.lostTw (cluTower (u - 4352))
  else !hubAbsent s (u - 4608)

/-- Records with CLASS 1 or 2 that are open in a hub's log (UE_OPEN), as Table RAS.13 counts them. -/
def ueOpen (s : State) (h : Nat) : Nat :=
  ((hget s h).log.filter (fun e => (e.2.cls == 1 || e.2.cls == 2) && e.2.st != 3)).length

/-- The module's input power in 0.1 W as readers see it (R430). -/
def powInRead (s : State) : Nat := if coarseAny s then stGet (fun _ => 0) s.pwr.powCoarse 0 else powIn s

/-- A temperature in 16 bits. -/
def temp16 (t : Int) : List Byte := leBytes 2 (unsignedOf 16 t)

/-- Bytes 16 to 63 of a summary (Table CNT.9). -/
def summaryBody (s : State) : List Byte :=
  let here := (List.range 16).filter (fun n => (twLog s n).isSome)
  let top (l : List Int) : Int := match l with
    | [] => 0
    | a :: r => r.foldl max a
  let hot := top (here.map (fun n => (twTh s n).meas))
  let lay := top (here.flatMap (fun n => (List.range 8).map (fun m => (layTh s n m).meas)))
  let cut := sumNat ((List.range 16).map (fun n =>
    let w := rget s (thmBase + 0x80 + 4 * n)
    if (twLog s n).isSome && (wFld w 8 4 < 16 || wFld w 15 12 ≠ 0) then 2 ^ n else 0))
  let cool := rget s (thmBase + 0x150)
  leBytes 4 (wFld (rget s (snapBase + 4)) 28 0) ++ leBytes 2 (powInRead s / 10) ++ leBytes 2 (pkgEff s) ++ temp16 hot ++ temp16 lay ++
    temp16 (tempFld cool 20 10) ++ temp16 (tempFld cool 31 21) ++ leBytes 2 (wFld (rget s (thmBase + 0x158)) 15 0) ++
    leBytes 2 (wFld (rget s (thmBase + 0xC)) 31 16) ++ leBytes 2 cut ++ leBytes 2 (wFld (rget s 0x18) 12 0) ++
    leBytes 4 (rget s 0x1C).toNat ++ leBytes 2 (sumNat ((List.range 4).map (ueOpen s))) ++ zeros 2 ++ leBytes 8 s.telem.steps

/-- Steps 4 and 5: the latched values are in the area, SEQ increments, BUSY clears, the packet completes with T, a round writes
its summary, and the request that waits starts. An unfreeze copies nothing and counts no snapshot. -/
def snapDone (r : SnapReq) (s : State) : State :=
  let t := s.snap.t
  let img := { s.snap.lat with valid := ((List.range 20).flatMap (fun d => (dieUnits d).filter (unitValid s))).foldl nsAdd [] }
  let s := if r.mode = 2 then s else
    rupd (snapBase + 4) (fun w => wWrapAdd w 28 0 1) (rset (snapBase + 8) (BitVec.ofNat 32 t)
      (rset (snapBase + 12) (BitVec.ofNat 32 (t / 2 ^ 32)) { s with snap := { s.snap with area := img } }))
  let next := s.snap.pend
  let s := snapShow { s with snap := { s.snap with run := none, pend := none, wait := [], lat := SnapImg.empty } }
  let s := match r.pkt with
    | some id => complete id 0 t 0 s
    | none => s
  let s := if r.round then telEmit { ty := 1, time := s.ns, body := summaryBody s } s else s
  match next with
  | some q => snapBegin q s
  | none => s

def execSnapshotComplete (s : State) : Res :=
  match s.snap.run with
  | none => .next s
  | some r => .next (if s.snap.wait.any (fun d => nsHas (liveDies s) d) then s else snapDone r s)

/-- SNAPSHOT: completes at step 5, or is refused while another request already waits. -/
def execSnapshot (w : Fin 128) (s : State) : Res :=
  runCmd w 0x0601 noResv (fun k s =>
    let r := snapAsk { mode := 0, pkt := some k.id, round := false } s
    if r.1 then r.2 else complete k.id 0x0205 0 0 s) s

def execSnapshotSnap (s : State) : Res := .next (snapAsk { mode := 0, pkt := none, round := false } s).2
def execSnapshotFreeze (s : State) : Res := .next (snapAsk { mode := 1, pkt := none, round := false } s).2
def execSnapshotUnfreeze (s : State) : Res := .next (snapAsk { mode := 2, pkt := none, round := false } s).2

/-- A write of CNT_SNAP_CTL: SNAP, FREEZE, UNFREEZE in the order of their bits. -/
def writeSnapCtl (w : Word) (s : State) : State :=
  (List.range 3).foldl (fun s i => if wBit w i then (snapAsk { mode := i, pkt := none, round := false } s).2 else s) s

/-! ## The telemetry ring (R449, R450) -/

/-- The status that refuses a TELEM_CFG, or 0. -/
def telemStatus (b : List Byte) : Nat :=
  let size := payAt b 8 4
  if payAt b 0 8 % 4096 ≠ 0 || size % 4096 ≠ 0 || size = 0 || 0x1000000 < size then 0x0106
  else if 60000 < payAt b 12 4 || 2048 ≤ payAt b 16 2 then 0x0107 else 0

def execTelemCfg (w : Fin 128) (s : State) : Res :=
  runCmd w 0x0602 (fun b => payNZ b 18 6) (fun k s =>
    let b := k.bytes
    let st := telemStatus b
    if st ≠ 0 then complete k.id st 0 0 s
    else
      let ring := payAt b 0 8
      let t := { s.telem with on := true, ring := ring, n := payAt b 8 4 / 64 - 1, period := payAt b 12 4, vec := payAt b 16 2,
                              tail := 0, head := 0, steps := 0 }
      let s := fnSend 0 (.write ring (leBytes 4 0)) { s with telem := t }
      complete k.id 0 0 0 (telDrain 32 s)) s

/-- The telemetry period has passed: a round asks for its snapshot. -/
def execTelemetryRound (s : State) : Res :=
  .next (if s.telem.on && s.telem.period ≠ 0 then (snapAsk { mode := 0, pkt := none, round := true } s).2 else s)

/-- A write of CNT_TELEM_HEAD. -/
def writeTelemHead (w : Word) (s : State) : State := telDrain 32 { s with telem := { s.telem with head := w.toNat } }

def execTelemHeadWrite (w : Word) (s : State) : Res := .next (writeTelemHead w s)

end Sys2Proof.Machine
end

