-- ==== Sys2Proof/Machine/Mov.lean ====
section
/-! DEFINITION. The mover: descriptors, start checks, COPY, FILL, remote writes, retirement and halts (R129 to R135,
R466). -/

namespace Sys2Proof.Machine

/-! ## Fields of Table TILE.12 -/

def mvRtk (d : MovDesc) : Nat := fld d.w0 36 33
def mvSat (d : MovDesc) : Bool := bitAt d.w0 32
def mvDfmt (d : MovDesc) : Nat := fld d.w0 31 28
def mvSfmt (d : MovDesc) : Nat := fld d.w0 27 24
def mvDkind (d : MovDesc) : Nat := fld d.w0 23 20
def mvSkind (d : MovDesc) : Nat := fld d.w0 19 16
def mvFill (d : MovDesc) : Bool := cmdOP d.w0 == 2
def mvSaddr (d : MovDesc) : Nat := fld d.w1 47 0
def mvDaddr (d : MovDesc) : Nat := fld d.w2 47 0
def mvPlanes (d : MovDesc) : Nat := fld d.w3 35 28 + 1
def mvRows (d : MovDesc) : Nat := fld d.w3 27 16 + 1
def mvLen (d : MovDesc) : Nat := fld d.w3 15 0 + 1

/-- Row and plane strides in bytes (R466). -/
def mvRS (stride len c : Nat) : Nat := if stride = 0 then len * c else stride
def mvPS (stride rows rs : Nat) : Nat := if stride = 0 then rows * rs else 64 * stride
def mvDRS (d : MovDesc) : Nat := mvRS (fld d.w2 63 48) (mvLen d) (elemBytes (mvDfmt d))
def mvDPS (d : MovDesc) : Nat := mvPS (fld d.w3 63 50) (mvRows d) (mvDRS d)
def mvSRS (d : MovDesc) : Nat := mvRS (fld d.w1 63 48) (mvLen d) (elemBytes (mvSfmt d))
def mvSPS (d : MovDesc) : Nat := mvPS (fld d.w3 49 36) (mvRows d) (mvSRS d)

/-- The end of the byte extent of a side. -/
def mvDEnd (d : MovDesc) : Nat :=
  mvDaddr d + (mvPlanes d - 1) * mvDPS d + (mvRows d - 1) * mvDRS d + mvLen d * elemBytes (mvDfmt d)
def mvSEnd (d : MovDesc) : Nat :=
  mvSaddr d + (mvPlanes d - 1) * mvSPS d + (mvRows d - 1) * mvSRS d + mvLen d * elemBytes (mvSfmt d)

/-- Size in bytes of a memory of kind 0x6: WSP, ASP, PSP, IMEM. -/
def memBytes (m : Nat) : Nat := 64 * memBlocks m

/-- The blocks that the rows of an endpoint touch, from memory `m` on. -/
def mvBlks (m addr rows planes rs ps len : Nat) : List Nat :=
  (List.range planes).flatMap (fun q => (List.range rows).flatMap (fun r => blksOf m (addr + q * ps + r * rs) len))

/-- The check of an endpoint in the core's own units, or of a kind-0x6 destination, over every row (R131): 0 or the
status. A read of the unified space goes through the test engine's slots: its groups must be powered (R64), and a block that no
region of the test engine covers is refused as out of bounds (R67; log entry 186). -/
def mvEndCheck (s : State) (c kind addr stop rows planes rs ps len : Nat) : Nat :=
  if kind ≤ 2 then
    if stop > memBytes kind then 0x0401
    else if !hasSlot s c kind 4 then 0x0201
    else if (mvBlks kind addr rows planes rs ps len).any (fun b => !blkOn s c b) then 0x0202
    else 0
  else if kind = 4 then (if stop > 2 ^ 28 then 0x0401 else 0)
  else if kind = 5 then (if stop > 2 ^ 22 then 0x0401 else 0)
  else if kind = 6 then
    (if stop - addr + fld addr 17 0 > memBytes (fld addr 31 30) then 0x0401 else 0)
  else if kind = 8 then
    let bs := mvBlks 0 addr rows planes rs ps len
    if stop > 64 * 6144 then 0x0401
    else if bs.any (fun b => !blkOn s c b) then 0x0202
    else if bs.any (fun b => !uniAllows s c 1 b false) then 0x0401
    else 0
  else if stop > 2 ^ 48 then 0x0401 else 0

/-- The start checks of R131 in order: 0 or the status. -/
def mvCheck (s : State) (c : Nat) (d : MovDesc) : Nat :=
  let fill := mvFill d
  let sk := mvSkind d
  let dk := mvDkind d
  let df := mvDfmt d
  let sf := mvSfmt d
  if fld d.w0 63 37 != 0 || bitAt d.w0 15 || (dk != 6 && mvRtk d != 0) ||
      (fill && (sk != 0 || sf != 0 || fld d.w3 49 36 != 0)) ||
      (dk == 6 && (fld (mvDaddr d) 47 44 != 0 || fld (mvDaddr d) 29 18 != 0)) then 0x0101
  else if !(cmdOP d.w0 == 1 || fill) || !(sk ≤ 2 || sk == 4 || sk == 5 || sk == 7 || sk == 8) ||
      !(dk ≤ 2 || (4 ≤ dk && dk ≤ 7)) || df > 7 || sf > 7 then 0x0102
  else if !fill && (sf == 0) != (df == 0) then 0x0103
  else if !fill && sk == 8 && !(cget s c).unified then 0x0302
  else
    let e := if fill then 0
      else mvEndCheck s c sk (mvSaddr d) (mvSEnd d) (mvRows d) (mvPlanes d) (mvSRS d) (mvSPS d) (mvLen d * elemBytes sf)
    if e ≠ 0 then e
    else mvEndCheck s c dk (mvDaddr d) (mvDEnd d) (mvRows d) (mvPlanes d) (mvDRS d) (mvDPS d) (mvLen d * elemBytes df)

/-! ## Channels -/

def mvupd (c ch : Nat) (f : MovCh → MovCh) (s : State) : State :=
  cupd c (fun k => { k with mov := k.mov.modify ch f }) s

/-- A descriptor fails: the channel halts with a status and raises "MOV halt", which names the channel (R135). -/
def mvFail (c ch status hi : Nat) (d : MovDesc) (s : State) : State :=
  holdTrap c { src := 3, cause := 0x15, pc := d.pc, word := d.w0, detail := ch * 65536 + status, detailHi := hi }
    (mvupd c ch (fun m => { m with active := none, moved := false, status := status, halted := true }) s)

/-- What a channel can take from ticket t now (R116). -/
def movClaim (s : State) (c ch t : Nat) : Nat :=
  let m := movGet s c ch
  match m.queue with
  | [] => 0
  | d :: _ => b2n (cmdTW d.w0 == t && m.active.isNone && !m.halted && engineFree (sq s c) 3 && mvCheck s c d == 0)

/-- What SEQ, the MXE, the VXE and the first `n` channels can take from a ticket (R116). -/
def claimsTo (s : State) (c n tw : Nat) : Nat :=
  seqClaim s c tw + mxeClaim s c tw + vxeClaim s c tw + sumNat ((List.range n).map (fun j => movClaim s c j tw))

/-- Whether a channel is granted a ticket: SEQ, the MXE, the VXE and lower channels come before it (R116). -/
def movTicket (s : State) (c ch tw : Nat) : Bool := tkGrant s c tw (if tw = 0 then 0 else claimsTo s c ch tw)

/-- A descriptor at the head of its channel starts once its ticket holds and its checks pass; a failed check takes no
ticket (R115, R129, R131). -/
def execMovDescriptorStart (c : Fin 4352) (ch : Fin 8) (s : State) : Res :=
  let m := movGet s c ch
  match m.queue with
  | [] => .next s
  | d :: rest =>
    if m.active.isSome || m.halted || !coreRuns s c || !engineFree (sq s c) 3 || !tkReady s c (cmdTW d.w0) then .next s
    else
      let e := mvCheck s c d
      let pop := mvupd c ch (fun m => { m with queue := rest }) s
      if e ≠ 0 then .next (mvFail c ch e 0 d pop)
      else if !movTicket s c ch (cmdTW d.w0) then .next s
      else .next (tkTake c (cmdTW d.w0) (mvupd c ch (fun m => { m with active := some d, moved := false }) pop))

/-! ## Transfers -/

/-- The answer of one transfer: the bytes, poison, or a refusal with its status. -/
inductive MvAns where
  | bytes (d : List Byte)
  | poison
  | refused (status : Nat)
  deriving DecidableEq, Repr

def mvOpt (r : Option (List Byte) × State) : MvAns × State :=
  (match r.1 with
   | some d => .bytes d
   | none => .poison, r.2)

/-- Records a refusal at the core's interface. -/
def mvRefuse (c addr : Nat) (t : Tgt) (e : Nat × Nat) (s : State) : State :=
  if e.1 = 0x0401 then countRaw t e.2 (bndRefuse c e.2 4 (some addr) s) else s

/-- The node of a target. -/
def tgtNode : Tgt → Option Nat
  | .slice c _ => some (cluNode (coreClu c))
  | .sram k _ => some (cluNode k)
  | .tier2 off => some (256 + t2Hub off)
  | _ => none

/-- The target of a device physical address as a core's interface translates it (R274). -/
def mvTgt (s : State) (c a : Nat) : Tgt := dpaTgt (ifaceState s c) a

/-- The refusal of an access of a core through its interface: that of R276 under the map there, or Fenced where no route reaches
(R271, R273). -/
def mvRefusal (s : State) (c : Nat) (t : Tgt) (n : Nat) (write : Bool) : Option (Nat × Nat) :=
  let v := ifaceState s c
  match tgtRefusal v (coreWho v c) t n write with
  | some e => some e
  | none => if (tgtNode t).any (fun b => (netRoutes s (cluNode (coreClu c)) b).isNone) then some (0x0502, 0) else none

/-- Reads `n` bytes of a source endpoint. -/
def mvRead (c kind a n : Nat) (s : State) : MvAns × State :=
  if kind ≤ 2 then mvOpt (spReadBytes c kind a n s)
  else if kind = 4 then mvOpt (t1ReadBytes c a n s)
  else if kind = 5 then
    let k := coreClu c
    mvOpt (csReadBytes k a n (csCount k 0 (coreTx s c 4 0 (dpaSram s k a)) s))
  else if kind = 8 then
    let (m, i) := memOfBlk (a / 64)
    mvOpt (spReadBytes c m (64 * i + a % 64) n s)
  else
    let t := mvTgt s c a
    match mvRefusal s c t n false with
    | some e => (.refused e.1, mvRefuse c a t e s)
    | none => mvOpt (tgtRead t n (coreTx s c 4 0 (some a)) s)

/-- The destination core of a kind-0x6 address under the map in the core's interface, or the refusal of R273 or R276. -/
def remoteDst (s : State) (c a : Nat) : Nat ⊕ (Nat × Nat) :=
  let v := ifaceState s c
  match corePhys v (fld a 43 40) (fld a 39 36) (fld a 35 32) with
  | none => .inr (0x0401, 4)
  | some d =>
    if corePart v d ≠ corePart v c || (corePart v c).isNone then .inr (0x0401, 0)
    else if nsHas s.lostTw (coreTower d) then .inr (0x0502, 0)
    else if (netRoutes s (cluNode (coreClu c)) (cluNode (coreClu d))).isNone then .inr (0x0502, 0)
    else .inl d

/-- A remote write as it leaves its core, with the path that it takes (R273). -/
def remoteWr (s : State) (c ch dst mem off : Nat) (data : List Byte) : RemoteWr :=
  let p := (netRoutes s (cluNode (coreClu c)) (cluNode (coreClu dst))).getD ([], [], false)
  { src := c, ch := ch, dst := dst, mem := mem, off := off, data := data, path := p.1 ++ p.2.1, esc := p.2.2 }

/-- Writes bytes, within one block, to a destination endpoint: 0 or the status. -/
def mvWrite (c ch : Nat) (d : MovDesc) (a : Nat) (v : List Byte) (s : State) : Nat × State :=
  let kind := mvDkind d
  if kind ≤ 2 then (0, spWriteBytes c kind a v s)
  else if kind = 4 then (0, t1Write c a v s)
  else if kind = 5 then
    let k := coreClu c
    if dirTouched s k a v.length then
      (0x0401, mvRefuse c a (.sram k a) (0x0401, 2) s)
    else (0, csWriteBytes k a v (csCount k 0 (coreTx s c 4 0 (dpaSram s k a)) s))
  else if kind = 6 then
    match remoteDst s c a with
    | .inr e => (e.1, mvRefuse c a (.bad 0) e s)
    | .inl dst => (0, { s with remote := s.remote ++ [remoteWr s c ch dst (fld a 31 30) (fld a 17 0) v] })
  else
    let t := mvTgt s c a
    match mvRefusal s c t v.length true with
    | some e => (e.1, mvRefuse c a t e s)
    | none => (0, tgtWrite t v (coreTx s c 4 0 (some a)) s)

/-- The cluster in whose SRAM an endpoint lies, where a busy answer can meet it. -/
def mvInSram (s : State) (c kind a : Nat) : Option Nat :=
  if kind = 5 then some (coreClu c)
  else if kind = 7 then
    match mvTgt s c a with
    | .sram k _ => some k
    | _ => none
  else none

/-- Converts elements e0 to e0 + n − 1 from their source bytes: destination bytes, and the counts of elements from
`first` on. -/
def mvConvert (d : MovDesc) (src : List Byte) (n skip : Nat) : List Byte × Nat × Nat :=
  let sb := elemBytes (mvSfmt d)
  (List.range n).foldl (fun acc i =>
    let (code, sat, cv) := convert (mvSfmt d) (mvDfmt d) (mvSat d) (leAt src (i * sb) sb)
    let k := if i < skip then 0 else 1
    (acc.1 ++ leBytes (elemBytes (mvDfmt d)) code, acc.2.1 + k * sat, acc.2.2 + k * cv)) ([], 0, 0)

/-- The bytes of a destination chunk: `o` is its byte offset in the row, `sa` the address of the source row. -/
def mvChunk (c : Nat) (d : MovDesc) (sa o n : Nat) (s : State) : MvAns × (Nat × Nat) × State :=
  if mvFill d then
    (.bytes ((List.range n).map (fun i => BitVec.ofNat 8 (d.w1 / 256 ^ ((o + i) % 8)))), (0, 0), s)
  else
    let db := elemBytes (mvDfmt d)
    let sb := elemBytes (mvSfmt d)
    let e0 := o / db
    let m := (o + n - 1) / db - e0 + 1
    match mvRead c (mvSkind d) (sa + e0 * sb) (m * sb) s with
    | (.bytes src, s) =>
      let (b, sat, cv) := mvConvert d src m (if o % db = 0 then 0 else 1)
      (.bytes ((b.drop (o % db)).take n), (sat, cv), s)
    | (r, s) => (r, (0, 0), s)

/-- The state of a copy: chunks done, the status that stopped it (0 none), the state at the start and the state now. -/
structure MvRun where
  k : Nat
  status : Nat
  s0 : State
  s : State

/-- Moves one destination chunk. Where source and destination overlap, the block receives the source as it stood at the
start or as this descriptor has already changed it (R133). -/
def mvStepChunk (c ch : Nat) (d : MovDesc) (busy : List Nat) (da sa o n : Nat) (r : MvRun) : MvRun :=
  let clu := (if mvFill d then none else mvInSram r.s0 c (mvSkind d) sa).orElse (fun _ => mvInSram r.s0 c (mvDkind d) da)
  let s1 := match clu with
    | some k => csBusyN k (busyAt busy r.k) (coreTx r.s c 4 0 none) r.s
    | none => r.s
  if r.status ≠ 0 then r
  else if clu.isSome && busyAt busy r.k == 65 then { r with status := 0x0203, s := s1 }
  else
    let (now, cnt, s) := mvChunk c d sa o n s1
    let (old, _, _) := mvChunk c d sa o n { r.s0 with fresh := r.s.fresh }
    let pick := if Config.freeBool r.s.fresh r.k then old else now
    match pick with
    | .poison => { r with status := 0x0501, s := s }
    | .refused e => { r with status := e, s := s }
    | .bytes v =>
      let rowStart (kind a : Nat) : Bool := kind == 4 && (o == 0 || a % 1024 < 64)
      let s := if !mvFill d && rowStart (mvSkind d) sa then
        rowMeet (colOf c sa) 1 false (coreTx s c 4 0 (dpaSlice s c sa)) s else s
      let s := if rowStart (mvDkind d) da then rowMeet (colOf c da) 1 true (coreTx s c 4 0 (dpaSlice s c da)) s else s
      let (e, s) := mvWrite c ch d da v s
      let s := corUpd c 0x304 (fun w => wSatAdd (wSatAdd w 15 8 cnt.1) 7 0 cnt.2) s
      let cls := if mvRtk d = 0 then 0 else 2
      let addr := if mvDkind d = 7 then some da else none
      { r with k := r.k + 1, status := e, s := if e = 0 then tallyCore c 0x0130 1 (coreTx s c 4 cls addr) s else s }

/-- Moves a row chunk by chunk; the fuel is the number of blocks it can touch. -/
def mvRow (c ch : Nat) (d : MovDesc) (busy : List Nat) (da sa len : Nat) : Nat → Nat → MvRun → MvRun
  | 0, _, r => r
  | f + 1, o, r =>
    if len ≤ o then r
    else
      let n := min (len - o) (64 - (da + o) % 64)
      mvRow c ch d busy da sa len f (o + n) (mvStepChunk c ch d busy (da + o) sa o n r)

/-- Performs every transfer of a descriptor. -/
def mvAll (c ch : Nat) (d : MovDesc) (busy : List Nat) (s : State) : MvRun :=
  let len := mvLen d * elemBytes (mvDfmt d)
  (List.range (mvPlanes d)).foldl (fun r q =>
    (List.range (mvRows d)).foldl (fun r i =>
      mvRow c ch d busy (mvDaddr d + q * mvDPS d + i * mvDRS d) (mvSaddr d + q * mvSPS d + i * mvSRS d) len
        (len / 64 + 2) 0 r) r) { k := 0, status := 0, s0 := s, s := s }

/-- Whether the row transfers of a descriptor's own-slice ends may run now (R153, R161 to R163); a destination that is not whole blocks
needs no-yield windows. -/
def mvClear (s : State) (c : Nat) (d : MovDesc) : Bool :=
  let narrow := mvDaddr d % 64 != 0 || mvLen d * elemBytes (mvDfmt d) % 64 != 0 || mvDRS d % 64 != 0 || mvDPS d % 64 != 0
  (mvFill d || mvSkind d != 4 || rangeClear s c (mvSaddr d) (mvSEnd d - mvSaddr d) false false) &&
    (mvDkind d != 4 || rangeClear s c (mvDaddr d) (mvDEnd d - mvDaddr d) true narrow)

/-- The node that an end of a descriptor at address `a` reaches over the network, if any. -/
def mvNode (s : State) (c kind a : Nat) : Option Nat :=
  if kind = 5 then some (cluNode (coreClu c))
  else if kind = 7 then tgtNode (mvTgt s c a)
  else if kind = 6 then
    match remoteDst s c a with
    | .inl d => some (cluNode (coreClu d))
    | .inr _ => none
  else none

/-- Whether an end of a descriptor would cross a lost die that the masks do not exclude yet: its accesses wait (R273). The rows' first
and last bytes stand for them. -/
def mvEndHeld (s : State) (c kind addr rows planes rs ps len : Nat) : Bool :=
  !s.lostTw.isEmpty && (5 ≤ kind && kind ≤ 7) && (List.range planes).any (fun q => (List.range rows).any (fun r =>
    let a := addr + q * ps + r * rs
    [a, a + (len - 1)].any (fun a => (mvNode s c kind a).any (fun b =>
      !nsHas s.lostTw (nodeTower b) && (netRoutes s (cluNode (coreClu c)) b).any (fun p => crossesLost s (p.1 ++ p.2.1))))))

/-- Whether a descriptor's network accesses wait: for the masks (R273), or for a slot of the core's port (R281). -/
def mvHeld (s : State) (c : Nat) (d : MovDesc) : Bool :=
  let net (k : Nat) : Bool := 5 ≤ k && k ≤ 7
  let src := !mvFill d && net (mvSkind d)
  ((src || net (mvDkind d)) && (corePart s c).isSome && slotFor s c == 0) ||
    (src && mvEndHeld s c (mvSkind d) (mvSaddr d) (mvRows d) (mvPlanes d) (mvSRS d) (mvSPS d) (mvLen d * elemBytes (mvSfmt d))) ||
    mvEndHeld s c (mvDkind d) (mvDaddr d) (mvRows d) (mvPlanes d) (mvDRS d) (mvDPS d) (mvLen d * elemBytes (mvDfmt d))

/-- Runs the started descriptor of a channel, if it is a FILL or a COPY as asked. -/
def mvExec (c ch : Nat) (fill : Bool) (busy : List Nat) (s : State) : State :=
  let m := movGet s c ch
  match m.active with
  | none => s
  | some d =>
    if m.moved || mvFill d != fill || !coreRuns s c || !mvClear s c d || mvHeld s c d then s
    else
      let r := mvAll c ch d busy s
      let s := { r.s with fresh := r.s.fresh + 1 }
      if r.status = 0 then mvupd c ch (fun m => { m with moved := true }) s else mvFail c ch r.status 0 d s

/-- COPY performs its transfers. `busy` gives, chunk by chunk, the busy answers that cluster SRAM gave it: each is counted and
reissued, and the 65th halts the channel (R78, R79). -/
def execMovCopy (c : Fin 4352) (ch : Fin 8) (busy : List Nat) (s : State) : Res := .next (mvExec c ch false busy s)

/-- FILL writes its pattern (R466). -/
def execMovFill (c : Fin 4352) (ch : Fin 8) (busy : List Nat) (s : State) : Res := .next (mvExec c ch true busy s)

/-! ## Remote writes (R134) -/

/-- The destination's checks of a remote write: 0 or the refusing status. -/
def remoteCheck (s : State) (r : RemoteWr) : Nat :=
  if r.mem = 3 then (if (cget s r.dst).halted then 0 else 0x0301)
  else if (cget s r.dst).unified || !hasSlot s r.dst r.mem 4 then 0x0201
  else if (blksOf r.mem r.off r.data.length).any (fun b => !groupOn s r.dst r.mem (b - memFirst r.mem)) then 0x0202
  else 0

/-- The blocks that a remote write poisoned in a crossing FIFO touches hold poison (R34). -/
def remotePoison (r : RemoteWr) (s : State) : State :=
  crossErr (srcTower (coreTower r.dst)) (homeHub (coreTower r.dst)) (corePart s r.dst) 0
    ((blksOf r.mem r.off r.data.length).foldl (fun s b => spPoison r.dst b s) s)

/-- The oldest remote write on its way to a core reaches it and is checked and performed, or refused; it waits outside a core that
holds (R42). -/
def execRemoteWrite (x : CoreIn) (s : State) : Res :=
  let c := x.core
  match findIdx? (fun r : RemoteWr => r.dst == c.val) s.remote with
  | none => .next s
  | some i =>
    match s.remote[i]? with
    | none => .next s
    | some r =>
      let e := remoteCheck s r
      if !coreRuns s c then .next s
      else
      let s := { s with remote := s.remote.eraseIdx i }
      if e = 0 then .next (if x.parity then remotePoison r s else spWriteBytes c r.mem r.off r.data s)
      else .next { s with remoteRef := s.remoteRef ++ [{ src := r.src, ch := r.ch, status := e }] }

/-- A refusal returns to its sender, whose channel halts with "remote refused" and the refusing core's code in COR_TRAP_REC5, IMEM busy
among them (R134; R75 would put that code into COR_MOV_CH; DESIGN CHOICE, log entry 70). A write that a fence turned back halts it
as fenced (R135, R273). -/
def execRemoteRefusal (c : Fin 4352) (s : State) : Res :=
  match findIdx? (fun r : RemoteRef => r.src == c.val) s.remoteRef with
  | none => .next s
  | some i =>
    match s.remoteRef[i]? with
    | none => .next s
    | some r =>
      if !coreRuns s c then .next s
      else
      let s := { s with remoteRef := s.remoteRef.eraseIdx i }
      match (movGet s c r.ch).active with
      | none => .next s
      | some d => .next (mvFail c r.ch (if r.status = 0x0502 then 0x0502 else 0x0402) r.status d s)

/-- A descriptor retires when every write has taken effect: TS is incremented, and RTK on the destination core
(R113, R134). -/
def execMovDescriptorRetire (c : Fin 4352) (ch : Fin 8) (s : State) : Res :=
  let m := movGet s c ch
  let away := s.remote.any (fun r => r.src == c.val && r.ch == ch.val) ||
    s.remoteRef.any (fun r => r.src == c.val && r.ch == ch.val)
  match m.active with
  | none => .next s
  | some d =>
    if !m.moved || away || !coreRuns s c then .next s
    else
      let s := mvupd c ch (fun m => { m with active := none, moved := false }) s
      let s := tallyCore c 0x0131 1 none (tkAdd c (cmdTS d.w0) 1 3 d.pc d.w0 s)
      .next (match remoteDst s c (mvDaddr d) with
        | .inl dst => if mvDkind d = 6 then tkAdd dst (mvRtk d) 1 3 d.pc d.w0 s else s
        | .inr _ => s)

/-- A write of 1 to COR_MOV_CH.HALT acts as MOVCLR (R135). -/
def writeMovCh (c ch : Nat) (w : Word) (s : State) : State := if wBit w 15 then movClr c ch s else s

def execMovChHaltWrite (c : Fin 4352) (ch : Fin 8) (w : Word) (s : State) : Res := .next (writeMovCh c ch w s)

end Sys2Proof.Machine
end

