-- ==== Sys2Proof/Machine/Net.lean ====
section
/-! DEFINITION. Master ports, target admission, retries and grants, responses, map commits and route loads (R272 to R282). -/

namespace Sys2Proof.Machine

/-! ## Interface checks (R273 to R276) -/

/-- Who a port's request comes from. `p` is the partition of the job of a hub agent, the host port or a fabric port. -/
def portWho (s : State) (q : Nat) (p : Option Nat) : Who :=
  if q < 4352 then coreWho s q
  else if q < 4388 then .priv
  else
    match p with
    | some i => .part i
    | none => .priv

/-- The refusal of a request at its interface. The page mover may write protected areas (R276); maintenance steps are exempt
from R420. -/
def netRefusal (s : State) (q : Nat) (p : Option Nat) (addr len : Nat) (write : Bool) : Option (Nat × Nat) :=
  let v := ifaceState s q
  let v := if 4384 ≤ q && q < 4388 then { v with parts := v.parts.map (fun e => (e.1, { e.2 with conf := false })) } else v
  tgtRefusal v (portWho v q p) (dpaTgt v addr) len (write && !(4388 ≤ q && q < 4392))

/-- The target of an admission and the offset in its memory: a column; 10 000 + 32 · cluster + bank; 30 000 + package; none for
another. -/
def admAt (s : State) (q addr : Nat) : Option (Nat × Nat) :=
  match dpaTgt (ifaceState s q) addr with
  | .slice c off => some (colOf c off, off)
  | .sram k off => some (10000 + 32 * k + off / 64 % 32, off)
  | .tier2 off => some (30000 + t2Package off, off)
  | _ => none

/-- The target of a transaction as its port translated it at issue (R272, R274). -/
def txTgt (t : NetTx) : Tgt :=
  if t.key < 10000 then .slice (t.key / 2) t.off
  else if t.key < 30000 then .sram ((t.key - 10000) / 32) t.off
  else .tier2 t.off

/-- The node of a target. -/
def admNode (key : Nat) : Nat :=
  if key < 10000 then cluNode (coreClu (key / 2)) else if key < 30000 then cluNode ((key - 10000) / 32) else 256 + (key - 30000) / 6

/-- The cluster that counts a target's lapses; none for a hub. -/
def admClu (key : Nat) : Option Nat :=
  if key < 10000 then some (coreClu (key / 2)) else if key < 30000 then some ((key - 10000) / 32) else none

/-- Records a refusal in the registers of the master's cluster, or at its hub. -/
def netRefused (q reason : Nat) (p : Option Nat) (s : State) : State :=
  match portClu q with
  | none => hubRefused (portNode q - 256) reason (portWho s q p) s
  | some k =>
    let v := whoBits (portWho s q p)
    tallyClu k 0x0402 1 (some { part := v.1, engine := if q < 4352 then 8 else 18, site := if q < 4352 then coreSite q else 0,
                                level := if v.2 then 0 else 3, cls := 0, addr := none })
      (cluSet k 0x258 (BitVec.ofNat 32 (2 ^ 31 + reason * 2 ^ 28 + v.1 * 2 ^ 22 + b2n v.2 * 2 ^ 21 +
          (if q < 4352 then coreSite q else 0) * 2 ^ 16))
        (cluUpd k 0x254 (fun w => wSatAdd w 7 0 1) s))

/-! ## Issue (R281) -/

def setTxs (l : List NetTx) (s : State) : State := { s with net := { s.net with txs := l } }

/-- Changes a transaction. -/
def txUpd (id : Nat) (f : NetTx → NetTx) (s : State) : State :=
  setTxs (s.net.txs.map (fun t => if t.id = id then f t else t)) s

def txFind (s : State) (id : Nat) : Option NetTx := s.net.txs.find? (fun t => t.id == id)

/-- The ENGINE code of a port outside the cores (Table RAS.4). -/
def portEngine (q : Nat) : Nat := if q < 4388 then 18 else if q < 4392 then 14 else if q = 4392 then 17 else 16

/-- What a transaction carries for the counters (R444, Table CNT.4). -/
def netTx (s : State) (t : NetTx) : Option Tx :=
  if t.port < 4352 then coreTx s t.port 8 t.cls (some t.addr)
  else some { part := if t.part = 64 then 0 else t.part, engine := portEngine t.port, site := 0
              level := if t.port < 4392 then 0 else if t.port = 4392 then (if t.part = 64 then 1 else 2) else 3
              cls := t.cls, addr := some t.addr }

/-- The WEIGHT of a port's requests (R277). -/
def portWeight (s : State) (q : Nat) : Nat := if q < 4352 then otWeight s q else (Config.portWeight q).toNat

/-- A refusal of a port's request at its interface: one of R276 is counted and recorded. -/
def refuseCount (q : Nat) (p : Option Nat) (addr st r : Nat) (s : State) : State :=
  if st ≠ 0x0401 then s
  else netRefused q r p ((if q = 4392 then hostRaw addr else countRaw) (dpaTgt s addr) r s)

/-- What a refused request's master has. -/
def refusedTx (st : Nat) (t : NetTx) : NetTx := { t with st := 6, status := st, resp := none }

/-- Sends a waiting request that can take a slot: its target and both paths are fixed as they stand at issue. One that its interface
now refuses is answered there (R273, R276), and one that no route reaches completes as Fenced. One that crosses a lost die stays at its
port until the masks exclude the die. -/
def txSend (id : Nat) (s : State) : State :=
  match txFind s id with
  | none => s
  | some t =>
    if t.st ≠ 0 then s
    else
      match netRefusal s t.port (if t.part = 64 then none else some t.part) t.addr t.len t.write, admAt s t.port t.addr with
      | some (st, r), _ => refuseCount t.port (if t.part = 64 then none else some t.part) t.addr st r (txUpd id (refusedTx st) s)
      | none, none => s
      | none, some (key, off) =>
        let n := slotFor s t.port
        if n = 0 then s
        else
          match netRoutes s (portNode t.port) (admNode key) with
          | none => txUpd id (refusedTx 0x0502) s
          | some (l, m, esc) =>
            if crossesLost s (l ++ m) then s
            else
              let s := txUpd id (fun t => { t with st := 1, slot := n, key := key, off := off, out := l, back := m, esc := esc
                                                   mask := pathTowers (l ++ m) }) s
              match portClu t.port with
              | some k => tallyClu k 0x0400 1 (netTx s t) s
              | none => s

/-- Every request that waits at its port and can take a slot is sent, oldest first. -/
def netPump (s : State) : State := (s.net.txs.map (fun t => t.id)).foldl (fun s id => txSend id s) s

/-- The NCLK cycles that an event brings (R277; log entry 202). -/
def netTick (n : Nat) (s : State) : State := { s with net := { s.net with now := s.net.now + n } }

/-- The AGE of a transaction, in units of 16 NCLK (R277). -/
def txAge (s : State) (t : NetTx) : Nat := min 1023 ((s.net.now - t.born) / 16)

/-- A request as its master port creates it. Reads, writes and atomics are packets of class request (Table NOC.3). -/
def newTx (s : State) (q part addr len : Nat) (data : Option (List Byte)) (atom : Option AtomicOp) : NetTx :=
  { id := s.net.nextId, port := q, part := part, addr := addr, len := len, write := data.isSome, atom := atom
    data := data.getD (zeros len), cls := 0, weight := portWeight s q, born := s.net.now, st := 0, slot := 0, entry := 0, key := 0
    off := 0, out := [], back := [], esc := false, mask := 0, ans := 0, status := 0, resp := some [], poison := false }

/-- REQUEST_ISSUE: a port creates a request of up to 256 bytes. `data` is present for a write, and the operand of an atomic. A refused
request is answered at the interface; any other waits until it holds a slot. -/
def requestIssue (q : Nat) (p : Option Nat) (addr len : Nat) (data : Option (List Byte)) (atom : Option AtomicOp) (s : State) :
    State :=
  let part : Nat := match portWho s q p with
    | .part i => i
    | _ => 64
  let t := newTx s q part addr len data atom
  let s := { s with net := { s.net with nextId := s.net.nextId + 1 } }
  match netRefusal s q p addr len data.isSome with
  | some (st, r) => refuseCount q p addr st r (setTxs (s.net.txs ++ [refusedTx st t]) s)
  | none => netPump (setTxs (s.net.txs ++ [t]) s)

def execRequestIssue (q : Fin 4409) (p : Option (Fin 64)) (addr : Fin (2 ^ 48)) (len : Fin 257) (nclk : Nat)
    (data : Option (List Byte)) (atom : Option AtomicOp) (s : State) : Res :=
  let n := match atom, data with
    | some op, _ => atomicBytes op
    | none, some d => d.length
    | none, none => len
  let ok := decide (0 < n) && decide (n ≤ 256) && (match atom with
    | some op => data.any (fun d => d.length == atomicBytes op) && addr.val % n == 0
    | none => true)
  if ok then .next (requestIssue q (p.map Fin.val) addr n data atom (netTick nclk s)) else .fault .noSuchAddress

/-! ## Admission (R279, R281) -/

/-- The transactions that hold an entry at a target. -/
def atTarget (s : State) (key : Nat) : List NetTx := s.net.txs.filter (fun t => t.entry != 0 && t.key == key)

/-- The entry that a request takes at its target: 1 floor, 2 shared, 0 none. A column queues 16 requests (R153); a package admits
192, of which two are held for every partition with traffic waiting there, and a floor entry is taken only when no shared one
is free. The capacity of an SRAM bank is not given: `full` says that it has no entry free. -/
def entryFor (s : State) (t : NetTx) (key : Nat) (full : Bool) : Nat :=
  let l := atTarget s key
  if key < 10000 then (if l.length < 16 then 2 else 0)
  else if key < 30000 then (if full then 0 else 2)
  else
    let waiting := ((s.net.txs.filter (fun u => u.slot != 0 && u.st != 6 && u.key == key)).map (fun u => u.part)).eraseDups
    if (l.filter (fun u => u.entry == 2)).length + 2 * waiting.length < 192 then 2
    else if (l.filter (fun u => u.entry == 1 && u.part == t.part)).length < 2 then 1 else 0

/-- The sectors of a tier-2 access: offset and length within each, and what it writes. -/
def sectorsOf (id off : Nat) (d : Option (List Byte)) : Nat → Nat → List T2Req
  | 0, _ => []
  | fuel + 1, n =>
    if n = 0 then []
    else
      let m := min n (64 - off % 64)
      { id := id, off := off, len := m, data := d.map (fun x => x.take m) } ::
        sectorsOf id (off + m) (d.map (fun x => x.drop m)) fuel (n - m)

/-- The rows of its target's column that a request touches. -/
def colRows (col off n : Nat) : List Nat :=
  (((List.range ((off + n - 1) / 64 - off / 64 + 1)).map (fun i => off / 64 * 64 + 64 * i)).filter
    (fun o => colOf ((col / 2)) o == col)).map rowOf |>.eraseDups

/-- Puts an admitted request into its pairs' queues, or its rows into its column's queue (R153); an SRAM bank serves it itself. -/
def toPairs (t : NetTx) (s : State) : State :=
  match txTgt t with
  | .tier2 off =>
    (sectorsOf t.id off (if t.write then some t.data else none) 6 t.len).foldl (fun s r =>
      pairSet (t2Key r.off) { pairGet s (t2Key r.off) with queue := (pairGet s (t2Key r.off)).queue ++ [r] } s) s
  | .slice c off =>
    let col := colOf c off
    colupd col (fun u => { u with queue := u.queue ++ (colRows col off t.len).map (fun r =>
      { id := t.id, row := r, passed := 0, counted := false, write := t.write || t.atom.isSome, who := 3 }) }) s
  | _ => s

def resvOf (s : State) (key : Nat) : List Nat := stGet (fun _ => []) s.net.resv key
def setResv (key : Nat) (l : List Nat) (s : State) : State :=
  { s with net := { s.net with resv := stSet (fun _ => []) s.net.resv key l } }

/-- The locator of the die of a target, and the hub that logs its errors. -/
def admDie (key : Nat) : Nat × Nat :=
  match admClu key with
  | some k => (srcTower (cluTower k), homeHub (cluTower k))
  | none => (srcIndex 1 ((key - 30000) / 6), (key - 30000) / 6)

/-- The entry of an arriving request read with a parity error in a crossing FIFO (R34): it is poison, and the error is logged as
one of the destination die. -/
def crossingError (t : NetTx) (s : State) : State :=
  crossErr (admDie t.key).1 (admDie t.key).2 (if t.part = 64 then none else some t.part) t.addr
    (txUpd t.id (fun t => { t with poison := true }) s)

/-- The port through which a request reaches its target's arbiter: the neighbour that it comes from, or at its own node its
master. -/
def inPort (t : NetTx) : Nat :=
  match t.out.reverse with
  | _ :: v :: _ => v
  | _ => 1000 + t.port

/-- The place of a transaction in the order of R278 at a target: AGE, then WEIGHT, then the input ports in turn after the one
served last. Lower is first. -/
def ageRank (s : State) (key : Nat) (t : NetTx) : Nat :=
  ((1023 - txAge s t) * 4 + (3 - t.weight)) * 8192 + (inPort t + 8191 - stGet (fun _ => 0) s.net.rr key) % 8192

/-- The first of some transactions in the order of R278. -/
def firstByAge (s : State) (key : Nat) (l : List NetTx) : Option NetTx :=
  l.foldl (fun b t => match b with
    | none => some t
    | some x => if ageRank s key t < ageRank s key x then some t else some x) none

/-- The retried request that a target admits next: the oldest of its reservations whose request still waits (R278, R279). -/
def grantPick (s : State) (key : Nat) : Option NetTx :=
  firstByAge s key (s.net.txs.filter (fun t => t.st == 4 && (resvOf s key).contains t.id))

/-- The entry that an arriving request takes: the one held for its grant, none that is free for an older reservation, or a free
one (R279). -/
def admEntry (s : State) (t : NetTx) (full : Bool) : Nat :=
  if t.entry ≠ 0 then t.entry
  else
    match grantPick s t.key with
    | some x => if x.id ≠ t.id && entryFor s x t.key full ≠ 0 then 0 else entryFor s t t.key full
    | none => entryFor s t t.key full

/-- A target admits a request that has arrived, or answers it with a retry and reserves it: of five entries the youngest is
dropped. A reissue that holds a grant takes the entry held for it. `parity` says that its entry arrived with a parity error. -/
def targetAdmit (id : Nat) (full parity : Bool) (s : State) : State :=
  match txFind s id with
  | none => s
  | some t =>
    if t.st ≠ 1 then s
    else
      let key := t.key
      let s := if parity then crossingError t s else s
      let e := admEntry s t full
      if e ≠ 0 then toPairs t (txUpd id (fun t => { t with st := 2, entry := e }) s)
      else
        let l := (resvOf s key).filter (fun i => i != id) ++ [id]
        let out := if 4 < l.length then [l.foldl max 0] else []
        let s := txUpd id (fun t => { t with st := 4 }) (setResv key (l.filter (fun i => !out.contains i)) s)
        let s := out.foldl (fun s i => txUpd i (fun t => { t with st := 3 }) s) s
        match portClu t.port with
        | some k => tallyClu k 0x0401 1 ((netTx s t).map (fun x => { x with addr := none })) (cluUpd k 0x254 (fun w => wSatAdd w 31 16 1) s)
        | none => s

def execTargetAdmit (id : Nat) (full parity : Bool) (s : State) : Res := .next (targetAdmit id full parity s)

/-! ## Service and grants -/

/-- A transaction is answered by its target: its entry frees and its response travels, after those sent before (R269). -/
def answer (id status : Nat) (resp : Option (List Byte)) (s : State) : State :=
  let n := s.net.answers + 1
  txUpd id (fun t => { t with st := 6, entry := 0, ans := n, status := status, resp := resp }) { s with net := { s.net with answers := n } }

/-- Writes the blocks of a range of a column or bank as stored poison. -/
def tgtPoison (tgt : Tgt) (n : Nat) (s : State) : State :=
  match tgt with
  | .slice c off => iter ((off + n - 1) / 64 - off / 64 + 1) (fun i s => t1PoisonBlk c (off / 64 * 64 + 64 * i) s) s
  | .sram k off => iter ((off + n - 1) / 64 - off / 64 + 1) (fun i s => csPoison k (off / 64 + i) s) s
  | _ => s

/-- A column or bank performs a poisoned request: a write stores poison, and a read or an atomic changes nothing and answers
poison. -/
def performPoison (t : NetTx) (s : State) : State :=
  if t.write && t.atom.isNone then
    answer t.id 0 (some []) (tgtPoison (txTgt t) t.len s)
  else answer t.id 0 none s

/-- The block at a slice offset as a transaction's delivered row holds it; one of a row that was not queued is read. -/
def rowBlock1 (id col c o : Nat) (s : State) : Option (List Byte) × State :=
  match (colget s col).outRows.find? (fun r => r.id == id && decide (colOf c o = col) && r.row == rowOf o) with
  | some r => (listAt r.blocks (o / 64 % 16) none, s)
  | none => t1ReadBlk c o s

def rowBlocks (id col c : Nat) : Nat → Nat → State → List (Option (List Byte)) × State
  | 0, _, s => ([], s)
  | n + 1, o, s =>
    let (d, s) := rowBlock1 id col c o s
    let (r, s) := rowBlocks id col c n (o + 64) s
    (d :: r, s)

/-- The bytes of a slice read from its delivered rows, or none if a block of them delivered poison. -/
def rowsBytes (id c off n : Nat) (s : State) : Option (List Byte) × State :=
  let (bs, s) := rowBlocks id (colOf c off) c ((off + n - 1) / 64 - off / 64 + 1) (off / 64 * 64) s
  if bs.all Option.isSome then (some (((bs.map (fun b => b.getD [])).flatten.drop (off % 64)).take n), s) else (none, s)

/-- Whether a queued request can be performed: at a column, a read once its rows have been delivered; a write while the column moves
rows, behind no earlier request to its rows, with a write-combining entry, or a window for one that is not whole blocks; an
atomic also while the core's NBU advances (R42, R152, R153, R162, R175). -/
def netReady (s : State) (t : NetTx) : Bool :=
  match txTgt t with
  | .slice c off =>
    let col := colOf c off
    let u := colget s col
    let mine := u.queue.filter (fun r => r.id == t.id && r.who == 3)
    if u.state = 2 then true
    else if !(t.write || t.atom.isSome) then mine.isEmpty && !u.inFlight.any (fun r => r.id == t.id)
    else
      let before := u.queue.takeWhile (fun r => !(r.id == t.id && r.who == 3))
      let whole := off % 64 == 0 && t.len % 64 == 0 && t.atom.isNone
      !colBlocked s col && !before.any (fun r => mine.any (fun m => m.row == r.row)) &&
        (if whole then decide (u.wc.length < 4) || mine.all (fun m => u.wc.any (fun e => e.row == m.row)) else windowOk s col) &&
        (t.atom.isNone || coreRuns s (col / 2))
  | _ => true

/-- A column or bank performs a queued request: a read, a write or an atomic. -/
def performNow (t : NetTx) (s : State) : State :=
  let tgt := txTgt t
  if t.poison then performPoison t s
  else match t.atom with
  | some op =>
    let back (r : Option Nat × State) : State := answer t.id 0 (r.1.map (leBytes t.len)) r.2
    match tgt with
    | .slice c off => back (t1Atomic (colOf c off) off op (leNat t.data) s)
    | .sram k off => back (csAtomic k off op (leNat t.data) (netTx s t) s)
    | _ => s
  | none =>
    if t.write then answer t.id 0 (some []) (tgtWrite tgt t.data (netTx s t) s)
    else
      let r := match tgt with
        | .slice c off => rowsBytes t.id c off t.len s
        | _ => tgtRead tgt t.len (netTx s t) s
      answer t.id 0 r.1 r.2

/-- The same, after which none of its rows is kept. -/
def perform (t : NetTx) (s : State) : State :=
  let s := performNow t s
  if s.cols.any (fun e => e.2.queue.any (fun r => r.who == 3 && r.id == t.id) || e.2.outRows.any (fun r => r.id == t.id)) then
    dropRows (fun i => i == t.id) s
  else s

/-- What a target finishes next: at a bank the first in the order of R278, at a column, which orders its rows itself (R153), the
oldest that is ready; a pair scheduler serves the packages. -/
def nextServed (s : State) (key : Nat) : Option NetTx :=
  let l := (atTarget s key).filter (fun t => t.st == 2 && netReady s t)
  if 30000 ≤ key then none else if 10000 ≤ key then firstByAge s key l else l.head?

/-- A target's arbiter has served an input port (R278). -/
def served (key : Nat) (t : NetTx) (s : State) : State :=
  { s with net := { s.net with rr := stSet (fun _ => 0) s.net.rr key (inPort t) } }

/-- A free entry is granted to the oldest reserved request's master and held for it; reservations of requests that no longer wait go
(R278, R279). -/
def grantFree (key : Nat) (s : State) : State :=
  let pick := grantPick s key
  let e := (pick.map (fun t => entryFor s t key false)).getD 0
  let won (i : Nat) : Bool := e != 0 && pick.any (fun t => t.id == i)
  if (resvOf s key).isEmpty then s
  else
    let s := setResv key ((resvOf s key).filter (fun i => (txFind s i).any (fun t => t.st == 4) && !won i)) s
    match pick with
    | some t => if e = 0 then s else served key t (txUpd t.id (fun t => { t with st := 5, entry := e }) s)
    | none => s

/-- GRANT: the target finishes a queued request, and the entry that frees, or one that is free, goes to the oldest reservation. -/
def grant (key : Nat) (s : State) : State :=
  grantFree key (match nextServed s key with
    | some t => if 10000 ≤ key then served key t (perform t s) else perform t s
    | none => s)

def execGrant (x : TargetAt) (s : State) : Res := .next (grant x.key (netTick x.nclk s))

/-- A held grant lapses: the entry frees, and the lapse counts in the target's cluster, or at its hub. -/
def execGrantLapse (id : Nat) (s : State) : Res :=
  match txFind s id with
  | none => .next s
  | some t =>
    if t.st ≠ 5 then .next s
    else
      let s := txUpd id (fun t => { t with st := 3, entry := 0 }) s
      .next (match admClu t.key with
        | some k => cluUpd k 0x254 (fun w => wSatAdd w 15 8 1) s
        | none => hubStatUpd ((t.key - 30000) / 6) (fun w => wSatAdd w 15 8 1) s)

/-- A master reissues a request: on its grant, or after a retry without a reservation. -/
def execRetryReissue (id : Nat) (s : State) : Res :=
  .next (txUpd id (fun t => if t.st = 3 || t.st = 5 then { t with st := 1 } else t) s)

/-- Whether a response is the next that its master receives from its target: those of one target node that use the same kind of
channel arrive in the order sent (R269). -/
def respNext (s : State) (t : NetTx) : Bool :=
  t.ans == 0 || s.net.txs.all (fun u => !(u.port == t.port && u.st == 6 && u.esc == t.esc && admNode u.key == admNode t.key &&
    u.ans != 0 && decide (u.ans < t.ans)))

/-- The locator of the die of a master port, and the hub that logs its errors. -/
def portDie (q : Nat) : Nat × Nat :=
  let v := portNode q
  if v < 256 then (srcTower (nodeTower v), homeHub (nodeTower v)) else (srcIndex 1 (v - 256), v - 256)

/-- A response reaches its master: the slot frees, and requests that waited for it are sent. A parity error where it leaves a crossing
makes its data poison (R34). -/
def respReceive (t : NetTx) (parity : Bool) (s : State) : State :=
  let s := if parity then
    crossErr (portDie t.port).1 (portDie t.port).2 (if t.part = 64 then none else some t.part) t.addr s else s
  netPump (startTrains { s with net := { s.net with
    txs := s.net.txs.filter (fun u => u.id != t.id)
    resv := (s.net.resv.map (fun (e : Nat × List Nat) => (e.1, e.2.filter (fun i => i != t.id)))).filter (fun e => !e.2.isEmpty)
    recv := stIns t.port (t.status, if parity then none else t.resp) (stDel s.net.recv t.port) } })

def execResponseReceive (x : RespIn) (s : State) : Res :=
  match txFind s x.id with
  | none => .next s
  | some t => .next (if t.st = 6 && respNext s t then respReceive t x.parity s else s)

/-! ## Maps, tables and slots -/

/-- The commits that a port's interface has taken of those that some interface still has to take. -/
def commitsTaken (s : State) (q : Nat) : Nat := stGet (fun _ => 0) s.net.moved q

/-- A port takes the next map commit of its queue; a commit that every port has taken is done (R267, R274). -/
def takeCommit (q : Nat) (s : State) : State :=
  let m := stSet (fun _ => 0) s.net.moved q (commitsTaken s q + 1)
  if m.length = nPorts then
    { s with net := { s.net with oldMaps := s.net.oldMaps.drop 1
                                 moved := (m.map (fun e => (e.1, e.2 - 1))).filter (fun e => e.2 != 0) } }
  else { s with net := { s.net with moved := m } }

/-- A map commit reaches the interface of a port. -/
def execMapCommit (q : Fin 4409) (s : State) : Res :=
  if commitsTaken s q < s.net.oldMaps.length then .next (netPump (takeCommit q s)) else .next s

/-- Every router and interface holds the tables and masks that are due (R272); requests held for them go on, and
a planned retraining that no packet crosses any more starts. -/
def execRouteTableLoad (s : State) : Res := .next (netPump (startTrains (routeLoad s)))

/-- A write of NOC_CORE_OT: ignored while the partition lock over the cluster is closed. -/
def writeCoreOt (c : Nat) (w : Word) (s : State) : State :=
  if cluLocked s (coreClu c) then s else writeOt c (wFld w 15 8) (wFld w 23 16) (wFld w 25 24) s

def execCoreOtWrite (c : Fin 4352) (w : Word) (s : State) : Res := .next (writeCoreOt c w s)

/-! ## Tier-2 pairs (R240 to R242) -/

/-- The requests of a queue that the scheduler may issue: those to the open row while it is held, else all, of the sixteen
oldest; never one behind another to its own sector. -/
def t2Cands (u : T2Pair) : List (Nat × T2Req) :=
  let l := ((u.queue.take 16).zipIdx.map (fun e => (e.2, e.1)))
  let ok := l.filter (fun e => !l.any (fun x => decide (x.1 < e.1) && x.2.off / 64 == e.2.off / 64))
  match u.row with
  | some r =>
    let hit := ok.filter (fun e => t2Unit e.2.off == r)
    if u.hits < 64 && !hit.isEmpty then hit else ok
  | none => ok

/-- Performs a sector access. `err` is 1 for a corrected link error, 2 for one that persists and 3 for a parity error in the crossing
between hub and package (R34): the access then completes with poison, and a sector so written holds poison, as does one that a poisoned request writes. -/
def t2Serve (r : T2Req) (err : Nat) (s : State) : State :=
  let lost (part : Option Nat) (s : State) : State :=
    if err = 3 then crossErr (srcIndex 1 (t2Hub r.off)) (t2Hub r.off) part (2 ^ 44 + r.off) s else t2Poisoned r.off part s
  let part : Option Nat := (txFind s r.id).bind (fun t => if t.part = 64 then none else some t.part)
  let tx : Option Tx := (txFind s r.id).bind (netTx s)
  let s := if err = 1 then t2Corrected r.off part s else s
  match r.data with
  | some d =>
    if (txFind s r.id).any (·.poison) then { s with t2poison := nsAdd s.t2poison (r.off / 64) }
    else if 2 ≤ err then
      let s := lost part s
      txUpd r.id (fun t => { t with resp := none }) { s with t2poison := nsAdd s.t2poison (r.off / 64) }
    else t2Write r.off d tx s
  | none =>
    let (d, s) := t2Read r.off r.len tx s
    if (txFind s r.id).any (·.poison) then txUpd r.id (fun t => { t with resp := none }) s
    else if 2 ≤ err then txUpd r.id (fun t => { t with resp := none }) (lost part s)
    else if t2Bad s r.off r.len then txUpd r.id (fun t => { t with resp := none }) (t2Poisoned r.off part s)
    else txUpd r.id (fun t => { t with data := putBytes t.data (r.off - t.off) d }) s

/-- A transaction whose sectors have all been served is answered. -/
def t2Close (id : Nat) (s : State) : State :=
  if s.t2q.any (fun e => e.2.queue.any (fun r => r.id == id)) then s
  else
    match txFind s id with
    | none => s
    | some t => answer id 0 (if t.resp.isNone then none else if t.write then some [] else some t.data) s

/-- Whether a pair's next access is due to maintenance that waits: it gets one of every 64 (R281). -/
def t2Due (u : T2Pair) : Bool := u.mntWait != 0 && decide (63 * u.mntWait ≤ u.mntGap)

/-- A pair after the access at place `i`: the row stays open while a request among the sixteen oldest hits it, up to 64 sectors, and
is closed otherwise (R240). -/
def t2Issue (u : T2Pair) (i : Nat) (r : T2Req) : T2Pair :=
  let w := t2Unit r.off
  let n := if u.row == some w then u.hits + 1 else 1
  let q := u.queue.eraseIdx i
  let open' := decide (n < 64) && (q.take 16).any (fun x => t2Unit x.off == w)
  { u with queue := q, row := if open' then some w else none, hits := if open' then n else 0, mntGap := min 8192 (u.mntGap + 1) }

/-- A pair scheduler issues the oldest ready request. `busy` lists the requests whose bank or turnaround is not ready, by place
in the queue. With none to issue, a link error waits for the pair's next access outside the queue. DESIGN CHOICE (log entry 201). -/
def execT2Access (pair : Fin 48) (busy : BitVec 16) (err : Fin 4) (s : State) : Res :=
  let u := pairGet s pair
  if t2Due u then .next s
  else match (t2Cands u).find? (fun e => !busy.getLsbD e.1) with
  | none => .next (if err = 0 then s else pairSet pair { u with link := err } s)
  | some (i, r) =>
    let same := u.row == some (t2Unit r.off)
    let s := pairSet pair (t2Issue u i r) s
    let s := if same then s else tallyHub (t2Hub r.off) 0x0502 1 none s
    .next (t2Close r.id (t2Serve r err s))

/-- The drift of a package's pairs since their last training, in 1/16 of a unit interval, is read; a pair beyond one is
retrained. Data transfers pause for at most 1.5 µs, and no request is lost. -/
def execT2DriftCheck (pkg : Fin 24) (drift : List Nat) (s : State) : Res :=
  if quarterAbsent s (pkg.val / 6) then .next s
  else .next (iter 2 (fun i s =>
    let d := listAt drift i 0
    pairSet (2 * pkg + i) { pairGet s (2 * pkg + i) with drift := if 1 < d then 0 else d } s) s)

/-- The bank of a 4 KiB unit within its pair: bank group · 4 + bank. -/
def unitBank (w : Nat) : Nat := w / 12 % 4 * 4 + w / 48 % 4

/-- A per-bank refresh falls due and is issued on its pair: the banks take turns, and a refreshed bank's row is closed. -/
def execT2Refresh (pair : Fin 48) (s : State) : Res :=
  let h := pair.val / 12
  if hubAbsent s h then .next s
  else
    let u := pairGet s pair
    let closes := u.row.any (fun w => unitBank w == u.refBank)
    .next (tallyHub h 0x0503 1 none (pairSet pair { u with
      refBank := (u.refBank + 1) % 16, row := if closes then none else u.row, hits := if closes then 0 else u.hits } s))

end Sys2Proof.Machine
end

