-- ==== Sys2Proof/Machine/Regs.lean ====
section
/-! DEFINITION. Register access: what a register reads as, what a write of any register does, and the answers of the owning
hardware (R7, R8, R23, R24, R288, R292, R293, R297, R445, Tables SCP.4, HOST.4 to HOST.6 and the register tables). -/

namespace Sys2Proof.Machine

/-! ## What registers read as -/

def word (v : Nat) : Word := BitVec.ofNat 32 v

/-- GLB_BOOT_STAT (Table BOOT.9). -/
def bootStat (s : State) : Word :=
  word (b2n s.booted * 2 ^ 31 + b2n (s.fatal || s.boot.stopped) * 2 ^ 30 + b2n s.boot.warm * 2 ^ 29 +
    min (s.boot.next.getD s.stage) 15 * 2 ^ 16 + s.boot.result % 256 * 2 ^ 8)

/-- GLB_PIN_STAT (Table ELEC.8). READY_N is asserted while DONE is 1 and FATAL is 0, up to the first cycle of a reset; both
outputs are high impedance while VAUX is down (R459, Table ELEC.6). -/
def pinStat (s : State) : Word :=
  let ready := s.booted && !s.fatal && !s.boot.stopped && !s.pwr.rst && !s.pwr.descend && !s.pwr.inReset && s.pwr.vaux
  word (b2n ready * 32 + b2n (s.faultN && s.pwr.vaux) * 16 + b2n (!s.pwr.lidOpen) * 8 + b2n s.pwr.flowLvl * 4 +
    wFld (rget s (thmBase + 0xC)) 1 1 * 2 + b2n s.pwr.refOk)

/-- HP_WIN_STAT of a window (Table HOST.22). -/
def winStat (s : State) (w : Nat) : Word :=
  let u := wget s w
  let st := if u.stalled then 1 else if s.fatal || !s.booted then 2 else 0
  word (st * 2 ^ 30 + min u.queue.length 127 * 2 ^ 23 + u.head % 1024)

def viewGlb (s : State) (o : Nat) : Word :=
  if o = 0x40 then bootStat s
  else if o = 0x44 then word (b2n s.boot.fireWrap * 2 ^ 31 + s.boot.fireNext % 8192)
  else if o = 0x50 then pinStat s
  else if o = 0x100 then wPut (rget s o) 13 13 (b2n s.sec.ideLink)
  else if 0x1000 ≤ o && o < 0x1400 && o % 16 = 0 then winStat s ((o - 0x1000) / 16)
  else rget s o

/-- An error record in its slot (Table RAS.4). While readings of its partition are coarsened, ADDR and DETAIL read zero
(R430). -/
def logBytes (s : State) (r : ErrRec) : List Byte :=
  let hide := r.pvalid && coarseP s r.part
  leBytes 4 r.seq ++ leBytes 1 (r.cls % 4 + r.st % 8 * 4) ++
    leBytes 1 (r.part % 64 + b2n r.pvalid * 64 + b2n (!r.pvalid) * 128) ++ leBytes 2 r.code ++ leBytes 8 r.time ++
    leBytes 8 r.last ++ leBytes 4 r.source ++ leBytes 1 r.engine ++ [0] ++ leBytes 2 r.logical ++
    leBytes 8 (if hide then 0 else r.addr) ++ leBytes 4 r.rep ++ leBytes 4 (if hide then 0 else r.detail) ++ zeros 16

/-- A word of a hub's error log; an empty slot reads zero. -/
def viewErrLog (s : State) (h o : Nat) : Word :=
  match (hget s h).log.find? (fun e => e.1 == o / 64) with
  | some e => word (leAt (logBytes s e.2) (o % 64) 4)
  | none => 0

def viewFire (s : State) (o : Nat) : Word := if o < 0x80000 then word (leNat (memRead s.boot.fire o 4)) else 0

/-- THM_LAYER_STAT of the selected layer (Table THM.9). -/
def layerStat (s : State) : Word :=
  let sel := rget s (thmBase + 0x140)
  let n := wFld sel 6 3
  let m := wFld sel 2 0
  let l := layTh s n m
  let bad := sumNat ((List.range 4).map (fun d => if nsHas s.therm.brk (chLay n m d) then 2 ^ d else 0))
  word (tempBits (l.pred / 250000) * 2 ^ 21 + tempBits l.meas * 2 ^ 10 + b2n l.hot * 512 + b2n l.suspect * 256 + bad * 16)

def viewThm (s : State) (o : Nat) : Word :=
  let sel := rget s (thmBase + 0x1D0)
  if o = 0x8 then (if coarseAny s then word (stGet (fun _ => 0) s.pwr.powCoarse 0 % 65536) else rget s (thmBase + 8))
  else if 0x80 ≤ o && o < 0xC0 then
    (if coarseAny s then wPut (rget s (thmBase + o)) 31 19 (stGet (fun _ => 0) s.pwr.powCoarse ((o - 0x80) / 4 + 1))
     else rget s (thmBase + o))
  else if o = 0x144 then layerStat s
  else if o = 0x154 then word (pkgEff s % 8192)
  else if o = 0x1D4 then (if wFld sel 1 0 = 3 then 0 else word (listAt (twTh s (wFld sel 5 2)).cone (wFld sel 1 0) 0))
  else if o = 0x1D8 then word (lifePpm (twTh s (wFld sel 5 2)).cone)
  else rget s (thmBase + o)

/-- SEC_TDI of a partition (Table SEC.13). -/
def secTdi (s : State) (p : Nat) : Word :=
  let q := pget s p
  if q.state = 0 then word (q.tdi % 4 * 2 ^ 28)
  else word (b2n q.conf * 2 ^ 31 + b2n (coarseP s p) * 2 ^ 30 + q.tdi % 4 * 2 ^ 28 + b2n q.ide * 2 ^ 16 + (p + 1) * 256)

def viewSec (s : State) (o : Nat) : Word :=
  if o = 4 then wPut (rget s (secBase + 4)) 31 31 (b2n s.pwr.lidOpen)
  else if 0x100 ≤ o && o < 0x200 && o % 4 = 0 then secTdi s ((o - 0x100) / 4)
  else rget s (secBase + o)

/-- TWR_EDGE of edge e (N, E, S, W as 0 to 3) of a tower (Table PKG.14). A lost die's edges read down (R24); an edge trains while
stage 4 runs, and no spare is in use before it. -/
def edgeStat (s : State) (n e : Nat) : Word :=
  let i := (twEdge n e).1
  let st := if !edgeEnds s i then 0 else if stageDue s 4 then 1 else if edgeTraining s i then 3 else if edgeUp s i then 2 else 0
  let used := if s.stage < 4 then 0 else sumNat ((List.range 24).map (fun g => (brgGrp s (24 * i + g)).sp.length))
  let w := rget s (towerBase n + 0x10 + 4 * e)
  wPut (wPut (wPut w 25 24 st) 23 20 (min (groupsUp s (2 * i)) (groupsUp s (2 * i + 1)))) 15 8 (min used 255)

/-- The lane that a spare replaces, 0x7F for none. -/
def spareFor (g : LaneGrp) (i : Nat) : Nat := ((g.sp.find? (fun e => e.1 == i)).map Prod.snd).getD 0x7F

/-- TWR_BOND_STAT of the selected group (Table BOOT.12). -/
def bondStat (s : State) (n : Nat) : Word :=
  let sel := rget s (towerBase n + 0x200)
  if 16 < wFld sel 13 9 || 133 < wFld sel 7 0 then 0
  else
    let col := 2 * (17 * (16 * n + wFld sel 17 14) + wFld sel 13 9) + wFld sel 8 8
    let g := bondGrp s (134 * col + wFld sel 7 0)
    word ((colget s col).state % 4 * 2 ^ 30 + min g.sp.length 3 * 2 ^ 28 + b2n (!g.bad.isEmpty) * 2 ^ 27 +
      spareFor g 1 % 128 * 2 ^ 20 + spareFor g 0 % 128 * 2 ^ 13 + g.bad.head?.getD 0x7F % 128 * 2 ^ 6)

/-- A bridge lane group: 12 · direction + group (Table BOOT.13). -/
def brgStat (s : State) (d g : Nat) : Word :=
  if 11 < g then 0
  else
    let u := brgGrp s (12 * d + g)
    word (b2n (nsHas s.boot.brgUp (12 * d + g)) * 2 ^ 31 + min u.sp.length 7 * 2 ^ 28 + spareFor u 3 % 128 * 2 ^ 21 +
      spareFor u 2 % 128 * 2 ^ 14 + spareFor u 1 % 128 * 2 ^ 7 + spareFor u 0 % 128)

/-- The direction that a bridge selection of a tower or a hub names: the DIR field's sending or receiving one. -/
def selDir (e : Nat × Bool) (dir : Nat) : Nat := if dir = 0 then dirSent e else dirRecv e

def viewTower (s : State) (n o : Nat) : Word :=
  let sel := rget s (towerBase n + 0x208)
  if 0x10 ≤ o && o < 0x20 && o % 4 = 0 then edgeStat s n ((o - 0x10) / 4)
  else if o = 0x204 then bondStat s n
  else if o = 0x20C then brgStat s (selDir (twEdge n (wFld sel 3 2)) (wFld sel 1 1)) (wFld sel 7 4)
  else rget s (towerBase n + o)

/-- The ring link that EDGE of HUB_BRG_SEL selects: 0 toward H(h + 1), 1 toward H(h − 1); none beyond. -/
def hubEdge (h e : Nat) : Option (Nat × Bool) :=
  if e = 0 then some (40 + h, true) else if e = 1 then some (40 + (h + 3) % 4, false) else none

/-- How many slots of a pool a hub's quarter holds and has free (R245): slot k lies in quarter k mod 4. -/
def quarterFree (q : Pool) (h : Nat) : Nat :=
  let below (n : Nat) : Nat := (n + 3 - h) / 4
  below (q.slot0 + q.nslot) - below q.slot0 - (q.used.filter (fun k => k % 4 == h)).length

/-- HUB_ERR_STAT (Table RAS.8). -/
def errStat (s : State) (h : Nat) : Word :=
  let u := hget s h
  word (min (ueOpen s h) 511 * 2 ^ 23 + min u.log.length 511 * 2 ^ 14 + min u.dropped 127 * 2 ^ 7 + min u.overwritten 127)

/-- MNT_STAT and MNT_PERIOD of the selected kind (Table RAS.11). -/
def mntStat (s : State) (h : Nat) : Word :=
  let k := wFld (rget s (hubBase h + 0x60000)) 5 0
  let u := mntKind s h k
  word (b2n u.running * 2 ^ 31 + min (mntPct s h k) 127 * 2 ^ 24 + min u.late 255 * 2 ^ 16 + min u.defer 65535)
def mntPeriod (s : State) (h : Nat) : Word :=
  let k := wFld (rget s (hubBase h + 0x60000)) 5 0
  let u := mntKind s h k
  word (if mntDefault k = 0 then 0 else if u.period = 0 then mntDefault k else u.period)

/-- NOC_ROUTE_STAT and the excluded edges (Table NOC.11). -/
def routeStat (s : State) : Word :=
  let n := s.net
  let esc := n.xHub != 0 || n.xTwr != 0 || !n.xPort.isEmpty
  let load := dueHub s != n.xHub || dueTwr s != n.xTwr || duePort s != n.xPort
  word (b2n esc * 2 ^ 31 + b2n load * 2 ^ 30 + n.xHub % 16 * 2 ^ 16 + n.xTwr % 65536)
def edgeOut (s : State) (i : Nat) : Bool :=
  if i < 40 then (List.range 4).any (fun j => nsHas s.net.xPort (4 * i + j)) else nsHas s.net.xPort (120 + i)
def edgesOut (s : State) (lo n : Nat) : Word :=
  word (sumNat ((List.range n).map (fun i => if edgeOut s (lo + i) then 2 ^ i else 0)))

/-- The registers of a device's fabric agents lie in H0's window alone; those of its ports in each hub's. -/
def fabDevice (o : Nat) : Bool := decide (0x40000 ≤ o) && decide (o < 0x40024)

def viewHub (s : State) (h o : Nat) : Word :=
  let lost (i : Nat) : Word :=
    let l := wFld (rget s (hubBase 0 + 0x40010)) 1 0
    if l = 0 then 0 else word (childMask s.fab.lost l / 2 ^ (32 * i))
  let sel := rget s (hubBase h + 0x208)
  if o = 0x20C then
    match hubEdge h (wFld sel 3 2) with
    | some e => brgStat s (selDir e (wFld sel 1 1)) (wFld sel 7 4)
    | none => 0
  else if 0x10100 ≤ o && o < 0x10500 then
    let q := poolGet s ((o - 0x10100) / 16)
    if o % 16 = 0 then word (q.slot0 % 2 ^ 30)
    else if o % 16 = 4 then word (q.nslot % 2 ^ 30)
    else if o % 16 = 8 then word (quarterFree q h)
    else if o % 16 = 12 then word (q.high % 65536 * 65536 + q.low % 65536) else 0
  else if fabDevice o && h ≠ 0 then 0
  else if o = 0x40014 then lost 0
  else if o = 0x40018 then lost 1
  else if o = 0x50000 then errStat s h
  else if o = 0x50004 then word (hget s h).nextSeq
  else if o = 0x50008 then
    match (hget s h).lastSlot with
    | some k => word (2 ^ 31 + k % 256)
    | none => 0
  else if o = 0x60004 then mntStat s h
  else if o = 0x60008 then mntPeriod s h
  else if h = 0 && o = 0x31000 then routeStat s
  else if h = 0 && o = 0x31004 then edgesOut s 0 32
  else if h = 0 && o = 0x31008 then edgesOut s 32 12
  else rget s (hubBase h + o)

/-- COR_MXE_STAT (Table MXE.12). -/
def mxeStat (m : MxeSt) : Word :=
  let runs (ops : List Nat) : Bool := m.queue.any (fun k => k.started && !k.finished && ops.contains (cmdOP k.w0))
  let half (i : Nat) : Bool := m.queue.any (fun k => k.started && !k.finished && decide (4 ≤ cmdOP k.w0) && mxHalf k.w0 == i)
  word (min m.queue.length 15 * 2 ^ 20 + b2n (half 1) * 2 ^ 17 + b2n (half 0) * 2 ^ 16 + b2n m.shadowFull * 2 ^ 11 +
    b2n (runs [2, 3]) * 2 ^ 10 + b2n (runs [1]) * 2 ^ 9 + b2n (runs [4, 5]) * 2 ^ 8 + m.lastOp % 16)

/-- COR_SEQ_STAT (Table TILE.19). -/
def seqStat (k : CoreSt) : Word :=
  let q := k.seq
  word (b2n k.ctlErr * 2 ^ 31 + q.wait % 8 * 2 ^ 19 + b2n q.busyFlag * 2 ^ 18 + b2n q.inTrap * 2 ^ 17 + b2n q.run * 2 ^ 16 +
    q.pc % 8192)

def viewCore (s : State) (c o : Nat) : Word :=
  let k := cget s c
  if o = 0 then word (b2n k.mapErr * 128 + b2n (!k.powering.isEmpty) * 4 + b2n k.unified * 2 + b2n k.halted)
  else if o = 0x100 then mxeStat k.mxe
  else if o = 0x204 then seqStat k
  else if 0x280 ≤ o && o < 0x2A0 && o % 4 = 0 then movWord (movGet s c ((o - 0x280) / 4))
  else if o = 0x2A4 then wPut (corReg s c o) 31 31 (b2n k.loadBusy)
  else corReg s c o

/-- KVD_GSTAT, KVD_ZERO and KVD_PRESS of a shard (Tables KV.13, KV.14, KV.16). -/
def kvGstat (q : PartSt) : Word :=
  let b (f : DirSt → Bool) : Nat := b2n (q.dir.any f)
  word (b (fun d => d.pend) * 2 ^ 31 + b (fun d => d.queued) * 2 ^ 30 + min (q.held.length + q.held2.length) 255 * 2 ^ 8 +
    b2n q.step.isSome)
def kvPress (s : State) (p : Nat) (w : Word) : Word :=
  let q := pget s p
  wPut (wPut (wPut w 31 31 (b2n q.preempt)) 30 30 (b2n q.stuck)) 29 29 (b2n (t2Low s p))

def viewClu (s : State) (k o : Nat) : Word :=
  let p := cluPart s k
  if o = 0x10C then kvGstat ((p.map (pget s)).getD PartSt.reset)
  else if o = 0x114 then word (stGet (fun _ => []) s.zeroQ k).length
  else if o = 0x11C then (match p with
    | some p => kvPress s p (cluReg s k o)
    | none => cluReg s k o)
  else if 0x200 ≤ o && o < 0x244 && o % 4 = 0 then
    let c := 17 * k + (o - 0x200) / 4
    wPut (cluReg s k o) 7 0 (min 255 (slotsHeld s (fun q => q == c) 1 + slotsHeld s (fun q => q == c) 2))
  else if o = 0x250 then word (cluPool s k % 1024 * 2 ^ 16 + cluPoolFree s k % 1024)
  else cluReg s k o

/-- NBU_STAT (Table SLICE.13). -/
def nbuStat (u : ColSt) : Word :=
  let b := u.nbu
  let runs (ops : List Nat) : Bool := b.queue.any (fun k => k.started && !k.performed && ops.contains (cmdOP k.w0))
  word (b2n (u.state == 2) * 2 ^ 31 + min b.queue.length 15 * 2 ^ 16 + b2n (!b.pin.isEmpty) * 512 + b2n (runs [1]) * 256 +
    b2n (runs [2, 3, 4, 5]) * 128 + b2n (nsHas b.qValid 1) * 32 + b2n (nsHas b.qValid 0) * 16 + b.lastOp % 16)

def viewNbu (s : State) (col o : Nat) : Word :=
  let u := colget s col
  let w := rget s (nbuBase col + o)
  let tag := (ftGet s col (wFld (rget s (nbuBase col + 0x20)) 12 0)).toNat
  if o = 0 then nbuStat u
  else if o = 0x18 then wPut (wPut w 9 8 u.rate) 2 0 u.owed
  else if o = 0x24 then word tag &&& 0xFFFF00FF
  else if o = 0x28 then word (tag / 2 ^ 32 % 65536)
  else w

/-! ## Counters (Table CNT.2, R430, R445, R447) -/

/-- A counter's value as a reader sees it: coarsened for any but its own partition. -/
def ctrSeen (s : State) (exact : Bool) (k : Nat) : Nat :=
  if !exact && coarseUnit s (ctrUnit k) then stGet (fun _ => 0) s.snap.coarse k % 2 ^ 48 else (ctrGet s k).val

/-- Reads a counter register; a read of CNT_VAL_LO latches the high half. -/
def readCtr (exact : Bool) (k o : Nat) (s : State) : Word × State :=
  let u := ctrGet s k
  if o = 0 then
    let v := ctrSeen s exact k
    (word v, ctrSet k { u with hiLatch := v / 2 ^ 32 } s)
  else
    (word (if o = 4 then u.hiLatch % 65536 else if o = 8 then b2n u.ovf * 2 ^ 31 + b2n u.owner * 2 ^ 30 + u.evt % 65536
      else if o = 0xC then u.filt else if o = 0x10 then u.master else if o = 0x14 then u.abase
      else if o = 0x18 then u.alim else 0), s)

/-- The counter of a snapshot-area offset (Table CNT.7). -/
def snapCtr (o : Nat) : Option Nat :=
  if 0x1000 ≤ o && o < 0x1400 then some (38912 + (o - 0x1000) / 8)
  else if 0x2000 ≤ o && o < 0xA000 then some (34816 + (o - 0x2000) / 8)
  else if 0x10000 ≤ o && o < 0x54000 then some ((o - 0x10000) / 8)
  else none

/-- A snapshot entry (R447). -/
def snapEntry (s : State) (exact : Bool) (k : Nat) : Nat :=
  let a := s.snap.area
  if !nsHas a.valid (ctrUnit k) then 0
  else
    let v := stGet (fun _ => 0) (if !exact && nsHas a.coarse (ctrUnit k) then a.low else a.vals) k
    v % 2 ^ 49 + b2n (nsHas a.late (ctrDie k)) * 2 ^ 49 + 2 ^ 63

def viewSnap (s : State) (exact : Bool) (o : Nat) : Word :=
  if o = 0x10 then word s.telem.head
  else if o = 0x14 then
    word (min s.telem.drop 65535 * 65536 + min s.telem.wdrop 255 * 256 + min s.telem.hold.length 255)
  else
    match snapCtr o with
    | some k => word (snapEntry s exact k / 2 ^ (o % 8 * 8))
    | none => rget s (snapBase + o)

def viewVf (s : State) (p o : Nat) : Word :=
  if o = 0x10000 then winStat s (64 + p)
  else if o = 0x10010 then word (partStat s p)
  else rget s (vfKey p o)

/-- What a register reads as, counters apart: an offset that no table lists reads zero, and so does a command window (R292,
R293, Table HOST.6). `exact` says that the reader is the partition that owns the unit. -/
def regView (s : State) (exact : Bool) (off : Nat) : Word :=
  let v := match locate off with
    | .glb o => viewGlb s o
    | .errLog h o => viewErrLog s h o
    | .fireLog o => viewFire s o
    | .thm o => viewThm s o
    | .snap o => viewSnap s exact o
    | .sec o => viewSec s o
    | .tower n o => viewTower s n o
    | .hub h o => viewHub s h o
    | .core c o => viewCore s c o
    | .clu k o => viewClu s k o
    | .nbu col o => viewNbu s col o
    | .vf p o => viewVf s p o
    | .win _ _ => 0
    | .ctr _ _ => 0
    | .none => 0
  let free : Bool := match locate off with
    | .errLog _ _ => true
    | .fireLog _ => true
    | .snap o => (snapCtr o).isSome
    | _ => false
  if free || (regRow off).isSome then v else 0

/-- The tower or hub whose hardware holds a register: its answer does not come while that die is lost, except that a home hub
answers for TWR_ID, TWR_EDGE and TWR_CLKMON (R24, Table HOST.6). -/
def regFenced (s : State) (off : Nat) : Bool :=
  match locate off with
  | .tower n o => nsHas s.lostTw n && decide (0x24 ≤ o)
  | .core c _ => nsHas s.lostTw (coreTower c)
  | .clu k _ => nsHas s.lostTw (cluTower k)
  | .nbu col _ => nsHas s.lostTw (coreTower (col / 2))
  | .hub h _ => hubAbsent s h
  | .errLog h _ => hubAbsent s h
  | .ctr k _ => if ctrDie k < 16 then nsHas s.lostTw (ctrDie k) else hubAbsent s (ctrDie k - 16)
  | _ => false

/-- Reads a register word. -/
def readReg (exact : Bool) (off : Nat) (s : State) : Word × State :=
  match locate off with
  | .ctr k o => readCtr exact k o s
  | _ => (regView s exact off, s)

/-- Reads `n` register words from an offset. -/
def readRegs (exact : Bool) (off : Nat) : Nat → State → List Byte × State
  | 0, s => ([], s)
  | n + 1, s =>
    let r := readReg exact off s
    let t := readRegs exact (off + 4) n r.2
    (leBytes 4 r.1.toNat ++ t.1, t.2)

/-! ## Writes (R7, R8) -/

/-- The RWL bits that a write sets: those whose partition lock is open (R8). -/
def rwlBits (s : State) (off : Nat) (r : RegRow) : Nat :=
  match locate off with
  | .clu k _ => if cluLocked s k then 0 else r.rwl
  | _ => r.rwl

/-- The plain write of Table SCP.4: RW and open RWL fields take the value, a 1 clears a W1C bit, RO and reserved bits stay. -/
def plainWrite (off : Nat) (w : Word) (s : State) : State :=
  match regRow off with
  | none => s
  | some r =>
    let m := word (r.rw ||| rwlBits s off r)
    rupd off (fun old => ((old &&& ~~~m) ||| (w &&& m)) &&& ~~~(w &&& word r.w1c)) s

/-- Sends a pending vector whose entry is no longer masked. -/
def flushVector (fn vec : Nat) (s : State) : State :=
  let key := (if fn = 0 then 0x10000 else vfKey (fn - 1) 0x1F000) + 4 * (vec / 32)
  if wBit (rget s key) (vec % 32) && !wBit (rget s (msixKey fn vec 3)) 0 && msixOn s fn && !nsHas s.d3 fn then
    fnSend fn (.msix fn vec) (rupd key (fun w => wPut w (vec % 32) (vec % 32) 0) s)
  else s

/-- A write of an MSI-X table word: unmasking a vector sends it if it is pending. -/
def writeMsix (fn i off : Nat) (w : Word) (s : State) : State :=
  let s := plainWrite off w s
  if i % 4 = 3 then flushVector fn (i / 4) s else s

/-- Registers that are taken only while the core is halted: another write is ignored and sets CTL_ERR. -/
def writeHalted (c off : Nat) (w : Word) (s : State) : State :=
  if (cget s c).halted then plainWrite off w s else setCtlErr c s

def writeCtrl (c : Nat) (w : Word) (s : State) : State :=
  let s := if wBit w 7 then cupd c (fun k => { k with mapErr := false }) s else s
  writeUnified c (wBit w 1) s

def writeCore (c o : Nat) (w : Word) (s : State) : State :=
  let off := coreBase c + o
  if o = 0 then writeCtrl c w s
  else if o = 0x10 || o = 0x14 || o = 0x18 then writeSlotMap c ((o - 0x10) / 4) w s
  else if o = 0x20 then writeProfile c w s
  else if 0x40 ≤ o && o < 0x60 && o % 4 = 0 then writeUniRegion c ((o - 0x40) / 4) w s
  else if o = 0x200 then writeSeqCtl c w s
  else if o = 0x204 then (if wBit w 31 then cupd c (fun k => { k with ctlErr := false }) s else s)
  else if o = 0x208 || o = 0x210 || (0x244 ≤ o && o < 0x280) || (0x404 ≤ o && o < 0x480) then writeHalted c off w s
  else if 0x224 ≤ o && o < 0x240 then s
  else if 0x280 ≤ o && o < 0x2A0 && o % 4 = 0 then writeMovCh c ((o - 0x280) / 4) w s
  else if o = 0x2A4 then writeLoadCtl c w s
  else plainWrite off w s

/-- The bits that a debug write sets in a register of the KVD block (Tables KV.10, KV.11, KV.15 and those of the attention
area) or of H0's partition table: reserved bits keep reading zero (R6). -/
def debugBits (clu : Bool) (o : Nat) : Nat :=
  if clu then (if o = 0x104 then 0x803FFFFF else if o = 0x118 then 0xCFFFFFFF else if o = 0x144 then 0xFFFFF000 else 0xFFFFFFFF)
  else if o % 32 < 8 then 0xFFFFFFFF else if o % 32 = 0x18 then 0x80000000 else 0x01FFFFFF

/-- Fields that commands set, in the KVD, HUB and NOC blocks: while debug is unlocked a write sets them (R432). -/
def debugWrite (off : Nat) (w : Word) (s : State) : State :=
  if !s.sec.debug then s
  else
    match locate off with
    | .clu _ o =>
      if o ∈ [0x100, 0x104, 0x118, 0x140, 0x144, 0x148] then rset off (w &&& word (debugBits true o)) s else s
    | .hub h o =>
      if 0x10100 ≤ o && o < 0x10500 then
        let p := (o - 0x10100) / 16
        let q := poolGet s p
        if o % 16 = 0 then poolSet p { q with slot0 := wFld w 29 0 } s
        else if o % 16 = 4 then poolSet p { q with nslot := wFld w 29 0 } s
        else if o % 16 = 12 then poolSet p (poolMark { q with low := wFld w 15 0, high := wFld w 31 16 }) s
        else s
      else if h = 0 && 0x30000 ≤ o && o < 0x30800 && o % 32 < 0x1C && o % 4 = 0 then rset off (w &&& word (debugBits false o)) s
      else s
    | _ => s

def writeClu (k o : Nat) (w : Word) (s : State) : State :=
  if 0x200 ≤ o && o < 0x244 && o % 4 = 0 then writeCoreOt (17 * k + (o - 0x200) / 4) w s
  else if 0x300 ≤ o && o < 0x340 && o % 16 = 0 then writeStrmRing k ((o - 0x300) / 16) w s
  else debugWrite (cluBase k + o) w (plainWrite (cluBase k + o) w s)

def writeHub (h o : Nat) (w : Word) (s : State) : State :=
  if fabDevice o && h ≠ 0 then s
  else if o = 0x40020 then plainWrite (hubBase h + o) (if wFld w 15 0 = 0 then 1 else w) s
  else if o = 0x60008 then writePeriod h w s
  else debugWrite (hubBase h + o) w (plainWrite (hubBase h + o) w s)

def writeThm (o : Nat) (w : Word) (s : State) : State :=
  if o = 4 then (writePkgLimit (wFld w 12 0) (wBit w 31) s).1
  else if o = 0xC then (if limitOn s then writeBrake w s else s)
  else if o = 0x10 then writeRamp w s
  else if 0x40 ≤ o && o < 0x80 && o % 4 = 0 then (writeTwrLimit ((o - 0x40) / 4) (wFld w 8 0) (wBit w 31) s).1
  else if o = 0x1C4 then writeKilnLast w s
  else plainWrite (thmBase + o) w s

def writeGlb (o : Nat) (w : Word) (s : State) : State :=
  if 0x1000 ≤ o && o < 0x1400 && o % 16 = 4 then (if wBit w 0 then resetWindow ((o - 0x1000) / 16) s else s)
  else if 0x8000 ≤ o && o < 0x10000 then writeMsix 0 ((o - 0x8000) / 4) o w s
  else plainWrite o w s

def writeVf (p o : Nat) (w : Word) (s : State) : State :=
  if o < 0x10000 then writeWindow (64 + p) o (leBytes 4 w.toNat) s
  else if o = 0x10004 then (if wBit w 0 then resetWindow (64 + p) s else s)
  else if 0x1E000 ≤ o && o < 0x1E200 then writeMsix (p + 1) ((o - 0x1E000) / 4) (vfKey p o) w s
  else plainWrite (vfKey p o) w s

/-- Writes a register word at a BAR0 offset. A write of a register on a lost die has no effect. -/
def writeReg (off : Nat) (w : Word) (s : State) : State :=
  if regFenced s off then s
  else
    match locate off with
    | .glb o => writeGlb o w s
    | .win i o => writeWindow i o (leBytes 4 w.toNat) s
    | .thm o => writeThm o w s
    | .snap o => if o = 0 then writeSnapCtl w s else if o = 0x10 then writeTelemHead w s else s
    | .tower n o => if o = 0x100 then writeRefCtl n w s else plainWrite off w s
    | .hub h o => writeHub h o w s
    | .core c o => writeCore c o w s
    | .clu k o => writeClu k o w s
    | .nbu col o => if o = 0x2C && !(cget s (col / 2)).halted then s else plainWrite off w s
    | .ctr k o => if o = 8 && wBit w 31 then ctrSet k { ctrGet s k with ovf := false } s else s
    | .vf p o => writeVf p o w s
    | .sec _ => s
    | .errLog _ _ => s
    | .fireLog _ => s
    | .none => s

/-- The model's BAR0 offset of a function's BAR0 offset; none beyond its BAR. -/
def barOff (fn off : Nat) : Option Nat :=
  if fn = 0 then (if off < 0x10000000 then some off else none) else if off < 0x20000 then some (vfKey (fn - 1) off) else none

/-- Counts a host access as dropped or answered Completer Abort, or Unsupported Request (Table HOST.24). -/
def countCa (s : State) : State := rupd 0x104 (fun w => wSatAdd w 15 0 1) s
def countUr (s : State) : State := rupd 0x104 (fun w => wSatAdd w 31 16 1) s

/-- REGISTER_WRITE: a host write of a register word through a function's BAR0. One that targets a lost die is dropped and
counted (Table HOST.6). -/
def execRegisterWrite (fn : Fin 65) (off : Fin (2 ^ 28)) (w : Word) (s : State) : Res :=
  if !hostReaches s fn then .next s
  else
    let s := hostReq fn none s
    match barOff fn (off / 4 * 4) with
    | none => .next s
    | some o => .next (if regFenced s o then countCa s else writeReg o w s)

end Sys2Proof.Machine
end

