-- ==== Sys2Proof/Machine/HostFn.lean ====
section
/-! DEFINITION. The PCIe functions and bulk transfers: configuration requests, BAR2, power states, resets of functions and link,
MEM_WRITE, DMA_IN, DMA_OUT and the completions of host reads (R284 to R298, R314, R445). -/

namespace Sys2Proof.Machine

/-! ## BAR0 and BAR2 (R295 to R297) -/

/-- The device physical address of a BAR2 offset, through its aperture. -/
def apertureDpa (s : State) (x : Nat) : Option Nat :=
  let a := x / 2 ^ 28
  let lo := rget s (0x2000 + 8 * a)
  if wBit lo 0 then some (wFld (rget s (0x2004 + 8 * a)) 15 0 * 2 ^ 32 + wFld lo 31 28 * 2 ^ 28 + x % 2 ^ 28) else none

/-- Whether BAR2 is disabled: a partition is in the TDISP RUN state (R296). -/
def bar2Off (s : State) : Bool := s.parts.any (fun e => e.2.state != 0 && e.2.tdi == 2)

/-- Whether an address lies in a reserved space (Table HOST.7). -/
def spaceReserved (a : Nat) : Bool := !(fld a 47 44 ∈ [0, 1, 3, 15])

/-- The target of a privileged access of `n` bytes; an error is true for Unsupported Request, false for Completer Abort. -/
def bar2Tgt (s : State) (x n : Nat) (write : Bool) : Except Bool Tgt :=
  match apertureDpa s x with
  | none => .error true
  | some a =>
    if bar2Off s || spaceReserved a then .error true
    else
      match dpaTgt s a with
      | .reg o => if regFenced s o || 2 ^ 28 < o + n then .error false else .ok (.reg o)
      | t =>
        match tgtRefusal s .priv t n write with
        | some _ => .error false
        | none => .ok t

/-- Records the refusal of an access through BAR2 (R276, R298). -/
def bar2Refuse (x n : Nat) (write : Bool) (s : State) : State :=
  match apertureDpa s x with
  | none => s
  | some a =>
    match dpaTgt s a with
    | .reg _ => s
    | t =>
      match tgtRefusal s .priv t n write with
      | some r => hostRefused .priv r (hostRaw a t r.2 s)
      | none => s

/-- The counters' view of a privileged host access. -/
def pfTx (a : Option Nat) : Option Tx := some { part := 0, engine := 17, site := 0, level := 1, cls := 0, addr := a }

/-- The register bytes of `n` bytes from offset `o`. -/
def regBytes (exact : Bool) (o n : Nat) (s : State) : List Byte × State :=
  let r := readRegs exact (o / 4 * 4) ((o + n + 3) / 4 - o / 4) s
  ((r.1.drop (o % 4)).take n, r.2)

/-- Writes register bytes: each aligned word that they cover whole. -/
def putRegBytes (o : Nat) (d : List Byte) (s : State) : State :=
  let lo := (o + 3) / 4
  iter ((o + d.length) / 4 - lo) (fun i s => writeReg (4 * (lo + i)) (word (leAt d (4 * (lo + i) - o) 4)) s) s

/-- The advisory non-fatal error of AER (Table HOST.6), on the physical function for every function (Table HOST.1): its status bit, and
an ERR_COR message where the host has unmasked it and enabled the reporting of correctable errors. The bits and the message come from
the PCIe specification. PRESUMED (log entry 205). -/
def aerAdvisory (s : State) : State :=
  let s := cfgSet 0 18 (wPut (cfgGet s 0 18) 13 13 1) s
  if wBit (cfgGet s 0 7) 0 && !wBit (cfgGet s 0 19) 13 then fnSend 0 .errCor s else s

/-- A host read of registers through BAR0 of a function: a lost die's window completes with Completer Abort and counts (Table HOST.6),
and every other offset answers, in every device state (R288). -/
def bar0Read (fn off n : Nat) (s : State) : State :=
  match barOff fn off with
  | none => s
  | some o =>
    if regFenced s o then fnSend fn (.cpl 2 false []) (countCa s)
    else
      let r := regBytes false o n s
      fnSend fn (.cpl 0 false r.1) r.2

/-- A host read through BAR2. Poisoned data is open, and EP marks it. -/
def bar2ReadAt (x n : Nat) (s : State) : State :=
  match bar2Tgt s x n false with
  | .error ur => fnSend 0 (.cpl (if ur then 1 else 2) false []) (if ur then countUr s else countCa (bar2Refuse x n false s))
  | .ok (.reg o) =>
    let r := regBytes false o n s
    fnSend 0 (.cpl 0 false r.1) r.2
  | .ok t =>
    let r := tgtRead t n (pfTx (apertureDpa s x)) s
    match r.1 with
    | some d => fnSend 0 (.cpl 0 false d) r.2
    | none =>
      let (v, s) := takeFree r.2
      aerAdvisory (fnSend 0 (.cpl 0 true (leBytes n v)) s)

/-- A host read through BAR0 of a function or through BAR2 ends as Table HOST.6 states. -/
def execBar2Read (x : BarAddr) (n : Fin 4097) (s : State) : Res :=
  match x with
  | .bar0 fn off => .next (if !hostReaches s fn then s else bar0Read fn off n (hostReq fn none s))
  | .bar2 x => .next (if !hostReaches s 0 then s else bar2ReadAt x n (hostReq 0 (apertureDpa s x) s))

/-- A host write through BAR2: performed, or dropped and counted. -/
def execBar2Write (x : Fin (2 ^ 36)) (d : List Byte) (s : State) : Res :=
  if !hostReaches s 0 then .next s
  else
    let s := hostReq 0 (apertureDpa s x) s
    match bar2Tgt s x d.length true with
    | .error true => .next (countUr s)
    | .error false => .next (countCa (bar2Refuse x d.length true s))
    | .ok (.reg o) => .next (putRegBytes o d s)
    | .ok t => .next (tgtWrite t d (pfTx (apertureDpa s x)) s)

/-! ## Power states (R289) -/

/-- A function enters D3hot: it accepts nothing more. The TDI of a virtual function leaves RUN and CONFIG_LOCKED for ERROR
(R425). -/
def d3Enter (fn : Nat) (s : State) : State :=
  let s := { s with d3 := nsAdd s.d3 fn }
  if fn = 0 then s else tdiError (fn - 1) s

def execD3hotEntry (fn : Fin 65) (s : State) : Res :=
  .next (if hubAbsent s 0 || !wBit (rget s 0x100) 10 then s else d3Enter fn s)

/-- A function returns to D0: acceptance resumes, and pending vectors that are not masked are sent. -/
def d0Enter (fn : Nat) (s : State) : State :=
  iter (fnVectors fn) (fun i s => flushVector fn i s) { s with d3 := nsDel s.d3 fn }

def execD0Entry (fn : Fin 65) (s : State) : Res :=
  .next (if hubAbsent s 0 || !wBit (rget s 0x100) 10 then s else d0Enter fn s)

/-! ## Resets of functions and of the link (R290, R425) -/

/-- Packets that a reset lets finish send no reply. -/
def silence (p : Pkt → Bool) (s : State) : State :=
  { s with wins := s.wins.map (fun e =>
      let q := e.2.queue.map (fun k => if p k then { k with silent := true } else k)
      (e.1, { e.2 with queue := q })) }

/-- Empties a window: head 0, open, and no packet that has not started. What has started finishes in silence. -/
def emptyWindow (w : Nat) (s : State) : State :=
  wupd w (fun u =>
    { u with head := 0, stalled := false, queue := u.queue.filter (fun k => k.started) })
    (silence (fun k => k.win == w) s)

/-- The launches and the step of a partition are cancelled without a reply. -/
def cancelSilent (p : Nat) (s : State) : State :=
  (cancelSteps p (silence (fun k => hOp k.bytes == 0x0401 && hPart k.bytes == p) s)).2

/-- What a reset of virtual function p does to its partition: running and queued steps end, through whichever window
they were launched; then its TDI enters ERROR (R425). -/
def partReset (p : Nat) (s : State) : State := tdiError p (cancelSilent p s)

/-- What the PCIe specification has a reset of a function reset beside R290: its MSI-X table, its PBA, its power state and its writable
configuration words (R284). PRESUMED (log entry 43). -/
def fnReset (fn : Nat) (s : State) : State :=
  let lo := if fn = 0 then 0x8000 else vfKey (fn - 1) 0x1E000
  let n := if fn = 0 then 0x8100 else 0x1008
  { s with regs := stDrop s.regs lo n, d3 := nsDel s.d3 fn, cfg := stDrop s.cfg (fn * 32) 32 }

/-- The actions of R290 for one virtual function. -/
def vfReset (p : Nat) (s : State) : State := fnReset (p + 1) (partReset p (emptyWindow (64 + p) s))

def execVfFlr (p : Fin 64) (s : State) : Res :=
  .next (if hubAbsent s 0 || !wBit (rget s 0x100) 10 then s else vfReset p s)

/-- The same for all 128 windows and every partition. -/
def allReset (s : State) : State :=
  fnReset 0 (iter 64 (fun p s => vfReset p s) (iter 64 (fun w s => emptyWindow w s) s))

def execPfFlr (s : State) : Res := .next (if hubAbsent s 0 || !wBit (rget s 0x100) 10 then s else allReset s)

/-- HP_LINK shows the link down, and no IDE stream outlives it, as the PCIe specification has it (R284). PRESUMED (log entry
43). -/
def linkDown (s : State) : State :=
  let s := rset 0x100 (word (linkWord false 0 0)) (rupd 0x14 (fun w => wPut w 16 16 0) s)
  { s with
    sec := { s.sec with ideLink := false, idePf := false }
    parts := s.parts.map (fun e => (e.1, { e.2 with ide := false })) }

/-- A hot reset: the link trains again after it. -/
def execHotReset (s : State) : Res := .next (if hubAbsent s 0 then s else linkDown (allReset s))

def execLinkDown (s : State) : Res := .next (if hubAbsent s 0 then s else linkDown (allReset s))

/-- The link trains, from stage 2 on (R286, R351). -/
def execHostLinkUp (speed width : Nat) (s : State) : Res :=
  if hubAbsent s 0 || !nsHas s.pwr.rails 0 || (s.stage < 2 && !s.booted) then .next s
  else .next (rupd 0x14 (fun w => wPut w 16 16 1) (rset 0x100 (word (linkWord true speed width)) s))

/-! ## Configuration space (R284, R285, R287, R288, R291) -/

/-- The writable address bits and the type bits of BAR register `i` of a function (Table HOST.3): all BARs are 64-bit. A virtual function's
BAR lies in the SR-IOV structure. -/
def barBits (fn i : Nat) : Word × Word :=
  if fn ≠ 0 then (0, 0)
  else if i = 0 then (0xF0000000, 0x4) else if i = 1 then (0xFFFFFFFF, 0)
  else if i = 2 then (0, 0xC) else if i = 3 then (0xFFFFFFF0, 0) else (0, 0)

/-- The same of the virtual functions' BAR register `i`. -/
def vfBarBits (i : Nat) : Word × Word := if i = 0 then (0xFFFE0000, 0x4) else if i = 1 then (0xFFFFFFFF, 0) else (0, 0)

/-- The identifier of a capability structure and its width. -/
def capId : CapKind → Nat × Nat
  | .pm => (0x01, 8) | .pcie => (0x10, 8) | .msix => (0x11, 8)
  | .aer => (0x01, 16) | .ari => (0x0E, 16) | .sriov => (0x10, 16) | .doe => (0x2E, 16) | .ide => (0x30, 16)
  | .secPcie => (0x19, 16) | .dlf => (0x25, 16) | .pl16 => (0x26, 16) | .pl32 => (0x2A, 16) | .pl64 => (0x31, 16)
  | .dev3 => (0x2F, 16) | .flit => (0x32, 16)

/-- A word beyond the header. The rules give the features and their limits; the bits' places come from the PCIe specification. PRESUMED
(log entry 205). -/
def itemWord (s : State) (fn reg : Nat) (it : CfgItem) : Word :=
  let fix := Config.cfgFix (fn ≠ 0) reg
  match it with
  | .none => 0
  | .fixed => fix
  | .head .msix => wPut (cfgGet s fn 9 &&& 0xC0000000) 26 16 (fnVectors fn - 1) ||| (fix &&& 0xFF00) ||| 0x11
  | .head k => if (capId k).2 = 8 then wPut fix 7 0 (capId k).1 else wPut fix 15 0 (capId k).1
  | .devCap => wPut (wPut fix 2 0 2) 28 28 1
  | .devCtl => cfgGet s fn 7
  | .linkCap => wPut (wPut (wPut fix 3 0 6) 9 4 16) 11 10 0
  | .linkCtl => wPut (wPut (cfgGet s fn 8) 19 16 (wFld (rget s 0x100) 3 0)) 25 20 (wFld (rget s 0x100) 9 4)
  | .dev3Cap => wPut fix 3 3 0
  | .pmCsr => word ((if nsHas s.d3 fn then 3 else 0) + 8)
  | .msixTable => if fn = 0 then 0x8000 else 0x1E000
  | .msixPba => if fn = 0 then 0x10000 else 0x1F000
  | .sriovCtl => cfgGet s fn 10
  | .sriovVfs => 0x00400040
  | .sriovNum => cfgGet s fn 11
  | .sriovOff => 0x00010001
  | .sriovDev => 0xF0170000
  | .sriovBar i => cfgGet s fn (12 + i) ||| (vfBarBits i).2
  | .aerCorStat => cfgGet s fn 18
  | .aerCorMask => cfgGet s fn 19

/-- Configuration word `reg` of a function: the identity of Table HOST.2, the BARs of Table HOST.3, and what lies beyond the header. -/
def cfgWord (s : State) (fn reg : Nat) : Word :=
  let fix := Config.cfgFix (fn ≠ 0) reg
  if reg = 0 then word (Config.vendorId.toNat + (if fn = 0 then 0xF016 else 0xF017) * 65536)
  else if reg = 1 then cfgGet s fn 0 ||| 0x00100000
  else if reg = 2 then 0x12000002
  else if reg = 3 then fix
  else if reg < 10 then cfgGet s fn (reg - 3) ||| (barBits fn (reg - 4)).2
  else if reg = 11 then wPut fix 31 16 0x4102
  else if reg < 16 then fix
  else itemWord s fn reg (Config.cfgPlace (fn ≠ 0) reg)

/-- A write of a word beyond the header: its writable bits; a write of Initiate Function Level Reset or of the power state has that
effect (R289, R290). ASPM control bits are held and do nothing (R285). -/
def itemWrite (fn : Nat) (w : Word) (it : CfgItem) (s : State) : State :=
  match it with
  | .head .msix => iter (fnVectors fn) (fun i s => flushVector fn i s) (cfgSet fn 9 (w &&& 0xC0000000) s)
  | .devCtl =>
    if wBit w 15 then (if fn = 0 then allReset s else vfReset (fn - 1) s) else cfgSet fn 7 (w &&& 0x7FFF) s
  | .linkCtl => cfgSet fn 8 (w &&& 0xFFFF) s
  | .pmCsr => if wFld w 1 0 = 3 then d3Enter fn s else if wFld w 1 0 = 0 then d0Enter fn s else s
  | .sriovCtl => cfgSet fn 10 (w &&& 0x1F) s
  | .sriovNum => cfgSet fn 11 (w &&& 0xFFFF) s
  | .sriovBar i => cfgSet fn (12 + i) (w &&& (vfBarBits i).1) s
  | .aerCorStat => cfgSet fn 18 (cfgGet s fn 18 &&& ~~~w) s
  | .aerCorMask => cfgSet fn 19 w s
  | _ => s

/-- A configuration write. -/
def cfgWrite (fn reg : Nat) (w : Word) (s : State) : State :=
  if reg = 1 then cfgSet fn 0 (w &&& 0x546) s
  else if 4 ≤ reg ∧ reg < 10 then cfgSet fn (reg - 3) (w &&& (barBits fn (reg - 4)).1) s
  else if reg < 16 then s
  else itemWrite fn w (Config.cfgPlace (fn ≠ 0) reg) s

/-- Host-port hardware answers a configuration request in every device state. Up to stage 2 it may answer with Request Retry Status. A
write is answered without data and then takes effect. -/
def execConfigRequest (fn : Fin 65) (reg : CfgReq) (s : State) : Res :=
  if hubAbsent s 0 || !wBit (rget s 0x100) 10 then .next s
  else
    let early := !s.booted && (s.boot.next.getD s.stage) ≤ 2
    let retry := early && Config.freeBool 2 s.fresh
    let s := if early then (takeFree s).2 else s
    if retry then .next (fnSend fn (.cfg 1 0) s)
    else
    match reg.data with
    | none => .next (fnSend fn (.cfg 0 (cfgWord s fn reg.reg).toNat) s)
    | some w => .next (cfgWrite fn reg.reg w (fnSend fn (.cfg 0 0) s))

/-! ## Bulk transfers (R314) -/

/-- What the counters see of a packet's accesses. -/
def pktTx (b : List Byte) (a : Nat) : Option Tx :=
  match pktWho b with
  | .part p => some { part := p, engine := 17, site := 0, level := 2, cls := 0, addr := some a }
  | _ => pfTx (some a)

/-- Whether a register-space read of a partition is admitted: a counter or a snapshot entry, with UCNT; the second answer says
that it is its own, and reads exactly (R445). -/
def partRegRead (s : State) (p o : Nat) : Bool × Bool :=
  let u := match locate o with
    | .ctr k _ => some (ctrUnit k)
    | .snap x => (snapCtr x).map ctrUnit
    | _ => none
  match u with
  | none => (false, false)
  | some u => ((pget s p).ucnt, u < 4608 && unitPart s u == some p)

/-- Reads one block for the host: a refusal's status, or the bytes, none for poison. -/
def readBlock (b : List Byte) (a n : Nat) (s : State) : Except Nat (Option (List Byte)) × State :=
  let t := dpaTgt s a
  match t with
  | .reg o =>
    let out : Except Nat (Option (List Byte)) × State := (.error 0x0401, hostRefused (pktWho b) (0x0401, 5) s)
    if 2 ^ 28 < o + n then out
    else
      match pktWho b with
      | .part p =>
        let g := partRegRead s p o
        if !g.1 then out
        else if !g.2 then (.ok (some (zeros n)), s)
        else if regFenced s o then (.error 0x0502, s)
        else
          let r := regBytes true o n s
          (.ok (some r.1), r.2)
      | _ =>
        if regFenced s o then (.error 0x0502, s)
        else
          let r := regBytes false o n s
          (.ok (some r.1), r.2)
  | t =>
    match tgtRefusal s (pktWho b) t n false with
    | some r => (.error r.1, hostRefused (pktWho b) r s)
    | none =>
      let r := tgtRead t n (pktTx b a) s
      (.ok r.1, r.2)

/-- Writes one block from the host: a refusal's status, or 0. -/
def writeBlock (b : List Byte) (a : Nat) (d : List Byte) (s : State) : Nat × State :=
  let t := dpaTgt s a
  match t with
  | .reg o =>
    let out : Nat × State := (0x0401, hostRefused (pktWho b) (0x0401, 5) s)
    match pktWho b with
    | .priv => if 2 ^ 28 < o + d.length then out else if regFenced s o then (0x0502, s) else (0, putRegBytes o d s)
    | _ => out
  | t =>
    match tgtRefusal s (pktWho b) t d.length true with
    | some r => (r.1, hostRefused (pktWho b) r (hostRaw a t r.2 s))
    | none => (0, tgtWrite t d (pktTx b a) s)

/-- Writes bytes block by block up to the first refusal: its status with its offset in the data. -/
def writeBlocks (b : List Byte) (a off : Nat) : Nat → List Byte → State → Option (Nat × Nat) × State
  | 0, _, s => (none, s)
  | _, [], s => (none, s)
  | n + 1, d, s =>
    let m := 64 - a % 64
    let r := writeBlock b a (d.take m) s
    if r.1 ≠ 0 then (some (r.1, off), r.2) else writeBlocks b (a + m) (off + m) n (d.drop m) r.2

/-- MEM_WRITE: its payload's data goes to a device physical address. -/
def memWriteCmd (k : Pkt) (s : State) : State :=
  let b := k.bytes
  let n := payAt b 8 4
  if n = 0 || 4040 < n then complete k.id 0x0107 0 0 s
  else
    match writeBlocks b (payAt b 0 8) 0 (n / 64 + 2) ((b.drop 48).take n) s with
    | (some (st, off), s) => complete k.id st off 0 s
    | (none, s) => complete k.id 0 0 0 s

def execMemWrite (w : Fin 128) (s : State) : Res := runCmd w 0x0201 (fun b => payNZ b 12 4) memWriteCmd s

/-- The status that refuses the fields of a DMA command, or 0. -/
def dmaStatus (b : List Byte) : Nat :=
  if payAt b 0 8 % 64 ≠ 0 || payAt b 8 8 % 64 ≠ 0 || payAt b 16 4 % 64 ≠ 0 then 0x0106 else 0

/-- Issues the reads of a DMA_IN. -/
def dmaReads (fn pkt addr dpa : Nat) : Nat → Nat → State → State
  | 0, _, s => s
  | n + 1, left, s =>
    if left = 0 then s
    else dmaReads fn pkt (addr + 4096) (dpa + 4096) n (left - 4096) (hostRead fn addr (min left 4096) (.dmaIn pkt dpa) s)

/-- DMA_IN: reads of at most 4 096 bytes; the command completes when every write has taken effect. -/
def dmaInCmd (k : Pkt) (s : State) : State :=
  let b := k.bytes
  let n := payAt b 16 4
  let st := dmaStatus b
  if st ≠ 0 then complete k.id st 0 0 s
  else if n = 0 then complete k.id 0 0 0 s
  else
    dmaReads (winFn k.win) k.id (payAt b 0 8) (payAt b 8 8) (ceilDiv n 4096) n
      { s with dmas := s.dmas ++ [{ pkt := k.id, left := ceilDiv n 4096, bad := none }] }

def execDmaIn (w : Fin 128) (s : State) : Res := runCmd w 0x0202 (fun b => payNZ b 20 4) dmaInCmd s

/-- DMA_OUT's blocks up to the first refusal or poison: the data, and the status with its offset. -/
def dmaBlocks (b : List Byte) (a off : Nat) : Nat → State → List Byte × Option (Nat × Nat) × State
  | 0, s => ([], none, s)
  | n + 1, s =>
    match readBlock b a 64 s with
    | (.error st, s) => ([], some (st, off), s)
    | (.ok none, s) => ([], some (0x0504, off), s)
    | (.ok (some d), s) =>
      let r := dmaBlocks b (a + 64) (off + 64) n s
      (d ++ r.1, r.2.1, r.2.2)

/-- DMA_OUT: posted writes of at most 512 bytes, then the completion. -/
def dmaOutCmd (k : Pkt) (s : State) : State :=
  let b := k.bytes
  let st := dmaStatus b
  if st ≠ 0 then complete k.id st 0 0 s
  else
    let r := dmaBlocks b (payAt b 8 8) 0 (payAt b 16 4 / 64) s
    let s := hostPut (winFn k.win) (payAt b 0 8) r.1 r.2.2
    match r.2.1 with
    | some e => complete k.id e.1 e.2 0 s
    | none => complete k.id 0 0 0 s

def execDmaOut (w : Fin 128) (s : State) : Res := runCmd w 0x0203 (fun b => payNZ b 20 4) dmaOutCmd s

/-! ## Completions of host reads -/

/-- Data for a DMA_IN: it is written unless an earlier part was refused; the last part completes the command. -/
def dmaData (pkt dpa : Nat) (d : List Byte) (s : State) : State :=
  match s.dmas.find? (fun x => x.pkt == pkt), findPkt s pkt with
  | some x, some k =>
    let base := payAt k.bytes 8 8
    let r := if x.bad.isSome then (x.bad, s) else writeBlocks k.bytes dpa (dpa - base) (d.length / 64 + 2) d s
    if x.left ≤ 1 then
      let s := { r.2 with dmas := r.2.dmas.filter (fun y => y.pkt != pkt) }
      match r.1 with
      | some e => complete pkt e.1 e.2 0 s
      | none => complete pkt 0 0 0 s
    else { r.2 with dmas := r.2.dmas.map (fun y => if y.pkt == pkt then { y with left := x.left - 1, bad := r.1 } else y) }
  | _, _ => s

/-- Length-table data: the last part starts the step (R318). -/
def lenData (p off : Nat) (d : List Byte) (s : State) : State :=
  match (pget s p).step with
  | some st =>
    if st.phase ≠ 0 then s
    else
      let s := pset p { pget s p with step := some { st with buf := putBytes st.buf off d, left := st.left - 1 } } s
      if st.left ≤ 1 then stepBegin p s else s
  | none => s

/-- Image data of a swap-in or of a page under re-key, and their glaze records. -/
def useData (u : ReadUse) (d : List Byte) (s : State) : State :=
  match u with
  | .dmaIn pkt dpa => dmaData pkt dpa d s
  | .lenTab p off => lenData p off d s
  | .swapImg p key off => swapStep p key (jobSet p key (fun j => { j with image := j.image ++ [(off, d)] }) s)
  | .swapRec p key => swapStep p key (jobSet p key (fun j => { j with record := d }) s)
  | .rekeyImg p off => rekeyStep p (pupd p (fun q => { q with rekey := q.rekey.map (fun r => { r with image := r.image ++ [(off, d)] }) }) s)
  | .rekeyRec p => rekeyStep p (pupd p (fun q => { q with rekey := q.rekey.map (fun r => { r with record := d }) }) s)

/-- The completion of an outstanding host read, with exactly the bytes it asked for. -/
def execHostReadCompletion (tag : Nat) (d : List Byte) (s : State) : Res :=
  match s.reads.find? (fun r => r.tag == tag) with
  | none => .next s
  | some r =>
    if d.length ≠ r.len || !wBit (rget s 0x100) 10 || hubAbsent s 0 then .next s
    else .next (useData r.use d { s with reads := s.reads.filter (fun x => x.tag != tag) })

end Sys2Proof.Machine
end

