-- ==== Sys2Proof/Machine/NbuStart.lean ====
section
/-! DEFINITION. The start of an NBU command, whose ticket every other consumer of the core comes before (R116, R164, R176). -/

namespace Sys2Proof.Machine

/-- What NBU-A can take from ticket t now (R116). -/
def nbuClaim (s : State) (col t : Nat) : Nat :=
  let u := nbget s col
  match nbNext u with
  | none => 0
  | some i =>
    match u.queue[i]? with
    | none => 0
    | some q => b2n (cmdTW q.w0 == t && q.refused == 0 && engineFree (sq s (col / 2)) (nbSrc col) &&
        (colget s col).state != 2 && nbUnitFree (u.queue.take i) q)

/-- Whether an NBU is granted a ticket: every other consumer comes before it, NBU-A before NBU-B (R116). -/
def nbuTicket (s : State) (col tw : Nat) : Bool :=
  tkGrant s (col / 2) tw
    (if tw = 0 then 0 else claimsTo s (col / 2) 8 tw + (if col % 2 = 1 then nbuClaim s (col - 1) tw else 0))

/-- An NBU command starts in queue order when its unit and bank are free; at the head of a retired column it is refused
with reason 0x04 (R164, R176). -/
def execNbuCommandStart (col : Fin 8704) (s : State) : Res :=
  let u := nbget s col
  let c := col.val / 2
  match nbNext u with
  | none => .next s
  | some i =>
    match u.queue[i]? with
    | none => .next s
    | some q =>
      if q.refused ≠ 0 || !coreRuns s c || !engineFree (sq s c) (nbSrc col) then .next s
      else if (colget s col).state = 2 then
        .next (holdTrap c { src := nbSrc col, cause := 0x11, pc := q.pc, word := q.w0, detail := 4, detailHi := 0 }
          (nbCmd col i (fun q => { q with refused := 0x11 }) s))
      else if !nbUnitFree (u.queue.take i) q || !nbuTicket s col (cmdTW q.w0) then .next s
      else .next (tkTake c (cmdTW q.w0) (nbCmd col i (fun q => { q with started := true }) s))

end Sys2Proof.Machine
end

