-- ==== Sys2Proof/Machine/Smbus.lean ====
section
/-! DEFINITION. The SMBus mirror and the loss of VAUX (R384, R433, R461, Table ELEC.4). -/

namespace Sys2Proof.Machine

/-- The hottest MEAS of the towers, as its register field holds it (Table ELEC.4). -/
def hottestMeas (s : State) : Nat :=
  let ms := (List.range 16).map (fun n => tempFld (viewThm s (0x100 + 4 * n)) 20 10)
  tempBits (ms.foldl max (listAt ms 0 0))

/-- The 256 bytes of the mirror (Table ELEC.4). -/
def mirrorBytes (s : State) : List Byte :=
  let r (w : Word) : List Byte := leBytes 4 w.toNat
  fitBytes 256 (r (viewGlb s 0) ++ r (viewGlb s 8) ++ r (viewGlb s 0xC) ++ r (viewGlb s 0x40) ++ r (viewThm s 8) ++
    r (viewThm s 0x150) ++ leBytes 2 (hottestMeas s) ++ zeros 2 ++ r (viewThm s 0x1C4) ++ r (viewSec s 4) ++
    r (viewThm s 0x158) ++ r (viewGlb s 0x50))

/-- Every 1 ms the mirror is refreshed. The interface runs on VAUX. -/
def execSmbusMirrorRefresh (s : State) : Res := .next (if s.pwr.vaux then { s with mirror := mirrorBytes s } else s)

/-- Bytes of the mirror from a command code; beyond 0xFF nothing is stored. -/
def mirrorAt (s : State) (code n : Nat) : List Byte := (List.range n).map (fun i => listAt s.mirror (code + i) 0)

def execSmbusReadByte (code : Fin 256) (s : State) : Res :=
  .next (if s.pwr.vaux then hostSend (.smb true (mirrorAt s code 1)) s else s)

/-- A Block Read returns at most 32 bytes. -/
def execSmbusBlockRead (code : Fin 256) (n : Fin 256) (s : State) : Res :=
  .next (if s.pwr.vaux then hostSend (.smb true (mirrorAt s code (min n 32))) s else s)

/-- Every write is answered with NACK. -/
def execSmbusWrite (_code : Fin 256) (_d : List Byte) (s : State) : Res :=
  .next (if s.pwr.vaux then hostSend (.smb false []) s else s)

/-- VAUX goes down: the kiln-sitter latch clears, the saggar region is wiped, the firing log is lost with its SRAM (R353), and
the two outputs are high impedance. -/
def execVauxDown (s : State) : Res :=
  let s := wipeSaggar s
  .next { s with
    faultN := false
    mirror := []
    boot := { s.boot with fire := [], fireNext := 0, fireWrap := false }
    pwr := { s.pwr with vaux := false, kiln := false, vin := false } }

/-! ## Time -/

/-- Whether a counter is programmed for an event that time makes (Table CNT.3: advancing and held ACLK cycles, cycles of a busy
chain or router, packets whose age saturates) and is not frozen. -/
def timeCtr (s : State) (e : Nat × Ctr) : Bool :=
  e.2.evt ∈ [0x0100, 0x0101, 0x0320, 0x0403, 0x0404] && !nsHas s.frozen (ctrDie e.1)

/-- The counters of those events count a free number of them while time passes (R442, log entry 184). -/
def countTime (s : State) : State :=
  if s.ctrs.any (timeCtr s) then
    { s with
      ctrs := s.ctrs.map (fun e => if timeCtr s e then (e.1, ctrAdd (Config.freeValue (s.fresh + e.1)) e.2) else e)
      fresh := s.fresh + 65536 }
  else s

/-- What one REF cycle with no command does: the device clock advances 10 ns (R446) while the device has its reference, and the
next tier-1 block of weights that waits is reloaded (R372), the messages go out that waited for their 100 µs (R409, R451), and the counters of cycles count (R442).
DESIGN CHOICE (log entry 2). -/
def idleTick (s : State) : State :=
  if s.pwr.refOk && nsHas s.pwr.rails 0 then
    let s := countTime { s with ns := s.ns + 10 }
    reloadStep (if notesDue s then sendNotes s else s)
  else s

end Sys2Proof.Machine
end

