-- ==== Sys2Proof/Machine/Dispatch.lean ====
section
/-! DEFINITION. Which meaning each command has: one direct call per constructor. -/

namespace Sys2Proof.Machine

/-- The effect of a command on everything but the queue. -/
def exec (i : Instr) (s : State) : Host.Outcome State Fault Refusal :=
  match i with
  | .registerWrite fn off w => Sys2Proof.Machine.execRegisterWrite fn off w s
  | .configRequest fn reg => Sys2Proof.Machine.execConfigRequest fn reg s
  | .bar2Read x n => Sys2Proof.Machine.execBar2Read x n s
  | .bar2Write x d => Sys2Proof.Machine.execBar2Write x d s
  | .vauxUp => Sys2Proof.Machine.execVauxUp s
  | .inputSwitchClose => Sys2Proof.Machine.execInputSwitchClose s
  | .vinUndervoltage => Sys2Proof.Machine.execVinUndervoltage s
  | .vinRecover => Sys2Proof.Machine.execVinRecover s
  | .vinCollapse => Sys2Proof.Machine.execVinCollapse s
  | .vinLoss => Sys2Proof.Machine.execVinLoss s
  | .reverseCurrent => Sys2Proof.Machine.execReverseCurrent s
  | .reverseInput => Sys2Proof.Machine.execReverseInput s
  | .clkmonWindow d counts => Sys2Proof.Machine.execClkmonWindow d counts s
  | .clockStopped d c => Sys2Proof.Machine.execClockStopped d c s
  | .governorRiseTick k => Sys2Proof.Machine.execGovernorRiseTick k s
  | .governorFallTick k => Sys2Proof.Machine.execGovernorFallTick k s
  | .powerLoopTick pk tw => Sys2Proof.Machine.execPowerLoopTick pk tw s
  | .comparatorDecrement n p => Sys2Proof.Machine.execComparatorDecrement n p s
  | .pbrkAssert => Sys2Proof.Machine.execPbrkAssert s
  | .pbrkDeassert => Sys2Proof.Machine.execPbrkDeassert s
  | .brakeRelease => Sys2Proof.Machine.execBrakeRelease s
  | .brakeFwReq w => Sys2Proof.Machine.execBrakeFwReq w s
  | .pkgLimitWrite w => Sys2Proof.Machine.execPkgLimitWrite w s
  | .twrLimitWrite n w => Sys2Proof.Machine.execTwrLimitWrite n w s
  | .rampCtlWrite w => Sys2Proof.Machine.execRampCtlWrite w s
  | .slotmapWrite c m w => Sys2Proof.Machine.execSlotmapWrite c m w s
  | .pwrProfileWrite c w => Sys2Proof.Machine.execPwrProfileWrite c w s
  | .bankGroupReady c => Sys2Proof.Machine.execBankGroupReady c s
  | .uniRegionWrite c sti w => Sys2Proof.Machine.execUniRegionWrite c sti w s
  | .unifiedWrite c v => Sys2Proof.Machine.execUnifiedWrite c v s
  | .narrowWriteBack c => Sys2Proof.Machine.execNarrowWriteBack c s
  | .clusterSramAccess c a b heldA heldB => Sys2Proof.Machine.execClusterSramAccess c a b heldA heldB s
  | .bankAtomic c port off op arg held => Sys2Proof.Machine.execBankAtomic c port off op arg held s
  | .queuedAtomic c bank => Sys2Proof.Machine.execQueuedAtomic c bank s
  | .wload c => Sys2Proof.Machine.execWload c s
  | .stream c y => Sys2Proof.Machine.execStream c y s
  | .ewise c y => Sys2Proof.Machine.execEwise c y s
  | .accload c => Sys2Proof.Machine.execAccload c s
  | .drain c => Sys2Proof.Machine.execDrain c s
  | .mxeCommandStart c => Sys2Proof.Machine.execMxeCommandStart c s
  | .shadowPromote c => Sys2Proof.Machine.execShadowPromote c s
  | .mxeCommandFinish c sti => Sys2Proof.Machine.execMxeCommandFinish c sti s
  | .mxeCommandRetire c => Sys2Proof.Machine.execMxeCommandRetire c s
  | .nop c => Sys2Proof.Machine.execNop c s
  | .halt c => Sys2Proof.Machine.execHalt c s
  | .trap c => Sys2Proof.Machine.execTrap c s
  | .tret c => Sys2Proof.Machine.execTret c s
  | .tabort c => Sys2Proof.Machine.execTabort c s
  | .add c => Sys2Proof.Machine.execAdd c s
  | .sub c => Sys2Proof.Machine.execSub c s
  | .and c => Sys2Proof.Machine.execAnd c s
  | .or c => Sys2Proof.Machine.execOr c s
  | .xor c => Sys2Proof.Machine.execXor c s
  | .shl c => Sys2Proof.Machine.execShl c s
  | .shr c => Sys2Proof.Machine.execShr c s
  | .sra c => Sys2Proof.Machine.execSra c s
  | .mul c => Sys2Proof.Machine.execMul c s
  | .min c => Sys2Proof.Machine.execMin c s
  | .max c => Sys2Proof.Machine.execMax c s
  | .slt c => Sys2Proof.Machine.execSlt c s
  | .sltu c => Sys2Proof.Machine.execSltu c s
  | .ceq c => Sys2Proof.Machine.execCeq c s
  | .addi c => Sys2Proof.Machine.execAddi c s
  | .andi c => Sys2Proof.Machine.execAndi c s
  | .ori c => Sys2Proof.Machine.execOri c s
  | .xori c => Sys2Proof.Machine.execXori c s
  | .shli c => Sys2Proof.Machine.execShli c s
  | .shri c => Sys2Proof.Machine.execShri c s
  | .srai c => Sys2Proof.Machine.execSrai c s
  | .ceqi c => Sys2Proof.Machine.execCeqi c s
  | .ld c => Sys2Proof.Machine.execLd c s
  | .st c => Sys2Proof.Machine.execSt c s
  | .ldc c busy => Sys2Proof.Machine.execLdc c busy s
  | .stc c busy => Sys2Proof.Machine.execStc c busy s
  | .aaddc c => Sys2Proof.Machine.execAaddc c s
  | .aswpc c => Sys2Proof.Machine.execAswpc c s
  | .amov c => Sys2Proof.Machine.execAmov c s
  | .aadd c => Sys2Proof.Machine.execAadd c s
  | .aaddr c => Sys2Proof.Machine.execAaddr c s
  | .aget c => Sys2Proof.Machine.execAget c s
  | .beq c => Sys2Proof.Machine.execBeq c s
  | .bne c => Sys2Proof.Machine.execBne c s
  | .blt c => Sys2Proof.Machine.execBlt c s
  | .bge c => Sys2Proof.Machine.execBge c s
  | .bltu c => Sys2Proof.Machine.execBltu c s
  | .bgeu c => Sys2Proof.Machine.execBgeu c s
  | .jmp c => Sys2Proof.Machine.execJmp c s
  | .jal c => Sys2Proof.Machine.execJal c s
  | .jr c => Sys2Proof.Machine.execJr c s
  | .bbusy c => Sys2Proof.Machine.execBbusy c s
  | .tkwait c => Sys2Proof.Machine.execTkwait c s
  | .tkwaitSatisfied c => Sys2Proof.Machine.execTkwaitSatisfied c s
  | .tkadd c => Sys2Proof.Machine.execTkadd c s
  | .tkset c => Sys2Proof.Machine.execTkset c s
  | .tkrd c => Sys2Proof.Machine.execTkrd c s
  | .disp c => Sys2Proof.Machine.execDisp c s
  | .movclr c => Sys2Proof.Machine.execMovclr c s
  | .movst c => Sys2Proof.Machine.execMovst c s
  | .cbar c => Sys2Proof.Machine.execCbar c s
  | .cbarPoll c => Sys2Proof.Machine.execCbarPoll c s
  | .gbar c => Sys2Proof.Machine.execGbar c s
  | .gbarRelease p g => Sys2Proof.Machine.execGbarRelease p g s
  | .csrr c => Sys2Proof.Machine.execCsrr c s
  | .csrw c => Sys2Proof.Machine.execCsrw c s
  | .trapTake c => Sys2Proof.Machine.execTrapTake c s
  | .waitTimeout c => Sys2Proof.Machine.execWaitTimeout c s
  | .coreHalted c => Sys2Proof.Machine.execCoreHalted c s
  | .seqStart c w => Sys2Proof.Machine.execSeqStart c w s
  | .haltReq c w => Sys2Proof.Machine.execHaltReq c w s
  | .loadGo c w => Sys2Proof.Machine.execLoadGo c w s
  | .loadPathDone c => Sys2Proof.Machine.execLoadPathDone c s
  | .vld c => Sys2Proof.Machine.execVld c s
  | .vst c => Sys2Proof.Machine.execVst c s
  | .vadd c => Sys2Proof.Machine.execVadd c s
  | .vsub c => Sys2Proof.Machine.execVsub c s
  | .vmul c => Sys2Proof.Machine.execVmul c s
  | .vfma c => Sys2Proof.Machine.execVfma c s
  | .vmax c => Sys2Proof.Machine.execVmax c s
  | .vmin c => Sys2Proof.Machine.execVmin c s
  | .vcmpgt c => Sys2Proof.Machine.execVcmpgt c s
  | .vsel c => Sys2Proof.Machine.execVsel c s
  | .vabs c => Sys2Proof.Machine.execVabs c s
  | .vneg c => Sys2Proof.Machine.execVneg c s
  | .vmove c => Sys2Proof.Machine.execVmove c s
  | .vexp c => Sys2Proof.Machine.execVexp c s
  | .vexp2 c => Sys2Proof.Machine.execVexp2 c s
  | .vrcp c => Sys2Proof.Machine.execVrcp c s
  | .vrsq c => Sys2Proof.Machine.execVrsq c s
  | .rmax c => Sys2Proof.Machine.execRmax c s
  | .rsum c => Sys2Proof.Machine.execRsum c s
  | .argmax c => Sys2Proof.Machine.execArgmax c s
  | .qmx c => Sys2Proof.Machine.execQmx c s
  | .rng c => Sys2Proof.Machine.execRng c s
  | .vxeCommandRetire c => Sys2Proof.Machine.execVxeCommandRetire c s
  | .movCopy c ch busy => Sys2Proof.Machine.execMovCopy c ch busy s
  | .movFill c ch busy => Sys2Proof.Machine.execMovFill c ch busy s
  | .movDescriptorStart c ch => Sys2Proof.Machine.execMovDescriptorStart c ch s
  | .movDescriptorRetire c ch => Sys2Proof.Machine.execMovDescriptorRetire c ch s
  | .movChHaltWrite c ch w => Sys2Proof.Machine.execMovChHaltWrite c ch w s
  | .remoteWrite c => Sys2Proof.Machine.execRemoteWrite c s
  | .remoteRefusal c => Sys2Proof.Machine.execRemoteRefusal c s
  | .rowReadIssue col k busy => Sys2Proof.Machine.execRowReadIssue col k busy s
  | .rowReadDeliver col => Sys2Proof.Machine.execRowReadDeliver col s
  | .writeCombineAccept col row blk d => Sys2Proof.Machine.execWriteCombineAccept col row blk d s
  | .rowWriteIssue col row k busy => Sys2Proof.Machine.execRowWriteIssue col row k busy s
  | .bondGroupSuspect col group octet => Sys2Proof.Machine.execBondGroupSuspect col group octet s
  | .migrationComplete col => Sys2Proof.Machine.execMigrationComplete col s
  | .refreshIntervalTick col => Sys2Proof.Machine.execRefreshIntervalTick col s
  | .refreshIssue col busy => Sys2Proof.Machine.execRefreshIssue col busy s
  | .refreshCtlWrite n w => Sys2Proof.Machine.execRefreshCtlWrite n w s
  | .qload col => Sys2Proof.Machine.execQload col s
  | .score col busy stall => Sys2Proof.Machine.execScore col busy stall s
  | .emit col => Sys2Proof.Machine.execEmit col s
  | .nbuCopy col => Sys2Proof.Machine.execNbuCopy col s
  | .requant col => Sys2Proof.Machine.execRequant col s
  | .nbuCommandStart col => Sys2Proof.Machine.execNbuCommandStart col s
  | .nbuCommandRetire col => Sys2Proof.Machine.execNbuCommandRetire col s
  | .tier1Atomic col off op arg => Sys2Proof.Machine.execTier1Atomic col off op arg s
  | .chainWaitLimit col => Sys2Proof.Machine.execChainWaitLimit col s
  | .create w stuck => Sys2Proof.Machine.execCreate w stuck s
  | .fork w stuck => Sys2Proof.Machine.execFork w stuck s
  | .reserve w stuck => Sys2Proof.Machine.execReserve w stuck s
  | .truncate w stuck => Sys2Proof.Machine.execTruncate w stuck s
  | .release w stuck => Sys2Proof.Machine.execRelease w stuck s
  | .setprio w stuck => Sys2Proof.Machine.execSetprio w stuck s
  | .sethead w stuck => Sys2Proof.Machine.execSethead w stuck s
  | .commit w => Sys2Proof.Machine.execCommit w s
  | .setPolicy w => Sys2Proof.Machine.execSetPolicy w s
  | .swapIn w => Sys2Proof.Machine.execSwapIn w s
  | .seqQuery w => Sys2Proof.Machine.execSeqQuery w s
  | .generationSwitch p => Sys2Proof.Machine.execGenerationSwitch p s
  | .preemptVictim p held => Sys2Proof.Machine.execPreemptVictim p held s
  | .pageMoveOut p q lh blk => Sys2Proof.Machine.execPageMoveOut p q lh blk s
  | .stepStart p => Sys2Proof.Machine.execStepStart p s
  | .walkSegmentWrite p clu stop stuck => Sys2Proof.Machine.execWalkSegmentWrite p clu stop stuck s
  | .stepRetire p outs => Sys2Proof.Machine.execStepRetire p outs s
  | .stepLimitExpiry p => Sys2Proof.Machine.execStepLimitExpiry p s
  | .t2Access pair busy err => Sys2Proof.Machine.execT2Access pair busy err s
  | .t2DriftCheck pkg drift => Sys2Proof.Machine.execT2DriftCheck pkg drift s
  | .requestIssue q p addr len cls data atom => Sys2Proof.Machine.execRequestIssue q p addr len cls data atom s
  | .targetAdmit id full parity => Sys2Proof.Machine.execTargetAdmit id full parity s
  | .grant key => Sys2Proof.Machine.execGrant key s
  | .grantLapse id => Sys2Proof.Machine.execGrantLapse id s
  | .retryReissue id => Sys2Proof.Machine.execRetryReissue id s
  | .routeTableLoad => Sys2Proof.Machine.execRouteTableLoad s
  | .mapCommit q => Sys2Proof.Machine.execMapCommit q s
  | .coreOtWrite c w => Sys2Proof.Machine.execCoreOtWrite c w s
  | .commandWindowWrite w off d => Sys2Proof.Machine.execCommandWindowWrite w off d s
  | .windowReset w => Sys2Proof.Machine.execWindowReset w s
  | .d3hotEntry fn => Sys2Proof.Machine.execD3hotEntry fn s
  | .d0Entry fn => Sys2Proof.Machine.execD0Entry fn s
  | .vfFlr p => Sys2Proof.Machine.execVfFlr p s
  | .pfFlr => Sys2Proof.Machine.execPfFlr s
  | .hotReset => Sys2Proof.Machine.execHotReset s
  | .linkDown => Sys2Proof.Machine.execLinkDown s
  | .deviceStatus w => Sys2Proof.Machine.execDeviceStatus w s
  | .deviceReset w => Sys2Proof.Machine.execDeviceReset w s
  | .setLimits w => Sys2Proof.Machine.execSetLimits w s
  | .partCreate w => Sys2Proof.Machine.execPartCreate w s
  | .partRelease w => Sys2Proof.Machine.execPartRelease w s
  | .partLock w => Sys2Proof.Machine.execPartLock w s
  | .partQuery w => Sys2Proof.Machine.execPartQuery w s
  | .partReadmit w => Sys2Proof.Machine.execPartReadmit w s
  | .memWrite w => Sys2Proof.Machine.execMemWrite w s
  | .dmaIn w => Sys2Proof.Machine.execDmaIn w s
  | .dmaOut w => Sys2Proof.Machine.execDmaOut w s
  | .modelLoad w => Sys2Proof.Machine.execModelLoad w s
  | .dirRegister w heads => Sys2Proof.Machine.execDirRegister w heads s
  | .dirWithdraw w => Sys2Proof.Machine.execDirWithdraw w s
  | .attRegister w => Sys2Proof.Machine.execAttRegister w s
  | .t2poolRegister w => Sys2Proof.Machine.execT2poolRegister w s
  | .t2poolWithdraw w => Sys2Proof.Machine.execT2poolWithdraw w s
  | .swapRegister w => Sys2Proof.Machine.execSwapRegister w s
  | .swapWithdraw w => Sys2Proof.Machine.execSwapWithdraw w s
  | .stepLaunch w => Sys2Proof.Machine.execStepLaunch w s
  | .stepCancel w => Sys2Proof.Machine.execStepCancel w s
  | .mntStart w => Sys2Proof.Machine.execMntStart w s
  | .mntStop w => Sys2Proof.Machine.execMntStop w s
  | .mntQuery w => Sys2Proof.Machine.execMntQuery w s
  | .dieRejoin w f => Sys2Proof.Machine.execDieRejoin w f s
  | .hubReset w => Sys2Proof.Machine.execHubReset w s
  | .logAck w => Sys2Proof.Machine.execLogAck w s
  | .snapshot w => Sys2Proof.Machine.execSnapshot w s
  | .telemCfg w => Sys2Proof.Machine.execTelemCfg w s
  | .counterCfg w => Sys2Proof.Machine.execCounterCfg w s
  | .keyRotate w => Sys2Proof.Machine.execKeyRotate w s
  | .fwStage w img => Sys2Proof.Machine.execFwStage w img s
  | .lifecycle w obj => Sys2Proof.Machine.execLifecycle w obj s
  | .attestGet w nonce => Sys2Proof.Machine.execAttestGet w nonce s
  | .fabPort w => Sys2Proof.Machine.execFabPort w s
  | .fabRole w => Sys2Proof.Machine.execFabRole w s
  | .fabRoute w => Sys2Proof.Machine.execFabRoute w s
  | .fabQuery w => Sys2Proof.Machine.execFabQuery w s
  | .flitReceive p b fec poison => Sys2Proof.Machine.execFlitReceive p b fec poison s
  | .portRetrain p => Sys2Proof.Machine.execPortRetrain p s
  | .portRetrainDone p tx rx => Sys2Proof.Machine.execPortRetrainDone p tx rx s
  | .wavelengthBerCheck p lane ber => Sys2Proof.Machine.execWavelengthBerCheck p lane ber s
  | .lossOfLight p => Sys2Proof.Machine.execLossOfLight p s
  | .lightRestored p => Sys2Proof.Machine.execLightRestored p s
  | .laserCheckPulse p => Sys2Proof.Machine.execLaserCheckPulse p s
  | .heartbeatSend => Sys2Proof.Machine.execHeartbeatSend s
  | .heartbeatAnswer src => Sys2Proof.Machine.execHeartbeatAnswer src s
  | .childLost level digit => Sys2Proof.Machine.execChildLost level digit s
  | .orphan => Sys2Proof.Machine.execOrphan s
  | .fabricMessageRoute src => Sys2Proof.Machine.execFabricMessageRoute src s
  | .channelStall p chan => Sys2Proof.Machine.execChannelStall p chan s
  | .streamNotice k sti => Sys2Proof.Machine.execStreamNotice k sti s
  | .streamSend k sti => Sys2Proof.Machine.execStreamSend k sti s
  | .putDeliver src => Sys2Proof.Machine.execPutDeliver src s
  | .reduceContribution src => Sys2Proof.Machine.execReduceContribution src s
  | .reduceContextTimeout group tag => Sys2Proof.Machine.execReduceContextTimeout group tag s
  | .streamValidWrite k sti w => Sys2Proof.Machine.execStreamValidWrite k sti w s
  | .rstNAssert => Sys2Proof.Machine.execRstNAssert s
  | .resetApply => Sys2Proof.Machine.execResetApply s
  | .rstNRelease => Sys2Proof.Machine.execRstNRelease s
  | .stage0 pll bad dur => Sys2Proof.Machine.execStage0 pll bad dur s
  | .stage1 f im recs lid dur => Sys2Proof.Machine.execStage1 f im recs lid dur s
  | .stage2 up speed width dur => Sys2Proof.Machine.execStage2 up speed width dur s
  | .stage3 bad dur => Sys2Proof.Machine.execStage3 bad dur s
  | .stage4 f => Sys2Proof.Machine.execStage4 f s
  | .stage5 f => Sys2Proof.Machine.execStage5 f s
  | .stage6 f => Sys2Proof.Machine.execStage6 f s
  | .stage7 bad dur => Sys2Proof.Machine.execStage7 bad dur s
  | .stage8 eng dur => Sys2Proof.Machine.execStage8 eng dur s
  | .stage9 ok dur => Sys2Proof.Machine.execStage9 ok dur s
  | .stageTimeLimit unit => Sys2Proof.Machine.execStageTimeLimit unit s
  | .columnRetrain col lanes => Sys2Proof.Machine.execColumnRetrain col lanes s
  | .columnRetrainDone col bad => Sys2Proof.Machine.execColumnRetrainDone col bad s
  | .bridgeLiveRetrain d g => Sys2Proof.Machine.execBridgeLiveRetrain d g s
  | .bridgeRetrainDone d lanes down => Sys2Proof.Machine.execBridgeRetrainDone d lanes down s
  | .hotspotSample rd stuck => Sys2Proof.Machine.execHotspotSample rd stuck s
  | .housekeepingRound rd stuck => Sys2Proof.Machine.execHousekeepingRound rd stuck s
  | .kilnSitterTrip n layer src temp => Sys2Proof.Machine.execKilnSitterTrip n layer src temp s
  | .kilnLastClear w => Sys2Proof.Machine.execKilnLastClear w s
  | .canaryCheck col fail => Sys2Proof.Machine.execCanaryCheck col fail s
  | .rthWindow n => Sys2Proof.Machine.execRthWindow n s
  | .coolWarnRepeat => Sys2Proof.Machine.execCoolWarnRepeat s
  | .coolWarnClear => Sys2Proof.Machine.execCoolWarnClear s
  | .flowLost freq noEdge => Sys2Proof.Machine.execFlowLost freq noEdge s
  | .flowPresent freq => Sys2Proof.Machine.execFlowPresent freq s
  | .patrolScrubT1 col g => Sys2Proof.Machine.execPatrolScrubT1 col g s
  | .patrolScrubT2 u => Sys2Proof.Machine.execPatrolScrubT2 u s
  | .spTransparentTest c b bad => Sys2Proof.Machine.execSpTransparentTest c b bad s
  | .t1TransparentTest col g bad => Sys2Proof.Machine.execT1TransparentTest col g bad s
  | .opticalRecalibration p => Sys2Proof.Machine.execOpticalRecalibration p s
  | .bondRecalibration col lanes => Sys2Proof.Machine.execBondRecalibration col lanes s
  | .bridgeRecalibration d => Sys2Proof.Machine.execBridgeRecalibration d s
  | .sensorCalibration ch pass canary => Sys2Proof.Machine.execSensorCalibration ch pass canary s
  | .wearTracking h => Sys2Proof.Machine.execWearTracking h s
  | .telemetryRound => Sys2Proof.Machine.execTelemetryRound s
  | .rekeySweep p q lh blk => Sys2Proof.Machine.execRekeySweep p q lh blk s
  | .partitionZeroing p => Sys2Proof.Machine.execPartitionZeroing p s
  | .frameZeroing k => Sys2Proof.Machine.execFrameZeroing k s
  | .maintPassLate h kind => Sys2Proof.Machine.execMaintPassLate h kind s
  | .mntPeriodWrite h w => Sys2Proof.Machine.execMntPeriodWrite h w s
  | .towerManagerWatchdog n => Sys2Proof.Machine.execTowerManagerWatchdog n s
  | .mpWatchdog h => Sys2Proof.Machine.execMpWatchdog h s
  | .getVersion => Sys2Proof.Machine.execGetVersion s
  | .getCapabilities => Sys2Proof.Machine.execGetCapabilities s
  | .negotiateAlgorithms falcon => Sys2Proof.Machine.execNegotiateAlgorithms falcon s
  | .getDigests => Sys2Proof.Machine.execGetDigests s
  | .getCertificate slot off len => Sys2Proof.Machine.execGetCertificate slot off len s
  | .challenge slot nonce => Sys2Proof.Machine.execChallenge slot nonce s
  | .getMeasurements index nonce => Sys2Proof.Machine.execGetMeasurements index nonce s
  | .keyExchange slot => Sys2Proof.Machine.execKeyExchange slot s
  | .finish sid => Sys2Proof.Machine.execFinish sid s
  | .keyUpdate sid => Sys2Proof.Machine.execKeyUpdate sid s
  | .heartbeat sid => Sys2Proof.Machine.execHeartbeat sid s
  | .endSession sid => Sys2Proof.Machine.execEndSession sid s
  | .ideKm sid stream set => Sys2Proof.Machine.execIdeKm sid stream set s
  | .getDeviceInterfaceReport p => Sys2Proof.Machine.execGetDeviceInterfaceReport p s
  | .lockInterfaceRequest p => Sys2Proof.Machine.execLockInterfaceRequest p s
  | .startInterfaceRequest p => Sys2Proof.Machine.execStartInterfaceRequest p s
  | .stopInterfaceRequest p => Sys2Proof.Machine.execStopInterfaceRequest p s
  | .ideIntegrityFailure stream => Sys2Proof.Machine.execIdeIntegrityFailure stream s
  | .tamperEvent src => Sys2Proof.Machine.execTamperEvent src s
  | .tamperZeroingDone => Sys2Proof.Machine.execTamperZeroingDone s
  | .snapshotSnap => Sys2Proof.Machine.execSnapshotSnap s
  | .snapshotFreeze => Sys2Proof.Machine.execSnapshotFreeze s
  | .snapshotUnfreeze => Sys2Proof.Machine.execSnapshotUnfreeze s
  | .snapshotLatch dies late => Sys2Proof.Machine.execSnapshotLatch dies late s
  | .snapshotComplete => Sys2Proof.Machine.execSnapshotComplete s
  | .telemHeadWrite w => Sys2Proof.Machine.execTelemHeadWrite w s
  | .smbusReadByte code => Sys2Proof.Machine.execSmbusReadByte code s
  | .smbusBlockRead code n => Sys2Proof.Machine.execSmbusBlockRead code n s
  | .smbusWrite code d => Sys2Proof.Machine.execSmbusWrite code d s
  | .smbusMirrorRefresh => Sys2Proof.Machine.execSmbusMirrorRefresh s
  | .vauxDown => Sys2Proof.Machine.execVauxDown s
  | .hostLinkUp speed width => Sys2Proof.Machine.execHostLinkUp speed width s
  | .t2Refresh pair => Sys2Proof.Machine.execT2Refresh pair s
  | .hubRejoin h eng => Sys2Proof.Machine.execHubRejoin h eng s
  | .responseReceive id => Sys2Proof.Machine.execResponseReceive id s
  | .hostReadCompletion tag d => Sys2Proof.Machine.execHostReadCompletion tag d s

end Sys2Proof.Machine
end

