-- ==== Sys2Proof/Safety.lean ====
section
/-! DEFINITION. The words in which claims are made: when a sequencer issues an instruction, what an instruction leaves
unchanged, and the canonical form that every step keeps. -/

namespace Sys2Proof.Machine

/-! ## Frames -/

/-- Nothing but registers, cores and performance counters differs. -/
def onlyCores (u t : State) : Prop := { t with regs := u.regs, cores := u.cores, ctrs := u.ctrs } = u

/-- Register `o` holds `w` and every other register is as before. -/
def oneReg (o : Nat) (w : Word) (u t : State) : Prop := rget t o = w ∧ ∀ a, a ≠ o → rget t a = rget u a

/-- Of all cores only `c` differs, and there only the sequencer, which became `f` of what it was. -/
def oneSeq (c : Nat) (f : SeqSt → SeqSt) (u t : State) : Prop :=
  (∀ k, k ≠ c → cget t k = cget u k) ∧ cget t c = { cget u c with seq := f (cget u c).seq }

/-! ## The sequencer -/

/-- Core `c` issues the instruction word `w` of opcode `op`: it may issue (with a wait state in `ok`), its PC lies in
instruction memory, the fetch delivers `w` and leaves state `u`, and no reserved field or code stands in `w`. -/
def issues (c op : Nat) (ok : List Nat) (w : Nat) (s u : State) : Prop :=
  seqReady s c ok = true ∧ (sq s c).pc < 8192 ∧ seqFetch c (sq s c).pc s = (some w, u) ∧ inOp w = op ∧
    seqReserved w = false

/-- The sequencer continues at index `p`. -/
def goOn (p : Nat) (q : SeqSt) : SeqSt := { q with pc := p, wait := 0 }

/-- What an instruction of core `c` that has no other destination than Xd and its sequencer leaves: Xd holds `v` (X0 stays
zero), the sequencer of `c` becomes `f` of what it was, and every other register, core and field is as before. -/
def scalarDone (c d : Nat) (v : Word) (f : SeqSt → SeqSt) (u t : State) : Prop :=
  xGet t c d = (if d = 0 then 0 else v) ∧
  (∀ o, ¬(d ≠ 0 ∧ o = coreBase c + 0x400 + 4 * d) → rget t o = rget u o) ∧ oneSeq c f u t ∧ onlyCores u t

/-- The instruction completes on state `v`, in which its memory access has taken place: every register is as in `v`, the
sequencer of `c` became `f` of what it was, and nothing else differs from `v`. -/
def onward (c : Nat) (f : SeqSt → SeqSt) (v t : State) : Prop := t.regs = v.regs ∧ oneSeq c f v t ∧ onlyCores v t

/-- The instruction completes: Xd takes `v` of the operands and SEQ goes on behind it. -/
def scalarOp (i : Fin 4352 → Instr) (op : Nat) (v : State → Nat → Nat → Word) : Prop :=
  ∀ (c : Fin 4352) (w : Nat) (s u : State), issues c op [0] w s u →
    ∃ t, exec (i c) s = .next t ∧ scalarDone c (inXD w) (v u c w) (goOn ((sq u c).pc + 1)) u t

/-- An instruction of format R: XD takes `g` of XA and XB. -/
def formR (i : Fin 4352 → Instr) (op : Nat) (g : Word → Word → Word) : Prop :=
  scalarOp i op (fun u c w => g (xGet u c (inXA w)) (xGet u c (inXB w)))

/-- An instruction of format I: XD takes `g` of XA and IMM. -/
def formI (i : Fin 4352 → Instr) (op : Nat) (g : Word → Word → Word) : Prop :=
  scalarOp i op (fun u c w => g (xGet u c (inXA w)) (BitVec.ofNat 32 (inImm w)))

/-- An instruction of core `c` that changes nothing but its sequencer. -/
def seqOp (i : Fin 4352 → Instr) (op : Nat) (f : State → Nat → Nat → SeqSt → SeqSt) : Prop :=
  ∀ (c : Fin 4352) (w : Nat) (s u : State), issues c op [0] w s u →
    ∃ t, exec (i c) s = .next t ∧ onward c (f u c w) u t

/-- A conditional branch: where `cond` of XA and XB holds SEQ goes on at PC + OFFSET, which the claim takes to lie in
range, else behind the branch; nothing else changes. -/
def formB (i : Fin 4352 → Instr) (op : Nat) (cond : Word → Word → Prop) : Prop :=
  ∀ (c : Fin 4352) (w : Nat) (s u : State), issues c op [0] w s u →
    (cond (xGet u c (inXA w)) (xGet u c (inXB w)) → ∀ p : Nat, p < 8192 →
      (p : Int) = (sq u c).pc + (BitVec.ofNat 32 (inImm w)).toInt →
      ∃ t, exec (i c) s = .next t ∧ onward c (goOn p) u t) ∧
    (¬cond (xGet u c (inXA w)) (xGet u c (inXB w)) →
      ∃ t, exec (i c) s = .next t ∧ onward c (goOn ((sq u c).pc + 1)) u t)

/-- The state of a core's ticket, with every other register, the other cores and the other fields as before. -/
def ticketDone (c k v : Nat) (f : SeqSt → SeqSt) (u t : State) : Prop :=
  tkGet t c k = v ∧ (∀ o, o ≠ tkKey c k → rget t o = rget u o) ∧ oneSeq c f u t ∧ onlyCores u t

/-! ## The engines of a core -/

/-- Of all cores only `c` differs. -/
def oneCore (c : Nat) (u t : State) : Prop := ∀ k, k ≠ c → cget t k = cget u k

/-- A command's TW ticket is taken (R115): one less, or nothing for TW = 0. -/
def ticketTaken (c k : Nat) (u t : State) : Prop := k ≠ 0 → tkGet t c k = tkGet u c k - 1

/-- A VXE command at queue index `n` has been performed on state `u`: lane k of VD holds `lane k`, the other registers, the
other engines, the other cores, and every register but COR_VXE_NUM and the ticket it takes are as before. -/
def vxeDone (c n : Nat) (q : VxeCmd) (lane : Nat → Nat) (u t : State) : Prop :=
  (∀ k, k < 64 → vGet (cget t c).vxe (vxVD q.w0) k = lane k % 2 ^ 32) ∧
  (∀ r k, k < 64 → r ≠ vxVD q.w0 → vGet (cget t c).vxe r k = vGet (cget u c).vxe r k) ∧
  (∃ p, (cget t c).vxe.queue = (cget u c).vxe.queue.modify n (fun e => { e with performed := true, poison := p })) ∧
  { cget t c with vxe := (cget u c).vxe } = cget u c ∧ oneCore c u t ∧
  (∀ o, o ≠ coreBase c + 0x300 → o ≠ tkKey c (cmdTW q.w0) → rget t o = rget u o) ∧
  ticketTaken c (cmdTW q.w0) u t ∧ onlyCores u t

/-- A VXE command of opcode `op` and function `fn` whose lane results are `lane` of W0, W1 and the registers. -/
def vxeOp (i : Fin 4352 → Instr) (op fn : Nat) (lane : Nat → Nat → VxeSt → Nat → Nat) : Prop :=
  ∀ (c : Fin 4352) (n : Nat) (q : VxeCmd) (s : State), vxNext s c op fn = some (n, q) →
    ∃ t, exec (i c) s = .next t ∧ vxeDone c n q (lane q.w0 q.w1 (cget s c).vxe) s t

/-- The second operand of an ALU command: VB, or the immediate. -/
def vxeB (w0 w1 : Nat) (v : VxeSt) (k : Nat) : Nat := if vxSB w0 then w1 % 2 ^ 32 else vGet v (vxVB w0) k

/-- Both BF16 halves of a word. -/
def halves (f : Nat → Nat) (w : Nat) : Nat := f (w % 65536) + 65536 * f (w / 65536)

/-- An ALU function: FP32 lanes through `laneAlu fp32`, BF16 halves through `laneAlu bf16`. -/
def vxeAlu (i : Fin 4352 → Instr) (fn : Nat) : Prop :=
  vxeOp i 3 fn (fun w0 w1 v k => (onLane (vxBF w0) (laneAlu fp32 fn) (laneAlu bf16 fn) (vGet v (vxVA w0) k)
    (vxeB w0 w1 v k) (vGet v (vxVC w0) k)).code)

/-- An SFU function. -/
def vxeSfu (i : Fin 4352 → Instr) (fn : Nat) : Prop :=
  vxeOp i 4 fn (fun w0 _ v k => (onLane (vxBF w0) (fun a _ _ => laneSfu fn a) (fun a _ _ => laneSfuBf fn a)
    (vGet v (vxVA w0) k) 0 0).code)

/-- An MXE command at queue index `i` has been performed: it is marked so, and the vector engine, the sequencer, the
channels and the other cores are as in `u`. -/
def mxeDone (c i : Nat) (u t : State) : Prop :=
  (∃ p, (cget t c).mxe.queue = (cget u c).mxe.queue.modify i (fun e => { e with performed := true, poison := p })) ∧
  { cget t c with mxe := (cget u c).mxe, merges := (cget u c).merges } = cget u c ∧ oneCore c u t

/-! ## Bank columns -/

/-- Of all columns only `k` differs, and no core, register, memory or other field but the counters does. -/
def onlyCol (k : Nat) (u t : State) : Prop :=
  (∀ j, j ≠ k → colget t j = colget u j) ∧ { t with cols := u.cols, ctrs := u.ctrs } = u

/-- The command at queue position `i` of a column's NBU has been performed with an outcome; state `u` is that before. -/
def nbuDone (col i outcome : Nat) (u t : State) : Prop :=
  (nbget t col).queue = (nbget u col).queue.modify i (fun e =>
    { e with performed := true, outcome := if outcome = 0 then e.outcome else outcome })

/-! ## Commands of the host -/

/-- Window `w` has packet `k` of opcode `op` to start: none of its reserved bits is set, and no refusal that its partition's
commands share applies. -/
def admitted (w op : Nat) (resv : List Byte → Bool) (k : Pkt) (s : State) : Prop :=
  startable s w op = some k ∧ resv k.bytes = false ∧ partGate (startPkt k s) w (hPart k.bytes) op = 0

/-- A command of opcode `op` completes with success and RESULT `r` on the state that `f` makes of the one in which its packet has
started, wherever `pre` holds there. -/
def completes (i : Fin 128 → Instr) (op : Nat) (resv : List Byte → Bool) (pre : Pkt → State → Prop) (r : Pkt → State → Nat)
    (f : Pkt → State → State) : Prop :=
  ∀ (w : Fin 128) (k : Pkt) (s : State), admitted w op resv k s → pre k (startPkt k s) →
    exec (i w) s = .next (complete k.id 0 (r k (startPkt k s)) 0 (f k (startPkt k s)))

/-- A command of opcode `op` is refused with status `st`, and changes nothing but its packet, wherever `pre` holds. -/
def refuses (i : Fin 128 → Instr) (op : Nat) (resv : List Byte → Bool) (pre : Pkt → State → Prop) (st : Nat) : Prop :=
  ∀ (w : Fin 128) (k : Pkt) (s : State), admitted w op resv k s → pre k (startPkt k s) →
    exec (i w) s = .next (complete k.id st 0 0 (startPkt k s))

/-- A packet's completion with a status, RESULT and DETAIL has been sent from state `u`: the packet has left its window, its
record stands among the messages to the host unless RADDR is zero or QUIET omits a success, and nothing else differs. -/
def completed (k : Pkt) (status result detail : Nat) (u t : State) : Prop :=
  wget t k.win = { wget u k.win with queue := (wget u k.win).queue.filter (fun q => q.id != k.id) } ∧
  (∀ w, w ≠ k.win → wget t w = wget u w) ∧
  t.hostOut = u.hostOut ++ (if hRaddr k.bytes ≠ 0 ∧ (status ≠ 0 ∨ bitAt (hFlags k.bytes) 2 = false) then
    [onStream u (winFn k.win) (.write (hRaddr k.bytes) (replyBytes k.bytes 1 status result detail u.ns))] else []) ∧
  { t with wins := u.wins, hostOut := u.hostOut } = u

/-! ## What the payloads of area commands say -/

/-- The directory that DIR_REGISTER describes (Table KV.5). -/
def dirArea (b : List Byte) (layers : List Nat) : DirSt :=
  { base := payAt b 0 2, limit := payAt b 2 2, kvFirst := payAt b 4 2, nlh := payAt b 6 2, seqBase := payAt b 8 4,
    maxSeq := payAt b 12 4, gen := 0, g1 := GenSt.empty, g2 := GenSt.empty, pend := false, queued := false, pkt1 := none,
                       pkt2 := none, auto := false, first := false, rot := [], t2rot := [], layers := layers }

/-- Its head map, from host memory. -/
def headWords (b : List Byte) (heads : List Word64) : List Nat :=
  (List.range (payAt b 6 2)).map (fun i => (listAt heads i 0).toNat)

/-- Whether a reserved bit of DIR_REGISTER, ATT_REGISTER or T2POOL_REGISTER is set. -/
def dirResv (b : List Byte) : Bool :=
  payNZ b 24 8 || payAt b 4 2 / 2 ^ 13 != 0 || payAt b 6 2 / 2 ^ 13 != 0 || payAt b 8 4 / 2 ^ 20 != 0 ||
    payAt b 12 4 / 2 ^ 21 != 0
def attResv (b : List Byte) : Bool :=
  payAt b 4 1 / 16 != 0 || payNZ b 5 1 || payAt b 6 2 / 2 ^ 10 != 0 || payAt b 8 1 / 32 != 0 ||
    payAt b 10 2 / 2 ^ 11 != 0 || payAt b 12 2 / 2 ^ 13 != 0 || payNZ b 14 10
def poolResv (b : List Byte) : Bool := payNZ b 20 4 || payAt b 0 4 / 2 ^ 30 != 0 || payAt b 4 4 / 2 ^ 30 != 0

/-- The attention area that ATT_REGISTER describes. -/
def attArea (s : State) (b : List Byte) : AttSt :=
  { base := payAt b 0 2, limit := payAt b 2 2, seglog := payAt b 4 1, itemblk := payAt b 6 2, qph := payAt b 8 1 + 1,
    qslots := payAt b 9 1, appblk := payAt b 10 2, qframe := payAt b 12 2,
    qcols := (partClus s (hPart b)).filterMap (chainHead s), itemPos := [], inRing := [] }

/-- The pool that T2POOL_REGISTER describes. -/
def poolArea (b : List Byte) : Pool :=
  { slot0 := payAt b 0 4, nslot := payAt b 4 4, tagBase := payAt b 8 8, low := payAt b 16 2,
    high := max (payAt b 18 2) (payAt b 16 2), used := [], spill := decide (payAt b 4 4 < payAt b 16 2 * 1024) }

/-! ## Directory edits -/

/-- An edit command of opcode `op` whose effect on the generation under construction is `e`: it is refused while no directory
stands or a COMMIT is queued, ended by a 65th busy, completed with the number of the generation it built, or refused with the
status that stopped it. -/
def edits (i : Fin 128 → Bool → Instr) (op : Nat) (resv : List Byte → Bool) (e : Nat → List Byte → Eng Unit) : Prop :=
  ∀ (w : Fin 128) (k : Pkt) (s : State), admitted w op resv k s →
    let p := hPart k.bytes
    let u := startPkt k s
    ((pget s p).dir = none → ∀ b, exec (i w b) s = .next (complete k.id 0x0304 0 0 u)) ∧
    ∀ d, (pget s p).dir = some d →
      (d.queued = true → ∀ b, exec (i w b) s = .next (complete k.id 0x0304 0 0 u)) ∧
      (d.queued = false →
        exec (i w true) s = .next (complete k.id 0x0503 0 0 (editStuck p u)) ∧
        (∀ v, (e p k.bytes).run u = .ok ((), v) →
          exec (i w false) s = .next (complete k.id 0 (buildNum d) 0 (trimSwap p (countEdit p v)))) ∧
        (∀ st, (e p k.bytes).run u = .error st → exec (i w false) s = .next (complete k.id st 0 0 u)))

/-! ## Snapshots and SPDM -/

/-- A command that asks for a snapshot: with none under way it starts, T 5 µs ahead and rounded to 10 ns; while one runs, one request
waits. -/
def asksSnapshot (i : Instr) (r : SnapReq) : Prop :=
  ∀ s : State,
    (s.snap.run = none → ∃ t, exec i s = .next t ∧ t.snap.run = some r ∧ t.snap.t = (s.ns + 5005) / 10 * 10 ∧
      t.snap.wait = liveDies s ∧ t.snap.area = s.snap.area ∧ wBit (rget t (snapBase + 4)) 31 = true ∧
      (∀ o, o ≠ snapBase + 4 → rget t o = rget s o) ∧ { t with snap := s.snap, regs := s.regs } = s) ∧
    (s.snap.run ≠ none → s.snap.pend = none → ∃ t, exec i s = .next t ∧ t.snap = { s.snap with pend := some r } ∧
      wBit (rget t (snapBase + 4)) 29 = true ∧ { t with snap := s.snap, regs := s.regs } = s)

/-- An SPDM request is answered over the DOE mailbox: with a response of `code` and `data` and effect `f` where `ok` holds, else with
ERROR. -/
def answersSpdm (i : Instr) (ok : State → Prop) (code : Nat) (data : State → List Byte) (f : State → State) : Prop :=
  ∀ s : State, doeOn s = true →
    (ok s → exec i s = .next (hostSend (.doe code (data s)) (f s))) ∧
    (¬ok s → exec i s = .next (hostSend (.doe 0x7F []) s))

/-- The session with an ID, in a given condition, exists. -/
def inSession (id : Nat) (done : Bool) (s : State) : Prop := ∃ x ∈ s.sec.sessions, x.id = id ∧ x.done = done

/-- The block at an offset of a core's slice is `d`: its write-combining entry holds it, or the bank does, with its check symbols. -/
def t1Holds (s : State) (c off : Nat) (d : List Byte) : Prop :=
  wcBlock s (colOf c off) (rowOf off) (off / 64 % 16) = some d ∨
    (wcBlock s (colOf c off) (rowOf off) (off / 64 % 16) = none ∧ memRead s.t1 (t1Key c (off / 64 * 64)) 64 = d ∧
      memRead s.t1Chk (t1ChkKey c (off / 64 * 64)) 3 = rsCheck d)

/-! ## What every step keeps -/

/-- The write-combining entries of a column name each row and each block once and hold whole blocks. -/
def wcWf (u : ColSt) : Prop :=
  (u.wc.map (fun e => e.row)).Nodup ∧ ∀ e ∈ u.wc, e.row < 131072 ∧ (e.blocks.map Prod.fst).Nodup ∧
    ∀ b ∈ e.blocks, b.1 < 16 ∧ b.2.length = 64

/-- Every byte memory is in its canonical form. -/
def memsWf (s : State) : Prop :=
  memWf s.sp = true ∧ memWf s.spChk = true ∧ memWf s.csram = true ∧ memWf s.csChk = true ∧ memWf s.t1 = true ∧
  memWf s.t1Chk = true ∧ memWf s.t2 = true ∧ memWf s.winMem = true ∧ memWf s.boot.fire = true

end Sys2Proof.Machine
end

