-- ==== Sys2Proof/Certificates/Slice0/Obligations.lean ====
section
/-! DEFINITION. The statements about the block, for the provers. -/

open Sys2Proof Sys2Proof.Machine

/-- Table TILE.4, opcodes 0x08 to 0x1F: XD takes XA op XB, or XA op IMM; shifts use the low five bits, MUL keeps 32 bits,
MIN, MAX and SLT are signed; a write to X0 is discarded; nothing else but the PC and the counters changes. -/
def Obligations.SeqArithmetic : Prop :=
  formR .add 0x08 (fun a b => a + b) ∧
  formR .sub 0x09 (fun a b => a - b) ∧
  formR .and 0x0A (fun a b => a &&& b) ∧
  formR .or 0x0B (fun a b => a ||| b) ∧
  formR .xor 0x0C (fun a b => a ^^^ b) ∧
  formR .shl 0x0D (fun a b => BitVec.ofNat 32 (a.toNat * 2 ^ (b.toNat % 32))) ∧
  formR .shr 0x0E (fun a b => BitVec.ofNat 32 (a.toNat / 2 ^ (b.toNat % 32))) ∧
  formR .sra 0x0F (fun a b => BitVec.ofInt 32 (a.toInt / 2 ^ (b.toNat % 32))) ∧
  formR .mul 0x10 (fun a b => BitVec.ofNat 32 (a.toNat * b.toNat)) ∧
  formR .min 0x11 (fun a b => if a.toInt ≤ b.toInt then a else b) ∧
  formR .max 0x12 (fun a b => if a.toInt ≤ b.toInt then b else a) ∧
  formR .slt 0x13 (fun a b => if a.toInt < b.toInt then 1 else 0) ∧
  formR .sltu 0x14 (fun a b => if a.toNat < b.toNat then 1 else 0) ∧
  formR .ceq 0x15 (fun a b => if a = b then 1 else 0) ∧
  formI .addi 0x18 (fun a b => a + b) ∧
  formI .andi 0x19 (fun a b => a &&& b) ∧
  formI .ori 0x1A (fun a b => a ||| b) ∧
  formI .xori 0x1B (fun a b => a ^^^ b) ∧
  formI .shli 0x1C (fun a b => BitVec.ofNat 32 (a.toNat * 2 ^ (b.toNat % 32))) ∧
  formI .shri 0x1D (fun a b => BitVec.ofNat 32 (a.toNat / 2 ^ (b.toNat % 32))) ∧
  formI .srai 0x1E (fun a b => BitVec.ofInt 32 (a.toInt / 2 ^ (b.toNat % 32))) ∧
  formI .ceqi 0x1F (fun a b => if a = b then 1 else 0)

/-- Table TILE.4, opcodes 0x28 to 0x39 (R109, R111, R112): the address registers, the conditional branches, the jumps and
BBUSY. -/
def Obligations.SeqAddressAndJumps : Prop :=
  seqOp .amov 0x28 (fun u c w q => goOn (q.pc + 1)
    { q with ad := q.ad.set (inXD w % 8) ((xGet u c (inXA w)).setWidth 16 ++ xGet u c (inXB w)) }) ∧
  seqOp .aadd 0x29 (fun _ _ w q => goOn (q.pc + 1)
    { q with ad := q.ad.set (inXD w % 8) (q.ad.getD (inXD w % 8) 0 + (BitVec.ofNat 32 (inImm w)).signExtend 48) }) ∧
  seqOp .aaddr 0x2A (fun u c w q => goOn (q.pc + 1)
    { q with ad := q.ad.set (inXD w % 8) (q.ad.getD (inXD w % 8) 0 + (xGet u c (inXA w)).signExtend 48) }) ∧
  scalarOp .aget 0x2B (fun u c w =>
    if inImm w = 0 then ((sq u c).ad.getD (inXA w % 8) 0).extractLsb' 0 32
    else (((sq u c).ad.getD (inXA w % 8) 0).extractLsb' 32 16).setWidth 32) ∧
  formB .beq 0x30 (fun a b => a = b) ∧
  formB .bne 0x31 (fun a b => a ≠ b) ∧
  formB .blt 0x32 (fun a b => a.toInt < b.toInt) ∧
  formB .bge 0x33 (fun a b => b.toInt ≤ a.toInt) ∧
  formB .bltu 0x34 (fun a b => a.toNat < b.toNat) ∧
  formB .bgeu 0x35 (fun a b => b.toNat ≤ a.toNat) ∧
  formB .jmp 0x36 (fun _ _ => True) ∧
  (∀ (c : Fin 4352) (w : Nat) (s u : State), issues c 0x37 [0] w s u → ∀ p : Nat, p < 8192 →
    (p : Int) = (sq u c).pc + (BitVec.ofNat 32 (inImm w)).toInt →
    ∃ t, exec (.jal c) s = .next t ∧ scalarDone c (inXD w) (BitVec.ofNat 32 ((sq u c).pc + 1)) (goOn p) u t) ∧
  seqOp .jr 0x38 (fun u c w => goOn ((xGet u c (inXA w)).toNat % 8192)) ∧
  (∀ (c : Fin 4352) (w : Nat) (s u : State), issues c 0x39 [0] w s u →
    ((sq u c).busyFlag = true → ∀ p : Nat, p < 8192 →
      (p : Int) = (sq u c).pc + (BitVec.ofNat 32 (inImm w)).toInt →
      ∃ t, exec (.bbusy c) s = .next t ∧ onward c (fun q => goOn p { q with busyFlag := false }) u t) ∧
    ((sq u c).busyFlag = false →
      ∃ t, exec (.bbusy c) s = .next t ∧ onward c (goOn ((sq u c).pc + 1)) u t))


/-- R113, R114 and Table TILE.4, opcodes 0x20 to 0x25, where the access passes its checks: LD and LDC put the value read,
zero- or sign-extended, into XD; ST and STC store the low bytes of XD; the atomics put the old value into XD; an access
answered with busy sets the busy flag and, for LDC, leaves XD open. -/
def Obligations.SeqMemory : Prop :=
  (∀ (c : Fin 4352) (w m off : Nat) (d : List Byte) (s u v : State), issues c 0x20 [0] w s u →
    lsCheck u c w false = (0, m, off) → spReadBytes c m off (2 ^ inSize w) u = (some d, v) →
    ∃ t, exec (.ld c) s = .next t ∧ scalarDone c (inXD w)
      (if inSX w then (BitVec.ofNat (8 * 2 ^ inSize w) (leNat d)).signExtend 32 else BitVec.ofNat 32 (leNat d))
      (goOn ((sq v c).pc + 1)) v t) ∧
  (∀ (c : Fin 4352) (w m off : Nat) (s u : State), issues c 0x21 [0] w s u → lsCheck u c w true = (0, m, off) →
    let v := spWriteBytes c m off (leBytes (2 ^ inSize w) (xGet u c (inXD w)).toNat) u
    ∃ t, exec (.st c) s = .next t ∧ onward c (goOn ((sq v c).pc + 1)) v t) ∧
  (∀ (c : Fin 4352) (w : Nat) (d : List Byte) (s u v : State), issues c 0x22 [0] w s u → csCheck u c w false = 0 →
    csReadBytes (coreClu c) (memOff u c w) 4 (csCount (coreClu c) 0 (seqTx u c (memOff u c w)) u) = (some d, v) →
    ∃ t, exec (.ldc c false) s = .next t ∧
      scalarDone c (inXD w) (BitVec.ofNat 32 (leNat d)) (goOn ((sq v c).pc + 1)) v t) ∧
  (∀ (c : Fin 4352) (w : Nat) (s u : State), issues c 0x22 [0] w s u → csCheck u c w false = 0 →
    ∃ t, exec (.ldc c true) s = .next t ∧
      oneSeq c (fun q => goOn (q.pc + 1) { q with busyFlag := true }) u t ∧
      (∀ o, o ≠ coreBase c + 0x400 + 4 * inXD w → o ≠ cluBase (coreClu c) → rget t o = rget u o) ∧
      onlyCores { u with fresh := u.fresh + 1 } t) ∧
  (∀ (c : Fin 4352) (w : Nat) (s u : State), issues c 0x23 [0] w s u → csCheck u c w true = 0 →
    let v := csWriteBytes (coreClu c) (memOff u c w) (leBytes 4 (xGet u c (inXD w)).toNat)
      (csCount (coreClu c) 0 (seqTx u c (memOff u c w)) u)
    ∃ t, exec (.stc c false) s = .next t ∧ onward c (goOn ((sq v c).pc + 1)) v t) ∧
  (∀ (c : Fin 4352) (w : Nat) (s u : State), issues c 0x23 [0] w s u → csCheck u c w true = 0 →
    ∃ t, exec (.stc c true) s = .next t ∧
      oneSeq c (fun q => goOn (q.pc + 1) { q with busyFlag := true }) u t ∧
      (∀ o, o ≠ cluBase (coreClu c) → rget t o = rget u o) ∧ onlyCores u t) ∧
  (∀ (c : Fin 4352) (w old : Nat) (s u v : State), issues c 0x24 [0] w s u → csCheck u c w true = 0 →
    csAtomic (coreClu c) (memOff u c w) .add32 (xGet u c (inXBM w)).toNat (seqTx u c (memOff u c w))
      (csCount (coreClu c) 0 (seqTx u c (memOff u c w)) u) = (some old, v) →
    ∃ t, exec (.aaddc c) s = .next t ∧ scalarDone c (inXD w) (BitVec.ofNat 32 old) (goOn ((sq v c).pc + 1)) v t) ∧
  (∀ (c : Fin 4352) (w old : Nat) (s u v : State), issues c 0x25 [0] w s u → csCheck u c w true = 0 →
    csAtomic (coreClu c) (memOff u c w) .swap32 (xGet u c (inXBM w)).toNat (seqTx u c (memOff u c w))
      (csCount (coreClu c) 0 (seqTx u c (memOff u c w)) u) = (some old, v) →
    ∃ t, exec (.aswpc c) s = .next t ∧ scalarDone c (inXD w) (BitVec.ofNat 32 old) (goOn ((sq v c).pc + 1)) v t)

/-- R115 and R117: TKWAIT waits until the ticket reaches its operand and then subtracts it unless KEEP is 1; TKADD adds and
stops at 65 535 with a held trap of the ticket unit, as every increment does; TKSET loads; TKRD reads; ticket 0 is a reserved
field. -/
def Obligations.SeqTickets : Prop :=
  (∀ (c : Fin 4352) (w : Nat) (s u : State), issues c 0x40 [0] w s u →
    (tkOperand u c w ≤ tkGet u c (inTK w) → ∃ t, exec (.tkwait c) s = .next t ∧
      ticketDone c (inTK w) (tkGet u c (inTK w) - (if inKeep w then 0 else tkOperand u c w))
        (goOn ((sq u c).pc + 1)) u t) ∧
    (tkGet u c (inTK w) < tkOperand u c w → ∃ t, exec (.tkwait c) s = .next t ∧
      onward c (fun q => { q with wait := 1 }) u t)) ∧
  (∀ (c : Fin 4352) (w : Nat) (s u : State), (sq s c).wait = 1 → issues c 0x40 [1] w s u →
    tkOperand u c w ≤ tkGet u c (inTK w) → ∃ t, exec (.tkwaitSatisfied c) s = .next t ∧
      ticketDone c (inTK w) (tkGet u c (inTK w) - (if inKeep w then 0 else tkOperand u c w))
        (goOn ((sq u c).pc + 1)) u t) ∧
  (∀ (c : Fin 4352) (w : Nat) (s u : State), issues c 0x41 [0] w s u →
    (tkGet u c (inTK w) + tkOperand u c w ≤ 65535 → ∃ t, exec (.tkadd c) s = .next t ∧
      ticketDone c (inTK w) (tkGet u c (inTK w) + tkOperand u c w) (goOn ((sq u c).pc + 1)) u t) ∧
    (65535 < tkGet u c (inTK w) + tkOperand u c w → srcHeld (sq u c) 6 = false → ∃ t, exec (.tkadd c) s = .next t ∧
      ticketDone c (inTK w) 65535 (fun q => goOn (q.pc + 1) { q with held := q.held ++
        [{ src := 6, cause := 0x12, pc := q.pc, word := w, detail := inTK w, detailHi := 0 }] }) u t)) ∧
  (∀ (c : Fin 4352) (w : Nat) (s u : State), issues c 0x42 [0] w s u → tkOperand u c w ≤ 65535 →
    ∃ t, exec (.tkset c) s = .next t ∧ ticketDone c (inTK w) (tkOperand u c w) (goOn ((sq u c).pc + 1)) u t) ∧
  scalarOp .tkrd 0x43 (fun u c w => BitVec.ofNat 32 (tkGet u c (inTK w))) ∧
  (∀ (c k n src pc word : Nat) (s : State), k ≠ 0 → 65535 < tkGet s c k + n → tkGet (tkAdd c k n src pc word s) c k = 65535 ∧
    (srcHeld (sq s c) 6 = false → (sq (tkAdd c k n src pc word s) c).held = (sq s c).held ++
      [{ src := 6, cause := 0x12, pc := pc, word := word, detail := k, detailHi := src }])) ∧
  (∀ (c : Fin 4352) (i : Instr) (op w : Nat) (s u : State), (i = .tkadd c ∧ op = 0x41) ∨ (i = .tkset c ∧ op = 0x42) →
    seqReady s c [0] = true → (sq s c).pc < 8192 → seqFetch c (sq s c).pc s = (some w, u) → inOp w = op → inTK w = 0 →
    wBit (corReg u c 0x208) 31 = true → (sq u c).inTrap = false → (sq u c).stop = 0 → ∃ t, exec i s = .next t ∧
      wFld (corReg t c 0x220) 7 0 = 0x02 ∧ (sq t c).inTrap = true ∧ (sq t c).pc = wFld (corReg u c 0x208) 12 0 ∧
      (∀ o, o < coreBase c + 0x220 ∨ coreBase c + 0x240 ≤ o → rget t o = rget u o) ∧
      onlyCores { u with fresh := u.fresh + 1 } t)

/-- R140 to R143 and Table TILE.4: NOP, HALT, TRAP with an enabled handler outside a handler, TRET, TABORT, the channel
status and clear instructions and the CSR accesses. -/
def Obligations.SeqControl : Prop :=
  seqOp .nop 0x00 (fun _ _ _ q => goOn (q.pc + 1) q) ∧
  seqOp .halt 0x01 (fun _ _ _ q => { goOn (q.pc + 1) q with run := false, stop := 1 }) ∧
  (∀ (c : Fin 4352) (w : Nat) (s u : State), issues c 0x02 [0] w s u → wBit (corReg u c 0x208) 31 = true →
    (sq u c).inTrap = false → (sq u c).stop = 0 → (∀ h ∈ (sq u c).held, h.src < 8) → ∃ t, exec (.trap c) s = .next t ∧
      oneSeq c (fun q => { q with
        held := q.held.filter (fun h => h.src != 0), epc := q.pc % 8192, inTrap := true, curSrc := 0, wait := 0,
        pc := wFld (corReg u c 0x208) 12 0 }) u t ∧
      wFld (corReg t c 0x220) 31 31 = 1 ∧ wFld (corReg t c 0x220) 18 16 = 0 ∧ wFld (corReg t c 0x220) 7 0 = 0x16 ∧
      wFld (corReg t c 0x224) 12 0 = (sq u c).pc % 8192 ∧ (corReg t c 0x230).toNat = inCode w ∧
      (∀ o, o < coreBase c + 0x220 ∨ coreBase c + 0x240 ≤ o → rget t o = rget u o) ∧
      onlyCores { u with fresh := u.fresh + 1 } t) ∧
  (∀ (c : Fin 4352) (w : Nat) (s u : State), issues c 0x03 [0] w s u → (sq u c).inTrap = true →
    (sq u c).curSrc = 0 → ∃ t, exec (.tret c) s = .next t ∧
      onward c (fun q => goOn (if inCode w % 2 = 1 then q.epc + instWords u c q.epc else q.epc)
        { q with inTrap := false }) u t) ∧
  (∀ (c : Fin 4352) (w : Nat) (s u : State), issues c 0x04 [0] w s u → ∃ t, exec (.tabort c) s = .next t ∧
    (sq t c).run = false ∧ (sq t c).held = [] ∧ (sq t c).stop = 3 ∧
    (cget t c).mxe.queue = (cget u c).mxe.queue.filter (fun q => q.started) ∧
    (cget t c).vxe.queue = (cget u c).vxe.queue.filter (fun q => q.performed) ∧
    (∀ m ∈ (cget t c).mov, m.queue = []) ∧
    (∀ n : Fin 2, (colget t (2 * c + n)).nbu.queue = (colget u (2 * c + n)).nbu.queue.filter (fun q => q.started)) ∧
    t.regs = u.regs ∧ t.sp = u.sp ∧ t.t1 = u.t1) ∧
  (∀ (c : Fin 4352) (w : Nat) (s u : State), issues c 0x4C [0] w s u → ∃ t, exec (.movclr c) s = .next t ∧
    t.regs = u.regs ∧ onlyCores u t ∧ (∀ k, k ≠ c.val → cget t k = cget u k) ∧
    cget t c = { cget u c with
      seq := goOn ((sq u c).pc + 1) (sq u c),
      mov := (cget u c).mov.modify (inCode w % 8) (fun m => { m with queue := [], status := 0, halted := false }) }) ∧
  scalarOp .movst 0x4D (fun u c w => movWord (listAt (cget u c).mov (inCode w % 8) MovCh.reset)) ∧
  (∀ (c : Fin 4352) (w : Nat) (s u : State), issues c 0x58 [0] w s u → ∃ t v, exec (.csrr c) s = .next t ∧
    scalarDone c (inXD w) v (goOn ((sq u c).pc + 1)) { u with fresh := t.fresh } t ∧
    (inCode w = 2 → v = BitVec.ofNat 32 (sq u c).epc) ∧
    (∀ i, i < 8 → inCode w = 0x10 + i → v = corReg u c (0x220 + 4 * i)) ∧
    (∀ a b k, inCode w = 3 → coreName u c = some (a, b, k) → v = BitVec.ofNat 32 (a * 2 ^ 16 + b * 2 ^ 8 + k)) ∧
    (∀ p, inCode w = 4 → corePart u c = some p → v = BitVec.ofNat 32 p)) ∧
  seqOp .csrw 0x59 (fun u c w q => goOn (q.pc + 1) { q with epc := (xGet u c (inXA w)).toNat % 8192 })

/-- R118: DISP fetches the literal words, patches them and appends the command to its engine's queue while that has room,
and stalls on a full queue. `v` is the state after the literal words are fetched. -/
def Obligations.SeqDispatch : Prop :=
  ∀ (c : Fin 4352) (w : Nat) (ws : List Nat) (s u v : State),
    issues c 0x48 [0, 4] w s u → (sq u c).pc + engWords (fld w 55 53) ≤ 8191 →
    fetchWords c (engWords (fld w 55 53)) ((sq u c).pc + 1) u = (some ws, v) → (cget v c).unified = false →
    let cmd := dispWords v c w ws
    (engFull v c (fld w 55 53) cmd = true →
      ∃ t, exec (.disp c) s = .next t ∧ onward c (fun q => { q with wait := 4 }) v t) ∧
    (engFull v c (fld w 55 53) cmd = false →
      ∃ t, exec (.disp c) s = .next (if fld w 55 53 = 0 then feedAhead c t else t) ∧
        (sq t c).pc = (sq v c).pc + (1 + engWords (fld w 55 53)) ∧ (sq t c).wait = 0 ∧
        t.regs = v.regs ∧ (∀ k, k ≠ c.val → cget t k = cget v k) ∧
        (fld w 55 53 = 0 → ∃ q, (cget t c).mxe.queue = (cget v c).mxe.queue ++ [q] ∧
          q.w0 = listAt cmd 0 0 ∧ q.w1 = listAt cmd 1 0 ∧ q.started = false) ∧
        (fld w 55 53 = 1 → ∃ q, (cget t c).vxe.queue = (cget v c).vxe.queue ++ [q] ∧
          q.w0 = listAt cmd 0 0 ∧ q.w1 = listAt cmd 1 0 ∧ q.performed = false) ∧
        (fld w 55 53 = 2 → (cget t c).mov = (cget v c).mov.modify (fld (listAt cmd 0 0) 14 12) (fun m =>
          { m with queue := m.queue ++ [{ w0 := listAt cmd 0 0, w1 := listAt cmd 1 0, w2 := listAt cmd 2 0,
                                           w3 := listAt cmd 3 0, pc := (sq u c).pc }] })) ∧
        (∀ n : Fin 2, fld w 55 53 = 3 + n →
          ∃ q, (colget t (2 * c + n)).nbu.queue = (colget v (2 * c + n)).nbu.queue ++ [q] ∧
            q.w0 = listAt cmd 0 0 ∧ q.w1 = listAt cmd 1 0 ∧ q.started = false))

/-- R136, R137, R140, R142 and R143: barriers, the taking of a held trap, a wait's timeout, and a core's halting. -/
def Obligations.SeqWaits : Prop :=
  (∀ (c : Fin 4352) (w old : Nat) (s u v : State), issues c 0x50 [0] w s u → csCheck u c w true = 0 →
    csAtomic (coreClu c) (memOff u c w) .add32 1 (seqTx u c (memOff u c w))
      (csCount (coreClu c) 0 (seqTx u c (memOff u c w)) u) = (some old, v) →
    ∃ t, exec (.cbar c) s = .next t ∧ onward c (fun q => { q with wait := 2 }) v t) ∧
  (∀ (c : Fin 4352) (w old : Nat) (s v : State), (sq s c).wait = 2 → (seqFetch c (sq s c).pc s).1 = some w →
    csAtomic (coreClu c) (memOff s c w) .add32 0 (seqTx s c (memOff s c w))
      (csCount (coreClu c) 0 (seqTx s c (memOff s c w)) s) = (some old, v) → coreRuns s c = true →
    ∃ t, exec (.cbarPoll c) s = .next t ∧
      (0 ≤ (BitVec.ofNat 32 old - xGet v c (inXBM w)).toInt → onward c (goOn ((sq v c).pc + 1)) v t) ∧
      ((BitVec.ofNat 32 old - xGet v c (inXBM w)).toInt < 0 → t = v)) ∧
  (∀ (c : Fin 4352) (w : Nat) (s u : State), issues c 0x51 [0] w s u → wBit (corReg u c 0x210) (inCode w % 16) = true →
    ∃ t, exec (.gbar c) s = .next t ∧ t.regs = u.regs ∧ oneSeq c (fun q => { q with wait := 3 }) u t ∧
      onlyCores { u with gbarArr := t.gbarArr } t ∧
      c.val ∈ stGet (fun _ => []) t.gbarArr (gbarKey (gbarPart u c) (inCode w % 16)) ∧
      (∀ k, k ≠ gbarKey (gbarPart u c) (inCode w % 16) →
        stGet (fun _ => []) t.gbarArr k = stGet (fun _ => []) u.gbarArr k)) ∧
  (∀ (p : Fin 65) (g : Fin 16) (s : State), stGet (fun _ => []) s.gbarArr (gbarKey p g) ≠ [] →
    (∀ c ∈ gbarMembers s p g, c ∈ stGet (fun _ => []) s.gbarArr (gbarKey p g)) →
    ∃ t, exec (.gbarRelease p g) s = .next t ∧ stGet (fun _ => []) t.gbarArr (gbarKey p g) = [] ∧
      nsHas t.gbarEpoch (gbarKey p g) = !nsHas s.gbarEpoch (gbarKey p g) ∧ t.regs = s.regs ∧
      (∀ c, (stGet (fun _ => []) s.gbarArr (gbarKey p g)).Nodup → (sq s c).wait = 3 →
        c ∈ stGet (fun _ => []) s.gbarArr (gbarKey p g) → sq t c = goOn ((sq s c).pc + 1) (sq s c)) ∧
      (∀ c, c ∉ stGet (fun _ => []) s.gbarArr (gbarKey p g) → cget t c = cget s c)) ∧
  (∀ (c : Fin 4352) (h : HeldTrap) (s : State), firstHeld (sq s c) = some h → (sq s c).stop = 0 → (sq s c).run = true →
    (sq s c).inTrap = false → (sq s c).wait ≠ 2 → (sq s c).wait ≠ 3 → wBit (corReg s c 0x208) 31 = true →
    h.cause ≠ 0x09 → coreRuns s c = true → ∃ t, exec (.trapTake c) s = .next t ∧
      oneSeq c (fun q => { q with
        held := q.held.filter (fun k => k.src != h.src), epc := q.pc % 8192, inTrap := true, curSrc := h.src, wait := 0,
        pc := wFld (corReg s c 0x208) 12 0 }) s t ∧
      (∀ o, o < coreBase c + 0x220 ∨ coreBase c + 0x240 ≤ o → rget t o = rget s o) ∧
      onlyCores { s with fresh := s.fresh + 1 } t) ∧
  (∀ (c : Fin 4352) (s : State), corReg s c 0x20C ≠ 0 → (sq s c).run = true →
    (sq s c).wait = 1 ∨ (sq s c).wait = 3 → wBit (corReg s c 0x208) 31 = true → (sq s c).inTrap = false → (sq s c).stop = 0 →
    coreRuns s c = true →
    ∃ t, exec (.waitTimeout c) s = .next t ∧
      oneSeq c (fun q => { q with
        held := q.held.filter (fun k => k.src != 0), epc := q.pc % 8192, inTrap := true, curSrc := 0, wait := 0,
        pc := wFld (corReg s c 0x208) 12 0 }) s t ∧
      wFld (corReg t c 0x220) 7 0 = 0x13 ∧
      (∀ o, o < coreBase c + 0x220 ∨ coreBase c + 0x240 ≤ o → rget t o = rget s o) ∧ onlyCores { s with fresh := s.fresh + 1, gbarArr := t.gbarArr } t ∧
      ((sq s c).wait ≠ 3 → t.gbarArr = s.gbarArr)) ∧
  (∀ (c : Fin 4352) (w old : Nat) (s v : State), corReg s c 0x20C ≠ 0 → (sq s c).run = true → (sq s c).wait = 2 →
    wBit (corReg s c 0x208) 31 = true → (sq s c).inTrap = false → (sq s c).stop = 0 → coreRuns s c = true →
    (seqFetch c (sq s c).pc s).1 = some w →
    csAtomic (coreClu c) (memOff s c w) .add32 (2 ^ 32 - 1) (seqTx s c (memOff s c w)) s = (some old, v) →
    ∃ t, exec (.waitTimeout c) s = .next t ∧
      oneSeq c (fun q => { q with
        held := q.held.filter (fun k => k.src != 0), epc := q.pc % 8192, inTrap := true, curSrc := 0, wait := 0,
        pc := wFld (corReg s c 0x208) 12 0 }) v t ∧
      wFld (corReg t c 0x220) 7 0 = 0x13 ∧
      (∀ o, o < coreBase c + 0x220 ∨ coreBase c + 0x240 ≤ o → rget t o = rget v o) ∧ onlyCores { v with fresh := v.fresh + 1 } t) ∧
  (∀ (c : Fin 4352) (s : State), corReg s c 0x20C = 0 ∨ (sq s c).wait = 4 → exec (.waitTimeout c) s = .next s) ∧
  (∀ (c : Fin 4352) (s : State), (sq s c).stop ≠ 0 → (sq s c).held = [] → coreIdle s c = true → coreRuns s c = true →
    ∃ t, exec (.coreHalted c) s = .next t ∧ t.regs = s.regs ∧ onlyCores s t ∧
      (∀ k, k ≠ c.val → cget t k = cget s k) ∧
      cget t c = { cget s c with halted := true, seq := { (sq s c) with
        stop := 0, run := false, wait := 0, held := [], report := if (sq s c).stop = 3 then 2 else 1 } })

/-- R109, R143, R145 and Table TILE.18: a START on a halted idle core begins at ENTRY with cleared registers, a HALT_REQ
stops issue and discards what has not started, and the load path runs and ends. -/
def Obligations.SeqStartAndLoad : Prop :=
  (∀ (c : Fin 4352) (w : Word) (s : State), wBit w 0 = true → wBit w 1 = false → (cget s c).halted = true →
    (cget s c).powering = [] → (cget s c).loadBusy = false → ∃ t, exec (.seqStart c w) s = .next t ∧
      (cget t c).halted = false ∧ sq t c = { SeqSt.reset with run := true, pc := wFld w 14 2 } ∧
      (∀ i, 9 ≤ i → i ≤ 31 → xGet t c i = 0) ∧ (∀ i, 1 ≤ i → i ≤ 8 → xGet t c i = xGet s c i) ∧
      (∀ k, k ≠ c.val → cget t k = cget s k) ∧ onlyCores s t) ∧
  (∀ (c : Fin 4352) (w : Word) (s : State), wBit w 0 = false → wBit w 1 = true → (cget s c).halted = false →
    ∃ t, exec (.haltReq c w) s = .next t ∧ (sq t c).run = false ∧ (sq t c).stop = (if (sq s c).stop = 3 then 3 else 2) ∧ (sq t c).startPend = false ∧
      (cget t c).mxe.queue = (cget s c).mxe.queue.filter (fun q => q.started) ∧
      (cget t c).vxe.queue = (cget s c).vxe.queue.filter (fun q => q.performed) ∧
      (∀ m ∈ (cget t c).mov, m.queue = []) ∧ t.regs = s.regs ∧ (∀ k, k ≠ c.val → cget t k = cget s k)) ∧
  (∀ (c : Fin 4352) (w : Word) (s : State), wBit w 0 = false → wBit w 1 = true → (cget s c).halted = true →
    ∃ t, exec (.haltReq c w) s = .next t ∧
      cget t c = { cget s c with seq := { (cget s c).seq with startPend := false } } ∧
      (∀ k, k ≠ c.val → cget t k = cget s k)) ∧
  (∀ (c : Fin 4352) (w : Word) (s : State), wBit w 30 = true → ∃ t, exec (.loadGo c w) s = .next t ∧
    oneReg (coreBase c + 0x2A4) (w &&& 0x23FF03FF) s t ∧ onlyCores s t ∧
    ((cget s c).halted = true → cget t c = { cget s c with loadBusy := true }) ∧
    ((cget s c).halted = false → cget t c = { cget s c with ctlErr := true })) ∧
  (∀ (c : Fin 4352) (s : State), (cget s c).loadBusy = true → coreRuns s c = true → ∃ t, exec (.loadPathDone c) s = .next t ∧
    (cget t c).loadBusy = false ∧ (sq t c).loopBuf = [])

/-- R92, R101, R103, R105 and R115: an MXE command starts in order when its unit is free, its conditions hold and its
ticket is there; a SWAP STREAM promotes the shadow tile; a command finishes, and retires with its TS ticket. -/
def Obligations.MxeQueue : Prop :=
  (∀ (c : Fin 4352) (i : Nat) (q : MxeCmd) (s : State),
    findIdx? (fun e : MxeCmd => !e.started) (cget s c).mxe.queue = some i → (cget s c).mxe.queue[i]? = some q →
    engineFree (sq s c) 1 = true → mxCanStart (cget s c).mxe i q = true → mxeTicket s c (cmdTW q.w0) = true → coreRuns s c = true →
    (cmdOP q.w0 = 2 → streamStartCheck s c i q.w0 q.w1 = 0) →
    ∃ t, exec (.mxeCommandStart c) s = .next (feedAhead c t) ∧ ticketTaken c (cmdTW q.w0) s t ∧ oneCore c s t ∧
      (∀ o, o ≠ tkKey c (cmdTW q.w0) → rget t o = rget s o) ∧ onlyCores s t ∧
      cget t c = { cget s c with mxe := { (cget s c).mxe with
        queue := (cget s c).mxe.queue.modify i (mxStarted (cget s c).mxe i) } }) ∧
  (∀ (c : Fin 4352) (i : Nat) (s : State),
    findIdx? (fun e : MxeCmd => e.started && !e.performed && cmdOP e.w0 == 2 && stSwap e.w0 && !e.promoted)
      (cget s c).mxe.queue = some i →
    (∀ e ∈ (cget s c).mxe.queue.take i, cmdOP e.w0 = 1 → e.finished = true) → coreRuns s c = true →
    ∃ t, exec (.shadowPromote c) s = .next t ∧ t.regs = s.regs ∧ oneCore c s t ∧ onlyCores s t ∧
      cget t c = { cget s c with mxe := { (cget s c).mxe with
        active := (cget s c).mxe.shadow, shadowFull := false,
        queue := (cget s c).mxe.queue.modify i (fun e => { e with promoted := true }) } }) ∧
  (∀ (c : Fin 4352) (i : Fin 8) (q : MxeCmd) (s : State), (cget s c).mxe.queue[i.val]? = some q →
    q.performed = true → q.finished = false → coreRuns s c = true →
    ∃ t, exec (.mxeCommandFinish c i) s = .next t ∧ t.regs = s.regs ∧ oneCore c s t ∧ onlyCores s t ∧
      cget t c = { cget s c with mxe := { (cget s c).mxe with
        shadowFull := (cget s c).mxe.shadowFull || cmdOP q.w0 == 1,
        queue := (cget s c).mxe.queue.modify i (fun e => { e with finished := true }) } }) ∧
  (∀ (c : Fin 4352) (q : MxeCmd) (rest : List MxeCmd) (s : State), (cget s c).mxe.queue = q :: rest →
    q.finished = true → tkGet s c (cmdTS q.w0) < 65535 → coreRuns s c = true → (q.poison = true → srcHeld (sq s c) 1 = true → (sq s c).stop = 3) →
    ∃ t, exec (.mxeCommandRetire c) s = .next t ∧ oneCore c s t ∧ onlyCores s t ∧
      (cget t c).mxe = { (cget s c).mxe with queue := rest, lastOp := cmdOP q.w0 } ∧
      (cmdTS q.w0 ≠ 0 → tkGet t c (cmdTS q.w0) = tkGet s c (cmdTS q.w0) + 1) ∧
      (∀ o, o ≠ tkKey c (cmdTS q.w0) → rget t o = rget s o) ∧
      (q.poison = true → srcHeld (sq t c) 1 = true) ∧ (q.poison = false → sq t c = sq s c)) ∧
  (∀ (c : Fin 4352) (q : MxeCmd) (rest : List MxeCmd) (s : State), (cget s c).mxe.queue = q :: rest →
    q.poison = true → srcHeld (sq s c) 1 = true → (sq s c).stop ≠ 3 → exec (.mxeCommandRetire c) s = .next s)

/-- R84, R90, R93, R97 to R100: what each MXE command does to the shadow tile, the accumulator entries and PSP. -/
def Obligations.MxeCommands : Prop :=
  (∀ (c : Fin 4352) (i : Nat) (q : MxeCmd) (blks scl : List (Option (List Byte))) (s u v : State),
    mxRun s c 1 = some i → (cget s c).mxe.queue[i]? = some q →
    feedBlocks c ((List.range (tileBlocks (mxFmt q.w0) (wlRows q.w0))).map (fun k => wlBase q.w0 + k)) s = (blks, u) →
    feedBlocks c ((List.range (tileScales (mxFmt q.w0))).map (fun k => wlSbase q.w0 + k)) u = (scl, v) →
    ∃ t y, exec (.wload c) s = .next t ∧ mxeDone c i v t ∧ (cget t c).mxe.shadow = some y ∧
      (cget t c).mxe.shadowFull = false ∧ (cget t c).mxe.acc = (cget v c).mxe.acc ∧
      (cget t c).mxe.active = (cget v c).mxe.active ∧
      y.fmt = mxFmt q.w0 ∧ y.rows = wlRows q.w0 ∧ y.cols = wlCols q.w0 ∧
      (∀ r k, r < y.rows → k < y.cols → listAt (listAt y.cells r []) k 0 =
        if fmt16 y.fmt then leAt ((listAt blks (2 * r + k / 32) none).getD []) (2 * (k % 32)) 2
        else leAt ((listAt blks r none).getD []) k 1) ∧
      (∀ o, o ≠ coreBase c + 0x118 → rget t o = rget v o)) ∧
  (∀ (c : Fin 4352) (y : MxeCycles) (i : Nat) (q : MxeCmd) (tl : Tile) (ds : List (Option (List Byte))) (s v : State),
    mxRun s c 2 = some i → (cget s c).mxe.queue[i]? = some q → (cget s c).mxe.active = some tl →
    tl.cols ≤ 64 → halfBusy (cget s c).mxe i (stHalf q.w0) = false → (stSwap q.w0 = true → q.promoted = true) →
    feedBlocks c (streamBlks tl.fmt q.w0 q.w1) s = (ds, v) →
    let m := (cget v c).mxe
    let r0 := (streamRows q.w0 q.w1).1
    let n := (streamRows q.w0 q.w1).2
    ∃ t, exec (.stream c y) s = .next (feedAhead c t) ∧ mxeDone c i v t ∧
      (∀ k col, k < n → col < tl.cols → accGet (cget t c).mxe (r0 + k) col =
        BitVec.ofNat 32 (streamCell ((streamBlks tl.fmt q.w0 q.w1).zip ds) tl q.w0 q.w1 k col
          (if stInit q.w0 then none else some (accGet m (r0 + k) col))).bits) ∧
      (∀ k, k < n → tagGet (cget t c).mxe (r0 + k) = groupTag tl.fmt) ∧
      (∀ row col, row < r0 ∨ r0 + n ≤ row → col < 64 →
        accGet (cget t c).mxe row col = accGet m row col ∧ tagGet (cget t c).mxe row = tagGet m row)) ∧
  (∀ (c : Fin 4352) (y : MxeCycles) (i : Nat) (q : MxeCmd) (av bv : List (Option (List Byte))) (s u v : State),
    mxRun s c 3 = some i → (cget s c).mxe.queue[i]? = some q →
    halfBusy (cget s c).mxe i (ewHalf q.w0) = false →
    spReadBlocks c ((List.range (ewVBlocks q.w0)).map (fun k => 5120 + ewV q.w0 + k)) s = (av, u) →
    spReadBlocks c (if mxFmt q.w0 = 2 then (List.range 4).map (fun k => 5120 + ewU q.w0 + k) else []) u = (bv, v) →
    let m := (cget v c).mxe
    let r0 := ewHalf q.w0 * 128 + ewRow0 q.w0
    ∃ t, exec (.ewise c y) s = .next t ∧ mxeDone c i v t ∧
      (∀ k col, k ≤ ewRows q.w0 → col < 64 → accGet (cget t c).mxe (r0 + k) col =
        BitVec.ofNat 32 (ewOp (mxFmt q.w0) (ewEntry m (r0 + k) col)
          ((ewOperand av (if mxFmt q.w0 = 3 then k else col)).getD 0)
          ((if mxFmt q.w0 = 2 then ewOperand bv col else some 0).getD 0)).bits) ∧
      (∀ k, k ≤ ewRows q.w0 → tagGet (cget t c).mxe (r0 + k) = 1) ∧
      (∀ row col, row < r0 ∨ r0 + ewRows q.w0 < row → col < 64 →
        accGet (cget t c).mxe row col = accGet m row col ∧ tagGet (cget t c).mxe row = tagGet m row)) ∧
  (∀ (c : Fin 4352) (i : Nat) (q : MxeCmd) (s : State),
    mxRun s c 4 = some i → (cget s c).mxe.queue[i]? = some q →
    let r0 := drHalf q.w0 * 128 + drRow0 q.w0
    (mxFmt q.w0 = 0 → ∃ t, exec (.accload c) s = .next t ∧ mxeDone c i s t ∧ t.regs = s.regs ∧ onlyCores s t ∧
      (∀ k col, k ≤ drRows q.w0 → col < 64 → accGet (cget t c).mxe (r0 + k) col = 0 ∧
        tagGet (cget t c).mxe (r0 + k) = 0 ∧ accMarked (cget t c).mxe (r0 + k) col = false) ∧
      (∀ row col, row < r0 ∨ r0 + drRows q.w0 < row → col < 64 →
        accGet (cget t c).mxe row col = accGet (cget s c).mxe row col)) ∧
    (∀ d : Nat → Nat → List Byte, mxFmt q.w0 ≠ 0 → (∀ k j, k ≤ drRows q.w0 → j < 4 →
        spRead c (5120 + drBase q.w0 + k * drStride q.w0 + j) s = (some (d k j), s)) →
      ∃ t, exec (.accload c) s = .next t ∧ mxeDone c i s t ∧ t.regs = s.regs ∧ onlyCores s t ∧
        (∀ k col, k ≤ drRows q.w0 → col < 64 →
          accGet (cget t c).mxe (r0 + k) col = BitVec.ofNat 32 (leAt (d k (col / 16)) (4 * (col % 16)) 4) ∧
          tagGet (cget t c).mxe (r0 + k) = mxFmt q.w0) ∧
        (∀ row col, row < r0 ∨ r0 + drRows q.w0 < row → col < 64 →
          accGet (cget t c).mxe row col = accGet (cget s c).mxe row col))) ∧
  (∀ (c : Fin 4352) (i : Nat) (q : MxeCmd) (s : State),
    mxRun s c 5 = some i → (cget s c).mxe.queue[i]? = some q →
    ∃ t, exec (.drain c) s = .next t ∧ mxeDone c i s t ∧ t.regs = s.regs ∧ (cget t c).mxe.acc = (cget s c).mxe.acc ∧
      (4 ≤ drStride q.w0 → ∀ r j, r ≤ drRows q.w0 → j < 4 →
        (∀ k, k < 16 → accMarked (cget s c).mxe (drHalf q.w0 * 128 + drRow0 q.w0 + r) (16 * j + k) = false) →
        let b := 5120 + drBase q.w0 + r * drStride q.w0 + j
        memRead t.sp (spKey c b) 64 = drainBytes (cget s c).mxe (drHalf q.w0 * 128 + drRow0 q.w0 + r) j ∧
        memRead t.spChk (spChkKey c b) 16 = sramCheck (memRead t.sp (spKey c b) 64) ∧ spWritten t c b = true) ∧
      (∀ a, a < spKey c (5120 + drBase q.w0) ∨
          spKey c (5120 + drBase q.w0 + drRows q.w0 * drStride q.w0 + 4) ≤ a → memGet t.sp a = memGet s.sp a))

/-- R88: an accumulation of the integer group is exact and saturates into INT32, counting in SAT. -/
def Obligations.MxeIntegerAccumulate : Prop :=
  ∀ (pairs : List (Int × Int)) (entry : Int),
    let x := entry + (pairs.map (fun p => p.1 * p.2)).sum
    (BitVec.ofNat 32 (accInt pairs entry).bits).toInt = max (-2 ^ 31) (min (2 ^ 31 - 1) x) ∧
    ((accInt pairs entry).sat = 0 ↔ -2 ^ 31 ≤ x ∧ x < 2 ^ 31) ∧ (accInt pairs entry).nan = 0

/-- R123 and R124, Table TILE.10: each VXE function writes its lane results into VD, and only there. -/
def Obligations.VxeFunctions : Prop :=
  vxeAlu .vadd 0 ∧ vxeAlu .vsub 1 ∧ vxeAlu .vmul 2 ∧ vxeAlu .vfma 3 ∧ vxeAlu .vmax 4 ∧ vxeAlu .vmin 5 ∧
  vxeOp .vcmpgt 3 6 (fun w0 w1 v k =>
    if vxBF w0 then
      (if flGt (flDecode bf16 (vGet v (vxVA w0) k % 65536)) (flDecode bf16 (vxeB w0 w1 v k % 65536)) then 0x3F80 else 0) +
      65536 * (if flGt (flDecode bf16 (vGet v (vxVA w0) k / 65536)) (flDecode bf16 (vxeB w0 w1 v k / 65536)) then 0x3F80
        else 0)
    else if flGt (flDecode fp32 (vGet v (vxVA w0) k)) (flDecode fp32 (vxeB w0 w1 v k)) then 0x3F800000 else 0) ∧
  vxeOp .vsel 3 7 (fun w0 w1 v k =>
    if vxBF w0 then
      (if vGet v (vxVC w0) k % 32768 = 0 then vxeB w0 w1 v k % 65536 else vGet v (vxVA w0) k % 65536) +
      65536 * (if vGet v (vxVC w0) k / 65536 % 32768 = 0 then vxeB w0 w1 v k / 65536 else vGet v (vxVA w0) k / 65536)
    else if vGet v (vxVC w0) k % 2 ^ 31 = 0 then vxeB w0 w1 v k else vGet v (vxVA w0) k) ∧
  vxeOp .vabs 3 8 (fun w0 _ v k => if vxBF w0 then halves (· % 32768) (vGet v (vxVA w0) k)
    else vGet v (vxVA w0) k % 2 ^ 31) ∧
  vxeOp .vneg 3 9 (fun w0 _ v k => if vxBF w0 then halves (fun x => (x + 32768) % 65536) (vGet v (vxVA w0) k)
    else (vGet v (vxVA w0) k + 2 ^ 31) % 2 ^ 32) ∧
  vxeOp .vmove 3 10 (fun w0 w1 v k => vxeB w0 w1 v k) ∧
  vxeSfu .vexp 0 ∧ vxeSfu .vexp2 1 ∧ vxeSfu .vrcp 2 ∧ vxeSfu .vrsq 3 ∧
  vxeOp .rmax 5 0 (fun w0 _ v _ => redMax ((List.range 64).map (vGet v (vxVA w0)))) ∧
  vxeOp .rsum 5 1 (fun w0 _ v _ => (redSum 6 ((List.range 64).map (vGet v (vxVA w0))) 0 0).1) ∧
  vxeOp .argmax 5 2 (fun w0 _ v _ => (f32Code (.fin false (redArg ((List.range 64).map (vGet v (vxVA w0)))) 0)).1) ∧
  vxeOp .rng 7 0 (fun w0 w1 v k => rngLane w1 (vGet v (vxVA w0) k) k)

/-- R122, R125 and R128: VLD widens what it reads into VD, VST stores whole blocks and stored poison for marked lanes, QMX
stores its elements and scales, and a command retires with its TS ticket. -/
def Obligations.VxeMemory : Prop :=
  (∀ (c : Fin 4352) (n : Nat) (q : VxeCmd) (bs : List (Option (List Byte))) (s v : State),
    vxNext s c 1 0 = some (n, q) →
    spReadBlocks c (blksOf (vxSpace q.w1) (vxOff q.w1) (vxBytes q.w0 q.w1)) s = (bs, v) →
    let elem := fun e => (listAt bs (e * elemBytes (vxFmt q.w1) / 64) none).map
      (fun d => leAt d (e * elemBytes (vxFmt q.w1) % 64) (elemBytes (vxFmt q.w1)))
    let wide := fun e => (convert (vxFmt q.w1) (if vxBF q.w0 then 2 else 1) false ((elem e).getD 0)).1
    ∃ t, exec (.vld c) s = .next t ∧
      vxeDone c n q (fun k => if vxBF q.w0 then wide (2 * k) + 65536 * wide (2 * k + 1) else wide k) v t) ∧
  (∀ (c : Fin 4352) (n : Nat) (q : VxeCmd) (s : State), vxNext s c 2 0 = some (n, q) →
    let b := vstBytes (cget s c).vxe q.w0 q.w1
    let per := 64 / elemBytes (vxFmt q.w1)
    let first := memFirst (vxSpace q.w1) + vxOff q.w1 / 64
    ∃ t, exec (.vst c) s = .next t ∧ (cget t c).vxe.v = (cget s c).vxe.v ∧ oneCore c s t ∧
      ticketTaken c (cmdTW q.w0) s t ∧
      (∀ j, j < b.1.length / 64 → spWritten t c (first + j) = true ∧
        ((∀ e, e < per → vMarked (cget s c).vxe (vxVA q.w0) (if vxBF q.w0 then (j * per + e) / 2 else j * per + e) = false) →
          memRead t.sp (spKey c (first + j)) 64 = (b.1.drop (64 * j)).take 64) ∧
        ((∃ e, e < per ∧
            vMarked (cget s c).vxe (vxVA q.w0) (if vxBF q.w0 then (j * per + e) / 2 else j * per + e) = true) →
          memRead t.spChk (spChkKey c (first + j)) 16 = poisonCheck (memRead t.sp (spKey c (first + j)) 64))) ∧
      (∀ a, a < spKey c first ∨ spKey c (first + b.1.length / 64) ≤ a → memGet t.sp a = memGet s.sp a)) ∧
  (∀ (c : Fin 4352) (n : Nat) (q : VxeCmd) (s : State), vxNext s c 6 0 = some (n, q) →
    (∀ k, k < 64 → vMarked (cget s c).vxe (vxVA q.w0) k = false) →
    let x := fun k => flDecode fp32 (vGet (cget s c).vxe (vxVA q.w0) k)
    let b0 := mxQuant (vxFmt q.w1) ((List.range 32).map x)
    let b1 := mxQuant (vxFmt q.w1) ((List.range 32).map (fun k => x (32 + k)))
    let u := spWriteBytes c (vxSpace q.w1) (vxOff q.w1) (mxPack (vxFmt q.w1) (b0.elems ++ b1.elems)) s
    let v := spWriteBytes c (vxSpace q.w1) (vxSoff q.w1) [BitVec.ofNat 8 b0.scale, BitVec.ofNat 8 b1.scale] u
    ∃ t, exec (.qmx c) s = .next t ∧ t.sp = v.sp ∧ t.spChk = v.spChk ∧ (cget t c).merges = (cget v c).merges ∧
      (cget t c).vxe.v = (cget s c).vxe.v) ∧
  (∀ (c : Fin 4352) (q : VxeCmd) (rest : List VxeCmd) (s : State), (cget s c).vxe.queue = q :: rest →
    q.performed = true → tkGet s c (cmdTS q.w0) < 65535 → coreRuns s c = true →
    (q.poison = true → srcHeld (sq s c) 2 = true → (sq s c).stop = 3) →
    ∃ t, exec (.vxeCommandRetire c) s = .next t ∧ oneCore c s t ∧ onlyCores s t ∧
      (cget t c).vxe = { (cget s c).vxe with queue := rest } ∧
      (cmdTS q.w0 ≠ 0 → tkGet t c (cmdTS q.w0) = tkGet s c (cmdTS q.w0) + 1) ∧
      (∀ o, o ≠ tkKey c (cmdTS q.w0) → rget t o = rget s o) ∧
      (q.poison = true → srcHeld (sq t c) 2 = true) ∧ (q.poison = false → sq t c = sq s c))

/-- R115, R129, R131, R134 and R135: a descriptor starts or halts its channel, retires with its tickets, and a HALT write
clears the channel; a remote write is performed or refused, and a refusal halts its sender's channel. -/
def Obligations.MovChannels : Prop :=
  (∀ (c : Fin 4352) (ch : Fin 8) (d : MovDesc) (rest : List MovDesc) (s : State),
    ch.val < (cget s c).mov.length → (movGet s c ch).queue = d :: rest → (movGet s c ch).active = none →
    (movGet s c ch).halted = false → engineFree (sq s c) 3 = true → tkReady s c (cmdTW d.w0) = true →
    coreRuns s c = true → (mvCheck s c d = 0 → movTicket s c ch (cmdTW d.w0) = true) →
    ∃ t, exec (.movDescriptorStart c ch) s = .next t ∧ oneCore c s t ∧ onlyCores s t ∧
      (mvCheck s c d = 0 → ticketTaken c (cmdTW d.w0) s t ∧
        movGet t c ch = { movGet s c ch with queue := rest, active := some d, moved := false }) ∧
      (mvCheck s c d ≠ 0 → t.regs = s.regs ∧ srcHeld (sq t c) 3 = true ∧
        movGet t c ch = { movGet s c ch with queue := rest, moved := false, status := mvCheck s c d, halted := true })) ∧
  (∀ (c : Fin 4352) (ch : Fin 8) (d : MovDesc) (s : State),
    ch.val < (cget s c).mov.length → (movGet s c ch).active = some d → (movGet s c ch).moved = true →
    s.remote.any (fun r => r.src == c.val && r.ch == ch.val) = false →
    s.remoteRef.any (fun r => r.src == c.val && r.ch == ch.val) = false →
    tkGet s c (cmdTS d.w0) < 65535 → mvDkind d ≠ 6 → coreRuns s c = true →
    ∃ t, exec (.movDescriptorRetire c ch) s = .next t ∧ oneCore c s t ∧ onlyCores s t ∧
      movGet t c ch = { movGet s c ch with active := none, moved := false } ∧
      (cmdTS d.w0 ≠ 0 → tkGet t c (cmdTS d.w0) = tkGet s c (cmdTS d.w0) + 1) ∧
      (∀ o, o ≠ tkKey c (cmdTS d.w0) → rget t o = rget s o)) ∧
  (∀ (c : Fin 4352) (ch : Fin 8) (w : Word) (s : State), ch.val < (cget s c).mov.length →
    ∃ t, exec (.movChHaltWrite c ch w) s = .next t ∧ t.regs = s.regs ∧ oneCore c s t ∧ onlyCores s t ∧
      (wBit w 15 = true → movGet t c ch = { movGet s c ch with queue := [], status := 0, halted := false }) ∧
      (wBit w 15 = false → t = s)) ∧
  (∀ (c : Fin 4352) (i : Nat) (r : RemoteWr) (s : State),
    findIdx? (fun e : RemoteWr => e.dst == c.val) s.remote = some i → s.remote[i]? = some r → coreRuns s c = true →
    ∃ t, exec (.remoteWrite ⟨c, false⟩) s = .next t ∧ t.remote = s.remote.eraseIdx i ∧
      (remoteCheck s r = 0 →
        t.sp = (spWriteBytes c r.mem r.off r.data { s with remote := s.remote.eraseIdx i }).sp ∧
        t.remoteRef = s.remoteRef) ∧
      (remoteCheck s r ≠ 0 → t = { s with
        remote := s.remote.eraseIdx i,
        remoteRef := s.remoteRef ++ [{ src := r.src, ch := r.ch, status := remoteCheck s r }] }) ∧
      (remoteCheck s r = 0 → exec (.remoteWrite ⟨c, true⟩) s = .next (remotePoison r { s with remote := s.remote.eraseIdx i }))) ∧
  (∀ (c : Fin 4352) (i : Nat) (r : RemoteRef) (d : MovDesc) (s : State),
    findIdx? (fun e : RemoteRef => e.src == c.val) s.remoteRef = some i → s.remoteRef[i]? = some r →
    (movGet s c r.ch).active = some d → r.ch < (cget s c).mov.length → coreRuns s c = true →
    ∃ t, exec (.remoteRefusal c) s = .next t ∧ t.remoteRef = s.remoteRef.eraseIdx i ∧ srcHeld (sq t c) 3 = true ∧
      movGet t c r.ch = { movGet s c r.ch with
        active := none, moved := false, status := (if r.status = 0x0502 then 0x0502 else 0x0402), halted := true })

/-- R129, R132 and R466: a COPY or FILL that runs to its end is marked moved, one that a transfer stops halts its channel;
a COPY of one scratchpad block without conversion moves the block, a FILL of one writes its pattern. -/
def Obligations.MovTransfers : Prop :=
  (∀ (c : Fin 4352) (ch : Fin 8) (busy : List Nat) (d : MovDesc) (s : State),
    (movGet s c ch).active = some d → (movGet s c ch).moved = false → coreRuns s c = true → mvClear s c d = true → mvHeld s c d = false →
    let r := mvAll c ch d busy s
    ch.val < (cget r.s c).mov.length →
    ∃ t, exec (if mvFill d then .movFill c ch busy else .movCopy c ch busy) s = .next t ∧
      (r.status = 0 → movGet t c ch = { movGet r.s c ch with moved := true }) ∧
      (r.status ≠ 0 → srcHeld (sq t c) 3 = true ∧
        movGet t c ch = { movGet r.s c ch with active := none, moved := false, status := r.status, halted := true })) ∧
  (∀ (c : Fin 4352) (ch : Fin 8) (busy : List Nat) (d : MovDesc) (b b' : Nat) (v : List Byte) (s : State),
    (movGet s c ch).active = some d → (movGet s c ch).moved = false → coreRuns s c = true → mvClear s c d = true → mvHeld s c d = false → mvFill d = false →
    mvSfmt d = 0 → mvDfmt d = 0 → mvLen d = 64 → mvRows d = 1 → mvPlanes d = 1 → mvSkind d ≤ 2 → mvDkind d ≤ 2 →
    mvSaddr d = 64 * b → mvDaddr d = 64 * b' →
    spRead c (memFirst (mvSkind d) + b) s = (some v, s) → v.length = 64 →
    ∃ t, exec (.movCopy c ch busy) s = .next t ∧
      memRead t.sp (spKey c (memFirst (mvDkind d) + b')) 64 = v ∧
      (∀ a, a < spKey c (memFirst (mvDkind d) + b') ∨ spKey c (memFirst (mvDkind d) + b' + 1) ≤ a →
        memGet t.sp a = memGet s.sp a)) ∧
  (∀ (c : Fin 4352) (ch : Fin 8) (busy : List Nat) (d : MovDesc) (b' : Nat) (s : State),
    (movGet s c ch).active = some d → (movGet s c ch).moved = false → coreRuns s c = true → mvClear s c d = true → mvHeld s c d = false → mvFill d = true →
    mvLen d * elemBytes (mvDfmt d) = 64 → mvRows d = 1 → mvPlanes d = 1 → mvDkind d ≤ 2 → mvDaddr d = 64 * b' →
    ∃ t, exec (.movFill c ch busy) s = .next t ∧
      memRead t.sp (spKey c (memFirst (mvDkind d) + b')) 64 =
        (List.range 64).map (fun i => BitVec.ofNat 8 (d.w1 / 256 ^ (i % 8))) ∧
      (∀ a, a < spKey c (memFirst (mvDkind d) + b') ∨ spKey c (memFirst (mvDkind d) + b' + 1) ≤ a →
        memGet t.sp a = memGet s.sp a))

/-- R57, R58, R63, R65 and R68: the configuration of a core's scratchpads changes only while the core is halted. -/
def Obligations.ScratchConfig : Prop :=
  (∀ (c : Fin 4352) (m : Fin 3) (w : Word) (s : State), ∃ t, exec (.slotmapWrite c m w) s = .next t ∧
    onlyCores s t ∧ oneCore c s t ∧
    ((cget s c).halted = false → t.regs = s.regs ∧ cget t c = { cget s c with mapErr := true }) ∧
    ((cget s c).halted = true → (∀ i, i < 8 → wFld (corReg t c (0x10 + 4 * m)) (4 * i + 3) (4 * i) =
        if wFld w (4 * i + 3) (4 * i) < 8 then wFld w (4 * i + 3) (4 * i) else 0) ∧
      (∀ o, o ≠ coreBase c + (0x10 + 4 * m) → rget t o = rget s o))) ∧
  (∀ (c : Fin 4352) (w : Word) (s : State), ∃ t, exec (.pwrProfileWrite c w) s = .next t ∧ oneCore c s t ∧
    ((cget s c).halted = false → t = setMapErr c s) ∧
    ((cget s c).halted = true → wFld (corReg t c 0x20) 11 0 = wFld w 11 0 ∧
      (∀ g, g < 12 → (bitAt (wFld (corReg t c 0x20) 27 16) g = true ↔
        bitAt (wFld (corReg s c 0x20) 27 16) g = true ∧ bitAt (wFld w 11 0) g = true)) ∧
      (∀ g, g ∈ (cget t c).powering → bitAt (wFld w 11 0) g = true) ∧ (corePart s c = none → (cget t c).powering = []) ∧
      (∀ o, o ≠ coreBase c + 0x20 → rget t o = rget s o))) ∧
  (∀ (c : Fin 4352) (g : Nat) (rest : List Nat) (s : State), (cget s c).powering = g :: rest → g < 12 →
    ∃ t, exec (.bankGroupReady c) s = .next t ∧ (cget t c).powering = rest ∧ wBit (corReg t c 0x20) (16 + g) = true ∧
      (∀ b, (groupBlks g).1 ≤ b → b < (groupBlks g).1 + (groupBlks g).2 → spWritten t c b = false) ∧ oneCore c s t ∧
      t.sp = s.sp) ∧
  (∀ (c : Fin 4352) (i : Fin 8) (w : Word) (s : State), ∃ t, exec (.uniRegionWrite c i w) s = .next t ∧
    ((cget s c).halted = false → t = setMapErr c s) ∧
    ((cget s c).halted = true → oneReg (coreBase c + (0x40 + 4 * i)) (w &&& 0xE3FFFFFF) s t ∧ t.cores = s.cores ∧
      onlyCores s t)) ∧
  (∀ (c : Fin 4352) (v : Bool) (s : State), ∃ t, exec (.unifiedWrite c v) s = .next t ∧ t.regs = s.regs ∧
    oneCore c s t ∧ onlyCores s t ∧
    cget t c = { cget s c with unified := if (cget s c).halted then v else (cget s c).unified }) ∧
  (∀ (c : Fin 4352) (g : Merge) (rest : List Merge) (s : State), (cget s c).merges = g :: rest → g.data.length = 64 → coreRuns s c = true →
    ∃ t, exec (.narrowWriteBack c) s = .next t ∧ t.regs = s.regs ∧ oneCore c s t ∧
      cget t c = { cget s c with merges := rest } ∧ memRead t.sp (spKey c g.blk) 64 = g.data ∧
      memRead t.spChk (spChkKey c g.blk) 16 = (if g.poison then poisonCheck g.data else sramCheck g.data) ∧
      spWritten t c g.blk = true ∧
      (∀ a, a < spKey c g.blk ∨ spKey c g.blk + 64 ≤ a → memGet t.sp a = memGet s.sp a))

/-- R76 to R80, Tables CORE.13 and CORE.14: accesses and atomics at a bank's ports of the cluster shared SRAM. -/
def Obligations.ClusterSram : Prop :=
  (∀ (c : Fin 256) (x : SramAcc) (s : State), accOk x = true →
    (∃ t, exec (.clusterSramAccess c (some x) none false false) s = .next t ∧ t = csPort c 0 x s ∧
      (∀ d, x.data = some d → d.length = 64 → memRead t.csram (csKey c (64 * (x.off / 64))) 64 = d)) ∧
    (∃ t, exec (.clusterSramAccess c none (some x) false true) s = .next t ∧ t.csram = s.csram ∧
      (stGet (fun _ => PortResp.reset) t.portResp (portKey c 1)).busy = true)) ∧
  (∀ (c : Fin 256) (x y : SramAcc) (s : State), accOk x = true → accOk y = true → accMeet x y = true →
    x.data.isSome = true → y.data = none →
    ∃ t, exec (.clusterSramAccess c (some x) (some y) false false) s = .next t ∧
      t.csram = (csPort c 0 x s).csram ∧ (stGet (fun _ => PortResp.reset) t.portResp (portKey c 1)).busy = true) ∧
  (∀ (c : Fin 256) (x y : SramAcc) (s : State), accOk x = true → accOk y = true → accMeet x y = true →
    accNarrow x = true → y.data.isSome = true → accNarrow y = false →
    ∃ t, exec (.clusterSramAccess c (some x) (some y) false false) s = .next t ∧
      t.csram = (csPort c 0 x s).csram ∧ (stGet (fun _ => PortResp.reset) t.portResp (portKey c 1)).busy = true ∧
      ∃ u, exec (.clusterSramAccess c (some y) (some x) false false) s = .next u ∧
        u.csram = (csPort c 1 x s).csram ∧ (stGet (fun _ => PortResp.reset) u.portResp (portKey c 0)).busy = true) ∧
  (∀ (c : Fin 256) (port : Fin 2) (off : Fin 4194304) (op : AtomicOp) (arg : Word64) (d : List Byte) (s : State),
    off.val % atomicBytes op = 0 → csRead c (off / 64) s = (some d, s) → d.length = 64 →
    ∃ t, exec (.bankAtomic c port off op arg false) s = .next t ∧
      memRead t.csram (csKey c (64 * (off / 64))) 64 =
        putBytes d (off % 64) (leBytes (atomicBytes op) (atomicNew op (leAt d (off % 64) (atomicBytes op)) arg.toNat)) ∧
      stGet (fun _ => PortResp.reset) t.portResp (portKey c port) =
        { busy := false, poison := false,
          data := leBytes (atomicBytes op) (leAt d (off % 64) (atomicBytes op)) } ∧
      (∀ a, a < csKey c (64 * (off / 64)) ∨ csKey c (64 * (off / 64)) + 64 ≤ a → memGet t.csram a = memGet s.csram a)) ∧
  (∀ (c : Fin 256) (port : Fin 2) (off : Fin 4194304) (op : AtomicOp) (arg : Word64) (s : State),
    off.val % atomicBytes op = 0 →
    (s.csQueue.filter (fun q => q.clu == c.val && q.bank == off.val / 64 % 32)).length < 2 →
    exec (.bankAtomic c port off op arg true) s = .next { s with csQueue := s.csQueue ++
      [{ clu := c, bank := off.val / 64 % 32, port := port, off := off, op := op, arg := arg.toNat }] }) ∧
  (∀ (c : Fin 256) (bank : Fin 32) (i : Nat) (q : QAtomic) (d : List Byte) (s : State),
    findIdx? (fun e : QAtomic => e.clu == c.val && e.bank == bank.val) s.csQueue = some i → s.csQueue[i]? = some q →
    csRead c (q.off / 64) s = (some d, s) → d.length = 64 →
    ∃ t, exec (.queuedAtomic c bank) s = .next t ∧ t.csQueue = s.csQueue.eraseIdx i ∧
      memRead t.csram (csKey c (64 * (q.off / 64))) 64 = putBytes d (q.off % 64)
        (leBytes (atomicBytes q.op) (atomicNew q.op (leAt d (q.off % 64) (atomicBytes q.op)) q.arg)) ∧
      stGet (fun _ => PortResp.reset) t.portResp (portKey c q.port) =
        { busy := false, poison := false, data := leBytes (atomicBytes q.op) (leAt d (q.off % 64) (atomicBytes q.op)) })

/-- R36 to R40, R454 and R455: what the levels of the module input do to VAUX, the input switch, the rails, the bleeder, the
brake and the requirement of a cold start. -/
def Obligations.PowerInput : Prop :=
  (∀ s : State, ∃ t, exec .vauxUp s = .next t ∧ t = { s with pwr := { s.pwr with
    vaux := true, rev := false, bleed := false } }) ∧
  (∀ s : State, s.pwr.vaux = true → s.pwr.rev = false → ∃ t, exec .inputSwitchClose s = .next t ∧
    t.pwr = { s.pwr with sw := true, vin := true, bleed := false } ∧
    (s.pwr.rails = [] → s.pwr.kiln = false → s.pwr.rst = false → s.boot.next = none →
      t.boot.next = some 0 ∧ t.stage = 0 ∧ t.fatal = false ∧ 
        t.boot.full = (wBit (rget s 0x48) 30 || s.boot.cold)) ∧
    (s.pwr.rails ≠ [] → t.boot = s.boot ∧ t.stage = s.stage) ∧ t.regs = s.regs ∧ t.cores = s.cores) ∧
  (∀ s : State, limitOn s = true → ∃ t, exec .vinUndervoltage s = .next t ∧ brakeOn t = true ∧
    wBit (rget t (thmBase + 0xC)) 3 = true ∧ t.pwr = { s.pwr with vin := false } ∧ t.cores = s.cores) ∧
  (∀ s : State, limitOn s = true → (brakeSources s ≠ 0 → brakeOn s = true) → ∃ t, exec .vinRecover s = .next t ∧
    wBit (rget t (thmBase + 0xC)) 3 = false ∧ brakeOn t = brakeOn s ∧ t.pwr = { s.pwr with vin := true } ∧
    t.cores = s.cores) ∧
  (∀ s : State, ∃ t, exec .vinCollapse s = .next t ∧ t.pwr.rails = [] ∧ t.boot.cold = true ∧ t.faultN = s.pwr.vaux ∧
    t.pwr.vaux = s.pwr.vaux ∧ t.cores = [] ∧ t.boot.fire = s.boot.fire) ∧
  (∀ s : State, exec .vinLoss s = .next { s with pwr := { s.pwr with bleed := true, vin := false } }) ∧
  (∀ s : State, exec .reverseCurrent s = .next { s with pwr := { s.pwr with sw := false } }) ∧
  (∀ s : State, s.pwr.vaux = false →
    exec .reverseInput s = .next { s with pwr := { s.pwr with rev := true, sw := false } })

/-- R48 and R49, Table CLK.9: every source enters the brake state, which counts, holds every tower's ceiling at level 0, and
ends when no source is left. -/
def Obligations.PowerBrake : Prop :=
  (∀ s : State, limitOn s = true → ∃ t, exec .pbrkAssert s = .next t ∧ brakeOn t = true ∧
    wBit (rget t (thmBase + 0xC)) 1 = true ∧ t.cores = s.cores ∧
    (brakeOn s = false → wFld (rget t (thmBase + 0xC)) 31 16 = min (wFld (rget s (thmBase + 0xC)) 31 16 + 1) 65535 ∧
      ∀ n, n < 16 → wFld (rget t (thmBase + 0x80 + 4 * n)) 8 4 = 0 ∧ wBit (rget t (thmBase + 0x80 + 4 * n)) 18 = true) ∧
    (brakeOn s = true → ∀ o, o ≠ thmBase + 0xC → rget t o = rget s o)) ∧
  (∀ s : State, limitOn s = true → brakeOn s = true → ∃ t, exec .pbrkDeassert s = .next t ∧ brakeOn t = true ∧
    wBit (rget t (thmBase + 0xC)) 1 = false ∧ ∀ o, o ≠ thmBase + 0xC → rget t o = rget s o) ∧
  (∀ s : State, limitOn s = true → brakeOn s = true → brakeSources s = 0 → ∃ t, exec .brakeRelease s = .next t ∧
    brakeOn t = false ∧ ∀ n, n < 16 → wFld (rget t (thmBase + 0x80 + 4 * n)) 8 4 =
      if towerHeld s n then 0 else loopCOf s n % 32) ∧
  (∀ (w : Word) (s : State), limitOn s = true → wBit w 4 = true → ∃ t, exec (.brakeFwReq w) s = .next t ∧
    brakeOn t = true ∧ wBit (rget t (thmBase + 0xC)) 4 = true)

/-- R44 and R45: in every state a write of a limit register completes and loads the value nearest to the one written within the
range of its table, which for the package is 1 200 W to PKG_CEIL and for a tower 40 W to TWR_CEIL; CLAMPED is set where it differs,
cleared where the write clears it, and else kept. THM_RAMP_CTL loads at least 840. Nothing else changes. -/
def Obligations.PowerLimits : Prop :=
  (∀ (w : Word) (s : State), ∃ t, exec (.pkgLimitWrite w) s = .next t ∧
    wFld (rget t (thmBase + 4)) 12 0 = max 1200 (min (wFld w 12 0) (wFld (rget s thmBase) 31 16)) ∧
    (wBit (rget t (thmBase + 4)) 31 = true ↔
      max 1200 (min (wFld w 12 0) (wFld (rget s thmBase) 31 16)) ≠ wFld w 12 0 ∨
        (wBit w 31 = false ∧ wBit (rget s (thmBase + 4)) 31 = true)) ∧
    (∀ o, o ≠ thmBase + 4 → rget t o = rget s o) ∧ { t with regs := s.regs } = s) ∧
  (∀ (n : Fin 16) (w : Word) (s : State), ∃ t, exec (.twrLimitWrite n w) s = .next t ∧
    wFld (rget t (thmBase + 0x40 + 4 * n)) 8 0 = max 40 (min (wFld w 8 0) (wFld (rget s thmBase) 15 0)) ∧
    (wBit (rget t (thmBase + 0x40 + 4 * n)) 31 = true ↔
      max 40 (min (wFld w 8 0) (wFld (rget s thmBase) 15 0)) ≠ wFld w 8 0 ∨
        (wBit w 31 = false ∧ wBit (rget s (thmBase + 0x40 + 4 * n)) 31 = true)) ∧
    (∀ o, o ≠ thmBase + 0x40 + 4 * n → rget t o = rget s o) ∧ { t with regs := s.regs } = s) ∧
  (∀ (w : Word) (s : State), ∃ t, exec (.rampCtlWrite w) s = .next t ∧
    wFld (rget t (thmBase + 0x10)) 10 0 = max 840 (wFld w 10 0) ∧ wFld (rget t (thmBase + 0x10)) 31 11 = 0 ∧
    (∀ o, o ≠ thmBase + 0x10 → rget t o = rget s o) ∧ { t with regs := s.regs } = s)

/-- R42, R43, R45 and R47: a governor moves one level toward its target; the 10 µs loop records the powers and moves each
ceiling by at most one level, never up while the package exceeds its limit; the comparator takes one level away. R44, R45 and R32: a
write of a limit or of the ramp and a monitor's report of a window or of a stopped clock complete in every state. -/
def Obligations.PowerLevels : Prop :=
  (∀ (k : Fin 256) (s : State), ∃ t, exec (.governorRiseTick k) s = .next t ∧
    levelOf t k = (if levelOf s k < levelTarget s k then levelOf s k + 1 else levelOf s k) ∧
    (∀ j, j ≠ k.val → levelOf t j = levelOf s j) ∧ { t with pwr := s.pwr } = s) ∧
  (∀ (k : Fin 256) (s : State), ∃ t, exec (.governorFallTick k) s = .next t ∧
    levelOf t k = (if levelTarget s k < levelOf s k then levelOf s k - 1 else levelOf s k) ∧
    (∀ j, j ≠ k.val → levelOf t j = levelOf s j) ∧ { t with pwr := s.pwr } = s) ∧
  (∀ (pk : Nat) (tw : Meters) (s : State), limitOn s = true →
    ∃ t, exec (.powerLoopTick pk tw) s = .next t ∧ wFld (rget t (thmBase + 8)) 15 0 = min pk 65535 ∧
      (∀ n, n < 16 → loopCOf t n ≤ loopCOf s n + 1 ∧ loopCOf s n ≤ loopCOf t n + 1 ∧
        (10 * wFld (rget s (thmBase + 4)) 12 0 < pk → loopCOf t n ≤ loopCOf s n) ∧
        wFld (rget t (thmBase + 0x80 + 4 * n)) 31 19 =
          if nsHas s.lostTw n then 0 else min (listAt tw.tower n (0, 0)).1 8191) ∧ t.cores = s.cores) ∧
  (∀ (n : Fin 16) (p : Nat) (s : State), limitOn s = true → 3400 < p →
    ∃ t, exec (.comparatorDecrement n p) s = .next t ∧ loopCOf t n = loopCOf s n - 1 ∧ loopWOf t n = loopWOf s n ∧
      (∀ o, o ≠ thmBase + 0x80 + 4 * n → rget t o = rget s o)) ∧
  (∀ (w : Word) (s : State), ∃ t, exec (.pkgLimitWrite w) s = .next t ∧ t.pwr = s.pwr ∧
    wFld (rget t (thmBase + 4)) 12 0 = max 1200 (min (wFld w 12 0) (wFld (rget s thmBase) 31 16))) ∧
  (∀ (n : Fin 16) (w : Word) (s : State), ∃ t, exec (.twrLimitWrite n w) s = .next t ∧ t.pwr = s.pwr ∧
    wFld (rget t (thmBase + 0x40 + 4 * n)) 8 0 = max 40 (min (wFld w 8 0) (wFld (rget s thmBase) 15 0))) ∧
  (∀ (w : Word) (s : State), ∃ t, exec (.rampCtlWrite w) s = .next t ∧ t.pwr = s.pwr ∧
    wFld (rget t (thmBase + 0x10)) 10 0 = max 840 (wFld w 10 0)) ∧
  (∀ (d : Fin 20) (counts : List Nat) (s : State), ∃ t, exec (.clkmonWindow d counts) s = .next t ∧ t.pending = s.pending ∧
    t.pwr.rails = s.pwr.rails) ∧
  (∀ (d : Fin 20) (c : Fin 11) (s : State), ∃ t, exec (.clockStopped d c) s = .next t ∧ t.pending = s.pending ∧
    t.pwr.rails = s.pwr.rails)

/-- R26 and R32: in every state a monitor window completes. Where the monitor runs, each clock's bit shows whether its count lies
within 1 % or one count of its nominal one; a clock that was bad in the window before too loses its die. A clock that stops shows
no longer within limits, sets LOST and loses its die at once, and the root every die downstream too. -/
def Obligations.ClockMonitors : Prop :=
  (∀ (d : Fin 20) (counts : List Nat) (s : State), ∃ t, exec (.clkmonWindow d counts) s = .next t ∧
    (monOn s d = false → t = s) ∧
    (monOn s d = true →
      (∀ e ∈ windowClocks d counts, e.2 = true) →
      (∀ e ∈ dieClocks d, (∀ b, e.2 = some b → wBit (rget t (monKey d)) b = true) ∧
        stGet (fun _ => 0) t.pwr.clkBad (16 * d + e.1) = 0) ∧
      (∀ o, o ≠ monKey d → rget t o = rget s o) ∧ t.lostTw = s.lostTw ∧ t.hubs = s.hubs ∧ t.cores = s.cores) ∧
    (monOn s d = true →
      (∃ e ∈ windowClocks d counts, e.2 = false ∧ 1 ≤ stGet (fun _ => 0) s.pwr.clkBad (16 * d + e.1.1)) →
      (d.val < 16 → nsHas t.lostTw d = true) ∧ (16 ≤ d.val → hubAbsent t (d - 16) = true))) ∧
  (∀ (d : Fin 20) (e : Nat × Option Nat) (c : Fin 11) (s : State), monOn s d = true →
    (dieClocks d).find? (fun e => e.1 == c.val) = some e →
    ∃ t, exec (.clockStopped d c) s = .next t ∧ wBit (rget t (monKey d)) 7 = true ∧
      (∀ b, e.2 = some b → wBit (rget t (monKey d)) b = false) ∧
      (d.val < 16 → nsHas t.lostTw d = true) ∧ (16 ≤ d.val → hubAbsent t (d - 16) = true) ∧
      (c.val = 0 → ∀ x ∈ downstream d, (x < 16 → nsHas t.lostTw x = true) ∧ (16 ≤ x → hubAbsent t (x - 16) = true))) ∧
  (∀ (d : Fin 20) (c : Fin 11) (s : State), monOn s d = false ∨ (dieClocks d).find? (fun e => e.1 == c.val) = none →
    exec (.clockStopped d c) s = .next s)

/-- R151 to R154 and R159: row reads, write combining and row writes of a bank column without a failed lane, withheld slots and
suspect groups; a layer that has transferred a row tracks its phase (R31). R369 and R371: a suspect group without a spare puts its column at risk, and a second one retires it (log entry 176). -/
def Obligations.SliceRows : Prop :=
  (∀ (col : Fin 8704) (k : Fin 16) (busy : BitVec 8) (i : Nat) (s : State),
    (colget s col).retraining = false → (colget s col).forced = false → rowPick busy (colget s col).queue = some i →
    mntDue (colget s col) = false → rowRoom (colget s col) = true →
    let r := listAt (colget s col).queue i RowReq.none
    r.write = false →
    (slotWithheld k (withholdOf s col) = false → ∃ t, exec (.rowReadIssue col k busy) s = .next t ∧ onlyCol col s t ∧
      colget t col = { colget s col with
        queue := ((colget s col).queue.take i).map (fun e => { e with passed := e.passed + 1 }) ++
          (colget s col).queue.drop (i + 1),
        inFlight := (colget s col).inFlight ++
          [{ id := r.id, row := r.row, data := (rowBytes col r.row s).1, chk := (rowBytes col r.row s).2,
             fwd := rowFwd col r.row s }],
        mntGap := min 4096 ((colget s col).mntGap + 1) }) ∧
    (slotWithheld k (withholdOf s col) = true → r.counted = false →
      ∃ t, exec (.rowReadIssue col k busy) s = .next t ∧ (colget t col).inFlight = (colget s col).inFlight ∧
        rget t (nbuBase col + 0xC) = rget s (nbuBase col + 0xC) + 1)) ∧
  (∀ (col : Fin 8704) (r : RowRead) (rest : List RowRead) (d : Nat → List Byte) (s : State),
    (colget s col).inFlight = r :: rest → deadLanes s col = [] →
    (∀ b, b < 16 → rsDecode ((r.data.drop (64 * b)).take 64) ((r.chk.drop (3 * b)).take 3) = .clean (d b)) →
    ∃ t, exec (.rowReadDeliver ⟨col, false⟩) s = .next (trackPhase (coreTower (col / 2)) (rowLayer r.row) t) ∧ onlyCol col s t ∧
      colget t col = { colget s col with
      inFlight := rest,
      outRows := (colget s col).outRows ++
        [{ id := r.id, row := r.row, blocks := (List.range 16).map (fun b => some (d b)) }] }) ∧
  (∀ (col : Fin 8704) (r : RowRead) (rest : List RowRead) (s : State), (colget s col).inFlight = r :: rest →
    ∃ t, exec (.rowReadDeliver ⟨col, true⟩) s = .next t ∧ t.t1 = s.t1 ∧ (colget t col).inFlight = rest ∧
      (colget t col).outRows =
        (colget s col).outRows ++ [{ id := r.id, row := r.row, blocks := List.replicate 16 none }]) ∧
  (∀ (col : Fin 8704) (row : Fin 131072) (blk : Fin 16) (d : List Byte) (s : State), d.length = 64 →
    ((∃ e ∈ (colget s col).wc, e.row = row.val) ∨ (colget s col).wc.length < 4) →
    ∃ t, exec (.writeCombineAccept col row blk d) s = .next t ∧ wcBlock t col row blk = some d ∧
      (∀ b, b ≠ blk.val → wcBlock t col row b = wcBlock s col row b) ∧
      (∀ r b, r ≠ row.val → wcBlock t col r b = wcBlock s col r b) ∧ t.t1 = s.t1 ∧ t.regs = s.regs ∧
      nsHas (nbget t col).pin row = false) ∧
  (∀ (col : Fin 8704) (row : Fin 131072) (k : Fin 16) (busy : BitVec 8) (i : Nat) (e : WcEntry) (s : State),
    findIdx? (fun x : WcEntry => x.row == row.val) (colget s col).wc = some i → (colget s col).wc[i]? = some e →
    (colget s col).retraining = false → (colget s col).forced = false → busy.getLsbD (rowLayer row) = false →
    deadLanes s col = [] → slotWithheld k (withholdOf s col) = false → (e.blocks.map Prod.fst).Nodup →
    (∀ b ∈ e.blocks, b.1 < 16 ∧ b.2.length = 64) →
    ∃ t, exec (.rowWriteIssue col row k busy) s = .next t ∧ (colget t col).wc = (colget s col).wc.eraseIdx i ∧
      (∀ b ∈ e.blocks, memRead t.t1 (t1Key (col.val / 2) (rowOff col row + 64 * b.1)) 64 = b.2 ∧
        memRead t.t1Chk (t1ChkKey (col.val / 2) (rowOff col row + 64 * b.1)) 3 = rsCheck b.2) ∧
      t.regs = s.regs ∧ t.cores = s.cores) ∧
  (∀ (col : Fin 8704) (group : Fin 134) (octet : Fin 8) (s : State),
    8 ≤ ((stGet (fun _ => []) (colget s col).corr (group.val * 8 + octet)).filter
      (fun e => s.ns ≤ e.2 + 1000000)).length →
    let spare := (freeSpare 2 (bondGrp s (col.val * 134 + group))).isSome
    ∃ t, exec (.bondGroupSuspect col group octet) s = .next t ∧
      ((colget s col).state ≠ 2 → spare = true → onlyCol col s t ∧
        colget t col = { colget s col with suspect := nsAdd (colget s col).suspect group }) ∧
      ((colget s col).state = 0 → spare = false → (∀ g, g < 134 → g ≠ group.val → g ∉ spentGroups s col) →
        colget t col = { colget s col with suspect := nsAdd (colget s col).suspect group, state := 1 }) ∧
      ((colget s col).state = 1 → spare = false → (∃ g ∈ spentGroups s col, g ≠ group.val) → (colget t col).state = 2) ∧
      ((colget s col).state = 2 → t.cols = s.cols))

/-- R160, R161, R367 and R369: refresh debts and their preemption, also by a smaller POSTPONE, and a column whose pages have moved. -/
def Obligations.SliceRefresh : Prop :=
  (∀ (col : Fin 8704) (s : State), (colget s col).owed < 5 →
    ∃ t, exec (.refreshIntervalTick col) s = .next t ∧ (∀ j, j ≠ col.val → colget t j = colget s j) ∧
      (colget t col).owed = (colget s col).owed + 1 ∧
      (colget t col).rate = stGet (fun _ => 0) s.refRate (coreTower (col.val / 2)) ∧
      ((colget t col).forced = true ↔
        (colget s col).forced = true ∨ postponeOf s col < (colget s col).owed + 1) ∧
      (∀ o, o ≠ nbuBase col + 0x18 → rget t o = rget s o) ∧ t.cores = s.cores ∧ t.t1 = s.t1) ∧
  (∀ (col : Fin 8704) (busy : BitVec 8) (s : State), 0 < (colget s col).owed →
    ((colget s col).forced = true ∨ (colget s col).retraining = true ∨ rowReady busy (colget s col) = false) →
    ∃ t, exec (.refreshIssue col busy) s = .next t ∧ onlyCol col s t ∧ colget t col = { colget s col with
      owed := (colget s col).owed - 1,
      forced := if (colget s col).owed = 1 then false else (colget s col).forced }) ∧
  (∀ (n : Fin 16) (w : Word) (s : State), ∃ t, exec (.refreshCtlWrite n w) s = .next t ∧
    rget t (towerBase n + 0x100) = BitVec.ofNat 32 (min (wFld w 2 0) 4) ∧ { t with regs := s.regs, cols := s.cols } = s ∧
    (∀ o, o ≠ towerBase n + 0x100 → (∀ col, col < 8704 → o ≠ nbuBase col + 0x18) → rget t o = rget s o) ∧
    ∀ col, col < 8704 → { colget t col with forced := (colget s col).forced } = colget s col ∧
      ((colget t col).forced = true ↔ (colget s col).forced = true ∨ (col / 544 = n.val ∧ min (wFld w 2 0) 4 < (colget s col).owed))) ∧
  (∀ (col : Fin 8704) (s : State), (colget s col).state ≠ 0 → (colget s col).migrated = false →
    (∀ p, cluPart s (coreClu (col.val / 2)) = some p → (pget s p).dir = none) →
    ∃ t, exec (.migrationComplete col) s = .next t ∧ t = retireCol col s)

/-- R164, R173, R174 and R176: an NBU command starts in order when its unit and bank are free, is refused at a retired
column, stops waiting for the chain at its limit, and retires with its ticket and the versions of the frames it wrote. -/
def Obligations.NbuQueue : Prop :=
  (∀ (col : Fin 8704) (i : Nat) (q : NbuCmd) (s : State), nbNext (nbget s col) = some i →
    (nbget s col).queue[i]? = some q → q.refused = 0 → engineFree (sq s (col.val / 2)) (nbSrc col) = true →
    coreRuns s (col.val / 2) = true →
    ((colget s col).state = 2 → ∃ t, exec (.nbuCommandStart col) s = .next t ∧
      srcHeld (sq t (col.val / 2)) (nbSrc col) = true ∧ t.regs = s.regs ∧
      (nbget t col).queue = (nbget s col).queue.modify i (fun e => { e with refused := 0x11 })) ∧
    ((colget s col).state ≠ 2 →
      (usesBank q.w0 = true → ∀ e ∈ (nbget s col).queue.take i, usesBank e.w0 = true → nbQB e.w0 = nbQB q.w0 →
        e.performed = true) →
      (cmdOP q.w0 = 1 → ∀ e ∈ (nbget s col).queue.take i, e.started = true → cmdOP e.w0 = 1 → e.performed = true) →
      (cmdOP q.w0 ≠ 1 → ∀ e ∈ (nbget s col).queue.take i, holdsScorer e = false) →
      nbuTicket s col (cmdTW q.w0) = true →
      ∃ t, exec (.nbuCommandStart col) s = .next t ∧ ticketTaken (col.val / 2) (cmdTW q.w0) s t ∧ t.cores = s.cores ∧
        (nbget t col).queue = (nbget s col).queue.modify i (fun e => { e with started := true }))) ∧
  (∀ (col : Fin 8704) (i : Nat) (s : State), rget s (nbuBase col + 0x2C) ≠ 0 → coreRuns s (col.val / 2) = true →
    findIdx? (fun q : NbuCmd => q.started && !q.performed && !q.alone &&
      ((cmdOP q.w0 == 1 && qlSrc q.w0 && (nbget s col).chainQ.isEmpty) ||
        (cmdOP q.w0 == 3 && emMode q.w0 ≥ 2 && (nbget s col).chainR.isEmpty))) (nbget s col).queue = some i →
    ∃ t, exec (.chainWaitLimit col) s = .next t ∧ onlyCol col s t ∧ colget t col = { colget s col with
      nbu := { nbget s col with
        queue := (nbget s col).queue.modify i (fun e => { e with alone := true, outcome := 0x11 }) } }) ∧
  (∀ (col : Fin 8704) (q : NbuCmd) (rest : List NbuCmd) (s : State), (nbget s col).queue = q :: rest →
    q.performed = true → tkGet s (col.val / 2) (cmdTS q.w0) < 65535 → coreRuns s (col.val / 2) = true →
    (q.outcome ≠ 0 → srcHeld (sq s (col.val / 2)) (nbSrc col) = true → (sq s (col.val / 2)).stop = 3) →
    ∃ t, exec (.nbuCommandRetire col) s = .next t ∧ (nbget t col).queue = rest ∧
      (cmdTS q.w0 ≠ 0 → tkGet t (col.val / 2) (cmdTS q.w0) = tkGet s (col.val / 2) (cmdTS q.w0) + 1) ∧
      (cmdOP q.w0 = 5 → (ftGet t col (rqDst q.w0)).toNat % 256 = ((ftGet s col (rqDst q.w0)).toNat + 1) % 256) ∧
      (cmdOP q.w0 ≤ 3 → t.ftag = s.ftag) ∧
      (q.outcome ≠ 0 → srcHeld (sq t (col.val / 2)) (nbSrc col) = true) ∧ (q.outcome = 0 → t.cores = s.cores) ∧
      (∀ o, o ≠ tkKey (col.val / 2) (cmdTS q.w0) → rget t o = rget s o) ∧ t.t1 = s.t1)

/-- R167, R168, R170 to R172 and R175: what each NBU command does to the query file, the state file, the scratchpad and the
column, where no lane of it has failed; its transfers run when rows may move. -/
def Obligations.NbuCommands : Prop :=
  (∀ (col : Fin 8704) (stall i : Nat) (q : NbuCmd) (rows : List (Option (List Byte))) (s v : State),
    nbRun s col 1 = some (i, q) → qlSrc q.w0 = false →
    readRows col (relRows (qlRel (qlOff q.w1)) (256 * nbNQ q.w0)) s = (rows, v) →
    ∃ t, exec (.qload ⟨col, stall⟩) s = .next t ∧ nbuDone col i 0 v t ∧ nsHas (nbget t col).qValid (nbQB q.w0) = true ∧
      (∀ n, n < nbNQ q.w0 →
        let a := qlRel (qlOff q.w1) + 256 * n
        match listAt rows (a / 1024 - qlRel (qlOff q.w1) / 1024) none with
        | none => nsHas (nbget t col).qMark (nbQB q.w0 * 32 + n) = true
        | some r => nsHas (nbget t col).qMark (nbQB q.w0 * 32 + n) = false ∧
            ∀ d, d < 128 → stGet (fun _ => 0) (nbget t col).q (qKey (nbQB q.w0) n d) =
              BitVec.ofNat 16 (leAt r (a % 1024 + 2 * d) 2)) ∧
      rget t (nbuBase col + 8) = rget v (nbuBase col + 8) + BitVec.ofNat 32 stall ∧ t.t1 = v.t1 ∧ t.cores = v.cores) ∧
  (∀ (col : Fin 8704) (busy : List Nat) (stall i : Nat) (q : NbuCmd) (ok : Bool) (s v : State),
    nbRun s col 2 = some (i, q) →
    let n := scoreLen busy (scItems q.w1)
    scoreItems col q.w0 n 0 (csBusies (coreClu (col / 2)) busy (ceilDiv (scItems q.w1) 4) (coreTx s (col / 2) (5 + col % 2) 0 none) (if scInit q.w0 then nbupd col (stInitN (nbQB q.w0) (nbNQ q.w0)) s else s)) = (ok, v) →
    ∃ t, exec (.score col busy stall) s = .next t ∧
      nbuDone col i (if ok = true ∧ n = scItems q.w1 then 0 else 0x11) v t ∧
      (∀ b k, stLoad (nbget t col) b k = stLoad (nbget v col) b k) ∧
      rget t (nbuBase col + 8) = rget v (nbuBase col + 8) + BitVec.ofNat 32 stall ∧ t.t1 = v.t1) ∧
  (∀ (col w0 : Nat) (it : WorkItem) (s : State), it.bad = false →
    some (it.page - fld it.page 12 0) ≠ colPage s col →
    (scoreItem col w0 it s).t1 = s.t1 ∧ (scoreItem col w0 it s).regs = s.regs ∧
    (nbget (scoreItem col w0 it s) col).pin = [] ∧
    ∀ k, k < nbNQ w0 → k < 32 → bitAt it.qmask k = true →
      bitAt (stLoad (nbget (scoreItem col w0 it s) col) (nbQB w0) k).flags 2 = true) ∧
  (∀ (col : Fin 8704) (busy : List Nat) (i : Nat) (q : NbuCmd) (s : State), nbRun s col 3 = some (i, q) → emMode q.w0 = 0 →
    let bytes := ((List.range (nbNQ q.w0)).map (fun k => recBytes (stLoad (nbget s col) (nbQB q.w0) k))).flatten
    let v := spWriteBytes (col.val / 2) (if emPsp q.w0 then 2 else 1) (emDest q.w1) bytes s
    ∃ t, exec (.emit ⟨col, busy⟩) s = .next t ∧ nbuDone col i 0 v t ∧ t.sp = v.sp ∧ t.spChk = v.spChk ∧ t.spWr = v.spWr ∧
      t.cores = v.cores ∧ (∀ b k, stLoad (nbget t col) b k = stLoad (nbget s col) b k)) ∧
  (∀ (col : Fin 8704) (stall i : Nat) (q : NbuCmd) (d : Nat → List Byte) (s : State), nbRun s col 4 = some (i, q) →
    nbRangeBad col q.w0 q.w1 = false → wcWf (colget s col) → deadLanes s col = [] →
    (∀ k, k < cpN q.w0 → (d k).length = 64 ∧
      wcBlock s col (rowOf (blkOff col (cpSrc q.w0 + k))) ((cpSrc q.w0 + k) % 16) = none ∧
      t1ReadBlk (col.val / 2) (blkOff col (cpSrc q.w0 + k)) s = (some (d k), s)) →
    cpSrc q.w0 + cpN q.w0 ≤ cpDst q.w0 ∨ cpDst q.w0 + cpN q.w0 ≤ cpSrc q.w0 →
    ∃ t, exec (.nbuCopy ⟨col, stall⟩) s = .next t ∧ nbuDone col i 0 s t ∧ (nbget t col).pin = [] ∧
      (∀ k, k < cpN q.w0 → t1Holds t (col.val / 2) (blkOff col (cpDst q.w0 + k)) (d k)) ∧
      rget t (nbuBase col + 8) = rget s (nbuBase col + 8) + BitVec.ofNat 32 stall ∧
      (∀ o, o ≠ nbuBase col + 8 → o ≠ nbuBase col + 0xC → rget t o = rget s o) ∧ t.cores = s.cores) ∧
  (∀ (col : Fin 8704) (stall i : Nat) (q : NbuCmd) (blks : List (Option (List Byte))) (s v : State),
    nbRun s col 5 = some (i, q) → wcWf (colget s col) → deadLanes s col = [] →
    t1ReadBlks (col.val / 2) 256 (rowOff col (16 * rqSrc q.w0)) (dropPin col s) = (blks, v) →
    (∀ b ∈ blks, ∃ d, b = some d ∧ d.length = 64) →
    let ks := if rqDtag q.w0 = 4 then int8Scale (maxFinite (cleanValues (rqStag q.w0) blks 0)) else 0
    let vs := if rqDtag q.w0 = 4 then int8Scale (maxFinite (cleanValues (rqStag q.w0) blks 1)) else 0
    ∃ t, exec (.requant ⟨col, stall⟩) s = .next t ∧ nbuDone col i 0 v t ∧
      fld (ftGet t col (rqDst q.w0)).toNat 31 16 = ks % 65536 ∧ fld (ftGet t col (rqDst q.w0)).toNat 47 32 = vs % 65536 ∧
      (rqDtag q.w0 ≠ 5 → ∀ kind p j, kind < 2 → p < 64 → j < 2 →
        t1Holds t (col.val / 2) (blkOff col (rqDst q.w0 * 256 + kind * 128 + 2 * p + j))
          (((rqBytes (rqDtag q.w0) (if kind = 0 then ks else vs) (fp8Values (rqStag q.w0) blks kind p)).drop (64 * j)).take 64)) ∧
      rget t (nbuBase col + 8) = rget v (nbuBase col + 8) + BitVec.ofNat 32 stall ∧
      t.cores = v.cores) ∧
  (∀ (col : Fin 8704) (off : Fin 268435456) (op : AtomicOp) (arg : Word64) (d : List Byte) (s : State),
    off.val % atomicBytes op = 0 → offCol off = col.val % 2 → (colget s col).state ≠ 2 → coreRuns s (col.val / 2) = true →
    rmwClear s col (rowOf off) = true → wcWf (colget s col) → deadLanes s col = [] → d.length = 64 →
    t1ReadBlk (col.val / 2) (off / 64 * 64) s = (some d, s) →
    ∃ t, exec (.tier1Atomic col off op arg) s = .next t ∧
      t1Holds t (col.val / 2) (off / 64 * 64) (putBytes d (off % 64)
        (leBytes (atomicBytes op) (atomicNew op (leAt d (off % 64) (atomicBytes op)) arg.toNat))) ∧
      stGet (fun _ => PortResp.reset) t.portResp (1024 + col) =
        { busy := false, poison := false, data := leBytes (atomicBytes op) (leAt d (off % 64) (atomicBytes op)) } ∧
      (ftGet t col (offFrame off)).toNat % 256 = ((ftGet s col (offFrame off)).toNat + 1) % 256 ∧
      (∀ o, o ≠ nbuBase col + 0xC → rget t o = rget s o))

/-- A step takes the command at the front of the queue and runs it with the rest of the queue behind it. -/
def Obligations.StepRunsFrontCommand : Prop :=
  ∀ (c : Instr) (rest : List Instr) (s : State), s.pending = c :: rest → step s = exec c { s with pending := rest }

/-- On an empty queue one REF cycle passes: the clock advances by 10 ns while H0 has power and the reference runs, and nothing
else changes where no block waits for its weights, no message for its time and no counter counts cycles. DESIGN CHOICE (log entry 2), but for the rate of
the clock. -/
def Obligations.EmptyQueueIdles : Prop :=
  ∀ s : State, s.pending = [] → ∃ t, step s = .next t ∧
    (s.reload = [] → notesDue s = false → s.ctrs.any (timeCtr s) = false → s.pwr.refOk = true → nsHas s.pwr.rails 0 = true →
      t = { s with ns := s.ns + 10 }) ∧
    ((s.pwr.refOk = false ∨ nsHas s.pwr.rails 0 = false) → t = s)

/-- The state right after power-on: stage 0 of a start-up is next, nothing waits, no memory is listed, and the registers hold
their reset values. -/
def Obligations.ResetState : Prop :=
  memsWf State.reset ∧ (∀ col, wcWf (colget State.reset col)) ∧ State.reset.pending = [] ∧ State.reset.boot.next = some 0 ∧ State.reset.booted = false ∧
  State.reset.fatal = false ∧ State.reset.faultN = false ∧ State.reset.hostOut = [] ∧
  (∀ a, memGet State.reset.t1 a = 0 ∧ memGet State.reset.t2 a = 0 ∧ memGet State.reset.sp a = 0 ∧
    memGet State.reset.csram a = 0) ∧
  rget State.reset 0 = 0xF0164102#32 ∧
  (∀ c, (cget State.reset c).halted = true ∧ sq State.reset c = SeqSt.reset) ∧
  (∀ p, (pget State.reset p).state = 0 ∧ (pget State.reset p).tdi = 0) ∧
  (∀ w, (wget State.reset w).head = 0 ∧ (wget State.reset w).stalled = false ∧ (wget State.reset w).queue = [])

/-- Every step keeps the byte memories in their canonical form, so that equal contents are equal data, and the write-combining
entries of every column well-formed. -/
def Obligations.MemoriesStayCanonical : Prop :=
  (∀ s t : State, memsWf s → step s = .next t → memsWf t) ∧
  (∀ s t : State, (∀ col, wcWf (colget s col)) → step s = .next t → ∀ col, wcWf (colget t col))

/-- Commands leave in the order in which they came: a step on a queue takes its front command and leaves the rest as it was. -/
def Obligations.QueueFirstInFirstOut : Prop :=
  ∀ (c : Instr) (rest : List Instr) (s t : State), s.pending = c :: rest → step s = .next t → t.pending = rest

/-- R7 and Table SCP.4: a host write of a register of the global page loads its RW fields, clears the W1C bits written with 1 and
leaves every other bit and register; one that names a lost die's register has no effect and counts in HP_ACC.CA. -/
def Obligations.HostRegisterWrite : Prop :=
  (∀ (off : Fin (2 ^ 28)) (w : Word) (o : Nat) (r : RegRow) (s : State), hostReaches s 0 = true →
    off.val / 4 * 4 = o → o < 0x8000 → (o < 0x1000 ∨ 0x1400 ≤ o) → regRow o = some r →
    ∃ t, exec (.registerWrite 0 off w) s = .next t ∧
      rget t o = ((rget s o &&& ~~~(BitVec.ofNat 32 r.rw ||| BitVec.ofNat 32 r.rwl)) |||
        (w &&& (BitVec.ofNat 32 r.rw ||| BitVec.ofNat 32 r.rwl))) &&& ~~~(w &&& BitVec.ofNat 32 r.w1c) ∧
      (∀ a, a ≠ o → rget t a = rget s a) ∧ { t with regs := s.regs, ctrs := s.ctrs } = s) ∧
  (∀ (fn : Fin 65) (off : Fin (2 ^ 28)) (w : Word) (o : Nat) (s : State), hostReaches s fn = true →
    barOff fn (off.val / 4 * 4) = some o → regFenced s o = false →
    exec (.registerWrite fn off w) s = .next (writeReg o w (hostReq fn none s))) ∧
  (∀ (off : Fin (2 ^ 28)) (w : Word) (s : State), hostReaches s 0 = true → regFenced s (off.val / 4 * 4) = true →
    ∃ t, exec (.registerWrite 0 off w) s = .next t ∧
      wFld (rget t 0x104) 15 0 = min (wFld (rget s 0x104) 15 0 + 1) 65535 ∧
      (∀ a, a ≠ 0x104 → rget t a = rget s a) ∧ { t with regs := s.regs, ctrs := s.ctrs } = s)

/-- R284, R285, R287, R288, R291 and R295 to R297: configuration reads answer the identity, the BAR types and the capability structures of
the function and change nothing, and writes are answered; a BAR2 access reaches the address that its aperture gives, one that the
space refuses is answered Unsupported Request or dropped, a read that its target refuses is answered Completer Abort and counted,
as is a BAR0 read of a lost die. Where the structures lie, and their PCIe bits, are log entry 205. -/
def Obligations.HostConfigAndBar2 : Prop :=
  (∀ (fn : Fin 65) (reg : Fin 1024) (s : State), hubAbsent s 0 = false → wBit (rget s 0x100) 10 = true → s.booted = true →
    exec (.configRequest fn { reg := reg, data := none }) s = .next (fnSend fn (.cfg 0 (cfgWord s fn reg).toNat) s)) ∧
  (∀ (fn : Fin 65) (reg : Fin 1024) (w : Word) (s : State), hubAbsent s 0 = false → wBit (rget s 0x100) 10 = true →
    s.booted = true → exec (.configRequest fn { reg := reg, data := some w }) s = .next (cfgWrite fn reg w (fnSend fn (.cfg 0 0) s))) ∧
  (∀ (w : Word) (s : State), cfgWord (cfgWrite 0 4 w s) 0 4 = (w &&& 0xF0000000) ||| 4 ∧ cfgWord (cfgWrite 0 5 w s) 0 5 = w ∧
    cfgWord (cfgWrite 0 6 w s) 0 6 = 0xC ∧ cfgWord (cfgWrite 0 7 w s) 0 7 = w &&& 0xFFFFFFF0) ∧
  (∀ (fn : Nat) (s : State),
    wFld (cfgWord s fn 0) 31 16 = (if fn = 0 then 0xF016 else 0xF017) ∧ wFld (cfgWord s fn 0) 15 0 = wFld (cfgWord s 0 0) 15 0 ∧
    cfgWord s fn 2 = 0x12000002 ∧ wFld (cfgWord s fn 11) 31 16 = 0x4102 ∧
    ∀ reg, wFld (itemWord s fn reg .linkCap) 11 10 = 0 ∧ wFld (itemWord s fn reg (.head .msix)) 26 16 = fnVectors fn - 1 ∧
      wBit (itemWord s fn reg .devCap) 28 = true) ∧
  (∀ (x : Fin (2 ^ 36)) (n : Fin 4097) (tg : Tgt) (d : List Byte) (s v : State), hostReaches s 0 = true →
    bar2Tgt (hostReq 0 (apertureDpa s x) s) x n false = .ok tg → (∀ o, tg ≠ .reg o) →
    tgtRead tg n (pfTx (apertureDpa s x)) (hostReq 0 (apertureDpa s x) s) = (some d, v) →
    exec (.bar2Read (.bar2 x) n) s = .next (fnSend 0 (.cpl 0 false d) v)) ∧
  (∀ (x : Fin (2 ^ 36)) (n : Fin 4097) (s : State), hostReaches s 0 = true → apertureDpa s x = none →
    ∃ t, exec (.bar2Read (.bar2 x) n) s = .next t ∧ t.hostOut = s.hostOut ++ [onStream s 0 (.cpl 1 false [])] ∧
      wFld (rget t 0x104) 31 16 = min (wFld (rget s 0x104) 31 16 + 1) 65535 ∧ t.t1 = s.t1 ∧ t.t2 = s.t2) ∧
  (∀ (x : Fin (2 ^ 36)) (n : Fin 4097) (s : State), hostReaches s 0 = true →
    bar2Tgt (hostReq 0 (apertureDpa s x) s) x n false = .error false →
    ∃ t, exec (.bar2Read (.bar2 x) n) s = .next t ∧ t.hostOut = s.hostOut ++ [onStream s 0 (.cpl 2 false [])] ∧
      wFld (rget t 0x104) 15 0 = min (wFld (rget s 0x104) 15 0 + 1) 65535 ∧ t.t1 = s.t1 ∧ t.t2 = s.t2 ∧ t.csram = s.csram) ∧
  (∀ (fn : Fin 65) (off : Fin (2 ^ 28)) (n : Fin 4097) (o : Nat) (s : State), hostReaches s fn = true → barOff fn off = some o →
    (regFenced s o = true → ∃ t, exec (.bar2Read (.bar0 fn off) n) s = .next t ∧
      t.hostOut = s.hostOut ++ [onStream s fn (.cpl 2 false [])] ∧
      wFld (rget t 0x104) 15 0 = min (wFld (rget s 0x104) 15 0 + 1) 65535 ∧ (∀ a, a ≠ 0x104 → rget t a = rget s a)) ∧
    (regFenced s o = false → exec (.bar2Read (.bar0 fn off) n) s =
      .next (fnSend fn (.cpl 0 false (regBytes false o n (hostReq fn none s)).1) (regBytes false o n (hostReq fn none s)).2))) ∧
  (∀ (x : Fin (2 ^ 36)) (d : List Byte) (off : Nat) (s : State), hostReaches s 0 = true →
    bar2Tgt (hostReq 0 (apertureDpa s x) s) x d.length true = .ok (.tier2 off) → (∀ k, (pairGet s k).link = 0) →
    ∃ t, exec (.bar2Write x d) s = .next t ∧ memRead t.t2 off d.length = d ∧
      (∀ a, a < off ∨ off + d.length ≤ a → memGet t.t2 a = memGet s.t2 a) ∧ t.t1 = s.t1 ∧ t.regs = s.regs ∧
      t.cores = s.cores ∧ t.hostOut = s.hostOut) ∧
  (∀ (x : Fin (2 ^ 36)) (d : List Byte) (s : State), hostReaches s 0 = true → apertureDpa s x = none →
    ∃ t, exec (.bar2Write x d) s = .next t ∧ t.t1 = s.t1 ∧ t.t2 = s.t2 ∧ t.csram = s.csram ∧ t.hostOut = s.hostOut ∧
      wFld (rget t 0x104) 31 16 = min (wFld (rget s 0x104) 31 16 + 1) 65535)

/-- R296: while a partition is in the TDISP RUN state every BAR2 read completes with Unsupported Request, every BAR2 write is
dropped, and both count in HP_ACC.UR. -/
def Obligations.Bar2InTdispRun : Prop :=
  ∀ (x : Fin (2 ^ 36)) (n : Fin 4097) (d : List Byte) (p : Nat) (s : State), hostReaches s 0 = true →
    (pget s p).state ≠ 0 → (pget s p).tdi = 2 →
    let ur := min (wFld (rget s 0x104) 31 16 + 1) 65535
    (∃ t, exec (.bar2Read (.bar2 x) n) s = .next t ∧ t.hostOut = s.hostOut ++ [onStream s 0 (.cpl 1 false [])] ∧ wFld (rget t 0x104) 31 16 = ur ∧
      (∀ o, o ≠ 0x104 → rget t o = rget s o) ∧ { t with regs := s.regs, ctrs := s.ctrs, hostOut := s.hostOut } = s) ∧
    (∃ t, exec (.bar2Write x d) s = .next t ∧ wFld (rget t 0x104) 31 16 = ur ∧
      (∀ o, o ≠ 0x104 → rget t o = rget s o) ∧ { t with regs := s.regs, ctrs := s.ctrs } = s)

/-- R294 and R299 to R304: bytes written to a window land in its 64 KiB, an accepted packet joins its window's queue and moves the head,
a refused one records its status, and signals no vector beyond the function's table; HP_WIN_CTL.RESET opens the window at slot 0; host data is taken for the read it answers. -/
def Obligations.CommandWindows : Prop :=
  (∀ (w : Fin 128) (off : Fin 65536) (d : List Byte) (s : State), hostReaches s (winFn w) = true → d.length ≤ 65536 →
    ∃ t, exec (.commandWindowWrite w off d) s = .next t ∧
      (∀ i, i < d.length → memGet t.winMem (w.val * 65536 + (off.val + i) % 65536) = d.getD i 0) ∧
      (∀ a, (∀ i, i < d.length → a ≠ w.val * 65536 + (off.val + i) % 65536) → memGet t.winMem a = memGet s.winMem a) ∧
      (∀ x, x ≠ w.val → wget t x = wget s x) ∧ t.t1 = s.t1 ∧ t.t2 = s.t2 ∧ t.cores = s.cores ∧
      ((wget s w).stalled = true → t.wins = s.wins ∧ t.regs = s.regs ∧ t.hostOut = s.hostOut)) ∧
  (∀ (w : Fin 128) (b : List Byte) (s : State), hRaddr b % 32 = 0 →
    acceptStatus (wset w { wget s w with head := ((wget s w).head + ceilDiv (40 + 8 * hPlen b) 64) % 1024 } s) w b = 0 →
    wget (takePacket w b s) w = { wget s w with
      head := ((wget s w).head + ceilDiv (40 + 8 * hPlen b) 64) % 1024
      queue := (wget s w).queue ++ [{ id := s.nextPkt, win := w, bytes := b, started := false, silent := false }] } ∧
    (takePacket w b s).nextPkt = s.nextPkt + 1 ∧ (∀ x, x ≠ w.val → wget (takePacket w b s) x = wget s x)) ∧
  (∀ (w : Fin 128) (b : List Byte) (st : Nat) (s : State), hRaddr b % 32 = 0 → st ≠ 0 →
    acceptStatus (wset w { wget s w with head := ((wget s w).head + ceilDiv (40 + 8 * hPlen b) 64) % 1024 } s) w b = st →
    wget (takePacket w b s) w = { wget s w with head := ((wget s w).head + ceilDiv (40 + 8 * hPlen b) 64) % 1024 } ∧
    (takePacket w b s).nextPkt = s.nextPkt ∧
    (bitAt (hRvec b) 11 = false ∨ fnVectors (winFn w) ≤ hRvec b % 2 ^ 11 → wFld (rget (takePacket w b s) (winLastKey w)) 31 16 = st % 65536 ∧
      (takePacket w b s).hostOut = s.hostOut ++ (if hRaddr b = 0 then [] else
        [onStream s (winFn w) (.write (hRaddr b) (replyBytes b 2 st 0 0 s.ns))]))) ∧
  (∀ (w : Fin 128) (s : State), hostReaches s (winFn w) = true → ∃ t, exec (.windowReset w) s = .next t ∧
    wget t w = { wget s w with head := 0, stalled := false } ∧ (∀ x, x ≠ w.val → wget t x = wget s x) ∧
    { t with wins := s.wins, ctrs := s.ctrs } = s) ∧
  (∀ (tag : Nat) (d : List Byte) (r : HostRead) (s : State), s.reads.find? (fun r => r.tag == tag) = some r →
    d.length = r.len → wBit (rget s 0x100) 10 = true → hubAbsent s 0 = false →
    exec (.hostReadCompletion tag d) s = .next (useData r.use d { s with reads := s.reads.filter (fun x => x.tag != tag) })) ∧
  (∀ (tag : Nat) (d : List Byte) (s : State), s.reads.find? (fun r => r.tag == tag) = none →
    exec (.hostReadCompletion tag d) s = .next s)

/-- R306: a packet's completion leaves its queue and writes one record of 32 bytes with status, RESULT and DETAIL, then the vector
that RVEC asks for, both inside the partition's IDE stream where one is established; QUIET omits the record of a success. -/
def Obligations.PacketCompletion : Prop :=
  (∀ (k : Pkt) (status result detail : Nat) (s : State), findPkt s k.id = some k → k.silent = false → s.fatal = false →
    bitAt (hRvec k.bytes) 12 = false → completed k status result detail s (complete k.id status result detail s)) ∧
  (∀ (k : Pkt) (status result detail : Nat) (s : State), findPkt s k.id = some k → k.silent = false → s.fatal = false →
    bitAt (hRvec k.bytes) 12 = true → hRaddr k.bytes ≠ 0 → status ≠ 0 →
    wBit (rget s (msixKey (winFn k.win) (hRvec k.bytes % 2 ^ 11) 3)) 0 = false → msixOn s (winFn k.win) = true →
    nsHas s.d3 (winFn k.win) = false → hRvec k.bytes % 2 ^ 11 < fnVectors (winFn k.win) →
    (complete k.id status result detail s).hostOut = s.hostOut ++
      [onStream s (winFn k.win) (.write (hRaddr k.bytes) (replyBytes k.bytes 1 status result detail s.ns)),
       onStream s (winFn k.win) (.msix (winFn k.win) (hRvec k.bytes % 2 ^ 11))]) ∧
  (∀ (m : HostOut) (p : Nat) (s : State), (pget s p).ide = true → onStream s (p + 1) m = .ide (p + 1) m) ∧
  (∀ (b : List Byte) (kind status result detail ns : Nat),
    (replyBytes b kind status result detail ns).length = 32 ∧
    leAt (replyBytes b kind status result detail ns) 0 2 = status % 65536 ∧
    leAt (replyBytes b kind status result detail ns) 16 8 = result % 2 ^ 64)

/-- R284 to R290: the power states of a function, its reset, the resets of the whole port, and the link. -/
def Obligations.FunctionStates : Prop :=
  (∀ (fn : Fin 65) (s : State), hubAbsent s 0 = false → wBit (rget s 0x100) 10 = true →
    ∃ t, exec (.d3hotEntry fn) s = .next t ∧
      (fn.val = 0 ∨ (pget s (fn - 1)).tdi = 0 ∨ (pget s (fn - 1)).tdi = 3 → t = { s with d3 := nsAdd s.d3 fn }) ∧
      (fn.val ≠ 0 → t = tdiError (fn - 1) { s with d3 := nsAdd s.d3 fn })) ∧
  (∀ (fn : Fin 65) (s : State), hubAbsent s 0 = false → wBit (rget s 0x100) 10 = true →
    ∃ t, exec (.d0Entry fn) s = .next t ∧ t.d3 = nsDel s.d3 fn ∧ t.wins = s.wins ∧ t.parts = s.parts ∧
      (∀ vec, vec < fnVectors fn →
        wBit (rget s ((if fn.val = 0 then 0x10000 else vfKey (fn - 1) 0x1F000) + 4 * (vec / 32))) (vec % 32) = true →
        wBit (rget s (msixKey fn vec 3)) 0 = false → msixOn s fn = true → onStream s fn (.msix fn vec) ∈ t.hostOut)) ∧
  (∀ (p : Fin 64) (s : State), hubAbsent s 0 = false → wBit (rget s 0x100) 10 = true →
    ∃ t, exec (.vfFlr p) s = .next t ∧ t = vfReset p s ∧ (wget t (64 + p)).head = 0 ∧ (wget t (64 + p)).stalled = false ∧
      (∀ k ∈ (wget t (64 + p)).queue, k.started = true) ∧ nsHas t.d3 (p + 1) = false) ∧
  (∀ s : State, hubAbsent s 0 = false → wBit (rget s 0x100) 10 = true →
    ∃ t, exec .pfFlr s = .next t ∧ t = allReset s ∧ nsHas t.d3 0 = false ∧
      ∀ w, w < 128 → (wget t w).head = 0 ∧ (wget t w).stalled = false ∧ ∀ k ∈ (wget t w).queue, k.started = true) ∧
  (∀ s : State, hubAbsent s 0 = false → ∃ t, exec .hotReset s = .next t ∧ t = linkDown (allReset s) ∧ rget t 0x100 = 0 ∧
    wBit (rget t 0x14) 16 = false ∧ t.sec.ideLink = false ∧ t.sec.idePf = false) ∧
  (∀ s : State, hubAbsent s 0 = false → ∃ t, exec .linkDown s = .next t ∧ t = linkDown (allReset s) ∧ rget t 0x100 = 0 ∧
    wBit (rget t 0x14) 16 = false ∧ ∀ w, w < 128 → (wget t w).head = 0 ∧ (wget t w).stalled = false) ∧
  (∀ (speed width : Nat) (s : State), hubAbsent s 0 = false → nsHas s.pwr.rails 0 = true → s.booted = true →
    ∃ t, exec (.hostLinkUp speed width) s = .next t ∧ wBit (rget t 0x100) 10 = true ∧
      wFld (rget t 0x100) 3 0 = speed % 16 ∧ wFld (rget t 0x100) 9 4 = width % 64 ∧ wBit (rget t 0x14) 16 = true ∧
      (∀ o, o ≠ 0x100 → o ≠ 0x14 → rget t o = rget s o) ∧ { t with regs := s.regs } = s)

/-- R307 to R311, R316 to R320 and Table HOST.12: DEVICE_STATUS and PART_QUERY answer from the state and change nothing; SET_LIMITS
writes the nearest limits; DEVICE_RESET restarts the device with no completion. -/
def Obligations.DeviceCommands : Prop :=
  completes .deviceStatus 0x0001 noResv (fun _ _ => True) (fun _ u =>
    min (u.boot.next.getD u.stage) 15 + b2n u.booted * 16 + b2n u.fatal * 32 + wFld (rget u 0x10) 15 12 * 256 +
      (rget u 0x1C).toNat * 2 ^ 32) (fun _ u => u) ∧
  completes .partQuery 0x0104 noResv (fun _ _ => True)
    (fun k u => partStat u (hPart k.bytes) + (pget u (hPart k.bytes)).steps % 2 ^ 32 * 2 ^ 32) (fun _ u => u) ∧
  (∀ (w : Fin 128) (k : Pkt) (s : State), admitted w 0x0003 (fun b => payNZ b 6 10) k s →
    ∃ u r, exec (.setLimits w) s = .next (complete k.id 0 r 0 u) ∧ { u with regs := s.regs } = startPkt k s ∧
      (payAt k.bytes 0 2 ≠ 0 → payAt k.bytes 0 2 < 8192 → wFld (rget u (thmBase + 4)) 12 0 =
        max 1200 (min (payAt k.bytes 0 2) (wFld (rget s thmBase) 31 16))) ∧
      (payAt k.bytes 2 2 ≠ 0 → payAt k.bytes 2 2 < 512 → ∀ n, n < 16 → bitAt (payAt k.bytes 4 2) n = true →
        wFld (rget u (thmBase + 0x40 + 4 * n)) 8 0 = max 40 (min (payAt k.bytes 2 2) (wFld (rget s thmBase) 15 0))) ∧
      (payAt k.bytes 0 2 = 0 → rget u (thmBase + 4) = rget s (thmBase + 4)) ∧
      (payAt k.bytes 2 2 = 0 → ∀ n, n < 16 → rget u (thmBase + 0x40 + 4 * n) = rget s (thmBase + 0x40 + 4 * n))) ∧
  (∀ (w : Fin 128) (k : Pkt) (s : State), admitted w 0x0002 (fun b => payAt b 0 1 / 4 != 0 || payNZ b 1 7) k s →
    (payAt k.bytes 0 1 ≤ 1 → ∃ t, exec (.deviceReset w) s = .next t ∧ t.boot.next = some 0 ∧ t.stage = 0 ∧
      t.booted = false ∧ t.fatal = false ∧ t.faultN = false ∧ t.parts = [] ∧ t.wins = [] ∧ t.cores = [] ∧ t.hubs = [] ∧
      t.pending = s.pending ∧ t.t1 = s.t1 ∧ t.t2 = s.t2 ∧ t.ns = s.ns ∧
      (payAt k.bytes 0 1 = 1 → t.boot.full = true)) ∧
    (1 < payAt k.bytes 0 1 → exec (.deviceReset w) s = .next (complete k.id 0x0102 0 0 (startPkt k s))))

/-- R312, R313, R315 and Table SEC.1: PART_CREATE takes free quarter-towers and writes the bounds entry; PART_LOCK closes the lock of
a created partition; PART_RELEASE leaves it releasing or gone; PART_READMIT brings a faulted one back. -/
def Obligations.PartitionCommands : Prop :=
  completes .partCreate 0x0101 (fun b => payAt b 26 1 / 4 != 0 || payAt b 27 1 / 4 != 0 || payNZ b 28 4 ||
      [8, 12, 16, 20].any (fun o => payAt b o 4 / 2 ^ 25 != 0)) (fun k u => createStatus u k.bytes = 0)
    (fun k u => (partCores (createPart k.bytes u) (hPart k.bytes)).length) (fun k u => createPart k.bytes u) ∧
  (∀ (b : List Byte) (s : State), (∀ e ∈ s.map.core, e.1 < 4352) → hPart b < 64 →
    let t := createPart b s
    let p := hPart b
    (pget t p).state = 1 ∧ (pget t p).mask = createMask b ∧ (pget t p).dir = none ∧ (pget t p).tdi = 0 ∧
    (pget t p).conf = bitAt (payAt b 27 1) 1 ∧ (pget t p).ucnt = bitAt (payAt b 27 1) 0 ∧
    (∀ j, j ≠ p → pget t j = pget s j) ∧
    rget t (boundsKey p 0) = BitVec.ofNat 32 (createMask b % 2 ^ 32) ∧
    rget t (boundsKey p 4) = BitVec.ofNat 32 (createMask b / 2 ^ 32) ∧
    rget t (boundsKey p 8) = BitVec.ofNat 32 (payAt b 8 4 % 2 ^ 25) ∧
    rget t (boundsKey p 0xC) = BitVec.ofNat 32 (payAt b 12 4 % 2 ^ 25) ∧
    rget t (boundsKey p 0x10) = BitVec.ofNat 32 (payAt b 16 4 % 2 ^ 25) ∧
    rget t (boundsKey p 0x14) = BitVec.ofNat 32 (payAt b 20 4 % 2 ^ 25) ∧
    wBit (rget t (boundsKey p 0x18)) 31 = true) ∧
  completes .partLock 0x0103 (fun b => payNZ b 0 8)
    (fun k u => (pget u (hPart k.bytes)).state = 1 ∧ (pget u (hPart k.bytes)).conf = false) (fun _ _ => 0)
    (fun k u => pset (hPart k.bytes) { pget u (hPart k.bytes) with state := 2 } u) ∧
  refuses .partLock 0x0103 (fun b => payNZ b 0 8) (fun k u => (pget u (hPart k.bytes)).state ≠ 1) 0x0304 ∧
  refuses .partLock 0x0103 (fun b => payNZ b 0 8)
    (fun k u => (pget u (hPart k.bytes)).state = 1 ∧ (pget u (hPart k.bytes)).conf = true) 0x0403 ∧
  (∀ (w : Fin 128) (k : Pkt) (s : State), admitted w 0x0102 (fun b => payAt b 0 1 / 2 != 0 || payNZ b 1 7) k s →
    (bitAt (payAt k.bytes 0 1) 0 = true ∨ (launchesOf (startPkt k s) (hPart k.bytes) = 0 ∧
      (pget s (hPart k.bytes)).step = none) →
      ∃ t, exec (.partRelease w) s = .next t ∧ t = releasePart (hPart k.bytes) k.id (startPkt k s) ∧
        ((pget t (hPart k.bytes)).state = 3 ∨ (pget t (hPart k.bytes)).state = 0)) ∧
    (bitAt (payAt k.bytes 0 1) 0 = false → launchesOf (startPkt k s) (hPart k.bytes) ≠ 0 →
      exec (.partRelease w) s = .next (complete k.id 0x0304 0 0 (startPkt k s)))) ∧
  completes .partReadmit 0x0105 (fun b => payAt b 0 1 / 16 != 0 || payNZ b 1 7)
    (fun k u => (pget u (hPart k.bytes)).state = 4 ∧
      ((pget u (hPart k.bytes)).conf = false ∨ (pget u (hPart k.bytes)).tdi ≠ 3) ∧
      clusOn u (hPart k.bytes) (payAt k.bytes 0 1) ≠ [] ∧ maskMapped u (pget u (hPart k.bytes)).mask = true)
    (fun k u => (partCores (pset (hPart k.bytes) { pget u (hPart k.bytes) with state := 1, model := none }
      (assignAll (clusOn u (hPart k.bytes) (payAt k.bytes 0 1)) u)) (hPart k.bytes)).length)
    (fun k u => pset (hPart k.bytes) { pget u (hPart k.bytes) with state := 1, model := none }
      (assignAll (clusOn u (hPart k.bytes) (payAt k.bytes 0 1)) u)) ∧
  refuses .partReadmit 0x0105 (fun b => payAt b 0 1 / 16 != 0 || payNZ b 1 7)
    (fun k u => (pget u (hPart k.bytes)).state ≠ 4) 0x0304

/-- R314: MEM_WRITE puts its data at a device address; DMA_IN reads host memory in requests of at most 4 096 bytes, and completes once
every part is written; DMA_OUT reads device memory and sends posted writes. -/
def Obligations.HostTransfers : Prop :=
  completes .memWrite 0x0201 (fun b => payNZ b 12 4)
    (fun k u => 0 < payAt k.bytes 8 4 ∧ payAt k.bytes 8 4 ≤ 4040 ∧
      (writeBlocks k.bytes (payAt k.bytes 0 8) 0 (payAt k.bytes 8 4 / 64 + 2)
        ((k.bytes.drop 48).take (payAt k.bytes 8 4)) u).1 = none) (fun _ _ => 0)
    (fun k u => (writeBlocks k.bytes (payAt k.bytes 0 8) 0 (payAt k.bytes 8 4 / 64 + 2)
      ((k.bytes.drop 48).take (payAt k.bytes 8 4)) u).2) ∧
  refuses .memWrite 0x0201 (fun b => payNZ b 12 4)
    (fun k _ => payAt k.bytes 8 4 = 0 ∨ 4040 < payAt k.bytes 8 4) 0x0107 ∧
  (∀ (w : Fin 128) (k : Pkt) (s : State), admitted w 0x0202 (fun b => payNZ b 20 4) k s →
    payAt k.bytes 0 8 % 64 = 0 → payAt k.bytes 8 8 % 64 = 0 → payAt k.bytes 16 4 % 64 = 0 →
    ∃ t, exec (.dmaIn w) s = .next t ∧
      (payAt k.bytes 16 4 = 0 → t = complete k.id 0 0 0 (startPkt k s)) ∧
      (payAt k.bytes 16 4 ≠ 0 → t.reads.length = s.reads.length + ceilDiv (payAt k.bytes 16 4) 4096 ∧
        t.dmas = s.dmas ++ [{ pkt := k.id, left := ceilDiv (payAt k.bytes 16 4) 4096, bad := none }] ∧
        { t with reads := s.reads, dmas := s.dmas, nextTag := s.nextTag, hostOut := s.hostOut } = startPkt k s ∧
        (∀ r ∈ t.reads.drop s.reads.length, r.len ≤ 4096) ∧
        ((t.reads.drop s.reads.length).map (fun r => r.len)).sum = payAt k.bytes 16 4)) ∧
  (∀ (pkt dpa : Nat) (d : List Byte) (x : DmaSt) (k : Pkt) (s v : State), s.dmas.find? (fun x => x.pkt == pkt) = some x →
    findPkt s pkt = some k → x.left ≤ 1 → x.bad = none →
    writeBlocks k.bytes dpa (dpa - payAt k.bytes 8 8) (d.length / 64 + 2) d s = (none, v) →
    dmaData pkt dpa d s = complete pkt 0 0 0 { v with dmas := v.dmas.filter (fun y => y.pkt != pkt) }) ∧
  completes .dmaOut 0x0203 (fun b => payNZ b 20 4)
    (fun k u => dmaStatus k.bytes = 0 ∧ (dmaBlocks k.bytes (payAt k.bytes 8 8) 0 (payAt k.bytes 16 4 / 64) u).2.1 = none)
    (fun _ _ => 0)
    (fun k u => hostPut (winFn k.win) (payAt k.bytes 0 8) (dmaBlocks k.bytes (payAt k.bytes 8 8) 0 (payAt k.bytes 16 4 / 64) u).1
      (dmaBlocks k.bytes (payAt k.bytes 8 8) 0 (payAt k.bytes 16 4 / 64) u).2.2) ∧
  refuses .dmaOut 0x0203 (fun b => payNZ b 20 4) (fun k _ => dmaStatus k.bytes ≠ 0) 0x0106 ∧
  (∀ (fn addr : Nat) (d : List Byte) (s : State), d.length ≤ 512 → d ≠ [] →
    hostPut fn addr d s = { s with hostOut := s.hostOut ++ [onStream s fn (.write addr d)] })

/-- R184, R185, R205, R214, R245, R252 to R255 and R316: registering and withdrawing the areas of a partition, its policy and
its glaze epoch. -/
def Obligations.PartitionAreas : Prop :=
  (∀ (w : Fin 128) (heads : HeadMap) (k : Pkt) (s : State), admitted w 0x0205 dirResv k s →
    let p := hPart k.bytes
    (pget s p).dir = none → dirStatus (startPkt k s) p (partClus s p).length (dirArea k.bytes heads.layers) (headWords k.bytes heads.words) = 0 →
    ∃ u, exec (.dirRegister w heads) s = .next (complete k.id 0 (poolBlks (dirArea k.bytes heads.layers)) 0 u) ∧
      (pget u p).dir = some (dirArea k.bytes heads.layers) ∧ (∀ j, j ≠ p → pget u j = pget s j) ∧
      (∀ c ∈ partClus s p, cluReg u c 0x100 = BitVec.ofNat 32 (payAt k.bytes 2 2 * 2 ^ 16 + payAt k.bytes 0 2) ∧
        cluReg u c 0x108 = 0) ∧ u.t1 = s.t1 ∧ u.t2 = s.t2 ∧ u.sp = s.sp) ∧
  completes .dirWithdraw 0x0206 noResv
    (fun k u => (pget u (hPart k.bytes)).dir.isSome = true ∧ anySeq (hPart k.bytes) u = false ∧
      launchesOf u (hPart k.bytes) = 0 ∧ (pget u (hPart k.bytes)).step = none) (fun _ _ => 0)
    (fun k u => dirDrop (hPart k.bytes) u) ∧
  (∀ (p : Nat) (s : State), (pget (dirDrop p s) p).dir = none ∧ ∀ c ∈ partClus s p,
    cluReg (dirDrop p s) c 0x100 = 0 ∧ cluReg (dirDrop p s) c 0x104 = 0 ∧ cluReg (dirDrop p s) c 0x108 = 0 ∧
    cluReg (dirDrop p s) c 0x110 = 0) ∧
  (∀ (w : Fin 128) (k : Pkt) (s : State), admitted w 0x0207 attResv k s →
    let p := hPart k.bytes
    (pget s p).att = none → attStatus (startPkt k s) p (attArea (startPkt k s) k.bytes) = 0 →
    ∃ u, exec (.attRegister w) s = .next (complete k.id 0 0 0 u) ∧
      (pget u p).att = some (attArea (startPkt k s) k.bytes) ∧ (∀ j, j ≠ p → pget u j = pget s j) ∧
      (∀ c ∈ partClus s p, cluReg u c 0x140 = BitVec.ofNat 32 (payAt k.bytes 2 2 * 2 ^ 16 + payAt k.bytes 0 2))) ∧
  completes .t2poolRegister 0x0208 poolResv
    (fun k u => (poolGet u (hPart k.bytes)).nslot = 0 ∧ poolStatus u (hPart k.bytes) (poolArea k.bytes) = 0) (fun _ _ => 0)
    (fun k u => { poolSet (hPart k.bytes) (poolArea k.bytes) u with
      t2 := memZero u.t2 (poolArea k.bytes).tagBase (16 * (poolArea k.bytes).nslot)
      t2poison := nsDrop u.t2poison ((poolArea k.bytes).tagBase / 64) ((poolArea k.bytes).nslot / 4) }) ∧
  completes .t2poolWithdraw 0x0209 noResv
    (fun k u => (poolGet u (hPart k.bytes)).nslot ≠ 0 ∧ (poolGet u (hPart k.bytes)).used = []) (fun _ _ => 0)
    (fun k u => poolSet (hPart k.bytes) Pool.reset u) ∧
  refuses .t2poolWithdraw 0x0209 noResv
    (fun k u => (poolGet u (hPart k.bytes)).nslot = 0 ∨ (poolGet u (hPart k.bytes)).used ≠ []) 0x0304 ∧
  (∀ (w : Fin 128) (k : Pkt) (s : State), admitted w 0x020A (fun b => payNZ b 20 4) k s →
    let p := hPart k.bytes
    (pget s p).glz.area = false → payAt k.bytes 0 8 % 65536 = 0 → payAt k.bytes 8 8 % 4096 = 0 →
    ∃ u, exec (.swapRegister w) s = .next (complete k.id 0 0 0 u) ∧ (pget u p).glz.area = true ∧
      (pget u p).glz.dataBase = payAt k.bytes 0 8 ∧ (pget u p).glz.metaBase = payAt k.bytes 8 8 ∧
      (pget u p).glz.nhs = payAt k.bytes 16 4 ∧ wBit (rget u (glzKey p 0)) 31 = true ∧
      (∀ o, o ≠ glzKey p 0 → rget u o = rget s o)) ∧
  (∀ (w : Fin 128) (k : Pkt) (s : State), admitted w 0x020B noResv k s →
    let p := hPart k.bytes
    (pget s p).glz.area = true → wFld (rget s (glzKey p 4)) 29 0 = 0 → wFld (rget s (glzKey p 8)) 29 0 = 0 →
    kvMode s p ≠ 2 →
    ∃ u, exec (.swapWithdraw w) s = .next (complete k.id 0 0 0 u) ∧ (pget u p).glz.area = false ∧
      (pget u p).glz.nhs = 0 ∧ wBit (rget u (glzKey p 0)) 31 = false ∧ (∀ o, o ≠ glzKey p 0 → rget u o = rget s o)) ∧
  (∀ (w : Fin 128) (k : Pkt) (s : State), admitted w 0x0309 (edResv 0 0x3FFFFFFF) k s →
    let p := hPart k.bytes
    let v := payAt k.bytes 8 8
    (pget s p).dir.isSome = true → fld v 29 28 ≠ 3 → (fld v 29 28 = 2 → (pget s p).glz.area = true) →
    ∃ u, exec (.setPolicy w) s = .next (complete k.id 0 0 0 u) ∧ { u with regs := s.regs } = startPkt k s ∧
      ∀ c ∈ partClus s p, wFld (cluReg u c 0x118) 13 0 = fld v 13 0 ∧
        wFld (cluReg u c 0x118) 27 14 = max (fld v 27 14) (fld v 13 0) ∧ wFld (cluReg u c 0x118) 31 30 = fld v 29 28) ∧
  (∀ (w : Fin 128) (k : Pkt) (s : State), admitted w 0x0701 noResv k s →
    let p := hPart k.bytes
    let e := (glzEpoch s p + 1) % 4
    (wFld (rget s (glzKey p 8)) 29 0 = 0 →
      ∃ u, exec (.keyRotate w) s = .next (complete k.id 0 e 0 u) ∧ glzEpoch u p = e ∧
        rget u (glzKey p 8) = BitVec.ofNat 32 (wFld (rget s (glzKey p 4)) 29 0) ∧ rget u (glzKey p 4) = 0 ∧
        (pget u p).glz.sweep = true ∧ (glzKeyOf (pget u p).glz e).isSome = true ∧
        glzKeyOf (pget u p).glz (e + 1) = glzKeyOf (pget s p).glz (e + 1)) ∧
    (wFld (rget s (glzKey p 8)) 29 0 ≠ 0 →
      exec (.keyRotate w) s = .next (complete k.id 0x0404 0 0 (startPkt k s))))

/-- R144, R196, R197, R216, R230, R235, R315, R318 and R319: a model is loaded, a launch queues, the queue's first launch starts
and reads its length table, the walker writes segments, and the step retires, is cancelled, runs out of time or ends by the abort
of one of its cores (log entry 178). -/
def Obligations.StepsRunAndRetire : Prop :=
  (∀ (w : Fin 128) (k : Pkt) (ents wm : List (List Byte)) (imgs : List (Nat × Nat × List Byte)) (s u v x : State),
    admitted w 0x0204 (fun b => payNZ b 22 10) k s →
    let b := k.bytes
    let p := hPart b
    payAt b 0 8 % 8 = 0 → (pget s p).loading = none → (∀ c ∈ partCores s p, (cget s c).halted = true) →
    pktTable (pktWho b) (payAt b 0 8) 8 (partCores s p).length (startPkt k s) = (.ok ents, u) →
    (∀ e ∈ ents, fld (leNat e) 31 28 = 0 ∧ leNat e < 2 ^ 33) →
    pktTable (pktWho b) (payAt b 8 8) 24 (if payAt b 8 8 = 0 then 0 else payAt b 16 4) u = (.ok wm, v) →
    (∀ e ∈ wm, leAt e 20 4 = 0 ∧ weightOk v (pktWho b) (leAt e 0 8, leAt e 8 8, leAt e 16 4) = true) →
    readHeaders (imagesOf (partCores s p) ents) v = (.ok imgs, x) →
    let m : ModelSt := { handle := payAt b 20 2, cores := imgs.map (fun e => e.1),
                         weights := wm.map (fun e => (leAt e 0 8, leAt e 8 8, leAt e 16 4)) }
    ∃ t, exec (.modelLoad w) s = .next t ∧
      t = loadFinish p (pupd p (fun q => { q with loading := some { pkt := k.id, model := m, left := m.cores, bad := none },
                                                  model := none })
        (imgs.foldl (fun s e => loadImage e.1 e.2.1 e.2.2 s) x)) ∧
      (imgs = [] → (pget t p).model = some m ∧ (pget t p).loading = none)) ∧
  (∀ (w : Fin 128) (k : Pkt) (s : State), admitted w 0x0401 (fun b => payAt b 8 4 / 2 ^ 16 != 0) k s →
    let q := pget s (hPart k.bytes)
    q.model.isSome = true → payAt k.bytes 0 8 % 8 = 0 → payAt k.bytes 16 8 % 8 = 0 →
    ∃ t, exec (.stepLaunch w) s = .next t ∧ { t with parts := s.parts } = startPkt k s ∧
      (∀ j, j ≠ hPart k.bytes → pget t j = pget s j) ∧
      ((∀ d, q.dir = some d → d.pend = false ∧ d.queued = false) →
        pget t (hPart k.bytes) = { q with launches := q.launches ++ [k.id] }) ∧
      (∀ d, q.dir = some d → d.pend = true → d.queued = false →
        pget t (hPart k.bytes) = { q with held := q.held ++ [k.id] }) ∧
      (∀ d, q.dir = some d → d.queued = true → pget t (hPart k.bytes) = { q with held2 := q.held2 ++ [k.id] })) ∧
  (∀ (w : Fin 128) (k : Pkt) (s : State), admitted w 0x0402 noResv k s →
    let p := hPart k.bytes
    let q := pget s p
    ∃ u, exec (.stepCancel w) s = .next (complete k.id 0 ((q.launches.length + q.held.length + q.held2.length +
        (if q.step.any (fun st => st.phase != 2) then 1 else 0)) % 65536) 0 u) ∧
      (pget u p).launches = [] ∧ (pget u p).held = [] ∧ (pget u p).held2 = [] ∧
      (∀ st, (pget u p).step = some st → st.phase = 2)) ∧
  (∀ (p : Fin 64) (id : Nat) (rest : List Nat) (k : Pkt) (s : State), (pget s p).step = none →
    (∀ d, (pget s p).dir = some d → d.pend = false ∨ d.first = true) → s.fatal = false → nsHas s.d3 0 = false →
    nsHas s.d3 (p + 1) = false → (pget s p).launches = id :: rest → findPkt s id = some k → (pget s p).model.isSome = true →
    ∃ t st, exec (.stepStart p) s = .next t ∧
      pget t p = { pget s p with
        launches := rest
        steps := (pget s p).steps + 1
        step := some st
        dir := (pget s p).dir.map (fun d => { d with first := false }) } ∧
      st.pkt = id ∧ st.phase = 0 ∧ st.start = s.ns ∧ st.left = ceilDiv (8 * (payAt k.bytes 8 2 + 1)) 4096 ∧
      (∀ j, j ≠ p.val → pget t j = pget s j) ∧ t.wins = s.wins ∧ t.regs = s.regs ∧ t.cores = s.cores ∧ t.t1 = s.t1) ∧
  (∀ (p : Fin 64) (d : DirSt) (s : State), (pget s p).dir = some d → d.pend = true → d.first = false →
    exec (.stepStart p) s = .next s) ∧
  (∀ (p i e : Nat) (x : EditCtx) (tab : List Nat) (v : Desc) (s u : State),
    (curDesc p (leSeq e)).run s = .ok (some (i, v), u) → v.fault ≠ 0 → leNew e ≠ 0 →
    (launchFault p x tab e).run s = .ok (v.fault, u)) ∧
  (∀ (p : Fin 64) (clu : Fin 256) (stop : Fin 32) (st : StepSt) (a : AttSt) (g : WalkSeg) (s : State),
    (pget s p).step = some st → (pget s p).att = some a →
    st.segs.find? (fun g => g.clu == clu.val && g.stop == stop.val) = some g → st.phase = 1 →
    (walkTurn st g = false → exec (.walkSegmentWrite p clu stop false) s = .next s) ∧ (walkTurn st g = true →
    (∀ v, (walkWrite p a st g).run s = .ok ((), v) → exec (.walkSegmentWrite p clu stop false) s = .next v) ∧
    ∃ t, exec (.walkSegmentWrite p clu stop true) s = .next t ∧ { t with parts := s.parts } = csBusyN clu 65 none s ∧
      pget t p = { pget s p with step := some { st with
        faults := g.work.foldl (fun fs n => fs.modify n (fun f => if f = 0 then 0x0C else f)) st.faults } })) ∧
  (∀ (p : Fin 64) (outs : List StepOut) (st : StepSt) (s : State), (pget s p).step = some st → st.phase = 1 →
    (∀ c ∈ modelCores s p, (cget s c).halted = true ∧ (sq s c).startPend = false) →
    (st.segs = [] → ∃ t, exec (.stepRetire p outs) s = .next t ∧ t = stepRetire p st outs s ∧ (pget t p).step = none) ∧
    (st.segs ≠ [] → exec (.stepRetire p outs) s = .next s)) ∧
  (∀ o : StepOut, (o.fmt = true → ownerFault o = 0x01) ∧ (o.fmt = false → o.poison = true → ownerFault o = 0x02) ∧
    (o.fmt = false → o.poison = false → o.foreign = true ∨ o.item = true → ownerFault o = 0x0C) ∧
    (o.fmt = false → o.poison = false → o.foreign = false → o.item = false → ownerFault o = 0)) ∧
  (∀ (c : Fin 4352) (w p : Nat) (st : StepSt) (s u : State), issues c 0x04 [0] w s u → stepOf u c = some p →
    (pget u p).step = some st → ∃ t, exec (.tabort c) s = .next t ∧
      pget t p = { pget u p with step := some { st with
        phase := 2
        status := 0x0309
        segs := []
        detail := (partCores u p).idxOf c.val + wFld (corReg u c 0x220) 7 0 * 2 ^ 16 } } ∧
      ∀ k ∈ modelCores u p, (cget u k).halted = false → (sq t k).run = false ∧ (sq t k).stop ≠ 0) ∧
  (∀ (p : Fin 64) (st : StepSt) (k : Pkt) (s : State), (pget s p).step = some st → findPkt s st.pkt = some k →
    (payAt k.bytes 12 4 ≠ 0 → st.phase ≠ 2 → exec (.stepLimitExpiry p) s = .next (stepStop p 0x0505 0 s)) ∧
    (payAt k.bytes 12 4 = 0 → exec (.stepLimitExpiry p) s = .next s)) ∧
  (∀ (token fault : Nat) (mixed clamp : Bool), token < 2 ^ 32 → fault < 256 →
    leNat (tokenRec token fault mixed clamp) = token + fault * 2 ^ 32 + b2n mixed * 2 ^ 40 + b2n clamp * 2 ^ 41) ∧
  (∀ (e ctx b first : Nat), appendFault e ctx b first = 0 ↔
    pteValid e = true ∧ pteTier e = 0 ∧ (b = first → pteShared e = false) ∧ pteTokens e = wantTokens ctx b)

/-- R192 to R199, R201 and R317: an edit applies in every shard or not at all, and completes with the generation it built; what
FORK, TRUNCATE and RELEASE refuse; a COMMIT waits for the switch, which makes the built generation current. Log entries 31, 32 and
83 hold what the model chose of the directories. -/
def Obligations.DirectoryEdits : Prop :=
  edits .create 0x0301 (edResv 0x3FFFFF 0) edCreate ∧ edits .fork 0x0302 (edResv 0xFFFFF003FFFFF 0x3FFFFF) edFork ∧
  edits .reserve 0x0303 (edResv 0xFFFFF 0x3FFFFF) edReserve ∧ edits .truncate 0x0304 (edResv 0xFFFFF 0x3FFFFF) edTruncate ∧
  edits .release 0x0305 (edResv 0xFFFFF 0) edRelease ∧ edits .setprio 0x0306 (edResv 0x3FFFFF 0) edSetprio ∧
  edits .sethead 0x0307 (edResv 0 0x1FFFF) edSethead ∧
  (∀ (p i : Nat) (b : List Byte) (x : EditCtx) (v : Desc) (s u u' : State), (editCtx p).run s = .ok (x, u) →
    (needSeq p x (fld (payAt b 0 8) 19 0)).run u = .ok ((i, v), u') →
    (v.ctx < fld (payAt b 8 8) 21 0 → (edTruncate p b).run s = .error 0x0107) ∧
    (fld (payAt b 8 8) 21 0 ≤ v.ctx → v.state = 1 ∨ v.state = 2 → (edTruncate p b).run s = .error 0x0304) ∧
    (v.state = 1 ∨ v.state = 2 → (edRelease p b).run s = .error 0x0304)) ∧
  (∀ (p i : Nat) (b : List Byte) (x : EditCtx) (v : Desc) (s u u' : State), (editCtx p).run s = .ok (x, u) →
    (needSeq p x (fld (payAt b 0 8) 51 32)).run u = .ok ((i, v), u') →
    v.fault ≠ 0 ∨ (3 ≤ v.state ∧ v.state ≤ 5) → (edFork p b).run s = .error 0x0304) ∧
  (∀ (p : Nat) (b : List Byte) (d : DirSt) (s : State), (pget s p).dir = some d →
    (d.nlh ≤ fld (payAt b 8 8) 11 0 → (edSethead p b).run s = .error 0x0107) ∧
    (fld (payAt b 8 8) 11 0 < d.nlh → ∃ t e, (edSethead p b).run s = .ok ((), t) ∧ (pget t p).dir = some e ∧
      stGet (fun _ => 0) (building e).heads (fld (payAt b 8 8) 11 0) = fld (payAt b 8 8) 16 12 + 1 ∧
      (∀ h, h ≠ fld (payAt b 8 8) 11 0 →
        stGet (fun _ => 0) (building e).heads h = stGet (fun _ => 0) (building d).heads h) ∧
      { t with parts := s.parts } = s)) ∧
  (∀ (w : Fin 128) (k : Pkt) (d : DirSt) (s : State), admitted w 0x0308 noResv k s → (pget s (hPart k.bytes)).dir = some d →
    (d.queued = true → exec (.commit w) s = .next (complete k.id 0x0304 0 0 (startPkt k s))) ∧
    (d.queued = false → ∃ t, exec (.commit w) s = .next t ∧ { t with parts := s.parts } = startPkt k s ∧
      (pget t (hPart k.bytes)).dir = some (if d.pend = true then { d with queued := true, pkt2 := some k.id, auto := false }
        else { d with pend := true, pkt1 := some k.id, auto := false }))) ∧
  (∀ (p : Fin 64) (d : DirSt) (s : State), (pget s p).dir = some d →
    let u := retireMigrated p (swapFinish p (switchGen p s))
    (switchDue s p = true ↔ d.pend = true ∧ (pget s p).step = none ∧
      ¬(d.first = true ∧ (pget s p).launches ≠ [] ∧ mayStart s p = true)) ∧
    (switchDue s p = true → refErrs u p ≤ refErrs s p → exec (.generationSwitch p) s = .next u) ∧
    (switchDue s p = true → refErrs s p < refErrs u p → exec (.generationSwitch p) s = .next (faultPart p (tdiError p u))) ∧
    (switchDue s p = false → exec (.generationSwitch p) s = .next s) ∧
    (d.auto = false ∨ d.queued = true → (pget (switchGen p s) p).dir.map (fun e => (e.gen, e.g1, e.pend, e.queued, e.pkt1)) =
      some ((d.gen + 1) % 2 ^ 32, d.g2, d.queued, false, d.pkt2)) ∧
    (d.auto = true → d.queued = false → (pget (switchGen p s) p).dir.map (fun e => (e.gen, e.g1, e.pend, e.queued, e.pkt1)) =
      some ((d.gen + 1) % 2 ^ 32, d.g2, true, false, none)) ∧
    (pget (switchGen p s) p).dir.map (fun e => e.first) =
      some (d.queued && !((pget s p).launches ++ (pget s p).held).isEmpty) ∧
    (pget (switchGen p s) p).launches = (pget s p).launches ++ (pget s p).held ∧
    (pget (switchGen p s) p).held = (pget s p).held2) ∧
  (∀ (w : Fin 128) (k : Pkt) (s u : State), admitted w 0x030B (edResv 0xFFFFF 0) k s →
    (∀ i v, (curDesc (hPart k.bytes) (fld (payAt k.bytes 0 8) 19 0)).run (startPkt k s) = .ok (some (i, v), u) →
      exec (.seqQuery w) s =
        .next (complete k.id 0 (v.state + v.prio * 2 ^ 4 + v.fault * 2 ^ 8 + v.ctx * 2 ^ 32) 0 u)) ∧
    ((curDesc (hPart k.bytes) (fld (payAt k.bytes 0 8) 19 0)).run (startPkt k s) = .ok (none, u) →
      exec (.seqQuery w) s = .next (complete k.id 0x0304 0 0 u)))

/-- R205 to R207, R246 and R248 to R256: no edit copies a page while preemption is stuck; which sequence is preempted first and which slot a page takes; a swap-in is admitted,
refused or waits; a re-key sweep takes a page of the previous epoch or ends. -/
def Obligations.SwapMoves : Prop :=
  (∀ (w : Fin 128) (k : Pkt) (s u : State), admitted w 0x030A (edResv 0xFFFFF 0) k s →
    let p := hPart k.bytes
    (pget s p).swap = none → (∀ r, (pget s p).rekey = some r → r.seq ≠ fld (payAt k.bytes 0 8) 19 0) →
    (∀ v, (swapAdmit p k.id (fld (payAt k.bytes 0 8) 19 0)).run (startPkt k s) = .ok ((), u) → (pget u p).swap = some v →
      exec (.swapIn w) s = .next (swapFinish p (jobsStart p v.jobs (dropReads (fun u => match u with
        | .swapImg i _ _ => i == p
        | .swapRec i _ => i == p
        | _ => false) u)))) ∧
    (∀ st, (swapAdmit p k.id (fld (payAt k.bytes 0 8) 19 0)).run (startPkt k s) = .error st →
      exec (.swapIn w) s = .next (complete k.id st 0 0 (startPkt k s)))) ∧
  (∀ (w : Fin 128) (k : Pkt) (s : State), startable s w 0x030A = some k →
    (pget s (hPart k.bytes)).swap.isSome = true ∨
      (∃ r, (pget s (hPart k.bytes)).rekey = some r ∧ r.seq = fld (payAt k.bytes 0 8) 19 0) →
    exec (.swapIn w) s = .next s) ∧
  (∀ (p k e tokens : Nat) (s : State), (pget s p).stuck = true → (copyEntry p k e tokens).run s = .error 0x0204) ∧
  (∀ (p pkt q i : Nat) (x : EditCtx) (v : Desc) (s u u' : State), (editCtx p).run s = .ok (x, u) →
    (needSeq p x q).run u = .ok ((i, v), u') → v.state ≠ 4 → (swapAdmit p pkt q).run s = .error 0x0304) ∧
  (∀ (p : Fin 64) (held : List (Fin 1048576)) (l : List (Nat × Desc)) (i : Nat) (v : Desc) (s u : State),
    kvMode s p ≠ 0 → (pget s p).dir.isSome = true → ((pget s p).preempt = true ∨ freeAll s p (kvLow s p) = false) →
    freeAll s p (kvHigh s p) = false → (liveSeqs p).run s = .ok (l, u) → (∀ e ∈ l, e.2.state ≠ 3) →
    firstVictim (l.filter (fun e => e.2.state == 0 && decide (e.2.prio < 3) && !(held.map Fin.val).contains e.2.seq)) =
      some (i, v) →
    ∃ t, exec (.preemptVictim p held) s = .next t ∧ (pget t p).preempt = true ∧ (pget t p).stuck = false ∧
      t.wins = s.wins) ∧
  (∀ (p : Fin 64) (held : List (Fin 1048576)) (s : State), freeAll s p (kvHigh s p) = true →
    kvMode s p ≠ 0 → (pget s p).dir.isSome = true → (pget s p).preempt = true →
    ∃ t, exec (.preemptVictim p held) s = .next t ∧ (pget t p).preempt = false ∧ { t with parts := s.parts } = s) ∧
  (∀ (l : List (Nat × Desc)) (e : Nat × Desc), firstVictim l = some e → e ∈ l ∧ ∀ f ∈ l, f.2.prio ≤ e.2.prio →
    f.2.prio = e.2.prio ∧ (f.2.last ≤ e.2.last → f.2.last = e.2.last ∧ f.2.seq ≤ e.2.seq)) ∧
  (∀ (p : Fin 64) (q : Fin 1048576) (lh : Fin 4096) (blk : Fin 65536) (s v : State),
    (movePage p q lh blk).run s = .ok ((), v) → exec (.pageMoveOut p q lh blk) s = .next v) ∧
  (∀ (p q lh blk : Nat) (x : EditCtx) (s u : State), (editCtx p).run s = .ok (x, u) → x.d.queued = true →
    (movePage p q lh blk).run s = .error 0) ∧
  (∀ (g : GlzSt) (pair : Bool) (i : Nat), hostSlot g pair = some i →
    i < g.nhs ∧ nsHas g.used i = false ∧ (pair = true → i % 2 = 0 ∧ i + 1 < g.nhs ∧ nsHas g.used (i + 1) = false) ∧
    ∀ j, j < i → nsHas g.used j = true ∨ (pair = true ∧ (j % 2 = 1 ∨ g.nhs ≤ j + 1 ∨ nsHas g.used (j + 1) = true))) ∧
  (∀ (q : Pool) (h i : Nat) (pair : Bool), h < 4 → q.slot0 % 4 = 0 → hubSlot q h pair = some i →
    i % 4 = h ∧ q.slot0 ≤ i ∧ i < q.slot0 + q.nslot ∧ nsHas q.used i = false ∧
    (pair = true → i / 4 % 2 = 0 ∧ i + 4 < q.slot0 + q.nslot ∧ nsHas q.used (i + 4) = false)) ∧
  (∀ (p page : Nat) (pair : Bool) (s : State), let q := poolGet s p
    let t := poolGet (freeT2 p page pair s) p
    (q.nslot - t.used.length < q.low * 1024 → t.spill = true) ∧
    (q.low ≤ q.high → q.high * 1024 ≤ q.nslot - t.used.length → t.spill = false) ∧
    (q.low * 1024 ≤ q.nslot - t.used.length → q.nslot - t.used.length < q.high * 1024 → t.spill = q.spill) ∧
    t.used = q.used.filter (fun i => !(pageSlots page pair).contains i) ∧ (∀ j, j ≠ p → poolGet (freeT2 p page pair s) j = poolGet s j)) ∧
  (∀ (p : Fin 64) (q : Fin 1048576) (lh : Fin 4096) (blk : Fin 65536) (s : State), (pget s p).glz.sweep = true →
    (pget s p).rekey = none → wFld (rget s (glzKey p 8)) 29 0 = 0 →
    ∃ t, exec (.rekeySweep p q lh blk) s = .next t ∧ (pget t p).glz = { (pget s p).glz with sweep := false } ∧
      wBit (rget t (glzKey p 0)) 30 = false ∧ (∀ o, o ≠ glzKey p 0 → rget t o = rget s o) ∧ t.reads = s.reads) ∧
  (∀ (p : Fin 64) (q : Fin 1048576) (lh : Fin 4096) (blk : Fin 65536) (x : EditCtx) (i e : Nat) (v : Desc)
      (s u u' u'' : State), (pget s p).glz.sweep = true → (pget s p).rekey = none → wFld (rget s (glzKey p 8)) 29 0 ≠ 0 →
    (editCtx p).run s = .ok (x, u) → (needSeq p x q).run u = .ok ((i, v), u') →
    (getBld p i x lh blk).run u' = .ok (e, u'') →
    pteValid e = true → pteTier e = 2 → pteEpoch e = (glzEpoch u'' p + 3) % 4 → v.state ≠ 5 →
    ∃ t, exec (.rekeySweep p q lh blk) s = .next t ∧ (pget t p).rekey = some
      { seq := q, lh := lh, blk := blk, half := 0, entry := e, record := [], image := [] } ∧
      t.wins = u''.wins ∧ t.regs = u''.regs)

/-- R264, R269, R272 to R282: ring channels; a port's request is refused at its interface or takes a slot; a target admits it, or answers
with a retry and a reservation; grants in the order of age, weight and port, lapses, reissues and responses in order; map commits, table
loads and slot limits. R34: an entry read with a parity error is poison (log entries 175 and 202). -/
def Obligations.NetworkTransactions : Prop :=
  (∀ (q : Fin 4409) (p : Option (Fin 64)) (addr : Fin (2 ^ 48)) (len : Fin 257) (nclk : Nat) (data : Option (List Byte))
      (atom : Option AtomicOp) (n : Nat) (s : State),
    n = (match atom with
      | some op => atomicBytes op
      | none => (data.map List.length).getD len) → 0 < n → n ≤ 256 →
    (∀ op, atom = some op → ∃ d, data = some d ∧ d.length = atomicBytes op ∧ addr.val % n = 0) →
    ∃ t, exec (.requestIssue q p addr len nclk data atom) s = .next t ∧ t.net.nextId = s.net.nextId + 1 ∧ t.t1 = s.t1 ∧
      t.t2 = s.t2 ∧ t.net.now = s.net.now + nclk ∧
      (netRefusal s q (p.map Fin.val) addr n data.isSome = none → ∃ x ∈ t.net.txs, x.id = s.net.nextId ∧ x.port = q.val ∧
        x.addr = addr.val ∧ x.len = n ∧ x.write = data.isSome ∧ x.atom = atom ∧ x.cls = 0 ∧ x.data = data.getD (zeros n) ∧
        x.born = s.net.now + nclk ∧ (q.val < 4352 → x.weight = wFld (rget s (otKey q)) 25 24)) ∧
      (∀ st r, netRefusal s q (p.map Fin.val) addr n data.isSome = some (st, r) →
        (∃ x, t.net.txs = s.net.txs ++ [x] ∧ x.id = s.net.nextId ∧ x.st = 6 ∧ x.status = st ∧ x.resp = none) ∧
        (st ≠ 0x0401 → t.regs = s.regs) ∧
        (st = 0x0401 → ∀ k i, portClu q = some k → portWho s q (p.map Fin.val) = .part i →
          cluReg t k 0x258 = BitVec.ofNat 32 (2 ^ 31 + r * 2 ^ 28 + i * 2 ^ 22 +
            (if q.val < 4352 then coreSite q else 0) * 2 ^ 16)))) ∧
  (∀ (id key off : Nat) (x : NetTx) (l m : List Nat) (esc : Bool) (s : State), txFind s id = some x → x.st = 0 →
    netRefusal s x.port (if x.part = 64 then none else some x.part) x.addr x.len x.write = none →
    admAt s x.port x.addr = some (key, off) → slotFor s x.port ≠ 0 →
    netRoutes s (portNode x.port) (admNode key) = some (l, m, esc) →
    (crossesLost s (l ++ m) = true → txSend id s = s) ∧
    (crossesLost s (l ++ m) = false → txFind (txSend id s) id = some { x with
      st := 1, slot := slotFor s x.port, key := key, off := off, out := l, back := m, esc := esc, mask := pathTowers (l ++ m) })) ∧
  (∀ (id st r : Nat) (x : NetTx) (s : State), txFind s id = some x → x.st = 0 →
    netRefusal s x.port (if x.part = 64 then none else some x.part) x.addr x.len x.write = some (st, r) →
    txFind (txSend id s) id = some { x with st := 6, status := st, resp := none }) ∧
  routeChans false false (ringPath 2 0) = [(258, 259, 2), (259, 256, 3)] ∧
  routeChans false false (ringPath 1 3) = [(257, 258, 2), (258, 259, 2)] ∧
  routeChans true false (ringPath 1 0) = [(257, 256, 3)] ∧
  (∀ (id : Nat) (full : Bool) (x : NetTx) (s : State), txFind s id = some x → x.st = 1 →
    let e := admEntry s x full
    let l := (resvOf s x.key).filter (fun i => i != id) ++ [id]
    ∃ t, exec (.targetAdmit id full false) s = .next t ∧
      (e ≠ 0 → txFind t id = some { x with st := 2, entry := e } ∧ t.net.resv = s.net.resv ∧
        (∀ j, j ≠ id → txFind t j = txFind s j)) ∧
      (e = 0 → l.length ≤ 4 → resvOf t x.key = l ∧ txFind t id = some { x with st := 4 }) ∧
      (e = 0 → 4 < l.length → resvOf t x.key = l.filter (fun i => i != l.foldl max 0)) ∧
      (e = 0 → ∀ k, portClu x.port = some k →
        wFld (cluReg t k 0x254) 31 16 = min (wFld (cluReg s k 0x254) 31 16 + 1) 65535) ∧ t.t1 = s.t1) ∧
  (∀ (id : Nat) (full : Bool) (x : NetTx) (s : State), txFind s id = some x → x.st = 1 →
    ∃ t y, exec (.targetAdmit id full true) s = .next t ∧ txFind t id = some y ∧ y.poison = true ∧ t.t1 = s.t1 ∧ t.t2 = s.t2) ∧
  (∀ (x : NetTx) (s : State), x.poison = true → (x.write = false ∨ x.atom.isSome = true) →
    performNow x s = answer x.id 0 none s) ∧
  (∀ (key : Fin 30024) (n : Nat) (x : NetTx) (s : State),
    let u := netTick n s
    let v := if 10000 ≤ key.val then served key x (perform x u) else perform x u
    nextServed u key = some x → resvOf v key = [] → exec (.grant ⟨key, n⟩) s = .next v) ∧
  (∀ (key : Nat) (a b : NetTx) (s : State), a.weight < 4 → b.weight < 4 →
    (txAge s b < txAge s a ∨ (txAge s a = txAge s b ∧ b.weight < a.weight)) → ageRank s key a < ageRank s key b) ∧
  (∀ (key : Fin 30024) (n : Nat) (x : NetTx) (s : State),
    let u := netTick n s
    nextServed u key = none → grantPick u key = some x → txFind u x.id = some x → entryFor u x key false ≠ 0 →
    ∃ t, exec (.grant ⟨key, n⟩) s = .next t ∧ x.id ∉ resvOf t key ∧
      txFind t x.id = some { x with st := 5, entry := entryFor u x key false } ∧ t.regs = s.regs ∧ t.t1 = s.t1) ∧
  (∀ (id : Nat) (x : NetTx) (s : State), txFind s id = some x → x.st = 5 →
    (∃ t, exec (.grantLapse id) s = .next t ∧ txFind t id = some { x with st := 3, entry := 0 } ∧
      (∀ k, admClu x.key = some k →
        wFld (cluReg t k 0x254) 15 8 = min (wFld (cluReg s k 0x254) 15 8 + 1) 255) ∧
      (admClu x.key = none →
        wFld (hubStat t ((x.key - 30000) / 6)) 15 8 = min (wFld (hubStat s ((x.key - 30000) / 6)) 15 8 + 1) 255)) ∧
    ∃ t, exec (.retryReissue id) s = .next t ∧ txFind t id = some { x with st := 1 } ∧ t.regs = s.regs) ∧
  (∀ (id : Nat) (x : NetTx) (s : State), txFind s id = some x → x.st = 3 →
    ∃ t, exec (.retryReissue id) s = .next t ∧ txFind t id = some { x with st := 1 } ∧ t.regs = s.regs) ∧
  (∀ (id : Nat) (parity : Bool) (x : NetTx) (s : State), txFind s id = some x → x.st = 6 →
    (respNext s x = false → exec (.responseReceive ⟨id, parity⟩) s = .next s) ∧
    (respNext s x = true → s.boot.brgDue = [] →
      ∃ t, exec (.responseReceive ⟨id, parity⟩) s = .next t ∧ txFind t id = none ∧
        (x.port, (x.status, if parity = true then none else x.resp)) ∈ t.net.recv ∧ t.t1 = s.t1 ∧ t.t2 = s.t2 ∧
        (parity = false → t.cores = s.cores))) ∧
  (∀ s : State, s.boot.brgDue = [] → ∃ t, exec .routeTableLoad s = .next t ∧ t.net.xHub = dueHub s ∧ t.net.xTwr = dueTwr s ∧
    t.net.xPort = duePort s ∧ t.map = s.map ∧ t.t1 = s.t1 ∧ t.parts = s.parts) ∧
  (∀ (q : Fin 4409) (s : State),
    (s.net.oldMaps.length ≤ commitsTaken s q → exec (.mapCommit q) s = .next s) ∧
    (commitsTaken s q < s.net.oldMaps.length → ∃ t, exec (.mapCommit q) s = .next t ∧ t.map = s.map ∧ t.t1 = s.t1 ∧
      (let m := stSet (fun _ => 0) s.net.moved q (commitsTaken s q + 1)
       (m.length ≠ 4409 → t.net.oldMaps = s.net.oldMaps ∧ commitsTaken t q = commitsTaken s q + 1) ∧
       (m.length = 4409 → t.net.oldMaps = s.net.oldMaps.drop 1)))) ∧
  (∀ (c : Fin 4352) (w : Word) (s : State),
    (cluLocked s (coreClu c) = true → exec (.coreOtWrite c w) s = .next s) ∧
    (cluLocked s (coreClu c) = false → ∃ t, exec (.coreOtWrite c w) s = .next t ∧ { t with regs := s.regs } = s ∧
      (∀ o, o ≠ otKey c → rget t o = rget s o) ∧ wFld (rget t (otKey c)) 15 8 = min (wFld w 15 8) 16 ∧
      wFld (rget t (otKey c)) 23 16 = max (min (wFld w 23 16) 64) (min (wFld w 15 8) 16) ∧
      wFld (rget t (otKey c)) 25 24 = wFld w 25 24))

/-- R240 to R242: a pair's scheduler issues one of the sixteen oldest requests, in order within a sector, and stays with an open
row for up to 64 sectors; write drift beyond 1/16 of a unit interval is trained away; refresh takes the banks in turn. -/
def Obligations.TierTwoScheduler : Prop :=
  (∀ (u : T2Pair) (e : Nat × T2Req), e ∈ t2Cands u → e.1 < 16 ∧ u.queue[e.1]? = some e.2 ∧
    (∀ j x, j < e.1 → u.queue[j]? = some x → x.off / 64 ≠ e.2.off / 64) ∧
    (∀ r, u.row = some r → u.hits < 64 → (∃ f ∈ t2Cands u, t2Unit f.2.off = r) → t2Unit e.2.off = r)) ∧
  (∀ (pair : Fin 48) (busy : BitVec 16) (err : Fin 4) (i : Nat) (r : T2Req) (s : State),
    t2Due (pairGet s pair) = false → (t2Cands (pairGet s pair)).find? (fun e => !busy.getLsbD e.1) = some (i, r) →
    ∃ t, exec (.t2Access pair busy err) s = .next t ∧
      (pairGet t pair).queue = (pairGet s pair).queue.eraseIdx i ∧
      (let n := if (pairGet s pair).row = some (t2Unit r.off) then (pairGet s pair).hits + 1 else 1
       ((n < 64 ∧ ∃ x ∈ ((pairGet s pair).queue.eraseIdx i).take 16, t2Unit x.off = t2Unit r.off) →
          (pairGet t pair).row = some (t2Unit r.off) ∧ (pairGet t pair).hits = n) ∧
       (¬ (n < 64 ∧ ∃ x ∈ ((pairGet s pair).queue.eraseIdx i).take 16, t2Unit x.off = t2Unit r.off) →
          (pairGet t pair).row = none)) ∧
      (∀ j, j ≠ pair.val → pairGet t j = pairGet s j) ∧ t.t1 = s.t1 ∧
      (r.data = none → t.t2 = s.t2) ∧
      (∀ d, r.data = some d → err.val < 2 → (txFind s r.id).any (fun x => x.poison) = false → memRead t.t2 r.off d.length = d ∧
        ∀ a, a < r.off ∨ r.off + d.length ≤ a → memGet t.t2 a = memGet s.t2 a) ∧
      (∀ d, r.data = some d → 2 ≤ err.val → nsHas t.t2poison (r.off / 64) = true ∧ t.t2 = s.t2)) ∧
  (∀ (pair : Fin 48) (busy : BitVec 16) (s : State),
    (t2Cands (pairGet s pair)).find? (fun e => !busy.getLsbD e.1) = none → exec (.t2Access pair busy 0) s = .next s) ∧
  (∀ (off n : Nat) (tx : Option Tx) (s : State), 0 < n → (pairGet s (t2Key off)).link = 2 →
    (t2Load off n tx s).1 = none ∧ (pairGet (t2Load off n tx s).2 (t2Key off)).link = 0) ∧
  (∀ (pkg : Fin 24) (drift : List Nat) (s : State), quarterAbsent s (pkg.val / 6) = false →
    ∃ t, exec (.t2DriftCheck pkg drift) s = .next t ∧ { t with t2q := s.t2q } = s ∧
      (∀ i, i < 2 → pairGet t (2 * pkg + i) =
        { pairGet s (2 * pkg + i) with drift := if 1 < listAt drift i 0 then 0 else listAt drift i 0 }) ∧
      (∀ k, k / 2 ≠ pkg.val → pairGet t k = pairGet s k)) ∧
  (∀ (pair : Fin 48) (s : State), hubAbsent s (pair.val / 12) = false →
    ∃ t, exec (.t2Refresh pair) s = .next t ∧ (pairGet t pair).refBank = ((pairGet s pair).refBank + 1) % 16 ∧
      (pairGet t pair).queue = (pairGet s pair).queue ∧
      ((pairGet s pair).row.map unitBank = some (pairGet s pair).refBank → (pairGet t pair).row = none) ∧
      ((pairGet s pair).row.map unitBank ≠ some (pairGet s pair).refBank → (pairGet t pair).row = (pairGet s pair).row) ∧
      (∀ k, k ≠ pair.val → pairGet t k = pairGet s k) ∧ { t with t2q := s.t2q, ctrs := s.ctrs } = s)

/-- R320, R394, R397 and R407: MNT_START begins an activity of one hub that meets no other, MNT_STOP ends it, MNT_QUERY reports it;
LOG_ACK closes the records it names; a hub's periods and late passes. The numbering of units is the model's (log entry 42). -/
def Obligations.MaintenanceCommands : Prop :=
  completes .mntStart 0x0501 (fun b => payNZ b 2 6) (fun k u =>
      let kind := payAt k.bytes 0 2
      let lo := payAt k.bytes 8 8
      let n := payAt k.bytes 16 8
      1 ≤ kind ∧ kind ≤ 8 ∧ n ≠ 0 ∧ lo + n ≤ cmdUnits kind ∧ (kind = 2 → lo % 4 + n ≤ 4) ∧
      (∀ i, i < n → (cmdHub u kind (lo + i)).isSome = true ∧ cmdHub u kind (lo + i) = cmdHub u kind lo) ∧
      (∀ j ∈ u.mnt.jobs, j.state ≤ 1 →
        jobsMeet kind lo (lo + n - 1) j.kind (j.start + j.pos) (j.start + j.extent - 1) = false) ∧
      (5 ≤ kind → kind ≤ 7 → ∀ i, i < n → ∀ x, cmdUnit u kind (lo + i) = some x → unitBusy u kind x = false))
    (fun k u => ((cmdHub u (payAt k.bytes 0 2) (payAt k.bytes 8 8)).getD 0) * 2 ^ 30 + payAt k.bytes 0 2 * 2 ^ 24 +
      (u.mnt.serial % (2 ^ 24 - 1) + 1))
    (fun k u => { u with mnt := { u.mnt with
      serial := u.mnt.serial + 1
      jobs := u.mnt.jobs ++ [{
        handle := ((cmdHub u (payAt k.bytes 0 2) (payAt k.bytes 8 8)).getD 0) * 2 ^ 30 + payAt k.bytes 0 2 * 2 ^ 24 +
          (u.mnt.serial % (2 ^ 24 - 1) + 1)
        hub := (cmdHub u (payAt k.bytes 0 2) (payAt k.bytes 8 8)).getD 0, kind := payAt k.bytes 0 2, start := payAt k.bytes 8 8,
        extent := payAt k.bytes 16 8, pos := 0, faults := 0, state := 1 }] } }) ∧
  refuses .mntStart 0x0501 (fun b => payNZ b 2 6) (fun k _ => payAt k.bytes 0 2 = 0 ∨ 13 < payAt k.bytes 0 2) 0x0102 ∧
  refuses .mntStart 0x0501 (fun b => payNZ b 2 6) (fun k _ => 8 < payAt k.bytes 0 2 ∧ payAt k.bytes 0 2 ≤ 13) 0x0107 ∧
  completes .mntStop 0x0502 (fun b => payNZ b 4 4)
    (fun k u => deviceHandle (payAt k.bytes 0 4) = false ∧ ∃ j ∈ u.mnt.jobs, j.handle = payAt k.bytes 0 4) (fun _ _ => 0)
    (fun k u => { u with mnt := { u.mnt with
      jobs := u.mnt.jobs.map (fun j => if j.handle = payAt k.bytes 0 4 ∧ j.state ≤ 1 then { j with state := 3 } else j) } }) ∧
  refuses .mntStop 0x0502 (fun b => payNZ b 4 4) (fun k _ => deviceHandle (payAt k.bytes 0 4) = true) 0x0403 ∧
  refuses .mntStop 0x0502 (fun b => payNZ b 4 4) (fun k u => deviceHandle (payAt k.bytes 0 4) = false ∧
    ∀ j ∈ u.mnt.jobs, j.handle ≠ payAt k.bytes 0 4) 0x0107 ∧
  (∀ (w : Fin 128) (k : Pkt) (j : MntJob) (s : State), admitted w 0x0503 (fun b => payNZ b 4 4) k s →
    deviceHandle (payAt k.bytes 0 4) = false → s.mnt.jobs.find? (fun j => j.handle == payAt k.bytes 0 4) = some j →
    exec (.mntQuery w) s = .next (complete k.id 0
      (j.state + j.pos * 100 / max 1 j.extent * 256 + j.faults % 2 ^ 32 * 2 ^ 32) 0 (startPkt k s))) ∧
  completes .mntQuery 0x0503 (fun b => payNZ b 4 4) (fun k _ => deviceHandle (payAt k.bytes 0 4) = true)
    (fun k u => b2n (mntKind u (payAt k.bytes 0 4 / 2 ^ 30) (payAt k.bytes 0 4 / 2 ^ 24 % 64)).running +
      mntPct u (payAt k.bytes 0 4 / 2 ^ 30) (payAt k.bytes 0 4 / 2 ^ 24 % 64) * 256) (fun _ u => u) ∧
  completes .logAck 0x0506 (fun b => payAt b 0 1 / 4 != 0 || payNZ b 1 3)
    (fun k u => hubAbsent u (payAt k.bytes 0 1) = false) (fun _ _ => 0)
    (fun k u => hset (payAt k.bytes 0 1) { hget u (payAt k.bytes 0 1) with
      log := (hget u (payAt k.bytes 0 1)).log.map (fun e =>
        if ackCovers (hget u (payAt k.bytes 0 1)).nextSeq (payAt k.bytes 4 4) e.2.seq = true ∧ e.2.st ≠ 1
        then (e.1, { e.2 with st := 3 }) else e) } u) ∧
  refuses .logAck 0x0506 (fun b => payAt b 0 1 / 4 != 0 || payNZ b 1 3)
    (fun k u => hubAbsent u (payAt k.bytes 0 1) = true) 0x0502 ∧
  (∀ (h : Fin 4) (w : Word) (s : State),
    let kind := wFld (rget s (hubBase h + 0x60000)) 5 0
    mntDefault kind ≠ 0 → ∃ t, exec (.mntPeriodWrite h w) s = .next t ∧
      (mntKind t h kind).period = (if wFld w 15 0 = 0 ∨ mntDefault kind ≤ wFld w 15 0 then 0 else wFld w 15 0) ∧
      (∀ i j, j < 64 → 64 * i + j ≠ 64 * h.val + kind → mntKind t i j = mntKind s i j) ∧ t.regs = s.regs) ∧
  (∀ (h : Fin 4) (kind : Fin 64) (s : State), hubAbsent s h = false → mntDefault kind ≠ 0 →
    ∃ t, exec (.maintPassLate h kind) s = .next t ∧
      mntKind t h kind = { mntKind s h kind with late := min 255 ((mntKind s h kind).late + 1), running := true } ∧
      t.regs = s.regs ∧ t.mnt.jobs = s.mnt.jobs)

/-- R373, R393 and R396 to R403: scrubs keep what they read, tests keep contents and report failing bits and rows, recalibrations
retrain, calibration clears marks, wear is recorded, and zeroing leaves zeros. Units and shares are the model's (log entry 42). -/
def Obligations.MaintenanceSteps : Prop :=
  (∀ (col : Fin 8704) (g : Fin 32768) (s : State), dieOn s (col.val / 544) = true →
    ((colget s col).retraining = true → ∃ t, exec (.patrolScrubT1 col g) s = .next t ∧
      t = mntDefer (mntHub s 1 (col.val * 32768 + g)) 1 s) ∧
    ((colget s col).retraining = false → (colget s col).state = 2 ∨ spanHolds s col g = true →
      exec (.patrolScrubT1 col g) s = .next (mntStep 1 (col.val * 32768 + g) 0 s)) ∧
    ((colget s col).retraining = false → (colget s col).state ≠ 2 → spanHolds s col g = false → mntSlot s col 4 = false →
      exec (.patrolScrubT1 col g) s = .next (mntAsk col 4 s)) ∧
    ((colget s col).retraining = false → (colget s col).state ≠ 2 → spanHolds s col g = false → mntSlot s col 4 = true →
      exec (.patrolScrubT1 col g) s = .next (mntStep 1 (col.val * 32768 + g) 0 (scrubGroup col g (mntTook col s))))) ∧
  (∀ (col g : Nat) (s : State), deadLanes s col = [] → (∀ r ∈ groupRows g, ∀ b, b < 16 → ∃ d,
      rsDecode (memRead s.t1 (t1Key (col / 2) (rowOff col r + 64 * b)) 64)
        (memRead s.t1Chk (t1ChkKey (col / 2) (rowOff col r + 64 * b)) 3) = .clean d) →
    (scrubGroup col g s).t1 = s.t1 ∧ (scrubGroup col g s).t1Chk = s.t1Chk) ∧
  (∀ (u : Fin 402653184) (s : State), quarterAbsent s (t2Hub (4096 * u)) = false → hubPaused s (t2Hub (4096 * u)) = false →
    (t2Slot s u 128 = false → exec (.patrolScrubT2 u) s = .next (t2Ask u 128 s)) ∧
    (t2Slot s u 128 = true →
      ∃ t, exec (.patrolScrubT2 u) s = .next t ∧ t = mntStep 2 u 0 (scrubUnit u (t2Took u s)) ∧ t.t2 = s.t2 ∧
        ((pairGet s (t2Key (4096 * u.val))).link ≠ 2 → t.t2poison = s.t2poison))) ∧
  (∀ (c : Fin 4352) (b : Fin 6144) (bad : Nat) (s : State), dieOn s (coreTower c) = true →
    hasSlot s c (spTestMem b) 7 = true → groupOn s c (spTestMem b) (b - memFirst (spTestMem b)) = true →
    ((cget s c).unified = true → uniAllows s c 1 b true = true) →
    ∃ t, exec (.spTransparentTest c b bad) s = .next t ∧ t.sp = (spRestore c b s).sp ∧ t.t1 = s.t1 ∧
      (2 ≤ bad → nsHas t.boot.defCore c = true)) ∧
  (∀ (col : Fin 8704) (g : Fin 32768) (bad : BitVec 4) (s : State), dieOn s (col.val / 544) = true →
    (colget s col).retraining = false → (colget s col).state ≠ 2 → zeroMeets s col g = false → mntSlot s col 4 = true →
    ∃ t, exec (.t1TransparentTest col g bad) s = .next t ∧
      (bad = 0 → t = mntStep 4 (col.val * 32768 + g) 0 (scrubGroup col g (mntTook col s))) ∧
      (∀ i, i < 4 → bad.getLsbD i = true → (col.val, listAt (groupRows g) i 0) ∈ t.boot.defRow)) ∧
  (∀ (p : Fin 16) (s : State), hubAbsent s (p.val / 4) = false → portState s p = 3 → carriesTree s p = false →
    exec (.opticalRecalibration p) s = .next (mntStep 5 p 0 (portRetrain p s))) ∧
  (∀ (col : Fin 8704) (lanes : List (Nat × Nat)) (s : State), dieOn s (col.val / 544) = true → (colget s col).state ≠ 2 →
    (colget s col).retraining = false →
    exec (.bondRecalibration col lanes) s = .next (mntStep 6 col 0
      (columnRetrain col (lanes.filter (fun e => nsHas (colget s col).suspect e.1)) [] s))) ∧
  (∀ (d : Fin 88) (s : State), edgeUp s (d.val / 2) = true → nsHas s.boot.brgTrain d = false → nsHas s.boot.brgDue d = false →
    (bridgeMay s d = false → exec (.bridgeRecalibration d) s = .next (mntDefer (mntHub s 7 d) 7 s)) ∧
    (bridgeMay s d = true → ∃ t, exec (.bridgeRecalibration d) s = .next t ∧ t = mntStep 7 d 0 (askTrain d s) ∧
      nsHas t.boot.brgDue d = true ∧ t.regs = s.regs ∧ t.t1 = s.t1)) ∧
  (∀ (ch : Fin 1060) (pass canary : Bool) (s : State), chHere s ch = true →
    ∃ t, exec (.sensorCalibration ch pass canary) s = .next t ∧
      (pass = false → t = mntStep 8 ch 1 s) ∧
      (pass = true → nsHas t.therm.brk ch = false ∧ nsHas t.therm.cut ch = false)) ∧
  (∀ (h : Fin 4) (s : State), hubAbsent s h = false →
    ∃ t, exec (.wearTracking h) s = .next t ∧ (∀ n, n < 16 → homeHub n = h.val →
      stGet (fun _ => 0) t.therm.spareNv n = sparesUsed s n ∧
      ((twTh s n).cone ≠ [0, 0, 0] ∨ (twTh s n).life ≠ 0 →
        stGet (fun _ => []) t.therm.coneNv n = (twTh s n).cone ++ [(twTh s n).life])) ∧ t.regs = s.regs) ∧
  (∀ (p : Fin 64) (i : Nat) (z : ZeroSpan) (s : State), findIdx? (spanReady s) (pget s p).zeroLeft = some i →
    (pget s p).zeroLeft[i]? = some z → z.lo < z.hi →
    exec (.partitionZeroing p) s = .next (zeroCheck p (pupd p (fun q => { q with
      zeroLeft := if z.lo + 1 < z.hi then (pget s p).zeroLeft.set i { z with lo := z.lo + 1 }
        else (pget s p).zeroLeft.eraseIdx i }) (spanStep z s)))) ∧
  (∀ (z : ZeroSpan) (s : State),
    (z.tier2 = true → (∀ a, 4096 * z.lo ≤ a → a < 4096 * z.lo + 4096 → memGet (spanStep z s).t2 a = 0) ∧
      (∀ a, a < 4096 * z.lo ∨ 4096 * z.lo + 4096 ≤ a → memGet (spanStep z s).t2 a = memGet s.t2 a) ∧
      (spanStep z s).t1 = s.t1) ∧
    (z.tier2 = false → (∀ r ∈ groupRows z.lo, ∀ i, i < 1024 →
      memGet (spanStep z s).t1 (t1Key (z.col / 2) (rowOff z.col r) + i) = 0) ∧ (spanStep z s).t2 = s.t2)) ∧
  (∀ (k : Fin 256) (key : Nat) (rest : List Nat) (s : State), stGet (fun _ => []) s.zeroQ k = key :: rest →
    colReady s (key / 8192) = true → mntSlot s (key / 8192) 16 = true →
    ∃ t, exec (.frameZeroing k) s = .next t ∧ stGet (fun _ => []) t.zeroQ k = rest ∧ ftGet t (key / 8192) (key % 8192) = 0 ∧
      (∀ i, i < 0x4000 →
        memGet t.t1 (t1Key (key / 8192 / 2) (rowOff (key / 8192) (key % 8192 * 16)) + i) = 0) ∧ t.t2 = s.t2)

/-- R22, R358 and R410 to R414: a tower whose manager stops is lost and leaves the map; a hub that stops is absent, and with H0 the
device is fatal; HUB_RESET takes a hub away and its rejoin completes it; DIE_REJOIN brings a tower back. -/
def Obligations.DieLoss : Prop :=
  (∀ (n : Fin 16) (s : State), dieOn s n = true → (twLog s n).isSome = true →
    ∃ t, exec (.towerManagerWatchdog n) s = .next t ∧ t = loseTower n s ∧ nsHas t.lostTw n = true ∧ twLog t n = none ∧
      (∀ m, m ≠ n.val → twLog t m = twLog s m)) ∧
  (∀ s : State, hubAbsent s 0 = false → ∃ t, exec (.mpWatchdog 0) s = .next t ∧ t.fatal = true ∧ t.faultN = true ∧
    t.t1 = s.t1 ∧ t.t2 = s.t2 ∧ t.map = s.map) ∧
  (∀ (h : Fin 4) (s : State), h ≠ 0 → hubAbsent s h = false → ∃ t, exec (.mpWatchdog h) s = .next t ∧
    hubAbsent t h = true ∧ wBit (rget t (hubBase h + 0x20)) 7 = true ∧ wBit (rget t (hubBase 0)) (1 + h.val) = true) ∧
  (∀ (w : Fin 128) (k : Pkt) (s : State), admitted w 0x0505 (fun b => payAt b 0 1 / 4 != 0 || payNZ b 1 7) k s →
    (payAt k.bytes 0 1 = 0 → exec (.hubReset w) s = .next (complete k.id 0x0107 0 0 (startPkt k s))) ∧
    (payAt k.bytes 0 1 ≠ 0 → ∃ t, exec (.hubReset w) s = .next t ∧ hubAbsent t (payAt k.bytes 0 1) = true ∧
      (hget t (payAt k.bytes 0 1)).pkts = (hget s (payAt k.bytes 0 1)).pkts ++ [k.id] ∧
      (hubAbsent s (payAt k.bytes 0 1) = false → (hget t (payAt k.bytes 0 1)).kept = true ∧
        (hget t (payAt k.bytes 0 1)).log = (hget s (payAt k.bytes 0 1)).log) ∧ t.t2 = s.t2)) ∧
  (∀ (h : Fin 4) (eng : List EngineFind) (s : State), hubAbsent s h = true → (hget s h).pkts ≠ [] →
    nsHas s.pwr.rails h = true →
    ∃ t, exec (.hubRejoin h eng) s = .next t ∧ t = hubRejoin h eng s ∧ hubAbsent t h = false ∧ (hget t h).pkts = [] ∧
      ((hget s h).kept = true → t.t2 = s.t2)) ∧
  (∀ (w : Fin 128) (f : TestFind) (k : Pkt) (s : State),
    admitted w 0x0504 (fun b => payAt b 0 1 / 16 != 0 || payNZ b 1 7) k s →
    let r := dieRejoin (payAt k.bytes 0 1) f (startPkt k s)
    ((twLog s (payAt k.bytes 0 1)).isSome = true → exec (.dieRejoin w f) s = .next (complete k.id 0x0304 0 0 (startPkt k s))) ∧
    (twLog s (payAt k.bytes 0 1) = none → r.2 = true →
      exec (.dieRejoin w f) s = .next (complete k.id 0 (towerCores r.1 (payAt k.bytes 0 1)) 0 r.1) ∧
      (twLog r.1 (payAt k.bytes 0 1)).isSome = true) ∧
    (twLog s (payAt k.bytes 0 1) = none → r.2 = false →
      exec (.dieRejoin w f) s = .next (complete k.id 0x0503 0 0 r.1)))

/-- R441 to R443, R446, R447, R449 and R450: COUNTER_CFG loads a counter; a snapshot latches every counter at one instant and fills
the area; TELEM_CFG opens the ring, rounds ask for summaries, and a summary on a full ring is dropped. Log entry 168 holds what the
model chose of the ring. -/
def Obligations.CountersAndTelemetry : Prop :=
  (∀ (w : Fin 128) (k : Pkt) (c : Nat) (s : State), admitted w 0x0603 (fun b => payNZ b 3 1 || fld (payAt b 8 4) 29 20 != 0 ||
      fld (payAt b 8 4) 15 12 != 0 || fld (payAt b 8 4) 7 0 != 0) k s →
    (cfgCheck (startPkt k s) w k.bytes = .ok c → ∃ u, exec (.counterCfg w) s = .next (complete k.id 0 0 0 u) ∧
      ctrGet u c = ctrLoad w k.bytes (ctrGet s c) ∧ (∀ j, j ≠ c → ctrGet u j = ctrGet s j) ∧
      { u with ctrs := s.ctrs } = startPkt k s) ∧
    (∀ st, cfgCheck (startPkt k s) w k.bytes = .error st →
      exec (.counterCfg w) s = .next (complete k.id st 0 0 (startPkt k s)))) ∧
  (∀ (w : Nat) (b : List Byte) (k : Ctr), (cfgEvt b = 0 → ctrLoad w b k = { k with evt := 0 }) ∧
    (cfgEvt b ≠ 0 → (ctrLoad w b k).val = 0 ∧ (ctrLoad w b k).ovf = false ∧ (ctrLoad w b k).evt = cfgEvt b ∧
      (w < 64 → fld (payAt b 8 4) 19 16 ≠ 0 → fld (ctrLoad w b k).filt 19 16 = fld (payAt b 8 4) 19 16) ∧
      (fld (payAt b 8 4) 19 16 = 0 → fld (ctrLoad w b k).filt 19 16 = 15) ∧
      (64 ≤ w → w < 128 → fld (ctrLoad w b k).master 15 10 = w - 64 ∧ fld (ctrLoad w b k).filt 30 30 = 1 ∧
        fld (ctrLoad w b k).filt 9 8 = 0))) ∧
  (∀ (s : State) (w c : Nat) (b : List Byte), cfgCheck s w b = .ok c → cfgEvt b ≠ 0 →
    bitAt (evtLevels (cfgEvt b)) (cfgLevel b) = true) ∧
  (∀ (w : Fin 128) (k : Pkt) (s : State), admitted w 0x0601 noResv k s →
    (s.snap.run = none → ∃ t, exec (.snapshot w) s = .next t ∧
      t.snap.run = some { mode := 0, pkt := some k.id, round := false } ∧ t.snap.t = (s.ns + 5005) / 10 * 10 ∧
      t.snap.wait = liveDies s ∧ { t with snap := s.snap, regs := s.regs } = startPkt k s) ∧
    (s.snap.run ≠ none → s.snap.pend = none → ∃ t, exec (.snapshot w) s = .next t ∧
      t.snap = { s.snap with pend := some { mode := 0, pkt := some k.id, round := false } }) ∧
    (s.snap.run ≠ none → s.snap.pend ≠ none →
      exec (.snapshot w) s = .next (complete k.id 0x0205 0 0 (startPkt k s)))) ∧
  asksSnapshot .snapshotSnap { mode := 0, pkt := none, round := false } ∧
  asksSnapshot .snapshotFreeze { mode := 1, pkt := none, round := false } ∧
  asksSnapshot .snapshotUnfreeze { mode := 2, pkt := none, round := false } ∧
  (∀ (dies : List (Fin 20)) (late : Bool) (r : SnapReq) (s : State), s.snap.run = some r → s.snap.lat = SnapImg.empty →
    stWf (fun _ => Ctr.reset) s.ctrs = true →
    ∃ t, exec (.snapshotLatch dies late) s = .next t ∧ (∀ d ∈ dies, nsHas t.snap.wait d = false) ∧
      (∀ d ∈ dies, nsHas s.snap.wait d = true → (∀ e ∈ s.ctrs, ctrDie e.1 = d.val →
          stGet (fun _ => 0) t.snap.lat.vals e.1 = e.2.val + b2n e.2.ovf * 2 ^ 48) ∧
        (r.mode = 1 → nsHas t.frozen d = true) ∧ (r.mode = 2 → nsHas t.frozen d = false) ∧
        (late = true → nsHas t.snap.lat.late d = true)) ∧ t.ctrs = s.ctrs ∧ t.snap.area = s.snap.area) ∧
  (∀ (r : SnapReq) (s : State), s.snap.run = some r →
    ((∀ d ∈ s.snap.wait, nsHas (liveDies s) d = false) → ∃ t, exec .snapshotComplete s = .next t ∧ t = snapDone r s ∧
      (r.mode ≠ 2 → t.snap.area.vals = s.snap.lat.vals ∧ t.snap.area.late = s.snap.lat.late ∧
        wFld (rget t (snapBase + 4)) 28 0 = (wFld (rget s (snapBase + 4)) 28 0 + 1) % 2 ^ 29) ∧
      (r.mode = 2 → t.snap.area = s.snap.area) ∧
      (s.snap.pend = none → t.snap.run = none ∧ wBit (rget t (snapBase + 4)) 31 = false) ∧
      (∀ q, s.snap.pend = some q → t.snap.run = some q)) ∧
    (∀ d ∈ s.snap.wait, nsHas (liveDies s) d = true → exec .snapshotComplete s = .next s)) ∧
  (∀ (w : Fin 128) (k : Pkt) (s : State), admitted w 0x0602 (fun b => payNZ b 18 6) k s → telemStatus k.bytes = 0 →
    ∃ u, exec (.telemCfg w) s = .next (complete k.id 0 0 0 u) ∧ u.telem.on = true ∧ u.telem.ring = payAt k.bytes 0 8 ∧
      u.telem.n = payAt k.bytes 8 4 / 64 - 1 ∧ u.telem.period = payAt k.bytes 12 4 ∧ u.telem.vec = payAt k.bytes 16 2 ∧
      u.telem.head = 0 ∧ u.telem.steps = 0 ∧ (s.telem.hold = [] → u.telem.tail = 0 ∧
        u.hostOut = s.hostOut ++ [onStream s 0 (.write (payAt k.bytes 0 8) (leBytes 4 0))])) ∧
  refuses .telemCfg 0x0602 (fun b => payNZ b 18 6) (fun k _ => payAt k.bytes 0 8 % 4096 ≠ 0 ∨ payAt k.bytes 8 4 % 4096 ≠ 0 ∨
    payAt k.bytes 8 4 = 0 ∨ 0x1000000 < payAt k.bytes 8 4) 0x0106 ∧
  (∀ s : State, s.telem.on = true → s.telem.period ≠ 0 →
    (s.snap.run = none → ∃ t, exec .telemetryRound s = .next t ∧
      t.snap.run = some { mode := 0, pkt := none, round := true } ∧ t.snap.t = (s.ns + 5005) / 10 * 10) ∧
    (∀ q, s.snap.run ≠ none → s.snap.pend = some q → ∃ t, exec .telemetryRound s = .next t ∧
      t.snap = { s.snap with pend := some { q with round := true } })) ∧
  (∀ (w : Word) (s : State), ∃ t, exec (.telemHeadWrite w) s = .next t ∧ t.telem.head = w.toNat ∧
    (s.telem.hold = [] → t = { s with telem := { s.telem with head := w.toNat } })) ∧
  (∀ (r : TelRec) (s : State), telFull s.telem = true → s.telem.on = true →
    (r.ty = 1 → telEmit r s = { s with telem := { s.telem with drop := min (s.telem.drop + 1) 65535 } }) ∧
    (r.ty ≠ 1 → s.telem.hold.length < 32 → telEmit r s = { s with telem := { s.telem with hold := s.telem.hold ++ [r] } }))

/-- R431, R432, R435 and Table SEC.5: FW_STAGE stages a checked image for its hubs, LIFECYCLE makes an authorised change and
restarts the device, ATTEST_GET writes a report of 3 072 bytes. -/
def Obligations.SecurityCommands : Prop :=
  (∀ img : List Byte, completes (fun w => .fwStage w img) 0x0702 (fun b => payAt b 12 1 / 16 != 0 || payNZ b 13 11)
    (fun k u => imageStatus u (payAt k.bytes 8 4) img = 0) (fun _ _ => 0)
    (fun k u => (List.range 4).foldl (fun s h => if bitAt (payAt k.bytes 12 1) h then
      stageImage h { svn := leAt img 12 1 % 64, digest := (img.drop 16).take 64 } s else s) u)) ∧
  (∀ (h : Nat) (x : FwImg) (s : State), imgOf (stageImage h x s).sec.staged h = some x ∧
    (∀ i, i ≠ h → imgOf (stageImage h x s).sec.staged i = imgOf s.sec.staged i) ∧
    (∀ r, imgOf s.sec.run h = some r → imgOf (stageImage h x s).sec.prev h = some r) ∧
    (stageImage h x s).sec.run = s.sec.run) ∧
  (∀ img : List Byte, refuses (fun w => .fwStage w img) 0x0702 (fun b => payAt b 12 1 / 16 != 0 || payNZ b 13 11)
    (fun k u => img.length = payAt k.bytes 8 4 ∧ payAt k.bytes 8 4 = 4096 + leAt img 8 4 ∧
      leAt img 12 1 % 64 < u.sec.svnFuse) 0x0407) ∧
  (∀ (w : Fin 128) (obj : List Byte) (k : Pkt) (s : State),
    admitted w 0x0703 (fun b => payNZ b 1 7 || payNZ b 20 4) k s → s.sec.tampering = false →
    let target := payAt k.bytes 0 1
    let u := freshNonce (startPkt k s)
    (lifecycleStatus (startPkt k s) k.bytes obj = 0 → ∃ t, exec (.lifecycle w obj) s = .next t ∧
      t = lifecycleApply target (complete k.id 0 (if 0x80 ≤ target then s.sec.lcFuse else target) 0 u) ∧
      t.boot.next = some 0 ∧ t.boot.full = true ∧ t.stage = 0 ∧ t.booted = false ∧ t.sec.ids = false ∧ t.sec.sessions = [] ∧
      (target < 0x80 → t.sec.lcFuse = target ∧ t.sec.tamperNv = 0) ∧
      (0x80 ≤ target → t.sec.lcFuse = s.sec.lcFuse ∧ t.sec.pendDebug = some target)) ∧
    (lifecycleStatus (startPkt k s) k.bytes obj ≠ 0 → exec (.lifecycle w obj) s =
      .next (complete k.id (lifecycleStatus (startPkt k s) k.bytes obj) 0 0 u))) ∧
  (∀ (s : State) (b obj : List Byte),
    ((∃ p, (pget s p).state ≠ 0) → lifecycleStatus s b obj = 0x0304) ∧
    ((∀ e ∈ s.parts, e.2.state = 0) → lcChange s.sec.lcFuse (payAt b 0 1) = none → lifecycleStatus s b obj = 0x0403) ∧
    ((∀ e ∈ s.parts, e.2.state = 0) → lcChange s.sec.lcFuse (payAt b 0 1) = some true → lifecycleStatus s b obj = 0 →
      authOk s (payAt b 0 1) obj = true)) ∧
  (∀ (w : Fin 128) (nonce : List Byte) (k : Pkt) (s : State), admitted w 0x0704 (fun b => payNZ b 12 4) k s →
    let u := startPkt k s
    (s.sec.ids = true → 3072 ≤ payAt k.bytes 8 4 → exec (.attestGet w nonce) s = .next (complete k.id 0 3072 0
      (hostPut (winFn k.win) (payAt k.bytes 0 8) (report (if w.val < 64 then none else some (w.val - 64)) nonce u) u))) ∧
    (s.sec.ids = true → payAt k.bytes 8 4 < 3072 → exec (.attestGet w nonce) s = .next (complete k.id 0x0107 0 0 u)) ∧
    (s.sec.ids = false → exec (.attestGet w nonce) s = .next (complete k.id 0x0403 0 0 u))) ∧
  (∀ (req : Option Nat) (nonce : List Byte) (s : State), (report req nonce s).length = 3072 ∧
    (report req nonce s).take 1792 = reportBody req nonce s ∧
    (report req nonce s).drop 1792 = fitBytes 1280 (Config.sign true (aliasOf s) (Config.digest 64 (reportBody req nonce s))))

/-- R422 and R423: SPDM requests in protocol order are answered and build up sessions, and any other is answered with ERROR; IDE_KM
establishes a stream inside a session. Code numbers are the published standard's (log entry 40). -/
def Obligations.SpdmRequests : Prop :=
  answersSpdm .getVersion (fun _ => True) 0x04 (fun _ => Config.spdmBytes 0x04 []) (fun s =>
    { s with sec := { s.sec with version := true, caps := false, algs := false, falcon := false } }) ∧
  answersSpdm .getCapabilities (fun s => s.sec.version = true) 0x61 (fun _ => Config.spdmBytes 0x61 [])
    (fun s => { s with sec := { s.sec with caps := true } }) ∧
  (∀ falcon, answersSpdm (.negotiateAlgorithms falcon) (fun s => s.sec.caps = true) 0x63
    (fun _ => Config.spdmBytes 0x63 [BitVec.ofNat 8 (b2n falcon)])
    (fun s => { s with sec := { s.sec with algs := true, falcon := falcon } })) ∧
  answersSpdm .getDigests (fun s => s.sec.algs = true ∧ s.sec.ids = true) 0x01 (fun s => Config.spdmBytes 0x01 (aliasOf s)) id ∧
  (∀ slot off len, answersSpdm (.getCertificate slot off len) (fun s => s.sec.algs = true ∧ s.sec.ids = true) 0x02
    (fun s => Config.spdmBytes 0x02 (leBytes 1 slot ++ leBytes 2 off ++ leBytes 2 len ++ aliasOf s)) id) ∧
  (∀ slot nonce, answersSpdm (.challenge slot nonce) (fun s => s.sec.algs = true ∧ s.sec.ids = true ∧
      (slot = 1 ∨ s.sec.falcon = true)) 0x03
    (fun s => leBytes 1 slot ++ fitBytes 32 nonce ++
      Config.sign (slot == 0) (aliasOf s) (leBytes 1 slot ++ fitBytes 32 nonce)) id) ∧
  (∀ (index : Fin 256) nonce, answersSpdm (.getMeasurements index nonce)
    (fun s => s.sec.algs = true ∧ s.sec.ids = true ∧ (index.val ≤ 4 ∨ index.val = 16 ∨ index.val = 255)) 0x60
    (fun s => (measurements index nonce s).getD [] ++ Config.sign s.sec.falcon (aliasOf s) ((measurements index nonce s).getD [])) id) ∧
  (∀ slot, answersSpdm (.keyExchange slot) (fun s => s.sec.algs = true ∧ s.sec.ids = true ∧ (slot = 1 ∨ s.sec.falcon = true) ∧
      s.sec.sessions.length < 4) 0x64 (fun s => Config.spdmBytes 0x64 (leBytes 4 s.sec.nextSession))
    (fun s => { s with sec := { s.sec with
      sessions := s.sec.sessions ++ [{ id := s.sec.nextSession, done := false, keys := 0 }]
      nextSession := s.sec.nextSession + 1 } })) ∧
  (∀ sid, answersSpdm (.finish sid) (inSession sid false) 0x65 (fun _ => Config.spdmBytes 0x65 (leBytes 4 sid)) (fun s =>
    { s with sec := { s.sec with sessions := s.sec.sessions.map (fun y => if y.id = sid then { y with done := true } else y) } })) ∧
  (∀ sid, answersSpdm (.keyUpdate sid) (inSession sid true) 0x69 (fun _ => []) (fun s =>
    { s with sec := { s.sec with
      sessions := s.sec.sessions.map (fun y => if y.id = sid then { y with keys := y.keys + 1 } else y) } })) ∧
  (∀ sid, answersSpdm (.heartbeat sid) (inSession sid true) 0x68 (fun _ => []) id) ∧
  (∀ sid, answersSpdm (.endSession sid) (inSession sid true) 0x6C (fun _ => []) (fun s =>
    { s with sec := { s.sec with sessions := s.sec.sessions.filter (fun y => y.id != sid) } })) ∧
  (∀ (sid : Nat) (stream : Fin 66) (set : Fin 2), answersSpdm (.ideKm sid stream set) (inSession sid true) 0x7E
    (fun _ => [3, BitVec.ofNat 8 stream, BitVec.ofNat 8 set]) (setStream stream true set)) ∧
  (∀ (stream : Fin 66) (est : Bool) (set : Nat) (s : State), streamUp (setStream stream est set s) stream = est ∧
    ∀ n : Fin 66, n ≠ stream → streamUp (setStream stream est set s) n = streamUp s n)

/-- R419, R423 to R426, R434 and Table SEC.6: a virtual function is locked, started and stopped as TDISP states; an integrity failure
puts the TDIs of its stream into ERROR; a tamper event wipes the saggar region, faults every partition and ends fatal. -/
def Obligations.InterfacesAndTamper : Prop :=
  (∀ (p : Fin 64) (s : State), doeOn s = true →
    exec (.getDeviceInterfaceReport p) s = .next (hostSend (.doe 0x7E (0x04 :: ifReport)) s)) ∧
  (∀ (p : Fin 64) (s : State), doeOn s = true →
    ((pget s p).conf = true ∧ (pget s p).state = 1 ∧ (pget s p).tdi = 0 ∧ (pget s p).step = none ∧ launchesOf s p = 0 ∧
      (pget s p).ide = true → ∃ t, exec (.lockInterfaceRequest p) s = .next t ∧
        pget t p = { pget s p with tdi := 1, state := 2 } ∧ (∀ j, j ≠ p.val → pget t j = pget s j) ∧
        t.hostOut = s.hostOut ++ [.doe 0x7E [0x03]] ∧ { t with parts := s.parts, hostOut := s.hostOut } = s) ∧
    ((pget s p).conf = false ∨ (pget s p).state ≠ 1 ∨ (pget s p).tdi ≠ 0 ∨ (pget s p).step ≠ none ∨ launchesOf s p ≠ 0 ∨
      (pget s p).ide = false →
      exec (.lockInterfaceRequest p) s = .next (hostSend (.doe 0x7E [0x7F]) s))) ∧
  (∀ (p : Fin 64) (s : State), doeOn s = true →
    ((pget s p).tdi = 1 → ∃ t, exec (.startInterfaceRequest p) s = .next t ∧ pget t p = { pget s p with tdi := 2 } ∧
      t.hostOut = s.hostOut ++ [.doe 0x7E [0x06]] ∧ { t with parts := s.parts, hostOut := s.hostOut } = s) ∧
    ((pget s p).tdi ≠ 1 → exec (.startInterfaceRequest p) s = .next (hostSend (.doe 0x7E [0x7F]) s))) ∧
  (∀ (p : Fin 64) (s : State), doeOn s = true →
    ((pget s p).tdi = 0 → exec (.stopInterfaceRequest p) s = .next (hostSend (.doe 0x7E [0x07]) s)) ∧
    ((pget s p).tdi = 3 → exec (.stopInterfaceRequest p) s =
      .next (zeroCheck p (pupd p (fun q => { q with stopReq := true }) s))) ∧
    ((pget s p).tdi = 3 → (pget s p).zeroLeft = [] → (pget s p).state = 4 →
      ∃ t, exec (.stopInterfaceRequest p) s = .next t ∧ (pget t p).tdi = 0 ∧ (pget t p).state = 1 ∧ (pget t p).model = none ∧
        HostOut.doe 0x7E [0x07] ∈ t.hostOut)) ∧
  (∀ (stream : Fin 66) (s : State), streamUp s stream = true →
    ∃ t, exec (.ideIntegrityFailure stream) s = .next t ∧ streamUp t stream = false ∧
      (∀ p : Fin 64, stream.val = 0 ∨ stream.val = p.val + 1 → (pget s p).stopReq = false →
        (pget s p).tdi = 1 ∨ (pget s p).tdi = 2 → (pget t p).tdi = 3)) ∧
  (∀ (src : Fin 3) (s : State), s.pwr.vaux = true → ∃ t, exec (.tamperEvent src) s = .next t ∧
    wBit t.sec.tamperNv (28 + src.val) = true ∧ wFld t.sec.tamperNv 15 0 = min (wFld s.sec.tamperNv 15 0 + 1) 65535 ∧
    t.sec.ids = false ∧ t.sec.sessions = [] ∧ t.sec.pendDebug = none ∧
    (nsHas s.pwr.rails 0 = true → t.sec.tampering = true) ∧
    (∀ p, (pget s p).state ≠ 0 → (pget s p).state ≠ 3 → (pget t p).state = 4 ∧ (pget t p).ide = false ∧
      (pget t p).glz.key0 = none ∧ (pget t p).glz.key1 = none)) ∧
  (∀ s : State, s.sec.tampering = true → ∃ t, exec .tamperZeroingDone s = .next t ∧ t.t1 = [] ∧ t.t2 = [] ∧ t.t2poison = [] ∧
    t.fatal = true ∧ t.faultN = true ∧ t.sec.tampering = false)

/-- R330 to R339, Tables FAB.7, FAB.13 and HOST.22: FAB_PORT disables, enables and retrains a port, FAB_ROLE and FAB_ROUTE load the
device's place and routes, FAB_QUERY reads a port's registers. -/
def Obligations.FabricCommands : Prop :=
  (∀ (w : Fin 128) (k : Pkt) (s : State), admitted w 0x0801 (fun b => payAt b 0 1 / 64 != 0 || payNZ b 1 7) k s →
    let p := payAt k.bytes 0 1 % 16
    let act := payAt k.bytes 0 1 / 16
    let u := startPkt k s
    (act = 3 → exec (.fabPort w) s = .next (complete k.id 0x0102 0 0 u)) ∧
    (act ≠ 3 → hubAbsent s (p / 4) = true → exec (.fabPort w) s = .next (complete k.id 0x0502 0 0 u)) ∧
    (act = 0 → hubAbsent s (p / 4) = false → (∀ e ∈ s.map.cl, e.1 < 256) → ∃ v, exec (.fabPort w) s = .next (complete k.id 0 0 0 v) ∧
      portState v p = 0 ∧ (fport v p).enabled = false ∧ (fport v p).due = false ∧ (fport v p).waiting = [] ∧
      (fport v p).replay = []) ∧
    (act = 1 → hubAbsent s (p / 4) = false → nsHas s.boot.oeHeld p = false →
      ∃ v, exec (.fabPort w) s = .next (complete k.id 0 0 0 v) ∧ (fport v p).enabled = true ∧
        portState v p = if portState s p = 0 ∧ wFld (rget s (fportKey p 0)) 28 27 ≠ 0 then 2 else portState s p) ∧
    (act = 1 → hubAbsent s (p / 4) = false → nsHas s.boot.oeHeld p = true →
      exec (.fabPort w) s = .next (complete k.id 0x0403 0 0 u)) ∧
    (act = 2 → hubAbsent s (p / 4) = false → portState s p = 3 → carriesTree s p = false →
      exec (.fabPort w) s = .next (complete k.id 0 0 0 (portRetrain p u))) ∧
    (act = 2 → hubAbsent s (p / 4) = false → portState s p ≠ 3 ∨ carriesTree s p = true →
      exec (.fabPort w) s = .next (complete k.id 0x0304 0 0 u))) ∧
  (∀ (w : Fin 128) (k : Pkt) (s : State),
    admitted w 0x0802 (fun b => payAt b 0 8 / 2 ^ 22 != 0 || payAt b 8 8 / 2 ^ 22 != 0) k s →
    let a := payAt k.bytes 0 8
    let b := payAt k.bytes 8 8
    fld a 19 18 < 2 → (fld a 19 18 = 0 ↔ fld a 21 20 = 0) → (fld b 17 0 = fld a 17 0 → fld a 21 20 = 3) →
    ∃ v, exec (.fabRole w) s = .next (complete k.id 0 0 0 v) ∧ myId v = fld a 17 0 ∧ wFld (fabId v) 29 28 = fld a 21 20 ∧
      wBit (fabId v) 31 = true ∧ wBit (fabId v) 30 = false ∧ fabParent v = fld b 17 0 ∧ v.fab.unanswered = 0 ∧
      v.fab.parentPort = fld b 21 18 ∧
      (∀ o, o ≠ hubBase 0 + 0x40000 → o ≠ hubBase 0 + 0x40004 → rget v o = rget s o)) ∧
  refuses .fabRole 0x0802 (fun b => payAt b 0 8 / 2 ^ 22 != 0 || payAt b 8 8 / 2 ^ 22 != 0)
    (fun k _ => 2 ≤ fld (payAt k.bytes 0 8) 19 18) 0x0102 ∧
  (∀ (w : Fin 128) (k : Pkt) (s : State), admitted w 0x0803 routeResvAny k s →
    let n := payAt k.bytes 0 2
    let first := payAt k.bytes 2 2
    0 < n → n ≤ 505 → first + n ≤ 1024 → (∀ j, j < n → 256 ≤ first + j → fld (payAt k.bytes (16 + 8 * j) 8) 25 19 ≤ 64) →
    ∃ v, exec (.fabRoute w) s = .next (complete k.id 0 n 0 v) ∧
      (∀ j, j < n → routeEntry v (first + j) = payAt k.bytes (16 + 8 * j) 8) ∧
      (∀ i, i < first ∨ first + n ≤ i → routeEntry v i = routeEntry s i) ∧ { v with fab := s.fab } = startPkt k s) ∧
  refuses .fabRoute 0x0803 routeResvAny
    (fun k _ => payAt k.bytes 0 2 = 0 ∨ 505 < payAt k.bytes 0 2 ∨ 1024 < payAt k.bytes 2 2 + payAt k.bytes 0 2) 0x0107 ∧
  completes .fabQuery 0x0804 (fun b => payAt b 0 1 / 16 != 0 || payNZ b 1 7)
    (fun k u => hubAbsent u (payAt k.bytes 0 1 / 4) = false)
    (fun k u => (rget u (fportKey (payAt k.bytes 0 1) 0)).toNat + (rget u (fportKey (payAt k.bytes 0 1) 4)).toNat * 2 ^ 32)
    (fun _ u => u)

/-- R326 to R329, R334, R335, R340 and R463: a good flit in order joins its message, any other asks for a replay or is ignored; a port
retrains, goes down without light, and counts stalled channels and check pulses. -/
def Obligations.FabricLink : Prop :=
  (∀ (p : Fin 16) (b : List Byte) (fec poison : Bool) (s : State), portState s p = 3 → b.length = 256 →
    (fec = true ∨ crc32c (b.take 252) ≠ leAt b 252 4 → ∃ t f, exec (.flitReceive p b fec poison) s = .next t ∧
      t.fab.flits = s.fab.flits ++ [f] ∧ t.fab.inbox = s.fab.inbox ∧ (fport t p).nakSent = true ∧
      (fport t p).rxSeq = (fport s p).rxSeq ∧ (fport t p).replay = (fport s p).replay ∧
      (∀ q, q ≠ p.val → fport t q = fport s q)) ∧
    (fec = false → crc32c (b.take 252) = leAt b 252 4 → fld (leAt b 0 1) 1 0 ≠ 0 ∨ leAt b 1 1 % 32 ≠ 0 →
      leAt b 248 2 % 4096 ≠ ((fport s p).rxSeq + 1) % 4096 → ∃ t, exec (.flitReceive p b fec poison) s = .next t ∧
      t.fab.inbox = s.fab.inbox ∧ (fport t p).rxSeq = (fport s p).rxSeq ∧ (fport t p).rx = (fport s p).rx) ∧
    (fec = false → crc32c (b.take 252) = leAt b 252 4 → fld (leAt b 0 1) 1 0 = 3 →
      leAt b 248 2 % 4096 = ((fport s p).rxSeq + 1) % 4096 → ∃ t m, exec (.flitReceive p b fec poison) s = .next t ∧
      t.fab.inbox = s.fab.inbox ++ [(p.val, m)] ∧ (fport t p).rxSeq = leAt b 248 2 % 4096 ∧ (fport t p).nakSent = false ∧
      m.entry = lookEntry s m.cls m.dest ((b.drop 8).take (min 240 (8 * (leAt b 1 1 % 32)))) ∧
      m.cls = fld (leAt b 0 1) 3 2 ∧ m.vc = fld (leAt b 0 1) 4 4 ∧ m.dest = leAt b 2 3 % 2 ^ 18 ∧ m.src = leAt b 5 3 % 2 ^ 18 ∧
      m.bytes = ((b.drop 8).take (min 240 (8 * (leAt b 1 1 % 32)))).take
        (32 + mLen ((b.drop 8).take (min 240 (8 * (leAt b 1 1 % 32))))))) ∧
  (∀ (p : Fin 16) (s : State), (fport s p).due = true → portState s p = 3 ∨ portState s p = 5 →
    ∃ t, exec (.portRetrain p) s = .next t ∧ portState t p = 4 ∧ (fport t p).due = false ∧
      (fport t p).waiting = (fport s p).waiting ∧ t.fab.inbox = s.fab.inbox) ∧
  (∀ (p : Fin 16) (tx rx : BitVec 8) (s : State), portState s p = 4 ∨ portState s p = 2 → (∀ e ∈ s.map.cl, e.1 < 256) →
    let wt := portWidth (wFld (rget s (fportKey p 0)) 28 27) tx.toNat
    let wr := portWidth (wFld (rget s (fportKey p 0)) 28 27) rx.toNat
    (wt ≠ 0 → wr ≠ 0 → ∃ t, exec (.portRetrainDone p tx rx) s = .next t ∧ portState t p = 3 ∧
      wFld (rget t (fportKey p 0)) 26 23 = wt ∧ wFld (rget t (fportKey p 0)) 22 19 = wr ∧ t.fab.inbox = s.fab.inbox ∧
      (fport t p).txOn = ((List.range 8).filter (fun i => bitAt tx.toNat i)).take wt ∧
      (fport t p).rxOn = ((List.range 8).filter (fun i => bitAt rx.toNat i)).take wr) ∧
    (wt = 0 ∨ wr = 0 → ∃ t, exec (.portRetrainDone p tx rx) s = .next t ∧ portState t p = 0 ∧ (fport t p).replay = [] ∧
      (fport t p).waiting = [])) ∧
  (∀ (p : Fin 16) (lane : Fin 8) (ber : Nat) (s : State), portState s p = 3 →
    lane.val ∈ (fport s p).txOn ∨ lane.val ∈ (fport s p).rxOn ∨ wBit (rget s (fportKey p 0)) (11 + lane) = true → 2400 < ber → ∃ t, exec (.wavelengthBerCheck p lane ber) s = .next t ∧ fport t p = { fport s p with due := true } ∧
      t.regs = s.regs) ∧
  (∀ (p : Fin 16) (s : State), portState s p = 3 ∨ portState s p = 4 → (∀ e ∈ s.map.cl, e.1 < 256) →
    ∃ t, exec (.lossOfLight p) s = .next t ∧ portState t p = 5 ∧ (fport t p).waiting = [] ∧ (fport t p).replay = [] ∧
      (fport t p).enabled = (fport s p).enabled ∧
      wFld (rget t (fportKey p 4)) 15 10 = wFld (rget s (fportKey p 4)) 15 10) ∧
  (∀ (p : Fin 16) (s : State), portState s p = 5 →
    (∃ t, exec (.lightRestored p) s = .next t ∧ fport t p = { fport s p with due := true } ∧ t.regs = s.regs) ∧
    ∃ t, exec (.laserCheckPulse p) s = .next t ∧ fport t p = { fport s p with pulses := (fport s p).pulses + 1 } ∧
      t.regs = s.regs) ∧
  (∀ (p : Fin 16) (chan : Fin 8) (f : Flit) (s : State), f ∈ (fport s p).waiting → f.chan = chan.val →
    listAt (fport s p).cred chan 0 = 0 → nsHas (fport s p).stalled chan = false →
    ∃ t, exec (.channelStall p chan) s = .next t ∧ nsHas (fport t p).stalled chan = true ∧
      wFld (rget t (fportKey p 4)) 3 0 = min (wFld (rget s (fportKey p 4)) 3 0 + 1) 15 ∧
      (fport t p).waiting = (fport s p).waiting)

/-- R336 to R346: a message is kept, sent on, dropped or left waiting by the route tables; heartbeats, lost children and orphans; a
stream is opened, sent from and delivered to; contributions are combined and a late context completes as partial. The layout of a
message is the model's (log entry 41). -/
def Obligations.FabricMessages : Prop :=
  (∀ (src : Fin 17) (i : Nat) (m : FMsg) (rest : List (Nat × FMsg)) (s : State), heads src s.fab.inbox = (i, m) :: rest →
    let s0 := { s with fab := { s.fab with inbox := s.fab.inbox.eraseIdx i } }
    let e := m.entry
    let mask := fld e 15 0
    let hops := mHops m.bytes + (if src.val < 16 then 1 else 0)
    (m.cls = 0 → m.dest = myId s → exec (.fabricMessageRoute src) s = .next (hold src m s0)) ∧
    (m.cls = 0 → m.dest ≠ myId s → bitAt e 16 = false ∨ bitAt e 18 = true →
      exec (.fabricMessageRoute src) s = .next (freePlaces src m (dropMsg (dropPort s src mask m) m.bytes 0 m.src s0))) ∧
    (m.cls = 0 → m.dest ≠ myId s → bitAt e 16 = true → bitAt e 18 = false → 63 ≤ hops →
      exec (.fabricMessageRoute src) s = .next (freePlaces src m (dropMsg (dropPort s src mask m) m.bytes 0 m.src s0))) ∧
    (m.cls = 0 → m.dest ≠ myId s → bitAt e 16 = true → bitAt e 18 = false → hops < 63 → choosePort s mask m = .wait →
      exec (.fabricMessageRoute src) s = .next ((routeFirst src rest s).getD s)) ∧
    (∀ p, m.cls = 0 → m.dest ≠ myId s → bitAt e 16 = true → bitAt e 18 = false → hops < 63 → choosePort s mask m = .go p →
      exec (.fabricMessageRoute src) s = .next (freePlaces src m (sendOn p { m with
        vc := if bitAt e 17 = true then 1 else m.vc, mask := none
        bytes := putBytes m.bytes 24 (leBytes 1 (leAt m.bytes 24 1 / 64 * 64 + hops)) } s0)))) ∧
  (∀ (src : Nat) (l : List (Nat × FMsg)) (i : Nat) (m : FMsg), (i, m) ∈ heads src l → l[i]? = some (src, m) ∧
    ∀ j x, j < i → l[j]? = some (src, x) → queueKey src x ≠ queueKey src m) ∧
  (∀ (m : FMsg) (src : Nat) (s : State), src < 16 → dropPort s src 0 m = src) ∧
  (∀ (s : State) (mask p : Nat) (m : FMsg), choosePort s mask m = .go p →
    p < 16 ∧ bitAt mask p = true ∧ portState s p = 3) ∧
  (∀ s : State, wBit (fabId s) 31 = true → fabParent s ≠ myId s → ∃ t, exec .heartbeatSend s = .next t ∧
    t.fab.inbox = s.fab.inbox ++ [(16, looked s (mgmtMsg 1 (fabParent s) s))] ∧ t.fab.unanswered = s.fab.unanswered + 1 ∧
    t.regs = s.regs) ∧
  (∀ (src : Fin 17) (i : Nat) (m : FMsg) (s : State), firstFrom src (fun m => m.cls == 3) s.fab.held = some (i, m) →
    childKey (myId s) m.src / 64 ≤ wFld (fabId s) 29 28 →
    nsHas s.fab.live (childKey (myId s) m.src) = true ∨ s.fab.live.length < 64 →
    ∃ t, exec (.heartbeatAnswer src) s = .next t ∧ nsHas t.fab.live (childKey (myId s) m.src) = true ∧
      nsHas t.fab.lost (childKey (myId s) m.src) = false ∧ t.fab.held = s.fab.held.eraseIdx i ∧
      ∃ a, t.fab.inbox = s.fab.inbox ++ [(16, a)] ∧ a.cls = 3 ∧ a.dest = m.src ∧ a.src = myId s) ∧
  (∀ (level : Fin 4) (digit : Fin 64) (s : State), nsHas s.fab.live (64 * level.val + digit) = true →
    stGet (fun _ => 0) s.fab.seen (64 * level.val + digit) + 3000000 ≤ s.ns →
    ∃ t, exec (.childLost level digit) s = .next t ∧ nsHas t.fab.live (64 * level.val + digit) = false ∧
      nsHas t.fab.lost (64 * level.val + digit) = true) ∧
  (∀ s : State, 3 ≤ s.fab.unanswered → wBit (fabId s) 30 = false → ∃ t, exec .orphan s = .next t ∧
    wBit (fabId t) 30 = true ∧ t.fab.unanswered = s.fab.unanswered) ∧
  (∀ (k : Fin 256) (i : Fin 4) (w : Word) (s : State),
    (cluLocked s k = true → exec (.streamValidWrite k i w) s = .next s) ∧
    (cluLocked s k = false → wBit w 31 = false → ∃ t, exec (.streamValidWrite k i w) s = .next t ∧
      strmValid t k i = false ∧ strmRecv t k i = wBit w 30 ∧ wFld (strmReg t k i 0) 15 0 = wFld w 15 0 ∧
      wFld (strmReg t k i 0) 25 22 = min (wFld w 25 22) 10 ∧
      wFld (strmReg t k i 0) 29 26 = (if 1 ≤ wFld w 29 26 ∧ wFld w 29 26 ≤ 6 then wFld w 29 26 else 6) ∧
      (∀ o, o ≠ cluBase k + 0x300 + 16 * i → rget t o = rget s o) ∧ { t with regs := s.regs } = s) ∧
    (cluLocked s k = false → wBit w 31 = true → (∃ p, cluPart s k = some p ∧ (pget s p).conf = true) →
      ∃ t, exec (.streamValidWrite k i w) s = .next t ∧ strmValid t k i = false ∧ wBit (strmReg t k i 0xC) 31 = true ∧
        t.fab = s.fab) ∧
    (cluLocked s k = false → wBit w 31 = true → cluPart s k = none → strmValid s k i = false → wBit w 30 = false →
      ∃ t, exec (.streamValidWrite k i w) s = .next t ∧ strmValid t k i = true ∧
        strmIdx t k i = (strmWord k i 1 (cluSet k (0x300 + 16 * i) (rget t (cluBase k + (0x300 + 16 * i))) s)).1 % 2 ^ 32)) ∧
  (∀ (k : Fin 256) (i : Fin 4) (s : State), strmValid s k i = true → strmRecv s k i = false →
    (∃ t, exec (.streamNotice k i) s = .next t ∧ nsHas t.fab.strmPend (4 * k.val + i.val) = true ∧ t.regs = s.regs ∧
      t.fab.inbox = s.fab.inbox) ∧
    (nsHas s.fab.strmPend (4 * k.val + i.val) = true → strmSlot s k i = true → exec (.streamSend k i) s = .next (streamSend k i s))) ∧
  (∀ (k : Fin 256) (i : Fin 4) (h : Nat) (v s : State), strmValid s k i = true → strmRecv s k i = true →
    strmSlot s k i = true → strmWord k i 1 s = (h, v) → exec (.streamNotice k i) s =
      .next (grantStream k i ((h + 2 ^ 32 - strmIdx v k i) % 2 ^ 32) (setStrmIdx k i h v))) ∧
  (∀ (k i c : Nat) (tail : Nat) (h d : List Byte) (bad : List Nat) (a b e s : State),
    strmWord k i 0 s = (tail, a) → tail ≠ strmIdx s k i →
    slotOff a k i (strmIdx s k i) + 64 * 2 ^ wFld (strmReg a k i 0) 29 26 ≤ 2 ^ 22 →
    agentRefusal a k (slotOff a k i (strmIdx s k i)) (64 * 2 ^ wFld (strmReg a k i 0) 29 26) false = none →
    csReadBytes k (slotOff a k i (strmIdx s k i)) 64 a = (some h, b) → slotBad b k i h = 0 → bitAt (leAt h 2 1) 0 = false →
    stGet (fun _ => 0) a.fab.strmCred (4 * k + i) = c + 1 →
    slotData k (slotOff a k i (strmIdx s k i) + 64) (leAt h 0 2) b = ((d, bad), e) →
    ∃ m, (streamSend k i s).fab.inbox = e.fab.inbox ++ [(16, m)] ∧ m.cls = 0 ∧
      m.dest = wFld (strmReg e k i 4) 27 10 ∧ m.src = myId e ∧ m.poison = bad ∧
      m.bytes = mkHead (leAt h 0 2) (leAt h 2 1) (leAt h 4 2) (leAt h 8 4) 0 (myId e) (wFld (strmReg e k i 4) 9 0)
        (streamName e k i) ++ d ∧
      stGet (fun _ => 0) (streamSend k i s).fab.strmCred (4 * k + i) = c) ∧
  (∀ (src : Fin 17) (i : Nat) (m : FMsg) (s : State),
    firstFrom src (fun m => m.cls == 0 || (m.cls == 2 && m.mask.isSome)) s.fab.held = some (i, m) → m.cls = 0 →
    (∀ x, putStream s m = some x → strmSlot s x.1 x.2 = true) →
    let u := freePlaces src m { s with fab := { s.fab with held := s.fab.held.eraseIdx i } }
    (∀ st, putBad u m = st → st ≠ 0 → st ≠ 0x0401 → exec (.putDeliver src) s = .next (refusePut m.bytes 0 m.src st u)) ∧
    (∀ k j r, putBad u m = 0x0401 → streamOf u (mDst m.bytes) = some (k, j) → slotRefusal u k j = some r →
      exec (.putDeliver src) s = .next (refusePut m.bytes 0 m.src 0x0401 (agentRefuse k j r u))) ∧
    (∀ k j, putBad u m = 0 → streamOf u (mDst m.bytes) = some (k, j) →
      exec (.putDeliver src) s = .next (slotDeliver k j m.bytes ((m.bytes.drop 32).take (mLen m.bytes)) m.poison u))) ∧
  (∀ (src : Fin 17) (i : Nat) (m : FMsg) (u s : State),
    firstFrom src (fun m => m.cls == 2 && m.mask.isNone) s.fab.held = some (i, m) →
    contribute src m { s with fab := { s.fab with held := s.fab.held.eraseIdx i } } = some u →
    exec (.reduceContribution src) s = .next (freePlaces src m u)) ∧
  (∀ (src : Nat) (m : FMsg) (s : State), s.fab.done.contains (mGroup m.bytes, mTag m.bytes) = false →
    s.fab.ctxs.find? (fun x => x.group == mGroup m.bytes && x.tag == mTag m.bytes) = none →
    (s.fab.ctxs.filter (fun x => x.hub == reduceHub s (mGroup m.bytes))).length < 4096 →
    1 < fld m.entry 25 19 →
    ∃ u x, contribute src m s = some u ∧ u.fab.ctxs = s.fab.ctxs ++ [x] ∧ x.group = mGroup m.bytes ∧ x.tag = mTag m.bytes ∧
      x.len = mLen m.bytes ∧ x.val = redBlocks (mOp m.bytes) m ∧ x.hub = reduceHub s (mGroup m.bytes) ∧ x.opened = s.ns) ∧
  (∀ (op : Nat) (a b : List Nat), op ≠ 2 → a.length = b.length →
    redCombine op [some a] [some b] = [some ((a.zip b).map (fun v => nbAdd v.1 v.2))]) ∧
  (∀ (group : Fin 768) (tag : Word) (x : RedCtx) (s : State),
    s.fab.ctxs.find? (fun x => x.group == group.val && x.tag == tag.toNat) = some x →
    let due := x.opened + max 1 (fld (routeEntry s (256 + group.val)) 56 54) * wFld (rget s (hubBase 0 + 0x40020)) 15 0 * 1000
    (s.ns < due → exec (.reduceContextTimeout group tag) s = .next s) ∧
    (due ≤ s.ns → exec (.reduceContextTimeout group tag) s = .next (redDone { x with part := true }
      (rupd (hubBase x.hub + 0x40024) (fun w => wSatAdd w 18 12 1) s))))

/-- R36, R347 to R366, R431, R435 and R458: the reset pin resets every die and its release begins a start-up; each stage that is due
runs with what it finds, and the next becomes due or start-up stops. -/
def Obligations.StartUp : Prop :=
  (∀ s : State, exec .rstNAssert s = .next { s with pwr := { s.pwr with rst := true, descend := true } }) ∧
  (∀ s : State, s.pwr.rst = true → s.pwr.inReset = false → s.pwr.rails ≠ [] →
    exec .rstNRelease s = .next { s with pwr := { s.pwr with rst := false } }) ∧
  (∀ s : State, s.pwr.descend = true → s.pwr.inReset = false → ∃ t, exec .resetApply s = .next t ∧ t.pwr.inReset = true ∧
    t.pwr.rails = s.pwr.rails ∧ t.cores = [] ∧ t.parts = [] ∧ t.wins = [] ∧ t.booted = false ∧ t.boot.next = none ∧
    t.t1 = s.t1 ∧ t.t2 = s.t2 ∧ t.pending = s.pending) ∧
  (∀ s : State, s.pwr.rst = true → s.pwr.inReset = true → ∃ t, exec .rstNRelease s = .next t ∧ t.pwr.rst = false ∧
    t.pwr.inReset = false ∧
    (s.pwr.vaux = true → s.pwr.sw = true → s.pwr.vin = true → s.pwr.kiln = false →
      t.boot.next = some 0 ∧ t.stage = 0 ∧ t.fatal = false ∧ t.faultN = false ∧ t.booted = false) ∧
    (s.pwr.vin = false → t.boot = s.boot ∧ t.fatal = s.fatal ∧ t.faultN = s.faultN)) ∧
  (∀ (pll : Bool) (bad : List Nat) (dur : Nat) (s : State), stageDue s 0 = true →
    ∃ t, exec (.stage0 pll bad dur) s = .next t ∧ t.stage = 0 ∧
      (pll = true → 0 ∉ bad → 22 ∉ bad → 23 ∉ bad → t.boot.next = some 1 ∧ t.fatal = s.fatal ∧
        ∀ r, nsHas t.pwr.rails r = (decide (r ≠ 22) && decide (r < 56) && railOn bad r)) ∧
      (pll = false ∨ 0 ∈ bad ∨ 22 ∈ bad ∨ 23 ∈ bad → t.boot.next = none ∧ t.fatal = true ∧ t.faultN = true)) ∧
  (∀ (f : FuseBank) (im : BootImages) (recs : FuseMap) (lid : Bool) (dur : Nat) (s : State), stageDue s 1 = true →
    ∃ t, exec (.stage1 f im recs lid dur) s = .next t ∧ t.stage = 1 ∧ t.boot.next = some 2 ∧ t.pwr.lidOpen = lid ∧
      (f.ok = false → t.boot.late = true) ∧
      (f.ok = true → (readFuses f recs s).sec.lcFuse = 5 → t.boot.late = true) ∧
      (f.ok = true → (readFuses f recs s).sec.lcFuse ≠ 5 → bootImage (readFuses f recs s) im 0 = none → t.boot.late = true) ∧
      (∀ x, f.ok = true → (readFuses f recs s).sec.lcFuse ≠ 5 → bootImage (readFuses f recs s) im 0 = some x →
        t.boot.late = s.boot.late ∧ t.sec.ids = !lid ∧ rget t thmBase = BitVec.ofNat 32 (6000 * 65536 + 320) ∧
        imgOf t.sec.run 0 = some x ∧ t.boot.warm = !t.boot.reuse.isEmpty)) ∧
  (∀ (up : Bool) (speed width dur : Nat) (s : State), stageDue s 2 = true →
    ∃ t, exec (.stage2 up speed width dur) s = .next t ∧ t.stage = 2 ∧
      rget t 0x100 = BitVec.ofNat 32 (linkWord up speed width) ∧ wBit (rget t 0x14) 16 = up ∧
      (s.boot.late = false → t.boot.next = some 3 ∧ t.fatal = s.fatal) ∧
      (s.boot.late = true → t.boot.next = none ∧ t.fatal = true ∧ t.boot.stopped = true)) ∧
  (∀ (bad : List Nat) (dur : Nat) (s : State), stageDue s 3 = true →
    ∃ t, exec (.stage3 bad dur) s = .next t ∧ t.stage = 3 ∧
      (∀ h, 0 < h → h < 4 → bad.contains h = true ∨ nsHas s.pwr.rails h = false ∨ noRoot s (16 + h) = true →
        hubAbsent t h = true ∧ wBit (rget t (hubBase 0)) (1 + h) = true) ∧
      (0 ∈ bad ∨ nsHas s.pwr.rails 0 = false → t.boot.next = none ∧ t.fatal = true) ∧
      (0 ∉ bad → nsHas s.pwr.rails 0 = true → noRoot s 16 = false → hubAbsent s 0 = false → t.boot.next = some 4) ∧
      t.t1 = s.t1) ∧
  (∀ (f : TestFind) (s : State), stageDue s 4 = true → ∃ t, exec (.stage4 f) s = .next t ∧ t.stage = 4 ∧
    t.boot.next = some 5 ∧ (∀ u ∈ s.boot.reuse, (recOf t u).inUse = true) ∧
    (∀ n ∈ f.noRoot, nsHas t.boot.defTw n = true) ∧
    (∀ n, n < 16 → noRoot s n = true → nsHas t.boot.defTw n = true)) ∧
  (∀ (f : TestFind) (s : State), stageDue s 5 = true → ∃ t, exec (.stage5 f) s = .next t ∧ t.stage = 5 ∧
    t.map = mapBuild (testTowers (List.range 16) (fullFind s f) s).2 ∧
    (t.map.tw ≠ [] → t.boot.next = some 6) ∧ (t.map.tw = [] → t.boot.next = none ∧ t.fatal = true)) ∧
  (∀ (f : TestFind) (s : State), stageDue s 6 = true → ∃ t, exec (.stage6 f) s = .next t ∧ t.stage = 6 ∧
    t.boot.next = some 7 ∧ t.map = mapBuild (testBonds (List.range 16) (fullFind s f) s).2 ∧ t.t1 = [] ∧ t.t1Chk = [] ∧ t.ftag = [] ∧
    t.sec.dirty = []) ∧
  (∀ (bad : List (Nat × Nat)) (dur : Nat) (s : State), stageDue s 7 = true → ∃ t, exec (.stage7 bad dur) s = .next t ∧
    t.stage = 7 ∧ t.boot.next = some 8 ∧ t.t2 = [] ∧ t.t2poison = [] ∧ t.sec.dirtyT2 = [] ∧
    ∀ k, k < 24 → hubAbsent s (k / 6) = false → ((∃ e ∈ bad, e.1 = k ∧ e.2 ≠ 0x0032) → nsHas t.boot.pkgBad k = true) ∧
      ((∀ e ∈ bad, e.1 = k → e.2 = 0x0032) → nsHas s.pwr.rails 20 = true → timedOut s k = false → nsHas t.boot.pkgBad k = false)) ∧
  (∀ (eng : List EngineFind) (dur : Nat) (s : State), stageDue s 8 = true → ∃ t, exec (.stage8 eng dur) s = .next t ∧
    t.stage = 8 ∧ t.boot.next = some 9 ∧
    ∀ p e, p < 16 → hubAbsent s (p / 4) = false → eng[p]? = some e → timedOut s p = false → nsHas s.pwr.rails 21 = true →
      rget t (fportKey p 0) = BitVec.ofNat 32 (portWord e) ∧ nsHas t.boot.oeHeld p = !e.qualified) ∧
  (∀ (ok : Bool) (dur : Nat) (s : State), stageDue s 9 = true → ∃ t, exec (.stage9 ok dur) s = .next t ∧ t.stage = 9 ∧
    t.boot.next = none ∧
    (ok = true → timedOut s 0 = false → t.booted = true ∧ t.fatal = s.fatal ∧ t.net.oldMaps = [] ∧
      t.sec.svnFuse = max s.sec.svnFuse (wFld (rget s (secBase + 8)) 13 8) ∧
      (∀ u, u < 20 → recOf t u = { recOf s u with inUse := false })) ∧
    (ok = false ∨ timedOut s 0 = true → t.fatal = true ∧ t.booted = s.booted)) ∧
  (∀ (unit n : Nat) (s : State), s.boot.next = some n → 4 ≤ n → stageDue s n = true →
    ∃ t, exec (.stageTimeLimit unit) s = .next t ∧ nsHas t.boot.timed unit = true ∧
      t.boot.fireNext = (s.boot.fireNext + 1) % 8192 ∧ t.boot.next = some n ∧ t.regs = s.regs)

/-- R354, R355, R367 to R371: a failing lane takes the lowest free spare; a column retrains and resumes, or retires; a bridge
direction retrains live, and a group that fails goes down. -/
def Obligations.RepairInService : Prop :=
  (∀ (n lane : Nat) (g : LaneGrp), lane < 64 → (∀ e ∈ g.sp, e.2 ≠ lane ∧ e.1 + 64 ≠ lane) →
    (∀ i, freeSpare n g = some i → failLane n lane g =
      ({ g with sp := g.sp ++ [(i, lane)], bad := g.bad.filter (fun x => x != lane) }, none)) ∧
    (freeSpare n g = none → failLane n lane g = ({ g with bad := nsAdd g.bad lane }, some lane))) ∧
  (∀ (n i : Nat) (g : LaneGrp), freeSpare n g = some i → i < n ∧ (∀ e ∈ g.sp, e.1 ≠ i) ∧ i ∉ g.badSp) ∧
  (∀ (col : Fin 8704) (e : ColFind) (s : State), exec (.columnRetrain col e) s =
    .next (columnRetrain col e.lanes e.layers s)) ∧
  (∀ (col : Nat) (s : State), (colget s col).state ≠ 2 → colget (columnRetrain col [] [] s) col =
      { colget s col with retraining := true } ∧ onlyCol col s (columnRetrain col [] [] s)) ∧
  (∀ (col : Nat) (layers : List Nat) (s : State), (colget s col).state ≠ 2 → ∀ m, m ∈ layers → m < 8 →
    wBit (rget (columnRetrain col [] layers s) (towerBase (col / 544) + 0x20)) (16 + m) = false ∧
      nsHas (colget (columnRetrain col [] layers s) col).phaseOut m = true) ∧
  (∀ (col g lane : Nat) (s : State), g < 134 → lane < 68 → (colget s col).state = 0 →
    (failLane 2 lane (bondGrp s (col * 134 + g))).2 = none →
    bondGrp (columnRetrain col [(g, lane)] [] s) (col * 134 + g) = (failLane 2 lane (bondGrp s (col * 134 + g))).1 ∧
    (colget (columnRetrain col [(g, lane)] [] s) col).state = 0 ∧
    (colget (columnRetrain col [(g, lane)] [] s) col).retraining = true) ∧
  (∀ (col : Fin 8704) (s : State), (colget s col).retraining = true → ∃ t, exec (.columnRetrainDone col []) s = .next t ∧
    colget t col = { colget s col with retraining := false, phaseOut := [] } ∧
    ((colget s col).phaseOut = [] → onlyCol col s t) ∧
    (∀ m, m < 8 → m ∈ (colget s col).phaseOut →
      (∀ k, k / 544 = col.val / 544 → k ≠ col.val → m ∉ (colget s k).phaseOut) →
      wBit (rget t (towerBase (col.val / 544) + 0x20)) (16 + m) = true)) ∧
  (∀ (col : Fin 8704) (g lane : Nat) (s : State), (colget s col).retraining = true → g < 134 → lane < 68 →
    ∃ t, exec (.columnRetrainDone col [(g, lane)]) s = .next t ∧
      ((failLane 2 lane (bondGrp s (col.val * 134 + g))).2 = none → (colget t col).retraining = true ∧
        (colget t col).state = (colget s col).state) ∧
      ((failLane 2 lane (bondGrp s (col.val * 134 + g))).2 ≠ none → (colget t col).state = 2)) ∧
  (∀ (d : Fin 88) (g : Fin 12) (s : State), edgeUp s (d.val / 2) = true → nsHas s.boot.brgTrain d = false →
    (nsHas s.boot.brgDue d = false → ∃ t, exec (.bridgeLiveRetrain d g) s = .next t ∧ nsHas t.boot.brgDue d = true ∧
      t.boot.brgTrain = s.boot.brgTrain ∧ t.boot.brgUp = s.boot.brgUp ∧ (∀ j, j < 4 → d.val / 2 < 40 →
        nsHas (duePort t) (4 * (d.val / 2) + j) = true)) ∧
    (nsHas s.boot.brgDue d = true → trainReady s d = false → exec (.bridgeLiveRetrain d g) s = .next s) ∧
    (trainReady s d = true → ∃ t, exec (.bridgeLiveRetrain d g) s = .next t ∧ nsHas t.boot.brgTrain d = true ∧
      t.boot.brgUp = s.boot.brgUp)) ∧
  (∀ (d : Fin 88) (down : List Nat) (s : State), nsHas s.boot.brgTrain d = true →
    ∃ t, exec (.bridgeRetrainDone d [] down) s = .next t ∧ nsHas t.boot.brgTrain d = false ∧
      (∀ g, g < 12 → g ∈ down → nsHas t.boot.brgUp (12 * d + g) = false) ∧
      (∀ k, (∀ g ∈ down, k ≠ 12 * d.val + g) → nsHas t.boot.brgUp k = nsHas s.boot.brgUp k))

/-- R374 to R392: what the diodes give the thermal block, the kiln-sitter, canary rows, the slow and sudden failure of cooling.
The predictions' rounding and their place in the 10 µs interval are the model's (log entries 137 and 177). -/
def Obligations.Thermal : Prop :=
  (∀ (rd : List (List Rd)) (stuck : List Nat) (s : State), ∃ t, exec (.hotspotSample rd stuck) s = .next t ∧
    ∀ n, n < 16 → dieOn s n = true → (listAt rd n []).length = 16 →
      (∀ vals : List Int, listAt rd n [] = vals.map Rd.val → (∀ i, i < 16 → chBroken t (chHot n i) = false) →
        (twTh t n).meas ∈ vals ∧ ∀ v ∈ vals, v ≤ (twTh t n).meas) ∧
      (∀ i, i < 16 → (listAt rd n [])[i]? = some .cut → nsHas t.therm.cut (chHot n i) = true ∧
        chBroken t (chHot n i) = true ∧ 400 ≤ (twTh t n).meas) ∧
      (∀ i, i < 16 → (∃ v, (listAt rd n [])[i]? = some (.val v)) → stuckNow t (chHot n i) = true →
        chBroken t (chHot n i) = true)) ∧
  (∀ (pk : Nat) (tw : Meters) (s : State), limitOn s = true → 5 ≤ s.stage →
    ∃ t, exec (.powerLoopTick pk tw) s = .next t ∧ ∀ n, n < 16 → dieOn s n = true →
      (twTh t n).pred = predictHot t n (twTh t n).hist (twTh t n).meas ∧
      (∀ m, m < 8 → (layTh t n m).pred = predictLayer n m (layTh t n m) (twTh t n).pred) ∧
      (106000000 ≤ (twTh t n).pred ∨ 100000000 ≤ layPred t n → wBit (rget t (thmBase + 0xC)) 2 = true ∧
        brakeOn t = true)) ∧
  (∀ (rd : List (Nat × Rd)) (stuck : List Nat) (s : State),
    (s.stage < 3 → exec (.housekeepingRound rd stuck) s = .next s) ∧
    (3 ≤ s.stage → ∃ t, exec (.housekeepingRound rd stuck) s = .next t ∧
      (∀ ch v, 256 ≤ ch → ch < 1060 → chHere s ch = true → rdAt rd ch = some (.val v) → chTemp ch = false → ch ∉ stuck →
        chLast t ch = v) ∧
      (∀ n, n < 16 → dieOn s n = true → (∃ m, m < 8 ∧ 380 < (layTh t n m).meas) →
        stGet (fun _ => 0) t.refRate n = 2))) ∧
  (∀ (n : Fin 16) (layer : Bool) (src : Fin 32) (temp : Int) (s : State), s.pwr.vaux = true → s.pwr.kiln = false →
    (layer = true → 420 ≤ temp) → (layer = false → 460 ≤ temp ∧ src.val < 16 ∧ nsHas s.therm.cut (chHot n src) = false) →
    ∃ t, exec (.kilnSitterTrip n layer src temp) s = .next t ∧ t.pwr.kiln = true ∧ t.pwr.rails = [] ∧ t.faultN = true ∧
      wBit t.therm.kilnNv 31 = true ∧ wBit t.therm.kilnNv 30 = layer ∧ wFld t.therm.kilnNv 29 26 = n.val ∧
      (∀ u, (recOf s u).made = true → (recOf t u).tripped = true)) ∧
  (∀ (w : Word) (s : State),
    (wBit w 31 = true → ∃ t, exec (.kilnLastClear w) s = .next t ∧ oneReg (thmBase + 0x1C4) 0 s t ∧ t.therm.kilnNv = 0) ∧
    (wBit w 31 = false → exec (.kilnLastClear w) s = .next s)) ∧
  (∀ (col : Fin 8704) (fail : BitVec 8) (s : State), 7 ≤ s.stage → (colget s col).retraining = false →
    (colget s col).state ≠ 2 → dieOn s (col.val / 544) = true →
    ∃ t, exec (.canaryCheck col fail) s = .next t ∧ (fail = 0 → t.regs = s.regs ∧ t.refRate = s.refRate) ∧
      (∀ m, m < 8 → fail.getLsbD m = true → (layTh s (col.val / 544) m).meas < 380 →
        (layTh t (col.val / 544) m).suspect = true ∧ (layTh t (col.val / 544) m).hot = true ∧
        stGet (fun _ => 0) t.refRate (col.val / 544) = 2)) ∧
  (∀ (n : Fin 16) (s : State), dieOn s n = true → limitOn s = true → ∃ t, exec (.rthWindow n) s = .next t ∧
    (twTh t n).rCnt = 0 ∧ (twTh t n).rSum = 0 ∧
    (twTh t n).rEst = (if 0 < (twTh s n).rCnt ∧ 1000 ≤ (twTh s n).pMin ∧
        10 * ((twTh s n).pMax - (twTh s n).pMin) < (twTh s n).pMax
      then max 1 ((twTh s n).rSum / (((twTh s n).rCnt : Nat) : Int)).toNat else (twTh s n).rEst)) ∧
  (∀ s : State, s.therm.warn = true →
    ((∃ n, n < 16 ∧ ratioAtLeast s 110 n = true) → ∃ t, exec .coolWarnRepeat s = .next t ∧ t.therm.warn = true ∧
      wBit (rget t (thmBase + 0x1C0)) 0 = true) ∧
    ((∀ n, n < 16 → ratioAtLeast s 110 n = false) → ∃ t, exec .coolWarnClear s = .next t ∧ t.therm.warn = false)) ∧
  (∀ (freq : List Nat) (noEdge : Bool) (s : State), limitOn s = true → flowOn s = true → flowLost s = false →
    edgeFreq freq < minHz s ∨ flowQuiet s freq noEdge = true → ∃ t, exec (.flowLost freq noEdge) s = .next t ∧ flowLost t = true ∧
      flowHz t = min (edgeFreq freq) 65535 ∧ wBit (rget t (thmBase + 0x1C0)) 2 = true) ∧
  (∀ (freq : List Nat) (s : State), limitOn s = true → flowLost s = true → minHz s ≤ edgeFreq freq →
    ∃ t, exec (.flowPresent freq) s = .next t ∧ flowLost t = false ∧ flowHz t = min (edgeFreq freq) 65535) ∧
  (∀ (ages : List Nat), 3 ≤ (ages.filter (fun a => a ≤ 50000000)).length →
    edgeFreq ages = 200 * (ages.filter (fun a => a ≤ 50000000)).length) ∧
  (∀ (a b : Nat) (l : List Nat), ((a :: b :: l).filter (fun a => a ≤ 50000000)).length < 3 →
    edgeFreq (a :: b :: l) = 10000000000 / (b - a))

/-- R384, R433, R461 and Table ELEC.4: the SMBus interface reads its mirror, refuses every write and is refreshed from the registers;
with VAUX the latch, the saggar region and the firing log are lost. -/
def Obligations.SmbusAndVaux : Prop :=
  (∀ (code : Fin 256) (s : State), s.pwr.vaux = true →
    exec (.smbusReadByte code) s = .next (hostSend (.smb true [listAt s.mirror code 0]) s)) ∧
  (∀ (code n : Fin 256) (s : State), s.pwr.vaux = true → ∃ t d, exec (.smbusBlockRead code n) s = .next t ∧
    t = hostSend (.smb true d) s ∧ d.length = min n.val 32 ∧ ∀ i, i < d.length → listAt d i 0 = listAt s.mirror (code + i) 0) ∧
  (∀ (code : Fin 256) (d : List Byte) (s : State), s.pwr.vaux = true →
    exec (.smbusWrite code d) s = .next (hostSend (.smb false []) s)) ∧
  (∀ s : State, s.pwr.vaux = true → ∃ t, exec .smbusMirrorRefresh s = .next t ∧ { t with mirror := s.mirror } = s ∧
    t.mirror.length = 256 ∧ t.mirror.take 4 = leBytes 4 (viewGlb s 0).toNat ∧
    (t.mirror.drop 12).take 4 = leBytes 4 (viewGlb s 0x40).toNat) ∧
  (∀ s : State, ∃ t, exec .vauxDown s = .next t ∧ t.pwr.vaux = false ∧ t.pwr.kiln = false ∧ t.faultN = false ∧
    t.boot.fire = [] ∧ t.boot.fireNext = 0 ∧ t.sec.ids = false ∧ t.sec.sessions = [] ∧ t.mirror = [])
end

