-- ==== Sys2Proof/Laws/Store.lean ====
section
/-! SUPPORT. Read after write, and the canonical form, of the sparse store, byte memory and number sets. -/

namespace Sys2Proof.Machine

variable {α : Type} (d : Nat → α)

/-! ## Reading -/

theorem stGet_stDel_same (st : Store α) (k : Nat) : stGet d (stDel st k) k = d k := by
  induction st with
  | nil => rfl
  | cons e r ih =>
    obtain ⟨k', v⟩ := e
    by_cases h : k' = k
    · simpa [stDel, h] using ih
    · have : stDel ((k', v) :: r) k = (k', v) :: stDel r k := by simp [stDel, h]
      rw [this]
      simp only [stGet, if_neg h]
      exact ih

theorem stGet_stDel_other (st : Store α) {k j : Nat} (h : j ≠ k) : stGet d (stDel st k) j = stGet d st j := by
  induction st with
  | nil => rfl
  | cons e r ih =>
    obtain ⟨k', v⟩ := e
    by_cases hk : k' = k
    · have h1 : stDel ((k', v) :: r) k = stDel r k := by simp [stDel, hk]
      rw [h1, ih]
      simp [stGet, hk, Ne.symm h]
    · have h1 : stDel ((k', v) :: r) k = (k', v) :: stDel r k := by simp [stDel, hk]
      rw [h1]
      simp only [stGet, ih]

theorem stGet_stIns_same (st : Store α) (k : Nat) (v : α) (h : ∀ e ∈ st, e.1 ≠ k) : stGet d (stIns k v st) k = v := by
  induction st with
  | nil => simp [stIns, stGet]
  | cons e r ih =>
    obtain ⟨k', v'⟩ := e
    have hk : k' ≠ k := h (k', v') (by simp)
    by_cases hlt : k < k'
    · simp [stIns, hlt, stGet]
    · simp only [stIns, hlt, if_false, stGet, hk]
      exact ih (fun e he => h e (by simp [he]))

theorem stGet_stIns_other (st : Store α) {k j : Nat} (v : α) (h : j ≠ k) : stGet d (stIns k v st) j = stGet d st j := by
  induction st with
  | nil => simp [stIns, stGet, Ne.symm h]
  | cons e r ih =>
    obtain ⟨k', v'⟩ := e
    by_cases hlt : k < k'
    · simp [stIns, hlt, stGet, Ne.symm h]
    · simp only [stIns, hlt, if_false, stGet, ih]

theorem stDel_keys (st : Store α) (k : Nat) : ∀ e ∈ stDel st k, e.1 ≠ k := by
  intro e he
  simpa [stDel] using (List.mem_filter.mp he).2

/-- A key that was written reads as what was written. -/
@[simp] theorem stGet_stSet_same [DecidableEq α] (st : Store α) (k : Nat) (v : α) : stGet d (stSet d st k v) k = v := by
  unfold stSet
  split
  · rename_i h
    rw [stGet_stDel_same, h]
  · exact stGet_stIns_same d _ _ _ (stDel_keys st k)

/-- A write leaves every other key alone. -/
theorem stGet_stSet_other [DecidableEq α] (st : Store α) {k j : Nat} (v : α) (h : j ≠ k) : stGet d (stSet d st k v) j = stGet d st j := by
  unfold stSet
  split
  · exact stGet_stDel_other d st h
  · rw [stGet_stIns_other d _ _ h, stGet_stDel_other d st h]

/-- What a key reads as after a write, in one equation. -/
theorem stGet_stSet [DecidableEq α] (st : Store α) (k j : Nat) (v : α) :
    stGet d (stSet d st k v) j = if j = k then v else stGet d st j := by
  split
  · subst_vars; exact stGet_stSet_same d st _ v
  · exact stGet_stSet_other d st v ‹_›

/-! ## The canonical form -/

theorem stWf_cons [DecidableEq α] (k : Nat) (v : α) (r : Store α) :
    stWf d ((k, v) :: r) = true ↔ v ≠ d k ∧ (∀ e ∈ r, k < e.1) ∧ stWf d r = true := by
  induction r generalizing k v with
  | nil => simp [stWf]
  | cons e r ih =>
    obtain ⟨k', v'⟩ := e
    simp only [stWf, Bool.and_eq_true, bne_iff_ne, ne_eq, decide_eq_true_eq, List.mem_cons, forall_eq_or_imp]
    constructor
    · rintro ⟨⟨h1, h2⟩, h3⟩
      refine ⟨h1, ⟨h2, fun e he => ?_⟩, h3⟩
      exact lt_trans h2 (((ih k' v').mp h3).2.1 e he)
    · rintro ⟨h1, ⟨h2, _⟩, h4⟩
      exact ⟨⟨h1, h2⟩, h4⟩

/-- Removing entries keeps the canonical form. -/
theorem stWf_filter [DecidableEq α] (p : Nat × α → Bool) (st : Store α) (h : stWf d st = true) : stWf d (st.filter p) = true := by
  induction st with
  | nil => exact h
  | cons e r ih =>
    obtain ⟨k, v⟩ := e
    obtain ⟨h1, h2, h3⟩ := (stWf_cons d k v r).mp h
    by_cases hp : p (k, v) = true
    · rw [List.filter_cons_of_pos hp]
      exact (stWf_cons d k v _).mpr ⟨h1, fun e he => h2 e (List.mem_filter.mp he).1, ih h3⟩
    · rw [List.filter_cons_of_neg hp]
      exact ih h3

theorem stDel_wf [DecidableEq α] (st : Store α) (k : Nat) (h : stWf d st = true) : stWf d (stDel st k) = true := stWf_filter d _ st h

theorem stDrop_wf [DecidableEq α] (st : Store α) (lo n : Nat) (h : stWf d st = true) : stWf d (stDrop st lo n) = true :=
  stWf_filter d _ st h

theorem stIns_mem (k : Nat) (v : α) (st : Store α) {e : Nat × α} (he : e ∈ stIns k v st) : e = (k, v) ∨ e ∈ st := by
  induction st with
  | nil => simpa [stIns] using he
  | cons f r ih =>
    obtain ⟨k', v'⟩ := f
    by_cases hlt : k < k'
    · simpa [stIns, hlt] using he
    · simp only [stIns, hlt, if_false, List.mem_cons] at he
      rcases he with h | h
      · exact Or.inr (by simp [h])
      · rcases ih h with h | h
        · exact Or.inl h
        · exact Or.inr (by simp [h])

theorem stIns_wf [DecidableEq α] (k : Nat) (v : α) (st : Store α) (h : stWf d st = true) (hv : v ≠ d k) (hk : ∀ e ∈ st, e.1 ≠ k) :
    stWf d (stIns k v st) = true := by
  induction st with
  | nil => simp [stIns, stWf, hv]
  | cons f r ih =>
    obtain ⟨k', v'⟩ := f
    have hne : k' ≠ k := hk (k', v') (by simp)
    obtain ⟨h1, h2, h3⟩ := (stWf_cons d k' v' r).mp h
    by_cases hlt : k < k'
    · simp only [stIns, hlt, if_true]
      refine (stWf_cons d k v _).mpr ⟨hv, fun e he => ?_, h⟩
      rcases List.mem_cons.mp he with rfl | he
      · exact hlt
      · exact lt_trans hlt (h2 e he)
    · simp only [stIns, hlt, if_false]
      refine (stWf_cons d k' v' _).mpr ⟨h1, fun e he => ?_, ih h3 (fun e he => hk e (by simp [he]))⟩
      rcases stIns_mem k v r he with rfl | he
      · show k' < k
        omega
      · exact h2 e he

/-- A write keeps the canonical form. -/
theorem stSet_wf [DecidableEq α] (st : Store α) (k : Nat) (v : α) (h : stWf d st = true) : stWf d (stSet d st k v) = true := by
  unfold stSet
  split
  · exact stDel_wf d st k h
  · exact stIns_wf d k v _ (stDel_wf d st k h) ‹_› (stDel_keys st k)

/-! ## Byte memory -/

@[simp] theorem memGet_memSet_same (m : Mem) (a : Nat) (b : Byte) : memGet (memSet m a b) a = b :=
  stGet_stSet_same _ _ _ _

theorem memGet_memSet_other (m : Mem) {a x : Nat} (b : Byte) (h : x ≠ a) : memGet (memSet m a b) x = memGet m x :=
  stGet_stSet_other _ _ _ h

theorem memSet_wf (m : Mem) (a : Nat) (b : Byte) (h : memWf m = true) : memWf (memSet m a b) = true :=
  stSet_wf _ _ _ _ h

/-- Every store of bytes keeps the canonical form. -/
theorem memWrite_wf (v : List Byte) (m : Mem) (a : Nat) (h : memWf m = true) : memWf (memWrite m a v) = true := by
  induction v generalizing m a with
  | nil => exact h
  | cons b r ih => exact ih _ _ (memSet_wf _ _ _ h)

theorem memZero_wf (m : Mem) (a n : Nat) (h : memWf m = true) : memWf (memZero m a n) = true := stDrop_wf _ _ _ _ h

/-- A store of bytes leaves the bytes outside it alone. -/
theorem memGet_memWrite_other (v : List Byte) (m : Mem) (a x : Nat) (h : x < a ∨ a + v.length ≤ x) :
    memGet (memWrite m a v) x = memGet m x := by
  induction v generalizing m a with
  | nil => rfl
  | cons b r ih =>
    simp only [List.length_cons] at h
    show memGet (memWrite (memSet m a b) (a + 1) r) x = _
    rw [ih _ _ (by omega), memGet_memSet_other _ _ (by omega)]

/-- A byte that was stored reads back. -/
theorem memGet_memWrite (v : List Byte) (m : Mem) (a i : Nat) (h : i < v.length) :
    memGet (memWrite m a v) (a + i) = v[i] := by
  induction v generalizing m a i with
  | nil => exact absurd h (by simp)
  | cons b r ih =>
    show memGet (memWrite (memSet m a b) (a + 1) r) (a + i) = _
    cases i with
    | zero => rw [memGet_memWrite_other _ _ _ _ (by omega)]; simp
    | succ i =>
      have : a + (i + 1) = a + 1 + i := by omega
      rw [this, ih _ _ i (by simpa using h)]
      simp

/-- The bytes just stored are what a read of them gives. -/
theorem memRead_memWrite (v : List Byte) (m : Mem) (a : Nat) : memRead (memWrite m a v) a v.length = v := by
  have key : ∀ n (M : Mem) b, memRead M b n = (List.range n).map (fun i => memGet M (b + i)) := by
    intro n
    induction n with
    | zero => intros; rfl
    | succ n ih =>
      intro M b
      rw [List.range_succ_eq_map]
      simp only [memRead, ih, List.map_cons, List.map_map, Nat.add_zero]
      congr 1
      apply List.map_congr_left
      intro i _
      simp only [Function.comp_apply]
      congr 1
      omega
  rw [key]
  apply List.ext_getElem
  · simp
  · intro i h1 h2
    simp only [List.getElem_map, List.getElem_range]
    exact memGet_memWrite v m a i h2

/-! ## Number sets -/

theorem mem_nsAdd (s : NatSet) (k j : Nat) : j ∈ nsAdd s k ↔ j = k ∨ j ∈ s := by
  induction s with
  | nil => simp [nsAdd]
  | cons a r ih =>
    simp only [nsAdd]
    split
    · simp
    · split
      · rename_i h
        subst h
        simp
      · simp only [List.mem_cons, ih]
        tauto

theorem nsHas_nsAdd (s : NatSet) (k j : Nat) : nsHas (nsAdd s k) j = (j == k || nsHas s j) := by
  rw [Bool.eq_iff_iff]
  simp [nsHas, mem_nsAdd]

theorem nsHas_nsDel (s : NatSet) (k j : Nat) : nsHas (nsDel s k) j = (j != k && nsHas s j) := by
  by_cases h : j = k <;> simp [nsHas, nsDel, h, List.mem_filter]

end Sys2Proof.Machine
end

