-- ==== Sys2Proof/Laws/State.lean ====
section
/-! SUPPORT. What each named update of the state leaves alone, field by field, and what it makes the accessors read. -/

namespace Sys2Proof.Machine

/-! ## Fields -/

@[simp] theorem rset_pending (o : Nat) (w : Word) (s : State) : (rset o w s).pending = s.pending := by simp only [rset]
@[simp] theorem rset_cores (o : Nat) (w : Word) (s : State) : (rset o w s).cores = s.cores := by simp only [rset]
@[simp] theorem rset_cols (o : Nat) (w : Word) (s : State) : (rset o w s).cols = s.cols := by simp only [rset]
@[simp] theorem rset_sp (o : Nat) (w : Word) (s : State) : (rset o w s).sp = s.sp := by simp only [rset]
@[simp] theorem rset_spChk (o : Nat) (w : Word) (s : State) : (rset o w s).spChk = s.spChk := by simp only [rset]
@[simp] theorem rset_spWr (o : Nat) (w : Word) (s : State) : (rset o w s).spWr = s.spWr := by simp only [rset]
@[simp] theorem rset_csram (o : Nat) (w : Word) (s : State) : (rset o w s).csram = s.csram := by simp only [rset]
@[simp] theorem rset_csChk (o : Nat) (w : Word) (s : State) : (rset o w s).csChk = s.csChk := by simp only [rset]
@[simp] theorem rset_csWr (o : Nat) (w : Word) (s : State) : (rset o w s).csWr = s.csWr := by simp only [rset]
@[simp] theorem rset_csQueue (o : Nat) (w : Word) (s : State) : (rset o w s).csQueue = s.csQueue := by simp only [rset]
@[simp] theorem rset_portResp (o : Nat) (w : Word) (s : State) : (rset o w s).portResp = s.portResp := by simp only [rset]
@[simp] theorem rset_t1 (o : Nat) (w : Word) (s : State) : (rset o w s).t1 = s.t1 := by simp only [rset]
@[simp] theorem rset_t1Chk (o : Nat) (w : Word) (s : State) : (rset o w s).t1Chk = s.t1Chk := by simp only [rset]
@[simp] theorem rset_ftag (o : Nat) (w : Word) (s : State) : (rset o w s).ftag = s.ftag := by simp only [rset]
@[simp] theorem rset_refRate (o : Nat) (w : Word) (s : State) : (rset o w s).refRate = s.refRate := by simp only [rset]
@[simp] theorem rset_t2 (o : Nat) (w : Word) (s : State) : (rset o w s).t2 = s.t2 := by simp only [rset]
@[simp] theorem rset_pools (o : Nat) (w : Word) (s : State) : (rset o w s).pools = s.pools := by simp only [rset]
@[simp] theorem rset_gbarArr (o : Nat) (w : Word) (s : State) : (rset o w s).gbarArr = s.gbarArr := by simp only [rset]
@[simp] theorem rset_gbarEpoch (o : Nat) (w : Word) (s : State) : (rset o w s).gbarEpoch = s.gbarEpoch := by simp only [rset]
@[simp] theorem rset_lostTw (o : Nat) (w : Word) (s : State) : (rset o w s).lostTw = s.lostTw := by simp only [rset]
@[simp] theorem rset_remote (o : Nat) (w : Word) (s : State) : (rset o w s).remote = s.remote := by simp only [rset]
@[simp] theorem rset_remoteRef (o : Nat) (w : Word) (s : State) : (rset o w s).remoteRef = s.remoteRef := by simp only [rset]
@[simp] theorem rset_hubs (o : Nat) (w : Word) (s : State) : (rset o w s).hubs = s.hubs := by simp only [rset]
@[simp] theorem rset_ctrs (o : Nat) (w : Word) (s : State) : (rset o w s).ctrs = s.ctrs := by simp only [rset]
@[simp] theorem rset_frozen (o : Nat) (w : Word) (s : State) : (rset o w s).frozen = s.frozen := by simp only [rset]
@[simp] theorem rset_telem (o : Nat) (w : Word) (s : State) : (rset o w s).telem = s.telem := by simp only [rset]
@[simp] theorem rset_map (o : Nat) (w : Word) (s : State) : (rset o w s).map = s.map := by simp only [rset]
@[simp] theorem rset_parts (o : Nat) (w : Word) (s : State) : (rset o w s).parts = s.parts := by simp only [rset]
@[simp] theorem rset_winMem (o : Nat) (w : Word) (s : State) : (rset o w s).winMem = s.winMem := by simp only [rset]
@[simp] theorem rset_wins (o : Nat) (w : Word) (s : State) : (rset o w s).wins = s.wins := by simp only [rset]
@[simp] theorem rset_nextPkt (o : Nat) (w : Word) (s : State) : (rset o w s).nextPkt = s.nextPkt := by simp only [rset]
@[simp] theorem rset_d3 (o : Nat) (w : Word) (s : State) : (rset o w s).d3 = s.d3 := by simp only [rset]
@[simp] theorem rset_cfg (o : Nat) (w : Word) (s : State) : (rset o w s).cfg = s.cfg := by simp only [rset]
@[simp] theorem rset_reads (o : Nat) (w : Word) (s : State) : (rset o w s).reads = s.reads := by simp only [rset]
@[simp] theorem rset_nextTag (o : Nat) (w : Word) (s : State) : (rset o w s).nextTag = s.nextTag := by simp only [rset]
@[simp] theorem rset_dmas (o : Nat) (w : Word) (s : State) : (rset o w s).dmas = s.dmas := by simp only [rset]
@[simp] theorem rset_zeroQ (o : Nat) (w : Word) (s : State) : (rset o w s).zeroQ = s.zeroQ := by simp only [rset]
@[simp] theorem rset_noReuse (o : Nat) (w : Word) (s : State) : (rset o w s).noReuse = s.noReuse := by simp only [rset]
@[simp] theorem rset_reload (o : Nat) (w : Word) (s : State) : (rset o w s).reload = s.reload := by simp only [rset]
@[simp] theorem rset_stage (o : Nat) (w : Word) (s : State) : (rset o w s).stage = s.stage := by simp only [rset]
@[simp] theorem rset_booted (o : Nat) (w : Word) (s : State) : (rset o w s).booted = s.booted := by simp only [rset]
@[simp] theorem rset_ns (o : Nat) (w : Word) (s : State) : (rset o w s).ns = s.ns := by simp only [rset]
@[simp] theorem rset_fatal (o : Nat) (w : Word) (s : State) : (rset o w s).fatal = s.fatal := by simp only [rset]
@[simp] theorem rset_faultN (o : Nat) (w : Word) (s : State) : (rset o w s).faultN = s.faultN := by simp only [rset]
@[simp] theorem rset_hostOut (o : Nat) (w : Word) (s : State) : (rset o w s).hostOut = s.hostOut := by simp only [rset]
@[simp] theorem rset_fresh (o : Nat) (w : Word) (s : State) : (rset o w s).fresh = s.fresh := by simp only [rset]
@[simp] theorem rset_pwr (o : Nat) (w : Word) (s : State) : (rset o w s).pwr = s.pwr := by simp only [rset]
@[simp] theorem rset_boot (o : Nat) (w : Word) (s : State) : (rset o w s).boot = s.boot := by simp only [rset]
@[simp] theorem rset_therm (o : Nat) (w : Word) (s : State) : (rset o w s).therm = s.therm := by simp only [rset]
@[simp] theorem rset_mnt (o : Nat) (w : Word) (s : State) : (rset o w s).mnt = s.mnt := by simp only [rset]
@[simp] theorem rset_sec (o : Nat) (w : Word) (s : State) : (rset o w s).sec = s.sec := by simp only [rset]
@[simp] theorem rset_net (o : Nat) (w : Word) (s : State) : (rset o w s).net = s.net := by simp only [rset]
@[simp] theorem rset_t2q (o : Nat) (w : Word) (s : State) : (rset o w s).t2q = s.t2q := by simp only [rset]
@[simp] theorem rset_t2poison (o : Nat) (w : Word) (s : State) : (rset o w s).t2poison = s.t2poison := by simp only [rset]
@[simp] theorem rset_fab (o : Nat) (w : Word) (s : State) : (rset o w s).fab = s.fab := by simp only [rset]
@[simp] theorem rset_snap (o : Nat) (w : Word) (s : State) : (rset o w s).snap = s.snap := by simp only [rset]
@[simp] theorem rset_mirror (o : Nat) (w : Word) (s : State) : (rset o w s).mirror = s.mirror := by simp only [rset]

@[simp] theorem rupd_pending (o : Nat) (f : Word → Word) (s : State) : (rupd o f s).pending = s.pending := by unfold rupd; simp only [rset_pending]
@[simp] theorem rupd_cores (o : Nat) (f : Word → Word) (s : State) : (rupd o f s).cores = s.cores := by unfold rupd; simp only [rset_cores]
@[simp] theorem rupd_cols (o : Nat) (f : Word → Word) (s : State) : (rupd o f s).cols = s.cols := by unfold rupd; simp only [rset_cols]
@[simp] theorem rupd_sp (o : Nat) (f : Word → Word) (s : State) : (rupd o f s).sp = s.sp := by unfold rupd; simp only [rset_sp]
@[simp] theorem rupd_spChk (o : Nat) (f : Word → Word) (s : State) : (rupd o f s).spChk = s.spChk := by unfold rupd; simp only [rset_spChk]
@[simp] theorem rupd_spWr (o : Nat) (f : Word → Word) (s : State) : (rupd o f s).spWr = s.spWr := by unfold rupd; simp only [rset_spWr]
@[simp] theorem rupd_csram (o : Nat) (f : Word → Word) (s : State) : (rupd o f s).csram = s.csram := by unfold rupd; simp only [rset_csram]
@[simp] theorem rupd_csChk (o : Nat) (f : Word → Word) (s : State) : (rupd o f s).csChk = s.csChk := by unfold rupd; simp only [rset_csChk]
@[simp] theorem rupd_csWr (o : Nat) (f : Word → Word) (s : State) : (rupd o f s).csWr = s.csWr := by unfold rupd; simp only [rset_csWr]
@[simp] theorem rupd_csQueue (o : Nat) (f : Word → Word) (s : State) : (rupd o f s).csQueue = s.csQueue := by unfold rupd; simp only [rset_csQueue]
@[simp] theorem rupd_portResp (o : Nat) (f : Word → Word) (s : State) : (rupd o f s).portResp = s.portResp := by unfold rupd; simp only [rset_portResp]
@[simp] theorem rupd_t1 (o : Nat) (f : Word → Word) (s : State) : (rupd o f s).t1 = s.t1 := by unfold rupd; simp only [rset_t1]
@[simp] theorem rupd_t1Chk (o : Nat) (f : Word → Word) (s : State) : (rupd o f s).t1Chk = s.t1Chk := by unfold rupd; simp only [rset_t1Chk]
@[simp] theorem rupd_ftag (o : Nat) (f : Word → Word) (s : State) : (rupd o f s).ftag = s.ftag := by unfold rupd; simp only [rset_ftag]
@[simp] theorem rupd_refRate (o : Nat) (f : Word → Word) (s : State) : (rupd o f s).refRate = s.refRate := by unfold rupd; simp only [rset_refRate]
@[simp] theorem rupd_t2 (o : Nat) (f : Word → Word) (s : State) : (rupd o f s).t2 = s.t2 := by unfold rupd; simp only [rset_t2]
@[simp] theorem rupd_pools (o : Nat) (f : Word → Word) (s : State) : (rupd o f s).pools = s.pools := by unfold rupd; simp only [rset_pools]
@[simp] theorem rupd_gbarArr (o : Nat) (f : Word → Word) (s : State) : (rupd o f s).gbarArr = s.gbarArr := by unfold rupd; simp only [rset_gbarArr]
@[simp] theorem rupd_gbarEpoch (o : Nat) (f : Word → Word) (s : State) : (rupd o f s).gbarEpoch = s.gbarEpoch := by unfold rupd; simp only [rset_gbarEpoch]
@[simp] theorem rupd_lostTw (o : Nat) (f : Word → Word) (s : State) : (rupd o f s).lostTw = s.lostTw := by unfold rupd; simp only [rset_lostTw]
@[simp] theorem rupd_remote (o : Nat) (f : Word → Word) (s : State) : (rupd o f s).remote = s.remote := by unfold rupd; simp only [rset_remote]
@[simp] theorem rupd_remoteRef (o : Nat) (f : Word → Word) (s : State) : (rupd o f s).remoteRef = s.remoteRef := by unfold rupd; simp only [rset_remoteRef]
@[simp] theorem rupd_hubs (o : Nat) (f : Word → Word) (s : State) : (rupd o f s).hubs = s.hubs := by unfold rupd; simp only [rset_hubs]
@[simp] theorem rupd_ctrs (o : Nat) (f : Word → Word) (s : State) : (rupd o f s).ctrs = s.ctrs := by unfold rupd; simp only [rset_ctrs]
@[simp] theorem rupd_frozen (o : Nat) (f : Word → Word) (s : State) : (rupd o f s).frozen = s.frozen := by unfold rupd; simp only [rset_frozen]
@[simp] theorem rupd_telem (o : Nat) (f : Word → Word) (s : State) : (rupd o f s).telem = s.telem := by unfold rupd; simp only [rset_telem]
@[simp] theorem rupd_map (o : Nat) (f : Word → Word) (s : State) : (rupd o f s).map = s.map := by unfold rupd; simp only [rset_map]
@[simp] theorem rupd_parts (o : Nat) (f : Word → Word) (s : State) : (rupd o f s).parts = s.parts := by unfold rupd; simp only [rset_parts]
@[simp] theorem rupd_winMem (o : Nat) (f : Word → Word) (s : State) : (rupd o f s).winMem = s.winMem := by unfold rupd; simp only [rset_winMem]
@[simp] theorem rupd_wins (o : Nat) (f : Word → Word) (s : State) : (rupd o f s).wins = s.wins := by unfold rupd; simp only [rset_wins]
@[simp] theorem rupd_nextPkt (o : Nat) (f : Word → Word) (s : State) : (rupd o f s).nextPkt = s.nextPkt := by unfold rupd; simp only [rset_nextPkt]
@[simp] theorem rupd_d3 (o : Nat) (f : Word → Word) (s : State) : (rupd o f s).d3 = s.d3 := by unfold rupd; simp only [rset_d3]
@[simp] theorem rupd_cfg (o : Nat) (f : Word → Word) (s : State) : (rupd o f s).cfg = s.cfg := by unfold rupd; simp only [rset_cfg]
@[simp] theorem rupd_reads (o : Nat) (f : Word → Word) (s : State) : (rupd o f s).reads = s.reads := by unfold rupd; simp only [rset_reads]
@[simp] theorem rupd_nextTag (o : Nat) (f : Word → Word) (s : State) : (rupd o f s).nextTag = s.nextTag := by unfold rupd; simp only [rset_nextTag]
@[simp] theorem rupd_dmas (o : Nat) (f : Word → Word) (s : State) : (rupd o f s).dmas = s.dmas := by unfold rupd; simp only [rset_dmas]
@[simp] theorem rupd_zeroQ (o : Nat) (f : Word → Word) (s : State) : (rupd o f s).zeroQ = s.zeroQ := by unfold rupd; simp only [rset_zeroQ]
@[simp] theorem rupd_noReuse (o : Nat) (f : Word → Word) (s : State) : (rupd o f s).noReuse = s.noReuse := by unfold rupd; simp only [rset_noReuse]
@[simp] theorem rupd_reload (o : Nat) (f : Word → Word) (s : State) : (rupd o f s).reload = s.reload := by unfold rupd; simp only [rset_reload]
@[simp] theorem rupd_stage (o : Nat) (f : Word → Word) (s : State) : (rupd o f s).stage = s.stage := by unfold rupd; simp only [rset_stage]
@[simp] theorem rupd_booted (o : Nat) (f : Word → Word) (s : State) : (rupd o f s).booted = s.booted := by unfold rupd; simp only [rset_booted]
@[simp] theorem rupd_ns (o : Nat) (f : Word → Word) (s : State) : (rupd o f s).ns = s.ns := by unfold rupd; simp only [rset_ns]
@[simp] theorem rupd_fatal (o : Nat) (f : Word → Word) (s : State) : (rupd o f s).fatal = s.fatal := by unfold rupd; simp only [rset_fatal]
@[simp] theorem rupd_faultN (o : Nat) (f : Word → Word) (s : State) : (rupd o f s).faultN = s.faultN := by unfold rupd; simp only [rset_faultN]
@[simp] theorem rupd_hostOut (o : Nat) (f : Word → Word) (s : State) : (rupd o f s).hostOut = s.hostOut := by unfold rupd; simp only [rset_hostOut]
@[simp] theorem rupd_fresh (o : Nat) (f : Word → Word) (s : State) : (rupd o f s).fresh = s.fresh := by unfold rupd; simp only [rset_fresh]
@[simp] theorem rupd_pwr (o : Nat) (f : Word → Word) (s : State) : (rupd o f s).pwr = s.pwr := by unfold rupd; simp only [rset_pwr]
@[simp] theorem rupd_boot (o : Nat) (f : Word → Word) (s : State) : (rupd o f s).boot = s.boot := by unfold rupd; simp only [rset_boot]
@[simp] theorem rupd_therm (o : Nat) (f : Word → Word) (s : State) : (rupd o f s).therm = s.therm := by unfold rupd; simp only [rset_therm]
@[simp] theorem rupd_mnt (o : Nat) (f : Word → Word) (s : State) : (rupd o f s).mnt = s.mnt := by unfold rupd; simp only [rset_mnt]
@[simp] theorem rupd_sec (o : Nat) (f : Word → Word) (s : State) : (rupd o f s).sec = s.sec := by unfold rupd; simp only [rset_sec]
@[simp] theorem rupd_net (o : Nat) (f : Word → Word) (s : State) : (rupd o f s).net = s.net := by unfold rupd; simp only [rset_net]
@[simp] theorem rupd_t2q (o : Nat) (f : Word → Word) (s : State) : (rupd o f s).t2q = s.t2q := by unfold rupd; simp only [rset_t2q]
@[simp] theorem rupd_t2poison (o : Nat) (f : Word → Word) (s : State) : (rupd o f s).t2poison = s.t2poison := by unfold rupd; simp only [rset_t2poison]
@[simp] theorem rupd_fab (o : Nat) (f : Word → Word) (s : State) : (rupd o f s).fab = s.fab := by unfold rupd; simp only [rset_fab]
@[simp] theorem rupd_snap (o : Nat) (f : Word → Word) (s : State) : (rupd o f s).snap = s.snap := by unfold rupd; simp only [rset_snap]
@[simp] theorem rupd_mirror (o : Nat) (f : Word → Word) (s : State) : (rupd o f s).mirror = s.mirror := by unfold rupd; simp only [rset_mirror]

@[simp] theorem corSet_pending (c o : Nat) (w : Word) (s : State) : (corSet c o w s).pending = s.pending := by unfold corSet; simp only [rset_pending]
@[simp] theorem corSet_cores (c o : Nat) (w : Word) (s : State) : (corSet c o w s).cores = s.cores := by unfold corSet; simp only [rset_cores]
@[simp] theorem corSet_cols (c o : Nat) (w : Word) (s : State) : (corSet c o w s).cols = s.cols := by unfold corSet; simp only [rset_cols]
@[simp] theorem corSet_sp (c o : Nat) (w : Word) (s : State) : (corSet c o w s).sp = s.sp := by unfold corSet; simp only [rset_sp]
@[simp] theorem corSet_spChk (c o : Nat) (w : Word) (s : State) : (corSet c o w s).spChk = s.spChk := by unfold corSet; simp only [rset_spChk]
@[simp] theorem corSet_spWr (c o : Nat) (w : Word) (s : State) : (corSet c o w s).spWr = s.spWr := by unfold corSet; simp only [rset_spWr]
@[simp] theorem corSet_csram (c o : Nat) (w : Word) (s : State) : (corSet c o w s).csram = s.csram := by unfold corSet; simp only [rset_csram]
@[simp] theorem corSet_csChk (c o : Nat) (w : Word) (s : State) : (corSet c o w s).csChk = s.csChk := by unfold corSet; simp only [rset_csChk]
@[simp] theorem corSet_csWr (c o : Nat) (w : Word) (s : State) : (corSet c o w s).csWr = s.csWr := by unfold corSet; simp only [rset_csWr]
@[simp] theorem corSet_csQueue (c o : Nat) (w : Word) (s : State) : (corSet c o w s).csQueue = s.csQueue := by unfold corSet; simp only [rset_csQueue]
@[simp] theorem corSet_portResp (c o : Nat) (w : Word) (s : State) : (corSet c o w s).portResp = s.portResp := by unfold corSet; simp only [rset_portResp]
@[simp] theorem corSet_t1 (c o : Nat) (w : Word) (s : State) : (corSet c o w s).t1 = s.t1 := by unfold corSet; simp only [rset_t1]
@[simp] theorem corSet_t1Chk (c o : Nat) (w : Word) (s : State) : (corSet c o w s).t1Chk = s.t1Chk := by unfold corSet; simp only [rset_t1Chk]
@[simp] theorem corSet_ftag (c o : Nat) (w : Word) (s : State) : (corSet c o w s).ftag = s.ftag := by unfold corSet; simp only [rset_ftag]
@[simp] theorem corSet_refRate (c o : Nat) (w : Word) (s : State) : (corSet c o w s).refRate = s.refRate := by unfold corSet; simp only [rset_refRate]
@[simp] theorem corSet_t2 (c o : Nat) (w : Word) (s : State) : (corSet c o w s).t2 = s.t2 := by unfold corSet; simp only [rset_t2]
@[simp] theorem corSet_pools (c o : Nat) (w : Word) (s : State) : (corSet c o w s).pools = s.pools := by unfold corSet; simp only [rset_pools]
@[simp] theorem corSet_gbarArr (c o : Nat) (w : Word) (s : State) : (corSet c o w s).gbarArr = s.gbarArr := by unfold corSet; simp only [rset_gbarArr]
@[simp] theorem corSet_gbarEpoch (c o : Nat) (w : Word) (s : State) : (corSet c o w s).gbarEpoch = s.gbarEpoch := by unfold corSet; simp only [rset_gbarEpoch]
@[simp] theorem corSet_lostTw (c o : Nat) (w : Word) (s : State) : (corSet c o w s).lostTw = s.lostTw := by unfold corSet; simp only [rset_lostTw]
@[simp] theorem corSet_remote (c o : Nat) (w : Word) (s : State) : (corSet c o w s).remote = s.remote := by unfold corSet; simp only [rset_remote]
@[simp] theorem corSet_remoteRef (c o : Nat) (w : Word) (s : State) : (corSet c o w s).remoteRef = s.remoteRef := by unfold corSet; simp only [rset_remoteRef]
@[simp] theorem corSet_hubs (c o : Nat) (w : Word) (s : State) : (corSet c o w s).hubs = s.hubs := by unfold corSet; simp only [rset_hubs]
@[simp] theorem corSet_ctrs (c o : Nat) (w : Word) (s : State) : (corSet c o w s).ctrs = s.ctrs := by unfold corSet; simp only [rset_ctrs]
@[simp] theorem corSet_frozen (c o : Nat) (w : Word) (s : State) : (corSet c o w s).frozen = s.frozen := by unfold corSet; simp only [rset_frozen]
@[simp] theorem corSet_telem (c o : Nat) (w : Word) (s : State) : (corSet c o w s).telem = s.telem := by unfold corSet; simp only [rset_telem]
@[simp] theorem corSet_map (c o : Nat) (w : Word) (s : State) : (corSet c o w s).map = s.map := by unfold corSet; simp only [rset_map]
@[simp] theorem corSet_parts (c o : Nat) (w : Word) (s : State) : (corSet c o w s).parts = s.parts := by unfold corSet; simp only [rset_parts]
@[simp] theorem corSet_winMem (c o : Nat) (w : Word) (s : State) : (corSet c o w s).winMem = s.winMem := by unfold corSet; simp only [rset_winMem]
@[simp] theorem corSet_wins (c o : Nat) (w : Word) (s : State) : (corSet c o w s).wins = s.wins := by unfold corSet; simp only [rset_wins]
@[simp] theorem corSet_nextPkt (c o : Nat) (w : Word) (s : State) : (corSet c o w s).nextPkt = s.nextPkt := by unfold corSet; simp only [rset_nextPkt]
@[simp] theorem corSet_d3 (c o : Nat) (w : Word) (s : State) : (corSet c o w s).d3 = s.d3 := by unfold corSet; simp only [rset_d3]
@[simp] theorem corSet_cfg (c o : Nat) (w : Word) (s : State) : (corSet c o w s).cfg = s.cfg := by unfold corSet; simp only [rset_cfg]
@[simp] theorem corSet_reads (c o : Nat) (w : Word) (s : State) : (corSet c o w s).reads = s.reads := by unfold corSet; simp only [rset_reads]
@[simp] theorem corSet_nextTag (c o : Nat) (w : Word) (s : State) : (corSet c o w s).nextTag = s.nextTag := by unfold corSet; simp only [rset_nextTag]
@[simp] theorem corSet_dmas (c o : Nat) (w : Word) (s : State) : (corSet c o w s).dmas = s.dmas := by unfold corSet; simp only [rset_dmas]
@[simp] theorem corSet_zeroQ (c o : Nat) (w : Word) (s : State) : (corSet c o w s).zeroQ = s.zeroQ := by unfold corSet; simp only [rset_zeroQ]
@[simp] theorem corSet_noReuse (c o : Nat) (w : Word) (s : State) : (corSet c o w s).noReuse = s.noReuse := by unfold corSet; simp only [rset_noReuse]
@[simp] theorem corSet_reload (c o : Nat) (w : Word) (s : State) : (corSet c o w s).reload = s.reload := by unfold corSet; simp only [rset_reload]
@[simp] theorem corSet_stage (c o : Nat) (w : Word) (s : State) : (corSet c o w s).stage = s.stage := by unfold corSet; simp only [rset_stage]
@[simp] theorem corSet_booted (c o : Nat) (w : Word) (s : State) : (corSet c o w s).booted = s.booted := by unfold corSet; simp only [rset_booted]
@[simp] theorem corSet_ns (c o : Nat) (w : Word) (s : State) : (corSet c o w s).ns = s.ns := by unfold corSet; simp only [rset_ns]
@[simp] theorem corSet_fatal (c o : Nat) (w : Word) (s : State) : (corSet c o w s).fatal = s.fatal := by unfold corSet; simp only [rset_fatal]
@[simp] theorem corSet_faultN (c o : Nat) (w : Word) (s : State) : (corSet c o w s).faultN = s.faultN := by unfold corSet; simp only [rset_faultN]
@[simp] theorem corSet_hostOut (c o : Nat) (w : Word) (s : State) : (corSet c o w s).hostOut = s.hostOut := by unfold corSet; simp only [rset_hostOut]
@[simp] theorem corSet_fresh (c o : Nat) (w : Word) (s : State) : (corSet c o w s).fresh = s.fresh := by unfold corSet; simp only [rset_fresh]
@[simp] theorem corSet_pwr (c o : Nat) (w : Word) (s : State) : (corSet c o w s).pwr = s.pwr := by unfold corSet; simp only [rset_pwr]
@[simp] theorem corSet_boot (c o : Nat) (w : Word) (s : State) : (corSet c o w s).boot = s.boot := by unfold corSet; simp only [rset_boot]
@[simp] theorem corSet_therm (c o : Nat) (w : Word) (s : State) : (corSet c o w s).therm = s.therm := by unfold corSet; simp only [rset_therm]
@[simp] theorem corSet_mnt (c o : Nat) (w : Word) (s : State) : (corSet c o w s).mnt = s.mnt := by unfold corSet; simp only [rset_mnt]
@[simp] theorem corSet_sec (c o : Nat) (w : Word) (s : State) : (corSet c o w s).sec = s.sec := by unfold corSet; simp only [rset_sec]
@[simp] theorem corSet_net (c o : Nat) (w : Word) (s : State) : (corSet c o w s).net = s.net := by unfold corSet; simp only [rset_net]
@[simp] theorem corSet_t2q (c o : Nat) (w : Word) (s : State) : (corSet c o w s).t2q = s.t2q := by unfold corSet; simp only [rset_t2q]
@[simp] theorem corSet_t2poison (c o : Nat) (w : Word) (s : State) : (corSet c o w s).t2poison = s.t2poison := by unfold corSet; simp only [rset_t2poison]
@[simp] theorem corSet_fab (c o : Nat) (w : Word) (s : State) : (corSet c o w s).fab = s.fab := by unfold corSet; simp only [rset_fab]
@[simp] theorem corSet_snap (c o : Nat) (w : Word) (s : State) : (corSet c o w s).snap = s.snap := by unfold corSet; simp only [rset_snap]
@[simp] theorem corSet_mirror (c o : Nat) (w : Word) (s : State) : (corSet c o w s).mirror = s.mirror := by unfold corSet; simp only [rset_mirror]

@[simp] theorem corUpd_pending (c o : Nat) (f : Word → Word) (s : State) : (corUpd c o f s).pending = s.pending := by unfold corUpd; simp only [rupd_pending]
@[simp] theorem corUpd_cores (c o : Nat) (f : Word → Word) (s : State) : (corUpd c o f s).cores = s.cores := by unfold corUpd; simp only [rupd_cores]
@[simp] theorem corUpd_cols (c o : Nat) (f : Word → Word) (s : State) : (corUpd c o f s).cols = s.cols := by unfold corUpd; simp only [rupd_cols]
@[simp] theorem corUpd_sp (c o : Nat) (f : Word → Word) (s : State) : (corUpd c o f s).sp = s.sp := by unfold corUpd; simp only [rupd_sp]
@[simp] theorem corUpd_spChk (c o : Nat) (f : Word → Word) (s : State) : (corUpd c o f s).spChk = s.spChk := by unfold corUpd; simp only [rupd_spChk]
@[simp] theorem corUpd_spWr (c o : Nat) (f : Word → Word) (s : State) : (corUpd c o f s).spWr = s.spWr := by unfold corUpd; simp only [rupd_spWr]
@[simp] theorem corUpd_csram (c o : Nat) (f : Word → Word) (s : State) : (corUpd c o f s).csram = s.csram := by unfold corUpd; simp only [rupd_csram]
@[simp] theorem corUpd_csChk (c o : Nat) (f : Word → Word) (s : State) : (corUpd c o f s).csChk = s.csChk := by unfold corUpd; simp only [rupd_csChk]
@[simp] theorem corUpd_csWr (c o : Nat) (f : Word → Word) (s : State) : (corUpd c o f s).csWr = s.csWr := by unfold corUpd; simp only [rupd_csWr]
@[simp] theorem corUpd_csQueue (c o : Nat) (f : Word → Word) (s : State) : (corUpd c o f s).csQueue = s.csQueue := by unfold corUpd; simp only [rupd_csQueue]
@[simp] theorem corUpd_portResp (c o : Nat) (f : Word → Word) (s : State) : (corUpd c o f s).portResp = s.portResp := by unfold corUpd; simp only [rupd_portResp]
@[simp] theorem corUpd_t1 (c o : Nat) (f : Word → Word) (s : State) : (corUpd c o f s).t1 = s.t1 := by unfold corUpd; simp only [rupd_t1]
@[simp] theorem corUpd_t1Chk (c o : Nat) (f : Word → Word) (s : State) : (corUpd c o f s).t1Chk = s.t1Chk := by unfold corUpd; simp only [rupd_t1Chk]
@[simp] theorem corUpd_ftag (c o : Nat) (f : Word → Word) (s : State) : (corUpd c o f s).ftag = s.ftag := by unfold corUpd; simp only [rupd_ftag]
@[simp] theorem corUpd_refRate (c o : Nat) (f : Word → Word) (s : State) : (corUpd c o f s).refRate = s.refRate := by unfold corUpd; simp only [rupd_refRate]
@[simp] theorem corUpd_t2 (c o : Nat) (f : Word → Word) (s : State) : (corUpd c o f s).t2 = s.t2 := by unfold corUpd; simp only [rupd_t2]
@[simp] theorem corUpd_pools (c o : Nat) (f : Word → Word) (s : State) : (corUpd c o f s).pools = s.pools := by unfold corUpd; simp only [rupd_pools]
@[simp] theorem corUpd_gbarArr (c o : Nat) (f : Word → Word) (s : State) : (corUpd c o f s).gbarArr = s.gbarArr := by unfold corUpd; simp only [rupd_gbarArr]
@[simp] theorem corUpd_gbarEpoch (c o : Nat) (f : Word → Word) (s : State) : (corUpd c o f s).gbarEpoch = s.gbarEpoch := by unfold corUpd; simp only [rupd_gbarEpoch]
@[simp] theorem corUpd_lostTw (c o : Nat) (f : Word → Word) (s : State) : (corUpd c o f s).lostTw = s.lostTw := by unfold corUpd; simp only [rupd_lostTw]
@[simp] theorem corUpd_remote (c o : Nat) (f : Word → Word) (s : State) : (corUpd c o f s).remote = s.remote := by unfold corUpd; simp only [rupd_remote]
@[simp] theorem corUpd_remoteRef (c o : Nat) (f : Word → Word) (s : State) : (corUpd c o f s).remoteRef = s.remoteRef := by unfold corUpd; simp only [rupd_remoteRef]
@[simp] theorem corUpd_hubs (c o : Nat) (f : Word → Word) (s : State) : (corUpd c o f s).hubs = s.hubs := by unfold corUpd; simp only [rupd_hubs]
@[simp] theorem corUpd_ctrs (c o : Nat) (f : Word → Word) (s : State) : (corUpd c o f s).ctrs = s.ctrs := by unfold corUpd; simp only [rupd_ctrs]
@[simp] theorem corUpd_frozen (c o : Nat) (f : Word → Word) (s : State) : (corUpd c o f s).frozen = s.frozen := by unfold corUpd; simp only [rupd_frozen]
@[simp] theorem corUpd_telem (c o : Nat) (f : Word → Word) (s : State) : (corUpd c o f s).telem = s.telem := by unfold corUpd; simp only [rupd_telem]
@[simp] theorem corUpd_map (c o : Nat) (f : Word → Word) (s : State) : (corUpd c o f s).map = s.map := by unfold corUpd; simp only [rupd_map]
@[simp] theorem corUpd_parts (c o : Nat) (f : Word → Word) (s : State) : (corUpd c o f s).parts = s.parts := by unfold corUpd; simp only [rupd_parts]
@[simp] theorem corUpd_winMem (c o : Nat) (f : Word → Word) (s : State) : (corUpd c o f s).winMem = s.winMem := by unfold corUpd; simp only [rupd_winMem]
@[simp] theorem corUpd_wins (c o : Nat) (f : Word → Word) (s : State) : (corUpd c o f s).wins = s.wins := by unfold corUpd; simp only [rupd_wins]
@[simp] theorem corUpd_nextPkt (c o : Nat) (f : Word → Word) (s : State) : (corUpd c o f s).nextPkt = s.nextPkt := by unfold corUpd; simp only [rupd_nextPkt]
@[simp] theorem corUpd_d3 (c o : Nat) (f : Word → Word) (s : State) : (corUpd c o f s).d3 = s.d3 := by unfold corUpd; simp only [rupd_d3]
@[simp] theorem corUpd_cfg (c o : Nat) (f : Word → Word) (s : State) : (corUpd c o f s).cfg = s.cfg := by unfold corUpd; simp only [rupd_cfg]
@[simp] theorem corUpd_reads (c o : Nat) (f : Word → Word) (s : State) : (corUpd c o f s).reads = s.reads := by unfold corUpd; simp only [rupd_reads]
@[simp] theorem corUpd_nextTag (c o : Nat) (f : Word → Word) (s : State) : (corUpd c o f s).nextTag = s.nextTag := by unfold corUpd; simp only [rupd_nextTag]
@[simp] theorem corUpd_dmas (c o : Nat) (f : Word → Word) (s : State) : (corUpd c o f s).dmas = s.dmas := by unfold corUpd; simp only [rupd_dmas]
@[simp] theorem corUpd_zeroQ (c o : Nat) (f : Word → Word) (s : State) : (corUpd c o f s).zeroQ = s.zeroQ := by unfold corUpd; simp only [rupd_zeroQ]
@[simp] theorem corUpd_noReuse (c o : Nat) (f : Word → Word) (s : State) : (corUpd c o f s).noReuse = s.noReuse := by unfold corUpd; simp only [rupd_noReuse]
@[simp] theorem corUpd_reload (c o : Nat) (f : Word → Word) (s : State) : (corUpd c o f s).reload = s.reload := by unfold corUpd; simp only [rupd_reload]
@[simp] theorem corUpd_stage (c o : Nat) (f : Word → Word) (s : State) : (corUpd c o f s).stage = s.stage := by unfold corUpd; simp only [rupd_stage]
@[simp] theorem corUpd_booted (c o : Nat) (f : Word → Word) (s : State) : (corUpd c o f s).booted = s.booted := by unfold corUpd; simp only [rupd_booted]
@[simp] theorem corUpd_ns (c o : Nat) (f : Word → Word) (s : State) : (corUpd c o f s).ns = s.ns := by unfold corUpd; simp only [rupd_ns]
@[simp] theorem corUpd_fatal (c o : Nat) (f : Word → Word) (s : State) : (corUpd c o f s).fatal = s.fatal := by unfold corUpd; simp only [rupd_fatal]
@[simp] theorem corUpd_faultN (c o : Nat) (f : Word → Word) (s : State) : (corUpd c o f s).faultN = s.faultN := by unfold corUpd; simp only [rupd_faultN]
@[simp] theorem corUpd_hostOut (c o : Nat) (f : Word → Word) (s : State) : (corUpd c o f s).hostOut = s.hostOut := by unfold corUpd; simp only [rupd_hostOut]
@[simp] theorem corUpd_fresh (c o : Nat) (f : Word → Word) (s : State) : (corUpd c o f s).fresh = s.fresh := by unfold corUpd; simp only [rupd_fresh]
@[simp] theorem corUpd_pwr (c o : Nat) (f : Word → Word) (s : State) : (corUpd c o f s).pwr = s.pwr := by unfold corUpd; simp only [rupd_pwr]
@[simp] theorem corUpd_boot (c o : Nat) (f : Word → Word) (s : State) : (corUpd c o f s).boot = s.boot := by unfold corUpd; simp only [rupd_boot]
@[simp] theorem corUpd_therm (c o : Nat) (f : Word → Word) (s : State) : (corUpd c o f s).therm = s.therm := by unfold corUpd; simp only [rupd_therm]
@[simp] theorem corUpd_mnt (c o : Nat) (f : Word → Word) (s : State) : (corUpd c o f s).mnt = s.mnt := by unfold corUpd; simp only [rupd_mnt]
@[simp] theorem corUpd_sec (c o : Nat) (f : Word → Word) (s : State) : (corUpd c o f s).sec = s.sec := by unfold corUpd; simp only [rupd_sec]
@[simp] theorem corUpd_net (c o : Nat) (f : Word → Word) (s : State) : (corUpd c o f s).net = s.net := by unfold corUpd; simp only [rupd_net]
@[simp] theorem corUpd_t2q (c o : Nat) (f : Word → Word) (s : State) : (corUpd c o f s).t2q = s.t2q := by unfold corUpd; simp only [rupd_t2q]
@[simp] theorem corUpd_t2poison (c o : Nat) (f : Word → Word) (s : State) : (corUpd c o f s).t2poison = s.t2poison := by unfold corUpd; simp only [rupd_t2poison]
@[simp] theorem corUpd_fab (c o : Nat) (f : Word → Word) (s : State) : (corUpd c o f s).fab = s.fab := by unfold corUpd; simp only [rupd_fab]
@[simp] theorem corUpd_snap (c o : Nat) (f : Word → Word) (s : State) : (corUpd c o f s).snap = s.snap := by unfold corUpd; simp only [rupd_snap]
@[simp] theorem corUpd_mirror (c o : Nat) (f : Word → Word) (s : State) : (corUpd c o f s).mirror = s.mirror := by unfold corUpd; simp only [rupd_mirror]

@[simp] theorem cluSet_pending (c o : Nat) (w : Word) (s : State) : (cluSet c o w s).pending = s.pending := by unfold cluSet; simp only [rset_pending]
@[simp] theorem cluSet_cores (c o : Nat) (w : Word) (s : State) : (cluSet c o w s).cores = s.cores := by unfold cluSet; simp only [rset_cores]
@[simp] theorem cluSet_cols (c o : Nat) (w : Word) (s : State) : (cluSet c o w s).cols = s.cols := by unfold cluSet; simp only [rset_cols]
@[simp] theorem cluSet_sp (c o : Nat) (w : Word) (s : State) : (cluSet c o w s).sp = s.sp := by unfold cluSet; simp only [rset_sp]
@[simp] theorem cluSet_spChk (c o : Nat) (w : Word) (s : State) : (cluSet c o w s).spChk = s.spChk := by unfold cluSet; simp only [rset_spChk]
@[simp] theorem cluSet_spWr (c o : Nat) (w : Word) (s : State) : (cluSet c o w s).spWr = s.spWr := by unfold cluSet; simp only [rset_spWr]
@[simp] theorem cluSet_csram (c o : Nat) (w : Word) (s : State) : (cluSet c o w s).csram = s.csram := by unfold cluSet; simp only [rset_csram]
@[simp] theorem cluSet_csChk (c o : Nat) (w : Word) (s : State) : (cluSet c o w s).csChk = s.csChk := by unfold cluSet; simp only [rset_csChk]
@[simp] theorem cluSet_csWr (c o : Nat) (w : Word) (s : State) : (cluSet c o w s).csWr = s.csWr := by unfold cluSet; simp only [rset_csWr]
@[simp] theorem cluSet_csQueue (c o : Nat) (w : Word) (s : State) : (cluSet c o w s).csQueue = s.csQueue := by unfold cluSet; simp only [rset_csQueue]
@[simp] theorem cluSet_portResp (c o : Nat) (w : Word) (s : State) : (cluSet c o w s).portResp = s.portResp := by unfold cluSet; simp only [rset_portResp]
@[simp] theorem cluSet_t1 (c o : Nat) (w : Word) (s : State) : (cluSet c o w s).t1 = s.t1 := by unfold cluSet; simp only [rset_t1]
@[simp] theorem cluSet_t1Chk (c o : Nat) (w : Word) (s : State) : (cluSet c o w s).t1Chk = s.t1Chk := by unfold cluSet; simp only [rset_t1Chk]
@[simp] theorem cluSet_ftag (c o : Nat) (w : Word) (s : State) : (cluSet c o w s).ftag = s.ftag := by unfold cluSet; simp only [rset_ftag]
@[simp] theorem cluSet_refRate (c o : Nat) (w : Word) (s : State) : (cluSet c o w s).refRate = s.refRate := by unfold cluSet; simp only [rset_refRate]
@[simp] theorem cluSet_t2 (c o : Nat) (w : Word) (s : State) : (cluSet c o w s).t2 = s.t2 := by unfold cluSet; simp only [rset_t2]
@[simp] theorem cluSet_pools (c o : Nat) (w : Word) (s : State) : (cluSet c o w s).pools = s.pools := by unfold cluSet; simp only [rset_pools]
@[simp] theorem cluSet_gbarArr (c o : Nat) (w : Word) (s : State) : (cluSet c o w s).gbarArr = s.gbarArr := by unfold cluSet; simp only [rset_gbarArr]
@[simp] theorem cluSet_gbarEpoch (c o : Nat) (w : Word) (s : State) : (cluSet c o w s).gbarEpoch = s.gbarEpoch := by unfold cluSet; simp only [rset_gbarEpoch]
@[simp] theorem cluSet_lostTw (c o : Nat) (w : Word) (s : State) : (cluSet c o w s).lostTw = s.lostTw := by unfold cluSet; simp only [rset_lostTw]
@[simp] theorem cluSet_remote (c o : Nat) (w : Word) (s : State) : (cluSet c o w s).remote = s.remote := by unfold cluSet; simp only [rset_remote]
@[simp] theorem cluSet_remoteRef (c o : Nat) (w : Word) (s : State) : (cluSet c o w s).remoteRef = s.remoteRef := by unfold cluSet; simp only [rset_remoteRef]
@[simp] theorem cluSet_hubs (c o : Nat) (w : Word) (s : State) : (cluSet c o w s).hubs = s.hubs := by unfold cluSet; simp only [rset_hubs]
@[simp] theorem cluSet_ctrs (c o : Nat) (w : Word) (s : State) : (cluSet c o w s).ctrs = s.ctrs := by unfold cluSet; simp only [rset_ctrs]
@[simp] theorem cluSet_frozen (c o : Nat) (w : Word) (s : State) : (cluSet c o w s).frozen = s.frozen := by unfold cluSet; simp only [rset_frozen]
@[simp] theorem cluSet_telem (c o : Nat) (w : Word) (s : State) : (cluSet c o w s).telem = s.telem := by unfold cluSet; simp only [rset_telem]
@[simp] theorem cluSet_map (c o : Nat) (w : Word) (s : State) : (cluSet c o w s).map = s.map := by unfold cluSet; simp only [rset_map]
@[simp] theorem cluSet_parts (c o : Nat) (w : Word) (s : State) : (cluSet c o w s).parts = s.parts := by unfold cluSet; simp only [rset_parts]
@[simp] theorem cluSet_winMem (c o : Nat) (w : Word) (s : State) : (cluSet c o w s).winMem = s.winMem := by unfold cluSet; simp only [rset_winMem]
@[simp] theorem cluSet_wins (c o : Nat) (w : Word) (s : State) : (cluSet c o w s).wins = s.wins := by unfold cluSet; simp only [rset_wins]
@[simp] theorem cluSet_nextPkt (c o : Nat) (w : Word) (s : State) : (cluSet c o w s).nextPkt = s.nextPkt := by unfold cluSet; simp only [rset_nextPkt]
@[simp] theorem cluSet_d3 (c o : Nat) (w : Word) (s : State) : (cluSet c o w s).d3 = s.d3 := by unfold cluSet; simp only [rset_d3]
@[simp] theorem cluSet_cfg (c o : Nat) (w : Word) (s : State) : (cluSet c o w s).cfg = s.cfg := by unfold cluSet; simp only [rset_cfg]
@[simp] theorem cluSet_reads (c o : Nat) (w : Word) (s : State) : (cluSet c o w s).reads = s.reads := by unfold cluSet; simp only [rset_reads]
@[simp] theorem cluSet_nextTag (c o : Nat) (w : Word) (s : State) : (cluSet c o w s).nextTag = s.nextTag := by unfold cluSet; simp only [rset_nextTag]
@[simp] theorem cluSet_dmas (c o : Nat) (w : Word) (s : State) : (cluSet c o w s).dmas = s.dmas := by unfold cluSet; simp only [rset_dmas]
@[simp] theorem cluSet_zeroQ (c o : Nat) (w : Word) (s : State) : (cluSet c o w s).zeroQ = s.zeroQ := by unfold cluSet; simp only [rset_zeroQ]
@[simp] theorem cluSet_noReuse (c o : Nat) (w : Word) (s : State) : (cluSet c o w s).noReuse = s.noReuse := by unfold cluSet; simp only [rset_noReuse]
@[simp] theorem cluSet_reload (c o : Nat) (w : Word) (s : State) : (cluSet c o w s).reload = s.reload := by unfold cluSet; simp only [rset_reload]
@[simp] theorem cluSet_stage (c o : Nat) (w : Word) (s : State) : (cluSet c o w s).stage = s.stage := by unfold cluSet; simp only [rset_stage]
@[simp] theorem cluSet_booted (c o : Nat) (w : Word) (s : State) : (cluSet c o w s).booted = s.booted := by unfold cluSet; simp only [rset_booted]
@[simp] theorem cluSet_ns (c o : Nat) (w : Word) (s : State) : (cluSet c o w s).ns = s.ns := by unfold cluSet; simp only [rset_ns]
@[simp] theorem cluSet_fatal (c o : Nat) (w : Word) (s : State) : (cluSet c o w s).fatal = s.fatal := by unfold cluSet; simp only [rset_fatal]
@[simp] theorem cluSet_faultN (c o : Nat) (w : Word) (s : State) : (cluSet c o w s).faultN = s.faultN := by unfold cluSet; simp only [rset_faultN]
@[simp] theorem cluSet_hostOut (c o : Nat) (w : Word) (s : State) : (cluSet c o w s).hostOut = s.hostOut := by unfold cluSet; simp only [rset_hostOut]
@[simp] theorem cluSet_fresh (c o : Nat) (w : Word) (s : State) : (cluSet c o w s).fresh = s.fresh := by unfold cluSet; simp only [rset_fresh]
@[simp] theorem cluSet_pwr (c o : Nat) (w : Word) (s : State) : (cluSet c o w s).pwr = s.pwr := by unfold cluSet; simp only [rset_pwr]
@[simp] theorem cluSet_boot (c o : Nat) (w : Word) (s : State) : (cluSet c o w s).boot = s.boot := by unfold cluSet; simp only [rset_boot]
@[simp] theorem cluSet_therm (c o : Nat) (w : Word) (s : State) : (cluSet c o w s).therm = s.therm := by unfold cluSet; simp only [rset_therm]
@[simp] theorem cluSet_mnt (c o : Nat) (w : Word) (s : State) : (cluSet c o w s).mnt = s.mnt := by unfold cluSet; simp only [rset_mnt]
@[simp] theorem cluSet_sec (c o : Nat) (w : Word) (s : State) : (cluSet c o w s).sec = s.sec := by unfold cluSet; simp only [rset_sec]
@[simp] theorem cluSet_net (c o : Nat) (w : Word) (s : State) : (cluSet c o w s).net = s.net := by unfold cluSet; simp only [rset_net]
@[simp] theorem cluSet_t2q (c o : Nat) (w : Word) (s : State) : (cluSet c o w s).t2q = s.t2q := by unfold cluSet; simp only [rset_t2q]
@[simp] theorem cluSet_t2poison (c o : Nat) (w : Word) (s : State) : (cluSet c o w s).t2poison = s.t2poison := by unfold cluSet; simp only [rset_t2poison]
@[simp] theorem cluSet_fab (c o : Nat) (w : Word) (s : State) : (cluSet c o w s).fab = s.fab := by unfold cluSet; simp only [rset_fab]
@[simp] theorem cluSet_snap (c o : Nat) (w : Word) (s : State) : (cluSet c o w s).snap = s.snap := by unfold cluSet; simp only [rset_snap]
@[simp] theorem cluSet_mirror (c o : Nat) (w : Word) (s : State) : (cluSet c o w s).mirror = s.mirror := by unfold cluSet; simp only [rset_mirror]

@[simp] theorem cluUpd_pending (c o : Nat) (f : Word → Word) (s : State) : (cluUpd c o f s).pending = s.pending := by unfold cluUpd; simp only [rupd_pending]
@[simp] theorem cluUpd_cores (c o : Nat) (f : Word → Word) (s : State) : (cluUpd c o f s).cores = s.cores := by unfold cluUpd; simp only [rupd_cores]
@[simp] theorem cluUpd_cols (c o : Nat) (f : Word → Word) (s : State) : (cluUpd c o f s).cols = s.cols := by unfold cluUpd; simp only [rupd_cols]
@[simp] theorem cluUpd_sp (c o : Nat) (f : Word → Word) (s : State) : (cluUpd c o f s).sp = s.sp := by unfold cluUpd; simp only [rupd_sp]
@[simp] theorem cluUpd_spChk (c o : Nat) (f : Word → Word) (s : State) : (cluUpd c o f s).spChk = s.spChk := by unfold cluUpd; simp only [rupd_spChk]
@[simp] theorem cluUpd_spWr (c o : Nat) (f : Word → Word) (s : State) : (cluUpd c o f s).spWr = s.spWr := by unfold cluUpd; simp only [rupd_spWr]
@[simp] theorem cluUpd_csram (c o : Nat) (f : Word → Word) (s : State) : (cluUpd c o f s).csram = s.csram := by unfold cluUpd; simp only [rupd_csram]
@[simp] theorem cluUpd_csChk (c o : Nat) (f : Word → Word) (s : State) : (cluUpd c o f s).csChk = s.csChk := by unfold cluUpd; simp only [rupd_csChk]
@[simp] theorem cluUpd_csWr (c o : Nat) (f : Word → Word) (s : State) : (cluUpd c o f s).csWr = s.csWr := by unfold cluUpd; simp only [rupd_csWr]
@[simp] theorem cluUpd_csQueue (c o : Nat) (f : Word → Word) (s : State) : (cluUpd c o f s).csQueue = s.csQueue := by unfold cluUpd; simp only [rupd_csQueue]
@[simp] theorem cluUpd_portResp (c o : Nat) (f : Word → Word) (s : State) : (cluUpd c o f s).portResp = s.portResp := by unfold cluUpd; simp only [rupd_portResp]
@[simp] theorem cluUpd_t1 (c o : Nat) (f : Word → Word) (s : State) : (cluUpd c o f s).t1 = s.t1 := by unfold cluUpd; simp only [rupd_t1]
@[simp] theorem cluUpd_t1Chk (c o : Nat) (f : Word → Word) (s : State) : (cluUpd c o f s).t1Chk = s.t1Chk := by unfold cluUpd; simp only [rupd_t1Chk]
@[simp] theorem cluUpd_ftag (c o : Nat) (f : Word → Word) (s : State) : (cluUpd c o f s).ftag = s.ftag := by unfold cluUpd; simp only [rupd_ftag]
@[simp] theorem cluUpd_refRate (c o : Nat) (f : Word → Word) (s : State) : (cluUpd c o f s).refRate = s.refRate := by unfold cluUpd; simp only [rupd_refRate]
@[simp] theorem cluUpd_t2 (c o : Nat) (f : Word → Word) (s : State) : (cluUpd c o f s).t2 = s.t2 := by unfold cluUpd; simp only [rupd_t2]
@[simp] theorem cluUpd_pools (c o : Nat) (f : Word → Word) (s : State) : (cluUpd c o f s).pools = s.pools := by unfold cluUpd; simp only [rupd_pools]
@[simp] theorem cluUpd_gbarArr (c o : Nat) (f : Word → Word) (s : State) : (cluUpd c o f s).gbarArr = s.gbarArr := by unfold cluUpd; simp only [rupd_gbarArr]
@[simp] theorem cluUpd_gbarEpoch (c o : Nat) (f : Word → Word) (s : State) : (cluUpd c o f s).gbarEpoch = s.gbarEpoch := by unfold cluUpd; simp only [rupd_gbarEpoch]
@[simp] theorem cluUpd_lostTw (c o : Nat) (f : Word → Word) (s : State) : (cluUpd c o f s).lostTw = s.lostTw := by unfold cluUpd; simp only [rupd_lostTw]
@[simp] theorem cluUpd_remote (c o : Nat) (f : Word → Word) (s : State) : (cluUpd c o f s).remote = s.remote := by unfold cluUpd; simp only [rupd_remote]
@[simp] theorem cluUpd_remoteRef (c o : Nat) (f : Word → Word) (s : State) : (cluUpd c o f s).remoteRef = s.remoteRef := by unfold cluUpd; simp only [rupd_remoteRef]
@[simp] theorem cluUpd_hubs (c o : Nat) (f : Word → Word) (s : State) : (cluUpd c o f s).hubs = s.hubs := by unfold cluUpd; simp only [rupd_hubs]
@[simp] theorem cluUpd_ctrs (c o : Nat) (f : Word → Word) (s : State) : (cluUpd c o f s).ctrs = s.ctrs := by unfold cluUpd; simp only [rupd_ctrs]
@[simp] theorem cluUpd_frozen (c o : Nat) (f : Word → Word) (s : State) : (cluUpd c o f s).frozen = s.frozen := by unfold cluUpd; simp only [rupd_frozen]
@[simp] theorem cluUpd_telem (c o : Nat) (f : Word → Word) (s : State) : (cluUpd c o f s).telem = s.telem := by unfold cluUpd; simp only [rupd_telem]
@[simp] theorem cluUpd_map (c o : Nat) (f : Word → Word) (s : State) : (cluUpd c o f s).map = s.map := by unfold cluUpd; simp only [rupd_map]
@[simp] theorem cluUpd_parts (c o : Nat) (f : Word → Word) (s : State) : (cluUpd c o f s).parts = s.parts := by unfold cluUpd; simp only [rupd_parts]
@[simp] theorem cluUpd_winMem (c o : Nat) (f : Word → Word) (s : State) : (cluUpd c o f s).winMem = s.winMem := by unfold cluUpd; simp only [rupd_winMem]
@[simp] theorem cluUpd_wins (c o : Nat) (f : Word → Word) (s : State) : (cluUpd c o f s).wins = s.wins := by unfold cluUpd; simp only [rupd_wins]
@[simp] theorem cluUpd_nextPkt (c o : Nat) (f : Word → Word) (s : State) : (cluUpd c o f s).nextPkt = s.nextPkt := by unfold cluUpd; simp only [rupd_nextPkt]
@[simp] theorem cluUpd_d3 (c o : Nat) (f : Word → Word) (s : State) : (cluUpd c o f s).d3 = s.d3 := by unfold cluUpd; simp only [rupd_d3]
@[simp] theorem cluUpd_cfg (c o : Nat) (f : Word → Word) (s : State) : (cluUpd c o f s).cfg = s.cfg := by unfold cluUpd; simp only [rupd_cfg]
@[simp] theorem cluUpd_reads (c o : Nat) (f : Word → Word) (s : State) : (cluUpd c o f s).reads = s.reads := by unfold cluUpd; simp only [rupd_reads]
@[simp] theorem cluUpd_nextTag (c o : Nat) (f : Word → Word) (s : State) : (cluUpd c o f s).nextTag = s.nextTag := by unfold cluUpd; simp only [rupd_nextTag]
@[simp] theorem cluUpd_dmas (c o : Nat) (f : Word → Word) (s : State) : (cluUpd c o f s).dmas = s.dmas := by unfold cluUpd; simp only [rupd_dmas]
@[simp] theorem cluUpd_zeroQ (c o : Nat) (f : Word → Word) (s : State) : (cluUpd c o f s).zeroQ = s.zeroQ := by unfold cluUpd; simp only [rupd_zeroQ]
@[simp] theorem cluUpd_noReuse (c o : Nat) (f : Word → Word) (s : State) : (cluUpd c o f s).noReuse = s.noReuse := by unfold cluUpd; simp only [rupd_noReuse]
@[simp] theorem cluUpd_reload (c o : Nat) (f : Word → Word) (s : State) : (cluUpd c o f s).reload = s.reload := by unfold cluUpd; simp only [rupd_reload]
@[simp] theorem cluUpd_stage (c o : Nat) (f : Word → Word) (s : State) : (cluUpd c o f s).stage = s.stage := by unfold cluUpd; simp only [rupd_stage]
@[simp] theorem cluUpd_booted (c o : Nat) (f : Word → Word) (s : State) : (cluUpd c o f s).booted = s.booted := by unfold cluUpd; simp only [rupd_booted]
@[simp] theorem cluUpd_ns (c o : Nat) (f : Word → Word) (s : State) : (cluUpd c o f s).ns = s.ns := by unfold cluUpd; simp only [rupd_ns]
@[simp] theorem cluUpd_fatal (c o : Nat) (f : Word → Word) (s : State) : (cluUpd c o f s).fatal = s.fatal := by unfold cluUpd; simp only [rupd_fatal]
@[simp] theorem cluUpd_faultN (c o : Nat) (f : Word → Word) (s : State) : (cluUpd c o f s).faultN = s.faultN := by unfold cluUpd; simp only [rupd_faultN]
@[simp] theorem cluUpd_hostOut (c o : Nat) (f : Word → Word) (s : State) : (cluUpd c o f s).hostOut = s.hostOut := by unfold cluUpd; simp only [rupd_hostOut]
@[simp] theorem cluUpd_fresh (c o : Nat) (f : Word → Word) (s : State) : (cluUpd c o f s).fresh = s.fresh := by unfold cluUpd; simp only [rupd_fresh]
@[simp] theorem cluUpd_pwr (c o : Nat) (f : Word → Word) (s : State) : (cluUpd c o f s).pwr = s.pwr := by unfold cluUpd; simp only [rupd_pwr]
@[simp] theorem cluUpd_boot (c o : Nat) (f : Word → Word) (s : State) : (cluUpd c o f s).boot = s.boot := by unfold cluUpd; simp only [rupd_boot]
@[simp] theorem cluUpd_therm (c o : Nat) (f : Word → Word) (s : State) : (cluUpd c o f s).therm = s.therm := by unfold cluUpd; simp only [rupd_therm]
@[simp] theorem cluUpd_mnt (c o : Nat) (f : Word → Word) (s : State) : (cluUpd c o f s).mnt = s.mnt := by unfold cluUpd; simp only [rupd_mnt]
@[simp] theorem cluUpd_sec (c o : Nat) (f : Word → Word) (s : State) : (cluUpd c o f s).sec = s.sec := by unfold cluUpd; simp only [rupd_sec]
@[simp] theorem cluUpd_net (c o : Nat) (f : Word → Word) (s : State) : (cluUpd c o f s).net = s.net := by unfold cluUpd; simp only [rupd_net]
@[simp] theorem cluUpd_t2q (c o : Nat) (f : Word → Word) (s : State) : (cluUpd c o f s).t2q = s.t2q := by unfold cluUpd; simp only [rupd_t2q]
@[simp] theorem cluUpd_t2poison (c o : Nat) (f : Word → Word) (s : State) : (cluUpd c o f s).t2poison = s.t2poison := by unfold cluUpd; simp only [rupd_t2poison]
@[simp] theorem cluUpd_fab (c o : Nat) (f : Word → Word) (s : State) : (cluUpd c o f s).fab = s.fab := by unfold cluUpd; simp only [rupd_fab]
@[simp] theorem cluUpd_snap (c o : Nat) (f : Word → Word) (s : State) : (cluUpd c o f s).snap = s.snap := by unfold cluUpd; simp only [rupd_snap]
@[simp] theorem cluUpd_mirror (c o : Nat) (f : Word → Word) (s : State) : (cluUpd c o f s).mirror = s.mirror := by unfold cluUpd; simp only [rupd_mirror]

@[simp] theorem cset_pending (c : Nat) (v : CoreSt) (s : State) : (cset c v s).pending = s.pending := by simp only [cset]
@[simp] theorem cset_regs (c : Nat) (v : CoreSt) (s : State) : (cset c v s).regs = s.regs := by simp only [cset]
@[simp] theorem cset_cols (c : Nat) (v : CoreSt) (s : State) : (cset c v s).cols = s.cols := by simp only [cset]
@[simp] theorem cset_sp (c : Nat) (v : CoreSt) (s : State) : (cset c v s).sp = s.sp := by simp only [cset]
@[simp] theorem cset_spChk (c : Nat) (v : CoreSt) (s : State) : (cset c v s).spChk = s.spChk := by simp only [cset]
@[simp] theorem cset_spWr (c : Nat) (v : CoreSt) (s : State) : (cset c v s).spWr = s.spWr := by simp only [cset]
@[simp] theorem cset_csram (c : Nat) (v : CoreSt) (s : State) : (cset c v s).csram = s.csram := by simp only [cset]
@[simp] theorem cset_csChk (c : Nat) (v : CoreSt) (s : State) : (cset c v s).csChk = s.csChk := by simp only [cset]
@[simp] theorem cset_csWr (c : Nat) (v : CoreSt) (s : State) : (cset c v s).csWr = s.csWr := by simp only [cset]
@[simp] theorem cset_csQueue (c : Nat) (v : CoreSt) (s : State) : (cset c v s).csQueue = s.csQueue := by simp only [cset]
@[simp] theorem cset_portResp (c : Nat) (v : CoreSt) (s : State) : (cset c v s).portResp = s.portResp := by simp only [cset]
@[simp] theorem cset_t1 (c : Nat) (v : CoreSt) (s : State) : (cset c v s).t1 = s.t1 := by simp only [cset]
@[simp] theorem cset_t1Chk (c : Nat) (v : CoreSt) (s : State) : (cset c v s).t1Chk = s.t1Chk := by simp only [cset]
@[simp] theorem cset_ftag (c : Nat) (v : CoreSt) (s : State) : (cset c v s).ftag = s.ftag := by simp only [cset]
@[simp] theorem cset_refRate (c : Nat) (v : CoreSt) (s : State) : (cset c v s).refRate = s.refRate := by simp only [cset]
@[simp] theorem cset_t2 (c : Nat) (v : CoreSt) (s : State) : (cset c v s).t2 = s.t2 := by simp only [cset]
@[simp] theorem cset_pools (c : Nat) (v : CoreSt) (s : State) : (cset c v s).pools = s.pools := by simp only [cset]
@[simp] theorem cset_gbarArr (c : Nat) (v : CoreSt) (s : State) : (cset c v s).gbarArr = s.gbarArr := by simp only [cset]
@[simp] theorem cset_gbarEpoch (c : Nat) (v : CoreSt) (s : State) : (cset c v s).gbarEpoch = s.gbarEpoch := by simp only [cset]
@[simp] theorem cset_lostTw (c : Nat) (v : CoreSt) (s : State) : (cset c v s).lostTw = s.lostTw := by simp only [cset]
@[simp] theorem cset_remote (c : Nat) (v : CoreSt) (s : State) : (cset c v s).remote = s.remote := by simp only [cset]
@[simp] theorem cset_remoteRef (c : Nat) (v : CoreSt) (s : State) : (cset c v s).remoteRef = s.remoteRef := by simp only [cset]
@[simp] theorem cset_hubs (c : Nat) (v : CoreSt) (s : State) : (cset c v s).hubs = s.hubs := by simp only [cset]
@[simp] theorem cset_ctrs (c : Nat) (v : CoreSt) (s : State) : (cset c v s).ctrs = s.ctrs := by simp only [cset]
@[simp] theorem cset_frozen (c : Nat) (v : CoreSt) (s : State) : (cset c v s).frozen = s.frozen := by simp only [cset]
@[simp] theorem cset_telem (c : Nat) (v : CoreSt) (s : State) : (cset c v s).telem = s.telem := by simp only [cset]
@[simp] theorem cset_map (c : Nat) (v : CoreSt) (s : State) : (cset c v s).map = s.map := by simp only [cset]
@[simp] theorem cset_parts (c : Nat) (v : CoreSt) (s : State) : (cset c v s).parts = s.parts := by simp only [cset]
@[simp] theorem cset_winMem (c : Nat) (v : CoreSt) (s : State) : (cset c v s).winMem = s.winMem := by simp only [cset]
@[simp] theorem cset_wins (c : Nat) (v : CoreSt) (s : State) : (cset c v s).wins = s.wins := by simp only [cset]
@[simp] theorem cset_nextPkt (c : Nat) (v : CoreSt) (s : State) : (cset c v s).nextPkt = s.nextPkt := by simp only [cset]
@[simp] theorem cset_d3 (c : Nat) (v : CoreSt) (s : State) : (cset c v s).d3 = s.d3 := by simp only [cset]
@[simp] theorem cset_cfg (c : Nat) (v : CoreSt) (s : State) : (cset c v s).cfg = s.cfg := by simp only [cset]
@[simp] theorem cset_reads (c : Nat) (v : CoreSt) (s : State) : (cset c v s).reads = s.reads := by simp only [cset]
@[simp] theorem cset_nextTag (c : Nat) (v : CoreSt) (s : State) : (cset c v s).nextTag = s.nextTag := by simp only [cset]
@[simp] theorem cset_dmas (c : Nat) (v : CoreSt) (s : State) : (cset c v s).dmas = s.dmas := by simp only [cset]
@[simp] theorem cset_zeroQ (c : Nat) (v : CoreSt) (s : State) : (cset c v s).zeroQ = s.zeroQ := by simp only [cset]
@[simp] theorem cset_noReuse (c : Nat) (v : CoreSt) (s : State) : (cset c v s).noReuse = s.noReuse := by simp only [cset]
@[simp] theorem cset_reload (c : Nat) (v : CoreSt) (s : State) : (cset c v s).reload = s.reload := by simp only [cset]
@[simp] theorem cset_stage (c : Nat) (v : CoreSt) (s : State) : (cset c v s).stage = s.stage := by simp only [cset]
@[simp] theorem cset_booted (c : Nat) (v : CoreSt) (s : State) : (cset c v s).booted = s.booted := by simp only [cset]
@[simp] theorem cset_ns (c : Nat) (v : CoreSt) (s : State) : (cset c v s).ns = s.ns := by simp only [cset]
@[simp] theorem cset_fatal (c : Nat) (v : CoreSt) (s : State) : (cset c v s).fatal = s.fatal := by simp only [cset]
@[simp] theorem cset_faultN (c : Nat) (v : CoreSt) (s : State) : (cset c v s).faultN = s.faultN := by simp only [cset]
@[simp] theorem cset_hostOut (c : Nat) (v : CoreSt) (s : State) : (cset c v s).hostOut = s.hostOut := by simp only [cset]
@[simp] theorem cset_fresh (c : Nat) (v : CoreSt) (s : State) : (cset c v s).fresh = s.fresh := by simp only [cset]
@[simp] theorem cset_pwr (c : Nat) (v : CoreSt) (s : State) : (cset c v s).pwr = s.pwr := by simp only [cset]
@[simp] theorem cset_boot (c : Nat) (v : CoreSt) (s : State) : (cset c v s).boot = s.boot := by simp only [cset]
@[simp] theorem cset_therm (c : Nat) (v : CoreSt) (s : State) : (cset c v s).therm = s.therm := by simp only [cset]
@[simp] theorem cset_mnt (c : Nat) (v : CoreSt) (s : State) : (cset c v s).mnt = s.mnt := by simp only [cset]
@[simp] theorem cset_sec (c : Nat) (v : CoreSt) (s : State) : (cset c v s).sec = s.sec := by simp only [cset]
@[simp] theorem cset_net (c : Nat) (v : CoreSt) (s : State) : (cset c v s).net = s.net := by simp only [cset]
@[simp] theorem cset_t2q (c : Nat) (v : CoreSt) (s : State) : (cset c v s).t2q = s.t2q := by simp only [cset]
@[simp] theorem cset_t2poison (c : Nat) (v : CoreSt) (s : State) : (cset c v s).t2poison = s.t2poison := by simp only [cset]
@[simp] theorem cset_fab (c : Nat) (v : CoreSt) (s : State) : (cset c v s).fab = s.fab := by simp only [cset]
@[simp] theorem cset_snap (c : Nat) (v : CoreSt) (s : State) : (cset c v s).snap = s.snap := by simp only [cset]
@[simp] theorem cset_mirror (c : Nat) (v : CoreSt) (s : State) : (cset c v s).mirror = s.mirror := by simp only [cset]

@[simp] theorem cupd_pending (c : Nat) (f : CoreSt → CoreSt) (s : State) : (cupd c f s).pending = s.pending := by unfold cupd; simp only [cset_pending]
@[simp] theorem cupd_regs (c : Nat) (f : CoreSt → CoreSt) (s : State) : (cupd c f s).regs = s.regs := by unfold cupd; simp only [cset_regs]
@[simp] theorem cupd_cols (c : Nat) (f : CoreSt → CoreSt) (s : State) : (cupd c f s).cols = s.cols := by unfold cupd; simp only [cset_cols]
@[simp] theorem cupd_sp (c : Nat) (f : CoreSt → CoreSt) (s : State) : (cupd c f s).sp = s.sp := by unfold cupd; simp only [cset_sp]
@[simp] theorem cupd_spChk (c : Nat) (f : CoreSt → CoreSt) (s : State) : (cupd c f s).spChk = s.spChk := by unfold cupd; simp only [cset_spChk]
@[simp] theorem cupd_spWr (c : Nat) (f : CoreSt → CoreSt) (s : State) : (cupd c f s).spWr = s.spWr := by unfold cupd; simp only [cset_spWr]
@[simp] theorem cupd_csram (c : Nat) (f : CoreSt → CoreSt) (s : State) : (cupd c f s).csram = s.csram := by unfold cupd; simp only [cset_csram]
@[simp] theorem cupd_csChk (c : Nat) (f : CoreSt → CoreSt) (s : State) : (cupd c f s).csChk = s.csChk := by unfold cupd; simp only [cset_csChk]
@[simp] theorem cupd_csWr (c : Nat) (f : CoreSt → CoreSt) (s : State) : (cupd c f s).csWr = s.csWr := by unfold cupd; simp only [cset_csWr]
@[simp] theorem cupd_csQueue (c : Nat) (f : CoreSt → CoreSt) (s : State) : (cupd c f s).csQueue = s.csQueue := by unfold cupd; simp only [cset_csQueue]
@[simp] theorem cupd_portResp (c : Nat) (f : CoreSt → CoreSt) (s : State) : (cupd c f s).portResp = s.portResp := by unfold cupd; simp only [cset_portResp]
@[simp] theorem cupd_t1 (c : Nat) (f : CoreSt → CoreSt) (s : State) : (cupd c f s).t1 = s.t1 := by unfold cupd; simp only [cset_t1]
@[simp] theorem cupd_t1Chk (c : Nat) (f : CoreSt → CoreSt) (s : State) : (cupd c f s).t1Chk = s.t1Chk := by unfold cupd; simp only [cset_t1Chk]
@[simp] theorem cupd_ftag (c : Nat) (f : CoreSt → CoreSt) (s : State) : (cupd c f s).ftag = s.ftag := by unfold cupd; simp only [cset_ftag]
@[simp] theorem cupd_refRate (c : Nat) (f : CoreSt → CoreSt) (s : State) : (cupd c f s).refRate = s.refRate := by unfold cupd; simp only [cset_refRate]
@[simp] theorem cupd_t2 (c : Nat) (f : CoreSt → CoreSt) (s : State) : (cupd c f s).t2 = s.t2 := by unfold cupd; simp only [cset_t2]
@[simp] theorem cupd_pools (c : Nat) (f : CoreSt → CoreSt) (s : State) : (cupd c f s).pools = s.pools := by unfold cupd; simp only [cset_pools]
@[simp] theorem cupd_gbarArr (c : Nat) (f : CoreSt → CoreSt) (s : State) : (cupd c f s).gbarArr = s.gbarArr := by unfold cupd; simp only [cset_gbarArr]
@[simp] theorem cupd_gbarEpoch (c : Nat) (f : CoreSt → CoreSt) (s : State) : (cupd c f s).gbarEpoch = s.gbarEpoch := by unfold cupd; simp only [cset_gbarEpoch]
@[simp] theorem cupd_lostTw (c : Nat) (f : CoreSt → CoreSt) (s : State) : (cupd c f s).lostTw = s.lostTw := by unfold cupd; simp only [cset_lostTw]
@[simp] theorem cupd_remote (c : Nat) (f : CoreSt → CoreSt) (s : State) : (cupd c f s).remote = s.remote := by unfold cupd; simp only [cset_remote]
@[simp] theorem cupd_remoteRef (c : Nat) (f : CoreSt → CoreSt) (s : State) : (cupd c f s).remoteRef = s.remoteRef := by unfold cupd; simp only [cset_remoteRef]
@[simp] theorem cupd_hubs (c : Nat) (f : CoreSt → CoreSt) (s : State) : (cupd c f s).hubs = s.hubs := by unfold cupd; simp only [cset_hubs]
@[simp] theorem cupd_ctrs (c : Nat) (f : CoreSt → CoreSt) (s : State) : (cupd c f s).ctrs = s.ctrs := by unfold cupd; simp only [cset_ctrs]
@[simp] theorem cupd_frozen (c : Nat) (f : CoreSt → CoreSt) (s : State) : (cupd c f s).frozen = s.frozen := by unfold cupd; simp only [cset_frozen]
@[simp] theorem cupd_telem (c : Nat) (f : CoreSt → CoreSt) (s : State) : (cupd c f s).telem = s.telem := by unfold cupd; simp only [cset_telem]
@[simp] theorem cupd_map (c : Nat) (f : CoreSt → CoreSt) (s : State) : (cupd c f s).map = s.map := by unfold cupd; simp only [cset_map]
@[simp] theorem cupd_parts (c : Nat) (f : CoreSt → CoreSt) (s : State) : (cupd c f s).parts = s.parts := by unfold cupd; simp only [cset_parts]
@[simp] theorem cupd_winMem (c : Nat) (f : CoreSt → CoreSt) (s : State) : (cupd c f s).winMem = s.winMem := by unfold cupd; simp only [cset_winMem]
@[simp] theorem cupd_wins (c : Nat) (f : CoreSt → CoreSt) (s : State) : (cupd c f s).wins = s.wins := by unfold cupd; simp only [cset_wins]
@[simp] theorem cupd_nextPkt (c : Nat) (f : CoreSt → CoreSt) (s : State) : (cupd c f s).nextPkt = s.nextPkt := by unfold cupd; simp only [cset_nextPkt]
@[simp] theorem cupd_d3 (c : Nat) (f : CoreSt → CoreSt) (s : State) : (cupd c f s).d3 = s.d3 := by unfold cupd; simp only [cset_d3]
@[simp] theorem cupd_cfg (c : Nat) (f : CoreSt → CoreSt) (s : State) : (cupd c f s).cfg = s.cfg := by unfold cupd; simp only [cset_cfg]
@[simp] theorem cupd_reads (c : Nat) (f : CoreSt → CoreSt) (s : State) : (cupd c f s).reads = s.reads := by unfold cupd; simp only [cset_reads]
@[simp] theorem cupd_nextTag (c : Nat) (f : CoreSt → CoreSt) (s : State) : (cupd c f s).nextTag = s.nextTag := by unfold cupd; simp only [cset_nextTag]
@[simp] theorem cupd_dmas (c : Nat) (f : CoreSt → CoreSt) (s : State) : (cupd c f s).dmas = s.dmas := by unfold cupd; simp only [cset_dmas]
@[simp] theorem cupd_zeroQ (c : Nat) (f : CoreSt → CoreSt) (s : State) : (cupd c f s).zeroQ = s.zeroQ := by unfold cupd; simp only [cset_zeroQ]
@[simp] theorem cupd_noReuse (c : Nat) (f : CoreSt → CoreSt) (s : State) : (cupd c f s).noReuse = s.noReuse := by unfold cupd; simp only [cset_noReuse]
@[simp] theorem cupd_reload (c : Nat) (f : CoreSt → CoreSt) (s : State) : (cupd c f s).reload = s.reload := by unfold cupd; simp only [cset_reload]
@[simp] theorem cupd_stage (c : Nat) (f : CoreSt → CoreSt) (s : State) : (cupd c f s).stage = s.stage := by unfold cupd; simp only [cset_stage]
@[simp] theorem cupd_booted (c : Nat) (f : CoreSt → CoreSt) (s : State) : (cupd c f s).booted = s.booted := by unfold cupd; simp only [cset_booted]
@[simp] theorem cupd_ns (c : Nat) (f : CoreSt → CoreSt) (s : State) : (cupd c f s).ns = s.ns := by unfold cupd; simp only [cset_ns]
@[simp] theorem cupd_fatal (c : Nat) (f : CoreSt → CoreSt) (s : State) : (cupd c f s).fatal = s.fatal := by unfold cupd; simp only [cset_fatal]
@[simp] theorem cupd_faultN (c : Nat) (f : CoreSt → CoreSt) (s : State) : (cupd c f s).faultN = s.faultN := by unfold cupd; simp only [cset_faultN]
@[simp] theorem cupd_hostOut (c : Nat) (f : CoreSt → CoreSt) (s : State) : (cupd c f s).hostOut = s.hostOut := by unfold cupd; simp only [cset_hostOut]
@[simp] theorem cupd_fresh (c : Nat) (f : CoreSt → CoreSt) (s : State) : (cupd c f s).fresh = s.fresh := by unfold cupd; simp only [cset_fresh]
@[simp] theorem cupd_pwr (c : Nat) (f : CoreSt → CoreSt) (s : State) : (cupd c f s).pwr = s.pwr := by unfold cupd; simp only [cset_pwr]
@[simp] theorem cupd_boot (c : Nat) (f : CoreSt → CoreSt) (s : State) : (cupd c f s).boot = s.boot := by unfold cupd; simp only [cset_boot]
@[simp] theorem cupd_therm (c : Nat) (f : CoreSt → CoreSt) (s : State) : (cupd c f s).therm = s.therm := by unfold cupd; simp only [cset_therm]
@[simp] theorem cupd_mnt (c : Nat) (f : CoreSt → CoreSt) (s : State) : (cupd c f s).mnt = s.mnt := by unfold cupd; simp only [cset_mnt]
@[simp] theorem cupd_sec (c : Nat) (f : CoreSt → CoreSt) (s : State) : (cupd c f s).sec = s.sec := by unfold cupd; simp only [cset_sec]
@[simp] theorem cupd_net (c : Nat) (f : CoreSt → CoreSt) (s : State) : (cupd c f s).net = s.net := by unfold cupd; simp only [cset_net]
@[simp] theorem cupd_t2q (c : Nat) (f : CoreSt → CoreSt) (s : State) : (cupd c f s).t2q = s.t2q := by unfold cupd; simp only [cset_t2q]
@[simp] theorem cupd_t2poison (c : Nat) (f : CoreSt → CoreSt) (s : State) : (cupd c f s).t2poison = s.t2poison := by unfold cupd; simp only [cset_t2poison]
@[simp] theorem cupd_fab (c : Nat) (f : CoreSt → CoreSt) (s : State) : (cupd c f s).fab = s.fab := by unfold cupd; simp only [cset_fab]
@[simp] theorem cupd_snap (c : Nat) (f : CoreSt → CoreSt) (s : State) : (cupd c f s).snap = s.snap := by unfold cupd; simp only [cset_snap]
@[simp] theorem cupd_mirror (c : Nat) (f : CoreSt → CoreSt) (s : State) : (cupd c f s).mirror = s.mirror := by unfold cupd; simp only [cset_mirror]

@[simp] theorem squpd_pending (c : Nat) (f : SeqSt → SeqSt) (s : State) : (squpd c f s).pending = s.pending := by unfold squpd; simp only [cupd_pending]
@[simp] theorem squpd_regs (c : Nat) (f : SeqSt → SeqSt) (s : State) : (squpd c f s).regs = s.regs := by unfold squpd; simp only [cupd_regs]
@[simp] theorem squpd_cols (c : Nat) (f : SeqSt → SeqSt) (s : State) : (squpd c f s).cols = s.cols := by unfold squpd; simp only [cupd_cols]
@[simp] theorem squpd_sp (c : Nat) (f : SeqSt → SeqSt) (s : State) : (squpd c f s).sp = s.sp := by unfold squpd; simp only [cupd_sp]
@[simp] theorem squpd_spChk (c : Nat) (f : SeqSt → SeqSt) (s : State) : (squpd c f s).spChk = s.spChk := by unfold squpd; simp only [cupd_spChk]
@[simp] theorem squpd_spWr (c : Nat) (f : SeqSt → SeqSt) (s : State) : (squpd c f s).spWr = s.spWr := by unfold squpd; simp only [cupd_spWr]
@[simp] theorem squpd_csram (c : Nat) (f : SeqSt → SeqSt) (s : State) : (squpd c f s).csram = s.csram := by unfold squpd; simp only [cupd_csram]
@[simp] theorem squpd_csChk (c : Nat) (f : SeqSt → SeqSt) (s : State) : (squpd c f s).csChk = s.csChk := by unfold squpd; simp only [cupd_csChk]
@[simp] theorem squpd_csWr (c : Nat) (f : SeqSt → SeqSt) (s : State) : (squpd c f s).csWr = s.csWr := by unfold squpd; simp only [cupd_csWr]
@[simp] theorem squpd_csQueue (c : Nat) (f : SeqSt → SeqSt) (s : State) : (squpd c f s).csQueue = s.csQueue := by unfold squpd; simp only [cupd_csQueue]
@[simp] theorem squpd_portResp (c : Nat) (f : SeqSt → SeqSt) (s : State) : (squpd c f s).portResp = s.portResp := by unfold squpd; simp only [cupd_portResp]
@[simp] theorem squpd_t1 (c : Nat) (f : SeqSt → SeqSt) (s : State) : (squpd c f s).t1 = s.t1 := by unfold squpd; simp only [cupd_t1]
@[simp] theorem squpd_t1Chk (c : Nat) (f : SeqSt → SeqSt) (s : State) : (squpd c f s).t1Chk = s.t1Chk := by unfold squpd; simp only [cupd_t1Chk]
@[simp] theorem squpd_ftag (c : Nat) (f : SeqSt → SeqSt) (s : State) : (squpd c f s).ftag = s.ftag := by unfold squpd; simp only [cupd_ftag]
@[simp] theorem squpd_refRate (c : Nat) (f : SeqSt → SeqSt) (s : State) : (squpd c f s).refRate = s.refRate := by unfold squpd; simp only [cupd_refRate]
@[simp] theorem squpd_t2 (c : Nat) (f : SeqSt → SeqSt) (s : State) : (squpd c f s).t2 = s.t2 := by unfold squpd; simp only [cupd_t2]
@[simp] theorem squpd_pools (c : Nat) (f : SeqSt → SeqSt) (s : State) : (squpd c f s).pools = s.pools := by unfold squpd; simp only [cupd_pools]
@[simp] theorem squpd_gbarArr (c : Nat) (f : SeqSt → SeqSt) (s : State) : (squpd c f s).gbarArr = s.gbarArr := by unfold squpd; simp only [cupd_gbarArr]
@[simp] theorem squpd_gbarEpoch (c : Nat) (f : SeqSt → SeqSt) (s : State) : (squpd c f s).gbarEpoch = s.gbarEpoch := by unfold squpd; simp only [cupd_gbarEpoch]
@[simp] theorem squpd_lostTw (c : Nat) (f : SeqSt → SeqSt) (s : State) : (squpd c f s).lostTw = s.lostTw := by unfold squpd; simp only [cupd_lostTw]
@[simp] theorem squpd_remote (c : Nat) (f : SeqSt → SeqSt) (s : State) : (squpd c f s).remote = s.remote := by unfold squpd; simp only [cupd_remote]
@[simp] theorem squpd_remoteRef (c : Nat) (f : SeqSt → SeqSt) (s : State) : (squpd c f s).remoteRef = s.remoteRef := by unfold squpd; simp only [cupd_remoteRef]
@[simp] theorem squpd_hubs (c : Nat) (f : SeqSt → SeqSt) (s : State) : (squpd c f s).hubs = s.hubs := by unfold squpd; simp only [cupd_hubs]
@[simp] theorem squpd_ctrs (c : Nat) (f : SeqSt → SeqSt) (s : State) : (squpd c f s).ctrs = s.ctrs := by unfold squpd; simp only [cupd_ctrs]
@[simp] theorem squpd_frozen (c : Nat) (f : SeqSt → SeqSt) (s : State) : (squpd c f s).frozen = s.frozen := by unfold squpd; simp only [cupd_frozen]
@[simp] theorem squpd_telem (c : Nat) (f : SeqSt → SeqSt) (s : State) : (squpd c f s).telem = s.telem := by unfold squpd; simp only [cupd_telem]
@[simp] theorem squpd_map (c : Nat) (f : SeqSt → SeqSt) (s : State) : (squpd c f s).map = s.map := by unfold squpd; simp only [cupd_map]
@[simp] theorem squpd_parts (c : Nat) (f : SeqSt → SeqSt) (s : State) : (squpd c f s).parts = s.parts := by unfold squpd; simp only [cupd_parts]
@[simp] theorem squpd_winMem (c : Nat) (f : SeqSt → SeqSt) (s : State) : (squpd c f s).winMem = s.winMem := by unfold squpd; simp only [cupd_winMem]
@[simp] theorem squpd_wins (c : Nat) (f : SeqSt → SeqSt) (s : State) : (squpd c f s).wins = s.wins := by unfold squpd; simp only [cupd_wins]
@[simp] theorem squpd_nextPkt (c : Nat) (f : SeqSt → SeqSt) (s : State) : (squpd c f s).nextPkt = s.nextPkt := by unfold squpd; simp only [cupd_nextPkt]
@[simp] theorem squpd_d3 (c : Nat) (f : SeqSt → SeqSt) (s : State) : (squpd c f s).d3 = s.d3 := by unfold squpd; simp only [cupd_d3]
@[simp] theorem squpd_cfg (c : Nat) (f : SeqSt → SeqSt) (s : State) : (squpd c f s).cfg = s.cfg := by unfold squpd; simp only [cupd_cfg]
@[simp] theorem squpd_reads (c : Nat) (f : SeqSt → SeqSt) (s : State) : (squpd c f s).reads = s.reads := by unfold squpd; simp only [cupd_reads]
@[simp] theorem squpd_nextTag (c : Nat) (f : SeqSt → SeqSt) (s : State) : (squpd c f s).nextTag = s.nextTag := by unfold squpd; simp only [cupd_nextTag]
@[simp] theorem squpd_dmas (c : Nat) (f : SeqSt → SeqSt) (s : State) : (squpd c f s).dmas = s.dmas := by unfold squpd; simp only [cupd_dmas]
@[simp] theorem squpd_zeroQ (c : Nat) (f : SeqSt → SeqSt) (s : State) : (squpd c f s).zeroQ = s.zeroQ := by unfold squpd; simp only [cupd_zeroQ]
@[simp] theorem squpd_noReuse (c : Nat) (f : SeqSt → SeqSt) (s : State) : (squpd c f s).noReuse = s.noReuse := by unfold squpd; simp only [cupd_noReuse]
@[simp] theorem squpd_reload (c : Nat) (f : SeqSt → SeqSt) (s : State) : (squpd c f s).reload = s.reload := by unfold squpd; simp only [cupd_reload]
@[simp] theorem squpd_stage (c : Nat) (f : SeqSt → SeqSt) (s : State) : (squpd c f s).stage = s.stage := by unfold squpd; simp only [cupd_stage]
@[simp] theorem squpd_booted (c : Nat) (f : SeqSt → SeqSt) (s : State) : (squpd c f s).booted = s.booted := by unfold squpd; simp only [cupd_booted]
@[simp] theorem squpd_ns (c : Nat) (f : SeqSt → SeqSt) (s : State) : (squpd c f s).ns = s.ns := by unfold squpd; simp only [cupd_ns]
@[simp] theorem squpd_fatal (c : Nat) (f : SeqSt → SeqSt) (s : State) : (squpd c f s).fatal = s.fatal := by unfold squpd; simp only [cupd_fatal]
@[simp] theorem squpd_faultN (c : Nat) (f : SeqSt → SeqSt) (s : State) : (squpd c f s).faultN = s.faultN := by unfold squpd; simp only [cupd_faultN]
@[simp] theorem squpd_hostOut (c : Nat) (f : SeqSt → SeqSt) (s : State) : (squpd c f s).hostOut = s.hostOut := by unfold squpd; simp only [cupd_hostOut]
@[simp] theorem squpd_fresh (c : Nat) (f : SeqSt → SeqSt) (s : State) : (squpd c f s).fresh = s.fresh := by unfold squpd; simp only [cupd_fresh]
@[simp] theorem squpd_pwr (c : Nat) (f : SeqSt → SeqSt) (s : State) : (squpd c f s).pwr = s.pwr := by unfold squpd; simp only [cupd_pwr]
@[simp] theorem squpd_boot (c : Nat) (f : SeqSt → SeqSt) (s : State) : (squpd c f s).boot = s.boot := by unfold squpd; simp only [cupd_boot]
@[simp] theorem squpd_therm (c : Nat) (f : SeqSt → SeqSt) (s : State) : (squpd c f s).therm = s.therm := by unfold squpd; simp only [cupd_therm]
@[simp] theorem squpd_mnt (c : Nat) (f : SeqSt → SeqSt) (s : State) : (squpd c f s).mnt = s.mnt := by unfold squpd; simp only [cupd_mnt]
@[simp] theorem squpd_sec (c : Nat) (f : SeqSt → SeqSt) (s : State) : (squpd c f s).sec = s.sec := by unfold squpd; simp only [cupd_sec]
@[simp] theorem squpd_net (c : Nat) (f : SeqSt → SeqSt) (s : State) : (squpd c f s).net = s.net := by unfold squpd; simp only [cupd_net]
@[simp] theorem squpd_t2q (c : Nat) (f : SeqSt → SeqSt) (s : State) : (squpd c f s).t2q = s.t2q := by unfold squpd; simp only [cupd_t2q]
@[simp] theorem squpd_t2poison (c : Nat) (f : SeqSt → SeqSt) (s : State) : (squpd c f s).t2poison = s.t2poison := by unfold squpd; simp only [cupd_t2poison]
@[simp] theorem squpd_fab (c : Nat) (f : SeqSt → SeqSt) (s : State) : (squpd c f s).fab = s.fab := by unfold squpd; simp only [cupd_fab]
@[simp] theorem squpd_snap (c : Nat) (f : SeqSt → SeqSt) (s : State) : (squpd c f s).snap = s.snap := by unfold squpd; simp only [cupd_snap]
@[simp] theorem squpd_mirror (c : Nat) (f : SeqSt → SeqSt) (s : State) : (squpd c f s).mirror = s.mirror := by unfold squpd; simp only [cupd_mirror]

@[simp] theorem colset_pending (k : Nat) (v : ColSt) (s : State) : (colset k v s).pending = s.pending := by simp only [colset]
@[simp] theorem colset_regs (k : Nat) (v : ColSt) (s : State) : (colset k v s).regs = s.regs := by simp only [colset]
@[simp] theorem colset_cores (k : Nat) (v : ColSt) (s : State) : (colset k v s).cores = s.cores := by simp only [colset]
@[simp] theorem colset_sp (k : Nat) (v : ColSt) (s : State) : (colset k v s).sp = s.sp := by simp only [colset]
@[simp] theorem colset_spChk (k : Nat) (v : ColSt) (s : State) : (colset k v s).spChk = s.spChk := by simp only [colset]
@[simp] theorem colset_spWr (k : Nat) (v : ColSt) (s : State) : (colset k v s).spWr = s.spWr := by simp only [colset]
@[simp] theorem colset_csram (k : Nat) (v : ColSt) (s : State) : (colset k v s).csram = s.csram := by simp only [colset]
@[simp] theorem colset_csChk (k : Nat) (v : ColSt) (s : State) : (colset k v s).csChk = s.csChk := by simp only [colset]
@[simp] theorem colset_csWr (k : Nat) (v : ColSt) (s : State) : (colset k v s).csWr = s.csWr := by simp only [colset]
@[simp] theorem colset_csQueue (k : Nat) (v : ColSt) (s : State) : (colset k v s).csQueue = s.csQueue := by simp only [colset]
@[simp] theorem colset_portResp (k : Nat) (v : ColSt) (s : State) : (colset k v s).portResp = s.portResp := by simp only [colset]
@[simp] theorem colset_t1 (k : Nat) (v : ColSt) (s : State) : (colset k v s).t1 = s.t1 := by simp only [colset]
@[simp] theorem colset_t1Chk (k : Nat) (v : ColSt) (s : State) : (colset k v s).t1Chk = s.t1Chk := by simp only [colset]
@[simp] theorem colset_ftag (k : Nat) (v : ColSt) (s : State) : (colset k v s).ftag = s.ftag := by simp only [colset]
@[simp] theorem colset_refRate (k : Nat) (v : ColSt) (s : State) : (colset k v s).refRate = s.refRate := by simp only [colset]
@[simp] theorem colset_t2 (k : Nat) (v : ColSt) (s : State) : (colset k v s).t2 = s.t2 := by simp only [colset]
@[simp] theorem colset_pools (k : Nat) (v : ColSt) (s : State) : (colset k v s).pools = s.pools := by simp only [colset]
@[simp] theorem colset_gbarArr (k : Nat) (v : ColSt) (s : State) : (colset k v s).gbarArr = s.gbarArr := by simp only [colset]
@[simp] theorem colset_gbarEpoch (k : Nat) (v : ColSt) (s : State) : (colset k v s).gbarEpoch = s.gbarEpoch := by simp only [colset]
@[simp] theorem colset_lostTw (k : Nat) (v : ColSt) (s : State) : (colset k v s).lostTw = s.lostTw := by simp only [colset]
@[simp] theorem colset_remote (k : Nat) (v : ColSt) (s : State) : (colset k v s).remote = s.remote := by simp only [colset]
@[simp] theorem colset_remoteRef (k : Nat) (v : ColSt) (s : State) : (colset k v s).remoteRef = s.remoteRef := by simp only [colset]
@[simp] theorem colset_hubs (k : Nat) (v : ColSt) (s : State) : (colset k v s).hubs = s.hubs := by simp only [colset]
@[simp] theorem colset_ctrs (k : Nat) (v : ColSt) (s : State) : (colset k v s).ctrs = s.ctrs := by simp only [colset]
@[simp] theorem colset_frozen (k : Nat) (v : ColSt) (s : State) : (colset k v s).frozen = s.frozen := by simp only [colset]
@[simp] theorem colset_telem (k : Nat) (v : ColSt) (s : State) : (colset k v s).telem = s.telem := by simp only [colset]
@[simp] theorem colset_map (k : Nat) (v : ColSt) (s : State) : (colset k v s).map = s.map := by simp only [colset]
@[simp] theorem colset_parts (k : Nat) (v : ColSt) (s : State) : (colset k v s).parts = s.parts := by simp only [colset]
@[simp] theorem colset_winMem (k : Nat) (v : ColSt) (s : State) : (colset k v s).winMem = s.winMem := by simp only [colset]
@[simp] theorem colset_wins (k : Nat) (v : ColSt) (s : State) : (colset k v s).wins = s.wins := by simp only [colset]
@[simp] theorem colset_nextPkt (k : Nat) (v : ColSt) (s : State) : (colset k v s).nextPkt = s.nextPkt := by simp only [colset]
@[simp] theorem colset_d3 (k : Nat) (v : ColSt) (s : State) : (colset k v s).d3 = s.d3 := by simp only [colset]
@[simp] theorem colset_cfg (k : Nat) (v : ColSt) (s : State) : (colset k v s).cfg = s.cfg := by simp only [colset]
@[simp] theorem colset_reads (k : Nat) (v : ColSt) (s : State) : (colset k v s).reads = s.reads := by simp only [colset]
@[simp] theorem colset_nextTag (k : Nat) (v : ColSt) (s : State) : (colset k v s).nextTag = s.nextTag := by simp only [colset]
@[simp] theorem colset_dmas (k : Nat) (v : ColSt) (s : State) : (colset k v s).dmas = s.dmas := by simp only [colset]
@[simp] theorem colset_zeroQ (k : Nat) (v : ColSt) (s : State) : (colset k v s).zeroQ = s.zeroQ := by simp only [colset]
@[simp] theorem colset_noReuse (k : Nat) (v : ColSt) (s : State) : (colset k v s).noReuse = s.noReuse := by simp only [colset]
@[simp] theorem colset_reload (k : Nat) (v : ColSt) (s : State) : (colset k v s).reload = s.reload := by simp only [colset]
@[simp] theorem colset_stage (k : Nat) (v : ColSt) (s : State) : (colset k v s).stage = s.stage := by simp only [colset]
@[simp] theorem colset_booted (k : Nat) (v : ColSt) (s : State) : (colset k v s).booted = s.booted := by simp only [colset]
@[simp] theorem colset_ns (k : Nat) (v : ColSt) (s : State) : (colset k v s).ns = s.ns := by simp only [colset]
@[simp] theorem colset_fatal (k : Nat) (v : ColSt) (s : State) : (colset k v s).fatal = s.fatal := by simp only [colset]
@[simp] theorem colset_faultN (k : Nat) (v : ColSt) (s : State) : (colset k v s).faultN = s.faultN := by simp only [colset]
@[simp] theorem colset_hostOut (k : Nat) (v : ColSt) (s : State) : (colset k v s).hostOut = s.hostOut := by simp only [colset]
@[simp] theorem colset_fresh (k : Nat) (v : ColSt) (s : State) : (colset k v s).fresh = s.fresh := by simp only [colset]
@[simp] theorem colset_pwr (k : Nat) (v : ColSt) (s : State) : (colset k v s).pwr = s.pwr := by simp only [colset]
@[simp] theorem colset_boot (k : Nat) (v : ColSt) (s : State) : (colset k v s).boot = s.boot := by simp only [colset]
@[simp] theorem colset_therm (k : Nat) (v : ColSt) (s : State) : (colset k v s).therm = s.therm := by simp only [colset]
@[simp] theorem colset_mnt (k : Nat) (v : ColSt) (s : State) : (colset k v s).mnt = s.mnt := by simp only [colset]
@[simp] theorem colset_sec (k : Nat) (v : ColSt) (s : State) : (colset k v s).sec = s.sec := by simp only [colset]
@[simp] theorem colset_net (k : Nat) (v : ColSt) (s : State) : (colset k v s).net = s.net := by simp only [colset]
@[simp] theorem colset_t2q (k : Nat) (v : ColSt) (s : State) : (colset k v s).t2q = s.t2q := by simp only [colset]
@[simp] theorem colset_t2poison (k : Nat) (v : ColSt) (s : State) : (colset k v s).t2poison = s.t2poison := by simp only [colset]
@[simp] theorem colset_fab (k : Nat) (v : ColSt) (s : State) : (colset k v s).fab = s.fab := by simp only [colset]
@[simp] theorem colset_snap (k : Nat) (v : ColSt) (s : State) : (colset k v s).snap = s.snap := by simp only [colset]
@[simp] theorem colset_mirror (k : Nat) (v : ColSt) (s : State) : (colset k v s).mirror = s.mirror := by simp only [colset]

@[simp] theorem colupd_pending (k : Nat) (f : ColSt → ColSt) (s : State) : (colupd k f s).pending = s.pending := by unfold colupd; simp only [colset_pending]
@[simp] theorem colupd_regs (k : Nat) (f : ColSt → ColSt) (s : State) : (colupd k f s).regs = s.regs := by unfold colupd; simp only [colset_regs]
@[simp] theorem colupd_cores (k : Nat) (f : ColSt → ColSt) (s : State) : (colupd k f s).cores = s.cores := by unfold colupd; simp only [colset_cores]
@[simp] theorem colupd_sp (k : Nat) (f : ColSt → ColSt) (s : State) : (colupd k f s).sp = s.sp := by unfold colupd; simp only [colset_sp]
@[simp] theorem colupd_spChk (k : Nat) (f : ColSt → ColSt) (s : State) : (colupd k f s).spChk = s.spChk := by unfold colupd; simp only [colset_spChk]
@[simp] theorem colupd_spWr (k : Nat) (f : ColSt → ColSt) (s : State) : (colupd k f s).spWr = s.spWr := by unfold colupd; simp only [colset_spWr]
@[simp] theorem colupd_csram (k : Nat) (f : ColSt → ColSt) (s : State) : (colupd k f s).csram = s.csram := by unfold colupd; simp only [colset_csram]
@[simp] theorem colupd_csChk (k : Nat) (f : ColSt → ColSt) (s : State) : (colupd k f s).csChk = s.csChk := by unfold colupd; simp only [colset_csChk]
@[simp] theorem colupd_csWr (k : Nat) (f : ColSt → ColSt) (s : State) : (colupd k f s).csWr = s.csWr := by unfold colupd; simp only [colset_csWr]
@[simp] theorem colupd_csQueue (k : Nat) (f : ColSt → ColSt) (s : State) : (colupd k f s).csQueue = s.csQueue := by unfold colupd; simp only [colset_csQueue]
@[simp] theorem colupd_portResp (k : Nat) (f : ColSt → ColSt) (s : State) : (colupd k f s).portResp = s.portResp := by unfold colupd; simp only [colset_portResp]
@[simp] theorem colupd_t1 (k : Nat) (f : ColSt → ColSt) (s : State) : (colupd k f s).t1 = s.t1 := by unfold colupd; simp only [colset_t1]
@[simp] theorem colupd_t1Chk (k : Nat) (f : ColSt → ColSt) (s : State) : (colupd k f s).t1Chk = s.t1Chk := by unfold colupd; simp only [colset_t1Chk]
@[simp] theorem colupd_ftag (k : Nat) (f : ColSt → ColSt) (s : State) : (colupd k f s).ftag = s.ftag := by unfold colupd; simp only [colset_ftag]
@[simp] theorem colupd_refRate (k : Nat) (f : ColSt → ColSt) (s : State) : (colupd k f s).refRate = s.refRate := by unfold colupd; simp only [colset_refRate]
@[simp] theorem colupd_t2 (k : Nat) (f : ColSt → ColSt) (s : State) : (colupd k f s).t2 = s.t2 := by unfold colupd; simp only [colset_t2]
@[simp] theorem colupd_pools (k : Nat) (f : ColSt → ColSt) (s : State) : (colupd k f s).pools = s.pools := by unfold colupd; simp only [colset_pools]
@[simp] theorem colupd_gbarArr (k : Nat) (f : ColSt → ColSt) (s : State) : (colupd k f s).gbarArr = s.gbarArr := by unfold colupd; simp only [colset_gbarArr]
@[simp] theorem colupd_gbarEpoch (k : Nat) (f : ColSt → ColSt) (s : State) : (colupd k f s).gbarEpoch = s.gbarEpoch := by unfold colupd; simp only [colset_gbarEpoch]
@[simp] theorem colupd_lostTw (k : Nat) (f : ColSt → ColSt) (s : State) : (colupd k f s).lostTw = s.lostTw := by unfold colupd; simp only [colset_lostTw]
@[simp] theorem colupd_remote (k : Nat) (f : ColSt → ColSt) (s : State) : (colupd k f s).remote = s.remote := by unfold colupd; simp only [colset_remote]
@[simp] theorem colupd_remoteRef (k : Nat) (f : ColSt → ColSt) (s : State) : (colupd k f s).remoteRef = s.remoteRef := by unfold colupd; simp only [colset_remoteRef]
@[simp] theorem colupd_hubs (k : Nat) (f : ColSt → ColSt) (s : State) : (colupd k f s).hubs = s.hubs := by unfold colupd; simp only [colset_hubs]
@[simp] theorem colupd_ctrs (k : Nat) (f : ColSt → ColSt) (s : State) : (colupd k f s).ctrs = s.ctrs := by unfold colupd; simp only [colset_ctrs]
@[simp] theorem colupd_frozen (k : Nat) (f : ColSt → ColSt) (s : State) : (colupd k f s).frozen = s.frozen := by unfold colupd; simp only [colset_frozen]
@[simp] theorem colupd_telem (k : Nat) (f : ColSt → ColSt) (s : State) : (colupd k f s).telem = s.telem := by unfold colupd; simp only [colset_telem]
@[simp] theorem colupd_map (k : Nat) (f : ColSt → ColSt) (s : State) : (colupd k f s).map = s.map := by unfold colupd; simp only [colset_map]
@[simp] theorem colupd_parts (k : Nat) (f : ColSt → ColSt) (s : State) : (colupd k f s).parts = s.parts := by unfold colupd; simp only [colset_parts]
@[simp] theorem colupd_winMem (k : Nat) (f : ColSt → ColSt) (s : State) : (colupd k f s).winMem = s.winMem := by unfold colupd; simp only [colset_winMem]
@[simp] theorem colupd_wins (k : Nat) (f : ColSt → ColSt) (s : State) : (colupd k f s).wins = s.wins := by unfold colupd; simp only [colset_wins]
@[simp] theorem colupd_nextPkt (k : Nat) (f : ColSt → ColSt) (s : State) : (colupd k f s).nextPkt = s.nextPkt := by unfold colupd; simp only [colset_nextPkt]
@[simp] theorem colupd_d3 (k : Nat) (f : ColSt → ColSt) (s : State) : (colupd k f s).d3 = s.d3 := by unfold colupd; simp only [colset_d3]
@[simp] theorem colupd_cfg (k : Nat) (f : ColSt → ColSt) (s : State) : (colupd k f s).cfg = s.cfg := by unfold colupd; simp only [colset_cfg]
@[simp] theorem colupd_reads (k : Nat) (f : ColSt → ColSt) (s : State) : (colupd k f s).reads = s.reads := by unfold colupd; simp only [colset_reads]
@[simp] theorem colupd_nextTag (k : Nat) (f : ColSt → ColSt) (s : State) : (colupd k f s).nextTag = s.nextTag := by unfold colupd; simp only [colset_nextTag]
@[simp] theorem colupd_dmas (k : Nat) (f : ColSt → ColSt) (s : State) : (colupd k f s).dmas = s.dmas := by unfold colupd; simp only [colset_dmas]
@[simp] theorem colupd_zeroQ (k : Nat) (f : ColSt → ColSt) (s : State) : (colupd k f s).zeroQ = s.zeroQ := by unfold colupd; simp only [colset_zeroQ]
@[simp] theorem colupd_noReuse (k : Nat) (f : ColSt → ColSt) (s : State) : (colupd k f s).noReuse = s.noReuse := by unfold colupd; simp only [colset_noReuse]
@[simp] theorem colupd_reload (k : Nat) (f : ColSt → ColSt) (s : State) : (colupd k f s).reload = s.reload := by unfold colupd; simp only [colset_reload]
@[simp] theorem colupd_stage (k : Nat) (f : ColSt → ColSt) (s : State) : (colupd k f s).stage = s.stage := by unfold colupd; simp only [colset_stage]
@[simp] theorem colupd_booted (k : Nat) (f : ColSt → ColSt) (s : State) : (colupd k f s).booted = s.booted := by unfold colupd; simp only [colset_booted]
@[simp] theorem colupd_ns (k : Nat) (f : ColSt → ColSt) (s : State) : (colupd k f s).ns = s.ns := by unfold colupd; simp only [colset_ns]
@[simp] theorem colupd_fatal (k : Nat) (f : ColSt → ColSt) (s : State) : (colupd k f s).fatal = s.fatal := by unfold colupd; simp only [colset_fatal]
@[simp] theorem colupd_faultN (k : Nat) (f : ColSt → ColSt) (s : State) : (colupd k f s).faultN = s.faultN := by unfold colupd; simp only [colset_faultN]
@[simp] theorem colupd_hostOut (k : Nat) (f : ColSt → ColSt) (s : State) : (colupd k f s).hostOut = s.hostOut := by unfold colupd; simp only [colset_hostOut]
@[simp] theorem colupd_fresh (k : Nat) (f : ColSt → ColSt) (s : State) : (colupd k f s).fresh = s.fresh := by unfold colupd; simp only [colset_fresh]
@[simp] theorem colupd_pwr (k : Nat) (f : ColSt → ColSt) (s : State) : (colupd k f s).pwr = s.pwr := by unfold colupd; simp only [colset_pwr]
@[simp] theorem colupd_boot (k : Nat) (f : ColSt → ColSt) (s : State) : (colupd k f s).boot = s.boot := by unfold colupd; simp only [colset_boot]
@[simp] theorem colupd_therm (k : Nat) (f : ColSt → ColSt) (s : State) : (colupd k f s).therm = s.therm := by unfold colupd; simp only [colset_therm]
@[simp] theorem colupd_mnt (k : Nat) (f : ColSt → ColSt) (s : State) : (colupd k f s).mnt = s.mnt := by unfold colupd; simp only [colset_mnt]
@[simp] theorem colupd_sec (k : Nat) (f : ColSt → ColSt) (s : State) : (colupd k f s).sec = s.sec := by unfold colupd; simp only [colset_sec]
@[simp] theorem colupd_net (k : Nat) (f : ColSt → ColSt) (s : State) : (colupd k f s).net = s.net := by unfold colupd; simp only [colset_net]
@[simp] theorem colupd_t2q (k : Nat) (f : ColSt → ColSt) (s : State) : (colupd k f s).t2q = s.t2q := by unfold colupd; simp only [colset_t2q]
@[simp] theorem colupd_t2poison (k : Nat) (f : ColSt → ColSt) (s : State) : (colupd k f s).t2poison = s.t2poison := by unfold colupd; simp only [colset_t2poison]
@[simp] theorem colupd_fab (k : Nat) (f : ColSt → ColSt) (s : State) : (colupd k f s).fab = s.fab := by unfold colupd; simp only [colset_fab]
@[simp] theorem colupd_snap (k : Nat) (f : ColSt → ColSt) (s : State) : (colupd k f s).snap = s.snap := by unfold colupd; simp only [colset_snap]
@[simp] theorem colupd_mirror (k : Nat) (f : ColSt → ColSt) (s : State) : (colupd k f s).mirror = s.mirror := by unfold colupd; simp only [colset_mirror]

@[simp] theorem hset_pending (h : Nat) (v : HubSt) (s : State) : (hset h v s).pending = s.pending := by simp only [hset]
@[simp] theorem hset_regs (h : Nat) (v : HubSt) (s : State) : (hset h v s).regs = s.regs := by simp only [hset]
@[simp] theorem hset_cores (h : Nat) (v : HubSt) (s : State) : (hset h v s).cores = s.cores := by simp only [hset]
@[simp] theorem hset_cols (h : Nat) (v : HubSt) (s : State) : (hset h v s).cols = s.cols := by simp only [hset]
@[simp] theorem hset_sp (h : Nat) (v : HubSt) (s : State) : (hset h v s).sp = s.sp := by simp only [hset]
@[simp] theorem hset_spChk (h : Nat) (v : HubSt) (s : State) : (hset h v s).spChk = s.spChk := by simp only [hset]
@[simp] theorem hset_spWr (h : Nat) (v : HubSt) (s : State) : (hset h v s).spWr = s.spWr := by simp only [hset]
@[simp] theorem hset_csram (h : Nat) (v : HubSt) (s : State) : (hset h v s).csram = s.csram := by simp only [hset]
@[simp] theorem hset_csChk (h : Nat) (v : HubSt) (s : State) : (hset h v s).csChk = s.csChk := by simp only [hset]
@[simp] theorem hset_csWr (h : Nat) (v : HubSt) (s : State) : (hset h v s).csWr = s.csWr := by simp only [hset]
@[simp] theorem hset_csQueue (h : Nat) (v : HubSt) (s : State) : (hset h v s).csQueue = s.csQueue := by simp only [hset]
@[simp] theorem hset_portResp (h : Nat) (v : HubSt) (s : State) : (hset h v s).portResp = s.portResp := by simp only [hset]
@[simp] theorem hset_t1 (h : Nat) (v : HubSt) (s : State) : (hset h v s).t1 = s.t1 := by simp only [hset]
@[simp] theorem hset_t1Chk (h : Nat) (v : HubSt) (s : State) : (hset h v s).t1Chk = s.t1Chk := by simp only [hset]
@[simp] theorem hset_ftag (h : Nat) (v : HubSt) (s : State) : (hset h v s).ftag = s.ftag := by simp only [hset]
@[simp] theorem hset_refRate (h : Nat) (v : HubSt) (s : State) : (hset h v s).refRate = s.refRate := by simp only [hset]
@[simp] theorem hset_t2 (h : Nat) (v : HubSt) (s : State) : (hset h v s).t2 = s.t2 := by simp only [hset]
@[simp] theorem hset_pools (h : Nat) (v : HubSt) (s : State) : (hset h v s).pools = s.pools := by simp only [hset]
@[simp] theorem hset_gbarArr (h : Nat) (v : HubSt) (s : State) : (hset h v s).gbarArr = s.gbarArr := by simp only [hset]
@[simp] theorem hset_gbarEpoch (h : Nat) (v : HubSt) (s : State) : (hset h v s).gbarEpoch = s.gbarEpoch := by simp only [hset]
@[simp] theorem hset_lostTw (h : Nat) (v : HubSt) (s : State) : (hset h v s).lostTw = s.lostTw := by simp only [hset]
@[simp] theorem hset_remote (h : Nat) (v : HubSt) (s : State) : (hset h v s).remote = s.remote := by simp only [hset]
@[simp] theorem hset_remoteRef (h : Nat) (v : HubSt) (s : State) : (hset h v s).remoteRef = s.remoteRef := by simp only [hset]
@[simp] theorem hset_ctrs (h : Nat) (v : HubSt) (s : State) : (hset h v s).ctrs = s.ctrs := by simp only [hset]
@[simp] theorem hset_frozen (h : Nat) (v : HubSt) (s : State) : (hset h v s).frozen = s.frozen := by simp only [hset]
@[simp] theorem hset_telem (h : Nat) (v : HubSt) (s : State) : (hset h v s).telem = s.telem := by simp only [hset]
@[simp] theorem hset_map (h : Nat) (v : HubSt) (s : State) : (hset h v s).map = s.map := by simp only [hset]
@[simp] theorem hset_parts (h : Nat) (v : HubSt) (s : State) : (hset h v s).parts = s.parts := by simp only [hset]
@[simp] theorem hset_winMem (h : Nat) (v : HubSt) (s : State) : (hset h v s).winMem = s.winMem := by simp only [hset]
@[simp] theorem hset_wins (h : Nat) (v : HubSt) (s : State) : (hset h v s).wins = s.wins := by simp only [hset]
@[simp] theorem hset_nextPkt (h : Nat) (v : HubSt) (s : State) : (hset h v s).nextPkt = s.nextPkt := by simp only [hset]
@[simp] theorem hset_d3 (h : Nat) (v : HubSt) (s : State) : (hset h v s).d3 = s.d3 := by simp only [hset]
@[simp] theorem hset_cfg (h : Nat) (v : HubSt) (s : State) : (hset h v s).cfg = s.cfg := by simp only [hset]
@[simp] theorem hset_reads (h : Nat) (v : HubSt) (s : State) : (hset h v s).reads = s.reads := by simp only [hset]
@[simp] theorem hset_nextTag (h : Nat) (v : HubSt) (s : State) : (hset h v s).nextTag = s.nextTag := by simp only [hset]
@[simp] theorem hset_dmas (h : Nat) (v : HubSt) (s : State) : (hset h v s).dmas = s.dmas := by simp only [hset]
@[simp] theorem hset_zeroQ (h : Nat) (v : HubSt) (s : State) : (hset h v s).zeroQ = s.zeroQ := by simp only [hset]
@[simp] theorem hset_noReuse (h : Nat) (v : HubSt) (s : State) : (hset h v s).noReuse = s.noReuse := by simp only [hset]
@[simp] theorem hset_reload (h : Nat) (v : HubSt) (s : State) : (hset h v s).reload = s.reload := by simp only [hset]
@[simp] theorem hset_stage (h : Nat) (v : HubSt) (s : State) : (hset h v s).stage = s.stage := by simp only [hset]
@[simp] theorem hset_booted (h : Nat) (v : HubSt) (s : State) : (hset h v s).booted = s.booted := by simp only [hset]
@[simp] theorem hset_ns (h : Nat) (v : HubSt) (s : State) : (hset h v s).ns = s.ns := by simp only [hset]
@[simp] theorem hset_fatal (h : Nat) (v : HubSt) (s : State) : (hset h v s).fatal = s.fatal := by simp only [hset]
@[simp] theorem hset_faultN (h : Nat) (v : HubSt) (s : State) : (hset h v s).faultN = s.faultN := by simp only [hset]
@[simp] theorem hset_hostOut (h : Nat) (v : HubSt) (s : State) : (hset h v s).hostOut = s.hostOut := by simp only [hset]
@[simp] theorem hset_fresh (h : Nat) (v : HubSt) (s : State) : (hset h v s).fresh = s.fresh := by simp only [hset]
@[simp] theorem hset_pwr (h : Nat) (v : HubSt) (s : State) : (hset h v s).pwr = s.pwr := by simp only [hset]
@[simp] theorem hset_boot (h : Nat) (v : HubSt) (s : State) : (hset h v s).boot = s.boot := by simp only [hset]
@[simp] theorem hset_therm (h : Nat) (v : HubSt) (s : State) : (hset h v s).therm = s.therm := by simp only [hset]
@[simp] theorem hset_mnt (h : Nat) (v : HubSt) (s : State) : (hset h v s).mnt = s.mnt := by simp only [hset]
@[simp] theorem hset_sec (h : Nat) (v : HubSt) (s : State) : (hset h v s).sec = s.sec := by simp only [hset]
@[simp] theorem hset_net (h : Nat) (v : HubSt) (s : State) : (hset h v s).net = s.net := by simp only [hset]
@[simp] theorem hset_t2q (h : Nat) (v : HubSt) (s : State) : (hset h v s).t2q = s.t2q := by simp only [hset]
@[simp] theorem hset_t2poison (h : Nat) (v : HubSt) (s : State) : (hset h v s).t2poison = s.t2poison := by simp only [hset]
@[simp] theorem hset_fab (h : Nat) (v : HubSt) (s : State) : (hset h v s).fab = s.fab := by simp only [hset]
@[simp] theorem hset_snap (h : Nat) (v : HubSt) (s : State) : (hset h v s).snap = s.snap := by simp only [hset]
@[simp] theorem hset_mirror (h : Nat) (v : HubSt) (s : State) : (hset h v s).mirror = s.mirror := by simp only [hset]

@[simp] theorem pset_pending (p : Nat) (v : PartSt) (s : State) : (pset p v s).pending = s.pending := by simp only [pset]
@[simp] theorem pset_regs (p : Nat) (v : PartSt) (s : State) : (pset p v s).regs = s.regs := by simp only [pset]
@[simp] theorem pset_cores (p : Nat) (v : PartSt) (s : State) : (pset p v s).cores = s.cores := by simp only [pset]
@[simp] theorem pset_cols (p : Nat) (v : PartSt) (s : State) : (pset p v s).cols = s.cols := by simp only [pset]
@[simp] theorem pset_sp (p : Nat) (v : PartSt) (s : State) : (pset p v s).sp = s.sp := by simp only [pset]
@[simp] theorem pset_spChk (p : Nat) (v : PartSt) (s : State) : (pset p v s).spChk = s.spChk := by simp only [pset]
@[simp] theorem pset_spWr (p : Nat) (v : PartSt) (s : State) : (pset p v s).spWr = s.spWr := by simp only [pset]
@[simp] theorem pset_csram (p : Nat) (v : PartSt) (s : State) : (pset p v s).csram = s.csram := by simp only [pset]
@[simp] theorem pset_csChk (p : Nat) (v : PartSt) (s : State) : (pset p v s).csChk = s.csChk := by simp only [pset]
@[simp] theorem pset_csWr (p : Nat) (v : PartSt) (s : State) : (pset p v s).csWr = s.csWr := by simp only [pset]
@[simp] theorem pset_csQueue (p : Nat) (v : PartSt) (s : State) : (pset p v s).csQueue = s.csQueue := by simp only [pset]
@[simp] theorem pset_portResp (p : Nat) (v : PartSt) (s : State) : (pset p v s).portResp = s.portResp := by simp only [pset]
@[simp] theorem pset_t1 (p : Nat) (v : PartSt) (s : State) : (pset p v s).t1 = s.t1 := by simp only [pset]
@[simp] theorem pset_t1Chk (p : Nat) (v : PartSt) (s : State) : (pset p v s).t1Chk = s.t1Chk := by simp only [pset]
@[simp] theorem pset_ftag (p : Nat) (v : PartSt) (s : State) : (pset p v s).ftag = s.ftag := by simp only [pset]
@[simp] theorem pset_refRate (p : Nat) (v : PartSt) (s : State) : (pset p v s).refRate = s.refRate := by simp only [pset]
@[simp] theorem pset_t2 (p : Nat) (v : PartSt) (s : State) : (pset p v s).t2 = s.t2 := by simp only [pset]
@[simp] theorem pset_pools (p : Nat) (v : PartSt) (s : State) : (pset p v s).pools = s.pools := by simp only [pset]
@[simp] theorem pset_gbarArr (p : Nat) (v : PartSt) (s : State) : (pset p v s).gbarArr = s.gbarArr := by simp only [pset]
@[simp] theorem pset_gbarEpoch (p : Nat) (v : PartSt) (s : State) : (pset p v s).gbarEpoch = s.gbarEpoch := by simp only [pset]
@[simp] theorem pset_lostTw (p : Nat) (v : PartSt) (s : State) : (pset p v s).lostTw = s.lostTw := by simp only [pset]
@[simp] theorem pset_remote (p : Nat) (v : PartSt) (s : State) : (pset p v s).remote = s.remote := by simp only [pset]
@[simp] theorem pset_remoteRef (p : Nat) (v : PartSt) (s : State) : (pset p v s).remoteRef = s.remoteRef := by simp only [pset]
@[simp] theorem pset_hubs (p : Nat) (v : PartSt) (s : State) : (pset p v s).hubs = s.hubs := by simp only [pset]
@[simp] theorem pset_ctrs (p : Nat) (v : PartSt) (s : State) : (pset p v s).ctrs = s.ctrs := by simp only [pset]
@[simp] theorem pset_frozen (p : Nat) (v : PartSt) (s : State) : (pset p v s).frozen = s.frozen := by simp only [pset]
@[simp] theorem pset_telem (p : Nat) (v : PartSt) (s : State) : (pset p v s).telem = s.telem := by simp only [pset]
@[simp] theorem pset_map (p : Nat) (v : PartSt) (s : State) : (pset p v s).map = s.map := by simp only [pset]
@[simp] theorem pset_winMem (p : Nat) (v : PartSt) (s : State) : (pset p v s).winMem = s.winMem := by simp only [pset]
@[simp] theorem pset_wins (p : Nat) (v : PartSt) (s : State) : (pset p v s).wins = s.wins := by simp only [pset]
@[simp] theorem pset_nextPkt (p : Nat) (v : PartSt) (s : State) : (pset p v s).nextPkt = s.nextPkt := by simp only [pset]
@[simp] theorem pset_d3 (p : Nat) (v : PartSt) (s : State) : (pset p v s).d3 = s.d3 := by simp only [pset]
@[simp] theorem pset_cfg (p : Nat) (v : PartSt) (s : State) : (pset p v s).cfg = s.cfg := by simp only [pset]
@[simp] theorem pset_reads (p : Nat) (v : PartSt) (s : State) : (pset p v s).reads = s.reads := by simp only [pset]
@[simp] theorem pset_nextTag (p : Nat) (v : PartSt) (s : State) : (pset p v s).nextTag = s.nextTag := by simp only [pset]
@[simp] theorem pset_dmas (p : Nat) (v : PartSt) (s : State) : (pset p v s).dmas = s.dmas := by simp only [pset]
@[simp] theorem pset_zeroQ (p : Nat) (v : PartSt) (s : State) : (pset p v s).zeroQ = s.zeroQ := by simp only [pset]
@[simp] theorem pset_noReuse (p : Nat) (v : PartSt) (s : State) : (pset p v s).noReuse = s.noReuse := by simp only [pset]
@[simp] theorem pset_reload (p : Nat) (v : PartSt) (s : State) : (pset p v s).reload = s.reload := by simp only [pset]
@[simp] theorem pset_stage (p : Nat) (v : PartSt) (s : State) : (pset p v s).stage = s.stage := by simp only [pset]
@[simp] theorem pset_booted (p : Nat) (v : PartSt) (s : State) : (pset p v s).booted = s.booted := by simp only [pset]
@[simp] theorem pset_ns (p : Nat) (v : PartSt) (s : State) : (pset p v s).ns = s.ns := by simp only [pset]
@[simp] theorem pset_fatal (p : Nat) (v : PartSt) (s : State) : (pset p v s).fatal = s.fatal := by simp only [pset]
@[simp] theorem pset_faultN (p : Nat) (v : PartSt) (s : State) : (pset p v s).faultN = s.faultN := by simp only [pset]
@[simp] theorem pset_hostOut (p : Nat) (v : PartSt) (s : State) : (pset p v s).hostOut = s.hostOut := by simp only [pset]
@[simp] theorem pset_fresh (p : Nat) (v : PartSt) (s : State) : (pset p v s).fresh = s.fresh := by simp only [pset]
@[simp] theorem pset_pwr (p : Nat) (v : PartSt) (s : State) : (pset p v s).pwr = s.pwr := by simp only [pset]
@[simp] theorem pset_boot (p : Nat) (v : PartSt) (s : State) : (pset p v s).boot = s.boot := by simp only [pset]
@[simp] theorem pset_therm (p : Nat) (v : PartSt) (s : State) : (pset p v s).therm = s.therm := by simp only [pset]
@[simp] theorem pset_mnt (p : Nat) (v : PartSt) (s : State) : (pset p v s).mnt = s.mnt := by simp only [pset]
@[simp] theorem pset_sec (p : Nat) (v : PartSt) (s : State) : (pset p v s).sec = s.sec := by simp only [pset]
@[simp] theorem pset_net (p : Nat) (v : PartSt) (s : State) : (pset p v s).net = s.net := by simp only [pset]
@[simp] theorem pset_t2q (p : Nat) (v : PartSt) (s : State) : (pset p v s).t2q = s.t2q := by simp only [pset]
@[simp] theorem pset_t2poison (p : Nat) (v : PartSt) (s : State) : (pset p v s).t2poison = s.t2poison := by simp only [pset]
@[simp] theorem pset_fab (p : Nat) (v : PartSt) (s : State) : (pset p v s).fab = s.fab := by simp only [pset]
@[simp] theorem pset_snap (p : Nat) (v : PartSt) (s : State) : (pset p v s).snap = s.snap := by simp only [pset]
@[simp] theorem pset_mirror (p : Nat) (v : PartSt) (s : State) : (pset p v s).mirror = s.mirror := by simp only [pset]

@[simp] theorem pupd_pending (p : Nat) (f : PartSt → PartSt) (s : State) : (pupd p f s).pending = s.pending := by unfold pupd; simp only [pset_pending]
@[simp] theorem pupd_regs (p : Nat) (f : PartSt → PartSt) (s : State) : (pupd p f s).regs = s.regs := by unfold pupd; simp only [pset_regs]
@[simp] theorem pupd_cores (p : Nat) (f : PartSt → PartSt) (s : State) : (pupd p f s).cores = s.cores := by unfold pupd; simp only [pset_cores]
@[simp] theorem pupd_cols (p : Nat) (f : PartSt → PartSt) (s : State) : (pupd p f s).cols = s.cols := by unfold pupd; simp only [pset_cols]
@[simp] theorem pupd_sp (p : Nat) (f : PartSt → PartSt) (s : State) : (pupd p f s).sp = s.sp := by unfold pupd; simp only [pset_sp]
@[simp] theorem pupd_spChk (p : Nat) (f : PartSt → PartSt) (s : State) : (pupd p f s).spChk = s.spChk := by unfold pupd; simp only [pset_spChk]
@[simp] theorem pupd_spWr (p : Nat) (f : PartSt → PartSt) (s : State) : (pupd p f s).spWr = s.spWr := by unfold pupd; simp only [pset_spWr]
@[simp] theorem pupd_csram (p : Nat) (f : PartSt → PartSt) (s : State) : (pupd p f s).csram = s.csram := by unfold pupd; simp only [pset_csram]
@[simp] theorem pupd_csChk (p : Nat) (f : PartSt → PartSt) (s : State) : (pupd p f s).csChk = s.csChk := by unfold pupd; simp only [pset_csChk]
@[simp] theorem pupd_csWr (p : Nat) (f : PartSt → PartSt) (s : State) : (pupd p f s).csWr = s.csWr := by unfold pupd; simp only [pset_csWr]
@[simp] theorem pupd_csQueue (p : Nat) (f : PartSt → PartSt) (s : State) : (pupd p f s).csQueue = s.csQueue := by unfold pupd; simp only [pset_csQueue]
@[simp] theorem pupd_portResp (p : Nat) (f : PartSt → PartSt) (s : State) : (pupd p f s).portResp = s.portResp := by unfold pupd; simp only [pset_portResp]
@[simp] theorem pupd_t1 (p : Nat) (f : PartSt → PartSt) (s : State) : (pupd p f s).t1 = s.t1 := by unfold pupd; simp only [pset_t1]
@[simp] theorem pupd_t1Chk (p : Nat) (f : PartSt → PartSt) (s : State) : (pupd p f s).t1Chk = s.t1Chk := by unfold pupd; simp only [pset_t1Chk]
@[simp] theorem pupd_ftag (p : Nat) (f : PartSt → PartSt) (s : State) : (pupd p f s).ftag = s.ftag := by unfold pupd; simp only [pset_ftag]
@[simp] theorem pupd_refRate (p : Nat) (f : PartSt → PartSt) (s : State) : (pupd p f s).refRate = s.refRate := by unfold pupd; simp only [pset_refRate]
@[simp] theorem pupd_t2 (p : Nat) (f : PartSt → PartSt) (s : State) : (pupd p f s).t2 = s.t2 := by unfold pupd; simp only [pset_t2]
@[simp] theorem pupd_pools (p : Nat) (f : PartSt → PartSt) (s : State) : (pupd p f s).pools = s.pools := by unfold pupd; simp only [pset_pools]
@[simp] theorem pupd_gbarArr (p : Nat) (f : PartSt → PartSt) (s : State) : (pupd p f s).gbarArr = s.gbarArr := by unfold pupd; simp only [pset_gbarArr]
@[simp] theorem pupd_gbarEpoch (p : Nat) (f : PartSt → PartSt) (s : State) : (pupd p f s).gbarEpoch = s.gbarEpoch := by unfold pupd; simp only [pset_gbarEpoch]
@[simp] theorem pupd_lostTw (p : Nat) (f : PartSt → PartSt) (s : State) : (pupd p f s).lostTw = s.lostTw := by unfold pupd; simp only [pset_lostTw]
@[simp] theorem pupd_remote (p : Nat) (f : PartSt → PartSt) (s : State) : (pupd p f s).remote = s.remote := by unfold pupd; simp only [pset_remote]
@[simp] theorem pupd_remoteRef (p : Nat) (f : PartSt → PartSt) (s : State) : (pupd p f s).remoteRef = s.remoteRef := by unfold pupd; simp only [pset_remoteRef]
@[simp] theorem pupd_hubs (p : Nat) (f : PartSt → PartSt) (s : State) : (pupd p f s).hubs = s.hubs := by unfold pupd; simp only [pset_hubs]
@[simp] theorem pupd_ctrs (p : Nat) (f : PartSt → PartSt) (s : State) : (pupd p f s).ctrs = s.ctrs := by unfold pupd; simp only [pset_ctrs]
@[simp] theorem pupd_frozen (p : Nat) (f : PartSt → PartSt) (s : State) : (pupd p f s).frozen = s.frozen := by unfold pupd; simp only [pset_frozen]
@[simp] theorem pupd_telem (p : Nat) (f : PartSt → PartSt) (s : State) : (pupd p f s).telem = s.telem := by unfold pupd; simp only [pset_telem]
@[simp] theorem pupd_map (p : Nat) (f : PartSt → PartSt) (s : State) : (pupd p f s).map = s.map := by unfold pupd; simp only [pset_map]
@[simp] theorem pupd_winMem (p : Nat) (f : PartSt → PartSt) (s : State) : (pupd p f s).winMem = s.winMem := by unfold pupd; simp only [pset_winMem]
@[simp] theorem pupd_wins (p : Nat) (f : PartSt → PartSt) (s : State) : (pupd p f s).wins = s.wins := by unfold pupd; simp only [pset_wins]
@[simp] theorem pupd_nextPkt (p : Nat) (f : PartSt → PartSt) (s : State) : (pupd p f s).nextPkt = s.nextPkt := by unfold pupd; simp only [pset_nextPkt]
@[simp] theorem pupd_d3 (p : Nat) (f : PartSt → PartSt) (s : State) : (pupd p f s).d3 = s.d3 := by unfold pupd; simp only [pset_d3]
@[simp] theorem pupd_cfg (p : Nat) (f : PartSt → PartSt) (s : State) : (pupd p f s).cfg = s.cfg := by unfold pupd; simp only [pset_cfg]
@[simp] theorem pupd_reads (p : Nat) (f : PartSt → PartSt) (s : State) : (pupd p f s).reads = s.reads := by unfold pupd; simp only [pset_reads]
@[simp] theorem pupd_nextTag (p : Nat) (f : PartSt → PartSt) (s : State) : (pupd p f s).nextTag = s.nextTag := by unfold pupd; simp only [pset_nextTag]
@[simp] theorem pupd_dmas (p : Nat) (f : PartSt → PartSt) (s : State) : (pupd p f s).dmas = s.dmas := by unfold pupd; simp only [pset_dmas]
@[simp] theorem pupd_zeroQ (p : Nat) (f : PartSt → PartSt) (s : State) : (pupd p f s).zeroQ = s.zeroQ := by unfold pupd; simp only [pset_zeroQ]
@[simp] theorem pupd_noReuse (p : Nat) (f : PartSt → PartSt) (s : State) : (pupd p f s).noReuse = s.noReuse := by unfold pupd; simp only [pset_noReuse]
@[simp] theorem pupd_reload (p : Nat) (f : PartSt → PartSt) (s : State) : (pupd p f s).reload = s.reload := by unfold pupd; simp only [pset_reload]
@[simp] theorem pupd_stage (p : Nat) (f : PartSt → PartSt) (s : State) : (pupd p f s).stage = s.stage := by unfold pupd; simp only [pset_stage]
@[simp] theorem pupd_booted (p : Nat) (f : PartSt → PartSt) (s : State) : (pupd p f s).booted = s.booted := by unfold pupd; simp only [pset_booted]
@[simp] theorem pupd_ns (p : Nat) (f : PartSt → PartSt) (s : State) : (pupd p f s).ns = s.ns := by unfold pupd; simp only [pset_ns]
@[simp] theorem pupd_fatal (p : Nat) (f : PartSt → PartSt) (s : State) : (pupd p f s).fatal = s.fatal := by unfold pupd; simp only [pset_fatal]
@[simp] theorem pupd_faultN (p : Nat) (f : PartSt → PartSt) (s : State) : (pupd p f s).faultN = s.faultN := by unfold pupd; simp only [pset_faultN]
@[simp] theorem pupd_hostOut (p : Nat) (f : PartSt → PartSt) (s : State) : (pupd p f s).hostOut = s.hostOut := by unfold pupd; simp only [pset_hostOut]
@[simp] theorem pupd_fresh (p : Nat) (f : PartSt → PartSt) (s : State) : (pupd p f s).fresh = s.fresh := by unfold pupd; simp only [pset_fresh]
@[simp] theorem pupd_pwr (p : Nat) (f : PartSt → PartSt) (s : State) : (pupd p f s).pwr = s.pwr := by unfold pupd; simp only [pset_pwr]
@[simp] theorem pupd_boot (p : Nat) (f : PartSt → PartSt) (s : State) : (pupd p f s).boot = s.boot := by unfold pupd; simp only [pset_boot]
@[simp] theorem pupd_therm (p : Nat) (f : PartSt → PartSt) (s : State) : (pupd p f s).therm = s.therm := by unfold pupd; simp only [pset_therm]
@[simp] theorem pupd_mnt (p : Nat) (f : PartSt → PartSt) (s : State) : (pupd p f s).mnt = s.mnt := by unfold pupd; simp only [pset_mnt]
@[simp] theorem pupd_sec (p : Nat) (f : PartSt → PartSt) (s : State) : (pupd p f s).sec = s.sec := by unfold pupd; simp only [pset_sec]
@[simp] theorem pupd_net (p : Nat) (f : PartSt → PartSt) (s : State) : (pupd p f s).net = s.net := by unfold pupd; simp only [pset_net]
@[simp] theorem pupd_t2q (p : Nat) (f : PartSt → PartSt) (s : State) : (pupd p f s).t2q = s.t2q := by unfold pupd; simp only [pset_t2q]
@[simp] theorem pupd_t2poison (p : Nat) (f : PartSt → PartSt) (s : State) : (pupd p f s).t2poison = s.t2poison := by unfold pupd; simp only [pset_t2poison]
@[simp] theorem pupd_fab (p : Nat) (f : PartSt → PartSt) (s : State) : (pupd p f s).fab = s.fab := by unfold pupd; simp only [pset_fab]
@[simp] theorem pupd_snap (p : Nat) (f : PartSt → PartSt) (s : State) : (pupd p f s).snap = s.snap := by unfold pupd; simp only [pset_snap]
@[simp] theorem pupd_mirror (p : Nat) (f : PartSt → PartSt) (s : State) : (pupd p f s).mirror = s.mirror := by unfold pupd; simp only [pset_mirror]

@[simp] theorem hostSend_pending (m : HostOut) (s : State) : (hostSend m s).pending = s.pending := by simp only [hostSend]
@[simp] theorem hostSend_regs (m : HostOut) (s : State) : (hostSend m s).regs = s.regs := by simp only [hostSend]
@[simp] theorem hostSend_cores (m : HostOut) (s : State) : (hostSend m s).cores = s.cores := by simp only [hostSend]
@[simp] theorem hostSend_cols (m : HostOut) (s : State) : (hostSend m s).cols = s.cols := by simp only [hostSend]
@[simp] theorem hostSend_sp (m : HostOut) (s : State) : (hostSend m s).sp = s.sp := by simp only [hostSend]
@[simp] theorem hostSend_spChk (m : HostOut) (s : State) : (hostSend m s).spChk = s.spChk := by simp only [hostSend]
@[simp] theorem hostSend_spWr (m : HostOut) (s : State) : (hostSend m s).spWr = s.spWr := by simp only [hostSend]
@[simp] theorem hostSend_csram (m : HostOut) (s : State) : (hostSend m s).csram = s.csram := by simp only [hostSend]
@[simp] theorem hostSend_csChk (m : HostOut) (s : State) : (hostSend m s).csChk = s.csChk := by simp only [hostSend]
@[simp] theorem hostSend_csWr (m : HostOut) (s : State) : (hostSend m s).csWr = s.csWr := by simp only [hostSend]
@[simp] theorem hostSend_csQueue (m : HostOut) (s : State) : (hostSend m s).csQueue = s.csQueue := by simp only [hostSend]
@[simp] theorem hostSend_portResp (m : HostOut) (s : State) : (hostSend m s).portResp = s.portResp := by simp only [hostSend]
@[simp] theorem hostSend_t1 (m : HostOut) (s : State) : (hostSend m s).t1 = s.t1 := by simp only [hostSend]
@[simp] theorem hostSend_t1Chk (m : HostOut) (s : State) : (hostSend m s).t1Chk = s.t1Chk := by simp only [hostSend]
@[simp] theorem hostSend_ftag (m : HostOut) (s : State) : (hostSend m s).ftag = s.ftag := by simp only [hostSend]
@[simp] theorem hostSend_refRate (m : HostOut) (s : State) : (hostSend m s).refRate = s.refRate := by simp only [hostSend]
@[simp] theorem hostSend_t2 (m : HostOut) (s : State) : (hostSend m s).t2 = s.t2 := by simp only [hostSend]
@[simp] theorem hostSend_pools (m : HostOut) (s : State) : (hostSend m s).pools = s.pools := by simp only [hostSend]
@[simp] theorem hostSend_gbarArr (m : HostOut) (s : State) : (hostSend m s).gbarArr = s.gbarArr := by simp only [hostSend]
@[simp] theorem hostSend_gbarEpoch (m : HostOut) (s : State) : (hostSend m s).gbarEpoch = s.gbarEpoch := by simp only [hostSend]
@[simp] theorem hostSend_lostTw (m : HostOut) (s : State) : (hostSend m s).lostTw = s.lostTw := by simp only [hostSend]
@[simp] theorem hostSend_remote (m : HostOut) (s : State) : (hostSend m s).remote = s.remote := by simp only [hostSend]
@[simp] theorem hostSend_remoteRef (m : HostOut) (s : State) : (hostSend m s).remoteRef = s.remoteRef := by simp only [hostSend]
@[simp] theorem hostSend_hubs (m : HostOut) (s : State) : (hostSend m s).hubs = s.hubs := by simp only [hostSend]
@[simp] theorem hostSend_ctrs (m : HostOut) (s : State) : (hostSend m s).ctrs = s.ctrs := by simp only [hostSend]
@[simp] theorem hostSend_frozen (m : HostOut) (s : State) : (hostSend m s).frozen = s.frozen := by simp only [hostSend]
@[simp] theorem hostSend_telem (m : HostOut) (s : State) : (hostSend m s).telem = s.telem := by simp only [hostSend]
@[simp] theorem hostSend_map (m : HostOut) (s : State) : (hostSend m s).map = s.map := by simp only [hostSend]
@[simp] theorem hostSend_parts (m : HostOut) (s : State) : (hostSend m s).parts = s.parts := by simp only [hostSend]
@[simp] theorem hostSend_winMem (m : HostOut) (s : State) : (hostSend m s).winMem = s.winMem := by simp only [hostSend]
@[simp] theorem hostSend_wins (m : HostOut) (s : State) : (hostSend m s).wins = s.wins := by simp only [hostSend]
@[simp] theorem hostSend_nextPkt (m : HostOut) (s : State) : (hostSend m s).nextPkt = s.nextPkt := by simp only [hostSend]
@[simp] theorem hostSend_d3 (m : HostOut) (s : State) : (hostSend m s).d3 = s.d3 := by simp only [hostSend]
@[simp] theorem hostSend_cfg (m : HostOut) (s : State) : (hostSend m s).cfg = s.cfg := by simp only [hostSend]
@[simp] theorem hostSend_reads (m : HostOut) (s : State) : (hostSend m s).reads = s.reads := by simp only [hostSend]
@[simp] theorem hostSend_nextTag (m : HostOut) (s : State) : (hostSend m s).nextTag = s.nextTag := by simp only [hostSend]
@[simp] theorem hostSend_dmas (m : HostOut) (s : State) : (hostSend m s).dmas = s.dmas := by simp only [hostSend]
@[simp] theorem hostSend_zeroQ (m : HostOut) (s : State) : (hostSend m s).zeroQ = s.zeroQ := by simp only [hostSend]
@[simp] theorem hostSend_noReuse (m : HostOut) (s : State) : (hostSend m s).noReuse = s.noReuse := by simp only [hostSend]
@[simp] theorem hostSend_reload (m : HostOut) (s : State) : (hostSend m s).reload = s.reload := by simp only [hostSend]
@[simp] theorem hostSend_stage (m : HostOut) (s : State) : (hostSend m s).stage = s.stage := by simp only [hostSend]
@[simp] theorem hostSend_booted (m : HostOut) (s : State) : (hostSend m s).booted = s.booted := by simp only [hostSend]
@[simp] theorem hostSend_ns (m : HostOut) (s : State) : (hostSend m s).ns = s.ns := by simp only [hostSend]
@[simp] theorem hostSend_fatal (m : HostOut) (s : State) : (hostSend m s).fatal = s.fatal := by simp only [hostSend]
@[simp] theorem hostSend_faultN (m : HostOut) (s : State) : (hostSend m s).faultN = s.faultN := by simp only [hostSend]
@[simp] theorem hostSend_fresh (m : HostOut) (s : State) : (hostSend m s).fresh = s.fresh := by simp only [hostSend]
@[simp] theorem hostSend_pwr (m : HostOut) (s : State) : (hostSend m s).pwr = s.pwr := by simp only [hostSend]
@[simp] theorem hostSend_boot (m : HostOut) (s : State) : (hostSend m s).boot = s.boot := by simp only [hostSend]
@[simp] theorem hostSend_therm (m : HostOut) (s : State) : (hostSend m s).therm = s.therm := by simp only [hostSend]
@[simp] theorem hostSend_mnt (m : HostOut) (s : State) : (hostSend m s).mnt = s.mnt := by simp only [hostSend]
@[simp] theorem hostSend_sec (m : HostOut) (s : State) : (hostSend m s).sec = s.sec := by simp only [hostSend]
@[simp] theorem hostSend_net (m : HostOut) (s : State) : (hostSend m s).net = s.net := by simp only [hostSend]
@[simp] theorem hostSend_t2q (m : HostOut) (s : State) : (hostSend m s).t2q = s.t2q := by simp only [hostSend]
@[simp] theorem hostSend_t2poison (m : HostOut) (s : State) : (hostSend m s).t2poison = s.t2poison := by simp only [hostSend]
@[simp] theorem hostSend_fab (m : HostOut) (s : State) : (hostSend m s).fab = s.fab := by simp only [hostSend]
@[simp] theorem hostSend_snap (m : HostOut) (s : State) : (hostSend m s).snap = s.snap := by simp only [hostSend]
@[simp] theorem hostSend_mirror (m : HostOut) (s : State) : (hostSend m s).mirror = s.mirror := by simp only [hostSend]

@[simp] theorem takeFree_pending (s : State) : ((takeFree s).2).pending = s.pending := by simp only [takeFree]
@[simp] theorem takeFree_regs (s : State) : ((takeFree s).2).regs = s.regs := by simp only [takeFree]
@[simp] theorem takeFree_cores (s : State) : ((takeFree s).2).cores = s.cores := by simp only [takeFree]
@[simp] theorem takeFree_cols (s : State) : ((takeFree s).2).cols = s.cols := by simp only [takeFree]
@[simp] theorem takeFree_sp (s : State) : ((takeFree s).2).sp = s.sp := by simp only [takeFree]
@[simp] theorem takeFree_spChk (s : State) : ((takeFree s).2).spChk = s.spChk := by simp only [takeFree]
@[simp] theorem takeFree_spWr (s : State) : ((takeFree s).2).spWr = s.spWr := by simp only [takeFree]
@[simp] theorem takeFree_csram (s : State) : ((takeFree s).2).csram = s.csram := by simp only [takeFree]
@[simp] theorem takeFree_csChk (s : State) : ((takeFree s).2).csChk = s.csChk := by simp only [takeFree]
@[simp] theorem takeFree_csWr (s : State) : ((takeFree s).2).csWr = s.csWr := by simp only [takeFree]
@[simp] theorem takeFree_csQueue (s : State) : ((takeFree s).2).csQueue = s.csQueue := by simp only [takeFree]
@[simp] theorem takeFree_portResp (s : State) : ((takeFree s).2).portResp = s.portResp := by simp only [takeFree]
@[simp] theorem takeFree_t1 (s : State) : ((takeFree s).2).t1 = s.t1 := by simp only [takeFree]
@[simp] theorem takeFree_t1Chk (s : State) : ((takeFree s).2).t1Chk = s.t1Chk := by simp only [takeFree]
@[simp] theorem takeFree_ftag (s : State) : ((takeFree s).2).ftag = s.ftag := by simp only [takeFree]
@[simp] theorem takeFree_refRate (s : State) : ((takeFree s).2).refRate = s.refRate := by simp only [takeFree]
@[simp] theorem takeFree_t2 (s : State) : ((takeFree s).2).t2 = s.t2 := by simp only [takeFree]
@[simp] theorem takeFree_pools (s : State) : ((takeFree s).2).pools = s.pools := by simp only [takeFree]
@[simp] theorem takeFree_gbarArr (s : State) : ((takeFree s).2).gbarArr = s.gbarArr := by simp only [takeFree]
@[simp] theorem takeFree_gbarEpoch (s : State) : ((takeFree s).2).gbarEpoch = s.gbarEpoch := by simp only [takeFree]
@[simp] theorem takeFree_lostTw (s : State) : ((takeFree s).2).lostTw = s.lostTw := by simp only [takeFree]
@[simp] theorem takeFree_remote (s : State) : ((takeFree s).2).remote = s.remote := by simp only [takeFree]
@[simp] theorem takeFree_remoteRef (s : State) : ((takeFree s).2).remoteRef = s.remoteRef := by simp only [takeFree]
@[simp] theorem takeFree_hubs (s : State) : ((takeFree s).2).hubs = s.hubs := by simp only [takeFree]
@[simp] theorem takeFree_ctrs (s : State) : ((takeFree s).2).ctrs = s.ctrs := by simp only [takeFree]
@[simp] theorem takeFree_frozen (s : State) : ((takeFree s).2).frozen = s.frozen := by simp only [takeFree]
@[simp] theorem takeFree_telem (s : State) : ((takeFree s).2).telem = s.telem := by simp only [takeFree]
@[simp] theorem takeFree_map (s : State) : ((takeFree s).2).map = s.map := by simp only [takeFree]
@[simp] theorem takeFree_parts (s : State) : ((takeFree s).2).parts = s.parts := by simp only [takeFree]
@[simp] theorem takeFree_winMem (s : State) : ((takeFree s).2).winMem = s.winMem := by simp only [takeFree]
@[simp] theorem takeFree_wins (s : State) : ((takeFree s).2).wins = s.wins := by simp only [takeFree]
@[simp] theorem takeFree_nextPkt (s : State) : ((takeFree s).2).nextPkt = s.nextPkt := by simp only [takeFree]
@[simp] theorem takeFree_d3 (s : State) : ((takeFree s).2).d3 = s.d3 := by simp only [takeFree]
@[simp] theorem takeFree_cfg (s : State) : ((takeFree s).2).cfg = s.cfg := by simp only [takeFree]
@[simp] theorem takeFree_reads (s : State) : ((takeFree s).2).reads = s.reads := by simp only [takeFree]
@[simp] theorem takeFree_nextTag (s : State) : ((takeFree s).2).nextTag = s.nextTag := by simp only [takeFree]
@[simp] theorem takeFree_dmas (s : State) : ((takeFree s).2).dmas = s.dmas := by simp only [takeFree]
@[simp] theorem takeFree_zeroQ (s : State) : ((takeFree s).2).zeroQ = s.zeroQ := by simp only [takeFree]
@[simp] theorem takeFree_noReuse (s : State) : ((takeFree s).2).noReuse = s.noReuse := by simp only [takeFree]
@[simp] theorem takeFree_reload (s : State) : ((takeFree s).2).reload = s.reload := by simp only [takeFree]
@[simp] theorem takeFree_stage (s : State) : ((takeFree s).2).stage = s.stage := by simp only [takeFree]
@[simp] theorem takeFree_booted (s : State) : ((takeFree s).2).booted = s.booted := by simp only [takeFree]
@[simp] theorem takeFree_ns (s : State) : ((takeFree s).2).ns = s.ns := by simp only [takeFree]
@[simp] theorem takeFree_fatal (s : State) : ((takeFree s).2).fatal = s.fatal := by simp only [takeFree]
@[simp] theorem takeFree_faultN (s : State) : ((takeFree s).2).faultN = s.faultN := by simp only [takeFree]
@[simp] theorem takeFree_hostOut (s : State) : ((takeFree s).2).hostOut = s.hostOut := by simp only [takeFree]
@[simp] theorem takeFree_pwr (s : State) : ((takeFree s).2).pwr = s.pwr := by simp only [takeFree]
@[simp] theorem takeFree_boot (s : State) : ((takeFree s).2).boot = s.boot := by simp only [takeFree]
@[simp] theorem takeFree_therm (s : State) : ((takeFree s).2).therm = s.therm := by simp only [takeFree]
@[simp] theorem takeFree_mnt (s : State) : ((takeFree s).2).mnt = s.mnt := by simp only [takeFree]
@[simp] theorem takeFree_sec (s : State) : ((takeFree s).2).sec = s.sec := by simp only [takeFree]
@[simp] theorem takeFree_net (s : State) : ((takeFree s).2).net = s.net := by simp only [takeFree]
@[simp] theorem takeFree_t2q (s : State) : ((takeFree s).2).t2q = s.t2q := by simp only [takeFree]
@[simp] theorem takeFree_t2poison (s : State) : ((takeFree s).2).t2poison = s.t2poison := by simp only [takeFree]
@[simp] theorem takeFree_fab (s : State) : ((takeFree s).2).fab = s.fab := by simp only [takeFree]
@[simp] theorem takeFree_snap (s : State) : ((takeFree s).2).snap = s.snap := by simp only [takeFree]
@[simp] theorem takeFree_mirror (s : State) : ((takeFree s).2).mirror = s.mirror := by simp only [takeFree]

/-! ## Accessors of other fields -/

@[simp] theorem cget_rset (o : Nat) (w : Word) (s : State) (a : Nat) : cget (rset o w s) a = cget s a := by
  unfold cget; simp only [rset_cores]
@[simp] theorem colget_rset (o : Nat) (w : Word) (s : State) (a : Nat) : colget (rset o w s) a = colget s a := by
  unfold colget; simp only [rset_cols]
@[simp] theorem hget_rset (o : Nat) (w : Word) (s : State) (a : Nat) : hget (rset o w s) a = hget s a := by
  unfold hget; simp only [rset_hubs]
@[simp] theorem pget_rset (o : Nat) (w : Word) (s : State) (a : Nat) : pget (rset o w s) a = pget s a := by
  unfold pget; simp only [rset_parts]
@[simp] theorem sq_rset (o : Nat) (w : Word) (s : State) (a : Nat) : sq (rset o w s) a = sq s a := by
  unfold sq; simp only [cget_rset]
@[simp] theorem cget_rupd (o : Nat) (f : Word → Word) (s : State) (a : Nat) : cget (rupd o f s) a = cget s a := by
  unfold cget; simp only [rupd_cores]
@[simp] theorem colget_rupd (o : Nat) (f : Word → Word) (s : State) (a : Nat) : colget (rupd o f s) a = colget s a := by
  unfold colget; simp only [rupd_cols]
@[simp] theorem hget_rupd (o : Nat) (f : Word → Word) (s : State) (a : Nat) : hget (rupd o f s) a = hget s a := by
  unfold hget; simp only [rupd_hubs]
@[simp] theorem pget_rupd (o : Nat) (f : Word → Word) (s : State) (a : Nat) : pget (rupd o f s) a = pget s a := by
  unfold pget; simp only [rupd_parts]
@[simp] theorem sq_rupd (o : Nat) (f : Word → Word) (s : State) (a : Nat) : sq (rupd o f s) a = sq s a := by
  unfold sq; simp only [cget_rupd]
@[simp] theorem cget_corSet (c o : Nat) (w : Word) (s : State) (a : Nat) : cget (corSet c o w s) a = cget s a := by
  unfold cget; simp only [corSet_cores]
@[simp] theorem colget_corSet (c o : Nat) (w : Word) (s : State) (a : Nat) : colget (corSet c o w s) a = colget s a := by
  unfold colget; simp only [corSet_cols]
@[simp] theorem hget_corSet (c o : Nat) (w : Word) (s : State) (a : Nat) : hget (corSet c o w s) a = hget s a := by
  unfold hget; simp only [corSet_hubs]
@[simp] theorem pget_corSet (c o : Nat) (w : Word) (s : State) (a : Nat) : pget (corSet c o w s) a = pget s a := by
  unfold pget; simp only [corSet_parts]
@[simp] theorem sq_corSet (c o : Nat) (w : Word) (s : State) (a : Nat) : sq (corSet c o w s) a = sq s a := by
  unfold sq; simp only [cget_corSet]
@[simp] theorem cget_corUpd (c o : Nat) (f : Word → Word) (s : State) (a : Nat) : cget (corUpd c o f s) a = cget s a := by
  unfold cget; simp only [corUpd_cores]
@[simp] theorem colget_corUpd (c o : Nat) (f : Word → Word) (s : State) (a : Nat) : colget (corUpd c o f s) a = colget s a := by
  unfold colget; simp only [corUpd_cols]
@[simp] theorem hget_corUpd (c o : Nat) (f : Word → Word) (s : State) (a : Nat) : hget (corUpd c o f s) a = hget s a := by
  unfold hget; simp only [corUpd_hubs]
@[simp] theorem pget_corUpd (c o : Nat) (f : Word → Word) (s : State) (a : Nat) : pget (corUpd c o f s) a = pget s a := by
  unfold pget; simp only [corUpd_parts]
@[simp] theorem sq_corUpd (c o : Nat) (f : Word → Word) (s : State) (a : Nat) : sq (corUpd c o f s) a = sq s a := by
  unfold sq; simp only [cget_corUpd]
@[simp] theorem cget_cluSet (c o : Nat) (w : Word) (s : State) (a : Nat) : cget (cluSet c o w s) a = cget s a := by
  unfold cget; simp only [cluSet_cores]
@[simp] theorem colget_cluSet (c o : Nat) (w : Word) (s : State) (a : Nat) : colget (cluSet c o w s) a = colget s a := by
  unfold colget; simp only [cluSet_cols]
@[simp] theorem hget_cluSet (c o : Nat) (w : Word) (s : State) (a : Nat) : hget (cluSet c o w s) a = hget s a := by
  unfold hget; simp only [cluSet_hubs]
@[simp] theorem pget_cluSet (c o : Nat) (w : Word) (s : State) (a : Nat) : pget (cluSet c o w s) a = pget s a := by
  unfold pget; simp only [cluSet_parts]
@[simp] theorem sq_cluSet (c o : Nat) (w : Word) (s : State) (a : Nat) : sq (cluSet c o w s) a = sq s a := by
  unfold sq; simp only [cget_cluSet]
@[simp] theorem cget_cluUpd (c o : Nat) (f : Word → Word) (s : State) (a : Nat) : cget (cluUpd c o f s) a = cget s a := by
  unfold cget; simp only [cluUpd_cores]
@[simp] theorem colget_cluUpd (c o : Nat) (f : Word → Word) (s : State) (a : Nat) : colget (cluUpd c o f s) a = colget s a := by
  unfold colget; simp only [cluUpd_cols]
@[simp] theorem hget_cluUpd (c o : Nat) (f : Word → Word) (s : State) (a : Nat) : hget (cluUpd c o f s) a = hget s a := by
  unfold hget; simp only [cluUpd_hubs]
@[simp] theorem pget_cluUpd (c o : Nat) (f : Word → Word) (s : State) (a : Nat) : pget (cluUpd c o f s) a = pget s a := by
  unfold pget; simp only [cluUpd_parts]
@[simp] theorem sq_cluUpd (c o : Nat) (f : Word → Word) (s : State) (a : Nat) : sq (cluUpd c o f s) a = sq s a := by
  unfold sq; simp only [cget_cluUpd]
@[simp] theorem rget_cset (c : Nat) (v : CoreSt) (s : State) (a : Nat) : rget (cset c v s) a = rget s a := by
  unfold rget; simp only [cset_regs]
@[simp] theorem colget_cset (c : Nat) (v : CoreSt) (s : State) (a : Nat) : colget (cset c v s) a = colget s a := by
  unfold colget; simp only [cset_cols]
@[simp] theorem hget_cset (c : Nat) (v : CoreSt) (s : State) (a : Nat) : hget (cset c v s) a = hget s a := by
  unfold hget; simp only [cset_hubs]
@[simp] theorem pget_cset (c : Nat) (v : CoreSt) (s : State) (a : Nat) : pget (cset c v s) a = pget s a := by
  unfold pget; simp only [cset_parts]
@[simp] theorem rget_cupd (c : Nat) (f : CoreSt → CoreSt) (s : State) (a : Nat) : rget (cupd c f s) a = rget s a := by
  unfold rget; simp only [cupd_regs]
@[simp] theorem colget_cupd (c : Nat) (f : CoreSt → CoreSt) (s : State) (a : Nat) : colget (cupd c f s) a = colget s a := by
  unfold colget; simp only [cupd_cols]
@[simp] theorem hget_cupd (c : Nat) (f : CoreSt → CoreSt) (s : State) (a : Nat) : hget (cupd c f s) a = hget s a := by
  unfold hget; simp only [cupd_hubs]
@[simp] theorem pget_cupd (c : Nat) (f : CoreSt → CoreSt) (s : State) (a : Nat) : pget (cupd c f s) a = pget s a := by
  unfold pget; simp only [cupd_parts]
@[simp] theorem rget_squpd (c : Nat) (f : SeqSt → SeqSt) (s : State) (a : Nat) : rget (squpd c f s) a = rget s a := by
  unfold rget; simp only [squpd_regs]
@[simp] theorem colget_squpd (c : Nat) (f : SeqSt → SeqSt) (s : State) (a : Nat) : colget (squpd c f s) a = colget s a := by
  unfold colget; simp only [squpd_cols]
@[simp] theorem hget_squpd (c : Nat) (f : SeqSt → SeqSt) (s : State) (a : Nat) : hget (squpd c f s) a = hget s a := by
  unfold hget; simp only [squpd_hubs]
@[simp] theorem pget_squpd (c : Nat) (f : SeqSt → SeqSt) (s : State) (a : Nat) : pget (squpd c f s) a = pget s a := by
  unfold pget; simp only [squpd_parts]
@[simp] theorem rget_colset (k : Nat) (v : ColSt) (s : State) (a : Nat) : rget (colset k v s) a = rget s a := by
  unfold rget; simp only [colset_regs]
@[simp] theorem cget_colset (k : Nat) (v : ColSt) (s : State) (a : Nat) : cget (colset k v s) a = cget s a := by
  unfold cget; simp only [colset_cores]
@[simp] theorem hget_colset (k : Nat) (v : ColSt) (s : State) (a : Nat) : hget (colset k v s) a = hget s a := by
  unfold hget; simp only [colset_hubs]
@[simp] theorem pget_colset (k : Nat) (v : ColSt) (s : State) (a : Nat) : pget (colset k v s) a = pget s a := by
  unfold pget; simp only [colset_parts]
@[simp] theorem sq_colset (k : Nat) (v : ColSt) (s : State) (a : Nat) : sq (colset k v s) a = sq s a := by
  unfold sq; simp only [cget_colset]
@[simp] theorem rget_colupd (k : Nat) (f : ColSt → ColSt) (s : State) (a : Nat) : rget (colupd k f s) a = rget s a := by
  unfold rget; simp only [colupd_regs]
@[simp] theorem cget_colupd (k : Nat) (f : ColSt → ColSt) (s : State) (a : Nat) : cget (colupd k f s) a = cget s a := by
  unfold cget; simp only [colupd_cores]
@[simp] theorem hget_colupd (k : Nat) (f : ColSt → ColSt) (s : State) (a : Nat) : hget (colupd k f s) a = hget s a := by
  unfold hget; simp only [colupd_hubs]
@[simp] theorem pget_colupd (k : Nat) (f : ColSt → ColSt) (s : State) (a : Nat) : pget (colupd k f s) a = pget s a := by
  unfold pget; simp only [colupd_parts]
@[simp] theorem sq_colupd (k : Nat) (f : ColSt → ColSt) (s : State) (a : Nat) : sq (colupd k f s) a = sq s a := by
  unfold sq; simp only [cget_colupd]
@[simp] theorem rget_hset (h : Nat) (v : HubSt) (s : State) (a : Nat) : rget (hset h v s) a = rget s a := by
  unfold rget; simp only [hset_regs]
@[simp] theorem cget_hset (h : Nat) (v : HubSt) (s : State) (a : Nat) : cget (hset h v s) a = cget s a := by
  unfold cget; simp only [hset_cores]
@[simp] theorem colget_hset (h : Nat) (v : HubSt) (s : State) (a : Nat) : colget (hset h v s) a = colget s a := by
  unfold colget; simp only [hset_cols]
@[simp] theorem pget_hset (h : Nat) (v : HubSt) (s : State) (a : Nat) : pget (hset h v s) a = pget s a := by
  unfold pget; simp only [hset_parts]
@[simp] theorem sq_hset (h : Nat) (v : HubSt) (s : State) (a : Nat) : sq (hset h v s) a = sq s a := by
  unfold sq; simp only [cget_hset]
@[simp] theorem rget_pset (p : Nat) (v : PartSt) (s : State) (a : Nat) : rget (pset p v s) a = rget s a := by
  unfold rget; simp only [pset_regs]
@[simp] theorem cget_pset (p : Nat) (v : PartSt) (s : State) (a : Nat) : cget (pset p v s) a = cget s a := by
  unfold cget; simp only [pset_cores]
@[simp] theorem colget_pset (p : Nat) (v : PartSt) (s : State) (a : Nat) : colget (pset p v s) a = colget s a := by
  unfold colget; simp only [pset_cols]
@[simp] theorem hget_pset (p : Nat) (v : PartSt) (s : State) (a : Nat) : hget (pset p v s) a = hget s a := by
  unfold hget; simp only [pset_hubs]
@[simp] theorem sq_pset (p : Nat) (v : PartSt) (s : State) (a : Nat) : sq (pset p v s) a = sq s a := by
  unfold sq; simp only [cget_pset]
@[simp] theorem rget_pupd (p : Nat) (f : PartSt → PartSt) (s : State) (a : Nat) : rget (pupd p f s) a = rget s a := by
  unfold rget; simp only [pupd_regs]
@[simp] theorem cget_pupd (p : Nat) (f : PartSt → PartSt) (s : State) (a : Nat) : cget (pupd p f s) a = cget s a := by
  unfold cget; simp only [pupd_cores]
@[simp] theorem colget_pupd (p : Nat) (f : PartSt → PartSt) (s : State) (a : Nat) : colget (pupd p f s) a = colget s a := by
  unfold colget; simp only [pupd_cols]
@[simp] theorem hget_pupd (p : Nat) (f : PartSt → PartSt) (s : State) (a : Nat) : hget (pupd p f s) a = hget s a := by
  unfold hget; simp only [pupd_hubs]
@[simp] theorem sq_pupd (p : Nat) (f : PartSt → PartSt) (s : State) (a : Nat) : sq (pupd p f s) a = sq s a := by
  unfold sq; simp only [cget_pupd]
@[simp] theorem rget_hostSend (m : HostOut) (s : State) (a : Nat) : rget (hostSend m s) a = rget s a := by
  unfold rget; simp only [hostSend_regs]
@[simp] theorem cget_hostSend (m : HostOut) (s : State) (a : Nat) : cget (hostSend m s) a = cget s a := by
  unfold cget; simp only [hostSend_cores]
@[simp] theorem colget_hostSend (m : HostOut) (s : State) (a : Nat) : colget (hostSend m s) a = colget s a := by
  unfold colget; simp only [hostSend_cols]
@[simp] theorem hget_hostSend (m : HostOut) (s : State) (a : Nat) : hget (hostSend m s) a = hget s a := by
  unfold hget; simp only [hostSend_hubs]
@[simp] theorem pget_hostSend (m : HostOut) (s : State) (a : Nat) : pget (hostSend m s) a = pget s a := by
  unfold pget; simp only [hostSend_parts]
@[simp] theorem sq_hostSend (m : HostOut) (s : State) (a : Nat) : sq (hostSend m s) a = sq s a := by
  unfold sq; simp only [cget_hostSend]
@[simp] theorem rget_takeFree (s : State) (a : Nat) : rget ((takeFree s).2) a = rget s a := by
  unfold rget; simp only [takeFree_regs]
@[simp] theorem cget_takeFree (s : State) (a : Nat) : cget ((takeFree s).2) a = cget s a := by
  unfold cget; simp only [takeFree_cores]
@[simp] theorem colget_takeFree (s : State) (a : Nat) : colget ((takeFree s).2) a = colget s a := by
  unfold colget; simp only [takeFree_cols]
@[simp] theorem hget_takeFree (s : State) (a : Nat) : hget ((takeFree s).2) a = hget s a := by
  unfold hget; simp only [takeFree_hubs]
@[simp] theorem pget_takeFree (s : State) (a : Nat) : pget ((takeFree s).2) a = pget s a := by
  unfold pget; simp only [takeFree_parts]
@[simp] theorem sq_takeFree (s : State) (a : Nat) : sq ((takeFree s).2) a = sq s a := by
  unfold sq; simp only [cget_takeFree]

/-! ## Read after write -/

theorem rget_rset (o a : Nat) (w : Word) (s : State) : rget (rset o w s) a = if a = o then w else rget s a :=
  stGet_stSet _ _ _ _ _

@[simp] theorem rget_rset_same (o : Nat) (w : Word) (s : State) : rget (rset o w s) o = w := stGet_stSet_same _ _ _ _

theorem rget_rset_other {o a : Nat} (w : Word) (s : State) (h : a ≠ o) : rget (rset o w s) a = rget s a :=
  stGet_stSet_other _ _ _ h

theorem rget_rupd (o a : Nat) (f : Word → Word) (s : State) :
    rget (rupd o f s) a = if a = o then f (rget s o) else rget s a := rget_rset _ _ _ _

theorem cget_cset (c a : Nat) (v : CoreSt) (s : State) : cget (cset c v s) a = if a = c then v else cget s a :=
  stGet_stSet _ _ _ _ _

@[simp] theorem cget_cset_same (c : Nat) (v : CoreSt) (s : State) : cget (cset c v s) c = v := stGet_stSet_same _ _ _ _

theorem cget_cset_other {c a : Nat} (v : CoreSt) (s : State) (h : a ≠ c) : cget (cset c v s) a = cget s a :=
  stGet_stSet_other _ _ _ h

theorem cget_cupd (c a : Nat) (f : CoreSt → CoreSt) (s : State) :
    cget (cupd c f s) a = if a = c then f (cget s c) else cget s a := cget_cset _ _ _ _

@[simp] theorem cget_cupd_same (c : Nat) (f : CoreSt → CoreSt) (s : State) : cget (cupd c f s) c = f (cget s c) :=
  stGet_stSet_same _ _ _ _

theorem cget_cupd_other {c a : Nat} (f : CoreSt → CoreSt) (s : State) (h : a ≠ c) : cget (cupd c f s) a = cget s a :=
  stGet_stSet_other _ _ _ h

@[simp] theorem cget_squpd_same (c : Nat) (f : SeqSt → SeqSt) (s : State) :
    cget (squpd c f s) c = { cget s c with seq := f (cget s c).seq } := cget_cupd_same _ _ _

theorem cget_squpd_other {c a : Nat} (f : SeqSt → SeqSt) (s : State) (h : a ≠ c) : cget (squpd c f s) a = cget s a :=
  cget_cupd_other _ _ h

@[simp] theorem sq_squpd_same (c : Nat) (f : SeqSt → SeqSt) (s : State) : sq (squpd c f s) c = f (sq s c) := by
  simp [sq]

theorem colget_colset (k a : Nat) (v : ColSt) (s : State) : colget (colset k v s) a = if a = k then v else colget s a :=
  stGet_stSet _ _ _ _ _

@[simp] theorem colget_colset_same (k : Nat) (v : ColSt) (s : State) : colget (colset k v s) k = v :=
  stGet_stSet_same _ _ _ _

@[simp] theorem colget_colupd_same (k : Nat) (f : ColSt → ColSt) (s : State) : colget (colupd k f s) k = f (colget s k) :=
  stGet_stSet_same _ _ _ _

theorem colget_colupd_other {k a : Nat} (f : ColSt → ColSt) (s : State) (h : a ≠ k) :
    colget (colupd k f s) a = colget s a := stGet_stSet_other _ _ _ h

@[simp] theorem hget_hset_same (h : Nat) (v : HubSt) (s : State) : hget (hset h v s) h = v := stGet_stSet_same _ _ _ _

theorem hget_hset_other {h a : Nat} (v : HubSt) (s : State) (e : a ≠ h) : hget (hset h v s) a = hget s a :=
  stGet_stSet_other _ _ _ e

@[simp] theorem pget_pset_same (p : Nat) (v : PartSt) (s : State) : pget (pset p v s) p = v := stGet_stSet_same _ _ _ _

theorem pget_pset_other {p a : Nat} (v : PartSt) (s : State) (h : a ≠ p) : pget (pset p v s) a = pget s a :=
  stGet_stSet_other _ _ _ h

@[simp] theorem pget_pupd_same (p : Nat) (f : PartSt → PartSt) (s : State) : pget (pupd p f s) p = f (pget s p) :=
  stGet_stSet_same _ _ _ _

theorem pget_pupd_other {p a : Nat} (f : PartSt → PartSt) (s : State) (h : a ≠ p) : pget (pupd p f s) a = pget s a :=
  stGet_stSet_other _ _ _ h

/-! ## Counting changes counters only -/

theorem tally_eq (sel : Nat → Bool) (evt n : Nat) (tx : Option Tx) (s : State) :
    tally sel evt n tx s = { s with ctrs := (tally sel evt n tx s).ctrs } := by
  unfold tally; split <;> rfl

theorem tallyCore_eq (c evt n : Nat) (tx : Option Tx) (s : State) :
    tallyCore c evt n tx s = { s with ctrs := (tallyCore c evt n tx s).ctrs } := by
  unfold tallyCore; split
  · rfl
  · exact tally_eq _ _ _ _ _

theorem tallyClu_eq (c evt n : Nat) (tx : Option Tx) (s : State) :
    tallyClu c evt n tx s = { s with ctrs := (tallyClu c evt n tx s).ctrs } := tally_eq _ _ _ _ _

theorem tallyHub_eq (h evt n : Nat) (tx : Option Tx) (s : State) :
    tallyHub h evt n tx s = { s with ctrs := (tallyHub h evt n tx s).ctrs } := tally_eq _ _ _ _ _

@[simp] theorem tallyCore_pending (c e n : Nat) (tx : Option Tx) (s : State) : (tallyCore c e n tx s).pending = s.pending := by rw [tallyCore_eq]
@[simp] theorem tallyCore_regs (c e n : Nat) (tx : Option Tx) (s : State) : (tallyCore c e n tx s).regs = s.regs := by rw [tallyCore_eq]
@[simp] theorem tallyCore_cores (c e n : Nat) (tx : Option Tx) (s : State) : (tallyCore c e n tx s).cores = s.cores := by rw [tallyCore_eq]
@[simp] theorem tallyCore_cols (c e n : Nat) (tx : Option Tx) (s : State) : (tallyCore c e n tx s).cols = s.cols := by rw [tallyCore_eq]
@[simp] theorem tallyCore_sp (c e n : Nat) (tx : Option Tx) (s : State) : (tallyCore c e n tx s).sp = s.sp := by rw [tallyCore_eq]
@[simp] theorem tallyCore_spChk (c e n : Nat) (tx : Option Tx) (s : State) : (tallyCore c e n tx s).spChk = s.spChk := by rw [tallyCore_eq]
@[simp] theorem tallyCore_spWr (c e n : Nat) (tx : Option Tx) (s : State) : (tallyCore c e n tx s).spWr = s.spWr := by rw [tallyCore_eq]
@[simp] theorem tallyCore_csram (c e n : Nat) (tx : Option Tx) (s : State) : (tallyCore c e n tx s).csram = s.csram := by rw [tallyCore_eq]
@[simp] theorem tallyCore_csChk (c e n : Nat) (tx : Option Tx) (s : State) : (tallyCore c e n tx s).csChk = s.csChk := by rw [tallyCore_eq]
@[simp] theorem tallyCore_csWr (c e n : Nat) (tx : Option Tx) (s : State) : (tallyCore c e n tx s).csWr = s.csWr := by rw [tallyCore_eq]
@[simp] theorem tallyCore_csQueue (c e n : Nat) (tx : Option Tx) (s : State) : (tallyCore c e n tx s).csQueue = s.csQueue := by rw [tallyCore_eq]
@[simp] theorem tallyCore_portResp (c e n : Nat) (tx : Option Tx) (s : State) : (tallyCore c e n tx s).portResp = s.portResp := by rw [tallyCore_eq]
@[simp] theorem tallyCore_t1 (c e n : Nat) (tx : Option Tx) (s : State) : (tallyCore c e n tx s).t1 = s.t1 := by rw [tallyCore_eq]
@[simp] theorem tallyCore_t1Chk (c e n : Nat) (tx : Option Tx) (s : State) : (tallyCore c e n tx s).t1Chk = s.t1Chk := by rw [tallyCore_eq]
@[simp] theorem tallyCore_ftag (c e n : Nat) (tx : Option Tx) (s : State) : (tallyCore c e n tx s).ftag = s.ftag := by rw [tallyCore_eq]
@[simp] theorem tallyCore_refRate (c e n : Nat) (tx : Option Tx) (s : State) : (tallyCore c e n tx s).refRate = s.refRate := by rw [tallyCore_eq]
@[simp] theorem tallyCore_t2 (c e n : Nat) (tx : Option Tx) (s : State) : (tallyCore c e n tx s).t2 = s.t2 := by rw [tallyCore_eq]
@[simp] theorem tallyCore_pools (c e n : Nat) (tx : Option Tx) (s : State) : (tallyCore c e n tx s).pools = s.pools := by rw [tallyCore_eq]
@[simp] theorem tallyCore_gbarArr (c e n : Nat) (tx : Option Tx) (s : State) : (tallyCore c e n tx s).gbarArr = s.gbarArr := by rw [tallyCore_eq]
@[simp] theorem tallyCore_gbarEpoch (c e n : Nat) (tx : Option Tx) (s : State) : (tallyCore c e n tx s).gbarEpoch = s.gbarEpoch := by rw [tallyCore_eq]
@[simp] theorem tallyCore_lostTw (c e n : Nat) (tx : Option Tx) (s : State) : (tallyCore c e n tx s).lostTw = s.lostTw := by rw [tallyCore_eq]
@[simp] theorem tallyCore_remote (c e n : Nat) (tx : Option Tx) (s : State) : (tallyCore c e n tx s).remote = s.remote := by rw [tallyCore_eq]
@[simp] theorem tallyCore_remoteRef (c e n : Nat) (tx : Option Tx) (s : State) : (tallyCore c e n tx s).remoteRef = s.remoteRef := by rw [tallyCore_eq]
@[simp] theorem tallyCore_hubs (c e n : Nat) (tx : Option Tx) (s : State) : (tallyCore c e n tx s).hubs = s.hubs := by rw [tallyCore_eq]
@[simp] theorem tallyCore_frozen (c e n : Nat) (tx : Option Tx) (s : State) : (tallyCore c e n tx s).frozen = s.frozen := by rw [tallyCore_eq]
@[simp] theorem tallyCore_telem (c e n : Nat) (tx : Option Tx) (s : State) : (tallyCore c e n tx s).telem = s.telem := by rw [tallyCore_eq]
@[simp] theorem tallyCore_map (c e n : Nat) (tx : Option Tx) (s : State) : (tallyCore c e n tx s).map = s.map := by rw [tallyCore_eq]
@[simp] theorem tallyCore_parts (c e n : Nat) (tx : Option Tx) (s : State) : (tallyCore c e n tx s).parts = s.parts := by rw [tallyCore_eq]
@[simp] theorem tallyCore_winMem (c e n : Nat) (tx : Option Tx) (s : State) : (tallyCore c e n tx s).winMem = s.winMem := by rw [tallyCore_eq]
@[simp] theorem tallyCore_wins (c e n : Nat) (tx : Option Tx) (s : State) : (tallyCore c e n tx s).wins = s.wins := by rw [tallyCore_eq]
@[simp] theorem tallyCore_nextPkt (c e n : Nat) (tx : Option Tx) (s : State) : (tallyCore c e n tx s).nextPkt = s.nextPkt := by rw [tallyCore_eq]
@[simp] theorem tallyCore_d3 (c e n : Nat) (tx : Option Tx) (s : State) : (tallyCore c e n tx s).d3 = s.d3 := by rw [tallyCore_eq]
@[simp] theorem tallyCore_cfg (c e n : Nat) (tx : Option Tx) (s : State) : (tallyCore c e n tx s).cfg = s.cfg := by rw [tallyCore_eq]
@[simp] theorem tallyCore_reads (c e n : Nat) (tx : Option Tx) (s : State) : (tallyCore c e n tx s).reads = s.reads := by rw [tallyCore_eq]
@[simp] theorem tallyCore_nextTag (c e n : Nat) (tx : Option Tx) (s : State) : (tallyCore c e n tx s).nextTag = s.nextTag := by rw [tallyCore_eq]
@[simp] theorem tallyCore_dmas (c e n : Nat) (tx : Option Tx) (s : State) : (tallyCore c e n tx s).dmas = s.dmas := by rw [tallyCore_eq]
@[simp] theorem tallyCore_zeroQ (c e n : Nat) (tx : Option Tx) (s : State) : (tallyCore c e n tx s).zeroQ = s.zeroQ := by rw [tallyCore_eq]
@[simp] theorem tallyCore_noReuse (c e n : Nat) (tx : Option Tx) (s : State) : (tallyCore c e n tx s).noReuse = s.noReuse := by rw [tallyCore_eq]
@[simp] theorem tallyCore_reload (c e n : Nat) (tx : Option Tx) (s : State) : (tallyCore c e n tx s).reload = s.reload := by rw [tallyCore_eq]
@[simp] theorem tallyCore_stage (c e n : Nat) (tx : Option Tx) (s : State) : (tallyCore c e n tx s).stage = s.stage := by rw [tallyCore_eq]
@[simp] theorem tallyCore_booted (c e n : Nat) (tx : Option Tx) (s : State) : (tallyCore c e n tx s).booted = s.booted := by rw [tallyCore_eq]
@[simp] theorem tallyCore_ns (c e n : Nat) (tx : Option Tx) (s : State) : (tallyCore c e n tx s).ns = s.ns := by rw [tallyCore_eq]
@[simp] theorem tallyCore_fatal (c e n : Nat) (tx : Option Tx) (s : State) : (tallyCore c e n tx s).fatal = s.fatal := by rw [tallyCore_eq]
@[simp] theorem tallyCore_faultN (c e n : Nat) (tx : Option Tx) (s : State) : (tallyCore c e n tx s).faultN = s.faultN := by rw [tallyCore_eq]
@[simp] theorem tallyCore_hostOut (c e n : Nat) (tx : Option Tx) (s : State) : (tallyCore c e n tx s).hostOut = s.hostOut := by rw [tallyCore_eq]
@[simp] theorem tallyCore_fresh (c e n : Nat) (tx : Option Tx) (s : State) : (tallyCore c e n tx s).fresh = s.fresh := by rw [tallyCore_eq]
@[simp] theorem tallyCore_pwr (c e n : Nat) (tx : Option Tx) (s : State) : (tallyCore c e n tx s).pwr = s.pwr := by rw [tallyCore_eq]
@[simp] theorem tallyCore_boot (c e n : Nat) (tx : Option Tx) (s : State) : (tallyCore c e n tx s).boot = s.boot := by rw [tallyCore_eq]
@[simp] theorem tallyCore_therm (c e n : Nat) (tx : Option Tx) (s : State) : (tallyCore c e n tx s).therm = s.therm := by rw [tallyCore_eq]
@[simp] theorem tallyCore_mnt (c e n : Nat) (tx : Option Tx) (s : State) : (tallyCore c e n tx s).mnt = s.mnt := by rw [tallyCore_eq]
@[simp] theorem tallyCore_sec (c e n : Nat) (tx : Option Tx) (s : State) : (tallyCore c e n tx s).sec = s.sec := by rw [tallyCore_eq]
@[simp] theorem tallyCore_net (c e n : Nat) (tx : Option Tx) (s : State) : (tallyCore c e n tx s).net = s.net := by rw [tallyCore_eq]
@[simp] theorem tallyCore_t2q (c e n : Nat) (tx : Option Tx) (s : State) : (tallyCore c e n tx s).t2q = s.t2q := by rw [tallyCore_eq]
@[simp] theorem tallyCore_t2poison (c e n : Nat) (tx : Option Tx) (s : State) : (tallyCore c e n tx s).t2poison = s.t2poison := by rw [tallyCore_eq]
@[simp] theorem tallyCore_fab (c e n : Nat) (tx : Option Tx) (s : State) : (tallyCore c e n tx s).fab = s.fab := by rw [tallyCore_eq]
@[simp] theorem tallyCore_snap (c e n : Nat) (tx : Option Tx) (s : State) : (tallyCore c e n tx s).snap = s.snap := by rw [tallyCore_eq]
@[simp] theorem tallyCore_mirror (c e n : Nat) (tx : Option Tx) (s : State) : (tallyCore c e n tx s).mirror = s.mirror := by rw [tallyCore_eq]
@[simp] theorem rget_tallyCore (c e n : Nat) (tx : Option Tx) (s : State) (a : Nat) : rget (tallyCore c e n tx s) a = rget s a := by rw [tallyCore_eq]; rfl
@[simp] theorem cget_tallyCore (c e n : Nat) (tx : Option Tx) (s : State) (a : Nat) : cget (tallyCore c e n tx s) a = cget s a := by rw [tallyCore_eq]; rfl
@[simp] theorem colget_tallyCore (c e n : Nat) (tx : Option Tx) (s : State) (a : Nat) : colget (tallyCore c e n tx s) a = colget s a := by rw [tallyCore_eq]; rfl
@[simp] theorem hget_tallyCore (c e n : Nat) (tx : Option Tx) (s : State) (a : Nat) : hget (tallyCore c e n tx s) a = hget s a := by rw [tallyCore_eq]; rfl
@[simp] theorem pget_tallyCore (c e n : Nat) (tx : Option Tx) (s : State) (a : Nat) : pget (tallyCore c e n tx s) a = pget s a := by rw [tallyCore_eq]; rfl
@[simp] theorem sq_tallyCore (c e n : Nat) (tx : Option Tx) (s : State) (a : Nat) : sq (tallyCore c e n tx s) a = sq s a := by rw [tallyCore_eq]; rfl
@[simp] theorem tallyClu_pending (c e n : Nat) (tx : Option Tx) (s : State) : (tallyClu c e n tx s).pending = s.pending := by rw [tallyClu_eq]
@[simp] theorem tallyClu_regs (c e n : Nat) (tx : Option Tx) (s : State) : (tallyClu c e n tx s).regs = s.regs := by rw [tallyClu_eq]
@[simp] theorem tallyClu_cores (c e n : Nat) (tx : Option Tx) (s : State) : (tallyClu c e n tx s).cores = s.cores := by rw [tallyClu_eq]
@[simp] theorem tallyClu_cols (c e n : Nat) (tx : Option Tx) (s : State) : (tallyClu c e n tx s).cols = s.cols := by rw [tallyClu_eq]
@[simp] theorem tallyClu_sp (c e n : Nat) (tx : Option Tx) (s : State) : (tallyClu c e n tx s).sp = s.sp := by rw [tallyClu_eq]
@[simp] theorem tallyClu_spChk (c e n : Nat) (tx : Option Tx) (s : State) : (tallyClu c e n tx s).spChk = s.spChk := by rw [tallyClu_eq]
@[simp] theorem tallyClu_spWr (c e n : Nat) (tx : Option Tx) (s : State) : (tallyClu c e n tx s).spWr = s.spWr := by rw [tallyClu_eq]
@[simp] theorem tallyClu_csram (c e n : Nat) (tx : Option Tx) (s : State) : (tallyClu c e n tx s).csram = s.csram := by rw [tallyClu_eq]
@[simp] theorem tallyClu_csChk (c e n : Nat) (tx : Option Tx) (s : State) : (tallyClu c e n tx s).csChk = s.csChk := by rw [tallyClu_eq]
@[simp] theorem tallyClu_csWr (c e n : Nat) (tx : Option Tx) (s : State) : (tallyClu c e n tx s).csWr = s.csWr := by rw [tallyClu_eq]
@[simp] theorem tallyClu_csQueue (c e n : Nat) (tx : Option Tx) (s : State) : (tallyClu c e n tx s).csQueue = s.csQueue := by rw [tallyClu_eq]
@[simp] theorem tallyClu_portResp (c e n : Nat) (tx : Option Tx) (s : State) : (tallyClu c e n tx s).portResp = s.portResp := by rw [tallyClu_eq]
@[simp] theorem tallyClu_t1 (c e n : Nat) (tx : Option Tx) (s : State) : (tallyClu c e n tx s).t1 = s.t1 := by rw [tallyClu_eq]
@[simp] theorem tallyClu_t1Chk (c e n : Nat) (tx : Option Tx) (s : State) : (tallyClu c e n tx s).t1Chk = s.t1Chk := by rw [tallyClu_eq]
@[simp] theorem tallyClu_ftag (c e n : Nat) (tx : Option Tx) (s : State) : (tallyClu c e n tx s).ftag = s.ftag := by rw [tallyClu_eq]
@[simp] theorem tallyClu_refRate (c e n : Nat) (tx : Option Tx) (s : State) : (tallyClu c e n tx s).refRate = s.refRate := by rw [tallyClu_eq]
@[simp] theorem tallyClu_t2 (c e n : Nat) (tx : Option Tx) (s : State) : (tallyClu c e n tx s).t2 = s.t2 := by rw [tallyClu_eq]
@[simp] theorem tallyClu_pools (c e n : Nat) (tx : Option Tx) (s : State) : (tallyClu c e n tx s).pools = s.pools := by rw [tallyClu_eq]
@[simp] theorem tallyClu_gbarArr (c e n : Nat) (tx : Option Tx) (s : State) : (tallyClu c e n tx s).gbarArr = s.gbarArr := by rw [tallyClu_eq]
@[simp] theorem tallyClu_gbarEpoch (c e n : Nat) (tx : Option Tx) (s : State) : (tallyClu c e n tx s).gbarEpoch = s.gbarEpoch := by rw [tallyClu_eq]
@[simp] theorem tallyClu_lostTw (c e n : Nat) (tx : Option Tx) (s : State) : (tallyClu c e n tx s).lostTw = s.lostTw := by rw [tallyClu_eq]
@[simp] theorem tallyClu_remote (c e n : Nat) (tx : Option Tx) (s : State) : (tallyClu c e n tx s).remote = s.remote := by rw [tallyClu_eq]
@[simp] theorem tallyClu_remoteRef (c e n : Nat) (tx : Option Tx) (s : State) : (tallyClu c e n tx s).remoteRef = s.remoteRef := by rw [tallyClu_eq]
@[simp] theorem tallyClu_hubs (c e n : Nat) (tx : Option Tx) (s : State) : (tallyClu c e n tx s).hubs = s.hubs := by rw [tallyClu_eq]
@[simp] theorem tallyClu_frozen (c e n : Nat) (tx : Option Tx) (s : State) : (tallyClu c e n tx s).frozen = s.frozen := by rw [tallyClu_eq]
@[simp] theorem tallyClu_telem (c e n : Nat) (tx : Option Tx) (s : State) : (tallyClu c e n tx s).telem = s.telem := by rw [tallyClu_eq]
@[simp] theorem tallyClu_map (c e n : Nat) (tx : Option Tx) (s : State) : (tallyClu c e n tx s).map = s.map := by rw [tallyClu_eq]
@[simp] theorem tallyClu_parts (c e n : Nat) (tx : Option Tx) (s : State) : (tallyClu c e n tx s).parts = s.parts := by rw [tallyClu_eq]
@[simp] theorem tallyClu_winMem (c e n : Nat) (tx : Option Tx) (s : State) : (tallyClu c e n tx s).winMem = s.winMem := by rw [tallyClu_eq]
@[simp] theorem tallyClu_wins (c e n : Nat) (tx : Option Tx) (s : State) : (tallyClu c e n tx s).wins = s.wins := by rw [tallyClu_eq]
@[simp] theorem tallyClu_nextPkt (c e n : Nat) (tx : Option Tx) (s : State) : (tallyClu c e n tx s).nextPkt = s.nextPkt := by rw [tallyClu_eq]
@[simp] theorem tallyClu_d3 (c e n : Nat) (tx : Option Tx) (s : State) : (tallyClu c e n tx s).d3 = s.d3 := by rw [tallyClu_eq]
@[simp] theorem tallyClu_cfg (c e n : Nat) (tx : Option Tx) (s : State) : (tallyClu c e n tx s).cfg = s.cfg := by rw [tallyClu_eq]
@[simp] theorem tallyClu_reads (c e n : Nat) (tx : Option Tx) (s : State) : (tallyClu c e n tx s).reads = s.reads := by rw [tallyClu_eq]
@[simp] theorem tallyClu_nextTag (c e n : Nat) (tx : Option Tx) (s : State) : (tallyClu c e n tx s).nextTag = s.nextTag := by rw [tallyClu_eq]
@[simp] theorem tallyClu_dmas (c e n : Nat) (tx : Option Tx) (s : State) : (tallyClu c e n tx s).dmas = s.dmas := by rw [tallyClu_eq]
@[simp] theorem tallyClu_zeroQ (c e n : Nat) (tx : Option Tx) (s : State) : (tallyClu c e n tx s).zeroQ = s.zeroQ := by rw [tallyClu_eq]
@[simp] theorem tallyClu_noReuse (c e n : Nat) (tx : Option Tx) (s : State) : (tallyClu c e n tx s).noReuse = s.noReuse := by rw [tallyClu_eq]
@[simp] theorem tallyClu_reload (c e n : Nat) (tx : Option Tx) (s : State) : (tallyClu c e n tx s).reload = s.reload := by rw [tallyClu_eq]
@[simp] theorem tallyClu_stage (c e n : Nat) (tx : Option Tx) (s : State) : (tallyClu c e n tx s).stage = s.stage := by rw [tallyClu_eq]
@[simp] theorem tallyClu_booted (c e n : Nat) (tx : Option Tx) (s : State) : (tallyClu c e n tx s).booted = s.booted := by rw [tallyClu_eq]
@[simp] theorem tallyClu_ns (c e n : Nat) (tx : Option Tx) (s : State) : (tallyClu c e n tx s).ns = s.ns := by rw [tallyClu_eq]
@[simp] theorem tallyClu_fatal (c e n : Nat) (tx : Option Tx) (s : State) : (tallyClu c e n tx s).fatal = s.fatal := by rw [tallyClu_eq]
@[simp] theorem tallyClu_faultN (c e n : Nat) (tx : Option Tx) (s : State) : (tallyClu c e n tx s).faultN = s.faultN := by rw [tallyClu_eq]
@[simp] theorem tallyClu_hostOut (c e n : Nat) (tx : Option Tx) (s : State) : (tallyClu c e n tx s).hostOut = s.hostOut := by rw [tallyClu_eq]
@[simp] theorem tallyClu_fresh (c e n : Nat) (tx : Option Tx) (s : State) : (tallyClu c e n tx s).fresh = s.fresh := by rw [tallyClu_eq]
@[simp] theorem tallyClu_pwr (c e n : Nat) (tx : Option Tx) (s : State) : (tallyClu c e n tx s).pwr = s.pwr := by rw [tallyClu_eq]
@[simp] theorem tallyClu_boot (c e n : Nat) (tx : Option Tx) (s : State) : (tallyClu c e n tx s).boot = s.boot := by rw [tallyClu_eq]
@[simp] theorem tallyClu_therm (c e n : Nat) (tx : Option Tx) (s : State) : (tallyClu c e n tx s).therm = s.therm := by rw [tallyClu_eq]
@[simp] theorem tallyClu_mnt (c e n : Nat) (tx : Option Tx) (s : State) : (tallyClu c e n tx s).mnt = s.mnt := by rw [tallyClu_eq]
@[simp] theorem tallyClu_sec (c e n : Nat) (tx : Option Tx) (s : State) : (tallyClu c e n tx s).sec = s.sec := by rw [tallyClu_eq]
@[simp] theorem tallyClu_net (c e n : Nat) (tx : Option Tx) (s : State) : (tallyClu c e n tx s).net = s.net := by rw [tallyClu_eq]
@[simp] theorem tallyClu_t2q (c e n : Nat) (tx : Option Tx) (s : State) : (tallyClu c e n tx s).t2q = s.t2q := by rw [tallyClu_eq]
@[simp] theorem tallyClu_t2poison (c e n : Nat) (tx : Option Tx) (s : State) : (tallyClu c e n tx s).t2poison = s.t2poison := by rw [tallyClu_eq]
@[simp] theorem tallyClu_fab (c e n : Nat) (tx : Option Tx) (s : State) : (tallyClu c e n tx s).fab = s.fab := by rw [tallyClu_eq]
@[simp] theorem tallyClu_snap (c e n : Nat) (tx : Option Tx) (s : State) : (tallyClu c e n tx s).snap = s.snap := by rw [tallyClu_eq]
@[simp] theorem tallyClu_mirror (c e n : Nat) (tx : Option Tx) (s : State) : (tallyClu c e n tx s).mirror = s.mirror := by rw [tallyClu_eq]
@[simp] theorem rget_tallyClu (c e n : Nat) (tx : Option Tx) (s : State) (a : Nat) : rget (tallyClu c e n tx s) a = rget s a := by rw [tallyClu_eq]; rfl
@[simp] theorem cget_tallyClu (c e n : Nat) (tx : Option Tx) (s : State) (a : Nat) : cget (tallyClu c e n tx s) a = cget s a := by rw [tallyClu_eq]; rfl
@[simp] theorem colget_tallyClu (c e n : Nat) (tx : Option Tx) (s : State) (a : Nat) : colget (tallyClu c e n tx s) a = colget s a := by rw [tallyClu_eq]; rfl
@[simp] theorem hget_tallyClu (c e n : Nat) (tx : Option Tx) (s : State) (a : Nat) : hget (tallyClu c e n tx s) a = hget s a := by rw [tallyClu_eq]; rfl
@[simp] theorem pget_tallyClu (c e n : Nat) (tx : Option Tx) (s : State) (a : Nat) : pget (tallyClu c e n tx s) a = pget s a := by rw [tallyClu_eq]; rfl
@[simp] theorem sq_tallyClu (c e n : Nat) (tx : Option Tx) (s : State) (a : Nat) : sq (tallyClu c e n tx s) a = sq s a := by rw [tallyClu_eq]; rfl
@[simp] theorem tallyHub_pending (h e n : Nat) (tx : Option Tx) (s : State) : (tallyHub h e n tx s).pending = s.pending := by rw [tallyHub_eq]
@[simp] theorem tallyHub_regs (h e n : Nat) (tx : Option Tx) (s : State) : (tallyHub h e n tx s).regs = s.regs := by rw [tallyHub_eq]
@[simp] theorem tallyHub_cores (h e n : Nat) (tx : Option Tx) (s : State) : (tallyHub h e n tx s).cores = s.cores := by rw [tallyHub_eq]
@[simp] theorem tallyHub_cols (h e n : Nat) (tx : Option Tx) (s : State) : (tallyHub h e n tx s).cols = s.cols := by rw [tallyHub_eq]
@[simp] theorem tallyHub_sp (h e n : Nat) (tx : Option Tx) (s : State) : (tallyHub h e n tx s).sp = s.sp := by rw [tallyHub_eq]
@[simp] theorem tallyHub_spChk (h e n : Nat) (tx : Option Tx) (s : State) : (tallyHub h e n tx s).spChk = s.spChk := by rw [tallyHub_eq]
@[simp] theorem tallyHub_spWr (h e n : Nat) (tx : Option Tx) (s : State) : (tallyHub h e n tx s).spWr = s.spWr := by rw [tallyHub_eq]
@[simp] theorem tallyHub_csram (h e n : Nat) (tx : Option Tx) (s : State) : (tallyHub h e n tx s).csram = s.csram := by rw [tallyHub_eq]
@[simp] theorem tallyHub_csChk (h e n : Nat) (tx : Option Tx) (s : State) : (tallyHub h e n tx s).csChk = s.csChk := by rw [tallyHub_eq]
@[simp] theorem tallyHub_csWr (h e n : Nat) (tx : Option Tx) (s : State) : (tallyHub h e n tx s).csWr = s.csWr := by rw [tallyHub_eq]
@[simp] theorem tallyHub_csQueue (h e n : Nat) (tx : Option Tx) (s : State) : (tallyHub h e n tx s).csQueue = s.csQueue := by rw [tallyHub_eq]
@[simp] theorem tallyHub_portResp (h e n : Nat) (tx : Option Tx) (s : State) : (tallyHub h e n tx s).portResp = s.portResp := by rw [tallyHub_eq]
@[simp] theorem tallyHub_t1 (h e n : Nat) (tx : Option Tx) (s : State) : (tallyHub h e n tx s).t1 = s.t1 := by rw [tallyHub_eq]
@[simp] theorem tallyHub_t1Chk (h e n : Nat) (tx : Option Tx) (s : State) : (tallyHub h e n tx s).t1Chk = s.t1Chk := by rw [tallyHub_eq]
@[simp] theorem tallyHub_ftag (h e n : Nat) (tx : Option Tx) (s : State) : (tallyHub h e n tx s).ftag = s.ftag := by rw [tallyHub_eq]
@[simp] theorem tallyHub_refRate (h e n : Nat) (tx : Option Tx) (s : State) : (tallyHub h e n tx s).refRate = s.refRate := by rw [tallyHub_eq]
@[simp] theorem tallyHub_t2 (h e n : Nat) (tx : Option Tx) (s : State) : (tallyHub h e n tx s).t2 = s.t2 := by rw [tallyHub_eq]
@[simp] theorem tallyHub_pools (h e n : Nat) (tx : Option Tx) (s : State) : (tallyHub h e n tx s).pools = s.pools := by rw [tallyHub_eq]
@[simp] theorem tallyHub_gbarArr (h e n : Nat) (tx : Option Tx) (s : State) : (tallyHub h e n tx s).gbarArr = s.gbarArr := by rw [tallyHub_eq]
@[simp] theorem tallyHub_gbarEpoch (h e n : Nat) (tx : Option Tx) (s : State) : (tallyHub h e n tx s).gbarEpoch = s.gbarEpoch := by rw [tallyHub_eq]
@[simp] theorem tallyHub_lostTw (h e n : Nat) (tx : Option Tx) (s : State) : (tallyHub h e n tx s).lostTw = s.lostTw := by rw [tallyHub_eq]
@[simp] theorem tallyHub_remote (h e n : Nat) (tx : Option Tx) (s : State) : (tallyHub h e n tx s).remote = s.remote := by rw [tallyHub_eq]
@[simp] theorem tallyHub_remoteRef (h e n : Nat) (tx : Option Tx) (s : State) : (tallyHub h e n tx s).remoteRef = s.remoteRef := by rw [tallyHub_eq]
@[simp] theorem tallyHub_hubs (h e n : Nat) (tx : Option Tx) (s : State) : (tallyHub h e n tx s).hubs = s.hubs := by rw [tallyHub_eq]
@[simp] theorem tallyHub_frozen (h e n : Nat) (tx : Option Tx) (s : State) : (tallyHub h e n tx s).frozen = s.frozen := by rw [tallyHub_eq]
@[simp] theorem tallyHub_telem (h e n : Nat) (tx : Option Tx) (s : State) : (tallyHub h e n tx s).telem = s.telem := by rw [tallyHub_eq]
@[simp] theorem tallyHub_map (h e n : Nat) (tx : Option Tx) (s : State) : (tallyHub h e n tx s).map = s.map := by rw [tallyHub_eq]
@[simp] theorem tallyHub_parts (h e n : Nat) (tx : Option Tx) (s : State) : (tallyHub h e n tx s).parts = s.parts := by rw [tallyHub_eq]
@[simp] theorem tallyHub_winMem (h e n : Nat) (tx : Option Tx) (s : State) : (tallyHub h e n tx s).winMem = s.winMem := by rw [tallyHub_eq]
@[simp] theorem tallyHub_wins (h e n : Nat) (tx : Option Tx) (s : State) : (tallyHub h e n tx s).wins = s.wins := by rw [tallyHub_eq]
@[simp] theorem tallyHub_nextPkt (h e n : Nat) (tx : Option Tx) (s : State) : (tallyHub h e n tx s).nextPkt = s.nextPkt := by rw [tallyHub_eq]
@[simp] theorem tallyHub_d3 (h e n : Nat) (tx : Option Tx) (s : State) : (tallyHub h e n tx s).d3 = s.d3 := by rw [tallyHub_eq]
@[simp] theorem tallyHub_cfg (h e n : Nat) (tx : Option Tx) (s : State) : (tallyHub h e n tx s).cfg = s.cfg := by rw [tallyHub_eq]
@[simp] theorem tallyHub_reads (h e n : Nat) (tx : Option Tx) (s : State) : (tallyHub h e n tx s).reads = s.reads := by rw [tallyHub_eq]
@[simp] theorem tallyHub_nextTag (h e n : Nat) (tx : Option Tx) (s : State) : (tallyHub h e n tx s).nextTag = s.nextTag := by rw [tallyHub_eq]
@[simp] theorem tallyHub_dmas (h e n : Nat) (tx : Option Tx) (s : State) : (tallyHub h e n tx s).dmas = s.dmas := by rw [tallyHub_eq]
@[simp] theorem tallyHub_zeroQ (h e n : Nat) (tx : Option Tx) (s : State) : (tallyHub h e n tx s).zeroQ = s.zeroQ := by rw [tallyHub_eq]
@[simp] theorem tallyHub_noReuse (h e n : Nat) (tx : Option Tx) (s : State) : (tallyHub h e n tx s).noReuse = s.noReuse := by rw [tallyHub_eq]
@[simp] theorem tallyHub_reload (h e n : Nat) (tx : Option Tx) (s : State) : (tallyHub h e n tx s).reload = s.reload := by rw [tallyHub_eq]
@[simp] theorem tallyHub_stage (h e n : Nat) (tx : Option Tx) (s : State) : (tallyHub h e n tx s).stage = s.stage := by rw [tallyHub_eq]
@[simp] theorem tallyHub_booted (h e n : Nat) (tx : Option Tx) (s : State) : (tallyHub h e n tx s).booted = s.booted := by rw [tallyHub_eq]
@[simp] theorem tallyHub_ns (h e n : Nat) (tx : Option Tx) (s : State) : (tallyHub h e n tx s).ns = s.ns := by rw [tallyHub_eq]
@[simp] theorem tallyHub_fatal (h e n : Nat) (tx : Option Tx) (s : State) : (tallyHub h e n tx s).fatal = s.fatal := by rw [tallyHub_eq]
@[simp] theorem tallyHub_faultN (h e n : Nat) (tx : Option Tx) (s : State) : (tallyHub h e n tx s).faultN = s.faultN := by rw [tallyHub_eq]
@[simp] theorem tallyHub_hostOut (h e n : Nat) (tx : Option Tx) (s : State) : (tallyHub h e n tx s).hostOut = s.hostOut := by rw [tallyHub_eq]
@[simp] theorem tallyHub_fresh (h e n : Nat) (tx : Option Tx) (s : State) : (tallyHub h e n tx s).fresh = s.fresh := by rw [tallyHub_eq]
@[simp] theorem tallyHub_pwr (h e n : Nat) (tx : Option Tx) (s : State) : (tallyHub h e n tx s).pwr = s.pwr := by rw [tallyHub_eq]
@[simp] theorem tallyHub_boot (h e n : Nat) (tx : Option Tx) (s : State) : (tallyHub h e n tx s).boot = s.boot := by rw [tallyHub_eq]
@[simp] theorem tallyHub_therm (h e n : Nat) (tx : Option Tx) (s : State) : (tallyHub h e n tx s).therm = s.therm := by rw [tallyHub_eq]
@[simp] theorem tallyHub_mnt (h e n : Nat) (tx : Option Tx) (s : State) : (tallyHub h e n tx s).mnt = s.mnt := by rw [tallyHub_eq]
@[simp] theorem tallyHub_sec (h e n : Nat) (tx : Option Tx) (s : State) : (tallyHub h e n tx s).sec = s.sec := by rw [tallyHub_eq]
@[simp] theorem tallyHub_net (h e n : Nat) (tx : Option Tx) (s : State) : (tallyHub h e n tx s).net = s.net := by rw [tallyHub_eq]
@[simp] theorem tallyHub_t2q (h e n : Nat) (tx : Option Tx) (s : State) : (tallyHub h e n tx s).t2q = s.t2q := by rw [tallyHub_eq]
@[simp] theorem tallyHub_t2poison (h e n : Nat) (tx : Option Tx) (s : State) : (tallyHub h e n tx s).t2poison = s.t2poison := by rw [tallyHub_eq]
@[simp] theorem tallyHub_fab (h e n : Nat) (tx : Option Tx) (s : State) : (tallyHub h e n tx s).fab = s.fab := by rw [tallyHub_eq]
@[simp] theorem tallyHub_snap (h e n : Nat) (tx : Option Tx) (s : State) : (tallyHub h e n tx s).snap = s.snap := by rw [tallyHub_eq]
@[simp] theorem tallyHub_mirror (h e n : Nat) (tx : Option Tx) (s : State) : (tallyHub h e n tx s).mirror = s.mirror := by rw [tallyHub_eq]
@[simp] theorem rget_tallyHub (h e n : Nat) (tx : Option Tx) (s : State) (a : Nat) : rget (tallyHub h e n tx s) a = rget s a := by rw [tallyHub_eq]; rfl
@[simp] theorem cget_tallyHub (h e n : Nat) (tx : Option Tx) (s : State) (a : Nat) : cget (tallyHub h e n tx s) a = cget s a := by rw [tallyHub_eq]; rfl
@[simp] theorem colget_tallyHub (h e n : Nat) (tx : Option Tx) (s : State) (a : Nat) : colget (tallyHub h e n tx s) a = colget s a := by rw [tallyHub_eq]; rfl
@[simp] theorem hget_tallyHub (h e n : Nat) (tx : Option Tx) (s : State) (a : Nat) : hget (tallyHub h e n tx s) a = hget s a := by rw [tallyHub_eq]; rfl
@[simp] theorem pget_tallyHub (h e n : Nat) (tx : Option Tx) (s : State) (a : Nat) : pget (tallyHub h e n tx s) a = pget s a := by rw [tallyHub_eq]; rfl
@[simp] theorem sq_tallyHub (h e n : Nat) (tx : Option Tx) (s : State) (a : Nat) : sq (tallyHub h e n tx s) a = sq s a := by rw [tallyHub_eq]; rfl

end Sys2Proof.Machine
end

