-- ==== Sys2Proof/Laws/Seq.lean ====
section
/-! SUPPORT. What issuing one instruction does: the lemmas behind every claim about the sequencer. -/

namespace Sys2Proof.Machine

/-- An issued instruction is its action on the state after the fetch. -/
theorem seqStep_issues {c op : Nat} {ok : List Nat} {w : Nat} {s u : State} (h : issues c op ok w s u)
    (act : Nat → State → State) : seqStep c op ok act s = act w u := by
  obtain ⟨h1, h2, h3, h4, h5⟩ := h
  have h6 : ∃ f, opFormat (inOp w) = some f := by
    cases hf : opFormat (inOp w) with
    | none => simp [seqReserved, hf] at h5
    | some f => exact ⟨f, rfl⟩
  obtain ⟨f, hf⟩ := h6
  subst h4
  unfold seqStep
  simp only [h1, Bool.not_true, Bool.false_eq_true, if_false, h3, hf, ne_eq, not_true_eq_false, h5,
    Nat.not_le.mpr h2]

/-- A write of Xd followed by a change of the sequencer. -/
theorem scalarDone_xSet (c d : Nat) (v : Word) (f : SeqSt → SeqSt) (u : State) :
    scalarDone c d v f u (squpd c f (xSet c d v u)) := by
  unfold scalarDone xSet oneSeq onlyCores
  refine ⟨?_, ?_, ⟨?_, ?_⟩, ?_⟩
  · by_cases h : d = 0 <;> simp [h, xGet, corReg, corSet]
  · intro o ho
    by_cases h : d = 0
    · simp [h]
    · have : o ≠ coreBase c + (0x400 + 4 * d) := fun e => ho ⟨h, by omega⟩
      simp [h, corSet, rget_rset_other _ _ this]
  · intro k hk
    by_cases h : d = 0 <;> simp [h, cget_squpd_other _ _ hk]
  · by_cases h : d = 0 <;> simp [h]
  · by_cases h : d = 0 <;> simp [h]

/-- Counting leaves what a frame speaks of. -/
theorem scalarDone_tally {c d : Nat} {v : Word} {f : SeqSt → SeqSt} {u t : State} (k e n : Nat) (x : Option Tx)
    (h : scalarDone c d v f u t) : scalarDone c d v f u (tallyCore k e n x t) := by
  simpa [scalarDone, oneSeq, onlyCores, xGet, corReg] using h

theorem scalarDone_seqNext (c d n : Nat) (v : Word) (u : State) :
    scalarDone c d v (goOn ((sq u c).pc + n)) u (seqNext c n (xSet c d v u)) := by
  have : (sq (xSet c d v u) c).pc = (sq u c).pc := by unfold xSet; split <;> simp
  unfold seqNext pcTo
  rw [this]
  exact scalarDone_tally _ _ _ _ (scalarDone_xSet _ _ _ _ _)

/-- A change of the sequencer alone, counted. -/
theorem oneSeq_squpd (c : Nat) (f : SeqSt → SeqSt) (u : State) (k e n : Nat) (x : Option Tx) :
    (tallyCore k e n x (squpd c f u)).regs = u.regs ∧ oneSeq c f u (tallyCore k e n x (squpd c f u)) ∧
      onlyCores u (tallyCore k e n x (squpd c f u)) := by
  refine ⟨by simp, ⟨fun j hj => by simp [cget_squpd_other _ _ hj], by simp⟩, by simp [onlyCores]⟩

/-- Two changes of one sequencer are one. -/
theorem oneSeq_trans {c : Nat} {f g : SeqSt → SeqSt} {u v t : State} (h : oneSeq c f u v) (k : oneSeq c g v t) :
    oneSeq c (fun q => g (f q)) u t := by
  refine ⟨fun j hj => (k.1 j hj).trans (h.1 j hj), ?_⟩
  rw [k.2, h.2]

theorem onlyCores_trans {u v t : State} (h : onlyCores u v) (k : onlyCores v t) : onlyCores u t := by
  unfold onlyCores at *
  rw [← h, ← k]

theorem seqNext_one (c n : Nat) (u : State) : (seqNext c n u).regs = u.regs ∧
    oneSeq c (goOn ((sq u c).pc + n)) u (seqNext c n u) ∧ onlyCores u (seqNext c n u) := oneSeq_squpd c _ u _ _ _ _

/-- A change of the sequencer, then the next instruction. -/
theorem seqNext_squpd (c n : Nat) (f : SeqSt → SeqSt) (u : State) (hf : (f (sq u c)).pc = (sq u c).pc) :
    (seqNext c n (squpd c f u)).regs = u.regs ∧
    oneSeq c (fun q => goOn ((sq u c).pc + n) (f q)) u (seqNext c n (squpd c f u)) ∧
    onlyCores u (seqNext c n (squpd c f u)) := by
  obtain ⟨a1, a2, a3⟩ := seqNext_one c n (squpd c f u)
  have h1 : oneSeq c f u (squpd c f u) := ⟨fun j hj => by simp [cget_squpd_other _ _ hj], by simp⟩
  have h2 : onlyCores u (squpd c f u) := by simp [onlyCores]
  simp only [sq_squpd_same, hf] at a2
  exact ⟨by simp [a1], oneSeq_trans h1 a2, onlyCores_trans h2 a3⟩

end Sys2Proof.Machine
end

