-- ==== Sys2Proof/WellFormed.lean ====
section
/-! DEFINITION. Which commands can occur: the bounds of their lists and lengths that the operand types do not carry. A command that is
not well-formed has a meaning all the same; the bounds say what the device's neighbours can send it. -/

namespace Sys2Proof

/-- A host write carries 1 to 512 bytes (Table HOST.1). -/
def hostPayload (d : List Byte) : Bool := decide (1 ≤ d.length) && decide (d.length ≤ 512)

/-- The operand bytes of a bank atomic (Table CORE.13). -/
def atomicLen (op : AtomicOp) : Nat := match op with
  | .add64 => 8
  | .swap64 => 8
  | .add32 => 4
  | .fadd32 => 4
  | .swap32 => 4

/-- An access lies within one 64-byte block of the 4 MiB of a cluster, and a write names as many bytes as it brings (R76). -/
def wfAcc (a : Option SramAcc) : Bool := match a with
  | none => true
  | some x => decide (1 ≤ x.len) && decide (x.off % 64 + x.len ≤ 64) && decide (x.off < 4194304) &&
      (match x.data with
       | some d => d.length == x.len
       | none => true)

/-- A request writes as many bytes as it says, and an atomic names its own length (R276). -/
def wfRequest (len : Fin 257) (data : Option (List Byte)) (atom : Option AtomicOp) : Bool :=
  decide (1 ≤ len.val) &&
    (match data with
     | some d => d.length == len.val
     | none => true) &&
    (match atom with
     | some op => len.val == atomicLen op && data.isSome
     | none => true)

def allBelow (n : Nat) (l : List Nat) : Bool := l.all (fun x => decide (x < n))

/-- Lanes of lane groups: 64 data lanes and 4 spares at most (R19, R150). -/
def wfLanes (groups : Nat) (l : List (Nat × Nat)) : Bool := l.all (fun e => decide (e.1 < groups) && decide (e.2 < 68))

/-- A life cycle of Table SEC.4, an SVN of 6 bits, and sites, clusters and lane groups that exist. -/
def wfFuses (b : FuseBank) (f : FuseMap) : Bool :=
  !b.ok || (decide (1 ≤ b.lc) && decide (b.lc ≤ 5) && decide (b.svn < 64) && allBelow 4352 f.cores && allBelow 256 f.clus &&
    f.bond.all (fun e => decide (e.1 < 8704 * 134) && decide (e.2.1 < 66) && decide (e.2.2 < 2)) &&
    f.brg.all (fun e => decide (e.1 < 88 * 12) && decide (e.2.1 < 68) && decide (e.2.2 < 4)) &&
    f.rows.all (fun e => decide (e.1 < 8704) && decide (e.2 < 131072)))

/-- Findings name units that exist. -/
def wfFind (f : TestFind) : Bool :=
  allBelow 16 f.noRoot && wfLanes (88 * 12) f.brgLanes && allBelow (88 * 12) f.brgDown && allBelow 88 f.restarts &&
    allBelow 16 f.logic && allBelow 256 f.routers && allBelow 256 f.clus && allBelow 4352 f.mems && allBelow 4352 f.engines &&
    wfLanes (8704 * 134) f.bondLanes && f.rows.all (fun e => decide (e.1 < 8704) && decide (e.2 < 131072)) &&
    f.holds.all (fun h => decide (h.tower < 16) && decide (h.bg < 8) && decide (h.mult < 4) &&
      h.lost.all (fun e => decide (e.1 / 544 = h.tower) && decide (e.2 < 131072))) && f.phase.all (fun e => decide (e.1 < 8704) && decide (e.2 < 8))

/-- Whether a command can occur. -/
def wellFormed (i : Instr) : Bool :=
  match i with
  | .registerWrite _ _ _ => true
  | .configRequest _ _ => true
  | .bar2Read x n => decide (1 ≤ n.val) && (match x with
      | .bar0 fn off => decide (off.val + n.val ≤ if fn.val = 0 then 2 ^ 28 else 2 ^ 17)
      | .bar2 x => decide (x.val + n.val ≤ 2 ^ 36))
  | .bar2Write x d => hostPayload d && decide (x.val + d.length ≤ 2 ^ 36)
  | .vauxUp => true
  | .inputSwitchClose => true
  | .vinUndervoltage => true
  | .vinRecover => true
  | .vinCollapse => true
  | .vinLoss => true
  | .reverseCurrent => true
  | .reverseInput => true
  | .clkmonWindow d counts => counts.length == (if d.val < 16 then 5 else 9)
  | .clockStopped d c => if d.val < 16 then decide (c.val < 5) else c.val == 0 || c.val == 2 || decide (4 ≤ c.val)
  | .governorRiseTick _ => true
  | .governorFallTick _ => true
  | .powerLoopTick _ tw => tw.tower.length == 16 && tw.hub.length == 9
  | .comparatorDecrement _ _ => true
  | .pbrkAssert => true
  | .pbrkDeassert => true
  | .brakeRelease => true
  | .brakeFwReq _ => true
  | .pkgLimitWrite _ => true
  | .twrLimitWrite _ _ => true
  | .rampCtlWrite _ => true
  | .slotmapWrite _ _ _ => true
  | .pwrProfileWrite _ _ => true
  | .bankGroupReady _ => true
  | .uniRegionWrite _ _ _ => true
  | .unifiedWrite _ _ => true
  | .narrowWriteBack _ => true
  | .clusterSramAccess _ a b _ _ => wfAcc a && wfAcc b
  | .bankAtomic _ _ off op _ _ => off.val % atomicLen op == 0
  | .queuedAtomic _ _ => true
  | .wload _ => true
  | .stream _ _ => true
  | .ewise _ _ => true
  | .accload _ => true
  | .drain _ => true
  | .mxeCommandStart _ => true
  | .shadowPromote _ => true
  | .mxeCommandFinish _ _ => true
  | .mxeCommandRetire _ => true
  | .nop _ => true
  | .halt _ => true
  | .trap _ => true
  | .tret _ => true
  | .tabort _ => true
  | .add _ => true
  | .sub _ => true
  | .and _ => true
  | .or _ => true
  | .xor _ => true
  | .shl _ => true
  | .shr _ => true
  | .sra _ => true
  | .mul _ => true
  | .min _ => true
  | .max _ => true
  | .slt _ => true
  | .sltu _ => true
  | .ceq _ => true
  | .addi _ => true
  | .andi _ => true
  | .ori _ => true
  | .xori _ => true
  | .shli _ => true
  | .shri _ => true
  | .srai _ => true
  | .ceqi _ => true
  | .ld _ => true
  | .st _ => true
  | .ldc _ _ => true
  | .stc _ _ => true
  | .aaddc _ => true
  | .aswpc _ => true
  | .amov _ => true
  | .aadd _ => true
  | .aaddr _ => true
  | .aget _ => true
  | .beq _ => true
  | .bne _ => true
  | .blt _ => true
  | .bge _ => true
  | .bltu _ => true
  | .bgeu _ => true
  | .jmp _ => true
  | .jal _ => true
  | .jr _ => true
  | .bbusy _ => true
  | .tkwait _ => true
  | .tkwaitSatisfied _ => true
  | .tkadd _ => true
  | .tkset _ => true
  | .tkrd _ => true
  | .disp _ => true
  | .movclr _ => true
  | .movst _ => true
  | .cbar _ => true
  | .cbarPoll _ => true
  | .gbar _ => true
  | .gbarRelease _ _ => true
  | .csrr _ => true
  | .csrw _ => true
  | .trapTake _ => true
  | .waitTimeout _ => true
  | .coreHalted _ => true
  | .seqStart _ _ => true
  | .haltReq _ _ => true
  | .loadGo _ _ => true
  | .loadPathDone _ => true
  | .vld _ => true
  | .vst _ => true
  | .vadd _ => true
  | .vsub _ => true
  | .vmul _ => true
  | .vfma _ => true
  | .vmax _ => true
  | .vmin _ => true
  | .vcmpgt _ => true
  | .vsel _ => true
  | .vabs _ => true
  | .vneg _ => true
  | .vmove _ => true
  | .vexp _ => true
  | .vexp2 _ => true
  | .vrcp _ => true
  | .vrsq _ => true
  | .rmax _ => true
  | .rsum _ => true
  | .argmax _ => true
  | .qmx _ => true
  | .rng _ => true
  | .vxeCommandRetire _ => true
  | .movCopy _ _ _ => true
  | .movFill _ _ _ => true
  | .movDescriptorStart _ _ => true
  | .movDescriptorRetire _ _ => true
  | .movChHaltWrite _ _ _ => true
  | .remoteWrite _ => true
  | .remoteRefusal _ => true
  | .rowReadIssue _ _ _ => true
  | .rowReadDeliver _ => true
  | .writeCombineAccept _ _ _ d => d.length == 64
  | .rowWriteIssue _ _ _ _ => true
  | .bondGroupSuspect _ _ _ => true
  | .migrationComplete _ => true
  | .refreshIntervalTick _ => true
  | .refreshIssue _ _ => true
  | .refreshCtlWrite _ _ => true
  | .qload _ => true
  | .score _ _ _ => true
  | .emit _ => true
  | .nbuCopy _ => true
  | .requant _ => true
  | .nbuCommandStart _ => true
  | .nbuCommandRetire _ => true
  | .tier1Atomic _ off op _ => off.val % atomicLen op == 0
  | .chainWaitLimit _ => true
  | .create _ _ => true
  | .fork _ _ => true
  | .reserve _ _ => true
  | .truncate _ _ => true
  | .release _ _ => true
  | .setprio _ _ => true
  | .sethead _ _ => true
  | .commit _ => true
  | .setPolicy _ => true
  | .swapIn _ => true
  | .seqQuery _ => true
  | .generationSwitch _ => true
  | .preemptVictim _ _ => true
  | .pageMoveOut _ _ _ _ => true
  | .stepStart _ => true
  | .walkSegmentWrite _ _ _ _ => true
  | .stepRetire _ _ => true
  | .stepLimitExpiry _ => true
  | .t2Access _ _ _ => true
  | .t2DriftCheck _ drift => drift.length == 2
  | .requestIssue _ _ _ len _ data atom => wfRequest len data atom
  | .targetAdmit _ _ _ => true
  | .grant _ => true
  | .grantLapse _ => true
  | .retryReissue _ => true
  | .routeTableLoad => true
  | .mapCommit _ => true
  | .coreOtWrite _ _ => true
  | .commandWindowWrite _ _ d => hostPayload d
  | .windowReset _ => true
  | .d3hotEntry _ => true
  | .d0Entry _ => true
  | .vfFlr _ => true
  | .pfFlr => true
  | .hotReset => true
  | .linkDown => true
  | .deviceStatus _ => true
  | .deviceReset _ => true
  | .setLimits _ => true
  | .partCreate _ => true
  | .partRelease _ => true
  | .partLock _ => true
  | .partQuery _ => true
  | .partReadmit _ => true
  | .memWrite _ => true
  | .dmaIn _ => true
  | .dmaOut _ => true
  | .modelLoad _ => true
  | .dirRegister _ heads => decide (heads.words.length ≤ 8192) && decide (heads.layers.length ≤ 8192)
  | .dirWithdraw _ => true
  | .attRegister _ => true
  | .t2poolRegister _ => true
  | .t2poolWithdraw _ => true
  | .swapRegister _ => true
  | .swapWithdraw _ => true
  | .stepLaunch _ => true
  | .stepCancel _ => true
  | .mntStart _ => true
  | .mntStop _ => true
  | .mntQuery _ => true
  | .dieRejoin _ f => wfFind f
  | .hubReset _ => true
  | .logAck _ => true
  | .snapshot _ => true
  | .telemCfg _ => true
  | .counterCfg _ => true
  | .keyRotate _ => true
  | .fwStage _ _ => true
  | .lifecycle _ _ => true
  | .attestGet _ nonce => nonce.length == 32
  | .fabPort _ => true
  | .fabRole _ => true
  | .fabRoute _ => true
  | .fabQuery _ => true
  | .flitReceive _ b _ _ => b.length == 256
  | .portRetrain _ => true
  | .portRetrainDone _ _ _ => true
  | .wavelengthBerCheck _ _ _ => true
  | .lossOfLight _ => true
  | .lightRestored _ => true
  | .laserCheckPulse _ => true
  | .heartbeatSend => true
  | .heartbeatAnswer _ => true
  | .childLost _ _ => true
  | .orphan => true
  | .fabricMessageRoute _ => true
  | .channelStall _ _ => true
  | .streamNotice _ _ => true
  | .streamSend _ _ => true
  | .putDeliver _ => true
  | .reduceContribution _ => true
  | .reduceContextTimeout _ _ => true
  | .streamValidWrite _ _ _ => true
  | .rstNAssert => true
  | .resetApply => true
  | .rstNRelease => true
  | .stage0 _ bad _ => allBelow 56 bad
  | .stage1 f im recs _ _ => wfFuses f recs && decide (im.svn < 64)
  | .stage2 _ speed width _ => decide (speed < 16) && decide (width < 64)
  | .stage3 bad _ => allBelow 4 bad
  | .stage4 f => wfFind f
  | .stage5 f => wfFind f
  | .stage6 f => wfFind f
  | .stage7 bad _ => allBelow 24 (bad.map Prod.fst)
  | .stage8 eng _ => eng.length == 16
  | .stage9 _ _ => true
  | .stageTimeLimit _ => true
  | .columnRetrain _ lanes => wfLanes 134 lanes.lanes && allBelow 8 lanes.layers
  | .columnRetrainDone _ bad => wfLanes 134 bad
  | .bridgeLiveRetrain _ _ => true
  | .bridgeRetrainDone _ lanes down => wfLanes 12 lanes && allBelow 12 down
  | .hotspotSample rd _ => rd.length == 16 && rd.all (fun l => l.length == 16)
  | .housekeepingRound rd _ => rd.all (fun e => decide (256 ≤ e.1) && decide (e.1 < 1060))
  | .kilnSitterTrip _ layer src _ => layer || decide (src.val < 16)
  | .kilnLastClear _ => true
  | .canaryCheck _ _ => true
  | .rthWindow _ => true
  | .coolWarnRepeat => true
  | .coolWarnClear => true
  | .flowLost _ _ => true
  | .flowPresent _ => true
  | .patrolScrubT1 _ _ => true
  | .patrolScrubT2 _ => true
  | .spTransparentTest _ _ _ => true
  | .t1TransparentTest _ _ _ => true
  | .opticalRecalibration _ => true
  | .bondRecalibration _ lanes => wfLanes 134 lanes
  | .bridgeRecalibration _ => true
  | .sensorCalibration _ _ _ => true
  | .wearTracking _ => true
  | .telemetryRound => true
  | .rekeySweep _ _ _ _ => true
  | .partitionZeroing _ => true
  | .frameZeroing _ => true
  | .maintPassLate _ _ => true
  | .mntPeriodWrite _ _ => true
  | .towerManagerWatchdog _ => true
  | .mpWatchdog _ => true
  | .getVersion => true
  | .getCapabilities => true
  | .negotiateAlgorithms _ => true
  | .getDigests => true
  | .getCertificate _ _ _ => true
  | .challenge _ nonce => nonce.length == 32
  | .getMeasurements _ nonce => nonce.length == 32
  | .keyExchange _ => true
  | .finish _ => true
  | .keyUpdate _ => true
  | .heartbeat _ => true
  | .endSession _ => true
  | .ideKm _ _ _ => true
  | .getDeviceInterfaceReport _ => true
  | .lockInterfaceRequest _ => true
  | .startInterfaceRequest _ => true
  | .stopInterfaceRequest _ => true
  | .ideIntegrityFailure _ => true
  | .tamperEvent _ => true
  | .tamperZeroingDone => true
  | .snapshotSnap => true
  | .snapshotFreeze => true
  | .snapshotUnfreeze => true
  | .snapshotLatch _ _ => true
  | .snapshotComplete => true
  | .telemHeadWrite _ => true
  | .smbusReadByte _ => true
  | .smbusBlockRead _ _ => true
  | .smbusWrite _ _ => true
  | .smbusMirrorRefresh => true
  | .vauxDown => true
  | .hostLinkUp speed width => decide (speed < 16) && decide (width < 64)
  | .t2Refresh _ => true
  | .hubRejoin h eng => decide (1 ≤ h.val) && eng.length == 4
  | .responseReceive _ => true
  | .hostReadCompletion _ d => decide (d.length ≤ 4096)

end Sys2Proof
end

