-- ==== Sys2Proof/Tests/Slice0.lean ====
section
/-! SUPPORT. Tests: for every obligation a concrete state and operands that meet its hypotheses (wit_<obligation>), an ill-formed
term for each check of well-formedness, and single steps whose results the spec's rules give. Every step here runs from a small
state built by a helper. -/

namespace Sys2Proof.Tests

open Sys2Proof Sys2Proof.Machine

set_option Elab.async false

/-! ## The sequencer -/

/-- The reset state with the first and the last cluster at level 16. -/
def awake : State := { State.reset with pwr := { State.reset.pwr with level := [(0, 16), (255, 16)] } }

/-- Core 0 runs at index 0, where instruction memory holds `w` and then zeros; its trap handler stands at index 16. -/
def seqAt (w wait : Nat) : State :=
  corSet 0 0x208 0x80000010 (cupd 0 (fun k => { k with
    halted := false
    merges := [{ blk := imemBlk 0, data := leBytes 8 w ++ zeros 56, poison := false }]
    seq := { SeqSt.reset with run := true, wait := wait } }) awake)

/-- `issues`, as a test. -/
def issuesB (c op : Nat) (ok : List Nat) (w : Nat) (s : State) : Bool :=
  seqReady s c ok && decide ((sq s c).pc < 8192) && (seqFetch c (sq s c).pc s).1 == some w && inOp w == op && !seqReserved w

/-- The state after the fetch. -/
def fetched (c : Nat) (s : State) : State := (seqFetch c (sq s c).pc s).2

theorem issues_of_issuesB {c op : Nat} {ok : List Nat} {w : Nat} {s : State} (h : issuesB c op ok w s = true) :
    issues c op ok w s (fetched c s) := by
  simp only [issuesB, Bool.and_eq_true, decide_eq_true_eq, beq_iff_eq, Bool.not_eq_true'] at h
  obtain ⟨⟨⟨⟨h1, h2⟩, h3⟩, h4⟩, h5⟩ := h
  exact ⟨h1, h2, Prod.ext h3 rfl, h4, h5⟩

/-- An instruction word of an opcode with other fields `f`. -/
def ins (op f : Nat) : Nat := op * 2 ^ 56 + f

/-- SeqArithmetic, SeqAddressAndJumps and SeqControl: each of their opcodes issues. -/
theorem wit_SeqArithmetic : ∀ op ∈ ([0x08, 0x09, 0x0A, 0x0B, 0x0C, 0x0D, 0x0E, 0x0F, 0x10, 0x11, 0x12, 0x13, 0x14, 0x15,
    0x18, 0x19, 0x1A, 0x1B, 0x1C, 0x1D, 0x1E, 0x1F] : List Nat), issuesB 0 op [0] (ins op 0) (seqAt (ins op 0) 0) = true := by
  decide +kernel

theorem wit_SeqArithmetic_issues : issues 0 0x08 [0] (ins 0x08 0) (seqAt (ins 0x08 0) 0) (fetched 0 (seqAt (ins 0x08 0) 0)) :=
  issues_of_issuesB (by decide +kernel)

theorem wit_SeqAddressAndJumps : ∀ op ∈ ([0x28, 0x29, 0x2A, 0x2B, 0x30, 0x31, 0x32, 0x33, 0x34, 0x35, 0x36, 0x37, 0x38, 0x39] :
    List Nat), issuesB 0 op [0] (ins op 0) (seqAt (ins op 0) 0) = true := by
  decide +kernel

/-- A taken branch to 8 191, the last index, and a busy flag that is set. -/
theorem wit_SeqAddressAndJumps_last : issuesB 0 0x30 [0] (ins 0x30 8191) (seqAt (ins 0x30 8191) 0) = true ∧
    ((8191 : Nat) : Int) = ((sq (fetched 0 (seqAt (ins 0x30 8191) 0)) 0).pc : Int) +
      (BitVec.ofNat 32 (inImm (ins 0x30 8191))).toInt ∧
    issuesB 0 0x39 [0] (ins 0x39 0) (squpd 0 (fun q => { q with busyFlag := true }) (seqAt (ins 0x39 0) 0)) = true := by
  decide +kernel

theorem wit_SeqControl : ∀ op ∈ ([0x00, 0x01, 0x02, 0x04, 0x4C, 0x4D] : List Nat),
    issuesB 0 op [0] (ins op 0) (seqAt (ins op 0) 0) = true ∧ wBit (corReg (seqAt (ins op 0) 0) 0 0x208) 31 = true := by
  decide +kernel

theorem wit_SeqControl_tret : issuesB 0 0x03 [0] (ins 0x03 0)
    (squpd 0 (fun q => { q with inTrap := true }) (seqAt (ins 0x03 0) 0)) = true := by
  decide +kernel

/-- CSR reads of numbers 2, 3, 4, 0x10 and 0x17, and a write of EPC. -/
theorem wit_SeqControl_csr : (∀ n ∈ ([2, 3, 4, 0x10, 0x17] : List Nat),
    issuesB 0 0x58 [0] (ins 0x58 n) (seqAt (ins 0x58 n) 0) = true ∧ inCode (ins 0x58 n) = n) ∧
    issuesB 0 0x59 [0] (ins 0x59 2) (seqAt (ins 0x59 2) 0) = true := by
  decide +kernel

/-- A logical core in a partition has a name and a partition to read. -/
theorem wit_SeqControl_name :
    let s : State := { State.reset with
      map := { tw := [(0, 1)], cl := [(0, 1)], core := [(0, 1)] }
      parts := [(0, { PartSt.reset with state := 1, mask := 1 })] }
    coreName s 0 = some (0, 0, 0) ∧ corePart s 0 = some 0 := by
  decide +kernel

/-- A scratchpad byte to load and to store. -/
def ldAt (op : Nat) : State := corSet 0 0x20 0x0FFF0FFF (corSet 0 0x10 6 (spWriteBytes 0 0 0 (zeros 64) (seqAt (ins op 0) 0)))

theorem wit_SeqMemory_ld : issuesB 0 0x20 [0] (ins 0x20 0) (ldAt 0x20) = true ∧
    lsCheck (fetched 0 (ldAt 0x20)) 0 (ins 0x20 0) false = (0, 0, 0) ∧
    (spReadBytes 0 0 0 (2 ^ inSize (ins 0x20 0)) (fetched 0 (ldAt 0x20))).1 = some [0] ∧
    issuesB 0 0x21 [0] (ins 0x21 0) (ldAt 0x21) = true ∧ lsCheck (fetched 0 (ldAt 0x21)) 0 (ins 0x21 0) true = (0, 0, 0) := by
  decide +kernel

/-- A word of the cluster's shared SRAM to load, store and change atomically. -/
def ldcAt (op : Nat) : State := csWriteBytes 0 0 (zeros 64) (seqAt (ins op 0) 0)

theorem wit_SeqMemory_cluster : ∀ op ∈ ([0x22, 0x23, 0x24, 0x25] : List Nat),
    issuesB 0 op [0] (ins op 0) (ldcAt op) = true ∧ csCheck (fetched 0 (ldcAt op)) 0 (ins op 0) true = 0 ∧
    csCheck (fetched 0 (ldcAt op)) 0 (ins op 0) false = 0 ∧
    (csReadBytes 0 0 4 (fetched 0 (ldcAt op))).1 = some (zeros 4) ∧
    (csAtomic 0 0 .add32 1 none (fetched 0 (ldcAt op))).1 = some 0 := by
  decide +kernel

/-- A ticket at its limit, one short of the operand, and ticket 0. -/
theorem wit_SeqTickets :
    issuesB 0 0x40 [0] (ins 0x40 (1 * 2 ^ 44)) (seqAt (ins 0x40 (1 * 2 ^ 44)) 0) = true ∧
    issuesB 0 0x40 [1] (ins 0x40 (1 * 2 ^ 44)) (seqAt (ins 0x40 (1 * 2 ^ 44)) 1) = true ∧
    issuesB 0 0x41 [0] (ins 0x41 (1 * 2 ^ 44 + 65535)) (seqAt (ins 0x41 (1 * 2 ^ 44 + 65535)) 0) = true ∧
    issuesB 0 0x42 [0] (ins 0x42 (1 * 2 ^ 44 + 65535)) (seqAt (ins 0x42 (1 * 2 ^ 44 + 65535)) 0) = true ∧
    issuesB 0 0x43 [0] (ins 0x43 (1 * 2 ^ 44)) (seqAt (ins 0x43 (1 * 2 ^ 44)) 0) = true := by
  decide +kernel

/-- Core 0 with a change, in the state of reset. -/
def core0 (f : CoreSt → CoreSt) : State := cupd 0 f awake

/-- An MXE command. -/
def mxc (w0 : Nat) (started performed finished poison : Bool) : MxeCmd :=
  { w0 := w0, w1 := 0, pc := 0, started := started, promoted := false, performed := performed, finished := finished, poison := poison,
    refused := 0, waitDrn := false, waitWgt := false }

/-- A dispatch to the matrix engine with room in its queue, and one on a full queue. -/
theorem wit_SeqDispatch :
    let full := cupd 0 (fun k => { k with mxe := { MxeSt.reset with queue := List.replicate 8 (mxc 0 false false false false) } })
    issuesB 0 0x48 [0, 4] (ins 0x48 0) (seqAt (ins 0x48 0) 0) = true ∧ (sq (fetched 0 (seqAt (ins 0x48 0) 0)) 0).pc + 2 ≤ 8191 ∧
    (fetchWords 0 2 1 (fetched 0 (seqAt (ins 0x48 0) 0))).1 = some [0, 0] ∧
    engFull (seqAt (ins 0x48 0) 0) 0 0 [0, 0] = false ∧ engFull (full (seqAt (ins 0x48 0) 0)) 0 0 [0, 0] = true := by
  decide +kernel

/-- Dispatches to the other engines: VXE, MOV, NBU-A and NBU-B. -/
theorem wit_SeqDispatch_engines : ∀ e ∈ ([1, 2, 3, 4] : List Nat),
    issuesB 0 0x48 [0, 4] (ins 0x48 (e * 2 ^ 53)) (seqAt (ins 0x48 (e * 2 ^ 53)) 0) = true ∧
    (fetchWords 0 (engWords e) 1 (fetched 0 (seqAt (ins 0x48 (e * 2 ^ 53)) 0))).1 = some (List.replicate (engWords e) 0) ∧
    engFull (seqAt (ins 0x48 (e * 2 ^ 53)) 0) 0 e (List.replicate (engWords e) 0) = false := by
  decide +kernel

theorem wit_SeqWaits_cbar : issuesB 0 0x50 [0] (ins 0x50 0) (ldcAt 0x50) = true ∧
    csCheck (fetched 0 (ldcAt 0x50)) 0 (ins 0x50 0) true = 0 ∧ (csAtomic 0 0 .add32 1 none (fetched 0 (ldcAt 0x50))).1 = some 0 := by
  decide +kernel

/-- A CBAR that polls a counter that has reached its target, and one that has not. -/
theorem wit_SeqWaits_poll :
    let s := squpd 0 (fun q => { q with wait := 2 }) (ldcAt 0x50)
    (sq s 0).wait = 2 ∧ (seqFetch 0 (sq s 0).pc s).1 = some (ins 0x50 0) ∧ (csAtomic 0 0 .add32 0 none s).1 = some 0 ∧
    0 ≤ (BitVec.ofNat 32 0 - xGet s 0 (inXBM (ins 0x50 0))).toInt ∧
    (BitVec.ofNat 32 0 - xGet (xSet 0 8 1 s) 0 (inXBM (ins 0x50 (1 * 2 ^ 41)))).toInt < 0 := by
  decide +kernel

/-- A CBAR that waits with a limit of one cycle, whose arrival can be taken back. -/
theorem wit_SeqWaits_cbarTimeout :
    let s := corSet 0 0x20C 1 (squpd 0 (fun q => { q with wait := 2 }) (ldcAt 0x50))
    corReg s 0 0x20C ≠ 0 ∧ (sq s 0).run = true ∧ (sq s 0).wait = 2 ∧ wBit (corReg s 0 0x208) 31 = true ∧ (sq s 0).inTrap = false ∧
    (sq s 0).stop = 0 ∧ coreRuns s 0 = true ∧ (seqFetch 0 (sq s 0).pc s).1 = some (ins 0x50 0) ∧
    (csAtomic 0 0 .add32 (2 ^ 32 - 1) none s).1 = some 0 := by
  decide +kernel

/-- Core 0 is the one member of group 3 outside every partition, and arrives there. -/
theorem wit_SeqWaits_gbar :
    let s := corSet 0 0x210 8 (seqAt (ins 0x51 3) 0)
    let t := { s with gbarArr := [(gbarKey 64 3, [0])] }
    issuesB 0 0x51 [0] (ins 0x51 3) s = true ∧ wBit (corReg s 0 0x210) (inCode (ins 0x51 3) % 16) = true ∧
    stGet (fun _ => []) t.gbarArr (gbarKey 64 3) ≠ [] ∧
    (∀ c ∈ gbarMembers t 64 3, c ∈ stGet (fun _ => []) t.gbarArr (gbarKey 64 3)) ∧ gbarMembers t 64 3 = [0] := by
  decide +kernel

/-- A held trap of the matrix engine, a wait at its limit, a full-queue stall, and a core that has stopped. -/
theorem wit_SeqWaits_traps :
    let h : HeldTrap := { src := 1, cause := 0x0C, pc := 0, word := 0, detail := 0, detailHi := 0 }
    let s := squpd 0 (fun q => { q with held := [h] }) (seqAt 0 0)
    let w := corSet 0 0x20C 1 (seqAt (ins 0x51 3) 3)
    let f := corSet 0 0x20C 1 (seqAt (ins 0x48 0) 4)
    let d := core0 (fun k => { k with halted := false, seq := { SeqSt.reset with stop := 1 } })
    firstHeld (sq s 0) = some h ∧ (sq s 0).stop = 0 ∧ (sq s 0).run = true ∧ (sq s 0).inTrap = false ∧ (sq s 0).wait ≠ 2 ∧
    (sq s 0).wait ≠ 3 ∧ wBit (corReg s 0 0x208) 31 = true ∧ h.cause ≠ 0x09 ∧
    corReg w 0 0x20C ≠ 0 ∧ (sq w 0).run = true ∧ (sq w 0).wait = 3 ∧ wBit (corReg w 0 0x208) 31 = true ∧
    (sq w 0).inTrap = false ∧ (sq w 0).stop = 0 ∧ (sq f 0).wait = 4 ∧ corReg d 0 0x20C = 0 ∧
    (sq d 0).stop ≠ 0 ∧ (sq d 0).held = [] ∧ coreIdle d 0 = true := by
  decide +kernel

/-- A start at entry 8 191, a halt request on a running and on a halted core, a load on a halted and on a running one, and a load
path that runs. -/
theorem wit_SeqStartAndLoad :
    let r := core0 (fun k => { k with halted := false })
    wBit (0x7FFD : Word) 0 = true ∧ wBit (0x7FFD : Word) 1 = false ∧ wFld (0x7FFD : Word) 14 2 = 8191 ∧
    (cget State.reset 0).halted = true ∧ (cget State.reset 0).powering = [] ∧ (cget State.reset 0).loadBusy = false ∧
    wBit (2 : Word) 0 = false ∧ wBit (2 : Word) 1 = true ∧ (cget r 0).halted = false ∧ wBit (0x40000000 : Word) 30 = true ∧
    (cget (core0 (fun k => { k with loadBusy := true })) 0).loadBusy = true := by
  decide +kernel

/-! ## The engines of a core -/

/-- Core 0 with a matrix queue. -/
def mxAt (q : List MxeCmd) (t : Option Tile) : State :=
  core0 (fun k => { k with mxe := { MxeSt.reset with queue := q, active := t, shadow := t } })

/-- A tile of one row and one column of BF16. -/
def tile1 : Tile := { fmt := 0, rows := 1, cols := 1, cells := [[0x3F80]], scales := [], marks := [false] }

/-- A drain that takes ticket 1 starts; so does a WLOAD with none. -/
theorem wit_MxeQueue_start :
    let s := tkPut 0 1 1 (mxAt [mxc (5 + 1 * 16) false false false false] none)
    let r := mxAt [mxc 1 false false false false] none
    findIdx? (fun e : MxeCmd => !e.started) (cget s 0).mxe.queue = some 0 ∧ engineFree (sq s 0) 1 = true ∧
    mxCanStart (cget s 0).mxe 0 (mxc (5 + 1 * 16) false false false false) = true ∧ mxeTicket s 0 1 = true ∧
    mxCanStart (cget r 0).mxe 0 (mxc 1 false false false false) = true ∧ mxeTicket r 0 0 = true ∧ coreRuns s 0 = true ∧
    coreRuns r 0 = true := by
  decide +kernel

/-- A SWAP STREAM that has started, a command whose results are written, and one at the head that retires poisoned with ticket 15
one below its largest. -/
theorem wit_MxeQueue_end :
    let s := mxAt [mxc (2 + 2 ^ 47) true false false false] (some tile1)
    let f := mxAt [mxc 1 true true false false] none
    let r := tkPut 0 15 65534 (mxAt [mxc (4 + 15 * 256) true true true true] none)
    findIdx? (fun e : MxeCmd => e.started && !e.performed && cmdOP e.w0 == 2 && stSwap e.w0 && !e.promoted)
      (cget s 0).mxe.queue = some 0 ∧
    ((cget f 0).mxe.queue[0]?.map (fun q => (q.performed, q.finished))) = some (true, false) ∧
    (cget r 0).mxe.queue = [mxc (4 + 15 * 256) true true true true] ∧ cmdTS (4 + 15 * 256) = 15 ∧ tkGet r 0 15 < 65535 ∧
    srcHeld (sq r 0) 1 = false ∧ coreRuns r 0 = true ∧ coreRuns s 0 = true ∧ coreRuns f 0 = true := by
  decide +kernel

/-- A poisoned command that waits to retire while the trap of an earlier one is held. -/
theorem wit_MxeQueue_held :
    let h : HeldTrap := { src := 1, cause := 0x0B, pc := 0, word := 0, detail := 0, detailHi := 0 }
    let s := squpd 0 (fun q => { q with held := [h] }) (mxAt [mxc 4 true true true true] none)
    (cget s 0).mxe.queue = [mxc 4 true true true true] ∧ srcHeld (sq s 0) 1 = true ∧ (sq s 0).stop = 0 := by
  decide +kernel

/-- Each MXE command at the head of the queue, started: WLOAD of one row at WSP block 0, STREAM through an active tile, EWISE,
ACCLOAD in modes 0 and 2, and DRAIN. -/
theorem wit_MxeCommands :
    mxRun (mxAt [mxc 1 true false false false] none) 0 1 = some 0 ∧
    mxRun (mxAt [mxc 2 true false false false] (some tile1)) 0 2 = some 0 ∧
    (cget (mxAt [mxc 2 true false false false] (some tile1)) 0).mxe.active = some tile1 ∧ tile1.cols ≤ 64 ∧
    halfBusy (cget (mxAt [mxc 2 true false false false] (some tile1)) 0).mxe 0 (stHalf 2) = false ∧ stSwap 2 = false ∧
    mxRun (mxAt [mxc 3 true false false false] none) 0 3 = some 0 ∧
    halfBusy (cget (mxAt [mxc 3 true false false false] none) 0).mxe 0 (ewHalf 3) = false ∧
    mxRun (mxAt [mxc 4 true false false false] none) 0 4 = some 0 ∧ mxFmt 4 = 0 ∧
    mxRun (mxAt [mxc (4 + 2 * 2 ^ 12) true false false false] none) 0 4 = some 0 ∧ mxFmt (4 + 2 * 2 ^ 12) = 2 ∧
    mxRun (mxAt [mxc 5 true false false false] none) 0 5 = some 0 ∧ drStride 5 = 4 := by
  decide +kernel

/-- The four PSP blocks of one row can be read for ACCLOAD. -/
theorem wit_MxeCommands_psp :
    let s := spWriteBytes 0 2 0 (zeros 256) (mxAt [mxc (4 + 2 * 2 ^ 12) true false false false] none)
    drRows (4 + 2 * 2 ^ 12) = 0 ∧ ∀ j : Fin 4, (spRead 0 (5120 + j.val) s).1 = some (zeros 64) := by
  decide +kernel

/-- Core 0 with a VXE command at the head of its queue. -/
def vxAt (w0 w1 : Nat) (done poison : Bool) : State :=
  core0 (fun k => { k with vxe := { VxeSt.reset with queue :=
    [{ w0 := w0, w1 := w1, pc := 0, performed := done, poison := poison, refused := 0 }] } })

/-- Every function of Table TILE.10 is next in its queue: ALU 0 to 10, SFU 0 to 3, reductions 0 to 2 and RNG. -/
theorem wit_VxeFunctions :
    (∀ f : Fin 11, (vxNext (vxAt (3 + f.val * 2 ^ 12) 0 false false) 0 3 f).isSome = true) ∧
    (∀ f : Fin 4, (vxNext (vxAt (4 + f.val * 2 ^ 12) 0 false false) 0 4 f).isSome = true) ∧
    (∀ f : Fin 3, (vxNext (vxAt (5 + f.val * 2 ^ 12) 0 false false) 0 5 f).isSome = true) ∧
    (vxNext (vxAt 7 0 false false) 0 7 0).isSome = true := by
  decide +kernel

theorem wit_VxeMemory : (∀ op ∈ ([1, 2, 6] : List Nat), (vxNext (vxAt op 0 false false) 0 op 0).isSome = true) ∧
    (∀ k : Fin 64, vMarked (cget (vxAt 6 0 false false) 0).vxe (vxVA 6) k = false) ∧
    ((cget (vxAt (1 + 256) 0 true true) 0).vxe.queue.map (fun q => (q.performed, q.poison))) = [(true, true)] ∧
    tkGet (vxAt (1 + 256) 0 true true) 0 (cmdTS (1 + 256)) < 65535 := by
  decide +kernel

/-- A MOV descriptor. -/
def mvd (w0 w1 w2 w3 : Nat) : MovDesc := { w0 := w0, w1 := w1, w2 := w2, w3 := w3, pc := 0 }

/-- Core 0 with a change in channel 7, the last. -/
def mvAt (f : MovCh → MovCh) : State := core0 (fun k => { k with mov := k.mov.set 7 (f MovCh.reset) })

/-- A descriptor that starts, one that its checks refuse, one that retires, a HALT write, and a channel to halt. -/
theorem wit_MovChannels :
    let ok := corSet 0 0x20 0x0FFF0FFF (corSet 0 0x10 4 (mvAt (fun m => { m with queue := [mvd 1 0 64 63] })))
    let no := mvAt (fun m => { m with queue := [mvd (1 + 2 ^ 15) 0 64 63] })
    let r := mvAt (fun m => { m with active := some (mvd 1 0 64 63), moved := true })
    (∀ s ∈ [ok, no, r], 7 < (cget s 0).mov.length ∧ engineFree (sq s 0) 3 = true ∧ (movGet s 0 7).halted = false) ∧
    (movGet ok 0 7).queue = [mvd 1 0 64 63] ∧ mvCheck ok 0 (mvd 1 0 64 63) = 0 ∧
    mvCheck no 0 (mvd (1 + 2 ^ 15) 0 64 63) = 0x0101 ∧ movTicket ok 0 7 (cmdTW 1) = true ∧ tkReady ok 0 (cmdTW 1) = true ∧
    (∀ s ∈ [ok, no, r], coreRuns s 0 = true) ∧
    (movGet r 0 7).active = some (mvd 1 0 64 63) ∧ (movGet r 0 7).moved = true ∧ r.remote = [] ∧ r.remoteRef = [] ∧
    tkGet r 0 (cmdTS 1) < 65535 ∧ mvDkind (mvd 1 0 64 63) ≠ 6 ∧ wBit (0x8000 : Word) 15 = true ∧ wBit (0 : Word) 15 = false := by
  decide +kernel

/-- A remote write that its target takes, one that it refuses, and a refusal that reaches its sender. -/
theorem wit_MovChannels_remote :
    let r : RemoteWr := { src := 0, ch := 7, dst := 1, mem := 0, off := 0, data := zeros 64, path := [0], esc := false }
    let ok := corSet 1 0x20 0x0FFF0FFF (corSet 1 0x10 4 { awake with remote := [r] })
    let no : State := { awake with remote := [r] }
    let f : State := { mvAt (fun m => { m with active := some (mvd 1 0 64 63) }) with
      remoteRef := [{ src := 0, ch := 7, status := 0x0201 }] }
    findIdx? (fun e : RemoteWr => e.dst == 1) ok.remote = some 0 ∧ remoteCheck ok r = 0 ∧ remoteCheck no r = 0x0201 ∧ coreRuns ok 1 = true ∧ coreRuns no 1 = true ∧ coreRuns f 0 = true ∧
    findIdx? (fun e : RemoteRef => e.src == 0) f.remoteRef = some 0 ∧
    (movGet f 0 7).active = some (mvd 1 0 64 63) ∧ 7 < (cget f 0).mov.length := by
  decide +kernel

/-- A COPY of one block and a FILL of one block of INT8. -/
theorem wit_MovTransfers :
    let c := mvd 1 0 64 63
    let f := mvd 2 0x0102030405060708 64 63
    let s := spWriteBytes 0 0 0 (zeros 64) (mvAt (fun m => { m with active := some c }))
    let t := mvAt (fun m => { m with active := some f })
    (movGet s 0 7).active = some c ∧ (movGet s 0 7).moved = false ∧ mvFill c = false ∧ mvSfmt c = 0 ∧ mvDfmt c = 0 ∧ mvLen c = 64 ∧
    mvRows c = 1 ∧ mvPlanes c = 1 ∧ mvSkind c = 0 ∧ mvDkind c = 0 ∧ mvSaddr c = 64 * 0 ∧ mvDaddr c = 64 * 1 ∧
    (spRead 0 (memFirst 0 + 0) s).1 = some (zeros 64) ∧
    (movGet t 0 7).active = some f ∧ mvFill f = true ∧ mvLen f * elemBytes (mvDfmt f) = 64 ∧ mvRows f = 1 ∧ mvPlanes f = 1 ∧
    mvDkind f = 0 ∧ mvDaddr f = 64 * 1 ∧ mvClear s 0 c = true ∧ mvClear t 0 f = true ∧
    mvHeld s 0 c = false ∧ mvHeld t 0 f = false := by
  decide +kernel

/-- A FILL into cluster SRAM that a 65th busy answer stops at its first block. -/
theorem wit_MovTransfers_busy :
    let f := mvd (2 + 5 * 2 ^ 20) 0 64 63
    let t := mvAt (fun m => { m with active := some f })
    (movGet t 0 7).active = some f ∧ (movGet t 0 7).moved = false ∧ mvFill f = true ∧ mvClear t 0 f = true ∧ mvHeld t 0 f = false ∧
    (mvAll 0 7 f [65] t).status = 0x0203 ∧ 7 < (cget (mvAll 0 7 f [65] t).s 0).mov.length := by
  decide +kernel

/-- Core 0 halted and running, a bank group that waits for its power, the last of twelve, and a narrow write that waits. -/
theorem wit_ScratchConfig :
    (cget State.reset 0).halted = true ∧ (cget (core0 (fun k => { k with halted := false })) 0).halted = false ∧
    (cget (core0 (fun k => { k with powering := [11] })) 0).powering = [11] ∧
    (cget (core0 (fun k => { k with merges := [{ blk := 6143, data := zeros 64, poison := true }] })) 0).merges =
      [{ blk := 6143, data := zeros 64, poison := true }] ∧ (zeros 64).length = 64 := by
  decide +kernel

/-! ## Cluster SRAM, power and clocks -/

/-- A device in service: every rail is up, start-up has completed and the host link is trained. -/
def up : State :=
  rset 0x100 0x400 { State.reset with
    pwr := { PwrSt.reset with rails := railsUp [] }
    booted := true
    stage := 9
    boot := { BootSt.reset with next := none } }

/-- A write and a read of the last block of a cluster's SRAM meet on a word; accesses to the first and the last word do not. -/
theorem wit_ClusterSram :
    let w : SramAcc := { off := 4194240, len := 64, data := some (zeros 64) }
    let r : SramAcc := { off := 4194296, len := 8, data := none }
    let f : SramAcc := { off := 0, len := 8, data := none }
    let v : SramAcc := { off := 4194303, len := 1, data := some (zeros 1) }
    accOk w = true ∧ accOk r = true ∧ accMeet w r = true ∧ w.data.isSome = true ∧ accMeet w f = false ∧
    accOk v = true ∧ accMeet v w = true ∧ accNarrow v = true ∧ accNarrow w = false := by
  decide +kernel

/-- An atomic on the last word, one that is held, a bank whose queue has room for one more, and a queued atomic. -/
theorem wit_ClusterSram_atomic :
    let s := csWriteBytes 255 4194240 (zeros 64) State.reset
    let q : QAtomic := { clu := 255, bank := 31, port := 1, off := 4194296, op := .add64, arg := 1 }
    4194296 % atomicBytes .add64 = 0 ∧ (csRead 255 65535 s).1 = some (zeros 64) ∧ (zeros 64).length = 64 ∧
    (([q] : List QAtomic).filter (fun q => q.clu == 255 && q.bank == 4194296 / 64 % 32)).length < 2 ∧
    findIdx? (fun e : QAtomic => e.clu == 255 && e.bank == 31) [q] = some 0 ∧ q.off / 64 = 65535 := by
  decide +kernel

/-- VAUX up and down, the switch with the rails down and with the rails up, H0 powered, with the brake off and with a source. -/
theorem wit_PowerInput :
    State.reset.pwr.vaux = true ∧ State.reset.pwr.rev = false ∧ State.reset.pwr.rails = [] ∧ State.reset.pwr.kiln = false ∧
    State.reset.pwr.rst = false ∧ ({ State.reset with boot := { BootSt.reset with next := none } } : State).boot.next = none ∧
    up.pwr.rails ≠ [] ∧ limitOn up = true ∧ brakeSources up = 0 ∧ (brakeSources (brakeSource 3 true up) ≠ 0) ∧
    brakeOn (brakeSource 3 true up) = true ∧
    ({ State.reset with pwr := { PwrSt.reset with vaux := false } } : State).pwr.vaux = false := by
  decide +kernel

/-- The brake on with a source left, on with none, and off. -/
theorem wit_PowerBrake : limitOn up = true ∧ brakeOn up = false ∧
    brakeOn (brakeSource 1 true up) = true ∧ brakeSources (brakeSource 1 true up) ≠ 0 ∧
    brakeOn (brakeSource 1 false (brakeSource 1 true up)) = true ∧ brakeSources (brakeSource 1 false (brakeSource 1 true up)) = 0 ∧
    limitOn (brakeSource 1 true up) = true ∧ wBit (16 : Word) 4 = true := by
  decide +kernel

/-- A comparator reading just above 340 W, and the power loop of a powered device. -/
theorem wit_PowerLevels : limitOn up = true ∧ 3400 < 3401 := by
  decide +kernel

/-- A window whose counts are nominal on a tower and on a hub, and each clock of each die. -/
theorem wit_ClockMonitors :
    monOn up 15 = true ∧ monOn up 19 = true ∧ monOn State.reset 0 = false ∧
    (∀ e ∈ windowClocks 15 ((dieClocks 15).map (fun x => nominal8 x.1 / 8)), e.2 = true) ∧
    (∀ e ∈ windowClocks 19 ((dieClocks 19).map (fun x => nominal8 x.1 / 8)), e.2 = true) ∧
    (windowClocks 15 [4200, 525, 700, 65, 0]).any (fun e => !e.2) = true ∧
    (∀ c : Fin 5, ((dieClocks 0).find? (fun e => e.1 == c.val)).isSome = true) ∧
    ((dieClocks 16).find? (fun e => e.1 == 4)).isSome = true ∧ ((dieClocks 17).find? (fun e => e.1 == 10)).isSome = true ∧
    (dieClocks 17).find? (fun e => e.1 == 1) = none := by
  decide +kernel

/-! ## Bank columns -/

/-- The last column with a change. -/
def colAt (f : ColSt → ColSt) : State := colupd 8703 f awake

/-- A queued read whose slot is free, and one whose slot is withheld. -/
theorem wit_SliceRows_issue :
    let q : List RowReq := [{ RowReq.none with id := 1, row := 131071 }]
    let s := colAt (fun u => { u with queue := q })
    mntDue (colget s 8703) = false ∧ rowRoom (colget s 8703) = true ∧ (listAt q 0 RowReq.none).write = false ∧
    let w := rset (thmBase + 0x80 + 4 * 15) 0xC000 s
    (colget s 8703).retraining = false ∧ (colget s 8703).forced = false ∧ rowPick 0 (colget s 8703).queue = some 0 ∧
    slotWithheld 0 (withholdOf s 8703) = false ∧ slotWithheld 0 (withholdOf w 8703) = true ∧ withholdOf w 8703 = 12 := by
  decide +kernel

/-- A row of zeros in flight decodes clean. -/
theorem wit_SliceRows_deliver :
    let r : RowRead := { id := 1, row := 0, data := zeros 1024, chk := zeros 48, fwd := [15] }
    (colget (colAt (fun u => { u with inFlight := [r] })) 8703).inFlight = [r] ∧
    deadLanes (colAt (fun u => { u with inFlight := [r] })) 8703 = [] ∧
    ∀ b : Fin 16, rsDecode ((r.data.drop (64 * b.val)).take 64) ((r.chk.drop (3 * b.val)).take 3) = .clean (zeros 64) := by
  decide +kernel

/-- A write-combining entry to extend, room for a new one, an entry to write, and a suspect group. -/
theorem wit_SliceRows_write :
    let e : WcEntry := { row := 5, blocks := [(15, zeros 64)], counted := false, tally := true }
    let s := colAt (fun u => { u with wc := [e], corr := [(133 * 8 + 7, (List.range 8).map (fun i => (i, 0)))] })
    (zeros 64).length = 64 ∧ deadLanes s 8703 = [] ∧ (∃ x ∈ (colget s 8703).wc, x.row = 5) ∧ (colget s 8703).wc.length < 4 ∧
    findIdx? (fun x : WcEntry => x.row == 5) (colget s 8703).wc = some 0 ∧ (colget s 8703).wc[0]? = some e ∧
    (0 : BitVec 8).getLsbD (rowLayer 5) = false ∧ slotWithheld 0 (withholdOf s 8703) = false ∧ (e.blocks.map Prod.fst).Nodup ∧
    8 ≤ ((stGet (fun _ => []) (colget s 8703).corr (133 * 8 + 7)).filter (fun e => s.ns ≤ e.2 + 1000000)).length := by
  decide +kernel

/-- Groups with a spare, without one, and a second one without, in columns in service and at-risk. -/
theorem wit_SliceRows_suspect :
    let n : LaneGrp := { sp := [(0, 5), (1, 6)], bad := [], badSp := [] }
    let s := setBond (8703 * 134 + 133) n State.reset
    let t := setBond (8703 * 134) { n with bad := [9] } (colupd 8703 (fun u => { u with state := 1 }) s)
    (freeSpare 2 (bondGrp State.reset (8703 * 134 + 133))).isSome = true ∧ (freeSpare 2 (bondGrp s (8703 * 134 + 133))).isSome = false ∧
    spentGroups s 8703 = [] ∧ spentGroups t 8703 = [0] ∧ (colget t 8703).state = 1 := by
  decide +kernel

/-- Four refreshes owed, one owed with an empty queue, and an at-risk column of no partition. -/
theorem wit_SliceRefresh :
    (colget (colAt (fun u => { u with owed := 4 })) 8703).owed < 5 ∧
    0 < (colget (colAt (fun u => { u with owed := 1 })) 8703).owed ∧
    rowReady 0 (colget (colAt (fun u => { u with owed := 1 })) 8703) = false ∧
    (colget (colAt (fun u => { u with state := 1 })) 8703).state ≠ 0 ∧
    (colget (colAt (fun u => { u with state := 1 })) 8703).migrated = false ∧
    cluPart (colAt (fun u => { u with state := 1 })) (coreClu (8703 / 2)) = none := by
  decide +kernel

/-- An NBU command. -/
def nbc (w0 w1 : Nat) (started performed : Bool) : NbuCmd :=
  { w0 := w0, w1 := w1, pc := 0, started := started, performed := performed, alone := false, outcome := 0, refused := 0 }

/-- The last column with an NBU queue. -/
def nbAt (q : List NbuCmd) : State := colAt (fun u => { u with nbu := { NbuSt.reset with queue := q } })

/-- A command that starts behind another bank's, one at a retired column, a QLOAD that waits for the chain, and one that retires. -/
theorem wit_NbuQueue :
    let s := nbAt [nbc (2 + 2 ^ 12) 0 true true, nbc 1 0 false false]
    let r := colupd 8703 (fun u => { u with state := 2 }) s
    let l := rset (nbuBase 8703 + 0x2C) 1 (nbAt [nbc (1 + 2 ^ 18) 0 true false])
    let e := nbAt [nbc (5 + 256) 0 true true]
    nbNext (nbget s 8703) = some 1 ∧ (nbget s 8703).queue[1]? = some (nbc 1 0 false false) ∧
    engineFree (sq s (8703 / 2)) (nbSrc 8703) = true ∧ (colget s 8703).state ≠ 2 ∧ (colget r 8703).state = 2 ∧
    (∀ x ∈ (nbget s 8703).queue.take 1, usesBank x.w0 = true → nbQB x.w0 ≠ nbQB 1) ∧ nbuTicket s 8703 (cmdTW 1) = true ∧
    (∀ x ∈ [s, r, l, e], coreRuns x (8703 / 2) = true) ∧ srcHeld (sq e (8703 / 2)) (nbSrc 8703) = false ∧
    rget l (nbuBase 8703 + 0x2C) ≠ 0 ∧
    findIdx? (fun q : NbuCmd => q.started && !q.performed && !q.alone &&
      ((cmdOP q.w0 == 1 && qlSrc q.w0 && (nbget l 8703).chainQ.isEmpty) ||
        (cmdOP q.w0 == 3 && emMode q.w0 ≥ 2 && (nbget l 8703).chainR.isEmpty))) (nbget l 8703).queue = some 0 ∧
    (nbget e 8703).queue = [nbc (5 + 256) 0 true true] ∧ tkGet e (8703 / 2) (cmdTS (5 + 256)) < 65535 := by
  decide +kernel

/-- QLOAD of the own slice, SCORE, EMIT to a scratchpad, COPY of one block, and REQUANT, each started. -/
theorem wit_NbuCommands : (∀ op ∈ ([1, 2, 3, 4, 5] : List Nat),
    nbRun (nbAt [nbc op 0 true false]) 8703 op = some (0, nbc op 0 true false)) ∧ qlSrc 1 = false ∧ emMode 3 = 0 ∧
    deadLanes (nbAt [nbc (4 + 2 ^ 34) 0 true false]) 8703 = [] ∧ (colget (nbAt [nbc (4 + 2 ^ 34) 0 true false]) 8703).wc = [] ∧
    wcBlock (nbAt [nbc (4 + 2 ^ 34) 0 true false]) 8703 (rowOf (blkOff 8703 0)) 0 = none ∧ cpN (4 + 2 ^ 34) = 1 ∧ cpSrc (4 + 2 ^ 34) + cpN (4 + 2 ^ 34) ≤ cpDst (4 + 2 ^ 34) ∧
    (t1ReadBlk (8703 / 2) (blkOff 8703 0) (nbAt [nbc (4 + 2 ^ 34) 0 true false])).1 = some (zeros 64) := by
  decide +kernel

theorem memRead_nil (a n : Nat) : memRead [] a n = zeros n := by
  induction n generalizing a with
  | zero => rfl
  | succ n ih => simp only [memRead, ih]; rfl

theorem zeros_clean : rsDecode (zeros 64) (zeros 3) = .clean (zeros 64) := by decide +kernel

/-- Blocks of an empty tier 1 read as zeros. -/
theorem t1ReadBlks_nil (s : State) (h1 : s.t1 = []) (h2 : s.t1Chk = []) (hw : ∀ col row blk, wcBlock s col row blk = none)
    (hd : ∀ col, deadLanes s col = []) (c n off : Nat) : t1ReadBlks c n off s = (List.replicate n (some (zeros 64)), s) := by
  induction n generalizing off with
  | zero => rfl
  | succ n ih =>
    have hb : t1ReadBlk c off s = (some (zeros 64), s) := by
      simp only [t1ReadBlk, hw, crossBus, hd, List.filter_nil, List.isEmpty_nil, if_true, t1Decode, h1, h2, memRead_nil, zeros_clean]
    simp only [t1ReadBlks, hb, ih, List.replicate_succ]

/-- The 256 blocks of a page of zeros can be read for REQUANT. -/
theorem wit_NbuCommands_requant :
    t1ReadBlks (8703 / 2) 256 (rowOff 8703 (16 * rqSrc 5)) (dropPin 8703 (nbAt [nbc 5 0 true false])) =
      (List.replicate 256 (some (zeros 64)), dropPin 8703 (nbAt [nbc 5 0 true false])) ∧ (zeros 64).length = 64 := by
  refine ⟨t1ReadBlks_nil _ rfl rfl (fun col row blk => ?_) (fun _ => rfl) _ _ _, rfl⟩
  have hc : (colget (dropPin 8703 (nbAt [nbc 5 0 true false])) col).wc = [] := by
    by_cases h : col = 8703
    · subst h; rfl
    · show (stGet (fun _ => ColSt.reset) [(8703, _)] col).wc = []
      rw [stGet, if_neg (Ne.symm h)]
      rfl
  simp only [wcBlock, hc, List.find?_nil]

/-- An item of another column, and an atomic on the last word of a slice. -/
theorem wit_NbuCommands_items :
    let it : WorkItem := { page := 5, qmask := 1, tokens := 1, tag := 1, bad := false }
    some (it.page - fld it.page 12 0) ≠ colPage (nbAt [nbc 2 0 true false]) 8703 ∧ bitAt it.qmask 0 = true ∧ 0 < nbNQ 2 ∧
    268435448 % atomicBytes .add64 = 0 ∧ offCol 268435448 = 8703 % 2 ∧ (colget awake 8703).state ≠ 2 ∧ coreRuns awake (8703 / 2) = true ∧
    rmwClear awake 8703 (rowOf 268435448) = true ∧ deadLanes awake 8703 = [] ∧ (colget awake 8703).wc = [] ∧
    (t1ReadBlk (8703 / 2) (268435448 / 64 * 64) awake).1 = some (zeros 64) := by
  decide +kernel

/-! ## The queue, registers and windows -/

/-- A queue of one command, and an empty queue with H0 powered and not. -/
theorem wit_StepRunsFrontCommand :
    ({ State.reset with pending := [Instr.vauxUp] } : State).pending = Instr.vauxUp :: [] ∧
    (match step { State.reset with pending := [Instr.vauxUp] } with
     | .next t => t.pending == []
     | _ => false) = true := by
  decide +kernel

theorem wit_EmptyQueueIdles : up.pending = [] ∧ up.reload = [] ∧ notesDue up = false ∧ up.ctrs.any (timeCtr up) = false ∧
    up.pwr.refOk = true ∧ nsHas up.pwr.rails 0 = true ∧
    nsHas State.reset.pwr.rails 0 = false := by
  decide +kernel

/-! ## The host port -/

/-- A packet of opcode `op` for partition `p`, in window 0. -/
def pk (op p : Nat) (pay : List Nat) : Pkt :=
  { id := 7, win := 0, started := false, silent := false, bytes := ([2, 0, op % 256, op / 256, 1, 0, 0, 0, p % 256, p / 256,
    pay.length % 256, pay.length / 256, 0, 0, 0, 0, 0, 16, 0, 0, 0, 0, 0, 0, 0, 0, 0, 0, 0, 0, 0, 0] ++ pay).map (BitVec.ofNat 8) }

/-- Device `up` with partition 3 and a packet waiting in window 0. -/
def hostAt (k : Pkt) (f : PartSt → PartSt) : State :=
  wset 0 { WinSt.reset with queue := [k] } (pset 3 (f { PartSt.reset with state := 1, mask := 15 }) up)

/-- Whether a packet of window 0 is admitted. -/
def admits (op : Nat) (resv : List Byte → Bool) (k : Pkt) (s : State) : Bool :=
  startable s 0 op == some k && !resv k.bytes && partGate (startPkt k s) 0 (hPart k.bytes) op == 0

theorem admitted_of_admits {op : Nat} {resv : List Byte → Bool} {k : Pkt} {s : State} (h : admits op resv k s = true) :
    admitted 0 op resv k s := by
  simp only [admits, Bool.and_eq_true, beq_iff_eq, Bool.not_eq_true'] at h
  exact ⟨h.1.1, h.1.2, h.2⟩

/-- Number `v` as `n` payload bytes. -/
def le (n v : Nat) : List Nat := (List.range n).map (fun i => v / 256 ^ i % 256)

/-- A trained link, an HP_WIN register of the table, a lost tower's register, and a partition's page. -/
theorem wit_HostRegisterWrite :
    let l : State := { up with lostTw := [3] }
    hostReaches up 0 = true ∧ hostReaches up 64 = true ∧ (regRow 0x48).isSome = true ∧ (regRow 0).isSome = true ∧
    regFenced up 0x48 = false ∧ (barOff 64 0x10000).isSome = true ∧ regFenced up (vfKey 63 0x10000) = false ∧
    hostReaches l 0 = true ∧ regFenced l (towerBase 3 + 0x24) = true := by
  decide +kernel

/-- Aperture 0 at tier-2 address 64. -/
def bar2 : State := rset 0x2004 0x1000 (rset 0x2000 1 up)

/-- A tier-2 target through an aperture, the first and the last address of an aperture that is off, and a booted device. -/
theorem wit_HostConfigAndBar2 :
    hostReaches bar2 0 = true ∧ apertureDpa bar2 64 = some (2 ^ 44 + 64) ∧
    apertureDpa up 0 = none ∧ apertureDpa bar2 (2 ^ 28) = none ∧ hubAbsent up 0 = false ∧ wBit (rget up 0x100) 10 = true ∧
    up.booted = true ∧ hostReaches up 64 = true ∧ (barOff 0 (towerBase 3 + 0x24)).isSome = true ∧
    regFenced { up with lostTw := [3] } (towerBase 3 + 0x24) = true ∧ regFenced up 0x48 = false := by
  decide +kernel

/-- Table HOST.3: BAR0 of the physical function takes its base and keeps its type bits; a write of MSI-X control is its own word. -/
theorem test_config_bar :
    cfgWord (cfgWrite 0 4 0xFFFFFFFF up) 0 4 = 0xF0000004 ∧ cfgWord (cfgWrite 0 6 0xFFFFFFFF up) 0 6 = 0xC ∧
    cfgWord (cfgWrite 0 5 0x12 up) 0 5 = 0x12 ∧ cfgWord up 0 2 = 0x12000002 := by
  decide +kernel

/-- Whether an access reaches the target `t`. -/
def hits (t : Tgt) : Except Bool Tgt → Bool
  | .ok u => u == t
  | .error _ => false

/-- No access has left a link error in any pair. -/
theorem wit_HostConfigAndBar2_link : ∀ k, (pairGet bar2 k).link = 0 := fun _ => rfl

theorem wit_HostConfigAndBar2_target :
    hits (.tier2 64) (bar2Tgt (hostReq 0 (apertureDpa bar2 64) bar2) 64 4 false) = true ∧
    hits (.tier2 64) (bar2Tgt (hostReq 0 (apertureDpa bar2 64) bar2) 64 4 true) = true := by
  decide +kernel

/-- An aperture onto a tier-1 address with a reserved bit: refused, and recorded at H0 as reason 5 of the privileged marker. -/
theorem wit_HostConfigAndBar2_refused :
    let s := rset 0x2004 0 (rset 0x2000 0x10000001 bar2)
    hostReaches s 0 = true ∧ (match bar2Tgt (hostReq 0 (apertureDpa s 0) s) 0 4 false with
      | .error ur => ur == false
      | .ok _ => false) = true ∧
    hubStat (bar2Refuse 0 4 false s) 0 = 1 ∧ hubBnd (bar2Refuse 0 4 false s) 0 = 0xD0200000 := by
  decide +kernel

theorem wit_HostConfigAndBar2_read :
    (tgtRead (.tier2 64) 4 none (hostReq 0 (apertureDpa bar2 64) bar2)).1 = some (zeros 4) := by
  decide +kernel

/-- Partition 3 runs under TDISP. -/
theorem wit_Bar2InTdispRun :
    let s := hostAt (pk 1 0xFFFF []) (fun q => { q with tdi := 2 })
    hostReaches s 0 = true ∧ (pget s 3).state ≠ 0 ∧ (pget s 3).tdi = 2 := by
  decide +kernel

/-- A packet that is accepted, one of an unknown opcode, and data for an outstanding read. -/
theorem wit_CommandWindows :
    let k := pk 0x0001 0xFFFF []
    let b := (pk 0x0999 0xFFFF []).bytes
    let r : HostRead := { tag := 5, addr := 4096, len := 4, use := .dmaIn 7 0 }
    let g := { up with reads := [r] }
    hostReaches up (winFn 127) = true ∧ (zeros 64).length ≤ 65536 ∧ hRaddr k.bytes % 32 = 0 ∧ hRaddr b % 32 = 0 ∧
    acceptStatus (wset 0 { wget up 0 with head := ((wget up 0).head + ceilDiv (40 + 8 * hPlen k.bytes) 64) % 1024 } up) 0
      k.bytes = 0 ∧
    acceptStatus (wset 0 { wget up 0 with head := ((wget up 0).head + ceilDiv (40 + 8 * hPlen b) 64) % 1024 } up) 0 b = 0x0102 ∧
    bitAt (hRvec b) 11 = false ∧ g.reads.find? (fun r => r.tag == 5) = some r ∧ (zeros 4).length = r.len ∧
    g.reads.find? (fun r => r.tag == 6) = none ∧ wBit (rget g 0x100) 10 = true := by
  decide +kernel

/-- A packet in its window, without and with a vector to signal. -/
theorem wit_PacketCompletion :
    let k := pk 0x0001 0xFFFF []
    let v := { k with bytes := k.bytes.set 25 0x10 }
    let s := cfgSet 0 9 0x80000000 (rset (msixKey 0 0 3) 0 (hostAt v (fun q => q)))
    findPkt (hostAt k (fun q => q)) 7 = some k ∧ k.silent = false ∧ up.fatal = false ∧ bitAt (hRvec k.bytes) 12 = false ∧
    findPkt s 7 = some v ∧ s.fatal = false ∧ bitAt (hRvec v.bytes) 12 = true ∧ hRaddr v.bytes ≠ 0 ∧
    wBit (rget s (msixKey (winFn 0) (hRvec v.bytes % 2 ^ 11) 3)) 0 = false ∧ msixOn s (winFn 0) = true ∧
    nsHas s.d3 0 = false ∧ hRvec v.bytes % 2 ^ 11 < fnVectors (winFn 0) ∧ (pget (pset 3 { PartSt.reset with ide := true } s) 3).ide = true := by
  decide +kernel

/-- Functions of a trained link; a pending vector that is not masked; a partition whose TDI is unlocked. -/
theorem wit_FunctionStates :
    hubAbsent up 0 = false ∧ wBit (rget up 0x100) 10 = true ∧ nsHas up.pwr.rails 0 = true ∧ up.booted = true ∧
    (pget up 63).tdi = 0 ∧ (0 : Nat) < fnVectors 0 ∧
    wBit (rget (rset (msixKey 0 0 3) 0 (rset 0x10000 1 up)) 0x10000) 0 = true ∧
    wBit (rget (rset (msixKey 0 0 3) 0 (rset 0x10000 1 up)) (msixKey 0 0 3)) 0 = false ∧
    msixOn (cfgSet 0 9 0x80000000 (rset (msixKey 0 0 3) 0 (rset 0x10000 1 up))) 0 = true := by
  decide +kernel

/-- DEVICE_STATUS, PART_QUERY, SET_LIMITS with both limits and with none, DEVICE_RESET with a legal and an illegal kind. -/
theorem wit_DeviceCommands :
    admits 0x0001 noResv (pk 1 0xFFFF []) (hostAt (pk 1 0xFFFF []) (fun q => q)) = true ∧
    admits 0x0104 noResv (pk 0x104 3 []) (hostAt (pk 0x104 3 []) (fun q => q)) = true ∧
    (let k := pk 3 0xFFFF (le 2 5000 ++ le 2 300 ++ le 2 0xFFFF ++ le 10 0)
     admits 0x0003 (fun b => payNZ b 6 10) k (hostAt k (fun q => q)) = true ∧ payAt k.bytes 0 2 ≠ 0 ∧ payAt k.bytes 0 2 < 8192 ∧
     payAt k.bytes 2 2 ≠ 0 ∧ payAt k.bytes 2 2 < 512 ∧ bitAt (payAt k.bytes 4 2) 15 = true) ∧
    (let k := pk 3 0xFFFF (le 16 0)
     admits 0x0003 (fun b => payNZ b 6 10) k (hostAt k (fun q => q)) = true ∧ payAt k.bytes 0 2 = 0 ∧ payAt k.bytes 2 2 = 0) ∧
    (let k := pk 2 0xFFFF (le 8 1)
     admits 0x0002 (fun b => payAt b 0 1 / 4 != 0 || payNZ b 1 7) k (hostAt k (fun q => q)) = true ∧ payAt k.bytes 0 1 = 1) ∧
    (let k := pk 2 0xFFFF (le 8 2)
     admits 0x0002 (fun b => payAt b 0 1 / 4 != 0 || payNZ b 1 7) k (hostAt k (fun q => q)) = true ∧ 1 < payAt k.bytes 0 1) := by
  decide +kernel

/-- The device with one core: logical tower 0, cluster 0, core 0 on the physical ones of that number. -/
def mapped (k : Pkt) (f : PartSt → PartSt) : State :=
  { hostAt k f with map := { tw := [(0, 1)], cl := [(0, 1)], core := [(0, 1)] } }

/-- PART_CREATE, PART_LOCK on an unlocked, a confidential and a locked partition, PART_RELEASE, PART_READMIT. -/
theorem wit_PartitionCommands :
    (let k := pk 0x101 5 (le 8 16 ++ le 4 0 ++ le 4 9 ++ le 4 1 ++ le 4 0 ++ le 8 0)
     let s := mapped k (fun q => q)
     let t : State := { s with map := { tw := [(0, 1)], cl := [(4, 5)], core := [(4 * 17, 1)] } }
     let u : State := { t with map := { tw := [(0, 1)], cl := [(0, 1), (4, 5)], core := [(0, 1), (68, 1)] } }
     admits 0x0101 (fun b => payAt b 26 1 / 4 != 0 || payAt b 27 1 / 4 != 0 || payNZ b 28 4 ||
      [8, 12, 16, 20].any (fun o => payAt b o 4 / 2 ^ 25 != 0)) (pk 0x101 5 (le 8 2 ++ le 4 1 ++ le 4 9 ++ le 4 1 ++ le 4 0 ++ le 8 0))
      (wset 0 { WinSt.reset with queue := [pk 0x101 5 (le 8 2 ++ le 4 1 ++ le 4 9 ++ le 4 1 ++ le 4 0 ++ le 8 0)] } u) = true ∧
     (∀ e ∈ u.map.core, e.1 < 4352) ∧ hPart k.bytes < 64) ∧
    (let k := pk 0x103 3 (le 8 0)
     admits 0x0103 (fun b => payNZ b 0 8) k (hostAt k (fun q => q)) = true ∧
     (pget (startPkt k (hostAt k (fun q => q))) 3).state = 1 ∧ (pget (startPkt k (hostAt k (fun q => q))) 3).conf = false ∧
     admits 0x0103 (fun b => payNZ b 0 8) k (hostAt k (fun q => { q with conf := true })) = true ∧
     admits 0x0103 (fun b => payNZ b 0 8) k (hostAt k (fun q => { q with state := 2 })) = true) ∧
    (let k := pk 0x102 3 (le 8 1)
     admits 0x0102 (fun b => payAt b 0 1 / 2 != 0 || payNZ b 1 7) k (hostAt k (fun q => q)) = true ∧ bitAt (payAt k.bytes 0 1) 0 = true) ∧
    (let k := pk 0x102 3 (le 8 0)
     let l := { pk 0x401 3 [] with id := 6, started := true }
     let s := wset 1 { WinSt.reset with queue := [{ l with win := 1 }] } (hostAt k (fun q => { q with launches := [6] }))
     admits 0x0102 (fun b => payAt b 0 1 / 2 != 0 || payNZ b 1 7) k s = true ∧ bitAt (payAt k.bytes 0 1) 0 = false ∧
     launchesOf (startPkt k s) 3 ≠ 0) ∧
    (let k := pk 0x105 3 (le 8 0)
     let s := mapped k (fun q => { q with state := 4, mask := 1 })
     admits 0x0105 (fun b => payAt b 0 1 / 16 != 0 || payNZ b 1 7) k s = true ∧ (pget (startPkt k s) 3).state = 4 ∧
     clusOn (startPkt k s) 3 0 = [0] ∧ maskMapped (startPkt k s) (pget (startPkt k s) 3).mask = true ∧
     admits 0x0105 (fun b => payAt b 0 1 / 16 != 0 || payNZ b 1 7) k (hostAt k (fun q => q)) = true) := by
  decide +kernel

/-- The partition that PART_CREATE names does not exist, its quarter is free and its windows are empty or lie below the end. -/
theorem wit_PartitionCommands_create :
    let k := pk 0x101 5 (le 8 2 ++ le 4 1 ++ le 4 9 ++ le 4 1 ++ le 4 0 ++ le 8 0)
    let s : State := { hostAt k (fun q => { q with mask := 1 }) with
      map := { tw := [(0, 1)], cl := [(4, 5)], core := [(68, 1)] } }
    createStatus (startPkt k s) k.bytes = 0 := by
  decide +kernel

/-- MEM_WRITE of a tier-2 block and of no bytes; DMA_IN of none and of 4 160 bytes; DMA_OUT aligned and not; data for a DMA_IN. -/
theorem wit_HostTransfers :
    (let k := pk 0x201 0xFFFF (le 8 (2 ^ 44 + 64) ++ le 4 8 ++ le 4 0 ++ le 8 5)
     admits 0x0201 (fun b => payNZ b 12 4) k (hostAt k (fun q => q)) = true ∧ 0 < payAt k.bytes 8 4 ∧ payAt k.bytes 8 4 ≤ 4040) ∧
    (let k := pk 0x201 0xFFFF (le 16 0)
     admits 0x0201 (fun b => payNZ b 12 4) k (hostAt k (fun q => q)) = true ∧ payAt k.bytes 8 4 = 0) ∧
    (let k := pk 0x202 0xFFFF (le 8 4096 ++ le 8 64 ++ le 8 4160)
     admits 0x0202 (fun b => payNZ b 20 4) k (hostAt k (fun q => q)) = true ∧ payAt k.bytes 0 8 % 64 = 0 ∧
     payAt k.bytes 8 8 % 64 = 0 ∧ payAt k.bytes 16 4 % 64 = 0 ∧ payAt k.bytes 16 4 ≠ 0) ∧
    (let k := pk 0x202 0xFFFF (le 24 0)
     admits 0x0202 (fun b => payNZ b 20 4) k (hostAt k (fun q => q)) = true ∧ payAt k.bytes 16 4 = 0) ∧
    (let k := pk 0x203 0xFFFF (le 8 4096 ++ le 8 (2 ^ 44) ++ le 8 64)
     admits 0x0203 (fun b => payNZ b 20 4) k (hostAt k (fun q => q)) = true ∧ dmaStatus k.bytes = 0) ∧
    (let k := pk 0x203 0xFFFF (le 8 4097 ++ le 8 (2 ^ 44) ++ le 8 64)
     admits 0x0203 (fun b => payNZ b 20 4) k (hostAt k (fun q => q)) = true ∧ dmaStatus k.bytes ≠ 0) ∧
    (let k := pk 0x202 0xFFFF (le 8 4096 ++ le 8 (2 ^ 44) ++ le 8 64)
     let x : DmaSt := { pkt := 7, left := 1, bad := none }
     let s := { hostAt k (fun q => q) with dmas := [x] }
     s.dmas.find? (fun x => x.pkt == 7) = some x ∧ findPkt s 7 = some k ∧ x.left ≤ 1 ∧ x.bad = none) := by
  decide +kernel

/-- The blocks of that MEM_WRITE, of that DMA_IN and of that DMA_OUT are admitted. -/
theorem wit_HostTransfers_blocks :
    (let k := pk 0x201 0xFFFF (le 8 (2 ^ 44 + 64) ++ le 4 8 ++ le 4 0 ++ le 8 5)
     (writeBlocks k.bytes (payAt k.bytes 0 8) 0 (payAt k.bytes 8 4 / 64 + 2) ((k.bytes.drop 48).take (payAt k.bytes 8 4))
       (startPkt k (hostAt k (fun q => q)))).1 = none) ∧
    (let k := pk 0x202 0xFFFF (le 8 4096 ++ le 8 (2 ^ 44) ++ le 8 64)
     (writeBlocks k.bytes (2 ^ 44) (2 ^ 44 - payAt k.bytes 8 8) ((zeros 64).length / 64 + 2) (zeros 64)
       (hostAt k (fun q => q))).1 = none) ∧
    (let k := pk 0x203 0xFFFF (le 8 4096 ++ le 8 (2 ^ 44) ++ le 8 64)
     (dmaBlocks k.bytes (payAt k.bytes 8 8) 0 (payAt k.bytes 16 4 / 64) (startPkt k (hostAt k (fun q => q)))).2.1 = none) := by
  decide +kernel

/-- A directory of one page in one layer-head with one sequence. -/
def dir1 : List Nat := le 2 1 ++ le 2 4095 ++ le 2 8000 ++ le 2 1 ++ le 4 0 ++ le 4 1 ++ le 16 4096

def dirSt1 : DirSt := dirArea (pk 0x205 3 dir1).bytes [0]

/-- DIR_REGISTER and DIR_WITHDRAW. -/
theorem wit_PartitionAreas_dir :
    (let k := pk 0x205 3 dir1
     let s := mapped k (fun q => { q with mask := 1 })
     admits 0x0205 dirResv k s = true ∧ (pget s 3).dir = none ∧
     dirStatus (startPkt k s) 3 (partClus s 3).length (dirArea k.bytes [0]) (headWords k.bytes [0]) = 0) ∧
    (let k := pk 0x206 3 []
     let s := mapped k (fun q => { q with mask := 1, dir := some dirSt1 })
     admits 0x0206 noResv k s = true ∧ (pget (startPkt k s) 3).dir.isSome = true ∧
     launchesOf (startPkt k s) 3 = 0 ∧ (pget (startPkt k s) 3).step = none) := by
  decide +kernel

/-- An attention area of the directory's partition, a pool and its withdrawal. -/
theorem wit_PartitionAreas_att :
    (let k := pk 0x207 3 (le 2 5000 ++ le 2 8191 ++ le 1 4 ++ le 1 0 ++ le 2 64 ++ le 1 7 ++ le 1 1 ++ le 2 1 ++ le 2 1 ++ le 10 0)
     let s := mapped k (fun q => { q with mask := 1, dir := some dirSt1 })
     admits 0x0207 attResv k s = true ∧ (pget s 3).att = none ∧ attStatus (startPkt k s) 3 (attArea (startPkt k s) k.bytes) = 0) ∧
    (let k := pk 0x208 3 (le 4 4 ++ le 4 4 ++ le 8 0 ++ le 8 0)
     let s := hostAt k (fun q => q)
     admits 0x0208 poolResv k s = true ∧ (poolGet (startPkt k s) 3).nslot = 0 ∧
     poolStatus (rset (boundsKey 3 0xC) 100 (startPkt k s)) 3 (poolArea k.bytes) = 0) ∧
    (let k := pk 0x209 3 []
     let s := poolSet 3 { Pool.reset with nslot := 4 } (hostAt k (fun q => q))
     admits 0x0209 noResv k s = true ∧ (poolGet (startPkt k s) 3).nslot ≠ 0 ∧ (poolGet (startPkt k s) 3).used = [] ∧
     admits 0x0209 noResv k (hostAt k (fun q => q)) = true ∧ (poolGet (startPkt k (hostAt k (fun q => q))) 3).nslot = 0) := by
  decide +kernel

/-- Swap areas, a policy with mode 1 and one with mode 2, a key rotation with and without records of the other epoch. -/
theorem wit_PartitionAreas_swap :
    (let k := pk 0x20A 3 (le 8 65536 ++ le 8 4096 ++ le 8 16)
     let s := hostAt k (fun q => q)
     admits 0x020A (fun b => payNZ b 20 4) k s = true ∧ (pget s 3).glz.area = false ∧ payAt k.bytes 0 8 % 65536 = 0 ∧
     payAt k.bytes 8 8 % 4096 = 0) ∧
    (let k := pk 0x20B 3 []
     let s := hostAt k (fun q => { q with glz := { GlzSt.reset with area := true } })
     admits 0x020B noResv k s = true ∧ (pget s 3).glz.area = true ∧ wFld (rget s (glzKey 3 4)) 29 0 = 0 ∧
     wFld (rget s (glzKey 3 8)) 29 0 = 0 ∧ kvMode s 3 ≠ 2) ∧
    (let k := pk 0x309 3 (le 8 0 ++ le 8 (2 ^ 29 + 5 * 2 ^ 14 + 3))
     let s := mapped k (fun q => { q with mask := 1, dir := some dirSt1, glz := { GlzSt.reset with area := true } })
     admits 0x0309 (edResv 0 0x3FFFFFFF) k s = true ∧ (pget s 3).dir.isSome = true ∧ fld (payAt k.bytes 8 8) 29 28 = 2 ∧
     (pget s 3).glz.area = true) ∧
    (let k := pk 0x701 3 []
     let s := hostAt k (fun q => q)
     admits 0x0701 noResv k s = true ∧ wFld (rget s (glzKey 3 8)) 29 0 = 0 ∧
     admits 0x0701 noResv k (rset (glzKey 3 8) 1 s) = true ∧ wFld (rget (rset (glzKey 3 8) 1 s) (glzKey 3 8)) 29 0 ≠ 0) := by
  decide +kernel

/-! ## Steps and directories -/

/-- Whether an edit or read goes through. -/
def goesOk {α : Type} : Except Nat (α × State) → Bool
  | .ok _ => true
  | .error _ => false

/-- Whether an edit or read is refused with a status. -/
def stops {α : Type} (st : Nat) : Except Nat (α × State) → Bool
  | .ok _ => false
  | .error e => e == st

/-- Whether a read delivers an answer that meets a condition. -/
def gives {α : Type} (f : α → State → Bool) : Except Nat (α × State) → Bool
  | .ok v => f v.1 v.2
  | .error _ => false

/-- A directory of one layer-head and two sequences with one frame per column; its pool is blocks 7 to 12. -/
def dirTwo : DirSt :=
  { base := 1, limit := 12, kvFirst := 8191, nlh := 1, seqBase := 0, maxSeq := 2, gen := 0, g1 := { GenSt.empty with made := [7] },
    g2 := GenSt.empty, pend := false, queued := false, pkt1 := none, pkt2 := none, auto := false, first := false,
    rot := [], t2rot := [], layers := [0] }

/-- A block that begins with words of two bytes. -/
def blkOf (l : List Nat) : List Byte := fitBytes 64 (l.flatMap (leBytes 2))

/-- Partition 3 has cluster 0 with `dirTwo`: sequence 0 stands in block 7 with a state and ten tokens, sequence 1 does not exist,
and block 8 is free. -/
def dirAt (k : Pkt) (state : Nat) (f : PartSt → PartSt) : State :=
  csWrite 0 7 (fitBytes 64 (descBytes { seq := 0, state := state, prio := 1, ctx := 10, last := 0, fault := 0 })) (csWrite 0 6 (blkOf [2])
    (csWrite 0 2 (blkOf [7, 7]) (csZeroBlks 0 1 12 (mapped k (fun q => f { q with mask := 1, dir := some dirTwo })))))

/-- A packet of an edit with its two payload words. -/
def ed (op w0 w1 : Nat) : Pkt := pk op 3 (le 8 w0 ++ le 8 w1)

theorem wit_DirectoryEdits_create :
    let k := ed 0x301 1 0
    admits 0x0301 (edResv 0x3FFFFF 0) k (dirAt k 0 (fun q => q)) = true ∧
    (pget (dirAt k 0 (fun q => q)) 3).dir = some dirTwo ∧
    goesOk ((edCreate 3 k.bytes).run (startPkt k (dirAt k 0 (fun q => q)))) = true := by
  decide +kernel

/-- FORK of sequence 0 at position 0 as sequence 1, and of a swapped-out sequence. -/
theorem wit_DirectoryEdits_fork :
    let k := ed 0x302 1 0
    admits 0x0302 (edResv 0xFFFFF003FFFFF 0x3FFFFF) k (dirAt k 0 (fun q => q)) = true ∧
    goesOk ((edFork 3 k.bytes).run (startPkt k (dirAt k 0 (fun q => q)))) = true ∧
    stops 0x0304 ((edFork 3 k.bytes).run (startPkt k (dirAt k 4 (fun q => q)))) = true := by
  decide +kernel

/-- The same directory without layer-heads. -/
def noHeads (q : PartSt) : PartSt := { q with dir := some { dirTwo with base := 2, nlh := 0 } }

/-- RESERVE, TRUNCATE and RELEASE. -/
theorem wit_DirectoryEdits_release :
    admits 0x0303 (edResv 0xFFFFF 0x3FFFFF) (ed 0x303 0 4) (dirAt (ed 0x303 0 4) 0 noHeads) = true ∧
    goesOk ((edReserve 3 (ed 0x303 0 4).bytes).run (dirAt (ed 0x303 0 4) 0 noHeads)) = true ∧
    goesOk ((edTruncate 3 (ed 0x304 0 5).bytes).run (dirAt (ed 0x304 0 5) 0 noHeads)) = true ∧
    goesOk ((edRelease 3 (ed 0x305 0 0).bytes).run (dirAt (ed 0x305 0 0) 0 noHeads)) = true := by
  decide +kernel

/-- SETPRIO and SETHEAD. -/
theorem wit_DirectoryEdits_set :
    (let k := ed 0x306 0 0
     admits 0x0306 (edResv 0x3FFFFF 0) k (dirAt k 0 (fun q => q)) = true ∧
     goesOk ((edSetprio 3 k.bytes).run (startPkt k (dirAt k 0 (fun q => q)))) = true) ∧
    (let k := ed 0x307 0 0
     admits 0x0307 (edResv 0 0x1FFFF) k (dirAt k 0 (fun q => q)) = true ∧
     goesOk ((edSethead 3 k.bytes).run (startPkt k (dirAt k 0 (fun q => q)))) = true) := by
  decide +kernel

/-- TRUNCATE and RELEASE of sequence 0, the same while it is being saved, and TRUNCATE beyond its tokens. -/
theorem wit_DirectoryEdits_stops :
    (let k := ed 0x304 0 5
     admits 0x0304 (edResv 0xFFFFF 0x3FFFFF) k (dirAt k 0 (fun q => q)) = true ∧
     stops 0x0304 ((edTruncate 3 k.bytes).run (startPkt k (dirAt k 1 (fun q => q)))) = true ∧
     stops 0x0107 ((edTruncate 3 (ed 0x304 0 11).bytes).run (startPkt k (dirAt k 0 (fun q => q)))) = true) ∧
    (let k := ed 0x305 0 0
     admits 0x0305 (edResv 0xFFFFF 0) k (dirAt k 0 (fun q => q)) = true ∧
     stops 0x0304 ((edRelease 3 k.bytes).run (startPkt k (dirAt k 2 (fun q => q)))) = true) := by
  decide +kernel

/-- The sequence of a FORK, TRUNCATE or RELEASE is found with its state and its tokens. -/
theorem wit_DirectoryEdits_seq :
    let s := dirAt (ed 0x304 0 5) 4 (fun q => q)
    gives (fun x u => gives (fun v _ => v.1 == 0 && v.2.state == 4 && v.2.ctx == 10) ((needSeq 3 x 0).run u)) ((editCtx 3).run s) = true ∧
    fld (payAt (ed 0x304 0 11).bytes 8 8) 21 0 = 11 ∧ fld (payAt (ed 0x307 0 1).bytes 8 8) 11 0 = 1 := by
  decide +kernel

/-- A COMMIT with none pending, with one pending and with one queued; a switch without and with references that do not match. -/
theorem wit_DirectoryEdits_commit :
    let k := pk 0x308 3 []
    let s := hostAt k (fun q => { q with dir := some dirTwo })
    let t := hostAt k (fun q => { q with dir := some { dirTwo with pend := true, pkt1 := some 6 } })
    let v := hostAt k (fun q => { q with dir := some { dirTwo with pend := true, queued := true, pkt1 := some 6, pkt2 := some 5 } })
    admits 0x0308 noResv k s = true ∧ admits 0x0308 noResv k t = true ∧ admits 0x0308 noResv k v = true ∧
    (pget t 3).step = none ∧ refErrs (retireMigrated 3 (swapFinish 3 (switchGen 3 t))) 3 ≤ refErrs t 3 ∧ (pget t 2).dir = none ∧
    switchDue t 3 = true ∧ switchDue s 3 = false ∧
    switchDue (pupd 3 (fun q => { q with dir := q.dir.map (fun d => { d with first := true }), launches := [7] }) t) 3 = false ∧
    ((pget (switchGen 3 (pupd 3 (fun q => { q with held := [9] }) v)) 3).dir.map (fun d => (d.pend, d.first))) = some (true, true) := by
  decide +kernel

/-- SEQ_QUERY of a sequence that exists and of one that does not. -/
theorem wit_DirectoryEdits_query :
    let k := ed 0x30B 0 0
    let n := ed 0x30B 1 0
    let s := dirAt k 4 (fun q => q)
    let t := dirAt n 4 (fun q => q)
    admits 0x030B (edResv 0xFFFFF 0) k s = true ∧ admits 0x030B (edResv 0xFFFFF 0) n t = true ∧
    gives (fun r _ => r.isSome) ((curDesc 3 0).run (startPkt k s)) = true ∧
    gives (fun r _ => r.isNone) ((curDesc 3 1).run (startPkt n t)) = true := by
  decide +kernel

/-! ## Steps -/

/-- MODEL_LOAD of a partition without cores, and its table. -/
theorem wit_StepsRunAndRetire_load :
    let k := pk 0x204 3 (le 8 (2 ^ 44) ++ le 24 0)
    let s := hostAt k (fun q => q)
    admits 0x0204 (fun b => payNZ b 22 10) k s = true ∧ payAt k.bytes 0 8 % 8 = 0 ∧ (pget s 3).loading = none ∧
    partCores s 3 = [] ∧ payAt k.bytes 8 8 = 0 := by
  decide +kernel

/-- The same of a partition with one core, whose table entry in tier 2 names no program. -/
theorem wit_StepsRunAndRetire_core :
    let k := pk 0x204 3 (le 8 (2 ^ 44) ++ le 24 0)
    let s := { rset (boundsKey 3 0xC) 100 (mapped k (fun q => { q with mask := 1 })) with
      t2 := memWrite [] 0 [0, 0, 0, 0, 1, 0, 0, 0] }
    admits 0x0204 (fun b => payNZ b 22 10) k s = true ∧ partCores s 3 = [0] ∧ (cget s 0).halted = true ∧
    (match (pktTable (pktWho k.bytes) (payAt k.bytes 0 8) 8 (partCores s 3).length (startPkt k s)).1 with
      | .ok l => l == [[0, 0, 0, 0, 1, 0, 0, 0]]
      | .error _ => false) = true ∧ imagesOf [0] [[0, 0, 0, 0, 1, 0, 0, 0]] = [] := by
  decide +kernel

/-- A model without cores. -/
def model0 : ModelSt := { handle := 0, cores := [], weights := [] }

/-- A running step of packet 7. -/
def step7 (phase : Nat) : StepSt :=
  { pkt := 7, phase := phase, status := 0, detail := 0, start := 0, buf := [], left := 0, table := [], faults := [0], segs := [],
    waits := [] }

/-- STEP_LAUNCH with no, a pending and a queued COMMIT; STEP_CANCEL with a running and with an ending step. -/
theorem wit_StepsRunAndRetire_launch :
    let k := pk 0x401 3 (le 32 0)
    let d : DirSt := { dirTwo with pend := true }
    let s := hostAt k (fun q => { q with model := some model0 })
    let t := hostAt k (fun q => { q with model := some model0, dir := some d })
    let u := hostAt k (fun q => { q with model := some model0, dir := some { d with queued := true } })
    let r := fun b => payAt b 8 4 / 2 ^ 16 != 0
    let c := pk 0x402 3 []
    admits 0x0401 r k s = true ∧ admits 0x0401 r k t = true ∧ admits 0x0401 r k u = true ∧ (pget s 3).model.isSome = true ∧
    payAt k.bytes 0 8 % 8 = 0 ∧ payAt k.bytes 16 8 % 8 = 0 ∧ d.queued = false ∧
    admits 0x0402 noResv c (hostAt c (fun q => { q with step := some (step7 1) })) = true ∧
    admits 0x0402 noResv c (hostAt c (fun q => { q with step := some (step7 2) })) = true := by
  decide +kernel

/-- A launch that can start; one held up by a pending COMMIT; a step's limit; a step with halted cores. -/
theorem wit_StepsRunAndRetire_run :
    let k := { pk 0x401 3 (le 32 0) with started := true }
    let l := { pk 0x401 3 (le 12 0 ++ le 20 9) with started := true }
    let s := hostAt k (fun q => { q with model := some model0, launches := [7] })
    let h := hostAt l (fun q => { q with model := some { model0 with cores := [5] }, step := some (step7 1) })
    (pget s 3).step = none ∧ (pget s 3).dir = none ∧ s.fatal = false ∧ nsHas s.d3 0 = false ∧ nsHas s.d3 4 = false ∧
    (pget s 3).launches = [7] ∧ mayStart s 3 = true ∧ findPkt s 7 = some k ∧ (pget s 3).model.isSome = true ∧
    (pget h 3).step = some (step7 1) ∧ findPkt h (step7 1).pkt = some l ∧ payAt l.bytes 12 4 ≠ 0 ∧ payAt k.bytes 12 4 = 0 ∧
    (∀ c ∈ modelCores h 3, (cget h c).halted = true ∧ (sq h c).startPend = false) := by
  decide +kernel

/-- Two layer-heads of layer 1 in the one shard, after one of layer 0: the second of layer 1 has rank 1, and its LOAD of group 0 of two
takes slot 1 · 4 + 1 · 2 of parity 1 (R220 with QSLOTS 4). -/
theorem test_slot_of_rank :
    let d : DirSt := { dirTwo with nlh := 3, layers := [1, 0, 1] }
    let a : AttSt := { base := 20, limit := 100, seglog := 4, itemblk := 16, qph := 1, qslots := 4, appblk := 1, qframe := 8, qcols := [],
                       itemPos := [], inRing := [] }
    let h : HeadEnt := headEnt 0
    let c : ScriptCtx := { att := a, h := h, lh := 2, layer := 1, rank := 1, nq := [1, 1] }
    layersOf d = [0, 1] ∧ layerHeads d 1 = [0, 2] ∧
    fld (loadSeg c { clu := 0, stop := 0, pos := 0, col := 0 } 0).word 21 0 = rowOff 0 (11 * 16) / 256 := by
  decide +kernel

/-- TABORT on a core that computes for a running step, beside another core of the model. -/
theorem wit_StepsRunAndRetire_abort :
    let s : State := { seqAt (ins 0x04 0) 0 with
      map := { tw := [(0, 1)], cl := [(0, 1)], core := [(0, 1), (1, 2)] }
      parts := [(0, { PartSt.reset with state := 1, mask := 1, model := some { model0 with cores := [0, 1] }, step := some (step7 1) })] }
    issuesB 0 0x04 [0] (ins 0x04 0) s = true ∧ stepOf (fetched 0 s) 0 = some 0 ∧ (pget (fetched 0 s) 0).step = some (step7 1) := by
  decide +kernel

/-- TABORT ends the step with 0x0309: core 1 of the partition's list has index 1. -/
theorem test_abort_ends_step :
    let s : State := { cupd 1 (fun k => { k with halted := false, seq := { k.seq with run := true } }) State.reset with
      map := { tw := [(0, 1)], cl := [(0, 1)], core := [(0, 1), (1, 2)] }
      parts := [(0, { PartSt.reset with state := 1, mask := 1, model := some { model0 with cores := [0, 1] }, step := some (step7 1) })] }
    ((pget (abortCore 1 s) 0).step.map (fun st => (st.phase, st.status, st.detail))) = some (2, 0x0309, 1) ∧
    (sq (abortCore 1 s) 1).stop = 3 ∧ stepOf (abortCore 1 s) 1 = none := by
  decide +kernel

/-- A segment of no items whose stop's ring has room. -/
theorem wit_StepsRunAndRetire_walk :
    let a : AttSt := { base := 20, limit := 100, seglog := 4, itemblk := 16, qph := 1, qslots := 1, appblk := 1, qframe := 1, qcols := [],
                        itemPos := [], inRing := [] }
    let g : WalkSeg := { clu := 0, stop := 31, word := 0, items := [], work := [0], lh := 0 }
    let st : StepSt := { step7 1 with segs := [g] }
    let s := csZeroBlks 0 20 80 (hostAt (pk 1 3 []) (fun q => { q with step := some st, att := some a }))
    (pget s 3).step = some st ∧ (pget s 3).att = some a ∧ st.segs.find? (fun g => g.clu == 0 && g.stop == 31) = some g ∧
    st.phase = 1 ∧ walkTurn st g = true ∧ walkTurn { st with segs := [{ g with stop := 0, lh := 1 }, g] } g = false ∧
    st.segs ≠ [] ∧ goesOk ((walkWrite 3 a st g).run s) = true ∧ (3 : Nat) < 2 ^ 32 ∧ (255 : Nat) < 256 := by
  decide +kernel

/-! ## Swapping -/

/-- A swap-in of a swapped-out sequence that no page remains of, one of a sequence that stands, and one that waits. -/
theorem wit_SwapMoves_in :
    let k := ed 0x30A 0 0
    let s := dirAt k 4 noHeads
    let b := hostAt k (fun q => { q with rekey := some { seq := 0, lh := 0, blk := 0, half := 0, entry := 0, record := [], image := [] } })
    admits 0x030A (edResv 0xFFFFF 0) k s = true ∧ (pget s 3).swap = none ∧ (pget s 3).rekey = none ∧
    gives (fun _ u => (pget u 3).swap.isSome) ((swapAdmit 3 k.id 0).run (startPkt k s)) = true ∧
    stops 0x0304 ((swapAdmit 3 k.id 0).run (startPkt k (dirAt k 0 noHeads))) = true ∧
    startable b 0 0x030A = some k ∧ (pget b 3).rekey.isSome = true := by
  decide +kernel

/-- A partition that preempts with mode 1, its first victim, and one whose clusters have enough free frames. -/
theorem wit_SwapMoves_victim :
    let s := kvAll 3 0x118 (fun _ => 0x40004001) (dirAt (ed 0x30A 0 0) 0 noHeads)
    let e := hostAt (pk 1 3 []) (fun q => { q with preempt := true })
    kvMode s 3 = 1 ∧ (pget s 3).dir.isSome = true ∧ freeAll s 3 (kvLow s 3) = false ∧ freeAll s 3 (kvHigh s 3) = false ∧
    gives (fun l _ => l.length == 1 && l.all (fun e => e.2.state != 3) &&
      (firstVictim (l.filter (fun e => e.2.state == 0 && decide (e.2.prio < 3)))).isSome) ((liveSeqs 3).run s) = true ∧
    freeAll e 3 (kvHigh e 3) = true ∧
    freeAll (kvAll 3 0x110 (fun _ => 0x40000) (pupd 3 (fun q => { q with preempt := true }) s)) 3 (kvHigh s 3) = true := by
  decide +kernel

/-- A page of a sequence that is not being saved: nothing moves; the same while a COMMIT is queued. -/
theorem wit_SwapMoves_page :
    let s := dirAt (ed 0x30A 0 0) 0 (fun q => q)
    let t := dirAt (ed 0x30A 0 0) 0 (fun q => { q with dir := some { dirTwo with pend := true, queued := true } })
    goesOk ((movePage 3 0 0 0).run s) = true ∧ gives (fun x _ => x.d.queued) ((editCtx 3).run t) = true ∧
    stops 0 ((movePage 3 0 0 0).run t) = true := by
  decide +kernel

/-- Slots of a host area and of a pool, for a page and for a pair; the earliest of sequences as a victim. -/
theorem wit_SwapMoves_slot :
    let g : GlzSt := { GlzSt.reset with area := true, nhs := 4, used := [0] }
    let q : Pool := { Pool.reset with slot0 := 4, nslot := 16, used := [5] }
    let v : Desc := { seq := 9, state := 0, prio := 1, ctx := 0, last := 3, fault := 0 }
    hostSlot g false = some 1 ∧ hostSlot g true = some 2 ∧ hubSlot q 1 false = some 9 ∧ hubSlot q 3 true = some 11 ∧
    q.slot0 % 4 = 0 ∧ firstVictim [(1, { v with last := 4 }), (2, v), (3, { v with prio := 2 })] = some (2, v) := by
  decide +kernel

/-- A re-key sweep with nothing left, and one that meets a host page of the epoch before. -/
theorem wit_SwapMoves_rekey :
    let e := mkPte false 3 0 64 0 (2 ^ 31 + 5)
    let b : List Nat := (List.range 4).map (fun i => e / 65536 ^ i % 65536)
    let s := rset (glzKey 3 8) 1 (csWrite 0 11 (blkOf b) (csWrite 0 10 (blkOf [11]) (csWrite 0 9 (blkOf [10])
      (csWriteIn 0 7 16 [9, 0] (dirAt (ed 0x30A 0 0) 0 (fun q => { q with glz := { GlzSt.reset with area := true, sweep := true } }))))))
    let d := hostAt (pk 1 3 []) (fun q => { q with glz := { GlzSt.reset with sweep := true } })
    (pget d 3).glz.sweep = true ∧ (pget d 3).rekey = none ∧ wFld (rget d (glzKey 3 8)) 29 0 = 0 ∧
    (pget s 3).glz.sweep = true ∧ (pget s 3).rekey = none ∧ wFld (rget s (glzKey 3 8)) 29 0 ≠ 0 ∧
    gives (fun x u => gives (fun v u => v.2.state != 5 && gives (fun e u => pteValid e && pteTier e == 2 &&
      pteEpoch e == (glzEpoch u 3 + 3) % 4) ((getBld 3 v.1 x 0 0).run u)) ((needSeq 3 x 0).run u)) ((editCtx 3).run s) = true := by
  decide +kernel

/-! ## The network and tier 2 -/

/-- A transaction of core 0 to tier-2 address 0. -/
def tx (id st entry : Nat) : NetTx :=
  { id := id, port := 0, part := 64, addr := 2 ^ 44, len := 8, write := false, atom := none, data := zeros 8, cls := 0, weight := 1
    born := 0, st := st, slot := 1, entry := entry, key := 30000, off := 0, out := [0, 256], back := [256, 0], esc := false, mask := 1
    ans := 0, status := 0, resp := some [], poison := false }

/-- The device with transactions. -/
def netAt (l : List NetTx) : State := { up with net := { up.net with txs := l, nextId := 9 } }

/-- A request with data, an atomic, one that arrives with and without room, a reissue, a lapse and a response. -/
theorem wit_NetworkTransactions :
    let full := netAt (tx 3 1 0 :: (List.range 192).map (fun i => tx (10 + i) 2 2) ++ [{ tx 4 2 1 with id := 300 }, { tx 4 2 1 with id := 301 }])
    atomicBytes .add64 = 8 ∧ (8 : Nat) ≤ 256 ∧ (2 ^ 44 : Nat) % 8 = 0 ∧ txFind (netAt [tx 3 1 0]) 3 = some (tx 3 1 0) ∧
    admEntry (netAt [tx 3 1 0]) (tx 3 1 0) false ≠ 0 ∧
    ({ tx 3 2 2 with poison := true } : NetTx).poison = true ∧ txFind full 3 = some (tx 3 1 0) ∧ admEntry full (tx 3 1 0) false = 0 ∧
    txFind (netAt [tx 3 5 2]) 3 = some (tx 3 5 2) ∧ txFind (netAt [tx 3 3 0]) 3 = some (tx 3 3 0) ∧
    txFind (netAt [tx 3 6 0]) 3 = some (tx 3 6 0) ∧ up.boot.brgDue = [] ∧ respNext (netAt [tx 3 6 0]) (tx 3 6 0) = true ∧
    respNext (netAt [{ tx 2 6 0 with ans := 1 }, { tx 3 6 0 with ans := 2 }]) { tx 3 6 0 with ans := 2 } = false ∧
    resvOf (setResv 30000 [5, 3] (netAt [tx 3 4 0])) 30000 = [5, 3] ∧ txFind (setResv 30000 [5, 3] (netAt [tx 3 4 0])) 3 = some (tx 3 4 0) := by
  decide +kernel

/-- A waiting request that its interface sends and one that it refuses, seen from a port outside every partition. -/
theorem wit_NetworkTransactions_send :
    let t : NetTx := { tx 3 0 0 with port := 4384, slot := 0 }
    let b : NetTx := { t with addr := 2 ^ 44 + 2 ^ 41 }
    txFind (netAt [t]) 3 = some t ∧ netRefusal (netAt [t]) 4384 none (2 ^ 44) 8 false = none ∧
    admAt (netAt [t]) 4384 (2 ^ 44) = some (30000, 0) ∧ slotFor (netAt [t]) 4384 ≠ 0 ∧
    netRoutes (netAt [t]) (portNode 4384) (admNode 30000) = some ([256], [256], false) ∧
    crossesLost (netAt [t]) [256, 256] = false ∧ txFind (netAt [b]) 3 = some b ∧
    netRefusal (netAt [b]) 4384 none (2 ^ 44 + 2 ^ 41) 8 false = some (0x0401, 5) := by
  decide +kernel

/-- A request that a bank serves, a reservation that is granted, a map change in progress, and a core's slot limits. -/
theorem wit_NetworkTransactions_grant :
    let c : NetTx := { tx 3 2 2 with key := 10000 }
    let g : State := setResv 30000 [3] (netAt [tx 3 4 0])
    let o : State := { up with net := { up.net with oldMaps := [up.map] } }
    nextServed (netTick 5 (netAt [c])) 10000 = some c ∧ resvOf (netTick 5 (netAt [c])) 10000 = [] ∧
    nextServed (netTick 5 g) 30000 = none ∧ grantPick (netTick 5 g) 30000 = some (tx 3 4 0) ∧
    txFind (netTick 5 g) 3 = some (tx 3 4 0) ∧ entryFor (netTick 5 g) (tx 3 4 0) 30000 false ≠ 0 ∧
    commitsTaken o 4408 < o.net.oldMaps.length ∧ (stSet (fun _ => 0) o.net.moved 4408 1).length ≠ 4409 ∧
    up.net.oldMaps.length ≤ commitsTaken up 4408 ∧
    txAge (netTick 40 up) (tx 1 4 0) = txAge (netTick 40 up) { tx 2 4 0 with born := 5 } ∧
    (tx 1 4 0).weight < ({ tx 2 4 0 with weight := 3 } : NetTx).weight ∧
    cluLocked up 0 = false ∧ cluLocked up 255 = false := by
  decide +kernel

/-- The oldest request of an open row, with its bank free and busy, and the package's hub in place. -/
theorem wit_TierTwoScheduler :
    let r (i off : Nat) (d : Option (List Byte)) : T2Req := { id := i, off := off, len := 8, data := d }
    let p : T2Pair := { T2Pair.reset with queue := [r 1 0 none, r 2 64 (some (zeros 8))], row := some (t2Unit 64) }
    let s := pairSet 47 p up
    (t2Cands (pairGet s 47)).find? (fun e => !(1 : BitVec 16).getLsbD e.1) = some (1, r 2 64 (some (zeros 8))) ∧
    (t2Cands (pairGet s 47)).find? (fun e => !(0 : BitVec 16).getLsbD e.1) = some (0, r 1 0 none) ∧
    (t2Cands (pairGet s 47)).find? (fun e => !(3 : BitVec 16).getLsbD e.1) = none ∧ t2Unit 0 = t2Unit 64 ∧
    quarterAbsent s 3 = false ∧ hubAbsent s 3 = false ∧ t2Due (pairGet s 47) = false ∧
    (txFind s 2).any (fun x => x.poison) = false ∧
    (pairGet (pairSet (t2Key 0) { T2Pair.reset with link := 2 } up) (t2Key 0)).link = 2 := by
  decide +kernel

/-! ## Maintenance and lost dies -/

/-- A maintenance activity. -/
def job (handle state : Nat) : MntJob :=
  { handle := handle, hub := 0, kind := 1, start := 0, extent := 4, pos := 0, faults := 0, state := state }

/-- The device with an activity and a packet. -/
def mntAt (k : Pkt) (l : List MntJob) : State := { hostAt k (fun q => q) with mnt := { up.mnt with jobs := l } }

/-- MNT_START of the last two units of kind 2 and of units of kind 5, unknown and reserved kinds; MNT_STOP, MNT_QUERY and LOG_ACK. -/
theorem wit_MaintenanceCommands :
    (let k := pk 0x501 0xFFFF (le 8 2 ++ le 8 (402653184 - 2) ++ le 8 2)
     let s := mntAt k [job 5 1]
     admits 0x0501 (fun b => payNZ b 2 6) k s = true ∧ payAt k.bytes 8 8 + 2 ≤ mntUnits 2 ∧ payAt k.bytes 8 8 % 4 + 2 ≤ 4 ∧
     (∀ i, i < 2 → mntHub (startPkt k s) 2 (payAt k.bytes 8 8 + i) = mntHub (startPkt k s) 2 (payAt k.bytes 8 8)) ∧
     jobsMeet 2 (payAt k.bytes 8 8) (payAt k.bytes 8 8 + 2 - 1) 1 0 3 = false) ∧
    (let k := pk 0x501 0xFFFF (le 8 5 ++ le 8 0 ++ le 8 4)
     admits 0x0501 (fun b => payNZ b 2 6) k (mntAt k []) = true ∧
     ∀ i, i < 4 → unitBusy (startPkt k (mntAt k [])) 5 i = false ∧ mntHub (startPkt k (mntAt k [])) 5 i = 0) ∧
    admits 0x0501 (fun b => payNZ b 2 6) (pk 0x501 0xFFFF (le 24 14)) (mntAt (pk 0x501 0xFFFF (le 24 14)) []) = true ∧
    admits 0x0501 (fun b => payNZ b 2 6) (pk 0x501 0xFFFF (le 24 13)) (mntAt (pk 0x501 0xFFFF (le 24 13)) []) = true ∧
    (let k := pk 0x502 0xFFFF (le 8 (2 ^ 24 + 1))
     let d := pk 0x502 0xFFFF (le 8 (2 ^ 24))
     admits 0x0502 (fun b => payNZ b 4 4) k (mntAt k [job (2 ^ 24 + 1) 1]) = true ∧ deviceHandle (payAt k.bytes 0 4) = false ∧
     (job (2 ^ 24 + 1) 1).handle = payAt k.bytes 0 4 ∧ admits 0x0502 (fun b => payNZ b 4 4) k (mntAt k []) = true ∧
     admits 0x0502 (fun b => payNZ b 4 4) d (mntAt d []) = true ∧ deviceHandle (payAt d.bytes 0 4) = true) ∧
    (let k := pk 0x503 0xFFFF (le 8 (2 ^ 24 + 1))
     let d := pk 0x503 0xFFFF (le 8 (13 * 2 ^ 24))
     admits 0x0503 (fun b => payNZ b 4 4) k (mntAt k [job (2 ^ 24 + 1) 1]) = true ∧ deviceHandle (payAt k.bytes 0 4) = false ∧
     (mntAt k [job (2 ^ 24 + 1) 1]).mnt.jobs.find? (fun j => j.handle == payAt k.bytes 0 4) = some (job (2 ^ 24 + 1) 1) ∧
     admits 0x0503 (fun b => payNZ b 4 4) d (mntAt d []) = true ∧ deviceHandle (payAt d.bytes 0 4) = true) ∧
    (let k := pk 0x506 0xFFFF (le 8 3)
     admits 0x0506 (fun b => payAt b 0 1 / 4 != 0 || payNZ b 1 3) k (hostAt k (fun q => q)) = true ∧
     hubAbsent (startPkt k (hostAt k (fun q => q))) 3 = false ∧
     admits 0x0506 (fun b => payAt b 0 1 / 4 != 0 || payNZ b 1 3) k (hset 3 { hget up 3 with lost := true } (hostAt k (fun q => q))) = true ∧
     hubAbsent (startPkt k (hset 3 { hget up 3 with lost := true } (hostAt k (fun q => q)))) 3 = true) ∧
    mntDefault (wFld (rget (rset (hubBase 3 + 0x60000) 8 up) (hubBase 3 + 0x60000)) 5 0) ≠ 0 ∧ mntDefault 1 ≠ 0 := by
  decide +kernel

/-- Columns, ports and bridges that can be tested: none retrains or is retired, the ports are up and every bridge is. -/
theorem wit_MaintenanceSteps :
    let b : State := { up with boot := { up.boot with brgUp := List.range 1056 }, map := { tw := (List.range 16).map (fun n => (n, n + 1)), cl := [], core := [] } }
    dieOn up (8703 / 544) = true ∧ (colget up 8703).retraining = false ∧ (colget up 8703).state ≠ 2 ∧
    (colget (colupd 8703 (fun u => { u with retraining := true }) up) 8703).retraining = true ∧
    (colget (colupd 8703 (fun u => { u with state := 2 }) up) 8703).state = 2 ∧ zeroMeets up 8703 32767 = false ∧
    quarterAbsent up (t2Hub (4096 * 402653183)) = false ∧ hubPaused up (t2Hub (4096 * 402653183)) = false ∧
    dieOn up (coreTower 4351) = true ∧ portState (rset (fportKey 15 0) (3 * 2 ^ 29) up) 15 = 3 ∧
    carriesTree (rset (fportKey 15 0) (3 * 2 ^ 29) up) 15 = false ∧ edgeUp b (87 / 2) = true ∧ nsHas b.boot.brgTrain 87 = false ∧
    bridgeMay b 87 = true ∧ chHere up 1059 = true ∧ colReady up 8703 = true ∧ mntSlot up 8703 16 = true ∧ deadLanes up 8703 = [] ∧
    mntSlot (colupd 8703 (fun u => { u with queue := [RowReq.none], mntGap := 60 }) up) 8703 4 = true ∧
    mntSlot (colupd 8703 (fun u => { u with queue := [RowReq.none], mntGap := 59 }) up) 8703 4 = false := by
  decide +kernel

/-- Spans that partitions do and do not zero, a pair that does and does not let maintenance in, a bridge that may not retrain. -/
theorem wit_MaintenanceSteps_slots :
    let z : ZeroSpan := { tier2 := false, col := 8703, lo := 5, hi := 7 }
    let busy := pairSet (t2Key 0) { T2Pair.reset with queue := [{ id := 1, off := 0, len := 8, data := none }] } up
    let b : State := { up with boot := { up.boot with brgUp := (List.range 24).map (fun i => 12 * 22 + i) } }
    spanHolds (hostAt (pk 1 3 []) (fun q => { q with zeroLeft := [z] })) 8703 6 = true ∧ spanHolds up 8703 32767 = false ∧
    t2Slot up 0 128 = true ∧ t2Slot busy 0 128 = false ∧ (pairGet up (t2Key 0)).link ≠ 2 ∧ (cget up 4351).unified = false ∧
    edgeUp b 11 = true ∧ nsHas b.boot.brgDue 22 = false ∧ bridgeMay b 22 = false := by
  decide +kernel

/-- A scratchpad block whose role a slot maps and whose group is powered. -/
theorem wit_MaintenanceSteps_sp :
    let s := corSet 4351 0x20 0xFFF0000 (corSet 4351 0x10 7 up)
    hasSlot s 4351 (spTestMem 0) 7 = true ∧ groupOn s 4351 (spTestMem 0) (0 - memFirst (spTestMem 0)) = true ∧
    hasSlot s 4351 (spTestMem 6143) 7 = false := by
  decide +kernel

/-- What partition zeroing still has to do, and a frame that waits for it. -/
theorem wit_MaintenanceSteps_zero :
    let z : ZeroSpan := { tier2 := true, col := 0, lo := 5, hi := 7 }
    let s := hostAt (pk 1 3 []) (fun q => { q with zeroLeft := [z] })
    findIdx? (spanReady s) (pget s 3).zeroLeft = some 0 ∧ (pget s 3).zeroLeft[0]? = some z ∧ z.lo < z.hi ∧
    stGet (fun _ => []) ({ up with zeroQ := [(255, [8703 * 8192 + 8191])] } : State).zeroQ 255 = [8703 * 8192 + 8191] ∧
    colReady up ((8703 * 8192 + 8191) / 8192) = true := by
  decide +kernel

/-- A tower of the map, hubs in place and absent, HUB_RESET, a hub that waits for its rejoin, and DIE_REJOIN. -/
theorem wit_DieLoss :
    dieOn (mapped (pk 1 3 []) (fun q => q)) 0 = true ∧ (twLog (mapped (pk 1 3 []) (fun q => q)) 0).isSome = true ∧
    hubAbsent up 0 = false ∧ hubAbsent up 3 = false ∧
    (let r := fun b => payAt b 0 1 / 4 != 0 || payNZ b 1 7
     admits 0x0505 r (pk 0x505 0xFFFF (le 8 3)) (hostAt (pk 0x505 0xFFFF (le 8 3)) (fun q => q)) = true ∧
     admits 0x0505 r (pk 0x505 0xFFFF (le 8 0)) (hostAt (pk 0x505 0xFFFF (le 8 0)) (fun q => q)) = true) ∧
    (let s := hset 3 { hget up 3 with lost := true, pkts := [7, 9], kept := true } up
     hubAbsent s 3 = true ∧ (hget s 3).pkts ≠ [] ∧ nsHas s.pwr.rails 3 = true ∧ (hget s 3).kept = true) ∧
    (let k := pk 0x504 0xFFFF (le 8 0)
     let r := fun b => payAt b 0 1 / 16 != 0 || payNZ b 1 7
     admits 0x0504 r k (mapped k (fun q => q)) = true ∧ (twLog (mapped k (fun q => q)) 0).isSome = true ∧
     admits 0x0504 r k (hostAt k (fun q => q)) = true ∧ twLog (hostAt k (fun q => q)) 0 = none) := by
  decide +kernel

/-! ## Counters, telemetry and security -/

/-- What COUNTER_CFG's fields name in a state: the counter, or 100 000 more than the status that refuses it. -/
def cfgNames (k : Pkt) : Nat :=
  match cfgCheck (startPkt k (hostAt k (fun q => q))) 0 k.bytes with
  | .ok c => c
  | .error st => 100000 + st

/-- COUNTER_CFG of the first counter of hub 3 with an event and with none, and of a hub that does not exist. -/
theorem wit_CountersAndTelemetry_cfg :
    let r := fun b => payNZ b 3 1 || fld (payAt b 8 4) 29 20 != 0 || fld (payAt b 8 4) 15 12 != 0 || fld (payAt b 8 4) 7 0 != 0
    let k := pk 0x603 0xFFFF (le 2 0x2003 ++ le 2 0 ++ le 4 0x530 ++ le 8 0)
    let b := pk 0x603 0xFFFF (le 2 0x2004 ++ le 2 0 ++ le 4 0 ++ le 8 0)
    admits 0x0603 r k (hostAt k (fun q => q)) = true ∧ admits 0x0603 r b (hostAt b (fun q => q)) = true ∧
    cfgNames k = 39008 ∧ cfgEvt k.bytes ≠ 0 ∧ cfgEvt b.bytes = 0 ∧ cfgNames b = 100000 + 0x0107 := by
  decide +kernel

/-- FW_STAGE of an image whose SVN is below the fuse; LIFECYCLE without and with an authorisation; ATTEST_GET. -/
theorem wit_SecurityCommands :
    (let k := pk 0x702 0xFFFF (le 8 0 ++ le 4 4097 ++ le 1 15 ++ le 11 0)
     let img : List Byte := (zeros 4097).set 8 1
     let s := hostAt k (fun q => q)
     admits 0x0702 (fun b => payAt b 12 1 / 16 != 0 || payNZ b 13 11) k { s with sec := { s.sec with svnFuse := 1 } } = true ∧
     img.length = payAt k.bytes 8 4 ∧ payAt k.bytes 8 4 = 4096 + leAt img 8 4 ∧ leAt img 12 1 % 64 < 1) ∧
    (let k := pk 0x703 0xFFFF (le 1 3 ++ le 23 0)
     let s := hostAt k (fun q => { q with state := 0 })
     let t := { s with sec := { s.sec with lcFuse := 2 } }
     admits 0x0703 (fun b => payNZ b 1 7 || payNZ b 20 4) k t = true ∧ t.sec.tampering = false ∧
     lifecycleStatus (startPkt k t) k.bytes [] = 0 ∧ lifecycleStatus (startPkt k s) k.bytes [] = 0x0403 ∧
     (∀ e ∈ t.parts, e.2.state = 0) ∧ lcChange s.sec.lcFuse (payAt k.bytes 0 1) = none ∧ lcChange 1 2 = some true) ∧
    (let k := pk 0x704 0xFFFF (le 8 4096 ++ le 8 3072)
     let l := pk 0x704 0xFFFF (le 8 4096 ++ le 8 3071)
     let s := hostAt k (fun q => q)
     let t := hostAt l (fun q => q)
     admits 0x0704 (fun b => payNZ b 12 4) k s = true ∧ s.sec.ids = false ∧
     admits 0x0704 (fun b => payNZ b 12 4) k { s with sec := { s.sec with ids := true } } = true ∧
     admits 0x0704 (fun b => payNZ b 12 4) l { t with sec := { t.sec with ids := true } } = true ∧ payAt l.bytes 8 4 < 3072) := by
  decide +kernel

/-- The mailbox answers; before GET_VERSION nothing else is in order; every later condition can hold. -/
theorem wit_SpdmRequests :
    let a : SecSt := { up.sec with version := true, caps := true, algs := true, ids := true, falcon := true,
                                   sessions := [{ id := 4, done := false, keys := 0 }, { id := 5, done := true, keys := 0 }] }
    doeOn up = true ∧ up.sec.version = false ∧ a.version = true ∧ a.caps = true ∧ a.algs = true ∧ a.ids = true ∧ a.falcon = true ∧
    a.sessions.length < 4 ∧ (∃ x ∈ a.sessions, x.id = 4 ∧ x.done = false) ∧ (∃ x ∈ a.sessions, x.id = 5 ∧ x.done = true) := by
  decide +kernel

/-- A partition that can be locked, started and stopped, one in ERROR, a stream that is up, and a device that is tampered with. -/
theorem wit_InterfacesAndTamper :
    let s (f : PartSt → PartSt) := hostAt (pk 1 3 []) f
    let q := pget (s (fun q => { q with conf := true, ide := true })) 3
    doeOn up = true ∧ q.conf = true ∧ q.state = 1 ∧ q.tdi = 0 ∧ q.step = none ∧ launchesOf (s (fun q => q)) 3 = 0 ∧ q.ide = true ∧
    (pget (s (fun q => { q with tdi := 1 })) 3).tdi = 1 ∧
    (let e := pget (s (fun q => { q with tdi := 3, state := 4 })) 3
     e.tdi = 3 ∧ e.zeroLeft = [] ∧ e.state = 4) ∧
    streamUp (s (fun q => { q with tdi := 2, ide := true })) 4 = true ∧
    (pget (s (fun q => { q with tdi := 2, ide := true })) 3).stopReq = false ∧ up.pwr.vaux = true ∧ nsHas up.pwr.rails 0 = true ∧
    ({ up with sec := { up.sec with tampering := true } } : State).sec.tampering = true := by
  decide +kernel

/-! ## The fabric -/

/-- The device with port 15 in a state and two lanes good each way over UCIe. -/
def portAt (st : Nat) (s : State) : State := rset (fportKey 15 0) (BitVec.ofNat 32 (st * 2 ^ 29 + 3 * 2 ^ 27 + 0xFF * 2 ^ 11)) s

/-- The device with a packet of a fabric command. -/
def fabAt (k : Pkt) (st : Nat) : State := portAt st (hostAt k (fun q => q))

/-- FAB_PORT with each action, FAB_ROLE, FAB_ROUTE and FAB_QUERY, and those that are refused. -/
theorem wit_FabricCommands :
    (let r := fun b => payAt b 0 1 / 64 != 0 || payNZ b 1 7
     let k (a : Nat) := pk 0x801 0xFFFF (le 8 (16 * a + 15))
     admits 0x0801 r (k 0) (fabAt (k 0) 3) = true ∧ admits 0x0801 r (k 1) (fabAt (k 1) 0) = true ∧
     admits 0x0801 r (k 2) (fabAt (k 2) 3) = true ∧ admits 0x0801 r (k 3) (fabAt (k 3) 3) = true ∧
     (∀ a : Fin 4, payAt (k a).bytes 0 1 / 16 = a ∧ payAt (k a).bytes 0 1 % 16 = 15) ∧ hubAbsent (fabAt (k 2) 3) 3 = false ∧
     portState (fabAt (k 2) 3) 15 = 3 ∧ carriesTree (fabAt (k 2) 3) 15 = false ∧ portState (fabAt (k 1) 0) 15 = 0 ∧
     nsHas up.boot.oeHeld 15 = false ∧ (∀ e ∈ up.map.cl, e.1 < 256)) ∧
    (let r := fun b => payAt b 0 8 / 2 ^ 22 != 0 || payAt b 8 8 / 2 ^ 22 != 0
     let k := pk 0x802 0xFFFF (le 8 (2 ^ 20 + 2 ^ 18 + 5) ++ le 8 (3 * 2 ^ 18 + 4))
     let b := pk 0x802 0xFFFF (le 8 (2 ^ 19) ++ le 8 0)
     let a := payAt k.bytes 0 8
     admits 0x0802 r k (fabAt k 3) = true ∧ fld a 19 18 < 2 ∧ fld a 19 18 ≠ 0 ∧ fld a 21 20 ≠ 0 ∧
     fld (payAt k.bytes 8 8) 17 0 ≠ fld a 17 0 ∧ admits 0x0802 r b (fabAt b 3) = true ∧ 2 ≤ fld (payAt b.bytes 0 8) 19 18) ∧
    (let k := pk 0x803 0xFFFF (le 2 1 ++ le 14 1023 ++ le 8 (2 ^ 25))
     let b := pk 0x803 0xFFFF (le 2 2 ++ le 14 1023 ++ le 16 0)
     admits 0x0803 routeResvAny k (fabAt k 3) = true ∧ payAt k.bytes 0 2 = 1 ∧ payAt k.bytes 2 2 + 1 ≤ 1024 ∧
     fld (payAt k.bytes 16 8) 25 19 ≤ 64 ∧ admits 0x0803 routeResvAny b (fabAt b 3) = true ∧
     1024 < payAt b.bytes 2 2 + payAt b.bytes 0 2) ∧
    (let k := pk 0x804 0xFFFF (le 8 15)
     admits 0x0804 (fun b => payAt b 0 1 / 16 != 0 || payNZ b 1 7) k (fabAt k 3) = true ∧
     hubAbsent (startPkt k (fabAt k 3)) (payAt k.bytes 0 1 / 4) = false) := by
  decide +kernel

/-- A flit whose header byte is `b0`, of payload length 4 · 8 and sequence number `n`. -/
def flit (b0 n : Nat) : List Byte :=
  let b := (([b0, 4] ++ List.replicate 246 0 ++ [n % 256, n / 256, 0, 0]).map (BitVec.ofNat 8))
  b ++ leBytes 4 (crc32c b)

/-- A flit in order that is a whole message, one out of order, and one whose CRC does not match. -/
theorem wit_FabricLink :
    let s := portAt 3 up
    portState s 15 = 3 ∧ (flit 3 0).length = 256 ∧ crc32c ((flit 3 0).take 252) = leAt (flit 3 0) 252 4 ∧
    fld (leAt (flit 3 0) 0 1) 1 0 = 3 ∧ leAt (flit 3 0) 248 2 % 4096 = ((fport s 15).rxSeq + 1) % 4096 ∧
    crc32c ((flit 3 5).take 252) = leAt (flit 3 5) 252 4 ∧ leAt (flit 3 5) 248 2 % 4096 ≠ ((fport s 15).rxSeq + 1) % 4096 ∧
    crc32c (((flit 3 0).set 9 1).take 252) ≠ leAt ((flit 3 0).set 9 1) 252 4 := by
  decide +kernel

/-- Ports that are due to retrain, train, went dark, lost a wavelength, or have a flit without a credit. -/
theorem wit_FabricLink_port :
    let f : Flit := { chan := 7, first := true, last := true, dest := 0, src := 0, payload := [], poison := false, head := [] }
    let w := fportUpd 15 (fun u => { u with due := true, waiting := [f] }) (portAt 5 up)
    (fport w 15).due = true ∧ portState w 15 = 5 ∧ portState (portAt 4 up) 15 = 4 ∧
    portWidth (wFld (rget (portAt 4 up) (fportKey 15 0)) 28 27) 255 ≠ 0 ∧ portWidth (wFld (rget (portAt 4 up) (fportKey 15 0)) 28 27) 1 = 0 ∧
    wBit (rget (portAt 3 up) (fportKey 15 0)) (11 + 7) = true ∧ f ∈ (fport w 15).waiting ∧ listAt (fport w 15).cred 7 0 = 0 ∧
    nsHas (fport w 15).stalled 7 = false := by
  decide +kernel

/-- A message for device 4 from device 5, of a class. -/
def msg (cls : Nat) (mask : Option Nat) : FMsg :=
  { cls := cls, vc := 0, dest := 4, src := 5, bytes := zeros 32, poison := [], mask := mask, entry := 3 * 2 ^ 19 }

/-- Device 3 with parent 1, port 15 up, a route and messages that wait for it and for its agents. -/
def fabric (e : Nat) (inb held : List (Nat × FMsg)) : State :=
  rset (hubBase 0 + 0x40000) (0x80000003 + 0x30000000) (rset (hubBase 0 + 0x40004) 1 (portAt 3 { up with
    fab := { up.fab with route := [(4, e), (256, 3 * 2 ^ 19)], inbox := inb, held := held } }))

/-- Messages for this device, without a route, with one, and one whose only port retrains. -/
theorem wit_FabricMessages_route :
    let e := 2 ^ 16 + 2 ^ 15
    let m : FMsg := { msg 0 none with entry := e }
    let x : FMsg := { m with src := 6 }
    let s := fabric e [(16, m), (16, x)] []
    let o := fabric e [(3, { m with bytes := (zeros 32).set 24 62 })] []
    let own := fabric e [(16, { m with dest := 3 })] []
    heads 16 s.fab.inbox = [(0, m)] ∧ m.dest ≠ myId s ∧ heads 3 [(3, m), (3, { x with cls := 1 }), (3, x)] = [(0, m), (1, { x with cls := 1 })] ∧
    heads 16 own.fab.inbox = [(0, { m with dest := 3 })] ∧ myId own = 3 ∧
    lookEntry s 0 4 [] = e ∧ bitAt m.entry 16 = true ∧ bitAt m.entry 18 = false ∧ bitAt (msg 0 none).entry 16 = false ∧ mHops m.bytes = 0 ∧
    (heads 3 o.fab.inbox).length = 1 ∧ mHops ((zeros 32).set 24 62) + 1 = 63 ∧ dropPort s 3 0 m = 3 ∧
    maskPorts s 32768 3 = [15] ∧ maskPorts (portAt 4 s) 32768 3 = [] ∧ maskPorts (portAt 4 s) 32768 4 = [15] := by
  decide +kernel

/-- R327: a busy channel may hold 1 152 places; consumed flits leave it its floor of 128. -/
theorem test_shared_places :
    let u := takeShared 3 FPort.fresh
    listAt u.places 3 0 = 1152 ∧ sharedFree u = 0 ∧ listAt (leavePlaces 3 1100 u).places 3 0 = 128 ∧
    sharedFree (leavePlaces 3 1100 u) = 1024 ∧ lanesUsed 4 0b11110101 = [0, 2, 4, 5] := by
  decide +kernel

/-- Where exactly one port of a mask is up, a message takes it. -/
theorem choosePort_one {s : State} {mask p : Nat} {m : FMsg} (h : maskPorts s mask 3 = [p]) : choosePort s mask m = .go p := by
  simp [choosePort, hashPick, h, Nat.mod_one]

theorem wit_FabricMessages_go :
    choosePort (fabric 0 [] []) 32768 (msg 0 none) = .go 15 ∧ choosePort (portAt 4 (fabric 0 [] [])) 32768 (msg 0 none) = .wait := by
  refine ⟨choosePort_one (by decide +kernel), ?_⟩
  have h : maskPorts (portAt 4 (fabric 0 [] [])) 32768 3 = [] := by decide +kernel
  have g : maskPorts (portAt 4 (fabric 0 [] [])) 32768 4 = [15] := by decide +kernel
  simp [choosePort, hashPick, h, g]

/-- A parent that is another device, a child's heartbeat, a child that fell silent and a parent that did. -/
theorem wit_FabricMessages_tree :
    let s := fabric 0 [] [(2, msg 3 none)]
    let t : State := { s with ns := 3000000, fab := { s.fab with live := [68], unanswered := 3 } }
    wBit (fabId s) 31 = true ∧ fabParent s ≠ myId s ∧ firstFrom 2 (fun m => m.cls == 3) s.fab.held = some (0, msg 3 none) ∧
    childKey (myId s) 5 / 64 ≤ wFld (fabId s) 29 28 ∧ s.fab.live.length < 64 ∧ nsHas t.fab.live (64 * 1 + 4) = true ∧
    stGet (fun _ => 0) t.fab.seen 68 + 3000000 ≤ t.ns ∧ 3 ≤ t.fab.unanswered ∧ wBit (fabId t) 30 = false := by
  decide +kernel

/-- Stream 3 of a cluster as written with `w`. -/
def strmAt (w : Word) : State := rset (cluBase 0 + 0x330) w (fabric 0 [] [])

/-- A stream that is opened, by a confidential partition too, one that sends and one that receives. -/
theorem wit_FabricMessages_stream :
    let c := { mapped (pk 1 3 []) (fun q => { q with conf := true, mask := 1 }) with fab := up.fab }
    cluLocked up 0 = false ∧ cluPart up 255 = none ∧ strmValid up 255 3 = false ∧ cluPart c 0 = some 3 ∧ (pget c 3).conf = true ∧
    strmValid (strmAt 0x80000000) 0 3 = true ∧ strmRecv (strmAt 0x80000000) 0 3 = false ∧
    nsHas ({ strmAt 0x80000000 with fab := { up.fab with strmPend := [3] } } : State).fab.strmPend 3 = true ∧
    strmRecv (strmAt 0xC0000000) 0 3 = true ∧ strmSlot (strmAt 0xC0000000) 0 3 = true ∧ strmSlot (strmAt 0x80000000) 0 3 = true := by
  decide +kernel

/-- A send stream with one slot of no data and one credit. -/
theorem wit_FabricMessages_send :
    let s := csWrite 0 0 ((zeros 64).set 0 1) (csZeroBlks 0 1 4 (strmAt 0x98000000))
    let t : State := { s with fab := { s.fab with strmCred := [(3, 1)] } }
    (strmWord 0 3 0 t).1 = 1 ∧ strmIdx t 0 3 = 0 ∧ slotOff t 0 3 0 = 64 ∧
    slotOff t 0 3 0 + 64 * 2 ^ wFld (strmReg t 0 3 0) 29 26 ≤ 2 ^ 22 ∧ (csReadBytes 0 64 64 t).1 = some (zeros 64) ∧
    slotBad t 0 3 (zeros 64) = 0 ∧ agentRefusal t 0 64 (64 * 2 ^ wFld (strmReg t 0 3 0) 29 26) false = none ∧ bitAt (leAt (zeros 64) 2 1) 0 = false ∧ stGet (fun _ => 0) t.fab.strmCred 3 = 0 + 1 := by
  decide +kernel

/-- A put with no stream and one to a receive stream; a contribution that opens a context; one that is due. -/
theorem wit_FabricMessages_put :
    let s := fabric 0 [] [(16, msg 0 none), (16, msg 2 none)]
    let r := rset (cluBase 0 + 0x304) 0x1400 (rset (cluBase 0 + 0x300) 0xD8000000 { s with
      map := { tw := [(0, 1)], cl := [(0, 1)], core := [(0, 1)] } })
    let x : RedCtx := { hub := 0, group := 0, tag := 0, len := 0, op := 0, count := 1, kids := 1, loc := true, val := [], part := false,
                        err := false, opened := 0 }
    let c : State := { s with fab := { s.fab with ctxs := [x] }, ns := 1000000000 }
    let d := rset (cluBase 0 + 0x104) 0x80000000 (rset (cluBase 0 + 0x100) 0x00FF0001 (rset (cluBase 0 + 0x304) 0x1400
      (rset (cluBase 0 + 0x300) 0xD8000000 { mapped (pk 1 3 []) (fun q => { q with mask := 1 }) with fab := s.fab })))
    putBad d (msg 0 none) = 0x0401 ∧ streamOf d (mDst (msg 0 none).bytes) = some (0, 0) ∧ slotRefusal d 0 0 = some (0x0401, 2) ∧
    firstFrom 16 (fun m => m.cls == 0 || (m.cls == 2 && m.mask.isSome)) s.fab.held = some (0, msg 0 none) ∧
    putBad s (msg 0 none) = 0x0402 ∧ putBad r (msg 0 none) = 0 ∧ streamOf r (mDst (msg 0 none).bytes) = some (0, 0) ∧
    firstFrom 16 (fun m => m.cls == 2 && m.mask.isNone) s.fab.held = some (1, msg 2 none) ∧
    s.fab.done.contains (0, 0) = false ∧ s.fab.ctxs = [] ∧ mGroup (msg 2 none).bytes = 0 ∧ mTag (msg 2 none).bytes = 0 ∧
    1 < fld (msg 2 none).entry 25 19 ∧ strmSlot s 0 0 = true ∧ (slotRefusal r 0 0 = none) ∧ (contribute 16 (msg 2 none) s).isSome = true ∧
    c.fab.ctxs.find? (fun x => x.group == 0 && x.tag == 0) = some x ∧
    x.opened + max 1 (fld (routeEntry c 256) 56 54) * wFld (rget c (hubBase 0 + 0x40020)) 15 0 * 1000 ≤ c.ns := by
  decide +kernel

/-! ## Start-up, repair, temperature and the standby rail -/

/-- A device whose start-up stands before stage `n`. -/
def bootAt (n : Nat) : State := { up with booted := false, boot := { up.boot with next := some n } }

/-- Every stage falls due; the fuse bank reads well or not, its life cycle is final or not, and an image of H0 checks or not. -/
theorem wit_StartUp :
    let f : FuseBank := { ok := true, lc := 2, svn := 3, keys := [], digest := [] }
    let im : BootImages := { svn := 3, digest := zeros 64, stagedOk := true, prevOk := true }
    (∀ n, n < 10 → stageDue (bootAt n) n = true) ∧ (bootAt 4).boot.next = some 4 ∧
    (readFuses f .empty (bootAt 1)).sec.lcFuse ≠ 5 ∧ (readFuses { f with lc := 5 } .empty (bootAt 1)).sec.lcFuse = 5 ∧
    bootImage (readFuses f .empty (bootAt 1)) im 0 = some { svn := 3, digest := zeros 64 } ∧
    bootImage (readFuses f .empty (bootAt 1)) { im with svn := 2 } 0 = none ∧ (bootAt 2).boot.late = false ∧
    ({ bootAt 2 with boot := { (bootAt 2).boot with late := true } } : State).boot.late = true ∧
    hubAbsent (bootAt 7) 3 = false ∧ timedOut (bootAt 7) 23 = false ∧ nsHas (bootAt 7).pwr.rails 20 = true ∧
    nsHas (bootAt 8).pwr.rails 21 = true ∧ nsHas (bootAt 3).pwr.rails 3 = true ∧ up.pwr.rst = false ∧
    ({ up with pwr := { up.pwr with rst := true, descend := true } } : State).pwr.inReset = false ∧ up.pwr.rails ≠ [] ∧
    up.pwr.vaux = true ∧ up.pwr.sw = true ∧ up.pwr.vin = true ∧ up.pwr.kiln = false := by
  decide +kernel

/-- A group with a spare and one without; a column that retrains; a bridge direction that is up. -/
theorem wit_RepairInService :
    let n : LaneGrp := { sp := [(0, 5), (1, 6)], bad := [], badSp := [] }
    let b : State := { up with boot := { up.boot with brgUp := List.range 1056 }, map := { tw := (List.range 16).map (fun n => (n, n + 1)), cl := [], core := [] } }
    freeSpare 2 LaneGrp.empty = some 0 ∧ freeSpare 2 n = none ∧ (∀ e ∈ n.sp, e.2 ≠ 63 ∧ e.1 + 64 ≠ 63) ∧
    (failLane 2 67 (bondGrp up (8703 * 134 + 133))).2 = none ∧ (failLane 2 63 n).2 ≠ none ∧ (colget up 8703).state = 0 ∧
    (colget (colupd 8703 (fun u => { u with retraining := true }) up) 8703).retraining = true ∧ edgeUp b 43 = true ∧
    nsHas b.boot.brgTrain 87 = false ∧ nsHas ({ b with boot := { b.boot with brgTrain := [87] } } : State).boot.brgTrain 87 = true ∧
    trainReady { b with boot := { b.boot with brgDue := [87] } } 87 = false ∧
    trainReady { b with boot := { b.boot with brgDue := [87] }, net := { b.net with xPort := [163] } } 87 = true := by
  decide +kernel

/-- The last column of tower 15 retrains and trains layer 7 again; no other column trains a layer. -/
def phaseAt : State := colupd 8703 (fun u => { u with retraining := true, phaseOut := [7] }) up

theorem wit_RepairInService_phase : (colget phaseAt 8703).retraining = true ∧ 7 ∈ (colget phaseAt 8703).phaseOut ∧
    ∀ k, k / 544 = 8703 / 544 → k ≠ 8703 → 7 ∉ (colget phaseAt k).phaseOut := by
  refine ⟨by decide +kernel, by decide +kernel, fun k _ h => ?_⟩
  have e : phaseAt.cols = [(8703, { ColSt.reset with retraining := true, phaseOut := [7] })] := by decide +kernel
  simp [colget, e, stGet, Ne.symm h, ColSt.reset]

/-- A round of 16 readings per tower, a housekeeping channel, a trip, a canary, a window, warnings and the flow input. -/
theorem wit_Thermal :
    let w := { up with therm := { up.therm with warn := true } }
    let t := rset (thmBase + 0x15C) 0x80000064 up
    dieOn up 15 = true ∧ 5 ≤ up.stage ∧ ((List.replicate 16 (Rd.val 100)).length = 16) ∧ chHere up 900 = true ∧ chTemp 900 = false ∧
    rdAt [(900, .val 7)] 900 = some (.val 7) ∧ 3 ≤ up.stage ∧ (bootAt 2).boot.next = some 2 ∧ up.pwr.kiln = false ∧
    nsHas up.therm.cut (chHot 15 15) = false ∧ (colget up 8703).retraining = false ∧ (layTh up 15 7).meas < 380 ∧ limitOn up = true ∧
    w.therm.warn = true ∧ (∀ n, n < 16 → ratioAtLeast w 110 n = false) ∧ flowOn t = true ∧ flowLost t = false ∧ 99 < minHz t ∧
    flowLost (rset (thmBase + 0x158) 0x80000000 t) = true := by
  decide +kernel

/-- VAUX stands. -/
theorem wit_SmbusAndVaux : up.pwr.vaux = true ∧ State.reset.pwr.vaux = true := by
  decide +kernel

/-! ## Every step -/

/-- A step that answers next, on a state whose memories are canonical and hold something. -/
theorem wit_MemoriesStayCanonical :
    let s : State := { State.reset with t2 := [(5, 1)], pending := [.rstNAssert, .vauxDown] }
    memWf s.t2 = true ∧ memWf s.sp = true ∧ memWf s.csram = true ∧ memWf s.t1 = true ∧ memWf s.winMem = true ∧
    s.pending = .rstNAssert :: [.vauxDown] ∧
    step s = .next { State.reset with t2 := [(5, 1)], pending := [.vauxDown]
                                      pwr := { State.reset.pwr with rst := true, descend := true } } := by
  refine ⟨by decide, by decide, by decide, by decide, by decide, rfl, rfl⟩

/-! ## Well-formed commands: each check refuses a term -/

def noFind : TestFind :=
  { noRoot := [], brgLanes := [], brgDown := [], restarts := [], logic := [], routers := [], clus := [], mems := [], engines := [],
    bondLanes := [], rows := [], holds := [], phase := [], dur := 0 }

def fuses : FuseBank := { ok := true, lc := 2, svn := 3, keys := [], digest := [] }

def engine : EngineFind := { id := 0, qualified := true, ucie := 3, tx := 255, rx := 255 }

def bootIms : BootImages := { svn := 3, digest := [], stagedOk := true, prevOk := true }

theorem test_ill_formed_host : ∀ i ∈ ([.bar2Read (.bar2 0) 0, .bar2Read (.bar0 1 0x1FFFF) 4, .bar2Write 0 [], .bar2Write 0 (zeros 513), .commandWindowWrite 0 0 [],
    .dirRegister 0 ⟨List.replicate 8193 0, []⟩, .hostLinkUp 16 0, .hostReadCompletion 0 (zeros 4097), .attestGet 0 [],
    .challenge 0 [], .getMeasurements 0 []] : List Instr), wellFormed i = false := by
  decide +kernel

theorem test_ill_formed_memory : ∀ i ∈ ([.clusterSramAccess 0 (some { off := 60, len := 8, data := none }) none false false,
    .bankAtomic 0 0 4 .add64 0 false, .writeCombineAccept 0 0 0 (zeros 63), .tier1Atomic 0 2 .add32 0, .t2DriftCheck 0 [1],
    .requestIssue 0 none 0 0 0 none none, .requestIssue 0 none 0 8 0 (some (zeros 4)) none] : List Instr), wellFormed i = false := by
  decide +kernel

theorem test_ill_formed_device : ∀ i ∈ ([.clkmonWindow 16 (List.replicate 5 0), .clockStopped 16 1, .powerLoopTick 0 ⟨[], List.replicate 9 0⟩,
    .flitReceive 0 (zeros 255) false false, .hubRejoin 0 (List.replicate 4 engine), .hubRejoin 1 [], .dieRejoin 0 { noFind with noRoot := [16] },
    .stage0 true [56] 0, .stage1 { fuses with lc := 6 } bootIms .empty false 0, .stage2 true 16 0 0, .stage3 [4] 0,
    .stage4 { noFind with brgDown := [1056] }, .stage5 { noFind with clus := [256] }, .stage6 { noFind with rows := [(8704, 0)] },
    .stage7 [(24, 0)] 0, .stage8 [] 0, .columnRetrain 0 ⟨[(134, 0)], []⟩, .columnRetrainDone 0 [(0, 68)], .bridgeRetrainDone 0 [(12, 0)] [],
    .bridgeRetrainDone 0 [] [12], .hotspotSample [] [], .housekeepingRound [(1060, .cut)] [], .kilnSitterTrip 0 false 16 0,
    .bondRecalibration 0 [(134, 0)]] : List Instr), wellFormed i = false := by
  decide +kernel

theorem test_well_formed : ∀ i ∈ ([.bar2Read (.bar2 0) 4096, .bar2Read (.bar0 64 0x1FFFC) 4, .bar2Write 0 (zeros 512), .commandWindowWrite 127 65535 (zeros 1),
    .dirRegister 0 ⟨[], []⟩, .hostLinkUp 6 16, .hostReadCompletion 0 (zeros 4096), .attestGet 0 (zeros 32),
    .clusterSramAccess 255 (some { off := 4194240, len := 64, data := some (zeros 64) }) none false false, .bankAtomic 0 0 8 .add64 0 false,
    .writeCombineAccept 0 0 0 (zeros 64), .tier1Atomic 0 4 .add32 0, .t2DriftCheck 0 [1, 2], .requestIssue 0 none 0 8 0 (some (zeros 8)) none,
    .clkmonWindow 16 [1, 2, 3, 4, 5, 6, 7, 8, 9], .clockStopped 16 4, .powerLoopTick 0 ⟨List.replicate 16 (0, 0), List.replicate 9 0⟩, .flitReceive 0 (zeros 256) false false,
    .stage1 fuses bootIms .empty false 0, .stage4 noFind, .stage7 [(23, 0)] 0, .columnRetrain 0 ⟨[(133, 67)], [7]⟩,
    .kilnSitterTrip 0 true 31 420] : List Instr), wellFormed i = true := by
  decide +kernel

/-! ## One step: results that the spec's rules give -/

/-- The state after one command. -/
def after (i : Instr) (s : State) : State :=
  match step { s with pending := [i] } with
  | .next t => t
  | _ => s

/-- X3 := X1 op X2 of core 0, at index 0. -/
def alu (op : Nat) (i : Instr) (a b : Word) : Word :=
  xGet (after i (xSet 0 1 a (xSet 0 2 b (seqAt (ins op (3 * 2 ^ 51 + 1 * 2 ^ 46 + 2 * 2 ^ 41)) 0)))) 0 3

/-- Table TILE.4: ADD wraps, SLT compares signed, SLTU unsigned, SRA keeps the sign and takes the amount modulo 32. -/
theorem test_alu : alu 0x08 (.add 0) 0xFFFFFFFF 2 = 1 ∧ alu 0x09 (.sub 0) 1 2 = 0xFFFFFFFF ∧
    alu 0x13 (.slt 0) 0xFFFFFFFF 0 = 1 ∧ alu 0x14 (.sltu 0) 0xFFFFFFFF 0 = 0 ∧ alu 0x0F (.sra 0) 0x80000000 33 = 0xC0000000 := by
  decide +kernel

/-- R109: a write to X0 is discarded, and the PC goes on. -/
theorem test_x0 : let t := after (.add 0) (xSet 0 1 5 (seqAt (ins 0x08 (1 * 2 ^ 46)) 0))
    xGet t 0 0 = 0 ∧ (sq t 0).pc = 1 := by
  decide +kernel

/-- BLT is signed: -1 < 0 branches to index 4. -/
theorem test_blt : (sq (after (.blt 0) (xSet 0 1 0xFFFFFFFF (seqAt (ins 0x32 (1 * 2 ^ 46 + 4)) 0))) 0).pc = 4 := by
  decide +kernel

/-- R117: an increment beyond 65 535 leaves the ticket at 65 535. -/
theorem test_tkadd : tkGet (after (.tkadd 0) (rset (tkKey 0 1) 1 (seqAt (ins 0x41 (1 * 2 ^ 42 + 65535)) 0))) 0 1 = 65535 := by
  decide +kernel

/-- Table HOST.11: DEVICE_STATUS writes a record of 32 bytes with status 0 and the packet's sequence number. -/
theorem test_device_status : let t := after (.deviceStatus 0) (hostAt (pk 1 0xFFFF []) (fun q => q))
    (wget t 0).queue = [] ∧ (match t.hostOut with
      | [.write a d] => a == 4096 && d.length == 32 && leAt d 0 2 == 0 && leAt d 4 4 == 1 && leAt d 16 1 == 9 + 16
      | _ => false) = true := by
  decide +kernel

/-- R313: PART_LOCK closes the lock of a created partition. -/
theorem test_part_lock : (pget (after (.partLock 0) (hostAt (pk 0x103 3 (le 8 0)) (fun q => q))) 3).state = 2 := by
  decide +kernel

/-- R6: a reserved payload bit is refused with 0x0101 and nothing else changes. -/
theorem test_reserved_payload : let t := after (.partLock 0) (hostAt (pk 0x103 3 (le 8 1)) (fun q => q))
    (pget t 3).state = 1 ∧ (match t.hostOut with
      | [.write _ d] => leAt d 0 2 == 0x0101
      | _ => false) = true := by
  decide +kernel

/-- R33 and Table ELEC.6: VAUX comes up, and a repeated event changes nothing more. -/
theorem test_vaux : (after .vauxUp (after .vauxDown up)).pwr.vaux = true ∧ (after .vauxDown up).mirror = [] := by
  decide +kernel

/-- R336: heartbeats go unanswered until a parent answers. -/
theorem test_heartbeat : (after .heartbeatSend (fabric 0 [] [])).fab.unanswered = 1 := by
  decide +kernel

/-- R422: the first SPDM request is answered, one that comes too early gets ERROR. -/
theorem test_spdm : (after .getVersion up).sec.version = true ∧ (after .getCapabilities up).sec.caps = false ∧
    (after .getCapabilities up).hostOut = [.doe 0x7F []] := by
  decide +kernel

/-- Commands leave the queue in order, and no table row carries bits. -/
theorem test_queue : (after .rstNAssert up).pending = [] ∧ Sys2Proof.decodeTableWord 0 0 = none ∧
    State.withFetchWord State.reset 16 5 = State.reset := by
  decide +kernel

end Sys2Proof.Tests
end

section
/-! Tickets, traps and waits of a core (R115, R117, R139 to R142): one law per operation of the sequencer. -/

namespace Sys2Proof.Machine

/-! ## Composing frames -/

theorem onward_trans {c : Nat} {f g : SeqSt → SeqSt} {u v t : State} (h : onward c f u v) (k : onward c g v t) :
    onward c (fun q => g (f q)) u t := by
  obtain ⟨hregs, hseq, hrest⟩ := h
  obtain ⟨kregs, kseq, krest⟩ := k
  exact ⟨kregs.trans hregs, oneSeq_trans hseq kseq, onlyCores_trans hrest krest⟩

theorem sq_of_oneSeq {c : Nat} {f : SeqSt → SeqSt} {u t : State} (h : oneSeq c f u t) : sq t c = f (sq u c) := by
  obtain ⟨-, hsame⟩ := h
  rw [sq, hsame]
  rfl

theorem onward_tallyCore (c k e n : Nat) (x : Option Tx) (u : State) : onward c (fun q => q) u (tallyCore k e n x u) :=
  ⟨by simp, ⟨fun j _ => by simp, by simp⟩, by simp [onlyCores]⟩

theorem onward_squpd (c : Nat) (f : SeqSt → SeqSt) (u : State) : onward c f u (squpd c f u) :=
  ⟨by simp, ⟨fun j hj => by simp [cget_squpd_other _ _ hj], by simp⟩, by simp [onlyCores]⟩

theorem onward_pcTo (c p : Nat) (u : State) : onward c (goOn p) u (pcTo c p u) := onward_squpd c _ u

theorem onward_seqNext (c n : Nat) (u : State) : onward c (goOn ((sq u c).pc + n)) u (seqNext c n u) := seqNext_one c n u

/-- A change of the sequencer, counted as an issued instruction. -/
theorem onward_squpd_counted (c : Nat) (f : SeqSt → SeqSt) (u : State) (e n : Nat) (x : Option Tx) :
    onward c f u (tallyCore c e n x (squpd c f u)) := oneSeq_squpd c f u c e n x

theorem ticketDone_onward {c k v : Nat} {f g : SeqSt → SeqSt} {u t t' : State} (h : ticketDone c k v f u t)
    (hg : onward c g t t') : ticketDone c k v (fun q => g (f q)) u t' := by
  obtain ⟨htk, hother, hseq, hrest⟩ := h
  obtain ⟨gregs, gseq, grest⟩ := hg
  have hget : ∀ o, rget t' o = rget t o := fun o => by simp only [rget, gregs]
  refine ⟨?_, fun o ho => (hget o).trans (hother o ho), oneSeq_trans hseq gseq, onlyCores_trans hrest grest⟩
  rw [← htk]
  simp only [tkGet, hget]

theorem onward_ticketDone {c k v : Nat} {f g : SeqSt → SeqSt} {u t t' : State} (hf : onward c f u t)
    (h : ticketDone c k v g t t') : ticketDone c k v (fun q => g (f q)) u t' := by
  obtain ⟨fregs, fseq, frest⟩ := hf
  obtain ⟨htk, hother, hseq, hrest⟩ := h
  refine ⟨htk, fun o ho => (hother o ho).trans ?_, oneSeq_trans fseq hseq, onlyCores_trans frest hrest⟩
  simp only [rget, fregs]

/-! ## Ticket registers -/

@[simp] theorem wFld_ofNat_low (v n : Nat) (hn : n < 32) : wFld (BitVec.ofNat 32 v) n 0 = v % 2 ^ (n + 1) := by
  simp only [wFld, fld, BitVec.toNat_ofNat, Nat.shiftRight_zero, Nat.sub_zero]
  exact Nat.mod_mod_of_dvd v (Nat.pow_dvd_pow 2 hn)

theorem tkGet_le (s : State) (c k : Nat) : tkGet s c k ≤ 65535 :=
  Nat.le_of_lt_succ (Nat.mod_lt _ (by decide))

@[simp] theorem cget_tkPut (c k v : Nat) (s : State) (a : Nat) : cget (tkPut c k v s) a = cget s a := cget_rset _ _ _ _

@[simp] theorem sq_tkPut (c k v : Nat) (s : State) (a : Nat) : sq (tkPut c k v s) a = sq s a := sq_rset _ _ _ _

theorem tkGet_tkPut_same {c k v : Nat} (s : State) (hv : v ≤ 65535) : tkGet (tkPut c k v s) c k = v := by
  simp only [tkGet, tkPut, rget_rset_same]
  rw [wFld_ofNat_low _ _ (by decide)]
  omega

@[simp] theorem tkGet_squpd (c k a : Nat) (f : SeqSt → SeqSt) (s : State) : tkGet (squpd a f s) c k = tkGet s c k := by
  simp only [tkGet, rget_squpd]

@[simp] theorem tkGet_tallyCore (c k a e n : Nat) (x : Option Tx) (s : State) :
    tkGet (tallyCore a e n x s) c k = tkGet s c k := by
  simp only [tkGet, rget_tallyCore]

@[simp] theorem tkOperand_tallyCore (c w a e n : Nat) (x : Option Tx) (s : State) :
    tkOperand (tallyCore a e n x s) c w = tkOperand s c w := by
  simp only [tkOperand, xGet, corReg, rget_tallyCore]

/-- A ticket that takes a value it can hold. -/
theorem ticketDone_tkPut {c k v : Nat} (u : State) (hv : v ≤ 65535) : ticketDone c k v (fun q => q) u (tkPut c k v u) :=
  ⟨tkGet_tkPut_same u hv, fun _ ho => rget_rset_other _ _ ho, ⟨fun _ _ => by simp, by simp⟩, by simp [tkPut, onlyCores]⟩

/-- A ticket that is only looked at. -/
theorem ticketDone_refl (c k : Nat) (u : State) : ticketDone c k (tkGet u c k) (fun q => q) u u :=
  ⟨rfl, fun _ _ => rfl, ⟨fun _ _ => rfl, rfl⟩, rfl⟩

theorem ticketDone_seqNext {c k v : Nat} (u : State) (hv : v ≤ 65535) :
    ticketDone c k v (goOn ((sq u c).pc + 1)) u (seqNext c 1 (tkPut c k v u)) := by
  have h := ticketDone_onward (ticketDone_tkPut u hv) (onward_seqNext c 1 (tkPut c k v u))
  rwa [sq_tkPut] at h

/-! ## Held traps and increments -/

theorem holdTrap_free {c : Nat} {h : HeldTrap} {s : State} (hfree : srcHeld (sq s c) h.src = false) :
    holdTrap c h s = squpd c (fun q => { q with held := q.held ++ [h] }) s := by
  simp [holdTrap, hfree]

@[simp] theorem tkGet_holdTrap (c k a : Nat) (h : HeldTrap) (s : State) : tkGet (holdTrap a h s) c k = tkGet s c k := by
  unfold holdTrap
  split <;> simp

theorem tkAdd_fits {c k n src pc word : Nat} {s : State} (hk : k ≠ 0) (hfit : tkGet s c k + n ≤ 65535) :
    tkAdd c k n src pc word s = tkPut c k (tkGet s c k + n) s := by
  simp [tkAdd, hk, hfit]

/-- An increment past 65 535 (R117). -/
theorem tkAdd_overflow {c k n src pc word : Nat} {s : State} (hk : k ≠ 0) (hover : 65535 < tkGet s c k + n) :
    tkAdd c k n src pc word s =
      holdTrap c { src := 6, cause := 0x12, pc := pc, word := word, detail := k, detailHi := src } (tkPut c k 65535 s) := by
  simp [tkAdd, hk, Nat.not_le.mpr hover]

theorem tkAdd_overflow_free {c k n src pc word : Nat} {s : State} (hk : k ≠ 0) (hover : 65535 < tkGet s c k + n)
    (hfree : srcHeld (sq s c) 6 = false) :
    tkAdd c k n src pc word s = squpd c (fun q => { q with held := q.held ++
      [{ src := 6, cause := 0x12, pc := pc, word := word, detail := k, detailHi := src }] }) (tkPut c k 65535 s) := by
  rw [tkAdd_overflow hk hover]
  exact holdTrap_free (by simpa using hfree)

/-! ## Ticket waits -/

/-- A ticket that has reached the operand ends the wait (R115). -/
theorem tkTryWait_reached {c w : Nat} {s : State} (h : tkOperand s c w ≤ tkGet s c (inTK w)) :
    ∃ t, tkTryWait c w s = some t ∧
      ticketDone c (inTK w) (tkGet s c (inTK w) - (if inKeep w then 0 else tkOperand s c w)) (goOn ((sq s c).pc + 1)) s t := by
  have hle := tkGet_le s c (inTK w)
  simp only [tkTryWait, ge_iff_le, h, if_true]
  refine ⟨_, rfl, ?_⟩
  cases inKeep w with
  | true => exact ticketDone_onward (ticketDone_refl c _ s) (onward_pcTo c _ s)
  | false => exact ticketDone_onward (ticketDone_tkPut s (by simp only [Bool.false_eq_true, if_false]; omega)) (onward_pcTo c _ _)

theorem tkTryWait_short {c w : Nat} {s : State} (h : tkGet s c (inTK w) < tkOperand s c w) : tkTryWait c w s = none := by
  simp [tkTryWait, h]

/-! ## Issue of ticket instructions -/

/-- Ticket 0 is a reserved field of format T (R117). -/
theorem seqReserved_of_ticket_zero {w : Nat} (hf : opFormat (inOp w) = some 4) (hk : inTK w = 0) : seqReserved w = true := by
  simp [seqReserved, hf, hk]

theorem issues_ticket_ne_zero {c op : Nat} {ok : List Nat} {w : Nat} {s u : State} (h : issues c op ok w s u)
    (hf : opFormat op = some 4) : inTK w ≠ 0 := by
  obtain ⟨-, -, -, rfl, hres⟩ := h
  intro hk
  simp [seqReserved_of_ticket_zero hf hk] at hres

/-- An instruction with a reserved field traps instead of acting (R112). -/
theorem seqStep_reserved {c op f : Nat} {ok : List Nat} {w : Nat} {s u : State} {act : Nat → State → State}
    (hready : seqReady s c ok = true) (hpc : (sq s c).pc < 8192) (hfetch : seqFetch c (sq s c).pc s = (some w, u))
    (hop : inOp w = op) (hf : opFormat op = some f) (hres : seqReserved w = true) :
    seqStep c op ok act s = seqTrap c 0x02 w 0 0 u := by
  simp [seqStep, hready, Nat.not_le.mpr hpc, hfetch, hop, hf, hres]

/-! ## Taking a trap -/

/-- What filling the trap record leaves of the rest of the state (Table TILE.22). -/
theorem onlyCores_fillRec (c : Nat) (h : HeldTrap) (s : State) : onlyCores { s with fresh := s.fresh + 1 } (fillRec c h s) := by
  simp [onlyCores, fillRec, takeFree]

@[simp] theorem cget_fillRec (c : Nat) (h : HeldTrap) (s : State) (a : Nat) : cget (fillRec c h s) a = cget s a := by
  simp only [fillRec, cget_corSet, cget_takeFree]

theorem corReg_corSet (c i o : Nat) (w : Word) (s : State) :
    corReg (corSet c i w s) c o = if o = i then w else corReg s c o := by
  simp only [corReg, corSet, rget_rset, Nat.add_right_inj]

theorem rget_corSet_other {c i o : Nat} (w : Word) (s : State) (ho : o ≠ coreBase c + i) : rget (corSet c i w s) o = rget s o :=
  rget_rset_other _ _ ho

theorem rget_fillRec_other {c o : Nat} (h : HeldTrap) (s : State) (ho : o < coreBase c + 0x220 ∨ coreBase c + 0x240 ≤ o) :
    rget (fillRec c h s) o = rget s o := by
  simp only [fillRec]
  repeat rw [rget_corSet_other _ _ (by omega)]
  exact rget_takeFree _ _

/-- The record's first word shows the cause in its low byte. -/
theorem fillRec_cause (c : Nat) (h : HeldTrap) (s : State) : wFld (corReg (fillRec c h s) c 0x220) 7 0 = h.cause % 256 := by
  have hword : corReg (fillRec c h s) c 0x220 = BitVec.ofNat 32 (2 ^ 31 + h.src * 2 ^ 16 +
      heldMask ((sq s c).held.filter (fun u => u.src != h.src)) * 2 ^ 8 + h.cause) := by
    simp [fillRec, corReg_corSet]
  rw [hword, wFld_ofNat_low _ _ (by decide)]
  omega

/-- The sequencer in its handler for trap `h`, with `epc` the instruction to return to; `s` gives the handler's address. -/
def enterHandler (c : Nat) (h : HeldTrap) (epc : Nat) (s : State) (q : SeqSt) : SeqSt :=
  { q with
    held := q.held.filter (fun k => k.src != h.src), epc := epc % 8192, inTrap := true, curSrc := h.src, wait := 0,
    pc := wFld (corReg s c 0x208) 12 0 }

/-- Core `c` has entered its handler for trap `h` from state `s`: the record shows the cause, and beside it, the sequencer and
one free value nothing has changed. -/
def trapEntered (c : Nat) (h : HeldTrap) (epc : Nat) (s t : State) : Prop :=
  oneSeq c (enterHandler c h epc s) s t ∧
  wFld (corReg t c 0x220) 7 0 = h.cause % 256 ∧
  (∀ o, o < coreBase c + 0x220 ∨ coreBase c + 0x240 ≤ o → rget t o = rget s o) ∧
  onlyCores { s with fresh := s.fresh + 1 } t

theorem takeTrap_handled {c : Nat} {h : HeldTrap} {epc : Nat} {s : State} (hin : (sq s c).inTrap = false)
    (hcause : h.cause ≠ 0x09) (hen : wBit (corReg s c 0x208) 31 = true) (hstop : (sq s c).stop = 0) :
    takeTrap c h epc s = squpd c (enterHandler c h epc s) (tallyCore c 0x0141 1 none (fillRec c h s)) := by
  simp only [takeTrap, hin, hen, hstop, beq_eq_false_iff_ne.mpr hcause, Bool.and_false, Bool.or_false, Bool.not_true,
    bne_self_eq_false, Bool.false_eq_true, if_false]
  rfl

/-- A trap that can be handled enters the handler (R140). -/
theorem takeTrap_enters {c : Nat} {h : HeldTrap} {epc : Nat} {s : State} (hin : (sq s c).inTrap = false)
    (hcause : h.cause ≠ 0x09) (hen : wBit (corReg s c 0x208) 31 = true) (hstop : (sq s c).stop = 0) :
    trapEntered c h epc s (takeTrap c h epc s) := by
  rw [takeTrap_handled hin hcause hen hstop]
  refine ⟨⟨fun k hk => ?_, ?_⟩, ?_, fun o ho => ?_, ?_⟩
  · simp [cget_squpd_other _ _ hk]
  · simp
  · simpa only [corReg, rget_squpd, rget_tallyCore] using fillRec_cause c h s
  · simpa only [rget_squpd, rget_tallyCore] using rget_fillRec_other h s ho
  · obtain ⟨-, -, hcount⟩ := onward_tallyCore c c 0x0141 1 none (fillRec c h s)
    obtain ⟨-, -, henter⟩ := onward_squpd c (enterHandler c h epc s) (tallyCore c 0x0141 1 none (fillRec c h s))
    exact onlyCores_trans (onlyCores_fillRec c h s) (onlyCores_trans hcount henter)

/-- A trap of an instruction itself (R139). -/
theorem seqTrap_enters {c cause word detail detailHi : Nat} {s : State} (hin : (sq s c).inTrap = false)
    (hcause : cause ≠ 0x09) (hen : wBit (corReg s c 0x208) 31 = true) (hstop : (sq s c).stop = 0) :
    trapEntered c { src := 0, cause := cause, pc := (sq s c).pc, word := word, detail := detail, detailHi := detailHi }
      (sq s c).pc s (seqTrap c cause word detail detailHi s) :=
  takeTrap_enters hin hcause hen hstop

/-! ## The ticket instructions -/

theorem tkwait_reached {c : Fin 4352} {w : Nat} {s u : State} (h : issues c 0x40 [0] w s u)
    (hreach : tkOperand u c w ≤ tkGet u c (inTK w)) : ∃ t, exec (.tkwait c) s = .next t ∧
      ticketDone c (inTK w) (tkGet u c (inTK w) - (if inKeep w then 0 else tkOperand u c w))
        (goOn ((sq u c).pc + 1)) u t := by
  obtain ⟨t, ht, hdone⟩ := tkTryWait_reached (s := tallyCore c 0x0140 1 none u) (c := c) (w := w) (by simpa using hreach)
  refine ⟨t, ?_, ?_⟩
  · show execTkwait c s = _
    simp [execTkwait, seqStep_issues h, ht]
  · simpa using onward_ticketDone (onward_tallyCore c c 0x0140 1 none u) hdone

theorem tkwait_short {c : Fin 4352} {w : Nat} {s u : State} (h : issues c 0x40 [0] w s u)
    (hshort : tkGet u c (inTK w) < tkOperand u c w) : ∃ t, exec (.tkwait c) s = .next t ∧
      onward c (fun q => { q with wait := 1 }) u t := by
  have hnone : tkTryWait c w (tallyCore c 0x0140 1 none u) = none := tkTryWait_short (by simpa using hshort)
  refine ⟨_, ?_, onward_trans (onward_tallyCore c c 0x0140 1 none u) (onward_squpd c (fun q => { q with wait := 1 }) _)⟩
  show execTkwait c s = _
  simp [execTkwait, seqStep_issues h, hnone]

theorem tkwaitSatisfied_reached {c : Fin 4352} {w : Nat} {s u : State} (hwait : (sq s c).wait = 1)
    (h : issues c 0x40 [1] w s u) (hreach : tkOperand u c w ≤ tkGet u c (inTK w)) :
    ∃ t, exec (.tkwaitSatisfied c) s = .next t ∧
      ticketDone c (inTK w) (tkGet u c (inTK w) - (if inKeep w then 0 else tkOperand u c w))
        (goOn ((sq u c).pc + 1)) u t := by
  obtain ⟨t, ht, hdone⟩ := tkTryWait_reached hreach
  refine ⟨t, ?_, hdone⟩
  show execTkwaitSatisfied c s = _
  simp [execTkwaitSatisfied, hwait, seqStep_issues h, ht]

theorem exec_tkadd_issues {c : Fin 4352} {w : Nat} {s u : State} (h : issues c 0x41 [0] w s u) :
    exec (.tkadd c) s = .next (seqNext c 1 (tkAdd c (inTK w) (tkOperand u c w) 0 (sq u c).pc w u)) := by
  show execTkadd c s = _
  rw [execTkadd, seqStep_issues h]

theorem tkadd_fits {c : Fin 4352} {w : Nat} {s u : State} (h : issues c 0x41 [0] w s u)
    (hfit : tkGet u c (inTK w) + tkOperand u c w ≤ 65535) : ∃ t, exec (.tkadd c) s = .next t ∧
      ticketDone c (inTK w) (tkGet u c (inTK w) + tkOperand u c w) (goOn ((sq u c).pc + 1)) u t := by
  refine ⟨_, exec_tkadd_issues h, ?_⟩
  rw [tkAdd_fits (issues_ticket_ne_zero h rfl) hfit]
  exact ticketDone_seqNext u hfit

theorem tkadd_overflow {c : Fin 4352} {w : Nat} {s u : State} (h : issues c 0x41 [0] w s u)
    (hover : 65535 < tkGet u c (inTK w) + tkOperand u c w) (hfree : srcHeld (sq u c) 6 = false) :
    ∃ t, exec (.tkadd c) s = .next t ∧
      ticketDone c (inTK w) 65535 (fun q => goOn (q.pc + 1) { q with held := q.held ++
        [{ src := 6, cause := 0x12, pc := q.pc, word := w, detail := inTK w, detailHi := 0 }] }) u t := by
  refine ⟨_, exec_tkadd_issues h, ?_⟩
  rw [tkAdd_overflow_free (issues_ticket_ne_zero h rfl) hover hfree]
  have hput := ticketDone_tkPut (c := c) (k := inTK w) u (Nat.le_refl 65535)
  have hheld := ticketDone_onward hput (onward_squpd c (fun q => { q with held := q.held ++
    [{ src := 6, cause := 0x12, pc := (sq u c).pc, word := w, detail := inTK w, detailHi := 0 }] }) _)
  have hnext := ticketDone_onward hheld (onward_seqNext c 1 _)
  rw [sq_squpd_same, sq_tkPut] at hnext
  exact hnext

theorem tkset_loads {c : Fin 4352} {w : Nat} {s u : State} (h : issues c 0x42 [0] w s u) (hfit : tkOperand u c w ≤ 65535) :
    ∃ t, exec (.tkset c) s = .next t ∧ ticketDone c (inTK w) (tkOperand u c w) (goOn ((sq u c).pc + 1)) u t := by
  refine ⟨_, ?_, ticketDone_seqNext u hfit⟩
  show execTkset c s = _
  simp [execTkset, seqStep_issues h, hfit]

theorem tkrd_reads : scalarOp .tkrd 0x43 (fun u c w => BitVec.ofNat 32 (tkGet u c (inTK w))) := by
  intro c w s u h
  refine ⟨_, ?_, scalarDone_seqNext c (inXD w) 1 _ u⟩
  show execTkrd c s = _
  rw [execTkrd, seqStep_issues h]

theorem tkAdd_saturates {c k n src pc word : Nat} {s : State} (hk : k ≠ 0) (hover : 65535 < tkGet s c k + n) :
    tkGet (tkAdd c k n src pc word s) c k = 65535 := by
  rw [tkAdd_overflow hk hover, tkGet_holdTrap, tkGet_tkPut_same s (Nat.le_refl 65535)]

theorem held_tkAdd_overflow {c k n src pc word : Nat} {s : State} (hk : k ≠ 0) (hover : 65535 < tkGet s c k + n)
    (hfree : srcHeld (sq s c) 6 = false) : (sq (tkAdd c k n src pc word s) c).held = (sq s c).held ++
      [{ src := 6, cause := 0x12, pc := pc, word := word, detail := k, detailHi := src }] := by
  rw [tkAdd_overflow_free hk hover hfree]
  simp

/-- TKADD and TKSET of ticket 0 trap as reserved (R112, R117). -/
theorem exec_ticket_zero {c : Fin 4352} {i : Instr} {op w : Nat} {s u : State}
    (hi : (i = .tkadd c ∧ op = 0x41) ∨ (i = .tkset c ∧ op = 0x42)) (hready : seqReady s c [0] = true)
    (hpc : (sq s c).pc < 8192) (hfetch : seqFetch c (sq s c).pc s = (some w, u)) (hop : inOp w = op) (hk : inTK w = 0) :
    exec i s = .next (seqTrap c 0x02 w 0 0 u) := by
  have hformat : opFormat op = some 4 := by
    obtain ⟨-, rfl⟩ | ⟨-, rfl⟩ := hi <;> rfl
  have hres := seqReserved_of_ticket_zero (hop ▸ hformat) hk
  obtain ⟨rfl, rfl⟩ | ⟨rfl, rfl⟩ := hi
  · exact congrArg Host.Outcome.next (seqStep_reserved hready hpc hfetch hop hformat hres)
  · exact congrArg Host.Outcome.next (seqStep_reserved hready hpc hfetch hop hformat hres)

/-- Settles O4: each ticket instruction by its own law, and every overflow by the law of `tkAdd`. -/
theorem seqTickets : Obligations.SeqTickets := by
  unfold Obligations.SeqTickets
  refine ⟨fun c w s u h => ⟨tkwait_reached h, tkwait_short h⟩, fun c w s u hwait h => tkwaitSatisfied_reached hwait h,
    fun c w s u h => ⟨tkadd_fits h, tkadd_overflow h⟩, fun c w s u h => tkset_loads h, tkrd_reads,
    fun c k n src pc word s hk hover => ⟨tkAdd_saturates hk hover, held_tkAdd_overflow hk hover⟩, ?_⟩
  intro c i op w s u hi hready hpc hfetch hop hk hen hin hstop
  obtain ⟨hseq, hcause, hregs, hrest⟩ := seqTrap_enters (cause := 0x02) (word := w) (detail := 0) (detailHi := 0) hin
    (by decide) hen hstop
  have hsq := sq_of_oneSeq hseq
  exact ⟨_, exec_ticket_zero hi hready hpc hfetch hop hk, hcause, by rw [hsq]; rfl, by rw [hsq]; rfl, hregs, hrest⟩

end Sys2Proof.Machine
end

section
/-! What reading and writing cluster SRAM leaves of the cores: their states and their registers (R76, R404 to R409). -/

namespace Sys2Proof.Machine

/-- The cores' states and the registers of their blocks are as before. -/
def coresKept (s t : State) : Prop := t.cores = s.cores ∧ ∀ c < 4352, ∀ o < 0x800, corReg t c o = corReg s c o

theorem coresKept_trans {s t u : State} (h : coresKept s t) (k : coresKept t u) : coresKept s u := by
  obtain ⟨hc, hr⟩ := h
  obtain ⟨kc, kr⟩ := k
  exact ⟨kc.trans hc, fun c hcl o ho => (kr c hcl o ho).trans (hr c hcl o ho)⟩

/-- A change of neither registers nor cores. -/
theorem coresKept_of_eq {s t : State} (hregs : t.regs = s.regs) (hcores : t.cores = s.cores) : coresKept s t :=
  ⟨hcores, fun c _ o _ => by simp only [corReg, rget, hregs]⟩

theorem coresKept_refl (s : State) : coresKept s s := coresKept_of_eq rfl rfl

/-- Whether an offset of the register map lies in no core's block. -/
def outsideCores (o : Nat) : Prop := ∀ c < 4352, ∀ i < 0x800, coreBase c + i ≠ o

theorem coresKept_rupd {o : Nat} (f : Word → Word) (s : State) (ho : outsideCores o) : coresKept s (rupd o f s) :=
  ⟨rupd_cores _ _ _, fun c hc i hi => by simp only [corReg, rget_rupd, if_neg (ho c hc i hi)]⟩

/-- A core's block lies in the second MiB of its tower's window (R52). -/
theorem coreBase_in_tower {c i : Nat} (hi : i < 0x800) :
    ∃ y < 0x100000, coreBase c + i = 0x1100000 + c / 272 * 0x800000 + y := by
  refine ⟨(32 * (c / 17 % 16) + c % 17) * 0x800 + i, ?_, ?_⟩
  · omega
  · simp only [coreBase, towerBase]
    omega

theorem outsideCores_of_lt {o : Nat} (ho : o < 0x1000000) : outsideCores o := fun c _ i hi => by
  obtain ⟨y, -, hbase⟩ := coreBase_in_tower (c := c) hi
  omega

theorem outsideCores_vfKey (p o : Nat) : outsideCores (vfKey p o) := fun c hc i hi => by
  obtain ⟨y, hy, hbase⟩ := coreBase_in_tower (c := c) hi
  unfold vfKey
  omega

/-- A cluster's block lies in the fourth MiB of its tower's window (R52). -/
theorem outsideCores_cluBase {k o : Nat} (ho : o < 0x1000) : outsideCores (cluBase k + o) := fun c _ i hi => by
  obtain ⟨y, hy, hbase⟩ := coreBase_in_tower (c := c) hi
  simp only [hbase, cluBase, towerBase]
  omega

/-! ## Messages to the host -/

theorem coresKept_fnSend (fn : Nat) (m : HostOut) (s : State) : coresKept s (fnSend fn m s) :=
  coresKept_of_eq (hostSend_regs _ _) (hostSend_cores _ _)

theorem vfKey_add (p o i : Nat) : vfKey p o + i = vfKey p (o + i) := Nat.add_assoc _ _ _

theorem coresKept_sendMsix (fn vec : Nat) (s : State) : coresKept s (sendMsix fn vec s) := by
  unfold sendMsix
  split
  · exact coresKept_refl s
  · rename_i hvec
    split
    · refine coresKept_rupd _ s ?_
      by_cases hfn : fn = 0
      · subst hfn
        simp only [fnVectors, if_true] at hvec
        exact outsideCores_of_lt (by simp only [if_true]; omega)
      · rw [if_neg hfn, vfKey_add]
        exact outsideCores_vfKey _ _
    · exact coresKept_fnSend _ _ s

theorem coresKept_sumSignal (s : State) : coresKept s (sumSignal s) := by
  unfold sumSignal
  dsimp only
  split
  · exact coresKept_trans (coresKept_of_eq rfl rfl) (coresKept_sendMsix _ _ _)
  · exact coresKept_of_eq rfl rfl

theorem coresKept_telPut (r : TelRec) (s : State) : coresKept s (telPut r s) := by
  have hput : ∀ m n k, coresKept s (fnSend 0 m { fnSend 0 n s with telem := k }) := fun m n k =>
    coresKept_trans (coresKept_fnSend 0 n s) (coresKept_trans (coresKept_of_eq rfl rfl) (coresKept_fnSend 0 m _))
  unfold telPut
  dsimp only
  split
  · exact coresKept_trans (hput _ _ _) (coresKept_sumSignal _)
  · exact coresKept_trans (hput _ _ _) (coresKept_sendMsix _ _ _)

theorem coresKept_telEmit (r : TelRec) (s : State) : coresKept s (telEmit r s) := by
  unfold telEmit
  dsimp only
  split
  · exact coresKept_telPut r s
  · split
    · split <;> exact coresKept_of_eq rfl rfl
    · split <;> exact coresKept_of_eq rfl rfl

theorem coresKept_evSignal (p : Nat) (s : State) : coresKept s (evSignal p s) := by
  unfold evSignal
  dsimp only
  split
  · exact coresKept_trans (coresKept_of_eq rfl rfl) (coresKept_sendMsix _ _ _)
  · exact coresKept_of_eq rfl rfl

theorem coresKept_partEvent (p cls code seq hub : Nat) (s : State) : coresKept s (partEvent p cls code seq hub s) := by
  unfold partEvent
  dsimp only
  split
  · exact coresKept_trans (coresKept_telEmit _ s) (coresKept_evSignal _ _)
  · exact coresKept_telEmit _ s

/-! ## The error log -/

theorem coresKept_hset (h : Nat) (v : HubSt) (s : State) : coresKept s (hset h v s) :=
  coresKept_of_eq (hset_regs _ _ _) (hset_cores _ _ _)

theorem coresKept_hubSignal (h : Nat) (s : State) : coresKept s (hubSignal h s) := by
  unfold hubSignal
  dsimp only
  split
  · exact coresKept_trans (coresKept_hset _ _ s) (coresKept_sendMsix _ _ _)
  · exact coresKept_hset _ _ s

theorem coresKept_tallyHub (h evt n : Nat) (tx : Option Tx) (s : State) : coresKept s (tallyHub h evt n tx s) :=
  coresKept_of_eq (tallyHub_regs _ _ _ _ _) (tallyHub_cores _ _ _ _ _)

theorem coresKept_errNotice (e : ErrEv) (s : State) : coresKept s (errNotice e s) := by
  have hcount : ∀ b : Bool, coresKept s (tallyHub e.hub 0x0540 1 none (if b then hubSignal e.hub s else s)) := fun b => by
    cases b with
    | true => exact coresKept_trans (coresKept_hubSignal _ s) (coresKept_tallyHub _ _ _ _ _)
    | false => exact coresKept_tallyHub _ _ _ _ _
  unfold errNotice
  dsimp only
  split
  · exact coresKept_trans (hcount _) (coresKept_partEvent _ _ _ _ _ _)
  · exact hcount _

/-- An error of class 0 finds room or is dropped (R407). -/
theorem logInto_class_zero {e : ErrEv} (ns : Nat) (u : HubSt) (he : errClass e.code = 0) : (logInto e ns u).2 = false := by
  unfold logInto
  dsimp only
  split
  · rfl
  · split
    · rfl
    · split
      · rfl
      · split
        · rfl
        · rw [if_pos he]

/-- An error of class 0 halts no core (R408). -/
theorem coresKept_logErr {e : ErrEv} (s : State) (he : errClass e.code = 0) : coresKept s (logErr e s) := by
  unfold logErr
  dsimp only
  have hcode : errClass (if (hget s e.hub).lost = true then { e with hub := 0 } else e).code = 0 := by
    split <;> exact he
  generalize (if (hget s e.hub).lost = true then { e with hub := 0 } else e) = e' at hcode
  rw [logInto_class_zero _ _ hcode]
  exact coresKept_trans (coresKept_hset _ _ s) (coresKept_errNotice _ _)

/-! ## Cluster SRAM -/

theorem coresKept_cluUpd {k o : Nat} (f : Word → Word) (s : State) (ho : o < 0x1000) : coresKept s (cluUpd k o f s) :=
  coresKept_rupd f s (outsideCores_cluBase ho)

/-- A read that delivers its block: clean, or with one error corrected, which is of class 0 (Table CORE.9). -/
theorem coresKept_csRead {k b : Nat} {d : List Byte} {s t : State} (h : csRead k b s = (some d, t)) : coresKept s t := by
  unfold csRead at h
  split at h
  · cases h
  · split at h
    · cases h
      exact coresKept_refl s
    · cases h
      exact coresKept_trans (coresKept_cluUpd _ s (by decide)) (coresKept_logErr _ rfl)
    · cases h
    · cases h

theorem coresKept_csAtomic {k off arg old : Nat} {op : AtomicOp} {tx : Option Tx} {s t : State}
    (h : csAtomic k off op arg tx s = (some old, t)) : coresKept s t := by
  unfold csAtomic at h
  cases hread : csRead k (off / 64) s with
  | mk d v =>
    rw [hread] at h
    cases d with
    | none => cases h
    | some d =>
      cases h
      refine coresKept_trans (coresKept_csRead hread) (coresKept_of_eq ?_ ?_)
      · rw [tallyClu_regs]
        rfl
      · rw [tallyClu_cores]
        rfl

theorem sq_of_coresKept {s t : State} (h : coresKept s t) (c : Nat) : sq t c = sq s c := by
  obtain ⟨hcores, -⟩ := h
  simp only [sq, cget, hcores]

end Sys2Proof.Machine
end

section
/-! Barriers, the taking of held traps, the wait limit and the end of a halt (R136, R137, R140, R142, R143). -/

namespace Sys2Proof.Machine

/-! ## Cluster barriers -/

/-- CBAR adds 1 to its counter and waits (R136). -/
theorem cbar_arrives {c : Fin 4352} {w old : Nat} {s u v : State} (h : issues c 0x50 [0] w s u)
    (hcheck : csCheck u c w true = 0)
    (hadd : csAtomic (coreClu c) (memOff u c w) .add32 1 (seqTx u c (memOff u c w))
      (csCount (coreClu c) 0 (seqTx u c (memOff u c w)) u) = (some old, v)) :
    ∃ t, exec (.cbar c) s = .next t ∧ onward c (fun q => { q with wait := 2 }) v t := by
  refine ⟨_, ?_, onward_squpd_counted c (fun q => { q with wait := 2 }) v 0x0140 1 none⟩
  show execCbar c s = _
  simp [execCbar, seqStep_issues h, hcheck, hadd]

/-- A poll of a waiting CBAR reads its counter and goes on, or waits longer (R136). -/
theorem exec_cbarPoll {c : Fin 4352} {w old : Nat} {s v : State} (hwait : (sq s c).wait = 2)
    (hfetch : (seqFetch c (sq s c).pc s).1 = some w)
    (hread : csAtomic (coreClu c) (memOff s c w) .add32 0 (seqTx s c (memOff s c w))
      (csCount (coreClu c) 0 (seqTx s c (memOff s c w)) s) = (some old, v)) (hruns : coreRuns s c = true) :
    exec (.cbarPoll c) s = .next (if (BitVec.ofNat 32 old - xGet v c (inXBM w)).slt 0 then v
      else pcTo c ((sq v c).pc + 1) v) := by
  show execCbarPoll c s = _
  simp [execCbarPoll, hwait, hruns, hfetch, hread]

/-! ## Package-wide barriers -/

/-- Core `c` joins the cores that have arrived at the group with key `k`. -/
def gbarArrive (c k : Nat) (s : State) : State :=
  { s with gbarArr := stSet (fun _ => []) s.gbarArr k (nsAdd (stGet (fun _ => []) s.gbarArr k) c) }

/-- GBAR arrives at its group and waits (R137). -/
theorem gbar_arrives {c : Fin 4352} {w : Nat} {s u : State} (h : issues c 0x51 [0] w s u)
    (hmember : wBit (corReg u c 0x210) (inCode w % 16) = true) :
    ∃ t, exec (.gbar c) s = .next t ∧
      onward c (fun q => { q with wait := 3 }) (gbarArrive c (gbarKey (gbarPart u c) (inCode w % 16)) u) t := by
  refine ⟨_, ?_, onward_squpd_counted c (fun q => { q with wait := 3 }) _ 0x0140 1 none⟩
  show execGbar c s = _
  simp [execGbar, seqStep_issues h, hmember, gbarArrive]

theorem mem_gbarArrive (c k : Nat) (s : State) : c ∈ stGet (fun _ => []) (gbarArrive c k s).gbarArr k := by
  simp [gbarArrive, mem_nsAdd]

theorem gbarArrive_other {j k : Nat} (c : Nat) (s : State) (h : j ≠ k) :
    stGet (fun _ => []) (gbarArrive c k s).gbarArr j = stGet (fun _ => []) s.gbarArr j :=
  stGet_stSet_other _ _ _ h

theorem gbarArr_of_onlyCores {u t : State} (h : onlyCores u t) : t.gbarArr = u.gbarArr := by
  have harr := congrArg State.gbarArr h
  exact harr

/-- One core passes the barrier it waits at. -/
def gbarPass (s : State) (c : Nat) : State := if (sq s c).wait = 3 then pcTo c ((sq s c).pc + 1) s else s

theorem sq_gbarPass (s : State) (x c : Nat) :
    sq (gbarPass s x) c = if c = x ∧ (sq s c).wait = 3 then goOn ((sq s c).pc + 1) (sq s c) else sq s c := by
  unfold gbarPass
  by_cases hx : c = x
  · subst hx
    split <;> simp_all [pcTo, goOn]
  · split <;> simp [hx, sq, pcTo, cget_squpd_other _ _ hx]

/-- Among the cores of a list, those that wait at the barrier pass it. -/
theorem sq_gbarPass_foldl (l : List Nat) (s : State) (c : Nat) :
    sq (l.foldl gbarPass s) c = if c ∈ l ∧ (sq s c).wait = 3 then goOn ((sq s c).pc + 1) (sq s c) else sq s c := by
  induction l generalizing s with
  | nil => simp
  | cons x l ih =>
    have hstep := sq_gbarPass s x c
    rw [List.foldl_cons, ih]
    by_cases h : c = x ∧ (sq s c).wait = 3
    · obtain ⟨rfl, hw⟩ := h
      rw [if_pos ⟨rfl, hw⟩] at hstep
      simp [hstep, hw, goOn]
    · rw [if_neg h] at hstep
      have hmem : c ∈ x :: l ∧ (sq s c).wait = 3 ↔ c ∈ l ∧ (sq s c).wait = 3 := by
        rw [List.mem_cons]
        tauto
      simp only [hstep, hmem]

theorem gbarPass_other (s : State) {x c : Nat} (h : c ≠ x) : cget (gbarPass s x) c = cget s c := by
  unfold gbarPass
  split
  · exact cget_squpd_other _ _ h
  · rfl

theorem cget_gbarPass_foldl (l : List Nat) (s : State) {c : Nat} (h : c ∉ l) : cget (l.foldl gbarPass s) c = cget s c := by
  induction l generalizing s with
  | nil => rfl
  | cons x l ih =>
    rw [List.mem_cons, not_or] at h
    obtain ⟨hx, hl⟩ := h
    rw [List.foldl_cons, ih _ hl, gbarPass_other s hx]

theorem gbarPass_foldl_rest (l : List Nat) (s : State) :
    (l.foldl gbarPass s).regs = s.regs ∧ (l.foldl gbarPass s).gbarEpoch = s.gbarEpoch := by
  induction l generalizing s with
  | nil => exact ⟨rfl, rfl⟩
  | cons x l ih =>
    obtain ⟨hregs, hepoch⟩ := ih (gbarPass s x)
    rw [List.foldl_cons, hregs, hepoch]
    unfold gbarPass
    split <;> simp [pcTo]

/-- Freeing a group lets its waiting cores pass and forgets who has arrived. -/
theorem gbarFree_passes (p g : Nat) (s : State) : gbarFree p g s =
    { (stGet (fun _ => []) s.gbarArr (gbarKey p g)).foldl gbarPass s with
      gbarArr := stSet (fun _ => [])
        ((stGet (fun _ => []) s.gbarArr (gbarKey p g)).foldl gbarPass s).gbarArr (gbarKey p g) [] } := rfl

/-- The epoch of a group changes. -/
def gbarTurn (k : Nat) (s : State) : State :=
  { s with gbarEpoch := if nsHas s.gbarEpoch k then nsDel s.gbarEpoch k else nsAdd s.gbarEpoch k }

theorem nsHas_toggle (e : NatSet) (k : Nat) : nsHas (if nsHas e k then nsDel e k else nsAdd e k) k = !nsHas e k := by
  split
  · simp_all [nsHas_nsDel]
  · simp_all [nsHas_nsAdd]

/-- A group whose members have all arrived is released (R137). -/
theorem exec_gbarRelease {p : Fin 65} {g : Fin 16} {s : State} (hsome : stGet (fun _ => []) s.gbarArr (gbarKey p g) ≠ [])
    (hall : ∀ c ∈ gbarMembers s p g, c ∈ stGet (fun _ => []) s.gbarArr (gbarKey p g)) :
    exec (.gbarRelease p g) s = .next (gbarTurn (gbarKey p g) (gbarFree p g s)) := by
  have hmembers : (gbarMembers s p g).all (fun c => (stGet (fun _ => []) s.gbarArr (gbarKey p g)).contains c) = true := by
    simpa using hall
  show execGbarRelease p g s = _
  simp only [execGbarRelease, List.isEmpty_eq_false_iff.mpr hsome, hmembers, Bool.not_true, Bool.or_self, Bool.false_eq_true,
    if_false]
  rfl

/-- What a release does: the group is empty, its epoch has changed, and the cores that waited in it go on (R137). -/
theorem gbarRelease_releases {p : Fin 65} {g : Fin 16} {s : State}
    (hsome : stGet (fun _ => []) s.gbarArr (gbarKey p g) ≠ [])
    (hall : ∀ c ∈ gbarMembers s p g, c ∈ stGet (fun _ => []) s.gbarArr (gbarKey p g)) :
    ∃ t, exec (.gbarRelease p g) s = .next t ∧ stGet (fun _ => []) t.gbarArr (gbarKey p g) = [] ∧
      nsHas t.gbarEpoch (gbarKey p g) = !nsHas s.gbarEpoch (gbarKey p g) ∧ t.regs = s.regs ∧
      (∀ c, (sq s c).wait = 3 → c ∈ stGet (fun _ => []) s.gbarArr (gbarKey p g) →
        sq t c = goOn ((sq s c).pc + 1) (sq s c)) ∧
      (∀ c, c ∉ stGet (fun _ => []) s.gbarArr (gbarKey p g) → cget t c = cget s c) := by
  obtain ⟨hregs, hepoch⟩ := gbarPass_foldl_rest (stGet (fun _ => []) s.gbarArr (gbarKey p g)) s
  refine ⟨_, exec_gbarRelease hsome hall, ?_⟩
  rw [gbarFree_passes]
  refine ⟨by simp [gbarTurn], ?_, hregs, fun c hwait hc => ?_, fun c hc => cget_gbarPass_foldl _ s hc⟩
  · exact (nsHas_toggle _ _).trans (congrArg (fun e => !nsHas e (gbarKey p g)) hepoch)
  · exact (sq_gbarPass_foldl _ s c).trans (if_pos ⟨hc, hwait⟩)

/-! ## Traps and the wait limit -/

/-- A held trap is taken at an instruction boundary (R140). -/
theorem exec_trapTake {c : Fin 4352} {h : HeldTrap} {s : State} (hfirst : firstHeld (sq s c) = some h)
    (hstop : (sq s c).stop = 0) (hrun : (sq s c).run = true) (hin : (sq s c).inTrap = false) (h2 : (sq s c).wait ≠ 2)
    (h3 : (sq s c).wait ≠ 3) (hruns : coreRuns s c = true) :
    exec (.trapTake c) s = .next (takeTrap c h (sq s c).pc s) := by
  show execTrapTake c s = _
  simp [execTrapTake, hfirst, hruns, hstop, hrun, hin, h2, h3]

/-- The instruction a core waits in, for its trap record. -/
def waitWord (s : State) (c : Nat) : Nat := (seqFetch c (sq s c).pc s).1.getD 0

/-- The cores that have arrived at barrier groups, without core `c` at the group it waits for. -/
def arrivedWithout (c : Nat) (s : State) : Store (List Nat) :=
  let k := gbarKey (gbarPart s c) (inCode (waitWord s c) % 16)
  stSet (fun _ => []) s.gbarArr k (nsDel (stGet (fun _ => []) s.gbarArr k) c)

section
variable {c : Fin 4352} {s : State} (hlimit : corReg s c 0x20C ≠ 0#32) (hrun : (sq s c).run = true)
  (hruns : coreRuns s c = true)
include hlimit hrun hruns

/-- The limit ends a TKWAIT, which has changed nothing, or a GBAR, whose arrival is taken back (R142). -/
theorem exec_waitTimeout (hwait : (sq s c).wait = 1 ∨ (sq s c).wait = 3) :
    ∃ arr, exec (.waitTimeout c) s = .next (seqTrap c 0x13 (waitWord s c) 0 0 { s with gbarArr := arr }) ∧
      ((sq s c).wait ≠ 3 → arr = s.gbarArr) := by
  obtain hwait | hwait := hwait
  · refine ⟨s.gbarArr, ?_, fun _ => rfl⟩
    show execWaitTimeout c s = _
    simp [execWaitTimeout, hlimit, hrun, hruns, hwait, waitWord]
  · refine ⟨arrivedWithout c s, ?_, fun h => absurd hwait h⟩
    show execWaitTimeout c s = _
    simp [execWaitTimeout, hlimit, hrun, hruns, hwait, waitWord, arrivedWithout]

/-- The limit ends a CBAR, whose arrival is taken back (R142). -/
theorem exec_waitTimeout_cbar (hwait : (sq s c).wait = 2) :
    exec (.waitTimeout c) s = .next (seqTrap c 0x13 (waitWord s c) 0 0 (cbarUndo c (waitWord s c) s)) := by
  show execWaitTimeout c s = _
  simp [execWaitTimeout, hlimit, hrun, hruns, hwait, waitWord]

end

/-- Without a limit, and for a stall on a full queue, nothing times out (R142). -/
theorem exec_waitTimeout_none {c : Fin 4352} {s : State} (h : corReg s c 0x20C = 0 ∨ (sq s c).wait = 4) :
    exec (.waitTimeout c) s = .next s := by
  show execWaitTimeout c s = _
  obtain h | h := h <;> simp [execWaitTimeout, h]

/-- What trap "wait timeout" (cause 0x13) leaves, as the obligation words it. -/
theorem waitTimeout_enters {c word : Nat} {s : State} (hen : wBit (corReg s c 0x208) 31 = true)
    (hin : (sq s c).inTrap = false) (hstop : (sq s c).stop = 0) :
    trapEntered c { src := 0, cause := 0x13, pc := (sq s c).pc, word := word, detail := 0, detailHi := 0 }
      (sq s c).pc s (seqTrap c 0x13 word 0 0 s) :=
  seqTrap_enters hin (by decide) hen hstop

/-! ## The end of a halt -/

/-- A core that has stopped for reason `stop` becomes halted. -/
def haltedWith (stop : Nat) (k : CoreSt) : CoreSt :=
  { k with halted := true, seq := { k.seq with
      stop := 0, run := false, wait := 0, held := [], report := if stop = 3 then 2 else 1 } }

/-- A core with nothing left to run is halted and reports it (R143). -/
theorem coreHalted_ends {c : Fin 4352} {s : State} (hstop : (sq s c).stop ≠ 0) (hheld : (sq s c).held = [])
    (hidle : coreIdle s c = true) (hruns : coreRuns s c = true) :
    ∃ t, exec (.coreHalted c) s = .next t ∧ t.regs = s.regs ∧ onlyCores s t ∧
      (∀ k, k ≠ c.val → cget t k = cget s k) ∧
      cget t c = { cget s c with halted := true, seq := { (sq s c) with
        stop := 0, run := false, wait := 0, held := [], report := if (sq s c).stop = 3 then 2 else 1 } } := by
  refine ⟨_, ?_, cupd_regs c (haltedWith (sq s c).stop) s, by simp [onlyCores], fun k hk => cget_cupd_other _ s hk,
    cget_cupd_same c (haltedWith (sq s c).stop) s⟩
  show execCoreHalted c s = _
  simp [execCoreHalted, hstop, hheld, hidle, hruns]
  rfl

/-- Settles O7: each instruction and event by its own law; the wait limit through the one law of a trap that can be handled,
a CBAR's on the state in which its arrival is taken back. -/
theorem seqWaits : Obligations.SeqWaits := by
  unfold Obligations.SeqWaits
  refine ⟨fun c w old s u v h hcheck hadd => cbar_arrives h hcheck hadd, ?poll, ?gbar, ?release, ?take, ?limit, ?limitCbar,
    fun c s h => exec_waitTimeout_none h, fun c s hstop hheld hidle hruns => coreHalted_ends hstop hheld hidle hruns⟩
  case poll =>
    intro c w old s v hwait hfetch hread hruns
    refine ⟨_, exec_cbarPoll hwait hfetch hread hruns, fun hreach => ?_,
      fun hshort => if_pos (BitVec.slt_iff_toInt_lt.mpr hshort)⟩
    rw [if_neg (fun hlt => Int.not_lt.mpr hreach (BitVec.slt_iff_toInt_lt.mp hlt))]
    exact onward_pcTo c _ v
  case gbar =>
    intro c w s u h hmember
    obtain ⟨t, hexec, hregs, hseq, hrest⟩ := gbar_arrives h hmember
    have harr := gbarArr_of_onlyCores hrest
    refine ⟨t, hexec, hregs, hseq, ?_⟩
    rw [harr]
    exact ⟨hrest, mem_gbarArrive _ _ _, fun k hk => gbarArrive_other _ _ hk⟩
  case release =>
    intro p g s hsome hall
    obtain ⟨t, hexec, harr, hepoch, hregs, hpass, hother⟩ := gbarRelease_releases hsome hall
    exact ⟨t, hexec, harr, hepoch, hregs, fun c _ => hpass c, hother⟩
  case take =>
    intro c h s hfirst hstop hrun hin h2 h3 hen hcause hruns
    obtain ⟨hseq, -, hregs, hrest⟩ := takeTrap_enters (epc := (sq s c).pc) hin hcause hen hstop
    exact ⟨_, exec_trapTake hfirst hstop hrun hin h2 h3 hruns, hseq, hregs, hrest⟩
  case limit =>
    intro c s hlimit hrun hwait hen hin hstop hruns
    obtain ⟨arr, hexec, hsame⟩ := exec_waitTimeout hlimit hrun hruns hwait
    obtain ⟨hseq, hcause, hregs, hrest⟩ :=
      waitTimeout_enters (s := { s with gbarArr := arr }) (word := waitWord s c) hen hin hstop
    have harr := gbarArr_of_onlyCores hrest
    refine ⟨_, hexec, hseq, hcause, hregs, ?_⟩
    rw [harr]
    exact ⟨hrest, hsame⟩
  case limitCbar =>
    intro c w old s v hlimit hrun hwait hen hin hstop hruns hfetch hundo
    have hword : waitWord s c = w := by simp [waitWord, hfetch]
    have hv : cbarUndo c (waitWord s c) s = v := by rw [hword, cbarUndo, hundo]
    have hkept := coresKept_csAtomic hundo
    have hsq := sq_of_coresKept hkept c
    obtain ⟨-, hreg⟩ := hkept
    have hhandler := hreg c c.isLt 0x208 (by decide)
    obtain ⟨hseq, hcause, hregs, hrest⟩ :=
      waitTimeout_enters (s := v) (word := w) (by rwa [hhandler]) (by rwa [hsq]) (by rwa [hsq])
    have hexec := exec_waitTimeout_cbar hlimit hrun hruns hwait
    rw [hv, hword] at hexec
    rw [← hhandler]
    exact ⟨_, hexec, hseq, hcause, hregs, hrest⟩

end Sys2Proof.Machine
end

section
/-! BAR2 while a partition is in the TDISP RUN state (R296): closed, whatever an aperture maps, and counted in HP_ACC.UR. -/

namespace Sys2Proof.Machine

/-! ## Fields of a register word -/

theorem fld_eq_div_mod (w hi lo : Nat) : fld w hi lo = w / 2 ^ lo % 2 ^ (hi + 1 - lo) := by
  rw [fld, Nat.shiftRight_eq_div_pow]

/-- The field that was replaced reads as what replaced it. -/
theorem fld_putFld_same (w hi lo v : Nat) : fld (putFld w hi lo v) hi lo = v % 2 ^ (hi + 1 - lo) := by
  have hsplit : w / 2 ^ lo - fld w hi lo = 2 ^ (hi + 1 - lo) * (w / 2 ^ lo / 2 ^ (hi + 1 - lo)) := by
    have hdiv := Nat.div_add_mod (w / 2 ^ lo) (2 ^ (hi + 1 - lo))
    rw [← fld_eq_div_mod] at hdiv
    omega
  rw [fld_eq_div_mod, putFld, Nat.add_mul_div_right _ _ (Nat.two_pow_pos lo), Nat.mul_comm (fld w hi lo), Nat.sub_mul_div,
    hsplit, Nat.mul_add_mod, Nat.mod_mod]

/-- A field of a register word is the field of the number it is made of. -/
theorem wFld_ofNat {hi lo : Nat} (v : Nat) (hhi : hi < 32) (hlo : lo ≤ hi) : wFld (BitVec.ofNat 32 v) hi lo = fld v hi lo := by
  have hword : 2 ^ 32 = 2 ^ lo * 2 ^ (32 - lo) := by rw [← Nat.pow_add]; congr 1; omega
  rw [wFld, BitVec.toNat_ofNat, fld_eq_div_mod, fld_eq_div_mod, hword, Nat.mod_mul_right_div_self,
    Nat.mod_mod_of_dvd _ (Nat.pow_dvd_pow 2 (by omega))]

theorem wFld_wPut_same {hi lo : Nat} (w : Word) (v : Nat) (hhi : hi < 32) (hlo : lo ≤ hi) :
    wFld (wPut w hi lo v) hi lo = v % 2 ^ (hi + 1 - lo) := by
  rw [wPut, wFld_ofNat _ hhi hlo, fld_putFld_same]

/-- A saturating count stops at the largest value of its field. -/
theorem wFld_wSatAdd_same {hi lo : Nat} (w : Word) (n : Nat) (hhi : hi < 32) (hlo : lo ≤ hi) :
    wFld (wSatAdd w hi lo n) hi lo = min (wFld w hi lo + n) (2 ^ (hi + 1 - lo) - 1) := by
  rw [wSatAdd, wFld_wPut_same _ _ hhi hlo]
  exact Nat.mod_eq_of_lt (Nat.lt_of_le_of_lt (Nat.min_le_right _ _) (Nat.sub_one_lt (Nat.two_pow_pos _).ne'))

/-! ## A host request and its count -/

theorem hostReq_eq (fn : Nat) (a : Option Nat) (s : State) : hostReq fn a s = { s with ctrs := (hostReq fn a s).ctrs } :=
  tallyHub_eq _ _ _ _ _

@[simp] theorem hostReq_regs (fn : Nat) (a : Option Nat) (s : State) : (hostReq fn a s).regs = s.regs :=
  tallyHub_regs _ _ _ _ _

@[simp] theorem hostReq_parts (fn : Nat) (a : Option Nat) (s : State) : (hostReq fn a s).parts = s.parts :=
  tallyHub_parts _ _ _ _ _

@[simp] theorem rget_hostReq (fn : Nat) (a : Option Nat) (s : State) (o : Nat) : rget (hostReq fn a s) o = rget s o := by
  simp only [rget, hostReq_regs]

/-- HP_ACC.UR counts up to its largest value (Table HOST.24). -/
theorem countUr_counts (s : State) :
    wFld (rget (countUr s) 0x104) 31 16 = min (wFld (rget s 0x104) 31 16 + 1) 65535 := by
  rw [countUr, rupd, rget_rset_same]
  exact wFld_wSatAdd_same _ 1 (by decide) (by decide)

theorem rget_countUr_other {o : Nat} (s : State) (h : o ≠ 0x104) : rget (countUr s) o = rget s o :=
  rget_rset_other _ _ h

/-- What a request through the physical function leaves when it ends as Unsupported Request: it is counted, and HP_ACC.UR too. -/
def urEnded (a : Option Nat) (s : State) : State := countUr (hostReq 0 a s)

theorem urEnded_eq (a : Option Nat) (s : State) :
    urEnded a s = { s with regs := (urEnded a s).regs, ctrs := (urEnded a s).ctrs } := by
  rw [urEnded, hostReq_eq]; rfl

theorem urEnded_counts (a : Option Nat) (s : State) :
    wFld (rget (urEnded a s) 0x104) 31 16 = min (wFld (rget s 0x104) 31 16 + 1) 65535 := by
  rw [urEnded, countUr_counts, rget_hostReq]

theorem rget_urEnded_other {o : Nat} (a : Option Nat) (s : State) (h : o ≠ 0x104) : rget (urEnded a s) o = rget s o := by
  rw [urEnded, rget_countUr_other _ h, rget_hostReq]

theorem urEnded_frame (a : Option Nat) (s : State) : { urEnded a s with regs := s.regs, ctrs := s.ctrs } = s := by
  rw [urEnded_eq]

@[simp] theorem rget_fnSend (fn : Nat) (m : HostOut) (s : State) (o : Nat) : rget (fnSend fn m s) o = rget s o := by
  simp only [rget, fnSend, hostSend_regs]

/-- A completion sent then joins what the host had been sent, in the stream that was established before. -/
theorem fnSend_urEnded_hostOut (a : Option Nat) (m : HostOut) (s : State) :
    (fnSend 0 m (urEnded a s)).hostOut = s.hostOut ++ [onStream s 0 m] := by
  rw [urEnded_eq]; rfl

theorem fnSend_urEnded_frame (a : Option Nat) (m : HostOut) (s : State) :
    { fnSend 0 m (urEnded a s) with regs := s.regs, ctrs := s.ctrs, hostOut := s.hostOut } = s := by
  rw [urEnded_eq]; rfl

/-! ## BAR2 in the TDISP RUN state -/

/-- A key that does not read as its default has an entry. -/
theorem mem_of_stGet_ne {α : Type} {d : Nat → α} {st : Store α} {k : Nat} (h : stGet d st k ≠ d k) : (k, stGet d st k) ∈ st := by
  induction st with
  | nil => exact absurd rfl h
  | cons e r ih =>
    obtain ⟨k', v⟩ := e
    by_cases hk : k' = k
    · simp [stGet, hk]
    · simp only [stGet, if_neg hk] at h ⊢
      exact List.mem_cons_of_mem _ (ih h)

/-- One existing partition in the TDISP RUN state disables BAR2 (R296). -/
theorem bar2Off_of_tdispRun {s : State} {p : Nat} (hstate : (pget s p).state ≠ 0) (htdi : (pget s p).tdi = 2) :
    bar2Off s = true := by
  have hlisted : (p, pget s p) ∈ s.parts := mem_of_stGet_ne fun hreset => hstate (congrArg PartSt.state hreset)
  exact List.any_eq_true.mpr ⟨_, hlisted, by simp [hstate, htdi]⟩

@[simp] theorem bar2Off_hostReq (fn : Nat) (a : Option Nat) (s : State) : bar2Off (hostReq fn a s) = bar2Off s := by
  simp only [bar2Off, hostReq_parts]

/-- While BAR2 is disabled every access is Unsupported Request, through an open aperture or a closed one. -/
theorem bar2Tgt_of_bar2Off {s : State} (x n : Nat) (write : Bool) (h : bar2Off s = true) : bar2Tgt s x n write = .error true := by
  unfold bar2Tgt
  cases apertureDpa s x with
  | none => rfl
  | some a => simp [h]

section
variable {s : State} (hreach : hostReaches s 0 = true) (hoff : bar2Off s = true)
include hreach hoff

theorem exec_bar2Read_off (x : Fin (2 ^ 36)) (n : Fin 4097) :
    exec (.bar2Read (.bar2 x) n) s = .next (fnSend 0 (.cpl 1 false []) (urEnded (apertureDpa s x) s)) := by
  have htgt := bar2Tgt_of_bar2Off x n false ((bar2Off_hostReq 0 (apertureDpa s x) s).trans hoff)
  show execBar2Read (.bar2 x) n s = _
  simp [execBar2Read, bar2ReadAt, hreach, htgt, urEnded]

theorem exec_bar2Write_off (x : Fin (2 ^ 36)) (d : List Byte) :
    exec (.bar2Write x d) s = .next (urEnded (apertureDpa s x) s) := by
  have htgt := bar2Tgt_of_bar2Off x d.length true ((bar2Off_hostReq 0 (apertureDpa s x) s).trans hoff)
  show execBar2Write x d s = _
  simp [execBar2Write, hreach, htgt, urEnded]

end

/-- Settles O34: the partition in RUN is among those that disable BAR2, so a read and a write both end as Unsupported Request,
before any target is looked at. -/
theorem bar2InTdispRun : Obligations.Bar2InTdispRun := by
  unfold Obligations.Bar2InTdispRun
  intro x n d p s hreach hstate htdi
  have hoff := bar2Off_of_tdispRun hstate htdi
  have hcount := urEnded_counts (apertureDpa s x) s
  have hother : ∀ o, o ≠ 0x104 → rget (urEnded (apertureDpa s x) s) o = rget s o := fun o ho => rget_urEnded_other _ _ ho
  refine ⟨⟨_, exec_bar2Read_off hreach hoff x n, fnSend_urEnded_hostOut _ _ _, ?_⟩,
    _, exec_bar2Write_off hreach hoff x d, hcount, hother, urEnded_frame _ _⟩
  simp only [rget_fnSend]
  exact ⟨hcount, hother, fnSend_urEnded_frame _ _ _⟩

end Sys2Proof.Machine
end

section
/-! What logging an error can do, and what the log and a stream's control block in cluster SRAM leave of the fabric: its state, the
logical map and the registers of the hub windows (R76, R341, R404 to R409). -/

namespace Sys2Proof.Machine

/-- What the error log and its notices may change: the logs, the counters, the records and messages to the host with the PBA words of
messages held, and the cores, which the fatal state halts. -/
def onlyLogs (s t : State) : Prop :=
  (∀ o, o < 0x10000 ∨ 0x10100 ≤ o ∧ o < 0x10000000 → rget t o = rget s o) ∧
    { t with regs := s.regs, cores := s.cores, cols := s.cols, hubs := s.hubs, ctrs := s.ctrs, telem := s.telem,
             hostOut := s.hostOut, fatal := s.fatal, faultN := s.faultN } = s

theorem onlyLogs_refl (s : State) : onlyLogs s s := ⟨fun _ _ => rfl, rfl⟩

theorem onlyLogs_trans {s t u : State} (h : onlyLogs s t) (k : onlyLogs t u) : onlyLogs s u := by
  obtain ⟨hregs, hrest⟩ := h
  obtain ⟨kregs, krest⟩ := k
  refine ⟨fun o ho => (kregs o ho).trans (hregs o ho), ?_⟩
  rw [← hrest, ← krest]

/-- A fold of steps that log does no more than one. -/
theorem onlyLogs_foldl {α : Type} {f : State → α → State} (hf : ∀ s a, onlyLogs s (f s a)) (l : List α) (s : State) :
    onlyLogs s (l.foldl f s) := by
  induction l generalizing s with
  | nil => exact onlyLogs_refl s
  | cons a l ih => exact onlyLogs_trans (hf s a) (ih _)

/-! ## Messages to the host -/

theorem onlyLogs_fnSend (fn : Nat) (m : HostOut) (s : State) : onlyLogs s (fnSend fn m s) := ⟨fun _ _ => rfl, rfl⟩

theorem onlyLogs_telem (k : Telem) (s : State) : onlyLogs s { s with telem := k } := ⟨fun _ _ => rfl, rfl⟩

/-- A held message sets a bit of a PBA, of the physical function or above its 256 MiB. -/
theorem onlyLogs_sendMsix (fn vec : Nat) (s : State) : onlyLogs s (sendMsix fn vec s) := by
  unfold sendMsix
  split
  · exact onlyLogs_refl s
  · rename_i hvec
    split
    · refine ⟨fun o ho => rget_rset_other _ _ ?_, by simp⟩
      by_cases hfn : fn = 0
      · simp only [fnVectors, hfn, if_true] at hvec ⊢
        omega
      · simp only [hfn, if_false, vfKey]
        omega
    · exact onlyLogs_fnSend _ _ s

theorem onlyLogs_sumSignal (s : State) : onlyLogs s (sumSignal s) := by
  unfold sumSignal
  dsimp only
  split
  · exact onlyLogs_trans (onlyLogs_telem _ s) (onlyLogs_sendMsix _ _ _)
  · exact onlyLogs_telem _ s

theorem onlyLogs_telPut (r : TelRec) (s : State) : onlyLogs s (telPut r s) := by
  have hput : ∀ m n k, onlyLogs s (fnSend 0 m { fnSend 0 n s with telem := k }) := fun _ _ _ => ⟨fun _ _ => rfl, rfl⟩
  unfold telPut
  dsimp only
  split
  · exact onlyLogs_trans (hput _ _ _) (onlyLogs_sumSignal _)
  · exact onlyLogs_trans (hput _ _ _) (onlyLogs_sendMsix _ _ _)

theorem onlyLogs_telEmit (r : TelRec) (s : State) : onlyLogs s (telEmit r s) := by
  unfold telEmit
  dsimp only
  split
  · exact onlyLogs_telPut r s
  · split
    · split
      · exact onlyLogs_telem _ s
      · exact onlyLogs_refl s
    · split <;> exact onlyLogs_telem _ s

theorem onlyLogs_evSignal (p : Nat) (s : State) : onlyLogs s (evSignal p s) := by
  unfold evSignal
  dsimp only
  split
  · exact onlyLogs_trans (onlyLogs_telem _ s) (onlyLogs_sendMsix _ _ _)
  · exact onlyLogs_telem _ s

theorem onlyLogs_partEvent (p cls code seq hub : Nat) (s : State) : onlyLogs s (partEvent p cls code seq hub s) := by
  unfold partEvent
  dsimp only
  split
  · exact onlyLogs_trans (onlyLogs_telEmit _ s) (onlyLogs_evSignal _ _)
  · exact onlyLogs_telEmit _ s

/-! ## The error log and the fatal state -/

theorem onlyLogs_hset (h : Nat) (v : HubSt) (s : State) : onlyLogs s (hset h v s) := ⟨fun _ _ => rfl, rfl⟩

theorem onlyLogs_hubSignal (h : Nat) (s : State) : onlyLogs s (hubSignal h s) := by
  unfold hubSignal
  dsimp only
  split
  · exact onlyLogs_trans (onlyLogs_hset _ _ s) (onlyLogs_sendMsix _ _ _)
  · exact onlyLogs_hset _ _ s

theorem onlyLogs_tallyHub (h evt n : Nat) (tx : Option Tx) (s : State) : onlyLogs s (tallyHub h evt n tx s) :=
  ⟨fun _ _ => rget_tallyHub _ _ _ _ _ _, by simp⟩

theorem onlyLogs_errNotice (e : ErrEv) (s : State) : onlyLogs s (errNotice e s) := by
  have hcount : ∀ b : Bool, onlyLogs s (tallyHub e.hub 0x0540 1 none (if b then hubSignal e.hub s else s)) := fun b => by
    cases b with
    | true => exact onlyLogs_trans (onlyLogs_hubSignal _ s) (onlyLogs_tallyHub _ _ _ _ _)
    | false => exact onlyLogs_tallyHub _ _ _ _ _
  unfold errNotice
  dsimp only
  split
  · exact onlyLogs_trans (hcount _) (onlyLogs_partEvent _ _ _ _ _ _)
  · exact hcount _

theorem onlyLogs_haltReqCore (c : Nat) (s : State) : onlyLogs s (haltReqCore c s) := by
  unfold haltReqCore
  split
  · split
    · exact ⟨fun _ _ => rget_squpd _ _ _ _, by simp⟩
    · exact onlyLogs_refl s
  · exact ⟨fun _ _ => by simp [discardUnstarted], by simp [discardUnstarted]⟩

theorem onlyLogs_enterFatal (s : State) : onlyLogs s (enterFatal s) := by
  have hflags : onlyLogs s { s with fatal := true, faultN := true } := ⟨fun _ _ => rfl, rfl⟩
  exact onlyLogs_trans hflags
    (onlyLogs_foldl (f := fun s (e : Nat × CoreSt) => haltReqCore e.1 s) (fun s e => onlyLogs_haltReqCore e.1 s) s.cores _)

/-- What logging an error can do, whatever its class (R407 to R409). -/
theorem onlyLogs_logErr (e : ErrEv) (s : State) : onlyLogs s (logErr e s) := by
  unfold logErr
  dsimp only
  generalize (if (hget s e.hub).lost = true then { e with hub := 0 } else e) = e'
  split
  · exact onlyLogs_trans (onlyLogs_hset _ _ s) (onlyLogs_trans (onlyLogs_errNotice _ _) (onlyLogs_enterFatal _))
  · exact onlyLogs_trans (onlyLogs_hset _ _ s) (onlyLogs_errNotice _ _)

/-! ## What stays of the fabric -/

/-- The fabric's state, the logical map and the registers of the hub windows are as before. -/
def fabricKept (s t : State) : Prop :=
  t.fab = s.fab ∧ t.map = s.map ∧ ∀ o, 0x9000000 ≤ o → o < 0xA000000 → rget t o = rget s o

theorem fabricKept_refl (s : State) : fabricKept s s := ⟨rfl, rfl, fun _ _ _ => rfl⟩

theorem fabricKept_trans {s t u : State} (h : fabricKept s t) (k : fabricKept t u) : fabricKept s u := by
  obtain ⟨hfab, hmap, hregs⟩ := h
  obtain ⟨kfab, kmap, kregs⟩ := k
  exact ⟨kfab.trans hfab, kmap.trans hmap, fun o hlo hhi => (kregs o hlo hhi).trans (hregs o hlo hhi)⟩

theorem fabricKept_logErr (e : ErrEv) (s : State) : fabricKept s (logErr e s) := by
  obtain ⟨hregs, hrest⟩ := onlyLogs_logErr e s
  exact ⟨(congrArg State.fab hrest :), (congrArg State.map hrest :), fun o _ _ => hregs o (by omega)⟩

/-! ## Cluster SRAM -/

/-- The registers of a cluster lie in its tower's window (R52). -/
theorem fabricKept_cluUpd {k o : Nat} (f : Word → Word) (s : State) (hk : k < 256) (ho : o < 0x1000) :
    fabricKept s (cluUpd k o f s) :=
  ⟨cluUpd_fab _ _ _ _, cluUpd_map _ _ _ _, fun o _ _ => rget_rset_other _ _ (by simp only [cluBase, towerBase]; omega)⟩

section
variable {k : Nat} (hk : k < 256)
include hk

theorem fabricKept_csRead (b : Nat) (s : State) : fabricKept s (csRead k b s).2 := by
  unfold csRead
  split
  · exact fabricKept_cluUpd _ s hk (by decide)
  · split
    · exact fabricKept_refl s
    · exact fabricKept_trans (fabricKept_cluUpd _ s hk (by decide)) (fabricKept_logErr _ _)
    · exact fabricKept_refl s
    · exact fabricKept_trans (fabricKept_cluUpd _ s hk (by decide)) (fabricKept_logErr _ _)

theorem fabricKept_csReadBlocks (l : List Nat) (s : State) : fabricKept s (csReadBlocks k l s).2 := by
  induction l generalizing s with
  | nil => exact fabricKept_refl s
  | cons b l ih => exact fabricKept_trans (fabricKept_csRead hk b s) (ih _)

theorem fabricKept_csReadBytes (off n : Nat) (s : State) : fabricKept s (csReadBytes k off n s).2 := by
  unfold csReadBytes
  split
  · exact fabricKept_refl s
  · dsimp only
    split <;> exact fabricKept_csReadBlocks hk _ s

omit hk in
theorem fabricKept_csStore (b : Nat) (d chk : List Byte) (s : State) : fabricKept s (csStore k b d chk s) :=
  ⟨rfl, rfl, fun _ _ _ => rfl⟩

theorem fabricKept_csWriteIn (b off : Nat) (v : List Byte) (s : State) : fabricKept s (csWriteIn k b off v s) := by
  unfold csWriteIn
  split
  · exact fabricKept_csStore _ _ _ s
  · split
    · exact fabricKept_csStore _ _ _ s
    · dsimp only
      split <;> exact fabricKept_trans (fabricKept_csRead hk b s) (fabricKept_csStore _ _ _ _)

theorem fabricKept_csWriteFrom (n off : Nat) (v : List Byte) (s : State) : fabricKept s (csWriteFrom k n off v s) := by
  induction n generalizing off v s with
  | zero => exact fabricKept_refl s
  | succ n ih =>
    cases v with
    | nil => exact fabricKept_refl s
    | cons b v => exact fabricKept_trans (fabricKept_csWriteIn hk _ _ _ s) (ih _ _ _)

/-! ## The control block of a stream (R341, R343) -/

omit hk in
theorem fabricKept_hubRefused (h reason : Nat) (w : Who) (s : State) : fabricKept s (hubRefused h reason w s) :=
  ⟨rfl, rfl, fun _ _ _ => rfl⟩

/-- A refused access of a stream's agent is counted at its cluster and recorded at its hub's interface. -/
theorem fabricKept_agentRefuse (i : Nat) (r : Nat × Nat) (s : State) : fabricKept s (agentRefuse k i r s) := by
  have hcount : fabricKept s (countRaw (.sram k 0) r.2 s) := by
    unfold countRaw
    dsimp only
    split
    · exact fabricKept_cluUpd _ s hk (by decide)
    · exact fabricKept_refl s
  unfold agentRefuse
  split
  · exact fabricKept_refl s
  · exact fabricKept_trans hcount (fabricKept_hubRefused _ _ _ _)

theorem fabricKept_strmWord (i w : Nat) (s : State) : fabricKept s (strmWord k i w s).2 := by
  unfold strmWord
  dsimp only
  split
  · exact fabricKept_refl s
  · split
    · exact fabricKept_agentRefuse hk _ _ s
    · exact fabricKept_csReadBytes hk _ _ s

theorem fabricKept_strmPut (i w v : Nat) (s : State) : fabricKept s (strmPut k i w v s) := by
  unfold strmPut
  dsimp only
  split
  · exact fabricKept_refl s
  · split
    · exact fabricKept_agentRefuse hk _ _ s
    · exact fabricKept_csWriteFrom hk _ _ _ s

theorem fabricKept_strmFail (i status : Nat) (s : State) : fabricKept s (strmFail k i status s) := by
  unfold strmFail
  split
  · exact fabricKept_refl s
  · exact fabricKept_trans (fabricKept_strmWord hk i 2 s) (fabricKept_strmPut hk i 2 _ _)

end

end Sys2Proof.Machine
end

section
/-! The link layer of a fabric port: its registers and its record, and what sending, replay and acknowledgements leave of what the port
has received (R326 to R328). -/

namespace Sys2Proof.Machine

/-! ## Fields of a register word -/

/-- A replaced field leaves the bits above it. -/
theorem putFld_div_above {hi lo : Nat} (w v : Nat) (hlo : lo ≤ hi) : putFld w hi lo v / 2 ^ (hi + 1) = w / 2 ^ (hi + 1) := by
  have hsplit : 2 ^ (hi + 1) = 2 ^ lo * 2 ^ (hi + 1 - lo) := by rw [← Nat.pow_add]; congr 1; omega
  have hfld : w / 2 ^ lo - fld w hi lo = 2 ^ (hi + 1 - lo) * (w / 2 ^ lo / 2 ^ (hi + 1 - lo)) := by
    have hdiv := Nat.div_add_mod (w / 2 ^ lo) (2 ^ (hi + 1 - lo))
    rw [← fld_eq_div_mod] at hdiv
    omega
  rw [hsplit, ← Nat.div_div_eq_div_mul, ← Nat.div_div_eq_div_mul, putFld, Nat.add_mul_div_right _ _ (Nat.two_pow_pos lo),
    Nat.mul_comm (fld w hi lo), Nat.sub_mul_div, hfld, Nat.mul_add_div (Nat.two_pow_pos _),
    Nat.div_eq_of_lt (Nat.mod_lt _ (Nat.two_pow_pos _)), Nat.add_zero]

theorem wFld_wPut_above {hi lo hi' lo' : Nat} (w : Word) (v : Nat) (hlo : lo ≤ hi) (habove : hi < lo') (hlo' : lo' ≤ hi')
    (hhi' : hi' < 32) : wFld (wPut w hi lo v) hi' lo' = wFld w hi' lo' := by
  have hsplit : 2 ^ lo' = 2 ^ (hi + 1) * 2 ^ (lo' - (hi + 1)) := by rw [← Nat.pow_add]; congr 1; omega
  rw [wPut, wFld_ofNat _ hhi' hlo', wFld, fld_eq_div_mod, fld_eq_div_mod, hsplit, ← Nat.div_div_eq_div_mul,
    ← Nat.div_div_eq_div_mul, putFld_div_above _ _ hlo]

/-! ## Registers and state of a port -/

/-- The registers of a port lie in its hub's window, above HUB_ID (Table FAB.13). -/
theorem fportKey_bounds {p o : Nat} (hp : p < 16) (ho : o < 16) :
    0x9000000 ≤ fportKey p o ∧ fportKey p o < 0xA000000 ∧ fportKey p o ≠ hubBase (p / 4) := by
  simp only [fportKey, hubBase]
  omega

theorem fportKey_zero_ne_four (p : Nat) : fportKey p 0 ≠ fportKey p 4 := by
  simp only [fportKey]
  omega

/-- GLB_OE_PRESENT and HUB_ID are no registers of a port. -/
theorem rget_publishPort {p o : Nat} (s : State) (hp : p < 16) (ho : o < 16) :
    rget (publishPort p s) (fportKey p o) = rget s (fportKey p o) := by
  obtain ⟨hlo, -, hne⟩ := fportKey_bounds hp ho
  exact (rget_rset_other _ _ hne).trans (rget_rset_other _ _ (by omega))

@[simp] theorem publishPort_fab (p : Nat) (s : State) : (publishPort p s).fab = s.fab := by simp [publishPort]

@[simp] theorem setPortState_fab (p st : Nat) (s : State) : (setPortState p st s).fab = s.fab := by simp [setPortState]

@[simp] theorem setPortState_map (p st : Nat) (s : State) : (setPortState p st s).map = s.map := by
  simp [setPortState, publishPort]

theorem portState_setPortState {p st : Nat} (s : State) (hp : p < 16) (hst : st < 8) :
    portState (setPortState p st s) p = st := by
  rw [portState, setPortState, rget_publishPort _ hp (by decide), rupd, rget_rset_same, wFld_wPut_same _ _ (by decide) (by decide)]
  exact Nat.mod_eq_of_lt hst

theorem rget_setPortState_four {p st : Nat} (s : State) (hp : p < 16) :
    rget (setPortState p st s) (fportKey p 4) = rget s (fportKey p 4) := by
  rw [setPortState, rget_publishPort _ hp (by decide), rupd, rget_rset_other _ _ (fportKey_zero_ne_four p).symm]

/-- An event that a port logs leaves every port's registers and the fabric's state. -/
theorem fabricKept_portErr (p code detail : Nat) (s : State) : fabricKept s (portErr p code detail s) := fabricKept_logErr _ s

theorem rget_fport_of_fabricKept {s t : State} {p o : Nat} (h : fabricKept s t) (hp : p < 16) (ho : o < 16) :
    rget t (fportKey p o) = rget s (fportKey p o) := by
  obtain ⟨-, -, hregs⟩ := h
  obtain ⟨hlo, hhi, -⟩ := fportKey_bounds hp ho
  exact hregs _ hlo hhi

theorem portState_of_fabricKept {s t : State} {p : Nat} (h : fabricKept s t) (hp : p < 16) : portState t p = portState s p := by
  rw [portState, portState, rget_fport_of_fabricKept h hp (by decide)]

/-! ## The link layer's record of a port -/

theorem fport_of_fab {s t : State} (h : t.fab = s.fab) (q : Nat) : fport t q = fport s q := by simp only [fport, h]

@[simp] theorem fport_fportSet_same (p : Nat) (u : FPort) (s : State) : fport (fportSet p u s) p = u := stGet_stSet_same _ _ _ _

theorem fport_fportSet_other {p q : Nat} (u : FPort) (s : State) (h : q ≠ p) : fport (fportSet p u s) q = fport s q :=
  stGet_stSet_other _ _ _ h

@[simp] theorem fport_fportUpd_same (p : Nat) (f : FPort → FPort) (s : State) : fport (fportUpd p f s) p = f (fport s p) :=
  fport_fportSet_same _ _ _

@[simp] theorem fport_rupd (o : Nat) (f : Word → Word) (s : State) (q : Nat) : fport (rupd o f s) q = fport s q :=
  fport_of_fab (rupd_fab _ _ _) q

@[simp] theorem fport_rset (o : Nat) (w : Word) (s : State) (q : Nat) : fport (rset o w s) q = fport s q :=
  fport_of_fab (rset_fab _ _ _) q

@[simp] theorem fport_tallyHub (h e n : Nat) (tx : Option Tx) (s : State) (q : Nat) : fport (tallyHub h e n tx s) q = fport s q :=
  fport_of_fab (tallyHub_fab _ _ _ _ _) q

@[simp] theorem rget_fportSet (p : Nat) (u : FPort) (s : State) (o : Nat) : rget (fportSet p u s) o = rget s o := rfl

@[simp] theorem rget_fportUpd (p : Nat) (f : FPort → FPort) (s : State) (o : Nat) : rget (fportUpd p f s) o = rget s o := rfl

/-! ## Sending -/

/-- A port once the credits that a flit returns are no longer owed (Table FAB.3). -/
def creditsSent (u : FPort) : FPort :=
  match creditPick u with
  | some (c, n) => { u with owed := u.owed.set c (listAt u.owed c 0 - 8 * n) }
  | none => u

/-- What a sent flit changes: the flits on the fibres and the port that sends. -/
theorem emitFlit_sends (p seq : Nat) (f : Option Flit) (nak : Bool) (s : State) :
    (emitFlit p seq f nak s).regs = s.regs ∧
    (emitFlit p seq f nak s).fab.flits =
      s.fab.flits ++ [(p, flitBytes (fport s p) seq f nak, f.any (fun g => g.poison))] ∧
    (emitFlit p seq f nak s).fab.inbox = s.fab.inbox ∧ (emitFlit p seq f nak s).fab.route = s.fab.route ∧
    (emitFlit p seq f nak s).fab.ports = (fportSet p (creditsSent (fport s p)) s).fab.ports := by
  have hfab : (emitFlit p seq f nak s).fab = { (fportSet p (creditsSent (fport s p)) s).fab with
      flits := s.fab.flits ++ [(p, flitBytes (fport s p) seq f nak, f.any (fun g => g.poison))] } := by
    unfold emitFlit
    split
    · rw [tallyHub_fab]; rfl
    · rfl
  have hregs : (emitFlit p seq f nak s).regs = s.regs := by
    unfold emitFlit
    split
    · rw [tallyHub_regs]; rfl
    · rfl
  rw [hfab]
  exact ⟨hregs, rfl, rfl, rfl, rfl⟩

theorem fport_emitFlit_same (p seq : Nat) (f : Option Flit) (nak : Bool) (s : State) :
    fport (emitFlit p seq f nak s) p = creditsSent (fport s p) := by
  obtain ⟨-, -, -, -, hports⟩ := emitFlit_sends p seq f nak s
  rw [fport, hports]
  exact fport_fportSet_same _ _ _

theorem fport_emitFlit_other {p q : Nat} (seq : Nat) (f : Option Flit) (nak : Bool) (s : State) (h : q ≠ p) :
    fport (emitFlit p seq f nak s) q = fport s q := by
  obtain ⟨-, -, -, -, hports⟩ := emitFlit_sends p seq f nak s
  rw [fport, hports]
  exact fport_fportSet_other _ _ h

/-- A port without what sending, credits and replay change: what it has received, and its wavelengths. -/
def receiveSide (u : FPort) : FPort :=
  { u with due := false, nextSeq := 0, replay := [], waiting := [], cred := [], owed := [], nakSeq := 0, naks := 0, stalled := [] }

@[simp] theorem receiveSide_creditsSent (u : FPort) : receiveSide (creditsSent u) = receiveSide u := by
  unfold creditsSent
  split <;> rfl

@[simp] theorem replay_creditsSent (u : FPort) : (creditsSent u).replay = u.replay := by
  unfold creditsSent
  split <;> rfl

/-- Only the sending side of port `p` has worked: no message has arrived, the routes and what the port has received stand, and of the
registers only its counts may differ. -/
def onlySends (p : Nat) (s t : State) : Prop :=
  (∀ o, o ≠ fportKey p 4 → rget t o = rget s o) ∧ t.fab.inbox = s.fab.inbox ∧ t.fab.route = s.fab.route ∧
    receiveSide (fport t p) = receiveSide (fport s p)

theorem onlySends_refl (p : Nat) (s : State) : onlySends p s s := ⟨fun _ _ => rfl, rfl, rfl, rfl⟩

theorem onlySends_trans {p : Nat} {s t u : State} (h : onlySends p s t) (k : onlySends p t u) : onlySends p s u := by
  obtain ⟨hregs, hinbox, hroute, hport⟩ := h
  obtain ⟨kregs, kinbox, kroute, kport⟩ := k
  exact ⟨fun o ho => (kregs o ho).trans (hregs o ho), kinbox.trans hinbox, kroute.trans hroute, kport.trans hport⟩

section
variable {p : Nat} {s t : State} (h : onlySends p s t)
include h

theorem rxSeq_of_onlySends : (fport t p).rxSeq = (fport s p).rxSeq := by
  obtain ⟨-, -, -, hport⟩ := h
  exact (congrArg FPort.rxSeq hport :)

theorem nakSent_of_onlySends : (fport t p).nakSent = (fport s p).nakSent := by
  obtain ⟨-, -, -, hport⟩ := h
  exact (congrArg FPort.nakSent hport :)

theorem rx_of_onlySends : (fport t p).rx = (fport s p).rx := by
  obtain ⟨-, -, -, hport⟩ := h
  exact (congrArg FPort.rx hport :)

theorem txOn_of_onlySends : (fport t p).txOn = (fport s p).txOn := by
  obtain ⟨-, -, -, hport⟩ := h
  exact (congrArg FPort.txOn hport :)

theorem rxOn_of_onlySends : (fport t p).rxOn = (fport s p).rxOn := by
  obtain ⟨-, -, -, hport⟩ := h
  exact (congrArg FPort.rxOn hport :)

/-- The routes and the device's own ID stand, so a look-up finds the same entry (R338). -/
theorem lookEntry_of_onlySends (cls dest : Nat) (head : List Byte) :
    lookEntry t cls dest head = lookEntry s cls dest head := by
  obtain ⟨hregs, -, hroute, -⟩ := h
  have hid : rget t (hubBase 0 + 0x40000) = rget s (hubBase 0 + 0x40000) :=
    hregs _ (by simp only [fportKey, hubBase]; omega)
  simp only [lookEntry, routeEntry, myId, hroute, hid]

end

theorem onlySends_fportSet {p : Nat} {u : FPort} (s : State) (hu : receiveSide u = receiveSide (fport s p)) :
    onlySends p s (fportSet p u s) :=
  ⟨fun _ _ => rfl, rfl, rfl, by rw [fport_fportSet_same, hu]⟩

theorem onlySends_tallyHub (p h e n : Nat) (tx : Option Tx) (s : State) : onlySends p s (tallyHub h e n tx s) :=
  ⟨fun _ _ => rget_tallyHub _ _ _ _ _ _, by rw [tallyHub_fab], by rw [tallyHub_fab], by rw [fport_tallyHub]⟩

theorem onlySends_rupd_counts (p : Nat) (f : Word → Word) (s : State) : onlySends p s (rupd (fportKey p 4) f s) :=
  ⟨fun _ ho => rget_rset_other _ _ ho, by rw [rupd_fab], by rw [rupd_fab], by rw [fport_rupd]⟩

theorem onlySends_emitFlit (p seq : Nat) (f : Option Flit) (nak : Bool) (s : State) : onlySends p s (emitFlit p seq f nak s) := by
  obtain ⟨hregs, -, hinbox, hroute, -⟩ := emitFlit_sends p seq f nak s
  exact ⟨fun o _ => by simp only [rget, hregs], hinbox, hroute, by rw [fport_emitFlit_same, receiveSide_creditsSent]⟩

theorem onlySends_grantAll (p n : Nat) (s : State) : onlySends p s (grantAll p n s) := by
  induction n generalizing s with
  | zero => exact onlySends_refl p s
  | succ n ih =>
    unfold grantAll
    split
    · exact onlySends_trans (onlySends_emitFlit _ _ _ _ s) (ih _)
    · exact onlySends_refl p s

theorem onlySends_pumpPort (p n : Nat) (s : State) : onlySends p s (pumpPort p n s) := by
  induction n generalizing s with
  | zero => exact onlySends_refl p s
  | succ n ih =>
    unfold pumpPort
    dsimp only
    split
    · exact onlySends_refl p s
    · split
      · exact onlySends_refl p s
      · split
        · exact onlySends_refl p s
        · refine onlySends_trans ?_ (ih _)
          refine onlySends_trans ?_ (onlySends_emitFlit _ _ _ _ _)
          exact onlySends_fportSet s rfl

theorem onlySends_pump (p : Nat) (s : State) : onlySends p s (pump p s) := onlySends_pumpPort _ _ s

theorem onlySends_replayAll (p : Nat) (s : State) : onlySends p s (replayAll p s) := by
  unfold replayAll
  generalize (fport s p).replay = l
  induction l generalizing s with
  | nil => exact onlySends_refl p s
  | cons e l ih => exact onlySends_trans (onlySends_emitFlit _ _ _ _ s) (ih _)

/-- The acknowledgement and the credits of a flit concern what the port has sent (R327, R328). -/
theorem onlySends_linkFields (p ack : Nat) (nak : Bool) (chan n : Nat) (s : State) :
    onlySends p s (linkFields p ack nak chan n s) := by
  unfold linkFields
  extract_lets v u k w
  have hack : onlySends p s v := onlySends_fportSet s rfl
  split
  · exact hack
  · have hcount : onlySends p v w := onlySends_trans (onlySends_rupd_counts p _ v) (onlySends_tallyHub p _ _ _ _ _)
    have hnak : ∀ u', receiveSide u' = receiveSide u → onlySends p s (fportSet p u' w) := fun u' hu => by
      refine onlySends_trans hack (onlySends_trans hcount (onlySends_fportSet w (hu.trans ?_)))
      obtain ⟨-, -, -, hport⟩ := hcount
      exact hport.symm
    split
    · refine onlySends_trans ?_ (onlySends_replayAll p _)
      exact hnak _ rfl
    · exact hnak _ rfl

end Sys2Proof.Machine
end

section
/-! A port that goes down, retrains or trains (R323, R328, R334, R335, R340). -/

namespace Sys2Proof.Machine

/-! ## The messages that a port drops -/

/-- What a store's search by value finds is one of its keys. -/
theorem mem_of_keyOf {st : Store Nat} {f : Nat → Bool} {v k : Nat} (h : keyOf st f v = some k) : ∃ e ∈ st, e.1 = k := by
  obtain ⟨e, hfind, hkey⟩ := Option.map_eq_some_iff.mp h
  exact ⟨e, List.mem_of_find?_eq_some hfind, hkey⟩

/-- A stream's name selects one of the device's 256 clusters. -/
theorem streamOf_cluster_lt {s : State} {d k i : Nat} (hmap : ∀ e ∈ s.map.cl, e.1 < 256) (h : streamOf s d = some (k, i)) :
    k < 256 := by
  obtain ⟨k', hphys, hk⟩ := Option.map_eq_some_iff.mp h
  obtain ⟨n, -, hkey⟩ := Option.bind_eq_some_iff.mp hphys
  obtain ⟨e, he, hek⟩ := mem_of_keyOf hkey
  obtain ⟨rfl, -⟩ := Prod.mk.inj hk
  exact hek ▸ hmap e he

/-- The ports' link layers, the map and the registers of port `p` stand, but for its counts of drops, stalls and NAKs. -/
def portKept (p : Nat) (s t : State) : Prop :=
  t.fab.ports = s.fab.ports ∧ t.map = s.map ∧ rget t (fportKey p 0) = rget s (fportKey p 0) ∧
    wFld (rget t (fportKey p 4)) 15 10 = wFld (rget s (fportKey p 4)) 15 10

theorem portKept_refl (p : Nat) (s : State) : portKept p s s := ⟨rfl, rfl, rfl, rfl⟩

theorem portKept_trans {p : Nat} {s t u : State} (h : portKept p s t) (k : portKept p t u) : portKept p s u := by
  obtain ⟨hports, hmap, hstat, hcount⟩ := h
  obtain ⟨kports, kmap, kstat, kcount⟩ := k
  exact ⟨kports.trans hports, kmap.trans hmap, kstat.trans hstat, kcount.trans hcount⟩

theorem portKept_of_fabricKept {p : Nat} {s t : State} (hp : p < 16) (h : fabricKept s t) : portKept p s t := by
  have hreg : ∀ o < 16, rget t (fportKey p o) = rget s (fportKey p o) := fun _ => rget_fport_of_fabricKept h hp
  obtain ⟨hfab, hmap, -⟩ := h
  exact ⟨by rw [hfab], hmap, hreg 0 (by decide), by rw [hreg 4 (by decide)]⟩

/-- The sender of a message that is not delivered learns of it in its control block or by a notice (R339, R343). -/
theorem portKept_refusePut {p : Nat} (head : List Byte) (cls src status : Nat) {s : State} (hp : p < 16)
    (hmap : ∀ e ∈ s.map.cl, e.1 < 256) : portKept p s (refusePut head cls src status s) := by
  unfold refusePut
  split
  · exact portKept_refl p s
  · split
    · split
      · rename_i k i hstream
        exact portKept_of_fabricKept hp (fabricKept_strmFail (streamOf_cluster_lt hmap hstream) i status s)
      · exact portKept_refl p s
    · exact ⟨rfl, rfl, rfl, rfl⟩

theorem portKept_dropMsg {p : Nat} (head : List Byte) (cls src : Nat) {s : State} (hp : p < 16)
    (hmap : ∀ e ∈ s.map.cl, e.1 < 256) : portKept p s (dropMsg p head cls src s) := by
  have hcount : portKept p s (rupd (fportKey p 4) (fun w => wSatAdd w 9 4 1) s) :=
    ⟨by rw [rupd_fab], rupd_map _ _ _, rget_rset_other _ _ (fportKey_zero_ne_four p), by
      rw [rupd, rget_rset_same, wSatAdd, wFld_wPut_above _ _ (by decide) (by decide) (by decide) (by decide)]⟩
  exact portKept_trans hcount (portKept_refusePut _ _ _ _ hp (by rwa [rupd_map]))

theorem portKept_dropMsg_foldl {p : Nat} (l : List Flit) {s : State} (hp : p < 16) (hmap : ∀ e ∈ s.map.cl, e.1 < 256) :
    portKept p s (l.foldl (fun s f => dropMsg p f.head (f.chan / 2) f.src s) s) := by
  induction l generalizing s with
  | nil => exact portKept_refl p s
  | cons f l ih =>
    have hdrop := portKept_dropMsg f.head (f.chan / 2) f.src hp hmap
    have hkept : (dropMsg p f.head (f.chan / 2) f.src s).map = s.map := by
      obtain ⟨-, hkept, -⟩ := hdrop
      exact hkept
    exact portKept_trans hdrop (ih (by rwa [hkept]))

/-! ## Going down -/

/-- A link layer that restarts: FAB_PORT's setting and the check pulses stay (R340, R463). -/
def linkRestarted (u : FPort) : FPort := { FPort.fresh with enabled := u.enabled, pulses := u.pulses }

/-- A port that goes down shows its new state, holds no flits and has trained no more often than before. -/
theorem portDown_restarts {p st : Nat} {s : State} (hp : p < 16) (hst : st < 8) (hmap : ∀ e ∈ s.map.cl, e.1 < 256) :
    portState (portDown p st s) p = st ∧ fport (portDown p st s) p = linkRestarted (fport s p) ∧
      wFld (rget (portDown p st s) (fportKey p 4)) 15 10 = wFld (rget s (fportKey p 4)) 15 10 := by
  unfold portDown
  extract_lets u gone
  have hdrops : portKept p (setPortState p st s)
      (gone.foldl (fun s f => dropMsg p f.head (f.chan / 2) f.src s) (setPortState p st s)) :=
    portKept_dropMsg_foldl gone hp (by rwa [setPortState_map])
  obtain ⟨hports, -, hstat, hcount⟩ := hdrops
  refine ⟨?_, ?_, ?_⟩
  · have hstate := portState_setPortState s hp hst
    rwa [portState, ← hstat] at hstate
  · rw [portRestart, fport_fportUpd_same, fport, hports, setPortState_fab]
    rfl
  · rw [portRestart, rget_fportUpd, hcount, rget_setPortState_four s hp]

/-- What the error log records of the event leaves the port as it went down. -/
theorem portDown_portErr_restarts {p st : Nat} (code detail : Nat) {s : State} (hp : p < 16) (hst : st < 8)
    (hmap : ∀ e ∈ s.map.cl, e.1 < 256) : ∃ t, t = portErr p code detail (portDown p st s) ∧ portState t p = st ∧
      fport t p = linkRestarted (fport s p) ∧ wFld (rget t (fportKey p 4)) 15 10 = wFld (rget s (fportKey p 4)) 15 10 := by
  obtain ⟨hstate, hport, hcount⟩ := portDown_restarts hp hst hmap
  have hlog := fabricKept_portErr p code detail (portDown p st s)
  refine ⟨_, rfl, (portState_of_fabricKept hlog hp).trans hstate, ?_, ?_⟩
  · obtain ⟨hfab, -⟩ := hlog
    exact (fport_of_fab hfab p).trans hport
  · rw [rget_fport_of_fabricKept hlog hp (by decide), hcount]

/-- Loss of received light takes a port down at once (R335). -/
theorem lossOfLight_takes_down {p : Fin 16} {s : State} (hstate : portState s p = 3 ∨ portState s p = 4)
    (hmap : ∀ e ∈ s.map.cl, e.1 < 256) : ∃ t, exec (.lossOfLight p) s = .next t ∧ portState t p = 5 ∧
      fport t p = linkRestarted (fport s p) ∧ wFld (rget t (fportKey p 4)) 15 10 = wFld (rget s (fportKey p 4)) 15 10 := by
  obtain ⟨t, ht, hdown⟩ := portDown_portErr_restarts 0x0210 5 p.isLt (by decide : 5 < 8) hmap
  refine ⟨t, ?_, hdown⟩
  show execLossOfLight p s = _
  simp [execLossOfLight, hstate, ht]

/-! ## Retraining -/

/-- A port that retrains keeps its waiting flits (R334). -/
theorem portRetrain_retrains {p : Nat} (s : State) (hp : p < 16) : portState (portRetrain p s) p = 4 ∧
    fport (portRetrain p s) p = { fport s p with due := false } ∧ (portRetrain p s).fab.inbox = s.fab.inbox := by
  unfold portRetrain
  extract_lets v
  have hlog := fabricKept_portErr p 0x0210 4 (rupd (fportKey p 4) (fun w => wSatAdd w 15 10 1) v)
  have hstate : portState (rupd (fportKey p 4) (fun w => wSatAdd w 15 10 1) v) p = portState v p := by
    rw [portState, portState, rupd, rget_rset_other _ _ (fportKey_zero_ne_four p)]
  refine ⟨?_, ?_, ?_⟩
  · rw [portState_of_fabricKept hlog hp, hstate, portState_setPortState _ hp (by decide)]
  · obtain ⟨hfab, -⟩ := hlog
    rw [fport_of_fab hfab, fport_rupd, fport_of_fab (setPortState_fab _ _ _), fport_fportUpd_same]
  · obtain ⟨hfab, -⟩ := hlog
    rw [hfab, rupd_fab, setPortState_fab]
    rfl

theorem exec_portRetrain {p : Fin 16} {s : State} (hdue : (fport s p).due = true)
    (hstate : portState s p = 3 ∨ portState s p = 5) : exec (.portRetrain p) s = .next (portRetrain p s) := by
  show execPortRetrain p s = _
  simp [execPortRetrain, hdue, hstate]

/-! ## The end of a training -/

theorem portWidth_le (ucie good : Nat) : portWidth ucie good ≤ 8 := by
  unfold portWidth
  dsimp only
  generalize min (pop8 good) _ = m
  split_ifs <;> decide

/-- The fields of FAB_PORT_STAT that a training shows: up where both directions have a width (R323). -/
theorem fld_portWord {f : EngineFind} (hq : f.qualified = true) :
    fld (portWord f) 31 29 = (if portWidth f.ucie f.tx ≠ 0 ∧ portWidth f.ucie f.rx ≠ 0 then 3 else 0) ∧
    fld (portWord f) 26 23 = portWidth f.ucie f.tx ∧ fld (portWord f) 22 19 = portWidth f.ucie f.rx := by
  have ht := portWidth_le f.ucie f.tx
  have hr := portWidth_le f.ucie f.rx
  unfold portWord
  simp only [hq, fld_eq_div_mod]
  generalize portWidth f.ucie f.tx = t at ht
  generalize portWidth f.ucie f.rx = r at hr
  simp only [Bool.not_true, Bool.false_eq_true, if_false, Bool.and_eq_true, decide_eq_true_eq]
  by_cases hup : t ≠ 0 ∧ r ≠ 0
  · simp only [if_pos hup]
    omega
  · simp only [if_neg hup]
    omega

/-- The state of a port once its training has shown the word that it found, before the link layer goes on. -/
def trainedAt (p tx rx : Nat) (s : State) : State :=
  rset (fportKey p 0) (BitVec.ofNat 32 (trainedWord s p tx rx)) (fportUpd p (fun u => { u with
    txOn := lanesUsed (fld (trainedWord s p tx rx) 26 23) tx, rxOn := lanesUsed (fld (trainedWord s p tx rx) 22 19) rx }) s)

theorem trainDone_eq (p tx rx : Nat) (s : State) : trainDone p tx rx s =
    if fld (trainedWord s p tx rx) 31 29 == 3 then grantAll p 32 (pump p (replayAll p (publishPort p (trainedAt p tx rx s))))
    else portErr p 0x0210 0 (portDown p 0 (trainedAt p tx rx s)) := rfl

theorem fport_trainedAt (p tx rx : Nat) (s : State) : fport (trainedAt p tx rx s) p = { fport s p with
    txOn := lanesUsed (fld (trainedWord s p tx rx) 26 23) tx, rxOn := lanesUsed (fld (trainedWord s p tx rx) 22 19) rx } := by
  rw [trainedAt, fport_rset, fport_fportUpd_same]

/-- The word of a training carries the widths of the wavelengths that qualify. -/
theorem fld_trainedWord (p tx rx : Nat) (s : State) (htx : tx < 256) (hrx : rx < 256) :
    let ucie := wFld (rget s (fportKey p 0)) 28 27
    fld (trainedWord s p tx rx) 31 29 = (if portWidth ucie tx ≠ 0 ∧ portWidth ucie rx ≠ 0 then 3 else 0) ∧
    fld (trainedWord s p tx rx) 26 23 = portWidth ucie tx ∧ fld (trainedWord s p tx rx) 22 19 = portWidth ucie rx := by
  have h := fld_portWord (f := ⟨0, true, wFld (rget s (fportKey p 0)) 28 27, tx % 256, rx % 256⟩) rfl
  simpa only [trainedWord, Nat.mod_eq_of_lt htx, Nat.mod_eq_of_lt hrx] using h

theorem exec_portRetrainDone {p : Fin 16} {tx rx : BitVec 8} {s : State} (hstate : portState s p = 4 ∨ portState s p = 2) :
    exec (.portRetrainDone p tx rx) s = .next (trainDone p tx.toNat rx.toNat s) := by
  show execPortRetrainDone p tx rx s = _
  simp [execPortRetrainDone, hstate]

/-- A training that finds a width in both directions brings the port up, and replay resumes (R328). -/
theorem trainDone_up {p tx rx : Nat} (s : State) (hp : p < 16) (htx : tx < 256) (hrx : rx < 256)
    (ht : portWidth (wFld (rget s (fportKey p 0)) 28 27) tx ≠ 0) (hr : portWidth (wFld (rget s (fportKey p 0)) 28 27) rx ≠ 0) :
    rget (trainDone p tx rx s) (fportKey p 0) = BitVec.ofNat 32 (trainedWord s p tx rx) ∧
    onlySends p (publishPort p (trainedAt p tx rx s)) (trainDone p tx rx s) := by
  obtain ⟨hup, -, -⟩ := fld_trainedWord p tx rx s htx hrx
  rw [if_pos ⟨ht, hr⟩] at hup
  rw [trainDone_eq, hup, if_pos (by decide)]
  have hsends : onlySends p (publishPort p (trainedAt p tx rx s))
      (grantAll p 32 (pump p (replayAll p (publishPort p (trainedAt p tx rx s))))) :=
    onlySends_trans (onlySends_replayAll p _) (onlySends_trans (onlySends_pump p _) (onlySends_grantAll p 32 _))
  refine ⟨?_, hsends⟩
  obtain ⟨hregs, -⟩ := hsends
  rw [hregs _ (fportKey_zero_ne_four p), rget_publishPort _ hp (by decide), trainedAt, rget_rset_same]

/-- A training without a width in a direction leaves the port down (R334). -/
theorem trainDone_down {p tx rx : Nat} (s : State) (hp : p < 16) (htx : tx < 256) (hrx : rx < 256)
    (hmap : ∀ e ∈ s.map.cl, e.1 < 256) (hnone : portWidth (wFld (rget s (fportKey p 0)) 28 27) tx = 0 ∨
      portWidth (wFld (rget s (fportKey p 0)) 28 27) rx = 0) :
    portState (trainDone p tx rx s) p = 0 ∧ (fport (trainDone p tx rx s) p).replay = [] ∧
      (fport (trainDone p tx rx s) p).waiting = [] := by
  obtain ⟨hdown, -, -⟩ := fld_trainedWord p tx rx s htx hrx
  rw [if_neg (by tauto)] at hdown
  rw [trainDone_eq, hdown, if_neg (by decide)]
  obtain ⟨t, ht, hstate, hport, -⟩ :=
    portDown_portErr_restarts (s := trainedAt p tx rx s) 0x0210 0 hp (by decide : 0 < 8) (by rwa [trainedAt, rset_map])
  rw [← ht, hport]
  exact ⟨hstate, rfl, rfl⟩

end Sys2Proof.Machine
end

section
/-! A flit that arrives (R326 to R328, R338), and the link layer of a fabric port as a whole. -/

namespace Sys2Proof.Machine

/-! ## Receiving flits -/

/-- The flit that 256 bytes spell (Table FAB.3). -/
def flitOf (b : List Byte) (poison : Bool) : Flit :=
  { chan := 2 * fld (leAt b 0 1) 3 2 + fld (leAt b 0 1) 4 4, first := bitAt (leAt b 0 1) 0, last := bitAt (leAt b 0 1) 1
    dest := leAt b 2 3 % 2 ^ 18, src := leAt b 5 3 % 2 ^ 18
    payload := (b.drop 8).take (min 240 (8 * (leAt b 1 1 % 32))), poison := poison, head := [] }

/-- A good flit's acknowledgement and credits are taken. -/
def flitAcked (p : Nat) (b : List Byte) (s : State) : State :=
  linkFields p (leAt b 250 2 % 4096) (bitAt (leAt b 250 2) 15) (fld (leAt b 0 1) 7 5) (leAt b 1 1 / 32) s

/-- A flit that is not idle is counted besides. -/
def flitCounted (p : Nat) (b : List Byte) (s : State) : State := tallyHub (p / 4) 0x0521 1 none (flitAcked p b s)

/-- The flit's number becomes the last one received in order. -/
def flitNumbered (p : Nat) (b : List Byte) (s : State) : State :=
  fportSet p { fport (flitCounted p b s) p with rxSeq := leAt b 248 2 % 4096, nakSent := false } (flitCounted p b s)

/-- Waiting flits go out, and an idle flit acknowledges where none did since `n` had been sent. -/
def flitAnswered (p n : Nat) (s : State) : State :=
  if (pump p s).fab.flits.length = n then emitIdle p false (pump p s) else pump p s

theorem onlySends_flitAnswered (p n : Nat) (s : State) : onlySends p s (flitAnswered p n s) := by
  unfold flitAnswered
  split
  · exact onlySends_trans (onlySends_pump p s) (onlySends_emitFlit _ _ _ _ _)
  · exact onlySends_pump p s

theorem onlySends_flitCounted (p : Nat) (b : List Byte) (s : State) : onlySends p s (flitCounted p b s) :=
  onlySends_trans (onlySends_linkFields _ _ _ _ _ s) (onlySends_tallyHub _ _ _ _ _ _)

theorem flitReceive_bad {p : Nat} {b : List Byte} {fec : Bool} (poison : Bool) (s : State)
    (hbad : fec = true ∨ crc32c (b.take 252) ≠ leAt b 252 4) :
    flitReceive p b fec poison s = emitIdle p true (fportUpd p (fun u => { u with nakSent := true }) s) := by
  unfold flitReceive
  rw [if_pos (by simpa using hbad)]

/-- A good flit that is not idle joins its message where its number follows the last one. -/
theorem flitReceive_good {p : Nat} {b : List Byte} (poison : Bool) (s : State) (hcrc : crc32c (b.take 252) = leAt b 252 4)
    (hbusy : fld (leAt b 0 1) 1 0 ≠ 0 ∨ leAt b 1 1 % 32 ≠ 0) :
    flitReceive p b false poison s = flitAnswered p (flitAcked p b s).fab.flits.length
      (if leAt b 248 2 % 4096 ≠ ((fport s p).rxSeq + 1) % 4096 then flitCounted p b s
        else takeFlit p (flitOf b poison) (flitNumbered p b s)) := by
  have hidle : ¬(decide (fld (leAt b 0 1) 1 0 = 0) && decide (leAt b 1 1 % 32 = 0)) = true := by
    simpa [imp_iff_not_or] using hbusy
  rw [← rxSeq_of_onlySends (onlySends_flitCounted p b s)]
  unfold flitReceive
  rw [if_neg (by simp [hcrc])]
  exact if_neg hidle

/-- A good flit out of order is ignored (R328). -/
theorem flitReceive_outOfOrder {p : Nat} {b : List Byte} (poison : Bool) {s : State}
    (hcrc : crc32c (b.take 252) = leAt b 252 4) (hbusy : fld (leAt b 0 1) 1 0 ≠ 0 ∨ leAt b 1 1 % 32 ≠ 0)
    (hseq : leAt b 248 2 % 4096 ≠ ((fport s p).rxSeq + 1) % 4096) : onlySends p s (flitReceive p b false poison s) := by
  rw [flitReceive_good poison s hcrc hbusy, if_pos hseq]
  exact onlySends_trans (onlySends_flitCounted p b s) (onlySends_flitAnswered p _ _)

/-- A flit that begins and ends its message completes it, with the route entry of its one look-up (R338). -/
theorem takeFlit_whole {p : Nat} {f : Flit} (s : State) (hfirst : f.first = true) (hlast : f.last = true) :
    (takeFlit p f s).fab.inbox = s.fab.inbox ++ [(p, gather [f] (lookEntry s (f.chan / 2) f.dest f.payload))] ∧
      (fport (takeFlit p f s) p).rxSeq = (fport s p).rxSeq ∧ (fport (takeFlit p f s) p).nakSent = (fport s p).nakSent := by
  have hport : fport (takeFlit p f s) p = { takeShared f.chan (fport s p) with
      rx := stDel (takeShared f.chan (fport s p)).rx f.chan, look := stDel (takeShared f.chan (fport s p)).look f.chan } := by
    simp only [takeFlit, hlast, if_true]
    exact fport_fportSet_same _ _ _
  rw [hport]
  refine ⟨?_, rfl, rfl⟩
  simp only [takeFlit, hfirst, hlast, if_true]
  rfl

/-- What a whole message in one flit spells. -/
theorem gather_single (f : Flit) (e : Nat) : (gather [f] e).entry = e ∧ (gather [f] e).cls = f.chan / 2 ∧
    (gather [f] e).vc = f.chan % 2 ∧ (gather [f] e).dest = f.dest ∧ (gather [f] e).src = f.src ∧
    (gather [f] e).bytes = f.payload.take (32 + mLen f.payload) := by
  simp [gather, listAt]

/-- A channel is two times its class and its virtual channel (R327). -/
theorem chan_flitOf (b : List Byte) (poison : Bool) : (flitOf b poison).chan / 2 = fld (leAt b 0 1) 3 2 ∧
    (flitOf b poison).chan % 2 = fld (leAt b 0 1) 4 4 := by
  have hvc : fld (leAt b 0 1) 4 4 < 2 := Nat.mod_lt _ (by decide)
  simp only [flitOf]
  omega

/-- Both low bits of a field of three are set. -/
theorem bitAt_of_fld_three {w : Nat} (h : fld w 1 0 = 3) : bitAt w 0 = true ∧ bitAt w 1 = true := by
  rw [fld_eq_div_mod] at h
  simp only [bitAt, Nat.shiftRight_eq_div_pow, beq_iff_eq]
  omega

/-- A good flit in order that is a whole message delivers it (R328). -/
theorem flitReceive_whole {p : Nat} {b : List Byte} (poison : Bool) {s : State}
    (hcrc : crc32c (b.take 252) = leAt b 252 4) (hwhole : fld (leAt b 0 1) 1 0 = 3)
    (hseq : leAt b 248 2 % 4096 = ((fport s p).rxSeq + 1) % 4096) :
    let f := flitOf b poison
    let t := flitReceive p b false poison s
    t.fab.inbox = s.fab.inbox ++ [(p, gather [f] (lookEntry s (f.chan / 2) f.dest f.payload))] ∧
      (fport t p).rxSeq = leAt b 248 2 % 4096 ∧ (fport t p).nakSent = false := by
  intro f t
  obtain ⟨hfirst, hlast⟩ := bitAt_of_fld_three hwhole
  obtain ⟨hinbox, hrx, hnak⟩ := takeFlit_whole (p := p) (f := f) (flitNumbered p b s) hfirst hlast
  have hcount := onlySends_flitCounted p b s
  have hlook : ∀ c d l, lookEntry (flitNumbered p b s) c d l = lookEntry s c d l := fun c d l => by
    rw [← lookEntry_of_onlySends hcount]
    rfl
  have hanswer : onlySends p (takeFlit p f (flitNumbered p b s)) t := by
    have ht : t = flitAnswered p (flitAcked p b s).fab.flits.length (takeFlit p f (flitNumbered p b s)) := by
      have h := flitReceive_good (p := p) poison s hcrc (.inl (by omega))
      rwa [if_neg (not_not.mpr hseq)] at h
    exact ht ▸ onlySends_flitAnswered p _ _
  have hnumbered : fport (flitNumbered p b s) p =
    { fport (flitCounted p b s) p with rxSeq := leAt b 248 2 % 4096, nakSent := false } := fport_fportSet_same _ _ _
  refine ⟨?_, ?_, ?_⟩
  · obtain ⟨-, hsame, -⟩ := hanswer
    obtain ⟨-, hbefore, -⟩ := hcount
    rw [hsame, hinbox, hlook]
    exact congrArg (· ++ _) hbefore
  · rw [rxSeq_of_onlySends hanswer, hrx, hnumbered]
  · rw [nakSent_of_onlySends hanswer, hnak, hnumbered]

theorem exec_flitReceive {p : Fin 16} {b : List Byte} {s : State} (fec poison : Bool) (hup : portState s p = 3)
    (hlen : b.length = 256) : exec (.flitReceive p b fec poison) s = .next (flitReceive p b fec poison s) := by
  show execFlitReceive p b fec poison s = _
  simp [execFlitReceive, hup, hlen]

/-- A flit that FEC or its CRC finds bad asks for a replay (R328). -/
theorem flitReceive_bad_asks {p : Nat} {b : List Byte} {fec : Bool} (poison : Bool) (s : State)
    (hbad : fec = true ∨ crc32c (b.take 252) ≠ leAt b 252 4) :
    ∃ t f, flitReceive p b fec poison s = t ∧ t.fab.flits = s.fab.flits ++ [f] ∧ t.fab.inbox = s.fab.inbox ∧
      (fport t p).nakSent = true ∧ (fport t p).rxSeq = (fport s p).rxSeq ∧ (fport t p).replay = (fport s p).replay ∧
      ∀ q, q ≠ p → fport t q = fport s q := by
  rw [flitReceive_bad poison s hbad, emitIdle]
  generalize ((fport (fportUpd p (fun u => { u with nakSent := true }) s) p).nextSeq + 4095) % 4096 = seq
  obtain ⟨-, hflits, hinbox, -, -⟩ := emitFlit_sends p seq none true (fportUpd p (fun u => { u with nakSent := true }) s)
  have hsends := onlySends_emitFlit p seq none true (fportUpd p (fun u => { u with nakSent := true }) s)
  refine ⟨_, _, rfl, hflits, hinbox, ?_, ?_, ?_, fun q hq => ?_⟩
  · rw [nakSent_of_onlySends hsends, fport_fportUpd_same]
  · rw [rxSeq_of_onlySends hsends, fport_fportUpd_same]
  · rw [fport_emitFlit_same, replay_creditsSent, fport_fportUpd_same]
  · rw [fport_emitFlit_other _ _ _ _ hq]
    exact fport_fportSet_other _ _ hq

/-! ## Marks and counts of a port -/

theorem exec_wavelengthBerCheck {p : Fin 16} {lane : Fin 8} {ber : Nat} {s : State} (hup : portState s p = 3)
    (hlive : lane.val ∈ (fport s p).txOn ∨ lane.val ∈ (fport s p).rxOn ∨ wBit (rget s (fportKey p 0)) (11 + lane) = true)
    (hber : 2400 < ber) :
    exec (.wavelengthBerCheck p lane ber) s = .next (fportUpd p (fun u => { u with due := true }) s) := by
  have hlane : laneLive s p lane = true := by simpa [laneLive, or_assoc] using hlive
  show execWavelengthBerCheck p lane ber s = _
  simp [execWavelengthBerCheck, hup, hlane, hber]

theorem exec_lightRestored {p : Fin 16} {s : State} (hdark : portState s p = 5) :
    exec (.lightRestored p) s = .next (fportUpd p (fun u => { u with due := true }) s) := by
  show execLightRestored p s = _
  simp [execLightRestored, hdark]

theorem exec_laserCheckPulse {p : Fin 16} {s : State} (hdark : portState s p = 5) :
    exec (.laserCheckPulse p) s = .next (fportUpd p (fun u => { u with pulses := u.pulses + 1 }) s) := by
  show execLaserCheckPulse p s = _
  simp [execLaserCheckPulse, hdark]

/-- A channel that holds flits without a credit is counted once, and its flits go on waiting (R329). -/
theorem channelStall_counts {p : Fin 16} {chan : Fin 8} {f : Flit} {s : State} (hf : f ∈ (fport s p).waiting)
    (hchan : f.chan = chan.val) (hcred : listAt (fport s p).cred chan 0 = 0) (hnew : nsHas (fport s p).stalled chan = false) :
    ∃ t, exec (.channelStall p chan) s = .next t ∧ nsHas (fport t p).stalled chan = true ∧
      wFld (rget t (fportKey p 4)) 3 0 = min (wFld (rget s (fportKey p 4)) 3 0 + 1) 15 ∧
      (fport t p).waiting = (fport s p).waiting := by
  have hholds : (fport s p).waiting.any (fun f => f.chan == chan.val) = true :=
    List.any_eq_true.mpr ⟨f, hf, beq_iff_eq.mpr hchan⟩
  refine ⟨rupd (fportKey p 4) (fun w => wSatAdd w 3 0 1)
    (fportSet p { fport s p with stalled := nsAdd (fport s p).stalled chan } s), ?_, ?_, ?_, ?_⟩
  · show execChannelStall p chan s = _
    simp [execChannelStall, hholds, hcred, hnew]
  · rw [fport_rupd, fport_fportSet_same, nsHas_nsAdd]
    simp
  · rw [rupd, rget_rset_same, rget_fportSet]
    exact wFld_wSatAdd_same _ 1 (by decide) (by decide)
  · rw [fport_rupd, fport_fportSet_same]

/-- Settles O55: a good flit joins or is ignored by the law of what sending leaves, and a port goes down by the law of what dropped
messages leave. -/
theorem fabricLink : Obligations.FabricLink := by
  unfold Obligations.FabricLink
  refine ⟨fun p b fec poison s hup hlen => ⟨fun hbad => ?_, fun hfec hcrc hbusy hseq => ?_, fun hfec hcrc hwhole hseq => ?_⟩,
    fun p s hdue hstate => ?_, fun p tx rx s hstate hmap => ⟨fun ht hr => ?_, fun hnone => ?_⟩,
    fun p lane ber s hup hlive hber => ?_, fun p s hstate hmap => ?_, fun p s hdark => ⟨?_, ?_⟩,
    fun p chan f s hf hchan hcred hnew => channelStall_counts hf hchan hcred hnew⟩
  · obtain ⟨t, f, rfl, hport⟩ := flitReceive_bad_asks (p := p.val) poison s hbad
    exact ⟨_, f, exec_flitReceive fec poison hup hlen, hport⟩
  · subst hfec
    have hsends := flitReceive_outOfOrder poison hcrc hbusy hseq
    refine ⟨_, exec_flitReceive false poison hup hlen, ?_, rxSeq_of_onlySends hsends, rx_of_onlySends hsends⟩
    obtain ⟨-, hinbox, -⟩ := hsends
    exact hinbox
  · subst hfec
    obtain ⟨hinbox, hrx, hnak⟩ := flitReceive_whole poison hcrc hwhole hseq
    obtain ⟨hentry, hcls, hvc, hdest, hsrc, hbytes⟩ := gather_single (flitOf b poison)
      (lookEntry s ((flitOf b poison).chan / 2) (flitOf b poison).dest (flitOf b poison).payload)
    obtain ⟨hclass, hchannel⟩ := chan_flitOf b poison
    refine ⟨_, _, exec_flitReceive false poison hup hlen, hinbox, hrx, hnak, ?_, hcls.trans hclass, hvc.trans hchannel, hdest,
      hsrc, hbytes⟩
    rw [hentry, hcls, hdest]
    rfl
  · obtain ⟨hretrain, hport, hinbox⟩ := portRetrain_retrains s p.isLt
    exact ⟨_, exec_portRetrain hdue hstate, hretrain, by rw [hport], by rw [hport], hinbox⟩
  · obtain ⟨hstat, hsends⟩ := trainDone_up s p.isLt tx.isLt rx.isLt ht hr
    obtain ⟨hup, htx, hrx⟩ := fld_trainedWord p tx.toNat rx.toNat s tx.isLt rx.isLt
    rw [if_pos ⟨ht, hr⟩] at hup
    have hport : fport (publishPort p (trainedAt p tx.toNat rx.toNat s)) p = fport (trainedAt p tx.toNat rx.toNat s) p :=
      fport_of_fab (publishPort_fab _ _) _
    refine ⟨_, exec_portRetrainDone hstate, ?_, ?_, ?_, ?_, ?_, ?_⟩
    · rw [portState, hstat, wFld_ofNat _ (by decide) (by decide), hup]
    · rw [hstat, wFld_ofNat _ (by decide) (by decide), htx]
    · rw [hstat, wFld_ofNat _ (by decide) (by decide), hrx]
    · obtain ⟨-, hinbox, -⟩ := hsends
      rw [hinbox, publishPort_fab, trainedAt, rset_fab]
      rfl
    · rw [txOn_of_onlySends hsends, hport, fport_trainedAt, htx]
      rfl
    · rw [rxOn_of_onlySends hsends, hport, fport_trainedAt, hrx]
      rfl
  · exact ⟨_, exec_portRetrainDone hstate, trainDone_down s p.isLt tx.isLt rx.isLt hmap hnone⟩
  · exact ⟨_, exec_wavelengthBerCheck hup hlive hber, fport_fportUpd_same _ _ _, rfl⟩
  · obtain ⟨t, ht, hstateT, hport, hcount⟩ := lossOfLight_takes_down hstate hmap
    exact ⟨t, ht, hstateT, by rw [hport]; rfl, by rw [hport]; rfl, by rw [hport]; rfl, hcount⟩
  · exact ⟨_, exec_lightRestored hdark, fport_fportUpd_same _ _ _, rfl⟩
  · exact ⟨_, exec_laserCheckPulse hdark, fport_fportUpd_same _ _ _, rfl⟩

end Sys2Proof.Machine
end

section
/-! What every operation of the model keeps (O30, O31): the queue of commands as it is, the byte memories canonical and the
write-combining entries well-formed. One lemma per operation, and one per way in which operations are put together. -/

namespace Sys2Proof.Machine

/-- The queue of commands is as before; canonical memories stay canonical, well-formed write-combining entries well-formed. -/
def Keeps (s t : State) : Prop :=
  t.pending = s.pending ∧ (memsWf s → memsWf t) ∧ ((∀ col, wcWf (colget s col)) → ∀ col, wcWf (colget t col))

/-! ## Putting operations together -/

theorem keeps_refl (s : State) : Keeps s s := ⟨rfl, id, id⟩

theorem Keeps.trans {s t u : State} (h : Keeps s t) (k : Keeps t u) : Keeps s u := by
  obtain ⟨hp, hm, hw⟩ := h
  obtain ⟨kp, km, kw⟩ := k
  exact ⟨kp.trans hp, km ∘ hm, kw ∘ hw⟩

/-- A change of any field that `Keeps` does not speak of; start-up keeps its firing log. -/
theorem keeps_withBoot {u s : State} {regs' cores' spWr' csWr' csQueue' portResp' ftag' refRate' pools' gbarArr' gbarEpoch'
    lostTw' remote' remoteRef' hubs' ctrs' frozen' telem' map' parts' wins' nextPkt' d3' cfg' reads' nextTag' dmas' zeroQ'
    noReuse' reload' stage' booted' ns' fatal' faultN' hostOut' fresh' pwr' boot' therm' mnt' sec' net' t2q' t2poison' fab' snap'
    mirror'} (h : Keeps u s) (e : boot'.fire = s.boot.fire) :
    Keeps u { s with
      regs := regs', cores := cores', spWr := spWr', csWr := csWr', csQueue := csQueue', portResp := portResp',
      ftag := ftag', refRate := refRate', pools := pools', gbarArr := gbarArr', gbarEpoch := gbarEpoch', lostTw := lostTw',
      remote := remote', remoteRef := remoteRef', hubs := hubs', ctrs := ctrs', frozen := frozen', telem := telem',
      map := map', parts := parts', wins := wins', nextPkt := nextPkt', d3 := d3', cfg := cfg', reads := reads',
      nextTag := nextTag', dmas := dmas', zeroQ := zeroQ', noReuse := noReuse', reload := reload', stage := stage', booted := booted',
      ns := ns', fatal := fatal', faultN := faultN', hostOut := hostOut', fresh := fresh', pwr := pwr', boot := boot',
      therm := therm', mnt := mnt', sec := sec', net := net', t2q := t2q', t2poison := t2poison', fab := fab', snap := snap',
      mirror := mirror' } := by
  obtain ⟨hp, hm, hw⟩ := h
  exact ⟨hp, fun w => by simpa only [memsWf, e] using hm w, hw⟩

/-- A change of any field but start-up's that `Keeps` does not speak of. -/
theorem keeps_with {u s : State} {regs' cores' spWr' csWr' csQueue' portResp' ftag' refRate' pools' gbarArr' gbarEpoch'
    lostTw' remote' remoteRef' hubs' ctrs' frozen' telem' map' parts' wins' nextPkt' d3' cfg' reads' nextTag' dmas' zeroQ'
    noReuse' reload' stage' booted' ns' fatal' faultN' hostOut' fresh' pwr' therm' mnt' sec' net' t2q' t2poison' fab' snap'
    mirror'} (h : Keeps u s) :
    Keeps u { s with
      regs := regs', cores := cores', spWr := spWr', csWr := csWr', csQueue := csQueue', portResp := portResp',
      ftag := ftag', refRate := refRate', pools := pools', gbarArr := gbarArr', gbarEpoch := gbarEpoch', lostTw := lostTw',
      remote := remote', remoteRef := remoteRef', hubs := hubs', ctrs := ctrs', frozen := frozen', telem := telem',
      map := map', parts := parts', wins := wins', nextPkt := nextPkt', d3 := d3', cfg := cfg', reads := reads',
      nextTag := nextTag', dmas := dmas', zeroQ := zeroQ', noReuse := noReuse', reload := reload', stage := stage', booted := booted',
      ns := ns', fatal := fatal', faultN := faultN', hostOut := hostOut', fresh := fresh', pwr := pwr',
      therm := therm', mnt := mnt', sec := sec', net := net', t2q := t2q', t2poison := t2poison', fab := fab', snap := snap',
      mirror := mirror' } := by
  obtain ⟨hp, hm, hw⟩ := h
  exact ⟨hp, fun w => hm w, hw⟩

theorem keeps_ite {c : Prop} [Decidable c] {u s t : State} (hs : Keeps u s) (ht : Keeps u t) : Keeps u (if c then s else t) := by
  split
  · exact hs
  · exact ht

theorem keeps_ite_snd {α : Type} {c : Prop} [Decidable c] {u : State} {x y : α × State} (hx : Keeps u x.2) (hy : Keeps u y.2) :
    Keeps u (if c then x else y).2 := by
  split
  · exact hx
  · exact hy

theorem keeps_ite_fst {α : Type} {c : Prop} [Decidable c] {u : State} {x y : State × α} (hx : Keeps u x.1) (hy : Keeps u y.1) :
    Keeps u (if c then x else y).1 := by
  split
  · exact hx
  · exact hy

theorem keeps_ite_fun {c : Prop} [Decidable c] {u s : State} {f g : State → State} (hf : Keeps u (f s)) (hg : Keeps u (g s)) :
    Keeps u ((if c then f else g) s) := by
  split
  · exact hf
  · exact hg

theorem keeps_getD {x : Option State} {u d : State} (hx : ∀ t, x = some t → Keeps u t) (hd : Keeps u d) : Keeps u (x.getD d) := by
  cases x with
  | none => exact hd
  | some t => exact hx t rfl

theorem keeps_foldl {α : Type} {f : State → α → State} {l : List α} {u s : State} (hf : ∀ s a, Keeps u s → Keeps u (f s a))
    (h : Keeps u s) : Keeps u (l.foldl f s) := by
  induction l generalizing s with
  | nil => exact h
  | cons a r ih => exact ih (hf _ _ h)

theorem keeps_foldl_snd {α β : Type} {f : β × State → α → β × State} {l : List α} {u : State} {z : β × State}
    (hf : ∀ z a, Keeps u z.2 → Keeps u (f z a).2) (h : Keeps u z.2) : Keeps u (l.foldl f z).2 := by
  induction l generalizing z with
  | nil => exact h
  | cons a r ih => exact ih (hf _ _ h)

theorem keeps_ite_snd2 {α β : Type} {c : Prop} [Decidable c] {u : State} {x y : α × β × State} (hx : Keeps u x.2.2)
    (hy : Keeps u y.2.2) : Keeps u (if c then x else y).2.2 := by
  split
  · exact hx
  · exact hy

theorem keeps_foldl_fst {α β : Type} {f : State × β → α → State × β} {l : List α} {u : State} {z : State × β}
    (hf : ∀ z a, Keeps u z.1 → Keeps u (f z a).1) (h : Keeps u z.1) : Keeps u (l.foldl f z).1 := by
  induction l generalizing z with
  | nil => exact h
  | cons a r ih => exact ih (hf _ _ h)

theorem keeps_iter {n : Nat} {f : Nat → State → State} {u s : State} (hf : ∀ i s, Keeps u s → Keeps u (f i s))
    (h : Keeps u s) : Keeps u (iter n f s) := keeps_foldl (fun s i => hf i s) h

theorem Keeps_snd {α : Type} {u t : State} {x : α × State} {a : α} (h : Keeps u x.2) (e : x = (a, t)) : Keeps u t := by
  subst e
  exact h

theorem Keeps_fst {α : Type} {u t : State} {x : State × α} {a : α} (h : Keeps u x.1) (e : x = (t, a)) : Keeps u t := by
  subst e
  exact h

/-- A command that answers a next state keeps what `Keeps` says. -/
def KeepsRes (u : State) (r : Res) : Prop := ∀ t, r = .next t → Keeps u t

theorem keeps_next {u s : State} (h : Keeps u s) : KeepsRes u (.next s) := fun _ e => by
  rw [← Host.Outcome.next.inj e]
  exact h

theorem keeps_fault (u : State) (f : Fault) : KeepsRes u (.fault f) := fun _ e => by
  simp at e

theorem keepsRes_ite {c : Prop} [Decidable c] {u : State} {r q : Res} (hr : KeepsRes u r) (hq : KeepsRes u q) :
    KeepsRes u (if c then r else q) := by
  split
  · exact hr
  · exact hq

/-- An operation of a directory engine that succeeds keeps what `Keeps` says. -/
def KeepsEng {α : Type} (u : State) (m : Eng α) : Prop := ∀ s a t, Keeps u s → m.run s = .ok (a, t) → Keeps u t

theorem keepsEng_pure {α : Type} {u : State} (a : α) : KeepsEng u (pure a) := fun s _ t h e => by
  have e := congrArg (Except.map Prod.snd) e
  have : s = t := Except.ok.inj e
  rwa [← this]

theorem keepsEng_fail {α : Type} {u : State} (st : Nat) : KeepsEng u (engFail st : Eng α) := fun _ _ _ _ e => by
  simp [engFail, throw, throwThe, MonadExceptOf.throw, StateT.run, StateT.lift, bind, Except.bind] at e

theorem keepsEng_bind {α β : Type} {u : State} {m : Eng α} {f : α → Eng β} (hm : KeepsEng u m) (hf : ∀ a, KeepsEng u (f a)) :
    KeepsEng u (m >>= f) := fun s b t h e => by
  rw [StateT.run_bind] at e
  cases hr : m.run s with
  | error st =>
    rw [hr] at e
    cases e
  | ok x =>
    obtain ⟨a, v⟩ := x
    rw [hr] at e
    exact hf a v b t (hm s a v h hr) e

theorem keepsEng_get {β : Type} {u : State} {f : State → Eng β} (hf : ∀ s, Keeps u s → KeepsEng u (f s)) :
    KeepsEng u (get >>= f) := fun s b t h e => hf s h s b t h e

theorem keepsEng_modify {u : State} {f : State → State} (hf : ∀ s, Keeps u s → Keeps u (f s)) : KeepsEng u (modify f) :=
  fun s a t h e => by
    have e := congrArg (Except.map Prod.snd) e
    have : f s = t := Except.ok.inj e
    rw [← this]
    exact hf s h

theorem keepsEng_set {u v : State} (h : Keeps u v) : KeepsEng u (set v : Eng Unit) := fun s a t _ e => by
  have e := congrArg (Except.map Prod.snd) e
  have : v = t := Except.ok.inj e
  rwa [← this]

theorem keepsEng_ite {α : Type} {c : Prop} [Decidable c] {u : State} {m n : Eng α} (hm : KeepsEng u m) (hn : KeepsEng u n) :
    KeepsEng u (if c then m else n) := by
  split
  · exact hm
  · exact hn

/-- A column is stored anew with the write-combining entries it had. -/
theorem keeps_colset {u s : State} {k : Nat} {v : ColSt} (h : Keeps u s)
    (e : v.wc = (colget s k).wc) : Keeps u (colset k v s) := by
  refine h.trans ⟨rfl, id, fun hw col => ?_⟩
  by_cases hk : col = k
  · subst hk
    have := hw col
    rw [colget_colset_same]
    simpa only [wcWf, e] using this
  · rw [colget_colset, if_neg hk]
    exact hw col

theorem keeps_colupd {u s : State} {k : Nat} {f : ColSt → ColSt} (h : Keeps u s) (e : ∀ v, (f v).wc = v.wc) :
    Keeps u (colupd k f s) := keeps_colset h (e _)

/-! ## Memories -/

theorem Keeps.step {u s t : State} (h : Keeps u s) (hp : t.pending = s.pending) (hm : memsWf s → memsWf t)
    (hw : (∀ col, wcWf (colget s col)) → ∀ col, wcWf (colget t col)) : Keeps u t := h.trans ⟨hp, hm, hw⟩

/-- A change of any field but the queue and the columns, where canonical memories stay canonical. -/
theorem keeps_mems {u s : State} {sp' spChk' csram' csChk' t1' t1Chk' t2' winMem' regs' cores' spWr' csWr' csQueue' portResp' ftag' refRate' pools' gbarArr' gbarEpoch'
    lostTw' remote' remoteRef' hubs' ctrs' frozen' telem' map' parts' wins' nextPkt' d3' cfg' reads' nextTag' dmas' zeroQ'
    noReuse' reload' stage' booted' ns' fatal' faultN' hostOut' fresh' pwr' boot' therm' mnt' sec' net' t2q' t2poison' fab' snap'
    mirror'} (h : Keeps u s)
    (hm : memsWf s → memWf sp' = true ∧ memWf spChk' = true ∧ memWf csram' = true ∧ memWf csChk' = true ∧ memWf t1' = true ∧
      memWf t1Chk' = true ∧ memWf t2' = true ∧ memWf winMem' = true ∧ memWf boot'.fire = true) :
    Keeps u { s with
      sp := sp', spChk := spChk', csram := csram', csChk := csChk', t1 := t1', t1Chk := t1Chk', t2 := t2', winMem := winMem',
      regs := regs', cores := cores', spWr := spWr', csWr := csWr', csQueue := csQueue', portResp := portResp',
      ftag := ftag', refRate := refRate', pools := pools', gbarArr := gbarArr', gbarEpoch := gbarEpoch', lostTw := lostTw',
      remote := remote', remoteRef := remoteRef', hubs := hubs', ctrs := ctrs', frozen := frozen', telem := telem',
      map := map', parts := parts', wins := wins', nextPkt := nextPkt', d3 := d3', cfg := cfg', reads := reads',
      nextTag := nextTag', dmas := dmas', zeroQ := zeroQ', noReuse := noReuse', reload := reload', stage := stage', booted := booted',
      ns := ns', fatal := fatal', faultN := faultN', hostOut := hostOut', fresh := fresh', pwr := pwr', boot := boot',
      therm := therm', mnt := mnt', sec := sec', net := net', t2q := t2q', t2poison := t2poison', fab := fab', snap := snap',
      mirror := mirror' } := by
  obtain ⟨hp, hk, hw⟩ := h
  exact ⟨hp, fun w => hm (hk w), hw⟩

theorem stGet_stDrop {α : Type} (d : Nat → α) (st : Store α) (lo n k : Nat) :
    stGet d (stDrop st lo n) k = if lo ≤ k ∧ k < lo + n then d k else stGet d st k := by
  induction st with
  | nil => simp [stDrop, stGet]
  | cons e r ih =>
    obtain ⟨j, v⟩ := e
    simp only [stDrop] at ih ⊢
    by_cases hj : j < lo ∨ lo + n ≤ j
    · rw [List.filter_cons_of_pos (by simpa using hj)]
      simp only [stGet, ih]
      split_ifs <;> first | rfl | omega
    · rw [List.filter_cons_of_neg (by simpa using hj), ih]
      simp only [stGet]
      split_ifs <;> first | rfl | omega

/-- Columns dropped from the store hold no write-combining entry. -/
theorem wcWf_stDrop {s t : State} {lo n : Nat} (hc : t.cols = stDrop s.cols lo n) (hw : ∀ col, wcWf (colget s col)) (col : Nat) :
    wcWf (colget t col) := by
  rw [colget, hc, stGet_stDrop]
  split
  · exact ⟨List.nodup_nil, nofun⟩
  · exact hw col

theorem memWf_foldl_memSet {α : Type} (k : α → Nat) (v : α → Byte) (l : List α) {m : Mem} (h : memWf m = true) :
    memWf (l.foldl (fun m e => memSet m (k e) (v e)) m) = true := by
  induction l generalizing m with
  | nil => exact h
  | cons a r ih => exact ih (memSet_wf _ _ _ h)

/-! ## Write-combining entries -/

/-- A write-combining entry is well-formed. -/
def entryWf (e : WcEntry) : Prop :=
  e.row < 131072 ∧ (e.blocks.map Prod.fst).Nodup ∧ ∀ b ∈ e.blocks, b.1 < 16 ∧ b.2.length = 64

/-- Entries are changed in place, each keeping its row and its form. -/
theorem wcWf_modify {v w : ColSt} {f : WcEntry → WcEntry} {i : Nat} (hv : v.wc = w.wc.modify i f) (hrow : ∀ e, (f e).row = e.row)
    (hf : ∀ e, entryWf e → entryWf (f e)) (h : wcWf w) : wcWf v := by
  obtain ⟨hnodup, hall⟩ := h
  have hrows : (w.wc.modify i f).map (fun e => e.row) = w.wc.map (fun e => e.row) := by
    apply List.ext_getElem (by simp)
    intro j _ _
    simp only [List.getElem_map, List.getElem_modify]
    split
    · exact hrow _
    · rfl
  refine ⟨by rw [hv, hrows]; exact hnodup, fun e he => ?_⟩
  rw [hv] at he
  obtain ⟨j, hj, rfl⟩ := List.getElem_of_mem he
  rw [List.length_modify] at hj
  have hje := hall _ (List.getElem_mem hj)
  rw [List.getElem_modify]
  split
  · exact hf _ hje
  · exact hje

theorem wcWf_sublist {v w : ColSt} (hs : List.Sublist v.wc w.wc) (h : wcWf w) : wcWf v := by
  obtain ⟨hnodup, hall⟩ := h
  exact ⟨hnodup.sublist (hs.map _), fun e he => hall e (hs.subset he)⟩

/-- An entry of a row that none has joins. -/
theorem wcWf_append {v w : ColSt} {e : WcEntry} (hv : v.wc = w.wc ++ [e]) (hnew : ∀ x ∈ w.wc, x.row ≠ e.row) (he : entryWf e)
    (h : wcWf w) : wcWf v := by
  obtain ⟨hnodup, hall⟩ := h
  refine ⟨?_, fun x hx => ?_⟩
  · rw [hv, List.map_append, List.nodup_append]
    refine ⟨hnodup, List.nodup_singleton _, fun a ha b hb => ?_⟩
    obtain ⟨x, hx, rfl⟩ := List.mem_map.mp ha
    rw [List.map_singleton, List.mem_singleton] at hb
    rw [hb]
    exact hnew x hx
  · rw [hv, List.mem_append, List.mem_singleton] at hx
    rcases hx with hx | rfl
    · exact hall x hx
    · exact he

/-- A block replaces the one of its number in an entry. -/
theorem entryWf_put {e : WcEntry} {blk : Nat} {d : List Byte} (hblk : blk < 16) (hd : d.length = 64) (b : Bool) (h : entryWf e) :
    entryWf { e with blocks := e.blocks.filter (fun b => b.1 != blk) ++ [(blk, d)], tally := b } := by
  obtain ⟨hrow, hnodup, hall⟩ := h
  refine ⟨hrow, ?_, fun x hx => ?_⟩
  · simp only [List.map_append, List.map_cons, List.map_nil]
    rw [List.nodup_append]
    refine ⟨hnodup.sublist (List.filter_sublist.map _), List.nodup_singleton _, fun a ha c hc => ?_⟩
    obtain ⟨x, hx, rfl⟩ := List.mem_map.mp ha
    rw [List.mem_singleton] at hc
    rw [hc]
    simpa using (List.mem_filter.mp hx).2
  · rcases List.mem_append.mp hx with hx | hx
    · exact hall x (List.mem_filter.mp hx).1
    · rw [List.mem_singleton] at hx
      subst hx
      exact ⟨hblk, hd⟩

theorem entryWf_filter {e : WcEntry} (p : Nat × List Byte → Bool) (h : entryWf e) : entryWf { e with blocks := e.blocks.filter p } := by
  obtain ⟨hrow, hnodup, hall⟩ := h
  exact ⟨hrow, hnodup.sublist (List.filter_sublist.map _), fun x hx => hall x (List.mem_filter.mp hx).1⟩

theorem entryWf_single {row blk : Nat} {d : List Byte} {c b : Bool} (hrow : row < 131072) (hblk : blk < 16) (hd : d.length = 64) :
    entryWf { row := row, blocks := [(blk, d)], counted := c, tally := b } :=
  ⟨hrow, List.nodup_singleton _, fun x hx => by rw [List.mem_singleton] at hx; subst hx; exact ⟨hblk, hd⟩⟩

/-- A search that finds nothing: no element passes. -/
theorem findIdx?_eq_none {α : Type} {p : α → Bool} {l : List α} (h : findIdx? p l = none) : ∀ x ∈ l, p x = false := by
  induction l with
  | nil => nofun
  | cons a r ih =>
    rw [findIdx?] at h
    split at h
    · cases h
    · rename_i ha
      rw [Option.map_eq_none_iff] at h
      intro x hx
      rcases List.mem_cons.mp hx with rfl | hx
      · simpa using ha
      · exact ih h x hx

/-- A column is stored anew, with well-formed entries if those it had were. -/
theorem keeps_colset_wf {u s : State} {k : Nat} {v : ColSt} (hv : wcWf (colget s k) → wcWf v) (h : Keeps u s) :
    Keeps u (colset k v s) := by
  refine h.step rfl id fun hw col => ?_
  rw [colget_colset]
  split
  · exact hv (hw k)
  · exact hw col

theorem rowOf_lt (off : Nat) : rowOf off < 131072 := by
  have h1 : offFrame off < 2 ^ 13 := Nat.mod_lt _ (by decide)
  have h2 : offRow off < 2 ^ 4 := Nat.mod_lt _ (by decide)
  rw [rowOf]
  omega

end Sys2Proof.Machine
end

section
/-! `Keeps` of every function of the model, from the memories up to `exec`: each lemma follows the branches of its function and
cites the lemmas of the functions it is made of. -/

namespace Sys2Proof.Machine

variable {u s : State}

theorem keeps_fportSet (h : Keeps u s) (p v) : Keeps u (fportSet p v s) := by
  unfold fportSet
  exact keeps_with h

theorem keeps_fportUpd (h : Keeps u s) (p f) : Keeps u (fportUpd p f s) := by
  unfold fportUpd
  exact keeps_fportSet h _ _

theorem keeps_clearDirty (h : Keeps u s) (p) : Keeps u (clearDirty p s) := by
  unfold clearDirty
  exact keeps_with h

theorem keeps_cset (h : Keeps u s) (c v) : Keeps u (cset c v s) := by
  unfold cset
  exact keeps_with h

theorem keeps_cupd (h : Keeps u s) (c f) : Keeps u (cupd c f s) := by
  unfold cupd
  exact keeps_cset h _ _

theorem keeps_setCtlErr (h : Keeps u s) (c) : Keeps u (setCtlErr c s) := by
  unfold setCtlErr
  exact keeps_cupd h _ _

theorem keeps_tally (h : Keeps u s) (sel evt n tx) : Keeps u (tally sel evt n tx s) := by
  unfold tally
  exact keeps_ite h (keeps_with h)

theorem keeps_tallyCore (h : Keeps u s) (c evt n tx) : Keeps u (tallyCore c evt n tx s) := by
  unfold tallyCore
  exact keeps_ite h (keeps_tally h _ _ _ _)

theorem keeps_takeFree (h : Keeps u s) : Keeps u (takeFree s).2 := by
  unfold takeFree
  exact keeps_with h

theorem keeps_rset (h : Keeps u s) (off w) : Keeps u (rset off w s) := by
  unfold rset
  exact keeps_with h

theorem keeps_corSet (h : Keeps u s) (c o w) : Keeps u (corSet c o w s) := by
  unfold corSet
  exact keeps_rset h _ _

theorem keeps_fillRec (h : Keeps u s) (c t) : Keeps u (fillRec c t s) := by
  unfold fillRec
  exact keeps_corSet
    (keeps_corSet
       (keeps_corSet
          (keeps_corSet (keeps_corSet (keeps_corSet (keeps_corSet (keeps_corSet (keeps_takeFree h) _ _ _) _ _ _) _ _ _) _ _ _) _
             _ _) _ _ _) _ _ _) _ _ _

theorem keeps_squpd (h : Keeps u s) (c f) : Keeps u (squpd c f s) := by
  unfold squpd
  exact keeps_cupd h _ _

theorem keeps_discardUnstarted (h : Keeps u s) (c) : Keeps u (discardUnstarted c s) := by
  unfold discardUnstarted
  exact keeps_colupd (keeps_colupd (keeps_cupd h _ _) (fun _ => by rfl)) (fun _ => by rfl)

theorem keeps_haltReqCore (h : Keeps u s) (c) : Keeps u (haltReqCore c s) := by
  unfold haltReqCore
  exact keeps_ite (keeps_ite (keeps_squpd h _ _) h) (keeps_squpd (keeps_discardUnstarted h _) _ _)

theorem keeps_pset (h : Keeps u s) (p v) : Keeps u (pset p v s) := by
  unfold pset
  exact keeps_with h

theorem keeps_pupd (h : Keeps u s) (p f) : Keeps u (pupd p f s) := by
  unfold pupd
  exact keeps_pset h _ _

theorem keeps_abortStep (h : Keeps u s) (c) : Keeps u (abortStep c s) := by
  unfold abortStep
  split
  · exact h
  · exact keeps_foldl (fun _ _ h1 => (keeps_haltReqCore h1 _)) (keeps_pupd h _ _)

theorem keeps_abortCore (h : Keeps u s) (c) : Keeps u (abortCore c s) := by
  unfold abortCore
  exact keeps_abortStep (keeps_squpd (keeps_discardUnstarted h _) _ _) _

theorem keeps_takeTrap (h : Keeps u s) (c t epc) : Keeps u (takeTrap c t epc s) := by
  unfold takeTrap
  exact keeps_ite (keeps_abortCore (keeps_squpd (keeps_tallyCore (keeps_fillRec h _ _) _ _ _ _) _ _) _)
    (keeps_squpd (keeps_tallyCore (keeps_fillRec h _ _) _ _ _ _) _ _)

theorem keeps_seqTrap (h : Keeps u s) (c cause word detail detailHi) : Keeps u (seqTrap c cause word detail detailHi s) := by
  unfold seqTrap
  exact keeps_takeTrap h _ _ _

theorem keeps_spLast (h : Keeps u s) (c b kind) : Keeps u (spLast c b kind s) := by
  unfold spLast
  exact keeps_corSet h _ _ _

theorem keeps_rupd (h : Keeps u s) (off f) : Keeps u (rupd off f s) := by
  unfold rupd
  exact keeps_rset h _ _

theorem keeps_corUpd (h : Keeps u s) (c o f) : Keeps u (corUpd c o f s) := by
  unfold corUpd
  exact keeps_rupd h _ _

theorem keeps_haltAll (h : Keeps u s) : Keeps u (haltAll s) := by
  unfold haltAll
  exact keeps_foldl (fun _ _ h1 => (keeps_haltReqCore h1 _)) h

theorem keeps_enterFatal (h : Keeps u s) : Keeps u (enterFatal s) := by
  unfold enterFatal
  exact keeps_haltAll (keeps_with h)

theorem keeps_hostSend (h : Keeps u s) (m) : Keeps u (hostSend m s) := by
  unfold hostSend
  exact keeps_with h

theorem keeps_fnSend (h : Keeps u s) (fn m) : Keeps u (fnSend fn m s) := by
  unfold fnSend
  exact keeps_hostSend h _

theorem keeps_sendMsix (h : Keeps u s) (fn vec) : Keeps u (sendMsix fn vec s) := by
  unfold sendMsix
  exact keeps_ite h (keeps_ite (keeps_rupd h _ _) (keeps_fnSend h _ _))

theorem keeps_hset (h : Keeps u s) (a0 v) : Keeps u (hset a0 v s) := by
  unfold hset
  exact keeps_with h

theorem keeps_hubSignal (h : Keeps u s) (a0) : Keeps u (hubSignal a0 s) := by
  unfold hubSignal
  exact keeps_ite (keeps_sendMsix (keeps_hset h _ _) _ _) (keeps_hset h _ _)

theorem keeps_tallyHub (h : Keeps u s) (a0 evt n tx) : Keeps u (tallyHub a0 evt n tx s) := by
  unfold tallyHub
  exact keeps_tally h _ _ _ _

theorem keeps_sumSignal (h : Keeps u s) : Keeps u (sumSignal s) := by
  unfold sumSignal
  exact keeps_ite (keeps_sendMsix (keeps_with h) _ _) (keeps_with h)

theorem keeps_telPut (h : Keeps u s) (r) : Keeps u (telPut r s) := by
  unfold telPut
  exact keeps_ite (keeps_sumSignal (keeps_fnSend (keeps_with (keeps_fnSend h _ _)) _ _))
    (keeps_sendMsix (keeps_fnSend (keeps_with (keeps_fnSend h _ _)) _ _) _ _)

theorem keeps_telEmit (h : Keeps u s) (r) : Keeps u (telEmit r s) := by
  unfold telEmit
  exact keeps_ite (keeps_telPut h _) (keeps_ite (keeps_ite (keeps_with h) h) (keeps_ite (keeps_with h) (keeps_with h)))

theorem keeps_evSignal (h : Keeps u s) (p) : Keeps u (evSignal p s) := by
  unfold evSignal
  exact keeps_ite (keeps_sendMsix (keeps_with h) _ _) (keeps_with h)

theorem keeps_partEvent (h : Keeps u s) (p cls code seq hub) : Keeps u (partEvent p cls code seq hub s) := by
  unfold partEvent
  exact keeps_ite (keeps_evSignal (keeps_telEmit h _) _) (keeps_telEmit h _)

theorem keeps_errNotice (h : Keeps u s) (e) : Keeps u (errNotice e s) := by
  unfold errNotice
  dsimp only
  split
  · exact keeps_partEvent (keeps_tallyHub (keeps_ite (keeps_hubSignal h _) h) _ _ _ _) _ _ _ _ _
  · exact keeps_tallyHub (keeps_ite (keeps_hubSignal h _) h) _ _ _ _

theorem keeps_logErr (h : Keeps u s) (e) : Keeps u (logErr e s) := by
  unfold logErr
  exact keeps_ite (keeps_enterFatal (keeps_errNotice (keeps_hset h _ _) _)) (keeps_errNotice (keeps_hset h _ _) _)

theorem keeps_coreErr (h : Keeps u s) (c code engine detail part) : Keeps u (coreErr c code engine detail part s) := by
  unfold coreErr
  exact keeps_logErr h _

theorem keeps_spRead (h : Keeps u s) (c b) : Keeps u (spRead c b s).2 := by
  unfold spRead
  split
  · exact h
  · exact keeps_ite_snd (keeps_spLast (keeps_corUpd h _ _ _) _ _ _) (by
        split
        · exact h
        · exact keeps_tallyCore (keeps_coreErr (keeps_corUpd h _ _ _) _ _ _ _ _) _ _ _ _
        · exact keeps_spLast h _ _ _
        · exact keeps_coreErr (keeps_spLast (keeps_corUpd h _ _ _) _ _ _) _ _ _ _ _)

theorem keeps_seqFetch (h : Keeps u s) (c pc) : Keeps u (seqFetch c pc s).2 := by
  unfold seqFetch
  exact keeps_ite h (keeps_squpd (keeps_spRead h _ _) _ _)

theorem keeps_seqStep (h : Keeps u s) (c op ok) {act : Nat → State → State} (hact : ∀ w s, Keeps u s → Keeps u (act w s)) :
    Keeps u (seqStep c op ok act s) := by
  have hf := keeps_seqFetch h c (sq s c).pc
  unfold seqStep
  refine keeps_ite h (keeps_ite (keeps_seqTrap h _ _ _ _ _) ?_)
  split
  rename_i e
  have hs := Keeps_snd hf e
  split
  · exact keeps_seqTrap hs _ _ _ _ _
  · split
    · exact keeps_seqTrap hs _ _ _ _ _
    · exact keeps_ite h (keeps_ite (keeps_seqTrap hs _ _ _ _ _) (hact _ _ hs))

theorem keeps_pcTo (h : Keeps u s) (c pc) : Keeps u (pcTo c pc s) := by
  unfold pcTo
  exact keeps_squpd h _ _

theorem keeps_seqNext (h : Keeps u s) (c n) : Keeps u (seqNext c n s) := by
  unfold seqNext
  exact keeps_tallyCore (keeps_pcTo h _ _) _ _ _ _

theorem keeps_adSet (h : Keeps u s) (c i v) : Keeps u (adSet c i v s) := by
  unfold adSet
  exact keeps_squpd h _ _

theorem keeps_execAaddr (h : Keeps u s) (c) : KeepsRes u (execAaddr c s) := by
  unfold execAaddr
  exact keeps_next (keeps_seqStep h _ _ _ (fun _ _ h1 => (keeps_seqNext (keeps_adSet h1 _ _ _) _ _)))

theorem keeps_cluUpd (h : Keeps u s) (c o f) : Keeps u (cluUpd c o f s) := by
  unfold cluUpd
  exact keeps_rupd h _ _

theorem keeps_csErr (h : Keeps u s) (c b code) : Keeps u (csErr c b code s) := by
  unfold csErr
  exact keeps_logErr h _

theorem keeps_csRead (h : Keeps u s) (c b) : Keeps u (csRead c b s).2 := by
  unfold csRead
  exact keeps_ite_snd (keeps_cluUpd h _ _ _) (by
      split
      · exact h
      · exact keeps_csErr (keeps_cluUpd h _ _ _) _ _ _
      · exact h
      · exact keeps_csErr (keeps_cluUpd h _ _ _) _ _ _)

theorem keeps_tallyClu (h : Keeps u s) (c evt n tx) : Keeps u (tallyClu c evt n tx s) := by
  unfold tallyClu
  exact keeps_tally h _ _ _ _

theorem keeps_csCount (h : Keeps u s) (c port tx) : Keeps u (csCount c port tx s) := by
  unfold csCount
  exact keeps_tallyClu h _ _ _ _

theorem keeps_dRd {u : State} (k off n) : KeepsEng u (dRd k off n) := by
  unfold dRd
  exact keepsEng_get fun _ h1 =>
    by
      dsimp only
      split
      · exact keepsEng_bind (keepsEng_set (keeps_csRead (keeps_csCount h1 _ _ _) _ _)) fun _ => keepsEng_pure _
      · exact keepsEng_fail _

theorem keeps_slotPtr {u : State} (d k i parity) : KeepsEng u (slotPtr d k i parity) := by
  unfold slotPtr
  exact keeps_dRd _ _ _

theorem keeps_nextPtr {u : State} (d k i) : KeepsEng u (nextPtr d k i) := by
  unfold nextPtr
  exact keeps_slotPtr _ _ _ _

theorem keeps_bldPtr {u : State} (d k i) : KeepsEng u (bldPtr d k i) := by
  unfold bldPtr
  exact keepsEng_ite (keepsEng_pure _) (keeps_nextPtr _ _ _)

theorem keeps_fireLog (h : Keeps u s) (stage f summary rejoin dur count data) :
    Keeps u (fireLog stage f summary rejoin dur count data s) :=
  h.step rfl (fun ⟨h1, h2, h3, h4, h5, h6, h7, h8, h9⟩ => ⟨h1, h2, h3, h4, h5, h6, h7, h8, memWrite_wf _ _ _ h9⟩) id

theorem keeps_fireMap (h : Keeps u s) (stage result rejoin dur) : Keeps u (fireMap stage result rejoin dur s) := by
  unfold fireMap
  exact keeps_fireLog h _ _ _ _ _ _ _

theorem keeps_fireStage (h : Keeps u s) (stage fs late result rejoin dur) :
    Keeps u (fireStage stage fs late result rejoin dur s) := by
  unfold fireStage
  exact keeps_ite (keeps_fireMap (keeps_foldl (fun _ _ h1 => (keeps_fireLog h1 _ _ _ _ _ _ _)) h) _ _ _ _)
    (keeps_fireLog (keeps_foldl (fun _ _ h2 => (keeps_fireLog h2 _ _ _ _ _ _ _)) h) _ _ _ _ _ _ _)

theorem keeps_setBrg (h : Keeps u s) (k g) : Keeps u (setBrg k g s) := by
  unfold setBrg
  exact keeps_with h

theorem keeps_trainEdges (h : Keeps u s) (edges f) : Keeps u (trainEdges edges f s).2 := by
  unfold trainEdges
  exact keeps_with (keeps_foldl_snd (fun _ _ h1 => (keeps_setBrg h1 _ _)) h)

theorem keeps_testTowers (h : Keeps u s) (ts f) : Keeps u (testTowers ts f s).2 := by
  unfold testTowers
  exact keeps_with h

theorem keeps_zeroTower (h : Keeps u s) (n) : Keeps u (zeroTower n s) :=
  h.step rfl (fun ⟨h1, h2, h3, h4, h5, h6, h7, h8, h9⟩ => ⟨h1, h2, h3, h4, stDrop_wf _ _ _ _ h5, stDrop_wf _ _ _ _ h6, h7, h8, h9⟩) id

theorem keeps_markRetired (h : Keeps u s) (col) : Keeps u (markRetired col s) := by
  unfold markRetired
  exact keeps_with (keeps_colupd h (fun _ => by rfl))

theorem keeps_setBond (h : Keeps u s) (k g) : Keeps u (setBond k g s) := by
  unfold setBond
  exact keeps_with h

theorem keeps_repairRow {a : List Found × State} (h : Keeps u a.2) (weak e) : Keeps u (repairRow weak a e).2 := by
  unfold repairRow
  exact keeps_ite_snd (keeps_with h) (keeps_ite_snd h (keeps_markRetired h _))

theorem keeps_repairRows (h : Keeps u s) (mine f) : Keeps u (repairRows mine f s).2 := by
  unfold repairRows
  exact keeps_foldl_snd (fun _ _ k => keeps_repairRow k _ _) (keeps_foldl_snd (fun _ _ k => keeps_repairRow k _ _) h)

theorem keeps_retentionTest (h : Keeps u s) (f n) : Keeps u (retentionTest f n s) := by
  unfold retentionTest
  exact keeps_ite h (keeps_with h)

theorem keeps_trainPhases (h : Keeps u s) (n bad) : Keeps u (trainPhases n bad s) := by
  unfold trainPhases
  exact keeps_ite h
    (keeps_rupd (keeps_iter (fun _ _ h1 => (keeps_ite h1 (keeps_withBoot (keeps_ite_snd h1 (keeps_takeFree h1)) (by rfl)))) h) _
       _)

theorem keeps_testBonds (h : Keeps u s) (ts f) : Keeps u (testBonds ts f s).2 := by
  unfold testBonds
  exact keeps_foldl (fun _ _ h1 => (keeps_trainPhases h1 _ _))
    (keeps_foldl (fun _ _ h2 => (keeps_markRetired h2 _))
       (keeps_repairRows
          (keeps_foldl (fun _ _ h3 => (keeps_retentionTest h3 _ _))
             (keeps_foldl_snd
                (fun _ _ h4 => (keeps_ite_fun (keeps_markRetired (keeps_setBond h4 _ _) _) (keeps_setBond h4 _ _))) h)) _ _))

theorem keeps_showClock (h : Keeps u s) (d bit ok) : Keeps u (showClock d bit ok s) := by
  unfold showClock
  split
  · exact keeps_rupd h _ _
  · exact h

theorem keeps_publishPort (h : Keeps u s) (p) : Keeps u (publishPort p s) := by
  unfold publishPort
  exact keeps_rupd (keeps_rupd h _ _) _ _

theorem keeps_setPortState (h : Keeps u s) (p st) : Keeps u (setPortState p st s) := by
  unfold setPortState
  exact keeps_publishPort (keeps_rupd h _ _) _

theorem keeps_crossBus (h : Keeps u s) (col w d chk) : Keeps u (crossBus col w d chk s).2 := by
  unfold crossBus
  exact keeps_ite_snd h (keeps_with h)

theorem keeps_colErr (h : Keeps u s) (col code detail) : Keeps u (colErr col code detail s) := by
  unfold colErr
  exact keeps_logErr h _

theorem keeps_noteSymbol (h : Keeps u s) (col row cw sym) : Keeps u (noteSymbol col row cw sym s) := by
  unfold noteSymbol
  exact keeps_colupd h (fun _ => by rfl)

theorem keeps_eccLast (h : Keeps u s) (col row cw kind sym) : Keeps u (eccLast col row cw kind sym s) := by
  unfold eccLast
  exact keeps_rset h _ _

theorem keeps_t1Store (h : Keeps u s) (c off d chk) : Keeps u (t1Store c off d chk s) :=
  h.step rfl (fun ⟨h1, h2, h3, h4, h5, h6, h7, h8, h9⟩ => ⟨h1, h2, h3, h4, memWrite_wf _ _ _ h5, memWrite_wf _ _ _ h6, h7, h8, h9⟩) id

theorem keeps_t1Decode (h : Keeps u s) (c off d chk same) : Keeps u (t1Decode c off d chk same s).2 := by
  unfold t1Decode
  split
  · exact h
  · exact keeps_colErr (keeps_noteSymbol (keeps_eccLast (keeps_rupd h _ _) _ _ _ _ _) _ _ _ _) _ _ _
  · exact keeps_eccLast (keeps_rupd h _ _) _ _ _ _ _
  · exact keeps_colErr (keeps_eccLast (keeps_rupd (keeps_ite (keeps_t1Store (keeps_with h) _ _ _ _) h) _ _) _ _ _ _ _) _ _ _

theorem keeps_t1ReadBlk (h : Keeps u s) (c off) : Keeps u (t1ReadBlk c off s).2 := by
  unfold t1ReadBlk
  split
  · exact h
  · exact keeps_t1Decode (keeps_crossBus h _ _ _ _) _ _ _ _ _

theorem keeps_unpin (h : Keeps u s) (col row) : Keeps u (unpin col row s) := by
  unfold unpin
  exact keeps_ite (keeps_colupd h (fun _ => by rfl)) h

theorem keeps_rowTally (h : Keeps u s) (c n write tx) : Keeps u (rowTally c n write tx s) := by
  unfold rowTally
  exact keeps_tallyCore h _ _ _ _

theorem keeps_t1Cross (h : Keeps u s) (c off d) : Keeps u (t1Cross c off d s) := by
  unfold t1Cross
  exact keeps_t1Store (keeps_crossBus h _ _ _ _) _ _ _ _

theorem keeps_wcIssue (h : Keeps u s) (col i) : Keeps u (wcIssue col i s) := by
  unfold wcIssue
  split
  · exact h
  · have h1 : Keeps u (colupd col (fun v => { v with wc := v.wc.eraseIdx i }) s) :=
      keeps_colset_wf (wcWf_sublist (List.eraseIdx_sublist _ _)) h
    exact keeps_foldl (fun _ _ k => keeps_t1Cross k _ _ _) (keeps_ite (keeps_rowTally h1 _ _ _ _) h1)

theorem t1Cross_cols (c off : Nat) (d : List Byte) (s : State) : (t1Cross c off d s).cols = s.cols := by
  unfold t1Cross crossBus
  dsimp only
  split <;> rfl

/-- An issued entry leaves its column; no other entry changes. -/
theorem wcIssue_subset (col i : Nat) (s : State) : (colget (wcIssue col i s) col).wc ⊆ (colget s col).wc := by
  unfold wcIssue
  split
  · exact List.Subset.refl _
  · have hfold : ∀ (l : List (Nat × List Byte)) (f : Nat × List Byte → Nat) (v : State),
        (l.foldl (fun s b => t1Cross (col / 2) (f b) b.2 s) v).cols = v.cols := by
      intro l f
      induction l with
      | nil => exact fun _ => rfl
      | cons b r ih => exact fun v => (ih _).trans (t1Cross_cols _ _ _ _)
    have hcol : ∀ v w : State, v.cols = w.cols → colget v col = colget w col := fun v w e => by rw [colget, e, colget]
    dsimp only
    rw [hcol _ _ (hfold _ _ _)]
    split
    · rw [rowTally, colget_tallyCore, colget_colupd_same]
      exact List.eraseIdx_subset
    · rw [colget_colupd_same]
      exact List.eraseIdx_subset

theorem fitBytes_length (n : Nat) (b : List Byte) : (fitBytes n b).length = n := by
  rw [fitBytes, zeros, List.length_take, List.length_append, List.length_replicate]
  omega

theorem keeps_wcPut (h : Keeps u s) (col row blk v) (hrow : row < 131072) (hblk : blk < 16) :
    Keeps u (wcPut col row blk v s) := by
  have hd := fitBytes_length 64 v
  unfold wcPut
  dsimp only
  split
  · rename_i i _
    have h1 : Keeps u (colupd col (fun w => { w with wc := w.wc.modify i (fun e =>
        { e with blocks := e.blocks.filter (fun b => b.1 != blk) ++ [(blk, fitBytes 64 v)] }) }) s) :=
      keeps_colset_wf (wcWf_modify rfl (fun _ => rfl) fun e => entryWf_put hblk hd e.tally) h
    exact keeps_ite (keeps_wcIssue h1 _ _) h1
  · rename_i hnone
    have hnew : ∀ x ∈ (colget s col).wc, x.row ≠ row := fun x hx => by simpa using findIdx?_eq_none hnone x hx
    have hone := entryWf_single (c := false) (b := false) hrow hblk hd
    split
    · exact keeps_colset_wf (wcWf_append rfl (fun x hx => hnew x (wcIssue_subset _ _ _ hx)) hone) (keeps_wcIssue h _ _)
    · exact keeps_colset_wf (wcWf_append rfl hnew hone) h

theorem keeps_t1WriteBlk (h : Keeps u s) (c off d) : Keeps u (t1WriteBlk c off d s) := by
  unfold t1WriteBlk
  exact keeps_unpin (keeps_wcPut h _ _ _ _ (rowOf_lt _) (Nat.mod_lt _ (by decide))) _ _

theorem keeps_wcDrop (h : Keeps u s) (col row blk) : Keeps u (wcDrop col row blk s) := by
  unfold wcDrop
  refine keeps_ite (keeps_colset_wf (fun ⟨hnodup, hall⟩ => ⟨?_, fun e he => ?_⟩) h) h
  · rw [List.map_map, show ((fun e : WcEntry => e.row) ∘ fun e => if e.row == row then
      { e with blocks := e.blocks.filter (fun b => b.1 != blk) } else e) = fun e => e.row from funext fun e => by
        simp only [Function.comp_apply]
        split <;> rfl]
    exact hnodup
  · obtain ⟨x, hx, rfl⟩ := List.mem_map.mp he
    split
    · exact entryWf_filter _ (hall x hx)
    · exact hall x hx

theorem keeps_t1PoisonBlk (h : Keeps u s) (c off) : Keeps u (t1PoisonBlk c off s) := by
  unfold t1PoisonBlk
  exact keeps_unpin (keeps_wcDrop (keeps_t1Store h _ _ _ _) _ _ _) _ _

theorem keeps_copyBlks : ∀ {s}, Keeps u s → ∀ col src dst old a a5, Keeps u (copyBlks col src dst old a a5 s).2
  | _, h, _, _, _, _, 0, _ => by
    rw [copyBlks]
    exact h
  | _, h, _, _, _, _, (n + 1), _ => by
    rw [copyBlks]
    exact keeps_copyBlks
      (by split; exact (keeps_t1WriteBlk (keeps_t1ReadBlk h _ _) _ _ _); exact (keeps_t1PoisonBlk (keeps_t1ReadBlk h _ _) _ _))
      _ _ _ _ _ _

theorem keeps_nbupd (h : Keeps u s) (col f) : Keeps u (nbupd col f s) := by
  unfold nbupd
  exact keeps_colupd h (fun _ => by rfl)

theorem keeps_dropPin (h : Keeps u s) (col) : Keeps u (dropPin col s) := by
  unfold dropPin
  exact keeps_nbupd h _ _

theorem keeps_countWithheld (h : Keeps u s) (col) : Keeps u (countWithheld col s) := by
  unfold countWithheld
  exact keeps_tallyCore (keeps_rupd h _ _) _ _ _ _

theorem keeps_rowMeet (h : Keeps u s) (col n write tx) : Keeps u (rowMeet col n write tx s) := by
  unfold rowMeet
  exact keeps_ite (keeps_ite (keeps_colupd (keeps_rowTally h _ _ _ _) (fun _ => by rfl)) (keeps_rowTally h _ _ _ _))
    (keeps_iter (fun _ _ h1 => (keeps_countWithheld h1 _))
       (keeps_takeFree (keeps_ite (keeps_colupd (keeps_rowTally h _ _ _ _) (fun _ => by rfl)) (keeps_rowTally h _ _ _ _))))

theorem keeps_nbStall (h : Keeps u s) (col n) : Keeps u (nbStall col n s) := by
  unfold nbStall
  exact keeps_tallyCore (keeps_rupd h _ _) _ _ _ _

theorem keeps_nbCmd (h : Keeps u s) (col i f) : Keeps u (nbCmd col i f s) := by
  unfold nbCmd
  exact keeps_nbupd h _ _

theorem keeps_nbDone (h : Keeps u s) (col i outcome) : Keeps u (nbDone col i outcome s) := by
  unfold nbDone
  exact keeps_nbCmd h _ _ _

theorem keeps_execNbuCopy (h : Keeps u s) (col) : KeepsRes u (execNbuCopy col s) := by
  unfold execNbuCopy
  dsimp only
  split
  · exact keeps_next h
  · exact keeps_next
      (keeps_nbDone
         (keeps_with
            (keeps_nbStall (keeps_rowMeet (keeps_rowMeet (keeps_copyBlks (keeps_dropPin h _) _ _ _ _ _ _) _ _ _ _) _ _ _ _) _ _))
         _ _ _)

theorem keeps_theDir {u : State} (p) : KeepsEng u (theDir p) := by
  unfold theDir
  exact keepsEng_get fun _ h1 => by split; exact (keepsEng_pure _); exact (keepsEng_fail _)

theorem keeps_engMap {α β : Type} {f : α → Eng β} (hf : ∀ a, KeepsEng u (f a)) : ∀ l, KeepsEng u (engMap f l)
  | [] => keepsEng_pure _
  | _ :: r => keepsEng_bind (hf _) fun _ => keepsEng_bind (keeps_engMap hf r) fun _ => keepsEng_pure _

theorem keeps_readHeads {u : State} (d k) : KeepsEng u (readHeads d k) := by
  unfold readHeads
  exact keeps_engMap (fun _ => (keepsEng_bind (keeps_dRd _ _ _) fun _ => (keepsEng_pure _))) _

theorem keeps_bldHeads {u : State} (d k) : KeepsEng u (bldHeads d k) := by
  unfold bldHeads
  exact keepsEng_bind (keeps_readHeads _ _) fun _ => (keepsEng_pure _)

theorem keeps_editCtx {u : State} (p) : KeepsEng u (editCtx p) := by
  unfold editCtx
  exact keepsEng_bind (keeps_theDir _) fun _ =>
    keepsEng_get fun _ h1 =>
      by dsimp only; split; exact (keepsEng_fail _); exact (keepsEng_bind (keeps_bldHeads _ _) fun _ => (keepsEng_pure _))

theorem keeps_dRdBlk {u : State} (k b) : KeepsEng u (dRdBlk k b) := by
  unfold dRdBlk
  exact keepsEng_get fun _ h1 =>
    by
      dsimp only
      split
      · exact keepsEng_bind (keepsEng_set (keeps_csRead (keeps_csCount h1 _ _ _) _ _)) fun _ => keepsEng_pure _
      · exact keepsEng_fail _

theorem keeps_readDesc {u : State} (k b) : KeepsEng u (readDesc k b) := by
  unfold readDesc
  exact keepsEng_bind (keeps_dRdBlk _ _) fun _ => (keepsEng_pure _)

theorem keeps_seqDesc {u : State} (p x q) : KeepsEng u (seqDesc p x q) := by
  unfold seqDesc
  split
  · exact keepsEng_pure _
  · exact keepsEng_bind (keeps_theDir _) fun _ =>
      keepsEng_bind (keeps_bldPtr _ _ _) fun _ =>
        keepsEng_ite (keepsEng_pure _) (keepsEng_bind (keeps_readDesc _ _) fun _ => (keepsEng_pure _))

theorem keeps_needSeq {u : State} (p x q) : KeepsEng u (needSeq p x q) := by
  unfold needSeq
  exact keepsEng_bind (keeps_seqDesc _ _ _) fun _ => by split; exact (keepsEng_pure _); exact (keepsEng_fail _)

theorem keeps_engEach {α : Type} {f : α → Eng Unit} (hf : ∀ a, KeepsEng u (f a)) : ∀ l, KeepsEng u (engEach f l)
  | [] => keepsEng_pure _
  | _ :: r => keepsEng_bind (hf _) fun _ => keeps_engEach hf r

theorem keeps_ptrIn {u : State} (k b slot) : KeepsEng u (ptrIn k b slot) := by
  unfold ptrIn
  exact keepsEng_ite (keepsEng_pure _) (keeps_dRd _ _ _)

theorem keeps_listBlk {u : State} (k desc i j) : KeepsEng u (listBlk k desc i j) := by
  unfold listBlk
  exact keepsEng_bind (keeps_ptrIn _ _ _) fun _ => (keepsEng_bind (keeps_ptrIn _ _ _) fun _ => (keeps_ptrIn _ _ _))

theorem keeps_pteAt {u : State} (k desc i j) : KeepsEng u (pteAt k desc i j) := by
  unfold pteAt
  exact keepsEng_bind (keeps_listBlk _ _ _ _) fun _ => (keepsEng_ite (keepsEng_pure _) (keeps_dRd _ _ _))

theorem keeps_getBld {u : State} (p i x lh b) : KeepsEng u (getBld p i x lh b) := by
  unfold getBld
  exact keepsEng_bind (keeps_theDir _) fun _ => (keepsEng_bind (keeps_bldPtr _ _ _) fun _ => (keeps_pteAt _ _ _ _))

theorem keeps_setDir {u : State} (p d) : KeepsEng u (setDir p d) := by
  unfold setDir
  exact keepsEng_modify (fun _ h1 => (keeps_pupd h1 _ _))

theorem keeps_updDir {u : State} (p f) : KeepsEng u (updDir p f) := by
  unfold updDir
  exact keepsEng_bind (keeps_theDir _) fun _ => (keeps_setDir _ _)

theorem keeps_updGen {u : State} (p f) : KeepsEng u (updGen p f) := by
  unfold updGen
  exact keeps_updDir _ _

theorem keeps_dropEntry {u : State} (p k e) : KeepsEng u (dropEntry p k e) := by
  unfold dropEntry
  exact keepsEng_ite (keeps_updGen _ _) (keepsEng_pure _)

theorem keeps_bmFree : ∀ k off n a, KeepsEng u (bmFree k off n a)
  | _, _, _, 0 => by
    rw [bmFree]
    exact keepsEng_pure _
  | _, _, _, (n_1 + 1) => by
    rw [bmFree]
    exact keepsEng_bind (keeps_dRdBlk _ _) fun _ => (keepsEng_bind (keeps_bmFree _ _ _ _) fun _ => (keepsEng_pure _))

theorem keeps_pickFree {u : State} (l) : KeepsEng u (pickFree l) := by
  unfold pickFree
  split
  · exact keepsEng_fail _
  · exact keepsEng_pure _
  · exact keepsEng_get fun _ h1 => keepsEng_bind (keepsEng_set (keeps_takeFree h1)) fun _ => keepsEng_pure _

theorem keeps_csStore (h : Keeps u s) (c b d chk) : Keeps u (csStore c b d chk s) :=
  h.step rfl (fun ⟨h1, h2, h3, h4, h5, h6, h7, h8, h9⟩ => ⟨h1, h2, memWrite_wf _ _ _ h3, memWrite_wf _ _ _ h4, h5, h6, h7, h8, h9⟩) id

theorem keeps_csWrite (h : Keeps u s) (c b d) : Keeps u (csWrite c b d s) := by
  unfold csWrite
  exact keeps_csStore h _ _ _ _

theorem keeps_csPoison (h : Keeps u s) (c b) : Keeps u (csPoison c b s) := by
  unfold csPoison
  exact keeps_csStore h _ _ _ _

theorem keeps_csWriteIn (h : Keeps u s) (c b off v) : Keeps u (csWriteIn c b off v s) := by
  unfold csWriteIn
  exact keeps_ite (keeps_csWrite h _ _ _)
    (keeps_ite (keeps_csWrite h _ _ _)
       (by dsimp only; split; exact (keeps_csWrite (keeps_csRead h _ _) _ _ _); exact (keeps_csPoison (keeps_csRead h _ _) _ _)))

theorem keeps_dWr {u : State} (k off n v) : KeepsEng u (dWr k off n v) := by
  unfold dWr
  exact keepsEng_modify (fun _ h1 => (keeps_csWriteIn (keeps_csCount h1 _ _ _) _ _ _ _))

theorem keeps_bmPut {u : State} (k off i v) : KeepsEng u (bmPut k off i v) := by
  unfold bmPut
  exact keepsEng_bind (keeps_dRd _ _ _) fun _ => (keeps_dWr _ _ _ _)

theorem keeps_dWrBlk {u : State} (k b d) : KeepsEng u (dWrBlk k b d) := by
  unfold dWrBlk
  exact keepsEng_modify (fun _ h1 => (keeps_csWrite (keeps_csCount h1 _ _ _) _ _ _))

theorem keeps_allocBlk {u : State} (p k) : KeepsEng u (allocBlk p k) := by
  unfold allocBlk
  exact keepsEng_bind (keeps_theDir _) fun _ =>
    keepsEng_bind (keeps_bmFree _ _ _ _) fun _ =>
      keepsEng_bind (keeps_pickFree _) fun _ =>
        keepsEng_bind (keeps_bmPut _ _ _ _) fun _ =>
          keepsEng_bind (keeps_dWrBlk _ _ _) fun _ => keepsEng_bind (keeps_updGen _ _) fun _ => keepsEng_pure _

theorem keeps_ownBlk {u : State} (p k b) : KeepsEng u (ownBlk p k b) := by
  unfold ownBlk
  exact keepsEng_bind (keeps_theDir _) fun _ =>
    keepsEng_ite (keeps_allocBlk _ _)
      (keepsEng_ite (keepsEng_pure _)
         (keepsEng_bind (keeps_dRdBlk _ _) fun _ =>
            keepsEng_bind (keeps_allocBlk _ _) fun _ =>
              keepsEng_bind (keeps_dWrBlk _ _ _) fun _ => keepsEng_bind (keeps_updGen _ _) fun _ => keepsEng_pure _))

theorem keeps_setPtr {u : State} (p k i v) : KeepsEng u (setPtr p k i v) := by
  unfold setPtr
  exact keepsEng_bind (keeps_theDir _) fun _ =>
    keepsEng_ite (keepsEng_bind (keeps_dWr _ _ _ _) fun _ => (keeps_updGen _ _)) (keeps_updGen _ _)

theorem keeps_ownDesc {u : State} (p k i) : KeepsEng u (ownDesc p k i) := by
  unfold ownDesc
  exact keepsEng_bind (keeps_theDir _) fun _ =>
    keepsEng_bind (keeps_bldPtr _ _ _) fun _ =>
      keepsEng_bind (keeps_ownBlk _ _ _) fun _ =>
        keepsEng_ite (keepsEng_bind (keeps_setPtr _ _ _ _) fun _ => (keepsEng_pure _)) (keepsEng_pure _)

theorem keeps_ownAt {u : State} (p k b slot) : KeepsEng u (ownAt p k b slot) := by
  unfold ownAt
  exact keepsEng_bind (keeps_ptrIn _ _ _) fun _ =>
    keepsEng_bind (keeps_ownBlk _ _ _) fun _ =>
      keepsEng_ite (keepsEng_bind (keeps_dWr _ _ _ _) fun _ => (keepsEng_pure _)) (keepsEng_pure _)

theorem keeps_putPte {u : State} (p k seqI i j v) : KeepsEng u (putPte p k seqI i j v) := by
  unfold putPte
  exact keepsEng_bind (keeps_ownDesc _ _ _) fun _ =>
    keepsEng_bind (keeps_ownAt _ _ _ _) fun _ =>
      keepsEng_bind (keeps_ownAt _ _ _ _) fun _ => keepsEng_bind (keeps_ownAt _ _ _ _) fun _ => keeps_dWr _ _ _ _

theorem keeps_setBld {u : State} (p i x lh b v) : KeepsEng u (setBld p i x lh b v) := by
  unfold setBld
  exact keeps_putPte _ _ _ _ _ _

theorem keeps_dropBld {u : State} (p i x lh b) : KeepsEng u (dropBld p i x lh b) := by
  unfold dropBld
  exact keepsEng_bind (keeps_getBld _ _ _ _ _) fun _ =>
    keepsEng_ite (keepsEng_bind (keeps_dropEntry _ _ _) fun _ => (keeps_setBld _ _ _ _ _ _)) (keepsEng_pure _)

theorem keeps_needFrames {u : State} (p) : KeepsEng u (needFrames p) := by
  unfold needFrames
  exact keepsEng_get fun _ h1 => (keepsEng_ite (keepsEng_fail _) (keepsEng_pure _))

theorem keeps_copyRows : ∀ {s}, Keeps u s → ∀ col f col' f' a, Keeps u (copyRows col f col' f' a s)
  | _, h, _, _, _, _, 0 => by
    rw [copyRows]
    exact h
  | _, h, _, _, _, _, (n + 1) => by
    rw [copyRows]
    exact keeps_copyRows
      (by split; exact (keeps_t1WriteBlk (keeps_t1ReadBlk h _ _) _ _ _); exact (keeps_t1PoisonBlk (keeps_t1ReadBlk h _ _) _ _))
      _ _ _ _ _

theorem keeps_ftSet (h : Keeps u s) (col frame w) : Keeps u (ftSet col frame w s) := by
  unfold ftSet
  exact keeps_with h

theorem keeps_ftScales (h : Keeps u s) (col frame k v) : Keeps u (ftScales col frame k v s) := by
  unfold ftScales
  exact keeps_ftSet h _ _ _

theorem keeps_ftBump (h : Keeps u s) (col frame) : Keeps u (ftBump col frame s) := by
  unfold ftBump
  exact keeps_ftSet h _ _ _

theorem keeps_copyFrame (h : Keeps u s) (col f col' f' nbu) : Keeps u (copyFrame col f col' f' nbu s) := by
  unfold copyFrame
  exact keeps_ite
    (keeps_ftBump
       (keeps_dropPin (keeps_rowMeet (keeps_rowMeet (keeps_ftScales (keeps_copyRows h _ _ _ _ _) _ _ _ _) _ _ _ _) _ _ _ _) _) _
       _) (keeps_rowMeet (keeps_rowMeet (keeps_ftScales (keeps_copyRows h _ _ _ _ _) _ _ _ _) _ _ _ _) _ _ _ _)

theorem keeps_takeFrame {u : State} (d k pos frame pair) : KeepsEng u (takeFrame d k pos frame pair) := by
  unfold takeFrame
  exact keepsEng_bind (keeps_bmPut _ _ _ _) fun _ =>
    keepsEng_ite
      (keepsEng_bind (keeps_bmPut _ _ _ _) fun _ =>
         keepsEng_bind (keeps_dWr _ _ _ _) fun _ => keepsEng_modify (fun _ h1 => (keeps_cluUpd h1 _ _ _)))
      (keepsEng_bind (keeps_dWr _ _ _ _) fun _ => (keepsEng_modify (fun _ h2 => (keeps_cluUpd h2 _ _ _))))

theorem keeps_lowFrame {u : State} (d k pos pair) : KeepsEng u (lowFrame d k pos pair) := by
  unfold lowFrame
  exact keepsEng_bind (keeps_bmFree _ _ _ _) fun _ => (keepsEng_pure _)

theorem keeps_firstFrame : ∀ d k pair a, KeepsEng u (firstFrame d k pair a)
  | _, _, _, [] => by
    rw [firstFrame]
    exact keepsEng_fail _
  | _, _, _, ((pos, col) :: r) => by
    rw [firstFrame]
    exact keepsEng_bind (keeps_lowFrame _ _ _ _) fun _ => by split; exact (keepsEng_pure _); exact (keeps_firstFrame _ _ _ _)

theorem keeps_allocFrame {u : State} (p k pair) : KeepsEng u (allocFrame p k pair) := by
  unfold allocFrame
  exact keepsEng_bind (keeps_theDir _) fun _ =>
    keepsEng_get fun _ h1 =>
      keepsEng_bind (keeps_firstFrame _ _ _ _) fun _ =>
        keepsEng_bind (keeps_updDir _ _) fun _ => keepsEng_bind (keeps_takeFrame _ _ _ _ _) fun _ => keepsEng_pure _

theorem keeps_writeDesc {u : State} (k b f) : KeepsEng u (writeDesc k b f) := by
  unfold writeDesc
  exact keepsEng_bind (keeps_dRdBlk _ _) fun _ => (keeps_dWrBlk _ _ _)

theorem keeps_editDesc {u : State} (p i f k) : KeepsEng u (editDesc p i f k) := by
  unfold editDesc
  exact keepsEng_bind (keeps_ownDesc _ _ _) fun _ => (keeps_writeDesc _ _ _)

theorem keeps_entriesWith {u : State} (p i x f) : KeepsEng u (entriesWith p i x f) := by
  unfold entriesWith
  exact keepsEng_bind
    (keeps_engMap
       (fun _ =>
          by
            split
            · exact keepsEng_pure _
            · exact keepsEng_bind
                (keeps_engMap (fun _ => (keepsEng_bind (keeps_getBld _ _ _ _ _) fun _ => (keepsEng_pure _))) _) fun _ =>
                keepsEng_pure _) _) fun _ =>
    keepsEng_pure _

theorem keeps_autoCommit {u : State} (p) : KeepsEng u (autoCommit p) := by
  unfold autoCommit
  exact keeps_updDir _ _

theorem keeps_endVictim {u : State} (p i x) : KeepsEng u (endVictim p i x) := by
  unfold endVictim
  exact keepsEng_bind (keeps_entriesWith _ _ _ _) fun _ =>
    keepsEng_ite (keepsEng_bind (keeps_engEach (fun _ => (keeps_editDesc _ _ _ _)) _) fun _ => (keeps_autoCommit _))
      (keepsEng_pure _)

theorem keeps_scrubBlock (h : Keeps u s) (c off) : Keeps u (scrubBlock c off s) := by
  unfold scrubBlock
  exact keeps_ite h (by
      dsimp only
      split
      · exact keeps_t1Cross (keeps_t1Decode (keeps_crossBus h _ _ _ _) _ _ _ _ _) _ _ _
      · exact keeps_t1Decode (keeps_crossBus h _ _ _ _) _ _ _ _ _)

theorem keeps_scrubGroup (h : Keeps u s) (col g) : Keeps u (scrubGroup col g s) := by
  unfold scrubGroup
  exact keeps_foldl (fun _ _ h1 => (keeps_rowMeet (keeps_iter (fun _ _ h2 => (keeps_scrubBlock h2 _ _)) h1) _ _ _ _)) h

theorem keeps_tkPut (h : Keeps u s) (c t v) : Keeps u (tkPut c t v s) := by
  unfold tkPut
  exact keeps_rset h _ _

theorem keeps_portErr (h : Keeps u s) (p code detail) : Keeps u (portErr p code detail s) := by
  unfold portErr
  exact keeps_logErr h _

theorem keeps_portRestart (h : Keeps u s) (p) : Keeps u (portRestart p s) := by
  unfold portRestart
  exact keeps_fportUpd h _ _

theorem keeps_hubStatUpd (h : Keeps u s) (a0 f) : Keeps u (hubStatUpd a0 f s) := by
  unfold hubStatUpd
  exact keeps_with h

theorem keeps_hubRefused (h : Keeps u s) (a0 reason w) : Keeps u (hubRefused a0 reason w s) := by
  unfold hubRefused
  exact keeps_with (keeps_hubStatUpd h _ _)

theorem keeps_rawRefused (h : Keeps u s) (clu) : Keeps u (rawRefused clu s) := by
  unfold rawRefused
  exact keeps_cluUpd h _ _ _

theorem keeps_countRaw (h : Keeps u s) (t reason) : Keeps u (countRaw t reason s) := by
  unfold countRaw
  split
  · exact keeps_ite (keeps_rawRefused h _) h
  · exact h

theorem keeps_agentRefuse (h : Keeps u s) (k i r) : Keeps u (agentRefuse k i r s) := by
  unfold agentRefuse
  exact keeps_ite h (keeps_hubRefused (keeps_countRaw h _ _) _ _ _)

theorem keeps_csReadBlocks : ∀ {s}, Keeps u s → ∀ c a, Keeps u (csReadBlocks c a s).2
  | _, h, _, [] => by
    rw [csReadBlocks]
    exact h
  | _, h, _, (b :: bs) => by
    rw [csReadBlocks]
    exact keeps_csReadBlocks (keeps_csRead h _ _) _ _

theorem keeps_csReadBytes (h : Keeps u s) (c off n) : Keeps u (csReadBytes c off n s).2 := by
  unfold csReadBytes
  exact keeps_ite_snd h (keeps_ite_snd (keeps_csReadBlocks h _ _) (keeps_csReadBlocks h _ _))

theorem keeps_strmWord (h : Keeps u s) (k i w) : Keeps u (strmWord k i w s).2 := by
  unfold strmWord
  exact keeps_ite_snd h (by split; exact (keeps_agentRefuse h _ _ _); exact (keeps_csReadBytes h _ _ _))

theorem keeps_post (h : Keeps u s) (m) : Keeps u (post m s) := by
  unfold post
  exact keeps_with h

theorem keeps_streamNote (h : Keeps u s) (kind v dev dst sstr) : Keeps u (streamNote kind v dev dst sstr s) := by
  unfold streamNote
  exact keeps_post h _

theorem keeps_tdispSend (h : Keeps u s) (ty d) : Keeps u (tdispSend ty d s) := by
  unfold tdispSend
  exact keeps_hostSend h _

theorem keeps_execGetDeviceInterfaceReport (h : Keeps u s) (a0) : KeepsRes u (execGetDeviceInterfaceReport a0 s) := by
  unfold execGetDeviceInterfaceReport
  exact keeps_next (keeps_ite (keeps_tdispSend h _ _) h)

theorem keeps_movClr (h : Keeps u s) (c ch) : Keeps u (movClr c ch s) := by
  unfold movClr
  exact keeps_cupd h _ _

theorem keeps_execMovclr (h : Keeps u s) (c) : KeepsRes u (execMovclr c s) := by
  unfold execMovclr
  exact keeps_next (keeps_seqStep h _ _ _ (fun _ _ h1 => (keeps_seqNext (keeps_movClr h1 _ _) _ _)))

theorem keeps_wset (h : Keeps u s) (w v) : Keeps u (wset w v s) := by
  unfold wset
  exact keeps_with h

theorem keeps_wupd (h : Keeps u s) (w f) : Keeps u (wupd w f s) := by
  unfold wupd
  exact keeps_wset h _ _

theorem keeps_startPkt (h : Keeps u s) (k) : Keeps u (startPkt k s) := by
  unfold startPkt
  exact keeps_wupd h _ _

theorem keeps_reply (h : Keeps u s) (w b kind status result detail bit record) :
    Keeps u (reply w b kind status result detail bit record s) := by
  unfold reply
  exact keeps_ite (keeps_sendMsix (keeps_ite (keeps_fnSend h _ _) h) _ _) (keeps_ite (keeps_fnSend h _ _) h)

theorem keeps_complete (h : Keeps u s) (id status result detail) : Keeps u (complete id status result detail s) := by
  unfold complete
  split
  · exact h
  · exact keeps_ite (keeps_wupd h _ _) (keeps_reply (keeps_wupd h _ _) _ _ _ _ _ _ _ _)

theorem keeps_runCmd (h : Keeps u s) (w op resv) {body : Pkt → State → State} (hb : ∀ k s, Keeps u s → Keeps u (body k s)) :
    KeepsRes u (runCmd w op resv body s) := by
  unfold runCmd
  split
  · exact keeps_next h
  · have hs := keeps_startPkt h
    exact keepsRes_ite (keeps_next (keeps_complete (hs _) _ _ _ _))
      (keepsRes_ite (keeps_next (keeps_complete (hs _) _ _ _ _)) (keeps_next (hb _ _ (hs _))))

theorem keeps_launchesEnd (h : Keeps u s) (p status) : Keeps u (launchesEnd p status s) := by
  unfold launchesEnd
  exact keeps_foldl (fun _ _ h1 => (keeps_complete h1 _ _ _ _)) (keeps_pset h _ _)

theorem keeps_engRun (h : Keeps u s) {e : Eng Unit} (he : KeepsEng u e) : Keeps u (engRun e s) := by
  unfold engRun
  split
  · rename_i hr
    exact he _ _ _ h hr
  · exact h

theorem keeps_curCtx {u : State} (p) : KeepsEng u (curCtx p) := by
  unfold curCtx
  exact keepsEng_bind (keeps_editCtx _) fun _ => (keepsEng_bind (keeps_readHeads _ _) fun _ => (keepsEng_pure _))

theorem keeps_curPtr {u : State} (d k i) : KeepsEng u (curPtr d k i) := by
  unfold curPtr
  exact keeps_slotPtr _ _ _ _

theorem keeps_allDescs {u : State} (p k i) : KeepsEng u (allDescs p k i) := by
  unfold allDescs
  exact keepsEng_bind (keeps_theDir _) fun _ =>
    keepsEng_bind (keeps_curPtr _ _ _) fun _ =>
      keepsEng_bind (keeps_nextPtr _ _ _) fun _ => keepsEng_bind (keeps_bldPtr _ _ _) fun _ => keepsEng_pure _

theorem keeps_descAll {u : State} (p i f) : KeepsEng u (descAll p i f) := by
  unfold descAll
  exact keepsEng_get fun _ h1 =>
    keeps_engEach
      (fun _ => (keepsEng_bind (keeps_allDescs _ _ _) fun _ => (keeps_engEach (fun _ => (keeps_writeDesc _ _ _)) _))) _

theorem keeps_restSeq {u : State} (p x e f) : KeepsEng u (restSeq p x e f) := by
  unfold restSeq
  split
  · exact keepsEng_pure _
  · exact keeps_descAll _ _ _

theorem keeps_stepDone (h : Keeps u s) (p st status result detail) : Keeps u (stepDone p st status result detail s) := by
  unfold stepDone
  exact keeps_complete (keeps_pupd h _ _) _ _ _ _

theorem keeps_linkDown (h : Keeps u s) : Keeps u (linkDown s) := by
  unfold linkDown
  exact keeps_with (keeps_rset (keeps_rupd h _ _) _ _)

theorem keeps_fnReset (h : Keeps u s) (fn) : Keeps u (fnReset fn s) := by
  unfold fnReset
  exact keeps_with h

theorem keeps_kvAll (h : Keeps u s) (p o f) : Keeps u (kvAll p o f s) := by
  unfold kvAll
  exact keeps_foldl (fun _ _ h1 => (keeps_cluUpd h1 _ _ _)) h

theorem keeps_dirDrop (h : Keeps u s) (p) : Keeps u (dirDrop p s) := by
  unfold dirDrop
  exact keeps_foldl (fun _ _ h1 => (keeps_kvAll h1 _ _ _)) (keeps_pupd h _ _)

theorem keeps_queueZero (h : Keeps u s) (k col frame pair) : Keeps u (queueZero k col frame pair s) := by
  unfold queueZero
  exact keeps_with h

theorem keeps_framesToZero (h : Keeps u s) (p d) : Keeps u (framesToZero p d s) := by
  unfold framesToZero
  exact keeps_foldl
    (fun _ _ h1 =>
       keeps_iter (fun _ _ h2 => (by dsimp only; split; exact (keeps_ite h2 (keeps_queueZero h2 _ _ _ _)); exact h2)) h1) h

theorem keeps_dropStreams (h : Keeps u s) (ks) : Keeps u (dropStreams ks s) := by
  unfold dropStreams
  exact keeps_with (keeps_foldl (fun _ _ h1 => (keeps_iter (fun _ _ h2 => (keeps_cluUpd h2 _ _ _)) h1)) h)

theorem keeps_poolSet (h : Keeps u s) (p v) : Keeps u (poolSet p v s) := by
  unfold poolSet
  exact keeps_with h

theorem keeps_dropAreas (h : Keeps u s) (p) : Keeps u (dropAreas p s) := by
  unfold dropAreas
  exact keeps_pupd
    (keeps_rset
       (keeps_rset
          (keeps_rupd
             (keeps_poolSet
                (keeps_dropStreams
                   (keeps_foldl (fun _ _ h1 => (keeps_kvAll h1 _ _ _))
                      (by split; exact (keeps_dirDrop (keeps_framesToZero h _ _) _); exact h)) _) _ _) _ _) _ _) _ _) _ _

theorem keeps_startZeroing (h : Keeps u s) (p) : Keeps u (startZeroing p s) := by
  unfold startZeroing
  exact keeps_with (keeps_pupd h _ _)

theorem keeps_spClearWritten (h : Keeps u s) (c) : Keeps u (spClearWritten c s) := by
  unfold spClearWritten
  exact keeps_with h

theorem keeps_nbuClear (h : Keeps u s) (col) : Keeps u (nbuClear col s) := by
  unfold nbuClear
  exact keeps_rset (keeps_rset (keeps_nbupd h _ _) _ _) _ _

theorem keeps_assignCore (h : Keeps u s) (c) : Keeps u (assignCore c s) := by
  unfold assignCore
  exact keeps_with
    (keeps_nbuClear
       (keeps_nbuClear
          (keeps_cupd
             (keeps_iter (fun _ _ h1 => (keeps_corSet h1 _ _ _))
                (keeps_iter (fun _ _ h2 => (keeps_corSet h2 _ _ _))
                   (keeps_foldl (fun _ _ h3 => (keeps_corSet h3 _ _ _)) (keeps_spClearWritten h _)))) _ _) _) _)

theorem keeps_csClearWritten (h : Keeps u s) (c) : Keeps u (csClearWritten c s) := by
  unfold csClearWritten
  exact keeps_with h

theorem keeps_cluSet (h : Keeps u s) (c o w) : Keeps u (cluSet c o w s) := by
  unfold cluSet
  exact keeps_rset h _ _

theorem keeps_assignClu (h : Keeps u s) (k) : Keeps u (assignClu k s) := by
  unfold assignClu
  exact keeps_with (keeps_foldl (fun _ _ h1 => (keeps_cluSet h1 _ _ _)) (keeps_csClearWritten h _))

theorem keeps_assignAll (h : Keeps u s) (ks) : Keeps u (assignAll ks s) := by
  unfold assignAll
  exact keeps_foldl (fun _ _ h1 => (keeps_foldl (fun _ _ h2 => (keeps_assignCore h2 _)) (keeps_assignClu h1 _))) h

theorem keeps_silence (h : Keeps u s) (p) : Keeps u (silence p s) := by
  unfold silence
  exact keeps_with h

theorem keeps_emptyWindow (h : Keeps u s) (w) : Keeps u (emptyWindow w s) := by
  unfold emptyWindow
  exact keeps_wupd (keeps_silence h _) _ _

theorem keeps_csBusyN (h : Keeps u s) (c n tx) : Keeps u (csBusyN c n tx s) := by
  unfold csBusyN
  exact keeps_ite h (keeps_tallyClu (keeps_cluUpd h _ _ _) _ _ _ _)

theorem keeps_editStuck (h : Keeps u s) (p) : Keeps u (editStuck p s) := by
  unfold editStuck
  split
  · exact keeps_csBusyN h _ _ _
  · exact h

theorem keeps_trimSwap (h : Keeps u s) (p) : Keeps u (trimSwap p s) := by
  unfold trimSwap
  dsimp only
  split
  · exact keeps_pset h _ _
  · exact h

theorem keeps_countEdit (h : Keeps u s) (p) : Keeps u (countEdit p s) := by
  unfold countEdit
  exact keeps_foldl (fun _ _ h1 => (keeps_tallyClu h1 _ _ _ _)) (keeps_kvAll h _ _ _)

theorem keeps_curDesc {u : State} (p q) : KeepsEng u (curDesc p q) := by
  unfold curDesc
  exact keepsEng_bind (keeps_theDir _) fun _ =>
    keepsEng_get fun _ h1 =>
      by
        split
        · exact keepsEng_bind (keeps_curPtr _ _ _) fun _ =>
            keepsEng_ite (keepsEng_pure _) (keepsEng_bind (keeps_readDesc _ _) fun _ => (keepsEng_pure _))
        · exact keepsEng_pure _

theorem keeps_csBusy (h : Keeps u s) (c tx) : Keeps u (csBusy c tx s) := by
  unfold csBusy
  exact keeps_csBusyN h _ _ _

theorem keeps_t1WriteIn (h : Keeps u s) (c off v) : Keeps u (t1WriteIn c off v s) := by
  unfold t1WriteIn
  exact keeps_ite (keeps_t1WriteBlk h _ _ _) (by
      dsimp only
      split
      · exact keeps_t1WriteBlk (keeps_t1ReadBlk h _ _) _ _ _
      · exact keeps_t1PoisonBlk (keeps_t1ReadBlk h _ _) _ _)

theorem keeps_pairSet (h : Keeps u s) (k v) : Keeps u (pairSet k v s) := by
  unfold pairSet
  exact keeps_with h

theorem keeps_t2Corrected (h : Keeps u s) (off part) : Keeps u (t2Corrected off part s) := by
  unfold t2Corrected
  exact keeps_logErr (keeps_rupd h _ _) _

theorem keeps_t2Poisoned (h : Keeps u s) (off part) : Keeps u (t2Poisoned off part s) := by
  unfold t2Poisoned
  exact keeps_logErr (keeps_rupd h _ _) _

theorem keeps_t2Link (h : Keeps u s) (off n part) : Keeps u (t2Link off n part s).2 := by
  unfold t2Link
  exact keeps_foldl_snd
    (fun _ _ h1 =>
       keeps_ite_snd h1
         (keeps_ite_snd (keeps_t2Corrected (keeps_pairSet h1 _ _) _ _) (keeps_t2Poisoned (keeps_pairSet h1 _ _) _ _))) h

theorem keeps_uniBlock (h : Keeps u s) (c b) : Keeps u (uniBlock c b s).2 := by
  unfold uniBlock
  exact keeps_ite_snd (keeps_spRead h _ _) h

theorem keeps_uniBlocks : ∀ {s}, Keeps u s → ∀ c a, Keeps u (uniBlocks c a s).2
  | _, h, _, [] => by
    rw [uniBlocks]
    exact h
  | _, h, _, (b :: bs) => by
    rw [uniBlocks]
    exact keeps_uniBlocks (keeps_uniBlock h _ _) _ _

theorem keeps_t1ReadBlks : ∀ {s}, Keeps u s → ∀ c a a2, Keeps u (t1ReadBlks c a a2 s).2
  | _, h, _, 0, _ => by
    rw [t1ReadBlks]
    exact h
  | _, h, _, (n + 1), _ => by
    rw [t1ReadBlks]
    exact keeps_t1ReadBlks (keeps_t1ReadBlk h _ _) _ _ _

theorem keeps_loadBlocks (h : Keeps u s) (c n src uni) : Keeps u (loadBlocks c n src uni s).2 := by
  unfold loadBlocks
  exact keeps_ite_snd (keeps_ite_snd (keeps_uniBlocks h _ _) h) (keeps_ite_snd (keeps_t1ReadBlks h _ _ _) h)

theorem keeps_mergeFull (h : Keeps u s) (c b d poison) : Keeps u (mergeFull c b d poison s) := by
  unfold mergeFull
  exact keeps_cupd h _ _

theorem keeps_spStore (h : Keeps u s) (c b d chk) : Keeps u (spStore c b d chk s) :=
  h.step rfl (fun ⟨h1, h2, h3, h4, h5, h6, h7, h8, h9⟩ => ⟨memWrite_wf _ _ _ h1, memWrite_wf _ _ _ h2, h3, h4, h5, h6, h7, h8, h9⟩) id

theorem keeps_spWrite (h : Keeps u s) (c b d) : Keeps u (spWrite c b d s) := by
  unfold spWrite
  exact keeps_mergeFull (keeps_spStore h _ _ _ _) _ _ _ _

theorem keeps_xSet (h : Keeps u s) (c i w) : Keeps u (xSet c i w s) := by
  unfold xSet
  exact keeps_ite h (keeps_corSet h _ _ _)

theorem keeps_seqBegin (h : Keeps u s) (c) : Keeps u (seqBegin c s) := by
  unfold seqBegin
  exact keeps_cupd (keeps_iter (fun _ _ h1 => (keeps_xSet h1 _ _ _)) h) _ _

theorem keeps_startIfIdle (h : Keeps u s) (c) : Keeps u (startIfIdle c s) := by
  unfold startIfIdle
  exact keeps_ite (keeps_seqBegin h _) h

theorem keeps_loadEnd (h : Keeps u s) (c) : Keeps u (loadEnd c s).1 := by
  unfold loadEnd
  exact keeps_ite_fst h
    (keeps_startIfIdle
       (keeps_cupd
          (keeps_ite (keeps_iter (fun _ _ h1 => (keeps_ite (keeps_spWrite h1 _ _ _) h1)) (keeps_loadBlocks h _ _ _ _))
             (keeps_loadBlocks h _ _ _ _)) _ _) _)

theorem keeps_flushVector (h : Keeps u s) (fn vec) : Keeps u (flushVector fn vec s) := by
  unfold flushVector
  exact keeps_ite (keeps_fnSend (keeps_rupd h _ _) _ _) h

theorem keeps_d0Enter (h : Keeps u s) (fn) : Keeps u (d0Enter fn s) := by
  unfold d0Enter
  exact keeps_iter (fun _ _ h1 => (keeps_flushVector h1 _ _)) (keeps_with h)

theorem keeps_execD0Entry (h : Keeps u s) (fn) : KeepsRes u (execD0Entry fn s) := by
  unfold execD0Entry
  exact keeps_next (keeps_ite h (keeps_d0Enter h _))

theorem keeps_setSec (h : Keeps u s) (f) : Keeps u (setSec f s) := by
  unfold setSec
  exact keeps_with h

theorem keeps_setStream (h : Keeps u s) (n est set) : Keeps u (setStream n est set s) := by
  unfold setStream
  exact keeps_ite (keeps_setSec h _) (keeps_ite (keeps_setSec h _) (keeps_pupd h _ _))

theorem keeps_pteAll {u : State} (p i x lh blk same f) : KeepsEng u (pteAll p i x lh blk same f) := by
  unfold pteAll
  exact keepsEng_bind (keeps_allDescs _ _ _) fun _ =>
    keepsEng_bind (keeps_engMap (fun _ => (keeps_listBlk _ _ _ _)) _) fun _ =>
      keeps_engEach
        (fun _ =>
           keepsEng_ite (keepsEng_pure _)
             (keepsEng_bind (keeps_dRd _ _ _) fun _ => (keepsEng_ite (keeps_dWr _ _ _ _) (keepsEng_pure _)))) _

theorem keeps_losePage {u : State} (p i x lh blk) : KeepsEng u (losePage p i x lh blk) := by
  unfold losePage
  exact keepsEng_bind (keeps_getBld _ _ _ _ _) fun _ =>
    keepsEng_bind (keeps_theDir _) fun _ =>
      keepsEng_ite
        (keepsEng_bind (keeps_dropEntry _ _ _) fun _ => (keepsEng_ite (keeps_pteAll _ _ _ _ _ _ _) (keeps_setBld _ _ _ _ _ _)))
        (keepsEng_pure _)

theorem keeps_csAtomic (h : Keeps u s) (c off op arg tx) : Keeps u (csAtomic c off op arg tx s).2 := by
  unfold csAtomic
  dsimp only
  split
  · exact keeps_cluUpd (keeps_csRead h _ _) _ _ _
  · exact keeps_tallyClu (keeps_csWrite (keeps_csRead h _ _) _ _ _) _ _ _ _

theorem keeps_dAdd {u : State} (k off v) : KeepsEng u (dAdd k off v) := by
  unfold dAdd
  exact keepsEng_get fun _ h1 =>
    by
      dsimp only
      split
      · exact keepsEng_bind (keepsEng_set (keeps_csAtomic (keeps_csCount h1 _ _ _) _ _ _ _ _)) fun _ => keepsEng_pure _
      · exact keepsEng_fail _

theorem keeps_netRefused (h : Keeps u s) (q reason p) : Keeps u (netRefused q reason p s) := by
  unfold netRefused
  split
  · exact keeps_hubRefused h _ _ _
  · exact keeps_tallyClu (keeps_cluSet (keeps_cluUpd h _ _ _) _ _ _) _ _ _ _

theorem keeps_hostRaw (h : Keeps u s) (addr t reason) : Keeps u (hostRaw addr t reason s) := by
  unfold hostRaw
  exact keeps_ite h (by split; exact (keeps_logErr (keeps_countRaw h _ _) _); exact (keeps_logErr h _); exact h)

theorem keeps_refuseCount (h : Keeps u s) (q p addr st r) : Keeps u (refuseCount q p addr st r s) := by
  unfold refuseCount
  refine keeps_ite h (keeps_netRefused ?_ _ _ _)
  split
  · exact keeps_hostRaw h _ _ _
  · exact keeps_countRaw h _ _

theorem keeps_setTxs (h : Keeps u s) (l) : Keeps u (setTxs l s) := by
  unfold setTxs
  exact keeps_with h

theorem keeps_txUpd (h : Keeps u s) (id f) : Keeps u (txUpd id f s) := by
  unfold txUpd
  exact keeps_setTxs h _

theorem keeps_txSend (h : Keeps u s) (id) : Keeps u (txSend id s) := by
  unfold txSend
  split
  · exact h
  · exact keeps_ite h (by
        split
        · exact keeps_refuseCount (keeps_txUpd h _ _) _ _ _ _ _
        · exact h
        · exact keeps_ite h (by
              split
              · exact keeps_txUpd h _ _
              · exact keeps_ite h (by split; exact (keeps_tallyClu (keeps_txUpd h _ _) _ _ _ _); exact (keeps_txUpd h _ _))))

theorem keeps_netPump (h : Keeps u s) : Keeps u (netPump s) := by
  unfold netPump
  exact keeps_foldl (fun _ _ h1 => (keeps_txSend h1 _)) h

theorem keeps_fenceRemote (h : Keeps u s) (n) : Keeps u (fenceRemote n s) := by
  unfold fenceRemote
  exact keeps_with h

theorem keeps_dropRows (h : Keeps u s) (f) : Keeps u (dropRows f s) := by
  refine h.step rfl id fun hw col => ?_
  have hwc : (colget (dropRows f s) col).wc = (colget s col).wc := by
    unfold colget dropRows
    dsimp only
    induction s.cols with
    | nil => rfl
    | cons e r ih =>
      simp only [List.map_cons, stGet]
      split
      · rfl
      · exact ih
  simpa only [wcWf, hwc] using hw col

theorem keeps_fenceTxs (h : Keeps u s) (n) : Keeps u (fenceTxs n s) := by
  unfold fenceTxs
  exact keeps_with
    (keeps_ite (keeps_ite h (keeps_dropRows h _))
       (keeps_foldl (fun _ _ h1 => (keeps_pairSet h1 _ _)) (keeps_ite h (keeps_dropRows h _))))

theorem keeps_holdTrap (h : Keeps u s) (c t) : Keeps u (holdTrap c t s) := by
  unfold holdTrap
  exact keeps_ite h (keeps_squpd h _ _)

theorem keeps_gbarFree (h : Keeps u s) (p g) : Keeps u (gbarFree p g s) := by
  unfold gbarFree
  exact keeps_with (keeps_foldl (fun _ _ h1 => (keeps_ite (keeps_pcTo h1 _ _) h1)) h)

theorem keeps_breakBarriers (h : Keeps u s) (c) : Keeps u (breakBarriers c s) := by
  unfold breakBarriers
  exact keeps_iter (fun _ _ h1 => (keeps_ite h1 (keeps_foldl (fun _ _ h2 => (keeps_holdTrap h2 _ _)) (keeps_gbarFree h1 _ _))))
    h

theorem keeps_publishMap (h : Keeps u s) : Keeps u (publishMap s) := by
  unfold publishMap
  exact keeps_rupd (keeps_rupd (keeps_iter (fun _ _ h1 => (keeps_rupd h1 _ _)) h) _ _) _ _

theorem keeps_mapChange (h : Keeps u s) (m) : Keeps u (mapChange m s) := by
  unfold mapChange
  exact keeps_rupd (keeps_publishMap (keeps_with h)) _ _

theorem keeps_towerReset (h : Keeps u s) (n) : Keeps u (towerReset n s) := h.step rfl id (wcWf_stDrop rfl)

theorem keeps_towerHold (h : Keeps u s) (n) : Keeps u (towerHold n s) := by
  unfold towerHold
  exact keeps_rset (keeps_rset (keeps_towerReset h _) _ _) _ _

theorem keeps_lossRecords (h : Keeps u s) (n ps) : Keeps u (lossRecords n ps s) := by
  unfold lossRecords
  exact keeps_ite (keeps_logErr h _) (keeps_foldl (fun _ _ h1 => (keeps_logErr h1 _)) h)

theorem keeps_routeLoad (h : Keeps u s) : Keeps u (routeLoad s) := by
  unfold routeLoad
  exact keeps_with h

theorem keeps_winLast (h : Keeps u s) (w status slot) : Keeps u (winLast w status slot s) := by
  unfold winLast
  exact keeps_rupd h _ _

theorem keeps_takePacket (h : Keeps u s) (w b) : Keeps u (takePacket w b s) := by
  unfold takePacket
  exact keeps_ite (keeps_winLast (keeps_wset h _ _) _ _ _)
    (keeps_ite (keeps_reply (keeps_winLast (keeps_wset h _ _) _ _ _) _ _ _ _ _ _ _ _)
       (keeps_reply (keeps_tallyHub (keeps_wupd (keeps_with (keeps_wset h _ _)) _ _) _ _ _ _) _ _ _ _ _ _ _ _))

theorem keeps_wipeSrams (h : Keeps u s) (n) : Keeps u (wipeSrams n s) :=
  h.step rfl (fun ⟨h1, h2, h3, h4, h5, h6, h7, h8, h9⟩ => ⟨stDrop_wf _ _ _ _ h1, stDrop_wf _ _ _ _ h2, stDrop_wf _ _ _ _ h3, stDrop_wf _ _ _ _ h4, h5, h6, h7, h8, h9⟩) id

theorem keeps_remap (h : Keeps u s) (m) : Keeps u (remap m s) := by
  unfold remap
  exact keeps_ite h (keeps_rupd (keeps_mapChange h _) _ _)

theorem keeps_bootStop (h : Keeps u s) : Keeps u (bootStop s) := by
  unfold bootStop
  exact keeps_with h

theorem keeps_stageEnd (h : Keeps u s) (n fs stop reused dur) : Keeps u (stageEnd n fs stop reused dur s) := by
  unfold stageEnd
  exact keeps_ite (keeps_bootStop (keeps_with (keeps_fireStage h _ _ _ _ _ _))) (keeps_with (keeps_fireStage h _ _ _ _ _ _))

theorem keeps_execStage5 (h : Keeps u s) (f) : KeepsRes u (execStage5 f s) := by
  unfold execStage5
  exact keepsRes_ite (keeps_next h)
    (keeps_next
       (keeps_stageEnd (keeps_remap (keeps_foldl (fun _ _ h1 => (keeps_wipeSrams h1 _)) (keeps_testTowers h _ _)) _) _ _ _ _ _))

theorem keeps_bldSeqs {u : State} (p) : KeepsEng u (bldSeqs p) := by
  unfold bldSeqs
  exact keepsEng_bind (keeps_editCtx _) fun _ =>
    keepsEng_bind (keeps_engMap (fun _ => (keepsEng_bind (keeps_bldPtr _ _ _) fun _ => (keepsEng_pure _))) _) fun _ =>
      keepsEng_pure _

theorem keeps_placesWith {u : State} (p x f) : KeepsEng u (placesWith p x f) := by
  unfold placesWith
  exact keepsEng_bind (keeps_bldSeqs _) fun _ =>
    keepsEng_bind (keeps_engMap (fun _ => (keepsEng_bind (keeps_entriesWith _ _ _ _) fun _ => (keepsEng_pure _))) _) fun _ =>
      keepsEng_pure _

theorem keeps_loseWhere {u : State} (p f) : KeepsEng u (loseWhere p f) := by
  unfold loseWhere
  exact keepsEng_bind (keeps_editCtx _) fun _ =>
    keepsEng_bind (keeps_placesWith _ _ _) fun _ =>
      keepsEng_bind (keeps_engEach (fun _ => (keeps_losePage _ _ _ _ _)) _) fun _ => keeps_autoCommit _

theorem keeps_hostPagesLost (h : Keeps u s) (p) : Keeps u (hostPagesLost p s) := by
  unfold hostPagesLost
  exact keeps_rset (keeps_rset (keeps_pupd (keeps_engRun h (keeps_loseWhere _ _)) _ _) _ _) _ _

theorem keeps_wipeSaggar (h : Keeps u s) : Keeps u (wipeSaggar s) := by
  unfold wipeSaggar
  exact keeps_rupd (keeps_with (keeps_foldl (fun _ _ h1 => (keeps_pupd (keeps_hostPagesLost h1 _) _ _)) h)) _ _

theorem keeps_startBegin (h : Keeps u s) (full) : Keeps u (startBegin full s) := by
  unfold startBegin
  exact keeps_with h

theorem keeps_tkTake (h : Keeps u s) (c tw) : Keeps u (tkTake c tw s) := by
  unfold tkTake
  exact keeps_ite h (keeps_tkPut h _ _ _)

theorem keeps_vxupd (h : Keeps u s) (c f) : Keeps u (vxupd c f s) := by
  unfold vxupd
  exact keeps_cupd h _ _

theorem keeps_vxDone (h : Keeps u s) (c i q poison) : Keeps u (vxDone c i q poison s) := by
  unfold vxDone
  exact keeps_tkTake (keeps_vxupd h _ _) _ _

theorem keeps_vxNum (h : Keeps u s) (c nan sclamp sat cvt) : Keeps u (vxNum c nan sclamp sat cvt s) := by
  unfold vxNum
  exact keeps_corUpd h _ _ _

theorem keeps_vxLanes (h : Keeps u s) (c op fn) : Keeps u (vxLanes c op fn s) := by
  unfold vxLanes
  split
  · exact h
  · exact keeps_vxDone (keeps_vxNum (keeps_vxupd h _ _) _ _ _ _ _) _ _ _ _

theorem keeps_execVneg (h : Keeps u s) (c) : KeepsRes u (execVneg c s) := by
  unfold execVneg
  exact keeps_next (keeps_vxLanes h _ _ _)

theorem keeps_seqR (h : Keeps u s) (c op f) : Keeps u (seqR c op f s) := by
  unfold seqR
  exact keeps_seqStep h _ _ _ (fun _ _ h1 => (keeps_seqNext (keeps_xSet h1 _ _ _) _ _))

theorem keeps_execShr (h : Keeps u s) (c) : KeepsRes u (execShr c s) := by
  unfold execShr
  exact keeps_next (keeps_seqR h _ _ _)

theorem keeps_hostRefused (h : Keeps u s) (w r) : Keeps u (hostRefused w r s) := by
  unfold hostRefused
  exact keeps_ite (keeps_hubRefused h _ _ _) h

theorem keeps_ctrSet (h : Keeps u s) (k v) : Keeps u (ctrSet k v s) := by
  unfold ctrSet
  exact keeps_with h

theorem keeps_readCtr (h : Keeps u s) (exact k o) : Keeps u (readCtr exact k o s).2 := by
  unfold readCtr
  exact keeps_ite_snd (keeps_ctrSet h _ _) h

theorem keeps_readReg (h : Keeps u s) (exact off) : Keeps u (readReg exact off s).2 := by
  unfold readReg
  split
  · exact keeps_readCtr h _ _ _
  · exact h

theorem keeps_readRegs : ∀ {s}, Keeps u s → ∀ exact off a, Keeps u (readRegs exact off a s).2
  | _, h, _, _, 0 => by
    rw [readRegs]
    exact h
  | _, h, _, _, (n + 1) => by
    rw [readRegs]
    exact keeps_readRegs (keeps_readReg h _ _) _ _ _

theorem keeps_regBytes (h : Keeps u s) (exact o n) : Keeps u (regBytes exact o n s).2 := by
  unfold regBytes
  exact keeps_readRegs h _ _ _

theorem keeps_t2Read (h : Keeps u s) (off n tx) : Keeps u (t2Read off n tx s).2 := by
  unfold t2Read
  exact keeps_tallyHub h _ _ _ _

theorem keeps_t2Load (h : Keeps u s) (off n tx) : Keeps u (t2Load off n tx s).2 := by
  unfold t2Load
  exact keeps_ite_snd (keeps_t2Poisoned (keeps_t2Read (keeps_t2Link h _ _ _) _ _ _) _ _)
    (keeps_ite_snd (keeps_t2Read (keeps_t2Link h _ _ _) _ _ _) (keeps_t2Read (keeps_t2Link h _ _ _) _ _ _))

theorem keeps_execRstNAssert (h : Keeps u s) : KeepsRes u (execRstNAssert s) := by
  unfold execRstNAssert
  exact keeps_next (keeps_with h)

theorem keeps_mntSet (h : Keeps u s) (a0 kind v) : Keeps u (mntSet a0 kind v s) := by
  unfold mntSet
  exact keeps_with h

theorem keeps_twrPublish (h : Keeps u s) (n cause) : Keeps u (twrPublish n cause s) := by
  unfold twrPublish
  exact keeps_rupd h _ _

theorem keeps_publishAll (h : Keeps u s) : Keeps u (publishAll s) := by
  unfold publishAll
  exact keeps_iter (fun _ _ h1 => (keeps_twrPublish h1 _ _)) h

theorem keeps_brakeSource (h : Keeps u s) (i v) : Keeps u (brakeSource i v s) := by
  unfold brakeSource
  exact keeps_ite (keeps_publishAll (keeps_rupd (keeps_rupd h _ _) _ _)) (keeps_rupd h _ _)

theorem keeps_thermBrake (h : Keeps u s) : Keeps u (thermBrake s) := by
  unfold thermBrake
  exact keeps_ite h
    (keeps_ite (keeps_brakeSource (keeps_with h) _ _) (keeps_ite (keeps_brakeSource (keeps_with h) _ _) (keeps_with h)))

theorem keeps_spdm (h : Keeps u s) (ok code data) {f : State → State} (hf : ∀ s, Keeps u s → Keeps u (f s)) :
    Keeps u (spdm ok code data f s) := by
  unfold spdm
  exact keeps_ite h (keeps_ite (keeps_hostSend (hf _ h) _) (keeps_hostSend h _))

theorem keeps_execGetDigests (h : Keeps u s) : KeepsRes u (execGetDigests s) := by
  unfold execGetDigests
  exact keeps_next (keeps_spdm h _ _ _ (fun _ h1 => h1))

theorem keeps_mntStart (h : Keeps u s) (k) : Keeps u (mntStart k s) := by
  unfold mntStart
  exact keeps_ite (keeps_complete h _ _ _ _)
    (keeps_ite (keeps_complete h _ _ _ _)
       (keeps_ite (keeps_complete h _ _ _ _) (by
            split
            · exact keeps_complete h _ _ _ _
            · exact keeps_ite (keeps_complete h _ _ _ _) (keeps_complete (keeps_with h) _ _ _ _))))

theorem keeps_execMntStart (h : Keeps u s) (w) : KeepsRes u (execMntStart w s) := by
  unfold execMntStart
  exact keeps_runCmd h _ _ _ (fun _ _ h1 => (keeps_mntStart h1 _))

theorem keeps_snapShow (h : Keeps u s) : Keeps u (snapShow s) := by
  unfold snapShow
  exact keeps_rupd h _ _

theorem keeps_snapBegin (h : Keeps u s) (r) : Keeps u (snapBegin r s) := by
  unfold snapBegin
  exact keeps_snapShow (keeps_with h)

theorem keeps_snapAsk (h : Keeps u s) (r) : Keeps u (snapAsk r s).2 := by
  unfold snapAsk
  exact keeps_ite_snd (keeps_snapBegin h _)
    (by split; exact (keeps_snapShow (keeps_with h)); exact (keeps_ite_snd (keeps_with h) h))

theorem keeps_execSnapshotUnfreeze (h : Keeps u s) : KeepsRes u (execSnapshotUnfreeze s) := by
  unfold execSnapshotUnfreeze
  exact keeps_next (keeps_snapAsk h _)

theorem keeps_execVfma (h : Keeps u s) (c) : KeepsRes u (execVfma c s) := by
  unfold execVfma
  exact keeps_next (keeps_vxLanes h _ _ _)

theorem keeps_mvupd (h : Keeps u s) (c ch f) : Keeps u (mvupd c ch f s) := by
  unfold mvupd
  exact keeps_cupd h _ _

theorem keeps_mvFail (h : Keeps u s) (c ch status hi d) : Keeps u (mvFail c ch status hi d s) := by
  unfold mvFail
  exact keeps_holdTrap (keeps_mvupd h _ _ _) _ _

theorem keeps_trackPhase (h : Keeps u s) (n m) : Keeps u (trackPhase n m s) := by
  unfold trackPhase
  exact keeps_ite h (keeps_with (keeps_takeFree h))

theorem keeps_execNegotiateAlgorithms (h : Keeps u s) (falcon) : KeepsRes u (execNegotiateAlgorithms falcon s) := by
  unfold execNegotiateAlgorithms
  exact keeps_next (keeps_spdm h _ _ _ (fun _ h1 => (keeps_setSec h1 _)))

theorem keeps_examine : ∀ {s}, Keeps u s → ∀ w off n a, Keeps u (examine w off n a s)
  | _, h, _, _, _, 0 => by
    rw [examine]
    exact h
  | _, h, _, _, _, (n_1 + 1) => by
    rw [examine]
    exact keeps_ite h
      (keeps_ite (keeps_ite (keeps_winLast (keeps_wset h _ _) _ _ _) h)
         (keeps_ite (keeps_ite (keeps_examine (keeps_takePacket h _ _) _ _ _ _) (keeps_rupd h _ _)) h))

theorem keeps_seqI (h : Keeps u s) (c op f) : Keeps u (seqI c op f s) := by
  unfold seqI
  exact keeps_seqStep h _ _ _ (fun _ _ h1 => (keeps_seqNext (keeps_xSet h1 _ _ _) _ _))

theorem keeps_countCa (h : Keeps u s) : Keeps u (countCa s) := by
  unfold countCa
  exact keeps_rupd h _ _

theorem keeps_bar0Read (h : Keeps u s) (fn off n) : Keeps u (bar0Read fn off n s) := by
  unfold bar0Read
  split
  · exact h
  · exact keeps_ite (keeps_fnSend (keeps_countCa h) _ _) (keeps_fnSend (keeps_regBytes h _ _ _) _ _)

theorem keeps_hostReq (h : Keeps u s) (fn addr) : Keeps u (hostReq fn addr s) := by
  unfold hostReq
  exact keeps_tallyHub h _ _ _ _

theorem keeps_countUr (h : Keeps u s) : Keeps u (countUr s) := by
  unfold countUr
  exact keeps_rupd h _ _

theorem keeps_bar2Refuse (h : Keeps u s) (x n write) : Keeps u (bar2Refuse x n write s) := by
  unfold bar2Refuse
  split
  · exact h
  · exact by split; exact h; exact (by split; exact (keeps_hostRefused (keeps_hostRaw h _ _ _) _ _); exact h)

theorem keeps_cfgSet (h : Keeps u s) (fn i w) : Keeps u (cfgSet fn i w s) := by
  unfold cfgSet
  exact keeps_with h

theorem keeps_aerAdvisory (h : Keeps u s) : Keeps u (aerAdvisory s) := by
  unfold aerAdvisory
  exact keeps_ite (keeps_fnSend (keeps_cfgSet h _ _ _) _ _) (keeps_cfgSet h _ _ _)

theorem keeps_redTail (h : Keeps u s) (op len d) : Keeps u (redTail op len d s).2 := by
  unfold redTail
  exact keeps_ite_snd h (keeps_takeFree h)

theorem keeps_redMsg (h : Keeps u s) (x) : Keeps u (redMsg x s).2 := by
  unfold redMsg
  exact keeps_redTail h _ _ _

theorem keeps_publishCtxs (h : Keeps u s) (a0) : Keeps u (publishCtxs a0 s) := by
  unfold publishCtxs
  exact keeps_rupd h _ _

theorem keeps_hold (h : Keeps u s) (src m) : Keeps u (hold src m s) := by
  unfold hold
  exact keeps_with h

theorem keeps_redDone (h : Keeps u s) (x) : Keeps u (redDone x s) := by
  unfold redDone
  exact keeps_foldl (fun _ _ h1 => (keeps_post h1 _))
    (keeps_ite
       (keeps_hold
          (keeps_ite (keeps_redMsg (keeps_publishCtxs (keeps_tallyHub (keeps_with h) _ _ _ _) _) _)
             (keeps_post (keeps_redMsg (keeps_publishCtxs (keeps_tallyHub (keeps_with h) _ _ _ _) _) _) _)) _ _)
       (keeps_ite (keeps_redMsg (keeps_publishCtxs (keeps_tallyHub (keeps_with h) _ _ _ _) _) _)
          (keeps_post (keeps_redMsg (keeps_publishCtxs (keeps_tallyHub (keeps_with h) _ _ _ _) _) _) _)))

theorem keeps_execReduceContextTimeout (h : Keeps u s) (group tag) : KeepsRes u (execReduceContextTimeout group tag s) := by
  unfold execReduceContextTimeout
  split
  · exact keeps_next h
  · exact keepsRes_ite (keeps_next h) (keeps_next (keeps_redDone (keeps_rupd h _ _) _))

theorem keeps_writeOt (h : Keeps u s) (c floor max' weight) : Keeps u (writeOt c floor max' weight s) := by
  unfold writeOt
  exact keeps_rset h _ _

theorem keeps_writeCoreOt (h : Keeps u s) (c w) : Keeps u (writeCoreOt c w s) := by
  unfold writeCoreOt
  exact keeps_ite h (keeps_writeOt h _ _ _ _)

theorem keeps_writeLimit (h : Keeps u s) (key fieldHi lo hi v w1c) : Keeps u (writeLimit key fieldHi lo hi v w1c s).1 := by
  unfold writeLimit
  exact keeps_rupd h _ _

theorem keeps_writePkgLimit (h : Keeps u s) (v w1c) : Keeps u (writePkgLimit v w1c s).1 := by
  unfold writePkgLimit
  exact keeps_writeLimit h _ _ _ _ _ _

theorem keeps_execPkgLimitWrite (h : Keeps u s) (w) : KeepsRes u (execPkgLimitWrite w s) := by
  unfold execPkgLimitWrite
  exact keeps_next (keeps_writePkgLimit h _ _)

theorem keeps_setLevel (h : Keeps u s) (k v) : Keeps u (setLevel k v s) := by
  unfold setLevel
  exact keeps_with h

theorem keeps_execGovernorRiseTick (h : Keeps u s) (k) : KeepsRes u (execGovernorRiseTick k s) := by
  unfold execGovernorRiseTick
  exact keeps_next (keeps_ite (keeps_setLevel h _ _) h)

theorem keeps_csZeroBlks (h : Keeps u s) (k b n) : Keeps u (csZeroBlks k b n s) :=
  h.step rfl (fun ⟨h1, h2, h3, h4, h5, h6, h7, h8, h9⟩ => ⟨h1, h2, memZero_wf _ _ _ h3, memZero_wf _ _ _ h4, h5, h6, h7, h8, h9⟩) id

theorem keeps_execSra (h : Keeps u s) (c) : KeepsRes u (execSra c s) := by
  unfold execSra
  exact keeps_next (keeps_seqR h _ _ _)

theorem keeps_swapFail (h : Keeps u s) (p st lh blk) : Keeps u (swapFail p st lh blk s) := by
  unfold swapFail
  exact keeps_pupd h _ _

theorem keeps_jobSet (h : Keeps u s) (p key f) : Keeps u (jobSet p key f s) := by
  unfold jobSet
  exact keeps_pupd h _ _

theorem keeps_writeImage (h : Keeps u s) (col f version ks vs img) : Keeps u (writeImage col f version ks vs img s) := by
  unfold writeImage
  exact keeps_rowMeet (keeps_ftSet (keeps_iter (fun _ _ h1 => (keeps_t1WriteBlk h1 _ _ _)) h) _ _ _) _ _ _ _

theorem keeps_jobDone (h : Keeps u s) (p j r) : Keeps u (jobDone p j r s) := by
  unfold jobDone
  split
  · exact keeps_swapFail h _ _ _ _
  · exact by split; exact (keeps_swapFail h _ _ _ _); exact (keeps_jobSet (keeps_writeImage h _ _ _ _ _ _) _ _ _)

theorem keeps_writeBack (h : Keeps u s) (c) : Keeps u (writeBack c s) := by
  unfold writeBack
  split
  · exact h
  · exact keeps_spStore (keeps_cupd h _ _) _ _ _ _

theorem keeps_execNarrowWriteBack (h : Keeps u s) (c) : KeepsRes u (execNarrowWriteBack c s) := by
  unfold execNarrowWriteBack
  exact keeps_next (keeps_ite (keeps_writeBack h _) h)

theorem keeps_seqJump (h : Keeps u s) (c w t) : Keeps u (seqJump c w t s) := by
  unfold seqJump
  exact keeps_ite (keeps_tallyCore (keeps_pcTo h _ _) _ _ _ _) (keeps_seqTrap h _ _ _ _ _)

theorem keeps_seqB (h : Keeps u s) (c op f) : Keeps u (seqB c op f s) := by
  unfold seqB
  exact keeps_seqStep h _ _ _ (fun _ _ h1 => (keeps_ite (keeps_seqJump h1 _ _ _) (keeps_seqNext h1 _ _)))

theorem keeps_clearBounds (h : Keeps u s) (p) : Keeps u (clearBounds p s) := by
  unfold clearBounds
  exact keeps_foldl (fun _ _ h1 => (keeps_rset h1 _ _)) h

theorem keeps_glzFail (h : Keeps u s) (p auth) : Keeps u (glzFail p auth s) := by
  unfold glzFail
  exact keeps_rupd h _ _

theorem keeps_resetWindow (h : Keeps u s) (w) : Keeps u (resetWindow w s) := by
  unfold resetWindow
  exact keeps_wupd h _ _

theorem keeps_plainWrite (h : Keeps u s) (off w) : Keeps u (plainWrite off w s) := by
  unfold plainWrite
  split
  · exact h
  · exact keeps_rupd h _ _

theorem keeps_writeMsix (h : Keeps u s) (fn i off w) : Keeps u (writeMsix fn i off w s) := by
  unfold writeMsix
  exact keeps_ite (keeps_flushVector (keeps_plainWrite h _ _) _ _) (keeps_plainWrite h _ _)

theorem keeps_writeGlb (h : Keeps u s) (o w) : Keeps u (writeGlb o w s) := by
  unfold writeGlb
  exact keeps_ite (keeps_ite (keeps_resetWindow h _) h) (keeps_ite (keeps_writeMsix h _ _ _ _) (keeps_plainWrite h _ _))

theorem keeps_writeBrake (h : Keeps u s) (w) : Keeps u (writeBrake w s) := by
  unfold writeBrake
  exact keeps_brakeSource h _ _

theorem keeps_writeRamp (h : Keeps u s) (w) : Keeps u (writeRamp w s) := by
  unfold writeRamp
  exact keeps_rset h _ _

theorem keeps_writeTwrLimit (h : Keeps u s) (n v w1c) : Keeps u (writeTwrLimit n v w1c s).1 := by
  unfold writeTwrLimit
  exact keeps_writeLimit h _ _ _ _ _ _

theorem keeps_writeKilnLast (h : Keeps u s) (w) : Keeps u (writeKilnLast w s) := by
  unfold writeKilnLast
  exact keeps_ite (keeps_rset (keeps_with h) _ _) h

theorem keeps_writeThm (h : Keeps u s) (o w) : Keeps u (writeThm o w s) := by
  unfold writeThm
  exact keeps_ite (keeps_writePkgLimit h _ _)
    (keeps_ite (keeps_ite (keeps_writeBrake h _) h)
       (keeps_ite (keeps_writeRamp h _)
          (keeps_ite (keeps_writeTwrLimit h _ _ _) (keeps_ite (keeps_writeKilnLast h _) (keeps_plainWrite h _ _)))))

theorem keeps_writeSnapCtl (h : Keeps u s) (w) : Keeps u (writeSnapCtl w s) := by
  unfold writeSnapCtl
  exact keeps_foldl (fun _ _ h1 => (keeps_ite (keeps_snapAsk h1 _) h1)) h

theorem keeps_telDrain : ∀ {s}, Keeps u s → ∀ a, Keeps u (telDrain a s)
  | _, h, 0 => by
    rw [telDrain]
    exact h
  | _, h, (n + 1) => by
    rw [telDrain]
    split
    · exact h
    · exact keeps_ite (keeps_telDrain (keeps_telPut (keeps_with h) _) _) h

theorem keeps_writeTelemHead (h : Keeps u s) (w) : Keeps u (writeTelemHead w s) := by
  unfold writeTelemHead
  exact keeps_telDrain (keeps_with h) _

theorem keeps_writePeriod (h : Keeps u s) (a0 w) : Keeps u (writePeriod a0 w s) := by
  unfold writePeriod
  exact keeps_ite h (keeps_mntSet h _ _ _)

theorem keeps_debugWrite (h : Keeps u s) (off w) : Keeps u (debugWrite off w s) := by
  unfold debugWrite
  exact keeps_ite h (by
      split
      · exact keeps_ite (keeps_rset h _ _) h
      · exact keeps_ite (keeps_ite (keeps_poolSet h _ _) (keeps_ite (keeps_poolSet h _ _) (keeps_ite (keeps_poolSet h _ _) h)))
          (keeps_ite (keeps_rset h _ _) h)
      · exact h)

theorem keeps_writeHub (h : Keeps u s) (a0 o w) : Keeps u (writeHub a0 o w s) := by
  unfold writeHub
  exact keeps_ite h
    (keeps_ite (keeps_plainWrite h _ _) (keeps_ite (keeps_writePeriod h _ _) (keeps_debugWrite (keeps_plainWrite h _ _) _ _)))

theorem keeps_writeUnified (h : Keeps u s) (c v) : Keeps u (writeUnified c v s) := by
  unfold writeUnified
  exact keeps_ite (keeps_cupd h _ _) h

theorem keeps_writeCtrl (h : Keeps u s) (c w) : Keeps u (writeCtrl c w s) := by
  unfold writeCtrl
  exact keeps_writeUnified (keeps_ite (keeps_cupd h _ _) h) _ _

theorem keeps_setMapErr (h : Keeps u s) (c) : Keeps u (setMapErr c s) := by
  unfold setMapErr
  exact keeps_cupd h _ _

theorem keeps_writeSlotMap (h : Keeps u s) (c m w) : Keeps u (writeSlotMap c m w s) := by
  unfold writeSlotMap
  exact keeps_ite (keeps_setMapErr h _) (keeps_ite (keeps_corSet h _ _ _) (keeps_setMapErr (keeps_corSet h _ _ _) _))

theorem keeps_writeUniRegion (h : Keeps u s) (c i w) : Keeps u (writeUniRegion c i w s) := by
  unfold writeUniRegion
  exact keeps_ite (keeps_setMapErr h _) (keeps_corSet h _ _ _)

theorem keeps_writeSeqCtl (h : Keeps u s) (c w) : Keeps u (writeSeqCtl c w s) := by
  unfold writeSeqCtl
  exact keeps_ite
    (keeps_ite (keeps_haltReqCore (keeps_ite (keeps_corSet h _ _ _) (keeps_ite (keeps_setCtlErr h _) h)) _)
       (keeps_ite (keeps_corSet h _ _ _) (keeps_ite (keeps_setCtlErr h _) h)))
    (keeps_ite
       (keeps_setCtlErr
          (keeps_ite (keeps_haltReqCore (keeps_ite (keeps_corSet h _ _ _) (keeps_ite (keeps_setCtlErr h _) h)) _)
             (keeps_ite (keeps_corSet h _ _ _) (keeps_ite (keeps_setCtlErr h _) h))) _)
       (keeps_startIfIdle
          (keeps_squpd
             (keeps_ite (keeps_haltReqCore (keeps_ite (keeps_corSet h _ _ _) (keeps_ite (keeps_setCtlErr h _) h)) _)
                (keeps_ite (keeps_corSet h _ _ _) (keeps_ite (keeps_setCtlErr h _) h))) _ _) _))

theorem keeps_writeHalted (h : Keeps u s) (c off w) : Keeps u (writeHalted c off w s) := by
  unfold writeHalted
  exact keeps_ite (keeps_plainWrite h _ _) (keeps_setCtlErr h _)

theorem keeps_writeMovCh (h : Keeps u s) (c ch w) : Keeps u (writeMovCh c ch w s) := by
  unfold writeMovCh
  exact keeps_ite (keeps_movClr h _ _) h

theorem keeps_writeLoadCtl (h : Keeps u s) (c w) : Keeps u (writeLoadCtl c w s) := by
  unfold writeLoadCtl
  exact keeps_ite (keeps_corSet h _ _ _)
    (keeps_ite (keeps_setCtlErr (keeps_corSet h _ _ _) _) (keeps_cupd (keeps_corSet h _ _ _) _ _))

theorem keeps_setStrmIdx (h : Keeps u s) (k i v) : Keeps u (setStrmIdx k i v s) := by
  unfold setStrmIdx
  exact keeps_with h

theorem keeps_grantStream (h : Keeps u s) (k i n) : Keeps u (grantStream k i n s) := by
  unfold grantStream
  exact keeps_ite h (keeps_streamNote h _ _ _ _ _)

theorem keeps_mxCycles (h : Keeps u s) (c y wf q) : Keeps u (mxCycles c y wf q s) := by
  unfold mxCycles
  exact keeps_tallyCore
    (keeps_tallyCore (keeps_corUpd (keeps_corUpd (keeps_corUpd (keeps_corUpd (keeps_corUpd h _ _ _) _ _ _) _ _ _) _ _ _) _ _ _)
       _ _ _ _) _ _ _ _

theorem keeps_launchMark {u : State} (p steps e f) : KeepsEng u (launchMark p steps e f) := by
  unfold launchMark
  exact keepsEng_bind (keeps_curDesc _ _) fun _ =>
    by
      split
      · exact keepsEng_pure _
      · exact keepsEng_ite (keeps_descAll _ _ _) (keepsEng_ite (keeps_descAll _ _ _) (keepsEng_pure _))

theorem keeps_hostRead (h : Keeps u s) (fn addr len a3) : Keeps u (hostRead fn addr len a3 s) := by
  unfold hostRead
  exact keeps_fnSend (keeps_with h) _ _

theorem keeps_dropReads (h : Keeps u s) (f) : Keeps u (dropReads f s) := by
  unfold dropReads
  exact keeps_with h

theorem keeps_rekeyReads (h : Keeps u s) (p slot) : Keeps u (rekeyReads p slot s) := by
  unfold rekeyReads
  exact keeps_iter (fun _ _ h1 => (keeps_hostRead h1 _ _ _ _)) (keeps_hostRead (keeps_dropReads h _) _ _ _ _)

theorem keeps_rekeyStart (h : Keeps u s) (p q lh blk) : Keeps u (rekeyStart p q lh blk s) := by
  unfold rekeyStart
  exact keeps_ite h
    (keeps_ite (keeps_rupd (keeps_pupd h _ _) _ _) (by
         split
         · exact h
         · rename_i e1
           exact keeps_ite
             (keeps_rekeyReads
                (keeps_pupd
                   ((keepsEng_bind (keeps_editCtx _) fun _ =>
                       keepsEng_bind (keeps_needSeq _ _ _) fun _ =>
                         keepsEng_bind (keeps_getBld _ _ _ _ _) fun _ => keepsEng_pure _) _ _ _ h e1) _ _) _ _)
             ((keepsEng_bind (keeps_editCtx _) fun _ =>
                 keepsEng_bind (keeps_needSeq _ _ _) fun _ => keepsEng_bind (keeps_getBld _ _ _ _ _) fun _ => keepsEng_pure _) _
                _ _ h e1)))

theorem keeps_execRekeySweep (h : Keeps u s) (p q lh blk) : KeepsRes u (execRekeySweep p q lh blk s) := by
  unfold execRekeySweep
  exact keeps_next (keeps_rekeyStart h _ _ _ _)

theorem keeps_answer (h : Keeps u s) (id status resp) : Keeps u (answer id status resp s) := by
  unfold answer
  exact keeps_txUpd (keeps_with h) _ _

theorem keeps_t2Close (h : Keeps u s) (id) : Keeps u (t2Close id s) := by
  unfold t2Close
  exact keeps_ite h (by split; exact h; exact (keeps_answer h _ _ _))

theorem keeps_liveSeqs {u : State} (p) : KeepsEng u (liveSeqs p) := by
  unfold liveSeqs
  exact keepsEng_bind (keeps_editCtx _) fun _ =>
    keepsEng_bind
      (keeps_engMap
         (fun _ =>
            keepsEng_bind (keeps_curPtr _ _ _) fun _ =>
              keepsEng_bind (keeps_bldPtr _ _ _) fun _ =>
                keepsEng_ite (keepsEng_pure _) (keepsEng_bind (keeps_readDesc _ _) fun _ => (keepsEng_pure _))) _) fun _ =>
      keepsEng_pure _

theorem keeps_preemptVictim (h : Keeps u s) (p held) : Keeps u (preemptVictim p held s) := by
  unfold preemptVictim
  exact keeps_ite (keeps_ite (keeps_pupd h _ _) h)
    (keeps_ite (keeps_pupd h _ _) (by
         split
         · exact h
         · rename_i e1
           exact keeps_ite ((keeps_liveSeqs _) _ _ _ h e1) (by
               split
               · exact keeps_pupd ((keeps_liveSeqs _) _ _ _ h e1) _ _
               · exact keeps_engRun
                   (keeps_engRun (keeps_kvAll (keeps_pupd ((keeps_liveSeqs _) _ _ _ h e1) _ _) _ _ _) (keeps_descAll _ _ _))
                   (keepsEng_bind (keeps_editCtx _) fun _ => (keepsEng_ite (keepsEng_pure _) (keeps_endVictim _ _ _))))))

theorem keeps_execPreemptVictim (h : Keeps u s) (p held) : KeepsRes u (execPreemptVictim p held s) := by
  unfold execPreemptVictim
  exact keeps_next (keeps_preemptVictim h _ _)

theorem keeps_scrambleQuarter (h : Keeps u s) (k) : Keeps u (scrambleQuarter k s) := by
  unfold scrambleQuarter
  refine keeps_foldl (fun s e hs => (keeps_takeFree hs).step rfl ?_ id) h
  exact fun ⟨h1, h2, h3, h4, h5, h6, h7, h8, h9⟩ => ⟨h1, h2, h3, h4, h5, h6, memSet_wf _ _ _ h7, h8, h9⟩

theorem keeps_fabQuery (h : Keeps u s) (k) : Keeps u (fabQuery k s) := by
  unfold fabQuery
  exact keeps_ite (keeps_complete h _ _ _ _) (keeps_complete h _ _ _ _)

theorem keeps_spPoison (h : Keeps u s) (c b) : Keeps u (spPoison c b s) := by
  unfold spPoison
  exact keeps_mergeFull (keeps_spStore h _ _ _ _) _ _ _ _

theorem keeps_spNarrowNow (h : Keeps u s) (c b off v) : Keeps u (spNarrowNow c b off v s) := by
  unfold spNarrowNow
  exact keeps_ite (keeps_spWrite h _ _ _)
    (by dsimp only; split; exact (keeps_spWrite (keeps_spRead h _ _) _ _ _); exact (keeps_spPoison (keeps_spRead h _ _) _ _))

theorem keeps_spNarrow (h : Keeps u s) (c b off v) : Keeps u (spNarrow c b off v s) := by
  unfold spNarrow
  exact keeps_ite (keeps_spWrite h _ _ _) (keeps_cupd (keeps_spRead h _ _) _ _)

theorem keeps_bndRefuse (h : Keeps u s) (c reason engine addr) : Keeps u (bndRefuse c reason engine addr s) := by
  unfold bndRefuse
  exact keeps_tallyClu (keeps_cluSet (keeps_cluUpd h _ _ _) _ _ _) _ _ _ _

theorem keeps_mvRefuse (h : Keeps u s) (c addr t e) : Keeps u (mvRefuse c addr t e s) := by
  unfold mvRefuse
  exact keeps_ite (keeps_countRaw (keeps_bndRefuse h _ _ _ _) _ _) h

theorem keeps_sesUpd (h : Keeps u s) (id f) : Keeps u (sesUpd id f s) := keeps_setSec h _

theorem keeps_writeBounds (h : Keeps u s) (p mask b0 l0 b1 l1) : Keeps u (writeBounds p mask b0 l0 b1 l1 s) := by
  unfold writeBounds
  exact keeps_rset (keeps_rset (keeps_rset (keeps_rset (keeps_rset (keeps_rset (keeps_rset h _ _) _ _) _ _) _ _) _ _) _ _) _ _

theorem keeps_feedBlocks : ∀ {s}, Keeps u s → ∀ c a, Keeps u (feedBlocks c a s).2
  | _, h, _, [] => by
    rw [feedBlocks]
    exact h
  | _, h, _, (b :: bs) => by
    rw [feedBlocks]
    exact keeps_feedBlocks (by split; exact h; exact (keeps_spRead h _ _)) _ _

theorem keeps_execVmul (h : Keeps u s) (c) : KeepsRes u (execVmul c s) := by
  unfold execVmul
  exact keeps_next (keeps_vxLanes h _ _ _)

theorem keeps_tkAdd (h : Keeps u s) (c t n src pc word) : Keeps u (tkAdd c t n src pc word s) := by
  unfold tkAdd
  exact keeps_ite h (keeps_ite (keeps_tkPut h _ _ _) (keeps_holdTrap (keeps_tkPut h _ _ _) _ _))

theorem keeps_execVxeCommandRetire (h : Keeps u s) (c) : KeepsRes u (execVxeCommandRetire c s) := by
  unfold execVxeCommandRetire
  split
  · exact keeps_next h
  · exact keepsRes_ite (keeps_next h)
      (keeps_next
         (keeps_ite (keeps_holdTrap (keeps_tallyCore (keeps_tkAdd (keeps_vxupd h _ _) _ _ _ _ _ _) _ _ _ _) _ _)
            (keeps_tallyCore (keeps_tkAdd (keeps_vxupd h _ _) _ _ _ _ _ _) _ _ _ _)))

theorem keeps_execVrsq (h : Keeps u s) (c) : KeepsRes u (execVrsq c s) := by
  unfold execVrsq
  exact keeps_next (keeps_vxLanes h _ _ _)

theorem keeps_getCur {u : State} (p i x lh b) : KeepsEng u (getCur p i x lh b) := by
  unfold getCur
  exact keepsEng_bind (keeps_theDir _) fun _ => (keepsEng_bind (keeps_curPtr _ _ _) fun _ => (keeps_pteAt _ _ _ _))

theorem keeps_colNamed {u : State} (p col) : KeepsEng u (colNamed p col) := by
  unfold colNamed
  exact keepsEng_bind (keeps_curCtx _) fun _ =>
    keepsEng_get fun _ h1 =>
      keepsEng_bind
        (keeps_engMap
           (fun _ =>
              keepsEng_bind (keeps_curPtr _ _ _) fun _ =>
                keepsEng_ite (keepsEng_pure _)
                  (keepsEng_bind
                     (keeps_engMap
                        (fun _ =>
                           by
                             split
                             · exact keepsEng_pure _
                             · exact keepsEng_bind (keeps_engMap (fun _ => (keeps_getCur _ _ _ _ _)) _) fun _ => keepsEng_pure _)
                        _) fun _ =>
                     keepsEng_pure _)) _) fun _ =>
        keepsEng_pure _

theorem keeps_poolNoCol {u : State} (p col) : KeepsEng u (poolNoCol p col) := by
  unfold poolNoCol
  exact keepsEng_bind (keeps_theDir _) fun _ =>
    keepsEng_get fun _ h1 =>
      by
        split
        · exact keepsEng_pure _
        · exact keepsEng_bind (keeps_bmFree _ _ _ _) fun _ =>
            keepsEng_bind (keeps_engEach (fun _ => (keeps_bmPut _ _ _ _)) _) fun _ =>
              keepsEng_modify (fun _ h2 => (keeps_cluUpd h2 _ _ _))

theorem keeps_discardModel (h : Keeps u s) (p) : Keeps u (discardModel p s) := by
  unfold discardModel
  exact keeps_pupd h _ _

theorem keeps_colNoZero (h : Keeps u s) (col) : Keeps u (colNoZero col s) := by
  unfold colNoZero
  exact keeps_with h

theorem keeps_withdrawCore (h : Keeps u s) (c) : Keeps u (withdrawCore c s) := by
  unfold withdrawCore
  exact keeps_fireMap (keeps_mapChange (keeps_haltReqCore (keeps_breakBarriers h _) _) _) _ _ _ _

theorem keeps_jobUndo (h : Keeps u s) (d j) : Keeps u (jobUndo d j s) := by
  unfold jobUndo
  exact keeps_ite h (by split; exact h; exact (keeps_queueZero (keeps_engRun h (keeps_dWr _ _ _ _)) _ _ _ _))

theorem keeps_swapApply {u : State} (p w) : KeepsEng u (swapApply p w) := by
  unfold swapApply
  exact keepsEng_bind (keeps_editCtx _) fun _ =>
    keepsEng_bind (keeps_needSeq _ _ _) fun _ =>
      keepsEng_bind
        (keeps_engEach
           (fun _ =>
              keepsEng_ite (keepsEng_pure _)
                (keepsEng_bind (keeps_getBld _ _ _ _ _) fun _ =>
                   keepsEng_bind (keeps_dropEntry _ _ _) fun _ => keeps_setBld _ _ _ _ _ _)) _) fun _ =>
        keepsEng_bind (keeps_engEach (fun _ => (keeps_editDesc _ _ _ _)) _) fun _ => keeps_autoCommit _

theorem keeps_freeBlk {u : State} (d k b) : KeepsEng u (freeBlk d k b) := by
  unfold freeBlk
  exact keeps_bmPut _ _ _ _

theorem keeps_refError (h : Keeps u s) (p k page) : Keeps u (refError p k page s) := by
  unfold refError
  exact keeps_logErr h _

theorem keeps_freeT2 (h : Keeps u s) (p page pair) : Keeps u (freeT2 p page pair s) := by
  unfold freeT2
  exact keeps_poolSet h _ _

theorem keeps_glzCount (h : Keeps u s) (p epoch v) : Keeps u (glzCount p epoch v s) := by
  unfold glzCount
  exact keeps_rupd h _ _

theorem keeps_freeHost (h : Keeps u s) (p page epoch pair) : Keeps u (freeHost p page epoch pair s) := by
  unfold freeHost
  split
  · exact keeps_pupd h _ _
  · exact keeps_glzCount (keeps_pupd h _ _) _ _ _

theorem keeps_setResv (h : Keeps u s) (key l) : Keeps u (setResv key l s) := by
  unfold setResv
  exact keeps_with h

theorem keeps_served (h : Keeps u s) (key t) : Keeps u (served key t s) := by
  unfold served
  exact keeps_with h

theorem keeps_grantFree (h : Keeps u s) (key) : Keeps u (grantFree key s) := by
  unfold grantFree
  exact keeps_ite h (by
      split
      · exact keeps_ite (keeps_setResv h _ _) (keeps_served (keeps_txUpd (keeps_setResv h _ _) _ _) _ _)
      · exact keeps_setResv h _ _)

theorem keeps_requestIssue (h : Keeps u s) (q p addr len data atom) : Keeps u (requestIssue q p addr len data atom s) := by
  unfold requestIssue
  dsimp only
  split
  · exact keeps_refuseCount (keeps_setTxs (keeps_with h) _) _ _ _ _ _
  · exact keeps_netPump (keeps_setTxs (keeps_with h) _)

theorem keeps_netTick (h : Keeps u s) (n) : Keeps u (netTick n s) := by
  unfold netTick
  exact keeps_with h

theorem keeps_execRequestIssue (h : Keeps u s) (q p addr len nclk data atom) :
    KeepsRes u (execRequestIssue q p addr len nclk data atom s) := by
  unfold execRequestIssue
  exact keepsRes_ite (keeps_next (keeps_requestIssue (keeps_netTick h _) _ _ _ _ _ _)) (keeps_fault _ _)

theorem keeps_setResp (h : Keeps u s) (c port r) : Keeps u (setResp c port r s) := by
  unfold setResp
  exact keeps_with h

theorem keeps_csPortBusy (h : Keeps u s) (c port a) : Keeps u (csPortBusy c port a s) := by
  unfold csPortBusy
  exact keeps_csBusy (keeps_setResp (keeps_csCount (keeps_takeFree h) _ _ _) _ _ _) _ _

theorem keeps_csPort (h : Keeps u s) (c port a) : Keeps u (csPort c port a s) := by
  unfold csPort
  split
  · exact keeps_setResp (keeps_csWriteIn (keeps_csCount h _ _ _) _ _ _ _) _ _ _
  · exact keeps_setResp (keeps_csRead (keeps_csCount h _ _ _) _ _) _ _ _

theorem keeps_execClusterSramAccess (h : Keeps u s) (c a b heldA heldB) :
    KeepsRes u (execClusterSramAccess c a b heldA heldB s) := by
  unfold execClusterSramAccess
  exact keepsRes_ite (keeps_fault _ _) (by
      split
      · exact keeps_next h
      · exact keeps_next (keeps_ite (keeps_csPortBusy h _ _ _) (keeps_csPort h _ _ _))
      · exact keeps_next (keeps_ite (keeps_csPortBusy h _ _ _) (keeps_csPort h _ _ _))
      · exact keepsRes_ite
          (keeps_next
             (keeps_ite (keeps_csPortBusy (keeps_ite (keeps_csPortBusy h _ _ _) (keeps_csPort h _ _ _)) _ _ _)
                (keeps_csPort (keeps_ite (keeps_csPortBusy h _ _ _) (keeps_csPort h _ _ _)) _ _ _)))
          (keepsRes_ite (keeps_next (keeps_csPortBusy (keeps_csPort h _ _ _) _ _ _))
             (keepsRes_ite (keeps_next (keeps_csPortBusy (keeps_csPort h _ _ _) _ _ _))
                (keepsRes_ite (keeps_next (keeps_csPortBusy (keeps_csPort h _ _ _) _ _ _))
                   (keepsRes_ite (keeps_next (keeps_csPortBusy (keeps_csPort h _ _ _) _ _ _))
                      (keepsRes_ite (keeps_next (keeps_csPort (keeps_csPort h _ _ _) _ _ _))
                         (keeps_next (keeps_csPort (keeps_csPort h _ _ _) _ _ _))))))))

theorem keeps_emitFlit (h : Keeps u s) (p seq f nak) : Keeps u (emitFlit p seq f nak s) := by
  unfold emitFlit
  exact keeps_ite (keeps_tallyHub (keeps_with (keeps_fportSet h _ _)) _ _ _ _) (keeps_with (keeps_fportSet h _ _))

theorem keeps_replayAll (h : Keeps u s) (p) : Keeps u (replayAll p s) := by
  unfold replayAll
  exact keeps_foldl (fun _ _ h1 => (keeps_emitFlit h1 _ _ _ _)) h

theorem keeps_linkFields (h : Keeps u s) (p ack nak chan n) : Keeps u (linkFields p ack nak chan n s) := by
  unfold linkFields
  exact keeps_ite (keeps_fportUpd h _ _)
    (keeps_ite (keeps_replayAll (keeps_fportSet (keeps_tallyHub (keeps_rupd (keeps_fportUpd h _ _) _ _) _ _ _ _) _ _) _)
       (keeps_fportSet (keeps_tallyHub (keeps_rupd (keeps_fportUpd h _ _) _ _) _ _ _ _) _ _))

theorem keeps_edSetprio {u : State} (p b) : KeepsEng u (edSetprio p b) := by
  unfold edSetprio
  exact keepsEng_bind (keeps_editCtx _) fun _ =>
    keepsEng_bind (keeps_needSeq _ _ _) fun _ => keeps_engEach (fun _ => (keeps_editDesc _ _ _ _)) _

theorem keeps_crossErr (h : Keeps u s) (source hub part addr) : Keeps u (crossErr source hub part addr s) := by
  unfold crossErr
  exact keeps_logErr h _

theorem keeps_answerArrive (h : Keeps u s) : Keeps u (answerArrive s) := by
  unfold answerArrive
  exact keeps_ite (keeps_logErr (keeps_rupd (keeps_with h) _ _) _) (keeps_with h)

theorem keeps_ifaceState (h : Keeps u s) (q) : Keeps u (ifaceState s q) := by
  unfold ifaceState
  split
  · exact keeps_with h
  · exact h

theorem keeps_execKeyRotate (h : Keeps u s) (w) : KeepsRes u (execKeyRotate w s) := by
  unfold execKeyRotate
  exact keeps_runCmd h _ _ _
    (fun _ _ h1 =>
       keeps_ite (keeps_complete h1 _ _ _ _)
         (keeps_complete (keeps_rupd (keeps_rset (keeps_rset (keeps_pupd (keeps_takeFree h1) _ _) _ _) _ _) _ _) _ _ _ _))

theorem keeps_clockCount (h : Keeps u s) (d e ok) : Keeps u (clockCount d e ok s) := by
  unfold clockCount
  exact keeps_with (keeps_showClock h _ _ _)

theorem keeps_remotePoison (h : Keeps u s) (r) : Keeps u (remotePoison r s) := by
  unfold remotePoison
  exact keeps_crossErr (keeps_foldl (fun _ _ h1 => (keeps_spPoison h1 _ _)) h) _ _ _ _

theorem keeps_csPortAtomic (h : Keeps u s) (c port off op arg) : Keeps u (csPortAtomic c port off op arg s) := by
  unfold csPortAtomic
  exact keeps_setResp (keeps_csAtomic (keeps_csCount h _ _ _) _ _ _ _ _) _ _ _

theorem keeps_suspectErr (h : Keeps u s) (col g lane) : Keeps u (suspectErr col g lane s) := by
  unfold suspectErr
  exact keeps_logErr h _

theorem keeps_layersOut (h : Keeps u s) (n ms) : Keeps u (layersOut n ms s) := by
  unfold layersOut
  exact keeps_rupd h _ _

theorem keeps_mntQuery (h : Keeps u s) (k) : Keeps u (mntQuery k s) := by
  unfold mntQuery
  exact keeps_ite (keeps_complete h _ _ _ _) (by split; exact (keeps_complete h _ _ _ _); exact (keeps_complete h _ _ _ _))

theorem keeps_moveStuck {u : State} (p) : KeepsEng u (moveStuck p) := by
  unfold moveStuck
  exact keepsEng_bind (keepsEng_modify (fun _ h1 => (keeps_pupd h1 _ _))) fun _ => (keeps_autoCommit _)

theorem keeps_latchDie (h : Keeps u s) (mode late d) : Keeps u (latchDie mode late d s) := by
  unfold latchDie
  exact keeps_with h

theorem keeps_csBusies (h : Keeps u s) (clu busy n tx) : Keeps u (csBusies clu busy n tx s) := by
  unfold csBusies
  exact keeps_csBusyN h _ _ _

theorem keeps_wcForget (h : Keeps u s) (col f) : Keeps u (wcForget col f s) := by
  unfold wcForget
  exact keeps_ite (keeps_colset_wf (wcWf_sublist List.filter_sublist) h) h

theorem keeps_noteSensor (h : Keeps u s) (ch cut bad) : Keeps u (noteSensor ch cut bad s) := by
  unfold noteSensor
  exact keeps_ite (keeps_ite (keeps_with h) (keeps_with (keeps_with h)))
    (keeps_ite (keeps_with h) (keeps_logErr (keeps_rupd (keeps_with (keeps_with h)) _ _) _))

theorem keeps_seqBusy (h : Keeps u s) (c off) : Keeps u (seqBusy c off s) := by
  unfold seqBusy
  exact keeps_csBusy (keeps_squpd h _ _) _ _

theorem keeps_execMntPeriodWrite (h : Keeps u s) (a0 w) : KeepsRes u (execMntPeriodWrite a0 w s) := by
  unfold execMntPeriodWrite
  exact keeps_next (keeps_writePeriod h _ _)

theorem keeps_rqPut (h : Keeps u s) (col frame b bad d) : Keeps u (rqPut col frame b bad d s) := by
  unfold rqPut
  exact keeps_ite (keeps_t1PoisonBlk h _ _) (keeps_t1WriteBlk h _ _ _)

theorem keeps_mntStop (h : Keeps u s) (k) : Keeps u (mntStop k s) := by
  unfold mntStop
  exact keeps_ite (keeps_complete h _ _ _ _) (keeps_ite (keeps_complete h _ _ _ _) (keeps_complete (keeps_with h) _ _ _ _))

theorem keeps_execMntStop (h : Keeps u s) (w) : KeepsRes u (execMntStop w s) := by
  unfold execMntStop
  exact keeps_runCmd h _ _ _ (fun _ _ h1 => (keeps_mntStop h1 _))

theorem keeps_setLoopW (h : Keeps u s) (n v) : Keeps u (setLoopW n v s) := by
  unfold setLoopW
  exact keeps_with h

theorem keeps_discardRefused (h : Keeps u s) (c src) : Keeps u (discardRefused c src s) := by
  unfold discardRefused
  exact keeps_ite (keeps_cupd h _ _) (keeps_ite (keeps_cupd h _ _) (keeps_ite (keeps_nbupd h _ _) h))

theorem keeps_execBgeu (h : Keeps u s) (c) : KeepsRes u (execBgeu c s) := by
  unfold execBgeu
  exact keeps_next (keeps_seqB h _ _ _)

theorem keeps_execBbusy (h : Keeps u s) (c) : KeepsRes u (execBbusy c s) := by
  unfold execBbusy
  exact keeps_next
    (keeps_seqStep h _ _ _
       (fun _ _ h1 =>
          keeps_ite (keeps_ite (keeps_seqJump (keeps_squpd h1 _ _) _ _ _) (keeps_seqJump h1 _ _ _)) (keeps_seqNext h1 _ _)))

theorem keeps_engFold {α β : Type} {f : α → β → Eng β} (hf : ∀ a b, KeepsEng u (f a b)) : ∀ l b, KeepsEng u (engFold f l b)
  | [], _ => keepsEng_pure _
  | _ :: r, _ => keepsEng_bind (hf _ _) fun _ => keeps_engFold hf r _

theorem keeps_noteCode (h : Keeps u s) (ch same) : Keeps u (noteCode ch same s) := by
  unfold noteCode
  exact keeps_with h

theorem keeps_twThSet (h : Keeps u s) (n v) : Keeps u (twThSet n v s) := by
  unfold twThSet
  exact keeps_with h

theorem keeps_publishTemp (h : Keeps u s) (n) : Keeps u (publishTemp n s) := by
  unfold publishTemp
  exact keeps_rset h _ _

theorem keeps_sampleTower (h : Keeps u s) (n l stuck) : Keeps u (sampleTower n l stuck s) := by
  unfold sampleTower
  exact keeps_ite h
    (keeps_publishTemp
       (keeps_twrPublish
          (keeps_twThSet
             (keeps_foldl
                (fun _ _ h1 =>
                   by split; exact (keeps_noteSensor h1 _ _ _); exact (keeps_noteSensor (keeps_noteCode h1 _ _) _ _ _)) h) _ _)
          _ _) _)

theorem keeps_execHotspotSample (h : Keeps u s) (rd stuck) : KeepsRes u (execHotspotSample rd stuck s) := by
  unfold execHotspotSample
  exact keeps_next (keeps_iter (fun _ _ h1 => (keeps_sampleTower h1 _ _ _)) h)

theorem keeps_execAnd (h : Keeps u s) (c) : KeepsRes u (execAnd c s) := by
  unfold execAnd
  exact keeps_next (keeps_seqR h _ _ _)

theorem keeps_fabRole (h : Keeps u s) (k) : Keeps u (fabRole k s) := by
  unfold fabRole
  exact keeps_ite (keeps_complete h _ _ _ _)
    (keeps_ite (keeps_complete h _ _ _ _) (keeps_complete (keeps_with (keeps_rset (keeps_rset h _ _) _ _)) _ _ _ _))

theorem keeps_execFabRole (h : Keeps u s) (w) : KeepsRes u (execFabRole w s) := by
  unfold execFabRole
  exact keeps_runCmd h _ _ _ (fun _ _ h1 => (keeps_fabRole h1 _))

theorem keeps_execTelemetryRound (h : Keeps u s) : KeepsRes u (execTelemetryRound s) := by
  unfold execTelemetryRound
  exact keeps_next (keeps_ite (keeps_snapAsk h _) h)

theorem keeps_moveEntry {u : State} (p i x lh blk e version pg) : KeepsEng u (moveEntry p i x lh blk e version pg) := by
  unfold moveEntry
  exact keepsEng_get fun _ h1 =>
    keepsEng_bind (keeps_dropEntry _ _ _) fun _ =>
      keepsEng_bind (keeps_setBld _ _ _ _ _ _) fun _ => keepsEng_modify (fun _ h2 => (keeps_pupd h2 _ _))

theorem keeps_t2Took (h : Keeps u s) (a0) : Keeps u (t2Took a0 s) := by
  unfold t2Took
  exact keeps_pairSet h _ _

theorem keeps_execPbrkAssert (h : Keeps u s) : KeepsRes u (execPbrkAssert s) := by
  unfold execPbrkAssert
  exact keeps_next (keeps_ite (keeps_brakeSource h _ _) h)

theorem keeps_bmGet {u : State} (k off i) : KeepsEng u (bmGet k off i) := by
  unfold bmGet
  exact keepsEng_bind (keeps_dRd _ _ _) fun _ => (keepsEng_pure _)

theorem keeps_withholdFrame {u : State} (p col f) : KeepsEng u (withholdFrame p col f) := by
  unfold withholdFrame
  exact keepsEng_bind (keeps_theDir _) fun _ =>
    keepsEng_get fun _ h1 =>
      by
        split
        · exact keepsEng_pure _
        · exact keepsEng_bind (keeps_bmGet _ _ _) fun _ =>
            keepsEng_ite (keepsEng_bind (keeps_bmPut _ _ _ _) fun _ => (keepsEng_modify (fun _ h2 => (keeps_cluUpd h2 _ _ _))))
              (keepsEng_pure _)

theorem keeps_execVmin (h : Keeps u s) (c) : KeepsRes u (execVmin c s) := by
  unfold execVmin
  exact keeps_next (keeps_vxLanes h _ _ _)

theorem keeps_forgetTower (h : Keeps u s) (n) : Keeps u (forgetTower n s) := h.step rfl id (wcWf_stDrop rfl)

theorem keeps_spPoisonRange (h : Keeps u s) (c m off n) : Keeps u (spPoisonRange c m off n s) := by
  unfold spPoisonRange
  exact keeps_foldl (fun _ _ h1 => (keeps_spPoison h1 _ _)) h

theorem keeps_execHaltReq (h : Keeps u s) (c w) : KeepsRes u (execHaltReq c w s) := by
  unfold execHaltReq
  exact keeps_next (keeps_writeSeqCtl h _ _)

theorem keeps_mntDefer (h : Keeps u s) (a0 kind) : Keeps u (mntDefer a0 kind s) := by
  unfold mntDefer
  exact keeps_mntSet h _ _ _

theorem keeps_mntPass (h : Keeps u s) (a0 kind) : Keeps u (mntPass a0 kind s) := by
  unfold mntPass
  exact keeps_ite (keeps_mntSet h _ _ _) (keeps_mntSet h _ _ _)

theorem keeps_mntStep (h : Keeps u s) (kind a1 faults) : Keeps u (mntStep kind a1 faults s) := by
  unfold mntStep
  exact keeps_ite (keeps_with h) (keeps_mntPass h _ _)

theorem keeps_spTestErr (h : Keeps u s) (c bad) : Keeps u (spTestErr c bad s) := by
  unfold spTestErr
  exact keeps_ite h (keeps_ite (keeps_coreErr h _ _ _ _ _) (keeps_coreErr (keeps_withBoot h (by rfl)) _ _ _ _ _))

theorem keeps_spRestore (h : Keeps u s) (c b) : Keeps u (spRestore c b s) := by
  unfold spRestore
  exact keeps_ite h (by dsimp only; split; exact (keeps_spStore (keeps_spRead h _ _) _ _ _ _); exact (keeps_spRead h _ _))

theorem keeps_execSpTransparentTest (h : Keeps u s) (c b bad) : KeepsRes u (execSpTransparentTest c b bad s) := by
  unfold execSpTransparentTest
  exact keepsRes_ite (keeps_next h)
    (keepsRes_ite (keeps_next (keeps_mntDefer h _ _))
       (keeps_next (keeps_mntStep (keeps_spTestErr (keeps_spRestore h _ _) _ _) _ _ _)))

theorem keeps_execBlt (h : Keeps u s) (c) : KeepsRes u (execBlt c s) := by
  unfold execBlt
  exact keeps_next (keeps_seqB h _ _ _)

theorem keeps_publishHubs (h : Keeps u s) : Keeps u (publishHubs s) := by
  unfold publishHubs
  exact keeps_rupd h _ _

theorem keeps_execLightRestored (h : Keeps u s) (p) : KeepsRes u (execLightRestored p s) := by
  unfold execLightRestored
  exact keeps_next (keeps_ite (keeps_fportUpd h _ _) h)

theorem keeps_execBge (h : Keeps u s) (c) : KeepsRes u (execBge c s) := by
  unfold execBge
  exact keeps_next (keeps_seqB h _ _ _)

theorem keeps_dropEntries {u : State} (p i x) : KeepsEng u (dropEntries p i x) := by
  unfold dropEntries
  exact keeps_engEach
    (fun _ =>
       by
         split
         · exact keepsEng_pure _
         · exact keeps_engEach (fun _ => (keepsEng_bind (keeps_getBld _ _ _ _ _) fun _ => (keeps_dropEntry _ _ _))) _) _

theorem keeps_dropBlk {u : State} (p k b) : KeepsEng u (dropBlk p k b) := by
  unfold dropBlk
  exact keepsEng_ite (keepsEng_pure _)
    (keepsEng_bind (keeps_theDir _) fun _ =>
       keepsEng_ite (keepsEng_bind (keeps_freeBlk _ _ _) fun _ => (keeps_updGen _ _)) (keeps_updGen _ _))

theorem keeps_dropTree {u : State} (p i k) : KeepsEng u (dropTree p i k) := by
  unfold dropTree
  exact keepsEng_bind (keeps_theDir _) fun _ =>
    keepsEng_bind (keeps_bldPtr _ _ _) fun _ =>
      keepsEng_bind
        (keeps_engEach
           (fun _ =>
              keepsEng_bind (keeps_ptrIn _ _ _) fun _ =>
                keepsEng_ite (keepsEng_pure _)
                  (keepsEng_bind
                     (keeps_engEach
                        (fun _ =>
                           keepsEng_bind (keeps_ptrIn _ _ _) fun _ =>
                             keepsEng_ite (keepsEng_pure _)
                               (keepsEng_bind
                                  (keeps_engEach (fun _ => (keepsEng_bind (keeps_ptrIn _ _ _) fun _ => (keeps_dropBlk _ _ _))) _)
                                  fun _ =>
                                  keeps_dropBlk _ _ _)) _) fun _ =>
                     keeps_dropBlk _ _ _)) _) fun _ =>
        keepsEng_bind (keeps_dropBlk _ _ _) fun _ => keeps_setPtr _ _ _ _

theorem keeps_edRelease {u : State} (p b) : KeepsEng u (edRelease p b) := by
  unfold edRelease
  exact keepsEng_bind (keeps_editCtx _) fun _ =>
    keepsEng_bind (keeps_needSeq _ _ _) fun _ =>
      keepsEng_ite
        (keepsEng_bind (keepsEng_fail _) fun _ =>
           keepsEng_bind (keeps_dropEntries _ _ _) fun _ => keeps_engEach (fun _ => (keeps_dropTree _ _ _)) _)
        (keepsEng_bind (keeps_dropEntries _ _ _) fun _ => (keeps_engEach (fun _ => (keeps_dropTree _ _ _)) _))

theorem keeps_allocT2 {u : State} (p k pair) : KeepsEng u (allocT2 p k pair) := by
  unfold allocT2
  exact keepsEng_bind (keeps_theDir _) fun _ =>
    keepsEng_get fun _ h1 =>
      by
        dsimp only
        split
        · exact keepsEng_pure _
        · exact keepsEng_bind (keeps_updDir _ _) fun _ =>
            keepsEng_bind (keepsEng_modify (fun _ h2 => (keeps_poolSet h2 _ _))) fun _ => keepsEng_pure _

theorem keeps_execT2Refresh (h : Keeps u s) (pair) : KeepsRes u (execT2Refresh pair s) := by
  unfold execT2Refresh
  exact keepsRes_ite (keeps_next h) (keeps_next (keeps_tallyHub (keeps_pairSet h _ _) _ _ _ _))

theorem keeps_execSnapshot (h : Keeps u s) (w) : KeepsRes u (execSnapshot w s) := by
  unfold execSnapshot
  exact keeps_runCmd h _ _ _ (fun _ _ h1 => (keeps_ite (keeps_snapAsk h1 _) (keeps_complete h1 _ _ _ _)))

theorem keeps_execTkadd (h : Keeps u s) (c) : KeepsRes u (execTkadd c s) := by
  unfold execTkadd
  exact keeps_next (keeps_seqStep h _ _ _ (fun _ _ h1 => (keeps_seqNext (keeps_tkAdd h1 _ _ _ _ _ _) _ _)))

theorem keeps_setRec (h : Keeps u s) (a0 r) : Keeps u (setRec a0 r s) := by
  unfold setRec
  exact keeps_with h

theorem keeps_writeRecs (h : Keeps u s) (us) : Keeps u (writeRecs us s) := by
  unfold writeRecs
  exact keeps_foldl (fun _ _ h1 => (keeps_setRec h1 _ _)) h

theorem keeps_chainSendR (h : Keeps u s) (col rs) : Keeps u (chainSendR col rs s) := by
  unfold chainSendR
  split
  · exact keeps_nbupd h _ _
  · exact h

theorem keeps_execWindowReset (h : Keeps u s) (w) : KeepsRes u (execWindowReset w s) := by
  unfold execWindowReset
  exact keeps_next (keeps_ite (keeps_resetWindow (keeps_hostReq h _ _) _) h)

theorem keeps_execStageTimeLimit (h : Keeps u s) (unit) : KeepsRes u (execStageTimeLimit unit s) := by
  unfold execStageTimeLimit
  split
  · exact keepsRes_ite (keeps_next h) (keeps_next (keeps_fireLog (keeps_with h) _ _ _ _ _ _ _))
  · exact keeps_next h

theorem keeps_tgtPoison (h : Keeps u s) (tgt n) : Keeps u (tgtPoison tgt n s) := by
  unfold tgtPoison
  split
  · exact keeps_iter (fun _ _ h1 => (keeps_t1PoisonBlk h1 _ _)) h
  · exact keeps_iter (fun _ _ h2 => (keeps_csPoison h2 _ _)) h
  · exact h

theorem keeps_performPoison (h : Keeps u s) (t) : Keeps u (performPoison t s) := by
  unfold performPoison
  exact keeps_ite (keeps_answer (keeps_tgtPoison h _ _) _ _ _) (keeps_answer h _ _ _)

theorem keeps_t1Atomic (h : Keeps u s) (col off op arg) : Keeps u (t1Atomic col off op arg s).2 := by
  unfold t1Atomic
  dsimp only
  split
  · exact keeps_colupd (keeps_rowMeet (keeps_t1ReadBlk h _ _) _ _ _ _) (fun _ => by rfl)
  · exact keeps_colupd
      (keeps_rowMeet (keeps_ftBump (keeps_t1WriteBlk (keeps_rowMeet (keeps_t1ReadBlk h _ _) _ _ _ _) _ _ _) _ _) _ _ _ _)
      (fun _ => by rfl)

theorem keeps_rowBlock1 (h : Keeps u s) (id col c o) : Keeps u (rowBlock1 id col c o s).2 := by
  unfold rowBlock1
  split
  · exact h
  · exact keeps_t1ReadBlk h _ _

theorem keeps_rowBlocks : ∀ {s}, Keeps u s → ∀ id col c a a4, Keeps u (rowBlocks id col c a a4 s).2
  | _, h, _, _, _, 0, _ => by
    rw [rowBlocks]
    exact h
  | _, h, _, _, _, (n + 1), _ => by
    rw [rowBlocks]
    exact keeps_rowBlocks (keeps_rowBlock1 h _ _ _ _) _ _ _ _ _

theorem keeps_coolRecord (h : Keeps u s) (ty) : Keeps u (coolRecord ty s) := by
  unfold coolRecord
  exact keeps_telEmit h _

theorem keeps_coolWarn (h : Keeps u s) : Keeps u (coolWarn s) := by
  unfold coolWarn
  exact keeps_coolRecord (keeps_rupd (keeps_with h) _ _) _

theorem keeps_mxupd (h : Keeps u s) (c f) : Keeps u (mxupd c f s) := by
  unfold mxupd
  exact keeps_cupd h _ _

theorem keeps_mxCmd (h : Keeps u s) (c i f) : Keeps u (mxCmd c i f s) := by
  unfold mxCmd
  exact keeps_mxupd h _ _

theorem keeps_walkBlk {u : State} (p qph x lh i n e dec b o) : KeepsEng u (walkBlk p qph x lh i n e dec b o) := by
  unfold walkBlk
  exact keepsEng_bind (keeps_getCur _ _ _ _ _) fun _ =>
    keepsEng_get fun _ h1 =>
      keepsEng_ite (keepsEng_pure _)
        (by split; exact (keepsEng_pure _); exact (by split; exact (keepsEng_pure _); exact (keepsEng_pure _)))

theorem keeps_walkLh {u : State} (p qph x tab before faults lh) : KeepsEng u (walkLh p qph x tab before faults lh) := by
  unfold walkLh
  exact keeps_engFold
    (fun _ _ =>
       keepsEng_ite (keepsEng_pure _)
         (by split; exact (keepsEng_pure _); exact (keeps_engFold (fun _ _ => (keeps_walkBlk _ _ _ _ _ _ _ _ _ _)) _ _))) _ _

theorem keeps_fetchWords : ∀ {s}, Keeps u s → ∀ c a a2, Keeps u (fetchWords c a a2 s).2
  | _, h, _, 0, _ => by
    rw [fetchWords]
    exact h
  | _, h, _, (n + 1), _ => by
    rw [fetchWords]
    exact keeps_fetchWords (keeps_seqFetch h _ _) _ _ _

theorem keeps_trainedAt (h : Keeps u s) (p tx rx) : Keeps u (trainedAt p tx rx s) := by
  unfold trainedAt
  exact keeps_rset (keeps_fportUpd h _ _) _ _

theorem keeps_execEndSession (h : Keeps u s) (sid) : KeepsRes u (execEndSession sid s) := by
  unfold execEndSession
  exact keeps_next (keeps_spdm h _ _ _ (fun _ h1 => (keeps_setSec h1 _)))

theorem keeps_execRampCtlWrite (h : Keeps u s) (w) : KeepsRes u (execRampCtlWrite w s) := by
  unfold execRampCtlWrite
  exact keeps_next (keeps_writeRamp h _)

theorem keeps_advanceSeq {u : State} (p x e) : KeepsEng u (advanceSeq p x e) := by
  unfold advanceSeq
  split
  · exact keepsEng_pure _
  · exact keepsEng_bind (keeps_engEach (fun _ => (keeps_engEach (fun _ => (keeps_pteAll _ _ _ _ _ _ _)) _)) _) fun _ =>
      keeps_descAll _ _ _

theorem keeps_layersBack (h : Keeps u s) (col) : Keeps u (layersBack col s) := by
  unfold layersBack
  exact keeps_colupd (keeps_foldl (fun _ _ h1 => (keeps_rupd (keeps_with (keeps_takeFree h1)) _ _)) h) (fun _ => by rfl)

theorem keeps_execReverseCurrent (h : Keeps u s) : KeepsRes u (execReverseCurrent s) := by
  unfold execReverseCurrent
  exact keeps_next (keeps_with h)

theorem keeps_freshNonce (h : Keeps u s) : Keeps u (freshNonce s) := by
  unfold freshNonce
  exact keeps_iter (fun _ _ h1 => (keeps_rset (keeps_takeFree h1) _ _)) h

theorem keeps_rowDecode : ∀ {s}, Keeps u s → ∀ col r a, Keeps u (rowDecode col r a s).2
  | _, h, _, _, 0 => by
    rw [rowDecode]
    exact h
  | _, h, _, _, (n + 1) => by
    rw [rowDecode]
    exact keeps_rowDecode (keeps_t1Decode (keeps_ite_snd h (keeps_crossBus h _ _ _ _)) _ _ _ _ _) _ _ _

theorem keeps_emitIdle (h : Keeps u s) (p nak) : Keeps u (emitIdle p nak s) := by
  unfold emitIdle
  exact keeps_emitFlit h _ _ _ _

theorem keeps_grantAll : ∀ {s}, Keeps u s → ∀ p a, Keeps u (grantAll p a s)
  | _, h, _, 0 => by
    rw [grantAll]
    exact h
  | _, h, _, (n + 1) => by
    rw [grantAll]
    exact keeps_ite (keeps_grantAll (keeps_emitIdle h _ _) _ _) h

theorem keeps_recheckMxe (h : Keeps u s) (c) : Keeps u (recheckMxe c s) := by
  unfold recheckMxe
  split
  · exact h
  · exact by split; exact h; exact (keeps_ite (keeps_cupd h _ _) (keeps_holdTrap (keeps_cupd h _ _) _ _))

theorem keeps_execSnapshotSnap (h : Keeps u s) : KeepsRes u (execSnapshotSnap s) := by
  unfold execSnapshotSnap
  exact keeps_next (keeps_snapAsk h _)

theorem keeps_freePlaces (h : Keeps u s) (p m) : Keeps u (freePlaces p m s) := by
  unfold freePlaces
  exact keeps_ite h (keeps_grantAll (keeps_fportUpd h _ _) _ _)

theorem keeps_execSwapRegister (h : Keeps u s) (w) : KeepsRes u (execSwapRegister w s) := by
  unfold execSwapRegister
  exact keeps_runCmd h _ _ _
    (fun _ _ h1 =>
       keeps_ite (keeps_complete h1 _ _ _ _)
         (keeps_ite (keeps_complete h1 _ _ _ _) (keeps_complete (keeps_rupd (keeps_pupd h1 _ _) _ _) _ _ _ _)))

theorem keeps_execVinLoss (h : Keeps u s) : KeepsRes u (execVinLoss s) := by
  unfold execVinLoss
  exact keeps_next (keeps_with h)

theorem keeps_execCoreOtWrite (h : Keeps u s) (c w) : KeepsRes u (execCoreOtWrite c w s) := by
  unfold execCoreOtWrite
  exact keeps_next (keeps_writeCoreOt h _ _)

theorem keeps_takeCommit (h : Keeps u s) (q) : Keeps u (takeCommit q s) := by
  unfold takeCommit
  exact keeps_ite (keeps_with h) (keeps_with h)

theorem keeps_setTowers (h : Keeps u s) (mask v) : Keeps u (setTowers mask v s).1 := by
  unfold setTowers
  exact keeps_foldl_fst (fun _ _ h1 => (keeps_ite_fst (keeps_writeTwrLimit h1 _ _ _) h1)) h

theorem keeps_execNbuCommandRetire (h : Keeps u s) (col) : KeepsRes u (execNbuCommandRetire col s) := by
  unfold execNbuCommandRetire
  split
  · exact keeps_next h
  · exact keepsRes_ite (keeps_next h)
      (keeps_next
         (keeps_ite (keeps_tkAdd (keeps_foldl (fun _ _ h1 => (keeps_ftBump h1 _ _)) (keeps_nbupd h _ _)) _ _ _ _ _ _)
            (keeps_holdTrap (keeps_tkAdd (keeps_foldl (fun _ _ h2 => (keeps_ftBump h2 _ _)) (keeps_nbupd h _ _)) _ _ _ _ _ _) _
               _)))

theorem keeps_execVinUndervoltage (h : Keeps u s) : KeepsRes u (execVinUndervoltage s) := by
  unfold execVinUndervoltage
  exact keeps_next (keeps_ite (keeps_brakeSource (keeps_with h) _ _) (keeps_with h))

theorem keeps_needFree {u : State} (p x q) : KeepsEng u (needFree p x q) := by
  unfold needFree
  exact keepsEng_bind (keeps_seqDesc _ _ _) fun _ => by split; exact (keepsEng_pure _); exact (keepsEng_fail _)

theorem keeps_newDesc {u : State} (p i x v) : KeepsEng u (newDesc p i x v) := by
  unfold newDesc
  exact keeps_engEach
    (fun _ => keepsEng_bind (keeps_allocBlk _ _) fun _ => keepsEng_bind (keeps_dWrBlk _ _ _) fun _ => keeps_setPtr _ _ _ _) _

theorem keeps_forkFull {u : State} (p src dst x lh blk) : KeepsEng u (forkFull p src dst x lh blk) := by
  unfold forkFull
  exact keepsEng_bind (keeps_getBld _ _ _ _ _) fun _ =>
    keepsEng_ite (keepsEng_pure _)
      (keepsEng_get fun _ h1 =>
         keepsEng_ite
           (keepsEng_bind (keepsEng_fail _) fun _ =>
              keepsEng_ite
                (keepsEng_ite (keepsEng_bind (keeps_dAdd _ _ _) fun _ => (keeps_setBld _ _ _ _ _ _)) (keeps_setBld _ _ _ _ _ _))
                (keepsEng_bind (keeps_setBld _ _ _ _ _ _) fun _ =>
                   keepsEng_ite (keepsEng_bind (keeps_dAdd _ _ _) fun _ => (keeps_setBld _ _ _ _ _ _))
                     (keeps_setBld _ _ _ _ _ _)))
           (keepsEng_ite
              (keepsEng_ite (keepsEng_bind (keeps_dAdd _ _ _) fun _ => (keeps_setBld _ _ _ _ _ _)) (keeps_setBld _ _ _ _ _ _))
              (keepsEng_bind (keeps_setBld _ _ _ _ _ _) fun _ =>
                 keepsEng_ite (keepsEng_bind (keeps_dAdd _ _ _) fun _ => (keeps_setBld _ _ _ _ _ _)) (keeps_setBld _ _ _ _ _ _))))

theorem keeps_swapAdmit {u : State} (p pkt q) : KeepsEng u (swapAdmit p pkt q) := by
  unfold swapAdmit
  exact keepsEng_bind (keeps_editCtx _) fun _ =>
    keepsEng_bind (keeps_needSeq _ _ _) fun _ =>
      keepsEng_ite
        (keepsEng_bind (keepsEng_fail _) fun _ =>
           keepsEng_bind (keeps_entriesWith _ _ _ _) fun _ =>
             keepsEng_bind (keeps_engMap (fun _ => (keepsEng_bind (keeps_getBld _ _ _ _ _) fun _ => (keepsEng_pure _))) _)
               fun _ =>
               keepsEng_get fun _ h1 =>
                 keepsEng_ite
                   (keepsEng_bind (keepsEng_fail _) fun _ =>
                      keepsEng_ite
                        (keepsEng_bind (keepsEng_fail _) fun _ =>
                           keepsEng_bind
                             (keeps_engMap
                                (fun _ =>
                                   keepsEng_bind (keeps_allocFrame _ _ _) fun _ => keepsEng_get fun _ h2 => keepsEng_pure _) _)
                             fun _ =>
                             keepsEng_bind (keeps_descAll _ _ _) fun _ => keepsEng_modify (fun _ h3 => (keeps_pupd h3 _ _)))
                        (keepsEng_bind
                           (keeps_engMap
                              (fun _ => keepsEng_bind (keeps_allocFrame _ _ _) fun _ => keepsEng_get fun _ h4 => keepsEng_pure _)
                              _) fun _ =>
                           keepsEng_bind (keeps_descAll _ _ _) fun _ => keepsEng_modify (fun _ h5 => (keeps_pupd h5 _ _))))
                   (keepsEng_ite
                      (keepsEng_bind (keepsEng_fail _) fun _ =>
                         keepsEng_bind
                           (keeps_engMap
                              (fun _ => keepsEng_bind (keeps_allocFrame _ _ _) fun _ => keepsEng_get fun _ h6 => keepsEng_pure _)
                              _) fun _ =>
                           keepsEng_bind (keeps_descAll _ _ _) fun _ => keepsEng_modify (fun _ h7 => (keeps_pupd h7 _ _)))
                      (keepsEng_bind
                         (keeps_engMap
                            (fun _ => keepsEng_bind (keeps_allocFrame _ _ _) fun _ => keepsEng_get fun _ h8 => keepsEng_pure _)
                            _) fun _ =>
                         keepsEng_bind (keeps_descAll _ _ _) fun _ => keepsEng_modify (fun _ h9 => (keeps_pupd h9 _ _)))))
        (keepsEng_bind (keeps_entriesWith _ _ _ _) fun _ =>
           keepsEng_bind (keeps_engMap (fun _ => (keepsEng_bind (keeps_getBld _ _ _ _ _) fun _ => (keepsEng_pure _))) _)
             fun _ =>
             keepsEng_get fun _ h10 =>
               keepsEng_ite
                 (keepsEng_bind (keepsEng_fail _) fun _ =>
                    keepsEng_ite
                      (keepsEng_bind (keepsEng_fail _) fun _ =>
                         keepsEng_bind
                           (keeps_engMap
                              (fun _ =>
                                 keepsEng_bind (keeps_allocFrame _ _ _) fun _ => keepsEng_get fun _ h11 => keepsEng_pure _) _)
                           fun _ =>
                           keepsEng_bind (keeps_descAll _ _ _) fun _ => keepsEng_modify (fun _ h12 => (keeps_pupd h12 _ _)))
                      (keepsEng_bind
                         (keeps_engMap
                            (fun _ => keepsEng_bind (keeps_allocFrame _ _ _) fun _ => keepsEng_get fun _ h13 => keepsEng_pure _)
                            _) fun _ =>
                         keepsEng_bind (keeps_descAll _ _ _) fun _ => keepsEng_modify (fun _ h14 => (keeps_pupd h14 _ _))))
                 (keepsEng_ite
                    (keepsEng_bind (keepsEng_fail _) fun _ =>
                       keepsEng_bind
                         (keeps_engMap
                            (fun _ => keepsEng_bind (keeps_allocFrame _ _ _) fun _ => keepsEng_get fun _ h15 => keepsEng_pure _)
                            _) fun _ =>
                         keepsEng_bind (keeps_descAll _ _ _) fun _ => keepsEng_modify (fun _ h16 => (keeps_pupd h16 _ _)))
                    (keepsEng_bind
                       (keeps_engMap
                          (fun _ => keepsEng_bind (keeps_allocFrame _ _ _) fun _ => keepsEng_get fun _ h17 => keepsEng_pure _) _)
                       fun _ =>
                       keepsEng_bind (keeps_descAll _ _ _) fun _ => keepsEng_modify (fun _ h18 => (keeps_pupd h18 _ _)))))

theorem keeps_askTrain (h : Keeps u s) (d) : Keeps u (askTrain d s) := by
  unfold askTrain
  exact keeps_with h

theorem keeps_execMntQuery (h : Keeps u s) (w) : KeepsRes u (execMntQuery w s) := by
  unfold execMntQuery
  exact keeps_runCmd h _ _ _ (fun _ _ h1 => (keeps_mntQuery h1 _))

theorem keeps_execLaserCheckPulse (h : Keeps u s) (p) : KeepsRes u (execLaserCheckPulse p s) := by
  unfold execLaserCheckPulse
  exact keeps_next (keeps_ite (keeps_fportUpd h _ _) h)

theorem keeps_wearWrite (h : Keeps u s) (a0) : Keeps u (wearWrite a0 s) := by
  unfold wearWrite
  exact keeps_foldl (fun _ _ h1 => (keeps_with h1)) h

theorem keeps_execFinish (h : Keeps u s) (sid) : KeepsRes u (execFinish sid s) := by
  unfold execFinish
  exact keeps_next (keeps_spdm h _ _ _ (fun _ h1 => (keeps_sesUpd h1 _ _)))

theorem keeps_dmaReads : ∀ {s}, Keeps u s → ∀ fn pkt addr dpa a a5, Keeps u (dmaReads fn pkt addr dpa a a5 s)
  | _, h, _, _, _, _, 0, _ => by
    rw [dmaReads]
    exact h
  | _, h, _, _, _, _, (n + 1), _ => by
    rw [dmaReads]
    exact keeps_ite h (keeps_dmaReads (keeps_hostRead h _ _ _ _) _ _ _ _ _ _)

theorem keeps_dmaInCmd (h : Keeps u s) (k) : Keeps u (dmaInCmd k s) := by
  unfold dmaInCmd
  exact keeps_ite (keeps_complete h _ _ _ _) (keeps_ite (keeps_complete h _ _ _ _) (keeps_dmaReads (keeps_with h) _ _ _ _ _ _))

theorem keeps_execDmaIn (h : Keeps u s) (w) : KeepsRes u (execDmaIn w s) := by
  unfold execDmaIn
  exact keeps_runCmd h _ _ _ (fun _ _ h1 => (keeps_dmaInCmd h1 _))

theorem keeps_execGetMeasurements (h : Keeps u s) (index nonce) : KeepsRes u (execGetMeasurements index nonce s) := by
  unfold execGetMeasurements
  exact keeps_next (keeps_spdm h _ _ _ (fun _ h1 => h1))

theorem keeps_execVmax (h : Keeps u s) (c) : KeepsRes u (execVmax c s) := by
  unfold execVmax
  exact keeps_next (keeps_vxLanes h _ _ _)

theorem keeps_strmCount (h : Keeps u s) (k i) : Keeps u (strmCount k i s) := by
  unfold strmCount
  exact keeps_cluUpd h _ _ _

theorem keeps_fabRoute (h : Keeps u s) (k) : Keeps u (fabRoute k s) := by
  unfold fabRoute
  exact keeps_ite (keeps_complete h _ _ _ _) (keeps_complete (keeps_with h) _ _ _ _)

theorem keeps_execIdeKm (h : Keeps u s) (sid stream set) : KeepsRes u (execIdeKm sid stream set s) := by
  unfold execIdeKm
  exact keeps_next (keeps_spdm h _ _ _ (fun _ h1 => (keeps_setStream h1 _ _ _)))

theorem keeps_engFirst {α : Type} {f : α → Eng Nat} (hf : ∀ a, KeepsEng u (f a)) : ∀ l, KeepsEng u (engFirst f l)
  | [] => keepsEng_pure _
  | _ :: r => keepsEng_bind (hf _) fun _ => keepsEng_ite (keepsEng_pure _) (keeps_engFirst hf r)

theorem keeps_vxReduce (h : Keeps u s) (c fn f) : Keeps u (vxReduce c fn f s) := by
  unfold vxReduce
  split
  · exact h
  · exact keeps_vxDone (keeps_vxNum (keeps_vxupd h _ _) _ _ _ _ _) _ _ _ _

theorem keeps_execRsum (h : Keeps u s) (c) : KeepsRes u (execRsum c s) := by
  unfold execRsum
  exact keeps_next (keeps_vxReduce h _ _ _)

theorem keeps_coneStore (h : Keeps u s) : Keeps u (coneStore s) := by
  unfold coneStore
  exact keeps_with h

theorem keeps_recheckVxe (h : Keeps u s) (c) : Keeps u (recheckVxe c s) := by
  unfold recheckVxe
  split
  · exact h
  · exact by split; exact h; exact (keeps_ite (keeps_cupd h _ _) (keeps_holdTrap (keeps_cupd h _ _) _ _))

theorem keeps_roundRefresh (h : Keeps u s) (n) : Keeps u (roundRefresh n s) := by
  unfold roundRefresh
  exact keeps_twThSet (keeps_with h) _ _

theorem keeps_launchFault {u : State} (p x tab e) : KeepsEng u (launchFault p x tab e) := by
  unfold launchFault
  exact keepsEng_ite (keepsEng_pure _)
    (keepsEng_bind (keeps_curDesc _ _) fun _ =>
       by
         split
         · exact keepsEng_pure _
         · exact keepsEng_ite (keepsEng_pure _)
             (keepsEng_ite (keepsEng_pure _)
                (keepsEng_ite (keepsEng_pure _)
                   (keepsEng_ite (keepsEng_pure _)
                      (keepsEng_ite (keepsEng_pure _)
                         (keeps_engFirst
                            (fun _ =>
                               keeps_engFirst (fun _ => (keepsEng_bind (keeps_getCur _ _ _ _ _) fun _ => (keepsEng_pure _))) _)
                            _))))))

theorem keeps_walkHead {u : State} (p x a tab before layer lh o) : KeepsEng u (walkHead p x a tab before layer lh o) := by
  unfold walkHead
  split
  · exact keepsEng_pure _
  · exact keepsEng_bind (keeps_walkLh _ _ _ _ _ _ _) fun _ => keepsEng_get fun _ h1 => keepsEng_pure _

theorem keeps_walkAll {u : State} (p x a tab faults) : KeepsEng u (walkAll p x a tab faults) := by
  unfold walkAll
  exact keeps_engFold (fun _ _ => (keeps_engFold (fun _ _ => (keeps_walkHead _ _ _ _ _ _ _ _)) _ _)) _ _

theorem keeps_feedAhead (h : Keeps u s) (c) : Keeps u (feedAhead c s) := by
  unfold feedAhead
  exact keeps_ite h (keeps_foldl (fun _ _ h1 => (keeps_ite (keeps_mxupd (keeps_spRead h1 _ _) _ _) h1)) (keeps_with h))

theorem keeps_execShli (h : Keeps u s) (c) : KeepsRes u (execShli c s) := by
  unfold execShli
  exact keeps_next (keeps_seqI h _ _ _)

theorem keeps_execMovDescriptorStart (h : Keeps u s) (c ch) : KeepsRes u (execMovDescriptorStart c ch s) := by
  unfold execMovDescriptorStart
  dsimp only
  split
  · exact keeps_next h
  · exact keepsRes_ite (keeps_next h)
      (keepsRes_ite (keeps_next (keeps_mvFail (keeps_mvupd h _ _ _) _ _ _ _ _))
         (keepsRes_ite (keeps_next h) (keeps_next (keeps_tkTake (keeps_mvupd (keeps_mvupd h _ _ _) _ _ _) _ _))))

theorem keeps_execInputSwitchClose (h : Keeps u s) : KeepsRes u (execInputSwitchClose s) := by
  unfold execInputSwitchClose
  exact keepsRes_ite (keeps_next h) (keeps_next (keeps_ite (keeps_startBegin (keeps_with h) _) (keeps_with h)))

theorem keeps_roundPackages (h : Keeps u s) (rd a1) : Keeps u (roundPackages rd a1 s) := by
  unfold roundPackages
  exact keeps_iter (fun _ _ h1 => (by dsimp only; split; exact h1; exact (keeps_rupd h1 _ _))) h

theorem keeps_execWavelengthBerCheck (h : Keeps u s) (p lane ber) : KeepsRes u (execWavelengthBerCheck p lane ber s) := by
  unfold execWavelengthBerCheck
  exact keeps_next (keeps_ite (keeps_fportUpd h _ _) h)

theorem keeps_pumpPort : ∀ {s}, Keeps u s → ∀ p a, Keeps u (pumpPort p a s)
  | _, h, _, 0 => by
    rw [pumpPort]
    exact h
  | _, h, _, (n + 1) => by
    rw [pumpPort]
    split
    · exact h
    · exact by split; exact h; exact (keeps_ite h (keeps_pumpPort (keeps_emitFlit (keeps_fportSet h _ _) _ _ _ _) _ _))

theorem keeps_pump (h : Keeps u s) (p) : Keeps u (pump p s) := by
  unfold pump
  exact keeps_pumpPort h _ _

theorem keeps_takeFlit (h : Keeps u s) (p f) : Keeps u (takeFlit p f s) := by
  unfold takeFlit
  exact keeps_ite (keeps_with (keeps_fportSet h _ _)) (keeps_fportSet h _ _)

theorem keeps_flitReceive (h : Keeps u s) (p b fec poison) : Keeps u (flitReceive p b fec poison s) := by
  unfold flitReceive
  exact keeps_ite (keeps_emitIdle (keeps_fportUpd h _ _) _ _)
    (keeps_ite (keeps_pump (keeps_linkFields h _ _ _ _ _) _)
       (keeps_ite
          (keeps_emitIdle
             (keeps_pump
                (keeps_ite (keeps_tallyHub (keeps_linkFields h _ _ _ _ _) _ _ _ _)
                   (keeps_takeFlit (keeps_fportSet (keeps_tallyHub (keeps_linkFields h _ _ _ _ _) _ _ _ _) _ _) _ _)) _) _ _)
          (keeps_pump
             (keeps_ite (keeps_tallyHub (keeps_linkFields h _ _ _ _ _) _ _ _ _)
                (keeps_takeFlit (keeps_fportSet (keeps_tallyHub (keeps_linkFields h _ _ _ _ _) _ _ _ _) _ _) _ _)) _)))

theorem keeps_csRefuse (h : Keeps u s) (c w e) : Keeps u (csRefuse c w e s) := by
  unfold csRefuse
  exact keeps_seqTrap (keeps_ite (keeps_rawRefused (keeps_bndRefuse h _ _ _ _) _) h) _ _ _ _ _

theorem keeps_seqAtomic (h : Keeps u s) (c opc op) : Keeps u (seqAtomic c opc op s) := by
  unfold seqAtomic
  exact keeps_seqStep h _ _ _
    (fun _ _ h1 =>
       keeps_ite (keeps_csRefuse h1 _ _ _) (by
           dsimp only
           split
           · exact keeps_seqTrap (keeps_csAtomic (keeps_csCount h1 _ _ _) _ _ _ _ _) _ _ _ _ _
           · exact keeps_seqNext (keeps_xSet (keeps_csAtomic (keeps_csCount h1 _ _ _) _ _ _ _ _) _ _ _) _ _))

theorem keeps_setLoopC (h : Keeps u s) (n v) : Keeps u (setLoopC n v s) := by
  unfold setLoopC
  exact keeps_with h

theorem keeps_execCsrw (h : Keeps u s) (c) : KeepsRes u (execCsrw c s) := by
  unfold execCsrw
  exact keeps_next (keeps_seqStep h _ _ _ (fun _ _ h1 => (keeps_seqNext (keeps_squpd h1 _ _) _ _)))

theorem keeps_execSmbusWrite (h : Keeps u s) (a0 a1) : KeepsRes u (execSmbusWrite a0 a1 s) := by
  unfold execSmbusWrite
  exact keeps_next (keeps_ite (keeps_hostSend h _) h)

theorem keeps_peerErr (h : Keeps u s) (dev) : Keeps u (peerErr dev s) := by
  unfold peerErr
  exact keeps_logErr h _

theorem keeps_execChildLost (h : Keeps u s) (level digit) : KeepsRes u (execChildLost level digit s) := by
  unfold execChildLost
  exact keepsRes_ite (keeps_next h) (keeps_next (keeps_peerErr (keeps_with h) _))

theorem keeps_execMovChHaltWrite (h : Keeps u s) (c ch w) : KeepsRes u (execMovChHaltWrite c ch w s) := by
  unfold execMovChHaltWrite
  exact keeps_next (keeps_writeMovCh h _ _ _)

theorem keeps_brgErr (h : Keeps u s) (code d g detail) : Keeps u (brgErr code d g detail s) := by
  unfold brgErr
  exact keeps_logErr h _

theorem keeps_brgGroupDown (h : Keeps u s) (d g) : Keeps u (brgGroupDown d g s) := by
  unfold brgGroupDown
  exact keeps_brgErr (keeps_withBoot h (by rfl)) _ _ _ _

theorem keeps_rqWrite (h : Keeps u s) (col stag dtag frame blks ks vsc) :
    Keeps u (rqWrite col stag dtag frame blks ks vsc s) := by
  unfold rqWrite
  exact keeps_ite (keeps_iter (fun _ _ h1 => (keeps_rqPut (keeps_rqPut h1 _ _ _ _ _) _ _ _ _ _)) h)
    (keeps_iter (fun _ _ h2 => (keeps_rqPut h2 _ _ _ _ _)) (keeps_iter (fun _ _ h3 => (keeps_rqPut h3 _ _ _ _ _)) h))

theorem keeps_execSeqQuery (h : Keeps u s) (w) : KeepsRes u (execSeqQuery w s) := by
  unfold execSeqQuery
  exact keeps_runCmd h _ _ _
    (fun _ _ h1 =>
       by
         split
         · exact keeps_complete h1 _ _ _ _
         · rename_i e2
           exact keeps_complete ((keeps_curDesc _ _) _ _ _ h1 e2) _ _ _ _
         · rename_i e3
           exact keeps_complete ((keeps_curDesc _ _) _ _ _ h1 e3) _ _ _ _)

theorem keeps_countTime (h : Keeps u s) : Keeps u (countTime s) := by
  unfold countTime
  exact keeps_ite (keeps_with h) h

theorem keeps_mntAsk (h : Keeps u s) (col n) : Keeps u (mntAsk col n s) := by
  unfold mntAsk
  exact keeps_colupd h (fun _ => by rfl)

theorem keeps_mntTook (h : Keeps u s) (col) : Keeps u (mntTook col s) := by
  unfold mntTook
  exact keeps_colupd h (fun _ => by rfl)

theorem keeps_execBridgeRecalibration (h : Keeps u s) (d) : KeepsRes u (execBridgeRecalibration d s) := by
  unfold execBridgeRecalibration
  exact keepsRes_ite (keeps_next h)
    (keepsRes_ite (keeps_next (keeps_mntDefer h _ _)) (keeps_next (keeps_mntStep (keeps_askTrain h _) _ _ _)))

theorem keeps_execHalt (h : Keeps u s) (c) : KeepsRes u (execHalt c s) := by
  unfold execHalt
  exact keeps_next (keeps_seqStep h _ _ _ (fun _ _ h1 => (keeps_squpd (keeps_seqNext h1 _ _) _ _)))

theorem keeps_execGbar (h : Keeps u s) (c) : KeepsRes u (execGbar c s) := by
  unfold execGbar
  exact keeps_next
    (keeps_seqStep h _ _ _
       (fun _ _ h1 => (keeps_ite (keeps_seqTrap h1 _ _ _ _ _) (keeps_tallyCore (keeps_squpd (keeps_with h1) _ _) _ _ _ _))))

theorem keeps_loseH0 (h : Keeps u s) : Keeps u (loseH0 s) := by
  unfold loseH0
  exact keeps_rupd (keeps_hset (keeps_with h) _ _) _ _

theorem keeps_execLoadGo (h : Keeps u s) (c w) : KeepsRes u (execLoadGo c w s) := by
  unfold execLoadGo
  exact keeps_next (keeps_writeLoadCtl h _ _)

theorem keeps_hubRejoin (h : Keeps u s) (a0 eng) : Keeps u (hubRejoin a0 eng s) := by
  unfold hubRejoin
  exact keeps_foldl (fun _ _ h1 => (keeps_complete h1 _ _ _ _))
    (keeps_logErr
       (keeps_ite
          (keeps_iter
             (fun _ _ h2 =>
                keeps_grantAll (keeps_publishPort (keeps_withBoot (keeps_rset (keeps_rset h2 _ _) _ _) (by rfl)) _) _ _)
             (keeps_rupd (keeps_publishHubs (keeps_rupd (keeps_hset (keeps_withBoot h (by rfl)) _ _) _ _)) _ _))
          (keeps_scrambleQuarter
             (keeps_foldl (fun _ _ h3 => (keeps_engRun h3 (keeps_loseWhere _ _)))
                (keeps_iter
                   (fun _ _ h4 =>
                      keeps_grantAll (keeps_publishPort (keeps_withBoot (keeps_rset (keeps_rset h4 _ _) _ _) (by rfl)) _) _ _)
                   (keeps_rupd (keeps_publishHubs (keeps_rupd (keeps_hset (keeps_withBoot h (by rfl)) _ _) _ _)) _ _))) _)) _)

theorem keeps_execAadd (h : Keeps u s) (c) : KeepsRes u (execAadd c s) := by
  unfold execAadd
  exact keeps_next (keeps_seqStep h _ _ _ (fun _ _ h1 => (keeps_seqNext (keeps_adSet h1 _ _ _) _ _)))

theorem keeps_execAswpc (h : Keeps u s) (c) : KeepsRes u (execAswpc c s) := by
  unfold execAswpc
  exact keeps_next (keeps_seqAtomic h _ _ _)

theorem keeps_execTkset (h : Keeps u s) (c) : KeepsRes u (execTkset c s) := by
  unfold execTkset
  exact keeps_next
    (keeps_seqStep h _ _ _
       (fun _ _ h1 =>
          keeps_ite (keeps_seqNext (keeps_tkPut h1 _ _ _) _ _) (keeps_seqNext (keeps_tkPut (keeps_takeFree h1) _ _ _) _ _)))

theorem keeps_execXori (h : Keeps u s) (c) : KeepsRes u (execXori c s) := by
  unfold execXori
  exact keeps_next (keeps_seqI h _ _ _)

theorem keeps_crossingError (h : Keeps u s) (t) : Keeps u (crossingError t s) := by
  unfold crossingError
  exact keeps_crossErr (keeps_txUpd h _ _) _ _ _ _

theorem keeps_toPairs (h : Keeps u s) (t) : Keeps u (toPairs t s) := by
  unfold toPairs
  split
  · exact keeps_foldl (fun _ _ h1 => (keeps_pairSet h1 _ _)) h
  · exact keeps_colupd h (fun _ => by rfl)
  · exact h

theorem keeps_setLast (h : Keeps u s) (ch v) : Keeps u (setLast ch v s) := by
  unfold setLast
  exact keeps_with h

theorem keeps_urEnded (h : Keeps u s) (a) : Keeps u (urEnded a s) := by
  unfold urEnded
  exact keeps_countUr (keeps_hostReq h _ _)

theorem keeps_spReadBlocks : ∀ {s}, Keeps u s → ∀ c a, Keeps u (spReadBlocks c a s).2
  | _, h, _, [] => by
    rw [spReadBlocks]
    exact h
  | _, h, _, (b :: bs) => by
    rw [spReadBlocks]
    exact keeps_spReadBlocks (keeps_spRead h _ _) _ _

theorem keeps_spReadBytes (h : Keeps u s) (c m off n) : Keeps u (spReadBytes c m off n s).2 := by
  unfold spReadBytes
  exact keeps_ite_snd (keeps_spReadBlocks h _ _) (keeps_spReadBlocks h _ _)

theorem keeps_readChan (h : Keeps u s) (rd stuck ch) : Keeps u (readChan rd stuck ch s) := by
  unfold readChan
  split
  · exact h
  · exact keeps_noteSensor h _ _ _
  · exact keeps_noteSensor (keeps_ite (keeps_noteCode h _ _) (keeps_setLast (keeps_noteCode h _ _) _ _)) _ _ _

theorem keeps_layThSet (h : Keeps u s) (n m v) : Keeps u (layThSet n m v s) := by
  unfold layThSet
  exact keeps_with h

theorem keeps_suspectLayer (h : Keeps u s) (n m bit hot) : Keeps u (suspectLayer n m bit hot s) := by
  unfold suspectLayer
  exact keeps_logErr (keeps_rupd (keeps_with (keeps_layThSet h _ _ _)) _ _) _

theorem keeps_roundLayer (h : Keeps u s) (rd n m) : Keeps u (roundLayer rd n m s) := by
  unfold roundLayer
  exact keeps_ite (keeps_suspectLayer (keeps_layThSet h _ _ _) _ _ _ _) (keeps_layThSet h _ _ _)

theorem keeps_roundHub (h : Keeps u s) (a0) : Keeps u (roundHub a0 s) := by
  unfold roundHub
  exact keeps_with h

theorem keeps_lifeRecord (h : Keeps u s) (n thr) : Keeps u (lifeRecord n thr s) := by
  unfold lifeRecord
  exact keeps_telEmit h _

theorem keeps_coneStep (h : Keeps u s) (n) : Keeps u (coneStep n s) := by
  unfold coneStep
  exact keeps_foldl (fun _ _ h1 => (keeps_ite (keeps_lifeRecord (keeps_twThSet h1 _ _) _ _) h1)) (keeps_twThSet h _ _)

theorem keeps_coarseCounters (h : Keeps u s) : Keeps u (coarseCounters s) := by
  unfold coarseCounters
  exact keeps_with h

theorem keeps_roundCoolant (h : Keeps u s) (rd) : Keeps u (roundCoolant rd s) := by
  unfold roundCoolant
  exact keeps_ite
    (keeps_coolWarn
       (by split; exact (keeps_rupd (keeps_rset (keeps_takeFree h) _ _) _ _); exact (keeps_rset (keeps_takeFree h) _ _)))
    (by split; exact (keeps_rupd (keeps_rset (keeps_takeFree h) _ _) _ _); exact (keeps_rset (keeps_takeFree h) _ _))

theorem keeps_roundRegulators (h : Keeps u s) : Keeps u (roundRegulators s) := by
  unfold roundRegulators
  exact keeps_ite (keeps_rupd (keeps_with h) _ _) (keeps_with h)

theorem keeps_execKeyUpdate (h : Keeps u s) (sid) : KeepsRes u (execKeyUpdate sid s) := by
  unfold execKeyUpdate
  exact keeps_next (keeps_spdm h _ _ _ (fun _ h1 => (keeps_sesUpd h1 _ _)))

theorem keeps_execVexp (h : Keeps u s) (c) : KeepsRes u (execVexp c s) := by
  unfold execVexp
  exact keeps_next (keeps_vxLanes h _ _ _)

theorem keeps_glzOpenPage (h : Keeps u s) (p want record img) : Keeps u (glzOpenPage p want record img s).2 := by
  unfold glzOpenPage
  exact keeps_ite_snd (keeps_glzFail h _ _)
    (keeps_ite_snd h (by
         split
         · exact keeps_glzFail h _ _
         · exact keeps_ite_snd (keeps_glzFail (keeps_tallyHub h _ _ _ _) _ _) (keeps_tallyHub h _ _ _ _)))

theorem keeps_rekeyLose (h : Keeps u s) (p r) : Keeps u (rekeyLose p r s) := by
  unfold rekeyLose
  exact keeps_engRun (keeps_pupd h _ _)
    (keepsEng_bind (keeps_editCtx _) fun _ =>
       keepsEng_bind (keeps_needSeq _ _ _) fun _ => keepsEng_bind (keeps_losePage _ _ _ _ _) fun _ => keeps_autoCommit _)

theorem keeps_rekeyEnd (h : Keeps u s) (p r) : Keeps u (rekeyEnd p r s) := by
  unfold rekeyEnd
  dsimp only
  split
  · exact keeps_pupd h _ _
  · rename_i e1
    exact keeps_glzCount
      (keeps_glzCount
         ((keepsEng_bind (keeps_editCtx _) fun _ => keepsEng_bind (keeps_needSeq _ _ _) fun _ => keeps_pteAll _ _ _ _ _ _ _) _ _
            _ (keeps_pupd h _ _) e1) _ _ _) _ _ _

theorem keeps_execAdd (h : Keeps u s) (c) : KeepsRes u (execAdd c s) := by
  unfold execAdd
  exact keeps_next (keeps_seqR h _ _ _)

theorem keeps_execVsub (h : Keeps u s) (c) : KeepsRes u (execVsub c s) := by
  unfold execVsub
  exact keeps_next (keeps_vxLanes h _ _ _)

theorem keeps_execMapCommit (h : Keeps u s) (q) : KeepsRes u (execMapCommit q s) := by
  unfold execMapCommit
  exact keepsRes_ite (keeps_next (keeps_netPump (keeps_takeCommit h _))) (keeps_next h)

theorem keeps_execVauxDown (h : Keeps u s) : KeepsRes u (execVauxDown s) := by
  unfold execVauxDown
  refine keeps_next ((keeps_wipeSaggar h).step rfl ?_ id)
  exact fun ⟨h1, h2, h3, h4, h5, h6, h7, h8, _⟩ => ⟨h1, h2, h3, h4, h5, h6, h7, h8, rfl⟩

theorem keeps_regulatorLoss (h : Keeps u s) : Keeps u (regulatorLoss s) := by
  unfold regulatorLoss
  exact keeps_with h

theorem keeps_coarsePower (h : Keeps u s) (vals) : Keeps u (coarsePower vals s) := by
  unfold coarsePower
  exact keeps_ite (keeps_with h) (keeps_with h)

theorem keeps_loopMeasure (h : Keeps u s) (pk p hub) : Keeps u (loopMeasure pk p hub s) := by
  unfold loopMeasure
  exact keeps_regulatorLoss
    (keeps_coarsePower (keeps_iter (fun _ _ h1 => (keeps_rupd h1 _ _)) (keeps_rupd (keeps_with h) _ _)) _)

theorem keeps_execHostLinkUp (h : Keeps u s) (speed width) : KeepsRes u (execHostLinkUp speed width s) := by
  unfold execHostLinkUp
  exact keepsRes_ite (keeps_next h) (keeps_next (keeps_rupd (keeps_rset h _ _) _ _))

theorem keeps_loopRaise (h : Keeps u s) (n) : Keeps u (loopRaise n s) := by
  unfold loopRaise
  exact keeps_ite (keeps_twrPublish (keeps_setLoopW h _ _) _ _)
    (keeps_ite (keeps_twrPublish (keeps_setLoopC h _ _) _ _) (keeps_twrPublish h _ _))

theorem keeps_recheckNbu (h : Keeps u s) (col) : Keeps u (recheckNbu col s) := by
  unfold recheckNbu
  split
  · exact h
  · exact by split; exact h; exact (keeps_ite (keeps_nbCmd h _ _ _) (keeps_holdTrap (keeps_nbCmd h _ _ _) _ _))

theorem keeps_execOr (h : Keeps u s) (c) : KeepsRes u (execOr c s) := by
  unfold execOr
  exact keeps_next (keeps_seqR h _ _ _)

theorem keeps_execUnifiedWrite (h : Keeps u s) (c v) : KeepsRes u (execUnifiedWrite c v s) := by
  unfold execUnifiedWrite
  exact keeps_next (keeps_writeUnified h _ _)

theorem keeps_execChainWaitLimit (h : Keeps u s) (col) : KeepsRes u (execChainWaitLimit col s) := by
  unfold execChainWaitLimit
  exact keepsRes_ite (keeps_next h) (by split; exact (keeps_next h); exact (keeps_next (keeps_nbCmd h _ _ _)))

theorem keeps_execArgmax (h : Keeps u s) (c) : KeepsRes u (execArgmax c s) := by
  unfold execArgmax
  exact keeps_next (keeps_vxReduce h _ _ _)

theorem keeps_execSlt (h : Keeps u s) (c) : KeepsRes u (execSlt c s) := by
  unfold execSlt
  exact keeps_next (keeps_seqR h _ _ _)

theorem keeps_execTelemCfg (h : Keeps u s) (w) : KeepsRes u (execTelemCfg w s) := by
  unfold execTelemCfg
  exact keeps_runCmd h _ _ _
    (fun _ _ h1 =>
       keeps_ite (keeps_complete h1 _ _ _ _) (keeps_complete (keeps_telDrain (keeps_fnSend (keeps_with h1) _ _) _) _ _ _ _))

theorem keeps_execRequant (h : Keeps u s) (col) : KeepsRes u (execRequant col s) := by
  unfold execRequant
  dsimp only
  split
  · exact keeps_next h
  · exact keeps_next
      (keeps_nbDone
         (keeps_nbStall
            (keeps_rowMeet
               (keeps_rowMeet
                  (keeps_ftScales (keeps_rqWrite (keeps_t1ReadBlks (keeps_dropPin h _) _ _ _) _ _ _ _ _ _ _) _ _ _ _) _ _ _ _) _
               _ _ _) _ _) _ _ _)

theorem keeps_execLd (h : Keeps u s) (c) : KeepsRes u (execLd c s) := by
  unfold execLd
  exact keeps_next
    (keeps_seqStep h _ _ _
       (fun _ _ h1 =>
          keeps_ite (keeps_seqTrap h1 _ _ _ _ _) (by
              dsimp only
              split
              · exact keeps_seqTrap (keeps_spReadBytes h1 _ _ _ _) _ _ _ _ _
              · exact keeps_seqNext (keeps_xSet (keeps_spReadBytes h1 _ _ _ _) _ _ _) _ _)))

theorem keeps_execLdc (h : Keeps u s) (c busy) : KeepsRes u (execLdc c busy s) := by
  unfold execLdc
  exact keeps_next
    (keeps_seqStep h _ _ _
       (fun _ _ h1 =>
          keeps_ite (keeps_csRefuse h1 _ _ _)
            (keeps_ite (keeps_seqNext (keeps_xSet (keeps_seqBusy (keeps_csCount (keeps_takeFree h1) _ _ _) _ _) _ _ _) _ _) (by
                 dsimp only
                 split
                 · exact keeps_seqTrap (keeps_csReadBytes (keeps_csCount h1 _ _ _) _ _ _) _ _ _ _ _
                 · exact keeps_seqNext (keeps_xSet (keeps_csReadBytes (keeps_csCount h1 _ _ _) _ _ _) _ _ _) _ _))))

theorem keeps_execBrakeRelease (h : Keeps u s) : KeepsRes u (execBrakeRelease s) := by
  unfold execBrakeRelease
  exact keepsRes_ite (keeps_next h) (keeps_next (keeps_publishAll (keeps_rupd h _ _)))

theorem keeps_execVauxUp (h : Keeps u s) : KeepsRes u (execVauxUp s) := by
  unfold execVauxUp
  exact keeps_next (keeps_with h)

theorem keeps_deliverRow (h : Keeps u s) (col r parity) : Keeps u (deliverRow col r parity s) := by
  unfold deliverRow
  exact keeps_colupd (keeps_ite_snd (keeps_crossErr h _ _ _ _) (keeps_rowDecode h _ _ _)) (fun _ => by rfl)

theorem keeps_execSltu (h : Keeps u s) (c) : KeepsRes u (execSltu c s) := by
  unfold execSltu
  exact keeps_next (keeps_seqR h _ _ _)

theorem keeps_loopLower (h : Keeps u s) (n p dram cause) : Keeps u (loopLower n p dram cause s) := by
  unfold loopLower
  exact keeps_ite (keeps_twrPublish (keeps_setLoopW h _ _) _ _)
    (keeps_ite (keeps_twrPublish (keeps_setLoopC h _ _) _ _) (keeps_twrPublish h _ _))

theorem keeps_loopTower (h : Keeps u s) (n p dram pk) : Keeps u (loopTower n p dram pk s) := by
  unfold loopTower
  exact keeps_ite (keeps_loopLower h _ _ _ _)
    (keeps_ite (keeps_loopLower h _ _ _ _) (keeps_ite (keeps_loopRaise h _) (keeps_twrPublish h _ _)))

theorem keeps_execQueuedAtomic (h : Keeps u s) (c bank) : KeepsRes u (execQueuedAtomic c bank s) := by
  unfold execQueuedAtomic
  split
  · exact keeps_next h
  · exact by split; exact (keeps_next h); exact (keeps_next (keeps_csPortAtomic (keeps_with h) _ _ _ _ _))

theorem keeps_execBankGroupReady (h : Keeps u s) (c) : KeepsRes u (execBankGroupReady c s) := by
  unfold execBankGroupReady
  split
  · exact keeps_next h
  · exact keeps_next (keeps_startIfIdle (keeps_with (keeps_corUpd (keeps_cupd h _ _) _ _ _)) _)

theorem keeps_execMovst (h : Keeps u s) (c) : KeepsRes u (execMovst c s) := by
  unfold execMovst
  exact keeps_next (keeps_seqStep h _ _ _ (fun _ _ h1 => (keeps_seqNext (keeps_xSet h1 _ _ _) _ _)))

theorem keeps_t2Ask (h : Keeps u s) (a0 n) : Keeps u (t2Ask a0 n s) := by
  unfold t2Ask
  exact keeps_pairSet h _ _

theorem keeps_lenReads : ∀ {s}, Keeps u s → ∀ fn p addr a a4 a5, Keeps u (lenReads fn p addr a a4 a5 s)
  | _, h, _, _, _, 0, _, _ => by
    rw [lenReads]
    exact h
  | _, h, _, _, _, (n + 1), _, _ => by
    rw [lenReads]
    exact keeps_ite h (keeps_lenReads (keeps_hostRead h _ _ _ _) _ _ _ _ _ _)

theorem keeps_stepStart (h : Keeps u s) (p) : Keeps u (stepStart p s) := by
  unfold stepStart
  exact keeps_ite h (by
      split
      · exact h
      · exact by
          split
          · exact keeps_pset h _ _
          · exact keeps_ite (keeps_complete (keeps_pset h _ _) _ _ _ _)
              (keeps_lenReads (keeps_dropReads (keeps_pset h _ _) _) _ _ _ _ _ _))

theorem keeps_execSmbusMirrorRefresh (h : Keeps u s) : KeepsRes u (execSmbusMirrorRefresh s) := by
  unfold execSmbusMirrorRefresh
  exact keeps_next (keeps_ite (keeps_with h) h)

theorem keeps_calibrate (h : Keeps u s) (ch canary) : Keeps u (calibrate ch canary s) := by
  unfold calibrate
  exact keeps_ite (keeps_publishTemp (keeps_twrPublish (keeps_with h) _ _) _)
    (keeps_ite (keeps_ite (keeps_layThSet (keeps_with h) _ _ _) (keeps_with h)) (keeps_with h))

theorem keeps_execGetVersion (h : Keeps u s) : KeepsRes u (execGetVersion s) := by
  unfold execGetVersion
  exact keeps_next (keeps_spdm h _ _ _ (fun _ h1 => (keeps_setSec h1 _)))

theorem keeps_cbarUndo (h : Keeps u s) (c w) : Keeps u (cbarUndo c w s) := by
  unfold cbarUndo
  exact keeps_csAtomic h _ _ _ _ _

theorem keeps_flowRecord (h : Keeps u s) (ty) : Keeps u (flowRecord ty s) := by
  unfold flowRecord
  exact keeps_telEmit h _

theorem keeps_execFlowPresent (h : Keeps u s) (freq) : KeepsRes u (execFlowPresent freq s) := by
  unfold execFlowPresent
  exact keepsRes_ite (keeps_next h) (keeps_next (keeps_flowRecord (keeps_rupd h _ _) _))

theorem keeps_execGetCertificate (h : Keeps u s) (slot off len) : KeepsRes u (execGetCertificate slot off len s) := by
  unfold execGetCertificate
  exact keeps_next (keeps_spdm h _ _ _ (fun _ h1 => h1))

theorem keeps_execVrcp (h : Keeps u s) (c) : KeepsRes u (execVrcp c s) := by
  unfold execVrcp
  exact keeps_next (keeps_vxLanes h _ _ _)

theorem keeps_execSetPolicy (h : Keeps u s) (w) : KeepsRes u (execSetPolicy w s) := by
  unfold execSetPolicy
  exact keeps_runCmd h _ _ _
    (fun _ _ h1 =>
       keeps_ite (keeps_complete h1 _ _ _ _)
         (keeps_ite (keeps_complete h1 _ _ _ _)
            (keeps_ite (keeps_complete h1 _ _ _ _) (keeps_complete (keeps_kvAll h1 _ _ _) _ _ _ _))))

theorem keeps_validBlks : ∀ p i x lh a, KeepsEng u (validBlks p i x lh a)
  | _, _, _, _, 0 => by
    rw [validBlks]
    exact keepsEng_pure _
  | _, _, _, _, (n + 1) => by
    rw [validBlks]
    exact keepsEng_bind (keeps_getBld _ _ _ _ _) fun _ => (keepsEng_ite (keepsEng_pure _) (keeps_validBlks _ _ _ _ _))

theorem keeps_flitAnswered (h : Keeps u s) (p n) : Keeps u (flitAnswered p n s) := by
  unfold flitAnswered
  exact keeps_ite (keeps_emitIdle (keeps_pump h _) _ _) (keeps_pump h _)

theorem keeps_logAck (h : Keeps u s) (k) : Keeps u (logAck k s) := by
  unfold logAck
  exact keeps_ite (keeps_complete h _ _ _ _) (keeps_complete (keeps_hset h _ _) _ _ _ _)

theorem keeps_execCeq (h : Keeps u s) (c) : KeepsRes u (execCeq c s) := by
  unfold execCeq
  exact keeps_next (keeps_seqR h _ _ _)

theorem keeps_execHeartbeatAnswer (h : Keeps u s) (src) : KeepsRes u (execHeartbeatAnswer src s) := by
  unfold execHeartbeatAnswer
  split
  · exact keeps_next h
  · exact keepsRes_ite (keeps_next (keeps_freePlaces (keeps_with h) _ _))
      (keepsRes_ite (keeps_next (keeps_rupd (keeps_freePlaces (keeps_with h) _ _) _ _))
         (keeps_next
            (keeps_post
               (keeps_ite (keeps_peerErr (keeps_with (keeps_freePlaces (keeps_with h) _ _)) _)
                  (keeps_with (keeps_freePlaces (keeps_with h) _ _))) _)))

theorem keeps_execXor (h : Keeps u s) (c) : KeepsRes u (execXor c s) := by
  unfold execXor
  exact keeps_next (keeps_seqR h _ _ _)

theorem keeps_loadFuses (h : Keeps u s) : Keeps u (loadFuses s) := by
  unfold loadFuses
  exact keeps_foldl (fun _ _ h1 => (keeps_setBrg h1 _ _)) (keeps_foldl (fun _ _ h2 => (keeps_setBond h2 _ _)) (keeps_with h))

theorem keeps_execStage3 (h : Keeps u s) (bad dur) : KeepsRes u (execStage3 bad dur s) := by
  unfold execStage3
  exact keepsRes_ite (keeps_next h)
    (keeps_next
       (keeps_ite
          (keeps_logErr
             (keeps_stageEnd
                (keeps_loadFuses
                   (keeps_foldl (fun _ _ h1 => (keeps_forgetTower h1 _))
                      (keeps_withBoot
                         (keeps_withBoot
                            (keeps_rset
                               (keeps_rset
                                  (keeps_rupd
                                     (keeps_publishHubs (keeps_foldl (fun _ _ h2 => (keeps_ite h2 (keeps_hset h2 _ _))) h)) _ _)
                                  _ _) _ _) (by rfl)) (by rfl)))) _ _ _ _ _) _)
          (keeps_stageEnd
             (keeps_loadFuses
                (keeps_foldl (fun _ _ h3 => (keeps_forgetTower h3 _))
                   (keeps_withBoot
                      (keeps_withBoot
                         (keeps_rset
                            (keeps_rset
                               (keeps_rupd
                                  (keeps_publishHubs (keeps_foldl (fun _ _ h4 => (keeps_ite h4 (keeps_hset h4 _ _))) h)) _ _) _
                               _) _ _) (by rfl)) (by rfl)))) _ _ _ _ _)))

theorem keeps_execVinRecover (h : Keeps u s) : KeepsRes u (execVinRecover s) := by
  unfold execVinRecover
  exact keeps_next
    (keeps_ite (keeps_startBegin (keeps_ite (keeps_brakeSource (keeps_with h) _ _) (keeps_with h)) _)
       (keeps_ite (keeps_brakeSource (keeps_with h) _ _) (keeps_with h)))

theorem keeps_execReverseInput (h : Keeps u s) : KeepsRes u (execReverseInput s) := by
  unfold execReverseInput
  exact keeps_next (keeps_ite h (keeps_with h))

theorem keeps_execGovernorFallTick (h : Keeps u s) (k) : KeepsRes u (execGovernorFallTick k s) := by
  unfold execGovernorFallTick
  exact keeps_next (keeps_ite (keeps_setLevel h _ _) h)

theorem keeps_loopAdjust (h : Keeps u s) (pk p) : Keeps u (loopAdjust pk p s) := by
  unfold loopAdjust
  exact keeps_iter (fun _ _ h1 => (keeps_rupd h1 _ _))
    (keeps_ite (keeps_rupd (keeps_iter (fun _ _ h2 => (keeps_loopTower h2 _ _ _ _)) h) _ _)
       (keeps_iter (fun _ _ h3 => (keeps_loopTower h3 _ _ _ _)) h))

theorem keeps_predictTower (h : Keeps u s) (n) : Keeps u (predictTower n s) := by
  unfold predictTower
  exact keeps_ite h
    (keeps_ite (keeps_with h)
       (keeps_publishTemp (keeps_with (keeps_iter (fun _ _ h1 => (keeps_layThSet h1 _ _ _)) (keeps_twThSet h _ _))) _))

theorem keeps_execPowerLoopTick (h : Keeps u s) (pk tw) : KeepsRes u (execPowerLoopTick pk tw s) := by
  unfold execPowerLoopTick
  exact keepsRes_ite (keeps_next h)
    (keeps_next
       (keeps_thermBrake
          (keeps_loopAdjust (keeps_iter (fun _ _ h1 => (keeps_predictTower h1 _)) (keeps_loopMeasure h _ _ _)) _ _)))

theorem keeps_execComparatorDecrement (h : Keeps u s) (n p) : KeepsRes u (execComparatorDecrement n p s) := by
  unfold execComparatorDecrement
  exact keepsRes_ite (keeps_next h) (keeps_next (keeps_twrPublish (keeps_ite (keeps_setLoopC h _ _) h) _ _))

theorem keeps_execPbrkDeassert (h : Keeps u s) : KeepsRes u (execPbrkDeassert s) := by
  unfold execPbrkDeassert
  exact keeps_next (keeps_ite (keeps_brakeSource h _ _) h)

theorem keeps_execBrakeFwReq (h : Keeps u s) (w) : KeepsRes u (execBrakeFwReq w s) := by
  unfold execBrakeFwReq
  exact keeps_next (keeps_ite (keeps_writeBrake h _) h)

theorem keeps_execTwrLimitWrite (h : Keeps u s) (n w) : KeepsRes u (execTwrLimitWrite n w s) := by
  unfold execTwrLimitWrite
  exact keeps_next (keeps_writeTwrLimit h _ _ _)

theorem keeps_execSlotmapWrite (h : Keeps u s) (c m w) : KeepsRes u (execSlotmapWrite c m w s) := by
  unfold execSlotmapWrite
  exact keeps_next (keeps_writeSlotMap h _ _ _)

theorem keeps_execUniRegionWrite (h : Keeps u s) (c i w) : KeepsRes u (execUniRegionWrite c i w s) := by
  unfold execUniRegionWrite
  exact keeps_next (keeps_writeUniRegion h _ _ _)

theorem keeps_execBankAtomic (h : Keeps u s) (c port off op arg held) :
    KeepsRes u (execBankAtomic c port off op arg held s) := by
  unfold execBankAtomic
  exact keepsRes_ite (keeps_fault _ _)
    (keepsRes_ite (keepsRes_ite (keeps_next (keeps_with h)) (keeps_next h)) (keeps_next (keeps_csPortAtomic h _ _ _ _ _)))

theorem keeps_mxNum (h : Keeps u s) (c nan ovf sat scaleNan) : Keeps u (mxNum c nan ovf sat scaleNan s) := by
  unfold mxNum
  exact keeps_corUpd h _ _ _

theorem keeps_execWload (h : Keeps u s) (c) : KeepsRes u (execWload c s) := by
  unfold execWload
  split
  · exact keeps_next h
  · exact by
      split
      · exact keeps_next h
      · exact keeps_next
          (keeps_mxCmd (keeps_mxupd (keeps_mxNum (keeps_feedBlocks (keeps_feedBlocks h _ _) _ _) _ _ _ _ _) _ _) _ _ _)

theorem keeps_execStream (h : Keeps u s) (c y) : KeepsRes u (execStream c y s) := by
  unfold execStream
  split
  · exact keeps_next h
  · exact by
      split
      · exact keepsRes_ite (keeps_next h)
          (keeps_next
             (keeps_feedAhead
                (keeps_mxCycles (keeps_mxNum (keeps_mxCmd (keeps_mxupd (keeps_feedBlocks h _ _) _ _) _ _ _) _ _ _ _ _) _ _ _ _)
                _))
      · exact keeps_next h

theorem keeps_execDrain (h : Keeps u s) (c) : KeepsRes u (execDrain c s) := by
  unfold execDrain
  split
  · exact keeps_next h
  · exact by
      split
      · exact keeps_next h
      · exact keeps_next
          (keeps_mxCmd
             (keeps_iter
                (fun _ _ h1 => (keeps_iter (fun _ _ h2 => (keeps_ite (keeps_spPoison h2 _ _) (keeps_spWrite h2 _ _ _))) h1)) h)
             _ _ _)

theorem keeps_execShadowPromote (h : Keeps u s) (c) : KeepsRes u (execShadowPromote c s) := by
  unfold execShadowPromote
  dsimp only
  split
  · exact keeps_next h
  · exact keepsRes_ite (keeps_next h) (keeps_next (keeps_mxCmd (keeps_mxupd h _ _) _ _ _))

theorem keeps_execMxeCommandFinish (h : Keeps u s) (c i) : KeepsRes u (execMxeCommandFinish c i s) := by
  unfold execMxeCommandFinish
  split
  · exact keeps_next h
  · exact keepsRes_ite (keeps_next h) (keeps_next (keeps_mxupd (keeps_mxCmd h _ _ _) _ _))

theorem keeps_execMxeCommandRetire (h : Keeps u s) (c) : KeepsRes u (execMxeCommandRetire c s) := by
  unfold execMxeCommandRetire
  split
  · exact keeps_next h
  · exact keepsRes_ite (keeps_next h)
      (keeps_next
         (keeps_ite (keeps_holdTrap (keeps_tallyCore (keeps_tkAdd (keeps_mxupd h _ _) _ _ _ _ _ _) _ _ _ _) _ _)
            (keeps_tallyCore (keeps_tkAdd (keeps_mxupd h _ _) _ _ _ _ _ _) _ _ _ _)))

theorem keeps_execNop (h : Keeps u s) (c) : KeepsRes u (execNop c s) := by
  unfold execNop
  exact keeps_next (keeps_seqStep h _ _ _ (fun _ _ h1 => (keeps_seqNext h1 _ _)))

theorem keeps_execTrap (h : Keeps u s) (c) : KeepsRes u (execTrap c s) := by
  unfold execTrap
  exact keeps_next (keeps_seqStep h _ _ _ (fun _ _ h1 => (keeps_seqTrap h1 _ _ _ _ _)))

theorem keeps_engineResume (h : Keeps u s) (c src) : Keeps u (engineResume c src s) := by
  unfold engineResume
  exact keeps_ite (keeps_recheckMxe h _) (keeps_ite (keeps_recheckVxe h _) (keeps_ite (keeps_recheckNbu h _) h))

theorem keeps_execTret (h : Keeps u s) (c) : KeepsRes u (execTret c s) := by
  unfold execTret
  exact keeps_next
    (keeps_seqStep h _ _ _
       (fun _ _ h1 =>
          keeps_ite (keeps_pcTo (keeps_tallyCore h1 _ _ _ _) _ _)
            (keeps_engineResume
               (keeps_pcTo
                  (keeps_ite (keeps_discardRefused (keeps_squpd (keeps_tallyCore h1 _ _ _ _) _ _) _ _)
                     (keeps_squpd (keeps_tallyCore h1 _ _ _ _) _ _)) _ _) _ _)))

theorem keeps_execTabort (h : Keeps u s) (c) : KeepsRes u (execTabort c s) := by
  unfold execTabort
  exact keeps_next (keeps_seqStep h _ _ _ (fun _ _ h1 => (keeps_abortCore (keeps_seqNext h1 _ _) _)))

theorem keeps_execSub (h : Keeps u s) (c) : KeepsRes u (execSub c s) := by
  unfold execSub
  exact keeps_next (keeps_seqR h _ _ _)

theorem keeps_execShl (h : Keeps u s) (c) : KeepsRes u (execShl c s) := by
  unfold execShl
  exact keeps_next (keeps_seqR h _ _ _)

theorem keeps_execMul (h : Keeps u s) (c) : KeepsRes u (execMul c s) := by
  unfold execMul
  exact keeps_next (keeps_seqR h _ _ _)

theorem keeps_execMin (h : Keeps u s) (c) : KeepsRes u (execMin c s) := by
  unfold execMin
  exact keeps_next (keeps_seqR h _ _ _)

theorem keeps_execMax (h : Keeps u s) (c) : KeepsRes u (execMax c s) := by
  unfold execMax
  exact keeps_next (keeps_seqR h _ _ _)

theorem keeps_execAddi (h : Keeps u s) (c) : KeepsRes u (execAddi c s) := by
  unfold execAddi
  exact keeps_next (keeps_seqI h _ _ _)

theorem keeps_execAndi (h : Keeps u s) (c) : KeepsRes u (execAndi c s) := by
  unfold execAndi
  exact keeps_next (keeps_seqI h _ _ _)

theorem keeps_execOri (h : Keeps u s) (c) : KeepsRes u (execOri c s) := by
  unfold execOri
  exact keeps_next (keeps_seqI h _ _ _)

theorem keeps_execShri (h : Keeps u s) (c) : KeepsRes u (execShri c s) := by
  unfold execShri
  exact keeps_next (keeps_seqI h _ _ _)

theorem keeps_execSrai (h : Keeps u s) (c) : KeepsRes u (execSrai c s) := by
  unfold execSrai
  exact keeps_next (keeps_seqI h _ _ _)

theorem keeps_execCeqi (h : Keeps u s) (c) : KeepsRes u (execCeqi c s) := by
  unfold execCeqi
  exact keeps_next (keeps_seqI h _ _ _)

theorem keeps_execAaddc (h : Keeps u s) (c) : KeepsRes u (execAaddc c s) := by
  unfold execAaddc
  exact keeps_next (keeps_seqAtomic h _ _ _)

theorem keeps_execAmov (h : Keeps u s) (c) : KeepsRes u (execAmov c s) := by
  unfold execAmov
  exact keeps_next (keeps_seqStep h _ _ _ (fun _ _ h1 => (keeps_seqNext (keeps_adSet h1 _ _ _) _ _)))

theorem keeps_execAget (h : Keeps u s) (c) : KeepsRes u (execAget c s) := by
  unfold execAget
  exact keeps_next (keeps_seqStep h _ _ _ (fun _ _ h1 => (keeps_seqNext (keeps_xSet h1 _ _ _) _ _)))

theorem keeps_execBeq (h : Keeps u s) (c) : KeepsRes u (execBeq c s) := by
  unfold execBeq
  exact keeps_next (keeps_seqB h _ _ _)

theorem keeps_execBne (h : Keeps u s) (c) : KeepsRes u (execBne c s) := by
  unfold execBne
  exact keeps_next (keeps_seqB h _ _ _)

theorem keeps_execBltu (h : Keeps u s) (c) : KeepsRes u (execBltu c s) := by
  unfold execBltu
  exact keeps_next (keeps_seqB h _ _ _)

theorem keeps_execJmp (h : Keeps u s) (c) : KeepsRes u (execJmp c s) := by
  unfold execJmp
  exact keeps_next (keeps_seqStep h _ _ _ (fun _ _ h1 => (keeps_seqJump h1 _ _ _)))

theorem keeps_execJal (h : Keeps u s) (c) : KeepsRes u (execJal c s) := by
  unfold execJal
  exact keeps_next
    (keeps_seqStep h _ _ _ (fun _ _ h1 => (keeps_ite (keeps_seqJump (keeps_xSet h1 _ _ _) _ _ _) (keeps_seqJump h1 _ _ _))))

theorem keeps_execJr (h : Keeps u s) (c) : KeepsRes u (execJr c s) := by
  unfold execJr
  exact keeps_next (keeps_seqStep h _ _ _ (fun _ _ h1 => (keeps_seqJump h1 _ _ _)))

theorem keeps_execTkrd (h : Keeps u s) (c) : KeepsRes u (execTkrd c s) := by
  unfold execTkrd
  exact keeps_next (keeps_seqStep h _ _ _ (fun _ _ h1 => (keeps_seqNext (keeps_xSet h1 _ _ _) _ _)))

theorem keeps_engPut (h : Keeps u s) (c eng pc ws) : Keeps u (engPut c eng pc ws s) := by
  unfold engPut
  exact keeps_ite (keeps_feedAhead (keeps_ite (keeps_cupd h _ _) (keeps_holdTrap (keeps_cupd h _ _) _ _)) _)
    (keeps_ite (keeps_ite (keeps_cupd h _ _) (keeps_holdTrap (keeps_cupd h _ _) _ _))
       (keeps_ite (keeps_cupd h _ _) (keeps_ite (keeps_nbupd h _ _) (keeps_holdTrap (keeps_nbupd h _ _) _ _))))

theorem keeps_execDisp (h : Keeps u s) (c) : KeepsRes u (execDisp c s) := by
  unfold execDisp
  exact keeps_next
    (keeps_seqStep h _ _ _
       (fun _ _ h1 =>
          keeps_ite (keeps_seqTrap h1 _ _ _ _ _) (by
              dsimp only
              split
              · exact keeps_seqTrap (keeps_fetchWords h1 _ _ _) _ _ _ _ _
              · exact keeps_ite (keeps_seqTrap (keeps_fetchWords h1 _ _ _) _ _ _ _ _)
                  (keeps_ite (keeps_squpd (keeps_fetchWords h1 _ _ _) _ _)
                     (keeps_engPut (keeps_seqNext (keeps_fetchWords h1 _ _ _) _ _) _ _ _ _)))))

theorem keeps_execCbar (h : Keeps u s) (c) : KeepsRes u (execCbar c s) := by
  unfold execCbar
  exact keeps_next
    (keeps_seqStep h _ _ _
       (fun _ _ h1 =>
          keeps_ite (keeps_csRefuse h1 _ _ _) (by
              dsimp only
              split
              · exact keeps_seqTrap (keeps_csAtomic (keeps_csCount h1 _ _ _) _ _ _ _ _) _ _ _ _ _
              · exact keeps_tallyCore (keeps_squpd (keeps_csAtomic (keeps_csCount h1 _ _ _) _ _ _ _ _) _ _) _ _ _ _)))

theorem keeps_execGbarRelease (h : Keeps u s) (p g) : KeepsRes u (execGbarRelease p g s) := by
  unfold execGbarRelease
  exact keepsRes_ite (keeps_next h) (keeps_next (keeps_with (keeps_gbarFree h _ _)))

theorem keeps_execCsrr (h : Keeps u s) (c) : KeepsRes u (execCsrr c s) := by
  unfold execCsrr
  exact keeps_next
    (keeps_seqStep h _ _ _
       (fun _ _ h1 =>
          by
            split
            · exact keeps_seqNext (keeps_xSet h1 _ _ _) _ _
            · exact keeps_seqNext (keeps_xSet (keeps_takeFree h1) _ _ _) _ _))

theorem keeps_execTrapTake (h : Keeps u s) (c) : KeepsRes u (execTrapTake c s) := by
  unfold execTrapTake
  dsimp only
  split
  · exact keeps_next h
  · exact keepsRes_ite (keeps_next h)
      (keepsRes_ite (keeps_next (keeps_ite h (keeps_takeTrap h _ _ _)))
         (keepsRes_ite (keeps_next h) (keeps_next (keeps_takeTrap h _ _ _))))

theorem keeps_execWaitTimeout (h : Keeps u s) (c) : KeepsRes u (execWaitTimeout c s) := by
  unfold execWaitTimeout
  exact keepsRes_ite (keeps_next h)
    (keeps_next (keeps_seqTrap (keeps_ite (keeps_with h) (keeps_ite (keeps_cbarUndo h _ _) h)) _ _ _ _ _))

theorem keeps_execCoreHalted (h : Keeps u s) (c) : KeepsRes u (execCoreHalted c s) := by
  unfold execCoreHalted
  exact keepsRes_ite (keeps_next h) (keeps_next (keeps_cupd h _ _))

theorem keeps_execSeqStart (h : Keeps u s) (c w) : KeepsRes u (execSeqStart c w s) := by
  unfold execSeqStart
  exact keeps_next (keeps_writeSeqCtl h _ _)

theorem keeps_loadFinish (h : Keeps u s) (p) : Keeps u (loadFinish p s) := by
  unfold loadFinish
  split
  · exact h
  · exact keeps_ite h
      (by split; exact (keeps_complete (keeps_pupd h _ _) _ _ _ _); exact (keeps_complete (keeps_pupd h _ _) _ _ _ _))

theorem keeps_execLoadPathDone (h : Keeps u s) (c) : KeepsRes u (execLoadPathDone c s) := by
  unfold execLoadPathDone
  exact keepsRes_ite (keeps_next h) (by
      dsimp only
      split
      · exact keeps_next (keeps_loadEnd h _)
      · exact keeps_next (keeps_loadFinish (keeps_pupd (keeps_loadEnd h _) _ _) _))

theorem keeps_execVld (h : Keeps u s) (c) : KeepsRes u (execVld c s) := by
  unfold execVld
  split
  · exact keeps_next h
  · exact keeps_next (keeps_vxDone (keeps_vxupd (keeps_spReadBlocks h _ _) _ _) _ _ _ _)

theorem keeps_execVst (h : Keeps u s) (c) : KeepsRes u (execVst c s) := by
  unfold execVst
  split
  · exact keeps_next h
  · exact keeps_next
      (keeps_vxDone
         (keeps_vxNum (keeps_iter (fun _ _ h1 => (keeps_ite (keeps_spPoison h1 _ _) (keeps_spWrite h1 _ _ _))) h) _ _ _ _ _) _ _
         _ _)

theorem keeps_execVadd (h : Keeps u s) (c) : KeepsRes u (execVadd c s) := by
  unfold execVadd
  exact keeps_next (keeps_vxLanes h _ _ _)

theorem keeps_execVcmpgt (h : Keeps u s) (c) : KeepsRes u (execVcmpgt c s) := by
  unfold execVcmpgt
  exact keeps_next (keeps_vxLanes h _ _ _)

theorem keeps_execVsel (h : Keeps u s) (c) : KeepsRes u (execVsel c s) := by
  unfold execVsel
  exact keeps_next (keeps_vxLanes h _ _ _)

theorem keeps_execVabs (h : Keeps u s) (c) : KeepsRes u (execVabs c s) := by
  unfold execVabs
  exact keeps_next (keeps_vxLanes h _ _ _)

theorem keeps_execVmove (h : Keeps u s) (c) : KeepsRes u (execVmove c s) := by
  unfold execVmove
  exact keeps_next (keeps_vxLanes h _ _ _)

theorem keeps_execVexp2 (h : Keeps u s) (c) : KeepsRes u (execVexp2 c s) := by
  unfold execVexp2
  exact keeps_next (keeps_vxLanes h _ _ _)

theorem keeps_execRmax (h : Keeps u s) (c) : KeepsRes u (execRmax c s) := by
  unfold execRmax
  exact keeps_next (keeps_vxReduce h _ _ _)

theorem keeps_execRng (h : Keeps u s) (c) : KeepsRes u (execRng c s) := by
  unfold execRng
  split
  · exact keeps_next h
  · exact keeps_next (keeps_vxDone (keeps_vxupd h _ _) _ _ _ _)

theorem keeps_execRefreshIssue (h : Keeps u s) (col busy) : KeepsRes u (execRefreshIssue col busy s) := by
  unfold execRefreshIssue
  exact keepsRes_ite (keeps_next h) (keeps_next (keeps_colset h (by rfl)))

theorem keeps_chainSendQ (h : Keeps u s) (col b) : Keeps u (chainSendQ col b s) := by
  unfold chainSendQ
  split
  · exact keeps_nbupd h _ _
  · exact h

theorem keeps_execTier1Atomic (h : Keeps u s) (col off op arg) : KeepsRes u (execTier1Atomic col off op arg s) := by
  unfold execTier1Atomic
  exact keepsRes_ite (keeps_fault _ _) (keepsRes_ite (keeps_next h) (keeps_next (keeps_with (keeps_t1Atomic h _ _ _ _))))

theorem keeps_edCreate {u : State} (p b) : KeepsEng u (edCreate p b) := by
  unfold edCreate
  exact keepsEng_bind (keeps_editCtx _) fun _ =>
    keepsEng_bind (keeps_needFree _ _ _) fun _ => keepsEng_get fun _ h1 => keeps_newDesc _ _ _ _

theorem keeps_newPage {u : State} (p i x lh blk) : KeepsEng u (newPage p i x lh blk) := by
  unfold newPage
  split
  · exact keepsEng_pure _
  · exact keepsEng_bind (keeps_needFrames _) fun _ =>
      keepsEng_bind (keeps_allocFrame _ _ _) fun _ => keepsEng_get fun _ h1 => keeps_setBld _ _ _ _ _ _

theorem keeps_edReserve {u : State} (p b) : KeepsEng u (edReserve p b) := by
  unfold edReserve
  exact keepsEng_bind (keeps_editCtx _) fun _ =>
    keepsEng_bind (keeps_needSeq _ _ _) fun _ =>
      keeps_engEach
        (fun _ =>
           by
             split
             · exact keepsEng_pure _
             · exact keepsEng_bind (keeps_validBlks _ _ _ _ _) fun _ =>
                 keepsEng_ite (keepsEng_bind (keepsEng_fail _) fun _ => (keeps_engEach (fun _ => (keeps_newPage _ _ _ _ _)) _))
                   (keeps_engEach (fun _ => (keeps_newPage _ _ _ _ _)) _)) _

theorem keeps_edSethead {u : State} (p b) : KeepsEng u (edSethead p b) := by
  unfold edSethead
  exact keepsEng_bind (keeps_theDir _) fun _ =>
    keepsEng_ite (keepsEng_bind (keepsEng_fail _) fun _ => (keeps_updGen _ _)) (keeps_updGen _ _)

theorem keeps_execCommit (h : Keeps u s) (w) : KeepsRes u (execCommit w s) := by
  unfold execCommit
  exact keeps_runCmd h _ _ _
    (fun _ _ h1 =>
       by
         dsimp only
         split
         · exact keeps_complete h1 _ _ _ _
         · exact keeps_ite (keeps_complete h1 _ _ _ _) (keeps_pupd h1 _ _))

theorem keeps_execStepStart (h : Keeps u s) (p) : KeepsRes u (execStepStart p s) := by
  unfold execStepStart
  exact keeps_next (keeps_stepStart h _)

theorem keeps_execT2DriftCheck (h : Keeps u s) (pkg drift) : KeepsRes u (execT2DriftCheck pkg drift s) := by
  unfold execT2DriftCheck
  exact keepsRes_ite (keeps_next h) (keeps_next (keeps_iter (fun _ _ h1 => (keeps_pairSet h1 _ _)) h))

theorem keeps_execGrantLapse (h : Keeps u s) (id) : KeepsRes u (execGrantLapse id s) := by
  unfold execGrantLapse
  split
  · exact keeps_next h
  · exact keepsRes_ite (keeps_next h)
      (keeps_next (by split; exact (keeps_cluUpd (keeps_txUpd h _ _) _ _ _); exact (keeps_hubStatUpd (keeps_txUpd h _ _) _ _)))

theorem keeps_execRetryReissue (h : Keeps u s) (id) : KeepsRes u (execRetryReissue id s) := by
  unfold execRetryReissue
  exact keeps_next (keeps_txUpd h _ _)

theorem keeps_execDeviceStatus (h : Keeps u s) (w) : KeepsRes u (execDeviceStatus w s) := by
  unfold execDeviceStatus
  exact keeps_runCmd h _ _ _ (fun _ _ h1 => (keeps_complete h1 _ _ _ _))

theorem keeps_createPart (h : Keeps u s) (b) : Keeps u (createPart b s) := by
  unfold createPart
  exact keeps_pupd
    (keeps_takeFree
       (keeps_foldl (fun _ _ h1 => (keeps_rset h1 _ _))
          (keeps_foldl (fun _ _ h2 => (keeps_writeOt h2 _ _ _ _))
             (keeps_writeBounds (keeps_assignAll (keeps_pset h _ _) _) _ _ _ _ _ _)))) _ _

theorem keeps_execPartCreate (h : Keeps u s) (w) : KeepsRes u (execPartCreate w s) := by
  unfold execPartCreate
  exact keeps_runCmd h _ _ _
    (fun _ _ h1 => (keeps_ite (keeps_complete h1 _ _ _ _) (keeps_complete (keeps_createPart h1 _) _ _ _ _)))

theorem keeps_execPartLock (h : Keeps u s) (w) : KeepsRes u (execPartLock w s) := by
  unfold execPartLock
  exact keeps_runCmd h _ _ _
    (fun _ _ h1 =>
       keeps_ite (keeps_complete h1 _ _ _ _)
         (keeps_ite (keeps_complete h1 _ _ _ _) (keeps_complete (keeps_pset h1 _ _) _ _ _ _)))

theorem keeps_execPartQuery (h : Keeps u s) (w) : KeepsRes u (execPartQuery w s) := by
  unfold execPartQuery
  exact keeps_runCmd h _ _ _ (fun _ _ h1 => (keeps_complete h1 _ _ _ _))

theorem keeps_execPartReadmit (h : Keeps u s) (w) : KeepsRes u (execPartReadmit w s) := by
  unfold execPartReadmit
  exact keeps_runCmd h _ _ _
    (fun _ _ h1 =>
       keeps_ite (keeps_complete h1 _ _ _ _)
         (keeps_ite (keeps_complete h1 _ _ _ _)
            (keeps_ite (keeps_complete h1 _ _ _ _) (keeps_complete (keeps_pset (keeps_assignAll h1 _) _ _) _ _ _ _))))

theorem keeps_execDirWithdraw (h : Keeps u s) (w) : KeepsRes u (execDirWithdraw w s) := by
  unfold execDirWithdraw
  exact keeps_runCmd h _ _ _
    (fun _ _ h1 => (keeps_ite (keeps_complete h1 _ _ _ _) (keeps_complete (keeps_dirDrop h1 _) _ _ _ _)))

theorem keeps_execT2poolWithdraw (h : Keeps u s) (w) : KeepsRes u (execT2poolWithdraw w s) := by
  unfold execT2poolWithdraw
  exact keeps_runCmd h _ _ _
    (fun _ _ h1 => (keeps_ite (keeps_complete h1 _ _ _ _) (keeps_complete (keeps_poolSet h1 _ _) _ _ _ _)))

theorem keeps_execSwapWithdraw (h : Keeps u s) (w) : KeepsRes u (execSwapWithdraw w s) := by
  unfold execSwapWithdraw
  exact keeps_runCmd h _ _ _
    (fun _ _ h1 => (keeps_ite (keeps_complete h1 _ _ _ _) (keeps_complete (keeps_rupd (keeps_pupd h1 _ _) _ _) _ _ _ _)))

theorem keeps_execStepLaunch (h : Keeps u s) (w) : KeepsRes u (execStepLaunch w s) := by
  unfold execStepLaunch
  exact keeps_runCmd h _ _ _
    (fun _ _ h1 => (keeps_ite (keeps_complete h1 _ _ _ _) (keeps_ite (keeps_complete h1 _ _ _ _) (keeps_pset h1 _ _))))

theorem keeps_execLogAck (h : Keeps u s) (w) : KeepsRes u (execLogAck w s) := by
  unfold execLogAck
  exact keeps_runCmd h _ _ _ (fun _ _ h1 => (keeps_logAck h1 _))

theorem keeps_execCounterCfg (h : Keeps u s) (w) : KeepsRes u (execCounterCfg w s) := by
  unfold execCounterCfg
  exact keeps_runCmd h _ _ _
    (fun _ _ h1 => (by split; exact (keeps_complete h1 _ _ _ _); exact (keeps_complete (keeps_ctrSet h1 _ _) _ _ _ _)))

theorem keeps_stageImage (h : Keeps u s) (a0 x) : Keeps u (stageImage a0 x s) := by
  unfold stageImage
  exact keeps_with h

theorem keeps_execFwStage (h : Keeps u s) (w img) : KeepsRes u (execFwStage w img s) := by
  unfold execFwStage
  exact keeps_runCmd h _ _ _
    (fun _ _ h1 =>
       keeps_ite (keeps_complete h1 _ _ _ _)
         (keeps_complete (keeps_foldl (fun _ _ h2 => (keeps_ite (keeps_stageImage h2 _ _) h2)) h1) _ _ _ _))

theorem keeps_portRetrain (h : Keeps u s) (p) : Keeps u (portRetrain p s) := by
  unfold portRetrain
  exact keeps_portErr (keeps_rupd (keeps_setPortState (keeps_fportUpd h _ _) _ _) _ _) _ _ _

theorem keeps_execFabRoute (h : Keeps u s) (w) : KeepsRes u (execFabRoute w s) := by
  unfold execFabRoute
  exact keeps_runCmd h _ _ _ (fun _ _ h1 => (keeps_fabRoute h1 _))

theorem keeps_execFabQuery (h : Keeps u s) (w) : KeepsRes u (execFabQuery w s) := by
  unfold execFabQuery
  exact keeps_runCmd h _ _ _ (fun _ _ h1 => (keeps_fabQuery h1 _))

theorem keeps_execFlitReceive (h : Keeps u s) (p b fec poison) : KeepsRes u (execFlitReceive p b fec poison s) := by
  unfold execFlitReceive
  exact keeps_next (keeps_ite (keeps_flitReceive h _ _ _ _) h)

theorem keeps_execPortRetrain (h : Keeps u s) (p) : KeepsRes u (execPortRetrain p s) := by
  unfold execPortRetrain
  exact keeps_next (keeps_ite (keeps_portRetrain h _) h)

theorem keeps_execHeartbeatSend (h : Keeps u s) : KeepsRes u (execHeartbeatSend s) := by
  unfold execHeartbeatSend
  exact keepsRes_ite (keeps_next h) (keeps_next (keeps_with (keeps_post h _)))

theorem keeps_execOrphan (h : Keeps u s) : KeepsRes u (execOrphan s) := by
  unfold execOrphan
  exact keepsRes_ite (keeps_next h) (keeps_next (keeps_peerErr (keeps_rupd h _ _) _))

theorem keeps_sendOn (h : Keeps u s) (p m) : Keeps u (sendOn p m s) := by
  unfold sendOn
  exact keeps_pump (keeps_fportUpd h _ _) _

theorem keeps_execChannelStall (h : Keeps u s) (p chan) : KeepsRes u (execChannelStall p chan s) := by
  unfold execChannelStall
  exact keeps_next (keeps_ite (keeps_rupd (keeps_fportSet h _ _) _ _) h)

theorem keeps_slotData (h : Keeps u s) (k off len) : Keeps u (slotData k off len s).2 := by
  unfold slotData
  exact keeps_csReadBlocks h _ _

theorem keeps_execRstNRelease (h : Keeps u s) : KeepsRes u (execRstNRelease s) := by
  unfold execRstNRelease
  exact keepsRes_ite (keeps_next h)
    (keepsRes_ite (keeps_next (keeps_with h)) (keeps_next (keeps_ite (keeps_startBegin (keeps_with h) _) (keeps_with h))))

theorem keeps_execStage0 (h : Keeps u s) (pll bad dur) : KeepsRes u (execStage0 pll bad dur s) := by
  unfold execStage0
  exact keepsRes_ite (keeps_next h) (keeps_next (keeps_stageEnd (keeps_with h) _ _ _ _ _))

theorem keeps_readFuses (h : Keeps u s) (f m) : Keeps u (readFuses f m s) := by
  unfold readFuses
  exact keeps_ite h (keeps_with h)

theorem keeps_bootDebug (h : Keeps u s) : Keeps u (bootDebug s) := by
  unfold bootDebug
  exact keeps_rset (keeps_with h) _ _

theorem keeps_execStage2 (h : Keeps u s) (up speed width dur) : KeepsRes u (execStage2 up speed width dur s) := by
  unfold execStage2
  exact keepsRes_ite (keeps_next h)
    (keeps_next
       (keeps_ite (keeps_bootStop (keeps_stageEnd (keeps_rupd (keeps_rset h _ _) _ _) _ _ _ _ _))
          (keeps_stageEnd (keeps_rupd (keeps_rset h _ _) _ _) _ _ _ _ _)))

theorem keeps_execStage4 (h : Keeps u s) (f) : KeepsRes u (execStage4 f s) := by
  unfold execStage4
  exact keepsRes_ite (keeps_next h)
    (keeps_next (keeps_stageEnd (keeps_trainEdges (keeps_foldl (fun _ _ h1 => (keeps_setRec h1 _ _)) h) _ _) _ _ _ _ _))

theorem keeps_execStage8 (h : Keeps u s) (eng dur) : KeepsRes u (execStage8 eng dur s) := by
  unfold execStage8
  exact keepsRes_ite (keeps_next h)
    (keeps_next
       (keeps_stageEnd
          (keeps_iter
             (fun _ _ h1 =>
                keeps_ite h1
                  (keeps_grantAll (keeps_publishPort (keeps_withBoot (keeps_rset (keeps_rset h1 _ _) _ _) (by rfl)) _) _ _)) h)
          _ _ _ _ _))

theorem keeps_execStage9 (h : Keeps u s) (ok dur) : KeepsRes u (execStage9 ok dur s) := by
  unfold execStage9
  exact keepsRes_ite (keeps_next h)
    (keepsRes_ite (keeps_next (keeps_stageEnd h _ _ _ _ _))
       (keeps_next
          (keeps_with
             (keeps_stageEnd
                (keeps_routeLoad
                   (keeps_with
                      (keeps_rupd (keeps_with (keeps_foldl (fun _ _ h1 => (keeps_setRec h1 _ _)) (keeps_rset h _ _))) _ _))) _ _
                _ _ _))))

theorem keeps_execKilnLastClear (h : Keeps u s) (w) : KeepsRes u (execKilnLastClear w s) := by
  unfold execKilnLastClear
  exact keeps_next (keeps_writeKilnLast h _)

theorem keeps_canaryLayer (h : Keeps u s) (n m) : Keeps u (canaryLayer n m s) := by
  unfold canaryLayer
  exact keeps_ite (keeps_suspectLayer h _ _ _ _) h

theorem keeps_canaryFail (h : Keeps u s) (n) : Keeps u (canaryFail n s) := by
  unfold canaryFail
  exact keeps_twThSet h _ _

theorem keeps_execCanaryCheck (h : Keeps u s) (col fail) : KeepsRes u (execCanaryCheck col fail s) := by
  unfold execCanaryCheck
  exact keepsRes_ite (keeps_next h)
    (keepsRes_ite (keeps_next (keeps_ite (keeps_twThSet h _ _) h))
       (keeps_next (keeps_iter (fun _ _ h1 => (keeps_ite (keeps_canaryLayer h1 _ _) h1)) (keeps_canaryFail h _))))

theorem keeps_windowEnd (h : Keeps u s) (n) : Keeps u (windowEnd n s) := by
  unfold windowEnd
  exact keeps_ite (keeps_rupd (keeps_twThSet h _ _) _ _) (keeps_twThSet h _ _)

theorem keeps_execRthWindow (h : Keeps u s) (n) : KeepsRes u (execRthWindow n s) := by
  unfold execRthWindow
  exact keepsRes_ite (keeps_next h) (keeps_next (keeps_ite (keeps_coolWarn (keeps_windowEnd h _)) (keeps_windowEnd h _)))

theorem keeps_execCoolWarnRepeat (h : Keeps u s) : KeepsRes u (execCoolWarnRepeat s) := by
  unfold execCoolWarnRepeat
  exact keeps_next (keeps_ite (keeps_coolWarn h) h)

theorem keeps_execCoolWarnClear (h : Keeps u s) : KeepsRes u (execCoolWarnClear s) := by
  unfold execCoolWarnClear
  exact keeps_next (keeps_ite (keeps_coolRecord (keeps_with h) _) h)

theorem keeps_execFlowLost (h : Keeps u s) (freq noEdge) : KeepsRes u (execFlowLost freq noEdge s) := by
  unfold execFlowLost
  exact keepsRes_ite (keeps_next h)
    (keeps_next (keeps_flowRecord (keeps_brakeSource (keeps_rupd (keeps_rupd h _ _) _ _) _ _) _))

theorem keeps_execPatrolScrubT1 (h : Keeps u s) (col g) : KeepsRes u (execPatrolScrubT1 col g s) := by
  unfold execPatrolScrubT1
  exact keepsRes_ite (keeps_next h)
    (keepsRes_ite (keeps_next (keeps_mntDefer h _ _))
       (keepsRes_ite (keeps_next (keeps_mntStep h _ _ _))
          (keepsRes_ite (keeps_next (keeps_mntAsk h _ _))
             (keeps_next (keeps_mntStep (keeps_scrubGroup (keeps_mntTook h _) _ _) _ _ _)))))

theorem keeps_execOpticalRecalibration (h : Keeps u s) (p) : KeepsRes u (execOpticalRecalibration p s) := by
  unfold execOpticalRecalibration
  exact keepsRes_ite (keeps_next h)
    (keepsRes_ite (keeps_next (keeps_mntStep h _ _ _))
       (keepsRes_ite (keeps_next h)
          (keepsRes_ite (keeps_next (keeps_mntDefer h _ _)) (keeps_next (keeps_mntStep (keeps_portRetrain h _) _ _ _)))))

theorem keeps_execSensorCalibration (h : Keeps u s) (ch pass canary) : KeepsRes u (execSensorCalibration ch pass canary s) := by
  unfold execSensorCalibration
  exact keepsRes_ite (keeps_next h) (keeps_next (keeps_mntStep (keeps_ite (keeps_calibrate h _ _) h) _ _ _))

theorem keeps_execWearTracking (h : Keeps u s) (a0) : KeepsRes u (execWearTracking a0 s) := by
  unfold execWearTracking
  exact keeps_next (keeps_ite h (keeps_mntPass (keeps_wearWrite h _) _ _))

theorem keeps_spanAsk (h : Keeps u s) (l) : Keeps u (spanAsk l s) := by
  unfold spanAsk
  split
  · exact keeps_ite (keeps_t2Ask h _ _) (keeps_mntAsk h _ _)
  · exact h

theorem keeps_zeroUnit (h : Keeps u s) (i) : Keeps u (zeroUnit i s) :=
  h.step rfl (fun ⟨h1, h2, h3, h4, h5, h6, h7, h8, h9⟩ => ⟨h1, h2, h3, h4, h5, h6, memZero_wf _ _ _ h7, h8, h9⟩) id

theorem keeps_frameBack (h : Keeps u s) (k col f) : Keeps u (frameBack k col f s) := by
  unfold frameBack
  split
  · exact by
      split
      · exact keeps_ite h
          (keeps_engRun h (keepsEng_bind (keeps_bmPut _ _ _ _) fun _ => (keepsEng_modify (fun _ h1 => (keeps_cluUpd h1 _ _ _)))))
      · exact h
  · exact h

theorem keeps_execMaintPassLate (h : Keeps u s) (a0 kind) : KeepsRes u (execMaintPassLate a0 kind s) := by
  unfold execMaintPassLate
  exact keepsRes_ite (keeps_next h) (keeps_next (keeps_mntSet h _ _ _))

theorem keeps_execGetCapabilities (h : Keeps u s) : KeepsRes u (execGetCapabilities s) := by
  unfold execGetCapabilities
  exact keeps_next (keeps_spdm h _ _ _ (fun _ h1 => (keeps_setSec h1 _)))

theorem keeps_execChallenge (h : Keeps u s) (slot nonce) : KeepsRes u (execChallenge slot nonce s) := by
  unfold execChallenge
  exact keeps_next (keeps_spdm h _ _ _ (fun _ h1 => h1))

theorem keeps_execKeyExchange (h : Keeps u s) (slot) : KeepsRes u (execKeyExchange slot s) := by
  unfold execKeyExchange
  exact keeps_next (keeps_spdm h _ _ _ (fun _ h1 => (keeps_setSec h1 _)))

theorem keeps_execHeartbeat (h : Keeps u s) (sid) : KeepsRes u (execHeartbeat sid s) := by
  unfold execHeartbeat
  exact keeps_next (keeps_spdm h _ _ _ (fun _ h1 => h1))

theorem keeps_execLockInterfaceRequest (h : Keeps u s) (p) : KeepsRes u (execLockInterfaceRequest p s) := by
  unfold execLockInterfaceRequest
  exact keeps_next (keeps_ite h (keeps_ite (keeps_tdispSend (keeps_pupd h _ _) _ _) (keeps_tdispSend h _ _)))

theorem keeps_execStartInterfaceRequest (h : Keeps u s) (p) : KeepsRes u (execStartInterfaceRequest p s) := by
  unfold execStartInterfaceRequest
  exact keeps_next (keeps_ite h (keeps_ite (keeps_tdispSend (keeps_pupd h _ _) _ _) (keeps_tdispSend h _ _)))

theorem keeps_execSnapshotFreeze (h : Keeps u s) : KeepsRes u (execSnapshotFreeze s) := by
  unfold execSnapshotFreeze
  exact keeps_next (keeps_snapAsk h _)

theorem keeps_execSnapshotLatch (h : Keeps u s) (dies late) : KeepsRes u (execSnapshotLatch dies late s) := by
  unfold execSnapshotLatch
  split
  · exact keeps_next h
  · exact keeps_next (keeps_snapShow (keeps_foldl (fun _ _ h1 => (keeps_latchDie h1 _ _ _)) h))

theorem keeps_execTelemHeadWrite (h : Keeps u s) (w) : KeepsRes u (execTelemHeadWrite w s) := by
  unfold execTelemHeadWrite
  exact keeps_next (keeps_writeTelemHead h _)

theorem keeps_execSmbusReadByte (h : Keeps u s) (code) : KeepsRes u (execSmbusReadByte code s) := by
  unfold execSmbusReadByte
  exact keeps_next (keeps_ite (keeps_hostSend h _) h)

theorem keeps_execSmbusBlockRead (h : Keeps u s) (code n) : KeepsRes u (execSmbusBlockRead code n s) := by
  unfold execSmbusBlockRead
  exact keeps_next (keeps_ite (keeps_hostSend h _) h)

theorem keeps_execHubRejoin (h : Keeps u s) (a0 eng) : KeepsRes u (execHubRejoin a0 eng s) := by
  unfold execHubRejoin
  exact keeps_next (keeps_ite (keeps_hubRejoin h _ _) h)

theorem keeps_stepCore (h : Keeps u s) (b c) : Keeps u (stepCore b c s) := by
  unfold stepCore
  exact keeps_writeSeqCtl (keeps_iter (fun _ _ h1 => (keeps_xSet h1 _ _ _)) h) _ _

theorem keeps_flitAcked (h : Keeps u s) (p b) : Keeps u (flitAcked p b s) := by
  unfold flitAcked
  exact keeps_linkFields h _ _ _ _ _

theorem keeps_flitCounted (h : Keeps u s) (p b) : Keeps u (flitCounted p b s) := by
  unfold flitCounted
  exact keeps_tallyHub (keeps_flitAcked h _ _) _ _ _ _

theorem keeps_gbarArrive (h : Keeps u s) (c k) : Keeps u (gbarArrive c k s) := by
  unfold gbarArrive
  exact keeps_with h

theorem keeps_gbarPass (h : Keeps u s) (c) : Keeps u (gbarPass s c) := by
  unfold gbarPass
  exact keeps_ite (keeps_pcTo h _ _) h

theorem keeps_gbarTurn (h : Keeps u s) (k) : Keeps u (gbarTurn k s) := by
  unfold gbarTurn
  exact keeps_with h

theorem keeps_sendNotes (h : Keeps u s) : Keeps u (sendNotes s) := by
  unfold sendNotes
  exact keeps_foldl (fun _ _ h1 => (keeps_evSignal h1 _))
    (keeps_ite (keeps_sumSignal (keeps_iter (fun _ _ h2 => (keeps_ite (keeps_hubSignal h2 _) h2)) h))
       (keeps_iter (fun _ _ h3 => (keeps_ite (keeps_hubSignal h3 _) h3)) h))

theorem keeps_flitNumbered (h : Keeps u s) (p b) : Keeps u (flitNumbered p b s) := by
  unfold flitNumbered
  exact keeps_fportSet (keeps_flitCounted h _ _) _ _

theorem keeps_rejoinTests (h : Keeps u s) (n t f) : Keeps u (rejoinTests n t f s) := by
  unfold rejoinTests
  dsimp only
  exact keeps_zeroTower
    (keeps_with
       (keeps_fireStage
          (keeps_ite
             (keeps_testBonds
                (keeps_with
                   (keeps_fireStage
                      (keeps_ite
                         (keeps_testTowers
                            (keeps_with
                               (keeps_fireStage (keeps_ite (keeps_trainEdges h _ _) (keeps_with (keeps_trainEdges h _ _))) _ _ _
                                  _ _ _)) _ _)
                         (keeps_with
                            (keeps_testTowers
                               (keeps_with
                                  (keeps_fireStage (keeps_ite (keeps_trainEdges h _ _) (keeps_with (keeps_trainEdges h _ _))) _
                                     _ _ _ _ _)) _ _))) _ _ _ _ _ _)) _ _)
             (keeps_with
                (keeps_testBonds
                   (keeps_with
                      (keeps_fireStage
                         (keeps_ite
                            (keeps_testTowers
                               (keeps_with
                                  (keeps_fireStage (keeps_ite (keeps_trainEdges h _ _) (keeps_with (keeps_trainEdges h _ _))) _
                                     _ _ _ _ _)) _ _)
                            (keeps_with
                               (keeps_testTowers
                                  (keeps_with
                                     (keeps_fireStage (keeps_ite (keeps_trainEdges h _ _) (keeps_with (keeps_trainEdges h _ _)))
                                        _ _ _ _ _ _)) _ _))) _ _ _ _ _ _)) _ _))) _ _ _ _ _ _)) _

theorem keeps_copyPage {u : State} (p k e) : KeepsEng u (copyPage p k e) := by
  unfold copyPage
  dsimp only
  exact keepsEng_bind (keeps_theDir _) fun _ =>
    keepsEng_get fun _ h1 =>
      by
        split
        · exact keepsEng_fail _
        · exact keepsEng_ite
            (keepsEng_bind (keeps_lowFrame _ _ _ _) fun _ =>
               by
                 split
                 · exact keepsEng_bind (keeps_takeFrame _ _ _ _ _) fun _ =>
                     keepsEng_bind (keepsEng_pure _) fun _ =>
                       keepsEng_bind
                         (keepsEng_modify
                            (fun _ h2 =>
                               keeps_ite (keeps_copyFrame (keeps_copyFrame h2 _ _ _ _ _) _ _ _ _ _)
                                 (keeps_copyFrame h2 _ _ _ _ _))) fun _ =>
                         keepsEng_pure _
                 · exact keepsEng_bind (keeps_allocFrame _ _ _) fun _ =>
                     keepsEng_bind
                       (keepsEng_modify
                          (fun _ h3 =>
                             keeps_ite (keeps_copyFrame (keeps_copyFrame h3 _ _ _ _ _) _ _ _ _ _) (keeps_copyFrame h3 _ _ _ _ _)))
                       fun _ =>
                       keepsEng_pure _)
            (keepsEng_bind (keepsEng_pure _) fun _ =>
               by
                 split
                 · exact keepsEng_bind (keeps_takeFrame _ _ _ _ _) fun _ =>
                     keepsEng_bind (keepsEng_pure _) fun _ =>
                       keepsEng_bind
                         (keepsEng_modify
                            (fun _ h4 =>
                               keeps_ite (keeps_copyFrame (keeps_copyFrame h4 _ _ _ _ _) _ _ _ _ _)
                                 (keeps_copyFrame h4 _ _ _ _ _))) fun _ =>
                         keepsEng_pure _
                 · exact keepsEng_bind (keeps_allocFrame _ _ _) fun _ =>
                     keepsEng_bind
                       (keepsEng_modify
                          (fun _ h5 =>
                             keeps_ite (keeps_copyFrame (keeps_copyFrame h5 _ _ _ _ _) _ _ _ _ _) (keeps_copyFrame h5 _ _ _ _ _)))
                       fun _ =>
                       keepsEng_pure _)

theorem keeps_copyEntry {u : State} (p k e tokens) : KeepsEng u (copyEntry p k e tokens) := by
  unfold copyEntry
  exact keepsEng_bind (keeps_needFrames _) fun _ =>
    keepsEng_bind (keeps_copyPage _ _ _) fun _ => keepsEng_get fun _ h1 => keepsEng_pure _

theorem keeps_truncLh {u : State} (p i pos x lh) : KeepsEng u (truncLh p i pos x lh) := by
  unfold truncLh
  split
  · exact keepsEng_pure _
  · exact keepsEng_bind (keeps_engEach (fun _ => (keeps_dropBld _ _ _ _ _)) _) fun _ =>
      keepsEng_ite
        (keepsEng_bind (keeps_getBld _ _ _ _ _) fun _ =>
           keepsEng_ite (keepsEng_pure _)
             (keepsEng_ite
                (keepsEng_bind (keeps_copyEntry _ _ _ _) fun _ =>
                   keepsEng_bind (keeps_dropEntry _ _ _) fun _ => keeps_setBld _ _ _ _ _ _)
                (keepsEng_get fun _ h1 => (keeps_setBld _ _ _ _ _ _)))) (keepsEng_pure _)

theorem keeps_edTruncate {u : State} (p b) : KeepsEng u (edTruncate p b) := by
  unfold edTruncate
  exact keepsEng_bind (keeps_editCtx _) fun _ =>
    keepsEng_bind (keeps_needSeq _ _ _) fun _ =>
      keepsEng_ite
        (keepsEng_bind (keepsEng_fail _) fun _ =>
           keepsEng_ite
             (keepsEng_bind (keepsEng_fail _) fun _ =>
                keepsEng_bind (keeps_engEach (fun _ => (keeps_truncLh _ _ _ _ _)) _) fun _ =>
                  keepsEng_bind (keeps_engEach (fun _ => (keeps_editDesc _ _ _ _)) _) fun _ =>
                    keepsEng_ite (keeps_endVictim _ _ _) (keepsEng_pure _))
             (keepsEng_bind (keeps_engEach (fun _ => (keeps_truncLh _ _ _ _ _)) _) fun _ =>
                keepsEng_bind (keeps_engEach (fun _ => (keeps_editDesc _ _ _ _)) _) fun _ =>
                  keepsEng_ite (keeps_endVictim _ _ _) (keepsEng_pure _)))
        (keepsEng_ite
           (keepsEng_bind (keepsEng_fail _) fun _ =>
              keepsEng_bind (keeps_engEach (fun _ => (keeps_truncLh _ _ _ _ _)) _) fun _ =>
                keepsEng_bind (keeps_engEach (fun _ => (keeps_editDesc _ _ _ _)) _) fun _ =>
                  keepsEng_ite (keeps_endVictim _ _ _) (keepsEng_pure _))
           (keepsEng_bind (keeps_engEach (fun _ => (keeps_truncLh _ _ _ _ _)) _) fun _ =>
              keepsEng_bind (keeps_engEach (fun _ => (keeps_editDesc _ _ _ _)) _) fun _ =>
                keepsEng_ite (keeps_endVictim _ _ _) (keepsEng_pure _)))

theorem keeps_tkTryWait (h : Keeps u s) (c w) : ∀ t, tkTryWait c w s = some t → Keeps u t := fun t e => by
  simp only [tkTryWait, ge_iff_le, Option.ite_none_right_eq_some, Option.some.injEq] at e
  rw [← e.2]
  exact keeps_pcTo (keeps_ite h (keeps_tkPut h _ _ _)) _ _

theorem keeps_execTkwait (h : Keeps u s) (c) : KeepsRes u (execTkwait c s) := by
  unfold execTkwait
  exact keeps_next
    (keeps_seqStep h _ _ _
       (fun _ _ h1 =>
          keeps_getD (keeps_tkTryWait (keeps_tallyCore h1 _ _ _ _) _ _) (keeps_squpd (keeps_tallyCore h1 _ _ _ _) _ _)))

theorem keeps_csWriteFrom : ∀ {s}, Keeps u s → ∀ c a a2 a3, Keeps u (csWriteFrom c a a2 a3 s)
  | _, h, _, 0, _, _ => by
    rw [csWriteFrom]
    exact h
  | _, h, _, (_ + 1), _, [] => by
    rw [csWriteFrom]
    exact h
    exact nofun
  | _, h, _, (n + 1), _, (_ :: _) => by
    rw [csWriteFrom]
    exact keeps_csWriteFrom (keeps_csWriteIn h _ _ _ _) _ _ _ _
    exact nofun

theorem keeps_csWriteBytes (h : Keeps u s) (c off v) : Keeps u (csWriteBytes c off v s) := by
  unfold csWriteBytes
  exact keeps_csWriteFrom h _ _ _ _

theorem keeps_strmPut (h : Keeps u s) (k i w v) : Keeps u (strmPut k i w v s) := by
  unfold strmPut
  exact keeps_ite h (by split; exact (keeps_agentRefuse h _ _ _); exact (keeps_csWriteBytes h _ _ _))

theorem keeps_strmFail (h : Keeps u s) (k i status) : Keeps u (strmFail k i status s) := by
  unfold strmFail
  dsimp only
  exact keeps_ite h (keeps_strmPut (keeps_strmWord h _ _ _) _ _ _ _)

theorem keeps_refusePut (h : Keeps u s) (head cls src status) : Keeps u (refusePut head cls src status s) := by
  unfold refusePut
  exact keeps_ite h (keeps_ite (by split; exact (keeps_strmFail h _ _ _); exact h) (keeps_streamNote h _ _ _ _ _))

theorem keeps_dropMsg (h : Keeps u s) (p head cls src) : Keeps u (dropMsg p head cls src s) := by
  unfold dropMsg
  exact keeps_refusePut (keeps_rupd h _ _) _ _ _ _

theorem keeps_portDown (h : Keeps u s) (p st) : Keeps u (portDown p st s) := by
  unfold portDown
  exact keeps_portRestart (keeps_foldl (fun _ _ h1 => (keeps_dropMsg h1 _ _ _ _)) (keeps_setPortState h _ _)) _

theorem keeps_roundEngines (h : Keeps u s) : Keeps u (roundEngines s) := by
  unfold roundEngines
  exact keeps_iter
    (fun _ _ h1 =>
       keeps_ite h1
         (keeps_ite (keeps_ite (keeps_ite (keeps_setPortState (keeps_with h1) _ _) (keeps_with h1)) h1)
            (keeps_ite (keeps_portErr (keeps_portDown (keeps_with h1) _ _) _ _ _) h1))) h

theorem keeps_hostWrite : ∀ {s}, Keeps u s → ∀ fn addr a a3, Keeps u (hostWrite fn addr a a3 s)
  | _, h, _, _, 0, _ => by
    rw [hostWrite]
    exact h
  | _, h, _, _, (_ + 1), [] => by
    rw [hostWrite]
    exact h
    exact nofun
  | _, h, _, _, (n + 1), (_ :: _) => by
    rw [hostWrite]
    exact keeps_hostWrite (keeps_fnSend h _ _) _ _ _ _
    exact nofun

theorem keeps_hostPut (h : Keeps u s) (fn addr d) : Keeps u (hostPut fn addr d s) := by
  unfold hostPut
  exact keeps_hostWrite h _ _ _ _

theorem keeps_tokenTable (h : Keeps u s) (st recs) : Keeps u (tokenTable s st recs) := by
  unfold tokenTable
  split
  · exact keeps_hostPut h _ _ _
  · exact h

theorem keeps_earlyTable (h : Keeps u s) (st) : Keeps u (earlyTable st s) := by
  unfold earlyTable
  exact keeps_tokenTable h _ _

theorem keeps_stepClose (h : Keeps u s) (p st) : Keeps u (stepClose p st s) := by
  unfold stepClose
  exact keeps_stepDone
    (keeps_earlyTable
       (keeps_engRun h (keepsEng_bind (keeps_curCtx _) fun _ => (keeps_engEach (fun _ => (keeps_restSeq _ _ _ _)) _))) _) _ _ _
    _ _

theorem keeps_stepStop (h : Keeps u s) (p status detail) : Keeps u (stepStop p status detail s) := by
  unfold stepStop
  split
  · exact h
  · exact keeps_ite h
      (keeps_ite (keeps_stepClose (keeps_foldl (fun _ _ h1 => (keeps_haltReqCore h1 _)) (keeps_pupd h _ _)) _ _)
         (keeps_foldl (fun _ _ h2 => (keeps_haltReqCore h2 _)) (keeps_pupd h _ _)))

theorem keeps_cancelSteps (h : Keeps u s) (p) : Keeps u (cancelSteps p s).2 := by
  unfold cancelSteps
  exact keeps_launchesEnd (keeps_stepStop h _ _ _) _ _

theorem keeps_execStepCancel (h : Keeps u s) (w) : KeepsRes u (execStepCancel w s) := by
  unfold execStepCancel
  exact keeps_runCmd h _ _ _ (fun _ _ h1 => (keeps_complete (keeps_cancelSteps h1 _) _ _ _ _))

theorem keeps_stepEndNow (h : Keeps u s) (p status) : Keeps u (stepEndNow p status s) := by
  unfold stepEndNow
  split
  · exact h
  · exact keeps_stepDone (keeps_earlyTable (keeps_foldl (fun _ _ h1 => (keeps_haltReqCore h1 _)) h) _) _ _ _ _ _

theorem keeps_faultPart (h : Keeps u s) (p) : Keeps u (faultPart p s) := by
  unfold faultPart
  exact keeps_ite h
    (keeps_pupd
       (keeps_dropAreas
          (keeps_foldl (fun _ _ h1 => (keeps_complete h1 _ _ _ _)) (keeps_launchesEnd (keeps_stepEndNow h _ _) _ _)) _) _ _)

theorem keeps_tdiError (h : Keeps u s) (p) : Keeps u (tdiError p s) := by
  unfold tdiError
  exact keeps_ite h
    (keeps_assignAll
       (keeps_foldl (fun _ _ h1 => (keeps_cupd h1 _ _))
          (keeps_startZeroing (keeps_pupd (keeps_faultPart (keeps_stepEndNow h _ _) _) _ _) _)) _)

theorem keeps_cancelSilent (h : Keeps u s) (p) : Keeps u (cancelSilent p s) := by
  unfold cancelSilent
  exact keeps_cancelSteps (keeps_silence h _) _

theorem keeps_partReset (h : Keeps u s) (p) : Keeps u (partReset p s) := by
  unfold partReset
  exact keeps_tdiError (keeps_cancelSilent h _) _

theorem keeps_vfReset (h : Keeps u s) (p) : Keeps u (vfReset p s) := by
  unfold vfReset
  exact keeps_fnReset (keeps_partReset (keeps_emptyWindow h _) _) _

theorem keeps_allReset (h : Keeps u s) : Keeps u (allReset s) := by
  unfold allReset
  exact keeps_fnReset (keeps_iter (fun _ _ h1 => (keeps_vfReset h1 _)) (keeps_iter (fun _ _ h2 => (keeps_emptyWindow h2 _)) h))
    _

theorem keeps_execLinkDown (h : Keeps u s) : KeepsRes u (execLinkDown s) := by
  unfold execLinkDown
  exact keeps_next (keeps_ite h (keeps_linkDown (keeps_allReset h)))

theorem keeps_editCmd (h : Keeps u s) (w op stuck resv) {e : Nat → List Byte → Eng Unit} (he : ∀ p b, KeepsEng u (e p b)) :
    KeepsRes u (editCmd w op stuck resv e s) := by
  unfold editCmd
  refine keeps_runCmd h _ _ _ fun k s hs => ?_
  dsimp only
  split
  · exact keeps_complete hs _ _ _ _
  · refine keeps_ite (keeps_complete hs _ _ _ _) (keeps_ite (keeps_complete (keeps_editStuck hs _) _ _ _ _) ?_)
    split
    · exact keeps_complete hs _ _ _ _
    · rename_i hr
      exact keeps_complete (keeps_trimSwap (keeps_countEdit (he _ _ _ _ _ hs hr) _) _) _ _ _ _

theorem keeps_execTruncate (h : Keeps u s) (w stuck) : KeepsRes u (execTruncate w stuck s) := by
  unfold execTruncate
  exact keeps_editCmd h _ _ _ _ (fun _ _ => (keeps_edTruncate _ _))

theorem keeps_t1WriteFrom : ∀ {s}, Keeps u s → ∀ c a a2 a3, Keeps u (t1WriteFrom c a a2 a3 s)
  | _, h, _, 0, _, _ => by
    rw [t1WriteFrom]
    exact h
  | _, h, _, (_ + 1), _, [] => by
    rw [t1WriteFrom]
    exact h
    exact nofun
  | _, h, _, (n + 1), _, (_ :: _) => by
    rw [t1WriteFrom]
    exact keeps_t1WriteFrom (keeps_t1WriteIn h _ _ _) _ _ _ _
    exact nofun

theorem keeps_t1Write (h : Keeps u s) (c off v) : Keeps u (t1Write c off v s) := by
  unfold t1Write
  exact keeps_t1WriteFrom h _ _ _ _

theorem keeps_t2Write (h : Keeps u s) (off v tx) : Keeps u (t2Write off v tx s) := by
  unfold t2Write
  refine keeps_tallyHub (keeps_mems h ?_) _ _ _ _
  exact fun ⟨h1, h2, h3, h4, h5, h6, h7, h8, h9⟩ => ⟨h1, h2, h3, h4, h5, h6, memWrite_wf _ _ _ h7, h8, h9⟩

theorem keeps_t2Store (h : Keeps u s) (off v tx) : Keeps u (t2Store off v tx s) := by
  unfold t2Store
  exact keeps_with (keeps_t2Write (keeps_t2Link h _ _ _) _ _ _)

theorem keeps_tgtWrite (h : Keeps u s) (t v tx) : Keeps u (tgtWrite t v tx s) := by
  unfold tgtWrite
  split
  · exact keeps_t1Write h _ _ _
  · exact keeps_csWriteBytes (keeps_csCount h _ _ _) _ _ _
  · exact keeps_t2Store h _ _ _
  · exact h

theorem keeps_execIdeIntegrityFailure (h : Keeps u s) (stream) : KeepsRes u (execIdeIntegrityFailure stream s) := by
  unfold execIdeIntegrityFailure
  exact keeps_next (keeps_ite h (keeps_setStream (keeps_foldl (fun _ _ h1 => (keeps_tdiError h1 _)) h) _ _ _))

theorem keeps_loseTower (h : Keeps u s) (n) : Keeps u (loseTower n s) := by
  unfold loseTower
  exact keeps_ite h
    (keeps_lossRecords
       (keeps_mapChange
          (keeps_towerHold
             (keeps_foldl (fun _ _ h1 => (keeps_faultPart h1 _))
                (keeps_foldl (fun _ _ h2 => (keeps_tdiError h2 _))
                   (keeps_iter (fun _ _ h3 => (keeps_breakBarriers h3 _))
                      (keeps_fenceRemote (keeps_fenceTxs (keeps_with (keeps_rupd h _ _)) _) _)))) _) _) _ _)

theorem keeps_islandCheck (h : Keeps u s) (i) : Keeps u (islandCheck i s) := by
  unfold islandCheck
  exact keeps_foldl (fun _ _ h1 => (keeps_ite (keeps_loseTower h1 _) h1)) h

theorem keeps_startTrain (h : Keeps u s) (d) : Keeps u (startTrain d s) := by
  unfold startTrain
  exact keeps_ite h (keeps_islandCheck (keeps_withBoot h (by rfl)) _)

theorem keeps_startTrains (h : Keeps u s) : Keeps u (startTrains s) := by
  unfold startTrains
  exact keeps_foldl (fun _ _ h1 => (keeps_startTrain h1 _)) h

theorem keeps_execRouteTableLoad (h : Keeps u s) : KeepsRes u (execRouteTableLoad s) := by
  unfold execRouteTableLoad
  exact keeps_next (keeps_netPump (keeps_startTrains (keeps_routeLoad h)))

theorem keeps_t1ReadBytes (h : Keeps u s) (c off n) : Keeps u (t1ReadBytes c off n s).2 := by
  unfold t1ReadBytes
  dsimp only
  exact keeps_ite_snd h (keeps_ite_snd (keeps_t1ReadBlks h _ _ _) (keeps_t1ReadBlks h _ _ _))

theorem keeps_tgtRead (h : Keeps u s) (t n tx) : Keeps u (tgtRead t n tx s).2 := by
  unfold tgtRead
  split
  · exact keeps_t1ReadBytes h _ _ _
  · exact keeps_csReadBytes (keeps_csCount h _ _ _) _ _ _
  · exact keeps_t2Load h _ _ _
  · exact h

theorem keeps_readBlock (h : Keeps u s) (b a n) : Keeps u (readBlock b a n s).2 := by
  unfold readBlock
  dsimp only
  split
  · exact keeps_ite_snd (keeps_hostRefused h _ _) (by
        split
        · exact keeps_ite_snd (keeps_hostRefused h _ _) (keeps_ite_snd h (keeps_ite_snd h (keeps_regBytes h _ _ _)))
        · exact keeps_ite_snd h (keeps_regBytes h _ _ _))
  · exact by split; exact (keeps_hostRefused h _ _); exact (keeps_tgtRead h _ _ _)

theorem keeps_writeWindow (h : Keeps u s) (w off d) : Keeps u (writeWindow w off d s) := by
  unfold writeWindow
  refine keeps_ite h (keeps_examine (keeps_mems h ?_) _ _ _ _)
  exact fun ⟨h1, h2, h3, h4, h5, h6, h7, h8, h9⟩ => ⟨h1, h2, h3, h4, h5, h6, h7, memWf_foldl_memSet _ _ _ h8, h9⟩

theorem keeps_bar2ReadAt (h : Keeps u s) (x n) : Keeps u (bar2ReadAt x n s) := by
  unfold bar2ReadAt
  dsimp only
  split
  · exact keeps_fnSend (keeps_ite (keeps_countUr h) (keeps_countCa (keeps_bar2Refuse h _ _ _))) _ _
  · exact keeps_fnSend (keeps_regBytes h _ _ _) _ _
  · exact by
      split
      · exact keeps_fnSend (keeps_tgtRead h _ _ _) _ _
      · exact keeps_aerAdvisory (keeps_fnSend (keeps_takeFree (keeps_tgtRead h _ _ _)) _ _)

theorem keeps_execBar2Read (h : Keeps u s) (x n) : KeepsRes u (execBar2Read x n s) := by
  unfold execBar2Read
  split
  · exact keeps_next (keeps_ite h (keeps_bar0Read (keeps_hostReq h _ _) _ _ _))
  · exact keeps_next (keeps_ite h (keeps_bar2ReadAt (keeps_hostReq h _ _) _ _))

theorem keeps_execAttRegister (h : Keeps u s) (w) : KeepsRes u (execAttRegister w s) := by
  unfold execAttRegister
  exact keeps_runCmd h _ _ _
    (fun _ _ h1 =>
       keeps_ite (keeps_complete h1 _ _ _ _)
         (keeps_ite (keeps_complete h1 _ _ _ _)
            (keeps_complete
               (keeps_pupd
                  (keeps_kvAll
                     (keeps_kvAll
                        (keeps_kvAll (keeps_foldl (fun _ _ h2 => (keeps_csWriteBytes (keeps_csZeroBlks h2 _ _ _) _ _ _)) h1) _ _
                           _) _ _ _) _ _ _) _ _) _ _ _ _)))

theorem keeps_strmOpen (h : Keeps u s) (k i) : Keeps u (strmOpen k i s) := by
  unfold strmOpen
  dsimp only
  exact keeps_ite (keeps_grantStream (keeps_setStrmIdx (keeps_strmWord h _ _ _) _ _ _) _ _ _)
    (keeps_setStrmIdx (keeps_strmWord h _ _ _) _ _ _)

theorem keeps_writeStrmRing (h : Keeps u s) (k i w) : Keeps u (writeStrmRing k i w s) := by
  unfold writeStrmRing
  exact keeps_ite h
    (keeps_ite (keeps_strmOpen (keeps_ite (keeps_cluUpd (keeps_cluSet h _ _ _) _ _ _) (keeps_cluSet h _ _ _)) _ _)
       (keeps_ite (keeps_cluUpd (keeps_cluSet h _ _ _) _ _ _) (keeps_cluSet h _ _ _)))

theorem keeps_writeClu (h : Keeps u s) (k o w) : Keeps u (writeClu k o w s) := by
  unfold writeClu
  exact keeps_ite (keeps_writeCoreOt h _ _)
    (keeps_ite (keeps_writeStrmRing h _ _ _) (keeps_debugWrite (keeps_plainWrite h _ _) _ _))

theorem keeps_writeVf (h : Keeps u s) (p o w) : Keeps u (writeVf p o w s) := by
  unfold writeVf
  exact keeps_ite (keeps_writeWindow h _ _ _)
    (keeps_ite (keeps_ite (keeps_resetWindow h _) h) (keeps_ite (keeps_writeMsix h _ _ _ _) (keeps_plainWrite h _ _)))

theorem keeps_spWriteFrom : ∀ {s}, Keeps u s → ∀ c m a a3 a4, Keeps u (spWriteFrom c m a a3 a4 s)
  | _, h, _, _, 0, _, _ => by
    rw [spWriteFrom]
    exact h
  | _, h, _, _, (_ + 1), _, [] => by
    rw [spWriteFrom]
    exact h
    exact nofun
  | _, h, _, _, (n + 1), _, (_ :: _) => by
    rw [spWriteFrom]
    exact keeps_spWriteFrom
      (keeps_ite (keeps_spWrite h _ _ _) (keeps_ite (keeps_spNarrowNow h _ _ _ _) (keeps_spNarrow h _ _ _ _))) _ _ _ _ _
    exact nofun

theorem keeps_spWriteBytes (h : Keeps u s) (c m off v) : Keeps u (spWriteBytes c m off v s) := by
  unfold spWriteBytes
  exact keeps_spWriteFrom h _ _ _ _ _

theorem keeps_mvWrite (h : Keeps u s) (c ch d a v) : Keeps u (mvWrite c ch d a v s).2 := by
  unfold mvWrite
  dsimp only
  exact keeps_ite_snd (keeps_spWriteBytes h _ _ _ _)
    (keeps_ite_snd (keeps_t1Write h _ _ _)
       (keeps_ite_snd (keeps_ite_snd (keeps_mvRefuse h _ _ _ _) (keeps_csWriteBytes (keeps_csCount h _ _ _) _ _ _))
          (keeps_ite_snd (by split; exact (keeps_mvRefuse h _ _ _ _); exact (keeps_with h))
             (by split; exact (keeps_mvRefuse h _ _ _ _); exact (keeps_tgtWrite h _ _ _)))))

theorem keeps_swapFinish (h : Keeps u s) (p) : Keeps u (swapFinish p s) := by
  unfold swapFinish
  dsimp only
  split
  · exact by
      split
      · exact keeps_complete
          (keeps_pupd
             (keeps_ite
                (keeps_engRun (by
                     split
                     · exact keeps_engRun (keeps_foldl (fun _ _ h1 => (keeps_jobUndo h1 _ _)) h) (keeps_descAll _ _ _)
                     · exact keeps_foldl (fun _ _ h2 => (keeps_jobUndo h2 _ _)) h)
                   (keepsEng_bind (keeps_editCtx _) fun _ =>
                      keepsEng_bind (keeps_needSeq _ _ _) fun _ =>
                        keepsEng_bind (keeps_losePage _ _ _ _ _) fun _ => keeps_autoCommit _)) (by
                  split
                  · exact keeps_engRun (keeps_foldl (fun _ _ h3 => (keeps_jobUndo h3 _ _)) h) (keeps_descAll _ _ _)
                  · exact keeps_foldl (fun _ _ h4 => (keeps_jobUndo h4 _ _)) h)) _ _) _ _ _ _
      · exact keeps_ite (keeps_complete (keeps_pupd (keeps_engRun h (keeps_swapApply _ _)) _ _) _ _ _ _) h
  · exact h

theorem keeps_applyDrop (h : Keeps u s) (p d x) : Keeps u (applyDrop p d x s) := by
  unfold applyDrop
  dsimp only
  split
  · exact by
      split
      · exact h
      · rename_i e1
        exact by
          split
          · exact (keeps_dAdd _ _ _) _ _ _ h e1
          · exact keeps_ite
              (keeps_refError
                 (keeps_with (by
                      split
                      · rename_i e2
                        exact (keeps_dAdd _ _ _) _ _ _ ((keeps_dAdd _ _ _) _ _ _ h e1) e2
                      · exact (keeps_dAdd _ _ _) _ _ _ h e1)) _ _ _)
              (keeps_ite (keeps_queueZero ((keeps_dAdd _ _ _) _ _ _ h e1) _ _ _ _) ((keeps_dAdd _ _ _) _ _ _ h e1))
  · exact keeps_freeT2 h _ _ _
  · exact keeps_freeHost h _ _ _ _
  · exact h

theorem keeps_switchGen (h : Keeps u s) (p) : Keeps u (switchGen p s) := by
  unfold switchGen
  split
  · exact h
  · exact by
      split
      · exact keeps_complete
          (keeps_kvAll
             (keeps_pupd
                (keeps_engRun
                   (keeps_engRun
                      (keeps_foldl (fun _ _ h1 => (keeps_applyDrop h1 _ _ _))
                         (keeps_engRun (keeps_engRun h (keeps_engEach (fun _ => (keeps_dWr _ _ _ _)) _))
                            (keeps_engEach (fun _ => (keeps_freeBlk _ _ _)) _)))
                      (keeps_engEach
                         (fun _ => (keeps_engEach (fun _ => (keepsEng_bind (keeps_dRd _ _ _) fun _ => (keeps_dWr _ _ _ _))) _))
                         _)) (keeps_engEach (fun _ => (keeps_dWr _ _ _ _)) _)) _ _) _ _ _) _ _ _ _
      · exact keeps_kvAll
          (keeps_pupd
             (keeps_engRun
                (keeps_engRun
                   (keeps_foldl (fun _ _ h2 => (keeps_applyDrop h2 _ _ _))
                      (keeps_engRun (keeps_engRun h (keeps_engEach (fun _ => (keeps_dWr _ _ _ _)) _))
                         (keeps_engEach (fun _ => (keeps_freeBlk _ _ _)) _)))
                   (keeps_engEach
                      (fun _ => (keeps_engEach (fun _ => (keepsEng_bind (keeps_dRd _ _ _) fun _ => (keeps_dWr _ _ _ _))) _)) _))
                (keeps_engEach (fun _ => (keeps_dWr _ _ _ _)) _)) _ _) _ _ _

theorem keeps_execSetprio (h : Keeps u s) (w stuck) : KeepsRes u (execSetprio w stuck s) := by
  unfold execSetprio
  exact keeps_editCmd h _ _ _ _ (fun _ _ => (keeps_edSetprio _ _))

theorem keeps_t2Serve (h : Keeps u s) (r err) : Keeps u (t2Serve r err s) := by
  unfold t2Serve
  dsimp only
  split
  · exact keeps_ite (keeps_with (keeps_ite (keeps_t2Corrected h _ _) h))
      (keeps_ite
         (keeps_txUpd
            (keeps_with
               (keeps_ite (keeps_crossErr (keeps_ite (keeps_t2Corrected h _ _) h) _ _ _ _)
                  (keeps_t2Poisoned (keeps_ite (keeps_t2Corrected h _ _) h) _ _))) _ _)
         (keeps_t2Write (keeps_ite (keeps_t2Corrected h _ _) h) _ _ _))
  · exact keeps_ite (keeps_txUpd (keeps_t2Read (keeps_ite (keeps_t2Corrected h _ _) h) _ _ _) _ _)
      (keeps_ite
         (keeps_txUpd
            (keeps_ite (keeps_crossErr (keeps_t2Read (keeps_ite (keeps_t2Corrected h _ _) h) _ _ _) _ _ _ _)
               (keeps_t2Poisoned (keeps_t2Read (keeps_ite (keeps_t2Corrected h _ _) h) _ _ _) _ _)) _ _)
         (keeps_ite (keeps_txUpd (keeps_t2Poisoned (keeps_t2Read (keeps_ite (keeps_t2Corrected h _ _) h) _ _ _) _ _) _ _)
            (keeps_txUpd (keeps_t2Read (keeps_ite (keeps_t2Corrected h _ _) h) _ _ _) _ _)))

theorem keeps_execT2Access (h : Keeps u s) (pair busy err) : KeepsRes u (execT2Access pair busy err s) := by
  unfold execT2Access
  exact keepsRes_ite (keeps_next h) (by
      split
      · exact keeps_next (keeps_ite h (keeps_pairSet h _ _))
      · exact keeps_next
          (keeps_t2Close (keeps_t2Serve (keeps_ite (keeps_pairSet h _ _) (keeps_tallyHub (keeps_pairSet h _ _) _ _ _ _)) _ _) _))

theorem keeps_emWrite (h : Keeps u s) (col w0 w1 busy rs) : Keeps u (emWrite col w0 w1 busy rs s) := by
  unfold emWrite
  exact keeps_ite (keeps_spWriteBytes h _ _ _ _)
    (keeps_ite (keeps_csBusies (keeps_csWriteBytes (keeps_tallyClu h _ _ _ _) _ _ _) _ _ _ _) h)

theorem keeps_glzSealPut (h : Keeps u s) (p g img) : Keeps u (glzSealPut p g img s) := by
  unfold glzSealPut
  dsimp only
  split
  · exact h
  · exact keeps_tallyHub (keeps_hostPut (keeps_hostPut (keeps_pset h _ _) _ _ _) _ _ _) _ _ _ _

theorem keeps_moveHost {u : State} (p seq lh blk e imgs) : KeepsEng u (moveHost p seq lh blk e imgs) := by
  unfold moveHost
  exact keepsEng_get fun _ h1 =>
    keepsEng_ite (keepsEng_pure _) (by
        split
        · exact keepsEng_pure _
        · exact keepsEng_bind (keepsEng_modify (fun _ h2 => (keeps_pupd h2 _ _))) fun _ =>
            keepsEng_bind (keepsEng_modify (fun _ h3 => (keeps_foldl (fun _ _ h4 => (keeps_glzSealPut h4 _ _ _)) h3))) fun _ =>
              keepsEng_bind (keepsEng_modify (fun _ h5 => (keeps_tallyHub (keeps_glzCount h5 _ _ _) _ _ _ _))) fun _ =>
                keepsEng_pure _)

theorem keeps_noteArrive (h : Keeps u s) (m) : Keeps u (noteArrive m s) := by
  unfold noteArrive
  split
  · exact h
  · exact keeps_ite (keeps_strmFail h _ _ _) (keeps_with h)

theorem keeps_portsGone (h : Keeps u s) (a0) : Keeps u (portsGone a0 s) := by
  unfold portsGone
  exact keeps_iter (fun _ _ h1 => (keeps_with (keeps_rset (keeps_portDown h1 _ _) _ _))) h

theorem keeps_loseHub (h : Keeps u s) (a0 kept) : Keeps u (loseHub a0 kept s) := by
  unfold loseHub
  exact keeps_ite h
    (keeps_logErr
       (keeps_publishHubs
          (keeps_rupd
             (keeps_with
                (keeps_with
                   (keeps_rupd
                      (keeps_portsGone (keeps_ite (keeps_hset (keeps_rupd h _ _) _ _) (keeps_hset (keeps_rupd h _ _) _ _)) _) _
                      _))) _ _)) _)

theorem keeps_execMpWatchdog (h : Keeps u s) (a0) : KeepsRes u (execMpWatchdog a0 s) := by
  unfold execMpWatchdog
  exact keeps_next (keeps_ite h (keeps_ite (keeps_enterFatal h) (keeps_loseHub h _ _)))

theorem keeps_execNbuCommandStart (h : Keeps u s) (col) : KeepsRes u (execNbuCommandStart col s) := by
  unfold execNbuCommandStart
  dsimp only
  split
  · exact keeps_next h
  · exact by
      split
      · exact keeps_next h
      · exact keepsRes_ite (keeps_next h)
          (keepsRes_ite (keeps_next (keeps_holdTrap (keeps_nbCmd h _ _ _) _ _))
             (keepsRes_ite (keeps_next h) (keeps_next (keeps_tkTake (keeps_nbCmd h _ _ _) _ _))))

theorem keeps_dmaBlocks : ∀ {s}, Keeps u s → ∀ b a off a3, Keeps u (dmaBlocks b a off a3 s).2.2
  | _, h, _, _, _, 0 => by
    rw [dmaBlocks]
    exact h
  | _, h, _, _, _, (n + 1) => by
    rw [dmaBlocks]
    split
    · rename_i e1
      exact Keeps_snd (keeps_readBlock h _ _ _) e1
    · rename_i e2
      exact Keeps_snd (keeps_readBlock h _ _ _) e2
    · rename_i e3
      exact keeps_dmaBlocks (Keeps_snd (keeps_readBlock h _ _ _) e3) _ _ _ _

theorem keeps_dmaOutCmd (h : Keeps u s) (k) : Keeps u (dmaOutCmd k s) := by
  unfold dmaOutCmd
  dsimp only
  exact keeps_ite (keeps_complete h _ _ _ _) (by
      split
      · exact keeps_complete (keeps_hostPut (keeps_dmaBlocks h _ _ _ _) _ _ _) _ _ _ _
      · exact keeps_complete (keeps_hostPut (keeps_dmaBlocks h _ _ _ _) _ _ _) _ _ _ _)

theorem keeps_execDmaOut (h : Keeps u s) (w) : KeepsRes u (execDmaOut w s) := by
  unfold execDmaOut
  exact keeps_runCmd h _ _ _ (fun _ _ h1 => (keeps_dmaOutCmd h1 _))

theorem keeps_readRow (h : Keeps u s) (col row) : Keeps u (readRow col row s).2 := by
  unfold readRow
  dsimp only
  exact keeps_ite_snd (keeps_rowMeet (keeps_t1ReadBlks h _ _ _) _ _ _ _) (keeps_rowMeet (keeps_t1ReadBlks h _ _ _) _ _ _ _)

theorem keeps_scoreRows : ∀ {s}, Keeps u s → ∀ col frame a, Keeps u (scoreRows col frame a s).2
  | _, h, _, _, [] => by
    rw [scoreRows]
    exact h
  | _, h, _, _, (b :: bs) => by
    rw [scoreRows]
    exact keeps_scoreRows (keeps_ite (keeps_tallyCore h _ _ _ _) (keeps_readRow h _ _)) _ _ _

theorem keeps_pktRead (h : Keeps u s) (who a n) : Keeps u (pktRead who a n s).2 := by
  unfold pktRead
  dsimp only
  split
  · exact keeps_hostRefused h _ _
  · exact by
      split
      · rename_i e1
        exact Keeps_snd (keeps_tgtRead h _ _ _) e1
      · rename_i e2
        exact Keeps_snd (keeps_tgtRead h _ _ _) e2

theorem keeps_d3Enter (h : Keeps u s) (fn) : Keeps u (d3Enter fn s) := by
  unfold d3Enter
  exact keeps_ite (keeps_with h) (keeps_tdiError (keeps_with h) _)

theorem keeps_execD3hotEntry (h : Keeps u s) (fn) : KeepsRes u (execD3hotEntry fn s) := by
  unfold execD3hotEntry
  exact keeps_next (keeps_ite h (keeps_d3Enter h _))

theorem keeps_execEmit (h : Keeps u s) (col) : KeepsRes u (execEmit col s) := by
  unfold execEmit
  dsimp only
  split
  · exact keeps_next h
  · exact keepsRes_ite (keeps_next (keeps_nbDone (keeps_emWrite (keeps_ite h (keeps_chainSendR h _ _)) _ _ _ _ _) _ _ _))
      (keepsRes_ite (keeps_next (keeps_nbDone (keeps_emWrite (keeps_ite h (keeps_chainSendR h _ _)) _ _ _ _ _) _ _ _)) (by
           split
           · exact keeps_next h
           · exact keeps_next
               (keeps_nbDone
                  (keeps_emWrite (keeps_ite (keeps_nbupd h _ _) (keeps_chainSendR (keeps_nbupd h _ _) _ _)) _ _ _ _ _) _ _ _)))

theorem keeps_reloadRange (h : Keeps u s) (p c off wt) : Keeps u (reloadRange p c off wt s) := by
  unfold reloadRange
  split
  · exact keeps_ite h
      (keeps_ite (keeps_discardModel h _) (by
           split
           · rename_i e1
             exact keeps_t1Write (Keeps_snd (keeps_t2Load h _ _ _) e1) _ _ _
           · rename_i e2
             exact keeps_discardModel (Keeps_snd (keeps_t2Load h _ _ _) e2) _))
  · exact h

theorem keeps_reloadStep (h : Keeps u s) : Keeps u (reloadStep s) := by
  unfold reloadStep
  dsimp only
  split
  · exact h
  · exact by
      split
      · exact keeps_with h
      · exact by split; exact (keeps_with h); exact (keeps_foldl (fun _ _ h1 => (keeps_reloadRange h1 _ _ _ _)) (keeps_with h))

theorem keeps_rowsBytes (h : Keeps u s) (id c off n) : Keeps u (rowsBytes id c off n s).2 := by
  unfold rowsBytes
  dsimp only
  exact keeps_ite_snd (keeps_rowBlocks h _ _ _ _ _) (keeps_rowBlocks h _ _ _ _ _)

theorem keeps_performNow (h : Keeps u s) (t) : Keeps u (performNow t s) := by
  unfold performNow
  exact keeps_ite (keeps_performPoison h _) (by
      split
      · exact by
          split
          · exact keeps_answer (keeps_t1Atomic h _ _ _ _) _ _ _
          · exact keeps_answer (keeps_csAtomic h _ _ _ _ _) _ _ _
          · exact h
      · exact keeps_ite (keeps_answer (keeps_tgtWrite h _ _ _) _ _ _)
          (keeps_answer (by split; exact (keeps_rowsBytes h _ _ _ _); exact (keeps_tgtRead h _ _ _)) _ _ _))

theorem keeps_execStreamNotice (h : Keeps u s) (k i) : KeepsRes u (execStreamNotice k i s) := by
  unfold execStreamNotice
  dsimp only
  exact keepsRes_ite (keeps_next h)
    (keepsRes_ite
       (keepsRes_ite (keeps_next h) (keeps_next (keeps_grantStream (keeps_setStrmIdx (keeps_strmWord h _ _ _) _ _ _) _ _ _)))
       (keeps_next (keeps_with h)))

theorem keeps_scoreFrame (h : Keeps u s) (col bank frame tag n qs) : Keeps u (scoreFrame col bank frame tag n qs s) := by
  unfold scoreFrame
  exact keeps_ite h (keeps_nbupd (keeps_rupd (keeps_tallyCore (keeps_nbupd (keeps_scoreRows h _ _ _) _ _) _ _ _ _) _ _) _ _)

theorem keeps_pktTable : ∀ {s}, Keeps u s → ∀ who a len a3, Keeps u (pktTable who a len a3 s).2
  | _, h, _, _, _, 0 => by
    rw [pktTable]
    exact h
  | _, h, _, _, _, (n + 1) => by
    rw [pktTable]
    split
    · rename_i e1
      exact Keeps_snd (keeps_pktRead h _ _ _) e1
    · rename_i e2
      exact by
        split
        · rename_i e3
          exact Keeps_snd (keeps_pktTable (Keeps_snd (keeps_pktRead h _ _ _) e2) _ _ _ _) e3
        · rename_i e4
          exact Keeps_snd (keeps_pktTable (Keeps_snd (keeps_pktRead h _ _ _) e2) _ _ _ _) e4

theorem keeps_execRemoteWrite (h : Keeps u s) (x) : KeepsRes u (execRemoteWrite x s) := by
  unfold execRemoteWrite
  dsimp only
  split
  · exact keeps_next h
  · exact by
      split
      · exact keeps_next h
      · exact keepsRes_ite (keeps_next h)
          (keepsRes_ite
             (keeps_next (keeps_ite (keeps_remotePoison (keeps_with h) _) (keeps_spWriteBytes (keeps_with h) _ _ _ _)))
             (keeps_next (keeps_with (keeps_with h))))

theorem keeps_itemWrite (h : Keeps u s) (fn w it) : Keeps u (itemWrite fn w it s) := by
  unfold itemWrite
  split
  · exact keeps_iter (fun _ _ h1 => (keeps_flushVector h1 _ _)) (keeps_cfgSet h _ _ _)
  · exact keeps_ite (keeps_ite (keeps_allReset h) (keeps_vfReset h _)) (keeps_cfgSet h _ _ _)
  · exact keeps_cfgSet h _ _ _
  · exact keeps_ite (keeps_d3Enter h _) (keeps_ite (keeps_d0Enter h _) h)
  · exact keeps_cfgSet h _ _ _
  · exact keeps_cfgSet h _ _ _
  · exact keeps_cfgSet h _ _ _
  · exact keeps_cfgSet h _ _ _
  · exact keeps_cfgSet h _ _ _
  · exact h

theorem keeps_cfgWrite (h : Keeps u s) (fn reg w) : Keeps u (cfgWrite fn reg w s) := by
  unfold cfgWrite
  exact keeps_ite (keeps_cfgSet h _ _ _) (keeps_ite (keeps_cfgSet h _ _ _) (keeps_ite h (keeps_itemWrite h _ _ _)))

theorem keeps_execConfigRequest (h : Keeps u s) (fn reg) : KeepsRes u (execConfigRequest fn reg s) := by
  unfold execConfigRequest
  exact keepsRes_ite (keeps_next h)
    (keepsRes_ite (keeps_next (keeps_fnSend (keeps_ite (keeps_takeFree h) h) _ _)) (by
         split
         · exact keeps_next (keeps_fnSend (keeps_ite (keeps_takeFree h) h) _ _)
         · exact keeps_next (keeps_cfgWrite (keeps_fnSend (keeps_ite (keeps_takeFree h) h) _ _) _ _ _)))

theorem keeps_forkPart {u : State} (p src dst pos x lh) : KeepsEng u (forkPart p src dst pos x lh) := by
  unfold forkPart
  exact keepsEng_bind (keeps_getBld _ _ _ _ _) fun _ =>
    keepsEng_ite (keepsEng_bind (keeps_copyEntry _ _ _ _) fun _ => (keeps_setBld _ _ _ _ _ _))
      (keepsEng_ite (keeps_setBld _ _ _ _ _ _) (keepsEng_pure _))

theorem keeps_edFork {u : State} (p b) : KeepsEng u (edFork p b) := by
  unfold edFork
  exact keepsEng_bind (keeps_editCtx _) fun _ =>
    keepsEng_bind (keeps_needSeq _ _ _) fun _ =>
      keepsEng_ite
        (keepsEng_bind (keepsEng_fail _) fun _ =>
           keepsEng_bind (keeps_needFree _ _ _) fun _ =>
             keepsEng_ite
               (keepsEng_bind (keepsEng_fail _) fun _ =>
                  keepsEng_get fun _ h1 =>
                    keepsEng_bind (keeps_newDesc _ _ _ _) fun _ =>
                      keeps_engEach
                        (fun _ =>
                           keepsEng_bind (keeps_engEach (fun _ => (keeps_forkFull _ _ _ _ _ _)) _) fun _ =>
                             keepsEng_ite (keeps_forkPart _ _ _ _ _ _) (keepsEng_pure _)) _)
               (keepsEng_get fun _ h2 =>
                  keepsEng_bind (keeps_newDesc _ _ _ _) fun _ =>
                    keeps_engEach
                      (fun _ =>
                         keepsEng_bind (keeps_engEach (fun _ => (keeps_forkFull _ _ _ _ _ _)) _) fun _ =>
                           keepsEng_ite (keeps_forkPart _ _ _ _ _ _) (keepsEng_pure _)) _))
        (keepsEng_bind (keeps_needFree _ _ _) fun _ =>
           keepsEng_ite
             (keepsEng_bind (keepsEng_fail _) fun _ =>
                keepsEng_get fun _ h3 =>
                  keepsEng_bind (keeps_newDesc _ _ _ _) fun _ =>
                    keeps_engEach
                      (fun _ =>
                         keepsEng_bind (keeps_engEach (fun _ => (keeps_forkFull _ _ _ _ _ _)) _) fun _ =>
                           keepsEng_ite (keeps_forkPart _ _ _ _ _ _) (keepsEng_pure _)) _)
             (keepsEng_get fun _ h4 =>
                keepsEng_bind (keeps_newDesc _ _ _ _) fun _ =>
                  keeps_engEach
                    (fun _ =>
                       keepsEng_bind (keeps_engEach (fun _ => (keeps_forkFull _ _ _ _ _ _)) _) fun _ =>
                         keepsEng_ite (keeps_forkPart _ _ _ _ _ _) (keepsEng_pure _)) _))

theorem keeps_tamper (h : Keeps u s) (src) : Keeps u (tamper src s) := by
  unfold tamper
  exact keeps_foldl (fun _ _ h1 => (keeps_faultPart h1 _))
    (keeps_foldl (fun _ _ h2 => (keeps_tdiError h2 _))
       (keeps_wipeSaggar (keeps_ite (keeps_rupd (keeps_with h) _ _) (keeps_with h))))

theorem keeps_execFork (h : Keeps u s) (w stuck) : KeepsRes u (execFork w stuck s) := by
  unfold execFork
  exact keeps_editCmd h _ _ _ _ (fun _ _ => (keeps_edFork _ _))

theorem keeps_snapDone (h : Keeps u s) (r) : Keeps u (snapDone r s) := by
  unfold snapDone
  dsimp only
  split
  · exact keeps_snapBegin
      (keeps_ite
         (keeps_telEmit (by
              split
              · exact keeps_complete
                  (keeps_snapShow (keeps_with (keeps_ite h (keeps_rupd (keeps_rset (keeps_rset (keeps_with h) _ _) _ _) _ _))))
                  _ _ _ _
              · exact keeps_snapShow
                  (keeps_with (keeps_ite h (keeps_rupd (keeps_rset (keeps_rset (keeps_with h) _ _) _ _) _ _)))) _) (by
           split
           · exact keeps_complete
               (keeps_snapShow (keeps_with (keeps_ite h (keeps_rupd (keeps_rset (keeps_rset (keeps_with h) _ _) _ _) _ _)))) _ _
               _ _
           · exact keeps_snapShow (keeps_with (keeps_ite h (keeps_rupd (keeps_rset (keeps_rset (keeps_with h) _ _) _ _) _ _)))))
      _
  · exact keeps_ite
      (keeps_telEmit (by
           split
           · exact keeps_complete
               (keeps_snapShow (keeps_with (keeps_ite h (keeps_rupd (keeps_rset (keeps_rset (keeps_with h) _ _) _ _) _ _)))) _ _
               _ _
           · exact keeps_snapShow (keeps_with (keeps_ite h (keeps_rupd (keeps_rset (keeps_rset (keeps_with h) _ _) _ _) _ _))))
         _) (by
        split
        · exact keeps_complete
            (keeps_snapShow (keeps_with (keeps_ite h (keeps_rupd (keeps_rset (keeps_rset (keeps_with h) _ _) _ _) _ _)))) _ _ _
            _
        · exact keeps_snapShow (keeps_with (keeps_ite h (keeps_rupd (keeps_rset (keeps_rset (keeps_with h) _ _) _ _) _ _))))

theorem keeps_slotWrite (h : Keeps u s) (k off d bad) : Keeps u (slotWrite k off d bad s) := by
  unfold slotWrite
  exact keeps_iter (fun _ _ h1 => (keeps_ite (keeps_csPoison h1 _ _) (keeps_csWriteBytes h1 _ _ _))) h

theorem keeps_slotDeliver (h : Keeps u s) (k i head d bad) : Keeps u (slotDeliver k i head d bad s) := by
  unfold slotDeliver
  dsimp only
  exact keeps_ite (keeps_strmWord h _ _ _)
    (keeps_ite
       (keeps_strmCount (keeps_strmPut (keeps_slotWrite (keeps_csWriteBytes (keeps_strmWord h _ _ _) _ _ _) _ _ _ _) _ _ _ _) _
          _) (by
         split
         · exact keeps_tkAdd
             (keeps_strmCount
                (keeps_strmPut (keeps_slotWrite (keeps_csWriteBytes (keeps_strmWord h _ _ _) _ _ _) _ _ _ _) _ _ _ _) _ _) _ _ _
             _ _ _
         · exact keeps_strmCount
             (keeps_strmPut (keeps_slotWrite (keeps_csWriteBytes (keeps_strmWord h _ _ _) _ _ _) _ _ _ _) _ _ _ _) _ _))

theorem keeps_appendTable {u : State} (p x a tab faults kk k) : KeepsEng u (appendTable p x a tab faults kk k) := by
  unfold appendTable
  exact keeps_engEach
    (fun _ =>
       keeps_engEach
         (fun _ =>
            keepsEng_ite (by
                split
                · exact keepsEng_bind (keepsEng_pure _) fun _ => keepsEng_modify (fun _ h1 => (keeps_csWriteBytes h1 _ _ _))
                · exact keepsEng_bind (keeps_getCur _ _ _ _ _) fun _ =>
                    keepsEng_get fun _ h2 =>
                      keepsEng_bind (keepsEng_pure _) fun _ => keepsEng_modify (fun _ h3 => (keeps_csWriteBytes h3 _ _ _)))
              (keepsEng_bind (keepsEng_pure _) fun _ => (keepsEng_modify (fun _ h4 => (keeps_csWriteBytes h4 _ _ _))))) _) _

theorem keeps_stepPrepare {u : State} (p tab) : KeepsEng u (stepPrepare p tab) := by
  unfold stepPrepare
  dsimp only
  exact keepsEng_get fun _ h1 =>
    by
      split
      · exact keepsEng_fail _
      · exact keepsEng_bind (keeps_curCtx _) fun _ =>
          keepsEng_ite
            (keepsEng_bind (keepsEng_fail _) fun _ =>
               keepsEng_bind (keeps_engMap (fun _ => (keeps_launchFault _ _ _ _)) _) fun _ =>
                 keepsEng_bind (keeps_engEach (fun _ => (keeps_launchMark _ _ _ _)) _) fun _ =>
                   keepsEng_bind (keeps_engEach (fun _ => (keeps_appendTable _ _ _ _ _ _ _)) _) fun _ =>
                     keepsEng_bind (keepsEng_modify (fun _ h2 => (keeps_foldl (fun _ _ h3 => (keeps_cluUpd h3 _ _ _)) h2)))
                       fun _ =>
                       keepsEng_bind (keeps_walkAll _ _ _ _ _) fun _ => keepsEng_pure _)
            (keepsEng_bind (keeps_engMap (fun _ => (keeps_launchFault _ _ _ _)) _) fun _ =>
               keepsEng_bind (keeps_engEach (fun _ => (keeps_launchMark _ _ _ _)) _) fun _ =>
                 keepsEng_bind (keeps_engEach (fun _ => (keeps_appendTable _ _ _ _ _ _ _)) _) fun _ =>
                   keepsEng_bind (keepsEng_modify (fun _ h4 => (keeps_foldl (fun _ _ h5 => (keeps_cluUpd h5 _ _ _)) h4)))
                     fun _ =>
                     keepsEng_bind (keeps_walkAll _ _ _ _ _) fun _ => keepsEng_pure _)

theorem keeps_scoreItem (h : Keeps u s) (col w0 it) : Keeps u (scoreItem col w0 it s) := by
  unfold scoreItem
  exact keeps_ite (keeps_nbupd (keeps_ite (keeps_tallyCore h _ _ _ _) (keeps_nbupd (keeps_tallyCore h _ _ _ _) _ _)) _ _)
    (keeps_ite (keeps_nbupd (keeps_ite (keeps_tallyCore h _ _ _ _) (keeps_nbupd (keeps_tallyCore h _ _ _ _) _ _)) _ _)
       (keeps_ite
          (keeps_rupd (keeps_nbupd (keeps_ite (keeps_tallyCore h _ _ _ _) (keeps_nbupd (keeps_tallyCore h _ _ _ _) _ _)) _ _) _
             _)
          (keeps_ite
             (keeps_ite
                (keeps_scoreFrame
                   (keeps_nbupd
                      (keeps_ite
                         (keeps_rupd
                            (keeps_nbupd (keeps_ite (keeps_tallyCore h _ _ _ _) (keeps_nbupd (keeps_tallyCore h _ _ _ _) _ _)) _
                               _) _ _) (keeps_ite (keeps_tallyCore h _ _ _ _) (keeps_nbupd (keeps_tallyCore h _ _ _ _) _ _))) _
                      _) _ _ _ _ _ _)
                (keeps_scoreFrame
                   (keeps_ite
                      (keeps_nbupd
                         (keeps_scoreFrame
                            (keeps_nbupd
                               (keeps_ite
                                  (keeps_rupd
                                     (keeps_nbupd
                                        (keeps_ite (keeps_tallyCore h _ _ _ _) (keeps_nbupd (keeps_tallyCore h _ _ _ _) _ _)) _
                                        _) _ _)
                                  (keeps_ite (keeps_tallyCore h _ _ _ _) (keeps_nbupd (keeps_tallyCore h _ _ _ _) _ _))) _ _) _
                            _ _ _ _ _) _ _)
                      (keeps_scoreFrame
                         (keeps_nbupd
                            (keeps_ite
                               (keeps_rupd
                                  (keeps_nbupd
                                     (keeps_ite (keeps_tallyCore h _ _ _ _) (keeps_nbupd (keeps_tallyCore h _ _ _ _) _ _)) _ _)
                                  _ _) (keeps_ite (keeps_tallyCore h _ _ _ _) (keeps_nbupd (keeps_tallyCore h _ _ _ _) _ _))) _
                            _) _ _ _ _ _ _)) _ _ _ _ _ _))
             (keeps_scoreFrame
                (keeps_nbupd
                   (keeps_ite
                      (keeps_rupd
                         (keeps_nbupd (keeps_ite (keeps_tallyCore h _ _ _ _) (keeps_nbupd (keeps_tallyCore h _ _ _ _) _ _)) _ _)
                         _ _) (keeps_ite (keeps_tallyCore h _ _ _ _) (keeps_nbupd (keeps_tallyCore h _ _ _ _) _ _))) _ _) _ _ _
                _ _ _))))

theorem keeps_scoreItems : ∀ {s}, Keeps u s → ∀ col w0 a a3, Keeps u (scoreItems col w0 a a3 s).2
  | _, h, _, _, 0, _ => by
    rw [scoreItems]
    exact h
  | _, h, _, _, (n + 1), _ => by
    rw [scoreItems]
    dsimp only
    split
    · exact keeps_ite (keeps_csCount (keeps_csRead h _ _) _ _ _) h
    · exact keeps_scoreItems (keeps_scoreItem (keeps_ite (keeps_csCount (keeps_csRead h _ _) _ _ _) h) _ _ _) _ _ _ _

theorem keeps_perform (h : Keeps u s) (t) : Keeps u (perform t s) := by
  unfold perform
  exact keeps_ite (keeps_dropRows (keeps_performNow h _) _) (keeps_performNow h _)

theorem keeps_putDeliver (h : Keeps u s) (m) : Keeps u (putDeliver m s) := by
  unfold putDeliver
  dsimp only
  exact keeps_ite
    (keeps_ite (keeps_refusePut (by split; exact (keeps_ite (keeps_agentRefuse h _ _ _) h); exact h) _ _ _ _)
       (by split; exact (keeps_slotDeliver h _ _ _ _ _); exact h)) (by
      split
      · exact keeps_ite (by split; exact (keeps_agentRefuse h _ _ _); exact (keeps_slotDeliver h _ _ _ _ _)) h
      · exact h)

theorem keeps_execPutDeliver (h : Keeps u s) (src) : KeepsRes u (execPutDeliver src s) := by
  unfold execPutDeliver
  split
  · exact keeps_next h
  · exact keepsRes_ite (keeps_next h) (keeps_next (keeps_putDeliver (keeps_freePlaces (keeps_with h) _ _) _))

theorem keeps_dirInit (h : Keeps u s) (n d ws kk k) : Keeps u (dirInit n d ws kk k s) := by
  unfold dirInit
  exact keeps_cluSet
    (keeps_cluSet
       (keeps_cluSet
          (keeps_cluSet
             (keeps_csWriteBytes (keeps_csWriteBytes (keeps_csWriteBytes (keeps_csZeroBlks h _ _ _) _ _ _) _ _ _) _ _ _) _ _ _)
          _ _ _) _ _ _) _ _ _

theorem keeps_stepRetire (h : Keeps u s) (p st outs) : Keeps u (stepRetire p st outs s) := by
  unfold stepRetire
  exact keeps_stepDone
    (keeps_tokenTable
       (keeps_with
          (keeps_engRun h
             (keepsEng_bind (keeps_curCtx _) fun _ =>
                keeps_engEach (fun _ => (keepsEng_ite (keeps_advanceSeq _ _ _) (keeps_restSeq _ _ _ _))) _))) _ _) _ _ _ _ _

theorem keeps_readHeaders : ∀ {s}, Keeps u s → ∀ a, Keeps u (readHeaders a s).2
  | _, h, [] => by
    rw [readHeaders]
    exact h
  | _, h, ((i, (c, off)) :: r) => by
    rw [readHeaders]
    exact keeps_ite_snd h (by
        split
        · rename_i e1
          exact Keeps_snd (keeps_t1ReadBytes h _ _ _) e1
        · rename_i e2
          exact keeps_ite_snd (Keeps_snd (keeps_t1ReadBytes h _ _ _) e2) (by
              split
              · rename_i e3
                exact Keeps_snd (keeps_readHeaders (Keeps_snd (keeps_t1ReadBytes h _ _ _) e2) _) e3
              · rename_i e4
                exact Keeps_snd (keeps_readHeaders (Keeps_snd (keeps_t1ReadBytes h _ _ _) e2) _) e4))

theorem keeps_loseDie (h : Keeps u s) (d) : Keeps u (loseDie d s) := by
  unfold loseDie
  exact keeps_ite (keeps_loseTower h _) (keeps_ite (keeps_loseH0 h) (keeps_loseHub h _ _))

theorem keeps_loseRoot (h : Keeps u s) (d) : Keeps u (loseRoot d s) := by
  unfold loseRoot
  exact keeps_foldl (fun _ _ h1 => (keeps_loseDie (keeps_rupd h1 _ _) _)) (keeps_with h)

theorem keeps_execMovDescriptorRetire (h : Keeps u s) (c ch) : KeepsRes u (execMovDescriptorRetire c ch s) := by
  unfold execMovDescriptorRetire
  dsimp only
  split
  · exact keeps_next h
  · exact keepsRes_ite (keeps_next h)
      (keeps_next (by
           split
           · exact keeps_ite (keeps_tkAdd (keeps_tallyCore (keeps_tkAdd (keeps_mvupd h _ _ _) _ _ _ _ _ _) _ _ _ _) _ _ _ _ _ _)
               (keeps_tallyCore (keeps_tkAdd (keeps_mvupd h _ _ _) _ _ _ _ _ _) _ _ _ _)
           · exact keeps_tallyCore (keeps_tkAdd (keeps_mvupd h _ _ _) _ _ _ _ _ _) _ _ _ _))

theorem keeps_execTamperEvent (h : Keeps u s) (src) : KeepsRes u (execTamperEvent src s) := by
  unfold execTamperEvent
  exact keeps_next (keeps_ite (keeps_tamper h _) h)

theorem keeps_execTamperZeroingDone (h : Keeps u s) : KeepsRes u (execTamperZeroingDone s) := by
  unfold execTamperZeroingDone
  refine keeps_next (keeps_ite h (keeps_mems (keeps_setSec (keeps_enterFatal h) fun x => { x with tampering := false }) ?_))
  exact fun ⟨h1, h2, h3, h4, _, _, _, h8, h9⟩ => ⟨h1, h2, h3, h4, rfl, rfl, rfl, h8, h9⟩

theorem keeps_targetAdmit (h : Keeps u s) (id full parity) : Keeps u (targetAdmit id full parity s) := by
  unfold targetAdmit
  dsimp only
  split
  · exact h
  · exact keeps_ite h
      (keeps_ite (keeps_toPairs (keeps_txUpd (keeps_ite (keeps_crossingError h _) h) _ _) _) (by
           split
           · exact keeps_tallyClu
               (keeps_cluUpd
                  (keeps_foldl (fun _ _ h1 => (keeps_txUpd h1 _ _))
                     (keeps_txUpd (keeps_setResv (keeps_ite (keeps_crossingError h _) h) _ _) _ _)) _ _ _) _ _ _ _
           · exact keeps_foldl (fun _ _ h2 => (keeps_txUpd h2 _ _))
               (keeps_txUpd (keeps_setResv (keeps_ite (keeps_crossingError h _) h) _ _) _ _)))

theorem keeps_execTargetAdmit (h : Keeps u s) (id full parity) : KeepsRes u (execTargetAdmit id full parity s) := by
  unfold execTargetAdmit
  exact keeps_next (keeps_targetAdmit h _ _ _)

theorem keeps_trainDone (h : Keeps u s) (p tx rx) : Keeps u (trainDone p tx rx s) := by
  unfold trainDone
  exact keeps_ite
    (keeps_grantAll (keeps_pump (keeps_replayAll (keeps_publishPort (keeps_rset (keeps_fportUpd h _ _) _ _) _) _) _) _ _)
    (keeps_portErr (keeps_portDown (keeps_rset (keeps_fportUpd h _ _) _ _) _ _) _ _ _)

theorem keeps_execHousekeepingRound (h : Keeps u s) (rd stuck) : KeepsRes u (execHousekeepingRound rd stuck s) := by
  unfold execHousekeepingRound
  exact keepsRes_ite (keeps_next h)
    (keeps_next
       (keeps_coarseCounters
          (keeps_roundCoolant
             (keeps_roundEngines
                (keeps_roundRegulators
                   (keeps_foldl (fun _ _ h1 => (keeps_coneStep h1 _))
                      (keeps_foldl (fun _ _ h2 => (keeps_roundHub (keeps_roundPackages h2 _ _) _))
                         (keeps_foldl
                            (fun _ _ h3 => (keeps_roundRefresh (keeps_iter (fun _ _ h4 => (keeps_roundLayer h4 _ _ _)) h3) _))
                            (keeps_foldl (fun _ _ h5 => (keeps_readChan h5 _ _ _)) h)))))) _)))

theorem keeps_rekeyStep (h : Keeps u s) (p) : Keeps u (rekeyStep p s) := by
  unfold rekeyStep
  dsimp only
  split
  · exact h
  · exact by
      split
      · exact h
      · exact keeps_ite h
          (keeps_ite (keeps_pupd h _ _) (by
               split
               · rename_i e1
                 exact keeps_rekeyLose (Keeps_snd (keeps_glzOpenPage h _ _ _ _) e1) _ _
               · rename_i e2
                 exact keeps_ite
                   (keeps_rekeyReads (keeps_pupd (keeps_glzSealPut (Keeps_snd (keeps_glzOpenPage h _ _ _ _) e2) _ _ _) _ _) _ _)
                   (keeps_rekeyEnd (keeps_glzSealPut (Keeps_snd (keeps_glzOpenPage h _ _ _ _) e2) _ _ _) _ _)))

theorem keeps_mvOpt {r : Option (List Byte) × State} (h : Keeps u r.2) : Keeps u (mvOpt r).2 := h

theorem keeps_mvRead (h : Keeps u s) (c kind a n) : Keeps u (mvRead c kind a n s).2 := by
  unfold mvRead
  refine keeps_ite_snd (keeps_mvOpt (keeps_spReadBytes h _ _ _ _)) (keeps_ite_snd (keeps_mvOpt (keeps_t1ReadBytes h _ _ _))
    (keeps_ite_snd (keeps_mvOpt (keeps_csReadBytes (keeps_csCount h _ _ _) _ _ _))
    (keeps_ite_snd (keeps_mvOpt (keeps_spReadBytes h _ _ _ _)) ?_)))
  dsimp only
  split
  · exact keeps_mvRefuse h _ _ _ _
  · exact keeps_mvOpt (keeps_tgtRead h _ _ _)

theorem keeps_clockLost (h : Keeps u s) (d c) : Keeps u (clockLost d c s) := by
  unfold clockLost
  exact keeps_ite (keeps_loseRoot (keeps_rupd h _ _) _) (keeps_loseDie (keeps_rupd h _ _) _)

theorem keeps_execClockStopped (h : Keeps u s) (d c) : KeepsRes u (execClockStopped d c s) := by
  unfold execClockStopped
  exact keepsRes_ite (keeps_next h)
    (by split; exact (keeps_next (keeps_clockLost (keeps_showClock h _ _ _) _ _)); exact (keeps_next h))

theorem keeps_execVfFlr (h : Keeps u s) (p) : KeepsRes u (execVfFlr p s) := by
  unfold execVfFlr
  exact keeps_next (keeps_ite h (keeps_vfReset h _))

theorem keeps_respReceive (h : Keeps u s) (t parity) : Keeps u (respReceive t parity s) := by
  unfold respReceive
  exact keeps_netPump (keeps_startTrains (keeps_with (keeps_ite (keeps_crossErr h _ _ _ _) h)))

theorem keeps_zeroBankRow (h : Keeps u s) (col row) : Keeps u (zeroBankRow col row s) := by
  unfold zeroBankRow
  refine keeps_unpin (keeps_ftSet (keeps_wcForget (keeps_mems h ?_) _ _) _ _ _) _ _
  exact fun ⟨h1, h2, h3, h4, h5, h6, h7, h8, h9⟩ => ⟨h1, h2, h3, h4, memZero_wf _ _ _ h5, memZero_wf _ _ _ h6, h7, h8, h9⟩

theorem keeps_contribute (h : Keeps u s) (src m) : ∀ t, contribute src m s = some t → Keeps u t := fun t e => by
  unfold contribute at e
  dsimp only at e
  split at e
  · rw [← Option.some.inj e]
    exact keeps_rupd h _ _
  · split at e
    · rw [← Option.some.inj e]
      exact keeps_ite (keeps_redDone (keeps_ite (keeps_rupd (keeps_with h) _ _) (keeps_with h)) _)
        (keeps_ite (keeps_rupd (keeps_with h) _ _) (keeps_with h))
    · split at e
      · cases e
      · rw [← Option.some.inj e]
        exact keeps_ite (keeps_redDone (keeps_publishCtxs (keeps_with h) _) _) (keeps_publishCtxs (keeps_with h) _)

theorem keeps_execReduceContribution (h : Keeps u s) (src) : KeepsRes u (execReduceContribution src s) := by
  unfold execReduceContribution
  split
  · exact keeps_next h
  · exact by
      split
      · exact keeps_next h
      · rename_i e1
        exact keeps_next (keeps_freePlaces ((keeps_contribute (keeps_with h) _ _) _ e1) _ _)

theorem keeps_t2Put (h : Keeps u s) (p slot ftag img) : Keeps u (t2Put p slot ftag img s) := by
  unfold t2Put
  exact keeps_t2Store (keeps_t2Store h _ _ _) _ _ _

theorem keeps_moveT2 {u : State} (p k e imgs) : KeepsEng u (moveT2 p k e imgs) := by
  unfold moveT2
  exact keepsEng_get fun _ h1 =>
    keepsEng_ite (keepsEng_pure _)
      (keepsEng_bind (keeps_allocT2 _ _ _) fun _ =>
         by
           split
           · exact keepsEng_pure _
           · exact keepsEng_bind
               (keepsEng_modify (fun _ h2 => (keeps_tallyHub (keeps_foldl (fun _ _ h3 => (keeps_t2Put h3 _ _ _ _)) h2) _ _ _ _)))
               fun _ =>
               keepsEng_pure _)

theorem keeps_zeroFrame (h : Keeps u s) (col frame) : Keeps u (zeroFrame col frame s) := by
  unfold zeroFrame
  refine keeps_iter (fun _ _ k => keeps_unpin k _ _) (keeps_ftSet (keeps_wcForget (keeps_mems h ?_) _ _) _ _ _)
  exact fun ⟨h1, h2, h3, h4, h5, h6, h7, h8, h9⟩ => ⟨h1, h2, h3, h4, memZero_wf _ _ _ h5, memZero_wf _ _ _ h6, h7, h8, h9⟩

theorem keeps_execHotReset (h : Keeps u s) : KeepsRes u (execHotReset s) := by
  unfold execHotReset
  exact keeps_next (keeps_ite h (keeps_linkDown (keeps_allReset h)))

theorem keeps_execClkmonWindow (h : Keeps u s) (d counts) : KeepsRes u (execClkmonWindow d counts s) := by
  unfold execClkmonWindow
  dsimp only
  exact keepsRes_ite (keeps_next h) (by
      split
      · exact keeps_next (keeps_clockLost (keeps_foldl (fun _ _ h1 => (keeps_clockCount h1 _ _ _)) h) _ _)
      · exact keeps_next (keeps_foldl (fun _ _ h2 => (keeps_clockCount h2 _ _ _)) h))

theorem keeps_execEwise (h : Keeps u s) (c y) : KeepsRes u (execEwise c y s) := by
  unfold execEwise
  dsimp only
  split
  · exact keeps_next h
  · exact by
      split
      · exact keeps_next h
      · exact keepsRes_ite (keeps_next h)
          (keeps_next
             (keeps_mxCycles
                (keeps_mxNum (keeps_mxCmd (keeps_mxupd (keeps_spReadBlocks (keeps_spReadBlocks h _ _) _ _) _ _) _ _ _) _ _ _ _ _)
                _ _ _ _))

theorem keeps_execMxeCommandStart (h : Keeps u s) (c) : KeepsRes u (execMxeCommandStart c s) := by
  unfold execMxeCommandStart
  dsimp only
  split
  · exact keeps_next h
  · exact by
      split
      · exact keeps_next h
      · exact keepsRes_ite (keeps_next h)
          (keepsRes_ite (keeps_next (keeps_holdTrap (keeps_mxCmd h _ _ _) _ _))
             (keepsRes_ite (keeps_next h) (keeps_next (keeps_feedAhead (keeps_mxCmd (keeps_tkTake h _ _) _ _ _) _))))

theorem keeps_execSt (h : Keeps u s) (c) : KeepsRes u (execSt c s) := by
  unfold execSt
  exact keeps_next
    (keeps_seqStep h _ _ _
       (fun _ _ h1 => (keeps_ite (keeps_seqTrap h1 _ _ _ _ _) (keeps_seqNext (keeps_spWriteBytes h1 _ _ _ _) _ _))))

theorem keeps_execStc (h : Keeps u s) (c busy) : KeepsRes u (execStc c busy s) := by
  unfold execStc
  exact keeps_next
    (keeps_seqStep h _ _ _
       (fun _ _ h1 =>
          keeps_ite (keeps_csRefuse h1 _ _ _)
            (keeps_ite (keeps_seqNext (keeps_seqBusy (keeps_csCount h1 _ _ _) _ _) _ _)
               (keeps_seqNext (keeps_csWriteBytes (keeps_csCount h1 _ _ _) _ _ _) _ _))))

theorem keeps_execTkwaitSatisfied (h : Keeps u s) (c) : KeepsRes u (execTkwaitSatisfied c s) := by
  unfold execTkwaitSatisfied
  exact keeps_next (keeps_ite (keeps_seqStep h _ _ _ (fun _ _ h1 => (keeps_getD (keeps_tkTryWait h1 _ _) h1))) h)

theorem keeps_execCbarPoll (h : Keeps u s) (c) : KeepsRes u (execCbarPoll c s) := by
  unfold execCbarPoll
  dsimp only
  exact keeps_next
    (keeps_ite h (by
         split
         · exact h
         · exact by
             split
             · exact keeps_seqTrap (keeps_csAtomic (keeps_csCount h _ _ _) _ _ _ _ _) _ _ _ _ _
             · exact keeps_ite (keeps_csAtomic (keeps_csCount h _ _ _) _ _ _ _ _)
                 (keeps_pcTo (keeps_csAtomic (keeps_csCount h _ _ _) _ _ _ _ _) _ _)))

theorem keeps_execQmx (h : Keeps u s) (c) : KeepsRes u (execQmx c s) := by
  unfold execQmx
  split
  · exact keeps_next h
  · exact keeps_next
      (keeps_vxDone
         (keeps_vxNum
            (keeps_iter (fun _ _ h1 => (keeps_ite (keeps_spPoisonRange (keeps_spPoisonRange h1 _ _ _ _) _ _ _ _) h1))
               (keeps_spWriteBytes (keeps_spWriteBytes h _ _ _ _) _ _ _ _)) _ _ _ _ _) _ _ _ _)

theorem keeps_execRemoteRefusal (h : Keeps u s) (c) : KeepsRes u (execRemoteRefusal c s) := by
  unfold execRemoteRefusal
  dsimp only
  split
  · exact keeps_next h
  · exact by
      split
      · exact keeps_next h
      · exact keepsRes_ite (keeps_next h)
          (by split; exact (keeps_next (keeps_with h)); exact (keeps_next (keeps_mvFail (keeps_with h) _ _ _ _ _)))

theorem keeps_readRows : ∀ {s}, Keeps u s → ∀ col a, Keeps u (readRows col a s).2
  | _, h, _, [] => by
    rw [readRows]
    exact h
  | _, h, _, (b :: bs) => by
    rw [readRows]
    exact keeps_readRows (keeps_readRow h _ _) _ _

theorem keeps_execQload (h : Keeps u s) (col) : KeepsRes u (execQload col s) := by
  unfold execQload
  dsimp only
  split
  · exact keeps_next h
  · exact keepsRes_ite (by
        split
        · exact keepsRes_ite (keeps_next (keeps_nbDone h _ _ _))
            (keeps_next (keeps_nbDone (keeps_ite (keeps_chainSendQ (keeps_nbupd h _ _) _ _) (keeps_nbupd h _ _)) _ _ _))
        · exact keepsRes_ite (keeps_next (keeps_nbDone h _ _ _)) (keeps_next h))
      (keeps_next
         (keeps_nbDone
            (keeps_ite (keeps_chainSendQ (keeps_nbupd (keeps_nbStall (keeps_readRows h _ _) _ _) _ _) _ _)
               (keeps_nbupd (keeps_nbStall (keeps_readRows h _ _) _ _) _ _)) _ _ _))

theorem keeps_execScore (h : Keeps u s) (col busy stall) : KeepsRes u (execScore col busy stall s) := by
  unfold execScore
  split
  · exact keeps_next h
  · exact keeps_next
      (keeps_nbDone (keeps_nbStall (keeps_scoreItems (keeps_csBusies (keeps_ite (keeps_nbupd h _ _) h) _ _ _ _) _ _ _ _) _ _) _
         _ _)

theorem keeps_execCreate (h : Keeps u s) (w stuck) : KeepsRes u (execCreate w stuck s) := by
  unfold execCreate
  exact keeps_editCmd h _ _ _ _ (fun _ _ => (keeps_edCreate _ _))

theorem keeps_execReserve (h : Keeps u s) (w stuck) : KeepsRes u (execReserve w stuck s) := by
  unfold execReserve
  exact keeps_editCmd h _ _ _ _ (fun _ _ => (keeps_edReserve _ _))

theorem keeps_execRelease (h : Keeps u s) (w stuck) : KeepsRes u (execRelease w stuck s) := by
  unfold execRelease
  exact keeps_editCmd h _ _ _ _ (fun _ _ => (keeps_edRelease _ _))

theorem keeps_execSethead (h : Keeps u s) (w stuck) : KeepsRes u (execSethead w stuck s) := by
  unfold execSethead
  exact keeps_editCmd h _ _ _ _ (fun _ _ => (keeps_edSethead _ _))

theorem keeps_walkWrite {u : State} (p a st g) : KeepsEng u (walkWrite p a st g) := by
  unfold walkWrite
  exact keepsEng_bind (keeps_dRd _ _ _) fun _ =>
    keepsEng_bind (keeps_dRd _ _ _) fun _ =>
      keepsEng_ite (keepsEng_modify (fun _ h1 => (keeps_pupd (keeps_ite h1 (keeps_cluUpd h1 _ _ _)) _ _)))
        (keepsEng_bind (keepsEng_modify (fun _ h2 => (keeps_csWriteBytes h2 _ _ _))) fun _ =>
           keepsEng_bind (keeps_dWr _ _ _ _) fun _ =>
             keepsEng_bind (keeps_dWr _ _ _ _) fun _ =>
               keepsEng_modify
                 (fun _ h3 =>
                    keeps_pupd
                      (keeps_ite (keeps_cluUpd (keeps_tallyClu (keeps_cluUpd h3 _ _ _) _ _ _ _) _ _ _)
                         (keeps_tallyClu (keeps_cluUpd h3 _ _ _) _ _ _ _)) _ _))

theorem keeps_execWalkSegmentWrite (h : Keeps u s) (p clu stop stuck) :
    KeepsRes u (execWalkSegmentWrite p clu stop stuck s) := by
  unfold execWalkSegmentWrite
  split
  · exact by
      split
      · exact keeps_next h
      · exact keepsRes_ite (keeps_next h)
          (keepsRes_ite (keeps_next (keeps_pupd (keeps_csBusyN h _ _ _) _ _))
             (keeps_next (keeps_engRun h (keeps_walkWrite _ _ _ _))))
  · exact keeps_next h

theorem keeps_execStepRetire (h : Keeps u s) (p outs) : KeepsRes u (execStepRetire p outs s) := by
  unfold execStepRetire
  split
  · exact keeps_next h
  · exact keepsRes_ite (keeps_next h)
      (keepsRes_ite (keeps_next (keeps_stepClose h _ _)) (keepsRes_ite (keeps_next h) (keeps_next (keeps_stepRetire h _ _ _))))

theorem keeps_execStepLimitExpiry (h : Keeps u s) (p) : KeepsRes u (execStepLimitExpiry p s) := by
  unfold execStepLimitExpiry
  split
  · exact keeps_next h
  · exact by split; exact (keeps_next h); exact (keeps_next (keeps_ite h (keeps_stepStop h _ _ _)))

theorem keeps_grant (h : Keeps u s) (key) : Keeps u (grant key s) := by
  unfold grant
  exact keeps_grantFree (by split; exact (keeps_ite (keeps_served (keeps_perform h _) _ _) (keeps_perform h _)); exact h) _

theorem keeps_execGrant (h : Keeps u s) (x) : KeepsRes u (execGrant x s) := by
  unfold execGrant
  exact keeps_next (keeps_grant (keeps_netTick h _) _)

theorem keeps_execCommandWindowWrite (h : Keeps u s) (w off d) : KeepsRes u (execCommandWindowWrite w off d s) := by
  unfold execCommandWindowWrite
  exact keeps_next (keeps_ite (keeps_writeWindow (keeps_hostReq h _ _) _ _ _) h)

theorem keeps_execPfFlr (h : Keeps u s) : KeepsRes u (execPfFlr s) := by
  unfold execPfFlr
  exact keeps_next (keeps_ite h (keeps_allReset h))

theorem keeps_execDirRegister (h : Keeps u s) (w heads) : KeepsRes u (execDirRegister w heads s) := by
  unfold execDirRegister
  exact keeps_runCmd h _ _ _
    (fun _ _ h1 =>
       keeps_ite (keeps_complete h1 _ _ _ _)
         (keeps_ite (keeps_complete h1 _ _ _ _)
            (keeps_complete (keeps_pupd (keeps_foldl (fun _ _ h2 => (keeps_dirInit h2 _ _ _ _ _)) h1) _ _) _ _ _ _)))

theorem keeps_execHubReset (h : Keeps u s) (w) : KeepsRes u (execHubReset w s) := by
  unfold execHubReset
  exact keeps_runCmd h _ _ _ (fun _ _ h1 => (keeps_ite (keeps_complete h1 _ _ _ _) (keeps_hset (keeps_loseHub h1 _ _) _ _)))

theorem keeps_execAttestGet (h : Keeps u s) (w nonce) : KeepsRes u (execAttestGet w nonce s) := by
  unfold execAttestGet
  exact keeps_runCmd h _ _ _
    (fun _ _ h1 =>
       keeps_ite (keeps_complete h1 _ _ _ _)
         (keeps_ite (keeps_complete h1 _ _ _ _) (keeps_complete (keeps_hostPut h1 _ _ _) _ _ _ _)))

theorem keeps_fabPort (h : Keeps u s) (k) : Keeps u (fabPort k s) := by
  unfold fabPort
  exact keeps_ite (keeps_complete h _ _ _ _)
    (keeps_ite (keeps_complete h _ _ _ _)
       (keeps_ite (keeps_complete (keeps_fportUpd (keeps_portDown h _ _) _ _) _ _ _ _)
          (keeps_ite
             (keeps_ite (keeps_complete h _ _ _ _)
                (keeps_complete (keeps_ite (keeps_setPortState (keeps_fportUpd h _ _) _ _) (keeps_fportUpd h _ _)) _ _ _ _))
             (keeps_ite (keeps_complete h _ _ _ _) (keeps_complete (keeps_portRetrain h _) _ _ _ _)))))

theorem keeps_execFabPort (h : Keeps u s) (w) : KeepsRes u (execFabPort w s) := by
  unfold execFabPort
  exact keeps_runCmd h _ _ _ (fun _ _ h1 => (keeps_fabPort h1 _))

theorem keeps_execPortRetrainDone (h : Keeps u s) (p tx rx) : KeepsRes u (execPortRetrainDone p tx rx s) := by
  unfold execPortRetrainDone
  exact keeps_next (keeps_ite (keeps_trainDone h _ _ _) h)

theorem keeps_execLossOfLight (h : Keeps u s) (p) : KeepsRes u (execLossOfLight p s) := by
  unfold execLossOfLight
  exact keeps_next (keeps_ite (keeps_portErr (keeps_portDown h _ _) _ _ _) h)

theorem keeps_strmNext (h : Keeps u s) (k i n) : Keeps u (strmNext k i n s) := by
  unfold strmNext
  exact keeps_strmPut (keeps_setStrmIdx h _ _ _) _ _ _ _

theorem keeps_execStreamValidWrite (h : Keeps u s) (k i w) : KeepsRes u (execStreamValidWrite k i w s) := by
  unfold execStreamValidWrite
  exact keeps_next (keeps_writeStrmRing h _ _ _)

theorem keeps_execBridgeLiveRetrain (h : Keeps u s) (d g) : KeepsRes u (execBridgeLiveRetrain d g s) := by
  unfold execBridgeLiveRetrain
  exact keepsRes_ite (keeps_next h)
    (keepsRes_ite (keeps_next (keeps_startTrain h _))
       (keeps_next (keeps_askTrain (keeps_iter (fun _ _ h1 => (keeps_brgErr h1 _ _ _ _)) h) _)))

theorem keeps_bridgeDone (h : Keeps u s) (d lanes down) : Keeps u (bridgeDone d lanes down s) := by
  unfold bridgeDone
  exact keeps_islandCheck
    (keeps_withBoot
       (keeps_foldl (fun _ _ h1 => (keeps_brgGroupDown h1 _ _))
          (keeps_foldl
             (fun _ _ h2 =>
                keeps_ite (keeps_brgGroupDown (keeps_setBrg h2 _ _) _ _) (keeps_brgErr (keeps_setBrg h2 _ _) _ _ _ _)) h))
       (by rfl)) _

theorem keeps_execBridgeRetrainDone (h : Keeps u s) (d lanes down) : KeepsRes u (execBridgeRetrainDone d lanes down s) := by
  unfold execBridgeRetrainDone
  exact keeps_next (keeps_ite (keeps_bridgeDone h _ _ _) h)

theorem keeps_spanStep (h : Keeps u s) (z) : Keeps u (spanStep z s) := by
  unfold spanStep
  exact keeps_ite (keeps_zeroUnit (keeps_t2Took h _) _)
    (keeps_foldl (fun _ _ h1 => (keeps_zeroBankRow h1 _ _)) (keeps_mntTook h _))

theorem keeps_execFrameZeroing (h : Keeps u s) (k) : KeepsRes u (execFrameZeroing k s) := by
  unfold execFrameZeroing
  split
  · exact keeps_next h
  · exact keepsRes_ite (keeps_next h)
      (keepsRes_ite (keeps_next (keeps_mntAsk h _ _))
         (keeps_next (keeps_mntPass (keeps_frameBack (keeps_zeroFrame (keeps_with (keeps_mntTook h _)) _ _) _ _ _) _ _)))

theorem keeps_execTowerManagerWatchdog (h : Keeps u s) (n) : KeepsRes u (execTowerManagerWatchdog n s) := by
  unfold execTowerManagerWatchdog
  exact keeps_next (keeps_ite (keeps_loseTower h _) h)

theorem keeps_execSnapshotComplete (h : Keeps u s) : KeepsRes u (execSnapshotComplete s) := by
  unfold execSnapshotComplete
  split
  · exact keeps_next h
  · exact keeps_next (keeps_ite h (keeps_snapDone h _))

theorem keeps_execResponseReceive (h : Keeps u s) (x) : KeepsRes u (execResponseReceive x s) := by
  unfold execResponseReceive
  split
  · exact keeps_next h
  · exact keeps_next (keeps_ite (keeps_respReceive h _ _) h)

theorem keeps_stepBegin (h : Keeps u s) (p) : Keeps u (stepBegin p s) := by
  unfold stepBegin
  dsimp only
  split
  · exact h
  · exact by
      split
      · exact h
      · exact keeps_ite (keeps_stepDone h _ _ _ _ _) (by
            split
            · exact keeps_stepDone h _ _ _ _ _
            · rename_i e1
              exact keeps_foldl (fun _ _ h2 => (keeps_stepCore h2 _ _)) (keeps_pupd ((keeps_stepPrepare _ _) _ _ _ h e1) _ _))

theorem keeps_lenData (h : Keeps u s) (p off d) : Keeps u (lenData p off d s) := by
  unfold lenData
  split
  · exact keeps_ite h (keeps_ite (keeps_stepBegin (keeps_pset h _ _) _) (keeps_pset h _ _))
  · exact h

theorem keeps_swapStep (h : Keeps u s) (p key) : Keeps u (swapStep p key s) := by
  unfold swapStep
  split
  · exact h
  · exact by
      split
      · exact keeps_swapFinish h _
      · exact by split; exact h; exact (keeps_ite h (keeps_swapFinish (keeps_jobDone (keeps_glzOpenPage h _ _ _ _) _ _ _) _))

theorem keeps_idleTick (h : Keeps u s) : Keeps u (idleTick s) := by
  unfold idleTick
  exact keeps_ite
    (keeps_reloadStep (keeps_ite (keeps_sendNotes (keeps_countTime (keeps_with h))) (keeps_countTime (keeps_with h)))) h

theorem keeps_groupDown (h : Keeps u s) (c g) : Keeps u (groupDown c g s) := by
  unfold groupDown
  generalize groupBlks g = x
  obtain ⟨b, n⟩ := x
  refine keeps_mems (keeps_cupd (keeps_corUpd h _ _ _) _ _) ?_
  exact fun ⟨h1, h2, h3, h4, h5, h6, h7, h8, h9⟩ => ⟨memZero_wf _ _ _ h1, memZero_wf _ _ _ h2, h3, h4, h5, h6, h7, h8, h9⟩

theorem keeps_coreOff (h : Keeps u s) (c) : Keeps u (coreOff c s) := by
  unfold coreOff
  exact keeps_cupd (keeps_corUpd (keeps_iter (fun _ _ h1 => (keeps_ite (keeps_groupDown h1 _ _) h1)) h) _ _ _) _ _

theorem keeps_zeroCheck (h : Keeps u s) (p) : Keeps u (zeroCheck p s) := by
  unfold zeroCheck
  dsimp only
  exact keeps_ite h
    (keeps_ite (by
         split
         · exact keeps_complete
             (keeps_ite
                (keeps_tdispSend
                   (keeps_pset (keeps_clearBounds (keeps_foldl (fun _ _ h1 => (keeps_coreOff h1 _)) (keeps_clearDirty h _)) _) _
                      _) _ _)
                (keeps_pset (keeps_clearBounds (keeps_foldl (fun _ _ h2 => (keeps_coreOff h2 _)) (keeps_clearDirty h _)) _) _ _))
             _ _ _ _
         · exact keeps_ite
             (keeps_tdispSend
                (keeps_pset (keeps_clearBounds (keeps_foldl (fun _ _ h3 => (keeps_coreOff h3 _)) (keeps_clearDirty h _)) _) _ _)
                _ _)
             (keeps_pset (keeps_clearBounds (keeps_foldl (fun _ _ h4 => (keeps_coreOff h4 _)) (keeps_clearDirty h _)) _) _ _))
       (keeps_ite (keeps_tdispSend (keeps_pset (keeps_clearDirty h _) _ _) _ _) (keeps_clearDirty h _)))

theorem keeps_dieRejoin (h : Keeps u s) (n f) : Keeps u (dieRejoin n f s).1 := by
  unfold dieRejoin
  exact keeps_ite_fst
    (keeps_ite
       (keeps_rset
          (keeps_withBoot
             (keeps_foldl (fun _ _ h1 => (keeps_zeroCheck h1 _))
                (keeps_rejoinTests (keeps_towerReset (keeps_withBoot h (by rfl)) _) _ _ _)) (by rfl)) _ _)
       (keeps_foldl (fun _ _ h2 => (keeps_zeroCheck h2 _))
          (keeps_rejoinTests (keeps_towerReset (keeps_withBoot h (by rfl)) _) _ _ _)))
    (keeps_logErr
       (keeps_ite
          (keeps_mapChange
             (keeps_foldl (fun _ _ h3 => (keeps_zeroCheck h3 _))
                (keeps_rejoinTests (keeps_towerReset (keeps_withBoot h (by rfl)) _) _ _ _)) _)
          (keeps_rupd
             (keeps_mapChange
                (keeps_foldl (fun _ _ h4 => (keeps_zeroCheck h4 _))
                   (keeps_rejoinTests (keeps_towerReset (keeps_withBoot h (by rfl)) _) _ _ _)) _) _ _)) _)

theorem keeps_startForced (h : Keeps u s) (col) : Keeps u (startForced col s) := by
  unfold startForced
  exact keeps_ite h (keeps_rupd (keeps_colset h (by rfl)) _ _)

theorem keeps_writeRefCtl (h : Keeps u s) (n w) : Keeps u (writeRefCtl n w s) := by
  unfold writeRefCtl
  exact keeps_foldl (fun _ _ h1 => (keeps_startForced h1 _)) (keeps_rset h _ _)

theorem keeps_writeProfile (h : Keeps u s) (c w) : Keeps u (writeProfile c w s) := by
  unfold writeProfile
  exact keeps_ite (keeps_setMapErr h _)
    (keeps_cupd (keeps_iter (fun _ _ h1 => (keeps_ite (keeps_groupDown h1 _ _) h1)) (keeps_corUpd h _ _ _)) _ _)

theorem keeps_writeCore (h : Keeps u s) (c o w) : Keeps u (writeCore c o w s) := by
  unfold writeCore
  exact keeps_ite (keeps_writeCtrl h _ _)
    (keeps_ite (keeps_writeSlotMap h _ _ _)
       (keeps_ite (keeps_writeProfile h _ _)
          (keeps_ite (keeps_writeUniRegion h _ _ _)
             (keeps_ite (keeps_writeSeqCtl h _ _)
                (keeps_ite (keeps_ite (keeps_cupd h _ _) h)
                   (keeps_ite (keeps_writeHalted h _ _ _)
                      (keeps_ite h
                         (keeps_ite (keeps_writeMovCh h _ _ _) (keeps_ite (keeps_writeLoadCtl h _ _) (keeps_plainWrite h _ _))))))))))

theorem keeps_writeReg (h : Keeps u s) (off w) : Keeps u (writeReg off w s) := by
  unfold writeReg
  exact keeps_ite h (by
      split
      · exact keeps_writeGlb h _ _
      · exact keeps_writeWindow h _ _ _
      · exact keeps_writeThm h _ _
      · exact keeps_ite (keeps_writeSnapCtl h _) (keeps_ite (keeps_writeTelemHead h _) h)
      · exact keeps_ite (keeps_writeRefCtl h _ _) (keeps_plainWrite h _ _)
      · exact keeps_writeHub h _ _ _
      · exact keeps_writeCore h _ _ _
      · exact keeps_writeClu h _ _ _
      · exact keeps_ite h (keeps_plainWrite h _ _)
      · exact keeps_ite (keeps_ctrSet h _ _) h
      · exact keeps_writeVf h _ _ _
      · exact h
      · exact h
      · exact h
      · exact h)

theorem keeps_execT2poolRegister (h : Keeps u s) (w) : KeepsRes u (execT2poolRegister w s) := by
  unfold execT2poolRegister
  refine keeps_runCmd h _ _ _ fun k s hs => keeps_ite (keeps_ite (keeps_complete (keeps_poolSet hs _ _) _ _ _ _) (keeps_complete hs _ _ _ _))
    (keeps_ite (keeps_complete hs _ _ _ _) (keeps_complete (keeps_mems (keeps_poolSet hs _ _) ?_) _ _ _ _))
  exact fun ⟨h1, h2, h3, h4, h5, h6, h7, h8, h9⟩ => ⟨h1, h2, h3, h4, h5, h6, memZero_wf _ _ _ h7, h8, h9⟩

theorem keeps_execRowReadIssue (h : Keeps u s) (col k busy) : KeepsRes u (execRowReadIssue col k busy s) := by
  unfold execRowReadIssue
  exact keepsRes_ite (keeps_next h) (by
      split
      · exact keeps_next h
      · exact keepsRes_ite (keeps_next h)
          (keepsRes_ite (keepsRes_ite (keeps_next h) (keeps_next (keeps_countWithheld (keeps_colset h (by rfl)) _)))
             (keeps_next (keeps_rowTally (keeps_colset h (by rfl)) _ _ _ _))))

theorem keeps_putRegBytes (h : Keeps u s) (o d) : Keeps u (putRegBytes o d s) := by
  unfold putRegBytes
  exact keeps_iter (fun _ _ h1 => (keeps_writeReg h1 _ _)) h

theorem keeps_writeBlock (h : Keeps u s) (b a d) : Keeps u (writeBlock b a d s).2 := by
  unfold writeBlock
  dsimp only
  split
  · exact by
      split
      · exact keeps_ite_snd (keeps_hostRefused h _ _) (keeps_ite_snd h (keeps_putRegBytes h _ _))
      · exact keeps_hostRefused h _ _
  · exact by split; exact (keeps_hostRefused (keeps_hostRaw h _ _ _) _ _); exact (keeps_tgtWrite h _ _ _)

theorem keeps_writeBlocks : ∀ {s}, Keeps u s → ∀ b a off a3 a4, Keeps u (writeBlocks b a off a3 a4 s).2
  | _, h, _, _, _, 0, _ => by
    rw [writeBlocks]
    exact h
  | _, h, _, _, _, (_ + 1), [] => by
    rw [writeBlocks]
    exact h
    exact nofun
  | _, h, _, _, _, (n + 1), (_ :: _) => by
    rw [writeBlocks]
    exact keeps_ite_snd (keeps_writeBlock h _ _ _) (keeps_writeBlocks (keeps_writeBlock h _ _ _) _ _ _ _ _)
    exact nofun

theorem keeps_memWriteCmd (h : Keeps u s) (k) : Keeps u (memWriteCmd k s) := by
  unfold memWriteCmd
  exact keeps_ite (keeps_complete h _ _ _ _) (by
      split
      · rename_i e1
        exact keeps_complete (Keeps_snd (keeps_writeBlocks h _ _ _ _ _) e1) _ _ _ _
      · rename_i e2
        exact keeps_complete (Keeps_snd (keeps_writeBlocks h _ _ _ _ _) e2) _ _ _ _)

theorem keeps_execRefreshCtlWrite (h : Keeps u s) (n w) : KeepsRes u (execRefreshCtlWrite n w s) := by
  unfold execRefreshCtlWrite
  exact keeps_next (keeps_writeRefCtl h _ _)

theorem keeps_dmaData (h : Keeps u s) (pkt dpa d) : Keeps u (dmaData pkt dpa d s) := by
  unfold dmaData
  dsimp only
  split
  · exact keeps_ite (by
        split
        · exact keeps_complete (keeps_with (keeps_ite_snd h (keeps_writeBlocks h _ _ _ _ _))) _ _ _ _
        · exact keeps_complete (keeps_with (keeps_ite_snd h (keeps_writeBlocks h _ _ _ _ _))) _ _ _ _)
      (keeps_with (keeps_ite_snd h (keeps_writeBlocks h _ _ _ _ _)))
  · exact h

theorem keeps_execStage7 (h : Keeps u s) (bad dur) : KeepsRes u (execStage7 bad dur s) := by
  unfold execStage7
  refine keepsRes_ite (keeps_next h) (keeps_next (keeps_stageEnd (keeps_writeRecs
    (keeps_mems (keeps_iter (fun _ _ k => keeps_rupd k _ _) h) ?_) _) _ _ _ _ _))
  exact fun ⟨h1, h2, h3, h4, h5, h6, _, h8, h9⟩ => ⟨h1, h2, h3, h4, h5, h6, rfl, h8, h9⟩

theorem keeps_wcAccept (h : Keeps u s) (col row blk d) (hrow : row < 131072) (hblk : blk < 16) (hd : d.length = 64) :
    Keeps u (wcAccept col row blk d s) := by
  unfold wcAccept
  dsimp only
  split
  · refine keeps_unpin (keeps_colset_wf ?_ h) _ _
    exact wcWf_modify rfl (fun _ => rfl) fun _ he => entryWf_put hblk hd true he
  · rename_i hnone
    refine keeps_ite (keeps_unpin (keeps_colset_wf ?_ h) _ _) h
    exact wcWf_append rfl (fun x hx => by simpa using findIdx?_eq_none hnone x hx) (entryWf_single hrow hblk hd)

theorem findIdx?_eq_some {α : Type} {p : α → Bool} {l : List α} {i : Nat} (h : findIdx? p l = some i) : i < l.length := by
  induction l generalizing i with
  | nil => cases h
  | cons a r ih =>
    rw [findIdx?] at h
    split at h
    · cases h
      exact Nat.zero_lt_succ _
    · obtain ⟨j, hj, rfl⟩ := Option.map_eq_some_iff.mp h
      exact Nat.succ_lt_succ (ih hj)

theorem listAt_eq_getElem {α : Type} {l : List α} {i : Nat} (d : α) (h : i < l.length) : listAt l i d = l[i] :=
  List.getD_eq_getElem _ _ h

theorem keeps_execRowWriteIssue (h : Keeps u s) (col row k busy) : KeepsRes u (execRowWriteIssue col row k busy s) := by
  unfold execRowWriteIssue
  dsimp only
  split
  · exact keeps_next h
  · rename_i i hi
    rw [listAt_eq_getElem _ (findIdx?_eq_some hi)]
    refine keepsRes_ite (keeps_next h) (keepsRes_ite (keepsRes_ite (keeps_next h) (keeps_next (keeps_countWithheld
      (keeps_colset_wf ?_ h) _))) (keeps_next (keeps_wcIssue h _ _)))
    refine wcWf_modify (f := fun e => { e with counted := true }) (i := i) ?_ (fun _ => rfl) fun _ he => he
    rw [List.modify_eq_set_getElem?, List.getElem?_eq_getElem (findIdx?_eq_some hi)]
    rfl

theorem keeps_execAccload (h : Keeps u s) (c) : KeepsRes u (execAccload c s) := by
  unfold execAccload
  split
  · exact keeps_next h
  · split
    · exact keeps_next h
    · refine keeps_next (keeps_mxCmd (keeps_foldl_fst (fun acc r k => ?_) h) _ _ _)
      dsimp only
      exact keeps_ite_fst (keeps_mxupd k _ _) (keeps_mxupd (keeps_spReadBlocks k _ _) _ _)

theorem keeps_execStopInterfaceRequest (h : Keeps u s) (p) : KeepsRes u (execStopInterfaceRequest p s) := by
  unfold execStopInterfaceRequest
  exact keeps_next
    (keeps_ite h (keeps_ite (keeps_zeroCheck (keeps_pupd h _ _) _) (keeps_ite (keeps_tdispSend h _ _) (keeps_tdispSend h _ _))))

theorem keeps_execRefreshIntervalTick (h : Keeps u s) (col) : KeepsRes u (execRefreshIntervalTick col s) := by
  unfold execRefreshIntervalTick
  exact keepsRes_ite (keeps_next h)
    (keeps_next (keeps_ite (keeps_rupd (keeps_colset h (by rfl)) _ _) (keeps_colset h (by rfl))))

theorem keeps_execRegisterWrite (h : Keeps u s) (fn off w) : KeepsRes u (execRegisterWrite fn off w s) := by
  unfold execRegisterWrite
  exact keepsRes_ite (keeps_next h) (by
      split
      · exact keeps_next (keeps_hostReq h _ _)
      · exact keeps_next (keeps_ite (keeps_countCa (keeps_hostReq h _ _)) (keeps_writeReg (keeps_hostReq h _ _) _ _)))

theorem keeps_execBar2Write (h : Keeps u s) (x d) : KeepsRes u (execBar2Write x d s) := by
  unfold execBar2Write
  dsimp only
  exact keepsRes_ite (keeps_next h) (by
      split
      · exact keeps_next (keeps_countUr (keeps_hostReq h _ _))
      · exact keeps_next (keeps_countCa (keeps_bar2Refuse (keeps_hostReq h _ _) _ _ _))
      · exact keeps_next (keeps_putRegBytes (keeps_hostReq h _ _) _ _)
      · exact keeps_next (keeps_tgtWrite (keeps_hostReq h _ _) _ _ _))

theorem keeps_execPwrProfileWrite (h : Keeps u s) (c w) : KeepsRes u (execPwrProfileWrite c w s) := by
  unfold execPwrProfileWrite
  exact keeps_next (keeps_writeProfile h _ _)

theorem keeps_execWriteCombineAccept (h : Keeps u s) (col row blk d) : KeepsRes u (execWriteCombineAccept col row blk d s) := by
  unfold execWriteCombineAccept
  split
  · exact keeps_next (keeps_wcAccept h _ _ _ _ row.isLt blk.isLt ‹_›)
  · exact keeps_fault _ _

theorem keeps_execMemWrite (h : Keeps u s) (w) : KeepsRes u (execMemWrite w s) := by
  unfold execMemWrite
  exact keeps_runCmd h _ _ _ (fun _ _ h1 => (keeps_memWriteCmd h1 _))

theorem keeps_loadImage (h : Keeps u s) (c off a2) : Keeps u (loadImage c off a2 s) := by
  unfold loadImage
  exact keeps_writeLoadCtl
    (keeps_corSet
       (keeps_writeSeqCtl
          (keeps_rset
             (keeps_rset
                (keeps_iter (fun _ _ h1 => (keeps_movClr h1 _ _))
                   (keeps_iter (fun _ _ h2 => (keeps_tkPut h2 _ _ _))
                      (keeps_corSet
                         (keeps_takeFree
                            (keeps_corSet
                               (keeps_corSet
                                  (keeps_writeSlotMap
                                     (keeps_writeSlotMap (keeps_writeSlotMap (keeps_writeProfile h _ _) _ _ _) _ _ _) _ _ _) _ _
                                  _) _ _ _)) _ _ _))) _ _) _ _) _ _) _ _ _) _ _

theorem keeps_execModelLoad (h : Keeps u s) (w) : KeepsRes u (execModelLoad w s) := by
  unfold execModelLoad
  exact keeps_runCmd h _ _ _
    (fun _ _ h1 =>
       keeps_ite (keeps_complete h1 _ _ _ _)
         (keeps_ite (keeps_complete h1 _ _ _ _) (by
              split
              · rename_i e2
                exact keeps_complete (Keeps_snd (keeps_pktTable h1 _ _ _ _) e2) _ _ _ _
              · rename_i e3
                exact keeps_ite (keeps_complete (Keeps_snd (keeps_pktTable h1 _ _ _ _) e3) _ _ _ _) (by
                    split
                    · rename_i e4
                      exact keeps_complete (Keeps_snd (keeps_pktTable (Keeps_snd (keeps_pktTable h1 _ _ _ _) e3) _ _ _ _) e4) _
                        _ _ _
                    · rename_i e5
                      exact keeps_ite
                        (keeps_complete (Keeps_snd (keeps_pktTable (Keeps_snd (keeps_pktTable h1 _ _ _ _) e3) _ _ _ _) e5) _ _ _
                           _)
                        (keeps_ite
                           (keeps_complete (Keeps_snd (keeps_pktTable (Keeps_snd (keeps_pktTable h1 _ _ _ _) e3) _ _ _ _) e5) _
                              _ _ _) (by
                             split
                             · rename_i e6
                               exact keeps_complete
                                 (keeps_pupd
                                    (Keeps_snd
                                       (keeps_readHeaders
                                          (Keeps_snd (keeps_pktTable (Keeps_snd (keeps_pktTable h1 _ _ _ _) e3) _ _ _ _) e5) _)
                                       e6) _ _) _ _ _ _
                             · rename_i e7
                               exact keeps_loadFinish
                                 (keeps_pupd
                                    (keeps_foldl (fun _ _ h8 => (keeps_loadImage h8 _ _ _))
                                       (Keeps_snd
                                          (keeps_readHeaders
                                             (Keeps_snd (keeps_pktTable (Keeps_snd (keeps_pktTable h1 _ _ _ _) e3) _ _ _ _) e5)
                                             _) e7)) _ _) _))))))

theorem keeps_execDieRejoin (h : Keeps u s) (w f) : KeepsRes u (execDieRejoin w f s) := by
  unfold execDieRejoin
  exact keeps_runCmd h _ _ _
    (fun _ _ h1 =>
       keeps_ite (keeps_complete h1 _ _ _ _)
         (keeps_ite (keeps_complete (keeps_dieRejoin h1 _ _) _ _ _ _) (keeps_complete (keeps_dieRejoin h1 _ _) _ _ _ _)))

theorem keeps_forward (h : Keeps u s) (src mask vcsw m) : ∀ t, forward src mask vcsw m s = some t → Keeps u t := fun t e => by
  unfold forward at e
  generalize mHops m.bytes + (if src < 16 then 1 else 0) = hops at e
  dsimp only at e
  split at e
  · rw [← Option.some.inj e]
    exact keeps_dropMsg h _ _ _ _
  · split at e
    · cases e
    all_goals rw [← Option.some.inj e]
    · exact keeps_dropMsg h _ _ _ _
    · exact keeps_sendOn h _ _

theorem keeps_routeMsg (h : Keeps u s) (src m) : ∀ t, routeMsg src m s = some t → Keeps u t := fun t e => by
  have hdrop := fun p b c q => keeps_dropMsg h p b c q
  have hhold := fun m => keeps_hold h src m
  unfold routeMsg at e
  dsimp only at e
  split at e
  · split at e
    · rw [← Option.some.inj e]
      exact hdrop _ _ _ _
    · split at e
      · exact keeps_forward h _ _ _ _ _ e
      · split at e
        · exact keeps_forward h _ _ _ _ _ e
        · split at e <;> rw [← Option.some.inj e] <;> exact hhold _
  · split at e
    · split at e
      · rw [← Option.some.inj e]
        exact keeps_noteArrive h _
      · split at e <;> rw [← Option.some.inj e]
        · exact keeps_answerArrive h
        · exact hhold _
    · split at e
      · rw [← Option.some.inj e]
        exact hdrop _ _ _ _
      · exact keeps_forward h _ _ _ _ _ e

theorem keeps_routeFirst (src : Nat) : ∀ l {s}, Keeps u s → ∀ t, routeFirst src l s = some t → Keeps u t
  | [], _, _, _, e => by cases e
  | (i, m) :: l, s, h, t, e => by
    rw [routeFirst] at e
    dsimp only at e
    split at e
    · exact keeps_routeFirst src l h t e
    · rename_i hr
      have hs := keeps_routeMsg (keeps_with h) _ _ _ hr
      rw [← Option.some.inj e]
      exact keeps_ite hs (keeps_freePlaces hs _ _)

theorem keeps_execPartitionZeroing (h : Keeps u s) (p) : KeepsRes u (execPartitionZeroing p s) := by
  unfold execPartitionZeroing
  dsimp only
  split
  · exact keeps_next (keeps_zeroCheck (keeps_spanAsk h _) _)
  · exact by
      split
      · exact keeps_next h
      · exact keeps_next (keeps_zeroCheck (keeps_pupd (keeps_ite (keeps_spanStep h _) h) _ _) _)

theorem keeps_useData (h : Keeps u s) (a0 d) : Keeps u (useData a0 d s) := by
  unfold useData
  split
  · exact keeps_dmaData h _ _ _
  · exact keeps_lenData h _ _ _
  · exact keeps_swapStep (keeps_jobSet h _ _ _) _ _
  · exact keeps_swapStep (keeps_jobSet h _ _ _) _ _
  · exact keeps_rekeyStep (keeps_pupd h _ _) _
  · exact keeps_rekeyStep (keeps_pupd h _ _) _

theorem keeps_execHostReadCompletion (h : Keeps u s) (tag d) : KeepsRes u (execHostReadCompletion tag d s) := by
  unfold execHostReadCompletion
  split
  · exact keeps_next h
  · exact keepsRes_ite (keeps_next h) (keeps_next (keeps_useData (keeps_with h) _ _))

theorem keeps_mvChunk (h : Keeps u s) (c d sa o n) : Keeps u (mvChunk c d sa o n s).2.2 := by
  unfold mvChunk
  dsimp only
  exact keeps_ite_snd2 h (by
      split
      · rename_i e1
        exact Keeps_snd (keeps_mvRead h _ _ _ _) e1
      · rename_i e2
        exact Keeps_snd (keeps_mvRead h _ _ _ _) e2)

theorem keeps_readImage (h : Keeps u s) (col f) : Keeps u (readImage col f s).2 := by
  have hf : ∀ l : List Nat, ∀ z : List (Option (List Byte)) × State, Keeps u z.2 → Keeps u (l.foldl (fun r i =>
      ((t1ReadBlk (col / 2) (rowOff col (16 * f) + 64 * i) r.2).1 :: r.1, (t1ReadBlk (col / 2) (rowOff col (16 * f) + 64 * i) r.2).2)) z).2 :=
    fun l z hz => keeps_foldl_snd (fun _ _ k => keeps_t1ReadBlk k _ _) hz
  exact keeps_rowMeet (hf _ _ h) _ _ _ _

theorem keeps_t1Images {u : State} (e) : KeepsEng u (t1Images e) := by
  unfold t1Images
  exact keepsEng_get fun _ h1 =>
    by
      split
      · exact keepsEng_pure _
      · exact keepsEng_bind
          (keeps_engMap
             (fun _ => keepsEng_get fun _ h2 => keepsEng_bind (keepsEng_set (keeps_readImage h2 _ _)) fun _ => keepsEng_pure _)
             _) fun _ =>
          keepsEng_pure _

theorem keeps_migratePage {u : State} (p x page lose at') : KeepsEng u (migratePage p x page lose at') := by
  unfold migratePage
  split
  · exact keepsEng_pure _
  · exact keepsEng_bind (keeps_getBld _ _ _ _ _) fun _ =>
      keepsEng_bind (keeps_t1Images _) fun _ =>
        keepsEng_ite (keeps_engEach (fun _ => (keeps_losePage _ _ _ _ _)) _)
          (keepsEng_get fun _ h1 =>
             by
               split
               · exact keepsEng_pure _
               · exact keepsEng_bind (keeps_allocFrame _ _ _) fun _ =>
                   keepsEng_bind
                     (keepsEng_modify
                        (fun _ h2 =>
                           keeps_ftSet
                             (keeps_ite (keeps_copyFrame (keeps_copyFrame h2 _ _ _ _ _) _ _ _ _ _)
                                (keeps_copyFrame h2 _ _ _ _ _)) _ _ _)) fun _ =>
                     keepsEng_get fun _ h3 =>
                       keepsEng_bind (keeps_dAdd _ _ _) fun _ =>
                         keeps_engEach
                           (fun _ =>
                              keepsEng_bind (keeps_getBld _ _ _ _ _) fun _ =>
                                keepsEng_bind (keeps_dropEntry _ _ _) fun _ => keeps_setBld _ _ _ _ _ _) _)

theorem keeps_deviceReset (h : Keeps u s) : Keeps u (deviceReset s) := by
  unfold deviceReset
  refine keeps_rupd (Keeps.step h ?_ ?_ ?_) _ _
  · rfl
  · exact fun ⟨h1, h2, h3, h4, h5, h6, h7, _, h9⟩ => ⟨h1, h2, h3, h4, h5, h6, h7, rfl, h9⟩
  · exact fun _ _ => ⟨List.nodup_nil, nofun⟩

theorem keeps_lifecycleApply (h : Keeps u s) (target) : Keeps u (lifecycleApply target s) := by
  unfold lifecycleApply
  exact keeps_startBegin
    (keeps_deviceReset (keeps_rupd (keeps_ite (keeps_with (keeps_wipeSaggar h)) (keeps_with (keeps_wipeSaggar h))) _ _)) _

theorem keeps_mvStepChunk {r : MvRun} (h : Keeps u r.s) (c ch d busy da sa o n) :
    Keeps u (mvStepChunk c ch d busy da sa o n r).s := by
  unfold mvStepChunk
  dsimp only
  generalize (if mvFill d then none else mvInSram r.s0 c (mvSkind d) sa).orElse (fun _ => mvInSram r.s0 c (mvDkind d) da) = clu
  have hb := fun k => keeps_csBusyN h k (busyAt busy r.k) (coreTx r.s c 4 0 none)
  have hd := fun {s1 : State} (h1 : Keeps u s1) => keeps_mvChunk h1 c d sa o n
  split
  · exact h
  · split
    · split
      · exact hb _
      · exact h
    · split
      · exact hd (by split; exacts [hb _, h])
      · exact hd (by split; exacts [hb _, h])
      · refine keeps_ite (keeps_tallyCore (keeps_corUpd (keeps_mvWrite (keeps_ite (keeps_rowMeet ?_ _ _ _ _) ?_) _ _ _ _ _) _ _ _) _ _ _ _)
          (keeps_corUpd (keeps_mvWrite (keeps_ite (keeps_rowMeet ?_ _ _ _ _) ?_) _ _ _ _ _) _ _ _) <;>
        exact keeps_ite (keeps_rowMeet (hd (by split; exacts [hb _, h])) _ _ _ _) (hd (by split; exacts [hb _, h]))

theorem keeps_mvRow (c ch d busy da sa len) : ∀ f o {r : MvRun}, Keeps u r.s → Keeps u (mvRow c ch d busy da sa len f o r).s
  | 0, _, _, h => h
  | f + 1, o, r, h => by
    rw [mvRow]
    split
    · exact h
    · exact keeps_mvRow c ch d busy da sa len f _ (keeps_mvStepChunk h _ _ _ _ _ _ _ _)

theorem keeps_foldl_run {α : Type} {f : MvRun → α → MvRun} (hf : ∀ r a, Keeps u r.s → Keeps u (f r a).s) :
    ∀ (l : List α) {r : MvRun}, Keeps u r.s → Keeps u (l.foldl f r).s
  | [], _, h => h
  | _ :: l, _, h => keeps_foldl_run hf l (hf _ _ h)

theorem keeps_mvAll (h : Keeps u s) (c ch d busy) : Keeps u (mvAll c ch d busy s).s :=
  keeps_foldl_run (fun _ _ k => keeps_foldl_run (fun _ _ k => keeps_mvRow _ _ _ _ _ _ _ _ _ k) _ k) _ h

theorem keeps_mvExec (h : Keeps u s) (c ch fill busy) : Keeps u (mvExec c ch fill busy s) := by
  unfold mvExec
  dsimp only
  split
  · exact h
  · have hr := fun d => keeps_mvAll h c ch d busy
    exact keeps_ite h (keeps_ite (keeps_mvupd (keeps_with (hr _)) _ _ _) (keeps_mvFail (keeps_with (hr _)) _ _ _ _ _))

theorem keeps_execMovFill (h : Keeps u s) (c ch busy) : KeepsRes u (execMovFill c ch busy s) := by
  unfold execMovFill
  exact keeps_next (keeps_mvExec h _ _ _ _)

theorem keeps_retireCol (h : Keeps u s) (col) : Keeps u (retireCol col s) := by
  unfold retireCol
  have key : ∀ {v} e, Keeps u v → Keeps u (logErr e (colNoZero col
      (colupd col (fun u => { u with retraining := false, phaseOut := [], queue := [] }) (markRetired col v)))) :=
    fun _ hv => keeps_logErr (keeps_colNoZero (keeps_colupd (keeps_markRetired hv col) (fun _ => by rfl)) col) _
  refine keeps_ite h (keeps_ite (keeps_withdrawCore (key _ ?_) _) (key _ ?_)) <;>
    split
  · exact keeps_engRun (keeps_discardModel h _) (keeps_poolNoCol _ _)
  · exact h
  · exact keeps_engRun (keeps_discardModel h _) (keeps_poolNoCol _ _)
  · exact h

theorem keeps_retireMigrated (h : Keeps u s) (p) : Keeps u (retireMigrated p s) := by
  unfold retireMigrated
  exact keeps_foldl
    (fun _ _ h1 => keeps_ite (by split; rename_i e2; exact (keeps_retireCol ((keeps_colNamed _ _) _ _ _ h1 e2) _); exact h1) h1)
    h

theorem keeps_generationSwitch (h : Keeps u s) (p) : Keeps u (generationSwitch p s) := by
  unfold generationSwitch
  exact keeps_ite h
    (keeps_ite (keeps_faultPart (keeps_tdiError (keeps_retireMigrated (keeps_swapFinish (keeps_switchGen h _) _) _) _) _)
       (keeps_retireMigrated (keeps_swapFinish (keeps_switchGen h _) _) _))

theorem keeps_migrateFrame {u : State} (p col f) : KeepsEng u (migrateFrame p col f) := by
  unfold migrateFrame
  exact keepsEng_bind (keeps_editCtx _) fun _ =>
    keepsEng_ite
      (keepsEng_bind (keepsEng_fail _) fun _ =>
         keepsEng_get fun _ h1 =>
           keepsEng_bind (keeps_placesWith _ _ _) fun _ =>
             keepsEng_bind (keeps_engMap (fun _ => (keepsEng_bind (keeps_getBld _ _ _ _ _) fun _ => (keepsEng_pure _))) _)
               fun _ =>
               keepsEng_bind (keeps_engEach (fun _ => (keeps_migratePage _ _ _ _ _)) _) fun _ =>
                 keepsEng_ite (keepsEng_pure _) (keeps_autoCommit _))
      (keepsEng_get fun _ h2 =>
         keepsEng_bind (keeps_placesWith _ _ _) fun _ =>
           keepsEng_bind (keeps_engMap (fun _ => (keepsEng_bind (keeps_getBld _ _ _ _ _) fun _ => (keepsEng_pure _))) _)
             fun _ =>
             keepsEng_bind (keeps_engEach (fun _ => (keeps_migratePage _ _ _ _ _)) _) fun _ =>
               keepsEng_ite (keepsEng_pure _) (keeps_autoCommit _))

theorem keeps_migrateCol {u : State} (p col lose) : KeepsEng u (migrateCol p col lose) := by
  unfold migrateCol
  exact keepsEng_bind (keeps_editCtx _) fun _ =>
    keepsEng_ite
      (keepsEng_bind (keepsEng_fail _) fun _ =>
         keepsEng_get fun _ h1 =>
           keepsEng_bind (keeps_placesWith _ _ _) fun _ =>
             keepsEng_bind (keeps_engMap (fun _ => (keepsEng_bind (keeps_getBld _ _ _ _ _) fun _ => (keepsEng_pure _))) _)
               fun _ =>
               keepsEng_bind (keeps_engEach (fun _ => (keeps_migratePage _ _ _ _ _)) _) fun _ => keeps_autoCommit _)
      (keepsEng_get fun _ h2 =>
         keepsEng_bind (keeps_placesWith _ _ _) fun _ =>
           keepsEng_bind (keeps_engMap (fun _ => (keepsEng_bind (keeps_getBld _ _ _ _ _) fun _ => (keepsEng_pure _))) _)
             fun _ =>
             keepsEng_bind (keeps_engEach (fun _ => (keeps_migratePage _ _ _ _ _)) _) fun _ => keeps_autoCommit _)

theorem keeps_execMigrationComplete (h : Keeps u s) (col) : KeepsRes u (execMigrationComplete col s) := by
  unfold execMigrationComplete
  exact keepsRes_ite (keeps_next h) (by
      split
      · exact keeps_next (keeps_retireCol h _)
      · exact by
          split
          · exact keeps_next h
          · rename_i e1
            exact keeps_next
              (keeps_ite (keeps_colupd ((keeps_migrateCol _ _ _) _ _ _ h e1) (fun _ => by rfl))
                 ((keeps_migrateCol _ _ _) _ _ _ h e1)))

theorem keeps_spareLane (h : Keeps u s) (col g lane) : Keeps u (spareLane col g lane s) := by
  unfold spareLane
  exact keeps_ite (keeps_ite (keeps_setBond h _ _) (keeps_suspectErr (keeps_setBond h _ _) _ _ _))
    (keeps_ite (keeps_retireCol (keeps_ite (keeps_setBond h _ _) (keeps_suspectErr (keeps_setBond h _ _) _ _ _)) _)
       (keeps_ite
          (keeps_colupd (keeps_ite (keeps_setBond h _ _) (keeps_suspectErr (keeps_setBond h _ _) _ _ _)) (fun _ => by rfl))
          (keeps_ite (keeps_setBond h _ _) (keeps_suspectErr (keeps_setBond h _ _) _ _ _))))

theorem keeps_columnRetrain (h : Keeps u s) (col lanes layers) : Keeps u (columnRetrain col lanes layers s) := by
  unfold columnRetrain
  exact keeps_ite (keeps_foldl (fun _ _ h1 => (keeps_suspectErr h1 _ _ _)) (keeps_colupd h (fun _ => by rfl)))
    (keeps_ite (keeps_colupd (keeps_foldl (fun _ _ h2 => (keeps_spareLane h2 _ _ _)) h) (fun _ => by rfl))
       (keeps_layersOut (keeps_colupd (keeps_foldl (fun _ _ h3 => (keeps_spareLane h3 _ _ _)) h) (fun _ => by rfl)) _ _))

theorem keeps_execColumnRetrain (h : Keeps u s) (col lanes) : KeepsRes u (execColumnRetrain col lanes s) := by
  unfold execColumnRetrain
  exact keeps_next (keeps_columnRetrain h _ _ _)

theorem keeps_execColumnRetrainDone (h : Keeps u s) (col bad) : KeepsRes u (execColumnRetrainDone col bad s) := by
  unfold execColumnRetrainDone
  exact keepsRes_ite (keeps_next h)
    (keeps_next
       (keeps_foldl (fun _ _ h1 => (keeps_ite (keeps_retireCol (keeps_setBond h1 _ _) _) (keeps_setBond h1 _ _)))
          (keeps_ite (keeps_layersBack (keeps_colupd h (fun _ => by rfl)) _) (keeps_colupd h (fun _ => by rfl)))))

theorem keeps_execGenerationSwitch (h : Keeps u s) (p) : KeepsRes u (execGenerationSwitch p s) := by
  unfold execGenerationSwitch
  exact keeps_next (keeps_generationSwitch h _)

theorem keeps_railsOff (h : Keeps u s) : Keeps u (railsOff s) := by
  unfold railsOff
  exact keeps_with (keeps_deviceReset h)

theorem keeps_kilnTrip (h : Keeps u s) (n layer src temp) : Keeps u (kilnTrip n layer src temp s) := by
  unfold kilnTrip
  exact keeps_railsOff (keeps_coneStore (keeps_with h))

theorem keeps_execKilnSitterTrip (h : Keeps u s) (n layer src temp) : KeepsRes u (execKilnSitterTrip n layer src temp s) := by
  unfold execKilnSitterTrip
  exact keeps_next (keeps_ite (keeps_kilnTrip h _ _ _ _) h)

theorem keeps_execStage6 (h : Keeps u s) (f) : KeepsRes u (execStage6 f s) := by
  unfold execStage6
  split
  · exact keeps_next h
  · have h1 := keeps_testBonds h (List.range 16) (fullFind s f)
    generalize testBonds (List.range 16) (fullFind s f) s = r at h1
    obtain ⟨fs, t⟩ := r
    refine keeps_next ?_
    refine keeps_stageEnd ?_ _ _ _ _ _
    refine keeps_writeRecs ?_ _
    refine keeps_remap ?_ _
    refine keeps_mems h1 ?_
    rintro ⟨h1, h2, h3, h4, _, _, h7, h8, h9⟩
    exact ⟨h1, h2, h3, h4, rfl, rfl, h7, h8, h9⟩

theorem keeps_execMovCopy (h : Keeps u s) (c ch busy) : KeepsRes u (execMovCopy c ch busy s) := by
  unfold execMovCopy
  exact keeps_next (keeps_mvExec h _ _ _ _)

theorem keeps_rowFails (h : Keeps u s) (col row) : Keeps u (rowFails col row s) := by
  unfold rowFails
  exact keeps_ite (keeps_colErr (keeps_withBoot h (by rfl)) _ _ _) (by
      split
      · exact keeps_engRun
          (keeps_engRun (keeps_withBoot (keeps_colErr (keeps_withBoot h (by rfl)) _ _ _) (by rfl)) (keeps_withholdFrame _ _ _))
          (keeps_migrateFrame _ _ _)
      · exact keeps_colErr (keeps_withBoot h (by rfl)) _ _ _)

theorem keeps_execT1TransparentTest (h : Keeps u s) (col g bad) : KeepsRes u (execT1TransparentTest col g bad s) := by
  unfold execT1TransparentTest
  exact keepsRes_ite (keeps_next h)
    (keepsRes_ite (keeps_next (keeps_mntDefer h _ _))
       (keepsRes_ite (keeps_next (keeps_mntStep h _ _ _))
          (keepsRes_ite (keeps_next (keeps_mntAsk h _ _))
             (keeps_next
                (keeps_mntStep (keeps_foldl (fun _ _ h1 => (keeps_rowFails h1 _ _)) (keeps_scrubGroup (keeps_mntTook h _) _ _))
                   _ _ _)))))

theorem keeps_bondGroupSuspect (h : Keeps u s) (col g octet) : Keeps u (bondGroupSuspect col g octet s) := by
  unfold bondGroupSuspect
  exact keeps_ite (keeps_suspectErr h _ _ _)
    (keeps_ite (keeps_colupd h (fun _ => by rfl))
       (keeps_ite
          (keeps_retireCol
             (keeps_ite (keeps_colupd h (fun _ => by rfl)) (keeps_suspectErr (keeps_colupd h (fun _ => by rfl)) _ _ _)) _)
          (keeps_ite
             (keeps_colupd
                (keeps_ite (keeps_colupd h (fun _ => by rfl)) (keeps_suspectErr (keeps_colupd h (fun _ => by rfl)) _ _ _))
                (fun _ => by rfl))
             (keeps_ite (keeps_colupd h (fun _ => by rfl)) (keeps_suspectErr (keeps_colupd h (fun _ => by rfl)) _ _ _)))))

theorem keeps_execVinCollapse (h : Keeps u s) : KeepsRes u (execVinCollapse s) := by
  unfold execVinCollapse
  exact keeps_next (keeps_withBoot (keeps_railsOff h) (by rfl))

theorem keeps_retireRisk (h : Keeps u s) (p) : Keeps u (retireRisk p s) := by
  unfold retireRisk
  exact keeps_foldl (fun _ _ h1 => (keeps_ite (keeps_retireCol h1 _) h1)) h

theorem keeps_execRowReadDeliver (h : Keeps u s) (x) : KeepsRes u (execRowReadDeliver x s) := by
  unfold execRowReadDeliver
  cases (colget s x.col).inFlight with
  | nil => exact keeps_next h
  | cons r rest =>
    refine keeps_next ?_
    refine keeps_trackPhase ?_ _ _
    refine keeps_deliverRow ?_ _ _ _
    refine keeps_colupd h (fun _ => by rfl)

theorem keeps_releasePart (h : Keeps u s) (p pkt) : Keeps u (releasePart p pkt s) := by
  unfold releasePart
  exact keeps_zeroCheck
    (keeps_pupd
       (keeps_retireRisk
          (keeps_ite
             (keeps_tdiError
                (keeps_foldl (fun _ _ h1 => (keeps_complete h1 _ _ _ _)) (keeps_launchesEnd (keeps_stepEndNow h _ _) _ _)) _)
             (keeps_startZeroing
                (keeps_dropAreas
                   (keeps_tdiError
                      (keeps_foldl (fun _ _ h2 => (keeps_complete h2 _ _ _ _)) (keeps_launchesEnd (keeps_stepEndNow h _ _) _ _))
                      _) _) _)) _) _ _) _

theorem keeps_execPartRelease (h : Keeps u s) (w) : KeepsRes u (execPartRelease w s) := by
  unfold execPartRelease
  exact keeps_runCmd h _ _ _ (fun _ _ h1 => (keeps_ite (keeps_complete h1 _ _ _ _) (keeps_releasePart h1 _ _)))

theorem keeps_execSetLimits (h : Keeps u s) (w) : KeepsRes u (execSetLimits w s) := by
  unfold execSetLimits
  refine keeps_runCmd h _ _ _ fun k s hs => ?_
  have h1 : Keeps u (if payAt k.bytes 0 2 = 0 then (s, false) else writePkgLimit (payAt k.bytes 0 2) false s).1 :=
    keeps_ite_fst hs (keeps_writePkgLimit hs _ _)
  have h2 := fun m tv => keeps_setTowers h1 m tv
  dsimp only
  refine keeps_complete ?_ _ _ _ _
  split
  · exact h1
  · exact h2 _ _

theorem keeps_execBondGroupSuspect (h : Keeps u s) (col group octet) : KeepsRes u (execBondGroupSuspect col group octet s) := by
  unfold execBondGroupSuspect
  exact keepsRes_ite (keeps_next h) (keeps_next (keeps_bondGroupSuspect h _ _ _))

theorem keeps_moveVictim {u : State} (p q i x lh blk e) : KeepsEng u (moveVictim p q i x lh blk e) := by
  unfold moveVictim
  dsimp only
  exact keepsEng_get fun _ h1 =>
    keepsEng_bind (keeps_t1Images _) fun _ =>
      by
        split
        · exact keeps_losePage _ _ _ _ _
        · exact keepsEng_bind (keeps_moveT2 _ _ _ _) fun _ =>
            by
              split
              · exact keepsEng_bind (keepsEng_pure _) fun _ =>
                  by split; exact (keeps_moveStuck _); exact (keeps_moveEntry _ _ _ _ _ _ _ _)
              · exact keepsEng_bind (keeps_moveHost _ _ _ _ _ _) fun _ =>
                  by split; exact (keeps_moveStuck _); exact (keeps_moveEntry _ _ _ _ _ _ _ _)

theorem keeps_execDeviceReset (h : Keeps u s) (w) : KeepsRes u (execDeviceReset w s) := by
  unfold execDeviceReset
  exact keeps_runCmd h _ _ _ (fun _ _ h1 => (keeps_ite (keeps_complete h1 _ _ _ _) (keeps_startBegin (keeps_deviceReset h1) _)))

theorem keeps_execLifecycle (h : Keeps u s) (w obj) : KeepsRes u (execLifecycle w obj s) := by
  unfold execLifecycle
  exact keeps_runCmd h _ _ _
    (fun _ _ h1 =>
       keeps_ite h1
         (keeps_ite (keeps_complete (keeps_freshNonce h1) _ _ _ _)
            (keeps_lifecycleApply (keeps_complete (keeps_freshNonce h1) _ _ _ _) _)))

theorem keeps_execFabricMessageRoute (h : Keeps u s) (src) : KeepsRes u (execFabricMessageRoute src s) := by
  unfold execFabricMessageRoute
  exact keeps_next (keeps_getD (keeps_routeFirst _ _ h) h)

theorem keeps_execResetApply (h : Keeps u s) : KeepsRes u (execResetApply s) := by
  unfold execResetApply
  exact keepsRes_ite (keeps_next h) (keeps_next (keeps_with (keeps_deviceReset h)))

theorem keeps_execStage1 (h : Keeps u s) (f im recs lid dur) : KeepsRes u (execStage1 f im recs lid dur s) := by
  unfold execStage1
  refine keepsRes_ite (keeps_next h) ?_
  have h0 : Keeps u { s with pwr := { s.pwr with lidOpen := lid } } := keeps_withBoot h (by rfl)
  generalize ({ s with pwr := { s.pwr with lidOpen := lid } } : State) = s0 at h0
  have h1 := keeps_readFuses h0 f recs
  dsimp only
  generalize readFuses f recs s0 = s1 at h1
  have hbad := fun {v : State} (hv : Keeps u v) l => keeps_stageEnd hv 1 l false false dur
  refine keepsRes_ite ?_ (keepsRes_ite ?_ (keepsRes_ite ?_ ?_))
  · exact keeps_next (keeps_withBoot (hbad h0 _) (by with_reducible rfl))
  · exact keeps_next (keeps_withBoot (hbad h1 _) (by with_reducible rfl))
  · exact keeps_next (keeps_withBoot (hbad h1 _) (by with_reducible rfl))
  · refine keeps_next (hbad ?_ _)
    refine keeps_loadFuses (keeps_foldl (fun _ _ k => keeps_forgetTower k _) ?_)
    refine keeps_withBoot (h := ?_) (by with_reducible rfl)
    refine keeps_rset (keeps_rset (keeps_iter (fun _ _ k => keeps_rset k _ _) ?_) _ _) _ _
    refine keeps_rset (keeps_rset (keeps_freshNonce (keeps_bootDebug ?_)) _ _) _ _
    exact keeps_withBoot h1 (by rfl)

theorem keeps_execBondRecalibration (h : Keeps u s) (col lanes) : KeepsRes u (execBondRecalibration col lanes s) := by
  unfold execBondRecalibration
  exact keepsRes_ite (keeps_next h)
    (keepsRes_ite (keeps_next (keeps_mntDefer h _ _)) (keeps_next (keeps_mntStep (keeps_columnRetrain h _ _ _) _ _ _)))

theorem keeps_of_t2Get (h : Keeps u s) (p slot version) : ∀ r, r = t2Get p slot version s → Keeps u r.2 := by
  intro r hr
  rw [t2Get] at hr
  have hload := fun s h a n tx => @keeps_t2Load u s h a n tx
  obtain ⟨load, hl⟩ : ∃ f, f = t2Load := ⟨_, rfl⟩
  rw [← hl] at hr hload
  split at hr
  rename_i hr1
  split at hr
  rename_i hr2
  have h3 := Keeps_snd (hload _ (Keeps_snd (hload _ h _ _ _) hr1) _ _ _) hr2
  split at hr
  · rw [hr]; exact h3
  · split at hr
    · split at hr
      · rw [hr]; exact keeps_glzFail h3 _ _
      · split at hr
        · rw [hr]; exact keeps_logErr (keeps_rupd h3 _ _) _
        · rw [hr]; exact h3
    · rw [hr]; exact h3

theorem keeps_t2Get (h : Keeps u s) (p slot version) : Keeps u (t2Get p slot version s).2 :=
  keeps_of_t2Get h _ _ _ _ rfl

theorem keeps_jobStart (h : Keeps u s) (p j) : Keeps u (jobStart p j s) := by
  rw [jobStart]
  split
  · split
    rename_i hr
    exact keeps_jobDone (Keeps_snd (keeps_t2Get h _ _ _) hr) _ _ _
  · exact keeps_iter (fun _ _ k => keeps_hostRead k _ _ _ _) (keeps_hostRead h _ _ _ _)

theorem keeps_jobsStart : ∀ {s}, Keeps u s → ∀ p a, Keeps u (jobsStart p a s)
  | _, h, _, [] => by
    rw [jobsStart]
    exact h
  | _, h, _, (j :: r) => by
    rw [jobsStart]
    split
    · exact keeps_ite h (keeps_jobsStart (keeps_jobStart h _ _) _ _)
    · exact h

theorem keeps_scrubUnit (h : Keeps u s) (i) : Keeps u (scrubUnit i s) := by
  rw [scrubUnit]
  split
  rename_i hr
  have h2 := Keeps_snd (keeps_t2Link h _ _ _) hr
  exact keeps_tallyHub (keeps_tallyHub (keeps_foldl (fun _ _ k => keeps_logErr k _) (keeps_with h2)) _ _ _ _) _ _ _ _

theorem keeps_execPatrolScrubT2 (h : Keeps u s) (a0) : KeepsRes u (execPatrolScrubT2 a0 s) := by
  unfold execPatrolScrubT2
  exact keepsRes_ite (keeps_next h)
    (keepsRes_ite (keeps_next (keeps_mntDefer h _ _))
       (keepsRes_ite (keeps_next (keeps_t2Ask h _ _)) (keeps_next (keeps_mntStep (keeps_scrubUnit (keeps_t2Took h _) _) _ _ _))))

theorem keeps_execSwapIn (h : Keeps u s) (w) : KeepsRes u (execSwapIn w s) := by
  unfold execSwapIn
  dsimp only
  split
  · exact keeps_next h
  · exact keepsRes_ite (keeps_next h)
      (keeps_runCmd h _ _ _
         (fun _ _ h1 =>
            by
              split
              · exact keeps_complete h1 _ _ _ _
              · rename_i e2
                exact by
                  split
                  · exact keeps_swapFinish (keeps_jobsStart (keeps_dropReads ((keeps_swapAdmit _ _ _) _ _ _ h1 e2) _) _ _) _
                  · exact (keeps_swapAdmit _ _ _) _ _ _ h1 e2))

theorem keeps_t2Images (p e) : KeepsEng u (t2Images p e) := by
  unfold t2Images
  refine keepsEng_bind (keeps_engMap (fun i => keepsEng_get fun v hv => ?_) _) fun _ => keepsEng_pure _
  split
  rename_i hr
  exact keepsEng_bind (keepsEng_set (Keeps_snd (keeps_t2Get hv _ _ _) hr)) fun _ => keepsEng_pure _

theorem keeps_moveOn {u : State} (p q i x lh blk e) : KeepsEng u (moveOn p q i x lh blk e) := by
  unfold moveOn
  exact keepsEng_bind (keeps_t2Images _ _) fun _ =>
    by
      split
      · exact keepsEng_ite
          (keepsEng_bind (keeps_entriesWith _ _ _ _) fun _ => (keepsEng_ite (keeps_autoCommit _) (keepsEng_pure _)))
          (keepsEng_bind (keeps_losePage _ _ _ _ _) fun _ =>
             keepsEng_bind (keeps_entriesWith _ _ _ _) fun _ => keepsEng_ite (keeps_autoCommit _) (keepsEng_pure _))
      · exact keepsEng_bind (keeps_moveHost _ _ _ _ _ _) fun _ =>
          by
            split
            · exact keepsEng_bind (keeps_moveStuck _) fun _ =>
                keepsEng_bind (keeps_entriesWith _ _ _ _) fun _ => keepsEng_ite (keeps_autoCommit _) (keepsEng_pure _)
            · exact keepsEng_bind (keeps_moveEntry _ _ _ _ _ _ _ _) fun _ =>
                keepsEng_bind (keeps_entriesWith _ _ _ _) fun _ => keepsEng_ite (keeps_autoCommit _) (keepsEng_pure _)

theorem keeps_movePage {u : State} (p q lh blk) : KeepsEng u (movePage p q lh blk) := by
  unfold movePage
  exact keepsEng_bind (keeps_editCtx _) fun _ =>
    keepsEng_ite
      (keepsEng_bind (keepsEng_fail _) fun _ =>
         keepsEng_bind (keeps_needSeq _ _ _) fun _ =>
           keepsEng_bind (keeps_getBld _ _ _ _ _) fun _ =>
             keepsEng_get fun _ h1 =>
               keepsEng_ite
                 (keepsEng_ite (keepsEng_bind (keeps_moveVictim _ _ _ _ _ _ _) fun _ => (keeps_endVictim _ _ _))
                    (keeps_endVictim _ _ _))
                 (keepsEng_ite
                    (keepsEng_bind (keeps_liveSeqs _) fun _ =>
                       keepsEng_bind
                         (keeps_engMap
                            (fun _ =>
                               keepsEng_ite (keepsEng_pure _)
                                 (keepsEng_bind (keeps_entriesWith _ _ _ _) fun _ => (keepsEng_pure _))) _) fun _ =>
                         by split; exact (keepsEng_ite (keeps_moveOn _ _ _ _ _ _ _) (keepsEng_pure _)); exact (keepsEng_pure _))
                    (keepsEng_pure _)))
      (keepsEng_bind (keeps_needSeq _ _ _) fun _ =>
         keepsEng_bind (keeps_getBld _ _ _ _ _) fun _ =>
           keepsEng_get fun _ h2 =>
             keepsEng_ite
               (keepsEng_ite (keepsEng_bind (keeps_moveVictim _ _ _ _ _ _ _) fun _ => (keeps_endVictim _ _ _))
                  (keeps_endVictim _ _ _))
               (keepsEng_ite
                  (keepsEng_bind (keeps_liveSeqs _) fun _ =>
                     keepsEng_bind
                       (keeps_engMap
                          (fun _ =>
                             keepsEng_ite (keepsEng_pure _)
                               (keepsEng_bind (keeps_entriesWith _ _ _ _) fun _ => (keepsEng_pure _))) _) fun _ =>
                       by split; exact (keepsEng_ite (keeps_moveOn _ _ _ _ _ _ _) (keepsEng_pure _)); exact (keepsEng_pure _))
                  (keepsEng_pure _)))

theorem keeps_execPageMoveOut (h : Keeps u s) (p q lh blk) : KeepsRes u (execPageMoveOut p q lh blk s) := by
  unfold execPageMoveOut
  exact keeps_next (keeps_engRun h (keeps_movePage _ _ _ _))

theorem keeps_streamSend (h : Keeps u s) (k i) : Keeps u (streamSend k i s) := by
  unfold streamSend
  have h0 := keeps_strmWord h k i 0
  dsimp only
  generalize strmWord k i 0 s = r at h0
  refine keeps_ite (keeps_with h0) (keeps_ite h0 ?_)
  split
  · exact keeps_agentRefuse h0 _ _ _
  · have h1 := fun off => keeps_csReadBytes h0 k off 64
    split
    · exact keeps_strmNext (keeps_strmFail (h1 _) _ _ _) _ _ _
    · refine keeps_ite (keeps_strmNext (keeps_strmFail (h1 _) _ _ _) _ _ _) (keeps_ite h0 ?_)
      have h2 := fun off len => keeps_slotData (h1 (slotOff r.2 k i (strmIdx s k i))) k off len
      refine keeps_strmCount (keeps_post (keeps_strmNext ?_ _ _ _) _) _ _
      exact keeps_ite (h2 _ _) (keeps_with (h2 _ _))

theorem keeps_execStreamSend (h : Keeps u s) (k i) : KeepsRes u (execStreamSend k i s) := by
  unfold execStreamSend
  exact keeps_next (keeps_ite (keeps_streamSend h _ _) h)

theorem keeps_exec (h : Keeps u s) (i) : KeepsRes u (exec i s) := by
  unfold exec
  split
  · exact keeps_execRegisterWrite h _ _ _
  · exact keeps_execConfigRequest h _ _
  · exact keeps_execBar2Read h _ _
  · exact keeps_execBar2Write h _ _
  · exact keeps_execVauxUp h
  · exact keeps_execInputSwitchClose h
  · exact keeps_execVinUndervoltage h
  · exact keeps_execVinRecover h
  · exact keeps_execVinCollapse h
  · exact keeps_execVinLoss h
  · exact keeps_execReverseCurrent h
  · exact keeps_execReverseInput h
  · exact keeps_execClkmonWindow h _ _
  · exact keeps_execClockStopped h _ _
  · exact keeps_execGovernorRiseTick h _
  · exact keeps_execGovernorFallTick h _
  · exact keeps_execPowerLoopTick h _ _
  · exact keeps_execComparatorDecrement h _ _
  · exact keeps_execPbrkAssert h
  · exact keeps_execPbrkDeassert h
  · exact keeps_execBrakeRelease h
  · exact keeps_execBrakeFwReq h _
  · exact keeps_execPkgLimitWrite h _
  · exact keeps_execTwrLimitWrite h _ _
  · exact keeps_execRampCtlWrite h _
  · exact keeps_execSlotmapWrite h _ _ _
  · exact keeps_execPwrProfileWrite h _ _
  · exact keeps_execBankGroupReady h _
  · exact keeps_execUniRegionWrite h _ _ _
  · exact keeps_execUnifiedWrite h _ _
  · exact keeps_execNarrowWriteBack h _
  · exact keeps_execClusterSramAccess h _ _ _ _ _
  · exact keeps_execBankAtomic h _ _ _ _ _ _
  · exact keeps_execQueuedAtomic h _ _
  · exact keeps_execWload h _
  · exact keeps_execStream h _ _
  · exact keeps_execEwise h _ _
  · exact keeps_execAccload h _
  · exact keeps_execDrain h _
  · exact keeps_execMxeCommandStart h _
  · exact keeps_execShadowPromote h _
  · exact keeps_execMxeCommandFinish h _ _
  · exact keeps_execMxeCommandRetire h _
  · exact keeps_execNop h _
  · exact keeps_execHalt h _
  · exact keeps_execTrap h _
  · exact keeps_execTret h _
  · exact keeps_execTabort h _
  · exact keeps_execAdd h _
  · exact keeps_execSub h _
  · exact keeps_execAnd h _
  · exact keeps_execOr h _
  · exact keeps_execXor h _
  · exact keeps_execShl h _
  · exact keeps_execShr h _
  · exact keeps_execSra h _
  · exact keeps_execMul h _
  · exact keeps_execMin h _
  · exact keeps_execMax h _
  · exact keeps_execSlt h _
  · exact keeps_execSltu h _
  · exact keeps_execCeq h _
  · exact keeps_execAddi h _
  · exact keeps_execAndi h _
  · exact keeps_execOri h _
  · exact keeps_execXori h _
  · exact keeps_execShli h _
  · exact keeps_execShri h _
  · exact keeps_execSrai h _
  · exact keeps_execCeqi h _
  · exact keeps_execLd h _
  · exact keeps_execSt h _
  · exact keeps_execLdc h _ _
  · exact keeps_execStc h _ _
  · exact keeps_execAaddc h _
  · exact keeps_execAswpc h _
  · exact keeps_execAmov h _
  · exact keeps_execAadd h _
  · exact keeps_execAaddr h _
  · exact keeps_execAget h _
  · exact keeps_execBeq h _
  · exact keeps_execBne h _
  · exact keeps_execBlt h _
  · exact keeps_execBge h _
  · exact keeps_execBltu h _
  · exact keeps_execBgeu h _
  · exact keeps_execJmp h _
  · exact keeps_execJal h _
  · exact keeps_execJr h _
  · exact keeps_execBbusy h _
  · exact keeps_execTkwait h _
  · exact keeps_execTkwaitSatisfied h _
  · exact keeps_execTkadd h _
  · exact keeps_execTkset h _
  · exact keeps_execTkrd h _
  · exact keeps_execDisp h _
  · exact keeps_execMovclr h _
  · exact keeps_execMovst h _
  · exact keeps_execCbar h _
  · exact keeps_execCbarPoll h _
  · exact keeps_execGbar h _
  · exact keeps_execGbarRelease h _ _
  · exact keeps_execCsrr h _
  · exact keeps_execCsrw h _
  · exact keeps_execTrapTake h _
  · exact keeps_execWaitTimeout h _
  · exact keeps_execCoreHalted h _
  · exact keeps_execSeqStart h _ _
  · exact keeps_execHaltReq h _ _
  · exact keeps_execLoadGo h _ _
  · exact keeps_execLoadPathDone h _
  · exact keeps_execVld h _
  · exact keeps_execVst h _
  · exact keeps_execVadd h _
  · exact keeps_execVsub h _
  · exact keeps_execVmul h _
  · exact keeps_execVfma h _
  · exact keeps_execVmax h _
  · exact keeps_execVmin h _
  · exact keeps_execVcmpgt h _
  · exact keeps_execVsel h _
  · exact keeps_execVabs h _
  · exact keeps_execVneg h _
  · exact keeps_execVmove h _
  · exact keeps_execVexp h _
  · exact keeps_execVexp2 h _
  · exact keeps_execVrcp h _
  · exact keeps_execVrsq h _
  · exact keeps_execRmax h _
  · exact keeps_execRsum h _
  · exact keeps_execArgmax h _
  · exact keeps_execQmx h _
  · exact keeps_execRng h _
  · exact keeps_execVxeCommandRetire h _
  · exact keeps_execMovCopy h _ _ _
  · exact keeps_execMovFill h _ _ _
  · exact keeps_execMovDescriptorStart h _ _
  · exact keeps_execMovDescriptorRetire h _ _
  · exact keeps_execMovChHaltWrite h _ _ _
  · exact keeps_execRemoteWrite h _
  · exact keeps_execRemoteRefusal h _
  · exact keeps_execRowReadIssue h _ _ _
  · exact keeps_execRowReadDeliver h _
  · exact keeps_execWriteCombineAccept h _ _ _ _
  · exact keeps_execRowWriteIssue h _ _ _ _
  · exact keeps_execBondGroupSuspect h _ _ _
  · exact keeps_execMigrationComplete h _
  · exact keeps_execRefreshIntervalTick h _
  · exact keeps_execRefreshIssue h _ _
  · exact keeps_execRefreshCtlWrite h _ _
  · exact keeps_execQload h _
  · exact keeps_execScore h _ _ _
  · exact keeps_execEmit h _
  · exact keeps_execNbuCopy h _
  · exact keeps_execRequant h _
  · exact keeps_execNbuCommandStart h _
  · exact keeps_execNbuCommandRetire h _
  · exact keeps_execTier1Atomic h _ _ _ _
  · exact keeps_execChainWaitLimit h _
  · exact keeps_execCreate h _ _
  · exact keeps_execFork h _ _
  · exact keeps_execReserve h _ _
  · exact keeps_execTruncate h _ _
  · exact keeps_execRelease h _ _
  · exact keeps_execSetprio h _ _
  · exact keeps_execSethead h _ _
  · exact keeps_execCommit h _
  · exact keeps_execSetPolicy h _
  · exact keeps_execSwapIn h _
  · exact keeps_execSeqQuery h _
  · exact keeps_execGenerationSwitch h _
  · exact keeps_execPreemptVictim h _ _
  · exact keeps_execPageMoveOut h _ _ _ _
  · exact keeps_execStepStart h _
  · exact keeps_execWalkSegmentWrite h _ _ _ _
  · exact keeps_execStepRetire h _ _
  · exact keeps_execStepLimitExpiry h _
  · exact keeps_execT2Access h _ _ _
  · exact keeps_execT2DriftCheck h _ _
  · exact keeps_execRequestIssue h _ _ _ _ _ _ _
  · exact keeps_execTargetAdmit h _ _ _
  · exact keeps_execGrant h _
  · exact keeps_execGrantLapse h _
  · exact keeps_execRetryReissue h _
  · exact keeps_execRouteTableLoad h
  · exact keeps_execMapCommit h _
  · exact keeps_execCoreOtWrite h _ _
  · exact keeps_execCommandWindowWrite h _ _ _
  · exact keeps_execWindowReset h _
  · exact keeps_execD3hotEntry h _
  · exact keeps_execD0Entry h _
  · exact keeps_execVfFlr h _
  · exact keeps_execPfFlr h
  · exact keeps_execHotReset h
  · exact keeps_execLinkDown h
  · exact keeps_execDeviceStatus h _
  · exact keeps_execDeviceReset h _
  · exact keeps_execSetLimits h _
  · exact keeps_execPartCreate h _
  · exact keeps_execPartRelease h _
  · exact keeps_execPartLock h _
  · exact keeps_execPartQuery h _
  · exact keeps_execPartReadmit h _
  · exact keeps_execMemWrite h _
  · exact keeps_execDmaIn h _
  · exact keeps_execDmaOut h _
  · exact keeps_execModelLoad h _
  · exact keeps_execDirRegister h _ _
  · exact keeps_execDirWithdraw h _
  · exact keeps_execAttRegister h _
  · exact keeps_execT2poolRegister h _
  · exact keeps_execT2poolWithdraw h _
  · exact keeps_execSwapRegister h _
  · exact keeps_execSwapWithdraw h _
  · exact keeps_execStepLaunch h _
  · exact keeps_execStepCancel h _
  · exact keeps_execMntStart h _
  · exact keeps_execMntStop h _
  · exact keeps_execMntQuery h _
  · exact keeps_execDieRejoin h _ _
  · exact keeps_execHubReset h _
  · exact keeps_execLogAck h _
  · exact keeps_execSnapshot h _
  · exact keeps_execTelemCfg h _
  · exact keeps_execCounterCfg h _
  · exact keeps_execKeyRotate h _
  · exact keeps_execFwStage h _ _
  · exact keeps_execLifecycle h _ _
  · exact keeps_execAttestGet h _ _
  · exact keeps_execFabPort h _
  · exact keeps_execFabRole h _
  · exact keeps_execFabRoute h _
  · exact keeps_execFabQuery h _
  · exact keeps_execFlitReceive h _ _ _ _
  · exact keeps_execPortRetrain h _
  · exact keeps_execPortRetrainDone h _ _ _
  · exact keeps_execWavelengthBerCheck h _ _ _
  · exact keeps_execLossOfLight h _
  · exact keeps_execLightRestored h _
  · exact keeps_execLaserCheckPulse h _
  · exact keeps_execHeartbeatSend h
  · exact keeps_execHeartbeatAnswer h _
  · exact keeps_execChildLost h _ _
  · exact keeps_execOrphan h
  · exact keeps_execFabricMessageRoute h _
  · exact keeps_execChannelStall h _ _
  · exact keeps_execStreamNotice h _ _
  · exact keeps_execStreamSend h _ _
  · exact keeps_execPutDeliver h _
  · exact keeps_execReduceContribution h _
  · exact keeps_execReduceContextTimeout h _ _
  · exact keeps_execStreamValidWrite h _ _ _
  · exact keeps_execRstNAssert h
  · exact keeps_execResetApply h
  · exact keeps_execRstNRelease h
  · exact keeps_execStage0 h _ _ _
  · exact keeps_execStage1 h _ _ _ _ _
  · exact keeps_execStage2 h _ _ _ _
  · exact keeps_execStage3 h _ _
  · exact keeps_execStage4 h _
  · exact keeps_execStage5 h _
  · exact keeps_execStage6 h _
  · exact keeps_execStage7 h _ _
  · exact keeps_execStage8 h _ _
  · exact keeps_execStage9 h _ _
  · exact keeps_execStageTimeLimit h _
  · exact keeps_execColumnRetrain h _ _
  · exact keeps_execColumnRetrainDone h _ _
  · exact keeps_execBridgeLiveRetrain h _ _
  · exact keeps_execBridgeRetrainDone h _ _ _
  · exact keeps_execHotspotSample h _ _
  · exact keeps_execHousekeepingRound h _ _
  · exact keeps_execKilnSitterTrip h _ _ _ _
  · exact keeps_execKilnLastClear h _
  · exact keeps_execCanaryCheck h _ _
  · exact keeps_execRthWindow h _
  · exact keeps_execCoolWarnRepeat h
  · exact keeps_execCoolWarnClear h
  · exact keeps_execFlowLost h _ _
  · exact keeps_execFlowPresent h _
  · exact keeps_execPatrolScrubT1 h _ _
  · exact keeps_execPatrolScrubT2 h _
  · exact keeps_execSpTransparentTest h _ _ _
  · exact keeps_execT1TransparentTest h _ _ _
  · exact keeps_execOpticalRecalibration h _
  · exact keeps_execBondRecalibration h _ _
  · exact keeps_execBridgeRecalibration h _
  · exact keeps_execSensorCalibration h _ _ _
  · exact keeps_execWearTracking h _
  · exact keeps_execTelemetryRound h
  · exact keeps_execRekeySweep h _ _ _ _
  · exact keeps_execPartitionZeroing h _
  · exact keeps_execFrameZeroing h _
  · exact keeps_execMaintPassLate h _ _
  · exact keeps_execMntPeriodWrite h _ _
  · exact keeps_execTowerManagerWatchdog h _
  · exact keeps_execMpWatchdog h _
  · exact keeps_execGetVersion h
  · exact keeps_execGetCapabilities h
  · exact keeps_execNegotiateAlgorithms h _
  · exact keeps_execGetDigests h
  · exact keeps_execGetCertificate h _ _ _
  · exact keeps_execChallenge h _ _
  · exact keeps_execGetMeasurements h _ _
  · exact keeps_execKeyExchange h _
  · exact keeps_execFinish h _
  · exact keeps_execKeyUpdate h _
  · exact keeps_execHeartbeat h _
  · exact keeps_execEndSession h _
  · exact keeps_execIdeKm h _ _ _
  · exact keeps_execGetDeviceInterfaceReport h _
  · exact keeps_execLockInterfaceRequest h _
  · exact keeps_execStartInterfaceRequest h _
  · exact keeps_execStopInterfaceRequest h _
  · exact keeps_execIdeIntegrityFailure h _
  · exact keeps_execTamperEvent h _
  · exact keeps_execTamperZeroingDone h
  · exact keeps_execSnapshotSnap h
  · exact keeps_execSnapshotFreeze h
  · exact keeps_execSnapshotUnfreeze h
  · exact keeps_execSnapshotLatch h _ _
  · exact keeps_execSnapshotComplete h
  · exact keeps_execTelemHeadWrite h _
  · exact keeps_execSmbusReadByte h _
  · exact keeps_execSmbusBlockRead h _ _
  · exact keeps_execSmbusWrite h _ _
  · exact keeps_execSmbusMirrorRefresh h
  · exact keeps_execVauxDown h
  · exact keeps_execHostLinkUp h _ _
  · exact keeps_execT2Refresh h _
  · exact keeps_execHubRejoin h _ _
  · exact keeps_execResponseReceive h _
  · exact keeps_execHostReadCompletion h _ _

end Sys2Proof.Machine
end

section
/-! A step on the queue of commands and on an empty one (O27, O28), and what every step keeps (O30, O31). -/

namespace Sys2Proof.Machine

theorem step_of_pending_nil {s : State} (h : s.pending = []) : step s = .next (idleTick s) := by
  unfold step
  rw [h]

theorem step_of_pending_cons {s : State} {c rest} (h : s.pending = c :: rest) : step s = exec c { s with pending := rest } := by
  unfold step
  rw [h]

/-- A step keeps the queue behind its front command, the canonical memories and the write-combining entries. -/
theorem keeps_step {s t : State} (h : step s = .next t) : Keeps { s with pending := s.pending.tail } t := by
  cases hp : s.pending with
  | nil =>
    rw [step_of_pending_nil hp] at h
    rw [← Host.Outcome.next.inj h]
    exact keeps_idleTick (s := s) ⟨hp, id, id⟩
  | cons c rest =>
    rw [step_of_pending_cons hp] at h
    exact keeps_exec (keeps_refl _) c _ h

theorem countTime_of_no_timeCtr {s : State} (h : s.ctrs.any (timeCtr s) = false) : countTime s = s := by
  unfold countTime
  simp [h]

theorem reloadStep_of_nil {s : State} (h : s.reload = []) : reloadStep s = s := by
  unfold reloadStep
  rw [h]

theorem idleTick_of_stopped {s : State} (h : s.pwr.refOk = false ∨ nsHas s.pwr.rails 0 = false) : idleTick s = s := by
  unfold idleTick
  rcases h with h | h <;> simp [h]

end Sys2Proof.Machine

open Sys2Proof.Machine

/-- Settles O30: `Keeps` holds of every step. -/
theorem memoriesStayCanonical : Obligations.MemoriesStayCanonical :=
  ⟨fun _ _ h e => (keeps_step e).2.1 h, fun _ _ h e => (keeps_step e).2.2 h⟩

/-- Settles O31: no command touches the queue behind it. -/
theorem queueFirstInFirstOut : Obligations.QueueFirstInFirstOut := by
  intro c rest s t h e
  have hq := (keeps_step e).1
  rw [hq, h]
  rfl

/-- Settles O27, by the definition of a step. -/
theorem stepRunsFrontCommand : Obligations.StepRunsFrontCommand :=
  fun _ _ _ h => step_of_pending_cons h

/-- Settles O28: a step on an empty queue is `idleTick`. -/
theorem emptyQueueIdles : Obligations.EmptyQueueIdles := by
  intro s h
  refine ⟨idleTick s, step_of_pending_nil h, fun hr hn hc hk hp => ?_, idleTick_of_stopped⟩
  have hc' : countTime { s with ns := s.ns + 10 } = { s with ns := s.ns + 10 } := countTime_of_no_timeCtr hc
  have hn' : notesDue { s with ns := s.ns + 10 } = false := hn
  unfold idleTick
  simp only [hk, hp, Bool.and_self, if_true, hc', hn', Bool.false_eq_true, if_false]
  exact reloadStep_of_nil hr
end

section
/-! Fields of register words, bit by bit. -/

namespace Sys2Proof.Machine

theorem bitAt_eq_testBit (w i : Nat) : bitAt w i = w.testBit i := by
  rw [bitAt, Nat.testBit_eq_decide_div_mod_eq, Nat.shiftRight_eq_div_pow]
  rfl

theorem testBit_fld (w hi lo i : Nat) : (fld w hi lo).testBit i = (decide (i < hi + 1 - lo) && w.testBit (lo + i)) := by
  rw [fld, Nat.testBit_mod_two_pow, Nat.testBit_shiftRight]

theorem fld_lt (w hi lo : Nat) : fld w hi lo < 2 ^ (hi + 1 - lo) := Nat.mod_lt _ (Nat.two_pow_pos _)

/-- A number is what lies above a field, the field, and what lies below it. -/
theorem split_fld (w : Nat) {hi lo : Nat} (h : lo ≤ hi) :
    w = w / 2 ^ (hi + 1) * 2 ^ (hi + 1) + fld w hi lo * 2 ^ lo + w % 2 ^ lo := by
  have hpow : 2 ^ (hi + 1) = 2 ^ (hi + 1 - lo) * 2 ^ lo := by rw [← Nat.pow_add]; congr 1; omega
  have hlow := Nat.div_add_mod w (2 ^ lo)
  have hfld := Nat.div_add_mod (w / 2 ^ lo) (2 ^ (hi + 1 - lo))
  rw [Nat.div_div_eq_div_mul, Nat.mul_comm (2 ^ lo), ← hpow, ← fld_eq_div_mod] at hfld
  calc w = 2 ^ lo * (2 ^ (hi + 1 - lo) * (w / 2 ^ (hi + 1)) + fld w hi lo) + w % 2 ^ lo := by rw [hfld, hlow]
    _ = _ := by rw [hpow]; ring

theorem putFld_eq (w v : Nat) {hi lo : Nat} (h : lo ≤ hi) :
    putFld w hi lo v = w / 2 ^ (hi + 1) * 2 ^ (hi + 1) + v % 2 ^ (hi + 1 - lo) * 2 ^ lo + w % 2 ^ lo := by
  have hsplit := split_fld w h
  rw [putFld]
  omega

theorem testBit_putFld (w v i : Nat) {hi lo : Nat} (h : lo ≤ hi) :
    (putFld w hi lo v).testBit i = if lo ≤ i ∧ i ≤ hi then v.testBit (i - lo) else w.testBit i := by
  have hpow : 2 ^ (hi + 1) = 2 ^ lo * 2 ^ (hi + 1 - lo) := by rw [← Nat.pow_add]; congr 1; omega
  have hshape : putFld w hi lo v = 2 ^ lo * (2 ^ (hi + 1 - lo) * (w / 2 ^ (hi + 1)) + v % 2 ^ (hi + 1 - lo)) + w % 2 ^ lo := by
    rw [putFld_eq w v h, hpow]
    ring
  rw [hshape, Nat.testBit_two_pow_mul_add _ (Nat.mod_lt _ (Nat.two_pow_pos _)),
    Nat.testBit_two_pow_mul_add _ (Nat.mod_lt _ (Nat.two_pow_pos _)), Nat.testBit_mod_two_pow, Nat.testBit_mod_two_pow,
    Nat.testBit_div_two_pow]
  by_cases hlo : i < lo
  · simp [hlo, Nat.not_le.mpr hlo]
  · by_cases hhi : i ≤ hi
    · simp [hlo, hhi, Nat.not_lt.mp hlo, show i - lo < hi + 1 - lo by omega]
    · simp [hlo, hhi, show ¬(i - lo < hi + 1 - lo) by omega, show i - lo - (hi + 1 - lo) + (hi + 1) = i by omega]

theorem putFld_lt {w v hi lo n : Nat} (hw : w < 2 ^ n) (hhi : hi < n) (hlo : lo ≤ hi) : putFld w hi lo v < 2 ^ n := by
  refine Nat.lt_pow_two_of_testBit _ fun i hi' => ?_
  rw [testBit_putFld _ _ _ hlo, if_neg (by omega)]
  exact Nat.testBit_lt_two_pow (Nat.lt_of_lt_of_le hw (Nat.pow_le_pow_right (by decide) hi'))

theorem toNat_wPut (w : Word) (v : Nat) {hi lo : Nat} (hhi : hi < 32) (hlo : lo ≤ hi) :
    (wPut w hi lo v).toNat = putFld w.toNat hi lo v := by
  rw [wPut, BitVec.toNat_ofNat, Nat.mod_eq_of_lt (putFld_lt w.isLt hhi hlo)]

theorem wBit_eq_testBit (w : Word) (i : Nat) : wBit w i = w.toNat.testBit i := bitAt_eq_testBit _ _

theorem wBit_wPut (w : Word) (v i : Nat) {hi lo : Nat} (hhi : hi < 32) (hlo : lo ≤ hi) :
    wBit (wPut w hi lo v) i = if lo ≤ i ∧ i ≤ hi then v.testBit (i - lo) else wBit w i := by
  rw [wBit_eq_testBit, wBit_eq_testBit, toNat_wPut _ _ hhi hlo, testBit_putFld _ _ _ hlo]

theorem testBit_wFld (w : Word) (hi lo i : Nat) : (wFld w hi lo).testBit i = (decide (i < hi + 1 - lo) && wBit w (lo + i)) := by
  rw [wFld, testBit_fld, wBit_eq_testBit]

/-- A field of which no bit was replaced. -/
theorem wFld_wPut_disjoint (w : Word) (v : Nat) {hi lo hi' lo' : Nat} (hhi : hi < 32) (hlo : lo ≤ hi)
    (hdis : hi < lo' ∨ hi' < lo) : wFld (wPut w hi lo v) hi' lo' = wFld w hi' lo' := by
  refine Nat.eq_of_testBit_eq fun i => ?_
  rw [testBit_wFld, testBit_wFld, wBit_wPut _ _ _ hhi hlo]
  by_cases h : i < hi' + 1 - lo'
  · rw [if_neg (by omega)]
  · simp [h]

end Sys2Proof.Machine
end

section
/-! The scalar instructions of SEQ (O1, O2): one law for each instruction format, and the arithmetic that Table TILE.4 names. -/

namespace Sys2Proof.Machine

/-! ## Formats -/

theorem scalarOp_next {i : Fin 4352 → Instr} {op : Nat} {v : State → Nat → Nat → Word}
    (h : ∀ c s, exec (i c) s = .next (seqStep c op [0] (fun w s => seqNext c 1 (xSet c (inXD w) (v s c w) s)) s)) :
    scalarOp i op v := by
  intro c w s u hi
  refine ⟨_, ?_, scalarDone_seqNext c (inXD w) 1 _ u⟩
  rw [h, seqStep_issues hi]

theorem formR_of_seqR {i : Fin 4352 → Instr} {op : Nat} {f g : Word → Word → Word} (h : ∀ c s, exec (i c) s = .next (seqR c op f s))
    (hf : ∀ a b, f a b = g a b) : formR i op g := by
  obtain rfl : f = g := funext fun a => funext fun b => hf a b
  exact scalarOp_next h

theorem formI_of_seqI {i : Fin 4352 → Instr} {op : Nat} {f g : Word → Word → Word} (h : ∀ c s, exec (i c) s = .next (seqI c op f s))
    (hf : ∀ a b, f a b = g a b) : formI i op g := by
  obtain rfl : f = g := funext fun a => funext fun b => hf a b
  exact scalarOp_next h

/-! ## Arithmetic -/

theorem shiftLeft_shAmt (a b : Word) : a <<< shAmt b = BitVec.ofNat 32 (a.toNat * 2 ^ (b.toNat % 32)) := by
  apply BitVec.eq_of_toNat_eq
  rw [BitVec.toNat_shiftLeft, BitVec.toNat_ofNat, Nat.shiftLeft_eq]
  rfl

theorem ushiftRight_shAmt (a b : Word) : a >>> shAmt b = BitVec.ofNat 32 (a.toNat / 2 ^ (b.toNat % 32)) := by
  apply BitVec.eq_of_toNat_eq
  rw [BitVec.toNat_ushiftRight, BitVec.toNat_ofNat, Nat.shiftRight_eq_div_pow,
    Nat.mod_eq_of_lt (Nat.lt_of_le_of_lt (Nat.div_le_self _ _) a.isLt)]
  rfl

theorem sshiftRight_shAmt (a b : Word) : a.sshiftRight (shAmt b) = BitVec.ofInt 32 (a.toInt / 2 ^ (b.toNat % 32)) := by
  rw [BitVec.sshiftRight, Int.shiftRight_eq_div_pow, shAmt, Nat.cast_pow, Nat.cast_ofNat]

theorem mul_eq (a b : Word) : a * b = BitVec.ofNat 32 (a.toNat * b.toNat) :=
  BitVec.eq_of_toNat_eq (by rw [BitVec.toNat_mul, BitVec.toNat_ofNat])

theorem boolW_eq {p : Bool} {q : Prop} [Decidable q] (h : p = true ↔ q) : boolW p = if q then 1 else 0 := by
  by_cases hq : q <;> simp [boolW, h, hq]

theorem boolW_slt (a b : Word) : boolW (a.slt b) = if a.toInt < b.toInt then 1 else 0 := boolW_eq BitVec.slt_iff_toInt_lt

theorem boolW_ult (a b : Word) : boolW (a.ult b) = if a.toNat < b.toNat then 1 else 0 := boolW_eq BitVec.ult_iff_toNat_lt

theorem boolW_beq (a b : Word) : boolW (a == b) = if a = b then 1 else 0 := boolW_eq beq_iff_eq

theorem min_eq (a b : Word) : (if a.slt b then a else b) = if a.toInt ≤ b.toInt then a else b := by
  rcases lt_trichotomy a.toInt b.toInt with h | h | h
  · rw [if_pos (BitVec.slt_iff_toInt_lt.mpr h), if_pos h.le]
  · rw [BitVec.eq_of_toInt_eq h, ite_self, ite_self]
  · rw [if_neg (by rw [BitVec.slt_iff_toInt_lt]; omega), if_neg (by omega)]

theorem max_eq (a b : Word) : (if a.slt b then b else a) = if a.toInt ≤ b.toInt then b else a := by
  rcases lt_trichotomy a.toInt b.toInt with h | h | h
  · rw [if_pos (BitVec.slt_iff_toInt_lt.mpr h), if_pos h.le]
  · rw [BitVec.eq_of_toInt_eq h, ite_self, ite_self]
  · rw [if_neg (by rw [BitVec.slt_iff_toInt_lt]; omega), if_neg (by omega)]

end Sys2Proof.Machine

open Sys2Proof.Machine

/-- Settles O1: each instruction by the law of its format, and the arithmetic by the laws above. -/
theorem seqArithmetic : Obligations.SeqArithmetic :=
  ⟨formR_of_seqR (fun _ _ => rfl) fun _ _ => rfl, formR_of_seqR (fun _ _ => rfl) fun _ _ => rfl,
    formR_of_seqR (fun _ _ => rfl) fun _ _ => rfl, formR_of_seqR (fun _ _ => rfl) fun _ _ => rfl,
    formR_of_seqR (fun _ _ => rfl) fun _ _ => rfl, formR_of_seqR (fun _ _ => rfl) shiftLeft_shAmt,
    formR_of_seqR (fun _ _ => rfl) ushiftRight_shAmt, formR_of_seqR (fun _ _ => rfl) sshiftRight_shAmt,
    formR_of_seqR (fun _ _ => rfl) mul_eq, formR_of_seqR (fun _ _ => rfl) min_eq,
    formR_of_seqR (fun _ _ => rfl) max_eq, formR_of_seqR (fun _ _ => rfl) boolW_slt,
    formR_of_seqR (fun _ _ => rfl) boolW_ult, formR_of_seqR (fun _ _ => rfl) boolW_beq,
    formI_of_seqI (fun _ _ => rfl) fun _ _ => rfl, formI_of_seqI (fun _ _ => rfl) fun _ _ => rfl,
    formI_of_seqI (fun _ _ => rfl) fun _ _ => rfl, formI_of_seqI (fun _ _ => rfl) fun _ _ => rfl,
    formI_of_seqI (fun _ _ => rfl) shiftLeft_shAmt, formI_of_seqI (fun _ _ => rfl) ushiftRight_shAmt,
    formI_of_seqI (fun _ _ => rfl) sshiftRight_shAmt, formI_of_seqI (fun _ _ => rfl) boolW_beq⟩
end

section
/-! Address registers, branches and jumps of SEQ (O2): the laws of a jump and of a change of the sequencer. -/

namespace Sys2Proof.Machine

theorem onward_congr {c : Nat} {f g : SeqSt → SeqSt} {u t : State} (hfg : f (sq u c) = g (sq u c)) (h : onward c f u t) :
    onward c g u t := by
  obtain ⟨hregs, ⟨hother, hsame⟩, hrest⟩ := h
  exact ⟨hregs, ⟨hother, hsame.trans (congrArg (fun q => { cget u c with seq := q }) hfg)⟩, hrest⟩

/-- An instruction that changes its sequencer by `f`, which keeps the PC, and goes on behind itself. -/
theorem seqOp_squpd {i : Fin 4352 → Instr} {op : Nat} {f g : State → Nat → Nat → SeqSt → SeqSt}
    (h : ∀ c s, exec (i c) s = .next (seqStep c op [0] (fun w s => seqNext c 1 (squpd c (f s c w) s)) s))
    (hpc : ∀ u c w q, (f u c w q).pc = q.pc) (hg : ∀ u c w, goOn ((sq u c).pc + 1) (f u c w (sq u c)) = g u c w (sq u c)) :
    seqOp i op g := by
  intro c w s u hi
  have hexec : exec (i c) s = .next (seqNext c 1 (squpd c (f u c w) u)) := by rw [h, seqStep_issues hi]
  exact ⟨_, hexec, onward_congr (hg u c w) (seqNext_squpd c 1 _ u (hpc _ _ _ _))⟩

/-! ## Jumps -/

/-- A jump into instruction memory (R109). -/
theorem onward_seqJump {c w p : Nat} {t : Int} (u : State) (hp : p < 8192) (ht : (p : Int) = t) :
    onward c (goOn p) u (seqJump c w t u) := by
  subst ht
  have hin : (decide (0 ≤ (p : Int)) && decide ((p : Int) ≤ 8191)) = true := by simp; omega
  rw [seqJump, if_pos hin, Int.toNat_natCast]
  exact onward_squpd_counted c _ u _ _ _

theorem signed_eq_toInt (v : Nat) : signed 32 v = (BitVec.ofNat 32 v).toInt := by
  rw [signed, BitVec.toInt_eq_toNat_cond, BitVec.toNat_ofNat]
  split_ifs <;> omega

theorem relTarget_eq (u : State) (c w : Nat) : relTarget u c w = (sq u c).pc + (BitVec.ofNat 32 (inImm w)).toInt := by
  rw [relTarget, signed_eq_toInt]

theorem formB_of_seqB {i : Fin 4352 → Instr} {op : Nat} {f : Word → Word → Bool} {g : Word → Word → Prop}
    (h : ∀ c s, exec (i c) s = .next (seqB c op f s)) (hf : ∀ a b, f a b = true ↔ g a b) : formB i op g := by
  intro c w s u hi
  have hexec : exec (i c) s = .next (if f (xGet u c (inXA w)) (xGet u c (inXB w)) then seqJump c w (relTarget u c w) u
      else seqNext c 1 u) := by rw [h, seqB, seqStep_issues hi]
  refine ⟨fun hcond p hp ht => ⟨_, hexec, ?_⟩, fun hcond => ⟨_, hexec, ?_⟩⟩
  · rw [if_pos ((hf _ _).mpr hcond)]
    exact onward_seqJump u hp (ht.trans (relTarget_eq u c w).symm)
  · rw [if_neg (fun e => hcond ((hf _ _).mp e))]
    exact onward_seqNext c 1 u

theorem jmp_jumps : formB .jmp 0x36 (fun _ _ => True) := by
  intro c w s u hi
  have hexec : execJmp c s = .next (seqJump c w (relTarget u c w) u) := by rw [execJmp, seqStep_issues hi]
  exact ⟨fun _ p hp ht => ⟨_, hexec, onward_seqJump u hp (ht.trans (relTarget_eq u c w).symm)⟩, fun h => absurd trivial h⟩

theorem jr_jumps : seqOp .jr 0x38 (fun u c w => goOn ((xGet u c (inXA w)).toNat % 8192)) := by
  intro c w s u hi
  have hexec : execJr c s = .next (seqJump c w (((xGet u c (inXA w)).toNat % 8192 : Nat) : Int) u) := by
    rw [execJr, seqStep_issues hi]
  exact ⟨_, hexec, onward_seqJump u (Nat.mod_lt _ (by decide)) rfl⟩

theorem relTarget_in_range {u : State} {c w p : Nat} (hp : p < 8192) (ht : (p : Int) = relTarget u c w) :
    (0 ≤ relTarget u c w && relTarget u c w ≤ 8191) = true := by
  rw [← ht]
  simp
  omega

theorem jal_links {c : Fin 4352} {w p : Nat} {s u : State} (hi : issues c 0x37 [0] w s u) (hp : p < 8192)
    (ht : (p : Int) = relTarget u c w) :
    ∃ t, exec (.jal c) s = .next t ∧ scalarDone c (inXD w) (BitVec.ofNat 32 ((sq u c).pc + 1)) (goOn p) u t := by
  have hjump : seqJump c w (relTarget u c w) (xSet c (inXD w) (BitVec.ofNat 32 ((sq u c).pc + 1)) u) =
      tallyCore c 0x0140 1 none (pcTo c p (xSet c (inXD w) (BitVec.ofNat 32 ((sq u c).pc + 1)) u)) := by
    rw [seqJump, if_pos (relTarget_in_range hp ht), ← ht, Int.toNat_natCast]
  have hexec : execJal c s = .next (seqJump c w (relTarget u c w) (xSet c (inXD w) (BitVec.ofNat 32 ((sq u c).pc + 1)) u)) := by
    rw [execJal, seqStep_issues hi]
    simp only [relTarget_in_range hp ht, if_true]
  refine ⟨_, hexec, ?_⟩
  rw [hjump]
  exact scalarDone_tally _ _ _ _ (scalarDone_xSet c (inXD w) _ (goOn p) u)

theorem bbusy_taken {c : Fin 4352} {w p : Nat} {s u : State} (hi : issues c 0x39 [0] w s u) (hbusy : (sq u c).busyFlag = true)
    (hp : p < 8192) (ht : (p : Int) = relTarget u c w) :
    ∃ t, exec (.bbusy c) s = .next t ∧ onward c (fun q => goOn p { q with busyFlag := false }) u t := by
  have hexec : execBbusy c s = .next (seqJump c w (relTarget u c w) (squpd c (fun q => { q with busyFlag := false }) u)) := by
    rw [execBbusy, seqStep_issues hi]
    simp only [hbusy, relTarget_in_range hp ht, if_true]
  exact ⟨_, hexec, onward_trans (onward_squpd c (fun q => { q with busyFlag := false }) u) (onward_seqJump _ hp ht)⟩

theorem bbusy_not_taken {c : Fin 4352} {w : Nat} {s u : State} (hi : issues c 0x39 [0] w s u)
    (hbusy : (sq u c).busyFlag = false) : ∃ t, exec (.bbusy c) s = .next t ∧ onward c (goOn ((sq u c).pc + 1)) u t := by
  have hexec : execBbusy c s = .next (seqNext c 1 u) := by
    rw [execBbusy, seqStep_issues hi]
    simp only [hbusy, Bool.false_eq_true, if_false]
  exact ⟨_, hexec, onward_seqNext c 1 u⟩

theorem bge_iff (a b : Word) : (!a.slt b) = true ↔ b.toInt ≤ a.toInt := by
  rw [Bool.not_eq_true', ← Bool.not_eq_true, BitVec.slt_iff_toInt_lt, not_lt]

theorem bgeu_iff (a b : Word) : (!a.ult b) = true ↔ b.toNat ≤ a.toNat := by
  rw [Bool.not_eq_true', ← Bool.not_eq_true, BitVec.ult_iff_toNat_lt, not_lt]

/-! ## Address registers -/

/-- An instruction that writes an address register. -/
theorem seqOp_adSet {i : Fin 4352 → Instr} {op : Nat} {v : State → Nat → Nat → BitVec 48} {g : State → Nat → Nat → SeqSt → SeqSt}
    (h : ∀ c s, exec (i c) s = .next (seqStep c op [0] (fun w s => seqNext c 1 (adSet c (inADX w) (v s c w) s)) s))
    (hg : ∀ u c w, goOn ((sq u c).pc + 1) { sq u c with ad := (sq u c).ad.set (inXD w % 8) (v u c w) } = g u c w (sq u c)) :
    seqOp i op g :=
  seqOp_squpd (f := fun u c w q => { q with ad := q.ad.set (inXD w % 8) (v u c w) }) h (fun _ _ _ _ => rfl) hg

theorem aget_reads : scalarOp .aget 0x2B (fun u c w =>
    if inImm w = 0 then ((sq u c).ad.getD (inXA w % 8) 0).extractLsb' 0 32
    else (((sq u c).ad.getD (inXA w % 8) 0).extractLsb' 32 16).setWidth 32) := by
  refine scalarOp_next fun c s => congrArg (fun f => Host.Outcome.next (seqStep c 0x2B [0] f s)) (funext fun w => funext fun u => ?_)
  have hlow (a : BitVec 48) : a.setWidth 32 = a.extractLsb' 0 32 := by
    apply BitVec.eq_of_toNat_eq
    simp
  have hhigh (a : BitVec 48) : (a >>> 32).setWidth 32 = (a.extractLsb' 32 16).setWidth 32 := by
    apply BitVec.eq_of_toNat_eq
    simp [Nat.shiftRight_eq_div_pow]
    omega
  simp only [hhigh]
  simp only [hlow, adGet]

theorem amov_loads : seqOp .amov 0x28 (fun u c w q => goOn (q.pc + 1)
    { q with ad := q.ad.set (inXD w % 8) ((xGet u c (inXA w)).setWidth 16 ++ xGet u c (inXB w)) }) :=
  seqOp_adSet (v := fun u c w => (xGet u c (inXA w)).setWidth 16 ++ xGet u c (inXB w)) (fun _ _ => rfl) fun _ _ _ => rfl

theorem aadd_adds : seqOp .aadd 0x29 (fun _ _ w q => goOn (q.pc + 1)
    { q with ad := q.ad.set (inXD w % 8) (q.ad.getD (inXD w % 8) 0 + (BitVec.ofNat 32 (inImm w)).signExtend 48) }) :=
  seqOp_adSet (v := fun u c w => adGet u c (inADX w) + (BitVec.ofNat 32 (inImm w)).signExtend 48) (fun _ _ => rfl) fun _ _ _ => rfl

theorem aaddr_adds : seqOp .aaddr 0x2A (fun u c w q => goOn (q.pc + 1)
    { q with ad := q.ad.set (inXD w % 8) (q.ad.getD (inXD w % 8) 0 + (xGet u c (inXA w)).signExtend 48) }) :=
  seqOp_adSet (v := fun u c w => adGet u c (inADX w) + (xGet u c (inXA w)).signExtend 48) (fun _ _ => rfl) fun _ _ _ => rfl

end Sys2Proof.Machine

open Sys2Proof.Machine

/-- Settles O2: the address registers by the law of a change of the sequencer, the branches by that of their format, the jumps by that
of a jump. -/
theorem seqAddressAndJumps : Obligations.SeqAddressAndJumps := by
  refine ⟨amov_loads, aadd_adds, aaddr_adds, aget_reads, formB_of_seqB (fun _ _ => rfl) fun _ _ => beq_iff_eq,
    formB_of_seqB (fun _ _ => rfl) fun _ _ => bne_iff_ne, formB_of_seqB (fun _ _ => rfl) fun _ _ => BitVec.slt_iff_toInt_lt,
    formB_of_seqB (fun _ _ => rfl) bge_iff, formB_of_seqB (fun _ _ => rfl) fun _ _ => BitVec.ult_iff_toNat_lt,
    formB_of_seqB (fun _ _ => rfl) bgeu_iff, jmp_jumps, ?_, jr_jumps, ?_⟩
  · exact fun c w s u hi p hp ht => jal_links hi hp (ht.trans (relTarget_eq u c w).symm)
  · exact fun c w s u hi => ⟨fun hbusy p hp ht => bbusy_taken hi hbusy hp (ht.trans (relTarget_eq u c w).symm), bbusy_not_taken hi⟩
end

section
/-! Loads, stores and atomics of SEQ (O3). -/

namespace Sys2Proof.Machine

/-! ## Values -/

theorem signed_eq_toInt_ofNat {n : Nat} (hn : 0 < n) (v : Nat) : signed n v = (BitVec.ofNat n v).toInt := by
  have hhalf : 2 ^ n = 2 * 2 ^ (n - 1) := by rw [← Nat.pow_succ', Nat.succ_eq_add_one, Nat.sub_add_cancel hn]
  rw [signed, BitVec.toInt_eq_toNat_cond, BitVec.toNat_ofNat]
  have : (v % 2 ^ n < 2 ^ (n - 1)) ↔ 2 * (v % 2 ^ n) < 2 ^ n := by omega
  simp only [this]

theorem ofNat_unsignedOf (i : Int) : BitVec.ofNat 32 (unsignedOf 32 i) = BitVec.ofInt 32 i := by
  apply BitVec.eq_of_toNat_eq
  rw [unsignedOf, BitVec.toNat_ofNat, BitVec.toNat_ofInt]
  exact Nat.mod_eq_of_lt (by omega)

theorem extend_eq (w v : Nat) : extend w v =
    if inSX w then (BitVec.ofNat (8 * 2 ^ inSize w) v).signExtend 32 else BitVec.ofNat 32 v := by
  have hn : 0 < 8 * 2 ^ inSize w := by positivity
  rw [extend]
  rw [ofNat_unsignedOf, signed_eq_toInt_ofNat hn]
  rfl

/-! ## A refused access of the cluster SRAM: busy -/

/-- Nothing but the cluster's busy counter and core `c`'s sequencer, which becomes `f` of what it was, differs. -/
def busyDone (c : Nat) (f : SeqSt → SeqSt) (u t : State) : Prop :=
  oneSeq c f u t ∧ (∀ o, o ≠ cluBase (coreClu c) → rget t o = rget u o) ∧ onlyCores u t

theorem busyDone_trans {c : Nat} {f g : SeqSt → SeqSt} {u t t' : State} (h : busyDone c f u t) (k : onward c g t t') :
    busyDone c (fun q => g (f q)) u t' := by
  obtain ⟨hseq, hregs, hrest⟩ := h
  obtain ⟨kregs, kseq, krest⟩ := k
  exact ⟨oneSeq_trans hseq kseq, fun o ho => (congrArg (stGet regReset · o) kregs).trans (hregs o ho),
    onlyCores_trans hrest krest⟩

/-- The next instruction after the busy answer. -/
theorem busyDone_next {c : Nat} {u v : State} (h : busyDone c (fun q => { q with busyFlag := true }) u v) :
    busyDone c (fun q => goOn (q.pc + 1) { q with busyFlag := true }) u (seqNext c 1 v) := by
  have hpc : (sq v c).pc = (sq u c).pc := by rw [sq_of_oneSeq h.1]
  obtain ⟨⟨hother, hsame⟩, hregs, hrest⟩ := busyDone_trans h (onward_seqNext c 1 v)
  refine ⟨⟨hother, hsame.trans ?_⟩, hregs, hrest⟩
  rw [hpc]
  rfl

theorem busyDone_seqBusy (c off p : Nat) (tx : Option Tx) (u : State) :
    busyDone c (fun q => { q with busyFlag := true }) u (seqBusy c off (csCount (coreClu c) p tx u)) := by
  unfold seqBusy csBusy csBusyN csCount
  rw [if_neg Nat.one_ne_zero]
  refine ⟨⟨fun k hk => ?_, ?_⟩, fun o ho => ?_, ?_⟩
  · simp [cget_squpd_other _ _ hk]
  · simp
  · rw [rget_tallyClu, cluUpd, rupd, rget_rset_other _ _ (show o ≠ cluBase (coreClu c) + 0 from ho), rget_squpd, rget_tallyClu]
  · simp [onlyCores]

theorem busyDone_stc {c : Fin 4352} {w : Nat} {s u : State} (hi : issues c 0x23 [0] w s u) (hok : csCheck u c w true = 0) :
    ∃ t, exec (.stc c true) s = .next t ∧ busyDone c (fun q => goOn (q.pc + 1) { q with busyFlag := true }) u t := by
  have hexec : execStc c true s = .next (seqNext c 1 (seqBusy c (memOff u c w)
      (csCount (coreClu c) 0 (seqTx u c (memOff u c w)) u))) := by
    rw [execStc, seqStep_issues hi]
    simp only [hok, ne_eq, not_true_eq_false, if_false, if_true]
  exact ⟨_, hexec, busyDone_next (busyDone_seqBusy c _ _ _ u)⟩

/-- An atomic whose access passes its checks and reads its word. -/
theorem seqAtomic_done {c op w old : Nat} {a : AtomicOp} {s u v : State} (hi : issues c op [0] w s u)
    (hok : csCheck u c w true = 0)
    (hatom : csAtomic (coreClu c) (memOff u c w) a (xGet u c (inXBM w)).toNat (seqTx u c (memOff u c w))
      (csCount (coreClu c) 0 (seqTx u c (memOff u c w)) u) = (some old, v)) :
    seqAtomic c op a s = seqNext c 1 (xSet c (inXD w) (BitVec.ofNat 32 old) v) := by
  rw [seqAtomic, seqStep_issues hi]
  simp only [hok, hatom, ne_eq, not_true_eq_false, if_false]

theorem ldc_busy {c : Fin 4352} {w : Nat} {s u : State} (hi : issues c 0x22 [0] w s u) (hok : csCheck u c w false = 0) :
    ∃ t, exec (.ldc c true) s = .next t ∧
      oneSeq c (fun q => goOn (q.pc + 1) { q with busyFlag := true }) u t ∧
      (∀ o, o ≠ coreBase c + 0x400 + 4 * inXD w → o ≠ cluBase (coreClu c) → rget t o = rget u o) ∧
      onlyCores { u with fresh := u.fresh + 1 } t := by
  let u' : State := { u with fresh := u.fresh + 1 }
  let v := seqBusy c (memOff u c w) (csCount (coreClu c) 0 (seqTx u c (memOff u c w)) u')
  have hexec : execLdc c true s = .next (seqNext c 1 (xSet c (inXD w) (BitVec.ofNat 32 (Config.freeValue u.fresh)) v)) := by
    rw [execLdc, seqStep_issues hi]
    simp only [hok, ne_eq, not_true_eq_false, if_false, if_true]
    rfl
  have hbusy : busyDone c (fun q => { q with busyFlag := true }) u' v := busyDone_seqBusy c _ _ _ u'
  have hnext := scalarDone_seqNext c (inXD w) 1 (BitVec.ofNat 32 (Config.freeValue u.fresh)) v
  obtain ⟨-, hregs, hseq, hrest⟩ := hnext
  obtain ⟨bseq, bregs, brest⟩ := hbusy
  have hpc : (sq v c).pc = (sq u c).pc := by rw [sq_of_oneSeq bseq]; rfl
  refine ⟨_, hexec, ?_, fun o hx hb => (hregs o fun e => hx e.2).trans (bregs o hb), onlyCores_trans brest hrest⟩
  obtain ⟨hother, hsame⟩ := oneSeq_trans bseq hseq
  refine ⟨hother, hsame.trans ?_⟩
  rw [hpc]
  rfl

end Sys2Proof.Machine

open Sys2Proof.Machine

/-- Settles O3: each instruction is its access followed by the law of an instruction that goes on. -/
theorem seqMemory : Obligations.SeqMemory := by
  refine ⟨?_, ?_, ?_, fun c w s u => ldc_busy, ?_, fun c w s u => busyDone_stc, ?_, ?_⟩
  · intro c w m off d s u v hi hok hread
    refine ⟨_, ?_, scalarDone_seqNext c (inXD w) 1 _ v⟩
    show execLd c s = _
    rw [execLd, seqStep_issues hi]
    simp only [hok, hread, ne_eq, not_true_eq_false, if_false, extend_eq]
  · intro c w m off s u hi hok
    refine ⟨_, ?_, onward_seqNext c 1 _⟩
    show execSt c s = _
    rw [execSt, seqStep_issues hi]
    simp only [hok, ne_eq, not_true_eq_false, if_false]
  · intro c w d s u v hi hok hread
    refine ⟨_, ?_, scalarDone_seqNext c (inXD w) 1 _ v⟩
    show execLdc c false s = _
    rw [execLdc, seqStep_issues hi]
    simp only [hok, hread, ne_eq, not_true_eq_false, Bool.false_eq_true, if_false]
  · intro c w s u hi hok
    refine ⟨_, ?_, onward_seqNext c 1 _⟩
    show execStc c false s = _
    rw [execStc, seqStep_issues hi]
    simp only [hok, ne_eq, not_true_eq_false, Bool.false_eq_true, if_false]
  · intro c w old s u v hi hok hatom
    exact ⟨_, congrArg Host.Outcome.next (seqAtomic_done hi hok hatom), scalarDone_seqNext c (inXD w) 1 _ v⟩
  · intro c w old s u v hi hok hatom
    exact ⟨_, congrArg Host.Outcome.next (seqAtomic_done hi hok hatom), scalarDone_seqNext c (inXD w) 1 _ v⟩
end

section
/-! Control, channel status and CSR instructions of SEQ (O5). -/

namespace Sys2Proof.Machine

/-! ## Traps -/

theorem heldMask_lt {l : List HeldTrap} (h : ∀ t ∈ l, t.src < 8) : heldMask l < 2 ^ 8 := by
  unfold heldMask
  refine List.foldlRecOn (motive := fun m => m < 2 ^ 8) l _ (by decide) fun m hm t ht => Nat.or_lt_two_pow hm ?_
  exact Nat.pow_lt_pow_right (by decide) (h t ht)

/-- The first word of the record: valid, the source, the sources that wait, and the cause (Table TILE.22). -/
theorem fillRec_word (c : Nat) (h : HeldTrap) (s : State) :
    corReg (fillRec c h s) c 0x220 = BitVec.ofNat 32 (2 ^ 31 + h.src * 2 ^ 16 +
      heldMask ((sq s c).held.filter (fun u => u.src != h.src)) * 2 ^ 8 + h.cause) := by
  simp [fillRec, corReg_corSet]

theorem fillRec_pc (c : Nat) (h : HeldTrap) (s : State) : wFld (corReg (fillRec c h s) c 0x224) 12 0 = h.pc % 8192 := by
  have hword : corReg (fillRec c h s) c 0x224 = BitVec.ofNat 32 (h.pc % 8192) := by simp [fillRec, corReg_corSet]
  rw [hword, wFld_ofNat_low _ _ (by decide)]
  omega

theorem fillRec_detail (c : Nat) (h : HeldTrap) (s : State) : corReg (fillRec c h s) c 0x230 = BitVec.ofNat 32 h.detail := by
  simp [fillRec, corReg_corSet]

theorem inCode_lt (w : Nat) : inCode w < 2 ^ 32 := (Nat.mod_lt _ (by decide)).trans (by decide)

theorem trap_enters {c : Fin 4352} {w : Nat} {s u : State} (hi : issues c 0x02 [0] w s u)
    (hen : wBit (corReg u c 0x208) 31 = true) (hin : (sq u c).inTrap = false) (hstop : (sq u c).stop = 0)
    (hheld : ∀ h ∈ (sq u c).held, h.src < 8) : ∃ t, exec (.trap c) s = .next t ∧
      oneSeq c (fun q => { q with
        held := q.held.filter (fun h => h.src != 0), epc := q.pc % 8192, inTrap := true, curSrc := 0, wait := 0,
        pc := wFld (corReg u c 0x208) 12 0 }) u t ∧
      wFld (corReg t c 0x220) 31 31 = 1 ∧ wFld (corReg t c 0x220) 18 16 = 0 ∧ wFld (corReg t c 0x220) 7 0 = 0x16 ∧
      wFld (corReg t c 0x224) 12 0 = (sq u c).pc % 8192 ∧ (corReg t c 0x230).toNat = inCode w ∧
      (∀ o, o < coreBase c + 0x220 ∨ coreBase c + 0x240 ≤ o → rget t o = rget u o) ∧
      onlyCores { u with fresh := u.fresh + 1 } t := by
  let h : HeldTrap := { src := 0, cause := 0x16, pc := (sq u c).pc, word := w, detail := inCode w, detailHi := 0 }
  have hexec : execTrap c s = .next (takeTrap c h (sq u c).pc u) := by rw [execTrap, seqStep_issues hi]; rfl
  have hnot : h.cause ≠ 0x09 := (by decide : (0x16 : Nat) ≠ 0x09)
  obtain ⟨hseq, hcause, hregs, hrest⟩ := takeTrap_enters (epc := (sq u c).pc) hin hnot hen hstop
  have hrec : ∀ o, corReg (takeTrap c h (sq u c).pc u) c o = corReg (fillRec c h u) c o := fun o => by
    rw [takeTrap_handled hin hnot hen hstop]
    simp only [corReg, rget_squpd, rget_tallyCore]
  have hmask : heldMask ((sq u c).held.filter (fun v => v.src != 0)) < 2 ^ 8 :=
    heldMask_lt fun t ht => hheld t (List.mem_of_mem_filter ht)
  have hword : (corReg (takeTrap c h (sq u c).pc u) c 0x220).toNat =
      2 ^ 31 + heldMask ((sq u c).held.filter (fun v => v.src != 0)) * 2 ^ 8 + 0x16 := by
    rw [hrec, fillRec_word, BitVec.toNat_ofNat]
    simp only [h, Nat.zero_mul, Nat.add_zero]
    omega
  refine ⟨_, hexec, ⟨hseq.1, hseq.2⟩, ?_, ?_, hcause, ?_, ?_, hregs, hrest⟩
  · rw [wFld, fld, hword]
    simp only [Nat.shiftRight_eq_div_pow]
    omega
  · rw [wFld, fld, hword]
    simp only [Nat.shiftRight_eq_div_pow]
    omega
  · rw [hrec, fillRec_pc]
  · rw [hrec, fillRec_detail, BitVec.toNat_ofNat, Nat.mod_eq_of_lt (inCode_lt w)]

/-- What a scratchpad read answers depends on the scratchpads and on the writes that wait. -/
theorem spRead_fst_congr {c b : Nat} {s t : State} (hm : (cget t c).merges = (cget s c).merges) (hsp : t.sp = s.sp)
    (hchk : t.spChk = s.spChk) (hwr : t.spWr = s.spWr) : (spRead c b t).1 = (spRead c b s).1 := by
  unfold spRead spWritten
  rw [hm, hsp, hchk, hwr]
  cases (cget s c).merges.reverse.find? (fun g => g.blk == b) with
  | some g => rfl
  | none =>
    dsimp only
    split
    · rfl
    · cases eccDecode (memRead s.sp (spKey c b) 64) (memRead s.spChk (spChkKey c b) 16) <;> rfl

theorem instWords_congr {c pc : Nat} {s t : State} (hm : (cget t c).merges = (cget s c).merges) (hsp : t.sp = s.sp)
    (hchk : t.spChk = s.spChk) (hwr : t.spWr = s.spWr) : instWords t c pc = instWords s c pc := by
  have hfetch : (seqFetch c pc t).1 = (seqFetch c pc s).1 :=
    congrArg (Option.map fun d => leAt d (8 * (pc % 8)) 8) (spRead_fst_congr (b := imemBlk pc) hm hsp hchk hwr)
  rw [instWords, instWords, hfetch]

theorem discardRefused_zero (c : Nat) (s : State) : discardRefused c 0 s = s := rfl

theorem engineResume_zero (c : Nat) (s : State) : engineResume c 0 s = s := rfl

/-- TRET from a trap that no engine holds (R141). -/
theorem tret_returns {c : Fin 4352} {w : Nat} {s u : State} (hi : issues c 0x03 [0] w s u) (hin : (sq u c).inTrap = true)
    (hsrc : (sq u c).curSrc = 0) : ∃ t, exec (.tret c) s = .next t ∧
      onward c (fun q => goOn (if inCode w % 2 = 1 then q.epc + instWords u c q.epc else q.epc) { q with inTrap := false }) u t := by
  let v := squpd c (fun q => { q with inTrap := false }) (tallyCore c 0x0140 1 none u)
  have hwords : instWords v c (sq u c).epc = instWords u c (sq u c).epc :=
    instWords_congr (by simp [v]) (by simp [v]) (by simp [v]) (by simp [v])
  have hexec : execTret c s = .next (pcTo c (if inCode w % 2 = 1 then (sq u c).epc + instWords u c (sq u c).epc else (sq u c).epc) v) := by
    rw [execTret, seqStep_issues hi]
    simp only [hin, hsrc, bitAt, beq_self_eq_true, Bool.not_true, Bool.false_eq_true, if_false, Bool.and_true,
      Nat.shiftRight_zero, discardRefused_zero, engineResume_zero, ite_self, beq_iff_eq]
    rw [← hwords]
  refine ⟨_, hexec, onward_congr rfl (onward_trans (onward_trans (onward_tallyCore c c 0x0140 1 none u)
    (onward_squpd c (fun q => { q with inTrap := false }) _)) (onward_pcTo c _ _))⟩

theorem movclr_clears {c : Fin 4352} {w : Nat} {s u : State} (hi : issues c 0x4C [0] w s u) :
    ∃ t, exec (.movclr c) s = .next t ∧
      t.regs = u.regs ∧ onlyCores u t ∧ (∀ k, k ≠ c.val → cget t k = cget u k) ∧
      cget t c = { cget u c with
        seq := goOn ((sq u c).pc + 1) (sq u c),
        mov := (cget u c).mov.modify (inCode w % 8) (fun m => { m with queue := [], status := 0, halted := false }) } := by
  have hexec : execMovclr c s = .next (seqNext c 1 (movClr c (inCode w % 8) u)) := by rw [execMovclr, seqStep_issues hi]
  refine ⟨_, hexec, ?_, ?_, fun k hk => ?_, ?_⟩
  · simp [seqNext, pcTo, movClr]
  · simp [onlyCores, seqNext, pcTo, movClr]
  · simp [seqNext, pcTo, movClr, cget_squpd_other _ _ hk, cget_cupd_other _ _ hk]
  · simp only [seqNext, pcTo, movClr, cget_tallyCore, cget_squpd_same, cget_cupd_same, sq]
    rfl

@[simp] theorem seqNext_xSet_fresh (c d n : Nat) (v : Word) (s : State) : (seqNext c n (xSet c d v s)).fresh = s.fresh := by
  unfold xSet
  split <;> simp [seqNext, pcTo]

theorem csrr_reads {c : Fin 4352} {w : Nat} {s u : State} (hi : issues c 0x58 [0] w s u) :
    ∃ t v, exec (.csrr c) s = .next t ∧ scalarDone c (inXD w) v (goOn ((sq u c).pc + 1)) { u with fresh := t.fresh } t ∧
      ∀ n, csrValue u c (inCode w) = some n → v = BitVec.ofNat 32 n := by
  cases hv : csrValue u c (inCode w) with
  | some n =>
    have hexec : execCsrr c s = .next (seqNext c 1 (xSet c (inXD w) (BitVec.ofNat 32 n) u)) := by
      rw [execCsrr, seqStep_issues hi]
      simp only [hv]
    have hdone := scalarDone_seqNext c (inXD w) 1 (BitVec.ofNat 32 n) u
    refine ⟨_, BitVec.ofNat 32 n, hexec, ?_, fun m hm => by rw [Option.some.inj hm]⟩
    rw [seqNext_xSet_fresh]
    exact hdone
  | none =>
    let v := BitVec.ofNat 32 (Config.freeValue u.fresh)
    have hexec : execCsrr c s = .next (seqNext c 1 (xSet c (inXD w) v { u with fresh := u.fresh + 1 })) := by
      rw [execCsrr, seqStep_issues hi]
      simp only [hv]
      rfl
    refine ⟨_, v, hexec, ?_, nofun⟩
    rw [seqNext_xSet_fresh]
    exact scalarDone_seqNext c (inXD w) 1 v { u with fresh := u.fresh + 1 }

/-! ## Abort -/

/-- Core `c` has aborted from state `u`: it stops, its traps and what it had not started are gone, and no register and no memory
that an abort leaves has changed. -/
def aborted (c : Nat) (u t : State) : Prop :=
  ((sq t c).run = false ∧ (sq t c).held = [] ∧ (sq t c).stop = 3) ∧
  ((cget t c).mxe.queue = (cget u c).mxe.queue.filter (fun q => q.started) ∧
    (cget t c).vxe.queue = (cget u c).vxe.queue.filter (fun q => q.performed) ∧ ∀ m ∈ (cget t c).mov, m.queue = []) ∧
  (∀ n : Fin 2, (colget t (2 * c + n)).nbu.queue = (colget u (2 * c + n)).nbu.queue.filter (fun q => q.started)) ∧
  t.regs = u.regs ∧ t.sp = u.sp ∧ t.t1 = u.t1

theorem cget_discardUnstarted_same (c : Nat) (s : State) : cget (discardUnstarted c s) c =
    { cget s c with
      mxe := feedKeep { (cget s c).mxe with queue := (cget s c).mxe.queue.filter (·.started) }
      vxe := { (cget s c).vxe with queue := (cget s c).vxe.queue.filter (·.performed) }
      mov := (cget s c).mov.map movDiscard } := by
  simp [discardUnstarted]

theorem cget_discardUnstarted_other {c k : Nat} (s : State) (h : k ≠ c) : cget (discardUnstarted c s) k = cget s k := by
  simp [discardUnstarted, cget_cupd_other _ _ h]

theorem colget_discardUnstarted_same (c : Nat) (n : Fin 2) (s : State) : colget (discardUnstarted c s) (2 * c + n) =
    { colget s (2 * c + n) with nbu := { (colget s (2 * c + n)).nbu with
      queue := (colget s (2 * c + n)).nbu.queue.filter (·.started) } } := by
  unfold discardUnstarted
  match n with
  | 0 =>
    dsimp only
    rw [colget_colupd_other _ _ (by simp), Fin.val_zero, Nat.add_zero, colget_colupd_same, colget_cupd]
  | 1 =>
    dsimp only
    rw [Fin.val_one, colget_colupd_same, colget_colupd_other _ _ (by simp), colget_cupd]

theorem colget_discardUnstarted_other {c k : Nat} (s : State) (h : k / 2 ≠ c) :
    colget (discardUnstarted c s) k = colget s k := by
  unfold discardUnstarted
  dsimp only
  rw [colget_colupd_other _ _ (by omega), colget_colupd_other _ _ (by omega), colget_cupd]

/-- Nothing of core `c` and its columns, no register, scratchpad byte or tier-1 byte differs. -/
def coreKept (c : Nat) (u t : State) : Prop :=
  cget t c = cget u c ∧ (∀ n : Fin 2, colget t (2 * c + n) = colget u (2 * c + n)) ∧ t.regs = u.regs ∧ t.sp = u.sp ∧ t.t1 = u.t1

theorem coreKept_haltReqCore {c k : Nat} (s : State) (h : c ≠ k) : coreKept c s (haltReqCore k s) := by
  have hcol (n : Fin 2) : colget (discardUnstarted k s) (2 * c + n) = colget s (2 * c + n) :=
    colget_discardUnstarted_other s (by have := n.isLt; omega)
  unfold haltReqCore
  split
  · split
    · exact ⟨cget_squpd_other _ _ h, fun n => by simp, by simp, by simp, by simp⟩
    · exact ⟨rfl, fun _ => rfl, rfl, rfl, rfl⟩
  · exact ⟨(cget_squpd_other _ _ h).trans (cget_discardUnstarted_other s h), fun n => by simp [hcol],
      by simp [discardUnstarted], by simp [discardUnstarted], by simp [discardUnstarted]⟩

theorem aborted_trans {c : Nat} {u v t : State} (h : aborted c u v) (k : coreKept c v t) : aborted c u t := by
  obtain ⟨kcore, kcol, kregs, ksp, kt1⟩ := k
  obtain ⟨hstop, hqueues, hcols, hregs, hsp, ht1⟩ := h
  exact ⟨by simpa only [sq, kcore] using hstop, by simpa only [kcore] using hqueues, fun n => by rw [kcol, hcols],
    kregs.trans hregs, ksp.trans hsp, kt1.trans ht1⟩

theorem aborted_abortStep {c : Nat} {u v : State} (h : aborted c u v) : aborted c u (abortStep c v) := by
  unfold abortStep
  split
  · exact h
  · refine List.foldlRecOn (motive := aborted c u) _ _ ?_ fun t ht k hk => aborted_trans ht (coreKept_haltReqCore t ?_)
    · exact aborted_trans h ⟨by simp, fun n => by simp, by simp, by simp, by simp⟩
    · exact (bne_iff_ne.mp (List.mem_filter.mp hk).2).symm

/-- The abort of a core (R143). -/
theorem aborted_abortCore (c : Nat) (s : State) : aborted c s (abortCore c s) := by
  refine aborted_abortStep ⟨⟨by simp, by simp, by simp⟩, ⟨?_, ?_, ?_⟩, fun n => ?_, ?_, ?_, ?_⟩
  · simp [cget_discardUnstarted_same, feedKeep]
  · simp [cget_discardUnstarted_same]
  · intro m hm
    simp only [cget_squpd_same, cget_discardUnstarted_same] at hm
    obtain ⟨m', -, rfl⟩ := List.mem_map.mp hm
    rfl
  · simp [colget_discardUnstarted_same]
  · simp [discardUnstarted]
  · simp [discardUnstarted]
  · simp [discardUnstarted]

end Sys2Proof.Machine

open Sys2Proof.Machine

/-- Settles O5: each instruction by its own law. -/
theorem seqControl : Obligations.SeqControl := by
  refine ⟨?_, ?_, fun c w s u => trap_enters, fun c w s u => tret_returns, ?_, fun c w s u => movclr_clears, ?_, ?_, ?_⟩
  · intro c w s u hi
    have hexec : execNop c s = .next (seqNext c 1 u) := by rw [execNop, seqStep_issues hi]
    exact ⟨_, hexec, onward_congr rfl (onward_seqNext c 1 u)⟩
  · intro c w s u hi
    have hexec : execHalt c s = .next (squpd c (fun q => { q with run := false, stop := 1 }) (seqNext c 1 u)) := by
      rw [execHalt, seqStep_issues hi]
    exact ⟨_, hexec, onward_congr rfl (onward_trans (onward_seqNext c 1 u) (onward_squpd c _ _))⟩
  · intro c w s u hi
    have hexec : execTabort c s = .next (abortCore c (seqNext c 1 u)) := by rw [execTabort, seqStep_issues hi]
    obtain ⟨⟨hrun, hheld, hstop⟩, ⟨hmxe, hvxe, hmov⟩, hcols, hregs, hsp, ht1⟩ := aborted_abortCore c (seqNext c 1 u)
    refine ⟨_, hexec, hrun, hheld, hstop, hmxe.trans ?_, hvxe.trans ?_, hmov, fun n => (hcols n).trans ?_, hregs.trans ?_,
      hsp.trans ?_, ht1.trans ?_⟩ <;> simp [seqNext, pcTo]
  · exact scalarOp_next fun _ _ => rfl
  · intro c w s u hi
    obtain ⟨t, v, hexec, hdone, hv⟩ := csrr_reads hi
    refine ⟨t, v, hexec, hdone, fun hn => hv _ (by rw [csrValue, if_pos hn]), fun i hilt hn => ?_, fun a b k hn hname => ?_,
      fun p hn hp => ?_⟩
    · have hval : csrValue u c (inCode w) = some (corReg u c (0x220 + 4 * i)).toNat := by
        rw [csrValue, hn, if_neg (by omega), if_neg (by omega), if_neg (by omega), if_pos (by omega), Nat.add_sub_cancel_left]
      rw [hv _ hval, BitVec.ofNat_toNat, BitVec.setWidth_eq]
    · exact hv _ (by rw [csrValue, hn, if_neg (by decide), if_pos rfl, hname]; rfl)
    · exact hv _ (by rw [csrValue, hn, if_neg (by decide), if_neg (by decide), if_pos rfl, hp])
  · exact seqOp_squpd (f := fun u c w q => { q with epc := (xGet u c (inXA w)).toNat % 8192 }) (fun _ _ => rfl)
      (fun _ _ _ _ => rfl) fun _ _ _ => rfl
end

section
/-! DISP appends a command to its engine's queue, or stalls (O6). -/

namespace Sys2Proof.Machine

@[simp] theorem sq_cupd_same (c : Nat) (f : CoreSt → CoreSt) (s : State) : sq (cupd c f s) c = (f (cget s c)).seq := by
  rw [sq, cget_cupd_same]

/-- Where core `c` stands in its program, its engines, the other cores, every register and every column are as before. -/
def placeKept (c : Nat) (s t : State) : Prop :=
  ((sq t c).pc = (sq s c).pc ∧ (sq t c).wait = (sq s c).wait) ∧
  ((cget t c).mxe = (cget s c).mxe ∧ (cget t c).vxe = (cget s c).vxe ∧ (cget t c).mov = (cget s c).mov) ∧
  (∀ k, k ≠ c → cget t k = cget s k) ∧ t.regs = s.regs ∧ ∀ k, colget t k = colget s k

theorem placeKept_refl (c : Nat) (s : State) : placeKept c s s := ⟨⟨rfl, rfl⟩, ⟨rfl, rfl, rfl⟩, fun _ _ => rfl, rfl, fun _ => rfl⟩

theorem placeKept_holdTrap (c : Nat) (h : HeldTrap) (s : State) : placeKept c s (holdTrap c h s) := by
  unfold holdTrap
  split
  · exact placeKept_refl c s
  · exact ⟨⟨by simp, by simp⟩, ⟨by simp, by simp, by simp⟩, fun k hk => cget_squpd_other _ _ hk, by simp, fun k => by simp⟩

/-- A check's trap is held or nothing happens. -/
theorem placeKept_ite_holdTrap {p : Prop} [Decidable p] (c : Nat) (h : HeldTrap) (s : State) :
    placeKept c s (if p then s else holdTrap c h s) := by
  split
  · exact placeKept_refl c s
  · exact placeKept_holdTrap c h s

/-- Engine `eng` of core `c` has the command `ws`, dispatched at `pc`, behind the commands it had; of the rest `placeKept` speaks. -/
def appended (c eng pc : Nat) (ws : List Nat) (s t : State) : Prop :=
  ((sq t c).pc = (sq s c).pc ∧ (sq t c).wait = (sq s c).wait ∧ t.regs = s.regs ∧ ∀ k, k ≠ c → cget t k = cget s k) ∧
  (eng = 0 → ∃ q, (cget t c).mxe.queue = (cget s c).mxe.queue ++ [q] ∧
    q.w0 = listAt ws 0 0 ∧ q.w1 = listAt ws 1 0 ∧ q.started = false) ∧
  (eng = 1 → ∃ q, (cget t c).vxe.queue = (cget s c).vxe.queue ++ [q] ∧
    q.w0 = listAt ws 0 0 ∧ q.w1 = listAt ws 1 0 ∧ q.performed = false) ∧
  (eng = 2 → (cget t c).mov = (cget s c).mov.modify (mvCh (listAt ws 0 0)) (fun m =>
    { m with queue := m.queue ++ [{ w0 := listAt ws 0 0, w1 := listAt ws 1 0, w2 := listAt ws 2 0, w3 := listAt ws 3 0, pc := pc }] })) ∧
  (3 ≤ eng → ∃ q, (colget t (2 * c + (eng - 3))).nbu.queue = (colget s (2 * c + (eng - 3))).nbu.queue ++ [q] ∧
    q.w0 = listAt ws 0 0 ∧ q.w1 = listAt ws 1 0 ∧ q.started = false)

theorem appended_trans {c eng pc : Nat} {ws : List Nat} {s v t : State} (h : appended c eng pc ws s v) (k : placeKept c v t) :
    appended c eng pc ws s t := by
  obtain ⟨⟨kpc, kwait⟩, ⟨kmxe, kvxe, kmov⟩, kother, kregs, kcol⟩ := k
  obtain ⟨⟨hpc, hwait, hregs, hother⟩, hqueues⟩ := h
  refine ⟨⟨kpc.trans hpc, kwait.trans hwait, kregs.trans hregs, fun j hj => (kother j hj).trans (hother j hj)⟩, ?_⟩
  simpa only [kmxe, kvxe, kmov, kcol] using hqueues

/-- What `engPut` does, but for the blocks that a new MXE command lets be read ahead. -/
theorem engPut_appends (c eng pc : Nat) (ws : List Nat) (s : State) :
    ∃ t, engPut c eng pc ws s = (if eng = 0 then feedAhead c t else t) ∧ appended c eng pc ws s t := by
  by_cases h0 : eng = 0
  · subst h0
    refine ⟨_, rfl, appended_trans ?_ (placeKept_ite_holdTrap c _ _)⟩
    exact ⟨⟨by rw [sq_cupd_same]; rfl, by rw [sq_cupd_same]; rfl, cupd_regs _ _ _, fun k hk => cget_cupd_other _ _ hk⟩,
      fun _ => ⟨_, by rw [cget_cupd_same], rfl, rfl, rfl⟩, nofun, nofun, nofun⟩
  by_cases h1 : eng = 1
  · subst h1
    refine ⟨_, rfl, appended_trans ?_ (placeKept_ite_holdTrap c _ _)⟩
    exact ⟨⟨by rw [sq_cupd_same]; rfl, by rw [sq_cupd_same]; rfl, cupd_regs _ _ _, fun k hk => cget_cupd_other _ _ hk⟩,
      nofun, fun _ => ⟨_, by rw [cget_cupd_same], rfl, rfl, rfl⟩, nofun, nofun⟩
  by_cases h2 : eng = 2
  · subst h2
    refine ⟨engPut c 2 pc ws s, rfl, ?_⟩
    rw [engPut, if_neg h0, if_neg h1, if_pos rfl]
    exact ⟨⟨by rw [sq_cupd_same]; rfl, by rw [sq_cupd_same]; rfl, cupd_regs _ _ _, fun k hk => cget_cupd_other _ _ hk⟩,
      nofun, nofun, fun _ => by rw [cget_cupd_same], nofun⟩
  · refine ⟨engPut c eng pc ws s, (if_neg h0).symm, ?_⟩
    rw [engPut, if_neg h0, if_neg h1, if_neg h2]
    refine appended_trans ?_ (placeKept_ite_holdTrap c _ _)
    exact ⟨⟨by rw [nbupd, sq_colupd], by rw [nbupd, sq_colupd], colupd_regs _ _ _, fun k _ => cget_colupd _ _ _ _⟩,
      fun e => absurd e h0, fun e => absurd e h1, fun e => absurd e h2,
      fun _ => ⟨_, by rw [nbupd, colget_colupd_same], rfl, rfl, rfl⟩⟩

end Sys2Proof.Machine

open Sys2Proof.Machine

/-- Settles O6: a stall by the law of a change of the sequencer, else by what `engPut` appends. -/
theorem seqDispatch : Obligations.SeqDispatch := by
  intro c w ws s u v hi hfit hfetch huni cmd
  have hexec : execDisp c s = .next (if engFull v c (fld w 55 53) cmd then squpd c (fun q => { q with wait := 4 }) v
      else engPut c (fld w 55 53) (sq u c).pc cmd (seqNext c (1 + engWords (fld w 55 53)) v)) := by
    rw [execDisp, seqStep_issues hi]
    simp only [gt_iff_lt, Nat.not_lt.mpr hfit, if_false, hfetch, huni, Bool.false_and, Bool.false_eq_true]
    rfl
  refine ⟨fun hfull => ⟨_, hexec, ?_⟩, fun hfull => ?_⟩
  · rw [if_pos hfull]
    exact onward_squpd c _ v
  · obtain ⟨t, ht, ⟨hpc, hwait, hregs, hother⟩, hmxe, hvxe, hmov, hnbu⟩ :=
      engPut_appends c (fld w 55 53) (sq u c).pc cmd (seqNext c (1 + engWords (fld w 55 53)) v)
    obtain ⟨nregs, ⟨nother, nsame⟩, -⟩ := onward_seqNext c (1 + engWords (fld w 55 53)) v
    have nseq := sq_of_oneSeq (onward_seqNext c (1 + engWords (fld w 55 53)) v).2.1
    refine ⟨t, ?_, hpc.trans (by rw [nseq]; rfl), hwait.trans (by rw [nseq]; rfl), hregs.trans nregs,
      fun k hk => (hother k hk).trans (nother k hk), fun h => ?_, fun h => ?_, fun h => ?_, fun n h => ?_⟩
    · rw [show exec (.disp c) s = execDisp c s from rfl, hexec, if_neg (by simp [hfull]), ht]
    · rw [nsame] at hmxe
      exact hmxe h
    · rw [nsame] at hvxe
      exact hvxe h
    · rw [nsame] at hmov
      exact hmov h
    · have hcol : ∀ k, colget (seqNext c (1 + engWords (fld w 55 53)) v) k = colget v k := fun k => by simp [seqNext, pcTo]
      rw [hcol, h, Nat.add_sub_cancel_left] at hnbu
      exact hnbu (Nat.le_add_right _ _)
end

section
/-! START, HALT_REQ and the load path of a core (O8). -/

namespace Sys2Proof.Machine

/-! ## A start -/

/-- The registers from `n` on that a start clears read as zero; those below X9, the cores and all else are as before. -/
def clearedX (c n : Nat) (s t : State) : Prop :=
  (∀ i, 9 ≤ i → i < 9 + n → xGet t c i = 0) ∧ (∀ i, i < 9 → xGet t c i = xGet s c i) ∧ t.cores = s.cores ∧
    onlyCores s t

theorem xGet_xSet {c d i : Nat} (v : Word) (s : State) (hd : d ≠ 0) (hi : i ≠ 0) :
    xGet (xSet c d v s) c i = if i = d then v else xGet s c i := by
  simp only [xGet, xSet, hd, hi, if_false, corReg_corSet]
  simp

theorem clearedX_iter (c n : Nat) (s : State) : clearedX c n s (iter n (fun i s => xSet c (i + 9) 0 s) s) := by
  induction n with
  | zero => exact ⟨fun i _ _ => by omega, fun _ _ => rfl, rfl, rfl⟩
  | succ n ih =>
    obtain ⟨hzero, hlow, hcores, hrest⟩ := ih
    rw [iter, List.range_succ, List.foldl_append, List.foldl_cons, List.foldl_nil, ← iter]
    refine ⟨fun i hi hn => ?_, fun i hi => ?_, ?_, ?_⟩
    · rw [xGet_xSet _ _ (by omega) (by omega)]
      split
      · rfl
      · exact hzero i hi (by omega)
    · by_cases h0 : i = 0
      · simp [xGet, h0]
      · rw [xGet_xSet _ _ (by omega) h0, if_neg (by omega), hlow i hi]
    · rw [xSet, if_neg (by omega), corSet_cores, hcores]
    · refine onlyCores_trans hrest ?_
      rw [xSet, if_neg (by omega)]
      simp [onlyCores]

/-- A start from ENTRY (R109). -/
def startedAt (c entry : Nat) (s t : State) : Prop :=
  (cget t c).halted = false ∧ sq t c = { SeqSt.reset with run := true, pc := entry } ∧
  (∀ i, 9 ≤ i → i ≤ 31 → xGet t c i = 0) ∧ (∀ i, 1 ≤ i → i ≤ 8 → xGet t c i = xGet s c i) ∧
  (∀ k, k ≠ c → cget t k = cget s k) ∧ onlyCores s t

theorem startedAt_of_clearedX {c entry : Nat} {s v : State} (h : clearedX c 23 s v) : startedAt c entry s
    (cupd c (fun k => { k with halted := false, seq := { SeqSt.reset with run := true, pc := entry } }) v) := by
  obtain ⟨hzero, hlow, hcores, hrest⟩ := h
  have hcget (k : Nat) : cget v k = cget s k := by simp only [cget, hcores]
  refine ⟨?_, ?_, fun i h9 h31 => ?_, fun i _ h8 => ?_, fun k hk => ?_, onlyCores_trans hrest ?_⟩
  · rw [cget_cupd_same]
  · rw [sq_cupd_same]
  · simpa only [xGet, corReg, rget_cupd] using hzero i h9 (by omega)
  · simpa only [xGet, corReg, rget_cupd] using hlow i (by omega)
  · rw [cget_cupd_other _ _ hk, hcget]
  · simp [onlyCores]

theorem startedAt_seqBegin (c : Nat) (s : State) : startedAt c (wFld (corReg s c 0x200) 14 2) s (seqBegin c s) :=
  startedAt_of_clearedX (clearedX_iter c 23 s)

theorem start_begins {c : Fin 4352} {w : Word} {s : State} (hstart : wBit w 0 = true) (hhalt : wBit w 1 = false)
    (hhalted : (cget s c).halted = true) (hpow : (cget s c).powering = []) (hload : (cget s c).loadBusy = false) :
    ∃ t, exec (.seqStart c w) s = .next t ∧ startedAt c (wFld w 14 2) s t := by
  let v := squpd c (fun q => { q with startPend := true }) (corSet c 0x200 (wPut (corReg s c 0x200) 14 2 (wFld w 14 2)) s)
  have hexec : execSeqStart c w s = .next (seqBegin c v) := by
    simp [execSeqStart, writeSeqCtl, hhalted, hhalt, hstart, startIfIdle, hpow, hload, v]
  obtain ⟨hrun, hseq, hzero, hlow, hother, hrest⟩ := startedAt_seqBegin c v
  have hentry : wFld (corReg v c 0x200) 14 2 = wFld w 14 2 := by
    have hword : corReg v c 0x200 = wPut (corReg s c 0x200) 14 2 (wFld w 14 2) := by simp [v, corReg, corSet]
    rw [hword, wFld_wPut_same _ _ (by decide) (by decide)]
    exact Nat.mod_eq_of_lt (Nat.mod_lt _ (by decide))
  have hx (i : Nat) : xGet v c i = xGet s c i := by
    simp only [xGet, v, corReg, rget_squpd]
    rw [rget_corSet_other _ _ (by omega)]
  refine ⟨_, hexec, hrun, by rw [hseq, hentry], hzero, fun i h1 h8 => (hlow i h1 h8).trans (hx i),
    fun k hk => (hother k hk).trans ?_, onlyCores_trans ?_ hrest⟩
  · simp [v, cget_squpd_other _ _ hk]
  · simp [v, onlyCores]

/-! ## A request to halt -/

theorem haltReqCore_stops {c : Nat} {s : State} (hrun : (cget s c).halted = false) :
    (sq (haltReqCore c s) c).run = false ∧ (sq (haltReqCore c s) c).stop = (if (sq s c).stop = 3 then 3 else 2) ∧
      (sq (haltReqCore c s) c).startPend = false ∧
      (cget (haltReqCore c s) c).mxe.queue = (cget s c).mxe.queue.filter (fun q => q.started) ∧
      (cget (haltReqCore c s) c).vxe.queue = (cget s c).vxe.queue.filter (fun q => q.performed) ∧
      (∀ m ∈ (cget (haltReqCore c s) c).mov, m.queue = []) ∧ (haltReqCore c s).regs = s.regs ∧
      ∀ k, k ≠ c → cget (haltReqCore c s) k = cget s k := by
  have heq : haltReqCore c s = squpd c
      (fun q => { q with run := false, wait := 0, stop := if q.stop = 3 then 3 else 2, startPend := false })
      (discardUnstarted c s) := by rw [haltReqCore, if_neg (by simp [hrun])]
  rw [heq]
  refine ⟨by simp, ?_, by simp, ?_, ?_, fun m hm => ?_, ?_, fun k hk => ?_⟩
  · rw [sq_squpd_same]
    simp only [sq, cget_discardUnstarted_same]
    rfl
  · simp [cget_discardUnstarted_same, feedKeep]
  · simp [cget_discardUnstarted_same]
  · simp only [cget_squpd_same, cget_discardUnstarted_same] at hm
    obtain ⟨m', -, rfl⟩ := List.mem_map.mp hm
    rfl
  · simp [discardUnstarted]
  · rw [cget_squpd_other _ _ hk, cget_discardUnstarted_other _ hk]

theorem haltReqCore_halted {c : Nat} {s : State} (hhalted : (cget s c).halted = true) :
    cget (haltReqCore c s) c = { cget s c with seq := { (cget s c).seq with startPend := false } } ∧
      ∀ k, k ≠ c → cget (haltReqCore c s) k = cget s k := by
  rw [haltReqCore, if_pos hhalted]
  split
  · exact ⟨cget_squpd_same _ _ _, fun k hk => cget_squpd_other _ _ hk⟩
  · next hpend =>
    refine ⟨?_, fun _ _ => rfl⟩
    rw [← Bool.eq_false_iff.mpr hpend]
    rfl

theorem haltReq_stops {c : Fin 4352} {w : Word} {s : State} (hstart : wBit w 0 = false) (hhalt : wBit w 1 = true)
    (hrun : (cget s c).halted = false) :
    ∃ t, exec (.haltReq c w) s = .next t ∧ (sq t c).run = false ∧ (sq t c).stop = (if (sq s c).stop = 3 then 3 else 2) ∧
      (sq t c).startPend = false ∧
      (cget t c).mxe.queue = (cget s c).mxe.queue.filter (fun q => q.started) ∧
      (cget t c).vxe.queue = (cget s c).vxe.queue.filter (fun q => q.performed) ∧
      (∀ m ∈ (cget t c).mov, m.queue = []) ∧ t.regs = s.regs ∧ (∀ k, k ≠ c.val → cget t k = cget s k) := by
  by_cases hentry : wFld w 14 2 = wFld (corReg s c 0x200) 14 2
  · have hexec : execHaltReq c w s = .next (haltReqCore c s) := by
      simp [execHaltReq, writeSeqCtl, hrun, hhalt, hstart, hentry]
    exact ⟨_, hexec, haltReqCore_stops hrun⟩
  · have hexec : execHaltReq c w s = .next (haltReqCore c (setCtlErr c s)) := by
      simp [execHaltReq, writeSeqCtl, hrun, hhalt, hstart, hentry]
    have hcore : cget (setCtlErr c s) c = { cget s c with ctlErr := true } := cget_cupd_same _ _ _
    obtain ⟨h1, h2, h3, h4, h5, h6, h7, h8⟩ := haltReqCore_stops (c := c) (s := setCtlErr c s) (by rw [hcore, hrun])
    refine ⟨_, hexec, h1, ?_, h3, ?_, ?_, h6, h7.trans (cupd_regs _ _ _), fun k hk => (h8 k hk).trans (cget_cupd_other _ _ hk)⟩
    · rw [h2, sq, hcore]
      rfl
    · rw [h4, hcore]
    · rw [h5, hcore]

theorem haltReq_halted {c : Fin 4352} {w : Word} {s : State} (hstart : wBit w 0 = false) (hhalt : wBit w 1 = true)
    (hhalted : (cget s c).halted = true) : ∃ t, exec (.haltReq c w) s = .next t ∧
      cget t c = { cget s c with seq := { (cget s c).seq with startPend := false } } ∧
      (∀ k, k ≠ c.val → cget t k = cget s k) := by
  have hexec : execHaltReq c w s = .next (haltReqCore c (corSet c 0x200 (wPut (corReg s c 0x200) 14 2 (wFld w 14 2)) s)) := by
    simp [execHaltReq, writeSeqCtl, hhalted, hhalt, hstart]
  have hcore := haltReqCore_halted (c := c) (s := corSet c 0x200 (wPut (corReg s c 0x200) 14 2 (wFld w 14 2)) s)
    (by rw [cget_corSet, hhalted])
  simp only [cget_corSet] at hcore
  exact ⟨_, hexec, hcore⟩

/-! ## The load path -/

theorem onlyCores_cupd (c : Nat) (f : CoreSt → CoreSt) (s : State) : onlyCores s (cupd c f s) := by simp [onlyCores]

/-- A written control word, and the load or the error that it starts. -/
theorem loadStarted {c : Nat} {x : Word} {s t : State}
    (ht : t = if (cget s c).halted = true then cupd c (fun k => { k with loadBusy := true }) (corSet c 0x2A4 x s)
      else setCtlErr c (corSet c 0x2A4 x s)) :
    oneReg (coreBase c + 0x2A4) x s t ∧ onlyCores s t ∧
      ((cget s c).halted = true → cget t c = { cget s c with loadBusy := true }) ∧
      ((cget s c).halted = false → cget t c = { cget s c with ctlErr := true }) := by
  have hreg : oneReg (coreBase c + 0x2A4) x s (corSet c 0x2A4 x s) := ⟨by simp [corSet], fun o ho => rget_corSet_other _ _ ho⟩
  have hv : onlyCores s (corSet c 0x2A4 x s) := by simp [onlyCores]
  subst ht
  by_cases hhalted : (cget s c).halted = true
  · rw [if_pos hhalted]
    refine ⟨by simpa only [oneReg, rget_cupd] using hreg, onlyCores_trans hv (onlyCores_cupd _ _ _), fun _ => ?_,
      fun h => absurd hhalted (by simp [h])⟩
    simp
  · rw [if_neg hhalted]
    refine ⟨by simpa only [oneReg, setCtlErr, rget_cupd] using hreg, onlyCores_trans hv (onlyCores_cupd _ _ _),
      fun h => absurd h hhalted, fun _ => ?_⟩
    simp [setCtlErr]

theorem loadGo_starts {c : Fin 4352} {w : Word} {s : State} (hgo : wBit w 30 = true) :
    ∃ t, exec (.loadGo c w) s = .next t ∧ oneReg (coreBase c + 0x2A4) (w &&& 0x23FF03FF) s t ∧ onlyCores s t ∧
      ((cget s c).halted = true → cget t c = { cget s c with loadBusy := true }) ∧
      ((cget s c).halted = false → cget t c = { cget s c with ctlErr := true }) := by
  refine ⟨writeLoadCtl c w s, rfl, loadStarted ?_⟩
  rw [writeLoadCtl]
  simp only [hgo, Bool.not_true, Bool.false_eq_true, if_false, cget_corSet]
  cases (cget s c).halted <;> rfl

/-! The end of a load -/

/-- Core `c` has no load under way and no fetched block. -/
def loadOver (c : Nat) (s : State) : Prop := (cget s c).loadBusy = false ∧ (sq s c).loopBuf = []

theorem loadOver_congr {c : Nat} {s t : State} (h : loadOver c s) (hcores : t.cores = s.cores) : loadOver c t := by
  simpa only [loadOver, sq, cget, hcores] using h

theorem loadOver_startIfIdle {c : Nat} {s : State} (h : loadOver c s) : loadOver c (startIfIdle c s) := by
  unfold startIfIdle
  dsimp only
  split
  · obtain ⟨-, hseq, -⟩ := startedAt_seqBegin c s
    obtain ⟨-, -, hcores, -⟩ := clearedX_iter c 23 s
    refine ⟨?_, by rw [hseq]; rfl⟩
    rw [seqBegin, cget_cupd_same]
    simp only [cget, hcores]
    exact h.1
  · exact h

theorem loadOver_loadEnd {c : Nat} {s : State} (hbusy : (cget s c).loadBusy = true) : loadOver c (loadEnd c s).1 := by
  rw [loadEnd, if_neg (by simp [hbusy])]
  exact loadOver_startIfIdle ⟨by rw [cget_cupd_same], by rw [sq_cupd_same]⟩

theorem sendMsix_cores (fn vec : Nat) (s : State) : (sendMsix fn vec s).cores = s.cores := by
  unfold sendMsix
  split
  · rfl
  · split
    · exact rupd_cores _ _ _
    · rfl

theorem reply_cores (w : Nat) (b : List Byte) (kind status result detail bit : Nat) (record : Bool) (s : State) :
    (reply w b kind status result detail bit record s).cores = s.cores := by
  unfold reply
  split_ifs <;> simp [sendMsix_cores, fnSend]

theorem complete_cores (id status result detail : Nat) (s : State) : (complete id status result detail s).cores = s.cores := by
  unfold complete
  split
  · rfl
  · dsimp only
    split_ifs
    · rfl
    · exact reply_cores _ _ _ _ _ _ _ _ _

theorem loadFinish_cores (p : Nat) (s : State) : (loadFinish p s).cores = s.cores := by
  unfold loadFinish
  split
  · rfl
  · split_ifs
    · rfl
    · split <;> rw [complete_cores, pupd_cores]

theorem loadPathDone_ends {c : Fin 4352} {s : State} (hbusy : (cget s c).loadBusy = true) (hrun : coreRuns s c = true) :
    ∃ t, exec (.loadPathDone c) s = .next t ∧ loadOver c t := by
  show ∃ t, execLoadPathDone c s = .next t ∧ _
  rw [execLoadPathDone, if_neg (by simp [hbusy, hrun])]
  dsimp only
  have hover := loadOver_loadEnd hbusy
  split
  · exact ⟨_, rfl, hover⟩
  · exact ⟨_, rfl, loadOver_congr hover (by rw [loadFinish_cores, pupd_cores])⟩

end Sys2Proof.Machine

open Sys2Proof.Machine

/-- Settles O8: a start by the law of `seqBegin`, a request to halt by that of `haltReqCore`, the load path by those of its ends. -/
theorem seqStartAndLoad : Obligations.SeqStartAndLoad :=
  ⟨fun _ _ _ => start_begins, fun _ _ _ => haltReq_stops, fun _ _ _ => haltReq_halted, fun _ _ _ => loadGo_starts,
    fun _ _ => loadPathDone_ends⟩
end

section
/-! Integer accumulation in the matrix engine (O11). -/

namespace Sys2Proof.Machine

theorem toInt_unsignedOf {i : Int} (hlo : -2 ^ 31 ≤ i) (hhi : i < 2 ^ 31) : (BitVec.ofNat 32 (unsignedOf 32 i)).toInt = i := by
  rw [ofNat_unsignedOf, BitVec.toInt_ofInt, Int.bmod_eq_of_le_mul_two (by omega) (by omega)]

/-- Saturation gives the nearest value that INT32 holds, and says whether it differs. -/
theorem satInt_32 (i : Int) : (BitVec.ofNat 32 (satInt 32 i).1).toInt = max (-2 ^ 31) (min (2 ^ 31 - 1) i) ∧
    ((satInt 32 i).2 = false ↔ -2 ^ 31 ≤ i ∧ i < 2 ^ 31) := by
  rw [satInt]
  simp only [Nat.reduceSub, Nat.reducePow, Nat.cast_ofNat]
  split_ifs with hhigh hlow
  · exact ⟨by rw [toInt_unsignedOf (by omega) (by omega)]; omega, by simp; omega⟩
  · exact ⟨by rw [toInt_unsignedOf (by omega) (by omega)]; omega, by simp; omega⟩
  · exact ⟨by rw [toInt_unsignedOf (by omega) (by omega)]; omega, by simp; omega⟩

end Sys2Proof.Machine

open Sys2Proof.Machine

/-- Settles O11: the exact sum, saturated. -/
theorem mxeIntegerAccumulate : Obligations.MxeIntegerAccumulate := by
  intro pairs entry x
  have hsum : (pairs.map (fun p => p.1 * p.2)).foldl (· + ·) entry = x := List.foldl_eq_apply_foldr
  obtain ⟨hbits, hsat⟩ := satInt_32 x
  have hacc : accInt pairs entry = { bits := (satInt 32 x).1, nan := 0, ovf := 0, sat := b2n (satInt 32 x).2 } := by
    rw [accInt, hsum]
  rw [hacc]
  refine ⟨hbits, ?_, rfl⟩
  rw [← hsat]
  cases (satInt 32 x).2 <;> simp [b2n]
end

section
/-! The configuration of a core's scratchpads (O16). -/

namespace Sys2Proof.Machine

/-! ## The slot wheel -/

/-- A word of the slot map with the reserved codes of its first `n` slots loaded as 0. -/
theorem wFld_slotMapClean_upTo (w : Word) (n i : Nat) (hn : n ≤ 8) (hi : i < 8) :
    wFld ((List.range n).foldl (fun w i => if wFld w (4 * i + 3) (4 * i) ≥ 8 then wPut w (4 * i + 3) (4 * i) 0 else w) w)
      (4 * i + 3) (4 * i) = if i < n ∧ 8 ≤ wFld w (4 * i + 3) (4 * i) then 0 else wFld w (4 * i + 3) (4 * i) := by
  induction n with
  | zero => simp
  | succ n ih =>
    have hprev := ih (by omega)
    rw [List.range_succ, List.foldl_append, List.foldl_cons, List.foldl_nil]
    generalize (List.range n).foldl _ w = v at hprev ⊢
    by_cases hin : i = n
    · subst hin
      rw [if_neg (by omega)] at hprev
      rw [hprev]
      split
      · rw [wFld_wPut_same _ _ (by omega) (by omega), if_pos (by omega)]
        exact Nat.zero_mod _
      · rw [hprev, if_neg (by omega)]
    · have hother : wFld (if wFld v (4 * n + 3) (4 * n) ≥ 8 then wPut v (4 * n + 3) (4 * n) 0 else v) (4 * i + 3) (4 * i) =
          wFld v (4 * i + 3) (4 * i) := by
        split
        · exact wFld_wPut_disjoint _ _ (by omega) (by omega) (by omega)
        · rfl
      rw [hother, hprev]
      simp only [show i < n ↔ i < n + 1 by omega]

theorem wFld_slotMapClean (w : Word) {i : Nat} (hi : i < 8) : wFld (slotMapClean w) (4 * i + 3) (4 * i) =
    if wFld w (4 * i + 3) (4 * i) < 8 then wFld w (4 * i + 3) (4 * i) else 0 := by
  rw [slotMapClean, wFld_slotMapClean_upTo w 8 i (Nat.le_refl 8) hi]
  split_ifs <;> omega

/-- What a cleared map sets is the map; the error bit says whether a code was cleared. -/
theorem slotmap_written {c : Fin 4352} {m : Fin 3} {w : Word} {s : State} : ∃ t, exec (.slotmapWrite c m w) s = .next t ∧
    onlyCores s t ∧ oneCore c s t ∧
    ((cget s c).halted = false → t.regs = s.regs ∧ cget t c = { cget s c with mapErr := true }) ∧
    ((cget s c).halted = true → (∀ i, i < 8 → wFld (corReg t c (0x10 + 4 * m)) (4 * i + 3) (4 * i) =
        if wFld w (4 * i + 3) (4 * i) < 8 then wFld w (4 * i + 3) (4 * i) else 0) ∧
      (∀ o, o ≠ coreBase c + (0x10 + 4 * m) → rget t o = rget s o)) := by
  have herr (v : State) : onlyCores v (setMapErr c v) ∧ oneCore c v (setMapErr c v) :=
    ⟨onlyCores_cupd _ _ _, fun k hk => cget_cupd_other _ _ hk⟩
  cases hhalted : (cget s c).halted with
  | false =>
    have hexec : execSlotmapWrite c m w s = .next (setMapErr c s) := by simp [execSlotmapWrite, writeSlotMap, hhalted]
    exact ⟨_, hexec, (herr s).1, (herr s).2, fun _ => ⟨cupd_regs _ _ _, cget_cupd_same _ _ _⟩, nofun⟩
  | true =>
    let v := corSet c (0x10 + 4 * m) (slotMapClean w) s
    have hexec : execSlotmapWrite c m w s = .next (if slotMapClean w = w then v else setMapErr c v) := by
      simp [execSlotmapWrite, writeSlotMap, hhalted, v]
    have hrget : ∀ o, rget (if slotMapClean w = w then v else setMapErr c v) o = rget v o := fun o => by
      split
      · rfl
      · exact rget_cupd _ _ _ _
    have hv : onlyCores s v ∧ oneCore c s v := ⟨by simp [v, onlyCores], fun k _ => by simp [v]⟩
    refine ⟨_, hexec, ?_, ?_, nofun, fun _ => ⟨fun i hi => ?_, fun o ho => ?_⟩⟩
    · split
      · exact hv.1
      · exact onlyCores_trans hv.1 (herr v).1
    · split
      · exact hv.2
      · exact fun k hk => ((herr v).2 k hk).trans (hv.2 k hk)
    · rw [corReg, hrget, ← corReg, corReg_corSet, if_pos rfl, wFld_slotMapClean w hi]
    · rw [hrget, rget_corSet_other _ _ ho]

/-! ## Bank groups -/

theorem corePart_congr {s t : State} (hmap : t.map = s.map) (hparts : t.parts = s.parts) (c : Nat) :
    corePart t c = corePart s c := by
  simp only [corePart, cluPart, cluQT, twLog, clLog, hmap, hparts]

/-- Of core `c` only the groups in `off` lost power: their ready bits are 0, and the register's other bits, the other
registers, the groups that are powering, the other cores, the map and the partitions are as before. -/
def groupsOff (c : Nat) (off : Nat → Bool) (s t : State) : Prop :=
  (∀ i, wBit (corReg t c 0x20) i = (wBit (corReg s c 0x20) i && !(decide (16 ≤ i) && off (i - 16)))) ∧
  (∀ o, o ≠ coreBase c + 0x20 → rget t o = rget s o) ∧ (cget t c).powering = (cget s c).powering ∧ oneCore c s t ∧
  t.map = s.map ∧ t.parts = s.parts

/-- A core without the waiting writes of the blocks of group `g`. -/
def dropMerges (g : Nat) (k : CoreSt) : CoreSt :=
  let (b, n) := groupBlks g
  { k with merges := k.merges.filter (fun m => decide (m.blk < b) || decide (b + n ≤ m.blk)) }

theorem groupDown_eq (c g : Nat) (s : State) : groupDown c g s =
    let v := cupd c (dropMerges g) (corUpd c 0x20 (fun w => wPut w (16 + g) (16 + g) 0) s)
    { v with
      sp := memZero v.sp (spKey c (groupBlks g).1) (64 * (groupBlks g).2)
      spChk := memZero v.spChk (spChkKey c (groupBlks g).1) (16 * (groupBlks g).2)
      spWr := nsDrop v.spWr (spWrKey c (groupBlks g).1) (groupBlks g).2 } := rfl

theorem groupDown_regs (c g : Nat) (s : State) :
    (groupDown c g s).regs = (corUpd c 0x20 (fun w => wPut w (16 + g) (16 + g) 0) s).regs := by
  rw [groupDown_eq]
  dsimp only
  rw [cupd_regs]

theorem groupDown_cores (c g : Nat) (s : State) : (groupDown c g s).cores =
    (cupd c (dropMerges g) (corUpd c 0x20 (fun w => wPut w (16 + g) (16 + g) 0) s)).cores := by
  rw [groupDown_eq]

theorem groupDown_map (c g : Nat) (s : State) : (groupDown c g s).map = s.map := by
  rw [groupDown_eq]
  dsimp only
  rw [cupd_map, corUpd_map]

theorem groupDown_parts (c g : Nat) (s : State) : (groupDown c g s).parts = s.parts := by
  rw [groupDown_eq]
  dsimp only
  rw [cupd_parts, corUpd_parts]

theorem cget_groupDown_other {c k : Nat} (g : Nat) (s : State) (hk : k ≠ c) : cget (groupDown c g s) k = cget s k := by
  rw [cget, groupDown_cores, ← cget, cget_cupd_other _ _ hk, cget_corUpd]

theorem powering_groupDown (c g : Nat) (s : State) : (cget (groupDown c g s) c).powering = (cget s c).powering := by
  rw [cget, groupDown_cores, ← cget, cget_cupd_same, cget_corUpd]
  rfl

theorem wBit_groupDown (c i : Nat) {g : Nat} (hg : g < 12) (s : State) : wBit (corReg (groupDown c g s) c 0x20) i =
    (wBit (corReg s c 0x20) i && !(decide (i = 16 + g))) := by
  have hreg : corReg (groupDown c g s) c 0x20 = wPut (corReg s c 0x20) (16 + g) (16 + g) 0 := by
    rw [corReg, rget, groupDown_regs, ← rget, ← corReg]
    simp [corUpd, corReg, rupd]
  rw [hreg, wBit_wPut _ _ _ (by omega) (Nat.le_refl _)]
  by_cases h : i = 16 + g
  · simp [h]
  · rw [if_neg (by omega)]
    simp [h]

theorem groupsOff_groupDown {c g : Nat} {off : Nat → Bool} {s t : State} (h : groupsOff c off s t) (hg : g < 12) :
    groupsOff c (fun k => off k || k == g) s (groupDown c g t) := by
  obtain ⟨hbits, hregs, hpow, hother, hmap, hparts⟩ := h
  refine ⟨fun i => ?_, fun o ho => ?_, (powering_groupDown c g t).trans hpow, fun k hk => (cget_groupDown_other g t hk).trans (hother k hk),
    (groupDown_map c g t).trans hmap, (groupDown_parts c g t).trans hparts⟩
  · rw [wBit_groupDown c i hg, hbits]
    by_cases h16 : 16 ≤ i
    · simp only [h16, show i = 16 + g ↔ i - 16 = g by omega]
      cases off (i - 16) <;> by_cases he : i - 16 = g <;> simp [he]
    · simp [h16, show i ≠ 16 + g by omega]
  · have : rget (groupDown c g t) o = rget t o := by
      rw [rget, groupDown_regs, ← rget, corUpd, rupd]
      exact rget_rset_other _ _ ho
    rw [this, hregs o ho]

theorem groupsOff_refl (c : Nat) (s : State) : groupsOff c (fun _ => false) s s :=
  ⟨fun i => by simp, fun _ _ => rfl, rfl, fun _ _ => rfl, rfl, rfl⟩

theorem groupsOff_congr {c : Nat} {f g : Nat → Bool} {s t : State} (h : groupsOff c f s t) (hfg : ∀ k, f k = g k) :
    groupsOff c g s t := by
  rwa [show f = g from funext hfg] at h

/-- Below `n`, every group that has power and that the profile does not ask for loses it. -/
theorem groupsOff_iter {c : Nat} (on req : Nat) (s : State) {n : Nat} (hn : n ≤ 12) :
    groupsOff c (fun g => decide (g < n) && (bitAt on g && !bitAt req g)) s
      (iter n (fun g s => if bitAt on g && !bitAt req g then groupDown c g s else s) s) := by
  induction n with
  | zero => exact groupsOff_congr (groupsOff_refl c s) fun k => by simp
  | succ n ih =>
    rw [iter, List.range_succ, List.foldl_append, List.foldl_cons, List.foldl_nil, ← iter]
    have h := ih (by omega)
    split
    · next hdown =>
      refine groupsOff_congr (groupsOff_groupDown h (by omega)) fun k => ?_
      by_cases hk : k = n
      · simp [hk, hdown]
      · simp [hk, show k < n + 1 ↔ k < n by omega]
    · next hkeep =>
      refine groupsOff_congr h fun k => ?_
      by_cases hk : k = n
      · simp [hk, hkeep]
      · simp [show k < n + 1 ↔ k < n by omega]

theorem profile_halted {c : Nat} {w : Word} {s : State} (hhalted : (cget s c).halted = true) :
    oneCore c s (writeProfile c w s) ∧ wFld (corReg (writeProfile c w s) c 0x20) 11 0 = wFld w 11 0 ∧
      (∀ g, g < 12 → (bitAt (wFld (corReg (writeProfile c w s) c 0x20) 27 16) g = true ↔
        bitAt (wFld (corReg s c 0x20) 27 16) g = true ∧ bitAt (wFld w 11 0) g = true)) ∧
      (∀ g, g ∈ (cget (writeProfile c w s) c).powering → bitAt (wFld w 11 0) g = true) ∧
      (corePart s c = none → (cget (writeProfile c w s) c).powering = []) ∧
      (∀ o, o ≠ coreBase c + 0x20 → rget (writeProfile c w s) o = rget s o) := by
  let on := wFld (corReg s c 0x20) 27 16
  let req := wFld w 11 0
  let u := corUpd c 0x20 (fun v => wPut v 11 0 req) s
  let v := iter 12 (fun g s => if bitAt on g && !bitAt req g then groupDown c g s else s) u
  have hdef : writeProfile c w s = cupd c (fun k => { k with
      powering := if (corePart v c).isNone then [] else k.powering.filter (fun g => bitAt req g) ++ (List.range 12).filter
        (fun g => bitAt req g && !bitAt on g && !(k.powering.filter (fun g => bitAt req g)).contains g) }) v := by
    rw [writeProfile, if_neg (by simp [hhalted])]
  obtain ⟨hbits, hregs, hpow, hother, hmap, hparts⟩ := groupsOff_iter (c := c) on req u (Nat.le_refl 12)
  change ∀ i, wBit (corReg v c 0x20) i = _ at hbits
  change ∀ o, _ → rget v o = _ at hregs
  change oneCore c u v at hother
  have hu : corReg u c 0x20 = wPut (corReg s c 0x20) 11 0 req := by simp [u, corUpd, corReg, rupd]
  have hpart : corePart v c = corePart s c := corePart_congr (hmap.trans (corUpd_map _ _ _ _)) (hparts.trans (corUpd_parts _ _ _ _)) c
  have hreg : ∀ o, rget (writeProfile c w s) o = rget v o := fun o => by rw [hdef, rget_cupd]
  have hcore : (cget (writeProfile c w s) c).powering = if (corePart s c).isNone then [] else
      (cget v c).powering.filter (fun g => bitAt req g) ++ (List.range 12).filter
        (fun g => bitAt req g && !bitAt on g && !((cget v c).powering.filter (fun g => bitAt req g)).contains g) := by
    rw [hdef, cget_cupd_same, hpart]
  refine ⟨fun k hk => ?_, ?_, fun g hg => ?_, fun g hg => ?_, fun hnone => ?_, fun o ho => ?_⟩
  · rw [hdef, cget_cupd_other _ _ hk, hother k hk]
    exact cget_corUpd _ _ _ _ _
  · rw [corReg, hreg, ← corReg]
    refine Nat.eq_of_testBit_eq fun i => ?_
    rw [testBit_wFld, hbits, hu, wBit_wPut _ _ _ (by decide) (by decide)]
    by_cases hi : i < 12
    · simp [hi, show ¬16 ≤ i by omega, show i ≤ 11 by omega, req]
    · simp [hi, testBit_wFld]
  · rw [corReg, hreg, ← corReg, bitAt_eq_testBit, testBit_wFld, hbits, hu, wBit_wPut _ _ _ (by decide) (by decide),
      if_neg (by omega)]
    have hon : bitAt on g = wBit (corReg s c 0x20) (16 + g) := by
      rw [bitAt_eq_testBit, testBit_wFld]
      simp [hg, show g < 27 + 1 - 16 by omega]
    simp only [show g < 27 + 1 - 16 by omega, show (16 + g) - 16 = g by omega, hg, decide_true, Bool.true_and, ← hon,
      show 16 ≤ 16 + g by omega]
    change _ ↔ bitAt on g = true ∧ bitAt req g = true
    cases bitAt on g <;> cases bitAt req g <;> decide
  · rw [hcore] at hg
    split at hg
    · nomatch hg
    · rcases List.mem_append.mp hg with h | h
      · exact (List.mem_filter.mp h).2
      · have := (List.mem_filter.mp h).2
        simp only [Bool.and_eq_true] at this
        exact this.1.1
  · rw [hcore, hnone]
    rfl
  · rw [hreg, hregs o ho]
    exact rget_rset_other _ _ ho

theorem profile_written (c : Fin 4352) (w : Word) (s : State) : ∃ t, exec (.pwrProfileWrite c w) s = .next t ∧ oneCore c s t ∧
    ((cget s c).halted = false → t = setMapErr c s) ∧
    ((cget s c).halted = true → wFld (corReg t c 0x20) 11 0 = wFld w 11 0 ∧
      (∀ g, g < 12 → (bitAt (wFld (corReg t c 0x20) 27 16) g = true ↔
        bitAt (wFld (corReg s c 0x20) 27 16) g = true ∧ bitAt (wFld w 11 0) g = true)) ∧
      (∀ g, g ∈ (cget t c).powering → bitAt (wFld w 11 0) g = true) ∧ (corePart s c = none → (cget t c).powering = []) ∧
      (∀ o, o ≠ coreBase c + 0x20 → rget t o = rget s o)) := by
  cases hhalted : (cget s c).halted with
  | false =>
    have hexec : execPwrProfileWrite c w s = .next (setMapErr c s) := by simp [execPwrProfileWrite, writeProfile, hhalted]
    exact ⟨_, hexec, fun k hk => cget_cupd_other _ _ hk, fun _ => rfl, nofun⟩
  | true =>
    obtain ⟨hone, hrest⟩ := profile_halted (w := w) hhalted
    exact ⟨_, rfl, hone, nofun, fun _ => hrest⟩

theorem nsHas_nsDrop (s : NatSet) (lo n k : Nat) : nsHas (nsDrop s lo n) k = (nsHas s k && (decide (k < lo) || decide (lo + n ≤ k))) := by
  rw [Bool.eq_iff_iff]
  simp [nsHas, nsDrop, List.mem_filter]

/-! ## A group that has power -/

/-- A start keeps every register but those it clears, the powering groups, the scratchpads and their written blocks. -/
theorem rget_clearX {c o : Nat} (s : State) (ho : o < coreBase c + 0x424) (n : Nat) :
    rget (iter n (fun i s => xSet c (i + 9) 0 s) s) o = rget s o := by
  induction n with
  | zero => rfl
  | succ n ih =>
    rw [iter, List.range_succ, List.foldl_append, List.foldl_cons, List.foldl_nil, ← iter, xSet, if_neg (by omega),
      rget_corSet_other _ _ (by omega), ih]

theorem onlyCores_sp {u t : State} (h : onlyCores u t) : t.sp = u.sp := by
  unfold onlyCores at h
  rw [← h]

theorem onlyCores_spWr {u t : State} (h : onlyCores u t) : t.spWr = u.spWr := by
  unfold onlyCores at h
  rw [← h]

theorem seqBegin_kept (c : Nat) (s : State) : (cget (seqBegin c s) c).powering = (cget s c).powering ∧
    (∀ o, o < coreBase c + 0x424 → rget (seqBegin c s) o = rget s o) ∧ oneCore c s (seqBegin c s) ∧
    (seqBegin c s).sp = s.sp ∧ (seqBegin c s).spWr = s.spWr := by
  obtain ⟨-, -, hcores, hrest⟩ := clearedX_iter c 23 s
  obtain ⟨-, -, -, -, hother, -⟩ := startedAt_seqBegin c s
  refine ⟨?_, fun o ho => ?_, hother, ?_, ?_⟩
  · rw [seqBegin, cget_cupd_same]
    simp only [cget, hcores]
  · rw [seqBegin, rget_cupd, rget_clearX s ho]
  · rw [seqBegin, cupd_sp]
    exact onlyCores_sp hrest
  · rw [seqBegin, cupd_spWr]
    exact onlyCores_spWr hrest

theorem startIfIdle_kept (c : Nat) (s : State) : (cget (startIfIdle c s) c).powering = (cget s c).powering ∧
    (∀ o, o < coreBase c + 0x424 → rget (startIfIdle c s) o = rget s o) ∧ oneCore c s (startIfIdle c s) ∧
    (startIfIdle c s).sp = s.sp ∧ (startIfIdle c s).spWr = s.spWr := by
  unfold startIfIdle
  dsimp only
  split
  · exact seqBegin_kept c s
  · exact ⟨rfl, fun _ _ => rfl, fun _ _ => rfl, rfl, rfl⟩

/-- A group's first use after it lost power: its blocks are unwritten, and the waiting start begins if it was the last. -/
theorem exec_bankGroupReady {c : Fin 4352} {g : Nat} {rest : List Nat} {s u : State} (hpow : (cget s c).powering = g :: rest)
    (hu : u = corUpd c 0x20 (fun w => wPut w (16 + g) (16 + g) 1) (cupd c (fun k => { k with powering := rest }) s)) :
    execBankGroupReady c s =
      .next (startIfIdle c { u with spWr := nsDrop u.spWr (spWrKey c (groupBlks g).1) (groupBlks g).2 }) := by
  rw [execBankGroupReady, hpow, hu]

theorem spWritten_nsDrop (c : Nat) {b lo n : Nat} (s : State) (hlo : lo ≤ b) (hhi : b < lo + n) :
    nsHas (nsDrop s.spWr (spWrKey c lo) n) (spWrKey c b) = false := by
  rw [nsHas_nsDrop, decide_eq_false (by simp only [spWrKey]; omega), decide_eq_false (by simp only [spWrKey]; omega)]
  exact Bool.and_false _

theorem bankGroup_ready {c : Fin 4352} {g : Nat} {rest : List Nat} {s : State} (hpow : (cget s c).powering = g :: rest) (hg : g < 12) :
    ∃ t, exec (.bankGroupReady c) s = .next t ∧ (cget t c).powering = rest ∧ wBit (corReg t c 0x20) (16 + g) = true ∧
      (∀ b, (groupBlks g).1 ≤ b → b < (groupBlks g).1 + (groupBlks g).2 → spWritten t c b = false) ∧ oneCore c s t ∧
      t.sp = s.sp := by
  obtain ⟨u, hu⟩ : ∃ u, u = corUpd c 0x20 (fun w => wPut w (16 + g) (16 + g) 1) (cupd c (fun k => { k with powering := rest }) s) :=
    ⟨_, rfl⟩
  have hexec := exec_bankGroupReady hpow hu
  have hreg : corReg u c 0x20 = wPut (corReg s c 0x20) (16 + g) (16 + g) 1 := by
    rw [hu]
    simp [corUpd, corReg, rupd]
  have hpowU : (cget u c).powering = rest := by
    rw [hu]
    simp
  have hother : oneCore c s u := fun k hk => by
    rw [hu]
    simp [cget_cupd_other _ _ hk]
  have hsp : u.sp = s.sp := by
    rw [hu]
    simp
  clear hu
  obtain ⟨v, hv⟩ : ∃ v, v = { u with spWr := nsDrop u.spWr (spWrKey c (groupBlks g).1) (groupBlks g).2 } := ⟨_, rfl⟩
  rw [← hv] at hexec
  obtain ⟨kpow, kregs, kother, ksp, kwr⟩ := startIfIdle_kept c v
  refine ⟨_, hexec, kpow.trans ?_, ?_, fun b hlo hhi => ?_, fun k hk => (kother k hk).trans ?_, ksp.trans ?_⟩
  · rw [hv]
    exact hpowU
  · have hget : corReg v c 0x20 = corReg u c 0x20 := by rw [hv]; rfl
    rw [corReg, kregs _ (by omega), ← corReg, hget, hreg, wBit_wPut _ _ _ (by omega) (Nat.le_refl _),
      if_pos ⟨Nat.le_refl _, Nat.le_refl _⟩, Nat.sub_self]
    rfl
  · rw [spWritten, kwr, hv]
    exact spWritten_nsDrop c u hlo hhi
  · rw [hv]
    exact hother k hk
  · rw [hv]
    exact hsp

/-! ## Unified mode -/

theorem uniRegion_written (c : Fin 4352) (i : Fin 8) (w : Word) (s : State) : ∃ t, exec (.uniRegionWrite c i w) s = .next t ∧
    ((cget s c).halted = false → t = setMapErr c s) ∧
    ((cget s c).halted = true → oneReg (coreBase c + (0x40 + 4 * i)) (w &&& 0xE3FFFFFF) s t ∧ t.cores = s.cores ∧
      onlyCores s t) := by
  have hset (x : Word) : oneReg (coreBase c + (0x40 + 4 * i)) x s (corSet c (0x40 + 4 * i) x s) ∧
      (corSet c (0x40 + 4 * i) x s).cores = s.cores ∧ onlyCores s (corSet c (0x40 + 4 * i) x s) :=
    ⟨⟨by simp [corSet], fun o ho => rget_corSet_other _ _ ho⟩, by simp, by simp [onlyCores]⟩
  cases hhalted : (cget s c).halted with
  | false =>
    have hexec : execUniRegionWrite c i w s = .next (setMapErr c s) := by simp [execUniRegionWrite, writeUniRegion, hhalted]
    exact ⟨_, hexec, fun _ => rfl, nofun⟩
  | true =>
    have hexec : execUniRegionWrite c i w s = .next (corSet c (0x40 + 4 * i) (w &&& uniRegionMask) s) := by
      simp [execUniRegionWrite, writeUniRegion, hhalted]
    exact ⟨_, hexec, nofun, fun _ => hset (w &&& uniRegionMask)⟩

theorem unified_written (c : Fin 4352) (v : Bool) (s : State) : ∃ t, exec (.unifiedWrite c v) s = .next t ∧ t.regs = s.regs ∧
    oneCore c s t ∧ onlyCores s t ∧
    cget t c = { cget s c with unified := if (cget s c).halted then v else (cget s c).unified } := by
  by_cases hhalted : (cget s c).halted = true
  · have hexec : execUnifiedWrite c v s = .next (cupd c (fun k => { k with unified := v }) s) := by
      rw [execUnifiedWrite, writeUnified, if_pos hhalted]
    refine ⟨_, hexec, cupd_regs _ _ _, fun k hk => cget_cupd_other _ _ hk, onlyCores_cupd _ _ _, ?_⟩
    rw [cget_cupd_same, if_pos hhalted]
  · have hexec : execUnifiedWrite c v s = .next s := by rw [execUnifiedWrite, writeUnified, if_neg hhalted]
    refine ⟨_, hexec, rfl, fun _ _ => rfl, rfl, ?_⟩
    rw [if_neg hhalted]

/-! ## Narrow writes -/

@[simp] theorem sramCheck_length (d : List Byte) : (sramCheck d).length = 16 := by
  simp [sramCheck, rowParity, colParity, packBits]

@[simp] theorem poisonCheck_length (d : List Byte) : (poisonCheck d).length = 16 := by
  simp [poisonCheck, rowParity, colParity, packBits]

/-- A block stored with its check symbols. -/
theorem spStore_holds {c b : Nat} {d chk : List Byte} (s : State) (hd : d.length = 64) (hchk : chk.length = 16) :
    memRead (spStore c b d chk s).sp (spKey c b) 64 = d ∧ memRead (spStore c b d chk s).spChk (spChkKey c b) 16 = chk ∧
      spWritten (spStore c b d chk s) c b = true ∧
      ∀ a, a < spKey c b ∨ spKey c b + 64 ≤ a → memGet (spStore c b d chk s).sp a = memGet s.sp a := by
  refine ⟨?_, ?_, ?_, fun a ha => memGet_memWrite_other _ _ _ _ (by omega)⟩
  · rw [← hd]
    exact memRead_memWrite _ _ _
  · rw [← hchk]
    exact memRead_memWrite _ _ _
  · exact (nsHas_nsAdd _ _ _).trans (by simp)

theorem narrow_writtenBack {c : Fin 4352} {g : Merge} {rest : List Merge} {s : State} (hm : (cget s c).merges = g :: rest)
    (hlen : g.data.length = 64) (hrun : coreRuns s c = true) :
    ∃ t, exec (.narrowWriteBack c) s = .next t ∧ t.regs = s.regs ∧ oneCore c s t ∧
      cget t c = { cget s c with merges := rest } ∧ memRead t.sp (spKey c g.blk) 64 = g.data ∧
      memRead t.spChk (spChkKey c g.blk) 16 = (if g.poison then poisonCheck g.data else sramCheck g.data) ∧
      spWritten t c g.blk = true ∧
      (∀ a, a < spKey c g.blk ∨ spKey c g.blk + 64 ≤ a → memGet t.sp a = memGet s.sp a) := by
  let chk := if g.poison then poisonCheck g.data else sramCheck g.data
  let u := cupd c (fun k => { k with merges := rest }) s
  have hexec : execNarrowWriteBack c s = .next (spStore c g.blk g.data chk u) := by
    rw [execNarrowWriteBack, if_pos hrun, writeBack, hm]
  have hchk : chk.length = 16 := by
    simp only [chk]
    split <;> simp
  obtain ⟨hread, hcheck, hwritten, hother⟩ := spStore_holds (c := c) (b := g.blk) u hlen hchk
  refine ⟨_, hexec, ?_, fun k hk => ?_, ?_, hread, hcheck, hwritten, fun a ha => (hother a ha).trans (by rw [cupd_sp])⟩
  · exact cupd_regs c.val (fun k => { k with merges := rest }) s
  · exact cget_cupd_other (fun k => { k with merges := rest }) s hk
  · exact cget_cupd_same c.val (fun k => { k with merges := rest }) s

end Sys2Proof.Machine

open Sys2Proof.Machine

/-- Settles O16: each write of the configuration by its own law. -/
theorem scratchConfig : Obligations.ScratchConfig :=
  ⟨fun _ _ _ _ => slotmap_written, profile_written, fun _ _ _ _ => bankGroup_ready, uniRegion_written, unified_written,
    fun _ _ _ _ => narrow_writtenBack⟩
end

section
/-! The ports and atomics of a bank of cluster SRAM (O17). -/

namespace Sys2Proof.Machine

/-! ## What a read leaves of the SRAM -/

/-- The cluster SRAM, what its ports last answered and the atomics that wait are as before. -/
def sramKept (s t : State) : Prop :=
  (t.csram = s.csram ∧ t.csChk = s.csChk ∧ t.csWr = s.csWr) ∧ t.portResp = s.portResp ∧ t.csQueue = s.csQueue

theorem sramKept_refl (s : State) : sramKept s s := ⟨⟨rfl, rfl, rfl⟩, rfl, rfl⟩

theorem sramKept_trans {s t u : State} (h : sramKept s t) (k : sramKept t u) : sramKept s u := by
  obtain ⟨⟨h1, h2, h3⟩, h4, h5⟩ := h
  obtain ⟨⟨k1, k2, k3⟩, k4, k5⟩ := k
  exact ⟨⟨k1.trans h1, k2.trans h2, k3.trans h3⟩, k4.trans h4, k5.trans h5⟩

theorem sramKept_of_onlyLogs {s t : State} (h : onlyLogs s t) : sramKept s t := by
  obtain ⟨-, h⟩ := h
  exact ⟨⟨by rw [← h], by rw [← h], by rw [← h]⟩, by rw [← h], by rw [← h]⟩

theorem sramKept_csCount (c port : Nat) (tx : Option Tx) (s : State) : sramKept s (csCount c port tx s) := by
  unfold csCount
  exact ⟨⟨by simp, by simp, by simp⟩, by simp, by simp⟩

theorem sramKept_cluUpd (c o : Nat) (f : Word → Word) (s : State) : sramKept s (cluUpd c o f s) :=
  ⟨⟨by simp, by simp, by simp⟩, by simp, by simp⟩

theorem sramKept_csErr (c b code : Nat) (s : State) : sramKept s (csErr c b code s) := sramKept_of_onlyLogs (onlyLogs_logErr _ _)

theorem sramKept_csRead (c b : Nat) (s : State) : sramKept s (csRead c b s).2 := by
  unfold csRead
  split
  · exact sramKept_cluUpd _ _ _ _
  · split
    · exact sramKept_refl s
    · exact sramKept_trans (sramKept_cluUpd _ _ _ _) (sramKept_csErr _ _ _ _)
    · exact sramKept_refl s
    · exact sramKept_trans (sramKept_cluUpd _ _ _ _) (sramKept_csErr _ _ _ _)

/-- What a read answers depends on the SRAM alone. -/
theorem csRead_fst_congr {c b : Nat} {s t : State} (h : t.csram = s.csram ∧ t.csChk = s.csChk ∧ t.csWr = s.csWr) :
    (csRead c b t).1 = (csRead c b s).1 := by
  obtain ⟨hmem, hchk, hwr⟩ := h
  unfold csRead
  rw [hmem, hchk, hwr]
  split
  · rfl
  · cases eccDecode (memRead s.csram (csKey c (64 * b)) 64) (memRead s.csChk (csBlk c b * 16) 16) <;> rfl

/-! ## Writes and atomics -/

theorem csWrite_holds {c b : Nat} {d : List Byte} (s : State) (hd : d.length = 64) :
    memRead (csWrite c b d s).csram (csKey c (64 * b)) 64 = d ∧
      ∀ a, a < csKey c (64 * b) ∨ csKey c (64 * b) + 64 ≤ a → memGet (csWrite c b d s).csram a = memGet s.csram a := by
  refine ⟨?_, fun a ha => memGet_memWrite_other _ _ _ _ (by omega)⟩
  have hread := memRead_memWrite d s.csram (csKey c (64 * b))
  rwa [hd] at hread

@[simp] theorem leBytes_length (n v : Nat) : (leBytes n v).length = n := by
  induction n generalizing v with
  | zero => rfl
  | succ n ih => rw [leBytes, List.length_cons, ih]

theorem putBytes_length {d v : List Byte} {off : Nat} (h : off ≤ d.length) : (putBytes d off v).length = d.length := by
  simp only [putBytes, List.length_append, List.length_take, List.length_drop]
  omega

theorem setResp_same (c port : Nat) (r : PortResp) (s : State) :
    stGet (fun _ => PortResp.reset) (setResp c port r s).portResp (portKey c port) = r := stGet_stSet_same _ _ _ _

/-- An access of a port that has the bank for itself. -/
theorem csPortAtomic_done {c port off : Nat} {op : AtomicOp} {arg : Nat} {d : List Byte} {s : State}
    (hread : (csRead c (off / 64) s).1 = some d) (hd : d.length = 64) :
    let t := csPortAtomic c port off op arg s
    let old := leAt d (off % 64) (atomicBytes op)
    memRead t.csram (csKey c (64 * (off / 64))) 64 = putBytes d (off % 64) (leBytes (atomicBytes op) (atomicNew op old arg)) ∧
      stGet (fun _ => PortResp.reset) t.portResp (portKey c port) =
        { busy := false, poison := false, data := leBytes (atomicBytes op) old } ∧
      (∀ a, a < csKey c (64 * (off / 64)) ∨ csKey c (64 * (off / 64)) + 64 ≤ a → memGet t.csram a = memGet s.csram a) ∧
      t.csQueue = s.csQueue := by
  intro t old
  let new := putBytes d (off % 64) (leBytes (atomicBytes op) (atomicNew op old arg))
  let u := csCount c port none s
  let v := (csRead c (off / 64) u).2
  have hkept : sramKept s v := sramKept_trans (sramKept_csCount _ _ _ _) (sramKept_csRead _ _ _)
  have hval : csRead c (off / 64) u = (some d, v) := Prod.ext ((csRead_fst_congr (sramKept_csCount _ _ _ _).1).trans hread) rfl
  have ht : t = setResp c port { busy := false, poison := false, data := leBytes (atomicBytes op) old }
      (tallyClu c 0x0303 1 none (csWrite c (off / 64) new v)) := by
    change csPortAtomic c port off op arg s = _
    rw [csPortAtomic, csAtomic, hval]
    rfl
  have hnew : new.length = 64 := by
    rw [putBytes_length (by omega), hd]
  obtain ⟨hmem, hother⟩ := csWrite_holds (c := c) (b := off / 64) v hnew
  obtain ⟨⟨kmem, -, -⟩, -, kqueue⟩ := hkept
  have hcsram : t.csram = (csWrite c (off / 64) new v).csram := by
    rw [ht]
    exact tallyClu_csram _ _ _ _ _
  refine ⟨?_, ?_, fun a ha => ?_, ?_⟩
  · rw [hcsram, hmem]
  · rw [ht, setResp_same]
  · rw [hcsram, hother a ha, kmem]
  · rw [ht]
    exact (tallyClu_csQueue _ _ _ _ _).trans kqueue

/-! ## Busy ports -/

theorem csPortBusy_busy (c port : Nat) (x : SramAcc) (s : State) :
    (csPortBusy c port x s).csram = s.csram ∧
      (stGet (fun _ => PortResp.reset) (csPortBusy c port x s).portResp (portKey c port)).busy = true := by
  unfold csPortBusy csBusy csBusyN
  dsimp only
  rw [if_neg Nat.one_ne_zero]
  simp only [tallyClu_csram, cluUpd_csram, tallyClu_portResp, cluUpd_portResp]
  refine ⟨?_, by rw [setResp_same]⟩
  simp only [setResp, csCount, tallyClu_csram]
  rfl

theorem csPort_writes {c : Nat} {x : SramAcc} {d : List Byte} (s : State) (hx : x.data = some d) (hd : d.length = 64) :
    memRead (csPort c 0 x s).csram (csKey c (64 * (x.off / 64))) 64 = d := by
  have ht : csPort c 0 x s = setResp c 0 { busy := false, poison := false, data := [] }
      (csWrite c (x.off / 64) d (csCount c 0 none s)) := by
    rw [csPort, hx]
    exact congrArg (setResp c 0 _) (if_pos hd)
  rw [ht]
  exact (csWrite_holds _ hd).1

theorem accMeet_comm {x y : SramAcc} (h : accMeet x y = true) : accMeet y x = true := by
  simp only [accMeet, List.any_eq_true, List.contains_iff_mem] at h ⊢
  obtain ⟨w, hx, hy⟩ := h
  exact ⟨w, hy, hx⟩

theorem exec_portBusy {c : Fin 256} {x : SramAcc} {s : State} (hok : accOk x = true) :
    exec (.clusterSramAccess c none (some x) false true) s = .next (csPortBusy c 1 x s) := by
  rw [exec]
  simp [execClusterSramAccess, hok]

theorem exec_portAlone {c : Fin 256} {x : SramAcc} {s : State} (hok : accOk x = true) :
    exec (.clusterSramAccess c (some x) none false false) s = .next (csPort c 0 x s) := by
  rw [exec]
  simp [execClusterSramAccess, hok]

/-- Of a write and a read that meet, the write goes first (R77). -/
theorem exec_writeFirst {c : Fin 256} {x y : SramAcc} {s : State} (hx : accOk x = true) (hy : accOk y = true)
    (hmeet : accMeet x y = true) (hw : x.data.isSome = true) (hr : y.data = none) :
    exec (.clusterSramAccess c (some x) (some y) false false) s = .next (csPortBusy c 1 y (csPort c 0 x s)) := by
  rw [exec]
  simp [execClusterSramAccess, hx, hy, hmeet, hw, hr]

/-- Of a narrow and a full write that meet, the narrow one goes first, at whichever port (R77). -/
theorem exec_narrowFirst {c : Fin 256} {x y : SramAcc} {s : State} (hx : accOk x = true) (hy : accOk y = true)
    (hmeet : accMeet x y = true) (hnx : accNarrow x = true) (hw : y.data.isSome = true) (hny : accNarrow y = false) :
    exec (.clusterSramAccess c (some x) (some y) false false) s = .next (csPortBusy c 1 y (csPort c 0 x s)) ∧
      exec (.clusterSramAccess c (some y) (some x) false false) s = .next (csPortBusy c 0 y (csPort c 1 x s)) := by
  have hdx : x.data.isSome = true := by
    cases hd : x.data with
    | none => simp [accNarrow, hd] at hnx
    | some d => rfl
  have hnone (z : SramAcc) (h : z.data.isSome = true) : z.data.isNone = false := by
    rw [← Option.not_isSome, h]
    rfl
  constructor
  · rw [exec]
    simp [execClusterSramAccess, hx, hy, hmeet, hdx, hnx, hny, hnone y hw, hnone x hdx]
  · rw [exec]
    simp [execClusterSramAccess, hx, hy, accMeet_comm hmeet, hw, hnx, hny, hnone y hw, hnone x hdx]

theorem exec_bankAtomic {c : Fin 256} {port : Fin 2} {off : Fin 4194304} {op : AtomicOp} {arg : Word64} {s : State}
    (hoff : off.val % atomicBytes op = 0) :
    exec (.bankAtomic c port off op arg false) s = .next (csPortAtomic c port off op arg.toNat s) := by
  rw [exec]
  simp [execBankAtomic, hoff]

theorem exec_bankAtomic_held {c : Fin 256} {port : Fin 2} {off : Fin 4194304} {op : AtomicOp} {arg : Word64} {s : State}
    (hoff : off.val % atomicBytes op = 0)
    (hroom : (s.csQueue.filter (fun q => q.clu == c.val && q.bank == off.val / 64 % 32)).length < 2) :
    exec (.bankAtomic c port off op arg true) s = .next { s with csQueue := s.csQueue ++
      [{ clu := c, bank := off.val / 64 % 32, port := port, off := off, op := op, arg := arg.toNat }] } := by
  rw [exec]
  rw [execBankAtomic, if_neg (by simp [hoff]), if_pos rfl]
  exact if_pos hroom

theorem exec_queuedAtomic {c : Fin 256} {bank : Fin 32} {i : Nat} {q : QAtomic} {s : State}
    (hi : findIdx? (fun e : QAtomic => e.clu == c.val && e.bank == bank.val) s.csQueue = some i) (hq : s.csQueue[i]? = some q) :
    exec (.queuedAtomic c bank) s = .next (csPortAtomic c q.port q.off q.op q.arg { s with csQueue := s.csQueue.eraseIdx i }) := by
  rw [exec]
  simp only [execQueuedAtomic, hi, hq]

end Sys2Proof.Machine

open Sys2Proof.Machine

/-- Settles O17: the ports by the laws of an access and of a busy answer, the atomics by that of `csPortAtomic`. -/
theorem clusterSram : Obligations.ClusterSram := by
  refine ⟨fun c x s hok => ⟨⟨_, exec_portAlone hok, rfl, fun d hx hd => csPort_writes s hx hd⟩,
      _, exec_portBusy hok, csPortBusy_busy _ _ _ _⟩,
    fun c x y s hx hy hmeet hw hr => ⟨_, exec_writeFirst hx hy hmeet hw hr, csPortBusy_busy _ _ _ _⟩,
    fun c x y s hx hy hmeet hnx hw hny => ?_, fun c port off op arg d s hoff hread hd => ?_,
    fun c port off op arg s hoff hroom => exec_bankAtomic_held hoff hroom, fun c bank i q d s hi hq hread hd => ?_⟩
  · obtain ⟨hfirst, hsecond⟩ := exec_narrowFirst hx hy hmeet hnx hw hny
    obtain ⟨hmem, hbusy⟩ := csPortBusy_busy c 1 y (csPort c 0 x s)
    exact ⟨_, hfirst, hmem, hbusy, _, hsecond, csPortBusy_busy _ _ _ _⟩
  · obtain ⟨hmem, hresp, hother, -⟩ := csPortAtomic_done (port := port) (op := op) (arg := arg.toNat) (congrArg Prod.fst hread) hd
    exact ⟨_, exec_bankAtomic hoff, hmem, hresp, hother⟩
  · have hread' : (csRead c (q.off / 64) { s with csQueue := s.csQueue.eraseIdx i }).1 = some d := by
      rw [csRead_fst_congr (s := s) (t := { s with csQueue := s.csQueue.eraseIdx i }) ⟨rfl, rfl, rfl⟩, hread]
    obtain ⟨hmem, hresp, -, hqueue⟩ := csPortAtomic_done (port := q.port) (op := q.op) (arg := q.arg) hread' hd
    exact ⟨_, exec_queuedAtomic hi hq, hqueue, hmem, hresp⟩
end

section
/-! The power limits (O20): what a write of a limit register loads. -/

namespace Sys2Proof.Machine

/-- What a write of `v` makes of a limit register. -/
def limitWord (m lo hi v : Nat) (w1c : Bool) (w : Word) : Word :=
  let w := wPut (if w1c then wPut w 31 31 0 else w) m 0 (max lo (min v hi))
  if max lo (min v hi) != v then wPut w 31 31 1 else w

theorem writeLimit_eq (key m lo hi v : Nat) (w1c : Bool) (s : State) :
    (writeLimit key m lo hi v w1c s).1 = rupd key (limitWord m lo hi v w1c) s := rfl

theorem wFld_limitWord {m lo hi v : Nat} (w1c : Bool) (w : Word) (hm : m < 31) (hlo : lo < 2 ^ (m + 1)) (hv : v < 2 ^ (m + 1)) :
    wFld (limitWord m lo hi v w1c w) m 0 = max lo (min v hi) := by
  have hput (u : Word) : wFld (wPut u m 0 (max lo (min v hi))) m 0 = max lo (min v hi) := by
    rw [wFld_wPut_same _ _ (by omega) (Nat.zero_le _)]
    exact Nat.mod_eq_of_lt (by rw [Nat.sub_zero]; omega)
  rw [limitWord]
  split
  · rw [wFld_wPut_disjoint _ _ (by decide) (Nat.le_refl _) (by omega), hput]
  · exact hput _

theorem wBit_limitWord {m lo hi v : Nat} (w1c : Bool) (w : Word) (hm : m < 31) :
    wBit (limitWord m lo hi v w1c w) 31 = true ↔ max lo (min v hi) ≠ v ∨ (w1c = false ∧ wBit w 31 = true) := by
  rw [limitWord]
  by_cases hne : max lo (min v hi) = v
  · rw [if_neg (by simp [hne]), wBit_wPut _ _ _ (by omega) (Nat.zero_le _), if_neg (by omega)]
    cases w1c
    · simp [hne]
    · rw [if_pos rfl, wBit_wPut _ _ _ (by decide) (Nat.le_refl _)]
      simp [hne]
  · rw [if_pos (by simp [hne]), wBit_wPut _ _ _ (by decide) (Nat.le_refl _)]
    simp [hne]

/-- A write of a limit register loads the nearest value of its range, and CLAMPED says whether it differs. -/
theorem writeLimit_loads {key m lo hi v : Nat} (w1c : Bool) (s : State) (hm : m < 31) (hlo : lo < 2 ^ (m + 1)) (hv : v < 2 ^ (m + 1)) :
    wFld (rget (writeLimit key m lo hi v w1c s).1 key) m 0 = max lo (min v hi) ∧
      (wBit (rget (writeLimit key m lo hi v w1c s).1 key) 31 = true ↔
        max lo (min v hi) ≠ v ∨ (w1c = false ∧ wBit (rget s key) 31 = true)) ∧
      (∀ o, o ≠ key → rget (writeLimit key m lo hi v w1c s).1 o = rget s o) ∧
      { (writeLimit key m lo hi v w1c s).1 with regs := s.regs } = s := by
  have hreg : rget (writeLimit key m lo hi v w1c s).1 key = limitWord m lo hi v w1c (rget s key) := by
    rw [writeLimit_eq, rupd, rget_rset_same]
  rw [hreg]
  exact ⟨wFld_limitWord w1c _ hm hlo hv, wBit_limitWord w1c _ hm, fun o ho => rget_rset_other _ _ ho, rfl⟩

theorem pkgLimit_loads (w : Word) (s : State) : ∃ t, exec (.pkgLimitWrite w) s = .next t ∧
    wFld (rget t (thmBase + 4)) 12 0 = max 1200 (min (wFld w 12 0) (wFld (rget s thmBase) 31 16)) ∧
    (wBit (rget t (thmBase + 4)) 31 = true ↔
      max 1200 (min (wFld w 12 0) (wFld (rget s thmBase) 31 16)) ≠ wFld w 12 0 ∨
        (wBit w 31 = false ∧ wBit (rget s (thmBase + 4)) 31 = true)) ∧
    (∀ o, o ≠ thmBase + 4 → rget t o = rget s o) ∧ { t with regs := s.regs } = s :=
  ⟨_, rfl, writeLimit_loads (wBit w 31) s (by decide) (by decide) (fld_lt _ _ _)⟩

theorem twrLimit_loads (n : Fin 16) (w : Word) (s : State) : ∃ t, exec (.twrLimitWrite n w) s = .next t ∧
    wFld (rget t (thmBase + 0x40 + 4 * n)) 8 0 = max 40 (min (wFld w 8 0) (wFld (rget s thmBase) 15 0)) ∧
    (wBit (rget t (thmBase + 0x40 + 4 * n)) 31 = true ↔
      max 40 (min (wFld w 8 0) (wFld (rget s thmBase) 15 0)) ≠ wFld w 8 0 ∨
        (wBit w 31 = false ∧ wBit (rget s (thmBase + 0x40 + 4 * n)) 31 = true)) ∧
    (∀ o, o ≠ thmBase + 0x40 + 4 * n → rget t o = rget s o) ∧ { t with regs := s.regs } = s :=
  ⟨_, rfl, writeLimit_loads (wBit w 31) s (by decide) (by decide) (fld_lt _ _ _)⟩

theorem ramp_loads (w : Word) (s : State) : ∃ t, exec (.rampCtlWrite w) s = .next t ∧
    wFld (rget t (thmBase + 0x10)) 10 0 = max 840 (wFld w 10 0) ∧ wFld (rget t (thmBase + 0x10)) 31 11 = 0 ∧
    (∀ o, o ≠ thmBase + 0x10 → rget t o = rget s o) ∧ { t with regs := s.regs } = s := by
  have hlt : max 840 (wFld w 10 0) < 2 ^ 11 := max_lt (by decide) (fld_lt _ _ _)
  refine ⟨writeRamp w s, rfl, ?_, ?_, fun o ho => rget_rset_other _ _ ho, rfl⟩
  · rw [writeRamp, rget_rset_same, wFld_ofNat_low _ _ (by decide)]
    exact Nat.mod_eq_of_lt hlt
  · rw [writeRamp, rget_rset_same, wFld_ofNat _ (by decide) (by decide), fld_eq_div_mod, Nat.div_eq_of_lt hlt, Nat.zero_mod]

end Sys2Proof.Machine

open Sys2Proof.Machine

/-- Settles O20: the registers by the law of a limit, the ramp by its own. -/
theorem powerLimits : Obligations.PowerLimits := ⟨pkgLimit_loads, twrLimit_loads, ramp_loads⟩
end

section
/-! The module input and the power brake (O18). -/

namespace Sys2Proof.Machine

/-! ## Changes of registers alone -/

/-- Nothing but registers differs, and of those none outside `p`. -/
def onlyRegs (p : Nat → Prop) (s t : State) : Prop := { t with regs := s.regs } = s ∧ ∀ o, ¬p o → rget t o = rget s o

theorem onlyRegs_refl (p : Nat → Prop) (s : State) : onlyRegs p s s := ⟨rfl, fun _ _ => rfl⟩

theorem onlyRegs_trans {p : Nat → Prop} {s t u : State} (h : onlyRegs p s t) (k : onlyRegs p t u) : onlyRegs p s u := by
  obtain ⟨hrest, hregs⟩ := h
  obtain ⟨krest, kregs⟩ := k
  exact ⟨by rw [← hrest, ← krest], fun o ho => (kregs o ho).trans (hregs o ho)⟩

theorem onlyRegs_mono {p q : Nat → Prop} {s t : State} (h : onlyRegs p s t) (hpq : ∀ o, p o → q o) : onlyRegs q s t :=
  ⟨h.1, fun o ho => h.2 o fun k => ho (hpq o k)⟩

theorem onlyRegs_rupd {p : Nat → Prop} {o : Nat} (f : Word → Word) (s : State) (ho : p o) : onlyRegs p s (rupd o f s) :=
  ⟨rfl, fun _ ha => rget_rset_other _ _ fun e => ha (e ▸ ho)⟩

theorem onlyRegs_iter {p : Nat → Prop} {f : Nat → State → State} {n : Nat} (hf : ∀ i s, i < n → onlyRegs p s (f i s)) (s : State) :
    onlyRegs p s (iter n f s) := by
  refine List.foldlRecOn (motive := onlyRegs p s) _ _ (onlyRegs_refl p s) fun t ht i hi => ?_
  exact onlyRegs_trans ht (hf i t (List.mem_range.mp hi))

theorem onlyRegs_pwr {p : Nat → Prop} {s t : State} (h : onlyRegs p s t) : t.pwr = s.pwr := by rw [← h.1]

theorem onlyRegs_cores {p : Nat → Prop} {s t : State} (h : onlyRegs p s t) : t.cores = s.cores := by rw [← h.1]

theorem rget_rupd_same (o : Nat) (f : Word → Word) (s : State) : rget (rupd o f s) o = f (rget s o) := by
  rw [rupd, rget_rset_same]

/-! ## The brake -/

/-- The towers' power registers. -/
def towerPower (o : Nat) : Prop := ∃ n < 16, o = thmBase + 0x80 + 4 * n

theorem onlyRegs_twrPublish {n : Nat} (cause : Nat) (s : State) (hn : n < 16) : onlyRegs towerPower s (twrPublish n cause s) := by
  unfold twrPublish
  exact onlyRegs_rupd _ s ⟨n, hn, rfl⟩

theorem onlyRegs_publishAll (s : State) : onlyRegs towerPower s (publishAll s) := by
  unfold publishAll
  exact onlyRegs_iter (f := fun n s => twrPublish n 0 s) (fun n s hn => onlyRegs_twrPublish 0 s hn) s

theorem not_towerPower_brake : ¬towerPower (thmBase + 0xC) := by
  rintro ⟨n, hn, h⟩
  omega

/-- A brake source is set or cleared, and a new brake state counted and published: nothing but the brake's and the towers' power
registers differs. -/
theorem onlyRegs_brakeSource (i : Nat) (v : Bool) (s : State) :
    onlyRegs (fun o => o = thmBase + 0xC ∨ towerPower o) s (brakeSource i v s) := by
  have hset (f : Word → Word) (u : State) : onlyRegs (fun o => o = thmBase + 0xC ∨ towerPower o) u (rupd (thmBase + 0xC) f u) :=
    onlyRegs_rupd f u (Or.inl rfl)
  unfold brakeSource
  dsimp only
  split
  · exact onlyRegs_trans (hset _ s) (onlyRegs_trans (hset _ _) (onlyRegs_mono (onlyRegs_publishAll _) fun _ => Or.inr))
  · exact hset _ s

theorem brakeWord_publishAll (s : State) : rget (publishAll s) (thmBase + 0xC) = rget s (thmBase + 0xC) :=
  (onlyRegs_publishAll s).2 _ not_towerPower_brake

/-- The brake's register once source `i` is set or cleared. -/
theorem wBit_brakeSource {i : Nat} (v : Bool) (s : State) (hi : 1 ≤ i) (hi4 : i ≤ 4) :
    wBit (rget (brakeSource i v s) (thmBase + 0xC)) i = v := by
  have hset : wBit (wPut (rget s (thmBase + 0xC)) i i (b2n v)) i = v := by
    rw [wBit_wPut _ _ _ (by omega) (Nat.le_refl _), if_pos ⟨Nat.le_refl _, Nat.le_refl _⟩, Nat.sub_self]
    cases v <;> rfl
  unfold brakeSource
  dsimp only
  split
  · rw [brakeWord_publishAll, rupd, rget_rset_same, wSatAdd, wBit_wPut _ _ _ (by decide) (Nat.le_refl _), if_neg (by omega),
      wBit_wPut _ _ _ (by decide) (by decide), if_neg (by omega), rupd, rget_rset_same, hset]
  · rw [rupd, rget_rset_same, hset]

theorem brakeSources_ne_zero {s : State} {i : Nat} (hi : 1 ≤ i) (hi4 : i ≤ 4) (h : wBit (rget s (thmBase + 0xC)) i = true) :
    brakeSources s ≠ 0 := by
  intro h0
  have hbit := testBit_wFld (rget s (thmBase + 0xC)) 4 1 (i - 1)
  rw [brakeSources] at h0
  rw [h0, Nat.zero_testBit, show 1 + (i - 1) = i by omega, h] at hbit
  simp at hbit
  omega

/-- A source that is set enters the brake state. -/
theorem brakeOn_brakeSource {i : Nat} (s : State) (hi : 1 ≤ i) (hi4 : i ≤ 4) : brakeOn (brakeSource i true s) = true := by
  let u := rupd (thmBase + 0xC) (fun w => wPut w i i (b2n true)) s
  have hsrc : brakeSources u ≠ 0 := by
    refine brakeSources_ne_zero hi hi4 ?_
    rw [rget_rupd_same, wBit_wPut _ _ _ (by omega) (Nat.le_refl _), if_pos ⟨Nat.le_refl _, Nat.le_refl _⟩, Nat.sub_self]
    rfl
  rw [brakeSource]
  by_cases hon : brakeOn u = true
  · rw [if_neg (by simp [u, hon])]
    exact hon
  · rw [if_pos (by simp [u, hon, hsrc]), brakeOn, brakeWord_publishAll, rupd, rget_rset_same,
      wBit_wPut _ _ _ (by decide) (Nat.le_refl _)]
    rfl

/-- A source that goes enters nothing where the brake state already holds for those that stay. -/
theorem brakeOn_brakeSource_clear {i : Nat} {s : State} (hi : 1 ≤ i) (hi4 : i ≤ 4) (hs : brakeSources s ≠ 0 → brakeOn s = true) :
    brakeOn (brakeSource i false s) = brakeOn s := by
  let u := rupd (thmBase + 0xC) (fun w => wPut w i i (b2n false)) s
  have hon : brakeOn u = brakeOn s := by
    rw [brakeOn, rget_rupd_same, wBit_wPut _ _ _ (by omega) (Nat.le_refl _), if_neg (by omega)]
    rfl
  have hcond : brakeSources u ≠ 0 → brakeOn u = true := fun h => by
    rw [hon]
    refine hs fun h0 => h ?_
    refine Nat.eq_of_testBit_eq fun k => ?_
    have hk : (brakeSources s).testBit k = false := by rw [h0, Nat.zero_testBit]
    rw [brakeSources, testBit_wFld] at hk
    rw [brakeSources, testBit_wFld, rget_rupd_same, wBit_wPut _ _ _ (by omega) (Nat.le_refl _), Nat.zero_testBit]
    split
    · exact (congrArg (decide (k < 4 + 1 - 1) && ·) (Nat.zero_testBit _)).trans (Bool.and_false _)
    · exact hk
  rw [brakeSource]
  split
  · next h =>
    simp only [Bool.and_eq_true, decide_eq_true_eq, Bool.not_eq_true'] at h
    exact absurd (hcond h.1) (by simp [u, h.2])
  · exact hon

/-! ## The levels of the input -/

theorem switch_closes {s : State} (hvaux : s.pwr.vaux = true) (hrev : s.pwr.rev = false) :
    ∃ t, exec .inputSwitchClose s = .next t ∧
    t.pwr = { s.pwr with sw := true, vin := true, bleed := false } ∧
    (s.pwr.rails = [] → s.pwr.kiln = false → s.pwr.rst = false → s.boot.next = none →
      t.boot.next = some 0 ∧ t.stage = 0 ∧ t.fatal = false ∧
        t.boot.full = (wBit (rget s 0x48) 30 || s.boot.cold)) ∧
    (s.pwr.rails ≠ [] → t.boot = s.boot ∧ t.stage = s.stage) ∧ t.regs = s.regs ∧ t.cores = s.cores := by
  let u : State := { s with pwr := { s.pwr with sw := true, vin := true, bleed := false } }
  by_cases hcold : s.pwr.rails = [] ∧ s.pwr.kiln = false ∧ s.pwr.rst = false ∧ s.boot.next = none
  · obtain ⟨hrails, hkiln, hrst, hnext⟩ := hcold
    have hexec : execInputSwitchClose s = .next (startBegin false u) := by
      simp [execInputSwitchClose, hvaux, hrev, hrails, hkiln, hrst, hnext, u]
    exact ⟨_, hexec, rfl, fun _ _ _ _ => ⟨rfl, rfl, rfl, rfl⟩, fun h => absurd hrails h, rfl, rfl⟩
  · have hexec : execInputSwitchClose s = .next u := by
      rw [execInputSwitchClose, if_neg (by simp [hvaux, hrev])]
      dsimp only
      rw [if_neg]
      simpa [and_assoc] using hcold
    exact ⟨_, hexec, rfl, fun h1 h2 h3 h4 => absurd ⟨h1, h2, h3, h4⟩ hcold, fun _ => ⟨rfl, rfl⟩, rfl, rfl⟩

theorem undervoltage_brakes {s : State} (hon : limitOn s = true) : ∃ t, exec .vinUndervoltage s = .next t ∧ brakeOn t = true ∧
    wBit (rget t (thmBase + 0xC)) 3 = true ∧ t.pwr = { s.pwr with vin := false } ∧ t.cores = s.cores := by
  let u : State := { s with pwr := { s.pwr with vin := false } }
  have hexec : execVinUndervoltage s = .next (brakeSource 3 true u) := congrArg Host.Outcome.next (if_pos (show limitOn u = true from hon))
  have hkept := onlyRegs_brakeSource 3 true u
  exact ⟨_, hexec, brakeOn_brakeSource u (by decide) (by decide), wBit_brakeSource true u (by decide) (by decide),
    onlyRegs_pwr hkept, (onlyRegs_cores hkept : _ = u.cores)⟩

/-- A start-up that waited for the input begins; registers, cores and the input are as before. -/
theorem startBegin_if_kept (s : State) : (if startWaits s then startBegin false s else s).regs = s.regs ∧
    (if startWaits s then startBegin false s else s).pwr = s.pwr ∧
    (if startWaits s then startBegin false s else s).cores = s.cores := by
  split
  · exact ⟨rfl, rfl, rfl⟩
  · exact ⟨rfl, rfl, rfl⟩

theorem input_recovers {s : State} (hon : limitOn s = true) (hs : brakeSources s ≠ 0 → brakeOn s = true) :
    ∃ t, exec .vinRecover s = .next t ∧
    wBit (rget t (thmBase + 0xC)) 3 = false ∧ brakeOn t = brakeOn s ∧ t.pwr = { s.pwr with vin := true } ∧
    t.cores = s.cores := by
  let u : State := { s with pwr := { s.pwr with vin := true } }
  let v := brakeSource 3 false u
  have hexec : execVinRecover s = .next (if startWaits v then startBegin false v else v) := by
    rw [execVinRecover]
    dsimp only
    rw [if_pos (show limitOn u = true from hon)]
  have hkept := onlyRegs_brakeSource 3 false u
  obtain ⟨kregs, kpwr, kcores⟩ := startBegin_if_kept v
  have hget : rget (if startWaits v then startBegin false v else v) (thmBase + 0xC) = rget v (thmBase + 0xC) := by
    simp only [rget, kregs]
  refine ⟨_, hexec, ?_, ?_, kpwr.trans (onlyRegs_pwr hkept), kcores.trans (onlyRegs_cores hkept : _ = u.cores)⟩
  · rw [hget]
    exact wBit_brakeSource false u (by decide) (by decide)
  · rw [brakeOn, hget]
    exact brakeOn_brakeSource_clear (s := u) (by decide) (by decide) hs

theorem deviceReset_kept (s : State) : (deviceReset s).cores = [] ∧ (deviceReset s).boot.fire = s.boot.fire ∧
    (deviceReset s).pwr.vaux = s.pwr.vaux := by
  unfold deviceReset
  dsimp only
  rw [rupd_cores, rupd_boot, rupd_pwr]
  exact ⟨rfl, rfl, rfl⟩

theorem input_collapses (s : State) : ∃ t, exec .vinCollapse s = .next t ∧ t.pwr.rails = [] ∧ t.boot.cold = true ∧
    t.faultN = s.pwr.vaux ∧ t.pwr.vaux = s.pwr.vaux ∧ t.cores = [] ∧ t.boot.fire = s.boot.fire := by
  obtain ⟨hcores, hfire, hvaux⟩ := deviceReset_kept s
  have hexec : exec .vinCollapse s = execVinCollapse s := by rw [exec]
  rw [hexec, execVinCollapse, railsOff]
  generalize deviceReset s = u at hcores hfire hvaux
  exact ⟨_, rfl, rfl, rfl, hvaux, hvaux, hcores, hfire⟩

end Sys2Proof.Machine

open Sys2Proof.Machine

/-- Settles O18: the levels of the input one by one; undervoltage and its end by the laws of a brake source. -/
theorem powerInput : Obligations.PowerInput := by
  refine ⟨fun _ => ⟨_, rfl, rfl⟩, fun _ => switch_closes, fun _ => undervoltage_brakes, fun _ => input_recovers,
    input_collapses, fun _ => rfl, fun _ => rfl, fun s h => ?_⟩
  exact congrArg Host.Outcome.next (if_neg (by simp [h]))
end

section
/-! The refresh of a bank column (O24). -/

namespace Sys2Proof.Machine

/-! ## Debts -/

theorem refreshIntervalTick_adds {col : Fin 8704} {s : State} (h : (colget s col).owed < 5) :
    ∃ t, exec (.refreshIntervalTick col) s = .next t ∧ (∀ j, j ≠ col.val → colget t j = colget s j) ∧
      (colget t col).owed = (colget s col).owed + 1 ∧
      (colget t col).rate = stGet (fun _ => 0) s.refRate (coreTower (col.val / 2)) ∧
      ((colget t col).forced = true ↔ (colget s col).forced = true ∨ postponeOf s col < (colget s col).owed + 1) ∧
      (∀ o, o ≠ nbuBase col + 0x18 → rget t o = rget s o) ∧ t.cores = s.cores ∧ t.t1 = s.t1 := by
  let go := decide ((colget s col).owed + 1 > postponeOf s col) && !(colget s col).forced
  let v : ColSt := { colget s col with owed := (colget s col).owed + 1, forced := (colget s col).forced || go
                                       rate := stGet (fun _ => 0) s.refRate (coreTower (col.val / 2)) }
  let t := if go then rupd (nbuBase col + 0x18) (fun w => wSatAdd w 31 16 1) (colset col v s) else colset col v s
  have hexec : execRefreshIntervalTick col s = .next t := by
    rw [execRefreshIntervalTick]
    exact if_neg (Nat.not_le.mpr h)
  have hcol (j : Nat) : colget t j = colget (colset col v s) j := by
    unfold t
    split
    · exact colget_rupd _ _ _ _
    · rfl
  have hforced : v.forced = true ↔ (colget s col).forced = true ∨ postponeOf s col < (colget s col).owed + 1 := by
    cases hf : (colget s col).forced <;> simp [v, go, hf]
  have hsame : colget t col = v := by rw [hcol, colget_colset_same]
  refine ⟨t, hexec, fun j hj => ?_, by rw [hsame], by rw [hsame], by rw [hsame]; exact hforced, fun o ho => ?_, ?_, ?_⟩
  · rw [hcol, colget_colset, if_neg hj]
  · unfold t
    split
    · exact rget_rset_other _ _ ho
    · rfl
  · unfold t
    split <;> simp
  · unfold t
    split <;> simp

theorem refreshIssue_pays {col : Fin 8704} {busy : BitVec 8} {s : State} (h : 0 < (colget s col).owed)
    (hmay : (colget s col).forced = true ∨ (colget s col).retraining = true ∨ rowReady busy (colget s col) = false) :
    ∃ t, exec (.refreshIssue col busy) s = .next t ∧ onlyCol col s t ∧ colget t col = { colget s col with
      owed := (colget s col).owed - 1,
      forced := if (colget s col).owed = 1 then false else (colget s col).forced } := by
  have hforced : ((colget s col).forced && decide (1 < (colget s col).owed)) =
      if (colget s col).owed = 1 then false else (colget s col).forced := by
    split
    · next h1 => simp [h1]
    · simp [show 1 < (colget s col).owed by omega]
  have hexec : execRefreshIssue col busy s = .next (colset col { colget s col with
      owed := (colget s col).owed - 1
      forced := if (colget s col).owed = 1 then false else (colget s col).forced } s) := by
    rw [execRefreshIssue]
    dsimp only
    rw [if_neg, hforced]
    rcases hmay with h1 | h1 | h1 <;> simp [h1, Nat.ne_of_gt h]
  exact ⟨_, hexec, ⟨fun j hj => by rw [colget_colset, if_neg hj], rfl⟩, by rw [colget_colset_same]⟩

/-! ## A smaller POSTPONE -/

theorem postpone_ne_forced (n col : Nat) (hn : n < 16) (hcol : col < 8704) : towerBase n + 0x100 ≠ nbuBase col + 0x18 := by
  unfold nbuBase coreBase towerBase
  omega

/-- What preempting some columns does: only their FORCED and its count change. -/
def onlyForced (s t : State) : Prop :=
  { t with regs := s.regs, cols := s.cols } = s ∧
    (∀ o, (∀ col, col < 8704 → o ≠ nbuBase col + 0x18) → rget t o = rget s o) ∧
    ∀ col, { colget t col with forced := (colget s col).forced } = colget s col

theorem onlyForced_refl (s : State) : onlyForced s s := ⟨rfl, fun _ _ => rfl, fun _ => rfl⟩

theorem onlyForced_trans {s t u : State} (h : onlyForced s t) (k : onlyForced t u) : onlyForced s u := by
  obtain ⟨hrest, hregs, hcols⟩ := h
  obtain ⟨krest, kregs, kcols⟩ := k
  exact ⟨by rw [← hrest, ← krest], fun o ho => (kregs o ho).trans (hregs o ho), fun col => by rw [← hcols col, ← kcols col]⟩

theorem owed_of_onlyForced {s t : State} (h : onlyForced s t) (col : Nat) : (colget t col).owed = (colget s col).owed := by
  rw [← h.2.2 col]

theorem postponeOf_of_onlyForced {s t : State} (h : onlyForced s t) {col : Nat} (hcol : col < 8704) :
    postponeOf t col = postponeOf s col := by
  unfold postponeOf
  rw [h.2.1 _ fun k hk => postpone_ne_forced _ k (by unfold coreTower; omega) hk]

theorem rupd_colset_rest (o k : Nat) (f : Word → Word) (v : ColSt) (s : State) :
    { rupd o f (colset k v s) with regs := s.regs, cols := s.cols } = s := rfl

theorem onlyForced_force {col : Nat} (f : Word → Word) (s : State) (hcol : col < 8704) :
    onlyForced s (rupd (nbuBase col + 0x18) f (colset col { colget s col with forced := true } s)) := by
  refine ⟨rupd_colset_rest _ _ _ _ _, fun o ho => ?_, fun j => ?_⟩
  · rw [rupd, rget_rset_other _ _ (ho col hcol), rget_colset]
  · rw [colget_rupd, colget_colset]
    split
    · next hj => rw [hj]
    · rfl

theorem startForced_eq (col : Nat) (s : State) : startForced col s =
    if (colget s col).forced || decide ((colget s col).owed ≤ postponeOf s col) then s
    else rupd (nbuBase col + 0x18) (fun w => wSatAdd w 31 16 1) (colset col { colget s col with forced := true } s) := rfl

theorem startForced_forces {col : Nat} (s : State) (hcol : col < 8704) : onlyForced s (startForced col s) ∧
    (∀ j, j ≠ col → colget (startForced col s) j = colget s j) ∧
    ((colget (startForced col s) col).forced = true ↔
      (colget s col).forced = true ∨ postponeOf s col < (colget s col).owed) := by
  rw [startForced_eq]
  split
  · next h =>
    refine ⟨onlyForced_refl s, fun _ _ => rfl, ?_⟩
    simp only [Bool.or_eq_true, decide_eq_true_eq] at h
    constructor
    · exact Or.inl
    · rintro (h1 | h1)
      · exact h1
      · exact h.resolve_right (by omega)
  · next h =>
    simp only [Bool.or_eq_true, decide_eq_true_eq, not_or, Nat.not_le] at h
    refine ⟨onlyForced_force _ s hcol, fun j hj => ?_, ?_⟩
    · rw [colget_rupd, colget_colset, if_neg hj]
    · rw [colget_rupd, colget_colset_same]
      simp [h.2]

theorem startForced_foldl (l : List Nat) (s : State) (hl : ∀ col ∈ l, col < 8704) :
    onlyForced s (l.foldl (fun s col => startForced col s) s) ∧
    ∀ col, col < 8704 → ((colget (l.foldl (fun s col => startForced col s) s) col).forced = true ↔
      (colget s col).forced = true ∨ (col ∈ l ∧ postponeOf s col < (colget s col).owed)) := by
  induction l generalizing s with
  | nil => exact ⟨onlyForced_refl s, fun col _ => by simp⟩
  | cons a r ih =>
    have ha := hl a List.mem_cons_self
    obtain ⟨honly, hother, hsame⟩ := startForced_forces s ha
    obtain ⟨konly, kforced⟩ := ih (startForced a s) fun c hc => hl c (List.mem_cons_of_mem _ hc)
    refine ⟨onlyForced_trans honly konly, fun col hcol => (kforced col hcol).trans ?_⟩
    rw [postponeOf_of_onlyForced honly hcol, owed_of_onlyForced honly]
    by_cases hc : col = a
    · subst hc
      rw [hsame]
      simp only [List.mem_cons, true_or, true_and]
      tauto
    · rw [hother col hc]
      simp [hc]

theorem postponeOf_written {n col : Nat} (w : Word) (s : State) (h : col / 544 = n) :
    postponeOf (rset (towerBase n + 0x100) (BitVec.ofNat 32 (min (wFld w 2 0) 4)) s) col = min (wFld w 2 0) 4 := by
  have ht : coreTower (col / 2) = n := by unfold coreTower; omega
  rw [postponeOf, ht, rget_rset_same, wFld_ofNat_low _ _ (by decide)]
  omega

theorem regsCols_trans {s t u : State} (h : { t with regs := u.regs, cols := u.cols } = u)
    (k : { u with regs := s.regs, cols := s.cols } = s) : { t with regs := s.regs, cols := s.cols } = s :=
  (congrArg (fun x : State => { x with regs := s.regs, cols := s.cols }) h).trans k

theorem rset_rest (o : Nat) (w : Word) (s : State) : { rset o w s with regs := s.regs, cols := s.cols } = s := rfl

theorem writeRefCtl_eq (n : Nat) (w : Word) (s : State) : writeRefCtl n w s =
    ((s.cols.map Prod.fst).filter (fun col => col / 544 == n)).foldl (fun s col => startForced col s)
      (rset (towerBase n + 0x100) (BitVec.ofNat 32 (min (wFld w 2 0) 4)) s) := by
  rw [writeRefCtl, rset_cols]

theorem refreshCtlWrite_forces (n : Fin 16) (w : Word) (s : State) : ∃ t, exec (.refreshCtlWrite n w) s = .next t ∧
    rget t (towerBase n + 0x100) = BitVec.ofNat 32 (min (wFld w 2 0) 4) ∧ { t with regs := s.regs, cols := s.cols } = s ∧
    (∀ o, o ≠ towerBase n + 0x100 → (∀ col, col < 8704 → o ≠ nbuBase col + 0x18) → rget t o = rget s o) ∧
    ∀ col, col < 8704 → { colget t col with forced := (colget s col).forced } = colget s col ∧
      ((colget t col).forced = true ↔
        (colget s col).forced = true ∨ (col / 544 = n.val ∧ min (wFld w 2 0) 4 < (colget s col).owed)) := by
  obtain ⟨l, hl⟩ : ∃ l, l = (s.cols.map Prod.fst).filter (fun col => col / 544 == n.val) := ⟨_, rfl⟩
  obtain ⟨u, hu⟩ : ∃ u, u = rset (towerBase n + 0x100) (BitVec.ofNat 32 (min (wFld w 2 0) 4)) s := ⟨_, rfl⟩
  have hmem (col : Nat) : col ∈ l ↔ col ∈ s.cols.map Prod.fst ∧ col / 544 = n.val := by
    rw [hl, List.mem_filter, beq_iff_eq]
  have hexec : exec (.refreshCtlWrite n w) s = .next (l.foldl (fun s col => startForced col s) u) := by
    rw [exec, execRefreshCtlWrite, writeRefCtl_eq, hl, hu]
  obtain ⟨⟨hrest, hregs, hcols⟩, hforced⟩ := startForced_foldl l u fun col h => by
    have := ((hmem col).mp h).2
    omega
  generalize l.foldl (fun s col => startForced col s) u = t at hexec hrest hregs hcols hforced
  have hucol (col : Nat) : colget u col = colget s col := by rw [hu, colget_rset]
  refine ⟨t, hexec, ?_, regsCols_trans hrest (by rw [hu, rset_rest]), fun o ho hn => ?_, fun col hcol =>
    ⟨by rw [← hucol, hcols col], (hforced col hcol).trans ?_⟩⟩
  · rw [hregs _ fun k hk => postpone_ne_forced n k n.isLt hk, hu, rget_rset_same]
  · rw [hregs o hn, hu, rget_rset_other _ _ ho]
  · rw [hucol, hmem]
    refine or_congr_right ⟨fun ⟨hm, hp⟩ => ⟨hm.2, ?_⟩, fun ⟨ht, hp⟩ => ⟨⟨?_, ht⟩, ?_⟩⟩
    · rwa [hu, postponeOf_written w s hm.2] at hp
    · have hne : colget s col ≠ ColSt.reset := fun h => by
        rw [h] at hp
        exact absurd hp (Nat.not_lt_zero _)
      exact List.mem_map_of_mem (f := Prod.fst) (mem_of_stGet_ne (d := fun _ => ColSt.reset) hne)
    · rwa [hu, postponeOf_written w s ht]

/-! ## A column whose pages have moved -/

theorem migrationComplete_retires {col : Fin 8704} {s : State} (hstate : (colget s col).state ≠ 0)
    (hmig : (colget s col).migrated = false)
    (hdir : ∀ p, cluPart s (coreClu (col.val / 2)) = some p → (pget s p).dir = none) :
    exec (.migrationComplete col) s = .next (retireCol col s) := by
  have hnone : (cluPart s (coreClu (col.val / 2))).bind (fun p => (pget s p).dir.map (fun _ => p)) = none := by
    cases hp : cluPart s (coreClu (col.val / 2)) with
    | none => rfl
    | some p => simp [hdir p hp]
  have hexec : exec (.migrationComplete col) s = execMigrationComplete col s := by rw [exec]
  rw [hexec, execMigrationComplete]
  rw [if_neg (by simp [hstate, hmig]), hnone]

end Sys2Proof.Machine

open Sys2Proof.Machine

/-- Settles O24: a debt's tick and payment, the preemption that a smaller POSTPONE starts column by column, and a column without a
directory. -/
theorem sliceRefresh : Obligations.SliceRefresh :=
  ⟨fun _ _ => refreshIntervalTick_adds, fun _ _ _ => refreshIssue_pays, refreshCtlWrite_forces,
    fun _ _ hstate hmig hdir => ⟨_, migrationComplete_retires hstate hmig hdir, rfl⟩⟩
end

section
/-! The low-speed interfaces and the loss of VAUX (O60), and the SPDM requests (O52). -/

namespace Sys2Proof.Machine

/-! ## SMBus -/

/-- Bytes that fit in whole stand at the front. -/
theorem fitBytes_append_take {n k : Nat} {l r : List Byte} (hl : l.length = k) (hk : k ≤ n) : (fitBytes n (l ++ r)).take k = l := by
  rw [fitBytes, List.take_take, Nat.min_eq_left hk, List.append_assoc, List.take_append_of_le_length (by omega), ← hl, List.take_length]

theorem mirrorAt_get (s : State) (code n i : Nat) (h : i < (mirrorAt s code n).length) :
    listAt (mirrorAt s code n) i 0 = listAt s.mirror (code + i) 0 := by
  have hi : i < n := by simpa [mirrorAt] using h
  rw [listAt, List.getD_eq_getElem _ _ h]
  simp [mirrorAt]

theorem smbusBlockRead_reads {code n : Fin 256} {s : State} (h : s.pwr.vaux = true) : ∃ t d, exec (.smbusBlockRead code n) s = .next t ∧
    t = hostSend (.smb true d) s ∧ d.length = min n.val 32 ∧ ∀ i, i < d.length → listAt d i 0 = listAt s.mirror (code + i) 0 := by
  have hexec : execSmbusBlockRead code n s = .next (hostSend (.smb true (mirrorAt s code (min n 32))) s) := by
    rw [execSmbusBlockRead, if_pos h]
  exact ⟨_, _, hexec, rfl, by simp [mirrorAt], fun i => mirrorAt_get s code _ i⟩

theorem mirrorBytes_take (s : State) : (mirrorBytes s).take 4 = leBytes 4 (viewGlb s 0).toNat := by
  simp only [mirrorBytes, List.append_assoc]
  exact fitBytes_append_take (leBytes_length _ _) (by decide)

/-- A run of bytes after `j` others, where all of it fits. -/
theorem fitBytes_drop_take {n j k : Nat} {p l r : List Byte} (hp : p.length = j) (hl : l.length = k) (hk : j + k ≤ n) :
    ((fitBytes n (p ++ (l ++ r))).drop j).take k = l := by
  rw [fitBytes, List.drop_take, List.take_take, Nat.min_eq_left (by omega), List.append_assoc, ← hp, List.drop_left,
    List.append_assoc, List.take_append_of_le_length (by omega), ← hl, List.take_length]

theorem mirrorBytes_drop_take (s : State) : ((mirrorBytes s).drop 12).take 4 = leBytes 4 (viewGlb s 0x40).toNat := by
  have hsplit (a b c d r : List Byte) : a ++ (b ++ (c ++ (d ++ r))) = (a ++ b ++ c) ++ (d ++ r) := by simp
  simp only [mirrorBytes, List.append_assoc]
  rw [hsplit]
  exact fitBytes_drop_take (by simp) (leBytes_length _ _) (by decide)

theorem smbusMirrorRefresh_copies {s : State} (h : s.pwr.vaux = true) : ∃ t, exec .smbusMirrorRefresh s = .next t ∧
    { t with mirror := s.mirror } = s ∧ t.mirror.length = 256 ∧ t.mirror.take 4 = leBytes 4 (viewGlb s 0).toNat ∧
    (t.mirror.drop 12).take 4 = leBytes 4 (viewGlb s 0x40).toNat := by
  have hexec : execSmbusMirrorRefresh s = .next { s with mirror := mirrorBytes s } := by
    rw [execSmbusMirrorRefresh, if_pos h]
  exact ⟨_, hexec, rfl, fitBytes_length _ _, mirrorBytes_take s, mirrorBytes_drop_take s⟩

/-! ## VAUX -/

theorem wipeSaggar_sec (s : State) : (wipeSaggar s).sec.ids = false ∧ (wipeSaggar s).sec.sessions = [] := by
  rw [wipeSaggar, rupd_sec]
  exact ⟨rfl, rfl⟩

theorem vauxDown_wipes (s : State) : ∃ t, exec .vauxDown s = .next t ∧ t.pwr.vaux = false ∧ t.pwr.kiln = false ∧ t.faultN = false ∧
    t.boot.fire = [] ∧ t.boot.fireNext = 0 ∧ t.sec.ids = false ∧ t.sec.sessions = [] ∧ t.mirror = [] := by
  obtain ⟨hids, hsessions⟩ := wipeSaggar_sec s
  have hexec : exec .vauxDown s = execVauxDown s := by rw [exec]
  rw [hexec, execVauxDown]
  generalize wipeSaggar s = u at hids hsessions
  exact ⟨_, rfl, rfl, rfl, rfl, rfl, rfl, hids, hsessions, rfl⟩

/-! ## SPDM -/

theorem spdm_answers {i : Instr} {p : State → Prop} {ok : State → Bool} {code : Nat} {data : State → List Byte} {f : State → State}
    (hexec : ∀ s, exec i s = .next (spdm ok code (data s) f s)) (hok : ∀ s, ok s = true ↔ p s) : answersSpdm i p code data f := by
  intro s hon
  rw [hexec, spdm, if_neg (by simp [hon])]
  exact ⟨fun h => by rw [if_pos ((hok s).mpr h)], fun h => by rw [if_neg fun k => h ((hok s).mp k)]⟩

theorem hasSession_iff (s : State) (id : Nat) (done : Bool) : hasSession s id done = true ↔ inSession id done s := by
  simp [hasSession, inSession]

theorem canSign_iff (s : State) : canSign s = true ↔ s.sec.algs = true ∧ s.sec.ids = true := by
  simp [canSign]

theorem slotOk_iff (s : State) (slot : Fin 2) :
    slotOk s slot = true ↔ s.sec.algs = true ∧ s.sec.ids = true ∧ (slot = 1 ∨ s.sec.falcon = true) := by
  simp [slotOk, canSign_iff, and_assoc, Fin.ext_iff]

theorem measurements_isSome (i : Fin 256) (nonce : List Byte) (s : State) :
    (measurements i nonce s).isSome = true ↔ i.val ≤ 4 ∨ i.val = 16 ∨ i.val = 255 := by
  rw [measurements]
  split_ifs with h0 h255 hone
  · simp [h0]
  · simp [h255]
  · simp only [Bool.or_eq_true, Bool.and_eq_true, decide_eq_true_eq] at hone
    simp only [Option.isSome_some, true_iff]
    omega
  · simp only [Bool.or_eq_true, Bool.and_eq_true, decide_eq_true_eq] at hone
    simp only [Option.isSome_none, Bool.false_eq_true, false_iff]
    omega

theorem streamUp_setStream_same (n : Fin 66) (est : Bool) (set : Nat) (s : State) : streamUp (setStream n est set s) n = est := by
  rw [setStream, streamUp]
  split_ifs
  · rfl
  · rfl
  · rw [pupd, pget_pset_same]

theorem streamUp_setStream_other {n k : Fin 66} (est : Bool) (set : Nat) (s : State) (h : k ≠ n) :
    streamUp (setStream n est set s) k = streamUp s k := by
  have hne : k.val ≠ n.val := fun e => h (Fin.ext e)
  by_cases h0 : n.val = 0
  · have hk : k.val ≠ 0 := by omega
    rw [setStream, if_pos h0, streamUp, streamUp, if_neg hk, if_neg hk]
    rfl
  by_cases h65 : n.val = 65
  · have hk : k.val ≠ 65 := by omega
    rw [setStream, if_neg h0, if_pos h65, streamUp, streamUp, if_neg hk, if_neg hk]
    rfl
  rw [setStream, if_neg h0, if_neg h65, streamUp, streamUp, pupd_sec]
  split_ifs
  · rfl
  · rfl
  · rw [pupd, pget_pset_other _ _ (by omega)]

end Sys2Proof.Machine

open Sys2Proof.Machine

/-- Settles O60: the mirror byte by byte, and the wiped saggar region. -/
theorem smbusAndVaux : Obligations.SmbusAndVaux :=
  ⟨fun _ _ h => congrArg Host.Outcome.next (if_pos h), fun _ _ _ => smbusBlockRead_reads,
    fun _ _ _ h => congrArg Host.Outcome.next (if_pos h), fun _ => smbusMirrorRefresh_copies, vauxDown_wipes⟩

/-- Settles O52: each request by the law of an SPDM answer. -/
theorem spdmRequests : Obligations.SpdmRequests := by
  refine ⟨spdm_answers (fun _ => rfl) fun _ => by simp, spdm_answers (fun _ => rfl) fun _ => Iff.rfl,
    fun _ => spdm_answers (fun _ => rfl) fun _ => Iff.rfl, spdm_answers (fun _ => rfl) canSign_iff,
    fun _ _ _ => spdm_answers (fun _ => rfl) canSign_iff, fun slot _ => spdm_answers (fun _ => rfl) fun s => slotOk_iff s slot,
    fun index nonce => spdm_answers (fun _ => rfl) fun s => ?_, fun slot => spdm_answers (fun _ => rfl) fun s => ?_,
    fun sid => spdm_answers (fun _ => rfl) fun s => hasSession_iff s sid false,
    fun sid => spdm_answers (fun _ => rfl) fun s => hasSession_iff s sid true,
    fun sid => spdm_answers (fun _ => rfl) fun s => hasSession_iff s sid true,
    fun sid => spdm_answers (fun _ => rfl) fun s => hasSession_iff s sid true,
    fun sid _ _ => spdm_answers (fun _ => rfl) fun s => hasSession_iff s sid true,
    fun stream est set s => ⟨streamUp_setStream_same stream est set s, fun _ => streamUp_setStream_other est set s⟩⟩
  · rw [Bool.and_eq_true, canSign_iff, measurements_isSome, and_assoc]
  · rw [Bool.and_eq_true, slotOk_iff, decide_eq_true_eq, and_assoc, and_assoc]
end

section
/-! The host's accesses: registers (O32), configuration space and BAR2 (O33). -/

namespace Sys2Proof.Machine

/-! ## What a request leaves -/

@[simp] theorem regFenced_hostReq (fn : Nat) (a : Option Nat) (s : State) (o : Nat) :
    regFenced (hostReq fn a s) o = regFenced s o := by
  rw [hostReq_eq]
  rfl

theorem onStream_hostReq (fn k : Nat) (a : Option Nat) (m : HostOut) (s : State) :
    onStream (hostReq fn a s) k m = onStream s k m := by
  rw [hostReq_eq]
  rfl

theorem hostReq_frame (fn : Nat) (a : Option Nat) (s : State) : { hostReq fn a s with ctrs := s.ctrs } = s := by
  rw [hostReq_eq]

theorem countCa_counts (s : State) : wFld (rget (countCa s) 0x104) 15 0 = min (wFld (rget s 0x104) 15 0 + 1) 65535 := by
  rw [countCa, rget_rupd_same]
  exact wFld_wSatAdd_same _ 1 (by decide) (by decide)

theorem rget_countCa_other {o : Nat} (s : State) (h : o ≠ 0x104) : rget (countCa s) o = rget s o := by
  rw [countCa, rupd, rget_rset_other _ _ h]

/-! ## Register writes -/

theorem barOff_physical {o : Nat} (h : o < 0x10000000) : barOff 0 o = some o := by
  rw [barOff, if_pos rfl, if_pos h]

theorem locate_global {o : Nat} (h : o < 0x8000) : locate o = .glb o := by
  rw [locate, if_pos (by omega)]

theorem regFenced_global {o : Nat} (s : State) (h : o < 0x8000) : regFenced s o = false := by
  rw [regFenced, locate_global h]

/-- No register of the global page is locked by a partition's lock. -/
theorem rwl_of_global {o : Nat} {r : RegRow} (ho : o < 0x8000) (h : regRow o = some r) : r.rwl = 0 := by
  rw [regRow, locate_global ho] at h
  have hall : ∀ r ∈ globalRows, r.rwl = 0 := by decide
  exact hall r (List.mem_of_find?_eq_some h)

/-- What a write of `w` makes of the register of row `r`. -/
def rowWritten (r : RegRow) (w old : Word) : Word :=
  ((old &&& ~~~(BitVec.ofNat 32 r.rw ||| BitVec.ofNat 32 r.rwl)) |||
    (w &&& (BitVec.ofNat 32 r.rw ||| BitVec.ofNat 32 r.rwl))) &&& ~~~(w &&& BitVec.ofNat 32 r.w1c)

theorem plainWrite_global {o : Nat} {r : RegRow} (w : Word) (s : State) (ho : o < 0x8000) (h : regRow o = some r) :
    plainWrite o w s = rupd o (rowWritten r w) s := by
  have hmask : word (r.rw ||| r.rwl) = BitVec.ofNat 32 r.rw ||| BitVec.ofNat 32 r.rwl := BitVec.ofNat_or
  have hrwl : rwlBits s o r = r.rwl := by rw [rwlBits, locate_global ho]
  rw [plainWrite, h]
  dsimp only
  rw [hrwl, hmask]
  rfl

theorem writeReg_global {o : Nat} {r : RegRow} (w : Word) (s : State) (ho : o < 0x8000) (hwin : o < 0x1000 ∨ 0x1400 ≤ o)
    (h : regRow o = some r) : writeReg o w s = rupd o (rowWritten r w) s := by
  rw [writeReg, regFenced_global s ho, if_neg (by decide), locate_global ho]
  dsimp only
  rw [writeGlb, if_neg (by simp; omega), if_neg (by simp; omega), plainWrite_global w s ho h]

section
variable {fn : Fin 65} {off : Fin (2 ^ 28)} {w : Word} {o : Nat} {s : State}

theorem exec_registerWrite_reaches (hreach : hostReaches s fn = true) (ho : barOff fn (off.val / 4 * 4) = some o)
    (hf : regFenced s o = false) : exec (.registerWrite fn off w) s = .next (writeReg o w (hostReq fn none s)) := by
  have hexec : exec (.registerWrite fn off w) s = execRegisterWrite fn off w s := by rw [exec]
  rw [hexec, execRegisterWrite, if_neg (by simp [hreach])]
  dsimp only
  rw [ho]
  dsimp only
  rw [regFenced_hostReq, if_neg (by simp [hf])]

theorem exec_registerWrite_fenced (hreach : hostReaches s fn = true) (ho : barOff fn (off.val / 4 * 4) = some o)
    (hf : regFenced s o = true) : exec (.registerWrite fn off w) s = .next (countCa (hostReq fn none s)) := by
  have hexec : exec (.registerWrite fn off w) s = execRegisterWrite fn off w s := by rw [exec]
  rw [hexec, execRegisterWrite, if_neg (by simp [hreach])]
  dsimp only
  rw [ho]
  dsimp only
  rw [regFenced_hostReq, if_pos hf]

end

theorem rupd_hostReq_frame (fn o : Nat) (a : Option Nat) (f : Word → Word) (s : State) :
    { rupd o f (hostReq fn a s) with regs := s.regs, ctrs := s.ctrs } = s := by
  rw [hostReq_eq]
  rfl

theorem registerWrite_global {off : Fin (2 ^ 28)} {w : Word} {o : Nat} {r : RegRow} {s : State} (hreach : hostReaches s 0 = true)
    (hoff : off.val / 4 * 4 = o) (ho : o < 0x8000) (hwin : o < 0x1000 ∨ 0x1400 ≤ o) (h : regRow o = some r) :
    ∃ t, exec (.registerWrite 0 off w) s = .next t ∧ rget t o = rowWritten r w (rget s o) ∧
      (∀ a, a ≠ o → rget t a = rget s a) ∧ { t with regs := s.regs, ctrs := s.ctrs } = s := by
  have hbar : barOff (0 : Fin 65).val (off.val / 4 * 4) = some o := by
    rw [hoff]
    exact barOff_physical (by omega)
  have hexec : exec (.registerWrite 0 off w) s = .next (rupd o (rowWritten r w) (hostReq 0 none s)) := by
    rw [exec_registerWrite_reaches hreach hbar (regFenced_global s ho), writeReg_global _ _ ho hwin h]
    rfl
  refine ⟨_, hexec, ?_, fun a ha => ?_, rupd_hostReq_frame _ _ _ _ _⟩
  · rw [rget_rupd_same, rget_hostReq]
  · rw [rupd, rget_rset_other _ _ ha, rget_hostReq]

theorem registerWrite_lostDie {off : Fin (2 ^ 28)} {w : Word} {s : State} (hreach : hostReaches s 0 = true)
    (hf : regFenced s (off.val / 4 * 4) = true) : ∃ t, exec (.registerWrite 0 off w) s = .next t ∧
      wFld (rget t 0x104) 15 0 = min (wFld (rget s 0x104) 15 0 + 1) 65535 ∧
      (∀ a, a ≠ 0x104 → rget t a = rget s a) ∧ { t with regs := s.regs, ctrs := s.ctrs } = s := by
  have hbar : barOff (0 : Fin 65).val (off.val / 4 * 4) = some (off.val / 4 * 4) := barOff_physical (by omega)
  refine ⟨_, exec_registerWrite_fenced hreach hbar hf, ?_, fun a ha => ?_, rupd_hostReq_frame _ _ _ _ _⟩
  · rw [countCa_counts, rget_hostReq]
  · rw [rget_countCa_other _ ha, rget_hostReq]

/-! ## Configuration space -/

section
variable {fn : Fin 65} {reg : Fin 1024} {s : State} (h0 : hubAbsent s 0 = false) (hlink : wBit (rget s 0x100) 10 = true)
  (hboot : s.booted = true)
include h0 hlink hboot

theorem exec_configRead : exec (.configRequest fn { reg := reg, data := none }) s =
    .next (fnSend fn (.cfg 0 (cfgWord s fn reg).toNat) s) := by
  have hexec : exec (.configRequest fn { reg := reg, data := none }) s = execConfigRequest fn { reg := reg, data := none } s := by
    rw [exec]
  rw [hexec, execConfigRequest, if_neg (by simp [h0, hlink])]
  simp only [hboot, Bool.not_true, Bool.false_and, Bool.false_eq_true, if_false]

theorem exec_configWrite (w : Word) : exec (.configRequest fn { reg := reg, data := some w }) s =
    .next (cfgWrite fn reg w (fnSend fn (.cfg 0 0) s)) := by
  have hexec : exec (.configRequest fn { reg := reg, data := some w }) s =
      execConfigRequest fn { reg := reg, data := some w } s := by rw [exec]
  rw [hexec, execConfigRequest, if_neg (by simp [h0, hlink])]
  simp only [hboot, Bool.not_true, Bool.false_and, Bool.false_eq_true, if_false]

end

theorem cfgGet_cfgSet_same (fn i : Nat) (w : Word) (s : State) : cfgGet (cfgSet fn i w s) fn i = w := stGet_stSet_same _ _ _ _

/-- A BAR register reads back the bits that a write can set, with its type. -/
theorem cfgWord_bar {reg : Nat} (w : Word) (s : State) (h4 : 4 ≤ reg) (h10 : reg < 10) :
    cfgWord (cfgWrite 0 reg w s) 0 reg = (w &&& (barBits 0 (reg - 4)).1) ||| (barBits 0 (reg - 4)).2 := by
  have hwrite : cfgWrite 0 reg w s = cfgSet 0 (reg - 3) (w &&& (barBits 0 (reg - 4)).1) s := by
    rw [cfgWrite, if_neg (by omega), if_pos ⟨h4, h10⟩]
  rw [hwrite, cfgWord, if_neg (by omega), if_neg (by omega), if_neg (by omega), if_neg (by omega), if_pos h10, cfgGet_cfgSet_same]

theorem cfgWord_bars (w : Word) (s : State) : cfgWord (cfgWrite 0 4 w s) 0 4 = (w &&& 0xF0000000) ||| 4 ∧
    cfgWord (cfgWrite 0 5 w s) 0 5 = w ∧ cfgWord (cfgWrite 0 6 w s) 0 6 = 0xC ∧ cfgWord (cfgWrite 0 7 w s) 0 7 = w &&& 0xFFFFFFF0 := by
  refine ⟨cfgWord_bar w s (by decide) (by decide), ?_, ?_, ?_⟩
  · rw [cfgWord_bar w s (by decide) (by decide)]
    exact BitVec.or_zero.trans BitVec.and_allOnes
  · rw [cfgWord_bar w s (by decide) (by decide)]
    exact (congrArg (· ||| _) BitVec.and_zero).trans BitVec.zero_or
  · rw [cfgWord_bar w s (by decide) (by decide)]
    exact BitVec.or_zero

theorem wFld_idWord (v c : Nat) (hv : v < 65536) (hc : c < 65536) : wFld (word (v + c * 65536)) 31 16 = c ∧
    wFld (word (v + c * 65536)) 15 0 = v := by
  rw [word, wFld_ofNat _ (by decide) (by decide), fld_eq_div_mod, wFld_ofNat_low _ _ (by decide)]
  omega

theorem cfgWord_id (s : State) (fn : Nat) : wFld (cfgWord s fn 0) 31 16 = (if fn = 0 then 0xF016 else 0xF017) ∧
    wFld (cfgWord s fn 0) 15 0 = wFld (cfgWord s 0 0) 15 0 := by
  have hv : Config.vendorId.toNat < 65536 := Config.vendorId.isLt
  have hword (k : Nat) : cfgWord s k 0 = word (Config.vendorId.toNat + (if k = 0 then 0xF016 else 0xF017) * 65536) := rfl
  have hlt (k : Nat) : (if k = 0 then 0xF016 else 0xF017) < 65536 := by split <;> decide
  rw [hword, hword]
  exact ⟨(wFld_idWord _ _ hv (hlt fn)).1, by rw [(wFld_idWord _ _ hv (hlt fn)).2, (wFld_idWord _ _ hv (hlt 0)).2]⟩

theorem fnVectors_le (fn : Nat) : 1 ≤ fnVectors fn ∧ fnVectors fn ≤ 2048 := by
  rw [fnVectors]
  split <;> decide

/-- The size of the MSI-X table, whatever stands in the bits around it. -/
theorem wFld_msixHead (s : State) (fn reg : Nat) : wFld (itemWord s fn reg (.head .msix)) 26 16 = fnVectors fn - 1 := by
  have hle := fnVectors_le fn
  refine Nat.eq_of_testBit_eq fun k => ?_
  rw [testBit_wFld, itemWord]
  by_cases hk : k < 11
  · have hmask : (0xFF00#32).getLsbD (16 + k) = false ∧ (0x11#32).getLsbD (16 + k) = false := by
      revert hk
      revert k
      decide
    have hbit (x y : Word) : wBit (x ||| (y &&& 0xFF00) ||| 0x11) (16 + k) = wBit x (16 + k) := by
      rw [wBit_eq_testBit, wBit_eq_testBit, ← BitVec.getLsbD, ← BitVec.getLsbD]
      simp [BitVec.getLsbD_or, BitVec.getLsbD_and, hmask]
    rw [hbit, wBit_wPut _ _ _ (by decide) (by decide), if_pos (by omega), Nat.add_sub_cancel_left]
    simp [hk]
  · have hlt : fnVectors fn - 1 < 2 ^ k :=
      Nat.lt_of_lt_of_le (show fnVectors fn - 1 < 2 ^ 11 by omega) (Nat.pow_le_pow_right (by decide) (by omega))
    rw [Nat.testBit_lt_two_pow hlt]
    simp [show ¬k < 26 + 1 - 16 by omega]

theorem cfgWord_fixed (s : State) (fn : Nat) : cfgWord s fn 2 = 0x12000002 ∧ wFld (cfgWord s fn 11) 31 16 = 0x4102 ∧
    ∀ reg, wFld (itemWord s fn reg .linkCap) 11 10 = 0 ∧ wFld (itemWord s fn reg (.head .msix)) 26 16 = fnVectors fn - 1 ∧
      wBit (itemWord s fn reg .devCap) 28 = true := by
  refine ⟨rfl, ?_, fun reg => ⟨?_, wFld_msixHead s fn reg, ?_⟩⟩
  · exact wFld_wPut_same _ 0x4102 (by decide) (by decide)
  · exact wFld_wPut_same _ 0 (by decide) (by decide)
  · exact (wBit_wPut _ _ _ (by decide) (by decide)).trans rfl

/-! ## Reads through BAR2 and BAR0 -/

section
variable {x : Fin (2 ^ 36)} {n : Fin 4097} {s : State} (hreach : hostReaches s 0 = true)
include hreach

theorem exec_bar2Read : exec (.bar2Read (.bar2 x) n) s = .next (bar2ReadAt x n (hostReq 0 (apertureDpa s x) s)) := by
  have hexec : exec (.bar2Read (.bar2 x) n) s = execBar2Read (.bar2 x) n s := by rw [exec]
  rw [hexec, execBar2Read]
  exact congrArg Host.Outcome.next (if_neg (by simp [hreach]))

end

theorem apertureDpa_hostReq (fn : Nat) (a : Option Nat) (s : State) (x : Nat) : apertureDpa (hostReq fn a s) x = apertureDpa s x := by
  simp only [apertureDpa, rget_hostReq]

/-- A read that reaches memory is answered with the bytes found. -/
theorem bar2ReadAt_data {x n : Nat} {tg : Tgt} {d : List Byte} {s v : State} (htgt : bar2Tgt s x n false = .ok tg)
    (hreg : ∀ o, tg ≠ .reg o) (h : tgtRead tg n (pfTx (apertureDpa s x)) s = (some d, v)) :
    bar2ReadAt x n s = fnSend 0 (.cpl 0 false d) v := by
  rw [bar2ReadAt, htgt]
  cases tg with
  | reg o => exact absurd rfl (hreg o)
  | slice _ _ => simp only [h]
  | sram _ _ => simp only [h]
  | tier2 _ => simp only [h]
  | bad _ => simp only [h]

theorem bar2ReadAt_unsupported {x n : Nat} {s : State} (h : apertureDpa s x = none) :
    bar2ReadAt x n s = fnSend 0 (.cpl 1 false []) (countUr s) := by
  have htgt : bar2Tgt s x n false = .error true := by rw [bar2Tgt, h]
  rw [bar2ReadAt, htgt]
  rfl

theorem bar2Read_closed {x : Fin (2 ^ 36)} {n : Fin 4097} {s : State} (hreach : hostReaches s 0 = true)
    (h : apertureDpa s x = none) : ∃ t, exec (.bar2Read (.bar2 x) n) s = .next t ∧
      t.hostOut = s.hostOut ++ [onStream s 0 (.cpl 1 false [])] ∧
      wFld (rget t 0x104) 31 16 = min (wFld (rget s 0x104) 31 16 + 1) 65535 ∧ t.t1 = s.t1 ∧ t.t2 = s.t2 := by
  have hexec : exec (.bar2Read (.bar2 x) n) s = .next (fnSend 0 (.cpl 1 false []) (urEnded (apertureDpa s x) s)) := by
    rw [exec_bar2Read hreach, bar2ReadAt_unsupported (by rw [apertureDpa_hostReq, h]), urEnded]
  refine ⟨_, hexec, fnSend_urEnded_hostOut _ _ _, ?_, ?_, ?_⟩
  · rw [rget_fnSend, urEnded_counts]
  · rw [urEnded_eq]
    rfl
  · rw [urEnded_eq]
    rfl

/-- Nothing but the hub's record of refusals differs. -/
def onlyNet (s t : State) : Prop := { t with net := s.net } = s

theorem onlyNet_hostRefused (w : Who) (r : Nat × Nat) (s : State) : onlyNet s (hostRefused w r s) := by
  unfold hostRefused hubRefused hubStatUpd
  split
  · rfl
  · rfl

theorem dpaTgt_bad_reason {s : State} {a r : Nat} (h : dpaTgt s a = .bad r) : r ≠ 2 := by
  rintro rfl
  unfold dpaTgt at h
  dsimp only at h
  repeat' split at h
  all_goals simp at h

/-- A read is never refused for the reason that only a write can have. -/
theorem tgtRefusal_read_reason {s : State} {a n : Nat} {w : Who} {r : Nat × Nat} (h : tgtRefusal s w (dpaTgt s a) n false = some r) :
    r.2 ≠ 2 := by
  cases htgt : dpaTgt s a with
  | bad k =>
    rw [htgt] at h
    rw [← Option.some.inj h]
    exact dpaTgt_bad_reason htgt
  | reg o =>
    rw [htgt] at h
    rw [← Option.some.inj h]
    decide
  | slice c off =>
    rw [htgt] at h
    simp only [tgtRefusal] at h
    split_ifs at h
    all_goals (rw [← Option.some.inj h]; decide)
  | sram k off =>
    rw [htgt] at h
    simp only [tgtRefusal, Bool.false_and, Bool.false_eq_true, if_false] at h
    split_ifs at h
    all_goals (rw [← Option.some.inj h]; decide)
  | tier2 off =>
    rw [htgt] at h
    simp only [tgtRefusal, Bool.false_and, Bool.false_eq_true, if_false] at h
    split_ifs at h
    all_goals (rw [← Option.some.inj h]; decide)

theorem onlyNet_bar2Refuse (x n : Nat) (s : State) : onlyNet s (bar2Refuse x n false s) := by
  unfold bar2Refuse
  split
  · rfl
  · next a _ =>
    split
    · rfl
    · split
      · next r hr =>
        rw [hostRaw, if_pos (tgtRefusal_read_reason hr)]
        exact onlyNet_hostRefused _ _ _
      · rfl

theorem bar2ReadAt_refused {x n : Nat} {s : State} (h : bar2Tgt s x n false = .error false) :
    bar2ReadAt x n s = fnSend 0 (.cpl 2 false []) (countCa (bar2Refuse x n false s)) := by
  rw [bar2ReadAt, h]
  rfl

/-- What the refused completion leaves. -/
theorem caSent_leaves (fn : Nat) {s t : State} (h : onlyNet s t) :
    (fnSend fn (.cpl 2 false []) (countCa t)).hostOut = s.hostOut ++ [onStream s fn (.cpl 2 false [])] ∧
      wFld (rget (fnSend fn (.cpl 2 false []) (countCa t)) 0x104) 15 0 = min (wFld (rget s 0x104) 15 0 + 1) 65535 ∧
      (fnSend fn (.cpl 2 false []) (countCa t)).t1 = s.t1 ∧ (fnSend fn (.cpl 2 false []) (countCa t)).t2 = s.t2 ∧
      (fnSend fn (.cpl 2 false []) (countCa t)).csram = s.csram := by
  unfold onlyNet at h
  rw [rget_fnSend, countCa_counts]
  rw [← h]
  exact ⟨rfl, rfl, rfl, rfl, rfl⟩

theorem bar2Read_refused {x : Fin (2 ^ 36)} {n : Fin 4097} {s : State} (hreach : hostReaches s 0 = true)
    (h : bar2Tgt (hostReq 0 (apertureDpa s x) s) x n false = .error false) :
    ∃ t, exec (.bar2Read (.bar2 x) n) s = .next t ∧ t.hostOut = s.hostOut ++ [onStream s 0 (.cpl 2 false [])] ∧
      wFld (rget t 0x104) 15 0 = min (wFld (rget s 0x104) 15 0 + 1) 65535 ∧ t.t1 = s.t1 ∧ t.t2 = s.t2 ∧ t.csram = s.csram := by
  have hexec := exec_bar2Read (n := n) (x := x) hreach
  rw [bar2ReadAt_refused h] at hexec
  have hleaves := caSent_leaves 0 (onlyNet_bar2Refuse x n (hostReq 0 (apertureDpa s x) s))
  rw [onStream_hostReq, rget_hostReq] at hleaves
  obtain ⟨hout, hca, h1, h2, hs⟩ := hleaves
  refine ⟨_, hexec, hout.trans ?_, hca, h1.trans ?_, h2.trans ?_, hs.trans ?_⟩
  all_goals (rw [hostReq_eq])

theorem exec_bar0Read {fn : Fin 65} {off : Fin (2 ^ 28)} {n : Fin 4097} {s : State} (hreach : hostReaches s fn = true) :
    exec (.bar2Read (.bar0 fn off) n) s = .next (bar0Read fn off n (hostReq fn none s)) := by
  have hexec : exec (.bar2Read (.bar0 fn off) n) s = execBar2Read (.bar0 fn off) n s := by rw [exec]
  rw [hexec, execBar2Read]
  exact congrArg Host.Outcome.next (if_neg (by simp [hreach]))

theorem bar0Read_at {fn off n o : Nat} {s : State} (h : barOff fn off = some o) : bar0Read fn off n s =
    if regFenced s o then fnSend fn (.cpl 2 false []) (countCa s)
    else fnSend fn (.cpl 0 false (regBytes false o n s).1) (regBytes false o n s).2 := by
  rw [bar0Read, h]

theorem bar0Read_lostDie {fn : Fin 65} {off : Fin (2 ^ 28)} {n : Fin 4097} {o : Nat} {s : State} (hreach : hostReaches s fn = true)
    (ho : barOff fn off = some o) (hf : regFenced s o = true) : ∃ t, exec (.bar2Read (.bar0 fn off) n) s = .next t ∧
      t.hostOut = s.hostOut ++ [onStream s fn (.cpl 2 false [])] ∧
      wFld (rget t 0x104) 15 0 = min (wFld (rget s 0x104) 15 0 + 1) 65535 ∧ (∀ a, a ≠ 0x104 → rget t a = rget s a) := by
  have hexec := exec_bar0Read (off := off) (n := n) hreach
  rw [bar0Read_at ho, regFenced_hostReq, if_pos hf] at hexec
  obtain ⟨hout, hca, -⟩ := caSent_leaves fn (show onlyNet (hostReq fn none s) (hostReq fn none s) from rfl)
  rw [onStream_hostReq] at hout
  rw [rget_hostReq] at hca
  refine ⟨_, hexec, hout.trans ?_, hca, fun a ha => ?_⟩
  · rw [hostReq_eq]
  · rw [rget_fnSend, rget_countCa_other _ ha, rget_hostReq]

theorem bar0Read_reads {fn : Fin 65} {off : Fin (2 ^ 28)} {n : Fin 4097} {o : Nat} {s : State} (hreach : hostReaches s fn = true)
    (ho : barOff fn off = some o) (hf : regFenced s o = false) : exec (.bar2Read (.bar0 fn off) n) s =
      .next (fnSend fn (.cpl 0 false (regBytes false o n (hostReq fn none s)).1) (regBytes false o n (hostReq fn none s)).2) := by
  rw [exec_bar0Read hreach, bar0Read_at ho, regFenced_hostReq, if_neg (by simp [hf])]

/-! ## Writes through BAR2 -/

theorem t2Link_clean {off n : Nat} {part : Option Nat} {s : State} (h : ∀ k, (pairGet s k).link = 0) :
    t2Link off n part s = ([], s) := by
  unfold t2Link
  exact List.foldlRecOn (motive := fun a => a = ([], s)) _ _ rfl fun a ha i _ => by
    subst ha
    exact if_pos (h _)

/-- Tier 2 after a write over clean links. -/
theorem t2Store_clean {off : Nat} {v : List Byte} {tx : Option Tx} {s : State} (h : ∀ k, (pairGet s k).link = 0) :
    (t2Store off v tx s).t2 = memWrite s.t2 off v ∧ (t2Store off v tx s).t1 = s.t1 ∧ (t2Store off v tx s).regs = s.regs ∧
      (t2Store off v tx s).cores = s.cores ∧ (t2Store off v tx s).hostOut = s.hostOut := by
  rw [t2Store, t2Link_clean h]
  dsimp only
  rw [t2Write, tallyHub_t2, tallyHub_t1, tallyHub_regs, tallyHub_cores, tallyHub_hostOut]
  exact ⟨rfl, rfl, rfl, rfl, rfl⟩

theorem bar2Write_tier2 {x : Fin (2 ^ 36)} {d : List Byte} {off : Nat} {s : State} (hreach : hostReaches s 0 = true)
    (htgt : bar2Tgt (hostReq 0 (apertureDpa s x) s) x d.length true = .ok (.tier2 off)) (hlink : ∀ k, (pairGet s k).link = 0) :
    ∃ t, exec (.bar2Write x d) s = .next t ∧ memRead t.t2 off d.length = d ∧
      (∀ a, a < off ∨ off + d.length ≤ a → memGet t.t2 a = memGet s.t2 a) ∧ t.t1 = s.t1 ∧ t.regs = s.regs ∧
      t.cores = s.cores ∧ t.hostOut = s.hostOut := by
  have hexec : exec (.bar2Write x d) s = execBar2Write x d s := by rw [exec]
  rw [execBar2Write, if_neg (by simp [hreach])] at hexec
  dsimp only at hexec
  rw [htgt] at hexec
  have hl : ∀ k, (pairGet (hostReq 0 (apertureDpa s x) s) k).link = 0 := by
    rw [hostReq_eq]
    exact hlink
  obtain ⟨h2, h1, hregs, hcores, hout⟩ :=
    t2Store_clean (off := off) (v := d) (tx := pfTx (apertureDpa (hostReq 0 (apertureDpa s x) s) x)) hl
  have hmem : (hostReq 0 (apertureDpa s x) s).t2 = s.t2 := by rw [hostReq_eq]
  rw [hmem] at h2
  refine ⟨_, hexec, ?_, fun a ha => ?_, h1.trans ?_, hregs.trans (hostReq_regs _ _ _), hcores.trans ?_, hout.trans ?_⟩
  · rw [tgtWrite, h2, memRead_memWrite]
  · rw [tgtWrite, h2, memGet_memWrite_other _ _ _ _ ha]
  all_goals (rw [hostReq_eq])

theorem bar2Write_closed {x : Fin (2 ^ 36)} {d : List Byte} {s : State} (hreach : hostReaches s 0 = true)
    (h : apertureDpa s x = none) : ∃ t, exec (.bar2Write x d) s = .next t ∧ t.t1 = s.t1 ∧ t.t2 = s.t2 ∧ t.csram = s.csram ∧
      t.hostOut = s.hostOut ∧ wFld (rget t 0x104) 31 16 = min (wFld (rget s 0x104) 31 16 + 1) 65535 := by
  have htgt : bar2Tgt (hostReq 0 (apertureDpa s x) s) x d.length true = .error true := by
    rw [bar2Tgt, apertureDpa_hostReq, h]
  have hexec : exec (.bar2Write x d) s = execBar2Write x d s := by rw [exec]
  rw [execBar2Write, if_neg (by simp [hreach])] at hexec
  dsimp only at hexec
  rw [htgt] at hexec
  have hframe := urEnded_eq (apertureDpa s x) s
  have hcount := urEnded_counts (apertureDpa s x) s
  rw [urEnded] at hframe hcount
  exact ⟨_, hexec, by rw [hframe], by rw [hframe], by rw [hframe], by rw [hframe], hcount⟩

end Sys2Proof.Machine

open Sys2Proof.Machine

/-- Settles O32: a register of the global page, any other register, and a register of a lost die. -/
theorem hostRegisterWrite : Obligations.HostRegisterWrite :=
  ⟨fun _ _ _ _ _ => registerWrite_global, fun _ _ _ _ _ => exec_registerWrite_reaches, fun _ _ _ => registerWrite_lostDie⟩

/-- Settles O33: configuration requests field by field, then the outcomes of a read and of a write one by one. -/
theorem hostConfigAndBar2 : Obligations.HostConfigAndBar2 := by
  refine ⟨fun _ _ _ => exec_configRead, fun _ _ w _ h0 hlink hboot => exec_configWrite h0 hlink hboot w, cfgWord_bars,
    fun fn s => ?_, fun x n tg d s v hreach htgt hreg h => ?_, fun _ _ _ => bar2Read_closed, fun _ _ _ => bar2Read_refused,
    fun _ _ _ _ _ hreach ho => ⟨bar0Read_lostDie hreach ho, bar0Read_reads hreach ho⟩, fun _ _ _ _ => bar2Write_tier2,
    fun _ _ _ => bar2Write_closed⟩
  · obtain ⟨hid, hvendor⟩ := cfgWord_id s fn
    obtain ⟨hclass, hsub, hitems⟩ := cfgWord_fixed s fn
    exact ⟨hid, hvendor, hclass, hsub, hitems⟩
  · rw [exec_bar2Read hreach, bar2ReadAt_data htgt hreg (by rw [apertureDpa_hostReq]; exact h)]
end

section
/-! What the operations of the model may change, field by field of the state. `Only m s t` says that `t` differs from `s` in the
fields of the set `m` alone; there is one lemma per operation, and one per way in which operations are put together. -/

namespace Sys2Proof.Machine

/-! ## Sets of fields -/

def F.pending : Nat := 0x1
def F.regs : Nat := 0x2
def F.cores : Nat := 0x4
def F.cols : Nat := 0x8
def F.sp : Nat := 0x10
def F.spChk : Nat := 0x20
def F.spWr : Nat := 0x40
def F.csram : Nat := 0x80
def F.csChk : Nat := 0x100
def F.csWr : Nat := 0x200
def F.csQueue : Nat := 0x400
def F.portResp : Nat := 0x800
def F.t1 : Nat := 0x1000
def F.t1Chk : Nat := 0x2000
def F.ftag : Nat := 0x4000
def F.refRate : Nat := 0x8000
def F.t2 : Nat := 0x10000
def F.pools : Nat := 0x20000
def F.gbarArr : Nat := 0x40000
def F.gbarEpoch : Nat := 0x80000
def F.lostTw : Nat := 0x100000
def F.remote : Nat := 0x200000
def F.remoteRef : Nat := 0x400000
def F.hubs : Nat := 0x800000
def F.ctrs : Nat := 0x1000000
def F.frozen : Nat := 0x2000000
def F.telem : Nat := 0x4000000
def F.map : Nat := 0x8000000
def F.parts : Nat := 0x10000000
def F.winMem : Nat := 0x20000000
def F.wins : Nat := 0x40000000
def F.nextPkt : Nat := 0x80000000
def F.d3 : Nat := 0x100000000
def F.cfg : Nat := 0x200000000
def F.reads : Nat := 0x400000000
def F.nextTag : Nat := 0x800000000
def F.dmas : Nat := 0x1000000000
def F.zeroQ : Nat := 0x2000000000
def F.noReuse : Nat := 0x4000000000
def F.reload : Nat := 0x8000000000
def F.stage : Nat := 0x10000000000
def F.booted : Nat := 0x20000000000
def F.ns : Nat := 0x40000000000
def F.fatal : Nat := 0x80000000000
def F.faultN : Nat := 0x100000000000
def F.hostOut : Nat := 0x200000000000
def F.fresh : Nat := 0x400000000000
def F.pwr : Nat := 0x800000000000
def F.boot : Nat := 0x1000000000000
def F.therm : Nat := 0x2000000000000
def F.mnt : Nat := 0x4000000000000
def F.sec : Nat := 0x8000000000000
def F.net : Nat := 0x10000000000000
def F.t2q : Nat := 0x20000000000000
def F.t2poison : Nat := 0x40000000000000
def F.fab : Nat := 0x80000000000000
def F.snap : Nat := 0x100000000000000
def F.mirror : Nat := 0x200000000000000
/-- The rails within `pwr`, which `F.pwr` does not hold. -/
def F.rails : Nat := 0x400000000000000

/-- What an error record may change. -/
def F.logs : Nat := F.regs ||| F.cores ||| F.cols ||| F.hubs ||| F.ctrs ||| F.telem ||| F.fatal ||| F.faultN ||| F.hostOut
    ||| F.fab

/-- What an access to the cluster SRAM may change. -/
def F.srams : Nat := F.logs ||| F.csram ||| F.csChk ||| F.csWr

/-- Every field of set `a` stands in set `m`. -/
def Within (a m : Nat) : Prop := Nat.beq (a ||| m) m = true

theorem Within.of {a b m : Nat} (h : Within b m) (k : Within a b) : Within a m := by
  have hb : b ||| m = m := Nat.eq_of_beq_eq_true h
  have ha : a ||| b = b := Nat.eq_of_beq_eq_true k
  have : a ||| m = m := by rw [← hb, ← Nat.or_assoc, ha]
  rw [Within, this, Nat.beq_refl]

theorem Within.refl (m : Nat) : Within m m := by
  rw [Within, Nat.or_self, Nat.beq_refl]

theorem Within.testBit {a m : Nat} (h : Within a m) {i : Nat} (hi : a.testBit i = true) : m.testBit i = true := by
  have hm : a ||| m = m := Nat.eq_of_beq_eq_true h
  rw [← hm, Nat.testBit_or, hi, Bool.true_or]

/-! ## States that differ in a set of fields -/

/-- The rails of `x` or `y` within the rest of `x` or `y`. -/
def mixPwr (a b : Bool) (x y : PwrSt) : PwrSt := { (bif a then y else x) with rails := bif b then y.rails else x.rails }

/-- State `s` with the fields of set `m` as in `t`. -/
def mix (m : Nat) (s t : State) : State where
  pending := bif m.testBit 0 then t.pending else s.pending
  regs := bif m.testBit 1 then t.regs else s.regs
  cores := bif m.testBit 2 then t.cores else s.cores
  cols := bif m.testBit 3 then t.cols else s.cols
  sp := bif m.testBit 4 then t.sp else s.sp
  spChk := bif m.testBit 5 then t.spChk else s.spChk
  spWr := bif m.testBit 6 then t.spWr else s.spWr
  csram := bif m.testBit 7 then t.csram else s.csram
  csChk := bif m.testBit 8 then t.csChk else s.csChk
  csWr := bif m.testBit 9 then t.csWr else s.csWr
  csQueue := bif m.testBit 10 then t.csQueue else s.csQueue
  portResp := bif m.testBit 11 then t.portResp else s.portResp
  t1 := bif m.testBit 12 then t.t1 else s.t1
  t1Chk := bif m.testBit 13 then t.t1Chk else s.t1Chk
  ftag := bif m.testBit 14 then t.ftag else s.ftag
  refRate := bif m.testBit 15 then t.refRate else s.refRate
  t2 := bif m.testBit 16 then t.t2 else s.t2
  pools := bif m.testBit 17 then t.pools else s.pools
  gbarArr := bif m.testBit 18 then t.gbarArr else s.gbarArr
  gbarEpoch := bif m.testBit 19 then t.gbarEpoch else s.gbarEpoch
  lostTw := bif m.testBit 20 then t.lostTw else s.lostTw
  remote := bif m.testBit 21 then t.remote else s.remote
  remoteRef := bif m.testBit 22 then t.remoteRef else s.remoteRef
  hubs := bif m.testBit 23 then t.hubs else s.hubs
  ctrs := bif m.testBit 24 then t.ctrs else s.ctrs
  frozen := bif m.testBit 25 then t.frozen else s.frozen
  telem := bif m.testBit 26 then t.telem else s.telem
  map := bif m.testBit 27 then t.map else s.map
  parts := bif m.testBit 28 then t.parts else s.parts
  winMem := bif m.testBit 29 then t.winMem else s.winMem
  wins := bif m.testBit 30 then t.wins else s.wins
  nextPkt := bif m.testBit 31 then t.nextPkt else s.nextPkt
  d3 := bif m.testBit 32 then t.d3 else s.d3
  cfg := bif m.testBit 33 then t.cfg else s.cfg
  reads := bif m.testBit 34 then t.reads else s.reads
  nextTag := bif m.testBit 35 then t.nextTag else s.nextTag
  dmas := bif m.testBit 36 then t.dmas else s.dmas
  zeroQ := bif m.testBit 37 then t.zeroQ else s.zeroQ
  noReuse := bif m.testBit 38 then t.noReuse else s.noReuse
  reload := bif m.testBit 39 then t.reload else s.reload
  stage := bif m.testBit 40 then t.stage else s.stage
  booted := bif m.testBit 41 then t.booted else s.booted
  ns := bif m.testBit 42 then t.ns else s.ns
  fatal := bif m.testBit 43 then t.fatal else s.fatal
  faultN := bif m.testBit 44 then t.faultN else s.faultN
  hostOut := bif m.testBit 45 then t.hostOut else s.hostOut
  fresh := bif m.testBit 46 then t.fresh else s.fresh
  pwr := mixPwr (m.testBit 47) (m.testBit 58) s.pwr t.pwr
  boot := bif m.testBit 48 then t.boot else s.boot
  therm := bif m.testBit 49 then t.therm else s.therm
  mnt := bif m.testBit 50 then t.mnt else s.mnt
  sec := bif m.testBit 51 then t.sec else s.sec
  net := bif m.testBit 52 then t.net else s.net
  t2q := bif m.testBit 53 then t.t2q else s.t2q
  t2poison := bif m.testBit 54 then t.t2poison else s.t2poison
  fab := bif m.testBit 55 then t.fab else s.fab
  snap := bif m.testBit 56 then t.snap else s.snap
  mirror := bif m.testBit 57 then t.mirror else s.mirror

/-- State `t` differs from `s` in the fields of set `m` alone. -/
def Only (m : Nat) (s t : State) : Prop := mix m s t = t

theorem cond_cond_of {α : Type} {a b : Bool} (h : a = true → b = true) (x z : α) :
    (bif b then (bif a then x else z) else z) = bif a then x else z := by
  cases b
  · cases a
    · rfl
    · exact absurd (h rfl) (by decide)
  · rfl

theorem cond_same {α : Type} (b : Bool) (x : α) : (bif b then x else x) = x := by
  cases b <;> rfl

theorem mixPwr_same (a b : Bool) (x : PwrSt) : mixPwr a b x x = x := by
  cases a <;> cases b <;> rfl

theorem mixPwr_mixPwr (a b : Bool) (x y z : PwrSt) : mixPwr a b (mixPwr a b x y) z = mixPwr a b x z := by
  cases a <;> cases b <;> rfl

theorem mixPwr_of {a b c d : Bool} (h : a = true → c = true) (k : b = true → d = true) (x y : PwrSt) :
    mixPwr c d x (mixPwr a b x y) = mixPwr a b x y := by
  revert h k
  cases a <;> cases b <;> cases c <;> cases d <;> simp [mixPwr]

theorem mix_self (m : Nat) (s : State) : mix m s s = s := by
  simp only [mix, cond_same, mixPwr_same]

theorem cond_cond_left {α : Type} (b : Bool) (x y z : α) : (bif b then z else bif b then y else x) = bif b then z else x := by
  cases b <;> rfl

theorem mix_mix (m : Nat) (s t u : State) : mix m (mix m s t) u = mix m s u := by
  simp only [mix, cond_cond_left, mixPwr_mixPwr]

theorem mix_within {a m : Nat} (h : Within a m) (s t : State) : mix m s (mix a s t) = mix a s t := by
  have hbit (i : Nat) {α : Type} (x z : α) : (bif m.testBit i then (bif a.testBit i then x else z) else z) =
      bif a.testBit i then x else z := cond_cond_of h.testBit x z
  have hpwr (i j : Nat) (x z : PwrSt) : mixPwr (m.testBit i) (m.testBit j) x (mixPwr (a.testBit i) (a.testBit j) x z) =
      mixPwr (a.testBit i) (a.testBit j) x z := mixPwr_of h.testBit h.testBit x z
  simp only [mix, hbit, hpwr]

theorem Only.refl (m : Nat) (s : State) : Only m s s := mix_self m s

theorem Only.trans {m : Nat} {s t u : State} (h : Only m s t) (k : Only m t u) : Only m s u := by
  rw [Only] at h k ⊢
  rw [← mix_mix m s t u, h, k]

theorem Only.mono {a m : Nat} {s t : State} (h : Only a s t) (hm : Within a m) : Only m s t := by
  rw [Only] at h ⊢
  rw [← h, mix_within hm]

theorem Only.nextPkt {m : Nat} {s t : State} (h : Only m s t) (hm : m.testBit 31 = false) : t.nextPkt = s.nextPkt := by
  rw [← h, mix, hm, cond_false]

theorem Only.winMem {m : Nat} {s t : State} (h : Only m s t) (hm : m.testBit 29 = false) : t.winMem = s.winMem := by
  rw [← h, mix, hm, cond_false]

theorem Only.d3 {m : Nat} {s t : State} (h : Only m s t) (hm : m.testBit 32 = false) : t.d3 = s.d3 := by
  rw [← h, mix, hm, cond_false]

theorem Only.ns {m : Nat} {s t : State} (h : Only m s t) (hm : m.testBit 42 = false) : t.ns = s.ns := by
  rw [← h, mix, hm, cond_false]

theorem Only.pending {m : Nat} {s t : State} (h : Only m s t) (hm : m.testBit 0 = false) : t.pending = s.pending := by
  rw [← h, mix, hm, cond_false]

theorem Only.wins {m : Nat} {s t : State} (h : Only m s t) (hm : m.testBit 30 = false) : t.wins = s.wins := by
  rw [← h, mix, hm, cond_false]

theorem Only.parts {m : Nat} {s t : State} (h : Only m s t) (hm : m.testBit 28 = false) : t.parts = s.parts := by
  rw [← h, mix, hm, cond_false]

theorem Only.map {m : Nat} {s t : State} (h : Only m s t) (hm : m.testBit 27 = false) : t.map = s.map := by
  rw [← h, mix, hm, cond_false]

theorem Only.t1 {m : Nat} {s t : State} (h : Only m s t) (hm : m.testBit 12 = false) : t.t1 = s.t1 := by
  rw [← h, mix, hm, cond_false]

theorem Only.t2 {m : Nat} {s t : State} (h : Only m s t) (hm : m.testBit 16 = false) : t.t2 = s.t2 := by
  rw [← h, mix, hm, cond_false]

theorem Only.boot {m : Nat} {s t : State} (h : Only m s t) (hm : m.testBit 48 = false) : t.boot = s.boot := by
  rw [← h, mix, hm, cond_false]

theorem Only.cores {m : Nat} {s t : State} (h : Only m s t) (hm : m.testBit 2 = false) : t.cores = s.cores := by
  rw [← h, mix, hm, cond_false]

theorem Only.lostTw {m : Nat} {s t : State} (h : Only m s t) (hm : m.testBit 20 = false) : t.lostTw = s.lostTw := by
  rw [← h, mix, hm, cond_false]

theorem Only.hubs {m : Nat} {s t : State} (h : Only m s t) (hm : m.testBit 23 = false) : t.hubs = s.hubs := by
  rw [← h, mix, hm, cond_false]

theorem Only.hostOut {m : Nat} {s t : State} (h : Only m s t) (hm : m.testBit 45 = false) : t.hostOut = s.hostOut := by
  rw [← h, mix, hm, cond_false]

theorem Only.therm {m : Nat} {s t : State} (h : Only m s t) (hm : m.testBit 49 = false) : t.therm = s.therm := by
  rw [← h, mix, hm, cond_false]

theorem Only.stage {m : Nat} {s t : State} (h : Only m s t) (hm : m.testBit 40 = false) : t.stage = s.stage := by
  rw [← h, mix, hm, cond_false]

theorem Only.sec {m : Nat} {s t : State} (h : Only m s t) (hm : m.testBit 51 = false) : t.sec = s.sec := by
  rw [← h, mix, hm, cond_false]

theorem Only.reads {m : Nat} {s t : State} (h : Only m s t) (hm : m.testBit 34 = false) : t.reads = s.reads := by
  rw [← h, mix, hm, cond_false]

theorem Only.regs {m : Nat} {s t : State} (h : Only m s t) (hm : m.testBit 1 = false) : t.regs = s.regs := by
  rw [← h, mix, hm, cond_false]

theorem Only.rails {m : Nat} {s t : State} (h : Only m s t) (hm : m.testBit 58 = false) : t.pwr.rails = s.pwr.rails := by
  rw [← h, mix, mixPwr, hm, cond_false]

section
variable {φ : Nat} {u s : State}

/-- A change of the fields of a set `a`. -/
theorem only_with {a : Nat} {t : State} (hm : Within a φ) (e : mix a s t = t) (h : Only φ u s) : Only φ u t :=
  h.trans (Only.mono e hm)

theorem onlyset_ctrs {x : Store Ctr} (hm : Within F.ctrs φ) (h : Only φ u s) : Only φ u { s with ctrs := x } := only_with hm
    rfl h

theorem onlyset_fab {x : FabSt} (hm : Within F.fab φ) (h : Only φ u s) : Only φ u { s with fab := x } := only_with hm rfl h

theorem onlyset_net {x : NetSt} (hm : Within F.net φ) (h : Only φ u s) : Only φ u { s with net := x } := only_with hm rfl h

theorem onlyset_mapNet {x : LogMap} {y : NetSt} (hm : Within (F.map ||| F.net) φ) (h : Only φ u s) :
    Only φ u { s with map := x, net := y } := only_with hm rfl h

theorem onlyset_lostTw {x : NatSet} (hm : Within F.lostTw φ) (h : Only φ u s) : Only φ u { s with lostTw := x } :=
  only_with hm rfl h

theorem onlyset_fabric {x : FabSt} {y : MntSt} {z : Store T2Pair} (hm : Within (F.fab ||| F.mnt ||| F.t2q) φ) (h : Only φ u s) :
    Only φ u { s with fab := x, mnt := y, t2q := z } := only_with hm rfl h

theorem only_ite {c : Prop} [Decidable c] {t : State} (hs : Only φ u s) (ht : Only φ u t) : Only φ u (if c then s else t) := by
  split
  · exact hs
  · exact ht

theorem only_ite_snd {α : Type} {c : Prop} [Decidable c] {x y : α × State} (hx : Only φ u x.2) (hy : Only φ u y.2) :
    Only φ u (if c then x else y).2 := by
  split
  · exact hx
  · exact hy

theorem only_foldl {α : Type} {f : State → α → State} {l : List α} (hf : ∀ s a, Only φ u s → Only φ u (f s a))
    (h : Only φ u s) : Only φ u (l.foldl f s) := List.foldlRecOn (motive := Only φ u) l f h fun t ht a _ => hf t a ht

theorem only_iter {n : Nat} {f : Nat → State → State} (hf : ∀ i s, Only φ u s → Only φ u (f i s)) (h : Only φ u s) :
    Only φ u (iter n f s) := only_foldl (fun s i => hf i s) h

end

/-- An operation of a directory engine that succeeds changes the fields of set `φ` alone. -/
def OnlyEng {α : Type} (φ : Nat) (u : State) (e : Eng α) : Prop := ∀ s a t, Only φ u s → e.run s = .ok (a, t) → Only φ u t

section
variable {φ : Nat} {u : State} {α β : Type}

theorem onlyEng_pure (a : α) : OnlyEng φ u (pure a) := fun s _ t h e => by
  have e := congrArg (Except.map Prod.snd) e
  have : s = t := Except.ok.inj e
  rwa [← this]

theorem onlyEng_fail (st : Nat) : OnlyEng φ u (engFail st : Eng α) := fun _ _ _ _ e => by
  simp [engFail, throw, throwThe, MonadExceptOf.throw, StateT.run, StateT.lift, bind, Except.bind] at e

theorem onlyEng_bind {e : Eng α} {f : α → Eng β} (he : OnlyEng φ u e) (hf : ∀ a, OnlyEng φ u (f a)) : OnlyEng φ u (e >>= f) :=
  fun s b t h hrun => by
    rw [StateT.run_bind] at hrun
    cases hr : e.run s with
    | error st =>
      rw [hr] at hrun
      cases hrun
    | ok x =>
      obtain ⟨a, v⟩ := x
      rw [hr] at hrun
      exact hf a v b t (he s a v h hr) hrun

theorem onlyEng_get {f : State → Eng β} (hf : ∀ s, Only φ u s → OnlyEng φ u (f s)) : OnlyEng φ u (get >>= f) :=
  fun s b t h e => hf s h s b t h e

theorem onlyEng_modify {f : State → State} (hf : ∀ s, Only φ u s → Only φ u (f s)) : OnlyEng φ u (modify f) := fun s _ t h e
    => by
  have e := congrArg (Except.map Prod.snd) e
  have : f s = t := Except.ok.inj e
  rw [← this]
  exact hf s h

theorem onlyEng_set {v : State} (h : Only φ u v) : OnlyEng φ u (set v : Eng Unit) := fun _ _ t _ e => by
  have e := congrArg (Except.map Prod.snd) e
  have : v = t := Except.ok.inj e
  rwa [← this]

theorem onlyEng_ite {c : Prop} [Decidable c] {e f : Eng α} (he : OnlyEng φ u e) (hf : OnlyEng φ u f) :
    OnlyEng φ u (if c then e else f) := by
  split
  · exact he
  · exact hf

theorem only_engMap {f : α → Eng β} (hf : ∀ a, OnlyEng φ u (f a)) : ∀ l, OnlyEng φ u (engMap f l)
  | [] => onlyEng_pure _
  | _ :: r => onlyEng_bind (hf _) fun _ => onlyEng_bind (only_engMap hf r) fun _ => onlyEng_pure _

theorem only_engEach {f : α → Eng Unit} (hf : ∀ a, OnlyEng φ u (f a)) : ∀ l, OnlyEng φ u (engEach f l)
  | [] => onlyEng_pure _
  | _ :: r => onlyEng_bind (hf _) fun _ => only_engEach hf r

theorem only_engRun {s : State} (h : Only φ u s) {e : Eng Unit} (he : OnlyEng φ u e) : Only φ u (engRun e s) := by
  unfold engRun
  split
  · next hr => exact he _ _ _ h hr
  · exact h

end

/-! ## The operations -/

section
variable {φ : Nat} {u s : State}

theorem only_colset (hm : Within F.cols φ) (h : Only φ u s) (k v) : Only φ u (colset k v s) := by
  unfold colset
  exact only_with hm rfl h

theorem only_colupd (hm : Within F.cols φ) (h : Only φ u s) (k f) : Only φ u (colupd k f s) := by
  unfold colupd
  exact only_colset hm h _ _

theorem only_fportSet (hm : Within F.fab φ) (h : Only φ u s) (p v) : Only φ u (fportSet p v s) := by
  unfold fportSet
  exact only_with hm rfl h

theorem only_fportUpd (hm : Within F.fab φ) (h : Only φ u s) (p f) : Only φ u (fportUpd p f s) := by
  unfold fportUpd
  exact only_fportSet (hm.of rfl) h _ _

theorem only_cset (hm : Within F.cores φ) (h : Only φ u s) (c v) : Only φ u (cset c v s) := by
  unfold cset
  exact only_with hm rfl h

theorem only_cupd (hm : Within F.cores φ) (h : Only φ u s) (c f) : Only φ u (cupd c f s) := by
  unfold cupd
  exact only_cset (hm.of rfl) h _ _

theorem only_tally (hm : Within F.ctrs φ) (h : Only φ u s) (sel evt n tx) : Only φ u (tally sel evt n tx s) := by
  unfold tally
  exact only_ite h (only_with hm rfl h)

theorem only_tallyCore (hm : Within F.ctrs φ) (h : Only φ u s) (c evt n tx) : Only φ u (tallyCore c evt n tx s) := by
  unfold tallyCore
  exact only_ite h (only_tally (hm.of rfl) h _ _ _ _)

theorem only_rset (hm : Within F.regs φ) (h : Only φ u s) (off w) : Only φ u (rset off w s) := by
  unfold rset
  exact only_with hm rfl h

theorem only_corSet (hm : Within F.regs φ) (h : Only φ u s) (c o w) : Only φ u (corSet c o w s) := by
  unfold corSet
  exact only_rset (hm.of rfl) h _ _

theorem only_squpd (hm : Within F.cores φ) (h : Only φ u s) (c f) : Only φ u (squpd c f s) := by
  unfold squpd
  exact only_cupd (hm.of rfl) h _ _

theorem only_discardUnstarted (hm : Within (F.cores ||| F.cols) φ) (h : Only φ u s) (c) : Only φ u (discardUnstarted c s) := by
  unfold discardUnstarted
  exact only_colupd (hm.of rfl) (only_colupd (hm.of rfl) (only_cupd (hm.of rfl) h _ _) _ _) _ _

theorem only_haltReqCore (hm : Within (F.cores ||| F.cols) φ) (h : Only φ u s) (c) : Only φ u (haltReqCore c s) := by
  unfold haltReqCore
  exact only_ite (only_ite (only_squpd (hm.of rfl) h _ _) h) (only_squpd (hm.of rfl) (only_discardUnstarted (hm.of rfl) h _)
      _ _)

theorem only_pset (hm : Within F.parts φ) (h : Only φ u s) (p v) : Only φ u (pset p v s) := by
  unfold pset
  exact only_with hm rfl h

theorem only_pupd (hm : Within F.parts φ) (h : Only φ u s) (p f) : Only φ u (pupd p f s) := by
  unfold pupd
  exact only_pset (hm.of rfl) h _ _

theorem only_spLast (hm : Within F.regs φ) (h : Only φ u s) (c b kind) : Only φ u (spLast c b kind s) := by
  unfold spLast
  exact only_corSet (hm.of rfl) h _ _ _

theorem only_rupd (hm : Within F.regs φ) (h : Only φ u s) (off f) : Only φ u (rupd off f s) := by
  unfold rupd
  exact only_rset (hm.of rfl) h _ _

theorem only_corUpd (hm : Within F.regs φ) (h : Only φ u s) (c o f) : Only φ u (corUpd c o f s) := by
  unfold corUpd
  exact only_rupd (hm.of rfl) h _ _

theorem only_haltAll (hm : Within (F.cores ||| F.cols) φ) (h : Only φ u s) : Only φ u (haltAll s) := by
  unfold haltAll
  exact only_foldl (φ := φ) (fun _ _ h1 => (only_haltReqCore (hm.of rfl) h1 _)) h

theorem only_enterFatal (hm : Within (F.cores ||| F.cols ||| F.fatal ||| F.faultN) φ) (h : Only φ u s) : Only φ u (enterFatal
    s) := by
  unfold enterFatal
  exact only_haltAll (hm.of rfl) (only_with (a := (F.fatal ||| F.faultN)) (hm.of rfl) rfl h)

theorem only_hostSend (hm : Within F.hostOut φ) (h : Only φ u s) (m) : Only φ u (hostSend m s) := by
  unfold hostSend
  exact only_with hm rfl h

theorem only_fnSend (hm : Within F.hostOut φ) (h : Only φ u s) (fn m) : Only φ u (fnSend fn m s) := by
  unfold fnSend
  exact only_hostSend (hm.of rfl) h _

theorem only_sendMsix (hm : Within (F.regs ||| F.hostOut) φ) (h : Only φ u s) (fn vec) : Only φ u (sendMsix fn vec s) := by
  unfold sendMsix
  exact only_ite h (only_ite (only_rupd (hm.of rfl) h _ _) (only_fnSend (hm.of rfl) h _ _))

theorem only_hset (hm : Within F.hubs φ) (h : Only φ u s) (a0 v) : Only φ u (hset a0 v s) := by
  unfold hset
  exact only_with hm rfl h

theorem only_hubSignal (hm : Within (F.regs ||| F.hubs ||| F.hostOut) φ) (h : Only φ u s) (a0) : Only φ u (hubSignal a0 s) := by
  unfold hubSignal
  exact only_ite (only_sendMsix (hm.of rfl) (only_hset (hm.of rfl) h _ _) _ _) (only_hset (hm.of rfl) h _ _)

theorem only_tallyHub (hm : Within F.ctrs φ) (h : Only φ u s) (a0 evt n tx) : Only φ u (tallyHub a0 evt n tx s) := by
  unfold tallyHub
  exact only_tally (hm.of rfl) h _ _ _ _

theorem only_sumSignal (hm : Within (F.regs ||| F.telem ||| F.hostOut) φ) (h : Only φ u s) : Only φ u (sumSignal s) := by
  unfold sumSignal
  exact only_ite (only_sendMsix (hm.of rfl) (only_with (a := F.telem) (hm.of rfl) rfl h) _ _) (only_with (a := F.telem)
      (hm.of rfl) rfl h)

theorem only_telPut (hm : Within (F.regs ||| F.telem ||| F.hostOut) φ) (h : Only φ u s) (r) : Only φ u (telPut r s) := by
  unfold telPut
  exact only_ite (only_sumSignal (hm.of rfl) (only_fnSend (hm.of rfl) (only_with (a := F.telem) (hm.of rfl) rfl (only_fnSend
      (hm.of rfl) h _ _)) _ _))
    (only_sendMsix (hm.of rfl) (only_fnSend (hm.of rfl) (only_with (a := F.telem) (hm.of rfl) rfl (only_fnSend (hm.of rfl) h
        _ _)) _ _) _ _)

theorem only_telEmit (hm : Within (F.regs ||| F.telem ||| F.hostOut ||| F.fab) φ) (h : Only φ u s) (r) : Only φ u (telEmit r
    s) := by
  unfold telEmit
  exact only_ite (only_telPut (hm.of rfl) h _) (only_ite (only_ite (only_with (a := F.telem) (hm.of rfl) rfl h) h) (only_ite
      (only_with (a := F.telem) (hm.of rfl) rfl h) (only_with (a := F.telem) (hm.of rfl) rfl h)))

theorem only_evSignal (hm : Within (F.regs ||| F.telem ||| F.hostOut) φ) (h : Only φ u s) (p) : Only φ u (evSignal p s) := by
  unfold evSignal
  exact only_ite (only_sendMsix (hm.of rfl) (only_with (a := F.telem) (hm.of rfl) rfl h) _ _) (only_with (a := F.telem)
      (hm.of rfl) rfl h)

theorem only_partEvent (hm : Within (F.regs ||| F.telem ||| F.hostOut ||| F.fab) φ) (h : Only φ u s) (p cls code seq hub) :
    Only φ u (partEvent p cls code seq hub s) := by
  unfold partEvent
  exact only_ite (only_evSignal (hm.of rfl) (only_telEmit (hm.of rfl) h _) _) (only_telEmit (hm.of rfl) h _)

theorem only_errNotice (hm : Within (F.regs ||| F.hubs ||| F.ctrs ||| F.telem ||| F.hostOut ||| F.fab) φ) (h : Only φ u s)
    (e) : Only φ u (errNotice e s) := by
  unfold errNotice
  dsimp only
  split
  · exact only_partEvent (hm.of rfl) (only_tallyHub (hm.of rfl) (only_ite (only_hubSignal (hm.of rfl) h _) h) _ _ _ _) _ _ _ _ _
  · exact only_tallyHub (hm.of rfl) (only_ite (only_hubSignal (hm.of rfl) h _) h) _ _ _ _

theorem only_logErr (hm : Within F.logs φ) (h : Only φ u s) (e) : Only φ u (logErr e s) := by
  unfold logErr
  exact only_ite (only_enterFatal (hm.of rfl) (only_errNotice (hm.of rfl) (only_hset (hm.of rfl) h _ _) _)) (only_errNotice
      (hm.of rfl) (only_hset (hm.of rfl) h _ _) _)

theorem only_coreErr (hm : Within F.logs φ) (h : Only φ u s) (c code engine detail part) : Only φ u (coreErr c code engine
    detail part s) := by
  unfold coreErr
  exact only_logErr (hm.of rfl) h _

theorem only_spRead (hm : Within F.logs φ) (h : Only φ u s) (c b) : Only φ u (spRead c b s).2 := by
  unfold spRead
  split
  · exact h
  · exact only_ite_snd (only_spLast (hm.of rfl) (only_corUpd (hm.of rfl) h _ _ _) _ _ _) (by
        split
        · exact h
        · exact only_tallyCore (hm.of rfl) (only_coreErr (hm.of rfl) (only_corUpd (hm.of rfl) h _ _ _) _ _ _ _ _) _ _ _ _
        · exact only_spLast (hm.of rfl) h _ _ _
        · exact only_coreErr (hm.of rfl) (only_spLast (hm.of rfl) (only_corUpd (hm.of rfl) h _ _ _) _ _ _) _ _ _ _ _)

theorem only_seqFetch (hm : Within F.logs φ) (h : Only φ u s) (c pc) : Only φ u (seqFetch c pc s).2 := by
  unfold seqFetch
  exact only_ite h (only_squpd (hm.of rfl) (only_spRead (hm.of rfl) h _ _) _ _)

theorem only_pcTo (hm : Within F.cores φ) (h : Only φ u s) (c pc) : Only φ u (pcTo c pc s) := by
  unfold pcTo
  exact only_squpd (hm.of rfl) h _ _

theorem only_cluUpd (hm : Within F.regs φ) (h : Only φ u s) (c o f) : Only φ u (cluUpd c o f s) := by
  unfold cluUpd
  exact only_rupd (hm.of rfl) h _ _

theorem only_csErr (hm : Within F.logs φ) (h : Only φ u s) (c b code) : Only φ u (csErr c b code s) := by
  unfold csErr
  exact only_logErr (hm.of rfl) h _

theorem only_csRead (hm : Within F.logs φ) (h : Only φ u s) (c b) : Only φ u (csRead c b s).2 := by
  unfold csRead
  exact only_ite_snd (only_cluUpd (hm.of rfl) h _ _ _) (by
      split
      · exact h
      · exact only_csErr (hm.of rfl) (only_cluUpd (hm.of rfl) h _ _ _) _ _ _
      · exact h
      · exact only_csErr (hm.of rfl) (only_cluUpd (hm.of rfl) h _ _ _) _ _ _)

theorem only_tallyClu (hm : Within F.ctrs φ) (h : Only φ u s) (c evt n tx) : Only φ u (tallyClu c evt n tx s) := by
  unfold tallyClu
  exact only_tally (hm.of rfl) h _ _ _ _

theorem only_csCount (hm : Within F.ctrs φ) (h : Only φ u s) (c port tx) : Only φ u (csCount c port tx s) := by
  unfold csCount
  exact only_tallyClu (hm.of rfl) h _ _ _ _

theorem only_dRd {u : State} (hm : Within F.logs φ) (k off n) : OnlyEng φ u (dRd k off n) := by
  unfold dRd
  exact onlyEng_get fun _ h1 =>
    by
      dsimp only
      split
      · exact onlyEng_bind (onlyEng_set (only_csRead (hm.of rfl) (only_csCount (hm.of rfl) h1 _ _ _) _ _)) fun _ =>
          onlyEng_pure _
      · exact onlyEng_fail _

theorem only_slotPtr {u : State} (hm : Within F.logs φ) (d k i parity) : OnlyEng φ u (slotPtr d k i parity) := by
  unfold slotPtr
  exact only_dRd (hm.of rfl) _ _ _

theorem only_nextPtr {u : State} (hm : Within F.logs φ) (d k i) : OnlyEng φ u (nextPtr d k i) := by
  unfold nextPtr
  exact only_slotPtr (hm.of rfl) _ _ _ _

theorem only_bldPtr {u : State} (hm : Within F.logs φ) (d k i) : OnlyEng φ u (bldPtr d k i) := by
  unfold bldPtr
  exact onlyEng_ite (onlyEng_pure _) (only_nextPtr (hm.of rfl) _ _ _)

theorem only_publishPort (hm : Within F.regs φ) (h : Only φ u s) (p) : Only φ u (publishPort p s) := by
  unfold publishPort
  exact only_rupd (hm.of rfl) (only_rupd (hm.of rfl) h _ _) _ _

theorem only_setPortState (hm : Within F.regs φ) (h : Only φ u s) (p st) : Only φ u (setPortState p st s) := by
  unfold setPortState
  exact only_publishPort (hm.of rfl) (only_rupd (hm.of rfl) h _ _) _

theorem only_nbupd (hm : Within F.cols φ) (h : Only φ u s) (col f) : Only φ u (nbupd col f s) := by
  unfold nbupd
  exact only_colupd (hm.of rfl) h _ _

theorem only_theDir {u : State} (hm : Within 0 φ) (p) : OnlyEng φ u (theDir p) := by
  unfold theDir
  exact onlyEng_get fun _ h1 => by split; exact (onlyEng_pure _); exact (onlyEng_fail _)

theorem only_readHeads {u : State} (hm : Within F.logs φ) (d k) : OnlyEng φ u (readHeads d k) := by
  unfold readHeads
  exact only_engMap (fun _ => (onlyEng_bind (only_dRd (hm.of rfl) _ _ _) fun _ => (onlyEng_pure _))) _

theorem only_bldHeads {u : State} (hm : Within F.logs φ) (d k) : OnlyEng φ u (bldHeads d k) := by
  unfold bldHeads
  exact onlyEng_bind (only_readHeads (hm.of rfl) _ _) fun _ => (onlyEng_pure _)

theorem only_editCtx {u : State} (hm : Within F.logs φ) (p) : OnlyEng φ u (editCtx p) := by
  unfold editCtx
  exact onlyEng_bind (only_theDir (hm.of rfl) _) fun _ =>
    onlyEng_get fun _ h1 =>
      by dsimp only; split; exact (onlyEng_fail _); exact (onlyEng_bind (only_bldHeads (hm.of rfl) _ _) fun _ =>
          (onlyEng_pure _))

theorem only_dRdBlk {u : State} (hm : Within F.logs φ) (k b) : OnlyEng φ u (dRdBlk k b) := by
  unfold dRdBlk
  exact onlyEng_get fun _ h1 =>
    by
      dsimp only
      split
      · exact onlyEng_bind (onlyEng_set (only_csRead (hm.of rfl) (only_csCount (hm.of rfl) h1 _ _ _) _ _)) fun _ =>
          onlyEng_pure _
      · exact onlyEng_fail _

theorem only_csStore (hm : Within (F.csram ||| F.csChk ||| F.csWr) φ) (h : Only φ u s) (c b d chk) : Only φ u (csStore c b d
    chk s) := by
  unfold csStore
  exact only_with hm rfl h

theorem only_csWrite (hm : Within (F.csram ||| F.csChk ||| F.csWr) φ) (h : Only φ u s) (c b d) : Only φ u (csWrite c b d s)
    := by
  unfold csWrite
  exact only_csStore (hm.of rfl) h _ _ _ _

theorem only_csPoison (hm : Within (F.csram ||| F.csChk ||| F.csWr) φ) (h : Only φ u s) (c b) : Only φ u (csPoison c b s) := by
  unfold csPoison
  exact only_csStore (hm.of rfl) h _ _ _ _

theorem only_csWriteIn (hm : Within F.srams φ) (h : Only φ u s) (c b off v) : Only φ u (csWriteIn c b off v s) := by
  unfold csWriteIn
  exact only_ite (only_csWrite (hm.of rfl) h _ _ _)
    (only_ite (only_csWrite (hm.of rfl) h _ _ _)
       (by dsimp only; split; exact (only_csWrite (hm.of rfl) (only_csRead (hm.of rfl) h _ _) _ _ _); exact (only_csPoison
           (hm.of rfl) (only_csRead (hm.of rfl) h _ _) _ _)))

theorem only_dWrBlk {u : State} (hm : Within (F.csram ||| F.csChk ||| F.csWr ||| F.ctrs) φ) (k b d) : OnlyEng φ u (dWrBlk k b
    d) := by
  unfold dWrBlk
  exact onlyEng_modify (fun _ h1 => (only_csWrite (hm.of rfl) (only_csCount (hm.of rfl) h1 _ _ _) _ _ _))

theorem only_writeDesc {u : State} (hm : Within F.srams φ) (k b f) : OnlyEng φ u (writeDesc k b f) := by
  unfold writeDesc
  exact onlyEng_bind (only_dRdBlk (hm.of rfl) _ _) fun _ => (only_dWrBlk (hm.of rfl) _ _ _)

theorem only_portRestart (hm : Within F.fab φ) (h : Only φ u s) (p) : Only φ u (portRestart p s) := by
  unfold portRestart
  exact only_fportUpd (hm.of rfl) h _ _

theorem only_hubStatUpd (hm : Within F.net φ) (h : Only φ u s) (a0 f) : Only φ u (hubStatUpd a0 f s) := by
  unfold hubStatUpd
  exact only_with hm rfl h

theorem only_hubRefused (hm : Within F.net φ) (h : Only φ u s) (a0 reason w) : Only φ u (hubRefused a0 reason w s) := by
  unfold hubRefused
  exact only_with hm rfl (only_hubStatUpd (hm.of rfl) h _ _)

theorem only_rawRefused (hm : Within F.regs φ) (h : Only φ u s) (clu) : Only φ u (rawRefused clu s) := by
  unfold rawRefused
  exact only_cluUpd (hm.of rfl) h _ _ _

theorem only_countRaw (hm : Within F.regs φ) (h : Only φ u s) (t reason) : Only φ u (countRaw t reason s) := by
  unfold countRaw
  split
  · exact only_ite (only_rawRefused (hm.of rfl) h _) h
  · exact h

theorem only_agentRefuse (hm : Within (F.regs ||| F.net) φ) (h : Only φ u s) (k i r) : Only φ u (agentRefuse k i r s) := by
  unfold agentRefuse
  exact only_ite h (only_hubRefused (hm.of rfl) (only_countRaw (hm.of rfl) h _ _) _ _ _)

theorem only_csReadBlocks (hm : Within F.logs φ) : ∀ {s}, Only φ u s → ∀ c a, Only φ u (csReadBlocks c a s).2
  | _, h, _, [] => by
    rw [csReadBlocks]
    exact h
  | _, h, _, (b :: bs) => by
    rw [csReadBlocks]
    exact only_csReadBlocks (hm.of rfl) (only_csRead (hm.of rfl) h _ _) _ _

theorem only_csReadBytes (hm : Within F.logs φ) (h : Only φ u s) (c off n) : Only φ u (csReadBytes c off n s).2 := by
  unfold csReadBytes
  exact only_ite_snd h (only_ite_snd (only_csReadBlocks (hm.of rfl) h _ _) (only_csReadBlocks (hm.of rfl) h _ _))

theorem only_strmWord (hm : Within (F.logs ||| F.net) φ) (h : Only φ u s) (k i w) : Only φ u (strmWord k i w s).2 := by
  unfold strmWord
  exact only_ite_snd h (by split; exact (only_agentRefuse (hm.of rfl) h _ _ _); exact (only_csReadBytes (hm.of rfl) h _ _ _))

theorem only_post (hm : Within F.fab φ) (h : Only φ u s) (m) : Only φ u (post m s) := by
  unfold post
  exact only_with hm rfl h

theorem only_streamNote (hm : Within F.fab φ) (h : Only φ u s) (kind v dev dst sstr) : Only φ u (streamNote kind v dev dst
    sstr s) := by
  unfold streamNote
  exact only_post (hm.of rfl) h _

theorem only_wset (hm : Within F.wins φ) (h : Only φ u s) (w v) : Only φ u (wset w v s) := by
  unfold wset
  exact only_with hm rfl h

theorem only_wupd (hm : Within F.wins φ) (h : Only φ u s) (w f) : Only φ u (wupd w f s) := by
  unfold wupd
  exact only_wset (hm.of rfl) h _ _

theorem only_reply (hm : Within (F.regs ||| F.hostOut) φ) (h : Only φ u s) (w b kind status result detail bit record) :
    Only φ u (reply w b kind status result detail bit record s) := by
  unfold reply
  exact only_ite (only_sendMsix (hm.of rfl) (only_ite (only_fnSend (hm.of rfl) h _ _) h) _ _) (only_ite (only_fnSend (hm.of
      rfl) h _ _) h)

theorem only_complete (hm : Within (F.regs ||| F.wins ||| F.hostOut) φ) (h : Only φ u s) (id status result detail) : Only φ u
    (complete id status result detail s) := by
  unfold complete
  split
  · exact h
  · exact only_ite (only_wupd (hm.of rfl) h _ _) (only_reply (hm.of rfl) (only_wupd (hm.of rfl) h _ _) _ _ _ _ _ _ _ _)

theorem only_launchesEnd (hm : Within (F.regs ||| F.parts ||| F.wins ||| F.hostOut) φ) (h : Only φ u s) (p status) : Only φ u
    (launchesEnd p status s) := by
  unfold launchesEnd
  exact only_foldl (φ := φ) (fun _ _ h1 => (only_complete (hm.of rfl) h1 _ _ _ _)) (only_pset (hm.of rfl) h _ _)

theorem only_curCtx {u : State} (hm : Within F.logs φ) (p) : OnlyEng φ u (curCtx p) := by
  unfold curCtx
  exact onlyEng_bind (only_editCtx (hm.of rfl) _) fun _ => (onlyEng_bind (only_readHeads (hm.of rfl) _ _) fun _ =>
      (onlyEng_pure _))

theorem only_curPtr {u : State} (hm : Within F.logs φ) (d k i) : OnlyEng φ u (curPtr d k i) := by
  unfold curPtr
  exact only_slotPtr (hm.of rfl) _ _ _ _

theorem only_allDescs {u : State} (hm : Within F.logs φ) (p k i) : OnlyEng φ u (allDescs p k i) := by
  unfold allDescs
  exact onlyEng_bind (only_theDir (hm.of rfl) _) fun _ =>
    onlyEng_bind (only_curPtr (hm.of rfl) _ _ _) fun _ =>
      onlyEng_bind (only_nextPtr (hm.of rfl) _ _ _) fun _ => onlyEng_bind (only_bldPtr (hm.of rfl) _ _ _) fun _ =>
          onlyEng_pure _

theorem only_descAll {u : State} (hm : Within F.srams φ) (p i f) : OnlyEng φ u (descAll p i f) := by
  unfold descAll
  exact onlyEng_get fun _ h1 =>
    only_engEach
      (fun _ => (onlyEng_bind (only_allDescs (hm.of rfl) _ _ _) fun _ => (only_engEach (fun _ => (only_writeDesc (hm.of rfl)
          _ _ _)) _))) _

theorem only_restSeq {u : State} (hm : Within F.srams φ) (p x e f) : OnlyEng φ u (restSeq p x e f) := by
  unfold restSeq
  split
  · exact onlyEng_pure _
  · exact only_descAll (hm.of rfl) _ _ _

theorem only_stepDone (hm : Within (F.regs ||| F.parts ||| F.wins ||| F.hostOut) φ) (h : Only φ u s) (p st status result
    detail) : Only φ u (stepDone p st status result detail s) := by
  unfold stepDone
  exact only_complete (hm.of rfl) (only_pupd (hm.of rfl) h _ _) _ _ _ _

theorem only_fnReset (hm : Within (F.regs ||| F.d3 ||| F.cfg) φ) (h : Only φ u s) (fn) : Only φ u (fnReset fn s) := by
  unfold fnReset
  exact only_with hm rfl h

theorem only_kvAll (hm : Within F.regs φ) (h : Only φ u s) (p o f) : Only φ u (kvAll p o f s) := by
  unfold kvAll
  exact only_foldl (φ := φ) (fun _ _ h1 => (only_cluUpd (hm.of rfl) h1 _ _ _)) h

theorem only_dirDrop (hm : Within (F.regs ||| F.parts) φ) (h : Only φ u s) (p) : Only φ u (dirDrop p s) := by
  unfold dirDrop
  exact only_foldl (φ := φ) (fun _ _ h1 => (only_kvAll (hm.of rfl) h1 _ _ _)) (only_pupd (hm.of rfl) h _ _)

theorem only_queueZero (hm : Within F.zeroQ φ) (h : Only φ u s) (k col frame pair) : Only φ u (queueZero k col frame pair s)
    := by
  unfold queueZero
  exact only_with hm rfl h

theorem only_framesToZero (hm : Within F.zeroQ φ) (h : Only φ u s) (p d) : Only φ u (framesToZero p d s) := by
  unfold framesToZero
  refine only_foldl (φ := φ) (fun _ _ h1 => only_iter (φ := φ) (fun _ s h2 => ?_) h1) h
  dsimp only
  split
  · exact only_ite h2 (only_queueZero hm h2 _ _ _ _)
  · exact h2

theorem only_dropStreams (hm : Within (F.regs ||| F.fab) φ) (h : Only φ u s) (ks) : Only φ u (dropStreams ks s) := by
  unfold dropStreams
  exact onlyset_fab (hm.of rfl) (only_foldl (φ := φ) (fun _ _ h1 => (only_iter (φ := φ) (fun _ _ h2 => (only_cluUpd (hm.of
      rfl) h2 _ _ _)) h1)) h)

theorem only_poolSet (hm : Within F.pools φ) (h : Only φ u s) (p v) : Only φ u (poolSet p v s) := by
  unfold poolSet
  exact only_with hm rfl h

theorem only_dropAreas (hm : Within (F.regs ||| F.pools ||| F.parts ||| F.zeroQ ||| F.fab) φ) (h : Only φ u s) (p) : Only φ u
    (dropAreas p s) := by
  unfold dropAreas
  exact only_pupd (hm.of rfl)
    (only_rset (hm.of rfl)
       (only_rset (hm.of rfl)
          (only_rupd (hm.of rfl)
             (only_poolSet (hm.of rfl)
                (only_dropStreams (hm.of rfl)
                   (only_foldl (φ := φ) (fun _ _ h1 => (only_kvAll (hm.of rfl) h1 _ _ _))
                      (by split; exact (only_dirDrop (hm.of rfl) (only_framesToZero (hm.of rfl) h _ _) _); exact h)) _) _ _)
                          _ _) _ _) _ _) _ _

theorem only_startZeroing (hm : Within (F.parts ||| F.sec) φ) (h : Only φ u s) (p) : Only φ u (startZeroing p s) := by
  unfold startZeroing
  exact only_with (a := F.sec) (hm.of rfl) rfl (only_pupd (hm.of rfl) h _ _)

theorem only_spClearWritten (hm : Within F.spWr φ) (h : Only φ u s) (c) : Only φ u (spClearWritten c s) := by
  unfold spClearWritten
  exact only_with hm rfl h

theorem only_nbuClear (hm : Within (F.regs ||| F.cols) φ) (h : Only φ u s) (col) : Only φ u (nbuClear col s) := by
  unfold nbuClear
  exact only_rset (hm.of rfl) (only_rset (hm.of rfl) (only_nbupd (hm.of rfl) h _ _) _ _) _ _

theorem only_assignCore (hm : Within (F.regs ||| F.cores ||| F.cols ||| F.spWr ||| F.ctrs) φ) (h : Only φ u s) (c) : Only φ u
    (assignCore c s) := by
  unfold assignCore
  exact onlyset_ctrs (hm.of rfl)
    (only_nbuClear (hm.of rfl)
       (only_nbuClear (hm.of rfl)
          (only_cupd (hm.of rfl)
             (only_iter (φ := φ) (fun _ _ h1 => (only_corSet (hm.of rfl) h1 _ _ _))
                (only_iter (φ := φ) (fun _ _ h2 => (only_corSet (hm.of rfl) h2 _ _ _))
                   (only_foldl (φ := φ) (fun _ _ h3 => (only_corSet (hm.of rfl) h3 _ _ _)) (only_spClearWritten (hm.of rfl) h
                       _)))) _ _) _) _)

theorem only_csClearWritten (hm : Within F.csWr φ) (h : Only φ u s) (c) : Only φ u (csClearWritten c s) := by
  unfold csClearWritten
  exact only_with hm rfl h

theorem only_cluSet (hm : Within F.regs φ) (h : Only φ u s) (c o w) : Only φ u (cluSet c o w s) := by
  unfold cluSet
  exact only_rset (hm.of rfl) h _ _

theorem only_assignClu (hm : Within (F.regs ||| F.csWr ||| F.ctrs) φ) (h : Only φ u s) (k) : Only φ u (assignClu k s) := by
  unfold assignClu
  exact onlyset_ctrs (hm.of rfl) (only_foldl (φ := φ) (fun _ _ h1 => (only_cluSet (hm.of rfl) h1 _ _ _)) (only_csClearWritten
      (hm.of rfl) h _))

theorem only_assignAll (hm : Within (F.regs ||| F.cores ||| F.cols ||| F.spWr ||| F.csWr ||| F.ctrs) φ) (h : Only φ u s) (ks)
    : Only φ u (assignAll ks s) := by
  unfold assignAll
  exact only_foldl (φ := φ) (fun _ _ h1 => (only_foldl (φ := φ) (fun _ _ h2 => (only_assignCore (hm.of rfl) h2 _))
      (only_assignClu (hm.of rfl) h1 _))) h

theorem only_silence (hm : Within F.wins φ) (h : Only φ u s) (p) : Only φ u (silence p s) := by
  unfold silence
  exact only_with hm rfl h

theorem only_emptyWindow (hm : Within F.wins φ) (h : Only φ u s) (w) : Only φ u (emptyWindow w s) := by
  unfold emptyWindow
  exact only_wupd (hm.of rfl) (only_silence (hm.of rfl) h _) _ _

theorem only_pairSet (hm : Within F.t2q φ) (h : Only φ u s) (k v) : Only φ u (pairSet k v s) := by
  unfold pairSet
  exact only_with hm rfl h

theorem only_fenceRemote (hm : Within (F.remote ||| F.remoteRef) φ) (h : Only φ u s) (n) : Only φ u (fenceRemote n s) := by
  unfold fenceRemote
  exact only_with hm rfl h

theorem only_dropRows (hm : Within F.cols φ) (h : Only φ u s) (f) : Only φ u (dropRows f s) := by
  unfold dropRows
  exact only_with hm rfl h

theorem only_fenceTxs (hm : Within (F.cols ||| F.net ||| F.t2q) φ) (h : Only φ u s) (n) : Only φ u (fenceTxs n s) := by
  unfold fenceTxs
  exact only_with (a := F.net) (hm.of rfl) rfl
    (only_ite (only_ite h (only_dropRows (hm.of rfl) h _))
       (only_foldl (φ := φ) (fun _ _ h1 => (only_pairSet (hm.of rfl) h1 _ _)) (only_ite h (only_dropRows (hm.of rfl) h _))))

theorem only_holdTrap (hm : Within F.cores φ) (h : Only φ u s) (c t) : Only φ u (holdTrap c t s) := by
  unfold holdTrap
  exact only_ite h (only_squpd (hm.of rfl) h _ _)

theorem only_gbarFree (hm : Within (F.cores ||| F.gbarArr) φ) (h : Only φ u s) (p g) : Only φ u (gbarFree p g s) := by
  unfold gbarFree
  exact only_with (a := F.gbarArr) (hm.of rfl) rfl (only_foldl (φ := φ) (fun _ _ h1 => (only_ite (only_pcTo (hm.of rfl) h1 _
      _) h1)) h)

theorem only_breakBarriers (hm : Within (F.logs ||| F.gbarArr) φ) (h : Only φ u s) (c) : Only φ u (breakBarriers c s) := by
  unfold breakBarriers
  exact only_iter (φ := φ) (fun _ _ h1 => (only_ite h1 (only_foldl (φ := φ) (fun _ _ h2 => (only_holdTrap (hm.of rfl) h2 _
      _)) (only_gbarFree (hm.of rfl) h1 _ _))))
    h

theorem only_publishMap (hm : Within F.regs φ) (h : Only φ u s) : Only φ u (publishMap s) := by
  unfold publishMap
  exact only_rupd (hm.of rfl) (only_rupd (hm.of rfl) (only_iter (φ := φ) (fun _ _ h1 => (only_rupd (hm.of rfl) h1 _ _)) h) _
      _) _ _

theorem only_mapChange (hm : Within (F.regs ||| F.map ||| F.net) φ) (h : Only φ u s) (m) : Only φ u (mapChange m s) := by
  unfold mapChange
  exact only_rupd (hm.of rfl) (only_publishMap (hm.of rfl) (onlyset_mapNet (hm.of rfl) h)) _ _

theorem only_towerReset (hm : Within (F.regs ||| F.cores ||| F.cols ||| F.spWr ||| F.csWr ||| F.csQueue ||| F.portResp |||
    F.ftag ||| F.refRate ||| F.remote ||| F.remoteRef ||| F.ctrs ||| F.frozen ||| F.zeroQ ||| F.reload ||| F.pwr ||| F.boot)
    φ) (h : Only φ u s) (n) : Only φ u (towerReset n s) := by
  unfold towerReset
  exact only_with hm rfl h

theorem only_towerHold (hm : Within (F.regs ||| F.cores ||| F.cols ||| F.spWr ||| F.csWr ||| F.csQueue ||| F.portResp |||
    F.ftag ||| F.refRate ||| F.remote ||| F.remoteRef ||| F.ctrs ||| F.frozen ||| F.zeroQ ||| F.reload ||| F.pwr ||| F.boot)
    φ) (h : Only φ u s) (n) : Only φ u (towerHold n s) := by
  unfold towerHold
  exact only_rset (hm.of rfl) (only_rset (hm.of rfl) (only_towerReset (hm.of rfl) h _) _ _) _ _

theorem only_lossRecords (hm : Within F.logs φ) (h : Only φ u s) (n ps) : Only φ u (lossRecords n ps s) := by
  unfold lossRecords
  exact only_ite (only_logErr (hm.of rfl) h _) (only_foldl (φ := φ) (fun _ _ h1 => (only_logErr (hm.of rfl) h1 _)) h)

theorem only_hold (hm : Within F.fab φ) (h : Only φ u s) (src m) : Only φ u (hold src m s) := by
  unfold hold
  exact only_with hm rfl h

theorem only_publishHubs (hm : Within F.regs φ) (h : Only φ u s) : Only φ u (publishHubs s) := by
  unfold publishHubs
  exact only_rupd (hm.of rfl) h _ _

theorem only_loseH0 (hm : Within (F.regs ||| F.hubs ||| F.fatal ||| F.faultN ||| F.pwr) φ) (h : Only φ u s) : Only φ u
    (loseH0 s) := by
  unfold loseH0
  exact only_rupd (hm.of rfl) (only_hset (hm.of rfl) (only_with (a := (F.fatal ||| F.faultN ||| F.pwr)) (hm.of rfl) rfl h) _
      _) _ _

theorem only_csWriteFrom (hm : Within F.srams φ) : ∀ {s}, Only φ u s → ∀ c a a2 a3, Only φ u (csWriteFrom c a a2 a3 s)
  | _, h, _, 0, _, _ => by
    rw [csWriteFrom]
    exact h
  | _, h, _, (_ + 1), _, [] => by
    rw [csWriteFrom]
    exact h
    exact nofun
  | _, h, _, (n + 1), _, (_ :: _) => by
    rw [csWriteFrom]
    exact only_csWriteFrom (hm.of rfl) (only_csWriteIn (hm.of rfl) h _ _ _ _) _ _ _ _
    exact nofun

theorem only_csWriteBytes (hm : Within F.srams φ) (h : Only φ u s) (c off v) : Only φ u (csWriteBytes c off v s) := by
  unfold csWriteBytes
  exact only_csWriteFrom (hm.of rfl) h _ _ _ _

theorem only_strmPut (hm : Within (F.srams ||| F.net) φ) (h : Only φ u s) (k i w v) : Only φ u (strmPut k i w v s) := by
  unfold strmPut
  exact only_ite h (by split; exact (only_agentRefuse (hm.of rfl) h _ _ _); exact (only_csWriteBytes (hm.of rfl) h _ _ _))

theorem only_strmFail (hm : Within (F.srams ||| F.net) φ) (h : Only φ u s) (k i status) : Only φ u (strmFail k i status s) := by
  unfold strmFail
  dsimp only
  exact only_ite h (only_strmPut (hm.of rfl) (only_strmWord (hm.of rfl) h _ _ _) _ _ _ _)

theorem only_refusePut (hm : Within (F.srams ||| F.net) φ) (h : Only φ u s) (head cls src status) : Only φ u (refusePut head
    cls src status s) := by
  unfold refusePut
  exact only_ite h (only_ite (by split; exact (only_strmFail (hm.of rfl) h _ _ _); exact h) (only_streamNote (hm.of rfl) h _
      _ _ _ _))

theorem only_dropMsg (hm : Within (F.srams ||| F.net) φ) (h : Only φ u s) (p head cls src) : Only φ u (dropMsg p head cls src
    s) := by
  unfold dropMsg
  exact only_refusePut (hm.of rfl) (only_rupd (hm.of rfl) h _ _) _ _ _ _

theorem only_portDown (hm : Within (F.srams ||| F.net) φ) (h : Only φ u s) (p st) : Only φ u (portDown p st s) := by
  unfold portDown
  exact only_portRestart (hm.of rfl) (only_foldl (φ := φ) (fun _ _ h1 => (only_dropMsg (hm.of rfl) h1 _ _ _ _))
      (only_setPortState (hm.of rfl) h _ _)) _

theorem only_hostWrite (hm : Within F.hostOut φ) : ∀ {s}, Only φ u s → ∀ fn addr a a3, Only φ u (hostWrite fn addr a a3 s)
  | _, h, _, _, 0, _ => by
    rw [hostWrite]
    exact h
  | _, h, _, _, (_ + 1), [] => by
    rw [hostWrite]
    exact h
    exact nofun
  | _, h, _, _, (n + 1), (_ :: _) => by
    rw [hostWrite]
    exact only_hostWrite (hm.of rfl) (only_fnSend (hm.of rfl) h _ _) _ _ _ _
    exact nofun

theorem only_hostPut (hm : Within F.hostOut φ) (h : Only φ u s) (fn addr d) : Only φ u (hostPut fn addr d s) := by
  unfold hostPut
  exact only_hostWrite (hm.of rfl) h _ _ _ _

theorem only_tokenTable (hm : Within F.hostOut φ) (h : Only φ u s) (st recs) : Only φ u (tokenTable s st recs) := by
  unfold tokenTable
  split
  · exact only_hostPut (hm.of rfl) h _ _ _
  · exact h

theorem only_earlyTable (hm : Within F.hostOut φ) (h : Only φ u s) (st) : Only φ u (earlyTable st s) := by
  unfold earlyTable
  exact only_tokenTable (hm.of rfl) h _ _

theorem only_stepClose (hm : Within (F.srams ||| F.parts ||| F.wins) φ) (h : Only φ u s) (p st) : Only φ u (stepClose p st s)
    := by
  unfold stepClose
  exact only_stepDone (hm.of rfl)
    (only_earlyTable (hm.of rfl)
       (only_engRun h (onlyEng_bind (only_curCtx (hm.of rfl) _) fun _ => (only_engEach (fun _ => (only_restSeq (hm.of rfl) _
           _ _ _)) _))) _) _ _ _
    _ _

theorem only_stepStop (hm : Within (F.srams ||| F.parts ||| F.wins) φ) (h : Only φ u s) (p status detail) : Only φ u
    (stepStop p status detail s) := by
  unfold stepStop
  split
  · exact h
  · exact only_ite h
      (only_ite (only_stepClose (hm.of rfl) (only_foldl (φ := φ) (fun _ _ h1 => (only_haltReqCore (hm.of rfl) h1 _))
          (only_pupd (hm.of rfl) h _ _)) _ _)
         (only_foldl (φ := φ) (fun _ _ h2 => (only_haltReqCore (hm.of rfl) h2 _)) (only_pupd (hm.of rfl) h _ _)))

theorem only_cancelSteps (hm : Within (F.srams ||| F.parts ||| F.wins) φ) (h : Only φ u s) (p) : Only φ u (cancelSteps p s).2
    := by
  unfold cancelSteps
  exact only_launchesEnd (hm.of rfl) (only_stepStop (hm.of rfl) h _ _ _) _ _

theorem only_stepEndNow (hm : Within (F.regs ||| F.cores ||| F.cols ||| F.parts ||| F.wins ||| F.hostOut) φ) (h : Only φ u s)
    (p status) : Only φ u (stepEndNow p status s) := by
  unfold stepEndNow
  split
  · exact h
  · exact only_stepDone (hm.of rfl) (only_earlyTable (hm.of rfl) (only_foldl (φ := φ) (fun _ _ h1 => (only_haltReqCore (hm.of
      rfl) h1 _)) h) _) _ _ _ _ _

theorem only_faultPart (hm : Within (F.regs ||| F.cores ||| F.cols ||| F.pools ||| F.parts ||| F.wins ||| F.zeroQ |||
    F.hostOut ||| F.fab) φ) (h : Only φ u s) (p) : Only φ u (faultPart p s) := by
  unfold faultPart
  exact only_ite h
    (only_pupd (hm.of rfl)
       (only_dropAreas (hm.of rfl)
          (only_foldl (φ := φ) (fun _ _ h1 => (only_complete (hm.of rfl) h1 _ _ _ _)) (only_launchesEnd (hm.of rfl)
              (only_stepEndNow (hm.of rfl) h _ _) _ _)) _) _ _)

theorem only_tdiError (hm : Within (F.regs ||| F.cores ||| F.cols ||| F.spWr ||| F.csWr ||| F.pools ||| F.ctrs ||| F.parts
    ||| F.wins ||| F.zeroQ ||| F.hostOut ||| F.sec ||| F.fab) φ) (h : Only φ u s) (p) : Only φ u (tdiError p s) := by
  unfold tdiError
  exact only_ite h
    (only_assignAll (hm.of rfl)
       (only_foldl (φ := φ) (fun _ _ h1 => (only_cupd (hm.of rfl) h1 _ _))
          (only_startZeroing (hm.of rfl) (only_pupd (hm.of rfl) (only_faultPart (hm.of rfl) (only_stepEndNow (hm.of rfl) h _
              _) _) _ _) _)) _)

theorem only_cancelSilent (hm : Within (F.srams ||| F.parts ||| F.wins) φ) (h : Only φ u s) (p) : Only φ u (cancelSilent p s)
    := by
  unfold cancelSilent
  exact only_cancelSteps (hm.of rfl) (only_silence (hm.of rfl) h _) _

theorem only_partReset (hm : Within (F.srams ||| F.spWr ||| F.pools ||| F.parts ||| F.wins ||| F.zeroQ ||| F.sec) φ) (h :
    Only φ u s) (p) : Only φ u (partReset p s) := by
  unfold partReset
  exact only_tdiError (hm.of rfl) (only_cancelSilent (hm.of rfl) h _) _

theorem only_vfReset (hm : Within (F.srams ||| F.spWr ||| F.pools ||| F.parts ||| F.wins ||| F.d3 ||| F.cfg ||| F.zeroQ |||
    F.sec) φ) (h : Only φ u s) (p) : Only φ u (vfReset p s) := by
  unfold vfReset
  exact only_fnReset (hm.of rfl) (only_partReset (hm.of rfl) (only_emptyWindow (hm.of rfl) h _) _) _

theorem only_allReset (hm : Within (F.srams ||| F.spWr ||| F.pools ||| F.parts ||| F.wins ||| F.d3 ||| F.cfg ||| F.zeroQ |||
    F.sec) φ) (h : Only φ u s) : Only φ u (allReset s) := by
  unfold allReset
  exact only_fnReset (hm.of rfl) (only_iter (φ := φ) (fun _ _ h1 => (only_vfReset (hm.of rfl) h1 _)) (only_iter (φ := φ) (fun
      _ _ h2 => (only_emptyWindow (hm.of rfl) h2 _)) h))
    _

theorem only_loseTower (hm : Within (F.logs ||| F.spWr ||| F.csWr ||| F.csQueue ||| F.portResp ||| F.ftag ||| F.refRate |||
    F.pools ||| F.gbarArr ||| F.lostTw ||| F.remote ||| F.remoteRef ||| F.frozen ||| F.map ||| F.parts ||| F.wins ||| F.zeroQ
    ||| F.reload ||| F.pwr ||| F.boot ||| F.sec ||| F.net ||| F.t2q) φ) (h : Only φ u s) (n) : Only φ u (loseTower n s) := by
  unfold loseTower
  exact only_ite h
    (only_lossRecords (hm.of rfl)
       (only_mapChange (hm.of rfl)
          (only_towerHold (hm.of rfl)
             (only_foldl (φ := φ) (fun _ _ h1 => (only_faultPart (hm.of rfl) h1 _))
                (only_foldl (φ := φ) (fun _ _ h2 => (only_tdiError (hm.of rfl) h2 _))
                   (only_iter (φ := φ) (fun _ _ h3 => (only_breakBarriers (hm.of rfl) h3 _))
                      (only_fenceRemote (hm.of rfl) (only_fenceTxs (hm.of rfl) (onlyset_lostTw (hm.of rfl) (only_rupd (hm.of
                          rfl) h _ _)) _) _)))) _) _) _ _)

theorem only_portsGone (hm : Within (F.srams ||| F.net) φ) (h : Only φ u s) (a0) : Only φ u (portsGone a0 s) := by
  unfold portsGone
  exact only_iter (φ := φ) (fun _ _ h1 => (onlyset_fab (hm.of rfl) (only_rset (hm.of rfl) (only_portDown (hm.of rfl) h1 _ _)
      _ _))) h

theorem only_loseHub (hm : Within (F.srams ||| F.mnt ||| F.net ||| F.t2q) φ) (h : Only φ u s) (a0 kept) : Only φ u (loseHub
    a0 kept s) := by
  unfold loseHub
  exact only_ite h
    (only_logErr (hm.of rfl)
       (only_publishHubs (hm.of rfl)
          (only_rupd (hm.of rfl)
             (onlyset_net (hm.of rfl)
                (onlyset_fabric (hm.of rfl)
                   (only_rupd (hm.of rfl)
                      (only_portsGone (hm.of rfl) (only_ite (only_hset (hm.of rfl) (only_rupd (hm.of rfl) h _ _) _ _)
                          (only_hset (hm.of rfl) (only_rupd (hm.of rfl) h _ _) _ _)) _) _
                      _))) _ _)) _)

theorem only_loseDie (hm : Within (F.srams ||| F.spWr ||| F.csQueue ||| F.portResp ||| F.ftag ||| F.refRate ||| F.pools |||
    F.gbarArr ||| F.lostTw ||| F.remote ||| F.remoteRef ||| F.frozen ||| F.map ||| F.parts ||| F.wins ||| F.zeroQ |||
    F.reload ||| F.pwr ||| F.boot ||| F.mnt ||| F.sec ||| F.net ||| F.t2q) φ) (h : Only φ u s) (d) : Only φ u (loseDie d s)
    := by
  unfold loseDie
  exact only_ite (only_loseTower (hm.of rfl) h _) (only_ite (only_loseH0 (hm.of rfl) h) (only_loseHub (hm.of rfl) h _ _))

theorem only_loseRoot (hm : Within (F.srams ||| F.spWr ||| F.csQueue ||| F.portResp ||| F.ftag ||| F.refRate ||| F.pools |||
    F.gbarArr ||| F.lostTw ||| F.remote ||| F.remoteRef ||| F.frozen ||| F.map ||| F.parts ||| F.wins ||| F.zeroQ |||
    F.reload ||| F.pwr ||| F.boot ||| F.mnt ||| F.sec ||| F.net ||| F.t2q) φ) (h : Only φ u s) (d) : Only φ u (loseRoot d s)
    := by
  unfold loseRoot
  exact only_foldl (φ := φ) (fun _ _ h1 => (only_loseDie (hm.of rfl) (only_rupd (hm.of rfl) h1 _ _) _)) (only_with (a :=
      F.pwr) (hm.of rfl) rfl h)

end

end Sys2Proof.Machine
end

section
/-! The governors, the power loop and the comparator (O21). -/

namespace Sys2Proof.Machine

theorem iter_succ {σ : Type} (n : Nat) (f : Nat → σ → σ) (s : σ) : iter (n + 1) f s = f n (iter n f s) := by
  rw [iter, iter, List.range_succ, List.foldl_append]
  rfl

/-- Registers at different places, each rewritten in its turn. -/
theorem rget_iter_rupd {k : Nat → Nat} (hk : ∀ i j, k i = k j → i = j) (g : Nat → Word → Word) (n : Nat) (s : State) (o : Nat) :
    (∀ i < n, rget (iter n (fun i s => rupd (k i) (g i) s) s) (k i) = g i (rget s (k i))) ∧
      ((∀ i < n, o ≠ k i) → rget (iter n (fun i s => rupd (k i) (g i) s) s) o = rget s o) := by
  induction n generalizing o with
  | zero => exact ⟨nofun, fun _ => rfl⟩
  | succ n ih =>
    rw [iter_succ]
    refine ⟨fun i hi => ?_, fun h => ?_⟩
    · by_cases he : i = n
      · subst he
        rw [rget_rupd_same, (ih (k i)).2 fun j hj e => by have := hk _ _ e; omega]
      · rw [rupd, rget_rset_other _ _ fun e => he (hk _ _ e), (ih o).1 i (by omega)]
    · rw [rupd, rget_rset_other _ _ (h n (by omega)), (ih o).2 fun i hi => h i (by omega)]

/-! ## Levels -/

theorem levelOf_setLevel (k j v : Nat) (s : State) : levelOf (setLevel k v s) j = if j = k then v else levelOf s j :=
  stGet_stSet _ _ _ _ _

/-- A governor's move: its level alone. -/
theorem level_moves {c : Prop} [Decidable c] {k v : Nat} {s : State} :
    levelOf (if c then setLevel k v s else s) k = (if c then v else levelOf s k) ∧
      (∀ j, j ≠ k → levelOf (if c then setLevel k v s else s) j = levelOf s j) ∧
      { (if c then setLevel k v s else s) with pwr := s.pwr } = s := by
  split
  · exact ⟨by rw [levelOf_setLevel, if_pos rfl], fun j hj => by rw [levelOf_setLevel, if_neg hj], rfl⟩
  · exact ⟨rfl, fun _ _ => rfl, rfl⟩

/-! ## What the 10 µs loop reads stays as it is -/

/-- The cores, the recorded powers and the package limit are as before. -/
def measKept (s t : State) : Prop :=
  t.cores = s.cores ∧ rget t (thmBase + 4) = rget s (thmBase + 4) ∧ rget t (thmBase + 8) = rget s (thmBase + 8) ∧
    ∀ n < 16, wFld (rget t (thmBase + 0x80 + 4 * n)) 31 19 = wFld (rget s (thmBase + 0x80 + 4 * n)) 31 19

theorem measKept_refl (s : State) : measKept s s := ⟨rfl, rfl, rfl, fun _ _ => rfl⟩

theorem measKept_trans {s t u : State} (h : measKept s t) (k : measKept t u) : measKept s u := by
  obtain ⟨hc, h4, h8, hn⟩ := h
  obtain ⟨kc, k4, k8, kn⟩ := k
  exact ⟨kc.trans hc, k4.trans h4, k8.trans h8, fun n hlt => (kn n hlt).trans (hn n hlt)⟩

theorem measKept_pwr (s : State) (p : PwrSt) : measKept s { s with pwr := p } := measKept_refl s

theorem measKept_therm (s : State) (x : ThermSt) : measKept s { s with therm := x } := measKept_refl s

theorem measKept_iter {f : Nat → State → State} {n : Nat} (hf : ∀ i s, i < n → measKept s (f i s)) (s : State) :
    measKept s (iter n f s) := by
  refine List.foldlRecOn (motive := measKept s) _ _ (measKept_refl s) fun t ht i hi => ?_
  exact measKept_trans ht (hf i t (List.mem_range.mp hi))

/-- A write of another register, or of the other fields of a tower's power register. -/
theorem measKept_rupd {o : Nat} {f : Word → Word} (s : State) (h4 : o ≠ thmBase + 4) (h8 : o ≠ thmBase + 8)
    (hn : ∀ n < 16, o = thmBase + 0x80 + 4 * n → ∀ w, wFld (f w) 31 19 = wFld w 31 19) : measKept s (rupd o f s) := by
  refine ⟨rupd_cores _ _ _, rget_rset_other _ _ h4.symm, rget_rset_other _ _ h8.symm, fun n hlt => ?_⟩
  by_cases ho : o = thmBase + 0x80 + 4 * n
  · subst ho
    rw [rget_rupd_same, hn n hlt rfl]
  · rw [rupd, rget_rset_other _ _ (Ne.symm ho)]

theorem measKept_twrPublish {n : Nat} (cause : Nat) (s : State) (hn : n < 16) : measKept s (twrPublish n cause s) := by
  refine measKept_rupd s (by omega) (by omega) fun k _ _ w => ?_
  rw [wFld_wPut_disjoint _ _ (by decide) (by decide) (by decide), wFld_wPut_disjoint _ _ (by decide) (by decide) (by decide),
    wFld_wPut_disjoint _ _ (by decide) (by decide) (by decide)]

theorem measKept_publishAll (s : State) : measKept s (publishAll s) :=
  measKept_iter (fun _ t hn => measKept_twrPublish 0 t hn) s

theorem measKept_brakeSource (i : Nat) (v : Bool) (s : State) : measKept s (brakeSource i v s) := by
  have hset (f : Word → Word) (u : State) : measKept u (rupd (thmBase + 0xC) f u) :=
    measKept_rupd u (by decide) (by decide) fun n _ e => by omega
  rw [brakeSource]
  split
  · exact measKept_trans (hset _ s) (measKept_trans (hset _ _) (measKept_publishAll _))
  · exact hset _ s

theorem measKept_ite {c : Prop} [Decidable c] {u s t : State} (hs : measKept u s) (ht : measKept u t) :
    measKept u (if c then s else t) := by
  split
  · exact hs
  · exact ht

theorem measKept_thermBrake (s : State) : measKept s (thermBrake s) := by
  rw [thermBrake]
  exact measKept_ite (measKept_refl s) (measKept_ite (measKept_trans (measKept_therm s _) (measKept_brakeSource 2 true _))
    (measKept_ite (measKept_trans (measKept_therm s _) (measKept_brakeSource 2 false _)) (measKept_therm s _)))

theorem measKept_rset {o : Nat} (w : Word) (s : State) (h4 : o ≠ thmBase + 4) (h8 : o ≠ thmBase + 8)
    (hn : ∀ n < 16, o ≠ thmBase + 0x80 + 4 * n) : measKept s (rset o w s) :=
  measKept_rupd (f := fun _ => w) s h4 h8 fun n hlt e => absurd e (hn n hlt)

theorem measKept_publishTemp (n : Nat) (s : State) : measKept s (publishTemp n s) := by
  rw [publishTemp]
  exact measKept_rset _ s (by omega) (by omega) fun k hk => by omega

theorem measKept_predictTower (n : Nat) (s : State) : measKept s (predictTower n s) := by
  rw [predictTower]
  refine measKept_ite (measKept_refl s) (measKept_ite (measKept_pwr s _) ?_)
  refine measKept_trans ?_ (measKept_publishTemp n _)
  exact measKept_trans (measKept_therm s _) (measKept_trans (measKept_iter (fun _ t _ => measKept_therm t _) _) (measKept_pwr _ _))

/-! ## Ceilings of the loop -/

theorem loopCOf_setLoopC (n k v : Nat) (s : State) : loopCOf (setLoopC n v s) k = if k = n then v else loopCOf s k :=
  stGet_stSet _ _ _ _ _

theorem loopCOf_of_pwr {s t : State} (h : t.pwr = s.pwr) (k : Nat) : loopCOf t k = loopCOf s k := by
  rw [loopCOf, loopCOf, h]

theorem twrPublish_pwr (n cause : Nat) (s : State) : (twrPublish n cause s).pwr = s.pwr := rupd_pwr _ _ _

theorem loopCOf_twrPublish (n cause : Nat) (s : State) (k : Nat) : loopCOf (twrPublish n cause s) k = loopCOf s k :=
  loopCOf_of_pwr (twrPublish_pwr n cause s) k

theorem loopCOf_setLoopW (n v : Nat) (s : State) (k : Nat) : loopCOf (setLoopW n v s) k = loopCOf s k := rfl

/-- A lowered tower: its own ceiling by at most one, no other. -/
theorem loopCOf_loopLower (n p dram cause : Nat) (s : State) (k : Nat) :
    loopCOf (loopLower n p dram cause s) k ≤ loopCOf s k ∧ loopCOf s k ≤ loopCOf (loopLower n p dram cause s) k + 1 ∧
      (k ≠ n → loopCOf (loopLower n p dram cause s) k = loopCOf s k) := by
  rw [loopLower]
  split_ifs
  · rw [loopCOf_twrPublish, loopCOf_setLoopW]
    exact ⟨Nat.le_refl _, Nat.le_succ _, fun _ => rfl⟩
  · rw [loopCOf_twrPublish, loopCOf_setLoopC]
    split
    · next h =>
      subst h
      exact ⟨Nat.sub_le _ _, by omega, fun h => absurd rfl h⟩
    · exact ⟨Nat.le_refl _, Nat.le_succ _, fun _ => rfl⟩
  · rw [loopCOf_twrPublish]
    exact ⟨Nat.le_refl _, Nat.le_succ _, fun _ => rfl⟩

theorem loopCOf_loopRaise (n : Nat) (s : State) (k : Nat) :
    loopCOf s k ≤ loopCOf (loopRaise n s) k ∧ loopCOf (loopRaise n s) k ≤ loopCOf s k + 1 ∧
      (k ≠ n → loopCOf (loopRaise n s) k = loopCOf s k) := by
  rw [loopRaise]
  split_ifs
  · rw [loopCOf_twrPublish, loopCOf_setLoopW]
    exact ⟨Nat.le_refl _, Nat.le_succ _, fun _ => rfl⟩
  · rw [loopCOf_twrPublish, loopCOf_setLoopC]
    split
    · next h =>
      subst h
      exact ⟨Nat.le_succ _, Nat.le_refl _, fun h => absurd rfl h⟩
    · exact ⟨Nat.le_refl _, Nat.le_succ _, fun _ => rfl⟩
  · rw [loopCOf_twrPublish]
    exact ⟨Nat.le_refl _, Nat.le_succ _, fun _ => rfl⟩

theorem pkgHold_le (s : State) : pkgHold s ≤ 10 * wFld (rget s (thmBase + 4)) 12 0 := by
  unfold pkgHold
  omega

/-- One tower's turn: its ceiling moves by at most one, and never up while the package exceeds its limit. -/
theorem loopCOf_loopTower (n p dram pk : Nat) (s : State) (k : Nat) :
    loopCOf (loopTower n p dram pk s) k ≤ loopCOf s k + 1 ∧ loopCOf s k ≤ loopCOf (loopTower n p dram pk s) k + 1 ∧
      (10 * wFld (rget s (thmBase + 4)) 12 0 < pk → loopCOf (loopTower n p dram pk s) k ≤ loopCOf s k) ∧
      (k ≠ n → loopCOf (loopTower n p dram pk s) k = loopCOf s k) := by
  have hlower (cause : Nat) := loopCOf_loopLower n p dram cause s k
  have hraise := loopCOf_loopRaise n s k
  have hhold := pkgHold_le s
  rw [loopTower]
  split_ifs with h1 h2 h3
  · obtain ⟨h, g, e⟩ := hlower 2
    exact ⟨by omega, g, fun _ => h, e⟩
  · obtain ⟨h, g, e⟩ := hlower 1
    exact ⟨by omega, g, fun _ => h, e⟩
  · obtain ⟨h, g, e⟩ := hraise
    have hle : pk + 900 ≤ pkgHold s := (by simpa using h3 : _ ∧ _).2
    exact ⟨g, by omega, fun _ => by omega, e⟩
  · rw [loopCOf_twrPublish]
    exact ⟨Nat.le_succ _, Nat.le_succ _, fun _ => Nat.le_refl _, fun _ => rfl⟩

theorem measKept_loopLower {n : Nat} (p dram cause : Nat) (s : State) (hn : n < 16) : measKept s (loopLower n p dram cause s) := by
  rw [loopLower]
  exact measKept_ite (measKept_trans (measKept_pwr s _) (measKept_twrPublish cause _ hn))
    (measKept_ite (measKept_trans (measKept_pwr s _) (measKept_twrPublish cause _ hn)) (measKept_twrPublish cause s hn))

theorem measKept_loopRaise {n : Nat} (s : State) (hn : n < 16) : measKept s (loopRaise n s) := by
  rw [loopRaise]
  exact measKept_ite (measKept_trans (measKept_pwr s _) (measKept_twrPublish 0 _ hn))
    (measKept_ite (measKept_trans (measKept_pwr s _) (measKept_twrPublish 0 _ hn)) (measKept_twrPublish 0 s hn))

theorem measKept_loopTower {n : Nat} (p dram pk : Nat) (s : State) (hn : n < 16) : measKept s (loopTower n p dram pk s) := by
  rw [loopTower]
  exact measKept_ite (measKept_loopLower p dram 2 s hn) (measKept_ite (measKept_loopLower p dram 1 s hn)
    (measKept_ite (measKept_loopRaise s hn) (measKept_twrPublish 0 s hn)))

theorem loopTowers_move (p : Nat → Nat × Nat) (pk : Nat) (s : State) (n : Nat) (hn : n ≤ 16) :
    measKept s (iter n (fun n s => loopTower n (p n).1 (p n).2 pk s) s) ∧ ∀ k,
      let t := iter n (fun n s => loopTower n (p n).1 (p n).2 pk s) s
      loopCOf t k ≤ loopCOf s k + 1 ∧ loopCOf s k ≤ loopCOf t k + 1 ∧
        (10 * wFld (rget s (thmBase + 4)) 12 0 < pk → loopCOf t k ≤ loopCOf s k) ∧ (n ≤ k → loopCOf t k = loopCOf s k) := by
  induction n with
  | zero => exact ⟨measKept_refl s, fun k => ⟨Nat.le_succ _, Nat.le_succ _, fun _ => Nat.le_refl _, fun _ => rfl⟩⟩
  | succ n ih =>
    rw [iter_succ]
    obtain ⟨hkept, hmove⟩ := ih (by omega)
    generalize iter n (fun n s => loopTower n (p n).1 (p n).2 pk s) s = u at hkept hmove
    refine ⟨measKept_trans hkept (measKept_loopTower _ _ _ _ (by omega)), fun k => ?_⟩
    obtain ⟨hup, hdown, hlim, hlater⟩ := hmove k
    obtain ⟨gup, gdown, glim, gother⟩ := loopCOf_loopTower n (p n).1 (p n).2 pk u k
    rw [hkept.2.1] at glim
    dsimp only
    by_cases hk : k = n
    · have he := hlater (by omega)
      rw [he] at gup gdown glim
      exact ⟨gup, gdown, glim, fun h => by omega⟩
    · rw [gother hk]
      exact ⟨hup, hdown, hlim, fun h => hlater (by omega)⟩

theorem loopAdjust_moves (pk : Nat) (p : Nat → Nat × Nat) (s : State) : measKept s (loopAdjust pk p s) ∧ ∀ k,
      loopCOf (loopAdjust pk p s) k ≤ loopCOf s k + 1 ∧ loopCOf s k ≤ loopCOf (loopAdjust pk p s) k + 1 ∧
        (10 * wFld (rget s (thmBase + 4)) 12 0 < pk → loopCOf (loopAdjust pk p s) k ≤ loopCOf s k) := by
  obtain ⟨hkept, hmove⟩ := loopTowers_move p pk s 16 (Nat.le_refl _)
  rw [loopAdjust]
  generalize iter 16 (fun n s => loopTower n (p n).1 (p n).2 pk s) s = u at hkept hmove
  have hbind (c : Bool) : measKept u (if c then rupd (thmBase + 0x1C0) (fun w => wPut w 1 1 1) u else u) ∧
      (if c then rupd (thmBase + 0x1C0) (fun w => wPut w 1 1 1) u else u).pwr = u.pwr := by
    split
    · exact ⟨measKept_rupd u (by decide) (by decide) fun n _ e => by omega, rupd_pwr _ _ _⟩
    · exact ⟨measKept_refl u, rfl⟩
  obtain ⟨hb, hbp⟩ := hbind ((List.range 16).any (slowBinds u))
  generalize (if ((List.range 16).any (slowBinds u)) = true then rupd (thmBase + 0x1C0) (fun w => wPut w 1 1 1) u else u) = v at hb hbp
  have hslow : measKept v (iter 16 (fun n s => rupd (thmBase + 0x180 + 4 * n) (fun w => wPut w 8 0 (min 320 (slowAllow s n))) s) v) :=
    measKept_iter (fun n t hn => measKept_rupd t (by omega) (by omega) fun k _ e => by omega) v
  have hpwr : (iter 16 (fun n s => rupd (thmBase + 0x180 + 4 * n) (fun w => wPut w 8 0 (min 320 (slowAllow s n))) s) v).pwr = v.pwr :=
    List.foldlRecOn (motive := fun t : State => t.pwr = v.pwr) _ _ rfl fun t ht _ _ => (rupd_pwr _ _ _).trans ht
  refine ⟨measKept_trans hkept (measKept_trans hb hslow), fun k => ?_⟩
  rw [loopCOf_of_pwr (hpwr.trans hbp)]
  obtain ⟨hup, hdown, hlim, -⟩ := hmove k
  exact ⟨hup, hdown, hlim⟩

/-! ## The other parts of the loop move no ceiling -/

theorem brakeSource_pwr (i : Nat) (v : Bool) (s : State) : (brakeSource i v s).pwr = s.pwr :=
  onlyRegs_pwr (onlyRegs_brakeSource i v s)

theorem pwr_ite {c : Prop} [Decidable c] {s t : State} {p : PwrSt} (hs : s.pwr = p) (ht : t.pwr = p) :
    (if c then s else t).pwr = p := by
  split
  · exact hs
  · exact ht

theorem thermBrake_pwr (s : State) : (thermBrake s).pwr = s.pwr := by
  rw [thermBrake]
  exact pwr_ite rfl (pwr_ite (brakeSource_pwr _ _ _) (pwr_ite (brakeSource_pwr _ _ _) rfl))

theorem iter_pwr {f : Nat → State → State} (hf : ∀ i (s : State), (f i s).pwr = s.pwr) (n : Nat) (s : State) : (iter n f s).pwr = s.pwr := by
  refine List.foldlRecOn (motive := fun t : State => t.pwr = s.pwr) _ _ rfl fun t ht i _ => ?_
  exact (hf i t).trans ht

theorem iter_loopC {f : Nat → State → State} (hf : ∀ i (s : State), (f i s).pwr.loopC = s.pwr.loopC) (n : Nat) (s : State) :
    (iter n f s).pwr.loopC = s.pwr.loopC :=
  List.foldlRecOn (motive := fun t : State => t.pwr.loopC = s.pwr.loopC) _ _ rfl fun t ht i _ => (hf i t).trans ht

theorem publishTemp_pwr (n : Nat) (s : State) : (publishTemp n s).pwr = s.pwr := rset_pwr _ _ _

theorem predictTower_loopC (n : Nat) (s : State) : (predictTower n s).pwr.loopC = s.pwr.loopC := by
  rw [predictTower]
  split
  · rfl
  split
  · rfl
  dsimp only
  rw [publishTemp_pwr]
  dsimp only
  refine (iter_loopC (fun i t => ?_) 8 _).trans ?_
  · rfl
  · rfl

/-! ## What the loop records -/

/-- A tower's power as it is recorded. -/
def powerWritten (p : Nat → Nat × Nat) (n : Nat) (w : Word) : Word := wPut w 31 19 (min (p n).1 8191)

theorem coarsePower_eq (vals : List Nat) (s : State) : coarsePower vals s = { s with pwr := (coarsePower vals s).pwr } := by
  rw [coarsePower]
  split
  · rfl
  · rfl

theorem coarsePower_loopC (vals : List Nat) (s : State) : (coarsePower vals s).pwr.loopC = s.pwr.loopC := by
  rw [coarsePower]
  split
  · rfl
  · rfl

theorem measKept_coarsePower (vals : List Nat) (s : State) : measKept s (coarsePower vals s) := by
  rw [coarsePower_eq]
  exact measKept_pwr _ _

theorem powerKey_injective (i j : Nat) (h : thmBase + 0x80 + 4 * i = thmBase + 0x80 + 4 * j) : i = j := by omega

/-- The registers of the powers once they are recorded. -/
def recorded (pk : Nat) (p : Nat → Nat × Nat) (s t : State) : Prop :=
  t.cores = s.cores ∧ t.pwr.loopC = s.pwr.loopC ∧ rget t (thmBase + 4) = rget s (thmBase + 4) ∧
    wFld (rget t (thmBase + 8)) 15 0 = min pk 65535 ∧
    ∀ n < 16, wFld (rget t (thmBase + 0x80 + 4 * n)) 31 19 = min (p n).1 8191

theorem recorded_of_measKept {pk : Nat} {p : Nat → Nat × Nat} {s t u : State} (h : recorded pk p s t) (k : measKept t u)
    (hl : u.pwr.loopC = t.pwr.loopC) : recorded pk p s u := by
  obtain ⟨hc, hloop, h4, h8, hn⟩ := h
  obtain ⟨kc, k4, k8, kn⟩ := k
  exact ⟨kc.trans hc, hl.trans hloop, k4.trans h4, by rw [k8, h8], fun n hlt => by rw [kn n hlt, hn n hlt]⟩

theorem recorded_registers (pk : Nat) (p : Nat → Nat × Nat) (s : State) : recorded pk p s
    (iter 16 (fun n s => rupd (thmBase + 0x80 + 4 * n) (powerWritten p n) s)
      (rupd (thmBase + 8) (fun w => wPut w 15 0 (min pk 65535)) s)) := by
  have hregs := rget_iter_rupd (k := fun n => thmBase + 0x80 + 4 * n) powerKey_injective (powerWritten p) 16
    (rupd (thmBase + 8) (fun w => wPut w 15 0 (min pk 65535)) s)
  have hpwr := iter_pwr (f := fun n s => rupd (thmBase + 0x80 + 4 * n) (powerWritten p n) s) (fun _ _ => rupd_pwr _ _ _) 16
    (rupd (thmBase + 8) (fun w => wPut w 15 0 (min pk 65535)) s)
  have hcores : (iter 16 (fun n s => rupd (thmBase + 0x80 + 4 * n) (powerWritten p n) s)
      (rupd (thmBase + 8) (fun w => wPut w 15 0 (min pk 65535)) s)).cores = s.cores :=
    List.foldlRecOn (motive := fun t : State => t.cores = s.cores) _ _ (rupd_cores _ _ _) fun t ht _ _ => (rupd_cores _ _ _).trans ht
  refine ⟨hcores, congrArg PwrSt.loopC (hpwr.trans (rupd_pwr _ _ _)), ?_, ?_, fun n hn => ?_⟩
  · rw [(hregs _).2 fun i _ => by omega, rupd, rget_rset_other _ _ (by decide)]
  · rw [(hregs _).2 fun i _ => by omega, rget_rupd_same, wFld_wPut_same _ _ (by decide) (by decide)]
    exact Nat.mod_eq_of_lt (by omega)
  · rw [(hregs 0).1 n hn, powerWritten, wFld_wPut_same _ _ (by decide) (by decide)]
    exact Nat.mod_eq_of_lt (by omega)

theorem recorded_regulatorLoss {pk : Nat} {p : Nat → Nat × Nat} {s t : State} (h : recorded pk p s t) :
    recorded pk p s (regulatorLoss t) := recorded_of_measKept h (measKept_therm _ _) rfl

theorem recorded_coarsePower {pk : Nat} {p : Nat → Nat × Nat} {s t : State} (vals : List Nat) (h : recorded pk p s t) :
    recorded pk p s (coarsePower vals t) := recorded_of_measKept h (measKept_coarsePower _ _) (coarsePower_loopC _ _)

theorem recorded_loopMeasure (pk : Nat) (p : Nat → Nat × Nat) (hub : List Nat) (s : State) : recorded pk p s (loopMeasure pk p hub s) := by
  rw [loopMeasure]
  exact recorded_regulatorLoss (recorded_coarsePower _ (recorded_registers pk p _))

/-- One turn of the 10 µs loop. -/
theorem powerLoop_moves {pk : Nat} {p : Nat → Nat × Nat} {hub : List Nat} {s : State} :
    let t := thermBrake (loopAdjust pk p (iter 16 predictTower (loopMeasure pk p hub s)))
    wFld (rget t (thmBase + 8)) 15 0 = min pk 65535 ∧ (∀ n, n < 16 → loopCOf t n ≤ loopCOf s n + 1 ∧ loopCOf s n ≤ loopCOf t n + 1 ∧
        (10 * wFld (rget s (thmBase + 4)) 12 0 < pk → loopCOf t n ≤ loopCOf s n) ∧
        wFld (rget t (thmBase + 0x80 + 4 * n)) 31 19 = min (p n).1 8191) ∧ t.cores = s.cores := by
  have hpredict (u : State) : measKept u (iter 16 predictTower u) := measKept_iter (fun i v _ => measKept_predictTower i v) u
  obtain ⟨hcores, hloop, h4, h8, hn⟩ := recorded_of_measKept (recorded_loopMeasure pk p hub s) (hpredict _)
    (iter_loopC predictTower_loopC _ _)
  generalize iter 16 predictTower (loopMeasure pk p hub s) = u at hcores hloop h4 h8 hn
  obtain ⟨⟨kcores, k4, k8, kn⟩, hmove⟩ := loopAdjust_moves pk p u
  generalize loopAdjust pk p u = v at kcores k4 k8 kn hmove
  obtain ⟨bcores, b4, b8, bn⟩ := measKept_thermBrake v
  refine ⟨by rw [b8, k8, h8], fun n hlt => ?_, bcores.trans (kcores.trans hcores)⟩
  have hu : loopCOf u n = loopCOf s n := by rw [loopCOf, loopCOf, hloop]
  obtain ⟨hup, hdown, hlim⟩ := hmove n
  rw [h4, hu] at hlim
  rw [hu] at hup hdown
  rw [loopCOf_of_pwr (thermBrake_pwr v), bn n hlt, kn n hlt, hn n hlt]
  exact ⟨hup, hdown, hlim, rfl⟩

/-- The powers of the towers, where a lost one has none. -/
def metered (tw : Meters) (s : State) (n : Nat) : Nat × Nat := if nsHas s.lostTw n then (0, 0) else listAt tw.tower n (0, 0)

theorem exec_powerLoopTick {pk : Nat} {tw : Meters} {s : State} (h : limitOn s = true) : exec (.powerLoopTick pk tw) s =
    .next (thermBrake (loopAdjust pk (metered tw s) (iter 16 predictTower (loopMeasure pk (metered tw s) tw.hub s)))) := by
  have hexec : exec (.powerLoopTick pk tw) s = execPowerLoopTick pk tw s := by rw [exec]
  rw [hexec, execPowerLoopTick, if_neg (by simp [h])]
  rfl

theorem metered_min (tw : Meters) (s : State) (n : Nat) : min (metered tw s n).1 8191 =
    if nsHas s.lostTw n then 0 else min (listAt tw.tower n (0, 0)).1 8191 := by
  rw [metered]
  split
  · rfl
  · rfl

theorem powerLoopTick_moves {pk : Nat} {tw : Meters} {s : State} (h : limitOn s = true) :
    ∃ t, exec (.powerLoopTick pk tw) s = .next t ∧ wFld (rget t (thmBase + 8)) 15 0 = min pk 65535 ∧
      (∀ n, n < 16 → loopCOf t n ≤ loopCOf s n + 1 ∧ loopCOf s n ≤ loopCOf t n + 1 ∧
        (10 * wFld (rget s (thmBase + 4)) 12 0 < pk → loopCOf t n ≤ loopCOf s n) ∧
        wFld (rget t (thmBase + 0x80 + 4 * n)) 31 19 =
          if nsHas s.lostTw n then 0 else min (listAt tw.tower n (0, 0)).1 8191) ∧ t.cores = s.cores := by
  have hexec := exec_powerLoopTick (pk := pk) (tw := tw) h
  obtain ⟨h8, hmove, hcores⟩ := powerLoop_moves (pk := pk) (p := metered tw s) (hub := tw.hub) (s := s)
  generalize thermBrake _ = t at hexec h8 hmove hcores
  refine ⟨t, hexec, h8, fun n hn => ?_, hcores⟩
  obtain ⟨hup, hdown, hlim, hpow⟩ := hmove n hn
  exact ⟨hup, hdown, hlim, hpow.trans (metered_min tw s n)⟩

/-! ## The comparator and the monitors -/

theorem comparator_takes_level {n : Fin 16} {p : Nat} {s : State} (hon : limitOn s = true) (hp : 3400 < p) :
    ∃ t, exec (.comparatorDecrement n p) s = .next t ∧ loopCOf t n = loopCOf s n - 1 ∧ loopWOf t n = loopWOf s n ∧
      (∀ o, o ≠ thmBase + 0x80 + 4 * n → rget t o = rget s o) := by
  have hexec : exec (.comparatorDecrement n p) s =
      .next (twrPublish n 4 (if 0 < loopCOf s n then setLoopC n (loopCOf s n - 1) s else s)) := by
    rw [exec, execComparatorDecrement, if_neg (by simp [hon]; omega)]
  obtain ⟨u, hu, hloop, hwith, hregs⟩ : ∃ u, u = (if 0 < loopCOf s n then setLoopC n (loopCOf s n - 1) s else s) ∧
      loopCOf u n = loopCOf s n - 1 ∧ loopWOf u n = loopWOf s n ∧ u.regs = s.regs := by
    refine ⟨_, rfl, ?_⟩
    split
    · exact ⟨by rw [loopCOf_setLoopC, if_pos rfl], rfl, rfl⟩
    · exact ⟨by omega, rfl, rfl⟩
  rw [← hu] at hexec
  refine ⟨_, hexec, by rw [loopCOf_twrPublish, hloop], ?_, fun o ho => ?_⟩
  · rw [loopWOf, twrPublish_pwr, ← loopWOf, hwith]
  · rw [twrPublish, rupd, rget_rset_other _ _ ho, rget, hregs, ← rget]

/-- What a monitor's report may change. -/
def F.monitored : Nat := F.srams ||| F.spWr ||| F.csQueue ||| F.portResp ||| F.ftag ||| F.refRate ||| F.pools ||| F.gbarArr |||
  F.lostTw ||| F.remote ||| F.remoteRef ||| F.frozen ||| F.map ||| F.parts ||| F.wins ||| F.zeroQ ||| F.reload ||| F.pwr |||
  F.boot ||| F.mnt ||| F.sec ||| F.net ||| F.t2q

theorem only_showClock (d : Nat) (bit : Option Nat) (ok : Bool) (s : State) : Only F.monitored s (showClock d bit ok s) := by
  unfold showClock
  split
  · exact only_rupd (φ := F.monitored) rfl (Only.refl _ _) _ _
  · exact Only.refl _ _

theorem onlyset_clocks {φ : Nat} {u s : State} {x : Store Nat} {y : NatSet} (hm : Within F.pwr φ) (h : Only φ u s) :
    Only φ u { s with pwr := { s.pwr with clkBad := x, rootLost := y } } := only_with hm rfl h

theorem only_clockCount (d : Nat) (e : Nat × Option Nat) (ok : Bool) (s : State) : Only F.monitored s (clockCount d e ok s) := by
  unfold clockCount
  exact onlyset_clocks rfl (only_showClock _ _ _ _)

theorem only_clockLost {u s : State} (d c : Nat) (h : Only F.monitored u s) : Only F.monitored u (clockLost d c s) := by
  unfold clockLost
  exact only_ite (only_loseRoot (φ := F.monitored) rfl (only_rupd (φ := F.monitored) rfl h _ _) _) (only_loseDie (φ := F.monitored) rfl (only_rupd (φ := F.monitored) rfl h _ _) _)

theorem clkmonWindow_reports (d : Fin 20) (counts : List Nat) (s : State) :
    ∃ t, exec (.clkmonWindow d counts) s = .next t ∧ Only F.monitored s t := by
  have hexec : exec (.clkmonWindow d counts) s = execClkmonWindow d counts s := by rw [exec]
  rw [hexec, execClkmonWindow]
  split
  · exact ⟨s, rfl, Only.refl _ _⟩
  · have hcount : Only F.monitored s ((windowClocks d counts).foldl (fun s r => clockCount d r.1 r.2 s) s) :=
      only_foldl (fun t r ht => ht.trans (only_clockCount _ _ _ t)) (Only.refl _ _)
    dsimp only
    split
    · exact ⟨_, rfl, only_clockLost _ _ hcount⟩
    · exact ⟨_, rfl, hcount⟩

theorem clockStopped_reports (d : Fin 20) (c : Fin 11) (s : State) :
    ∃ t, exec (.clockStopped d c) s = .next t ∧ Only F.monitored s t := by
  have hexec : exec (.clockStopped d c) s = execClockStopped d c s := by rw [exec]
  rw [hexec, execClockStopped]
  split
  · exact ⟨s, rfl, Only.refl _ _⟩
  · split
    · exact ⟨_, rfl, only_clockLost _ _ (only_showClock _ _ _ s)⟩
    · exact ⟨s, rfl, Only.refl _ _⟩

end Sys2Proof.Machine

open Sys2Proof.Machine

/-- Settles O21: the levels, the loop tower by tower, and the frames of the limits and the monitors. -/
theorem powerLevels : Obligations.PowerLevels := by
  refine ⟨fun k s => ⟨_, rfl, level_moves⟩, fun k s => ⟨_, rfl, level_moves⟩, fun _ _ _ => powerLoopTick_moves,
    fun _ _ _ => comparator_takes_level, fun w s => ?_, fun n w s => ?_, fun w s => ?_, fun d counts s => ?_, fun d c s => ?_⟩
  · obtain ⟨t, hexec, hloads, -, -, hrest⟩ := pkgLimit_loads w s
    exact ⟨t, hexec, by rw [← hrest], hloads⟩
  · obtain ⟨t, hexec, hloads, -, -, hrest⟩ := twrLimit_loads n w s
    exact ⟨t, hexec, by rw [← hrest], hloads⟩
  · obtain ⟨t, hexec, hloads, -, -, hrest⟩ := ramp_loads w s
    exact ⟨t, hexec, by rw [← hrest], hloads⟩
  · obtain ⟨t, hexec, honly⟩ := clkmonWindow_reports d counts s
    exact ⟨t, hexec, honly.pending rfl, honly.rails rfl⟩
  · obtain ⟨t, hexec, honly⟩ := clockStopped_reports d c s
    exact ⟨t, hexec, honly.pending rfl, honly.rails rfl⟩
end

section
/-! The command windows (O35). -/

namespace Sys2Proof.Machine

/-! ## Windows -/

theorem wget_wset (w x : Nat) (v : WinSt) (s : State) : wget (wset w v s) x = if x = w then v else wget s x := stGet_stSet _ _ _ _ _

theorem wget_wset_same (w : Nat) (v : WinSt) (s : State) : wget (wset w v s) w = v := stGet_stSet_same _ _ _ _

theorem wget_wset_other {w x : Nat} (v : WinSt) (s : State) (h : x ≠ w) : wget (wset w v s) x = wget s x := by
  rw [wget_wset, if_neg h]

theorem wget_of_wins {s t : State} (h : t.wins = s.wins) (w : Nat) : wget t w = wget s w := by
  rw [wget, wget, h]

theorem only_hostReq (fn : Nat) (a : Option Nat) (s : State) : Only F.ctrs s (hostReq fn a s) := by
  unfold hostReq
  exact only_tallyHub (φ := F.ctrs) rfl (Only.refl _ _) _ _ _ _

/-- What accepting packets of a window may change. -/
def F.window : Nat := F.regs ||| F.hostOut ||| F.wins ||| F.nextPkt ||| F.ctrs

/-- Of all windows only `w` differs, and of the other fields only registers, messages, counters and the packet numbers. -/
def onlyWindow (w : Nat) (s t : State) : Prop := Only F.window s t ∧ ∀ x, x ≠ w → wget t x = wget s x

theorem onlyWindow_refl (w : Nat) (s : State) : onlyWindow w s s := ⟨Only.refl _ _, fun _ _ => rfl⟩

theorem onlyWindow_trans {w : Nat} {s t u : State} (h : onlyWindow w s t) (k : onlyWindow w t u) : onlyWindow w s u := by
  obtain ⟨honly, hwin⟩ := h
  obtain ⟨konly, kwin⟩ := k
  exact ⟨honly.trans konly, fun x hx => (kwin x hx).trans (hwin x hx)⟩

/-- An operation that changes no window. -/
theorem onlyWindow_of_only {φ w : Nat} {s t : State} (h : Only φ s t) (hφ : Within φ F.window) (hw : φ.testBit 30 = false) :
    onlyWindow w s t := ⟨h.mono hφ, fun x _ => wget_of_wins (h.wins hw) x⟩

theorem onlyWindow_wset (w : Nat) (v : WinSt) (s : State) : onlyWindow w s (wset w v s) :=
  ⟨only_wset (φ := F.window) rfl (Only.refl _ _) _ _, fun _ hx => wget_wset_other v s hx⟩

theorem only_winLast (w status slot : Nat) (s : State) : Only F.regs s (winLast w status slot s) := by
  unfold winLast
  exact only_rupd (φ := F.regs) rfl (Only.refl _ _) _ _

theorem onlyWindow_winLast (w k status slot : Nat) (s : State) : onlyWindow w s (winLast k status slot s) :=
  onlyWindow_of_only (only_winLast k status slot s) rfl rfl

/-- What an answer to a packet may change. -/
def F.answer : Nat := F.regs ||| F.hostOut

theorem only_reply_answer (w : Nat) (b : List Byte) (kind status result detail bit : Nat) (record : Bool) (s : State) :
    Only F.answer s (reply w b kind status result detail bit record s) :=
  only_reply (φ := F.answer) rfl (Only.refl _ _) _ _ _ _ _ _ _ _

theorem onlyWindow_reply (x w : Nat) (b : List Byte) (kind status result detail bit : Nat) (record : Bool) (s : State) :
    onlyWindow x s (reply w b kind status result detail bit record s) :=
  onlyWindow_of_only (only_reply_answer w b kind status result detail bit record s) rfl rfl

theorem onlyWindow_tallyHub (w h e n : Nat) (tx : Option Tx) (s : State) : onlyWindow w s (tallyHub h e n tx s) :=
  onlyWindow_of_only (only_tallyHub (φ := F.ctrs) rfl (Only.refl _ _) _ _ _ _) rfl rfl

theorem onlyWindow_nextPkt (w n : Nat) (s : State) : onlyWindow w s { s with nextPkt := n } :=
  ⟨only_with (φ := F.window) (a := F.nextPkt) rfl rfl (Only.refl _ _), fun _ _ => rfl⟩

theorem onlyWindow_ite {c : Prop} [Decidable c] {w : Nat} {u s t : State} (hs : onlyWindow w u s) (ht : onlyWindow w u t) :
    onlyWindow w u (if c then s else t) := by
  split
  · exact hs
  · exact ht

/-! ## Packets -/

/-- The window once its head has passed the packet. -/
def passed (w : Nat) (b : List Byte) (s : State) : WinSt :=
  { wget s w with head := ((wget s w).head + ceilDiv (40 + 8 * hPlen b) 64) % 1024 }

/-- An accepted packet, as it joins its window's queue. -/
def queued (w : Nat) (b : List Byte) (s : State) : Pkt := { id := s.nextPkt, win := w, bytes := b, started := false, silent := false }

section
variable {w : Nat} {b : List Byte} {s : State}

theorem takePacket_accepted (hraddr : hRaddr b % 32 = 0) (hst : acceptStatus (wset w (passed w b s) s) w b = 0) : takePacket w b s =
    reply w b 0 0 0 0 11 (bitAt (hFlags b) 0) (tallyHub 0 0x0531 1 none (wset w { passed w b s with
        queue := (wget s w).queue ++ [queued w b s] } { wset w (passed w b s) s with nextPkt := s.nextPkt + 1 })) := by
  have hwin : wupd w (fun u => { u with queue := u.queue ++ [queued w b s] }) { wset w (passed w b s) s with nextPkt := s.nextPkt + 1 } =
      wset w { passed w b s with queue := (wget s w).queue ++ [queued w b s] }
        { wset w (passed w b s) s with nextPkt := s.nextPkt + 1 } := by
    have hget : wget { wset w (passed w b s) s with nextPkt := s.nextPkt + 1 } w = passed w b s := wget_wset_same _ _ _
    rw [wupd, hget]
    rfl
  rw [← hwin, takePacket]
  dsimp only
  rw [if_neg (by simp [hraddr])]
  exact if_neg fun h => h hst

theorem takePacket_refused {st : Nat} (hraddr : hRaddr b % 32 = 0) (hst : acceptStatus (wset w (passed w b s) s) w b = st)
    (h0 : st ≠ 0) : takePacket w b s =
      reply w b 2 st 0 0 11 true (winLast w st (wget s w).head (wset w (passed w b s) s)) := by
  rw [takePacket]
  dsimp only
  rw [if_neg (by simp [hraddr])]
  subst hst
  exact if_pos h0

theorem onlyWindow_takePacket (w : Nat) (b : List Byte) (s : State) : onlyWindow w s (takePacket w b s) := by
  rw [takePacket]
  exact onlyWindow_trans (onlyWindow_wset w _ s) (onlyWindow_ite (onlyWindow_winLast w w _ _ _)
    (onlyWindow_ite (onlyWindow_trans (onlyWindow_winLast w w _ _ _) (onlyWindow_reply w w _ _ _ _ _ _ _ _))
      (onlyWindow_trans (onlyWindow_trans (onlyWindow_trans (onlyWindow_nextPkt w _ _) (onlyWindow_wset w _ _))
        (onlyWindow_tallyHub w _ _ _ _ _)) (onlyWindow_reply w w _ _ _ _ _ _ _ _))))

theorem wget_reply (x kind status result detail bit : Nat) (record : Bool) :
    wget (reply w b kind status result detail bit record s) x = wget s x :=
  wget_of_wins ((only_reply_answer w b kind status result detail bit record s).wins rfl) x

theorem takePacket_joins (hraddr : hRaddr b % 32 = 0) (hst : acceptStatus (wset w (passed w b s) s) w b = 0) :
    wget (takePacket w b s) w = { wget s w with
      head := ((wget s w).head + ceilDiv (40 + 8 * hPlen b) 64) % 1024
      queue := (wget s w).queue ++ [{ id := s.nextPkt, win := w, bytes := b, started := false, silent := false }] } ∧
    (takePacket w b s).nextPkt = s.nextPkt + 1 ∧ (∀ x, x ≠ w → wget (takePacket w b s) x = wget s x) := by
  refine ⟨?_, ?_, (onlyWindow_takePacket w b s).2⟩
  · rw [takePacket_accepted hraddr hst, wget_reply, wget_of_wins (tallyHub_wins _ _ _ _ _), wget_wset_same]
    rfl
  · rw [takePacket_accepted hraddr hst, (only_reply_answer _ _ _ _ _ _ _ _ _).nextPkt rfl, tallyHub_nextPkt]
    rfl

end

/-- An answer that records and signals nothing beyond the function's table. -/
theorem reply_record {w : Nat} {b : List Byte} {s : State} (st : Nat)
    (hvec : bitAt (hRvec b) 11 = false ∨ fnVectors (winFn w) ≤ hRvec b % 2 ^ 11) :
    reply w b 2 st 0 0 11 true s = { s with hostOut := s.hostOut ++ (if hRaddr b = 0 then [] else
      [onStream s (winFn w) (.write (hRaddr b) (replyBytes b 2 st 0 0 s.ns))]) } := by
  have hsend (t : State) : (if bitAt (hRvec b) 11 = true then sendMsix (winFn w) (hRvec b % 2 ^ 11) t else t) = t := by
    rcases hvec with h | h
    · rw [if_neg (by simp [h])]
    · rw [sendMsix, if_pos h, ite_self]
  rw [reply]
  rw [hsend]
  by_cases h0 : hRaddr b = 0
  · simp [h0]
  · rw [if_pos (by simp [h0]), if_neg h0]
    rfl

theorem takePacket_records {w st : Nat} {b : List Byte} {s : State} (hraddr : hRaddr b % 32 = 0) (h0 : st ≠ 0)
    (hst : acceptStatus (wset w (passed w b s) s) w b = st) :
    wget (takePacket w b s) w = { wget s w with head := ((wget s w).head + ceilDiv (40 + 8 * hPlen b) 64) % 1024 } ∧
    (takePacket w b s).nextPkt = s.nextPkt ∧
    (bitAt (hRvec b) 11 = false ∨ fnVectors (winFn w) ≤ hRvec b % 2 ^ 11 →
      wFld (rget (takePacket w b s) (winLastKey w)) 31 16 = st % 65536 ∧
      (takePacket w b s).hostOut = s.hostOut ++ (if hRaddr b = 0 then [] else
        [onStream s (winFn w) (.write (hRaddr b) (replyBytes b 2 st 0 0 s.ns))])) := by
  rw [takePacket_refused hraddr hst h0]
  obtain ⟨u, hu⟩ : ∃ u, u = wset w (passed w b s) s := ⟨_, rfl⟩
  have hwin : wget u w = passed w b s := by rw [hu, wget_wset_same]
  have hpkt : u.nextPkt = s.nextPkt := by rw [hu]; rfl
  have hout : u.hostOut = s.hostOut := by rw [hu]; rfl
  have hns : u.ns = s.ns := by rw [hu]; rfl
  have hstream (m : HostOut) : onStream u (winFn w) m = onStream s (winFn w) m := by rw [hu]; rfl
  rw [← hu]
  have hlast := only_winLast w st (wget s w).head u
  refine ⟨?_, ?_, fun hvec => ?_⟩
  · rw [wget_reply, wget_of_wins (hlast.wins rfl), hwin]
    rfl
  · rw [(only_reply_answer _ _ _ _ _ _ _ _ _).nextPkt rfl, hlast.nextPkt rfl, hpkt]
  · have hfld : wFld (rget (winLast w st (wget s w).head u) (winLastKey w)) 31 16 = st % 65536 := by
      rw [winLast, rget_rupd_same, wFld_wPut_disjoint _ _ (by decide) (by decide) (by decide),
        wFld_wPut_same _ _ (by decide) (by decide)]
      rfl
    rw [reply_record st hvec]
    refine ⟨hfld, ?_⟩
    rw [winLast, rupd_hostOut, hout, rupd_ns, hns, ← hstream]
    rfl

/-! ## Writes that land in a window -/

theorem onlyWindow_examine (w off n fuel : Nat) (s : State) : onlyWindow w s (examine w off n fuel s) := by
  induction fuel generalizing s with
  | zero => exact onlyWindow_refl w s
  | succ k ih =>
    rw [examine]
    exact onlyWindow_ite (onlyWindow_refl w s) (onlyWindow_ite
      (onlyWindow_ite (onlyWindow_trans (onlyWindow_wset w _ s) (onlyWindow_winLast w w _ _ _)) (onlyWindow_refl w s))
      (onlyWindow_ite (onlyWindow_ite (onlyWindow_trans (onlyWindow_takePacket w _ s) (ih _))
        (onlyWindow_of_only (only_rupd (φ := F.regs) rfl (Only.refl _ _) _ _) rfl rfl)) (onlyWindow_refl w s)))

theorem examine_stalled {w : Nat} {s : State} (off n fuel : Nat) (h : (wget s w).stalled = true) : examine w off n fuel s = s := by
  cases fuel with
  | zero => rfl
  | succ k =>
    rw [examine]
    exact if_pos h

/-- Bytes of a wrapping 64 KiB window, written one after the other: each lands at its place. -/
theorem memGet_windowWrite (base off : Nat) (d : List Byte) (m : Mem) (h : d.length ≤ 65536) :
    (∀ i, i < d.length → memGet (d.zipIdx.foldl (fun m e => memSet m (base + (off + e.2) % 65536) e.1) m) (base + (off + i) % 65536) =
      d.getD i 0) ∧
    ∀ a, (∀ i, i < d.length → a ≠ base + (off + i) % 65536) →
      memGet (d.zipIdx.foldl (fun m e => memSet m (base + (off + e.2) % 65536) e.1) m) a = memGet m a := by
  induction d using List.reverseRecOn with
  | nil => exact ⟨nofun, fun _ _ => rfl⟩
  | append_singleton d x ih =>
    rw [List.length_append, List.length_singleton] at h
    obtain ⟨hin, hout⟩ := ih (by omega)
    simp only [List.zipIdx_append, List.foldl_append, List.zipIdx_cons, List.zipIdx_nil, List.foldl_cons, List.foldl_nil,
      List.length_append, List.length_singleton, Nat.zero_add]
    refine ⟨fun i hi => ?_, fun a ha => ?_⟩
    · by_cases he : i = d.length
      · subst he
        rw [memGet_memSet_same]
        simp
      · have hne : base + (off + i) % 65536 ≠ base + (off + d.length) % 65536 := by omega
        rw [memGet_memSet_other _ _ hne, hin i (by omega), List.getD_append _ _ _ _ (by omega)]
    · rw [memGet_memSet_other _ _ (ha d.length (by omega))]
      exact hout a fun i hi => ha i (by omega)

theorem nsHas_of_reaches {s : State} {fn : Nat} (h : hostReaches s fn = true) : nsHas s.d3 fn = false := by
  simp [hostReaches] at h
  exact h.2

/-- The bytes `d` of a host write, put into window `w` from `off` on. -/
def windowBytes (w off : Nat) (d : List Byte) (m : Mem) : Mem :=
  d.zipIdx.foldl (fun m e => memSet m (w * 65536 + (off + e.2) % 65536) e.1) m

theorem commandWindowWrite_lands {w : Fin 128} {off : Fin 65536} {d : List Byte} {s : State}
    (hreach : hostReaches s (winFn w) = true) (hd : d.length ≤ 65536) : ∃ t, exec (.commandWindowWrite w off d) s = .next t ∧
      (∀ i, i < d.length → memGet t.winMem (w.val * 65536 + (off.val + i) % 65536) = d.getD i 0) ∧
      (∀ a, (∀ i, i < d.length → a ≠ w.val * 65536 + (off.val + i) % 65536) → memGet t.winMem a = memGet s.winMem a) ∧
      (∀ x, x ≠ w.val → wget t x = wget s x) ∧ t.t1 = s.t1 ∧ t.t2 = s.t2 ∧ t.cores = s.cores ∧
      ((wget s w).stalled = true → t.wins = s.wins ∧ t.regs = s.regs ∧ t.hostOut = s.hostOut) := by
  have hreq := only_hostReq (winFn w) none s
  obtain ⟨u, hu⟩ : ∃ u, u = hostReq (winFn w) none s := ⟨_, rfl⟩
  rw [← hu] at hreq
  obtain ⟨v, hv⟩ : ∃ v : State, v = { u with winMem := windowBytes w off d u.winMem } := ⟨_, rfl⟩
  have hexec : exec (.commandWindowWrite w off d) s = .next (examine w off d.length 64 v) := by
    have hd3 : nsHas u.d3 (winFn w) = false := by
      rw [hreq.d3 rfl]
      exact nsHas_of_reaches hreach
    rw [exec, execCommandWindowWrite, if_pos hreach, ← hu, writeWindow, if_neg (by simp [hd3]), hv]
    rfl
  obtain ⟨hexam, hother⟩ := onlyWindow_examine w off d.length 64 v
  have hmem := memGet_windowWrite (w.val * 65536) off.val d s.winMem hd
  rw [← hreq.winMem rfl] at hmem
  have hvmem : v.winMem = windowBytes w off d u.winMem := by rw [hv]
  rw [← windowBytes, ← hvmem, ← hexam.winMem rfl] at hmem
  have hwin (x : Nat) : wget v x = wget s x := wget_of_wins (by rw [hv]; exact hreq.wins rfl) x
  refine ⟨_, hexec, hmem.1, fun a ha => ?_, fun x hx => (hother x hx).trans (hwin x), ?_, ?_, ?_, fun hstall => ?_⟩
  · rw [hmem.2 a ha, hreq.winMem rfl]
  · rw [hexam.t1 rfl, hv]
    exact hreq.t1 rfl
  · rw [hexam.t2 rfl, hv]
    exact hreq.t2 rfl
  · rw [hexam.cores rfl, hv]
    exact hreq.cores rfl
  · rw [examine_stalled _ _ _ (by rw [hwin, hstall]), hv]
    exact ⟨hreq.wins rfl, hreq.regs rfl, hreq.hostOut rfl⟩

theorem windowReset_opens {w : Fin 128} {s : State} (hreach : hostReaches s (winFn w) = true) :
    ∃ t, exec (.windowReset w) s = .next t ∧ wget t w = { wget s w with head := 0, stalled := false } ∧
      (∀ x, x ≠ w.val → wget t x = wget s x) ∧ { t with wins := s.wins, ctrs := s.ctrs } = s := by
  have hexec : exec (.windowReset w) s = .next (resetWindow w (hostReq (winFn w) none s)) := by
    rw [exec, execWindowReset, if_pos hreach]
  have hwin (x : Nat) : wget (hostReq (winFn w) none s) x = wget s x := wget_of_wins ((only_hostReq _ _ s).wins rfl) x
  refine ⟨_, hexec, ?_, fun x hx => ?_, ?_⟩
  · rw [resetWindow, wupd, wget_wset_same, hwin]
  · rw [resetWindow, wupd, wget_wset_other _ _ hx, hwin]
  · rw [hostReq_eq]
    rfl

/-! ## Host data -/

theorem hostReadCompletion_uses {tag : Nat} {d : List Byte} {r : HostRead} {s : State}
    (h : s.reads.find? (fun r => r.tag == tag) = some r) (hlen : d.length = r.len) (hlink : wBit (rget s 0x100) 10 = true)
    (h0 : hubAbsent s 0 = false) : exec (.hostReadCompletion tag d) s =
      .next (useData r.use d { s with reads := s.reads.filter (fun x => x.tag != tag) }) := by
  have hexec : exec (.hostReadCompletion tag d) s = execHostReadCompletion tag d s := by rw [exec]
  rw [hexec, execHostReadCompletion, h]
  exact if_neg (by simp [hlen, hlink, h0])

theorem hostReadCompletion_unasked {tag : Nat} {d : List Byte} {s : State} (h : s.reads.find? (fun r => r.tag == tag) = none) :
    exec (.hostReadCompletion tag d) s = .next s := by
  have hexec : exec (.hostReadCompletion tag d) s = execHostReadCompletion tag d s := by rw [exec]
  rw [hexec, execHostReadCompletion, h]

end Sys2Proof.Machine

open Sys2Proof.Machine

/-- Settles O35: the bytes of a window, its packets accepted or refused, its reset, and the data of a host read. -/
theorem commandWindows : Obligations.CommandWindows :=
  ⟨fun _ _ _ _ => commandWindowWrite_lands, fun _ _ _ => takePacket_joins, fun _ _ _ _ => takePacket_records,
    fun _ _ => windowReset_opens, fun _ _ _ _ => hostReadCompletion_uses, fun _ _ _ => hostReadCompletion_unasked⟩
end

section
/-! Power states and resets of the functions, and the link (O37). -/

namespace Sys2Proof.Machine

/-! ## Windows that stay empty -/

/-- A window at slot 0, not stalled, with no packet that has not started. -/
def emptied (w : Nat) (s : State) : Prop :=
  (wget s w).head = 0 ∧ (wget s w).stalled = false ∧ ∀ k ∈ (wget s w).queue, k.started = true

/-- Every window emptied in `s` is so in `t`. -/
def StaysEmptied (s t : State) : Prop := ∀ w, emptied w s → emptied w t

/-- Every field but `wins`. -/
def F.allButWins : Nat := 0x7FFFFFFBFFFFFFF

theorem staysEmptied_refl (s : State) : StaysEmptied s s := fun _ h => h

theorem StaysEmptied.trans {s t u : State} (h : StaysEmptied s t) (k : StaysEmptied t u) : StaysEmptied s u :=
  fun w hw => k w (h w hw)

theorem emptied_of_wins {w : Nat} {s t : State} (h : t.wins = s.wins) : emptied w t ↔ emptied w s := by
  rw [emptied, emptied, wget_of_wins h]

theorem StaysEmptied.only {u s t : State} (h : StaysEmptied u s) (k : Only F.allButWins s t) : StaysEmptied u t :=
  h.trans fun _ hw => (emptied_of_wins (k.wins rfl)).2 hw

theorem StaysEmptied.wset {u s : State} {w : Nat} {v : WinSt} (h : StaysEmptied u s)
    (hv : emptied w s → v.head = 0 ∧ v.stalled = false ∧ ∀ k ∈ v.queue, k.started = true) : StaysEmptied u (wset w v s) := by
  refine h.trans fun x hx => ?_
  rw [emptied, wget_wset]
  split
  · subst x
    exact hv hx
  · exact hx

theorem staysEmptied_foldl {α : Type} {f : State → α → State} (l : List α) {u s : State}
    (hf : ∀ s a, StaysEmptied u s → StaysEmptied u (f s a)) (h : StaysEmptied u s) : StaysEmptied u (l.foldl f s) :=
  List.foldlRecOn l f h fun s hs a _ => hf s a hs

theorem staysEmptied_ite {c : Prop} [Decidable c] {u s t : State} (h : StaysEmptied u s) (k : StaysEmptied u t) :
    StaysEmptied u (if c then s else t) := by
  split
  · exact h
  · exact k

section
variable {u s : State}

theorem staysEmptied_complete (h : StaysEmptied u s) (id status result detail : Nat) :
    StaysEmptied u (complete id status result detail s) := by
  rw [complete]
  split
  · exact h
  · next k _ =>
    have hrest : StaysEmptied u (wupd k.win (fun u => { u with queue := u.queue.filter (fun q => q.id != id) }) s) :=
      h.wset fun ⟨hhead, hstall, hqueue⟩ => ⟨hhead, hstall, fun q hq => hqueue q (List.mem_of_mem_filter hq)⟩
    exact staysEmptied_ite hrest (hrest.only (only_reply (φ := F.allButWins) rfl (Only.refl _ _) _ _ _ _ _ _ _ _))

/-- Silenced packets keep whether they have started. -/
theorem staysEmptied_silence (h : StaysEmptied u s) (p : Pkt → Bool) : StaysEmptied u (silence p s) := by
  refine h.trans fun w ⟨hhead, hstall, hqueue⟩ => ?_
  have hwin : wget (silence p s) w = { wget s w with
      queue := (wget s w).queue.map (fun k => if p k then { k with silent := true } else k) } := by
    simp only [wget, silence]
    generalize s.wins = st
    induction st with
    | nil => rfl
    | cons e es ih =>
      obtain ⟨k, v⟩ := e
      simp only [List.map_cons, stGet]
      split
      · rfl
      · exact ih
  rw [emptied, hwin]
  refine ⟨hhead, hstall, fun k hk => ?_⟩
  obtain ⟨k0, hk0, rfl⟩ := List.mem_map.1 hk
  split
  · exact hqueue k0 hk0
  · exact hqueue k0 hk0

theorem emptied_emptyWindow (w : Nat) (s : State) : emptied w (emptyWindow w s) := by
  rw [emptied, emptyWindow, wupd, wget_wset_same]
  exact ⟨rfl, rfl, fun k hk => List.of_mem_filter hk⟩

theorem staysEmptied_emptyWindow (h : StaysEmptied u s) (w : Nat) : StaysEmptied u (emptyWindow w s) :=
  (staysEmptied_silence h _).wset fun _ => ⟨rfl, rfl, fun _ hk => List.of_mem_filter hk⟩

theorem staysEmptied_stepDone (h : StaysEmptied u s) (p : Nat) (st : StepSt) (status result detail : Nat) :
    StaysEmptied u (stepDone p st status result detail s) :=
  staysEmptied_complete (h.only (only_pupd (φ := F.allButWins) rfl (Only.refl _ _) _ _)) _ _ _ _

theorem staysEmptied_launchesEnd (h : StaysEmptied u s) (p status : Nat) : StaysEmptied u (launchesEnd p status s) :=
  staysEmptied_foldl _ (fun _ _ hs => staysEmptied_complete hs _ _ _ _) (h.only (only_pset (φ := F.allButWins) rfl (Only.refl _ _) _ _))

theorem staysEmptied_haltReqs (h : StaysEmptied u s) (cs : List Nat) :
    StaysEmptied u (cs.foldl (fun s c => haltReqCore c s) s) :=
  staysEmptied_foldl _ (fun _ _ hs => hs.only (only_haltReqCore (φ := F.allButWins) rfl (Only.refl _ _) _)) h

theorem staysEmptied_stepClose (h : StaysEmptied u s) (p : Nat) (st : StepSt) : StaysEmptied u (stepClose p st s) :=
  staysEmptied_stepDone ((h.only (only_engRun (Only.refl _ _) (onlyEng_bind (only_curCtx (φ := F.allButWins) rfl _) fun _ =>
    only_engEach (fun _ => only_restSeq (φ := F.allButWins) rfl _ _ _ _) _))).only (only_earlyTable (φ := F.allButWins) rfl (Only.refl _ _) _)) _ _ _ _ _

theorem staysEmptied_stepStop (h : StaysEmptied u s) (p status detail : Nat) : StaysEmptied u (stepStop p status detail s) := by
  rw [stepStop]
  split
  · exact h
  · have hrun (st : StepSt) := staysEmptied_haltReqs (h.only (only_pupd (φ := F.allButWins) rfl (Only.refl _ _) p
      fun q => { q with step := some st })) (modelCores s p)
    exact staysEmptied_ite h (staysEmptied_ite (staysEmptied_stepClose (hrun _) _ _) (hrun _))

theorem staysEmptied_stepEndNow (h : StaysEmptied u s) (p status : Nat) : StaysEmptied u (stepEndNow p status s) := by
  rw [stepEndNow]
  split
  · exact h
  · exact staysEmptied_stepDone ((staysEmptied_haltReqs h _).only (only_earlyTable (φ := F.allButWins) rfl (Only.refl _ _) _)) _ _ _ _ _

theorem staysEmptied_faultPart (h : StaysEmptied u s) (p : Nat) : StaysEmptied u (faultPart p s) := by
  rw [faultPart]
  exact staysEmptied_ite h (((staysEmptied_foldl _ (fun _ _ hs => staysEmptied_complete hs _ _ _ _)
    (staysEmptied_launchesEnd (staysEmptied_stepEndNow h _ _) _ _)).only (only_dropAreas (φ := F.allButWins) rfl (Only.refl _ _) _)).only
      (only_pupd (φ := F.allButWins) rfl (Only.refl _ _) _ _))

theorem staysEmptied_tdiError (h : StaysEmptied u s) (p : Nat) : StaysEmptied u (tdiError p s) := by
  rw [tdiError]
  have hfault := (staysEmptied_faultPart (staysEmptied_stepEndNow h p 0x0308) p).only
    (only_startZeroing (φ := F.allButWins) rfl (only_pupd (φ := F.allButWins) rfl (Only.refl _ _) p fun q => { q with tdi := 3 }) p)
  exact staysEmptied_ite h ((staysEmptied_foldl _ (fun _ _ hs => hs.only (only_cupd (φ := F.allButWins) rfl (Only.refl _ _) _ _)) hfault).only
    (only_assignAll (φ := F.allButWins) rfl (Only.refl _ _) _))

theorem staysEmptied_partReset (h : StaysEmptied u s) (p : Nat) : StaysEmptied u (partReset p s) := by
  rw [partReset, cancelSilent, cancelSteps]
  exact staysEmptied_tdiError (staysEmptied_launchesEnd (staysEmptied_stepStop (staysEmptied_silence h _) _ _ _) _ _) _

theorem staysEmptied_fnReset (h : StaysEmptied u s) (fn : Nat) : StaysEmptied u (fnReset fn s) :=
  h.only (only_fnReset (φ := F.allButWins) rfl (Only.refl _ _) _)

theorem staysEmptied_vfReset (h : StaysEmptied u s) (p : Nat) : StaysEmptied u (vfReset p s) :=
  staysEmptied_fnReset (staysEmptied_partReset (staysEmptied_emptyWindow h _) _) _

end

/-! ## Resets -/

theorem fnReset_awake (fn : Nat) (s : State) : nsHas (fnReset fn s).d3 fn = false := by
  rw [fnReset, nsHas_nsDel]
  simp

theorem vfReset_empties (p : Nat) (s : State) : emptied (64 + p) (vfReset p s) :=
  staysEmptied_fnReset (staysEmptied_partReset (staysEmptied_refl _) p) (p + 1) _ (emptied_emptyWindow (64 + p) s)

/-- An operation repeated over the windows empties every one it meets. -/
theorem emptied_iter {f : Nat → State → State} {k : Nat → Nat} (he : ∀ i s, emptied (k i) (f i s))
    (hs : ∀ i s, StaysEmptied s (f i s)) (n : Nat) (s : State) :
    StaysEmptied s (iter n f s) ∧ ∀ i, i < n → emptied (k i) (iter n f s) := by
  induction n with
  | zero => exact ⟨staysEmptied_refl s, nofun⟩
  | succ n ih =>
    obtain ⟨hkeep, hdone⟩ := ih
    rw [iter_succ]
    refine ⟨hkeep.trans (hs n _), fun i hi => ?_⟩
    by_cases hin : i = n
    · subst hin
      exact he i _
    · exact hs n _ _ (hdone i (by omega))

theorem allReset_empties (w : Nat) (hw : w < 128) (s : State) : emptied w (allReset s) := by
  obtain ⟨_, hpf⟩ := emptied_iter (f := fun w s => emptyWindow w s) (k := fun w => w) emptied_emptyWindow
    (fun i s => staysEmptied_emptyWindow (staysEmptied_refl s) i) 64 s
  obtain ⟨hkeep, hvf⟩ := emptied_iter (f := fun p s => vfReset p s) (k := fun p => 64 + p) vfReset_empties
    (fun i s => staysEmptied_vfReset (staysEmptied_refl s) i) 64 (iter 64 (fun w s => emptyWindow w s) s)
  have hboth : emptied w (iter 64 (fun p s => vfReset p s) (iter 64 (fun w s => emptyWindow w s) s)) := by
    by_cases hlt : w < 64
    · exact hkeep w (hpf w hlt)
    · have := hvf (w - 64) (by omega)
      rwa [show 64 + (w - 64) = w by omega] at this
  exact staysEmptied_fnReset (staysEmptied_refl _) 0 w hboth

theorem linkDown_effect (s : State) : rget (linkDown s) 0x100 = 0 ∧ wBit (rget (linkDown s) 0x14) 16 = false ∧
    (linkDown s).sec.ideLink = false ∧ (linkDown s).sec.idePf = false ∧ (linkDown s).wins = s.wins := by
  have hregs (o : Nat) : rget (linkDown s) o =
      rget (rset 0x100 (word (linkWord false 0 0)) (rupd 0x14 (fun w => wPut w 16 16 0) s)) o := rfl
  refine ⟨?_, ?_, rfl, rfl, rfl⟩
  · rw [hregs, rget_rset_same]
    rfl
  · rw [hregs, rget_rset_other _ _ (by decide), rget_rupd_same, wBit_wPut _ _ _ (by decide) (by decide)]
    rfl

/-! ## Entering and leaving D3hot -/

theorem tdiError_unlocked {p : Nat} {s : State} (h : (pget s p).tdi = 0 ∨ (pget s p).tdi = 3) : tdiError p s = s := by
  rw [tdiError]
  rcases h with h | h <;> exact if_pos (by simp [h])

/-- Where function `fn` holds the pending bit of vector `vec`. -/
def pbaKey (fn vec : Nat) : Nat := (if fn = 0 then 0x10000 else vfKey (fn - 1) 0x1F000) + 4 * (vec / 32)

theorem pbaKey_ne_msixKey {fn i vec : Nat} (hi : i < fnVectors fn) (h : vec < fnVectors fn) : msixKey fn vec 3 ≠ pbaKey fn i := by
  rw [msixKey, pbaKey]
  rw [fnVectors] at hi h
  split
  · rw [if_pos ‹_›] at hi h
    omega
  · rw [if_neg ‹_›] at hi h
    rw [vfKey, vfKey]
    omega

theorem pbaKey_inj {fn i j : Nat} (h : pbaKey fn i = pbaKey fn j) : i / 32 = j / 32 := by
  rw [pbaKey, pbaKey] at h
  omega

/-- What flushing vectors may change. -/
def F.flush : Nat := F.regs ||| F.hostOut

theorem only_flushVector {u s : State} (h : Only F.flush u s) (fn vec : Nat) : Only F.flush u (flushVector fn vec s) := by
  rw [flushVector]
  exact only_ite (only_fnSend (φ := F.flush) rfl (only_rupd (φ := F.flush) rfl h _ _) _ _) h

theorem flushVector_eq (fn vec : Nat) (s : State) : flushVector fn vec s =
    if wBit (rget s (pbaKey fn vec)) (vec % 32) && !wBit (rget s (msixKey fn vec 3)) 0 && msixOn s fn && !nsHas s.d3 fn then
      fnSend fn (.msix fn vec) (rupd (pbaKey fn vec) (fun w => wPut w (vec % 32) (vec % 32) 0) s)
    else s := rfl

/-- Vector `vec` of a function waits, may be sent, and the function is in D0. -/
def flushable (fn vec : Nat) (s : State) : Prop :=
  wBit (rget s (pbaKey fn vec)) (vec % 32) = true ∧ wBit (rget s (msixKey fn vec 3)) 0 = false ∧ msixOn s fn = true ∧
    nsHas s.d3 fn = false

theorem flushVector_sends {fn vec : Nat} {s : State} (h : flushable fn vec s) :
    onStream s fn (.msix fn vec) ∈ (flushVector fn vec s).hostOut := by
  obtain ⟨hpend, hmask, hon, hd0⟩ := h
  rw [flushVector_eq, if_pos (by simp [hpend, hmask, hon, hd0])]
  exact List.mem_append_right _ (List.mem_singleton.2 rfl)

theorem flushVector_hostOut (fn vec : Nat) (s : State) : ∃ l, (flushVector fn vec s).hostOut = s.hostOut ++ l := by
  rw [flushVector_eq]
  split
  · exact ⟨_, rfl⟩
  · exact ⟨[], (List.append_nil _).symm⟩

/-- Flushing a vector leaves every other vector as it was. -/
theorem flushable_flushVector {fn i vec : Nat} {s : State} (hi : i < fnVectors fn) (hv : vec < fnVectors fn) (hne : vec ≠ i)
    (h : flushable fn vec s) : flushable fn vec (flushVector fn i s) := by
  obtain ⟨hpend, hmask, hon, hd0⟩ := h
  rw [flushVector_eq]
  split
  · refine ⟨?_, ?_, hon, hd0⟩
    · rw [rget_fnSend, rget_rupd]
      split
      · next heq =>
        have hsame : vec / 32 = i / 32 := pbaKey_inj heq
        rw [wBit_wPut _ _ _ (by omega) (by omega), if_neg (by omega), ← heq]
        exact hpend
      · exact hpend
    · rw [rget_fnSend, rupd, rget_rset_other _ _ (pbaKey_ne_msixKey hi hv)]
      exact hmask
  · exact ⟨hpend, hmask, hon, hd0⟩

theorem flushVectors_send {fn : Nat} (s : State) (n : Nat) (hn : n ≤ fnVectors fn) :
    (∀ vec, vec < n → flushable fn vec s → onStream s fn (.msix fn vec) ∈ (iter n (fun i s => flushVector fn i s) s).hostOut) ∧
    Only F.flush s (iter n (fun i s => flushVector fn i s) s) ∧
    ∀ vec, n ≤ vec → vec < fnVectors fn → flushable fn vec s → flushable fn vec (iter n (fun i s => flushVector fn i s) s) := by
  induction n with
  | zero => exact ⟨nofun, Only.refl _ _, fun _ _ _ h => h⟩
  | succ n ih =>
    obtain ⟨hsent, honly, hwait⟩ := ih (by omega)
    rw [iter_succ]
    refine ⟨fun vec hv h => ?_, only_flushVector honly _ _, fun vec hv hlt h =>
      flushable_flushVector (by omega) hlt (by omega) (hwait vec (by omega) hlt h)⟩
    by_cases he : vec = n
    · subst he
      have hstream : onStream (iter vec (fun i s => flushVector fn i s) s) fn (.msix fn vec) = onStream s fn (.msix fn vec) := by
        rw [onStream, onStream, pget, pget, honly.sec rfl, honly.parts rfl]
      rw [← hstream]
      exact flushVector_sends (hwait vec le_rfl (by omega) h)
    · obtain ⟨l, hl⟩ := flushVector_hostOut fn n (iter n (fun i s => flushVector fn i s) s)
      rw [hl]
      exact List.mem_append_left _ (hsent vec (by omega) h)

/-! ## The requests of the host -/

section
variable {s : State}

/-- A reset of a function is refused neither by an absent hub nor by a link that is down. -/
theorem hub_up_link_up (h0 : hubAbsent s 0 = false) (hlink : wBit (rget s 0x100) 10 = true) :
    ¬ (hubAbsent s 0 || !wBit (rget s 0x100) 10) = true := by simp [h0, hlink]

theorem d3hotEntry_enters {fn : Fin 65} (h0 : hubAbsent s 0 = false) (hlink : wBit (rget s 0x100) 10 = true) :
    ∃ t, exec (.d3hotEntry fn) s = .next t ∧
      (fn.val = 0 ∨ (pget s (fn - 1)).tdi = 0 ∨ (pget s (fn - 1)).tdi = 3 → t = { s with d3 := nsAdd s.d3 fn }) ∧
      (fn.val ≠ 0 → t = tdiError (fn - 1) { s with d3 := nsAdd s.d3 fn }) := by
  have hexec : exec (.d3hotEntry fn) s = .next (d3Enter fn s) := by
    rw [exec, execD3hotEntry, if_neg (hub_up_link_up h0 hlink)]
  refine ⟨_, hexec, fun h => ?_, fun h => if_neg h⟩
  rw [d3Enter]
  by_cases hz : fn.val = 0
  · exact if_pos hz
  · rw [if_neg hz]
    exact tdiError_unlocked (h.resolve_left hz)

theorem d0Entry_flushes {fn : Fin 65} (h0 : hubAbsent s 0 = false) (hlink : wBit (rget s 0x100) 10 = true) :
    ∃ t, exec (.d0Entry fn) s = .next t ∧ t.d3 = nsDel s.d3 fn ∧ t.wins = s.wins ∧ t.parts = s.parts ∧
      (∀ vec, vec < fnVectors fn →
        wBit (rget s ((if fn.val = 0 then 0x10000 else vfKey (fn - 1) 0x1F000) + 4 * (vec / 32))) (vec % 32) = true →
        wBit (rget s (msixKey fn vec 3)) 0 = false → msixOn s fn = true → onStream s fn (.msix fn vec) ∈ t.hostOut) := by
  have hexec : exec (.d0Entry fn) s = .next (d0Enter fn s) := by
    rw [exec, execD0Entry, if_neg (hub_up_link_up h0 hlink)]
  obtain ⟨hsent, honly, _⟩ := flushVectors_send (fn := fn) { s with d3 := nsDel s.d3 fn } (fnVectors fn) le_rfl
  refine ⟨_, hexec, honly.d3 rfl, honly.wins rfl, honly.parts rfl, fun vec hv hpend hmask hon => hsent vec hv ?_⟩
  exact ⟨hpend, hmask, hon, by simp [nsHas_nsDel]⟩

theorem vfFlr_resets {p : Fin 64} (h0 : hubAbsent s 0 = false) (hlink : wBit (rget s 0x100) 10 = true) :
    ∃ t, exec (.vfFlr p) s = .next t ∧ t = vfReset p s ∧ (wget t (64 + p)).head = 0 ∧ (wget t (64 + p)).stalled = false ∧
      (∀ k ∈ (wget t (64 + p)).queue, k.started = true) ∧ nsHas t.d3 (p + 1) = false := by
  have hexec : exec (.vfFlr p) s = .next (vfReset p s) := by
    rw [exec, execVfFlr, if_neg (hub_up_link_up h0 hlink)]
  obtain ⟨hhead, hstall, hqueue⟩ := vfReset_empties p s
  exact ⟨_, hexec, rfl, hhead, hstall, hqueue, fnReset_awake _ _⟩

theorem pfFlr_resets (h0 : hubAbsent s 0 = false) (hlink : wBit (rget s 0x100) 10 = true) :
    ∃ t, exec .pfFlr s = .next t ∧ t = allReset s ∧ nsHas t.d3 0 = false ∧
      ∀ w, w < 128 → (wget t w).head = 0 ∧ (wget t w).stalled = false ∧ ∀ k ∈ (wget t w).queue, k.started = true := by
  have hexec : exec .pfFlr s = .next (allReset s) := by
    rw [exec, execPfFlr, if_neg (hub_up_link_up h0 hlink)]
  exact ⟨_, hexec, rfl, fnReset_awake _ _, fun w hw => allReset_empties w hw s⟩

theorem hotReset_resets (h0 : hubAbsent s 0 = false) : ∃ t, exec .hotReset s = .next t ∧ t = linkDown (allReset s) ∧
    rget t 0x100 = 0 ∧ wBit (rget t 0x14) 16 = false ∧ t.sec.ideLink = false ∧ t.sec.idePf = false := by
  have hexec : exec .hotReset s = .next (linkDown (allReset s)) := by
    rw [exec, execHotReset, if_neg (by simp [h0])]
  obtain ⟨hword, hbit, hlink, hpf, _⟩ := linkDown_effect (allReset s)
  exact ⟨_, hexec, rfl, hword, hbit, hlink, hpf⟩

theorem linkDown_resets (h0 : hubAbsent s 0 = false) : ∃ t, exec .linkDown s = .next t ∧ t = linkDown (allReset s) ∧
    rget t 0x100 = 0 ∧ wBit (rget t 0x14) 16 = false ∧ ∀ w, w < 128 → (wget t w).head = 0 ∧ (wget t w).stalled = false := by
  have hexec : exec .linkDown s = .next (linkDown (allReset s)) := by
    rw [exec, execLinkDown, if_neg (by simp [h0])]
  obtain ⟨hword, hbit, _, _, hwins⟩ := linkDown_effect (allReset s)
  refine ⟨_, hexec, rfl, hword, hbit, fun w hw => ?_⟩
  obtain ⟨hhead, hstall, _⟩ := allReset_empties w hw s
  rw [wget_of_wins hwins]
  exact ⟨hhead, hstall⟩

theorem linkWord_up (speed width : Nat) : wBit (word (linkWord true speed width)) 10 = true ∧
    wFld (word (linkWord true speed width)) 3 0 = speed % 16 ∧ wFld (word (linkWord true speed width)) 9 4 = width % 64 := by
  have hb (b : Bool) : b2n b ≤ 1 := by cases b <;> decide
  have hslow := hb (decide (speed < 5) || decide (width < 8))
  have hfast := hb (speed == 6)
  have hval : linkWord true speed width = b2n (decide (speed < 5) || decide (width < 8)) * 2 ^ 12 + b2n (speed == 6) * 2 ^ 11 +
      2 ^ 10 + width % 64 * 16 + speed % 16 := rfl
  have hlt : linkWord true speed width < 2 ^ 32 := by omega
  have hnat : (word (linkWord true speed width)).toNat = linkWord true speed width := by
    rw [word, BitVec.toNat_ofNat, Nat.mod_eq_of_lt hlt]
  refine ⟨?_, ?_, ?_⟩
  · rw [wBit, bitAt, hnat]
    exact beq_iff_eq.2 (by omega)
  · rw [wFld, hnat, fld_eq_div_mod]
    omega
  · rw [wFld, hnat, fld_eq_div_mod]
    omega

theorem rupd_rset_frame (a b : Nat) (w : Word) (f : Word → Word) (s : State) :
    { rupd a f (rset b w s) with regs := s.regs } = s := rfl

theorem hostLinkUp_trains {speed width : Nat} (h0 : hubAbsent s 0 = false) (hrail : nsHas s.pwr.rails 0 = true)
    (hboot : s.booted = true) : ∃ t, exec (.hostLinkUp speed width) s = .next t ∧ wBit (rget t 0x100) 10 = true ∧
      wFld (rget t 0x100) 3 0 = speed % 16 ∧ wFld (rget t 0x100) 9 4 = width % 64 ∧ wBit (rget t 0x14) 16 = true ∧
      (∀ o, o ≠ 0x100 → o ≠ 0x14 → rget t o = rget s o) ∧ { t with regs := s.regs } = s := by
  have hexec : exec (.hostLinkUp speed width) s =
      .next (rupd 0x14 (fun w => wPut w 16 16 1) (rset 0x100 (word (linkWord true speed width)) s)) := by
    rw [exec, execHostLinkUp, if_neg (by simp [h0, hrail, hboot])]
  have hword : rget (rupd 0x14 (fun w => wPut w 16 16 1) (rset 0x100 (word (linkWord true speed width)) s)) 0x100 =
      word (linkWord true speed width) := by
    rw [rupd, rget_rset_other _ _ (by decide), rget_rset_same]
  obtain ⟨hup, hspeed, hwidth⟩ := linkWord_up speed width
  refine ⟨_, hexec, by rw [hword]; exact hup, by rw [hword]; exact hspeed, by rw [hword]; exact hwidth, ?_, fun o ho ho' => ?_, rupd_rset_frame _ _ _ _ _⟩
  · rw [rget_rupd_same, wBit_wPut _ _ _ (by decide) (by decide)]
    rfl
  · rw [rupd, rget_rset_other _ _ ho', rget_rset_other _ _ ho]

end

end Sys2Proof.Machine

open Sys2Proof.Machine

/-- Settles O37: the power states of a function, the resets of one and of all, and the link going down and up. -/
theorem functionStates : Obligations.FunctionStates :=
  ⟨fun _ _ => d3hotEntry_enters, fun _ _ => d0Entry_flushes, fun _ _ => vfFlr_resets, fun _ => pfFlr_resets,
    fun _ => hotReset_resets, fun _ => linkDown_resets, fun _ _ _ => hostLinkUp_trains⟩
end

section
/-! Commands of an admitted packet, and the commands of the device (O38). -/

namespace Sys2Proof.Machine

/-! ## Admitted packets -/

/-- An admitted packet runs the body of its command. -/
theorem runCmd_admitted {w op : Nat} {resv : List Byte → Bool} {k : Pkt} {s : State} (h : admitted w op resv k s)
    (body : Pkt → State → State) : runCmd w op resv body s = .next (body k (startPkt k s)) := by
  obtain ⟨hstart, hresv, hgate⟩ := h
  rw [runCmd, hstart]
  exact (if_neg (by simp [hresv])).trans (if_neg (not_not.2 hgate))

section
variable {i : Fin 128 → Instr} {op : Nat} {resv : List Byte → Bool} {body : Pkt → State → State}

theorem completes_of_body (hi : ∀ w s, exec (i w) s = runCmd w op resv body s) {pre : Pkt → State → Prop}
    {r : Pkt → State → Nat} {f : Pkt → State → State} (h : ∀ k u, pre k u → body k u = complete k.id 0 (r k u) 0 (f k u)) :
    completes i op resv pre r f := fun w k s hadm hpre => by
  rw [hi, runCmd_admitted hadm, h k _ hpre]

theorem refuses_of_body (hi : ∀ w s, exec (i w) s = runCmd w op resv body s) {pre : Pkt → State → Prop} {st : Nat}
    (h : ∀ k u, pre k u → body k u = complete k.id st 0 0 u) : refuses i op resv pre st := fun w k s hadm hpre => by
  rw [hi, runCmd_admitted hadm, h k _ hpre]

end

theorem only_startPkt (k : Pkt) (s : State) : Only F.wins s (startPkt k s) := only_wupd (φ := F.wins) rfl (Only.refl _ _) _ _

theorem rget_startPkt (k : Pkt) (s : State) (o : Nat) : rget (startPkt k s) o = rget s o := by
  rw [rget, rget, (only_startPkt k s).regs rfl]

theorem pget_startPkt (k : Pkt) (s : State) (p : Nat) : pget (startPkt k s) p = pget s p := by
  rw [pget, pget, (only_startPkt k s).parts rfl]

/-! ## Limits -/

/-- SET_LIMITS on the first `n` towers. -/
def towersUpTo (m v n : Nat) (s : State) : State × Bool :=
  (List.range n).foldl (fun a n =>
    if bitAt m n then
      let r := writeTwrLimit n v false a.1
      (r.1, a.2 || r.2)
    else a) (s, false)

theorem towersUpTo_succ (m v n : Nat) (s : State) : (towersUpTo m v (n + 1) s).1 =
    if bitAt m n then (writeTwrLimit n v false (towersUpTo m v n s).1).1 else (towersUpTo m v n s).1 := by
  rw [towersUpTo, List.range_succ, List.foldl_append]
  exact apply_ite Prod.fst _ _ _

/-- A write of a limit writes its register alone. -/
theorem writeLimit_rest (key m lo hi v : Nat) (s : State) : { (writeLimit key m lo hi v false s).1 with regs := s.regs } = s ∧
    ∀ o, o ≠ key → rget (writeLimit key m lo hi v false s).1 o = rget s o := by
  rw [writeLimit_eq]
  exact ⟨rfl, fun o ho => rget_rset_other _ _ ho⟩

theorem towersUpTo_rest (m v : Nat) (s : State) (n : Nat) : { (towersUpTo m v n s).1 with regs := s.regs } = s ∧
    ∀ o, (∀ i, i < n → o ≠ thmBase + 0x40 + 4 * i) → rget (towersUpTo m v n s).1 o = rget s o := by
  induction n with
  | zero => exact ⟨rfl, fun _ _ => rfl⟩
  | succ n ih =>
    obtain ⟨hframe, hother⟩ := ih
    rw [towersUpTo_succ]
    generalize (towersUpTo m v n s).1 = u at hframe hother
    obtain ⟨hregs, hrest⟩ := writeLimit_rest (thmBase + 0x40 + 4 * n) 8 40 (wFld (rget u thmBase) 15 0) v u
    rw [← writeTwrLimit] at hregs hrest
    split
    · refine ⟨?_, fun o ho => (hrest o (ho n (by omega))).trans (hother o fun i hi => ho i (by omega))⟩
      rw [← hframe]
      exact congrArg (fun x : State => { x with regs := s.regs }) hregs
    · exact ⟨hframe, fun o ho => hother o fun i hi => ho i (by omega)⟩

theorem towersUpTo_loads {m v : Nat} (hv : v < 512) (s : State) (n i : Nat) (hi : i < n) (hm : bitAt m i = true) :
    wFld (rget (towersUpTo m v n s).1 (thmBase + 0x40 + 4 * i)) 8 0 = max 40 (min v (wFld (rget s thmBase) 15 0)) := by
  induction n with
  | zero => exact absurd hi (by omega)
  | succ n ih =>
    rw [towersUpTo_succ]
    have hbase : rget (towersUpTo m v n s).1 thmBase = rget s thmBase := (towersUpTo_rest m v s n).2 thmBase fun i _ => by omega
    generalize (towersUpTo m v n s).1 = u at ih hbase
    by_cases he : i = n
    · subst he
      rw [if_pos hm, ← hbase]
      exact (writeLimit_loads false u (by decide) (by decide) hv).1
    · have hrest := (writeLimit_rest (thmBase + 0x40 + 4 * n) 8 40 (wFld (rget u thmBase) 15 0) v u).2
        (thmBase + 0x40 + 4 * i) (by omega)
      rw [← writeTwrLimit] at hrest
      rw [apply_ite (fun x : State => rget x (thmBase + 0x40 + 4 * i)), hrest, ite_self]
      exact ih (by omega)

/-- The package's limit, where `pk` is not 0. -/
def pkgSet (pk : Nat) (s : State) : State × Bool := if pk = 0 then (s, false) else writePkgLimit pk false s

/-- The limits of the towers of mask `m`, where `tv` is not 0. -/
def towersSet (tv m : Nat) (s : State) : State × Bool := if tv = 0 then (s, false) else setTowers m tv s

theorem pkgSet_rest (pk : Nat) (s : State) : { (pkgSet pk s).1 with regs := s.regs } = s ∧
    (∀ o, o ≠ thmBase + 4 → rget (pkgSet pk s).1 o = rget s o) ∧ (pk = 0 → pkgSet pk s = (s, false)) := by
  rw [pkgSet]
  split
  · exact ⟨rfl, fun _ _ => rfl, fun _ => rfl⟩
  · next hpk =>
    obtain ⟨hregs, hrest⟩ := writeLimit_rest (thmBase + 4) 12 1200 (wFld (rget s thmBase) 31 16) pk s
    exact ⟨hregs, hrest, fun h => absurd h hpk⟩

theorem pkgSet_loads {pk : Nat} (s : State) (h0 : pk ≠ 0) (h : pk < 8192) :
    wFld (rget (pkgSet pk s).1 (thmBase + 4)) 12 0 = max 1200 (min pk (wFld (rget s thmBase) 31 16)) := by
  rw [pkgSet, if_neg h0]
  exact (writeLimit_loads false s (by decide) (by decide) h).1

theorem towersSet_rest (tv m : Nat) (s : State) : { (towersSet tv m s).1 with regs := s.regs } = s ∧
    (∀ o, (∀ i, i < 16 → o ≠ thmBase + 0x40 + 4 * i) → rget (towersSet tv m s).1 o = rget s o) ∧
      (tv = 0 → towersSet tv m s = (s, false)) := by
  rw [towersSet]
  split
  · exact ⟨rfl, fun _ _ => rfl, fun _ => rfl⟩
  · next htv =>
    obtain ⟨hregs, hrest⟩ := towersUpTo_rest m tv s 16
    exact ⟨hregs, hrest, fun h => absurd h htv⟩

theorem towersSet_loads {tv m n : Nat} (s : State) (h0 : tv ≠ 0) (h : tv < 512) (hn : n < 16) (hm : bitAt m n = true) :
    wFld (rget (towersSet tv m s).1 (thmBase + 0x40 + 4 * n)) 8 0 = max 40 (min tv (wFld (rget s thmBase) 15 0)) := by
  rw [towersSet, if_neg h0]
  exact towersUpTo_loads h s 16 n hn hm

/-- The limits that SET_LIMITS asks for. -/
def limitsSet (k : Pkt) (s : State) : State :=
  (towersSet (payAt k.bytes 2 2) (payAt k.bytes 4 2) (pkgSet (payAt k.bytes 0 2) s).1).1

theorem exec_setLimits {w : Fin 128} {k : Pkt} {s : State} (h : admitted w 0x0003 (fun b => payNZ b 6 10) k s) :
    ∃ r, exec (.setLimits w) s = .next (complete k.id 0 r 0 (limitsSet k (startPkt k s))) := by
  have hexec : exec (.setLimits w) s = execSetLimits w s := by rw [exec]
  rw [hexec, execSetLimits, runCmd_admitted h]
  exact ⟨_, rfl⟩

theorem setLimits_completes {w : Fin 128} {k : Pkt} {s : State} (h : admitted w 0x0003 (fun b => payNZ b 6 10) k s) :
    ∃ u r, exec (.setLimits w) s = .next (complete k.id 0 r 0 u) ∧ { u with regs := s.regs } = startPkt k s ∧
      (payAt k.bytes 0 2 ≠ 0 → payAt k.bytes 0 2 < 8192 → wFld (rget u (thmBase + 4)) 12 0 =
        max 1200 (min (payAt k.bytes 0 2) (wFld (rget s thmBase) 31 16))) ∧
      (payAt k.bytes 2 2 ≠ 0 → payAt k.bytes 2 2 < 512 → ∀ n, n < 16 → bitAt (payAt k.bytes 4 2) n = true →
        wFld (rget u (thmBase + 0x40 + 4 * n)) 8 0 = max 40 (min (payAt k.bytes 2 2) (wFld (rget s thmBase) 15 0))) ∧
      (payAt k.bytes 0 2 = 0 → rget u (thmBase + 4) = rget s (thmBase + 4)) ∧
      (payAt k.bytes 2 2 = 0 → ∀ n, n < 16 → rget u (thmBase + 0x40 + 4 * n) = rget s (thmBase + 0x40 + 4 * n)) := by
  obtain ⟨r, hexec⟩ := exec_setLimits h
  have hstart := rget_startPkt k s
  have hregs : (startPkt k s).regs = s.regs := (only_startPkt k s).regs rfl
  rw [limitsSet] at hexec
  generalize startPkt k s = u at hexec hstart hregs
  obtain ⟨hpframe, hprest, hpnone⟩ := pkgSet_rest (payAt k.bytes 0 2) u
  have hpload := pkgSet_loads (pk := payAt k.bytes 0 2) u
  generalize pkgSet (payAt k.bytes 0 2) u = v at hexec hpframe hprest hpnone hpload
  obtain ⟨htframe, htrest, htnone⟩ := towersSet_rest (payAt k.bytes 2 2) (payAt k.bytes 4 2) v.1
  refine ⟨_, r, hexec, ?_, fun h0 hlt => ?_, fun h0 hlt n hn hm => ?_, fun h0 => ?_, fun h0 n hn => ?_⟩
  · rw [← hregs, ← hpframe]
    exact congrArg (fun x : State => { x with regs := u.regs }) htframe
  · rw [htrest _ fun i _ => by omega, ← hstart]
    exact hpload h0 hlt
  · rw [towersSet_loads v.1 h0 hlt hn hm, hprest _ (by omega), hstart]
  · rw [htrest _ fun i _ => by omega, hpnone h0, hstart]
  · rw [htnone h0]
    exact (hprest _ (by omega)).trans (hstart _)

/-! ## DEVICE_RESET -/

/-- What a reset of the device leaves: the stacks' contents, the host's link in time, and what is queued. -/
theorem deviceReset_fields (s : State) : (deviceReset s).parts = [] ∧ (deviceReset s).wins = [] ∧ (deviceReset s).cores = [] ∧
    (deviceReset s).hubs = [] ∧ (deviceReset s).pending = s.pending ∧ (deviceReset s).t1 = s.t1 ∧ (deviceReset s).t2 = s.t2 ∧
    (deviceReset s).ns = s.ns := by
  rw [deviceReset]
  generalize wFld (rget s 0x48) 30 30 = b
  rw [rupd_parts, rupd_wins, rupd_cores, rupd_hubs, rupd_pending, rupd_t1, rupd_t2, rupd_ns]
  exact ⟨rfl, rfl, rfl, rfl, rfl, rfl, rfl, rfl⟩

theorem startPkt_rest (k : Pkt) (s : State) : (startPkt k s).pending = s.pending ∧ (startPkt k s).t1 = s.t1 ∧
    (startPkt k s).t2 = s.t2 ∧ (startPkt k s).ns = s.ns :=
  ⟨(only_startPkt k s).pending rfl, (only_startPkt k s).t1 rfl, (only_startPkt k s).t2 rfl, (only_startPkt k s).ns rfl⟩

theorem exec_deviceReset {w : Fin 128} {k : Pkt} {s : State}
    (h : admitted w 0x0002 (fun b => payAt b 0 1 / 4 != 0 || payNZ b 1 7) k s) : exec (.deviceReset w) s = .next
      (if 1 < payAt k.bytes 0 1 then complete k.id 0x0102 0 0 (startPkt k s)
      else startBegin (payAt k.bytes 0 1 = 1) (deviceReset (startPkt k s))) := by
  have hexec : exec (.deviceReset w) s = execDeviceReset w s := by rw [exec]
  rw [hexec, execDeviceReset, runCmd_admitted h]

theorem deviceReset_restarts {w : Fin 128} {k : Pkt} {s : State}
    (h : admitted w 0x0002 (fun b => payAt b 0 1 / 4 != 0 || payNZ b 1 7) k s) :
    (payAt k.bytes 0 1 ≤ 1 → ∃ t, exec (.deviceReset w) s = .next t ∧ t.boot.next = some 0 ∧ t.stage = 0 ∧
      t.booted = false ∧ t.fatal = false ∧ t.faultN = false ∧ t.parts = [] ∧ t.wins = [] ∧ t.cores = [] ∧ t.hubs = [] ∧
      t.pending = s.pending ∧ t.t1 = s.t1 ∧ t.t2 = s.t2 ∧ t.ns = s.ns ∧
      (payAt k.bytes 0 1 = 1 → t.boot.full = true)) ∧
    (1 < payAt k.bytes 0 1 → exec (.deviceReset w) s = .next (complete k.id 0x0102 0 0 (startPkt k s))) := by
  rw [exec_deviceReset h]
  refine ⟨fun hle => ?_, fun hlt => by rw [if_pos hlt]⟩
  rw [if_neg (by omega)]
  obtain ⟨hpend, ht1, ht2, hns⟩ := startPkt_rest k s
  obtain ⟨hparts, hwins, hcores, hhubs, hpend', ht1', ht2', hns'⟩ := deviceReset_fields (startPkt k s)
  generalize deviceReset (startPkt k s) = u at hparts hwins hcores hhubs hpend' ht1' ht2' hns'
  exact ⟨_, rfl, rfl, rfl, rfl, rfl, rfl, hparts, hwins, hcores, hhubs, hpend'.trans hpend, ht1'.trans ht1, ht2'.trans ht2,
    hns'.trans hns, fun h1 => by simp [startBegin, h1]⟩

end Sys2Proof.Machine

open Sys2Proof.Machine

/-- Settles O38: the status of the device and of a partition, its limits, and its restart. -/
theorem deviceCommands : Obligations.DeviceCommands :=
  ⟨completes_of_body (body := fun k s => complete k.id 0 (deviceStatus s) 0 s) (fun _ _ => by rw [exec, execDeviceStatus]) fun _ _ _ => rfl,
    completes_of_body (fun _ _ => by rw [exec, execPartQuery]) fun _ _ _ => rfl,
    fun _ _ _ => setLimits_completes, fun _ _ _ => deviceReset_restarts⟩
end

section
/-! Creating, locking, releasing and readmitting a partition (O39). -/

namespace Sys2Proof.Machine

/-! ## Registers written in turn -/

theorem rget_foldl_rset_other {α : Type} {key : α → Nat} {val : α → Word} {o : Nat} (l : List α) (s : State)
    (h : ∀ a ∈ l, o ≠ key a) : rget (l.foldl (fun s a => rset (key a) (val a) s) s) o = rget s o :=
  List.foldlRecOn l _ (motive := fun t => rget t o = rget s o) rfl fun t ht a ha => by
    rw [rget_rset_other _ _ (h a ha), ht]

theorem only_foldl_rset {α : Type} {key : α → Nat} {val : α → Word} (l : List α) (s : State) :
    Only F.regs s (l.foldl (fun s a => rset (key a) (val a) s) s) :=
  only_foldl (φ := F.regs) (fun _ _ h => only_rset (φ := F.regs) rfl h _ _) (Only.refl _ _)

/-! ## The bounds entry -/

theorem boundsKey_inj (p a b : Nat) : boundsKey p a = boundsKey p b ↔ a = b := by
  rw [boundsKey, boundsKey]
  omega

theorem only_writeBounds (p mask b0 l0 b1 l1 : Nat) (s : State) : Only F.regs s (writeBounds p mask b0 l0 b1 l1 s) := by
  unfold writeBounds
  exact only_rset (φ := F.regs) rfl (only_rset (φ := F.regs) rfl (only_rset (φ := F.regs) rfl (only_rset (φ := F.regs) rfl (only_rset (φ := F.regs) rfl (only_rset (φ := F.regs) rfl (only_rset (φ := F.regs) rfl
    (Only.refl _ _) _ _) _ _) _ _) _ _) _ _) _ _) _ _

/-- The bounds entry of partition `p` holds a mask and two windows, and is valid. -/
def boundsHold (p mask b0 l0 b1 l1 : Nat) (s : State) : Prop :=
  rget s (boundsKey p 0) = BitVec.ofNat 32 (mask % 2 ^ 32) ∧ rget s (boundsKey p 4) = BitVec.ofNat 32 (mask / 2 ^ 32) ∧
    rget s (boundsKey p 8) = BitVec.ofNat 32 b0 ∧ rget s (boundsKey p 0xC) = BitVec.ofNat 32 l0 ∧
    rget s (boundsKey p 0x10) = BitVec.ofNat 32 b1 ∧ rget s (boundsKey p 0x14) = BitVec.ofNat 32 l1 ∧
    rget s (boundsKey p 0x18) = BitVec.ofNat 32 (2 ^ 31)

theorem writeBounds_holds (p mask b0 l0 b1 l1 : Nat) (s : State) :
    boundsHold p mask b0 l0 b1 l1 (writeBounds p mask b0 l0 b1 l1 s) := by
  simp only [boundsHold, writeBounds, rget_rset, boundsKey_inj]
  exact ⟨rfl, rfl, rfl, rfl, rfl, rfl, rfl⟩

theorem boundsHold_of_rget {p mask b0 l0 b1 l1 : Nat} {s t : State} (h : boundsHold p mask b0 l0 b1 l1 s)
    (k : ∀ o, o < 0x20 → rget t (boundsKey p o) = rget s (boundsKey p o)) : boundsHold p mask b0 l0 b1 l1 t := by
  obtain ⟨h0, h4, h8, hC, h10, h14, h18⟩ := h
  exact ⟨(k 0 (by decide)).trans h0, (k 4 (by decide)).trans h4, (k 8 (by decide)).trans h8, (k 0xC (by decide)).trans hC,
    (k 0x10 (by decide)).trans h10, (k 0x14 (by decide)).trans h14, (k 0x18 (by decide)).trans h18⟩

/-! ## The cores of a partition -/

theorem partCores_lt {s : State} {p c : Nat} (hmap : ∀ e ∈ s.map.core, e.1 < 4352) (h : c ∈ partCores s p) : c < 4352 := by
  rw [partCores, List.mem_flatMap] at h
  obtain ⟨t, _, h⟩ := h
  obtain ⟨l, _, h⟩ := List.mem_flatMap.1 h
  obtain ⟨k, _, h⟩ := List.mem_filterMap.1 h
  split at h
  · obtain ⟨x, _, hkey⟩ := Option.bind_eq_some_iff.mp h
    obtain ⟨e, he, rfl⟩ := mem_of_keyOf hkey
    exact hmap e he
  · cases h

theorem otKey_below_bounds {c : Nat} (h : c < 4352) (p o : Nat) : boundsKey p o ≠ otKey c := by
  rw [boundsKey, hubBase, otKey, cluBase, towerBase, coreClu, coreSite]
  omega

theorem glzKey_below_bounds {p o i : Nat} (hp : p < 64) (hi : i < 16) : boundsKey p o ≠ glzKey p i := by
  rw [boundsKey, glzKey]
  omega

/-! ## PART_CREATE -/

/-- A created partition's entry, before its key. -/
def freshPart (b : List Byte) (s : State) : PartSt :=
  { PartSt.reset with state := 1, mask := createMask b, conf := bitAt (payAt b 27 1) 1, ucnt := bitAt (payAt b 27 1) 0,
                      ide := (pget s (hPart b)).ide, ideSet := (pget s (hPart b)).ideSet, ready := (pget s (hPart b)).ready }

/-- A created partition with its quarter-towers assigned to it. -/
def assigned (b : List Byte) (s : State) : State :=
  assignAll (partClus (pset (hPart b) (freshPart b s) s) (hPart b)) (pset (hPart b) (freshPart b s) s)

/-- A created partition with its bounds entry. -/
def bounded (b : List Byte) (s : State) : State :=
  writeBounds (hPart b) (createMask b) (payAt b 8 4 % 2 ^ 25) (payAt b 12 4 % 2 ^ 25) (payAt b 16 4 % 2 ^ 25)
    (payAt b 20 4 % 2 ^ 25) (assigned b s)

/-- A created partition with the weights of its cores, and its counts of glazed pages at zero. -/
def weighted (b : List Byte) (s : State) : State :=
  [0, 4, 8, 0xC].foldl (fun s o => rset (glzKey (hPart b) o) 0 s) ((partCores (bounded b s) (hPart b)).foldl
    (fun s c => rset (otKey c) (BitVec.ofNat 32 (otWord (payAt b 24 1) (payAt b 25 1) (payAt b 26 1 % 4))) s) (bounded b s))

theorem createPart_eq (b : List Byte) (s : State) : createPart b s =
    pupd (hPart b) (fun q => { q with glz := { GlzSt.reset with key0 := some (takeFree (weighted b s)).1 } })
      (takeFree (weighted b s)).2 := rfl

theorem weighted_parts (b : List Byte) (s : State) : (weighted b s).parts = (pset (hPart b) (freshPart b s) s).parts := by
  rw [weighted, (only_foldl_rset _ _).parts rfl, (only_foldl_rset _ _).parts rfl, bounded, (only_writeBounds _ _ _ _ _ _ _).parts rfl,
    assigned, (only_assignAll (φ := F.regs ||| F.cores ||| F.cols ||| F.spWr ||| F.csWr ||| F.ctrs) rfl (Only.refl _ _) _).parts rfl]

theorem bounded_map (b : List Byte) (s : State) : (bounded b s).map = s.map := by
  rw [bounded, (only_writeBounds _ _ _ _ _ _ _).map rfl, assigned,
    (only_assignAll (φ := F.regs ||| F.cores ||| F.cols ||| F.spWr ||| F.csWr ||| F.ctrs) rfl (Only.refl _ _) _).map rfl]
  rfl

theorem weighted_bounds {b : List Byte} {s : State} (hmap : ∀ e ∈ s.map.core, e.1 < 4352) (hp : hPart b < 64) :
    boundsHold (hPart b) (createMask b) (payAt b 8 4 % 2 ^ 25) (payAt b 12 4 % 2 ^ 25) (payAt b 16 4 % 2 ^ 25)
      (payAt b 20 4 % 2 ^ 25) (weighted b s) := by
  refine boundsHold_of_rget (s := bounded b s) (writeBounds_holds _ _ _ _ _ _ _) fun o _ => ?_
  rw [← bounded_map b s] at hmap
  rw [weighted, rget_foldl_rset_other (key := glzKey (hPart b)) (val := fun _ => 0) _ _ fun i hi => ?_,
    rget_foldl_rset_other (key := otKey) _ _ fun c hc => otKey_below_bounds (partCores_lt hmap hc) _ _]
  refine glzKey_below_bounds hp ?_
  simp only [List.mem_cons, List.not_mem_nil, or_false] at hi
  omega

theorem createPart_entry {b : List Byte} {s : State} (hmap : ∀ e ∈ s.map.core, e.1 < 4352) (hp : hPart b < 64) :
    let t := createPart b s
    let p := hPart b
    (pget t p).state = 1 ∧ (pget t p).mask = createMask b ∧ (pget t p).dir = none ∧ (pget t p).tdi = 0 ∧
    (pget t p).conf = bitAt (payAt b 27 1) 1 ∧ (pget t p).ucnt = bitAt (payAt b 27 1) 0 ∧
    (∀ j, j ≠ p → pget t j = pget s j) ∧
    rget t (boundsKey p 0) = BitVec.ofNat 32 (createMask b % 2 ^ 32) ∧
    rget t (boundsKey p 4) = BitVec.ofNat 32 (createMask b / 2 ^ 32) ∧
    rget t (boundsKey p 8) = BitVec.ofNat 32 (payAt b 8 4 % 2 ^ 25) ∧
    rget t (boundsKey p 0xC) = BitVec.ofNat 32 (payAt b 12 4 % 2 ^ 25) ∧
    rget t (boundsKey p 0x10) = BitVec.ofNat 32 (payAt b 16 4 % 2 ^ 25) ∧
    rget t (boundsKey p 0x14) = BitVec.ofNat 32 (payAt b 20 4 % 2 ^ 25) ∧
    wBit (rget t (boundsKey p 0x18)) 31 = true := by
  have hparts := weighted_parts b s
  obtain ⟨h0, h4, h8, hC, h10, h14, h18⟩ := weighted_bounds hmap hp
  intro t p
  obtain ⟨u, hu⟩ : ∃ u, u = weighted b s := ⟨_, rfl⟩
  have ht : t = pupd p (fun q => { q with glz := { GlzSt.reset with key0 := some (takeFree u).1 } }) (takeFree u).2 := by
    rw [hu]
    exact createPart_eq b s
  rw [← hu] at hparts h0 h4 h8 hC h10 h14 h18
  have hpart (j : Nat) : pget (takeFree u).2 j = pget (pset p (freshPart b s) s) j := by
    rw [pget, pget, ← hparts]
    rfl
  have hget : pget t p = { freshPart b s with glz := { GlzSt.reset with key0 := some (takeFree u).1 } } := by
    rw [ht, pget_pupd_same, hpart, pget_pset_same]
  have hreg (o : Nat) : rget t o = rget u o := by
    rw [ht]
    rfl
  rw [hget]
  refine ⟨rfl, rfl, rfl, rfl, rfl, rfl, fun j hj => ?_, (hreg _).trans h0, (hreg _).trans h4, (hreg _).trans h8, (hreg _).trans hC,
    (hreg _).trans h10, (hreg _).trans h14, ?_⟩
  · rw [ht, pupd, pget_pset_other _ _ hj, hpart, pget_pset_other _ _ hj]
  · rw [hreg, h18]
    decide

/-! ## PART_RELEASE -/

theorem pget_complete (id status result detail p : Nat) (s : State) : pget (complete id status result detail s) p = pget s p := by
  rw [pget, pget, (only_complete (φ := F.regs ||| F.wins ||| F.hostOut) rfl (Only.refl _ _) _ _ _ _).parts rfl]

/-- What a partition keeps once it is gone. -/
def gonePart (q : PartSt) : PartSt := { PartSt.reset with ide := q.ide, ideSet := q.ideSet, ready := q.ready }

/-- What is sent once a partition is gone: the answer to STOP_INTERFACE and the completion of PART_RELEASE. -/
def goneReply (q : PartSt) (s : State) : State :=
  let s := if q.stopReq then tdispSend 0x07 [] s else s
  match q.relPkt with
  | some id => complete id 0 0 0 s
  | none => s

theorem goneReply_part (q : PartSt) (p : Nat) (s : State) : pget (goneReply q s) p = pget s p := by
  rw [goneReply]
  have hsent : pget (if q.stopReq then tdispSend 0x07 [] s else s) p = pget s p := by
    rw [apply_ite (fun x : State => pget x p)]
    exact ite_self _
  generalize (if q.stopReq then tdispSend 0x07 [] s else s) = v at hsent
  split
  · rw [pget_complete, hsent]
  · exact hsent

/-- A releasing partition whose memory is zero is gone. -/
theorem zeroCheck_releasing {p : Nat} {s : State} (h : (pget s p).state = 3) : zeroCheck p s = s ∨
    ∃ v, zeroCheck p s = goneReply (pget s p) (pset p (gonePart (pget s p)) v) := by
  by_cases hleft : (!(pget s p).zeroLeft.isEmpty || !((pget s p).state = 3 || (pget s p).tdi = 3)) = true
  · exact .inl (if_pos hleft)
  · exact .inr ⟨_, (if_neg hleft).trans (if_pos h)⟩

theorem zeroCheck_state {p : Nat} {s : State} (h : (pget s p).state = 3) :
    (pget (zeroCheck p s) p).state = 3 ∨ (pget (zeroCheck p s) p).state = 0 := by
  rcases zeroCheck_releasing h with heq | ⟨v, heq⟩
  · rw [heq]
    exact .inl h
  · rw [heq, goneReply_part, pget_pset_same]
    exact .inr rfl

theorem releasePart_state (p id : Nat) (s : State) :
    (pget (releasePart p id s) p).state = 3 ∨ (pget (releasePart p id s) p).state = 0 := by
  rw [releasePart]
  refine zeroCheck_state ?_
  rw [pget_pupd_same]

theorem partRelease_releases {w : Fin 128} {k : Pkt} {s : State}
    (h : admitted w 0x0102 (fun b => payAt b 0 1 / 2 != 0 || payNZ b 1 7) k s) :
    (bitAt (payAt k.bytes 0 1) 0 = true ∨ (launchesOf (startPkt k s) (hPart k.bytes) = 0 ∧
      (pget s (hPart k.bytes)).step = none) →
      ∃ t, exec (.partRelease w) s = .next t ∧ t = releasePart (hPart k.bytes) k.id (startPkt k s) ∧
        ((pget t (hPart k.bytes)).state = 3 ∨ (pget t (hPart k.bytes)).state = 0)) ∧
    (bitAt (payAt k.bytes 0 1) 0 = false → launchesOf (startPkt k s) (hPart k.bytes) ≠ 0 →
      exec (.partRelease w) s = .next (complete k.id 0x0304 0 0 (startPkt k s))) := by
  have hexec : exec (.partRelease w) s = execPartRelease w s := by rw [exec]
  rw [hexec, execPartRelease, runCmd_admitted h]
  refine ⟨fun hfree => ⟨_, congrArg Host.Outcome.next (if_neg ?_), rfl, releasePart_state _ _ _⟩, fun hbit hbusy => ?_⟩
  · rw [pget_startPkt]
    rcases hfree with hbit | ⟨hnone, hstep⟩
    · simp [hbit]
    · simp [hnone, hstep]
  · exact congrArg Host.Outcome.next (if_pos (by simp [hbit, hbusy]))

/-! ## PART_CREATE, PART_LOCK and PART_READMIT -/

theorem partCreate_completes : completes .partCreate 0x0101 (fun b => payAt b 26 1 / 4 != 0 || payAt b 27 1 / 4 != 0 ||
      payNZ b 28 4 || [8, 12, 16, 20].any (fun o => payAt b o 4 / 2 ^ 25 != 0)) (fun k u => createStatus u k.bytes = 0)
    (fun k u => (partCores (createPart k.bytes u) (hPart k.bytes)).length) (fun k u => createPart k.bytes u) :=
  completes_of_body (fun _ _ => by rw [exec, execPartCreate]) fun _ _ h => if_neg (not_not.2 h)

theorem partLock_locks : completes .partLock 0x0103 (fun b => payNZ b 0 8)
    (fun k u => (pget u (hPart k.bytes)).state = 1 ∧ (pget u (hPart k.bytes)).conf = false) (fun _ _ => 0)
    (fun k u => pset (hPart k.bytes) { pget u (hPart k.bytes) with state := 2 } u) :=
  completes_of_body (fun _ _ => by rw [exec, execPartLock]) fun _ _ ⟨hstate, hconf⟩ =>
    (if_neg (not_not.2 hstate)).trans (if_neg (by simp [hconf]))

theorem partLock_not_created : refuses .partLock 0x0103 (fun b => payNZ b 0 8)
    (fun k u => (pget u (hPart k.bytes)).state ≠ 1) 0x0304 :=
  refuses_of_body (fun _ _ => by rw [exec, execPartLock]) fun _ _ h => if_pos h

theorem partLock_confidential : refuses .partLock 0x0103 (fun b => payNZ b 0 8)
    (fun k u => (pget u (hPart k.bytes)).state = 1 ∧ (pget u (hPart k.bytes)).conf = true) 0x0403 :=
  refuses_of_body (fun _ _ => by rw [exec, execPartLock]) fun _ _ ⟨hstate, hconf⟩ =>
    (if_neg (not_not.2 hstate)).trans (if_pos hconf)

theorem partReadmit_readmits : completes .partReadmit 0x0105 (fun b => payAt b 0 1 / 16 != 0 || payNZ b 1 7)
    (fun k u => (pget u (hPart k.bytes)).state = 4 ∧
      ((pget u (hPart k.bytes)).conf = false ∨ (pget u (hPart k.bytes)).tdi ≠ 3) ∧
      clusOn u (hPart k.bytes) (payAt k.bytes 0 1) ≠ [] ∧ maskMapped u (pget u (hPart k.bytes)).mask = true)
    (fun k u => (partCores (pset (hPart k.bytes) { pget u (hPart k.bytes) with state := 1, model := none }
      (assignAll (clusOn u (hPart k.bytes) (payAt k.bytes 0 1)) u)) (hPart k.bytes)).length)
    (fun k u => pset (hPart k.bytes) { pget u (hPart k.bytes) with state := 1, model := none }
      (assignAll (clusOn u (hPart k.bytes) (payAt k.bytes 0 1)) u)) :=
  completes_of_body (fun _ _ => by rw [exec, execPartReadmit]) fun _ _ ⟨hstate, hconf, hclus, hmask⟩ =>
    ((if_neg (not_not.2 hstate)).trans (if_neg (by rcases hconf with h | h <;> simp [h]))).trans
      (if_neg (by simp [hclus, hmask]))

theorem partReadmit_not_faulted : refuses .partReadmit 0x0105 (fun b => payAt b 0 1 / 16 != 0 || payNZ b 1 7)
    (fun k u => (pget u (hPart k.bytes)).state ≠ 4) 0x0304 :=
  refuses_of_body (fun _ _ => by rw [exec, execPartReadmit]) fun _ _ h => if_pos h

end Sys2Proof.Machine

open Sys2Proof.Machine

/-- Settles O39: PART_CREATE with its bounds entry, PART_LOCK, PART_RELEASE and PART_READMIT. -/
theorem partitionCommands : Obligations.PartitionCommands :=
  ⟨partCreate_completes, fun _ _ => createPart_entry, partLock_locks, partLock_not_created, partLock_confidential,
    fun _ _ _ => partRelease_releases, partReadmit_readmits, partReadmit_not_faulted⟩
end

section
/-! MEM_WRITE, DMA_IN and DMA_OUT (O40). -/

namespace Sys2Proof.Machine

/-! ## MEM_WRITE -/

theorem memWrite_writes : completes .memWrite 0x0201 (fun b => payNZ b 12 4)
    (fun k u => 0 < payAt k.bytes 8 4 ∧ payAt k.bytes 8 4 ≤ 4040 ∧
      (writeBlocks k.bytes (payAt k.bytes 0 8) 0 (payAt k.bytes 8 4 / 64 + 2)
        ((k.bytes.drop 48).take (payAt k.bytes 8 4)) u).1 = none) (fun _ _ => 0)
    (fun k u => (writeBlocks k.bytes (payAt k.bytes 0 8) 0 (payAt k.bytes 8 4 / 64 + 2)
      ((k.bytes.drop 48).take (payAt k.bytes 8 4)) u).2) :=
  completes_of_body (fun _ _ => by rw [exec, execMemWrite]) fun k u ⟨hpos, hle, hok⟩ => by
    rw [memWriteCmd]
    rw [if_neg (by simp; omega)]
    generalize writeBlocks k.bytes (payAt k.bytes 0 8) 0 (payAt k.bytes 8 4 / 64 + 2)
      ((k.bytes.drop 48).take (payAt k.bytes 8 4)) u = r at hok
    obtain ⟨bad, v⟩ := r
    obtain rfl : bad = none := hok
    rfl

theorem memWrite_length : refuses .memWrite 0x0201 (fun b => payNZ b 12 4)
    (fun k _ => payAt k.bytes 8 4 = 0 ∨ 4040 < payAt k.bytes 8 4) 0x0107 :=
  refuses_of_body (body := memWriteCmd) (fun _ _ => by rw [exec, execMemWrite]) fun _ _ h => if_pos (by simpa using h)

/-! ## DMA_IN -/

/-- State `t` asks the host for the bytes that `s` has not asked for: `len` bytes in parts of at most 4 096. -/
def readsAsked (len : Nat) (s t : State) : Prop :=
  ∃ rs, t.reads = s.reads ++ rs ∧ rs.length = ceilDiv len 4096 ∧ (∀ r ∈ rs, r.len ≤ 4096) ∧
    (rs.map (fun r => r.len)).sum = len ∧
    { t with reads := s.reads, nextTag := s.nextTag, hostOut := s.hostOut } = s

theorem readsAsked_cons {fn addr n len : Nat} {x : ReadUse} {s t : State} (h0 : n ≠ 0) (hn : n ≤ 4096) (hlen : len = 0 ∨ n = 4096)
    (h : readsAsked len (hostRead fn addr n x s) t) : readsAsked (n + len) s t := by
  obtain ⟨rs, hreads, hcount, hle, hsum, hframe⟩ := h
  refine ⟨{ tag := s.nextTag, addr := addr, len := n, use := x } :: rs, ?_, ?_, ?_, ?_, ?_⟩
  · rw [hreads]
    exact List.append_assoc _ [_] _
  · rw [List.length_cons, hcount, ceilDiv, ceilDiv]
    rcases hlen with h | h <;> omega
  · exact List.forall_mem_cons.2 ⟨hn, hle⟩
  · rw [List.map_cons, List.sum_cons, hsum]
  · exact congrArg (fun u : State => { u with reads := s.reads, nextTag := s.nextTag, hostOut := s.hostOut }) hframe

theorem dmaReads_ask {fn pkt : Nat} (n : Nat) : ∀ (addr dpa len : Nat) (s : State), len ≤ 4096 * n →
    readsAsked len s (dmaReads fn pkt addr dpa n len s) := by
  have hnone (s : State) : readsAsked 0 s s := ⟨[], (List.append_nil _).symm, rfl, nofun, rfl, rfl⟩
  induction n with
  | zero =>
    intro addr dpa len s hlen
    obtain rfl : len = 0 := by omega
    exact hnone s
  | succ n ih =>
    intro addr dpa len s hlen
    rw [dmaReads]
    split
    · next h0 =>
      subst h0
      exact hnone s
    · next h0 =>
      have hrest := ih (addr + 4096) (dpa + 4096) (len - 4096) (hostRead fn addr (min len 4096) (.dmaIn pkt dpa) s) (by omega)
      have hasked := readsAsked_cons (by omega) (by omega) (by omega) hrest
      rwa [show min len 4096 + (len - 4096) = len by omega] at hasked

theorem exec_dmaIn {w : Fin 128} {k : Pkt} {s : State} (h : admitted w 0x0202 (fun b => payNZ b 20 4) k s)
    (h0 : payAt k.bytes 0 8 % 64 = 0) (h1 : payAt k.bytes 8 8 % 64 = 0) (h2 : payAt k.bytes 16 4 % 64 = 0) :
    exec (.dmaIn w) s = .next (if payAt k.bytes 16 4 = 0 then complete k.id 0 0 0 (startPkt k s) else
      dmaReads (winFn k.win) k.id (payAt k.bytes 0 8) (payAt k.bytes 8 8) (ceilDiv (payAt k.bytes 16 4) 4096) (payAt k.bytes 16 4)
        { startPkt k s with dmas := (startPkt k s).dmas ++
          [{ pkt := k.id, left := ceilDiv (payAt k.bytes 16 4) 4096, bad := none }] }) := by
  have hexec : exec (.dmaIn w) s = execDmaIn w s := by rw [exec]
  rw [hexec, execDmaIn, runCmd_admitted h]
  refine congrArg Host.Outcome.next (if_neg ?_)
  rw [dmaStatus, if_neg (by simp [h0, h1, h2])]
  exact not_not.2 rfl

theorem startPkt_host (k : Pkt) (s : State) : (startPkt k s).reads = s.reads ∧ (startPkt k s).dmas = s.dmas ∧
    (startPkt k s).nextTag = s.nextTag ∧ (startPkt k s).hostOut = s.hostOut := ⟨rfl, rfl, rfl, rfl⟩

theorem dmaIn_asks {w : Fin 128} {k : Pkt} {s : State} (h : admitted w 0x0202 (fun b => payNZ b 20 4) k s)
    (h0 : payAt k.bytes 0 8 % 64 = 0) (h1 : payAt k.bytes 8 8 % 64 = 0) (h2 : payAt k.bytes 16 4 % 64 = 0) :
    ∃ t, exec (.dmaIn w) s = .next t ∧
      (payAt k.bytes 16 4 = 0 → t = complete k.id 0 0 0 (startPkt k s)) ∧
      (payAt k.bytes 16 4 ≠ 0 → t.reads.length = s.reads.length + ceilDiv (payAt k.bytes 16 4) 4096 ∧
        t.dmas = s.dmas ++ [{ pkt := k.id, left := ceilDiv (payAt k.bytes 16 4) 4096, bad := none }] ∧
        { t with reads := s.reads, dmas := s.dmas, nextTag := s.nextTag, hostOut := s.hostOut } = startPkt k s ∧
        (∀ r ∈ t.reads.drop s.reads.length, r.len ≤ 4096) ∧
        ((t.reads.drop s.reads.length).map (fun r => r.len)).sum = payAt k.bytes 16 4) := by
  obtain ⟨hreads0, hdmas0, htag0, hout0⟩ := startPkt_host k s
  refine ⟨_, exec_dmaIn h h0 h1 h2, fun hz => if_pos hz, fun hz => ?_⟩
  rw [if_neg hz]
  generalize startPkt k s = u at hreads0 hdmas0 htag0 hout0
  obtain ⟨v, hv⟩ : ∃ v : State, v = { u with dmas := u.dmas ++
    [{ pkt := k.id, left := ceilDiv (payAt k.bytes 16 4) 4096, bad := none }] } := ⟨_, rfl⟩
  rw [← hv]
  obtain ⟨rs, hreads, hcount, hle, hsum, hframe⟩ := dmaReads_ask (fn := winFn k.win) (pkt := k.id) (ceilDiv (payAt k.bytes 16 4) 4096)
    (payAt k.bytes 0 8) (payAt k.bytes 8 8) (payAt k.bytes 16 4) v (by rw [ceilDiv]; omega)
  generalize dmaReads _ _ _ _ _ _ v = t at hreads hframe
  have hvreads : v.reads = s.reads := by rw [hv, ← hreads0]
  have hdrop : t.reads.drop s.reads.length = rs := by rw [hreads, hvreads, List.drop_left]
  refine ⟨by rw [hreads, hvreads, List.length_append, hcount], ?_, ?_, by rwa [hdrop], by rwa [hdrop]⟩
  · have hdmas := congrArg State.dmas hframe
    refine Eq.trans hdmas ?_
    rw [hv, ← hdmas0]
  · have hrest := congrArg (fun x : State => { x with dmas := s.dmas }) hframe
    rw [hv, ← hreads0, ← hdmas0, ← htag0, ← hout0] at *
    exact hrest

theorem dmaData_last {pkt dpa : Nat} {d : List Byte} {x : DmaSt} {k : Pkt} {s v : State}
    (hx : s.dmas.find? (fun x => x.pkt == pkt) = some x) (hk : findPkt s pkt = some k) (hleft : x.left ≤ 1) (hbad : x.bad = none)
    (hw : writeBlocks k.bytes dpa (dpa - payAt k.bytes 8 8) (d.length / 64 + 2) d s = (none, v)) :
    dmaData pkt dpa d s = complete pkt 0 0 0 { v with dmas := v.dmas.filter (fun y => y.pkt != pkt) } := by
  rw [dmaData, hx, hk]
  simp only [hbad, hw, hleft, Option.isSome_none, Bool.false_eq_true, if_false, if_true]

/-! ## DMA_OUT -/

theorem dmaOut_reads : completes .dmaOut 0x0203 (fun b => payNZ b 20 4)
    (fun k u => dmaStatus k.bytes = 0 ∧ (dmaBlocks k.bytes (payAt k.bytes 8 8) 0 (payAt k.bytes 16 4 / 64) u).2.1 = none)
    (fun _ _ => 0)
    (fun k u => hostPut (winFn k.win) (payAt k.bytes 0 8) (dmaBlocks k.bytes (payAt k.bytes 8 8) 0 (payAt k.bytes 16 4 / 64) u).1
      (dmaBlocks k.bytes (payAt k.bytes 8 8) 0 (payAt k.bytes 16 4 / 64) u).2.2) :=
  completes_of_body (fun _ _ => by rw [exec, execDmaOut]) fun k u ⟨hst, hok⟩ => by
    rw [dmaOutCmd]
    rw [if_neg (not_not.2 hst)]
    generalize dmaBlocks k.bytes (payAt k.bytes 8 8) 0 (payAt k.bytes 16 4 / 64) u = r at hok
    obtain ⟨d, bad, v⟩ := r
    obtain rfl : bad = none := hok
    rfl

theorem dmaOut_alignment : refuses .dmaOut 0x0203 (fun b => payNZ b 20 4) (fun k _ => dmaStatus k.bytes ≠ 0) 0x0106 :=
  refuses_of_body (body := dmaOutCmd) (fun _ _ => by rw [exec, execDmaOut]) fun k u h => by
    have hst : dmaStatus k.bytes = 0x0106 := by
      rw [dmaStatus] at h ⊢
      by_contra hne
      split at h <;> simp_all
    rw [dmaOutCmd]
    rw [if_pos h, hst]

theorem hostPut_writes {fn addr : Nat} {d : List Byte} {s : State} (hlen : d.length ≤ 512) (hne : d ≠ []) :
    hostPut fn addr d s = { s with hostOut := s.hostOut ++ [onStream s fn (.write addr d)] } := by
  have hdone (n : Nat) (u : State) : hostWrite fn (addr + 512) n [] u = u := by
    cases n <;> rfl
  obtain ⟨a, l, rfl⟩ := List.exists_cons_of_ne_nil hne
  rw [hostPut, hostWrite, List.drop_of_length_le hlen, List.take_of_length_le hlen, hdone]
  · rfl
  · exact nofun

end Sys2Proof.Machine

open Sys2Proof.Machine

/-- Settles O40: what MEM_WRITE writes, what DMA_IN asks of the host and writes, and what DMA_OUT sends. -/
theorem hostTransfers : Obligations.HostTransfers :=
  ⟨memWrite_writes, memWrite_length, fun _ _ _ => dmaIn_asks, fun _ _ _ _ _ _ _ => dmaData_last, dmaOut_reads, dmaOut_alignment,
    fun _ _ _ _ => hostPut_writes⟩
end

section
/-! The areas of a partition, its policy and its glaze epoch (O41). -/

namespace Sys2Proof.Machine

theorem Only.sp {m : Nat} {s t : State} (h : Only m s t) (hm : m.testBit 4 = false) : t.sp = s.sp := by
  rw [← h, mix, hm, cond_false]

/-! ## Registers that logging an error leaves

An error record sets pending bits of MSI-X vectors and counts at its cluster; each of these registers stands among the first 256
bytes of its 4 KiB. -/

/-- The registers above the first 256 bytes of each 4 KiB are as before. -/
def upperRegs (s t : State) : Prop := ∀ o, 0x100 ≤ o % 0x1000 → rget t o = rget s o

theorem upperRegs_of_regs {s t : State} (h : t.regs = s.regs) : upperRegs s t := fun o _ => by rw [rget, rget, h]

theorem upperRegs_refl (s : State) : upperRegs s s := fun _ _ => rfl

theorem upperRegs_trans {s t u : State} (h : upperRegs s t) (k : upperRegs t u) : upperRegs s u :=
  fun o ho => (k o ho).trans (h o ho)

theorem upperRegs_ite {c : Prop} [Decidable c] {u s t : State} (h : upperRegs u s) (k : upperRegs u t) :
    upperRegs u (if c then s else t) := by
  split
  · exact h
  · exact k

theorem upperRegs_sendMsix (fn vec : Nat) (s : State) : upperRegs s (sendMsix fn vec s) := by
  rw [sendMsix]
  split
  · exact upperRegs_refl s
  · next hvec =>
    refine upperRegs_ite (fun o ho => rget_rset_other _ _ ?_) (upperRegs_of_regs rfl)
    rw [fnVectors] at hvec
    split
    · rw [if_pos ‹_›] at hvec
      omega
    · rw [if_neg ‹_›] at hvec
      rw [vfKey]
      omega

theorem upperRegs_sumSignal (s : State) : upperRegs s (sumSignal s) := by
  rw [sumSignal]
  exact upperRegs_ite (upperRegs_trans (upperRegs_of_regs rfl) (upperRegs_sendMsix _ _ _)) (upperRegs_of_regs rfl)

theorem upperRegs_telPut (r : TelRec) (s : State) : upperRegs s (telPut r s) := by
  have hput (m n : HostOut) (k : Telem) : upperRegs s (fnSend 0 m { fnSend 0 n s with telem := k }) := upperRegs_of_regs rfl
  rw [telPut]
  exact upperRegs_ite (upperRegs_trans (hput _ _ _) (upperRegs_sumSignal _)) (upperRegs_trans (hput _ _ _) (upperRegs_sendMsix _ _ _))

theorem upperRegs_telEmit (r : TelRec) (s : State) : upperRegs s (telEmit r s) := by
  rw [telEmit]
  exact upperRegs_ite (upperRegs_telPut r s) (upperRegs_ite (upperRegs_ite (upperRegs_of_regs rfl) (upperRegs_refl s))
    (upperRegs_ite (upperRegs_of_regs rfl) (upperRegs_of_regs rfl)))

theorem upperRegs_evSignal (p : Nat) (s : State) : upperRegs s (evSignal p s) := by
  rw [evSignal]
  exact upperRegs_ite (upperRegs_trans (upperRegs_of_regs rfl) (upperRegs_sendMsix _ _ _)) (upperRegs_of_regs rfl)

theorem upperRegs_partEvent (p cls code seq hub : Nat) (s : State) : upperRegs s (partEvent p cls code seq hub s) := by
  rw [partEvent]
  exact upperRegs_ite (upperRegs_trans (upperRegs_telEmit _ s) (upperRegs_evSignal _ _)) (upperRegs_telEmit _ s)

theorem upperRegs_hubSignal (h : Nat) (s : State) : upperRegs s (hubSignal h s) := by
  rw [hubSignal]
  exact upperRegs_ite (upperRegs_trans (upperRegs_of_regs rfl) (upperRegs_sendMsix _ _ _)) (upperRegs_of_regs rfl)

theorem upperRegs_errNotice (e : ErrEv) (s : State) : upperRegs s (errNotice e s) := by
  have hcount (b : Bool) : upperRegs s (tallyHub e.hub 0x0540 1 none (if b then hubSignal e.hub s else s)) :=
    upperRegs_trans (upperRegs_ite (upperRegs_hubSignal _ _) (upperRegs_refl s)) (upperRegs_of_regs (tallyHub_regs _ _ _ _ _))
  rw [errNotice]
  split
  · exact upperRegs_trans (hcount _) (upperRegs_partEvent _ _ _ _ _ _)
  · exact hcount _

theorem upperRegs_enterFatal (s : State) : upperRegs s (enterFatal s) :=
  upperRegs_of_regs ((only_enterFatal (φ := F.cores ||| F.cols ||| F.fatal ||| F.faultN) rfl (Only.refl _ _)).regs rfl)

theorem upperRegs_logErr (e : ErrEv) (s : State) : upperRegs s (logErr e s) := by
  have hset (h : Nat) (v : HubSt) : upperRegs s (hset h v s) := upperRegs_of_regs rfl
  unfold logErr
  dsimp only
  generalize (if (hget s e.hub).lost = true then { e with hub := 0 } else e) = e'
  exact upperRegs_ite (upperRegs_trans (upperRegs_trans (hset _ _) (upperRegs_errNotice _ _)) (upperRegs_enterFatal _))
    (upperRegs_trans (hset _ _) (upperRegs_errNotice _ _))

/-! ## Cluster SRAM -/

theorem upperRegs_cluCount (c : Nat) (f : Word → Word) (s : State) : upperRegs s (cluUpd c 0x4 f s) := fun o ho =>
  rget_rset_other _ _ (by rw [cluBase, towerBase]; omega)

theorem upperRegs_csRead (c b : Nat) (s : State) : upperRegs s (csRead c b s).2 := by
  unfold csRead
  split
  · exact upperRegs_cluCount _ _ _
  · split
    · exact upperRegs_refl s
    · exact upperRegs_trans (upperRegs_cluCount _ _ _) (upperRegs_logErr _ _)
    · exact upperRegs_refl s
    · exact upperRegs_trans (upperRegs_cluCount _ _ _) (upperRegs_logErr _ _)

theorem upperRegs_csWriteIn (c b off : Nat) (v : List Byte) (s : State) : upperRegs s (csWriteIn c b off v s) := by
  have hstore (d chk : List Byte) (u : State) : upperRegs u (csStore c b d chk u) := upperRegs_of_regs rfl
  unfold csWriteIn
  refine upperRegs_ite (hstore _ _ _) (upperRegs_ite (hstore _ _ _) ?_)
  dsimp only
  split
  · exact upperRegs_trans (upperRegs_csRead c b s) (hstore _ _ _)
  · exact upperRegs_trans (upperRegs_csRead c b s) (hstore _ _ _)

theorem upperRegs_csWriteFrom (c n off : Nat) (v : List Byte) (s : State) : upperRegs s (csWriteFrom c n off v s) := by
  induction n generalizing off v s with
  | zero => exact upperRegs_refl s
  | succ n ih =>
    cases v with
    | nil => exact upperRegs_refl s
    | cons b v => exact upperRegs_trans (upperRegs_csWriteIn _ _ _ _ s) (ih _ _ _)

/-- What writing the SRAM of clusters may change: not the registers above the first 256 bytes of each 4 KiB, nor what else is not
of the SRAM or the error records. -/
def onlySrams (s t : State) : Prop := Only F.srams s t ∧ upperRegs s t

theorem onlySrams_trans {s t u : State} (h : onlySrams s t) (k : onlySrams t u) : onlySrams s u :=
  ⟨h.1.trans k.1, upperRegs_trans h.2 k.2⟩

theorem onlySrams_csWriteBytes (c off : Nat) (v : List Byte) (s : State) : onlySrams s (csWriteBytes c off v s) :=
  ⟨only_csWriteBytes (φ := F.srams) rfl (Only.refl _ _) _ _ _, upperRegs_csWriteFrom _ _ _ _ _⟩

theorem onlySrams_csZeroBlks (c b n : Nat) (s : State) : onlySrams s (csZeroBlks c b n s) :=
  ⟨only_with (φ := F.srams) (a := F.csram ||| F.csChk ||| F.csWr) rfl rfl (Only.refl _ _), upperRegs_of_regs rfl⟩

theorem onlySrams_foldl {α : Type} {f : State → α → State} (hf : ∀ s a, onlySrams s (f s a)) (l : List α) (s : State) :
    onlySrams s (l.foldl f s) :=
  List.foldlRecOn l f (motive := fun t => onlySrams s t) ⟨Only.refl _ _, upperRegs_refl s⟩ fun t ht a _ => onlySrams_trans ht (hf t a)

/-! ## Registers of clusters -/

theorem cluReg_cluSet {k i c o : Nat} (w : Word) (s : State) (hi : i < 0x1000) (ho : o < 0x1000) :
    cluReg (cluSet k i w s) c o = if c = k ∧ o = i then w else cluReg s c o := by
  have hkey : cluBase c + o = cluBase k + i ↔ c = k ∧ o = i := by
    rw [cluBase, cluBase, towerBase, towerBase]
    omega
  rw [cluReg, cluSet, rget_rset]
  simp only [hkey]
  rfl

theorem cluReg_cluSet_same (k i c : Nat) (w : Word) (s : State) (hi : i < 0x1000) :
    cluReg (cluSet k i w s) c i = if c = k then w else cluReg s c i := by
  rw [cluReg_cluSet _ _ hi hi]
  simp only [and_true]

theorem cluReg_cluSet_other {k i c o : Nat} (w : Word) (s : State) (hi : i < 0x1000) (ho : o < 0x1000) (hne : o ≠ i) :
    cluReg (cluSet k i w s) c o = cluReg s c o := by
  rw [cluReg_cluSet _ _ hi ho, if_neg fun h => hne h.2]

theorem cluReg_of_upperRegs {s t : State} (h : upperRegs s t) (c o : Nat) (ho : o < 0x1000) (hlo : 0x100 ≤ o) :
    cluReg t c o = cluReg s c o := h _ (by rw [cluBase, towerBase]; omega)

/-- An operation repeated over a list establishes for every element what it establishes for one and never breaks. -/
theorem foldl_establishes {α β : Type} {P : β → State → Prop} {key : α → β} {f : State → α → State}
    (hone : ∀ s a, P (key a) (f s a)) (hkeep : ∀ s a c, P c s → P c (f s a)) (l : List α) (s : State) :
    ∀ a ∈ l, P (key a) (l.foldl f s) := by
  induction l generalizing s with
  | nil => exact nofun
  | cons b l ih =>
    intro a ha
    rcases List.mem_cons.1 ha with rfl | hmem
    · exact List.foldlRecOn l f (motive := fun t => P (key a) t) (hone s a) fun t ht x _ => hkeep t x _ ht
    · exact ih _ a hmem

theorem cluReg_kvAll_other {p o o' : Nat} (f : Word → Word) (s : State) (c : Nat) (ho : o < 0x1000) (ho' : o' < 0x1000) (hne : o' ≠ o) :
    cluReg (kvAll p o f s) c o' = cluReg s c o' :=
  List.foldlRecOn _ _ (motive := fun t => cluReg t c o' = cluReg s c o') rfl fun t ht a _ => by
    have hset : cluUpd a o f t = cluSet a o (f (cluReg t a o)) t := rfl
    rw [hset, cluReg_cluSet _ _ ho ho', if_neg fun h => hne h.2, ht]

theorem cluReg_kvAll {p o c : Nat} (w : Word) (s : State) (ho : o < 0x1000) (hc : c ∈ partClus s p) :
    cluReg (kvAll p o (fun _ => w) s) c o = w := by
  refine foldl_establishes (P := fun c t => cluReg t c o = w) (key := fun c => c) (f := fun s k => cluUpd k o (fun _ => w) s)
    (fun t a => ?_) (fun t a b h => ?_) (partClus s p) s c hc
  · exact (cluReg_cluSet w t ho ho).trans (if_pos ⟨rfl, rfl⟩)
  · have hset : cluUpd a o (fun _ => w) t = cluSet a o w t := rfl
    rw [hset, cluReg_cluSet _ _ ho ho, h, ite_self]

theorem partClus_congr {s t : State} {p : Nat} (hm : (pget t p).mask = (pget s p).mask) (hmap : t.map = s.map) :
    partClus t p = partClus s p := by
  simp only [partClus, hm, clPhys, twPhys, hmap]

theorem partClus_startPkt (k : Pkt) (s : State) (p : Nat) : partClus (startPkt k s) p = partClus s p :=
  partClus_congr (by rw [pget_startPkt]) ((only_startPkt k s).map rfl)

theorem cluReg_startPkt (k : Pkt) (s : State) (c o : Nat) : cluReg (startPkt k s) c o = cluReg s c o := rget_startPkt k s _

/-! ## DIR_REGISTER and DIR_WITHDRAW -/

/-- What initialising a directory may change. -/
def F.dirInit : Nat := F.srams ||| F.regs

theorem only_dirInit (n : Nat) (d : DirSt) (ws : List Nat) (kk k : Nat) (s : State) : Only F.dirInit s (dirInit n d ws kk k s) := by
  unfold dirInit
  have hbytes (off : Nat) (v : List Byte) {t : State} (h : Only F.dirInit s t) : Only F.dirInit s (csWriteBytes k off v t) :=
    only_csWriteBytes (φ := F.dirInit) rfl h _ _ _
  have hset (o : Nat) (w : Word) {t : State} (h : Only F.dirInit s t) : Only F.dirInit s (cluSet k o w t) :=
    only_cluSet (φ := F.dirInit) rfl h _ _ _
  exact hset _ _ (hset _ _ (hset _ _ (hset _ _ (hbytes _ _ (hbytes _ _ (hbytes _ _
    ((onlySrams_csZeroBlks _ _ _ s).1.mono rfl)))))))

/-- The directory of cluster `c` starts with its bounds and at generation 0. -/
def dirRegs (d : DirSt) (c : Nat) (s : State) : Prop :=
  cluReg s c 0x100 = BitVec.ofNat 32 (d.limit * 2 ^ 16 + d.base) ∧ cluReg s c 0x108 = BitVec.ofNat 32 d.gen

theorem cluReg_dirInit (n : Nat) (d : DirSt) (ws : List Nat) (kk k c : Nat) (s : State) :
    cluReg (dirInit n d ws kk k s) c 0x100 = (if c = k then BitVec.ofNat 32 (d.limit * 2 ^ 16 + d.base) else cluReg s c 0x100) ∧
    cluReg (dirInit n d ws kk k s) c 0x108 = (if c = k then BitVec.ofNat 32 d.gen else cluReg s c 0x108) := by
  have hbytes (off : Nat) (v : List Byte) {t : State} (h : onlySrams s t) : onlySrams s (csWriteBytes k off v t) :=
    onlySrams_trans h (onlySrams_csWriteBytes _ _ _ _)
  unfold dirInit
  dsimp only
  obtain ⟨u, hu⟩ : ∃ u, u = csWriteBytes k (offBmap d) (bitBytes (poolBlks d) (fun _ => true)) (csWriteBytes k (offFree d)
    (bitBytes (32 * poolFrames d) (fun i => listAt ((List.range (32 * poolFrames d)).map (frameFree s k d)) i false))
      (csWriteBytes k (offHead d) (ws.flatMap (leBytes 8)) (csZeroBlks k d.base (d.limit + 1 - d.base) s))) := ⟨_, rfl⟩
  have hkeep : onlySrams s u := by
    rw [hu]
    exact hbytes _ _ (hbytes _ _ (hbytes _ _ (onlySrams_csZeroBlks _ _ _ s)))
  rw [← hu]
  constructor
  · rw [cluReg_cluSet_other _ _ (by decide) (by decide) (by decide), cluReg_cluSet_other _ _ (by decide) (by decide) (by decide),
      cluReg_cluSet_other _ _ (by decide) (by decide) (by decide), cluReg_cluSet_same _ _ _ _ _ (by decide),
      cluReg_of_upperRegs hkeep.2 c 0x100 (by decide) (by decide)]
  · rw [cluReg_cluSet_other _ _ (by decide) (by decide) (by decide), cluReg_cluSet_same _ _ _ _ _ (by decide),
      cluReg_cluSet_other _ _ (by decide) (by decide) (by decide), cluReg_cluSet_other _ _ (by decide) (by decide) (by decide),
      cluReg_of_upperRegs hkeep.2 c 0x108 (by decide) (by decide)]

/-- The directory started in every cluster of a partition. -/
def dirStarted (d : DirSt) (ws : List Nat) (ks : List Nat) (s : State) : State :=
  ks.zipIdx.foldl (fun s e => dirInit ks.length d ws e.2 e.1 s) s

theorem dirStarted_regs (d : DirSt) (ws ks : List Nat) (s : State) {c : Nat} (hc : c ∈ ks) : dirRegs d c (dirStarted d ws ks s) := by
  have hone (t : State) (e : Nat × Nat) : dirRegs d e.1 (dirInit ks.length d ws e.2 e.1 t) := by
    obtain ⟨h0, h8⟩ := cluReg_dirInit ks.length d ws e.2 e.1 e.1 t
    exact ⟨h0.trans (if_pos rfl), h8.trans (if_pos rfl)⟩
  have hkeep (t : State) (e : Nat × Nat) (c : Nat) (h : dirRegs d c t) : dirRegs d c (dirInit ks.length d ws e.2 e.1 t) := by
    obtain ⟨h0, h8⟩ := cluReg_dirInit ks.length d ws e.2 e.1 c t
    obtain ⟨k0, k8⟩ := h
    exact ⟨h0.trans (by rw [k0, ite_self]), h8.trans (by rw [k8, ite_self])⟩
  rw [← List.zipIdx_map_fst 0 ks, List.mem_map] at hc
  obtain ⟨⟨_, i⟩, hi, rfl⟩ := hc
  exact foldl_establishes (P := dirRegs d) (key := fun e : Nat × Nat => e.1) hone hkeep ks.zipIdx s _ hi

theorem only_dirStarted (d : DirSt) (ws ks : List Nat) (s : State) : Only F.dirInit s (dirStarted d ws ks s) :=
  only_foldl (φ := F.dirInit) (fun _ _ h => h.trans (only_dirInit _ _ _ _ _ _)) (Only.refl _ _)

theorem dirRegister_starts {w : Fin 128} {heads : HeadMap} {k : Pkt} {s : State} (h : admitted w 0x0205 dirResv k s) :
    let p := hPart k.bytes
    (pget s p).dir = none → dirStatus (startPkt k s) p (partClus s p).length (dirArea k.bytes heads.layers) (headWords k.bytes heads.words) = 0 →
    ∃ u, exec (.dirRegister w heads) s = .next (complete k.id 0 (poolBlks (dirArea k.bytes heads.layers)) 0 u) ∧
      (pget u p).dir = some (dirArea k.bytes heads.layers) ∧ (∀ j, j ≠ p → pget u j = pget s j) ∧
      (∀ c ∈ partClus s p, cluReg u c 0x100 = BitVec.ofNat 32 (payAt k.bytes 2 2 * 2 ^ 16 + payAt k.bytes 0 2) ∧
        cluReg u c 0x108 = 0) ∧ u.t1 = s.t1 ∧ u.t2 = s.t2 ∧ u.sp = s.sp := by
  intro p hdir hst
  have hexec : exec (.dirRegister w heads) s = .next (complete k.id 0 (poolBlks (dirArea k.bytes heads.layers)) 0
      (pupd p (fun q => { q with dir := some (dirArea k.bytes heads.layers) })
        (dirStarted (dirArea k.bytes heads.layers) (headWords k.bytes heads.words) (partClus s p) (startPkt k s)))) := by
    have hunfold : exec (.dirRegister w heads) s = execDirRegister w heads s := by rw [exec]
    rw [hunfold, execDirRegister]
    refine (runCmd_admitted h _).trans ?_
    rw [← partClus_startPkt k s] at hst ⊢
    exact congrArg Host.Outcome.next ((if_neg (by rw [pget_startPkt, hdir]; exact Bool.false_ne_true)).trans (if_neg (not_not.2 hst)))
  have honly := ((only_startPkt k s).mono (m := F.dirInit ||| F.wins) rfl).trans
    ((only_dirStarted (dirArea k.bytes heads.layers) (headWords k.bytes heads.words) (partClus s p) (startPkt k s)).mono rfl)
  have hregs (c : Nat) (hc : c ∈ partClus s p) :=
    dirStarted_regs (dirArea k.bytes heads.layers) (headWords k.bytes heads.words) (partClus s p) (startPkt k s) hc
  generalize dirStarted (dirArea k.bytes heads.layers) (headWords k.bytes heads.words) (partClus s p) (startPkt k s) = v at hexec honly hregs
  refine ⟨_, hexec, by rw [pget_pupd_same], fun j hj => ?_, hregs, honly.t1 rfl, honly.t2 rfl, honly.sp rfl⟩
  rw [pupd, pget_pset_other _ _ hj, pget, pget, honly.parts rfl]

theorem dirWithdraw_drops : completes .dirWithdraw 0x0206 noResv
    (fun k u => (pget u (hPart k.bytes)).dir.isSome = true ∧ anySeq (hPart k.bytes) u = false ∧
      launchesOf u (hPart k.bytes) = 0 ∧ (pget u (hPart k.bytes)).step = none) (fun _ _ => 0)
    (fun k u => dirDrop (hPart k.bytes) u) :=
  completes_of_body (fun _ _ => by rw [exec, execDirWithdraw]) fun k u ⟨hdir, hseq, hnone, hstep⟩ =>
    if_neg (by rw [Option.isSome_iff_ne_none] at hdir; simp [hdir, hseq, hnone, hstep])

theorem only_kvAll_regs (p o : Nat) (f : Word → Word) (s : State) : Only F.regs s (kvAll p o f s) :=
  only_kvAll (φ := F.regs) rfl (Only.refl _ _) _ _ _

theorem partClus_kvAll (p o q : Nat) (f : Word → Word) (s : State) : partClus (kvAll p o f s) q = partClus s q :=
  partClus_congr (by rw [pget, pget, (only_kvAll_regs p o f s).parts rfl]) ((only_kvAll_regs p o f s).map rfl)

theorem pget_kvAll (p o q : Nat) (f : Word → Word) (s : State) : pget (kvAll p o f s) q = pget s q := by
  rw [pget, pget, (only_kvAll_regs p o f s).parts rfl]

theorem dirDrop_clears (p : Nat) (s : State) : (pget (dirDrop p s) p).dir = none ∧ ∀ c ∈ partClus s p,
    cluReg (dirDrop p s) c 0x100 = 0 ∧ cluReg (dirDrop p s) c 0x104 = 0 ∧ cluReg (dirDrop p s) c 0x108 = 0 ∧
    cluReg (dirDrop p s) c 0x110 = 0 := by
  obtain ⟨u, hu⟩ : ∃ u, u = pupd p (fun q => { q with dir := none }) s := ⟨_, rfl⟩
  have hdrop : dirDrop p s = kvAll p 0x110 (fun _ => 0) (kvAll p 0x108 (fun _ => 0) (kvAll p 0x104 (fun _ => 0)
      (kvAll p 0x100 (fun _ => 0) u))) := by
    rw [hu, dirDrop]
    simp only [List.foldl_cons, List.foldl_nil]
  rw [hdrop]
  refine ⟨?_, fun c hc => ?_⟩
  · rw [pget_kvAll, pget_kvAll, pget_kvAll, pget_kvAll, hu, pget_pupd_same]
  · have hclus : partClus u p = partClus s p := by
      rw [hu]
      exact partClus_congr (by rw [pget_pupd_same]) rfl
    rw [← hclus] at hc
    refine ⟨?_, ?_, ?_, ?_⟩
    · rw [cluReg_kvAll_other _ _ _ (by decide) (by decide) (by decide), cluReg_kvAll_other _ _ _ (by decide) (by decide) (by decide),
        cluReg_kvAll_other _ _ _ (by decide) (by decide) (by decide), cluReg_kvAll _ _ (by decide) hc]
    · rw [cluReg_kvAll_other _ _ _ (by decide) (by decide) (by decide), cluReg_kvAll_other _ _ _ (by decide) (by decide) (by decide),
        cluReg_kvAll _ _ (by decide) (by simpa only [partClus_kvAll] using hc)]
    · rw [cluReg_kvAll_other _ _ _ (by decide) (by decide) (by decide),
        cluReg_kvAll _ _ (by decide) (by simpa only [partClus_kvAll] using hc)]
    · rw [cluReg_kvAll _ _ (by decide) (by simpa only [partClus_kvAll] using hc)]

theorem cluReg_pupd (p : Nat) (f : PartSt → PartSt) (s : State) (c o : Nat) : cluReg (pupd p f s) c o = cluReg s c o := rfl

/-! ## ATT_REGISTER -/

/-- The attention area emptied in every cluster of a partition. -/
def attEmptied (a : AttSt) (ks : List Nat) (s : State) : State :=
  ks.foldl (fun s k => csWriteBytes k (64 * a.base) (nullItem ++ nullItem ++ nullItem ++ nullItem)
    (csZeroBlks k a.base (a.limit + 1 - a.base) s)) s

theorem onlySrams_attEmptied (a : AttSt) (ks : List Nat) (s : State) : onlySrams s (attEmptied a ks s) :=
  onlySrams_foldl (fun _ _ => onlySrams_trans (onlySrams_csZeroBlks _ _ _ _) (onlySrams_csWriteBytes _ _ _ _)) _ _

/-- The attention registers of a partition's clusters. -/
def attRegs (p : Nat) (a : AttSt) (s : State) : State :=
  kvAll p 0x148 (fun _ => BitVec.ofNat 32 (a.qframe * 2 ^ 19 + a.qslots * 2 ^ 11 + a.appblk)) (kvAll p 0x144 (fun _ =>
    BitVec.ofNat 32 (2 ^ 31 + a.seglog * 2 ^ 27 + a.itemblk * 2 ^ 17 + (a.qph - 1) * 2 ^ 12))
      (kvAll p 0x140 (fun _ => BitVec.ofNat 32 (a.limit * 2 ^ 16 + a.base)) s))

theorem attRegister_starts {w : Fin 128} {k : Pkt} {s : State} (h : admitted w 0x0207 attResv k s) :
    let p := hPart k.bytes
    (pget s p).att = none → attStatus (startPkt k s) p (attArea (startPkt k s) k.bytes) = 0 →
    ∃ u, exec (.attRegister w) s = .next (complete k.id 0 0 0 u) ∧
      (pget u p).att = some (attArea (startPkt k s) k.bytes) ∧ (∀ j, j ≠ p → pget u j = pget s j) ∧
      (∀ c ∈ partClus s p, cluReg u c 0x140 = BitVec.ofNat 32 (payAt k.bytes 2 2 * 2 ^ 16 + payAt k.bytes 0 2)) := by
  intro p hatt hst
  obtain ⟨a, ha⟩ : ∃ a, a = attArea (startPkt k s) k.bytes := ⟨_, rfl⟩
  have hword : BitVec.ofNat 32 (a.limit * 2 ^ 16 + a.base) = BitVec.ofNat 32 (payAt k.bytes 2 2 * 2 ^ 16 + payAt k.bytes 0 2) := by
    rw [ha]
    rfl
  have hexec : exec (.attRegister w) s = .next (complete k.id 0 0 0 (pupd p (fun q => { q with att := some a })
      (attRegs p a (attEmptied a (partClus (startPkt k s) p) (startPkt k s))))) := by
    have hunfold : exec (.attRegister w) s = execAttRegister w s := by rw [exec]
    rw [hunfold, execAttRegister]
    refine (runCmd_admitted h _).trans ?_
    refine congrArg Host.Outcome.next ((if_neg ?_).trans ((if_neg (not_not.2 hst)).trans ?_))
    · rw [pget_startPkt, hatt]
      exact Bool.false_ne_true
    · rw [attArea] at ha
      rw [← ha, attRegs, attEmptied]
  rw [← ha, ← hword]
  have hkeep := onlySrams_attEmptied a (partClus (startPkt k s) p) (startPkt k s)
  generalize attEmptied a (partClus (startPkt k s) p) (startPkt k s) = v at hexec hkeep
  have honly := ((only_startPkt k s).mono (m := F.srams ||| F.wins) rfl).trans (hkeep.1.mono rfl)
  have hpart (j : Nat) : pget v j = pget s j := by rw [pget, pget, honly.parts rfl]
  have hclus : partClus v p = partClus s p := partClus_congr (by rw [hpart]) (honly.map rfl)
  refine ⟨_, hexec, by rw [pget_pupd_same], fun j hj => ?_, fun c hc => ?_⟩
  · rw [pupd, pget_pset_other _ _ hj, attRegs, pget_kvAll, pget_kvAll, pget_kvAll, hpart]
  · rw [← hclus] at hc
    rw [cluReg_pupd, attRegs, cluReg_kvAll_other _ _ _ (by decide) (by decide) (by decide),
      cluReg_kvAll_other _ _ _ (by decide) (by decide) (by decide), cluReg_kvAll _ _ (by decide) hc]

/-! ## Pools -/

theorem t2poolRegister_registers : completes .t2poolRegister 0x0208 poolResv
    (fun k u => (poolGet u (hPart k.bytes)).nslot = 0 ∧ poolStatus u (hPart k.bytes) (poolArea k.bytes) = 0) (fun _ _ => 0)
    (fun k u => { poolSet (hPart k.bytes) (poolArea k.bytes) u with
      t2 := memZero u.t2 (poolArea k.bytes).tagBase (16 * (poolArea k.bytes).nslot)
      t2poison := nsDrop u.t2poison ((poolArea k.bytes).tagBase / 64) ((poolArea k.bytes).nslot / 4) }) := by
  have harea (b : List Byte) : poolMark {
      slot0 := payAt b 0 4, nslot := payAt b 4 4, tagBase := payAt b 8 8, low := payAt b 16 2
      high := max (payAt b 18 2) (payAt b 16 2), used := [], spill := false } = poolArea b := by
    rw [poolMark, poolArea]
    simp
  intro w k s hadm ⟨hfree, hst⟩
  have hunfold : exec (.t2poolRegister w) s = execT2poolRegister w s := by rw [exec]
  rw [hunfold, execT2poolRegister]
  refine (runCmd_admitted hadm _).trans (congrArg Host.Outcome.next ((if_neg (not_not.2 hfree)).trans ?_))
  rw [harea]
  exact if_neg (not_not.2 hst)

theorem t2poolWithdraw_withdraws : completes .t2poolWithdraw 0x0209 noResv
    (fun k u => (poolGet u (hPart k.bytes)).nslot ≠ 0 ∧ (poolGet u (hPart k.bytes)).used = []) (fun _ _ => 0)
    (fun k u => poolSet (hPart k.bytes) Pool.reset u) :=
  completes_of_body (fun _ _ => by rw [exec, execT2poolWithdraw]) fun _ _ ⟨hn, hused⟩ => if_neg (by simp [hn, hused])

theorem t2poolWithdraw_refused : refuses .t2poolWithdraw 0x0209 noResv
    (fun k u => (poolGet u (hPart k.bytes)).nslot = 0 ∨ (poolGet u (hPart k.bytes)).used ≠ []) 0x0304 :=
  refuses_of_body (fun _ _ => by rw [exec, execT2poolWithdraw]) fun _ _ h => if_pos (by simpa using h)

/-! ## The host swap area -/

theorem swapRegister_registers {w : Fin 128} {k : Pkt} {s : State} (h : admitted w 0x020A (fun b => payNZ b 20 4) k s) :
    let p := hPart k.bytes
    (pget s p).glz.area = false → payAt k.bytes 0 8 % 65536 = 0 → payAt k.bytes 8 8 % 4096 = 0 →
    ∃ u, exec (.swapRegister w) s = .next (complete k.id 0 0 0 u) ∧ (pget u p).glz.area = true ∧
      (pget u p).glz.dataBase = payAt k.bytes 0 8 ∧ (pget u p).glz.metaBase = payAt k.bytes 8 8 ∧
      (pget u p).glz.nhs = payAt k.bytes 16 4 ∧ wBit (rget u (glzKey p 0)) 31 = true ∧
      (∀ o, o ≠ glzKey p 0 → rget u o = rget s o) := by
  intro p harea h0 h1
  obtain ⟨g, hg⟩ : ∃ g : GlzSt, g = { (pget (startPkt k s) p).glz with
      area := true, dataBase := payAt k.bytes 0 8, metaBase := payAt k.bytes 8 8, nhs := payAt k.bytes 16 4, used := [] } := ⟨_, rfl⟩
  have hexec : exec (.swapRegister w) s = .next (complete k.id 0 0 0 (rupd (glzKey p 0) (fun v => wPut v 31 31 1)
      (pset p { pget (startPkt k s) p with glz := g } (startPkt k s)))) := by
    have hunfold : exec (.swapRegister w) s = execSwapRegister w s := by rw [exec]
    rw [hunfold, execSwapRegister]
    refine (runCmd_admitted h _).trans ?_
    rw [hg]
    exact congrArg Host.Outcome.next ((if_neg (by rw [pget_startPkt, harea]; exact Bool.false_ne_true)).trans (if_neg (by simp [h0, h1])))
  have hpart : pget (rupd (glzKey p 0) (fun v => wPut v 31 31 1) (pset p { pget (startPkt k s) p with glz := g } (startPkt k s))) p =
      { pget (startPkt k s) p with glz := g } := by
    rw [pget_rupd, pget_pset_same]
  refine ⟨_, hexec, ?_, ?_, ?_, ?_, ?_, fun o ho => ?_⟩
  · rw [hpart, hg]
  · rw [hpart, hg]
  · rw [hpart, hg]
  · rw [hpart, hg]
  · rw [rget_rupd_same, wBit_wPut _ _ _ (by decide) (by decide)]
    rfl
  · rw [rupd, rget_rset_other _ _ ho]
    exact rget_startPkt k s o

theorem swapWithdraw_withdraws {w : Fin 128} {k : Pkt} {s : State} (h : admitted w 0x020B noResv k s) :
    let p := hPart k.bytes
    (pget s p).glz.area = true → wFld (rget s (glzKey p 4)) 29 0 = 0 → wFld (rget s (glzKey p 8)) 29 0 = 0 →
    kvMode s p ≠ 2 →
    ∃ u, exec (.swapWithdraw w) s = .next (complete k.id 0 0 0 u) ∧ (pget u p).glz.area = false ∧
      (pget u p).glz.nhs = 0 ∧ wBit (rget u (glzKey p 0)) 31 = false ∧ (∀ o, o ≠ glzKey p 0 → rget u o = rget s o) := by
  intro p harea h4 h8 hmode
  obtain ⟨g, hg⟩ : ∃ g : GlzSt, g = { (pget (startPkt k s) p).glz with area := false, dataBase := 0, metaBase := 0, nhs := 0 } :=
    ⟨_, rfl⟩
  have hexec : exec (.swapWithdraw w) s = .next (complete k.id 0 0 0 (rupd (glzKey p 0) (fun v => wPut v 31 31 0)
      (pset p { pget (startPkt k s) p with glz := g } (startPkt k s)))) := by
    have hunfold : exec (.swapWithdraw w) s = execSwapWithdraw w s := by rw [exec]
    have hmode' : kvMode (startPkt k s) p ≠ 2 := by
      rwa [kvMode, partClus_startPkt, cluReg_startPkt, ← kvMode]
    rw [hunfold, execSwapWithdraw]
    refine (runCmd_admitted h _).trans ?_
    rw [hg]
    exact congrArg Host.Outcome.next (if_neg (by
      have h4' : wFld (rget (startPkt k s) (glzKey (hPart k.bytes) 4)) 29 0 = 0 := by rw [rget_startPkt]; exact h4
      have h8' : wFld (rget (startPkt k s) (glzKey (hPart k.bytes) 8)) 29 0 = 0 := by rw [rget_startPkt]; exact h8
      have harea' : (pget (startPkt k s) (hPart k.bytes)).glz.area = true := by rw [pget_startPkt]; exact harea
      have hmode'' : kvMode (startPkt k s) (hPart k.bytes) ≠ 2 := hmode'
      simp [harea', h4', h8', hmode'']))
  have hpart : pget (rupd (glzKey p 0) (fun v => wPut v 31 31 0) (pset p { pget (startPkt k s) p with glz := g } (startPkt k s))) p =
      { pget (startPkt k s) p with glz := g } := by
    rw [pget_rupd, pget_pset_same]
  refine ⟨_, hexec, ?_, ?_, ?_, fun o ho => ?_⟩
  · rw [hpart, hg]
  · rw [hpart, hg]
  · rw [rget_rupd_same, wBit_wPut _ _ _ (by decide) (by decide)]
    rfl
  · rw [rupd, rget_rset_other _ _ ho]
    exact rget_startPkt k s o

/-! ## SET_POLICY and KEY_ROTATE -/

theorem policyWord_fields (low high mode : Nat) (hl : low < 2 ^ 14) (hh : high < 2 ^ 14) (hm : mode < 4) :
    wFld (BitVec.ofNat 32 (low + high * 2 ^ 14 + mode * 2 ^ 30)) 13 0 = low ∧
    wFld (BitVec.ofNat 32 (low + high * 2 ^ 14 + mode * 2 ^ 30)) 27 14 = high ∧
    wFld (BitVec.ofNat 32 (low + high * 2 ^ 14 + mode * 2 ^ 30)) 31 30 = mode := by
  simp only [wFld, BitVec.toNat_ofNat, fld_eq_div_mod]
  omega

theorem setPolicy_sets {w : Fin 128} {k : Pkt} {s : State} (h : admitted w 0x0309 (edResv 0 0x3FFFFFFF) k s) :
    let p := hPart k.bytes
    let v := payAt k.bytes 8 8
    (pget s p).dir.isSome = true → fld v 29 28 ≠ 3 → (fld v 29 28 = 2 → (pget s p).glz.area = true) →
    ∃ u, exec (.setPolicy w) s = .next (complete k.id 0 0 0 u) ∧ { u with regs := s.regs } = startPkt k s ∧
      ∀ c ∈ partClus s p, wFld (cluReg u c 0x118) 13 0 = fld v 13 0 ∧
        wFld (cluReg u c 0x118) 27 14 = max (fld v 27 14) (fld v 13 0) ∧ wFld (cluReg u c 0x118) 31 30 = fld v 29 28 := by
  intro p v hdir hmode harea
  have hexec : exec (.setPolicy w) s = .next (complete k.id 0 0 0 (kvAll p 0x118 (fun _ =>
      BitVec.ofNat 32 (fld v 13 0 + max (fld v 27 14) (fld v 13 0) * 2 ^ 14 + fld v 29 28 * 2 ^ 30)) (startPkt k s))) := by
    have hunfold : exec (.setPolicy w) s = execSetPolicy w s := by rw [exec]
    rw [hunfold, execSetPolicy]
    refine (runCmd_admitted h _).trans (congrArg Host.Outcome.next ?_)
    refine (if_neg ?_).trans ((if_neg hmode).trans (if_neg ?_))
    · rw [pget_startPkt, Option.isNone_iff_eq_none]
      exact Option.isSome_iff_ne_none.1 hdir
    · rw [pget_startPkt]
      rw [Bool.and_eq_true, decide_eq_true_iff]
      refine fun ⟨h2, hno⟩ => ?_
      rw [show (pget s (hPart k.bytes)).glz.area = true from harea h2] at hno
      exact absurd hno (by decide)
  have honly := only_kvAll_regs p 0x118 (fun _ => BitVec.ofNat 32
    (fld v 13 0 + max (fld v 27 14) (fld v 13 0) * 2 ^ 14 + fld v 29 28 * 2 ^ 30)) (startPkt k s)
  refine ⟨_, hexec, ?_, fun c hc => ?_⟩
  · rw [← (only_startPkt k s).regs rfl]
    rw [← honly]
    rfl
  · rw [← partClus_startPkt k s] at hc
    rw [cluReg_kvAll _ _ (by decide) hc]
    exact policyWord_fields _ _ _ (fld_lt _ _ _) (max_lt (fld_lt _ _ _) (fld_lt _ _ _)) (fld_lt _ _ _)

/-- The glaze of a partition with a fresh key in the slot of epoch `e`. -/
def rekeyed (e key : Nat) (g : GlzSt) : GlzSt :=
  if e % 2 = 0 then { g with key0 := some key, ctr0 := 0, sweep := true }
  else { g with key1 := some key, ctr1 := 0, sweep := true }

theorem rekeyed_keys (e key : Nat) (g : GlzSt) : (rekeyed e key g).sweep = true ∧ (glzKeyOf (rekeyed e key g) e).isSome = true ∧
    glzKeyOf (rekeyed e key g) (e + 1) = glzKeyOf g (e + 1) := by
  rw [rekeyed, glzKeyOf, glzKeyOf, glzKeyOf]
  by_cases he : e % 2 = 0
  · have ho : (e + 1) % 2 ≠ 0 := by omega
    simp [he, ho]
  · have ho : (e + 1) % 2 = 0 := by omega
    simp [he, ho]

/-- The glaze registers after KEY_ROTATE: the epoch, the pages of the epoch before it, and none yet in the new one. -/
def epochTurned (p e cur : Nat) (s : State) : State :=
  rupd (glzKey p 0) (fun v => wSatAdd (wPut (wPut v 25 24 e) 30 30 1) 15 0 1)
    (rset (glzKey p 8) (BitVec.ofNat 32 cur) (rset (glzKey p 4) 0 s))

theorem glzKey_inj (p a b : Nat) : glzKey p a = glzKey p b ↔ a = b := by
  rw [glzKey, glzKey]
  omega

theorem epochTurned_regs {p e cur : Nat} (s : State) (he : e < 4) : glzEpoch (epochTurned p e cur s) p = e ∧
    rget (epochTurned p e cur s) (glzKey p 8) = BitVec.ofNat 32 cur ∧ rget (epochTurned p e cur s) (glzKey p 4) = 0 := by
  have hne (a b : Nat) (h : a ≠ b) : glzKey p a ≠ glzKey p b := fun heq => h ((glzKey_inj p a b).1 heq)
  rw [epochTurned]
  refine ⟨?_, ?_, ?_⟩
  · rw [glzEpoch, rget_rupd_same, wSatAdd, wFld_wPut_disjoint _ _ (by decide) (by decide) (by decide),
      wFld_wPut_disjoint _ _ (by decide) (by decide) (by decide), wFld_wPut_same _ _ (by decide) (by decide)]
    exact Nat.mod_eq_of_lt he
  · rw [rupd, rget_rset_other _ _ (hne _ _ (by decide)), rget_rset_same]
  · rw [rupd, rget_rset_other _ _ (hne _ _ (by decide)), rget_rset_other _ _ (hne _ _ (by decide)), rget_rset_same]

theorem glzEpoch_startPkt (k : Pkt) (s : State) (p : Nat) : glzEpoch (startPkt k s) p = glzEpoch s p := by
  rw [glzEpoch, rget_startPkt, ← glzEpoch]

theorem pget_epochTurned (p e cur j : Nat) (s : State) : pget (epochTurned p e cur s) j = pget s j := by
  rw [epochTurned, pget_rupd, pget_rset, pget_rset]

theorem keyRotate_rotates {w : Fin 128} {k : Pkt} {s : State} (h : admitted w 0x0701 noResv k s) :
    let p := hPart k.bytes
    let e := (glzEpoch s p + 1) % 4
    (wFld (rget s (glzKey p 8)) 29 0 = 0 →
      ∃ u, exec (.keyRotate w) s = .next (complete k.id 0 e 0 u) ∧ glzEpoch u p = e ∧
        rget u (glzKey p 8) = BitVec.ofNat 32 (wFld (rget s (glzKey p 4)) 29 0) ∧ rget u (glzKey p 4) = 0 ∧
        (pget u p).glz.sweep = true ∧ (glzKeyOf (pget u p).glz e).isSome = true ∧
        glzKeyOf (pget u p).glz (e + 1) = glzKeyOf (pget s p).glz (e + 1)) ∧
    (wFld (rget s (glzKey p 8)) 29 0 ≠ 0 →
      exec (.keyRotate w) s = .next (complete k.id 0x0404 0 0 (startPkt k s))) := by
  intro p e
  have hunfold : exec (.keyRotate w) s = execKeyRotate w s := by rw [exec]
  have h8 : rget (startPkt k s) (glzKey p 8) = rget s (glzKey p 8) := rget_startPkt k s _
  rw [hunfold, execKeyRotate, runCmd_admitted h]
  refine ⟨fun hz => ?_, fun hnz => congrArg Host.Outcome.next (if_pos (by rwa [h8]))⟩
  obtain ⟨v, hv⟩ : ∃ v, v = pupd p (fun q => { q with glz := rekeyed e (takeFree (startPkt k s)).1 q.glz }) (takeFree (startPkt k s)).2 :=
    ⟨_, rfl⟩
  have hvr (o : Nat) : rget v o = rget s o := by
    rw [hv]
    exact rget_startPkt k s o
  have hvp : (pget v p).glz = rekeyed e (takeFree (startPkt k s)).1 (pget s p).glz := by
    rw [hv, pget_pupd_same]
    exact congrArg (fun q : PartSt => rekeyed e (takeFree (startPkt k s)).1 q.glz) (pget_startPkt k s p)
  obtain ⟨hepoch, hold, hcur⟩ := epochTurned_regs (p := p) (cur := wFld (rget v (glzKey p 4)) 29 0) v (Nat.mod_lt (glzEpoch s p + 1) (by decide : 4 > 0))
  obtain ⟨hsweep, hkey, hother⟩ := rekeyed_keys e (takeFree (startPkt k s)).1 (pget s p).glz
  refine ⟨_, congrArg Host.Outcome.next ((if_neg ?_).trans ?_), hepoch, ?_, hcur, ?_, ?_, ?_⟩
  · rw [h8, hz]
    exact not_not.2 rfl
  · rw [glzEpoch_startPkt, hv]
    rfl
  · rw [hold, hvr]
  · rw [pget_epochTurned, hvp, hsweep]
  · rw [pget_epochTurned, hvp, hkey]
  · rw [pget_epochTurned, hvp, hother]

end Sys2Proof.Machine

open Sys2Proof.Machine

/-- Settles O41: the directory, attention, pool and swap areas of a partition, its policy and its epochs. -/
theorem partitionAreas : Obligations.PartitionAreas :=
  ⟨fun _ _ _ _ => dirRegister_starts, dirWithdraw_drops, dirDrop_clears, fun _ _ _ => attRegister_starts, t2poolRegister_registers,
    t2poolWithdraw_withdraws, t2poolWithdraw_refused, fun _ _ _ => swapRegister_registers, fun _ _ _ => swapWithdraw_withdraws,
    fun _ _ _ => setPolicy_sets, fun _ _ _ => keyRotate_rotates⟩
end

section
/-! What more operations of the model may change, in the manner of the lemmas about `Only` above. -/

namespace Sys2Proof.Machine

section
variable {φ : Nat} {u s : State}

theorem only_takeFree (hm : Within F.fresh φ) (h : Only φ u s) : Only φ u (takeFree s).2 := by
  unfold takeFree
  exact only_with hm rfl h

theorem only_seqNext (hm : Within (F.cores ||| F.ctrs) φ) (h : Only φ u s) (c n) : Only φ u (seqNext c n s) := by
  unfold seqNext
  exact only_tallyCore (hm.of rfl) (only_pcTo (hm.of rfl) h _ _) _ _ _ _

theorem only_fireLog (hm : Within F.boot φ) (h : Only φ u s) (stage f summary rejoin dur count data) :
    Only φ u (fireLog stage f summary rejoin dur count data s) :=
  only_with (a := F.boot) (hm.of rfl) rfl h

theorem only_fireMap (hm : Within F.boot φ) (h : Only φ u s) (stage result rejoin dur) : Only φ u (fireMap stage result rejoin dur s) := by
  unfold fireMap
  exact only_fireLog (hm.of rfl) h _ _ _ _ _ _ _

theorem only_fireStage (hm : Within F.boot φ) (h : Only φ u s) (stage fs late result rejoin dur) :
    Only φ u (fireStage stage fs late result rejoin dur s) := by
  unfold fireStage
  exact only_ite (only_fireMap (hm.of rfl) (only_foldl (φ := φ) (fun _ _ h1 => (only_fireLog (hm.of rfl) h1 _ _ _ _ _ _ _)) h) _ _ _ _)
    (only_fireLog (hm.of rfl) (only_foldl (φ := φ) (fun _ _ h2 => (only_fireLog (hm.of rfl) h2 _ _ _ _ _ _ _)) h) _ _ _ _ _ _ _)

theorem only_setBrg (hm : Within F.boot φ) (h : Only φ u s) (k g) : Only φ u (setBrg k g s) := by
  unfold setBrg
  exact only_with hm rfl h

theorem only_setBond (hm : Within F.boot φ) (h : Only φ u s) (k g) : Only φ u (setBond k g s) := by
  unfold setBond
  exact only_with hm rfl h

theorem only_readDesc {u : State} (hm : Within F.logs φ) (k b) : OnlyEng φ u (readDesc k b) := by
  unfold readDesc
  exact onlyEng_bind (only_dRdBlk (hm.of rfl) _ _) fun _ => (onlyEng_pure _)

theorem only_ptrIn {u : State} (hm : Within F.logs φ) (k b slot) : OnlyEng φ u (ptrIn k b slot) := by
  unfold ptrIn
  exact onlyEng_ite (onlyEng_pure _) (only_dRd (hm.of rfl) _ _ _)

theorem only_listBlk {u : State} (hm : Within F.logs φ) (k desc i j) : OnlyEng φ u (listBlk k desc i j) := by
  unfold listBlk
  exact onlyEng_bind (only_ptrIn (hm.of rfl) _ _ _) fun _ => (onlyEng_bind (only_ptrIn (hm.of rfl) _ _ _) fun _ => (only_ptrIn (hm.of rfl) _ _ _))

theorem only_pteAt {u : State} (hm : Within F.logs φ) (k desc i j) : OnlyEng φ u (pteAt k desc i j) := by
  unfold pteAt
  exact onlyEng_bind (only_listBlk (hm.of rfl) _ _ _ _) fun _ => (onlyEng_ite (onlyEng_pure _) (only_dRd (hm.of rfl) _ _ _))

theorem only_getBld {u : State} (hm : Within F.logs φ) (p i x lh b) : OnlyEng φ u (getBld p i x lh b) := by
  unfold getBld
  exact onlyEng_bind (only_theDir (hm.of rfl) _) fun _ => (onlyEng_bind (only_bldPtr (hm.of rfl) _ _ _) fun _ => (only_pteAt (hm.of rfl) _ _ _ _))

theorem only_setDir {u : State} (hm : Within F.parts φ) (p d) : OnlyEng φ u (setDir p d) := by
  unfold setDir
  exact onlyEng_modify (fun _ h1 => (only_pupd (hm.of rfl) h1 _ _))

theorem only_updDir {u : State} (hm : Within F.parts φ) (p f) : OnlyEng φ u (updDir p f) := by
  unfold updDir
  exact onlyEng_bind (only_theDir (hm.of rfl) _) fun _ => (only_setDir (hm.of rfl) _ _)

theorem only_updGen {u : State} (hm : Within F.parts φ) (p f) : OnlyEng φ u (updGen p f) := by
  unfold updGen
  exact only_updDir (hm.of rfl) _ _

theorem only_dropEntry {u : State} (hm : Within F.parts φ) (p k e) : OnlyEng φ u (dropEntry p k e) := by
  unfold dropEntry
  exact onlyEng_ite (only_updGen (hm.of rfl) _ _) (onlyEng_pure _)

theorem only_bmFree (hm : Within F.logs φ) : ∀ k off n a, OnlyEng φ u (bmFree k off n a)
  | _, _, _, 0 => by
    rw [bmFree]
    exact onlyEng_pure _
  | _, _, _, (n_1 + 1) => by
    rw [bmFree]
    exact onlyEng_bind (only_dRdBlk (hm.of rfl) _ _) fun _ => (onlyEng_bind (only_bmFree (hm.of rfl) _ _ _ _) fun _ => (onlyEng_pure _))

theorem only_pickFree {u : State} (hm : Within F.fresh φ) (l) : OnlyEng φ u (pickFree l) := by
  unfold pickFree
  split
  · exact onlyEng_fail _
  · exact onlyEng_pure _
  · exact onlyEng_get fun _ h1 => onlyEng_bind (onlyEng_set (only_takeFree (hm.of rfl) h1)) fun _ => onlyEng_pure _

theorem only_dWr {u : State} (hm : Within F.srams φ) (k off n v) : OnlyEng φ u (dWr k off n v) := by
  unfold dWr
  exact onlyEng_modify (fun _ h1 => (only_csWriteIn (hm.of rfl) (only_csCount (hm.of rfl) h1 _ _ _) _ _ _ _))

theorem only_bmPut {u : State} (hm : Within F.srams φ) (k off i v) : OnlyEng φ u (bmPut k off i v) := by
  unfold bmPut
  exact onlyEng_bind (only_dRd (hm.of rfl) _ _ _) fun _ => (only_dWr (hm.of rfl) _ _ _ _)

theorem only_allocBlk {u : State} (hm : Within (F.srams ||| F.parts ||| F.fresh) φ) (p k) : OnlyEng φ u (allocBlk p k) := by
  unfold allocBlk
  exact onlyEng_bind (only_theDir (hm.of rfl) _) fun _ =>
    onlyEng_bind (only_bmFree (hm.of rfl) _ _ _ _) fun _ =>
      onlyEng_bind (only_pickFree (hm.of rfl) _) fun _ =>
        onlyEng_bind (only_bmPut (hm.of rfl) _ _ _ _) fun _ =>
          onlyEng_bind (only_dWrBlk (hm.of rfl) _ _ _) fun _ => onlyEng_bind (only_updGen (hm.of rfl) _ _) fun _ => onlyEng_pure _

theorem only_ownBlk {u : State} (hm : Within (F.srams ||| F.parts ||| F.fresh) φ) (p k b) : OnlyEng φ u (ownBlk p k b) := by
  unfold ownBlk
  exact onlyEng_bind (only_theDir (hm.of rfl) _) fun _ =>
    onlyEng_ite (only_allocBlk (hm.of rfl) _ _)
      (onlyEng_ite (onlyEng_pure _)
         (onlyEng_bind (only_dRdBlk (hm.of rfl) _ _) fun _ =>
            onlyEng_bind (only_allocBlk (hm.of rfl) _ _) fun _ =>
              onlyEng_bind (only_dWrBlk (hm.of rfl) _ _ _) fun _ => onlyEng_bind (only_updGen (hm.of rfl) _ _) fun _ => onlyEng_pure _))

theorem only_setPtr {u : State} (hm : Within (F.srams ||| F.parts) φ) (p k i v) : OnlyEng φ u (setPtr p k i v) := by
  unfold setPtr
  exact onlyEng_bind (only_theDir (hm.of rfl) _) fun _ =>
    onlyEng_ite (onlyEng_bind (only_dWr (hm.of rfl) _ _ _ _) fun _ => (only_updGen (hm.of rfl) _ _)) (only_updGen (hm.of rfl) _ _)

theorem only_ownDesc {u : State} (hm : Within (F.srams ||| F.parts ||| F.fresh) φ) (p k i) : OnlyEng φ u (ownDesc p k i) := by
  unfold ownDesc
  exact onlyEng_bind (only_theDir (hm.of rfl) _) fun _ =>
    onlyEng_bind (only_bldPtr (hm.of rfl) _ _ _) fun _ =>
      onlyEng_bind (only_ownBlk (hm.of rfl) _ _ _) fun _ =>
        onlyEng_ite (onlyEng_bind (only_setPtr (hm.of rfl) _ _ _ _) fun _ => (onlyEng_pure _)) (onlyEng_pure _)

theorem only_ownAt {u : State} (hm : Within (F.srams ||| F.parts ||| F.fresh) φ) (p k b slot) : OnlyEng φ u (ownAt p k b slot) := by
  unfold ownAt
  exact onlyEng_bind (only_ptrIn (hm.of rfl) _ _ _) fun _ =>
    onlyEng_bind (only_ownBlk (hm.of rfl) _ _ _) fun _ =>
      onlyEng_ite (onlyEng_bind (only_dWr (hm.of rfl) _ _ _ _) fun _ => (onlyEng_pure _)) (onlyEng_pure _)

theorem only_putPte {u : State} (hm : Within (F.srams ||| F.parts ||| F.fresh) φ) (p k seqI i j v) : OnlyEng φ u (putPte p k seqI i j v) := by
  unfold putPte
  exact onlyEng_bind (only_ownDesc (hm.of rfl) _ _ _) fun _ =>
    onlyEng_bind (only_ownAt (hm.of rfl) _ _ _ _) fun _ =>
      onlyEng_bind (only_ownAt (hm.of rfl) _ _ _ _) fun _ => onlyEng_bind (only_ownAt (hm.of rfl) _ _ _ _) fun _ => only_dWr (hm.of rfl) _ _ _ _

theorem only_setBld {u : State} (hm : Within (F.srams ||| F.parts ||| F.fresh) φ) (p i x lh b v) : OnlyEng φ u (setBld p i x lh b v) := by
  unfold setBld
  exact only_putPte (hm.of rfl) _ _ _ _ _ _

theorem only_entriesWith {u : State} (hm : Within F.logs φ) (p i x f) : OnlyEng φ u (entriesWith p i x f) := by
  unfold entriesWith
  exact onlyEng_bind
    (only_engMap
       (fun _ =>
          by
            split
            · exact onlyEng_pure _
            · exact onlyEng_bind
                (only_engMap (fun _ => (onlyEng_bind (only_getBld (hm.of rfl) _ _ _ _ _) fun _ => (onlyEng_pure _))) _) fun _ =>
                onlyEng_pure _) _) fun _ =>
    onlyEng_pure _

theorem only_autoCommit {u : State} (hm : Within F.parts φ) (p) : OnlyEng φ u (autoCommit p) := by
  unfold autoCommit
  exact only_updDir (hm.of rfl) _ _

theorem only_tkPut (hm : Within F.regs φ) (h : Only φ u s) (c t v) : Only φ u (tkPut c t v s) := by
  unfold tkPut
  exact only_rset (hm.of rfl) h _ _

theorem only_portErr (hm : Within F.logs φ) (h : Only φ u s) (p code detail) : Only φ u (portErr p code detail s) := by
  unfold portErr
  exact only_logErr (hm.of rfl) h _

theorem only_csBusyN (hm : Within (F.regs ||| F.ctrs) φ) (h : Only φ u s) (c n tx) : Only φ u (csBusyN c n tx s) := by
  unfold csBusyN
  exact only_ite h (only_tallyClu (hm.of rfl) (only_cluUpd (hm.of rfl) h _ _ _) _ _ _ _)

theorem only_t2Corrected (hm : Within F.logs φ) (h : Only φ u s) (off part) : Only φ u (t2Corrected off part s) := by
  unfold t2Corrected
  exact only_logErr (hm.of rfl) (only_rupd (hm.of rfl) h _ _) _

theorem only_t2Poisoned (hm : Within F.logs φ) (h : Only φ u s) (off part) : Only φ u (t2Poisoned off part s) := by
  unfold t2Poisoned
  exact only_logErr (hm.of rfl) (only_rupd (hm.of rfl) h _ _) _

theorem only_mergeFull (hm : Within F.cores φ) (h : Only φ u s) (c b d poison) : Only φ u (mergeFull c b d poison s) := by
  unfold mergeFull
  exact only_cupd (hm.of rfl) h _ _

theorem only_spStore (hm : Within (F.sp ||| F.spChk ||| F.spWr) φ) (h : Only φ u s) (c b d chk) : Only φ u (spStore c b d chk s) :=
  only_with (a := (F.sp ||| F.spChk ||| F.spWr)) (hm.of rfl) rfl h

theorem only_spWrite (hm : Within (F.cores ||| F.sp ||| F.spChk ||| F.spWr) φ) (h : Only φ u s) (c b d) : Only φ u (spWrite c b d s) := by
  unfold spWrite
  exact only_mergeFull (hm.of rfl) (only_spStore (hm.of rfl) h _ _ _ _) _ _ _ _

theorem only_pteAll {u : State} (hm : Within F.srams φ) (p i x lh blk same f) : OnlyEng φ u (pteAll p i x lh blk same f) := by
  unfold pteAll
  exact onlyEng_bind (only_allDescs (hm.of rfl) _ _ _) fun _ =>
    onlyEng_bind (only_engMap (fun _ => (only_listBlk (hm.of rfl) _ _ _ _)) _) fun _ =>
      only_engEach
        (fun _ =>
           onlyEng_ite (onlyEng_pure _)
             (onlyEng_bind (only_dRd (hm.of rfl) _ _ _) fun _ => (onlyEng_ite (only_dWr (hm.of rfl) _ _ _ _) (onlyEng_pure _)))) _

theorem only_losePage {u : State} (hm : Within (F.srams ||| F.parts ||| F.fresh) φ) (p i x lh blk) : OnlyEng φ u (losePage p i x lh blk) := by
  unfold losePage
  exact onlyEng_bind (only_getBld (hm.of rfl) _ _ _ _ _) fun _ =>
    onlyEng_bind (only_theDir (hm.of rfl) _) fun _ =>
      onlyEng_ite
        (onlyEng_bind (only_dropEntry (hm.of rfl) _ _ _) fun _ => (onlyEng_ite (only_pteAll (hm.of rfl) _ _ _ _ _ _ _) (only_setBld (hm.of rfl) _ _ _ _ _ _)))
        (onlyEng_pure _)

theorem only_csAtomic (hm : Within F.srams φ) (h : Only φ u s) (c off op arg tx) : Only φ u (csAtomic c off op arg tx s).2 := by
  unfold csAtomic
  dsimp only
  split
  · exact only_cluUpd (hm.of rfl) (only_csRead (hm.of rfl) h _ _) _ _ _
  · exact only_tallyClu (hm.of rfl) (only_csWrite (hm.of rfl) (only_csRead (hm.of rfl) h _ _) _ _ _) _ _ _ _

theorem only_dAdd {u : State} (hm : Within F.srams φ) (k off v) : OnlyEng φ u (dAdd k off v) := by
  unfold dAdd
  exact onlyEng_get fun _ h1 =>
    by
      dsimp only
      split
      · exact onlyEng_bind (onlyEng_set (only_csAtomic (hm.of rfl) (only_csCount (hm.of rfl) h1 _ _ _) _ _ _ _ _)) fun _ => onlyEng_pure _
      · exact onlyEng_fail _

theorem only_hostRaw (hm : Within F.logs φ) (h : Only φ u s) (addr t reason) : Only φ u (hostRaw addr t reason s) := by
  unfold hostRaw
  exact only_ite h (by split; exact (only_logErr (hm.of rfl) (only_countRaw (hm.of rfl) h _ _) _); exact (only_logErr (hm.of rfl) h _); exact h)

theorem only_setTxs (hm : Within F.net φ) (h : Only φ u s) (l) : Only φ u (setTxs l s) := by
  unfold setTxs
  exact only_with hm rfl h

theorem only_txUpd (hm : Within F.net φ) (h : Only φ u s) (id f) : Only φ u (txUpd id f s) := by
  unfold txUpd
  exact only_setTxs (hm.of rfl) h _

theorem only_routeLoad (hm : Within F.net φ) (h : Only φ u s) : Only φ u (routeLoad s) := by
  unfold routeLoad
  exact only_with hm rfl h

theorem only_wipeSrams (hm : Within (F.sp ||| F.spChk ||| F.csram ||| F.csChk) φ) (h : Only φ u s) (n) : Only φ u (wipeSrams n s) :=
  only_with (a := (F.sp ||| F.spChk ||| F.csram ||| F.csChk)) (hm.of rfl) rfl h

theorem only_remap (hm : Within (F.regs ||| F.map ||| F.net) φ) (h : Only φ u s) (m) : Only φ u (remap m s) := by
  unfold remap
  exact only_ite h (only_rupd (hm.of rfl) (only_mapChange (hm.of rfl) h _) _ _)

theorem only_bootStop (hm : Within (F.fatal ||| F.faultN ||| F.boot) φ) (h : Only φ u s) : Only φ u (bootStop s) := by
  unfold bootStop
  exact only_with hm rfl h

theorem only_stageEnd (hm : Within (F.stage ||| F.fatal ||| F.faultN ||| F.boot) φ) (h : Only φ u s) (n fs stop reused dur) : Only φ u (stageEnd n fs stop reused dur s) := by
  unfold stageEnd
  exact only_ite (only_bootStop (hm.of rfl) (only_with (a := (F.stage ||| F.boot)) (hm.of rfl) rfl (only_fireStage (hm.of rfl) h _ _ _ _ _ _))) (only_with (a := (F.stage ||| F.boot)) (hm.of rfl) rfl (only_fireStage (hm.of rfl) h _ _ _ _ _ _))

theorem only_bldSeqs {u : State} (hm : Within F.logs φ) (p) : OnlyEng φ u (bldSeqs p) := by
  unfold bldSeqs
  exact onlyEng_bind (only_editCtx (hm.of rfl) _) fun _ =>
    onlyEng_bind (only_engMap (fun _ => (onlyEng_bind (only_bldPtr (hm.of rfl) _ _ _) fun _ => (onlyEng_pure _))) _) fun _ =>
      onlyEng_pure _

theorem only_placesWith {u : State} (hm : Within F.logs φ) (p x f) : OnlyEng φ u (placesWith p x f) := by
  unfold placesWith
  exact onlyEng_bind (only_bldSeqs (hm.of rfl) _) fun _ =>
    onlyEng_bind (only_engMap (fun _ => (onlyEng_bind (only_entriesWith (hm.of rfl) _ _ _ _) fun _ => (onlyEng_pure _))) _) fun _ =>
      onlyEng_pure _

theorem only_loseWhere {u : State} (hm : Within (F.srams ||| F.parts ||| F.fresh) φ) (p f) : OnlyEng φ u (loseWhere p f) := by
  unfold loseWhere
  exact onlyEng_bind (only_editCtx (hm.of rfl) _) fun _ =>
    onlyEng_bind (only_placesWith (hm.of rfl) _ _ _) fun _ =>
      onlyEng_bind (only_engEach (fun _ => (only_losePage (hm.of rfl) _ _ _ _ _)) _) fun _ => only_autoCommit (hm.of rfl) _

theorem only_hostPagesLost (hm : Within (F.srams ||| F.parts ||| F.fresh) φ) (h : Only φ u s) (p) : Only φ u (hostPagesLost p s) := by
  unfold hostPagesLost
  exact only_rset (hm.of rfl) (only_rset (hm.of rfl) (only_pupd (hm.of rfl) (only_engRun h (only_loseWhere (hm.of rfl) _ _)) _ _) _ _) _ _

theorem only_tkTake (hm : Within F.regs φ) (h : Only φ u s) (c tw) : Only φ u (tkTake c tw s) := by
  unfold tkTake
  exact only_ite h (only_tkPut (hm.of rfl) h _ _ _)

theorem only_vxupd (hm : Within F.cores φ) (h : Only φ u s) (c f) : Only φ u (vxupd c f s) := by
  unfold vxupd
  exact only_cupd (hm.of rfl) h _ _

theorem only_vxDone (hm : Within (F.regs ||| F.cores) φ) (h : Only φ u s) (c i q poison) : Only φ u (vxDone c i q poison s) := by
  unfold vxDone
  exact only_tkTake (hm.of rfl) (only_vxupd (hm.of rfl) h _ _) _ _

theorem only_vxNum (hm : Within F.regs φ) (h : Only φ u s) (c nan sclamp sat cvt) : Only φ u (vxNum c nan sclamp sat cvt s) := by
  unfold vxNum
  exact only_corUpd (hm.of rfl) h _ _ _

theorem only_t2Read (hm : Within F.ctrs φ) (h : Only φ u s) (off n tx) : Only φ u (t2Read off n tx s).2 := by
  unfold t2Read
  exact only_tallyHub (hm.of rfl) h _ _ _ _

theorem only_mntSet (hm : Within F.mnt φ) (h : Only φ u s) (a0 kind v) : Only φ u (mntSet a0 kind v s) := by
  unfold mntSet
  exact only_with hm rfl h

theorem only_twrPublish (hm : Within F.regs φ) (h : Only φ u s) (n cause) : Only φ u (twrPublish n cause s) := by
  unfold twrPublish
  exact only_rupd (hm.of rfl) h _ _

theorem only_mvupd (hm : Within F.cores φ) (h : Only φ u s) (c ch f) : Only φ u (mvupd c ch f s) := by
  unfold mvupd
  exact only_cupd (hm.of rfl) h _ _

theorem only_hostRead (hm : Within (F.reads ||| F.nextTag ||| F.hostOut) φ) (h : Only φ u s) (fn addr len a3) : Only φ u (hostRead fn addr len a3 s) := by
  unfold hostRead
  exact only_fnSend (hm.of rfl) (only_with (a := (F.reads ||| F.nextTag)) (hm.of rfl) rfl h) _ _

theorem only_dropReads (hm : Within F.reads φ) (h : Only φ u s) (f) : Only φ u (dropReads f s) := by
  unfold dropReads
  exact only_with hm rfl h

theorem only_rekeyReads (hm : Within (F.reads ||| F.nextTag ||| F.hostOut) φ) (h : Only φ u s) (p slot) : Only φ u (rekeyReads p slot s) := by
  unfold rekeyReads
  exact only_iter (φ := φ) (fun _ _ h1 => (only_hostRead (hm.of rfl) h1 _ _ _ _)) (only_hostRead (hm.of rfl) (only_dropReads (hm.of rfl) h _) _ _ _ _)

theorem only_answer (hm : Within F.net φ) (h : Only φ u s) (id status resp) : Only φ u (answer id status resp s) := by
  unfold answer
  exact only_txUpd (hm.of rfl) (only_with hm rfl h) _ _

theorem only_t2Close (hm : Within F.net φ) (h : Only φ u s) (id) : Only φ u (t2Close id s) := by
  unfold t2Close
  exact only_ite h (by split; exact h; exact (only_answer (hm.of rfl) h _ _ _))

theorem only_liveSeqs {u : State} (hm : Within F.logs φ) (p) : OnlyEng φ u (liveSeqs p) := by
  unfold liveSeqs
  exact onlyEng_bind (only_editCtx (hm.of rfl) _) fun _ =>
    onlyEng_bind
      (only_engMap
         (fun _ =>
            onlyEng_bind (only_curPtr (hm.of rfl) _ _ _) fun _ =>
              onlyEng_bind (only_bldPtr (hm.of rfl) _ _ _) fun _ =>
                onlyEng_ite (onlyEng_pure _) (onlyEng_bind (only_readDesc (hm.of rfl) _ _) fun _ => (onlyEng_pure _))) _) fun _ =>
      onlyEng_pure _

theorem only_scrambleQuarter (hm : Within (F.t2 ||| F.fresh) φ) (h : Only φ u s) (k) : Only φ u (scrambleQuarter k s) := by
  unfold scrambleQuarter
  exact only_foldl (fun _ _ h1 => only_with (a := F.t2) (hm.of rfl) rfl (only_takeFree (hm.of rfl) h1)) h

theorem only_spPoison (hm : Within (F.cores ||| F.sp ||| F.spChk ||| F.spWr) φ) (h : Only φ u s) (c b) : Only φ u (spPoison c b s) := by
  unfold spPoison
  exact only_mergeFull (hm.of rfl) (only_spStore (hm.of rfl) h _ _ _ _) _ _ _ _

theorem only_spNarrowNow (hm : Within (F.logs ||| F.sp ||| F.spChk ||| F.spWr) φ) (h : Only φ u s) (c b off v) : Only φ u (spNarrowNow c b off v s) := by
  unfold spNarrowNow
  exact only_ite (only_spWrite (hm.of rfl) h _ _ _)
    (by dsimp only; split; exact (only_spWrite (hm.of rfl) (only_spRead (hm.of rfl) h _ _) _ _ _); exact (only_spPoison (hm.of rfl) (only_spRead (hm.of rfl) h _ _) _ _))

theorem only_spNarrow (hm : Within (F.logs ||| F.sp ||| F.spChk ||| F.spWr) φ) (h : Only φ u s) (c b off v) : Only φ u (spNarrow c b off v s) := by
  unfold spNarrow
  exact only_ite (only_spWrite (hm.of rfl) h _ _ _) (only_cupd (hm.of rfl) (only_spRead (hm.of rfl) h _ _) _ _)

theorem only_refError (hm : Within F.logs φ) (h : Only φ u s) (p k page) : Only φ u (refError p k page s) := by
  unfold refError
  exact only_logErr (hm.of rfl) h _

theorem only_freeT2 (hm : Within F.pools φ) (h : Only φ u s) (p page pair) : Only φ u (freeT2 p page pair s) := by
  unfold freeT2
  exact only_poolSet (hm.of rfl) h _ _

theorem only_glzCount (hm : Within F.regs φ) (h : Only φ u s) (p epoch v) : Only φ u (glzCount p epoch v s) := by
  unfold glzCount
  exact only_rupd (hm.of rfl) h _ _

theorem only_setResv (hm : Within F.net φ) (h : Only φ u s) (key l) : Only φ u (setResv key l s) := by
  unfold setResv
  exact only_with hm rfl h

theorem only_emitFlit (hm : Within (F.ctrs ||| F.fab) φ) (h : Only φ u s) (p seq f nak) : Only φ u (emitFlit p seq f nak s) := by
  unfold emitFlit
  exact only_ite (only_tallyHub (hm.of rfl) (only_with (a := F.fab) (hm.of rfl) rfl (only_fportSet (hm.of rfl) h _ _)) _ _ _ _) (only_with (a := F.fab) (hm.of rfl) rfl (only_fportSet (hm.of rfl) h _ _))

theorem only_crossErr (hm : Within F.logs φ) (h : Only φ u s) (source hub part addr) : Only φ u (crossErr source hub part addr s) := by
  unfold crossErr
  exact only_logErr (hm.of rfl) h _

theorem only_suspectErr (hm : Within F.logs φ) (h : Only φ u s) (col g lane) : Only φ u (suspectErr col g lane s) := by
  unfold suspectErr
  exact only_logErr (hm.of rfl) h _

theorem only_noteSensor (hm : Within (F.logs ||| F.therm) φ) (h : Only φ u s) (ch cut bad) : Only φ u (noteSensor ch cut bad s) := by
  unfold noteSensor
  exact only_ite (only_ite (only_with (a := F.therm) (hm.of rfl) rfl h) (only_with (a := F.therm) (hm.of rfl) rfl (only_with (a := F.therm) (hm.of rfl) rfl h)))
    (only_ite (only_with (a := F.therm) (hm.of rfl) rfl h) (only_logErr (hm.of rfl) (only_rupd (hm.of rfl) (only_with (a := F.therm) (hm.of rfl) rfl (only_with (a := F.therm) (hm.of rfl) rfl h)) _ _) _))

theorem only_setLoopW (hm : Within F.pwr φ) (h : Only φ u s) (n v) : Only φ u (setLoopW n v s) := by
  unfold setLoopW
  exact only_with hm rfl h

theorem only_noteCode (hm : Within F.therm φ) (h : Only φ u s) (ch same) : Only φ u (noteCode ch same s) := by
  unfold noteCode
  exact only_with hm rfl h

theorem only_twThSet (hm : Within F.therm φ) (h : Only φ u s) (n v) : Only φ u (twThSet n v s) := by
  unfold twThSet
  exact only_with hm rfl h

theorem only_publishTemp (hm : Within F.regs φ) (h : Only φ u s) (n) : Only φ u (publishTemp n s) := by
  unfold publishTemp
  exact only_rset (hm.of rfl) h _ _

theorem only_sampleTower (hm : Within (F.logs ||| F.therm) φ) (h : Only φ u s) (n l stuck) : Only φ u (sampleTower n l stuck s) := by
  unfold sampleTower
  exact only_ite h
    (only_publishTemp (hm.of rfl)
       (only_twrPublish (hm.of rfl)
          (only_twThSet (hm.of rfl)
             (only_foldl (φ := φ)
                (fun _ _ h1 =>
                   by split; exact (only_noteSensor (hm.of rfl) h1 _ _ _); exact (only_noteSensor (hm.of rfl) (only_noteCode (hm.of rfl) h1 _ _) _ _ _)) h) _ _)
          _ _) _)

theorem only_forgetTower (hm : Within (F.cols ||| F.boot ||| F.therm) φ) (h : Only φ u s) (n) : Only φ u (forgetTower n s) := only_with (a := (F.cols ||| F.boot ||| F.therm)) (hm.of rfl) rfl h

theorem only_mntPass (hm : Within F.mnt φ) (h : Only φ u s) (a0 kind) : Only φ u (mntPass a0 kind s) := by
  unfold mntPass
  exact only_ite (only_mntSet (hm.of rfl) h _ _ _) (only_mntSet (hm.of rfl) h _ _ _)

theorem only_mntStep (hm : Within F.mnt φ) (h : Only φ u s) (kind a1 faults) : Only φ u (mntStep kind a1 faults s) := by
  unfold mntStep
  exact only_ite (only_with hm rfl h) (only_mntPass (hm.of rfl) h _ _)

theorem only_setRec (hm : Within F.boot φ) (h : Only φ u s) (a0 r) : Only φ u (setRec a0 r s) := by
  unfold setRec
  exact only_with hm rfl h

theorem only_writeRecs (hm : Within F.boot φ) (h : Only φ u s) (us) : Only φ u (writeRecs us s) := by
  unfold writeRecs
  exact only_foldl (φ := φ) (fun _ _ h1 => (only_setRec (hm.of rfl) h1 _ _)) h

theorem only_freshNonce (hm : Within (F.regs ||| F.fresh) φ) (h : Only φ u s) : Only φ u (freshNonce s) := by
  unfold freshNonce
  exact only_iter (φ := φ) (fun _ _ h1 => (only_rset (hm.of rfl) (only_takeFree (hm.of rfl) h1) _ _)) h

theorem only_emitIdle (hm : Within (F.ctrs ||| F.fab) φ) (h : Only φ u s) (p nak) : Only φ u (emitIdle p nak s) := by
  unfold emitIdle
  exact only_emitFlit (hm.of rfl) h _ _ _ _

theorem only_grantAll (hm : Within (F.ctrs ||| F.fab) φ) : ∀ {s}, Only φ u s → ∀ p a, Only φ u (grantAll p a s)
  | _, h, _, 0 => by
    rw [grantAll]
    exact h
  | _, h, _, (n + 1) => by
    rw [grantAll]
    exact only_ite (only_grantAll (hm.of rfl) (only_emitIdle (hm.of rfl) h _ _) _ _) h

theorem only_takeCommit (hm : Within F.net φ) (h : Only φ u s) (q) : Only φ u (takeCommit q s) := by
  unfold takeCommit
  exact only_ite (only_with hm rfl h) (only_with hm rfl h)

theorem only_roundPackages (hm : Within F.regs φ) (h : Only φ u s) (rd a1) : Only φ u (roundPackages rd a1 s) := by
  unfold roundPackages
  exact only_iter (φ := φ) (fun _ _ h1 => (by dsimp only; split; exact h1; exact (only_rupd (hm.of rfl) h1 _ _))) h

theorem only_setLoopC (hm : Within F.pwr φ) (h : Only φ u s) (n v) : Only φ u (setLoopC n v s) := by
  unfold setLoopC
  exact only_with hm rfl h

theorem only_brgErr (hm : Within F.logs φ) (h : Only φ u s) (code d g detail) : Only φ u (brgErr code d g detail s) := by
  unfold brgErr
  exact only_logErr (hm.of rfl) h _

theorem only_crossingError (hm : Within (F.logs ||| F.net) φ) (h : Only φ u s) (t) : Only φ u (crossingError t s) := by
  unfold crossingError
  exact only_crossErr (hm.of rfl) (only_txUpd (hm.of rfl) h _ _) _ _ _ _

theorem only_toPairs (hm : Within (F.cols ||| F.t2q) φ) (h : Only φ u s) (t) : Only φ u (toPairs t s) := by
  unfold toPairs
  split
  · exact only_foldl (φ := φ) (fun _ _ h1 => (only_pairSet (hm.of rfl) h1 _ _)) h
  · exact only_colupd (hm.of rfl) h _ _
  · exact h

theorem only_setLast (hm : Within F.therm φ) (h : Only φ u s) (ch v) : Only φ u (setLast ch v s) := by
  unfold setLast
  exact only_with hm rfl h

theorem only_readChan (hm : Within (F.logs ||| F.therm) φ) (h : Only φ u s) (rd stuck ch) : Only φ u (readChan rd stuck ch s) := by
  unfold readChan
  split
  · exact h
  · exact only_noteSensor (hm.of rfl) h _ _ _
  · exact only_noteSensor (hm.of rfl) (only_ite (only_noteCode (hm.of rfl) h _ _) (only_setLast (hm.of rfl) (only_noteCode (hm.of rfl) h _ _) _ _)) _ _ _

theorem only_lifeRecord (hm : Within (F.regs ||| F.telem ||| F.hostOut ||| F.fab) φ) (h : Only φ u s) (n thr) : Only φ u (lifeRecord n thr s) := by
  unfold lifeRecord
  exact only_telEmit (hm.of rfl) h _

theorem only_regulatorLoss (hm : Within F.therm φ) (h : Only φ u s) : Only φ u (regulatorLoss s) := by
  unfold regulatorLoss
  exact only_with hm rfl h

theorem only_coarsePower (hm : Within F.pwr φ) (h : Only φ u s) (vals) : Only φ u (coarsePower vals s) := by
  unfold coarsePower
  exact only_ite (only_with hm rfl h) (only_with hm rfl h)

theorem only_loopMeasure (hm : Within (F.regs ||| F.pwr ||| F.therm) φ) (h : Only φ u s) (pk p hub) : Only φ u (loopMeasure pk p hub s) := by
  unfold loopMeasure
  exact only_regulatorLoss (hm.of rfl)
    (only_coarsePower (hm.of rfl) (only_iter (φ := φ) (fun _ _ h1 => (only_rupd (hm.of rfl) h1 _ _)) (only_rupd (hm.of rfl) (only_with (a := F.pwr) (hm.of rfl) rfl h) _ _)) _)

theorem only_loopRaise (hm : Within (F.regs ||| F.pwr) φ) (h : Only φ u s) (n) : Only φ u (loopRaise n s) := by
  unfold loopRaise
  exact only_ite (only_twrPublish (hm.of rfl) (only_setLoopW (hm.of rfl) h _ _) _ _)
    (only_ite (only_twrPublish (hm.of rfl) (only_setLoopC (hm.of rfl) h _ _) _ _) (only_twrPublish (hm.of rfl) h _ _))

theorem only_loopLower (hm : Within (F.regs ||| F.pwr) φ) (h : Only φ u s) (n p dram cause) : Only φ u (loopLower n p dram cause s) := by
  unfold loopLower
  exact only_ite (only_twrPublish (hm.of rfl) (only_setLoopW (hm.of rfl) h _ _) _ _)
    (only_ite (only_twrPublish (hm.of rfl) (only_setLoopC (hm.of rfl) h _ _) _ _) (only_twrPublish (hm.of rfl) h _ _))

theorem only_loopTower (hm : Within (F.regs ||| F.pwr) φ) (h : Only φ u s) (n p dram pk) : Only φ u (loopTower n p dram pk s) := by
  unfold loopTower
  exact only_ite (only_loopLower (hm.of rfl) h _ _ _ _)
    (only_ite (only_loopLower (hm.of rfl) h _ _ _ _) (only_ite (only_loopRaise (hm.of rfl) h _) (only_twrPublish (hm.of rfl) h _ _)))

theorem only_lenReads (hm : Within (F.reads ||| F.nextTag ||| F.hostOut) φ) : ∀ {s}, Only φ u s → ∀ fn p addr a a4 a5, Only φ u (lenReads fn p addr a a4 a5 s)
  | _, h, _, _, _, 0, _, _ => by
    rw [lenReads]
    exact h
  | _, h, _, _, _, (n + 1), _, _ => by
    rw [lenReads]
    exact only_ite h (only_lenReads (hm.of rfl) (only_hostRead (hm.of rfl) h _ _ _ _) _ _ _ _ _ _)

theorem only_loadFuses (hm : Within F.boot φ) (h : Only φ u s) : Only φ u (loadFuses s) := by
  unfold loadFuses
  exact only_foldl (φ := φ) (fun _ _ h1 => (only_setBrg (hm.of rfl) h1 _ _)) (only_foldl (φ := φ) (fun _ _ h2 => (only_setBond (hm.of rfl) h2 _ _)) (only_with hm rfl h))

theorem only_loopAdjust (hm : Within (F.regs ||| F.pwr) φ) (h : Only φ u s) (pk p) : Only φ u (loopAdjust pk p s) := by
  unfold loopAdjust
  exact only_iter (φ := φ) (fun _ _ h1 => (only_rupd (hm.of rfl) h1 _ _))
    (only_ite (only_rupd (hm.of rfl) (only_iter (φ := φ) (fun _ _ h2 => (only_loopTower (hm.of rfl) h2 _ _ _ _)) h) _ _)
       (only_iter (φ := φ) (fun _ _ h3 => (only_loopTower (hm.of rfl) h3 _ _ _ _)) h))

theorem only_bootDebug (hm : Within (F.regs ||| F.sec) φ) (h : Only φ u s) : Only φ u (bootDebug s) := by
  unfold bootDebug
  exact only_rset (hm.of rfl) (only_with (a := F.sec) (hm.of rfl) rfl h) _ _

theorem only_t2Write (hm : Within (F.t2 ||| F.ctrs ||| F.t2poison) φ) (h : Only φ u s) (off v tx) : Only φ u (t2Write off v tx s) := by
  unfold t2Write
  exact only_tallyHub (hm.of rfl) (only_with (a := (F.t2 ||| F.t2poison)) (hm.of rfl) rfl h) _ _ _ _

theorem only_spWriteFrom (hm : Within (F.logs ||| F.sp ||| F.spChk ||| F.spWr) φ) : ∀ {s}, Only φ u s → ∀ c m a a3 a4, Only φ u (spWriteFrom c m a a3 a4 s)
  | _, h, _, _, 0, _, _ => by
    rw [spWriteFrom]
    exact h
  | _, h, _, _, (_ + 1), _, [] => by
    rw [spWriteFrom]
    exact h
    exact nofun
  | _, h, _, _, (n + 1), _, (_ :: _) => by
    rw [spWriteFrom]
    exact only_spWriteFrom (hm.of rfl)
      (only_ite (only_spWrite (hm.of rfl) h _ _ _) (only_ite (only_spNarrowNow (hm.of rfl) h _ _ _ _) (only_spNarrow (hm.of rfl) h _ _ _ _))) _ _ _ _ _
    exact nofun

theorem only_spWriteBytes (hm : Within (F.logs ||| F.sp ||| F.spChk ||| F.spWr) φ) (h : Only φ u s) (c m off v) : Only φ u (spWriteBytes c m off v s) := by
  unfold spWriteBytes
  exact only_spWriteFrom (hm.of rfl) h _ _ _ _ _

theorem only_t2Serve (hm : Within (F.logs ||| F.t2 ||| F.net ||| F.t2poison) φ) (h : Only φ u s) (r err) : Only φ u (t2Serve r err s) := by
  unfold t2Serve
  dsimp only
  split
  · exact only_ite (only_with (a := F.t2poison) (hm.of rfl) rfl (only_ite (only_t2Corrected (hm.of rfl) h _ _) h))
      (only_ite
         (only_txUpd (hm.of rfl)
            (only_with (a := F.t2poison) (hm.of rfl) rfl
               (only_ite (only_crossErr (hm.of rfl) (only_ite (only_t2Corrected (hm.of rfl) h _ _) h) _ _ _ _)
                  (only_t2Poisoned (hm.of rfl) (only_ite (only_t2Corrected (hm.of rfl) h _ _) h) _ _))) _ _)
         (only_t2Write (hm.of rfl) (only_ite (only_t2Corrected (hm.of rfl) h _ _) h) _ _ _))
  · exact only_ite (only_txUpd (hm.of rfl) (only_t2Read (hm.of rfl) (only_ite (only_t2Corrected (hm.of rfl) h _ _) h) _ _ _) _ _)
      (only_ite
         (only_txUpd (hm.of rfl)
            (only_ite (only_crossErr (hm.of rfl) (only_t2Read (hm.of rfl) (only_ite (only_t2Corrected (hm.of rfl) h _ _) h) _ _ _) _ _ _ _)
               (only_t2Poisoned (hm.of rfl) (only_t2Read (hm.of rfl) (only_ite (only_t2Corrected (hm.of rfl) h _ _) h) _ _ _) _ _)) _ _)
         (only_ite (only_txUpd (hm.of rfl) (only_t2Poisoned (hm.of rfl) (only_t2Read (hm.of rfl) (only_ite (only_t2Corrected (hm.of rfl) h _ _) h) _ _ _) _ _) _ _)
            (only_txUpd (hm.of rfl) (only_t2Read (hm.of rfl) (only_ite (only_t2Corrected (hm.of rfl) h _ _) h) _ _ _) _ _)))

theorem only_targetAdmit (hm : Within (F.logs ||| F.net ||| F.t2q) φ) (h : Only φ u s) (id full parity) : Only φ u (targetAdmit id full parity s) := by
  unfold targetAdmit
  dsimp only
  split
  · exact h
  · exact only_ite h
      (only_ite (only_toPairs (hm.of rfl) (only_txUpd (hm.of rfl) (only_ite (only_crossingError (hm.of rfl) h _) h) _ _) _) (by
           split
           · exact only_tallyClu (hm.of rfl)
               (only_cluUpd (hm.of rfl)
                  (only_foldl (φ := φ) (fun _ _ h1 => (only_txUpd (hm.of rfl) h1 _ _))
                     (only_txUpd (hm.of rfl) (only_setResv (hm.of rfl) (only_ite (only_crossingError (hm.of rfl) h _) h) _ _) _ _)) _ _ _) _ _ _ _
           · exact only_foldl (φ := φ) (fun _ _ h2 => (only_txUpd (hm.of rfl) h2 _ _))
               (only_txUpd (hm.of rfl) (only_setResv (hm.of rfl) (only_ite (only_crossingError (hm.of rfl) h _) h) _ _) _ _)))

end

end Sys2Proof.Machine
end


section
/-! FW_STAGE, LIFECYCLE and ATTEST_GET (O51). -/

namespace Sys2Proof.Machine

/-! ## FW_STAGE -/

theorem fwStage_stages (img : List Byte) : completes (fun w => .fwStage w img) 0x0702
    (fun b => payAt b 12 1 / 16 != 0 || payNZ b 13 11)
    (fun k u => imageStatus u (payAt k.bytes 8 4) img = 0) (fun _ _ => 0)
    (fun k u => (List.range 4).foldl (fun s h => if bitAt (payAt k.bytes 12 1) h then
      stageImage h { svn := leAt img 12 1 % 64, digest := (img.drop 16).take 64 } s else s) u) :=
  completes_of_body (fun _ _ => by rw [exec, execFwStage]) fun _ _ h => if_neg (not_not.2 h)

theorem imageStatus_rollback {s : State} {len : Nat} {img : List Byte} (hlen : img.length = len) (hbody : len = 4096 + leAt img 8 4)
    (hsvn : leAt img 12 1 % 64 < s.sec.svnFuse) : imageStatus s len img = 0x0407 := by
  rw [imageStatus]
  rw [if_neg (by simp [hlen, ← hbody])]
  exact if_pos (by simp [hsvn])

theorem fwStage_rollback (img : List Byte) : refuses (fun w => .fwStage w img) 0x0702
    (fun b => payAt b 12 1 / 16 != 0 || payNZ b 13 11)
    (fun k u => img.length = payAt k.bytes 8 4 ∧ payAt k.bytes 8 4 = 4096 + leAt img 8 4 ∧
      leAt img 12 1 % 64 < u.sec.svnFuse) 0x0407 := by
  intro w k s hadm ⟨hlen, hbody, hsvn⟩
  have hunfold : exec (.fwStage w img) s = execFwStage w img s := by rw [exec]
  rw [hunfold, execFwStage, runCmd_admitted hadm, imageStatus_rollback hlen hbody hsvn]
  rfl

theorem find?_stIns_same {α : Type} (k : Nat) (v : α) (st : Store α) (h : ∀ e ∈ st, e.1 ≠ k) :
    (stIns k v st).find? (fun e => e.1 == k) = some (k, v) := by
  induction st with
  | nil => simp [stIns]
  | cons e r ih =>
    obtain ⟨j, x⟩ := e
    have hj : j ≠ k := h (j, x) (List.mem_cons_self ..)
    rw [stIns]
    split
    · simp
    · rw [List.find?_cons_of_neg (by simpa using hj)]
      exact ih fun e he => h e (List.mem_cons_of_mem _ he)

theorem find?_stIns_other {α : Type} {k i : Nat} (v : α) (st : Store α) (h : i ≠ k) :
    (stIns k v st).find? (fun e => e.1 == i) = st.find? (fun e => e.1 == i) := by
  induction st with
  | nil => simp [stIns, Ne.symm h]
  | cons e r ih =>
    obtain ⟨j, x⟩ := e
    rw [stIns]
    split
    · rw [List.find?_cons_of_neg (by simpa using Ne.symm h)]
    · rw [List.find?_cons, List.find?_cons, ih]

theorem imgOf_replaced_same (h : Nat) (x : FwImg) (st : Store FwImg) : imgOf (stIns h x (stDel st h)) h = some x := by
  rw [imgOf, find?_stIns_same h x _ (stDel_keys st h)]
  rfl

theorem imgOf_replaced_other {h i : Nat} (x : FwImg) (st : Store FwImg) (hi : i ≠ h) :
    imgOf (stIns h x (stDel st h)) i = imgOf st i := by
  rw [imgOf, find?_stIns_other _ _ hi, stDel, List.find?_filter, imgOf]
  have hpred : (fun e : Nat × FwImg => decide ((e.1 != h) = true ∧ (e.1 == i) = true)) = fun e => e.1 == i := funext fun e => by
    by_cases he : e.1 = i
    · simp [he, hi]
    · simp [he]
  rw [hpred]

theorem stageImage_stages (h : Nat) (x : FwImg) (s : State) : imgOf (stageImage h x s).sec.staged h = some x ∧
    (∀ i, i ≠ h → imgOf (stageImage h x s).sec.staged i = imgOf s.sec.staged i) ∧
    (∀ r, imgOf s.sec.run h = some r → imgOf (stageImage h x s).sec.prev h = some r) ∧
    (stageImage h x s).sec.run = s.sec.run := by
  refine ⟨imgOf_replaced_same _ _ _, fun i hi => imgOf_replaced_other _ _ hi, fun r hr => ?_, rfl⟩
  rw [stageImage, hr]
  exact imgOf_replaced_same _ _ _

/-! ## LIFECYCLE -/

theorem only_freshNonce' (s : State) : Only (F.regs ||| F.fresh) s (freshNonce s) :=
  only_freshNonce (φ := F.regs ||| F.fresh) rfl (Only.refl _ _)

/-- The state that applying a change of life cycle restarts. -/
def lifecycleSet (target : Nat) (s : State) : State :=
  if 0x80 ≤ target then { wipeSaggar s with sec := { (wipeSaggar s).sec with pendDebug := some target } }
  else { wipeSaggar s with sec := { (wipeSaggar s).sec with lcFuse := target, tamperNv := 0 } }

theorem lifecycleApply_eq (target : Nat) (s : State) :
    lifecycleApply target s = startBegin true (deviceReset (rupd 0x48 (fun w => wPut w 30 30 1) (lifecycleSet target s))) := rfl

/-- What a reset of the device keeps of the root of trust. -/
theorem deviceReset_sec (s : State) : (deviceReset s).sec.ids = s.sec.ids ∧ (deviceReset s).sec.sessions = [] ∧
    (deviceReset s).sec.lcFuse = s.sec.lcFuse ∧ (deviceReset s).sec.tamperNv = s.sec.tamperNv ∧
    (deviceReset s).sec.pendDebug = s.sec.pendDebug := by
  rw [deviceReset]
  generalize wFld (rget s 0x48) 30 30 = b
  rw [rupd_sec]
  exact ⟨rfl, rfl, rfl, rfl, rfl⟩

/-- What wiping the saggar region may change. -/
def F.pagesLost : Nat := F.srams ||| F.parts ||| F.fresh

theorem wipeSaggar_lcFuse (s : State) : (wipeSaggar s).sec.lcFuse = s.sec.lcFuse := by
  have hkeep : Only F.pagesLost s ((s.parts.map Prod.fst).foldl (fun s p => pupd p forgetKeys (hostPagesLost p s)) s) :=
    only_foldl (φ := F.pagesLost) (fun _ _ h => only_pupd (φ := F.pagesLost) rfl (only_hostPagesLost (φ := F.pagesLost) rfl h _) _ _)
      (Only.refl _ _)
  rw [wipeSaggar, rupd_sec]
  have hsec := hkeep.sec rfl
  have hfuse := congrArg SecSt.lcFuse hsec
  exact hfuse

theorem lifecycleSet_sec (target : Nat) (s : State) : (lifecycleSet target s).sec.ids = false ∧
    (lifecycleSet target s).sec.sessions = [] ∧
    (target < 0x80 → (lifecycleSet target s).sec.lcFuse = target ∧ (lifecycleSet target s).sec.tamperNv = 0) ∧
    (0x80 ≤ target → (lifecycleSet target s).sec.lcFuse = s.sec.lcFuse ∧ (lifecycleSet target s).sec.pendDebug = some target) := by
  obtain ⟨hids, hsessions⟩ := wipeSaggar_sec s
  have hlc := wipeSaggar_lcFuse s
  rw [lifecycleSet]
  generalize wipeSaggar s = u at hids hsessions hlc
  split
  · next hdebug => exact ⟨hids, hsessions, fun h => absurd hdebug (by omega), fun _ => ⟨hlc, rfl⟩⟩
  · next hcycle => exact ⟨hids, hsessions, fun _ => ⟨rfl, rfl⟩, fun h => absurd h hcycle⟩

theorem lifecycleApply_restarts (target : Nat) (s : State) : ∃ t, t = lifecycleApply target s ∧
      t.boot.next = some 0 ∧ t.boot.full = true ∧ t.stage = 0 ∧ t.booted = false ∧ t.sec.ids = false ∧ t.sec.sessions = [] ∧
      (target < 0x80 → t.sec.lcFuse = target ∧ t.sec.tamperNv = 0) ∧
      (0x80 ≤ target → t.sec.lcFuse = s.sec.lcFuse ∧ t.sec.pendDebug = some target) := by
  obtain ⟨hids, hsessions, hlow, hhigh⟩ := lifecycleSet_sec target s
  rw [lifecycleApply_eq]
  generalize lifecycleSet target s = u at hids hsessions hlow hhigh
  obtain ⟨v, hv⟩ : ∃ v, v = rupd 0x48 (fun w => wPut w 30 30 1) u := ⟨_, rfl⟩
  have hsec : v.sec = u.sec := by rw [hv, rupd_sec]
  rw [← hv]
  obtain ⟨rids, rsessions, rlc, rnv, rdebug⟩ := deviceReset_sec v
  rw [hsec] at rids rlc rnv rdebug
  generalize deviceReset v = r at rids rsessions rlc rnv rdebug
  refine ⟨_, rfl, rfl, ?_, rfl, rfl, rids.trans hids, rsessions, fun h => ?_, fun h => ?_⟩
  · simp [startBegin]
  · obtain ⟨hfuse, hnv⟩ := hlow h
    exact ⟨rlc.trans hfuse, rnv.trans hnv⟩
  · obtain ⟨hfuse, hdebug⟩ := hhigh h
    exact ⟨rlc.trans hfuse, rdebug.trans hdebug⟩

theorem complete_sec (id status result detail : Nat) (s : State) : (complete id status result detail s).sec = s.sec :=
  (only_complete (φ := F.regs ||| F.wins ||| F.hostOut) rfl (Only.refl _ _) _ _ _ _).sec rfl

theorem lifecycle_changes {w : Fin 128} {obj : List Byte} {k : Pkt} {s : State}
    (h : admitted w 0x0703 (fun b => payNZ b 1 7 || payNZ b 20 4) k s) (htamper : s.sec.tampering = false) :
    let target := payAt k.bytes 0 1
    let u := freshNonce (startPkt k s)
    (lifecycleStatus (startPkt k s) k.bytes obj = 0 → ∃ t, exec (.lifecycle w obj) s = .next t ∧
      t = lifecycleApply target (complete k.id 0 (if 0x80 ≤ target then s.sec.lcFuse else target) 0 u) ∧
      t.boot.next = some 0 ∧ t.boot.full = true ∧ t.stage = 0 ∧ t.booted = false ∧ t.sec.ids = false ∧ t.sec.sessions = [] ∧
      (target < 0x80 → t.sec.lcFuse = target ∧ t.sec.tamperNv = 0) ∧
      (0x80 ≤ target → t.sec.lcFuse = s.sec.lcFuse ∧ t.sec.pendDebug = some target)) ∧
    (lifecycleStatus (startPkt k s) k.bytes obj ≠ 0 → exec (.lifecycle w obj) s =
      .next (complete k.id (lifecycleStatus (startPkt k s) k.bytes obj) 0 0 u)) := by
  intro target u
  have hsec : u.sec = s.sec := (only_freshNonce' (startPkt k s)).sec rfl
  have hunfold : exec (.lifecycle w obj) s = execLifecycle w obj s := by rw [exec]
  have htamper' : ¬ (startPkt k s).sec.tampering = true := by
    rw [(only_startPkt k s).sec rfl, htamper]
    exact Bool.false_ne_true
  rw [hunfold, execLifecycle, runCmd_admitted h]
  refine ⟨fun hst => ?_, fun hst => congrArg Host.Outcome.next ((if_neg htamper').trans (if_pos hst))⟩
  obtain ⟨t, ht, hnext, hfull, hstage, hboot, hids, hsessions, hlow, hhigh⟩ := lifecycleApply_restarts target
    (complete k.id 0 (if 0x80 ≤ target then s.sec.lcFuse else target) 0 u)
  rw [complete_sec, hsec] at hhigh
  refine ⟨t, congrArg Host.Outcome.next ((if_neg htamper').trans ((if_neg (not_not.2 hst)).trans ?_)), ht, hnext, hfull, hstage, hboot,
    hids, hsessions, hlow, hhigh⟩
  rw [ht, ← hsec]

theorem lifecycleStatus_rules (s : State) (b obj : List Byte) : ((∃ p, (pget s p).state ≠ 0) → lifecycleStatus s b obj = 0x0304) ∧
    ((∀ e ∈ s.parts, e.2.state = 0) → lcChange s.sec.lcFuse (payAt b 0 1) = none → lifecycleStatus s b obj = 0x0403) ∧
    ((∀ e ∈ s.parts, e.2.state = 0) → lcChange s.sec.lcFuse (payAt b 0 1) = some true → lifecycleStatus s b obj = 0 →
      authOk s (payAt b 0 1) obj = true) := by
  have hnone (h : ∀ e ∈ s.parts, e.2.state = 0) : ¬ s.parts.any (fun e => e.2.state != 0) = true := by
    simpa using fun a q hq => h (a, q) hq
  refine ⟨fun ⟨p, hp⟩ => ?_, fun h hlc => ?_, fun h hlc h0 => ?_⟩
  · have hmem : (p, pget s p) ∈ s.parts := mem_of_stGet_ne fun hreset => hp (congrArg PartSt.state hreset)
    exact if_pos (List.any_eq_true.2 ⟨_, hmem, by simpa using hp⟩)
  · rw [lifecycleStatus]
    rw [if_neg (hnone h), hlc]
  · rw [lifecycleStatus] at h0
    rw [if_neg (hnone h), hlc] at h0
    change (if _ then _ else _) = 0 at h0
    by_contra hauth
    split at h0
    · exact absurd h0 (by decide)
    · exact absurd h0 (by decide)

/-! ## ATTEST_GET -/

theorem attestGet_answers {w : Fin 128} {nonce : List Byte} {k : Pkt} {s : State} (h : admitted w 0x0704 (fun b => payNZ b 12 4) k s) :
    let u := startPkt k s
    (s.sec.ids = true → 3072 ≤ payAt k.bytes 8 4 → exec (.attestGet w nonce) s = .next (complete k.id 0 3072 0
      (hostPut (winFn k.win) (payAt k.bytes 0 8) (report (if w.val < 64 then none else some (w.val - 64)) nonce u) u))) ∧
    (s.sec.ids = true → payAt k.bytes 8 4 < 3072 → exec (.attestGet w nonce) s = .next (complete k.id 0x0107 0 0 u)) ∧
    (s.sec.ids = false → exec (.attestGet w nonce) s = .next (complete k.id 0x0403 0 0 u)) := by
  intro u
  have hunfold : exec (.attestGet w nonce) s = execAttestGet w nonce s := by rw [exec]
  have hids : u.sec.ids = s.sec.ids := by rw [(only_startPkt k s).sec rfl]
  have hready (h : s.sec.ids = true) : ¬ (!u.sec.ids) = true := by simp [hids, h]
  rw [hunfold, execAttestGet, runCmd_admitted h]
  exact ⟨fun h1 hlen => congrArg Host.Outcome.next ((if_neg (hready h1)).trans (if_neg (by omega))),
    fun h1 hlen => congrArg Host.Outcome.next ((if_neg (hready h1)).trans (if_pos hlen)),
    fun h0 => congrArg Host.Outcome.next (if_pos (by simp [u, hids, h0]))⟩

theorem layoutEntry_length (s : State) (p : Nat) : (layoutEntry s p).length = 16 := by
  rw [layoutEntry]
  split <;> simp [zeros]

theorem reportBody_length (req : Option Nat) (nonce : List Byte) (s : State) : (reportBody req nonce s).length = 1792 := by
  have hide (b : Bool) (x y : Nat) : (ideEntry b x y).length = 4 := leBytes_length _ _
  have hzeros (n : Nat) : (zeros n).length = n := List.length_replicate
  unfold reportBody
  simp only [List.length_append, leBytes_length, fitBytes_length, hide, hzeros, List.length_flatMap, apply_ite List.length,
    layoutEntry_length, List.length_cons, List.length_nil, ite_self, List.map_const', List.sum_replicate, List.length_range]
  norm_num

theorem report_layout (req : Option Nat) (nonce : List Byte) (s : State) : (report req nonce s).length = 3072 ∧
    (report req nonce s).take 1792 = reportBody req nonce s ∧
    (report req nonce s).drop 1792 = fitBytes 1280 (Config.sign true (aliasOf s) (Config.digest 64 (reportBody req nonce s))) := by
  have hlen := reportBody_length req nonce s
  rw [report]
  refine ⟨?_, ?_, ?_⟩
  · rw [List.length_append, hlen, fitBytes_length]
  · rw [← hlen, List.take_left]
  · rw [← hlen, List.drop_left]

end Sys2Proof.Machine

open Sys2Proof.Machine

/-- Settles O51: the staging of images, the changes of the life cycle, and the attestation report. -/
theorem securityCommands : Obligations.SecurityCommands :=
  ⟨fwStage_stages, stageImage_stages, fwStage_rollback, fun _ _ _ _ h => lifecycle_changes h, lifecycleStatus_rules,
    fun _ _ _ _ => attestGet_answers, report_layout⟩
end

section
/-! Counters, snapshots and telemetry (O50). -/

namespace Sys2Proof.Machine

theorem Only.snap {m : Nat} {s t : State} (h : Only m s t) (hm : m.testBit 56 = false) : t.snap = s.snap := by
  rw [← h, mix, hm, cond_false]

theorem Only.telem {m : Nat} {s t : State} (h : Only m s t) (hm : m.testBit 26 = false) : t.telem = s.telem := by
  rw [← h, mix, hm, cond_false]

/-! ## COUNTER_CFG -/

theorem ctrGet_startPkt (k : Pkt) (s : State) (c : Nat) : ctrGet (startPkt k s) c = ctrGet s c := rfl

theorem counterCfg_loads {w : Fin 128} {k : Pkt} {c : Nat} {s : State} (h : admitted w 0x0603 (fun b => payNZ b 3 1 ||
      fld (payAt b 8 4) 29 20 != 0 || fld (payAt b 8 4) 15 12 != 0 || fld (payAt b 8 4) 7 0 != 0) k s) :
    (cfgCheck (startPkt k s) w k.bytes = .ok c → ∃ u, exec (.counterCfg w) s = .next (complete k.id 0 0 0 u) ∧
      ctrGet u c = ctrLoad w k.bytes (ctrGet s c) ∧ (∀ j, j ≠ c → ctrGet u j = ctrGet s j) ∧
      { u with ctrs := s.ctrs } = startPkt k s) ∧
    (∀ st, cfgCheck (startPkt k s) w k.bytes = .error st →
      exec (.counterCfg w) s = .next (complete k.id st 0 0 (startPkt k s))) := by
  have hunfold : exec (.counterCfg w) s = execCounterCfg w s := by rw [exec]
  rw [hunfold, execCounterCfg, runCmd_admitted h]
  refine ⟨fun hok => ?_, fun st herr => ?_⟩
  · rw [hok]
    exact ⟨_, rfl, stGet_stSet_same _ _ _ _, fun j hj => stGet_stSet_other _ _ _ hj, rfl⟩
  · rw [herr]

/-- A field of a number whose field `hi` to `lo`, apart from it, is replaced. -/
theorem fld_putFld_disjoint (w v : Nat) {hi lo hi' lo' : Nat} (hlo : lo ≤ hi) (hdis : hi < lo' ∨ hi' < lo) :
    fld (putFld w hi lo v) hi' lo' = fld w hi' lo' := by
  refine Nat.eq_of_testBit_eq fun i => ?_
  rw [testBit_fld, testBit_fld, testBit_putFld _ _ _ hlo]
  by_cases hi : i < hi' + 1 - lo'
  · rw [if_neg (by omega)]
  · simp [hi]

theorem fld_loadFilt_opcode (w : Nat) : (fld w 19 16 ≠ 0 → fld (loadFilt w) 19 16 = fld w 19 16) ∧
    (fld w 19 16 = 0 → fld (loadFilt w) 19 16 = 15) := by
  have hlater (x : Nat) : fld (if fld x 11 8 = 0 then putFld x 11 8 15 else x) 19 16 = fld x 19 16 := by
    split
    · exact fld_putFld_disjoint _ _ (by decide) (by decide)
    · rfl
  rw [loadFilt]
  refine ⟨fun h => ?_, fun h => ?_⟩
  · rw [if_neg h]
    exact hlater w
  · rw [if_pos h]
    exact (hlater _).trans (fld_putFld_same _ _ _ _)

/-- A virtual function's filter shows no traffic of the other kinds. -/
theorem fld_hidden (f : Nat) : fld (putFld f 11 8 (Nat.land (fld f 11 8) 12)) 9 8 = 0 := by
  refine Nat.eq_of_testBit_eq fun i => ?_
  rw [testBit_fld, testBit_putFld _ _ _ (by decide), Nat.zero_testBit]
  by_cases hi : i < 2
  · rw [if_pos (by omega), show 8 + i - 8 = i by omega]
    change (_ && Nat.testBit (fld f 11 8 &&& 12) i) = false
    have hbit : Nat.testBit 12 i = false := by
      interval_cases i <;> rfl
    rw [Nat.testBit_and, hbit, Bool.and_false, Bool.and_false]
  · simp [hi]

theorem ctrLoad_rules (w : Nat) (b : List Byte) (k : Ctr) : (cfgEvt b = 0 → ctrLoad w b k = { k with evt := 0 }) ∧
    (cfgEvt b ≠ 0 → (ctrLoad w b k).val = 0 ∧ (ctrLoad w b k).ovf = false ∧ (ctrLoad w b k).evt = cfgEvt b ∧
      (w < 64 → fld (payAt b 8 4) 19 16 ≠ 0 → fld (ctrLoad w b k).filt 19 16 = fld (payAt b 8 4) 19 16) ∧
      (fld (payAt b 8 4) 19 16 = 0 → fld (ctrLoad w b k).filt 19 16 = 15) ∧
      (64 ≤ w → w < 128 → fld (ctrLoad w b k).master 15 10 = w - 64 ∧ fld (ctrLoad w b k).filt 30 30 = 1 ∧
        fld (ctrLoad w b k).filt 9 8 = 0)) := by
  refine ⟨fun h => if_pos h, fun h => ?_⟩
  obtain ⟨hkeep, hall⟩ := fld_loadFilt_opcode (payAt b 8 4)
  rw [ctrLoad, if_neg h]
  refine ⟨rfl, rfl, rfl, fun hw h0 => ?_, fun h0 => ?_, fun hw hlt => ?_⟩
  · simp only [decide_eq_false (by omega : ¬ 64 ≤ w), Bool.false_eq_true, if_false]
    exact hkeep h0
  · dsimp only
    split
    · rw [fld_putFld_disjoint _ _ (by decide) (by decide), fld_putFld_disjoint _ _ (by decide) (by decide)]
      exact hall h0
    · exact hall h0
  · simp only [decide_eq_true hw, if_true]
    refine ⟨?_, ?_, ?_⟩
    · rw [fld_putFld_same]
      omega
    · rw [fld_putFld_same]
      rfl
    · rw [fld_putFld_disjoint _ _ (by decide) (by decide)]
      exact fld_hidden _

theorem cfgCheck_level {s : State} {w c : Nat} {b : List Byte} (h : cfgCheck s w b = .ok c) (he : cfgEvt b ≠ 0) :
    bitAt (evtLevels (cfgEvt b)) (cfgLevel b) = true := by
  by_contra hlevel
  rw [cfgCheck] at h
  split at h
  · cases h
  · split at h
    · cases h
    · rw [if_pos (by simp [he, hlevel])] at h
      cases h

/-! ## Asking for a snapshot -/

theorem rupd_frame (k : Nat) (f : Word → Word) (s : State) : { rupd k f s with regs := s.regs } = s := rfl

theorem snapShow_flags (s : State) : wBit (rget (snapShow s) (snapBase + 4)) 31 = s.snap.run.isSome ∧
    wBit (rget (snapShow s) (snapBase + 4)) 29 = s.snap.pend.isSome ∧
    wFld (rget (snapShow s) (snapBase + 4)) 28 0 = wFld (rget s (snapBase + 4)) 28 0 ∧
    (∀ o, o ≠ snapBase + 4 → rget (snapShow s) o = rget s o) ∧ { snapShow s with regs := s.regs } = s := by
  have hbit (b : Bool) : Nat.testBit (b2n b) 0 = b := by cases b <;> rfl
  rw [snapShow, rget_rupd_same]
  refine ⟨?_, ?_, ?_, fun o ho => by rw [rupd, rget_rset_other _ _ ho], rupd_frame _ _ _⟩
  · rw [wBit_wPut _ _ _ (by decide) (by decide), if_neg (by decide), wBit_wPut _ _ _ (by decide) (by decide), if_neg (by decide),
      wBit_wPut _ _ _ (by decide) (by decide), if_pos (by decide)]
    exact hbit _
  · rw [wBit_wPut _ _ _ (by decide) (by decide), if_pos (by decide)]
    exact hbit _
  · rw [wFld_wPut_disjoint _ _ (by decide) (by decide) (by decide), wFld_wPut_disjoint _ _ (by decide) (by decide) (by decide),
      wFld_wPut_disjoint _ _ (by decide) (by decide) (by decide)]

theorem snapShow_snap (s : State) : (snapShow s).snap = s.snap := rupd_snap _ _ _

theorem snapAsk_begins (r : SnapReq) {s : State} (h : s.snap.run = none) : (snapAsk r s).1 = true ∧
    (snapAsk r s).2.snap.run = some r ∧ (snapAsk r s).2.snap.t = (s.ns + 5005) / 10 * 10 ∧
    (snapAsk r s).2.snap.wait = liveDies s ∧ (snapAsk r s).2.snap.area = s.snap.area ∧
    wBit (rget (snapAsk r s).2 (snapBase + 4)) 31 = true ∧
    (∀ o, o ≠ snapBase + 4 → rget (snapAsk r s).2 o = rget s o) ∧ { (snapAsk r s).2 with snap := s.snap, regs := s.regs } = s := by
  have hask : snapAsk r s = (true, snapBegin r s) := if_pos (by simp [h])
  rw [hask, snapBegin]
  generalize hu : ({ s with snap := { s.snap with run := some r, t := (s.ns + 5005) / 10 * 10, wait := liveDies s,
                                                  lat := SnapImg.empty } } : State) = u
  obtain ⟨hrun, _, _, hregs, hframe⟩ := snapShow_flags u
  dsimp only
  rw [snapShow_snap]
  refine ⟨rfl, ?_, ?_, ?_, ?_, hrun.trans ?_, fun o ho => (hregs o ho).trans ?_, ?_⟩
  · rw [← hu]
  · rw [← hu]
  · rw [← hu]
  · rw [← hu]
  · rw [← hu]
    rfl
  · rw [← hu]
    rfl
  · have hback := congrArg (fun x : State => { x with snap := s.snap, regs := s.regs }) hframe
    rw [← hu] at hback ⊢
    exact hback

theorem snapAsk_waits (r : SnapReq) {s : State} (h : s.snap.run ≠ none) (hp : s.snap.pend = none) : (snapAsk r s).1 = true ∧
    (snapAsk r s).2.snap = { s.snap with pend := some r } ∧ wBit (rget (snapAsk r s).2 (snapBase + 4)) 29 = true ∧
    { (snapAsk r s).2 with snap := s.snap, regs := s.regs } = s := by
  have hask : snapAsk r s = (true, snapShow { s with snap := { s.snap with pend := some r } }) := by
    rw [snapAsk, if_neg (by simpa using h), hp]
  rw [hask]
  generalize hu : ({ s with snap := { s.snap with pend := some r } } : State) = u
  obtain ⟨_, hpend, _, _, hframe⟩ := snapShow_flags u
  dsimp only
  refine ⟨rfl, ?_, hpend.trans ?_, ?_⟩
  · rw [snapShow_snap, ← hu]
  · rw [← hu]
    rfl
  · have hback := congrArg (fun x : State => { x with snap := s.snap, regs := s.regs }) hframe
    rw [← hu] at hback ⊢
    exact hback

theorem snapAsk_second (r : SnapReq) {s : State} {q : SnapReq} (h : s.snap.run ≠ none) (hp : s.snap.pend = some q) : snapAsk r s =
    if r.round then (true, { s with snap := { s.snap with pend := some { q with round := true } } }) else (false, s) := by
  rw [snapAsk, if_neg (by simpa using h), hp]

theorem asksSnapshot_of_exec {i : Instr} {r : SnapReq} (hi : ∀ s, exec i s = .next (snapAsk r s).2) : asksSnapshot i r := fun s => by
  refine ⟨fun h => ?_, fun h hp => ?_⟩
  · obtain ⟨_, hask⟩ := snapAsk_begins r h
    exact ⟨_, hi s, hask⟩
  · obtain ⟨_, hask⟩ := snapAsk_waits r h hp
    exact ⟨_, hi s, hask⟩

theorem snapshot_asks {w : Fin 128} {k : Pkt} {s : State} (h : admitted w 0x0601 noResv k s) :
    (s.snap.run = none → ∃ t, exec (.snapshot w) s = .next t ∧
      t.snap.run = some { mode := 0, pkt := some k.id, round := false } ∧ t.snap.t = (s.ns + 5005) / 10 * 10 ∧
      t.snap.wait = liveDies s ∧ { t with snap := s.snap, regs := s.regs } = startPkt k s) ∧
    (s.snap.run ≠ none → s.snap.pend = none → ∃ t, exec (.snapshot w) s = .next t ∧
      t.snap = { s.snap with pend := some { mode := 0, pkt := some k.id, round := false } }) ∧
    (s.snap.run ≠ none → s.snap.pend ≠ none →
      exec (.snapshot w) s = .next (complete k.id 0x0205 0 0 (startPkt k s))) := by
  have hunfold : exec (.snapshot w) s = execSnapshot w s := by rw [exec]
  obtain ⟨u, hu⟩ : ∃ u, u = startPkt k s := ⟨_, rfl⟩
  have hsnap : u.snap = s.snap := by rw [hu]; exact (only_startPkt k s).snap rfl
  have hregs : u.regs = s.regs := by rw [hu]; exact (only_startPkt k s).regs rfl
  have hns : u.ns = s.ns := by rw [hu]; exact (only_startPkt k s).ns rfl
  have hlive : liveDies u = liveDies s := by rw [hu]; rfl
  rw [hunfold, execSnapshot, runCmd_admitted h]
  rw [← hsnap, ← hregs, ← hns, ← hlive, ← hu]
  refine ⟨fun hrun => ?_, fun hrun hp => ?_, fun hrun hp => ?_⟩
  · obtain ⟨hfirst, hr, ht, hwait, _, _, _, hframe⟩ := snapAsk_begins { mode := 0, pkt := some k.id, round := false } hrun
    exact ⟨_, congrArg Host.Outcome.next (if_pos hfirst), hr, ht, hwait, hframe⟩
  · obtain ⟨hfirst, hsnap', _⟩ := snapAsk_waits { mode := 0, pkt := some k.id, round := false } hrun hp
    exact ⟨_, congrArg Host.Outcome.next (if_pos hfirst), hsnap'⟩
  · obtain ⟨q, hq⟩ := Option.ne_none_iff_exists'.1 hp
    have hsecond := snapAsk_second { mode := 0, pkt := some k.id, round := false } hrun hq
    rw [hsecond]
    rfl

/-! ## Latching -/

/-- What a snapshot holds of a counter. -/
def ctrShown (e : Nat × Ctr) : Nat := e.2.val + b2n e.2.ovf * 2 ^ 48

/-- Every counter is latched with its value, or not yet. -/
def latchedSome (cs : Store Ctr) (vals : Store Nat) : Prop :=
  ∀ e ∈ cs, stGet (fun _ => 0) vals e.1 = 0 ∨ stGet (fun _ => 0) vals e.1 = ctrShown e

/-- A counter is latched. -/
def latchedCtr (e : Nat × Ctr) (vals : Store Nat) : Prop := stGet (fun _ => 0) vals e.1 = ctrShown e

theorem stWf_unique {α : Type} [DecidableEq α] {d : Nat → α} {st : Store α} (h : stWf d st = true) {e f : Nat × α} (he : e ∈ st)
    (hf : f ∈ st) (hk : e.1 = f.1) : e = f := by
  induction st with
  | nil => cases he
  | cons a r ih =>
    obtain ⟨_, hlt, hr⟩ := (stWf_cons d a.1 a.2 r).1 h
    rcases List.mem_cons.1 he with rfl | her
    · rcases List.mem_cons.1 hf with rfl | hfr
      · rfl
      · exact absurd (hlt f hfr) (by omega)
    · rcases List.mem_cons.1 hf with rfl | hfr
      · exact absurd (hlt e her) (by omega)
      · exact ih hr her hfr

theorem latchCtr_vals (e : Nat × Ctr) (s : State) (m : SnapImg) : (latchCtr e s m).vals =
    if ctrShown e = 0 then m.vals else stIns e.1 (ctrShown e) (stDel m.vals e.1) := rfl

theorem latchCtr_latches {cs : Store Ctr} (hwf : stWf (fun _ => Ctr.reset) cs = true) {e : Nat × Ctr} (he : e ∈ cs) (s : State)
    {m : SnapImg} (h : latchedSome cs m.vals) : latchedSome cs (latchCtr e s m).vals ∧ latchedCtr e (latchCtr e s m).vals ∧
      ∀ x ∈ cs, latchedCtr x m.vals → latchedCtr x (latchCtr e s m).vals := by
  rw [latchCtr_vals]
  split
  · next h0 =>
    refine ⟨h, ?_, fun _ _ hx => hx⟩
    rcases h e he with hz | hv
    · rw [latchedCtr, hz, h0]
    · exact hv
  · have hsame : stGet (fun _ => 0) (stIns e.1 (ctrShown e) (stDel m.vals e.1)) e.1 = ctrShown e :=
      stGet_stIns_same _ _ _ _ (stDel_keys _ _)
    have hother (x : Nat × Ctr) (hx : x.1 ≠ e.1) :
        stGet (fun _ => 0) (stIns e.1 (ctrShown e) (stDel m.vals e.1)) x.1 = stGet (fun _ => 0) m.vals x.1 := by
      rw [stGet_stIns_other _ _ _ hx, stGet_stDel_other _ _ hx]
    have hkey (x : Nat × Ctr) (hx : x ∈ cs) (hk : x.1 = e.1) : x = e := stWf_unique hwf hx he hk
    refine ⟨fun x hx => ?_, hsame, fun x hx hl => ?_⟩
    · by_cases hk : x.1 = e.1
      · rw [hkey x hx hk]
        exact .inr hsame
      · rw [hother x hk]
        exact h x hx
    · by_cases hk : x.1 = e.1
      · rw [hkey x hx hk]
        exact hsame
      · exact (hother x hk).trans hl

/-- Every counter of a list is latched, and what was latched stays. -/
theorem latchCtrs_latch {cs : Store Ctr} (hwf : stWf (fun _ => Ctr.reset) cs = true) (s : State) (l : List (Nat × Ctr))
    (hl : ∀ e ∈ l, e ∈ cs) : ∀ m : SnapImg, latchedSome cs m.vals →
      latchedSome cs (l.foldl (fun m e => latchCtr e s m) m).vals ∧
      (∀ e ∈ l, latchedCtr e (l.foldl (fun m e => latchCtr e s m) m).vals) ∧
      ∀ x ∈ cs, latchedCtr x m.vals → latchedCtr x (l.foldl (fun m e => latchCtr e s m) m).vals := by
  induction l with
  | nil => exact fun m h => ⟨h, nofun, fun _ _ hx => hx⟩
  | cons e r ih =>
    intro m h
    obtain ⟨hsome, hone, hkeep⟩ := latchCtr_latches hwf (hl e (List.mem_cons_self ..)) s h
    obtain ⟨rsome, rall, rkeep⟩ := ih (fun x hx => hl x (List.mem_cons_of_mem _ hx)) _ hsome
    refine ⟨rsome, fun x hx => ?_, fun x hx hlx => rkeep x hx (hkeep x hx hlx)⟩
    rcases List.mem_cons.1 hx with rfl | hxr
    · exact rkeep x (hl x (List.mem_cons_self ..)) hone
    · exact rall x hxr

/-- A snapshot being latched from the counters `cs`, of which `w0` had to latch, with the area `a`. -/
def latching (cs : Store Ctr) (w0 : NatSet) (a : SnapImg) (t : State) : Prop :=
  t.ctrs = cs ∧ latchedSome cs t.snap.lat.vals ∧ t.snap.area = a ∧ ∀ d, nsHas w0 d = false → nsHas t.snap.wait d = false

/-- Die `d` has latched. -/
def latchedDie (cs : Store Ctr) (mode : Nat) (late : Bool) (d : Nat) (t : State) : Prop :=
  nsHas t.snap.wait d = false ∧ (∀ e ∈ cs, ctrDie e.1 = d → latchedCtr e t.snap.lat.vals) ∧
    (mode = 1 → nsHas t.frozen d = true) ∧ (mode = 2 → nsHas t.frozen d = false) ∧
    (late = true → nsHas t.snap.lat.late d = true)

/-- What die `d` latches. -/
def dieImg (d : Nat) (s : State) : SnapImg :=
  (s.ctrs.filter (fun e => ctrDie e.1 == d)).foldl (fun m e => latchCtr e s m) s.snap.lat

theorem latchDie_eq (mode : Nat) (late : Bool) (d : Nat) (s : State) : (latchDie mode late d s).ctrs = s.ctrs ∧
    (latchDie mode late d s).snap.lat.vals = (dieImg d s).vals ∧ (latchDie mode late d s).snap.area = s.snap.area ∧
    (latchDie mode late d s).snap.wait = nsDel s.snap.wait d ∧
    (latchDie mode late d s).frozen = (if mode = 1 then nsAdd s.frozen d else if mode = 2 then nsDel s.frozen d else s.frozen) ∧
    (latchDie mode late d s).snap.lat.late = if late then nsAdd (dieImg d s).late d else (dieImg d s).late :=
  ⟨rfl, rfl, rfl, rfl, rfl, rfl⟩

theorem snapImg_late (m : SnapImg) (v l : Store Nat) : ({ m with vals := v, low := l } : SnapImg).late = m.late := rfl

theorem latchCtr_late (e : Nat × Ctr) (s : State) (m : SnapImg) : (latchCtr e s m).late = m.late :=
  snapImg_late m _ _

theorem dieImg_late (d : Nat) (s : State) : (dieImg d s).late = s.snap.lat.late :=
  List.foldlRecOn _ _ (motive := fun m : SnapImg => m.late = s.snap.lat.late) rfl fun _ hm _ _ => (latchCtr_late _ _ _).trans hm

theorem latchDie_latches {cs : Store Ctr} {w0 : NatSet} {a : SnapImg} (hwf : stWf (fun _ => Ctr.reset) cs = true) (mode : Nat)
    (late : Bool) (d : Nat) {s : State} (h : latching cs w0 a s) : latching cs w0 a (latchDie mode late d s) ∧
      latchedDie cs mode late d (latchDie mode late d s) ∧
      ∀ x, latchedDie cs mode late x s → latchedDie cs mode late x (latchDie mode late d s) := by
  obtain ⟨hctrs, hsome, harea, hwait⟩ := h
  have hsub : ∀ e ∈ s.ctrs.filter (fun e => ctrDie e.1 == d), e ∈ cs := fun e he => hctrs ▸ List.mem_of_mem_filter he
  obtain ⟨rsome, rall, rkeep⟩ := latchCtrs_latch hwf s _ hsub s.snap.lat hsome
  have hin (e : Nat × Ctr) (he : e ∈ cs) (hd : ctrDie e.1 = d) : e ∈ s.ctrs.filter (fun e => ctrDie e.1 == d) :=
    List.mem_filter.2 ⟨hctrs ▸ he, beq_iff_eq.2 hd⟩
  rw [← dieImg] at rsome rall rkeep
  obtain ⟨ectrs, evals, earea, ewait, efrozen, elate⟩ := latchDie_eq mode late d s
  rw [dieImg_late] at elate
  generalize latchDie mode late d s = t at ectrs evals earea ewait efrozen elate
  generalize dieImg d s = m at evals rsome rall rkeep
  rw [← evals] at rsome rall rkeep
  refine ⟨⟨ectrs.trans hctrs, rsome, earea.trans harea, fun x hx => ?_⟩,
    ⟨?_, fun e he hd => rall e (hin e he hd), fun hm => ?_, fun hm => ?_, fun hl => ?_⟩,
    fun x ⟨xwait, xvals, xone, xtwo, xlate⟩ => ⟨?_, fun e he hd => rkeep e he (xvals e he hd), fun hm => ?_, fun hm => ?_, fun hl => ?_⟩⟩
  · rw [ewait, nsHas_nsDel, hwait x hx, Bool.and_false]
  · rw [ewait, nsHas_nsDel]
    simp
  · rw [efrozen, if_pos hm, nsHas_nsAdd]
    simp
  · rw [efrozen, if_neg (by omega), if_pos hm, nsHas_nsDel]
    simp
  · rw [elate, if_pos hl, nsHas_nsAdd]
    simp
  · rw [ewait, nsHas_nsDel, xwait, Bool.and_false]
  · rw [efrozen, if_pos hm, nsHas_nsAdd, xone hm, Bool.or_true]
  · rw [efrozen, if_neg (by omega), if_pos hm, nsHas_nsDel, xtwo hm, Bool.and_false]
  · rw [elate, if_pos hl, nsHas_nsAdd, xlate hl, Bool.or_true]

theorem latchDies_latch {cs : Store Ctr} {w0 : NatSet} {a : SnapImg} (hwf : stWf (fun _ => Ctr.reset) cs = true) (mode : Nat)
    (late : Bool) (l : List Nat) : ∀ s : State, latching cs w0 a s →
      latching cs w0 a (l.foldl (fun s d => latchDie mode late d s) s) ∧
      (∀ d ∈ l, latchedDie cs mode late d (l.foldl (fun s d => latchDie mode late d s) s)) ∧
      ∀ x, latchedDie cs mode late x s → latchedDie cs mode late x (l.foldl (fun s d => latchDie mode late d s) s) := by
  induction l with
  | nil => exact fun s h => ⟨h, nofun, fun _ hx => hx⟩
  | cons d r ih =>
    intro s h
    obtain ⟨hnext, hone, hkeep⟩ := latchDie_latches hwf mode late d h
    obtain ⟨rnext, rall, rkeep⟩ := ih _ hnext
    refine ⟨rnext, fun x hx => ?_, fun x hx => rkeep x (hkeep x hx)⟩
    rcases List.mem_cons.1 hx with rfl | hxr
    · exact rkeep x hone
    · exact rall x hxr

theorem snapShow_kept (s : State) : (snapShow s).ctrs = s.ctrs ∧ (snapShow s).frozen = s.frozen :=
  ⟨rupd_ctrs _ _ _, rupd_frozen _ _ _⟩

theorem snapshotLatch_latches {dies : List (Fin 20)} {late : Bool} {r : SnapReq} {s : State} (hrun : s.snap.run = some r)
    (hlat : s.snap.lat = SnapImg.empty) (hwf : stWf (fun _ => Ctr.reset) s.ctrs = true) :
    ∃ t, exec (.snapshotLatch dies late) s = .next t ∧ (∀ d ∈ dies, nsHas t.snap.wait d = false) ∧
      (∀ d ∈ dies, nsHas s.snap.wait d = true → (∀ e ∈ s.ctrs, ctrDie e.1 = d.val →
          stGet (fun _ => 0) t.snap.lat.vals e.1 = e.2.val + b2n e.2.ovf * 2 ^ 48) ∧
        (r.mode = 1 → nsHas t.frozen d = true) ∧ (r.mode = 2 → nsHas t.frozen d = false) ∧
        (late = true → nsHas t.snap.lat.late d = true)) ∧ t.ctrs = s.ctrs ∧ t.snap.area = s.snap.area := by
  obtain ⟨l, hl⟩ : ∃ l, l = (dies.map Fin.val).filter (fun d => nsHas s.snap.wait d) := ⟨_, rfl⟩
  have hexec : exec (.snapshotLatch dies late) s = .next (snapShow (l.foldl (fun s d => latchDie r.mode late d s) s)) := by
    have hunfold : exec (.snapshotLatch dies late) s = execSnapshotLatch dies late s := by rw [exec]
    rw [hunfold, execSnapshotLatch, hrun, hl]
  have hstart : latching s.ctrs s.snap.wait s.snap.area s := ⟨rfl, fun e _ => .inl (by rw [hlat]; rfl), rfl, fun _ h => h⟩
  obtain ⟨⟨hctrs, _, harea, hwait⟩, hall, _⟩ := latchDies_latch hwf r.mode late l s hstart
  have hmem (d : Fin 20) (hd : d ∈ dies) (hw : nsHas s.snap.wait d = true) : d.val ∈ l := by
    rw [hl]
    exact List.mem_filter.2 ⟨List.mem_map_of_mem hd, hw⟩
  generalize l.foldl (fun s d => latchDie r.mode late d s) s = u at hexec hctrs harea hwait hall
  obtain ⟨kctrs, kfrozen⟩ := snapShow_kept u
  refine ⟨_, hexec, fun d hd => ?_, fun d hd hw => ?_, kctrs.trans hctrs, by rw [snapShow_snap, harea]⟩
  · rw [snapShow_snap]
    cases hw : nsHas s.snap.wait d
    · exact hwait d hw
    · exact (hall d (hmem d hd hw)).1
  · obtain ⟨_, hvals, hone, htwo, hlate⟩ := hall d (hmem d hd hw)
    rw [snapShow_snap, kfrozen]
    exact ⟨hvals, hone, htwo, hlate⟩

/-! ## The end of a snapshot -/

/-- The registers that an answer to a packet or a telemetry record leaves: all but pending bits. -/
def midRegs (s t : State) : Prop := ∀ o, 0x10100 ≤ o → o < 0x10000000 → rget t o = rget s o

theorem midRegs_of_onlyLogs {s t : State} (h : onlyLogs s t) : midRegs s t := fun o hlo hhi => h.1 o (.inr ⟨hlo, hhi⟩)

theorem midRegs_of_regs {s t : State} (h : t.regs = s.regs) : midRegs s t := fun o _ _ => by rw [rget, rget, h]

theorem midRegs_trans {s t u : State} (h : midRegs s t) (k : midRegs t u) : midRegs s u :=
  fun o hlo hhi => (k o hlo hhi).trans (h o hlo hhi)

theorem midRegs_ite {c : Prop} [Decidable c] {u s t : State} (h : midRegs u s) (k : midRegs u t) : midRegs u (if c then s else t) := by
  split
  · exact h
  · exact k

theorem midRegs_reply (w : Nat) (b : List Byte) (kind status result detail bit : Nat) (record : Bool) (s : State) :
    midRegs s (reply w b kind status result detail bit record s) := by
  rw [reply]
  have hrecord : midRegs s (if record && hRaddr b ≠ 0 then
      fnSend (winFn w) (.write (hRaddr b) (replyBytes b kind status result detail s.ns)) s else s) :=
    midRegs_ite (midRegs_of_regs rfl) (midRegs_of_regs rfl)
  exact midRegs_ite (midRegs_trans hrecord (midRegs_of_onlyLogs (onlyLogs_sendMsix _ _ _))) hrecord

theorem midRegs_complete (id status result detail : Nat) (s : State) : midRegs s (complete id status result detail s) := by
  rw [complete]
  split
  · exact midRegs_of_regs rfl
  · have hgone (k : Pkt) : midRegs s (wupd k.win (fun u => { u with queue := u.queue.filter (fun q => q.id != id) }) s) :=
      midRegs_of_regs rfl
    exact midRegs_ite (hgone _) (midRegs_trans (hgone _) (midRegs_reply _ _ _ _ _ _ _ _ _))

/-- What answering a snapshot may change. -/
def F.report : Nat := F.regs ||| F.wins ||| F.hostOut ||| F.telem ||| F.fab

/-- The answers to a snapshot: its packet's completion, and the summary of a telemetry round. -/
def snapReported (r : SnapReq) (t : Nat) (s : State) : State :=
  let s := match r.pkt with
    | some id => complete id 0 t 0 s
    | none => s
  if r.round then telEmit { ty := 1, time := s.ns, body := summaryBody s } s else s

theorem snapReported_kept (r : SnapReq) (t : Nat) (s : State) : Only F.report s (snapReported r t s) ∧ midRegs s (snapReported r t s) := by
  have hemit (x : TelRec) (u : State) : Only F.report u (telEmit x u) ∧ midRegs u (telEmit x u) :=
    ⟨only_telEmit (φ := F.report) rfl (Only.refl _ _) _, midRegs_of_onlyLogs (onlyLogs_telEmit _ _)⟩
  have hround (u : State) (h : Only F.report s u ∧ midRegs s u) :
      Only F.report s (if r.round then telEmit { ty := 1, time := u.ns, body := summaryBody u } u else u) ∧
      midRegs s (if r.round then telEmit { ty := 1, time := u.ns, body := summaryBody u } u else u) :=
    ⟨only_ite (h.1.trans (hemit _ _).1) h.1, midRegs_ite (midRegs_trans h.2 (hemit _ _).2) h.2⟩
  rw [snapReported]
  cases r.pkt with
  | none => exact hround s ⟨Only.refl _ _, midRegs_of_regs rfl⟩
  | some id => exact hround _ ⟨only_complete (φ := F.report) rfl (Only.refl _ _) _ _ _ _, midRegs_complete _ _ _ _ _⟩

/-- The area filled by a snapshot or a freeze. -/
def snapFilled (r : SnapReq) (s : State) : State :=
  let img := { s.snap.lat with valid := ((List.range 20).flatMap (fun d => (dieUnits d).filter (unitValid s))).foldl nsAdd [] }
  if r.mode = 2 then s else
    rupd (snapBase + 4) (fun w => wWrapAdd w 28 0 1) (rset (snapBase + 8) (BitVec.ofNat 32 s.snap.t)
      (rset (snapBase + 12) (BitVec.ofNat 32 (s.snap.t / 2 ^ 32)) { s with snap := { s.snap with area := img } }))

/-- No snapshot under way. -/
def snapCleared (s : State) : State :=
  snapShow { s with snap := { s.snap with run := none, pend := none, wait := [], lat := SnapImg.empty } }

theorem snapDone_eq (r : SnapReq) (s : State) : snapDone r s =
    match (snapFilled r s).snap.pend with
    | some q => snapBegin q (snapReported r s.snap.t (snapCleared (snapFilled r s)))
    | none => snapReported r s.snap.t (snapCleared (snapFilled r s)) := rfl

theorem snapFilled_pend (r : SnapReq) (s : State) : (snapFilled r s).snap.pend = s.snap.pend := by
  rw [snapFilled]
  split
  · rfl
  · rw [rupd_snap]; rfl

theorem snapFilled_effect (r : SnapReq) (s : State) :
    (r.mode ≠ 2 → (snapFilled r s).snap.area.vals = s.snap.lat.vals ∧ (snapFilled r s).snap.area.late = s.snap.lat.late ∧
      wFld (rget (snapFilled r s) (snapBase + 4)) 28 0 = (wFld (rget s (snapBase + 4)) 28 0 + 1) % 2 ^ 29) ∧
    (r.mode = 2 → (snapFilled r s).snap.area = s.snap.area) := by
  rw [snapFilled]
  refine ⟨fun h => ?_, fun h => by rw [if_pos h]⟩
  rw [if_neg h, rupd_snap, rget_rupd_same, rget_rset_other _ _ (by decide), rget_rset_other _ _ (by decide), wWrapAdd,
    wFld_wPut_same _ _ (by decide) (by decide)]
  exact ⟨rfl, rfl, rfl⟩

theorem snapCleared_effect (s : State) : (snapCleared s).snap.run = none ∧ (snapCleared s).snap.area = s.snap.area ∧
    wBit (rget (snapCleared s) (snapBase + 4)) 31 = false ∧
    wFld (rget (snapCleared s) (snapBase + 4)) 28 0 = wFld (rget s (snapBase + 4)) 28 0 := by
  rw [snapCleared]
  obtain ⟨u, hu⟩ : ∃ u : State, u = { s with snap := { s.snap with run := none, pend := none, wait := [], lat := SnapImg.empty } } :=
    ⟨_, rfl⟩
  have hrun : u.snap.run = none := by rw [hu]
  have harea : u.snap.area = s.snap.area := by rw [hu]
  have hregs (o : Nat) : rget u o = rget s o := by rw [hu]; rfl
  rw [← hu, snapShow_snap]
  obtain ⟨hbit, _, hfld, _, _⟩ := snapShow_flags u
  exact ⟨hrun, harea, by rw [hbit, hrun]; rfl, by rw [hfld, hregs]⟩

theorem snapBegin_effect (q : SnapReq) (s : State) : (snapBegin q s).snap.run = some q ∧ (snapBegin q s).snap.area = s.snap.area ∧
    wFld (rget (snapBegin q s) (snapBase + 4)) 28 0 = wFld (rget s (snapBase + 4)) 28 0 := by
  rw [snapBegin]
  obtain ⟨u, hu⟩ : ∃ u : State, u = { s with snap := { s.snap with
    run := some q, t := (s.ns + 5005) / 10 * 10, wait := liveDies s, lat := SnapImg.empty } } := ⟨_, rfl⟩
  have hrun : u.snap.run = some q := by rw [hu]
  have harea : u.snap.area = s.snap.area := by rw [hu]
  have hregs (o : Nat) : rget u o = rget s o := by rw [hu]; rfl
  rw [← hu, snapShow_snap]
  obtain ⟨_, _, hfld, _, _⟩ := snapShow_flags u
  exact ⟨hrun, harea, by rw [hfld, hregs]⟩

theorem snapDone_effect (r : SnapReq) (s : State) :
    (r.mode ≠ 2 → (snapDone r s).snap.area.vals = s.snap.lat.vals ∧ (snapDone r s).snap.area.late = s.snap.lat.late ∧
      wFld (rget (snapDone r s) (snapBase + 4)) 28 0 = (wFld (rget s (snapBase + 4)) 28 0 + 1) % 2 ^ 29) ∧
    (r.mode = 2 → (snapDone r s).snap.area = s.snap.area) ∧
    (s.snap.pend = none → (snapDone r s).snap.run = none ∧ wBit (rget (snapDone r s) (snapBase + 4)) 31 = false) ∧
    (∀ q, s.snap.pend = some q → (snapDone r s).snap.run = some q) := by
  obtain ⟨hfill, hthaw⟩ := snapFilled_effect r s
  obtain ⟨crun, carea, cbit, cfld⟩ := snapCleared_effect (snapFilled r s)
  obtain ⟨ronly, rmid⟩ := snapReported_kept r s.snap.t (snapCleared (snapFilled r s))
  have rsnap := ronly.snap rfl
  have rreg := rmid (snapBase + 4) (by decide) (by decide)
  rw [snapDone_eq, snapFilled_pend]
  generalize snapReported r s.snap.t (snapCleared (snapFilled r s)) = u at rsnap rreg
  rw [← rreg] at cbit cfld
  rw [← rsnap] at crun carea
  rw [← carea, ← cfld] at hfill
  rw [← carea] at hthaw
  cases s.snap.pend with
  | none => exact ⟨hfill, hthaw, fun _ => ⟨crun, cbit⟩, nofun⟩
  | some q =>
    obtain ⟨brun, barea, bfld⟩ := snapBegin_effect q u
    dsimp only
    rw [barea, bfld]
    exact ⟨hfill, hthaw, nofun, fun x hx => by rw [brun, hx]⟩

theorem snapshotComplete_completes {r : SnapReq} {s : State} (hrun : s.snap.run = some r) :
    ((∀ d ∈ s.snap.wait, nsHas (liveDies s) d = false) → ∃ t, exec .snapshotComplete s = .next t ∧ t = snapDone r s ∧
      (r.mode ≠ 2 → t.snap.area.vals = s.snap.lat.vals ∧ t.snap.area.late = s.snap.lat.late ∧
        wFld (rget t (snapBase + 4)) 28 0 = (wFld (rget s (snapBase + 4)) 28 0 + 1) % 2 ^ 29) ∧
      (r.mode = 2 → t.snap.area = s.snap.area) ∧
      (s.snap.pend = none → t.snap.run = none ∧ wBit (rget t (snapBase + 4)) 31 = false) ∧
      (∀ q, s.snap.pend = some q → t.snap.run = some q)) ∧
    (∀ d ∈ s.snap.wait, nsHas (liveDies s) d = true → exec .snapshotComplete s = .next s) := by
  have hunfold : exec .snapshotComplete s = execSnapshotComplete s := by rw [exec]
  rw [hunfold, execSnapshotComplete, hrun]
  refine ⟨fun h => ⟨_, congrArg Host.Outcome.next (if_neg ?_), rfl, snapDone_effect r s⟩, fun d hd hlive =>
    congrArg Host.Outcome.next (if_pos (List.any_eq_true.2 ⟨d, hd, hlive⟩))⟩
  rw [List.any_eq_true]
  exact fun ⟨d, hd, hlive⟩ => by simp [h d hd] at hlive

/-! ## Telemetry -/

/-- What the ring's user has set, as it was. -/
def ringKept (s t : State) : Prop := t.telem.on = s.telem.on ∧ t.telem.ring = s.telem.ring ∧ t.telem.n = s.telem.n ∧
  t.telem.period = s.telem.period ∧ t.telem.vec = s.telem.vec ∧ t.telem.head = s.telem.head ∧ t.telem.steps = s.telem.steps

theorem ringKept_trans {s t u : State} (h : ringKept s t) (k : ringKept t u) : ringKept s u := by
  obtain ⟨h1, h2, h3, h4, h5, h6, h7⟩ := h
  obtain ⟨k1, k2, k3, k4, k5, k6, k7⟩ := k
  exact ⟨k1.trans h1, k2.trans h2, k3.trans h3, k4.trans h4, k5.trans h5, k6.trans h6, k7.trans h7⟩

theorem ringKept_of_telem {s t : State} (h : t.telem = s.telem) : ringKept s t := by
  rw [ringKept, h]
  exact ⟨rfl, rfl, rfl, rfl, rfl, rfl, rfl⟩

theorem ringKept_sendMsix (fn vec : Nat) (s : State) : ringKept s (sendMsix fn vec s) :=
  ringKept_of_telem ((only_sendMsix (φ := F.regs ||| F.hostOut) rfl (Only.refl _ _) _ _).telem rfl)

theorem ringKept_sumSignal (s : State) : ringKept s (sumSignal s) := by
  rw [sumSignal]
  split
  · exact ringKept_trans (t := { s with telem := { s.telem with sumAt := s.ns + 1, sumDue := false } })
      ⟨rfl, rfl, rfl, rfl, rfl, rfl, rfl⟩ (ringKept_sendMsix _ _ _)
  · exact ⟨rfl, rfl, rfl, rfl, rfl, rfl, rfl⟩

theorem ringKept_telPut (r : TelRec) (s : State) : ringKept s (telPut r s) := by
  have htail (m n : HostOut) (x : Nat) : ringKept s (fnSend 0 n { fnSend 0 m s with telem := { s.telem with tail := x } }) :=
    ⟨rfl, rfl, rfl, rfl, rfl, rfl, rfl⟩
  rw [telPut]
  split
  · exact ringKept_trans (htail _ _ _) (ringKept_sumSignal _)
  · exact ringKept_trans (htail _ _ _) (ringKept_sendMsix _ _ _)

theorem ringKept_telDrain (n : Nat) (s : State) : ringKept s (telDrain n s) := by
  induction n generalizing s with
  | zero => exact ringKept_of_telem rfl
  | succ n ih =>
    rw [telDrain]
    split
    · exact ringKept_of_telem rfl
    · next r rest _ =>
      split
      · have hrest : ringKept s { s with telem := { s.telem with hold := rest } } := ⟨rfl, rfl, rfl, rfl, rfl, rfl, rfl⟩
        exact ringKept_trans hrest (ringKept_trans (ringKept_telPut _ _) (ih _))
      · exact ringKept_of_telem rfl

theorem telDrain_nothing {s : State} (n : Nat) (h : s.telem.hold = []) : telDrain (n + 1) s = s := by
  rw [telDrain, h]

theorem telemCfg_opens {w : Fin 128} {k : Pkt} {s : State} (h : admitted w 0x0602 (fun b => payNZ b 18 6) k s)
    (hst : telemStatus k.bytes = 0) :
    ∃ u, exec (.telemCfg w) s = .next (complete k.id 0 0 0 u) ∧ u.telem.on = true ∧ u.telem.ring = payAt k.bytes 0 8 ∧
      u.telem.n = payAt k.bytes 8 4 / 64 - 1 ∧ u.telem.period = payAt k.bytes 12 4 ∧ u.telem.vec = payAt k.bytes 16 2 ∧
      u.telem.head = 0 ∧ u.telem.steps = 0 ∧ (s.telem.hold = [] → u.telem.tail = 0 ∧
        u.hostOut = s.hostOut ++ [onStream s 0 (.write (payAt k.bytes 0 8) (leBytes 4 0))]) := by
  have hunfold : exec (.telemCfg w) s = execTelemCfg w s := by rw [exec]
  obtain ⟨v, hv⟩ : ∃ v : State, v = fnSend 0 (.write (payAt k.bytes 0 8) (leBytes 4 0)) { startPkt k s with
    telem := { (startPkt k s).telem with
      on := true, ring := payAt k.bytes 0 8, n := payAt k.bytes 8 4 / 64 - 1, period := payAt k.bytes 12 4,
      vec := payAt k.bytes 16 2, tail := 0, head := 0, steps := 0 } } := ⟨_, rfl⟩
  have hexec : exec (.telemCfg w) s = .next (complete k.id 0 0 0 (telDrain 32 v)) := by
    rw [hunfold, execTelemCfg, runCmd_admitted h, hv]
    exact congrArg Host.Outcome.next (if_neg (not_not.2 hst))
  obtain ⟨hon, hring, hn, hperiod, hvec, hhead, hsteps⟩ := ringKept_telDrain 32 v
  refine ⟨_, hexec, hon.trans ?_, hring.trans ?_, hn.trans ?_, hperiod.trans ?_, hvec.trans ?_, hhead.trans ?_, hsteps.trans ?_,
    fun hhold => ?_⟩
  · rw [hv]; rfl
  · rw [hv]; rfl
  · rw [hv]; rfl
  · rw [hv]; rfl
  · rw [hv]; rfl
  · rw [hv]; rfl
  · rw [hv]; rfl
  · have hnone : v.telem.hold = [] := by
      rw [hv]
      exact hhold
    rw [telDrain_nothing 31 hnone, hv]
    exact ⟨rfl, rfl⟩

theorem telemCfg_alignment : refuses .telemCfg 0x0602 (fun b => payNZ b 18 6) (fun k _ => payAt k.bytes 0 8 % 4096 ≠ 0 ∨
    payAt k.bytes 8 4 % 4096 ≠ 0 ∨ payAt k.bytes 8 4 = 0 ∨ 0x1000000 < payAt k.bytes 8 4) 0x0106 := by
  intro w k s hadm hbad
  have hunfold : exec (.telemCfg w) s = execTelemCfg w s := by rw [exec]
  have hst : telemStatus k.bytes = 0x0106 := if_pos (by simpa [or_assoc] using hbad)
  rw [hunfold, execTelemCfg, runCmd_admitted hadm]
  exact congrArg Host.Outcome.next ((if_pos (show telemStatus k.bytes ≠ 0 by rw [hst]; decide)).trans
    (congrArg (fun st => complete k.id st 0 0 (startPkt k s)) hst))

theorem telemetryRound_asks {s : State} (hon : s.telem.on = true) (hperiod : s.telem.period ≠ 0) :
    (s.snap.run = none → ∃ t, exec .telemetryRound s = .next t ∧
      t.snap.run = some { mode := 0, pkt := none, round := true } ∧ t.snap.t = (s.ns + 5005) / 10 * 10) ∧
    (∀ q, s.snap.run ≠ none → s.snap.pend = some q → ∃ t, exec .telemetryRound s = .next t ∧
      t.snap = { s.snap with pend := some { q with round := true } }) := by
  have hexec : exec .telemetryRound s = .next (snapAsk { mode := 0, pkt := none, round := true } s).2 := by
    rw [exec, execTelemetryRound, if_pos (by simp [hon, hperiod])]
  refine ⟨fun hrun => ?_, fun q hrun hq => ?_⟩
  · obtain ⟨_, hr, ht, _⟩ := snapAsk_begins { mode := 0, pkt := none, round := true } hrun
    exact ⟨_, hexec, hr, ht⟩
  · refine ⟨_, hexec, ?_⟩
    rw [snapAsk_second _ hrun hq]
    rfl

theorem telemHeadWrite_moves (w : Word) (s : State) : ∃ t, exec (.telemHeadWrite w) s = .next t ∧ t.telem.head = w.toNat ∧
    (s.telem.hold = [] → t = { s with telem := { s.telem with head := w.toNat } }) := by
  obtain ⟨_, _, _, _, _, hhead, _⟩ := ringKept_telDrain 32 { s with telem := { s.telem with head := w.toNat } }
  have hexec : exec (.telemHeadWrite w) s = .next (telDrain 32 { s with telem := { s.telem with head := w.toNat } }) := by
    rw [exec, execTelemHeadWrite, writeTelemHead]
  exact ⟨_, hexec, hhead, fun h => telDrain_nothing 31 h⟩

theorem telEmit_full {r : TelRec} {s : State} (hfull : telFull s.telem = true) (hon : s.telem.on = true) :
    (r.ty = 1 → telEmit r s = { s with telem := { s.telem with drop := min (s.telem.drop + 1) 65535 } }) ∧
    (r.ty ≠ 1 → s.telem.hold.length < 32 → telEmit r s = { s with telem := { s.telem with hold := s.telem.hold ++ [r] } }) := by
  have hno : ¬ (s.telem.on && !telFull s.telem) = true := by simp [hfull]
  exact ⟨fun h => (if_neg hno).trans ((if_pos h).trans (if_pos hon)),
    fun h hlen => (if_neg hno).trans ((if_neg h).trans (if_pos hlen))⟩

end Sys2Proof.Machine

open Sys2Proof.Machine

/-- Settles O50: the loading of a counter, the snapshots from their asking to their end, and the telemetry ring. -/
theorem countersAndTelemetry : Obligations.CountersAndTelemetry :=
  ⟨fun _ _ _ _ => counterCfg_loads, ctrLoad_rules, fun _ _ _ _ => cfgCheck_level, fun _ _ _ => snapshot_asks,
    asksSnapshot_of_exec fun _ => by rw [exec, execSnapshotSnap], asksSnapshot_of_exec fun _ => by rw [exec, execSnapshotFreeze],
    asksSnapshot_of_exec fun _ => by rw [exec, execSnapshotUnfreeze], fun _ _ _ _ => snapshotLatch_latches,
    fun _ _ => snapshotComplete_completes, fun _ _ _ => telemCfg_opens, telemCfg_alignment, fun _ => telemetryRound_asks,
    telemHeadWrite_moves, fun _ _ => telEmit_full⟩
end

section
/-! The commands of the fabric: ports, the device's place, the routes, and a port's registers. -/

namespace Sys2Proof.Machine

theorem hubAbsent_startPkt (k : Pkt) (s : State) (h : Nat) : hubAbsent (startPkt k s) h = hubAbsent s h := rfl

theorem portState_startPkt (k : Pkt) (s : State) (p : Nat) : portState (startPkt k s) p = portState s p := rfl

theorem carriesTree_startPkt (k : Pkt) (s : State) (p : Nat) : carriesTree (startPkt k s) p = carriesTree s p := rfl

/-! ## FAB_PORT -/

/-- A port disabled is down: it takes no flit, and nothing waits at it. -/
theorem portDisabled_effect {p : Nat} {s : State} (hp : p < 16) (hmap : ∀ e ∈ s.map.cl, e.1 < 256) :
    let v := fportUpd p (fun u => { u with enabled := false, due := false }) (portDown p 0 s)
    portState v p = 0 ∧ (fport v p).enabled = false ∧ (fport v p).due = false ∧ (fport v p).waiting = [] ∧
      (fport v p).replay = [] := by
  intro v
  obtain ⟨hstate, hport, _⟩ := portDown_restarts hp (by decide : 0 < 8) hmap
  refine ⟨hstate, ?_⟩
  rw [fport_fportUpd_same, hport]
  exact ⟨rfl, rfl, rfl, rfl⟩

/-- A port enabled starts to train when it was down and has its light (Table FAB.13). -/
def portEnabled (p : Nat) (s : State) : State :=
  let s := fportUpd p (fun u => { u with enabled := true }) s
  if portState s p = 0 && wFld (rget s (fportKey p 0)) 28 27 != 0 then setPortState p 2 s else s

theorem portEnabled_effect {p : Nat} (s : State) (hp : p < 16) : (fport (portEnabled p s) p).enabled = true ∧
    portState (portEnabled p s) p = if portState s p = 0 ∧ wFld (rget s (fportKey p 0)) 28 27 ≠ 0 then 2 else portState s p := by
  have hset : fport (fportUpd p (fun u => { u with enabled := true }) s) p = { fport s p with enabled := true } :=
    fport_fportUpd_same _ _ _
  by_cases h : portState s p = 0 ∧ wFld (rget s (fportKey p 0)) 28 27 ≠ 0
  · have htrains : portEnabled p s = setPortState p 2 (fportUpd p (fun u => { u with enabled := true }) s) :=
      if_pos (show (portState s p = 0 && wFld (rget s (fportKey p 0)) 28 27 != 0) = true by simpa using h)
    rw [htrains, if_pos h, portState_setPortState _ hp (by decide), fport_of_fab (setPortState_fab _ _ _), hset]
    exact ⟨rfl, rfl⟩
  · have hstays : portEnabled p s = fportUpd p (fun u => { u with enabled := true }) s :=
      if_neg (show ¬ (portState s p = 0 && wFld (rget s (fportKey p 0)) 28 27 != 0) = true by simpa using h)
    rw [hstays, if_neg h, hset]
    exact ⟨rfl, rfl⟩

section
variable (k : Pkt) (u : State)

theorem fabPort_reserved (hact : payAt k.bytes 0 1 / 16 = 3) : fabPort k u = complete k.id 0x0102 0 0 u := if_pos hact

theorem fabPort_noHub (hact : payAt k.bytes 0 1 / 16 ≠ 3) (hhub : hubAbsent u (payAt k.bytes 0 1 % 16 / 4) = true) :
    fabPort k u = complete k.id 0x0502 0 0 u := (if_neg hact).trans (if_pos hhub)

variable {k u} (hhub : hubAbsent u (payAt k.bytes 0 1 % 16 / 4) = false)
include hhub

theorem fabPort_disable (hact : payAt k.bytes 0 1 / 16 = 0) : fabPort k u = complete k.id 0 0 0
    (fportUpd (payAt k.bytes 0 1 % 16) (fun u => { u with enabled := false, due := false })
      (portDown (payAt k.bytes 0 1 % 16) 0 u)) :=
  (if_neg (by omega)).trans ((if_neg (by simp [hhub])).trans (if_pos hact))

theorem fabPort_enable (hact : payAt k.bytes 0 1 / 16 = 1) : fabPort k u =
    if nsHas u.boot.oeHeld (payAt k.bytes 0 1 % 16) then complete k.id 0x0403 0 0 u
    else complete k.id 0 0 0 (portEnabled (payAt k.bytes 0 1 % 16) u) :=
  (if_neg (by omega)).trans ((if_neg (by simp [hhub])).trans ((if_neg (by omega)).trans (if_pos hact)))

theorem fabPort_retrain (hact : payAt k.bytes 0 1 / 16 = 2) : fabPort k u =
    if portState u (payAt k.bytes 0 1 % 16) ≠ 3 || carriesTree u (payAt k.bytes 0 1 % 16) then complete k.id 0x0304 0 0 u
    else complete k.id 0 0 0 (portRetrain (payAt k.bytes 0 1 % 16) u) :=
  (if_neg (by omega)).trans ((if_neg (by simp [hhub])).trans ((if_neg (by omega)).trans (if_neg (by omega))))

end

/-! ## FAB_ROLE -/

/-- FAB_ID as FAB_ROLE loads it: valid, no orphan, at `level`, with the device's `id` (Table FAB.7). -/
def roleWord (level id : Nat) : Word := BitVec.ofNat 32 (2 ^ 31 + level * 2 ^ 28 + id)

/-- The device's place loaded: its FAB_ID, its parent and the port toward it. -/
def placeLoaded (id parent : Word) (port : Nat) (s : State) : State :=
  let s := rset (hubBase 0 + 0x40004) parent (rset (hubBase 0 + 0x40000) id s)
  { s with fab := { s.fab with unanswered := 0, parentPort := port } }

theorem rget_placeLoaded (id parent : Word) (port : Nat) (s : State) (o : Nat) : rget (placeLoaded id parent port s) o =
    rget (rset (hubBase 0 + 0x40004) parent (rset (hubBase 0 + 0x40000) id s)) o := rfl

theorem placeLoaded_fab (id parent : Word) (port : Nat) (s : State) :
    (placeLoaded id parent port s).fab = { s.fab with unanswered := 0, parentPort := port } := rfl

theorem fabRole_loads {k : Pkt} (u : State) (hrole : fld (payAt k.bytes 0 8) 19 18 < 2)
    (hlevel : fld (payAt k.bytes 0 8) 19 18 = 0 ↔ fld (payAt k.bytes 0 8) 21 20 = 0)
    (hown : fld (payAt k.bytes 8 8) 17 0 = fld (payAt k.bytes 0 8) 17 0 → fld (payAt k.bytes 0 8) 21 20 = 3) :
    fabRole k u = complete k.id 0 0 0 (placeLoaded (roleWord (fld (payAt k.bytes 0 8) 21 20) (fld (payAt k.bytes 0 8) 17 0))
      (BitVec.ofNat 32 (fld (payAt k.bytes 8 8) 17 0)) (fld (payAt k.bytes 8 8) 21 18) u) := by
  refine (if_neg (by omega)).trans (if_neg ?_)
  simp only [Bool.or_eq_true, Bool.and_eq_true, decide_eq_true_eq]
  omega

theorem roleWord_fields {level id : Nat} (hl : level < 4) (hi : id < 2 ^ 18) : wFld (roleWord level id) 17 0 = id ∧
    wFld (roleWord level id) 29 28 = level ∧ wBit (roleWord level id) 31 = true ∧ wBit (roleWord level id) 30 = false := by
  have hlt : 2 ^ 31 + level * 2 ^ 28 + id < 2 ^ 32 := by omega
  rw [roleWord, wFld_ofNat _ (by decide) (by decide), wFld_ofNat _ (by decide) (by decide), wBit_eq_testBit, wBit_eq_testBit,
    BitVec.toNat_ofNat, Nat.mod_eq_of_lt hlt, Nat.testBit_eq_decide_div_mod_eq, Nat.testBit_eq_decide_div_mod_eq,
    fld_eq_div_mod, fld_eq_div_mod, decide_eq_true_eq, decide_eq_false_iff_not]
  omega

theorem placeLoaded_effect (id parent : Word) (port : Nat) (s : State) : fabId (placeLoaded id parent port s) = id ∧
    rget (placeLoaded id parent port s) (hubBase 0 + 0x40004) = parent ∧
    (∀ o, o ≠ hubBase 0 + 0x40000 → o ≠ hubBase 0 + 0x40004 → rget (placeLoaded id parent port s) o = rget s o) := by
  refine ⟨?_, ?_, fun o h0 h4 => ?_⟩
  · rw [fabId, rget_placeLoaded, rget_rset_other _ _ (by decide), rget_rset_same]
  · rw [rget_placeLoaded, rget_rset_same]
  · rw [rget_placeLoaded, rget_rset_other _ _ h4, rget_rset_other _ _ h0]

/-! ## FAB_ROUTE -/

/-- Entry `j` of a FAB_ROUTE's payload. -/
def routeIn (k : Pkt) (j : Nat) : Nat := payAt k.bytes (16 + 8 * j) 8

/-- The routes with the `n` entries of a payload from `first` on. -/
def routesLoaded (k : Pkt) (first n : Nat) (s : State) : State :=
  { s with fab := { s.fab with
      route := (List.range n).foldl (fun r j => stSet (fun _ => 0) r (first + j) (payAt k.bytes (16 + 8 * j) 8)) s.fab.route } }

theorem stGet_foldl_stSet_range (d : Nat → Nat) (f : Nat → Nat) (first n : Nat) (r : List (Nat × Nat)) (i : Nat) :
    stGet d ((List.range n).foldl (fun r j => stSet d r (first + j) (f j)) r) i =
      if first ≤ i ∧ i < first + n then f (i - first) else stGet d r i := by
  induction n with
  | zero => exact (if_neg (by omega)).symm
  | succ n ih =>
    rw [List.range_succ, List.foldl_append]
    show stGet d (stSet d _ (first + n) (f n)) i = _
    by_cases h : i = first + n
    · rw [h, stGet_stSet_same, if_pos (by omega), Nat.add_sub_cancel_left]
    · rw [stGet_stSet_other _ _ _ h, ih]
      by_cases hin : first ≤ i ∧ i < first + n
      · rw [if_pos hin, if_pos (by omega)]
      · rw [if_neg hin, if_neg (by omega)]

theorem fabRoute_loads {k : Pkt} (u : State) (hn : 0 < payAt k.bytes 0 2) (hmax : payAt k.bytes 0 2 ≤ 505)
    (hfit : payAt k.bytes 2 2 + payAt k.bytes 0 2 ≤ 1024)
    (hgroup : ∀ j, j < payAt k.bytes 0 2 → 256 ≤ payAt k.bytes 2 2 + j → fld (payAt k.bytes (16 + 8 * j) 8) 25 19 ≤ 64) :
    fabRoute k u = complete k.id 0 (payAt k.bytes 0 2) 0 (routesLoaded k (payAt k.bytes 2 2) (payAt k.bytes 0 2) u) := by
  refine if_neg ?_
  simp only [Bool.or_eq_true, decide_eq_true_eq, List.any_eq_true, List.mem_range, Bool.and_eq_true]
  rintro (h | ⟨j, hj, hlo, hbig⟩)
  · omega
  · have := hgroup j hj hlo
    omega

theorem fabRoute_range {k : Pkt} (u : State)
    (h : payAt k.bytes 0 2 = 0 ∨ 505 < payAt k.bytes 0 2 ∨ 1024 < payAt k.bytes 2 2 + payAt k.bytes 0 2) :
    fabRoute k u = complete k.id 0x0107 0 0 u := by
  refine if_pos ?_
  simp only [Bool.or_eq_true, decide_eq_true_eq]
  omega

end Sys2Proof.Machine

open Sys2Proof.Machine

/-- Settles O54: FAB_PORT, FAB_ROLE, FAB_ROUTE and FAB_QUERY case by case, where a packet that starts leaves the fabric as it is. -/
theorem fabricCommands : Obligations.FabricCommands := by
  unfold Obligations.FabricCommands
  refine ⟨fun w k s hadm => ?_, fun w k s hadm hrole hlevel hown => ?_, ?_, fun w k s hadm hn hmax hfit hgroup => ?_, ?_, ?_⟩
  · have hexec : exec (.fabPort w) s = .next (fabPort k (startPkt k s)) := by rw [exec, execFabPort, runCmd_admitted hadm]
    have hp : payAt k.bytes 0 1 % 16 < 16 := Nat.mod_lt _ (by decide)
    refine ⟨fun hact => by rw [hexec, fabPort_reserved k _ hact], fun hact hhub => by rw [hexec, fabPort_noHub k (startPkt k s) hact hhub],
      fun hact hhub hmap => ⟨_, hexec.trans (congrArg Host.Outcome.next (fabPort_disable (u := startPkt k s) hhub hact)), portDisabled_effect hp hmap⟩,
      fun hact hhub hheld => ⟨_, ?_, portEnabled_effect (startPkt k s) hp⟩, fun hact hhub hheld => ?_,
      fun hact hhub hactive htree => ?_, fun hact hhub hnot => ?_⟩
    · rw [hexec, fabPort_enable (u := startPkt k s) hhub hact]
      exact congrArg Host.Outcome.next (if_neg (ne_true_of_eq_false hheld))
    · rw [hexec, fabPort_enable (u := startPkt k s) hhub hact]
      exact congrArg Host.Outcome.next (if_pos hheld)
    · rw [hexec, fabPort_retrain (u := startPkt k s) hhub hact, portState_startPkt, carriesTree_startPkt, hactive, htree]
      rfl
    · rw [hexec, fabPort_retrain (u := startPkt k s) hhub hact, portState_startPkt, carriesTree_startPkt]
      exact congrArg Host.Outcome.next (if_pos (by simpa using hnot))
  · obtain ⟨hid, hparent, hregs⟩ := placeLoaded_effect (roleWord (fld (payAt k.bytes 0 8) 21 20) (fld (payAt k.bytes 0 8) 17 0))
      (BitVec.ofNat 32 (fld (payAt k.bytes 8 8) 17 0)) (fld (payAt k.bytes 8 8) 21 18) (startPkt k s)
    obtain ⟨hmy, hlev, hvalid, horphan⟩ := roleWord_fields (fld_lt (payAt k.bytes 0 8) 21 20) (fld_lt (payAt k.bytes 0 8) 17 0)
    have hfab := placeLoaded_fab (roleWord (fld (payAt k.bytes 0 8) 21 20) (fld (payAt k.bytes 0 8) 17 0))
      (BitVec.ofNat 32 (fld (payAt k.bytes 8 8) 17 0)) (fld (payAt k.bytes 8 8) 21 18) (startPkt k s)
    have hexec : exec (.fabRole w) s = .next (fabRole k (startPkt k s)) := by rw [exec, execFabRole, runCmd_admitted hadm]
    rw [fabRole_loads _ hrole hlevel hown] at hexec
    generalize placeLoaded _ _ _ _ = v at hid hparent hregs hfab hexec
    refine ⟨v, hexec, by rw [← hmy, ← hid]; rfl, by rw [hid, hlev], by rw [hid, hvalid], by rw [hid, horphan], ?_, by rw [hfab],
      by rw [hfab], fun o h0 h4 => (hregs o h0 h4).trans (rget_startPkt k s o)⟩
    rw [fabParent, hparent, wFld_ofNat _ (by decide) (by decide), fld_eq_div_mod _ 17 0, Nat.pow_zero, Nat.div_one]
    exact Nat.mod_eq_of_lt (fld_lt (payAt k.bytes 8 8) 17 0)
  · exact refuses_of_body (body := fabRole) (fun w s => by rw [exec, execFabRole]) fun k u h => if_pos h
  · refine ⟨routesLoaded k (payAt k.bytes 2 2) (payAt k.bytes 0 2) (startPkt k s), ?_, fun j hj => ?_, fun i hi => ?_, rfl⟩
    · rw [exec, execFabRoute, runCmd_admitted hadm, fabRoute_loads _ hn hmax hfit hgroup]
    · exact (stGet_foldl_stSet_range _ (routeIn k) _ _ _ _).trans
        ((if_pos (by omega)).trans (by rw [Nat.add_sub_cancel_left, routeIn]))
    · exact (stGet_foldl_stSet_range _ (routeIn k) _ _ _ _).trans (if_neg (by omega))
  · exact refuses_of_body (body := fabRoute) (fun w s => by rw [exec, execFabRoute]) fun k u h => fabRoute_range u h
  · intro w k s hadm hhub
    have hport : payAt k.bytes 0 1 % 16 = payAt k.bytes 0 1 := Nat.mod_eq_of_lt ?_
    · rw [exec, execFabQuery, runCmd_admitted hadm]
      refine congrArg Host.Outcome.next ((if_neg ?_).trans ?_)
      · rw [hport, hhub]
        decide
      · rw [hport]
    · obtain ⟨-, hresv, -⟩ := hadm
      simp only [Bool.or_eq_false_iff, bne_eq_false_iff_eq] at hresv
      omega
end

section
/-! The maintenance commands: starting, stopping and reporting an activity, acknowledging records, and a hub's periods. -/

namespace Sys2Proof.Machine

/-! ## Units of a command -/

/-- All the units of one core belong to one hub. -/
theorem mntOwner_sameCore {kind r : Nat} (c : Nat) (hr : r < perCore kind) :
    mntOwner kind (c * perCore kind + r) = mntOwner kind (c * perCore kind) := by
  have hkinds : kind = 1 ∨ kind = 4 ∨ kind = 3 ∨ kind = 6 := by
    by_contra hnot
    rw [perCore, if_neg (by simp; omega), if_neg (by omega), if_neg (by omega)] at hr
    omega
  obtain rfl | rfl | rfl | rfl := hkinds
  all_goals
    simp only [perCore, mntOwner] at hr ⊢
    norm_num at hr ⊢
    omega

theorem cmdHub_sameCore {kind a b : Nat} (s : State) (hper : 0 < perCore kind) (h : a / perCore kind = b / perCore kind) :
    cmdHub s kind a = cmdHub s kind b := by
  rw [cmdHub, cmdHub, cmdUnit, cmdUnit, if_neg (by omega), if_neg (by omega), h]
  cases cmdCore s (b / perCore kind) with
  | none => rfl
  | some c =>
    simp only [Option.map_some, mntHub]
    rw [mntOwner_sameCore c (Nat.mod_lt a hper), mntOwner_sameCore c (Nat.mod_lt b hper)]

/-- The cores that a range of units meets, each through a unit of the range. -/
theorem core_of_range {per lo n i : Nat} (hper : 0 < per) (hn : n ≠ 0) (hi : i < (lo + n - 1) / per + 1 - lo / per) :
    ∃ j, j < n ∧ (lo + j) / per = lo / per + i := by
  have hle : (lo / per + i) * per ≤ lo + n - 1 := (Nat.le_div_iff_mul_le hper).1 (by omega)
  have hlo : lo < (lo / per + 1) * per := Nat.lt_mul_of_div_lt (by omega) hper
  refine ⟨max lo ((lo / per + i) * per) - lo, by omega, ?_⟩
  rw [Nat.add_sub_cancel' (le_max_left _ _)]
  cases i with
  | zero =>
    have : lo / per * per ≤ lo := Nat.div_mul_le_self _ _
    rw [Nat.add_zero, max_eq_left this]
  | succ i =>
    have : (lo / per + 1) * per ≤ (lo / per + (i + 1)) * per := Nat.mul_le_mul_right _ (by omega)
    rw [max_eq_right (by omega), Nat.mul_div_cancel _ hper]

/-! ## MNT_START -/

/-- The activity that an MNT_START begins. -/
def jobOf (k : Pkt) (u : State) : MntJob where
  handle := ((cmdHub u (payAt k.bytes 0 2) (payAt k.bytes 8 8)).getD 0) * 2 ^ 30 + payAt k.bytes 0 2 * 2 ^ 24 +
    (u.mnt.serial % (2 ^ 24 - 1) + 1)
  hub := (cmdHub u (payAt k.bytes 0 2) (payAt k.bytes 8 8)).getD 0
  kind := payAt k.bytes 0 2
  start := payAt k.bytes 8 8
  extent := payAt k.bytes 16 8
  pos := 0
  faults := 0
  state := 1

/-- Whether one hub carries out the units of an MNT_START, as the command decides it. -/
def oneHub (u : State) (kind lo n : Nat) : Bool :=
  if kind = 2 then decide (lo % 4 + n ≤ 4)
  else if 0 < perCore kind then
    (List.range ((lo + n - 1) / perCore kind + 1 - lo / perCore kind)).all
      (fun i => cmdHub u kind ((lo / perCore kind + i) * perCore kind) == some ((cmdHub u kind lo).getD 0))
  else (List.range n).all (fun i => cmdHub u kind (lo + i) == some ((cmdHub u kind lo).getD 0))

theorem oneHub_of_units {u : State} {kind lo n : Nat} (hn : n ≠ 0) (hlanes : kind = 2 → lo % 4 + n ≤ 4)
    (hunits : ∀ i, i < n → (cmdHub u kind (lo + i)).isSome = true ∧ cmdHub u kind (lo + i) = cmdHub u kind lo) :
    oneHub u kind lo n = true := by
  have hsome : ∀ i, i < n → cmdHub u kind (lo + i) = some ((cmdHub u kind lo).getD 0) := fun i hi => by
    obtain ⟨hsome, hsame⟩ := hunits i hi
    rw [← hsame, ← Option.get_eq_getD (h := hsome), Option.some_get]
  rw [oneHub]
  split
  · exact decide_eq_true (hlanes ‹_›)
  · split
    · rename_i hper
      rw [List.all_eq_true]
      intro i hi
      obtain ⟨j, hj, hcore⟩ := core_of_range hper hn (List.mem_range.1 hi)
      have hsame : (lo / perCore kind + i) * perCore kind / perCore kind = (lo + j) / perCore kind := by
        rw [Nat.mul_div_cancel _ hper, hcore]
      rw [cmdHub_sameCore u hper hsame, hsome j hj]
      exact beq_self_eq_true _
    · rw [List.all_eq_true]
      intro i hi
      rw [hsome i (List.mem_range.1 hi)]
      exact beq_self_eq_true _

theorem mntStart_begins (k : Pkt) (u : State) (hkind : 1 ≤ payAt k.bytes 0 2 ∧ payAt k.bytes 0 2 ≤ 8)
    (hn : payAt k.bytes 16 8 ≠ 0) (hfit : payAt k.bytes 8 8 + payAt k.bytes 16 8 ≤ cmdUnits (payAt k.bytes 0 2))
    (hone : oneHub u (payAt k.bytes 0 2) (payAt k.bytes 8 8) (payAt k.bytes 16 8) = true)
    (hmeet : ∀ j ∈ u.mnt.jobs, j.state ≤ 1 → jobsMeet (payAt k.bytes 0 2) (payAt k.bytes 8 8)
      (payAt k.bytes 8 8 + payAt k.bytes 16 8 - 1) j.kind (j.start + j.pos) (j.start + j.extent - 1) = false)
    (hbusy : 5 ≤ payAt k.bytes 0 2 → payAt k.bytes 0 2 ≤ 7 → ∀ i, i < payAt k.bytes 16 8 → ∀ x,
      cmdUnit u (payAt k.bytes 0 2) (payAt k.bytes 8 8 + i) = some x → unitBusy u (payAt k.bytes 0 2) x = false) :
    mntStart k u = complete k.id 0 (jobOf k u).handle 0
      { u with mnt := { u.mnt with jobs := u.mnt.jobs ++ [jobOf k u], serial := u.mnt.serial + 1 } } := by
  have hfind : u.mnt.jobs.find? (fun j => decide (j.state ≤ 1) && jobsMeet (payAt k.bytes 0 2) (payAt k.bytes 8 8)
      (payAt k.bytes 8 8 + payAt k.bytes 16 8 - 1) j.kind (j.start + j.pos) (j.start + j.extent - 1)) = none := by
    rw [List.find?_eq_none]
    intro j hj
    by_cases hrun : j.state ≤ 1
    · simp [hmeet j hj hrun]
    · simp [hrun]
  refine (if_neg (by simp; omega)).trans ((if_neg (by simp; omega)).trans ((if_neg ?_).trans ?_))
  · show ¬ (!oneHub u (payAt k.bytes 0 2) (payAt k.bytes 8 8) (payAt k.bytes 16 8)) = true
    rw [hone]
    decide
  · rw [hfind]
    refine if_neg ?_
    simp only [Bool.and_eq_true, decide_eq_true_eq, List.any_eq_true, List.mem_range, Option.any_eq_true]
    rintro ⟨⟨hlo, hhi⟩, i, hi, x, hx, hb⟩
    rw [hbusy hlo hhi i hi x hx] at hb
    exact absurd hb (by decide)

/-! ## A hub's record of a kind -/

theorem mntDefault_kinds {kind : Nat} (h : mntDefault kind ≠ 0) : 1 ≤ kind ∧ kind ≤ 8 := by
  by_contra hnot
  refine h ?_
  obtain rfl | hbig : kind = 0 ∨ 9 ≤ kind := by omega
  · rfl
  · rw [mntDefault, listAt, List.getD_eq_default _ _ (by simpa using hbig)]

/-- The kinds with a period are those that a hub's own record answers for. -/
theorem mntKind_of_default {s : State} {h kind : Nat} (hk : mntDefault kind ≠ 0) :
    mntKind s h kind = stGet (fun _ => MntKind.reset) s.mnt.kinds (64 * h + kind) := by
  obtain ⟨_, hle⟩ := mntDefault_kinds hk
  rw [mntKind, if_neg (by simp; omega), if_neg (by omega), if_neg (by omega)]

theorem mntKind_mntSet_same {h kind : Nat} (v : MntKind) (s : State) (hk : mntDefault kind ≠ 0) :
    mntKind (mntSet h kind v s) h kind = v := by
  rw [mntKind_of_default hk, mntSet, stGet_stSet_same]

theorem mntKind_mntSet_other {h kind i j : Nat} (v : MntKind) (s : State) (hne : 64 * i + j ≠ 64 * h + kind) :
    mntKind (mntSet h kind v s) i j = mntKind s i j := by
  have hget : stGet (fun _ => MntKind.reset) (mntSet h kind v s).mnt.kinds (64 * i + j) =
      stGet (fun _ => MntKind.reset) s.mnt.kinds (64 * i + j) := stGet_stSet_other _ _ _ hne
  rw [mntKind, hget]
  rfl

/-- The reserved bits beside a LOG_ACK's hub are 0. -/
theorem logAck_hub {w : Fin 128} {k : Pkt} {s : State}
    (hadm : admitted w 0x0506 (fun b => payAt b 0 1 / 4 != 0 || payNZ b 1 3) k s) : payAt k.bytes 0 1 % 4 = payAt k.bytes 0 1 := by
  obtain ⟨-, hresv, -⟩ := hadm
  simp only [Bool.or_eq_false_iff, bne_eq_false_iff_eq] at hresv
  omega

end Sys2Proof.Machine

open Sys2Proof.Machine

/-- Settles O47: each command by the tests it passes; the kinds with a period are the hubs' own records. -/
theorem maintenanceCommands : Obligations.MaintenanceCommands := by
  unfold Obligations.MaintenanceCommands
  refine ⟨?_, ?_, ?_, ?_, ?_, ?_, fun w k j s hadm hdev hfind => ?_, ?_, ?_, ?_, fun h w s hk => ?_, fun h kind s hhub hk => ?_⟩
  · refine completes_of_body (body := mntStart) (fun w s => by rw [exec, execMntStart]) fun k u h => ?_
    obtain ⟨hlo, hhi, hn, hfit, hlanes, hunits, hmeet, hbusy⟩ := h
    exact mntStart_begins k u ⟨hlo, hhi⟩ hn hfit (oneHub_of_units hn hlanes hunits) hmeet hbusy
  · exact refuses_of_body (body := mntStart) (fun w s => by rw [exec, execMntStart]) fun k u h => if_pos (by simpa using h)
  · refine refuses_of_body (body := mntStart) (fun w s => by rw [exec, execMntStart]) fun k u h => ?_
    exact (if_neg (by simp; omega)).trans (if_pos (by simp [h.1]))
  · refine completes_of_body (body := mntStop) (fun w s => by rw [exec, execMntStop]) fun k u h => ?_
    obtain ⟨hdev, hjob⟩ := h
    exact (if_neg (by simp [hdev])).trans ((if_neg (by simpa using hjob)).trans (by simp))
  · exact refuses_of_body (body := mntStop) (fun w s => by rw [exec, execMntStop]) fun k u h => if_pos h
  · refine refuses_of_body (body := mntStop) (fun w s => by rw [exec, execMntStop]) fun k u h => ?_
    obtain ⟨hdev, hnone⟩ := h
    exact (if_neg (by simp [hdev])).trans (if_pos (by simpa using hnone))
  · rw [exec, execMntQuery, runCmd_admitted hadm]
    refine congrArg Host.Outcome.next ((if_neg (by simp [hdev])).trans ?_)
    have hstart : (startPkt k s).mnt.jobs = s.mnt.jobs := rfl
    rw [hstart, hfind]
  · exact completes_of_body (body := mntQuery) (fun w s => by rw [exec, execMntQuery]) fun k u h => if_pos h
  · intro w k s hadm hhub
    have hmod := logAck_hub hadm
    rw [exec, execLogAck, runCmd_admitted hadm]
    refine congrArg Host.Outcome.next ((if_neg ?_).trans ?_)
    · rw [hmod, hhub]
      decide
    · rw [hmod]
      simp
  · intro w k s hadm hhub
    have hmod := logAck_hub hadm
    rw [exec, execLogAck, runCmd_admitted hadm]
    refine congrArg Host.Outcome.next (if_pos ?_)
    rw [hmod, hhub]
  · refine ⟨_, by rw [exec, execMntPeriodWrite], ?_, fun i j _ hne => ?_, ?_⟩
    · rw [writePeriod, if_neg hk, mntKind_mntSet_same _ _ hk]
      simp
    · rw [writePeriod, if_neg hk, mntKind_mntSet_other _ _ hne]
    · rw [writePeriod, if_neg hk]
      rfl
  · refine ⟨_, by rw [exec, execMaintPassLate, if_neg (by simp [hhub, hk])], mntKind_mntSet_same _ _ hk, rfl, rfl⟩
end

section
/-! What operations leave of the partitions' own records, whatever else they do: a directory engine changes a partition in its directory
alone, and what ends a step or a partition keeps its identity. -/

namespace Sys2Proof.Machine

/-- Part `π` of every partition's record is as before. -/
def Marks {α : Type} (π : PartSt → α) (s t : State) : Prop := ∀ j, π (pget t j) = π (pget s j)

/-- An operation of a directory engine that succeeds leaves part `π` of every partition's record. -/
def EngMarks {α β : Type} (π : PartSt → α) (e : Eng β) : Prop := ∀ s b t, e.run s = .ok (b, t) → Marks π s t

section
variable {α : Type} {π : PartSt → α}

theorem marks_refl (s : State) : Marks π s s := fun _ => rfl

theorem marks_trans {s t u : State} (h : Marks π s t) (k : Marks π t u) : Marks π s u := fun j => (k j).trans (h j)

section
variable {u s : State} (h : Marks π u s)
include h

theorem marks_of_parts {t : State} (ht : t.parts = s.parts) : Marks π u t := fun j => by rw [← h, pget, pget, ht]

theorem marks_only {φ : Nat} {t : State} (ht : Only φ s t) (hφ : φ.testBit 28 = false) : Marks π u t :=
  marks_of_parts h (ht.parts hφ)

theorem marks_rset (o : Nat) (w : Word) : Marks π u (rset o w s) := fun j => by rw [pget_rset, h]

theorem marks_rupd (o : Nat) (f : Word → Word) : Marks π u (rupd o f s) := fun j => by rw [pget_rupd, h]

omit h in
theorem marks_pset {p : Nat} {v : PartSt} (hv : π v = π (pget s p)) (h : Marks π u s) : Marks π u (pset p v s) := fun j => by
  by_cases hj : j = p
  · rw [hj, pget_pset_same, hv, h]
  · rw [pget_pset_other _ _ hj, h]

omit h in
theorem marks_pupd {p : Nat} {f : PartSt → PartSt} (hf : ∀ q, π (f q) = π q) (h : Marks π u s) : Marks π u (pupd p f s) :=
  marks_pset (hf _) h

omit h in
theorem marks_ite {c : Prop} [Decidable c] {t : State} (h : Marks π u s) (k : Marks π u t) : Marks π u (if c then s else t) := by
  split
  · exact h
  · exact k

omit h in
theorem marks_foldl {β : Type} {f : State → β → State} {l : List β} (hf : ∀ v a, Marks π u v → Marks π u (f v a))
    (h : Marks π u s) : Marks π u (l.foldl f s) :=
  List.foldlRecOn l f (motive := fun t => Marks π u t) h fun _ ht a _ => hf _ a ht

end

/-! ## Directory engines -/

theorem engMarks_of_only {β : Type} {φ : Nat} {e : Eng β} (h : ∀ u, OnlyEng φ u e) (hφ : φ.testBit 28 = false) : EngMarks π e :=
  fun s b t hrun => marks_only (marks_refl s) (h s s b t (Only.refl _ _) hrun) hφ

theorem engMarks_pure {β : Type} (b : β) : EngMarks π (pure b : Eng β) :=
  engMarks_of_only (φ := 0) (fun _ => onlyEng_pure b) rfl

theorem engMarks_bind {β γ : Type} {e : Eng β} {f : β → Eng γ} (he : EngMarks π e) (hf : ∀ b, EngMarks π (f b)) :
    EngMarks π (e >>= f) := fun s c t hrun => by
  rw [StateT.run_bind] at hrun
  cases hr : e.run s with
  | error st =>
    rw [hr] at hrun
    cases hrun
  | ok x =>
    obtain ⟨b, v⟩ := x
    rw [hr] at hrun
    exact marks_trans (he s b v hr) (hf b v c t hrun)

theorem engMarks_modify {f : State → State} (hf : ∀ s, Marks π s (f s)) : EngMarks π (modify f : Eng Unit) := fun s _ t e => by
  have e := congrArg (Except.map Prod.snd) e
  have : f s = t := Except.ok.inj e
  rw [← this]
  exact hf s

theorem engMarks_ite {β : Type} {c : Prop} [Decidable c] {e f : Eng β} (he : EngMarks π e) (hf : EngMarks π f) :
    EngMarks π (if c then e else f) := by
  split
  · exact he
  · exact hf

theorem engMarks_each {β : Type} {f : β → Eng Unit} (hf : ∀ a, EngMarks π (f a)) : ∀ l, EngMarks π (engEach f l)
  | [] => engMarks_pure _
  | _ :: r => engMarks_bind (hf _) fun _ => engMarks_each hf r

theorem marks_engRun {e : Eng Unit} (he : EngMarks π e) {u s : State} (h : Marks π u s) : Marks π u (engRun e s) := by
  rw [engRun]
  cases hr : e.run s with
  | error st => exact h
  | ok x =>
    obtain ⟨b, v⟩ := x
    exact marks_trans h (he s b v hr)

theorem engMarks_theDir (p : Nat) : EngMarks π (theDir p) := engMarks_of_only (φ := 0) (fun _ => only_theDir (φ := 0) rfl _) rfl

theorem engMarks_dWr (k off n v : Nat) : EngMarks π (dWr k off n v) :=
  engMarks_of_only (φ := F.srams) (fun _ => only_dWr (φ := F.srams) rfl _ _ _ _) rfl

theorem engMarks_dWrBlk (k b : Nat) (d : List Byte) : EngMarks π (dWrBlk k b d) :=
  engMarks_of_only (φ := F.srams) (fun _ => only_dWrBlk (φ := F.srams) rfl _ _ _) rfl

theorem engMarks_dRdBlk (k b : Nat) : EngMarks π (dRdBlk k b) :=
  engMarks_of_only (φ := F.srams) (fun _ => only_dRdBlk (φ := F.srams) rfl _ _) rfl

/-- Part `π` of a record says nothing of its directory. -/
def NoDir (π : PartSt → α) : Prop := ∀ q d, π { q with dir := d } = π q

/-- The dropped pages of a generation, none of them in host memory any more. -/
def pagesGone (g : GenSt) : GenSt := { g with drops := g.drops.map (fun x => if fld x.page 31 30 = 2 then { x with epoch := 4 } else x) }

variable (hπ : NoDir π)
include hπ

theorem engMarks_updDir (p : Nat) (f : DirSt → DirSt) : EngMarks π (updDir p f) :=
  engMarks_bind (engMarks_theDir p) fun _ => engMarks_modify fun s => marks_pupd (fun q => hπ q _) (marks_refl s)

theorem engMarks_updGen (p : Nat) (f : GenSt → GenSt) : EngMarks π (updGen p f) := engMarks_updDir hπ p _

theorem engMarks_autoCommit (p : Nat) : EngMarks π (autoCommit p) := engMarks_updDir hπ p _

theorem engMarks_dropEntry (p k e : Nat) : EngMarks π (dropEntry p k e) :=
  engMarks_ite (engMarks_updGen hπ p _) (engMarks_pure _)

theorem engMarks_setPtr (p k i v : Nat) : EngMarks π (setPtr p k i v) :=
  engMarks_bind (engMarks_theDir p) fun _ =>
    engMarks_ite (engMarks_bind (engMarks_dWr _ _ _ _) fun _ => engMarks_updGen hπ p _) (engMarks_updGen hπ p _)

theorem engMarks_allocBlk (p k : Nat) : EngMarks π (allocBlk p k) :=
  engMarks_bind (engMarks_theDir p) fun _ =>
    engMarks_bind (engMarks_of_only (φ := F.srams) (fun _ => only_bmFree (φ := F.srams) rfl _ _ _ _) rfl) fun _ =>
      engMarks_bind (engMarks_of_only (φ := F.fresh) (fun _ => only_pickFree (φ := F.fresh) rfl _) rfl) fun _ =>
        engMarks_bind (engMarks_of_only (φ := F.srams) (fun _ => only_bmPut (φ := F.srams) rfl _ _ _ _) rfl) fun _ =>
          engMarks_bind (engMarks_dWrBlk _ _ _) fun _ => engMarks_bind (engMarks_updGen hπ p _) fun _ => engMarks_pure _

theorem engMarks_ownBlk (p k b : Nat) : EngMarks π (ownBlk p k b) :=
  engMarks_bind (engMarks_theDir p) fun _ =>
    engMarks_ite (engMarks_allocBlk hπ p k) (engMarks_ite (engMarks_pure _)
      (engMarks_bind (engMarks_dRdBlk _ _) fun _ => engMarks_bind (engMarks_allocBlk hπ p k) fun _ =>
        engMarks_bind (engMarks_dWrBlk _ _ _) fun _ => engMarks_bind (engMarks_updGen hπ p _) fun _ => engMarks_pure _))

theorem engMarks_ownAt (p k b slot : Nat) : EngMarks π (ownAt p k b slot) :=
  engMarks_bind (engMarks_of_only (φ := F.srams) (fun _ => only_ptrIn (φ := F.srams) rfl _ _ _) rfl) fun _ =>
    engMarks_bind (engMarks_ownBlk hπ p k _) fun _ =>
      engMarks_ite (engMarks_bind (engMarks_dWr _ _ _ _) fun _ => engMarks_pure _) (engMarks_pure _)

theorem engMarks_ownDesc (p k i : Nat) : EngMarks π (ownDesc p k i) :=
  engMarks_bind (engMarks_theDir p) fun _ =>
    engMarks_bind (engMarks_of_only (φ := F.srams) (fun _ => only_bldPtr (φ := F.srams) rfl _ _ _) rfl) fun _ =>
      engMarks_bind (engMarks_ownBlk hπ p k _) fun _ =>
        engMarks_ite (engMarks_bind (engMarks_setPtr hπ p k i _) fun _ => engMarks_pure _) (engMarks_pure _)

theorem engMarks_setBld (p i : Nat) (x : EditCtx) (lh b v : Nat) : EngMarks π (setBld p i x lh b v) :=
  engMarks_bind (engMarks_ownDesc hπ _ _ _) fun _ => engMarks_bind (engMarks_ownAt hπ _ _ _ _) fun _ =>
    engMarks_bind (engMarks_ownAt hπ _ _ _ _) fun _ => engMarks_bind (engMarks_ownAt hπ _ _ _ _) fun _ => engMarks_dWr _ _ _ _

theorem engMarks_losePage (p i : Nat) (x : EditCtx) (lh blk : Nat) : EngMarks π (losePage p i x lh blk) :=
  engMarks_bind (engMarks_of_only (φ := F.srams) (fun _ => only_getBld (φ := F.srams) rfl _ _ _ _ _) rfl) fun _ =>
    engMarks_bind (engMarks_theDir p) fun _ =>
      engMarks_ite (engMarks_bind (engMarks_dropEntry hπ _ _ _) fun _ =>
        engMarks_ite (engMarks_of_only (φ := F.srams) (fun _ => only_pteAll (φ := F.srams) rfl _ _ _ _ _ _ _) rfl)
          (engMarks_setBld hπ _ _ _ _ _ _)) (engMarks_pure _)

theorem engMarks_loseWhere (p : Nat) (f : Nat → Bool) : EngMarks π (loseWhere p f) :=
  engMarks_bind (engMarks_of_only (φ := F.srams) (fun _ => only_editCtx (φ := F.srams) rfl _) rfl) fun _ =>
    engMarks_bind (engMarks_of_only (φ := F.srams) (fun _ => only_placesWith (φ := F.srams) rfl _ _ _) rfl) fun _ =>
      engMarks_bind (engMarks_each (fun _ => engMarks_losePage hπ _ _ _ _ _) _) fun _ => engMarks_autoCommit hπ _

omit hπ in
theorem hostPagesLost_eq (p : Nat) (s : State) : hostPagesLost p s = rset (glzKey p 8) 0 (rset (glzKey p 4) 0
    (pupd p (fun q => { q with dir := q.dir.map (fun d => { d with g1 := pagesGone d.g1, g2 := pagesGone d.g2 }) })
      (engRun (loseWhere p inHost) s))) := rfl

/-- The loss of a partition's host pages changes its record in the directory alone. -/
theorem marks_hostPagesLost {u s : State} (h : Marks π u s) (p : Nat) : Marks π u (hostPagesLost p s) := by
  have hlost := marks_pupd (p := p) (fun q => hπ q (q.dir.map (fun d => { d with g1 := pagesGone d.g1, g2 := pagesGone d.g2 })))
    (marks_engRun (engMarks_loseWhere hπ p inHost) h)
  exact fun j => (congrArg π (by rw [hostPagesLost_eq, pget_rset, pget_rset])).trans (hlost j)

end

/-! ## The end of a step, and a partition at fault -/

/-- What a partition is, apart from its areas and its work: its state, its keys and its interface. -/
structure PartMark where
  state : Nat
  tdi : Nat
  stopReq : Bool
  ide : Bool
  key0 : Option Nat
  key1 : Option Nat

/-- The mark of a partition's record. -/
def partMark (q : PartSt) : PartMark where
  state := q.state
  tdi := q.tdi
  stopReq := q.stopReq
  ide := q.ide
  key0 := q.glz.key0
  key1 := q.glz.key1

section
variable {u s : State}

theorem marks_complete {α : Type} {π : PartSt → α} (h : Marks π u s) (id status result detail : Nat) :
    Marks π u (complete id status result detail s) := fun j => by rw [pget_complete, h]

theorem marks_kvAll {α : Type} {π : PartSt → α} (h : Marks π u s) (p o : Nat) (f : Word → Word) : Marks π u (kvAll p o f s) :=
  fun j => by rw [pget_kvAll, h]

theorem marks_haltReqs {α : Type} {π : PartSt → α} (h : Marks π u s) (cs : List Nat) :
    Marks π u (cs.foldl (fun s c => haltReqCore c s) s) :=
  marks_foldl (fun _ _ hv => marks_only hv (only_haltReqCore (φ := F.cores ||| F.cols) rfl (Only.refl _ _) _) rfl) h

theorem marks_stepDone (h : Marks partMark u s) (p : Nat) (st : StepSt) (status result detail : Nat) :
    Marks partMark u (stepDone p st status result detail s) := by
  rw [stepDone]
  exact marks_complete (marks_pupd (fun _ => by rfl) h) _ _ _ _

theorem marks_stepEndNow (h : Marks partMark u s) (p status : Nat) : Marks partMark u (stepEndNow p status s) := by
  rw [stepEndNow]
  split
  · exact h
  · exact marks_stepDone (marks_only (marks_haltReqs h _) (only_earlyTable (φ := F.hostOut) rfl (Only.refl _ _) _) rfl) _ _ _ _ _

theorem marks_launchesEnd (h : Marks partMark u s) (p status : Nat) : Marks partMark u (launchesEnd p status s) := by
  rw [launchesEnd]
  exact marks_foldl (fun _ _ hv => marks_complete hv _ _ _ _) (marks_pset rfl h)

theorem marks_dirDrop (h : Marks partMark u s) (p : Nat) : Marks partMark u (dirDrop p s) := by
  rw [dirDrop]
  exact marks_foldl (fun _ _ hv => marks_kvAll hv _ _ _) (marks_pupd (fun _ => by rfl) h)

/-- What a partition keeps when its areas are gone. -/
def areasGone (spans : List ZeroSpan) (q : PartSt) : PartSt :=
  { q with
    att := none, model := none, loading := none, swap := none, rekey := none, preempt := false, stuck := false
    glz := { q.glz with area := false, dataBase := 0, metaBase := 0, nhs := 0, used := [], sweep := false }
    zeroLeft := q.zeroLeft ++ spans }

/-- The directory, the attention area and the streams of a partition, given up. -/
def areasStopped (p : Nat) (s : State) : State :=
  dropStreams (partClus s p) ([0x140, 0x144, 0x148].foldl (fun s o => kvAll p o (fun _ => 0) s)
    (match (pget s p).dir with
      | some d => dirDrop p (framesToZero p d s)
      | none => s))

theorem dropAreas_eq (p : Nat) (s : State) : dropAreas p s =
    pupd p (areasGone (slotSpans (poolGet (areasStopped p s) p))) (rset (glzKey p 8) 0 (rset (glzKey p 4) 0
      (rupd (glzKey p 0) (fun v => wPut v 31 30 0) (poolSet p Pool.reset (areasStopped p s))))) := rfl

theorem marks_areasStopped (h : Marks partMark u s) (p : Nat) : Marks partMark u (areasStopped p s) := by
  have hdir : Marks partMark u (match (pget s p).dir with
      | some d => dirDrop p (framesToZero p d s)
      | none => s) := by
    split
    · exact marks_dirDrop (marks_only h (only_framesToZero (φ := F.zeroQ) rfl (Only.refl _ _) _ _) rfl) _
    · exact h
  rw [areasStopped]
  generalize (match (pget s p).dir with
      | some d => dirDrop p (framesToZero p d s)
      | none => s) = v at hdir
  exact marks_only (marks_foldl (f := fun s o => kvAll p o (fun _ => 0) s) (fun _ _ hv => marks_kvAll hv _ _ _) hdir)
    (only_dropStreams (φ := F.regs ||| F.fab) rfl (Only.refl _ _) (partClus s p)) rfl

theorem marks_poolSet (h : Marks partMark u s) (p : Nat) (q : Pool) : Marks partMark u (poolSet p q s) := marks_of_parts h rfl

theorem marks_dropAreas (h : Marks partMark u s) (p : Nat) : Marks partMark u (dropAreas p s) := by
  have hstop := marks_areasStopped h p
  rw [dropAreas_eq]
  generalize areasStopped p s = v at hstop
  refine marks_pupd (fun _ => by rfl) (marks_rset (marks_rset (marks_rupd ?_ _ _) _ _) _ _)
  exact marks_poolSet hstop _ _

/-- Everything that a faulted partition had under way ends; but for its state no mark changes. -/
theorem faultPart_ends (h : Marks partMark u s) (p : Nat) (hstate : (pget s p).state ≠ 0 ∧ (pget s p).state ≠ 3) :
    ∃ v, Marks partMark u v ∧ faultPart p s = pupd p (fun q => { q with state := 4 }) v := by
  rw [faultPart, if_neg (by simp [hstate])]
  exact ⟨_, marks_dropAreas (marks_foldl (fun _ _ hv => marks_complete hv _ _ _ _) (marks_launchesEnd (marks_stepEndNow h _ _) _ _)) _, rfl⟩

end

end Sys2Proof.Machine
end

section
/-! TDISP, integrity failures of a stream, and tampering. -/

namespace Sys2Proof.Machine

theorem Only.fatal {m : Nat} {s t : State} (h : Only m s t) (hm : m.testBit 43 = false) : t.fatal = s.fatal := by
  rw [← h, mix, hm, cond_false]

theorem Only.faultN {m : Nat} {s t : State} (h : Only m s t) (hm : m.testBit 44 = false) : t.faultN = s.faultN := by
  rw [← h, mix, hm, cond_false]

/-! ## What an interface's error and a partition's fault make of the partitions' marks -/

/-- The mark of a partition that faults: one that is there, and is not releasing, is faulted. -/
def PartMark.faulted (m : PartMark) : PartMark := { m with state := if m.state = 0 ∨ m.state = 3 then m.state else 4 }

/-- The mark of a partition whose interface, if locked, goes to ERROR. -/
def PartMark.inError (m : PartMark) : PartMark := if m.tdi = 1 ∨ m.tdi = 2 then { m.faulted with tdi := 3 } else m

theorem partMark_pupd (p j : Nat) (f : PartSt → PartSt) (s : State) :
    partMark (pget (pupd p f s) j) = if j = p then partMark (f (pget s p)) else partMark (pget s j) := by
  split
  · rename_i h
    rw [h, pget_pupd_same]
  · rename_i h
    rw [pget_pupd_other _ _ h]

theorem partMark_faultPart (p j : Nat) (s : State) : partMark (pget (faultPart p s) j) =
    if j = p then (partMark (pget s p)).faulted else partMark (pget s j) := by
  by_cases hstate : (pget s p).state = 0 ∨ (pget s p).state = 3
  · have hsame : (partMark (pget s p)).faulted = partMark (pget s p) := by
      rw [PartMark.faulted, if_pos (show (partMark (pget s p)).state = 0 ∨ (partMark (pget s p)).state = 3 from hstate)]
    rw [faultPart, if_pos (by simpa using hstate), hsame]
    split
    · rename_i h
      rw [h]
    · rfl
  · obtain ⟨v, hv, heq⟩ := faultPart_ends (marks_refl s) p (not_or.1 hstate)
    have hfault : (partMark (pget s p)).faulted = { partMark (pget s p) with state := 4 } := by
      rw [PartMark.faulted, if_neg (show ¬ ((partMark (pget s p)).state = 0 ∨ (partMark (pget s p)).state = 3) from hstate)]
    rw [heq, partMark_pupd, hfault, ← hv p, hv j]
    rfl

theorem tdiError_eq {p : Nat} {s : State} (h : (pget s p).tdi = 1 ∨ (pget s p).tdi = 2) :
    ∃ v, v = startZeroing p (pupd p (fun q => { q with tdi := 3 }) (faultPart p (stepEndNow p 0x0308 s))) ∧
      tdiError p s = assignAll (partClus v p) ((partCores v p).foldl (fun s c => cupd c (fun k => { k with halted := true }) s) v) := by
  rw [tdiError, if_neg (by simp; omega)]
  exact ⟨_, rfl, rfl⟩

/-- What an operation that leaves the partitions may change. -/
def F.allButParts : Nat := 0x7FFFFFFEFFFFFFF

theorem startZeroing_parts (p : Nat) (s : State) :
    (startZeroing p s).parts = (pupd p (fun q => { q with zeroLeft := zeroSpans s p }) s).parts := rfl

theorem partMark_tdiError (p j : Nat) (s : State) : partMark (pget (tdiError p s) j) =
    if j = p then (partMark (pget s p)).inError else partMark (pget s j) := by
  by_cases htdi : (pget s p).tdi = 1 ∨ (pget s p).tdi = 2
  · have herror : (partMark (pget s p)).inError = { (partMark (pget s p)).faulted with tdi := 3 } := if_pos htdi
    obtain ⟨v, hv, heq⟩ := tdiError_eq htdi
    have hrest := Only.refl F.allButParts v
    have hhalt := only_foldl (f := fun s c => cupd c (fun k => { k with halted := true }) s) (l := partCores v p)
      (fun _ _ h => only_cupd (φ := F.allButParts) rfl h _ _) hrest
    have hassign := only_assignAll (φ := F.allButParts) rfl hhalt (partClus v p)
    have hend := marks_stepEndNow (marks_refl s) p 0x0308
    rw [heq, pget, hassign.parts rfl, hv, startZeroing_parts, ← pget, partMark_pupd]
    have hzero (q : PartSt) (z : List ZeroSpan) : partMark { q with zeroLeft := z } = partMark q := rfl
    have herr (q : PartSt) : partMark { q with tdi := 3 } = { partMark q with tdi := 3 } := rfl
    rw [hzero, partMark_pupd, partMark_pupd, herr, partMark_faultPart, partMark_faultPart, if_pos rfl, hend p, hend j, herror]
    split
    · rw [if_pos rfl]
    · rfl
  · rw [tdiError, if_pos (by simpa using htdi), PartMark.inError,
      if_neg (show ¬ ((partMark (pget s p)).tdi = 1 ∨ (partMark (pget s p)).tdi = 2) from htdi)]
    split
    · rename_i h
      rw [h]
    · rfl

/-- The partitions that have a record. -/
theorem mem_parts_of_state {s : State} {p : Nat} (h : pget s p ≠ PartSt.reset) : p ∈ s.parts.map Prod.fst :=
  List.mem_map.2 ⟨_, mem_of_stGet_ne (d := fun _ => PartSt.reset) h, rfl⟩

/-- A predicate on the mark of partition `p` that every operation keeps is kept by them one after another. -/
theorem partMark_foldl {Q : PartMark → Prop} {f : Nat → State → State} {p : Nat}
    (hf : ∀ a v, Q (partMark (pget v p)) → Q (partMark (pget (f a v) p))) (l : List Nat) {s : State} (h : Q (partMark (pget s p))) :
    Q (partMark (pget (l.foldl (fun s a => f a s) s) p)) :=
  List.foldlRecOn l _ (motive := fun t => Q (partMark (pget t p))) h fun _ ht a _ => hf a _ ht

/-- Where one of the operations establishes the predicate and all keep it, it holds at the end. -/
theorem partMark_foldl_establishes {Q R : PartMark → Prop} {f : Nat → State → State} {p : Nat}
    (hkeep : ∀ a v, Q (partMark (pget v p)) → Q (partMark (pget (f a v) p)))
    (hstay : ∀ a v, R (partMark (pget v p)) → R (partMark (pget (f a v) p)))
    (hown : ∀ v, Q (partMark (pget v p)) → R (partMark (pget (f p v) p))) (l : List Nat) {s : State} (hmem : p ∈ l)
    (h : Q (partMark (pget s p))) : R (partMark (pget (l.foldl (fun s a => f a s) s) p)) := by
  induction l generalizing s with
  | nil => exact absurd hmem (List.not_mem_nil)
  | cons b l ih =>
    rw [List.foldl_cons]
    by_cases hb : p = b
    · exact partMark_foldl (Q := R) hstay l (hb ▸ hown s h)
    · exact ih ((List.mem_cons.1 hmem).resolve_left hb) (hkeep b s h)

/-! ## Integrity failures (R423, R426) -/

theorem tdiError_keeps_error (p a : Nat) (v : State) (h : (partMark (pget v p)).tdi = 3) :
    (partMark (pget (tdiError a v) p)).tdi = 3 := by
  rw [partMark_tdiError]
  split
  · rename_i heq
    rw [← heq, PartMark.inError, h]
    exact h
  · exact h

theorem tdiError_locked {p a : Nat} {v : State} (h : (partMark (pget v p)).tdi = 1 ∨ (partMark (pget v p)).tdi = 2 ∨
    (partMark (pget v p)).tdi = 3) : (partMark (pget (tdiError a v) p)).tdi = 1 ∨
    (partMark (pget (tdiError a v) p)).tdi = 2 ∨ (partMark (pget (tdiError a v) p)).tdi = 3 := by
  rw [partMark_tdiError]
  split
  · rename_i heq
    rw [← heq, PartMark.inError]
    split
    · exact .inr (.inr rfl)
    · exact h
  · exact h

theorem tdiError_own {p : Nat} {v : State} (h : (partMark (pget v p)).tdi = 1 ∨ (partMark (pget v p)).tdi = 2 ∨
    (partMark (pget v p)).tdi = 3) : (partMark (pget (tdiError p v) p)).tdi = 3 := by
  rw [partMark_tdiError, if_pos rfl, PartMark.inError]
  split
  · rfl
  · rename_i hnot
    rcases h with h | h | h
    · exact absurd (.inl h) hnot
    · exact absurd (.inr h) hnot
    · exact h

theorem streamUp_setStream (n set : Nat) (s : State) : streamUp (setStream n false set s) n = false := by
  rw [streamUp, setStream]
  by_cases h0 : n = 0
  · rw [if_pos h0, if_pos h0]
    rfl
  · by_cases h65 : n = 65
    · rw [if_neg h0, if_pos h65, if_neg h0, if_pos h65]
      rfl
    · rw [if_neg h0, if_neg h65, if_neg h0, if_neg h65, pget_pupd_same]

theorem tdi_setStream (n set p : Nat) (s : State) : (pget (setStream n false set s) p).tdi = (pget s p).tdi := by
  rw [setStream]
  split
  · rfl
  · split
    · rfl
    · by_cases h : p = n - 1
      · rw [h, pget_pupd_same]
      · rw [pget_pupd_other _ _ h]

/-- The partitions that stream `n` carries. -/
def carried (s : State) (n : Nat) : List Nat := if n = 0 then s.parts.map Prod.fst else if n = 65 then [] else [n - 1]

theorem ideIntegrityFailure_errors (stream : Fin 66) {s : State} (hup : streamUp s stream = true) :
    ∃ t, exec (.ideIntegrityFailure stream) s = .next t ∧ streamUp t stream = false ∧
      (∀ p : Fin 64, stream.val = 0 ∨ stream.val = p.val + 1 → (pget s p).stopReq = false →
        (pget s p).tdi = 1 ∨ (pget s p).tdi = 2 → (pget t p).tdi = 3) := by
  refine ⟨setStream stream false 0 ((carried s stream).foldl (fun s p => tdiError p s) s), ?_, streamUp_setStream _ _ _,
    fun p hstream _ htdi => ?_⟩
  · have hunfold : exec (.ideIntegrityFailure stream) s = execIdeIntegrityFailure stream s := by rw [exec]
    rw [hunfold, execIdeIntegrityFailure]
    exact congrArg Host.Outcome.next (if_neg (by simp [hup]))
  · have hmem : p.val ∈ carried s stream := by
      rw [carried]
      rcases hstream with h | h
      · rw [if_pos h]
        refine mem_parts_of_state fun hreset => ?_
        rw [hreset] at htdi
        exact absurd htdi (by decide)
      · rw [if_neg (by omega), if_neg (by omega), h]
        simp
    rw [tdi_setStream]
    exact partMark_foldl_establishes (Q := fun m => m.tdi = 1 ∨ m.tdi = 2 ∨ m.tdi = 3) (R := fun m => m.tdi = 3)
      (fun a v hv => tdiError_locked hv) (fun a v hv => tdiError_keeps_error p a v hv) (fun v hv => tdiError_own hv) _ hmem
      (by rcases htdi with h | h
          · exact .inl h
          · exact .inr (.inl h))

/-! ## Tampering (R434) -/

theorem tamperMark_fields (src : Fin 3) (w : Word) : wBit (tamperMark src w) (28 + src.val) = true ∧
    wFld (tamperMark src w) 15 0 = min (wFld w 15 0 + 1) 65535 := by
  rw [tamperMark]
  refine ⟨?_, ?_⟩
  · rw [wSatAdd, wBit_wPut _ _ _ (by decide) (by decide), if_neg (by omega), wBit_wPut _ _ _ (by omega) (by omega),
      if_pos (by omega)]
    simp
  · rw [wFld_wSatAdd_same _ _ (by decide) (by decide), wFld_wPut_disjoint _ _ (by omega) (by omega) (by omega)]
    rfl

/-- Of the security state only the memory that waits to be zeroed may differ. -/
def SecKept (s t : State) : Prop := { t.sec with dirty := s.sec.dirty, dirtyT2 := s.sec.dirtyT2 } = s.sec

theorem secKept_trans {s t u : State} (h : SecKept s t) (k : SecKept t u) : SecKept s u := by
  rw [SecKept, ← h, ← k]

theorem secKept_of_sec {s t : State} (h : t.sec = s.sec) : SecKept s t := by rw [SecKept, h]

/-- What an operation that leaves the security state may change. -/
def F.allButSec : Nat := 0x7F7FFFFFFFFFFFF

theorem secKept_only {s t u : State} (h : SecKept s t) (k : Only F.allButSec t u) : SecKept s u :=
  secKept_trans h (secKept_of_sec (k.sec rfl))

theorem secKept_tdiError (p : Nat) (s : State) : SecKept s (tdiError p s) := by
  by_cases htdi : (pget s p).tdi = 1 ∨ (pget s p).tdi = 2
  · obtain ⟨v, hv, heq⟩ := tdiError_eq htdi
    have hfault : Only F.allButSec s (pupd p (fun q => { q with tdi := 3 }) (faultPart p (stepEndNow p 0x0308 s))) :=
      only_pupd (φ := F.allButSec) rfl (only_faultPart (φ := F.allButSec) rfl
        (only_stepEndNow (φ := F.allButSec) rfl (Only.refl _ _) _ _) _) _ _
    have hzero (u : State) : SecKept u (startZeroing p u) := rfl
    have hhalt := only_foldl (f := fun s c => cupd c (fun k => { k with halted := true }) s) (l := partCores v p)
      (fun _ _ h => only_cupd (φ := F.allButSec) rfl h _ _) (Only.refl F.allButSec v)
    have hassign := only_assignAll (φ := F.allButSec) rfl hhalt (partClus v p)
    rw [heq]
    refine secKept_only ?_ hassign
    rw [hv]
    exact secKept_trans (secKept_of_sec (hfault.sec rfl)) (hzero _)
  · rw [tdiError, if_pos (by simpa using htdi)]
    exact secKept_of_sec rfl

theorem secKept_foldl {f : Nat → State → State} (hf : ∀ a s, SecKept s (f a s)) (l : List Nat) (s : State) :
    SecKept s (l.foldl (fun s a => f a s) s) :=
  List.foldlRecOn l _ (motive := fun t => SecKept s t) (secKept_of_sec rfl) fun _ ht a _ => secKept_trans ht (hf a _)

/-- Every partition's keys forgotten and its host pages lost. -/
def keysForgotten (ps : List Nat) (s : State) : State := ps.foldl (fun s p => pupd p forgetKeys (hostPagesLost p s)) s

theorem wipeSaggar_eq (s : State) : wipeSaggar s =
    rupd secBase (fun w => wPut w 16 16 0) { keysForgotten (s.parts.map Prod.fst) s with
      sec := { (keysForgotten (s.parts.map Prod.fst) s).sec with
        ids := false, sessions := [], ideLink := false, ideLinkSet := 0, idePf := false, idePfSet := 0, pendDebug := none } } := rfl

theorem wipeSaggar_secAll (s : State) : (wipeSaggar s).sec = { s.sec with
    ids := false, sessions := [], ideLink := false, ideLinkSet := 0, idePf := false, idePfSet := 0, pendDebug := none } := by
  have hkeep : Only F.pagesLost s (keysForgotten (s.parts.map Prod.fst) s) :=
    only_foldl (φ := F.pagesLost) (fun _ _ h => only_pupd (φ := F.pagesLost) rfl (only_hostPagesLost (φ := F.pagesLost) rfl h _) _ _)
      (Only.refl _ _)
  have hsec := hkeep.sec rfl
  rw [wipeSaggar_eq, rupd_sec]
  generalize keysForgotten (s.parts.map Prod.fst) s = v at hsec
  rw [hsec]

/-- The mark of a partition whose keys are forgotten. -/
def PartMark.keyless (m : PartMark) : PartMark := { m with ide := false, key0 := none, key1 := none }

theorem partMark_forget (a j : Nat) (v : State) : partMark (pget (pupd a forgetKeys (hostPagesLost a v)) j) =
    if j = a then (partMark (pget v a)).keyless else partMark (pget v j) := by
  have hlost := marks_hostPagesLost (π := partMark) (fun _ _ => rfl) (marks_refl v) a
  have hforget (q : PartSt) : partMark (forgetKeys q) = (partMark q).keyless := rfl
  rw [partMark_pupd, hforget, hlost a, hlost j]

theorem partMark_wipeSaggar {s : State} {p : Nat} (h : (pget s p).state ≠ 0) :
    partMark (pget (wipeSaggar s) p) = (partMark (pget s p)).keyless := by
  have hmem : p ∈ s.parts.map Prod.fst := mem_parts_of_state fun hreset => h (by rw [hreset]; rfl)
  rw [wipeSaggar_eq, pget_rupd]
  refine partMark_foldl_establishes (f := fun a v => pupd a forgetKeys (hostPagesLost a v))
    (Q := fun m => m.keyless = (partMark (pget s p)).keyless) (R := fun m => m = (partMark (pget s p)).keyless)
    (fun a v hv => ?_) (fun a v hv => ?_) (fun v hv => ?_) _ hmem rfl
  · rw [partMark_forget]
    split
    · rename_i heq
      rw [← heq]
      exact hv
    · exact hv
  · rw [partMark_forget]
    split
    · rename_i heq
      rw [← heq, hv]
      rfl
    · exact hv
  · rw [partMark_forget, if_pos rfl]
    exact hv

/-- A partition that is there, not releasing, and without keys. -/
def PartMark.bare (m : PartMark) : Prop := m.state ≠ 0 ∧ m.state ≠ 3 ∧ m.ide = false ∧ m.key0 = none ∧ m.key1 = none

theorem PartMark.faulted_bare {m : PartMark} (h : m.bare) : m.faulted.bare ∧ m.faulted.state = 4 := by
  obtain ⟨h0, h3, hrest⟩ := h
  have hstate : m.faulted.state = 4 := if_neg (by omega)
  exact ⟨⟨by omega, by omega, hrest⟩, hstate⟩

theorem tdiError_bare {p a : Nat} {v : State} (h : (partMark (pget v p)).bare) : (partMark (pget (tdiError a v) p)).bare := by
  rw [partMark_tdiError]
  split
  · rename_i heq
    rw [← heq, PartMark.inError]
    split
    · obtain ⟨hbare, _⟩ := PartMark.faulted_bare h
      exact hbare
    · exact h
  · exact h

theorem faultPart_bare {p a : Nat} {v : State} (h : (partMark (pget v p)).bare) : (partMark (pget (faultPart a v) p)).bare := by
  rw [partMark_faultPart]
  split
  · rename_i heq
    rw [← heq]
    obtain ⟨hbare, _⟩ := PartMark.faulted_bare h
    exact hbare
  · exact h

/-- Every partition faulted, its interface in ERROR if it was locked. -/
def allFaulted (ps : List Nat) (s : State) : State :=
  ps.foldl (fun s p => faultPart p s) (ps.foldl (fun s p => tdiError p s) s)

theorem allFaulted_marks {ps : List Nat} {p : Nat} {s : State} (hmem : p ∈ ps) (h : (partMark (pget s p)).bare) :
    (partMark (pget (allFaulted ps s) p)).bare ∧ (partMark (pget (allFaulted ps s) p)).state = 4 := by
  have herr : (partMark (pget (ps.foldl (fun s p => tdiError p s) s) p)).bare :=
    partMark_foldl (Q := PartMark.bare) (f := tdiError) (fun a v hv => tdiError_bare hv) ps h
  refine partMark_foldl_establishes (f := faultPart) (Q := PartMark.bare) (R := fun m => m.bare ∧ m.state = 4)
    (fun a v hv => faultPart_bare hv) (fun a v hv => ⟨faultPart_bare hv.1, ?_⟩) (fun v hv => ?_) ps hmem herr
  · obtain ⟨hbare, hstate⟩ := hv
    rw [partMark_faultPart]
    split
    · rename_i heq
      rw [← heq]
      obtain ⟨_, h4⟩ := PartMark.faulted_bare hbare
      exact h4
    · exact hstate
  · rw [partMark_faultPart, if_pos rfl]
    exact PartMark.faulted_bare hv

theorem secKept_allFaulted (ps : List Nat) (s : State) : SecKept s (allFaulted ps s) :=
  secKept_trans (secKept_foldl secKept_tdiError ps s) (secKept_foldl (f := faultPart) (fun a v => secKept_of_sec
    ((only_faultPart (φ := F.allButSec) rfl (Only.refl _ _) a).sec rfl)) ps _)

/-- The tamper event recorded, before the wipe. -/
def tamperNoted (src : Nat) (s : State) : State :=
  let on := nsHas s.pwr.rails 0
  let s := { s with
    pwr := { s.pwr with lidOpen := s.pwr.lidOpen || src == 0 }
    sec := { s.sec with tamperNv := tamperMark src s.sec.tamperNv, tampering := s.sec.tampering || on } }
  if on then rupd (secBase + 4) (tamperMark src) s else s

theorem tamper_eq (src : Nat) (s : State) : tamper src s =
    allFaulted ((wipeSaggar (tamperNoted src s)).parts.map Prod.fst) (wipeSaggar (tamperNoted src s)) := rfl

theorem tamperNoted_effect (src : Nat) (s : State) : (tamperNoted src s).parts = s.parts ∧
    (tamperNoted src s).sec = { s.sec with
      tamperNv := tamperMark src s.sec.tamperNv, tampering := s.sec.tampering || nsHas s.pwr.rails 0 } := by
  rw [tamperNoted]
  split
  · rw [rupd_parts, rupd_sec]
    exact ⟨rfl, rfl⟩
  · exact ⟨rfl, rfl⟩

theorem tamperEvent_wipes (src : Fin 3) {s : State} (hon : s.pwr.vaux = true) : ∃ t, exec (.tamperEvent src) s = .next t ∧
    wBit t.sec.tamperNv (28 + src.val) = true ∧ wFld t.sec.tamperNv 15 0 = min (wFld s.sec.tamperNv 15 0 + 1) 65535 ∧
    t.sec.ids = false ∧ t.sec.sessions = [] ∧ t.sec.pendDebug = none ∧
    (nsHas s.pwr.rails 0 = true → t.sec.tampering = true) ∧
    (∀ p, (pget s p).state ≠ 0 → (pget s p).state ≠ 3 → (pget t p).state = 4 ∧ (pget t p).ide = false ∧
      (pget t p).glz.key0 = none ∧ (pget t p).glz.key1 = none) := by
  obtain ⟨hparts, hsec⟩ := tamperNoted_effect src s
  obtain ⟨u, hu⟩ : ∃ u, u = wipeSaggar (tamperNoted src s) := ⟨_, rfl⟩
  have husec := wipeSaggar_secAll (tamperNoted src s)
  have hkept := secKept_allFaulted (u.parts.map Prod.fst) u
  obtain ⟨hbit, hcount⟩ := tamperMark_fields src s.sec.tamperNv
  have hexec : exec (.tamperEvent src) s = .next (allFaulted (u.parts.map Prod.fst) u) := by
    rw [exec, execTamperEvent, if_pos hon, tamper_eq, hu]
  refine ⟨_, hexec, ?_⟩
  rw [← hu, hsec] at husec
  have hmark (p : Nat) (h0 : (pget s p).state ≠ 0) (h3 : (pget s p).state ≠ 3) :
      (partMark (pget (allFaulted (u.parts.map Prod.fst) u) p)).bare ∧
        (partMark (pget (allFaulted (u.parts.map Prod.fst) u) p)).state = 4 := by
    have hsame : pget (tamperNoted src s) p = pget s p := by rw [pget, pget, hparts]
    have hwiped := partMark_wipeSaggar (s := tamperNoted src s) (p := p) (by rwa [hsame])
    rw [← hu, hsame] at hwiped
    have hbare : (partMark (pget u p)).bare := by
      rw [hwiped]
      exact ⟨h0, h3, rfl, rfl, rfl⟩
    refine allFaulted_marks (mem_parts_of_state fun hreset => ?_) hbare
    obtain ⟨hne, _⟩ := hbare
    rw [hreset] at hne
    exact hne rfl
  generalize allFaulted (u.parts.map Prod.fst) u = t at hkept hmark
  rw [SecKept, husec] at hkept
  have hnv := congrArg SecSt.tamperNv hkept
  have hids := congrArg SecSt.ids hkept
  have hsessions := congrArg SecSt.sessions hkept
  have hdebug := congrArg SecSt.pendDebug hkept
  have htamp := congrArg SecSt.tampering hkept
  dsimp only at hnv hids hsessions hdebug htamp
  refine ⟨by rw [hnv, hbit], by rw [hnv, hcount], hids, hsessions, hdebug, fun hrail => by rw [htamp, hrail, Bool.or_true],
    fun p h0 h3 => ?_⟩
  obtain ⟨⟨_, _, hide, hkey0, hkey1⟩, hstate⟩ := hmark p h0 h3
  exact ⟨hstate, hide, hkey0, hkey1⟩

/-! ## The end of the zeroing -/

theorem enterFatal_flags (s : State) : (enterFatal s).fatal = true ∧ (enterFatal s).faultN = true := by
  have hhalt := only_foldl (f := fun (s : State) (e : Nat × CoreSt) => haltReqCore e.1 s) (l := s.cores)
    (fun _ _ h => only_haltReqCore (φ := F.cores ||| F.cols) rfl h _) (Only.refl _ { s with fatal := true, faultN := true })
  exact ⟨hhalt.fatal rfl, hhalt.faultN rfl⟩

/-! ## TDISP requests -/

theorem lockable_iff (s : State) (p : Nat) : lockable s p = true ↔ (pget s p).conf = true ∧ (pget s p).state = 1 ∧
    (pget s p).tdi = 0 ∧ (pget s p).step = none ∧ launchesOf s p = 0 ∧ (pget s p).ide = true := by
  simp [lockable, and_assoc]

/-- A partition's record replaced and a TDISP response sent. -/
theorem tdispAnswered (p : Fin 64) (f : PartSt → PartSt) (ty : Nat) (s : State) {t : State} (ht : t = tdispSend ty [] (pupd p f s)) :
    pget t p = f (pget s p) ∧ (∀ j, j ≠ p.val → pget t j = pget s j) ∧
      t.hostOut = s.hostOut ++ [.doe 0x7E [BitVec.ofNat 8 ty]] ∧ { t with parts := s.parts, hostOut := s.hostOut } = s := by
  rw [ht]
  refine ⟨?_, fun j hj => ?_, rfl, rfl⟩
  · rw [tdispSend, pget_hostSend, pget_pupd_same]
  · rw [tdispSend, pget_hostSend, pget_pupd_other _ _ hj]

/-- An interface in ERROR whose partition has nothing left to zero is unlocked. -/
theorem zeroCheck_stopped {p : Nat} {s : State} (htdi : (pget s p).tdi = 3) (hleft : (pget s p).zeroLeft = [])
    (hstate : (pget s p).state ≠ 3) (hstop : (pget s p).stopReq = true) : zeroCheck p s =
      tdispSend 0x07 [] (pset p { pget s p with tdi := 0, state := 1, stopReq := false, model := none } (clearDirty p s)) := by
  rw [zeroCheck, if_neg (by simp [hleft, htdi])]
  exact (if_neg hstate).trans (if_pos hstop)

end Sys2Proof.Machine

open Sys2Proof.Machine

/-- Settles O53: each request by the interface's state; the fault and the loss of keys through the partitions' marks. -/
theorem interfacesAndTamper : Obligations.InterfacesAndTamper := by
  unfold Obligations.InterfacesAndTamper
  refine ⟨fun p s hon => ?_, fun p s hon => ⟨fun h => ?_, fun h => ?_⟩, fun p s hon => ⟨fun h => ?_, fun h => ?_⟩,
    fun p s hon => ⟨fun h => ?_, fun h => ?_, fun htdi hleft hstate => ?_⟩, fun stream s => ideIntegrityFailure_errors stream,
    fun src s => tamperEvent_wipes src, fun s h => ?_⟩
  · rw [exec, execGetDeviceInterfaceReport, if_pos hon]
    rfl
  · obtain ⟨hpart, hother, hout, hrest⟩ := tdispAnswered p (fun q => { q with tdi := 1, state := 2 }) 0x03 s rfl
    refine ⟨_, ?_, hpart, hother, hout, hrest⟩
    rw [exec, execLockInterfaceRequest, if_neg (by simp [hon]), if_pos ((lockable_iff s p).2 h)]
  · have hnot : ¬ lockable s p = true := fun hl => by
      obtain ⟨h1, h2, h3, h4, h5, h6⟩ := (lockable_iff s p).1 hl
      simp [h1, h2, h3, h4, h5, h6] at h
    rw [exec, execLockInterfaceRequest, if_neg (by simp [hon]), if_neg hnot]
    rfl
  · obtain ⟨hpart, _, hout, hrest⟩ := tdispAnswered p (fun q => { q with tdi := 2 }) 0x06 s rfl
    refine ⟨_, ?_, hpart, hout, hrest⟩
    rw [exec, execStartInterfaceRequest, if_neg (by simp [hon]), if_pos h]
  · rw [exec, execStartInterfaceRequest, if_neg (by simp [hon]), if_neg h]
    rfl
  · rw [exec, execStopInterfaceRequest, if_neg (by simp [hon]), if_neg (by omega), if_pos h]
    rfl
  · rw [exec, execStopInterfaceRequest, if_neg (by simp [hon]), if_pos h]
  · refine ⟨_, by rw [exec, execStopInterfaceRequest, if_neg (by simp [hon]), if_pos htdi], ?_⟩
    have hself := pget_pupd_same p.val (fun q => { q with stopReq := true }) s
    rw [zeroCheck_stopped (by rw [hself, htdi]) (by rw [hself, hleft]) (by rw [hself, hstate]; decide) (by rw [hself]), tdispSend,
      pget_hostSend, pget_pset_same]
    exact ⟨rfl, rfl, rfl, List.mem_append_right _ (List.mem_singleton.2 rfl)⟩
  · obtain ⟨hfatal, hfault⟩ := enterFatal_flags s
    rw [exec, execTamperZeroingDone]
    generalize enterFatal s = u at hfatal hfault
    exact ⟨_, congrArg Host.Outcome.next (if_neg (by simp [h])), rfl, rfl, rfl, hfatal, hfault, rfl⟩
end

section
/-! Repairs in service: spare lanes, the retraining of columns and of bridges. -/

namespace Sys2Proof.Machine

theorem Only.cols {m : Nat} {s t : State} (h : Only m s t) (hm : m.testBit 3 = false) : t.cols = s.cols := by
  rw [← h, mix, hm, cond_false]

/-! ## What stays of the columns -/

/-- Part `π` of every column's record is as before. -/
def ColMarks {α : Type} (π : ColSt → α) (s t : State) : Prop := ∀ k, π (colget t k) = π (colget s k)

/-- Part `π` of a column's record says nothing of its near-bank unit. -/
def NoNbu {α : Type} (π : ColSt → α) : Prop := ∀ q n, π { q with nbu := n } = π q

section
variable {α : Type} {π : ColSt → α} {u s : State}

theorem colMarks_refl (s : State) : ColMarks π s s := fun _ => rfl

theorem colMarks_only {φ : Nat} (h : ColMarks π u s) {t : State} (k : Only φ s t) (hφ : φ.testBit 3 = false) : ColMarks π u t :=
  fun j => by rw [← h, colget, colget, k.cols hφ]

theorem colMarks_colupd {c : Nat} {f : ColSt → ColSt} (hf : ∀ q, π (f q) = π q) (h : ColMarks π u s) : ColMarks π u (colupd c f s) :=
  fun j => by
    by_cases hj : j = c
    · rw [hj, colget_colupd_same, hf, h]
    · rw [colget_colupd_other _ _ hj, h]

theorem colMarks_foldl {β : Type} {f : State → β → State} {l : List β} (hf : ∀ v a, ColMarks π u v → ColMarks π u (f v a))
    (h : ColMarks π u s) : ColMarks π u (l.foldl f s) :=
  List.foldlRecOn l f (motive := fun t => ColMarks π u t) h fun _ ht a _ => hf _ a ht

variable (hπ : NoNbu π)
include hπ

theorem colMarks_discardUnstarted (h : ColMarks π u s) (c : Nat) : ColMarks π u (discardUnstarted c s) :=
  colMarks_colupd (fun q => hπ q _) (colMarks_colupd (fun q => hπ q _)
    (colMarks_only h (only_cupd (φ := F.cores) rfl (Only.refl _ _) c _) rfl))

theorem colMarks_haltReqCore (h : ColMarks π u s) (c : Nat) : ColMarks π u (haltReqCore c s) := by
  have hset (v : State) (f : SeqSt → SeqSt) (hv : ColMarks π u v) : ColMarks π u (squpd c f v) :=
    colMarks_only hv (only_squpd (φ := F.cores) rfl (Only.refl _ _) _ _) rfl
  rw [haltReqCore]
  split
  · split
    · exact hset _ _ h
    · exact h
  · exact hset _ _ (colMarks_discardUnstarted hπ h c)

/-- An error record leaves the columns, but for the units of cores that it halts. -/
theorem colMarks_logErr (h : ColMarks π u s) (e : ErrEv) : ColMarks π u (logErr e s) := by
  have hnote (e : ErrEv) (x : HubSt) : ColMarks π u (errNotice e (hset e.hub x s)) :=
    colMarks_only h (only_errNotice (φ := F.regs ||| F.hubs ||| F.ctrs ||| F.telem ||| F.hostOut ||| F.fab) rfl
      (only_hset (φ := F.regs ||| F.hubs ||| F.ctrs ||| F.telem ||| F.hostOut ||| F.fab) rfl (Only.refl _ _) _ _) _) rfl
  have hfatal (v : State) (hv : ColMarks π u v) : ColMarks π u (enterFatal v) :=
    colMarks_foldl (f := fun (s : State) (e : Nat × CoreSt) => haltReqCore e.1 s) (fun _ _ hw => colMarks_haltReqCore hπ hw _)
      (s := { v with fatal := true, faultN := true }) hv
  unfold logErr
  dsimp only
  generalize (if (hget s e.hub).lost = true then { e with hub := 0 } else e) = e'
  split
  · exact hfatal _ (hnote _ _)
  · exact hnote _ _

theorem colMarks_suspectErr (h : ColMarks π u s) (col g lane : Nat) : ColMarks π u (suspectErr col g lane s) :=
  colMarks_logErr hπ h _

theorem colMarks_withdrawCore (h : ColMarks π u s) (c : Nat) : ColMarks π u (withdrawCore c s) := by
  have hbreak : Only (F.cores ||| F.gbarArr) s (breakBarriers c s) := by
    unfold breakBarriers
    exact only_iter (φ := F.cores ||| F.gbarArr) (fun _ _ h1 => only_ite h1
      (only_foldl (φ := F.cores ||| F.gbarArr) (fun _ _ h2 => only_holdTrap (φ := F.cores ||| F.gbarArr) rfl h2 _ _)
        (only_gbarFree (φ := F.cores ||| F.gbarArr) rfl h1 _ _))) (Only.refl _ _)
  exact colMarks_only (colMarks_only (colMarks_haltReqCore hπ (colMarks_only h hbreak rfl) c)
    (only_mapChange (φ := F.regs ||| F.map ||| F.net) rfl (Only.refl _ _) _) rfl)
    (only_fireMap (φ := F.boot) rfl (Only.refl _ _) _ _ _ _) rfl

end

/-- A column retired from the state `w`, with the record of its loss. -/
def colRetired (col : Nat) (e : ErrEv) (w : State) : State :=
  logErr e (colNoZero col (colupd col (fun u => { u with retraining := false, phaseOut := [], queue := [] }) (markRetired col w)))

theorem colRetired_state (col : Nat) (e : ErrEv) (w : State) : (colget (colRetired col e w) col).state = 2 := by
  have hzero (x : State) : colget (colNoZero col x) col = colget x col := rfl
  have hboot (x : State) : colget { x with boot := { x.boot with retCol := nsAdd x.boot.retCol col } } col = colget x col := rfl
  rw [colRetired, colMarks_logErr (π := ColSt.state) (fun _ _ => rfl) (colMarks_refl _) e col, hzero, colget_colupd_same, markRetired,
    hboot, colget_colupd_same]

theorem retireCol_live {col : Nat} {s : State} (h : (colget s col).state ≠ 2) : ∃ e w, retireCol col s =
    if bothRetired (colRetired col e w) (col / 2) && (coLog (colRetired col e w) (col / 2)).isSome then
      withdrawCore (col / 2) (colRetired col e w)
    else colRetired col e w := ⟨_, _, if_neg h⟩

theorem retireCol_state (col : Nat) (s : State) : (colget (retireCol col s) col).state = 2 := by
  by_cases h : (colget s col).state = 2
  · rw [retireCol, if_pos h, h]
  · obtain ⟨e, w, heq⟩ := retireCol_live h
    have hv := colRetired_state col e w
    rw [heq]
    split
    · rw [colMarks_withdrawCore (π := ColSt.state) (fun _ _ => rfl) (colMarks_refl _) _ col, hv]
    · exact hv

/-! ## Spare lanes (R369) -/

theorem failLane_first {n lane : Nat} {g : LaneGrp} (hlane : lane < 64) (hsp : ∀ e ∈ g.sp, e.2 ≠ lane ∧ e.1 + 64 ≠ lane) :
    (∀ i, freeSpare n g = some i → failLane n lane g =
      ({ g with sp := g.sp ++ [(i, lane)], bad := g.bad.filter (fun x => x != lane) }, none)) ∧
    (freeSpare n g = none → failLane n lane g = ({ g with bad := nsAdd g.bad lane }, some lane)) := by
  have hfind : g.sp.find? (fun e => e.2 == lane || e.1 + 64 == lane) = none := by
    rw [List.find?_eq_none]
    intro e he
    obtain ⟨hne, hne'⟩ := hsp e he
    simp [hne, hne']
  rw [failLane, hfind]
  dsimp only
  rw [if_neg (by omega), if_neg (by omega)]
  exact ⟨fun i hi => by rw [hi], fun hnone => by rw [hnone]⟩

theorem freeSpare_free {n i : Nat} {g : LaneGrp} (h : freeSpare n g = some i) : i < n ∧ (∀ e ∈ g.sp, e.1 ≠ i) ∧ i ∉ g.badSp := by
  have hmem := List.mem_of_find?_eq_some h
  have hfree := List.find?_some h
  simp only [Bool.and_eq_true, Bool.not_eq_true', List.any_eq_false, beq_iff_eq, List.contains_eq_mem,
    decide_eq_false_iff_not] at hfree
  exact ⟨List.mem_range.1 hmem, hfree⟩

/-! ## Retraining of columns -/

theorem columnRetrain_none {col : Nat} {s : State} (h : (colget s col).state ≠ 2) :
    columnRetrain col [] [] s = colupd col (fun u => { u with retraining := u.state != 2 }) s := by
  have hfilter (l : NatSet) : l.filter (fun _ => true) = l := List.filter_eq_self.2 fun _ _ => rfl
  rw [columnRetrain, if_neg h]
  simp [hfilter]

theorem onlyCol_colupd (col : Nat) (f : ColSt → ColSt) (s : State) : onlyCol col s (colupd col f s) :=
  ⟨fun _ hj => colget_colupd_other _ _ hj, rfl⟩

theorem nsHas_foldl_nsAdd (l : List Nat) (r : NatSet) (m : Nat) :
    nsHas (l.foldl nsAdd r) m = true ↔ m ∈ l ∨ nsHas r m = true := by
  induction l generalizing r with
  | nil => simp
  | cons a l ih =>
    rw [List.foldl_cons, ih, nsHas_nsAdd, List.mem_cons]
    simp only [Bool.or_eq_true, beq_iff_eq]
    tauto

theorem wBit_foldl_clear (ms : List Nat) (w : Word) (m : Nat) (hmem : m ∈ ms) (hlt : ∀ x ∈ ms, x < 8) :
    wBit (ms.foldl (fun w m => wPut w (16 + m) (16 + m) 0) w) (16 + m) = false := by
  have hclear (w : Word) (m : Nat) (h : m < 8) : wBit (wPut w (16 + m) (16 + m) 0) (16 + m) = false := by
    rw [wBit_wPut _ _ _ (by omega) (by omega), if_pos (by omega), Nat.zero_testBit]
  have hstay (l : List Nat) (hl : ∀ x ∈ l, x < 8) (w : Word) (hw : wBit w (16 + m) = false) :
      wBit (l.foldl (fun w m => wPut w (16 + m) (16 + m) 0) w) (16 + m) = false := by
    refine List.foldlRecOn l _ (motive := fun w => wBit w (16 + m) = false) hw fun v hv a ha => ?_
    have := hl a ha
    rw [wBit_wPut _ _ _ (by omega) (by omega), Nat.zero_testBit, hv]
    exact ite_self _
  induction ms generalizing w with
  | nil => exact absurd hmem List.not_mem_nil
  | cons a l ih =>
    rw [List.foldl_cons]
    rcases List.mem_cons.1 hmem with rfl | hmem
    · exact hstay l (fun x hx => hlt x (List.mem_cons_of_mem _ hx)) _ (hclear w m (hlt m (List.mem_cons_self ..)))
    · exact ih _ hmem fun x hx => hlt x (List.mem_cons_of_mem _ hx)

/-- A column that retrains its failed lanes and some layers. -/
def colRetrains (ls : List (Nat × Nat)) (ms : List Nat) (u : ColSt) : ColSt :=
  { u with
    suspect := u.suspect.filter (fun g => !ls.any (fun e => e.1 == g)), retraining := u.state != 2
    phaseOut := if u.state = 2 then u.phaseOut else ms.foldl nsAdd u.phaseOut }

theorem columnRetrain_layers {col : Nat} {layers : List Nat} {s : State} (h : (colget s col).state ≠ 2) (m : Nat) (hm : m ∈ layers)
    (hlt : m < 8) : wBit (rget (columnRetrain col [] layers s) (towerBase (col / 544) + 0x20)) (16 + m) = false ∧
      nsHas (colget (columnRetrain col [] layers s) col).phaseOut m = true := by
  have hmem : m ∈ layers.filter (fun m => m < 8) := List.mem_filter.2 ⟨hm, by simpa using hlt⟩
  have hsmall : ∀ x ∈ layers.filter (fun m => m < 8), x < 8 := fun x hx => by simpa using (List.mem_filter.1 hx).2
  have heq : columnRetrain col [] layers s = layersOut (col / 544) (layers.filter (fun m => m < 8))
      (colupd col (colRetrains [] (layers.filter (fun m => m < 8))) s) := by
    rw [columnRetrain, if_neg h]
    exact if_neg (by rw [List.isEmpty_iff]; exact List.ne_nil_of_mem hmem)
  rw [heq, layersOut, rget_rupd_same, colget_rupd, colget_colupd_same]
  refine ⟨wBit_foldl_clear _ _ m hmem hsmall, ?_⟩
  rw [colRetrains, if_neg h, nsHas_foldl_nsAdd]
  exact .inl hmem

/-- A column that retrains after a lane of group `g` has failed. -/
theorem columnRetrain_lane {col g lane : Nat} {s : State} (hg : g < 134) (hl : lane < 68) (hstate : (colget s col).state = 0)
    (hspare : (failLane 2 lane (bondGrp s (col * 134 + g))).2 = none) :
    bondGrp (columnRetrain col [(g, lane)] [] s) (col * 134 + g) = (failLane 2 lane (bondGrp s (col * 134 + g))).1 ∧
    (colget (columnRetrain col [(g, lane)] [] s) col).state = 0 ∧
    (colget (columnRetrain col [(g, lane)] [] s) col).retraining = true := by
  obtain ⟨v, hv⟩ : ∃ v : State, v = suspectErr col g lane
      (setBond (col * 134 + g) (failLane 2 lane (bondGrp s (col * 134 + g))).1 s) := ⟨_, rfl⟩
  have hspared : spareLane col g lane s = v := by
    rw [spareLane, hspare, hv]
    rfl
  have heq : columnRetrain col [(g, lane)] [] s = colupd col (colRetrains [(g, lane)] []) v := by
    rw [columnRetrain, if_neg (by omega), ← hspared, List.filter_cons_of_pos (by simp [hg, hl]), List.filter_nil]
    rfl
  have hcol : (colget v col).state = 0 := by
    rw [hv, colMarks_suspectErr (π := ColSt.state) (fun _ _ => rfl) (colMarks_refl _) col g lane col]
    exact hstate
  have hbond : v.boot = (setBond (col * 134 + g) (failLane 2 lane (bondGrp s (col * 134 + g))).1 s).boot := by
    rw [hv]
    exact (only_suspectErr (φ := F.logs) rfl (Only.refl _ _) _ _ _).boot rfl
  have hboot : (colupd col (colRetrains [(g, lane)] []) v).boot = v.boot := rfl
  rw [heq, colget_colupd_same, bondGrp, hboot, hbond, colRetrains, hcol]
  exact ⟨stGet_stSet_same _ _ _ _, rfl, rfl⟩

/-- A field that lies outside a word has no place in it. -/
theorem wBit_wPut_any (w : Word) (v : Nat) {hi lo i : Nat} (hlo : lo ≤ hi) (hi32 : i < 32) :
    wBit (wPut w hi lo v) i = if lo ≤ i ∧ i ≤ hi then v.testBit (i - lo) else wBit w i := by
  rw [wBit_eq_testBit, wBit_eq_testBit, wPut, BitVec.toNat_ofNat, Nat.testBit_mod_two_pow, decide_eq_true hi32, Bool.true_and,
    testBit_putFld _ _ _ hlo]

/-- Layer `m` of column `col` has its phase again. -/
def layerBack (col m : Nat) (s : State) : State :=
  let n := col / 544
  let (v, s) := takeFree s
  rupd (towerBase n + 0x20) (fun w => wPut w (16 + m) (16 + m) 1)
    { s with pwr := { s.pwr with phase := stSet (fun _ => 0) s.pwr.phase (8 * n + m) (v % 64) } }

/-- Whether another column of the tower still trains layer `m`. -/
def layerBusy (col : Nat) (s : State) (m : Nat) : Bool :=
  (List.range 544).any (fun i => 544 * (col / 544) + i != col && nsHas (colget s (544 * (col / 544) + i)).phaseOut m)

theorem layersBack_eq (col : Nat) (s : State) : layersBack col s = colupd col (fun u => { u with phaseOut := [] })
    (((colget s col).phaseOut.filter (fun m => !layerBusy col s m)).foldl (fun s m => layerBack col m s) s) := rfl

theorem layerBack_rest (col m : Nat) (s : State) : (layerBack col m s).cols = s.cols ∧
    ∀ i, i < 32 → wBit (rget (layerBack col m s) (towerBase (col / 544) + 0x20)) i =
      (decide (i = 16 + m) || wBit (rget s (towerBase (col / 544) + 0x20)) i) := by
  have hrest := only_takeFree (φ := F.fresh) rfl (Only.refl _ s)
  refine ⟨?_, fun i hi => ?_⟩
  · rw [layerBack, rupd_cols]
    exact hrest.cols rfl
  · have hreg (w : PwrSt) : rget { (takeFree s).2 with pwr := w } (towerBase (col / 544) + 0x20) =
        rget s (towerBase (col / 544) + 0x20) := by
      rw [rget, rget, ← hrest.regs rfl]
    rw [layerBack]
    dsimp only
    rw [rget_rupd_same, hreg, wBit_wPut_any _ _ (Nat.le_refl _) hi]
    by_cases h : i = 16 + m
    · rw [if_pos (by omega), h, Nat.sub_self, decide_eq_true rfl]
      rfl
    · rw [if_neg (by omega), decide_eq_false h, Bool.false_or]

theorem layersFold_cols (col : Nat) (l : List Nat) (s : State) : (l.foldl (fun s m => layerBack col m s) s).cols = s.cols :=
  List.foldlRecOn l _ (motive := fun t : State => t.cols = s.cols) rfl fun v hv a _ => by
    obtain ⟨hcols, _⟩ := layerBack_rest col a v
    rw [hcols, hv]

theorem layersFold_bit (col m : Nat) (l : List Nat) (s : State) (hmem : m ∈ l) (hm : m < 8) :
    wBit (rget (l.foldl (fun s m => layerBack col m s) s) (towerBase (col / 544) + 0x20)) (16 + m) = true := by
  have hbit (a : Nat) (v : State) : wBit (rget (layerBack col a v) (towerBase (col / 544) + 0x20)) (16 + m) =
      (decide (16 + m = 16 + a) || wBit (rget v (towerBase (col / 544) + 0x20)) (16 + m)) := by
    obtain ⟨_, hreg⟩ := layerBack_rest col a v
    exact hreg _ (by omega)
  induction l generalizing s with
  | nil => exact absurd hmem List.not_mem_nil
  | cons a l ih =>
    rw [List.foldl_cons]
    by_cases h : m = a
    · refine List.foldlRecOn l _ (motive := fun t => wBit (rget t (towerBase (col / 544) + 0x20)) (16 + m) = true) ?_
        fun v hv b _ => ?_
      · rw [hbit, decide_eq_true (by omega), Bool.true_or]
      · rw [hbit, hv, Bool.or_true]
    · exact ih _ ((List.mem_cons.1 hmem).resolve_left h)

theorem columnRetrainDone_clean (col : Fin 8704) {s : State} (h : (colget s col).retraining = true) :
    ∃ t, exec (.columnRetrainDone col []) s = .next t ∧
      colget t col = { colget s col with retraining := false, phaseOut := [] } ∧
      ((colget s col).phaseOut = [] → onlyCol col s t) ∧
      (∀ m, m < 8 → m ∈ (colget s col).phaseOut →
        (∀ k, k / 544 = col.val / 544 → k ≠ col.val → m ∉ (colget s k).phaseOut) →
        wBit (rget t (towerBase (col.val / 544) + 0x20)) (16 + m) = true) := by
  obtain ⟨u, hu⟩ : ∃ u, u = colupd col (fun u => { u with retraining := !(([] : List (Nat × Nat)).filter
    (fun e => e.1 < 134 && e.2 < 68)).isEmpty }) s := ⟨_, rfl⟩
  have hown : colget u col = { colget s col with retraining := false } := by
    rw [hu, colget_colupd_same]
    rfl
  have hexec : exec (.columnRetrainDone col []) s =
      .next (if !(colget u col).phaseOut.isEmpty then layersBack col u else u) := by
    rw [exec, execColumnRetrainDone, if_neg (by simp [h]), hu]
    rfl
  rw [hexec, hown]
  by_cases hempty : (colget s col).phaseOut = []
  · refine ⟨u, congrArg Host.Outcome.next (if_neg (by simp [hempty])), ?_, fun _ => ?_, fun m _ hm => ?_⟩
    · rw [hown, ← hempty]
    · rw [hu]
      exact onlyCol_colupd _ _ _
    · rw [hempty] at hm
      exact absurd hm List.not_mem_nil
  · refine ⟨layersBack col u, congrArg Host.Outcome.next (if_pos (by simp [hempty])), ?_, fun h => absurd h hempty,
      fun m hm hmem hfree => ?_⟩
    · rw [layersBack_eq, colget_colupd_same, colget, layersFold_cols, ← colget, hown]
    · rw [layersBack_eq, colupd, rget_colset]
      refine layersFold_bit _ _ _ _ (List.mem_filter.2 ⟨by rw [hown]; exact hmem, ?_⟩) hm
      rw [Bool.not_eq_true', layerBusy, List.any_eq_false]
      intro i hi
      rw [List.mem_range] at hi
      by_cases hk : 544 * (col.val / 544) + i = col.val
      · simp [hk]
      · have hother : colget u (544 * (col.val / 544) + i) = colget s (544 * (col.val / 544) + i) := by
          rw [hu, colget_colupd_other _ _ hk]
        have hnot := hfree _ (by omega) hk
        rw [hother]
        simp [nsHas, hnot]

theorem columnRetrainDone_lane (col : Fin 8704) {g lane : Nat} {s : State} (h : (colget s col).retraining = true) (hg : g < 134)
    (hl : lane < 68) : ∃ t, exec (.columnRetrainDone col [(g, lane)]) s = .next t ∧
      ((failLane 2 lane (bondGrp s (col.val * 134 + g))).2 = none → (colget t col).retraining = true ∧
        (colget t col).state = (colget s col).state) ∧
      ((failLane 2 lane (bondGrp s (col.val * 134 + g))).2 ≠ none → (colget t col).state = 2) := by
  obtain ⟨f, hf⟩ : ∃ f : ColSt → ColSt, f = fun u => { u with retraining := !([(g, lane)] : List (Nat × Nat)).isEmpty } := ⟨_, rfl⟩
  obtain ⟨u, hu⟩ : ∃ u, u = setBond (col.val * 134 + g) (failLane 2 lane (bondGrp s (col.val * 134 + g))).1 (colupd col f s) :=
    ⟨_, rfl⟩
  have hown : colget u col = { colget s col with retraining := true } := by
    have hbond : colget u col = colget (colupd col f s) col := by
      rw [hu]
      rfl
    rw [hbond, colget_colupd_same, hf]
    rfl
  have hexec : exec (.columnRetrainDone col [(g, lane)]) s =
      .next (if (failLane 2 lane (bondGrp s (col.val * 134 + g))).2.isSome then retireCol col u else u) := by
    rw [exec, execColumnRetrainDone, if_neg (by simp [h]), List.filter_cons_of_pos (by simp [hg, hl]), List.filter_nil, hu, hf]
    rfl
  rw [hexec]
  refine ⟨_, rfl, fun hnone => ?_, fun hsome => ?_⟩
  · rw [hnone, if_neg (by decide), hown]
    exact ⟨rfl, rfl⟩
  · rw [if_pos (Option.isSome_iff_ne_none.2 hsome), retireCol_state]

/-! ## Bridges (R354, R355) -/

/-- Of what start-up has found, only the retired columns may differ. -/
def BootKept (s t : State) : Prop := { t.boot with retCol := s.boot.retCol } = s.boot

theorem bootKept_refl (s : State) : BootKept s s := rfl

theorem bootKept_trans {s t u : State} (h : BootKept s t) (k : BootKept t u) : BootKept s u := by
  rw [BootKept, ← h, ← k]

/-- What an operation that leaves start-up's findings may change. -/
def F.allButBoot : Nat := 0x7FEFFFFFFFFFFFF

theorem bootKept_only {s t u : State} (h : BootKept s t) (k : Only F.allButBoot t u) : BootKept s u :=
  bootKept_trans h (by rw [BootKept, k.boot rfl])

theorem bootKept_towerHold (n : Nat) (s : State) : BootKept s (towerHold n s) := by
  rw [BootKept, towerHold, rset_boot, rset_boot]
  rfl

theorem bootKept_loseTower (n : Nat) (s : State) : BootKept s (loseTower n s) := by
  rw [loseTower]
  split
  · exact bootKept_refl s
  · have hgone : Only F.allButBoot s ((towerParts (rupd (towerBase n + 0x20) (fun w => wPut w 7 7 1) s) n).foldl
        (fun s p => faultPart p s) ((towerParts (rupd (towerBase n + 0x20) (fun w => wPut w 7 7 1) s) n).foldl
          (fun s p => tdiError p s) (iter 272 (fun i s => breakBarriers (272 * n + i) s)
            (fenceRemote n (fenceTxs n { rupd (towerBase n + 0x20) (fun w => wPut w 7 7 1) s with
              lostTw := nsAdd (rupd (towerBase n + 0x20) (fun w => wPut w 7 7 1) s).lostTw n }))))) :=
      only_foldl (φ := F.allButBoot) (fun _ _ h1 => only_faultPart (φ := F.allButBoot) rfl h1 _)
        (only_foldl (φ := F.allButBoot) (fun _ _ h2 => only_tdiError (φ := F.allButBoot) rfl h2 _)
          (only_iter (φ := F.allButBoot) (fun _ _ h3 => only_breakBarriers (φ := F.allButBoot) rfl h3 _)
            (only_fenceRemote (φ := F.allButBoot) rfl (only_fenceTxs (φ := F.allButBoot) rfl
              (onlyset_lostTw (φ := F.allButBoot) rfl (only_rupd (φ := F.allButBoot) rfl (Only.refl _ _) _ _)) _) _)))
    have hheld := bootKept_trans (bootKept_only (bootKept_refl s) hgone) (bootKept_towerHold n _)
    exact bootKept_only hheld (only_lossRecords (φ := F.allButBoot) rfl
      (only_mapChange (φ := F.allButBoot) rfl (Only.refl _ _) _) _ _)

theorem bootKept_islandCheck (i : Nat) (s : State) : BootKept s (islandCheck i s) := by
  rw [islandCheck]
  refine List.foldlRecOn _ _ (motive := fun t => BootKept s t) (bootKept_refl s) fun v hv n _ => ?_
  split
  · exact bootKept_trans hv (bootKept_loseTower n v)
  · exact hv

theorem bridgeLiveRetrain_asks (d : Fin 88) (g : Fin 12) {s : State} (hup : edgeUp s (d.val / 2) = true)
    (hidle : nsHas s.boot.brgTrain d = false) (hdue : nsHas s.boot.brgDue d = false) :
    ∃ t, exec (.bridgeLiveRetrain d g) s = .next t ∧ nsHas t.boot.brgDue d = true ∧
      t.boot.brgTrain = s.boot.brgTrain ∧ t.boot.brgUp = s.boot.brgUp ∧ (∀ j, j < 4 → d.val / 2 < 40 →
        nsHas (duePort t) (4 * (d.val / 2) + j) = true) := by
  obtain ⟨u, hu⟩ : ∃ u, u = iter 3 (fun _ s => brgErr 0x0201 d g 0 s) s := ⟨_, rfl⟩
  have hboot : u.boot = s.boot := by
    rw [hu]
    exact (only_iter (φ := F.logs) (fun _ _ h => only_brgErr (φ := F.logs) rfl h _ _ _ _) (Only.refl _ _)).boot rfl
  have hnew : (askTrain d u).boot = { s.boot with brgDue := nsAdd s.boot.brgDue d } := by
    rw [askTrain, hboot]
  have hhas : nsHas (askTrain d u).boot.brgDue d = true := by
    rw [hnew, nsHas_nsAdd, beq_self_eq_true, Bool.true_or]
  have hexec : exec (.bridgeLiveRetrain d g) s = .next (askTrain d u) := by
    rw [exec, execBridgeLiveRetrain, if_neg (by simp [hup, hidle]), if_neg (by simp [hdue]), hu]
  refine ⟨_, hexec, hhas, by rw [hnew], by rw [hnew], fun j hj hd => ?_⟩
  have hedge : edgeDue (askTrain d u) (d.val / 2) = true := by
    rw [edgeDue]
    obtain h | h : 2 * (d.val / 2) = d.val ∨ 2 * (d.val / 2) + 1 = d.val := by omega
    · rw [h, hhas, Bool.true_or]
    · rw [h, hhas, Bool.or_true]
  rw [nsHas, List.contains_eq_mem, decide_eq_true_eq, duePort, List.mem_filter, List.mem_range]
  refine ⟨by omega, ?_⟩
  have hi : (4 * (d.val / 2) + j) / 4 = d.val / 2 := by omega
  rw [if_pos (by omega), hi]
  dsimp only
  rw [hedge]
  simp

theorem bridgeLiveRetrain_waits (d : Fin 88) (g : Fin 12) {s : State} (hup : edgeUp s (d.val / 2) = true)
    (hidle : nsHas s.boot.brgTrain d = false) (hdue : nsHas s.boot.brgDue d = true) :
    exec (.bridgeLiveRetrain d g) s = .next (startTrain d s) := by
  rw [exec, execBridgeLiveRetrain, if_neg (by simp [hup, hidle]), if_pos hdue]

theorem startTrain_trains {d : Nat} {s : State} (h : trainReady s d = true) : nsHas (startTrain d s).boot.brgTrain d = true ∧
    (startTrain d s).boot.brgUp = s.boot.brgUp := by
  rw [startTrain, if_neg (by simp [h])]
  have hkept := bootKept_islandCheck (d / 2) { s with boot := { s.boot with
    brgDue := nsDel s.boot.brgDue d, brgTrain := nsAdd s.boot.brgTrain d } }
  generalize islandCheck (d / 2) _ = t at hkept
  have htrain := congrArg BootSt.brgTrain hkept
  have hup := congrArg BootSt.brgUp hkept
  dsimp only at htrain hup
  rw [htrain, hup, nsHas_nsAdd, beq_self_eq_true, Bool.true_or]
  exact ⟨rfl, rfl⟩

theorem brgGroupDown_boot (d g : Nat) (s : State) :
    (brgGroupDown d g s).boot = { s.boot with brgUp := nsDel s.boot.brgUp (12 * d + g) } := by
  rw [brgGroupDown]
  exact (only_brgErr (φ := F.logs) rfl (Only.refl _ _) _ _ _ _).boot rfl

theorem groupsDown_boot (d : Nat) (l : List Nat) (s : State) : ∃ up, (l.foldl (fun s g => brgGroupDown d g s) s).boot =
    { s.boot with brgUp := up } ∧ ∀ k, nsHas up k = (nsHas s.boot.brgUp k && decide (∀ g ∈ l, k ≠ 12 * d + g)) := by
  induction l generalizing s with
  | nil => exact ⟨_, rfl, fun k => by simp⟩
  | cons g l ih =>
    obtain ⟨up, hboot, hhas⟩ := ih (brgGroupDown d g s)
    refine ⟨up, by rw [List.foldl_cons, hboot, brgGroupDown_boot], fun k => ?_⟩
    rw [hhas, brgGroupDown_boot, nsHas_nsDel]
    simp only [List.forall_mem_cons, Bool.decide_and]
    cases nsHas s.boot.brgUp k <;> by_cases hk : k = 12 * d + g <;> simp [hk]

theorem bridgeDone_down {d : Nat} (down : List Nat) (s : State) :
    nsHas (bridgeDone d [] down s).boot.brgTrain d = false ∧
      (∀ g, g < 12 → g ∈ down → nsHas (bridgeDone d [] down s).boot.brgUp (12 * d + g) = false) ∧
      (∀ k, (∀ g ∈ down, k ≠ 12 * d + g) → nsHas (bridgeDone d [] down s).boot.brgUp k = nsHas s.boot.brgUp k) := by
  obtain ⟨up, hboot, hhas⟩ := groupsDown_boot d (down.filter (fun g => g < 12)) s
  obtain ⟨u, hu⟩ : ∃ u, u = (down.filter (fun g => g < 12)).foldl (fun s g => brgGroupDown d g s) s := ⟨_, rfl⟩
  have heq : bridgeDone d [] down s = islandCheck (d / 2) { u with boot := { u.boot with brgTrain := nsDel u.boot.brgTrain d } } := by
    rw [hu]
    rfl
  have hkept := bootKept_islandCheck (d / 2) { u with boot := { u.boot with brgTrain := nsDel u.boot.brgTrain d } }
  rw [← heq] at hkept
  generalize bridgeDone d [] down s = t at hkept
  rw [← hu] at hboot
  have htrain := congrArg BootSt.brgTrain hkept
  have hup := congrArg BootSt.brgUp hkept
  dsimp only at htrain hup
  rw [htrain, hup, hboot, nsHas_nsDel]
  refine ⟨by simp, fun g hg hmem => ?_, fun k hk => ?_⟩
  · rw [hhas, decide_eq_false fun h => h g (List.mem_filter.2 ⟨hmem, by simpa using hg⟩) rfl, Bool.and_false]
  · have hall : ∀ g ∈ down.filter (fun g => g < 12), k ≠ 12 * d + g := fun g hg => hk g (List.mem_of_mem_filter hg)
    rw [hhas, decide_eq_true hall, Bool.and_true]

end Sys2Proof.Machine

open Sys2Proof.Machine

/-- Settles O58: spare lanes, then columns (their state stands through every error record), then bridges (start-up's findings stand
through the loss of a tower). -/
theorem repairInService : Obligations.RepairInService := by
  unfold Obligations.RepairInService
  refine ⟨fun n lane g hlane hsp => failLane_first hlane hsp, fun n i g h => freeSpare_free h, fun col e s => ?_,
    fun col s h => ?_, fun col layers s h m hm hlt => columnRetrain_layers h m hm hlt,
    fun col g lane s hg hl hstate hspare => columnRetrain_lane hg hl hstate hspare, fun col s h => columnRetrainDone_clean col h,
    fun col g lane s h hg hl => columnRetrainDone_lane col h hg hl, fun d g s hup hidle => ⟨fun hdue => ?_, fun hdue hready => ?_,
    fun hready => ?_⟩, fun d down s h => ?_⟩
  · rw [exec, execColumnRetrain]
  · rw [columnRetrain_none h, colget_colupd_same]
    exact ⟨by simp [h], onlyCol_colupd _ _ _⟩
  · exact bridgeLiveRetrain_asks d g hup hidle hdue
  · rw [bridgeLiveRetrain_waits d g hup hidle hdue, startTrain, if_pos (by simp [hready])]
  · have hdue : nsHas s.boot.brgDue d = true := by
      rw [trainReady, Bool.and_eq_true, Bool.and_eq_true] at hready
      obtain ⟨⟨hdue, _⟩, _⟩ := hready
      exact hdue
    exact ⟨_, bridgeLiveRetrain_waits d g hup hidle hdue, startTrain_trains hready⟩
  · exact ⟨_, by rw [exec, execBridgeRetrainDone, if_pos h], bridgeDone_down down s⟩
end

section
/-! Sensors, predictions, the kiln-sitter, canaries and cooling. -/

namespace Sys2Proof.Machine

/-! ## What records leave of the thermal block -/

theorem therm_of_onlyLogs {s t : State} (h : onlyLogs s t) : t.therm = s.therm := by
  obtain ⟨_, hrest⟩ := h
  exact (congrArg State.therm hrest :)

theorem refRate_of_onlyLogs {s t : State} (h : onlyLogs s t) : t.refRate = s.refRate := by
  obtain ⟨_, hrest⟩ := h
  exact (congrArg State.refRate hrest :)

theorem thermReg_of_onlyLogs {s t : State} (h : onlyLogs s t) {o : Nat} (ho : o < 0x1000) :
    rget t (thmBase + o) = rget s (thmBase + o) := by
  obtain ⟨hregs, _⟩ := h
  exact hregs _ (.inr (by simp only [thmBase]; omega))

theorem onlyLogs_coolRecord (ty : Nat) (s : State) : onlyLogs s (coolRecord ty s) := onlyLogs_telEmit _ _

theorem onlyLogs_flowRecord (ty : Nat) (s : State) : onlyLogs s (flowRecord ty s) := onlyLogs_telEmit _ _

theorem coolWarn_effect (s : State) : (coolWarn s).therm = { s.therm with warn := true } ∧
    wBit (rget (coolWarn s) (thmBase + 0x1C0)) 0 = true := by
  have hlogs := onlyLogs_coolRecord 2 (rupd (thmBase + 0x1C0) (fun w => wPut w 0 0 1) { s with therm := { s.therm with warn := true } })
  rw [coolWarn, therm_of_onlyLogs hlogs, thermReg_of_onlyLogs hlogs (by decide), rupd_therm, rget_rupd_same,
    wBit_wPut _ _ _ (by decide) (by decide)]
  exact ⟨rfl, rfl⟩

/-! ## The kiln-sitter (R383, R384) -/

theorem deviceReset_thermal (s : State) : (deviceReset s).boot.recs = s.boot.recs ∧ (deviceReset s).therm.kilnNv = s.therm.kilnNv ∧
    (deviceReset s).pwr.kiln = s.pwr.kiln := by
  rw [deviceReset]
  generalize wFld (rget s 0x48) 30 30 = b
  rw [rupd_boot, rupd_therm, rupd_pwr]
  exact ⟨rfl, rfl, rfl⟩

theorem railsOff_effect (s : State) : (railsOff s).boot.recs = s.boot.recs ∧ (railsOff s).therm.kilnNv = s.therm.kilnNv ∧
    (railsOff s).pwr.kiln = s.pwr.kiln ∧ (railsOff s).pwr.rails = [] ∧ (railsOff s).faultN = true := by
  obtain ⟨hrecs, hnv, hkiln⟩ := deviceReset_thermal s
  rw [railsOff]
  generalize deviceReset s = u at hrecs hnv hkiln
  exact ⟨hrecs, hnv, hkiln, rfl, rfl⟩

/-- What THM_KILN_LAST keeps of a trip. -/
def kilnWord (n : Nat) (layer : Bool) (src : Nat) (temp : Int) : Word :=
  BitVec.ofNat 32 (2 ^ 31 + b2n layer * 2 ^ 30 + n * 2 ^ 26 + (if layer then src / 4 else src) * 2 ^ 22 + tempBits temp * 2 ^ 11)

theorem kilnWord_fields {n src : Nat} (layer : Bool) (temp : Int) (hn : n < 16) (hsrc : src < 32) (hlogic : layer = false → src < 16) :
    wBit (kilnWord n layer src temp) 31 = true ∧ wBit (kilnWord n layer src temp) 30 = layer ∧
      wFld (kilnWord n layer src temp) 29 26 = n := by
  have htemp : tempBits temp < 2 ^ 11 := by
    rw [tempBits, unsignedOf]
    omega
  have hdiode : (if layer then src / 4 else src) < 16 := by
    cases layer with
    | true => rw [if_pos rfl]; omega
    | false => rw [if_neg (by decide)]; exact hlogic rfl
  rw [kilnWord]
  generalize (if layer then src / 4 else src) = d at hdiode
  have hb : b2n layer < 2 := by cases layer <;> decide
  have hlt : 2 ^ 31 + b2n layer * 2 ^ 30 + n * 2 ^ 26 + d * 2 ^ 22 + tempBits temp * 2 ^ 11 < 2 ^ 32 := by omega
  rw [wFld_ofNat _ (by decide) (by decide), wBit_eq_testBit, wBit_eq_testBit, BitVec.toNat_ofNat, Nat.mod_eq_of_lt hlt,
    Nat.testBit_eq_decide_div_mod_eq, Nat.testBit_eq_decide_div_mod_eq, fld_eq_div_mod, decide_eq_true_eq]
  refine ⟨by omega, ?_, by omega⟩
  have hbit : (2 ^ 31 + b2n layer * 2 ^ 30 + n * 2 ^ 26 + d * 2 ^ 22 + tempBits temp * 2 ^ 11) / 2 ^ 30 % 2 = b2n layer := by omega
  rw [hbit]
  cases layer <;> rfl

theorem recOf_tripped {l : Store TestRec} (u : Nat) (h : (stGet (fun _ => TestRec.none) l u).made = true) :
    (stGet (fun _ => TestRec.none) (l.map (fun e => (e.1, { e.2 with tripped := true }))) u).tripped = true := by
  induction l with
  | nil => exact absurd h Bool.false_ne_true
  | cons e r ih =>
    obtain ⟨k, x⟩ := e
    rw [stGet] at h
    rw [List.map_cons, stGet]
    by_cases hk : k = u
    · rw [if_pos hk]
    · rw [if_neg hk] at h ⊢
      exact ih h

theorem kilnTrip_effect {n src : Nat} (layer : Bool) (temp : Int) (s : State) (hn : n < 16) (hsrc : src < 32)
    (hlogic : layer = false → src < 16) : let t := kilnTrip n layer src temp s
    t.pwr.kiln = true ∧ t.pwr.rails = [] ∧ t.faultN = true ∧ wBit t.therm.kilnNv 31 = true ∧ wBit t.therm.kilnNv 30 = layer ∧
      wFld t.therm.kilnNv 29 26 = n ∧ (∀ u, (recOf s u).made = true → (recOf t u).tripped = true) := by
  obtain ⟨u, hu⟩ : ∃ u : State, u = coneStore { s with
      boot := { s.boot with recs := s.boot.recs.map (fun e => (e.1, { e.2 with tripped := true })) }
      therm := { s.therm with kilnNv := kilnWord n layer src temp }
      pwr := { s.pwr with kiln := true } } := ⟨_, rfl⟩
  have heq : kilnTrip n layer src temp s = railsOff u := by
    rw [hu]
    rfl
  obtain ⟨hrecs, hnv, hkiln, hrails, hfault⟩ := railsOff_effect u
  obtain ⟨h31, h30, h29⟩ := kilnWord_fields layer temp hn hsrc hlogic
  have hunv : u.therm.kilnNv = kilnWord n layer src temp := by
    rw [hu]
    rfl
  have hukiln : u.pwr.kiln = true := by
    rw [hu]
    rfl
  have hurecs : u.boot.recs = s.boot.recs.map (fun e => (e.1, { e.2 with tripped := true })) := by
    rw [hu]
    rfl
  dsimp only
  rw [heq, hnv, hunv]
  refine ⟨hkiln.trans hukiln, hrails, hfault, h31, h30, h29, fun x hx => ?_⟩
  rw [recOf, hrecs, hurecs]
  exact recOf_tripped x hx

theorem kilnSitter_trips {n : Fin 16} {layer : Bool} {src : Fin 32} {temp : Int} {s : State} (hvaux : s.pwr.vaux = true)
    (hkiln : s.pwr.kiln = false) (hlayer : layer = true → 420 ≤ temp)
    (hlogic : layer = false → 460 ≤ temp ∧ src.val < 16 ∧ nsHas s.therm.cut (chHot n src) = false) :
    exec (.kilnSitterTrip n layer src temp) s = .next (kilnTrip n layer src temp s) := by
  rw [exec, execKilnSitterTrip]
  refine congrArg Host.Outcome.next (if_pos ?_)
  cases layer with
  | true => simp [hvaux, hkiln, hlayer rfl]
  | false =>
    obtain ⟨htemp, hsrc, hcut⟩ := hlogic rfl
    simp [hvaux, hkiln, htemp, hsrc, hcut]

theorem kilnLastClear_clears {w : Word} (s : State) (h : wBit w 31 = true) : ∃ t, exec (.kilnLastClear w) s = .next t ∧
    oneReg (thmBase + 0x1C4) 0 s t ∧ t.therm.kilnNv = 0 := by
  refine ⟨rset (thmBase + 0x1C4) 0 { s with therm := { s.therm with kilnNv := 0 } },
    by rw [exec, execKilnLastClear, writeKilnLast, if_pos h], ⟨rget_rset_same _ _ _, fun a ha => rget_rset_other _ _ ha⟩, ?_⟩
  rw [rset_therm]

/-! ## Canaries (R385) -/

theorem twTh_twThSet_same (n : Nat) (v : TwrTh) (s : State) : twTh (twThSet n v s) n = v := stGet_stSet_same _ _ _ _

theorem twTh_twThSet_other {n k : Nat} (v : TwrTh) (s : State) (h : k ≠ n) : twTh (twThSet n v s) k = twTh s k :=
  stGet_stSet_other _ _ _ h

theorem layTh_layThSet_same (n m : Nat) (v : LayerTh) (s : State) : layTh (layThSet n m v s) n m = v := stGet_stSet_same _ _ _ _

theorem layTh_layThSet_other {n m i j : Nat} (v : LayerTh) (s : State) (h : 8 * i + j ≠ 8 * n + m) :
    layTh (layThSet n m v s) i j = layTh s i j := stGet_stSet_other _ _ _ h

theorem layTh_of_therm {s t : State} (h : t.therm = s.therm) (n m : Nat) : layTh t n m = layTh s n m := by rw [layTh, layTh, h]

theorem twTh_of_therm {s t : State} (h : t.therm = s.therm) (n : Nat) : twTh t n = twTh s n := by rw [twTh, twTh, h]

/-- A layer that becomes suspect: its own record and its tower's refresh rate. -/
theorem suspectLayer_effect (n m bit : Nat) (hot : Bool) (s : State) :
    layTh (suspectLayer n m bit hot s) n m = { layTh s n m with suspect := true, hot := (layTh s n m).hot || hot, meas := 380, dis := 0 } ∧
    (∀ i j, 8 * i + j ≠ 8 * n + m → layTh (suspectLayer n m bit hot s) i j = layTh s i j) ∧
    (suspectLayer n m bit hot s).refRate = stSet (fun _ => 0) s.refRate n 2 := by
  obtain ⟨u, hu⟩ : ∃ u, u = layThSet n m { layTh s n m with
    suspect := true, hot := (layTh s n m).hot || hot, meas := 380, dis := 0 } s := ⟨_, rfl⟩
  have hlogs := onlyLogs_logErr { hub := homeHub n, code := 0x0402, part := none, source := srcTower n, engine := 19, logical := 0
                                  addr := 0, detail := m }
    (rupd (thmBase + 0x1C0) (fun w => wPut w bit bit 1) { u with refRate := stSet (fun _ => 0) u.refRate n 2 })
  have htherm := therm_of_onlyLogs hlogs
  have hrate := refRate_of_onlyLogs hlogs
  rw [rupd_therm] at htherm
  rw [rupd_refRate] at hrate
  have heq : suspectLayer n m bit hot s = logErr { hub := homeHub n, code := 0x0402, part := none, source := srcTower n, engine := 19
                                                   logical := 0, addr := 0, detail := m }
    (rupd (thmBase + 0x1C0) (fun w => wPut w bit bit 1) { u with refRate := stSet (fun _ => 0) u.refRate n 2 }) := by
    rw [hu]
    rfl
  rw [heq, hrate, layTh_of_therm htherm]
  refine ⟨?_, fun i j hne => ?_, ?_⟩
  · rw [hu]
    exact layTh_layThSet_same _ _ _ _
  · rw [layTh_of_therm htherm, hu]
    exact layTh_layThSet_other _ _ hne
  · rw [hu]
    rfl

/-- A layer whose canary differs, where it read below 95 °C: suspect and hot. -/
def layerFailed (s : State) (n m : Nat) : Prop := (layTh s n m).suspect = true ∧ (layTh s n m).hot = true

theorem canaryLayers_fail (n : Nat) (p : Nat → Bool) (k : Nat) (hk : k ≤ 8) (s : State) :
    let t := iter k (fun m s => if p m then canaryLayer n m s else s) s
    (∀ m, m < k → p m = true → (layTh s n m).meas < 380 →
      layerFailed t n m ∧ stGet (fun _ => 0) t.refRate n = 2) ∧
    (∀ m, k ≤ m → m < 8 → layTh t n m = layTh s n m) := by
  induction k with
  | zero => exact ⟨nofun, fun _ _ _ => rfl⟩
  | succ k ih =>
    obtain ⟨hdone, hrest⟩ := ih (by omega)
    dsimp only
    rw [iter_succ]
    generalize iter k (fun m s => if p m then canaryLayer n m s else s) s = u at hdone hrest
    obtain ⟨hown, hother, hrate⟩ := suspectLayer_effect n k 4 true u
    have hkeep := hrest k (Nat.le_refl _) (by omega)
    by_cases hrun : p k = true ∧ (layTh u n k).meas < 380
    · rw [if_pos hrun.1, canaryLayer, if_pos hrun.2]
      have hset : stGet (fun _ => 0) (suspectLayer n k 4 true u).refRate n = 2 := by rw [hrate, stGet_stSet_same]
      refine ⟨fun m hm hp hcold => ⟨?_, hset⟩, fun m hm hm8 => ?_⟩
      · by_cases hmk : m = k
        · rw [layerFailed, hmk, hown]
          exact ⟨rfl, by simp⟩
        · obtain ⟨hfail, _⟩ := hdone m (by omega) hp hcold
          rw [layerFailed, hother _ _ (by omega)]
          exact hfail
      · rw [hother _ _ (by omega), hrest m (by omega) hm8]
    · have hsame : (if p k then canaryLayer n k u else u) = u := by
        split
        · rename_i hp
          rw [canaryLayer, if_neg fun hcold => hrun ⟨hp, hcold⟩]
        · rfl
      rw [hsame]
      refine ⟨fun m hm hp hcold => ?_, fun m hm hm8 => hrest m (by omega) hm8⟩
      by_cases hmk : m = k
      · exact absurd ⟨hmk ▸ hp, by rw [hkeep, ← hmk]; exact hcold⟩ hrun
      · exact hdone m (by omega) hp hcold

theorem canaryCheck_fails (col : Fin 8704) (fail : BitVec 8) {s : State} (hstage : 7 ≤ s.stage)
    (hret : (colget s col).retraining = false) (hstate : (colget s col).state ≠ 2) (hon : dieOn s (col.val / 544) = true) :
    ∃ t, exec (.canaryCheck col fail) s = .next t ∧ (fail = 0 → t.regs = s.regs ∧ t.refRate = s.refRate) ∧
      (∀ m, m < 8 → fail.getLsbD m = true → (layTh s (col.val / 544) m).meas < 380 →
        (layTh t (col.val / 544) m).suspect = true ∧ (layTh t (col.val / 544) m).hot = true ∧
        stGet (fun _ => 0) t.refRate (col.val / 544) = 2) := by
  have hunfold : exec (.canaryCheck col fail) s = execCanaryCheck col fail s := by rw [exec]
  have hpass : ¬ ((s.stage < 7 && !s.booted) || (colget s col).retraining || (colget s col).state = 2 ||
      !dieOn s (col.val / 544)) = true := by simp [hret, hstate, hon]; omega
  rw [hunfold, execCanaryCheck]
  by_cases hfail : fail = 0
  · refine ⟨_, (if_neg hpass).trans (if_pos hfail), fun _ => ?_, fun m _ hm => ?_⟩
    · split
      · exact ⟨rfl, rfl⟩
      · exact ⟨rfl, rfl⟩
    · rw [hfail] at hm
      simp at hm
  · refine ⟨_, (if_neg hpass).trans (if_neg hfail), fun h => absurd h hfail, fun m hm hbit hcold => ?_⟩
    obtain ⟨hdone, _⟩ := canaryLayers_fail (col.val / 544) (fun m => fail.getLsbD m) 8 (Nat.le_refl _) (canaryFail (col.val / 544) s)
    obtain ⟨⟨hsus, hhot⟩, hrate⟩ := hdone m hm hbit hcold
    exact ⟨hsus, hhot, hrate⟩

/-! ## Cooling -/

theorem edgeFreq_gate {ages : List Nat} (h : 3 ≤ (ages.filter (fun a => a ≤ 50000000)).length) :
    edgeFreq ages = 200 * (ages.filter (fun a => a ≤ 50000000)).length := by
  have hlen := List.length_filter_le (fun a => decide (a ≤ 50000000)) ages
  match ages with
  | [] => simp at h
  | [a] =>
    rw [List.length_singleton] at hlen
    omega
  | a :: b :: l => exact if_pos h

theorem rthWindow_ends (n : Fin 16) {s : State} (hdie : dieOn s n = true) (hon : limitOn s = true) :
    ∃ t, exec (.rthWindow n) s = .next t ∧ (twTh t n).rCnt = 0 ∧ (twTh t n).rSum = 0 ∧
      (twTh t n).rEst = (if 0 < (twTh s n).rCnt ∧ 1000 ≤ (twTh s n).pMin ∧
          10 * ((twTh s n).pMax - (twTh s n).pMin) < (twTh s n).pMax
        then max 1 ((twTh s n).rSum / (((twTh s n).rCnt : Nat) : Int)).toNat else (twTh s n).rEst) := by
  have hwindow : twTh (windowEnd n s) n = { twTh s n with
      rEst := if (decide (0 < (twTh s n).rCnt) && decide (1000 ≤ (twTh s n).pMin) &&
          decide (10 * ((twTh s n).pMax - (twTh s n).pMin) < (twTh s n).pMax)) = true
        then max 1 ((twTh s n).rSum / (((twTh s n).rCnt : Nat) : Int)).toNat else (twTh s n).rEst
      rSum := 0, rCnt := 0, pMin := 0, pMax := 0 } := by
    have hreg (c : Bool) (o : Nat) (f : Word → Word) (u : State) : twTh (if c then rupd o f u else u) n = twTh u n := by
      cases c with
      | true => exact twTh_of_therm (rupd_therm _ _ _) _
      | false => rfl
    rw [windowEnd]
    exact (hreg _ _ _ _).trans (twTh_twThSet_same _ _ _)
  have hunfold : exec (.rthWindow n) s = execRthWindow n s := by rw [exec]
  obtain ⟨hwarn, _⟩ := coolWarn_effect (windowEnd n s)
  have hkeep (c : Bool) : twTh (if c then coolWarn (windowEnd n s) else windowEnd n s) n = twTh (windowEnd n s) n := by
    cases c with
    | true => rw [if_pos rfl, twTh, hwarn, twTh]
    | false => rfl
  rw [hunfold, execRthWindow]
  refine ⟨_, if_neg (by simp [hdie, hon]), ?_⟩
  rw [hkeep, hwindow]
  simp only [Bool.and_eq_true, decide_eq_true_eq, and_assoc, true_and]

theorem coolWarn_repeats {s : State} (h : s.therm.warn = true) :
    ((∃ n, n < 16 ∧ ratioAtLeast s 110 n = true) → ∃ t, exec .coolWarnRepeat s = .next t ∧ t.therm.warn = true ∧
      wBit (rget t (thmBase + 0x1C0)) 0 = true) ∧
    ((∀ n, n < 16 → ratioAtLeast s 110 n = false) → ∃ t, exec .coolWarnClear s = .next t ∧ t.therm.warn = false) := by
  refine ⟨fun ⟨n, hn, hr⟩ => ?_, fun hall => ?_⟩
  · obtain ⟨htherm, hbit⟩ := coolWarn_effect s
    have hany : (List.range 16).any (ratioAtLeast s 110) = true := List.any_eq_true.2 ⟨n, List.mem_range.2 hn, hr⟩
    exact ⟨_, by rw [exec, execCoolWarnRepeat, if_pos (by rw [h, hany]; rfl)], by rw [htherm], hbit⟩
  · have hany : (List.range 16).any (ratioAtLeast s 110) = false :=
      List.any_eq_false.2 fun n hn => ne_true_of_eq_false (hall n (List.mem_range.1 hn))
    refine ⟨_, by rw [exec, execCoolWarnClear, if_pos (by rw [h, hany]; rfl)], ?_⟩
    rw [therm_of_onlyLogs (onlyLogs_coolRecord _ _)]

theorem min_flow_lt (f : Nat) : min f 65535 % 2 ^ 16 = min f 65535 := Nat.mod_eq_of_lt (by omega)

/-- THM_FLOW with a new frequency and the mark of a lost flow. -/
theorem flowWord_fields (w : Word) (f : Nat) (lost : Bool) :
    wBit (wPut (wPut w 15 0 (min f 65535)) 31 31 (b2n lost)) 31 = lost ∧
      wFld (wPut (wPut w 15 0 (min f 65535)) 31 31 (b2n lost)) 15 0 = min f 65535 := by
  rw [wBit_wPut _ _ _ (by decide) (by decide), wFld_wPut_disjoint _ _ (by decide) (by decide) (by decide),
    wFld_wPut_same _ _ (by decide) (by decide)]
  refine ⟨?_, min_flow_lt f⟩
  cases lost <;> rfl

theorem flowLost_enters (freq : List Nat) (noEdge : Bool) {s : State} (hon : limitOn s = true) (hflow : flowOn s = true)
    (hlost : flowLost s = false) (hlow : edgeFreq freq < minHz s ∨ flowQuiet s freq noEdge = true) :
    ∃ t, exec (.flowLost freq noEdge) s = .next t ∧ flowLost t = true ∧ flowHz t = min (edgeFreq freq) 65535 ∧
      wBit (rget t (thmBase + 0x1C0)) 2 = true := by
  have hcond : ¬ (!limitOn s || !flowOn s || flowLost s ||
      !(decide (edgeFreq freq < minHz s) || flowQuiet s freq noEdge || chBroken s 1059)) = true := by
    rcases hlow with h | h
    · simp [hon, hflow, hlost, h]
    · simp [hon, hflow, hlost, h]
  obtain ⟨u, hu⟩ : ∃ u, u = rupd (thmBase + 0x1C0) (fun w => wPut w 2 2 1)
    (rupd (thmBase + 0x158) (fun w => wPut (wPut w 15 0 (min (edgeFreq freq) 65535)) 31 31 1) s) := ⟨_, rfl⟩
  have hexec : exec (.flowLost freq noEdge) s = .next (flowRecord 4 (brakeSource 2 true u)) := by
    rw [exec, execFlowLost, if_neg hcond, hu]
  have hreg (o : Nat) (ho : o < 0x1000) (hne : thmBase + o ≠ thmBase + 0xC ∧ ¬ towerPower (thmBase + o)) :
      rget (flowRecord 4 (brakeSource 2 true u)) (thmBase + o) = rget u (thmBase + o) := by
    obtain ⟨_, hkeep⟩ := onlyRegs_brakeSource 2 true u
    rw [thermReg_of_onlyLogs (onlyLogs_flowRecord _ _) ho, hkeep _ (not_or.2 hne)]
  have h158 := hreg 0x158 (by decide) ⟨by decide, by rintro ⟨n, hn, h⟩; omega⟩
  have h1C0 := hreg 0x1C0 (by decide) ⟨by decide, by rintro ⟨n, hn, h⟩; omega⟩
  obtain ⟨hbit, hfld⟩ := flowWord_fields (rget s (thmBase + 0x158)) (edgeFreq freq) true
  have hu158 : rget u (thmBase + 0x158) =
      wPut (wPut (rget s (thmBase + 0x158)) 15 0 (min (edgeFreq freq) 65535)) 31 31 1 := by
    rw [hu, rupd, rget_rset_other _ _ (by decide), rget_rupd_same]
  refine ⟨_, hexec, ?_, ?_, ?_⟩
  · rw [Sys2Proof.Machine.flowLost, h158, hu158]
    exact hbit
  · rw [flowHz, h158, hu158]
    exact hfld
  · rw [h1C0, hu, rget_rupd_same, wBit_wPut _ _ _ (by decide) (by decide)]
    rfl

theorem flowPresent_returns (freq : List Nat) {s : State} (hon : limitOn s = true) (hlost : flowLost s = true)
    (hhigh : minHz s ≤ edgeFreq freq) :
    ∃ t, exec (.flowPresent freq) s = .next t ∧ flowLost t = false ∧ flowHz t = min (edgeFreq freq) 65535 := by
  have hreg := thermReg_of_onlyLogs (onlyLogs_flowRecord 5
    (rupd (thmBase + 0x158) (fun w => wPut (wPut w 15 0 (min (edgeFreq freq) 65535)) 31 31 0) s)) (o := 0x158) (by decide)
  rw [rget_rupd_same] at hreg
  obtain ⟨hbit, hfld⟩ := flowWord_fields (rget s (thmBase + 0x158)) (edgeFreq freq) false
  refine ⟨_, by rw [exec, execFlowPresent, if_neg (by simp [hon, hlost]; omega)], ?_, ?_⟩
  · rw [Sys2Proof.Machine.flowLost, hreg]
    exact hbit
  · rw [flowHz, hreg]
    exact hfld

theorem edgeFreq_interval {a b : Nat} {l : List Nat} (h : ((a :: b :: l).filter (fun a => a ≤ 50000000)).length < 3) :
    edgeFreq (a :: b :: l) = 10000000000 / (b - a) := if_neg (by omega)

end Sys2Proof.Machine
end

section
/-! The samples of the diodes, the predictions, and the housekeeping round. -/

namespace Sys2Proof.Machine

/-- Where one operation of a chain establishes a fact and every operation keeps it, it holds at the end. -/
theorem foldl_reaches {α : Type} {P : State → Prop} {f : State → α → State} {l : List α} {a : α} (hmem : a ∈ l)
    (hone : ∀ s, P (f s a)) (hkeep : ∀ s b, b ∈ l → P s → P (f s b)) (s : State) : P (l.foldl f s) := by
  induction l generalizing s with
  | nil => exact absurd hmem List.not_mem_nil
  | cons b l ih =>
    rw [List.foldl_cons]
    by_cases hin : a ∈ l
    · exact ih hin (fun s c hc => hkeep s c (List.mem_cons_of_mem _ hc)) _
    · obtain rfl : a = b := (List.mem_cons.1 hmem).resolve_right hin
      exact List.foldlRecOn l f (motive := P) (hone s) fun t ht c hc => hkeep t c (List.mem_cons_of_mem _ hc) ht

/-- A chain over the towers, seen from one of them: what the others do keeps its view. -/
theorem iter_reach {K : State → State → Prop} (hrefl : ∀ s, K s s) (htrans : ∀ {s t u}, K s t → K t u → K s u)
    {f : Nat → State → State} {n k : Nat} (hkeep : ∀ i s, i < k → i ≠ n → K s (f i s)) (hn : n < k) (s : State) :
    ∃ u, K s u ∧ K (f n u) (iter k f s) := by
  have hbefore (j : Nat) (hj : j ≤ n) : K s (iter j f s) := by
    induction j with
    | zero => exact hrefl s
    | succ j ih =>
      rw [iter_succ]
      exact htrans (ih (by omega)) (hkeep _ _ (by omega) (by omega))
  refine ⟨iter n f s, hbefore n (Nat.le_refl _), ?_⟩
  obtain ⟨d, rfl⟩ : ∃ d, k = n + 1 + d := ⟨k - (n + 1), by omega⟩
  have hafter (e : Nat) (he : e ≤ d) : K (f n (iter n f s)) (iter (n + 1 + e) f s) := by
    induction e with
    | zero =>
      rw [Nat.add_zero, iter_succ]
      exact hrefl _
    | succ e ih =>
      rw [← Nat.add_assoc, iter_succ]
      exact htrans (ih (by omega)) (hkeep _ _ (by omega) (by omega))
  exact hafter d (Nat.le_refl _)

/-! ## Channels -/

/-- What the thermal block knows of channel `ch` is as before. -/
def ChanKept (ch : Nat) (s t : State) : Prop :=
  nsHas t.therm.cut ch = nsHas s.therm.cut ch ∧ chBroken t ch = chBroken s ch ∧
    stGet (fun _ => SameSt.none) t.therm.same ch = stGet (fun _ => SameSt.none) s.therm.same ch ∧ chLast t ch = chLast s ch

theorem chanKept_refl (ch : Nat) (s : State) : ChanKept ch s s := ⟨rfl, rfl, rfl, rfl⟩

theorem chanKept_trans {ch : Nat} {s t u : State} (h : ChanKept ch s t) (k : ChanKept ch t u) : ChanKept ch s u := by
  obtain ⟨h1, h2, h3, h4⟩ := h
  obtain ⟨k1, k2, k3, k4⟩ := k
  exact ⟨k1.trans h1, k2.trans h2, k3.trans h3, k4.trans h4⟩

theorem chanKept_of_therm {s t : State} (h : t.therm = s.therm) (ch : Nat) : ChanKept ch s t := by
  rw [ChanKept, chBroken, chBroken, chLast, chLast, h]
  exact ⟨rfl, rfl, rfl, rfl⟩

theorem stuckNow_of_chanKept {ch : Nat} {s t : State} (h : ChanKept ch s t) : stuckNow t ch = stuckNow s ch := by
  obtain ⟨_, _, hsame, _⟩ := h
  rw [stuckNow, stuckNow, hsame]

/-- What noting a sensor may change of the thermal block: the broken and the cut channels. -/
theorem noteSensor_effect (ch : Nat) (cut bad : Bool) (s : State) : (∀ k, k ≠ ch → ChanKept k s (noteSensor ch cut bad s)) ∧
    nsHas (noteSensor ch cut bad s).therm.cut ch = cut ∧ (bad = true → chBroken (noteSensor ch cut bad s) ch = true) ∧
    { (noteSensor ch cut bad s).therm with cut := s.therm.cut, brk := s.therm.brk } = s.therm := by
  obtain ⟨u, hu⟩ : ∃ u : State, u = { s with therm := { s.therm with
    cut := if cut then nsAdd s.therm.cut ch else nsDel s.therm.cut ch } } := ⟨_, rfl⟩
  have hcut : nsHas u.therm.cut ch = cut := by
    rw [hu]
    cases cut with
    | true => exact (nsHas_nsAdd _ _ _).trans (by simp)
    | false => exact (nsHas_nsDel _ _ _).trans (by simp)
  have hother (k : Nat) (hk : k ≠ ch) : ChanKept k s u := by
    rw [hu]
    refine ⟨?_, rfl, rfl, rfl⟩
    cases cut with
    | true => exact (nsHas_nsAdd _ _ _).trans (by simp [hk])
    | false => exact (nsHas_nsDel _ _ _).trans (by simp [hk])
  have hrest : { u.therm with cut := s.therm.cut, brk := s.therm.brk } = s.therm := by rw [hu]
  have hbrk (b : NatSet) (hb : ∀ k, k ≠ ch → nsHas b k = nsHas u.therm.brk k) (t : State) (ht : t.therm = { u.therm with brk := b }) :
      (∀ k, k ≠ ch → ChanKept k s t) ∧ nsHas t.therm.cut ch = cut ∧
        { t.therm with cut := s.therm.cut, brk := s.therm.brk } = s.therm := by
    refine ⟨fun k hk => chanKept_trans (hother k hk) ?_, by rw [ht, hcut], by rw [ht, ← hrest]⟩
    rw [ChanKept, chBroken, chBroken, chLast, chLast, ht]
    exact ⟨rfl, hb k hk, rfl, rfl⟩
  have heq : noteSensor ch cut bad s = if !bad then (if u.booted then u else { u with therm := { u.therm with brk := nsDel u.therm.brk ch } })
      else if nsHas u.therm.brk ch then u
      else logErr { hub := chHub ch, code := 0x0401, part := none, source := chSource ch, engine := 19, logical := 0, addr := 0
                    detail := ch }
        (rupd (thmBase + 0x1C0) (fun w => wPut w 3 3 1) { u with therm := { u.therm with brk := nsAdd u.therm.brk ch } }) := by
    rw [hu]
    rfl
  rw [heq]
  cases bad with
  | false =>
    by_cases hb : u.booted = true
    · rw [if_pos (by decide), if_pos hb]
      obtain ⟨h1, h2, h3⟩ := hbrk u.therm.brk (fun _ _ => rfl) u rfl
      exact ⟨h1, h2, nofun, h3⟩
    · rw [if_pos (by decide), if_neg hb]
      obtain ⟨h1, h2, h3⟩ := hbrk (nsDel u.therm.brk ch) (fun k hk => (nsHas_nsDel _ _ _).trans (by simp [hk]))
        { u with therm := { u.therm with brk := nsDel u.therm.brk ch } } rfl
      exact ⟨h1, h2, nofun, h3⟩
  | true =>
    by_cases hb : nsHas u.therm.brk ch = true
    · rw [if_neg (by decide), if_pos hb]
      obtain ⟨h1, h2, h3⟩ := hbrk u.therm.brk (fun _ _ => rfl) u rfl
      exact ⟨h1, h2, fun _ => hb, h3⟩
    · rw [if_neg (by decide), if_neg hb]
      have htherm := therm_of_onlyLogs (onlyLogs_logErr
        { hub := chHub ch, code := 0x0401, part := none, source := chSource ch, engine := 19, logical := 0, addr := 0, detail := ch }
        (rupd (thmBase + 0x1C0) (fun w => wPut w 3 3 1) { u with therm := { u.therm with brk := nsAdd u.therm.brk ch } }))
      rw [rupd_therm] at htherm
      obtain ⟨h1, h2, h3⟩ := hbrk (nsAdd u.therm.brk ch) (fun k hk => (nsHas_nsAdd _ _ _).trans (by simp [hk])) _ htherm
      refine ⟨h1, h2, fun _ => ?_, h3⟩
      rw [chBroken, htherm, nsHas_nsAdd, beq_self_eq_true, Bool.true_or]

theorem noteCode_other {ch k : Nat} (same : Bool) (s : State) (h : k ≠ ch) : ChanKept k s (noteCode ch same s) :=
  ⟨rfl, rfl, stGet_stSet_other _ _ _ h, rfl⟩

theorem setLast_other {ch k : Nat} (v : Int) (s : State) (h : k ≠ ch) : ChanKept k s (setLast ch v s) :=
  ⟨rfl, rfl, rfl, stGet_stSet_other _ _ _ h⟩

/-! ## The samples of a tower (R374, R376) -/

/-- One diode of tower `n` sampled. -/
def sampleDiode (n : Nat) (l : List Rd) (stuck : List Nat) (s : State) (e : Rd × Nat) : State :=
  let ch := chHot n e.2
  let others := (l.zipIdx.filter (fun x => x.2 != e.2)).filterMap (fun x => rdTemp x.1)
  match rdTemp e.1 with
  | none => noteSensor ch true true s
  | some v =>
    let s := noteCode ch (stuck.contains ch) s
    noteSensor ch false (implausible v others || stuckNow s ch) s

/-- The state with the hotspot that the sampled diodes show. -/
def hotspotTaken (n : Nat) (l : List Rd) (s : State) : State :=
  let rs := l.zipIdx.map (fun e => if chBroken s (chHot n e.2) then 400 else (rdTemp e.1).getD 400)
  let t := rs.foldl max (rs.getD 0 0)
  let u := twTh s n
  let s := twThSet n (windowAdd s n t { u with hist := (t :: u.hist).take 100, meas := t }) s
  publishTemp n (twrPublish n 0 s)

theorem sampleTower_eq {n : Nat} {l : List Rd} (stuck : List Nat) {s : State} (hlen : l.length = 16) (hon : dieOn s n = true) :
    sampleTower n l stuck s = hotspotTaken n l (l.zipIdx.foldl (fun s e => sampleDiode n l stuck s e) s) :=
  if_neg (by simp [hlen, hon])

theorem sampleDiode_other {n k : Nat} (l : List Rd) (stuck : List Nat) (s : State) (e : Rd × Nat) (h : k ≠ chHot n e.2) :
    ChanKept k s (sampleDiode n l stuck s e) := by
  rw [sampleDiode]
  dsimp only
  split
  · obtain ⟨hother, _⟩ := noteSensor_effect (chHot n e.2) true true s
    exact hother k h
  · obtain ⟨hother, _⟩ := noteSensor_effect (chHot n e.2) false _ (noteCode (chHot n e.2) (stuck.contains (chHot n e.2)) s)
    exact chanKept_trans (noteCode_other _ s h) (hother k h)

/-- What a sampled diode shows: one that reads nothing is cut off and broken; one that reads a value while stuck is broken. -/
def DiodeShown (n i : Nat) (r : Rd) (s : State) : Prop :=
  (r = .cut → nsHas s.therm.cut (chHot n i) = true ∧ chBroken s (chHot n i) = true) ∧
    ((∃ v, r = .val v) → stuckNow s (chHot n i) = true → chBroken s (chHot n i) = true)

theorem diodeShown_of_chanKept {n i : Nat} {r : Rd} {s t : State} (h : ChanKept (chHot n i) s t) (hs : DiodeShown n i r s) :
    DiodeShown n i r t := by
  have hstuck := stuckNow_of_chanKept h
  obtain ⟨hcut, hbrk, _, _⟩ := h
  rw [DiodeShown, hcut, hbrk, hstuck]
  exact hs

theorem sampleDiode_own (n i : Nat) (r : Rd) (l : List Rd) (stuck : List Nat) (s : State) :
    DiodeShown n i r (sampleDiode n l stuck s (r, i)) := by
  cases r with
  | cut =>
    obtain ⟨_, hcut, hbrk, _⟩ := noteSensor_effect (chHot n i) true true s
    exact ⟨fun _ => ⟨hcut, hbrk rfl⟩, fun ⟨_, h⟩ => nomatch h⟩
  | volt uv => exact ⟨nofun, fun ⟨_, h⟩ => nomatch h⟩
  | edges a => exact ⟨nofun, fun ⟨_, h⟩ => nomatch h⟩
  | val v =>
    obtain ⟨u, hu⟩ : ∃ u, u = noteCode (chHot n i) (stuck.contains (chHot n i)) s := ⟨_, rfl⟩
    obtain ⟨bad, hbad, heq⟩ : ∃ bad, (stuckNow u (chHot n i) = true → bad = true) ∧
        sampleDiode n l stuck s (.val v, i) = noteSensor (chHot n i) false bad u := by
      refine ⟨implausible v ((l.zipIdx.filter (fun x => x.2 != i)).filterMap (fun x => rdTemp x.1)) || stuckNow u (chHot n i),
        fun h => by rw [h, Bool.or_true], ?_⟩
      rw [hu]
      rfl
    obtain ⟨_, _, hbrk, hrest⟩ := noteSensor_effect (chHot n i) false bad u
    rw [heq]
    refine ⟨nofun, fun _ hstuck => hbrk (hbad ?_)⟩
    have hsame := congrArg ThermSt.same hrest
    dsimp only at hsame
    rw [stuckNow, hsame] at hstuck
    exact hstuck

theorem mem_zipIdx {l : List Rd} {i : Nat} {r : Rd} (h : l[i]? = some r) : (r, i) ∈ l.zipIdx :=
  List.mem_zipIdx_iff_getElem?.2 h

theorem sampleDiodes_show {n i : Nat} {r : Rd} {l : List Rd} (stuck : List Nat) (s : State) (h : l[i]? = some r) :
    DiodeShown n i r (l.zipIdx.foldl (fun s e => sampleDiode n l stuck s e) s) := by
  refine foldl_reaches (mem_zipIdx h) (fun s => sampleDiode_own n i r l stuck s) (fun s e he hs => ?_) s
  obtain ⟨r', j⟩ := e
  by_cases hj : i = j
  · have hr : r' = r := by
      have hget := List.mem_zipIdx_iff_getElem?.1 he
      rw [← hj] at hget
      exact Option.some.inj (hget.symm.trans h)
    rw [← hj, hr]
    exact sampleDiode_own n i r l stuck s
  · exact diodeShown_of_chanKept (sampleDiode_other l stuck s (r', j) (by simp only [chHot]; omega)) hs

/-- The view of tower `n` in the thermal block. -/
def TowerSensed (n : Nat) (s t : State) : Prop :=
  twTh t n = twTh s n ∧ (∀ i, i < 16 → ChanKept (chHot n i) s t) ∧ dieOn t n = dieOn s n

theorem towerSensed_refl (n : Nat) (s : State) : TowerSensed n s s := ⟨rfl, fun _ _ => chanKept_refl _ _, rfl⟩

theorem towerSensed_trans {n : Nat} {s t u : State} (h : TowerSensed n s t) (k : TowerSensed n t u) : TowerSensed n s u := by
  obtain ⟨h1, h2, h3⟩ := h
  obtain ⟨k1, k2, k3⟩ := k
  exact ⟨k1.trans h1, fun i hi => chanKept_trans (h2 i hi) (k2 i hi), k3.trans h3⟩

theorem sampleDiode_tw (n : Nat) (l : List Rd) (stuck : List Nat) (s : State) (e : Rd × Nat) :
    (sampleDiode n l stuck s e).therm.tw = s.therm.tw := by
  have hnote (ch : Nat) (cut bad : Bool) (s : State) : (noteSensor ch cut bad s).therm.tw = s.therm.tw := by
    obtain ⟨_, _, _, hrest⟩ := noteSensor_effect ch cut bad s
    have htw := congrArg ThermSt.tw hrest
    exact htw
  rw [sampleDiode]
  dsimp only
  split
  · exact hnote _ _ _ _
  · rw [hnote]
    rfl

/-- A tower is on as long as its rail and its manager are. -/
theorem dieOn_tower {n : Nat} {s t : State} (hn : n < 16) (hrails : t.pwr.rails = s.pwr.rails) (hlost : t.lostTw = s.lostTw) :
    dieOn t n = dieOn s n := by
  rw [dieOn, dieOn, logicRail, logicRail, if_pos hn, if_pos hn, if_pos hn, hrails, hlost]

theorem dieOn_of_only {n φ : Nat} {s t : State} (hn : n < 16) (h : Only φ s t) (hrails : φ.testBit 58 = false)
    (hlost : φ.testBit 20 = false) : dieOn t n = dieOn s n := dieOn_tower hn (h.rails hrails) (h.lostTw hlost)

/-- What the diodes of tower `n` read: a broken one 100 °C. -/
def readings (n : Nat) (l : List Rd) (s : State) : List Int :=
  l.zipIdx.map (fun e => if chBroken s (chHot n e.2) then 400 else (rdTemp e.1).getD 400)

/-- The hottest of some readings. -/
def hottest (l : List Int) : Int := l.foldl max (l.getD 0 0)

/-- The record of tower `n` once its hotspot is taken. -/
def hotspotTw (n : Nat) (l : List Rd) (s : State) : TwrTh :=
  windowAdd s n (hottest (readings n l s)) { twTh s n with
    hist := (hottest (readings n l s) :: (twTh s n).hist).take 100, meas := hottest (readings n l s) }

theorem hotspotTaken_therm (n : Nat) (l : List Rd) (s : State) :
    (hotspotTaken n l s).therm = (twThSet n (hotspotTw n l s) s).therm := by
  rw [hotspotTaken, publishTemp, rset_therm, twrPublish, rupd_therm]
  rfl

theorem sampleTower_other {n k : Nat} (l : List Rd) (stuck : List Nat) (s : State) (hn : n < 16) (h : k ≠ n) :
    TowerSensed n s (sampleTower k l stuck s) := by
  have hon : dieOn (sampleTower k l stuck s) n = dieOn s n :=
    dieOn_of_only hn (only_sampleTower (φ := F.logs ||| F.therm) rfl (Only.refl _ s) k l stuck) rfl rfl
  by_cases hrun : l.length = 16 ∧ dieOn s k = true
  · obtain ⟨hlen, hkon⟩ := hrun
    have heq := sampleTower_eq stuck hlen hkon
    obtain ⟨u, hu⟩ : ∃ u, u = l.zipIdx.foldl (fun s e => sampleDiode k l stuck s e) s := ⟨_, rfl⟩
    have htw : u.therm.tw = s.therm.tw := by
      rw [hu]
      exact List.foldlRecOn _ _ (motive := fun t : State => t.therm.tw = s.therm.tw) rfl fun v hv e _ =>
        (sampleDiode_tw k l stuck v e).trans hv
    have hchan (i : Nat) (hi : i < 16) : ChanKept (chHot n i) s u := by
      rw [hu]
      refine List.foldlRecOn _ _ (motive := fun t : State => ChanKept (chHot n i) s t) (chanKept_refl _ _) fun v hv e he => ?_
      obtain ⟨r, j⟩ := e
      have hj : j < 16 := by
        obtain ⟨hlt, _⟩ := List.getElem?_eq_some_iff.1 (List.mem_zipIdx_iff_getElem?.1 he)
        exact hlen ▸ hlt
      exact chanKept_trans hv (sampleDiode_other l stuck v (r, j) (by simp only [chHot]; omega))
    have htherm := hotspotTaken_therm k l u
    rw [heq, ← hu] at hon ⊢
    refine ⟨?_, fun i hi => chanKept_trans (hchan i hi) ?_, hon⟩
    · rw [twTh_of_therm htherm, twTh_twThSet_other _ _ (Ne.symm h), twTh, twTh, htw]
    · exact chanKept_trans (chanKept_refl _ (twThSet k (hotspotTw k l u) u)) (chanKept_of_therm htherm _)
  · have hsame : sampleTower k l stuck s = s := by
      rw [not_and_or, Bool.not_eq_true] at hrun
      exact if_pos (by simpa using hrun)
    rw [hsame]
    exact towerSensed_refl n s

theorem le_foldl_max (l : List Int) (x : Int) : x ≤ l.foldl max x ∧ ∀ v ∈ l, v ≤ l.foldl max x := by
  induction l generalizing x with
  | nil => exact ⟨le_refl _, nofun⟩
  | cons a l ih =>
    obtain ⟨hx, hall⟩ := ih (max x a)
    rw [List.foldl_cons]
    refine ⟨(le_max_left _ _).trans hx, fun v hv => ?_⟩
    rcases List.mem_cons.1 hv with rfl | hv
    · exact (le_max_right _ _).trans hx
    · exact hall v hv

theorem foldl_max_mem (l : List Int) (x : Int) : l.foldl max x = x ∨ l.foldl max x ∈ l := by
  induction l generalizing x with
  | nil => exact .inl rfl
  | cons a l ih =>
    rw [List.foldl_cons]
    rcases ih (max x a) with h | h
    · rw [h]
      rcases max_choice x a with hm | hm
      · rw [hm]
        exact .inl rfl
      · rw [hm]
        exact .inr (List.mem_cons_self ..)
    · exact .inr (List.mem_cons_of_mem _ h)

theorem hottest_spec {l : List Int} (h : l ≠ []) : hottest l ∈ l ∧ ∀ v ∈ l, v ≤ hottest l := by
  cases l with
  | nil => exact absurd rfl h
  | cons a l =>
    obtain ⟨_, hall⟩ := le_foldl_max (a :: l) a
    refine ⟨?_, hall⟩
    rcases foldl_max_mem (a :: l) a with heq | hmem
    · have : hottest (a :: l) = a := heq
      rw [this]
      exact List.mem_cons_self ..
    · exact hmem

theorem readings_of_good {n : Nat} {vals : List Int} {s : State} (hgood : ∀ i, i < vals.length → chBroken s (chHot n i) = false) :
    readings n (vals.map Rd.val) s = vals := by
  refine List.ext_getElem (by simp [readings]) fun i h1 h2 => ?_
  simp [readings, hgood i h2, rdTemp]

theorem readings_of_broken {n i : Nat} {l : List Rd} {s : State} (hi : i < l.length) (hbrk : chBroken s (chHot n i) = true) :
    400 ∈ readings n l s := by
  refine List.mem_map.2 ⟨(l[i], i), mem_zipIdx (List.getElem?_eq_getElem hi), ?_⟩
  dsimp only
  rw [if_pos hbrk]

/-- What the sampling of tower `n` shows in a later state. -/
theorem hotspotSample_shows (rd : List (List Rd)) (stuck : List Nat) (s : State) {n : Nat} (hn : n < 16) (hon : dieOn s n = true)
    (hlen : (listAt rd n []).length = 16) :
    let t := iter 16 (fun n s => sampleTower n (listAt rd n []) stuck s) s
    (∀ vals : List Int, listAt rd n [] = vals.map Rd.val → (∀ i, i < 16 → chBroken t (chHot n i) = false) →
      (twTh t n).meas ∈ vals ∧ ∀ v ∈ vals, v ≤ (twTh t n).meas) ∧
    (∀ i, i < 16 → (listAt rd n [])[i]? = some .cut → nsHas t.therm.cut (chHot n i) = true ∧
      chBroken t (chHot n i) = true ∧ 400 ≤ (twTh t n).meas) ∧
    (∀ i, i < 16 → (∃ v, (listAt rd n [])[i]? = some (.val v)) → stuckNow t (chHot n i) = true →
      chBroken t (chHot n i) = true) := by
  obtain ⟨u, ⟨_, _, huon⟩, hafter⟩ := iter_reach (towerSensed_refl n) towerSensed_trans
    (f := fun n s => sampleTower n (listAt rd n []) stuck s) (fun i s _ hi => sampleTower_other _ stuck s hn hi) hn s
  dsimp only
  generalize iter 16 (fun n s => sampleTower n (listAt rd n []) stuck s) s = t at hafter
  generalize listAt rd n [] = l at hlen hafter
  rw [sampleTower_eq stuck hlen (huon.trans hon)] at hafter
  obtain ⟨v, hv⟩ : ∃ v, v = l.zipIdx.foldl (fun s e => sampleDiode n l stuck s e) u := ⟨_, rfl⟩
  have hshown (i : Nat) (r : Rd) (h : l[i]? = some r) : DiodeShown n i r v := hv ▸ sampleDiodes_show stuck u h
  rw [← hv] at hafter
  have htherm := hotspotTaken_therm n l v
  obtain ⟨htw, hchan, _⟩ := hafter
  have hkept (i : Nat) (hi : i < 16) : ChanKept (chHot n i) v t :=
    chanKept_trans (chanKept_trans (chanKept_refl _ (twThSet n (hotspotTw n l v) v)) (chanKept_of_therm htherm _)) (hchan i hi)
  have htmeas : (twTh t n).meas = hottest (readings n l v) := by
    rw [htw, twTh_of_therm htherm, twTh_twThSet_same]
    rfl
  have hne : readings n l v ≠ [] := fun h => by
    have := congrArg List.length h
    simp [readings, hlen] at this
  obtain ⟨hmem, hmax⟩ := hottest_spec hne
  rw [htmeas]
  refine ⟨fun vals hvals hgood => ?_, fun i hi hcut => ?_, fun i hi ⟨x, hx⟩ hstuck => ?_⟩
  · have hvlen : vals.length = 16 := by rw [hvals, List.length_map] at hlen; exact hlen
    have hread : readings n l v = vals := by
      rw [hvals]
      refine readings_of_good fun i hi => ?_
      obtain ⟨_, hbrk, _⟩ := hkept i (hvlen ▸ hi)
      rw [← hbrk, hgood i (hvlen ▸ hi)]
    rw [hread] at hmem hmax ⊢
    exact ⟨hmem, hmax⟩
  · obtain ⟨hshow, _⟩ := diodeShown_of_chanKept (hkept i hi) (hshown i _ hcut)
    obtain ⟨hc, hb⟩ := hshow rfl
    obtain ⟨_, hbrk, _⟩ := hkept i hi
    exact ⟨hc, hb, hmax _ (readings_of_broken (l := l) (hlen ▸ hi) (by rw [← hbrk, hb]))⟩
  · obtain ⟨_, hshow⟩ := diodeShown_of_chanKept (hkept i hi) (hshown i _ hx)
    exact hshow ⟨x, rfl⟩ hstuck

/-! ## Predictions (R379, R381, R382) -/

/-- The inputs of the predictions but for the towers' own readings, and what says which dies run, as before. -/
def HeatKept (s t : State) : Prop :=
  inletT t = inletT s ∧ (∀ n, n < 16 → rBase t n = rBase s n ∧ powTw t n = powTw s n) ∧ t.stage = s.stage ∧
    t.pwr.rails = s.pwr.rails ∧ t.lostTw = s.lostTw ∧ t.hubs = s.hubs

theorem heatKept_refl (s : State) : HeatKept s s := ⟨rfl, fun _ _ => ⟨rfl, rfl⟩, rfl, rfl, rfl, rfl⟩

theorem heatKept_trans {s t u : State} (h : HeatKept s t) (k : HeatKept t u) : HeatKept s u := by
  obtain ⟨h1, h2, h3, h4, h5, h6⟩ := h
  obtain ⟨k1, k2, k3, k4, k5, k6⟩ := k
  refine ⟨k1.trans h1, fun n hn => ?_, k3.trans h3, k4.trans h4, k5.trans h5, k6.trans h6⟩
  obtain ⟨hb, hp⟩ := h2 n hn
  obtain ⟨kb, kp⟩ := k2 n hn
  exact ⟨kb.trans hb, kp.trans hp⟩

theorem heatKept_iter {f : Nat → State → State} {k : Nat} (hf : ∀ i s, i < k → HeatKept s (f i s)) (s : State) :
    HeatKept s (iter k f s) := by
  refine List.foldlRecOn _ _ (motive := fun t => HeatKept s t) (heatKept_refl s) fun t ht i hi => ?_
  exact heatKept_trans ht (hf i t (List.mem_range.1 hi))

theorem heatKept_ite {c : Prop} [Decidable c] {u s t : State} (h : HeatKept u s) (k : HeatKept u t) :
    HeatKept u (if c then s else t) := by
  split
  · exact h
  · exact k

/-- A register replaced: not the coolant's, and of a tower's only what the predictions do not read. -/
theorem heatKept_rupd {o : Nat} {f : Word → Word} (s : State) (h150 : o ≠ thmBase + 0x150)
    (hbase : ∀ n < 16, o = thmBase + 0x180 + 4 * n → ∀ w, wFld (f w) 19 11 = wFld w 19 11)
    (hpow : ∀ n < 16, o = thmBase + 0x80 + 4 * n → ∀ w, wFld (f w) 31 19 = wFld w 31 19) : HeatKept s (rupd o f s) := by
  have hread (a hi lo : Nat) (h : o = a → ∀ w, wFld (f w) hi lo = wFld w hi lo) :
      wFld (rget (rupd o f s) a) hi lo = wFld (rget s a) hi lo := by
    by_cases ho : a = o
    · rw [ho, rget_rupd_same, h ho.symm]
    · rw [rupd, rget_rset_other _ _ ho]
  refine ⟨?_, fun n hn => ⟨hread _ _ _ (hbase n hn), hread _ _ _ (hpow n hn)⟩, by rw [rupd_stage], by rw [rupd_pwr], by rw [rupd_lostTw],
    by rw [rupd_hubs]⟩
  rw [inletT, inletT, rupd, rget_rset_other _ _ (Ne.symm h150)]

theorem heatKept_rset {o : Nat} (w : Word) (s : State) (h150 : o ≠ thmBase + 0x150) (hbase : ∀ n < 16, o ≠ thmBase + 0x180 + 4 * n)
    (hpow : ∀ n < 16, o ≠ thmBase + 0x80 + 4 * n) : HeatKept s (rset o w s) :=
  heatKept_rupd (f := fun _ => w) s h150 (fun n hn h => absurd h (hbase n hn)) fun n hn h => absurd h (hpow n hn)

theorem heatKept_twrPublish {n : Nat} (cause : Nat) (s : State) (hn : n < 16) : HeatKept s (twrPublish n cause s) := by
  refine heatKept_rupd s (by omega) (fun k hk h => by omega) fun k _ _ w => ?_
  rw [wFld_wPut_disjoint _ _ (by decide) (by decide) (by decide), wFld_wPut_disjoint _ _ (by decide) (by decide) (by decide),
    wFld_wPut_disjoint _ _ (by decide) (by decide) (by decide)]

theorem heatKept_brakeSource (i : Nat) (v : Bool) (s : State) : HeatKept s (brakeSource i v s) := by
  have hset (f : Word → Word) (u : State) : HeatKept u (rupd (thmBase + 0xC) f u) :=
    heatKept_rupd u (by decide) (fun n _ h => by omega) fun n _ h => by omega
  have hall (u : State) : HeatKept u (publishAll u) := heatKept_iter (fun _ t hi => heatKept_twrPublish 0 t hi) u
  unfold brakeSource
  dsimp only
  split
  · exact heatKept_trans (hset _ s) (heatKept_trans (hset _ _) (hall _))
  · exact hset _ s

theorem heatKept_pwr {s : State} {p : PwrSt} (hp : p.rails = s.pwr.rails) : HeatKept s { s with pwr := p } :=
  ⟨rfl, fun _ _ => ⟨rfl, rfl⟩, rfl, hp, rfl, rfl⟩

theorem heatKept_therm (s : State) (x : ThermSt) : HeatKept s { s with therm := x } := ⟨rfl, fun _ _ => ⟨rfl, rfl⟩, rfl, rfl, rfl, rfl⟩

theorem heatKept_loopTower {n : Nat} (p dram pk : Nat) (s : State) (hn : n < 16) : HeatKept s (loopTower n p dram pk s) := by
  have hpub (cause : Nat) (q : PwrSt) (hq : q.rails = s.pwr.rails) : HeatKept s (twrPublish n cause { s with pwr := q }) :=
    heatKept_trans (heatKept_pwr hq) (heatKept_twrPublish cause _ hn)
  have hlower (cause : Nat) : HeatKept s (loopLower n p dram cause s) :=
    heatKept_ite (hpub cause _ rfl) (heatKept_ite (hpub cause _ rfl) (heatKept_twrPublish cause s hn))
  have hraise : HeatKept s (loopRaise n s) :=
    heatKept_ite (hpub 0 _ rfl) (heatKept_ite (hpub 0 _ rfl) (heatKept_twrPublish 0 s hn))
  exact heatKept_ite (hlower 2) (heatKept_ite (hlower 1) (heatKept_ite hraise (heatKept_twrPublish 0 s hn)))

theorem heatKept_loopAdjust (pk : Nat) (p : Nat → Nat × Nat) (s : State) : HeatKept s (loopAdjust pk p s) := by
  have hloops : HeatKept s (iter 16 (fun n s => loopTower n (p n).1 (p n).2 pk s) s) :=
    heatKept_iter (fun i t hi => heatKept_loopTower _ _ pk t hi) s
  have hslow (u : State) : HeatKept u (iter 16 (fun n s => rupd (thmBase + 0x180 + 4 * n)
      (fun w => wPut w 8 0 (min 320 (slowAllow s n))) s) u) :=
    heatKept_iter (fun i t hi => heatKept_rupd t (by omega) (fun n _ _ w => wFld_wPut_disjoint _ _ (by decide) (by decide) (by decide))
      fun n hn h => by omega) u
  have hbind (u : State) : HeatKept u (rupd (thmBase + 0x1C0) (fun w => wPut w 1 1 1) u) :=
    heatKept_rupd u (by decide) (fun n _ h => by omega) fun n _ h => by omega
  rw [loopAdjust]
  exact heatKept_trans (heatKept_ite (heatKept_trans hloops (hbind _)) hloops) (hslow _)

/-- The prediction of tower `n` and what it stands on. -/
def PredKept (n : Nat) (s t : State) : Prop :=
  HeatKept s t ∧ twTh t n = twTh s n ∧ ∀ m, m < 8 → layTh t n m = layTh s n m

theorem predKept_refl (n : Nat) (s : State) : PredKept n s s := ⟨heatKept_refl s, rfl, fun _ _ => rfl⟩

theorem predKept_trans {n : Nat} {s t u : State} (h : PredKept n s t) (k : PredKept n t u) : PredKept n s u := by
  obtain ⟨h1, h2, h3⟩ := h
  obtain ⟨k1, k2, k3⟩ := k
  exact ⟨heatKept_trans h1 k1, k2.trans h2, fun m hm => (k3 m hm).trans (h3 m hm)⟩

theorem predKept_of_therm {n : Nat} {s t : State} (h : HeatKept s t) (htherm : t.therm = s.therm) : PredKept n s t :=
  ⟨h, twTh_of_therm htherm n, fun m _ => layTh_of_therm htherm n m⟩

theorem heatKept_publishTemp (n : Nat) (s : State) (hn : n < 16) : HeatKept s (publishTemp n s) := by
  rw [publishTemp]
  exact heatKept_rset _ s (by omega) (fun k hk => by omega) fun k hk => by omega

/-- The layers of tower `n` predicted from its hotspot's prediction. -/
def layersPredicted (n : Nat) (pred : Int) (s : State) : State :=
  iter 8 (fun m s => layThSet n m { layTh s n m with pred := predictLayer n m (layTh s n m) pred } s) s

theorem layersPredicted_effect (n : Nat) (pred : Int) (s : State) :
    (∀ m, m < 8 → layTh (layersPredicted n pred s) n m = { layTh s n m with pred := predictLayer n m (layTh s n m) pred }) ∧
    (∀ i j, 8 * i + j < 8 * n ∨ 8 * n + 8 ≤ 8 * i + j → layTh (layersPredicted n pred s) i j = layTh s i j) ∧
    (layersPredicted n pred s).therm.tw = s.therm.tw ∧ { layersPredicted n pred s with therm := s.therm } = s := by
  have hsteps (k : Nat) (hk : k ≤ 8) :
      let t := iter k (fun m s => layThSet n m { layTh s n m with pred := predictLayer n m (layTh s n m) pred } s) s
      (∀ m, m < k → layTh t n m = { layTh s n m with pred := predictLayer n m (layTh s n m) pred }) ∧
      (∀ i j, 8 * i + j < 8 * n ∨ 8 * n + k ≤ 8 * i + j → layTh t i j = layTh s i j) ∧
      t.therm.tw = s.therm.tw ∧ { t with therm := s.therm } = s := by
    induction k with
    | zero => exact ⟨nofun, fun _ _ _ => rfl, rfl, rfl⟩
    | succ k ih =>
      obtain ⟨hown, hother, htw, hrest⟩ := ih (by omega)
      dsimp only
      rw [iter_succ]
      generalize iter k (fun m s => layThSet n m { layTh s n m with pred := predictLayer n m (layTh s n m) pred } s) s = u
        at hown hother htw hrest
      refine ⟨fun m hm => ?_, fun i j hij => ?_, htw, hrest⟩
      · by_cases hmk : m = k
        · rw [hmk, layTh_layThSet_same, hother n k (by omega)]
        · rw [layTh_layThSet_other _ _ (by omega)]
          exact hown m (by omega)
      · rw [layTh_layThSet_other _ _ (by omega)]
        exact hother i j (by omega)
  obtain ⟨h1, h2, h3, h4⟩ := hsteps 8 (Nat.le_refl _)
  exact ⟨h1, h2, h3, h4⟩

theorem heatKept_predicted (n : Nat) (v : TwrTh) (pred : Int) (s : State) :
    HeatKept s (layersPredicted n pred (twThSet n v s)) :=
  heatKept_trans (heatKept_therm s _) (heatKept_iter (fun _ t _ => heatKept_therm t _) _)

/-- A tower predicted: its hotspot, its layers and its withhold count. -/
theorem predictTower_eq {n : Nat} {s : State} (hon : dieOn s n = true) (hstage : 5 ≤ s.stage) : ∃ w, predictTower n s = publishTemp n
    { layersPredicted n (predictHot s n (twTh s n).hist (twTh s n).meas)
        (twThSet n { twTh s n with pred := predictHot s n (twTh s n).hist (twTh s n).meas } s) with
      pwr := { s.pwr with thermW := w } } := by
  obtain ⟨_, _, _, hrest⟩ := layersPredicted_effect n (predictHot s n (twTh s n).hist (twTh s n).meas)
    (twThSet n { twTh s n with pred := predictHot s n (twTh s n).hist (twTh s n).meas } s)
  have hpwr := congrArg State.pwr hrest
  have heq : predictTower n s = publishTemp n
      (let v := layersPredicted n (predictHot s n (twTh s n).hist (twTh s n).meas)
        (twThSet n { twTh s n with pred := predictHot s n (twTh s n).hist (twTh s n).meas } s)
      { v with pwr := { v.pwr with thermW := stSet (fun _ => 0) v.pwr.thermW n (thermWithhold v n) } }) :=
    (if_neg (by simp [hon])).trans (if_neg (by omega))
  generalize layersPredicted n _ _ = v at hpwr heq ⊢
  have hv : v.pwr = s.pwr := hpwr
  rw [heq]
  dsimp only
  rw [hv]
  exact ⟨_, rfl⟩

/-- Tower `n` is predicted from its own readings. -/
def Predicted (n : Nat) (t : State) : Prop :=
  (twTh t n).pred = predictHot t n (twTh t n).hist (twTh t n).meas ∧
    ∀ m, m < 8 → (layTh t n m).pred = predictLayer n m (layTh t n m) (twTh t n).pred

theorem predictHot_of_heatKept {n : Nat} {s t : State} (hn : n < 16) (h : HeatKept s t) (hr : (twTh t n).rEst = (twTh s n).rEst)
    (l : List Int) (x : Int) : predictHot t n l x = predictHot s n l x := by
  obtain ⟨hin, hreg, _⟩ := h
  obtain ⟨hbase, hpow⟩ := hreg n hn
  have hest : rEst t n = rEst s n := by rw [rEst, rEst, hr, hbase]
  rw [predictHot, predictHot, hin, hest, hpow]

theorem predicted_of_predKept {n : Nat} {s t : State} (hn : n < 16) (h : PredKept n s t) (hs : Predicted n s) : Predicted n t := by
  obtain ⟨hheat, htw, hlay⟩ := h
  obtain ⟨hhot, hlayer⟩ := hs
  rw [Predicted, htw, predictHot_of_heatKept hn hheat (by rw [htw])]
  exact ⟨hhot, fun m hm => by rw [hlay m hm]; exact hlayer m hm⟩

theorem predictTower_predicts {n : Nat} {s : State} (hn : n < 16) (hon : dieOn s n = true) (hstage : 5 ≤ s.stage) :
    Predicted n (predictTower n s) := by
  obtain ⟨w, heq⟩ := predictTower_eq hon hstage
  obtain ⟨hown, _, htw, _⟩ := layersPredicted_effect n (predictHot s n (twTh s n).hist (twTh s n).meas)
    (twThSet n { twTh s n with pred := predictHot s n (twTh s n).hist (twTh s n).meas } s)
  rw [heq]
  generalize hv : layersPredicted n (predictHot s n (twTh s n).hist (twTh s n).meas)
    (twThSet n { twTh s n with pred := predictHot s n (twTh s n).hist (twTh s n).meas } s) = v at hown htw
  have hvtw : twTh v n = { twTh s n with pred := predictHot s n (twTh s n).hist (twTh s n).meas } := by
    rw [twTh, htw]
    exact twTh_twThSet_same _ _ _
  have hheat : HeatKept s (publishTemp n { v with pwr := { s.pwr with thermW := w } }) := by
    have hsv : HeatKept s v := hv ▸ heatKept_predicted n _ _ s
    have hrails : s.pwr.rails = v.pwr.rails := by
      obtain ⟨_, _, _, hrails, _⟩ := hsv
      exact hrails.symm
    exact heatKept_trans (heatKept_trans hsv (heatKept_pwr hrails)) (heatKept_publishTemp n _ hn)
  have htherm : (publishTemp n { v with pwr := { s.pwr with thermW := w } }).therm = v.therm := rset_therm _ _ _
  refine ⟨?_, fun m hm => ?_⟩
  · rw [twTh_of_therm htherm, hvtw]
    exact (predictHot_of_heatKept hn hheat (by rw [twTh_of_therm htherm, hvtw]) _ _).symm
  · rw [twTh_of_therm htherm, layTh_of_therm htherm, hvtw, hown m hm]
    rfl

theorem predictTower_other {n k : Nat} (s : State) (hk : k < 16) (h : k ≠ n) : PredKept n s (predictTower k s) := by
  by_cases hon : dieOn s k = true
  · by_cases hstage : 5 ≤ s.stage
    · obtain ⟨w, heq⟩ := predictTower_eq hon hstage
      obtain ⟨_, hother, htw, _⟩ := layersPredicted_effect k (predictHot s k (twTh s k).hist (twTh s k).meas)
        (twThSet k { twTh s k with pred := predictHot s k (twTh s k).hist (twTh s k).meas } s)
      rw [heq]
      have hsv := heatKept_predicted k { twTh s k with pred := predictHot s k (twTh s k).hist (twTh s k).meas }
        (predictHot s k (twTh s k).hist (twTh s k).meas) s
      generalize layersPredicted k (predictHot s k (twTh s k).hist (twTh s k).meas)
        (twThSet k { twTh s k with pred := predictHot s k (twTh s k).hist (twTh s k).meas } s) = v at hother htw hsv
      have hrails : s.pwr.rails = v.pwr.rails := by
        obtain ⟨_, _, _, hrails, _⟩ := hsv
        exact hrails.symm
      refine predKept_trans (t := v) ⟨hsv, ?_, fun m hm => hother n m (by omega)⟩ (predKept_of_therm
        (heatKept_trans (heatKept_pwr hrails) (heatKept_publishTemp k _ hk)) (rset_therm _ _ _))
      rw [twTh, htw]
      exact twTh_twThSet_other _ _ (Ne.symm h)
    · have heq : predictTower k s = { s with pwr := { s.pwr with thermW := stSet (fun _ => 0) s.pwr.thermW k 0 } } :=
        (if_neg (by simp [hon])).trans (if_pos (by omega))
      rw [heq]
      exact predKept_of_therm (heatKept_pwr rfl) rfl
  · have heq : predictTower k s = s := if_pos (by simpa using hon)
    rw [heq]
    exact predKept_refl n s

/-- The brake at the end of an interval holds for a tower that is predicted too hot. -/
theorem thermBrake_hot {n : Nat} {s : State} (hn : n < 16) (hlim : limitOn s = true) (hstage : 5 ≤ s.stage) (hon : dieOn s n = true)
    (hhot : 106000000 ≤ (twTh s n).pred ∨ 100000000 ≤ layPred s n) :
    wBit (rget (thermBrake s) (thmBase + 0xC)) 2 = true ∧ brakeOn (thermBrake s) = true := by
  have hany : (((List.range 16).filter (dieOn s)).any (fun n => decide (106000000 ≤ (twTh s n).pred) ||
      decide (100000000 ≤ layPred s n)) || flowLost s) = true := by
    rw [Bool.or_eq_true, List.any_eq_true]
    exact .inl ⟨n, List.mem_filter.2 ⟨List.mem_range.2 hn, hon⟩, by simpa using hhot⟩
  obtain ⟨x, heq⟩ : ∃ x : ThermSt, thermBrake s = brakeSource 2 true { s with therm := x } :=
    ⟨_, (if_neg (by simp [hlim]; omega)).trans (if_pos hany)⟩
  rw [heq]
  exact ⟨wBit_brakeSource true _ (by decide) (by decide), brakeOn_brakeSource _ (by decide) (by decide)⟩

theorem predKept_brakeSource (n : Nat) (v : Bool) (s : State) : PredKept n s (brakeSource 2 v s) := by
  obtain ⟨hrest, _⟩ := onlyRegs_brakeSource 2 v s
  exact predKept_of_therm (heatKept_brakeSource 2 v s) (congrArg State.therm hrest :)

theorem predKept_clear (n c : Nat) (s : State) : PredKept n s { s with therm := { s.therm with clear := c } } :=
  ⟨heatKept_therm s _, rfl, fun _ _ => rfl⟩

theorem predKept_ite {n : Nat} {c : Prop} [Decidable c] {u s t : State} (h : PredKept n u s) (k : PredKept n u t) :
    PredKept n u (if c then s else t) := by
  split
  · exact h
  · exact k

theorem predKept_thermBrake (n : Nat) (s : State) : PredKept n s (thermBrake s) := by
  rw [thermBrake]
  exact predKept_ite (predKept_refl n s) (predKept_ite (predKept_trans (predKept_clear n _ s) (predKept_brakeSource n true _))
    (predKept_ite (predKept_trans (predKept_clear n _ s) (predKept_brakeSource n false _)) (predKept_clear n _ s)))

/-- The interval of the limit block, seen from tower `n`. -/
theorem powerLoop_predicts {n : Nat} (pk : Nat) (p : Nat → Nat × Nat) (hub : List Nat) {s : State} (hn : n < 16)
    (hlim : limitOn s = true) (hstage : 5 ≤ s.stage) (hon : dieOn s n = true) :
    let t := thermBrake (loopAdjust pk p (iter 16 predictTower (loopMeasure pk p hub s)))
    Predicted n t ∧ (106000000 ≤ (twTh t n).pred ∨ 100000000 ≤ layPred t n → wBit (rget t (thmBase + 0xC)) 2 = true ∧
      brakeOn t = true) := by
  obtain ⟨w, hw⟩ : ∃ w, w = loopMeasure pk p hub s := ⟨_, rfl⟩
  have hmeasure : Only (F.regs ||| F.pwr ||| F.therm) s w := by
    rw [hw]
    exact only_loopMeasure (φ := F.regs ||| F.pwr ||| F.therm) rfl (Only.refl _ _) _ _ _
  have hwon : dieOn w n = true := (dieOn_of_only hn hmeasure rfl rfl).trans hon
  obtain ⟨u, ⟨hsu, _⟩, hafter⟩ := iter_reach (predKept_refl n) predKept_trans (f := predictTower)
    (fun i s hi hne => predictTower_other s hi hne) hn w
  obtain ⟨_, _, hustage, hurails, hulost, huhubs⟩ := hsu
  have huon : dieOn u n = true := (dieOn_tower hn hurails hulost).trans hwon
  have hpred := predictTower_predicts hn huon (by rw [hustage, hmeasure.stage rfl]; exact hstage)
  have hheat : HeatKept w (iter 16 predictTower w) := heatKept_iter (fun i v hi => by
    obtain ⟨h, _⟩ := predictTower_other (n := i + 1) v hi (by omega)
    exact h) w
  have hloop := heatKept_loopAdjust pk p (iter 16 predictTower w)
  have htherm : (loopAdjust pk p (iter 16 predictTower w)).therm = (iter 16 predictTower w).therm :=
    (only_loopAdjust (φ := F.regs ||| F.pwr) rfl (Only.refl _ _) _ _).therm rfl
  obtain ⟨_, _, hvstage, hvrails, hvlost, hvhubs⟩ := heatKept_trans hheat hloop
  have hkept := predKept_trans hafter (predKept_of_therm (n := n) hloop htherm)
  dsimp only
  rw [← hw]
  generalize loopAdjust pk p (iter 16 predictTower w) = v at hkept hvstage hvrails hvlost hvhubs
  have hbrake := predKept_thermBrake n v
  refine ⟨predicted_of_predKept hn (predKept_trans hkept hbrake) hpred, fun hhot => ?_⟩
  obtain ⟨_, htw, hlay⟩ := hbrake
  have hlp : layPred (thermBrake v) n = layPred v n := by
    rw [layPred, layPred, hlay 0 (by decide)]
    refine List.foldl_ext _ _ _ fun a m hm => ?_
    rw [hlay m (List.mem_range.1 hm)]
  rw [htw, hlp] at hhot
  have hvlim : limitOn v = true := by
    rw [limitOn, hvrails, hget, hvhubs, hmeasure.rails rfl, hmeasure.hubs rfl]
    exact hlim
  exact thermBrake_hot hn hvlim (by rw [hvstage, hmeasure.stage rfl]; exact hstage) ((dieOn_tower hn hvrails hvlost).trans hwon) hhot

end Sys2Proof.Machine
end

section
/-! The housekeeping round. -/

namespace Sys2Proof.Machine

/-! ## What the later parts of a round leave -/

/-- The last readings, the layers and the refresh rates are as before. -/
def RoundKept (s t : State) : Prop := t.therm.last = s.therm.last ∧ t.therm.lay = s.therm.lay ∧ t.refRate = s.refRate

theorem roundKept_refl (s : State) : RoundKept s s := ⟨rfl, rfl, rfl⟩

theorem roundKept_trans {s t u : State} (h : RoundKept s t) (k : RoundKept t u) : RoundKept s u := by
  obtain ⟨h1, h2, h3⟩ := h
  obtain ⟨k1, k2, k3⟩ := k
  exact ⟨k1.trans h1, k2.trans h2, k3.trans h3⟩

theorem roundKept_ite {c : Prop} [Decidable c] {u s t : State} (h : RoundKept u s) (k : RoundKept u t) :
    RoundKept u (if c then s else t) := by
  split
  · exact h
  · exact k

theorem roundKept_foldl {α : Type} {f : State → α → State} (hf : ∀ s a, RoundKept s (f s a)) (l : List α) (s : State) :
    RoundKept s (l.foldl f s) :=
  List.foldlRecOn l f (motive := fun t => RoundKept s t) (roundKept_refl s) fun _ ht a _ => roundKept_trans ht (hf _ a)

theorem Only.refRate {m : Nat} {s t : State} (h : Only m s t) (hm : m.testBit 15 = false) : t.refRate = s.refRate := by
  rw [← h, mix, hm, cond_false]

/-- What an operation that leaves the thermal block and the refresh rates may change. -/
def F.noThermal : Nat := 0x7FDFFFFFFFF7FFF

theorem roundKept_only {s t : State} (h : Only F.noThermal s t) : RoundKept s t := by
  rw [RoundKept, h.therm rfl, h.refRate rfl]
  exact ⟨rfl, rfl, rfl⟩

theorem roundKept_rupd (o : Nat) (f : Word → Word) (s : State) : RoundKept s (rupd o f s) :=
  roundKept_only (only_rupd (φ := F.noThermal) rfl (Only.refl _ _) _ _)

theorem roundKept_roundHub (h : Nat) (s : State) : RoundKept s (roundHub h s) := ⟨rfl, rfl, rfl⟩

theorem roundKept_roundPackages (rd : List (Nat × Rd)) (h : Nat) (s : State) : RoundKept s (roundPackages rd h s) :=
  roundKept_only (only_roundPackages (φ := F.noThermal) rfl (Only.refl _ _) _ _)

theorem roundKept_twThSet (n : Nat) (v : TwrTh) (s : State) : RoundKept s (twThSet n v s) := ⟨rfl, rfl, rfl⟩

theorem roundKept_coneStep (n : Nat) (s : State) : RoundKept s (coneStep n s) := by
  rw [coneStep]
  refine roundKept_trans (roundKept_twThSet n _ s) (roundKept_foldl (fun v thr => ?_) _ _)
  exact roundKept_ite (roundKept_trans (roundKept_twThSet n _ v)
    (roundKept_only (only_lifeRecord (φ := F.noThermal) rfl (Only.refl _ _) _ _))) (roundKept_refl v)

theorem roundKept_roundRegulators (s : State) : RoundKept s (roundRegulators s) := by
  rw [roundRegulators]
  have hset (x : NatSet) : RoundKept s { s with therm := { s.therm with regHot := x } } := ⟨rfl, rfl, rfl⟩
  exact roundKept_ite (roundKept_trans (hset _) (roundKept_rupd _ _ _)) (hset _)

theorem roundKept_roundEngines (s : State) : RoundKept s (roundEngines s) := by
  have hset (u : State) (x : NatSet) : RoundKept u { u with therm := { u.therm with oeHot := x } } := ⟨rfl, rfl, rfl⟩
  have hdown (e : Nat) (u : State) : RoundKept u (portErr e 0x0210 0 (portDown e 0 u)) :=
    roundKept_only (only_portErr (φ := F.noThermal) rfl (only_portDown (φ := F.noThermal) rfl (Only.refl _ _) _ _) _ _ _)
  have hup (e : Nat) (u : State) : RoundKept u (setPortState e 2 u) :=
    roundKept_only (only_setPortState (φ := F.noThermal) rfl (Only.refl _ _) _ _)
  rw [roundEngines, iter]
  refine roundKept_foldl (fun v e => ?_) _ s
  exact roundKept_ite (roundKept_refl v) (roundKept_ite (roundKept_ite (roundKept_ite (roundKept_trans (hset v _) (hup e _)) (hset v _))
    (roundKept_refl v)) (roundKept_ite (roundKept_trans (hset v _) (hdown e _)) (roundKept_refl v)))

theorem roundKept_coolWarn (s : State) : RoundKept s (coolWarn s) := by
  have hlogs := onlyLogs_coolRecord 2 (rupd (thmBase + 0x1C0) (fun w => wPut w 0 0 1) { s with therm := { s.therm with warn := true } })
  rw [RoundKept, coolWarn, therm_of_onlyLogs hlogs, refRate_of_onlyLogs hlogs, rupd_therm, rupd_refRate]
  exact ⟨rfl, rfl, rfl⟩

theorem roundKept_roundCoolant (rd : List (Nat × Rd)) (s : State) : RoundKept s (roundCoolant rd s) := by
  have hset (w : Word) : RoundKept s (rset (thmBase + 0x150) w (takeFree s).2) :=
    roundKept_only (only_rset (φ := F.noThermal) rfl (only_takeFree (φ := F.noThermal) rfl (Only.refl _ _)) _ _)
  have hflow (w : Word) : RoundKept s (match (rdAt rd 1059).bind rdVal with
      | some v => rupd (thmBase + 0x158) (fun w => wPut w 15 0 (min v.toNat 65535)) (rset (thmBase + 0x150) w (takeFree s).2)
      | _ => rset (thmBase + 0x150) w (takeFree s).2) := by
    split
    · exact roundKept_trans (hset w) (roundKept_rupd _ _ _)
    · exact hset w
  exact roundKept_ite (roundKept_trans (hflow _) (roundKept_coolWarn _)) (hflow _)

theorem roundKept_coarseCounters (s : State) : RoundKept s (coarseCounters s) := ⟨rfl, rfl, rfl⟩

/-! ## The towers' parts of a round -/

/-- Tower `n`'s layers and refresh rate, as before. -/
def RatesKept (n : Nat) (s t : State) : Prop :=
  (∀ m, m < 8 → layTh t n m = layTh s n m) ∧ stGet (fun _ => 0) t.refRate n = stGet (fun _ => 0) s.refRate n

theorem ratesKept_refl (n : Nat) (s : State) : RatesKept n s s := ⟨fun _ _ => rfl, rfl⟩

theorem ratesKept_trans {n : Nat} {s t u : State} (h : RatesKept n s t) (k : RatesKept n t u) : RatesKept n s u := by
  obtain ⟨h1, h2⟩ := h
  obtain ⟨k1, k2⟩ := k
  exact ⟨fun m hm => (k1 m hm).trans (h1 m hm), k2.trans h2⟩

/-- The readings of a round at layer `m` of tower `n` leave this record, before the layer may become suspect. -/
def readLayer (rd : List (Nat × Rd)) (n m : Nat) (s : State) : LayerTh :=
  let u := layTh s n m
  let sus := u.suspect || (List.range 4).any (fun d => chBroken s (chLay n m d))
  let good := ((List.range 4).filter (fun d => !chBroken s (chLay n m d))).map (fun d => chLast s (chLay n m d))
  let v := if sus || u.hot then 380 else good.foldl max (good.getD 0 0)
  let off := decide (5 ≤ s.stage) && !sus && (List.range 4).all (fun d => (rdAt rd (chLay n m d)).isSome) &&
    decide (8000000 < (v * 250000 - u.pred).natAbs)
  let u' : LayerTh :=
    { u with meas := v, base := (twTh s n).meas * 250000, suspect := sus, dis := if off then u.dis + 1 else 0 }
  { u' with pred := predictLayer n m u' (twTh s n).pred }

theorem roundLayer_eq (rd : List (Nat × Rd)) (n m : Nat) (s : State) :
    roundLayer rd n m s = if 10 ≤ (readLayer rd n m s).dis then suspectLayer n m 5 false (layThSet n m (readLayer rd n m s) s)
      else layThSet n m (readLayer rd n m s) s := rfl

theorem roundLayer_cases (rd : List (Nat × Rd)) (n m : Nat) (s : State) : ∃ v,
    roundLayer rd n m s = layThSet n m v s ∨ roundLayer rd n m s = suspectLayer n m 5 false (layThSet n m v s) := by
  refine ⟨readLayer rd n m s, ?_⟩
  rw [roundLayer_eq]
  split
  · exact .inr rfl
  · exact .inl rfl

theorem suspectLayer_last (n m bit : Nat) (hot : Bool) (s : State) : (suspectLayer n m bit hot s).therm.last = s.therm.last := by
  rw [suspectLayer, therm_of_onlyLogs (onlyLogs_logErr _ _), rupd_therm]
  rfl

theorem roundLayer_last (rd : List (Nat × Rd)) (n m : Nat) (s : State) : (roundLayer rd n m s).therm.last = s.therm.last := by
  obtain ⟨v, h | h⟩ := roundLayer_cases rd n m s
  · rw [h]
    rfl
  · rw [h, suspectLayer_last]
    rfl

theorem roundLayer_other (rd : List (Nat × Rd)) {n k m : Nat} (s : State) (hm : m < 8) (h : k ≠ n) :
    RatesKept n s (roundLayer rd k m s) := by
  obtain ⟨v, heq | heq⟩ := roundLayer_cases rd k m s
  · rw [heq]
    exact ⟨fun j hj => layTh_layThSet_other _ _ (by omega), rfl⟩
  · obtain ⟨_, hother, hrate⟩ := suspectLayer_effect k m 5 false (layThSet k m v s)
    rw [heq]
    refine ⟨fun j hj => ?_, ?_⟩
    · rw [hother _ _ (by omega)]
      exact layTh_layThSet_other _ _ (by omega)
    · rw [hrate]
      exact stGet_stSet_other _ _ _ (Ne.symm h)

theorem roundRefresh_other {n k : Nat} (s : State) (h : k ≠ n) : RatesKept n s (roundRefresh k s) :=
  ⟨fun _ _ => rfl, stGet_stSet_other _ _ _ (Ne.symm h)⟩

/-- A tower with a layer above 95 °C refreshes at the fastest rate. -/
def FastWhenHot (n : Nat) (s : State) : Prop :=
  (∃ m, m < 8 ∧ 380 < (layTh s n m).meas) → stGet (fun _ => 0) s.refRate n = 2

theorem fastWhenHot_of_ratesKept {n : Nat} {s t : State} (h : RatesKept n s t) (hs : FastWhenHot n s) : FastWhenHot n t := by
  obtain ⟨hlay, hrate⟩ := h
  rintro ⟨m, hm, hhot⟩
  rw [hrate]
  exact hs ⟨m, hm, hlay m hm ▸ hhot⟩

theorem roundRefresh_fast (n : Nat) (s : State) : FastWhenHot n (roundRefresh n s) := by
  rintro ⟨m, hm, hhot⟩
  have hlay : layTh (roundRefresh n s) n m = layTh s n m := rfl
  rw [hlay] at hhot
  have hmax : (layTh s n m).meas ≤ (List.range 8).foldl (fun a m => max a (layTh s n m).meas) (layTh s n 0).meas := by
    have hmap := List.foldl_map (f := fun m => (layTh s n m).meas) (g := max) (l := List.range 8) (init := (layTh s n 0).meas)
    rw [← hmap]
    obtain ⟨_, hall⟩ := le_foldl_max ((List.range 8).map fun m => (layTh s n m).meas) (layTh s n 0).meas
    exact hall _ (List.mem_map.2 ⟨m, List.mem_range.2 hm, rfl⟩)
  have hhottest : 380 < (List.range 8).foldl (fun a m => max a (layTh s n m).meas) (layTh s n 0).meas := by omega
  rw [roundRefresh]
  refine (stGet_stSet_same _ _ _ _).trans (if_pos ?_)
  simp only [Bool.or_eq_true, decide_eq_true_eq]
  exact .inl (.inr hhottest)

/-- A tower's part of the round. -/
def roundTower (rd : List (Nat × Rd)) (s : State) (n : Nat) : State := roundRefresh n (iter 8 (fun m s => roundLayer rd n m s) s)

theorem roundTower_other (rd : List (Nat × Rd)) {n k : Nat} (s : State) (h : k ≠ n) : RatesKept n s (roundTower rd s k) := by
  refine ratesKept_trans ?_ (roundRefresh_other _ h)
  rw [iter]
  exact List.foldlRecOn _ _ (motive := fun t => RatesKept n s t) (ratesKept_refl n s) fun v hv m hm =>
    ratesKept_trans hv (roundLayer_other rd v (List.mem_range.1 hm) h)

theorem roundRefresh_last (n : Nat) (s : State) : (roundRefresh n s).therm.last = s.therm.last := rfl

theorem roundTower_last (rd : List (Nat × Rd)) (s : State) (n : Nat) : (roundTower rd s n).therm.last = s.therm.last := by
  have hlayers : (iter 8 (fun m s => roundLayer rd n m s) s).therm.last = s.therm.last := by
    rw [iter]
    exact List.foldlRecOn _ _ (motive := fun t : State => t.therm.last = s.therm.last) rfl fun v hv m _ =>
      (roundLayer_last rd n m v).trans hv
  rw [roundTower, roundRefresh_last]
  exact hlayers

/-! ## The readings -/

/-- The diodes of the same layer that show a temperature too. -/
def otherDiodes (rd : List (Nat × Rd)) (ch : Nat) : List Int :=
  if 256 ≤ ch && ch < 768 then
    (List.range 4).filterMap (fun d =>
      let c := (ch - 256) / 4 * 4 + 256 + d
      if c = ch then none else (rdAt rd c).bind rdTemp)
  else []

/-- A reading is not to be trusted: the channel repeats its code, or its temperature cannot be. -/
def badReading (rd : List (Nat × Rd)) (ch : Nat) (v : Int) (s : State) : Bool :=
  stuckNow s ch || (chTemp ch && implausible v (otherDiodes rd ch))

theorem readChan_value {rd : List (Nat × Rd)} {ch : Nat} {v : Int} (stuck : List Nat) (s : State)
    (h : (rdAt rd ch).map rdVal = some (some v)) : readChan rd stuck ch s =
      noteSensor ch false (badReading rd ch v (noteCode ch (stuck.contains ch) s))
        (if badReading rd ch v (noteCode ch (stuck.contains ch) s) then noteCode ch (stuck.contains ch) s
          else setLast ch v (noteCode ch (stuck.contains ch) s)) := by
  rw [readChan, h]
  rfl

theorem readChan_other (rd : List (Nat × Rd)) (stuck : List Nat) {ch k : Nat} (s : State) (h : k ≠ ch) :
    ChanKept k s (readChan rd stuck ch s) := by
  have hnote (cut bad : Bool) (u : State) : ChanKept k u (noteSensor ch cut bad u) := by
    obtain ⟨hother, _⟩ := noteSensor_effect ch cut bad u
    exact hother k h
  have hset (v : Int) (bad : Bool) (u : State) : ChanKept k u (if bad then u else setLast ch v u) := by
    cases bad with
    | true => exact chanKept_refl k u
    | false => exact setLast_other _ _ h
  cases hrd : (rdAt rd ch).map rdVal with
  | none =>
    rw [readChan, hrd]
    exact chanKept_refl k s
  | some r =>
    cases r with
    | none =>
      rw [readChan, hrd]
      exact hnote _ _ _
    | some v =>
      rw [readChan_value stuck s hrd]
      exact chanKept_trans (chanKept_trans (noteCode_other _ s h) (hset v _ _)) (hnote _ _ _)

/-- A channel that shows no temperature and does not repeat its code is read. -/
theorem readChan_reads {rd : List (Nat × Rd)} {stuck : List Nat} {ch : Nat} {v : Int} (s : State)
    (hrd : rdAt rd ch = some (.val v)) (htemp : chTemp ch = false) (hstuck : ch ∉ stuck) : chLast (readChan rd stuck ch s) ch = v := by
  have hcontains : stuck.contains ch = false := by
    rw [List.contains_eq_mem, decide_eq_false hstuck]
  have hfree : stuckNow (noteCode ch (stuck.contains ch) s) ch = false := by
    have hsame : stGet (fun _ => SameSt.none) (noteCode ch (stuck.contains ch) s).therm.same ch =
        { n := 1, lo := guardPow s ch, hi := guardPow s ch } := by
      rw [hcontains]
      exact stGet_stSet_same (d := fun _ => SameSt.none) s.therm.same ch { n := 1, lo := guardPow s ch, hi := guardPow s ch }
    rw [stuckNow, hsame]
    simp
  have hgood : badReading rd ch v (noteCode ch (stuck.contains ch) s) = false := by
    rw [badReading, hfree, htemp, Bool.false_and, Bool.or_false]
  rw [readChan_value stuck s (by rw [hrd]; rfl), hgood, if_neg Bool.false_ne_true]
  obtain ⟨_, _, _, hrest⟩ := noteSensor_effect ch false false (setLast ch v (noteCode ch (stuck.contains ch) s))
  have hlast := congrArg ThermSt.last hrest
  dsimp only at hlast
  rw [chLast, hlast]
  exact stGet_stSet_same _ _ _ _

/-- The readings that a round takes. -/
def roundReadings (rd : List (Nat × Rd)) (s : State) : List (Nat × Rd) :=
  rd.filter (fun e => decide (256 ≤ e.1) && decide (e.1 < 1060) && chHere s e.1)

theorem rdAt_roundReadings (rd : List (Nat × Rd)) {s : State} {ch : Nat} (hlo : 256 ≤ ch) (hhi : ch < 1060) (hhere : chHere s ch = true) :
    rdAt (roundReadings rd s) ch = rdAt rd ch := by
  rw [rdAt, rdAt, roundReadings, List.find?_filter]
  congr 2
  funext e
  by_cases he : e.1 = ch
  · simp [he, hlo, hhi, hhere]
  · simp [he]

theorem round_reads {rd : List (Nat × Rd)} {stuck : List Nat} {ch : Nat} {v : Int} (s u : State) (hlo : 256 ≤ ch) (hhi : ch < 1060)
    (hhere : chHere s ch = true) (hrd : rdAt rd ch = some (.val v)) (htemp : chTemp ch = false) (hstuck : ch ∉ stuck) :
    chLast ((roundReadings rd s).foldl (fun t e => readChan (roundReadings rd s) stuck e.1 t) u) ch = v := by
  have hat := (rdAt_roundReadings rd hlo hhi hhere).trans hrd
  obtain ⟨e, he, _⟩ := Option.map_eq_some_iff.1 hat
  have hkey : e.1 = ch := by simpa using List.find?_some he
  refine foldl_reaches (P := fun t => chLast t ch = v) (f := fun t (e : Nat × Rd) => readChan (roundReadings rd s) stuck e.1 t)
    (List.mem_of_find?_eq_some he) (fun t => ?_) (fun t b _ ht => ?_) u
  · rw [hkey]
    exact readChan_reads t hat htemp hstuck
  · by_cases hb : b.1 = ch
    · rw [hb]
      exact readChan_reads t hat htemp hstuck
    · obtain ⟨_, _, _, hlast⟩ := readChan_other (roundReadings rd s) stuck t (Ne.symm hb)
      rw [hlast, ht]

/-! ## The round -/

theorem housekeepingRound_reads (rd : List (Nat × Rd)) (stuck : List Nat) {s : State} (hstage : 3 ≤ s.stage) :
    ∃ t, exec (.housekeepingRound rd stuck) s = .next t ∧
      (∀ ch v, 256 ≤ ch → ch < 1060 → chHere s ch = true → rdAt rd ch = some (.val v) → chTemp ch = false → ch ∉ stuck →
        chLast t ch = v) ∧
      (∀ n, n < 16 → dieOn s n = true → (∃ m, m < 8 ∧ 380 < (layTh t n m).meas) →
        stGet (fun _ => 0) t.refRate n = 2) := by
  obtain ⟨s1, h1⟩ : ∃ s1, s1 = (roundReadings rd s).foldl (fun t e => readChan (roundReadings rd s) stuck e.1 t) s := ⟨_, rfl⟩
  obtain ⟨s2, h2⟩ : ∃ s2, s2 = ((List.range 16).filter (dieOn s1)).foldl (fun t n => roundTower (roundReadings rd s) t n) s1 :=
    ⟨_, rfl⟩
  obtain ⟨s3, h3⟩ : ∃ s3, s3 = ((List.range 4).filter (fun h => !hubAbsent s2 h)).foldl
    (fun t h => roundHub h (roundPackages (roundReadings rd s) h t)) s2 := ⟨_, rfl⟩
  obtain ⟨s4, h4⟩ : ∃ s4, s4 = ((List.range 16).filter (dieOn s3)).foldl (fun t n => coneStep n t) s3 := ⟨_, rfl⟩
  have hexec : exec (.housekeepingRound rd stuck) s =
      .next (coarseCounters (roundCoolant (roundReadings rd s) (roundEngines (roundRegulators s4)))) := by
    rw [exec, execHousekeepingRound, if_neg (by omega), h4, h3, h2, h1]
    rfl
  have hrest : RoundKept s2 (coarseCounters (roundCoolant (roundReadings rd s) (roundEngines (roundRegulators s4)))) := by
    have h23 : RoundKept s2 s3 := h3 ▸ roundKept_foldl (fun v h => roundKept_trans (roundKept_roundPackages _ h v)
      (roundKept_roundHub h _)) _ _
    have h34 : RoundKept s3 s4 := h4 ▸ roundKept_foldl (fun v n => roundKept_coneStep n v) _ _
    exact roundKept_trans h23 (roundKept_trans h34 (roundKept_trans (roundKept_roundRegulators _)
      (roundKept_trans (roundKept_roundEngines _) (roundKept_trans (roundKept_roundCoolant _ _) (roundKept_coarseCounters _)))))
  obtain ⟨hlast, hlay, hrate⟩ := hrest
  refine ⟨_, hexec, fun ch v hlo hhi hhere hrd htemp hstuck => ?_, fun n hn hon => ?_⟩
  · have h12 : s2.therm.last = s1.therm.last := by
      rw [h2]
      exact List.foldlRecOn _ _ (motive := fun t : State => t.therm.last = s1.therm.last) rfl fun v hv n _ =>
        (roundTower_last _ v n).trans hv
    rw [chLast, hlast, h12, h1]
    exact round_reads s s hlo hhi hhere hrd htemp hstuck
  · have hs1 : dieOn s1 n = true := by
      have honly : Only (F.logs ||| F.therm) s s1 := by
        rw [h1]
        exact only_foldl (φ := F.logs ||| F.therm) (fun _ _ h => only_readChan (φ := F.logs ||| F.therm) rfl h _ _ _) (Only.refl _ _)
      exact (dieOn_of_only hn honly rfl rfl).trans hon
    have hfast : FastWhenHot n s2 := by
      rw [h2]
      refine foldl_reaches (List.mem_filter.2 ⟨List.mem_range.2 hn, hs1⟩) (fun t => roundRefresh_fast n _) (fun t k _ ht => ?_) s1
      by_cases hk : k = n
      · rw [hk]
        exact roundRefresh_fast n _
      · exact fastWhenHot_of_ratesKept (roundTower_other _ t hk) ht
    exact fastWhenHot_of_ratesKept ⟨fun m _ => by rw [layTh, hlay, layTh], by rw [hrate]⟩ hfast

end Sys2Proof.Machine

open Sys2Proof.Machine

/-- Settles O59: each tower and each channel is seen through a view that the others' parts of a round keep. -/
theorem thermal : Obligations.Thermal := by
  unfold Obligations.Thermal
  refine ⟨fun rd stuck s => ⟨_, by rw [exec, execHotspotSample], fun n hn hon hlen => hotspotSample_shows rd stuck s hn hon hlen⟩,
    fun pk tw s hlim hstage => ⟨_, exec_powerLoopTick hlim, fun n hn hon => ?_⟩,
    fun rd stuck s => ⟨fun h => by rw [exec, execHousekeepingRound, if_pos h], housekeepingRound_reads rd stuck⟩,
    fun n layer src temp s hvaux hkiln hlayer hlogic => ⟨_, kilnSitter_trips hvaux hkiln hlayer hlogic, ?_⟩,
    fun w s => ⟨kilnLastClear_clears s, fun h => by rw [exec, execKilnLastClear, writeKilnLast, if_neg (by simp [h])]⟩,
    fun col fail s => canaryCheck_fails col fail, fun n s => rthWindow_ends n, fun s => coolWarn_repeats,
    fun freq noEdge s => flowLost_enters freq noEdge, fun freq s => flowPresent_returns freq, fun ages => edgeFreq_gate,
    fun a b l => edgeFreq_interval⟩
  · obtain ⟨⟨hhot, hlayers⟩, hbrake⟩ := powerLoop_predicts pk (metered tw s) tw.hub hn hlim hstage hon
    exact ⟨hhot, hlayers, hbrake⟩
  · refine kilnTrip_effect layer temp s n.isLt src.isLt fun h => ?_
    obtain ⟨_, hsrc, _⟩ := hlogic h
    exact hsrc
end

section
/-! What a directory engine does to the state, one access at a time (R192, R193): it reads and writes the cluster SRAM of its shards,
draws a free number and changes its partition's directory, and nothing else. A property that each of these keeps is kept by every
operation of the engine. -/

namespace Sys2Proof.Machine

/-- The state `t` is reached from `s` by accesses of directory engines. -/
inductive Moves (s : State) : State → Prop
  | start : Moves s s
  | read (k b : Nat) {t : State} (h : Moves s t) : Moves s (csRead k b (csCount k 1 none t)).2
  | write (k b off : Nat) (v : List Byte) {t : State} (h : Moves s t) : Moves s (csWriteIn k b off v (csCount k 1 none t))
  | block (k b : Nat) (v : List Byte) {t : State} (h : Moves s t) : Moves s (csWrite k b v (csCount k 1 none t))
  | draw {t : State} (h : Moves s t) : Moves s (takeFree t).2
  | dir (p : Nat) (d : DirSt) {t : State} (h : Moves s t) : Moves s (pupd p (fun q => { q with dir := some d }) t)

/-- An operation of a directory engine that succeeds is made of such accesses. -/
def EngMoves {α : Type} (e : Eng α) : Prop := ∀ u s a t, Moves u s → e.run s = .ok (a, t) → Moves u t

section
variable {α β : Type}

theorem engMoves_pure (a : α) : EngMoves (pure a) := fun u s _ t h e => by
  have e := congrArg (Except.map Prod.snd) e
  have : s = t := Except.ok.inj e
  rwa [← this]

theorem engMoves_fail (st : Nat) : EngMoves (engFail st : Eng α) := fun _ _ _ _ _ e => by
  simp [engFail, throw, throwThe, MonadExceptOf.throw, StateT.run, StateT.lift, bind, Except.bind] at e

theorem engMoves_bind {e : Eng α} {f : α → Eng β} (he : EngMoves e) (hf : ∀ a, EngMoves (f a)) : EngMoves (e >>= f) :=
  fun u s b t h hrun => by
    rw [StateT.run_bind] at hrun
    cases hr : e.run s with
    | error st =>
      rw [hr] at hrun
      cases hrun
    | ok x =>
      obtain ⟨a, v⟩ := x
      rw [hr] at hrun
      exact hf a u v b t (he u s a v h hr) hrun

theorem engMoves_get {f : State → Eng β} (hf : ∀ s, EngMoves (f s)) : EngMoves (get >>= f) := fun u s b t h e => hf s u s b t h e

theorem engMoves_modify {f : State → State} (hf : ∀ u s, Moves u s → Moves u (f s)) : EngMoves (modify f) := fun u s _ t h e => by
  have e := congrArg (Except.map Prod.snd) e
  have : f s = t := Except.ok.inj e
  rw [← this]
  exact hf u s h

theorem engMoves_ite {c : Prop} [Decidable c] {e f : Eng α} (he : EngMoves e) (hf : EngMoves f) : EngMoves (if c then e else f) := by
  split
  · exact he
  · exact hf

theorem engMoves_map {f : α → Eng β} (hf : ∀ a, EngMoves (f a)) : ∀ l, EngMoves (engMap f l)
  | [] => engMoves_pure _
  | _ :: r => engMoves_bind (hf _) fun _ => engMoves_bind (engMoves_map hf r) fun _ => engMoves_pure _

theorem engMoves_each {f : α → Eng Unit} (hf : ∀ a, EngMoves (f a)) : ∀ l, EngMoves (engEach f l)
  | [] => engMoves_pure _
  | _ :: r => engMoves_bind (hf _) fun _ => engMoves_each hf r

/-- Whether its operation succeeds or not, an engine makes such accesses alone. -/
theorem moves_engRun {e : Eng Unit} (he : EngMoves e) (s : State) : Moves s (engRun e s) := by
  unfold engRun
  split
  · next hr => exact he s s _ _ .start hr
  · exact .start

end

/-! ## Reading a directory -/

/-- A read that ends either way: the engine goes on from the state after it, or stops. -/
theorem engMoves_read {α : Type} (k b : Nat) (f : List Byte → Eng α) (hf : ∀ d, EngMoves (f d)) :
    EngMoves (get >>= fun s => match (csRead k b (csCount k 1 none s)).1 with
      | some d => (do set (csRead k b (csCount k 1 none s)).2; f d)
      | none => engFail 0x0503) := fun u s a t h e => by
  have hstep : (match (csRead k b (csCount k 1 none s)).1 with
      | some d => (do set (csRead k b (csCount k 1 none s)).2; f d : Eng α)
      | none => engFail 0x0503).run s = .ok (a, t) := e
  cases hd : (csRead k b (csCount k 1 none s)).1 with
  | none =>
    rw [hd] at hstep
    exact engMoves_fail _ u s a t h hstep
  | some d =>
    rw [hd] at hstep
    exact hf d u _ a t (h.read k b) hstep

theorem engMoves_dRd (k off n : Nat) : EngMoves (dRd k off n) := engMoves_read k (off / 64) _ fun _ => engMoves_pure _

theorem engMoves_dRdBlk (k b : Nat) : EngMoves (dRdBlk k b) := engMoves_read k b _ fun _ => engMoves_pure _

theorem engMoves_theDir (p : Nat) : EngMoves (theDir p) := engMoves_get fun _ => by
  split
  · exact engMoves_pure _
  · exact engMoves_fail _

theorem engMoves_readHeads (d : DirSt) (k : Nat) : EngMoves (readHeads d k) :=
  engMoves_map (fun _ => engMoves_bind (engMoves_dRd _ _ _) fun _ => engMoves_pure _) _

theorem engMoves_editCtx (p : Nat) : EngMoves (editCtx p) :=
  engMoves_bind (engMoves_theDir p) fun _ => engMoves_get fun s => by
    dsimp only
    split
    · exact engMoves_fail _
    · exact engMoves_bind (engMoves_bind (engMoves_readHeads _ _) fun _ => engMoves_pure _) fun _ => engMoves_pure _

theorem engMoves_bldPtr (d : DirSt) (k i : Nat) : EngMoves (bldPtr d k i) :=
  engMoves_ite (engMoves_pure _) (engMoves_dRd _ _ _)

theorem engMoves_ptrIn (k b slot : Nat) : EngMoves (ptrIn k b slot) := engMoves_ite (engMoves_pure _) (engMoves_dRd _ _ _)

theorem engMoves_listBlk (k desc i j : Nat) : EngMoves (listBlk k desc i j) :=
  engMoves_bind (engMoves_ptrIn _ _ _) fun _ => engMoves_bind (engMoves_ptrIn _ _ _) fun _ => engMoves_ptrIn _ _ _

theorem engMoves_getBld (p i : Nat) (x : EditCtx) (lh b : Nat) : EngMoves (getBld p i x lh b) :=
  engMoves_bind (engMoves_theDir p) fun _ => engMoves_bind (engMoves_bldPtr _ _ _) fun _ =>
    engMoves_bind (engMoves_listBlk _ _ _ _) fun _ => engMoves_ite (engMoves_pure _) (engMoves_dRd _ _ _)

theorem engMoves_bldSeqs (p : Nat) : EngMoves (bldSeqs p) :=
  engMoves_bind (engMoves_editCtx p) fun _ =>
    engMoves_bind (engMoves_map (fun _ => engMoves_bind (engMoves_bldPtr _ _ _) fun _ => engMoves_pure _) _) fun _ => engMoves_pure _

theorem engMoves_entriesWith (p i : Nat) (x : EditCtx) (f : Nat → Bool) : EngMoves (entriesWith p i x f) :=
  engMoves_bind (engMoves_map (fun _ => by
    split
    · exact engMoves_pure _
    · exact engMoves_bind (engMoves_map (fun _ => engMoves_bind (engMoves_getBld _ _ _ _ _) fun _ => engMoves_pure _) _)
        fun _ => engMoves_pure _) _) fun _ => engMoves_pure _

theorem engMoves_placesWith (p : Nat) (x : EditCtx) (f : Nat → Bool) : EngMoves (placesWith p x f) :=
  engMoves_bind (engMoves_bldSeqs p) fun _ =>
    engMoves_bind (engMoves_map (fun _ => engMoves_bind (engMoves_entriesWith _ _ _ _) fun _ => engMoves_pure _) _) fun _ =>
      engMoves_pure _

/-! ## Changing a directory -/

theorem engMoves_dWr (k off n v : Nat) : EngMoves (dWr k off n v) := engMoves_modify fun _ _ h => h.write _ _ _ _

theorem engMoves_dWrBlk (k b : Nat) (d : List Byte) : EngMoves (dWrBlk k b d) := engMoves_modify fun _ _ h => h.block _ _ _

theorem engMoves_updDir (p : Nat) (f : DirSt → DirSt) : EngMoves (updDir p f) :=
  engMoves_bind (engMoves_theDir p) fun _ => engMoves_modify fun _ _ h => h.dir p _

theorem engMoves_bmPut (k off i : Nat) (v : Bool) : EngMoves (bmPut k off i v) :=
  engMoves_bind (engMoves_dRd _ _ _) fun _ => engMoves_dWr _ _ _ _

theorem engMoves_bmFree (k off n : Nat) : ∀ m, EngMoves (bmFree k off n m)
  | 0 => engMoves_pure _
  | m + 1 => engMoves_bind (engMoves_dRdBlk _ _) fun _ => engMoves_bind (engMoves_bmFree k off n m) fun _ => engMoves_pure _

theorem engMoves_pickFree (l : List Nat) : EngMoves (pickFree l) := by
  unfold pickFree
  split
  · exact engMoves_fail _
  · exact engMoves_pure _
  · exact fun u s a t h e => engMoves_pure _ u (takeFree s).2 a t h.draw e

theorem engMoves_allocBlk (p k : Nat) : EngMoves (allocBlk p k) :=
  engMoves_bind (engMoves_theDir p) fun _ => engMoves_bind (engMoves_bmFree _ _ _ _) fun _ =>
    engMoves_bind (engMoves_pickFree _) fun _ => engMoves_bind (engMoves_bmPut _ _ _ _) fun _ =>
      engMoves_bind (engMoves_dWrBlk _ _ _) fun _ => engMoves_bind (engMoves_updDir p _) fun _ => engMoves_pure _

theorem engMoves_ownBlk (p k b : Nat) : EngMoves (ownBlk p k b) :=
  engMoves_bind (engMoves_theDir p) fun _ => engMoves_ite (engMoves_allocBlk p k) (engMoves_ite (engMoves_pure _)
    (engMoves_bind (engMoves_dRdBlk _ _) fun _ => engMoves_bind (engMoves_allocBlk p k) fun _ =>
      engMoves_bind (engMoves_dWrBlk _ _ _) fun _ => engMoves_bind (engMoves_updDir p _) fun _ => engMoves_pure _))

theorem engMoves_ownAt (p k b slot : Nat) : EngMoves (ownAt p k b slot) :=
  engMoves_bind (engMoves_ptrIn _ _ _) fun _ => engMoves_bind (engMoves_ownBlk p k _) fun _ =>
    engMoves_ite (engMoves_bind (engMoves_dWr _ _ _ _) fun _ => engMoves_pure _) (engMoves_pure _)

theorem engMoves_setPtr (p k i v : Nat) : EngMoves (setPtr p k i v) :=
  engMoves_bind (engMoves_theDir p) fun _ =>
    engMoves_ite (engMoves_bind (engMoves_dWr _ _ _ _) fun _ => engMoves_updDir p _) (engMoves_updDir p _)

theorem engMoves_ownDesc (p k i : Nat) : EngMoves (ownDesc p k i) :=
  engMoves_bind (engMoves_theDir p) fun _ => engMoves_bind (engMoves_bldPtr _ _ _) fun _ => engMoves_bind (engMoves_ownBlk p k _) fun _ =>
    engMoves_ite (engMoves_bind (engMoves_setPtr p k i _) fun _ => engMoves_pure _) (engMoves_pure _)

theorem engMoves_setBld (p i : Nat) (x : EditCtx) (lh b v : Nat) : EngMoves (setBld p i x lh b v) :=
  engMoves_bind (engMoves_ownDesc _ _ _) fun _ => engMoves_bind (engMoves_ownAt _ _ _ _) fun _ =>
    engMoves_bind (engMoves_ownAt _ _ _ _) fun _ => engMoves_bind (engMoves_ownAt _ _ _ _) fun _ => engMoves_dWr _ _ _ _

theorem engMoves_allDescs (p k i : Nat) : EngMoves (allDescs p k i) :=
  engMoves_bind (engMoves_theDir p) fun _ => engMoves_bind (engMoves_dRd _ _ _) fun _ => engMoves_bind (engMoves_dRd _ _ _) fun _ =>
    engMoves_bind (engMoves_bldPtr _ _ _) fun _ => engMoves_pure _

theorem engMoves_pteAll (p i : Nat) (x : EditCtx) (lh blk : Nat) (same : Nat → Bool) (f : Nat → Nat) :
    EngMoves (pteAll p i x lh blk same f) :=
  engMoves_bind (engMoves_allDescs _ _ _) fun _ => engMoves_bind (engMoves_map (fun _ => engMoves_listBlk _ _ _ _) _) fun _ =>
    engMoves_each (fun _ => engMoves_ite (engMoves_pure _) (engMoves_bind (engMoves_dRd _ _ _) fun _ =>
      engMoves_ite (engMoves_dWr _ _ _ _) (engMoves_pure _))) _

theorem engMoves_dropEntry (p k e : Nat) : EngMoves (dropEntry p k e) := engMoves_ite (engMoves_updDir p _) (engMoves_pure _)

theorem engMoves_losePage (p i : Nat) (x : EditCtx) (lh blk : Nat) : EngMoves (losePage p i x lh blk) :=
  engMoves_bind (engMoves_getBld _ _ _ _ _) fun _ => engMoves_bind (engMoves_theDir p) fun _ =>
    engMoves_ite (engMoves_bind (engMoves_dropEntry _ _ _) fun _ =>
      engMoves_ite (engMoves_pteAll _ _ _ _ _ _ _) (engMoves_setBld _ _ _ _ _ _)) (engMoves_pure _)

theorem engMoves_loseWhere (p : Nat) (f : Nat → Bool) : EngMoves (loseWhere p f) :=
  engMoves_bind (engMoves_editCtx p) fun _ => engMoves_bind (engMoves_placesWith _ _ _) fun _ =>
    engMoves_bind (engMoves_each (fun _ => engMoves_losePage _ _ _ _ _) _) fun _ => engMoves_updDir p _

end Sys2Proof.Machine
end

section
/-! What the error log and a broken stream leave of the hubs. -/

namespace Sys2Proof.Machine

/-! ## The hubs' presence -/

/-- What a hub is, apart from its error log: whether it is present, keeps its data, and which packets wait for it. -/
structure HubMark where
  lost : Bool
  kept : Bool
  pkts : List Nat

/-- The mark of a hub's record. -/
def HubSt.mark (u : HubSt) : HubMark := { lost := u.lost, kept := u.kept, pkts := u.pkts }

/-- Every hub is as present as before, an absent hub's record, H0's aside, is as before, and so are the first 256 KiB of each 4 MiB of
registers. -/
structure HubSteady (s t : State) : Prop where
  mark : ∀ h, (hget t h).mark = (hget s h).mark
  gone : ∀ h, h ≠ 0 → (hget s h).lost = true → hget t h = hget s h
  regs : ∀ o, 0x10100 ≤ o → o < 0x10000000 → 0 < o % 0x400000 → o % 0x400000 < 0x40000 → rget t o = rget s o

theorem hubSteady_refl (s : State) : HubSteady s s := ⟨fun _ => rfl, fun _ _ _ => rfl, fun _ _ _ _ _ => rfl⟩

theorem hubSteady_trans {s t u : State} (h : HubSteady s t) (k : HubSteady t u) : HubSteady s u := by
  obtain ⟨hmark, hgone, hregs⟩ := h
  obtain ⟨kmark, kgone, kregs⟩ := k
  refine ⟨fun a => (kmark a).trans (hmark a), fun a ha hlost => ?_, fun o h1 h2 h3 h4 => (kregs o h1 h2 h3 h4).trans (hregs o h1 h2 h3 h4)⟩
  have hsame := hgone a ha hlost
  exact (kgone a ha (by rw [hsame, hlost])).trans hsame

theorem hubSteady_of_hubs {s t : State} (hhubs : t.hubs = s.hubs)
    (hregs : ∀ o, 0x10100 ≤ o → o < 0x10000000 → 0 < o % 0x400000 → o % 0x400000 < 0x40000 → rget t o = rget s o) : HubSteady s t :=
  ⟨fun h => by rw [hget, hget, hhubs], fun h _ _ => by rw [hget, hget, hhubs], hregs⟩

theorem hubSteady_only {φ : Nat} {s t : State} (h : Only φ s t) (hhubs : φ.testBit 23 = false) (hregs : φ.testBit 1 = false) :
    HubSteady s t := hubSteady_of_hubs (h.hubs hhubs) fun _ _ _ _ _ => by rw [rget, rget, h.regs hregs]

theorem hubSteady_ite {c : Prop} [Decidable c] {u s t : State} (h : HubSteady u s) (k : HubSteady u t) :
    HubSteady u (if c then s else t) := by
  split
  · exact h
  · exact k

theorem hubSteady_foldl {α : Type} {f : State → α → State} (hf : ∀ s a, HubSteady s (f s a)) (l : List α) (s : State) :
    HubSteady s (l.foldl f s) :=
  List.foldlRecOn l f (motive := fun t => HubSteady s t) (hubSteady_refl s) fun _ ht a _ => hubSteady_trans ht (hf _ a)

/-- A register among the first 256 bytes, or in the upper part of 4 MiB, is none of those that stay. -/
theorem hubSteady_rset {o : Nat} (w : Word) (s : State) (ho : o < 0x10100 ∨ o % 0x400000 = 0 ∨ 0x40000 ≤ o % 0x400000) :
    HubSteady s (rset o w s) := hubSteady_of_hubs rfl fun _ _ _ _ _ => rget_rset_other _ _ (by omega)

theorem hubSteady_rupd {o : Nat} (f : Word → Word) (s : State) (ho : o < 0x10100 ∨ o % 0x400000 = 0 ∨ 0x40000 ≤ o % 0x400000) :
    HubSteady s (rupd o f s) := hubSteady_rset _ s ho

theorem hubSteady_hset {h : Nat} {v : HubSt} (s : State) (hmark : v.mark = (hget s h).mark) (hgone : h = 0 ∨ (hget s h).lost = false) :
    HubSteady s (hset h v s) := by
  refine ⟨fun a => ?_, fun a ha hlost => ?_, fun _ _ _ _ _ => rfl⟩
  · by_cases he : a = h
    · rw [he, hget_hset_same, hmark]
    · rw [hget_hset_other _ _ he]
  · refine hget_hset_other _ _ fun he => ?_
    rw [he] at ha hlost
    rcases hgone with h0 | hup
    · exact ha h0
    · exact Bool.false_ne_true (hup.symm.trans hlost)

theorem lost_of_hubSteady {s t : State} (h : HubSteady s t) (a : Nat) : (hget t a).lost = (hget s a).lost := by
  obtain ⟨hmark, _, _⟩ := h
  exact congrArg HubMark.lost (hmark a)

theorem hubAbsent_of_hubSteady {s t : State} (h : HubSteady s t) (a : Nat) : hubAbsent t a = hubAbsent s a := lost_of_hubSteady h a

theorem pkts_of_hubSteady {s t : State} (h : HubSteady s t) (a : Nat) : (hget t a).pkts = (hget s a).pkts := by
  obtain ⟨hmark, _, _⟩ := h
  exact congrArg HubMark.pkts (hmark a)

/-! ## The error log -/

theorem logInto_mark (e : ErrEv) (ns : Nat) (u : HubSt) : (logInto e ns u).1.mark = u.mark := by
  unfold logInto
  dsimp only
  split
  · rfl
  · split
    · rfl
    · split
      · rfl
      · split
        · rfl
        · split
          · rfl
          · rfl

/-- What an operation that leaves the hubs' records and the registers may change. -/
def F.noHubs : Nat := 0x7FFFFFFFF7FFFFD

theorem hubSteady_sendMsix (fn vec : Nat) (s : State) : HubSteady s (sendMsix fn vec s) :=
  hubSteady_of_hubs ((only_sendMsix (φ := F.regs ||| F.hostOut) rfl (Only.refl _ _) _ _).hubs rfl) fun o hlo hhi _ _ => by
    obtain ⟨hregs, _⟩ := onlyLogs_sendMsix fn vec s
    exact hregs o (.inr ⟨hlo, hhi⟩)

theorem hubSteady_partEvent (p cls code seq h : Nat) (s : State) : HubSteady s (partEvent p cls code seq h s) :=
  hubSteady_of_hubs ((only_partEvent (φ := F.regs ||| F.hostOut ||| F.telem ||| F.fab) rfl (Only.refl _ _) _ _ _ _ _).hubs rfl)
    fun o hlo hhi _ _ => by
      obtain ⟨hregs, _⟩ := onlyLogs_partEvent p cls code seq h s
      exact hregs o (.inr ⟨hlo, hhi⟩)

theorem hubSteady_hubSignal {h : Nat} (s : State) (hgone : h = 0 ∨ (hget s h).lost = false) : HubSteady s (hubSignal h s) := by
  have hset (v : HubSt) (hv : v.mark = (hget s h).mark) : HubSteady s (hset h v s) := hubSteady_hset s hv hgone
  unfold hubSignal
  refine hubSteady_ite ?_ (hset _ rfl)
  refine hubSteady_trans ?_ (hubSteady_sendMsix _ _ _)
  exact hset _ rfl

theorem hubSteady_errNotice {e : ErrEv} (s : State) (hgone : e.hub = 0 ∨ (hget s e.hub).lost = false) :
    HubSteady s (errNotice e s) := by
  have hcount (b : Bool) : HubSteady s (tallyHub e.hub 0x0540 1 none (if b then hubSignal e.hub s else s)) :=
    hubSteady_trans (hubSteady_ite (hubSteady_hubSignal s hgone) (hubSteady_refl s))
      (hubSteady_only (only_tallyHub (φ := F.noHubs) rfl (Only.refl _ _) _ _ _ _) rfl rfl)
  unfold errNotice
  dsimp only
  split
  · exact hubSteady_trans (hcount _) (hubSteady_partEvent _ _ _ _ _ _)
  · exact hcount _

/-- The error log changes no hub's presence: what an absent hub would record, H0 records (R405). -/
theorem hubSteady_logErr (e : ErrEv) (s : State) : HubSteady s (logErr e s) := by
  have hnote (e : ErrEv) (hgone : e.hub = 0 ∨ (hget s e.hub).lost = false) :
      HubSteady s (errNotice e (hset e.hub (logInto e s.ns (hget s e.hub)).1 s)) := by
    have hset := hubSteady_hset s (logInto_mark e s.ns (hget s e.hub)) hgone
    exact hubSteady_trans hset (hubSteady_errNotice _ (hgone.imp_right (lost_of_hubSteady hset e.hub).trans))
  have hlive : (if (hget s e.hub).lost = true then { e with hub := 0 } else e).hub = 0 ∨
      (hget s (if (hget s e.hub).lost = true then { e with hub := 0 } else e).hub).lost = false := by
    split
    · exact .inl rfl
    · next h => exact .inr (Bool.eq_false_iff.2 h)
  unfold logErr
  dsimp only
  generalize (if (hget s e.hub).lost = true then { e with hub := 0 } else e) = e' at hlive
  exact hubSteady_ite (hubSteady_trans (hnote _ (.inl rfl)) (hubSteady_only (only_enterFatal (φ := F.noHubs) rfl (Only.refl _ _)) rfl rfl))
    (hnote e' hlive)

/-! ## Cluster SRAM and streams -/

theorem hubSteady_cluUpd {c o : Nat} (f : Word → Word) (s : State) (ho : o < 0x1000) : HubSteady s (cluUpd c o f s) :=
  hubSteady_rupd f s (.inr (.inr (by rw [cluBase, towerBase]; omega)))

theorem hubSteady_csRead (c b : Nat) (s : State) : HubSteady s (csRead c b s).2 := by
  have hcount (f : Word → Word) : HubSteady s (cluUpd c 0x4 f s) := hubSteady_cluUpd f s (by decide)
  unfold csRead
  split
  · exact hcount fun w => wSatAdd w 7 0 1
  · split
    · exact hubSteady_refl s
    · exact hubSteady_trans (hcount fun w => wSatAdd w 31 16 1) (hubSteady_logErr _ _)
    · exact hubSteady_refl s
    · exact hubSteady_trans (hcount fun w => wSatAdd w 15 8 1) (hubSteady_logErr _ _)

theorem hubSteady_csCount (c port : Nat) (tx : Option Tx) (s : State) : HubSteady s (csCount c port tx s) :=
  hubSteady_only (only_csCount (φ := F.noHubs) rfl (Only.refl _ _) _ _ _) rfl rfl

theorem hubSteady_csStore (c b : Nat) (d chk : List Byte) (s : State) : HubSteady s (csStore c b d chk s) :=
  hubSteady_only (only_csStore (φ := F.noHubs) rfl (Only.refl _ _) _ _ _ _) rfl rfl

theorem hubSteady_csWriteIn (c b off : Nat) (v : List Byte) (s : State) : HubSteady s (csWriteIn c b off v s) := by
  unfold csWriteIn
  refine hubSteady_ite (hubSteady_csStore _ _ _ _ _) (hubSteady_ite (hubSteady_csStore _ _ _ _ _) ?_)
  dsimp only
  split
  · exact hubSteady_trans (hubSteady_csRead c b s) (hubSteady_csStore _ _ _ _ _)
  · exact hubSteady_trans (hubSteady_csRead c b s) (hubSteady_csStore _ _ _ _ _)

theorem hubSteady_csWriteFrom (c n off : Nat) (v : List Byte) (s : State) : HubSteady s (csWriteFrom c n off v s) := by
  induction n generalizing off v s with
  | zero => exact hubSteady_refl s
  | succ n ih =>
    cases v with
    | nil => exact hubSteady_refl s
    | cons b v => exact hubSteady_trans (hubSteady_csWriteIn _ _ _ _ _) (ih _ _ _)

theorem hubSteady_csReadBlocks (c : Nat) (l : List Nat) (s : State) : HubSteady s (csReadBlocks c l s).2 := by
  induction l generalizing s with
  | nil => exact hubSteady_refl s
  | cons b l ih => exact hubSteady_trans (hubSteady_csRead c b s) (ih _)

theorem hubSteady_csReadBytes (c off n : Nat) (s : State) : HubSteady s (csReadBytes c off n s).2 := by
  unfold csReadBytes
  split
  · exact hubSteady_refl s
  · dsimp only
    split
    · exact hubSteady_csReadBlocks _ _ s
    · exact hubSteady_csReadBlocks _ _ s

theorem hubSteady_agentRefuse (k i : Nat) (r : Nat × Nat) (s : State) : HubSteady s (agentRefuse k i r s) := by
  have hcount : HubSteady s (countRaw (.sram k 0) r.2 s) := hubSteady_ite (hubSteady_cluUpd _ s (by decide)) (hubSteady_refl s)
  unfold agentRefuse
  exact hubSteady_ite (hubSteady_refl s) (hubSteady_trans hcount
    (hubSteady_only (only_hubRefused (φ := F.noHubs) rfl (Only.refl _ _) _ _ _) rfl rfl))

theorem hubSteady_strmWord (k i w : Nat) (s : State) : HubSteady s (strmWord k i w s).2 := by
  unfold strmWord
  dsimp only
  split
  · exact hubSteady_refl s
  · split
    · exact hubSteady_agentRefuse _ _ _ s
    · exact hubSteady_csReadBytes _ _ _ s

theorem hubSteady_strmPut (k i w v : Nat) (s : State) : HubSteady s (strmPut k i w v s) := by
  unfold strmPut
  refine hubSteady_ite (hubSteady_refl s) ?_
  split
  · exact hubSteady_agentRefuse _ _ _ s
  · exact hubSteady_csWriteFrom _ _ _ _ s

theorem hubSteady_strmFail (k i status : Nat) (s : State) : HubSteady s (strmFail k i status s) := by
  unfold strmFail
  refine hubSteady_ite (hubSteady_refl s) ?_
  dsimp only
  exact hubSteady_trans (hubSteady_strmWord k i 2 s) (hubSteady_strmPut _ _ _ _ _)

theorem hubSteady_refusePut (head : List Byte) (cls src status : Nat) (s : State) : HubSteady s (refusePut head cls src status s) := by
  unfold refusePut
  refine hubSteady_ite (hubSteady_refl s) (hubSteady_ite ?_
    (hubSteady_only (only_streamNote (φ := F.noHubs) rfl (Only.refl _ _) _ _ _ _ _) rfl rfl))
  split
  · exact hubSteady_strmFail _ _ _ s
  · exact hubSteady_refl s

/-! ## A hub's ports -/

theorem fportKey_upper (p : Nat) {o : Nat} (ho : o < 0x100) : 0x40000 ≤ fportKey p o % 0x400000 := by
  rw [fportKey, hubBase]
  omega

theorem hubSteady_dropMsg (p : Nat) (head : List Byte) (cls src : Nat) (s : State) : HubSteady s (dropMsg p head cls src s) :=
  hubSteady_trans (hubSteady_rupd _ s (.inr (.inr (fportKey_upper p (o := 4) (by decide))))) (hubSteady_refusePut _ _ _ _ _)

theorem hubBase_mod (h : Nat) : hubBase h % 0x400000 = 0 := by
  rw [hubBase]
  omega

theorem hubSteady_publishPort (p : Nat) (s : State) : HubSteady s (publishPort p s) := by
  unfold publishPort
  refine hubSteady_trans ?_ (hubSteady_rupd _ _ (.inr (.inl (hubBase_mod _))))
  exact hubSteady_rupd _ s (.inl (by decide))

theorem hubSteady_setPortState (p st : Nat) (s : State) : HubSteady s (setPortState p st s) := by
  unfold setPortState
  refine hubSteady_trans ?_ (hubSteady_publishPort _ _)
  exact hubSteady_rupd _ s (.inr (.inr (fportKey_upper p (o := 0) (by decide))))

theorem hubSteady_portDown (p st : Nat) (s : State) : HubSteady s (portDown p st s) := by
  unfold portDown
  refine hubSteady_trans ?_ (hubSteady_only (only_portRestart (φ := F.noHubs) rfl (Only.refl _ _) _) rfl rfl)
  exact hubSteady_trans (hubSteady_setPortState p st s) (hubSteady_foldl (fun _ _ => hubSteady_dropMsg _ _ _ _ _) _ _)

theorem hubSteady_portsGone (h : Nat) (s : State) : HubSteady s (portsGone h s) := by
  have hfab (f : FabSt) (u : State) : HubSteady u { u with fab := f } := hubSteady_of_hubs rfl fun _ _ _ _ _ => rfl
  rw [portsGone, iter]
  refine hubSteady_foldl (fun u j => ?_) _ s
  refine hubSteady_trans ?_ (hfab _ _)
  refine hubSteady_trans ?_ (hubSteady_rset _ _ (.inr (.inr (fportKey_upper _ (o := 0) (by decide)))))
  exact hubSteady_portDown _ _ _

/-! ## Directory engines -/

theorem hubSteady_moves {s t : State} (h : Moves s t) : HubSteady s t := by
  induction h with
  | start => exact hubSteady_refl s
  | read k b _ ih => exact hubSteady_trans ih (hubSteady_trans (hubSteady_csCount _ _ _ _) (hubSteady_csRead _ _ _))
  | write k b off v _ ih => exact hubSteady_trans ih (hubSteady_trans (hubSteady_csCount _ _ _ _) (hubSteady_csWriteIn _ _ _ _ _))
  | block k b v _ ih => exact hubSteady_trans ih (hubSteady_trans (hubSteady_csCount _ _ _ _) (hubSteady_csStore _ _ _ _ _))
  | draw _ ih => exact hubSteady_trans ih (hubSteady_only (only_takeFree (φ := F.noHubs) rfl (Only.refl _ _)) rfl rfl)
  | dir p d _ ih => exact hubSteady_trans ih (hubSteady_of_hubs rfl fun _ _ _ _ _ => rfl)

end Sys2Proof.Machine
end

section
/-! Lost towers and hubs, and their return. -/

namespace Sys2Proof.Machine

/-! ## A tower lost (R410) -/

theorem mapChange_map (m : LogMap) (s : State) : (mapChange m s).map = m := by
  obtain ⟨u, hu⟩ : ∃ u : State, u = { s with map := m, net := { s.net with oldMaps := s.net.oldMaps ++ [s.map] } } := ⟨_, rfl⟩
  have hshown : Only F.regs u (mapChange m s) := by
    rw [mapChange, ← hu]
    exact only_rupd (φ := F.regs) rfl (only_publishMap (φ := F.regs) rfl (Only.refl _ _)) _ _
  rw [hshown.map rfl, hu]

/-- What an operation that leaves the lost towers may change. -/
def F.noLostTw : Nat := 0x7FFFFFFFFEFFFFF

/-- What an operation that leaves the lost towers and the logical map may change. -/
def F.noMap : Nat := 0x7FFFFFFF7EFFFFF

theorem twLog_eq_none {s : State} {n : Nat} : twLog s n = none ↔ stGet (fun _ => 0) s.map.tw n = 0 := by
  rw [twLog]
  split <;> simp_all

theorem isSome_twLog {s : State} {n : Nat} : (twLog s n).isSome = true ↔ stGet (fun _ => 0) s.map.tw n ≠ 0 := by
  rw [Option.isSome_iff_ne_none, Ne, twLog_eq_none]

/-- The effects of tower `n`'s loss before the map changes, for the partitions `ps` that had cores in it. -/
def towerLeft (n : Nat) (ps : List Nat) (s : State) : State :=
  ps.foldl (fun s p => faultPart p s) (ps.foldl (fun s p => tdiError p s)
    (iter 272 (fun i s => breakBarriers (272 * n + i) s) (fenceRemote n (fenceTxs n { s with lostTw := nsAdd s.lostTw n }))))

/-- The tower is held in reset, the map changes, and the loss is recorded. -/
def towerUnmapped (n : Nat) (ps : List Nat) (s : State) : State := lossRecords n ps (mapChange (mapNoTower n s.map) (towerHold n s))

/-- The tower's manager is marked stopped. -/
def towerStopped (n : Nat) (s : State) : State := rupd (towerBase n + 0x20) (fun w => wPut w 7 7 1) s

theorem loseTower_eq (n : Nat) (s : State) : loseTower n s = if nsHas s.lostTw n then s else
    towerUnmapped n (towerParts (towerStopped n s) n) (towerLeft n (towerParts (towerStopped n s) n) (towerStopped n s)) := rfl

theorem towerLeft_kept (n : Nat) (ps : List Nat) (s : State) :
    (towerLeft n ps s).lostTw = nsAdd s.lostTw n ∧ (towerLeft n ps s).map = s.map := by
  have hkept : Only F.noMap { s with lostTw := nsAdd s.lostTw n } (towerLeft n ps s) :=
    only_foldl (φ := F.noMap) (fun _ _ h => only_faultPart (φ := F.noMap) rfl h _)
      (only_foldl (φ := F.noMap) (fun _ _ h => only_tdiError (φ := F.noMap) rfl h _)
        (only_iter (φ := F.noMap) (fun _ _ h => only_breakBarriers (φ := F.noMap) rfl h _)
          (only_fenceRemote (φ := F.noMap) rfl (only_fenceTxs (φ := F.noMap) rfl (Only.refl _ _) _) _)))
  exact ⟨hkept.lostTw rfl, hkept.map rfl⟩

/-- The tower's record in the map, its clusters and its cores are gone; the others' are as before. -/
theorem loseTower_effect {n : Nat} {s : State} (hlost : nsHas s.lostTw n = false) :
    nsHas (loseTower n s).lostTw n = true ∧ (loseTower n s).map = mapNoTower n s.map := by
  obtain ⟨u, hu⟩ : ∃ u, u = towerStopped n s := ⟨_, rfl⟩
  have heq := (loseTower_eq n s).trans (if_neg (by rw [hlost]; exact Bool.false_ne_true))
  have hstopped : Only F.regs s u := hu ▸ only_rupd (φ := F.regs) rfl (Only.refl _ _) _ _
  rw [← hu] at heq
  generalize towerParts u n = ps at heq
  obtain ⟨hlostTw, hmap⟩ := towerLeft_kept n ps u
  obtain ⟨v, hv⟩ : ∃ v, v = towerLeft n ps u := ⟨_, rfl⟩
  rw [← hv] at heq hlostTw hmap
  have hrecords : Only F.logs (mapChange (mapNoTower n v.map) (towerHold n v)) (loseTower n s) := by
    rw [heq]
    exact only_lossRecords (φ := F.logs) rfl (Only.refl _ _) _ _
  have hchange : Only F.noLostTw v (mapChange (mapNoTower n v.map) (towerHold n v)) :=
    only_mapChange (φ := F.noLostTw) rfl (only_towerHold (φ := F.noLostTw) rfl (Only.refl _ _) _) _
  refine ⟨?_, ?_⟩
  · rw [hrecords.lostTw rfl, hchange.lostTw rfl, hlostTw, nsHas_nsAdd, beq_self_eq_true, Bool.true_or]
  · rw [hrecords.map rfl, mapChange_map, hmap, hstopped.map rfl]

theorem towerManagerWatchdog_loses {n : Fin 16} {s : State} (hon : dieOn s n = true) (hlog : (twLog s n).isSome = true) :
    ∃ t, exec (.towerManagerWatchdog n) s = .next t ∧ t = loseTower n s ∧ nsHas t.lostTw n = true ∧ twLog t n = none ∧
      (∀ m, m ≠ n.val → twLog t m = twLog s m) := by
  have hlost : nsHas s.lostTw n = false := by
    rw [dieOn, if_pos n.isLt] at hon
    simp only [Bool.and_eq_true, Bool.not_eq_true'] at hon
    exact hon.2
  obtain ⟨hhas, hmap⟩ := loseTower_effect hlost
  refine ⟨_, ?_, rfl, hhas, ?_, fun m hm => ?_⟩
  · rw [exec, execTowerManagerWatchdog, hon, hlog, Bool.and_self, if_pos rfl]
  · rw [twLog_eq_none, hmap]
    exact stGet_stDel_same _ _ _
  · have hsame : stGet (fun _ => 0) (mapNoTower n s.map).tw m = stGet (fun _ => 0) s.map.tw m := stGet_stDel_other _ _ hm
    rw [twLog, twLog, hmap, hsame]

/-! ## A tower's return (R414) -/

theorem mapTower_tw (s : State) (n t : Nat) (m : LogMap) : (mapTower s n t m).tw = stSet (fun _ => 0) m.tw n (t + 1) := by
  unfold mapTower
  refine List.foldlRecOn _ _ (motive := fun x : LogMap => x.tw = stSet (fun _ => 0) m.tw n (t + 1)) rfl fun x hx e _ => ?_
  exact List.foldlRecOn _ _ (motive := fun x : LogMap => x.tw = stSet (fun _ => 0) m.tw n (t + 1)) hx fun y hy _ _ => hy

theorem twLog_of_only {φ : Nat} {s t : State} (h : Only φ s t) (hφ : φ.testBit 27 = false) (n : Nat) : twLog t n = twLog s n := by
  rw [twLog, twLog, h.map hφ]

/-- The end of a rejoin: the tower returns to the map at number `t` where its tests left it usable. -/
def rejoinEnd (n t : Nat) (lost : Bool) (id : Word) (s : State) : State × Bool :=
  if !towerUsable s n then (if lost then rset (towerBase n) id { s with lostTw := nsAdd s.lostTw n } else s, false)
  else
    (logErr { hub := homeHub n, code := 0x0303, part := none, source := srcTower n, engine := 0, logical := 0, addr := 0, detail := 0 }
      (if lost then mapChange (mapWith s n t) s else rupd 0x10 (fun w => wPut w 4 0 (t + 1)) (mapChange (mapWith s n t) s)), true)

theorem dieRejoin_eq (n : Nat) (f : TestFind) (s : State) : ∃ v,
    dieRejoin n f s = rejoinEnd n (rejoinNum s n (nsHas s.lostTw n)) (nsHas s.lostTw n) (rget s (towerBase n)) v := ⟨_, rfl⟩

theorem rejoinEnd_mapped {n t : Nat} {lost : Bool} {id : Word} {s : State} (h : (rejoinEnd n t lost id s).2 = true) :
    (twLog (rejoinEnd n t lost id s).1 n).isSome = true := by
  by_cases husable : towerUsable s n = true
  · have hmapped : (twLog (mapChange (mapWith s n t) s) n).isSome = true := by
      rw [isSome_twLog, mapChange_map, mapWith, if_pos husable, mapTower_tw, stGet_stSet_same]
      omega
    have hnumber (f : Word → Word) : (twLog (rupd 0x10 f (mapChange (mapWith s n t) s)) n).isSome = true := by
      rwa [twLog_of_only (only_rupd (φ := F.regs) rfl (Only.refl _ _) 0x10 f) rfl]
    rw [rejoinEnd, if_neg (by rw [husable]; decide)]
    dsimp only
    refine (congrArg Option.isSome (twLog_of_only (only_logErr (φ := F.logs) rfl (Only.refl _ _) _) rfl n)).trans ?_
    cases lost with
    | true =>
      rw [if_pos rfl]
      exact hmapped
    | false =>
      rw [if_neg Bool.false_ne_true]
      exact hnumber _
  · rw [rejoinEnd, if_pos (by simpa using husable)] at h
    exact absurd h Bool.false_ne_true

/-- A tower that passes its tests is in the map again. -/
theorem dieRejoin_mapped {n : Nat} {f : TestFind} {s : State} (h : (dieRejoin n f s).2 = true) :
    (twLog (dieRejoin n f s).1 n).isSome = true := by
  obtain ⟨v, hv⟩ := dieRejoin_eq n f s
  rw [hv] at h ⊢
  exact rejoinEnd_mapped h

/-! ## A hub lost (R411, R412) -/

theorem mpWatchdog_fatal {s : State} (h0 : hubAbsent s 0 = false) : ∃ t, exec (.mpWatchdog 0) s = .next t ∧ t.fatal = true ∧
    t.faultN = true ∧ t.t1 = s.t1 ∧ t.t2 = s.t2 ∧ t.map = s.map := by
  have hkept := only_enterFatal (φ := F.cores ||| F.cols ||| F.fatal ||| F.faultN) rfl (Only.refl _ s)
  obtain ⟨hfatal, hfault⟩ := enterFatal_flags s
  refine ⟨enterFatal s, ?_, hfatal, hfault, hkept.t1 rfl, hkept.t2 rfl, hkept.map rfl⟩
  rw [exec, execMpWatchdog]
  exact congrArg Host.Outcome.next ((if_neg (by rw [Fin.val_zero, h0]; exact Bool.false_ne_true)).trans (if_pos rfl))

/-- What hub `h` still holds when it is lost, and its new record. -/
def hubGone (h : Nat) (kept : Bool) (s : State) : State :=
  if kept then hset h { hget s h with lost := true, kept := true } (rupd (hubBase h + 0x20) (fun w => wPut w 7 7 1) s)
  else hset h { HubSt.reset with lost := true } (rupd (hubBase h + 0x20) (fun w => wPut w 7 7 1) s)

/-- The hub's contexts, jobs, queues and transactions end with it. -/
def hubWorkGone (h : Nat) (s : State) : State :=
  let s := { s with
    fab := { s.fab with ctxs := s.fab.ctxs.filter (fun x => x.hub != h) }
    mnt := { s.mnt with jobs := s.mnt.jobs.map (fun (j : MntJob) => if j.hub = h && j.state ≤ 1 then { j with state := 4 } else j) }
    t2q := s.t2q.filter (fun e => e.1 / 12 != h) }
  { s with net := { s.net with txs := s.net.txs.map (fun (t : NetTx) =>
    if t.slot ≠ 0 && t.st ≠ 6 && 30000 ≤ t.key && t2Hub t.off = h then
      { t with st := 6, entry := 0, status := 0x0502, resp := none } else t) } }

/-- H0 shows which hubs are lost. -/
def hubMarked (h : Nat) (s : State) : State := publishHubs (rupd (hubBase 0) (fun w => wPut w (1 + h) (1 + h) 1) s)

/-- The end of a hub's loss: its work goes, H0 shows it and records how many open records went with it. -/
def hubLossEnds (h n : Nat) (s : State) : State :=
  logErr { hub := 0, code := 0x0302, part := none, source := srcIndex 1 h, engine := 0, logical := 0, addr := 0, detail := n }
    (hubMarked h (hubWorkGone h s))

theorem hubLossEnds_eq (h n : Nat) (s : State) : hubLossEnds h n s =
    let s := { s with
      fab := { s.fab with ctxs := s.fab.ctxs.filter (fun x => x.hub != h) }
      mnt := { s.mnt with jobs := s.mnt.jobs.map (fun (j : MntJob) => if j.hub = h && j.state ≤ 1 then { j with state := 4 } else j) }
      t2q := s.t2q.filter (fun e => e.1 / 12 != h) }
    let s := { s with net := { s.net with txs := s.net.txs.map (fun (t : NetTx) =>
      if t.slot ≠ 0 && t.st ≠ 6 && 30000 ≤ t.key && t2Hub t.off = h then
        { t with st := 6, entry := 0, status := 0x0502, resp := none } else t) } }
    let s := publishHubs (rupd (hubBase 0) (fun w => wPut w (1 + h) (1 + h) 1) s)
    logErr { hub := 0, code := 0x0302, part := none, source := srcIndex 1 h, engine := 0, logical := 0, addr := 0,
             detail := n } s := rfl

theorem loseHub_eq (h : Nat) (kept : Bool) (s : State) : ∃ n, loseHub h kept s = if hubAbsent s h then s else
    hubLossEnds h n (rupd (hubBase h) (fun w => wPut w 15 6 0) (portsGone h (hubGone h kept s))) := by
  refine ⟨((hget s h).log.filter (fun e => (e.2.cls == 1 || e.2.cls == 2) && e.2.st != 3)).length, ?_⟩
  unfold loseHub
  extract_lets u n s1 v s2 s3 s4
  have hgone : s2 = hubGone h kept s := rfl
  rw [← hgone]
  have hports : s3 = rupd (hubBase h) (fun w => wPut w 15 6 0) (portsGone h s2) := rfl
  rw [← hports]
  exact if_congr Iff.rfl rfl (hubLossEnds_eq h _ s3).symm

theorem loseHub_of_absent {h : Nat} (kept : Bool) {s : State} (hgone : hubAbsent s h = true) : loseHub h kept s = s := by
  obtain ⟨n, heq⟩ := loseHub_eq h kept s
  rw [heq, if_pos hgone]

theorem loseHub_of_present {h : Nat} (kept : Bool) {s : State} (hup : hubAbsent s h = false) : ∃ n, loseHub h kept s =
    hubLossEnds h n (rupd (hubBase h) (fun w => wPut w 15 6 0) (portsGone h (hubGone h kept s))) := by
  obtain ⟨n, heq⟩ := loseHub_eq h kept s
  exact ⟨n, by rw [heq, if_neg (by rw [hup]; exact Bool.false_ne_true)]⟩

theorem hubSteady_loseHub {h : Nat} (kept : Bool) {s : State} (hup : hubAbsent s h = false) :
    HubSteady (hubGone h kept s) (loseHub h kept s) := by
  obtain ⟨n, heq⟩ := loseHub_of_present kept hup
  have hwork (u : State) : HubSteady u (hubWorkGone h u) := hubSteady_of_hubs rfl fun _ _ _ _ _ => rfl
  have hmarked (u : State) : HubSteady u (hubMarked h u) := by
    rw [hubMarked, publishHubs]
    refine hubSteady_trans ?_ (hubSteady_rupd _ _ (.inl (by decide)))
    exact hubSteady_rupd _ u (.inr (.inl (hubBase_mod 0)))
  rw [heq, hubLossEnds]
  refine hubSteady_trans ?_ (hubSteady_logErr _ _)
  refine hubSteady_trans ?_ (hmarked _)
  refine hubSteady_trans ?_ (hwork _)
  refine hubSteady_trans ?_ (hubSteady_rupd _ _ (.inr (.inl (hubBase_mod h))))
  exact hubSteady_portsGone _ _

theorem hubAbsent_hubGone (h : Nat) (kept : Bool) (s : State) : hubAbsent (hubGone h kept s) h = true := by
  cases kept with
  | true => rw [hubGone, if_pos rfl, hubAbsent, hget_hset_same]
  | false => rw [hubGone, if_neg Bool.false_ne_true, hubAbsent, hget_hset_same]

theorem loseHub_absent (h : Nat) (kept : Bool) (s : State) : hubAbsent (loseHub h kept s) h = true := by
  cases hup : hubAbsent s h with
  | true => rw [loseHub_of_absent kept hup, hup]
  | false => rw [hubAbsent_of_hubSteady (hubSteady_loseHub kept hup), hubAbsent_hubGone]

/-- The hub's own status, and H0's: it is absent (R412). -/
theorem loseHub_shown {h : Nat} (kept : Bool) {s : State} (hh : h < 4) (hup : hubAbsent s h = false) :
    wBit (rget (loseHub h kept s) (hubBase h + 0x20)) 7 = true ∧ wBit (rget (loseHub h kept s) (hubBase 0)) (1 + h) = true := by
  refine ⟨?_, ?_⟩
  · obtain ⟨_, _, hregs⟩ := hubSteady_loseHub kept hup
    have hgone : rget (hubGone h kept s) (hubBase h + 0x20) = wPut (rget s (hubBase h + 0x20)) 7 7 1 := by
      cases kept with
      | true => rw [hubGone, if_pos rfl, rget_hset, rupd, rget_rset_same]
      | false => rw [hubGone, if_neg Bool.false_ne_true, rget_hset, rupd, rget_rset_same]
    have hbase : hubBase h = 0x9000000 + h * 0x400000 := rfl
    rw [hregs _ (by omega) (by omega) (by omega) (by omega), hgone, wBit_wPut _ _ _ (by decide) (by decide), if_pos ⟨le_rfl, le_rfl⟩]
    rfl
  · obtain ⟨n, heq⟩ := loseHub_of_present kept hup
    obtain ⟨v, hv⟩ : ∃ v, v = rupd (hubBase h) (fun w => wPut w 15 6 0) (portsGone h (hubGone h kept s)) := ⟨_, rfl⟩
    obtain ⟨e, he⟩ : ∃ e, hubLossEnds h n v = logErr e (hubMarked h (hubWorkGone h v)) := ⟨_, rfl⟩
    obtain ⟨hregs, _⟩ := onlyLogs_logErr e (hubMarked h (hubWorkGone h v))
    rw [heq, ← hv, he, hregs _ (.inr (by decide)), hubMarked, publishHubs, rupd, rget_rset_other _ _ (by decide), rupd, rget_rset_same,
      wBit_wPut _ _ _ (by omega) le_rfl, if_pos ⟨le_rfl, le_rfl⟩, Nat.sub_self]
    rfl

theorem mpWatchdog_loses {h : Fin 4} {s : State} (hh : h ≠ 0) (hup : hubAbsent s h = false) : ∃ t, exec (.mpWatchdog h) s = .next t ∧
    hubAbsent t h = true ∧ wBit (rget t (hubBase h + 0x20)) 7 = true ∧ wBit (rget t (hubBase 0)) (1 + h.val) = true := by
  obtain ⟨hown, hzero⟩ := loseHub_shown false h.isLt hup
  refine ⟨loseHub h false s, ?_, loseHub_absent _ _ _, hown, hzero⟩
  rw [exec, execMpWatchdog]
  exact congrArg Host.Outcome.next ((if_neg (by rw [hup]; exact Bool.false_ne_true)).trans (if_neg hh))

/-! ## HUB_RESET (R320, R413) -/

theorem hubReset_zero {k : Pkt} {w : Fin 128} {s : State}
    (hadm : admitted w 0x0505 (fun b => payAt b 0 1 / 4 != 0 || payNZ b 1 7) k s) (h0 : payAt k.bytes 0 1 = 0) :
    exec (.hubReset w) s = .next (complete k.id 0x0107 0 0 (startPkt k s)) := by
  rw [exec, execHubReset, runCmd_admitted hadm]
  exact congrArg Host.Outcome.next (if_pos h0)

/-- HUB_RESET takes a hub away, and its packet waits for the hub. -/
def hubTaken (h id : Nat) (s : State) : State :=
  let s := loseHub h true s
  hset h { hget s h with pkts := (hget s h).pkts ++ [id] } s

/-- A hub that HUB_RESET takes keeps its data and its error log; the packet waits for it. -/
theorem hubTaken_effect {h : Nat} (id : Nat) (s : State) (h0 : h ≠ 0) : hubAbsent (hubTaken h id s) h = true ∧
    (hget (hubTaken h id s) h).pkts = (hget s h).pkts ++ [id] ∧
    (hubAbsent s h = false → (hget (hubTaken h id s) h).kept = true ∧ (hget (hubTaken h id s) h).log = (hget s h).log) ∧
    (hubTaken h id s).t2 = s.t2 := by
  have ht2 : (loseHub h true s).t2 = s.t2 :=
    (only_loseHub (φ := F.srams ||| F.mnt ||| F.net ||| F.t2q) rfl (Only.refl _ s) h true).t2 rfl
  have hrec : hget (hubTaken h id s) h = { hget (loseHub h true s) h with pkts := (hget (loseHub h true s) h).pkts ++ [id] } := hget_hset_same _ _ _
  have hkept (hup : hubAbsent s h = false) : hget (loseHub h true s) h = { hget s h with lost := true, kept := true } := by
    obtain ⟨_, hgone, _⟩ := hubSteady_loseHub true hup
    rw [hgone h h0 (hubAbsent_hubGone h true s), hubGone, if_pos rfl, hget_hset_same]
  refine ⟨?_, ?_, fun hup => ?_, ht2⟩
  · rw [hubAbsent, hrec]
    exact loseHub_absent h true s
  · rw [hrec]
    cases hup : hubAbsent s h with
    | true => rw [loseHub_of_absent true hup]
    | false => rw [hkept hup]
  · rw [hrec, hkept hup]
    exact ⟨rfl, rfl⟩

theorem hubReset_takes {k : Pkt} {w : Fin 128} {s : State}
    (hadm : admitted w 0x0505 (fun b => payAt b 0 1 / 4 != 0 || payNZ b 1 7) k s) (h0 : payAt k.bytes 0 1 ≠ 0) :
    ∃ t, exec (.hubReset w) s = .next t ∧ hubAbsent t (payAt k.bytes 0 1) = true ∧
      (hget t (payAt k.bytes 0 1)).pkts = (hget s (payAt k.bytes 0 1)).pkts ++ [k.id] ∧
      (hubAbsent s (payAt k.bytes 0 1) = false → (hget t (payAt k.bytes 0 1)).kept = true ∧
        (hget t (payAt k.bytes 0 1)).log = (hget s (payAt k.bytes 0 1)).log) ∧ t.t2 = s.t2 := by
  refine ⟨hubTaken (payAt k.bytes 0 1) k.id (startPkt k s), ?_, hubTaken_effect k.id (startPkt k s) h0⟩
  rw [exec, execHubReset, runCmd_admitted hadm]
  exact congrArg Host.Outcome.next (if_neg h0)

/-! ## A hub's return (R413) -/

/-- A returning hub's registers and counters are at reset; its record is that of a present hub. -/
def hubBack (h : Nat) (s : State) : State :=
  hset h (if (hget s h).kept then { hget s h with lost := false, kept := false, pkts := [] } else HubSt.reset)
    { s with regs := stDrop s.regs (hubBase h) 0x400000, ctrs := stDrop s.ctrs (38912 + 32 * h) 32,
             frozen := nsDel s.frozen (16 + h)
             mnt := { s.mnt with kinds := stDrop s.mnt.kinds (64 * h) 64 }
             net := { s.net with hubStat := stDel s.net.hubStat h, hubBnd := stDel s.net.hubBnd h } }

/-- Its optical engines are found, and its ports trained. -/
def hubPorts (h : Nat) (eng : List EngineFind) (s : State) : State :=
  iter 4 (fun j s =>
    let f := listAt eng j { id := 0, qualified := true, ucie := 0, tx := 0, rx := 0 }
    let p := 4 * h + j
    let s := rset (fportKey p 0) (BitVec.ofNat 32 (portWord f)) (rset (fportKey p 8) f.id s)
    grantAll p 32 (publishPort p { s with
      boot := { s.boot with oeHeld := if f.qualified then nsDel s.boot.oeHeld p else nsAdd s.boot.oeHeld p }
      fab := { s.fab with ports := stSet (fun _ => FPort.reset) s.fab.ports p (FPort.trained f) } })) s

/-- Its registers show what start-up found of its packages and ports. -/
def hubShown (h : Nat) (eng : List EngineFind) (s : State) : State :=
  let s := publishHubs (rupd (hubBase 0) (fun w => wPut w (1 + h) (1 + h) 0) s)
  hubPorts h eng (rupd (hubBase h) (fun w =>
    wPut w 15 10 (sumNat ((List.range 6).map (fun i => if nsHas s.boot.pkgBad (6 * h + i) then 0 else 2 ^ i)))) s)

/-- The pages of its quarter are lost. -/
def quarterLost (h : Nat) (s : State) : State :=
  scrambleQuarter h ((s.parts.map Prod.fst).foldl (fun s p => engRun (loseWhere p (inQuarter h)) s) s)

theorem hubRejoin_eq (h : Nat) (eng : List EngineFind) (s : State) : ∃ e, hubRejoin h eng s =
    (hget s h).pkts.foldl (fun s id => complete id 0 0 0 s)
      (logErr e (if (hget s h).kept then hubShown h eng (hubBack h s) else quarterLost h (hubShown h eng (hubBack h s)))) := ⟨_, rfl⟩

/-- Every hub's mark is as before. -/
def HubMarks (s t : State) : Prop := ∀ h, (hget t h).mark = (hget s h).mark

theorem hubMarks_trans {s t u : State} (h : HubMarks s t) (k : HubMarks t u) : HubMarks s u := fun a => (k a).trans (h a)

theorem hubMarks_of_steady {s t : State} (h : HubSteady s t) : HubMarks s t := by
  obtain ⟨hmark, _, _⟩ := h
  exact hmark

theorem hubMarks_of_hubs {s t : State} (h : t.hubs = s.hubs) : HubMarks s t := fun a => by rw [hget, hget, h]

theorem hubMarks_foldl {α : Type} {f : State → α → State} (hf : ∀ s a, HubMarks s (f s a)) (l : List α) (s : State) :
    HubMarks s (l.foldl f s) :=
  List.foldlRecOn l f (motive := fun t => HubMarks s t) (fun _ => rfl) fun _ ht a _ => hubMarks_trans ht (hf _ a)

theorem hubMarks_complete (id status result detail : Nat) (s : State) : HubMarks s (complete id status result detail s) :=
  hubMarks_of_hubs ((only_complete (φ := F.regs ||| F.wins ||| F.hostOut) rfl (Only.refl _ _) _ _ _ _).hubs rfl)

/-- What the registers and ports of a returning hub may change. -/
def F.hubPorts : Nat := F.regs ||| F.ctrs ||| F.boot ||| F.fab

theorem only_hubShown (h : Nat) (eng : List EngineFind) (s : State) : Only F.hubPorts s (hubShown h eng s) := by
  have hrecord (b : BootSt) (f : FabSt) (u : State) : Only F.hubPorts u { u with boot := b, fab := f } :=
    only_with (a := F.boot ||| F.fab) rfl rfl (Only.refl _ _)
  have hports (u : State) : Only F.hubPorts u (hubPorts h eng u) := by
    rw [hubPorts]
    refine only_iter (φ := F.hubPorts) (fun j v hv => ?_) (Only.refl _ _)
    refine only_grantAll (φ := F.hubPorts) rfl (only_publishPort (φ := F.hubPorts) rfl (Only.trans ?_ (hrecord _ _ _)) _) _ _
    exact only_rset (φ := F.hubPorts) rfl (only_rset (φ := F.hubPorts) rfl hv _ _) _ _
  rw [hubShown]
  refine Only.trans ?_ (hports _)
  refine only_rupd (φ := F.hubPorts) rfl (only_publishHubs (φ := F.hubPorts) rfl ?_) _ _
  exact only_rupd (φ := F.hubPorts) rfl (Only.refl _ _) _ _

theorem hubMarks_quarterLost (h : Nat) (s : State) : HubMarks s (quarterLost h s) :=
  hubMarks_trans (hubMarks_foldl (fun u p => hubMarks_of_steady (hubSteady_moves (moves_engRun (engMoves_loseWhere _ _) u))) _ s)
    (hubMarks_of_hubs ((only_scrambleQuarter (φ := F.t2 ||| F.fresh) rfl (Only.refl _ _) _).hubs rfl))

theorem hubBack_mark (h : Nat) (s : State) : (hget (hubBack h s) h).mark = { lost := false, kept := false, pkts := [] } := by
  rw [hubBack, hget_hset_same]
  split <;> rfl

/-- A hub that has returned is present, and its packets have completed. -/
theorem hubRejoin_mark (h : Nat) (eng : List EngineFind) (s : State) :
    (hget (hubRejoin h eng s) h).mark = { lost := false, kept := false, pkts := [] } := by
  obtain ⟨e, heq⟩ := hubRejoin_eq h eng s
  have hshown : HubMarks (hubBack h s) (hubShown h eng (hubBack h s)) := hubMarks_of_hubs ((only_hubShown h eng _).hubs rfl)
  have hdata : HubMarks (hubBack h s)
      (if (hget s h).kept then hubShown h eng (hubBack h s) else quarterLost h (hubShown h eng (hubBack h s))) := by
    split
    · exact hshown
    · exact hubMarks_trans hshown (hubMarks_quarterLost h _)
  have hall := hubMarks_trans (hubMarks_trans hdata (hubMarks_of_steady (hubSteady_logErr e _)))
    (hubMarks_foldl (fun u id => hubMarks_complete id 0 0 0 u) (hget s h).pkts _)
  rw [heq, hall h, hubBack_mark]

theorem hubRejoin_t2 {h : Nat} (eng : List EngineFind) {s : State} (hkept : (hget s h).kept = true) : (hubRejoin h eng s).t2 = s.t2 := by
  obtain ⟨e, heq⟩ := hubRejoin_eq h eng s
  have hends : Only (F.logs ||| F.wins) (hubShown h eng (hubBack h s)) (hubRejoin h eng s) := by
    rw [heq, if_pos hkept]
    exact only_foldl (φ := F.logs ||| F.wins) (fun _ _ hv => only_complete (φ := F.logs ||| F.wins) rfl hv _ _ _ _)
      (only_logErr (φ := F.logs ||| F.wins) rfl (Only.refl _ _) _)
  rw [hends.t2 rfl, (only_hubShown h eng _).t2 rfl]
  rfl

theorem hubRejoin_returns {h : Fin 4} (eng : List EngineFind) {s : State} (hgone : hubAbsent s h = true) (hpkts : (hget s h).pkts ≠ [])
    (hrail : nsHas s.pwr.rails h = true) : ∃ t, exec (.hubRejoin h eng) s = .next t ∧ t = hubRejoin h eng s ∧ hubAbsent t h = false ∧
      (hget t h).pkts = [] ∧ ((hget s h).kept = true → t.t2 = s.t2) := by
  have hmark := hubRejoin_mark h eng s
  refine ⟨_, ?_, rfl, congrArg HubMark.lost hmark, congrArg HubMark.pkts hmark, hubRejoin_t2 eng⟩
  rw [exec, execHubRejoin]
  exact congrArg Host.Outcome.next (if_pos (by simp [hgone, hrail, hpkts]))

end Sys2Proof.Machine

open Sys2Proof.Machine

/-- Settles O49: what a loss or a return does is split into stages, and each hub's presence is a mark that the other stages keep. -/
theorem dieLoss : Obligations.DieLoss := by
  unfold Obligations.DieLoss
  refine ⟨fun n s => towerManagerWatchdog_loses, fun s => mpWatchdog_fatal, fun h s => mpWatchdog_loses,
    fun w k s hadm => ⟨hubReset_zero hadm, hubReset_takes hadm⟩, fun h eng s => hubRejoin_returns eng, ?_⟩
  intro w f k s hadm r
  have hexec : exec (.dieRejoin w f) s = .next (if (twLog s (payAt k.bytes 0 1)).isSome then complete k.id 0x0304 0 0 (startPkt k s)
      else if r.2 then complete k.id 0 (towerCores r.1 (payAt k.bytes 0 1)) 0 r.1 else complete k.id 0x0503 0 0 r.1) := by
    rw [exec, execDieRejoin, runCmd_admitted hadm]
    rfl
  refine ⟨fun hin => by rw [hexec, if_pos hin], fun hout hback => ⟨by rw [hexec, if_neg (by rw [hout]; exact Bool.false_ne_true), if_pos hback],
    dieRejoin_mapped hback⟩, fun hout hfail => ?_⟩
  rw [hexec, if_neg (by rw [hout]; exact Bool.false_ne_true), if_neg (by rw [hfail]; exact Bool.false_ne_true)]
end

section
/-! Reset, and the stages of a start-up. -/

namespace Sys2Proof.Machine

theorem Only.pwr {m : Nat} {s t : State} (h : Only m s t) (hpwr : m.testBit 47 = false) (hrails : m.testBit 58 = false) :
    t.pwr = s.pwr := by
  rw [← h, mix, hpwr, hrails]
  rfl

/-! ## The end of a stage -/

/-- What start-up has found, apart from the firing log and the progress of start-up itself. -/
def BootSt.findings (b : BootSt) : BootSt :=
  { b with next := none, result := 0, stopped := false, late := false, fire := [], fireNext := 0, fireWrap := false, timed := [] }

/-- What the firing log leaves of start-up's record. -/
def logged (s t : State) : Prop :=
  Only F.boot s t ∧ t.boot.findings = s.boot.findings ∧ t.boot.late = s.boot.late

theorem logged_refl (s : State) : logged s s := ⟨Only.refl _ s, rfl, rfl⟩

theorem logged_trans {s t u : State} (h : logged s t) (k : logged t u) : logged s u := by
  obtain ⟨honly, hfound, hlate⟩ := h
  obtain ⟨konly, kfound, klate⟩ := k
  exact ⟨honly.trans konly, kfound.trans hfound, klate.trans hlate⟩

theorem logged_fireLog (stage : Nat) (f : Found) (summary rejoin : Bool) (dur count : Nat) (data : List Byte) (s : State) :
    logged s (fireLog stage f summary rejoin dur count data s) :=
  ⟨only_fireLog (φ := F.boot) rfl (Only.refl _ s) _ _ _ _ _ _ _, rfl, rfl⟩

theorem logged_fireStage (stage : Nat) (fs late : List Found) (result : Nat) (rejoin : Bool) (dur : Nat) (s : State) :
    logged s (fireStage stage fs late result rejoin dur s) := by
  have hall : logged s (fs.foldl (fun s f => fireLog stage f false rejoin dur 0 [] s) s) :=
    List.foldlRecOn fs _ (motive := fun t => logged s t) (logged_refl s) fun _ ht f _ => logged_trans ht (logged_fireLog _ _ _ _ _ _ _ _)
  unfold fireStage
  dsimp only
  split
  · exact logged_trans hall (logged_fireLog _ _ _ _ _ _ _ _)
  · exact logged_trans hall (logged_fireLog _ _ _ _ _ _ _ _)

/-- What the end of a stage changes: start-up's record, its stage, and the device's fatal state. -/
def F.stageEnd : Nat := F.stage ||| F.fatal ||| F.faultN ||| F.boot

theorem only_stageEnded (n : Nat) (fs : List Found) (stop reused : Bool) (dur : Nat) (s : State) :
    Only F.stageEnd s (stageEnd n fs stop reused dur s) := only_stageEnd (φ := F.stageEnd) rfl (Only.refl _ s) _ _ _ _ _

/-- The next stage becomes due. -/
def stageDone (n : Nat) (s : State) : State :=
  { s with stage := n, boot := { s.boot with timed := [], next := if n < 9 then some (n + 1) else none } }

theorem stageEnd_eq (n : Nat) (fs : List Found) (stop reused : Bool) (dur : Nat) (s : State) : ∃ u, logged s u ∧
    stageEnd n fs stop reused dur s = if stop then bootStop (stageDone n u) else stageDone n u :=
  ⟨_, logged_fireStage n fs (s.boot.timed.map (foundLate n))
    (if stop then 4 else sumResult (fs ++ s.boot.timed.map (foundLate n)) reused) false dur s, rfl⟩

theorem stageEnd_findings (n : Nat) (fs : List Found) (stop reused : Bool) (dur : Nat) (s : State) :
    (stageEnd n fs stop reused dur s).boot.findings = s.boot.findings ∧ (stageEnd n fs stop reused dur s).stage = n := by
  obtain ⟨u, ⟨_, hfound, _⟩, heq⟩ := stageEnd_eq n fs stop reused dur s
  rw [heq]
  cases stop with
  | true => exact ⟨hfound, rfl⟩
  | false => exact ⟨hfound, rfl⟩

/-- A stage after which start-up goes on. -/
theorem stageEnd_goes_on (n : Nat) (fs : List Found) (reused : Bool) (dur : Nat) (s : State) :
    (stageEnd n fs false reused dur s).boot.next = (if n < 9 then some (n + 1) else none) ∧
      (stageEnd n fs false reused dur s).boot.late = s.boot.late ∧ (stageEnd n fs false reused dur s).fatal = s.fatal ∧
      (stageEnd n fs false reused dur s).faultN = s.faultN := by
  obtain ⟨u, ⟨honly, _, hlate⟩, heq⟩ := stageEnd_eq n fs false reused dur s
  rw [heq, if_neg Bool.false_ne_true]
  exact ⟨rfl, hlate, honly.fatal rfl, honly.faultN rfl⟩

/-- A stage at which start-up stops. -/
theorem stageEnd_stops (n : Nat) (fs : List Found) (reused : Bool) (dur : Nat) (s : State) :
    (stageEnd n fs true reused dur s).boot.next = none ∧ (stageEnd n fs true reused dur s).fatal = true ∧
      (stageEnd n fs true reused dur s).faultN = true := by
  obtain ⟨u, _, heq⟩ := stageEnd_eq n fs true reused dur s
  rw [heq, if_pos rfl]
  exact ⟨rfl, rfl, rfl⟩

/-! ## Reset (R347, R349) -/

theorem resetApply_resets {s : State} (hdown : s.pwr.descend = true) (hnot : s.pwr.inReset = false) :
    ∃ t, exec .resetApply s = .next t ∧ t.pwr.inReset = true ∧ t.pwr.rails = s.pwr.rails ∧ t.cores = [] ∧ t.parts = [] ∧ t.wins = [] ∧
      t.booted = false ∧ t.boot.next = none ∧ t.t1 = s.t1 ∧ t.t2 = s.t2 ∧ t.pending = s.pending := by
  obtain ⟨hparts, hwins, hcores, _, hpend, ht1, ht2, _⟩ := deviceReset_fields s
  have hrest : (deviceReset s).pwr.rails = s.pwr.rails ∧ (deviceReset s).booted = false ∧ (deviceReset s).boot.next = none := by
    rw [deviceReset]
    generalize wFld (rget s 0x48) 30 30 = b
    rw [rupd_pwr, rupd_booted, rupd_boot]
    exact ⟨rfl, rfl, rfl⟩
  obtain ⟨hrails, hbooted, hnext⟩ := hrest
  have hexec : exec .resetApply s = .next { deviceReset s with pwr := { (deviceReset s).pwr with inReset := true } } := by
    rw [exec, execResetApply]
    exact if_neg (by simp [hdown, hnot])
  exact ⟨_, hexec, rfl, hrails, hcores, hparts, hwins, hbooted, hnext, ht1, ht2, hpend⟩

theorem rstNRelease_starts {s : State} (hpin : s.pwr.rst = true) (hin : s.pwr.inReset = true) :
    ∃ t, exec .rstNRelease s = .next t ∧ t.pwr.rst = false ∧ t.pwr.inReset = false ∧
      (s.pwr.vaux = true → s.pwr.sw = true → s.pwr.vin = true → s.pwr.kiln = false →
        t.boot.next = some 0 ∧ t.stage = 0 ∧ t.fatal = false ∧ t.faultN = false ∧ t.booted = false) ∧
      (s.pwr.vin = false → t.boot = s.boot ∧ t.fatal = s.fatal ∧ t.faultN = s.faultN) := by
  obtain ⟨u, hu⟩ : ∃ u : State, u = { s with pwr := { s.pwr with rst := false, inReset := false, descend := false } } := ⟨_, rfl⟩
  have hexec : exec .rstNRelease s = .next (if canStart u then startBegin false u else u) := by
    rw [exec, execRstNRelease, hu]
    exact (if_neg (by simp [hpin])).trans (if_neg (by simp [hin]))
  have hpwr : (if canStart u then startBegin false u else u).pwr = u.pwr := by split <;> rfl
  have hstart : canStart u = (s.pwr.vaux && s.pwr.sw && s.pwr.vin && !s.pwr.kiln) := by
    rw [hu, canStart]
    simp
  refine ⟨_, hexec, by rw [hpwr, hu], by rw [hpwr, hu], fun hvaux hsw hvin hkiln => ?_, fun hvin => ?_⟩
  · rw [if_pos (by rw [hstart, hvaux, hsw, hvin, hkiln]; rfl)]
    exact ⟨rfl, rfl, rfl, rfl, rfl⟩
  · rw [if_neg (by rw [hstart, hvin, Bool.and_false, Bool.false_and]; exact Bool.false_ne_true), hu]
    exact ⟨rfl, rfl, rfl⟩

/-! ## Stage 0: the rails (R350) -/

theorem railStops_iff (r : Nat) : railStops r = true ↔ r = 0 ∨ r = 22 ∨ r = 23 := by
  simp [railStops, or_assoc]

theorem mem_railOrder (r : Nat) : r ∈ railOrder ↔ r ≠ 22 ∧ r < 56 := by
  have hall : ∀ x ∈ railOrder, x ≠ 22 ∧ x < 56 := by decide
  have hback : ∀ x, x < 56 → x ≠ 22 → x ∈ railOrder := by decide
  exact ⟨hall r, fun ⟨hne, hlt⟩ => hback r hlt hne⟩

theorem nsHas_railsUp (bad : List Nat) (r : Nat) : nsHas (railsUp bad) r = (decide (r ≠ 22) && decide (r < 56) && railOn bad r) := by
  rw [Bool.eq_iff_iff, railsUp, nsHas_foldl_nsAdd, List.mem_filter, mem_railOrder]
  simp [nsHas]

/-- The rails that stage 0 leaves up. -/
def railsSet (pll : Bool) (bad : List Nat) (s : State) : State :=
  { s with pwr := { s.pwr with rails := if bad.any railStops then [] else if !pll then [0, 23] else railsUp bad } }

/-- What stage 0 finds. -/
def railsFound (pll : Bool) (bad : List Nat) : List Found :=
  (if pll then [] else [found 4 0 0x0001]) ++ bad.map (fun r =>
    found (if railStops r then 4 else 2) (srcIndex 11 (railRow r)) 0x0002)

theorem stage0_runs (pll : Bool) (bad : List Nat) (dur : Nat) {s : State} (hdue : stageDue s 0 = true) :
    ∃ t, exec (.stage0 pll bad dur) s = .next t ∧ t.stage = 0 ∧
      (pll = true → 0 ∉ bad → 22 ∉ bad → 23 ∉ bad → t.boot.next = some 1 ∧ t.fatal = s.fatal ∧
        ∀ r, nsHas t.pwr.rails r = (decide (r ≠ 22) && decide (r < 56) && railOn bad r)) ∧
      (pll = false ∨ 0 ∈ bad ∨ 22 ∈ bad ∨ 23 ∈ bad → t.boot.next = none ∧ t.fatal = true ∧ t.faultN = true) := by
  have hexec : exec (.stage0 pll bad dur) s =
      .next (stageEnd 0 (railsFound pll bad) (!pll || bad.any railStops) false dur (railsSet pll bad s)) := by
    rw [exec, execStage0]
    exact if_neg (by simp [hdue])
  have hstops : bad.any railStops = true ↔ 0 ∈ bad ∨ 22 ∈ bad ∨ 23 ∈ bad := by
    simp only [List.any_eq_true, railStops_iff]
    constructor
    · rintro ⟨x, hx, rfl | rfl | rfl⟩
      · exact .inl hx
      · exact .inr (.inl hx)
      · exact .inr (.inr hx)
    · rintro (hx | hx | hx)
      · exact ⟨0, hx, .inl rfl⟩
      · exact ⟨22, hx, .inr (.inl rfl)⟩
      · exact ⟨23, hx, .inr (.inr rfl)⟩
  obtain ⟨_, hstage⟩ := stageEnd_findings 0 (railsFound pll bad) (!pll || bad.any railStops) false dur (railsSet pll bad s)
  refine ⟨_, hexec, hstage, fun hpll h0 h22 h23 => ?_, fun hbad => ?_⟩
  · have hany : bad.any railStops = false := by
      rw [Bool.eq_false_iff, Ne, hstops]
      simp [h0, h22, h23]
    have hup : (railsSet pll bad s).pwr.rails = railsUp bad := by rw [railsSet, hany, hpll]; rfl
    rw [hany, hpll, Bool.not_true, Bool.false_or]
    rw [hpll] at hup
    obtain ⟨hnext, _, hfatal, _⟩ := stageEnd_goes_on 0 (railsFound true bad) false dur (railsSet true bad s)
    refine ⟨hnext, hfatal, fun r => ?_⟩
    rw [(only_stageEnded 0 (railsFound true bad) false false dur (railsSet true bad s)).rails rfl, hup, nsHas_railsUp]
  · have hstop : (!pll || bad.any railStops) = true := by
      rw [Bool.or_eq_true, hstops]
      exact hbad.imp_left (by simp)
    rw [hstop]
    exact stageEnd_stops 0 (railsFound pll bad) false dur (railsSet pll bad s)

/-! ## Stage 1: the fuses and the firmware (R351, R435) -/

theorem readFuses_kept (f : FuseBank) (recs : FuseMap) (s : State) : (readFuses f recs s).boot.late = s.boot.late ∧
    (readFuses f recs s).pwr = s.pwr := by
  rw [readFuses]
  split
  · exact ⟨rfl, rfl⟩
  · exact ⟨rfl, rfl⟩

theorem readFuses_sec (f : FuseBank) (recs : FuseMap) {s u : State} (h : u.sec = s.sec) :
    (readFuses f recs u).sec = (readFuses f recs s).sec := by
  rw [readFuses, readFuses, h]
  split
  · exact h
  · rfl

theorem bootImage_of_sec {s u : State} (h : u.sec = s.sec) (im : BootImages) (n : Nat) : bootImage u im n = bootImage s im n := by
  rw [bootImage, bootImage, h]

/-- The hubs' images and the place of the identity key, chosen from the staged and the previous image. -/
def imagesChosen (im : BootImages) (s : State) : State :=
  let run := (List.range 4).filterMap (fun h => (bootImage s im h).map (fun x => (h, x)))
  let fac (st : Store FwImg) : Store FwImg :=
    (List.range 4).map (fun h => ((st.find? (fun e => e.1 == h)).getD (h, { svn := im.svn, digest := im.digest })))
  { s with sec := { s.sec with run := run, staged := fac s.sec.staged, prev := fac s.sec.prev, ids := !s.pwr.lidOpen } }

/-- The fused thermal resistances. -/
def resistancesShown (s : State) : State :=
  iter 16 (fun n s => rset (thmBase + 0x180 + 4 * n) (BitVec.ofNat 32 (1024 * 2 ^ 20 + Config.fusedR0 n % 512 * 2 ^ 11)) s) s

/-- What the registers show of the firmware `svn`, of the fans and of the device. -/
def firmwareShown (svn : Nat) (s : State) : State :=
  let s := rset (secBase + 8) (BitVec.ofNat 32 (svn * 256 + s.sec.svnFuse)) s
  let s := resistancesShown (rset thmBase (BitVec.ofNat 32 (6000 * 65536 + 320)) s)
  rset 0xC (Config.serial.extractLsb' 32 32) (rset 0x8 (Config.serial.extractLsb' 0 32) s)

/-- The records of earlier tests that hold are used again, the other towers' are forgotten. -/
def recordsReused (s : State) : State :=
  let reuse := recUnits.filter (recValid s)
  let s := { s with boot := { s.boot with reuse := reuse, warm := !reuse.isEmpty, defTw := [] } }
  loadFuses (((List.range 16).filter (fun n => !reuse.contains n)).foldl (fun s n => forgetTower n s) s)

/-- Whether start-up has shown a failure yet, what it uses again, and whether it is warm. -/
structure StartMark where
  late : Bool
  reuse : NatSet
  warm : Bool

/-- The mark of start-up's record. -/
def BootSt.mark (b : BootSt) : StartMark := { late := b.late, reuse := b.reuse, warm := b.warm }

theorem loadFuses_mark (s : State) : (loadFuses s).boot.mark = s.boot.mark := by
  unfold loadFuses
  dsimp only
  refine List.foldlRecOn _ _ (motive := fun t : State => t.boot.mark = s.boot.mark) ?_ fun t ht e _ => ht
  exact List.foldlRecOn _ _ (motive := fun t : State => t.boot.mark = s.boot.mark) rfl fun t ht e _ => ht

theorem recordsReused_effect (s : State) : Only (F.cols ||| F.boot ||| F.therm) s (recordsReused s) ∧
    (recordsReused s).boot.late = s.boot.late ∧ (recordsReused s).boot.warm = !(recordsReused s).boot.reuse.isEmpty := by
  obtain ⟨u, hu⟩ : ∃ u : State, u = { s with boot := { s.boot with
      reuse := recUnits.filter (recValid s), warm := !(recUnits.filter (recValid s)).isEmpty, defTw := [] } } := ⟨_, rfl⟩
  obtain ⟨v, hv⟩ : ∃ v, v = ((List.range 16).filter (fun n => !(recUnits.filter (recValid s)).contains n)).foldl
      (fun s n => forgetTower n s) u := ⟨_, rfl⟩
  have heq : recordsReused s = loadFuses v := by
    rw [recordsReused, hv, hu]
  have hsu : Only (F.cols ||| F.boot ||| F.therm) s u := hu ▸ only_with (a := F.boot) rfl rfl (Only.refl _ s)
  have huv : Only (F.cols ||| F.boot ||| F.therm) u v := hv ▸ only_foldl (φ := F.cols ||| F.boot ||| F.therm)
    (fun _ _ h => only_forgetTower (φ := F.cols ||| F.boot ||| F.therm) rfl h _) (Only.refl _ u)
  have hmark : (recordsReused s).boot.mark = u.boot.mark := by
    rw [heq, loadFuses_mark, hv]
    exact List.foldlRecOn _ _ (motive := fun t : State => t.boot.mark = u.boot.mark) rfl fun t ht _ _ => ht
  refine ⟨?_, ?_, ?_⟩
  · rw [heq]
    exact only_loadFuses (φ := F.cols ||| F.boot ||| F.therm) rfl (hsu.trans huv)
  · exact (congrArg StartMark.late hmark).trans (by rw [hu]; rfl)
  · have hreuse : (recordsReused s).boot.reuse = u.boot.reuse := congrArg StartMark.reuse hmark
    exact (congrArg StartMark.warm hmark).trans (by rw [hreuse, hu]; rfl)

/-- What the registers of a chosen image may change. -/
def F.shown : Nat := F.regs ||| F.sec ||| F.fresh

/-- The debug setting and the nonce are no part of the identity or of the images that run. -/
theorem bootDebug_sec (s : State) : (bootDebug s).sec.ids = s.sec.ids ∧ (bootDebug s).sec.run = s.sec.run := by
  rw [bootDebug, rset_sec]
  exact ⟨rfl, rfl⟩

theorem only_firmwareShown (svn : Nat) (s : State) : Only F.regs s (firmwareShown svn s) := by
  refine only_rset (φ := F.regs) rfl (only_rset (φ := F.regs) rfl ?_ _ _) _ _
  refine only_iter (φ := F.regs) (fun _ _ h => only_rset (φ := F.regs) rfl h _ _) ?_
  exact only_rset (φ := F.regs) rfl (only_rset (φ := F.regs) rfl (Only.refl _ s) _ _) _ _

theorem rget_resistancesShown (s : State) : rget (resistancesShown s) thmBase = rget s thmBase := by
  rw [resistancesShown, iter]
  refine List.foldlRecOn _ _ (motive := fun t : State => rget t thmBase = rget s thmBase) rfl fun t ht n _ => ?_
  rw [rget_rset_other _ _ (by omega), ht]

theorem rget_fans (a b w : Word) (s : State) :
    rget (rset 0xC a (rset 0x8 b (resistancesShown (rset thmBase w s)))) thmBase = w := by
  rw [rget_rset_other _ _ (by decide), rget_rset_other _ _ (by decide), rget_resistancesShown, rget_rset_same]

theorem rget_firmwareShown (svn : Nat) (s : State) : rget (firmwareShown svn s) thmBase = BitVec.ofNat 32 (6000 * 65536 + 320) :=
  rget_fans _ _ _ _

/-- Stage 1 with its fuses and an image for H0: `v` is the state after the fuses are read. -/
def firmwareUp (im : BootImages) (v : State) : State :=
  let s := freshNonce (bootDebug (imagesChosen im v))
  firmwareShown (((bootImage s im 0).map (fun x => x.svn)).getD 0) s

/-- Its records are then used again or forgotten. -/
def stage1Runs (im : BootImages) (v : State) : State := recordsReused (firmwareUp im v)

/-- What stage 1 finds of the units whose records do not hold. -/
def stage1Found (reuse : NatSet) (s : State) : List Found :=
  (recUnits.filter (fun u => (recOf s u).made && !reuse.contains u)).map
    (fun u => found 1 (if u < 16 then srcTower u else srcIndex 1 (u - 16)) 0x0060)

theorem imgOf_imagesChosen {im : BootImages} {s : State} {x : FwImg} (h : bootImage s im 0 = some x) :
    imgOf (imagesChosen im s).sec.run 0 = some x := by
  have hrun : (imagesChosen im s).sec.run = (0, x) :: (List.range' 1 3).filterMap (fun h => (bootImage s im h).map (fun x => (h, x))) := by
    have hrange : List.range 4 = 0 :: List.range' 1 3 := by decide
    rw [imagesChosen, hrange]
    simp [h]
  rw [hrun]
  rfl

theorem stage1Runs_effect {im : BootImages} {v : State} {x : FwImg} (h : bootImage v im 0 = some x) :
    (stage1Runs im v).boot.late = v.boot.late ∧ (stage1Runs im v).sec.ids = !v.pwr.lidOpen ∧
      rget (stage1Runs im v) thmBase = BitVec.ofNat 32 (6000 * 65536 + 320) ∧ imgOf (stage1Runs im v).sec.run 0 = some x ∧
      (stage1Runs im v).boot.warm = !(stage1Runs im v).boot.reuse.isEmpty ∧ (stage1Runs im v).pwr.lidOpen = v.pwr.lidOpen := by
  obtain ⟨a, ha⟩ : ∃ a, a = imagesChosen im v := ⟨_, rfl⟩
  obtain ⟨b, hb⟩ : ∃ b, b = freshNonce (bootDebug a) := ⟨_, rfl⟩
  obtain ⟨c, hc⟩ : ∃ c, c = firmwareShown (((bootImage b im 0).map (fun x => x.svn)).getD 0) b := ⟨_, rfl⟩
  have heq : stage1Runs im v = recordsReused c := by rw [hc, hb, ha]; rfl
  obtain ⟨honly, hlate, hwarm⟩ := recordsReused_effect c
  have hbonly : Only (F.regs ||| F.fresh) (bootDebug a) b := hb ▸ only_freshNonce (φ := F.regs ||| F.fresh) rfl (Only.refl _ _)
  have hdebug : Only (F.regs ||| F.sec) a (bootDebug a) := only_bootDebug (φ := F.regs ||| F.sec) rfl (Only.refl _ _)
  have hconly : Only F.regs b c := hc ▸ only_firmwareShown _ _
  obtain ⟨hids, hrun⟩ := bootDebug_sec a
  have hsec : (stage1Runs im v).sec = (bootDebug a).sec := by rw [heq, honly.sec rfl, hconly.sec rfl, hbonly.sec rfl]
  have hboot : c.boot = v.boot := by rw [hconly.boot rfl, hbonly.boot rfl, hdebug.boot rfl, ha]; rfl
  have hpwr : (stage1Runs im v).pwr = v.pwr := by
    rw [heq, honly.pwr rfl rfl, hconly.pwr rfl rfl, hbonly.pwr rfl rfl, hdebug.pwr rfl rfl, ha]
    rfl
  refine ⟨?_, ?_, ?_, ?_, ?_, by rw [hpwr]⟩
  · rw [heq, hlate, hboot]
  · rw [hsec, hids, ha]
    rfl
  · rw [heq, rget, honly.regs rfl, ← rget, hc, rget_firmwareShown]
  · rw [hsec, hrun, ha, imgOf_imagesChosen h]
  · rw [heq, hwarm]

/-- The state that ends stage 1 with a failure shown. -/
def stage1Fails (detail dur : Nat) (s : State) : State :=
  { stageEnd 1 [found 4 0 detail] false false dur s with
    boot := { (stageEnd 1 [found 4 0 detail] false false dur s).boot with late := true } }

/-- Stage 1 after the fuses are read. -/
def stage1Rest (im : BootImages) (dur : Nat) (s : State) : Res :=
  if s.sec.lcFuse = 5 then .next (stage1Fails 0x0005 dur s)
  else if (bootImage s im 0).isNone then .next (stage1Fails 0x0004 dur s)
  else .next (stageEnd 1 (stage1Found (recUnits.filter (recValid (firmwareUp im s))) (stage1Runs im s)) false false dur (stage1Runs im s))

theorem exec_stage1 {f : FuseBank} (im : BootImages) (recs : FuseMap) (lid : Bool) (dur : Nat) {s : State} (hdue : stageDue s 1 = true)
    (hok : f.ok = true) : exec (.stage1 f im recs lid dur) s =
      stage1Rest im dur (readFuses f recs { s with pwr := { s.pwr with lidOpen := lid } }) := by
  rw [exec, execStage1]
  exact (if_neg (by simp [hdue])).trans (if_neg (by simp [hok]))

theorem stage1Fails_effect (detail dur : Nat) (s : State) : (stage1Fails detail dur s).stage = 1 ∧
    (stage1Fails detail dur s).boot.next = some 2 ∧ (stage1Fails detail dur s).pwr.lidOpen = s.pwr.lidOpen ∧
    (stage1Fails detail dur s).boot.late = true := by
  obtain ⟨_, hstage⟩ := stageEnd_findings 1 [found 4 0 detail] false false dur s
  obtain ⟨hnext, _⟩ := stageEnd_goes_on 1 [found 4 0 detail] false dur s
  have hpwr := (only_stageEnded 1 [found 4 0 detail] false false dur s).pwr rfl rfl
  rw [stage1Fails]
  generalize stageEnd 1 [found 4 0 detail] false false dur s = u at hstage hnext hpwr
  exact ⟨hstage, hnext, congrArg PwrSt.lidOpen hpwr, rfl⟩

/-- What stage 1 shows of the image `x` that H0 runs. -/
structure ImageRuns (x : FwImg) (lid late : Bool) (t : State) : Prop where
  late : t.boot.late = late
  ids : t.sec.ids = !lid
  fans : rget t thmBase = BitVec.ofNat 32 (6000 * 65536 + 320)
  image : imgOf t.sec.run 0 = some x
  warm : t.boot.warm = !t.boot.reuse.isEmpty

/-- Where stage 1 finds no usable firmware it shows a failure, and otherwise H0 runs its image. -/
theorem stage1Rest_ends (im : BootImages) (dur : Nat) (v : State) : ∃ t, stage1Rest im dur v = .next t ∧ t.stage = 1 ∧
    t.boot.next = some 2 ∧ t.pwr.lidOpen = v.pwr.lidOpen ∧ (v.sec.lcFuse = 5 → t.boot.late = true) ∧
    (v.sec.lcFuse ≠ 5 → bootImage v im 0 = none → t.boot.late = true) ∧
    (∀ x, v.sec.lcFuse ≠ 5 → bootImage v im 0 = some x → ImageRuns x v.pwr.lidOpen v.boot.late t) := by
  by_cases hlc : v.sec.lcFuse = 5
  · obtain ⟨hstage, hnext, hlid, hlate⟩ := stage1Fails_effect 0x0005 dur v
    exact ⟨_, if_pos hlc, hstage, hnext, hlid, fun _ => hlate, fun h => absurd hlc h, fun _ h => absurd hlc h⟩
  · cases himg : bootImage v im 0 with
    | none =>
      obtain ⟨hstage, hnext, hlid, hlate⟩ := stage1Fails_effect 0x0004 dur v
      exact ⟨_, (if_neg hlc).trans (if_pos (by rw [himg]; rfl)), hstage, hnext, hlid, fun _ => hlate, fun _ _ => hlate,
        fun _ _ h => nomatch h⟩
    | some x =>
      obtain ⟨fs, hfs⟩ : ∃ fs, fs = stage1Found (recUnits.filter (recValid (firmwareUp im v))) (stage1Runs im v) := ⟨_, rfl⟩
      have hrest : stage1Rest im dur v = .next (stageEnd 1 fs false false dur (stage1Runs im v)) := by
        rw [hfs]
        exact (if_neg hlc).trans (if_neg (by rw [himg]; exact Bool.false_ne_true))
      obtain ⟨hlate, hids, hfans, himage, hwarm, hlid⟩ := stage1Runs_effect himg
      obtain ⟨hfound, hstage⟩ := stageEnd_findings 1 fs false false dur (stage1Runs im v)
      obtain ⟨hnext, hkept, _⟩ := stageEnd_goes_on 1 fs false dur (stage1Runs im v)
      have honly := only_stageEnded 1 fs false false dur (stage1Runs im v)
      have hsec := honly.sec rfl
      have hregs := honly.regs rfl
      have hreuse := congrArg BootSt.reuse hfound
      have hwarm' := congrArg BootSt.warm hfound
      refine ⟨_, hrest, hstage, hnext, by rw [honly.pwr rfl rfl, hlid], fun h => absurd h hlc, fun _ h => (nomatch h), fun y _ hy => ?_⟩
      have hxy : x = y := Option.some.inj hy
      refine ⟨hkept.trans hlate, by rw [hsec, hids], by rw [rget, hregs, ← rget, hfans], by rw [hsec, himage, hxy], ?_⟩
      exact hwarm'.trans (hwarm.trans (by rw [← show _ = (stage1Runs im v).boot.reuse from hreuse]; rfl))

theorem stage1_runs (f : FuseBank) (im : BootImages) (recs : FuseMap) (lid : Bool) (dur : Nat) {s : State} (hdue : stageDue s 1 = true) :
    ∃ t, exec (.stage1 f im recs lid dur) s = .next t ∧ t.stage = 1 ∧ t.boot.next = some 2 ∧ t.pwr.lidOpen = lid ∧
      (f.ok = false → t.boot.late = true) ∧
      (f.ok = true → (readFuses f recs s).sec.lcFuse = 5 → t.boot.late = true) ∧
      (f.ok = true → (readFuses f recs s).sec.lcFuse ≠ 5 → bootImage (readFuses f recs s) im 0 = none → t.boot.late = true) ∧
      (∀ x, f.ok = true → (readFuses f recs s).sec.lcFuse ≠ 5 → bootImage (readFuses f recs s) im 0 = some x →
        t.boot.late = s.boot.late ∧ t.sec.ids = !lid ∧ rget t thmBase = BitVec.ofNat 32 (6000 * 65536 + 320) ∧
        imgOf t.sec.run 0 = some x ∧ t.boot.warm = !t.boot.reuse.isEmpty) := by
  obtain ⟨u, hu⟩ : ∃ u : State, u = { s with pwr := { s.pwr with lidOpen := lid } } := ⟨_, rfl⟩
  cases hok : f.ok with
  | false =>
    have hexec : exec (.stage1 f im recs lid dur) s = .next (stage1Fails 0x0003 dur u) := by
      rw [exec, execStage1, hu]
      exact (if_neg (by simp [hdue])).trans (if_pos (by simp [hok]))
    obtain ⟨hstage, hnext, hlid, hlate⟩ := stage1Fails_effect 0x0003 dur u
    exact ⟨_, hexec, hstage, hnext, hlid.trans (by rw [hu]), fun _ => hlate, nofun, nofun, nofun⟩
  | true =>
    obtain ⟨v, hv⟩ : ∃ v, v = readFuses f recs u := ⟨_, rfl⟩
    have hexec : exec (.stage1 f im recs lid dur) s = stage1Rest im dur v := by rw [exec_stage1 im recs lid dur hdue hok, hv, hu]
    obtain ⟨hvlate, hvpwr⟩ := readFuses_kept f recs u
    have hvlid : v.pwr.lidOpen = lid := by rw [hv, hvpwr, hu]
    have hsec : v.sec = (readFuses f recs s).sec := hv ▸ readFuses_sec f recs (by rw [hu])
    have himg : bootImage v im 0 = bootImage (readFuses f recs s) im 0 := bootImage_of_sec hsec im 0
    obtain ⟨t, ht, hstage, hnext, hlid, hscrap, hnone, hsome⟩ := stage1Rest_ends im dur v
    rw [hsec, himg] at hnone
    rw [hsec] at hscrap
    refine ⟨t, hexec.trans ht, hstage, hnext, hlid.trans hvlid, nofun, fun _ => hscrap, fun _ => hnone, fun x _ hlc hx => ?_⟩
    obtain ⟨hlate, hids, hfans, himage, hwarm⟩ := hsome x (by rw [hsec]; exact hlc) (by rw [himg]; exact hx)
    exact ⟨hlate.trans (by rw [hv, hvlate, hu]), hids.trans (by rw [hvlid]), hfans, himage, hwarm⟩

end Sys2Proof.Machine
end

section
/-! Start-up: the host link and the hubs. -/

namespace Sys2Proof.Machine

/-! ## Stage 2: the host link (R352) -/

/-- The registers show the host link as it was found. -/
def linkFound (up : Bool) (speed width : Nat) (s : State) : State :=
  rupd 0x14 (fun w => wPut w 16 16 (b2n up)) (rset 0x100 (BitVec.ofNat 32 (linkWord up speed width)) s)

theorem linkFound_regs (up : Bool) (speed width : Nat) (s : State) :
    rget (linkFound up speed width s) 0x100 = BitVec.ofNat 32 (linkWord up speed width) ∧
      wBit (rget (linkFound up speed width s) 0x14) 16 = up := by
  refine ⟨?_, ?_⟩
  · rw [linkFound, rupd, rget_rset_other _ _ (by decide), rget_rset_same]
  · rw [linkFound, rupd, rget_rset_same, wBit_wPut _ _ _ (by decide) le_rfl, if_pos ⟨le_rfl, le_rfl⟩]
    cases up <;> rfl

theorem stage2_runs (up : Bool) (speed width dur : Nat) {s : State} (hdue : stageDue s 2 = true) :
    ∃ t, exec (.stage2 up speed width dur) s = .next t ∧ t.stage = 2 ∧
      rget t 0x100 = BitVec.ofNat 32 (linkWord up speed width) ∧ wBit (rget t 0x14) 16 = up ∧
      (s.boot.late = false → t.boot.next = some 3 ∧ t.fatal = s.fatal) ∧
      (s.boot.late = true → t.boot.next = none ∧ t.fatal = true ∧ t.boot.stopped = true) := by
  obtain ⟨u, hu⟩ : ∃ u, u = linkFound up speed width s := ⟨_, rfl⟩
  obtain ⟨fs, hexec⟩ : ∃ fs, exec (.stage2 up speed width dur) s =
      .next (if u.boot.late then bootStop (stageEnd 2 fs false false dur u) else stageEnd 2 fs false false dur u) := by
    refine ⟨if up then [] else [found 2 (srcIndex 10 16) 0x0006], ?_⟩
    rw [exec, execStage2, hu]
    exact if_neg (by simp [hdue])
  obtain ⟨hlink, hup⟩ := linkFound_regs up speed width s
  have honly : Only F.regs s u := hu ▸ only_rupd (φ := F.regs) rfl (only_rset (φ := F.regs) rfl (Only.refl _ s) _ _) _ _
  obtain ⟨_, hstage⟩ := stageEnd_findings 2 fs false false dur u
  obtain ⟨hnext, _, hfatal, _⟩ := stageEnd_goes_on 2 fs false dur u
  have hregs := (only_stageEnded 2 fs false false dur u).regs rfl
  rw [honly.boot rfl] at hexec
  rw [← hu] at hlink hup
  generalize stageEnd 2 fs false false dur u = v at hexec hstage hnext hfatal hregs
  have hkept : (if s.boot.late then bootStop v else v).stage = v.stage ∧ (if s.boot.late then bootStop v else v).regs = v.regs := by
    cases s.boot.late <;> exact ⟨rfl, rfl⟩
  obtain ⟨hkstage, hkregs⟩ := hkept
  refine ⟨_, hexec, hkstage.trans hstage, by rw [rget, hkregs, hregs, ← rget, hlink], by rw [rget, hkregs, hregs, ← rget, hup],
    fun h => ?_, fun h => ?_⟩
  · rw [if_neg (by rw [h]; exact Bool.false_ne_true)]
    exact ⟨hnext, hfatal.trans (honly.fatal rfl)⟩
  · rw [if_pos h]
    exact ⟨rfl, rfl, rfl⟩

/-! ## Stage 3: the hubs (R353) -/

/-- The hubs that stage 3 finds failed. -/
def hubFails (bad : List Nat) (s : State) : List Nat :=
  (List.range 4).filter (fun h => bad.contains h || !nsHas s.pwr.rails h || noRoot s (16 + h) || hubAbsent s h)

theorem mem_hubFails {bad : List Nat} {s : State} {h : Nat} : h ∈ hubFails bad s ↔ h < 4 ∧
    (h ∈ bad ∨ nsHas s.pwr.rails h = false ∨ noRoot s (16 + h) = true ∨ hubAbsent s h = true) := by
  simp [hubFails, or_assoc]

/-- The failed hubs are absent. -/
def hubsLeftOut (fails : List Nat) (s : State) : State :=
  fails.foldl (fun s h => if h = 0 then s else hset h { HubSt.reset with lost := true } s) s

theorem only_hubsLeftOut (fails : List Nat) (s : State) : Only F.hubs s (hubsLeftOut fails s) :=
  only_foldl (φ := F.hubs) (fun _ _ h => only_ite h (only_hset (φ := F.hubs) rfl h _ _)) (Only.refl _ s)

theorem hubsLeftOut_absent {fails : List Nat} {h : Nat} (s : State) (hmem : h ∈ fails) (h0 : h ≠ 0) :
    hubAbsent (hubsLeftOut fails s) h = true := by
  have hlost (k : Nat) (u : State) : hubAbsent (hset k { HubSt.reset with lost := true } u) k = true := by
    rw [hubAbsent, hget_hset_same]
  refine foldl_reaches (P := fun t => hubAbsent t h = true) hmem (fun t => ?_) (fun t k _ ht => ?_) s
  · rw [if_neg h0]
    exact hlost h t
  · split
    · exact ht
    · by_cases hk : h = k
      · rw [hk]
        exact hlost k t
      · rwa [hubAbsent, hget_hset_other _ _ hk]

/-- H0 shows the failed hubs. -/
def hubsShown (fails : List Nat) (s : State) : State :=
  rupd (hubBase 0) (fun w => wPut w 4 2 (sumNat ([1, 2, 3].map (fun h => if fails.contains h then 2 ^ (h - 1) else 0))))
    (publishHubs s)

theorem testBit_hubMask (a b c : Bool) : let v := sumNat [if a then 1 else 0, if b then 2 else 0, if c then 4 else 0]
    v.testBit 0 = a ∧ v.testBit 1 = b ∧ v.testBit 2 = c := by
  cases a <;> cases b <;> cases c <;> decide

theorem hubsShown_bit {fails : List Nat} {h : Nat} (s : State) (hmem : h ∈ fails) (h0 : 0 < h) (h4 : h < 4) :
    wBit (rget (hubsShown fails s) (hubBase 0)) (1 + h) = true := by
  have hbits := testBit_hubMask (fails.contains 1) (fails.contains 2) (fails.contains 3)
  obtain ⟨h1, h2, h3⟩ := hbits
  have hin : fails.contains h = true := by simpa using hmem
  rw [hubsShown, rupd, rget_rset_same, wBit_wPut _ _ _ (by decide) (by decide), if_pos ⟨by omega, by omega⟩]
  have hcase : h = 1 ∨ h = 2 ∨ h = 3 := by omega
  rcases hcase with rfl | rfl | rfl
  · exact h1.trans hin
  · exact h2.trans hin
  · exact h3.trans hin

/-- The registers show what the latches of VAUX hold. -/
def latchesShown (s : State) : State := rset (thmBase + 0x1C4) s.therm.kilnNv (rset (secBase + 4) s.sec.tamperNv s)

/-- The records of the towers and hubs whose hub has failed are forgotten. -/
def recordsLost (fails : List Nat) (s : State) : State :=
  let lost (u : Nat) : Bool := fails.contains (if u < 16 then homeHub u else u - 16)
  let drop := s.boot.reuse.filter lost
  let s := { s with boot := { s.boot with reuse := s.boot.reuse.filter (fun u => !lost u) } }
  let s := { s with boot := { s.boot with warm := !s.boot.reuse.isEmpty } }
  loadFuses ((drop.filter (fun u => u < 16)).foldl (fun s n => forgetTower n s) s)

theorem only_recordsLost (fails : List Nat) (s : State) : Only (F.cols ||| F.boot ||| F.therm) s (recordsLost fails s) := by
  have hboot (b : BootSt) : Only (F.cols ||| F.boot ||| F.therm) s { s with boot := b } := only_with (a := F.boot) rfl rfl (Only.refl _ s)
  exact only_loadFuses (φ := F.cols ||| F.boot ||| F.therm) rfl
    (only_foldl (φ := F.cols ||| F.boot ||| F.therm) (fun _ _ h => only_forgetTower (φ := F.cols ||| F.boot ||| F.therm) rfl h _) (hboot _))

/-- A trip of the kiln-sitter before the start-up is recorded. -/
def kilnRecorded (s : State) : State :=
  if wBit s.therm.kilnNv 31 then
    logErr { hub := 0, code := 0x0403, part := none, source := srcTower (wFld s.therm.kilnNv 29 26), engine := 19,
             logical := 0, addr := 0, detail := s.therm.kilnNv.toNat } s else s

theorem fatal_logErr (e : ErrEv) {s : State} (h : s.fatal = true) : (logErr e s).fatal = true := by
  have hkept (e : ErrEv) (v : HubSt) : (errNotice e (hset e.hub v s)).fatal = true := by
    rw [(only_errNotice (φ := F.regs ||| F.hubs ||| F.ctrs ||| F.telem ||| F.hostOut ||| F.fab) rfl
      (only_hset (φ := F.regs ||| F.hubs ||| F.ctrs ||| F.telem ||| F.hostOut ||| F.fab) rfl (Only.refl _ s) _ _) e).fatal rfl, h]
  have hdead (u : State) : (enterFatal u).fatal = true := by
    obtain ⟨hfatal, _⟩ := enterFatal_flags u
    exact hfatal
  unfold logErr
  dsimp only
  generalize (if (hget s e.hub).lost = true then { e with hub := 0 } else e) = e'
  split
  · exact hdead _
  · exact hkept _ _

theorem kilnRecorded_kept (s : State) : HubSteady s (kilnRecorded s) ∧ rget (kilnRecorded s) (hubBase 0) = rget s (hubBase 0) ∧
    Only F.logs s (kilnRecorded s) ∧ (s.fatal = true → (kilnRecorded s).fatal = true) := by
  have hrecord (e : ErrEv) : HubSteady s (logErr e s) ∧ rget (logErr e s) (hubBase 0) = rget s (hubBase 0) ∧
      Only F.logs s (logErr e s) ∧ (s.fatal = true → (logErr e s).fatal = true) := by
    obtain ⟨hregs, _⟩ := onlyLogs_logErr e s
    exact ⟨hubSteady_logErr e s, hregs _ (.inr (by decide)), only_logErr (φ := F.logs) rfl (Only.refl _ s) e, fatal_logErr e⟩
  rw [kilnRecorded]
  split
  · exact hrecord _
  · exact ⟨hubSteady_refl s, rfl, Only.refl _ s, id⟩

theorem exec_stage3 (bad : List Nat) (dur : Nat) {s : State} (hdue : stageDue s 3 = true) : ∃ fs, exec (.stage3 bad dur) s =
    .next (kilnRecorded (stageEnd 3 fs ((hubFails bad s).contains 0) false dur
      (recordsLost (hubFails bad s) (latchesShown (hubsShown (hubFails bad s) (hubsLeftOut (hubFails bad s) s)))))) := by
  rw [exec, execStage3]
  exact ⟨_, if_neg (by simp [hdue])⟩

theorem stage3_runs (bad : List Nat) (dur : Nat) {s : State} (hdue : stageDue s 3 = true) :
    ∃ t, exec (.stage3 bad dur) s = .next t ∧ t.stage = 3 ∧
      (∀ h, 0 < h → h < 4 → bad.contains h = true ∨ nsHas s.pwr.rails h = false ∨ noRoot s (16 + h) = true →
        hubAbsent t h = true ∧ wBit (rget t (hubBase 0)) (1 + h) = true) ∧
      (0 ∈ bad ∨ nsHas s.pwr.rails 0 = false → t.boot.next = none ∧ t.fatal = true) ∧
      (0 ∉ bad → nsHas s.pwr.rails 0 = true → noRoot s 16 = false → hubAbsent s 0 = false → t.boot.next = some 4) ∧
      t.t1 = s.t1 := by
  obtain ⟨fs, hexec⟩ := exec_stage3 bad dur hdue
  obtain ⟨a, ha⟩ : ∃ a, a = hubsLeftOut (hubFails bad s) s := ⟨_, rfl⟩
  obtain ⟨b, hb⟩ : ∃ b, b = hubsShown (hubFails bad s) a := ⟨_, rfl⟩
  obtain ⟨c, hc⟩ : ∃ c, c = recordsLost (hubFails bad s) (latchesShown b) := ⟨_, rfl⟩
  rw [← ha, ← hb, ← hc] at hexec
  have hsa : Only F.hubs s a := ha ▸ only_hubsLeftOut _ s
  have hab : Only F.regs a b := hb ▸ only_rupd (φ := F.regs) rfl (only_publishHubs (φ := F.regs) rfl (Only.refl _ a)) _ _
  have hbl : Only F.regs b (latchesShown b) := only_rset (φ := F.regs) rfl (only_rset (φ := F.regs) rfl (Only.refl _ b) _ _) _ _
  have hlc : Only (F.cols ||| F.boot ||| F.therm) (latchesShown b) c := hc ▸ only_recordsLost _ _
  have hlatch : rget (latchesShown b) (hubBase 0) = rget b (hubBase 0) := by
    rw [latchesShown, rget_rset_other _ _ (by decide), rget_rset_other _ _ (by decide)]
  obtain ⟨t, ht⟩ : ∃ t, t = stageEnd 3 fs ((hubFails bad s).contains 0) false dur c := ⟨_, rfl⟩
  have honly : Only F.stageEnd c t := ht ▸ only_stageEnded 3 fs _ false dur c
  have hstage : t.stage = 3 := ht ▸ (stageEnd_findings 3 fs ((hubFails bad s).contains 0) false dur c).2
  obtain ⟨hsteady, hreg, hlogs, hfatal⟩ := kilnRecorded_kept t
  rw [← ht] at hexec
  refine ⟨_, hexec, (hlogs.stage rfl).trans hstage, fun h h0 h4 hfail => ?_, fun hfail => ?_, fun hbad hrail hroot hup => ?_, ?_⟩
  · have hmem : h ∈ hubFails bad s := mem_hubFails.2 ⟨h4, by
      rcases hfail with hx | hx | hx
      · exact .inl (by simpa using hx)
      · exact .inr (.inl hx)
      · exact .inr (.inr (.inl hx))⟩
    have hubs : t.hubs = a.hubs := by rw [honly.hubs rfl, hlc.hubs rfl, hbl.hubs rfl, hab.hubs rfl]
    refine ⟨?_, ?_⟩
    · rw [hubAbsent_of_hubSteady hsteady, hubAbsent, hget, hubs, ← hget, ← hubAbsent, ha, hubsLeftOut_absent s hmem (by omega)]
    · rw [hreg, rget, honly.regs rfl, hlc.regs rfl, ← rget, hlatch, hb, hubsShown_bit a hmem h0 h4]
  · have hmem : (hubFails bad s).contains 0 = true := by
      rw [List.contains_iff_mem, mem_hubFails]
      exact ⟨by decide, by tauto⟩
    rw [hmem] at ht
    obtain ⟨hnext, hdead, _⟩ := stageEnd_stops 3 fs false dur c
    exact ⟨by rw [hlogs.boot rfl, ht, hnext], hfatal (by rw [ht, hdead])⟩
  · have hmem : (hubFails bad s).contains 0 = false := by
      rw [Bool.eq_false_iff, Ne, List.contains_iff_mem, mem_hubFails]
      simp [hbad, hrail, hroot, hup]
    rw [hmem] at ht
    obtain ⟨hnext, _⟩ := stageEnd_goes_on 3 fs false dur c
    rw [hlogs.boot rfl, ht, hnext]
    rfl
  · rw [hlogs.t1 rfl, honly.t1 rfl, hlc.t1 rfl, hbl.t1 rfl, hab.t1 rfl, hsa.t1 rfl]

end Sys2Proof.Machine
end

section
/-! Start-up: the bridges, the towers and the bonds. -/

namespace Sys2Proof.Machine

/-! ## Stage 4: the die-to-die links (R354, R361) -/

/-- What a training of bridges keeps of start-up's record: the test records, and the towers taken out, apart from those without a
root clock. -/
theorem trainEdges_effect (edges : List Nat) (f : TestFind) (s : State) : (trainEdges edges f s).2.boot.recs = s.boot.recs ∧
    (trainEdges edges f s).2.boot.defTw = f.noRoot.foldl nsAdd s.boot.defTw := by
  have hlanes (l : List (Nat × Nat)) (g : List Found × State → Nat × Nat → List Found) :
      ∀ a : List Found × State, (l.foldl (fun a e => (g a e, setBrg e.1 (failLane 4 e.2 (brgGrp a.2 e.1)).1 a.2)) a).2.boot.recs =
        a.2.boot.recs ∧ (l.foldl (fun a e => (g a e, setBrg e.1 (failLane 4 e.2 (brgGrp a.2 e.1)).1 a.2)) a).2.boot.defTw =
        a.2.boot.defTw := by
    induction l with
    | nil => exact fun a => ⟨rfl, rfl⟩
    | cons e l ih => exact fun a => ih _
  unfold trainEdges
  dsimp only
  obtain ⟨hrecs, hdef⟩ := hlanes (f.brgLanes.filter (fun e => (edges.flatMap (fun i => [2 * i, 2 * i + 1])).contains (e.1 / 12)))
    (fun a e => if (failLane 4 e.2 (brgGrp a.2 e.1)).2.isSome then a.1 else
      a.1 ++ [{ found 1 (brgUnit (e.1 / 12) (e.1 % 12)) 0x0010 with lane := e.2 }]) (([] : List Found), s)
  refine ⟨hrecs, ?_⟩
  exact congrArg (f.noRoot.foldl nsAdd) hdef

/-- The records that start-up uses again are in use. -/
def recordsInUse (us : List Nat) (s : State) : State := us.foldl (fun s u => setRec u { recOf s u with inUse := true } s) s

theorem recOf_setRec (u v : Nat) (r : TestRec) (s : State) : recOf (setRec u r s) v = if v = u then r else recOf s v := by
  by_cases h : v = u
  · rw [if_pos h, h]
    exact stGet_stSet_same _ _ _ _
  · rw [if_neg h]
    exact stGet_stSet_other _ _ _ h

theorem recordsInUse_inUse {us : List Nat} {u : Nat} (s : State) (h : u ∈ us) : (recOf (recordsInUse us s) u).inUse = true := by
  refine foldl_reaches (P := fun t => (recOf t u).inUse = true) h (fun t => ?_) (fun t v _ ht => ?_) s
  · rw [recOf_setRec, if_pos rfl]
  · rw [recOf_setRec]
    split
    · rfl
    · exact ht

theorem only_recordsInUse (us : List Nat) (s : State) : Only F.boot s (recordsInUse us s) :=
  only_foldl (φ := F.boot) (fun _ _ h => only_setRec (φ := F.boot) rfl h _ _) (Only.refl _ s)

theorem noRoot_of_pwr {s t : State} (h : t.pwr = s.pwr) (d : Nat) : noRoot t d = noRoot s d := by
  simp only [noRoot, logicRail, h]

theorem stage4_runs (f : TestFind) {s : State} (hdue : stageDue s 4 = true) : ∃ t, exec (.stage4 f) s = .next t ∧ t.stage = 4 ∧
    t.boot.next = some 5 ∧ (∀ u ∈ s.boot.reuse, (recOf t u).inUse = true) ∧
    (∀ n ∈ f.noRoot, nsHas t.boot.defTw n = true) ∧ (∀ n, n < 16 → noRoot s n = true → nsHas t.boot.defTw n = true) := by
  obtain ⟨u, hu⟩ : ∃ u, u = recordsInUse s.boot.reuse s := ⟨_, rfl⟩
  obtain ⟨g, hg⟩ : ∃ g, g = withRoots (List.range 16) f u := ⟨_, rfl⟩
  obtain ⟨fs, hexec⟩ : ∃ fs, exec (.stage4 f) s = .next (stageEnd 4 fs false false f.dur (trainEdges (List.range 44) g u).2) := by
    refine ⟨(trainEdges (List.range 44) g u).1, ?_⟩
    rw [exec, execStage4, hg, hu]
    exact if_neg (by simp [hdue])
  obtain ⟨hrecs, hdef⟩ := trainEdges_effect (List.range 44) g u
  generalize (trainEdges (List.range 44) g u).2 = v at hexec hrecs hdef
  obtain ⟨hfound, hstage⟩ := stageEnd_findings 4 fs false false f.dur v
  obtain ⟨hnext, _⟩ := stageEnd_goes_on 4 fs false f.dur v
  have htrecs : (stageEnd 4 fs false false f.dur v).boot.recs = u.boot.recs := (congrArg BootSt.recs hfound).trans hrecs
  have htdef (n : Nat) (hn : n ∈ g.noRoot) : nsHas (stageEnd 4 fs false false f.dur v).boot.defTw n = true := by
    have heq : (stageEnd 4 fs false false f.dur v).boot.defTw = g.noRoot.foldl nsAdd u.boot.defTw :=
      (congrArg BootSt.defTw hfound).trans hdef
    rw [heq, nsHas_foldl_nsAdd]
    exact .inl hn
  refine ⟨_, hexec, hstage, hnext, fun r hr => ?_, fun n hn => htdef n ?_, fun n hn hroot => htdef n ?_⟩
  · rw [recOf, htrecs, hu]
    exact recordsInUse_inUse s hr
  · rw [hg]
    exact List.mem_append_left _ hn
  · rw [hg, withRoots, List.mem_append]
    by_cases hmem : n ∈ f.noRoot
    · exact .inl hmem
    · refine .inr (List.mem_filter.2 ⟨List.mem_range.2 hn, ?_⟩)
      rw [noRoot_of_pwr (hu ▸ (only_recordsInUse _ _).pwr rfl rfl), hroot]
      simpa using hmem

/-! ## The map (R358) -/

/-- Whether a tower, a cluster or a core is usable is a matter of start-up's record, the rails, the lost towers and the hubs. -/
theorem mapBuild_of_kept {s t : State} (hboot : t.boot = s.boot) (hrails : t.pwr.rails = s.pwr.rails) (hlost : t.lostTw = s.lostTw)
    (hhubs : t.hubs = s.hubs) : mapBuild t = mapBuild s := by
  have hsite : siteUsable t = siteUsable s := funext fun c => by
    simp only [siteUsable, bothRetired, hboot]
  have hsites (k : Nat) : cluSites t k = cluSites s k := by
    simp only [cluSites, hsite]
  have hclu : cluUsable t = cluUsable s := funext fun k => by
    simp only [cluUsable, hsites, hboot]
  have hgroups (d : Nat) : groupsUp t d = groupsUp s d := by
    simp only [groupsUp, hboot]
  have hedge : edgeUp t = edgeUp s := funext fun i => by
    simp only [edgeUp, edgeEnds, hgroups, hubAbsent, hget, hlost, hhubs]
  have htower : towerUsable t = towerUsable s := funext fun n => by
    simp only [towerUsable, hedge, hclu, hboot, hrails, hlost]
  have hmap (n i : Nat) (m : LogMap) : mapTower t n i m = mapTower s n i m := by
    simp only [mapTower, hclu, hsites]
  simp only [mapBuild, htower, hmap]

theorem remap_map (m : LogMap) (s : State) : (remap m s).map = m := by
  rw [remap]
  split
  · next h => exact h.symm
  · rw [rupd_map, mapChange_map]

/-! ## Stage 5: the cores and the towers (R357, R363) -/

theorem stage5_runs (f : TestFind) {s : State} (hdue : stageDue s 5 = true) : ∃ t, exec (.stage5 f) s = .next t ∧ t.stage = 5 ∧
    t.map = mapBuild (testTowers (List.range 16) (fullFind s f) s).2 ∧ (t.map.tw ≠ [] → t.boot.next = some 6) ∧
    (t.map.tw = [] → t.boot.next = none ∧ t.fatal = true) := by
  obtain ⟨v, hv⟩ : ∃ v, v = (testTowers (List.range 16) (fullFind s f) s).2 := ⟨_, rfl⟩
  obtain ⟨w, hw⟩ : ∃ w, w = ((List.range 16).filter (fun n => !nsHas v.boot.reuse n)).foldl (fun s n => wipeSrams n s) v := ⟨_, rfl⟩
  obtain ⟨fs, hexec⟩ : ∃ fs, exec (.stage5 f) s = .next (stageEnd 5 fs (remap (mapBuild w) w).map.tw.isEmpty
      (towersReused (remap (mapBuild w) w)) f.dur (remap (mapBuild w) w)) := by
    refine ⟨(testTowers (List.range 16) (fullFind s f) s).1, ?_⟩
    rw [exec, execStage5, hw, hv]
    exact if_neg (by simp [hdue])
  have hvw : Only (F.sp ||| F.spChk ||| F.csram ||| F.csChk) v w := hw ▸ only_foldl (φ := F.sp ||| F.spChk ||| F.csram ||| F.csChk)
    (fun _ _ h => only_wipeSrams (φ := F.sp ||| F.spChk ||| F.csram ||| F.csChk) rfl h _) (Only.refl _ v)
  have hmap : mapBuild w = mapBuild v := mapBuild_of_kept (hvw.boot rfl) (hvw.rails rfl) (hvw.lostTw rfl) (hvw.hubs rfl)
  generalize hx : remap (mapBuild w) w = x at hexec
  have hxmap : x.map = mapBuild v := by rw [← hx, remap_map, hmap]
  obtain ⟨_, hstage⟩ := stageEnd_findings 5 fs x.map.tw.isEmpty (towersReused x) f.dur x
  have htmap := (only_stageEnded 5 fs x.map.tw.isEmpty (towersReused x) f.dur x).map rfl
  refine ⟨_, hexec, hstage, by rw [htmap, hxmap, hv], fun hsome => ?_, fun hnone => ?_⟩
  · rw [htmap] at hsome
    rw [List.isEmpty_eq_false_iff.2 hsome]
    obtain ⟨hnext, _⟩ := stageEnd_goes_on 5 fs (towersReused x) f.dur x
    exact hnext
  · rw [htmap] at hnone
    rw [List.isEmpty_iff.2 hnone]
    obtain ⟨hnext, hfatal, _⟩ := stageEnd_stops 5 fs (towersReused x) f.dur x
    exact ⟨hnext, hfatal⟩

/-! ## Stage 6: the bonds and tier 1 (R364) -/

theorem Only.t1Chk {m : Nat} {s t : State} (h : Only m s t) (hm : m.testBit 13 = false) : t.t1Chk = s.t1Chk := by
  rw [← h, mix, hm, cond_false]

theorem Only.ftag {m : Nat} {s t : State} (h : Only m s t) (hm : m.testBit 14 = false) : t.ftag = s.ftag := by
  rw [← h, mix, hm, cond_false]

/-- Tier 1 holds nothing after its test. -/
def tierOneEmpty (s : State) : State :=
  { s with t1 := [], t1Chk := [], ftag := [], noReuse := [], zeroQ := [], sec := { s.sec with dirty := [] } }

/-- What writing test records and the map changes, and the end of a stage. -/
def F.stageLate : Nat := F.stageEnd ||| F.regs ||| F.map ||| F.net

/-- Stage 6 after the bonds are tested, for the towers that it tests afresh. -/
def towersTested (s : State) : State :=
  writeRecs ((List.range 16).filter (fun n =>
    !nsHas s.boot.reuse n && nsHas s.pwr.rails (4 + n) && !nsHas s.lostTw n && !nsHas s.boot.defTw n)) s

theorem exec_stage6 (f : TestFind) {s : State} (hdue : stageDue s 6 = true) : ∃ fs v, v = (testBonds (List.range 16) (fullFind s f) s).2 ∧
    exec (.stage6 f) s = .next (stageEnd 6 fs false (towersReused (towersTested (remap (mapBuild v) (tierOneEmpty v)))) f.dur
      (towersTested (remap (mapBuild v) (tierOneEmpty v)))) := by
  refine ⟨(testBonds (List.range 16) (fullFind s f) s).1, _, rfl, ?_⟩
  rw [exec, execStage6, if_neg (by simp [hdue])]
  generalize testBonds (List.range 16) (fullFind s f) s = r
  obtain ⟨fs, v⟩ := r
  rfl

theorem stage6_runs (f : TestFind) {s : State} (hdue : stageDue s 6 = true) : ∃ t, exec (.stage6 f) s = .next t ∧ t.stage = 6 ∧
    t.boot.next = some 7 ∧ t.map = mapBuild (testBonds (List.range 16) (fullFind s f) s).2 ∧ t.t1 = [] ∧ t.t1Chk = [] ∧ t.ftag = [] ∧
    t.sec.dirty = [] := by
  obtain ⟨fs, v, hv, hexec⟩ := exec_stage6 f hdue
  obtain ⟨w, hw⟩ : ∃ w, w = remap (mapBuild v) (tierOneEmpty v) := ⟨_, rfl⟩
  obtain ⟨x, hx⟩ : ∃ x, x = towersTested w := ⟨_, rfl⟩
  rw [← hw, ← hx] at hexec
  have hvw : Only F.stageLate (tierOneEmpty v) w := hw ▸ only_remap (φ := F.stageLate) rfl (Only.refl _ _) _
  have hwx : Only F.boot w x := hx ▸ only_writeRecs (φ := F.boot) rfl (Only.refl _ _) _
  have hxt := only_stageEnded 6 fs false (towersReused x) f.dur x
  have hall : Only F.stageLate (tierOneEmpty v) (stageEnd 6 fs false (towersReused x) f.dur x) :=
    (hvw.trans (hwx.mono rfl)).trans (hxt.mono rfl)
  obtain ⟨_, hstage⟩ := stageEnd_findings 6 fs false (towersReused x) f.dur x
  obtain ⟨hnext, _⟩ := stageEnd_goes_on 6 fs (towersReused x) f.dur x
  refine ⟨_, hexec, hstage, hnext, ?_, hall.t1 rfl, hall.t1Chk rfl, hall.ftag rfl, ?_⟩
  · rw [hxt.map rfl, hwx.map rfl, hw, remap_map, hv]
  · exact congrArg SecSt.dirty (hall.sec rfl)

end Sys2Proof.Machine
end

section
/-! Start-up: tier 2, the optical engines, the firmware, and the time limits. -/

namespace Sys2Proof.Machine

/-! ## Stage 7: tier 2 (R365) -/

theorem Only.t2poison {m : Nat} {s t : State} (h : Only m s t) (hm : m.testBit 54 = false) : t.t2poison = s.t2poison := by
  rw [← h, mix, hm, cond_false]

theorem Only.net {m : Nat} {s t : State} (h : Only m s t) (hm : m.testBit 52 = false) : t.net = s.net := by
  rw [← h, mix, hm, cond_false]

theorem Only.booted {m : Nat} {s t : State} (h : Only m s t) (hm : m.testBit 41 = false) : t.booted = s.booted := by
  rw [← h, mix, hm, cond_false]

/-- A package that stage 7 takes out of use. -/
def packageFails (bad : List (Nat × Nat)) (s : State) (k : Nat) : Bool :=
  bad.any (fun e => e.1 == k && e.2 != 0x0032) || !nsHas s.pwr.rails 20 || timedOut s k || hubAbsent s (k / 6)

/-- The hubs show which of their packages work. -/
def packagesShown (bad : List (Nat × Nat)) (s : State) : State :=
  iter 4 (fun h u => rupd (hubBase h) (fun w =>
    wPut w 15 10 (sumNat ((List.range 6).map (fun i => if packageFails bad s (6 * h + i) then 0 else 2 ^ i)))) u) s

/-- Tier 2 holds nothing after its test, and the packages taken out of use are noted. -/
def tierTwoEmpty (fails : Nat → Bool) (s : State) : State :=
  { s with
    t2 := [], t2poison := [], t2q := [], sec := { s.sec with dirtyT2 := [] }
    boot := { s.boot with pkgBad := (List.range 24).filter (fun k => fails k && !hubAbsent s (k / 6)) } }

/-- The hubs whose tier 2 was tested afresh have a new record. -/
def hubsTested (s : State) : State :=
  writeRecs ((List.range 4).filterMap (fun h => if nsHas s.boot.reuse (16 + h) then none else some (16 + h))) s

theorem writeRecs_pkgBad (us : List Nat) (s : State) : (writeRecs us s).boot.pkgBad = s.boot.pkgBad := by
  rw [writeRecs]
  exact List.foldlRecOn _ _ (motive := fun t : State => t.boot.pkgBad = s.boot.pkgBad) rfl fun t ht _ _ => ht

theorem exec_stage7 (bad : List (Nat × Nat)) (dur : Nat) {s : State} (hdue : stageDue s 7 = true) : ∃ fs reused,
    exec (.stage7 bad dur) s = .next (stageEnd 7 fs false reused dur
      (hubsTested (tierTwoEmpty (packageFails bad s) (packagesShown bad s)))) := by
  rw [exec, execStage7]
  exact ⟨_, _, if_neg (by simp [hdue])⟩

theorem packageFails_of_bad {bad : List (Nat × Nat)} {k : Nat} (s : State) (h : ∃ e ∈ bad, e.1 = k ∧ e.2 ≠ 0x0032) :
    packageFails bad s k = true := by
  obtain ⟨e, he, hk, hne⟩ := h
  have hany : bad.any (fun e => e.1 == k && e.2 != 0x0032) = true := List.any_eq_true.2 ⟨e, he, by simp [hk, hne]⟩
  rw [packageFails, hany]
  rfl

theorem packageFails_of_good {bad : List (Nat × Nat)} {k : Nat} {s : State} (h : ∀ e ∈ bad, e.1 = k → e.2 = 0x0032)
    (hrail : nsHas s.pwr.rails 20 = true) (htime : timedOut s k = false) (hhub : hubAbsent s (k / 6) = false) :
    packageFails bad s k = false := by
  have hany : bad.any (fun e => e.1 == k && e.2 != 0x0032) = false := by
    rw [List.any_eq_false]
    intro e he hbad
    simp only [Bool.and_eq_true, beq_iff_eq, bne_iff_ne] at hbad
    obtain ⟨hk, hne⟩ := hbad
    exact hne (h e he hk)
  rw [packageFails, hany, hrail, htime, hhub]
  rfl

theorem stage7_runs (bad : List (Nat × Nat)) (dur : Nat) {s : State} (hdue : stageDue s 7 = true) :
    ∃ t, exec (.stage7 bad dur) s = .next t ∧ t.stage = 7 ∧ t.boot.next = some 8 ∧ t.t2 = [] ∧ t.t2poison = [] ∧ t.sec.dirtyT2 = [] ∧
    ∀ k, k < 24 → hubAbsent s (k / 6) = false → ((∃ e ∈ bad, e.1 = k ∧ e.2 ≠ 0x0032) → nsHas t.boot.pkgBad k = true) ∧
      ((∀ e ∈ bad, e.1 = k → e.2 = 0x0032) → nsHas s.pwr.rails 20 = true → timedOut s k = false → nsHas t.boot.pkgBad k = false) := by
  obtain ⟨fs, reused, hexec⟩ := exec_stage7 bad dur hdue
  obtain ⟨u, hu⟩ : ∃ u, u = packagesShown bad s := ⟨_, rfl⟩
  obtain ⟨v, hv⟩ : ∃ v, v = tierTwoEmpty (packageFails bad s) u := ⟨_, rfl⟩
  rw [← hu, ← hv] at hexec
  have hsu : Only F.regs s u := hu ▸ only_iter (φ := F.regs) (fun _ _ h => only_rupd (φ := F.regs) rfl h _ _) (Only.refl _ s)
  have hvt : Only F.stageEnd v (stageEnd 7 fs false reused dur (hubsTested v)) :=
    only_stageEnd (φ := F.stageEnd) rfl (only_writeRecs (φ := F.stageEnd) rfl (Only.refl _ v) _) _ _ _ _ _
  obtain ⟨hfound, hstage⟩ := stageEnd_findings 7 fs false reused dur (hubsTested v)
  obtain ⟨hnext, _⟩ := stageEnd_goes_on 7 fs reused dur (hubsTested v)
  have hpkg : (stageEnd 7 fs false reused dur (hubsTested v)).boot.pkgBad = v.boot.pkgBad :=
    (congrArg BootSt.pkgBad hfound).trans (writeRecs_pkgBad _ v)
  have hhas (k : Nat) (hk : k < 24) (hhub : hubAbsent s (k / 6) = false) : nsHas v.boot.pkgBad k = packageFails bad s k := by
    have hup : hubAbsent u (k / 6) = false := by rw [hubAbsent, hget, hsu.hubs rfl, ← hget, ← hubAbsent, hhub]
    rw [hv, Bool.eq_iff_iff, nsHas, List.contains_iff_mem]
    show k ∈ (List.range 24).filter (fun k => packageFails bad s k && !hubAbsent u (k / 6)) ↔ _
    simp [hk, hup]
  refine ⟨_, hexec, hstage, hnext, ?_, ?_, ?_, fun k hk hhub => ?_⟩
  · rw [hvt.t2 rfl, hv, tierTwoEmpty]
  · rw [hvt.t2poison rfl, hv, tierTwoEmpty]
  · rw [hvt.sec rfl, hv, tierTwoEmpty]
  · rw [hpkg, hhas k hk hhub]
    exact ⟨packageFails_of_bad s, fun hgood hrail htime => packageFails_of_good hgood hrail htime hhub⟩

/-! ## Stage 8: the optical engines (R366) -/

/-- What stage 8 finds of port `p`'s engine. -/
def engineAt (eng : List EngineFind) (s : State) (p : Nat) : EngineFind :=
  let e := listAt eng p { id := 0, qualified := true, ucie := 0, tx := 0, rx := 0 }
  if timedOut s p || !nsHas s.pwr.rails 21 then { e with ucie := 0, tx := 0, rx := 0 } else e

theorem engineAt_found {eng : List EngineFind} {s : State} {p : Nat} {e : EngineFind} (h : eng[p]? = some e)
    (htime : timedOut s p = false) (hrail : nsHas s.pwr.rails 21 = true) : engineAt eng s p = e := by
  rw [engineAt, htime, hrail, if_neg (by decide), listAt, List.getD_eq_getElem?_getD, h]
  rfl

/-- Port `p` has engine `f`: its light is held back unless the engine is qualified. -/
def engineSet (f : EngineFind) (p : Nat) (s : State) : State :=
  { s with
    boot := { s.boot with oeHeld := if f.qualified then nsDel s.boot.oeHeld p else nsAdd s.boot.oeHeld p }
    fab := { s.fab with ports := stSet (fun _ => FPort.reset) s.fab.ports p (FPort.trained f) } }

/-- Port `p` trains with engine `f`. -/
def portTrained (f : EngineFind) (p : Nat) (s : State) : State :=
  grantAll p 32 (publishPort p (engineSet f p (rset (fportKey p 0) (BitVec.ofNat 32 (portWord f)) (rset (fportKey p 8) f.id s))))

theorem exec_stage8 (eng : List EngineFind) (dur : Nat) {s : State} (hdue : stageDue s 8 = true) : ∃ fs,
    exec (.stage8 eng dur) s = .next (stageEnd 8 fs false false dur
      (iter 16 (fun p u => if !!hubAbsent s (p / 4) then u else portTrained (engineAt eng s p) p u) s)) := by
  rw [exec, execStage8]
  exact ⟨_, if_neg (by simp [hdue])⟩

/-- Port `p`'s status and its engine's hold, as before. -/
def EngineKept (p : Nat) (s t : State) : Prop :=
  rget t (fportKey p 0) = rget s (fportKey p 0) ∧ nsHas t.boot.oeHeld p = nsHas s.boot.oeHeld p

theorem engineKept_trans {p : Nat} {s t u : State} (h : EngineKept p s t) (k : EngineKept p t u) : EngineKept p s u := by
  obtain ⟨hreg, hheld⟩ := h
  obtain ⟨kreg, kheld⟩ := k
  exact ⟨kreg.trans hreg, kheld.trans hheld⟩

theorem engineSet_kept (f : EngineFind) (p : Nat) (s : State) : (engineSet f p s).regs = s.regs ∧
    (engineSet f p s).boot.oeHeld = if f.qualified then nsDel s.boot.oeHeld p else nsAdd s.boot.oeHeld p := ⟨rfl, rfl⟩

/-- The port's status and its engine's hold are settled before the credits are granted. -/
theorem portTrained_rest (f : EngineFind) (p : Nat) (s : State) : ∃ u v, v = rset (fportKey p 0) (BitVec.ofNat 32 (portWord f))
      (rset (fportKey p 8) f.id s) ∧ u.regs = v.regs ∧
      u.boot.oeHeld = (if f.qualified then nsDel s.boot.oeHeld p else nsAdd s.boot.oeHeld p) ∧
      portTrained f p s = grantAll p 32 (publishPort p u) := by
  obtain ⟨hregs, hheld⟩ := engineSet_kept f p (rset (fportKey p 0) (BitVec.ofNat 32 (portWord f)) (rset (fportKey p 8) f.id s))
  refine ⟨_, _, rfl, hregs, ?_, rfl⟩
  rw [hheld, rset_boot, rset_boot]

theorem grantAll_kept (p n : Nat) (s : State) : (grantAll p n s).regs = s.regs ∧ (grantAll p n s).boot = s.boot := by
  have h : Only (F.ctrs ||| F.fab) s (grantAll p n s) := only_grantAll (φ := F.ctrs ||| F.fab) rfl (Only.refl _ s) p n
  exact ⟨h.regs rfl, h.boot rfl⟩

theorem publishPort_kept {p q : Nat} (s : State) (hq : q < 16) : rget (publishPort p s) (fportKey q 0) = rget s (fportKey q 0) ∧
    (publishPort p s).boot = s.boot := by
  refine ⟨?_, by rw [publishPort, rupd_boot, rupd_boot]⟩
  have hkey : fportKey q 0 = 0x9000000 + q / 4 * 0x400000 + 0x40100 + 16 * (q % 4) + 0 := rfl
  have hbase : hubBase (p / 4) = 0x9000000 + p / 4 * 0x400000 := rfl
  rw [publishPort, rupd, rget_rset_other _ _ (by omega), rupd, rget_rset_other _ _ (by omega)]

theorem portTrained_shows (f : EngineFind) {p : Nat} (s : State) (hp : p < 16) :
    rget (portTrained f p s) (fportKey p 0) = BitVec.ofNat 32 (portWord f) ∧
      nsHas (portTrained f p s).boot.oeHeld p = !f.qualified := by
  obtain ⟨u, v, hv, hregs, hheld, heq⟩ := portTrained_rest f p s
  obtain ⟨kregs, kboot⟩ := grantAll_kept p 32 (publishPort p u)
  obtain ⟨preg, pboot⟩ := publishPort_kept (p := p) u hp
  refine ⟨?_, ?_⟩
  · rw [heq, rget, kregs, ← rget, preg, rget, hregs, ← rget, hv, rget_rset_same]
  · rw [heq, kboot, pboot, hheld]
    cases f.qualified with
    | true => rw [if_pos rfl, nsHas_nsDel, bne_self_eq_false, Bool.false_and, Bool.not_true]
    | false => rw [if_neg Bool.false_ne_true, nsHas_nsAdd, beq_self_eq_true, Bool.true_or, Bool.not_false]

theorem portTrained_other (f : EngineFind) {p q : Nat} (s : State) (hp : p < 16) (hq : q < 16) (h : q ≠ p) :
    EngineKept q s (portTrained f p s) := by
  obtain ⟨u, v, hv, hregs, hheld, heq⟩ := portTrained_rest f p s
  obtain ⟨kregs, kboot⟩ := grantAll_kept p 32 (publishPort p u)
  obtain ⟨preg, pboot⟩ := publishPort_kept (p := p) u hq
  have hkeys : fportKey q 0 ≠ fportKey p 0 ∧ fportKey q 0 ≠ fportKey p 8 := by
    rw [fportKey, fportKey, fportKey, hubBase, hubBase]
    omega
  obtain ⟨hstat, hid⟩ := hkeys
  refine ⟨?_, ?_⟩
  · rw [heq, rget, kregs, ← rget, preg, rget, hregs, ← rget, hv, rget_rset_other _ _ hstat, rget_rset_other _ _ hid]
  · rw [heq, kboot, pboot, hheld]
    cases f.qualified with
    | true => rw [if_pos rfl, nsHas_nsDel, bne_iff_ne.2 h, Bool.true_and]
    | false => rw [if_neg Bool.false_ne_true, nsHas_nsAdd, beq_eq_false_iff_ne.2 h, Bool.false_or]

theorem stage8_runs (eng : List EngineFind) (dur : Nat) {s : State} (hdue : stageDue s 8 = true) :
    ∃ t, exec (.stage8 eng dur) s = .next t ∧ t.stage = 8 ∧ t.boot.next = some 9 ∧
    ∀ p e, p < 16 → hubAbsent s (p / 4) = false → eng[p]? = some e → timedOut s p = false → nsHas s.pwr.rails 21 = true →
      rget t (fportKey p 0) = BitVec.ofNat 32 (portWord e) ∧ nsHas t.boot.oeHeld p = !e.qualified := by
  obtain ⟨fs, hexec⟩ := exec_stage8 eng dur hdue
  obtain ⟨v, hv⟩ : ∃ v, v = iter 16 (fun p u => if !!hubAbsent s (p / 4) then u else portTrained (engineAt eng s p) p u) s := ⟨_, rfl⟩
  rw [← hv] at hexec
  obtain ⟨hfound, hstage⟩ := stageEnd_findings 8 fs false false dur v
  obtain ⟨hnext, _⟩ := stageEnd_goes_on 8 fs false dur v
  have hregs := (only_stageEnded 8 fs false false dur v).regs rfl
  have hheld : (stageEnd 8 fs false false dur v).boot.oeHeld = v.boot.oeHeld := (congrArg BootSt.oeHeld hfound :)
  refine ⟨_, hexec, hstage, hnext, fun p e hp hhub he htime hrail => ?_⟩
  obtain ⟨u, _, hafter⟩ := iter_reach (K := EngineKept p) (fun _ => ⟨rfl, rfl⟩) engineKept_trans
    (f := fun p u => if !!hubAbsent s (p / 4) then u else portTrained (engineAt eng s p) p u) (n := p) (k := 16)
    (fun i u hi hne => by
      split
      · exact ⟨rfl, rfl⟩
      · exact portTrained_other _ u hi hp (Ne.symm hne)) hp s
  rw [← hv, if_neg (by rw [hhub]; decide), engineAt_found he htime hrail] at hafter
  obtain ⟨hreg, hhas⟩ := hafter
  obtain ⟨hshown, hqual⟩ := portTrained_shows e u hp
  exact ⟨by rw [rget, hregs, ← rget, hreg, hshown], by rw [hheld, hhas, hqual]⟩

/-! ## Stage 9: the firmware (R366) -/

/-- A test record that is in use no more. -/
def TestRec.freed (r : TestRec) : TestRec := { r with inUse := false }

/-- No test record is in use any more. -/
def recordsFree (us : List Nat) (s : State) : State := us.foldl (fun s u => setRec u (recOf s u).freed s) s

theorem recOf_recordsFree (us : List Nat) (u : Nat) (s : State) :
    recOf (recordsFree us s) u = if u ∈ us then (recOf s u).freed else recOf s u := by
  induction us generalizing s with
  | nil => rfl
  | cons v us ih =>
    have hstep : recordsFree (v :: us) s = recordsFree us (setRec v (recOf s v).freed s) := rfl
    rw [hstep, ih, recOf_setRec]
    by_cases huv : u = v
    · rw [if_pos huv, if_pos (List.mem_cons.2 (.inl huv)), huv]
      exact ite_self _
    · rw [if_neg huv]
      simp only [List.mem_cons, huv, false_or]

/-- The least version is burnt into the fuses. -/
def versionBurnt (s : State) : State :=
  let svn := max s.sec.svnFuse (wFld (rget s (secBase + 8)) 13 8)
  rupd (secBase + 8) (fun w => wPut w 5 0 svn) { s with sec := { s.sec with svnFuse := svn } }

/-- The device runs: its routes are loaded and no older map is in use. -/
def deviceUp (s : State) : State := routeLoad { s with net := { s.net with oldMaps := [], moved := [] } }

theorem stage9_stops {ok : Bool} (dur : Nat) {s : State} (hdue : stageDue s 9 = true) (h : ok = false ∨ timedOut s 0 = true) :
    ∃ fs, exec (.stage9 ok dur) s = .next (stageEnd 9 fs true false dur s) := by
  rw [exec, execStage9]
  refine ⟨_, (if_neg (by simp [hdue])).trans (if_pos ?_)⟩
  rcases h with h | h
  · simp [h]
  · simp [h]

theorem stage9_ends {ok : Bool} (dur : Nat) {s : State} (hdue : stageDue s 9 = true) (hok : ok = true) (htime : timedOut s 0 = false) :
    ∃ w, exec (.stage9 ok dur) s = .next { stageEnd 9 [] false false dur (deviceUp (versionBurnt (recordsFree recUnits (rset 0x48 w s)))) with
      booted := true } := by
  rw [exec, execStage9]
  exact ⟨_, (if_neg (by simp [hdue])).trans (if_neg (by simp [hok, htime]))⟩

theorem stage9_runs (ok : Bool) (dur : Nat) {s : State} (hdue : stageDue s 9 = true) :
    ∃ t, exec (.stage9 ok dur) s = .next t ∧ t.stage = 9 ∧ t.boot.next = none ∧
    (ok = true → timedOut s 0 = false → t.booted = true ∧ t.fatal = s.fatal ∧ t.net.oldMaps = [] ∧
      t.sec.svnFuse = max s.sec.svnFuse (wFld (rget s (secBase + 8)) 13 8) ∧
      (∀ u, u < 20 → recOf t u = { recOf s u with inUse := false })) ∧
    (ok = false ∨ timedOut s 0 = true → t.fatal = true ∧ t.booted = s.booted) := by
  by_cases h : ok = true ∧ timedOut s 0 = false
  · obtain ⟨hok, htime⟩ := h
    obtain ⟨w, hexec⟩ := stage9_ends dur hdue hok htime
    obtain ⟨a, ha⟩ : ∃ a, a = rset 0x48 w s := ⟨_, rfl⟩
    obtain ⟨b, hb⟩ : ∃ b, b = recordsFree recUnits a := ⟨_, rfl⟩
    obtain ⟨c, hc⟩ : ∃ c, c = versionBurnt b := ⟨_, rfl⟩
    obtain ⟨d, hd⟩ : ∃ d, d = deviceUp c := ⟨_, rfl⟩
    rw [← ha, ← hb, ← hc, ← hd] at hexec
    have hsa : Only F.regs s a := ha ▸ only_rset (φ := F.regs) rfl (Only.refl _ s) _ _
    have hab : Only F.boot a b := hb ▸ only_foldl (φ := F.boot) (fun _ _ h => only_setRec (φ := F.boot) rfl h _ _) (Only.refl _ a)
    have hbc : Only (F.regs ||| F.sec) b c := hc ▸ only_rupd (φ := F.regs ||| F.sec) rfl (only_with (a := F.sec) rfl rfl (Only.refl _ b)) _ _
    have hcd : Only F.net c d := hd ▸ only_routeLoad (φ := F.net) rfl (only_with (a := F.net) rfl rfl (Only.refl _ c))
    have hdt := only_stageEnded 9 [] false false dur d
    obtain ⟨hfound, hstage⟩ := stageEnd_findings 9 [] false false dur d
    obtain ⟨hnext, _, hfatal, _⟩ := stageEnd_goes_on 9 [] false dur d
    refine ⟨_, hexec, hstage, hnext, fun _ _ => ⟨rfl, ?_, ?_, ?_, fun u hu => ?_⟩, fun hbad => ?_⟩
    · exact hfatal.trans (by rw [hcd.fatal rfl, hbc.fatal rfl, hab.fatal rfl, hsa.fatal rfl])
    · have hnet := hdt.net rfl
      exact (congrArg NetSt.oldMaps hnet).trans (by rw [hd]; rfl)
    · have hsec := hdt.sec rfl
      have hburnt : c.sec.svnFuse = max b.sec.svnFuse (wFld (rget b (secBase + 8)) 13 8) := by
        rw [hc, versionBurnt, rupd_sec]
      have hword : rget b (secBase + 8) = rget s (secBase + 8) := by
        rw [rget, hab.regs rfl, ← rget, ha, rget_rset_other _ _ (by decide)]
      refine (congrArg SecSt.svnFuse hsec).trans ?_
      rw [hcd.sec rfl, hburnt, hword, hab.sec rfl, hsa.sec rfl]
    · have hrecs : (stageEnd 9 [] false false dur d).boot.recs = d.boot.recs := (congrArg BootSt.recs hfound :)
      have hd' : d.boot = b.boot := (hcd.boot rfl).trans (hbc.boot rfl)
      have hall : recOf (stageEnd 9 [] false false dur d) u = (recOf s u).freed := by
        have hmem : u ∈ recUnits := List.mem_range.2 hu
        have hfree : recOf b u = (recOf a u).freed := by rw [hb, recOf_recordsFree, if_pos hmem]
        rw [recOf, hrecs, hd', ← recOf, hfree, recOf, hsa.boot rfl, ← recOf]
      exact hall
    · exact absurd hbad (by simp [hok, htime])
  · have hbad : ok = false ∨ timedOut s 0 = true := by
      cases ok with
      | false => exact .inl rfl
      | true => exact .inr (by simpa using h)
    obtain ⟨fs, hexec⟩ := stage9_stops dur hdue hbad
    obtain ⟨_, hstage⟩ := stageEnd_findings 9 fs true false dur s
    obtain ⟨hnext, hfatal, _⟩ := stageEnd_stops 9 fs false dur s
    exact ⟨_, hexec, hstage, hnext, fun hok htime => absurd ⟨hok, htime⟩ h,
      fun _ => ⟨hfatal, (only_stageEnded 9 fs true false dur s).booted rfl⟩⟩

/-! ## The time limits (R348) -/

theorem stageTimeLimit_logs {unit n : Nat} {s : State} (hn : s.boot.next = some n) (h4 : 4 ≤ n) (hdue : stageDue s n = true) :
    ∃ t, exec (.stageTimeLimit unit) s = .next t ∧ nsHas t.boot.timed unit = true ∧
      t.boot.fireNext = (s.boot.fireNext + 1) % 8192 ∧ t.boot.next = some n ∧ t.regs = s.regs := by
  obtain ⟨u, hu⟩ : ∃ u : State, u = { s with boot := { s.boot with timed := nsAdd s.boot.timed unit } } := ⟨_, rfl⟩
  have hexec : exec (.stageTimeLimit unit) s = .next (fireLog n (foundLate n unit) false false 0 0 [] u) := by
    rw [exec, execStageTimeLimit, hn, hu]
    exact if_neg (by simp [hdue]; omega)
  refine ⟨_, hexec, ?_, ?_, ?_, ?_⟩
  · rw [fireLog, hu, nsHas_nsAdd, beq_self_eq_true, Bool.true_or]
  · rw [fireLog, hu]
  · rw [fireLog, hu, hn]
  · rw [fireLog, hu]

end Sys2Proof.Machine

open Sys2Proof.Machine

/-- Settles O57: every stage ends in the same way, which leaves what start-up has found, and each stage's findings are read off the
state before its end. -/
theorem startUp : Obligations.StartUp := by
  unfold Obligations.StartUp
  refine ⟨fun s => by rw [exec, execRstNAssert], fun s hpin hin hrails => ?_, fun s => resetApply_resets, fun s => rstNRelease_starts,
    fun pll bad dur s => stage0_runs pll bad dur, fun f im recs lid dur s => stage1_runs f im recs lid dur,
    fun up speed width dur s => stage2_runs up speed width dur, fun bad dur s => stage3_runs bad dur, fun f s => stage4_runs f,
    fun f s => stage5_runs f, fun f s => stage6_runs f, fun bad dur s => stage7_runs bad dur, fun eng dur s => stage8_runs eng dur,
    fun ok dur s => stage9_runs ok dur, fun unit n s => stageTimeLimit_logs⟩
  rw [exec, execRstNRelease]
  exact (if_neg (by simp [hpin])).trans (if_pos (by simp [hin, hrails]))
end

section
/-! Messages of the fabric: routing, heartbeats, streams and reductions. -/

namespace Sys2Proof.Machine

/-! ## What the links and the error log leave of the fabric -/

/-- The fabric's state apart from its links: what has arrived, what waits, and who answers. -/
def FabSt.messages (f : FabSt) : FabSt := { f with ports := [], flits := [] }

/-- Only links have worked. -/
def linksOnly (s t : State) : Prop := t.fab.messages = s.fab.messages ∧ t.regs = s.regs

theorem linksOnly_refl (s : State) : linksOnly s s := ⟨rfl, rfl⟩

theorem linksOnly_trans {s t u : State} (h : linksOnly s t) (k : linksOnly t u) : linksOnly s u := by
  obtain ⟨hfab, hregs⟩ := h
  obtain ⟨kfab, kregs⟩ := k
  exact ⟨kfab.trans hfab, kregs.trans hregs⟩

theorem linksOnly_fportSet (p : Nat) (u : FPort) (s : State) : linksOnly s (fportSet p u s) := ⟨rfl, rfl⟩

theorem linksOnly_emitFlit (p seq : Nat) (f : Option Flit) (nak : Bool) (s : State) : linksOnly s (emitFlit p seq f nak s) := by
  have hsent (u : FPort) (x : Nat × List Byte × Bool) : linksOnly s
      { fportSet p u s with fab := { (fportSet p u s).fab with flits := (fportSet p u s).fab.flits ++ [x] } } := ⟨rfl, rfl⟩
  have hcount (v : State) : linksOnly v (tallyHub (p / 4) 0x0520 1 none v) :=
    ⟨by rw [tallyHub_fab], (only_tallyHub (φ := F.ctrs) rfl (Only.refl _ v) _ _ _ _).regs rfl⟩
  unfold emitFlit
  dsimp only
  cases f with
  | some g => exact linksOnly_trans (hsent _ _) (hcount _)
  | none => exact hsent _ _

theorem linksOnly_grantAll (p n : Nat) (s : State) : linksOnly s (grantAll p n s) := by
  induction n generalizing s with
  | zero => exact linksOnly_refl s
  | succ n ih =>
    unfold grantAll
    split
    · exact linksOnly_trans (linksOnly_emitFlit _ _ _ _ s) (ih _)
    · exact linksOnly_refl s

theorem linksOnly_pumpPort (p n : Nat) (s : State) : linksOnly s (pumpPort p n s) := by
  induction n generalizing s with
  | zero => exact linksOnly_refl s
  | succ n ih =>
    unfold pumpPort
    dsimp only
    split
    · exact linksOnly_refl s
    · split
      · exact linksOnly_refl s
      · split
        · exact linksOnly_refl s
        · exact linksOnly_trans (linksOnly_trans (linksOnly_fportSet p _ s) (linksOnly_emitFlit _ _ _ _ _)) (ih _)

theorem linksOnly_freePlaces (p : Nat) (m : FMsg) (s : State) : linksOnly s (freePlaces p m s) := by
  unfold freePlaces
  split
  · exact linksOnly_refl s
  · exact linksOnly_trans (linksOnly_fportSet p _ s) (linksOnly_grantAll _ _ _)

theorem linksOnly_sendOn (p : Nat) (m : FMsg) (s : State) : linksOnly s (sendOn p m s) :=
  linksOnly_trans (linksOnly_fportSet p _ s) (linksOnly_pumpPort _ _ _)

theorem logErr_fab (e : ErrEv) (s : State) : (logErr e s).fab = s.fab := by
  obtain ⟨hfab, _⟩ := fabricKept_logErr e s
  exact hfab

theorem csRead_fab (c b : Nat) (s : State) : (csRead c b s).2.fab = s.fab := by
  unfold csRead
  split
  · exact cluUpd_fab _ _ _ _
  · split
    · rfl
    · exact (logErr_fab _ _).trans (cluUpd_fab _ _ _ _)
    · rfl
    · exact (logErr_fab _ _).trans (cluUpd_fab _ _ _ _)

theorem csReadBlocks_fab (c : Nat) (l : List Nat) (s : State) : (csReadBlocks c l s).2.fab = s.fab := by
  induction l generalizing s with
  | nil => rfl
  | cons b l ih => exact (ih _).trans (csRead_fab c b s)

theorem csReadBytes_fab (c off n : Nat) (s : State) : (csReadBytes c off n s).2.fab = s.fab := by
  unfold csReadBytes
  split
  · rfl
  · dsimp only
    split
    · exact csReadBlocks_fab _ _ s
    · exact csReadBlocks_fab _ _ s

theorem csStore_fab (c b : Nat) (d chk : List Byte) (s : State) : (csStore c b d chk s).fab = s.fab := rfl

theorem csWrite_fab (c b : Nat) (v : List Byte) (s : State) : (csWrite c b v s).fab = s.fab := by rw [csWrite, csStore_fab]

theorem csPoison_fab (c b : Nat) (s : State) : (csPoison c b s).fab = s.fab := by rw [csPoison, csStore_fab]

theorem csWriteIn_fab (c b off : Nat) (v : List Byte) (s : State) : (csWriteIn c b off v s).fab = s.fab := by
  unfold csWriteIn
  split
  · exact csWrite_fab _ _ _ s
  · split
    · exact csWrite_fab _ _ _ s
    · dsimp only
      split
      · rw [csWrite_fab, csRead_fab]
      · rw [csPoison_fab, csRead_fab]

theorem csWriteFrom_fab (c n off : Nat) (v : List Byte) (s : State) : (csWriteFrom c n off v s).fab = s.fab := by
  induction n generalizing off v s with
  | zero => rfl
  | succ n ih =>
    cases v with
    | nil => rfl
    | cons b v => exact (ih _ _ _).trans (csWriteIn_fab _ _ _ _ s)

theorem agentRefuse_fab (k i : Nat) (r : Nat × Nat) (s : State) : (agentRefuse k i r s).fab = s.fab := by
  have hcount : (countRaw (.sram k 0) r.2 s).fab = s.fab := by
    unfold countRaw
    dsimp only
    split
    · exact cluUpd_fab _ _ _ _
    · rfl
  unfold agentRefuse
  split
  · rfl
  · exact hcount

theorem strmWord_fab (k i w : Nat) (s : State) : (strmWord k i w s).2.fab = s.fab := by
  unfold strmWord
  dsimp only
  split
  · rfl
  · split
    · exact agentRefuse_fab _ _ _ s
    · exact csReadBytes_fab _ _ _ s

theorem strmPut_fab (k i w v : Nat) (s : State) : (strmPut k i w v s).fab = s.fab := by
  unfold strmPut
  dsimp only
  split
  · rfl
  · split
    · exact agentRefuse_fab _ _ _ s
    · exact csWriteFrom_fab _ _ _ _ s

theorem strmFail_fab (k i status : Nat) (s : State) : (strmFail k i status s).fab = s.fab := by
  unfold strmFail
  split
  · rfl
  · dsimp only
    rw [strmPut_fab, strmWord_fab]

/-- A message that is dropped holds nothing. -/
theorem dropMsg_held (p : Nat) (head : List Byte) (cls src : Nat) (s : State) : (dropMsg p head cls src s).fab.held = s.fab.held := by
  have hrefuse (u : State) : (refusePut head cls src 0x0502 u).fab.held = u.fab.held := by
    unfold refusePut
    split
    · rfl
    · split
      · split
        · rw [strmFail_fab]
        · rfl
      · rfl
  rw [dropMsg, hrefuse, rupd_fab]

/-! ## Routing (R336 to R338) -/

section
variable {src i : Nat} {m : FMsg} {rest : List (Nat × FMsg)} {s : State}

/-- The message `i` of the inbox is taken. -/
def inboxTaken (i : Nat) (s : State) : State := { s with fab := { s.fab with inbox := s.fab.inbox.eraseIdx i } }

theorem route_settles {t : State} (hheads : heads src s.fab.inbox = (i, m) :: rest) (hroute : routeMsg src m (inboxTaken i s) = some t)
    (hheld : t.fab.held = s.fab.held) : (routeFirst src (heads src s.fab.inbox) s).getD s = freePlaces src m t := by
  have hkeeps : keepsPlaces (inboxTaken i s) t = false := by
    rw [keepsPlaces, hheld]
    exact decide_eq_false (Nat.lt_irrefl _)
  rw [hheads, routeFirst]
  change (match routeMsg src m (inboxTaken i s) with
    | none => routeFirst src rest s
    | some s' => some (if keepsPlaces (inboxTaken i s) s' then s' else freePlaces src m s')).getD s = _
  rw [hroute]
  dsimp only
  rw [hkeeps]
  rfl

theorem route_holds (hheads : heads src s.fab.inbox = (i, m) :: rest) (hroute : routeMsg src m (inboxTaken i s) = some (hold src m (inboxTaken i s))) :
    (routeFirst src (heads src s.fab.inbox) s).getD s = hold src m (inboxTaken i s) := by
  have hkeeps : keepsPlaces (inboxTaken i s) (hold src m (inboxTaken i s)) = true := by
    rw [keepsPlaces, hold]
    simp
  rw [hheads, routeFirst]
  change (match routeMsg src m (inboxTaken i s) with
    | none => routeFirst src rest s
    | some s' => some (if keepsPlaces (inboxTaken i s) s' then s' else freePlaces src m s')).getD s = _
  rw [hroute]
  dsimp only
  rw [hkeeps]
  rfl

theorem route_waits (hheads : heads src s.fab.inbox = (i, m) :: rest) (hroute : routeMsg src m (inboxTaken i s) = none) :
    (routeFirst src (heads src s.fab.inbox) s).getD s = (routeFirst src rest s).getD s := by
  rw [hheads, routeFirst]
  change (match routeMsg src m (inboxTaken i s) with
    | none => routeFirst src rest s
    | some s' => some (if keepsPlaces (inboxTaken i s) s' then s' else freePlaces src m s')).getD s = _
  rw [hroute]

/-- A message for this device is kept. -/
theorem routeMsg_here (hcls : m.cls = 0) (hdest : m.dest = myId s) : routeMsg src m s = some (hold src m s) := by
  rw [routeMsg, if_neg (by simp [hcls]), if_pos hdest, if_neg (by simp [hcls]), if_neg (by simp [hcls])]

variable (hcls : m.cls = 0) (hdest : m.dest ≠ myId s)
include hcls hdest

theorem routeMsg_unrouted (hbad : bitAt m.entry 16 = false ∨ bitAt m.entry 18 = true) :
    routeMsg src m s = some (dropMsg (dropPort s src (fld m.entry 15 0) m) m.bytes 0 m.src s) := by
  rw [routeMsg, if_neg (by simp [hcls]), if_neg hdest, hcls]
  exact if_pos (by rcases hbad with h | h <;> simp [h])

theorem routeMsg_routed (hvalid : bitAt m.entry 16 = true) (htree : bitAt m.entry 18 = false) :
    routeMsg src m s = forward src (fld m.entry 15 0) (bitAt m.entry 17) m s := by
  rw [routeMsg, if_neg (by simp [hcls]), if_neg hdest]
  exact if_neg (by simp [hvalid, htree])

end

section
variable {src : Nat} {m : FMsg} {s : State} (hcls : m.cls = 0)
include hcls

theorem forward_far (mask : Nat) (vcsw : Bool) (hhops : 63 ≤ mHops m.bytes + (if src < 16 then 1 else 0)) :
    forward src mask vcsw m s = some (dropMsg (dropPort s src mask m) m.bytes 0 m.src s) := by
  rw [forward, hcls]
  exact if_pos hhops

omit hcls in
theorem forward_waits {mask : Nat} (vcsw : Bool) (hhops : mHops m.bytes + (if src < 16 then 1 else 0) < 63)
    (hwait : choosePort s mask m = .wait) : forward src mask vcsw m s = none := by
  unfold forward
  exact (if_neg (by omega)).trans (by rw [hwait])

omit hcls in
theorem forward_goes {mask p : Nat} (vcsw : Bool) (hhops : mHops m.bytes + (if src < 16 then 1 else 0) < 63)
    (hgo : choosePort s mask m = .go p) : forward src mask vcsw m s = some (sendOn p { m with
      vc := if vcsw then 1 else m.vc, mask := none
      bytes := putBytes m.bytes 24 (leBytes 1 (leAt m.bytes 24 1 / 64 * 64 + (mHops m.bytes + (if src < 16 then 1 else 0)))) } s) := by
  unfold forward
  exact (if_neg (by omega)).trans (by rw [hgo])

end

theorem choosePort_go {s : State} {mask p : Nat} {m : FMsg} (h : choosePort s mask m = .go p) :
    p < 16 ∧ bitAt mask p = true ∧ portState s p = 3 := by
  rw [choosePort] at h
  cases hpick : hashPick (maskPorts s mask 3) mask m.src (mSrc m.bytes) m.dest with
  | none =>
    rw [hpick] at h
    dsimp only at h
    split at h <;> cases h
  | some q =>
    rw [hpick] at h
    cases h
    have hmem : p ∈ maskPorts s mask 3 := by
      unfold hashPick at hpick
      split at hpick
      · cases hpick
      · exact List.mem_of_getElem? hpick
    simp only [maskPorts, List.mem_filter, List.mem_range, Bool.and_eq_true, beq_iff_eq] at hmem
    exact hmem

/-! ## The queues of a source -/

theorem mem_heads {src i : Nat} {m : FMsg} {l : List (Nat × FMsg)} (h : (i, m) ∈ heads src l) : l[i]? = some (src, m) ∧
    ∀ j x, j < i → l[j]? = some (src, x) → queueKey src x ≠ queueKey src m := by
  obtain ⟨⟨⟨a, b⟩, k⟩, he, hkey⟩ := List.mem_map.1 h
  obtain ⟨hzip, hfirst⟩ := List.mem_filter.1 he
  obtain ⟨rfl, rfl⟩ := Prod.mk.inj hkey
  simp only [Bool.and_eq_true, beq_iff_eq, Bool.not_eq_true', List.any_eq_false, not_and] at hfirst
  obtain ⟨rfl, hnone⟩ := hfirst
  have hat := List.mem_zipIdx_iff_getElem?.1 hzip
  refine ⟨hat, fun j x hj hx hsame => hnone (a, x) ?_ rfl hsame⟩
  exact List.mem_of_getElem? ((List.getElem?_take_of_lt hj).trans hx)

theorem fabricMessageRoute_routes (src : Fin 17) (i : Nat) (m : FMsg) (rest : List (Nat × FMsg)) (s : State)
    (hheads : heads src s.fab.inbox = (i, m) :: rest) :
    let s0 := { s with fab := { s.fab with inbox := s.fab.inbox.eraseIdx i } }
    let e := m.entry
    let mask := fld e 15 0
    let hops := mHops m.bytes + (if src.val < 16 then 1 else 0)
    (m.cls = 0 → m.dest = myId s → exec (.fabricMessageRoute src) s = .next (hold src m s0)) ∧
    (m.cls = 0 → m.dest ≠ myId s → bitAt e 16 = false ∨ bitAt e 18 = true →
      exec (.fabricMessageRoute src) s = .next (freePlaces src m (dropMsg (dropPort s src mask m) m.bytes 0 m.src s0))) ∧
    (m.cls = 0 → m.dest ≠ myId s → bitAt e 16 = true → bitAt e 18 = false → 63 ≤ hops →
      exec (.fabricMessageRoute src) s = .next (freePlaces src m (dropMsg (dropPort s src mask m) m.bytes 0 m.src s0))) ∧
    (m.cls = 0 → m.dest ≠ myId s → bitAt e 16 = true → bitAt e 18 = false → hops < 63 → choosePort s mask m = .wait →
      exec (.fabricMessageRoute src) s = .next ((routeFirst src rest s).getD s)) ∧
    (∀ p, m.cls = 0 → m.dest ≠ myId s → bitAt e 16 = true → bitAt e 18 = false → hops < 63 → choosePort s mask m = .go p →
      exec (.fabricMessageRoute src) s = .next (freePlaces src m (sendOn p { m with
        vc := if bitAt e 17 = true then 1 else m.vc, mask := none
        bytes := putBytes m.bytes 24 (leBytes 1 (leAt m.bytes 24 1 / 64 * 64 + hops)) } s0))) := by
  intro s0 e mask hops
  have hexec : exec (.fabricMessageRoute src) s = .next ((routeFirst src (heads src s.fab.inbox) s).getD s) := by
    rw [exec, execFabricMessageRoute]
  have hdrop : (dropMsg (dropPort s src mask m) m.bytes 0 m.src (inboxTaken i s)).fab.held = s.fab.held := dropMsg_held _ _ _ _ _
  have hsend (p : Nat) (x : FMsg) : (sendOn p x (inboxTaken i s)).fab.held = s.fab.held := by
    obtain ⟨hfab, _⟩ := linksOnly_sendOn p x (inboxTaken i s)
    exact (congrArg FabSt.held hfab :)
  have hport : dropPort (inboxTaken i s) src mask m = dropPort s src mask m := rfl
  have hchoose : choosePort (inboxTaken i s) mask m = choosePort s mask m := rfl
  have hid : myId (inboxTaken i s) = myId s := rfl
  rw [← hport] at hdrop ⊢
  rw [← hchoose, ← hid]
  refine ⟨fun hcls hdest => ?_, fun hcls hdest hbad => ?_, fun hcls hdest hvalid htree hhops => ?_,
    fun hcls hdest hvalid htree hhops hwait => ?_, fun p hcls hdest hvalid htree hhops hgo => ?_⟩
  · rw [hexec, route_holds hheads (routeMsg_here hcls hdest)]
    rfl
  · rw [hexec, route_settles hheads (routeMsg_unrouted hcls hdest hbad) hdrop]
    rfl
  · rw [hexec, route_settles hheads ((routeMsg_routed hcls hdest hvalid htree).trans (forward_far hcls _ _ hhops)) hdrop]
    rfl
  · rw [hexec, route_waits hheads ((routeMsg_routed hcls hdest hvalid htree).trans (forward_waits _ hhops hwait))]
  · rw [hexec, route_settles hheads ((routeMsg_routed hcls hdest hvalid htree).trans (forward_goes _ hhops hgo)) (hsend p _)]
    rfl

end Sys2Proof.Machine
end

section
/-! Heartbeats, streams and reductions. -/

namespace Sys2Proof.Machine

/-! ## Heartbeats (R339) -/

theorem peerErr_kept (dev : Nat) (s : State) : (peerErr dev s).fab = s.fab ∧
    ∀ o, 0x10100 ≤ o → o < 0x10000000 → rget (peerErr dev s) o = rget s o := by
  obtain ⟨hregs, _⟩ := onlyLogs_logErr { hub := 0, code := 0x0211, part := none, source := 0, engine := 16, logical := 0, addr := 0, detail := dev } s
  exact ⟨logErr_fab _ _, fun o hlo hhi => hregs o (.inr ⟨hlo, hhi⟩)⟩

theorem heartbeatSend_asks {s : State} (hhas : wBit (fabId s) 31 = true) (hparent : fabParent s ≠ myId s) :
    ∃ t, exec .heartbeatSend s = .next t ∧ t.fab.inbox = s.fab.inbox ++ [(16, looked s (mgmtMsg 1 (fabParent s) s))] ∧
      t.fab.unanswered = s.fab.unanswered + 1 ∧ t.regs = s.regs := by
  have hexec : exec .heartbeatSend s = .next { post (mgmtMsg 1 (fabParent s) s) s with
      fab := { (post (mgmtMsg 1 (fabParent s) s) s).fab with unanswered := s.fab.unanswered + 1 } } := by
    rw [exec, execHeartbeatSend]
    exact if_neg (by simp [hhas, hparent])
  exact ⟨_, hexec, rfl, rfl, rfl⟩

/-- A child that is heard from again. -/
def childHeard (key : Nat) (s : State) : State :=
  { s with fab := { s.fab with live := nsAdd s.fab.live key, lost := nsDel s.fab.lost key
                               seen := stSet (fun _ => 0) s.fab.seen key s.ns } }

theorem heartbeatAnswer_answers {src : Fin 17} {i : Nat} {m : FMsg} {s : State}
    (hfirst : firstFrom src (fun m => m.cls == 3) s.fab.held = some (i, m)) (hlevel : childKey (myId s) m.src / 64 ≤ wFld (fabId s) 29 28)
    (hroom : nsHas s.fab.live (childKey (myId s) m.src) = true ∨ s.fab.live.length < 64) :
    ∃ t, exec (.heartbeatAnswer src) s = .next t ∧ nsHas t.fab.live (childKey (myId s) m.src) = true ∧
      nsHas t.fab.lost (childKey (myId s) m.src) = false ∧ t.fab.held = s.fab.held.eraseIdx i ∧
      ∃ a, t.fab.inbox = s.fab.inbox ++ [(16, a)] ∧ a.cls = 3 ∧ a.dest = m.src ∧ a.src = myId s := by
  obtain ⟨u, hu⟩ : ∃ u, u = freePlaces src m { s with fab := { s.fab with held := s.fab.held.eraseIdx i } } := ⟨_, rfl⟩
  obtain ⟨hfab, hregs⟩ : linksOnly { s with fab := { s.fab with held := s.fab.held.eraseIdx i } } u := hu ▸ linksOnly_freePlaces _ _ _
  have hid : myId u = myId s := by rw [myId, myId, rget, hregs]; rfl
  have hfid : fabId u = fabId s := by rw [fabId, fabId, rget, hregs]; rfl
  have hlive : u.fab.live = s.fab.live := (congrArg FabSt.live hfab :)
  have hheld : u.fab.held = s.fab.held.eraseIdx i := (congrArg FabSt.held hfab :)
  have hinbox : u.fab.inbox = s.fab.inbox := (congrArg FabSt.inbox hfab :)
  obtain ⟨v, hv⟩ : ∃ v, v = if nsHas u.fab.lost (childKey (myId u) m.src) then peerErr m.src (childHeard (childKey (myId u) m.src) u)
      else childHeard (childKey (myId u) m.src) u := ⟨_, rfl⟩
  have hexec : exec (.heartbeatAnswer src) s = .next (post (mgmtMsg 2 m.src v) v) := by
    rw [exec, execHeartbeatAnswer, hfirst, hv, hu]
    dsimp only
    rw [← hu]
    refine (if_neg ?_).trans (if_neg ?_)
    · rw [hfid, hid]
      omega
    · rw [hid, hlive]
      rcases hroom with h | h
      · simp [h]
      · simp [h]
  have hvfab : v.fab = (childHeard (childKey (myId s) m.src) u).fab := by
    rw [hv, hid]
    split
    · obtain ⟨hkept, _⟩ := peerErr_kept m.src (childHeard (childKey (myId s) m.src) u)
      exact hkept
    · rfl
  have hvid : myId v = myId s := by
    rw [hv, ← hid]
    split
    · obtain ⟨_, hkept⟩ := peerErr_kept m.src (childHeard (childKey (myId u) m.src) u)
      rw [myId, hkept _ (by decide) (by decide)]
      rfl
    · rfl
  refine ⟨_, hexec, ?_, ?_, ?_, looked v (mgmtMsg 2 m.src v), ?_, rfl, rfl, hvid⟩
  · show nsHas v.fab.live _ = true
    rw [hvfab, childHeard, nsHas_nsAdd, beq_self_eq_true, Bool.true_or]
  · show nsHas v.fab.lost _ = false
    rw [hvfab, childHeard, nsHas_nsDel, bne_self_eq_false, Bool.false_and]
  · show v.fab.held = _
    rw [hvfab, childHeard, hheld]
  · show v.fab.inbox ++ _ = _
    rw [hvfab, childHeard, hinbox]

theorem childLost_notes {level : Fin 4} {digit : Fin 64} {s : State} (hlive : nsHas s.fab.live (64 * level.val + digit) = true)
    (hage : stGet (fun _ => 0) s.fab.seen (64 * level.val + digit) + 3000000 ≤ s.ns) :
    ∃ t, exec (.childLost level digit) s = .next t ∧ nsHas t.fab.live (64 * level.val + digit) = false ∧
      nsHas t.fab.lost (64 * level.val + digit) = true := by
  refine ⟨_, (by rw [exec, execChildLost]; exact if_neg (by simp [hlive]; omega)), ?_, ?_⟩
  · obtain ⟨hfab, _⟩ := peerErr_kept (childId (myId s) level digit) { s with
      fab := { s.fab with live := nsDel s.fab.live (64 * level.val + digit), lost := nsAdd s.fab.lost (64 * level.val + digit) } }
    rw [hfab, nsHas_nsDel, bne_self_eq_false, Bool.false_and]
  · obtain ⟨hfab, _⟩ := peerErr_kept (childId (myId s) level digit) { s with
      fab := { s.fab with live := nsDel s.fab.live (64 * level.val + digit), lost := nsAdd s.fab.lost (64 * level.val + digit) } }
    rw [hfab, nsHas_nsAdd, beq_self_eq_true, Bool.true_or]

theorem orphan_shown {s : State} (hmissed : 3 ≤ s.fab.unanswered) (hnot : wBit (fabId s) 30 = false) :
    ∃ t, exec .orphan s = .next t ∧ wBit (fabId t) 30 = true ∧ t.fab.unanswered = s.fab.unanswered := by
  refine ⟨_, (by rw [exec, execOrphan]; exact if_neg (by simp [hnot]; omega)), ?_, ?_⟩
  · obtain ⟨_, hregs⟩ := peerErr_kept (fabParent s) (rupd (hubBase 0 + 0x40000) (fun w => wPut w 30 30 1) s)
    rw [fabId, hregs _ (by decide) (by decide), rupd, rget_rset_same, wBit_wPut _ _ _ (by decide) le_rfl, if_pos ⟨le_rfl, le_rfl⟩]
    rfl
  · obtain ⟨hfab, _⟩ := peerErr_kept (fabParent s) (rupd (hubBase 0 + 0x40000) (fun w => wPut w 30 30 1) s)
    rw [hfab, rupd_fab]

/-! ## The ring of a stream (R341) -/

/-- The ring register of a stream that starts at block `base`, with logarithms `nl` and `sl` of its slots. -/
def ringWord (valid recv : Bool) (sl nl base : Nat) : Word :=
  BitVec.ofNat 32 (b2n valid * 2 ^ 31 + b2n recv * 2 ^ 30 + sl * 2 ^ 26 + nl * 2 ^ 22 + base)

theorem ringWord_fields (valid recv : Bool) {sl nl base : Nat} (hsl : sl < 16) (hnl : nl < 16) (hbase : base < 2 ^ 16) :
    wBit (ringWord valid recv sl nl base) 31 = valid ∧ wBit (ringWord valid recv sl nl base) 30 = recv ∧
      wFld (ringWord valid recv sl nl base) 29 26 = sl ∧ wFld (ringWord valid recv sl nl base) 25 22 = nl ∧
      wFld (ringWord valid recv sl nl base) 15 0 = base := by
  have hflags (v r : Nat) (hv : v ≤ 1) (hr : r ≤ 1) : v * 2 ^ 31 + r * 2 ^ 30 + sl * 2 ^ 26 + nl * 2 ^ 22 + base < 2 ^ 32 := by omega
  have hle (b : Bool) : b2n b ≤ 1 := by cases b <;> decide
  have hbit (b : Bool) : decide (b2n b % 2 = 1) = b := by cases b <;> rfl
  have hlt := hflags _ _ (hle valid) (hle recv)
  have hv := hle valid
  have hr := hle recv
  refine ⟨?_, ?_, ?_, ?_, ?_⟩
  · rw [wBit_eq_testBit, ringWord, BitVec.toNat_ofNat, Nat.mod_eq_of_lt hlt, Nat.testBit_eq_decide_div_mod_eq]
    refine Eq.trans (decide_eq_decide.mpr ?_) (hbit valid)
    omega
  · rw [wBit_eq_testBit, ringWord, BitVec.toNat_ofNat, Nat.mod_eq_of_lt hlt, Nat.testBit_eq_decide_div_mod_eq]
    refine Eq.trans (decide_eq_decide.mpr ?_) (hbit recv)
    omega
  · rw [ringWord, wFld_ofNat _ (by decide) (by decide), fld_eq_div_mod]
    omega
  · rw [ringWord, wFld_ofNat _ (by decide) (by decide), fld_eq_div_mod]
    omega
  · rw [ringWord, wFld_ofNat _ (by decide) (by decide), fld_eq_div_mod]
    omega

/-- What a write of `w` loads into a stream's ring register, where the cluster's partition may be confidential. -/
def ringLoaded (conf : Bool) (w : Word) : Word :=
  ringWord (wBit w 31 && !conf) (wBit w 30) (if 1 ≤ wFld w 29 26 && wFld w 29 26 ≤ 6 then wFld w 29 26 else 6) (min (wFld w 25 22) 10)
    (wFld w 15 0)

theorem ringLoaded_fields (conf : Bool) (w : Word) : wBit (ringLoaded conf w) 31 = (wBit w 31 && !conf) ∧
    wBit (ringLoaded conf w) 30 = wBit w 30 ∧
    wFld (ringLoaded conf w) 29 26 = (if 1 ≤ wFld w 29 26 ∧ wFld w 29 26 ≤ 6 then wFld w 29 26 else 6) ∧
    wFld (ringLoaded conf w) 25 22 = min (wFld w 25 22) 10 ∧ wFld (ringLoaded conf w) 15 0 = wFld w 15 0 := by
  have hbase : wFld w 15 0 < 2 ^ 16 := fld_lt _ 15 0
  have hsl : (if 1 ≤ wFld w 29 26 && wFld w 29 26 ≤ 6 then wFld w 29 26 else 6) < 16 := by
    split
    · next h =>
      simp only [Bool.and_eq_true, decide_eq_true_eq] at h
      omega
    · decide
  obtain ⟨hvalid, hrecv, hsize, hslots, hstart⟩ := ringWord_fields (wBit w 31 && !conf) (wBit w 30) hsl
    (by omega : min (wFld w 25 22) 10 < 16) hbase
  refine ⟨hvalid, hrecv, hsize.trans ?_, hslots, hstart⟩
  simp only [Bool.and_eq_true, decide_eq_true_eq]

section
variable {k : Fin 256} {i : Fin 4} {s : State} (hopen : cluLocked s k = false)
include hopen

/-- Whether the cluster's partition is confidential. -/
def ringConf (s : State) (k : Nat) : Bool := (cluPart s k).any (fun p => (pget s p).conf)

/-- The ring register is loaded. -/
def ringSet (k i : Nat) (w : Word) (s : State) : State := cluSet k (0x300 + 16 * i) (ringLoaded (ringConf s k) w) s

theorem streamValidWrite_loads (w : Word) : exec (.streamValidWrite k i w) s =
    .next (let t := ringSet k i w s
      let t := if wBit w 31 && ringConf s k then cluUpd k (0x30C + 16 * i) (fun x => wPut x 31 31 1) t else t
      if wBit w 31 && !ringConf s k && !strmValid s k i then strmOpen k i t else t) := by
  rw [exec, execStreamValidWrite, writeStrmRing]
  exact congrArg Host.Outcome.next (if_neg (by rw [hopen]; exact Bool.false_ne_true))

omit hopen in
theorem strmReg_ringSet (w : Word) : strmReg (ringSet k i w s) k i 0 = ringLoaded (ringConf s k) w := rget_rset_same _ _ _

omit hopen in
theorem rset_frame (o : Nat) (w : Word) (s : State) : { rset o w s with regs := s.regs } = s := rfl

omit hopen in
theorem ringSet_frame (k i : Nat) (w : Word) (s : State) : { ringSet k i w s with regs := s.regs } = s :=
  rset_frame _ _ s

omit hopen in
theorem streamValidWrite_locked (w : Word) (hlocked : cluLocked s k = true) :
    exec (.streamValidWrite k i w) s = .next s := by
  rw [exec, execStreamValidWrite, writeStrmRing, if_pos hlocked]

theorem streamValidWrite_closes {w : Word} (hvalid : wBit w 31 = false) : ∃ t, exec (.streamValidWrite k i w) s = .next t ∧
    strmValid t k i = false ∧ strmRecv t k i = wBit w 30 ∧ wFld (strmReg t k i 0) 15 0 = wFld w 15 0 ∧
    wFld (strmReg t k i 0) 25 22 = min (wFld w 25 22) 10 ∧
    wFld (strmReg t k i 0) 29 26 = (if 1 ≤ wFld w 29 26 ∧ wFld w 29 26 ≤ 6 then wFld w 29 26 else 6) ∧
    (∀ o, o ≠ cluBase k + 0x300 + 16 * i → rget t o = rget s o) ∧ { t with regs := s.regs } = s := by
  obtain ⟨hbit, hrecv, hsize, hslots, hstart⟩ := ringLoaded_fields (ringConf s k) w
  refine ⟨ringSet k i w s, ?_, ?_, ?_, ?_, ?_, ?_, ?_, ringSet_frame _ _ _ _⟩
  · rw [streamValidWrite_loads hopen, hvalid]
    simp only [Bool.false_and, Bool.false_eq_true, if_false]
  · rw [strmValid, strmReg_ringSet, hbit, hvalid, Bool.false_and]
  · rw [strmRecv, strmReg_ringSet, hrecv]
  · rw [strmReg_ringSet, hstart]
  · rw [strmReg_ringSet, hslots]
  · rw [strmReg_ringSet, hsize]
  · exact fun o ho => rget_rset_other _ _ (by omega)

theorem streamValidWrite_confidential {w : Word} (hvalid : wBit w 31 = true)
    (hconf : ∃ p, cluPart s k = some p ∧ (pget s p).conf = true) : ∃ t, exec (.streamValidWrite k i w) s = .next t ∧
    strmValid t k i = false ∧ wBit (strmReg t k i 0xC) 31 = true ∧ t.fab = s.fab := by
  obtain ⟨p, hpart, hp⟩ := hconf
  have hconf : ringConf s k = true := by rw [ringConf, hpart, Option.any_some, hp]
  obtain ⟨hbit, _⟩ := ringLoaded_fields (ringConf s k) w
  refine ⟨cluUpd k (0x30C + 16 * i) (fun x => wPut x 31 31 1) (ringSet k i w s), ?_, ?_, ?_,
    (cluUpd_fab _ _ _ _).trans (rset_fab _ _ _)⟩
  · rw [streamValidWrite_loads hopen, hvalid, hconf]
    simp only [Bool.and_true, Bool.not_true, Bool.and_false, Bool.false_and, Bool.false_eq_true, if_true, if_false]
  · have hother : strmReg (cluUpd k (0x30C + 16 * i) (fun x => wPut x 31 31 1) (ringSet k i w s)) k i 0 =
        strmReg (ringSet k i w s) k i 0 := rget_rset_other _ _ (by omega)
    rw [strmValid, hother, strmReg_ringSet, hbit, hconf, Bool.not_true, Bool.and_false]
  · have hsame : strmReg (cluUpd k (0x30C + 16 * i) (fun x => wPut x 31 31 1) (ringSet k i w s)) k i 0xC =
        wPut (cluReg (ringSet k i w s) k (0x30C + 16 * i)) 31 31 1 := by
      rw [strmReg, show 0x300 + 16 * i.val + 0xC = 0x30C + 16 * i.val by omega]
      exact rget_rset_same _ _ _
    rw [hsame, wBit_wPut _ _ _ (by decide) le_rfl, if_pos ⟨le_rfl, le_rfl⟩]
    rfl

end

/-! ### Words read from the ring -/

theorem upperRegs_csReadBlocks (c : Nat) (l : List Nat) (s : State) : upperRegs s (csReadBlocks c l s).2 := by
  induction l generalizing s with
  | nil => exact upperRegs_refl s
  | cons b l ih => exact upperRegs_trans (upperRegs_csRead c b s) (ih _)

theorem upperRegs_csReadBytes (c off n : Nat) (s : State) : upperRegs s (csReadBytes c off n s).2 := by
  unfold csReadBytes
  split
  · exact upperRegs_refl s
  · dsimp only
    split
    · exact upperRegs_csReadBlocks _ _ s
    · exact upperRegs_csReadBlocks _ _ s

/-- The agent of a cluster that belongs to no partition reads its ring without a check. -/
theorem upperRegs_strmWord {k : Nat} (i w : Nat) {s : State} (hfree : cluPart s k = none) : upperRegs s (strmWord k i w s).2 := by
  have hpass (off n : Nat) (write : Bool) : agentRefusal s k off n write = none := by rw [agentRefusal, hfree, Option.bind_none]
  unfold strmWord
  dsimp only
  split
  · exact upperRegs_refl s
  · rw [hpass]
    exact upperRegs_csReadBytes _ _ _ s

theorem cluPart_congr {s t : State} (hmap : t.map = s.map) (hparts : t.parts = s.parts) (c : Nat) : cluPart t c = cluPart s c := by
  simp only [cluPart, cluQT, twLog, clLog, hmap, hparts]

theorem rget_setStrmIdx (k i v : Nat) (s : State) (o : Nat) : rget (setStrmIdx k i v s) o = rget s o := rfl

/-- A sending stream that opens takes its index from the ring and asks for nothing. -/
theorem strmOpen_sends {k i : Nat} {u : State} (hi : i < 4) (hfree : cluPart u k = none)
    (hsend : wBit (rget u (cluBase k + (0x300 + 16 * i))) 30 = false) :
    (strmOpen k i u).fab.strmIdx = stSet (fun _ => 0) u.fab.strmIdx (4 * k + i) ((strmWord k i 1 u).1 % 2 ^ 32) ∧
      rget (strmOpen k i u) (cluBase k + (0x300 + 16 * i)) = rget u (cluBase k + (0x300 + 16 * i)) := by
  have hregs := upperRegs_strmWord i 1 hfree
  have hfab := strmWord_fab k i 1 u
  generalize hword : strmWord k i 1 u = r at hregs hfab
  obtain ⟨h, v⟩ := r
  have hplace : 0x100 ≤ (cluBase k + (0x300 + 16 * i)) % 0x1000 := by
    rw [cluBase, towerBase]
    omega
  have hreg : rget v (cluBase k + (0x300 + 16 * i)) = rget u (cluBase k + (0x300 + 16 * i)) := hregs _ hplace
  have hopen : strmOpen k i u = setStrmIdx k i h v := by
    rw [strmOpen, hword]
    exact if_neg (by
      rw [strmRecv, strmReg, cluReg, Nat.add_zero, rget_setStrmIdx, hreg, hsend]
      exact Bool.false_ne_true)
  rw [hopen, rget_setStrmIdx, hreg]
  exact ⟨congrArg (fun f : FabSt => stSet (fun _ => 0) f.strmIdx (4 * k + i) (h % 2 ^ 32)) hfab, rfl⟩

theorem rget_ringSet (k i : Nat) (w : Word) (s : State) :
    rget (ringSet k i w s) (cluBase k + (0x300 + 16 * i)) = ringLoaded (ringConf s k) w := rget_rset_same _ _ _

theorem streamValidWrite_opens {k : Fin 256} {i : Fin 4} {w : Word} {s : State} (hopen : cluLocked s k = false)
    (hvalid : wBit w 31 = true) (hfree : cluPart s k = none) (hwas : strmValid s k i = false) (hsend : wBit w 30 = false) :
    ∃ t, exec (.streamValidWrite k i w) s = .next t ∧ strmValid t k i = true ∧ strmIdx t k i =
      (strmWord k i 1 (cluSet k (0x300 + 16 * i) (rget t (cluBase k + (0x300 + 16 * i))) s)).1 % 2 ^ 32 := by
  have hconf : ringConf s k = false := by rw [ringConf, hfree, Option.any_none]
  obtain ⟨hbit, hrecv, _⟩ := ringLoaded_fields (ringConf s k) w
  have hfree' : cluPart (ringSet k i w s) k = none := (cluPart_congr (cluSet_map _ _ _ s) (cluSet_parts _ _ _ s) k).trans hfree
  have hsend' : wBit (rget (ringSet k i w s) (cluBase k + (0x300 + 16 * i))) 30 = false := by rw [rget_ringSet, hrecv, hsend]
  obtain ⟨hidx, hreg⟩ := strmOpen_sends i.isLt hfree' hsend'
  rw [rget_ringSet] at hreg
  refine ⟨strmOpen k i (ringSet k i w s), ?_, ?_, ?_⟩
  · rw [streamValidWrite_loads hopen, hvalid, hconf, hwas]
    simp only [Bool.and_false, Bool.not_false, Bool.and_true, Bool.false_eq_true, if_false, if_true]
  · rw [strmValid, strmReg, cluReg, Nat.add_zero, hreg, hbit, hvalid, hconf, Bool.not_false, Bool.and_true]
  · rw [hreg, strmIdx, hidx, stGet_stSet_same, ringSet]

/-! ## Slots sent and delivered (R341, R342) -/

theorem streamNotice_marks {k : Fin 256} {i : Fin 4} {s : State} (hvalid : strmValid s k i = true) (hsend : strmRecv s k i = false) :
    ∃ t, exec (.streamNotice k i) s = .next t ∧ nsHas t.fab.strmPend (4 * k.val + i.val) = true ∧ t.regs = s.regs ∧
      t.fab.inbox = s.fab.inbox := by
  refine ⟨{ s with fab := { s.fab with strmPend := nsAdd s.fab.strmPend (4 * k.val + i) } }, ?_, ?_, rfl, rfl⟩
  · rw [exec, execStreamNotice, hvalid, hsend]
    rfl
  · show nsHas (nsAdd _ _) _ = true
    rw [nsHas_nsAdd, beq_self_eq_true, Bool.true_or]

theorem streamSend_runs {k : Fin 256} {i : Fin 4} {s : State} (hvalid : strmValid s k i = true) (hsend : strmRecv s k i = false)
    (hpend : nsHas s.fab.strmPend (4 * k.val + i.val) = true) (hslot : strmSlot s k i = true) :
    exec (.streamSend k i) s = .next (streamSend k i s) := by
  rw [exec, execStreamSend, hvalid, hsend, hpend, hslot]
  rfl

theorem streamNotice_grants {k : Fin 256} {i : Fin 4} {h : Nat} {v s : State} (hvalid : strmValid s k i = true)
    (hrecv : strmRecv s k i = true) (hslot : strmSlot s k i = true) (hword : strmWord k i 1 s = (h, v)) :
    exec (.streamNotice k i) s =
      .next (grantStream k i ((h + 2 ^ 32 - strmIdx v k i) % 2 ^ 32) (setStrmIdx k i h v)) := by
  rw [exec, execStreamNotice, hvalid, hrecv, hslot, hword]
  rfl

theorem strmNext_fab (k i n : Nat) (s : State) : (strmNext k i n s).fab = (setStrmIdx k i (n + 1) s).fab := strmPut_fab _ _ _ _ _

/-- The message of a sending stream's slot `h` with payload `d`, in the state `s` of the cluster. -/
def slotMsg (k i : Nat) (h d : List Byte) (bad : List Nat) (s : State) : FMsg :=
  { cls := 0, vc := 0, dest := wFld (strmReg s k i 4) 27 10, src := myId s
    bytes := mkHead (leAt h 0 2) (leAt h 2 1) (leAt h 4 2) (leAt h 8 4) 0 (myId s) (wFld (strmReg s k i 4) 9 0) (streamName s k i) ++ d
    poison := bad, mask := none, entry := 0 }

/-- A stream with one credit less. -/
def creditTaken (k i cred : Nat) (s : State) : State :=
  { s with fab := { s.fab with strmCred := stSet (fun _ => 0) s.fab.strmCred (4 * k + i) (cred - 1) } }

theorem streamSend_posts {k i c tail : Nat} {h d : List Byte} {bad : List Nat} {a b e s : State}
    (htail : strmWord k i 0 s = (tail, a)) (hnew : tail ≠ strmIdx s k i)
    (hfits : slotOff a k i (strmIdx s k i) + 64 * 2 ^ wFld (strmReg a k i 0) 29 26 ≤ 2 ^ 22)
    (hpass : agentRefusal a k (slotOff a k i (strmIdx s k i)) (64 * 2 ^ wFld (strmReg a k i 0) 29 26) false = none)
    (hhead : csReadBytes k (slotOff a k i (strmIdx s k i)) 64 a = (some h, b)) (hgood : slotBad b k i h = 0)
    (hput : bitAt (leAt h 2 1) 0 = false) (hcred : stGet (fun _ => 0) a.fab.strmCred (4 * k + i) = c + 1)
    (hdata : slotData k (slotOff a k i (strmIdx s k i) + 64) (leAt h 0 2) b = ((d, bad), e)) :
    streamSend k i s = strmCount k i (post (slotMsg k i h d bad e) (strmNext k i (strmIdx s k i) (creditTaken k i (c + 1) e))) := by
  unfold streamSend
  dsimp only
  rw [htail]
  dsimp only
  refine (if_neg hnew).trans ((if_neg (by omega)).trans ?_)
  rw [hpass, hhead]
  dsimp only
  rw [hgood, hput, hcred, hdata]
  rfl

theorem streamSend_effect {k i c tail : Nat} {h d : List Byte} {bad : List Nat} {a b e s : State}
    (htail : strmWord k i 0 s = (tail, a)) (hnew : tail ≠ strmIdx s k i)
    (hfits : slotOff a k i (strmIdx s k i) + 64 * 2 ^ wFld (strmReg a k i 0) 29 26 ≤ 2 ^ 22)
    (hpass : agentRefusal a k (slotOff a k i (strmIdx s k i)) (64 * 2 ^ wFld (strmReg a k i 0) 29 26) false = none)
    (hhead : csReadBytes k (slotOff a k i (strmIdx s k i)) 64 a = (some h, b)) (hgood : slotBad b k i h = 0)
    (hput : bitAt (leAt h 2 1) 0 = false) (hcred : stGet (fun _ => 0) a.fab.strmCred (4 * k + i) = c + 1)
    (hdata : slotData k (slotOff a k i (strmIdx s k i) + 64) (leAt h 0 2) b = ((d, bad), e)) :
    ∃ m, (streamSend k i s).fab.inbox = e.fab.inbox ++ [(16, m)] ∧ m.cls = 0 ∧
      m.dest = wFld (strmReg e k i 4) 27 10 ∧ m.src = myId e ∧ m.poison = bad ∧
      m.bytes = mkHead (leAt h 0 2) (leAt h 2 1) (leAt h 4 2) (leAt h 8 4) 0 (myId e) (wFld (strmReg e k i 4) 9 0)
        (streamName e k i) ++ d ∧
      stGet (fun _ => 0) (streamSend k i s).fab.strmCred (4 * k + i) = c := by
  rw [streamSend_posts htail hnew hfits hpass hhead hgood hput hcred hdata, strmCount, cluUpd_fab]
  have hnext := strmNext_fab k i (strmIdx s k i) (creditTaken k i (c + 1) e)
  generalize strmNext k i (strmIdx s k i) (creditTaken k i (c + 1) e) = v at hnext
  refine ⟨looked v (slotMsg k i h d bad e), ?_, rfl, rfl, rfl, rfl, rfl, ?_⟩
  · show v.fab.inbox ++ _ = _
    rw [hnext]
    rfl
  · show stGet _ v.fab.strmCred _ = _
    rw [hnext]
    exact stGet_stSet_same (d := fun _ => 0) _ _ _

section
variable {src : Fin 17} {i : Nat} {m : FMsg} {s u : State}
  (hfirst : firstFrom src (fun m => m.cls == 0 || (m.cls == 2 && m.mask.isSome)) s.fab.held = some (i, m)) (hcls : m.cls = 0)
  (hslot : ∀ x, putStream s m = some x → strmSlot s x.1 x.2 = true)
  (hu : freePlaces src m { s with fab := { s.fab with held := s.fab.held.eraseIdx i } } = u)
include hfirst hcls hslot hu

omit hcls in
theorem putDeliver_runs : exec (.putDeliver src) s = .next (putDeliver m u) := by
  rw [exec, execPutDeliver, hfirst, ← hu]
  refine if_neg fun hany => ?_
  cases hstream : putStream s m with
  | none =>
    rw [hstream, Option.any_none] at hany
    exact Bool.false_ne_true hany
  | some x =>
    rw [hstream, Option.any_some, hslot x hstream] at hany
    exact Bool.false_ne_true hany

theorem putDeliver_refuses {st : Nat} (hbad : putBad u m = st) (hst : st ≠ 0) (hown : st ≠ 0x0401) :
    exec (.putDeliver src) s = .next (refusePut m.bytes 0 m.src st u) := by
  rw [putDeliver_runs hfirst hslot hu, putDeliver]
  refine congrArg Host.Outcome.next ((if_pos hcls).trans ((if_pos (hbad ▸ hst)).trans ?_))
  rw [hbad]
  cases streamOf u (mDst m.bytes) with
  | none => rfl
  | some x => exact congrArg (refusePut m.bytes 0 m.src st) (if_neg hown)

theorem putDeliver_refusesOwn {k j : Nat} {r : Nat × Nat} (hbad : putBad u m = 0x0401) (hstream : streamOf u (mDst m.bytes) = some (k, j))
    (hrefusal : slotRefusal u k j = some r) :
    exec (.putDeliver src) s = .next (refusePut m.bytes 0 m.src 0x0401 (agentRefuse k j r u)) := by
  rw [putDeliver_runs hfirst hslot hu, putDeliver]
  refine congrArg Host.Outcome.next ((if_pos hcls).trans ((if_pos (by rw [hbad]; decide)).trans ?_))
  rw [hbad, hstream]
  dsimp only
  rw [hrefusal, if_pos rfl, Option.getD_some]

theorem putDeliver_delivers {k j : Nat} (hgood : putBad u m = 0) (hstream : streamOf u (mDst m.bytes) = some (k, j)) :
    exec (.putDeliver src) s = .next (slotDeliver k j m.bytes ((m.bytes.drop 32).take (mLen m.bytes)) m.poison u) := by
  rw [putDeliver_runs hfirst hslot hu, putDeliver]
  refine congrArg Host.Outcome.next ((if_pos hcls).trans ((if_neg (not_not.mpr hgood)).trans ?_))
  rw [hstream]

end

/-! ## Reductions (R343 to R346) -/

theorem reduceContribution_runs {src : Fin 17} {i : Nat} {m : FMsg} {u s : State}
    (hfirst : firstFrom src (fun m => m.cls == 2 && m.mask.isNone) s.fab.held = some (i, m))
    (hadd : contribute src m { s with fab := { s.fab with held := s.fab.held.eraseIdx i } } = some u) :
    exec (.reduceContribution src) s = .next (freePlaces src m u) := by
  rw [exec, execReduceContribution, hfirst]
  dsimp only
  rw [hadd]

/-- The context that a first contribution opens. -/
def ctxOpened (src : Nat) (m : FMsg) (s : State) : RedCtx :=
  { hub := reduceHub s (mGroup m.bytes), group := mGroup m.bytes, tag := mTag m.bytes, len := mLen m.bytes, op := mOp m.bytes
    count := if src = 16 then 1 else mCount m.bytes, kids := if src = 16 then 0 else 1, loc := src == 16
    val := redBlocks (mOp m.bytes) m, part := mPartial m.bytes, err := mError m.bytes, opened := s.ns }

theorem contribute_opens {src : Nat} {m : FMsg} {s : State} (hdone : s.fab.done.contains (mGroup m.bytes, mTag m.bytes) = false)
    (hnew : s.fab.ctxs.find? (fun x => x.group == mGroup m.bytes && x.tag == mTag m.bytes) = none)
    (hroom : (s.fab.ctxs.filter (fun x => x.hub == reduceHub s (mGroup m.bytes))).length < 4096) (hkids : 1 < fld m.entry 25 19) :
    contribute src m s = some (publishCtxs (reduceHub s (mGroup m.bytes))
      { s with fab := { s.fab with ctxs := s.fab.ctxs ++ [ctxOpened src m s] } }) := by
  have hfull : redFull m.entry (ctxOpened src m s) = false := by
    have hfew : (ctxOpened src m s).kids ≤ 1 := by
      show (if src = 16 then 0 else 1) ≤ 1
      split <;> decide
    rw [redFull, decide_eq_false (by omega), Bool.false_and]
  unfold contribute
  dsimp only
  rw [hdone, hnew]
  refine (if_neg Bool.false_ne_true).trans ((if_neg (by omega)).trans (congrArg some (if_neg ?_)))
  exact fun h => Bool.false_ne_true (hfull.symm.trans h)

theorem contribute_effect {src : Nat} {m : FMsg} {s : State} (hdone : s.fab.done.contains (mGroup m.bytes, mTag m.bytes) = false)
    (hnew : s.fab.ctxs.find? (fun x => x.group == mGroup m.bytes && x.tag == mTag m.bytes) = none)
    (hroom : (s.fab.ctxs.filter (fun x => x.hub == reduceHub s (mGroup m.bytes))).length < 4096) (hkids : 1 < fld m.entry 25 19) :
    ∃ u x, contribute src m s = some u ∧ u.fab.ctxs = s.fab.ctxs ++ [x] ∧ x.group = mGroup m.bytes ∧ x.tag = mTag m.bytes ∧
      x.len = mLen m.bytes ∧ x.val = redBlocks (mOp m.bytes) m ∧ x.hub = reduceHub s (mGroup m.bytes) ∧ x.opened = s.ns :=
  ⟨_, ctxOpened src m s, contribute_opens hdone hnew hroom hkids, congrArg FabSt.ctxs (rupd_fab _ _ _), rfl, rfl, rfl, rfl, rfl, rfl⟩

theorem redCombine_sum {op : Nat} {a b : List Nat} (hop : op ≠ 2) :
    redCombine op [some a] [some b] = [some ((a.zip b).map (fun v => nbAdd v.1 v.2))] := by
  rw [redCombine, if_neg hop]
  rfl

theorem reduceContextTimeout_waits {group : Fin 768} {tag : Word} {x : RedCtx} {s : State}
    (hctx : s.fab.ctxs.find? (fun x => x.group == group.val && x.tag == tag.toNat) = some x)
    (hearly : s.ns < x.opened + max 1 (fld (routeEntry s (256 + group.val)) 56 54) * wFld (rget s (hubBase 0 + 0x40020)) 15 0 * 1000) :
    exec (.reduceContextTimeout group tag) s = .next s := by
  rw [exec, execReduceContextTimeout, hctx]
  exact if_pos hearly

theorem reduceContextTimeout_completes {group : Fin 768} {tag : Word} {x : RedCtx} {s : State}
    (hctx : s.fab.ctxs.find? (fun x => x.group == group.val && x.tag == tag.toNat) = some x)
    (hdue : x.opened + max 1 (fld (routeEntry s (256 + group.val)) 56 54) * wFld (rget s (hubBase 0 + 0x40020)) 15 0 * 1000 ≤ s.ns) :
    exec (.reduceContextTimeout group tag) s = .next (redDone { x with part := true }
      (rupd (hubBase x.hub + 0x40024) (fun w => wSatAdd w 18 12 1) s)) := by
  rw [exec, execReduceContextTimeout, hctx]
  exact if_neg (by omega)

end Sys2Proof.Machine

open Sys2Proof.Machine

/-- Settles O56: the front message of a source goes where the route tables send it; heartbeats keep the lists of children; a
stream's ring register opens it, and its slots become messages; contributions open, join or complete a context. -/
theorem fabricMessages : Obligations.FabricMessages := by
  refine ⟨fabricMessageRoute_routes, fun _ _ _ _ => mem_heads, fun m src s hsrc => ?_, fun _ _ _ _ => choosePort_go,
    fun _ => heartbeatSend_asks, fun _ _ _ _ => heartbeatAnswer_answers, fun _ _ _ => childLost_notes, fun _ => orphan_shown,
    fun k i w s => ⟨streamValidWrite_locked w, fun hopen => streamValidWrite_closes hopen,
      fun hopen => streamValidWrite_confidential hopen, streamValidWrite_opens⟩,
    fun k i s hvalid hsend => ⟨streamNotice_marks hvalid hsend, streamSend_runs hvalid hsend⟩,
    fun _ _ _ _ _ => streamNotice_grants, fun _ _ _ _ _ _ _ _ _ _ _ => streamSend_effect, ?_,
    fun _ _ _ _ _ => reduceContribution_runs, fun _ _ _ => contribute_effect, fun _ _ _ hop _ => redCombine_sum hop,
    fun group tag x s hctx => ⟨reduceContextTimeout_waits hctx, reduceContextTimeout_completes hctx⟩⟩
  · exact if_pos hsrc
  · intro src i m s hfirst hcls hslot u
    exact ⟨fun st => putDeliver_refuses hfirst hcls hslot rfl, fun k j r => putDeliver_refusesOwn hfirst hcls hslot rfl,
      fun k j => putDeliver_delivers hfirst hcls hslot rfl⟩
end

section
/-! Model loads and the launch queue (O42). -/

namespace Sys2Proof.Machine

/-! ## MODEL_LOAD (R315) -/

theorem partCores_congr {s t : State} {p : Nat} (hmask : (pget t p).mask = (pget s p).mask) (hmap : t.map = s.map) :
    partCores t p = partCores s p := by
  simp only [partCores, corePhys, clPhys, twPhys, hmask, hmap]

theorem partCores_startPkt (k : Pkt) (s : State) (p : Nat) : partCores (startPkt k s) p = partCores s p :=
  partCores_congr (by rw [pget_startPkt]) ((only_startPkt k s).map rfl)

section
variable {w : Fin 128} {k : Pkt} {ents wm : List (List Byte)} {imgs : List (Nat × Nat × List Byte)} {s u v x : State}

/-- The model that a MODEL_LOAD with weight entries `wm` and the images `imgs` loads. -/
def loadedModel (b : List Byte) (wm : List (List Byte)) (imgs : List (Nat × Nat × List Byte)) : ModelSt :=
  { handle := payAt b 20 2, cores := imgs.map (fun e => e.1)
    weights := wm.map (fun e => (leAt e 0 8, leAt e 8 8, leAt e 16 4)) }

/-- The load paths of the images start, with the load noted in the partition. -/
def modelLoading (p id : Nat) (m : ModelSt) (imgs : List (Nat × Nat × List Byte)) (x : State) : State :=
  pupd p (fun q => { q with loading := some { pkt := id, model := m, left := m.cores, bad := none }, model := none })
    (imgs.foldl (fun s e => loadImage e.1 e.2.1 e.2.2 s) x)

theorem modelLoad_runs (hadm : admitted w 0x0204 (fun b => payNZ b 22 10) k s) (halign : payAt k.bytes 0 8 % 8 = 0)
    (hidle : (pget s (hPart k.bytes)).loading = none) (hhalted : ∀ c ∈ partCores s (hPart k.bytes), (cget s c).halted = true)
    (hents : pktTable (pktWho k.bytes) (payAt k.bytes 0 8) 8 (partCores s (hPart k.bytes)).length (startPkt k s) = (.ok ents, u))
    (hentry : ∀ e ∈ ents, fld (leNat e) 31 28 = 0 ∧ leNat e < 2 ^ 33)
    (hwm : pktTable (pktWho k.bytes) (payAt k.bytes 8 8) 24 (if payAt k.bytes 8 8 = 0 then 0 else payAt k.bytes 16 4) u = (.ok wm, v))
    (hweight : ∀ e ∈ wm, leAt e 20 4 = 0 ∧ weightOk v (pktWho k.bytes) (leAt e 0 8, leAt e 8 8, leAt e 16 4) = true)
    (hheads : readHeaders (imagesOf (partCores s (hPart k.bytes)) ents) v = (.ok imgs, x)) :
    exec (.modelLoad w) s =
      .next (loadFinish (hPart k.bytes) (modelLoading (hPart k.bytes) k.id (loadedModel k.bytes wm imgs) imgs x)) := by
  have hcores := partCores_startPkt k s (hPart k.bytes)
  rw [exec, execModelLoad, runCmd_admitted hadm]
  dsimp only
  rw [hcores, hents]
  refine congrArg Host.Outcome.next ((if_neg (by rw [halign]; decide)).trans ((if_neg ?_).trans ?_))
  · rw [pget_startPkt, hidle, Option.isSome_none, Bool.false_or, Bool.not_eq_true, List.any_eq_false]
    intro c hc
    rw [cget, (only_startPkt k s).cores rfl]
    exact (hhalted c hc).symm ▸ Bool.false_ne_true
  · dsimp only
    refine (if_neg ?_).trans ?_
    · rw [Bool.not_eq_true, List.any_eq_false]
      intro e he
      obtain ⟨hfld, hlt⟩ := hentry e he
      rw [hfld, Nat.div_eq_of_lt hlt]
      decide
    · rw [hwm]
      dsimp only
      refine (if_neg ?_).trans ((if_neg ?_).trans ?_)
      · rw [Bool.not_eq_true, List.any_eq_false]
        intro e he
        obtain ⟨hzero, _⟩ := hweight e he
        rw [hzero]
        decide
      · rw [Bool.not_eq_true, List.any_map, List.any_eq_false]
        intro e he
        obtain ⟨_, hok⟩ := hweight e he
        exact Bool.not_eq_true _ ▸ congrArg (!·) hok
      · rw [hheads]
        rfl

theorem loadFinish_empty {p id : Nat} {m : ModelSt} (hm : m.cores = []) (x : State) :
    (pget (loadFinish p (modelLoading p id m [] x)) p).model = some m ∧
      (pget (loadFinish p (modelLoading p id m [] x)) p).loading = none := by
  have hload : (pget (modelLoading p id m [] x) p).loading = some { pkt := id, model := m, left := m.cores, bad := none } :=
    congrArg PartSt.loading (pget_pupd_same _ _ _)
  have hfin : loadFinish p (modelLoading p id m [] x) = complete id 0 m.cores.length 0
      (pupd p (fun q => { q with loading := none, model := some m }) (modelLoading p id m [] x)) := by
    rw [loadFinish, hload]
    dsimp only
    exact if_neg (by rw [hm]; decide)
  rw [hfin, pget_complete, pget_pupd_same]
  exact ⟨rfl, rfl⟩

end

/-! ## STEP_LAUNCH (R197, R318) -/

/-- A partition with one more launch: behind the queued switch, behind the pending one, or in the queue. -/
def launched (id : Nat) (q : PartSt) : PartSt :=
  if q.dir.any (fun d => d.queued) then { q with held2 := q.held2 ++ [id] }
  else if q.dir.any (fun d => d.pend) then { q with held := q.held ++ [id] } else { q with launches := q.launches ++ [id] }

theorem stepLaunch_queues {w : Fin 128} {k : Pkt} {s : State} (hadm : admitted w 0x0401 (fun b => payAt b 8 4 / 2 ^ 16 != 0) k s)
    (hmodel : (pget s (hPart k.bytes)).model.isSome = true) (halign : payAt k.bytes 0 8 % 8 = 0) (htable : payAt k.bytes 16 8 % 8 = 0) :
    exec (.stepLaunch w) s = .next (pset (hPart k.bytes) (launched k.id (pget s (hPart k.bytes))) (startPkt k s)) := by
  rw [exec, execStepLaunch, runCmd_admitted hadm]
  dsimp only
  rw [pget_startPkt]
  refine congrArg Host.Outcome.next ((if_neg ?_).trans (if_neg ?_))
  · rw [Option.isNone_eq_false_iff.mpr hmodel]
    exact Bool.false_ne_true
  · rw [halign, htable]
    decide

theorem stepLaunch_effect {w : Fin 128} {k : Pkt} {s : State} (hadm : admitted w 0x0401 (fun b => payAt b 8 4 / 2 ^ 16 != 0) k s)
    (hmodel : (pget s (hPart k.bytes)).model.isSome = true) (halign : payAt k.bytes 0 8 % 8 = 0) (htable : payAt k.bytes 16 8 % 8 = 0) :
    ∃ t, exec (.stepLaunch w) s = .next t ∧ { t with parts := s.parts } = startPkt k s ∧
      (∀ j, j ≠ hPart k.bytes → pget t j = pget s j) ∧
      ((∀ d, (pget s (hPart k.bytes)).dir = some d → d.pend = false ∧ d.queued = false) →
        pget t (hPart k.bytes) = { pget s (hPart k.bytes) with launches := (pget s (hPart k.bytes)).launches ++ [k.id] }) ∧
      (∀ d, (pget s (hPart k.bytes)).dir = some d → d.pend = true → d.queued = false →
        pget t (hPart k.bytes) = { pget s (hPart k.bytes) with held := (pget s (hPart k.bytes)).held ++ [k.id] }) ∧
      (∀ d, (pget s (hPart k.bytes)).dir = some d → d.queued = true →
        pget t (hPart k.bytes) = { pget s (hPart k.bytes) with held2 := (pget s (hPart k.bytes)).held2 ++ [k.id] }) := by
  have hparts : (startPkt k s).parts = s.parts := (only_startPkt k s).parts rfl
  refine ⟨_, stepLaunch_queues hadm hmodel halign htable, ?_, fun j hj => ?_, fun h => ?_, fun d hd hpend hqueued => ?_,
    fun d hd hqueued => ?_⟩
  · rw [← hparts]
    rfl
  · rw [pget_pset_other _ _ hj, pget_startPkt]
  · rw [pget_pset_same]
    cases hd : (pget s (hPart k.bytes)).dir with
    | none => simp [launched, hd]
    | some d =>
      obtain ⟨hpend, hqueued⟩ := h d hd
      simp [launched, hd, hpend, hqueued]
  · rw [pget_pset_same]
    simp [launched, hd, hpend, hqueued]
  · rw [pget_pset_same]
    simp [launched, hd, hqueued]

/-! ## STEP_CANCEL (R318) -/

theorem launchesEnd_part (p status : Nat) (s : State) :
    pget (launchesEnd p status s) p = { pget s p with launches := [], held := [], held2 := [] } := by
  unfold launchesEnd
  dsimp only
  refine List.foldlRecOn (motive := fun t : State => pget t p = { pget s p with launches := [], held := [], held2 := [] }) _ _
    (pget_pset_same _ _ _) fun t ht id _ => ?_
  rw [pget_complete, ht]

theorem pget_haltReqCores (l : List Nat) (s : State) (p : Nat) : pget (l.foldl (fun s c => haltReqCore c s) s) p = pget s p := by
  rw [pget, pget, (only_foldl (φ := F.cores ||| F.cols) (fun _ _ h => only_haltReqCore (φ := F.cores ||| F.cols) rfl h _) (Only.refl _ s)).parts rfl]

theorem stepDone_part (p : Nat) (st : StepSt) (status result detail : Nat) (s : State) :
    (pget (stepDone p st status result detail s) p).step = none := by
  rw [stepDone, pget_complete, pget_pupd_same]

theorem stepStop_step {p status detail : Nat} {s : State} {st : StepSt}
    (h : (pget (stepStop p status detail s) p).step = some st) : st.phase = 2 := by
  unfold stepStop at h
  cases hstep : (pget s p).step with
  | none =>
    rw [hstep] at h
    exact absurd (hstep.symm.trans h) (by simp)
  | some r =>
    rw [hstep] at h
    dsimp only at h
    split at h
    · next hphase =>
      rw [hstep] at h
      exact Option.some.inj h ▸ hphase
    · split at h
      · rw [stepClose, stepDone_part] at h
        cases h
      · rw [pget_haltReqCores, pget_pupd_same] at h
        exact Option.some.inj h ▸ rfl

theorem stepCancel_empties {w : Fin 128} {k : Pkt} {s : State} (hadm : admitted w 0x0402 noResv k s) :
    ∃ u, exec (.stepCancel w) s = .next (complete k.id 0 (((pget s (hPart k.bytes)).launches.length +
        (pget s (hPart k.bytes)).held.length + (pget s (hPart k.bytes)).held2.length +
        (if (pget s (hPart k.bytes)).step.any (fun st => st.phase != 2) then 1 else 0)) % 65536) 0 u) ∧
      (pget u (hPart k.bytes)).launches = [] ∧ (pget u (hPart k.bytes)).held = [] ∧ (pget u (hPart k.bytes)).held2 = [] ∧
      (∀ st, (pget u (hPart k.bytes)).step = some st → st.phase = 2) := by
  refine ⟨launchesEnd (hPart k.bytes) 0x0308 (stepStop (hPart k.bytes) 0x0308 0 (startPkt k s)), ?_, ?_, ?_, ?_, fun st hst => ?_⟩
  · rw [exec, execStepCancel, runCmd_admitted hadm, cancelSteps]
    dsimp only
    rw [pget_startPkt, List.length_append, List.length_append]
    cases (pget s (hPart k.bytes)).step with
    | none => rfl
    | some st =>
      rw [Option.any_some]
      by_cases hphase : st.phase = 2
      · simp only [hphase, bne_self_eq_false, Bool.false_eq_true, if_true, if_false]
      · simp only [hphase, bne_iff_ne.mpr hphase, if_true, if_false]
  · rw [launchesEnd_part]
  · rw [launchesEnd_part]
  · rw [launchesEnd_part]
  · rw [launchesEnd_part] at hst
    exact stepStop_step hst

/-! ## The start of a step (R318) -/

/-- The step of the launch `k` before its length table is read. -/
def stepOpened (id : Nat) (k : Pkt) (s : State) : StepSt :=
  { pkt := id, phase := 0, status := 0, detail := 0, start := s.ns, buf := zeros (8 * (payAt k.bytes 8 2 + 1))
    left := ceilDiv (8 * (payAt k.bytes 8 2 + 1)) 4096, table := [], faults := [], segs := [], waits := [] }

/-- A partition whose first launch has started as the step `st`. -/
def stepTaken (rest : List Nat) (st : StepSt) (q : PartSt) : PartSt :=
  { q with launches := rest, steps := q.steps + 1, step := some st, dir := q.dir.map (fun d => { d with first := false }) }

theorem stepStart_takes {p : Fin 64} {id : Nat} {rest : List Nat} {k : Pkt} {s : State} (hidle : (pget s p).step = none)
    (hdir : ∀ d, (pget s p).dir = some d → d.pend = false ∨ d.first = true) (hlive : s.fatal = false) (hfn : nsHas s.d3 0 = false)
    (hfp : nsHas s.d3 (p + 1) = false) (hfirst : (pget s p).launches = id :: rest) (hpkt : findPkt s id = some k)
    (hmodel : (pget s p).model.isSome = true) :
    ∃ t st, exec (.stepStart p) s = .next t ∧ pget t p = stepTaken rest st (pget s p) ∧
      st.pkt = id ∧ st.phase = 0 ∧ st.start = s.ns ∧ st.left = ceilDiv (8 * (payAt k.bytes 8 2 + 1)) 4096 ∧
      (∀ j, j ≠ p.val → pget t j = pget s j) ∧ t.wins = s.wins ∧ t.regs = s.regs ∧ t.cores = s.cores ∧ t.t1 = s.t1 := by
  obtain ⟨v, hv⟩ : ∃ v, v = dropReads (fun u => match u with
    | .lenTab i _ => i == p.val
    | _ => false) (pset p (stepTaken rest (stepOpened id k s) (pget s p)) s) := ⟨_, rfl⟩
  have honly : Only (F.reads ||| F.nextTag ||| F.hostOut) (pset p (stepTaken rest (stepOpened id k s) (pget s p)) s)
      (lenReads (winFn k.win) p (payAt k.bytes 0 8) (ceilDiv (8 * (payAt k.bytes 8 2 + 1)) 4096) 0 (8 * (payAt k.bytes 8 2 + 1)) v) :=
    only_lenReads (φ := F.reads ||| F.nextTag ||| F.hostOut) rfl
      (hv ▸ only_dropReads (φ := F.reads ||| F.nextTag ||| F.hostOut) rfl (Only.refl _ _) _) _ _ _ _ _ _
  refine ⟨_, stepOpened id k s, (?_ : _ = Host.Outcome.next (lenReads (winFn k.win) p (payAt k.bytes 0 8)
    (ceilDiv (8 * (payAt k.bytes 8 2 + 1)) 4096) 0 (8 * (payAt k.bytes 8 2 + 1)) v)), ?_, rfl, rfl, rfl, rfl, fun j hj => ?_,
    honly.wins rfl, honly.regs rfl, honly.cores rfl, honly.t1 rfl⟩
  · rw [exec, execStepStart, stepStart, hfirst]
    refine congrArg Host.Outcome.next ((if_neg ?_).trans ?_)
    · have hdue : (pget s p).dir.any (fun d => d.pend && !d.first) = false := by
        cases hd : (pget s p).dir with
        | none => rfl
        | some d =>
          rcases hdir d hd with h | h
          · rw [Option.any_some, h, Bool.false_and]
          · rw [Option.any_some, h, Bool.not_true, Bool.and_false]
      rw [hidle, hdue, mayStart, hlive, hfn, hfp]
      decide
    · dsimp only
      rw [hpkt]
      dsimp only
      refine (if_neg ?_).trans ?_
      · rw [Option.isNone_eq_false_iff.mpr hmodel]
        exact Bool.false_ne_true
      · rw [hv]
        rfl
  · rw [pget, honly.parts rfl]
    exact pget_pset_same _ _ _
  · rw [pget, honly.parts rfl]
    exact pget_pset_other _ _ hj

theorem stepStart_waits {p : Fin 64} {d : DirSt} {s : State} (hdir : (pget s p).dir = some d) (hpend : d.pend = true)
    (hfirst : d.first = false) : exec (.stepStart p) s = .next s := by
  rw [exec, execStepStart, stepStart, hdir]
  exact congrArg Host.Outcome.next (if_pos (by rw [Option.any_some, hpend, hfirst]; simp))

theorem launchFault_sequence {p i e : Nat} {x : EditCtx} {tab : List Nat} {v : Desc} {s u : State}
    (hdesc : (curDesc p (leSeq e)).run s = .ok (some (i, v), u)) (hfault : v.fault ≠ 0) (hnew : leNew e ≠ 0) :
    (launchFault p x tab e).run s = .ok (v.fault, u) := by
  unfold launchFault
  rw [if_neg hnew, StateT.run_bind, hdesc]
  show StateT.run (if v.fault ≠ 0 then _ else _) u = _
  rw [if_pos hfault]
  rfl

end Sys2Proof.Machine
end

section
/-! The walk and the end of a step (O42). -/

namespace Sys2Proof.Machine

/-! ## Segments (R216) -/

theorem pupd_frame (p : Nat) (f : PartSt → PartSt) (s : State) : { pupd p f s with parts := s.parts } = s := rfl

section
variable {p : Fin 64} {clu : Fin 256} {stop : Fin 32} {st : StepSt} {a : AttSt} {g : WalkSeg} {s : State}
  (hstep : (pget s p).step = some st) (hatt : (pget s p).att = some a)
  (hseg : st.segs.find? (fun g => g.clu == clu.val && g.stop == stop.val) = some g) (hphase : st.phase = 1)
include hstep hatt hseg

theorem walkSegmentWrite_waits (stuck : Bool) (hturn : walkTurn st g = false) :
    exec (.walkSegmentWrite p clu stop stuck) s = .next s := by
  rw [exec, execWalkSegmentWrite, hstep, hatt]
  dsimp only
  rw [hseg]
  exact if_pos (by rw [hturn, Bool.not_false, Bool.or_true])

include hphase

theorem walkSegmentWrite_writes {v : State} (hturn : walkTurn st g = true) (hrun : (walkWrite p a st g).run s = .ok ((), v)) :
    exec (.walkSegmentWrite p clu stop false) s = .next v := by
  rw [exec, execWalkSegmentWrite, hstep, hatt]
  dsimp only
  rw [hseg]
  refine (if_neg (by rw [hphase, hturn]; decide)).trans ((if_neg Bool.false_ne_true).trans ?_)
  rw [engRun, hrun]

theorem walkSegmentWrite_fails (hturn : walkTurn st g = true) :
    ∃ t, exec (.walkSegmentWrite p clu stop true) s = .next t ∧ { t with parts := s.parts } = csBusyN clu 65 none s ∧
      pget t p = { pget s p with step := some { st with
        faults := g.work.foldl (fun fs n => fs.modify n (fun f => if f = 0 then 0x0C else f)) st.faults } } := by
  have hparts : (csBusyN clu 65 none s).parts = s.parts :=
    (only_csBusyN (φ := F.regs ||| F.ctrs) rfl (Only.refl _ s) clu 65 none).parts rfl
  refine ⟨_, (?_ : _ = Host.Outcome.next (pupd p (fun q => { q with step := some { st with
    faults := g.work.foldl (fun fs n => fs.modify n (fun f => if f = 0 then 0x0C else f)) st.faults } }) (csBusyN clu 65 none s))),
    ?_, ?_⟩
  · rw [exec, execWalkSegmentWrite, hstep, hatt]
    dsimp only
    rw [hseg]
    exact (if_neg (by rw [hphase, hturn]; decide)).trans (if_pos rfl)
  · rw [← hparts]
    exact pupd_frame _ _ _
  · rw [pget_pupd_same, pget, hparts]
    rfl

end

/-! ## The end of a step (R235) -/

section
variable {p : Fin 64} {outs : List StepOut} {st : StepSt} {s : State} (hstep : (pget s p).step = some st) (hphase : st.phase = 1)
  (hhalted : ∀ c ∈ modelCores s p, (cget s c).halted = true ∧ (sq s c).startPend = false)
include hstep hphase hhalted

omit hstep hphase in
theorem stepHalted_of_all : stepHalted s p = true := by
  rw [stepHalted, List.all_eq_true]
  intro c hc
  obtain ⟨hhalt, hpend⟩ := hhalted c hc
  rw [hhalt, hpend]
  rfl

theorem stepRetire_retires (hsegs : st.segs = []) : ∃ t, exec (.stepRetire p outs) s = .next t ∧ t = stepRetire p st outs s ∧
    (pget t p).step = none := by
  refine ⟨stepRetire p st outs s, ?_, rfl, stepDone_part _ _ _ _ _ _⟩
  rw [exec, execStepRetire, hstep]
  refine (if_neg ?_).trans ((if_neg (by rw [hphase]; decide)).trans (if_neg (by rw [hsegs]; decide)))
  rw [stepHalted_of_all hhalted, hphase]
  decide

theorem stepRetire_waits (hsegs : st.segs ≠ []) : exec (.stepRetire p outs) s = .next s := by
  rw [exec, execStepRetire, hstep]
  refine (if_neg ?_).trans ((if_neg (by rw [hphase]; decide)).trans (if_pos ?_))
  · rw [stepHalted_of_all hhalted, hphase]
    decide
  · rw [List.isEmpty_eq_false_iff.mpr hsegs]
    rfl

end

theorem ownerFault_order (o : StepOut) : (o.fmt = true → ownerFault o = 0x01) ∧
    (o.fmt = false → o.poison = true → ownerFault o = 0x02) ∧
    (o.fmt = false → o.poison = false → o.foreign = true ∨ o.item = true → ownerFault o = 0x0C) ∧
    (o.fmt = false → o.poison = false → o.foreign = false → o.item = false → ownerFault o = 0) := by
  refine ⟨fun hfmt => if_pos hfmt, fun hfmt hpoison => ?_, fun hfmt hpoison hother => ?_, fun hfmt hpoison hforeign hitem => ?_⟩
  · rw [ownerFault, hfmt, hpoison]
    rfl
  · rw [ownerFault, hfmt, hpoison, Bool.or_eq_true_iff.mpr hother]
    rfl
  · rw [ownerFault, hfmt, hpoison, hforeign, hitem]
    rfl

theorem stepLimitExpiry_limits {p : Fin 64} {st : StepSt} {k : Pkt} {s : State} (hstep : (pget s p).step = some st)
    (hpkt : findPkt s st.pkt = some k) :
    (payAt k.bytes 12 4 ≠ 0 → st.phase ≠ 2 → exec (.stepLimitExpiry p) s = .next (stepStop p 0x0505 0 s)) ∧
      (payAt k.bytes 12 4 = 0 → exec (.stepLimitExpiry p) s = .next s) := by
  rw [exec, execStepLimitExpiry, hstep]
  dsimp only
  rw [hpkt]
  refine ⟨fun hlim hphase => congrArg Host.Outcome.next (if_neg ?_), fun hlim => congrArg Host.Outcome.next (if_pos ?_)⟩
  · simp [hlim, hphase]
  · simp [hlim]

/-- A number of `n` bytes is read back as it was written. -/
theorem leNat_leBytes (n v : Nat) : leNat (leBytes n v) = v % 256 ^ n := by
  induction n generalizing v with
  | zero => rw [leBytes, leNat, pow_zero, Nat.mod_one]
  | succ n ih =>
    rw [leBytes, leNat, ih, BitVec.toNat_ofNat, Nat.pow_succ' (m := 256), Nat.mod_mul]

theorem tokenRec_value {token fault : Nat} (mixed clamp : Bool) (htoken : token < 2 ^ 32) (hfault : fault < 256) :
    leNat (tokenRec token fault mixed clamp) = token + fault * 2 ^ 32 + b2n mixed * 2 ^ 40 + b2n clamp * 2 ^ 41 := by
  have hbit (b : Bool) : b2n b ≤ 1 := by cases b <;> decide
  have hmixed := hbit mixed
  have hclamp := hbit clamp
  rw [tokenRec, leNat_leBytes, Nat.mod_eq_of_lt]
  omega

theorem appendFault_none (e ctx b first : Nat) : appendFault e ctx b first = 0 ↔
    pteValid e = true ∧ pteTier e = 0 ∧ (b = first → pteShared e = false) ∧ pteTokens e = wantTokens ctx b := by
  unfold appendFault
  by_cases hvalid : pteValid e = true
  · by_cases htier : pteTier e = 0
    · by_cases hshared : b = first ∧ pteShared e = true
      · obtain ⟨hb, hs⟩ := hshared
        simp [hvalid, htier, hb, hs]
      · have hs : b = first → pteShared e = false := fun hb => Bool.eq_false_iff.mpr fun hs => hshared ⟨hb, hs⟩
        by_cases htokens : pteTokens e = wantTokens ctx b
        · simpa [hvalid, htier, htokens] using hs
        · simp [hvalid, htier, htokens, hshared]
    · simp [hvalid, htier]
  · simp [hvalid]

/-! ## The abort of a core of the step (log entry 178) -/

/-- Core `k` is stopping unless it had halted in state `u`. -/
def stopping (u : State) (k : Nat) (t : State) : Prop :=
  (cget t k).halted = (cget u k).halted ∧ ((cget u k).halted = false → (sq t k).run = false ∧ (sq t k).stop ≠ 0)

theorem halted_haltReqCore (c k : Nat) (s : State) : (cget (haltReqCore c s) k).halted = (cget s k).halted := by
  by_cases hk : k = c
  · subst hk
    unfold haltReqCore
    split
    · split
      · rw [cget_squpd_same]
      · rfl
    · rw [cget_squpd_same, cget_discardUnstarted_same]
  · obtain ⟨hcore, _⟩ := coreKept_haltReqCore s hk
    rw [hcore]

theorem stopping_haltReqCore (u : State) (c : Nat) {s : State} (hkept : (cget s c).halted = (cget u c).halted) :
    stopping u c (haltReqCore c s) := by
  refine ⟨(halted_haltReqCore c c s).trans hkept, fun hrun => ?_⟩
  obtain ⟨hstop, hwhy, _⟩ := haltReqCore_stops (hkept.trans hrun)
  refine ⟨hstop, ?_⟩
  rw [hwhy]
  split <;> decide

theorem stopping_kept {u s : State} {c : Nat} (k : Nat) (h : stopping u c s) : stopping u c (haltReqCore k s) := by
  obtain ⟨hkept, hstop⟩ := h
  by_cases hk : c = k
  · exact hk ▸ stopping_haltReqCore u c hkept
  · obtain ⟨hcore, _⟩ := coreKept_haltReqCore s hk
    rw [stopping, sq, hcore]
    exact ⟨hkept, hstop⟩

/-- Every core of a list that is asked to halt is stopping. -/
theorem stopping_haltReqCores {u : State} (l : List Nat) {s : State} (hkept : ∀ k, (cget s k).halted = (cget u k).halted) :
    ∀ c ∈ l, stopping u c (l.foldl (fun s c => haltReqCore c s) s) := by
  induction l generalizing s with
  | nil => exact fun c hc => absurd hc (List.not_mem_nil)
  | cons a l ih =>
    have hkept' (k : Nat) : (cget (haltReqCore a s) k).halted = (cget u k).halted := (halted_haltReqCore a k s).trans (hkept k)
    intro c hc
    rcases List.mem_cons.mp hc with rfl | hc
    · exact List.foldlRecOn (motive := stopping u c) l _ (stopping_haltReqCore u c (hkept c)) fun t ht k _ => stopping_kept k ht
    · exact ih hkept' c hc

theorem modelCores_congr {s t : State} (h : t.parts = s.parts) (p : Nat) : modelCores t p = modelCores s p := by
  rw [modelCores, modelCores, pget, pget, h]

theorem stepOf_congr {s t : State} (hparts : t.parts = s.parts) (hmap : t.map = s.map) (c : Nat) : stepOf t c = stepOf s c := by
  simp only [stepOf, corePart, cluPart_congr hmap hparts, modelCores_congr hparts, pget, hparts]

/-- A step that the abort of core `c` ends. -/
def stepAborted (c p : Nat) (u : State) (st : StepSt) : StepSt :=
  { st with phase := 2, status := 0x0309, segs := [], detail := (partCores u p).idxOf c + wFld (corReg u c 0x220) 7 0 * 2 ^ 16 }

theorem tabort_ends {c : Fin 4352} {w p : Nat} {st : StepSt} {s u : State} (hissues : issues c 0x04 [0] w s u)
    (hof : stepOf u c = some p) (hstep : (pget u p).step = some st) : ∃ t, exec (.tabort c) s = .next t ∧
    pget t p = { pget u p with step := some (stepAborted c p u st) } ∧
    ∀ k ∈ modelCores u p, (cget u k).halted = false → (sq t k).run = false ∧ (sq t k).stop ≠ 0 := by
  obtain ⟨v, hv⟩ : ∃ v, v = squpd c (fun q => { q with run := false, wait := 0, held := [], stop := 3 })
      (discardUnstarted c (seqNext c 1 u)) := ⟨_, rfl⟩
  have honly : Only (F.cores ||| F.cols ||| F.ctrs) u v := hv ▸ only_squpd (φ := F.cores ||| F.cols ||| F.ctrs) rfl
    (only_discardUnstarted (φ := F.cores ||| F.cols ||| F.ctrs) rfl
      (only_seqNext (φ := F.cores ||| F.cols ||| F.ctrs) rfl (Only.refl _ _) _ _) _) _ _
  have hparts : v.parts = u.parts := honly.parts rfl
  have hmap : v.map = u.map := honly.map rfl
  have hpart : pget v p = pget u p := by rw [pget, pget, hparts]
  obtain ⟨_, ⟨hother, hself⟩, _⟩ := seqNext_one c 1 u
  have hkept (k : Nat) : (cget v k).halted = (cget u k).halted := by
    rw [hv]
    by_cases hk : k = c
    · subst hk
      rw [cget_squpd_same, cget_discardUnstarted_same, hself]
    · rw [cget_squpd_other _ _ hk, cget_discardUnstarted_other _ hk, hother k hk]
  have hown : stopping u c v := ⟨hkept c, fun _ => by rw [hv, sq_squpd_same]; exact ⟨rfl, three_ne_zero⟩⟩
  obtain ⟨x, hx⟩ : ∃ x, x = pupd p (fun q => { q with step := q.step.map (fun _ => stepAborted c p u st) }) v := ⟨_, rfl⟩
  have hexec : exec (.tabort c) s =
      .next (((modelCores u p).filter (fun k : Nat => k != c.val)).foldl (fun s k => haltReqCore k s) x) := by
    rw [exec, execTabort, seqStep_issues hissues, abortCore, ← hv, abortStep, stepOf_congr hparts hmap, hof]
    dsimp only
    rw [modelCores_congr hparts, partCores_congr (congrArg PartSt.mask hpart) hmap, abortCause, corReg, rget, honly.regs rfl, hx,
      pupd, pupd, hpart, hstep]
    rfl
  refine ⟨_, hexec, ?_, fun k hk hrun => ?_⟩
  · rw [pget_haltReqCores, hx, pget_pupd_same, hpart, hstep]
    rfl
  · have hcores (k : Nat) : cget x k = cget v k := by rw [hx, cget, cget, pupd_cores]
    by_cases hkc : k = c
    · have hown' : stopping u c x := by rwa [stopping, sq, hcores]
      obtain ⟨_, hstop⟩ := List.foldlRecOn (motive := stopping u c) ((modelCores u p).filter (fun k : Nat => k != c.val)) _ hown'
        fun t ht k _ => stopping_kept k ht
      exact hkc ▸ hstop (hkc ▸ hrun)
    · obtain ⟨_, hstop⟩ := stopping_haltReqCores (u := u) (s := x) ((modelCores u p).filter (fun k : Nat => k != c.val)) (fun k => by rw [hcores, hkept]) k
        (List.mem_filter.mpr ⟨hk, bne_iff_ne.mpr hkc⟩)
      exact hstop hrun

end Sys2Proof.Machine

open Sys2Proof.Machine

/-- Settles O42: a model loads, launches queue and start, the walk writes segments in turn, and a step retires or ends early. -/
theorem stepsRunAndRetire : Obligations.StepsRunAndRetire := by
  refine ⟨?_, ?_, fun w k s => stepCancel_empties, fun p id rest k s => stepStart_takes,
    fun p d s => stepStart_waits, fun p i e x tab v s u => launchFault_sequence,
    fun p clu stop st a g s hstep hatt hseg hphase => ⟨walkSegmentWrite_waits hstep hatt hseg false,
      fun hturn => ⟨fun v => walkSegmentWrite_writes hstep hatt hseg hphase hturn,
        walkSegmentWrite_fails hstep hatt hseg hphase hturn⟩⟩,
    fun p outs st s hstep hphase hhalted => ⟨stepRetire_retires hstep hphase hhalted, stepRetire_waits hstep hphase hhalted⟩,
    ownerFault_order, fun c w p st s u => tabort_ends, fun p st k s => stepLimitExpiry_limits,
    fun token fault mixed clamp => tokenRec_value mixed clamp, appendFault_none⟩
  · intro w k ents wm imgs s u v x hadm b p halign hidle hhalted hents hentry hwm hweight hheads m
    refine ⟨_, modelLoad_runs hadm halign hidle hhalted hents hentry hwm hweight hheads, rfl, fun himgs => ?_⟩
    subst himgs
    exact loadFinish_empty rfl x
  · intro w k s hadm q
    exact stepLaunch_effect hadm
end

section
/-! Directory edits, COMMIT and the generation switch (O43). -/

namespace Sys2Proof.Machine

/-! ## Edits (R192, R195, R317) -/

/-- What an edit does in a partition whose directory is `d`. -/
def editBody (e : Nat → List Byte → Eng Unit) (k : Pkt) (stuck : Bool) (u : State) : Option DirSt → State
  | none => complete k.id 0x0304 0 0 u
  | some d =>
    if d.queued then complete k.id 0x0304 0 0 u
    else if stuck then complete k.id 0x0503 0 0 (editStuck (hPart k.bytes) u)
    else
      match (e (hPart k.bytes) k.bytes).run u with
      | .error st => complete k.id st 0 0 u
      | .ok (_, v) => complete k.id 0 (buildNum d) 0 (trimSwap (hPart k.bytes) (countEdit (hPart k.bytes) v))

theorem editBody_runs {e : Nat → List Byte → Eng Unit} {k : Pkt} {u : State} {d : DirSt} (hqueued : d.queued = false) :
    editBody e k true u (some d) = complete k.id 0x0503 0 0 (editStuck (hPart k.bytes) u) ∧
    (∀ v, (e (hPart k.bytes) k.bytes).run u = .ok ((), v) →
      editBody e k false u (some d) = complete k.id 0 (buildNum d) 0 (trimSwap (hPart k.bytes) (countEdit (hPart k.bytes) v))) ∧
    (∀ st, (e (hPart k.bytes) k.bytes).run u = .error st → editBody e k false u (some d) = complete k.id st 0 0 u) := by
  have hopen : ¬d.queued = true := by rw [hqueued]; exact Bool.false_ne_true
  refine ⟨(if_neg hopen).trans (if_pos rfl), fun v hv => (if_neg hopen).trans ((if_neg Bool.false_ne_true).trans ?_),
    fun st hst => (if_neg hopen).trans ((if_neg Bool.false_ne_true).trans ?_)⟩
  · rw [hv]
  · rw [hst]

/-- An edit fails, or it completes with the number of the generation it built. -/
theorem edits_of_editCmd {i : Fin 128 → Bool → Instr} {op : Nat} {resv : List Byte → Bool} {e : Nat → List Byte → Eng Unit}
    (hi : ∀ w b s, exec (i w b) s = editCmd w op b resv e s) : edits i op resv e := by
  intro w k s hadm p u
  have hbody (b : Bool) : exec (i w b) s = .next (editBody e k b u (pget s p).dir) := by
    rw [hi, editCmd, runCmd_admitted hadm, ← pget_startPkt k s]
    rfl
  refine ⟨fun hnone b => by rw [hbody, hnone]; rfl, fun d hd => ⟨fun hqueued b => ?_, fun hqueued => ?_⟩⟩
  · rw [hbody, hd]
    exact congrArg Host.Outcome.next (if_pos hqueued)
  · obtain ⟨hstuck, hok, herr⟩ := editBody_runs (e := e) (k := k) (u := u) hqueued
    rw [hbody, hbody, hd]
    exact ⟨congrArg _ hstuck, fun v hv => congrArg _ (hok v hv), fun st hst => congrArg _ (herr st hst)⟩

/-! ## What TRUNCATE, RELEASE and FORK refuse -/

theorem run_bind_ok {α β : Type} {e : Eng α} {f : α → Eng β} {a : α} {s u : State} (h : e.run s = .ok (a, u)) :
    (e >>= f).run s = (f a).run u := by
  rw [StateT.run_bind, h]
  rfl

section
variable {p i : Nat} {b : List Byte} {x : EditCtx} {v : Desc} {s u u' : State} (hctx : (editCtx p).run s = .ok (x, u))
include hctx

theorem truncate_refuses (hseq : (needSeq p x (fld (payAt b 0 8) 19 0)).run u = .ok ((i, v), u')) :
    (v.ctx < fld (payAt b 8 8) 21 0 → (edTruncate p b).run s = .error 0x0107) ∧
    (fld (payAt b 8 8) 21 0 ≤ v.ctx → v.state = 1 ∨ v.state = 2 → (edTruncate p b).run s = .error 0x0304) ∧
    (v.state = 1 ∨ v.state = 2 → (edRelease p b).run s = .error 0x0304) := by
  refine ⟨fun hlong => ?_, fun hshort hstate => ?_, fun hstate => ?_⟩
  · rw [edTruncate, run_bind_ok hctx]
    dsimp only
    rw [run_bind_ok hseq]
    dsimp only
    rw [if_pos hlong]
    rfl
  · rw [edTruncate, run_bind_ok hctx]
    dsimp only
    rw [run_bind_ok hseq]
    dsimp only
    rw [if_neg (by omega), if_pos (by simpa using hstate)]
    rfl
  · rw [edRelease, run_bind_ok hctx]
    dsimp only
    rw [run_bind_ok hseq]
    dsimp only
    rw [if_pos (by simpa using hstate)]
    rfl

theorem fork_refuses (hseq : (needSeq p x (fld (payAt b 0 8) 51 32)).run u = .ok ((i, v), u'))
    (hbad : v.fault ≠ 0 ∨ (3 ≤ v.state ∧ v.state ≤ 5)) : (edFork p b).run s = .error 0x0304 := by
  rw [edFork, run_bind_ok hctx]
  dsimp only
  rw [run_bind_ok hseq]
  dsimp only
  rw [if_pos (by simpa using hbad)]
  rfl

end

/-! ## SETHEAD -/

theorem run_theDir {p : Nat} {d : DirSt} {s : State} (hd : (pget s p).dir = some d) : (theDir p).run s = .ok (d, s) := by
  show StateT.run (match (pget s p).dir with | some d => pure d | none => engFail 0x0304 : Eng DirSt) s = _
  rw [hd]
  rfl

theorem run_updGen {p : Nat} {d : DirSt} {s : State} (f : GenSt → GenSt) (hd : (pget s p).dir = some d) :
    (updGen p f).run s = .ok ((), pupd p (fun q => { q with dir := some (setBuilding d (f (building d))) }) s) := by
  rw [updGen, updDir, run_bind_ok (run_theDir hd)]
  rfl

theorem building_setBuilding (d : DirSt) (g : GenSt) : building (setBuilding d g) = g := by
  unfold setBuilding building
  split
  · rfl
  · rfl

/-- The head layers of a generation with layer-head `lh` changed. -/
def headSet (lh v : Nat) (g : GenSt) : GenSt := { g with heads := stSet (fun _ => 0) g.heads lh v }

theorem sethead_sets {p : Nat} {b : List Byte} {d : DirSt} {s : State} (hd : (pget s p).dir = some d) :
    (d.nlh ≤ fld (payAt b 8 8) 11 0 → (edSethead p b).run s = .error 0x0107) ∧
    (fld (payAt b 8 8) 11 0 < d.nlh → ∃ t e, (edSethead p b).run s = .ok ((), t) ∧ (pget t p).dir = some e ∧
      stGet (fun _ => 0) (building e).heads (fld (payAt b 8 8) 11 0) = fld (payAt b 8 8) 16 12 + 1 ∧
      (∀ h, h ≠ fld (payAt b 8 8) 11 0 →
        stGet (fun _ => 0) (building e).heads h = stGet (fun _ => 0) (building d).heads h) ∧
      { t with parts := s.parts } = s) := by
  refine ⟨fun hbad => ?_, fun hgood => ?_⟩
  · rw [edSethead, run_bind_ok (run_theDir hd)]
    dsimp only
    rw [if_pos hbad]
    rfl
  · obtain ⟨g, hg⟩ : ∃ g, g = headSet (fld (payAt b 8 8) 11 0) (fld (payAt b 8 8) 16 12 + 1) (building d) := ⟨_, rfl⟩
    refine ⟨pupd p (fun q => { q with dir := some (setBuilding d g) }) s, setBuilding d g, ?_, ?_, ?_, fun h hh => ?_, pupd_frame _ _ _⟩
    · rw [edSethead, run_bind_ok (run_theDir hd)]
      dsimp only
      rw [if_neg (by omega), hg]
      exact run_updGen _ hd
    · rw [pget_pupd_same]
    · rw [building_setBuilding, hg, headSet, stGet_stSet_same]
    · rw [building_setBuilding, hg, headSet, stGet_stSet_other _ _ _ hh]

/-! ## COMMIT (R196, R198) -/

theorem commit_waits {w : Fin 128} {k : Pkt} {d : DirSt} {s : State} (hadm : admitted w 0x0308 noResv k s)
    (hd : (pget s (hPart k.bytes)).dir = some d) :
    (d.queued = true → exec (.commit w) s = .next (complete k.id 0x0304 0 0 (startPkt k s))) ∧
    (d.queued = false → ∃ t, exec (.commit w) s = .next t ∧ { t with parts := s.parts } = startPkt k s ∧
      (pget t (hPart k.bytes)).dir = some (if d.pend = true then { d with queued := true, pkt2 := some k.id, auto := false }
        else { d with pend := true, pkt1 := some k.id, auto := false })) := by
  have hparts : (startPkt k s).parts = s.parts := (only_startPkt k s).parts rfl
  have hbody : exec (.commit w) s = .next (if d.queued then complete k.id 0x0304 0 0 (startPkt k s)
      else pupd (hPart k.bytes) (fun q => { q with dir := some (commitGen d (some k.id)) }) (startPkt k s)) := by
    rw [exec, execCommit, runCmd_admitted hadm]
    dsimp only
    rw [pget_startPkt, hd]
  rw [hbody]
  refine ⟨fun hqueued => congrArg Host.Outcome.next (if_pos hqueued), fun hqueued => ⟨_,
    congrArg Host.Outcome.next (if_neg (by rw [hqueued]; exact Bool.false_ne_true)), ?_, ?_⟩⟩
  · rw [← hparts]
    exact pupd_frame _ _ _
  · rw [pget_pupd_same]
    rfl

/-! ## SEQ_QUERY -/

theorem seqQuery_answers {w : Fin 128} {k : Pkt} {s u : State} (hadm : admitted w 0x030B (edResv 0xFFFFF 0) k s) :
    (∀ i v, (curDesc (hPart k.bytes) (fld (payAt k.bytes 0 8) 19 0)).run (startPkt k s) = .ok (some (i, v), u) →
      exec (.seqQuery w) s =
        .next (complete k.id 0 (v.state + v.prio * 2 ^ 4 + v.fault * 2 ^ 8 + v.ctx * 2 ^ 32) 0 u)) ∧
    ((curDesc (hPart k.bytes) (fld (payAt k.bytes 0 8) 19 0)).run (startPkt k s) = .ok (none, u) →
      exec (.seqQuery w) s = .next (complete k.id 0x0304 0 0 u)) := by
  rw [exec, execSeqQuery, runCmd_admitted hadm]
  refine ⟨fun i v h => ?_, fun h => ?_⟩
  · rw [h]
  · rw [h]

/-! ## The switch (R196 to R199) -/

/-- What a switch reads of a partition: its directory and its launches. -/
def switchPart (q : PartSt) : Option DirSt × List Nat × List Nat × List Nat := (q.dir, q.launches, q.held, q.held2)

theorem marks_refError {u s : State} (h : Marks switchPart u s) (p k page : Nat) (l : NatSet) :
    Marks switchPart u (refError p k page { s with noReuse := l }) :=
  marks_only h (only_refError (φ := F.logs ||| F.noReuse) rfl
    (only_with (φ := F.logs ||| F.noReuse) (a := F.noReuse) rfl rfl (Only.refl _ _)) _ _ _) rfl

theorem marks_queueZero {u s : State} (h : Marks switchPart u s) (k col frame : Nat) (pair : Bool) :
    Marks switchPart u (queueZero k col frame pair s) := marks_of_parts h rfl

theorem marks_applyDrop {u s : State} (h : Marks switchPart u s) (p : Nat) (d : DirSt) (x : Drop) :
    Marks switchPart u (applyDrop p d x s) := by
  have hadd (off v old : Nat) (s t : State) (hrun : (dAdd x.clu off v).run s = .ok (old, t)) (h : Marks switchPart u s) :
      Marks switchPart u t :=
    marks_only h (only_dAdd (φ := F.srams) rfl _ _ _ s old t (Only.refl _ _) hrun) rfl
  unfold applyDrop
  split
  · dsimp only
    split
    · exact h
    · next old s' hrun =>
      have h' := hadd _ _ _ _ _ hrun h
      split
      · exact h'
      · refine marks_ite (marks_refError ?_ _ _ _ _) (marks_ite (marks_queueZero h' _ _ _ _) h')
        split
        · next hrun' => exact hadd _ _ _ _ _ hrun' h'
        · exact h'
  · exact marks_only h (only_freeT2 (φ := F.pools) rfl (Only.refl _ _) _ _ _) rfl
  · have hfree : Marks switchPart u (pupd p (fun q => { q with glz :=
        { q.glz with used := q.glz.used.filter (fun i => !(hostSlots x.page x.pair).contains i) } }) s) := marks_pupd (fun _ => rfl) h
    unfold freeHost
    split
    · exact hfree
    · exact marks_only hfree (only_glzCount (φ := F.regs) rfl (Only.refl _ _) _ _ _) rfl
  · exact h

theorem engMarks_dRd {α : Type} {π : PartSt → α} (k off n : Nat) : EngMarks π (dRd k off n) :=
  engMarks_of_only (φ := F.srams) (fun _ => only_dRd (φ := F.srams) rfl _ _ _) rfl

/-- A partition after the switch to generation `gen`. -/
def switched (gen : Nat) (q : PartSt) : PartSt :=
  { q with
    dir := (q.dir).map (nextDir gen (!(q.launches ++ q.held).isEmpty))
    launches := q.launches ++ q.held
    held := q.held2
    held2 := [] }

theorem switchPart_switched (gen : Nat) {q r : PartSt} (h : switchPart q = switchPart r) :
    switchPart (switched gen q) = switchPart (switched gen r) := by
  obtain ⟨hdir, hlaunches, hheld, hheld2⟩ := (by simpa only [switchPart, Prod.mk.injEq] using h :
    q.dir = r.dir ∧ q.launches = r.launches ∧ q.held = r.held ∧ q.held2 = r.held2)
  simp only [switchPart, switched, hdir, hlaunches, hheld, hheld2]

theorem switchGen_part {p : Nat} {d : DirSt} {s : State} (hd : (pget s p).dir = some d) :
    switchPart (pget (switchGen p s) p) = switchPart (switched ((d.gen + 1) % 2 ^ 32) (pget s p)) := by
  have hdone (id gen : Nat) (v : State) : Marks switchPart v (complete id 0 gen 0 v) := marks_complete (marks_refl v) _ _ _ _
  unfold switchGen
  split
  · next hnone => exact absurd (hd.symm.trans hnone) (by simp)
  next e he =>
  obtain rfl : d = e := Option.some.inj (hd.symm.trans he)
  extract_lets par s1 s2 s3 s4 s5 gen s6 s7
  have hwrite (k off n v : Nat) : EngMarks switchPart (dWr k off n v) := engMarks_dWr _ _ _ _
  have h1 : Marks switchPart s s1 := marks_engRun (engMarks_each (fun _ => hwrite _ _ _ _) _) (marks_refl s)
  have h2 : Marks switchPart s s2 := marks_engRun (engMarks_each (fun _ =>
    engMarks_of_only (φ := F.srams) (fun _ => only_bmPut (φ := F.srams) rfl _ _ _ _) rfl) _) h1
  have h3 : Marks switchPart s s3 := marks_foldl (fun _ _ h => marks_applyDrop h _ _ _) h2
  have h4 : Marks switchPart s s4 := marks_engRun (engMarks_each (fun _ => engMarks_each (fun _ =>
    engMarks_bind (engMarks_dRd _ _ _) fun _ => hwrite _ _ _ _) _) _) h3
  have h5 : Marks switchPart s s5 := marks_engRun (engMarks_each (fun _ => hwrite _ _ _ _) _) h4
  have h6 : switchPart (pget s6 p) = switchPart (switched gen (pget s p)) := by
    rw [← switchPart_switched gen (h5 p)]
    exact congrArg switchPart (pget_pupd_same _ _ _)
  have h7 : Marks switchPart s6 s7 := marks_kvAll (marks_refl _) _ _ _
  split
  · exact (hdone _ _ s7 p).trans ((h7 p).trans h6)
  · exact (h7 p).trans h6

theorem switchDue_iff {p : Nat} {d : DirSt} {s : State} (hd : (pget s p).dir = some d) : switchDue s p = true ↔
    d.pend = true ∧ (pget s p).step = none ∧ ¬(d.first = true ∧ (pget s p).launches ≠ [] ∧ mayStart s p = true) := by
  rw [switchDue, hd]
  cases hlaunches : (pget s p).launches with
  | nil => simp
  | cons a l =>
    dsimp only
    cases d.first with
    | false => simp
    | true => simp [and_assoc]

theorem nextDir_queued {d : DirSt} (gen : Nat) (b : Bool) (h : d.auto = false ∨ d.queued = true) : nextDir gen b d =
    { d with gen := gen, g1 := d.g2, g2 := GenSt.empty, pend := d.queued, queued := false, pkt1 := d.pkt2, pkt2 := none
             first := d.queued && b } := by
  refine if_neg ?_
  rcases h with h | h
  · simp [h]
  · simp [h]

theorem nextDir_auto {d : DirSt} (gen : Nat) (b : Bool) (hauto : d.auto = true) (hqueued : d.queued = false) : nextDir gen b d =
    { d with gen := gen, g1 := d.g2, g2 := GenSt.empty, pend := true, queued := false, pkt1 := none, pkt2 := none
             first := false, auto := false } := by
  unfold nextDir
  rw [hauto, hqueued]
  rfl

theorem generationSwitch_switches (p : Fin 64) (d : DirSt) (s : State) (hd : (pget s p).dir = some d) :
    let u := retireMigrated p (swapFinish p (switchGen p s))
    (switchDue s p = true ↔ d.pend = true ∧ (pget s p).step = none ∧
      ¬(d.first = true ∧ (pget s p).launches ≠ [] ∧ mayStart s p = true)) ∧
    (switchDue s p = true → refErrs u p ≤ refErrs s p → exec (.generationSwitch p) s = .next u) ∧
    (switchDue s p = true → refErrs s p < refErrs u p → exec (.generationSwitch p) s = .next (faultPart p (tdiError p u))) ∧
    (switchDue s p = false → exec (.generationSwitch p) s = .next s) ∧
    (d.auto = false ∨ d.queued = true → (pget (switchGen p s) p).dir.map (fun e => (e.gen, e.g1, e.pend, e.queued, e.pkt1)) =
      some ((d.gen + 1) % 2 ^ 32, d.g2, d.queued, false, d.pkt2)) ∧
    (d.auto = true → d.queued = false → (pget (switchGen p s) p).dir.map (fun e => (e.gen, e.g1, e.pend, e.queued, e.pkt1)) =
      some ((d.gen + 1) % 2 ^ 32, d.g2, true, false, none)) ∧
    (pget (switchGen p s) p).dir.map (fun e => e.first) =
      some (d.queued && !((pget s p).launches ++ (pget s p).held).isEmpty) ∧
    (pget (switchGen p s) p).launches = (pget s p).launches ++ (pget s p).held ∧
    (pget (switchGen p s) p).held = (pget s p).held2 := by
  intro u
  have hpart := switchGen_part hd
  simp only [switchPart, Prod.mk.injEq] at hpart
  obtain ⟨hdir, hlaunches, hheld, _⟩ := hpart
  have hdir' : (pget (switchGen p s) p).dir =
      some (nextDir ((d.gen + 1) % 2 ^ 32) (!((pget s p).launches ++ (pget s p).held).isEmpty) d) := by
    rw [hdir, switched, hd]
    rfl
  have hexec (h : switchDue s p = true) : exec (.generationSwitch p) s =
      .next (if refErrs s p < refErrs u p then faultPart p (tdiError p u) else u) := by
    rw [exec, execGenerationSwitch, generationSwitch]
    exact congrArg Host.Outcome.next (if_neg (by rw [h]; exact Bool.false_ne_true))
  refine ⟨switchDue_iff hd, fun hdue hsame => ?_, fun hdue hnew => ?_, fun hdue => ?_, fun hauto => ?_, fun hauto hqueued => ?_,
    ?_, hlaunches, hheld⟩
  · rw [hexec hdue, if_neg (by omega)]
  · rw [hexec hdue, if_pos hnew]
  · rw [exec, execGenerationSwitch, generationSwitch]
    exact congrArg Host.Outcome.next (if_pos (by rw [hdue]; rfl))
  · rw [hdir', nextDir_queued _ _ hauto]
    rfl
  · rw [hdir', nextDir_auto _ _ hauto hqueued]
    rfl
  · rw [hdir', Option.map_some]
    by_cases h : d.auto = false ∨ d.queued = true
    · rw [nextDir_queued _ _ h]
    · obtain ⟨hauto, hqueued⟩ := not_or.mp h
      have hqueued := Bool.eq_false_iff.mpr hqueued
      rw [nextDir_auto _ _ ((Bool.not_eq_false _).mp hauto) hqueued, hqueued, Bool.false_and]

end Sys2Proof.Machine

open Sys2Proof.Machine

/-- Settles O43: an edit completes with the generation it built or changes nothing; a COMMIT waits for the switch, after which the
next generation is under construction and the held launches are queued. -/
theorem directoryEdits : Obligations.DirectoryEdits :=
  ⟨edits_of_editCmd fun _ _ _ => rfl, edits_of_editCmd fun _ _ _ => rfl, edits_of_editCmd fun _ _ _ => rfl,
    edits_of_editCmd fun _ _ _ => rfl, edits_of_editCmd fun _ _ _ => rfl, edits_of_editCmd fun _ _ _ => rfl,
    edits_of_editCmd fun _ _ _ => rfl, fun _ _ _ _ _ _ _ _ => truncate_refuses, fun _ _ _ _ _ _ _ _ => fork_refuses,
    fun _ _ _ _ => sethead_sets, fun _ _ _ _ => commit_waits, generationSwitch_switches, fun _ _ _ _ => seqQuery_answers⟩
end

section
/-! Preemption, swap-in, slots and re-keying (O44). -/

namespace Sys2Proof.Machine

/-! ## SWAP_IN (R250) -/

/-- A sequence whose page is under re-key. -/
theorem any_rekey_eq_false {r : Option RekeySt} {q : Nat} (h : ∀ v, r = some v → v.seq ≠ q) : r.any (fun v => v.seq == q) = false := by
  cases r with
  | none => rfl
  | some v => exact beq_false_of_ne (h v rfl)

section
variable {w : Fin 128} {k : Pkt} {s u : State}

/-- A swap-in is admitted and its jobs start, or it is refused. -/
def swapInBody (k : Pkt) (s : State) : State :=
  match (swapAdmit (hPart k.bytes) k.id (fld (payAt k.bytes 0 8) 19 0)).run s with
  | .error st => complete k.id st 0 0 s
  | .ok (_, s) =>
    match (pget s (hPart k.bytes)).swap with
    | some v => swapFinish (hPart k.bytes) (jobsStart (hPart k.bytes) v.jobs (dropReads (fun u => match u with
      | .swapImg i _ _ => i == hPart k.bytes
      | .swapRec i _ => i == hPart k.bytes
      | _ => false) s))
    | none => s

theorem swapIn_admits (hadm : admitted w 0x030A (edResv 0xFFFFF 0) k s) (hswap : (pget s (hPart k.bytes)).swap = none)
    (hrekey : ∀ r, (pget s (hPart k.bytes)).rekey = some r → r.seq ≠ fld (payAt k.bytes 0 8) 19 0) :
    exec (.swapIn w) s = .next (swapInBody k (startPkt k s)) := by
  rw [exec, execSwapIn, hadm.1]
  refine (if_neg ?_).trans (runCmd_admitted hadm _)
  rw [hswap, any_rekey_eq_false hrekey]
  decide

theorem swapIn_waits (hstart : startable s w 0x030A = some k) (hbusy : (pget s (hPart k.bytes)).swap.isSome = true ∨
    (∃ r, (pget s (hPart k.bytes)).rekey = some r ∧ r.seq = fld (payAt k.bytes 0 8) 19 0)) : exec (.swapIn w) s = .next s := by
  rw [exec, execSwapIn, hstart]
  refine if_pos ?_
  rcases hbusy with h | ⟨r, hr, hseq⟩
  · rw [h, Bool.true_or]
  · rw [hr, Option.any_some, hseq, beq_self_eq_true, Bool.or_true]

end

theorem copyEntry_stuck {p : Nat} (k e tokens : Nat) {s : State} (hstuck : (pget s p).stuck = true) :
    (copyEntry p k e tokens).run s = .error 0x0204 := by
  have hneed : (needFrames p).run s = .error 0x0204 := by
    show StateT.run (if (pget s p).stuck = true then engFail 0x0204 else pure () : Eng Unit) s = _
    rw [if_pos hstuck]
    rfl
  rw [copyEntry, StateT.run_bind, hneed]
  rfl

theorem swapAdmit_refuses {p pkt q i : Nat} {x : EditCtx} {v : Desc} {s u u' : State} (hctx : (editCtx p).run s = .ok (x, u))
    (hseq : (needSeq p x q).run u = .ok ((i, v), u')) (hstate : v.state ≠ 4) : (swapAdmit p pkt q).run s = .error 0x0304 := by
  rw [swapAdmit, run_bind_ok hctx]
  dsimp only
  rw [run_bind_ok hseq]
  dsimp only
  rw [if_pos hstate]
  rfl

/-! ## The victim of preemption (R205, R206) -/

/-- Sequence `a` is preempted before `b`, or they rank alike: the lower priority first, then the older last step, then the larger
number. -/
def victimLe (a b : Desc) : Prop := b.prio ≤ a.prio → b.prio = a.prio ∧ (b.last ≤ a.last → b.last = a.last ∧ b.seq ≤ a.seq)

theorem victimLe_refl (a : Desc) : victimLe a a := fun _ => ⟨rfl, fun _ => ⟨rfl, le_rfl⟩⟩

theorem victimLe_trans {a b c : Desc} (h : victimLe a b) (k : victimLe b c) : victimLe a c := by
  unfold victimLe at *
  omega

theorem victimLt_iff (a b : Desc) : victimLt a b = true ↔ ¬victimLe b a := by
  unfold victimLt victimLe
  split
  · rw [decide_eq_true_eq]
    omega
  · split
    · rw [decide_eq_true_eq]
      omega
    · rw [decide_eq_true_eq]
      omega

theorem victimLe_of_not {a b : Desc} (h : ¬victimLe a b) : victimLe b a := by
  unfold victimLe at *
  omega

/-- The choice so far between `acc` and `v`. -/
def victimOf (acc : Option (Nat × Desc)) (v : Nat × Desc) : Option (Nat × Desc) :=
  match acc with
  | none => some v
  | some u => if victimLt v.2 u.2 then some v else some u

theorem victimOf_first (l : List (Nat × Desc)) : ∀ (e r : Nat × Desc), l.foldl victimOf (some r) = some e →
    (e = r ∨ e ∈ l) ∧ victimLe e.2 r.2 ∧ ∀ f ∈ l, victimLe e.2 f.2 := by
  induction l with
  | nil =>
    intro e r h
    obtain rfl : r = e := Option.some.inj h
    exact ⟨.inl rfl, victimLe_refl _, fun f hf => absurd hf List.not_mem_nil⟩
  | cons a l ih =>
    intro e r h
    rw [List.foldl_cons, victimOf] at h
    by_cases hlt : victimLt a.2 r.2 = true
    · rw [if_pos hlt] at h
      obtain ⟨hmem, hle, hall⟩ := ih e a h
      refine ⟨.inr (List.mem_cons.mpr hmem), victimLe_trans hle (victimLe_of_not ((victimLt_iff _ _).mp hlt)), fun f hf => ?_⟩
      rcases List.mem_cons.mp hf with rfl | hf
      · exact hle
      · exact hall f hf
    · rw [if_neg hlt] at h
      obtain ⟨hmem, hle, hall⟩ := ih e r h
      have hra : victimLe r.2 a.2 := not_not.mp fun hnot => hlt ((victimLt_iff _ _).mpr hnot)
      refine ⟨hmem.imp_right (List.mem_cons_of_mem a), hle, fun f hf => ?_⟩
      rcases List.mem_cons.mp hf with rfl | hf
      · exact victimLe_trans hle hra
      · exact hall f hf

theorem firstVictim_first {l : List (Nat × Desc)} {e : Nat × Desc} (h : firstVictim l = some e) :
    e ∈ l ∧ ∀ f ∈ l, victimLe e.2 f.2 := by
  cases l with
  | nil => cases h
  | cons a l =>
    obtain ⟨hmem, hle, hall⟩ := victimOf_first l e a h
    refine ⟨List.mem_cons.mpr hmem, fun f hf => ?_⟩
    rcases List.mem_cons.mp hf with rfl | hf
    · exact hle
    · exact hall f hf

/-- A directory engine leaves what a partition holds beside its directory. -/
theorem marks_of_moves {α : Type} {π : PartSt → α} (hπ : NoDir π) {s t : State} (h : Moves s t) : Marks π s t := by
  induction h with
  | start => exact marks_refl s
  | read k b _ ih => exact marks_only ih (only_csRead (φ := F.srams) rfl (only_csCount (φ := F.srams) rfl (Only.refl _ _) _ _ _) _ _) rfl
  | write k b off v _ ih =>
    exact marks_only ih (only_csWriteIn (φ := F.srams) rfl (only_csCount (φ := F.srams) rfl (Only.refl _ _) _ _ _) _ _ _ _) rfl
  | block k b v _ ih => exact marks_only ih (only_csWrite (φ := F.srams) rfl (only_csCount (φ := F.srams) rfl (Only.refl _ _) _ _ _) _ _ _) rfl
  | draw _ ih => exact marks_only ih (only_takeFree (φ := F.fresh) rfl (Only.refl _ _)) rfl
  | dir p d _ ih => exact marks_pupd (fun q => hπ q _) ih

theorem engMoves_writeDesc (k b : Nat) (f : Desc → Desc) : EngMoves (writeDesc k b f) :=
  engMoves_bind (engMoves_dRdBlk _ _) fun _ => engMoves_dWrBlk _ _ _

theorem engMoves_descAll (p i : Nat) (f : Desc → Desc) : EngMoves (descAll p i f) :=
  engMoves_get fun _ => engMoves_each (fun _ => engMoves_bind (engMoves_allDescs _ _ _) fun _ =>
    engMoves_each (fun _ => engMoves_writeDesc _ _ _) _) _

theorem engMoves_endVictim (p i : Nat) (x : EditCtx) : EngMoves (endVictim p i x) :=
  engMoves_bind (engMoves_entriesWith _ _ _ _) fun _ => engMoves_ite
    (engMoves_bind (engMoves_each (fun _ => engMoves_bind (engMoves_ownDesc _ _ _) fun _ => engMoves_writeDesc _ _ _) _)
      fun _ => engMoves_updDir _ _) (engMoves_pure _)

/-- The engine that ends a victim with no private page left. -/
def victimEnds (p i : Nat) : Eng Unit := do
  let x ← editCtx p
  if x.d.queued then pure () else endVictim p i x

theorem engMoves_victimEnds (p i : Nat) : EngMoves (victimEnds p i) :=
  engMoves_bind (engMoves_editCtx p) fun _ => engMoves_ite (engMoves_pure _) (engMoves_endVictim _ _ _)

theorem wins_of_moves {s t : State} (h : Moves s t) : t.wins = s.wins := by
  have honly : Only (F.srams ||| F.parts ||| F.fresh) s t := by
    induction h with
    | start => exact Only.refl _ s
    | read k b _ ih =>
      exact only_csRead (φ := F.srams ||| F.parts ||| F.fresh) rfl (only_csCount (φ := F.srams ||| F.parts ||| F.fresh) rfl ih _ _ _) _ _
    | write k b off v _ ih =>
      exact only_csWriteIn (φ := F.srams ||| F.parts ||| F.fresh) rfl
        (only_csCount (φ := F.srams ||| F.parts ||| F.fresh) rfl ih _ _ _) _ _ _ _
    | block k b v _ ih =>
      exact only_csWrite (φ := F.srams ||| F.parts ||| F.fresh) rfl
        (only_csCount (φ := F.srams ||| F.parts ||| F.fresh) rfl ih _ _ _) _ _ _
    | draw _ ih => exact only_takeFree (φ := F.srams ||| F.parts ||| F.fresh) rfl ih
    | dir p d _ ih => exact only_pupd (φ := F.srams ||| F.parts ||| F.fresh) rfl ih _ _
  exact honly.wins rfl

/-- What preemption notes in a partition. -/
def preemptPart (q : PartSt) : Bool × Bool := (q.preempt, q.stuck)

section
variable {p : Fin 64} {held : List (Fin 1048576)} {s : State} (hmode : kvMode s p ≠ 0) (hdir : (pget s p).dir.isSome = true)
include hmode hdir

theorem preemptVictim_takes {l : List (Nat × Desc)} {i : Nat} {v : Desc} {u : State}
    (hgo : (pget s p).preempt = true ∨ freeAll s p (kvLow s p) = false) (hfull : freeAll s p (kvHigh s p) = false)
    (hlive : (liveSeqs p).run s = .ok (l, u)) (hnone : ∀ e ∈ l, e.2.state ≠ 3)
    (hfirst : firstVictim (l.filter (fun e => e.2.state == 0 && decide (e.2.prio < 3) && !(held.map Fin.val).contains e.2.seq)) =
      some (i, v)) :
    ∃ t, exec (.preemptVictim p held) s = .next t ∧ (pget t p).preempt = true ∧ (pget t p).stuck = false ∧ t.wins = s.wins := by
  obtain ⟨a, ha⟩ : ∃ a, a = kvAll p 0x11C (fun w => wSatAdd w 19 0 1) (pupd p (fun q => { q with preempt := true, stuck := false }) u) :=
    ⟨_, rfl⟩
  have hmoves := moves_engRun (engMoves_descAll p i (fun v => { v with state := 3 })) a
  have hmoves' := moves_engRun (engMoves_victimEnds p i) (engRun (descAll p i (fun v => { v with state := 3 })) a)
  have hpart : preemptPart (pget a p) = (true, false) := by
    rw [ha, pget_kvAll, pget_pupd_same]
    rfl
  have hwins : a.wins = s.wins := by
    rw [ha, (only_kvAll_regs _ _ _ _).wins rfl, pupd_wins, (only_liveSeqs (φ := F.logs) rfl p s l u (Only.refl _ _) hlive).wins rfl]
  have hend : preemptPart (pget (engRun (victimEnds p i) (engRun (descAll p i (fun v => { v with state := 3 })) a)) p) = (true, false) :=
    (marks_of_moves (fun _ _ => rfl) hmoves' p).trans ((marks_of_moves (fun _ _ => rfl) hmoves p).trans hpart)
  obtain ⟨hpreempt, hstuck⟩ := Prod.mk.inj hend
  refine ⟨_, (?_ : _ = Host.Outcome.next (engRun (victimEnds p i) (engRun (descAll p i (fun v => { v with state := 3 })) a))), hpreempt,
    hstuck, (wins_of_moves hmoves').trans ((wins_of_moves hmoves).trans hwins)⟩
  rw [exec, execPreemptVictim, preemptVictim]
  refine congrArg Host.Outcome.next ((if_neg ?_).trans ((if_neg (by rw [hfull]; exact Bool.false_ne_true)).trans ?_))
  · rcases hgo with h | h
    · simp [hmode, hdir, h]
    · simp [hmode, hdir, h]
  · rw [hlive]
    dsimp only
    refine (if_neg ?_).trans ?_
    · rw [Bool.not_eq_true, List.any_eq_false]
      intro e he
      simpa using hnone e he
    · rw [hfirst, ha]
      rfl

theorem preemptVictim_ends (hfree : freeAll s p (kvHigh s p) = true) (hpreempt : (pget s p).preempt = true) :
    ∃ t, exec (.preemptVictim p held) s = .next t ∧ (pget t p).preempt = false ∧ { t with parts := s.parts } = s := by
  refine ⟨pupd p (fun q => { q with preempt := false, stuck := false }) s, ?_, by rw [pget_pupd_same], pupd_frame _ _ _⟩
  rw [exec, execPreemptVictim, preemptVictim]
  exact congrArg Host.Outcome.next ((if_neg (by simp [hmode, hdir, hpreempt])).trans (if_pos hfree))

end

/-! ## Pages moved out (R248, R249) -/

theorem pageMoveOut_moves {p : Fin 64} {q : Fin 1048576} {lh : Fin 4096} {blk : Fin 65536} {s v : State}
    (hrun : (movePage p q lh blk).run s = .ok ((), v)) : exec (.pageMoveOut p q lh blk) s = .next v := by
  rw [exec, execPageMoveOut, engRun, hrun]

theorem movePage_waits {p q lh blk : Nat} {x : EditCtx} {s u : State} (hctx : (editCtx p).run s = .ok (x, u))
    (hqueued : x.d.queued = true) : (movePage p q lh blk).run s = .error 0 := by
  rw [movePage, run_bind_ok hctx]
  dsimp only
  rw [if_pos hqueued]
  rfl

/-! ## Slots (R246, R252) -/

theorem hostSlot_lowest {g : GlzSt} {pair : Bool} {i : Nat} (h : hostSlot g pair = some i) :
    i < g.nhs ∧ nsHas g.used i = false ∧ (pair = true → i % 2 = 0 ∧ i + 1 < g.nhs ∧ nsHas g.used (i + 1) = false) ∧
    ∀ j, j < i → nsHas g.used j = true ∨ (pair = true ∧ (j % 2 = 1 ∨ g.nhs ≤ j + 1 ∨ nsHas g.used (j + 1) = true)) := by
  obtain ⟨hfree, hmem, hbefore⟩ := List.find?_range_eq_some.mp h
  have hlt := List.mem_range.mp hmem
  simp only [Bool.and_eq_true, decide_eq_true_eq, Bool.not_eq_true', Bool.or_eq_true, beq_iff_eq] at hfree
  obtain ⟨⟨_, hunused⟩, hpair⟩ := hfree
  refine ⟨hlt, hunused, fun hp => ?_, fun j hj => ?_⟩
  · obtain ⟨heven, hin, hnext⟩ := hpair.resolve_left (by rw [hp]; decide)
    exact ⟨heven, hin, hnext⟩
  · have hbad := hbefore j hj
    have hin : j < g.nhs := by omega
    by_cases hused : nsHas g.used j = true
    · exact .inl hused
    · simp only [hin, hused, decide_true, Bool.true_and, Bool.not_false, Bool.not_eq_true', Bool.or_eq_false_iff,
        Bool.and_eq_false_iff, beq_eq_false_iff_ne, decide_eq_false_iff_not, Bool.not_eq_false'] at hbad
      obtain ⟨hp, hbad⟩ := hbad
      refine .inr ⟨by simpa using hp, ?_⟩
      rcases hbad with hodd | hend | hnext
      · exact .inl (by omega)
      · exact .inr (.inl (by omega))
      · exact .inr (.inr hnext)

theorem lowSlot_some {ok : Nat → Bool} {stop : Nat} (n : Nat) : ∀ {i j : Nat}, lowSlot ok stop n i = some j →
    ok j = true ∧ j % 4 = i % 4 := by
  induction n with
  | zero => intro i j h; cases h
  | succ n ih =>
    intro i j h
    rw [lowSlot] at h
    split at h
    · cases h
    · split at h
      · next hok =>
        obtain rfl : i = j := Option.some.inj h
        exact ⟨hok, rfl⟩
      · obtain ⟨hok, hmod⟩ := ih h
        exact ⟨hok, by omega⟩

theorem hubSlot_free {q : Pool} {h i : Nat} {pair : Bool} (hh : h < 4) (halign : q.slot0 % 4 = 0) (hslot : hubSlot q h pair = some i) :
    i % 4 = h ∧ q.slot0 ≤ i ∧ i < q.slot0 + q.nslot ∧ nsHas q.used i = false ∧
    (pair = true → i / 4 % 2 = 0 ∧ i + 4 < q.slot0 + q.nslot ∧ nsHas q.used (i + 4) = false) := by
  obtain ⟨hok, hmod⟩ := lowSlot_some _ hslot
  simp only [Bool.and_eq_true, decide_eq_true_eq, Bool.not_eq_true', Bool.or_eq_true, beq_iff_eq] at hok
  obtain ⟨⟨⟨hlo, hhi⟩, hunused⟩, hpair⟩ := hok
  refine ⟨by omega, hlo, hhi, hunused, fun hp => ?_⟩
  obtain ⟨heven, ⟨_, hin⟩, hnext⟩ := hpair.resolve_left (by rw [hp]; decide)
  exact ⟨heven, hin, hnext⟩

theorem freeT2_pool (p page : Nat) (pair : Bool) (s : State) :
    poolGet (freeT2 p page pair s) p =
      poolMark { poolGet s p with used := (poolGet s p).used.filter (fun i => !(pageSlots page pair).contains i) } ∧
    ∀ j, j ≠ p → poolGet (freeT2 p page pair s) j = poolGet s j :=
  ⟨stGet_stSet_same _ _ _ _, fun _ hj => stGet_stSet_other _ _ _ hj⟩

theorem poolMark_spill (q : Pool) :
    (q.nslot - q.used.length < q.low * 1024 → (poolMark q).spill = true) ∧
    (q.low ≤ q.high → q.high * 1024 ≤ q.nslot - q.used.length → (poolMark q).spill = false) ∧
    (q.low * 1024 ≤ q.nslot - q.used.length → q.nslot - q.used.length < q.high * 1024 → (poolMark q).spill = q.spill) := by
  refine ⟨fun hlow => ?_, fun hle hhigh => ?_, fun hlow hhigh => ?_⟩
  · simp [poolMark, hlow]
  · simp [poolMark]
    omega
  · simp [poolMark, hhigh]
    omega

/-! ## The re-key sweep (R256) -/

/-- The engine that looks up a page for the sweep. -/
def rekeyEntry (p q lh blk : Nat) : Eng (Desc × Nat) := do
  let x ← editCtx p
  let (i, v) ← needSeq p x q
  let e ← getBld p i x lh blk
  pure (v, e)

/-- A page under re-key of which nothing is read yet. -/
def rekeyTaken (q lh blk e : Nat) : RekeySt := { seq := q, lh := lh, blk := blk, half := 0, entry := e, record := [], image := [] }

section
variable {p : Fin 64} {q : Fin 1048576} {lh : Fin 4096} {blk : Fin 65536} {s : State} (hsweep : (pget s p).glz.sweep = true)
  (hidle : (pget s p).rekey = none)
include hsweep hidle

theorem rekeySweep_ends (hleft : wFld (rget s (glzKey p 8)) 29 0 = 0) : ∃ t, exec (.rekeySweep p q lh blk) s = .next t ∧
    (pget t p).glz = { (pget s p).glz with sweep := false } ∧ wBit (rget t (glzKey p 0)) 30 = false ∧
    (∀ o, o ≠ glzKey p 0 → rget t o = rget s o) ∧ t.reads = s.reads := by
  refine ⟨rupd (glzKey p 0) (fun v => wPut v 30 30 0) (pupd p (fun u => { u with glz := { u.glz with sweep := false } }) s), ?_, ?_, ?_,
    fun o ho => ?_, ?_⟩
  · rw [exec, execRekeySweep, rekeyStart]
    exact congrArg Host.Outcome.next ((if_neg (by simp [hsweep, hidle])).trans (if_pos hleft))
  · rw [pget_rupd, pget_pupd_same]
  · rw [rget_rupd_same, wBit_wPut _ _ _ (by decide) le_rfl, if_pos ⟨le_rfl, le_rfl⟩]
    rfl
  · rw [rupd, rget_rset_other _ _ ho, rget_pupd]
  · rw [rupd_reads, pupd_reads]

theorem rekeySweep_takes {x : EditCtx} {i e : Nat} {v : Desc} {u u' u'' : State} (hleft : wFld (rget s (glzKey p 8)) 29 0 ≠ 0)
    (hctx : (editCtx p).run s = .ok (x, u)) (hseq : (needSeq p x q).run u = .ok ((i, v), u'))
    (hentry : (getBld p i x lh blk).run u' = .ok (e, u'')) (hvalid : pteValid e = true) (htier : pteTier e = 2)
    (hepoch : pteEpoch e = (glzEpoch u'' p + 3) % 4) (hstate : v.state ≠ 5) :
    ∃ t, exec (.rekeySweep p q lh blk) s = .next t ∧ (pget t p).rekey = some
      { seq := q, lh := lh, blk := blk, half := 0, entry := e, record := [], image := [] } ∧
      t.wins = u''.wins ∧ t.regs = u''.regs := by
  obtain ⟨a, ha⟩ : ∃ a, a = pupd p (fun u => { u with rekey := some (rekeyTaken q lh blk e) }) u'' := ⟨_, rfl⟩
  have honly := only_rekeyReads (φ := F.reads ||| F.nextTag ||| F.hostOut) rfl (Only.refl _ a) p (fld (ptePage e) 29 0)
  refine ⟨rekeyReads p (fld (ptePage e) 29 0) a, ?_, ?_, ?_, ?_⟩
  · have hrun : (rekeyEntry p q lh blk).run s = .ok ((v, e), u'') := by
      rw [rekeyEntry, run_bind_ok hctx]
      dsimp only
      rw [run_bind_ok hseq]
      dsimp only
      rw [run_bind_ok hentry]
      rfl
    rw [rekeyEntry] at hrun
    rw [exec, execRekeySweep, rekeyStart]
    refine congrArg Host.Outcome.next ((if_neg (by simp [hsweep, hidle])).trans ((if_neg hleft).trans ?_))
    rw [hrun, ha]
    exact if_pos (by simp [hvalid, htier, hepoch, hstate])
  · rw [pget, honly.parts rfl, ha]
    exact congrArg PartSt.rekey (pget_pupd_same _ _ _)
  · rw [honly.wins rfl, ha, pupd_wins]
  · rw [honly.regs rfl, ha, pupd_regs]

end

end Sys2Proof.Machine

open Sys2Proof.Machine

/-- Settles O44: a swap-in waits, is refused or starts; the victim is the first in order; slots come from the free ones, the lowest
first; a sweep takes a page of the previous epoch or ends. -/
theorem swapMoves : Obligations.SwapMoves := by
  refine ⟨?_, fun w k s => swapIn_waits,
    fun p k e tokens s => copyEntry_stuck k e tokens, fun p pkt q i x v s u u' => swapAdmit_refuses,
    fun p held l i v s u hmode hdir => preemptVictim_takes hmode hdir, fun p held s hfree hmode hdir => preemptVictim_ends hmode hdir hfree,
    fun l e => firstVictim_first, fun p q lh blk s v => pageMoveOut_moves, fun p q lh blk x s u => movePage_waits,
    fun g pair i => hostSlot_lowest, fun q h i pair => hubSlot_free, fun p page pair s => ?_,
    fun p q lh blk s => rekeySweep_ends, fun p q lh blk x i e v s u u' u'' => fun hsweep hidle hleft => rekeySweep_takes hsweep hidle hleft⟩
  · intro w k s u hadm p hswap hrekey
    rw [swapIn_admits hadm hswap hrekey, swapInBody]
    refine ⟨fun v hrun hv => ?_, fun st hrun => ?_⟩
    · rw [hrun]
      dsimp only
      rw [hv] <;> rfl
    · rw [hrun]
  · intro q t
    obtain ⟨hpool, hother⟩ := freeT2_pool p page pair s
    have ht : t = _ := hpool
    obtain ⟨hlow, hhigh, hkeep⟩ := poolMark_spill { q with used := q.used.filter (fun i => !(pageSlots page pair).contains i) }
    rw [ht]
    exact ⟨hlow, hhigh, hkeep, rfl, hother⟩
end

section
/-! Transactions of the network: what sending them leaves (O45). -/

namespace Sys2Proof.Machine

/-! ## What a transaction asks for, and what sending leaves -/

/-- What a transaction asks for: the transaction as it was made. -/
def NetTx.asked (t : NetTx) : NetTx :=
  { t with st := 0, slot := 0, entry := 0, key := 0, off := 0, out := [], back := [], esc := false, mask := 0, ans := 0, status := 0
           resp := none, poison := false }

/-- The network without the state of its transactions and its counts of refusals. -/
def NetSt.fixed (n : NetSt) : NetSt := { n with txs := [], hubStat := [], hubBnd := [] }

/-- Transactions are sent or refused: they ask for what they did, nothing else of the network changes but its counts, and of the rest
only error records and counters do, and no core. -/
def NetSends (s t : State) : Prop := t.net.fixed = s.net.fixed ∧ t.net.txs.map NetTx.asked = s.net.txs.map NetTx.asked ∧
  Only (F.logs ||| F.net) s t ∧ t.cores = s.cores

theorem netSends_refl (s : State) : NetSends s s := ⟨rfl, rfl, Only.refl _ _, rfl⟩

theorem netSends_trans {s t u : State} (h : NetSends s t) (k : NetSends t u) : NetSends s u := by
  obtain ⟨hfixed, hasked, honly, hcores⟩ := h
  obtain ⟨kfixed, kasked, konly, kcores⟩ := k
  exact ⟨kfixed.trans hfixed, kasked.trans hasked, honly.trans konly, kcores.trans hcores⟩

theorem netSends_of_only {φ : Nat} {s t : State} (h : Only φ s t) (hnet : φ.testBit 52 = false) (hcores : t.cores = s.cores)
    (hm : Within φ (F.logs ||| F.net)) : NetSends s t := by
  have heq := h.net hnet
  exact ⟨by rw [heq], by rw [heq], h.mono hm, hcores⟩

theorem netSends_txUpd (id : Nat) {f : NetTx → NetTx} (hf : ∀ t, (f t).asked = t.asked) (s : State) : NetSends s (txUpd id f s) := by
  refine ⟨rfl, ?_, only_txUpd (φ := F.logs ||| F.net) rfl (Only.refl _ _) _ _, rfl⟩
  show (s.net.txs.map (fun t => if t.id = id then f t else t)).map NetTx.asked = _
  rw [List.map_map]
  refine List.map_congr_left fun t _ => ?_
  rw [Function.comp_apply]
  split
  · exact hf t
  · rfl

theorem netSends_tallyClu (k evt n : Nat) (tx : Option Tx) (s : State) : NetSends s (tallyClu k evt n tx s) :=
  netSends_of_only (only_tallyClu (φ := F.ctrs) rfl (Only.refl _ _) _ _ _ _) rfl (tallyClu_cores _ _ _ _ _) rfl

theorem netSends_netRefused (q reason : Nat) (p : Option Nat) (s : State) : NetSends s (netRefused q reason p s) := by
  unfold netRefused
  split
  · exact ⟨rfl, rfl, only_hubRefused (φ := F.logs ||| F.net) rfl (Only.refl _ _) _ _ _, rfl⟩
  · exact netSends_of_only (φ := F.regs ||| F.ctrs)
      (only_tallyClu (φ := F.regs ||| F.ctrs) rfl (only_cluSet (φ := F.regs ||| F.ctrs) rfl
        (only_cluUpd (φ := F.regs ||| F.ctrs) rfl (Only.refl _ _) _ _ _) _ _ _) _ _ _ _) rfl
      (by rw [tallyClu_cores, cluSet_cores, cluUpd_cores]) rfl

theorem netSends_countRaw (t : Tgt) (reason : Nat) (s : State) : NetSends s (countRaw t reason s) := by
  refine netSends_of_only (only_countRaw (φ := F.regs) rfl (Only.refl _ _) _ _) rfl ?_ rfl
  unfold countRaw
  split
  · split
    · exact cluUpd_cores _ _ _ _
    · rfl
  · rfl

theorem netSends_logErr {e : ErrEv} (s : State) (he : errClass e.code = 0) : NetSends s (logErr e s) := by
  obtain ⟨hcores, _⟩ := coresKept_logErr s he
  exact netSends_of_only (only_logErr (φ := F.logs) rfl (Only.refl _ _) _) rfl hcores rfl

theorem netSends_hostRaw (addr : Nat) (t : Tgt) (reason : Nat) (s : State) : NetSends s (hostRaw addr t reason s) := by
  unfold hostRaw
  split
  · exact netSends_refl s
  · split
    · exact netSends_trans (netSends_countRaw _ _ s) (netSends_logErr _ rfl)
    · exact netSends_logErr s rfl
    · exact netSends_refl s

theorem netSends_refuseCount (q : Nat) (p : Option Nat) (addr st r : Nat) (s : State) : NetSends s (refuseCount q p addr st r s) := by
  unfold refuseCount
  split
  · exact netSends_refl s
  · refine netSends_trans ?_ (netSends_netRefused _ _ _ _)
    split
    · exact netSends_hostRaw _ _ _ s
    · exact netSends_countRaw _ _ s

theorem refuseCount_txs (q : Nat) (p : Option Nat) (addr st r : Nat) (s : State) :
    (refuseCount q p addr st r s).net.txs = s.net.txs := by
  have hnet (q reason : Nat) (p : Option Nat) (s : State) : (netRefused q reason p s).net.txs = s.net.txs := by
    unfold netRefused
    split
    · rfl
    · rw [tallyClu_net, cluSet_net, cluUpd_net]
  unfold refuseCount
  split
  · rfl
  · rw [hnet]
    split
    · rw [(only_hostRaw (φ := F.logs) rfl (Only.refl _ s) _ _ _).net rfl]
    · rw [(only_countRaw (φ := F.logs) rfl (Only.refl _ s) _ _).net rfl]

theorem netSends_txSend (id : Nat) (s : State) : NetSends s (txSend id s) := by
  have hrefused (st : Nat) : NetSends s (txUpd id (refusedTx st) s) := netSends_txUpd id (fun _ => by rfl) s
  unfold txSend
  split
  · exact netSends_refl s
  · split
    · exact netSends_refl s
    · split
      · exact netSends_trans (hrefused _) (netSends_refuseCount _ _ _ _ _ _)
      · exact netSends_refl s
      · dsimp only
        split
        · exact netSends_refl s
        · split
          · exact hrefused _
          · split
            · exact netSends_refl s
            · split
              · exact netSends_trans (netSends_txUpd id (fun _ => by rfl) s) (netSends_tallyClu _ _ _ _ _)
              · exact netSends_txUpd id (fun _ => by rfl) s

theorem netSends_netPump (s : State) : NetSends s (netPump s) :=
  List.foldlRecOn (motive := NetSends s) _ _ (netSends_refl s) fun t h id _ => netSends_trans h (netSends_txSend id t)

/-! ## Finding transactions -/

theorem id_of_txFind {s : State} {id : Nat} {t : NetTx} (h : txFind s id = some t) : t.id = id := by
  rw [txFind] at h
  exact beq_iff_eq.mp (List.find?_some (p := fun t : NetTx => t.id == id) h)

theorem txFind_txUpd {id : Nat} {f : NetTx → NetTx} (hf : ∀ t, (f t).id = t.id) (s : State) (j : Nat) :
    txFind (txUpd id f s) j = if j = id then (txFind s id).map f else txFind s j := by
  have hid (t : NetTx) : (if t.id = id then f t else t).id = t.id := by
    split
    · exact hf t
    · rfl
  have hfind : txFind (txUpd id f s) j = (txFind s j).map (fun t => if t.id = id then f t else t) := by
    show (s.net.txs.map _).find? _ = _
    rw [List.find?_map, txFind]
    refine congrArg _ (congrArg (fun g => List.find? g s.net.txs) (funext fun t => ?_))
    rw [Function.comp_apply, hid]
  rw [hfind]
  by_cases hj : j = id
  · rw [if_pos hj, hj]
    refine Option.map_congr fun t ht => if_pos ?_
    exact id_of_txFind ht
  · rw [if_neg hj]
    cases hx : txFind s j with
    | none => rfl
    | some t =>
      have htj : t.id = j := id_of_txFind hx
      exact congrArg some (if_neg (htj ▸ hj))

theorem txFind_congr {s t : State} (h : t.net.txs = s.net.txs) (id : Nat) : txFind t id = txFind s id := by rw [txFind, txFind, h]

/-- What is left without the transactions of a number. -/
theorem txFind_none_of_sends {s t : State} {id : Nat} (h : NetSends s t) (hnone : ∀ x ∈ s.net.txs, x.id ≠ id) : txFind t id = none := by
  obtain ⟨_, hasked, _⟩ := h
  refine List.find?_eq_none.mpr fun x hx hid => ?_
  have hmem : x.asked ∈ s.net.txs.map NetTx.asked := hasked ▸ List.mem_map_of_mem hx
  obtain ⟨y, hy, heq⟩ := List.mem_map.mp hmem
  have hyx : y.id = x.id := (congrArg NetTx.id heq :)
  exact hnone y hy (hyx.trans (beq_iff_eq.mp hid))

/-! ## Sending (R264, R272) -/

section
variable {id key off : Nat} {x : NetTx} {s : State} (hx : txFind s id = some x) (hst : x.st = 0)
include hx hst

theorem txSend_lost {l m : List Nat} {esc : Bool}
    (hpass : netRefusal s x.port (if x.part = 64 then none else some x.part) x.addr x.len x.write = none)
    (hadm : admAt s x.port x.addr = some (key, off)) (hslot : slotFor s x.port ≠ 0)
    (hroute : netRoutes s (portNode x.port) (admNode key) = some (l, m, esc)) :
    (crossesLost s (l ++ m) = true → txSend id s = s) ∧
    (crossesLost s (l ++ m) = false → txFind (txSend id s) id = some { x with
      st := 1, slot := slotFor s x.port, key := key, off := off, out := l, back := m, esc := esc, mask := pathTowers (l ++ m) }) := by
  unfold txSend
  rw [hx]
  dsimp only
  rw [if_neg (not_not.mpr hst), hpass, hadm]
  dsimp only
  rw [if_neg hslot, hroute]
  dsimp only
  refine ⟨fun hlost => if_pos hlost, fun hwhole => ?_⟩
  rw [if_neg (by rw [hwhole]; exact Bool.false_ne_true)]
  have hfind : txFind (txUpd id (fun t => { t with
      st := 1, slot := slotFor s x.port, key := key, off := off, out := l, back := m, esc := esc, mask := pathTowers (l ++ m) }) s) id =
      some { x with
        st := 1, slot := slotFor s x.port, key := key, off := off, out := l, back := m, esc := esc, mask := pathTowers (l ++ m) } := by
    rw [txFind_txUpd (fun _ => by rfl), if_pos rfl, hx]
    rfl
  split
  · next k _ =>
    rw [← hfind]
    exact txFind_congr (by rw [tallyClu_net]) id
  · exact hfind

theorem txSend_refused {st r : Nat}
    (hrefusal : netRefusal s x.port (if x.part = 64 then none else some x.part) x.addr x.len x.write = some (st, r)) :
    txFind (txSend id s) id = some { x with st := 6, status := st, resp := none } := by
  unfold txSend
  rw [hx]
  dsimp only
  rw [if_neg (not_not.mpr hst), hrefusal]
  dsimp only
  rw [txFind_congr (refuseCount_txs _ _ _ _ _ _), txFind_txUpd (fun _ => by rfl), if_pos rfl, hx]
  rfl

end

end Sys2Proof.Machine
end

section
/-! Transactions of the network: requests, admission, grants and responses (O45). -/

namespace Sys2Proof.Machine

/-! ## A request at a port (R264) -/

theorem tgtRefusal_net (v : State) (n : NetSt) (w : Who) (t : Tgt) (len : Nat) (write : Bool) :
    tgtRefusal { v with net := n } w t len write = tgtRefusal v w t len write := rfl

theorem dpaTgt_net (v : State) (n : NetSt) (addr : Nat) : dpaTgt { v with net := n } addr = dpaTgt v addr := rfl

theorem portWho_net (v : State) (n : NetSt) (q : Nat) (p : Option Nat) : portWho { v with net := n } q p = portWho v q p := rfl

theorem portRefusal_net (v : State) (n : NetSt) (q : Nat) (p : Option Nat) (addr len : Nat) (write : Bool) :
    tgtRefusal { v with net := n } (portWho { v with net := n } q p) (dpaTgt { v with net := n } addr) len write =
      tgtRefusal v (portWho v q p) (dpaTgt v addr) len write := by
  rw [tgtRefusal_net, portWho_net, dpaTgt_net]

theorem netRefusal_congr (n : NetSt) (s : State) (hmaps : n.oldMaps = s.net.oldMaps) (hmoved : n.moved = s.net.moved) (q : Nat)
    (p : Option Nat) (addr len : Nat) (write : Bool) :
    netRefusal { s with net := n } q p addr len write = netRefusal s q p addr len write := by
  have hiface : ∃ v, ifaceState { s with net := n } q = { v with net := n } ∧ ifaceState s q = v := by
    unfold ifaceState
    dsimp only
    rw [hmaps, hmoved]
    cases s.net.oldMaps[stGet (fun _ => 0) s.net.moved q]? with
    | none => exact ⟨s, rfl, rfl⟩
    | some m => exact ⟨{ s with map := m }, rfl, rfl⟩
  obtain ⟨v, hv, hs⟩ := hiface
  rw [netRefusal, netRefusal, hv, hs]
  dsimp only
  split
  · exact portRefusal_net { v with parts := v.parts.map (fun e => (e.1, { e.2 with conf := false })) } n _ _ _ _ _
  · exact portRefusal_net v n _ _ _ _ _

/-- The state in which the port `q` makes its request, with the next number taken. -/
def numberTaken (s : State) : State := { s with net := { s.net with nextId := s.net.nextId + 1 } }

theorem netRefusal_numberTaken (s : State) (q : Nat) (p : Option Nat) (addr len : Nat) (write : Bool) :
    netRefusal (numberTaken s) q p addr len write = netRefusal s q p addr len write :=
  netRefusal_congr { s.net with nextId := s.net.nextId + 1 } s rfl rfl q p addr len write

theorem netRefusal_netTick (nclk : Nat) (s : State) (q : Nat) (p : Option Nat) (addr len : Nat) (write : Bool) :
    netRefusal (netTick nclk s) q p addr len write = netRefusal s q p addr len write :=
  netRefusal_congr { s.net with now := s.net.now + nclk } s rfl rfl q p addr len write

/-- The partition that a port's request is made for, 64 where there is none. -/
def requestPart (s : State) (q : Nat) (p : Option Nat) : Nat :=
  match portWho s q p with
  | .part i => i
  | _ => 64

theorem requestIssue_eq (q : Nat) (p : Option Nat) (addr len : Nat) (data : Option (List Byte)) (atom : Option AtomicOp) (s : State) :
    requestIssue q p addr len data atom s = match netRefusal (numberTaken s) q p addr len data.isSome with
      | some (st, r) => refuseCount q p addr st r
          (setTxs (s.net.txs ++ [refusedTx st (newTx s q (requestPart s q p) addr len data atom)]) (numberTaken s))
      | none => netPump (setTxs (s.net.txs ++ [newTx s q (requestPart s q p) addr len data atom]) (numberTaken s)) := rfl

theorem requestIssue_passes {q : Nat} {p : Option Nat} {addr len : Nat} {data : Option (List Byte)} {atom : Option AtomicOp} {s : State}
    (hpass : netRefusal s q p addr len data.isSome = none) : requestIssue q p addr len data atom s =
      netPump (setTxs (s.net.txs ++ [newTx s q (requestPart s q p) addr len data atom]) (numberTaken s)) := by
  rw [requestIssue_eq, netRefusal_numberTaken, hpass]

theorem requestIssue_refuses {q : Nat} {p : Option Nat} {addr len st r : Nat} {data : Option (List Byte)} {atom : Option AtomicOp}
    {s : State} (hrefusal : netRefusal s q p addr len data.isSome = some (st, r)) : requestIssue q p addr len data atom s =
      refuseCount q p addr st r
        (setTxs (s.net.txs ++ [refusedTx st (newTx s q (requestPart s q p) addr len data atom)]) (numberTaken s)) := by
  rw [requestIssue_eq, netRefusal_numberTaken, hrefusal]

theorem portWho_congr {s t : State} (hmap : t.map = s.map) (hparts : t.parts = s.parts) (q : Nat) (p : Option Nat) :
    portWho t q p = portWho s q p := by
  simp only [portWho, coreWho, corePart, cluPart_congr hmap hparts]

/-- What a port's refusal shows in its cluster's registers. -/
theorem refuseCount_shows {q k i : Nat} {p : Option Nat} {addr r : Nat} {s : State} (hclu : portClu q = some k)
    (hwho : portWho s q p = .part i) : cluReg (refuseCount q p addr 0x0401 r s) k 0x258 = BitVec.ofNat 32 (2 ^ 31 + r * 2 ^ 28 +
      i * 2 ^ 22 + (if q < 4352 then coreSite q else 0) * 2 ^ 16) := by
  have hq : q ≠ 4392 := by
    rintro rfl
    simp [portClu] at hclu
  have hzero (a b : Nat) : a + b2n false * b = a := by rw [b2n, if_neg Bool.false_ne_true, Nat.zero_mul, Nat.add_zero]
  have hcount := only_countRaw (φ := F.regs) rfl (Only.refl _ s) (dpaTgt s addr) r
  have hwho' : portWho (countRaw (dpaTgt s addr) r s) q p = .part i := by
    rw [portWho_congr (hcount.map rfl) (hcount.parts rfl), hwho]
  rw [refuseCount, if_neg (not_not.mpr rfl), if_neg hq, netRefused, hclu]
  dsimp only
  rw [hwho', cluReg, rget_tallyClu, cluSet, rget_rset_same, whoBits]
  dsimp only
  rw [hzero]

theorem nextId_of_fixed {m n : NetSt} (h : m.fixed = n.fixed) : m.nextId = n.nextId := (congrArg NetSt.nextId h :)

theorem now_of_fixed {m n : NetSt} (h : m.fixed = n.fixed) : m.now = n.now := (congrArg NetSt.now h :)

section
variable {q : Fin 4409} {p : Option (Fin 64)} {addr : Fin (2 ^ 48)} {len : Fin 257} {nclk : Nat} {data : Option (List Byte)}
  {atom : Option AtomicOp} {n : Nat} {s : State}
  (hn : n = (match atom with
    | some op => atomicBytes op
    | none => (data.map List.length).getD len)) (hpos : 0 < n) (hle : n ≤ 256)
  (hatom : ∀ op, atom = some op → ∃ d, data = some d ∧ d.length = atomicBytes op ∧ addr.val % n = 0)
include hn hpos hle hatom

theorem requestIssue_runs : exec (.requestIssue q p addr len nclk data atom) s =
    .next (requestIssue q (p.map Fin.val) addr n data atom (netTick nclk s)) := by
  show execRequestIssue q p addr len nclk data atom s = _
  unfold execRequestIssue
  cases atom with
  | none =>
    cases data with
    | none =>
      subst hn
      exact if_pos (by simpa using ⟨hpos, hle⟩)
    | some d =>
      subst hn
      exact if_pos (by simpa using ⟨hpos, hle⟩)
  | some op =>
    obtain ⟨d, hd, hlen, halign⟩ := hatom op rfl
    subst hn
    exact if_pos (by simpa [hd, hlen] using ⟨⟨hpos, hle⟩, halign⟩)

theorem requestIssue_effect : ∃ t, exec (.requestIssue q p addr len nclk data atom) s = .next t ∧ t.net.nextId = s.net.nextId + 1 ∧
    t.t1 = s.t1 ∧ t.t2 = s.t2 ∧ t.net.now = s.net.now + nclk ∧
    (netRefusal s q (p.map Fin.val) addr n data.isSome = none → ∃ x ∈ t.net.txs, x.id = s.net.nextId ∧ x.port = q.val ∧
      x.addr = addr.val ∧ x.len = n ∧ x.write = data.isSome ∧ x.atom = atom ∧ x.cls = 0 ∧ x.data = data.getD (zeros n) ∧
      x.born = s.net.now + nclk ∧ (q.val < 4352 → x.weight = wFld (rget s (otKey q)) 25 24)) ∧
    (∀ st r, netRefusal s q (p.map Fin.val) addr n data.isSome = some (st, r) →
      (∃ x, t.net.txs = s.net.txs ++ [x] ∧ x.id = s.net.nextId ∧ x.st = 6 ∧ x.status = st ∧ x.resp = none) ∧
      (st ≠ 0x0401 → t.regs = s.regs) ∧
      (st = 0x0401 → ∀ k i, portClu q = some k → portWho s q (p.map Fin.val) = .part i →
        cluReg t k 0x258 = BitVec.ofNat 32 (2 ^ 31 + r * 2 ^ 28 + i * 2 ^ 22 +
          (if q.val < 4352 then coreSite q else 0) * 2 ^ 16))) := by
  have htick := netRefusal_netTick nclk s q (p.map Fin.val) addr n data.isSome
  obtain ⟨u, hu⟩ : ∃ u, u = netTick nclk s := ⟨_, rfl⟩
  have honlyu : Only F.net s u := hu ▸ only_with (φ := F.net) (a := F.net) rfl rfl (Only.refl _ _)
  refine ⟨_, requestIssue_runs hn hpos hle hatom, ?_⟩
  cases hrefusal : netRefusal s q (p.map Fin.val) addr n data.isSome with
  | none =>
    have hissue := requestIssue_passes (atom := atom) (htick.trans hrefusal)
    obtain ⟨a, ha⟩ : ∃ a, a = setTxs ((netTick nclk s).net.txs ++ [newTx (netTick nclk s) q (requestPart (netTick nclk s) q (p.map Fin.val)) addr n data atom])
      (numberTaken (netTick nclk s)) := ⟨_, rfl⟩
    rw [hissue, ← ha]
    obtain ⟨hfixed, hasked, honly, _⟩ := netSends_netPump a
    have honly' : Only F.net s a := ha ▸ only_setTxs (φ := F.net) rfl (only_with (φ := F.net) (a := F.net) rfl rfl (Only.refl _ _)) _
    refine ⟨?_, (honly.t1 rfl).trans (honly'.t1 rfl), (honly.t2 rfl).trans (honly'.t2 rfl), ?_, fun _ => ?_, fun st r h => nomatch h⟩
    · rw [nextId_of_fixed hfixed, ha]
      rfl
    · rw [now_of_fixed hfixed, ha]
      rfl
    · have hmem : (newTx (netTick nclk s) q (requestPart (netTick nclk s) q (p.map Fin.val)) addr n data atom).asked ∈ (netPump a).net.txs.map NetTx.asked := by
        rw [hasked, ha]
        exact List.mem_map_of_mem (List.mem_append_right _ (List.mem_singleton_self _))
      obtain ⟨x, hx, heq⟩ := List.mem_map.mp hmem
      refine ⟨x, hx, (congrArg NetTx.id heq :), (congrArg NetTx.port heq :), (congrArg NetTx.addr heq :), (congrArg NetTx.len heq :),
        (congrArg NetTx.write heq :), (congrArg NetTx.atom heq :), (congrArg NetTx.cls heq :), (congrArg NetTx.data heq :),
        (congrArg NetTx.born heq :), fun hq => (congrArg NetTx.weight heq).trans ?_⟩
      exact if_pos hq
  | some e =>
    obtain ⟨st', r'⟩ := e
    have hissue := requestIssue_refuses (atom := atom) (htick.trans hrefusal)
    obtain ⟨a, ha⟩ : ∃ a, a = setTxs ((netTick nclk s).net.txs ++ [refusedTx st' (newTx (netTick nclk s) q (requestPart (netTick nclk s) q (p.map Fin.val)) addr n data atom)])
      (numberTaken (netTick nclk s)) := ⟨_, rfl⟩
    rw [hissue, ← ha]
    obtain ⟨hfixed, hasked, honly, _⟩ := netSends_refuseCount q (p.map Fin.val) addr st' r' a
    have honly' : Only F.net s a := ha ▸ only_setTxs (φ := F.net) rfl (only_with (φ := F.net) (a := F.net) rfl rfl (Only.refl _ _)) _
    refine ⟨?_, (honly.t1 rfl).trans (honly'.t1 rfl), (honly.t2 rfl).trans (honly'.t2 rfl), ?_, (fun h => nomatch h), fun st r h => ?_⟩
    · rw [nextId_of_fixed hfixed, ha]
      rfl
    · rw [now_of_fixed hfixed, ha]
      rfl
    · obtain ⟨rfl, rfl⟩ := Prod.mk.inj (Option.some.inj h)
      refine ⟨⟨refusedTx st' (newTx (netTick nclk s) q (requestPart (netTick nclk s) q (p.map Fin.val)) addr n data atom), ?_, rfl, rfl, rfl, rfl⟩, fun hst => ?_,
        fun hst k i hclu hwho => ?_⟩
      · rw [refuseCount_txs, ha]
        rfl
      · rw [refuseCount, if_pos hst]
        exact honly'.regs rfl
      · rw [hst]
        refine refuseCount_shows hclu ?_
        rw [ha]
        exact hwho

end

end Sys2Proof.Machine
end

section
/-! Transactions of the network: admission, grants and responses (O45). -/

namespace Sys2Proof.Machine

/-! ## Admission at a target (R269, R276) -/

section
variable {id : Nat} {x : NetTx} {s : State}

theorem resvOf_setResv (key : Nat) (l : List Nat) (s : State) (j : Nat) :
    resvOf (setResv key l s) j = if j = key then l else resvOf s j := by
  by_cases hj : j = key
  · rw [if_pos hj, hj]
    exact stGet_stSet_same (d := fun _ => []) _ _ _
  · rw [if_neg hj]
    exact stGet_stSet_other _ _ _ hj

theorem net_toPairs (t : NetTx) (s : State) : (toPairs t s).net = s.net :=
  (only_toPairs (φ := F.cols ||| F.t2q) rfl (Only.refl _ s) t).net rfl

/-- A transaction that is not admitted takes its place in the reservations, and the youngest goes where there are more than four. -/
def retried (id : Nat) (x : NetTx) (s : State) : State :=
  let l := (resvOf s x.key).filter (fun i => i != id) ++ [id]
  let out := if 4 < l.length then [l.foldl max 0] else []
  out.foldl (fun s i => txUpd i (fun t => { t with st := 3 }) s)
    (txUpd id (fun t => { t with st := 4 }) (setResv x.key (l.filter (fun i => !out.contains i)) s))

theorem targetAdmit_takes (hx : txFind s id = some x) (hst : x.st = 1) (full parity : Bool)
    (he : admEntry (if parity then crossingError x s else s) x full ≠ 0) : targetAdmit id full parity s =
      toPairs x (txUpd id (fun t => { t with st := 2, entry := admEntry (if parity then crossingError x s else s) x full })
        (if parity then crossingError x s else s)) := by
  unfold targetAdmit
  rw [hx]
  exact (if_neg (not_not.mpr hst)).trans (if_pos he)

/-- A retry is counted at the cluster of its port. -/
def retryCounted (x : NetTx) (u s : State) : State :=
  match portClu x.port with
  | some k => tallyClu k 0x0401 1 ((netTx u x).map (fun y => { y with addr := none })) (cluUpd k 0x254 (fun w => wSatAdd w 31 16 1) s)
  | none => s

theorem targetAdmit_retries (hx : txFind s id = some x) (hst : x.st = 1) (full parity : Bool)
    (he : admEntry (if parity then crossingError x s else s) x full = 0) : targetAdmit id full parity s =
      retryCounted x (retried id x (if parity then crossingError x s else s)) (retried id x (if parity then crossingError x s else s)) := by
  unfold targetAdmit
  rw [hx]
  exact (if_neg (not_not.mpr hst)).trans (if_neg (not_not.mpr he))

/-- The reservations of a target with the transaction as the newest. -/
def reserved (id key : Nat) (s : State) : List Nat := (resvOf s key).filter (fun i => i != id) ++ [id]

theorem retried_few (hfew : (reserved id x.key s).length ≤ 4) : retried id x s =
    txUpd id (fun t => { t with st := 4 }) (setResv x.key (reserved id x.key s) s) := by
  have hall (l : List Nat) : l.filter (fun i => !([] : List Nat).contains i) = l := List.filter_eq_self.mpr fun _ _ => rfl
  unfold retried
  rw [reserved] at hfew
  dsimp only
  rw [if_neg (by omega), hall]
  rfl

theorem retried_many (hmany : 4 < (reserved id x.key s).length) : retried id x s =
    txUpd ((reserved id x.key s).foldl max 0) (fun t => { t with st := 3 }) (txUpd id (fun t => { t with st := 4 })
      (setResv x.key ((reserved id x.key s).filter (fun i => i != (reserved id x.key s).foldl max 0)) s)) := by
  have hbut (l : List Nat) (m : Nat) : l.filter (fun i => !([m] : List Nat).contains i) = l.filter (fun i => i != m) :=
    List.filter_congr fun i _ => by rw [List.contains_cons, List.contains_nil, Bool.or_false, bne]
  unfold retried
  rw [reserved] at hmany
  dsimp only
  rw [if_pos hmany, hbut]
  rfl

theorem only_retried (id : Nat) (x : NetTx) (s : State) : Only F.net s (retried id x s) := by
  have hset (l : List Nat) : Only F.net s (setResv x.key l s) := only_with (φ := F.net) (a := F.net) rfl rfl (Only.refl _ _)
  by_cases h : (reserved id x.key s).length ≤ 4
  · rw [retried_few h]
    exact only_txUpd (φ := F.net) rfl (hset _) _ _
  · rw [retried_many (by omega)]
    exact only_txUpd (φ := F.net) rfl (only_txUpd (φ := F.net) rfl (hset _) _ _) _ _

theorem net_retryCounted (x : NetTx) (u s : State) : (retryCounted x u s).net = s.net := by
  unfold retryCounted
  split
  · rw [tallyClu_net, cluUpd_net]
  · rfl

theorem retryCounted_counts {k : Nat} (u : State) (hk : portClu x.port = some k) :
    wFld (cluReg (retryCounted x u s) k 0x254) 31 16 = min (wFld (cluReg s k 0x254) 31 16 + 1) 65535 := by
  rw [retryCounted, hk]
  dsimp only
  rw [cluReg, rget_tallyClu, cluUpd, rget_rupd_same]
  exact wFld_wSatAdd_same _ 1 (by decide) (by decide)

theorem txFind_setResv (key : Nat) (l : List Nat) (s : State) (j : Nat) : txFind (setResv key l s) j = txFind s j := rfl

theorem resvOf_txUpd (id : Nat) (f : NetTx → NetTx) (s : State) (key : Nat) : resvOf (txUpd id f s) key = resvOf s key := rfl

theorem resvOf_retryCounted (x : NetTx) (u s : State) (key : Nat) : resvOf (retryCounted x u s) key = resvOf s key := by
  rw [resvOf, resvOf, net_retryCounted]

theorem txFind_toPairs (t : NetTx) (s : State) (j : Nat) : txFind (toPairs t s) j = txFind s j :=
  txFind_congr (congrArg NetSt.txs (net_toPairs t s)) j

theorem targetAdmit_effect (hx : txFind s id = some x) (hst : x.st = 1) (full : Bool) :
    ∃ t, exec (.targetAdmit id full false) s = .next t ∧
      (admEntry s x full ≠ 0 → txFind t id = some { x with st := 2, entry := admEntry s x full } ∧ t.net.resv = s.net.resv ∧
        (∀ j, j ≠ id → txFind t j = txFind s j)) ∧
      (admEntry s x full = 0 → (reserved id x.key s).length ≤ 4 → resvOf t x.key = reserved id x.key s ∧
        txFind t id = some { x with st := 4 }) ∧
      (admEntry s x full = 0 → 4 < (reserved id x.key s).length →
        resvOf t x.key = (reserved id x.key s).filter (fun i => i != (reserved id x.key s).foldl max 0)) ∧
      (admEntry s x full = 0 → ∀ k, portClu x.port = some k →
        wFld (cluReg t k 0x254) 31 16 = min (wFld (cluReg s k 0x254) 31 16 + 1) 65535) ∧ t.t1 = s.t1 := by
  have ht1 : (targetAdmit id full false s).t1 = s.t1 :=
    (only_targetAdmit (φ := F.logs ||| F.net ||| F.t2q) rfl (Only.refl _ s) _ _ _).t1 rfl
  refine ⟨targetAdmit id full false s, rfl, fun he => ?_, fun he hfew => ?_, fun he hmany => ?_, fun he k hk => ?_, ht1⟩
  · obtain ⟨u, hu⟩ : ∃ u, u = txUpd id (fun t => { t with st := 2, entry := admEntry s x full }) s := ⟨_, rfl⟩
    have hadmit : targetAdmit id full false s = toPairs x u := hu ▸ targetAdmit_takes hx hst full false he
    refine hadmit ▸ ⟨(txFind_toPairs x u id).trans ?_, (congrArg NetSt.resv (net_toPairs x u)).trans ?_, fun j hj =>
      (txFind_toPairs x u j).trans ?_⟩
    · rw [hu, txFind_txUpd (fun _ => by rfl), if_pos rfl, hx]
      rfl
    · rw [hu]
      rfl
    · rw [hu, txFind_txUpd (fun _ => by rfl), if_neg hj]
  · have hretry : targetAdmit id full false s = retryCounted x (retried id x s) (retried id x s) :=
      targetAdmit_retries hx hst full false he
    rw [hretry, resvOf_retryCounted, txFind_congr (congrArg NetSt.txs (net_retryCounted _ _ _)), retried_few hfew,
      txFind_txUpd (fun _ => by rfl), if_pos rfl, txFind_setResv, hx, resvOf_txUpd, resvOf_setResv, if_pos rfl]
    exact ⟨rfl, rfl⟩
  · have hretry : targetAdmit id full false s = retryCounted x (retried id x s) (retried id x s) :=
      targetAdmit_retries hx hst full false he
    rw [hretry, resvOf_retryCounted, retried_many hmany, resvOf_txUpd, resvOf_txUpd, resvOf_setResv, if_pos rfl]
  · have hretry : targetAdmit id full false s = retryCounted x (retried id x s) (retried id x s) :=
      targetAdmit_retries hx hst full false he
    rw [hretry, retryCounted_counts _ hk, cluReg, cluReg, rget, rget, (only_retried id x s).regs rfl]

/-- A transaction whose crossing failed is marked. -/
theorem txFind_crossingError (hx : txFind s id = some x) : txFind (crossingError x s) id = some { x with poison := true } := by
  have hnet (u : State) : (crossErr (admDie x.key).1 (admDie x.key).2 (if x.part = 64 then none else some x.part) x.addr u).net = u.net :=
    (only_crossErr (φ := F.logs) rfl (Only.refl _ u) _ _ _ _).net rfl
  have hid := id_of_txFind hx
  subst hid
  rw [crossingError, txFind_congr (congrArg NetSt.txs (hnet _)), txFind_txUpd (fun _ => by rfl), if_pos rfl, hx]
  rfl

theorem txFind_retried {y : NetTx} (hy : txFind s id = some y) : ∃ z, txFind (retried id x s) id = some z ∧ z.poison = y.poison := by
  by_cases h : (reserved id x.key s).length ≤ 4
  · refine ⟨{ y with st := 4 }, ?_, rfl⟩
    rw [retried_few h, txFind_txUpd (fun _ => by rfl), if_pos rfl, txFind_setResv, hy]
    rfl
  · rw [retried_many (by omega), txFind_txUpd (fun _ => by rfl), txFind_txUpd (fun _ => by rfl), txFind_txUpd (fun _ => by rfl),
      if_pos rfl, txFind_setResv, txFind_setResv, hy]
    split
    · next hmax =>
      rw [← hmax, if_pos rfl]
      exact ⟨_, rfl, rfl⟩
    · exact ⟨_, rfl, rfl⟩

theorem targetAdmit_marks (hx : txFind s id = some x) (hst : x.st = 1) (full : Bool) :
    ∃ t y, exec (.targetAdmit id full true) s = .next t ∧ txFind t id = some y ∧ y.poison = true ∧ t.t1 = s.t1 ∧ t.t2 = s.t2 := by
  have honly := only_targetAdmit (φ := F.logs ||| F.net ||| F.t2q) rfl (Only.refl _ s) id full true
  have hmark := txFind_crossingError hx
  have hfound : ∃ y, txFind (targetAdmit id full true s) id = some y ∧ y.poison = true := by
    by_cases he : admEntry (crossingError x s) x full = 0
    · have hretry : targetAdmit id full true s =
          retryCounted x (retried id x (crossingError x s)) (retried id x (crossingError x s)) :=
        targetAdmit_retries hx hst full true he
      rw [hretry, txFind_congr (congrArg NetSt.txs (net_retryCounted _ _ _))]
      exact txFind_retried hmark
    · have hadmit : targetAdmit id full true s =
          toPairs x (txUpd id (fun t => { t with st := 2, entry := admEntry (crossingError x s) x full }) (crossingError x s)) :=
        targetAdmit_takes hx hst full true he
      rw [hadmit, txFind_congr (congrArg NetSt.txs (net_toPairs _ _)), txFind_txUpd (fun _ => by rfl), if_pos rfl, hmark]
      exact ⟨_, rfl, rfl⟩
  obtain ⟨y, hy, hpoison⟩ := hfound
  exact ⟨_, y, rfl, hy, hpoison, honly.t1 rfl, honly.t2 rfl⟩

end

theorem performNow_poison {x : NetTx} (s : State) (hpoison : x.poison = true) (hread : x.write = false ∨ x.atom.isSome = true) :
    performNow x s = answer x.id 0 none s := by
  unfold performNow
  dsimp only
  rw [if_pos hpoison, performPoison]
  refine if_neg ?_
  rcases hread with h | h
  · rw [h, Bool.false_and]
    exact Bool.false_ne_true
  · rw [Option.isNone_eq_false_iff.mpr h, Bool.and_false]
    exact Bool.false_ne_true

/-! ## Grants (R273, R274) -/

theorem grantFree_idle {key : Nat} {s : State} (h : resvOf s key = []) : grantFree key s = s := by
  unfold grantFree
  dsimp only
  exact if_pos (by rw [h]; rfl)

theorem grant_serves {key : Fin 30024} {n : Nat} {x : NetTx} {s : State} (hnext : nextServed (netTick n s) key = some x)
    (hnone : resvOf (if 10000 ≤ key.val then served key x (perform x (netTick n s)) else perform x (netTick n s)) key = []) :
    exec (.grant ⟨key, n⟩) s =
      .next (if 10000 ≤ key.val then served key x (perform x (netTick n s)) else perform x (netTick n s)) := by
  rw [exec, execGrant, grant]
  dsimp only
  rw [hnext]
  exact congrArg Host.Outcome.next (grantFree_idle hnone)

theorem ageRank_lt {key : Nat} {a b : NetTx} {s : State} (ha : a.weight < 4) (hb : b.weight < 4)
    (horder : txAge s b < txAge s a ∨ (txAge s a = txAge s b ∧ b.weight < a.weight)) : ageRank s key a < ageRank s key b := by
  have hage (t : NetTx) : txAge s t ≤ 1023 := by
    rw [txAge]
    omega
  have hA := hage a
  have hB := hage b
  have hp := Nat.mod_lt (inPort a + 8191 - stGet (fun _ => 0) s.net.rr key) (by decide : 0 < 8192)
  unfold ageRank
  omega

theorem mem_firstByAge {key : Nat} {x : NetTx} {s : State} {l : List NetTx} (h : firstByAge s key l = some x) : x ∈ l := by
  refine List.foldlRecOn (motive := fun b : Option NetTx => ∀ y, b = some y → y ∈ l) l _ (fun y hy => absurd hy (by simp))
    (fun b hb t ht y hy => ?_) x h
  cases b with
  | none =>
    obtain rfl : t = y := Option.some.inj hy
    exact ht
  | some z =>
    dsimp only at hy
    split at hy
    · obtain rfl : t = y := Option.some.inj hy
      exact ht
    · exact hb y hy

theorem mem_resvOf_of_grantPick {key : Nat} {x : NetTx} {s : State} (h : grantPick s key = some x) : x.id ∈ resvOf s key := by
  have hmem := (List.mem_filter.mp (mem_firstByAge h)).2
  rw [Bool.and_eq_true] at hmem
  obtain ⟨_, hmem⟩ := hmem
  exact List.contains_iff_mem.mp hmem

theorem grantFree_grants {key : Nat} {x : NetTx} {s : State} (hpick : grantPick s key = some x) (hx : txFind s x.id = some x)
    (hentry : entryFor s x key false ≠ 0) : x.id ∉ resvOf (grantFree key s) key ∧
    txFind (grantFree key s) x.id = some { x with st := 5, entry := entryFor s x key false } ∧ Only F.net s (grantFree key s) := by
  have hsome : ¬(resvOf s key).isEmpty = true := fun h =>
    List.not_mem_nil ((List.isEmpty_iff.mp h) ▸ mem_resvOf_of_grantPick hpick)
  obtain ⟨l, hl, hnot⟩ : ∃ l, grantFree key s = served key x (txUpd x.id (fun t => { t with st := 5, entry := entryFor s x key false })
      (setResv key l s)) ∧ x.id ∉ l := by
    refine ⟨(resvOf s key).filter (fun i => (txFind s i).any (fun t => t.st == 4) &&
      !(entryFor s x key false != 0 && (some x).any (fun t => t.id == i))), ?_, fun hmem => ?_⟩
    · unfold grantFree
      dsimp only
      rw [hpick]
      exact (if_neg hsome).trans (if_neg hentry)
    · have hkept := (List.mem_filter.mp hmem).2
      simp [hentry] at hkept
  rw [hl]
  refine ⟨?_, ?_, ?_⟩
  · rwa [show resvOf (served key x (txUpd x.id (fun t => { t with st := 5, entry := entryFor s x key false }) (setResv key l s))) key =
      resvOf (setResv key l s) key from rfl, resvOf_setResv, if_pos rfl]
  · rw [show txFind (served key x (txUpd x.id (fun t => { t with st := 5, entry := entryFor s x key false }) (setResv key l s))) x.id =
      txFind (txUpd x.id (fun t => { t with st := 5, entry := entryFor s x key false }) (setResv key l s)) x.id from rfl,
      txFind_txUpd (fun _ => by rfl), if_pos rfl, txFind_setResv, hx]
    rfl
  · exact only_with (φ := F.net) (a := F.net) rfl rfl (only_txUpd (φ := F.net) rfl
      (only_with (φ := F.net) (a := F.net) rfl rfl (Only.refl _ _)) _ _)

theorem grant_grants {key : Fin 30024} {n : Nat} {x : NetTx} {s : State} (hnext : nextServed (netTick n s) key = none)
    (hpick : grantPick (netTick n s) key = some x) (hx : txFind (netTick n s) x.id = some x)
    (hentry : entryFor (netTick n s) x key false ≠ 0) : ∃ t, exec (.grant ⟨key, n⟩) s = .next t ∧ x.id ∉ resvOf t key ∧
      txFind t x.id = some { x with st := 5, entry := entryFor (netTick n s) x key false } ∧ t.regs = s.regs ∧ t.t1 = s.t1 := by
  obtain ⟨hresv, hfind, honly⟩ := grantFree_grants hpick hx hentry
  refine ⟨grantFree key (netTick n s), ?_, hresv, hfind, honly.regs rfl, honly.t1 rfl⟩
  rw [exec, execGrant, grant]
  dsimp only
  rw [hnext]

theorem grantLapse_lapses {id : Nat} {x : NetTx} {s : State} (hx : txFind s id = some x) (hst : x.st = 5) :
    (∃ t, exec (.grantLapse id) s = .next t ∧ txFind t id = some { x with st := 3, entry := 0 } ∧
      (∀ k, admClu x.key = some k → wFld (cluReg t k 0x254) 15 8 = min (wFld (cluReg s k 0x254) 15 8 + 1) 255) ∧
      (admClu x.key = none →
        wFld (hubStat t ((x.key - 30000) / 6)) 15 8 = min (wFld (hubStat s ((x.key - 30000) / 6)) 15 8 + 1) 255)) := by
  obtain ⟨u, hu⟩ : ∃ u, u = txUpd id (fun t => { t with st := 3, entry := 0 }) s := ⟨_, rfl⟩
  have hfind : txFind u id = some { x with st := 3, entry := 0 } := by
    rw [hu, txFind_txUpd (fun _ => by rfl), if_pos rfl, hx]
    rfl
  have honly : Only F.net s u := hu ▸ only_txUpd (φ := F.net) rfl (Only.refl _ _) _ _
  have hstat (h : Nat) : hubStat u h = hubStat s h := by rw [hu]; rfl
  have hexec (t : State) (ht : (match admClu x.key with
      | some k => cluUpd k 0x254 (fun w => wSatAdd w 15 8 1) u
      | none => hubStatUpd ((x.key - 30000) / 6) (fun w => wSatAdd w 15 8 1) u) = t) : exec (.grantLapse id) s = .next t := by
    rw [exec, execGrantLapse, hx, ← ht, hu]
    exact if_neg (not_not.mpr hst)
  cases hclu : admClu x.key with
  | some k =>
    refine ⟨cluUpd k 0x254 (fun w => wSatAdd w 15 8 1) u, hexec _ (by rw [hclu]), ?_, fun j hj => ?_, fun h => absurd h (by simp)⟩
    · rw [txFind_congr (congrArg NetSt.txs (cluUpd_net _ _ _ _)), hfind]
    · obtain rfl := Option.some.inj hj
      have hreg : cluReg u k 0x254 = cluReg s k 0x254 := by rw [cluReg, cluReg, rget, rget, honly.regs rfl]
      rw [← hreg, cluReg, cluUpd, rget_rupd_same]
      exact wFld_wSatAdd_same _ 1 (by decide) (by decide)
  | none =>
    refine ⟨hubStatUpd ((x.key - 30000) / 6) (fun w => wSatAdd w 15 8 1) u, hexec _ (by rw [hclu]), hfind,
      fun j hj => absurd hj (by simp), fun _ => ?_⟩
    rw [← hstat, hubStat, hubStatUpd]
    dsimp only
    rw [stGet_stSet_same]
    exact wFld_wSatAdd_same _ 1 (by decide) (by decide)

theorem retryReissue_sends {id : Nat} {x : NetTx} {s : State} (hx : txFind s id = some x) (hst : x.st = 3 ∨ x.st = 5) :
    ∃ t, exec (.retryReissue id) s = .next t ∧ txFind t id = some { x with st := 1 } ∧ t.regs = s.regs := by
  refine ⟨_, rfl, ?_, rfl⟩
  rw [txFind_txUpd (fun t => by split <;> rfl), if_pos rfl, hx, Option.map_some]
  exact congrArg some (if_pos (by simpa using hst))

end Sys2Proof.Machine
end

section
/-! Transactions of the network: responses, map commits and slot limits (O45). -/

namespace Sys2Proof.Machine

/-! ## Responses (R275) -/

theorem startTrains_none {s : State} (h : s.boot.brgDue = []) : startTrains s = s := by
  rw [startTrains, h]
  rfl

/-- A response has come: its transaction is done, its reservations with it. -/
def received (x : NetTx) (parity : Bool) (s : State) : State :=
  { s with net := { s.net with
    txs := s.net.txs.filter (fun u => u.id != x.id)
    resv := (s.net.resv.map (fun (e : Nat × List Nat) => (e.1, e.2.filter (fun i => i != x.id)))).filter (fun e => !e.2.isEmpty)
    recv := stIns x.port (x.status, if parity then none else x.resp) (stDel s.net.recv x.port) } }

/-- The state in which a response is received: a failed crossing is recorded. -/
def crossed (x : NetTx) (parity : Bool) (s : State) : State :=
  if parity then crossErr (portDie x.port).1 (portDie x.port).2 (if x.part = 64 then none else some x.part) x.addr s else s

theorem respReceive_eq (x : NetTx) (parity : Bool) (s : State) :
    respReceive x parity s = netPump (startTrains (received x parity (crossed x parity s))) := rfl

theorem mem_stIns {α : Type} (k : Nat) (v : α) (st : Store α) : (k, v) ∈ stIns k v st := by
  induction st with
  | nil => exact List.mem_singleton_self _
  | cons e r ih =>
    obtain ⟨i, w⟩ := e
    rw [stIns]
    split
    · exact List.mem_cons_self
    · exact List.mem_cons_of_mem _ ih

theorem recv_of_fixed {m n : NetSt} (h : m.fixed = n.fixed) : m.recv = n.recv := (congrArg NetSt.recv h :)

theorem responseReceive_receives {id : Nat} {parity : Bool} {x : NetTx} {s : State} (hx : txFind s id = some x) (hst : x.st = 6) :
    (respNext s x = false → exec (.responseReceive ⟨id, parity⟩) s = .next s) ∧
    (respNext s x = true → s.boot.brgDue = [] →
      ∃ t, exec (.responseReceive ⟨id, parity⟩) s = .next t ∧ txFind t id = none ∧
        (x.port, (x.status, if parity = true then none else x.resp)) ∈ t.net.recv ∧ t.t1 = s.t1 ∧ t.t2 = s.t2 ∧
        (parity = false → t.cores = s.cores)) := by
  have hexec : exec (.responseReceive ⟨id, parity⟩) s = .next (if x.st = 6 && respNext s x then respReceive x parity s else s) := by
    rw [exec, execResponseReceive, hx]
  have hid := id_of_txFind hx
  subst hid
  rw [hexec, hst]
  refine ⟨fun hnext => congrArg Host.Outcome.next (if_neg (by simp [hnext])), fun hnext hdue => ⟨respReceive x parity s,
    congrArg Host.Outcome.next (if_pos (by simp [hnext])), ?_⟩⟩
  have hcross : Only F.logs s (crossed x parity s) :=
    only_ite (φ := F.logs) (only_crossErr (φ := F.logs) rfl (Only.refl _ _) _ _ _ _) (Only.refl _ _)
  have hreceive : Only F.net (crossed x parity s) (received x parity (crossed x parity s)) :=
    only_with (φ := F.net) (a := F.net) rfl rfl (Only.refl _ _)
  rw [respReceive_eq, startTrains_none ((hreceive.boot rfl).symm ▸ (hcross.boot rfl).symm ▸ hdue)]
  have hsends := netSends_netPump (received x parity (crossed x parity s))
  obtain ⟨hfixed, _, honly, hcores⟩ := hsends
  refine ⟨txFind_none_of_sends (netSends_netPump _) fun y hy => ?_, ?_, ?_, ?_, fun hparity => ?_⟩
  · exact bne_iff_ne.mp (List.mem_filter.mp hy).2
  · rw [recv_of_fixed hfixed]
    exact mem_stIns _ _ _
  · rw [honly.t1 rfl, hreceive.t1 rfl, hcross.t1 rfl]
  · rw [honly.t2 rfl, hreceive.t2 rfl, hcross.t2 rfl]
  · rw [hcores, hreceive.cores rfl, hparity]
    rfl

/-! ## Route tables and map commits (R278, R280) -/

theorem tables_of_fixed {m n : NetSt} (h : m.fixed = n.fixed) : m.xHub = n.xHub ∧ m.xTwr = n.xTwr ∧ m.xPort = n.xPort ∧
    m.oldMaps = n.oldMaps ∧ m.moved = n.moved :=
  ⟨(congrArg NetSt.xHub h :), (congrArg NetSt.xTwr h :), (congrArg NetSt.xPort h :), (congrArg NetSt.oldMaps h :),
    (congrArg NetSt.moved h :)⟩

theorem routeTableLoad_loads {s : State} (hdue : s.boot.brgDue = []) : ∃ t, exec .routeTableLoad s = .next t ∧
    t.net.xHub = dueHub s ∧ t.net.xTwr = dueTwr s ∧ t.net.xPort = duePort s ∧ t.map = s.map ∧ t.t1 = s.t1 ∧ t.parts = s.parts := by
  have hload : Only F.net s (routeLoad s) := only_routeLoad (φ := F.net) rfl (Only.refl _ _)
  obtain ⟨hfixed, _, honly, _⟩ := netSends_netPump (routeLoad s)
  obtain ⟨hhub, htwr, hport, _⟩ := tables_of_fixed hfixed
  refine ⟨netPump (routeLoad s), ?_, hhub, htwr, hport, ?_, ?_, ?_⟩
  · rw [exec, execRouteTableLoad, startTrains_none ((hload.boot rfl).symm ▸ hdue)]
  · rw [honly.map rfl, hload.map rfl]
  · rw [honly.t1 rfl, hload.t1 rfl]
  · rw [honly.parts rfl, hload.parts rfl]

theorem mapCommit_takes (q : Fin 4409) (s : State) :
    (s.net.oldMaps.length ≤ commitsTaken s q → exec (.mapCommit q) s = .next s) ∧
    (commitsTaken s q < s.net.oldMaps.length → ∃ t, exec (.mapCommit q) s = .next t ∧ t.map = s.map ∧ t.t1 = s.t1 ∧
      (let m := stSet (fun _ => 0) s.net.moved q (commitsTaken s q + 1)
       (m.length ≠ 4409 → t.net.oldMaps = s.net.oldMaps ∧ commitsTaken t q = commitsTaken s q + 1) ∧
       (m.length = 4409 → t.net.oldMaps = s.net.oldMaps.drop 1))) := by
  have htake : Only F.net s (takeCommit q s) := only_takeCommit (φ := F.net) rfl (Only.refl _ _) _
  obtain ⟨hfixed, _, honly, _⟩ := netSends_netPump (takeCommit q s)
  obtain ⟨_, _, _, hmaps, hmoved⟩ := tables_of_fixed hfixed
  refine ⟨fun hdone => if_neg (by omega), fun hleft => ⟨netPump (takeCommit q s), if_pos hleft, ?_, ?_, fun hsome => ?_, fun hall => ?_⟩⟩
  · rw [honly.map rfl, htake.map rfl]
  · rw [honly.t1 rfl, htake.t1 rfl]
  · rw [commitsTaken, hmaps, hmoved, takeCommit]
    dsimp only
    rw [if_neg (show ¬(stSet (fun _ => 0) s.net.moved q (commitsTaken s q + 1)).length = nPorts from hsome)]
    exact ⟨rfl, stGet_stSet_same (d := fun _ => 0) s.net.moved q (commitsTaken s q + 1)⟩
  · rw [hmaps, takeCommit]
    dsimp only
    rw [if_pos (show (stSet (fun _ => 0) s.net.moved q (commitsTaken s q + 1)).length = nPorts from hall)]

/-! ## Slot limits of a core's port (R282) -/

theorem otWord_fields (f m w : Nat) : wFld (BitVec.ofNat 32 (otWord f m w)) 15 8 = min f 16 ∧
    wFld (BitVec.ofNat 32 (otWord f m w)) 23 16 = max (min m 64) (min f 16) ∧ wFld (BitVec.ofNat 32 (otWord f m w)) 25 24 = w % 4 := by
  have hfloor : min f 16 ≤ 16 := by omega
  have hmax : max (min m 64) (min f 16) ≤ 64 := by omega
  rw [otWord]
  generalize min f 16 = a at *
  generalize max (min m 64) a = b at *
  refine ⟨?_, ?_, ?_⟩
  · rw [wFld_ofNat _ (by decide) (by decide), fld_eq_div_mod]
    simp only [Nat.reducePow, Nat.reduceAdd, Nat.reduceSub]
    omega
  · rw [wFld_ofNat _ (by decide) (by decide), fld_eq_div_mod]
    simp only [Nat.reducePow, Nat.reduceAdd, Nat.reduceSub]
    omega
  · rw [wFld_ofNat _ (by decide) (by decide), fld_eq_div_mod]
    simp only [Nat.reducePow, Nat.reduceAdd, Nat.reduceSub]
    omega

theorem coreOtWrite_loads (c : Fin 4352) (w : Word) (s : State) :
    (cluLocked s (coreClu c) = true → exec (.coreOtWrite c w) s = .next s) ∧
    (cluLocked s (coreClu c) = false → ∃ t, exec (.coreOtWrite c w) s = .next t ∧ { t with regs := s.regs } = s ∧
      (∀ o, o ≠ otKey c → rget t o = rget s o) ∧ wFld (rget t (otKey c)) 15 8 = min (wFld w 15 8) 16 ∧
      wFld (rget t (otKey c)) 23 16 = max (min (wFld w 23 16) 64) (min (wFld w 15 8) 16) ∧
      wFld (rget t (otKey c)) 25 24 = wFld w 25 24) := by
  have hweight : wFld w 25 24 % 4 = wFld w 25 24 := Nat.mod_eq_of_lt (fld_lt _ 25 24)
  obtain ⟨hfloor, hmax, hw⟩ := otWord_fields (wFld w 15 8) (wFld w 23 16) (wFld w 25 24)
  refine ⟨fun hlocked => congrArg Host.Outcome.next (if_pos hlocked), fun hopen =>
    ⟨rset (otKey c) (BitVec.ofNat 32 (otWord (wFld w 15 8) (wFld w 23 16) (wFld w 25 24))) s, ?_, rset_frame _ _ s,
      fun o ho => rget_rset_other _ _ ho, ?_, ?_, ?_⟩⟩
  · exact congrArg Host.Outcome.next (if_neg (by rw [hopen]; exact Bool.false_ne_true))
  · rw [rget_rset_same, hfloor]
  · rw [rget_rset_same, hmax]
  · rw [rget_rset_same, hw, hweight]

end Sys2Proof.Machine

open Sys2Proof.Machine

/-- Settles O45: a request takes its place or is refused, a target admits it or keeps it a place, grants follow age and weight, and
responses end transactions; tables and commits load, and slot limits are clamped. -/
theorem networkTransactions : Obligations.NetworkTransactions := by
  refine ⟨fun q p addr len nclk data atom n s => requestIssue_effect, fun id key off x l m esc s hx hst => txSend_lost hx hst,
    fun id st r x s hx hst => txSend_refused hx hst, by decide, by decide, by decide, fun id full x s hx hst => targetAdmit_effect hx hst full,
    fun id full x s hx hst => targetAdmit_marks hx hst full, fun x s => performNow_poison s, fun key n x s => grant_serves,
    fun key a b s => ageRank_lt, fun key n x s => grant_grants,
    fun id x s hx hst => ⟨grantLapse_lapses hx hst, retryReissue_sends hx (.inr hst)⟩,
    fun id x s hx hst => retryReissue_sends hx (.inl hst), fun id parity x s => responseReceive_receives,
    fun s => routeTableLoad_loads, mapCommit_takes, coreOtWrite_loads⟩
end

section
/-! The tier-2 scheduler, drift and refresh (O46). -/

namespace Sys2Proof.Machine

/-! ## The candidates of a pair (R240) -/

/-- The sixteen oldest requests of a pair, each with its place. -/
def t2Window (u : T2Pair) : List (Nat × T2Req) := (u.queue.take 16).zipIdx.map (fun e => (e.2, e.1))

/-- Those of them that no older one of the same sector precedes. -/
def t2InOrder (u : T2Pair) : List (Nat × T2Req) :=
  (t2Window u).filter (fun e => !(t2Window u).any (fun x => decide (x.1 < e.1) && x.2.off / 64 == e.2.off / 64))

theorem mem_t2Window {u : T2Pair} {e : Nat × T2Req} : e ∈ t2Window u ↔ e.1 < 16 ∧ u.queue[e.1]? = some e.2 := by
  have hplace : e ∈ t2Window u ↔ (u.queue.take 16)[e.1]? = some e.2 := by
    refine ⟨fun h => ?_, fun h => List.mem_map.mpr ⟨(e.2, e.1), List.mem_zipIdx_iff_getElem?.mpr h, rfl⟩⟩
    obtain ⟨f, hf, rfl⟩ := List.mem_map.mp h
    exact List.mem_zipIdx_iff_getElem?.mp hf
  rw [hplace, List.getElem?_take]
  by_cases h : e.1 < 16
  · simp [h]
  · simp [h]

theorem mem_t2InOrder {u : T2Pair} {e : Nat × T2Req} (h : e ∈ t2InOrder u) : e.1 < 16 ∧ u.queue[e.1]? = some e.2 ∧
    ∀ j x, j < e.1 → u.queue[j]? = some x → x.off / 64 ≠ e.2.off / 64 := by
  obtain ⟨hmem, hfirst⟩ := List.mem_filter.mp h
  obtain ⟨hlt, hget⟩ := mem_t2Window.mp hmem
  refine ⟨hlt, hget, fun j x hj hx hsame => ?_⟩
  rw [Bool.not_eq_true', List.any_eq_false] at hfirst
  refine hfirst (j, x) (mem_t2Window.mpr ⟨by omega, hx⟩) ?_
  rw [Bool.and_eq_true, decide_eq_true_eq, beq_iff_eq]
  exact ⟨hj, hsame⟩

theorem t2Cands_row {u : T2Pair} {r : Nat} (hrow : u.row = some r) : t2Cands u =
    if u.hits < 64 && !((t2InOrder u).filter (fun e => t2Unit e.2.off == r)).isEmpty then
      (t2InOrder u).filter (fun e => t2Unit e.2.off == r) else t2InOrder u := by
  unfold t2Cands
  rw [hrow]
  rfl

theorem t2Cands_closed {u : T2Pair} (hrow : u.row = none) : t2Cands u = t2InOrder u := by
  unfold t2Cands
  rw [hrow]
  rfl

theorem mem_t2Cands {u : T2Pair} {e : Nat × T2Req} (h : e ∈ t2Cands u) : e ∈ t2InOrder u := by
  cases hrow : u.row with
  | none => exact t2Cands_closed hrow ▸ h
  | some r =>
    rw [t2Cands_row hrow] at h
    split at h
    · exact (List.mem_filter.mp h).1
    · exact h

theorem t2Cands_stay {u : T2Pair} {e : Nat × T2Req} {r : Nat} (h : e ∈ t2Cands u) (hrow : u.row = some r) (hhits : u.hits < 64)
    (hhit : ∃ f ∈ t2Cands u, t2Unit f.2.off = r) : t2Unit e.2.off = r := by
  obtain ⟨f, hf, hunit⟩ := hhit
  have hmem : f ∈ (t2InOrder u).filter (fun e => t2Unit e.2.off == r) :=
    List.mem_filter.mpr ⟨mem_t2Cands hf, beq_iff_eq.mpr hunit⟩
  rw [t2Cands_row hrow, if_pos] at h
  · exact beq_iff_eq.mp (List.mem_filter.mp h).2
  · rw [Bool.and_eq_true, decide_eq_true_eq, Bool.not_eq_true', List.isEmpty_eq_false_iff]
    exact ⟨hhits, List.ne_nil_of_mem hmem⟩

theorem t2Cands_sound (u : T2Pair) (e : Nat × T2Req) (h : e ∈ t2Cands u) : e.1 < 16 ∧ u.queue[e.1]? = some e.2 ∧
    (∀ j x, j < e.1 → u.queue[j]? = some x → x.off / 64 ≠ e.2.off / 64) ∧
    (∀ r, u.row = some r → u.hits < 64 → (∃ f ∈ t2Cands u, t2Unit f.2.off = r) → t2Unit e.2.off = r) := by
  obtain ⟨hlt, hget, hfirst⟩ := mem_t2InOrder (mem_t2Cands h)
  exact ⟨hlt, hget, hfirst, fun r => t2Cands_stay h⟩

/-! ## An access (R240) -/

theorem pairGet_pairSet (k : Nat) (v : T2Pair) (s : State) (j : Nat) : pairGet (pairSet k v s) j = if j = k then v else pairGet s j := by
  by_cases hj : j = k
  · rw [if_pos hj, hj]
    exact stGet_stSet_same (d := fun _ => T2Pair.reset) _ _ _
  · rw [if_neg hj]
    exact stGet_stSet_other _ _ _ hj

theorem Only.t2q {m : Nat} {s t : State} (h : Only m s t) (hm : m.testBit 53 = false) : t.t2q = s.t2q := by
  rw [← h, mix, hm, cond_false]

theorem pairGet_of_only {φ : Nat} {s t : State} (h : Only φ s t) (hφ : φ.testBit 53 = false) (k : Nat) : pairGet t k = pairGet s k := by
  rw [pairGet, pairGet, h.t2q hφ]

/-- The state in which an issued request is served: its pair has moved on and the activation is counted. -/
def t2Opened (pair i : Nat) (r : T2Req) (s : State) : State :=
  if (pairGet s pair).row == some (t2Unit r.off) then pairSet pair (t2Issue (pairGet s pair) i r) s
  else tallyHub (t2Hub r.off) 0x0502 1 none (pairSet pair (t2Issue (pairGet s pair) i r) s)

theorem only_t2Opened (pair i : Nat) (r : T2Req) (s : State) : Only (F.t2q ||| F.ctrs) s (t2Opened pair i r s) := by
  have hset : Only (F.t2q ||| F.ctrs) s (pairSet pair (t2Issue (pairGet s pair) i r) s) :=
    only_pairSet (φ := F.t2q ||| F.ctrs) rfl (Only.refl _ _) _ _
  exact only_ite hset (only_tallyHub (φ := F.t2q ||| F.ctrs) rfl hset _ _ _ _)

theorem pairGet_t2Opened (pair i : Nat) (r : T2Req) (s : State) (j : Nat) :
    pairGet (t2Opened pair i r s) j = if j = pair then t2Issue (pairGet s pair) i r else pairGet s j := by
  unfold t2Opened
  split
  · exact pairGet_pairSet _ _ _ _
  · rw [pairGet, tallyHub_t2q]
    exact pairGet_pairSet _ _ _ _

theorem t2Access_serves {pair : Fin 48} {busy : BitVec 16} {err : Fin 4} {i : Nat} {r : T2Req} {s : State}
    (hdue : t2Due (pairGet s pair) = false) (hpick : (t2Cands (pairGet s pair)).find? (fun e => !busy.getLsbD e.1) = some (i, r)) :
    exec (.t2Access pair busy err) s = .next (t2Close r.id (t2Serve r err (t2Opened pair i r s))) := by
  rw [exec, execT2Access]
  refine (if_neg (by rw [hdue]; exact Bool.false_ne_true)).trans ?_
  rw [hpick]
  rfl

theorem t2Issue_row (u : T2Pair) (i : Nat) (r : T2Req) :
    let n := if u.row = some (t2Unit r.off) then u.hits + 1 else 1
    ((n < 64 ∧ ∃ x ∈ (u.queue.eraseIdx i).take 16, t2Unit x.off = t2Unit r.off) →
      (t2Issue u i r).row = some (t2Unit r.off) ∧ (t2Issue u i r).hits = n) ∧
    (¬ (n < 64 ∧ ∃ x ∈ (u.queue.eraseIdx i).take 16, t2Unit x.off = t2Unit r.off) → (t2Issue u i r).row = none) := by
  intro n
  have hn : (if u.row == some (t2Unit r.off) then u.hits + 1 else 1) = n := by
    simp only [n, beq_iff_eq]
  have hopen : (decide (n < 64) && ((u.queue.eraseIdx i).take 16).any (fun x => t2Unit x.off == t2Unit r.off)) = true ↔
      (n < 64 ∧ ∃ x ∈ (u.queue.eraseIdx i).take 16, t2Unit x.off = t2Unit r.off) := by
    simp only [Bool.and_eq_true, decide_eq_true_eq, List.any_eq_true, beq_iff_eq]
  unfold t2Issue
  dsimp only
  rw [hn]
  exact ⟨fun h => ⟨if_pos (hopen.mpr h), if_pos (hopen.mpr h)⟩, fun h => if_neg fun hb => h (hopen.mp hb)⟩

/-- A request that reads is served with counts and error records alone. -/
theorem only_t2Serve_reads {r : T2Req} (err : Nat) (s : State) (hdata : r.data = none) :
    Only (F.logs ||| F.net) s (t2Serve r err s) := by
  have hstart (part : Option Nat) : Only (F.logs ||| F.net) s (if err = 1 then t2Corrected r.off part s else s) :=
    only_ite (only_t2Corrected (φ := F.logs ||| F.net) rfl (Only.refl _ _) _ _) (Only.refl _ _)
  have hread (part : Option Nat) (tx : Option Tx) : Only (F.logs ||| F.net) s
      (t2Read r.off r.len tx (if err = 1 then t2Corrected r.off part s else s)).2 :=
    only_t2Read (φ := F.logs ||| F.net) rfl (hstart part) _ _ _
  have hpoison (part : Option Nat) {u : State} (h : Only (F.logs ||| F.net) s u) : Only (F.logs ||| F.net) s (t2Poisoned r.off part u) :=
    only_t2Poisoned (φ := F.logs ||| F.net) rfl h _ _
  have hupd (f : NetTx → NetTx) {u : State} (h : Only (F.logs ||| F.net) s u) : Only (F.logs ||| F.net) s (txUpd r.id f u) :=
    only_txUpd (φ := F.logs ||| F.net) rfl h _ _
  unfold t2Serve
  rw [hdata]
  dsimp only
  exact only_ite (hupd _ (hread _ _))
    (only_ite (hupd _ (only_ite (only_crossErr (φ := F.logs ||| F.net) rfl (hread _ _) _ _ _ _) (hpoison _ (hread _ _))))
      (only_ite (hupd _ (hpoison _ (hread _ _))) (hupd _ (hread _ _))))

theorem t2Serve_writes {r : T2Req} {err : Nat} {d : List Byte} {s : State} (hdata : r.data = some d) (herr : err < 2)
    (hclean : (txFind s r.id).any (fun x => x.poison) = false) : (t2Serve r err s).t2 = memWrite s.t2 r.off d := by
  have hcorrected (part : Option Nat) : Only F.logs s (if err = 1 then t2Corrected r.off part s else s) :=
    only_ite (φ := F.logs) (only_t2Corrected (φ := F.logs) rfl (Only.refl _ _) _ _) (Only.refl _ _)
  unfold t2Serve
  rw [hdata]
  dsimp only
  refine (congrArg State.t2 (if_neg ?_)).trans ((congrArg State.t2 (if_neg (by omega))).trans ?_)
  · rw [txFind_congr (congrArg NetSt.txs ((hcorrected _).net rfl)), hclean]
    exact Bool.false_ne_true
  · rw [t2Write, tallyHub_t2]
    dsimp only
    rw [(hcorrected _).t2 rfl]

theorem t2Serve_fails {r : T2Req} {err : Nat} {d : List Byte} {s : State} (hdata : r.data = some d) (herr : 2 ≤ err) :
    nsHas (t2Serve r err s).t2poison (r.off / 64) = true ∧ (t2Serve r err s).t2 = s.t2 := by
  have hself : (if err = 1 then t2Corrected r.off ((txFind s r.id).bind (fun t => if t.part = 64 then none else some t.part)) s else s) = s :=
    if_neg (by omega)
  have hlost (part : Option Nat) : (if err = 3 then crossErr (srcIndex 1 (t2Hub r.off)) (t2Hub r.off) part
      (2 ^ 44 + r.off) s else t2Poisoned r.off part s).t2 = s.t2 := by
    split
    · rw [(only_crossErr (φ := F.logs) rfl (Only.refl _ s) _ _ _ _).t2 rfl]
    · rw [(only_t2Poisoned (φ := F.logs) rfl (Only.refl _ s) _ _).t2 rfl]
  have hmark (l : NatSet) : nsHas (nsAdd l (r.off / 64)) (r.off / 64) = true := by
    rw [nsHas_nsAdd, beq_self_eq_true, Bool.true_or]
  unfold t2Serve
  rw [hdata]
  dsimp only
  rw [hself]
  by_cases hpoison : (txFind s r.id).any (fun x => x.poison) = true
  · rw [if_pos hpoison]
    exact ⟨hmark _, rfl⟩
  · rw [if_neg hpoison, if_pos herr]
    exact ⟨hmark _, hlost _⟩

theorem only_t2Closed (id : Nat) (s : State) : Only F.net s (t2Close id s) := only_t2Close (φ := F.net) rfl (Only.refl _ _) _

theorem t2Access_effect (pair : Fin 48) (busy : BitVec 16) (err : Fin 4) (i : Nat) (r : T2Req) (s : State)
    (hdue : t2Due (pairGet s pair) = false) (hpick : (t2Cands (pairGet s pair)).find? (fun e => !busy.getLsbD e.1) = some (i, r)) :
    ∃ t, exec (.t2Access pair busy err) s = .next t ∧
      (pairGet t pair).queue = (pairGet s pair).queue.eraseIdx i ∧
      (let n := if (pairGet s pair).row = some (t2Unit r.off) then (pairGet s pair).hits + 1 else 1
       ((n < 64 ∧ ∃ x ∈ ((pairGet s pair).queue.eraseIdx i).take 16, t2Unit x.off = t2Unit r.off) →
          (pairGet t pair).row = some (t2Unit r.off) ∧ (pairGet t pair).hits = n) ∧
       (¬ (n < 64 ∧ ∃ x ∈ ((pairGet s pair).queue.eraseIdx i).take 16, t2Unit x.off = t2Unit r.off) →
          (pairGet t pair).row = none)) ∧
      (∀ j, j ≠ pair.val → pairGet t j = pairGet s j) ∧ t.t1 = s.t1 ∧
      (r.data = none → t.t2 = s.t2) ∧
      (∀ d, r.data = some d → err.val < 2 → (txFind s r.id).any (fun x => x.poison) = false → memRead t.t2 r.off d.length = d ∧
        ∀ a, a < r.off ∨ r.off + d.length ≤ a → memGet t.t2 a = memGet s.t2 a) ∧
      (∀ d, r.data = some d → 2 ≤ err.val → nsHas t.t2poison (r.off / 64) = true ∧ t.t2 = s.t2) := by
  have hserve := only_t2Serve (φ := F.logs ||| F.t2 ||| F.net ||| F.t2poison) rfl (Only.refl _ (t2Opened pair i r s)) r err
  have hclose := only_t2Closed r.id (t2Serve r err (t2Opened pair i r s))
  have hopen := only_t2Opened pair i r s
  have hpair (j : Nat) : pairGet (t2Close r.id (t2Serve r err (t2Opened pair i r s))) j =
      if j = pair.val then t2Issue (pairGet s pair) i r else pairGet s j := by
    rw [pairGet_of_only hclose rfl, pairGet_of_only hserve rfl, pairGet_t2Opened]
  have hown := (hpair pair).trans (if_pos rfl)
  have ht2 : (t2Close r.id (t2Serve r err (t2Opened pair i r s))).t2 = (t2Serve r err (t2Opened pair i r s)).t2 := hclose.t2 rfl
  refine ⟨_, t2Access_serves hdue hpick, ?_, ?_, fun j hj => (hpair j).trans (if_neg hj), ?_, fun hdata => ?_,
    fun d hdata herr hclean => ?_, fun d hdata herr => ?_⟩
  · rw [hown]
    rfl
  · rw [hown]
    exact t2Issue_row _ _ _
  · rw [hclose.t1 rfl, hserve.t1 rfl, hopen.t1 rfl]
  · rw [ht2, (only_t2Serve_reads err _ hdata).t2 rfl, hopen.t2 rfl]
  · have hclean' : (txFind (t2Opened pair i r s) r.id).any (fun x => x.poison) = false := by
      rw [txFind_congr (congrArg NetSt.txs (hopen.net rfl)), hclean]
    rw [ht2, t2Serve_writes hdata herr hclean', hopen.t2 rfl]
    exact ⟨memRead_memWrite _ _ _, fun a ha => memGet_memWrite_other _ _ _ _ ha⟩
  · obtain ⟨hmark, hsame⟩ := t2Serve_fails (s := t2Opened pair i r s) hdata herr
    rw [ht2, hclose.t2poison rfl, hsame, hopen.t2 rfl]
    exact ⟨hmark, rfl⟩

theorem t2Access_waits {pair : Fin 48} {busy : BitVec 16} {s : State}
    (hnone : (t2Cands (pairGet s pair)).find? (fun e => !busy.getLsbD e.1) = none) : exec (.t2Access pair busy 0) s = .next s := by
  rw [exec, execT2Access]
  dsimp only
  split
  · rfl
  · rw [hnone]
    exact congrArg Host.Outcome.next (if_pos rfl)

/-! ## A link that has failed (log entry 201) -/

/-- One 4 KiB unit of an access over the links. -/
def t2LinkStep (off : Nat) (part : Option Nat) (a : List Nat × State) (i : Nat) : List Nat × State :=
  let o := max off (4096 * (off / 4096 + i))
  let u := pairGet a.2 (t2Key o)
  if u.link = 0 then a
  else
    let s := pairSet (t2Key o) { u with link := 0 } a.2
    if u.link = 1 then (a.1, t2Corrected o part s) else (a.1 ++ [o], t2Poisoned o part s)

theorem t2Link_eq (off n : Nat) (part : Option Nat) (s : State) : t2Link off n part s =
    (List.range ((off + n + 4095) / 4096 - off / 4096)).foldl (t2LinkStep off part) ([], s) := rfl

theorem pairGet_t2Corrected (off : Nat) (part : Option Nat) (s : State) (k : Nat) : pairGet (t2Corrected off part s) k = pairGet s k :=
  pairGet_of_only (only_t2Corrected (φ := F.logs) rfl (Only.refl _ s) _ _) rfl k

theorem pairGet_t2Poisoned (off : Nat) (part : Option Nat) (s : State) (k : Nat) : pairGet (t2Poisoned off part s) k = pairGet s k :=
  pairGet_of_only (only_t2Poisoned (φ := F.logs) rfl (Only.refl _ s) _ _) rfl k

/-- A failed access has been noted and the link of pair `k` is clean. -/
def linkFailed (k : Nat) (a : List Nat × State) : Prop := a.1 ≠ [] ∧ (pairGet a.2 k).link = 0

theorem linkFailed_step {k off i : Nat} {part : Option Nat} {a : List Nat × State} (h : linkFailed k a) :
    linkFailed k (t2LinkStep off part a i) := by
  obtain ⟨hnote, hlink⟩ := h
  have hset (j : Nat) : (pairGet (pairSet j { pairGet a.2 j with link := 0 } a.2) k).link = 0 := by
    rw [pairGet_pairSet]
    split
    · rfl
    · exact hlink
  unfold t2LinkStep
  dsimp only
  split
  · exact ⟨hnote, hlink⟩
  · split
    · exact ⟨hnote, (congrArg T2Pair.link (pairGet_t2Corrected _ _ _ _)).trans (hset _)⟩
    · exact ⟨List.append_ne_nil_of_left_ne_nil hnote _, (congrArg T2Pair.link (pairGet_t2Poisoned _ _ _ _)).trans (hset _)⟩

theorem linkFailed_t2Link {off n : Nat} {part : Option Nat} {s : State} (hn : 0 < n) (hlink : (pairGet s (t2Key off)).link = 2) :
    linkFailed (t2Key off) (t2Link off n part s) := by
  obtain ⟨m, hm⟩ : ∃ m, (off + n + 4095) / 4096 - off / 4096 = m + 1 :=
    ⟨(off + n + 4095) / 4096 - off / 4096 - 1, by omega⟩
  have hfirst : linkFailed (t2Key off) (t2LinkStep off part ([], s) 0) := by
    unfold t2LinkStep
    dsimp only
    rw [show max off (4096 * (off / 4096 + 0)) = off by omega, hlink, if_neg (by decide), if_neg (by decide)]
    refine ⟨by simp, ?_⟩
    rw [pairGet_t2Poisoned, pairGet_pairSet, if_pos rfl]
  rw [t2Link_eq, hm, List.range_succ_eq_map, List.foldl_cons]
  exact List.foldlRecOn (motive := linkFailed (t2Key off)) _ _ hfirst fun a ha i _ => linkFailed_step ha

theorem t2Load_fails {off n : Nat} {tx : Option Tx} {s : State} (hn : 0 < n) (hlink : (pairGet s (t2Key off)).link = 2) :
    (t2Load off n tx s).1 = none ∧ (pairGet (t2Load off n tx s).2 (t2Key off)).link = 0 := by
  obtain ⟨hnote, hclean⟩ := linkFailed_t2Link (part := tx.map (fun t => t.part)) hn hlink
  unfold t2Load
  dsimp only
  generalize t2Link off n (tx.map (fun t => t.part)) s = a at hnote hclean
  obtain ⟨ue, v⟩ := a
  have hread := only_t2Read (φ := F.ctrs) rfl (Only.refl _ v) off n tx
  have hkeep : (pairGet (t2Read off n tx v).2 (t2Key off)).link = 0 := by rw [pairGet_of_only hread rfl]; exact hclean
  dsimp only
  split
  · exact ⟨rfl, (congrArg T2Pair.link (pairGet_t2Poisoned _ _ _ _)).trans hkeep⟩
  · rw [if_neg (by rw [List.isEmpty_eq_false_iff.mpr hnote]; exact Bool.false_ne_true)]
    exact ⟨rfl, hkeep⟩

/-! ## Drift and refresh (R241, R242) -/

/-- The drift of a pair after a check: trained away where it is too large. -/
def driftChecked (d : Nat) (u : T2Pair) : T2Pair := { u with drift := if 1 < d then 0 else d }

theorem t2DriftCheck_trains {pkg : Fin 24} {drift : List Nat} {s : State} (hhere : quarterAbsent s (pkg.val / 6) = false) :
    ∃ t, exec (.t2DriftCheck pkg drift) s = .next t ∧ { t with t2q := s.t2q } = s ∧
      (∀ i, i < 2 → pairGet t (2 * pkg + i) =
        { pairGet s (2 * pkg + i) with drift := if 1 < listAt drift i 0 then 0 else listAt drift i 0 }) ∧
      (∀ k, k / 2 ≠ pkg.val → pairGet t k = pairGet s k) := by
  obtain ⟨a, ha⟩ : ∃ a, a = pairSet (2 * pkg.val) (driftChecked (listAt drift 0 0) (pairGet s (2 * pkg.val))) s := ⟨_, rfl⟩
  have hexec : exec (.t2DriftCheck pkg drift) s =
      .next (pairSet (2 * pkg.val + 1) (driftChecked (listAt drift 1 0) (pairGet a (2 * pkg.val + 1))) a) := by
    rw [exec, execT2DriftCheck, ha]
    exact if_neg (by rw [hhere]; exact Bool.false_ne_true)
  refine ⟨_, hexec, by rw [ha]; rfl, fun i hi => ?_, fun k hk => ?_⟩
  · rw [pairGet_pairSet, ha]
    rcases (by omega : i = 0 ∨ i = 1) with rfl | rfl
    · rw [if_neg (by omega), pairGet_pairSet, if_pos (by omega)]
      rfl
    · rw [if_pos rfl, pairGet_pairSet, if_neg (by omega)]
      rfl
  · rw [pairGet_pairSet, if_neg (by omega), ha, pairGet_pairSet, if_neg (by omega)]

/-- A pair after one of its refreshes. -/
def t2Refreshed (u : T2Pair) : T2Pair :=
  { u with
    refBank := (u.refBank + 1) % 16
    row := if u.row.any (fun w => unitBank w == u.refBank) then none else u.row
    hits := if u.row.any (fun w => unitBank w == u.refBank) then 0 else u.hits }

theorem tallyHub_pairSet_frame (h evt n k : Nat) (tx : Option Tx) (v : T2Pair) (s : State) :
    { tallyHub h evt n tx (pairSet k v s) with t2q := s.t2q, ctrs := s.ctrs } = s := by
  rw [tallyHub_eq]
  rfl

theorem t2Refresh_refreshes {pair : Fin 48} {s : State} (hhere : hubAbsent s (pair.val / 12) = false) :
    ∃ t, exec (.t2Refresh pair) s = .next t ∧ (pairGet t pair).refBank = ((pairGet s pair).refBank + 1) % 16 ∧
      (pairGet t pair).queue = (pairGet s pair).queue ∧
      ((pairGet s pair).row.map unitBank = some (pairGet s pair).refBank → (pairGet t pair).row = none) ∧
      ((pairGet s pair).row.map unitBank ≠ some (pairGet s pair).refBank → (pairGet t pair).row = (pairGet s pair).row) ∧
      (∀ k, k ≠ pair.val → pairGet t k = pairGet s k) ∧ { t with t2q := s.t2q, ctrs := s.ctrs } = s := by
  have hcloses (u : T2Pair) : u.row.any (fun w => unitBank w == u.refBank) = true ↔ u.row.map unitBank = some u.refBank := by
    cases u.row with
    | none => simp
    | some w => simp
  have hpair (j : Nat) : pairGet (tallyHub (pair.val / 12) 0x0503 1 none (pairSet pair (t2Refreshed (pairGet s pair)) s)) j =
      if j = pair.val then t2Refreshed (pairGet s pair) else pairGet s j := by
    rw [pairGet, tallyHub_t2q]
    exact pairGet_pairSet _ _ _ _
  have hown := (hpair pair).trans (if_pos rfl)
  refine ⟨tallyHub (pair.val / 12) 0x0503 1 none (pairSet pair (t2Refreshed (pairGet s pair)) s), ?_, ?_, ?_, fun h => ?_, fun h => ?_,
    fun k hk => (hpair k).trans (if_neg hk), tallyHub_pairSet_frame _ _ _ _ _ _ s⟩
  · rw [exec, execT2Refresh]
    exact if_neg (by rw [hhere]; exact Bool.false_ne_true)
  · rw [hown, t2Refreshed]
  · rw [hown, t2Refreshed]
  · rw [hown]
    exact if_pos ((hcloses _).mpr h)
  · rw [hown]
    exact if_neg fun hb => h ((hcloses _).mp hb)

end Sys2Proof.Machine

open Sys2Proof.Machine

/-- Settles O46: the scheduler picks among the oldest in order and keeps a row open, a failed link poisons the next access, drift is
trained away and refresh takes the banks in turn. -/
theorem tierTwoScheduler : Obligations.TierTwoScheduler :=
  ⟨t2Cands_sound, t2Access_effect, fun _ _ _ => t2Access_waits, fun _ _ _ _ => t2Load_fails, fun _ _ _ => t2DriftCheck_trains,
    fun _ _ => t2Refresh_refreshes⟩
end

section
/-! A patrol scrub over a link that answers the third error code (O48). -/

namespace Sys2Proof.Machine

/-- A unit whose link fails beyond correction is reported as poisoned, for every code past 1. -/
theorem t2Link_unit {u : Nat} {part : Option Nat} {s : State} (h : 1 < (pairGet s (t2Key (4096 * u))).link) :
    (t2Link (4096 * u) 4096 part s).1 = [4096 * u] := by
  have hone : (4096 * u + 4096 + 4095) / 4096 - 4096 * u / 4096 = 1 := by omega
  have hoff : max (4096 * u) (4096 * (4096 * u / 4096 + 0)) = 4096 * u := by omega
  rw [t2Link_eq, hone]
  simp only [List.range_one, List.foldl_cons, List.foldl_nil, t2LinkStep, hoff]
  rw [if_neg (by omega), if_neg (by omega)]
  rfl

/-- The state with the blocks that a link lost poisoned. -/
def linkLost (a : List Nat × State) : State := { a.2 with t2poison := a.1.foldl (fun l o => nsAdd l (o / 64)) a.2.t2poison }

/-- The poison of tier 2 after a scrub is what it was and what the link lost. -/
theorem scrubUnit_poison (u : Nat) (s : State) : (scrubUnit u s).t2poison = (linkLost (t2Link (4096 * u) 4096 none s)).t2poison := by
  refine Only.t2poison (m := F.logs) ?_ rfl
  generalize hoff : 4096 * u = off
  rw [scrubUnit, hoff]
  split
  rename_i hr
  rw [hr]
  exact only_tallyHub (φ := F.logs) rfl (only_tallyHub (φ := F.logs) rfl
      (only_foldl (φ := F.logs) (fun _ _ k => only_logErr (φ := F.logs) rfl k _) (Only.refl _ _)) _ _ _ _) _ _ _ _

/-- A scrub of a unit whose link answers a code past 1 marks the unit's first block. -/
theorem scrubUnit_marks {u : Nat} {s : State} (h : 1 < (pairGet s (t2Key (4096 * u))).link) :
    nsHas (scrubUnit u s).t2poison (4096 * u / 64) = true := by
  rw [scrubUnit_poison, linkLost, t2Link_unit h, List.foldl_cons, List.foldl_nil, nsHas_nsAdd, beq_self_eq_true, Bool.true_or]

/-- The reset state with the error code 3 of an access waiting at the first pair. -/
def linkCodeThree : State := pairSet 0 { T2Pair.reset with link := 3 } State.reset

theorem linkCodeThree_scrubbed : nsHas (mntStep 2 0 0 (scrubUnit 0 (t2Took 0 linkCodeThree))).t2poison 0 = true := by
  have hlink : 1 < (pairGet (t2Took 0 linkCodeThree) (t2Key (4096 * 0))).link := by decide
  rw [(only_mntStep (φ := F.mnt) rfl (Only.refl _ _) _ _ _).t2poison rfl]
  exact scrubUnit_marks hlink

end Sys2Proof.Machine

open Sys2Proof.Machine

/-- Refutes O48: an access can leave the error code 3 at its pair, and the scrub that meets it poisons its unit, not only at code 2. -/
theorem not_maintenanceSteps : ¬ Obligations.MaintenanceSteps := by
  intro h
  obtain ⟨-, -, hscrub, -⟩ := h
  obtain ⟨-, hslot⟩ := hscrub 0 linkCodeThree (by decide) (by decide)
  obtain ⟨t, -, rfl, -, hpoison⟩ := hslot (by decide)
  have hkept : (mntStep 2 0 0 (scrubUnit 0 (t2Took 0 linkCodeThree))).t2poison = linkCodeThree.t2poison := hpoison (by decide)
  have hmark : nsHas linkCodeThree.t2poison 0 = true := hkept ▸ linkCodeThree_scrubbed
  exact absurd hmark (by decide)
end

section
/-! The lane functions of the vector engine (O12). -/

namespace Sys2Proof.Machine

/-! ## Vector registers -/

theorem vGet_vPut (r l w : Nat) (mark : Bool) (v : VxeSt) (r' l' : Nat) :
    vGet (vPut r l w mark v) r' l' = if r' * 64 + l' = r * 64 + l then w % 2 ^ 32 else vGet v r' l' := by
  unfold vGet vPut
  rw [stGet_stSet]
  split
  · exact BitVec.toNat_ofNat _ _
  · rfl

/-- The first `n` lanes of a register written. -/
theorem vGet_foldl_vPut (r n : Nat) (f : Nat → Nat × Bool) (v : VxeSt) (hn : n ≤ 64) (r' : Nat) {k : Nat} (hk : k < 64) :
    vGet ((List.range n).foldl (fun v i => vPut r i (f i).1 (f i).2 v) v) r' k =
      if r' = r ∧ k < n then (f k).1 % 2 ^ 32 else vGet v r' k := by
  induction n with
  | zero => simp
  | succ n ih =>
    rw [List.range_succ, List.foldl_append, List.foldl_cons, List.foldl_nil, vGet_vPut, ih (by omega)]
    by_cases hlane : r' * 64 + k = r * 64 + n
    · obtain rfl : k = n := by omega
      rw [if_pos hlane, if_pos ⟨by omega, by omega⟩]
    · rw [if_neg hlane]
      by_cases hin : r' = r ∧ k < n
      · rw [if_pos hin, if_pos ⟨hin.1, by omega⟩]
      · rw [if_neg hin, if_neg (by omega)]

theorem vGet_vPutAll (r : Nat) (f : Nat → Nat × Bool) (v : VxeSt) (r' : Nat) {k : Nat} (hk : k < 64) :
    vGet (vPutAll r f v) r' k = if r' = r then (f k).1 % 2 ^ 32 else vGet v r' k := by
  rw [vPutAll, vGet_foldl_vPut r 64 f v (Nat.le_refl _) r' hk]
  exact if_congr ⟨fun h => h.1, fun h => ⟨h, hk⟩⟩ rfl rfl

theorem vPutAll_queue (r : Nat) (f : Nat → Nat × Bool) (v : VxeSt) : (vPutAll r f v).queue = v.queue :=
  List.foldlRecOn (motive := fun u : VxeSt => u.queue = v.queue) _ _ rfl fun _ hu _ _ => hu

/-! ## What a performed command leaves -/

theorem onlyCores_of_only {u t : State} (h : Only (F.regs ||| F.cores ||| F.ctrs) u t) : onlyCores u t := by
  rw [onlyCores, ← h]
  rfl

theorem tkTake_cores (c k : Nat) (s : State) : (tkTake c k s).cores = s.cores :=
  (only_tkTake (φ := F.regs) rfl (Only.refl _ _) _ _).cores rfl

theorem tkGet_tkTake {c k : Nat} {s : State} (hk : k ≠ 0) : tkGet (tkTake c k s) c k = tkGet s c k - 1 := by
  rw [tkTake, if_neg hk]
  exact tkGet_tkPut_same s (le_trans (Nat.sub_le _ _) (tkGet_le s c k))

theorem rget_tkTake_other {c k o : Nat} (s : State) (ho : o ≠ tkKey c k) : rget (tkTake c k s) o = rget s o := by
  unfold tkTake
  split
  · rfl
  · exact rget_rset_other _ _ ho

theorem cget_vxupd_same (c : Nat) (f : VxeSt → VxeSt) (s : State) : cget (vxupd c f s) c = { cget s c with vxe := f (cget s c).vxe } :=
  cget_cupd_same _ _ _

theorem cget_vxupd_other {c k : Nat} (f : VxeSt → VxeSt) (s : State) (hk : k ≠ c) : cget (vxupd c f s) k = cget s k :=
  cget_cupd_other _ _ hk

theorem cget_vxDone_same (c i : Nat) (q : VxeCmd) (poison : Bool) (s : State) : cget (vxDone c i q poison s) c =
    { cget s c with vxe := { (cget s c).vxe with
      queue := (cget s c).vxe.queue.modify i (fun q => { q with performed := true, poison := poison }) } } := by
  rw [vxDone, cget, tkTake_cores]
  exact cget_vxupd_same _ _ _

theorem cget_vxDone_other {c k i : Nat} (q : VxeCmd) (poison : Bool) (s : State) (hk : k ≠ c) :
    cget (vxDone c i q poison s) k = cget s k := by
  rw [vxDone, cget, tkTake_cores]
  exact cget_vxupd_other _ _ hk

/-- A command that wrote its lanes on state `u`, and at most COR_VXE_NUM besides, is performed. -/
theorem vxDone_vxeDone {c i : Nat} {q : VxeCmd} {poison : Bool} {put : Nat → Nat × Bool} {lane : Nat → Nat} {u w : State}
    (hcores : w.cores = (vxupd c (vPutAll (vxVD q.w0) put) u).cores) (hregs : ∀ o, o ≠ coreBase c + 0x300 → rget w o = rget u o)
    (honly : Only (F.regs ||| F.cores) u w) (hlane : ∀ k, k < 64 → (put k).1 = lane k) :
    vxeDone c i q lane u (vxDone c i q poison w) := by
  have hput (k : Nat) : cget w k = cget (vxupd c (vPutAll (vxVD q.w0) put) u) k := by rw [cget, hcores, cget]
  have hself : cget (vxDone c i q poison w) c = { cget u c with vxe := { vPutAll (vxVD q.w0) put (cget u c).vxe with
      queue := (cget u c).vxe.queue.modify i (fun q => { q with performed := true, poison := poison }) } } := by
    rw [cget_vxDone_same, hput, cget_vxupd_same, vPutAll_queue]
  have htw : tkKey c (cmdTW q.w0) ≠ coreBase c + 0x300 := by
    have hlt : cmdTW q.w0 < 16 := fld_lt _ _ _
    unfold tkKey
    omega
  refine ⟨fun k hk => ?_, fun r k hk hr => ?_, ⟨poison, ?_⟩, ?_, fun k hk => ?_, fun o h300 htk => ?_, fun htw0 => ?_, ?_⟩
  · rw [hself, ← hlane k hk]
    exact (vGet_vPutAll _ _ _ _ hk).trans (if_pos rfl)
  · rw [hself]
    exact (vGet_vPutAll _ _ _ _ hk).trans (if_neg hr)
  · rw [hself]
  · rw [hself]
  · rw [cget_vxDone_other _ _ _ hk, hput, cget_vxupd_other _ _ hk]
  · exact (rget_tkTake_other _ htk).trans (hregs o h300)
  · exact (tkGet_tkTake htw0).trans (by rw [tkGet, tkGet]; exact congrArg (fun w : Word => wFld w 15 0 - 1) (hregs _ htw))
  · exact onlyCores_of_only (only_vxDone (φ := F.regs ||| F.cores ||| F.ctrs) rfl (Only.mono honly rfl) _ _ _ _)

theorem vxNum_cores (c nan sclamp sat cvt : Nat) (s : State) : (vxNum c nan sclamp sat cvt s).cores = s.cores :=
  (only_vxNum (φ := F.regs) rfl (Only.refl _ _) _ _ _ _ _).cores rfl

/-- The lanes of a command written, its events counted and the command performed. -/
theorem vxDone_counted {c i : Nat} {q : VxeCmd} {poison : Bool} {put : Nat → Nat × Bool} {lane : Nat → Nat} {nan sclamp sat cvt : Nat}
    {u : State} (hlane : ∀ k, k < 64 → (put k).1 = lane k) :
    vxeDone c i q lane u (vxDone c i q poison (vxNum c nan sclamp sat cvt (vxupd c (vPutAll (vxVD q.w0) put) u))) :=
  vxDone_vxeDone (vxNum_cores _ _ _ _ _ _) (fun _ ho => (rget_rupd _ _ _ _).trans (if_neg ho))
    (only_vxNum (φ := F.regs ||| F.cores) rfl (only_vxupd (φ := F.regs ||| F.cores) rfl (Only.refl _ _) _ _) _ _ _ _ _) hlane

/-- The lanes of a command written and the command performed. -/
theorem vxDone_written {c i : Nat} {q : VxeCmd} {poison : Bool} {put : Nat → Nat × Bool} {lane : Nat → Nat} {u : State}
    (hlane : ∀ k, k < 64 → (put k).1 = lane k) :
    vxeDone c i q lane u (vxDone c i q poison (vxupd c (vPutAll (vxVD q.w0) put) u)) :=
  vxDone_vxeDone rfl (fun _ _ => rfl) (only_vxupd (φ := F.regs ||| F.cores) rfl (Only.refl _ _) _ _) hlane

/-! ## ALU and SFU functions -/

/-- The result of an ALU or SFU command in lane `k`. -/
def vxRes (op fn w0 w1 : Nat) (v : VxeSt) (k : Nat) : LaneRes :=
  if op = 3 then
    onLane (vxBF w0) (laneAlu fp32 fn) (laneAlu bf16 fn) (vGet v (vxVA w0) k)
      (if vxSB w0 && op = 3 then fld w1 31 0 else vGet v (vxVB w0) k) (vGet v (vxVC w0) k)
  else onLane (vxBF w0) (fun a _ _ => laneSfu fn a) (fun a _ _ => laneSfuBf fn a) (vGet v (vxVA w0) k) 0 0

theorem vxLanes_done {c op fn n : Nat} {q : VxeCmd} {s : State} (h : vxNext s c op fn = some (n, q)) :
    vxeDone c n q (fun k => (vxRes op fn q.w0 q.w1 (cget s c).vxe k).code) s (vxLanes c op fn s) := by
  rw [vxLanes, h]
  refine vxDone_counted fun k hk => ?_
  simp only [listAt, List.getD_eq_getElem?_getD, List.getElem?_map, List.getElem?_range hk, Option.map_some, Option.getD_some]
  rfl

theorem vxeOp_of_lanes {i : Fin 4352 → Instr} {op fn : Nat} {lane : Nat → Nat → VxeSt → Nat → Nat}
    (hexec : ∀ c s, exec (i c) s = .next (vxLanes c op fn s)) (hlane : ∀ w0 w1 v k, (vxRes op fn w0 w1 v k).code = lane w0 w1 v k) :
    vxeOp i op fn lane := fun c n q s h => by
  have hdone := vxLanes_done h
  simp only [hlane] at hdone
  exact ⟨_, hexec c s, hdone⟩

theorem vxeB_eq (w0 w1 : Nat) (v : VxeSt) (k : Nat) :
    (if vxSB w0 && decide (3 = 3) then fld w1 31 0 else vGet v (vxVB w0) k) = vxeB w0 w1 v k := by
  rw [vxeB, decide_eq_true rfl, Bool.and_true]
  rfl

theorem vxRes_alu (fn w0 w1 : Nat) (v : VxeSt) (k : Nat) : vxRes 3 fn w0 w1 v k =
    onLane (vxBF w0) (laneAlu fp32 fn) (laneAlu bf16 fn) (vGet v (vxVA w0) k) (vxeB w0 w1 v k) (vGet v (vxVC w0) k) := by
  rw [vxRes, if_pos rfl, vxeB_eq]

theorem vxeAlu_of_lanes {i : Fin 4352 → Instr} {fn : Nat} (hexec : ∀ c s, exec (i c) s = .next (vxLanes c 3 fn s)) : vxeAlu i fn :=
  vxeOp_of_lanes hexec fun w0 w1 v k => by rw [vxRes_alu]

theorem vxeSfu_of_lanes {i : Fin 4352 → Instr} {fn : Nat} (hexec : ∀ c s, exec (i c) s = .next (vxLanes c 4 fn s)) : vxeSfu i fn :=
  vxeOp_of_lanes hexec fun w0 w1 v k => by rw [vxRes, if_neg (by decide)]

/-- A code is a zero when nothing but its sign may be set. -/
theorem isZero_flDecode (f : FlFmt) (x : Nat) : (flDecode f x).isZero = decide (x % 2 ^ (f.eb + f.mb) = 0) := by
  unfold flDecode
  generalize hc : x % 2 ^ (f.eb + f.mb) = y
  have hparts : 2 ^ f.mb * (y / 2 ^ f.mb) + y % 2 ^ f.mb = y := Nat.div_add_mod _ _
  have hpos : 0 < 2 ^ f.mb := Nat.two_pow_pos _
  dsimp only
  split
  next hbig =>
    have hne : y ≠ 0 := by omega
    rw [show decide (y = 0) = false from decide_eq_false hne]
    split <;> rfl
  next =>
    split
    next hex =>
      rw [hex, Nat.mul_zero, Nat.zero_add] at hparts
      rw [hparts]
      cases y with
      | zero => rfl
      | succ n => rfl
    next hex =>
      have hne : y ≠ 0 := fun h => hex (by rw [h, Nat.zero_div])
      rw [show decide (y = 0) = false from decide_eq_false hne]
      obtain ⟨m, hm⟩ := Nat.exists_eq_succ_of_ne_zero (show y % 2 ^ f.mb + 2 ^ f.mb ≠ 0 by omega)
      rw [hm]
      rfl

theorem laneAlu_select (f : FlFmt) (a b x : Nat) : (laneAlu f 7 a b x).code = if x % 2 ^ (f.eb + f.mb) = 0 then b else a := by
  show (if (flDecode f x).isZero = true then b else a) = _
  rw [isZero_flDecode]
  exact if_congr decide_eq_true_iff rfl rfl

theorem vcmpgt_code (w0 w1 : Nat) (v : VxeSt) (k : Nat) : (vxRes 3 6 w0 w1 v k).code =
    if vxBF w0 then
      (if flGt (flDecode bf16 (vGet v (vxVA w0) k % 65536)) (flDecode bf16 (vxeB w0 w1 v k % 65536)) then 0x3F80 else 0) +
      65536 * (if flGt (flDecode bf16 (vGet v (vxVA w0) k / 65536)) (flDecode bf16 (vxeB w0 w1 v k / 65536)) then 0x3F80
        else 0)
    else if flGt (flDecode fp32 (vGet v (vxVA w0) k)) (flDecode fp32 (vxeB w0 w1 v k)) then 0x3F800000 else 0 := by
  rw [vxRes_alu, onLane]
  split <;> rfl

theorem vsel_code (w0 w1 : Nat) (v : VxeSt) (k : Nat) : (vxRes 3 7 w0 w1 v k).code =
    if vxBF w0 then
      (if vGet v (vxVC w0) k % 32768 = 0 then vxeB w0 w1 v k % 65536 else vGet v (vxVA w0) k % 65536) +
      65536 * (if vGet v (vxVC w0) k / 65536 % 32768 = 0 then vxeB w0 w1 v k / 65536 else vGet v (vxVA w0) k / 65536)
    else if vGet v (vxVC w0) k % 2 ^ 31 = 0 then vxeB w0 w1 v k else vGet v (vxVA w0) k := by
  rw [vxRes_alu, onLane]
  split
  · dsimp only
    rw [laneAlu_select, laneAlu_select]
    have hlow : vGet v (vxVC w0) k % 65536 % 2 ^ (bf16.eb + bf16.mb) = vGet v (vxVC w0) k % 32768 :=
      Nat.mod_mod_of_dvd _ (by decide)
    rw [hlow]
    rfl
  · exact laneAlu_select _ _ _ _

theorem vabs_code (w0 w1 : Nat) (v : VxeSt) (k : Nat) : (vxRes 3 8 w0 w1 v k).code =
    if vxBF w0 then halves (· % 32768) (vGet v (vxVA w0) k) else vGet v (vxVA w0) k % 2 ^ 31 := by
  rw [vxRes_alu, onLane]
  split <;> rfl

theorem vneg_code (w0 w1 : Nat) (v : VxeSt) (k : Nat) : (vxRes 3 9 w0 w1 v k).code =
    if vxBF w0 then halves (fun x => (x + 32768) % 65536) (vGet v (vxVA w0) k) else (vGet v (vxVA w0) k + 2 ^ 31) % 2 ^ 32 := by
  rw [vxRes_alu, onLane]
  split <;> rfl

theorem vmove_code (w0 w1 : Nat) (v : VxeSt) (k : Nat) : (vxRes 3 10 w0 w1 v k).code = vxeB w0 w1 v k := by
  rw [vxRes_alu, onLane]
  split
  · exact Nat.mod_add_div _ _
  · rfl

/-! ## Reductions and RNG -/

theorem vxReduce_done {c fn n : Nat} {f : List Nat → Nat × Nat × Nat} {q : VxeCmd} {s : State} (h : vxNext s c 5 fn = some (n, q)) :
    vxeDone c n q (fun _ => (f ((List.range 64).map (vGet (cget s c).vxe (vxVA q.w0)))).1) s (vxReduce c fn f s) := by
  rw [vxReduce, h]
  exact vxDone_counted fun _ _ => rfl

theorem vxeOp_of_reduce {i : Fin 4352 → Instr} {fn : Nat} {f : List Nat → Nat × Nat × Nat} {lane : List Nat → Nat}
    (hexec : ∀ c s, exec (i c) s = .next (vxReduce c fn f s)) (hlane : ∀ l, (f l).1 = lane l) :
    vxeOp i 5 fn (fun w0 _ v _ => lane ((List.range 64).map (vGet v (vxVA w0)))) := fun c n q s h => by
  have hdone := vxReduce_done (f := f) h
  simp only [hlane] at hdone
  exact ⟨_, hexec c s, hdone⟩

theorem rng_lanes : vxeOp .rng 7 0 (fun w0 w1 v k => rngLane w1 (vGet v (vxVA w0) k) k) := fun c n q s h => by
  refine ⟨_, ?_, vxDone_written (i := n) (q := q) (poison := false)
    (put := fun k => (rngLane q.w1 (vGet (cget s c).vxe (vxVA q.w0) k) k, vMarked (cget s c).vxe (vxVA q.w0) k)) fun _ _ => rfl⟩
  rw [exec, execRng, h]

end Sys2Proof.Machine

open Sys2Proof.Machine

/-- Settles O12: every lane function writes its results into VD, whatever the lanes and the queue hold. -/
theorem vxeFunctions : Obligations.VxeFunctions :=
  ⟨vxeAlu_of_lanes fun _ _ => rfl, vxeAlu_of_lanes fun _ _ => rfl, vxeAlu_of_lanes fun _ _ => rfl, vxeAlu_of_lanes fun _ _ => rfl,
    vxeAlu_of_lanes fun _ _ => rfl, vxeAlu_of_lanes fun _ _ => rfl, vxeOp_of_lanes (fun _ _ => rfl) vcmpgt_code,
    vxeOp_of_lanes (fun _ _ => rfl) vsel_code, vxeOp_of_lanes (fun _ _ => rfl) vabs_code, vxeOp_of_lanes (fun _ _ => rfl) vneg_code,
    vxeOp_of_lanes (fun _ _ => rfl) vmove_code, vxeSfu_of_lanes fun _ _ => rfl, vxeSfu_of_lanes fun _ _ => rfl,
    vxeSfu_of_lanes fun _ _ => rfl, vxeSfu_of_lanes fun _ _ => rfl, vxeOp_of_reduce (fun _ _ => rfl) fun _ => rfl,
    vxeOp_of_reduce (lane := fun l => (redSum 6 l 0 0).1) (fun _ _ => rfl) fun _ => rfl,
    vxeOp_of_reduce (lane := fun l => (f32Code (.fin false (redArg l) 0)).1) (fun _ _ => rfl) fun _ => rfl, rng_lanes⟩
end

section
/-! VLD, VST, QMX and the retirement of VXE commands (O13). -/

namespace Sys2Proof.Machine

theorem Only.spChk {m : Nat} {s t : State} (h : Only m s t) (hm : m.testBit 5 = false) : t.spChk = s.spChk := by
  rw [← h, mix, hm, cond_false]

theorem Only.spWr {m : Nat} {s t : State} (h : Only m s t) (hm : m.testBit 6 = false) : t.spWr = s.spWr := by
  rw [← h, mix, hm, cond_false]

/-! ## Vector registers stay -/

/-- The vector registers of every core are as before. -/
def vecKept (u t : State) : Prop := ∀ k, (cget t k).vxe.v = (cget u k).vxe.v

section
variable {u s : State}

theorem vecKept_refl (s : State) : vecKept s s := fun _ => rfl

theorem vecKept_only {φ : Nat} {t : State} (h : vecKept u s) (k : Only φ s t) (hφ : φ.testBit 2 = false) : vecKept u t :=
  fun j => by rw [← h, cget, cget, k.cores hφ]

theorem vecKept_cupd {f : CoreSt → CoreSt} (hf : ∀ q, (f q).vxe.v = q.vxe.v) (h : vecKept u s) (c : Nat) : vecKept u (cupd c f s) :=
  fun j => by
    by_cases hj : j = c
    · rw [hj, cget_cupd_same, hf, h]
    · rw [cget_cupd_other _ _ hj, h]

theorem vecKept_haltReqCore (h : vecKept u s) (c : Nat) : vecKept u (haltReqCore c s) := by
  have hset (v : State) (f : SeqSt → SeqSt) (hv : vecKept u v) : vecKept u (squpd c f v) := vecKept_cupd (fun _ => by rfl) hv c
  have hdiscard : vecKept u (discardUnstarted c s) :=
    vecKept_only (φ := F.cols) (vecKept_only (φ := F.cols) (vecKept_cupd (fun _ => by rfl) h c)
      (only_colupd (φ := F.cols) rfl (Only.refl _ _) _ _) rfl) (only_colupd (φ := F.cols) rfl (Only.refl _ _) _ _) rfl
  rw [haltReqCore]
  split
  · split
    · exact hset _ _ h
    · exact h
  · exact hset _ _ hdiscard

/-- An error record leaves the vector registers, whatever cores it halts. -/
theorem vecKept_logErr (h : vecKept u s) (e : ErrEv) : vecKept u (logErr e s) := by
  have hnote (e : ErrEv) (x : HubSt) : vecKept u (errNotice e (hset e.hub x s)) :=
    vecKept_only h (only_errNotice (φ := F.regs ||| F.hubs ||| F.ctrs ||| F.telem ||| F.hostOut ||| F.fab) rfl
      (only_hset (φ := F.regs ||| F.hubs ||| F.ctrs ||| F.telem ||| F.hostOut ||| F.fab) rfl (Only.refl _ _) _ _) _) rfl
  have hfatal (v : State) (hv : vecKept u v) : vecKept u (enterFatal v) :=
    List.foldlRecOn (motive := vecKept u) v.cores (fun (s : State) (e : Nat × CoreSt) => haltReqCore e.1 s)
      (b := { v with fatal := true, faultN := true }) hv fun _ hw e _ => vecKept_haltReqCore hw e.1
  unfold logErr
  dsimp only
  generalize (if (hget s e.hub).lost = true then { e with hub := 0 } else e) = e'
  split
  · exact hfatal _ (hnote _ _)
  · exact hnote _ _

theorem vecKept_spRead (h : vecKept u s) (c b : Nat) : vecKept u (spRead c b s).2 := by
  have hreg (o : Nat) (f : Word → Word) : Only F.regs s (corUpd c o f s) := only_corUpd (φ := F.regs) rfl (Only.refl _ _) _ _ _
  have hlast {v : State} (k : Nat) (hv : vecKept u v) : vecKept u (spLast c b k v) :=
    vecKept_only hv (only_spLast (φ := F.regs) rfl (Only.refl _ _) _ _ _) rfl
  unfold spRead
  split
  · exact h
  · split
    · exact hlast _ (vecKept_only h (hreg _ _) rfl)
    · split
      · exact h
      · exact vecKept_only (vecKept_logErr (vecKept_only h (hreg _ _) rfl) _) (only_tallyCore (φ := F.ctrs) rfl (Only.refl _ _) _ _ _ _) rfl
      · exact hlast _ h
      · exact vecKept_logErr (hlast _ (vecKept_only h (hreg _ _) rfl)) _

theorem vecKept_mergeFull (h : vecKept u s) (c b : Nat) (d : List Byte) (poison : Bool) : vecKept u (mergeFull c b d poison s) :=
  vecKept_cupd (fun _ => by rfl) h c

theorem vecKept_spWrite (h : vecKept u s) (c b : Nat) (d : List Byte) : vecKept u (spWrite c b d s) :=
  vecKept_mergeFull (vecKept_only h (only_spStore (φ := F.sp ||| F.spChk ||| F.spWr) rfl (Only.refl _ _) _ _ _ _) rfl) _ _ _ _

theorem vecKept_spPoison (h : vecKept u s) (c b : Nat) : vecKept u (spPoison c b s) :=
  vecKept_mergeFull (vecKept_only h (only_spStore (φ := F.sp ||| F.spChk ||| F.spWr) rfl (Only.refl _ _) _ _ _ _) rfl) _ _ _ _

theorem vecKept_spNarrow (h : vecKept u s) (c b off : Nat) (v : List Byte) : vecKept u (spNarrow c b off v s) := by
  unfold spNarrow
  split
  · exact vecKept_spWrite h _ _ _
  · exact vecKept_cupd (fun _ => by rfl) (vecKept_spRead h c b) c

theorem vecKept_spNarrowNow (h : vecKept u s) (c b off : Nat) (v : List Byte) : vecKept u (spNarrowNow c b off v s) := by
  unfold spNarrowNow
  split
  · exact vecKept_spWrite h _ _ _
  · dsimp only
    split
    · exact vecKept_spWrite (vecKept_spRead h c b) _ _ _
    · exact vecKept_spPoison (vecKept_spRead h c b) _ _

theorem vecKept_spWriteFrom (c m n off : Nat) (v : List Byte) {s : State} (h : vecKept u s) : vecKept u (spWriteFrom c m n off v s) := by
  induction n generalizing off v s with
  | zero => exact h
  | succ n ih =>
    cases v with
    | nil => exact h
    | cons b v =>
      rw [spWriteFrom]
      · refine ih _ _ ?_
        split
        · exact vecKept_spWrite h _ _ _
        · split
          · exact vecKept_spNarrowNow h _ _ _ _
          · exact vecKept_spNarrow h _ _ _ _
      · exact nofun

theorem vecKept_spWriteBytes (h : vecKept u s) (c m off : Nat) (v : List Byte) : vecKept u (spWriteBytes c m off v s) :=
  vecKept_spWriteFrom _ _ _ _ _ h

end

/-! ## Whole blocks written -/

theorem memRead_congr {m m' : Mem} {a n : Nat} (h : ∀ x, a ≤ x → x < a + n → memGet m x = memGet m' x) : memRead m a n = memRead m' a n := by
  induction n generalizing a with
  | zero => rfl
  | succ n ih =>
    rw [memRead, memRead, h a (Nat.le_refl _) (by omega), ih fun x hlo hhi => h x (by omega) (by omega)]

theorem memRead_memWrite_other {m : Mem} {a b n : Nat} {v : List Byte} (h : b + v.length ≤ a ∨ a + n ≤ b) :
    memRead (memWrite m b v) a n = memRead m a n :=
  memRead_congr fun x hlo hhi => memGet_memWrite_other v m b x (by omega)

/-- A whole block written, or stored as poison. -/
def putBlock (c b : Nat) (d : Option (List Byte)) (s : State) : State :=
  match d with
  | some d => spWrite c b d s
  | none => spPoison c b s

/-- What a block holds after it. -/
def blockData (d : Option (List Byte)) : List Byte := d.getD (zeros 64)

def blockChk (d : Option (List Byte)) : List Byte :=
  match d with
  | some d => sramCheck d
  | none => poisonCheck (zeros 64)

def blockHeld (c b : Nat) (d : Option (List Byte)) (s : State) : Prop :=
  memRead s.sp (spKey c b) 64 = blockData d ∧ memRead s.spChk (spChkKey c b) 16 = blockChk d ∧ spWritten s c b = true

theorem blockChk_length (d : Option (List Byte)) : (blockChk d).length = 16 := by
  cases d with
  | none => exact poisonCheck_length _
  | some d => exact sramCheck_length d

theorem spWrite_mems (c b : Nat) (d : List Byte) (s : State) : (spWrite c b d s).sp = memWrite s.sp (spKey c b) d ∧
    (spWrite c b d s).spChk = memWrite s.spChk (spChkKey c b) (sramCheck d) ∧ (spWrite c b d s).spWr = nsAdd s.spWr (spWrKey c b) := by
  generalize hw : sramCheck d = w
  rw [spWrite, hw]
  exact ⟨rfl, rfl, rfl⟩

theorem spPoison_mems (c b : Nat) (s : State) : (spPoison c b s).sp = memWrite s.sp (spKey c b) (zeros 64) ∧
    (spPoison c b s).spChk = memWrite s.spChk (spChkKey c b) (poisonCheck (zeros 64)) ∧
      (spPoison c b s).spWr = nsAdd s.spWr (spWrKey c b) := by
  generalize hw : poisonCheck (zeros 64) = w
  generalize hz : zeros 64 = z at *
  rw [spPoison, hz, hw]
  exact ⟨rfl, rfl, rfl⟩

theorem putBlock_sp (c b : Nat) (d : Option (List Byte)) (s : State) :
    (putBlock c b d s).sp = memWrite s.sp (spKey c b) (blockData d) ∧
      (putBlock c b d s).spChk = memWrite s.spChk (spChkKey c b) (blockChk d) ∧ (putBlock c b d s).spWr = nsAdd s.spWr (spWrKey c b) := by
  cases d with
  | none => exact spPoison_mems c b s
  | some d => exact spWrite_mems c b d s

theorem blockHeld_putBlock {c b : Nat} {d : Option (List Byte)} (s : State) (hd : (blockData d).length = 64) :
    blockHeld c b d (putBlock c b d s) := by
  obtain ⟨hsp, hchk, hwr⟩ := putBlock_sp c b d s
  refine ⟨?_, ?_, ?_⟩
  · rw [hsp, ← hd]
    exact memRead_memWrite _ _ _
  · rw [hchk, ← blockChk_length d]
    exact memRead_memWrite _ _ _
  · rw [spWritten, hwr, nsHas_nsAdd, beq_self_eq_true, Bool.true_or]

theorem blockHeld_putBlock_other {c b b' : Nat} {d d' : Option (List Byte)} {s : State} (hd : (blockData d').length = 64) (hne : b' ≠ b)
    (h : blockHeld c b d s) : blockHeld c b d (putBlock c b' d' s) := by
  obtain ⟨hsp, hchk, hwr⟩ := putBlock_sp c b' d' s
  obtain ⟨hdata, hc, hw⟩ := h
  have hlen := blockChk_length d'
  refine ⟨?_, ?_, ?_⟩
  · rw [hsp, memRead_memWrite_other (by unfold spKey; omega), hdata]
  · rw [hchk, memRead_memWrite_other (by unfold spChkKey; omega), hc]
  · rw [spWritten, hwr, nsHas_nsAdd, Bool.or_eq_true]
    exact Or.inr hw

theorem memGet_putBlock_other {c b : Nat} {d : Option (List Byte)} {s : State} (hd : (blockData d).length = 64) {a : Nat}
    (ha : a < spKey c b ∨ spKey c (b + 1) ≤ a) : memGet (putBlock c b d s).sp a = memGet s.sp a := by
  have hnext : spKey c (b + 1) = spKey c b + (blockData d).length := by
    rw [hd, spKey, spKey]
    omega
  rw [(putBlock_sp c b d s).1]
  exact memGet_memWrite_other _ _ _ _ (hnext ▸ ha)

theorem only_putBlock (c b : Nat) (d : Option (List Byte)) {s u : State} (h : Only (F.cores ||| F.sp ||| F.spChk ||| F.spWr) u s) :
    Only (F.cores ||| F.sp ||| F.spChk ||| F.spWr) u (putBlock c b d s) := by
  cases d with
  | none => exact only_spPoison (φ := F.cores ||| F.sp ||| F.spChk ||| F.spWr) rfl h _ _
  | some d => exact only_spWrite (φ := F.cores ||| F.sp ||| F.spChk ||| F.spWr) rfl h _ _ _

/-- Of the cores only the block's own differs, and there only the merges. -/
theorem cget_putBlock (c b : Nat) (d : Option (List Byte)) (s : State) (k : Nat) :
    { cget (putBlock c b d s) k with merges := (cget s k).merges } = cget s k ∧ (k ≠ c → cget (putBlock c b d s) k = cget s k) := by
  have hmerge (v : State) (hv : v.cores = s.cores) (d : List Byte) (p : Bool) :
      { cget (mergeFull c b d p v) k with merges := (cget s k).merges } = cget s k ∧ (k ≠ c → cget (mergeFull c b d p v) k = cget s k) := by
    have hget : cget v k = cget s k := by rw [cget, hv, cget]
    refine ⟨?_, fun hk => (cget_cupd_other _ _ hk).trans hget⟩
    by_cases hk : k = c
    · subst hk
      rw [mergeFull, cget_cupd_same, hget]
    · rw [mergeFull, cget_cupd_other _ _ hk, hget]
  have hstore (d chk : List Byte) : (spStore c b d chk s).cores = s.cores := rfl
  cases d with
  | none => exact hmerge _ (hstore _ _) _ _
  | some d => exact hmerge _ (hstore _ _) _ _

/-- The blocks `first` to `first + n - 1` written in turn. -/
def putBlocks (c first : Nat) (d : Nat → Option (List Byte)) (n : Nat) (s : State) : State :=
  iter n (fun b s => putBlock c (first + b) (d b) s) s

section
variable {c first n : Nat} {d : Nat → Option (List Byte)} (hd : ∀ b, b < n → (blockData (d b)).length = 64)
include hd

theorem blockHeld_putBlocks (s : State) {j : Nat} (hj : j < n) : blockHeld c (first + j) (d j) (putBlocks c first d n s) := by
  refine foldl_reaches (P := blockHeld c (first + j) (d j)) (List.mem_range.2 hj) (fun s => blockHeld_putBlock s (hd j hj)) ?_ s
  intro v b hb hv
  have hlt := List.mem_range.1 hb
  by_cases hbj : b = j
  · subst hbj
    exact blockHeld_putBlock v (hd b hlt)
  · exact blockHeld_putBlock_other (hd b hlt) (by omega) hv

theorem memGet_putBlocks_other (s : State) {a : Nat} (ha : a < spKey c first ∨ spKey c (first + n) ≤ a) :
    memGet (putBlocks c first d n s).sp a = memGet s.sp a :=
  List.foldlRecOn (motive := fun t : State => memGet t.sp a = memGet s.sp a) _ _ rfl fun v hv b hb => by
    have hlt := List.mem_range.1 hb
    rw [memGet_putBlock_other (hd b hlt) (by unfold spKey at *; omega), hv]

end

theorem only_putBlocks (c first n : Nat) (d : Nat → Option (List Byte)) (s : State) :
    Only (F.cores ||| F.sp ||| F.spChk ||| F.spWr) s (putBlocks c first d n s) :=
  only_iter (fun _ _ h => only_putBlock _ _ _ h) (Only.refl _ _)

theorem vecKept_putBlocks (c first n : Nat) (d : Nat → Option (List Byte)) (s : State) : vecKept s (putBlocks c first d n s) :=
  List.foldlRecOn (motive := vecKept s) _ _ (vecKept_refl s) fun v hv b _ => by
    cases h : d b with
    | none => simpa only [putBlock, h] using vecKept_spPoison hv _ _
    | some x => simpa only [putBlock, h] using vecKept_spWrite hv _ _ _

theorem oneCore_putBlocks (c first n : Nat) (d : Nat → Option (List Byte)) (s : State) : oneCore c s (putBlocks c first d n s) :=
  List.foldlRecOn (motive := oneCore c s) _ _ (fun _ _ => rfl) fun v hv b _ k hk => by
    rw [(cget_putBlock c (first + b) (d b) v k).2 hk, hv k hk]

/-! ## Ends of commands -/

theorem ticketTaken_vxDone {c i : Nat} {q : VxeCmd} {poison : Bool} {u w : State} (h : tkGet w c (cmdTW q.w0) = tkGet u c (cmdTW q.w0)) :
    ticketTaken c (cmdTW q.w0) u (vxDone c i q poison w) := fun hk => by
  rw [vxDone, tkGet_tkTake hk]
  exact congrArg (· - 1) h

theorem vecKept_vxDone {u s : State} (h : vecKept u s) (c i : Nat) (q : VxeCmd) (poison : Bool) : vecKept u (vxDone c i q poison s) :=
  vecKept_only (φ := F.regs) (vecKept_cupd (fun _ => by rfl) h c) (only_tkTake (φ := F.regs) rfl (Only.refl _ _) _ _) rfl

theorem vecKept_vxNum {u s : State} (h : vecKept u s) (c nan sclamp sat cvt : Nat) : vecKept u (vxNum c nan sclamp sat cvt s) :=
  vecKept_only h (only_vxNum (φ := F.regs) rfl (Only.refl _ _) _ _ _ _ _) rfl

theorem tkGet_vxNum {c nan sclamp sat cvt k : Nat} (hk : k < 16) (s : State) : tkGet (vxNum c nan sclamp sat cvt s) c k = tkGet s c k := by
  rw [tkGet, tkGet, vxNum, corUpd, rget_rupd, if_neg (by unfold tkKey; omega)]

/-! ## VLD and VST -/

theorem vld_loads (c : Fin 4352) (n : Nat) (q : VxeCmd) (bs : List (Option (List Byte))) (s v : State) (h : vxNext s c 1 0 = some (n, q))
    (hread : spReadBlocks c (blksOf (vxSpace q.w1) (vxOff q.w1) (vxBytes q.w0 q.w1)) s = (bs, v)) :
    let elem := fun e => (listAt bs (e * elemBytes (vxFmt q.w1) / 64) none).map
      (fun d => leAt d (e * elemBytes (vxFmt q.w1) % 64) (elemBytes (vxFmt q.w1)))
    let wide := fun e => (convert (vxFmt q.w1) (if vxBF q.w0 then 2 else 1) false ((elem e).getD 0)).1
    ∃ t, exec (.vld c) s = .next t ∧
      vxeDone c n q (fun k => if vxBF q.w0 then wide (2 * k) + 65536 * wide (2 * k + 1) else wide k) v t := by
  intro elem wide
  refine ⟨_, ?_, vxDone_written (i := n) (q := q) (poison := bs.any Option.isNone)
    (put := fun k => if vxBF q.w0 then (wide (2 * k) + 65536 * wide (2 * k + 1), (elem (2 * k)).isNone || (elem (2 * k + 1)).isNone)
      else (wide k, (elem k).isNone)) fun k _ => ?_⟩
  · rw [exec, execVld, h]
    dsimp only
    rw [hread]
  · split <;> rfl

/-- Whether a block of a VST holds a marked lane. -/
def vstBad (v : VxeSt) (q : VxeCmd) (j : Nat) : Bool :=
  (List.range (64 / elemBytes (vxFmt q.w1))).any (fun e => vMarked v (vxVA q.w0)
    (if vxBF q.w0 then (j * (64 / elemBytes (vxFmt q.w1)) + e) / 2 else j * (64 / elemBytes (vxFmt q.w1)) + e))

/-- A block of a VST. -/
def vstBlock (v : VxeSt) (q : VxeCmd) (j : Nat) : Option (List Byte) :=
  if vstBad v q j then none else some (((vstBytes v q.w0 q.w1).1.drop (64 * j)).take 64)

theorem execVst_putBlocks {c : Fin 4352} {n : Nat} {q : VxeCmd} {s : State} (h : vxNext s c 2 0 = some (n, q)) :
    exec (.vst c) s = .next (vxDone c n q false (vxNum c 0 0 (vstBytes (cget s c).vxe q.w0 q.w1).2.1 (vstBytes (cget s c).vxe q.w0 q.w1).2.2
      (putBlocks c (memFirst (vxSpace q.w1) + vxOff q.w1 / 64) (vstBlock (cget s c).vxe q)
        ((vstBytes (cget s c).vxe q.w0 q.w1).1.length / 64) s))) := by
  have hstep (b : Nat) (s' : State) : (if vstBad (cget s c).vxe q b then spPoison c (memFirst (vxSpace q.w1) + vxOff q.w1 / 64 + b) s'
      else spWrite c (memFirst (vxSpace q.w1) + vxOff q.w1 / 64 + b) (((vstBytes (cget s c).vxe q.w0 q.w1).1.drop (64 * b)).take 64) s') =
      putBlock c (memFirst (vxSpace q.w1) + vxOff q.w1 / 64 + b) (vstBlock (cget s c).vxe q b) s' := by
    unfold vstBlock
    split <;> rfl
  unfold putBlocks
  simp only [← hstep]
  rw [exec, execVst, h]
  rfl

theorem vst_stores (c : Fin 4352) (n : Nat) (q : VxeCmd) (s : State) (h : vxNext s c 2 0 = some (n, q)) :
    let b := vstBytes (cget s c).vxe q.w0 q.w1
    let per := 64 / elemBytes (vxFmt q.w1)
    let first := memFirst (vxSpace q.w1) + vxOff q.w1 / 64
    ∃ t, exec (.vst c) s = .next t ∧ (cget t c).vxe.v = (cget s c).vxe.v ∧ oneCore c s t ∧
      ticketTaken c (cmdTW q.w0) s t ∧
      (∀ j, j < b.1.length / 64 → spWritten t c (first + j) = true ∧
        ((∀ e, e < per → vMarked (cget s c).vxe (vxVA q.w0) (if vxBF q.w0 then (j * per + e) / 2 else j * per + e) = false) →
          memRead t.sp (spKey c (first + j)) 64 = (b.1.drop (64 * j)).take 64) ∧
        ((∃ e, e < per ∧
            vMarked (cget s c).vxe (vxVA q.w0) (if vxBF q.w0 then (j * per + e) / 2 else j * per + e) = true) →
          memRead t.spChk (spChkKey c (first + j)) 16 = poisonCheck (memRead t.sp (spKey c (first + j)) 64))) ∧
      (∀ a, a < spKey c first ∨ spKey c (first + b.1.length / 64) ≤ a → memGet t.sp a = memGet s.sp a) := by
  intro b per first
  generalize hn : b.1.length / 64 = m
  have hlen (j : Nat) (hj : j < m) : (blockData (vstBlock (cget s c).vxe q j)).length = 64 := by
    rw [blockData, vstBlock]
    split
    · rfl
    · rw [Option.getD_some, List.length_take, List.length_drop]
      show min 64 (b.1.length - 64 * j) = 64
      omega
  have hexec := execVst_putBlocks h
  change exec _ _ = .next (vxDone c n q false (vxNum c 0 0 b.2.1 b.2.2 (putBlocks c first (vstBlock (cget s c).vxe q) (b.1.length / 64) s))) at hexec
  rw [hn] at hexec
  have honly := only_putBlocks c first m (vstBlock (cget s c).vxe q) s
  have hend := only_vxDone (φ := F.regs ||| F.cores) rfl (only_vxNum (φ := F.regs ||| F.cores) rfl
    (Only.refl _ (putBlocks c first (vstBlock (cget s c).vxe q) m s)) c 0 0 b.2.1 b.2.2) c n q false
  refine ⟨_, hexec, ?_, fun k hk => ?_, ticketTaken_vxDone ?_, fun j hj => ?_, fun a ha => ?_⟩
  · exact vecKept_vxDone (vecKept_vxNum (vecKept_putBlocks _ _ _ _ s) _ _ _ _ _) _ _ _ _ c
  · rw [cget_vxDone_other _ _ _ hk, cget, vxNum_cores]
    exact oneCore_putBlocks _ _ _ _ s k hk
  · rw [tkGet_vxNum (fld_lt _ _ _), tkGet, tkGet, rget, rget, honly.regs rfl]
  · obtain ⟨hdata, hchk, hwr⟩ := blockHeld_putBlocks (c := c) (first := first) hlen s hj
    refine ⟨by rw [spWritten, hend.spWr rfl]; exact hwr, fun hclean => ?_, fun hmark => ?_⟩
    · have hgood : vstBad (cget s c).vxe q j = false :=
        List.any_eq_false.2 fun e he => Bool.eq_false_iff.1 (hclean e (List.mem_range.1 he))
      rw [hend.sp rfl, hdata, blockData, vstBlock, hgood]
      rfl
    · have hbad : vstBad (cget s c).vxe q j = true := by
        obtain ⟨e, he, hm⟩ := hmark
        exact List.any_eq_true.2 ⟨e, List.mem_range.2 he, hm⟩
      rw [hend.spChk rfl, hend.sp rfl, hchk, hdata, vstBlock, hbad, if_pos rfl]
      rfl
  · rw [hend.sp rfl]
    exact memGet_putBlocks_other hlen s ha

/-! ## QMX -/

/-- The elements and the scales of a QMX written on state `s`. -/
def qmxWritten (c : Nat) (q : VxeCmd) (b0 b1 : MxBlock) (s : State) : State :=
  spWriteBytes c (vxSpace q.w1) (vxSoff q.w1) [BitVec.ofNat 8 b0.scale, BitVec.ofNat 8 b1.scale]
    (spWriteBytes c (vxSpace q.w1) (vxOff q.w1) (mxPack (vxFmt q.w1) (b0.elems ++ b1.elems)) s)

/-- A half of a register, quantised. -/
def qmxBlock (v : VxeSt) (q : VxeCmd) (b : Nat) : MxBlock :=
  mxQuant (vxFmt q.w1) ((List.range 32).map (fun k => flDecode fp32 (vGet v (vxVA q.w0) (32 * b + k))))

/-- A QMX of unmarked lanes. -/
theorem execQmx_clean {c : Fin 4352} {n : Nat} {q : VxeCmd} {s : State} (h : vxNext s c 6 0 = some (n, q))
    (hclean : ∀ k, k < 64 → vMarked (cget s c).vxe (vxVA q.w0) k = false) :
    ∃ nan sclamp sat, exec (.qmx c) s = .next (vxDone c n q false (vxNum c nan sclamp sat 0
      (qmxWritten c q (qmxBlock (cget s c).vxe q 0) (qmxBlock (cget s c).vxe q 1) s))) := by
  have hmark (b : Nat) (hb : b < 2) : (List.range 32).any (fun k => vMarked (cget s c).vxe (vxVA q.w0) (32 * b + k)) = false :=
    List.any_eq_false.2 fun k hk => Bool.eq_false_iff.1 (hclean _ (by have := List.mem_range.1 hk; omega))
  have hloop (w : State) : iter 2 (fun b s' => if (List.range 32).any (fun k => vMarked (cget s c).vxe (vxVA q.w0) (32 * b + k)) then
      spPoisonRange c (vxSpace q.w1) (vxSoff q.w1 + b) 1 (spPoisonRange c (vxSpace q.w1)
        (vxOff q.w1 + b * (if vxFmt q.w1 = 8 then 16 else 32)) (if vxFmt q.w1 = 8 then 16 else 32) s') else s') w = w :=
    List.foldlRecOn (motive := fun v => v = w) _ _ rfl fun v hv b hb => by
      exact (if_neg (by rw [hmark b (List.mem_range.1 hb)]; exact Bool.false_ne_true)).trans hv
  have hflat (x y : MxBlock) : (([x, y].map (·.elems)).flatten) = x.elems ++ y.elems := by simp
  have hexec : exec (.qmx c) s = .next (vxDone c n q false (vxNum c
      (sumNat ([qmxBlock (cget s c).vxe q 0, qmxBlock (cget s c).vxe q 1].map (·.nan)))
      (sumNat ([qmxBlock (cget s c).vxe q 0, qmxBlock (cget s c).vxe q 1].map (·.sclamp)))
      (sumNat ([qmxBlock (cget s c).vxe q 0, qmxBlock (cget s c).vxe q 1].map (·.sat))) 0
      (iter 2 (fun b s' => if (List.range 32).any (fun k => vMarked (cget s c).vxe (vxVA q.w0) (32 * b + k)) then
        spPoisonRange c (vxSpace q.w1) (vxSoff q.w1 + b) 1 (spPoisonRange c (vxSpace q.w1)
          (vxOff q.w1 + b * (if vxFmt q.w1 = 8 then 16 else 32)) (if vxFmt q.w1 = 8 then 16 else 32) s') else s')
        (spWriteBytes c (vxSpace q.w1) (vxSoff q.w1)
          ([qmxBlock (cget s c).vxe q 0, qmxBlock (cget s c).vxe q 1].map (fun b => BitVec.ofNat 8 b.scale))
          (spWriteBytes c (vxSpace q.w1) (vxOff q.w1) (mxPack (vxFmt q.w1)
            (([qmxBlock (cget s c).vxe q 0, qmxBlock (cget s c).vxe q 1].map (·.elems)).flatten)) s))))) := by
    rw [exec, execQmx, h]
    rfl
  rw [hloop, hflat] at hexec
  exact ⟨_, _, _, hexec⟩

theorem qmxBlock_low (v : VxeSt) (q : VxeCmd) : qmxBlock v q 0 =
    mxQuant (vxFmt q.w1) ((List.range 32).map (fun k => flDecode fp32 (vGet v (vxVA q.w0) k))) := by
  simp only [qmxBlock, Nat.mul_zero, Nat.zero_add]

theorem qmxBlock_high (v : VxeSt) (q : VxeCmd) : qmxBlock v q 1 =
    mxQuant (vxFmt q.w1) ((List.range 32).map (fun k => flDecode fp32 (vGet v (vxVA q.w0) (32 + k)))) := by
  simp only [qmxBlock, Nat.mul_one]

theorem qmx_stores (c : Fin 4352) (n : Nat) (q : VxeCmd) (s : State) (h : vxNext s c 6 0 = some (n, q))
    (hclean : ∀ k, k < 64 → vMarked (cget s c).vxe (vxVA q.w0) k = false) :
    let x := fun k => flDecode fp32 (vGet (cget s c).vxe (vxVA q.w0) k)
    let b0 := mxQuant (vxFmt q.w1) ((List.range 32).map x)
    let b1 := mxQuant (vxFmt q.w1) ((List.range 32).map (fun k => x (32 + k)))
    let u := spWriteBytes c (vxSpace q.w1) (vxOff q.w1) (mxPack (vxFmt q.w1) (b0.elems ++ b1.elems)) s
    let v := spWriteBytes c (vxSpace q.w1) (vxSoff q.w1) [BitVec.ofNat 8 b0.scale, BitVec.ofNat 8 b1.scale] u
    ∃ t, exec (.qmx c) s = .next t ∧ t.sp = v.sp ∧ t.spChk = v.spChk ∧ (cget t c).merges = (cget v c).merges ∧
      (cget t c).vxe.v = (cget s c).vxe.v := by
  intro x b0 b1 u v
  obtain ⟨nan, sclamp, sat, hexec⟩ := execQmx_clean h hclean
  have hv : qmxWritten c q (qmxBlock (cget s c).vxe q 0) (qmxBlock (cget s c).vxe q 1) s = v := by
    rw [qmxBlock_low, qmxBlock_high]
    rfl
  rw [hv] at hexec
  have hend := only_vxDone (φ := F.regs ||| F.cores) rfl (only_vxNum (φ := F.regs ||| F.cores) rfl
    (Only.refl _ v) c nan sclamp sat 0) c n q false
  refine ⟨_, hexec, hend.sp rfl, hend.spChk rfl, ?_, ?_⟩
  · rw [cget_vxDone_same, cget, vxNum_cores, cget]
  · exact vecKept_vxDone (vecKept_vxNum (vecKept_spWriteBytes (vecKept_spWriteBytes (vecKept_refl s) _ _ _ _) _ _ _ _) _ _ _ _ _)
      _ _ _ _ c

/-! ## Retirement -/

/-- A command's TS ticket is incremented where it can be (R115). -/
theorem tkAdd_one {c k src pc word : Nat} {s : State} (hfit : tkGet s c k < 65535) :
    (tkAdd c k 1 src pc word s).cores = s.cores ∧ Only F.regs s (tkAdd c k 1 src pc word s) ∧
      (k ≠ 0 → tkGet (tkAdd c k 1 src pc word s) c k = tkGet s c k + 1) ∧
      (∀ o, o ≠ tkKey c k → rget (tkAdd c k 1 src pc word s) o = rget s o) := by
  by_cases hk : k = 0
  · rw [tkAdd, if_pos hk]
    exact ⟨rfl, Only.refl _ _, fun h => absurd hk h, fun _ _ => rfl⟩
  · rw [tkAdd_fits hk hfit]
    exact ⟨(only_tkPut (φ := F.regs) rfl (Only.refl _ _) _ _ _).cores rfl, only_tkPut (φ := F.regs) rfl (Only.refl _ _) _ _ _,
      fun _ => tkGet_tkPut_same s hfit, fun _ ho => rget_rset_other _ _ ho⟩

/-- A command of core `c` leaves its queue: its TS ticket is incremented and it is counted. -/
def engRetired (c k src pc word evt : Nat) (f : CoreSt → CoreSt) (s : State) : State :=
  tallyCore c evt 1 none (tkAdd c k 1 src pc word (cupd c f s))

theorem engRetired_done {c k src pc word evt : Nat} {f : CoreSt → CoreSt} {s : State} (hfit : tkGet s c k < 65535) :
    (∀ j, cget (engRetired c k src pc word evt f s) j = if j = c then f (cget s c) else cget s j) ∧
      onlyCores s (engRetired c k src pc word evt f s) ∧
      (k ≠ 0 → tkGet (engRetired c k src pc word evt f s) c k = tkGet s c k + 1) ∧
      (∀ o, o ≠ tkKey c k → rget (engRetired c k src pc word evt f s) o = rget s o) := by
  obtain ⟨hcores, honly, htk, hregs⟩ := tkAdd_one (src := src) (pc := pc) (word := word) (s := cupd c f s) (k := k) (c := c) hfit
  refine ⟨fun j => ?_, onlyCores_of_only ?_, fun hk => ?_, fun o ho => ?_⟩
  · rw [engRetired, cget_tallyCore, cget, hcores]
    exact cget_cupd _ _ _ _
  · exact only_tallyCore (φ := F.regs ||| F.cores ||| F.ctrs) rfl
      ((only_cupd (φ := F.regs ||| F.cores ||| F.ctrs) rfl (Only.refl _ s) c f).trans (Only.mono honly rfl)) _ _ _ _
  · rw [engRetired, tkGet_tallyCore]
    exact htk hk
  · rw [engRetired, rget_tallyCore]
    exact hregs o ho

theorem cget_holdTrap (c : Nat) (h : HeldTrap) (s : State) :
    { cget (holdTrap c h s) c with seq := (cget s c).seq } = cget s c ∧ ∀ j, j ≠ c → cget (holdTrap c h s) j = cget s j := by
  unfold holdTrap
  split
  · exact ⟨rfl, fun _ _ => rfl⟩
  · exact ⟨by rw [cget_squpd_same], fun _ hj => cget_squpd_other _ _ hj⟩

theorem srcHeld_holdTrap (c : Nat) (h : HeldTrap) (s : State) : srcHeld (sq (holdTrap c h s) c) h.src = true := by
  unfold holdTrap
  split
  next hheld => exact hheld
  next =>
    rw [sq, squpd, cget_cupd_same]
    simp [srcHeld]

/-- A command that retires, and traps where it read poison. -/
def engEnded (c : Nat) (poison : Bool) (h : HeldTrap) (s : State) : State := if poison then holdTrap c h s else s

theorem engEnded_done (c : Nat) (poison : Bool) (h : HeldTrap) (s : State) :
    { cget (engEnded c poison h s) c with seq := (cget s c).seq } = cget s c ∧ (∀ j, j ≠ c → cget (engEnded c poison h s) j = cget s j) ∧
      Only F.cores s (engEnded c poison h s) ∧ (poison = true → srcHeld (sq (engEnded c poison h s) c) h.src = true) ∧
      (poison = false → sq (engEnded c poison h s) c = sq s c) := by
  obtain ⟨hself, hother⟩ := cget_holdTrap c h s
  cases poison with
  | false => exact ⟨rfl, fun _ _ => rfl, Only.refl _ _, nofun, fun _ => rfl⟩
  | true => exact ⟨hself, hother, only_holdTrap (φ := F.cores) rfl (Only.refl _ _) _ _, fun _ => srcHeld_holdTrap c h s, nofun⟩

/-- A command that retires whole: its queue and its ticket change, and where it read poison its engine holds a trap. -/
theorem engEnded_retired {c k src pc word evt : Nat} {f : CoreSt → CoreSt} {s : State} {poison : Bool} {h : HeldTrap}
    (hfit : tkGet s c k < 65535) (hf : ∀ q, (f q).seq = q.seq) {t : State}
    (ht : t = engEnded c poison h (engRetired c k src pc word evt f s)) :
    oneCore c s t ∧ onlyCores s t ∧ { cget t c with seq := (f (cget s c)).seq } = f (cget s c) ∧
      (k ≠ 0 → tkGet t c k = tkGet s c k + 1) ∧ (∀ o, o ≠ tkKey c k → rget t o = rget s o) ∧
      (poison = true → srcHeld (sq t c) h.src = true) ∧ (poison = false → sq t c = sq s c) := by
  subst ht
  obtain ⟨hcores, honly, htk, hregs⟩ := engRetired_done (src := src) (pc := pc) (word := word) (evt := evt) (f := f) hfit
  generalize engRetired c k src pc word evt f s = w at *
  obtain ⟨hself, hother, hcs, htrap, hsq⟩ := engEnded_done c poison h w
  have hw : cget w c = f (cget s c) := (hcores c).trans (if_pos rfl)
  refine ⟨fun j hj => ?_, onlyCores_trans honly (onlyCores_of_only (Only.mono hcs rfl)), hw ▸ hself, fun hk => ?_, fun o ho => ?_,
    htrap, fun hp => ?_⟩
  · rw [hother j hj, hcores, if_neg hj]
  · rw [← htk hk, tkGet, tkGet, rget, rget, hcs.regs rfl]
  · rw [← hregs o ho, rget, rget, hcs.regs rfl]
  · rw [hsq hp, sq, hw, hf]
    rfl

/-- Whether a command that read poison finds its engine's trap held (log entry 198). -/
theorem trapWait_false {s : State} {c src : Nat} {performed poison : Bool} (hdone : performed = true) (hrun : coreRuns s c = true)
    (hfree : poison = true → srcHeld (sq s c) src = true → (sq s c).stop = 3) :
    (!performed || !coreRuns s c || (poison && srcHeld (sq s c) src && (sq s c).stop != 3)) = false := by
  subst hdone
  rw [hrun]
  cases hp : poison with
  | false => rfl
  | true =>
    cases hh : srcHeld (sq s c) src with
    | false => rfl
    | true =>
      rw [hfree hp hh]
      rfl

/-- A core whose vector engine has `rest` left to do. -/
def vxRest (rest : List VxeCmd) (k : CoreSt) : CoreSt := { k with vxe := { k.vxe with queue := rest } }

/-- The trap of a VXE command that read poison. -/
def vxTrap (q : VxeCmd) : HeldTrap := { src := 2, cause := 0x0B, pc := q.pc, word := q.w0, detail := 0, detailHi := 0 }

theorem vxeCommandRetire_retires (c : Fin 4352) (q : VxeCmd) (rest : List VxeCmd) (s : State) (hq : (cget s c).vxe.queue = q :: rest)
    (hdone : q.performed = true) (hfit : tkGet s c (cmdTS q.w0) < 65535) (hrun : coreRuns s c = true)
    (hfree : q.poison = true → srcHeld (sq s c) 2 = true → (sq s c).stop = 3) :
    ∃ t, exec (.vxeCommandRetire c) s = .next t ∧ oneCore c s t ∧ onlyCores s t ∧
      (cget t c).vxe = { (cget s c).vxe with queue := rest } ∧
      (cmdTS q.w0 ≠ 0 → tkGet t c (cmdTS q.w0) = tkGet s c (cmdTS q.w0) + 1) ∧
      (∀ o, o ≠ tkKey c (cmdTS q.w0) → rget t o = rget s o) ∧
      (q.poison = true → srcHeld (sq t c) 2 = true) ∧ (q.poison = false → sq t c = sq s c) := by
  obtain ⟨hone, honly, hself, htk, hregs, htrap, hsq⟩ := engEnded_retired (src := 2) (pc := q.pc) (word := q.w0) (evt := 0x0120)
    (f := vxRest rest) (poison := q.poison) (h := vxTrap q) hfit (fun _ => rfl) rfl
  refine ⟨_, ?_, hone, honly, congrArg CoreSt.vxe hself, htk, hregs, htrap, hsq⟩
  rw [exec, execVxeCommandRetire, hq]
  dsimp only
  rw [if_neg (by rw [trapWait_false hdone hrun hfree]; exact Bool.false_ne_true)]
  rfl

end Sys2Proof.Machine

open Sys2Proof.Machine

/-- Settles O13: loads and stores move whole blocks between register and scratchpad, and a command retires with its ticket. -/
theorem vxeMemory : Obligations.VxeMemory :=
  ⟨vld_loads, vst_stores, qmx_stores, vxeCommandRetire_retires⟩
end

section
/-! The life of an MXE command (O9). -/

namespace Sys2Proof.Machine

theorem cget_mxupd_same (c : Nat) (f : MxeSt → MxeSt) (s : State) : cget (mxupd c f s) c = { cget s c with mxe := f (cget s c).mxe } :=
  cget_cupd_same _ _ _

theorem cget_mxupd_other {c k : Nat} (f : MxeSt → MxeSt) (s : State) (hk : k ≠ c) : cget (mxupd c f s) k = cget s k :=
  cget_cupd_other _ _ hk

theorem onlyCores_mxupd (c : Nat) (f : MxeSt → MxeSt) (s : State) : onlyCores s (mxupd c f s) := onlyCores_cupd _ _ _

theorem regs_mxupd (c : Nat) (f : MxeSt → MxeSt) (s : State) : (mxupd c f s).regs = s.regs := rfl

/-- A ticket that a claim before it leaves standing stands. -/
theorem tkReady_of_grant {s : State} {c tw before : Nat} (h : tkGrant s c tw before = true) : tkReady s c tw = true := by
  rw [tkGrant, Bool.or_eq_true, decide_eq_true_eq] at h
  rw [tkReady, Bool.or_eq_true, decide_eq_true_eq]
  exact h.imp_right fun hle => le_trans (Nat.le_add_left 1 before) hle

theorem mxeCommandStart_starts (c : Fin 4352) (i : Nat) (q : MxeCmd) (s : State)
    (hi : findIdx? (fun e : MxeCmd => !e.started) (cget s c).mxe.queue = some i) (hq : (cget s c).mxe.queue[i]? = some q)
    (hfree : engineFree (sq s c) 1 = true) (hcan : mxCanStart (cget s c).mxe i q = true) (htw : mxeTicket s c (cmdTW q.w0) = true)
    (hrun : coreRuns s c = true) (hstream : cmdOP q.w0 = 2 → streamStartCheck s c i q.w0 q.w1 = 0) :
    ∃ t, exec (.mxeCommandStart c) s = .next (feedAhead c t) ∧ ticketTaken c (cmdTW q.w0) s t ∧ oneCore c s t ∧
      (∀ o, o ≠ tkKey c (cmdTW q.w0) → rget t o = rget s o) ∧ onlyCores s t ∧
      cget t c = { cget s c with mxe := { (cget s c).mxe with
        queue := (cget s c).mxe.queue.modify i (mxStarted (cget s c).mxe i) } } := by
  have hready : tkReady s c (cmdTW q.w0) = true := tkReady_of_grant htw
  have hgo : (coreRuns s c && engineFree (cget s c).seq 1 && mxCanStart (cget s c).mxe i q && tkReady s c (cmdTW q.w0)) = true := by
    rw [hrun, show engineFree (cget s c).seq 1 = true from hfree, hcan, hready]
    rfl
  have hcheck : (if cmdOP q.w0 = 2 then streamStartCheck s c i q.w0 q.w1 else 0) = 0 := by
    split
    next h2 => exact hstream h2
    next => rfl
  have hcores (k : Nat) : cget (tkTake c (cmdTW q.w0) s) k = cget s k := by rw [cget, tkTake_cores, cget]
  refine ⟨mxCmd c i (mxStarted (cget s c).mxe i) (tkTake c (cmdTW q.w0) s), ?_, fun hk => tkGet_tkTake hk, fun k hk => ?_,
    fun o ho => rget_tkTake_other s ho, ?_, ?_⟩
  · rw [exec, execMxeCommandStart]
    dsimp only
    rw [hi]
    dsimp only
    rw [hq]
    dsimp only
    rw [hgo, hcheck, htw]
    rfl
  · exact (cget_mxupd_other _ _ hk).trans (hcores k)
  · exact onlyCores_trans (onlyCores_of_only (only_tkTake (φ := F.regs ||| F.cores ||| F.ctrs) rfl (Only.refl _ _) _ _))
      (onlyCores_mxupd _ _ _)
  · rw [mxCmd, cget_mxupd_same, hcores]

theorem shadowPromote_promotes (c : Fin 4352) (i : Nat) (s : State)
    (hi : findIdx? (fun e : MxeCmd => e.started && !e.performed && cmdOP e.w0 == 2 && stSwap e.w0 && !e.promoted)
      (cget s c).mxe.queue = some i)
    (hload : ∀ e ∈ (cget s c).mxe.queue.take i, cmdOP e.w0 = 1 → e.finished = true) (hrun : coreRuns s c = true) :
    ∃ t, exec (.shadowPromote c) s = .next t ∧ t.regs = s.regs ∧ oneCore c s t ∧ onlyCores s t ∧
      cget t c = { cget s c with mxe := { (cget s c).mxe with
        active := (cget s c).mxe.shadow, shadowFull := false,
        queue := (cget s c).mxe.queue.modify i (fun e => { e with promoted := true }) } } := by
  have hnone : (((cget s c).mxe.queue.take i).any (fun e => cmdOP e.w0 == 1 && !e.finished) || !coreRuns s c) = false := by
    rw [hrun, Bool.not_true, Bool.or_false, List.any_eq_false]
    intro e he
    simpa using hload e he
  refine ⟨mxCmd c i (fun q => { q with promoted := true }) (mxupd c (fun m => { m with active := m.shadow, shadowFull := false }) s),
    ?_, rfl, fun k hk => ?_, ?_, ?_⟩
  · rw [exec, execShadowPromote, hi]
    dsimp only
    rw [hnone, if_neg Bool.false_ne_true]
  · exact (cget_mxupd_other _ _ hk).trans (cget_mxupd_other _ _ hk)
  · exact onlyCores_trans (onlyCores_mxupd _ _ _) (onlyCores_mxupd _ _ _)
  · rw [mxCmd, cget_mxupd_same, cget_mxupd_same]

theorem mxeCommandFinish_finishes (c : Fin 4352) (i : Fin 8) (q : MxeCmd) (s : State) (hq : (cget s c).mxe.queue[i.val]? = some q)
    (hdone : q.performed = true) (hnot : q.finished = false) (hrun : coreRuns s c = true) :
    ∃ t, exec (.mxeCommandFinish c i) s = .next t ∧ t.regs = s.regs ∧ oneCore c s t ∧ onlyCores s t ∧
      cget t c = { cget s c with mxe := { (cget s c).mxe with
        shadowFull := (cget s c).mxe.shadowFull || cmdOP q.w0 == 1,
        queue := (cget s c).mxe.queue.modify i (fun e => { e with finished := true }) } } := by
  refine ⟨mxupd c (fun m => if cmdOP q.w0 = 1 then { m with shadowFull := true } else m)
    (mxCmd c i (fun q => { q with finished := true }) s), ?_, rfl, fun k hk => ?_, ?_, ?_⟩
  · rw [exec, execMxeCommandFinish, hq]
    dsimp only
    rw [hdone, hnot, hrun]
    rfl
  · exact (cget_mxupd_other _ _ hk).trans (cget_mxupd_other _ _ hk)
  · exact onlyCores_trans (onlyCores_mxupd _ _ _) (onlyCores_mxupd _ _ _)
  · rw [cget_mxupd_same, mxCmd, cget_mxupd_same]
    by_cases h1 : cmdOP q.w0 = 1
    · simp [h1]
    · simp [h1]

/-- A core whose matrix engine has `rest` left to do after a command of opcode `op`. -/
def mxRest (rest : List MxeCmd) (op : Nat) (k : CoreSt) : CoreSt := { k with mxe := { k.mxe with queue := rest, lastOp := op } }

/-- The trap of an MXE command that read poison. -/
def mxTrap (q : MxeCmd) : HeldTrap := { src := 1, cause := 0x0B, pc := q.pc, word := q.w0, detail := 0, detailHi := 0 }

theorem mxeCommandRetire_retires (c : Fin 4352) (q : MxeCmd) (rest : List MxeCmd) (s : State) (hq : (cget s c).mxe.queue = q :: rest)
    (hdone : q.finished = true) (hfit : tkGet s c (cmdTS q.w0) < 65535) (hrun : coreRuns s c = true)
    (hfree : q.poison = true → srcHeld (sq s c) 1 = true → (sq s c).stop = 3) :
    ∃ t, exec (.mxeCommandRetire c) s = .next t ∧ oneCore c s t ∧ onlyCores s t ∧
      (cget t c).mxe = { (cget s c).mxe with queue := rest, lastOp := cmdOP q.w0 } ∧
      (cmdTS q.w0 ≠ 0 → tkGet t c (cmdTS q.w0) = tkGet s c (cmdTS q.w0) + 1) ∧
      (∀ o, o ≠ tkKey c (cmdTS q.w0) → rget t o = rget s o) ∧
      (q.poison = true → srcHeld (sq t c) 1 = true) ∧ (q.poison = false → sq t c = sq s c) := by
  obtain ⟨hone, honly, hself, htk, hregs, htrap, hsq⟩ := engEnded_retired (src := 1) (pc := q.pc) (word := q.w0) (evt := 0x0112)
    (f := mxRest rest (cmdOP q.w0)) (poison := q.poison) (h := mxTrap q) hfit (fun _ => rfl) rfl
  refine ⟨_, ?_, hone, honly, congrArg CoreSt.mxe hself, htk, hregs, htrap, hsq⟩
  rw [exec, execMxeCommandRetire, hq]
  dsimp only
  rw [if_neg (by rw [trapWait_false hdone hrun hfree]; exact Bool.false_ne_true)]
  rfl

theorem mxeCommandRetire_waits (c : Fin 4352) (q : MxeCmd) (rest : List MxeCmd) (s : State) (hq : (cget s c).mxe.queue = q :: rest)
    (hp : q.poison = true) (hheld : srcHeld (sq s c) 1 = true) (hstop : (sq s c).stop ≠ 3) :
    exec (.mxeCommandRetire c) s = .next s := by
  rw [exec, execMxeCommandRetire, hq]
  dsimp only
  rw [if_pos]
  rw [hp, hheld, bne_iff_ne.2 hstop]
  simp

end Sys2Proof.Machine

open Sys2Proof.Machine

/-- Settles O9: an MXE command starts, is promoted, finishes and retires, and waits while its engine's trap is held. -/
theorem mxeQueue : Obligations.MxeQueue :=
  ⟨mxeCommandStart_starts, shadowPromote_promotes, mxeCommandFinish_finishes, mxeCommandRetire_retires, mxeCommandRetire_waits⟩
end

section
/-! The channels of the mover (O14). -/

namespace Sys2Proof.Machine

theorem Only.remote {m : Nat} {s t : State} (h : Only m s t) (hm : m.testBit 21 = false) : t.remote = s.remote := by
  rw [← h, mix, hm, cond_false]

theorem Only.remoteRef {m : Nat} {s t : State} (h : Only m s t) (hm : m.testBit 22 = false) : t.remoteRef = s.remoteRef := by
  rw [← h, mix, hm, cond_false]

/-! ## Channels -/

theorem movGet_mvupd {c ch : Nat} {s : State} (f : MovCh → MovCh) (h : ch < (cget s c).mov.length) :
    movGet (mvupd c ch f s) c ch = f (movGet s c ch) := by
  rw [movGet, movGet, mvupd, cget_cupd_same, listAt, listAt, List.getD_eq_getElem?_getD, List.getD_eq_getElem?_getD,
    List.getElem?_modify_eq, List.getElem?_eq_getElem h]
  rfl

theorem mov_length_mvupd (c ch : Nat) (f : MovCh → MovCh) (s : State) :
    (cget (mvupd c ch f s) c).mov.length = (cget s c).mov.length := by
  rw [mvupd, cget_cupd_same]
  exact List.length_modify _ _ _

theorem cget_mvupd_other {c ch k : Nat} (f : MovCh → MovCh) (s : State) (hk : k ≠ c) : cget (mvupd c ch f s) k = cget s k :=
  cget_cupd_other _ _ hk

theorem onlyCores_mvupd (c ch : Nat) (f : MovCh → MovCh) (s : State) : onlyCores s (mvupd c ch f s) := onlyCores_cupd _ _ _

/-- The record of a channel that a failure halts. -/
def mvHalted (status : Nat) (m : MovCh) : MovCh := { m with active := none, moved := false, status := status, halted := true }

/-- A failure halts its channel and holds a trap of the mover (R135). -/
theorem mvFail_halts {c ch status hi : Nat} {d : MovDesc} {s : State} (h : ch < (cget s c).mov.length) :
    movGet (mvFail c ch status hi d s) c ch = mvHalted status (movGet s c ch) ∧ srcHeld (sq (mvFail c ch status hi d s) c) 3 = true ∧
      oneCore c s (mvFail c ch status hi d s) ∧ Only F.cores s (mvFail c ch status hi d s) := by
  let w := mvupd c ch (mvHalted status) s
  let p : HeldTrap := { src := 3, cause := 0x15, pc := d.pc, word := d.w0, detail := ch * 65536 + status, detailHi := hi }
  obtain ⟨hself, hother⟩ := cget_holdTrap c p w
  have hmov : (cget (holdTrap c p w) c).mov = (cget w c).mov := (congrArg CoreSt.mov hself :)
  refine ⟨?_, srcHeld_holdTrap c p w, fun k hk => (hother k hk).trans (cget_mvupd_other _ _ hk), ?_⟩
  · show movGet (holdTrap c p w) c ch = _
    rw [movGet, hmov]
    exact movGet_mvupd _ h
  · exact only_holdTrap (φ := F.cores) rfl (only_mvupd (φ := F.cores) rfl (Only.refl _ _) _ _ _) _ _

/-! ## Descriptors -/

theorem movDescriptorStart_starts (c : Fin 4352) (ch : Fin 8) (d : MovDesc) (rest : List MovDesc) (s : State)
    (hlen : ch.val < (cget s c).mov.length) (hq : (movGet s c ch).queue = d :: rest) (hact : (movGet s c ch).active = none)
    (hhalt : (movGet s c ch).halted = false) (hfree : engineFree (sq s c) 3 = true) (hready : tkReady s c (cmdTW d.w0) = true)
    (hrun : coreRuns s c = true) (htw : mvCheck s c d = 0 → movTicket s c ch (cmdTW d.w0) = true) :
    ∃ t, exec (.movDescriptorStart c ch) s = .next t ∧ oneCore c s t ∧ onlyCores s t ∧
      (mvCheck s c d = 0 → ticketTaken c (cmdTW d.w0) s t ∧
        movGet t c ch = { movGet s c ch with queue := rest, active := some d, moved := false }) ∧
      (mvCheck s c d ≠ 0 → t.regs = s.regs ∧ srcHeld (sq t c) 3 = true ∧
        movGet t c ch = { movGet s c ch with queue := rest, moved := false, status := mvCheck s c d, halted := true }) := by
  let pop := mvupd c ch (fun m => { m with queue := rest }) s
  have hpop : ch.val < (cget pop c).mov.length := by rw [mov_length_mvupd]; exact hlen
  have hgo : ((movGet s c ch).active.isSome || (movGet s c ch).halted || !coreRuns s c || !engineFree (sq s c) 3 ||
      !tkReady s c (cmdTW d.w0)) = false := by
    rw [hact, hhalt, hrun, hfree, hready]
    rfl
  have hexec : exec (.movDescriptorStart c ch) s = (if mvCheck s c d ≠ 0 then .next (mvFail c ch (mvCheck s c d) 0 d pop)
      else if !movTicket s c ch (cmdTW d.w0) then .next s
      else .next (tkTake c (cmdTW d.w0) (mvupd c ch (fun m => { m with active := some d, moved := false }) pop))) := by
    rw [exec, execMovDescriptorStart]
    dsimp only
    rw [hq]
    dsimp only
    rw [hgo]
    rfl
  by_cases hc : mvCheck s c d = 0
  · let act := mvupd c ch (fun m => { m with active := some d, moved := false }) pop
    have hcores (k : Nat) : cget (tkTake c (cmdTW d.w0) act) k = cget act k := by rw [cget, tkTake_cores, cget]
    have hone : oneCore c s act := fun k hk => (cget_mvupd_other _ _ hk).trans (cget_mvupd_other _ _ hk)
    refine ⟨tkTake c (cmdTW d.w0) act, ?_, fun k hk => (hcores k).trans (hone k hk), ?_, fun _ => ⟨fun hk => tkGet_tkTake hk, ?_⟩,
      fun h => absurd hc h⟩
    · rw [hexec, if_neg (not_not.2 hc), htw hc]
      rfl
    · exact onlyCores_trans (onlyCores_trans (onlyCores_mvupd _ _ _ _) (onlyCores_mvupd _ _ _ _))
        (onlyCores_of_only (only_tkTake (φ := F.regs ||| F.cores ||| F.ctrs) rfl (Only.refl _ _) _ _))
    · rw [movGet, hcores]
      exact (movGet_mvupd _ hpop).trans (by rw [movGet_mvupd _ hlen])
  · obtain ⟨hget, hheld, hone, honly⟩ := mvFail_halts (status := mvCheck s c d) (hi := 0) (d := d) hpop
    refine ⟨_, hexec.trans (if_pos hc), fun k hk => (hone k hk).trans (cget_mvupd_other _ _ hk),
      onlyCores_trans (onlyCores_mvupd _ _ _ _) (onlyCores_of_only (Only.mono honly rfl)), fun h => absurd h hc,
      fun _ => ⟨honly.regs rfl, hheld, ?_⟩⟩
    rw [hget, movGet_mvupd _ hlen, mvHalted]
    dsimp only
    rw [hact]

/-- A core whose channel has nothing active. -/
def movIdle (ch : Nat) (k : CoreSt) : CoreSt := { k with mov := k.mov.modify ch (fun m => { m with active := none, moved := false }) }

theorem movDescriptorRetire_retires (c : Fin 4352) (ch : Fin 8) (d : MovDesc) (s : State)
    (hlen : ch.val < (cget s c).mov.length) (hact : (movGet s c ch).active = some d) (hmoved : (movGet s c ch).moved = true)
    (hsent : s.remote.any (fun r => r.src == c.val && r.ch == ch.val) = false)
    (href : s.remoteRef.any (fun r => r.src == c.val && r.ch == ch.val) = false)
    (hfit : tkGet s c (cmdTS d.w0) < 65535) (hkind : mvDkind d ≠ 6) (hrun : coreRuns s c = true) :
    ∃ t, exec (.movDescriptorRetire c ch) s = .next t ∧ oneCore c s t ∧ onlyCores s t ∧
      movGet t c ch = { movGet s c ch with active := none, moved := false } ∧
      (cmdTS d.w0 ≠ 0 → tkGet t c (cmdTS d.w0) = tkGet s c (cmdTS d.w0) + 1) ∧
      (∀ o, o ≠ tkKey c (cmdTS d.w0) → rget t o = rget s o) := by
  obtain ⟨hcores, honly, htk, hregs⟩ :=
    engRetired_done (src := 3) (pc := d.pc) (word := d.w0) (evt := 0x0131) (f := movIdle ch) hfit
  refine ⟨_, ?_, fun k hk => (hcores k).trans (if_neg hk), honly, ?_, htk, hregs⟩
  · rw [exec, execMovDescriptorRetire, hact]
    dsimp only
    rw [if_neg (by rw [hmoved, hsent, href, hrun]; exact Bool.false_ne_true)]
    refine congrArg Host.Outcome.next ?_
    split
    · exact if_neg hkind
    · rfl
  · rw [movGet, hcores, if_pos rfl, ← movGet_mvupd (fun m => { m with active := none, moved := false }) hlen, movGet, mvupd,
      cget_cupd_same, movIdle]

/-! ## HALT writes, remote writes and refusals -/

theorem movChHaltWrite_clears (c : Fin 4352) (ch : Fin 8) (w : Word) (s : State) (hlen : ch.val < (cget s c).mov.length) :
    ∃ t, exec (.movChHaltWrite c ch w) s = .next t ∧ t.regs = s.regs ∧ oneCore c s t ∧ onlyCores s t ∧
      (wBit w 15 = true → movGet t c ch = { movGet s c ch with queue := [], status := 0, halted := false }) ∧
      (wBit w 15 = false → t = s) := by
  refine ⟨writeMovCh c ch w s, rfl, ?_⟩
  rw [writeMovCh]
  split
  next hset =>
    exact ⟨rfl, fun _ hk => cget_cupd_other _ _ hk, onlyCores_cupd _ _ _, fun _ => movGet_mvupd movClear hlen,
      fun h => absurd (hset.symm.trans h) (by decide)⟩
  next hclear => exact ⟨rfl, fun _ _ => rfl, rfl, fun h => absurd h hclear, fun _ => rfl⟩

theorem remoteWrite_performs (c : Fin 4352) (i : Nat) (r : RemoteWr) (s : State)
    (hi : findIdx? (fun e : RemoteWr => e.dst == c.val) s.remote = some i) (hr : s.remote[i]? = some r) (hrun : coreRuns s c = true) :
    ∃ t, exec (.remoteWrite ⟨c, false⟩) s = .next t ∧ t.remote = s.remote.eraseIdx i ∧
      (remoteCheck s r = 0 →
        t.sp = (spWriteBytes c r.mem r.off r.data { s with remote := s.remote.eraseIdx i }).sp ∧
        t.remoteRef = s.remoteRef) ∧
      (remoteCheck s r ≠ 0 → t = { s with
        remote := s.remote.eraseIdx i,
        remoteRef := s.remoteRef ++ [{ src := r.src, ch := r.ch, status := remoteCheck s r }] }) ∧
      (remoteCheck s r = 0 → exec (.remoteWrite ⟨c, true⟩) s = .next (remotePoison r { s with remote := s.remote.eraseIdx i })) := by
  have hexec (parity : Bool) : exec (.remoteWrite ⟨c, parity⟩) s = (if remoteCheck s r = 0 then
      .next (if parity then remotePoison r { s with remote := s.remote.eraseIdx i }
        else spWriteBytes c r.mem r.off r.data { s with remote := s.remote.eraseIdx i })
      else .next { s with
        remote := s.remote.eraseIdx i,
        remoteRef := s.remoteRef ++ [{ src := r.src, ch := r.ch, status := remoteCheck s r }] }) := by
    rw [exec, execRemoteWrite]
    dsimp only
    rw [hi]
    dsimp only
    rw [hr]
    dsimp only
    rw [hrun]
    rfl
  by_cases hc : remoteCheck s r = 0
  · have honly := only_spWriteBytes (φ := F.logs ||| F.sp ||| F.spChk ||| F.spWr) rfl
      (Only.refl _ { s with remote := s.remote.eraseIdx i }) c r.mem r.off r.data
    exact ⟨_, (hexec false).trans (if_pos hc), honly.remote rfl, fun _ => ⟨rfl, honly.remoteRef rfl⟩, fun h => absurd hc h,
      fun _ => (hexec true).trans (if_pos hc)⟩
  · exact ⟨_, (hexec false).trans (if_neg hc), rfl, fun h => absurd h hc, fun _ => rfl, fun h => absurd h hc⟩

theorem remoteRefusal_halts (c : Fin 4352) (i : Nat) (r : RemoteRef) (d : MovDesc) (s : State)
    (hi : findIdx? (fun e : RemoteRef => e.src == c.val) s.remoteRef = some i) (hr : s.remoteRef[i]? = some r)
    (hact : (movGet s c r.ch).active = some d) (hlen : r.ch < (cget s c).mov.length) (hrun : coreRuns s c = true) :
    ∃ t, exec (.remoteRefusal c) s = .next t ∧ t.remoteRef = s.remoteRef.eraseIdx i ∧ srcHeld (sq t c) 3 = true ∧
      movGet t c r.ch = { movGet s c r.ch with
        active := none, moved := false, status := (if r.status = 0x0502 then 0x0502 else 0x0402), halted := true } := by
  obtain ⟨hget, hheld, -, honly⟩ := mvFail_halts (status := if r.status = 0x0502 then 0x0502 else 0x0402) (hi := r.status) (d := d)
    (s := { s with remoteRef := s.remoteRef.eraseIdx i }) hlen
  refine ⟨_, ?_, honly.remoteRef rfl, hheld, hget⟩
  rw [exec, execRemoteRefusal, hi]
  dsimp only
  rw [hr]
  dsimp only
  rw [if_neg (by rw [hrun]; exact Bool.false_ne_true), show movGet { s with remoteRef := s.remoteRef.eraseIdx i } c r.ch =
    movGet s c r.ch from rfl, hact]

end Sys2Proof.Machine

open Sys2Proof.Machine

/-- Settles O14: a descriptor starts or halts its channel and retires with its ticket, and a refused remote write halts its sender. -/
theorem movChannels : Obligations.MovChannels :=
  ⟨movDescriptorStart_starts, movDescriptorRetire_retires, movChHaltWrite_clears, remoteWrite_performs, remoteRefusal_halts⟩
end

section
/-! Copies and fills of the mover (O15). -/

namespace Sys2Proof.Machine

/-! ## Whole blocks read and written -/

theorem blksOf_block (m b : Nat) : blksOf m (64 * b) 64 = [memFirst m + b] := by
  have hone : (64 * b + 64 - 1) / 64 - 64 * b / 64 + 1 = 1 := by omega
  have hb : 64 * b / 64 = b := by omega
  rw [blksOf, if_neg (by decide), hone, hb]
  rfl

theorem spReadBytes_block {c m b : Nat} {v : List Byte} {s : State} (h : spRead c (memFirst m + b) s = (some v, s)) (hv : v.length = 64) :
    spReadBytes c m (64 * b) 64 s = (some v, s) := by
  have hoff : 64 * b % 64 = 0 := by omega
  rw [spReadBytes, blksOf_block, spReadBlocks, h]
  dsimp only
  rw [spReadBlocks, hoff]
  simp [hv]

theorem spWriteBytes_block {c m b : Nat} {v : List Byte} (s : State) (hv : v.length = 64) :
    spWriteBytes c m (64 * b) v s = spWrite c (memFirst m + b) v s := by
  obtain ⟨x, r, rfl⟩ : ∃ x r, v = x :: r := by
    cases v with
    | nil => exact absurd hv (by decide)
    | cons x r => exact ⟨x, r, rfl⟩
  have hoff : 64 * b % 64 = 0 := by omega
  have hblk : 64 * b / 64 = b := by omega
  have htake : (x :: r).take 64 = x :: r := List.take_of_length_le (Nat.le_of_eq hv)
  have hdrop : (x :: r).drop 64 = [] := List.drop_of_length_le (Nat.le_of_eq hv)
  rw [spWriteBytes, hv, spWriteFrom, hoff, hblk, Nat.sub_zero, htake, hdrop, if_pos hv, spWriteFrom]
  · exact nofun
  · exact nofun

/-! ## Transfers of one block -/

theorem leBytes_leAt_one {src : List Byte} {n : Nat} (h : n < src.length) : leBytes 1 (leAt src n 1) = [src[n]] := by
  have htake : (src.drop n).take 1 = [src[n]] := by rw [List.drop_eq_getElem_cons h, List.take_succ_cons, List.take_zero]
  rw [leAt, htake]
  simp [leBytes, leNat]

/-- Bytes converted to bytes stay. -/
theorem mvConvert_bytes {d : MovDesc} {src : List Byte} (skip : Nat) (hs : mvSfmt d = 0) (hd : mvDfmt d = 0) (n : Nat)
    (hn : n ≤ src.length) : mvConvert d src n skip = (src.take n, 0, 0) := by
  have hone : elemBytes 0 = 1 := rfl
  rw [mvConvert, hs, hd, hone]
  induction n with
  | zero => rfl
  | succ n ih =>
    rw [List.range_succ, List.foldl_append, ih (by omega), List.foldl_cons, List.foldl_nil, convert, if_pos rfl]
    dsimp only
    rw [Nat.mul_one, leBytes_leAt_one (by omega), Nat.mul_zero, List.take_add_one, List.getElem?_eq_getElem (by omega)]
    rfl

/-- A descriptor of one block is one chunk. -/
theorem mvAll_block {c ch : Nat} {d : MovDesc} {busy : List Nat} {b : Nat} (s : State) (hlen : mvLen d * elemBytes (mvDfmt d) = 64)
    (hrows : mvRows d = 1) (hplanes : mvPlanes d = 1) (haddr : mvDaddr d = 64 * b) :
    mvAll c ch d busy s = mvStepChunk c ch d busy (64 * b) (mvSaddr d) 0 64 { k := 0, status := 0, s0 := s, s := s } := by
  have hfirst : min (64 - 0) (64 - (64 * b + 0) % 64) = 64 := by omega
  rw [mvAll, hlen, hrows, hplanes, haddr]
  simp only [List.range_one, List.foldl_cons, List.foldl_nil, Nat.zero_mul, Nat.add_zero]
  rw [mvRow, if_neg (by decide), hfirst, mvRow, if_pos (by decide), Nat.add_zero]

theorem mvInSram_own {c kind a : Nat} (s : State) (h : kind ≤ 2) : mvInSram s c kind a = none := by
  rw [mvInSram, if_neg (by omega), if_neg (by omega)]

/-- A chunk between scratchpads that reads its bytes without effect writes them. -/
theorem mvStepChunk_own {c ch : Nat} {d : MovDesc} {busy : List Nat} {da sa n : Nat} {v : List Byte} {cnt : Nat × Nat} {s : State}
    (hsrc : mvFill d = false → mvSkind d ≤ 2) (hdst : mvDkind d ≤ 2) (hchunk : mvChunk c d sa 0 n s = (.bytes v, cnt, s)) :
    (mvStepChunk c ch d busy da sa 0 n { k := 0, status := 0, s0 := s, s := s }).status = 0 ∧
      (mvStepChunk c ch d busy da sa 0 n { k := 0, status := 0, s0 := s, s := s }).s.sp = (spWriteBytes c (mvDkind d) da v s).sp := by
  have hclu : (if mvFill d then none else mvInSram s c (mvSkind d) sa).orElse (fun _ => mvInSram s c (mvDkind d) da) = none := by
    rw [mvInSram_own s hdst]
    cases hf : mvFill d with
    | true => rfl
    | false =>
      rw [mvInSram_own s (hsrc hf)]
      rfl
  have hsame : { s with fresh := s.fresh } = s := rfl
  have hrow : (!mvFill d && (mvSkind d == 4 && (0 == 0 || decide (sa % 1024 < 64)))) = false := by
    cases hf : mvFill d with
    | true => rfl
    | false =>
      have := hsrc hf
      rw [beq_eq_false_iff_ne.2 (by omega : mvSkind d ≠ 4)]
      rfl
  have hrow' : (mvDkind d == 4 && (0 == 0 || decide (da % 1024 < 64))) = false := by
    rw [beq_eq_false_iff_ne.2 (by omega : mvDkind d ≠ 4)]
    rfl
  unfold mvStepChunk
  dsimp only
  rw [hclu]
  dsimp only
  have hwrite : mvWrite c ch d da v s = (0, spWriteBytes c (mvDkind d) da v s) := if_pos hdst
  rw [if_neg (by decide), if_neg (by rw [Option.isSome_none, Bool.false_and]; exact Bool.false_ne_true), hchunk, ite_self]
  simp only [hrow, hrow', Bool.false_eq_true, if_false, hwrite, if_true]
  refine ⟨trivial, ?_⟩
  have hend := only_tallyCore (φ := F.regs ||| F.ctrs) rfl (only_corUpd (φ := F.regs ||| F.ctrs) rfl
    (Only.refl _ (spWriteBytes c (mvDkind d) da v s)) c 0x304 (fun w => wSatAdd (wSatAdd w 15 8 cnt.1) 7 0 cnt.2))
  exact (hend _ _ _ _).sp rfl

/-! ## Descriptors performed -/

/-- A descriptor that may run is performed, and its channel is marked moved or halted. -/
theorem mvExec_runs {c ch : Nat} {busy : List Nat} {d : MovDesc} {s : State} (hact : (movGet s c ch).active = some d)
    (hmoved : (movGet s c ch).moved = false) (hrun : coreRuns s c = true) (hclear : mvClear s c d = true) (hheld : mvHeld s c d = false) :
    mvExec c ch (mvFill d) busy s = if (mvAll c ch d busy s).status = 0 then
        mvupd c ch (fun m => { m with moved := true }) { (mvAll c ch d busy s).s with fresh := (mvAll c ch d busy s).s.fresh + 1 }
      else mvFail c ch (mvAll c ch d busy s).status 0 d
        { (mvAll c ch d busy s).s with fresh := (mvAll c ch d busy s).s.fresh + 1 } := by
  unfold mvExec
  dsimp only
  rw [hact]
  dsimp only
  rw [if_neg]
  rw [hmoved, hrun, hclear, hheld, bne_self_eq_false]
  exact Bool.false_ne_true

theorem exec_mov {c : Fin 4352} {ch : Fin 8} {busy : List Nat} (d : MovDesc) (s : State) :
    exec (if mvFill d then .movFill c ch busy else .movCopy c ch busy) s = .next (mvExec c ch (mvFill d) busy s) := by
  cases mvFill d <;> rfl

theorem mov_ends (c : Fin 4352) (ch : Fin 8) (busy : List Nat) (d : MovDesc) (s : State)
    (hact : (movGet s c ch).active = some d) (hmoved : (movGet s c ch).moved = false) (hrun : coreRuns s c = true)
    (hclear : mvClear s c d = true) (hheld : mvHeld s c d = false) :
    let r := mvAll c ch d busy s
    ch.val < (cget r.s c).mov.length →
    ∃ t, exec (if mvFill d then .movFill c ch busy else .movCopy c ch busy) s = .next t ∧
      (r.status = 0 → movGet t c ch = { movGet r.s c ch with moved := true }) ∧
      (r.status ≠ 0 → srcHeld (sq t c) 3 = true ∧
        movGet t c ch = { movGet r.s c ch with active := none, moved := false, status := r.status, halted := true }) := by
  intro r hlen
  have hexec := (exec_mov (c := c) (ch := ch) (busy := busy) d s).trans
    (congrArg Host.Outcome.next (mvExec_runs hact hmoved hrun hclear hheld))
  change _ = Host.Outcome.next (if r.status = 0 then mvupd c ch (fun m => { m with moved := true }) { r.s with fresh := r.s.fresh + 1 }
    else mvFail c ch r.status 0 d { r.s with fresh := r.s.fresh + 1 }) at hexec
  by_cases hst : r.status = 0
  · rw [if_pos hst] at hexec
    exact ⟨_, hexec, fun _ => movGet_mvupd _ hlen, fun h => absurd hst h⟩
  · rw [if_neg hst] at hexec
    obtain ⟨hget, htrap, -, -⟩ := mvFail_halts (status := r.status) (hi := 0) (d := d) (s := { r.s with fresh := r.s.fresh + 1 }) hlen
    exact ⟨_, hexec, fun h => absurd h hst, fun _ => ⟨htrap, hget⟩⟩

/-- A descriptor of one scratchpad block writes it. -/
theorem mov_block {c : Fin 4352} {ch : Fin 8} {busy : List Nat} {d : MovDesc} {b : Nat} {v : List Byte} {cnt : Nat × Nat} {s : State}
    (hact : (movGet s c ch).active = some d) (hmoved : (movGet s c ch).moved = false) (hrun : coreRuns s c = true)
    (hclear : mvClear s c d = true) (hheld : mvHeld s c d = false) (hlen : mvLen d * elemBytes (mvDfmt d) = 64) (hrows : mvRows d = 1)
    (hplanes : mvPlanes d = 1) (hsrc : mvFill d = false → mvSkind d ≤ 2) (hdst : mvDkind d ≤ 2) (haddr : mvDaddr d = 64 * b)
    (hchunk : mvChunk c d (mvSaddr d) 0 64 s = (.bytes v, cnt, s)) (hv : v.length = 64) :
    ∃ t, exec (if mvFill d then .movFill c ch busy else .movCopy c ch busy) s = .next t ∧
      memRead t.sp (spKey c (memFirst (mvDkind d) + b)) 64 = v ∧
      (∀ a, a < spKey c (memFirst (mvDkind d) + b) ∨ spKey c (memFirst (mvDkind d) + b + 1) ≤ a → memGet t.sp a = memGet s.sp a) := by
  obtain ⟨hst, hsp⟩ := mvStepChunk_own (ch := ch) (busy := busy) (da := 64 * b) hsrc hdst hchunk
  rw [← mvAll_block s hlen hrows hplanes haddr] at hst hsp
  rw [spWriteBytes_block s hv, (spWrite_mems _ _ _ _).1] at hsp
  have hexec := (exec_mov (c := c) (ch := ch) (busy := busy) d s).trans
    (congrArg Host.Outcome.next ((mvExec_runs hact hmoved hrun hclear hheld).trans (if_pos hst)))
  generalize mvAll c ch d busy s = r at *
  have hkept : (mvupd c ch (fun m => { m with moved := true }) { r.s with fresh := r.s.fresh + 1 }).sp = r.s.sp := rfl
  have hnext : spKey c (memFirst (mvDkind d) + b + 1) = spKey c (memFirst (mvDkind d) + b) + v.length := by
    rw [hv, spKey, spKey]
    omega
  refine ⟨_, hexec, ?_, fun a ha => ?_⟩
  · rw [hkept, hsp]
    conv_lhs => rw [← hv]
    exact memRead_memWrite _ _ _
  · rw [hkept, hsp]
    exact memGet_memWrite_other _ _ _ _ (hnext ▸ ha)

theorem copy_block (c : Fin 4352) (ch : Fin 8) (busy : List Nat) (d : MovDesc) (b b' : Nat) (v : List Byte) (s : State)
    (hact : (movGet s c ch).active = some d) (hmoved : (movGet s c ch).moved = false) (hrun : coreRuns s c = true)
    (hclear : mvClear s c d = true) (hheld : mvHeld s c d = false) (hfill : mvFill d = false) (hsf : mvSfmt d = 0) (hdf : mvDfmt d = 0)
    (hlen : mvLen d = 64) (hrows : mvRows d = 1) (hplanes : mvPlanes d = 1) (hsrc : mvSkind d ≤ 2) (hdst : mvDkind d ≤ 2)
    (hsa : mvSaddr d = 64 * b) (hda : mvDaddr d = 64 * b') (hread : spRead c (memFirst (mvSkind d) + b) s = (some v, s))
    (hv : v.length = 64) :
    ∃ t, exec (.movCopy c ch busy) s = .next t ∧
      memRead t.sp (spKey c (memFirst (mvDkind d) + b')) 64 = v ∧
      (∀ a, a < spKey c (memFirst (mvDkind d) + b') ∨ spKey c (memFirst (mvDkind d) + b' + 1) ≤ a →
        memGet t.sp a = memGet s.sp a) := by
  have hone : elemBytes 0 = 1 := rfl
  have hmem : mvRead c (mvSkind d) (64 * b) 64 s = (.bytes v, s) := by
    rw [mvRead, if_pos hsrc, spReadBytes_block hread hv]
    rfl
  have hchunk : mvChunk c d (mvSaddr d) 0 64 s = (.bytes v, (0, 0), s) := by
    have hn : 0 + 64 - 1 = 63 := rfl
    rw [mvChunk, hfill, hdf, hsf, hone, hsa]
    simp only [Bool.false_eq_true, if_false, Nat.zero_div, Nat.zero_mul, Nat.add_zero, Nat.div_one, hn, Nat.sub_zero, Nat.reduceAdd,
      Nat.mul_one, hmem, Nat.zero_mod, if_true]
    rw [mvConvert_bytes 0 hsf hdf 64 (Nat.le_of_eq hv.symm)]
    have htake : v.take 64 = v := List.take_of_length_le (Nat.le_of_eq hv)
    rw [List.drop_zero, htake, htake]
  have h := mov_block (busy := busy) hact hmoved hrun hclear hheld (by rw [hlen, hdf]; rfl) hrows hplanes (fun _ => hsrc) hdst hda hchunk hv
  rwa [hfill] at h

theorem fill_block (c : Fin 4352) (ch : Fin 8) (busy : List Nat) (d : MovDesc) (b' : Nat) (s : State)
    (hact : (movGet s c ch).active = some d) (hmoved : (movGet s c ch).moved = false) (hrun : coreRuns s c = true)
    (hclear : mvClear s c d = true) (hheld : mvHeld s c d = false) (hfill : mvFill d = true)
    (hlen : mvLen d * elemBytes (mvDfmt d) = 64) (hrows : mvRows d = 1) (hplanes : mvPlanes d = 1) (hdst : mvDkind d ≤ 2)
    (hda : mvDaddr d = 64 * b') :
    ∃ t, exec (.movFill c ch busy) s = .next t ∧
      memRead t.sp (spKey c (memFirst (mvDkind d) + b')) 64 =
        (List.range 64).map (fun i => BitVec.ofNat 8 (d.w1 / 256 ^ (i % 8))) ∧
      (∀ a, a < spKey c (memFirst (mvDkind d) + b') ∨ spKey c (memFirst (mvDkind d) + b' + 1) ≤ a →
        memGet t.sp a = memGet s.sp a) := by
  have hchunk : mvChunk c d (mvSaddr d) 0 64 s =
      (.bytes ((List.range 64).map (fun i => BitVec.ofNat 8 (d.w1 / 256 ^ (i % 8)))), (0, 0), s) := by
    rw [mvChunk, if_pos hfill]
    simp only [Nat.zero_add]
  have h := mov_block (busy := busy) hact hmoved hrun hclear hheld hlen hrows hplanes
    (fun hf => absurd (hfill.symm.trans hf) (by decide)) hdst hda hchunk (by rw [List.length_map, List.length_range])
  rwa [hfill] at h

end Sys2Proof.Machine

open Sys2Proof.Machine

/-- Settles O15: a descriptor that runs is marked moved or halted, and one of a single block copies it or fills it. -/
theorem movTransfers : Obligations.MovTransfers :=
  ⟨mov_ends, copy_block, fill_block⟩
end

section
/-! What an error record of class 0 does depends on the registers, the hubs, the telemetry and the partitions, and on nothing of the
cores, the columns and the memories. -/

namespace Sys2Proof.Machine

theorem Only.fab {m : Nat} {s t : State} (h : Only m s t) (hm : m.testBit 55 = false) : t.fab = s.fab := by
  rw [← h, mix, hm, cond_false]

theorem Only.cfg {m : Nat} {s t : State} (h : Only m s t) (hm : m.testBit 33 = false) : t.cfg = s.cfg := by
  rw [← h, mix, hm, cond_false]

/-- Every field that an error record of class 0 neither reads nor writes, and the counters. -/
def F.unseen : Nat := 0x777dbfce37ffffd

/-- A relation of registers that gives equal values outside `K`, and that equal writes keep. The set `K` holds registers of towers. -/
structure RegRel (K : Nat → Prop) (ρ : Store Word → Store Word → Prop) : Prop where
  tower : ∀ o, K o → 0x1000000 ≤ o ∧ o < 0x9000000
  read : ∀ a b o, ρ a b → ¬K o → stGet regReset b o = stGet regReset a o
  write : ∀ a b o v, ρ a b → ρ (stSet regReset a o v) (stSet regReset b o v)

theorem regRel_eq : RegRel (fun _ => False) Eq where
  tower := fun _ h => h.elim
  read := fun _ _ _ h _ => by rw [h]
  write := fun _ _ _ _ h => by rw [h]

/-- States that differ in nothing that an error record of class 0 reads, but for registers in `K`. -/
structure Seen (ρ : Store Word → Store Word → Prop) (s w : State) : Prop where
  regs : ρ s.regs w.regs
  hubs : w.hubs = s.hubs
  telem : w.telem = s.telem
  hostOut : w.hostOut = s.hostOut
  fab : w.fab = s.fab
  ns : w.ns = s.ns
  sec : w.sec = s.sec
  parts : w.parts = s.parts
  map : w.map = s.map
  cfg : w.cfg = s.cfg
  d3 : w.d3 = s.d3

section
variable {K : Nat → Prop} {ρ : Store Word → Store Word → Prop} (hρ : RegRel K ρ) {s w : State}

theorem seen_hget (h : Seen ρ s w) (k : Nat) : hget w k = hget s k := by rw [hget, hget, h.hubs]

theorem seen_hset (h : Seen ρ s w) (k : Nat) (v : HubSt) : Seen ρ (hset k v s) (hset k v w) :=
  { h with hubs := congrArg (fun x => stSet (fun _ => HubSt.reset) x k v) h.hubs }

theorem seen_hostSend (h : Seen ρ s w) (m : HostOut) : Seen ρ (hostSend m s) (hostSend m w) :=
  { h with hostOut := congrArg (· ++ [m]) h.hostOut }

theorem seen_right (h : Seen ρ s w) {w' : State} (k : Only F.unseen w w') : Seen ρ s w' where
  regs := (k.regs rfl).symm ▸ h.regs
  hubs := (k.hubs rfl).trans h.hubs
  telem := (k.telem rfl).trans h.telem
  hostOut := (k.hostOut rfl).trans h.hostOut
  fab := (k.fab rfl).trans h.fab
  ns := (k.ns rfl).trans h.ns
  sec := (k.sec rfl).trans h.sec
  parts := (k.parts rfl).trans h.parts
  map := (k.map rfl).trans h.map
  cfg := (k.cfg rfl).trans h.cfg
  d3 := (k.d3 rfl).trans h.d3

theorem seen_left (h : Seen ρ s w) {s' : State} (k : Only F.unseen s s') : Seen ρ s' w where
  regs := (k.regs rfl).symm ▸ h.regs
  hubs := h.hubs.trans (k.hubs rfl).symm
  telem := h.telem.trans (k.telem rfl).symm
  hostOut := h.hostOut.trans (k.hostOut rfl).symm
  fab := h.fab.trans (k.fab rfl).symm
  ns := h.ns.trans (k.ns rfl).symm
  sec := h.sec.trans (k.sec rfl).symm
  parts := h.parts.trans (k.parts rfl).symm
  map := h.map.trans (k.map rfl).symm
  cfg := h.cfg.trans (k.cfg rfl).symm
  d3 := h.d3.trans (k.d3 rfl).symm

theorem seen_tallyHub (h : Seen ρ s w) (k evt n : Nat) (tx : Option Tx) : Seen ρ (tallyHub k evt n tx s) (tallyHub k evt n tx w) :=
  seen_left (seen_right h (only_tallyHub (φ := F.unseen) rfl (Only.refl _ _) _ _ _ _))
    (only_tallyHub (φ := F.unseen) rfl (Only.refl _ _) _ _ _ _)

theorem seen_fnSend (h : Seen ρ s w) (fn : Nat) (m : HostOut) : Seen ρ (fnSend fn m s) (fnSend fn m w) := by
  have hm : onStream w fn m = onStream s fn m := by rw [onStream, onStream, h.sec, pget, pget, h.parts]
  rw [fnSend, fnSend, hm]
  exact seen_hostSend h _

theorem seen_telem (h : Seen ρ s w) {t t' : Telem} (ht : t' = t) : Seen ρ { s with telem := t } { w with telem := t' } :=
  { h with telem := ht }

include hρ

theorem seen_rget (h : Seen ρ s w) {o : Nat} (ho : ¬K o) : rget w o = rget s o := hρ.read _ _ _ h.regs ho

theorem seen_rset (h : Seen ρ s w) (o : Nat) (v : Word) : Seen ρ (rset o v s) (rset o v w) :=
  { h with regs := hρ.write _ _ _ _ h.regs }

theorem seen_rupd (h : Seen ρ s w) {o : Nat} (ho : ¬K o) (f : Word → Word) : Seen ρ (rupd o f s) (rupd o f w) := by
  rw [rupd, rupd, seen_rget hρ h ho]
  exact seen_rset hρ h _ _

theorem seen_sendMsix (h : Seen ρ s w) (fn vec : Nat) : Seen ρ (sendMsix fn vec s) (sendMsix fn vec w) := by
  unfold sendMsix
  by_cases hv : fnVectors fn ≤ vec
  · rw [if_pos hv, if_pos hv]
    exact h
  · have hlt : vec < 2048 := by
      have : fnVectors fn ≤ 2048 := by unfold fnVectors; split <;> omega
      omega
    have hmask : ¬K (msixKey fn vec 3) := fun hk => by
      have hb := hρ.tower _ hk
      unfold msixKey vfKey at hb
      split at hb <;> omega
    have hpend : ¬K ((if fn = 0 then 0x10000 else vfKey (fn - 1) 0x1F000) + 4 * (vec / 32)) := fun hk => by
      have hb := hρ.tower _ hk
      unfold vfKey at hb
      split at hb <;> omega
    have hon : msixOn w fn = msixOn s fn := by rw [msixOn, msixOn, cfgGet, cfgGet, h.cfg]
    rw [if_neg hv, if_neg hv, seen_rget hρ h hmask, hon, h.d3]
    split
    · exact seen_rupd hρ h hpend _
    · exact seen_fnSend h _ _

theorem seen_noteFree (h : Seen ρ s w) (a : Nat) : noteFree w a = noteFree s a := by rw [noteFree, noteFree, h.ns]

theorem seen_hubSignal (h : Seen ρ s w) (k : Nat) : Seen ρ (hubSignal k s) (hubSignal k w) := by
  have hctl : ¬K (hubBase k + 0x5000C) := fun hk => by
    have hb := hρ.tower _ hk
    unfold hubBase at hb
    omega
  unfold hubSignal
  dsimp only
  rw [seen_hget h, seen_noteFree hρ h, seen_rget hρ h hctl, h.ns]
  split
  · exact seen_sendMsix hρ (seen_hset h _ _) _ _
  · exact seen_hset h _ _

theorem seen_sumSignal (h : Seen ρ s w) : Seen ρ (sumSignal s) (sumSignal w) := by
  unfold sumSignal
  dsimp only
  rw [h.telem, seen_noteFree hρ h]
  split
  · exact seen_sendMsix hρ (seen_telem h (by rw [h.ns])) _ _
  · exact seen_telem h rfl

theorem seen_telPut (h : Seen ρ s w) (r : TelRec) : Seen ρ (telPut r s) (telPut r w) := by
  unfold telPut
  dsimp only
  rw [h.telem]
  have hput := seen_fnSend (seen_telem (seen_fnSend h 0 (.write (s.telem.ring + 64 + 64 * (s.telem.tail % s.telem.n))
    (telBytes s.telem.tail r))) (t := { s.telem with tail := (s.telem.tail + 1) % 2 ^ 32 }) rfl) 0
    (.write s.telem.ring (leBytes 4 ((s.telem.tail + 1) % 2 ^ 32)))
  split
  · exact seen_sumSignal hρ hput
  · exact seen_sendMsix hρ hput _ _

theorem seen_telEmit (h : Seen ρ s w) (r : TelRec) : Seen ρ (telEmit r s) (telEmit r w) := by
  unfold telEmit
  dsimp only
  rw [h.telem]
  split
  · exact seen_telPut hρ h r
  · split
    · split
      · exact seen_telem h rfl
      · exact h
    · split
      · exact seen_telem h rfl
      · exact seen_telem h rfl

theorem seen_evSignal (h : Seen ρ s w) (p : Nat) : Seen ρ (evSignal p s) (evSignal p w) := by
  unfold evSignal
  dsimp only
  rw [h.telem, seen_noteFree hρ h]
  split
  · exact seen_sendMsix hρ (seen_telem h (by rw [h.ns])) _ _
  · exact seen_telem h rfl

theorem seen_partEvent (h : Seen ρ s w) (p cls code seq hub : Nat) :
    Seen ρ (partEvent p cls code seq hub s) (partEvent p cls code seq hub w) := by
  unfold partEvent
  dsimp only
  rw [h.ns]
  generalize ({ ty := 7, time := s.ns, body := leBytes 1 p ++ leBytes 1 cls ++ leBytes 2 code ++ leBytes 4 seq ++ leBytes 1 hub } : TelRec) = r
  have hemit := seen_telEmit hρ h r
  have hkey (i : Nat) : ¬K (msixKey (p + 1) 31 i) := fun hk => by
    have hb := hρ.tower _ hk
    unfold msixKey vfKey at hb
    rw [if_neg (by omega)] at hb
    omega
  simp only [seen_rget hρ hemit (hkey _)]
  split
  · exact seen_evSignal hρ hemit p
  · exact hemit

theorem seen_errNotice (h : Seen ρ s w) (e : ErrEv) : Seen ρ (errNotice e s) (errNotice e w) := by
  have hctl : ¬K (hubBase e.hub + 0x5000C) := fun hk => by
    have hb := hρ.tower _ hk
    unfold hubBase at hb
    omega
  unfold errNotice
  dsimp only
  rw [seen_rget hρ h hctl]
  generalize (if errClass e.code = 0 then wBit (rget s (hubBase e.hub + 0x5000C)) 30 else wBit (rget s (hubBase e.hub + 0x5000C)) 31) = on
  have hsig : Seen ρ (tallyHub e.hub 0x0540 1 none (if on then hubSignal e.hub s else s))
      (tallyHub e.hub 0x0540 1 none (if on then hubSignal e.hub w else w)) := by
    refine seen_tallyHub ?_ _ _ _ _
    split
    · exact seen_hubSignal hρ h _
    · exact h
  cases e.part with
  | none => exact hsig
  | some p =>
    dsimp only
    rw [seen_hget hsig]
    exact seen_partEvent hρ hsig _ _ _ _ _

/-- An error record of class 0 acts alike on states that differ in nothing it reads. -/
theorem seen_logErr (h : Seen ρ s w) {e : ErrEv} (he : errClass e.code = 0) : Seen ρ (logErr e s) (logErr e w) := by
  unfold logErr
  dsimp only
  rw [seen_hget h]
  have hcode : errClass (if (hget s e.hub).lost = true then { e with hub := 0 } else e).code = 0 := by
    split <;> exact he
  generalize (if (hget s e.hub).lost = true then { e with hub := 0 } else e) = e' at hcode
  rw [logInto_class_zero _ _ hcode, logInto_class_zero _ _ hcode, if_neg Bool.false_ne_true, if_neg Bool.false_ne_true, seen_hget h,
    h.ns]
  exact seen_errNotice hρ (seen_hset h _ _) _

end

end Sys2Proof.Machine
end

section
/-! Scratchpad reads that change nothing, and what they answer once an engine has written its own registers. -/

namespace Sys2Proof.Machine

/-- The fields that an error record of class 0 writes. -/
def F.notices : Nat := F.regs ||| F.hubs ||| F.ctrs ||| F.telem ||| F.hostOut ||| F.fab

theorem only_logErr_class_zero {e : ErrEv} (s : State) (he : errClass e.code = 0) : Only F.notices s (logErr e s) := by
  unfold logErr
  dsimp only
  have hcode : errClass (if (hget s e.hub).lost = true then { e with hub := 0 } else e).code = 0 := by
    split <;> exact he
  generalize (if (hget s e.hub).lost = true then { e with hub := 0 } else e) = e' at hcode
  rw [logInto_class_zero _ _ hcode, if_neg Bool.false_ne_true]
  exact only_errNotice (φ := F.notices) rfl (only_hset (φ := F.notices) rfl (Only.refl _ _) _ _) _

section
variable {K : Nat → Prop} {ρ : Store Word → Store Word → Prop} {s w : State}

theorem seen_cluPart (h : Seen ρ s w) (k : Nat) : cluPart w k = cluPart s k := by
  have hq : cluQT w k = cluQT s k := by rw [cluQT, cluQT, twLog, twLog, clLog, clLog, h.map]
  rw [cluPart, cluPart, hq, h.parts]

theorem seen_coreName (h : Seen ρ s w) (c : Nat) : coreName w c = coreName s c := by
  rw [coreName, coreName, twLog, twLog, clLog, clLog, coLog, coLog, h.map]

theorem seen_coreErr (hρ : RegRel K ρ) (h : Seen ρ s w) {code : Nat} (he : errClass code = 0) (c engine detail : Nat) :
    Seen ρ (coreErr c code engine detail (corePart s c) s) (coreErr c code engine detail (corePart w c) w) := by
  have hpart : corePart w c = corePart s c := seen_cluPart h _
  have hlog : logicalField w c = logicalField s c := by rw [logicalField, logicalField, seen_coreName h]
  rw [coreErr, coreErr, hpart, hlog]
  exact seen_logErr hρ h he

theorem only_coreErr_class_zero {code : Nat} (he : errClass code = 0) (c engine detail : Nat) (part : Option Nat) (s : State) :
    Only F.notices s (coreErr c code engine detail part s) := only_logErr_class_zero s he

theorem seen_corUpd (hρ : RegRel K ρ) (h : Seen ρ s w) {c o : Nat} (ho : ¬K (coreBase c + o)) (f : Word → Word) :
    Seen ρ (corUpd c o f s) (corUpd c o f w) := seen_rupd hρ h ho f

theorem seen_tallyCore (h : Seen ρ s w) (c evt n : Nat) (tx : Option Tx) : Seen ρ (tallyCore c evt n tx s) (tallyCore c evt n tx w) :=
  seen_left (seen_right h (only_tallyCore (φ := F.unseen) rfl (Only.refl _ _) _ _ _ _))
    (only_tallyCore (φ := F.unseen) rfl (Only.refl _ _) _ _ _ _)

/-- The record of a corrected read. -/
def readCorrected (c b : Nat) (s : State) : State :=
  tallyCore c 0x0150 1 none (coreErr c 0x0101 0 b (corePart s c) (corUpd c 0x30 (fun w => wSatAdd w 15 0 1) s))

theorem corePart_corUpd (c o : Nat) (f : Word → Word) (s : State) (k : Nat) : corePart (corUpd c o f s) k = corePart s k := by
  have h : Only F.regs s (corUpd c o f s) := only_corUpd (φ := F.regs) rfl (Only.refl _ s) c o f
  rw [corePart, corePart, cluPart, cluPart, cluQT, cluQT, twLog, twLog, clLog, clLog, h.map rfl, h.parts rfl]

theorem seen_readCorrected (hρ : RegRel K ρ) (h : Seen ρ s w) {c b : Nat} (hkey : ¬K (coreBase c + 0x30)) :
    Seen ρ (readCorrected c b s) (readCorrected c b w) := by
  have herr := seen_coreErr hρ (seen_corUpd hρ h hkey (fun w => wSatAdd w 15 0 1)) (show errClass 0x0101 = 0 by decide) c 0 b
  rw [corePart_corUpd, corePart_corUpd] at herr
  exact seen_tallyCore herr _ _ _ _

theorem only_readCorrected (c b : Nat) (s : State) : Only F.notices s (readCorrected c b s) :=
  only_tallyCore (φ := F.notices) rfl ((only_corUpd (φ := F.notices) rfl (Only.refl _ s) c 0x30 _).trans
    (only_coreErr_class_zero (by decide) _ _ _ _ _)) _ _ _ _

end

/-- A read that delivers its block does so on every state that holds the same, and does nothing there that it does not do here. -/
theorem spRead_seen {K : Nat → Prop} {ρ : Store Word → Store Word → Prop} (hρ : RegRel K ρ) {s w : State} {c b : Nat} {d : List Byte}
    (h : Seen ρ s w) (hmerges : (cget w c).merges = (cget s c).merges) (hsp : w.sp = s.sp) (hchk : w.spChk = s.spChk)
    (hwr : w.spWr = s.spWr) (hkey : ¬K (coreBase c + 0x30)) (hread : (spRead c b s).1 = some d) :
    (spRead c b w).1 = some d ∧ Seen ρ (spRead c b s).2 (spRead c b w).2 ∧ Only F.notices w (spRead c b w).2 := by
  refine ⟨(spRead_fst_congr hmerges hsp hchk hwr).trans hread, ?_⟩
  unfold spRead spWritten at *
  rw [hmerges, hsp, hchk, hwr]
  cases hm : (cget s c).merges.reverse.find? (fun g => g.blk == b) with
  | some g => exact ⟨h, Only.refl _ _⟩
  | none =>
    rw [hm] at hread
    dsimp only at hread ⊢
    split at hread
    next => exact nomatch hread
    next hw =>
      rw [if_neg hw, if_neg hw]
      cases hdec : eccDecode (memRead s.sp (spKey c b) 64) (memRead s.spChk (spChkKey c b) 16) with
      | clean d => exact ⟨h, Only.refl _ _⟩
      | corrected d =>
        exact ⟨seen_readCorrected hρ h hkey, only_readCorrected c b w⟩
      | poison =>
        rw [hdec] at hread
        exact nomatch hread
      | bad =>
        rw [hdec] at hread
        exact nomatch hread

/-- State `w` differs from `s` in the matrix engine of core `c` and in counters alone. -/
structure MxeOnly (c : Nat) (s w : State) : Prop where
  self : { cget w c with mxe := (cget s c).mxe } = cget s c
  other : oneCore c s w
  regs : w.regs = s.regs
  rest : onlyCores s w

theorem mxeOnly_refl (c : Nat) (s : State) : MxeOnly c s s := ⟨rfl, fun _ _ => rfl, rfl, rfl⟩

theorem mxeOnly_mxupd {c : Nat} {s w : State} (h : MxeOnly c s w) (f : MxeSt → MxeSt) : MxeOnly c s (mxupd c f w) where
  self := by
    rw [cget_mxupd_same]
    exact h.self
  other := fun k hk => (cget_mxupd_other _ _ hk).trans (h.other k hk)
  regs := h.regs
  rest := onlyCores_trans h.rest (onlyCores_mxupd _ _ _)

theorem MxeOnly.eqn {c : Nat} {s w : State} (h : MxeOnly c s w) : { w with regs := s.regs, cores := s.cores, ctrs := s.ctrs } = s := h.rest

theorem MxeOnly.seen {c : Nat} {s w : State} (h : MxeOnly c s w) : Seen Eq s w where
  regs := h.regs.symm
  hubs := (congrArg State.hubs h.eqn :)
  telem := (congrArg State.telem h.eqn :)
  hostOut := (congrArg State.hostOut h.eqn :)
  fab := (congrArg State.fab h.eqn :)
  ns := (congrArg State.ns h.eqn :)
  sec := (congrArg State.sec h.eqn :)
  parts := (congrArg State.parts h.eqn :)
  map := (congrArg State.map h.eqn :)
  cfg := (congrArg State.cfg h.eqn :)
  d3 := (congrArg State.d3 h.eqn :)

/-- What wrote notices alone and left what they touch as it was left everything but counters. -/
theorem onlyCores_of_notices {s w w' : State} (h : onlyCores s w) (hs : Seen Eq s w') (k : Only F.notices w w') : onlyCores s w' := by
  have e : { w with regs := w'.regs, hubs := w'.hubs, ctrs := w'.ctrs, telem := w'.telem, hostOut := w'.hostOut, fab := w'.fab } = w' := k
  have h' : { w with regs := s.regs, cores := s.cores, ctrs := s.ctrs } = s := h
  have hhubs : w.hubs = s.hubs := (congrArg State.hubs h' :)
  have htelem : w.telem = s.telem := (congrArg State.telem h' :)
  have hout : w.hostOut = s.hostOut := (congrArg State.hostOut h' :)
  have hfab : w.fab = s.fab := (congrArg State.fab h' :)
  unfold onlyCores at *
  rw [← e]
  dsimp only
  rw [hs.hubs, hs.telem, hs.hostOut, hs.fab, ← hhubs, ← htelem, ← hout, ← hfab]
  exact h

/-- A read that changed nothing on `s` changes nothing on a state whose matrix engine alone differs. -/
theorem spRead_mxeOnly {c b : Nat} {s w : State} {d : List Byte} (h : MxeOnly c s w) (hread : spRead c b s = (some d, s)) :
    ∃ w', spRead c b w = (some d, w') ∧ MxeOnly c s w' ∧ (cget w' c).mxe = (cget w c).mxe := by
  obtain ⟨hfst, hseen, honly⟩ := spRead_seen regRel_eq (c := c) (b := b) h.seen (by rw [← h.self]) ((congrArg State.sp h.eqn :))
    ((congrArg State.spChk h.eqn :)) ((congrArg State.spWr h.eqn :)) id (by rw [hread])
  rw [hread] at hseen
  have hcores (k : Nat) : cget (spRead c b w).2 k = cget w k := by rw [cget, honly.cores rfl, cget]
  refine ⟨(spRead c b w).2, Prod.ext hfst rfl, ⟨?_, fun k hk => (hcores k).trans (h.other k hk), hseen.regs.symm,
    onlyCores_of_notices h.rest hseen honly⟩, by rw [hcores]⟩
  rw [hcores]
  exact h.self

end Sys2Proof.Machine
end
